-- ==== Sys2Proof/Word.lean ====
section
/-!
DEFINITION. The words the LB-9620 computes on (R6, R7, R8): bytes, 32-bit and 64-bit words, and their split into
little-endian bytes. Nothing here depends on the state.
-/

namespace Sys2Proof

/-- One byte of memory or scratchpad. -/
abbrev Byte := BitVec 8

/-- A 32-bit register value. -/
abbrev Word := BitVec 32

/-- A 64-bit register value, an address, or a count of ticks. -/
abbrev DWord := BitVec 64

end Sys2Proof
end

