-- ==== Sys2Proof/Syntax.lean ====
section
/-!
DEFINITION. The commands of the LB-9620: one constructor per row of the opcode table, with the operands the model gives
it. Instruction rows carry the group that issues the instruction and the 54 bits below the opcode field (R77, R79);
event rows name the unit they concern, and carry what only the environment knows (sensor readings, fuses, detected errors).
-/

namespace Sys2Proof

/-- An instruction as a group issues it: the logical core, the group's index within its batch, and bits [53:0] of the
instruction word (R77): PRED [53:51], PNEG [50], and the format fields. -/
structure Th where
  core : Nat
  grp : Nat
  bits : BitVec 54
  deriving DecidableEq, Repr

/-- A memory error that an access finds in a scratchpad (R193): the physical address of the 64-bit word, and whether the
error is uncorrectable. -/
structure Upset where
  addr : Nat
  double : Bool
  deriving DecidableEq, Repr

/-- An error that an access finds in a 32-byte sector (R249): the sector's number in its line, or, of a
landing slot's fetch, on the chip; and whether it is uncorrectable. -/
structure SectorErr where
  sector : Nat
  double : Bool
  deriving DecidableEq, Repr

/-- A register access's requester (R14, R16): a number that tells requesters apart, and whether it is in the secure
world. -/
structure Requester where
  id : Nat
  secure : Bool
  deriving DecidableEq, Repr

/-- A message as it stands in a flit (R413): its header fields, with the age in ms, its data and its poison mask. -/
structure WireMsg where
  type : Nat
  label : Nat
  hops : Nat
  src : Nat
  dest : Nat
  epoch : Nat
  instar : Nat
  inst : Nat
  deadline : Nat
  ageMs : Nat
  tag : Nat
  aux : Nat
  addr : Nat
  data : List Byte
  poison : Nat
  deriving DecidableEq, Repr

/-- A flit that arrives (R409): whether CHECK passes and FEC corrected it, the codewords FEC corrected and could not, the
header fields, and the messages that end in its body. -/
structure Flit where
  good : Bool
  corrected : Nat
  uncorrectable : Nat
  seq : Nat
  ack : Nat
  nak : Bool
  vl : Nat
  enc : Bool
  part : Nat
  cvl : Nat
  cpart : Nat
  credits : Nat
  kepoch : Nat
  msgs : List WireMsg
  deriving DecidableEq, Repr

/-- What firmware's ageing record keeps of a physical core (R494): FMAX and VOFS, the marks of its last re-plan, and the
degradations of its past plans. -/
structure Age where
  fmax : Nat
  vofs : Nat
  aged : Bool
  degr : Nat
  slack : Nat
  past : List Nat
  deriving DecidableEq, Repr

/-- What the package keeps without power, in fuses and NOR flash: the serial number, each physical core's fused maximum,
whether test access is locked, and the factory calibration coefficients by wing, in 1/10,000 (R476, R504); the two firmware
images (R503) and the board descriptor (R509); the identity certificate chain and the seconds between which it is valid
(R462); the defect ledger (R506), the ageing record and the hours of its last re-plan (R494), the saved calibration
coefficients (R476), the highest SEQ accepted, and the verification keys that manufacture
enrolled (R464). -/
structure Flash where
  serial : Nat
  fused : List Nat
  locked : Bool
  factory : List Nat
  primary : List Byte
  secondary : List Byte
  board : List Byte
  certs : List Byte
  certFrom : Nat
  certUntil : Nat
  ledger : List Byte
  ageing : List (Nat × Age)
  replanAt : Nat
  saved : List Nat
  seq : Nat
  cvks : List (Nat × List Byte)
  deriving DecidableEq, Repr

/-- A blank part. -/
def Flash.empty : Flash := ⟨0, [], false, [], [], [], [], [], 0, 0, [], [], 0, [], 0, []⟩

/-- A finding for the defect ledger (R507): TYPE, UNIT and DETAIL. -/
structure Finding where
  type : Nat
  unit : Nat
  detail : Nat
  deriving DecidableEq, Repr

/-- What a phase of eclosion finds, and only the part itself knows (R499 to R512). -/
inductive PhaseData where
  /-- E0: nothing. -/
  | alwaysOn
  /-- E1: what manufacture left in fuses and NOR flash, which the first bring-up takes up, and whether the root key checks. -/
  | rom (flash : Flash) (rootOk : Bool)
  /-- E2: whether every fuse block's parity checks. -/
  | fuses (parityOk : Bool)
  /-- E3: nothing. -/
  | rails
  /-- E4: the bridge links that fail training, as bridge and link. -/
  | bridges (failed : List (Nat × Nat))
  /-- E5: the stacks that fail training, the temperature of each stack, and findings (TYPE 4 and 5). -/
  | memory (untrained temps : List Nat) (finds : List Finding)
  /-- E6: the findings of the self-test. -/
  | selfTest (finds : List Finding)
  /-- E7: nothing. -/
  | numbering
  /-- E8: the TRAY_ID straps, and as bits the dies that do not answer, the engines that fail their self-check, and the ports
  that fail their loopback. -/
  | topology (tray dies engines ports : Nat)
  /-- E9: the findings of the link self-check (TYPE 7 and 8). -/
  | links (finds : List Finding)
  deriving DecidableEq, Repr

/-- A held message (R521): at a place of the link input; at a place of a port's queue; a Silk message; a release on its way to
an operation; a memory request. -/
inductive HeldMsg where
  | arrived (k : Nat)
  | atPort (p k : Nat)
  | silk (id : Nat)
  | release (op : Nat)
  | request (id : Nat)
  deriving DecidableEq, Repr

/-- An instruction of the test access port (R540). -/
inductive TapInstr where
  | bypass
  | idcode
  | other (code : Nat)
  deriving DecidableEq, Repr

/-- A unit with an instar (R357): a core, a queue descriptor, a context slot or an instance. -/
inductive Unit8 where
  | core (c : Nat)
  | queue (q : Nat)
  | slot (k : Nat)
  | inst (i : Nat)
  deriving DecidableEq, Repr

/-- A core, and the rows of its accumulator that are read with an uncorrectable error (R124). -/
structure RowErrs where
  core : Nat
  bad : List Nat
  deriving DecidableEq, Repr

/-- The commands: every row of the opcode table, in its order. Operands, where a row has them: `t` the instruction as its group
issues it; `c` a logical core, `g` a group of its batch, `w` a wing, `p` a port, `m` a memory slice, `d` a regulator domain, `i` an
instance; `win` a window (0 the physical function's, n + 1 instance n's); `u` a mover (a core's number; 256 + n for bulk
cluster n) with `k` its channel, or a reset unit (an instance, 32 for the chip); elsewhere `k`, `id`, `kid`, `tid`, `wid`, `op`
and `space` name an entry of State by its key, or a place in a list; `v` a value written; and findings of the environment. -/
inductive Instr where
  /-- A write to a register field that has no row of its own takes effect per its access code, with reserved encodings
  and bad access sizes discarded (R16). -/
  | registerWrite (req : Requester) (win off size v : Nat)
  /-- A 32-bit read of the lower half of a 64-bit register latches the upper half for the same requester, and a
  following upper-half read returns the latched value (R14). -/
  | registerSplitRead (req : Requester) (win off size : Nat)
  /-- The S instruction NOP has no effect (R84). -/
  | nop (t : Th)
  /-- D receives A (R84). -/
  | mov (t : Th)
  /-- D receives A + B, modulo 2^32 (R84). -/
  | add (t : Th)
  /-- D receives A − B, modulo 2^32 (R84). -/
  | sub (t : Th)
  /-- D receives the low 32 bits of A × B (R84). -/
  | mul (t : Th)
  /-- D receives the high 32 bits of the signed product A × B (R84). -/
  | mulhi (t : Th)
  /-- D receives the high 32 bits of the unsigned product A × B (R84). -/
  | mulhiu (t : Th)
  /-- D receives the bitwise AND of A and B (R84). -/
  | and (t : Th)
  /-- D receives the bitwise OR of A and B (R84). -/
  | or (t : Th)
  /-- D receives the bitwise XOR of A and B (R84). -/
  | xor (t : Th)
  /-- D receives A AND NOT B (R84). -/
  | andn (t : Th)
  /-- D receives A shifted left by B[4:0] (R84). -/
  | shl (t : Th)
  /-- D receives A shifted right by B[4:0], zero-filled (R84). -/
  | shr (t : Th)
  /-- D receives A shifted right by B[4:0], sign-filled (R84). -/
  | sra (t : Th)
  /-- D receives the signed minimum of A and B (R84). -/
  | min (t : Th)
  /-- D receives the signed maximum of A and B (R84). -/
  | max (t : Th)
  /-- D receives the unsigned minimum of A and B (R84). -/
  | minu (t : Th)
  /-- D receives the unsigned maximum of A and B (R84). -/
  | maxu (t : Th)
  /-- D receives the count of leading zero bits of A (R84). -/
  | clz (t : Th)
  /-- D receives the count of one bits of A (R84). -/
  | popc (t : Th)
  /-- D receives A with its bit order reversed (R84). -/
  | brev (t : Th)
  /-- In every active lane D receives A where the predicate holds and B otherwise (R84). -/
  | sel (t : Th)
  /-- D receives A as held in lane B[4:0], or 0 from an inactive source lane (R84). -/
  | shfl (t : Th)
  /-- D receives the mask of active lanes in which the named p register is 1 (R84). -/
  | ballot (t : Th)
  /-- A p register receives the per-lane comparison of A with B under the condition the opcode selects (R84). -/
  | setp (cond : BitVec 3) (t : Th)
  /-- PAND, POR, PXOR or PANDN combines two p registers per lane into D (R84). -/
  | predicateLogic (op : BitVec 2) (t : Th)
  /-- An a register receives a A plus sign-extended B (R84). -/
  | aadd (t : Th)
  /-- Bits [31:0] of an a register receive B, the upper half unchanged (R84). -/
  | alo (t : Th)
  /-- Bits [63:32] of an a register receive B (R84). -/
  | ahi (t : Th)
  /-- D receives bits [31:0] of an a register (R84). -/
  | agetl (t : Th)
  /-- D receives bits [63:32] of an a register (R84). -/
  | ageth (t : Th)
  /-- D receives A + B in binary32, correctly rounded (R85). -/
  | fadd (t : Th)
  /-- D receives A − B in binary32, correctly rounded (R85). -/
  | fsub (t : Th)
  /-- D receives A × B in binary32, correctly rounded (R85). -/
  | fmul (t : Th)
  /-- D receives A × B + C with one rounding (R85). -/
  | ffma (t : Th)
  /-- D receives the minimum of A and B under the NaN and signed-zero rules (R85). -/
  | fmin (t : Th)
  /-- D receives the maximum of A and B under the NaN and signed-zero rules (R85). -/
  | fmax (t : Th)
  /-- D receives the absolute value of A (R85). -/
  | fabs (t : Th)
  /-- D receives −A (R85). -/
  | fneg (t : Th)
  /-- A p register receives the floating-point comparison of A with B under the selected condition (R85). -/
  | fsetp (cond : BitVec 3) (t : Th)
  /-- D receives an approximation of 1/A within 1 ulp (R85). -/
  | frcp (t : Th)
  /-- D receives an approximation of 1/√A within 2 ulp (R85). -/
  | frsq (t : Th)
  /-- D receives √A, correctly rounded (R85). -/
  | fsqrt (t : Th)
  /-- D receives an approximation of 2^A (R85). -/
  | fexp2 (t : Th)
  /-- D receives an approximation of log2 A (R85). -/
  | flog2 (t : Th)
  /-- D receives an approximation of tanh A (R85). -/
  | ftanh (t : Th)
  /-- D receives an approximation of the logistic sigmoid of A (R85). -/
  | fsigm (t : Th)
  /-- An element of A in SFMT is converted to DFMT and written to an element of D (R86). -/
  | cvt (t : Th)
  /-- Every active lane receives the fixed-tree sum of A over the executing lanes (R87). -/
  | fredadd (t : Th)
  /-- Every active lane receives the maximum of A over the executing lanes (R87). -/
  | fredmax (t : Th)
  /-- A load from the group's own scratchpad into DATA (R89). -/
  | xlds (t : Th) (ups : List Upset)
  /-- A store of DATA to the group's own scratchpad (R89). -/
  | xsts (t : Th) (ups : List Upset)
  /-- A load from device virtual memory into DATA, translated as a tile and carrying the kernel's class label (R89). -/
  | xldg (t : Th)
  /-- A store of DATA to device virtual memory (R89). -/
  | xstg (t : Th)
  /-- A 32-bit atomic on own scratchpad, its operation selected by SUB, returning the old value (R91). -/
  | xatoms (t : Th) (ups : List Upset)
  /-- A 32- or 64-bit atomic performed at the memory-side buffer, its operation selected by SUB (R91). -/
  | xatomg (t : Th)
  /-- Copies a mover descriptor from scratchpad into the queue of a mover channel (R93). -/
  | xmov (t : Th) (ups : List Upset)
  /-- Orders the group's earlier global accesses before later ones at the scope SUB names (R92). -/
  | xfence (t : Th)
  /-- The C instruction CNOP has no effect (R94). -/
  | cnop (t : Th)
  /-- A conditional branch that may split the group, pushing reconvergence entries (R82). -/
  | cbr (t : Th)
  /-- A uniform jump to an IMM-relative target (R94). -/
  | cjmp (t : Th)
  /-- Writes the return address to an a register and jumps (R94). -/
  | ccall (t : Th)
  /-- Jumps to the address held in an a register, faulting when it is misaligned (R94). -/
  | cjmpr (t : Th)
  /-- Removes the executing lanes from the active mask for good (R82). -/
  | cexit (t : Th)
  /-- The group waits at batch barrier n (R95). -/
  | cbar (t : Th)
  /-- When every non-ended group waits at a barrier, all are released together and the barrier resets (R95). -/
  | barrierRelease (c n : Nat)
  /-- The group waits until every condition selected by SUB holds (R96). -/
  | cwait (t : Th)
  /-- The conditions of a waiting CWAIT all hold and the group becomes ready (R96). -/
  | cwaitSatisfied (c g : Nat)
  /-- The group is not ready for the given number of core clocks (R94). -/
  | csleep (t : Th)
  /-- A sleeping group's clock count runs out and it becomes ready (R94). -/
  | csleepExpiry (c g : Nat)
  /-- Sends a Silk ADD of D to a counter of the instance's range or of a remote chip (R97). -/
  | csilkAdd (t : Th)
  /-- Reads a Silk counter into D (R97). -/
  | csilkRead (t : Th)
  /-- The group waits until a Silk counter is at least D (R97). -/
  | csilkWaitge (t : Th)
  /-- The group waits until a Silk counter is non-zero and then decrements it (R97). -/
  | csilkTake (t : Th)
  /-- D receives a special register (R98). -/
  | csrd (t : Th)
  /-- Writes A to FLAGS with W1C semantics (R98). -/
  | cswr (t : Th)
  /-- Raises KERNEL_ABORT carrying a code (R94). -/
  | cabort (t : Th)
  /-- Data of a global load, atomic or Silk READ returns and is written to its registers, or raises DATA_POISON (R76). -/
  | loadDataReturn (op : Nat)
  /-- Every page of a tile has been translated and the tile may issue, ending a translation stall (R292). -/
  | tileTranslated (tid : Nat)
  /-- The core fetches a 256-byte code line that a group needs into its instruction cache (R545). -/
  | ifetchLine (c g : Nat)
  /-- A fetched code line arrives, or ends with poison or an error that stops the kernel (R545). -/
  | ifetchLineReturn (c line : Nat)
  /-- The stopped kernel has drained; reservations are invalidated, the fault record is posted and the fence takes the
  error (R101). -/
  | kernelStopDrainEnd (kid : Nat)
  /-- 100 µs after a fault, transfers still incomplete are aborted (R101). -/
  | kernelStopAbort (kid : Nat)
  /-- The scheduler places a batch of the holder on a free core of the Imago (R390). -/
  | batchDeal (i : Nat)
  /-- After the zeroing of R74 completes, a batch's groups receive slots and begin (R74). -/
  | batchStart (c : Nat)
  /-- All groups have ended and every issued operation completed; the batch ends and the kernel may complete (R68). -/
  | batchEnd (c : Nat)
  /-- A batch is stopped at an instruction boundary and its state is saved to the context save area (R104). -/
  | batchPreempt (c : Nat)
  /-- The save of a preempted batch completes and its core may take another batch (R393). -/
  | batchSaveComplete (c : Nat)
  /-- A saved batch is restored to a core and continues as if not stopped (R393). -/
  | batchRestore (i : Nat) (corrupt : Bool)
  /-- Queues a load of a weight tile into a weight slot (R109). -/
  | mloadw (t : Th)
  /-- MSCALE WBLOCK loads the block-scale store of a slot (R110). -/
  | wblock (t : Th)
  /-- MSCALE WTILE sets the weight tile scales of a slot from u registers (R110). -/
  | wtile (t : Th)
  /-- MSCALE ATILE sets the four A tile scales (R110). -/
  | atile (t : Th)
  /-- Queues a dense stream of A rows against a weight slot into accumulator tiles (R114). -/
  | mstream (t : Th)
  /-- Queues a stream of A rows against an N:8 sparse weight slot (R115). -/
  | msparse (t : Th)
  /-- Queues a drain that converts accumulator rows and writes them to scratchpad (R119). -/
  | mdrain (t : Th)
  /-- A queued M instruction begins in its engine after the hazards of R122, making the checks of R130 (R121). -/
  | mEngineBegin (c seq : Nat) (ups : List Upset)
  /-- A requested scratchpad chunk of A rows arrives in the A buffer and is tested for zero rows (R128). -/
  | aChunkArrival (c : Nat) (ups : List Upset)
  /-- The next A row enters the array once it is buffered, its slot loaded and no drain blocks it (R114). -/
  | matrixRowEntry (c : Nat)
  /-- 136 clocks after entry a row updates its accumulator row, together with pending skipped-row updates (R125). -/
  | accUpdate (c : Nat) (bad : List Nat)
  /-- A stream of which no row enters applies all its updates in one clock and completes (R144). -/
  | noRowStreamUpdate (x : RowErrs)
  /-- The last byte of a weight tile is in its slot and MLOADW completes, checking sparse indices (R126). -/
  | slotLoadComplete (c : Nat) (ups : List Upset)
  /-- The drain reads one accumulator row, optionally clearing it, and processes its elements (R119). -/
  | drainRowRead (c : Nat) (bad : Bool)
  /-- 16 clocks after its read a converted row is written to scratchpad (R125). -/
  | drainRowWrite (c : Nat)
  /-- An M instruction completes, raising its flags and its credit line (R126). -/
  | mInstrComplete (c e : Nat)
  /-- A corrected scratchpad word is written back when a port and its bank are free (R193). -/
  | scratchEccWriteback (c : Nat)
  /-- A descriptor reaches the front of its channel and is checked; a CREDIT descriptor adds its count and completes (R215). -/
  | descFront (u k : Nat)
  /-- Every page of a descriptor segment is mapped and the channel becomes Ready (R219). -/
  | descTranslated (u k : Nat)
  /-- The mover picks a ready channel by PRIO and round robin and issues its next burst, taking a credit if paced (R213). -/
  | burstStart (u : Nat)
  /-- Source data returns into a channel's holding register, is converted and delivered to the write stage (R207). -/
  | moverReadReturn (u k : Nat) (ups : List Upset)
  /-- Every write of a descriptor is performed and its reads returned; it completes, raising RAISE and flags (R218). -/
  | descComplete (u k : Nat)
  /-- A peer scratchpad access not performed within TMV_PEER_TIMEOUT fails with SCRATCH_PEER (R199). -/
  | peerAccessTimeout (u k : Nat)
  /-- A BST transfer's header arrives and is validated (R150). -/
  | bstHeaderReturn (u k : Nat)
  /-- A BST transfer checks one tile row's bitmap and row base and moves its tiles (R150). -/
  | bstTileRow (u k : Nat)
  /-- A free Gate unit takes the waiting dispatch with the lowest class label, waking its wing if needed (R157). -/
  | gateDispatchSelect (w : Nat)
  /-- A ROUTE dispatch scores, selects, assigns capacity, writes outputs, resolves and updates predictions (R172). -/
  | route (w : Nat) (ups : List Upset)
  /-- A COMBINE dispatch sums weighted expert outputs into each live token's output row (R170). -/
  | combine (w : Nat)
  /-- An EXIT dispatch evaluates the early-exit predicate and clears live bits (R171). -/
  | exit (w : Nat) (ups : List Upset)
  /-- All gather transfers of a ROUTE have completed and the ROUTE goes on to prediction (R172). -/
  | gateGatherComplete (w : Nat)
  /-- A dispatch writes its summary and signals its completion fence (R172). -/
  | gateDispatchComplete (w : Nat)
  /-- All bytes of a landing slot's fetch have landed (R187). -/
  | slotFetchLanded (id : Nat) (errs : List SectorErr)
  /-- A speculative fetch meets an unmapped or foreign page and the slot becomes void (R181). -/
  | slotFetchVoid (id : Nat)
  /-- A promoted slot's fetch completes, releasing its hold and counting its bytes (R187). -/
  | slotPromoted (id : Nat) (errs : List SectorErr)
  /-- A slot's fetch is stopped and its issued requests cancelled (R184). -/
  | squash (id : Nat)
  /-- Every request of a squashed fetch is removed and the slot's pages become cleared pages (R184). -/
  | squashComplete (id : Nat)
  /-- A slot held for GATE_SPEC_TTL µs is squashed (R186). -/
  | slotTtlExpiry (id : Nat)
  /-- A write clearing ENABLE or RUNAHEAD_EN squashes every held slot of the unit (R188). -/
  | gateCtrlWrite (w v : Nat)
  /-- GATE_CMD SQUASH_ALL squashes every held slot of the unit (R188). -/
  | squashAll (w : Nat)
  /-- GATE_CMD FORGET squashes all slots, invalidates LAST triples and advances WGEN (R188). -/
  | forget (w : Nat)
  /-- A read or write arrives at its buffer slice and is looked up and performed, checking its deadline (R239). -/
  | bufferRequest (id : Nat) (errs : List SectorErr)
  /-- A buffer miss completes its HBM access, correcting or poisoning sectors (R241). -/
  | hbmAccessComplete (id : Nat) (errs : List SectorErr)
  /-- An atomic is performed at its buffer slice, or not performed on poison (R246). -/
  | bufferAtomic (id : Nat) (errs : List SectorErr)
  /-- A mover reduction adds its data into a line at the buffer slice (R247). -/
  | bufferReduction (id : Nat) (errs : List SectorErr)
  /-- The patrol scrubber reads and corrects one line on its schedule (R250). -/
  | scrubLine (m : Nat) (errs : List SectorErr)
  /-- A bridge flit failing CRC is resent, the link failing after 16 consecutive resends (R230). -/
  | bridgeResend (b k : Nat) (again : Bool)
  /-- A host request through BAR2 is cut into lines and performed at their buffer slices, or refused (R245). -/
  | apertureRequest (n o len : Nat) (write atomicOp : Bool) (data : List Byte) (poisoned : Bool)
  /-- MEM_SLICE_CMD WB writes every dirty line of a buffer slice back to HBM (R258). -/
  | wb (m : Nat)
  /-- MEM_SLICE_CMD WBINV writes back and then invalidates every line of a buffer slice (R258). -/
  | wbinv (m : Nat)
  /-- A buffer write-back command finishes and WB_BUSY clears (R258). -/
  | sliceCmdDone (m : Nat)
  /-- A Silk operation is performed at its home and waiters are released (R253). -/
  | silkHomeOp (id : Nat)
  /-- A manager write sets a Silk counter at its home and releases waiters (R259). -/
  | silkCtrWrite (n v : Nat)
  /-- A held message whose age reaches 20 ms is discarded without answer (R521). -/
  | messageAgeDiscard (m : HeldMsg)
  /-- A regulator window begins, zeroing every count and applying pending rates (R264). -/
  | regulatorWindow
  /-- A write to QOS_WIN_LEN takes effect at the end of the window in progress (R266). -/
  | qosWinLenWrite (v : Nat)
  /-- A page-table read returns and the walk goes to the next level, completes or faults (R284). -/
  | walkReadReturn (wid : Nat) (hostErr : Bool)
  /-- A held fault record is written to its fault queue once there is room (R297). -/
  | faultRecordPost (win : Nat)
  /-- XLT_REPLAY with ABORT 0 releases a tracker entry so its tiles translate afresh (R298). -/
  | replay (win id : Nat)
  /-- XLT_REPLAY with ABORT 1 releases an entry and fails every tile that holds it (R299). -/
  | abort (win id : Nat)
  /-- A tracker entry outstanding for FAULT_TMO ms is aborted by the device (R300). -/
  | faultTimeout (k : Nat)
  /-- Advancing XLT_IQ_TAIL makes invalidation descriptors visible for the device to read (R302). -/
  | iqTailWrite (win v : Nat)
  /-- An invalidation descriptor drops every cached entry of a space overlapping a VA range (R302). -/
  | range (win : Nat)
  /-- An invalidation descriptor drops every cached entry of one space (R302). -/
  | space (win : Nat)
  /-- An invalidation descriptor from the physical function drops every cached entry (R302). -/
  | all (win : Nat)
  /-- An invalidation descriptor completes once every earlier descriptor has completed (R302). -/
  | sync (win : Nat)
  /-- Every completion condition of an invalidation holds; HEAD advances and the fence is signalled (R304). -/
  | invalidationComplete (id : Nat)
  /-- An invalidation incomplete after XLT_INV_TIMEOUT µs is counted as slow (R306). -/
  | invalidationSlow (id : Nat)
  /-- A write of XLT_WS_FLUSH with BUSY starts a whole-space flush of a space ID (R307). -/
  | wsFlush (win v : Nat)
  /-- A whole-space flush completes and BUSY clears (R307). -/
  | wsFlushComplete (id : Nat)
  /-- Firmware copies, verifies, checks and admits an Oatas stream, then replies or commits (R335). -/
  | compose
  /-- At the commit tick every unit switches to the new epoch's maps and the Imago enters chrysalis (R337). -/
  | commitTick (badKeys : List Nat)
  /-- All old-epoch requests, leaving slices and evacuations are done; the old map retires and COMPOSED is posted (R340). -/
  | chrysalisEnd (i : Nat)
  /-- A chrysalis lasting WARN_MS sets SLOW and posts CHRYSALIS_SLOW (R340). -/
  | chrysalisSlow (i : Nat)
  /-- An unbound core's requests have all completed; its instar advances and it becomes FREE (R342). -/
  | coreLeft (c : Nat)
  /-- An unbound link port's last flit is acknowledged and it becomes FREE (R344). -/
  | linkSliceLeft (p : Nat)
  /-- A memory slice in SCRUBBING has been zeroed and becomes FREE (R315). -/
  | scrubComplete (m : Nat)
  /-- One line of a moving entry is locked, read, written to the destination and the cursor passes it (R348). -/
  | evacuateLine (i src : Nat) (errs : List SectorErr)
  /-- A lender that does not answer within 1 ms fails the stream with REMOTE_REFUSED (R353). -/
  | leaseHandshakeTimeout
  /-- A unit's instar advances, after waiting out the remainder of 100 µs if needed (R357). -/
  | instarAdvance (u : Unit8)
  /-- SCH_CMD CTX_CREATE checks and defines a context in the directory (R363). -/
  | ctxCreate (win : Nat)
  /-- SCH_CMD CTX_DESTROY begins teardown of a context with CONTEXT_DESTROYED (R394). -/
  | ctxDestroy (win : Nat)
  /-- SCH_CMD CTX_KILL begins teardown of a context with PRODUCER_LOST (R394). -/
  | ctxKill (win : Nat)
  /-- SCH_CMD Q_CREATE binds a queue to a ring, error mode and status block (R374). -/
  | qCreate (win : Nat)
  /-- SCH_CMD Q_DESTROY destroys a queue with no command in progress (R404). -/
  | qDestroy (win : Nat)
  /-- SCH_CMD Q_RESUME returns a stopped or propagating queue to RUNNING, optionally flushing it (R386). -/
  | qResume (win : Nat)
  /-- SCH_CMD OBJ_FREE marks an object FREEING and retires it when unreferenced (R369). -/
  | objFree (win : Nat)
  /-- SCH_CMD FENCE_SIGNAL signals a fence with a value (R371). -/
  | fenceSignal (win : Nat)
  /-- SCH_CMD FENCE_ERROR sets a fence to an error code (R371). -/
  | fenceError (win : Nat)
  /-- SCH_CMD FENCE_RESET resets a fence to CLEAN with a value (R371). -/
  | fenceReset (win : Nat)
  /-- A write to SCH_DB_n is checked and makes new ring entries visible, or stops the queue (R376). -/
  | doorbell (win n v : Nat)
  /-- A visible ring entry is read, validated and copied on chip, taking object references (R377). -/
  | commandTake (q : Nat)
  /-- A context with work takes a free slot, evicting if needed, and checks its space and save area (R364). -/
  | contextResident (space : Nat)
  /-- A command whose ordering conditions hold starts (R378). -/
  | commandStart (id : Nat)
  /-- A KERNEL command reads its launch block and deals its batches (R380). -/
  | kernel (id : Nat)
  /-- A COPY command deals its descriptors to bulk channels (R382). -/
  | copy (id : Nat)
  /-- A FILL command writes a pattern over a range on bulk channels (R380). -/
  | fill (id : Nat)
  /-- A SIGNAL command applies SET, RESET or ERROR to its fence (R381). -/
  | signal (id : Nat)
  /-- A WAIT command waits for a fence to reach a value (R381). -/
  | wait (id : Nat)
  /-- A WAIT unsatisfied after TIMEOUT_US fails with WAIT_TIMEOUT (R381). -/
  | waitTimeout (id : Nat)
  /-- A COLLECTIVE command opens its collective and runs its steps (R429). -/
  | collective (id : Nat)
  /-- A GATE_DISPATCH command enters its Gate unit's queue once it has room (R384). -/
  | gateDispatch (id : Nat)
  /-- An ATOMIC_SEQ command performs up to 16 atomics in order, writing old values (R383). -/
  | atomicSeq (id : Nat)
  /-- A MIGRATE command copies page pairs on bulk channels (R309). -/
  | migrate (id : Nat)
  /-- A MARKER command writes a value and tick and optionally posts a MARKER record (R380). -/
  | marker (id : Nat)
  /-- A command completes or fails; its record and fence are written and the queue follows its error mode (R385). -/
  | commandComplete (id : Nat)
  /-- A holder's time slice ends and the scheduler chooses a holder, renewing or handing over (R389). -/
  | sliceEnd (i : Nat)
  /-- All old-holder batches are saved and non-preemptible work done; the new holder's slice starts (R391). -/
  | handoverComplete (i : Nat)
  /-- A non-preemptible command passing SCH_NP_MAX posts an NP_OVERRUN record (R392). -/
  | npOverrun (id : Nat)
  /-- 100 µs into teardown, remaining transfers are aborted and commands fail (R394). -/
  | teardownAbort (space : Nat)
  /-- After the whole-space flush, queues are destroyed, the QUIESCE record posted and the slot released (R394). -/
  | quiesce (space : Nat)
  /-- A held event record is written to the event queue once there is room (R401). -/
  | eventRecordPost (win : Nat)
  /-- A write of the fault-queue head frees room and arms its interrupt (R402). -/
  | evtFqHeadWrite (win v : Nat)
  /-- A write of the event-queue head frees room and arms its interrupt (R402). -/
  | evtEqHeadWrite (win v : Nat)
  /-- An armed queue's MSI-X message is sent once the moderation interval has passed (R402). -/
  | msixSend (win q : Nat)
  /-- Writing ENABLE 0 takes a port DOWN, ENABLE 1 starts training (R407). -/
  | lnkPortCtrlWrite (p v : Nat)
  /-- Port training completes and the port enters UP after measuring delay (R407). -/
  | portTrained (p delay : Nat)
  /-- Training not complete within 50 ms is counted and retried after 10 ms (R407). -/
  | trainingTimeout (p : Nat)
  /-- Every 1 ms a port measures its one-way delay and marks itself LONG if over 150 ns (R408). -/
  | delayProbe (p delay : Nat)
  /-- 1 µs without lock takes a port DOWN (R407). -/
  | lockLoss (p : Nat)
  /-- Laser input below +16 dBm for 10 µs sets LASER_LOW and takes the port DOWN (R542). -/
  | laserLow (p : Nat)
  /-- A flit arrives; it is accepted in order or discarded with a NAK, and credits and ACKs are processed (R411). -/
  | flitReceive (p : Nat) (f : Flit)
  /-- A message for another chip is forwarded cut-through on a chosen port or answered HOP_LIMIT (R416). -/
  | messageTransit (k : Nat)
  /-- An inbound READ message is performed in a lent slice or refused (R421). -/
  | linkRead (k : Nat)
  /-- An inbound WRITE message is performed in a lent slice or refused (R421). -/
  | linkWrite (k : Nat)
  /-- An inbound ATOMIC message is performed in a lent slice or refused (R421). -/
  | linkAtomic (k : Nat)
  /-- A RESP answer returns data to its requester (R414). -/
  | resp (k : Nat)
  /-- An ACK answer reports a remote write or atomic performed (R414). -/
  | linkAck (k : Nat)
  /-- An ERR answer ends the requesting operation with the mapped error (R414). -/
  | err (k : Nat)
  /-- A COLL_PUT writes collective data and, on a step's last byte, adds to ARRIVED (R429). -/
  | collPut (k : Nat)
  /-- An ABORT message discards queued requests of the named source and instar (R421). -/
  | linkAbort (k : Nat)
  /-- A remote Silk ADD is admitted by an import entry and performed at the home (R425). -/
  | silkAddMsg (k : Nat) (late : Bool)
  /-- A remote Silk READ is admitted and performed at the home (R425). -/
  | silkReadMsg (k : Nat) (late : Bool)
  /-- A remote Silk WAITGE is performed or held in a remote waiter entry (R426). -/
  | silkWaitgeMsg (k : Nat) (late : Bool)
  /-- A remote Silk TAKE is performed or held in a remote waiter entry (R426). -/
  | silkTakeMsg (k : Nat) (late : Bool)
  /-- A Silk RELEASE or READ value reaches the waiting group, or on STALE the waiter is removed and a TAKE undone (R426). -/
  | silkRelease (k : Nat) (late : Bool)
  /-- A Silk ACK acknowledges a remote Silk operation (R414). -/
  | silkAck (k : Nat)
  /-- A COLL_TOKEN opens a collective to a sender or adds to FREE (R429). -/
  | collToken (k : Nat)
  /-- A CUSTODY message is performed on a custody word at the home and answered (R432). -/
  | custody (k : Nat)
  /-- A PEER_NOTICE marks a peer COMPUTE_RESET or READY, failing affected collectives (R434). -/
  | peerNotice (k : Nat)
  /-- A HELLO records or refreshes a neighbour, or puts the port in FAILED on a duplicate ID (R418). -/
  | hello (k : Nat)
  /-- An ADVERT records listed peers one hop further (R418). -/
  | advert (k : Nat)
  /-- A remote fence operation is performed at the fence's home cache (R372). -/
  | fenceOp (k : Nat)
  /-- A fence home releases a remote waiting queue (R372). -/
  | fenceRelease (k : Nat)
  /-- A lease request is granted or refused by the lender, or its answer received (R353). -/
  | lease (k : Nat)
  /-- A LINK_IDLE marks the sending peer IDLE when received from every port to it (R418). -/
  | linkIdle (k : Nat)
  /-- A TIME message from the parent corrects the fabric time base by slewing (R424). -/
  | time (k : Nat)
  /-- An ENC_REQ agrees link encryption and the port derives its keys (R422). -/
  | encReq (k : Nat) (tagBad : Bool)
  /-- A peer not agreeing to ENC_REQ within 1 ms puts the port in FAILED with CAUSE KEY (R423). -/
  | encReqTimeout (p : Nat)
  /-- After 2^40 flits under one key the key epoch advances and both sides derive again (R422). -/
  | keyEpochAdvance (p : Nat)
  /-- Every HELLO_US each UP port sends a HELLO (R418). -/
  | helloSend
  /-- Every ADVERT_MS the chip sends an ADVERT to every neighbour (R418). -/
  | advertSend
  /-- A peer missing AGE intervals moves to AGING, and after more to LOST (R418). -/
  | peerAgeExpiry (k : Nat)
  /-- A collective send action begins once OPEN has arrived and FREE and the prior receive allow (R429). -/
  | collSendAction (id : Nat)
  /-- A receive action begins when ARRIVED reaches the step, reduces and sends a token (R429). -/
  | collReceiveAction (id : Nat)
  /-- A collective action completes, ending the command on its last step (R429). -/
  | collActionComplete (id : Nat) (recv : Bool)
  /-- No collective action can begin for LNK_COLL_TMO and the collective fails with WAIT_TIMEOUT (R430). -/
  | collTimeout (id : Nat)
  /-- SILK_CUST_CMD INIT creates a custody word held by its home (R432). -/
  | init
  /-- SILK_CUST_CMD OFFER offers custody to a peer (R432). -/
  | offer
  /-- SILK_CUST_CMD ACCEPT takes custody and advances CEPOCH (R432). -/
  | accept
  /-- SILK_CUST_CMD RELEASE completes a handoff or withdraws an offer (R432). -/
  | release
  /-- SILK_CUST_CMD RECLAIM returns custody to the home from a LOST chip (R432). -/
  | reclaim
  /-- SILK_CUST_CMD READ returns a custody word (R432). -/
  | custodyRead
  /-- A custody operation with no answer within 20 ms completes with UNREACHABLE (R436). -/
  | custodyUnreachable
  /-- Writing SEND checks word 0 and routes the OUT buffer, or refuses it (R441). -/
  | mbxSend (win : Nat)
  /-- A waiting message is placed in a free IN buffer, setting IN_VALID and interrupting (R442). -/
  | mbxDeliver (win : Nat)
  /-- Writing 1 to IN_VALID releases the IN buffer for the next message (R442). -/
  | mbxInRelease (win : Nat)
  /-- A read or write of MBX_PROXY_DATA performs the access to an instance's register (R444). -/
  | mbxProxyAccess (req : Requester) (write : Bool) (v : Nat)
  /-- Firmware grants an instance its resources and initialises it (R439). -/
  | instCreate (qb sb kb : Nat)
  /-- Firmware fences an instance's window and tears down its contexts (R448). -/
  | instReset
  /-- An instance reset finishes; registers reset, the fence lifts and the reply or INST_FLR is sent (R448). -/
  | instResetDone (i : Nat)
  /-- Firmware resets an instance and then releases its slices, keys and ranges (R450). -/
  | instRemove
  /-- Firmware returns an Imago's composition and grants (R445). -/
  | imagoInfo
  /-- Firmware writes a signed attestation report (R463). -/
  | attest
  /-- Firmware writes the identity certificate chain (R462). -/
  | certRead
  /-- Fills a key slot from the random generator (R456). -/
  | keyGen (bad : List Nat)
  /-- Unwraps a key blob into a slot (R457). -/
  | keyImport (bad : List Nat)
  /-- Wraps an exportable slot into a key blob (R457). -/
  | keyExport (bad : List Nat)
  /-- Fills a slot by HKDF from a derive slot (R456). -/
  | keyDerive (bad : List Nat)
  /-- Zeroes a slot's material, attribute word and tag (R459). -/
  | keyErase
  /-- Encrypts or decrypts a host buffer with AES-256-GCM under a slot (R456). -/
  | keyCrypt (bad : List Nat)
  /-- Enrols or revokes a composition verification key from a signed blob (R464). -/
  | cvkUpdate
  /-- Sets the calendar clock from a signed time blob (R466). -/
  | timeSet
  /-- Writes a world region descriptor (R453). -/
  | regionSet
  /-- An FLR of a virtual function resets its instance (R449). -/
  | vfFlr (i : Nat)
  /-- Lowering NumVFs removes the instances beyond it (R449). -/
  | numvfsLower (n : Nat)
  /-- An FLR of the physical function kills manager contexts, removes every instance and resets its window registers (R517). -/
  | pfFlr
  /-- A write of RTC_SET sets the time while VALID is 0 (R466). -/
  | rtcSet (v : Nat)
  /-- A write of RTC_ADJ starts a slew or is refused (R466). -/
  | rtcAdj (v : Nat)
  /-- A calendar-clock slew finishes and SLEWING clears (R466). -/
  | slewComplete
  /-- An hour in service elapses; the count advances and is mirrored, with coefficients saved (R467). -/
  | hoursTick
  /-- Every 60 s VBAT is sampled and BATT_LOW updated (R468). -/
  | vbatSample (mv : Nat)
  /-- Loss of both backup supplies or a stopped oscillator restarts the clock invalid (R468). -/
  | oscStop
  /-- Every 10 µs the budget arbiter grants core frequencies (R475). -/
  | arbitrate (acts : List Nat) (dom : List (Nat × Nat)) (avgW : Nat)
  /-- A VCORE slew reaches its target and the raised frequency steps (R474). -/
  | voltageReached (w : Nat)
  /-- Every 1 ms the wing calibration coefficients are updated and CAL_DONE evaluated (R476). -/
  | calibrate (energy : List (Nat × Nat × Nat))
  /-- A domain's averaged current exceeds its limit and it begins limiting (R473). -/
  | ilimExceed (d amps : Nat)
  /-- A core's supply falls 30 mV below plan; its clock stretches and raises are held (R478). -/
  | droopEvent (c : Nat)
  /-- 50 µs after the last droop, dip or wake a held raise begins (R479). -/
  | raiseHoldExpiry (w : Nat)
  /-- A write to PWR_PKG_CAP raises the cap or applies or defers a soft cap (R481). -/
  | pwrPkgCapWrite (v : Nat)
  /-- A write to PWR_CORE_FCAP raises a core cap or applies or defers a soft cap (R481). -/
  | pwrCoreFcapWrite (c v : Nat)
  /-- 2 ms after a deferred cap, it takes effect and running collective actions are marked CAPPED (R481). -/
  | capDeferExpiry
  /-- VIN_MAIN below 1.71 V forces F_LOW, stops issue and enters WARNING (R482). -/
  | vinDip (mv : Nat)
  /-- VIN_MAIN at or above 1.74 V starts the 1 ms hold timer (R482). -/
  | vinRecover (us mv : Nat)
  /-- The hold timer expires; issue resumes and the power ramp starts (R482). -/
  | dipHoldExpiry
  /-- 100 µs of ramp elapse and the supply returns to NORMAL (R482). -/
  | rampEnd
  /-- VIN_MAIN below 1.62 V turns off every VIN_MAIN domain (R516). -/
  | supplyReset
  /-- Every 100 µs sensors are read and wing ceilings and stack pacing adjusted (R485). -/
  | thermalSample (temps : List (Nat × Nat))
  /-- A sensor at trip level asserts THERM_TRIP_N and turns off every domain (R487). -/
  | thermalTrip (sensor temp : Nat)
  /-- FLOW_OK deasserted for 10 µs stops issue and begins the coolant stop (R488). -/
  | coolantStop
  /-- Requests have drained, stacks are in self-refresh and ports IDLE (R488). -/
  | coolantStopComplete
  /-- FLOW_OK returns and FLOW_RESTORED is raised (R489). -/
  | flowRestored
  /-- PWR_CMD RESUME restarts the chip from a coolant stop when the conditions hold (R489). -/
  | resume (badKeys : List Nat)
  /-- PWR_CMD CAL_RESTART returns to factory coefficients (R476). -/
  | calRestart
  /-- A write to PWR_EVT clears events and re-arms the interrupt (R496). -/
  | pwrEvtWrite (v : Nat)
  /-- A core idle for CORE_IDLE_US begins entering diapause (R491). -/
  | coreDiapauseEntry (c : Nat)
  /-- A wing idle for WING_IDLE_US begins entering diapause (R492). -/
  | wingDiapauseEntry (w : Nat)
  /-- Diapause entry completes (R493). -/
  | diapauseEntered (unit : Nat)
  /-- A wake event starts waking a core or wing (R493). -/
  | wake (unit : Nat)
  /-- A wake completes and held messages are delivered (R493). -/
  | wakeComplete (unit : Nat)
  /-- THM_CMD REPLAN or 168 hours of service start a re-plan of every core (R495). -/
  | replan (command : Bool)
  /-- A re-plan ends, lowering FMAX or raising VOFS and raising REPLAN (R495). -/
  | replanComplete (degr : List Nat)
  /-- THM_CMD WAKE_ALL wakes every core and wing (R493). -/
  | wakeAll
  /-- VIN_AUX is applied and phase E0 begins (R499). -/
  | vinAuxApply
  /-- VIN_MAIN held at or above 1.74 V for 1 ms lets E1 begin (R498). -/
  | vinMainApply
  /-- An eclosion phase completes and the next begins, E9 setting READY (R499). -/
  | phaseComplete (data : PhaseData)
  /-- A phase exceeding its maximum restarts from E1, or holds on a second failure (R500). -/
  | phaseTimeout
  /-- PERST_N asserted while VIN_MAIN is present starts a full reset (R533). -/
  | perstAssert
  /-- PERST_N deasserted after E3 lets the host link train (R499). -/
  | perstDeassert
  /-- RST_CMD IMAGO_RESET fences and resets one Imago's compute (R515). -/
  | imagoReset (i : Nat) (count : Bool)
  /-- RST_CMD CHIP_RESET fences and resets all compute of the chip (R515). -/
  | chipReset (count : Bool)
  /-- RST_CMD FULL_RESET fences the chip and restarts bring-up from E1 (R515). -/
  | fullReset (count selftest retrain : Bool)
  /-- RST_CMD TOPO_CONTINUE overrides an E8 hold and goes on to E9 (R511). -/
  | topoContinue
  /-- RST_CMD OVERRIDE checks a signed blob and restores service (R527). -/
  | override
  /-- 100 µs after a reset's fence the drain ends and the remainder is aborted (R515). -/
  | resetDrainEnd (u : Nat)
  /-- A compute reset completes, lifting the fence and sending READY (R515). -/
  | resetDone (u : Nat) (failed : List Nat)
  /-- A compute reset missing its bound escalates to a wider reset (R523). -/
  | resetBoundMiss (u : Nat)
  /-- A write to RST_EVT clears events and re-arms the interrupt (R528). -/
  | rstEvtWrite (v : Nat)
  /-- A batch retiring nothing for RST_WD_KERNEL stops its kernel with HANG_TIMEOUT (R520). -/
  | kernelWatchdog (c : Nat)
  /-- A non-preemptible command running RST_WD_NP fails and starts a compute reset (R520). -/
  | npWatchdog (id : Nat)
  /-- A holder queue making no progress for RST_WD_QUEUE fails its running commands (R520). -/
  | queueWatchdog (q : Nat)
  /-- A request outstanding for RST_WD_FABRIC ends with an error, poison or as performed (R521). -/
  | fabricWatchdog (id : Nat)
  /-- VIN_AUX below 1.60 V turns off every VIN_MAIN domain (R538). -/
  | vinAuxLoss
  /-- Loss of REFCLK_100 for over 10 µs is handled as a supply reset (R534). -/
  | refclkLoss
  /-- VIN_MAIN falling below 0.5 V releases THERM_TRIP_N (R533). -/
  | vinMainRemoved
  /-- I3C STATUS returns 16 bytes of device state (R539). -/
  | status
  /-- I3C DESC_READ returns the board descriptor (R539). -/
  | descRead
  /-- I3C DESC_WRITE replaces the board descriptor once its CRC checks (R539). -/
  | descWrite (data : List Byte)
  /-- I3C RECOVERY writes part of a recovery image during an E1 hold (R539). -/
  | recovery (offset : Nat) (data : List Byte)
  /-- I3C RECOVERY_DONE hands the image to the secure ROM for authentication (R539). -/
  | recoveryDone
  /-- An IEEE 1149.1 test access instruction acts, never reaching the secure world when locked (R540). -/
  | tapInstruction (i : TapInstr) (trstHigh : Bool)
  /-- FLOW_OK having been asserted for 100 ms lets phase E3 begin, or restarts a bring-up that lost flow, after
  waiting for it (R536). -/
  | flowOkHeld
  /-- Laser input returning within limits lets a DOWN port with ENABLE 1 begin TRAINING again (R407). -/
  | laserRestored (p : Nat)
  /-- Every 1 ms the time master or a parent sends TIME messages to the chips that take it as parent (R424). -/
  | timeSend
  /-- A port that has sent no other flit for 256 ns sends a LINKCTL flit carrying ACK (R411). -/
  | linkctlAckSend (p : Nat)
  /-- A domain's averaged current falls back to its limit, limiting ends and LIMITING and ILIM_ACTIVE clear (R473). -/
  | limitingEnd (d amps : Nat)
  /-- The supply at a core recovers and its clock stretching ends (R478). -/
  | droopEnd (c : Nat)
  /-- VIN_MAIN falling below 1.74 V while the supply monitor is in HOLD stops the timer and returns it to WARNING (R482). -/
  | holdSupplyDrop
  /-- 10 µs after a frequency lowering, the VCORE voltage that the change allows is lowered (R474). -/
  | voltageLowering (w : Nat)
  deriving DecidableEq, Repr

end Sys2Proof
end

