-- ==== Sys2Proof/Decode.lean ====
section
/-!
DEFINITION. The decoder over the rows of the opcode table that give bits. No row does: a command of this block comes with its operands,
and no word spells one (log entry 1).
-/

namespace Sys2Proof

/-- The command that a word of the opcode table spells: the table gives no row bits. -/
def decodeTableWord (_nbits _w : Nat) : Option Instr := none

end Sys2Proof
end

