-- ==== Sys2Proof/Config.lean ====
section
/-!
DEFINITION. What the spec leaves open or gives only as a name: free values (opaque, so that nothing can be proved of which
value they take) and the cryptographic functions, which other standards define.
-/

namespace Sys2Proof.Config

/-- A value the spec leaves undefined, by the model's counter of such values and a width in bits (log entry 5). -/
opaque freeBits : Nat → Nat → Nat

/-- The approximations FRCP, FRSQ, FEXP2, FLOG2, FTANH and FSIGM (R85): deterministic functions of the operand, whose bits
the spec does not state (log entry 6). The first argument is the opcode. -/
opaque approx : Nat → Word → Word

/-- SHA-384 of a string of bytes, which another standard defines: 48 bytes (R334, R463, R464). -/
opaque sha384 : List Byte → List Byte

/-- Does an ECDSA P-384 signature (r then s, 96 bytes) of a digest verify under a public key (R334, R464, R466)? -/
opaque ecdsaOk : List Byte → List Byte → List Byte → Bool

/-- The ECDSA P-384 signature of a digest by the device identity key of a chip, given by its serial (R462, R463). -/
opaque identitySign : Nat → List Byte → List Byte

/-- HKDF-SHA-384 of key material, salt and info, to a number of bytes (R422, R456, R461). -/
opaque hkdf : List Byte → List Byte → List Byte → Nat → List Byte

/-- The entries beyond the first two of the MSI-X table of a window's function, whose size the spec does not state (log entry
42). -/
opaque msixMore : Nat → Nat

/-- AES-256-GCM encryption under a key, an IV and additional data: the ciphertext and its 16-byte tag (R456, R457). -/
opaque gcmSeal : List Byte → List Byte → List Byte → List Byte → List Byte

/-- AES-256-GCM decryption of a ciphertext with its tag; none when the tag does not verify (R456, R457). -/
opaque gcmOpen : List Byte → List Byte → List Byte → List Byte → Option (List Byte)

/-- Does a firmware image, or a recovery image, authenticate against Lamtil's key, whose digest is fused (R464, R503)? -/
opaque imageOk : List Byte → Bool

/-- The fused voltage curve of a physical core (R474, R504): mV for a frequency in steps of 12.5 MHz. -/
opaque voltCurve : Nat → Nat → Nat

/-- The power in mW at which the budget arbiter prices an activity estimate at a frequency in steps of 12.5 MHz and a voltage
in mV, before a wing's coefficient (R475). -/
opaque corePower : Nat → Nat → Nat → Nat

/-- The retention leakage in mW of a physical core in diapause (R475). -/
opaque leakage : Nat → Nat

/-- The replica slack in ps of a physical core at a degradation in ppm, a frequency in steps and a voltage in mV (R495). -/
opaque replicaSlack : Nat → Nat → Nat → Nat → Nat

/-- The drift in ps predicted for 168 hours from a physical core's degradation and those of its past plans (R495). -/
opaque drift : Nat → Nat → List Nat → Nat

/-- The identification that the IDCODE instruction reads from the test access port, whose value the spec does not state (log
entry 43). -/
opaque idcode : Word

end Sys2Proof.Config
end

