-- ==== Sys2Proof/Machine/Maps.lean ====
section
/-!
DEFINITION. Sparse maps as plain data, bytes and bit fields (R6, R7). A map is a list of (key, value) pairs with
strictly rising keys. `mput` keeps every key it is given; `mset` is the canonical form used for memories, in which a key
whose value is the default is not listed.
-/

namespace Sys2Proof.Machine

/-- A sparse map keyed by numbers. -/
abbrev SMap (α : Type) := List (Nat × α)

/-- The value at a key, if it is listed. -/
def mfind {α : Type} : SMap α → Nat → Option α
  | [], _ => none
  | (k, v) :: m, x => if k = x then some v else mfind m x

/-- The value at a key; an unlisted key reads as `d`. -/
def mget {α : Type} (d : α) (m : SMap α) (x : Nat) : α := (mfind m x).getD d

/-- Lists a value at a key, in key order. -/
def mput {α : Type} : SMap α → Nat → α → SMap α
  | [], x, v => [(x, v)]
  | (k, w) :: m, x, v =>
    if x < k then (x, v) :: (k, w) :: m
    else if x = k then (x, v) :: m
    else (k, w) :: mput m x v

/-- Removes a key. -/
def mdel {α : Type} : SMap α → Nat → SMap α
  | [], _ => []
  | (k, w) :: m, x => if k = x then mdel m x else (k, w) :: mdel m x

/-- Sets a key in the canonical form: the default value is not listed. -/
def mset {α : Type} [DecidableEq α] (d : α) (m : SMap α) (x : Nat) (v : α) : SMap α :=
  if v = d then mdel m x else mput m x v

/-- Changes the value at a key (default `d`) by a function. -/
def mmod {α : Type} (d : α) (m : SMap α) (x : Nat) (f : α → α) : SMap α := mput m x (f (mget d m x))

/-- The keys rise strictly. -/
def sortedKeys {α : Type} : SMap α → Bool
  | [] => true
  | [_] => true
  | (k, _) :: (k', v') :: m => decide (k < k') && sortedKeys ((k', v') :: m)

/-- The canonical form of a memory: strictly rising keys and no entry equal to what an unlisted key reads as. -/
def canonical {α : Type} [DecidableEq α] (d : α) (m : SMap α) : Bool :=
  sortedKeys m && m.all (fun kv => decide (kv.2 ≠ d))

/-- A byte memory in canonical form reads an unlisted address as zero. -/
abbrev Mem := SMap Byte

/-- The canonical form of a memory: addresses rise strictly and no byte that is listed is zero. -/
abbrev Memory.wf (m : Mem) : Bool := canonical 0 m

/-- One byte of a memory. -/
def mem8 (m : Mem) (a : Nat) : Byte := mget 0 m a

/-- Writes one byte of a memory. -/
def memSet8 (m : Mem) (a : Nat) (v : Byte) : Mem := mset 0 m a v

/-- `n` bytes from address `a`, lowest address first. -/
def memBytes (m : Mem) (a : Nat) : Nat → List Byte
  | 0 => []
  | n + 1 => mem8 m a :: memBytes m (a + 1) n

/-- Writes bytes from address `a` upward. -/
def memPut (m : Mem) (a : Nat) : List Byte → Mem
  | [] => m
  | b :: bs => memPut (memSet8 m a b) (a + 1) bs

/-- The number that little-endian bytes spell (R7). -/
def leNat : List Byte → Nat
  | [] => 0
  | b :: bs => b.toNat + 256 * leNat bs

/-- The `n` little-endian bytes of a number (R7). -/
def leBytes : Nat → Nat → List Byte
  | 0, _ => []
  | n + 1, v => BitVec.ofNat 8 v :: leBytes n (v / 256)

/-- `n` bytes at `a`, read as a little-endian number. -/
def memLE (m : Mem) (a n : Nat) : Nat := leNat (memBytes m a n)

/-- Writes a number as `n` little-endian bytes at `a`. -/
def memPutLE (m : Mem) (a n v : Nat) : Mem := memPut m a (leBytes n v)

/-- Bits [lo + w − 1 : lo] of a number (R6). -/
def bitsOf (v lo w : Nat) : Nat := v / 2 ^ lo % 2 ^ w

/-- A number with bits [lo + w − 1 : lo] replaced. -/
def setBits (v lo w x : Nat) : Nat := v - bitsOf v lo w * 2 ^ lo + x % 2 ^ w * 2 ^ lo

/-- Bit `i` of a number. -/
def bitAt (v i : Nat) : Bool := v / 2 ^ i % 2 = 1

/-- The signed value of the low `w` bits of a number. -/
def signedOf (v w : Nat) : Int := if bitAt v (w - 1) then (v % 2 ^ w : Nat) - (2 ^ w : Nat) else (v % 2 ^ w : Nat)

/-- The low `w` bits of the two's complement form of an integer. -/
def wrapInt (x : Int) (w : Nat) : Nat := (x % (2 ^ w : Nat)).toNat

/-- A Boolean as a bit. -/
def b2n (b : Bool) : Nat := if b then 1 else 0

/-- The number of bits of a number: 0 for 0, else one more than the place of its leading 1. -/
def bitLen (m : Nat) : Nat := if m = 0 then 0 else Nat.log2 m + 1

/-- The integer square root by binary digits, over `n` digits of the root (structural, so that the kernel runs it). -/
def isqrtAux (x : Nat) : Nat → Nat → Nat
  | 0, r => r
  | n + 1, r => if (r + 2 ^ n) * (r + 2 ^ n) ≤ x then isqrtAux x n (r + 2 ^ n) else isqrtAux x n r

/-- The integer square root, rounded down. -/
def isqrt (x : Nat) : Nat := isqrtAux x (bitLen x / 2 + 1) 0

/-- The first list element that meets a test, with its place. -/
def findIdxFrom {α : Type} (p : α → Bool) : List α → Nat → Option (Nat × α)
  | [], _ => none
  | x :: xs, i => if p x then some (i, x) else findIdxFrom p xs (i + 1)

/-- Changes every element that meets a test. -/
def mapIf {α : Type} (p : α → Bool) (f : α → α) (l : List α) : List α := l.map (fun x => if p x then f x else x)

/-- The saturating count of 64-bit and narrower counters that saturate at `2^w − 1`. -/
def satAdd (w a b : Nat) : Nat := min (a + b) (2 ^ w - 1)

end Sys2Proof.Machine
end

