-- ==== Sys2Proof/Machine/RegTable.lean ====
section
/-!
DEFINITION. The register tables: every register of every block (R11, R16 to R24, R38, R188, R224, R258, R259, R278, R311,
R312, R361, R403, R405, R435, R436, R469 to R471, R496, R497, R528), with its address in the physical function's window,
width, members, reset value, and its fields with their access codes and listed values. A field that a field table leaves
to FUSE, FW or LEDGER reads zero until the eclosion phase that loads it (R21); it counts as zero in a reset value here.
`r_X` is a register or family, `f_X_Y` its field Y.
-/

namespace Sys2Proof.Machine

/-- Access codes (R16). -/
inductive Access where
  | ro | rw | w1c | w1s | wo | rws
  deriving DecidableEq, Repr

/-- A field: its place, access code, and the least and greatest value it may be written (R20). -/
structure FieldDef where
  lo : Nat
  width : Nat
  acc : Access
  least : Nat
  greatest : Nat
  deriving DecidableEq, Repr

/-- A register family: member n lies at `base + n * stride` (R24). `rsts` gives reset values that differ by member. `ix` is its
place in `allRegs`. -/
structure Reg where
  ix : Nat
  base : Nat
  w64 : Bool
  stride : Nat
  count : Nat
  vf : Bool
  rst : Nat
  rsts : List Nat
  flds : List FieldDef
  deriving DecidableEq, Repr

/-- A named field of a register family. -/
structure RF where
  reg : Reg
  lo : Nat
  width : Nat
  deriving DecidableEq, Repr

/-- CHIP_IDENT, block CHIP offset 0x0. Family and part code. -/
def r_CHIP_IDENT : Reg :=
  ⟨0, 0x0, false, 4, 1, false, 0xB9620, [],
    [⟨0, 16, .ro, 0, 65535⟩, ⟨16, 8, .ro, 0, 255⟩]⟩
def f_CHIP_IDENT_PART : RF := ⟨r_CHIP_IDENT, 0, 16⟩
def f_CHIP_IDENT_FAMILY : RF := ⟨r_CHIP_IDENT, 16, 8⟩

/-- CHIP_STEPPING, block CHIP offset 0x4. Stepping. -/
def r_CHIP_STEPPING : Reg :=
  ⟨1, 0x4, false, 4, 1, false, 0x21, [],
    [⟨0, 4, .ro, 0, 15⟩, ⟨4, 4, .ro, 0, 15⟩]⟩
def f_CHIP_STEPPING_MINOR : RF := ⟨r_CHIP_STEPPING, 0, 4⟩
def f_CHIP_STEPPING_MAJOR : RF := ⟨r_CHIP_STEPPING, 4, 4⟩

/-- CHIP_PCI_ID, block CHIP offset 0x8. PCI vendor and physical-function device identifiers. -/
def r_CHIP_PCI_ID : Reg :=
  ⟨2, 0x8, false, 4, 1, false, 0x9620C93D, [],
    [⟨0, 16, .ro, 0, 65535⟩, ⟨16, 16, .ro, 0, 65535⟩]⟩
def f_CHIP_PCI_ID_VENDOR : RF := ⟨r_CHIP_PCI_ID, 0, 16⟩
def f_CHIP_PCI_ID_PF_DEVICE : RF := ⟨r_CHIP_PCI_ID, 16, 16⟩

/-- CHIP_PCI_VFID, block CHIP offset 0xC. Virtual-function device identifier. -/
def r_CHIP_PCI_VFID : Reg :=
  ⟨3, 0xC, false, 4, 1, false, 0x9621, [],
    [⟨0, 16, .ro, 0, 65535⟩]⟩
def f_CHIP_PCI_VFID_VF_DEVICE : RF := ⟨r_CHIP_PCI_VFID, 0, 16⟩

/-- CHIP_SERIAL, block CHIP offset 0x10. Unique package serial number. -/
def r_CHIP_SERIAL : Reg :=
  ⟨4, 0x10, true, 8, 1, false, 0x0, [],
    [⟨0, 64, .ro, 0, 18446744073709551615⟩]⟩
def f_CHIP_SERIAL_SERIAL : RF := ⟨r_CHIP_SERIAL, 0, 64⟩

/-- CHIP_FAB_ID, block CHIP offset 0x18. Fabric chip ID. -/
def r_CHIP_FAB_ID : Reg :=
  ⟨5, 0x18, false, 4, 1, false, 0x0, [],
    [⟨0, 16, .ro, 0, 65535⟩, ⟨16, 1, .ro, 0, 1⟩]⟩
def f_CHIP_FAB_ID_CHIP_ID : RF := ⟨r_CHIP_FAB_ID, 0, 16⟩
def f_CHIP_FAB_ID_VALID : RF := ⟨r_CHIP_FAB_ID, 16, 1⟩

/-- CHIP_STATE, block CHIP offset 0x1C. Eclosion phase and service state. -/
def r_CHIP_STATE : Reg :=
  ⟨6, 0x1C, false, 4, 1, false, 0x0, [],
    [⟨0, 4, .ro, 0, 15⟩, ⟨8, 1, .ro, 0, 1⟩, ⟨9, 1, .ro, 0, 1⟩, ⟨10, 1, .ro, 0, 1⟩, ⟨11, 1, .ro, 0, 1⟩]⟩
def f_CHIP_STATE_PHASE : RF := ⟨r_CHIP_STATE, 0, 4⟩
def f_CHIP_STATE_READY : RF := ⟨r_CHIP_STATE, 8, 1⟩
def f_CHIP_STATE_TOPO_HOLD : RF := ⟨r_CHIP_STATE, 9, 1⟩
def f_CHIP_STATE_OUT_OF_SERVICE : RF := ⟨r_CHIP_STATE, 10, 1⟩
def f_CHIP_STATE_WARM_PATH : RF := ⟨r_CHIP_STATE, 11, 1⟩

/-- CHIP_CAP_CORE, block CHIP offset 0x20. Core and Gate unit counts. -/
def r_CHIP_CAP_CORE : Reg :=
  ⟨7, 0x20, false, 4, 1, false, 0x8A000, [],
    [⟨0, 8, .ro, 0, 255⟩, ⟨8, 8, .ro, 0, 255⟩, ⟨16, 4, .ro, 0, 15⟩]⟩
def f_CHIP_CAP_CORE_ENABLED : RF := ⟨r_CHIP_CAP_CORE, 0, 8⟩
def f_CHIP_CAP_CORE_PHYSICAL : RF := ⟨r_CHIP_CAP_CORE, 8, 8⟩
def f_CHIP_CAP_CORE_GATE_UNITS : RF := ⟨r_CHIP_CAP_CORE, 16, 4⟩

/-- CHIP_CAP_WING_0..7, block CHIP offset 0x24. Per-wing cores; stride 0x4. -/
def r_CHIP_CAP_WING : Reg :=
  ⟨8, 0x24, false, 4, 8, false, 0x0, [],
    [⟨0, 5, .ro, 0, 31⟩, ⟨8, 5, .ro, 0, 31⟩, ⟨16, 8, .ro, 0, 255⟩, ⟨24, 1, .ro, 0, 1⟩]⟩
def f_CHIP_CAP_WING_ENABLED : RF := ⟨r_CHIP_CAP_WING, 0, 5⟩
def f_CHIP_CAP_WING_SPARES : RF := ⟨r_CHIP_CAP_WING, 8, 5⟩
def f_CHIP_CAP_WING_FIRST_ID : RF := ⟨r_CHIP_CAP_WING, 16, 8⟩
def f_CHIP_CAP_WING_GATE_OK : RF := ⟨r_CHIP_CAP_WING, 24, 1⟩

/-- CHIP_CAP_MEM, block CHIP offset 0x44. Memory slices and HBM organisation. -/
def r_CHIP_CAP_MEM : Reg :=
  ⟨9, 0x44, false, 4, 1, false, 0x308000, [],
    [⟨0, 9, .ro, 0, 511⟩, ⟨12, 4, .ro, 0, 15⟩, ⟨16, 8, .ro, 0, 255⟩]⟩
def f_CHIP_CAP_MEM_SLICES : RF := ⟨r_CHIP_CAP_MEM, 0, 9⟩
def f_CHIP_CAP_MEM_STACKS : RF := ⟨r_CHIP_CAP_MEM, 12, 4⟩
def f_CHIP_CAP_MEM_STACK_GIB : RF := ⟨r_CHIP_CAP_MEM, 16, 8⟩

/-- CHIP_CAP_LINK, block CHIP offset 0x48. Link ports, optical engines, instances. -/
def r_CHIP_CAP_LINK : Reg :=
  ⟨10, 0x48, false, 4, 1, false, 0x200000, [],
    [⟨0, 6, .ro, 0, 63⟩, ⟨8, 5, .ro, 0, 31⟩, ⟨16, 6, .ro, 0, 63⟩]⟩
def f_CHIP_CAP_LINK_PORTS : RF := ⟨r_CHIP_CAP_LINK, 0, 6⟩
def f_CHIP_CAP_LINK_OPT_ENGINES : RF := ⟨r_CHIP_CAP_LINK, 8, 5⟩
def f_CHIP_CAP_LINK_MAX_VF : RF := ⟨r_CHIP_CAP_LINK, 16, 6⟩

/-- CHIP_CAP_SCH, block CHIP offset 0x4C. Context, Imago and address-space sizes. -/
def r_CHIP_CAP_SCH : Reg :=
  ⟨11, 0x4C, false, 4, 1, false, 0x31142040, [],
    [⟨0, 8, .ro, 0, 255⟩, ⟨8, 8, .ro, 0, 255⟩, ⟨16, 5, .ro, 0, 31⟩, ⟨24, 6, .ro, 0, 63⟩]⟩
def f_CHIP_CAP_SCH_CTX_SLOTS : RF := ⟨r_CHIP_CAP_SCH, 0, 8⟩
def f_CHIP_CAP_SCH_MAX_IMAGOS : RF := ⟨r_CHIP_CAP_SCH, 8, 8⟩
def f_CHIP_CAP_SCH_SPACE_ID_BITS : RF := ⟨r_CHIP_CAP_SCH, 16, 5⟩
def f_CHIP_CAP_SCH_VA_BITS : RF := ⟨r_CHIP_CAP_SCH, 24, 6⟩

/-- CHIP_CAP_SIZE, block CHIP offset 0x50. Sizes of on-chip tables, as base-2 logarithms. -/
def r_CHIP_CAP_SIZE : Reg :=
  ⟨12, 0x50, false, 4, 1, false, 0x80E0E10, [],
    [⟨0, 8, .ro, 0, 255⟩, ⟨8, 8, .ro, 0, 255⟩, ⟨16, 8, .ro, 0, 255⟩, ⟨24, 8, .ro, 0, 255⟩]⟩
def f_CHIP_CAP_SIZE_QDESC_LOG2 : RF := ⟨r_CHIP_CAP_SIZE, 0, 8⟩
def f_CHIP_CAP_SIZE_FENCE_LOG2 : RF := ⟨r_CHIP_CAP_SIZE, 8, 8⟩
def f_CHIP_CAP_SIZE_SILK_LOG2 : RF := ⟨r_CHIP_CAP_SIZE, 16, 8⟩
def f_CHIP_CAP_SIZE_KEY_LOG2 : RF := ⟨r_CHIP_CAP_SIZE, 24, 8⟩

/-- CHIP_CAP_FMT, block CHIP offset 0x54. Supported number formats and arithmetic features. -/
def r_CHIP_CAP_FMT : Reg :=
  ⟨13, 0x54, false, 4, 1, false, 0x7FFF, [],
    [⟨0, 1, .ro, 0, 1⟩, ⟨1, 1, .ro, 0, 1⟩, ⟨2, 1, .ro, 0, 1⟩, ⟨3, 1, .ro, 0, 1⟩, ⟨4, 1, .ro, 0, 1⟩, ⟨5, 1, .ro, 0, 1⟩, ⟨6, 1, .ro, 0, 1⟩, ⟨7, 1, .ro, 0, 1⟩, ⟨8, 1, .ro, 0, 1⟩, ⟨9, 1, .ro, 0, 1⟩, ⟨10, 1, .ro, 0, 1⟩, ⟨11, 1, .ro, 0, 1⟩, ⟨12, 1, .ro, 0, 1⟩, ⟨13, 1, .ro, 0, 1⟩, ⟨14, 1, .ro, 0, 1⟩]⟩
def f_CHIP_CAP_FMT_FP32 : RF := ⟨r_CHIP_CAP_FMT, 0, 1⟩
def f_CHIP_CAP_FMT_FP16 : RF := ⟨r_CHIP_CAP_FMT, 1, 1⟩
def f_CHIP_CAP_FMT_BF16 : RF := ⟨r_CHIP_CAP_FMT, 2, 1⟩
def f_CHIP_CAP_FMT_FP8_E4M3 : RF := ⟨r_CHIP_CAP_FMT, 3, 1⟩
def f_CHIP_CAP_FMT_FP8_E5M2 : RF := ⟨r_CHIP_CAP_FMT, 4, 1⟩
def f_CHIP_CAP_FMT_MXFP8 : RF := ⟨r_CHIP_CAP_FMT, 5, 1⟩
def f_CHIP_CAP_FMT_MXFP6_E3M2 : RF := ⟨r_CHIP_CAP_FMT, 6, 1⟩
def f_CHIP_CAP_FMT_MXFP6_E2M3 : RF := ⟨r_CHIP_CAP_FMT, 7, 1⟩
def f_CHIP_CAP_FMT_MXFP4 : RF := ⟨r_CHIP_CAP_FMT, 8, 1⟩
def f_CHIP_CAP_FMT_MXINT8 : RF := ⟨r_CHIP_CAP_FMT, 9, 1⟩
def f_CHIP_CAP_FMT_INT8 : RF := ⟨r_CHIP_CAP_FMT, 10, 1⟩
def f_CHIP_CAP_FMT_INT4 : RF := ⟨r_CHIP_CAP_FMT, 11, 1⟩
def f_CHIP_CAP_FMT_BST : RF := ⟨r_CHIP_CAP_FMT, 12, 1⟩
def f_CHIP_CAP_FMT_NSPARSE8 : RF := ⟨r_CHIP_CAP_FMT, 13, 1⟩
def f_CHIP_CAP_FMT_STOCH_ROUND : RF := ⟨r_CHIP_CAP_FMT, 14, 1⟩

/-- CHIP_CAP_FEAT, block CHIP offset 0x58. Supported device features. -/
def r_CHIP_CAP_FEAT : Reg :=
  ⟨14, 0x58, false, 4, 1, false, 0x3F, [],
    [⟨0, 1, .ro, 0, 1⟩, ⟨1, 1, .ro, 0, 1⟩, ⟨2, 1, .ro, 0, 1⟩, ⟨3, 1, .ro, 0, 1⟩, ⟨4, 1, .ro, 0, 1⟩, ⟨5, 1, .ro, 0, 1⟩]⟩
def f_CHIP_CAP_FEAT_WS_FLUSH : RF := ⟨r_CHIP_CAP_FEAT, 0, 1⟩
def f_CHIP_CAP_FEAT_GATE_RUNAHEAD : RF := ⟨r_CHIP_CAP_FEAT, 1, 1⟩
def f_CHIP_CAP_FEAT_MEM_ENCRYPT : RF := ⟨r_CHIP_CAP_FEAT, 2, 1⟩
def f_CHIP_CAP_FEAT_LINK_ENCRYPT : RF := ⟨r_CHIP_CAP_FEAT, 3, 1⟩
def f_CHIP_CAP_FEAT_REMOTE_SLICES : RF := ⟨r_CHIP_CAP_FEAT, 4, 1⟩
def f_CHIP_CAP_FEAT_SRIOV : RF := ⟨r_CHIP_CAP_FEAT, 5, 1⟩

/-- CHIP_FREQ_NOM, block CHIP offset 0x5C. Nominal core and mesh clocks. -/
def r_CHIP_FREQ_NOM : Reg :=
  ⟨15, 0x5C, false, 4, 1, false, 0x64007D0, [],
    [⟨0, 12, .ro, 0, 4095⟩, ⟨16, 12, .ro, 0, 4095⟩]⟩
def f_CHIP_FREQ_NOM_CORE_MHZ : RF := ⟨r_CHIP_FREQ_NOM, 0, 12⟩
def f_CHIP_FREQ_NOM_MESH_MHZ : RF := ⟨r_CHIP_FREQ_NOM, 16, 12⟩

/-- GATE_CTRL_0..7, block GATE offset 0x0. Enables; stride 0x100. -/
def r_GATE_CTRL : Reg :=
  ⟨112, 0x700000, false, 256, 8, false, 0x3, [],
    [⟨0, 1, .rw, 0, 1⟩, ⟨1, 1, .rw, 0, 1⟩]⟩
def f_GATE_CTRL_ENABLE : RF := ⟨r_GATE_CTRL, 0, 1⟩
def f_GATE_CTRL_RUNAHEAD_EN : RF := ⟨r_GATE_CTRL, 1, 1⟩

/-- GATE_STATUS_0..7, block GATE offset 0x4. Unit state; stride 0x100. -/
def r_GATE_STATUS : Reg :=
  ⟨113, 0x700004, false, 256, 8, false, 0x0, [],
    [⟨0, 1, .ro, 0, 1⟩, ⟨1, 5, .ro, 0, 31⟩, ⟨6, 1, .ro, 0, 1⟩, ⟨7, 1, .ro, 0, 1⟩]⟩
def f_GATE_STATUS_BUSY : RF := ⟨r_GATE_STATUS, 0, 1⟩
def f_GATE_STATUS_QDEPTH : RF := ⟨r_GATE_STATUS, 1, 5⟩
def f_GATE_STATUS_AWAKE : RF := ⟨r_GATE_STATUS, 6, 1⟩
def f_GATE_STATUS_XLT_STALL : RF := ⟨r_GATE_STATUS, 7, 1⟩

/-- GATE_WGEN_0..7, block GATE offset 0x8. Wing generation; stride 0x100. -/
def r_GATE_WGEN : Reg :=
  ⟨114, 0x700008, false, 256, 8, false, 0x0, [],
    [⟨0, 32, .ro, 0, 4294967295⟩]⟩
def f_GATE_WGEN_WGEN : RF := ⟨r_GATE_WGEN, 0, 32⟩

/-- GATE_SPEC_LIMIT_0..7, block GATE offset 0xC. Fetch bytes per plan; stride 0x100. -/
def r_GATE_SPEC_LIMIT : Reg :=
  ⟨115, 0x70000C, false, 256, 8, false, 0x40, [],
    [⟨0, 16, .rw, 0, 65535⟩]⟩
def f_GATE_SPEC_LIMIT_MIB : RF := ⟨r_GATE_SPEC_LIMIT, 0, 16⟩

/-- GATE_CMD_0..7, block GATE offset 0x10. Squash and forget; stride 0x100. -/
def r_GATE_CMD : Reg :=
  ⟨116, 0x700010, false, 256, 8, false, 0x0, [],
    [⟨0, 1, .wo, 0, 1⟩, ⟨1, 1, .wo, 0, 1⟩]⟩
def f_GATE_CMD_SQUASH_ALL : RF := ⟨r_GATE_CMD, 0, 1⟩
def f_GATE_CMD_FORGET : RF := ⟨r_GATE_CMD, 1, 1⟩

/-- GATE_DONE_0..7, block GATE offset 0x18. Dispatches completed; stride 0x100. -/
def r_GATE_DONE : Reg :=
  ⟨117, 0x700018, true, 256, 8, false, 0x0, [],
    [⟨0, 64, .ro, 0, 18446744073709551615⟩]⟩
def f_GATE_DONE_COUNT : RF := ⟨r_GATE_DONE, 0, 64⟩

/-- GATE_PROMOTED_0..7, block GATE offset 0x20. Bytes promoted; stride 0x100. -/
def r_GATE_PROMOTED : Reg :=
  ⟨118, 0x700020, true, 256, 8, false, 0x0, [],
    [⟨0, 64, .ro, 0, 18446744073709551615⟩]⟩
def f_GATE_PROMOTED_BYTES : RF := ⟨r_GATE_PROMOTED, 0, 64⟩

/-- GATE_SPEC_TTL, block GATE offset 0x800. Hold limit of a landing slot. -/
def r_GATE_SPEC_TTL : Reg :=
  ⟨119, 0x700800, false, 4, 1, false, 0x2710, [],
    [⟨0, 20, .rw, 1, 1048575⟩]⟩
def f_GATE_SPEC_TTL_US : RF := ⟨r_GATE_SPEC_TTL, 0, 20⟩

/-- TMV_CFG, block TMV offset 0x0. Mover configuration. -/
def r_TMV_CFG : Reg :=
  ⟨99, 0x600000, false, 4, 1, false, 0x1, [],
    [⟨0, 1, .rw, 0, 1⟩]⟩
def f_TMV_CFG_PEER_EN : RF := ⟨r_TMV_CFG, 0, 1⟩

/-- TMV_PEER_TIMEOUT, block TMV offset 0x4. Peer access limit. -/
def r_TMV_PEER_TIMEOUT : Reg :=
  ⟨100, 0x600004, false, 4, 1, false, 0x64, [],
    [⟨0, 16, .rw, 1, 65535⟩]⟩
def f_TMV_PEER_TIMEOUT_US : RF := ⟨r_TMV_PEER_TIMEOUT, 0, 16⟩

/-- TMV_STATUS, block TMV offset 0x8. Busy counts. -/
def r_TMV_STATUS : Reg :=
  ⟨101, 0x600008, false, 4, 1, false, 0x0, [],
    [⟨0, 10, .ro, 0, 1023⟩, ⟨16, 8, .ro, 0, 255⟩]⟩
def f_TMV_STATUS_BCH_BUSY : RF := ⟨r_TMV_STATUS, 0, 10⟩
def f_TMV_STATUS_CORE_BUSY : RF := ⟨r_TMV_STATUS, 16, 8⟩

/-- TMV_SCR_CE, block TMV offset 0x10. Corrected scratchpad words. -/
def r_TMV_SCR_CE : Reg :=
  ⟨102, 0x600010, true, 8, 1, false, 0x0, [],
    [⟨0, 64, .ro, 0, 18446744073709551615⟩]⟩
def f_TMV_SCR_CE_COUNT : RF := ⟨r_TMV_SCR_CE, 0, 64⟩

/-- TMV_SCR_UE, block TMV offset 0x18. Uncorrectable scratchpad errors. -/
def r_TMV_SCR_UE : Reg :=
  ⟨103, 0x600018, true, 8, 1, false, 0x0, [],
    [⟨0, 64, .ro, 0, 18446744073709551615⟩]⟩
def f_TMV_SCR_UE_COUNT : RF := ⟨r_TMV_SCR_UE, 0, 64⟩

/-- TMV_SCR_UE_LOG, block TMV offset 0x20. Last uncorrectable error. -/
def r_TMV_SCR_UE_LOG : Reg :=
  ⟨104, 0x600020, true, 8, 1, false, 0x0, [],
    [⟨0, 24, .ro, 0, 16777215⟩, ⟨24, 8, .ro, 0, 255⟩, ⟨32, 3, .ro, 0, 7⟩, ⟨63, 1, .ro, 0, 1⟩]⟩
def f_TMV_SCR_UE_LOG_ADDR : RF := ⟨r_TMV_SCR_UE_LOG, 0, 24⟩
def f_TMV_SCR_UE_LOG_CORE : RF := ⟨r_TMV_SCR_UE_LOG, 24, 8⟩
def f_TMV_SCR_UE_LOG_SOURCE : RF := ⟨r_TMV_SCR_UE_LOG, 32, 3⟩
def f_TMV_SCR_UE_LOG_VALID : RF := ⟨r_TMV_SCR_UE_LOG, 63, 1⟩

/-- TMV_CORE_STAT_0..143, block TMV offset 0x1000. Per-core mover state; stride 0x4. -/
def r_TMV_CORE_STAT : Reg :=
  ⟨105, 0x601000, false, 4, 144, false, 0x0, [],
    [⟨0, 8, .ro, 0, 255⟩, ⟨8, 8, .ro, 0, 255⟩, ⟨16, 8, .ro, 0, 255⟩, ⟨24, 1, .w1c, 0, 1⟩]⟩
def f_TMV_CORE_STAT_BUSY : RF := ⟨r_TMV_CORE_STAT, 0, 8⟩
def f_TMV_CORE_STAT_WAITING : RF := ⟨r_TMV_CORE_STAT, 8, 8⟩
def f_TMV_CORE_STAT_STALLED : RF := ⟨r_TMV_CORE_STAT, 16, 8⟩
def f_TMV_CORE_STAT_CREDIT_OVF : RF := ⟨r_TMV_CORE_STAT, 24, 1⟩

/-- TMV_CORE_CL_0..575, block TMV offset 0x2000. Credit lines; stride 0x8. -/
def r_TMV_CORE_CL : Reg :=
  ⟨106, 0x602000, true, 8, 576, false, 0x0, [],
    [⟨0, 16, .ro, 0, 65535⟩, ⟨16, 16, .ro, 0, 65535⟩, ⟨32, 16, .ro, 0, 65535⟩, ⟨48, 16, .ro, 0, 65535⟩]⟩
def f_TMV_CORE_CL_LINE0 : RF := ⟨r_TMV_CORE_CL, 0, 16⟩
def f_TMV_CORE_CL_LINE1 : RF := ⟨r_TMV_CORE_CL, 16, 16⟩
def f_TMV_CORE_CL_LINE2 : RF := ⟨r_TMV_CORE_CL, 32, 16⟩
def f_TMV_CORE_CL_LINE3 : RF := ⟨r_TMV_CORE_CL, 48, 16⟩

/-- TMV_BCH_CFG_0..511, block TMV offset 0x4000. Bulk channel use; stride 0x10. -/
def r_TMV_BCH_CFG : Reg :=
  ⟨107, 0x604000, false, 16, 512, false, 0x0, [],
    [⟨0, 2, .rw, 0, 2⟩, ⟨8, 8, .rw, 0, 255⟩]⟩
def f_TMV_BCH_CFG_USE : RF := ⟨r_TMV_BCH_CFG, 0, 2⟩
def f_TMV_BCH_CFG_RATE : RF := ⟨r_TMV_BCH_CFG, 8, 8⟩

/-- TMV_BCH_STAT_0..511, block TMV offset 0x4004. Bulk channel state; stride 0x10. -/
def r_TMV_BCH_STAT : Reg :=
  ⟨108, 0x604004, false, 16, 512, false, 0x0, [],
    [⟨0, 1, .ro, 0, 1⟩, ⟨1, 1, .ro, 0, 1⟩, ⟨2, 1, .ro, 0, 1⟩, ⟨3, 5, .ro, 0, 31⟩, ⟨8, 8, .ro, 0, 255⟩, ⟨16, 16, .ro, 0, 65535⟩]⟩
def f_TMV_BCH_STAT_BUSY : RF := ⟨r_TMV_BCH_STAT, 0, 1⟩
def f_TMV_BCH_STAT_WAITING : RF := ⟨r_TMV_BCH_STAT, 1, 1⟩
def f_TMV_BCH_STAT_STALLED : RF := ⟨r_TMV_BCH_STAT, 2, 1⟩
def f_TMV_BCH_STAT_QDEPTH : RF := ⟨r_TMV_BCH_STAT, 3, 5⟩
def f_TMV_BCH_STAT_OWNER : RF := ⟨r_TMV_BCH_STAT, 8, 8⟩
def f_TMV_BCH_STAT_LAST_ERR : RF := ⟨r_TMV_BCH_STAT, 16, 16⟩

/-- TMV_BCH_DONE_0..511, block TMV offset 0x4008. Descriptors completed; stride 0x10. -/
def r_TMV_BCH_DONE : Reg :=
  ⟨109, 0x604008, true, 16, 512, false, 0x0, [],
    [⟨0, 64, .ro, 0, 18446744073709551615⟩]⟩
def f_TMV_BCH_DONE_COUNT : RF := ⟨r_TMV_BCH_DONE, 0, 64⟩

/-- TMV_CLU_RD_0..15, block TMV offset 0x6000. Bytes read per cluster; stride 0x10. -/
def r_TMV_CLU_RD : Reg :=
  ⟨110, 0x606000, true, 16, 16, false, 0x0, [],
    [⟨0, 64, .ro, 0, 18446744073709551615⟩]⟩
def f_TMV_CLU_RD_COUNT : RF := ⟨r_TMV_CLU_RD, 0, 64⟩

/-- TMV_CLU_WR_0..15, block TMV offset 0x6008. Bytes written per cluster; stride 0x10. -/
def r_TMV_CLU_WR : Reg :=
  ⟨111, 0x606008, true, 16, 16, false, 0x0, [],
    [⟨0, 64, .ro, 0, 18446744073709551615⟩]⟩
def f_TMV_CLU_WR_COUNT : RF := ⟨r_TMV_CLU_WR, 0, 64⟩

/-- MEM_CFG, block MEM offset 0x0. Scrubber. -/
def r_MEM_CFG : Reg :=
  ⟨120, 0x800000, false, 4, 1, false, 0x1801, [],
    [⟨0, 1, .rw, 0, 1⟩, ⟨8, 8, .rw, 1, 255⟩]⟩
def f_MEM_CFG_SCRUB_EN : RF := ⟨r_MEM_CFG, 0, 1⟩
def f_MEM_CFG_SCRUB_HOURS : RF := ⟨r_MEM_CFG, 8, 8⟩

/-- MEM_STATUS, block MEM offset 0x4. Slices and scrub state. -/
def r_MEM_STATUS : Reg :=
  ⟨121, 0x800004, false, 4, 1, false, 0x0, [],
    [⟨0, 9, .ro, 0, 511⟩, ⟨9, 1, .ro, 0, 1⟩]⟩
def f_MEM_STATUS_SLICES : RF := ⟨r_MEM_STATUS, 0, 9⟩
def f_MEM_STATUS_SCRUB_ACTIVE : RF := ⟨r_MEM_STATUS, 9, 1⟩

/-- MEM_UE_LOG, block MEM offset 0x10. Last uncorrectable detection. -/
def r_MEM_UE_LOG : Reg :=
  ⟨122, 0x800010, true, 8, 1, false, 0x0, [],
    [⟨0, 8, .ro, 0, 255⟩, ⟨8, 2, .ro, 0, 3⟩, ⟨16, 26, .ro, 0, 67108863⟩, ⟨63, 1, .ro, 0, 1⟩]⟩
def f_MEM_UE_LOG_SLICE : RF := ⟨r_MEM_UE_LOG, 0, 8⟩
def f_MEM_UE_LOG_WHERE : RF := ⟨r_MEM_UE_LOG, 8, 2⟩
def f_MEM_UE_LOG_SECTOR : RF := ⟨r_MEM_UE_LOG, 16, 26⟩
def f_MEM_UE_LOG_VALID : RF := ⟨r_MEM_UE_LOG, 63, 1⟩

/-- MEM_POISON_RD, block MEM offset 0x18. Poisoned data delivered. -/
def r_MEM_POISON_RD : Reg :=
  ⟨123, 0x800018, true, 8, 1, false, 0x0, [],
    [⟨0, 64, .ro, 0, 18446744073709551615⟩]⟩
def f_MEM_POISON_RD_COUNT : RF := ⟨r_MEM_POISON_RD, 0, 64⟩

/-- MEM_INFLIGHT_0..3, block MEM offset 0x20. Transactions in flight; stride 0x4. -/
def r_MEM_INFLIGHT : Reg :=
  ⟨124, 0x800020, false, 4, 4, false, 0x0, [],
    [⟨0, 15, .ro, 0, 32767⟩]⟩
def f_MEM_INFLIGHT_COUNT : RF := ⟨r_MEM_INFLIGHT, 0, 15⟩

/-- MEM_BRIDGE_STAT_0..3, block MEM offset 0x40. Bridge state; stride 0x4. -/
def r_MEM_BRIDGE_STAT : Reg :=
  ⟨125, 0x800040, false, 4, 4, false, 0x0, [],
    [⟨0, 16, .ro, 0, 65535⟩, ⟨16, 8, .ro, 0, 255⟩, ⟨24, 8, .ro, 0, 255⟩]⟩
def f_MEM_BRIDGE_STAT_RETRIES : RF := ⟨r_MEM_BRIDGE_STAT, 0, 16⟩
def f_MEM_BRIDGE_STAT_FAILED : RF := ⟨r_MEM_BRIDGE_STAT, 16, 8⟩
def f_MEM_BRIDGE_STAT_LOST : RF := ⟨r_MEM_BRIDGE_STAT, 24, 8⟩

/-- MEM_STACK_STAT_0..7, block MEM offset 0x80. Stack state; stride 0x4. -/
def r_MEM_STACK_STAT : Reg :=
  ⟨126, 0x800080, false, 4, 8, false, 0x0, [],
    [⟨0, 8, .ro, 0, 255⟩, ⟨8, 1, .ro, 0, 1⟩, ⟨9, 1, .ro, 0, 1⟩, ⟨10, 1, .ro, 0, 1⟩]⟩
def f_MEM_STACK_STAT_TEMP : RF := ⟨r_MEM_STACK_STAT, 0, 8⟩
def f_MEM_STACK_STAT_REFRESH_X2 : RF := ⟨r_MEM_STACK_STAT, 8, 1⟩
def f_MEM_STACK_STAT_TRAINED : RF := ⟨r_MEM_STACK_STAT, 9, 1⟩
def f_MEM_STACK_STAT_SELF_REFRESH : RF := ⟨r_MEM_STACK_STAT, 10, 1⟩

/-- MEM_APER_0..15, block MEM offset 0x100. Memory apertures of BAR2 (R245); stride 0x8. -/
def r_MEM_APER : Reg :=
  ⟨127, 0x800100, true, 8, 16, false, 0x0, [],
    [⟨0, 1, .rw, 0, 1⟩, ⟨1, 1, .rw, 0, 1⟩, ⟨2, 5, .rw, 0, 31⟩, ⟨21, 27, .rw, 0, 134217727⟩]⟩
def f_MEM_APER_VALID : RF := ⟨r_MEM_APER, 0, 1⟩
def f_MEM_APER_MODE : RF := ⟨r_MEM_APER, 1, 1⟩
def f_MEM_APER_INSTANCE : RF := ⟨r_MEM_APER, 2, 5⟩
def f_MEM_APER_BASE : RF := ⟨r_MEM_APER, 21, 27⟩

/-- MEM_SLICE_STAT_0..255, block MEM offset 0x1000. Slice state; stride 0x4. -/
def r_MEM_SLICE_STAT : Reg :=
  ⟨128, 0x801000, false, 4, 256, false, 0xFF00, [],
    [⟨0, 1, .ro, 0, 1⟩, ⟨1, 1, .ro, 0, 1⟩, ⟨8, 8, .ro, 0, 255⟩, ⟨16, 1, .ro, 0, 1⟩]⟩
def f_MEM_SLICE_STAT_PRESENT : RF := ⟨r_MEM_SLICE_STAT, 0, 1⟩
def f_MEM_SLICE_STAT_BOUND : RF := ⟨r_MEM_SLICE_STAT, 1, 1⟩
def f_MEM_SLICE_STAT_INSTANCE : RF := ⟨r_MEM_SLICE_STAT, 8, 8⟩
def f_MEM_SLICE_STAT_WB_BUSY : RF := ⟨r_MEM_SLICE_STAT, 16, 1⟩

/-- MEM_SLICE_CMD_0..255, block MEM offset 0x1400. Buffer write-back; stride 0x4. -/
def r_MEM_SLICE_CMD : Reg :=
  ⟨129, 0x801400, false, 4, 256, false, 0x0, [],
    [⟨0, 1, .wo, 0, 1⟩, ⟨1, 1, .wo, 0, 1⟩]⟩
def f_MEM_SLICE_CMD_WB : RF := ⟨r_MEM_SLICE_CMD, 0, 1⟩
def f_MEM_SLICE_CMD_WBINV : RF := ⟨r_MEM_SLICE_CMD, 1, 1⟩

/-- MEM_CE_0..255, block MEM offset 0x2000. Corrected errors; stride 0x8. -/
def r_MEM_CE : Reg :=
  ⟨130, 0x802000, true, 8, 256, false, 0x0, [],
    [⟨0, 64, .ro, 0, 18446744073709551615⟩]⟩
def f_MEM_CE_COUNT : RF := ⟨r_MEM_CE, 0, 64⟩

/-- MEM_UE_0..255, block MEM offset 0x2800. Uncorrectable errors; stride 0x8. -/
def r_MEM_UE : Reg :=
  ⟨131, 0x802800, true, 8, 256, false, 0x0, [],
    [⟨0, 64, .ro, 0, 18446744073709551615⟩]⟩
def f_MEM_UE_COUNT : RF := ⟨r_MEM_UE, 0, 64⟩

/-- MEM_RD_BYTES_0..255, block MEM offset 0x3000. Bytes read; stride 0x8. -/
def r_MEM_RD_BYTES : Reg :=
  ⟨132, 0x803000, true, 8, 256, false, 0x0, [],
    [⟨0, 64, .ro, 0, 18446744073709551615⟩]⟩
def f_MEM_RD_BYTES_COUNT : RF := ⟨r_MEM_RD_BYTES, 0, 64⟩

/-- MEM_WR_BYTES_0..255, block MEM offset 0x3800. Bytes written; stride 0x8. -/
def r_MEM_WR_BYTES : Reg :=
  ⟨133, 0x803800, true, 8, 256, false, 0x0, [],
    [⟨0, 64, .ro, 0, 18446744073709551615⟩]⟩
def f_MEM_WR_BYTES_COUNT : RF := ⟨r_MEM_WR_BYTES, 0, 64⟩

/-- SILK_STATUS, block SILK offset 0x0. Waiter use. -/
def r_SILK_STATUS : Reg :=
  ⟨149, 0xA00000, false, 4, 1, false, 0x0, [],
    [⟨0, 17, .ro, 0, 131071⟩, ⟨17, 2, .ro, 0, 3⟩]⟩
def f_SILK_STATUS_WAITERS : RF := ⟨r_SILK_STATUS, 0, 17⟩
def f_SILK_STATUS_HOME : RF := ⟨r_SILK_STATUS, 17, 2⟩

/-- SILK_OPS, block SILK offset 0x8. Operations performed. -/
def r_SILK_OPS : Reg :=
  ⟨150, 0xA00008, true, 8, 1, false, 0x0, [],
    [⟨0, 64, .ro, 0, 18446744073709551615⟩]⟩
def f_SILK_OPS_COUNT : RF := ⟨r_SILK_OPS, 0, 64⟩

/-- SILK_LATE, block SILK offset 0x10. Bound misses (R254). -/
def r_SILK_LATE : Reg :=
  ⟨151, 0xA00010, true, 8, 1, false, 0x0, [],
    [⟨0, 64, .ro, 0, 18446744073709551615⟩]⟩
def f_SILK_LATE_COUNT : RF := ⟨r_SILK_LATE, 0, 64⟩

/-- SILK_RANGE_0..31, block SILK offset 0x100. Counter range of instance i; stride 0x4. -/
def r_SILK_RANGE : Reg :=
  ⟨152, 0xA00100, false, 4, 32, false, 0x0, [],
    [⟨0, 14, .ro, 0, 16383⟩, ⟨16, 15, .ro, 0, 32767⟩, ⟨31, 1, .ro, 0, 1⟩]⟩
def f_SILK_RANGE_BASE : RF := ⟨r_SILK_RANGE, 0, 14⟩
def f_SILK_RANGE_SIZE : RF := ⟨r_SILK_RANGE, 16, 15⟩
def f_SILK_RANGE_VALID : RF := ⟨r_SILK_RANGE, 31, 1⟩

/-- SILK_CTR_0..16383, block SILK offset 0x80000. Counter values; stride 0x8. -/
def r_SILK_CTR : Reg :=
  ⟨153, 0xA80000, true, 8, 16384, false, 0x0, [],
    [⟨0, 64, .rw, 0, 18446744073709551615⟩]⟩
def f_SILK_CTR_VALUE : RF := ⟨r_SILK_CTR, 0, 64⟩

/-- QOS_CFG, block QOS offset 0x0. Reporting. -/
def r_QOS_CFG : Reg :=
  ⟨75, 0x500000, false, 4, 1, false, 0x1, [],
    [⟨0, 1, .rw, 0, 1⟩]⟩
def f_QOS_CFG_FAULT_EVT : RF := ⟨r_QOS_CFG, 0, 1⟩

/-- QOS_WIN_LEN, block QOS offset 0x4. Regulator window. -/
def r_QOS_WIN_LEN : Reg :=
  ⟨76, 0x500004, false, 4, 1, false, 0x1F4, [],
    [⟨0, 14, .rw, 64, 16000⟩]⟩
def f_QOS_WIN_LEN_TICKS : RF := ⟨r_QOS_WIN_LEN, 0, 14⟩

/-- QOS_STATUS, block QOS offset 0x8. Guarantee state. -/
def r_QOS_STATUS : Reg :=
  ⟨77, 0x500008, false, 4, 1, false, 0x0, [],
    [⟨0, 1, .ro, 0, 1⟩, ⟨1, 1, .w1c, 0, 1⟩, ⟨8, 6, .ro, 0, 63⟩]⟩
def f_QOS_STATUS_OVERCOMMIT : RF := ⟨r_QOS_STATUS, 0, 1⟩
def f_QOS_STATUS_MISS_SEEN : RF := ⟨r_QOS_STATUS, 1, 1⟩
def f_QOS_STATUS_GUARANTEED : RF := ⟨r_QOS_STATUS, 8, 6⟩

/-- QOS_CLASS_DL_0..3, block QOS offset 0x10. Relative deadlines; stride 0x4. -/
def r_QOS_CLASS_DL : Reg :=
  ⟨78, 0x500010, false, 4, 4, false, 0x0, [49152250, 73728375, 98304500, 98304500],
    [⟨0, 12, .rw, 125, 500⟩, ⟨16, 12, .rw, 500, 1500⟩]⟩
def f_QOS_CLASS_DL_LOCAL : RF := ⟨r_QOS_CLASS_DL, 0, 12⟩
def f_QOS_CLASS_DL_HOP : RF := ⟨r_QOS_CLASS_DL, 16, 12⟩

/-- QOS_CAP_MEM, block QOS offset 0x20. Slice capacity, MB/s. -/
def r_QOS_CAP_MEM : Reg :=
  ⟨79, 0x500020, false, 4, 1, false, 0xE038, [],
    [⟨0, 32, .ro, 0, 4294967295⟩]⟩
def f_QOS_CAP_MEM_MBPS : RF := ⟨r_QOS_CAP_MEM, 0, 32⟩

/-- QOS_CAP_CPORT, block QOS offset 0x24. Core port capacity, MB/s. -/
def r_QOS_CAP_CPORT : Reg :=
  ⟨80, 0x500024, false, 4, 1, false, 0x59FD8, [],
    [⟨0, 32, .ro, 0, 4294967295⟩]⟩
def f_QOS_CAP_CPORT_MBPS : RF := ⟨r_QOS_CAP_CPORT, 0, 32⟩

/-- QOS_CAP_BRIDGE, block QOS offset 0x28. Bridge capacity per direction, MB/s. -/
def r_QOS_CAP_BRIDGE : Reg :=
  ⟨81, 0x500028, false, 4, 1, false, 0x3B0D30, [],
    [⟨0, 32, .ro, 0, 4294967295⟩]⟩
def f_QOS_CAP_BRIDGE_MBPS : RF := ⟨r_QOS_CAP_BRIDGE, 0, 32⟩

/-- QOS_CAP_LINK, block QOS offset 0x2C. Link port capacity, MB/s. -/
def r_QOS_CAP_LINK : Reg :=
  ⟨82, 0x50002C, false, 4, 1, false, 0x15F90, [],
    [⟨0, 32, .ro, 0, 4294967295⟩]⟩
def f_QOS_CAP_LINK_MBPS : RF := ⟨r_QOS_CAP_LINK, 0, 32⟩

/-- QOS_CAP_CLUSTER, block QOS offset 0x30. Cluster capacity, MB/s. -/
def r_QOS_CAP_CLUSTER : Reg :=
  ⟨83, 0x500030, false, 4, 1, false, 0xB4000, [],
    [⟨0, 32, .ro, 0, 4294967295⟩]⟩
def f_QOS_CAP_CLUSTER_MBPS : RF := ⟨r_QOS_CAP_CLUSTER, 0, 32⟩

/-- QOS_CAP_HOST, block QOS offset 0x34. Host interface capacity, MB/s. -/
def r_QOS_CAP_HOST : Reg :=
  ⟨84, 0x500034, false, 4, 1, false, 0x186A0, [],
    [⟨0, 32, .ro, 0, 4294967295⟩]⟩
def f_QOS_CAP_HOST_MBPS : RF := ⟨r_QOS_CAP_HOST, 0, 32⟩

/-- QOS_ADM_LOG, block QOS offset 0x40. Last rejection. -/
def r_QOS_ADM_LOG : Reg :=
  ⟨85, 0x500040, true, 8, 1, false, 0x0, [],
    [⟨0, 4, .ro, 0, 15⟩, ⟨4, 8, .ro, 0, 255⟩, ⟨12, 5, .ro, 0, 31⟩, ⟨32, 31, .ro, 0, 2147483647⟩, ⟨63, 1, .ro, 0, 1⟩]⟩
def f_QOS_ADM_LOG_KIND : RF := ⟨r_QOS_ADM_LOG, 0, 4⟩
def f_QOS_ADM_LOG_INDEX : RF := ⟨r_QOS_ADM_LOG, 4, 8⟩
def f_QOS_ADM_LOG_INSTANCE : RF := ⟨r_QOS_ADM_LOG, 12, 5⟩
def f_QOS_ADM_LOG_LOAD : RF := ⟨r_QOS_ADM_LOG, 32, 31⟩
def f_QOS_ADM_LOG_VALID : RF := ⟨r_QOS_ADM_LOG, 63, 1⟩

/-- QOS_MISS_COUNT, block QOS offset 0x48. Misses, chip. -/
def r_QOS_MISS_COUNT : Reg :=
  ⟨86, 0x500048, true, 8, 1, false, 0x0, [],
    [⟨0, 64, .ro, 0, 18446744073709551615⟩]⟩
def f_QOS_MISS_COUNT_COUNT : RF := ⟨r_QOS_MISS_COUNT, 0, 64⟩

/-- QOS_DEMOTED, block QOS offset 0x50. Bytes demoted, chip. -/
def r_QOS_DEMOTED : Reg :=
  ⟨87, 0x500050, true, 8, 1, false, 0x0, [],
    [⟨0, 64, .ro, 0, 18446744073709551615⟩]⟩
def f_QOS_DEMOTED_COUNT : RF := ⟨r_QOS_DEMOTED, 0, 64⟩

/-- QOS_CORE_RATE_0..143, block QOS offset 0x1000. Core grants; stride 0x8. -/
def r_QOS_CORE_RATE : Reg :=
  ⟨88, 0x501000, true, 8, 144, false, 0x0, [],
    [⟨0, 16, .ro, 0, 65535⟩, ⟨16, 16, .ro, 0, 65535⟩, ⟨32, 16, .ro, 0, 65535⟩, ⟨48, 16, .ro, 0, 65535⟩]⟩
def f_QOS_CORE_RATE_RATE0 : RF := ⟨r_QOS_CORE_RATE, 0, 16⟩
def f_QOS_CORE_RATE_RATE1 : RF := ⟨r_QOS_CORE_RATE, 16, 16⟩
def f_QOS_CORE_RATE_RATE2 : RF := ⟨r_QOS_CORE_RATE, 32, 16⟩
def f_QOS_CORE_RATE_RATE3 : RF := ⟨r_QOS_CORE_RATE, 48, 16⟩

/-- QOS_IMG_BULK_RATE_0..31, block QOS offset 0x1800. Bulk-work grants; stride 0x8. -/
def r_QOS_IMG_BULK_RATE : Reg :=
  ⟨89, 0x501800, true, 8, 32, false, 0x0, [],
    [⟨0, 16, .ro, 0, 65535⟩, ⟨16, 16, .ro, 0, 65535⟩, ⟨32, 16, .ro, 0, 65535⟩, ⟨48, 16, .ro, 0, 65535⟩]⟩
def f_QOS_IMG_BULK_RATE_RATE0 : RF := ⟨r_QOS_IMG_BULK_RATE, 0, 16⟩
def f_QOS_IMG_BULK_RATE_RATE1 : RF := ⟨r_QOS_IMG_BULK_RATE, 16, 16⟩
def f_QOS_IMG_BULK_RATE_RATE2 : RF := ⟨r_QOS_IMG_BULK_RATE, 32, 16⟩
def f_QOS_IMG_BULK_RATE_RATE3 : RF := ⟨r_QOS_IMG_BULK_RATE, 48, 16⟩

/-- QOS_IMG_SPILL_RATE_0..31, block QOS offset 0x1900. Spill grant; stride 0x4. -/
def r_QOS_IMG_SPILL_RATE : Reg :=
  ⟨90, 0x501900, false, 4, 32, false, 0x0, [],
    [⟨0, 24, .ro, 0, 16777215⟩]⟩
def f_QOS_IMG_SPILL_RATE_RATE : RF := ⟨r_QOS_IMG_SPILL_RATE, 0, 24⟩

/-- QOS_IMG_TARGET_0..31, block QOS offset 0x1980. Class targets; stride 0x4. -/
def r_QOS_IMG_TARGET : Reg :=
  ⟨91, 0x501980, false, 4, 32, false, 0x0, [],
    [⟨0, 2, .ro, 0, 3⟩, ⟨2, 2, .ro, 0, 3⟩, ⟨4, 2, .ro, 0, 3⟩, ⟨6, 2, .ro, 0, 3⟩]⟩
def f_QOS_IMG_TARGET_TARGET0 : RF := ⟨r_QOS_IMG_TARGET, 0, 2⟩
def f_QOS_IMG_TARGET_TARGET1 : RF := ⟨r_QOS_IMG_TARGET, 2, 2⟩
def f_QOS_IMG_TARGET_TARGET2 : RF := ⟨r_QOS_IMG_TARGET, 4, 2⟩
def f_QOS_IMG_TARGET_TARGET3 : RF := ⟨r_QOS_IMG_TARGET, 6, 2⟩

/-- QOS_LINK_RATE_0..31, block QOS offset 0x1A00. Inbound port grants; stride 0x8. -/
def r_QOS_LINK_RATE : Reg :=
  ⟨92, 0x501A00, true, 8, 32, false, 0x0, [],
    [⟨0, 16, .ro, 0, 65535⟩, ⟨16, 16, .ro, 0, 65535⟩, ⟨32, 16, .ro, 0, 65535⟩, ⟨48, 16, .ro, 0, 65535⟩]⟩
def f_QOS_LINK_RATE_RATE0 : RF := ⟨r_QOS_LINK_RATE, 0, 16⟩
def f_QOS_LINK_RATE_RATE1 : RF := ⟨r_QOS_LINK_RATE, 16, 16⟩
def f_QOS_LINK_RATE_RATE2 : RF := ⟨r_QOS_LINK_RATE, 32, 16⟩
def f_QOS_LINK_RATE_RATE3 : RF := ⟨r_QOS_LINK_RATE, 48, 16⟩

/-- QOS_IMG_MISS_0..31, block QOS offset 0x1C00. Misses per Imago; stride 0x10. -/
def r_QOS_IMG_MISS : Reg :=
  ⟨93, 0x501C00, true, 16, 32, false, 0x0, [],
    [⟨0, 64, .ro, 0, 18446744073709551615⟩]⟩
def f_QOS_IMG_MISS_COUNT : RF := ⟨r_QOS_IMG_MISS, 0, 64⟩

/-- QOS_IMG_DEMOTE_0..31, block QOS offset 0x1C08. Bytes demoted per Imago; stride 0x10. -/
def r_QOS_IMG_DEMOTE : Reg :=
  ⟨94, 0x501C08, true, 16, 32, false, 0x0, [],
    [⟨0, 64, .ro, 0, 18446744073709551615⟩]⟩
def f_QOS_IMG_DEMOTE_COUNT : RF := ⟨r_QOS_IMG_DEMOTE, 0, 64⟩

/-- QOS_SLICE_LOAD_0..255, block QOS offset 0x2000. Admitted load per physical slice; stride 0x4. -/
def r_QOS_SLICE_LOAD : Reg :=
  ⟨95, 0x502000, false, 4, 256, false, 0x0, [],
    [⟨0, 32, .ro, 0, 4294967295⟩]⟩
def f_QOS_SLICE_LOAD_LOAD : RF := ⟨r_QOS_SLICE_LOAD, 0, 32⟩

/-- QOS_BRIDGE_LOAD_0..7, block QOS offset 0x2400. Admitted load per bridge direction; stride 0x4. -/
def r_QOS_BRIDGE_LOAD : Reg :=
  ⟨96, 0x502400, false, 4, 8, false, 0x0, [],
    [⟨0, 32, .ro, 0, 4294967295⟩]⟩
def f_QOS_BRIDGE_LOAD_LOAD : RF := ⟨r_QOS_BRIDGE_LOAD, 0, 32⟩

/-- QOS_CLU_LOAD_0..15, block QOS offset 0x2420. Admitted load per cluster; stride 0x4. -/
def r_QOS_CLU_LOAD : Reg :=
  ⟨97, 0x502420, false, 4, 16, false, 0x0, [],
    [⟨0, 32, .ro, 0, 4294967295⟩]⟩
def f_QOS_CLU_LOAD_LOAD : RF := ⟨r_QOS_CLU_LOAD, 0, 32⟩

/-- QOS_HOST_LOAD, block QOS offset 0x2460. Admitted load at the host interface. -/
def r_QOS_HOST_LOAD : Reg :=
  ⟨98, 0x502460, false, 4, 1, false, 0x0, [],
    [⟨0, 32, .ro, 0, 4294967295⟩]⟩
def f_QOS_HOST_LOAD_LOAD : RF := ⟨r_QOS_HOST_LOAD, 0, 32⟩

/-- XLT_CFG, block XLT offset 0x0. Fault timeout. -/
def r_XLT_CFG : Reg :=
  ⟨56, 0x400000, false, 4, 1, false, 0xC8, [],
    [⟨0, 16, .rw, 1, 65535⟩]⟩
def f_XLT_CFG_FAULT_TMO : RF := ⟨r_XLT_CFG, 0, 16⟩

/-- XLT_STATUS, block XLT offset 0x4. Tracker state. -/
def r_XLT_STATUS : Reg :=
  ⟨57, 0x400004, false, 4, 1, false, 0x0, [],
    [⟨0, 13, .ro, 0, 8191⟩, ⟨13, 1, .ro, 0, 1⟩]⟩
def f_XLT_STATUS_TRACKER_USED : RF := ⟨r_XLT_STATUS, 0, 13⟩
def f_XLT_STATUS_TRACKER_FULL : RF := ⟨r_XLT_STATUS, 13, 1⟩

/-- XLT_SPACE_BASE, block XLT offset 0x8. Space table. -/
def r_XLT_SPACE_BASE : Reg :=
  ⟨58, 0x400008, true, 8, 1, false, 0x0, [],
    [⟨0, 1, .rw, 0, 1⟩, ⟨12, 35, .rw, 0, 34359738367⟩]⟩
def f_XLT_SPACE_BASE_ENABLE : RF := ⟨r_XLT_SPACE_BASE, 0, 1⟩
def f_XLT_SPACE_BASE_ADDR : RF := ⟨r_XLT_SPACE_BASE, 12, 35⟩

/-- XLT_INV_TIMEOUT, block XLT offset 0x10. Slow-invalidation limit. -/
def r_XLT_INV_TIMEOUT : Reg :=
  ⟨59, 0x400010, false, 4, 1, false, 0x3E8, [],
    [⟨0, 20, .rw, 1, 1048575⟩]⟩
def f_XLT_INV_TIMEOUT_US : RF := ⟨r_XLT_INV_TIMEOUT, 0, 20⟩

/-- XLT_FAULTS, block XLT offset 0x18. Tracker entries allocated. -/
def r_XLT_FAULTS : Reg :=
  ⟨60, 0x400018, true, 8, 1, false, 0x0, [],
    [⟨0, 64, .ro, 0, 18446744073709551615⟩]⟩
def f_XLT_FAULTS_COUNT : RF := ⟨r_XLT_FAULTS, 0, 64⟩

/-- XLT_FAULTS_TMO, block XLT offset 0x20. Entries aborted by timeout. -/
def r_XLT_FAULTS_TMO : Reg :=
  ⟨61, 0x400020, true, 8, 1, false, 0x0, [],
    [⟨0, 64, .ro, 0, 18446744073709551615⟩]⟩
def f_XLT_FAULTS_TMO_COUNT : RF := ⟨r_XLT_FAULTS_TMO, 0, 64⟩

/-- XLT_INV_SLOW, block XLT offset 0x28. Slow invalidations. -/
def r_XLT_INV_SLOW : Reg :=
  ⟨62, 0x400028, true, 8, 1, false, 0x0, [],
    [⟨0, 64, .ro, 0, 18446744073709551615⟩]⟩
def f_XLT_INV_SLOW_COUNT : RF := ⟨r_XLT_INV_SLOW, 0, 64⟩

/-- XLT_WALKS_0..3, block XLT offset 0x40. Walks; stride 0x8. -/
def r_XLT_WALKS : Reg :=
  ⟨63, 0x400040, true, 8, 4, false, 0x0, [],
    [⟨0, 64, .ro, 0, 18446744073709551615⟩]⟩
def f_XLT_WALKS_COUNT : RF := ⟨r_XLT_WALKS, 0, 64⟩

/-- XLT_STLB_MISS_0..3, block XLT offset 0x60. Shared TLB misses; stride 0x8. -/
def r_XLT_STLB_MISS : Reg :=
  ⟨64, 0x400060, true, 8, 4, false, 0x0, [],
    [⟨0, 64, .ro, 0, 18446744073709551615⟩]⟩
def f_XLT_STLB_MISS_COUNT : RF := ⟨r_XLT_STLB_MISS, 0, 64⟩

/-- XLT_WALK_BUSY_0..3, block XLT offset 0x80. Walkers busy; stride 0x4. -/
def r_XLT_WALK_BUSY : Reg :=
  ⟨65, 0x400080, false, 4, 4, false, 0x0, [],
    [⟨0, 6, .ro, 0, 63⟩]⟩
def f_XLT_WALK_BUSY_BUSY : RF := ⟨r_XLT_WALK_BUSY, 0, 6⟩

/-- XLT_REPLAY, block XLT offset 0x1000. Replay doorbell. -/
def r_XLT_REPLAY : Reg :=
  ⟨66, 0x401000, false, 4, 1, true, 0x0, [],
    [⟨0, 20, .wo, 0, 1048575⟩, ⟨31, 1, .wo, 0, 1⟩]⟩
def f_XLT_REPLAY_FAULT_ID : RF := ⟨r_XLT_REPLAY, 0, 20⟩
def f_XLT_REPLAY_ABORT : RF := ⟨r_XLT_REPLAY, 31, 1⟩

/-- XLT_REPLAY_STALE, block XLT offset 0x1004. Discarded replays. -/
def r_XLT_REPLAY_STALE : Reg :=
  ⟨67, 0x401004, false, 4, 1, true, 0x0, [],
    [⟨0, 32, .ro, 0, 4294967295⟩]⟩
def f_XLT_REPLAY_STALE_COUNT : RF := ⟨r_XLT_REPLAY_STALE, 0, 32⟩

/-- XLT_IQ_BASE, block XLT offset 0x1008. Invalidation queue. -/
def r_XLT_IQ_BASE : Reg :=
  ⟨68, 0x401008, true, 8, 1, true, 0x0, [],
    [⟨0, 1, .rw, 0, 1⟩, ⟨12, 35, .rw, 0, 34359738367⟩]⟩
def f_XLT_IQ_BASE_ENABLE : RF := ⟨r_XLT_IQ_BASE, 0, 1⟩
def f_XLT_IQ_BASE_ADDR : RF := ⟨r_XLT_IQ_BASE, 12, 35⟩

/-- XLT_IQ_SIZE, block XLT offset 0x1010. Queue size. -/
def r_XLT_IQ_SIZE : Reg :=
  ⟨69, 0x401010, false, 4, 1, true, 0x4, [],
    [⟨0, 4, .rw, 4, 12⟩]⟩
def f_XLT_IQ_SIZE_LOG2 : RF := ⟨r_XLT_IQ_SIZE, 0, 4⟩

/-- XLT_IQ_TAIL, block XLT offset 0x1014. Driver's next index. -/
def r_XLT_IQ_TAIL : Reg :=
  ⟨70, 0x401014, false, 4, 1, true, 0x0, [],
    [⟨0, 12, .rw, 0, 4095⟩]⟩
def f_XLT_IQ_TAIL_INDEX : RF := ⟨r_XLT_IQ_TAIL, 0, 12⟩

/-- XLT_IQ_HEAD, block XLT offset 0x1018. Next index to complete. -/
def r_XLT_IQ_HEAD : Reg :=
  ⟨71, 0x401018, false, 4, 1, true, 0x0, [],
    [⟨0, 12, .ro, 0, 4095⟩]⟩
def f_XLT_IQ_HEAD_INDEX : RF := ⟨r_XLT_IQ_HEAD, 0, 12⟩

/-- XLT_IQ_STATUS, block XLT offset 0x101C. Queue state. -/
def r_XLT_IQ_STATUS : Reg :=
  ⟨72, 0x40101C, false, 4, 1, true, 0x0, [],
    [⟨0, 1, .ro, 0, 1⟩, ⟨1, 1, .w1c, 0, 1⟩, ⟨2, 1, .w1c, 0, 1⟩]⟩
def f_XLT_IQ_STATUS_BUSY : RF := ⟨r_XLT_IQ_STATUS, 0, 1⟩
def f_XLT_IQ_STATUS_REJECTED : RF := ⟨r_XLT_IQ_STATUS, 1, 1⟩
def f_XLT_IQ_STATUS_MALFORMED : RF := ⟨r_XLT_IQ_STATUS, 2, 1⟩

/-- XLT_WS_FLUSH, block XLT offset 0x1020. Whole-space flush. -/
def r_XLT_WS_FLUSH : Reg :=
  ⟨73, 0x401020, false, 4, 1, true, 0x0, [],
    [⟨0, 20, .rw, 0, 1048575⟩, ⟨31, 1, .w1s, 0, 1⟩]⟩
def f_XLT_WS_FLUSH_SPACE : RF := ⟨r_XLT_WS_FLUSH, 0, 20⟩
def f_XLT_WS_FLUSH_BUSY : RF := ⟨r_XLT_WS_FLUSH, 31, 1⟩

/-- XLT_WS_FLUSH_DONE, block XLT offset 0x1028. Flushes completed. -/
def r_XLT_WS_FLUSH_DONE : Reg :=
  ⟨74, 0x401028, true, 8, 1, true, 0x0, [],
    [⟨0, 64, .ro, 0, 18446744073709551615⟩]⟩
def f_XLT_WS_FLUSH_DONE_COUNT : RF := ⟨r_XLT_WS_FLUSH_DONE, 0, 64⟩

/-- EVT_FQ_BASE, block EVT offset 0x0. Fault queue ring. -/
def r_EVT_FQ_BASE : Reg :=
  ⟨230, 0x1000000, true, 8, 1, true, 0x0, [],
    [⟨0, 1, .rw, 0, 1⟩, ⟨12, 35, .rw, 0, 34359738367⟩]⟩
def f_EVT_FQ_BASE_ENABLE : RF := ⟨r_EVT_FQ_BASE, 0, 1⟩
def f_EVT_FQ_BASE_ADDR : RF := ⟨r_EVT_FQ_BASE, 12, 35⟩

/-- EVT_FQ_SIZE, block EVT offset 0x8. Ring size. -/
def r_EVT_FQ_SIZE : Reg :=
  ⟨231, 0x1000008, false, 4, 1, true, 0x6, [],
    [⟨0, 5, .rw, 6, 16⟩]⟩
def f_EVT_FQ_SIZE_LOG2 : RF := ⟨r_EVT_FQ_SIZE, 0, 5⟩

/-- EVT_FQ_HEAD, block EVT offset 0xC. Driver's next record. -/
def r_EVT_FQ_HEAD : Reg :=
  ⟨232, 0x100000C, false, 4, 1, true, 0x0, [],
    [⟨0, 16, .rw, 0, 65535⟩]⟩
def f_EVT_FQ_HEAD_INDEX : RF := ⟨r_EVT_FQ_HEAD, 0, 16⟩

/-- EVT_FQ_TAIL, block EVT offset 0x10. Device's next record. -/
def r_EVT_FQ_TAIL : Reg :=
  ⟨233, 0x1000010, false, 4, 1, true, 0x0, [],
    [⟨0, 16, .ro, 0, 65535⟩]⟩
def f_EVT_FQ_TAIL_INDEX : RF := ⟨r_EVT_FQ_TAIL, 0, 16⟩

/-- EVT_FQ_STATUS, block EVT offset 0x14. Queue state. -/
def r_EVT_FQ_STATUS : Reg :=
  ⟨234, 0x1000014, false, 4, 1, true, 0x0, [],
    [⟨0, 1, .ro, 0, 1⟩, ⟨16, 13, .ro, 0, 8191⟩]⟩
def f_EVT_FQ_STATUS_FULL : RF := ⟨r_EVT_FQ_STATUS, 0, 1⟩
def f_EVT_FQ_STATUS_PENDING : RF := ⟨r_EVT_FQ_STATUS, 16, 13⟩

/-- CMP_CFG, block CMP offset 0x0. Chrysalis warning. -/
def r_CMP_CFG : Reg :=
  ⟨23, 0x200000, false, 4, 1, false, 0x32, [],
    [⟨0, 16, .rw, 1, 65535⟩]⟩
def f_CMP_CFG_WARN_MS : RF := ⟨r_CMP_CFG, 0, 16⟩

/-- CMP_STATUS, block CMP offset 0x4. Verifier state. -/
def r_CMP_STATUS : Reg :=
  ⟨24, 0x200004, false, 4, 1, false, 0x0, [],
    [⟨0, 1, .ro, 0, 1⟩, ⟨1, 5, .ro, 0, 31⟩, ⟨6, 1, .ro, 0, 1⟩, ⟨7, 1, .ro, 0, 1⟩]⟩
def f_CMP_STATUS_VERIFYING : RF := ⟨r_CMP_STATUS, 0, 1⟩
def f_CMP_STATUS_INSTANCE : RF := ⟨r_CMP_STATUS, 1, 5⟩
def f_CMP_STATUS_POOL : RF := ⟨r_CMP_STATUS, 6, 1⟩
def f_CMP_STATUS_SCRUBBING : RF := ⟨r_CMP_STATUS, 7, 1⟩

/-- CMP_POOL, block CMP offset 0x8. Free slices. -/
def r_CMP_POOL : Reg :=
  ⟨25, 0x200008, false, 4, 1, false, 0x0, [],
    [⟨0, 8, .ro, 0, 255⟩, ⟨8, 9, .ro, 0, 511⟩, ⟨17, 6, .ro, 0, 63⟩, ⟨23, 9, .ro, 0, 511⟩]⟩
def f_CMP_POOL_FREE_CORES : RF := ⟨r_CMP_POOL, 0, 8⟩
def f_CMP_POOL_FREE_MEM : RF := ⟨r_CMP_POOL, 8, 9⟩
def f_CMP_POOL_FREE_LINKS : RF := ⟨r_CMP_POOL, 17, 6⟩
def f_CMP_POOL_SCRUB_MEM : RF := ⟨r_CMP_POOL, 23, 9⟩

/-- CMP_POOL_EPOCH, block CMP offset 0xC. Pool epoch. -/
def r_CMP_POOL_EPOCH : Reg :=
  ⟨26, 0x20000C, false, 4, 1, false, 0x0, [],
    [⟨0, 16, .ro, 0, 65535⟩, ⟨16, 1, .ro, 0, 1⟩]⟩
def f_CMP_POOL_EPOCH_EPOCH : RF := ⟨r_CMP_POOL_EPOCH, 0, 16⟩
def f_CMP_POOL_EPOCH_CHRYSALIS : RF := ⟨r_CMP_POOL_EPOCH, 16, 1⟩

/-- CMP_LAST, block CMP offset 0x10. Last stream result. -/
def r_CMP_LAST : Reg :=
  ⟨27, 0x200010, true, 8, 1, false, 0x0, [],
    [⟨0, 16, .ro, 0, 65535⟩, ⟨16, 16, .ro, 0, 65535⟩, ⟨32, 16, .ro, 0, 65535⟩, ⟨48, 5, .ro, 0, 31⟩, ⟨53, 1, .ro, 0, 1⟩, ⟨63, 1, .ro, 0, 1⟩]⟩
def f_CMP_LAST_RESULT : RF := ⟨r_CMP_LAST, 0, 16⟩
def f_CMP_LAST_RECORD : RF := ⟨r_CMP_LAST, 16, 16⟩
def f_CMP_LAST_EPOCH : RF := ⟨r_CMP_LAST, 32, 16⟩
def f_CMP_LAST_INSTANCE : RF := ⟨r_CMP_LAST, 48, 5⟩
def f_CMP_LAST_POOL : RF := ⟨r_CMP_LAST, 53, 1⟩
def f_CMP_LAST_VALID : RF := ⟨r_CMP_LAST, 63, 1⟩

/-- CMP_STALE, block CMP offset 0x18. Stale deliveries. -/
def r_CMP_STALE : Reg :=
  ⟨28, 0x200018, true, 8, 1, false, 0x0, [],
    [⟨0, 64, .ro, 0, 18446744073709551615⟩]⟩
def f_CMP_STALE_COUNT : RF := ⟨r_CMP_STALE, 0, 64⟩

/-- CMP_STALE_KIND_0..3, block CMP offset 0x20. Stale deliveries by unit kind; stride 0x8. -/
def r_CMP_STALE_KIND : Reg :=
  ⟨29, 0x200020, true, 8, 4, false, 0x0, [],
    [⟨0, 64, .ro, 0, 18446744073709551615⟩]⟩
def f_CMP_STALE_KIND_COUNT : RF := ⟨r_CMP_STALE_KIND, 0, 64⟩

/-- CMP_EPOCH_0..31, block CMP offset 0x100. Epoch and state; stride 0x4. -/
def r_CMP_EPOCH : Reg :=
  ⟨30, 0x200100, false, 4, 32, false, 0x0, [],
    [⟨0, 16, .ro, 0, 65535⟩, ⟨16, 3, .ro, 0, 7⟩, ⟨19, 1, .ro, 0, 1⟩, ⟨20, 1, .ro, 0, 1⟩]⟩
def f_CMP_EPOCH_EPOCH : RF := ⟨r_CMP_EPOCH, 0, 16⟩
def f_CMP_EPOCH_STATE : RF := ⟨r_CMP_EPOCH, 16, 3⟩
def f_CMP_EPOCH_EVAC : RF := ⟨r_CMP_EPOCH, 19, 1⟩
def f_CMP_EPOCH_SLOW : RF := ⟨r_CMP_EPOCH, 20, 1⟩

/-- CMP_IMG_RB_0..31, block CMP offset 0x180. Region size; stride 0x4. -/
def r_CMP_IMG_RB : Reg :=
  ⟨31, 0x200180, false, 4, 32, false, 0x0, [],
    [⟨0, 15, .ro, 0, 32767⟩]⟩
def f_CMP_IMG_RB_RB : RF := ⟨r_CMP_IMG_RB, 0, 15⟩

/-- CMP_EVAC_0..31, block CMP offset 0x200. Evacuation progress; stride 0x8. -/
def r_CMP_EVAC : Reg :=
  ⟨32, 0x200200, true, 8, 32, false, 0x0, [],
    [⟨0, 11, .ro, 0, 2047⟩, ⟨16, 48, .ro, 0, 281474976710655⟩]⟩
def f_CMP_EVAC_ENTRIES_LEFT : RF := ⟨r_CMP_EVAC, 0, 11⟩
def f_CMP_EVAC_BYTES : RF := ⟨r_CMP_EVAC, 16, 48⟩

/-- CMP_PLACE_MISS_0..31, block CMP offset 0x300. Placement refusals; stride 0x8. -/
def r_CMP_PLACE_MISS : Reg :=
  ⟨33, 0x200300, true, 8, 32, false, 0x0, [],
    [⟨0, 64, .ro, 0, 18446744073709551615⟩]⟩
def f_CMP_PLACE_MISS_COUNT : RF := ⟨r_CMP_PLACE_MISS, 0, 64⟩

/-- CMP_CORE_0..143, block CMP offset 0x1000. Core slice state; stride 0x4. -/
def r_CMP_CORE : Reg :=
  ⟨34, 0x201000, false, 4, 144, false, 0xFF, [],
    [⟨0, 8, .ro, 0, 255⟩, ⟨8, 8, .ro, 0, 255⟩, ⟨16, 1, .ro, 0, 1⟩, ⟨17, 2, .ro, 0, 3⟩]⟩
def f_CMP_CORE_INSTANCE : RF := ⟨r_CMP_CORE, 0, 8⟩
def f_CMP_CORE_INSTAR : RF := ⟨r_CMP_CORE, 8, 8⟩
def f_CMP_CORE_AWAKE : RF := ⟨r_CMP_CORE, 16, 1⟩
def f_CMP_CORE_STATE : RF := ⟨r_CMP_CORE, 17, 2⟩

/-- CMP_MEM_0..255, block CMP offset 0x1400. Memory slice state; stride 0x4. -/
def r_CMP_MEM : Reg :=
  ⟨35, 0x201400, false, 4, 256, false, 0xFF00, [],
    [⟨0, 3, .ro, 0, 7⟩, ⟨8, 8, .ro, 0, 255⟩, ⟨16, 8, .ro, 0, 255⟩, ⟨24, 1, .ro, 0, 1⟩]⟩
def f_CMP_MEM_STATE : RF := ⟨r_CMP_MEM, 0, 3⟩
def f_CMP_MEM_INSTANCE : RF := ⟨r_CMP_MEM, 8, 8⟩
def f_CMP_MEM_LIST : RF := ⟨r_CMP_MEM, 16, 8⟩
def f_CMP_MEM_SOURCE : RF := ⟨r_CMP_MEM, 24, 1⟩

/-- CMP_LINK_0..31, block CMP offset 0x1800. Link slice state; stride 0x4. -/
def r_CMP_LINK : Reg :=
  ⟨36, 0x201800, false, 4, 32, false, 0xFF00, [],
    [⟨0, 3, .ro, 0, 7⟩, ⟨8, 8, .ro, 0, 255⟩]⟩
def f_CMP_LINK_STATE : RF := ⟨r_CMP_LINK, 0, 3⟩
def f_CMP_LINK_INSTANCE : RF := ⟨r_CMP_LINK, 8, 8⟩

/-- CMP_LEASE_0..63, block CMP offset 0x1900. Leases; stride 0x8. -/
def r_CMP_LEASE : Reg :=
  ⟨37, 0x201900, true, 8, 64, false, 0x0, [],
    [⟨0, 32, .ro, 0, 4294967295⟩, ⟨32, 16, .ro, 0, 65535⟩, ⟨48, 8, .ro, 0, 255⟩, ⟨56, 1, .ro, 0, 1⟩, ⟨57, 1, .ro, 0, 1⟩, ⟨58, 1, .ro, 0, 1⟩, ⟨59, 5, .ro, 0, 31⟩]⟩
def f_CMP_LEASE_LEASE : RF := ⟨r_CMP_LEASE, 0, 32⟩
def f_CMP_LEASE_PEER_CHIP : RF := ⟨r_CMP_LEASE, 32, 16⟩
def f_CMP_LEASE_UNIT : RF := ⟨r_CMP_LEASE, 48, 8⟩
def f_CMP_LEASE_KIND : RF := ⟨r_CMP_LEASE, 56, 1⟩
def f_CMP_LEASE_DIR : RF := ⟨r_CMP_LEASE, 57, 1⟩
def f_CMP_LEASE_TAKEN : RF := ⟨r_CMP_LEASE, 58, 1⟩
def f_CMP_LEASE_INSTANCE : RF := ⟨r_CMP_LEASE, 59, 5⟩

/-- CMP_ILV_0..32767, block CMP offset 0x40000. Interleave tables; stride 0x4. -/
def r_CMP_ILV : Reg :=
  ⟨38, 0x240000, false, 4, 32768, false, 0x0, [],
    [⟨0, 32, .ro, 0, 4294967295⟩]⟩

/-- CMP_SLIST_0..8191, block CMP offset 0x60000. Slice lists; stride 0x4. -/
def r_CMP_SLIST : Reg :=
  ⟨39, 0x260000, false, 4, 8192, false, 0x0, [],
    [⟨0, 16, .ro, 0, 65535⟩, ⟨16, 8, .ro, 0, 255⟩, ⟨24, 1, .ro, 0, 1⟩, ⟨25, 1, .ro, 0, 1⟩]⟩
def f_CMP_SLIST_CHIP : RF := ⟨r_CMP_SLIST, 0, 16⟩
def f_CMP_SLIST_SLICE : RF := ⟨r_CMP_SLIST, 16, 8⟩
def f_CMP_SLIST_VALID : RF := ⟨r_CMP_SLIST, 24, 1⟩
def f_CMP_SLIST_REMOTE : RF := ⟨r_CMP_SLIST, 25, 1⟩

/-- CMP_PLACE_0..511, block CMP offset 0x80000. Placement ranges; stride 0x8. -/
def r_CMP_PLACE : Reg :=
  ⟨40, 0x280000, true, 8, 512, false, 0x0, [],
    [⟨0, 28, .ro, 0, 268435455⟩, ⟨32, 28, .ro, 0, 268435455⟩, ⟨60, 1, .ro, 0, 1⟩, ⟨63, 1, .ro, 0, 1⟩]⟩
def f_CMP_PLACE_BASE : RF := ⟨r_CMP_PLACE, 0, 28⟩
def f_CMP_PLACE_LAST : RF := ⟨r_CMP_PLACE, 32, 28⟩
def f_CMP_PLACE_HOT : RF := ⟨r_CMP_PLACE, 60, 1⟩
def f_CMP_PLACE_VALID : RF := ⟨r_CMP_PLACE, 63, 1⟩

/-- SCH_CFG, block SCH offset 0x0. Default slice. -/
def r_SCH_CFG : Reg :=
  ⟨41, 0x300000, false, 4, 1, false, 0x7D0, [],
    [⟨0, 17, .rw, 100, 100000⟩]⟩
def f_SCH_CFG_SLICE_DEF_US : RF := ⟨r_SCH_CFG, 0, 17⟩

/-- SCH_NP_MAX, block SCH offset 0x4. Non-preemptible report limit. -/
def r_SCH_NP_MAX : Reg :=
  ⟨42, 0x300004, false, 4, 1, false, 0x1F4, [],
    [⟨0, 20, .rw, 1, 1048575⟩]⟩
def f_SCH_NP_MAX_US : RF := ⟨r_SCH_NP_MAX, 0, 20⟩

/-- SCH_STATUS, block SCH offset 0x8. Occupancy. -/
def r_SCH_STATUS : Reg :=
  ⟨43, 0x300008, false, 4, 1, false, 0x0, [],
    [⟨0, 7, .ro, 0, 127⟩, ⟨8, 15, .ro, 0, 32767⟩, ⟨23, 1, .ro, 0, 1⟩, ⟨24, 1, .ro, 0, 1⟩, ⟨25, 1, .ro, 0, 1⟩]⟩
def f_SCH_STATUS_RESIDENT : RF := ⟨r_SCH_STATUS, 0, 7⟩
def f_SCH_STATUS_FENCE_USED : RF := ⟨r_SCH_STATUS, 8, 15⟩
def f_SCH_STATUS_FENCE_FULL : RF := ⟨r_SCH_STATUS, 23, 1⟩
def f_SCH_STATUS_OBJREF_FULL : RF := ⟨r_SCH_STATUS, 24, 1⟩
def f_SCH_STATUS_CMDBUF_FULL : RF := ⟨r_SCH_STATUS, 25, 1⟩

/-- SCH_CTX_DIR, block SCH offset 0x10. Context directory. -/
def r_SCH_CTX_DIR : Reg :=
  ⟨44, 0x300010, true, 8, 1, false, 0x0, [],
    [⟨0, 1, .rw, 0, 1⟩, ⟨12, 35, .rw, 0, 34359738367⟩]⟩
def f_SCH_CTX_DIR_ENABLE : RF := ⟨r_SCH_CTX_DIR, 0, 1⟩
def f_SCH_CTX_DIR_ADDR : RF := ⟨r_SCH_CTX_DIR, 12, 35⟩

/-- SCH_PREEMPTS, block SCH offset 0x18. Batches saved. -/
def r_SCH_PREEMPTS : Reg :=
  ⟨45, 0x300018, true, 8, 1, false, 0x0, [],
    [⟨0, 64, .ro, 0, 18446744073709551615⟩]⟩
def f_SCH_PREEMPTS_COUNT : RF := ⟨r_SCH_PREEMPTS, 0, 64⟩

/-- SCH_NP_OVERRUNS, block SCH offset 0x20. NP_OVERRUN records. -/
def r_SCH_NP_OVERRUNS : Reg :=
  ⟨46, 0x300020, true, 8, 1, false, 0x0, [],
    [⟨0, 64, .ro, 0, 18446744073709551615⟩]⟩
def f_SCH_NP_OVERRUNS_COUNT : RF := ⟨r_SCH_NP_OVERRUNS, 0, 64⟩

/-- SCH_SPILL_BYTES, block SCH offset 0x28. Bytes saved and restored. -/
def r_SCH_SPILL_BYTES : Reg :=
  ⟨47, 0x300028, true, 8, 1, false, 0x0, [],
    [⟨0, 64, .ro, 0, 18446744073709551615⟩]⟩
def f_SCH_SPILL_BYTES_COUNT : RF := ⟨r_SCH_SPILL_BYTES, 0, 64⟩

/-- SCH_SLOT_0..63, block SCH offset 0x100. Context slots; stride 0x8. -/
def r_SCH_SLOT : Reg :=
  ⟨48, 0x300100, true, 8, 64, false, 0x0, [],
    [⟨0, 20, .ro, 0, 1048575⟩, ⟨20, 3, .ro, 0, 7⟩, ⟨24, 8, .ro, 0, 255⟩, ⟨32, 8, .ro, 0, 255⟩, ⟨40, 2, .ro, 0, 3⟩, ⟨48, 8, .ro, 0, 255⟩]⟩
def f_SCH_SLOT_SPACE : RF := ⟨r_SCH_SLOT, 0, 20⟩
def f_SCH_SLOT_STATE : RF := ⟨r_SCH_SLOT, 20, 3⟩
def f_SCH_SLOT_INSTAR : RF := ⟨r_SCH_SLOT, 24, 8⟩
def f_SCH_SLOT_INSTANCE : RF := ⟨r_SCH_SLOT, 32, 8⟩
def f_SCH_SLOT_PRIO : RF := ⟨r_SCH_SLOT, 40, 2⟩
def f_SCH_SLOT_FRAMES_USED : RF := ⟨r_SCH_SLOT, 48, 8⟩

/-- SCH_IMG_0..31, block SCH offset 0x400. Holder per Imago; stride 0x4. -/
def r_SCH_IMG : Reg :=
  ⟨49, 0x300400, false, 4, 32, false, 0x0, [],
    [⟨0, 6, .ro, 0, 63⟩, ⟨6, 1, .ro, 0, 1⟩, ⟨8, 17, .ro, 0, 131071⟩]⟩
def f_SCH_IMG_HOLDER : RF := ⟨r_SCH_IMG, 0, 6⟩
def f_SCH_IMG_VALID : RF := ⟨r_SCH_IMG, 6, 1⟩
def f_SCH_IMG_SLICE_LEFT_US : RF := ⟨r_SCH_IMG, 8, 17⟩

/-- SCH_INST_0..31, block SCH offset 0x500. Instance shares; stride 0x8. -/
def r_SCH_INST : Reg :=
  ⟨50, 0x300500, true, 8, 32, false, 0x0, [],
    [⟨0, 16, .ro, 0, 65535⟩, ⟨32, 17, .ro, 0, 131071⟩, ⟨49, 7, .ro, 0, 127⟩]⟩
def f_SCH_INST_Q_BASE : RF := ⟨r_SCH_INST, 0, 16⟩
def f_SCH_INST_Q_COUNT : RF := ⟨r_SCH_INST, 32, 17⟩
def f_SCH_INST_SLOTS : RF := ⟨r_SCH_INST, 49, 7⟩

/-- SCH_ARG_0..3, block SCH offset 0x1000. Operation arguments; stride 0x8. -/
def r_SCH_ARG : Reg :=
  ⟨51, 0x301000, true, 8, 4, true, 0x0, [],
    [⟨0, 64, .rw, 0, 18446744073709551615⟩]⟩
def f_SCH_ARG_ARG : RF := ⟨r_SCH_ARG, 0, 64⟩

/-- SCH_CMD, block SCH offset 0x1020. Operation. -/
def r_SCH_CMD : Reg :=
  ⟨52, 0x301020, false, 4, 1, true, 0x0, [],
    [⟨0, 8, .wo, 0, 255⟩]⟩
def f_SCH_CMD_OP : RF := ⟨r_SCH_CMD, 0, 8⟩

/-- SCH_RESULT, block SCH offset 0x1024. Result. -/
def r_SCH_RESULT : Reg :=
  ⟨53, 0x301024, false, 4, 1, true, 0x0, [],
    [⟨0, 16, .ro, 0, 65535⟩, ⟨16, 1, .ro, 0, 1⟩]⟩
def f_SCH_RESULT_CODE : RF := ⟨r_SCH_RESULT, 0, 16⟩
def f_SCH_RESULT_BUSY : RF := ⟨r_SCH_RESULT, 16, 1⟩

/-- SCH_WINDOW, block SCH offset 0x1028. Window's shares. -/
def r_SCH_WINDOW : Reg :=
  ⟨54, 0x301028, false, 4, 1, true, 0x0, [],
    [⟨0, 17, .ro, 0, 131071⟩, ⟨17, 7, .ro, 0, 127⟩]⟩
def f_SCH_WINDOW_QUEUES : RF := ⟨r_SCH_WINDOW, 0, 17⟩
def f_SCH_WINDOW_SLOTS : RF := ⟨r_SCH_WINDOW, 17, 7⟩

/-- SCH_DB_0..65535, block SCH offset 0x80000. Doorbells; stride 0x8. -/
def r_SCH_DB : Reg :=
  ⟨55, 0x380000, false, 8, 65536, true, 0x0, [],
    [⟨0, 16, .wo, 0, 65535⟩]⟩
def f_SCH_DB_TAIL : RF := ⟨r_SCH_DB, 0, 16⟩

/-- EVT_EQ_BASE, block EVT offset 0x20. Event queue ring. -/
def r_EVT_EQ_BASE : Reg :=
  ⟨235, 0x1000020, true, 8, 1, true, 0x0, [],
    [⟨0, 1, .rw, 0, 1⟩, ⟨12, 35, .rw, 0, 34359738367⟩]⟩
def f_EVT_EQ_BASE_ENABLE : RF := ⟨r_EVT_EQ_BASE, 0, 1⟩
def f_EVT_EQ_BASE_ADDR : RF := ⟨r_EVT_EQ_BASE, 12, 35⟩

/-- EVT_EQ_SIZE, block EVT offset 0x28. Ring size. -/
def r_EVT_EQ_SIZE : Reg :=
  ⟨236, 0x1000028, false, 4, 1, true, 0x6, [],
    [⟨0, 5, .rw, 6, 16⟩]⟩
def f_EVT_EQ_SIZE_LOG2 : RF := ⟨r_EVT_EQ_SIZE, 0, 5⟩

/-- EVT_EQ_HEAD, block EVT offset 0x2C. Driver's next entry. -/
def r_EVT_EQ_HEAD : Reg :=
  ⟨237, 0x100002C, false, 4, 1, true, 0x0, [],
    [⟨0, 16, .rw, 0, 65535⟩]⟩
def f_EVT_EQ_HEAD_INDEX : RF := ⟨r_EVT_EQ_HEAD, 0, 16⟩

/-- EVT_EQ_TAIL, block EVT offset 0x30. Device's next entry. -/
def r_EVT_EQ_TAIL : Reg :=
  ⟨238, 0x1000030, false, 4, 1, true, 0x0, [],
    [⟨0, 16, .ro, 0, 65535⟩]⟩
def f_EVT_EQ_TAIL_INDEX : RF := ⟨r_EVT_EQ_TAIL, 0, 16⟩

/-- EVT_EQ_STATUS, block EVT offset 0x34. Queue state. -/
def r_EVT_EQ_STATUS : Reg :=
  ⟨239, 0x1000034, false, 4, 1, true, 0x0, [],
    [⟨0, 1, .ro, 0, 1⟩, ⟨16, 11, .ro, 0, 2047⟩]⟩
def f_EVT_EQ_STATUS_FULL : RF := ⟨r_EVT_EQ_STATUS, 0, 1⟩
def f_EVT_EQ_STATUS_PENDING : RF := ⟨r_EVT_EQ_STATUS, 16, 11⟩

/-- EVT_EQ_LOST, block EVT offset 0x38. Records dropped. -/
def r_EVT_EQ_LOST : Reg :=
  ⟨240, 0x1000038, true, 8, 1, true, 0x0, [],
    [⟨0, 64, .ro, 0, 18446744073709551615⟩]⟩
def f_EVT_EQ_LOST_COUNT : RF := ⟨r_EVT_EQ_LOST, 0, 64⟩

/-- EVT_IRQ_CFG, block EVT offset 0x40. Interrupt vectors. -/
def r_EVT_IRQ_CFG : Reg :=
  ⟨241, 0x1000040, false, 4, 1, true, 0x10000, [],
    [⟨0, 8, .rw, 0, 255⟩, ⟨8, 1, .rw, 0, 1⟩, ⟨16, 8, .rw, 0, 255⟩, ⟨24, 1, .rw, 0, 1⟩]⟩
def f_EVT_IRQ_CFG_FQ_VEC : RF := ⟨r_EVT_IRQ_CFG, 0, 8⟩
def f_EVT_IRQ_CFG_FQ_EN : RF := ⟨r_EVT_IRQ_CFG, 8, 1⟩
def f_EVT_IRQ_CFG_EQ_VEC : RF := ⟨r_EVT_IRQ_CFG, 16, 8⟩
def f_EVT_IRQ_CFG_EQ_EN : RF := ⟨r_EVT_IRQ_CFG, 24, 1⟩

/-- EVT_IRQ_MOD, block EVT offset 0x44. Interrupt moderation. -/
def r_EVT_IRQ_MOD : Reg :=
  ⟨242, 0x1000044, false, 4, 1, true, 0xA, [],
    [⟨0, 16, .rw, 0, 65535⟩]⟩
def f_EVT_IRQ_MOD_US : RF := ⟨r_EVT_IRQ_MOD, 0, 16⟩

/-- LNK_CFG, block LNK offset 0x0. Discovery and routing. -/
def r_LNK_CFG : Reg :=
  ⟨134, 0x900000, false, 4, 1, false, 0x110832, [],
    [⟨0, 8, .rw, 10, 255⟩, ⟨8, 4, .rw, 2, 15⟩, ⟨16, 4, .rw, 1, 15⟩, ⟨20, 1, .rw, 0, 1⟩]⟩
def f_LNK_CFG_HELLO_US : RF := ⟨r_LNK_CFG, 0, 8⟩
def f_LNK_CFG_AGE : RF := ⟨r_LNK_CFG, 8, 4⟩
def f_LNK_CFG_ADVERT_MS : RF := ⟨r_LNK_CFG, 16, 4⟩
def f_LNK_CFG_ADAPT_EN : RF := ⟨r_LNK_CFG, 20, 1⟩

/-- LNK_COLL_TMO, block LNK offset 0x4. Collective timeout. -/
def r_LNK_COLL_TMO : Reg :=
  ⟨135, 0x900004, false, 4, 1, false, 0x3E8, [],
    [⟨0, 16, .rw, 1, 65535⟩]⟩
def f_LNK_COLL_TMO_MS : RF := ⟨r_LNK_COLL_TMO, 0, 16⟩

/-- LNK_STATUS, block LNK offset 0x8. Ports, peers, time. -/
def r_LNK_STATUS : Reg :=
  ⟨136, 0x900008, false, 4, 1, false, 0x0, [],
    [⟨0, 6, .ro, 0, 63⟩, ⟨8, 13, .ro, 0, 8191⟩, ⟨21, 1, .ro, 0, 1⟩, ⟨22, 1, .ro, 0, 1⟩]⟩
def f_LNK_STATUS_PORTS_UP : RF := ⟨r_LNK_STATUS, 0, 6⟩
def f_LNK_STATUS_PEERS : RF := ⟨r_LNK_STATUS, 8, 13⟩
def f_LNK_STATUS_TIME_SYNC : RF := ⟨r_LNK_STATUS, 21, 1⟩
def f_LNK_STATUS_TIME_MASTER : RF := ⟨r_LNK_STATUS, 22, 1⟩

/-- LNK_TIME_CFG, block LNK offset 0xC. Time master. -/
def r_LNK_TIME_CFG : Reg :=
  ⟨137, 0x90000C, false, 4, 1, false, 0x0, [],
    [⟨0, 16, .rw, 0, 65535⟩, ⟨16, 1, .rw, 0, 1⟩]⟩
def f_LNK_TIME_CFG_MASTER : RF := ⟨r_LNK_TIME_CFG, 0, 16⟩
def f_LNK_TIME_CFG_MASTER_SET : RF := ⟨r_LNK_TIME_CFG, 16, 1⟩

/-- LNK_DISCARDS, block LNK offset 0x10. Messages refused or discarded. -/
def r_LNK_DISCARDS : Reg :=
  ⟨138, 0x900010, true, 8, 1, false, 0x0, [],
    [⟨0, 64, .ro, 0, 18446744073709551615⟩]⟩
def f_LNK_DISCARDS_COUNT : RF := ⟨r_LNK_DISCARDS, 0, 64⟩

/-- LNK_PORT_CTRL_0..31, block LNK offset 0x1000. Port control; stride 0x40. -/
def r_LNK_PORT_CTRL : Reg :=
  ⟨139, 0x901000, false, 64, 32, false, 0x1, [],
    [⟨0, 1, .rw, 0, 1⟩, ⟨1, 1, .rw, 0, 1⟩, ⟨8, 8, .rw, 0, 255⟩]⟩
def f_LNK_PORT_CTRL_ENABLE : RF := ⟨r_LNK_PORT_CTRL, 0, 1⟩
def f_LNK_PORT_CTRL_ENC_EN : RF := ⟨r_LNK_PORT_CTRL, 1, 1⟩
def f_LNK_PORT_CTRL_KEY_SLOT : RF := ⟨r_LNK_PORT_CTRL, 8, 8⟩

/-- LNK_PORT_STAT_0..31, block LNK offset 0x1004. Port state; stride 0x40. -/
def r_LNK_PORT_STAT : Reg :=
  ⟨140, 0x901004, false, 64, 32, false, 0x0, [],
    [⟨0, 3, .ro, 0, 7⟩, ⟨3, 1, .ro, 0, 1⟩, ⟨4, 1, .ro, 0, 1⟩, ⟨5, 1, .ro, 0, 1⟩, ⟨8, 3, .ro, 0, 7⟩, ⟨16, 8, .ro, 0, 255⟩]⟩
def f_LNK_PORT_STAT_STATE : RF := ⟨r_LNK_PORT_STAT, 0, 3⟩
def f_LNK_PORT_STAT_ENC : RF := ⟨r_LNK_PORT_STAT, 3, 1⟩
def f_LNK_PORT_STAT_LONG : RF := ⟨r_LNK_PORT_STAT, 4, 1⟩
def f_LNK_PORT_STAT_LASER_LOW : RF := ⟨r_LNK_PORT_STAT, 5, 1⟩
def f_LNK_PORT_STAT_CAUSE : RF := ⟨r_LNK_PORT_STAT, 8, 3⟩
def f_LNK_PORT_STAT_DELAY_NS : RF := ⟨r_LNK_PORT_STAT, 16, 8⟩

/-- LNK_PORT_PEER_0..31, block LNK offset 0x1008. Neighbour; stride 0x40. -/
def r_LNK_PORT_PEER : Reg :=
  ⟨141, 0x901008, false, 64, 32, false, 0x0, [],
    [⟨0, 16, .ro, 0, 65535⟩, ⟨16, 5, .ro, 0, 31⟩, ⟨31, 1, .ro, 0, 1⟩]⟩
def f_LNK_PORT_PEER_CHIP : RF := ⟨r_LNK_PORT_PEER, 0, 16⟩
def f_LNK_PORT_PEER_PORT : RF := ⟨r_LNK_PORT_PEER, 16, 5⟩
def f_LNK_PORT_PEER_VALID : RF := ⟨r_LNK_PORT_PEER, 31, 1⟩

/-- LNK_PORT_LOST_0..31, block LNK offset 0x100C. Messages discarded at DOWN; stride 0x40. -/
def r_LNK_PORT_LOST : Reg :=
  ⟨142, 0x90100C, false, 64, 32, false, 0x0, [],
    [⟨0, 32, .ro, 0, 4294967295⟩]⟩
def f_LNK_PORT_LOST_COUNT : RF := ⟨r_LNK_PORT_LOST, 0, 32⟩

/-- LNK_PORT_FEC_0..31, block LNK offset 0x1010. Corrected codewords; stride 0x40. -/
def r_LNK_PORT_FEC : Reg :=
  ⟨143, 0x901010, true, 64, 32, false, 0x0, [],
    [⟨0, 64, .ro, 0, 18446744073709551615⟩]⟩
def f_LNK_PORT_FEC_COUNT : RF := ⟨r_LNK_PORT_FEC, 0, 64⟩

/-- LNK_PORT_UNCORR_0..31, block LNK offset 0x1018. Uncorrectable codewords; stride 0x40. -/
def r_LNK_PORT_UNCORR : Reg :=
  ⟨144, 0x901018, true, 64, 32, false, 0x0, [],
    [⟨0, 64, .ro, 0, 18446744073709551615⟩]⟩
def f_LNK_PORT_UNCORR_COUNT : RF := ⟨r_LNK_PORT_UNCORR, 0, 64⟩

/-- LNK_PORT_RETRY_0..31, block LNK offset 0x1020. Flits resent; stride 0x40. -/
def r_LNK_PORT_RETRY : Reg :=
  ⟨145, 0x901020, true, 64, 32, false, 0x0, [],
    [⟨0, 64, .ro, 0, 18446744073709551615⟩]⟩
def f_LNK_PORT_RETRY_COUNT : RF := ⟨r_LNK_PORT_RETRY, 0, 64⟩

/-- LNK_PORT_TX_0..31, block LNK offset 0x1028. Flits sent; stride 0x40. -/
def r_LNK_PORT_TX : Reg :=
  ⟨146, 0x901028, true, 64, 32, false, 0x0, [],
    [⟨0, 64, .ro, 0, 18446744073709551615⟩]⟩
def f_LNK_PORT_TX_COUNT : RF := ⟨r_LNK_PORT_TX, 0, 64⟩

/-- LNK_RT_0..65535, block LNK offset 0x40000. Route table; stride 0x4. -/
def r_LNK_RT : Reg :=
  ⟨147, 0x940000, false, 4, 65536, false, 0x0, [],
    [⟨0, 5, .rw, 0, 31⟩, ⟨5, 5, .rw, 0, 31⟩, ⟨10, 5, .rw, 0, 31⟩, ⟨15, 5, .rw, 0, 31⟩, ⟨20, 2, .rw, 0, 3⟩, ⟨22, 1, .rw, 0, 1⟩, ⟨23, 1, .ro, 0, 1⟩, ⟨24, 1, .ro, 0, 1⟩]⟩
def f_LNK_RT_PORT0 : RF := ⟨r_LNK_RT, 0, 5⟩
def f_LNK_RT_PORT1 : RF := ⟨r_LNK_RT, 5, 5⟩
def f_LNK_RT_PORT2 : RF := ⟨r_LNK_RT, 10, 5⟩
def f_LNK_RT_PORT3 : RF := ⟨r_LNK_RT, 15, 5⟩
def f_LNK_RT_COUNT : RF := ⟨r_LNK_RT, 20, 2⟩
def f_LNK_RT_VALID : RF := ⟨r_LNK_RT, 22, 1⟩
def f_LNK_RT_DIRECT : RF := ⟨r_LNK_RT, 23, 1⟩
def f_LNK_RT_AUTO : RF := ⟨r_LNK_RT, 24, 1⟩

/-- LNK_PEER_0..4095, block LNK offset 0x80000. Peer table; stride 0x8. -/
def r_LNK_PEER : Reg :=
  ⟨148, 0x980000, true, 8, 4096, false, 0x0, [],
    [⟨0, 16, .ro, 0, 65535⟩, ⟨16, 3, .ro, 0, 7⟩, ⟨19, 3, .ro, 0, 7⟩, ⟨32, 32, .ro, 0, 4294967295⟩]⟩
def f_LNK_PEER_CHIP : RF := ⟨r_LNK_PEER, 0, 16⟩
def f_LNK_PEER_STATE : RF := ⟨r_LNK_PEER, 16, 3⟩
def f_LNK_PEER_HOPS : RF := ⟨r_LNK_PEER, 19, 3⟩
def f_LNK_PEER_BOOT : RF := ⟨r_LNK_PEER, 32, 32⟩

/-- SILK_X_STATUS, block SILK offset 0x40000. Remote waiters and imports. -/
def r_SILK_X_STATUS : Reg :=
  ⟨154, 0xA40000, false, 4, 1, false, 0x0, [],
    [⟨0, 15, .ro, 0, 32767⟩, ⟨16, 9, .ro, 0, 511⟩]⟩
def f_SILK_X_STATUS_RWAIT : RF := ⟨r_SILK_X_STATUS, 0, 15⟩
def f_SILK_X_STATUS_IMPORTS : RF := ⟨r_SILK_X_STATUS, 16, 9⟩

/-- SILK_X_OPS, block SILK offset 0x40008. Cross-chip operations performed here. -/
def r_SILK_X_OPS : Reg :=
  ⟨155, 0xA40008, true, 8, 1, false, 0x0, [],
    [⟨0, 64, .ro, 0, 18446744073709551615⟩]⟩
def f_SILK_X_OPS_COUNT : RF := ⟨r_SILK_X_OPS, 0, 64⟩

/-- SILK_X_LATE, block SILK offset 0x40010. Cross-chip bound misses. -/
def r_SILK_X_LATE : Reg :=
  ⟨156, 0xA40010, true, 8, 1, false, 0x0, [],
    [⟨0, 64, .ro, 0, 18446744073709551615⟩]⟩
def f_SILK_X_LATE_COUNT : RF := ⟨r_SILK_X_LATE, 0, 64⟩

/-- SILK_IMPORT_0..255, block SILK offset 0x40100. Import windows; stride 0x8. -/
def r_SILK_IMPORT : Reg :=
  ⟨157, 0xA40100, true, 8, 256, false, 0x0, [],
    [⟨0, 16, .rw, 0, 65535⟩, ⟨16, 5, .rw, 0, 31⟩, ⟨24, 5, .rw, 0, 31⟩, ⟨32, 14, .rw, 0, 16383⟩, ⟨46, 15, .rw, 1, 16384⟩, ⟨63, 1, .rw, 0, 1⟩]⟩
def f_SILK_IMPORT_PEER_CHIP : RF := ⟨r_SILK_IMPORT, 0, 16⟩
def f_SILK_IMPORT_PEER_INST : RF := ⟨r_SILK_IMPORT, 16, 5⟩
def f_SILK_IMPORT_LOCAL_INST : RF := ⟨r_SILK_IMPORT, 24, 5⟩
def f_SILK_IMPORT_BASE : RF := ⟨r_SILK_IMPORT, 32, 14⟩
def f_SILK_IMPORT_SIZE : RF := ⟨r_SILK_IMPORT, 46, 15⟩
def f_SILK_IMPORT_VALID : RF := ⟨r_SILK_IMPORT, 63, 1⟩

/-- SILK_CUST_ARG, block SILK offset 0x41000. Custody operation. -/
def r_SILK_CUST_ARG : Reg :=
  ⟨158, 0xA41000, true, 8, 1, false, 0x0, [],
    [⟨0, 14, .rw, 0, 16383⟩, ⟨16, 16, .rw, 0, 65535⟩, ⟨32, 14, .rw, 0, 16383⟩]⟩
def f_SILK_CUST_ARG_COUNTER : RF := ⟨r_SILK_CUST_ARG, 0, 14⟩
def f_SILK_CUST_ARG_HOME : RF := ⟨r_SILK_CUST_ARG, 16, 16⟩
def f_SILK_CUST_ARG_EPOCH : RF := ⟨r_SILK_CUST_ARG, 32, 14⟩

/-- SILK_CUST_PEER, block SILK offset 0x41008. Offeree. -/
def r_SILK_CUST_PEER : Reg :=
  ⟨159, 0xA41008, false, 4, 1, false, 0x0, [],
    [⟨0, 16, .rw, 0, 65535⟩]⟩
def f_SILK_CUST_PEER_PEER : RF := ⟨r_SILK_CUST_PEER, 0, 16⟩

/-- SILK_CUST_CMD, block SILK offset 0x4100C. Start. -/
def r_SILK_CUST_CMD : Reg :=
  ⟨160, 0xA4100C, false, 4, 1, false, 0x0, [],
    [⟨0, 4, .wo, 0, 15⟩]⟩
def f_SILK_CUST_CMD_OP : RF := ⟨r_SILK_CUST_CMD, 0, 4⟩

/-- SILK_CUST_RESULT, block SILK offset 0x41010. Result. -/
def r_SILK_CUST_RESULT : Reg :=
  ⟨161, 0xA41010, false, 4, 1, false, 0x0, [],
    [⟨0, 8, .ro, 0, 255⟩, ⟨16, 1, .ro, 0, 1⟩]⟩
def f_SILK_CUST_RESULT_CODE : RF := ⟨r_SILK_CUST_RESULT, 0, 8⟩
def f_SILK_CUST_RESULT_BUSY : RF := ⟨r_SILK_CUST_RESULT, 16, 1⟩

/-- SILK_CUST_WORD, block SILK offset 0x41018. Word returned. -/
def r_SILK_CUST_WORD : Reg :=
  ⟨162, 0xA41018, true, 8, 1, false, 0x0, [],
    [⟨0, 64, .ro, 0, 18446744073709551615⟩]⟩
def f_SILK_CUST_WORD_WORD : RF := ⟨r_SILK_CUST_WORD, 0, 64⟩

/-- MBX_OUT_DATA_0..15, block MBX offset 0x0. Message to send; stride 0x4. -/
def r_MBX_OUT_DATA : Reg :=
  ⟨16, 0x100000, false, 4, 16, true, 0x0, [],
    [⟨0, 32, .rw, 0, 4294967295⟩]⟩
def f_MBX_OUT_DATA_WORD : RF := ⟨r_MBX_OUT_DATA, 0, 32⟩

/-- MBX_IN_DATA_0..15, block MBX offset 0x40. Message received; stride 0x4. -/
def r_MBX_IN_DATA : Reg :=
  ⟨17, 0x100040, false, 4, 16, true, 0x0, [],
    [⟨0, 32, .ro, 0, 4294967295⟩]⟩
def f_MBX_IN_DATA_WORD : RF := ⟨r_MBX_IN_DATA, 0, 32⟩

/-- MBX_CTRL, block MBX offset 0x80. Send, receive, interrupt. -/
def r_MBX_CTRL : Reg :=
  ⟨18, 0x100080, false, 4, 1, true, 0x0, [],
    [⟨0, 1, .w1s, 0, 1⟩, ⟨1, 1, .w1c, 0, 1⟩, ⟨2, 1, .rw, 0, 1⟩, ⟨3, 1, .w1c, 0, 1⟩, ⟨8, 8, .rw, 0, 255⟩]⟩
def f_MBX_CTRL_SEND : RF := ⟨r_MBX_CTRL, 0, 1⟩
def f_MBX_CTRL_IN_VALID : RF := ⟨r_MBX_CTRL, 1, 1⟩
def f_MBX_CTRL_IRQ_EN : RF := ⟨r_MBX_CTRL, 2, 1⟩
def f_MBX_CTRL_REFUSED : RF := ⟨r_MBX_CTRL, 3, 1⟩
def f_MBX_CTRL_VECTOR : RF := ⟨r_MBX_CTRL, 8, 8⟩

/-- MBX_PROXY_ADDR, block MBX offset 0x1000. Proxy target. -/
def r_MBX_PROXY_ADDR : Reg :=
  ⟨19, 0x101000, false, 4, 1, false, 0x0, [],
    [⟨0, 26, .rw, 0, 67108863⟩, ⟨26, 5, .rw, 0, 31⟩]⟩
def f_MBX_PROXY_ADDR_OFFSET : RF := ⟨r_MBX_PROXY_ADDR, 0, 26⟩
def f_MBX_PROXY_ADDR_INSTANCE : RF := ⟨r_MBX_PROXY_ADDR, 26, 5⟩

/-- MBX_PROXY_DATA, block MBX offset 0x1008. Proxy access. -/
def r_MBX_PROXY_DATA : Reg :=
  ⟨20, 0x101008, true, 8, 1, false, 0x0, [],
    [⟨0, 64, .rw, 0, 18446744073709551615⟩]⟩
def f_MBX_PROXY_DATA_DATA : RF := ⟨r_MBX_PROXY_DATA, 0, 64⟩

/-- MBX_INST_PEND, block MBX offset 0x1010. Instances with SEND set toward the manager. -/
def r_MBX_INST_PEND : Reg :=
  ⟨21, 0x101010, false, 4, 1, false, 0x0, [],
    [⟨0, 32, .ro, 0, 4294967295⟩]⟩
def f_MBX_INST_PEND_MASK : RF := ⟨r_MBX_INST_PEND, 0, 32⟩

/-- MBX_INST_BUSY, block MBX offset 0x1014. Instances whose IN_VALID is 1. -/
def r_MBX_INST_BUSY : Reg :=
  ⟨22, 0x101014, false, 4, 1, false, 0x0, [],
    [⟨0, 32, .ro, 0, 4294967295⟩]⟩
def f_MBX_INST_BUSY_MASK : RF := ⟨r_MBX_INST_BUSY, 0, 32⟩

/-- SEC_STATUS, block SEC offset 0x0. Secure state. -/
def r_SEC_STATUS : Reg :=
  ⟨215, 0xE00000, false, 4, 1, false, 0x0, [],
    [⟨0, 1, .ro, 0, 1⟩, ⟨1, 1, .ro, 0, 1⟩, ⟨2, 1, .ro, 0, 1⟩, ⟨8, 9, .ro, 0, 511⟩, ⟨24, 4, .ro, 0, 15⟩]⟩
def f_SEC_STATUS_ROOT_OK : RF := ⟨r_SEC_STATUS, 0, 1⟩
def f_SEC_STATUS_FW_AUTH : RF := ⟨r_SEC_STATUS, 1, 1⟩
def f_SEC_STATUS_DEBUG_LOCKED : RF := ⟨r_SEC_STATUS, 2, 1⟩
def f_SEC_STATUS_KEYS_BAD : RF := ⟨r_SEC_STATUS, 8, 9⟩
def f_SEC_STATUS_SECURE_INST : RF := ⟨r_SEC_STATUS, 24, 4⟩

/-- SEC_FW_DIGEST_0..5, block SEC offset 0x8. Firmware digest; stride 0x8. -/
def r_SEC_FW_DIGEST : Reg :=
  ⟨216, 0xE00008, true, 8, 6, false, 0x0, [],
    [⟨0, 64, .ro, 0, 18446744073709551615⟩]⟩
def f_SEC_FW_DIGEST_DIGEST : RF := ⟨r_SEC_FW_DIGEST, 0, 64⟩

/-- SEC_KEY_BAD, block SEC offset 0x40. Tag failures. -/
def r_SEC_KEY_BAD : Reg :=
  ⟨217, 0xE00040, true, 8, 1, false, 0x0, [],
    [⟨0, 64, .ro, 0, 18446744073709551615⟩]⟩
def f_SEC_KEY_BAD_COUNT : RF := ⟨r_SEC_KEY_BAD, 0, 64⟩

/-- SEC_WORLD_REFUSED, block SEC offset 0x48. Refusals of R453. -/
def r_SEC_WORLD_REFUSED : Reg :=
  ⟨218, 0xE00048, true, 8, 1, false, 0x0, [],
    [⟨0, 64, .ro, 0, 18446744073709551615⟩]⟩
def f_SEC_WORLD_REFUSED_COUNT : RF := ⟨r_SEC_WORLD_REFUSED, 0, 64⟩

/-- SEC_REGION_BASE_0..63, block SEC offset 0x100. Region start; stride 0x10. -/
def r_SEC_REGION_BASE : Reg :=
  ⟨219, 0xE00100, true, 16, 64, false, 0x0, [],
    [⟨0, 1, .rws, 0, 1⟩, ⟨1, 1, .rws, 0, 1⟩, ⟨12, 36, .rws, 0, 68719476735⟩]⟩
def f_SEC_REGION_BASE_VALID : RF := ⟨r_SEC_REGION_BASE, 0, 1⟩
def f_SEC_REGION_BASE_WORLD : RF := ⟨r_SEC_REGION_BASE, 1, 1⟩
def f_SEC_REGION_BASE_ADDR : RF := ⟨r_SEC_REGION_BASE, 12, 36⟩

/-- SEC_REGION_LIMIT_0..63, block SEC offset 0x108. Region end; stride 0x10. -/
def r_SEC_REGION_LIMIT : Reg :=
  ⟨220, 0xE00108, true, 16, 64, false, 0x0, [],
    [⟨12, 36, .rws, 0, 68719476735⟩]⟩
def f_SEC_REGION_LIMIT_ADDR : RF := ⟨r_SEC_REGION_LIMIT, 12, 36⟩

/-- SEC_SLICE_WORLD_0..7, block SEC offset 0x500. Secure slices; stride 0x4. -/
def r_SEC_SLICE_WORLD : Reg :=
  ⟨221, 0xE00500, false, 4, 8, false, 0x0, [],
    [⟨0, 32, .ro, 0, 4294967295⟩]⟩
def f_SEC_SLICE_WORLD_SECURE : RF := ⟨r_SEC_SLICE_WORLD, 0, 32⟩

/-- SEC_INST_0..31, block SEC offset 0x540. Instance security; stride 0x4. -/
def r_SEC_INST : Reg :=
  ⟨222, 0xE00540, false, 4, 32, false, 0x0, [],
    [⟨0, 8, .ro, 0, 255⟩, ⟨8, 9, .ro, 0, 511⟩, ⟨24, 1, .ro, 0, 1⟩, ⟨25, 1, .ro, 0, 1⟩, ⟨26, 1, .ro, 0, 1⟩, ⟨27, 1, .ro, 0, 1⟩]⟩
def f_SEC_INST_KEY_BASE : RF := ⟨r_SEC_INST, 0, 8⟩
def f_SEC_INST_KEY_COUNT : RF := ⟨r_SEC_INST, 8, 9⟩
def f_SEC_INST_WORLD : RF := ⟨r_SEC_INST, 24, 1⟩
def f_SEC_INST_EXISTS : RF := ⟨r_SEC_INST, 25, 1⟩
def f_SEC_INST_RESETTING : RF := ⟨r_SEC_INST, 26, 1⟩
def f_SEC_INST_MEM_XTS : RF := ⟨r_SEC_INST, 27, 1⟩

/-- SEC_KEY_ATTR_0..255, block SEC offset 0x800. Slot attributes; stride 0x4. -/
def r_SEC_KEY_ATTR : Reg :=
  ⟨223, 0xE00800, false, 4, 256, false, 0x0, [],
    [⟨0, 32, .ro, 0, 4294967295⟩]⟩
def f_SEC_KEY_ATTR_ATTR : RF := ⟨r_SEC_KEY_ATTR, 0, 32⟩

/-- SEC_CVK_0..15, block SEC offset 0xC00. Verification keys; stride 0x8. -/
def r_SEC_CVK : Reg :=
  ⟨224, 0xE00C00, true, 8, 16, false, 0x0, [],
    [⟨0, 1, .ro, 0, 1⟩, ⟨1, 1, .ro, 0, 1⟩, ⟨32, 32, .ro, 0, 4294967295⟩]⟩
def f_SEC_CVK_VALID : RF := ⟨r_SEC_CVK, 0, 1⟩
def f_SEC_CVK_REVOKED : RF := ⟨r_SEC_CVK, 1, 1⟩
def f_SEC_CVK_DIGEST : RF := ⟨r_SEC_CVK, 32, 32⟩

/-- RTC_TIME, block RTC offset 0x0. Calendar time. -/
def r_RTC_TIME : Reg :=
  ⟨225, 0xF00000, true, 8, 1, false, 0x0, [],
    [⟨0, 15, .ro, 0, 32767⟩, ⟨16, 48, .ro, 0, 281474976710655⟩]⟩
def f_RTC_TIME_FRAC : RF := ⟨r_RTC_TIME, 0, 15⟩
def f_RTC_TIME_SECONDS : RF := ⟨r_RTC_TIME, 16, 48⟩

/-- RTC_STATUS, block RTC offset 0x8. Clock state. -/
def r_RTC_STATUS : Reg :=
  ⟨226, 0xF00008, false, 4, 1, false, 0x0, [],
    [⟨0, 1, .ro, 0, 1⟩, ⟨1, 1, .ro, 0, 1⟩, ⟨2, 1, .w1c, 0, 1⟩, ⟨3, 1, .w1c, 0, 1⟩, ⟨4, 1, .ro, 0, 1⟩]⟩
def f_RTC_STATUS_VALID : RF := ⟨r_RTC_STATUS, 0, 1⟩
def f_RTC_STATUS_BATT_LOW : RF := ⟨r_RTC_STATUS, 1, 1⟩
def f_RTC_STATUS_VBAT_LOST : RF := ⟨r_RTC_STATUS, 2, 1⟩
def f_RTC_STATUS_ADJ_REFUSED : RF := ⟨r_RTC_STATUS, 3, 1⟩
def f_RTC_STATUS_SLEWING : RF := ⟨r_RTC_STATUS, 4, 1⟩

/-- RTC_ADJ, block RTC offset 0xC. Slew request. -/
def r_RTC_ADJ : Reg :=
  ⟨227, 0xF0000C, false, 4, 1, false, 0x0, [],
    [⟨0, 16, .wo, 0, 65535⟩]⟩
def f_RTC_ADJ_MS : RF := ⟨r_RTC_ADJ, 0, 16⟩

/-- RTC_SET, block RTC offset 0x10. Initial setting. -/
def r_RTC_SET : Reg :=
  ⟨228, 0xF00010, true, 8, 1, false, 0x0, [],
    [⟨0, 48, .wo, 0, 281474976710655⟩]⟩
def f_RTC_SET_SECONDS : RF := ⟨r_RTC_SET, 0, 48⟩

/-- RTC_HOURS, block RTC offset 0x18. Hours in service. -/
def r_RTC_HOURS : Reg :=
  ⟨229, 0xF00018, false, 4, 1, false, 0x0, [],
    [⟨0, 32, .ro, 0, 4294967295⟩]⟩
def f_RTC_HOURS_HOURS : RF := ⟨r_RTC_HOURS, 0, 32⟩

/-- PWR_PKG_CAP, block PWR offset 0x0. Soft package cap. -/
def r_PWR_PKG_CAP : Reg :=
  ⟨163, 0xB00000, false, 4, 1, false, 0xC80, [],
    [⟨0, 12, .rw, 1000, 3200⟩]⟩
def f_PWR_PKG_CAP_WATTS : RF := ⟨r_PWR_PKG_CAP, 0, 12⟩

/-- PWR_STATUS, block PWR offset 0x4. Supply and power state. -/
def r_PWR_STATUS : Reg :=
  ⟨164, 0xB00004, false, 4, 1, false, 0x0, [],
    [⟨0, 2, .ro, 0, 3⟩, ⟨3, 1, .ro, 0, 1⟩, ⟨4, 1, .ro, 0, 1⟩, ⟨5, 1, .ro, 0, 1⟩, ⟨6, 1, .ro, 0, 1⟩, ⟨7, 1, .ro, 0, 1⟩]⟩
def f_PWR_STATUS_SUPPLY : RF := ⟨r_PWR_STATUS, 0, 2⟩
def f_PWR_STATUS_COOLANT_STOP : RF := ⟨r_PWR_STATUS, 3, 1⟩
def f_PWR_STATUS_ILIM_ACTIVE : RF := ⟨r_PWR_STATUS, 4, 1⟩
def f_PWR_STATUS_CAP_PENDING : RF := ⟨r_PWR_STATUS, 5, 1⟩
def f_PWR_STATUS_FLOW_OK : RF := ⟨r_PWR_STATUS, 6, 1⟩
def f_PWR_STATUS_RESUME_READY : RF := ⟨r_PWR_STATUS, 7, 1⟩

/-- PWR_CMD, block PWR offset 0x8. Resume and calibration. -/
def r_PWR_CMD : Reg :=
  ⟨165, 0xB00008, false, 4, 1, false, 0x0, [],
    [⟨0, 1, .wo, 0, 1⟩, ⟨1, 1, .wo, 0, 1⟩]⟩
def f_PWR_CMD_RESUME : RF := ⟨r_PWR_CMD, 0, 1⟩
def f_PWR_CMD_CAL_RESTART : RF := ⟨r_PWR_CMD, 1, 1⟩

/-- PWR_DIP_CFG, block PWR offset 0xC. Dip alert. -/
def r_PWR_DIP_CFG : Reg :=
  ⟨166, 0xB0000C, false, 4, 1, false, 0xE100010, [],
    [⟨0, 8, .rw, 1, 255⟩, ⟨16, 16, .rw, 1, 65535⟩]⟩
def f_PWR_DIP_CFG_THRESH : RF := ⟨r_PWR_DIP_CFG, 0, 8⟩
def f_PWR_DIP_CFG_WINDOW_S : RF := ⟨r_PWR_DIP_CFG, 16, 16⟩

/-- PWR_DIP_COUNT, block PWR offset 0x10. Dips. -/
def r_PWR_DIP_COUNT : Reg :=
  ⟨167, 0xB00010, true, 8, 1, false, 0x0, [],
    [⟨0, 64, .ro, 0, 18446744073709551615⟩]⟩
def f_PWR_DIP_COUNT_COUNT : RF := ⟨r_PWR_DIP_COUNT, 0, 64⟩

/-- PWR_DIP_LOG, block PWR offset 0x18. Last dip. -/
def r_PWR_DIP_LOG : Reg :=
  ⟨168, 0xB00018, true, 8, 1, false, 0x0, [],
    [⟨0, 20, .ro, 0, 1048575⟩, ⟨20, 12, .ro, 0, 4095⟩, ⟨32, 32, .ro, 0, 4294967295⟩]⟩
def f_PWR_DIP_LOG_DURATION_US : RF := ⟨r_PWR_DIP_LOG, 0, 20⟩
def f_PWR_DIP_LOG_MIN_MV : RF := ⟨r_PWR_DIP_LOG, 20, 12⟩
def f_PWR_DIP_LOG_SECONDS : RF := ⟨r_PWR_DIP_LOG, 32, 32⟩

/-- PWR_EVT, block PWR offset 0x20. Events. -/
def r_PWR_EVT : Reg :=
  ⟨169, 0xB00020, false, 4, 1, false, 0x0, [],
    [⟨0, 1, .w1c, 0, 1⟩, ⟨1, 1, .w1c, 0, 1⟩, ⟨2, 1, .w1c, 0, 1⟩, ⟨3, 1, .w1c, 0, 1⟩, ⟨4, 1, .w1c, 0, 1⟩, ⟨5, 1, .w1c, 0, 1⟩, ⟨6, 1, .w1c, 0, 1⟩, ⟨7, 1, .w1c, 0, 1⟩]⟩
def f_PWR_EVT_DIP_ALERT : RF := ⟨r_PWR_EVT, 0, 1⟩
def f_PWR_EVT_CAL_DONE : RF := ⟨r_PWR_EVT, 1, 1⟩
def f_PWR_EVT_REPLAN : RF := ⟨r_PWR_EVT, 2, 1⟩
def f_PWR_EVT_COOLANT_STOP : RF := ⟨r_PWR_EVT, 3, 1⟩
def f_PWR_EVT_FLOW_RESTORED : RF := ⟨r_PWR_EVT, 4, 1⟩
def f_PWR_EVT_THROTTLE : RF := ⟨r_PWR_EVT, 5, 1⟩
def f_PWR_EVT_EMERGENCY : RF := ⟨r_PWR_EVT, 6, 1⟩
def f_PWR_EVT_STACK_HOT : RF := ⟨r_PWR_EVT, 7, 1⟩

/-- PWR_IRQ_CFG, block PWR offset 0x24. Interrupt. -/
def r_PWR_IRQ_CFG : Reg :=
  ⟨170, 0xB00024, false, 4, 1, false, 0xFF0000, [],
    [⟨0, 8, .rw, 0, 255⟩, ⟨8, 1, .rw, 0, 1⟩, ⟨16, 8, .rw, 0, 255⟩]⟩
def f_PWR_IRQ_CFG_VECTOR : RF := ⟨r_PWR_IRQ_CFG, 0, 8⟩
def f_PWR_IRQ_CFG_EN : RF := ⟨r_PWR_IRQ_CFG, 8, 1⟩
def f_PWR_IRQ_CFG_MASK : RF := ⟨r_PWR_IRQ_CFG, 16, 8⟩

/-- PWR_ALERT_MASK, block PWR offset 0x28. PWR_ALERT_N conditions. -/
def r_PWR_ALERT_MASK : Reg :=
  ⟨171, 0xB00028, false, 4, 1, false, 0x9, [],
    [⟨0, 1, .rw, 0, 1⟩, ⟨1, 1, .rw, 0, 1⟩, ⟨2, 1, .rw, 0, 1⟩, ⟨3, 1, .rw, 0, 1⟩, ⟨4, 1, .rw, 0, 1⟩]⟩
def f_PWR_ALERT_MASK_DIP : RF := ⟨r_PWR_ALERT_MASK, 0, 1⟩
def f_PWR_ALERT_MASK_ILIM : RF := ⟨r_PWR_ALERT_MASK, 1, 1⟩
def f_PWR_ALERT_MASK_THROTTLE : RF := ⟨r_PWR_ALERT_MASK, 2, 1⟩
def f_PWR_ALERT_MASK_COOLANT : RF := ⟨r_PWR_ALERT_MASK, 3, 1⟩
def f_PWR_ALERT_MASK_DIP_ALERT : RF := ⟨r_PWR_ALERT_MASK, 4, 1⟩

/-- PWR_PKG_POWER, block PWR offset 0x2C. Measured and granted power. -/
def r_PWR_PKG_POWER : Reg :=
  ⟨172, 0xB0002C, false, 4, 1, false, 0x0, [],
    [⟨0, 12, .ro, 0, 4095⟩, ⟨16, 12, .ro, 0, 4095⟩]⟩
def f_PWR_PKG_POWER_AVG_W : RF := ⟨r_PWR_PKG_POWER, 0, 12⟩
def f_PWR_PKG_POWER_GRANT_W : RF := ⟨r_PWR_PKG_POWER, 16, 12⟩

/-- PWR_CAL, block PWR offset 0x30. Calibration state. -/
def r_PWR_CAL : Reg :=
  ⟨173, 0xB00030, false, 4, 1, false, 0x0, [],
    [⟨0, 4, .ro, 0, 15⟩, ⟨4, 1, .ro, 0, 1⟩, ⟨5, 1, .ro, 0, 1⟩, ⟨8, 8, .ro, 0, 255⟩, ⟨16, 16, .ro, 0, 65535⟩]⟩
def f_PWR_CAL_AGREE : RF := ⟨r_PWR_CAL, 0, 4⟩
def f_PWR_CAL_CAL_DONE : RF := ⟨r_PWR_CAL, 4, 1⟩
def f_PWR_CAL_FACTORY : RF := ⟨r_PWR_CAL, 5, 1⟩
def f_PWR_CAL_WINGS_OK : RF := ⟨r_PWR_CAL, 8, 8⟩
def f_PWR_CAL_SPREAD : RF := ⟨r_PWR_CAL, 16, 16⟩

/-- PWR_DOM_ILIM_0..35, block PWR offset 0x100. Current limit; stride 0x10. -/
def r_PWR_DOM_ILIM : Reg :=
  ⟨174, 0xB00100, false, 16, 36, false, 0xA0000, [],
    [⟨0, 12, .rw, 0, 4095⟩, ⟨16, 7, .rw, 1, 100⟩]⟩
def f_PWR_DOM_ILIM_AMPS : RF := ⟨r_PWR_DOM_ILIM, 0, 12⟩
def f_PWR_DOM_ILIM_WIN_US : RF := ⟨r_PWR_DOM_ILIM, 16, 7⟩

/-- PWR_DOM_STAT_0..35, block PWR offset 0x104. Domain state; stride 0x10. -/
def r_PWR_DOM_STAT : Reg :=
  ⟨175, 0xB00104, false, 16, 36, false, 0x0, [],
    [⟨0, 12, .ro, 0, 4095⟩, ⟨16, 12, .ro, 0, 4095⟩, ⟨28, 1, .ro, 0, 1⟩, ⟨29, 1, .ro, 0, 1⟩]⟩
def f_PWR_DOM_STAT_AMPS : RF := ⟨r_PWR_DOM_STAT, 0, 12⟩
def f_PWR_DOM_STAT_MV : RF := ⟨r_PWR_DOM_STAT, 16, 12⟩
def f_PWR_DOM_STAT_LIMITING : RF := ⟨r_PWR_DOM_STAT, 28, 1⟩
def f_PWR_DOM_STAT_RAISE_HOLD : RF := ⟨r_PWR_DOM_STAT, 29, 1⟩

/-- PWR_DOM_DROOP_0..35, block PWR offset 0x108. Droop events; stride 0x10. -/
def r_PWR_DOM_DROOP : Reg :=
  ⟨176, 0xB00108, true, 16, 36, false, 0x0, [],
    [⟨0, 64, .ro, 0, 18446744073709551615⟩]⟩
def f_PWR_DOM_DROOP_COUNT : RF := ⟨r_PWR_DOM_DROOP, 0, 64⟩

/-- PWR_CORE_FCAP_0..143, block PWR offset 0x1000. Soft frequency cap; stride 0x4. -/
def r_PWR_CORE_FCAP : Reg :=
  ⟨177, 0xB01000, false, 4, 144, false, 0xB8, [],
    [⟨0, 8, .rw, 64, 184⟩]⟩
def f_PWR_CORE_FCAP_STEPS : RF := ⟨r_PWR_CORE_FCAP, 0, 8⟩

/-- PWR_CORE_FREQ_0..143, block PWR offset 0x1400. Frequency and grant; stride 0x4. -/
def r_PWR_CORE_FREQ : Reg :=
  ⟨178, 0xB01400, false, 4, 144, false, 0x4040, [],
    [⟨0, 8, .ro, 0, 255⟩, ⟨8, 8, .ro, 0, 255⟩, ⟨16, 1, .ro, 0, 1⟩]⟩
def f_PWR_CORE_FREQ_STEPS : RF := ⟨r_PWR_CORE_FREQ, 0, 8⟩
def f_PWR_CORE_FREQ_GRANT : RF := ⟨r_PWR_CORE_FREQ, 8, 8⟩
def f_PWR_CORE_FREQ_DEFERRED : RF := ⟨r_PWR_CORE_FREQ, 16, 1⟩

/-- THM_CFG, block THM offset 0x0. Throttle level. -/
def r_THM_CFG : Reg :=
  ⟨179, 0xC00000, false, 4, 1, false, 0x25F, [],
    [⟨0, 8, .rw, 70, 95⟩, ⟨8, 4, .rw, 1, 8⟩]⟩
def f_THM_CFG_THROTTLE_C : RF := ⟨r_THM_CFG, 0, 8⟩
def f_THM_CFG_HYST : RF := ⟨r_THM_CFG, 8, 4⟩

/-- THM_DIAP_CFG, block THM offset 0x4. Diapause idle times. -/
def r_THM_DIAP_CFG : Reg :=
  ⟨180, 0xC00004, false, 4, 1, false, 0x1F40032, [],
    [⟨0, 16, .rw, 0, 65535⟩, ⟨16, 16, .rw, 0, 65535⟩]⟩
def f_THM_DIAP_CFG_CORE_IDLE_US : RF := ⟨r_THM_DIAP_CFG, 0, 16⟩
def f_THM_DIAP_CFG_WING_IDLE_US : RF := ⟨r_THM_DIAP_CFG, 16, 16⟩

/-- THM_STATUS, block THM offset 0x8. Temperatures and state. -/
def r_THM_STATUS : Reg :=
  ⟨181, 0xC00008, false, 4, 1, false, 0x0, [],
    [⟨0, 8, .ro, 0, 255⟩, ⟨8, 3, .ro, 0, 7⟩, ⟨12, 8, .ro, 0, 255⟩, ⟨20, 3, .ro, 0, 7⟩, ⟨23, 1, .ro, 0, 1⟩, ⟨24, 1, .ro, 0, 1⟩, ⟨25, 1, .ro, 0, 1⟩]⟩
def f_THM_STATUS_HOT_C : RF := ⟨r_THM_STATUS, 0, 8⟩
def f_THM_STATUS_HOT_WING : RF := ⟨r_THM_STATUS, 8, 3⟩
def f_THM_STATUS_HOT_STACK_C : RF := ⟨r_THM_STATUS, 12, 8⟩
def f_THM_STATUS_HOT_STACK : RF := ⟨r_THM_STATUS, 20, 3⟩
def f_THM_STATUS_THROTTLING : RF := ⟨r_THM_STATUS, 23, 1⟩
def f_THM_STATUS_EMERGENCY : RF := ⟨r_THM_STATUS, 24, 1⟩
def f_THM_STATUS_TRIP_PREV : RF := ⟨r_THM_STATUS, 25, 1⟩

/-- THM_CMD, block THM offset 0xC. Re-plan and wake. -/
def r_THM_CMD : Reg :=
  ⟨182, 0xC0000C, false, 4, 1, false, 0x0, [],
    [⟨0, 1, .wo, 0, 1⟩, ⟨1, 1, .wo, 0, 1⟩]⟩
def f_THM_CMD_REPLAN : RF := ⟨r_THM_CMD, 0, 1⟩
def f_THM_CMD_WAKE_ALL : RF := ⟨r_THM_CMD, 1, 1⟩

/-- THM_REPLAN_STAT, block THM offset 0x10. Re-plan state. -/
def r_THM_REPLAN_STAT : Reg :=
  ⟨183, 0xC00010, false, 4, 1, false, 0x0, [],
    [⟨0, 1, .ro, 0, 1⟩, ⟨1, 8, .ro, 0, 255⟩]⟩
def f_THM_REPLAN_STAT_BUSY : RF := ⟨r_THM_REPLAN_STAT, 0, 1⟩
def f_THM_REPLAN_STAT_CHANGED : RF := ⟨r_THM_REPLAN_STAT, 1, 8⟩

/-- THM_REPLAN_HOURS, block THM offset 0x14. Hours at the last re-plan. -/
def r_THM_REPLAN_HOURS : Reg :=
  ⟨184, 0xC00014, false, 4, 1, false, 0x0, [],
    [⟨0, 32, .ro, 0, 4294967295⟩]⟩
def f_THM_REPLAN_HOURS_HOURS : RF := ⟨r_THM_REPLAN_HOURS, 0, 32⟩

/-- THM_TRIP_LOG, block THM offset 0x18. Last trip. -/
def r_THM_TRIP_LOG : Reg :=
  ⟨185, 0xC00018, true, 8, 1, false, 0x0, [],
    [⟨0, 32, .ro, 0, 4294967295⟩, ⟨32, 8, .ro, 0, 255⟩, ⟨40, 8, .ro, 0, 255⟩, ⟨48, 1, .ro, 0, 1⟩]⟩
def f_THM_TRIP_LOG_SECONDS : RF := ⟨r_THM_TRIP_LOG, 0, 32⟩
def f_THM_TRIP_LOG_TEMP_C : RF := ⟨r_THM_TRIP_LOG, 32, 8⟩
def f_THM_TRIP_LOG_SENSOR : RF := ⟨r_THM_TRIP_LOG, 40, 8⟩
def f_THM_TRIP_LOG_VALID : RF := ⟨r_THM_TRIP_LOG, 48, 1⟩

/-- THM_WAKES, block THM offset 0x20. Core wakes. -/
def r_THM_WAKES : Reg :=
  ⟨186, 0xC00020, true, 8, 1, false, 0x0, [],
    [⟨0, 64, .ro, 0, 18446744073709551615⟩]⟩
def f_THM_WAKES_COUNT : RF := ⟨r_THM_WAKES, 0, 64⟩

/-- THM_WING_0..7, block THM offset 0x100. Wing state; stride 0x4. -/
def r_THM_WING : Reg :=
  ⟨187, 0xC00100, false, 4, 8, false, 0x0, [],
    [⟨0, 8, .ro, 0, 255⟩, ⟨8, 8, .ro, 0, 255⟩, ⟨16, 2, .ro, 0, 3⟩, ⟨18, 1, .ro, 0, 1⟩, ⟨19, 1, .ro, 0, 1⟩, ⟨20, 12, .ro, 0, 4095⟩]⟩
def f_THM_WING_TJ_C : RF := ⟨r_THM_WING, 0, 8⟩
def f_THM_WING_CEIL : RF := ⟨r_THM_WING, 8, 8⟩
def f_THM_WING_STATE : RF := ⟨r_THM_WING, 16, 2⟩
def f_THM_WING_THROTTLE : RF := ⟨r_THM_WING, 18, 1⟩
def f_THM_WING_EMERGENCY : RF := ⟨r_THM_WING, 19, 1⟩
def f_THM_WING_VCORE_MV : RF := ⟨r_THM_WING, 20, 12⟩

/-- THM_CORE_FMAX_0..143, block THM offset 0x200. Frequency limits; stride 0x4. -/
def r_THM_CORE_FMAX : Reg :=
  ⟨188, 0xC00200, false, 4, 144, false, 0x0, [],
    [⟨0, 8, .ro, 0, 255⟩, ⟨8, 8, .ro, 0, 255⟩, ⟨16, 3, .ro, 0, 7⟩, ⟨19, 1, .ro, 0, 1⟩]⟩
def f_THM_CORE_FMAX_FUSED : RF := ⟨r_THM_CORE_FMAX, 0, 8⟩
def f_THM_CORE_FMAX_FMAX : RF := ⟨r_THM_CORE_FMAX, 8, 8⟩
def f_THM_CORE_FMAX_VOFS : RF := ⟨r_THM_CORE_FMAX, 16, 3⟩
def f_THM_CORE_FMAX_AGED_OUT : RF := ⟨r_THM_CORE_FMAX, 19, 1⟩

/-- THM_CORE_AGE_0..143, block THM offset 0x600. Ageing and diapause; stride 0x4. -/
def r_THM_CORE_AGE : Reg :=
  ⟨189, 0xC00600, false, 4, 144, false, 0x0, [],
    [⟨0, 16, .ro, 0, 65535⟩, ⟨16, 12, .ro, 0, 4095⟩, ⟨28, 2, .ro, 0, 3⟩]⟩
def f_THM_CORE_AGE_DEGR_PPM : RF := ⟨r_THM_CORE_AGE, 0, 16⟩
def f_THM_CORE_AGE_SLACK_PS : RF := ⟨r_THM_CORE_AGE, 16, 12⟩
def f_THM_CORE_AGE_DSTATE : RF := ⟨r_THM_CORE_AGE, 28, 2⟩

/-- RST_STATE, block RST offset 0x0. Bring-up and service state. -/
def r_RST_STATE : Reg :=
  ⟨190, 0xD00000, false, 4, 1, false, 0x0, [],
    [⟨0, 4, .ro, 0, 15⟩, ⟨8, 1, .ro, 0, 1⟩, ⟨9, 1, .ro, 0, 1⟩, ⟨10, 1, .ro, 0, 1⟩, ⟨11, 1, .ro, 0, 1⟩, ⟨12, 1, .ro, 0, 1⟩]⟩
def f_RST_STATE_PHASE : RF := ⟨r_RST_STATE, 0, 4⟩
def f_RST_STATE_READY : RF := ⟨r_RST_STATE, 8, 1⟩
def f_RST_STATE_TOPO_HOLD : RF := ⟨r_RST_STATE, 9, 1⟩
def f_RST_STATE_OUT_OF_SERVICE : RF := ⟨r_RST_STATE, 10, 1⟩
def f_RST_STATE_WARM_PATH : RF := ⟨r_RST_STATE, 11, 1⟩
def f_RST_STATE_FAILED : RF := ⟨r_RST_STATE, 12, 1⟩

/-- RST_CMD, block RST offset 0x4. Resets and hold commands. -/
def r_RST_CMD : Reg :=
  ⟨191, 0xD00004, false, 4, 1, false, 0x0, [],
    [⟨0, 4, .wo, 1, 5⟩, ⟨4, 5, .wo, 0, 31⟩, ⟨9, 1, .wo, 0, 1⟩, ⟨10, 1, .wo, 0, 1⟩, ⟨11, 1, .wo, 0, 1⟩]⟩
def f_RST_CMD_OP : RF := ⟨r_RST_CMD, 0, 4⟩
def f_RST_CMD_INSTANCE : RF := ⟨r_RST_CMD, 4, 5⟩
def f_RST_CMD_COUNT : RF := ⟨r_RST_CMD, 9, 1⟩
def f_RST_CMD_SELFTEST : RF := ⟨r_RST_CMD, 10, 1⟩
def f_RST_CMD_RETRAIN : RF := ⟨r_RST_CMD, 11, 1⟩

/-- RST_STATUS, block RST offset 0x8. Chip reset and override in progress. -/
def r_RST_STATUS : Reg :=
  ⟨192, 0xD00008, false, 4, 1, false, 0x0, [],
    [⟨0, 1, .ro, 0, 1⟩, ⟨1, 1, .ro, 0, 1⟩]⟩
def f_RST_STATUS_CHIP_RESET : RF := ⟨r_RST_STATUS, 0, 1⟩
def f_RST_STATUS_OVR_BUSY : RF := ⟨r_RST_STATUS, 1, 1⟩

/-- RST_IMG_RESET, block RST offset 0xC. Imago resets in progress. -/
def r_RST_IMG_RESET : Reg :=
  ⟨193, 0xD0000C, false, 4, 1, false, 0x0, [],
    [⟨0, 32, .ro, 0, 4294967295⟩]⟩
def f_RST_IMG_RESET_MASK : RF := ⟨r_RST_IMG_RESET, 0, 32⟩

/-- RST_LAST, block RST offset 0x10. Last reset. -/
def r_RST_LAST : Reg :=
  ⟨194, 0xD00010, true, 8, 1, false, 0x0, [],
    [⟨0, 3, .ro, 0, 7⟩, ⟨8, 4, .ro, 0, 15⟩, ⟨12, 5, .ro, 0, 31⟩, ⟨17, 1, .ro, 0, 1⟩, ⟨32, 32, .ro, 0, 4294967295⟩]⟩
def f_RST_LAST_DOMAIN : RF := ⟨r_RST_LAST, 0, 3⟩
def f_RST_LAST_CAUSE : RF := ⟨r_RST_LAST, 8, 4⟩
def f_RST_LAST_INSTANCE : RF := ⟨r_RST_LAST, 12, 5⟩
def f_RST_LAST_COUNTED : RF := ⟨r_RST_LAST, 17, 1⟩
def f_RST_LAST_SECONDS : RF := ⟨r_RST_LAST, 32, 32⟩

/-- RST_ESC_CFG, block RST offset 0x18. Escalation. -/
def r_RST_ESC_CFG : Reg :=
  ⟨195, 0xD00018, false, 4, 1, false, 0x2580003, [],
    [⟨0, 8, .rw, 1, 255⟩, ⟨8, 1, .rw, 0, 1⟩, ⟨16, 16, .rw, 1, 65535⟩]⟩
def f_RST_ESC_CFG_THRESH : RF := ⟨r_RST_ESC_CFG, 0, 8⟩
def f_RST_ESC_CFG_IMAGO : RF := ⟨r_RST_ESC_CFG, 8, 1⟩
def f_RST_ESC_CFG_WINDOW_S : RF := ⟨r_RST_ESC_CFG, 16, 16⟩

/-- RST_ESC_STAT, block RST offset 0x1C. Counted resets in window. -/
def r_RST_ESC_STAT : Reg :=
  ⟨196, 0xD0001C, false, 4, 1, false, 0x0, [],
    [⟨0, 8, .ro, 0, 255⟩]⟩
def f_RST_ESC_STAT_COUNT : RF := ⟨r_RST_ESC_STAT, 0, 8⟩

/-- RST_WD_KERNEL, block RST offset 0x20. Kernel watchdog. -/
def r_RST_WD_KERNEL : Reg :=
  ⟨197, 0xD00020, false, 4, 1, false, 0x3E8, [],
    [⟨0, 20, .rw, 0, 1048575⟩]⟩
def f_RST_WD_KERNEL_MS : RF := ⟨r_RST_WD_KERNEL, 0, 20⟩

/-- RST_WD_NP, block RST offset 0x24. Non-preemptible watchdog. -/
def r_RST_WD_NP : Reg :=
  ⟨198, 0xD00024, false, 4, 1, false, 0x32, [],
    [⟨0, 20, .rw, 0, 1048575⟩]⟩
def f_RST_WD_NP_MS : RF := ⟨r_RST_WD_NP, 0, 20⟩

/-- RST_WD_QUEUE, block RST offset 0x28. Queue-progress watchdog. -/
def r_RST_WD_QUEUE : Reg :=
  ⟨199, 0xD00028, false, 4, 1, false, 0x7D0, [],
    [⟨0, 20, .rw, 0, 1048575⟩]⟩
def f_RST_WD_QUEUE_MS : RF := ⟨r_RST_WD_QUEUE, 0, 20⟩

/-- RST_WD_FABRIC, block RST offset 0x2C. Fabric watchdog. -/
def r_RST_WD_FABRIC : Reg :=
  ⟨200, 0xD0002C, false, 4, 1, false, 0x32, [],
    [⟨0, 20, .rw, 40, 1000⟩]⟩
def f_RST_WD_FABRIC_MS : RF := ⟨r_RST_WD_FABRIC, 0, 20⟩

/-- RST_WD_FIRED_0..3, block RST offset 0x30. Firings per watchdog; stride 0x8. -/
def r_RST_WD_FIRED : Reg :=
  ⟨201, 0xD00030, true, 8, 4, false, 0x0, [],
    [⟨0, 64, .ro, 0, 18446744073709551615⟩]⟩
def f_RST_WD_FIRED_COUNT : RF := ⟨r_RST_WD_FIRED, 0, 64⟩

/-- RST_LATE, block RST offset 0x50. Late answers discarded. -/
def r_RST_LATE : Reg :=
  ⟨202, 0xD00050, true, 8, 1, false, 0x0, [],
    [⟨0, 64, .ro, 0, 18446744073709551615⟩]⟩
def f_RST_LATE_COUNT : RF := ⟨r_RST_LATE, 0, 64⟩

/-- RST_DISCARDS, block RST offset 0x58. Held messages discarded. -/
def r_RST_DISCARDS : Reg :=
  ⟨203, 0xD00058, true, 8, 1, false, 0x0, [],
    [⟨0, 64, .ro, 0, 18446744073709551615⟩]⟩
def f_RST_DISCARDS_COUNT : RF := ⟨r_RST_DISCARDS, 0, 64⟩

/-- RST_EVT, block RST offset 0x60. Events. -/
def r_RST_EVT : Reg :=
  ⟨204, 0xD00060, false, 4, 1, false, 0x0, [],
    [⟨0, 1, .w1c, 0, 1⟩, ⟨1, 1, .w1c, 0, 1⟩, ⟨2, 1, .w1c, 0, 1⟩, ⟨3, 1, .w1c, 0, 1⟩, ⟨4, 1, .w1c, 0, 1⟩, ⟨5, 1, .w1c, 0, 1⟩, ⟨6, 1, .w1c, 0, 1⟩]⟩
def f_RST_EVT_RESET_DONE : RF := ⟨r_RST_EVT, 0, 1⟩
def f_RST_EVT_WATCHDOG : RF := ⟨r_RST_EVT, 1, 1⟩
def f_RST_EVT_TOPO_HOLD : RF := ⟨r_RST_EVT, 2, 1⟩
def f_RST_EVT_OOS : RF := ⟨r_RST_EVT, 3, 1⟩
def f_RST_EVT_PHASE_FAIL : RF := ⟨r_RST_EVT, 4, 1⟩
def f_RST_EVT_LEDGER_FULL : RF := ⟨r_RST_EVT, 5, 1⟩
def f_RST_EVT_FABRIC_TIMEOUT : RF := ⟨r_RST_EVT, 6, 1⟩

/-- RST_IRQ_CFG, block RST offset 0x64. Interrupt. -/
def r_RST_IRQ_CFG : Reg :=
  ⟨205, 0xD00064, false, 4, 1, false, 0xFF0000, [],
    [⟨0, 8, .rw, 0, 255⟩, ⟨8, 1, .rw, 0, 1⟩, ⟨16, 8, .rw, 0, 255⟩]⟩
def f_RST_IRQ_CFG_VECTOR : RF := ⟨r_RST_IRQ_CFG, 0, 8⟩
def f_RST_IRQ_CFG_EN : RF := ⟨r_RST_IRQ_CFG, 8, 1⟩
def f_RST_IRQ_CFG_MASK : RF := ⟨r_RST_IRQ_CFG, 16, 8⟩

/-- RST_LEDGER, block RST offset 0x68. Ledger state. -/
def r_RST_LEDGER : Reg :=
  ⟨206, 0xD00068, false, 4, 1, false, 0x0, [],
    [⟨0, 13, .ro, 0, 8191⟩, ⟨13, 1, .ro, 0, 1⟩, ⟨14, 1, .ro, 0, 1⟩, ⟨16, 12, .ro, 0, 4095⟩]⟩
def f_RST_LEDGER_ENTRIES : RF := ⟨r_RST_LEDGER, 0, 13⟩
def f_RST_LEDGER_FULL : RF := ⟨r_RST_LEDGER, 13, 1⟩
def f_RST_LEDGER_TORN : RF := ⟨r_RST_LEDGER, 14, 1⟩
def f_RST_LEDGER_NEW : RF := ⟨r_RST_LEDGER, 16, 12⟩

/-- RST_STRAPS, block RST offset 0x6C. TRAY_ID straps. -/
def r_RST_STRAPS : Reg :=
  ⟨207, 0xD0006C, false, 4, 1, false, 0x0, [],
    [⟨0, 8, .ro, 0, 255⟩]⟩
def f_RST_STRAPS_TRAY_ID : RF := ⟨r_RST_STRAPS, 0, 8⟩

/-- RST_BOOT_NONCE, block RST offset 0x70. Boot nonce. -/
def r_RST_BOOT_NONCE : Reg :=
  ⟨208, 0xD00070, false, 4, 1, false, 0x0, [],
    [⟨0, 32, .ro, 0, 4294967295⟩]⟩
def f_RST_BOOT_NONCE_NONCE : RF := ⟨r_RST_BOOT_NONCE, 0, 32⟩

/-- RST_OVR_ADDR, block RST offset 0x78. Override blob. -/
def r_RST_OVR_ADDR : Reg :=
  ⟨209, 0xD00078, true, 8, 1, false, 0x0, [],
    [⟨0, 64, .rw, 0, 18446744073709551615⟩]⟩
def f_RST_OVR_ADDR_ADDR : RF := ⟨r_RST_OVR_ADDR, 0, 64⟩

/-- RST_OVR_STATUS, block RST offset 0x80. Override result. -/
def r_RST_OVR_STATUS : Reg :=
  ⟨210, 0xD00080, false, 4, 1, false, 0x0, [],
    [⟨0, 16, .ro, 0, 65535⟩]⟩
def f_RST_OVR_STATUS_CODE : RF := ⟨r_RST_OVR_STATUS, 0, 16⟩

/-- RST_PHASE_MS_0..9, block RST offset 0x90. Phase durations; stride 0x4. -/
def r_RST_PHASE_MS : Reg :=
  ⟨211, 0xD00090, false, 4, 10, false, 0x0, [],
    [⟨0, 16, .ro, 0, 65535⟩]⟩
def f_RST_PHASE_MS_MS : RF := ⟨r_RST_PHASE_MS, 0, 16⟩

/-- RST_TOPO_SUM, block RST offset 0x100. Topology differences. -/
def r_RST_TOPO_SUM : Reg :=
  ⟨212, 0xD00100, false, 4, 1, false, 0x0, [],
    [⟨0, 8, .ro, 0, 255⟩, ⟨8, 8, .ro, 0, 255⟩, ⟨16, 1, .ro, 0, 1⟩, ⟨17, 1, .ro, 0, 1⟩, ⟨18, 1, .ro, 0, 1⟩, ⟨19, 1, .ro, 0, 1⟩]⟩
def f_RST_TOPO_SUM_DIES : RF := ⟨r_RST_TOPO_SUM, 0, 8⟩
def f_RST_TOPO_SUM_STACKS : RF := ⟨r_RST_TOPO_SUM, 8, 8⟩
def f_RST_TOPO_SUM_CORES_SHORT : RF := ⟨r_RST_TOPO_SUM, 16, 1⟩
def f_RST_TOPO_SUM_SLICES_SHORT : RF := ⟨r_RST_TOPO_SUM, 17, 1⟩
def f_RST_TOPO_SUM_DESC_BAD : RF := ⟨r_RST_TOPO_SUM, 18, 1⟩
def f_RST_TOPO_SUM_ID_RANGE : RF := ⟨r_RST_TOPO_SUM, 19, 1⟩

/-- RST_TOPO_LINK, block RST offset 0x108. Ports and engines missing. -/
def r_RST_TOPO_LINK : Reg :=
  ⟨213, 0xD00108, true, 8, 1, false, 0x0, [],
    [⟨0, 32, .ro, 0, 4294967295⟩, ⟨32, 16, .ro, 0, 65535⟩]⟩
def f_RST_TOPO_LINK_PORTS : RF := ⟨r_RST_TOPO_LINK, 0, 32⟩
def f_RST_TOPO_LINK_ENGINES : RF := ⟨r_RST_TOPO_LINK, 32, 16⟩

/-- RST_TOPO_CH_0..3, block RST offset 0x110. Slices missing; stride 0x8. -/
def r_RST_TOPO_CH : Reg :=
  ⟨214, 0xD00110, true, 8, 4, false, 0x0, [],
    [⟨0, 64, .ro, 0, 18446744073709551615⟩]⟩
def f_RST_TOPO_CH_SLICES : RF := ⟨r_RST_TOPO_CH, 0, 64⟩

/-- The registers of the CHIP block. -/
def regsChip : List Reg :=
  [r_CHIP_IDENT, r_CHIP_STEPPING, r_CHIP_PCI_ID, r_CHIP_PCI_VFID, r_CHIP_SERIAL, r_CHIP_FAB_ID, r_CHIP_STATE, 
   r_CHIP_CAP_CORE, r_CHIP_CAP_WING, r_CHIP_CAP_MEM, r_CHIP_CAP_LINK, r_CHIP_CAP_SCH, r_CHIP_CAP_SIZE, 
   r_CHIP_CAP_FMT, r_CHIP_CAP_FEAT, r_CHIP_FREQ_NOM]

/-- The registers of the GATE block. -/
def regsGate : List Reg :=
  [r_GATE_CTRL, r_GATE_STATUS, r_GATE_WGEN, r_GATE_SPEC_LIMIT, r_GATE_CMD, r_GATE_DONE, r_GATE_PROMOTED, 
   r_GATE_SPEC_TTL]

/-- The registers of the TMV block. -/
def regsTmv : List Reg :=
  [r_TMV_CFG, r_TMV_PEER_TIMEOUT, r_TMV_STATUS, r_TMV_SCR_CE, r_TMV_SCR_UE, r_TMV_SCR_UE_LOG, 
   r_TMV_CORE_STAT, r_TMV_CORE_CL, r_TMV_BCH_CFG, r_TMV_BCH_STAT, r_TMV_BCH_DONE, r_TMV_CLU_RD, r_TMV_CLU_WR]

/-- The registers of the MEM block. -/
def regsMem : List Reg :=
  [r_MEM_CFG, r_MEM_STATUS, r_MEM_UE_LOG, r_MEM_POISON_RD, r_MEM_INFLIGHT, r_MEM_BRIDGE_STAT, 
   r_MEM_STACK_STAT, r_MEM_APER, r_MEM_SLICE_STAT, r_MEM_SLICE_CMD, r_MEM_CE, r_MEM_UE, r_MEM_RD_BYTES, 
   r_MEM_WR_BYTES]

/-- The registers of the SILK block. -/
def regsSilk : List Reg :=
  [r_SILK_STATUS, r_SILK_OPS, r_SILK_LATE, r_SILK_RANGE, r_SILK_CTR, r_SILK_X_STATUS, r_SILK_X_OPS, 
   r_SILK_X_LATE, r_SILK_IMPORT, r_SILK_CUST_ARG, r_SILK_CUST_PEER, r_SILK_CUST_CMD, r_SILK_CUST_RESULT, 
   r_SILK_CUST_WORD]

/-- The registers of the QOS block. -/
def regsQos : List Reg :=
  [r_QOS_CFG, r_QOS_WIN_LEN, r_QOS_STATUS, r_QOS_CLASS_DL, r_QOS_CAP_MEM, r_QOS_CAP_CPORT, r_QOS_CAP_BRIDGE, 
   r_QOS_CAP_LINK, r_QOS_CAP_CLUSTER, r_QOS_CAP_HOST, r_QOS_ADM_LOG, r_QOS_MISS_COUNT, r_QOS_DEMOTED, 
   r_QOS_CORE_RATE, r_QOS_IMG_BULK_RATE, r_QOS_IMG_SPILL_RATE, r_QOS_IMG_TARGET, r_QOS_LINK_RATE, 
   r_QOS_IMG_MISS, r_QOS_IMG_DEMOTE, r_QOS_SLICE_LOAD, r_QOS_BRIDGE_LOAD, r_QOS_CLU_LOAD, r_QOS_HOST_LOAD]

/-- The registers of the XLT block. -/
def regsXlt : List Reg :=
  [r_XLT_CFG, r_XLT_STATUS, r_XLT_SPACE_BASE, r_XLT_INV_TIMEOUT, r_XLT_FAULTS, r_XLT_FAULTS_TMO, 
   r_XLT_INV_SLOW, r_XLT_WALKS, r_XLT_STLB_MISS, r_XLT_WALK_BUSY, r_XLT_REPLAY, r_XLT_REPLAY_STALE, 
   r_XLT_IQ_BASE, r_XLT_IQ_SIZE, r_XLT_IQ_TAIL, r_XLT_IQ_HEAD, r_XLT_IQ_STATUS, r_XLT_WS_FLUSH, 
   r_XLT_WS_FLUSH_DONE]

/-- The registers of the EVT block. -/
def regsEvt : List Reg :=
  [r_EVT_FQ_BASE, r_EVT_FQ_SIZE, r_EVT_FQ_HEAD, r_EVT_FQ_TAIL, r_EVT_FQ_STATUS, r_EVT_EQ_BASE, r_EVT_EQ_SIZE, 
   r_EVT_EQ_HEAD, r_EVT_EQ_TAIL, r_EVT_EQ_STATUS, r_EVT_EQ_LOST, r_EVT_IRQ_CFG, r_EVT_IRQ_MOD]

/-- The registers of the CMP block. -/
def regsCmp : List Reg :=
  [r_CMP_CFG, r_CMP_STATUS, r_CMP_POOL, r_CMP_POOL_EPOCH, r_CMP_LAST, r_CMP_STALE, r_CMP_STALE_KIND, 
   r_CMP_EPOCH, r_CMP_IMG_RB, r_CMP_EVAC, r_CMP_PLACE_MISS, r_CMP_CORE, r_CMP_MEM, r_CMP_LINK, r_CMP_LEASE, 
   r_CMP_ILV, r_CMP_SLIST, r_CMP_PLACE]

/-- The registers of the SCH block. -/
def regsSch : List Reg :=
  [r_SCH_CFG, r_SCH_NP_MAX, r_SCH_STATUS, r_SCH_CTX_DIR, r_SCH_PREEMPTS, r_SCH_NP_OVERRUNS, 
   r_SCH_SPILL_BYTES, r_SCH_SLOT, r_SCH_IMG, r_SCH_INST, r_SCH_ARG, r_SCH_CMD, r_SCH_RESULT, r_SCH_WINDOW, 
   r_SCH_DB]

/-- The registers of the LNK block. -/
def regsLnk : List Reg :=
  [r_LNK_CFG, r_LNK_COLL_TMO, r_LNK_STATUS, r_LNK_TIME_CFG, r_LNK_DISCARDS, r_LNK_PORT_CTRL, r_LNK_PORT_STAT, 
   r_LNK_PORT_PEER, r_LNK_PORT_LOST, r_LNK_PORT_FEC, r_LNK_PORT_UNCORR, r_LNK_PORT_RETRY, r_LNK_PORT_TX, 
   r_LNK_RT, r_LNK_PEER]

/-- The registers of the MBX block. -/
def regsMbx : List Reg :=
  [r_MBX_OUT_DATA, r_MBX_IN_DATA, r_MBX_CTRL, r_MBX_PROXY_ADDR, r_MBX_PROXY_DATA, r_MBX_INST_PEND, 
   r_MBX_INST_BUSY]

/-- The registers of the SEC block. -/
def regsSec : List Reg :=
  [r_SEC_STATUS, r_SEC_FW_DIGEST, r_SEC_KEY_BAD, r_SEC_WORLD_REFUSED, r_SEC_REGION_BASE, r_SEC_REGION_LIMIT, 
   r_SEC_SLICE_WORLD, r_SEC_INST, r_SEC_KEY_ATTR, r_SEC_CVK]

/-- The registers of the RTC block. -/
def regsRtc : List Reg :=
  [r_RTC_TIME, r_RTC_STATUS, r_RTC_ADJ, r_RTC_SET, r_RTC_HOURS]

/-- The registers of the PWR block. -/
def regsPwr : List Reg :=
  [r_PWR_PKG_CAP, r_PWR_STATUS, r_PWR_CMD, r_PWR_DIP_CFG, r_PWR_DIP_COUNT, r_PWR_DIP_LOG, r_PWR_EVT, 
   r_PWR_IRQ_CFG, r_PWR_ALERT_MASK, r_PWR_PKG_POWER, r_PWR_CAL, r_PWR_DOM_ILIM, r_PWR_DOM_STAT, 
   r_PWR_DOM_DROOP, r_PWR_CORE_FCAP, r_PWR_CORE_FREQ]

/-- The registers of the THM block. -/
def regsThm : List Reg :=
  [r_THM_CFG, r_THM_DIAP_CFG, r_THM_STATUS, r_THM_CMD, r_THM_REPLAN_STAT, r_THM_REPLAN_HOURS, r_THM_TRIP_LOG, 
   r_THM_WAKES, r_THM_WING, r_THM_CORE_FMAX, r_THM_CORE_AGE]

/-- The registers of the RST block. -/
def regsRst : List Reg :=
  [r_RST_STATE, r_RST_CMD, r_RST_STATUS, r_RST_IMG_RESET, r_RST_LAST, r_RST_ESC_CFG, r_RST_ESC_STAT, 
   r_RST_WD_KERNEL, r_RST_WD_NP, r_RST_WD_QUEUE, r_RST_WD_FABRIC, r_RST_WD_FIRED, r_RST_LATE, r_RST_DISCARDS, 
   r_RST_EVT, r_RST_IRQ_CFG, r_RST_LEDGER, r_RST_STRAPS, r_RST_BOOT_NONCE, r_RST_OVR_ADDR, r_RST_OVR_STATUS, 
   r_RST_PHASE_MS, r_RST_TOPO_SUM, r_RST_TOPO_LINK, r_RST_TOPO_CH]

/-- The registers of one block: block n lies at n × 1 MiB (R11). -/
def blockRegs : Nat → List Reg
  | 0 => regsChip
  | 1 => regsMbx
  | 2 => regsCmp
  | 3 => regsSch
  | 4 => regsXlt
  | 5 => regsQos
  | 6 => regsTmv
  | 7 => regsGate
  | 8 => regsMem
  | 9 => regsLnk
  | 10 => regsSilk
  | 11 => regsPwr
  | 12 => regsThm
  | 13 => regsRst
  | 14 => regsSec
  | 15 => regsRtc
  | 16 => regsEvt
  | _ => []

/-- Every register of the chip, block by block. -/
def allRegs : List Reg :=
  regsChip ++ (regsMbx ++ (regsCmp ++ (regsSch ++ (regsXlt ++ (regsQos ++ (regsTmv ++ (regsGate ++ (regsMem ++ (regsLnk ++
    (regsSilk ++ (regsPwr ++ (regsThm ++ (regsRst ++ (regsSec ++ (regsRtc ++ regsEvt)))))))))))))))

end Sys2Proof.Machine
end

