-- ==== Sys2Proof/Machine/Float.lean ====
section
/-!
DEFINITION. Number formats and arithmetic (R39 to R65): element formats, exact values, rounding, conversion, block
scales and the stochastic rounding generator. Values are exact: a finite number is a sign, a magnitude and a power of two.
-/

namespace Sys2Proof.Machine

/-- An exact value: NaN, an infinity, or (−1)^neg × m × 2^e. Zero keeps its sign (R42). -/
inductive FVal where
  | nan
  | inf (neg : Bool)
  | fin (neg : Bool) (m : Nat) (e : Int)
  deriving DecidableEq, Repr

/-- How a floating-point format spends its top codes (R41). -/
inductive FloatKind where
  /-- Exponent all ones holds infinity and NaNs. -/
  | ieee
  /-- E4M3: only the codes with every exponent and mantissa bit set are NaN. -/
  | e4m3
  /-- E3M2, E2M3, E2M1: every code is a finite value. -/
  | finite
  deriving DecidableEq, Repr

/-- A floating-point element format (R41): exponent and mantissa widths, bias, and the magnitude codes of the largest
finite value and of the canonical NaN. -/
structure FloatFmt where
  eb : Nat
  mb : Nat
  bias : Nat
  maxFin : Nat
  cnan : Nat
  kind : FloatKind
  deriving DecidableEq, Repr

def fmtF32 : FloatFmt := ⟨8, 23, 127, 0x7F7FFFFF, 0x7FC00000, .ieee⟩
def fmtF16 : FloatFmt := ⟨5, 10, 15, 0x7BFF, 0x7E00, .ieee⟩
def fmtBF16 : FloatFmt := ⟨8, 7, 127, 0x7F7F, 0x7FC0, .ieee⟩
def fmtE4M3 : FloatFmt := ⟨4, 3, 7, 0x7E, 0x7F, .e4m3⟩
def fmtE5M2 : FloatFmt := ⟨5, 2, 15, 0x7B, 0x7E, .ieee⟩
def fmtE3M2 : FloatFmt := ⟨3, 2, 3, 0x1F, 0, .finite⟩
def fmtE2M3 : FloatFmt := ⟨2, 3, 1, 0x1F, 0, .finite⟩
def fmtE2M1 : FloatFmt := ⟨2, 1, 1, 0x7, 0, .finite⟩

/-- An element format: floating point, or an integer of `bits` bits in units of 2^unit whose written range starts at
`lo` (R43). -/
inductive Elem where
  | flt (f : FloatFmt)
  | int (bits : Nat) (unit : Int) (lo : Int)
  deriving DecidableEq, Repr

/-- The element format of a format code (R39); codes 0xE and 0xF are reserved. -/
def elemOf : Nat → Option Elem
  | 0x0 => some (.flt fmtF32)
  | 0x1 => some (.flt fmtF16)
  | 0x2 => some (.flt fmtBF16)
  | 0x3 | 0x5 => some (.flt fmtE4M3)
  | 0x4 | 0x6 => some (.flt fmtE5M2)
  | 0x7 => some (.flt fmtE3M2)
  | 0x8 => some (.flt fmtE2M3)
  | 0x9 => some (.flt fmtE2M1)
  | 0xA => some (.int 8 (-6) (-127))
  | 0xB => some (.int 8 0 (-128))
  | 0xC => some (.int 4 0 (-8))
  | 0xD => some (.int 32 0 (-2147483648))
  | _ => none

/-- Element bits of a format code (R39); 0 for a reserved code. -/
def elemBits : Nat → Nat
  | 0x0 | 0xD => 32
  | 0x1 | 0x2 => 16
  | 0x3 | 0x4 | 0x5 | 0x6 | 0xA | 0xB => 8
  | 0x7 | 0x8 => 6
  | 0x9 | 0xC => 4
  | _ => 0

/-- The codes that carry an E8M0 scale per block of 32 (R39). -/
def isMX (code : Nat) : Bool := 5 ≤ code && code ≤ 0xA

/-- The codes that may be a matrix operand (R39). -/
def isMatrixFmt (code : Nat) : Bool := 1 ≤ code && code ≤ 0xC

/-- e_max of the element type of an MX code (R63). -/
def emaxOf : Nat → Int
  | 0x5 => 8
  | 0x6 => 15
  | 0x7 => 4
  | 0x8 => 2
  | 0x9 => 2
  | _ => 0

/-- The sticky arithmetic flags of R53, in the bit order of R99. -/
abbrev Flags := BitVec 5

def flInvalid : Flags := 1
def flOverflow : Flags := 2
def flSaturated : Flags := 4
def flNanLost : Flags := 8
def flFlushed : Flags := 16

/-- Reads a floating-point code (R41, R42). -/
def decodeFloat (f : FloatFmt) (bits : Nat) : FVal :=
  let mag := bits % 2 ^ (f.eb + f.mb)
  let neg := bitAt bits (f.eb + f.mb)
  let ef := mag / 2 ^ f.mb
  let fr := mag % 2 ^ f.mb
  let top := ef = 2 ^ f.eb - 1
  if f.kind = .ieee ∧ top ∧ fr ≠ 0 then .nan
  else if f.kind = .ieee ∧ top then .inf neg
  else if f.kind = .e4m3 ∧ mag = 2 ^ (f.eb + f.mb) - 1 then .nan
  else if ef = 0 then .fin neg fr (1 - (f.bias : Int) - f.mb)
  else .fin neg (fr + 2 ^ f.mb) ((ef : Int) - f.bias - f.mb)

/-- Reads an element code, before any scale (R41, R43). -/
def decodeElem (el : Elem) (bits : Nat) : FVal :=
  match el with
  | .flt f => decodeFloat f bits
  | .int w unit _ => let x := signedOf bits w; .fin (decide (x < 0)) x.natAbs unit

/-- Reads a binary32 register or accumulator value. -/
def f32 (w : Word) : FVal := decodeFloat fmtF32 w.toNat

/-- Is it a NaN? -/
def FVal.isNan : FVal → Bool
  | .nan => true
  | _ => false

/-- Is it an infinity? -/
def FVal.isInf : FVal → Bool
  | .inf _ => true
  | _ => false

/-- Is it a zero of either sign? -/
def FVal.isZero : FVal → Bool
  | .fin _ 0 _ => true
  | _ => false

/-- The sign of a value; a NaN counts as positive (R42). -/
def FVal.sign : FVal → Bool
  | .nan => false
  | .inf n => n
  | .fin n _ _ => n

/-- The value with its sign changed; a NaN stays a NaN. -/
def FVal.negate : FVal → FVal
  | .nan => .nan
  | .inf n => .inf (!n)
  | .fin n m e => .fin (!n) m e

/-- The magnitude of a value. -/
def FVal.abs : FVal → FVal
  | .nan => .nan
  | .inf _ => .inf false
  | .fin _ m e => .fin false m e

/-- The signed integer a finite value is, in units of 2^e0 (e0 at most its exponent). -/
def FVal.intAt (e0 : Int) : FVal → Int
  | .fin n m e => let x : Int := (m * 2 ^ (e - e0).toNat : Nat); if n then -x else x
  | _ => 0

/-- The exponent of a value's unit; 0 for a non-finite one. -/
def FVal.unit : FVal → Int
  | .fin _ 0 _ => 0
  | .fin _ _ e => e
  | _ => 0

/-- The exact product, with 0 × ∞ a NaN (R49). -/
def fmulX : FVal → FVal → FVal
  | .nan, _ => .nan
  | _, .nan => .nan
  | .inf a, .inf b => .inf (a != b)
  | .inf a, .fin b m _ => if m = 0 then .nan else .inf (a != b)
  | .fin a m _, .inf b => if m = 0 then .nan else .inf (a != b)
  | .fin a m e, .fin b m' e' => .fin (a != b) (m * m') (e + e')

/-- The exact sum of finite values, as a signed integer and its unit. -/
def sumInt (l : List FVal) : Int × Int :=
  let e0 := l.foldl (fun a v => min a v.unit) 0
  (l.foldl (fun a v => a + v.intAt e0) 0, e0)

/-- A signed integer in units of 2^e0, as a value; zero is positive. -/
def ofInt (x e0 : Int) : FVal := .fin (decide (x < 0)) x.natAbs e0

/-- The exact sum of two values under IEEE 754 (R52): ∞ − ∞ is a NaN, an exact zero is +0 unless both terms are −0. -/
def faddX : FVal → FVal → FVal
  | .nan, _ => .nan
  | _, .nan => .nan
  | .inf a, .inf b => if a = b then .inf a else .nan
  | .inf a, .fin _ _ _ => .inf a
  | .fin _ _ _, .inf b => .inf b
  | .fin a m e, .fin b m' e' =>
    let r := sumInt [.fin a m e, .fin b m' e']
    if r.1 = 0 then .fin (a && b && m = 0 && m' = 0) 0 0 else ofInt r.1 r.2

/-- The accumulation of one group of a reduction (R48, R49): all terms at once, with an exact zero always +0. -/
def sumTerms (l : List FVal) : FVal :=
  if l.any FVal.isNan then .nan
  else if l.any (fun v => v = .inf false) && l.any (fun v => v = .inf true) then .nan
  else if l.any (fun v => v = .inf false) then .inf false
  else if l.any (fun v => v = .inf true) then .inf true
  else let r := sumInt l; ofInt r.1 r.2

/-- The rounding mode (R55): nearest even, or stochastic with the 16-bit random value of R62. -/
inductive Rnd where
  | rne
  | stoch (r : Nat)
  deriving DecidableEq, Repr

/-- A magnitude divided by 2^sh and rounded to an integer (R57, R62). -/
def roundShift (rnd : Rnd) (m sh : Nat) : Nat :=
  let n := m / 2 ^ sh
  let rem := m % 2 ^ sh
  match rnd with
  | .rne => if 2 * rem > 2 ^ sh || (2 * rem = 2 ^ sh && sh ≠ 0 && n % 2 = 1) then n + 1 else n
  | .stoch r => if r < rem * 65536 / 2 ^ sh then n + 1 else n

/-- The magnitude code of m × 2^e in a format whose exponent range is unbounded above (R57). -/
def roundMag (mb bias : Nat) (rnd : Rnd) (m : Nat) (e : Int) : Nat :=
  if m = 0 then 0 else
  let top : Int := e + bitLen m - 1
  let emin : Int := 1 - bias
  let ex := max top emin
  let q := ex - mb
  let n := if q ≤ e then m * 2 ^ (e - q).toNat else roundShift rnd m (q - e).toNat
  ((ex + bias).toNat - 1) * 2 ^ mb + n

/-- Converts an exact value to a floating-point format that is not an MX element (R57, R58, R59). -/
def toFloat (f : FloatFmt) (rnd : Rnd) (sat flush : Bool) (v : FVal) : Nat × Flags :=
  let sgn (n : Bool) := if n then 2 ^ (f.eb + f.mb) else 0
  let infCode := (2 ^ f.eb - 1) * 2 ^ f.mb
  let ovf (n : Bool) (fl : Flags) : Nat × Flags :=
    if sat || f.kind = .finite then (sgn n + f.maxFin, fl ||| flSaturated)
    else if f.kind = .e4m3 then (f.cnan, fl ||| flInvalid)
    else (sgn n + infCode, fl)
  match v with
  | .nan => if f.kind = .finite then (0, flNanLost) else (f.cnan, 0)
  | .inf n => ovf n 0
  | .fin n m e =>
    let c := roundMag f.mb f.bias rnd m e
    if c > f.maxFin then ovf n flOverflow
    else if flush && 0 < c && c < 2 ^ f.mb then (sgn n, flFlushed)
    else (sgn n + c, 0)

/-- The magnitude of m × 2^e in units of 2^unit, rounded to an integer (R57). -/
def roundInt (rnd : Rnd) (unit : Int) (m : Nat) (e : Int) : Nat :=
  if unit ≤ e then m * 2 ^ (e - unit).toNat else roundShift rnd m (unit - e).toNat

/-- Converts an exact value to an integer format (R43, R57, R58). -/
def toInteger (w : Nat) (unit lo : Int) (rnd : Rnd) (v : FVal) : Nat × Flags :=
  let hi : Int := (2 ^ (w - 1) : Nat) - 1
  match v with
  | .nan => (0, flNanLost)
  | .inf n => (wrapInt (if n then lo else hi) w, flSaturated)
  | .fin n m e =>
    let k : Int := roundInt rnd unit m e
    let x := if n then -k else k
    if x < lo then (wrapInt lo w, flSaturated ||| flOverflow)
    else if hi < x then (wrapInt hi w, flSaturated ||| flOverflow)
    else (wrapInt x w, 0)

/-- Converts an exact value to an element format (R57 to R59, R64). -/
def toElem (el : Elem) (rnd : Rnd) (sat flush : Bool) (v : FVal) : Nat × Flags :=
  match el with
  | .flt f => toFloat f rnd sat flush v
  | .int w unit lo => toInteger w unit lo rnd v

/-- A value rounded to binary32 under RNE (R52), as a register word. INVALID is raised when a NaN comes from inputs none
of which is a NaN (R53). -/
def toF32 (flush nanIn : Bool) (v : FVal) : Word × Flags :=
  let r := toFloat fmtF32 .rne false flush v
  (BitVec.ofNat 32 r.1, if v.isNan && !nanIn then r.2 ||| flInvalid else r.2)

/-- The binary32 canonical NaN (R41). -/
def canonNaN : Word := 0x7FC00000

/-- Compares two finite or infinite values: is a < b? −0 and +0 compare equal. -/
def fltX : FVal → FVal → Bool
  | .nan, _ => false
  | _, .nan => false
  | .inf a, .inf b => a && !b
  | .inf a, .fin _ _ _ => a
  | .fin _ _ _, .inf b => !b
  | .fin a m e, .fin b m' e' => decide ((sumInt [.fin a m e, .fin (!b) m' e']).1 < 0)

/-- Are two values, neither a NaN, equal? −0 equals +0. -/
def feqX (a b : FVal) : Bool := !a.isNan && !b.isNan && !fltX a b && !fltX b a

/-- The ordering of FMIN and FMAX among values that are not NaNs: −0 lies below +0 (R85). -/
def fbelow (a b : FVal) : Bool := fltX a b || (a.isZero && b.isZero && a.sign && !b.sign)

/-- The square root of a value, exact enough to round once to binary32 (a sticky unit below the 60th digit); a negative
value other than −0 gives a NaN. -/
def fsqrtX : FVal → FVal
  | .nan => .nan
  | .inf n => if n then .nan else .inf false
  | .fin n m e =>
    if m = 0 then .fin n 0 0 else if n then .nan else
    let odd : Nat := (e % 2).toNat
    let k : Nat := 120 + odd
    let x := m * 2 ^ k
    let r := isqrt x
    .fin false (2 * r + (if r * r = x then 0 else 1)) ((e - k) / 2 - 1)

/-- One step of the stochastic rounding generator (R60). -/
def lfsrStep (s : Word) : Word := if s.getLsbD 0 then (s >>> 1) ^^^ 0x80200003 else s >>> 1

/-- The generator's load at the start of a stochastic MDRAIN (R61). -/
def lfsrLoad (seed salt : Word) : Word := if seed ^^^ salt = 0 then 0x1D872B41 else seed ^^^ salt

/-- The random value r of an element: bits [31:16] of the state after the step (R62). -/
def lfsrR (s : Word) : Nat := s.toNat / 65536

/-- The value of an E8M0 scale byte: 2^(e − 127), and a NaN for 0xFF (R43). -/
def e8m0 (b : Nat) : FVal := if b = 0xFF then .nan else .fin false 1 ((b : Int) - 127)

/-- A value multiplied by 2^k. -/
def FVal.scale (k : Int) : FVal → FVal
  | .fin n m e => .fin n m (e + k)
  | v => v

/-- floor(log₂) of a finite non-zero magnitude. -/
def FVal.log2 : FVal → Int
  | .fin _ m e => e + bitLen m - 1
  | _ => 0

/-- The larger magnitude of two finite values. -/
def maxMag (a b : FVal) : FVal := if fltX a.abs b.abs then b.abs else a.abs

/-- Chooses the scale byte of an MX block and converts its elements (R63, R64). `rnds` gives each element's rounding mode
in order. -/
def toBlock (code : Nat) (sat flush : Bool) (rnds : List Rnd) (vs : List FVal) : Nat × List Nat × Flags :=
  match elemOf code with
  | none => (0x7F, vs.map (fun _ => 0), 0)
  | some el =>
    if vs.any FVal.isNan then (0xFF, vs.map (fun _ => 0), flNanLost)
    else if vs.any FVal.isInf && !sat then (0xFF, vs.map (fun _ => 0), flInvalid)
    else
      let ws := vs.map (fun v => match v with
        | .inf n => FVal.fin n (2 ^ 24 - 1) 104
        | v => v)
      let m := ws.foldl maxMag (.fin false 0 0)
      let x : Int := if m.isZero then 0 else max (-127) (min 127 (m.log2 - emaxOf code))
      let conv (p : FVal × Rnd) : Nat × Flags :=
        let r := toElem el p.2 true flush (p.1.scale (-x))
        r
      let rs := (ws.zip rnds).map conv
      ((x + 127).toNat, rs.map Prod.fst, rs.foldl (fun a r => a ||| r.2) 0)

/-- The elements packed into bytes from `bytes`, element i at bits [i × w + w − 1 : i × w] (R44). -/
def getElem (w : Nat) (bytes : List Byte) (i : Nat) : Nat := bitsOf (leNat bytes) (i * w) w

/-- The bytes that `n` elements of `w` bits take, rounded up to whole bytes, a 6-bit format to whole groups of four
(R44, R209). -/
def rowBytes (w n : Nat) : Nat := if w = 6 then 3 * ((n + 3) / 4) else (n * w + 7) / 8

/-- Packs elements of `w` bits (R44); unused bits of the last byte or group are zero. -/
def packElems (w : Nat) (l : List Nat) : List Byte :=
  leBytes (rowBytes w l.length) (l.foldr (fun x acc => x % 2 ^ w + 2 ^ w * acc) 0)

end Sys2Proof.Machine
end

