-- ==== Sys2Proof/Machine/CoreTypes.lean ====
section
/-!
DEFINITION. The state of cores, kernels, the matrix unit, scratchpads, tile movers, memory requests and translation
(chapters 3 to 5, 7, 8 and 10): plain data only. `State` in State.lean assembles it.
-/

namespace Sys2Proof.Machine

/-! ## Threads -/

/-- An entry of the reconvergence stack (R82): where the lanes of the mask resume, and the reconvergence PC they had. -/
structure RStackEntry where
  pc : DWord
  mask : Word
  rpc : DWord
  deriving DecidableEq, Repr

/-- What a group waits for (R66, R75). -/
inductive Wait where
  /-- Nothing: the group is ready, operands permitting. -/
  | ready
  /-- CBAR at a barrier (R95). -/
  | barrier (n : Nat)
  /-- CWAIT (R96): SUB, the channel mask and the count. -/
  | cond (sub chans count : Nat)
  /-- CSLEEP (R94): the core clock at which the group becomes ready. -/
  | sleep (until20 : Nat)
  /-- CSILK WAITGE or TAKE (R97): the operation waited for. -/
  | silk (op : Nat)
  /-- A translation stall on a tile (R75). -/
  | tile (id : Nat)
  /-- A translation stall or wait for an instruction line (R545). -/
  | line (addr : Nat)
  deriving DecidableEq, Repr

/-- A resident thread group (R69). Registers that are not listed hold zero. `pend` lists the registers awaiting the
result of an operation (R75), with the operation's number. -/
structure Group where
  lin : Nat
  sregs : SMap Word
  uregs : SMap Word
  pregs : SMap Word
  aregs : SMap DWord
  pc : DWord
  active : Word
  exited : Word
  rpc : DWord
  stack : List RStackEntry
  flags : Flags
  wait : Wait
  ended : Bool
  pend : List (Nat × Nat)
  deriving DecidableEq, Repr

/-- A group slot that holds nothing. -/
def Group.empty : Group := ⟨0, [], [], [], [], 0, 0xFFFFFFFF, 0, 0xFFFFFFFFFFFFFFFF, [], 0, .ready, true, []⟩

/-- A kernel launch block (R70); `rsvd` is true when some reserved field is not zero. -/
structure Launch where
  va : Nat
  codeVa : Nat
  codeBytes : Nat
  argVa : Nat
  gridX : Nat
  gridY : Nat
  gridZ : Nat
  batchGroups : Nat
  scrPages : Nat
  specPages : Nat
  regionId : Nat
  seed : Word
  mode : Nat
  rsvd : Bool
  deriving DecidableEq, Repr

/-- A launch block of zeros. -/
def Launch.empty : Launch := ⟨0, 0, 0, 0, 0, 0, 0, 0, 0, 0, 0, 0, 0, false⟩

/-- The fault that a kernel's fault detail record describes (R102). `chan` is the mover channel of a descriptor fault. -/
structure FaultInfo where
  code : Nat
  tick : DWord
  core : Nat
  group : Nat
  lin : Nat
  batch : Nat
  lane : Nat
  lanes : Word
  pc : DWord
  addr : DWord
  chan : Option Nat
  deriving DecidableEq, Repr

/-- A kernel in progress (R66 to R68, R101). `window` posts its records; `queue` and `cmd` name its KERNEL command.
`stopAt` is the tick of its first fault; `done` is set when it has completed or, stopped, has drained. -/
structure Kernel where
  slot : Nat
  space : Nat
  inst : Nat
  window : Nat
  queue : Nat
  cmd : Nat
  tag : Nat
  lb : Launch
  nbatch : Nat
  nextBatch : Nat
  ended : Nat
  stopAt : Option DWord
  fault : Option FaultInfo
  others : Nat
  flagSum : Flags
  live : Bool
  done : Bool
  deriving DecidableEq, Repr

/-- No kernel. -/
def Kernel.empty : Kernel := ⟨0, 0, 0, 0, 0, 0, 0, Launch.empty, 0, 0, 0, none, none, 0, 0, false, false⟩

/-- Why a batch is stopping (R104, R546, R394, R514). -/
inductive StopWhy where
  | running
  | preempt
  | fault
  | teardown
  | reset
  deriving DecidableEq, Repr

/-- The batch that runs on a core. `progress` is the tick at which it last retired an instruction
(R520), and, of a saved batch, how long before its save that was. -/
structure Batch where
  kernel : Nat
  index : Nat
  ngroups : Nat
  groups : SMap Group
  resident : Bool
  started : Bool
  why : StopWhy
  stopAt : DWord
  progress : DWord
  deferred : List FaultInfo
  deriving DecidableEq, Repr

/-- What a core's reservation last held (R73); `kernel` is the kernel of the batch that held it. -/
structure RegionTag where
  slot : Nat
  space : Nat
  region : Nat
  batch : Nat
  scrPages : Nat
  kernel : Nat
  deriving DecidableEq, Repr

/-! ## The matrix unit -/

/-- A weight slot (R107). `bytes` are the value plane's, `idx` the index plane's, `blk` the block-scale store. -/
structure WSlot where
  loaded : Bool
  fmt : Nat
  cls : Nat
  spn : Nat
  bytes : List Byte
  idx : List Byte
  blk : Option (List Byte)
  scales : List Word
  deriving DecidableEq, Repr

/-- An empty weight slot, as at the start of a batch. -/
def WSlot.empty : WSlot := ⟨false, 0, 0, 0, [], [], none, [0x3F800000, 0x3F800000, 0x3F800000, 0x3F800000]⟩

/-- The M instructions (R108, R110). -/
inductive MOp where
  | loadw | wblock | wtile | atile | stream | sparse | drain
  deriving DecidableEq, Repr

/-- An issued M instruction. `seq` is its issue order in the batch, `u` the u registers it reads, as they stood at issue;
`pc` and `lanes` are for a fault record. `slotOk` is set once a stream's slot checks passed, or a drain's checks; `slot` and
`vec` are then the slot and A tile scales a stream goes against, or `vec` a drain's scale and bias vectors. `rows` counts rows that have
entered or left, `fetched` rows whose data has arrived or that SKIP marks, `upd` rows whose updates are applied, `entered`
rows that entered the array, `reads` and `writes` rows a drain has read and written. `flags` collect for R126. -/
structure MInstr where
  op : MOp
  grp : Nat
  seq : Nat
  bits : Nat
  u : List Word
  pc : DWord
  lanes : Word
  begun : Bool
  slotOk : Bool
  slot : WSlot
  vec : List Word
  fetched : Nat
  rows : Nat
  entered : Nat
  upd : Nat
  reads : Nat
  writes : Nat
  finished : Bool
  flags : Flags
  deriving DecidableEq, Repr

/-- A row in the A buffer or in the array: the issuing instruction, its number, its element codes and scale bytes. -/
structure ARow where
  seq : Nat
  row : Nat
  codes : List Nat
  scales : List Nat
  zero : Bool
  deriving DecidableEq, Repr

/-- A converted row in the drain's output buffer (R125, R128). -/
structure DrainRow where
  seq : Nat
  row : Nat
  bytes : List Byte
  scales : List Byte
  deriving DecidableEq, Repr

/-- The matrix unit of a core (R105 to R131). The three lists hold each engine's instructions in issue order; `zeros` the zero rows that left the A
buffer (R142). -/
structure Matrix where
  slot0 : WSlot
  slot1 : WSlot
  ascale : List Word
  load : List MInstr
  stream : List MInstr
  drain : List MInstr
  nextSeq : Nat
  abuf : List ARow
  zeros : List ARow
  array : List ARow
  out : List DrainRow
  lfsr : Word
  deriving DecidableEq, Repr

/-- The matrix unit at the start of a batch. -/
def Matrix.empty : Matrix :=
  ⟨WSlot.empty, WSlot.empty, [0x3F800000, 0x3F800000, 0x3F800000, 0x3F800000], [], [], [], 0, [], [], [], [], 0⟩

/-! ## Cores -/

/-- The state of a scratchpad word that is not plain and good (R193, R194). -/
inductive WordMark where
  | good
  | single
  | double
  | poison
  deriving DecidableEq, Repr

/-- A corrected word waiting to be written back (R193). -/
abbrev WriteBack := Nat

/-- A core (R66 to R104). `tacc` holds the accumulator tiles, word tile × 16,384 + row × 128 + column; `taccBad` marks
accumulator rows (tile × 128 + row) with an uncorrectable error. `icache` lists the cached code lines by address. `clkBase`
is the CLOCK count in twentieths of a clock at tick `clkStamp`; `clkSteps` is the frequency it advances at, 0 in diapause. -/
structure Core where
  batch : Option Batch
  m : Matrix
  tacc : SMap Word
  taccBad : SMap Bool
  scr : Mem
  marks : SMap WordMark
  backs : List WriteBack
  icache : List Nat
  icacheKernel : Option Nat
  lastCtx : Option Nat
  region : Option RegionTag
  resvPages : Nat
  resvScr : Nat
  resvRegion : Nat
  clkBase : Nat
  clkStamp : DWord
  clkSteps : Nat
  idleSince : DWord
  deriving DecidableEq, Repr

/-- A core after reset: nothing runs, CLOCK is zero, and the frequency is 800 MHz (64 steps). -/
def Core.empty : Core :=
  ⟨none, Matrix.empty, [], [], [], [], [], [], none, none, none, 0, 0, 0, 0, 0, 64, 0⟩

/-! ## Translations -/

/-- A translation (R279, R284): the page's first virtual address and size, location kind, address at it, and hint. -/
structure Xlat where
  va : Nat
  size : Nat
  loc : Nat
  addr : Nat
  hint : Nat
  deriving DecidableEq, Repr

/-! ## Tile movers -/

/-- Who queued a descriptor (R198, R196, R197). -/
inductive DescOwner where
  /-- XMOV by a group of the kernel. -/
  | xmov (kernel grp : Nat)
  /-- A Gate unit dispatch, by wing. -/
  | gate (wing : Nat)
  /-- A command, by queue and command number. -/
  | command (queue cmd : Nat)
  deriving DecidableEq, Repr

/-- The states of a channel's front descriptor (R215). Checking and Done are passed through within one command; Waiting is
Ready with a line of zero, and Stalled is Translating with a stalled tile. -/
inductive ChanState where
  | idle | translating | ready | draining
  deriving DecidableEq, Repr

/-- How far a descriptor that was taken off its channel at a burst boundary has come (R391): the fields of its channel. -/
structure Prog where
  nextBurst : Nat
  row : Nat
  ofs : Nat
  cnt : Nat
  list : List Nat
  hdr : List Byte
  rank : Nat
  idx : List (Byte × Bool)
  skip : Nat
  flags : Flags
  paid : Bool
  spans : List (Nat × Nat × Nat)
  before : List (Nat × Nat × Nat)
  part : List (Nat × Nat)
  deriving DecidableEq, Repr

/-- A queued descriptor: its 64 bytes (R198), owner, class label, space and instance, and where it goes on, if it had begun
on another channel. -/
structure Desc where
  bytes : List Byte
  owner : DescOwner
  label : Nat
  space : Nat
  inst : Nat
  prog : Option Prog
  deriving DecidableEq, Repr

/-- A delivery of the holding register (R207): a row of the descriptor, a destination offset in it, and bytes; for BST, a
tile of the extent, a line of it, and one line. -/
structure Piece where
  row : Nat
  ofs : Nat
  len : Nat
  deriving DecidableEq, Repr

/-- A burst, or the part of one that a segment holds: its number, its deliveries, its outstanding reads with the address and
length of each, the translations its tile held when it was issued, whether it has been delivered, its writes not yet
performed, the peer cores it reaches with their instars at its start (R358), and the ranges it writes. `last` is set when it ends the
burst. A burst refused at its delivery holds no translations until its tile is replayed (R547). -/
structure Burst where
  id : Nat
  last : Bool
  pieces : List Piece
  reads : List (Nat × Nat × Nat)
  held : List Xlat
  delivered : Bool
  writes : List Nat
  cores : List (Nat × Nat)
  dst : List (Nat × Nat)
  deriving DecidableEq, Repr

/-- A channel of a mover. `begun` is set once the front descriptor has started a burst here; `nextBurst` counts the bursts it
has started; `row`, `ofs` and `cnt` are where the next one goes on, in the walk and in destination bytes; `lim` is where the
translated tile ends. `stage` tells what the channel reads before data: 1 a list or a BST tile row's metadata, 2 its index
records, 3 a BST header, 0 data. `list` holds the list entries of the segment, or a BST tile row's present bits; `hdr`,
`rank` and `idx` a BST header, the rank of the first present tile and its index records; `skip` collects the SKIPMAP word,
and `skipSent` is set when it is written. `newUse` is a USE that takes effect when the channel is idle. `paid` is set when the
burst that starts next has taken its credit (R547). `spans` are the bytes that the descriptor's tiles so far read and write, as
(place, first, length), with place 2p for bytes read and 2p + 1 for bytes written, where p is 0 for device virtual memory and 1 + c
for core c's scratchpad, and `before` those of the descriptor before it (R204, R205, R216). `part` are the ranges written of a burst that another tile ends
(R220). -/
structure Chan where
  queue : List Desc
  state : ChanState
  begun : Bool
  nextBurst : Nat
  row : Nat
  ofs : Nat
  cnt : Nat
  lim : Nat × Nat
  stage : Nat
  list : List Nat
  hdr : List Byte
  rank : Nat
  idx : List (Byte × Bool)
  skip : Nat
  skipSent : Bool
  tile : Option Nat
  bursts : List Burst
  flags : Flags
  peerSince : Option DWord
  newUse : Option Nat
  paid : Bool
  spans : List (Nat × Nat × Nat)
  before : List (Nat × Nat × Nat)
  part : List (Nat × Nat)
  deriving DecidableEq, Repr

/-- An idle channel. -/
def Chan.empty : Chan := ⟨[], .idle, false, 0, 0, 0, 0, (0, 0), 0, [], [], 0, [], 0, false, none, [], 0, none, none, false, [], [], []⟩

/-- A mover: a per-core mover of 8 channels or a bulk cluster of 32. `rr` gives, per PRIO, the channel that last started a
burst (R213). -/
structure Mover where
  chans : SMap Chan
  credits : SMap Nat
  rr : SMap Nat
  deriving DecidableEq, Repr

/-- A mover with nothing queued and every credit line zero. -/
def Mover.empty : Mover := ⟨[], [], []⟩

/-! ## Memory requests -/

/-- What a memory request asks for (R239, R246, R247). -/
inductive ReqOp where
  | read
  | write
  /-- An integer atomic: SUB of R91, bytes of its operand, signed, and whether it returns the old value. -/
  | atomic (sub size : Nat) (signed ret : Bool)
  /-- A reduction: true for binary32, false for bfloat16. -/
  | reduce (f32 : Bool)
  deriving DecidableEq, Repr

/-- Whose request it is. -/
inductive ReqOwner where
  /-- A lane of a thread operation. -/
  | thread (op lane : Nat)
  /-- An instruction line of a core. -/
  | fetch (core line : Nat)
  /-- A read of a mover channel. -/
  | moverRead (unit chan : Nat)
  /-- A destination write of a mover channel. -/
  | moverWrite (unit chan : Nat)
  /-- A page-table read. -/
  | walk (id : Nat)
  /-- A request that a peer sent, by the number its message is kept under. -/
  | link (msg : Nat)
  /-- A request of a collective's arriving data. -/
  | coll (id : Nat)
  /-- A landing-slot fetch of a Gate unit. -/
  | landing (id : Nat)
  /-- A command's own request. -/
  | command (queue cmd : Nat)
  deriving DecidableEq, Repr

/-- Where a request is (R238 to R241). -/
inductive ReqStage where
  /-- Held at its master behind an earlier request to its line (R243, R349). -/
  | held
  /-- Sent, not yet performed at its buffer slice. -/
  | sent
  /-- A miss, waiting for its HBM access. -/
  | hbm
  /-- Gone to another chip. -/
  | remote
  /-- Performed; a read's data is on its way back. -/
  | done
  /-- Its message was discarded by age (R521); only the watchdog ends it. -/
  | lost
  deriving DecidableEq, Repr

/-- A request to memory. `gpa` is the global physical address (R231). `poison` marks the poisoned 32-byte sectors of its
line, bit k for sector k: of write data, then of the data read. `label`, `deadline` and `epoch` travel with it (R260, R267,
R338). `master` is the regulator that counts it, 4,096 × kind + index as in R276; `bound` is false for a host request
(R274). `err` is an error answer. `dst` is the class target that its place is (1 Imago memory, 2 the host, 0 neither);
`quiet` is set once a stop of issue or a loss of supply has interrupted it, so that it cannot miss (R275). -/
structure MemReq where
  op : ReqOp
  owner : ReqOwner
  gpa : Nat
  len : Nat
  data : List Byte
  data2 : List Byte
  poison : Nat
  label : Nat
  deadline : Option DWord
  hint : Nat
  inst : Nat
  space : Nat
  epoch : Nat
  secure : Bool
  master : Nat
  die : Nat
  spec : Bool
  stage : ReqStage
  issued : DWord
  err : Nat
  flags : Flags
  dst : Nat
  quiet : Bool
  deriving DecidableEq, Repr

/-- A line of a buffer slice (R239): valid, dirty and poison bits per 32-byte sector, its 256 bytes, the hint it was
allocated with, and when it was last used. -/
structure BufLine where
  valid : Nat
  dirty : Nat
  poison : Nat
  data : List Byte
  keep : Bool
  stream : Bool
  used : DWord
  deriving DecidableEq, Repr

/-! ## Thread operations, tiles, walks -/

/-- The kinds of global thread operation (R89, R97). -/
inductive ThreadKind where
  | load | store | atomic | silkRead | silkAdd | silkWait | silkTake
  deriving DecidableEq, Repr

/-- One lane's access. -/
structure LaneAcc where
  lane : Nat
  va : Nat
  data : List Byte
  data2 : List Byte
  deriving DecidableEq, Repr

/-- An issued global access or Silk operation of a group, until it completes (R68). `left` lists the lanes whose requests
are not finished; `performed` is false until it is performed at Imago scope (R242); `issued` is the tick of its issue. `sub` is an atomic's SUB; of a Silk
operation, 0 at home on this chip, else the other chip's ID plus 1; `epoch` is a Silk operation's (R338). -/
structure ThreadOp where
  kind : ThreadKind
  core : Nat
  grp : Nat
  kernel : Nat
  batch : Nat
  data : Nat
  size : Nat
  sx : Bool
  sub : Nat
  pc : DWord
  lanes : List LaneAcc
  left : List Nat
  performed : Bool
  fenced : Bool
  issued : DWord
  epoch : Nat
  deriving DecidableEq, Repr

/-- A cached translation of a TLB (R288): cache `c` is micro-TLB c for c < 144, and shared TLB of base die c − 256. -/
structure TlbEntry where
  cache : Nat
  space : Nat
  x : Xlat
  deriving DecidableEq, Repr

/-- A cached table pointer (R288): base die, space, level of the entry it came from, start of the range, location, table. -/
structure WalkCacheEntry where
  die : Nat
  space : Nat
  level : Nat
  va : Nat
  loc : Nat
  table : Nat
  deriving DecidableEq, Repr

/-- Whose tile it is (R291). `saved` is a stalled tile of a group whose batch has been saved, with its core and the lanes and
addresses of its access; `savedMover` one of a channel saved with a batch, and `savedBulk` one of a bulk descriptor that a
handover took off its channel (R301). -/
inductive TileOwner where
  | thread (op : Nat)
  | fetch (core line : Nat)
  | mover (unit chan : Nat)
  | gate (wing : Nat)
  | device (inst queue cmd : Nat)
  | landing (id : Nat)
  | saved (kernel batch grp core : Nat) (lanes : List (Nat × Nat))
  | savedMover (kernel batch core chan : Nat)
  | savedBulk (queue cmd : Nat)
  deriving DecidableEq, Repr

/-- A missing range that a tile found (R293): its level and reason, its first address and size, and the lowest address of it
that the tile touches. -/
structure TileFault where
  level : Nat
  reason : Nat
  va : Nat
  size : Nat
  lowVa : Nat
  deriving DecidableEq, Repr

/-- A tile in translation (R291, R292): the lowest address it touches in each 4 KiB page; the translations held; the missing
ranges found; and the tracker entries it is stalled on. `rights` is READ, WRITE, ATOMIC as bits 0 to 2. -/
structure Tile where
  owner : TileOwner
  space : Nat
  inst : Nat
  slot : Nat
  die : Nat
  cache : Nat
  rights : Nat
  label : Nat
  master : Nat
  pages : List Nat
  held : List Xlat
  faults : List TileFault
  entries : List Nat
  wantsEntry : Bool
  stalled : Bool
  deriving DecidableEq, Repr

/-- A page walk in progress (R284): the level of the table it reads next, where the table is, and the request out for it.
`tiles` wait for its page; `void` marks a walk whose space was invalidated (R288); `spec` a walk of a speculative fetch. -/
structure Walk where
  space : Nat
  slot : Nat
  inst : Nat
  va : Nat
  level : Nat
  loc : Nat
  table : Nat
  die : Nat
  tiles : List Nat
  void : Bool
  spec : Bool
  req : Nat
  deriving DecidableEq, Repr

/-- A fault tracker entry (R293, R296). `instar` stays when the entry is freed. -/
structure TrackEntry where
  used : Bool
  instar : Nat
  space : Nat
  inst : Nat
  level : Nat
  va : Nat
  size : Nat
  tick : DWord
  deriving DecidableEq, Repr

/-- A free tracker entry. -/
def TrackEntry.empty : TrackEntry := ⟨false, 0, 0, 0, 0, 0, 0, 0⟩

/-- The kinds of invalidation (R302, R307, R308). -/
inductive InvKind where
  | range (va len : Nat)
  | space
  | all
  | sync
  | nothing
  deriving DecidableEq, Repr

/-- An invalidation in progress (R304): the window and queue index it came from (`idx` none for a whole-space flush), its
space, the fence it signals, and what it waits for: walks, requests and bursts, squashes, and fence operations sent to other
chips. `teardown` is the space whose teardown
it belongs to. -/
structure Inval where
  win : Nat
  idx : Option Nat
  kind : InvKind
  space : Nat
  fence : Option (Nat × Nat × Nat)
  walks : List Nat
  reqs : List Nat
  slots : List Nat
  outs : List Nat
  began : DWord
  slow : Bool
  teardown : Option Nat
  deriving DecidableEq, Repr

end Sys2Proof.Machine
end

