-- ==== Sys2Proof/Machine/SysTypes.lean ====
section
/-!
DEFINITION. The state of the chip outside its cores: links and peers (chapter 13), Imagos and their maps (chapter 11),
contexts, queues, objects and fences (chapter 12), instances, keys and firmware requests (chapter 14), collectives, and the
supplies, sensors and resets (chapters 15 to 17). Plain data only.
-/

namespace Sys2Proof.Machine

/-! ## Register accesses (R14) -/

/-- A 64-bit register whose lower half a requester has read: its upper half as latched then (R14). -/
structure Latch where
  req : Nat
  key : Nat
  upper : Nat
  deriving DecidableEq, Repr

/-- What the last access of a host or register requester returned: whether it was accepted (Unsupported Request otherwise),
whether its data carries the poisoned indication, and its bytes. -/
structure Reply where
  ok : Bool
  poisoned : Bool
  data : List Byte
  deriving DecidableEq, Repr

/-- A fault or event queue ring: records posted to it, and passes completed around it (R297, R398). -/
structure Ring where
  posted : Nat
  passes : Nat
  deriving DecidableEq, Repr

/-- A ring nothing has been posted to. -/
def Ring.empty : Ring := ⟨0, 0⟩

/-! ## Resident contexts (R280, R281) -/

/-- What a resident context slot keeps of its space-table entry: space ID, owning instance, world, and root table. -/
structure SlotInfo where
  space : Nat
  inst : Nat
  world : Nat
  rootLoc : Nat
  root : Nat
  deriving DecidableEq, Repr

/-- A slot that holds nothing. -/
def SlotInfo.empty : SlotInfo := ⟨0, 0, 0, 0, 0⟩

/-! ## Landing slots of Gate units (R179 to R187) -/

/-- The states of a landing slot (R187); a free slot is not listed. `doomed` is a slot whose squash has been triggered. -/
inductive LandState where
  | fetching | landed | void | doomed | squashing | promoting | promoted
  deriving DecidableEq, Repr

/-- A landing slot: its wing, context slot, core, index, expert, source address, place in scratchpad, and bytes; the tick
from which it is held; the errors its reads met, by sector of the chip, and the number of lines that came poisoned, both
recorded at promotion (R181); and the core's instar when it was assigned (R358). -/
structure LandSlot where
  wing : Nat
  ctx : Nat
  core : Nat
  index : Nat
  expert : Nat
  va : Nat
  base : Nat
  len : Nat
  since : DWord
  state : LandState
  errs : List SectorErr
  poisoned : Nat
  instar : Nat
  deriving DecidableEq, Repr

/-! ## Gate units (R157, R172, R177 to R179) -/

/-- A dispatch of a GATE_DISPATCH command: the command, its queue, context, window, class label, and the 256 bytes of its
dispatch block. -/
structure GateJob where
  queue : Nat
  cmd : Nat
  space : Nat
  inst : Nat
  win : Nat
  label : Nat
  block : List Byte
  deriving DecidableEq, Repr

/-- How far a running dispatch is: selected, waiting for promotions (R183), gathering, ready to complete, its summary written, or its
predictor record written. -/
inductive GatePhase where
  | selected | promoting | gathering | finishing | summed | closing
  deriving DecidableEq, Repr

/-- The running dispatch: its first error, gather transfers not yet queued (core and descriptor), the number queued and
incomplete, the experts used with their counts, the counts of its summary record (R168), the slots that its resolution
promotes, the predictor record that it writes once nothing can fail it any more (R174, R178), and the tokens of a COMBINE that
are over (R170). -/
structure GateRun where
  job : GateJob
  phase : GatePhase
  err : Nat
  todo : List (Nat × Desc)
  out : Nat
  used : List (Nat × Nat)
  sum : List Nat
  resolved : List Nat
  record : Option (List Byte)
  token : Nat
  deriving DecidableEq, Repr

/-- A LAST triple (R177): the top set of the last decision and its NEXT_PRED_VA. A triple that is not valid is not kept. -/
structure LastTriple where
  top : List Nat
  next : Option Nat
  deriving DecidableEq, Repr

/-- An armed plan (R179). -/
structure GatePlan where
  next : Nat
  layer : Nat
  region : Nat
  bytes : Nat
  nslot : Nat
  cores : List Nat
  deriving DecidableEq, Repr

/-- A Gate unit: waiting dispatches in arrival order, the running one, and, by context slot, LAST triples and armed plans. -/
structure Gate where
  waiting : List GateJob
  run : Option GateRun
  last : SMap LastTriple
  plans : SMap GatePlan
  deriving DecidableEq, Repr

/-- An idle Gate unit. -/
def Gate.empty : Gate := ⟨[], none, [], []⟩

/-! ## Link messages and ports (R407 to R417) -/

/-- A message of the Broulo Link layer (R413). `poison` is the poison mask; `sent` is the tick from which its age counts
(R521). -/
structure LinkMsg where
  type : Nat
  label : Nat
  hops : Nat
  src : Nat
  dest : Nat
  epoch : Nat
  instar : Nat
  inst : Nat
  deadline : Option DWord
  tag : Nat
  aux : Nat
  addr : Nat
  data : List Byte
  poison : Nat
  sent : DWord
  deriving DecidableEq, Repr

/-- A flit sent and not yet acknowledged (R411): its number, lane and partition, and the message it ends, if any. -/
structure SentFlit where
  seq : Nat
  vl : Nat
  part : Nat
  msg : Option LinkMsg
  deriving DecidableEq, Repr

/-- A link port (R407 to R412, R422, R423). `waiting` holds messages not yet in flits; `credits` is keyed by 4 × lane +
partition. `since` is the tick at which the port entered its state or last began training; `retryAt` is set between two
training attempts. `lane0` and `lane1` are the bytes VL0 and VL1 have sent in the regulator window; `adv` the hop counts that the neighbour's last
ADVERT gave. -/
structure Port where
  since : DWord
  failedTraining : Bool
  waiting : List LinkMsg
  unacked : List SentFlit
  credits : SMap Nat
  freed : SMap Nat
  txSeq : Nat
  rxSeq : Nat
  nakSent : Bool
  resends : Nat
  lastTx : DWord
  lastProbe : DWord
  lane0 : Nat
  lane1 : Nat
  encFails : Nat
  encFlits : Nat
  encRxFlits : Nat
  kepoch : Nat
  encAsked : Option DWord
  keys : List Byte
  nonce : DWord
  peerNonce : DWord
  adv : SMap Nat
  deriving DecidableEq, Repr

/-- A port that is DOWN. -/
def Port.empty : Port :=
  ⟨0, false, [], [], [], [], 1, 0, false, 0, 0, 0, 0, 0, 0, 0, 0, 0, none, [], 0, 0, []⟩

/-- A request that a peer sent (R414, R421): its message, the port it came on, the data and poison of the parts performed, by
offset, and how many parts remain. -/
structure LinkJob where
  msg : LinkMsg
  port : Nat
  parts : SMap (List Byte × Nat)
  left : Nat
  deriving DecidableEq, Repr

/-- What a peer's entry keeps beside LNK_PEER (R418): its serial, when it was last heard or began to age, and the ports on
which it has sent LINK_IDLE. -/
structure PeerInfo where
  serial : Nat
  heard : DWord
  idle : List Nat
  deriving DecidableEq, Repr

/-- A custody operation in progress (R432, R436): its number, operation, home, tag and the tick it was sent. -/
structure CustOp where
  op : Nat
  home : Nat
  tag : Nat
  sent : DWord
  deriving DecidableEq, Repr

/-! ## Collectives (R427 to R430) -/

/-- A collective opened on this chip: its context, the command that runs its steps (none between commands), descriptor,
ranks as chip and instance, the next step, whether its send and receive actions are under way or over (0 waiting, 1 running,
2 over), OPEN tokens by rank, bytes received by step, the bytes of steps whose data the staging buffer does not hold, by step
and offset with their poison, when an action last began or ended, the tag of its messages, its fate: none while it is open,
else 0 after its last step or the error that it failed with between commands; and the bulk channels that its send and receive
actions occupy. -/
structure Coll where
  space : Nat
  inst : Nat
  cmd : Option Nat
  desc : List Byte
  ranks : List (Nat × Nat)
  step : Nat
  sendSt : Nat
  recvSt : Nat
  opens : List Nat
  got : SMap Nat
  staged : SMap (List Byte × Nat)
  since : DWord
  tag : Nat
  fate : Option Nat
  sendCh : List Nat
  recvCh : List Nat
  deriving DecidableEq, Repr

/-! ## Imagos (R316, R337 to R350) -/

/-- A destination of a route map (R328). -/
structure Route where
  dest : Nat
  direct : Bool
  ports : Nat
  deriving DecidableEq, Repr

/-- The map of the previous epoch (R338): interleave entries and slice-list words. -/
structure OldMap where
  epoch : Nat
  ilv : List Nat
  slist : List Nat
  routes : List Route
  deriving DecidableEq, Repr

/-- An interleave entry being evacuated (R347 to R350): where its region was and goes, as physical slice and region, its
list entry, the move cursor, and whether it has flipped. `rate` is the EVACUATE record's; `chan` is the bulk channel that it
runs on, from its first line to its flip. -/
structure EvacEntry where
  entry : Nat
  srcSlice : Nat
  srcRegion : Nat
  dstSlice : Nat
  dstRegion : Nat
  dstList : Nat
  cursor : Nat
  rate : Nat
  flipped : Bool
  chan : Option Nat
  deriving DecidableEq, Repr

/-- A remote slice held by lease (R352, R353): lease number, the chip at the other end, the lender's physical slice or port,
its kind (0 memory, 1 link), and the borrowing instance. -/
structure Lease where
  num : Nat
  chip : Nat
  unit : Nat
  kind : Nat
  inst : Nat
  deriving DecidableEq, Repr

/-- What an instance's Imago holds beside its CMP registers. `snapshot` is the drain snapshot of R350; `leaveCores`,
`leaveLinks` and `freed` are the slices that leave with the chrysalis (R342 to R345); `returned` the leases to give back
(R353); `memKey` and `linkKeys` the key references (R333); `keyBad` is set when the memory key cannot be derived (R461);
`load` is what it is charged on each resource now and `after` once its chrysalis has ended (R341), and `digest` the digest of
its last stream (R463). -/
structure Imago where
  old : Option OldMap
  routes : List Route
  evac : List EvacEntry
  snapshot : Option (List Nat)
  committed : DWord
  leaveCores : List Nat
  leaveLinks : List Nat
  freed : List Nat
  returned : List Lease
  memKey : Option Nat
  memKeyEpoch : Nat
  keyBad : Bool
  linkKeys : SMap Nat
  load : SMap Nat
  after : SMap Nat
  digest : List Byte
  deriving DecidableEq, Repr

/-- An Imago that holds nothing. -/
def Imago.empty : Imago := ⟨none, [], [], none, 0, [], [], [], [], none, 0, false, [], [], [], []⟩

/-- What a lease carries beside CMP_LEASE (R352 to R356): lent, its link-inbound rate, the ports the borrower may enter on,
and the borrower's instar; borrowed, whether it is lost. -/
structure LeaseTerms where
  rate : Nat
  ports : Nat
  instar : Nat
  lost : Bool
  deriving DecidableEq, Repr

/-- The terms of a lease that carries none. -/
def LeaseTerms.empty : LeaseTerms := ⟨0, 0, 0, false⟩

/-- A composition (R316): cores with their AWAKE setting, slice-list words of R361, RB in units of 64 KiB, interleave words,
links, routes, placement ranges (first byte, last byte, hot), borrowed leases, grants in the form of the QOS rate registers
(R278), and key references. -/
structure Comp where
  cores : SMap Bool
  slist : SMap Nat
  rb : Nat
  ilv : List Nat
  links : List Nat
  routes : List Route
  places : List (Nat × Nat × Bool)
  leases : List Lease
  coreRate : SMap Nat
  bulk : Nat
  spill : Nat
  target : Nat
  memKey : Option Nat
  linkKeys : SMap Nat
  deriving DecidableEq, Repr

/-- What a pool stream changes (R320, R352, R356): offers with their terms, leases recalled by CMP_LEASE member, and
link-inbound grants by port, as QOS_LINK_RATE values. -/
structure PoolChange where
  lends : List (Lease × LeaseTerms)
  recalls : List Nat
  rates : SMap Nat
  deriving DecidableEq, Repr

/-- A stream whose checks have passed (R335 to R337): its header's epoch and target (none for the pool), the digest it was
signed over, what it changes, the lease requests still unanswered and those granted, each with its record, the tick they
were sent, and the tick its commit was broadcast. `charge` is the new composition's load and `both` what R341 charges. -/
structure Verif where
  inst : Option Nat
  epoch : Nat
  dry : Bool
  digest : List Byte
  comp : Comp
  evac : List EvacEntry
  gone : List Nat
  pool : PoolChange
  asked : List (Nat × Lease)
  won : List (Nat × Lease)
  askedAt : DWord
  commitAt : Option DWord
  charge : SMap Nat
  both : SMap Nat
  deriving DecidableEq, Repr

/-! ## Mailboxes and firmware requests (R441 to R446) -/

/-- A request that firmware has taken: the window it came from and its 16 words. -/
structure FwReq where
  win : Nat
  words : List Nat
  deriving DecidableEq, Repr

/-- A message on its way to an IN buffer, or to firmware (window 33): the window whose SEND it occupies (33 for firmware), the
recipient's instar when it was sent (R358), and its words as the recipient reads them. -/
structure Mail where
  dest : Nat
  src : Nat
  instar : Nat
  words : List Nat
  deriving DecidableEq, Repr

/-- A reset or removal of an instance in progress (R447 to R450): when it began; whether firmware's request at the front (1) or
INST_FLR (2) reports its end, or nothing (0); whether the instance is removed; and its phase: 0 tearing down, 1 reset, with the
removal's slices leaving. -/
structure InstReset where
  began : DWord
  reply : Nat
  remove : Bool
  phase : Nat
  deriving DecidableEq, Repr

/-! ## The calendar clock (R465 to R468) -/

/-- The calendar clock: seconds and 1/32,768 s; what of a second's 10¹² ps has passed beyond those, times 32,768 (`acc`); the
slew still to make, in ps; the adjustments of the last 24 hours, each with its second and magnitude in ms; seconds in service
of the current hour, the mirror in NOR flash of time and hours (R467), and when VBAT was last sampled. -/
structure Rtc where
  secs : Nat
  frac : Nat
  acc : Nat
  slew : Int
  adjs : List (Nat × Nat)
  service : Nat
  mirror : Nat
  mirrorHours : Nat
  sampled : DWord
  deriving DecidableEq, Repr

/-- A clock at zero. -/
def Rtc.empty : Rtc := ⟨0, 0, 0, 0, [], 0, 0, 0, 0⟩

/-! ## Power, temperature and diapause (R472 to R495) -/

/-- What the power and thermal controllers keep beside the PWR and THM registers: sensor readings in °C (R485); the percentage
each hot stack is paced to (R486); when the arbiter, the calibration and the sensors last ran; when a wing's ceiling last rose;
the excess in mW of the last 1 ms average over the cap (R477); by wing, the tick from which its raises are held (R479), that
at which its voltage began to rise, and that of its last lowering (R474); the cores whose clock is stretched (R478); deferred
cores with their grant from before the cap, the tick it was written, and the collective actions that were running then
(collective, step, receive; R481); by wing, the measured coefficient in use, the last ten counting calibrations, newest first,
and how many counted since the eclosion (R476); the ticks of recent dips and whether they have raised DIP_ALERT (R484); when
the supply's HOLD or RAMP began (R482); since when each wing has been idle (R492); and a re-plan that waits for issue to
resume (R495). -/
structure Power where
  temps : SMap Nat
  pace : SMap Nat
  arbAt : DWord
  calAt : DWord
  sampleAt : DWord
  raisedAt : SMap DWord
  excess : Nat
  holdFrom : SMap DWord
  slew : SMap DWord
  lowAt : SMap DWord
  droops : List Nat
  preCap : SMap Nat
  capAt : DWord
  capOps : List (Nat × Nat × Bool)
  coefs : SMap Nat
  hist : SMap (List Nat)
  counted : SMap Nat
  dips : List DWord
  alerted : Bool
  timerAt : DWord
  wingIdle : SMap DWord
  replanDue : Bool
  deriving DecidableEq, Repr

/-- Power management with nothing measured. -/
def Power.empty : Power := ⟨[], [], 0, 0, 0, [], 0, [], [], [], [], [], 0, [], [], [], [], [], false, 0, [], false⟩

/-! ## Supplies, bring-up and resets (R498 to R538) -/

/-- The always-on domain and the pins it watches, and the bring-up: VIN_AUX is present; VIN_MAIN is removed (0), below its
levels (1) or up (2); phase E0 is over; the VIN_MAIN domains are off; THERM_TRIP_N is asserted, and a trip was logged since the
last power-up (R487); since when FLOW_OK has been asserted; PERST_N is asserted; the host link trains; the bring-up's path
(0 cold, 1 fast, 2 retraining; R498) and what it waits for (0
nothing, 1 FLOW_OK before E3, 2 FLOW_OK before a restart from E1; R536, R538), SELFTEST and RETRAIN of its command; when its phase began, and the phases that already
exceeded their maximum (R500); calendar seconds of counted resets (R524); an escalation to be recorded at E7 (R525); by stack,
temperature and hours at its last training (R501); the
recovery image received (R539); and the losses that this bring-up has found, as TYPE and UNIT, which count though the ledger may
be full (R506). -/
structure Aon where
  aux : Bool
  main : Nat
  e0 : Bool
  off : Bool
  trip : Bool
  tripped : Bool
  flowAt : Option DWord
  perst : Bool
  hostLink : Bool
  path : Nat
  waiting : Nat
  selftest : Bool
  retrain : Bool
  phaseAt : DWord
  retried : List Nat
  escs : List Nat
  oosDue : Bool
  trained : SMap (Nat × Nat)
  image : Mem
  found : List (Nat × Nat)
  deriving DecidableEq, Repr

/-- A part at the start of phase E1 of a cold eclosion, with every reset pin released and no flow seen. -/
def Aon.empty : Aon :=
  ⟨true, 2, true, false, false, false, none, false, false, 0, 0, false, false, 0, [], [], false, [], [], []⟩

/-- A compute reset in progress (R513 to R515): when it began, its cause (R528), and whether its drain has ended. -/
structure CompReset where
  began : DWord
  cause : Nat
  drained : Bool
  deriving DecidableEq, Repr

/-! ## Silk (R252 to R255, R425, R426) -/

/-- Who sent a Silk message: a group's operation, a peer, or the device itself. -/
inductive SilkFrom where
  | group (core grp op : Nat)
  | peer (chip inst tag : Nat)
  | device
  deriving DecidableEq, Repr

/-- A Silk message on its way to its home: operation 0 ADD, 1 READ, 2 WAITGE, 3 TAKE; `epoch` is the Imago's when it was sent
(R338). -/
structure SilkMsg where
  op : Nat
  ctr : Nat
  value : DWord
  src : SilkFrom
  inst : Nat
  instar : Nat
  epoch : Nat
  sent : DWord
  deriving DecidableEq, Repr

/-- A waiter held at a home; older waiters stand earlier in the list. `instar` is the waiting core's, and `epoch` the operation's,
which its release carries (R338). -/
structure SilkWaiter where
  take : Bool
  ctr : Nat
  value : DWord
  src : SilkFrom
  instar : Nat
  epoch : Nat
  deriving DecidableEq, Repr

/-- A release or value on its way to a group (R254, R257): the core and group, its operation, the value, the core's instar,
and the tick of the change. -/
structure SilkReply where
  core : Nat
  grp : Nat
  op : Nat
  value : DWord
  instar : Nat
  sent : DWord
  deriving DecidableEq, Repr

/-! ## Contexts, queues, commands and fences (R362 to R397) -/

/-- A batch saved by preemption, in a frame of its context's save area (R366, R393): its groups, matrix unit, mover queues
and credit lines, accumulator tiles and reservation. -/
structure SavedBatch where
  kernel : Nat
  frame : Nat
  batch : Batch
  m : Matrix
  mover : Mover
  tacc : SMap Word
  taccBad : SMap Bool
  scr : Mem
  marks : SMap WordMark
  deriving DecidableEq, Repr

/-- A defined context (R362, R367), kept by its space ID: its descriptor's fields, the window and instance that own it, its
slot while resident, its saved batches (oldest save first), its slice debt and the unused slice of a displaced holder in
ticks, and when it last held the Imago. `down` is its teardown: the code and the tick it began; `cut` and `drained` count
transfers aborted and drained, `failed` commands failed by it. -/
structure Ctx where
  inst : Nat
  win : Nat
  desc : Nat
  prio : Nat
  sliceUs : Nat
  frames : Nat
  saveVa : Nat
  objVa : Nat
  objCount : Nat
  slot : Option Nat
  saved : List SavedBatch
  debt : Nat
  left : Option Nat
  ran : DWord
  down : Option (Nat × DWord)
  downAborted : Bool
  cut : Nat
  drained : Nat
  failed : Nat
  deriving DecidableEq, Repr

/-- The scheduler of an Imago (R388, R389, R391): when the holder's slice started and its length in ticks (none before the
handover to it completes), the space that is yielding and the tick its slice ended, the displaced holders with their
priorities, the last holder's slot of each priority, and the longest overrun of the handover in progress. -/
structure Sched where
  start : Option DWord
  len : Nat
  old : Option Nat
  yieldAt : DWord
  displaced : List (Nat × Nat)
  last : SMap Nat
  late : Nat
  deriving DecidableEq, Repr

/-- A scheduler before its first holder. -/
def Sched.empty : Sched := ⟨none, 0, none, 0, [], [], 0⟩

/-- A queue descriptor (R374 to R376): its context's space, window and number there, ring, size, error mode and status block;
its state (4 while its creation waits for its instar, R404), code, failing index, completions, HEAD and last accepted TAIL;
entries taken since the status block was written; and its commands on chip, in ring order. `badBell` marks a stop by a
doorbell (R376), `flush` counts visible entries that a FLUSH fails, `held` is the failure (code, ring index, TAG) that the
queue reacts to when a reset's fence is lifted (R514), and `progress` is the tick of its last progress (R520). -/
structure Queue where
  space : Nat
  win : Nat
  num : Nat
  ring : Nat
  log2 : Nat
  mode : Nat
  status : Nat
  state : Nat
  code : Nat
  failedAt : Nat
  completed : Nat
  head : Nat
  tail : Nat
  taken : Nat
  cmds : List Nat
  badBell : Bool
  flush : Nat
  held : Option (Nat × Nat × Nat)
  progress : DWord
  deriving DecidableEq, Repr

/-- A command on chip (R377, R378, R385). `bad` is the error of its validation, 0 for none; `refs` the object table indices
it references; `start` the tick it started; `begun` whether its own action has been taken; `next` what it deals next
(descriptor, byte, page or operation); `running` its transfers outstanding; `err` its first failure; `fin` its end's code,
until COMMAND_COMPLETE, which has written its record once `post` is set. `kept` are descriptors taken off their channels at a
handover; `quiet` marks a failure its queue does not react to (a propagated, flushed or torn down one). `stalled` counts ticks
stalled on translation faults (R300); `old` is the result of an ATOMIC_SEQ operation that is performed and not yet written,
and whether the sequence ends with it (R292). The rest goes into its completion record. -/
structure Cmd where
  queue : Nat
  idx : Nat
  bytes : List Byte
  space : Nat
  inst : Nat
  win : Nat
  bad : Nat
  fenceOk : Bool
  refs : List Nat
  start : Option DWord
  begun : Bool
  next : Nat
  running : Nat
  err : Nat
  fin : Option Nat
  count : Nat
  flags : Flags
  poisoned : Nat
  written : Nat
  capped : Bool
  preempted : Bool
  overrun : Bool
  overPosted : Bool
  stalled : Nat
  kept : List Desc
  quiet : Bool
  post : Bool
  old : Option (Nat × Bool)
  deriving DecidableEq, Repr

/-- An object that commands reference, or that is being freed (R369). -/
structure ObjRec where
  refs : Nat
  freeing : Bool
  handle : Nat
  va : Nat
  bytes : Nat
  deriving DecidableEq, Repr

/-- Who waits for a fence: a queue's WAIT, with the queue's instar, or a peer's. -/
inductive WaitFrom where
  | queue (q cmd instar : Nat)
  | peer (chip inst tag instar : Nat)
  deriving DecidableEq, Repr

/-- A waiter of a fence (R371): the fence's global physical address and the value it waits for. -/
structure FenceWaiter where
  gpa : Nat
  value : DWord
  src : WaitFrom
  deriving DecidableEq, Repr

/-- A fence operation sent to its home on another chip (R372): the home, the command that waits for it (0 where none does),
whether it is a wait, the tick it was sent, and the space, instance and epoch it was sent for. -/
structure FenceOut where
  dest : Nat
  queue : Nat
  cmd : Nat
  wait : Bool
  sent : DWord
  space : Nat
  inst : Nat
  epoch : Nat
  deriving DecidableEq, Repr

end Sys2Proof.Machine
end

