-- ==== Sys2Proof/Machine/State.lean ====
section
/-!
DEFINITION. The state of the LB-9620 (every chapter): plain data. The types of its parts are in CoreTypes.lean and
SysTypes.lean; the registers that the register tables define are in `regs`, at the addresses RegTable.lean gives. `reset` is
the part at the start of eclosion phase E1, and Fault and Refusal are the reasons a step may stop.
-/

namespace Sys2Proof.Machine

/-- The state of the block, in the order of the chapters. Maps that list no key hold a default there. -/
structure State where
  /-- The registers that have been set, by address; an unlisted one holds its reset value. An instance's own copies lie one
  window span further per instance. -/
  regs : SMap DWord
  /-- The latches of 64-bit registers. -/
  latches : List Latch
  /-- What the last access of a host or register requester returned. -/
  reply : Reply
  /-- The fabric time base, in ticks. -/
  now : DWord
  /-- Ticks by which the time base still has to move toward its parent's (R424). -/
  timeSlew : Int
  /-- When the time base last slewed by a tick. -/
  slewAt : DWord
  /-- The time base has been synchronised since the bring-up. -/
  synced : Bool
  /-- The model's own field: how many free values have been drawn (log entry 5). -/
  freeCtr : Nat
  /-- The model's own field: the next number of an operation, request, tile, walk or command. -/
  nextId : Nat
  /-- Cores, by logical ID. -/
  cores : SMap Core
  /-- The physical core of each logical ID: wing × 20 + position (R508). -/
  corePhys : SMap Nat
  /-- Kernels in progress. -/
  kernels : SMap Kernel
  /-- Global accesses and Silk operations that groups have issued. -/
  ops : SMap ThreadOp
  /-- Per-core movers, and bulk clusters from 256. -/
  movers : SMap Mover
  /-- Memory requests outstanding at their masters. -/
  reqs : SMap MemReq
  /-- The bytes of HBM, by local physical address. -/
  hbm : Mem
  /-- Poisoned 32-byte sectors of HBM. -/
  hbmPoison : SMap Bool
  /-- The lines in the memory-side buffer. -/
  bufs : SMap BufLine
  /-- Host memory, by PCIe bus address. -/
  host : Mem
  /-- Poisoned 32-byte sectors of host memory. -/
  hostPoison : SMap Bool
  /-- The first tick of the regulator window in progress (R264). -/
  winStart : DWord
  /-- Its length in ticks. -/
  winLen : Nat
  /-- What the regulators have counted in it. -/
  regCounts : SMap Nat
  /-- Rates that still apply until it ends (R266). -/
  qosOld : SMap DWord
  /-- Instances whose deadline miss it has already reported (R275). -/
  missPosted : List Nat
  /-- Resends in a row on a bridge link (R230). -/
  bridgeRun : SMap Nat
  /-- Where the scrubber stands (R250). -/
  scrubPos : SMap Nat
  /-- Tiles in translation. -/
  tiles : SMap Tile
  /-- Since when an owner's progress has been stalled on faults alone (R300). -/
  stallAt : SMap DWord
  /-- Page walks in progress. -/
  walks : SMap Walk
  /-- Cached translations. -/
  tlb : List TlbEntry
  /-- Cached table pointers. -/
  wcache : List WalkCacheEntry
  /-- The fault tracker. -/
  tracker : SMap TrackEntry
  /-- Invalidations in progress. -/
  invals : SMap Inval
  /-- Fault records held for a window's fault queue. -/
  fqHeld : SMap (List (List Byte))
  /-- What resident context slots keep of the space table. -/
  slots : SMap SlotInfo
  /-- Gate units, by wing. -/
  gates : SMap Gate
  /-- Landing slots that are not free. -/
  landing : SMap LandSlot
  /-- Event records held for a window's event queue. -/
  evHeld : SMap (List (List Byte))
  /-- Fault and event rings: 2 × window, plus 1 for the event queue. -/
  rings : SMap Ring
  /-- Armed bits: of rings, by the same number; 100 for PWR_EVT, 101 for RST_EVT. -/
  armed : List Nat
  /-- Rings whose message is due. -/
  msixDue : List Nat
  /-- When a ring's last message was sent. -/
  msixLast : SMap DWord
  /-- The MSI-X messages sent, as window and vector, oldest first. -/
  msix : List (Nat × Nat)
  /-- Instars of queues and instances. -/
  instars : SMap Nat
  /-- When a unit's instar last advanced. -/
  instarAt : SMap DWord
  /-- Advances that wait for 100 µs to pass. -/
  instarDue : SMap Nat
  /-- Silk messages on their way to a home. -/
  silkMsgs : SMap SilkMsg
  /-- Waiters held at homes. -/
  silkWaiters : List SilkWaiter
  /-- Releases and values on their way to groups. -/
  silkReplies : SMap SilkReply
  /-- Peers' waiters whose release has been sent and not answered. -/
  silkSent : List SilkWaiter
  /-- Link ports. -/
  ports : SMap Port
  /-- Messages that have arrived, with their port, oldest first. -/
  linkIn : List (Nat × LinkMsg)
  /-- Requests of peers in progress. -/
  linkReqs : SMap LinkJob
  /-- Rotations over a destination's ports (R270). -/
  linkRr : SMap Nat
  /-- What a peer entry keeps beside LNK_PEER. -/
  peers : SMap PeerInfo
  /-- Silk counters that are custody words. -/
  custody : List Nat
  /-- The custody operation in progress. -/
  custOp : Option CustOp
  /-- Collectives, by their number. -/
  colls : SMap Coll
  /-- The boot nonce (R418, R508). -/
  bootNonce : Nat
  /-- When HELLO was last sent. -/
  lastHello : DWord
  /-- When ADVERT was last sent. -/
  lastAdvert : DWord
  /-- When TIME was last sent. -/
  lastTime : DWord
  /-- What an Imago holds beside its CMP registers. -/
  imagos : SMap Imago
  /-- The stream that has been verified and is not committed. -/
  verif : Option Verif
  /-- What a lease carries beside CMP_LEASE. -/
  leaseTerms : SMap LeaseTerms
  /-- Memory slices freed by the pool's last commit. -/
  poolFreed : List Nat
  /-- Defined contexts, by space ID. -/
  ctxs : SMap Ctx
  /-- The scheduler of each Imago. -/
  scheds : SMap Sched
  /-- Queue descriptors. -/
  queues : SMap Queue
  /-- Commands on chip. -/
  cmds : SMap Cmd
  /-- Objects referenced or being freed. -/
  objs : SMap ObjRec
  /-- Waiters of fences. -/
  fenceWaiters : List FenceWaiter
  /-- Fence operations sent to other chips. -/
  fenceOuts : SMap FenceOut
  /-- Requests that firmware has taken. -/
  fwq : List FwReq
  /-- Mailbox messages on their way. -/
  mail : List Mail
  /-- Instance resets and removals in progress. -/
  instResets : SMap InstReset
  /-- NumVFs of the physical function. -/
  numVfs : Nat
  /-- The material of key slots. -/
  keyMat : SMap (List Byte)
  /-- Composition verification keys, which persist in NOR flash. -/
  cvks : SMap (List Byte)
  /-- The calendar clock. -/
  rtc : Rtc
  /-- Fuses and NOR flash. -/
  flash : Flash
  /-- Power, thermal and diapause state. -/
  power : Power
  /-- Times over which issue was stopped (R483). -/
  stops : List (DWord × DWord)
  /-- Since when issue has been stopped. -/
  stopSince : Option DWord
  /-- The always-on domain, the pins, and the bring-up in progress. -/
  aon : Aon
  /-- Compute resets in progress: by instance, and 32 for the chip. -/
  resets : SMap CompReset
  /-- The commands that wait, first in, first out. -/
  pending : List Instr
  deriving DecidableEq, Repr

/-- Why a step stops with a fault: no command does. Every error the spec describes is state: a status, a record, a reply. -/
inductive Fault where
  deriving DecidableEq, Repr

/-- Why a step is refused. -/
inductive Refusal where
  /-- A command that has no meaning yet. -/
  | notModelled (mnemonic : String)
  /-- Raised by TAP_INSTRUCTION for an instruction other than BYPASS and IDCODE while TRST_N is high: the part's behaviour is
  not specified then (R540). Safe: the model goes no further. -/
  | testAccess
  deriving DecidableEq, Repr

/-- The part at the start of phase E1 of a cold eclosion (R498, R499): every register at its reset value but RST_STATE.PHASE
and RST_LAST (5, a cold eclosion), nothing in memory, and no command waiting. -/
def State.reset : State where
  regs := [(0xD00000, 1), (0xD00010, 5)]
  latches := []
  reply := ⟨true, false, []⟩
  now := 0
  timeSlew := 0
  slewAt := 0
  synced := false
  freeCtr := 0
  nextId := 1
  cores := []
  corePhys := []
  kernels := []
  ops := []
  movers := []
  reqs := []
  hbm := []
  hbmPoison := []
  bufs := []
  host := []
  hostPoison := []
  winStart := 0
  winLen := 500
  regCounts := []
  qosOld := []
  missPosted := []
  bridgeRun := []
  scrubPos := []
  tiles := []
  stallAt := []
  walks := []
  tlb := []
  wcache := []
  tracker := []
  invals := []
  fqHeld := []
  slots := []
  gates := []
  landing := []
  evHeld := []
  rings := []
  armed := []
  msixDue := []
  msixLast := []
  msix := []
  instars := []
  instarAt := []
  instarDue := []
  silkMsgs := []
  silkWaiters := []
  silkReplies := []
  silkSent := []
  ports := []
  linkIn := []
  linkReqs := []
  linkRr := []
  peers := []
  custody := []
  custOp := none
  colls := []
  bootNonce := 0
  lastHello := 0
  lastAdvert := 0
  lastTime := 0
  imagos := []
  verif := none
  leaseTerms := []
  poolFreed := []
  ctxs := []
  scheds := []
  queues := []
  cmds := []
  objs := []
  fenceWaiters := []
  fenceOuts := []
  fwq := []
  mail := []
  instResets := []
  numVfs := 0
  keyMat := []
  cvks := []
  rtc := Rtc.empty
  flash := Flash.empty
  power := Power.empty
  stops := []
  stopSince := none
  aon := Aon.empty
  resets := []
  pending := []

end Sys2Proof.Machine
end

