-- ==== Sys2Proof/Machine/Ops.lean ====
section
/-!
DEFINITION. The named operations over the state: registers and their fields, time, cores, groups and kernels, and the
kernel stop sequence's first step (R101 to R103). Every meaning reaches the state through these.
-/

namespace Sys2Proof.Machine

/-- The outcome of a command. -/
abbrev Out := Host.Outcome State Fault Refusal

/-- A command's effect followed by another's. -/
def andThen (o : Out) (f : State → Out) : Out :=
  match o with
  | .next s => f s
  | .fault x => .fault x
  | .refused x => .refused x

/-! ## Registers -/

/-- The value member `k` of a register holds after reset (R21). -/
def resetOf (r : Reg) (k : Nat) : Nat := if r.rsts = [] then r.rst else r.rsts.getD k 0

/-- The size of an instance's window (R12): window `w` is the physical function's for 0 and instance `w − 1`'s otherwise. -/
def windowSpan : Nat := 0x4000000

/-- The key of member `k` of a register in a window. -/
def regKey (r : Reg) (k win : Nat) : Nat := win * windowSpan + r.base + k * r.stride

/-- The value of member `k` of a register. -/
def getR (s : State) (r : Reg) (k : Nat := 0) (win : Nat := 0) : Nat :=
  ((mfind s.regs (regKey r k win)).map BitVec.toNat).getD (resetOf r k)

/-- Sets member `k` of a register. -/
def setR (s : State) (r : Reg) (k v : Nat) (win : Nat := 0) : State :=
  { s with regs := mput s.regs (regKey r k win) (BitVec.ofNat 64 v) }

/-- The value of a field of member `k` of a register. -/
def getF (s : State) (f : RF) (k : Nat := 0) (win : Nat := 0) : Nat := bitsOf (getR s f.reg k win) f.lo f.width

/-- Sets a field of member `k` of a register; the other bits stay. -/
def setF (s : State) (f : RF) (k v : Nat) (win : Nat := 0) : State :=
  setR s f.reg k (setBits (getR s f.reg k win) f.lo f.width v) win

/-- Is a one-bit field of member `k` set? -/
def flagF (s : State) (f : RF) (k : Nat := 0) (win : Nat := 0) : Bool := getF s f k win ≠ 0

/-- Adds to a 64-bit counter, which wraps modulo 2⁶⁴. -/
def countR (s : State) (r : Reg) (k n : Nat) (win : Nat := 0) : State := setR s r k ((getR s r k win + n) % 2 ^ 64) win

/-- Adds to a counter field that saturates at its largest value. -/
def satF (s : State) (f : RF) (k n : Nat) (win : Nat := 0) : State := setF s f k (satAdd f.width (getF s f k win) n) win

/-! ## Time (R9) -/

/-- Ticks in a microsecond: a tick is 4 ns. -/
def usTicks : Nat := 250

/-- Ticks in a millisecond. -/
def msTicks : Nat := 250000

/-- Ticks in a second. -/
def secTicks : Nat := 250000000

/-- The ticks that have passed since `t`. -/
def since (s : State) (t : DWord) : Nat := (s.now - t).toNat

/-- Have `n` ticks passed since `t`? -/
def due (s : State) (t : DWord) (n : Nat) : Bool := n ≤ since s t

/-- The ticks since `t` in which issue was not stopped (R483). `stops` lists the stops that are over. -/
def sinceRun (s : State) (t : DWord) : Nat :=
  let part (a b : DWord) : Nat := min b.toNat s.now.toNat - max a.toNat t.toNat
  let cur := match s.stopSince with
    | some a => part a s.now
    | none => 0
  since s t - (cur + s.stops.foldl (fun x p => x + part p.1 p.2) 0)

/-- Have `n` ticks in which issue was not stopped passed since `t`? -/
def dueRun (s : State) (t : DWord) (n : Nat) : Bool := n ≤ sinceRun s t

/-- Is issue stopped chip-wide: the supply monitor is in WARNING or HOLD, or a coolant stop is in force (R483)? -/
def chipStopped (s : State) : Bool :=
  getF s f_PWR_STATUS_SUPPLY = 1 || getF s f_PWR_STATUS_SUPPLY = 2 || flagF s f_PWR_STATUS_COOLANT_STOP

/-- Does the device hold its cores, Gate units and bulk channels in reset, being out of service (R525)? -/
def computeHeld (s : State) : Bool := flagF s f_RST_STATE_OUT_OF_SERVICE

/-- May cores, Gate units, movers and bulk channels issue nothing, chip-wide (R483, R525)? -/
def mastersStopped (s : State) : Bool := chipStopped s || computeHeld s

/-- Does a wing's issue stop: chip-wide, or by a thermal emergency (R485)? -/
def wingStopped (s : State) (w : Nat) : Bool := mastersStopped s || flagF s f_THM_WING_EMERGENCY w

/-- A number that no earlier operation, tile, request or walk carries. -/
def fresh (s : State) : Nat × State := (s.nextId, { s with nextId := s.nextId + 1 })

/-- A free value of `w` bits: the spec states none, and no other free value constrains it (log entry 5). -/
def freeVal (s : State) (w : Nat) : Nat × State :=
  (Config.freeBits s.freeCtr w % 2 ^ w, { s with freeCtr := s.freeCtr + 1 })

/-- `n` free bytes. -/
def freeBytes (s : State) (n : Nat) : List Byte × State :=
  let v := freeVal s (8 * n)
  (leBytes n v.1, v.2)

/-! ## Cores and groups -/

/-- A core. -/
def core (s : State) (c : Nat) : Core := mget Core.empty s.cores c

/-- HBM, host memory and every core's scratchpad have the canonical form. -/
def MemoriesWf (s : State) : Prop := Memory.wf s.hbm = true ∧ Memory.wf s.host = true ∧ ∀ c, Memory.wf (core s c).scr = true

/-- Replaces a core. -/
def setCore (s : State) (c : Nat) (k : Core) : State := { s with cores := mput s.cores c k }

/-- Changes a core. -/
def modCore (s : State) (c : Nat) (f : Core → Core) : State := setCore s c (f (core s c))

/-- The physical wing index of a logical core (R29): enabled cores are numbered in ascending wing order, so the wing is
the last whose first ID does not exceed the core's. -/
def wingOf (s : State) (c : Nat) : Nat :=
  ((List.range 8).filter (fun w => getF s f_CHIP_CAP_WING_ENABLED w ≠ 0 && getF s f_CHIP_CAP_WING_FIRST_ID w ≤ c)).foldl max 0

/-- The base die of a logical core: wings 2n and 2n + 1 lie on die n. -/
def dieOfCore (s : State) (c : Nat) : Nat := wingOf s c / 2

/-- A core's clocks, in twentieths: at a frequency of n steps of 12.5 MHz, n twentieths of a clock pass in a tick. -/
def clock20 (s : State) (c : Nat) : Nat :=
  let k := core s c
  k.clkBase + (s.now - k.clkStamp).toNat * k.clkSteps

/-- The core's CLOCK (R98). -/
def coreClock (s : State) (c : Nat) : DWord := BitVec.ofNat 64 (clock20 s c / 20)

/-- Changes the frequency a core's clock advances at; its count so far is kept. -/
def retimeCore (s : State) (c steps : Nat) : State :=
  let b := clock20 s c
  modCore s c (fun k => { k with clkBase := b, clkStamp := s.now, clkSteps := steps })

/-- The batch on a core. -/
def batchOf (s : State) (c : Nat) : Option Batch := (core s c).batch

/-- Replaces the batch on a core. -/
def setBatch (s : State) (c : Nat) (b : Option Batch) : State := modCore s c (fun k => { k with batch := b })

/-- A group of the batch on a core. -/
def groupOf (s : State) (c g : Nat) : Option Group := (batchOf s c).bind (fun b => mfind b.groups g)

/-- Replaces a group of the batch on a core. -/
def setGroup (s : State) (c g : Nat) (v : Group) : State :=
  match batchOf s c with
  | none => s
  | some b => setBatch s c (some { b with groups := mput b.groups g v })

/-- A kernel. -/
def kernel (s : State) (k : Nat) : Kernel := mget Kernel.empty s.kernels k

/-- Changes a kernel. -/
def modKernel (s : State) (k : Nat) (f : Kernel → Kernel) : State :=
  { s with kernels := mput s.kernels k (f (kernel s k)) }

/-- The kernel whose batch runs on a core. -/
def kernelOn (s : State) (c : Nat) : Kernel :=
  match batchOf s c with
  | none => Kernel.empty
  | some b => kernel s b.kernel

/-- Scratchpad bytes a batch may address: the reservation and the speculative region (R72, R90). -/
def scrLimit (l : Launch) : Nat := (l.scrPages + l.specPages) * 4096

/-! ## Movers -/

/-- A mover. -/
def mover (s : State) (u : Nat) : Mover := mget Mover.empty s.movers u

/-- A channel of a mover. -/
def chan (s : State) (u k : Nat) : Chan := mget Chan.empty (mover s u).chans k

/-- Replaces a channel of a mover. -/
def setChan (s : State) (u k : Nat) (v : Chan) : State :=
  { s with movers := mput s.movers u { mover s u with chans := mput (mover s u).chans k v } }

/-- A credit line of a mover (R214). -/
def credit (s : State) (u line : Nat) : Nat := mget 0 (mover s u).credits line

/-- Sets a credit line. -/
def setCredit (s : State) (u line v : Nat) : State :=
  { s with movers := mput s.movers u { mover s u with credits := mset 0 (mover s u).credits line v } }

/-- Raises a credit line by `n`: it saturates at 65,535, and CREDIT_OVF of a core's mover is then set (R214). -/
def raiseCredit (s : State) (u line n : Nat) : State :=
  let v := credit s u line + n
  if v ≤ 65535 then setCredit s u line v
  else
    let s' := setCredit s u line 65535
    if u < 144 then setF s' f_TMV_CORE_STAT_CREDIT_OVF u 1 else s'

/-! ## Kernel faults (R100 to R103) -/

/-- The error codes of R387. -/
def errCommandInvalid : Nat := 0x0101
def errLaunchInvalid : Nat := 0x0102
def errMatrixParam : Nat := 0x0103
def errMoverParam : Nat := 0x0104
def errGateParam : Nat := 0x0105
def errBstFormat : Nat := 0x0106
def errSparseIndex : Nat := 0x0107
def errAddressRange : Nat := 0x0108
def errIllegalInstr : Nat := 0x0201
def errMisaligned : Nat := 0x0202
def errScratchRange : Nat := 0x0203
def errCodeRange : Nat := 0x0204
def errDivergeDepth : Nat := 0x0205
def errSilkRange : Nat := 0x0206
def errAtomicTarget : Nat := 0x0207
def errKernelAbort : Nat := 0x0208
def errMatrixOperand : Nat := 0x0209
def errScratchPeer : Nat := 0x020A
def errGateSource : Nat := 0x020B
def errGateUnavailable : Nat := 0x020C
def errDataPoison : Nat := 0x0301
def errScratchEcc : Nat := 0x0302
def errAccEcc : Nat := 0x0303
def errSaveCorrupt : Nat := 0x0304
def errXltAborted : Nat := 0x0401
def errSaveFault : Nat := 0x0402
def errObjectRetired : Nat := 0x0501
def errObjectInvalid : Nat := 0x0502
def errWaitTimeout : Nat := 0x0503
def errFenceInvalid : Nat := 0x0504
def errContextDestroyed : Nat := 0x0601
def errProducerLost : Nat := 0x0602
def errQueueFlushed : Nat := 0x0603
def errTransferAborted : Nat := 0x0604
def errStaleTarget : Nat := 0x0605
def errFenced : Nat := 0x0701
def errResetAbort : Nat := 0x0702
def errHangTimeout : Nat := 0x0703
def errPeerComputeReset : Nat := 0x0801
def errPeerLost : Nat := 0x0802
def errRemoteError : Nat := 0x0803
def errKeyBad : Nat := 0x0901

/-- The order of R102: earliest tick, then lower core, group and lane. -/
def faultBefore (a b : FaultInfo) : Bool :=
  if a.tick ≠ b.tick then a.tick < b.tick
  else if a.core ≠ b.core then a.core < b.core
  else if a.group ≠ b.group then a.group < b.group
  else a.lane < b.lane

/-- A batch that a teardown or a reset's fence reaches: it stops for that reason, from the tick at which it first stopped
(R546). -/
def Batch.stopFor (b : Batch) (why : StopWhy) (now : DWord) : Batch :=
  { b with why := why, stopAt := if b.why = .running then now else b.stopAt }

/-- Stops issue from every batch of a kernel (R101). A batch that a preemption already stops is no longer saved, and keeps the
earlier limit; one that a teardown or a reset stops is not changed (R546). -/
def stopBatches (s : State) (kid : Nat) : State :=
  { s with cores := s.cores.map (fun kv =>
      match kv.2.batch with
      | some b =>
        if b.kernel = kid && b.why = .running then
          (kv.1, { kv.2 with batch := some { b with why := .fault, stopAt := s.now } })
        else if b.kernel = kid && b.why = .preempt then
          (kv.1, { kv.2 with batch := some { b with why := .fault, deferred := [] } })
        else kv
      | none => kv) }

/-- The faults that the batches of a kernel hold until they resume (R103). -/
def deferredFaults (s : State) (kid : Nat) : Nat :=
  (s.cores.filterMap (fun kv => kv.2.batch)).foldl (fun n b => if b.kernel = kid then n + b.deferred.length else n) 0

/-- Notes a fault of a kernel: the first stops the kernel; a later one is counted, and replaces the first only when R102's
order puts it first (R103). A fault held for the resumption of a batch that now does not resume is counted (log entry 59). -/
def noteFault (s : State) (kid : Nat) (fi : FaultInfo) : State :=
  let k := kernel s kid
  match k.fault with
  | none => stopBatches (modKernel s kid (fun k => { k with
      fault := some fi, stopAt := some s.now, others := satAdd 16 k.others (deferredFaults s kid) })) kid
  | some f =>
    modKernel s kid (fun k =>
      { k with others := satAdd 16 k.others 1, fault := some (if faultBefore fi f then fi else f) })

/-- A fault found on a core: raised at once, only counted during a teardown or a reset, and held until the batch resumes
during a preemption (R103, R546). -/
def coreFault (s : State) (c : Nat) (fi : FaultInfo) : State :=
  match batchOf s c with
  | none => s
  | some b =>
    match b.why with
    | .teardown | .reset => modKernel s b.kernel (fun k => { k with others := satAdd 16 k.others 1 })
    | .preempt => setBatch s c (some { b with deferred := b.deferred ++ [fi] })
    | _ => noteFault s b.kernel fi

/-- The detail of a fault that lanes of a group meet (R102). -/
def groupFault (s : State) (c g : Nat) (code : Nat) (lanes : Word) (lane : Nat) (addr : DWord) : FaultInfo :=
  let b := batchOf s c
  let gr := (groupOf s c g).getD Group.empty
  ⟨code, s.now, c, g, gr.lin, (b.map Batch.index).getD 0, lane, lanes, gr.pc, addr, none⟩

/-- The lowest lane of a mask, 0 for an empty one. -/
def lowLane (m : Word) : Nat := ((List.range 32).find? (fun l => m.getLsbD l)).getD 0

/-- Raises a fault of a group's instruction in some lanes. -/
def threadFault (s : State) (c g code : Nat) (lanes : Word) (addr : DWord) : State :=
  coreFault s c (groupFault s c g code lanes (lowLane lanes) addr)

end Sys2Proof.Machine
end

