-- ==== Sys2Proof/Machine/Events.lean ====
section
/-!
DEFINITION. Instars (R357 to R359), event records and their queues (R276, R398 to R402), and interrupt messages.
-/

namespace Sys2Proof

/-- A unit's key among instars. -/
def Unit8.key : Unit8 → Nat
  | .core c => c
  | .queue q => 0x10000 + q
  | .slot k => 0x20000 + k
  | .inst i => 0x30000 + i

/-- A unit's kind in CMP_STALE_KIND (R361). -/
def Unit8.kind : Unit8 → Nat
  | .core _ => 0
  | .queue _ => 1
  | .slot _ => 2
  | .inst _ => 3

namespace Machine

/-! ## Instars (R357) -/

/-- A unit's instar: a core's and a slot's are register fields, the others are internal. -/
def instarOf (s : State) : Unit8 → Nat
  | .core c => getF s f_CMP_CORE_INSTAR c
  | .slot k => getF s f_SCH_SLOT_INSTAR k
  | u => mget 0 s.instars u.key

/-- Sets a unit's instar. -/
def setInstar (s : State) (u : Unit8) (v : Nat) : State :=
  match u with
  | .core c => setF s f_CMP_CORE_INSTAR c v
  | .slot k => setF s f_SCH_SLOT_INSTAR k v
  | _ => { s with instars := mset 0 s.instars u.key (v % 256) }

/-- The least time between two advances of an instar: 100 µs. -/
def instarGap : Nat := 100 * usTicks

/-- May a unit's instar advance now? -/
def instarReady (s : State) (u : Unit8) : Bool :=
  match mfind s.instarAt u.key with
  | none => true
  | some t => due s t instarGap

/-- Advances a unit's instar by 1, modulo 256. -/
def stepInstar (s : State) (u : Unit8) : State :=
  let s' := setInstar s u ((instarOf s u + 1) % 256)
  { s' with instarAt := mput s'.instarAt u.key s.now }

/-- An event of R357 advances a unit's instar: at once, or, within 100 µs of the last advance, when INSTAR_ADVANCE comes. -/
def advanceInstar (s : State) (u : Unit8) : State :=
  if instarReady s u && mget 0 s.instarDue u.key = 0 then stepInstar s u
  else { s with instarDue := mset 0 s.instarDue u.key (mget 0 s.instarDue u.key + 1) }

/-- Discards a message whose instar is stale: it is counted, in all and by the unit's kind (R359). -/
def countStale (s : State) (u : Unit8) : State := countR (countR s r_CMP_STALE 0 1) r_CMP_STALE_KIND u.kind 1

/-! ## Interrupts (R402) -/

/-- Sends an MSI-X message of a window. -/
def sendMsi (s : State) (win vec : Nat) : State := { s with msix := s.msix ++ [(win, vec)] }

/-- A record posted to queue `q` of a window (0 fault queue, 1 event queue): an armed queue's message falls due, and the
armed bit clears; a queue whose EN is 0 sends none (R402). -/
def notifyQueue (s : State) (win q : Nat) : State :=
  if s.armed.contains (2 * win + q) then
    let s' := { s with armed := s.armed.filter (fun x => x ≠ 2 * win + q) }
    let en := if q = 0 then flagF s f_EVT_IRQ_CFG_FQ_EN 0 win else flagF s f_EVT_IRQ_CFG_EQ_EN 0 win
    if en then { s' with msixDue := s'.msixDue ++ [2 * win + q] } else s'
  else s

/-- Arms a queue: it is enabled, or its head is written (R402). -/
def armQueue (s : State) (win q : Nat) : State :=
  if s.armed.contains (2 * win + q) then s else { s with armed := s.armed ++ [2 * win + q] }

/-- MSIX_SEND: a queue's due message is sent no sooner than EVT_IRQ_MOD.US after its previous one (R402). -/
def execMsixSend (win q : Nat) (s : State) : Out :=
  .next (
    let k := 2 * win + q
    let wait := getF s f_EVT_IRQ_MOD_US 0 win * usTicks
    let ok := match mfind s.msixLast k with
      | none => true
      | some t => due s t wait
    if s.msixDue.contains k && ok then
      let vec := if q = 0 then getF s f_EVT_IRQ_CFG_FQ_VEC 0 win else getF s f_EVT_IRQ_CFG_EQ_VEC 0 win
      sendMsi { s with msixDue := s.msixDue.erase k, msixLast := mput s.msixLast k s.now } win vec
    else s)

/-! ## Event records (R276, R398 to R401) -/

/-- Records that are never dropped: KERNEL_FAULT, OBJECT_RETIRED and QUIESCE (R401). -/
def keptRecord (rec : List Byte) : Bool :=
  match rec with
  | t :: _ => t = 0x10 || t = 0x11 || t = 0x12
  | [] => false

/-- Hands a record of 56 bytes to a window's event queue: it is held until EVENT_RECORD_POST writes it, and beyond 1,024
held records it is dropped and counted, unless it is of a kept kind (R401). -/
def postEvent (s : State) (win : Nat) (rec : List Byte) : State :=
  let held := mget [] s.evHeld win
  if 1024 ≤ held.length && !keptRecord rec then countR s r_EVT_EQ_LOST 0 1 win
  else { s with evHeld := mput s.evHeld win (held ++ [rec]) }

/-- A record of R400. -/
def eventRecord (type code space : Nat) (a0 a1 a2 : Nat) (tick : DWord) : List Byte :=
  leBytes 1 type ++ [0] ++ leBytes 2 code ++ leBytes 4 space ++ leBytes 8 a0 ++ leBytes 8 a1 ++ leBytes 8 a2
    ++ List.replicate 16 0 ++ leBytes 8 tick.toNat

/-- A fabric fault record (R276), in the form it has in an event queue (R398). -/
def fabricRecord (type info master inst epoch addr deadline : Nat) (tick : DWord) : List Byte :=
  leBytes 1 type ++ leBytes 1 info ++ leBytes 2 master ++ leBytes 1 inst ++ [0] ++ leBytes 2 epoch ++ leBytes 8 addr
    ++ leBytes 8 deadline ++ leBytes 8 tick.toNat ++ List.replicate 24 0

/-- Posts a fabric fault to the manager, when QOS_CFG.FAULT_EVT is 1 (R276). -/
def fabricFault (s : State) (type info master inst epoch addr deadline : Nat) : State :=
  if flagF s f_QOS_CFG_FAULT_EVT then postEvent s 0 (fabricRecord type info master inst epoch addr deadline s.now) else s

/-- The window of an instance: 0xFF, the manager, has the physical function's. -/
def winOf (inst : Nat) : Nat := if inst < 32 then inst + 1 else 0

/-- The entries of a window's event ring. -/
def eqSize (s : State) (win : Nat) : Nat := 2 ^ getF s f_EVT_EQ_SIZE_LOG2 0 win

/-- Is a window's event queue enabled and not full (R297, R398)? -/
def eqRoom (s : State) (win : Nat) : Bool :=
  flagF s f_EVT_EQ_BASE_ENABLE 0 win
    && (getF s f_EVT_EQ_TAIL_INDEX 0 win + 1) % eqSize s win ≠ getF s f_EVT_EQ_HEAD_INDEX 0 win

/-- The PHASE of the record a ring posts next: 1 in its first pass, alternating with each later pass (R297). -/
def ringPhase (r : Ring) : Nat := 1 - r.passes % 2

/-- A ring after it has posted at index `tail` of `size`. -/
def ringNext (r : Ring) (tail size : Nat) : Ring := ⟨r.posted + 1, if tail + 1 < size then r.passes else r.passes + 1⟩

/-- EVENT_RECORD_POST: the oldest held record is written at the tail with its SEQ and PHASE, the tail advances, and the
queue notifies (R398, R401, R402). -/
def execEventRecordPost (win : Nat) (s : State) : Out :=
  .next (match mget [] s.evHeld win with
    | [] => s
    | rec :: rest =>
      if !eqRoom s win then s else
      let r := mget Ring.empty s.rings (2 * win + 1)
      let tail := getF s f_EVT_EQ_TAIL_INDEX 0 win
      let addr := getF s f_EVT_EQ_BASE_ADDR 0 win * 4096 + 64 * tail
      let entry := rec ++ leBytes 4 (r.posted + 1) ++ leBytes 4 (ringPhase r * 2 ^ 31)
      let s := { s with
        host := memPut s.host addr entry
        evHeld := mput s.evHeld win rest
        rings := mput s.rings (2 * win + 1) (ringNext r tail (eqSize s win)) }
      notifyQueue (setF s f_EVT_EQ_TAIL_INDEX 0 ((tail + 1) % eqSize s win) win) win 1)

/-- EVT_EQ_HEAD_WRITE: the driver's head moves, which frees room and arms the interrupt (R401, R402). -/
def execEvtEqHeadWrite (win v : Nat) (s : State) : Out :=
  .next (armQueue (setF s f_EVT_EQ_HEAD_INDEX 0 v win) win 1)

/-- EVT_FQ_HEAD_WRITE: the same for the fault queue (R297, R402). -/
def execEvtFqHeadWrite (win v : Nat) (s : State) : Out :=
  .next (armQueue (setF s f_EVT_FQ_HEAD_INDEX 0 v win) win 0)

end Machine

end Sys2Proof
end

