-- ==== Sys2Proof/Machine/Mem.lean ====
section
/-!
DEFINITION. HBM and the memory-side buffer slices (R231, R235, R237 to R241, R246 to R251): what a line holds, allocation and
eviction, error correction, poison, atomics and reductions at the line.
-/

namespace Sys2Proof.Machine

/-! ## The physical address map (R231) -/

/-- Bytes of a memory slice. -/
def sliceBytes : Nat := 0x60000000

/-- The end of HBM in the local map. -/
def hbmTop : Nat := 0x6000000000

/-- The chip of a global physical address. -/
def gpaChip (a : Nat) : Nat := a / 2 ^ 48

/-- The local address of a global physical address. -/
def gpaLocal (a : Nat) : Nat := a % 2 ^ 48

/-- The first local address of a core's scratchpad window. -/
def scratchWindow (c : Nat) : Nat := 0x700000000000 + c * 0x1000000

/-- The local address of PCIe bus address `h`. -/
def hostWindow : Nat := 0x800000000000

/-- The physical memory slice of a local HBM address. -/
def sliceOf (a : Nat) : Nat := a / sliceBytes

/-- This chip's fabric chip ID. -/
def chipId (s : State) : Nat := getF s f_CHIP_FAB_ID_CHIP_ID

/-- Is a memory slice in the pool (R32)? -/
def slicePresent (s : State) (m : Nat) : Bool := m < 256 && flagF s f_MEM_SLICE_STAT_PRESENT m

/-! ## Sectors -/

/-- The mask of the 32-byte sectors that `n` bytes at offset `o` of a line touch. -/
def touchedMask (o n : Nat) : Nat :=
  ((List.range 8).filter (fun k => decide (0 < n) && o < 32 * k + 32 && 32 * k < o + n)).foldl (fun a k => a + 2 ^ k) 0

/-- The mask of the sectors that they cover whole. -/
def coveredMask (o n : Nat) : Nat :=
  ((List.range 8).filter (fun k => o ≤ 32 * k && 32 * k + 32 ≤ o + n)).foldl (fun a k => a + 2 ^ k) 0

/-- The bits of a mask that another mask lacks. -/
def minus (a b : Nat) : Nat := a - Nat.land a b

/-- Replaces bytes of a list from a place on. -/
def patch (l : List Byte) (o : Nat) (bs : List Byte) : List Byte := l.take o ++ bs ++ l.drop (o + bs.length)

/-- The bytes of sector `k` of a line. -/
def sectorOf (l : List Byte) (k : Nat) : List Byte := (l.drop (32 * k)).take 32

/-- The poison of the sectors after a write (R251): a sector that receives poisoned bytes is poisoned; a clean write of all
32 bytes clears it; a partial clean write leaves it. -/
def poisonAfter (old bad o n : Nat) : Nat :=
  Nat.lor (minus old (minus (coveredMask o n) bad)) (Nat.land bad (touchedMask o n))

/-! ## HBM -/

/-- The 256 bytes of a line in HBM, by line number (local address ÷ 256). -/
def hbmLine (s : State) (n : Nat) : List Byte := memBytes s.hbm (256 * n) 256

/-- The poisoned sectors of a line in HBM. -/
def hbmBad (s : State) (n : Nat) : Nat :=
  ((List.range 8).filter (fun k => mget false s.hbmPoison (8 * n + k))).foldl (fun a k => a + 2 ^ k) 0

/-- Marks or clears poison of one sector in HBM. -/
def setHbmBad (s : State) (sector : Nat) (v : Bool) : State := { s with hbmPoison := mset false s.hbmPoison sector v }

/-- Writes sectors of a line to HBM, with their poison. -/
def hbmPutFrom (s : State) (n mask bad : Nat) (data : List Byte) : Nat → State
  | 0 => s
  | k + 1 =>
    let s' := hbmPutFrom s n mask bad data k
    if bitAt mask k then
      setHbmBad { s' with hbm := memPut s'.hbm (256 * n + 32 * k) (sectorOf data k) } (8 * n + k) (bitAt bad k)
    else s'

/-- `hbmPutFrom` over all eight sectors. -/
def hbmPut (s : State) (n mask bad : Nat) (data : List Byte) : State := hbmPutFrom s n mask bad data 8

/-- Records an uncorrectable detection (R249): MEM_UE and MEM_UE_LOG. -/
def logUe (s : State) (wher sector : Nat) : State :=
  let m := sector / (sliceBytes / 32)
  let s := countR s r_MEM_UE m 1
  setR s r_MEM_UE_LOG 0 (m + wher * 2 ^ 8 + (sector % (sliceBytes / 32)) * 2 ^ 16 + 2 ^ 63)

/-- Applies what a read of HBM sectors found (R249): single errors are corrected and counted; an uncorrectable sector is
marked poisoned and logged. -/
def hbmFind (s : State) (wher n mask : Nat) (errs : List SectorErr) : State :=
  errs.foldl (fun s e =>
    if !bitAt mask (e.sector % 8) then s
    else if e.double then logUe (setHbmBad s (8 * n + e.sector % 8) true) wher (8 * n + e.sector % 8)
    else countR s r_MEM_CE (sliceOf (256 * n)) 1) s

/-! ## Buffer slices (R239, R240) -/

/-- The buffered copy of a line. -/
def bufOf (s : State) (n : Nat) : Option BufLine := mfind s.bufs n

/-- Replaces a buffered line. -/
def setBuf (s : State) (n : Nat) (b : BufLine) : State := { s with bufs := mput s.bufs n b }

/-- The bytes of a line as every agent sees it: buffered sectors before HBM's. -/
def lineBytes (s : State) (n : Nat) : List Byte :=
  match bufOf s n with
  | none => hbmLine s n
  | some b =>
    ((List.range 8).map (fun k => if bitAt b.valid k then sectorOf b.data k else sectorOf (hbmLine s n) k)).flatten

/-- The poison of a line as every agent sees it. -/
def lineBad (s : State) (n : Nat) : Nat :=
  match bufOf s n with
  | none => hbmBad s n
  | some b => Nat.lor (Nat.land b.poison b.valid) (minus (hbmBad s n) b.valid)

/-- The set of a line: its slice and slice offset bits [17:8]. -/
def setOf (n : Nat) : Nat := n / (sliceBytes / 256) * 1024 + n % (sliceBytes / 256) % 1024

/-- Writes the dirty sectors of a buffered line back to HBM; the line stays, clean. -/
def writeBack (s : State) (n : Nat) : State :=
  match bufOf s n with
  | none => s
  | some b => setBuf (hbmPut s n b.dirty b.poison b.data) n { b with dirty := 0 }

/-- Evicts a line. -/
def evict (s : State) (n : Nat) : State := { writeBack s n with bufs := mdel s.bufs n }

/-- The rank of a line among victims (R240): STREAM first, KEEP last, least recently used within each. -/
def victimRank (b : BufLine) : Nat := (if b.stream then 0 else if b.keep then 2 else 1) * 2 ^ 64 + b.used.toNat

/-- The line that a new line of set `k` displaces, when its 16 ways are full. -/
def victimOf (s : State) (k : Nat) : Option Nat :=
  let ways := s.bufs.filter (fun kv => setOf kv.1 = k)
  if ways.length < 16 then none
  else (ways.foldl (fun (best : Option (Nat × BufLine)) kv =>
    match best with
    | none => some kv
    | some b => if victimRank kv.2 < victimRank b.2 then some kv else some b) none).map Prod.fst

/-- Makes a line present in its buffer slice, under a hint. -/
def allocate (s : State) (n hint : Nat) : State :=
  match bufOf s n with
  | some b => setBuf s n { b with used := s.now, keep := b.keep || hint = 2, stream := b.stream && hint = 1 }
  | none =>
    let s := match victimOf s (setOf n) with
      | some v => evict s v
      | none => s
    setBuf s n ⟨0, 0, 0, List.replicate 256 0, hint = 2, hint = 1, s.now⟩

/-- Fills the sectors of a present line that are not valid from HBM. -/
def fillLine (s : State) (n mask : Nat) : State :=
  match bufOf s n with
  | none => s
  | some b =>
    let need := minus mask b.valid
    setBuf s n { b with
      data := ((List.range 8).map (fun k =>
        if bitAt need k then sectorOf (hbmLine s n) k else sectorOf b.data k)).flatten
      poison := Nat.lor (minus b.poison need) (Nat.land (hbmBad s n) need)
      valid := Nat.lor b.valid need }

/-- The sectors that a write needs beside those it covers: none, or, when it covers a sector in part, the line (R240). -/
def writeNeed (o len : Nat) : Nat := if minus (touchedMask o len) (coveredMask o len) = 0 then 0 else 255

/-- Does an access to `len` bytes at offset `o` of a line find every sector it needs in the buffer? A read needs those it
touches. -/
def bufHit (s : State) (n o len : Nat) (write : Bool) : Bool :=
  let need := if write then writeNeed o len else touchedMask o len
  match bufOf s n with
  | none => write && need = 0
  | some b => minus need b.valid = 0

/-- Writes bytes into a present line, whose partly covered sectors are valid. -/
def bufWrite (s : State) (n o bad : Nat) (data : List Byte) : State :=
  match bufOf s n with
  | none => s
  | some b =>
    let t := touchedMask o data.length
    setBuf s n { b with
      data := patch b.data o data
      poison := poisonAfter b.poison bad o data.length
      valid := Nat.lor b.valid t
      dirty := Nat.lor b.dirty t
      used := s.now }

/-- Performs a write at its buffer slice (R239, R240): BYPASS goes to HBM, and updates a copy the buffer holds; otherwise
the line is allocated, fetched where the write covers a sector in part, and written. A STREAM line is written back at once, its
first opportunity. -/
def lineWrite (s : State) (n o bad hint : Nat) (data : List Byte) : State :=
  if hint = 3 then
    let whole := patch (hbmLine s n) o data
    let s' := hbmPut s n (touchedMask o data.length) (poisonAfter (hbmBad s n) bad o data.length) whole
    match bufOf s n with
    | none => s'
    | some b =>
      setBuf (hbmPut s n (touchedMask o data.length) (poisonAfter (lineBad s n) bad o data.length)
          (patch (lineBytes s n) o data)) n { b with
        data := patch b.data o data
        poison := poisonAfter b.poison bad o data.length
        used := s.now }
  else
    let s := bufWrite (fillLine (allocate s n hint) n (writeNeed o data.length)) n o bad data
    if hint = 1 then writeBack s n else s

/-- Allocates a line on a read miss, as the hint and label say (R240); speculative fetches never allocate. -/
def readAllocate (s : State) (n hint : Nat) (spec : Bool) (o len : Nat) : State :=
  if spec || hint = 1 || hint = 3 then s else fillLine (allocate s n hint) n (touchedMask o len)

/-- Marks a buffered line used. -/
def touchLine (s : State) (n : Nat) : State :=
  match bufOf s n with
  | none => s
  | some b => setBuf s n { b with used := s.now }

/-- Applies the findings of a buffer SRAM read (R249). -/
def sramFind (s : State) (n mask : Nat) (errs : List SectorErr) : State :=
  errs.foldl (fun s e =>
    let k := e.sector % 8
    match bufOf s n with
    | none => s
    | some b =>
      if !bitAt (Nat.land mask b.valid) k then s
      else if e.double then logUe (setBuf s n { b with poison := Nat.lor b.poison (2 ^ k) }) 2 (8 * n + k)
      else countR s r_MEM_CE (sliceOf (256 * n)) 1) s

/-! ## Atomics and reductions (R91, R246 to R248) -/

/-- The new value of an integer atomic: SUB, the operand width in bits, the old value, DATA and the second operand. -/
def atomicResult (sub w : Nat) (signed : Bool) (old a b : Nat) : Nat :=
  let lt (x y : Nat) : Bool := if signed then decide (signedOf x w < signedOf y w) else decide (x < y)
  match sub with
  | 0 => (old + a) % 2 ^ w
  | 1 => if lt a old then a else old
  | 2 => if lt old a then a else old
  | 3 => a
  | _ => if old = a then b else old

/-- Element-wise sums of a reduction in binary32 or bfloat16, with their flags (R205, R247). -/
def reduceElems (isF32 : Bool) : List Byte → List Byte → List Byte × Flags
  | d0 :: d1 :: d2 :: d3 :: ds, e0 :: e1 :: e2 :: e3 :: es =>
    let r := reduceElems isF32 ds es
    let one (fmt : FloatFmt) (n : Nat) (x y : List Byte) : List Byte × Flags :=
      let a := decodeFloat fmt (leNat x)
      let b := decodeFloat fmt (leNat y)
      let v := faddX a b
      let c := toFloat fmt .rne false false v
      (leBytes n c.1, if v.isNan && !a.isNan && !b.isNan then c.2 ||| flInvalid else c.2)
    if isF32 then
      let x := one fmtF32 4 [d0, d1, d2, d3] [e0, e1, e2, e3]
      (x.1 ++ r.1, x.2 ||| r.2)
    else
      let x := one fmtBF16 2 [d0, d1] [e0, e1]
      let y := one fmtBF16 2 [d2, d3] [e2, e3]
      (x.1 ++ y.1 ++ r.1, x.2 ||| y.2 ||| r.2)
  | [d0, d1], [e0, e1] =>
    if isF32 then ([d0, d1], 0) else
    let a := decodeFloat fmtBF16 (leNat [d0, d1])
    let b := decodeFloat fmtBF16 (leNat [e0, e1])
    let v := faddX a b
    let c := toFloat fmtBF16 .rne false false v
    (leBytes 2 c.1, if v.isNan && !a.isNan && !b.isNan then c.2 ||| flInvalid else c.2)
  | _, _ => ([], 0)

/-! ## Locating an Imago address (R235) -/

/-- The region size of an instance's Imago, in bytes (R233, R361). -/
def imagoRb (s : State) (i : Nat) : Nat := getF s f_CMP_IMG_RB_RB i * 65536

/-- Does an instance's Imago hold memory: any slice-list entry (R327)? -/
def holdsMemory (s : State) (i : Nat) : Bool := (List.range 256).any (fun k => flagF s f_CMP_SLIST_VALID (256 * i + k))

/-- An Imago. -/
def imago (s : State) (i : Nat) : Imago := mget Imago.empty s.imagos i

/-- Changes an Imago. -/
def modImago (s : State) (i : Nat) (f : Imago → Imago) : State := { s with imagos := mput s.imagos i (f (imago s i)) }

/-- The interleave entry of an address. -/
def ilvIndex (ia : Nat) : Nat :=
  let line := ia / 256
  let stripe := line / 1024
  let f := (Nat.xor (Nat.xor stripe (stripe / 1024)) (stripe / 1048576)) % 1024
  Nat.xor (line % 1024) f

/-- The global physical address that an interleave word and its slice-list word give an Imago address (R234, R235). -/
def ilvResolve (ia rb ent sl : Nat) : Nat :=
  let stripe := ia / 256 / 1024
  let ofs := bitsOf ent 8 10 * rb + stripe * 256 + ia % 256
  bitsOf sl 0 16 * 2 ^ 48 + (bitsOf sl 16 8 * sliceBytes + ofs)

/-- Does an Imago hold the map of an epoch: the current one's or the previous one's (R338)? -/
def epochHeld (s : State) (i epoch : Nat) : Bool :=
  epoch = getF s f_CMP_EPOCH_EPOCH i || (match (imago s i).old with
    | some o => decide (o.epoch = epoch)
    | none => false)

/-- The map of an epoch an Imago holds: the current one, the previous one, or none (R338). An entry that is MOVING keeps
routing to its source (R347). -/
def locate (s : State) (i epoch ia : Nat) : Option Nat :=
  let rb := imagoRb s i
  let e := ilvIndex ia
  if ia ≥ 1024 * rb then none
  else if epoch = getF s f_CMP_EPOCH_EPOCH i then
    let ent := getR s r_CMP_ILV (1024 * i + e)
    if !bitAt ent 31 then none
    else match (imago s i).evac.find? (fun x => x.entry = e && !x.flipped) with
      | some x =>
        if bitAt ent 30 then
          some (chipId s * 2 ^ 48 + x.srcSlice * sliceBytes + (x.srcRegion * rb + ia / 256 / 1024 * 256 + ia % 256))
        else some (ilvResolve ia rb ent (getR s r_CMP_SLIST (256 * i + bitsOf ent 0 8)))
      | none => some (ilvResolve ia rb ent (getR s r_CMP_SLIST (256 * i + bitsOf ent 0 8)))
  else match (imago s i).old with
    | some o =>
      if o.epoch = epoch then
        let ent := o.ilv.getD e 0
        if bitAt ent 31 then some (ilvResolve ia rb ent (o.slist.getD (bitsOf ent 0 8) 0)) else none
      else none
    | none => none

/-- Is a local address secure (R453)? -/
def secureAddr (s : State) (a : Nat) : Bool :=
  (List.range 64).any (fun r =>
    flagF s f_SEC_REGION_BASE_VALID r && flagF s f_SEC_REGION_BASE_WORLD r
      && getF s f_SEC_REGION_BASE_ADDR r * 4096 ≤ a && a / 4096 ≤ getF s f_SEC_REGION_LIMIT_ADDR r)
    || (a < hbmTop && bitAt (getR s r_SEC_SLICE_WORLD (sliceOf a / 32)) (sliceOf a % 32))

/-! ## Leases (R352 to R356) -/

/-- A lease of CMP_LEASE (R361). -/
def leaseAt (s : State) (k : Nat) : Lease :=
  ⟨getF s f_CMP_LEASE_LEASE k, getF s f_CMP_LEASE_PEER_CHIP k, getF s f_CMP_LEASE_UNIT k, getF s f_CMP_LEASE_KIND k,
    getF s f_CMP_LEASE_INSTANCE k⟩

/-- Is a member of CMP_LEASE valid: UNIT, PEER_CHIP and LEASE are not all zero? -/
def leaseValid (s : State) (k : Nat) : Bool :=
  getF s f_CMP_LEASE_LEASE k ≠ 0 || getF s f_CMP_LEASE_PEER_CHIP k ≠ 0 || getF s f_CMP_LEASE_UNIT k ≠ 0

/-- The members of CMP_LEASE that this chip has lent. -/
def lentLeases (s : State) : List Nat :=
  (List.range 64).filter (fun k => leaseValid s k && !flagF s f_CMP_LEASE_DIR k)

/-- The members that Imagos of this chip have borrowed. -/
def borrowedLeases (s : State) : List Nat :=
  (List.range 64).filter (fun k => leaseValid s k && flagF s f_CMP_LEASE_DIR k)

/-- Is an address of another chip in a borrowed slice whose lease is lost (R356, R419)? -/
def leaseGone (s : State) (gpa : Nat) : Bool :=
  (borrowedLeases s).any (fun k => (mget LeaseTerms.empty s.leaseTerms k).lost && (leaseAt s k).chip = gpaChip gpa
    && (leaseAt s k).kind = 0 && (leaseAt s k).unit = sliceOf (gpaLocal gpa))

/-! ## Evacuated lines (R348 to R350) -/

/-- Where a request for a local HBM address is performed: at the destination of an evacuation whose cursor has passed the
line, else here. -/
def forwarded (s : State) (a : Nat) : Nat :=
  s.imagos.foldl (fun a kv =>
    let rb := imagoRb s kv.1
    match kv.2.evac.find? (fun e =>
      let base := e.srcSlice * sliceBytes + e.srcRegion * rb
      base ≤ a && a < base + rb && (a - base) / 256 < e.cursor) with
    | some e => e.dstSlice * sliceBytes + e.dstRegion * rb + (a - (e.srcSlice * sliceBytes + e.srcRegion * rb))
    | none => a) a

end Sys2Proof.Machine
end

