-- ==== Sys2Proof/Machine/LinkOps.lean ====
section
/-!
DEFINITION. Sending messages on links (R270, R409 to R417, R420): choosing a port, cutting messages into flits, credits and
the resend buffer. The messages' meanings are in Links.lean and MemOps.lean.
-/

namespace Sys2Proof.Machine

/-! ## Message types (R414) -/

def msgRead : Nat := 0x01
def msgWrite : Nat := 0x02
def msgAtomic : Nat := 0x03
def msgResp : Nat := 0x04
def msgAck : Nat := 0x05
def msgErr : Nat := 0x06
def msgCollPut : Nat := 0x07
def msgAbort : Nat := 0x08
def msgSilk : Nat := 0x10
def msgSilkRelease : Nat := 0x14
def msgSilkAck : Nat := 0x15
def msgCollToken : Nat := 0x16
def msgCustody : Nat := 0x17
def msgPeerNotice : Nat := 0x18
def msgHello : Nat := 0x20
def msgAdvert : Nat := 0x21
def msgFenceOp : Nat := 0x22
def msgFenceRelease : Nat := 0x23
def msgLease : Nat := 0x24
def msgLinkIdle : Nat := 0x25
def msgTime : Nat := 0x26
def msgEncReq : Nat := 0x27

/-- ERR codes (R414). -/
def linkRefused : Nat := 1
def linkStale : Nat := 2
def linkNoRoute : Nat := 3
def linkHopLimit : Nat := 4
def linkComputeReset : Nat := 5
def linkUnavailable : Nat := 6

/-- The requester's error for an ERR code (R414). -/
def errOfLink (c : Nat) : Nat :=
  if c = linkStale then errStaleTarget else if c = linkComputeReset then errPeerComputeReset else errRemoteError

/-- A message's lane (R410, R414). -/
def laneOf (m : LinkMsg) : Nat :=
  if m.type < 0x10 then 2 + m.label / 2 else if m.type < 0x20 then 0 else 1

/-- A message's partition: its hop count on a bulk lane (R416). -/
def partOf (m : LinkMsg) : Nat := if laneOf m < 2 then 0 else m.hops % 4

/-- A message as its port puts it on the wire, with its age in ms rounded up (R413, R521). -/
def LinkMsg.onWire (s : State) (m : LinkMsg) : WireMsg :=
  ⟨m.type, m.label, m.hops, m.src, m.dest, m.epoch, m.instar, m.inst, ((m.deadline.map BitVec.toNat).getD 0) % 2 ^ 24,
    min 255 ((since s m.sent + msTicks - 1) / msTicks), m.tag, m.aux, m.addr, m.data, m.poison⟩

/-- The bytes of a message in flits, little-endian as R7 has all of them: its 32-byte header, its poison mask if it has one, and
its data (R413). -/
def wireBytes (m : WireMsg) : List Byte :=
  leBytes 1 m.type ++ leBytes 1 (m.label % 8 + 8 * (m.hops % 8) + 64 * b2n (m.poison ≠ 0)) ++ leBytes 2 m.src ++ leBytes 2 m.dest
    ++ leBytes 2 m.epoch ++ leBytes 1 m.instar ++ leBytes 1 (m.inst % 32) ++ leBytes 2 m.data.length
    ++ leBytes 4 (m.deadline % 2 ^ 24 + m.ageMs % 256 * 2 ^ 24) ++ leBytes 4 m.tag ++ leBytes 4 m.aux ++ leBytes 8 m.addr
    ++ (if m.poison = 0 then [] else leBytes 16 m.poison) ++ m.data

/-- The first 8 bytes of a flit's header (R409), little-endian; its CHECK follows. -/
def flitHeader (f : Flit) : List Byte :=
  leBytes 8 (f.seq % 4096 + f.ack % 4096 * 2 ^ 12 + b2n f.nak * 2 ^ 24 + f.vl % 8 * 2 ^ 25 + b2n f.enc * 2 ^ 28
    + f.part % 4 * 2 ^ 29 + f.cvl % 8 * 2 ^ 32 + f.cpart % 4 * 2 ^ 35 + f.credits % 128 * 2 ^ 37 + f.kepoch % 256 * 2 ^ 44)

/-- The flits a message takes: its header, poison mask and data, in bodies of 240 bytes (R409, R413). -/
def flitsOf (m : LinkMsg) : Nat := (32 + (if m.poison = 0 then 0 else 16) + m.data.length + 239) / 240

/-- A message with nothing set but its type, source and destination. -/
def LinkMsg.blank (s : State) (type dest : Nat) : LinkMsg :=
  ⟨type, 4, 0, chipId s, dest, 0, 0, 0, none, 0, 0, 0, [], 0, s.now⟩

/-! ## Ports -/

/-- The optical engine whose lanes a port uses: 4 × (p mod 2) to 4 × (p mod 2) + 3 of it (R406). -/
def enginePort (p : Nat) : Nat := p / 2

/-- A port. -/
def port (s : State) (p : Nat) : Port := mget Port.empty s.ports p

/-- Changes a port. -/
def modPort (s : State) (p : Nat) (f : Port → Port) : State := { s with ports := mput s.ports p (f (port s p)) }

/-- Port states (R407). -/
def portDown : Nat := 0
def portTraining : Nat := 1
def portUp : Nat := 2
def portIdle : Nat := 3
def portFailed : Nat := 4

/-- Is a port UP? -/
def isUp (s : State) (p : Nat) : Bool := getF s f_LNK_PORT_STAT_STATE p = portUp

/-- The credits of each lane and partition when a port enters UP (R410): 64 flits for VL0 and VL1, 64 per bulk partition. -/
def fullCredits : SMap Nat := (List.range 24).map (fun k => (k, if k < 8 && k % 4 ≠ 0 then 0 else 64))

/-- Bytes a lane may send in a regulator window (R410): 2.00 GB/s on VL0, 0.81 GB/s on VL1; a tick is 4 ns. -/
def laneAllowance (winLen vl : Nat) : Nat := if vl = 0 then 8 * winLen else 324 * winLen / 100

/-- The signed difference of two ticks modulo 2²⁴ (R267). -/
def signed24 (a b : DWord) : Int := signedOf (a - b).toNat 24

/-- The order in which a port takes waiting messages (R410, R412): VL0 and VL1 within their allowance, then guaranteed bulk
by deadline, then the lanes beyond their allowance, then best effort. A smaller pair goes first. -/
def sendRank (s : State) (p : Port) (m : LinkMsg) : Int × Int :=
  let vl := laneOf m
  let d : Int := match m.deadline with
    | some d => signed24 d s.now
    | none => 0
  if vl = 0 then if p.lane0 + 256 * flitsOf m ≤ laneAllowance s.winLen 0 then (0, 0) else (3, 0)
  else if vl = 1 then if p.lane1 + 256 * flitsOf m ≤ laneAllowance s.winLen 1 then (1, 0) else (4, 0)
  else if vl ≤ 3 then (2, d) else ((1 + vl : Nat), (m.label : Int))

/-- Is one rank before another? -/
def rankLt (a b : Int × Int) : Bool := a.1 < b.1 || (a.1 = b.1 && a.2 < b.2)

/-- Has a port credit, and room in its resend buffer of 2,048 flits, for a message? -/
def canSend (p : Port) (m : LinkMsg) : Bool :=
  flitsOf m ≤ mget 0 p.credits (4 * laneOf m + partOf m) && p.unacked.length + flitsOf m ≤ 2048

/-- The place of the message a port sends next. -/
def nextSend (s : State) (p : Port) : List LinkMsg → Nat → Option (Nat × LinkMsg) → Option (Nat × LinkMsg)
  | [], _, best => best
  | m :: ms, i, best =>
    let earlierSame := (p.waiting.take i).any (fun x => laneOf x = laneOf m && partOf x = partOf m
      && !rankLt (sendRank s p m) (sendRank s p x))
    let b := if !canSend p m || earlierSame then best else match best with
      | none => some (i, m)
      | some (_, x) => if rankLt (sendRank s p m) (sendRank s p x) then some (i, m) else best
    nextSend s p ms (i + 1) b

/-- A port after a flit has returned credits of one lane and partition, at most 127 (R409, R411). -/
def giveCredits (p : Port) : Port :=
  match p.freed with
  | [] => p
  | (k, n) :: rest => { p with freed := if n ≤ 127 then rest else (k, n - 127) :: rest }

/-- Puts a message's flits on the wire: each takes the next sequence number and a credit, and waits to be acknowledged. -/
def emitFlits (p : Port) (m : LinkMsg) : Nat → Port
  | 0 => p
  | n + 1 =>
    let k := 4 * laneOf m + partOf m
    let p := { giveCredits p with
      nakSent := false
      unacked := p.unacked ++ [⟨p.txSeq, laneOf m, partOf m, if n = 0 then some m else none⟩]
      txSeq := (p.txSeq + 1) % 4096
      credits := mput p.credits k (mget 0 p.credits k - 1) }
    emitFlits p m n

/-- Sends what a port's credits allow, up to `n` messages; no key is used for more than 2⁴⁰ flits (R422). -/
def pumpN (s : State) (p : Nat) : Nat → State
  | 0 => s
  | n + 1 =>
    let q := port s p
    if !isUp s p then s else
    match nextSend s q q.waiting 0 none with
    | none => s
    | some (i, m) =>
      let f := flitsOf m
      if flagF s f_LNK_PORT_STAT_ENC p && 2 ^ 40 < q.encFlits + f then s else
      let q := emitFlits { q with
        waiting := q.waiting.eraseIdx i
        lastTx := s.now
        encFlits := q.encFlits + (if flagF s f_LNK_PORT_STAT_ENC p then f else 0)
        lane0 := q.lane0 + (if laneOf m = 0 then 256 * f else 0)
        lane1 := q.lane1 + (if laneOf m = 1 then 256 * f else 0) } m f
      pumpN (countR { s with ports := mput s.ports p q } r_LNK_PORT_TX p f) p n

/-- Sends every message that a port may send now. -/
def pump (s : State) (p : Nat) : State := pumpN s p (port s p).waiting.length

/-- Gives a message to a port. -/
def sendOn (s : State) (p : Nat) (m : LinkMsg) : State :=
  pump (modPort s p (fun q => { q with waiting := q.waiting ++ [m] })) p

/-! ## Choosing a port (R270, R415, R420) -/

/-- The ports of a route-table entry, in list order. -/
def routePorts (s : State) (dest : Nat) : List Nat :=
  if dest = chipId s || !flagF s f_LNK_RT_VALID dest then []
  else ([getF s f_LNK_RT_PORT0 dest, getF s f_LNK_RT_PORT1 dest, getF s f_LNK_RT_PORT2 dest,
    getF s f_LNK_RT_PORT3 dest]).take (getF s f_LNK_RT_COUNT dest + 1)

/-- Messages queued on a port's bulk lanes, in flits. -/
def queuedFlits (s : State) (p : Nat) : Nat :=
  ((port s p).waiting.filter (fun m => 2 ≤ laneOf m)).foldl (fun a m => a + flitsOf m) 0

/-- The UP port with the fewest queued flits, the lowest number among equals; with ADAPT_EN 0 the first in list order. -/
def choosePort (s : State) (l : List Nat) : Option Nat :=
  let up := l.filter (isUp s)
  if flagF s f_LNK_CFG_ADAPT_EN then
    up.foldl (fun best p => match best with
      | none => some p
      | some b =>
        if queuedFlits s p < queuedFlits s b || (queuedFlits s p = queuedFlits s b && p < b) then some p else best) none
  else up.head?

/-- The route map of an Imago in an epoch (R328, R338). -/
def routesOf (s : State) (i epoch : Nat) : List Route :=
  if epoch = getF s f_CMP_EPOCH_EPOCH i then (imago s i).routes
  else match (imago s i).old with
    | some o => if o.epoch = epoch then o.routes else []
    | none => []

/-- The ports that may carry guaranteed traffic of an Imago to a chip (R270, R331, R420): those of a DIRECT destination that
are UP, not LONG, and have the chip as their neighbour. -/
def guaranteedPorts (s : State) (i epoch dest : Nat) : List Nat :=
  match (routesOf s i epoch).find? (fun r => r.dest = dest && r.direct) with
  | none => []
  | some r => (List.range 32).filter (fun p => bitAt r.ports p && isUp s p && !flagF s f_LNK_PORT_STAT_LONG p
      && flagF s f_LNK_PORT_PEER_VALID p && getF s f_LNK_PORT_PEER_CHIP p = dest)

/-- The next port of a rotation, and the rotation advanced (R270). -/
def rotate (s : State) (key : Nat) (l : List Nat) : Option (Nat × State) :=
  match l with
  | [] => none
  | _ =>
    let n := mget 0 s.linkRr key
    some (l.getD (n % l.length) 0, { s with linkRr := mset 0 s.linkRr key ((n + 1) % l.length) })

/-- The ERR code for a message that finds no way: UNAVAILABLE for a destination that is IDLE, else NO_ROUTE (R414, R488). -/
def noWay (s : State) (dest : Nat) : Nat :=
  if (s.peers.map Prod.fst).any (fun k => getF s f_LNK_PEER_CHIP k = dest && getF s f_LNK_PEER_STATE k = 5) then linkUnavailable
  else linkNoRoute

/-- Does a port accept no new flit for an instance: its link slice is leaving that Imago (R344)? -/
def portLeaving (s : State) (inst p : Nat) : Bool := getF s f_CMP_LINK_STATE p = 4 && getF s f_CMP_LINK_INSTANCE p = inst

/-- Sends a message that this chip originates: a guaranteed one of an instance over its route map in rotation, any other by
the route table, never to a port that leaves the Imago. Answers the port taken; none when no usable port leads there (R417). -/
def sendMsg (s : State) (m : LinkMsg) : Option (Nat × State) :=
  let mine (l : List Nat) : List Nat := l.filter (fun p => !portLeaving s m.inst p)
  if noWay s m.dest = linkUnavailable then none
  else if m.label ≤ 3 && (m.type < 0x04 || m.type = msgCollPut) then
    match rotate s (m.inst * 65536 + m.dest) (mine (guaranteedPorts s m.inst m.epoch m.dest)) with
    | some (p, s') => some (p, sendOn s' p m)
    | none => (choosePort s (mine (routePorts s m.dest))).map (fun p => (p, sendOn s p { m with label := 4, deadline := none }))
  else (choosePort s (mine (routePorts s m.dest))).map (fun p => (p, sendOn s p m))

/-- Sends an answer or notice; one with no usable port is discarded and counted (R417, R435). -/
def sendOrDrop (s : State) (m : LinkMsg) : State := ((sendMsg s m).map Prod.snd).getD (countR s r_LNK_DISCARDS 0 1)

/-- The answer to a message: to its source, with its tag, label, epoch and instance. -/
def answerTo (s : State) (m : LinkMsg) (type aux addr : Nat) (data : List Byte) (poison : Nat) : LinkMsg :=
  { m with type := type, hops := 0, src := chipId s, dest := m.src, aux := aux, addr := addr, data := data
           poison := poison, sent := s.now, label := if type < 0x10 then m.label else 4 }

/-- Answers a message with an ERR code, and counts the refusal. -/
def answerErr (s : State) (m : LinkMsg) (code : Nat) : State :=
  sendOrDrop (countR s r_LNK_DISCARDS 0 1) (answerTo s m msgErr code 0 [] 0)

end Sys2Proof.Machine
end

