-- ==== Sys2Proof/Machine/MemOps.lean ====
section
/-!
DEFINITION. Memory requests (R225 to R251, R260 to R278, R521): regulation, routes over bridges, sending, performing them at
the buffer slices, deadline misses; the scrubber, bridge errors, buffer commands and the memory apertures.
-/

namespace Sys2Proof.Machine

/-! ## Routes (R225 to R227, R230) -/

/-- A router on the global grid of 16 × 16: (row, column) of a base die's router (r, c). -/
def gridAt (die r c : Nat) : Nat × Nat := (r + 8 * (die / 2), c + 8 * (die % 2))

/-- The router of a logical core (R226). -/
def coreRouter (s : State) (c : Nat) : Nat × Nat :=
  let ph := mget 0 s.corePhys c
  let w := ph / 20
  let p := ph % 20
  gridAt (w / 2) (1 + p / 4) (p % 4 + 4 * (w % 2))

/-- The router of a memory slice. -/
def sliceRouter (m : Nat) : Nat × Nat := gridAt (m / 64) (m % 64 / 8) (m % 8)

/-- The router of a link port. -/
def portRouter (p : Nat) : Nat × Nat :=
  let x := [(2, 1), (2, 6), (5, 1), (5, 6), (3, 3), (3, 4), (4, 3), (4, 4)].getD (p % 8) (0, 0)
  gridAt (p / 8) x.1 x.2

/-- The router of a bulk mover cluster. -/
def clusterRouter (k : Nat) : Nat × Nat := gridAt (k / 4) 6 ([1, 3, 4, 6].getD (k % 4) 0)

/-- The router a mover's requests leave from: unit c < 256 is core c's mover, unit 256 + k cluster k. -/
def unitRouter (s : State) (u : Nat) : Nat × Nat := if u < 256 then coreRouter s u else clusterRouter (u - 256)

/-- The router of walker `n` of a base die: 16 walkers are at each of two. -/
def walkerRouter (die n : Nat) : Nat × Nat := gridAt die 7 (if n % 32 < 16 then 3 else 4)

/-- The router of the PCIe host interface, and that of the management complex, both on B0. -/
def hostRouter : Nat × Nat := gridAt 0 0 0
def managerRouter : Nat × Nat := gridAt 0 7 0

/-- The queue number from which on requests of device work are a Gate unit's, by wing; the numbers after those are of work that no
queue orders. -/
def gateQueue : Nat := 65536

/-- Are requests kept under a queue number a Gate unit's? -/
def ofGate (q : Nat) : Bool := gateQueue ≤ q && q < gateQueue + 8

/-- The queue number of device work of unit `n` that no queue orders: a window's operations, by window, and from 64 on the frames
that a core's batch is saved in. -/
def adminQ (n : Nat) : Nat := gateQueue + 8 + n

/-- The router that device work kept under a queue number leaves from: a Gate unit's beside its base die's walkers, other work at
the management complex (log entry 60). -/
def deviceRouter (q : Nat) : Nat × Nat := if ofGate q then walkerRouter ((q - gateQueue) / 2) 0 else managerRouter

/-- The router a request's master is at; a walk takes the walker of its number (log entry 60). -/
def originOf (s : State) (r : MemReq) : Nat × Nat :=
  match r.owner with
  | .thread op _ => coreRouter s ((mfind s.ops op).map ThreadOp.core |>.getD 0)
  | .fetch c _ => coreRouter s c
  | .moverRead u _ => unitRouter s u
  | .moverWrite u _ => unitRouter s u
  | .landing k => coreRouter s ((mfind s.landing k).map LandSlot.core |>.getD 0)
  | .link _ => portRouter (r.master % 4096)
  | .walk id => walkerRouter r.die id
  | .command q _ => if r.master / 4096 = 0 then coreRouter s (r.master % 4096) else deviceRouter q
  | .coll _ => clusterRouter (4 * r.die)

/-- The bridge links a message crosses, as (bridge, link): along its row, then along its column (R227). -/
def bridgesOf (a b : Nat × Nat) : List (Nat × Nat) :=
  (if a.2 / 8 = b.2 / 8 then [] else [(if a.1 / 8 = 0 then 0 else 1, a.1 % 8)])
    ++ (if a.1 / 8 = b.1 / 8 then [] else [(if b.2 / 8 = 0 then 2 else 3, b.2 % 8)])

/-- The bridge of the first FAILED link a message meets. -/
def failedOn (s : State) (a b : Nat × Nat) : Option Nat :=
  ((bridgesOf a b).find? (fun k => bitAt (getF s f_MEM_BRIDGE_STAT_FAILED k.1) k.2)).map Prod.fst

/-! ## Regulation (R262 to R267) -/

/-- Regulator kinds, as in a fabric fault record's MASTER (R276). -/
def masterCore (c : Nat) : Nat := c
def masterBulk (i : Nat) : Nat := 4096 + i
def masterSpill (i : Nat) : Nat := 2 * 4096 + i
def masterLink (p : Nat) : Nat := 3 * 4096 + p
def masterDevice (die : Nat) : Nat := 4 * 4096 + die

/-- A rate register as it applies in the window in progress: a commit's rates wait for the next window (R266). -/
def rateReg (s : State) (r : Reg) (k : Nat) : Nat :=
  match mfind s.qosOld (regKey r k 0) with
  | some v => v.toNat
  | none => getR s r k

/-- A master's rate in a class, in units of 8 MB/s (R263). Device work of a die has 0.80 GB/s for each present slice. -/
def rateOf (s : State) (master cls : Nat) : Nat :=
  let k := master % 4096
  match master / 4096 with
  | 0 => bitsOf (rateReg s r_QOS_CORE_RATE k) (16 * cls) 16
  | 1 => bitsOf (rateReg s r_QOS_IMG_BULK_RATE k) (16 * cls) 16
  | 2 => bitsOf (rateReg s r_QOS_IMG_SPILL_RATE k) 0 24
  | 3 => bitsOf (rateReg s r_QOS_LINK_RATE k) (16 * cls) 16
  | _ => 100 * ((List.range 64).filter (fun j => slicePresent s (64 * k + j))).length

/-- The budget of a window in bytes (R264). -/
def budgetOf (s : State) (rate : Nat) : Nat := rate * s.winLen * 32 / 1000

/-- The regulator that counts a request: spill and device work have one, the others one per class. -/
def regKeyOf (master cls : Nat) : Nat := master * 4 + (if master / 4096 = 2 || master / 4096 = 4 then 0 else cls)

/-- Does a guaranteed request match its class's target (R262, R328, R420, R424)? `dst` is 1 for Imago memory, 2 for the
host, 0 for neither; a request to a remote slice also needs a port of its DIRECT route and a synchronised time base. -/
def targetMatches (s : State) (r : MemReq) (dst : Nat) : Bool :=
  let kind := r.master / 4096
  (kind = 3 || dst ≠ 0) && (1 < kind || bitsOf (rateReg s r_QOS_IMG_TARGET r.inst) (2 * r.label) 2 = dst)
    && (dst = 2 || gpaChip r.gpa = chipId s
        || (flagF s f_LNK_STATUS_TIME_SYNC && !(guaranteedPorts s r.inst r.epoch (gpaChip r.gpa)).isEmpty))

/-- The relative deadline of a class (R267). -/
def relDeadline (s : State) (cls : Nat) (hop : Bool) : Nat :=
  if hop then getF s f_QOS_CLASS_DL_HOP cls else getF s f_QOS_CLASS_DL_LOCAL cls

/-- Demotes a request to label 4, and counts its bytes (R264). -/
def demote (s : State) (r : MemReq) : MemReq × State :=
  let s := countR s r_QOS_DEMOTED 0 r.len
  ({ r with label := 4, deadline := none }, if r.inst < 32 then countR s r_QOS_IMG_DEMOTE r.inst r.len else s)

/-- The procedure regulate of R264. A request from a peer keeps the deadline it carries (log entry 20); spill, which is paced at its
rate, is not demoted (R393). -/
def regulate (s : State) (r : MemReq) (dst : Nat) : MemReq × State :=
  if 3 < r.label then (r, s) else
  let budget := budgetOf s (rateOf s r.master r.label)
  let key := regKeyOf r.master r.label
  let count := mget 0 s.regCounts key
  if !targetMatches s r dst || (r.master / 4096 ≠ 2 && budget < count + r.len) then demote s r
  else
    let even := s.winStart + BitVec.ofNat 64 (count * s.winLen / budget)
    let release := if signedOf (even - s.now).toNat 64 < 0 then s.now else even
    let hop := dst ≠ 2 && gpaChip r.gpa ≠ chipId s
    let d := release + BitVec.ofNat 64 (relDeadline s r.label hop)
    ({ r with deadline := if r.master / 4096 = 3 && r.deadline.isSome then r.deadline else some d },
      { s with regCounts := mset 0 s.regCounts key (count + r.len) })

/-! ## Deadline misses (R275, R276) -/

/-- A guaranteed request that completes now, later than its deadline, is counted and reported once per Imago and window; one
that a stop has interrupted never misses. Device work is of no Imago (R276). -/
def missCheck (s : State) (r : MemReq) (write : Bool) : State :=
  match r.deadline with
  | none => s
  | some d =>
    if r.quiet || gpaLocal r.gpa ≥ hostWindow || 0 ≤ signed24 d s.now then s else
    let inst := if r.inst < 32 && r.master / 4096 ≠ 4 then r.inst else 0xFF
    let s := countR s r_QOS_MISS_COUNT 0 1
    let s := if inst < 32 then countR s r_QOS_IMG_MISS inst 1 else s
    let s := setF s f_QOS_STATUS_MISS_SEEN 0 1
    if s.missPosted.contains inst then s else
    let hop := decide (gpaChip r.gpa ≠ chipId s)
    let info := r.label + 4 * b2n hop + 8 * b2n write
    fabricFault { s with missPosted := s.missPosted ++ [inst] } 1 info r.master inst r.epoch r.gpa d.toNat

/-- The check of a read whose data reaches its requester; an atomic was checked where it was performed (R274, R275). -/
def readMiss (s : State) (r : MemReq) : State := if r.op = .read then missCheck s r false else s

/-- Requests that a coolant stop interrupts never count as misses (R275). -/
def quietReqs (s : State) : State := { s with reqs := s.reqs.map (fun kv : Nat × MemReq => (kv.1, { kv.2 with quiet := true })) }

/-! ## Sending and ending requests -/

/-- A request with nothing set but what every master gives. -/
def MemReq.make (op : ReqOp) (owner : ReqOwner) (gpa len : Nat) (data : List Byte) (label hint inst space master die : Nat)
    (secure : Bool) : MemReq :=
  ⟨op, owner, gpa, len, data, [], 0, label, none, hint, inst, space, 0, secure, master, die, false, .sent, 0, 0, 0, 0,
    false⟩

/-- Replaces a request. -/
def setReq (s : State) (id : Nat) (r : MemReq) : State := { s with reqs := mput s.reqs id r }

/-- The epoch that a request of an instance carries now; device work of a die carries 0 (R338). -/
def epochOf (s : State) (inst : Nat) : Nat := if inst < 32 then getF s f_CMP_EPOCH_EPOCH inst else 0

/-- The link message of a request to another chip (R414): reads, writes, atomics and reductions. -/
def reqMsg (s : State) (id : Nat) (r : MemReq) : LinkMsg :=
  let base : LinkMsg := { LinkMsg.blank s msgRead (gpaChip r.gpa) with
    label := r.label, deadline := r.deadline, epoch := r.epoch, inst := r.inst % 32
    instar := instarOf s (.inst r.inst), tag := id, addr := gpaLocal r.gpa }
  match r.op with
  | .read => { base with aux := r.len }
  | .write => { base with
      type := msgWrite, aux := touchedMask (r.gpa % 256) r.len, data := r.data, poison := r.poison / 2 ^ (r.gpa % 256 / 32) }
  | .atomic sub size sg _ =>
    { base with type := msgAtomic, aux := sub + 16 * b2n (size = 8) + 32 * b2n sg
                data := r.data ++ r.data2, poison := r.poison / 2 ^ (r.gpa % 256 / 32) }
  | .reduce f32 => { base with
      type := msgAtomic, aux := (if f32 then 64 else 128), data := r.data, poison := r.poison / 2 ^ (r.gpa % 256 / 32) }

/-- An ERR answer that the switch itself gives a request of this chip: the row ERR takes it from the input list. -/
def selfErr (s : State) (m : LinkMsg) (code : Nat) : State :=
  { s with linkIn := s.linkIn ++ [(32, { answerTo s m msgErr code 0 [] 0 with dest := chipId s, src := m.dest })] }

/-- Writes bytes to host memory, with their poison per 32-byte sector of the line. -/
def hostWrite (s : State) (h : Nat) (data : List Byte) (bad : Nat) : State :=
  let n := h / 256
  let old := ((List.range 8).filter (fun k => mget false s.hostPoison (8 * n + k))).foldl (fun a k => a + 2 ^ k) 0
  let new := poisonAfter old bad (h % 256) data.length
  (List.range 8).foldl (fun s k => { s with hostPoison := mset false s.hostPoison (8 * n + k) (bitAt new k) })
    { s with host := memPut s.host h data }

/-- The poison of host bytes, as sectors of their line. -/
def hostBad (s : State) (h len : Nat) : Nat :=
  ((List.range 8).filter (fun k => bitAt (touchedMask (h % 256) len) k && mget false s.hostPoison (8 * (h / 256) + k))).foldl
    (fun a k => a + 2 ^ k) 0

/-- Before a master's host write, its earlier host reads of the line return what they read (R92). -/
def fixHostReads (s : State) (r : MemReq) : State :=
  { s with reqs := s.reqs.map (fun kv : Nat × MemReq =>
      if kv.2.stage = .sent && kv.2.op = .read && kv.2.master = r.master && kv.2.gpa / 256 = r.gpa / 256 then
        let h := gpaLocal kv.2.gpa - hostWindow
        (kv.1, { kv.2 with stage := .done, data := memBytes s.host h kv.2.len, poison := hostBad s h kv.2.len })
      else kv) }

/-- Does an operation return a value? -/
def opAnswers : ReqOp → Bool
  | .read => true
  | .atomic _ _ _ ret => ret
  | _ => false

/-- A request whose value comes back poisoned; its bytes are free (R230, R356). -/
def poisonedBack (s : State) (id : Nat) (r : MemReq) : State :=
  let (bs, s) := freeBytes s r.len
  setReq s id { r with stage := .done, data := bs, poison := 255 }

/-- A request leaves its master (R231, R337). One to this chip's HBM waits for its buffer slice; a host write is sent at once, a
host read when it returns; one to another chip leaves through the switch. -/
def launch (s : State) (id : Nat) (r : MemReq) : State :=
  let here := originOf s r
  if gpaChip r.gpa = chipId s then
    if hostWindow ≤ gpaLocal r.gpa then
      match r.op, failedOn s here hostRouter with
      | .write, some b => satF s f_MEM_BRIDGE_STAT_LOST b 1
      | .write, none => hostWrite (fixHostReads s r) (gpaLocal r.gpa - hostWindow) r.data r.poison
      | _, _ => setReq s id r
    else setReq s id r
  else if leaseGone s r.gpa then
    if opAnswers r.op then poisonedBack s id r else countR s r_LNK_DISCARDS 0 1
  else
    let m := reqMsg s id r
    match sendMsg s m with
    | none => selfErr (setReq s id { r with stage := .remote }) m (noWay s m.dest)
    | some (p, s') =>
      match failedOn s here (portRouter p) with
      | none => setReq s' id { r with stage := .remote }
      | some b => if opAnswers r.op then poisonedBack s id r else satF s f_MEM_BRIDGE_STAT_LOST b 1

/-- Is a local address in a region of an evacuation that has flipped: its source, or its destination (R349)? -/
def inFlipped (s : State) (i : Nat) (e : EvacEntry) (dst : Bool) (gpa : Nat) : Bool :=
  let base := if dst then e.dstSlice * sliceBytes + e.dstRegion * imagoRb s i else e.srcSlice * sliceBytes + e.srcRegion * imagoRb s i
  e.flipped && gpaChip gpa = chipId s && base ≤ gpaLocal gpa && gpaLocal gpa < base + imagoRb s i

/-- Does a request's master hold it back: an earlier request of the master is outstanding to the same line under another class
label, or to the source of an evacuated entry whose destination this one names (R243, R349)? -/
def mustHold (s : State) (id : Nat) (r : MemReq) : Bool :=
  s.reqs.any (fun kv => decide (kv.1 < id) && kv.2.master = r.master
    && ((kv.2.gpa / 256 = r.gpa / 256 && kv.2.label ≠ r.label)
      || s.imagos.any (fun m => m.2.evac.any (fun e => inFlipped s m.1 e false kv.2.gpa && inFlipped s m.1 e true r.gpa))))

/-- Sends a request from its master (R264): it takes its label and deadline as it leaves, unless it is held back. `dst` is as in
`targetMatches`. Answers the request's number. -/
def sendReq (s : State) (r : MemReq) (dst : Nat) : Nat × State :=
  let (id, s) := fresh s
  let r := { r with issued := s.now, dst := dst }
  let (q, t) := regulate s r dst
  (id, if mustHold s id q then setReq s id { r with stage := .held } else launch t id q)

/-- Does anything of a thread operation remain outstanding? -/
def opReqs (s : State) (op : Nat) : Bool :=
  s.reqs.any (fun kv => match kv.2.owner with
    | .thread o _ => o = op
    | _ => false)

/-- Does a thread operation return a value? -/
def opReturns (o : ThreadOp) : Bool := o.kind = .load || (o.kind = .atomic && rkindZero o.data) || o.kind = .silkRead
where
  /-- DATA names a register, not ZERO. -/
  rkindZero (d : Nat) : Bool := decide (d ≠ 0x7F)

/-- A store, or an atomic that returns nothing, is over once all its lanes' requests have been performed. -/
def settleOp (s : State) (op : Nat) : State :=
  match mfind s.ops op with
  | none => s
  | some o => if opReturns o || !o.left.isEmpty || opReqs s op then s else { s with ops := mdel s.ops op }

/-- One part of a peer's request has been performed; after the last the peer is answered (R414): RESP with the data of every
part, or ACK. Poison marks 32-byte sectors of the data. -/
def answerPeer (s : State) (msg type ofs : Nat) (data : List Byte) (poison : Nat) : State :=
  match mfind s.linkReqs msg with
  | none => s
  | some j =>
    let j := { j with parts := mput j.parts ofs (data, poison), left := j.left - 1 }
    if j.left ≠ 0 then { s with linkReqs := mput s.linkReqs msg j }
    else
      let bytes := (j.parts.map (fun kv => kv.2.1)).flatten
      let bad := j.parts.foldl (fun a kv => Nat.lor a (kv.2.2 * 2 ^ (kv.1 / 32))) 0
      sendOrDrop { s with linkReqs := mdel s.linkReqs msg } (answerTo s j.msg type 0 0 bytes bad)

/-- Where a part of a peer's request lies in its data. -/
def partOfs (s : State) (msg : Nat) (r : MemReq) : Nat :=
  match mfind s.linkReqs msg with
  | some j => gpaLocal r.gpa - j.msg.addr
  | none => 0

/-- A write of a mover burst is performed; a burst whose last byte is written raises its credit line when the descriptor
asks for a raise per burst, and is over (R214, R218). -/
def burstWritten (s : State) (u k id : Nat) : State :=
  let c := chan s u k
  let bursts := c.bursts.map (fun b => { b with writes := b.writes.filter (fun w => w ≠ id) })
  let fin (b : Burst) : Bool := b.delivered && b.writes.isEmpty
  let raise := ((c.queue.head?.map Desc.bytes).getD []).getD 7 0
  let s := setChan s u k { c with bursts := bursts.filter (fun b => !fin b) }
  if raise.toNat / 16 % 4 = 3 then
    raiseCredit s u (raise.toNat % 16) (bursts.filter (fun b => fin b && b.last)).length
  else s

/-- A request that returns nothing is over: its thread operation may be over, and a peer is answered ACK. -/
def ownerWritten (s : State) (id : Nat) (r : MemReq) : State :=
  match r.owner with
  | .thread op _ => settleOp s op
  | .link m => answerPeer s m msgAck (partOfs s m r) [] 0
  | .moverWrite u k => burstWritten s u k id
  | _ => s

/-- The first held request that nothing holds back any more, as it leaves its master now. -/
def nextHeld (s : State) : Option (Nat × MemReq × State) :=
  (s.reqs.filterMap (fun kv =>
    if kv.2.stage ≠ .held then none else
    let q := regulate s { kv.2 with stage := .sent, issued := s.now } kv.2.dst
    if mustHold s kv.1 q.1 then none else some (kv.1, q.1, { q.2 with reqs := mdel q.2.reqs kv.1 }))).head?

/-- Sends the held requests that may now leave, up to `n`. -/
def releaseHeld (s : State) : Nat → State
  | 0 => s
  | n + 1 => match nextHeld s with
    | none => s
    | some (id, r, t) =>
      let t := launch t id r
      releaseHeld (if (mfind t.reqs id).isSome then t else ownerWritten t id r) n

/-- Removes the requests that meet a test; requests held back behind them leave. -/
def forgetReqs (s : State) (p : Nat → MemReq → Bool) : State :=
  let held := (s.reqs.filter (fun kv => kv.2.stage = .held)).length
  releaseHeld { s with reqs := s.reqs.filter (fun kv => !p kv.1 kv.2) } held

/-- Removes a request. -/
def dropReq (s : State) (id : Nat) : State := forgetReqs s (fun k _ => decide (k = id))

/-- Ends a request that returns nothing, when it is performed. A request to another chip was checked there (R275). -/
def endWrite (s : State) (id : Nat) (r : MemReq) : State :=
  let s := dropReq s id
  ownerWritten (if gpaChip r.gpa = chipId s then missCheck s r true else s) id r

/-- A request whose value is fixed: it is on its way back to its master, or, for a peer, in a RESP message. An atomic is checked
here, where it is performed (R274). -/
def endRead (s : State) (id : Nat) (r : MemReq) (data : List Byte) (bad : Nat) : State :=
  let s := if r.op = .read then s else missCheck s r true
  match r.owner with
  | .link m => answerPeer (dropReq s id) m msgResp (partOfs s m r) data (bad / 2 ^ (r.gpa % 256 / 32))
  | _ => setReq s id { r with stage := .done, data := data, poison := bad }

/-! ## The buffer slice (R239 to R241, R246 to R248) -/

/-- The local line and offset at which a request is performed (R235, R348). -/
def reqLine (s : State) (r : MemReq) : Nat × Nat :=
  let a := forwarded s (gpaLocal r.gpa)
  (a / 256, a % 256)

/-- Is an earlier request of the same master to the same line still to be performed (R92, R243)? A line that an evacuation
moves is one line, whichever of its places a request names (R349). -/
def olderAtLine (s : State) (id : Nat) (r : MemReq) : Bool :=
  s.reqs.any (fun kv => decide (kv.1 < id) && kv.2.master = r.master && (kv.2.stage = .sent || kv.2.stage = .hbm)
    && (kv.2.gpa / 256 = r.gpa / 256 || (gpaChip kv.2.gpa = gpaChip r.gpa && (reqLine s kv.2).1 = (reqLine s r).1)))

/-- The transactions that a slice's tracker holds: the misses that wait for HBM (R237, R238). -/
def tracked (s : State) (m : Nat) : Nat :=
  (s.reqs.filter (fun kv => kv.2.stage = .hbm && sliceOf (256 * (reqLine s kv.2).1) = m)).length

/-- A request at its buffer slice on this chip, in a stage; a master's requests to one line are performed in issue order. A slice
whose tracker of 256 transactions is full takes no other (R238). -/
def atSlice (s : State) (id : Nat) (st : ReqStage) : Option MemReq :=
  match mfind s.reqs id with
  | some r =>
    if r.stage = st && gpaChip r.gpa = chipId s && gpaLocal r.gpa < hbmTop && !olderAtLine s id r
        && (st = .hbm || tracked s (sliceOf (256 * (reqLine s r).1)) < 256) then some r else none
  | none => none

/-- Performs a read (R239): its bytes and poison; one whose route crosses a FAILED bridge link returns poisoned (R230). -/
def performRead (s : State) (id : Nat) (r : MemReq) : State :=
  let (n, o) := reqLine s r
  let home := sliceRouter (sliceOf (256 * n))
  let here := originOf s r
  let lost := (failedOn s here home).isSome || (failedOn s home here).isSome
  let bad := if lost then touchedMask o r.len else Nat.land (lineBad s n) (touchedMask o r.len)
  let data := ((lineBytes s n).drop o).take r.len
  endRead (countR s r_MEM_RD_BYTES (sliceOf (256 * n)) r.len) id r data bad

/-- Performs a write (R239, R240); one routed over a FAILED bridge link is discarded and counted (R230). -/
def performWrite (s : State) (id : Nat) (r : MemReq) : State :=
  let (n, o) := reqLine s r
  match failedOn s (originOf s r) (sliceRouter (sliceOf (256 * n))) with
  | some b => endWrite (satF s f_MEM_BRIDGE_STAT_LOST b 1) id r
  | none =>
    endWrite (countR (lineWrite s n o r.poison r.hint r.data) r_MEM_WR_BYTES (sliceOf (256 * n)) r.data.length) id r

/-- Is the request a read? -/
def isRead (r : MemReq) : Bool := r.op = .read

/-- Is the request a write? -/
def isWrite (r : MemReq) : Bool := r.op = .write

/-- BUFFER_REQUEST: a read or write is looked up at its buffer slice and performed, or waits for HBM (R239 to R241). A
BYPASS write never waits. `errs` are the buffer SRAM errors it finds (R249). -/
def execBufferRequest (id : Nat) (errs : List SectorErr) (s : State) : Out :=
  .next (match atSlice s id .sent with
    | none => s
    | some r =>
      let (n, o) := reqLine s r
      let s := sramFind s n (touchedMask o r.len) errs
      if isRead r then
        if bufHit s n o r.len false then performRead (touchLine s n) id r else setReq s id { r with stage := .hbm }
      else if isWrite r then
        if r.hint = 3 || bufHit s n o r.len true then performWrite s id r else setReq s id { r with stage := .hbm }
      else s)

/-- HBM_ACCESS_COMPLETE: the sectors a miss needs have been read from HBM; errors are corrected or poisoned, the line is
allocated as the hint says, and the read or write is performed (R240, R241, R249). An atomic or reduction always allocates
and is then performed by its own command. -/
def execHbmAccessComplete (id : Nat) (errs : List SectorErr) (s : State) : Out :=
  .next (match atSlice s id .hbm with
    | none => s
    | some r =>
      let (n, o) := reqLine s r
      let held := ((bufOf s n).map BufLine.valid).getD 0
      let need := minus (if isWrite r then writeNeed o r.len else touchedMask o r.len) held
      let s := hbmFind s 0 n need errs
      if isRead r then performRead (readAllocate s n r.hint r.spec o r.len) id r
      else if isWrite r then performWrite s id r
      else setReq (fillLine (allocate s n 0) n (touchedMask o r.len)) id { r with stage := .sent })

/-- BUFFER_ATOMIC: an integer atomic is performed at its buffer slice (R246); with poison in its target it is not performed,
and returns its old value poisoned (R248). -/
def execBufferAtomic (id : Nat) (errs : List SectorErr) (s : State) : Out :=
  .next (match atSlice s id .sent with
    | none => s
    | some r => match r.op with
      | .atomic sub size sg ret =>
        let (n, o) := reqLine s r
        let t := touchedMask o size
        if !bufHit s n o size false then setReq s id { r with stage := .hbm } else
        let s := sramFind s n t errs
        let old := ((lineBytes s n).drop o).take size
        let home := sliceRouter (sliceOf (256 * n))
        match failedOn s (originOf s r) home with
        | some b =>
          let s := satF s f_MEM_BRIDGE_STAT_LOST b 1
          if ret then endRead s id r old t else endWrite s id r
        | none =>
          let bad := Nat.land (lineBad s n) t
          let back := if (failedOn s home (originOf s r)).isSome then t else bad
          if bad ≠ 0 then
            if ret then endRead s id r old bad else endWrite s id r
          else
            let v := atomicResult sub (8 * size) sg (leNat old) (leNat r.data) (leNat r.data2)
            let s := bufWrite s n o r.poison (leBytes size v)
            let s := countR (countR s r_MEM_RD_BYTES (sliceOf (256 * n)) size) r_MEM_WR_BYTES (sliceOf (256 * n)) size
            if ret then endRead s id r old back else endWrite s id r
      | _ => s)

/-- BUFFER_REDUCTION: a mover reduction adds its data into the line, element by element; a sector built from poisoned bytes
is poisoned, and the flags go to the channel (R205, R221, R247, R248). -/
def execBufferReduction (id : Nat) (errs : List SectorErr) (s : State) : Out :=
  .next (match atSlice s id .sent with
    | none => s
    | some r => match r.op with
      | .reduce isF32 =>
        let (n, o) := reqLine s r
        let t := touchedMask o r.len
        if !bufHit s n o r.len false then setReq s id { r with stage := .hbm } else
        let s := sramFind s n t errs
        match failedOn s (originOf s r) (sliceRouter (sliceOf (256 * n))) with
        | some b => endWrite (satF s f_MEM_BRIDGE_STAT_LOST b 1) id r
        | none =>
          let sum := reduceElems isF32 (((lineBytes s n).drop o).take r.len) r.data
          let bad := Nat.lor (Nat.land (lineBad s n) t) r.poison
          let s := bufWrite s n o bad sum.1
          let s := countR (countR s r_MEM_RD_BYTES (sliceOf (256 * n)) r.len) r_MEM_WR_BYTES (sliceOf (256 * n)) r.len
          let s := match r.owner with
            | .moverWrite u k => setChan s u k { chan s u k with flags := (chan s u k).flags ||| sum.2 }
            | _ => s
          endWrite s id r
      | _ => s)

/-- Poisoned data that reaches its requester is counted in MEM_POISON_RD (R251). -/
def countPoison (s : State) (bad : Nat) : State := if bad = 0 then s else countR s r_MEM_POISON_RD 0 1

/-- The data of a finished read, and its poison: of a request done, or of a host read, which returns now (R244). -/
def readBack (s : State) (r : MemReq) : Option (List Byte × Nat) :=
  if r.stage = .done then some (r.data, r.poison)
  else if r.stage = .sent && gpaChip r.gpa = chipId s && hostWindow ≤ gpaLocal r.gpa then
    let h := gpaLocal r.gpa - hostWindow
    let lost := (failedOn s (originOf s r) hostRouter).isSome || (failedOn s hostRouter (originOf s r)).isSome
    some (memBytes s.host h r.len, if lost then touchedMask (h % 256) r.len else hostBad s h r.len)
  else none

/-! ## Accesses made at once (log entry 22) -/

/-- The bytes of one line that an access of device work finds, and their poison. -/
def readAt (s : State) (g n : Nat) : List Byte × Nat :=
  if hostWindow ≤ gpaLocal g then
    let h := gpaLocal g - hostWindow
    (memBytes s.host h n, hostBad s h n)
  else
    let a := forwarded s (gpaLocal g)
    (((lineBytes s (a / 256)).drop (a % 256)).take n, Nat.land (lineBad s (a / 256)) (touchedMask (a % 256) n))

/-- The router of the agent that holds an address of this chip. -/
def homeRouter (s : State) (g : Nat) : Nat × Nat :=
  if hostWindow ≤ gpaLocal g then hostRouter else sliceRouter (sliceOf (forwarded s (gpaLocal g)))

/-- Reads bytes of one line of this chip or the host, at once, from a router: the read is counted, allocates under NORMAL, and comes
back poisoned over a FAILED bridge link (R230, R240, R258). -/
def readLine (s : State) (here : Nat × Nat) (g n : Nat) : (List Byte × Nat) × State :=
  let home := homeRouter s g
  let lost := (failedOn s here home).isSome || (failedOn s home here).isSome
  let d := readAt s g n
  let a := if hostWindow ≤ gpaLocal g then gpaLocal g else forwarded s (gpaLocal g)
  let bad := if lost then touchedMask (a % 256) n else d.2
  ((d.1, bad), if hostWindow ≤ gpaLocal g then s
    else countR (readAllocate s (a / 256) 0 false (a % 256) n) r_MEM_RD_BYTES (sliceOf a) n)

/-- The same as a delivery of its own: poison that it delivers is counted (R251). -/
def readNow (s : State) (here : Nat × Nat) (g n : Nat) : (List Byte × Nat) × State :=
  let d := readLine s here g n
  (d.1, countPoison d.2 d.1.2)

/-- Writes bytes of one line of this chip or the host, at once, from a router, under NORMAL; over a FAILED bridge link the write
is discarded and counted (R230, R240, R258). -/
def writeNow (s : State) (here : Nat × Nat) (g bad : Nat) (data : List Byte) : State :=
  match failedOn s here (homeRouter s g) with
  | some b => satF s f_MEM_BRIDGE_STAT_LOST b 1
  | none =>
    if hostWindow ≤ gpaLocal g then hostWrite s (gpaLocal g - hostWindow) data bad
    else
      let a := forwarded s (gpaLocal g)
      countR (lineWrite s (a / 256) (a % 256) bad 0 data) r_MEM_WR_BYTES (sliceOf a) data.length

/-! ## Scrubbing and bridges (R230, R250, R277) -/

/-- SCRUB_LINE: the patrol scrubber reads the next line of a present slice and corrects it; a line the buffer holds is
scrubbed through the buffer (R249, R250). -/
def execScrubLine (m : Nat) (errs : List SectorErr) (s : State) : Out :=
  .next (
    if !flagF s f_MEM_CFG_SCRUB_EN || !slicePresent s m then s else
    let k := mget 0 s.scrubPos m
    let n := m * (sliceBytes / 256) + k
    let held := ((bufOf s n).map BufLine.valid).getD 0
    let s := hbmFind (sramFind s n 255 (errs.filter (fun e => bitAt held (e.sector % 8)))) 1 n (minus 255 held) errs
    let s := { s with scrubPos := mset 0 s.scrubPos m ((k + 1) % (sliceBytes / 256)) }
    setF s f_MEM_STATUS_SCRUB_ACTIVE 0 (b2n (!s.scrubPos.isEmpty)))

/-- The capacity of a bridge direction in units of 1/128 MB/s, with its FAILED links (R269). -/
def bridgeCap (s : State) (b : Nat) : Nat :=
  let bad := ((List.range 8).filter (fun k => bitAt (getF s f_MEM_BRIDGE_STAT_FAILED b) k)).length
  getR s r_QOS_CAP_BRIDGE * 128 * (8 - bad) / 8

/-- A bridge link fails: it is marked FAILED, BRIDGE_FAILED is posted, and OVERCOMMIT, naming the bridge in INFO, when a load
exceeds the reduced capacity (R230, R277; log entry 60). -/
def bridgeFail (s : State) (b k : Nat) : State :=
  let s := setF s f_MEM_BRIDGE_STAT_FAILED b (setBits (getF s f_MEM_BRIDGE_STAT_FAILED b) k 1 1)
  let s := fabricFault s 3 (b + 4 * k) 0 0xFF 0 0 0
  if bridgeCap s b < getR s r_QOS_BRIDGE_LOAD (2 * b) || bridgeCap s b < getR s r_QOS_BRIDGE_LOAD (2 * b + 1) then
    fabricFault (setF s f_QOS_STATUS_OVERCOMMIT 0 1) 4 b 0 0xFF 0 0 0
  else s

/-- BRIDGE_RESEND: a flit on a bridge link fails its CRC and is resent; `again` says it is a resend of the same flit. The
16th consecutive resend fails the link (R230). -/
def execBridgeResend (b k : Nat) (again : Bool) (s : State) : Out :=
  .next (
    if 4 ≤ b || 8 ≤ k || bitAt (getF s f_MEM_BRIDGE_STAT_FAILED b) k then s else
    let s := satF s f_MEM_BRIDGE_STAT_RETRIES b 1
    let n := (if again then mget 0 s.bridgeRun (8 * b + k) else 0) + 1
    let s := { s with bridgeRun := mset 0 s.bridgeRun (8 * b + k) n }
    if n < 16 then s else bridgeFail s b k)

/-! ## Buffer commands (R258) -/

/-- The buffered lines of a slice. -/
def linesOf (s : State) (m : Nat) : List Nat := (s.bufs.filter (fun kv => sliceOf (256 * kv.1) = m)).map Prod.fst

/-- WB: writes every dirty line of a buffer slice back to HBM; the lines stay. Discarded while WB_BUSY is 1 (R258). -/
def execWb (m : Nat) (s : State) : Out :=
  .next (
    if 256 ≤ m || flagF s f_MEM_SLICE_STAT_WB_BUSY m then s
    else setF ((linesOf s m).foldl writeBack s) f_MEM_SLICE_STAT_WB_BUSY m 1)

/-- WBINV: writes back, then invalidates every line of a buffer slice (R258). -/
def execWbinv (m : Nat) (s : State) : Out :=
  .next (
    if 256 ≤ m || flagF s f_MEM_SLICE_STAT_WB_BUSY m then s
    else setF ((linesOf s m).foldl evict s) f_MEM_SLICE_STAT_WB_BUSY m 1)

/-- SLICE_CMD_DONE: a buffer command finishes, and WB_BUSY clears (R258). -/
def execSliceCmdDone (m : Nat) (s : State) : Out :=
  .next (if flagF s f_MEM_SLICE_STAT_WB_BUSY m then setF s f_MEM_SLICE_STAT_WB_BUSY m 0 else s)

/-! ## Regulator windows (R264, R266) -/

/-- REGULATOR_WINDOW: at the end of the window in progress a new one begins: every count is zero, pending rates apply, and a
written QOS_WIN_LEN sets its length; lanes VL0 and VL1 have their allowance again (R264, R266, R410). -/
def execRegulatorWindow (s : State) : Out :=
  .next (
    if since s s.winStart < s.winLen then s else
    let w := getF s f_QOS_WIN_LEN_TICKS
    let first := s.winStart + BitVec.ofNat 64 s.winLen
    let k := (s.now - first).toNat / w
    let s := { s with
      winStart := first + BitVec.ofNat 64 (k * w)
      winLen := w
      regCounts := []
      qosOld := []
      missPosted := []
      ports := s.ports.map (fun kv : Nat × Port => (kv.1, { kv.2 with lane0 := 0, lane1 := 0 })) }
    (s.ports.map Prod.fst).foldl pump s)

/-- QOS_WIN_LEN_WRITE: a window length of 64 to 16,000 ticks; it applies from the end of the window in progress, and another
value leaves the field unchanged (R20, R266, R278). -/
def execQosWinLenWrite (v : Nat) (s : State) : Out :=
  .next (if 64 ≤ bitsOf v 0 14 && bitsOf v 0 14 ≤ 16000 then setF s f_QOS_WIN_LEN_TICKS 0 (bitsOf v 0 14) else s)

/-! ## Memory apertures (R245) -/

/-- An access of the host through BAR2. -/
def apertureTarget (s : State) (n o : Nat) : Option Nat :=
  let base := getF s f_MEM_APER_BASE n * 2 ^ 21 + o
  let i := getF s f_MEM_APER_INSTANCE n
  if !flagF s f_MEM_APER_VALID n then none
  else if !flagF s f_MEM_APER_MODE n then
    if base < hbmTop && slicePresent s (sliceOf base) then some base else none
  else if !flagF s f_SEC_INST_EXISTS i || !holdsMemory s i then none
  else match locate s i (epochOf s i) base with
    | some g => if gpaChip g = chipId s then some (gpaLocal g) else none
    | none => none

/-- Is the aperture in service: no coolant stop in force, and eclosion phase E5 completed (R245)? -/
def apertureOpen (s : State) : Bool := !flagF s f_PWR_STATUS_COOLANT_STOP && 5 < getF s f_RST_STATE_PHASE

/-- The pieces of a range cut at 256-byte lines: offset and length, within `fuel` lines. -/
def cutLines (a len : Nat) : Nat → List (Nat × Nat)
  | 0 => []
  | fuel + 1 =>
    if len = 0 then [] else
    let k := min len (256 - a % 256)
    (a, k) :: cutLines (a + k) (len - k) fuel

/-- Is one line's access refused: it reaches nothing, or a secure address? -/
def apertureLine (s : State) (n o : Nat) : Option Nat :=
  match apertureTarget s n o with
  | some a => if secureAddr s a then none else some a
  | none => none

/-- APERTURE_REQUEST: a host request at an offset of aperture n is cut into lines, each performed at its buffer slice with
label 5 under R239; a request any line of which is refused completes with Unsupported Request, and a write is discarded
(R245, R251, R453). `atomicOp` marks an AtomicOp request; `data` is what a write carries, `len` what a read asks for. -/
def execApertureRequest (n o len : Nat) (write atomicOp : Bool) (data : List Byte) (poisoned : Bool) (s : State) : Out :=
  .next (
    let size := if write then data.length else len
    let cuts := cutLines o size (size / 256 + 2)
    let refuse := atomicOp || 16 ≤ n || 0x40000000 < o + size || !apertureOpen s
      || cuts.any (fun c => (apertureLine s n c.1).isNone)
    if refuse then
      let secure := !atomicOp && apertureOpen s && cuts.any (fun c =>
        match apertureTarget s n c.1 with
        | some a => secureAddr s a
        | none => false)
      let s := if secure then countR s r_SEC_WORLD_REFUSED 0 1 else s
      { s with reply := ⟨false, false, []⟩ }
    else
      let place (c : Nat × Nat) : Nat := chipId s * 2 ^ 48 + (apertureLine s n c.1).getD 0
      if write then
        let s' := cuts.foldl (fun s c =>
          let g := place c
          writeNow s hostRouter g (if poisoned then touchedMask (g % 256) c.2 else 0) ((data.drop (c.1 - o)).take c.2)) s
        { s' with reply := ⟨true, false, []⟩ }
      else
        let r := cuts.foldl (fun (acc : (List Byte × Bool) × State) c =>
          let d := readLine acc.2 hostRouter (place c) c.2
          ((acc.1.1 ++ d.1.1, acc.1.2 || d.1.2 ≠ 0), d.2)) (([], false), s)
        { countPoison r.2 (b2n r.1.2) with reply := ⟨true, r.1.2, r.1.1⟩ })

end Sys2Proof.Machine
end

