-- ==== Sys2Proof/Machine/Xlt.lean ====
section
/-!
DEFINITION. Address translation (R279 to R296, R355, R453, R461, R547): page-table entries and walks, the caches of
translations, tiles, the fault tracker, and the resolution of a translated address when a request leaves its master.
-/

namespace Sys2Proof.Machine

/-! ## Entries (R282 to R284) -/

/-- Fault reasons (R294). -/
def faultNotPresent : Nat := 1
def faultEntryInvalid : Nat := 2
def faultFrameRange : Nat := 3
def faultWorld : Nat := 4
def faultWalkPoison : Nat := 5
def faultWalkError : Nat := 6

/-- The range of one entry of a level (R282). -/
def levelRange (level : Nat) : Nat := 2 ^ (12 + 9 * level)

/-- The page size of a leaf at a level. -/
def leafSize (level e : Nat) : Nat := if level = 0 then if bitAt e 2 then 65536 else 4096 else levelRange level

/-- The address that an entry's FRAME gives. -/
def entryAddr (e : Nat) : Nat := e / 4096 * 4096

/-- Is a valid entry a leaf: LEAF at level 1 or 2, and every entry of level 0? -/
def isLeaf (e level : Nat) : Bool := level = 0 || bitAt e 1

/-- Is a valid entry well formed (R283, R284)? -/
def entryWell (e level : Nat) : Bool :=
  if isLeaf e level then
    level ≠ 3 && (level = 0 || !bitAt e 2) && bitsOf e 3 2 ≠ 3 && entryAddr e % leafSize level e = 0
  else !bitAt e 2 && bitsOf e 3 2 ≤ 1 && bitsOf e 5 3 = 0

/-- Does a page or table of `size` bytes lie within its location (R284)? -/
def inRange (s : State) (inst loc a size : Nat) : Bool :=
  if loc = 0 then holdsMemory s inst && a + size ≤ 1024 * imagoRb s inst
  else if loc = 1 then a + size ≤ 2 ^ 47
  else gpaChip a ≠ chipId s && gpaLocal a + size ≤ hbmTop

/-- The outcome of one step of a walk: the next table, a leaf's translation, or a fault. -/
inductive WalkOut where
  | table (loc a : Nat)
  | leaf (x : Xlat)
  | fault (reason : Nat)
  deriving DecidableEq, Repr

/-- What an entry that a walk reads at a level means for an address (R284). -/
def readEntry (s : State) (slot : SlotInfo) (va level e : Nat) : WalkOut :=
  if !bitAt e 0 then .fault faultNotPresent
  else if !entryWell e level then .fault faultEntryInvalid
  else if isLeaf e level then
    let size := leafSize level e
    if bitsOf e 5 1 ≠ slot.world then .fault faultWorld
    else if !inRange s slot.inst (bitsOf e 3 2) (entryAddr e) size then .fault faultFrameRange
    else .leaf ⟨va / size * size, size, bitsOf e 3 2, entryAddr e, bitsOf e 6 2⟩
  else if !inRange s slot.inst (bitsOf e 3 2) (entryAddr e) 4096 then .fault faultFrameRange
  else .table (bitsOf e 3 2) (entryAddr e)

/-- The index of an address in a table of a level. -/
def tableIndex (va level : Nat) : Nat := va / 2 ^ (12 + 9 * level) % (if level = 3 then 1024 else 512)

/-- The missing range of a fault at a level (R293): the entry's range, or the leaf's own page for WORLD and for FRAME_RANGE
at a leaf; `leaf` is that leaf's page size, 0 for none. -/
def missingRange (va level reason leaf : Nat) : Nat × Nat :=
  let size := if leaf ≠ 0 && (reason = faultWorld || reason = faultFrameRange) then leaf else levelRange level
  (va / size * size, size)

/-! ## Resolution (R232, R279, R337, R355, R453, R461, R547) -/

/-- Where a translated address leads when its request leaves its master. -/
inductive Place where
  /-- A global physical address, the class target it matches (1 Imago memory, 2 host, 0 neither), and the cache hint. -/
  | at (gpa dst hint : Nat)
  /-- Refused, with a reason of R294. -/
  | refused (reason : Nat)
  /-- The Imago's memory key is bad. -/
  | keyBad
  deriving DecidableEq, Repr

/-- Does placement permit a LOC 2 access at a virtual address (R355)? -/
def placementOk (s : State) (inst va : Nat) : Bool :=
  let ranges := (List.range 16).filter (fun j => flagF s f_CMP_PLACE_VALID (16 * inst + j))
  let within (j : Nat) : Bool :=
    getF s f_CMP_PLACE_BASE (16 * inst + j) ≤ va / 2 ^ 21 && va / 2 ^ 21 ≤ getF s f_CMP_PLACE_LAST (16 * inst + j)
  let hot (j : Nat) : Bool := flagF s f_CMP_PLACE_HOT (16 * inst + j)
  let meets (j k : Nat) : Bool :=
    getF s f_CMP_PLACE_BASE (16 * inst + j) ≤ getF s f_CMP_PLACE_LAST (16 * inst + k)
      && getF s f_CMP_PLACE_BASE (16 * inst + k) ≤ getF s f_CMP_PLACE_LAST (16 * inst + j)
  ranges.isEmpty || ranges.any (fun j => within j && !hot j && !ranges.any (fun k => hot k && meets j k))

/-- Resolves a virtual address through a translation, under the current epoch's map (R337, R547). -/
def resolve (s : State) (inst world : Nat) (x : Xlat) (va : Nat) : Place :=
  let a := x.addr + (va - x.va)
  let guard (g : Nat) (p : Place) : Place :=
    if gpaChip g = chipId s && gpaLocal g < hbmTop && world = 0 && secureAddr s (gpaLocal g) then .refused faultWorld
    else p
  if x.loc = 0 then
    if (imago s inst).keyBad then .keyBad else
    match locate s inst (epochOf s inst) a with
    | none => .refused faultFrameRange
    | some g =>
      if gpaChip g = chipId s && !slicePresent s (sliceOf (gpaLocal g)) then .refused faultFrameRange
      else guard g (.at g 1 x.hint)
  else if x.loc = 1 then
    if a < 2 ^ 47 then .at (chipId s * 2 ^ 48 + hostWindow + a) 2 x.hint else .refused faultFrameRange
  else if gpaChip a = chipId s || hbmTop ≤ gpaLocal a || !placementOk s inst va then .refused faultFrameRange
  else .at a 0 x.hint

/-- Counts a refused location: under placement in CMP_PLACE_MISS, of a world in SEC_WORLD_REFUSED. -/
def countRefusal (s : State) (inst : Nat) (x : Xlat) (va reason : Nat) : State :=
  if reason = faultWorld then countR s r_SEC_WORLD_REFUSED 0 1
  else if x.loc = 2 && inst < 32 && !placementOk s inst va then countR s r_CMP_PLACE_MISS inst 1 else s

/-! ## Caches (R288) -/

/-- Does a translation cover an address? -/
def Xlat.covers (x : Xlat) (va : Nat) : Bool := x.va ≤ va && va < x.va + x.size

/-- The key of the shared TLB of a base die. -/
def sharedTlb (die : Nat) : Nat := 256 + die

/-- The entries a TLB holds. -/
def tlbSize (cache : Nat) : Nat := if cache < 256 then 256 else 16384

/-- A cached translation. -/
def tlbFind (s : State) (cache space va : Nat) : Option Xlat :=
  (s.tlb.find? (fun e => e.cache = cache && e.space = space && e.x.covers va)).map TlbEntry.x

/-- Fills a TLB; when it is full, its oldest entry is replaced (the choice is not specified, R288). -/
def tlbFill (s : State) (cache space : Nat) (x : Xlat) : State :=
  let l := s.tlb.filter (fun e => !(e.cache = cache && e.space = space && e.x = x))
  let mine := l.filter (fun e => e.cache = cache)
  let l := if tlbSize cache ≤ mine.length then match mine.head? with
      | some e => l.erase e
      | none => l
    else l
  { s with tlb := l ++ [⟨cache, space, x⟩] }

/-- The deepest cached table pointer for an address. -/
def wcFind (s : State) (die space va : Nat) : Option WalkCacheEntry :=
  (s.wcache.filter (fun e => e.die = die && e.space = space && e.va = va / levelRange e.level * levelRange e.level)).foldl
    (fun best e => match best with
      | none => some e
      | some b => if e.level < b.level then some e else best) none

/-- Fills a walk cache of 512 entries. -/
def wcFill (s : State) (e : WalkCacheEntry) : State :=
  let l := s.wcache.filter (fun x => x ≠ e)
  let mine := l.filter (fun x => x.die = e.die)
  let l := if 512 ≤ mine.length then match mine.head? with
      | some x => l.erase x
      | none => l
    else l
  { s with wcache := l ++ [e] }

/-! ## Tiles and walks (R284, R291 to R293) -/

/-- Replaces a tile. -/
def setTile (s : State) (id : Nat) (t : Tile) : State := { s with tiles := mput s.tiles id t }

/-- The command that waits while a tile is stalled, with its queue. -/
def tileCmd (s : State) (t : Tile) : Option (Nat × Nat) :=
  match t.owner with
  | .device _ q c => some (q, c)
  | .gate w => ((mget Gate.empty s.gates w).run).map (fun r => (r.job.queue, r.job.cmd))
  | .mover u k => match (chan s u k).queue.head? with
    | some d => match d.owner with
      | .command q c => some (q, c)
      | .gate w => ((mget Gate.empty s.gates w).run).map (fun r => (r.job.queue, r.job.cmd))
      | .xmov _ _ => none
    | none => none
  | _ => none

/-- The core whose batch waits while a tile is stalled: of a thread, a fetch, or a descriptor that XMOV queued. -/
def tileCore (s : State) (t : Tile) : Option Nat :=
  match t.owner with
  | .thread op => (mfind s.ops op).map ThreadOp.core
  | .fetch c _ => some c
  | .mover u _ => if u < 256 && (tileCmd s t).isNone then some u else none
  | _ => none

/-- Leaves time stalled on translation faults out of the limits and watchdogs (R300, R392, R522): `n` ticks of a tile. -/
def stallTime (s : State) (t : Tile) (n : Nat) : State :=
  let later (d : DWord) : DWord := let x := d + BitVec.ofNat 64 n; if (s.now - d).toNat < n then s.now else x
  match tileCore s t with
  | some c => match batchOf s c with
    | some b => setBatch s c (some { b with progress := later b.progress })
    | none => s
  | none => match tileCmd s t with
    | none => s
    | some (q, c) =>
      let s := match mfind s.cmds c with
        | some v => { s with cmds := mput s.cmds c { v with stalled := v.stalled + n } }
        | none => s
      match mfind s.queues q with
      | some v => { s with queues := mput s.queues q { v with progress := later v.progress } }
      | none => s

/-- A stalled tile, other than `id`, of the command that waits for a tile. -/
def otherStall (s : State) (id : Nat) (t : Tile) : Option Nat :=
  (s.tiles.find? (fun kv => kv.1 ≠ id && kv.2.stalled && (tileCmd s t).isSome && tileCmd s kv.2 = tileCmd s t
    && (mfind s.stallAt kv.1).isSome)).map Prod.fst

/-- Ends the stall of a tile, if it is stalled. Time in which another tile of its command is stalled too is taken with that one. -/
def unstall (s : State) (id : Nat) : State :=
  match mfind s.tiles id, mfind s.stallAt id with
  | some t, some at0 => match otherStall s id t with
    | none => { stallTime s t (s.now - at0).toNat with stallAt := mdel s.stallAt id }
    | some o =>
      let first := if since s (mget 0 s.stallAt o) < since s at0 then at0 else mget 0 s.stallAt o
      { s with stallAt := mput (mdel s.stallAt id) o first }
  | _, _ => s

/-- TRACKER_FULL is set while a tile waits for a tracker entry (R293). -/
def noteWaiting (s : State) : State :=
  if flagF s f_XLT_STATUS_TRACKER_FULL && !s.tiles.any (fun kv => kv.2.wantsEntry) then
    setF s f_XLT_STATUS_TRACKER_FULL 0 0
  else s

/-- Removes a tile; walks no longer answer it. -/
def dropTile (s : State) (id : Nat) : State :=
  let s := unstall s id
  noteWaiting { s with
    tiles := mdel s.tiles id
    walks := s.walks.map (fun kv : Nat × Walk => (kv.1, { kv.2 with tiles := kv.2.tiles.filter (fun t => t ≠ id) })) }

/-- Does a tile belong to a speculative fetch (R181)? -/
def specTile (t : Tile) : Bool :=
  match t.owner with
  | .landing _ => true
  | _ => false

/-- Has the tile an answer, translation or missing range, for a page? -/
def pageKnown (t : Tile) (va : Nat) : Bool :=
  t.held.any (fun x => x.covers va) || t.faults.any (fun f => f.va ≤ va && va < f.va + f.size)

/-- Every page of the tile is translated, and it is not stalled: it may issue (R292). -/
def tileReady (t : Tile) : Bool := !t.stalled && t.faults.isEmpty && t.pages.all (fun p => t.held.any (fun x => x.covers p))

/-- The window that takes an instance's fault records (R297). -/
def faultWindow (inst : Nat) : Nat := winOf inst

/-- The fault record of R296, with PHASE 0. -/
def faultRecord (e : TrackEntry) (idx reason rights label lowVa master : Nat) (last : Bool) (count : Nat) : List Byte :=
  leBytes 4 (idx + e.instar * 4096)
    ++ leBytes 4 (e.space + reason * 2 ^ 20 + rights * 2 ^ 24 + label * 2 ^ 27 + b2n last * 2 ^ 30)
    ++ leBytes 8 lowVa ++ leBytes 2 master ++ leBytes 1 e.level ++ leBytes 1 (min count 255) ++ leBytes 4 0
    ++ leBytes 8 e.tick.toNat

/-- A tracker entry. -/
def track (s : State) (k : Nat) : TrackEntry := mget TrackEntry.empty s.tracker k

/-- The outstanding entry of a space's missing range. -/
def trackFind (s : State) (space : Nat) (f : TileFault) : Option Nat :=
  (s.tracker.find? (fun kv => kv.2.used && kv.2.space = space && kv.2.level = f.level && kv.2.va = f.va)).map Prod.fst

/-- The lowest free entry of the 4,096 of the tracker: no more than the listed ones can be used. -/
def trackFree (s : State) : Option Nat :=
  ((List.range (s.tracker.length + 1)).find? (fun k => !(track s k).used)).filter (fun k => decide (k < 4096))

/-- Tracker entries outstanding. -/
def trackUsed (s : State) : Nat := (s.tracker.filter (fun kv => kv.2.used)).length

/-- Takes tracker entry `k` for a missing range of a tile and posts its record, the `posted`-th (from 0) of `n` (R293). -/
def trackNew (s : State) (t : Tile) (n : Nat) (f : TileFault) (posted k : Nat) : State :=
  let e : TrackEntry := ⟨true, (track s k).instar, t.space, t.inst, f.level, f.va, f.size, s.now⟩
  let rcd := faultRecord e k f.reason t.rights t.label f.lowVa t.master (posted + 1 = n) n
  let w := faultWindow t.inst
  countR { s with
    tracker := mput s.tracker k e
    fqHeld := mput s.fqHeld w (mget [] s.fqHeld w ++ [rcd]) } r_XLT_FAULTS 0 1

/-- Gives each missing range of a tile its tracker entry (R293): it joins an outstanding one, or takes a free one and posts a
record. `n` is how many records the tile posts. Answers the entries. -/
def trackAll (s : State) (t : Tile) (n : Nat) : List TileFault → Nat → List Nat → List Nat × State
  | [], _, acc => (acc, s)
  | f :: fs, posted, acc =>
    match trackFind s t.space f with
    | some k => trackAll s t n fs posted (acc ++ [k])
    | none => match trackFree s with
      | none => (acc, s)
      | some k => trackAll (trackNew s t n f posted k) t n fs (posted + 1) (acc ++ [k])

/-- Adds a missing range to those found; of one range the lowest address touched stays. -/
def addFault (l : List TileFault) (f : TileFault) : List TileFault :=
  if l.any (fun g => g.level = f.level && g.va = f.va) then
    l.map (fun g => if g.level = f.level && g.va = f.va then { g with lowVa := min g.lowVa f.lowVa } else g)
  else l ++ [f]

/-- Merges the faults of one range. -/
def mergeFaults (l : List TileFault) : List TileFault := l.foldl addFault []

/-- The missing ranges of a tile in walk order, that of its pages (R293). -/
def walkOrder (pages : List Nat) (fs : List TileFault) : List TileFault :=
  pages.foldl (fun acc p => acc ++ fs.filter (fun f => f.va ≤ p && p < f.va + f.size && !acc.contains f)) []

/-- Stalls a tile whose pages are all known and some missing (R292, R293): its translations are released; with too few free
tracker entries it waits without posting. A speculative tile posts nothing. -/
def stallTile (s : State) (id : Nat) (t : Tile) : State :=
  let s := if specTile t then s else { s with stallAt := mput s.stallAt id s.now }
  let fs := walkOrder t.pages (mergeFaults t.faults)
  let new := (fs.filter (fun f => (trackFind s t.space f).isNone)).length
  if specTile t then setTile s id { t with stalled := true, held := [] }
  else if 4096 < trackUsed s + new then
    setF (setTile s id { t with stalled := true, wantsEntry := true, held := [], faults := fs }) f_XLT_STATUS_TRACKER_FULL 0 1
  else
    let r := trackAll s t new fs 0 []
    setTile r.2 id { t with stalled := true, wantsEntry := false, held := [], faults := [], entries := r.1 }

/-- Stalls a tile once all its pages are known and one is missing. -/
def checkTile (s : State) (id : Nat) : State :=
  match mfind s.tiles id with
  | none => s
  | some t => if !t.stalled && !t.faults.isEmpty && t.pages.all (pageKnown t) then stallTile s id t else s

/-- Records a missing range that a walk found for a tile. -/
def faultTile (s : State) (id level reason va size : Nat) : State :=
  match mfind s.tiles id with
  | none => s
  | some t =>
    let low := (t.pages.filter (fun p => va ≤ p && p < va + size)).foldl min (va + size)
    checkTile (setTile s id { t with faults := t.faults ++ [⟨level, reason, va, size, low⟩] }) id

/-- Ends a walk. -/
def dropWalk (s : State) (wid : Nat) : State := { s with walks := mdel s.walks wid }

/-- Ends a walk with a fault: each tile that waits records the missing range; a speculative walk just ends (R288). -/
def failWalk (s : State) (wid : Nat) (w : Walk) (reason leaf : Nat) : State :=
  let r := missingRange w.va w.level reason leaf
  w.tiles.foldl (fun s t => faultTile s t w.level reason r.1 r.2) (dropWalk s wid)

/-- Sends a walk's next table read, as device work of class 0 with hint NORMAL (R284, R287); a table beyond its location, or
secure for a non-secure context, ends the walk. `size` is the table's. -/
def walkRead (s : State) (wid : Nat) (w : Walk) (size : Nat) : State :=
  let slot := mget SlotInfo.empty s.slots w.slot
  if !inRange s w.inst w.loc w.table size then failWalk s wid { w with level := min 3 (w.level + (if w.level = 3 then 0 else 1)) }
    faultFrameRange 0
  else
    let a := w.table + 8 * tableIndex w.va w.level
    match resolve s w.inst slot.world ⟨0, 2 ^ 64, w.loc, 0, 0⟩ a with
    | .at g _ _ =>
      let r := MemReq.make .read (.walk wid) g 8 [] 0 0 0xFF w.space (masterDevice w.die) w.die (slot.world = 1)
      let (id, s) := sendReq s r 1
      { s with walks := mput s.walks wid { w with req := id } }
    | .refused reason => failWalk (countRefusal s w.inst ⟨0, 2 ^ 64, w.loc, 0, 0⟩ a reason) wid w reason 0
    | .keyBad => failWalk s wid w faultWalkError 0

/-- The bytes of the table that a walk reads next: the root table has 1,024 entries (R282). -/
def tableBytes (w : Walk) : Nat := if w.level = 3 then 8192 else 4096

/-- The walkers of a base die that walk. -/
def walkersBusy (s : State) (die : Nat) : Nat := (s.walks.filter (fun kv => kv.2.die = die && kv.2.req ≠ 0)).length

/-- Starts or joins the walk for a page (R288: concurrent misses on one page merge). While issue is stopped, or the 32 walkers of
the die are busy, its first read waits (R30, R483). -/
def startWalk (s : State) (tid : Nat) (t : Tile) (va : Nat) : State :=
  let page := va / 4096 * 4096
  match s.walks.find? (fun kv => kv.2.space = t.space && kv.2.die = t.die && kv.2.va = page && !kv.2.void
      && kv.2.spec = specTile t) with
  | some (wid, w) => { s with walks := mput s.walks wid { w with tiles := w.tiles ++ [tid] } }
  | none =>
    let (wid, s) := fresh s
    let slot := mget SlotInfo.empty s.slots t.slot
    let s := countR s r_XLT_WALKS t.die 1
    let w : Walk := match wcFind s t.die t.space va with
      | some e => ⟨t.space, t.slot, t.inst, page, e.level - 1, e.loc, e.table, t.die, [tid], false, specTile t, 0⟩
      | none => ⟨t.space, t.slot, t.inst, page, 3, slot.rootLoc, slot.root, t.die, [tid], false, specTile t, 0⟩
    if chipStopped s || 32 ≤ walkersBusy s t.die then { s with walks := mput s.walks wid w } else walkRead s wid w (tableBytes w)

/-- Looks one page up: the master's own TLB, then the shared TLB, then a walk. -/
def lookPage (s : State) (tid va : Nat) : State :=
  match mfind s.tiles tid with
  | none => s
  | some t =>
    if pageKnown t va then s else
    match tlbFind s t.cache t.space va with
    | some x => setTile s tid { t with held := t.held ++ [x] }
    | none =>
      match tlbFind s (sharedTlb t.die) t.space va with
      | some x =>
        let s := if specTile t || 256 ≤ t.cache then s else tlbFill s t.cache t.space x
        setTile s tid { t with held := t.held ++ [x] }
      | none => startWalk (countR s r_XLT_STLB_MISS t.die 1) tid t va

/-- Translates a tile from the start (R292). -/
def lookTile (s : State) (tid : Nat) : State :=
  let s := unstall s tid
  match mfind s.tiles tid with
  | none => s
  | some t =>
    let s := noteWaiting (setTile s tid { t with held := [], faults := [], entries := [], stalled := false, wantsEntry := false })
    checkTile (t.pages.foldl (fun s p => lookPage s tid p) s) tid

/-- Enters a tile and begins its translation; answers its number. -/
def newTile (s : State) (t : Tile) : Nat × State :=
  let (id, s) := fresh s
  (id, lookTile (setTile s id t) id)

/-- Completes a walk with a leaf: the caches are filled, unless it was speculative, and its tiles hold the translation. -/
def leafWalk (s : State) (wid : Nat) (w : Walk) (x : Xlat) : State :=
  w.tiles.foldl (fun s tid =>
    match mfind s.tiles tid with
    | none => s
    | some t =>
      let s := if w.spec then s else
        let s := tlbFill s (sharedTlb w.die) w.space x
        if t.cache < 256 then tlbFill s t.cache w.space x else s
      checkTile (setTile s tid { t with held := t.held ++ [x] }) tid) (dropWalk s wid)

/-- WALK_READ_RETURN: a table read returns, and the walk goes on, completes or faults (R284, R288). `hostErr` is an error
completion from the host. A walk whose space was invalidated is discarded, and its tiles look up again. One that waits for issue or
a walker (request 0) makes its first read. -/
def execWalkReadReturn (wid : Nat) (hostErr : Bool) (s : State) : Out :=
  .next (match mfind s.walks wid with
    | none => s
    | some w => match mfind s.reqs w.req with
      | none => if w.req = 0 && !chipStopped s && walkersBusy s w.die < 32 then (if w.void then w.tiles.foldl lookTile (dropWalk s wid) else walkRead s wid w (tableBytes w)) else s
      | some r =>
        let slot := mget SlotInfo.empty s.slots w.slot
        let fin := if r.err ≠ 0 then some ([], 0) else readBack s r
        match fin with
        | none => s
        | some (data, bad) =>
          let s := readMiss (dropReq s w.req) r
          if w.void then w.tiles.foldl lookTile (dropWalk s wid)
          else if r.err ≠ 0 || (hostErr && w.loc = 1) then failWalk s wid w faultWalkError 0
          else if bad ≠ 0 then failWalk (countPoison s bad) wid w faultWalkPoison 0
          else
            let e := leNat data
            match readEntry s slot w.va w.level e with
            | .fault reason => failWalk s wid w reason (if isLeaf e w.level then leafSize w.level e else 0)
            | .leaf x => leafWalk s wid w x
            | .table loc a =>
              let base := w.va / levelRange w.level * levelRange w.level
              let s := if w.spec then s else wcFill s ⟨w.die, w.space, w.level, base, loc, a⟩
              walkRead s wid { w with level := w.level - 1, loc := loc, table := a } 4096)

/-! ## Walks of device work -/

/-- The outcome of a translation for device work: a translation; the level, reason and missing range of its fault; or not yet, for
a table entry of another chip, at a global physical address, has still to be read. -/
inductive WalkEnd where
  | ok (x : Xlat)
  | fault (f : TileFault)
  | wait (g : Nat)
  deriving DecidableEq, Repr

/-- A whole walk of device work: its outcome, the table entries of this chip and the host that it reads, the table pointers that
it finds, and a location that it was refused, as translation, address and reason. -/
structure WalkRun where
  res : WalkEnd
  reads : List Nat
  fills : List WalkCacheEntry
  refusal : Option (Xlat × Nat × Nat)
  deriving DecidableEq, Repr

/-- Walks from a table of a level on, reading the tables at once (R284). `ans` gives what another chip has answered: an error code,
bytes and poison. -/
def walkNow (s : State) (die : Nat) (slot : SlotInfo) (ans : Nat → Option (Nat × List Byte × Nat)) (va loc table : Nat) :
    Nat → WalkRun
  | 0 => ⟨.fault ⟨0, faultNotPresent, va / 4096 * 4096, 4096, va⟩, [], [], none⟩
  | level + 1 =>
    let x : Xlat := ⟨0, 2 ^ 64, loc, 0, 0⟩
    let a := table + 8 * tableIndex va level
    let bad (reason leaf : Nat) : WalkRun :=
      let r := missingRange va level reason leaf
      ⟨.fault ⟨level, reason, r.1, r.2, va⟩, [], [], none⟩
    match resolve s slot.inst slot.world x a with
    | .refused reason => { bad reason 0 with refusal := some (x, a, reason) }
    | .keyBad => bad faultWalkError 0
    | .at g _ _ =>
      let here : Bool := gpaChip g = chipId s
      match (if here then some (0, (readLine s (walkerRouter die 0) g 8).1) else ans g) with
      | none => ⟨.wait g, [], [], none⟩
      | some (err, d, poison) =>
        let run :=
          if err ≠ 0 then bad faultWalkError 0
          else if poison ≠ 0 then bad faultWalkPoison 0
          else match readEntry s slot va level (leNat d) with
            | .fault reason => bad reason (if isLeaf (leNat d) level then leafSize level (leNat d) else 0)
            | .leaf x => ⟨.ok x, [], [], none⟩
            | .table loc a =>
              let w := walkNow s die slot ans va loc a level
              { w with fills := ⟨die, slot.space, level, va / levelRange level * levelRange level, loc, a⟩ :: w.fills }
        if here then { run with reads := g :: run.reads } else run

/-- The walk of device work for an address of a resident slot, from the deepest cached table pointer or the root (R284, R288). -/
def xlateNow (s : State) (die : Nat) (slot : SlotInfo) (ans : Nat → Option (Nat × List Byte × Nat)) (va : Nat) : WalkRun :=
  match wcFind s die slot.space va with
  | some e => walkNow s die slot ans va e.loc e.table e.level
  | none =>
    if !inRange s slot.inst slot.rootLoc slot.root 8192 then
      ⟨.fault ⟨3, faultFrameRange, va / 2 ^ 39 * 2 ^ 39, 2 ^ 39, va⟩, [], [], none⟩
    else walkNow s die slot ans va slot.rootLoc slot.root 4

/-- What a walk of device work does beside its outcome: its reads are performed, the walk cache and the shared TLB are filled, a
refused location is counted, and so is the walk once it is over (R288, R311). -/
def walkDone (s : State) (die : Nat) (slot : SlotInfo) (w : WalkRun) : State :=
  let s := w.reads.foldl (fun s g =>
    let r := MemReq.make .read (.walk 0) g 8 [] 0 0 0xFF slot.space (masterDevice die) die (slot.world = 1)
    (readNow (regulate s r 1).2 (walkerRouter die 0) g 8).2) s
  let s := w.fills.foldl wcFill s
  let s := match w.refusal with
    | some (x, a, reason) => countRefusal s slot.inst x a reason
    | none => s
  let count (s : State) : State := countR (countR s r_XLT_STLB_MISS die 1) r_XLT_WALKS die 1
  match w.res with
  | .ok x => tlbFill (count s) (sharedTlb die) slot.space x
  | .fault _ => count s
  | .wait _ => s

end Sys2Proof.Machine
end

