-- ==== Sys2Proof/Machine/Device.lean ====
section
/-!
DEFINITION. Device work on a context's memory: contexts, queues and commands as kept on chip, the accesses that device work
makes in a context's space (R291, R375), and how an access stalls on a translation fault. Local and host memory are reached at
once (log entry 22); memory of another chip by requests whose answers a later attempt of the same step finds.
-/

namespace Sys2Proof.Machine

/-! ## Contexts, queues and commands -/

/-- A context by its space ID. -/
def ctxOf (s : State) (space : Nat) : Option Ctx := mfind s.ctxs space

/-- Changes a context. -/
def modCtx (s : State) (space : Nat) (f : Ctx → Ctx) : State :=
  match mfind s.ctxs space with
  | none => s
  | some c => { s with ctxs := mput s.ctxs space (f c) }

/-- A queue descriptor. -/
def queueOf (s : State) (q : Nat) : Option Queue := mfind s.queues q

/-- Changes a queue descriptor. -/
def modQueue (s : State) (q : Nat) (f : Queue → Queue) : State :=
  match mfind s.queues q with
  | none => s
  | some v => { s with queues := mput s.queues q (f v) }

/-- A command on chip. -/
def cmdOf (s : State) (c : Nat) : Option Cmd := mfind s.cmds c

/-- Changes a command. -/
def modCmd (s : State) (c : Nat) (f : Cmd → Cmd) : State :=
  match mfind s.cmds c with
  | none => s
  | some v => { s with cmds := mput s.cmds c (f v) }

/-- Ends a command's action with a code, unless it has ended: COMMAND_COMPLETE then acts on it. -/
def endCmd (s : State) (c code : Nat) : State :=
  modCmd s c (fun v => match v.fin with
    | some _ => v
    | none => { v with fin := some code })

/-- A little-endian field of a command's entry. -/
def Cmd.num (c : Cmd) (o n : Nat) : Nat := leNat ((c.bytes.drop o).take n)

/-- A command's OP (R377). -/
def Cmd.op (c : Cmd) : Nat := c.num 0 1

/-- The command codes of R380. -/
def opKernel : Nat := 1
def opCopy : Nat := 2
def opFill : Nat := 3
def opSignal : Nat := 4
def opWait : Nat := 5
def opCollective : Nat := 6
def opGate : Nat := 7
def opAtomic : Nat := 8
def opMigrate : Nat := 9
def opMarker : Nat := 10

/-- The resident slot of a context, with what the slot keeps of its space-table entry (R281). -/
def slotOf (s : State) (space : Nat) : Option (Nat × SlotInfo) :=
  match mfind s.ctxs space with
  | none => none
  | some c => c.slot.map (fun k => (k, mget SlotInfo.empty s.slots k))

/-- The slot states of R403. -/
def slotFree : Nat := 0
def slotResident : Nat := 1
def slotHolder : Nat := 2
def slotYielding : Nat := 3
def slotTeardown : Nat := 4

/-- The state of the slot of a resident context. -/
def slotState (s : State) (k : Nat) : Nat := getF s f_SCH_SLOT_STATE k

/-! ## Accesses of device work -/

/-- How an access of device work ends: its bytes and their poisoned sectors, in turn for each line; not yet, for an answer of
another chip is due; missing ranges; or an error code. -/
inductive DevRes where
  | ok (data : List Byte) (bad : Nat)
  | wait
  | fault (fs : List TileFault)
  | error (code : Nat)
  deriving DecidableEq, Repr

/-- The parts of a range that lie in one 256-byte line each. -/
def linePieces (a n : Nat) : List (Nat × Nat) :=
  (List.range ((a % 256 + n + 255) / 256)).map (fun i =>
    let lo := max a ((a / 256 + i) * 256)
    (lo, min (a + n) ((a / 256 + i + 1) * 256) - lo))

/-- Is device work kept under a queue number the save or restore of a core's batch, by its Imago's spill regulator (R393)? -/
def ofSpill (q : Nat) : Bool := adminQ 64 ≤ q

/-- The queue number of the save or restore of a batch on a core. -/
def spillQ (c : Nat) : Nat := adminQ (64 + c)

/-- The base die of device work kept under a queue number: a Gate unit's own, a spilling core's, and B0 for other work. -/
def devDie (s : State) (q : Nat) : Nat :=
  if ofGate q then (q - gateQueue) / 2 else if ofSpill q then dieOfCore s (q - adminQ 64) else 0

/-- The class label of its accesses: a Gate unit's dispatch's, 0 for other work, and 4 for spill that is not paced (R157, R261,
R393). -/
def devLabel (s : State) (q c : Nat) : Nat :=
  if ofGate q then (((mget Gate.empty s.gates (q - gateQueue)).run).map (fun r => r.job.label)).getD 0
  else if ofSpill q && getF s f_QOS_IMG_SPILL_RATE_RATE c = 0 then 4 else 0

/-- The regulator that counts them (R263). The rows of a COMBINE, kept under command number 2 + core, are a core's (R170); spill is
kept under the number of its instance. -/
def devMaster (s : State) (q c : Nat) : Nat :=
  if ofGate q && 2 ≤ c then masterCore (c - 2) else if ofSpill q then masterSpill c else masterDevice (devDie s q)

/-- A request of device work, to this chip or another. -/
def devReq (s : State) (slot : SlotInfo) (q c : Nat) (op : ReqOp) (g n : Nat) (data : List Byte) (bad : Nat := 0) : MemReq :=
  { MemReq.make op (.command q c) g n data (devLabel s q c) 0 slot.inst slot.space (devMaster s q c) (devDie s q) (slot.world = 1) with
    epoch := epochOf s slot.inst, poison := bad }

/-- The router from which device work reaches this chip's memory. -/
def devRouter (s : State) (q c : Nat) : Nat × Nat :=
  if ofGate q && 2 ≤ c then coreRouter s (c - 2)
  else if ofSpill q then clusterRouter (4 * devDie s q) else deviceRouter q

/-- The requests of device work for a command of a queue. -/
def devReqs (s : State) (q c : Nat) : List (Nat × MemReq) :=
  s.reqs.filter (fun kv => kv.2.owner = .command q c)

/-- Drops the answers that a step of device work has used; an error of a write stays. -/
def devDone (s : State) (q c : Nat) : State :=
  forgetReqs s (fun _ r => r.owner = .command q c && (if r.err = 0 then r.stage = .done else opAnswers r.op))

/-- Drops every answer and error of device work that is over. -/
def devEnd (s : State) (q c : Nat) : State := forgetReqs s (fun _ r => r.owner = .command q c && (r.stage = .done || r.err ≠ 0))

/-- What another chip has answered to a read of a table entry: an error code, the bytes and their poison. -/
def devAns (s : State) (q c g : Nat) : Option (Nat × List Byte × Nat) :=
  ((devReqs s q c).find? (fun kv => kv.2.gpa = g && kv.2.len = 8 && kv.2.op = .read && (kv.2.err ≠ 0 || kv.2.stage = .done))).map
    (fun kv => (kv.2.err, kv.2.data, kv.2.poison))

/-- The walk that device work makes for an address. -/
def devWalk (s : State) (slot : SlotInfo) (q c va : Nat) : WalkRun := xlateNow s (devDie s q) slot (devAns s q c) va

/-- The translation of an address for device work: the shared TLB's of its die, or its walk's (R288). -/
def devXlat (s : State) (slot : SlotInfo) (q c va : Nat) : WalkEnd :=
  match tlbFind s (sharedTlb (devDie s q)) slot.space va with
  | some x => .ok x
  | none => (devWalk s slot q c va).res

/-- The missing range of a location that a translation gives and that is refused (R293). -/
def refusedRange (x : Xlat) (va reason : Nat) : TileFault :=
  ⟨if x.size = 2 ^ 30 then 2 else if x.size = 2 ^ 21 then 1 else 0, reason, x.va, x.size, va⟩

/-- Where an address of a slot's context leads device work. -/
def devPlace (s : State) (slot : SlotInfo) (q c va : Nat) : DevRes × Option (Nat × Nat × Nat) :=
  if 2 ^ 49 ≤ va then (.error errAddressRange, none) else
  match devXlat s slot q c va with
  | .fault f => (.fault [f], none)
  | .wait _ => (.wait, none)
  | .ok x => match resolve s slot.inst slot.world x va with
    | .refused reason => (.fault [refusedRange x va reason], none)
    | .keyBad => (.error errKeyBad, none)
    | .at g dst hint => (.ok [] 0, some (g, dst, hint))

/-- Sends a read to another chip, unless it is out or answered. -/
def devAsk (s : State) (q c g n dst : Nat) (r : MemReq) : State :=
  if (devReqs s q c).any (fun kv => kv.2.gpa = g && kv.2.len = n && kv.2.op = .read) then s
  else (sendReq s r dst).2

/-- What translating an address does (R284, R288): a walk is performed, and a table entry of another chip is read, as class 0. -/
def devTouch (s : State) (slot : SlotInfo) (q c va : Nat) : State :=
  if 2 ^ 49 ≤ va || (tlbFind s (sharedTlb (devDie s q)) slot.space va).isSome then s else
  let w := devWalk s slot q c va
  let s := walkDone s (devDie s q) slot w
  match w.res with
  | .wait g => devAsk s q c g 8 1 { devReq s slot q c .read g 8 [] with label := 0, master := masterDevice (devDie s q) }
  | _ => s

/-- Translates the lines of an access one after another: where each leads, and the state after (R292). -/
def devLook (slot : SlotInfo) (q c : Nat) : State → List (Nat × Nat) → List (DevRes × Option (Nat × Nat × Nat)) × State
  | s, [] => ([], s)
  | s, p :: ps =>
    let r := devLook slot q c (devTouch s slot q c p.1) ps
    (devPlace s slot q c p.1 :: r.1, r.2)

/-- The missing ranges among the lines of an access. -/
def devFaults (ps : List (DevRes × Option (Nat × Nat × Nat))) : List TileFault :=
  mergeFaults (ps.flatMap (fun p => match p.1 with
    | .fault fs => fs
    | _ => []))

/-- Why an access whose lines lead there may not issue: an error, an answer that is due, or its missing ranges; none when it may. -/
def devStop (ps : List (DevRes × Option (Nat × Nat × Nat))) : Option DevRes :=
  match ps.find? (fun p => match p.1 with
      | .error _ => true
      | _ => false) with
  | some p => some p.1
  | none =>
    if ps.any (fun p => p.1 = .wait) then some .wait
    else if (devFaults ps).isEmpty then none else some (.fault (devFaults ps))

/-- Counts the locations that an access was refused, once for each translation (R355, R453). -/
def devRefused (s : State) (slot : SlotInfo) (q c : Nat) (ps : List (Nat × Nat)) : State :=
  let l := ps.filterMap (fun p => match devXlat s slot q c p.1 with
    | .ok x => match resolve s slot.inst slot.world x p.1 with
      | .refused reason => some (x, p.1, reason)
      | _ => none
    | _ => none)
  let once := l.foldl (fun acc r => if acc.any (fun q => decide (q.1 = r.1)) then acc else acc ++ [r]) ([] : List (Xlat × Nat × Nat))
  once.foldl (fun s r => countRefusal s slot.inst r.1 r.2.1 r.2.2) s

/-- Translates an access, and goes on with where its lines lead when it may issue (R292). -/
def devAccess (s : State) (slot : SlotInfo) (q c : Nat) (ps : List (Nat × Nat))
    (k : State → List (Nat × Nat × Nat) → DevRes × State) : DevRes × State :=
  let r := devLook slot q c s ps
  match devStop r.1 with
  | none => k r.2 (r.1.filterMap Prod.snd)
  | some (.fault fs) => (.fault fs, devRefused r.2 slot q c ps)
  | some e => (e, r.2)

/-- Reads one line of an access whose lines are all at hand. -/
def devPart (s : State) (slot : SlotInfo) (q c : Nat) (g dst n : Nat) : (List Byte × Nat) × State :=
  if gpaChip g = chipId s then
    readNow (regulate s (devReq s slot q c .read g n []) dst).2 (devRouter s q c) g n
  else
    match (devReqs s q c).find? (fun kv => kv.2.gpa = g && kv.2.len = n && kv.2.op = .read) with
    | some (_, r) => ((r.data, r.poison), s)
    | none => (([], 0), s)

/-- Reads lines of a context's space; the poison of line i stands in bits 8i to 8i + 7. Nothing is read unless every line is
translated; the lines of other chips are then asked for, and all are read once the answers are there, or the first error of one
decides. -/
def devFetch (s : State) (slot : SlotInfo) (q c : Nat) (ps : List (Nat × Nat)) : DevRes × State :=
  devAccess s slot q c ps (fun s gs =>
    let l := (ps.map Prod.snd).zip gs
    let away := l.filter (fun x => gpaChip x.2.1 ≠ chipId s)
    let s := away.foldl (fun s x => devAsk s q c x.2.1 x.1 x.2.2.1 (devReq s slot q c .read x.2.1 x.1 [])) s
    let got (x : Nat × Nat × Nat × Nat) : Option MemReq :=
      ((devReqs s q c).find? (fun kv => kv.2.gpa = x.2.1 && kv.2.len = x.1 && kv.2.op = .read)).map Prod.snd
    let bad := away.filterMap (fun x => (got x).bind (fun r => if r.err = 0 then none else some r.err))
    if away.any (fun x => ((got x).map (fun r => decide (r.err ≠ 0 || r.stage = .done))).getD true = false) then (.wait, s)
    else match bad with
      | e :: _ => (.error e, s)
      | [] =>
        let r := l.foldl (fun (acc : (List Byte × Nat × Nat) × State) x =>
          let d := devPart acc.2 slot q c x.2.1 x.2.2.1 x.1
          ((acc.1.1 ++ d.1.1, acc.1.2.1 + d.1.2 % 256 * 2 ^ (8 * acc.1.2.2), acc.1.2.2 + 1), d.2)) (([], 0, 0), s)
        (.ok r.1.1 r.1.2.1, r.2))

/-- Reads bytes of a context's space: their poisoned sectors, of whichever line. -/
def devRead (s : State) (slot : SlotInfo) (q c va n : Nat) : DevRes × State :=
  let ps := linePieces va n
  match devFetch s slot q c ps with
  | (.ok d bad, s) => (.ok d ((List.range ps.length).foldl (fun a i => Nat.lor a (bitsOf bad (8 * i) 8)) 0), s)
  | r => r

/-- Writes one line of an access, at a place that is translated. -/
def devPut (s : State) (slot : SlotInfo) (q c : Nat) (g dst : Nat) (data : List Byte) (bad : Nat) : State :=
  let r := devReq s slot q c .write g data.length data bad
  if gpaChip g = chipId s then writeNow (regulate s r dst).2 (devRouter s q c) g bad data
  else (sendReq s r dst).2

/-- Writes bytes of a context's space: nothing is written unless every line of the access is translated (R292). -/
def devWrite (s : State) (slot : SlotInfo) (q c va : Nat) (data : List Byte) (bad : Nat := 0) : DevRes × State :=
  let ps := linePieces va data.length
  devAccess s slot q c ps (fun s gs =>
    (.ok [] 0, (ps.zip gs).foldl (fun s x =>
      devPut s slot q c x.2.1 x.2.2.1 ((data.drop (x.1.1 - va)).take x.1.2) (Nat.land bad (touchedMask (x.1.1 % 256) x.1.2))) s))

/-- Are requests of a command to another chip still unanswered? -/
def devOut (s : State) (q c : Nat) : Bool := (devReqs s q c).any (fun kv => kv.2.stage ≠ .done && kv.2.err = 0)

/-- The first error that a command's writes to other chips met. -/
def devErr (s : State) (q c : Nat) : Nat := (((devReqs s q c).find? (fun kv => kv.2.err ≠ 0)).map (fun kv => kv.2.err)).getD 0

/-- Is a tile of a command's device work stalled, or still being answered (R292)? -/
def devStalled (s : State) (q c : Nat) : Bool :=
  s.tiles.any (fun kv => match kv.2.owner with
    | .device _ q' c' => q' = q && c' = c
    | _ => false)

/-- Stalls device work on missing ranges: a fault record names MASTER kind 4 and the instance (R296). `rights` as in a
tile. What its translation has been answered is read afresh when it is replayed. -/
def devStall (s : State) (k : Nat) (slot : SlotInfo) (q c rights : Nat) (fs : List TileFault) : State :=
  let (id, s) := fresh (devDone s q c)
  stallTile s id ⟨.device slot.inst q c, slot.space, slot.inst, k, 0, 256, rights, 0,
    masterDevice 0 + (if slot.inst < 32 then slot.inst else 0xFF), fs.map TileFault.lowVa, [], fs, [], false, true⟩

end Sys2Proof.Machine
end

