-- ==== Sys2Proof/Machine/Operands.lean ====
section
/-!
DEFINITION. Operand forms of instructions: fields of the instruction word (R77, R79), register specifiers (R78), reading
and writing registers per lane (R69, R78, R81), effective addresses (R88), the legality checks of R80, and the shape every
instruction shares: when it may issue (R75, R80), and what the sequencer does afterwards (R82).
-/

namespace Sys2Proof.Machine

/-! ## Fields -/

/-- A field of an instruction word. -/
def fld (t : Th) (lo w : Nat) : Nat := bitsOf t.bits.toNat lo w

def fPred (t : Th) : Nat := fld t 51 3
def fPneg (t : Th) : Bool := t.bits.getLsbD 50
def fD (t : Th) : Nat := fld t 43 7
def fA (t : Th) : Nat := fld t 36 7
def fI (t : Th) : Bool := t.bits.getLsbD 32
def fB (t : Th) : Nat := fld t 0 7
def fImm (t : Th) : Word := BitVec.ofNat 32 t.bits.toNat

/-- V format: D, A, B, C, and the fields of R79. -/
def vD (t : Th) : Nat := fld t 44 6
def vA (t : Th) : Nat := fld t 38 6
def vB (t : Th) : Nat := fld t 32 6
def vC (t : Th) : Nat := fld t 26 6
def vSfmt (t : Th) : Nat := fld t 22 4
def vDfmt (t : Th) : Nat := fld t 18 4
def vSat (t : Th) : Bool := t.bits.getLsbD 17
def vRnd (t : Th) : Nat := fld t 15 2
def vBU (t : Th) : Bool := t.bits.getLsbD 14
def vSelem (t : Th) : Nat := fld t 12 2
def vDelem (t : Th) : Nat := fld t 10 2

/-- X format: DATA, ABASE, IDX, SIZE, SX, SUB, OFS. -/
def xData (t : Th) : Nat := fld t 43 7
def xAbase (t : Th) : Nat := fld t 39 4
def xIdx (t : Th) : Nat := fld t 32 7
def xSize (t : Th) : Nat := fld t 29 3
def xSx (t : Th) : Bool := t.bits.getLsbD 28
def xSub (t : Th) : Nat := fld t 24 4
def xOfs (t : Th) : Int := signedOf (fld t 0 24) 24

/-- C format: SUB and IMM beside D and A. -/
def cSub (t : Th) : Nat := fld t 32 4
def cImm (t : Th) : Nat := fld t 0 32

/-! ## Register kinds (R78) -/

/-- The kinds a REG7 specifier may name. -/
inductive RKind where
  | s | u | a | p | reserved | zero
  deriving DecidableEq, Repr

/-- The kind of a REG7 specifier. -/
def rkind (r : Nat) : RKind :=
  if r < 0x40 then .s else if r < 0x60 then .u else if r < 0x70 then .a else if r < 0x78 then .p
  else if r < 0x7F then .reserved else .zero

/-- The key of a thread's s register. -/
def sKey (n lane : Nat) : Nat := n * 32 + lane

/-- The lanes of a p register: p0 reads as 1 in every lane (R69). -/
def pMask (g : Group) (n : Nat) : Word := if n = 0 then 0xFFFFFFFF else mget 0 g.pregs n

/-- A 64-bit a register. -/
def aReg (g : Group) (n : Nat) : DWord := mget 0 g.aregs n

/-- A 32-bit u register. -/
def uReg (g : Group) (n : Nat) : Word := mget 0 g.uregs n

/-- A register read as a 32-bit operand in a lane (R78). -/
def rd (g : Group) (lane r : Nat) : Word :=
  match rkind r with
  | .s => mget 0 g.sregs (sKey r lane)
  | .u => uReg g (r - 0x40)
  | .a => BitVec.setWidth 32 (aReg g (r - 0x60))
  | .p => if (pMask g (r - 0x70)).getLsbD lane then 1 else 0
  | _ => 0

/-- Writes an s register in every lane of a mask. -/
def wrS (m : SMap Word) (n : Nat) (mask : Word) (f : Nat → Word) : Nat → SMap Word
  | 0 => m
  | l + 1 =>
    let m' := wrS m n mask f l
    if mask.getLsbD l then mset 0 m' (sKey n l) (f l) else m'

/-- The mask of lanes below `n` in which `f` holds. -/
def maskOf (f : Nat → Bool) : Nat → Word
  | 0 => 0
  | l + 1 => maskOf f l ||| (if f l then BitVec.ofNat 32 (2 ^ l) else 0)

/-- Writes a p register's bits in the lanes of a mask; p0 ignores writes (R69). -/
def wrP (g : Group) (n : Nat) (mask bits : Word) : Group :=
  if n = 0 then g else { g with pregs := mset 0 g.pregs n ((pMask g n &&& ~~~ mask) ||| (bits &&& mask)) }

/-- Writes a register with a 32-bit value in every lane of a mask (R78, R81): a u or a register takes the value of the
lowest lane, an a register with its upper half zero; ZERO discards. With an empty mask nothing is written. R78 names the
lane for a u register alone; that an a register takes the same lane is the model's choice (log entry 59). -/
def wr (g : Group) (r : Nat) (mask : Word) (f : Nat → Word) : Group :=
  if mask = 0 then g else
  match rkind r with
  | .s => { g with sregs := wrS g.sregs r mask f 32 }
  | .u => { g with uregs := mset 0 g.uregs (r - 0x40) (f (lowLane mask)) }
  | .a => { g with aregs := mset 0 g.aregs (r - 0x60) (BitVec.setWidth 64 (f (lowLane mask))) }
  | .p => wrP g (r - 0x70) mask (maskOf (fun l => (f l).getLsbD 0) 32)
  | _ => g

/-- Writes a 64-bit a register. -/
def wrA (g : Group) (n : Nat) (v : DWord) : Group := { g with aregs := mset 0 g.aregs n v }

/-- The lanes in which an instruction executes (R81). -/
def execMask (g : Group) (t : Th) : Word :=
  g.active &&& (if fPneg t then ~~~ pMask g (fPred t) else pMask g (fPred t))

/-! ## The sequencer (R75, R82) -/

/-- The address after an instruction. -/
def nextPc (g : Group) : DWord := g.pc + 8

/-- What the sequencer does before each issue (R82): at a rejoin point, or when every lane has exited, it pops the
reconvergence stack; a group with nothing left to pop ends. -/
def settleFrom (g : Group) : List RStackEntry → Group
  | [] => if g.pc = g.rpc || g.active = 0 then { g with stack := [], ended := true } else { g with stack := [] }
  | e :: rest =>
    if g.pc = g.rpc || g.active = 0 then
      settleFrom { g with pc := e.pc, active := e.mask &&& ~~~ g.exited, rpc := e.rpc } rest
    else { g with stack := e :: rest }

/-- `settleFrom` over the group's own stack. -/
def settle (g : Group) : Group := settleFrom g g.stack

/-- Is issue stopped for a core (R483, R488, R485, R493, R525)? The supply monitor is in WARNING or HOLD, a coolant stop is in
force, the device is out of service, its wing is in a thermal emergency, or the core is not awake. -/
def issueStopped (s : State) (c : Nat) : Bool :=
  wingStopped s (wingOf s c) || getF s f_THM_CORE_AGE_DSTATE c ≠ 0

/-- The group that may issue its next instruction: its batch runs, issue is not stopped, and it waits for nothing (R75). -/
def readyGroup (s : State) (c g : Nat) : Option Group :=
  match batchOf s c with
  | none => none
  | some b =>
    if b.started && b.why = .running && !issueStopped s c then
      match mfind b.groups g with
      | none => none
      | some gr => if gr.wait = .ready && !gr.ended then some gr else none
    else none

/-- Stamps the core's batch as having retired an instruction (R520). -/
def progress (s : State) (c : Nat) : State :=
  match batchOf s c with
  | none => s
  | some b => setBatch s c (some { b with progress := s.now })

/-- Is every live group of a batch waiting at barrier `n` (R95)? -/
def barrierMet (b : Batch) (n : Nat) : Bool :=
  let live := b.groups.filter (fun kv => !kv.2.ended)
  decide (live ≠ []) && live.all (fun kv => kv.2.wait = .barrier n)

/-- Releases the groups that wait at barrier `n`. -/
def releaseBarrier (b : Batch) (n : Nat) : Batch :=
  { b with groups := b.groups.map (fun kv => if kv.2.wait = .barrier n then (kv.1, { kv.2 with wait := .ready }) else kv) }

/-- Stores a group after an instruction: the sequencer settles it, and a group that ends adds its FLAGS to the kernel's
summary (R68, R99). -/
def retire (s : State) (c g : Nat) (gr : Group) : State :=
  let gr' := settle gr
  let s' := progress (setGroup s c g gr') c
  if gr'.ended then
    match batchOf s c with
    | none => s'
    | some b => modKernel s' b.kernel (fun k => { k with flagSum := k.flagSum ||| gr'.flags })
  else s'

/-- Does an address lie in the kernel's code range (R94)? -/
def inCode (l : Launch) (pc : DWord) : Bool := l.codeVa ≤ pc.toNat && pc.toNat < l.codeVa + l.codeBytes

/-- The line of an address in the instruction cache (R545). -/
def lineOf (pc : DWord) : Nat := pc.toNat / 256 * 256

/-- The shape of every instruction: a group that cannot issue does nothing; a fetch outside the code range faults
(R94); a line not in the instruction cache is waited for (R545); an illegal instruction faults before its operands are
ready (R80); an instruction whose registers await a result is not ready (R75); otherwise it acts. -/
def issue (s : State) (t : Th) (legal : Bool) (uses : List Nat) (act : Group → State) : State :=
  match readyGroup s t.core t.grp with
  | none => s
  | some g =>
    if !inCode (kernelOn s t.core).lb g.pc then threadFault s t.core t.grp errCodeRange g.active g.pc
    else if !(core s t.core).icache.contains (lineOf g.pc) then s
    else if !legal then threadFault s t.core t.grp errIllegalInstr g.active g.pc
    else if g.pend.any (fun p => uses.contains p.2) then s
    else act g

/-- An instruction that only changes its group's registers, then goes on. -/
def issueLocal (s : State) (t : Th) (legal : Bool) (uses : List Nat) (f : Group → Group) : State :=
  issue s t legal uses (fun g => retire s t.core t.grp { f g with pc := nextPc g })

/-! ## S operands (R79, R84) -/

/-- The S instruction's B operand in a lane: a register or the immediate. -/
def opB (g : Group) (t : Th) (lane : Nat) : Word := if fI t then fImm t else rd g lane (fB t)

/-- The reserved fields of the S format are zero and no REG7 field names a reserved code (R78, R80). -/
def sWell (t : Th) : Bool :=
  fld t 33 3 = 0 && (fI t || fld t 7 25 = 0) && rkind (fD t) ≠ .reserved && rkind (fA t) ≠ .reserved
    && (fI t || rkind (fB t) ≠ .reserved)

/-- An S instruction other than SETP and predicate logic: D is no p register (R84). -/
def sLegal (t : Th) : Bool := sWell t && rkind (fD t) ≠ .p

/-- The predicate register of an instruction, as a REG7 specifier. -/
def usesPred (t : Th) : Nat := 0x70 + fPred t

/-- The registers an S instruction with D, A and B uses. -/
def sUses (t : Th) : List Nat := [usesPred t, fD t, fA t] ++ (if fI t then [] else [fB t])

/-- D ← f A B in every lane in which the instruction executes. -/
def sAlu (s : State) (t : Th) (f : Word → Word → Word) : State :=
  issueLocal s t (sLegal t) (sUses t) (fun g => wr g (fD t) (execMask g t) (fun l => f (rd g l (fA t)) (opB g t l)))

/-! ## V operands (R79, R85) -/

/-- The REG7 specifier of a V instruction's B: an s register, or a u register when BU is 1. -/
def vBreg (t : Th) : Nat := if vBU t then 0x40 + vB t % 32 else vB t

/-- The reserved fields of the V format are zero, and RND is 0b00 (R80). A reserved format code in SFMT or DFMT of an
instruction that takes no format is the model's choice: it is ignored (R40, log entry 59). -/
def vWell (t : Th) : Bool := fld t 0 10 = 0 && vRnd t = 0 && (!vBU t || vB t < 32)

/-- The registers a V instruction with `n` sources uses. -/
def vUses (t : Th) (n : Nat) : List Nat := usesPred t :: ([vD t, vA t, vBreg t, vC t].take (n + 1))

/-- The kernel's flush bit for the batch on a core (R59, R70). -/
def flushOf (s : State) (c : Nat) : Bool := bitAt (kernelOn s c).lb.mode 3

/-! ## X operands (R88) -/

/-- The effective address of an X instruction in a lane. -/
def xAddr (g : Group) (t : Th) (lane : Nat) : DWord :=
  aReg g (xAbase t) + BitVec.signExtend 64 (rd g lane (xIdx t)) + BitVec.ofInt 64 (xOfs t)

/-- The bytes of an access of a SIZE code. -/
def sizeBytes (sz : Nat) : Nat := 2 ^ sz

/-- Is the instruction uniform (R88)? -/
def xUniform (t : Th) : Bool := rkind (xData t) ≠ .s && rkind (xIdx t) ≠ .s

/-- The number of 32-bit registers a SIZE code takes. -/
def sizeRegs (sz : Nat) : Nat := if sz ≤ 2 then 1 else if sz = 3 then 2 else 4

/-- Does DATA suit `n` 32-bit registers (R88, R91)? One a register serves for two. That ZERO serves for any number is the
model's choice (log entry 59). -/
def dataOk (r n : Nat) (aOk : Bool) : Bool :=
  match rkind r with
  | .s => r % n = 0
  | .u => (r - 0x40) % n = 0
  | .a => aOk && n = 2
  | .zero => true
  | _ => false

/-- The common checks of loads and stores (R80, R88). -/
def xLegal (t : Th) (isLoad : Bool) : Bool :=
  rkind (xData t) ≠ .reserved && rkind (xIdx t) ≠ .reserved && xSize t ≤ 4 && xSub t = 0
    && dataOk (xData t) (sizeRegs (xSize t)) true
    && !(isLoad && (rkind (xData t) = .u || rkind (xData t) = .a) && rkind (xIdx t) = .s)

/-- The checks of atomics (R80, R88, R91): CAS takes a pair for 32 bits and a quad for 64. -/
def atomLegal (t : Th) (wide : Bool) : Bool :=
  rkind (xData t) ≠ .reserved && rkind (xIdx t) ≠ .reserved && xSub t ≤ 4 && (xSize t = 2 || (wide && xSize t = 3))
    && dataOk (xData t) (sizeRegs (xSize t) * (if xSub t = 4 then 2 else 1)) (xSub t ≠ 4)
    && !((rkind (xData t) = .u || rkind (xData t) = .a) && rkind (xIdx t) = .s)

/-- The registers a DATA operand of `n` registers names. -/
def dataRegs (r n : Nat) : List Nat := if rkind r = .a || rkind r = .zero then [r] else (List.range n).map (r + ·)

/-- The registers an X access uses. -/
def xUses (t : Th) (n : Nat) : List Nat := [usesPred t, 0x60 + xAbase t, xIdx t] ++ dataRegs (xData t) n

/-- The bytes of a DATA operand in a lane, from its `k`-th register on: `n` bytes. -/
def dataBytes (g : Group) (lane r k n : Nat) : List Byte :=
  if rkind r = .a then leBytes n (aReg g (r - 0x60)).toNat
  else if rkind r = .zero then List.replicate n 0
  else (((List.range 4).map (fun i => leBytes 4 (rd g lane (r + k + i)).toNat)).flatten).take n

/-- Writes loaded bytes to a DATA operand in one lane: 8- and 16-bit loads extend (R88). -/
def writeData (g : Group) (r sz : Nat) (sx : Bool) (lane : Nat) (bytes : List Byte) : Group :=
  let v := leNat bytes
  let m : Word := BitVec.ofNat 32 (2 ^ lane)
  if sz ≤ 2 then
    let w : Nat := 8 * sizeBytes sz
    wr g r m (fun _ => if sx then BitVec.ofInt 32 (signedOf v w) else BitVec.ofNat 32 v)
  else if rkind r = .a then wrA g (r - 0x60) (BitVec.ofNat 64 v)
  else if rkind r = .zero then g
  else (List.range (sizeRegs sz)).foldl (fun g i => wr g (r + i) m (fun _ => BitVec.ofNat 32 (v / 2 ^ (32 * i)))) g

end Sys2Proof.Machine
end

