-- ==== Sys2Proof/Machine/Flags.lean ====
section
/-!
DEFINITION. Comparisons and arithmetic flags: the conditions of SETP and FSETP (R84, R85), and raising the sticky flags
of R53 in a group's FLAGS (R99).
-/

namespace Sys2Proof.Machine

/-- The integer comparisons of SETP, by opcode offset from SETP.EQ (R84). -/
def setpCond (c : Nat) (a b : Word) : Bool :=
  match c with
  | 0 => decide (a = b)
  | 1 => decide (a ≠ b)
  | 2 => a.slt b
  | 3 => a.sle b
  | 4 => a.ult b
  | _ => a.ule b

/-- The floating-point comparisons of FSETP, by opcode offset from FSETP.EQ (R85): with a NaN, only .NE and .UN hold. -/
def fsetpCond (c : Nat) (a b : FVal) : Bool :=
  if a.isNan || b.isNan then c = 1 || c = 4 else
  match c with
  | 0 => feqX a b
  | 1 => !feqX a b
  | 2 => fltX a b
  | 3 => fltX a b || feqX a b
  | _ => false

/-- Raises flags in a group's FLAGS; they are sticky (R99). -/
def raiseFlags (g : Group) (f : Flags) : Group := { g with flags := g.flags ||| f }

/-- Clears the bits of FLAGS that a written value sets to 1 (R98, R99). -/
def clearFlags (g : Group) (v : Word) : Group := { g with flags := g.flags &&& ~~~ (BitVec.setWidth 5 v) }

/-- The union of the flags of the lanes of a mask. -/
def laneFlags (mask : Word) (f : Nat → Flags) : Nat → Flags
  | 0 => 0
  | l + 1 => laneFlags mask f l ||| (if mask.getLsbD l then f l else 0)

/-- A floating-point result in every executing lane: D, and the flags of those lanes (R85, R99). -/
def vResult (g : Group) (t : Th) (f : Nat → Word × Flags) : Group :=
  let m := execMask g t
  raiseFlags (wr g (vD t) m (fun l => (f l).1)) (laneFlags m (fun l => (f l).2) 32)

end Sys2Proof.Machine
end

