-- ==== Sys2Proof/Machine/Silk.lean ====
section
/-!
DEFINITION. Silk on the chip (R97, R252 to R255, R257, R259, R426, R431): the CSILK instructions, operations at their homes,
waiters, and writes of the counters.
-/

namespace Sys2Proof.Machine

/-- The operations of CSILK. -/
def silkAdd : Nat := 0
def silkRead : Nat := 1
def silkWaitge : Nat := 2
def silkTake : Nat := 3

/-- The bounds of R254 in ticks: 200 ns to perform or release, 400 ns to return a value. -/
def silkBound : Nat := 50
def silkReadBound : Nat := 100

/-- A Silk delivery later than its bound is counted and reported (R254, R276). -/
def silkLate (s : State) (sent : DWord) (bound master inst : Nat) : State :=
  if due s sent (bound + 1) then
    fabricFault (countR s r_SILK_LATE 0 1) 2 0 master (if inst < 32 then inst else 0xFF) 0 0 0
  else s

/-- The fabric fault MASTER of a Silk sender. -/
def silkMaster : SilkFrom → Nat
  | .group c _ _ => masterCore c
  | .peer _ _ _ => masterLink 0
  | .device => masterDevice 0

/-- Makes a group that waits for a Silk operation ready, and ends the operation; a saved batch's group is made ready where
it is saved (R104). -/
def silkWake (s : State) (c g op : Nat) : State :=
  let s' := { s with ops := mdel s.ops op }
  let wake (b : Batch) : Batch := { b with groups := b.groups.map (fun kv : Nat × Group =>
    if kv.2.wait = .silk op then (kv.1, { kv.2 with wait := .ready }) else kv) }
  match groupOf s c g with
  | some gr => if gr.wait = .silk op then setGroup s' c g { gr with wait := .ready } else s'
  | none => { s' with ctxs := s'.ctxs.map (fun kv : Nat × Ctx =>
      (kv.1, { kv.2 with saved := kv.2.saved.map (fun v => { v with batch := wake v.batch }) })) }

/-- The core number that stands for a batch that is saved (R104). -/
def noCore : Nat := 0xFFFFF

/-- Is an operation a wait of CSILK, which a save keeps (R104)? -/
def isSilkWait (o : ThreadOp) : Bool := o.kind = .silkWait || o.kind = .silkTake

/-- Is a core's clock stopped: it is asleep, on its way in or out of diapause, or in a coolant stop (R257, R488, R493)? -/
def asleep (s : State) (c : Nat) : Bool := getF s f_THM_CORE_AGE_DSTATE c ≠ 0 || flagF s f_PWR_STATUS_COOLANT_STOP

/-- Sends a Silk message to a peer, on VL0, under the epoch of the operation that it answers (R338). Its INSTAR is the waiting
core's (R426), which no message tells its home: a free value (log entry 31). -/
def silkTo (s : State) (chip inst tag epoch type value : Nat) : State :=
  let v := freeVal s 8
  sendOrDrop v.2 { LinkMsg.blank v.2 type chip with tag := tag, inst := inst, instar := v.1, epoch := epoch, addr := value }

/-- Releases a waiter: a group becomes ready, or, while its core sleeps, its release is held (R257); a release whose core
instar is stale is discarded (R359); a peer is sent RELEASE, and its entry stays until the answer (R426). -/
def silkRelease (s : State) (w : SilkWaiter) (value : Nat) : State :=
  match w.src with
  | .group c g op =>
    if c = noCore then silkWake s c g op
    else if w.instar ≠ instarOf s (.core c) then countStale s (.core c)
    else if asleep s c then
      { s with silkReplies := mput s.silkReplies op ⟨c, g, op, BitVec.ofNat 64 value, w.instar, s.now⟩ }
    else silkWake s c g op
  | .peer chip inst tag => silkTo { s with silkSent := s.silkSent ++ [w] } chip inst tag w.epoch msgSilkRelease value
  | .device => s

/-- Releases every WAITGE waiter of a counter that its value reaches (R253, step 1). -/
def releaseGe (s : State) (ctr : Nat) : State :=
  let v := getR s r_SILK_CTR ctr
  let go (w : SilkWaiter) : Bool := w.ctr = ctr && !w.take && decide (w.value.toNat ≤ v)
  let out := s.silkWaiters.filter go
  out.foldl (fun s w => silkRelease s w v) { s with silkWaiters := s.silkWaiters.filter (fun w => !go w) }

/-- While the counter is non-zero, releases the oldest TAKE waiter and decrements it (R253, step 2). -/
def releaseTake (s : State) (ctr : Nat) : Nat → State
  | 0 => s
  | n + 1 =>
    let v := getR s r_SILK_CTR ctr
    if v = 0 then s else
    match s.silkWaiters.find? (fun w => w.ctr = ctr && w.take) with
    | none => s
    | some w =>
      releaseTake (silkRelease (setR { s with silkWaiters := s.silkWaiters.erase w } r_SILK_CTR ctr (v - 1)) w v) ctr n

/-- What a home does after each change of a counter (R253). -/
def releaseWaiters (s : State) (ctr : Nat) : State :=
  let s := releaseGe s ctr
  releaseTake s ctr s.silkWaiters.length

/-- Sets a counter and handles its waiters. -/
def setCounter (s : State) (ctr v : Nat) : State := releaseWaiters (setR s r_SILK_CTR ctr v) ctr

/-- Answers the sender of an operation performed at the home: READ's value, or an acknowledgement. -/
def silkAnswer (s : State) (m : SilkMsg) (value : Nat) : State :=
  match m.src with
  | .group c g op =>
    if m.op = silkRead then
      { s with silkReplies := mput s.silkReplies op ⟨c, g, op, BitVec.ofNat 64 value, instarOf s (.core c), m.sent⟩ }
    else silkWake s c g op
  | .peer chip inst tag =>
    if m.op = silkAdd then silkTo s chip inst tag m.epoch msgSilkAck value
    else if m.op = silkRead then silkTo s chip inst tag m.epoch msgSilkRelease value
    else silkTo { s with silkSent := s.silkSent ++ [⟨m.op = silkTake, m.ctr, m.value, m.src, 0, m.epoch⟩] } chip inst tag m.epoch
      msgSilkRelease value
  | .device => s

/-- Remote waiter entries in use at the homes of this chip: held, or released and not yet acknowledged (R426). -/
def remoteWaiters (s : State) : Nat :=
  (s.silkWaiters.filter (fun w => match w.src with
    | .peer _ _ _ => true
    | _ => false)).length + s.silkSent.length

/-- Holds an operation that cannot be satisfied; a remote one beyond 16,384 entries is answered UNAVAILABLE (R426). -/
def silkHold (s : State) (m : SilkMsg) : State :=
  let inst8 := match m.src with
    | .group c _ _ => instarOf s (.core c)
    | _ => 0
  let w : SilkWaiter := ⟨m.op = silkTake, m.ctr, m.value, m.src, inst8, m.epoch⟩
  match m.src with
  | .peer chip inst tag =>
    if 16384 ≤ remoteWaiters s then
      sendOrDrop (countR s r_LNK_DISCARDS 0 1)
        { LinkMsg.blank s msgErr chip with tag := tag, inst := inst, epoch := m.epoch, aux := linkUnavailable }
    else { s with silkWaiters := s.silkWaiters ++ [w] }
  | _ => { s with silkWaiters := s.silkWaiters ++ [w] }

/-- A Silk operation at its home (R97, R253, R431): ADD and TAKE to a custody word are discarded and acknowledged. -/
def silkPerform (s : State) (m : SilkMsg) : State :=
  let v := getR s r_SILK_CTR m.ctr
  let cust := s.custody.contains m.ctr
  let s := match m.src with
    | .peer _ _ _ => countR s r_SILK_X_OPS 0 1
    | _ => countR s r_SILK_OPS 0 1
  if m.op = silkAdd then
    silkAnswer (if cust then s else setCounter s m.ctr ((v + m.value.toNat) % 2 ^ 64)) m v
  else if m.op = silkRead then silkAnswer s m v
  else if m.op = silkWaitge then if m.value.toNat ≤ v then silkAnswer s m v else silkHold s m
  else if cust then silkAnswer s m v
  else if v ≠ 0 then silkAnswer (setCounter s m.ctr (v - 1)) m v
  else silkHold s m

/-- The kernel of a group's Silk operation ends with an error, by the path of R101. -/
def silkFail (s : State) (c g op code : Nat) : State :=
  let s' := { s with ops := mdel s.ops op }
  let lanes := ((groupOf s c g).map Group.active).getD 0
  threadFault s' c g code lanes 0

/-- Is a message stale at its home: its instance's instar, or, of this chip, its epoch (R338, R359)? -/
def silkStale (s : State) (m : SilkMsg) : Bool :=
  m.inst < 32 && (m.instar ≠ instarOf s (.inst m.inst) || (match m.src with
    | .group _ _ _ => !epochHeld s m.inst m.epoch
    | _ => false))

/-- SILK_HOME_OP: the oldest message for a counter is performed at its home, and waiters are released; one whose instance's
instar, or whose epoch, is stale is discarded, counted and answered STALE (R253, R359). The operand is the message's number; a message is
performed only after every earlier one for its counter. -/
def execSilkHomeOp (id : Nat) (s : State) : Out :=
  .next (match mfind s.silkMsgs id with
    | none => s
    | some m =>
      if s.silkMsgs.any (fun kv => decide (kv.1 < id) && kv.2.ctr = m.ctr) then s else
      let s := { s with silkMsgs := mdel s.silkMsgs id }
      if silkStale s m then
        let s := countStale s (.inst m.inst)
        match m.src with
        | .group c g op => silkFail s c g op errStaleTarget
        | .peer chip inst tag =>
          sendOrDrop s { LinkMsg.blank s msgErr chip with tag := tag, inst := inst, epoch := m.epoch, aux := linkStale }
        | .device => s
      else silkPerform (if m.op = silkAdd || m.op = silkTake then
        silkLate s m.sent silkBound (silkMaster m.src) m.inst else s) m)

/-- SILK_CTR_WRITE: a manager write sets the counter at its home and releases waiters; the counter is no custody word any
longer (R259, R431). -/
def execSilkCtrWrite (n v : Nat) (s : State) : Out :=
  .next (if 16384 ≤ n then s
    else setCounter { s with custody := s.custody.filter (fun k => k ≠ n) } n (v % 2 ^ 64))

/-! ## CSILK (R97) -/

/-- The 64-bit value of D: a u register sign-extends. -/
def silkValue (g : Group) (d : Nat) : DWord :=
  if rkind d = .a then aReg g (d - 0x60) else BitVec.signExtend 64 (uReg g (d - 0x40))

/-- The checks of a CSILK that its word decides: D is a u or an a register, A an a register (R80, R94, R97). -/
def silkLegal (t : Th) : Bool :=
  cOk && (rkind (fD t) = .u || rkind (fD t) = .a) && rkind (fA t) = .a
where
  /-- IMM is zero. -/
  cOk : Bool := cImm t = 0

/-- The thread operation of a CSILK; `sub` names the chip it went to, as its ID plus 1, or is 0 for this chip. -/
def silkOp (k : ThreadKind) (t : Th) (b : Batch) (g : Group) (chip epoch : Nat) (now : DWord) : ThreadOp :=
  ⟨k, t.core, t.grp, b.kernel, b.index, fD t, 0, false, chip, g.pc, [], [], false, false, now, epoch⟩

/-- A CSILK: the address is checked, and the operation sent to its home or to the chip that CHIP names (R97, R425). A message to
another chip carries the instar of its destination instance (R358), which nothing tells this chip: a free value (log entry
31). -/
def csilk (s : State) (t : Th) (op : Nat) (k : ThreadKind) : State :=
  issue s t (silkLegal t) [usesPred t, fD t, fA t] (fun g =>
    let m := execMask g t
    if m = 0 then retire s t.core t.grp { g with pc := nextPc g } else
    match batchOf s t.core with
    | none => s
    | some b =>
      let a := (aReg g (fA t - 0x60)).toNat
      let inst := (kernel s b.kernel).inst
      let remote := bitAt a 63
      if bitsOf a 14 18 ≠ 0 || bitsOf a 48 15 ≠ 0 then threadFault s t.core t.grp errIllegalInstr g.active g.pc
      else if !remote && getF s f_SILK_RANGE_SIZE inst ≤ bitsOf a 0 14 then
        threadFault s t.core t.grp errSilkRange m (BitVec.ofNat 64 a)
      else
        let (id, s) := fresh s
        let v := silkValue g (fD t)
        let s := { s with ops := mput s.ops id (silkOp k t b g (if remote then bitsOf a 32 16 + 1 else 0) (epochOf s inst) s.now) }
        let g := { g with pc := nextPc g }
        let g := if op = silkRead then { g with pend := g.pend ++ [(id, fD t)] }
          else if op = silkAdd then g else { g with wait := .silk id }
        let s := retire s t.core t.grp g
        if remote then
          let (instar, s) := freeVal s 8
          let msg := { LinkMsg.blank s (msgSilk + op) (bitsOf a 32 16) with
            tag := id, inst := inst, instar := instar, epoch := epochOf s inst
            aux := bitsOf a 0 14, addr := v.toNat }
          match sendMsg s msg with
          | some (_, s') => s'
          | none => selfErr s msg (noWay s msg.dest)
        else
          let (mid, s) := fresh s
          let msg : SilkMsg := ⟨op, getF s f_SILK_RANGE_BASE inst + bitsOf a 0 14, v, .group t.core t.grp id, inst,
            instarOf s (.inst inst), epochOf s inst, s.now⟩
          { s with silkMsgs := mput s.silkMsgs mid msg })

/-- CSILK ADD: the counter receives counter + D (R97). -/
def execCsilkAdd (t : Th) (s : State) : Out := .next (csilk s t silkAdd .silkAdd)

/-- CSILK READ: D receives the counter, when its value returns (R97). -/
def execCsilkRead (t : Th) (s : State) : Out := .next (csilk s t silkRead .silkRead)

/-- CSILK WAITGE: the group waits until the counter is at least D (R97). -/
def execCsilkWaitge (t : Th) (s : State) : Out := .next (csilk s t silkWaitge .silkWait)

/-- CSILK TAKE: the group waits until the counter is non-zero, and it is decremented (R97). -/
def execCsilkTake (t : Th) (s : State) : Out := .next (csilk s t silkTake .silkTake)

end Sys2Proof.Machine
end

