-- ==== Sys2Proof/Machine/CollOps.lean ====
section
/-!
DEFINITION. Collectives (R427 to R430): the descriptor, what each step sends and receives, the counters ARRIVED and FREE,
and how a collective fails. Its rows are in Collective.lean.
-/

namespace Sys2Proof.Machine

/-! ## The descriptor (R427) -/

/-- A field of a collective descriptor. -/
def collNum (d : List Byte) (o n : Nat) : Nat := leNat ((d.drop o).take n)

/-- ALG: 0 ring all-reduce, 1 tree all-reduce, 2 all-gather, 3 reduce-scatter, 4 all-to-all. -/
def collAlg (d : List Byte) : Nat := collNum d 0 1

/-- RANKS. -/
def collN (d : List Byte) : Nat := collNum d 2 2

/-- RANK. -/
def collRank (d : List Byte) : Nat := collNum d 4 2

/-- GROUP. -/
def collGroup (d : List Byte) : Nat := collNum d 6 2

/-- COLL_ID. -/
def collId (d : List Byte) : Nat := collNum d 8 4

/-- CHUNK. -/
def collChunk (d : List Byte) : Nat := collNum d 0xC 4

/-- BUF_VA. -/
def collBuf (d : List Byte) : Nat := collNum d 0x10 8

/-- RECV_VA. -/
def collRecvVa (d : List Byte) : Nat := collNum d 0x18 8

/-- PEERS_VA. -/
def collPeers (d : List Byte) : Nat := collNum d 0x20 8

/-- SILK_BASE. -/
def collSilk (d : List Byte) : Nat := collNum d 0x28 2

/-- OUT_VA. -/
def collOut (d : List Byte) : Nat := collNum d 0x30 8

/-- Does the algorithm reduce, through staging? -/
def collReduces (d : List Byte) : Bool := collAlg d = 0 || collAlg d = 1 || collAlg d = 3

/-- Does a descriptor keep the table of R427? `size` is the counters of the instance's range. -/
def collOk (d : List Byte) (size : Nat) : Bool :=
  let alg := collAlg d
  let n := collN d
  let c := collChunk d
  let g := collGroup d
  alg ≤ 4 && (if collReduces d then collNum d 1 1 = 1 || collNum d 1 1 = 2 else collNum d 1 1 = 0 : Bool)
    && 2 ≤ n && n ≤ 1024 && collRank d < n
    && (if alg = 1 then 1 ≤ g && n % g = 0 && 2 ≤ n / g && n * c % (256 * (n / g)) = 0 else g = 0 : Bool)
    && c % 256 = 0 && 256 ≤ c && c ≤ 2 ^ 30 && collBuf d % 256 = 0 && collBuf d < 2 ^ 49
    && (if collReduces d then collRecvVa d < 2 ^ 49 else collRecvVa d = 0 : Bool) && collPeers d < 2 ^ 49
    && collSilk d + 1 < size && 1 ≤ collNum d 0x2A 1 && collNum d 0x2A 1 ≤ 32 && collNum d 0x2B 5 = 0
    && (if alg = 4 then collOut d < 2 ^ 49 else collOut d = 0 : Bool) && collNum d 0x38 72 = 0

/-- The ranks of a PEERS table, as chip and instance; none when an entry sets a reserved bit, a chip appears twice, or this
rank's entry does not name this chip and instance. -/
def collRanks (chip inst r : Nat) (b : List Byte) : Option (List (Nat × Nat)) :=
  let words := (List.range (b.length / 4)).map (fun i => leNat ((b.drop (4 * i)).take 4))
  let l := words.map (fun w => (w % 2 ^ 16, bitsOf w 16 5))
  if words.any (fun w => decide (2 ^ 21 ≤ w)) || (l.map Prod.fst).eraseDups.length ≠ l.length || l[r]? ≠ some (chip, inst) then none
  else some l

/-! ## The steps (R428) -/

/-- What a step sends or receives: the other rank, the offset in BUF (in OUT for all-to-all's receives), and the bytes. For a
send, `how` is 1 when it goes through staging; for a receive, 0 written in place, 1 reduced through a half of RECV, 2 reduced
from bytes kept on chip. -/
structure CollMove where
  rank : Nat
  ofs : Nat
  len : Nat
  how : Nat
  deriving DecidableEq, Repr

/-- The send of step `s` of a ring all-reduce of `n` chunks of `c` bytes at ring place `r` (R428). -/
def ringSend (n r s c : Nat) : CollMove :=
  if s < n - 1 then ⟨(r + 1) % n, (r + n - s) % n * c, c, 1⟩
  else ⟨(r + 1) % n, (r + 1 + n - (s - (n - 1))) % n * c, c, 0⟩

/-- Its receive. -/
def ringRecv (n r s c : Nat) : CollMove :=
  if s < n - 1 then ⟨(r + n - 1) % n, (r + 2 * n - s - 1) % n * c, c, 1⟩
  else ⟨(r + n - 1) % n, (r + n - (s - (n - 1))) % n * c, c, 0⟩

/-- Puts a move of the leaders' ring among all ranks, reducing from bytes kept on chip. -/
def leaderMove (g : Nat) (recv : Bool) (m : CollMove) : CollMove :=
  { m with rank := m.rank * g, how := if recv && m.how = 1 then 2 else m.how }

/-- The steps of a collective. -/
def collSteps (d : List Byte) : Nat :=
  let n := collN d
  match collAlg d with
  | 0 => 2 * (n - 1)
  | 1 => 2 * (collGroup d - 1) + 2 * (n / collGroup d - 1)
  | _ => n - 1

/-- What step `s` sends. -/
def collSend (d : List Byte) (s : Nat) : Option CollMove :=
  let n := collN d
  let r := collRank d
  let c := collChunk d
  let g := collGroup d
  if collSteps d ≤ s then none else
  match collAlg d with
  | 0 => some (ringSend n r s c)
  | 1 =>
    let pos := r % g
    let m := n / g
    let t := s - (g - 1)
    if s < g - 1 then (if pos = s + 1 then some ⟨r - pos, 0, n * c, 1⟩ else none)
    else if t < 2 * (m - 1) then (if pos = 0 then some (leaderMove g false (ringSend m (r / g) t (n * c / m))) else none)
    else if pos = 0 then some ⟨r + (t - 2 * (m - 1)) + 1, 0, n * c, 0⟩ else none
  | 2 => some ⟨(r + 1) % n, (r + n - s) % n * c, c, 0⟩
  | 3 => some (ringSend n r s c)
  | _ => some ⟨(r + s + 1) % n, (r + s + 1) % n * c, c, 0⟩

/-- What step `s` receives. -/
def collRecv (d : List Byte) (s : Nat) : Option CollMove :=
  let n := collN d
  let r := collRank d
  let c := collChunk d
  let g := collGroup d
  if collSteps d ≤ s then none else
  match collAlg d with
  | 0 => some (ringRecv n r s c)
  | 1 =>
    let pos := r % g
    let m := n / g
    let t := s - (g - 1)
    if s < g - 1 then (if pos = 0 then some ⟨r + s + 1, 0, n * c, 2⟩ else none)
    else if t < 2 * (m - 1) then (if pos = 0 then some (leaderMove g true (ringRecv m (r / g) t (n * c / m))) else none)
    else if pos = t - 2 * (m - 1) + 1 then some ⟨r - pos, 0, n * c, 0⟩ else none
  | 2 => some ⟨(r + n - 1) % n, (r + 2 * n - s - 1) % n * c, c, 0⟩
  | 3 => some (ringRecv n r s c)
  | _ => some ⟨(r + n - s - 1) % n, (r + n - s - 1) % n * c, c, 0⟩

/-- Sends through staging among steps 0 to `s`: the FREE that the send of step `s` needs (R429). -/
def sendOrd (d : List Byte) (s : Nat) : Nat :=
  ((List.range (s + 1)).filter (fun k => (collSend d k).any (fun m => m.how = 1))).length

/-- Receives among steps 0 to `s`: the ARRIVED that the receive of step `s` needs (R429). -/
def recvOrd (d : List Byte) (s : Nat) : Nat := ((List.range (s + 1)).filter (fun k => (collRecv d k).isSome)).length

/-- The ranks that send to this one. -/
def collSenders (d : List Byte) : List Nat :=
  ((List.range (collSteps d)).filterMap (fun k => (collRecv d k).map CollMove.rank)).eraseDups

/-- The ranks it sends to. -/
def collReceivers (d : List Byte) : List Nat :=
  ((List.range (collSteps d)).filterMap (fun k => (collSend d k).map CollMove.rank)).eraseDups

/-- Where received bytes of step `s` are put: RECV's half, BUF or OUT; none for bytes kept on chip. -/
def recvVa (d : List Byte) (s : Nat) (m : CollMove) : Option Nat :=
  if m.how = 2 then none
  else if m.how = 1 then some (collRecvVa d + s % 2 * collChunk d)
  else if collAlg d = 4 then some (collOut d + m.ofs)
  else some (collBuf d + m.ofs)

/-! ## The collective on this chip -/

/-- Changes a collective. -/
def modColl (s : State) (k : Nat) (f : Coll → Coll) : State :=
  match mfind s.colls k with
  | none => s
  | some c => { s with colls := mput s.colls k (f c) }

/-- A Silk counter of a collective: ARRIVED for 0, FREE for 1. -/
def collCtr (s : State) (c : Coll) (k : Nat) : Nat := getF s f_SILK_RANGE_BASE c.inst + collSilk c.desc + k

/-- Adds 1 to ARRIVED or FREE. -/
def collCount (s : State) (c : Coll) (k : Nat) : State :=
  let n := collCtr s c k
  setCounter s n ((getR s r_SILK_CTR n + 1) % 2 ^ 64)

/-- A step's actions before they begin: what a step does not do is over. -/
def collAtStep (c : Coll) (n : Nat) (now : DWord) : Coll :=
  { c with
    step := n
    sendSt := if (collSend c.desc n).isSome then 0 else 2
    recvSt := if (collRecv c.desc n).isSome then 0 else 2
    since := now }

/-- A message of a collective to one of its ranks. -/
def collMsg (s : State) (k : Nat) (c : Coll) (rank type aux : Nat) : LinkMsg :=
  { LinkMsg.blank s type ((c.ranks.getD rank (0, 0)).1) with
    inst := c.inst % 32, instar := instarOf s (.inst c.inst), epoch := epochOf s c.inst, tag := c.tag, aux := aux, addr := k }

/-- Sends a message of a collective; with no usable port it is answered at once. -/
def collSendMsg (s : State) (m : LinkMsg) : State :=
  match sendMsg s m with
  | some (_, s) => s
  | none => selfErr s m (noWay s m.dest)

/-- A bulk channel that no descriptor follows takes the USE that was written meanwhile (R224). -/
def leaveChan (s : State) (n : Nat) : State :=
  let c := chan s (256 + n / 32) (n % 32)
  match c.newUse with
  | some v => if c.queue.isEmpty then setF (setChan s (256 + n / 32) (n % 32) { c with newUse := none }) f_TMV_BCH_CFG_USE n v else s
  | none => s

/-- Removes a collective: the channels of its actions are free. -/
def freeColl (s : State) (k : Nat) (c : Coll) : State :=
  (c.sendCh ++ c.recvCh).foldl leaveChan { s with colls := mdel s.colls k }

/-- Tells the ranks that a failed collective exchanges with (R430): COLL_PUT with AUX 0xFFFF. -/
def collTell (s : State) (k : Nat) (c : Coll) : State :=
  ((collSenders c.desc ++ collReceivers c.desc).eraseDups).foldl (fun s r =>
    collSendMsg s (collMsg s k c r msgCollPut 0xFFFF)) s

/-- Ends the deferral of a soft cap for every core of whose Imago no action that was running then still runs (R481). -/
def settleCaps (s : State) : State :=
  let on (x : Nat × Nat × Bool) : Bool := match mfind s.colls x.1 with
    | some c => c.step = x.2.1 && (if x.2.2 then c.recvSt else c.sendSt) = 1
    | none => false
  let ops := s.power.capOps.filter on
  let insts := ops.filterMap (fun x => (mfind s.colls x.1).map Coll.inst)
  let kept := s.power.preCap.filter (fun kv => insts.contains (getF s f_CMP_CORE_INSTANCE kv.1))
  let gone := s.power.preCap.filter (fun kv => !insts.contains (getF s f_CMP_CORE_INSTANCE kv.1))
  let s := gone.foldl (fun s kv => setF s f_PWR_CORE_FREQ_DEFERRED kv.1 0) { s with power := { s.power with capOps := ops, preCap := kept } }
  if gone.isEmpty || !kept.isEmpty then s else setF s f_PWR_STATUS_CAP_PENDING 0 0

/-- A collective fails for a cause that this chip observes in another (R430): the command that runs it ends with the code; one
between commands keeps it for the next. -/
def failColl (s : State) (k code : Nat) : State :=
  match mfind s.colls k with
  | none => s
  | some c => match c.fate, c.cmd with
    | some _, _ => s
    | none, some id => settleCaps (endCmd (freeColl s k c) id code)
    | none, none => modColl s k (fun c => { c with fate := some code })

/-- Fails every open collective that meets a test. -/
def failColls (s : State) (code : Nat) (p : Coll → Bool) : State :=
  (s.colls.filter (fun kv => kv.2.fate.isNone && p kv.2)).foldl (fun s kv => failColl s kv.1 code) s

/-- A COLLECTIVE command has completed: one that failed here, with its collective still open, fails it (R430). -/
def collEnded (s : State) (id code : Nat) : State :=
  match s.colls.find? (fun kv => kv.2.cmd = some id) with
  | none => s
  | some (k, c) =>
    if code = 0 then modColl s k (fun c => { c with cmd := none })
    else collTell (settleCaps (freeColl s k c)) k c

/-- Removes the collectives of a context that is destroyed. -/
def dropColls (s : State) (space : Nat) : State :=
  (s.colls.filter (fun kv => kv.2.space = space)).foldl (fun s kv =>
    let s := freeColl s kv.1 kv.2
    if kv.2.fate.isNone then collTell (settleCaps s) kv.1 kv.2 else s) s

end Sys2Proof.Machine
end

