-- ==== Sys2Proof/Machine/Fences.lean ====
section
/-!
DEFINITION. Fences (R370 to R373): where a fence lives, its updates and waits at the home's fence cache, and the messages that
carry them between chips.
-/

namespace Sys2Proof.Machine

/-- Where a fence lives. -/
inductive FenceHome where
  /-- Its global physical address. -/
  | at (gpa : Nat)
  /-- Its address does not translate, or its location cannot be reached (FENCE_INVALID of R387). -/
  | bad
  /-- A table entry of another chip has still to be read. -/
  | wait
  deriving DecidableEq, Repr

/-- The home of the fence at an address, as device work kept under a command finds it, and the state after. -/
def fenceAt (s : State) (slot : SlotInfo) (q c va : Nat) : FenceHome × State :=
  if va % 16 ≠ 0 then (.bad, s) else
  match devAccess s slot q c [(va, 16)] (fun s gs => (.ok [] ((gs.map Prod.fst).headD 0), s)) with
  | (.ok _ g, s) => (.at g, s)
  | (.wait, s) => (.wait, s)
  | (_, s) => (.bad, s)

/-- What a fence operation does: 0 signal, 1 error, 2 reset. -/
inductive FenceAct where
  | signal (v : Nat)
  | error (code : Nat)
  | reset (v : Nat)
  deriving DecidableEq, Repr

/-- A fence's two words as an update leaves them; none where R371 discards the update. -/
def fenceNext (value state : Nat) : FenceAct → Option (Nat × Nat)
  | .signal v => if bitAt state 16 then none else some (max value (v % 2 ^ 64), state)
  | .error c => if bitAt state 16 then none else some (value, setBits (setBits state 16 1 1) 0 16 c)
  | .reset v => some (v % 2 ^ 64, setBits state 0 17 0)

/-- Whether a wait for `v` is over (R371): satisfied with 0, or released with the fence's code. -/
def fenceWaitEnd (value state v : Nat) : Option Nat :=
  if v ≤ value then some 0 else if bitAt state 16 then some (bitsOf state 0 16) else none

/-- The two words of a fence at its home. -/
def fenceWords (s : State) (gpa : Nat) : Nat × Nat :=
  let d := (readAt s gpa 16).1
  (leNat (d.take 8), leNat ((d.drop 8).take 8))

/-- The home's message to a waiting peer (R372): TAG is the wait's, AUX the code in [15:0] and the waiting queue's instar in
[23:16]. -/
def fenceMsg (s : State) (chip inst tag instar code : Nat) : State :=
  sendOrDrop s { LinkMsg.blank s msgFenceRelease chip with inst := inst, tag := tag, aux := code + 65536 * instar }

/-- Releases a waiter with a code; a queue destroyed or created anew since discards it (R397). -/
def releaseFence (s : State) (w : FenceWaiter) (code : Nat) : State :=
  match w.src with
  | .queue q c instar => if instarOf s (.queue q) ≠ instar then countStale s (.queue q) else endCmd s c code
  | .peer chip inst tag instar => fenceMsg s chip inst tag instar code

/-- Releases every waiter of a fence whose wait is over. -/
def releaseFences (s : State) (gpa : Nat) : State :=
  let (value, state) := fenceWords s gpa
  let mine := s.fenceWaiters.filter (fun w => w.gpa = gpa)
  let out := mine.filter (fun w => (fenceWaitEnd value state w.value.toNat).isSome)
  let s := { s with fenceWaiters := s.fenceWaiters.filter (fun w =>
      !(w.gpa = gpa && (fenceWaitEnd value state w.value.toNat).isSome)) }
  out.foldl (fun s w => releaseFence s w ((fenceWaitEnd value state w.value.toNat).getD 0)) s

/-- A request of the fence cache, which the device's own regulator counts (R263). -/
def fenceReq (op : ReqOp) (gpa space : Nat) (data : List Byte) : MemReq :=
  MemReq.make op (.command 0 0) gpa 16 data 0 0 0xFF space (masterDevice 0) 0 false

/-- The class target of a fence's memory. -/
def fenceDst (gpa : Nat) : Nat := if hostWindow ≤ gpaLocal gpa then 2 else 1

/-- The fence cache reads a fence, and writes it through in one access of 16 bytes (R370, R372). -/
def fenceWrite (s : State) (space gpa : Nat) (data : List Byte) : State :=
  let s := (readNow (regulate s (fenceReq .read gpa space []) (fenceDst gpa)).2 managerRouter gpa 16).2
  writeNow (regulate s (fenceReq .write gpa space data) (fenceDst gpa)).2 managerRouter gpa 0 data

/-- Updates a fence at its home: memory is written, then waiters are released and, with NOTIFY set, a FENCE_NOTIFY record is
posted (R371, R373). -/
def fenceUpdate (s : State) (win space va gpa : Nat) (act : FenceAct) : State :=
  let (value, state) := fenceWords s gpa
  match fenceNext value state act with
  | none => s
  | some (v, st) =>
    let s := releaseFences (fenceWrite s space gpa (leBytes 8 v ++ leBytes 8 st)) gpa
    if bitAt st 17 then postEvent s win (eventRecord 0x15 (bitsOf st 0 16) space va v 0 s.now) else s

/-- The operation code of a FENCE_OP message: 0 signal, 1 error, 2 reset, 3 wait. -/
def FenceAct.code : FenceAct → Nat
  | .signal _ => 0
  | .error _ => 1
  | .reset _ => 2

/-- The value or code that an operation carries. -/
def FenceAct.arg : FenceAct → Nat
  | .signal v => v
  | .error c => c
  | .reset v => v

/-- Sends a fence operation to its home on another chip (R372); none when no port leads there. The message's form is the
model's (log entry 24): AUX holds the operation in [1:0] and the waiting queue's instar in [15:8], ADDR the fence's local
address, and the data its value or code. -/
def fenceSend (s : State) (inst gpa op arg instar tag : Nat) : Option State :=
  (sendMsg s { LinkMsg.blank s msgFenceOp (gpaChip gpa) with
    inst := inst % 32, instar := instarOf s (.inst inst), epoch := epochOf s inst, tag := tag, aux := op + 256 * instar
    addr := gpaLocal gpa, data := leBytes 8 arg }).map Prod.snd

/-- Fences that have waiters: the entries of the fence cache that cannot be dropped (R372). -/
def fencesHeld (s : State) : List Nat := (s.fenceWaiters.map FenceWaiter.gpa).eraseDups

/-- Is the fence cache full for a fence (R372)? -/
def fenceFull (s : State) (gpa : Nat) : Bool := !(fencesHeld s).contains gpa && 16384 ≤ (fencesHeld s).length

/-- How a fence operation went: done at its home, sent to another chip, waiting for a table entry or for the fence cache, or not
possible, with a code. -/
inductive FenceRes where
  | done (s : State)
  | sent (s : State)
  | wait (s : State)
  | failed (code : Nat) (s : State)

/-- Performs or sends an update of the fence at an address of a resident context (R371, R372), for device work kept under a
command; with `awaits` the command waits for a remote home's answer. -/
def fenceOp (s : State) (slot : SlotInfo) (win va : Nat) (act : FenceAct) (q c : Nat) (awaits : Bool) : FenceRes :=
  match fenceAt s slot q c va with
  | (.bad, s) => .failed errFenceInvalid s
  | (.wait, s) => .wait s
  | (.at g, s) =>
    if gpaChip g = chipId s then
      if fenceFull s g then .wait s else .done (fenceUpdate s win slot.space va g act)
    else
      let (tag, s) := fresh s
      match fenceSend s slot.inst g act.code act.arg 0 tag with
      | none => .failed errPeerLost s
      | some s =>
        let o : FenceOut := ⟨gpaChip g, q, if awaits then c else 0, false, s.now, slot.space, slot.inst, epochOf s slot.inst⟩
        .sent { s with fenceOuts := mput s.fenceOuts tag o }

/-- Signals a fence for device work that nobody waits for, whatever comes of it; false where it has to wait. -/
def fenceTry (s : State) (slot : SlotInfo) (win va : Nat) (act : FenceAct) (q c : Nat) : Bool × State :=
  match fenceOp s slot win va act q c false with
  | .done s => (true, s)
  | .sent s => (true, s)
  | .wait s => (false, s)
  | .failed _ s => (true, s)

end Sys2Proof.Machine
end

