-- ==== Sys2Proof/Machine/Scratch.lean ====
section
/-!
DEFINITION. Scratchpads (R72, R182, R184, R189 to R195): reads and writes with their error correction and poison, pages held
by landing slots, zeroing, and the write-back of corrected words. Batch addresses are physical addresses: every reservation
is placed at physical base 0 (R190, log entry 12).
-/

namespace Sys2Proof.Machine

/-- Who accesses scratchpad: the SOURCE codes of TMV_SCR_UE_LOG (R224). -/
def srcThread : Nat := 0
def srcMatrix : Nat := 1
def srcOwnMover : Nat := 2
def srcGate : Nat := 3
def srcInbound : Nat := 4
def srcWriteBack : Nat := 5

/-! ## Held pages (R182, R184) -/

/-- Does a landing slot hold its pages: from its assignment until it is promoted or its squash completes? -/
def holding (k : LandSlot) : Bool := k.state ≠ .promoted

/-- The landing slot that holds a scratchpad address of a core. -/
def heldBy (s : State) (c a : Nat) : Option Nat :=
  (s.landing.find? (fun kv => kv.2.core = c && holding kv.2 && kv.2.base ≤ a / 4096 * 4096
    && a / 4096 * 4096 < kv.2.base + kv.2.len)).map Prod.fst

/-- Zeroes scratchpad bytes: whole words with valid check bits (R74, R182, R193). -/
def zeroScr (s : State) (c lo len : Nat) : State :=
  modCore s c (fun k => { k with
    scr := k.scr.filter (fun kv => !(lo ≤ kv.1 && kv.1 < lo + len))
    marks := k.marks.filter (fun kv => !(lo ≤ 8 * kv.1 && 8 * kv.1 < lo + len)) })

/-- Completes a squash: the slot is free and its pages are cleared pages (R184, step 5). -/
def squashDone (s : State) (id : Nat) : State :=
  match mfind s.landing id with
  | none => s
  | some k => zeroScr { s with landing := mdel s.landing id } k.core k.base k.len

/-- Triggers a squash, which the commands SQUASH and SQUASH_COMPLETE carry out (R184, R186). -/
def doomSlot (s : State) (id : Nat) : State :=
  match mfind s.landing id with
  | none => s
  | some k =>
    if k.state = .promoted || k.state = .squashing then s
    else { s with landing := mput s.landing id { k with state := .doomed } }

/-- Triggers the squash of every slot that meets a test. -/
def doomIf (s : State) (p : LandSlot → Bool) : State :=
  (s.landing.filter (fun kv => p kv.2)).foldl (fun s kv => doomSlot s kv.1) s

/-! ## Words (R193, R194) -/

/-- The state of a scratchpad word. -/
def markOf (s : State) (c w : Nat) : WordMark := mget .good (core s c).marks w

/-- Sets the state of a word. -/
def setMark (s : State) (c w : Nat) (m : WordMark) : State :=
  modCore s c (fun k => { k with marks := mset .good k.marks w m })

/-- Applies the upsets that the environment reports: a word that is good now has a single or an uncorrectable error. -/
def applyUpsets (s : State) (c : Nat) (ups : List Upset) : State :=
  ups.foldl (fun s u =>
    let w := u.addr / 8
    if markOf s c w = .good then setMark s c w (if u.double then .double else .single)
    else if markOf s c w = .single && u.double then setMark s c w .double else s) s

/-- Records an uncorrectable scratchpad error: TMV_SCR_UE and TMV_SCR_UE_LOG (R193, R224). -/
def logScrUe (s : State) (c w src : Nat) : State :=
  setR (countR s r_TMV_SCR_UE 0 1) r_TMV_SCR_UE_LOG 0 (8 * w + c * 2 ^ 24 + src * 2 ^ 32 + 2 ^ 63)

/-- What a read of scratchpad words found: uncorrectable words and poisoned words. -/
structure ScrFind where
  ue : List Nat
  bad : List Nat
  deriving DecidableEq, Repr

/-- Reads words (R193, R194): single errors are corrected, counted and queued for write-back; uncorrectable ones are counted
and logged. A held page has no errors to find. -/
def scanWords (s : State) (c src : Nat) (words : List Nat) : ScrFind × State :=
  words.foldl (fun (r : ScrFind × State) w =>
    let s := r.2
    if (heldBy s c (8 * w)).isSome then r else
    match markOf s c w with
    | .good => r
    | .single =>
      (r.1, modCore (countR s r_TMV_SCR_CE 0 1) c (fun k =>
        { k with backs := if k.backs.contains w then k.backs else k.backs ++ [w] }))
    | .double => ({ r.1 with ue := r.1.ue ++ [w] }, logScrUe s c w src)
    | .poison => ({ r.1 with bad := r.1.bad ++ [w] }, s)) (⟨[], []⟩, s)

/-- The words that bytes touch. -/
def wordsOf (a n : Nat) : List Nat := (List.range ((a % 8 + n + 7) / 8)).map (a / 8 + ·)

/-- The distinct words that several ranges touch. -/
def wordsOfAll (l : List (Nat × Nat)) : List Nat :=
  l.foldl (fun acc r => (wordsOf r.1 r.2).foldl (fun acc w => if acc.contains w then acc else acc ++ [w]) acc) []

/-- The bytes a reader gets: a byte of a held page reads as zero (R182). -/
def scrBytes (s : State) (c a n : Nat) : List Byte :=
  if s.landing.isEmpty then memBytes (core s c).scr a n
  else (List.range n).map (fun i => if (heldBy s c (a + i)).isSome then 0 else mem8 (core s c).scr (a + i))

/-- The state of one word after a write that covers it whole or in part: an uncorrectable word written in part is poisoned,
counted and logged; poison stays under a partial clean write (R193, R194). -/
def writeMark (s : State) (c w src : Nat) (whole bad : Bool) : State :=
  if bad then
    setMark (if !whole && markOf s c w = .double then logScrUe s c w src else s) c w .poison
  else if whole then setMark s c w .good
  else match markOf s c w with
    | .good => s
    | .single => setMark (countR s r_TMV_SCR_CE 0 1) c w .good
    | .double => setMark (logScrUe s c w src) c w .poison
    | .poison => s

/-- Writes scratchpad bytes (R182, R193, R194): slots whose held pages they touch are squashed first. `bad` lists the words
that receive poisoned data. -/
def scrWrite (s : State) (c a : Nat) (data : List Byte) (bad : List Nat) (src : Nat) : State :=
  let words := wordsOf a data.length
  let s := words.foldl (fun s w => match heldBy s c (8 * w) with
    | some id => squashDone s id
    | none => s) s
  let s := words.foldl (fun s w =>
    writeMark s c w src (decide (a ≤ 8 * w) && decide (8 * w + 8 ≤ a + data.length)) (bad.contains w)) s
  modCore s c (fun k => { k with scr := memPut k.scr a data })

/-- The pieces of one access to a chunk, written together (R191, R207, step 4): a word counts as written whole when they cover its
eight bytes between them. Where they overlap, the later one prevails. -/
def scrWriteAll (s : State) (c : Nat) (ws : List (Nat × List Byte)) (bad : List Nat) (src : Nat) : State :=
  let words := wordsOfAll (ws.map (fun w => (w.1, w.2.length)))
  let has (a : Nat) : Bool := ws.any (fun w => decide (w.1 ≤ a) && decide (a < w.1 + w.2.length))
  let s := words.foldl (fun s w => match heldBy s c (8 * w) with
    | some id => squashDone s id
    | none => s) s
  let s := words.foldl (fun s w => writeMark s c w src ((List.range 8).all (fun i => has (8 * w + i))) (bad.contains w)) s
  ws.foldl (fun s w => modCore s c (fun k => { k with scr := memPut k.scr w.1 w.2 })) s

/-- Groups pieces by their 512-byte chunk, in the order in which the chunks are first touched (R191). -/
def byChunk (ws : List (Nat × List Byte)) : List (List (Nat × List Byte)) :=
  ((ws.map (fun w => w.1 / 512)).eraseDups).map (fun n => ws.filter (fun w => w.1 / 512 = n))

/-- SCRATCH_ECC_WRITEBACK: the oldest corrected word of a core is written back; one that has become uncorrectable is
counted and logged (R193). -/
def execScratchEccWriteback (c : Nat) (s : State) : Out :=
  .next (match (core s c).backs with
    | [] => s
    | w :: rest =>
      let s := modCore s c (fun k => { k with backs := rest })
      match markOf s c w with
      | .single => setMark s c w .good
      | .double => logScrUe s c w srcWriteBack
      | _ => s)

end Sys2Proof.Machine
end

