-- ==== Sys2Proof/Machine/XInstr.lean ====
section
/-!
DEFINITION. The X instructions (R88 to R93), the issue of translated tiles of threads and instruction fetches (R292, R545,
R547), and the return of data to registers (R76, R100).
-/

namespace Sys2Proof.Machine

/-! ## Own scratchpad (R72, R89 to R91, R93) -/

/-- The lanes below 32 of a mask, ascending. -/
def lanesOf (m : Word) : List Nat := (List.range 32).filter (fun l => m.getLsbD l)

/-- The lanes an X instruction acts in: every executing lane, or for a uniform one the lowest of them (R81, R88). -/
def xLanes (t : Th) (m : Word) : List Nat := if xUniform t then (lanesOf m).take 1 else lanesOf m

/-- A list of lanes as a mask. -/
def laneMask (l : List Nat) : Word := l.foldl (fun m x => m ||| BitVec.ofNat 32 (2 ^ x)) 0

/-- The code of the fault that lane addresses raise, if any, with the faulting lanes: misalignment before range, and the
error of the lowest faulting lane (R100, R102). -/
def addrFault (size : Nat) (far : Nat → Bool) (code : Nat) (l : List (Nat × Nat)) : Option (Nat × List Nat) :=
  let bad := l.filter (fun x => x.2 % size ≠ 0 || far x.2)
  match bad with
  | [] => none
  | x :: _ => some (if x.2 % size ≠ 0 then errMisaligned else code, bad.map Prod.fst)

/-- The effective addresses of the acting lanes. -/
def xAddrs (g : Group) (t : Th) (lanes : List Nat) : List (Nat × Nat) := lanes.map (fun l => (l, (xAddr g t l).toNat))

/-- The shape of a scratchpad access: nothing when no lane executes, a fault for a bad address, else the access. Which lanes a
uniform instruction's fault record names is the model's choice: its executing mask for a bad address, and the lowest lane alone
for an error or poison (R102, log entry 59). -/
def scratchAccess (s : State) (t : Th) (legal : Bool) (n size : Nat) (act : Group → List (Nat × Nat) → State) : State :=
  issue s t legal (xUses t n) (fun g =>
    let m := execMask g t
    if m = 0 then retire s t.core t.grp { g with pc := nextPc g } else
    let addrs := xAddrs g t (xLanes t m)
    let limit := scrLimit (kernelOn s t.core).lb
    match addrFault size (fun a => decide (limit ≤ a)) errScratchRange addrs with
    | some (code, lanes) =>
      let a := ((addrs.filter (fun x => lanes.contains x.1)).head?.map Prod.snd).getD 0
      threadFault s t.core t.grp code (if xUniform t then m else laneMask lanes) (BitVec.ofNat 64 a)
    | none => act g addrs)

/-- Ends an access some of whose lanes met uncorrectable or poisoned words: SCRATCH_ECC, or DATA_POISON (R100). -/
def scratchFault (s : State) (t : Th) (g : Group) (ue : List (Nat × Nat)) (bad : List (Nat × Nat)) : State :=
  let all := ue ++ bad
  let low := all.foldl (fun (b : Nat × Nat) x => if x.1 < b.1 then x else b) (all.headD (0, 0))
  let code := if ue.any (fun x => x.1 = low.1) then errScratchEcc else errDataPoison
  let lanes := laneMask (all.map Prod.fst)
  coreFault s t.core { groupFault s t.core t.grp code lanes low.1 (BitVec.ofNat 64 low.2) with pc := g.pc }

/-- Do any of the words of an access stand in a list? -/
def hits (l : List Nat) (a n : Nat) : Bool := (wordsOf a n).any (fun w => l.contains w)

/-- XLDS: a load from the group's own scratchpad (R89, R193, R194). `ups` are the upsets its words have suffered. -/
def execXlds (t : Th) (ups : List Upset) (s : State) : Out :=
  .next (
    let size := sizeBytes (xSize t)
    scratchAccess s t (xLegal t true) (sizeRegs (xSize t)) size (fun g addrs =>
      let s := applyUpsets s t.core ups
      let (f, s) := scanWords s t.core srcThread (wordsOfAll (addrs.map (fun x => (x.2, size))))
      let ue := addrs.filter (fun x => hits f.ue x.2 size)
      let bad := addrs.filter (fun x => !hits f.ue x.2 size && hits f.bad x.2 size)
      let good := addrs.filter (fun x => !hits f.ue x.2 size && !hits f.bad x.2 size)
      let g' := good.foldl (fun g x => writeData g (xData t) (xSize t) (xSx t) x.1 (scrBytes s t.core x.2 size)) g
      if ue.isEmpty && bad.isEmpty then retire s t.core t.grp { g' with pc := nextPc g }
      else scratchFault (setGroup s t.core t.grp g') t g ue bad))

/-- The bytes of a core's scratchpad that reductions in progress add into (R205). -/
def redSpans (s : State) (c : Nat) : List (Nat × Nat) :=
  s.movers.flatMap (fun m => m.2.chans.flatMap (fun kv : Nat × Chan =>
    if ((kv.2.queue.head?.map Desc.bytes).getD []).getD 5 0 &&& 0xC = 0 then [] else
    (kv.2.spans.filter (fun x => x.1 = 2 * (1 + c) + 1)).map Prod.snd))

/-- Writes with those bytes free that lie in a list of ranges: the spec leaves them undefined (log entry 5). -/
def freeWithin (s : State) (spans : List (Nat × Nat)) (ws : List (Nat × List Byte)) : List (Nat × List Byte) × State :=
  if spans.isEmpty then (ws, s) else
  ws.foldl (fun (acc : List (Nat × List Byte) × State) w =>
    let v := freeBytes acc.2 w.2.length
    let lies (a : Nat) : Bool := spans.any (fun x => decide (x.1 ≤ a) && decide (a < x.1 + x.2))
    (acc.1 ++ [(w.1, (List.range w.2.length).map (fun i => if lies (w.1 + i) then v.1.getD i 0 else w.2.getD i 0))], v.2)) ([], s)

/-- XSTS: a store to the group's own scratchpad (R89). Lanes that touch one chunk share one access (R191), in ascending lane
order (R92); bytes that a running reduction adds into are then undefined (R205). An uncorrectable word that it covers in part is merged and poisoned, and the store takes no fault: R193 says so of
every writer, where R100 names XSTS beside XLDS and XATOMS (log entry 58). -/
def execXsts (t : Th) (ups : List Upset) (s : State) : Out :=
  .next (
    let size := sizeBytes (xSize t)
    scratchAccess s t (xLegal t false) (sizeRegs (xSize t)) size (fun g addrs =>
      let s := applyUpsets s t.core ups
      let (ws, s) := freeWithin s (redSpans s t.core) (addrs.map (fun x => (x.2, dataBytes g x.1 (xData t) 0 size)))
      let s := (byChunk ws).foldl (fun s l => scrWriteAll s t.core l [] srcThread) s
      retire s t.core t.grp { g with pc := nextPc g }))

/-- One lane's scratchpad atomic: its old value, or none where its word is uncorrectable or poisoned. -/
def scratchAtomic (s : State) (t : Th) (g : Group) (lane a : Nat) : Option (List Byte) × Bool × State :=
  let (f, s) := scanWords s t.core srcThread (wordsOf a 4)
  if !f.ue.isEmpty then (none, true, s)
  else if !f.bad.isEmpty then (none, false, s)
  else
    let old := scrBytes s t.core a 4
    let d := leNat (dataBytes g lane (xData t) 0 4)
    let e := leNat (dataBytes g lane (xData t) 1 4)
    let v := atomicResult (xSub t) 32 (xSx t) (leNat old) d e
    (some old, false, scrWrite s t.core a (leBytes 4 v) [] srcThread)

/-- XATOMS: a 32-bit atomic on own scratchpad in each lane, in ascending lane order (R91). A poisoned target is not changed,
and faults unless DATA is ZERO. -/
def execXatoms (t : Th) (ups : List Upset) (s : State) : Out :=
  .next (
    scratchAccess s t (atomLegal t false) (if xSub t = 4 then 2 else 1) 4 (fun g addrs =>
      let s := applyUpsets s t.core ups
      let step := fun (r : Group × List (Nat × Nat) × List (Nat × Nat) × State) (x : Nat × Nat) =>
        let o := scratchAtomic r.2.2.2 t g x.1 x.2
        match o.1 with
        | some old => (writeData r.1 (xData t) 2 false x.1 old, r.2.1, r.2.2.1, o.2.2)
        | none =>
          if o.2.1 then (r.1, r.2.1 ++ [x], r.2.2.1, o.2.2)
          else (r.1, r.2.1, if xData t = 0x7F then r.2.2.1 else r.2.2.1 ++ [x], o.2.2)
      let r := addrs.foldl step (g, [], [], s)
      if r.2.1.isEmpty && r.2.2.1.isEmpty then retire r.2.2.2 t.core t.grp { r.1 with pc := nextPc g }
      else scratchFault (setGroup r.2.2.2 t.core t.grp r.1) t g r.2.1 r.2.2.1))

/-- Queues a descriptor on a channel. -/
def queueDesc (s : State) (u k : Nat) (d : Desc) : State := setChan s u k { chan s u k with queue := (chan s u k).queue ++ [d] }

/-- XMOV: the 64 bytes at the effective address are copied into the queue of channel SUB[2:0]; a full queue of 16 makes the
group wait (R89, R93, R198, R206). The lane that gives the address where IDX names an s register is the model's choice: the
lowest executing one (log entry 59). -/
def execXmov (t : Th) (ups : List Upset) (s : State) : Out :=
  .next (
    let legal := !bitAt (xSub t) 3 && rkind (xData t) ≠ .reserved && rkind (xIdx t) ≠ .reserved
    let k := xSub t % 8
    if legal && 16 ≤ (chan s t.core k).queue.length then s else
    issue s t legal [usesPred t, 0x60 + xAbase t, xIdx t] (fun g =>
      let m := execMask g t
      if m = 0 then retire s t.core t.grp { g with pc := nextPc g } else
      let a := (xAddr g t (lowLane m)).toNat
      let kn := kernelOn s t.core
      if a % 64 ≠ 0 then threadFault s t.core t.grp errMisaligned m (BitVec.ofNat 64 a)
      else if scrLimit kn.lb ≤ a then threadFault s t.core t.grp errScratchRange m (BitVec.ofNat 64 a)
      else
        let s := applyUpsets s t.core ups
        let (f, s) := scanWords s t.core srcThread (wordsOf a 64)
        if !f.ue.isEmpty then threadFault s t.core t.grp errScratchEcc m (BitVec.ofNat 64 a)
        else if !f.bad.isEmpty then threadFault s t.core t.grp errDataPoison m (BitVec.ofNat 64 a)
        else
          let bytes := scrBytes s t.core a 64
          let cls := (bytes.getD 1 0).toNat % 8
          let label := max cls (kn.lb.mode % 8)
          let kid := ((batchOf s t.core).map Batch.kernel).getD 0
          let s := queueDesc s t.core k ⟨bytes, .xmov kid t.grp, label, kn.space, kn.inst, none⟩
          retire s t.core t.grp { g with pc := nextPc g }))

/-! ## Global accesses (R89 to R92) -/

/-- Is a thread operation performed at Imago scope: every request of it done, or gone (R242)? -/
def opPerformed (s : State) (op : Nat) : Bool :=
  !s.reqs.any (fun kv => match kv.2.owner with
    | .thread o _ => o = op && kv.2.stage ≠ .done
    | _ => false)

/-- Does an earlier XFENCE of the group still wait: a fenced access is not yet performed (R92)? -/
def fenceHolds (s : State) (c g : Nat) : Bool :=
  s.ops.any (fun kv => kv.2.core = c && kv.2.grp = g && kv.2.fenced && !(kv.2.left.isEmpty && opPerformed s kv.1))

/-- XFENCE: the group's earlier global accesses are performed before its later ones, at the scope SUB names (R92). -/
def execXfence (t : Th) (s : State) : Out :=
  .next (issue s t (xSub t ≤ 2 && rkind (xData t) ≠ .reserved && rkind (xIdx t) ≠ .reserved) [usesPred t] (fun g =>
    let s := if execMask g t = 0 then s else
      { s with ops := s.ops.map (fun kv : Nat × ThreadOp =>
          if kv.2.core = t.core && kv.2.grp = t.grp then (kv.1, { kv.2 with fenced := true }) else kv) }
    retire s t.core t.grp { g with pc := nextPc g }))

/-- The lowest address touched in each 4 KiB page, in the order the pages are first touched. -/
def pagesOf (l : List Nat) : List Nat :=
  l.foldl (fun acc a =>
    if acc.any (fun x => x / 4096 = a / 4096) then acc.map (fun x => if x / 4096 = a / 4096 then min x a else x)
    else acc ++ [a]) []

/-- Begins a global access (R75, R292): the lanes' addresses are checked, and its tile enters translation while the group
stalls at the instruction. -/
def globalAccess (s : State) (t : Th) (kind : ThreadKind) (legal : Bool) (n : Nat) : State :=
  let size := sizeBytes (xSize t)
  if fenceHolds s t.core t.grp && legal then s else
  issue s t legal (xUses t n) (fun g =>
    let m := execMask g t
    if m = 0 then retire s t.core t.grp { g with pc := nextPc g } else
    match batchOf s t.core with
    | none => s
    | some b =>
      let kn := kernel s b.kernel
      let addrs := xAddrs g t (xLanes t m)
      match addrFault size (fun a => decide (2 ^ 49 ≤ a)) errAddressRange addrs with
      | some (code, lanes) =>
        let a := ((addrs.filter (fun x => lanes.contains x.1)).head?.map Prod.snd).getD 0
        threadFault s t.core t.grp code (if xUniform t then m else laneMask lanes) (BitVec.ofNat 64 a)
      | none =>
        let wide := if kind = .atomic then sizeRegs (xSize t) else 0
        let accs := addrs.map (fun x => LaneAcc.mk x.1 x.2 (dataBytes g x.1 (xData t) 0 size)
          (if kind = .atomic then dataBytes g x.1 (xData t) wide size else []))
        let (id, s) := fresh s
        let op : ThreadOp := ⟨kind, t.core, t.grp, b.kernel, b.index, xData t, xSize t, xSx t, xSub t, g.pc, accs,
          addrs.map Prod.fst, false, false, s.now, 0⟩
        let s := { s with ops := mput s.ops id op }
        let rights := match kind with
          | .load => 1
          | .store => 2
          | _ => 4
        let (tid, s) := newTile s ⟨.thread id, kn.space, kn.inst, kn.slot, dieOfCore s t.core, t.core, rights,
          kn.lb.mode % 8, t.core, pagesOf (addrs.map Prod.snd), [], [], [], false, false⟩
        setGroup s t.core t.grp { g with wait := .tile tid })

/-- XLDG: a load from device virtual memory (R89). -/
def execXldg (t : Th) (s : State) : Out := .next (globalAccess s t .load (xLegal t true) (sizeRegs (xSize t)))

/-- XSTG: a store to device virtual memory (R89). -/
def execXstg (t : Th) (s : State) : Out := .next (globalAccess s t .store (xLegal t false) (sizeRegs (xSize t)))

/-- XATOMG: an atomic on device virtual memory, performed at the memory-side buffer (R91). -/
def execXatomg (t : Th) (s : State) : Out :=
  .next (globalAccess s t .atomic (atomLegal t true) (sizeRegs (xSize t) * (if xSub t = 4 then 2 else 1)))

/-! ## Issue of a translated tile (R292, R547) -/

/-- The translation a tile holds for an address. -/
def tileXlat (t : Tile) (va : Nat) : Xlat := (t.held.find? (fun x => x.covers va)).getD ⟨0, 0, 0, 0, 0⟩

/-- The world of a context slot. -/
def worldOf (s : State) (slot : Nat) : Nat := (mget SlotInfo.empty s.slots slot).world

/-- Where each address of a tile leads, when its requests leave now. -/
def tilePlaces (s : State) (t : Tile) (l : List Nat) : List (Nat × Place) :=
  l.map (fun va => (va, resolve s t.inst (worldOf s t.slot) (tileXlat t va) va))

/-- Stalls a tile some of whose locations are refused at issue: a record for each leaf's page, and one count for each refused
translation (R355, R547). -/
def refuseTile (s : State) (tid : Nat) (t : Tile) (ps : List (Nat × Place)) : State :=
  let fs := ps.filterMap (fun p => match p.2 with
    | .refused reason =>
      let x := tileXlat t p.1
      some (TileFault.mk (if x.size = 2 ^ 30 then 2 else if x.size = 2 ^ 21 then 1 else 0) reason x.va x.size p.1)
    | _ => none)
  let refused := ps.foldl (fun (acc : List (Xlat × Nat × Nat)) p => match p.2 with
    | .refused reason => if acc.any (fun q => decide (q.1 = tileXlat t p.1)) then acc else acc ++ [(tileXlat t p.1, p.1, reason)]
    | _ => acc) []
  let s := refused.foldl (fun s r => countRefusal s t.inst r.1 r.2.1 r.2.2) s
  stallTile s tid { t with held := [], faults := fs }

/-- Is any location refused? -/
def anyRefused (ps : List (Nat × Place)) : Bool :=
  ps.any (fun p => match p.2 with
    | .refused _ => true
    | _ => false)

/-- Is any a page whose memory key is bad? -/
def anyKeyBad (ps : List (Nat × Place)) : Bool := ps.any (fun p => p.2 = .keyBad)

/-- Does any lead to the host? -/
def anyHost (ps : List (Nat × Place)) : Bool :=
  ps.any (fun p => match p.2 with
    | .at _ dst _ => dst = 2
    | _ => false)

/-- Ends a thread's tile and operation with a fault of its kernel, at the instruction, in the lanes that meet a test. -/
def failLanes (s : State) (tid op code : Nat) (p : LaneAcc → Bool) : State :=
  match mfind s.ops op with
  | none => dropTile s tid
  | some o =>
    let s := { dropTile s tid with ops := mdel s.ops op }
    let l := o.lanes.filter p
    let lanes := laneMask (l.map LaneAcc.lane)
    let va := ((l.head?).map LaneAcc.va).getD 0
    let s := match groupOf s o.core o.grp with
      | some g => setGroup s o.core o.grp { g with wait := .ready }
      | none => s
    threadFault s o.core o.grp code lanes (BitVec.ofNat 64 va)

/-- Ends a thread's tile and operation with a fault in all its lanes. -/
def failOp (s : State) (tid op code : Nat) : State := failLanes s tid op code (fun _ => true)

/-- Issues the requests of a thread's tile: the stall ends, and the group goes on to its next instruction (R75). -/
def issueOp (s : State) (tid op : Nat) (t : Tile) (o : ThreadOp) (ps : List (Nat × Place)) : State :=
  let world := worldOf s t.slot
  let send (s : State) (a : LaneAcc) : State :=
    match (ps.find? (fun p => p.1 = a.va)).map Prod.snd with
    | some (.at g dst hint) =>
      let size := sizeBytes o.size
      let rop := match o.kind with
        | .load => ReqOp.read
        | .store => ReqOp.write
        | _ => ReqOp.atomic o.sub size o.sx (opReturns o)
      let r := { MemReq.make rop (.thread op a.lane) g size a.data t.label hint t.inst t.space t.master t.die (world = 1) with
        epoch := epochOf s t.inst, data2 := a.data2 }
      (sendReq s r dst).2
    | _ => s
  let s := o.lanes.foldl send { s with ops := mput s.ops op { o with left := [] } }
  let s := dropTile s tid
  let s := match groupOf s o.core o.grp with
    | none => s
    | some g =>
      let n := sizeRegs o.size
      let pend := if opReturns o then g.pend ++ (dataRegs o.data n).map (fun r => (op, r)) else g.pend
      retire s o.core o.grp { g with wait := .ready, pc := nextPc g, pend := pend }
  settleOp s op

/-- Is the batch of a core still running, not stopping? -/
def batchRuns (s : State) (c : Nat) : Bool :=
  match batchOf s c with
  | some b => b.why = .running
  | none => false

/-- TILE_TRANSLATED: every page of a thread's or instruction line's tile is translated, and it issues, ending the stall
(R292, R545); a location refused now stalls it afresh (R547), an atomic on host memory faults (R91), and a bad memory key
ends the kernel (R461). -/
def execTileTranslated (tid : Nat) (s : State) : Out :=
  .next (match mfind s.tiles tid with
    | none => s
    | some t =>
      if !tileReady t then s else
      match t.owner with
      | .thread op => match mfind s.ops op with
        | none => dropTile s tid
        | some o =>
          if !batchRuns s o.core || issueStopped s o.core then s else
          let ps := tilePlaces s t (o.lanes.map LaneAcc.va)
          if anyRefused ps then refuseTile s tid t ps
          else if anyKeyBad ps then failOp s tid op errKeyBad
          else if o.kind = .atomic && anyHost ps then
            failLanes s tid op errAtomicTarget (fun a => anyHost (ps.filter (fun p => p.1 = a.va)))
          else issueOp s tid op t o ps
      | .fetch c line =>
        if !batchRuns s c then s else
        let ps := tilePlaces s t [line]
        if anyRefused ps then refuseTile s tid t ps else
        match ps with
        | [(_, .at g dst hint)] =>
          let r := { MemReq.make .read (.fetch c line) g 256 [] t.label hint t.inst t.space t.master t.die
            (worldOf s t.slot = 1) with epoch := epochOf s t.inst }
          dropTile (sendReq s r dst).2 tid
        | _ =>
          let r := { MemReq.make .read (.fetch c line) 0 256 [] t.label 0 t.inst t.space t.master t.die false with
            stage := .done, err := errKeyBad }
          let (id, s) := fresh s
          dropTile (setReq s id r) tid
      | _ => s)

/-! ## Returns (R76, R100, R248, R251) -/

/-- The requests of a thread operation. -/
def reqsOfOp (s : State) (op : Nat) : List (Nat × MemReq) :=
  s.reqs.filter (fun kv => match kv.2.owner with
    | .thread o _ => o = op
    | _ => false)

/-- The lane of a thread's request. -/
def laneOfReq (r : MemReq) : Nat :=
  match r.owner with
  | .thread _ l => l
  | _ => 0

/-- A finished request's data, poison and error. -/
def reqEnd (s : State) (r : MemReq) : Option (List Byte × Nat × Nat) :=
  if r.err ≠ 0 then some ([], 0, r.err) else (readBack s r).map (fun d => (d.1, d.2, 0))

/-- Writes the returned lanes of a load or atomic; clean lanes are written, and an error or poison in any lane faults. -/
def returnLanes (s : State) (op : Nat) (o : ThreadOp) (rs : List (Nat × (List Byte × Nat × Nat))) : State :=
  let s := { s with ops := mdel s.ops op }
  match groupOf s o.core o.grp with
  | none => s
  | some g =>
    let sx := o.sx && o.kind = .load
    let good := rs.filter (fun x => x.2.2.1 = 0 && x.2.2.2 = 0)
    let badL := rs.filter (fun x => !(x.2.2.1 = 0 && x.2.2.2 = 0))
    let discard := match batchOf s o.core with
      | some b => b.why = StopWhy.fault || b.why = StopWhy.teardown || b.why = StopWhy.reset
      | none => true
    let g' := if discard then g else good.foldl (fun (g : Group) (x : Nat × (List Byte × Nat × Nat)) => writeData g o.data o.size sx x.1 x.2.1) g
    let s := setGroup s o.core o.grp { g' with pend := g'.pend.filter (fun p => p.1 ≠ op) }
    match badL with
    | [] => s
    | x :: _ =>
      let low := badL.foldl (fun b y => if y.1 < b.1 then y else b) x
      let code := if low.2.2.2 ≠ 0 then low.2.2.2 else errDataPoison
      let va := ((o.lanes.find? (fun a => a.lane = low.1)).map LaneAcc.va).getD 0
      coreFault s o.core { groupFault s o.core o.grp code (laneMask (badL.map Prod.fst)) low.1 (BitVec.ofNat 64 va) with
        pc := o.pc }

/-- LOAD_DATA_RETURN: the data of a global load, a value-returning atomic or a Silk READ returns and is written to its
registers, or raises DATA_POISON or the error that ended it (R76, R100, R248, R254). What comes for a core whose clock is stopped
waits at its router, a Silk release too (R257, R488). -/
def execLoadDataReturn (op : Nat) (s : State) : Out :=
  .next (match mfind s.ops op with
    | none => s
    | some o =>
      if o.kind = .silkRead then
        match mfind s.silkReplies op with
        | none => s
        | some r =>
          if asleep s o.core then s else
          let s := { s with silkReplies := mdel s.silkReplies op, ops := mdel s.ops op }
          if r.instar ≠ instarOf s (.core o.core) then countStale s (.core o.core) else
          let s := silkLate s r.sent silkReadBound (masterCore o.core) (kernel s o.kernel).inst
          match groupOf s o.core o.grp with
          | none => s
          | some g =>
            let g' := if rkind o.data = .a then wrA g (o.data - 0x60) r.value
              else { g with uregs := mset 0 g.uregs (o.data - 0x40) (BitVec.setWidth 32 r.value) }
            setGroup s o.core o.grp { g' with pend := g'.pend.filter (fun p => p.1 ≠ op) }
      else if isSilkWait o then
        match mfind s.silkReplies op with
        | none => s
        | some r =>
          if asleep s o.core then s
          else if r.instar ≠ instarOf s (.core o.core) then countStale { s with silkReplies := mdel s.silkReplies op } (.core o.core)
          else silkWake { s with silkReplies := mdel s.silkReplies op } o.core o.grp op
      else if !opReturns o || !o.left.isEmpty || asleep s o.core then s else
        let rs := reqsOfOp s op
        if rs.all (fun kv => (reqEnd s kv.2).isSome) then
          let ends := rs.map (fun kv => (laneOfReq kv.2, (reqEnd s kv.2).getD ([], 0, 0)))
          let s := rs.foldl (fun s kv =>
            countPoison (readMiss (dropReq s kv.1) kv.2) (((reqEnd s kv.2).getD ([], 0, 0)).2.1)) s
          returnLanes s op o ends
        else s)

/-! ## Instruction lines (R545) -/

/-- IFETCH_LINE: a running group's next instruction lies in a line of the code range that the cache does not hold and no
fetch is bringing; the core fetches it, as a tile of its own (R545). -/
def execIfetchLine (c g : Nat) (s : State) : Out :=
  .next (match readyGroup s c g with
    | none => s
    | some gr =>
      let kn := kernelOn s c
      let line := lineOf gr.pc
      let busy := s.tiles.any (fun kv => kv.2.owner = .fetch c line) || s.reqs.any (fun kv => kv.2.owner = .fetch c line)
      if !inCode kn.lb gr.pc || (core s c).icache.contains line || busy then s
      else (newTile s ⟨.fetch c line, kn.space, kn.inst, kn.slot, dieOfCore s c, c, 1, kn.lb.mode % 8, c, [line], [], [],
        [], false, false⟩).2)

/-- Stops the kernel of a core at the first instruction of a line that a group would issue. -/
def lineFault (s : State) (c line code : Nat) : State :=
  match batchOf s c with
  | none => s
  | some b =>
    match b.groups.find? (fun kv => !kv.2.ended && lineOf kv.2.pc = line) with
    | some (g, gr) => threadFault s c g code gr.active gr.pc
    | none => s

/-- IFETCH_LINE_RETURN: a fetched line enters the cache, or, poisoned or ended with an error, stops the kernel (R545). -/
def execIfetchLineReturn (c line : Nat) (s : State) : Out :=
  .next (if asleep s c then s else match s.reqs.find? (fun kv => kv.2.owner = .fetch c line) with
    | none => s
    | some (id, r) => match reqEnd s r with
      | none => s
      | some (_, bad, err) =>
        let s := countPoison (readMiss (dropReq s id) r) bad
        if err ≠ 0 then lineFault s c line err
        else if bad ≠ 0 then lineFault s c line errDataPoison
        else modCore s c (fun k => { k with icache := if k.icache.contains line then k.icache else k.icache ++ [line] }))

end Sys2Proof.Machine
end

