-- ==== Sys2Proof/Machine/Kernel.lean ====
section
/-!
DEFINITION. Batches and kernels (R66 to R68, R72 to R74, R100 to R104, R390, R393, R546): dealing, starting, ending, saving and
restoring batches, and the stop of a kernel after a fault.
-/

namespace Sys2Proof.Machine

/-! ## Waking (R257, R493) -/

/-- A wake event for a wing. -/
def wakeWing (s : State) (w : Nat) : State :=
  if getF s f_THM_WING_STATE w = 1 then setF s f_THM_WING_STATE w 0
  else if getF s f_THM_WING_STATE w = 2 then setF s f_THM_WING_STATE w 3 else s

/-- A wake event for a core: an entry in progress is abandoned; a core in diapause begins to wake, at 800 MHz, its wing
first (R493). Its clock stays stopped during a coolant stop (R490). -/
def wakeCore (s : State) (c : Nat) : State :=
  let d := getF s f_THM_CORE_AGE_DSTATE c
  let run (n : Nat) : Nat := if flagF s f_PWR_STATUS_COOLANT_STOP then 0 else n
  if d = 1 then retimeCore (setF s f_THM_CORE_AGE_DSTATE c 0) c (run (getF s f_PWR_CORE_FREQ_STEPS c))
  else if d = 2 then
    let s := wakeWing s (wingOf s c)
    retimeCore (setF (setF s f_PWR_CORE_FREQ_STEPS c 64) f_THM_CORE_AGE_DSTATE c 3) c (run 64)
  else s

/-! ## The Imago and its holder (R388) -/

/-- Is a core bound to an Imago, and not leaving it? -/
def coreBound (s : State) (i c : Nat) : Bool := getF s f_CMP_CORE_STATE c = 1 && getF s f_CMP_CORE_INSTANCE c = i

/-- The cores of an Imago that hold no batch, ascending. -/
def freeCores (s : State) (i : Nat) : List Nat :=
  (List.range 144).filter (fun c => coreBound s i c && (batchOf s c).isNone)

/-- The space of the holder of an Imago. -/
def holderOf (s : State) (i : Nat) : Option Nat :=
  if i < 32 && flagF s f_SCH_IMG_VALID i then
    let k := getF s f_SCH_IMG_HOLDER i
    if slotState s k = slotHolder then some (mget SlotInfo.empty s.slots k).space else none
  else none

/-- The cores that run batches of a context. -/
def coresOf (s : State) (space : Nat) : List Nat :=
  (s.cores.filter (fun kv => match kv.2.batch with
    | some b => (kernel s b.kernel).space = space
    | none => false)).map Prod.fst

/-- A context's batches running or saved (R366). -/
def framesUsed (s : State) (space : Nat) : Nat :=
  (coresOf s space).length + (((ctxOf s space).map (fun c => c.saved.length)).getD 0)

/-- The groups of a kernel's grid. -/
def Launch.groups (l : Launch) : Nat := l.gridX * l.gridY * l.gridZ

/-- The groups of a batch (R66). -/
def Launch.batchSize (l : Launch) (b : Nat) : Nat := min l.batchGroups (l.groups - b * l.batchGroups)

/-- Bytes that saving a batch writes (R366). -/
def spillBytes (l : Launch) (ngroups : Nat) : Nat := 589824 + 9984 * ngroups + scrLimit l

/-- Does an event queue's hold have room for a record that is never dropped (R401)? -/
def evRoom (s : State) (win : Nat) : Bool := (mget [] s.evHeld win).length < 1024

/-! ## Dealing and starting (R72 to R74, R390) -/

/-- The reservation of R73 that a batch would find on a core. -/
def regionMatch (k : Core) (space : Nat) (l : Launch) (index : Nat) : Bool :=
  match k.region with
  | some t => l.regionId ≠ 0 && t.space = space && t.region = l.regionId && t.batch = index && t.scrPages = l.scrPages
  | none => false

/-- The core a batch goes to (R390): the one with its named reservation, else the lowest free awake core, else the lowest
free core in diapause. -/
def chooseCore (s : State) (i space : Nat) (l : Launch) (index : Nat) : Option Nat :=
  let free := freeCores s i
  match free.find? (fun c => regionMatch (core s c) space l index) with
  | some c => some c
  | none => match free.find? (fun c => !asleep s c) with
    | some c => some c
    | none => free.head?

/-- The kernel of a context whose batch is dealt next: the earliest started with a batch not yet placed. -/
def nextKernel (s : State) (space : Nat) : Option (Nat × Kernel) :=
  s.kernels.find? (fun kv => kv.2.space = space && kv.2.live && kv.2.stopAt.isNone && decide (kv.2.nextBatch < kv.2.nbatch))

/-- BATCH_DEAL: the next batch of the holder of an Imago is placed on a core; saved batches go first, by BATCH_RESTORE
(R390). -/
def execBatchDeal (i : Nat) (s : State) : Out :=
  .next (match holderOf s i with
    | none => s
    | some space => match ctxOf s space, nextKernel s space with
      | some c, some (kid, k) =>
        if computeHeld s || !c.saved.isEmpty || c.down.isSome || c.frames ≤ framesUsed s space then s else
        match chooseCore s i space k.lb k.nextBatch with
        | none => s
        | some n =>
          let b : Batch := ⟨kid, k.nextBatch, k.lb.batchSize k.nextBatch, [], false, false, .running, 0, s.now, []⟩
          let s := modKernel s kid (fun k => { k with nextBatch := k.nextBatch + 1 })
          wakeCore (setBatch s n (some b)) n
      | _, _ => s)

/-- A group at the start of its batch (R69). -/
def Group.initial (l : Launch) (batch g : Nat) : Group :=
  let lin := batch * l.batchGroups + g
  { Group.empty with
    lin := lin, ended := false
    uregs := mset 0 (mset 0 [] 0 (BitVec.ofNat 32 lin)) 1 (BitVec.ofNat 32 g)
    aregs := mset 0 [] 0 (BitVec.ofNat 64 l.argVa)
    pc := BitVec.ofNat 64 l.codeVa }

/-- Is a core's reservation pinned by a running dispatch, of which it is a source core (R161)? -/
def pinned (s : State) (c : Nat) : Bool :=
  s.gates.any (fun kv => match kv.2.run with
    | some r => r.err = 0 && (List.range ((r.job.block.getD 0x1B 0).toNat)).any (fun i =>
        (r.job.block.getD (0xB8 + 4 * i) 0).toNat = c)
    | none => false)

/-- Zeroes the accumulator tiles of a core. -/
def zeroAcc (s : State) (c : Nat) : State := modCore s c (fun k => { k with tacc := [], taccBad := [] })

/-- Does a landing slot hold pages of a core's scratchpad? -/
def slotsHeld (s : State) (c : Nat) : Bool := s.landing.any (fun kv => kv.2.core = c && holding kv.2)

/-- BATCH_START: on an awake core, after the zeroing of R74, a placed batch's groups receive their slots and begin. A batch
that does not find its reservation evicts the core's, once its landing slots are squashed (R73, R186). -/
def execBatchStart (c : Nat) (s : State) : Out :=
  .next (match batchOf s c with
    | none => s
    | some b =>
      if b.started || b.why ≠ .running || asleep s c then s else
      let k := kernel s b.kernel
      let l := k.lb
      let here := core s c
      let other := here.lastCtx ≠ some k.space
      let res := regionMatch here k.space l b.index && !other
      if !res && pinned s c then s
      else if !res && slotsHeld s c then doomIf s (fun v => v.core = c)
      else
      let s := if bitAt l.mode 4 || other then zeroAcc s c else s
      let s := if other then zeroScr s c 0 0xA00000 else if bitAt l.mode 5 && !res then zeroScr s c 0 (scrLimit l) else s
      let groups := (List.range b.ngroups).map (fun g => (g, Group.initial l b.index g))
      let s := { s with movers := mput s.movers c { mover s c with credits := [] } }
      modCore s c (fun v => { v with
        batch := some { b with started := true, resident := res, groups := groups, progress := s.now }
        m := Matrix.empty
        icache := if v.icacheKernel = some b.kernel then v.icache else []
        icacheKernel := some b.kernel
        lastCtx := some k.space
        region := if l.regionId = 0 then none else some ⟨k.slot, k.space, l.regionId, b.index, l.scrPages, b.kernel⟩
        resvPages := l.specPages, resvScr := l.scrPages, resvRegion := l.regionId }))

/-! ## What a batch has outstanding -/

/-- The thread operations of a core. -/
def opsOn (s : State) (c : Nat) : List (Nat × ThreadOp) := s.ops.filter (fun kv => kv.2.core = c)

/-- The tile of a thread operation that has not issued. -/
def opTile (s : State) (op : Nat) : Option Nat := (s.tiles.find? (fun kv => kv.2.owner = .thread op)).map Prod.fst

/-- Has every access that a core's groups issued completed, but for waits and for instructions stalled in translation? -/
def threadsDrained (s : State) (c : Nat) : Bool := (opsOn s c).all (fun kv => isSilkWait kv.2 || (opTile s kv.1).isSome)

/-- Has every M instruction that has begun come to its end (R104, R131)? -/
def matrixDrained (s : State) (c : Nat) : Bool :=
  let m := (core s c).m
  (m.load ++ m.stream ++ m.drain).all (fun i => !i.begun)

/-- Was a descriptor queued by XMOV? -/
def isXmov (d : Desc) : Bool :=
  match d.owner with
  | .xmov _ _ => true
  | _ => false

/-- Is a channel's front descriptor in Waiting: a burst is next, PACED, and its line is zero (R215)? -/
def chanWaits (s : State) (u k : Nat) : Bool :=
  let c := chan s u k
  let pace := (((c.queue.head?.map Desc.bytes).getD []).getD 6 0).toNat
  c.state = .ready && (c.row, c.ofs) ≠ c.lim && bitAt pace 4 && c.cnt = 0 && !c.paid && credit s u (pace % 16) = 0

/-- Is it in Stalled (R215)? -/
def chanStalled (s : State) (c : Chan) : Bool :=
  match c.tile with
  | some t => ((mfind s.tiles t).map Tile.stalled).getD false
  | none => false

/-- Is it stalled with nothing under way: its bursts that have started have all that they read, and wait for the replay (R547)? -/
def chanParked (s : State) (c : Chan) : Bool :=
  chanStalled s c && c.bursts.all (fun b => !b.delivered && b.held.isEmpty && b.reads.all (fun r =>
    ((mfind s.reqs r.1).map (fun q => decide (q.stage = .done || q.err ≠ 0))).getD true))

/-- Has every descriptor of a core's mover that has begun come to its end? A save leaves one that waits for a credit or is
stalled where it stands (R222). -/
def moverDrained (s : State) (u : Nat) (save : Bool) : Bool :=
  (mover s u).chans.all (fun kv =>
    match kv.2.queue.head? with
    | some d => !isXmov d || (kv.2.bursts.isEmpty && !kv.2.begun)
      || (save && ((kv.2.bursts.isEmpty && chanWaits s u kv.1) || chanParked s kv.2))
    | none => true)

/-- Has everything a stopping batch issued or began completed (R101, R104)? -/
def batchDrained (s : State) (c : Nat) (save : Bool) : Bool :=
  threadsDrained s c && matrixDrained s c && moverDrained s c save

/-- Removes a core's XMOV descriptors that have not begun, or all of them. -/
def dropXmov (s : State) (c : Nat) : State :=
  { s with movers := mput s.movers c { mover s c with
      chans := (mover s c).chans.map (fun kv : Nat × Chan =>
        if ((kv.2.queue.head?).map isXmov).getD false then
          (kv.1, { Chan.empty with queue := kv.2.queue.filter (fun d => !isXmov d), newUse := kv.2.newUse })
        else (kv.1, { kv.2 with queue := kv.2.queue.filter (fun d => !isXmov d) })) } }

/-- Does an XMOV descriptor stand at the front of a channel of a core's mover? -/
def xmovFront (s : State) (c k : Nat) : Bool := ((chan s c k).queue.head?.map isXmov) = some true

/-- Does a tile belong to a core's threads or to what they queued on its mover? -/
def tileOn (s : State) (c : Nat) (t : Tile) : Bool :=
  match t.owner with
  | .thread op => (opsOn s c).any (fun kv => kv.1 = op)
  | .fetch n _ => n = c
  | .mover u k => u = c && xmovFront s c k
  | _ => false

/-- Does a request belong to a core's threads or to what they queued on its mover? -/
def reqOn (s : State) (c : Nat) (r : MemReq) : Bool :=
  match r.owner with
  | .thread op _ => (opsOn s c).any (fun kv => kv.1 = op)
  | .fetch n _ => n = c
  | .moverRead u k => u = c && xmovFront s c k
  | .moverWrite u k => u = c && xmovFront s c k
  | _ => false

/-- Drops the tiles that meet a test; walks no longer answer them. -/
def dropTiles (s : State) (p : Tile → Bool) : State :=
  (s.tiles.filter (fun kv => p kv.2)).foldl (fun s kv => dropTile s kv.1) s

/-- Frees a core of its batch: what the batch had on it is gone; the scratchpad and accumulators keep their contents. -/
def clearCore (s : State) (c : Nat) : State :=
  let mine := (opsOn s c).map Prod.fst
  let s := dropTiles s (tileOn s c)
  let s := forgetReqs s (fun _ r => reqOn s c r)
  let s := { s with
    ops := s.ops.filter (fun kv => kv.2.core ≠ c)
    silkWaiters := s.silkWaiters.filter (fun w => match w.src with
      | .group _ _ op => !mine.contains op
      | _ => true)
    silkReplies := s.silkReplies.filter (fun kv => !mine.contains kv.1) }
  modCore (dropXmov s c) c (fun k => { k with batch := none, m := Matrix.empty, idleSince := s.now })

/-! ## The end of a batch and of a kernel (R68) -/

/-- Ends a kernel's command (R68, R101, R385). -/
def endKernel (s : State) (kid code : Nat) : State :=
  let k := kernel s kid
  let s := endCmd (modCmd s k.cmd (fun c => { c with flags := c.flags ||| k.flagSum, count := k.ended })) k.cmd code
  { s with kernels := mdel s.kernels kid }

/-- Has a batch ended: all its groups have, and all they issued has completed (R68)? -/
def batchOver (s : State) (c : Nat) (b : Batch) : Bool :=
  let m := (core s c).m
  b.started && b.groups.all (fun kv => kv.2.ended) && (opsOn s c).isEmpty && m.load.isEmpty && m.stream.isEmpty && m.drain.isEmpty
    && (mover s c).chans.all (fun kv => !kv.2.queue.any isXmov)

/-- Raises the faults that a batch holds for its resumption (R103). They keep the tick and the core of their detection, which is the
model's reading (log entry 59). -/
def raiseHeld (s : State) (kid : Nat) (l : List FaultInfo) : State := l.foldl (fun s f => noteFault s kid f) s

/-- BATCH_END: the batch's groups have ended and all they issued has completed; its core is free, and the kernel completes
with its last batch (R67, R68). A preempted batch that ends so raises the faults it held. -/
def execBatchEnd (c : Nat) (s : State) : Out :=
  .next (match batchOf s c with
    | none => s
    | some b =>
      if !batchOver s c b || !(b.why = .running || b.why = .preempt) then s
      else if !b.deferred.isEmpty then
        raiseHeld (setBatch s c (some { b with why := .running, deferred := [] })) b.kernel b.deferred
      else
      let s := modKernel (clearCore s c) b.kernel (fun k => { k with ended := k.ended + 1 })
      let k := kernel s b.kernel
      if k.ended = k.nbatch && k.stopAt.isNone then endKernel s b.kernel 0 else s)

/-! ## Aborts (R101, R394, R395) -/

/-- The pieces of a write that lie in one aligned 64-bit word each. -/
def wordPieces (a n : Nat) : List (Nat × Nat) :=
  (List.range ((a % 8 + n + 7) / 8)).map (fun i =>
    let lo := max a ((a / 8 + i) * 8)
    (lo, min (a + n) ((a / 8 + i + 1) * 8) - lo))

/-- Aborts an issued write: each aligned 64-bit word is performed or discarded whole, and the spec does not say which
(R395, log entry 5). -/
def abortWrite (s : State) (r : MemReq) : State :=
  (wordPieces r.gpa r.data.length).foldl (fun s p =>
    let v := freeVal s 1
    if v.1 = 0 then v.2 else
    let a := forwarded v.2 (gpaLocal p.1)
    lineWrite v.2 (a / 256) (a % 256) (Nat.land r.poison (touchedMask (a % 256) p.2)) r.hint
      ((r.data.drop (p.1 - r.gpa)).take p.2)) s

/-- Aborts a request: read data is discarded; a write still on its way in this chip is performed or discarded word by word;
what went to another chip is answered to no one. -/
def abortReq (s : State) (id : Nat) : State :=
  match mfind s.reqs id with
  | none => s
  | some r =>
    let s := dropReq s id
    if isWrite r && (r.stage = .sent || r.stage = .hbm) && gpaChip r.gpa = chipId s && gpaLocal r.gpa < hbmTop
    then abortWrite s r else s

/-- Aborts the requests that meet a test; answers how many. -/
def abortReqs (s : State) (p : MemReq → Bool) : Nat × State :=
  let l := s.reqs.filter (fun kv => p kv.2)
  (l.length, l.foldl (fun s kv => abortReq s kv.1) s)

/-- Aborts what a core's batch has outstanding, so that it has drained. -/
def abortCore (s : State) (c : Nat) : Nat × State :=
  let (n, s) := abortReqs s (reqOn s c)
  let s := dropTiles s (tileOn s c)
  let s := { s with ops := s.ops.filter (fun kv => kv.2.core ≠ c) }
  (n, modCore (dropXmov s c) c (fun k => { k with m := Matrix.empty }))

/-! ## The stop of a kernel (R101 to R103) -/

/-- The cores that run batches of a kernel. -/
def coresRunning (s : State) (kid : Nat) : List Nat :=
  (s.cores.filter (fun kv => match kv.2.batch with
    | some b => b.kernel = kid
    | none => false)).map Prod.fst

/-- The KERNEL_FAULT record (R399). -/
def kernelFaultRecord (k : Kernel) (f : FaultInfo) : List Byte :=
  let l := k.lb
  let x := if l.gridX = 0 then 0 else f.lin % l.gridX
  let y := if l.gridX = 0 || l.gridY = 0 then 0 else f.lin / l.gridX % l.gridY
  let z := if l.gridX = 0 || l.gridY = 0 then 0 else f.lin / l.gridX / l.gridY
  let ch := match f.chan with
    | some c => c % 8 + 8
    | none => 0
  leBytes 1 0x10 ++ leBytes 1 ch ++ leBytes 2 f.code ++ leBytes 4 k.space ++ leBytes 4 k.tag ++ leBytes 1 f.core ++ [0]
    ++ leBytes 2 k.others ++ leBytes 4 x ++ leBytes 2 y ++ leBytes 2 z ++ leBytes 4 f.batch ++ leBytes 4 f.lanes.toNat
    ++ leBytes 8 f.pc.toNat ++ leBytes 8 f.addr.toNat ++ leBytes 8 f.tick.toNat

/-- The cores with a reservation of a kernel's batches: those that run a started one, and those that keep its named one (R73). -/
def reservedCores (s : State) (kid : Nat) : List Nat :=
  (s.cores.filter (fun kv => (match kv.2.batch with
    | some b => b.kernel = kid && b.started
    | none => false) || (kv.2.region.map RegionTag.kernel) = some kid)).map Prod.fst

/-- Ends a stopped kernel: its cores are freed, the reservations of its batches invalidated, its saved batches dropped with the
faults they held counted, the fault record posted, and its command takes the error (R73, R101, R103). -/
def finishStop (s : State) (kid : Nat) (f : FaultInfo) : State :=
  let cs := reservedCores s kid
  let s := (coresRunning s kid).foldl clearCore s
  let s := cs.foldl (fun s c => modCore s c (fun v => { v with region := none, resvPages := 0 })) s
  let mine := (((ctxOf s (kernel s kid).space).map Ctx.saved).getD []).filter (fun v => v.kernel = kid)
  let s := modKernel s kid (fun k => { k with
    others := satAdd 16 k.others (mine.foldl (fun n v => n + v.batch.deferred.length) 0) })
  let k := kernel s kid
  let s := modCtx s k.space (fun c => { c with saved := c.saved.filter (fun v => v.kernel ≠ kid) })
  endKernel (postEvent s k.window (kernelFaultRecord k f)) kid f.code

/-- KERNEL_STOP_DRAIN_END: every batch of a stopped kernel has drained, and the landing slots in its reservations are squashed
(R101, R103, R186). The record waits for room (R401). -/
def execKernelStopDrainEnd (kid : Nat) (s : State) : Out :=
  .next (match mfind s.kernels kid with
    | none => s
    | some k => match k.fault with
      | none => s
      | some f =>
        let cs := reservedCores s kid
        if !(coresRunning s kid).all (fun c => batchDrained s c false) || cs.any (pinned s) || !evRoom s k.window then s
        else if cs.any (slotsHeld s) then doomIf s (fun v => cs.contains v.core)
        else finishStop s kid f)

/-- KERNEL_STOP_ABORT: 100 µs after the fault, what a stopped kernel's batches still have outstanding is aborted (R101,
R395). -/
def execKernelStopAbort (kid : Nat) (s : State) : Out :=
  .next (match (kernel s kid).stopAt with
    | none => s
    | some t =>
      if !due s t (100 * usTicks) then s
      else (coresRunning s kid).foldl (fun s c => (abortCore s c).2) s)

/-! ## Saving and restoring (R104, R131, R222, R366, R391, R393, R546) -/

/-- Must a core's batch be preempted: its context yields the Imago, or its core is leaving it (R342, R391)? -/
def mustYield (s : State) (c : Nat) (k : Kernel) : Bool :=
  slotState s k.slot = slotYielding || getF s f_CMP_CORE_STATE c = 2

/-- BATCH_PREEMPT: a batch whose context yields, or whose core leaves, stops at an instruction boundary; its landing slots
are squashed (R104, R186, R391). A batch already stopping is not changed (R546). -/
def execBatchPreempt (c : Nat) (s : State) : Out :=
  .next (match batchOf s c with
    | none => s
    | some b =>
      if b.why ≠ .running || !mustYield s c (kernel s b.kernel) then s
      else doomIf (setBatch s c (some { b with why := .preempt, stopAt := s.now })) (fun v => v.core = c))

/-- Is there a bulk channel for saves on a base die (R393)? -/
def spillChannel (s : State) (die : Nat) : Bool :=
  (List.range 128).any (fun n => getF s f_TMV_BCH_CFG_USE (128 * die + n) = 1)

/-- How many batches an Imago saves at once: the spill rate over a port's 368.6 GB/s, 46,080 units of 8 MB/s; any number
when the rate is 0 (R393). -/
def savesAtOnce (s : State) (i : Nat) : Nat :=
  let r := getF s f_QOS_IMG_SPILL_RATE_RATE i
  if r = 0 then 144 else (r + 46079) / 46080

/-- The lowest frame of a save area that holds no batch. -/
def freeFrame (c : Ctx) : Nat := ((List.range 144).find? (fun f => !c.saved.any (fun v => v.frame = f))).getD 0

/-- The 4 KiB pages of a frame that a batch's save writes (R366). -/
def framePages (va : Nat) (l : Launch) (ngroups : Nat) : List Nat :=
  (List.range ((589824 + 9984 * ngroups + 4095) / 4096)).map (fun p => va + 4096 * p)
    ++ (List.range (l.scrPages + l.specPages)).map (fun p => va + 0x300000 + 4096 * p)

/-- The address of a frame: frames are 13 MiB (R362). -/
def frameVa (c : Ctx) (f : Nat) : Nat := c.saveVa + f * 0xD00000

/-- Writes a frame's pages, for a core and an instance: their contents are private to the device, so to a reader they are free
(R366, log entry 5). -/
def writeFrame (s : State) (slot : SlotInfo) (c inst : Nat) (pages : List Nat) : State :=
  pages.foldl (fun s p =>
    let v := freeBytes s 4096
    (devWrite v.2 slot (spillQ c) inst p v.1).2) s

/-- Translates the pages of a frame: mapped, not mapped, or, none, not yet known. -/
def frameLook (s : State) (slot : SlotInfo) (c inst : Nat) (pages : List Nat) : Option Bool × State :=
  match devAccess s slot (spillQ c) inst (pages.map (fun p => (p, 1))) (fun s _ => (.ok [] 0, s)) with
  | (.ok _ _, s) => (some true, devEnd s (spillQ c) inst)
  | (.wait, s) => (none, s)
  | (_, s) => (some false, devEnd s (spillQ c) inst)

/-- The bytes of a save or restore pass the first channel for device work of the core's die: its cluster counts them, and the channel
one transfer (R224, R393). -/
def countSpill (s : State) (c n : Nat) (save : Bool) : State :=
  let die := dieOfCore s c
  match (List.range 128).find? (fun j => getF s f_TMV_BCH_CFG_USE (128 * die + j) = 1) with
  | none => s
  | some j => countR (countR s (if save then r_TMV_CLU_WR else r_TMV_CLU_RD) (4 * die + j / 32) n) r_TMV_BCH_DONE (128 * die + j) 1

/-- The detail of a fault of a whole batch (R102). -/
def batchFault (s : State) (c : Nat) (b : Batch) (code : Nat) : FaultInfo :=
  let g := ((mfind b.groups 0).getD Group.empty)
  ⟨code, s.now, c, 0, g.lin, b.index, 0, 0, g.pc, 0, none⟩

/-- A group as it is saved: an instruction stalled in translation is translated again on resumption (R301), and CSLEEP
keeps the clocks that remain (R104). -/
def saveGroup (clock : Nat) (g : Group) : Group :=
  match g.wait with
  | .tile _ => { g with wait := .ready }
  | .line _ => { g with wait := .ready }
  | .sleep u => { g with wait := .sleep (u - clock) }
  | _ => g

/-- Whose a stalled tile of a core becomes when the core's batch is saved: a thread's or a fetch's is a saved group's, a channel's
the saved channel's, while an XMOV descriptor stands at its front (R301). -/
def savedOwner (s : State) (c : Nat) (b : Batch) (o : TileOwner) : TileOwner :=
  match o with
  | .thread op => match mfind s.ops op with
    | some v => if v.core = c then .saved b.kernel b.index v.grp c (v.lanes.map (fun a => (a.lane, a.va))) else o
    | none => o
  | .fetch n line =>
    if n ≠ c then o else
    match b.groups.find? (fun kv => !kv.2.ended && lineOf kv.2.pc = line) with
    | some (g, _) => .saved b.kernel b.index g c []
    | none => o
  | .mover u k => if u = c && xmovFront s c k then .savedMover b.kernel b.index c k else o
  | _ => o

/-- The stalled tiles of a core stay on their tracker entries, for the saved batch (R301). -/
def saveTiles (s : State) (c : Nat) (b : Batch) : State :=
  { s with tiles := s.tiles.map (fun kv : Nat × Tile =>
      if kv.2.stalled then (kv.1, { kv.2 with owner := savedOwner s c b kv.2.owner }) else kv) }

/-- Sets where a saved or restored group's waits in CSILK are answered. -/
def moveWaits (s : State) (ops : List Nat) (c : Nat) : State :=
  let move (f : SilkFrom) : SilkFrom := match f with
    | .group n g op => if ops.contains op then .group c g op else .group n g op
    | x => x
  let i := if c = noCore then 0 else instarOf s (.core c)
  { s with
    silkWaiters := s.silkWaiters.map (fun w => if move w.src = w.src then w else { w with src := move w.src, instar := i })
    silkMsgs := s.silkMsgs.map (fun kv : Nat × SilkMsg => (kv.1, { kv.2 with src := move kv.2.src }))
    ops := s.ops.map (fun kv : Nat × ThreadOp => if ops.contains kv.1 then (kv.1, { kv.2 with core := c }) else kv) }

/-- The waits in CSILK of a core's groups. -/
def waitsOn (s : State) (c : Nat) : List Nat := ((opsOn s c).filter (fun kv => isSilkWait kv.2)).map Prod.fst

/-- The line on which a channel's front descriptor is paced, if it is (R214). -/
def Chan.pace (c : Chan) : Option Nat :=
  let b := (((c.queue.head?.map Desc.bytes).getD []).getD 6 0).toNat
  if bitAt b 4 then some (b % 16) else none

/-- A channel back at the first of its bursts that has started and not been delivered, with the credits that these bursts have
taken beyond the one that it keeps. -/
def Chan.rewind (c : Chan) : Chan × Nat :=
  match c.bursts.filter (fun b => !b.delivered && !b.pieces.isEmpty) with
  | [] => (c, 0)
  | b :: bs =>
    let p := b.pieces.headD ⟨c.row, c.ofs, 0⟩
    let bst := decide ((((c.queue.head?.map Desc.bytes).getD []).getD 0 0).toNat % 16 = 4)
    let cnt := if bst then p.ofs else (c.part.map Prod.snd).foldl (· + ·) 0
    let starts := b2n (cnt = 0) + ((b :: bs).dropLast.filter Burst.last).length
    let taken := if c.pace.isSome then starts + b2n c.paid else 0
    ({ c with row := p.row, ofs := p.ofs, cnt := cnt, nextBurst := c.nextBurst - starts, paid := decide (0 < taken) && decide (cnt = 0) },
      taken - b2n (cnt = 0))

/-- How far the front descriptor of a channel has come. A BST tile row whose index records are not read yet starts again with its
metadata, and a burst that has started and cannot be delivered starts again. -/
def Chan.prog (c : Chan) : Prog :=
  let r := c.rewind.1
  ⟨r.nextBurst, r.row, r.ofs, r.cnt, if c.stage = 2 then [] else c.list, c.hdr, c.rank, if c.stage = 2 then [] else c.idx, c.skip, c.flags,
    r.paid, c.spans, c.before, c.part⟩

/-- A mover's credit lines with those credits given back that bursts which start again have taken. -/
def creditsBack (m : Mover) : SMap Nat :=
  m.chans.foldl (fun l kv => match kv.2.pace with
    | some n => mset 0 l n (min 0xFFFF (mget 0 l n + kv.2.rewind.2))
    | none => l) m.credits

/-- A mover's channels as they are saved: a descriptor that waits or is stalled keeps how far it has come, and is checked again on
resumption (R222). -/
def saveMover (m : Mover) : Mover :=
  { m with credits := creditsBack m, chans := (m.chans.map (fun kv : Nat × Chan =>
      let mine := kv.2.queue.filter isXmov
      let queue := match kv.2.queue with
        | d :: _ => if isXmov d && kv.2.state ≠ .idle then { d with prog := some kv.2.prog } :: mine.drop 1 else mine
        | [] => []
      (kv.1, { Chan.empty with queue := queue }))).filter (fun kv => !kv.2.queue.isEmpty) }

/-- Puts saved channels on a core's mover: their descriptors go behind those of a Gate unit that it holds (R196, R222). -/
def restoreMover (s : State) (c : Nat) (m : Mover) : State :=
  let s := { s with movers := mput s.movers c { mover s c with credits := m.credits } }
  m.chans.foldl (fun s kv => setChan s c kv.1 { chan s c kv.1 with queue := (chan s c kv.1).queue ++ kv.2.queue }) s

/-- BATCH_SAVE_COMPLETE: a preempted batch that has drained is saved to a frame of its context's save area, in ascending
order of core, and its core is free; a page that is not mapped stops its kernel with SAVE_FAULT (R366, R387, R393). Of a batch
that has not started only its place is kept, and the core's contents stay (R104). -/
def execBatchSaveComplete (c : Nat) (s : State) : Out :=
  .next (match batchOf s c with
    | none => s
    | some b =>
      let k := kernel s b.kernel
      let before := ((coresOf s k.space).filter (fun n => decide (n < c)
        && ((batchOf s n).map Batch.why) = some .preempt)).length
      if b.why ≠ .preempt || slotsHeld s c || mastersStopped s || savesAtOnce s k.inst ≤ before || !spillChannel s (dieOfCore s c)
        || pinned s c || !batchDrained s c true then s else
      match ctxOf s k.space, slotOf s k.space with
      | some x, some (_, slot) =>
        let f := freeFrame x
        let pages := framePages (frameVa x f) k.lb b.ngroups
        match frameLook s slot c k.inst pages with
        | (none, s) => s
        | (some false, s) => noteFault (setBatch s c (some { b with why := .fault })) b.kernel (batchFault s c b errSaveFault)
        | (some true, s) =>
          let here := core s c
          let clock := clock20 s c
          let waits := waitsOn s c
          let v : SavedBatch := ⟨b.kernel, f,
            { b with
              progress := s.now - b.progress
              groups := b.groups.map (fun kv : Nat × Group => (kv.1, saveGroup clock kv.2)) },
            if b.started then { here.m with lfsr := 0 } else Matrix.empty,
            if b.started then saveMover (mover s c) else Mover.empty,
            if b.started then here.tacc else [],
            if b.started then here.taccBad else [],
            if b.started then here.scr.filter (fun kv => decide (kv.1 < scrLimit k.lb)) else [],
            if b.started then here.marks.filter (fun kv => decide (8 * kv.1 < scrLimit k.lb)) else []⟩
          let s := moveWaits (saveTiles s c b) waits noCore
          let s := modCore (clearCore s c) c (fun n => if b.started then { n with region := none, resvPages := 0 } else n)
          let s := countSpill (writeFrame s slot c k.inst pages) c (spillBytes k.lb b.ngroups) true
          let s := modCtx s k.space (fun x => { x with saved := x.saved ++ [v] })
          let s := modCmd s k.cmd (fun m => { m with preempted := true })
          countR (countR s r_SCH_PREEMPTS 0 1) r_SCH_SPILL_BYTES 0 (spillBytes k.lb b.ngroups)
      | _, _ => s)

/-- Puts a saved batch that has not started back on a core, where it starts (R74, R104). -/
def restoreUnstarted (s : State) (c : Nat) (v : SavedBatch) : State :=
  setBatch s c (some { v.batch with why := .running, progress := s.now - v.batch.progress, deferred := [] })

/-- Puts a saved batch on a core. The rounding generator is the core's own: it is not saved (R61). -/
def restoreOn (s : State) (c : Nat) (k : Kernel) (v : SavedBatch) : State :=
  if !v.batch.started then restoreUnstarted s c v else
  let clock := clock20 s c
  let back (g : Group) : Group := match g.wait with
    | .sleep r => { g with wait := .sleep (clock + r) }
    | _ => g
  let other := (core s c).lastCtx ≠ some k.space
  let s := if other then zeroScr s c 0 0xA00000 else zeroScr s c 0 (scrLimit k.lb)
  let waits := ((s.ops.filter (fun kv => kv.2.core = noCore && kv.2.kernel = v.kernel && kv.2.batch = v.batch.index)).map
    Prod.fst)
  let s := dropTiles s (fun t => match t.owner with
    | .saved kid b _ _ _ => kid = v.kernel && b = v.batch.index
    | .savedMover kid b _ _ => kid = v.kernel && b = v.batch.index
    | _ => false)
  let s := restoreMover s c v.mover
  let s := modCore s c (fun n => { n with
    batch := some { v.batch with
      why := .running, progress := s.now - v.batch.progress, deferred := []
      groups := v.batch.groups.map (fun kv : Nat × Group => (kv.1, back kv.2)) }
    m := { v.m with lfsr := n.m.lfsr }, tacc := v.tacc, taccBad := v.taccBad
    scr := v.scr.foldl (fun m (kv : Nat × Byte) => mset 0 m kv.1 kv.2) n.scr
    marks := v.marks.foldl (fun m (kv : Nat × WordMark) => mset .good m kv.1 kv.2) n.marks
    icache := if n.icacheKernel = some v.kernel then n.icache else []
    icacheKernel := some v.kernel
    lastCtx := some k.space
    region := if k.lb.regionId = 0 then none
      else some ⟨k.slot, k.space, k.lb.regionId, v.batch.index, k.lb.scrPages, v.kernel⟩
    resvPages := k.lb.specPages, resvScr := k.lb.scrPages, resvRegion := k.lb.regionId })
  moveWaits s waits c

/-- BATCH_RESTORE: the holder's oldest saved batch is placed on a core and goes on as if it had not been stopped, and its
deferred faults are raised (R103, R104, R390, R393). `corrupt` is a check code over the frame that fails (R366); the core is
woken first when every free core sleeps. The landing slots of the reservation that it evicts are squashed first, and a pinned one
stays (R161, R186). -/
def execBatchRestore (i : Nat) (corrupt : Bool) (s : State) : Out :=
  .next (match holderOf s i with
    | none => s
    | some space => match ctxOf s space, slotOf s space with
      | some x, some (_, slot) => match x.saved with
        | [] => s
        | v :: rest =>
          let k := kernel s v.kernel
          if mastersStopped s || x.down.isSome || x.frames ≤ (coresOf s space).length || k.stopAt.isSome then s else
          match chooseCore s i space k.lb v.batch.index with
          | none => s
          | some c =>
            if asleep s c then wakeCore s c
            else if !spillChannel s (dieOfCore s c) || pinned s c then s
            else if v.batch.started && slotsHeld s c then doomIf s (fun l => l.core = c)
            else match frameLook s slot c k.inst (framePages (frameVa x v.frame) k.lb v.batch.ngroups) with
              | (none, s) => s
              | (some ok, s) =>
                if !ok || corrupt then
                  noteFault s v.kernel (batchFault s c v.batch (if ok then errSaveCorrupt else errSaveFault))
                else
                  let s := modCtx s space (fun x => { x with saved := rest })
                  let s := restoreOn s c k v
                  let s := countSpill s c (spillBytes k.lb v.batch.ngroups) false
                  let s := countR s r_SCH_SPILL_BYTES 0 (spillBytes k.lb v.batch.ngroups)
                  raiseHeld s v.kernel v.batch.deferred
      | _, _ => s)

end Sys2Proof.Machine
end

