-- ==== Sys2Proof/Machine/Bst.lean ====
section
/-!
DEFINITION. Mover descriptors (R198 to R211) and what their deliveries read and write: addresses of rows, elements and
lists, conversion in the holding register (R208), and the BST objects of R145 to R152.
-/

namespace Sys2Proof.Machine

/-! ## Fields of a descriptor (R198, R211) -/

/-- A little-endian field of a descriptor. -/
def Desc.num (d : Desc) (o n : Nat) : Nat := leNat ((d.bytes.drop o).take n)

/-- Bits of a byte of a descriptor. -/
def Desc.bits (d : Desc) (o lo w : Nat) : Nat := bitsOf (d.num o 1) lo w

def Desc.op (d : Desc) : Nat := d.bits 0 0 4
def Desc.prio (d : Desc) : Nat := d.bits 1 3 2
def Desc.ord (d : Desc) : Bool := d.bits 1 5 1 = 1
def Desc.sspace (d : Desc) : Nat := d.bits 2 0 2
def Desc.dspace (d : Desc) : Nat := d.bits 2 2 2
def Desc.lspace (d : Desc) : Nat := d.bits 2 4 1
def Desc.sfmt (d : Desc) : Nat := d.bits 4 0 4
def Desc.dfmt (d : Desc) : Nat := d.bits 4 4 4
def Desc.cv (d : Desc) : Bool := d.bits 5 0 1 = 1
def Desc.sat (d : Desc) : Bool := d.bits 5 1 1 = 1
def Desc.red (d : Desc) : Nat := d.bits 5 2 2
def Desc.zfill (d : Desc) : Bool := d.bits 5 4 1 = 1
def Desc.pass (d : Desc) : Bool := d.bits 5 5 1 = 1
def Desc.skipw (d : Desc) : Bool := d.bits 5 6 1 = 1
def Desc.line (d : Desc) : Nat := d.bits 6 0 4
def Desc.paced (d : Desc) : Bool := d.bits 6 4 1 = 1
def Desc.src (d : Desc) : Nat := d.num 8 8
def Desc.dst (d : Desc) : Nat := d.num 0x10 8
def Desc.xcount (d : Desc) : Nat := d.num 0x18 3
def Desc.ycount (d : Desc) : Nat := d.num 0x1C 2
def Desc.zcount (d : Desc) : Nat := d.num 0x1E 2
def Desc.stride (d : Desc) (k : Nat) : Int := signedOf (d.num (0x20 + 4 * k) 4) 32
def Desc.aux (d : Desc) : Nat := d.num 0x30 8

/-- The operations. -/
def dCopy : Nat := 0
def dFill : Nat := 1
def dGather : Nat := 2
def dScatter : Nat := 3
def dBst : Nat := 4
def dCredit : Nat := 5

/-- GATHER or SCATTER. -/
def Desc.listed (d : Desc) : Bool := d.op = dGather || d.op = dScatter

/-- A COPY that converts from an MX format, whose scale plane AUX names. -/
def Desc.mxCopy (d : Desc) : Bool := d.op = dCopy && d.cv && isMX d.sfmt

/-- Does a descriptor convert? FILL ignores CV. -/
def Desc.converts (d : Desc) : Bool := d.cv && d.op ≠ dFill

/-- Element bits of the source and of the destination (R200). -/
def Desc.sbits (d : Desc) : Nat := if d.converts then elemBits d.sfmt else if d.red = 1 then 32 else if d.red = 2 then 16 else 8
def Desc.dbits (d : Desc) : Nat := if d.converts then elemBits d.dfmt else if d.red = 1 then 32 else if d.red = 2 then 16 else 8

/-- BST: the extent (R211). -/
def Desc.i0 (d : Desc) : Nat := d.num 0x18 2
def Desc.j0 (d : Desc) : Nat := d.num 0x1A 2
def Desc.ri (d : Desc) : Nat := d.num 0x1C 2
def Desc.cj (d : Desc) : Nat := d.num 0x1E 2
def Desc.dpitch (d : Desc) : Nat := d.num 0x20 4
def Desc.idst (d : Desc) : Nat := d.num 0x28 8
def Desc.sdst (d : Desc) : Nat := d.num 0x30 8
def Desc.skipAt (d : Desc) : Nat := d.num 0x38 8

/-! ## The checks of R201 -/

/-- The conversions of the mover (R208). -/
def moverPair (a b : Nat) : Bool :=
  (2 ≤ b && b ≤ 4) && ((2 ≤ a && a ≤ 4 && a ≠ b) || isMX a)

/-- Does an address of a scratchpad form hold zeros where R199 asks for them? -/
def formOk (sp a : Nat) : Bool := if sp = 0 then a < 2 ^ 32 else if sp = 2 then a < 2 ^ 40 else true

/-- The reserved parts, codes, counts and formats of a descriptor that is neither BST nor CREDIT. -/
def plainOk (bulk : Bool) (d : Desc) : Bool :=
  let fill := d.op = dFill
  d.bits 2 5 3 = 0 && d.dspace ≠ 3 && (fill || d.sspace ≠ 3) && d.num 3 1 ≤ 10
    && ((fill || d.red ≠ 0 || elemBits d.sfmt ≠ 0) && (d.red ≠ 0 || elemBits d.dfmt ≠ 0))
    && d.bits 5 7 1 = 0 && d.red ≠ 3 && d.bits 6 5 3 = 0 && d.bits 7 6 2 = 0
    && d.num 0x1B 1 = 0 && d.num 0x3C 4 = 0
    && (fill || d.listed || d.mxCopy || d.aux = 0) && (d.mxCopy || d.num 0x38 4 = 0)
    && d.xcount ≠ 0 && d.ycount ≠ 0 && d.zcount ≠ 0
    && (!d.converts || moverPair d.sfmt d.dfmt)
    && (d.red = 0 || (!d.cv && (d.op = dCopy || d.op = dScatter)))
    && (!(d.converts && isMX d.sfmt) || (d.op = dCopy && d.xcount % 32 = 0 && d.zcount = 1))
    && (!d.listed || d.zcount = 1)
    && (!bulk || ((fill || d.sspace = 1) && d.dspace = 1 && (!d.listed || d.lspace = 1)))
    && (fill || formOk d.sspace d.src) && formOk d.dspace d.dst && (!d.listed || formOk d.lspace d.aux)
    && (!d.mxCopy || formOk d.sspace d.aux)

/-- The same of a BST descriptor (R210, R211). -/
def bstOk (bulk : Bool) (d : Desc) : Bool :=
  d.bits 2 5 3 = 0 && d.sspace ≠ 3 && d.dspace ≠ 3 && d.num 3 1 ≤ 10 && elemBits d.sfmt ≠ 0 && elemBits d.dfmt ≠ 0
    && d.bits 5 7 1 = 0 && d.red = 0 && d.bits 6 5 3 = 0 && d.bits 7 6 2 = 0 && d.num 0x24 4 = 0 && d.ri ≠ 0 && d.cj ≠ 0
    && (!d.cv || d.pass || (2 ≤ d.dfmt && d.dfmt ≤ 4))
    && (!bulk || (d.sspace = 1 && d.dspace = 1))
    && formOk d.sspace d.src && formOk d.dspace d.dst && (!d.pass || formOk d.dspace d.idst)
    && ((d.cv && !d.pass) || formOk d.dspace d.sdst) && (!d.skipw || formOk d.dspace d.skipAt)

/-- Do the row starts of one side lie on multiples of `n`? Those of a listed descriptor are checked with its list entries. -/
def rowsAligned (n base : Nat) (y z : Int) (d : Desc) : Bool :=
  base % n = 0 && (d.listed || ((!(1 < d.ycount) || y % n = 0) && (!(1 < d.zcount) || z % n = 0)))

/-- The error of a descriptor that fails a check of R201. -/
def descCheck (bulk : Bool) (d : Desc) : Option Nat :=
  if dCredit < d.op || d.bits 0 4 4 ≠ 0 || d.bits 1 6 2 ≠ 0 then some errMoverParam
  else if d.op = dCredit then
    if d.bits 6 5 3 ≠ 0 || d.bits 7 6 2 ≠ 0 || 65536 ≤ d.aux then some errMoverParam else none
  else if d.op = dBst then
    if !bstOk bulk d then some errMoverParam
    else if d.cv && !d.pass && (d.dst % (elemBits d.dfmt / 8) ≠ 0 || d.dpitch % (elemBits d.dfmt / 8) ≠ 0) then
      some errMisaligned
    else none
  else if !plainOk bulk d then some errMoverParam
  else if d.op ≠ dFill && !rowsAligned (max 1 (d.sbits / 8)) d.src (d.stride 0) (d.stride 1) d
      || !rowsAligned (d.dbits / 8) d.dst (d.stride 2) (d.stride 3) d || (d.listed && d.aux % 4 ≠ 0) then some errMisaligned
  else none

/-! ## The walk of a plain descriptor (R200, R202, R203, R209, R212, R219) -/

/-- Bytes of a destination row. -/
def Desc.rowDst (d : Desc) : Nat := d.xcount * d.dbits / 8

/-- The start of a row: planes and rows from `base`, or `i` rows for a list entry, modulo 2⁶⁴. -/
def rowAt (base : Nat) (y z : Int) (row plane : Nat) : Nat := wrapInt (base + plane * z + row * y) 64

/-- The list entry of row `r`; 0xFFFF_FFFF for none. -/
def entryOf (c : Chan) (r : Nat) : Nat := c.list.getD (r % 128) 0xFFFFFFFF

/-- Where row `r` of the source and of the destination starts. -/
def srcRow (d : Desc) (c : Chan) (r : Nat) : Nat :=
  if d.op = dGather then rowAt d.src (d.stride 0) 0 (entryOf c r) 0
  else rowAt d.src (d.stride 0) (d.stride 1) (r % d.ycount) (r / d.ycount)
def dstRow (d : Desc) (c : Chan) (r : Nat) : Nat :=
  if d.op = dScatter then rowAt d.dst (d.stride 2) 0 (entryOf c r) 0
  else rowAt d.dst (d.stride 2) (d.stride 3) (r % d.ycount) (r / d.ycount)

/-- Is the entry of row `r` "none"? -/
def noneRow (d : Desc) (c : Chan) (r : Nat) : Bool := d.listed && entryOf c r = 0xFFFFFFFF

/-- The rows of a descriptor: for BST, the tiles of the extent. -/
def Desc.rows (d : Desc) : Nat := if d.op = dBst then d.ri * d.cj else d.ycount * d.zcount

/-- Steps of a row: destination bytes, or for BST the 128 lines of a tile. -/
def rowLen (d : Desc) (c : Chan) (r : Nat) : Nat :=
  if d.op = dBst then 128
  else if noneRow d c r && (d.op = dScatter || !d.zfill) then 0 else d.rowDst

/-- Do the rows of a listed segment start on multiples of their element sizes: those that are read, and those that are written (R201,
log entry 62)? -/
def listAligned (d : Desc) (c : Chan) : Bool :=
  (List.range c.list.length).all (fun i =>
    let r := c.row / 128 * 128 + i
    (noneRow d c r || srcRow d c r % max 1 (d.sbits / 8) = 0) && (rowLen d c r = 0 || dstRow d c r % (d.dbits / 8) = 0))

/-- Steps of a burst (R212). -/
def Desc.burst (d : Desc) : Nat := if d.op = dBst then 128 else 64 * 2 ^ d.num 3 1

/-- Where the segment that holds a place ends (R219). -/
def segEnd (d : Desc) (row ofs : Nat) : Nat × Nat :=
  if d.op = dBst then ((row / d.cj + 1) * d.cj, 0)
  else if d.listed then (min (row / 128 * 128 + 128) d.rows, 0)
  else if d.rows = 1 then
    let e := (ofs / 65536 + 1) * 65536
    if e < d.rowDst then (0, e) else (1, 0)
  else
    let y := row % d.ycount
    (row / d.ycount * d.ycount + min (y / 128 * 128 + 128) d.ycount, 0)

/-- Is a place at or past an end? -/
def pastEnd (row ofs : Nat) (e : Nat × Nat) : Bool := e.1 < row || (row = e.1 && e.2 ≤ ofs)

/-- The steps of the next delivery at a place, at most `left`: to the end of the row or to a 64-byte boundary of the
destination; for BST, one line. -/
def stepLen (d : Desc) (c : Chan) (row ofs left : Nat) : Nat :=
  if d.op = dBst then 1 else min (min left (d.rowDst - ofs)) (64 - (dstRow d c row + ofs) % 64)

/-- The deliveries from a place, up to an end or until `left` steps are taken; and where the walk goes on. -/
def walkPieces (d : Desc) (c : Chan) (e : Nat × Nat) : Nat → Nat → Nat → Nat → List Piece × (Nat × Nat)
  | 0, row, ofs, _ => ([], (row, ofs))
  | fuel + 1, row, ofs, left =>
    if pastEnd row ofs e then ([], (row, ofs))
    else if rowLen d c row ≤ ofs then walkPieces d c e fuel (row + 1) 0 left
    else if left = 0 then ([], (row, ofs))
    else
      let n := stepLen d c row ofs left
      let r := walkPieces d c e fuel row (ofs + n) (left - n)
      (⟨row, ofs, n⟩ :: r.1, r.2)

/-! ## Elements with poison -/

/-- A byte and whether it is poisoned. -/
abbrev PByte := Byte × Bool

/-- Element `i` of `w` bits of bytes, poisoned when a byte of it is. -/
def pElem (w : Nat) (l : List PByte) (i : Nat) : Nat × Bool :=
  (getElem w (l.map Prod.fst) i, ((l.drop (i * w / 8)).take ((i * w + w - 1) / 8 + 1 - i * w / 8)).any Prod.snd)

/-- Packs elements of `w` bits; a byte is poisoned when an element in it is. -/
def pPack (w : Nat) (l : List (Nat × Bool)) : List PByte :=
  let bytes := packElems w (l.map Prod.fst)
  (List.range bytes.length).map (fun j =>
    (bytes.getD j 0, ((l.drop (8 * j / w)).take ((8 * j + 7) / w + 1 - 8 * j / w)).any Prod.snd))

/-- Converts one element in the holding register, under the block scale that applies (R56 to R58, R65). A NaN made of inputs none of
which is a NaN raises INVALID (R53). -/
def convElem (sfmt dfmt : Nat) (sat : Bool) (scale : Option FVal) (code : Nat) : Nat × Flags :=
  match elemOf sfmt, elemOf dfmt with
  | some a, some b =>
    let v := decodeElem a code
    let x := match scale with
      | some k => fmulX v k
      | none => v
    let r := toElem b .rne sat false x
    (r.1, if x.isNan && !v.isNan && !((scale.map FVal.isNan).getD false) then r.2 ||| flInvalid else r.2)
  | _, _ => (0, 0)

/-! ## What a delivery of a plain descriptor reads and writes -/

/-- The first element a delivery takes, and the first of the whole bytes (or groups) read for it. -/
def pieceElem (d : Desc) (p : Piece) : Nat × Nat :=
  let e := p.ofs * 8 / d.dbits
  (e, if d.sbits < 8 then e / 4 * 4 else e)

/-- The ranges a delivery reads: elements, and for an MX source block scales, whose plane AUX names in SSPACE (R45; log entry 16). -/
def plainReads (d : Desc) (c : Chan) (p : Piece) : List (Nat × Nat) :=
  if d.op = dFill || noneRow d c p.row then [] else
  let (e, e0) := pieceElem d p
  let last := e + p.len * 8 / d.dbits
  (srcRow d c p.row + e0 * d.sbits / 8, (last * d.sbits + 7) / 8 - e0 * d.sbits / 8)
    :: (if d.mxCopy then [(d.aux + p.row * d.num 0x38 4 + e / 32, (last - 1) / 32 + 1 - e / 32)] else [])

/-- The bytes a delivery writes, with the flags of conversion; `get` gives the bytes read. -/
def plainData (d : Desc) (c : Chan) (get : Nat → PByte) (p : Piece) : List PByte × Flags :=
  if d.op = dFill then ((List.range p.len).map (fun i => (d.bytes.getD (0x30 + (p.ofs + i) % 8) 0, false)), 0)
  else if noneRow d c p.row then (List.replicate p.len (0, false), 0)
  else
    let (e, e0) := pieceElem d p
    let base := srcRow d c p.row + e0 * d.sbits / 8
    if !d.converts then ((List.range p.len).map (fun i => get (base + i)), 0) else
    let n := p.len * 8 / d.dbits
    let bytes := (List.range (((e + n) * d.sbits + 7) / 8 - e0 * d.sbits / 8)).map (fun i => get (base + i))
    let one (i : Nat) : (Nat × Bool) × Flags :=
      let x := pElem d.sbits bytes (e - e0 + i)
      let k := get (d.aux + p.row * d.num 0x38 4 + (e + i) / 32)
      let r := convElem d.sfmt d.dfmt d.sat (if d.mxCopy then some (e8m0 k.1.toNat) else none) x.1
      ((r.1, x.2 || (d.mxCopy && k.2)), r.2)
    let rs := (List.range n).map one
    (pPack d.dbits (rs.map Prod.fst), rs.foldl (fun f r => f ||| r.2) 0)

/-! ## BST objects (R145 to R149) -/

/-- Fields of a BST header. -/
structure Bst where
  fmt : Nat
  spn : Nat
  rows : Nat
  cols : Nat
  present : Nat
  total : Nat
  bitmap : Nat
  rowbase : Nat
  scale : Nat
  index : Nat
  value : Nat
  deriving DecidableEq, Repr

/-- The header that 64 bytes spell. -/
def bstOf (h : List Byte) : Bst :=
  let f (o n : Nat) : Nat := leNat ((h.drop o).take n)
  ⟨f 4 1 % 16, f 5 1 % 8, f 8 2, f 0xA 2, f 0xC 4, f 0x10 8, f 0x18 4, f 0x1C 4, f 0x20 8, f 0x28 8, f 0x30 8⟩

/-- Bytes of a tile's record in the value, index and scale planes (R147). -/
def Bst.vt (b : Bst) : Nat := if b.spn = 0 then 2048 * elemBits b.fmt else 256 * b.spn * elemBits b.fmt
def Bst.it (b : Bst) : Nat := 768 * b.spn
def Bst.st (b : Bst) : Nat := if isMX b.fmt then 512 else 4

/-- The regions of an object: offset and size. -/
def Bst.regions (b : Bst) : List (Nat × Nat) :=
  [(0, 64), (b.bitmap, (b.rows * b.cols + 7) / 8), (b.rowbase, 4 * (b.rows + 1)), (b.scale, b.present * b.st),
    (b.value, b.present * b.vt)] ++ (if b.spn = 0 then [] else [(b.index, b.present * b.it)])

/-- Do no two ranges of a list overlap? -/
def disjoint : List (Nat × Nat) → Bool
  | [] => true
  | x :: xs => xs.all (fun y => x.1 + x.2 ≤ y.1 || y.1 + y.2 ≤ x.1 || x.2 = 0 || y.2 = 0) && disjoint xs

/-- Is a header valid (R149)? -/
def bstValid (h : List Byte) : Bool :=
  let b := bstOf h
  let f (o n : Nat) : Nat := leNat ((h.drop o).take n)
  f 0 4 = 0x31545342 && isMatrixFmt b.fmt && f 4 1 < 16 && b.spn ≤ 4 && f 5 1 < 8 && f 6 2 = 0 && f 0x38 8 = 0
    && 1 ≤ b.rows && 1 ≤ b.cols && b.present ≤ b.rows * b.cols
    && [b.bitmap, b.rowbase, b.scale, b.index, b.value].all (fun o => o % 256 = 0)
    && (b.spn ≠ 0 || b.index = 0) && b.regions.all (fun r => r.1 + r.2 ≤ b.total) && disjoint b.regions

/-- The checks of a transfer against a valid header (R152, R154), and of the conversion, which BST objects of every format other than
the destination's undergo (R54, R151, R208): an error, if any. -/
def bstFits (d : Desc) (b : Bst) : Option Nat :=
  if b.rows < d.i0 + d.ri || b.cols < d.j0 + d.cj then some errBstFormat
  else if d.pass && (b.spn = 0 || d.ri ≠ 1 || !(d.cj = 1 || d.cj = 2 || d.cj = 4)) then some errBstFormat
  else if d.cv && !d.pass && b.fmt = d.dfmt then some errMoverParam
  else none

/-- Does EXPAND convert (R151)? Equal formats fail the transfer (R208). -/
def bstConv (d : Desc) : Bool := d.cv && !d.pass

/-! ## What a line of a BST tile reads and writes (R148, R151, R152) -/

/-- Is the tile of a row of the walk present? -/
def tileHere (d : Desc) (c : Chan) (r : Nat) : Bool := c.list.getD (r % d.cj) 0 = 1

/-- The rank of a tile, of the row whose metadata the channel holds. -/
def tileRank (d : Desc) (c : Chan) (r : Nat) : Nat := c.rank + (c.list.take (r % d.cj)).foldl (· + ·) 0

/-- The ranges that a line reads: its values, and its block scales or the tile's scale. -/
def bstReads (d : Desc) (c : Chan) (p : Piece) : List (Nat × Nat) :=
  if !tileHere d c p.row then [] else
  let b := bstOf c.hdr
  let r := tileRank d c p.row
  [(d.src + b.value + r * b.vt + p.ofs * (b.vt / 128), b.vt / 128),
    if isMX b.fmt then (d.src + b.scale + 512 * r + 4 * p.ofs, 4) else (d.src + b.scale + 4 * r, 4)]

/-- The index bytes of a line, of the records the channel holds. -/
def bstIdx (d : Desc) (c : Chan) (p : Piece) : List PByte :=
  let b := bstOf c.hdr
  (c.idx.drop ((tileRank d c p.row - c.rank) * b.it + p.ofs * 6 * b.spn)).take (6 * b.spn)

/-- The 128 element codes of a line of a present tile: none where an N:8 group stores no value. -/
def bstCodes (d : Desc) (c : Chan) (p : Piece) (vals : List PByte) : List (Option (Nat × Bool)) :=
  let b := bstOf c.hdr
  let w := elemBits b.fmt
  if b.spn = 0 then (List.range 128).map (fun e => some (pElem w vals e)) else
  let idx := bstIdx d c p
  (List.range 128).map (fun e =>
    match (List.range b.spn).find? (fun j => (pElem 3 idx (e / 8 * b.spn + j)).1 = e % 8) with
    | some j => some (pElem w vals (e / 8 * b.spn + j))
    | none => none)

/-- Bytes at the two scale forms: four block scales, or a binary32 tile scale, of an absent tile. -/
def absentScale (b : Bst) : List PByte :=
  (if isMX b.fmt then List.replicate 4 (0x7F : Byte) else leBytes 4 0x3F800000).map (fun x => (x, false))

/-- The writes of a line under EXPAND (R151): addresses and bytes, with the flags of conversion. -/
def expandLine (d : Desc) (c : Chan) (get : Nat → PByte) (p : Piece) : List (Nat × List PByte) × Flags :=
  let b := bstOf c.hdr
  let here := tileHere d c p.row
  if !here && !d.zfill then ([], 0) else
  let conv := bstConv d
  let w := elemBits (if conv then d.dfmt else b.fmt)
  let line := p.row / d.cj * 128 + p.ofs
  let at0 := d.dst + line * d.dpitch + p.row % d.cj * 16 * w
  let ranges := bstReads d c p
  let rd (k : Nat) : List PByte := ((ranges.drop k).take 1).flatMap (fun r => (List.range r.2).map (fun i => get (r.1 + i)))
  let scales := if here then rd 1 else absentScale b
  let codes := if here then bstCodes d c p (rd 0) else List.replicate 128 none
  if conv then
    let one (e : Nat) (x : Option (Nat × Bool)) : (Nat × Bool) × Flags :=
      match x with
      | none => ((0, false), 0)
      | some x =>
      let k := if isMX b.fmt then e8m0 (scales.getD (e / 32) (0, false)).1.toNat
        else f32 (BitVec.ofNat 32 (leNat (scales.map Prod.fst)))
      let r := convElem b.fmt d.dfmt d.sat (some k) x.1
      ((r.1, x.2 || (if isMX b.fmt then (scales.getD (e / 32) (0, false)).2 else scales.any Prod.snd)), r.2)
    let rs := (List.range 128).map (fun e => one e (codes.getD e none))
    ([(at0, pPack w (rs.map Prod.fst))], rs.foldl (fun f r => f ||| r.2) 0)
  else
    let sc := if isMX b.fmt then [(d.sdst + line * 4 * d.cj + 4 * (p.row % d.cj), scales)]
      else if p.ofs = 0 then [(d.sdst + 4 * p.row, scales)] else []
    ((at0, pPack w (codes.map (fun x => x.getD (0, false)))) :: sc, 0)

/-- The writes of a line under PASS (R152). -/
def passLine (d : Desc) (c : Chan) (get : Nat → PByte) (p : Piece) : List (Nat × List PByte) × Flags :=
  let b := bstOf c.hdr
  let here := tileHere d c p.row
  let s := p.row % d.cj
  let v := b.vt / 128
  let ranges := bstReads d c p
  let rd (k : Nat) : List PByte := ((ranges.drop k).take 1).flatMap (fun r => (List.range r.2).map (fun i => get (r.1 + i)))
  let vals := if here then rd 0 else List.replicate v (0, false)
  let idx := if here then bstIdx d c p
    else pPack 3 (((List.range 16).map (fun _ => (List.range b.spn).map (fun j => (j, false)))).flatten)
  let scales := if here then rd 1 else absentScale b
  let sc := if isMX b.fmt then [(d.sdst + p.ofs * 4 * d.cj + 4 * s, scales)]
    else if p.ofs = 0 then [(d.sdst + 4 * s, scales)] else []
  ((d.dst + p.ofs * d.cj * v + s * v, vals) :: (d.idst + p.ofs * d.cj * 6 * b.spn + s * 6 * b.spn, idx) :: sc, 0)

/-! ## Any delivery -/

/-- The source ranges of a delivery. -/
def pieceReads (d : Desc) (c : Chan) (p : Piece) : List (Nat × Nat) :=
  if d.op = dBst then bstReads d c p else plainReads d c p

/-- Its writes: addresses and bytes, with the flags of conversion. -/
def pieceOut (d : Desc) (c : Chan) (get : Nat → PByte) (p : Piece) : List (Nat × List PByte) × Flags :=
  if d.op = dBst then if d.pass then passLine d c get p else expandLine d c get p
  else
    let r := plainData d c get p
    ([(dstRow d c p.row + p.ofs, r.1)], r.2)

/-- The destination ranges of a delivery. -/
def pieceWrites (d : Desc) (c : Chan) (p : Piece) : List (Nat × Nat) :=
  ((pieceOut d c (fun _ => (0, false)) p).1).map (fun w => (w.1, w.2.length))

/-- Are the positions of every group of the index records a channel holds strictly ascending (R134)? -/
def bstPositionsOk (c : Chan) : Bool :=
  let n := (bstOf c.hdr).spn
  let idx := c.idx.map Prod.fst
  (List.range (c.idx.length * 8 / 3 / n)).all (fun g =>
    (List.range (n - 1)).all (fun j => decide (getElem 3 idx (g * n + j) < getElem 3 idx (g * n + j + 1))))

end Sys2Proof.Machine
end

