-- ==== Sys2Proof/Machine/Mover.lean ====
section
/-!
DEFINITION. The tile movers (R196 to R222): channels and their states, the translation of segments, bursts, reads, deliveries
and completion, failures, and BST transfers (R150 to R154). A channel begins a descriptor once its predecessor has completed,
which R216 permits in every case (log entry 13); bytes in which consecutive descriptors with ORD = 0 clash are undefined all the same.
-/

namespace Sys2Proof.Machine

/-! ## Units and channels -/

/-- Is a unit a bulk cluster? -/
def isBulk (u : Nat) : Bool := 256 ≤ u

/-- The number of a bulk channel (R197). -/
def bulkNum (u k : Nat) : Nat := 32 * (u - 256) + k

/-- The first descriptor of a channel. -/
def frontDesc (s : State) (u k : Nat) : Option Desc := (chan s u k).queue.head?

/-- The channel once its front descriptor is gone; a change of USE applies when it is Idle (R224). What a descriptor read and wrote
matters to the next one only if that was queued behind it (R216). -/
def popChan (s : State) (u k : Nat) : State :=
  let c := chan s u k
  let rest := c.queue.drop 1
  if rest.isEmpty then
    let s := setChan s u k Chan.empty
    match c.newUse with
    | some v => setF s f_TMV_BCH_CFG_USE (bulkNum u k) v
    | none => s
  else setChan s u k { Chan.empty with queue := rest, before := c.spans, newUse := c.newUse }

/-- Ends the front descriptor: its tile and requests are dropped, and its queue entry is free. -/
def endDesc (s : State) (u k : Nat) : State :=
  let s := match (chan s u k).tile with
    | some t => dropTile s t
    | none => s
  popChan (forgetReqs s (fun _ r => r.owner = .moverRead u k)) u k

/-! ## Pages, segments and spaces (R199, R219, R292) -/

/-- The resident slot of a descriptor's context. -/
def descSlot (s : State) (d : Desc) : Nat × SlotInfo := (slotOf s d.space).getD (0, SlotInfo.empty)

/-- The MASTER of a channel in a fault record (R296). -/
def chanMaster (u k : Nat) : Nat := if isBulk u then 2 * 4096 + bulkNum u k else 4096 + 8 * u + k

/-- The base die of a mover. -/
def unitDie (s : State) (u : Nat) : Nat := if isBulk u then (u - 256) / 4 else dieOfCore s u

/-- The lowest address touched in each 4 KiB page by ranges. -/
def rangePages (l : List (Nat × Nat)) : List Nat :=
  pagesOf (l.flatMap (fun r => (List.range ((r.1 % 4096 + r.2 + 4095) / 4096)).map (fun i =>
    max r.1 ((r.1 / 4096 + i) * 4096))))

/-- The device-virtual pages that a delivery touches. -/
def piecePages (d : Desc) (c : Chan) (p : Piece) : List Nat :=
  rangePages ((if d.sspace = 1 then pieceReads d c p else []) ++ (if d.dspace = 1 then pieceWrites d c p else []))

/-- Is a descriptor a page of a MIGRATE (R309)? -/
def migrates (s : State) (d : Desc) : Bool :=
  match d.owner with
  | .command _ c => ((cmdOf s c).map Cmd.op) = some opMigrate
  | _ => false

/-- The page that maps an address, as the tables stand; 4 KiB where none does. -/
def leafAt (s : State) (d : Desc) (va : Nat) : Nat :=
  match devXlat s (descSlot s d).2 0 0 va with
  | .ok x => x.va
  | _ => va / 4096 * 4096

/-- Do the 4 KiB pages touched lie in at most 128 distinct pages (R292)? -/
def fitsTile (s : State) (d : Desc) (pages : List Nat) : Bool :=
  pages.length ≤ 128 || ((pages.map (leafAt s d)).eraseDups).length ≤ 128

/-- How many deliveries a tile takes: as many, in walk order, as touch at most 128 distinct pages (R292). -/
def tileTake (s : State) (d : Desc) (c : Chan) : List Piece → List Nat → List Piece × List Nat
  | [], pages => ([], pages)
  | p :: ps, pages =>
    let new := pagesOf (pages ++ piecePages d c p)
    if !fitsTile s d new && !pages.isEmpty then ([], pages)
    else
      let r := tileTake s d c ps new
      (p :: r.1, r.2)

/-- Where the tile's segment ends: a page of MIGRATE is one tile (R309). -/
def tileEnd (s : State) (d : Desc) (c : Chan) : Nat × Nat := if migrates s d then (d.rows, 0) else segEnd d c.row c.ofs

/-- Steps left up to an end, as fuel for the walk. -/
def segFuel (d : Desc) (c : Chan) (e : Nat × Nat) : Nat := 129 + (e.1 + 1 - c.row) * (rowLen d c c.row + d.rowDst + 128)

/-- The deliveries up to an end from a channel's place. -/
def segPieces (d : Desc) (c : Chan) (e : Nat × Nat) : List Piece × (Nat × Nat) :=
  walkPieces d c e (segFuel d c e) c.row c.ofs (segFuel d c e)

/-- The core and local address of a scratchpad form. -/
def scrPlace (u sp a : Nat) : Nat × Nat := if sp = 0 then (u, a) else (a / 2 ^ 32 % 256, a % 2 ^ 32)

/-- Do the conditions of R199 on a peer access hold? -/
def peerOk (s : State) (u : Nat) (d : Desc) (c a n : Nat) : Bool :=
  let region := (kernelOn s u).lb.regionId
  flagF s f_TMV_CFG_PEER_EN && c < 144 && coreBound s d.inst c && region ≠ 0
    && (match (core s c).region with
      | some t => t.space = d.space && t.region = region && a + n ≤ t.scrPages * 4096
      | none => false)

/-- The error of ranges in a space, if any (R199, R295). -/
def spaceCheck (s : State) (u : Nat) (d : Desc) (sp : Nat) (l : List (Nat × Nat)) : Option (Nat × Nat) :=
  (l.find? (fun r =>
    if sp = 1 then 2 ^ 49 < r.1 + r.2
    else if sp = 0 then scrLimit (kernelOn s u).lb < r.1 + r.2
    else 2 ^ 40 ≤ r.1 || !peerOk s u d (scrPlace u 2 r.1).1 (scrPlace u 2 r.1).2 r.2)).map (fun r =>
      (if sp = 1 then errAddressRange else if sp = 0 then errScratchRange else errScratchPeer, r.1))

/-! ## Bytes that coincide (R204, R205, R216) -/

/-- Where an address of a space lies: place 0 is device virtual memory, 1 + c core c's scratchpad. -/
def spot (u sp a : Nat) : Nat × Nat := if sp = 1 then (0, a) else let r := scrPlace u sp a; (1 + r.1, r.2)

/-- Ranges of a space as spans: at an even place for bytes read, at the next odd one for bytes written. -/
def spansOf (u sp wr : Nat) (l : List (Nat × Nat)) : List (Nat × Nat × Nat) :=
  l.map (fun r => let x := spot u sp r.1; (2 * x.1 + wr, x.2, r.2))

/-- Does a byte lie in a span that meets a test? -/
def inSpans (l : List (Nat × Nat × Nat)) (place a : Nat) : Bool :=
  l.any (fun x => decide (x.1 = place) && decide (x.2.1 ≤ a) && decide (a < x.2.1 + x.2.2))

/-- The source of a descriptor, as spans: all its rows, or for lists and BST what its tiles so far read. -/
def srcSpans (d : Desc) (c : Chan) (u : Nat) : List (Nat × Nat × Nat) :=
  if d.op = dFill then []
  else if d.listed || d.op = dBst then c.spans.filter (fun x => decide (x.1 % 2 = 0))
  else spansOf u d.sspace 0 ((List.range d.rows).flatMap (fun r => plainReads d c ⟨r, 0, d.rowDst⟩))

/-- Is a byte that a descriptor writes undefined, since it coincides with one of its own source (R204), or, with ORD = 0, with a
byte of the descriptor before it on its channel (R216)? -/
def clashes (d : Desc) (c : Chan) (u a : Nat) : Bool :=
  let x := spot u d.dspace a
  inSpans (srcSpans d c u) (2 * x.1) x.2
    || (!d.ord && (inSpans c.before (2 * x.1) x.2 || inSpans c.before (2 * x.1 + 1) x.2))

/-- The index of an address in the bytes of ranges taken one after another. -/
def flatIndex : List (Nat × Nat) → Nat → Nat
  | [], _ => 0
  | r :: rs, a => if r.1 ≤ a && a < r.1 + r.2 then a - r.1 else r.2 + flatIndex rs a

/-- A reader of ranges in which, with ORD = 0, bytes that the descriptor before wrote are undefined (R216, log entry 5). -/
def readOver (s : State) (d : Desc) (c : Chan) (u : Nat) (l : List (Nat × Nat)) (get : Nat → PByte) : (Nat → PByte) × State :=
  let hit (a : Nat) : Bool := let x := spot u d.sspace a; !d.ord && inSpans c.before (2 * x.1 + 1) x.2
  if c.before.isEmpty || l.all (fun r => (List.range r.2).all (fun i => !hit (r.1 + i))) then (get, s)
  else
    let v := freeBytes s ((l.map Prod.snd).foldl (· + ·) 0)
    (fun a => if hit a then (v.1.getD (flatIndex l a) 0, false) else get a, v.2)

/-- Writes whose clashing bytes are undefined (log entry 5). -/
def writeOver (s : State) (hit : Nat → Bool) (ws : List (Nat × List PByte)) : List (Nat × List PByte) × State :=
  ws.foldl (fun (acc : List (Nat × List PByte) × State) w =>
    if (List.range w.2.length).all (fun i => !hit (w.1 + i)) then (acc.1 ++ [w], acc.2)
    else
      let v := freeBytes acc.2 w.2.length
      (acc.1 ++ [(w.1, (List.range w.2.length).map (fun i =>
        if hit (w.1 + i) then (v.1.getD i 0, false) else w.2.getD i (0, false)))], v.2)) ([], s)

/-! ## Requests -/

/-- The parts of ranges in one 256-byte line each, each once. -/
def lineParts (l : List (Nat × Nat)) : List (Nat × Nat) := (l.flatMap (fun r => linePieces r.1 r.2)).eraseDups

/-- The translations that a channel's tile holds. -/
def chanHeld (s : State) (u k : Nat) : List Xlat := (((chan s u k).tile.bind (fun t => mfind s.tiles t)).map Tile.held).getD []

/-- Where device addresses lead through held translations. -/
def heldPlaces (s : State) (d : Desc) (held : List Xlat) (l : List (Nat × Nat)) : List (Nat × Place) :=
  l.map (fun r => (r.1, match held.find? (fun x => x.covers r.1) with
    | some x => resolve s d.inst (descSlot s d).2.world x r.1
    | none => .refused faultFrameRange))

/-- A mover's request. -/
def moverReq (s : State) (u : Nat) (d : Desc) (op : ReqOp) (owner : ReqOwner) (g n hint : Nat) (data : List Byte) (bad : Nat) :
    MemReq :=
  { MemReq.make op owner g n data d.label hint d.inst d.space (if isBulk u then masterBulk d.inst else masterCore u)
      (unitDie s u) ((descSlot s d).2.world = 1) with epoch := epochOf s d.inst, poison := bad }

/-- The hint of a source read: those of MIGRATE do not allocate (R309). -/
def readHint (s : State) (d : Desc) (hint : Nat) : Nat := if migrates s d then 3 else hint

/-- Sends the reads of line parts; answers each request with its part. -/
def sendReads (s : State) (u k : Nat) (d : Desc) (ps : List (Nat × Place)) : List (Nat × Nat) →
    List (Nat × Nat × Nat) × State
  | [] => ([], s)
  | (va, n) :: rest =>
    match (ps.find? (fun p => p.1 = va)).map Prod.snd with
    | some (.at g dst hint) =>
      let (id, s) := sendReq s (moverReq s u d .read (.moverRead u k) g n (readHint s d hint) [] 0) dst
      let s := if isBulk u then countR s r_TMV_CLU_RD (u - 256) n else s
      let r := sendReads s u k d ps rest
      ((id, va, n) :: r.1, r.2)
    | _ => sendReads s u k d ps rest

/-! ## Reading and writing -/

/-- What reads gave: for each part its first address, bytes, and poisoned sectors of its line. -/
abbrev Parts := List (Nat × List Byte × Nat)

/-- One byte of the parts that were read. -/
def partByte (l : Parts) (a : Nat) : PByte :=
  match l.find? (fun p => p.1 ≤ a && a < p.1 + p.2.1.length) with
  | some p => (p.2.1.getD (a - p.1) 0, bitAt p.2.2 (a % 256 / 32))
  | none => (0, false)

/-- Reads ranges of scratchpad: an uncorrectable word fails with SCRATCH_ECC (R193, R220). Answers the error and a reader. -/
def scrReader (s : State) (u sp : Nat) (l : List (Nat × Nat)) : Option Nat × (Nat → PByte) × State :=
  let place (a : Nat) : Nat × Nat := scrPlace u sp a
  let cores := (l.map (fun r => (place r.1).1)).eraseDups
  let scan (acc : List (Nat × ScrFind) × State) (c : Nat) : List (Nat × ScrFind) × State :=
    let words := wordsOfAll ((l.filter (fun r => (place r.1).1 = c)).map (fun r => ((place r.1).2, r.2)))
    let r := scanWords acc.2 c (if sp = 0 then srcOwnMover else srcInbound) words
    (acc.1 ++ [(c, r.1)], r.2)
  let r := cores.foldl scan ([], s)
  let s' := r.2
  let get (a : Nat) : PByte :=
    let (c, x) := place a
    ((scrBytes s' c x 1).headD 0, r.1.any (fun f => f.1 = c && f.2.bad.contains (x / 8)))
  (if r.1.any (fun f => !f.2.ue.isEmpty) then some errScratchEcc else none, get, s')

/-- The finished reads of a burst: none while one is out; else its first error and the parts. -/
def burstParts (s : State) (b : Burst) : Option (Nat × Parts) :=
  b.reads.foldl (fun acc r =>
    match acc, (mfind s.reqs r.1) with
    | some (e, l), some q => match reqEnd s q with
      | some (data, bad, err) => some (if e = 0 then err else e, l ++ [(r.2.1, data, bad)])
      | none => none
    | some (e, l), none => some (e, l)
    | none, _ => none) (some (0, []))

/-- Drops the finished reads of a burst, counting their misses and poison. -/
def dropReads (s : State) (b : Burst) : State :=
  b.reads.foldl (fun s r => match mfind s.reqs r.1 with
    | some q => countPoison (readMiss (dropReq s r.1) q) (((reqEnd s q).map (fun e => e.2.1)).getD 0)
    | none => s) s

/-- Joins writes to consecutive bytes of one 256-byte line (R207, step 4). -/
def joinWrites : List (Nat × List PByte) → List (Nat × List PByte)
  | [] => []
  | w :: ws => match joinWrites ws with
    | [] => [w]
    | x :: xs => if w.1 + w.2.length = x.1 && w.1 / 256 = (x.1 + x.2.length - 1) / 256 then (w.1, w.2 ++ x.2) :: xs else w :: x :: xs

/-- The pieces of a write that lie in one aligned block of `n` bytes each. -/
def cutAt (n : Nat) (w : Nat × List PByte) : List (Nat × List PByte) :=
  ((List.range ((w.1 % n + w.2.length + n - 1) / n)).map (fun i =>
    let lo := max w.1 ((w.1 / n + i) * n)
    (lo, (w.2.drop (lo - w.1)).take (min (w.1 + w.2.length) ((w.1 / n + i + 1) * n) - lo)))).filter (fun x => !x.2.isEmpty)

/-- Runs of consecutive writes that lie in one aligned block of `n` bytes (R207, step 4). -/
def runsAt (n : Nat) : List (Nat × List PByte) → List (List (Nat × List PByte))
  | [] => []
  | w :: ws => match runsAt n ws with
    | (x :: g) :: gs => if x.1 / n = w.1 / n then (w :: x :: g) :: gs else [w] :: (x :: g) :: gs
    | gs => [w] :: gs

/-- The bytes that writes leave, the later prevailing (R204), as writes to runs of consecutive bytes. -/
def overlay : List (Nat × List PByte) → List (Nat × List PByte)
  | [] => []
  | [w] => [w]
  | w :: ws =>
    let lo := ws.foldl (fun a x => min a x.1) w.1
    let hi := (w :: ws).foldl (fun a x => max a (x.1 + x.2.length)) 0
    let byte (a : Nat) : Option PByte := (w :: ws).foldl (fun r x =>
      if x.1 ≤ a && a < x.1 + x.2.length then some (x.2.getD (a - x.1) (0, false)) else r) none
    (List.range (hi - lo)).foldr (fun i acc => match byte (lo + i) with
      | none => acc
      | some b => match acc with
        | [] => [(lo + i, [b])]
        | x :: rest => if x.1 = lo + i + 1 then (lo + i, b :: x.2) :: rest else (lo + i, [b]) :: x :: rest) []

/-- The words of a write at a scratchpad address that receive poison. -/
def badWords (a : Nat) (l : List PByte) : List Nat := (wordsOf a l.length).filter (fun x =>
  (List.range l.length).any (fun i => (a + i) / 8 = x && (l.getD i (0, false)).2))

/-- Who a mover is to the scratchpad that it writes. -/
def putSource (d : Desc) : Nat := if d.dspace = 0 then srcOwnMover else srcInbound

/-- Writes the pieces of one access to a chunk of scratchpad (R207, step 4). -/
def scrPutAll (s : State) (u : Nat) (d : Desc) (ws : List (Nat × List PByte)) : State :=
  let l := ws.map (fun w => (scrPlace u d.dspace w.1, w.2))
  scrWriteAll s (l.headD ((u, 0), [])).1.1 (l.map (fun w => (w.1.2, w.2.map Prod.fst))) (l.flatMap (fun w => badWords w.1.2 w.2))
    (putSource d)

/-- Adds into scratchpad under RED; an uncorrectable word in the way is an error (R205). -/
def scrAdd (s : State) (u : Nat) (d : Desc) (w : Nat × List PByte) : Option Nat × Flags × State :=
  let (c, a) := scrPlace u d.dspace w.1
  let data := w.2.map Prod.fst
  let (f, s) := scanWords s c (putSource d) (wordsOf a data.length)
  if !f.ue.isEmpty then (some errScratchEcc, 0, s)
  else
    let r := reduceElems (d.red = 1) (scrBytes s c a data.length) data
    (none, r.2, scrWrite s c a r.1 (badWords a w.2 ++ f.bad) (putSource d))

/-- Sends a write, or a reduction, to device memory. -/
def putReq (s : State) (u k : Nat) (d : Desc) (op : ReqOp) (g dst hint : Nat) (w : Nat × List PByte) : Nat × Nat × State :=
  let bad := ((List.range 8).filter (fun j => (List.range w.2.length).any (fun i =>
    (w.1 + i) % 256 / 32 = j && (w.2.getD i (0, false)).2))).foldl (fun a j => a + 2 ^ j) 0
  let r := sendReq s (moverReq s u d op (.moverWrite u k) g w.2.length hint (w.2.map Prod.fst) bad) dst
  (r.1, bad, r.2)

/-- Sends a delivery to device memory; answers the request if it is still to be performed. -/
def devSend (s : State) (u k : Nat) (d : Desc) (ps : List (Nat × Place)) (w : Nat × List PByte) : List Nat × State :=
  match (ps.find? (fun p => p.1 = w.1)).map Prod.snd with
  | some (.at g dst hint) =>
    let (id, bad, s) := putReq s u k d (if d.red = 0 then .write else .reduce (d.red = 1)) g dst hint w
    let s := if isBulk u then countR s r_TMV_CLU_WR (u - 256) w.2.length else s
    let s := match d.owner with
      | .command _ c => modCmd s c (fun v => { v with
          written := v.written + w.2.length, poisoned := satAdd 32 v.poisoned ((List.range 8).filter (bitAt bad)).length })
      | _ => s
    (if (mfind s.reqs id).isSome then [id] else [], s)
  | _ => ([], s)

/-- The outcome of writing a burst: refused locations, an error, or the writes sent and the flags. -/
inductive PutRes where
  | refused (ps : List (Nat × Place)) (s : State)
  | failed (code addr : Nat) (s : State)
  | ok (ids : List Nat) (f : Flags) (s : State)

/-- Writes what a burst delivers: the deliveries to one chunk or line that follow each other are one access (R207). -/
def putAll (s : State) (u k : Nat) (d : Desc) (held : List Xlat) (ws : List (Nat × List PByte)) : PutRes :=
  let first := (ws.headD (0, [])).1
  if d.dspace = 1 then
    let cut := ws.flatMap (cutAt 256)
    let out := if d.red = 0 then (runsAt 256 cut).flatMap overlay else joinWrites cut
    let ps := heldPlaces s d held (out.map (fun w => (w.1, w.2.length)))
    if anyRefused ps then .refused ps s
    else if anyKeyBad ps then .failed errKeyBad first s
    else if d.red ≠ 0 && anyHost ps then .failed errAtomicTarget first s
    else
      let r := out.foldl (fun (acc : List Nat × State) w =>
        let x := devSend acc.2 u k d ps w
        (acc.1 ++ x.1, x.2)) ([], s)
      .ok r.1 0 r.2
  else
    let cut := ws.flatMap (cutAt 512)
    if d.red = 0 then .ok [] 0 ((runsAt 512 cut).foldl (fun s l => scrPutAll s u d l) s)
    else
      let r := (joinWrites cut).foldl (fun (acc : Option Nat × Flags × State) w =>
        if acc.1.isSome then acc else
        let x := scrAdd acc.2.2 u d w
        (x.1, acc.2.1 ||| x.2.1, x.2.2)) (none, 0, s)
      match r.1 with
      | some e => .failed e first r.2.2
      | none => .ok [] r.2.1 r.2.2

/-! ## Undefined destination bytes (R154, R204, R220, log entry 5) -/

/-- Where a destination byte of device memory lies: as translations held say, or else as the tables do. -/
def freePlace (s : State) (d : Desc) (held : List Xlat) (va : Nat) : Option (Nat × Nat × Nat) :=
  match (heldPlaces s d held [(va, 1)]).map Prod.snd with
  | [.at g dst hint] => some (g, dst, hint)
  | _ => (devPlace s (descSlot s d).2 0 0 va).2

/-- Puts free values into a range of a descriptor's destination, as far as it reaches it. -/
def freeRange (s : State) (u k : Nat) (d : Desc) (held : List Xlat) (r : Nat × Nat) : State :=
  if (spaceCheck s u d d.dspace [r]).isSome then s else
  let v := freeBytes s r.2
  let w := (r.1, v.1.map (fun x => (x, false)))
  if d.dspace = 1 then
    (cutAt 256 w).foldl (fun s w => match freePlace s d held w.1 with
      | some (g, dst, hint) => (putReq s u k d .write g dst hint w).2.2
      | none => s) v.2
  else (cutAt 512 w).foldl (fun s w => scrPutAll s u d [w]) v.2

/-- The same of several. -/
def freeRanges (s : State) (u k : Nat) (d : Desc) (held : List Xlat) (l : List (Nat × Nat)) : State :=
  l.foldl (fun s r => freeRange s u k d held r) s

/-- The ranges that a failing descriptor leaves undefined: those of its bursts that have started and not been delivered, and of the
part of one that has been; for a BST transfer, those of the tile row it has begun. -/
def failRanges (d : Desc) (c : Chan) : List (Nat × Nat) :=
  let live := c.bursts.filter (fun b => !b.delivered && !b.pieces.isEmpty)
  let here := live.flatMap Burst.dst ++ c.part
  if d.op ≠ dBst || c.list.isEmpty then here
  else
    let row := match live.flatMap Burst.pieces with
      | p :: _ => some (p.row / d.cj)
      | [] => if c.row % d.cj ≠ 0 || c.ofs ≠ 0 then some (c.row / d.cj) else none
    match row with
    | none => here
    | some i => (List.range (128 * d.cj)).flatMap (fun j => pieceWrites d c ⟨i * d.cj + j / 128, j % 128, 1⟩)

/-! ## Failure (R220) -/

/-- A Gate unit. -/
def gateOf (s : State) (w : Nat) : Gate := mget Gate.empty s.gates w

/-- Changes a Gate unit. -/
def modGate (s : State) (w : Nat) (f : Gate → Gate) : State := { s with gates := mput s.gates w (f (gateOf s w)) }

/-- Changes the running dispatch of a wing. -/
def modRun (s : State) (w : Nat) (f : GateRun → GateRun) : State := modGate s w (fun g => { g with run := g.run.map f })

/-- Queues the gather transfers of a wing that still wait, at most eight in one channel's queue (R196). -/
def feedGather (s : State) (w : Nat) (ch : Nat) : List (Nat × Desc) → State
  | [] => modRun s w (fun r => { r with todo := [] })
  | (c, d) :: rest =>
    let mine := (chan s c ch).queue.filter (fun x => x.owner = .gate w)
    if 8 ≤ mine.length || 16 ≤ (chan s c ch).queue.length then modRun s w (fun r => { r with todo := (c, d) :: rest })
    else feedGather (modRun (queueDesc s c ch d) w (fun r => { r with out := r.out + 1 })) w ch rest

/-- Has a COPY, FILL or MIGRATE dealt all its descriptors? -/
def Cmd.dealt (c : Cmd) : Bool :=
  c.kept.isEmpty && (if c.op = opCopy then c.num 0x28 4 ≤ c.next
    else if c.op = opFill then c.num 0x28 8 ≤ c.next else c.op = opMigrate && c.num 0x28 4 ≤ c.next)

/-- Ends a COPY, FILL or MIGRATE none of whose descriptors is outstanding, once it has failed or dealt them all (R380,
R382). -/
def bulkEnd (s : State) (c : Nat) : State :=
  match cmdOf s c with
  | none => s
  | some v => if v.running = 0 && v.op ≠ opCollective && (v.err ≠ 0 || v.dealt) then endCmd s c v.err else s

/-- A descriptor's owner learns that it has ended, with an error or without (R220, R221). -/
def descOwner (s : State) (u k : Nat) (d : Desc) (code : Nat) (addr : Nat) (f : Flags) : State :=
  match d.owner with
  | .xmov kid grp =>
    let s := modKernel s kid (fun x => { x with flagSum := x.flagSum ||| f })
    if code = 0 then s else coreFault s u { groupFault s u grp code 0 0 (BitVec.ofNat 64 addr) with chan := some k }
  | .gate w =>
    match (gateOf s w).run with
    | none => s
    | some r =>
      let s := modRun s w (fun r => { r with out := r.out - 1, err := if r.err = 0 then code else r.err })
      if code = 0 then feedGather s w k r.todo else modRun s w (fun r => { r with todo := [] })
  | .command q c =>
    bulkEnd (modQueue (modCmd s c (fun v => { v with
      running := v.running - 1, flags := v.flags ||| f, err := if v.err = 0 then code else v.err
      count := v.count + (if code = 0 then 1 else 0) })) q (fun v => { v with progress := s.now })) c

/-- A descriptor fails: it moves nothing further, the destination bytes of the burst it fails in are undefined, and its failure goes
to its owner. -/
def moverFail (s : State) (u k : Nat) (d : Desc) (code addr : Nat) : State :=
  let c := chan s u k
  let s := endDesc (freeRanges s u k d (c.bursts.flatMap Burst.held) (failRanges d c)) u k
  let s := if isBulk u then setF s f_TMV_BCH_STAT_LAST_ERR (bulkNum u k) code else s
  descOwner s u k d code addr 0

/-! ## Tiles (R219, R292) -/

/-- The tile of a channel, for pages and rights. -/
def moverTile (s : State) (u k : Nat) (d : Desc) (pages : List Nat) (rights : Nat) : Tile :=
  let die := unitDie s u
  ⟨.mover u k, d.space, d.inst, (descSlot s d).1, die, if isBulk u then sharedTlb die else u, rights, d.label, chanMaster u k, pages,
    [], [], [], false, false⟩

/-- Enters the tile of a channel, for pages and rights; with no page the segment is mapped at once. -/
def chanTile (s : State) (u k : Nat) (d : Desc) (pages : List Nat) (rights : Nat) : State :=
  if pages.isEmpty then setChan s u k { chan s u k with state := .translating, tile := none }
  else
    let (t, s) := newTile s (moverTile s u k d pages rights)
    setChan s u k { chan s u k with state := .translating, tile := some t }

/-- The rights that a tile of data asks for. -/
def dataRights (d : Desc) (reads : Bool) : Nat :=
  (if d.sspace = 1 && reads then 1 else 0) + (if d.dspace = 1 then if d.red ≠ 0 then 4 else 2 else 0)

/-- Stalls a channel, some of whose locations are refused now (R547): its tile, or one made for these pages, posts its records, and
is translated afresh when it is replayed. -/
def refuseChan (s : State) (u k : Nat) (d : Desc) (pages : List Nat) (held : List Xlat) (ps : List (Nat × Place)) : State :=
  let c := chan s u k
  let s := setChan s u k { c with state := .translating }
  match c.tile.bind (fun t => (mfind s.tiles t).map (fun x => (t, x))) with
  | some (id, t) =>
    let s := refuseTile (unstall s id) id { t with pages := pagesOf (t.pages ++ pages), held := held ++ t.held } ps
    match mfind s.tiles id with
    | some n => if t.stalled then setTile s id { n with entries := (t.entries ++ n.entries).eraseDups } else s
    | none => s
  | none =>
    let (id, s) := fresh s
    refuseTile (setChan s u k { chan s u k with tile := some id }) id { moverTile s u k d pages (dataRights d true) with held := held } ps

/-- Bytes of index records that a BST tile row needs (R147). -/
def idxBytes (c : Chan) : Nat := c.list.foldl (· + ·) 0 * (bstOf c.hdr).it

/-- Where the index records lie that a channel has still to read. -/
def idxRest (d : Desc) (c : Chan) : Nat × Nat :=
  let b := bstOf c.hdr
  (d.src + b.index + c.rank * b.it + c.idx.length, idxBytes c - c.idx.length)

/-- The ranges a channel reads before data (R202, R150): a list, a BST tile row's metadata, index records as far as its tile goes, or a
header. -/
def stageRanges (d : Desc) (c : Chan) : List (Nat × Nat) :=
  let b := bstOf c.hdr
  let i := d.i0 + c.row / d.cj
  if c.stage = 3 then [(d.src, 64)]
  else if d.listed then [(d.aux + 512 * (c.row / 128), 4 * min 128 (d.ycount - c.row / 128 * 128))]
  else if c.stage = 1 then
    let t := i * b.cols
    [(d.src + b.bitmap + t / 8, (t + b.cols + 7) / 8 - t / 8), (d.src + b.rowbase + 4 * i, 8)]
  else [((idxRest d c).1, c.lim.2)]

/-- The space that they lie in. -/
def stageSpace (d : Desc) : Nat := if d.listed then d.lspace else d.sspace

/-- How many bytes of index records one tile reads: those of at most 128 pages (R292). -/
def idxPart (s : State) (d : Desc) (r : Nat × Nat) : Nat :=
  if stageSpace d ≠ 1 || fitsTile s d (rangePages [r]) then r.2 else (r.1 / 4096 + 128) * 4096 - r.1

/-- Spans that are not listed yet. -/
def addSpans (old new : List (Nat × Nat × Nat)) : List (Nat × Nat × Nat) := old ++ new.filter (fun x => !old.contains x)

/-- Begins a stage of reads before data: their pages enter translation. -/
def beginStage (s : State) (u k : Nat) (d : Desc) (stage : Nat) : State :=
  let c := chan s u k
  let c := { c with stage := stage, lim := if stage = 2 then (0, idxPart s d (idxRest d c)) else c.lim }
  let l := stageRanges d c
  let s := setChan s u k { c with spans := if d.listed then c.spans else addSpans c.spans (spansOf u d.sspace 0 l) }
  match spaceCheck s u d (stageSpace d) l with
  | some (e, a) => moverFail s u k d e a
  | none => chanTile s u k d (if stageSpace d = 1 then rangePages l else []) 1

/-- The destination bytes already written that a tile of data is to read: they are undefined (R204). -/
def rereads (u : Nat) (d : Desc) (c : Chan) (reads : List (Nat × Nat)) : List (Nat × Nat) :=
  let form (place a : Nat) : Nat := if d.dspace = 2 then (place - 1) * 2 ^ 32 + a else a
  (spansOf u d.sspace 0 reads).flatMap (fun r => c.spans.filterMap (fun w =>
    let lo := max r.2.1 w.2.1
    let hi := min (r.2.1 + r.2.2) (w.2.1 + w.2.2)
    if w.1 = r.1 + 1 && lo < hi then some (form (w.1 / 2) lo, hi - lo) else none))

/-- Begins the next tile of data: as much of the segment as touches at most 128 pages (R219, R292). -/
def beginData (s : State) (u k : Nat) (d : Desc) : State :=
  let c := { chan s u k with stage := 0 }
  let all := segPieces d c (tileEnd s d c)
  let t := tileTake s d c all.1 []
  let stop := match all.1.drop t.1.length with
    | [] => all.2
    | p :: _ => (p.row, p.ofs)
  let reads := t.1.flatMap (pieceReads d c)
  let writes := t.1.flatMap (pieceWrites d c)
  let s := freeRanges s u k d [] (if d.listed || d.op = dBst then rereads u d c reads else [])
  let c := { c with lim := stop, spans := addSpans c.spans (spansOf u d.sspace 0 reads ++ spansOf u d.dspace 1 writes) }
  let s := setChan s u k (if all.1.isEmpty then { c with row := stop.1, ofs := stop.2 } else c)
  match spaceCheck s u d d.sspace reads, spaceCheck s u d d.dspace writes with
  | some (e, a), _ => moverFail s u k d e a
  | none, some (e, a) => moverFail s u k d e a
  | none, none => chanTile s u k d t.2 (dataRights d (!reads.isEmpty))

/-- Does the place of a channel begin a segment whose list or tile row has not been read? -/
def needsStage (d : Desc) (c : Chan) : Option Nat :=
  if d.op = dBst then
    if c.hdr.isEmpty then some 3 else if c.list.isEmpty then some 1 else if c.idx.length < idxBytes c then some 2 else none
  else if d.listed && c.list.isEmpty then some 1 else none

/-- A channel at the start of a new segment: its list or tile row is read anew. -/
def newSeg (d : Desc) (c : Chan) : Chan :=
  if c.ofs = 0 && (d.op = dBst && c.row % d.cj = 0 || d.listed && c.row % 128 = 0) then { c with list := [], idx := [] } else c

/-- Goes on with a descriptor: the reads of its next segment, its next tile, or, past its last row, Draining. -/
def nextTile (s : State) (u k : Nat) (d : Desc) : State :=
  let c := chan s u k
  let s := match c.tile with
    | some t => dropTile s t
    | none => s
  if d.op ≠ dBst && pastEnd c.row c.ofs (d.rows, 0) || (d.op = dBst && d.rows ≤ c.row && !c.hdr.isEmpty) then
    setChan s u k { c with state := .draining, tile := none }
  else match needsStage d c with
    | some n => beginStage s u k d n
    | none => beginData s u k d

/-- Goes on with a descriptor past the end of a tile. -/
def nextSeg (s : State) (u k : Nat) (d : Desc) : State := nextTile (setChan s u k (newSeg d (chan s u k))) u k d

/-! ## DESC_FRONT and DESC_TRANSLATED (R215) -/

/-- Does the command of a descriptor go on: its context holds the Imago, or a step of a collective runs out (R391)? -/
def ownerHolds (s : State) (d : Desc) : Bool :=
  match d.owner with
  | .command _ c => holderOf s d.inst = some d.space || ((cmdOf s c).map Cmd.op) = some opCollective
  | _ => true

/-- May a channel's front descriptor begin: an XMOV descriptor only while its batch runs (R101, R104), a bulk one while its
channel is not off (R224) and its context holds the Imago? -/
def mayBegin (s : State) (u k : Nat) (d : Desc) : Bool :=
  if isBulk u then getF s f_TMV_BCH_CFG_USE (bulkNum u k) < 2 && ownerHolds s d else !isXmov d || batchRuns s u

/-- Is a bulk channel occupied by an action of a collective (R429)? -/
def collOn (s : State) (n : Nat) : Bool := s.colls.any (fun kv => kv.2.sendCh.contains n || kv.2.recvCh.contains n)

/-- Does a mover issue nothing: a core's while its wing is stopped or its clock, a bulk cluster's while masters are stopped (R483,
R485, R525)? -/
def moverStopped (s : State) (u : Nat) : Bool :=
  if isBulk u then mastersStopped s else wingStopped s (wingOf s u) || asleep s u

/-- DESC_FRONT: a descriptor at the front of its channel is checked under R201 and its first segment enters translation; a
CREDIT descriptor raises its line and completes (R203, R215). A descriptor restored with its channel goes on where it was
(R222). -/
def execDescFront (u k : Nat) (s : State) : Out :=
  .next (match frontDesc s u k with
    | none => s
    | some d =>
      if (chan s u k).state ≠ .idle || !mayBegin s u k d || moverStopped s u || (isBulk u && collOn s (bulkNum u k)) then s else
      match descCheck (isBulk u) d with
      | some e => moverFail s u k d e 0
      | none =>
        if d.op = dCredit then
          descOwner (popChan (raiseCredit s u d.line (d.aux % 65536)) u k) u k d 0 0 0
        else nextTile (match d.prog with
          | none => s
          | some p => setChan s u k { chan s u k with
              queue := { d with prog := none } :: (chan s u k).queue.drop 1
              begun := true, nextBurst := p.nextBurst, row := p.row, ofs := p.ofs, cnt := p.cnt, list := p.list
              hdr := p.hdr, rank := p.rank, idx := p.idx, skip := p.skip, flags := p.flags, paid := p.paid, spans := p.spans
              before := p.before, part := p.part }) u k d)

/-- The peer cores that ranges of a space lie on, with their instars (R358). -/
def peersOf (s : State) (u sp : Nat) (l : List (Nat × Nat)) : List (Nat × Nat) :=
  if sp ≠ 2 then [] else ((l.map (fun r => (scrPlace u 2 r.1).1)).eraseDups).map (fun c => (c, instarOf s (.core c)))

/-- Issues the reads of ranges in a space, as a burst that is then added to the channel. -/
def issueReads (s : State) (u k : Nat) (d : Desc) (sp : Nat) (last : Bool) (pieces : List Piece) (l : List (Nat × Nat))
    (go : Chan → Chan) : State :=
  let parts := if sp = 1 then lineParts l else []
  let held := chanHeld s u k
  let ps := heldPlaces s d held parts
  if anyRefused ps then refuseChan s u k d [] [] ps
  else
    let bad := anyKeyBad ps
    let (rs, s) := if bad then ([], s) else sendReads s u k d ps parts
    let (id, s) := fresh s
    let c := chan s u k
    let dst := pieces.flatMap (pieceWrites d c)
    let c := go c
    let s := setChan s u k { c with
      bursts := c.bursts ++ [⟨id, last, pieces, rs, held, false, [], peersOf s u sp l ++ peersOf s u d.dspace dst, dst⟩] }
    if bad then moverFail s u k d errKeyBad (l.headD (0, 0)).1 else s

/-- DESC_TRANSLATED: every page of a segment's tile is mapped: the channel is Ready, or reads what comes before data (R215,
R219). -/
def execDescTranslated (u k : Nat) (s : State) : Out :=
  .next (match frontDesc s u k with
    | none => s
    | some d =>
      let c := chan s u k
      let mapped := match c.tile with
        | none => true
        | some t => ((mfind s.tiles t).map tileReady).getD true
      if c.state ≠ .translating || !mapped || (c.stage ≠ 0 && !c.bursts.isEmpty) || moverStopped s u then s
      else if c.stage = 4 then setChan s u k { c with state := .draining, stage := 0 }
      else if c.stage = 0 then
        if pastEnd c.row c.ofs c.lim && c.bursts.all Burst.delivered then nextSeg s u k d
        else setChan s u k { c with
          state := .ready
          bursts := c.bursts.map (fun b => if b.delivered || !b.held.isEmpty then b else { b with held := chanHeld s u k }) }
      else issueReads s u k d (stageSpace d) false [] (stageRanges d c) id)

/-! ## Bursts (R212 to R214) -/

/-- Has a channel a burst ready: its next deliveries are translated, and, where a burst begins PACED, its line is not zero?
A stopping batch's descriptor goes on only if it has begun. -/
def burstReady (s : State) (u k : Nat) : Bool :=
  match frontDesc s u k with
  | none => false
  | some d =>
    let c := chan s u k
    c.state = .ready && !pastEnd c.row c.ofs c.lim && !chanWaits s u k && (if isBulk u then c.cnt ≠ 0 || mayBegin s u k d else c.begun || mayBegin s u k d)

/-- The channel that a mover picks: the lowest PRIO, and among equals the next after the one that last started (R213). -/
def pickChan (s : State) (u : Nat) : Option (Nat × Nat) :=
  let n := if isBulk u then 32 else 8
  let prio (k : Nat) : Nat := ((frontDesc s u k).map Desc.prio).getD 0
  let ready := (List.range n).filter (burstReady s u)
  match ready with
  | [] => none
  | k0 :: _ =>
    let p := ready.foldl (fun a k => min a (prio k)) (prio k0)
    let last := mget (n - 1) (mover s u).rr p
    let same := ready.filter (fun k => prio k = p)
    some (p, (same.find? (fun k => decide (last < k))).getD (same.headD 0))

/-- The deliveries of a channel's next burst, or of the part of it that the tile holds; whether it ends the burst; and where
the walk goes on. -/
def nextBurst (d : Desc) (c : Chan) : List Piece × Bool × (Nat × Nat) :=
  let left := d.burst - c.cnt
  let w := walkPieces d c c.lim (left + 129) c.row c.ofs left
  let n := w.1.foldl (fun a p => a + p.len) 0
  (w.1, n = left || pastEnd w.2.1 w.2.2 (d.rows, 0), w.2)

/-! ## Delivery -/

/-- Cores in diapause that peer accesses of ranges reach. -/
def sleepers (s : State) (u sp : Nat) (l : List (Nat × Nat)) : List Nat :=
  if sp ≠ 2 then [] else ((l.map (fun r => (scrPlace u 2 r.1).1)).eraseDups).filter (asleep s)

/-- The ranges of writes whose bytes a test marks. -/
def hitRanges (hit : Nat → Bool) (ws : List (Nat × List PByte)) : List (Nat × Nat) :=
  (ws.flatMap (fun w => (List.range w.2.length).map (fun i => w.1 + i))).filterMap (fun a => if hit a then some (a, 1) else none)

/-- Delivers a burst whose reads have returned: conversion, writes, and the raise of a burst written at once. Bytes that clash are
undefined. -/
def deliver (s : State) (u k : Nat) (d : Desc) (b : Burst) (parts : Parts) : State :=
  let c := chan s u k
  let reads := b.pieces.flatMap (pieceReads d c)
  let r := if d.sspace = 1 then (none, partByte parts, s) else scrReader s u d.sspace reads
  match r.1 with
  | some e => moverFail r.2.2 u k d e (reads.headD (0, 0)).1
  | none =>
    let (get, s) := readOver r.2.2 d c u reads r.2.1
    let outs := b.pieces.map (pieceOut d c get)
    let flags := outs.foldl (fun f o => f ||| o.2) 0
    let hit := clashes d c u
    let (ws, s) := if d.red = 0 then writeOver s hit (outs.flatMap Prod.fst) else (outs.flatMap Prod.fst, s)
    match putAll s u k d b.held ws with
    | .refused ps s =>
      let s := refuseChan s u k d (pagesOf (b.pieces.flatMap (piecePages d c))) b.held ps
      let c := chan s u k
      setChan s u k { c with bursts := c.bursts.map (fun x => if x.id = b.id then { x with held := [] } else x) }
    | .failed e a s => moverFail s u k d e a
    | .ok ids f s =>
      let s := dropReads (if d.red = 0 then s else freeRanges s u k d b.held (hitRanges hit ws)) b
      let s := match d.owner with
        | .command q _ => modQueue s q (fun v => { v with progress := s.now })
        | _ => s
      let c := chan s u k
      let c := { c with
        flags := c.flags ||| flags ||| f
        peerSince := none
        part := if b.last then [] else c.part ++ b.dst
        bursts := (c.bursts.map (fun x => if x.id = b.id then { x with delivered := true, writes := ids } else x)).filter (fun x =>
          !(x.delivered && x.writes.isEmpty)) }
      let s := setChan s u k c
      let s := if b.last && ids.isEmpty && d.bits 7 4 2 = 3 then raiseCredit s u (d.bits 7 0 4) 1 else s
      if pastEnd c.row c.ofs c.lim && c.bursts.all Burst.delivered then
        nextSeg s u k d
      else s

/-- The peer cores a burst must find awake; they are woken, and the wait is timed (R199). -/
def waitPeers (s : State) (u k : Nat) (l : List Nat) : State :=
  let s := l.foldl wakeCore s
  let c := chan s u k
  setChan s u k { c with peerSince := some (c.peerSince.getD s.now) }

/-- BURST_START: a mover picks a ready channel by PRIO and round robin, takes a credit if the burst is PACED, and issues the
burst's reads; one that reads nothing is delivered at once (R203, R212 to R214). -/
def execBurstStart (u : Nat) (s : State) : Out :=
  .next (if moverStopped s u then s else match pickChan s u with
    | none => s
    | some (p, k) => match frontDesc s u k with
      | none => s
      | some d =>
        let c := chan s u k
        let (pieces, last, stop) := nextBurst d c
        let n := pieces.foldl (fun a p => a + p.len) 0
        let s := if d.paced && c.cnt = 0 && !c.paid then
            setChan (setCredit s u d.line (credit s u d.line - 1)) u k { c with paid := true } else s
        let s := { s with movers := mput s.movers u { mover s u with rr := mput (mover s u).rr p k } }
        let reads := pieces.flatMap (pieceReads d c)
        let s := issueReads s u k d d.sspace last pieces reads (fun c => { c with
          begun := true, paid := false, nextBurst := c.nextBurst + (if c.cnt = 0 then 1 else 0)
          row := stop.1, ofs := stop.2, cnt := if last then 0 else c.cnt + n })
        if reads.isEmpty && (sleepers s u d.dspace (pieces.flatMap (pieceWrites d c))).isEmpty then
          match (chan s u k).bursts.find? (fun b => !b.delivered) with
          | some b => if b.pieces = pieces && !b.pieces.isEmpty then deliver s u k d b [] else s
          | none => s
        else s)

/-! ## Stages before data (R150, R154, R202) -/

/-- Ends a stage: the channel has what it read, and goes on. -/
def stageDone (s : State) (u k : Nat) (d : Desc) (f : Chan → Chan) : State :=
  nextTile (setChan s u k (f { chan s u k with bursts := [], stage := 0, peerSince := none })) u k d

/-- The bytes a stage has read, with their poison: none while a read is out; else an error or the bytes. -/
def stageBytes (s : State) (u : Nat) (k : Nat) (d : Desc) : Option (Nat × List PByte × State) :=
  let c := chan s u k
  match c.bursts with
  | [] => none
  | b :: _ => match burstParts s b with
    | none => none
    | some (e, parts) =>
      let ranges := stageRanges d c
      let r := if stageSpace d = 1 then (none, partByte parts, s) else scrReader s u (stageSpace d) ranges
      let bytes := ranges.flatMap (fun x => (List.range x.2).map (fun i => r.2.1 (x.1 + i)))
      some (if e ≠ 0 then e else r.1.getD 0, bytes, dropReads r.2.2 b)

/-- Checks that hold for every stage: the bytes read without error or poison (R154, R220). -/
def withStage (s : State) (u k stage : Nat) (d : Desc) (ok : List PByte → State → State) : State :=
  let c := chan s u k
  if c.stage ≠ stage || c.state ≠ .translating then s else
  let away := sleepers s u (stageSpace d) (stageRanges d c)
  if !away.isEmpty then waitPeers s u k away else
  match stageBytes s u k d with
  | none => s
  | some (e, bytes, s) =>
    if e ≠ 0 then moverFail s u k d e (stageRanges d c |>.headD (0, 0)).1
    else if bytes.any Prod.snd then moverFail s u k d errDataPoison (stageRanges d c |>.headD (0, 0)).1
    else ok bytes s

/-- BST_HEADER_RETURN: a BST transfer's header has arrived and is validated; an invalid one, or an extent or mode that it
does not fit, fails the transfer, which writes nothing (R149, R150, R154). -/
def execBstHeaderReturn (u k : Nat) (s : State) : Out :=
  .next (match frontDesc s u k with
    | none => s
    | some d =>
      if d.op ≠ dBst then s else withStage s u k 3 d (fun bytes s =>
        let h := bytes.map Prod.fst
        if !bstValid h then moverFail s u k d errBstFormat d.src
        else match bstFits d (bstOf h) with
          | some e => moverFail s u k d e d.src
          | none => stageDone s u k d (fun c => { c with hdr := h })))

/-- BST_TILE_ROW: the bitmap bits and row-base entries of a tile row have arrived; they are checked, and the row's index
records, or its tiles, come next (R150, step 2, and R154). -/
def execBstTileRow (u k : Nat) (s : State) : Out :=
  .next (match frontDesc s u k with
    | none => s
    | some d =>
      if d.op ≠ dBst then s else withStage s u k 1 d (fun bytes s =>
        let c := chan s u k
        let b := bstOf c.hdr
        let t := (d.i0 + c.row / d.cj) * b.cols
        let bits := leNat (bytes.map Prod.fst)
        let has (j : Nat) : Nat := b2n (bitAt bits (t % 8 + j))
        let n := (t + b.cols + 7) / 8 - t / 8
        let base (j : Nat) : Nat := leNat ((((bytes.drop n).drop (4 * j)).take 4).map Prod.fst)
        let ones := (List.range b.cols).foldl (fun a j => a + has j) 0
        if base 0 + ones ≠ base 1 || b.present < base 1 then moverFail s u k d errBstFormat d.src else
        let here := (List.range d.cj).map (fun j => has (d.j0 + j))
        let rank := base 0 + (List.range d.j0).foldl (fun a j => a + has j) 0
        let i := c.row / d.cj
        let skip := if i < 32 && here.all (fun x => x = 0) then c.skip + 2 ^ i else c.skip
        stageDone s u k d (fun c => { c with list := here, rank := rank, skip := skip, idx := [] })))

/-- The index records of a tile row, or those of one tile of at most 128 pages: EXPAND checks their positions once they are all here
(R134, R151, R154, R292). -/
def indexReturn (s : State) (u k : Nat) (d : Desc) : State :=
  withStage s u k 2 d (fun bytes s =>
    let c := { chan s u k with idx := (chan s u k).idx ++ bytes }
    if !d.pass && c.idx.length = idxBytes c && !bstPositionsOk c then moverFail s u k d errBstFormat d.src
    else stageDone s u k d (fun x => { x with idx := c.idx }))

/-- The list entries of a segment (R202). Rows that they place off their element size fail the descriptor (R201). -/
def listReturn (s : State) (u k : Nat) (d : Desc) : State :=
  withStage s u k 1 d (fun bytes s =>
    let l := bytes.map Prod.fst
    let c := { chan s u k with list := (List.range (l.length / 4)).map (fun i => leNat ((l.drop (4 * i)).take 4)) }
    if !listAligned d c then moverFail s u k d errMisaligned (stageRanges d c |>.headD (0, 0)).1
    else stageDone s u k d (fun x => { x with list := c.list }))

/-- MOVER_READ_RETURN: what a channel asked for returns: source data, which is converted and delivered to the write stage, or
list entries and BST index records (R202, R207, R208). Bursts that have started are performed whatever their channel's next tile waits
for (R305). A peer core whose instar has changed refuses the access (R358, R359). `ups` are the upsets of the scratchpad words it
reads. -/
def execMoverReadReturn (u k : Nat) (ups : List Upset) (s : State) : Out :=
  .next (match frontDesc s u k with
    | none => s
    | some d =>
      let s := if isBulk u then s else applyUpsets s u ups
      let c := chan s u k
      if c.stage = 2 then indexReturn s u k d
      else if c.stage = 1 && d.listed then listReturn s u k d
      else if c.stage ≠ 0 || (!isBulk u && asleep s u) then s
      else match c.bursts.find? (fun b => !b.delivered) with
        | none => s
        | some b =>
          if d.dspace = 1 && b.held.isEmpty then s else
          let away := sleepers s u d.sspace (b.pieces.flatMap (pieceReads d c))
            ++ sleepers s u d.dspace (b.pieces.flatMap (pieceWrites d c))
          if !away.isEmpty then waitPeers s u k away else
          match b.cores.find? (fun x => instarOf s (.core x.1) ≠ x.2) with
          | some x => moverFail (countStale s (.core x.1)) u k d errStaleTarget 0
          | none =>
          let reach := (spaceCheck s u d d.sspace (b.pieces.flatMap (pieceReads d c))).or
            (spaceCheck s u d d.dspace (b.pieces.flatMap (pieceWrites d c)))
          match reach, burstParts s b with
          | some (e, a), _ => moverFail s u k d e a
          | none, none => s
          | none, some (e, parts) =>
            if e ≠ 0 then moverFail (dropReads s b) u k d e (b.reads.headD (0, 0, 0)).2.1
            else deliver s u k d b parts)

/-- PEER_ACCESS_TIMEOUT: a peer access that waits for its core longer than TMV_PEER_TIMEOUT fails with SCRATCH_PEER
(R199). -/
def execPeerAccessTimeout (u k : Nat) (s : State) : Out :=
  .next (match frontDesc s u k, (chan s u k).peerSince with
    | some d, some t =>
      if dueRun s t (getF s f_TMV_PEER_TIMEOUT_US * usTicks) then moverFail s u k d errScratchPeer 0 else s
    | _, _ => s)

/-- DESC_COMPLETE: every write of a descriptor is performed and its reads have returned; the SKIPMAP word of a BST transfer
is written last (R153); then RAISE, the flags, and the queue entry is free (R214, R215, R218, R221). -/
def execDescComplete (u k : Nat) (s : State) : Out :=
  .next (match frontDesc s u k with
    | none => s
    | some d =>
      let c := chan s u k
      if c.state ≠ .draining || !c.bursts.isEmpty then s
      else if d.op = dBst && d.skipw && !c.skipSent then
        let w := (d.skipAt, (leBytes 4 c.skip).map (fun x => (x, false)))
        if (spaceCheck s u d d.dspace [(d.skipAt, 4)]).isSome then
          moverFail s u k d (((spaceCheck s u d d.dspace [(d.skipAt, 4)]).map Prod.fst).getD 0) d.skipAt
        else if d.dspace = 1 && c.tile.isNone then
          chanTile (setChan s u k { c with stage := 4 }) u k d (rangePages [(d.skipAt, 4)]) 2
        else if !(sleepers s u d.dspace [(d.skipAt, 4)]).isEmpty then waitPeers s u k (sleepers s u d.dspace [(d.skipAt, 4)])
        else match putAll s u k d (chanHeld s u k) [w] with
          | .refused ps s => refuseChan (setChan s u k { chan s u k with stage := 4 }) u k d (rangePages [(d.skipAt, 4)]) [] ps
          | .failed e a s => moverFail s u k d e a
          | .ok ids _ s =>
            let c := chan s u k
            setChan s u k { c with
              skipSent := true, peerSince := none, bursts := if ids.isEmpty then [] else [⟨0, false, [], [], [], true, ids, [], [(d.skipAt, 4)]⟩] }
      else
        let s := endDesc s u k
        let s := if d.bits 7 4 2 = 1 || (d.bits 7 4 2 = 3 && c.cnt ≠ 0) then raiseCredit s u (d.bits 7 0 4) 1 else s
        let s := if isBulk u then countR s r_TMV_BCH_DONE (bulkNum u k) 1 else s
        descOwner s u k d 0 0 c.flags)

end Sys2Proof.Machine
end

