-- ==== Sys2Proof/Machine/VInstr.lean ====
section
/-!
DEFINITION. The V instructions (R85 to R87): arithmetic in binary32 rounded once, comparisons, approximations, conversion
and the two reductions.
-/

namespace Sys2Proof.Machine

/-- A V instruction of `n` sources whose result is an exact value per lane, rounded once to binary32 (R52, R53, R59).
`nanIn` says whether an input is a NaN in a lane. -/
def vAlu (s : State) (t : Th) (n : Nat) (f : Group → Nat → FVal) (nanIn : Group → Nat → Bool) : State :=
  issueLocal s t (vWell t) (vUses t n) (fun g =>
    vResult g t (fun l => toF32 (flushOf s t.core) (nanIn g l) (f g l)))

/-- A lane's A, B and C as values. -/
def vValA (g : Group) (t : Th) (l : Nat) : FVal := f32 (rd g l (vA t))
def vValB (g : Group) (t : Th) (l : Nat) : FVal := f32 (rd g l (vBreg t))
def vValC (g : Group) (t : Th) (l : Nat) : FVal := f32 (rd g l (vC t))

/-- Is A or B a NaN in a lane? -/
def nanAB (t : Th) (g : Group) (l : Nat) : Bool := (vValA g t l).isNan || (vValB g t l).isNan

/-- FADD: A + B, correctly rounded (R85). -/
def execFadd (t : Th) (s : State) : Out :=
  .next (vAlu s t 2 (fun g l => faddX (vValA g t l) (vValB g t l)) (nanAB t))

/-- FSUB: A − B, correctly rounded (R85). -/
def execFsub (t : Th) (s : State) : Out :=
  .next (vAlu s t 2 (fun g l => faddX (vValA g t l) (vValB g t l).negate) (nanAB t))

/-- FMUL: A × B, correctly rounded (R85). -/
def execFmul (t : Th) (s : State) : Out :=
  .next (vAlu s t 2 (fun g l => fmulX (vValA g t l) (vValB g t l)) (nanAB t))

/-- FFMA: A × B + C with one rounding (R85). -/
def execFfma (t : Th) (s : State) : Out :=
  .next (vAlu s t 3 (fun g l => faddX (fmulX (vValA g t l) (vValB g t l)) (vValC g t l))
    (fun g l => nanAB t g l || (vValC g t l).isNan))

/-- The minimum of R85: the other operand of a NaN, and −0 below +0. -/
def fminX (a b : FVal) : FVal := if a.isNan then b else if b.isNan then a else if fbelow b a then b else a

/-- The maximum of R85. -/
def fmaxX (a b : FVal) : FVal := if a.isNan then b else if b.isNan then a else if fbelow a b then b else a

/-- FMIN (R85): exact. -/
def execFmin (t : Th) (s : State) : Out :=
  .next (vAlu s t 2 (fun g l => fminX (vValA g t l) (vValB g t l)) (nanAB t))

/-- FMAX (R85): exact. -/
def execFmax (t : Th) (s : State) : Out :=
  .next (vAlu s t 2 (fun g l => fmaxX (vValA g t l) (vValB g t l)) (nanAB t))

/-- FABS (R85): exact. -/
def execFabs (t : Th) (s : State) : Out :=
  .next (vAlu s t 1 (fun g l => (vValA g t l).abs) (fun g l => (vValA g t l).isNan))

/-- FNEG (R85): exact. -/
def execFneg (t : Th) (s : State) : Out :=
  .next (vAlu s t 1 (fun g l => (vValA g t l).negate) (fun g l => (vValA g t l).isNan))

/-- FSQRT (R85): correctly rounded; a negative operand other than −0 is invalid (R53). -/
def execFsqrt (t : Th) (s : State) : Out :=
  .next (vAlu s t 1 (fun g l => fsqrtX (vValA g t l)) (fun g l => (vValA g t l).isNan))

/-- FSETP: the p register D[2:0] receives the comparison of A with B (R85); conditions 0 to 4 are EQ, NE, LT, LE, UN. -/
def execFsetp (cond : BitVec 3) (t : Th) (s : State) : Out :=
  .next (issueLocal s t (vWell t && vD t < 8 && cond.toNat < 5) [usesPred t, 0x70 + vD t, vA t, vBreg t] (fun g =>
    wr g (0x70 + vD t) (execMask g t) (fun l => if fsetpCond cond.toNat (vValA g t l) (vValB g t l) then 1 else 0)))

/-! ## Approximations -/

/-- One unit in the last place of a binary32 value's magnitude, as its power of two. -/
def ulpExp (w : Word) : Int := max (((w.toNat / 2 ^ 23) % 256 : Nat) : Int) 1 - 150

/-- Is |d × a − 1| at most `n` ulp of d, in magnitude times |a|? The bound of FRCP, for finite non-zero operands. -/
def rcpBound (n : Nat) (a d : Word) : Bool :=
  match f32 a, f32 d with
  | .fin na ma ea, .fin nd md ed =>
    let err := sumInt [.fin (na != nd) (ma * md) (ea + ed), .fin true 1 0]
    let lim := FVal.fin false (ma * n) (ea + ulpExp d)
    !fltX lim (ofInt err.1 err.2).abs
  | _, _ => true

/-- Is d within `n` ulp of 1/√a, for a finite positive a? (d − n ulp)² × a ≤ 1 ≤ (d + n ulp)² × a. -/
def rsqBound (n : Nat) (a d : Word) : Bool :=
  match f32 a, f32 d with
  | .fin false ma ea, .fin false md ed =>
    let u := FVal.fin false n (ulpExp d)
    let lo := faddX (.fin false md ed) u.negate
    let hi := faddX (.fin false md ed) u
    let sq (x : FVal) := fmulX (fmulX x x) (.fin false ma ea)
    (lo.sign || !fltX (.fin false 1 0) (sq lo)) && !fltX (sq hi) (.fin false 1 0)
  | _, _ => true

/-- The correctly rounded reciprocal, used where the free value would break the bound. -/
def rcpExact (a : Word) : Word :=
  match f32 a with
  | .fin n m e =>
    let q := 2 ^ 320 / m
    (toF32 false false (.fin n (2 * q + (if q * m = 2 ^ 320 then 0 else 1)) (-e - 321))).1
  | _ => 0

/-- The correctly rounded reciprocal square root of a positive value. -/
def rsqExact (a : Word) : Word :=
  match f32 a with
  | .fin _ m e =>
    let odd : Nat := (e % 2).toNat
    let q := 2 ^ 640 / (m * 2 ^ odd)
    let r := isqrt q
    (toF32 false false (.fin false (2 * r + 1) (-(e - odd) / 2 - 321))).1
  | _ => 0

/-- A finite value in units of 2⁻⁹⁶, held to magnitudes up to 2⁹. -/
def fixOf (v : FVal) : Int :=
  match v with
  | .fin n m e =>
    let q : Nat := if fltX (.fin false 512 0) v.abs then 512 * 2 ^ 96
      else if 0 ≤ e + 96 then m * 2 ^ (e + 96).toNat else m / 2 ^ (-(e + 96)).toNat
    if n then -(q : Int) else q
  | .inf n => if n then -(512 * 2 ^ 96) else 512 * 2 ^ 96
  | .nan => 0

/-- 2 to a power given in units of 2⁻⁹⁶, to more than 80 bits: the product of the roots 2^(2⁻ⁱ) that the fraction's bits name. -/
def exp2Ref (x : Int) : FVal :=
  let f := (x % 2 ^ 96).toNat
  let r := (List.range 96).foldl (fun (p : Nat × Nat) i =>
    let c := isqrt (p.1 * 2 ^ 96)
    (c, if bitAt f (95 - i) then p.2 * c / 2 ^ 96 else p.2)) (2 ^ 97, 2 ^ 96)
  .fin false r.2 (x / 2 ^ 96 - 96)

/-- log₂ of a positive value, to more than 60 bits below the point: the fraction's bits by repeated squaring. -/
def log2Ref (v : FVal) : FVal :=
  match v with
  | .fin _ m e =>
    let b := bitLen m
    let r := (List.range 80).foldl (fun (p : Nat × Nat) _ =>
      let y := p.1 * p.1 / 2 ^ 128
      if 2 ^ 129 ≤ y then (y / 2, 2 * p.2 + 1) else (y, 2 * p.2)) (m * 2 ^ 129 / 2 ^ b, 0)
    ofInt ((e + b - 1) * 2 ^ 80 + r.2) (-80)
  | _ => v

/-- log₂ e in units of 2⁻⁹⁶. -/
def log2eFix : Nat := 0x171547652B82FE1777D0FFDA0

/-- A quotient of two positive fixed-point numbers of one unit, in units of 2⁻⁹⁶. -/
def ratio (x y : Int) : FVal := ofInt (x * 2 ^ 96 / y) (-96)

/-- What FEXP2, FLOG2, FTANH and FSIGM approximate at an operand (R85), far closer than their bounds: none where the operand has
no such value. -/
def approxRef (op : Nat) (a : Word) : Option FVal :=
  let v := f32 a
  let x := fixOf v
  let e (k : Int) : Int := (exp2Ref (k * log2eFix / 2 ^ 96)).intAt (-900)
  let one : Int := FVal.intAt (-900) (.fin false 1 0)
  if v.isNan then none
  else if op = 0x13 then some (exp2Ref x)
  else if op = 0x14 then if v.isZero || v.sign || v.isInf then none else some (log2Ref v)
  else if op = 0x15 then let k := e (2 * max (-(64 * 2 ^ 96)) (min (64 * 2 ^ 96) x)); some (ratio (k - one) (k + one))
  else if op = 0x16 then some (ratio one (one + e (-(max (-(256 * 2 ^ 96)) (min (256 * 2 ^ 96) x)))))
  else none

/-- Does a candidate lie within the stated error of what it approximates (R85): 2 ulp for FEXP2, and for FLOG2 outside [0.5, 2];
2⁻²² for FLOG2 inside it and for FSIGM; 2⁻²¹ for FTANH? The bounds are widened by one part in 2³², far more than the reference is
off. An infinity stands where the reference rounds to one. -/
def approxBound (op : Nat) (a d : Word) (ref : FVal) : Bool :=
  let v := f32 a
  let inner := !fltX v (.fin false 1 (-1)) && !fltX (.fin false 2 0) v
  let lim := if op = 0x13 || (op = 0x14 && !inner) then FVal.fin false (2 ^ 33 + 1) (ulpExp d - 32)
    else .fin false (2 ^ 32 + 1) ((if op = 0x15 then -21 else -22) - 32)
  if (f32 d).isInf then (toF32 false false ref).1 = d else !fltX lim (faddX (f32 d) ref.negate).abs

/-- The result of an approximation: the free function of the operand, with a NaN operand giving the canonical NaN (R42), held
to the error that R85 states: a candidate beyond it gives way to the rounded value. `op` is the opcode. -/
def approxOf (op : Nat) (a : Word) : Word :=
  let d := Config.approx op a
  if (f32 a).isNan || (f32 d).isNan then canonNaN
  else if op = 0x10 && !(f32 a).isZero && !(f32 a).isInf && !rcpBound 1 a d then rcpExact a
  else if op = 0x11 && !(f32 a).isZero && !(f32 a).isInf && !(f32 a).sign && !rsqBound 2 a d then rsqExact a
  else match approxRef op a with
    | some ref => if approxBound op a d ref then d else (toF32 false false ref).1
    | none => d

/-- The value and flags of an approximation (R53, R59): INVALID when a NaN comes from an operand that is none, OVERFLOW
when a finite non-zero operand gives an infinity. -/
def approxResult (op : Nat) (flush : Bool) (a : Word) : Word × Flags :=
  let v := f32 (approxOf op a)
  let r := toF32 flush (f32 a).isNan v
  if v.isInf && !(f32 a).isInf && !(f32 a).isZero then (r.1, r.2 ||| flOverflow) else r

/-- The shape of the six approximations. -/
def vApprox (s : State) (t : Th) (op : Nat) : State :=
  issueLocal s t (vWell t) (vUses t 1) (fun g =>
    vResult g t (fun l => approxResult op (flushOf s t.core) (rd g l (vA t))))

/-- FRCP (R85). -/
def execFrcp (t : Th) (s : State) : Out := .next (vApprox s t 0x10)

/-- FRSQ (R85). -/
def execFrsq (t : Th) (s : State) : Out := .next (vApprox s t 0x11)

/-- FEXP2 (R85). -/
def execFexp2 (t : Th) (s : State) : Out := .next (vApprox s t 0x13)

/-- FLOG2 (R85). -/
def execFlog2 (t : Th) (s : State) : Out := .next (vApprox s t 0x14)

/-- FTANH (R85). -/
def execFtanh (t : Th) (s : State) : Out := .next (vApprox s t 0x15)

/-- FSIGM (R85). -/
def execFsigm (t : Th) (s : State) : Out := .next (vApprox s t 0x16)

/-! ## Conversion (R86) -/

/-- The formats CVT accepts: FP32, FP16, BF16, E4M3, E5M2, INT8, INT32 (R54). -/
def cvtFmt (c : Nat) : Bool := c = 0 || c = 1 || c = 2 || c = 3 || c = 4 || c = 0xB || c = 0xD

/-- Is an element number in range for its format (R86)? -/
def elemOk (fmt i : Nat) : Bool := i < 32 / max (elemBits fmt) 1

/-- One lane of CVT: element SELEM of A in SFMT, converted to DFMT and written to element DELEM of D (R86). -/
def cvtLane (g : Group) (t : Th) (flush : Bool) (l : Nat) : Word × Flags :=
  let sb := elemBits (vSfmt t)
  let db := elemBits (vDfmt t)
  match elemOf (vSfmt t), elemOf (vDfmt t) with
  | some se, some de =>
    let src := decodeElem se (bitsOf (rd g l (vA t)).toNat (sb * vSelem t) sb)
    let r := toElem de .rne (vSat t) flush src
    if db = 32 then (BitVec.ofNat 32 r.1, r.2)
    else (BitVec.ofNat 32 (setBits (rd g l (vD t)).toNat (db * vDelem t) db r.1), r.2)
  | _, _ => (rd g l (vD t), 0)

/-- CVT (R86). -/
def execCvt (t : Th) (s : State) : Out :=
  .next (issueLocal s t
    (vWell t && cvtFmt (vSfmt t) && cvtFmt (vDfmt t) && elemOk (vSfmt t) (vSelem t) && elemOk (vDfmt t) (vDelem t))
    (vUses t 1) (fun g => vResult g t (cvtLane g t (flushOf s t.core))))

/-! ## Reductions (R87) -/

/-- One level of the FREDADD tree: adjacent pairs, the lower first, each sum rounded and flushed (R87). -/
def redLevel (flush : Bool) : List Word → List Word × Flags
  | a :: b :: rest =>
    let r := toF32 flush ((f32 a).isNan || (f32 b).isNan) (faddX (f32 a) (f32 b))
    let q := redLevel flush rest
    (r.1 :: q.1, r.2 ||| q.2)
  | l => (l, 0)

/-- The FREDADD tree of `n` levels. -/
def redTree (flush : Bool) : Nat → List Word → List Word × Flags
  | 0, l => (l, 0)
  | n + 1, l =>
    let r := redLevel flush l
    let q := redTree flush n r.1
    (q.1, r.2 ||| q.2)

/-- The shape of FREDADD and FREDMAX: nothing when no lane executes, else the result in every active lane (R87). -/
def vReduce (s : State) (t : Th) (f : Group → Word → Word × Flags) : State :=
  issueLocal s t (vWell t) (vUses t 1) (fun g =>
    let m := execMask g t
    if m = 0 then g else
    let r := f g m
    raiseFlags (wr g (vD t) g.active (fun _ => r.1)) r.2)

/-- FREDADD: the fixed-tree sum of A over the executing lanes; other lanes contribute −0 (R87). -/
def execFredadd (t : Th) (s : State) : Out :=
  .next (vReduce s t (fun g m =>
    let vs := (List.range 32).map (fun l => if m.getLsbD l then rd g l (vA t) else 0x80000000)
    let r := redTree (flushOf s t.core) 5 vs
    (r.1.headD 0, r.2)))

/-- FREDMAX: the maximum of A over the executing lanes under FMAX's ordering; the canonical NaN only when every one is a
NaN (R87). -/
def execFredmax (t : Th) (s : State) : Out :=
  .next (vReduce s t (fun g m =>
    let vs := ((List.range 32).filter (fun l => m.getLsbD l)).map (fun l => f32 (rd g l (vA t)))
    toF32 (flushOf s t.core) true (vs.foldl fmaxX .nan)))

end Sys2Proof.Machine
end

