-- ==== Sys2Proof/Machine/GateMath.lean ====
section
/-!
DEFINITION. What a Gate unit computes (R160 to R171, R176 to R179): fields of a dispatch block and their checks, scores,
selection, capacity, weights, combination, exit predicates, and predictor records.
-/

namespace Sys2Proof.Machine

/-! ## The dispatch block (R160, R161) -/

/-- A little-endian field of a dispatch block. -/
def GateJob.num (j : GateJob) (o n : Nat) : Nat := leNat ((j.block.drop o).take n)

def GateJob.op (j : GateJob) : Nat := j.num 0 1
def GateJob.wing (j : GateJob) : Nat := j.num 1 1
def GateJob.k (j : GateJob) : Nat := j.num 2 1
def GateJob.redirect (j : GateJob) : Nat := j.num 3 1
def GateJob.experts (j : GateJob) : Nat := j.num 4 2
def GateJob.flags (j : GateJob) : Nat := j.num 6 2
def GateJob.runahead (j : GateJob) : Bool := bitAt j.flags 0
def GateJob.renorm (j : GateJob) : Bool := bitAt j.flags 1
def GateJob.score (j : GateJob) : Nat := bitsOf j.flags 2 2
def GateJob.policyNext (j : GateJob) : Bool := bitAt j.flags 4
def GateJob.resid (j : GateJob) : Bool := bitAt j.flags 5
def GateJob.sat (j : GateJob) : Bool := bitAt j.flags 6
def GateJob.ch (j : GateJob) : Nat := bitsOf j.flags 7 3
def GateJob.exitPred (j : GateJob) : Nat := bitsOf j.flags 10 2
def GateJob.tokens (j : GateJob) : Nat := j.num 8 4
def GateJob.capacity (j : GateJob) : Nat := j.num 0xC 4
def GateJob.logitRegion (j : GateJob) : Nat := j.num 0x10 4
def GateJob.logitOfs (j : GateJob) : Nat := j.num 0x14 4
def GateJob.logitPitch (j : GateJob) : Nat := j.num 0x18 2
def GateJob.logitFmt (j : GateJob) : Nat := j.num 0x1A 1
def GateJob.srcCount (j : GateJob) : Nat := j.num 0x1B 1
def GateJob.selBias (j : GateJob) : Nat := j.num 0x20 8
def GateJob.wscale (j : GateJob) : Word := BitVec.ofNat 32 (j.num 0x28 4)
def GateJob.thresh (j : GateJob) : Word := BitVec.ofNat 32 (j.num 0x2C 4)
def GateJob.live (j : GateJob) : Nat := j.num 0x30 8
def GateJob.tokrec (j : GateJob) : Nat := j.num 0x38 8
def GateJob.explist (j : GateJob) : Nat := j.num 0x40 8
def GateJob.expcount (j : GateJob) : Nat := j.num 0x48 8
def GateJob.token (j : GateJob) : Nat := j.num 0x50 8
def GateJob.expbuf (j : GateJob) : Nat := j.num 0x58 8
def GateJob.expStride (j : GateJob) : Nat := j.num 0x60 8
def GateJob.outVa (j : GateJob) : Nat := j.num 0x68 8
def GateJob.rowElems (j : GateJob) : Nat := j.num 0x70 4
def GateJob.pitch (j : GateJob) : Nat := j.num 0x74 4
def GateJob.tfmt (j : GateJob) : Nat := j.num 0x78 1
def GateJob.efmt (j : GateJob) : Nat := j.num 0x79 1
def GateJob.ofmt (j : GateJob) : Nat := j.num 0x7A 1
def GateJob.summary (j : GateJob) : Nat := j.num 0x80 8
def GateJob.pred (j : GateJob) : Nat := j.num 0x88 8
def GateJob.nextPred (j : GateJob) : Nat := j.num 0x90 8
def GateJob.nextWeight (j : GateJob) : Nat := j.num 0x98 8
def GateJob.nextStride (j : GateJob) : Nat := j.num 0xA0 8
def GateJob.fetchBytes (j : GateJob) : Nat := j.num 0xA8 4
def GateJob.specRegion (j : GateJob) : Nat := j.num 0xAC 4
def GateJob.predThresh (j : GateJob) : Nat := j.num 0xB0 2
def GateJob.predictMax (j : GateJob) : Nat := j.num 0xB2 1
def GateJob.nslot (j : GateJob) : Nat := j.num 0xB3 1

/-- Entry `i` of SRC_LIST: its core and token count. -/
def GateJob.src (j : GateJob) (i : Nat) : Nat × Nat := (j.num (0xB8 + 4 * i) 1, j.num (0xB9 + 4 * i) 2)

/-- The source list. -/
def GateJob.srcs (j : GateJob) : List (Nat × Nat) := (List.range j.srcCount).map j.src

/-- The source cores. -/
def GateJob.cores (j : GateJob) : List Nat := j.srcs.map Prod.fst

/-- The addresses that an operation reads in its block. -/
def GateJob.addrs (j : GateJob) : List Nat :=
  [j.live, j.summary]
    ++ (if j.op = 0 then [j.selBias, j.tokrec, j.explist, j.expcount, j.token, j.expbuf, j.pred, j.nextWeight] else [])
    ++ (if j.op = 0 && j.runahead then [j.nextPred] else [])
    ++ (if j.op = 1 then [j.tokrec, j.token, j.expbuf, j.outVa] else [])

/-- Reserved parts of a block, zero for every operation. -/
def gateReserved (j : GateJob) : Bool :=
  j.op ≤ 2 && j.wing < 8 && j.k < 16 && j.redirect < 16 && j.flags < 4096 && j.num 0x1C 4 = 0 && j.num 0x7B 5 = 0
    && j.num 0xB4 4 = 0
    && (List.range 18).all (fun i => if i < j.srcCount then j.num (0xBB + 4 * i) 1 = 0 else j.num (0xB8 + 4 * i) 4 = 0)

/-- The rules on the fields that ROUTE reads: those of run-ahead too, NEXT_PRED_VA only when it is asked for. -/
def routeOk (j : GateJob) : Bool :=
  j.redirect ≤ 8 && j.k + j.redirect ≤ 16 && j.explist % 4 = 0 && j.expcount % 4 = 0 && j.pred % 4096 = 0
    && (!j.runahead || j.nextPred % 4096 = 0) && j.fetchBytes % 4096 = 0 && 4096 ≤ j.fetchBytes
    && j.fetchBytes ≤ j.nextStride && j.specRegion ≠ 0 && 1 ≤ j.predThresh && j.predThresh ≤ 1023
    && 1 ≤ j.predictMax && j.predictMax ≤ 16 && 1 ≤ j.nslot && j.nslot ≤ 16

/-- The rules of R160 and R161. -/
def gateParamOk (j : GateJob) : Bool :=
  gateReserved j && j.label ≠ 7 && j.score ≤ 1 && j.exitPred ≠ 3
    && 1 ≤ j.experts && j.experts ≤ 1024 && 1 ≤ j.tokens && j.tokens ≤ 65536 && 1 ≤ j.srcCount && j.srcCount ≤ 18
    && (j.srcs.map Prod.snd).foldl (· + ·) 0 = j.tokens && j.cores.eraseDups.length = j.srcCount
    && j.addrs.all (fun a => a < 2 ^ 49) && j.summary % 64 = 0
    && (j.op = 2 || (1 ≤ j.k && j.k ≤ 8 && j.k ≤ j.experts && 1 ≤ j.capacity && j.capacity ≤ 65535 && j.tokrec % 64 = 0
      && j.rowElems % 32 = 0 && 32 ≤ j.rowElems && j.rowElems ≤ 8192 && j.tfmt ≤ 4 && j.efmt ≤ 4
      && (j.tfmt = j.efmt || moverPair j.tfmt j.efmt)))
    && (j.op = 1 || (j.logitRegion ≠ 0 && j.logitOfs % 4 = 0 && j.logitPitch % 4 = 0 && (j.logitFmt = 0 || j.logitFmt = 2)
      && j.experts * (if j.logitFmt = 0 then 4 else 2) ≤ j.logitPitch))
    && (j.op ≠ 0 || routeOk j) && (j.op ≠ 1 || j.ofmt ≤ 2)
    && (j.op ≠ 2 || (j.live ≠ 0 && (j.exitPred ≠ 2 || 2 ≤ j.experts)))

/-! ## Scores and selection (R162 to R164) -/

/-- A quotient, exact enough to round once to binary32. -/
def fdivX (a b : FVal) : FVal :=
  match a, b with
  | .fin n m e, .fin n' m' e' =>
    if m' = 0 then if m = 0 then .nan else .inf (n != n')
    else
      let k := 64 + bitLen m'
      let q := m * 2 ^ k / m'
      .fin (n != n') (2 * q + (if q * m' = m * 2 ^ k then 0 else 1)) (e - e' - k - 1)
  | .inf n, .fin n' _ _ => .inf (n != n')
  | .fin n _ _, .inf n' => .fin (n != n') 0 0
  | _, _ => .nan

/-- One binary32 step, rounded once (R52). -/
def rnd32 (v : FVal) : Word := (toF32 false true v).1

/-- The sum of words by the tree of R87 within groups of 32, then over the group sums. -/
def sum32 (l : List Word) : Word :=
  let pad (x : List Word) : List Word := (List.range 32).map (fun i => x.getD i 0x80000000)
  let tree (x : List Word) : Word := (redTree false 5 (pad x)).1.headD 0
  tree ((List.range ((l.length + 31) / 32)).map (fun g => tree ((l.drop (32 * g)).take 32)))

/-- The binary32 nearest log₂ e. -/
def log2e : Word := 0x3FB8AA3B

/-- Softmax probabilities (R163). -/
def softmax (x : List Word) : List Word :=
  let m := x.foldl (fun m v => if fltX (f32 m) (f32 v) then v else m) (x.headD 0)
  let p := x.map (fun v =>
    (approxResult 0x13 false (rnd32 (fmulX (f32 (rnd32 (faddX (f32 v) (f32 m).negate))) (f32 log2e)))).1)
  let t := sum32 p
  p.map (fun v => rnd32 (fdivX (f32 v) (f32 t)))

/-- The scores of a token's logits (R163). -/
def gateScores (j : GateJob) (x : List Word) : List Word :=
  if j.score = 0 then softmax x else x.map (fun v => (approxResult 0x16 false v).1)

/-- Inserts an expert into an order by value, descending; among equals the earlier stays ahead. -/
def insertDesc (e : Nat × FVal) : List (Nat × FVal) → List (Nat × FVal)
  | [] => [e]
  | x :: xs => if fltX x.2 e.2 then e :: x :: xs else x :: insertDesc e xs

/-- The first `n` experts by selection value (R164). -/
def gateOrder (vs : List FVal) (n : Nat) : List Nat :=
  ((((List.range vs.length).zip vs).foldl (fun l e => insertDesc e l) []).take n).map Prod.fst

/-- A routed token: its number, scores, and candidate list. -/
structure TokSel where
  tok : Nat
  scores : List Word
  cands : List Nat
  deriving DecidableEq, Repr

/-! ## Capacity and weights (R165, R166) -/

/-- The outcome for a choice: its rank, the expert placed or, dropped, the original choice, and its position. -/
structure Choice where
  rank : Nat
  expert : Nat
  pos : Nat
  redirected : Bool
  dropped : Bool
  deriving DecidableEq, Repr

/-- The state of the capacity pass: counts by expert, choices by token, and experts a token was redirected to. -/
structure CapState where
  count : SMap Nat
  choices : SMap (List Choice)
  redir : SMap (List Nat)
  deriving DecidableEq, Repr

/-- Notes a choice. -/
def CapState.add (c : CapState) (t : Nat) (x : Choice) : CapState :=
  { c with
    choices := mput c.choices t (mget [] c.choices t ++ [x])
    count := if x.dropped then c.count else mput c.count x.expert (x.pos + 1)
    redir := if x.redirected then mput c.redir t (mget [] c.redir t ++ [x.expert]) else c.redir }

/-- One choice of the capacity pass (R165). -/
def placeChoice (j : GateJob) (r : Nat) (c : CapState) (t : TokSel) : CapState :=
  let e := t.cands.getD r 0
  let n := mget 0 c.count e
  if n < j.capacity then c.add t.tok ⟨r, e, n, false, false⟩
  else
    let held := t.cands.take j.k ++ mget [] c.redir t.tok
    let alt := if j.policyNext then
        (t.cands.drop j.k).find? (fun x => !held.contains x && mget 0 c.count x < j.capacity)
      else none
    match alt with
    | some x => c.add t.tok ⟨r, x, mget 0 c.count x, true, false⟩
    | none => c.add t.tok ⟨r, e, 0xFFFF, false, true⟩

/-- The capacity pass: rank by rank, within a rank by token. -/
def gateAssign (j : GateJob) (ts : List TokSel) : CapState :=
  (List.range j.k).foldl (fun c r => ts.foldl (placeChoice j r) c) ⟨[], [], []⟩

/-- The weights of a token's choices, by rank (R166). -/
def gateWeights (j : GateJob) (t : TokSel) (cs : List Choice) : List Word :=
  let w (c : Choice) : Word := t.scores.getD c.expert 0
  let placed := cs.filter (fun c => !c.dropped)
  let sum : Option Word := placed.foldl (fun (a : Option Word) c => match a with
    | none => some (w c)
    | some x => some (rnd32 (faddX (f32 x) (f32 (w c))))) none
  let s := sum.getD 0
  cs.map (fun c =>
    if c.dropped then 0 else
    let v := if j.renorm && !(f32 s).isZero then rnd32 (fdivX (f32 (w c)) (f32 s)) else w c
    rnd32 (fmulX (f32 v) (f32 j.wscale)))

/-! ## Token records (R167) -/

/-- An unused entry. -/
def emptyEntry : List Byte := leBytes 8 0xFFFF07FF

/-- The entry of a choice. -/
def choiceEntry (c : Choice) (w : Word) : List Byte :=
  leBytes 4 (c.expert + 2048 * b2n c.redirected + 4096 * b2n c.dropped + 65536 * c.pos) ++ leBytes 4 w.toNat

/-- The record of a token: of one routed, not live (flag bit 13) or NaN (bit 14). -/
def tokenRecord (j : GateJob) (es : List (List Byte)) : List Byte :=
  es.flatten ++ (List.replicate (8 - j.k) emptyEntry).flatten
def idleRecord (j : GateJob) (bit : Nat) : List Byte :=
  tokenRecord j (List.replicate j.k (leBytes 8 (0x7FF + 2 ^ bit + 65536 * 0xFFFF)))

/-! ## Predictor records (R176 to R179) -/

/-- Fields of a record. -/
def predNum (p : List Byte) (o n : Nat) : Nat := leNat ((p.drop o).take n)

/-- A counter of the table at an offset. -/
def predCounter (p : List Byte) (o e : Nat) : Nat := bitsOf (predNum p (o + e / 2) 1) (4 * (e % 2)) 4

/-- Packs counters of 4 bits into 512 bytes. -/
def packCounters (l : List Nat) : List Byte :=
  (List.range 512).map (fun i => BitVec.ofNat 8 (l.getD (2 * i) 0 + 16 * l.getD (2 * i + 1) 0))

/-- Is a record bad (R177)? `experts` is the NUM_EXPERTS it must have, if any. -/
def predBad (p : List Byte) (experts : Option Nat) : Bool :=
  predNum p 0 4 ≠ 0x31445250 || 1 < predNum p 8 1 || 1 < predNum p 9 1
    || (match experts with
      | some n => predNum p 6 2 ≠ n
      | none => false)

/-- Must a record be initialised (R177)? -/
def predStale (p : List Byte) (wgen : Nat) : Bool := predNum p 8 1 = 0 || predNum p 0xC 4 ≠ wgen

/-- Initialises a record (R177). -/
def predInit (p : List Byte) (wgen : Nat) : List Byte :=
  let n := 1024
  let counters := if predNum p 9 1 = 1 then (List.range n).map (predCounter p 0x240) else List.replicate n 0
  p.take 8 ++ [1] ++ (p.drop 9).take 1 ++ [0, 0] ++ leBytes 4 wgen ++ leBytes 4 0 ++ (p.drop 0x14).take 44
    ++ packCounters counters ++ p.drop 0x240

/-- Eight experts padded with 0xFFFF. -/
def padEight (l : List Nat) : List Byte := ((List.range 8).map (fun i => leBytes 2 (l.getD i 0xFFFF))).flatten

/-- The update of a record after a decision (R178). -/
def predUpdate (p : List Byte) (used top cause : List Nat) : List Byte :=
  let n := predNum p 6 2
  let step (e : Nat) : Nat :=
    let c := predCounter p 0x40 e
    if n ≤ e then c else if used.contains e then min 15 (c + 3) else c - 1
  let head := predNum p 0xA 1 % 64
  let p1 := p.take 0x40 ++ packCounters ((List.range 1024).map step) ++ p.drop 0x240
  let o := 0x440 + 32 * head
  let p2 := p1.take o ++ padEight cause ++ padEight top ++ p1.drop (o + 32)
  p2.take 0xA ++ [BitVec.ofNat 8 ((head + 1) % 64), BitVec.ofNat 8 (min 64 (predNum p 0xB 1 + 1))]
    ++ (p2.drop 0xC).take 4 ++ leBytes 4 (min (2 ^ 32 - 1) (predNum p 0x10 4 + 1)) ++ p2.drop 0x14

/-- The top set: at most eight experts by count descending, ties to the lower index. -/
def topSet (used : List (Nat × Nat)) : List Nat :=
  let ins (l : List (Nat × Nat)) (e : Nat × Nat) : List (Nat × Nat) :=
    l.takeWhile (fun x => decide (e.2 ≤ x.2)) ++ [e] ++ l.dropWhile (fun x => decide (e.2 ≤ x.2))
  ((used.foldl ins []).take 8).map Prod.fst

/-- The valid history entries of a record: CAUSE and EFFECT. -/
def predHistory (p : List Byte) : List (List Nat × List Nat) :=
  let head := predNum p 0xA 1
  let n := min 64 (predNum p 0xB 1)
  (List.range n).map (fun i =>
    let o := 0x440 + 32 * ((head + 64 - 1 - i) % 64)
    ((List.range 8).map (fun k => predNum p (o + 2 * k) 2), (List.range 8).map (fun k => predNum p (o + 16 + 2 * k) 2)))

/-- The experts predicted for the next layer (R179). -/
def predictExperts (p : List Byte) (s : List Nat) (thresh most : Nat) : List Nat :=
  let n := predNum p 6 2
  let base := (List.range n).map (predCounter p 0x40)
  let score := (predHistory p).foldl (fun (sc : List Nat) h =>
    let m := ((h.1.eraseDups).filter (fun x => x ≠ 0xFFFF && s.contains x)).length
    if m < 2 then sc else h.2.foldl (fun sc x => if x = 0xFFFF then sc else sc.modify x (· + m)) sc) base
  let cand := ((List.range n).map (fun x => (x, score.getD x 0))).filter (fun x => decide (thresh ≤ x.2))
  let ins (l : List (Nat × Nat)) (e : Nat × Nat) : List (Nat × Nat) :=
    l.takeWhile (fun x => decide (e.2 ≤ x.2)) ++ [e] ++ l.dropWhile (fun x => decide (e.2 ≤ x.2))
  ((cand.foldl ins []).take most).map Prod.fst

/-! ## Combine and exit (R170, R171) -/

/-- An element of a plain format, widened exactly. -/
def widen (fmt code : Nat) : FVal :=
  match elemOf fmt with
  | some e => decodeElem e code
  | none => .nan

/-- One column of a combined row: the residual, then one rounded multiply-add per placed choice, in rank order. -/
def combineColumn (start : FVal) (ys : List (Word × FVal)) : Word :=
  ys.foldl (fun (x : Word) y => rnd32 (faddX (fmulX (f32 y.1) y.2) (f32 x))) (rnd32 start)

/-- Does a token's exit predicate hold (R171)? A row with a NaN gives false. -/
def exitHolds (j : GateJob) (x : List Word) : Bool :=
  let ge (v : Word) : Bool := !(f32 v).isNan && !(f32 j.thresh).isNan && !fltX (f32 v) (f32 j.thresh)
  let p := softmax x
  let sorted := (((List.range p.length).zip p).foldl (fun l e => insertDesc (e.1, f32 e.2) l) []).map Prod.snd
  if x.any (fun v => (f32 v).isNan) then false
  else if j.exitPred = 0 then ge (x.headD 0)
  else if j.exitPred = 1 then ge (rnd32 (sorted.headD .nan))
  else ge (rnd32 (faddX (sorted.headD .nan) ((sorted.drop 1).headD .nan).negate))

end Sys2Proof.Machine
end

