-- ==== Sys2Proof/Machine/Gate.lean ====
section
/-!
DEFINITION. The Gate units (R156 to R188): selecting a dispatch, ROUTE, COMBINE and EXIT, run-ahead and its landing slots,
and the GATE registers. A Gate unit's accesses to device memory are made at once, as device work's are (log entry 22). A step that a fault has
stalled starts again when it is replayed (log entry 60).
-/

namespace Sys2Proof.Machine

/-! ## Accesses and failure (R173, R174) -/

/-- The queue number under which a Gate unit's own requests to other chips are kept. -/
def gateQ (w : Nat) : Nat := 65536 + w

/-- The slot of a dispatch's context. -/
def jobSlot (s : State) (j : GateJob) : Nat × SlotInfo := (slotOf s j.space).getD (0, SlotInfo.empty)

/-- Is a Gate unit stalled on a translation fault? -/
def gateStalled (s : State) (w : Nat) : Bool := s.tiles.any (fun kv => kv.2.owner = .gate w)

/-- Stalls a dispatch on missing ranges (R173, R296). What other chips have answered to it is read afresh when it is replayed. -/
def gateStall (s : State) (w : Nat) (j : GateJob) (rights : Nat) (fs : List TileFault) : State :=
  let (id, s) := fresh (devDone s (gateQ w) 1)
  let (k, slot) := jobSlot s j
  stallTile s id ⟨.gate w, slot.space, slot.inst, k, w / 2, sharedTlb (w / 2), rights, j.label, 3 * 4096 + w, fs.map TileFault.lowVa,
    [], fs, [], false, true⟩

/-- The requests of a wing's dispatch to other chips. -/
def gateReqs (s : State) (w : Nat) : List (Nat × MemReq) := s.reqs.filter (fun kv => match kv.2.owner with
  | .command q _ => decide (q = gateQ w)
  | _ => false)

/-- Is one of them unanswered? -/
def gateOut (s : State) (w : Nat) : Bool := (gateReqs s w).any (fun kv => kv.2.stage ≠ .done && kv.2.err = 0)

/-- The first error that one of its writes met (R174). -/
def gateErr (s : State) (w : Nat) : Nat :=
  (((gateReqs s w).find? (fun kv => kv.2.err ≠ 0 && !opAnswers kv.2.op)).map (fun kv => kv.2.err)).getD 0

/-- Drops those that are over. -/
def gateClear (s : State) (w : Nat) : State :=
  forgetReqs s (fun _ r => (match r.owner with
    | .command q _ => decide (q = gateQ w)
    | _ => false) && (r.stage = .done || r.err ≠ 0))

/-- The landing slots of a wing and context slot. -/
def planSlots (s : State) (w k : Nat) : List (Nat × LandSlot) := s.landing.filter (fun kv => kv.2.wing = w && kv.2.ctx = k)

/-- Squashes and disarms a context's plan. -/
def dropPlan (s : State) (w k : Nat) : State :=
  let s := { s with landing := s.landing.filter (fun kv => !(kv.2.wing = w && kv.2.ctx = k && kv.2.state = .promoted)) }
  modGate (doomIf s (fun l => l.wing = w && l.ctx = k)) w (fun g => { g with plans := mdel g.plans k })

/-- The tokens that a dispatch's live bitmap names, as it stands; none when it cannot be read. -/
def liveTokens (s : State) (w : Nat) (j : GateJob) : List Nat :=
  if j.live = 0 then List.range j.tokens
  else match (devRead s (jobSlot s j).2 (gateQ w) 1 j.live ((j.tokens + 7) / 8)).1 with
    | .ok d _ => (List.range j.tokens).filter (fun t => bitAt (d.getD (t / 8) 0).toNat (t % 8))
    | _ => []

/-- The ranges of whole bytes that a dispatch writes: of expert lists and buffers, the places of the experts' counts, once these are
known; of a COMBINE, the rows of live tokens (R167, R168, R169, R170). -/
def gateOutputs (s : State) (w : Nat) (j : GateJob) : List (Nat × Nat) :=
  let used := (((gateOf s w).run).map GateRun.used).getD []
  (if j.summary = 0 then [] else [(j.summary, 64)])
    ++ (if j.op = 0 then [(j.tokrec, 64 * j.tokens), (j.expcount, 4 * j.experts)]
        ++ used.map (fun x => (j.explist + 4 * x.1 * j.capacity, 4 * x.2))
        ++ (if j.expbuf = 0 then [] else used.map (fun x =>
          (j.expbuf + x.1 * j.expStride, x.2 * (j.rowElems * elemBits j.efmt / 8))))
      else if j.op = 1 then (liveTokens s w j).map (fun t => (j.outVa + t * j.pitch, j.rowElems * elemBits j.ofmt / 8))
      else [])

/-- A live bitmap in which the bits of the tokens an EXIT evaluates are free (R171). -/
def freeBits (s : State) (w : Nat) (j : GateJob) : State :=
  let n := (j.tokens + 7) / 8
  match (devRead s (jobSlot s j).2 (gateQ w) 1 j.live n).1 with
  | .ok d _ =>
    let live := liveTokens s w j
    let v := freeBytes s n
    let bits := (List.range n).map (fun i => BitVec.ofNat 8 ((List.range 8).foldl (fun a b =>
      a + 2 ^ b * b2n (bitAt (if live.contains (8 * i + b) then v.1.getD i 0 else d.getD i 0).toNat b)) 0))
    (devWrite v.2 (jobSlot s j).2 (gateQ w) 1 j.live bits).2
  | _ => s

/-- Every output of a failed dispatch is undefined (R174, log entry 5). -/
def freeOutputs (s : State) (w : Nat) (j : GateJob) : State :=
  let s := if j.op = 2 then freeBits s w j else s
  (gateOutputs s w j).foldl (fun s r => (linePieces r.1 r.2).foldl (fun s p =>
    let v := freeBytes s p.2
    (devWrite v.2 (jobSlot s j).2 (gateQ w) 1 p.1 v.1).2) s) s

/-- A dispatch fails: its context's plan is squashed, and the error goes to its fence (R174). Neither a predictor record nor LAST is
changed. `wrote` is false for a failure that writes nothing (R159, R161). -/
def gateFail (s : State) (w : Nat) (j : GateJob) (code : Nat) (wrote : Bool) : State :=
  let s := if wrote then freeOutputs s w j else s
  let s := dropPlan s w (jobSlot s j).1
  modRun s w (fun r => { r with phase := .finishing, todo := [], record := none, err := if r.err = 0 then code else r.err })

/-- Bytes with the poison of their sectors. -/
def pBytes (va : Nat) (d : List Byte) (bad : Nat) : List PByte :=
  (List.range d.length).map (fun i => (d.getD i 0, bitAt bad ((va + i) % 256 / 32)))

/-- Reads parts of lines for a dispatch, each an access of its own (R291), and goes on with the bytes; a fault stalls the dispatch, an
error fails it. -/
def gateParts (w : Nat) (j : GateJob) (s : State) : List (Nat × Nat) → List PByte → (List PByte → State → State) → State
  | [], acc, k => k acc s
  | p :: ps, acc, k =>
    match devRead s (jobSlot s j).2 (gateQ w) 1 p.1 p.2 with
    | (.ok d bad, s) => gateParts w j s ps (acc ++ pBytes p.1 d bad) k
    | (.wait, s) => s
    | (.fault fs, s) => gateStall s w j 1 fs
    | (.error e, s) => gateFail s w j e true

/-- Reads bytes of device memory for a dispatch. -/
def gateRead (s : State) (w : Nat) (j : GateJob) (va n : Nat) (k : List PByte → State → State) : State :=
  gateParts w j s (linePieces va n) [] k

/-- Reads bytes of which a poisoned one fails the dispatch with DATA_POISON. -/
def gateClean (s : State) (w : Nat) (j : GateJob) (va n : Nat) (k : List Byte → State → State) : State :=
  gateRead s w j va n (fun bs s => if bs.any Prod.snd then gateFail s w j errDataPoison true else k (bs.map Prod.fst) s)

/-- Translates lines that a dispatch is to write, each an access of its own (R291), and goes on when all are. -/
def gateLook (w : Nat) (j : GateJob) (c : Nat) (s : State) : List (Nat × Nat) → (State → State) → State
  | [], k => k s
  | p :: ps, k =>
    match devAccess s (jobSlot s j).2 (gateQ w) c [p] (fun s _ => (.ok [] 0, s)) with
    | (.ok _ _, s) => gateLook w j c s ps k
    | (.wait, s) => s
    | (.fault fs, s) => gateStall s w j 2 fs
    | (.error e, s) => gateFail s w j e true

/-- Writes ranges of device memory for a dispatch, and goes on: nothing is written until all are translated, so that a step which a
fault has stalled starts again with what it reads unchanged. `c` is the command number of the writes. -/
def gatePut (w : Nat) (j : GateJob) (c : Nat) (s : State) (l : List (Nat × List PByte)) (k : State → State) : State :=
  let cut := l.flatMap (cutAt 256)
  gateLook w j c s (cut.map (fun x => (x.1, x.2.length))) (fun s =>
    k (cut.foldl (fun s x =>
      let bad := ((List.range 8).filter (fun i => (List.range x.2.length).any (fun n =>
        (x.1 + n) % 256 / 32 = i && (x.2.getD n (0, false)).2))).foldl (fun a i => a + 2 ^ i) 0
      (devWrite s (jobSlot s j).2 (gateQ w) c x.1 (x.2.map Prod.fst) bad).2) s))

/-- The same of the Gate unit's own writes. -/
def gateWrites (w : Nat) (j : GateJob) (s : State) (l : List (Nat × List PByte)) (k : State → State) : State := gatePut w j 1 s l k

/-- Writes bytes at an address. -/
def gateWrite (s : State) (w : Nat) (j : GateJob) (va : Nat) (bs : List PByte) (k : State → State) : State :=
  gateWrites w j s [(va, bs)] k

/-- Bytes without poison. -/
def clean (l : List Byte) : List PByte := l.map (fun x => (x, false))

/-! ## Selecting (R156 to R159, R161) -/

/-- The reservation of a core, when it belongs to a context under a REGION_ID. -/
def regionOn (s : State) (c space region : Nat) : Option RegionTag :=
  (core s c).region.filter (fun t => t.space = space && t.region = region)

/-- Is a dispatch's Gate unit available to it (R159)? -/
def gateAvailable (s : State) (w : Nat) (j : GateJob) : Bool :=
  flagF s f_CHIP_CAP_WING_GATE_OK w && flagF s f_GATE_CTRL_ENABLE w
    && (List.range 144).any (fun c => coreBound s j.inst c && wingOf s c = w)

/-- Are the source cores in order (R156, R161)? -/
def gateSourceOk (s : State) (w : Nat) (j : GateJob) : Bool :=
  j.srcs.all (fun x => x.1 < 144 && coreBound s j.inst x.1 && wingOf s x.1 = w
    && (j.op = 1 || match regionOn s x.1 j.space j.logitRegion with
      | some t => x.2 = 0 || j.logitOfs + (x.2 - 1) * j.logitPitch + j.experts * (if j.logitFmt = 0 then 4 else 2)
          ≤ t.scrPages * 4096
      | none => false))

/-- The waiting dispatch with the lowest class label, the first among equals. -/
def firstJob : List GateJob → Option GateJob
  | [] => none
  | j :: js => match firstJob js with
    | some x => if x.label < j.label then some x else some j
    | none => some j

/-- GATE_DISPATCH_SELECT: a free Gate unit takes the waiting dispatch with the lowest class label, wakes its wing and the
cores it names, and checks it (R157 to R161). -/
def execGateDispatchSelect (w : Nat) (s : State) : Out :=
  .next (
    let g := gateOf s w
    if g.run.isSome || wingStopped s w then s else
    match firstJob g.waiting with
    | none => s
    | some j =>
      let s := modGate s w (fun g => { g with
        waiting := g.waiting.erase j, run := some ⟨j, .selected, 0, [], 0, [], [0, 0, 0, 0, 0, 0, 0, 0, 0, 0], [], none, 0⟩ })
      let s := j.cores.foldl wakeCore (wakeWing s w)
      if !gateAvailable s w j then gateFail s w j errGateUnavailable false
      else if !gateParamOk j then gateFail s w j errGateParam false
      else if !gateSourceOk s w j then gateFail s w j errGateSource true
      else s)

/-- The running dispatch of an operation in a phase, when its wing and source cores are awake, its issue
is not stopped, and it is not stalled on a page. -/
def gateRuns (s : State) (w op : Nat) (ph : GatePhase) : Option GateRun :=
  match (gateOf s w).run with
  | some r =>
    if r.phase = ph && r.err = 0 && r.job.op = op && !gateStalled s w && !wingStopped s w && getF s f_THM_WING_STATE w = 0
        && r.job.cores.all (fun c => !asleep s c) then some r else none
  | none => none

/-! ## Reading tokens (R162) -/

/-- The source core of a token, and its row there. -/
def tokenHome : List (Nat × Nat) → Nat → Nat × Nat
  | [], _ => (0, 0)
  | (c, n) :: rest, t => if t < n then (c, t) else tokenHome rest (t - n)

/-- Applies upsets named by core × 2²⁴ + address. -/
def gateUpsets (s : State) (ups : List Upset) : State :=
  ups.foldl (fun s u => applyUpsets s (u.addr / 2 ^ 24) [⟨u.addr % 2 ^ 24, u.double⟩]) s

/-- A token's values as binary32, or the error that reading them meets. -/
def tokenRow (s : State) (j : GateJob) (t : Nat) : Nat × List Word × State :=
  let (c, i) := tokenHome j.srcs t
  let n := if j.logitFmt = 0 then 4 else 2
  let a := j.logitOfs + i * j.logitPitch
  let (f, s) := scanWords s c srcGate (wordsOf a (j.experts * n))
  let bs := scrBytes s c a (j.experts * n)
  let v (e : Nat) : Word :=
    let x := leNat ((bs.drop (n * e)).take n)
    BitVec.ofNat 32 (if n = 4 then x else 65536 * x)
  (if !f.ue.isEmpty then errGateSource else if !f.bad.isEmpty then errDataPoison else 0, (List.range j.experts).map v, s)

/-- The values of the tokens of a list, in order; the first error ends the reading. -/
def tokenRows (j : GateJob) (s : State) : List Nat → Nat × List (Nat × List Word) × State
  | [] => (0, [], s)
  | t :: ts =>
    let r := tokenRow s j t
    if r.1 ≠ 0 then (r.1, [], r.2.2) else
    let q := tokenRows j r.2.2 ts
    (q.1, (t, r.2.1) :: q.2.1, q.2.2)

/-- The live bitmap; with LIVE_VA = 0 every token is live. -/
def withLive (s : State) (w : Nat) (j : GateJob) (k : List Byte → State → State) : State :=
  if j.live = 0 then k (List.replicate ((j.tokens + 7) / 8) 0xFF) s
  else gateClean s w j j.live ((j.tokens + 7) / 8) k

/-- Is a token live? -/
def isLive (bits : List Byte) (t : Nat) : Bool := bitAt (bits.getD (t / 8) 0).toNat (t % 8)

/-- Does a row hold a NaN? -/
def hasNan (x : List Word) : Bool := x.any (fun v => (f32 v).isNan)

/-! ## ROUTE (R162 to R169, R172, R183, R185) -/

/-- A routed token: its scores and candidates. A NaN selection value, which only a NaN bias can give, has no order in R164:
its place is free (log entry 5). -/
def selectToken (j : GateJob) (bias : List Word) (s : State) (t : Nat × List Word) : TokSel × State :=
  let sc := gateScores j t.2
  let vs := (List.range j.experts).map (fun e =>
    if j.selBias = 0 then f32 (sc.getD e 0) else f32 (rnd32 (faddX (f32 (sc.getD e 0)) (f32 (bias.getD e 0)))))
  let r := vs.foldl (fun (acc : List FVal × State) v =>
    if v.isNan then
      let q := freeVal acc.2 31
      (acc.1 ++ [f32 (BitVec.ofNat 32 (if (f32 (BitVec.ofNat 32 q.1)).isNan then 0 else q.1))], q.2)
    else (acc.1 ++ [v], acc.2)) ([], s)
  (⟨t.1, sc, gateOrder r.1 (min (j.k + j.redirect) j.experts)⟩, r.2)

/-- Selection for every routed token. -/
def selectAll (j : GateJob) (bias : List Word) (s : State) : List (Nat × List Word) → List TokSel × State
  | [] => ([], s)
  | t :: ts =>
    let r := selectToken j bias s t
    let q := selectAll j bias r.2 ts
    (r.1 :: q.1, q.2)

/-- The gather descriptor of a placed choice (R169). -/
def gatherDesc (w : Nat) (j : GateJob) (t : Nat) (c : Choice) : Desc :=
  let cv := j.tfmt ≠ j.efmt
  let src := j.token + t * j.pitch
  let dst := j.expbuf + c.expert * j.expStride + c.pos * (j.rowElems * elemBits j.efmt / 8)
  let x := if cv then j.rowElems else j.rowElems * elemBits j.tfmt / 8
  let bytes : List Byte := [0, BitVec.ofNat 8 (j.label % 8), 5, 4, BitVec.ofNat 8 (j.tfmt + 16 * j.efmt),
      BitVec.ofNat 8 (b2n cv + 2 * b2n j.sat), 0, 0]
    ++ leBytes 8 src ++ leBytes 8 dst ++ leBytes 4 x ++ [1, 0, 1, 0] ++ List.replicate 32 0
  ⟨bytes, .gate w, j.label, j.space, j.inst, none⟩

/-- The writes of step 4: token records, expert lists and counts (R167). -/
def routeWrites (j : GateJob) (live : List Byte) (sel : List TokSel) (cap : CapState) : List (Nat × List PByte) :=
  let rcd (t : Nat) : List Byte :=
    if !isLive live t then idleRecord j 13 else
    match sel.find? (fun x => x.tok = t) with
    | none => idleRecord j 14
    | some x =>
      let cs := mget [] cap.choices t
      tokenRecord j ((cs.zip (gateWeights j x cs)).map (fun p => choiceEntry p.1 p.2))
  let recs := (List.range j.tokens).map (fun t => (j.tokrec + 64 * t, clean (rcd t)))
  let lists := sel.flatMap (fun x => ((mget [] cap.choices x.tok).filter (fun c => !c.dropped)).map (fun c =>
    (j.explist + 4 * (c.expert * j.capacity + c.pos), clean (leBytes 4 x.tok))))
  let counts := (List.range j.experts).map (fun e => (j.expcount + 4 * e, clean (leBytes 4 (mget 0 cap.count e))))
  recs ++ lists ++ counts

/-- Promotes a slot: the hold ends, its bytes are counted, and the errors and poison its reads met are recorded now (R181, R187). -/
def promoteSlot (s : State) (id : Nat) : State :=
  match mfind s.landing id with
  | none => s
  | some l =>
    let s := { s with landing := mput s.landing id { l with state := .promoted } }
    let s := countR s r_GATE_PROMOTED l.wing l.len
    let s := countR s r_MEM_POISON_RD 0 l.poisoned
    l.errs.foldl (fun s e =>
      if e.double then logUe (setHbmBad s e.sector true) 0 e.sector
      else countR s r_MEM_CE (sliceOf (32 * e.sector)) 1) s

/-- Step 5: a slot whose expert is used is promoted, or waits for its fetch; every other is squashed (R183). -/
def resolvePlan (s : State) (w k : Nat) (matched : Bool) (used : List Nat) : List Nat × State :=
  (planSlots s w k).foldl (fun (acc : List Nat × State) kv =>
    let l := kv.2
    if matched && used.contains l.expert && (l.state = .landed || l.state = .fetching) then
      (acc.1 ++ [kv.1],
        if l.state = .landed then promoteSlot acc.2 kv.1
        else { acc.2 with landing := mput acc.2.landing kv.1 { l with state := .promoting } })
    else (acc.1, doomSlot acc.2 kv.1)) ([], s)

/-- Is the plan armed for a context the one of the record at PRED_VA? -/
def planFor (s : State) (w k : Nat) (j : GateJob) : Bool :=
  decide (j.pred ≠ 0) && (match mfind (gateOf s w).plans k with
    | some p => decide (p.next = j.pred)
    | none => false)

/-- Steps 1 to 5 of a ROUTE (R172). The plan of a bad record is not resolved (R177). -/
def routeStart (s : State) (w : Nat) (j : GateJob) : State :=
  withLive s w j (fun live s =>
    let readBias (k : List Byte → State → State) : State :=
      if j.selBias = 0 then k [] s else gateClean s w j j.selBias (4 * j.experts) k
    readBias (fun bias s =>
      let readPred (k : List PByte → State → State) : State := if j.pred = 0 then k [] s else gateRead s w j j.pred 4096 k
      readPred (fun pb s =>
        let alive := (List.range j.tokens).filter (isLive live)
        let rows := tokenRows j s alive
        if rows.1 ≠ 0 then gateFail rows.2.2 w j rows.1 true else
        let routed := rows.2.1.filter (fun t => !hasNan t.2)
        let biasW := (List.range j.experts).map (fun e => BitVec.ofNat 32 (leNat ((bias.drop (4 * e)).take 4)))
        let (sel, s) := selectAll j biasW rows.2.2 routed
        let cap := gateAssign j sel
        let used := ((List.range j.experts).map (fun e => (e, mget 0 cap.count e))).filter (fun x => decide (0 < x.2))
        gateWrites w j (modRun s w (fun r => { r with used := used })) (routeWrites j live sel cap) (fun s =>
          let all := sel.flatMap (fun x => (mget [] cap.choices x.tok).map (fun c => (x.tok, c)))
          let placed := all.filter (fun x => !x.2.dropped)
          let k := (jobSlot s j).1
          let bad := pb.any Prod.snd || predBad (pb.map Prod.fst) (some j.experts)
          let own := planFor s w k j
          let (res, s) := if own && bad then ([], s) else resolvePlan s w k own (used.map Prod.fst)
          let gathers := if j.expbuf = 0 then [] else placed.map (fun x => ((tokenHome j.srcs x.1).1, gatherDesc w j x.1 x.2))
          modRun (devDone s (gateQ w) 1) w (fun r => { r with
            phase := .promoting, resolved := res, todo := gathers
            sum := [((placed.map Prod.fst).eraseDups).length, placed.length, (placed.filter (fun x => x.2.redirected)).length,
              all.length - placed.length, j.tokens - alive.length, alive.length - routed.length,
              (used.map Prod.snd).foldl max 0, used.length, 0, 0] })))))

/-- Step 6 on one target core whose reservation still stands: pages of slots that are not promoted become cleared pages, and
the manifest is written (R183, R185). -/
def writeManifest (s : State) (w k : Nat) (p : GatePlan) (c : Nat) : State :=
  match regionOn s c (mget SlotInfo.empty s.slots k).space p.region with
  | none => s
  | some t =>
    let base := t.scrPages * 4096
    let top := base + (core s c).resvPages * 4096
    let mine (i : Nat) : Option LandSlot :=
      ((planSlots s w k).find? (fun kv => kv.2.core = c && kv.2.index = i && kv.2.state = .promoted)).map Prod.snd
    let s := (List.range p.nslot).foldl (fun s i =>
      let a := base + 4096 + i * p.bytes
      if (mine i).isSome then s else zeroScr s c a (min p.bytes (top - a))) s
    let words := (List.range 16).flatMap (fun i => leBytes 4 (match mine i with
      | some l => l.expert + 2 ^ 31
      | none => 0))
    if top = base then s
    else scrWrite s c base (leBytes 4 (p.layer % 65536) ++ List.replicate 60 0 ++ words) [] srcGate

/-- Sets a bit of the summary's SFLAGS. -/
def addSflag (r : GateRun) (v : Nat) : GateRun := { r with sum := r.sum.set 9 (Nat.lor (r.sum.getD 9 0) v) }

/-- Reads a predictor record: it is bad, or it is made ready for use; `init` says that it was initialised (R177). -/
def withPred (s : State) (w : Nat) (j : GateJob) (va : Nat) (experts : Option Nat)
    (k : Option (List Byte × Bool) → List Byte → State → State) : State :=
  gateRead s w j va 4096 (fun bs s =>
    let p := bs.map Prod.fst
    if bs.any Prod.snd || predBad p experts then k none p s
    else
      let gen := getF s f_GATE_WGEN_WGEN w
      if predStale p gen then k (some (predInit p gen, true)) p s else k (some (p, false)) p s)

/-- The last of a ROUTE's resolution, of which a bad record has none: the plan is disarmed, and the gathers are queued (R183, R187).
`rcd` is the predictor record as it is to be. -/
def routeCommit (s : State) (w : Nat) (j : GateJob) (flags : Nat) (rcd : Option (List Byte)) : State :=
  let k := (jobSlot s j).1
  let n := ((planSlots s w k).filter (fun kv => kv.2.state = .promoted)).length
  let s := { s with landing := s.landing.filter (fun kv => !(kv.2.wing = w && kv.2.ctx = k && kv.2.state = .promoted)) }
  let s := if flags = 2 && planFor s w k j then s else modGate s w (fun g => { g with plans := mdel g.plans k })
  let s := modRun (devDone s (gateQ w) 1) w (fun r =>
    addSflag { r with phase := .gathering, sum := r.sum.set 8 n, record := rcd } flags)
  match (gateOf s w).run with
  | some r => feedGather s w j.ch r.todo
  | none => s

/-- Step 6: the manifests of the armed plan. -/
def writeManifests (s : State) (w k : Nat) : State :=
  match mfind (gateOf s w).plans k with
  | some p => p.cores.foldl (fun s c => writeManifest s w k p c) s
  | none => s

/-- Steps 6 and 7 of a ROUTE. The updated record is kept until nothing can fail the ROUTE any more (R174, R178). -/
def routeResolve (s : State) (w : Nat) (r : GateRun) : State :=
  let j := r.job
  let k := (jobSlot s j).1
  if j.pred = 0 then routeCommit (writeManifests s w k) w j 0 none
  else withPred s w j j.pred (some j.experts) (fun p _ s =>
    match p with
    | none => routeCommit (if planFor s w k j then s else writeManifests s w k) w j 2 none
    | some (rcd, init) =>
      let cause := match mfind (gateOf s w).last k with
        | some l => if l.next = some j.pred then l.top else []
        | none => []
      routeCommit (writeManifests s w k) w j (if init then 4 else 0)
        (some (predUpdate rcd (r.used.map Prod.fst) (topSet r.used) cause)))

/-- Do slots of a plan still wait for their fetch or their squash? -/
def planBusy (s : State) (w k : Nat) : Bool :=
  (planSlots s w k).any (fun kv => kv.2.state = .promoting || kv.2.state = .doomed || kv.2.state = .squashing)

/-- ROUTE: a running ROUTE reads, scores, selects, assigns capacity, writes its outputs and resolves the armed plan; once
every promotion and squash is over it writes manifests, updates the predictor record and queues its gathers (R172). `ups`
are upsets of the scratchpad words it reads, by core × 2²⁴ + address. -/
def execRoute (w : Nat) (ups : List Upset) (s : State) : Out :=
  .next (match gateRuns s w 0 .selected with
    | some r => routeStart (gateUpsets s ups) w r.job
    | none => match gateRuns s w 0 .promoting with
      | some r => if planBusy s w (jobSlot s r.job).1 then s else routeResolve s w r
      | none => s)

/-! ## Run-ahead (R179, R180) -/

/-- The lowest free landing slot index of a core for a plan. -/
def freeIndex (s : State) (w k c n : Nat) : Option Nat :=
  (List.range n).find? (fun i => !(planSlots s w k).any (fun kv => kv.2.core = c && kv.2.index = i))

/-- Assigns a predicted expert its slot, when it can have one (R180). -/
def assignSlot (w k : Nat) (j : GateJob) (limit : Nat) (acc : Nat × State) (x : Nat) : Nat × State :=
  let s := acc.2
  let c := (j.src (x % j.srcCount)).1
  match regionOn s c j.space j.specRegion, freeIndex s w k c j.nslot with
  | some t, some i =>
    let base := t.scrPages * 4096 + 4096 + i * j.fetchBytes
    if t.scrPages * 4096 + (core s c).resvPages * 4096 < base + j.fetchBytes || limit < acc.1 + j.fetchBytes then acc
    else
      let (id, s) := fresh s
      let l : LandSlot := ⟨w, k, c, i, x, j.nextWeight + x * j.nextStride, base, j.fetchBytes, s.now, .fetching, [], 0,
        instarOf s (.core c)⟩
      (acc.1 + j.fetchBytes, { s with landing := mput s.landing id l })
  | _, _ => acc

/-- Step 9: predicts and arms a plan. A record that this ROUTE updates is the one it is to write; a plan that a bad record has left
armed is squashed (log entry 60). -/
def armPlan (s : State) (w : Nat) (r : GateRun) : State :=
  let j := r.job
  let next (k : Option (List Byte × Bool) → List Byte → State → State) : State := match r.record with
    | some rcd => if j.nextPred = j.pred then k (some (rcd, false)) rcd s else withPred s w j j.nextPred none k
    | none => withPred s w j j.nextPred none k
  next (fun p raw s =>
    let go (rcd : List Byte) (usable : Bool) (flags : Nat) (s : State) : State :=
      let k := (jobSlot s j).1
      let may := usable && (predNum rcd 9 1 = 1 || 256 ≤ predNum rcd 0x10 4)
      let s := doomIf s (fun l => l.wing = w && l.ctx = k)
      let xs := if may then predictExperts rcd (topSet r.used) j.predThresh j.predictMax else []
      let s := (xs.foldl (assignSlot w k j (getF s f_GATE_SPEC_LIMIT_MIB w * 2 ^ 20)) (0, s)).2
      let plan : GatePlan := ⟨j.nextPred, predNum rcd 4 2, j.specRegion, j.fetchBytes, j.nslot, j.cores⟩
      let s := modGate s w (fun g => { g with plans := mput g.plans k plan })
      modRun (devDone s (gateQ w) 1) w (fun r => addSflag { r with phase := .finishing } (1 + flags))
    match p with
    | none => go raw false 2 s
    | some (rcd, true) => gateWrite s w j j.nextPred (clean rcd) (go rcd true 4)
    | some (rcd, false) => go rcd true 0 s)

/-- GATE_GATHER_COMPLETE: every gather transfer of a ROUTE has completed; with run-ahead asked for and enabled, the next
layer is predicted and a plan armed (R172, steps 8 and 9). -/
def execGateGatherComplete (w : Nat) (s : State) : Out :=
  .next (match gateRuns s w 0 .gathering with
    | none => s
    | some r =>
      if !r.todo.isEmpty || r.out ≠ 0 then s
      else if r.job.runahead && flagF s f_GATE_CTRL_RUNAHEAD_EN w then armPlan s w r
      else modRun s w (fun r => { r with phase := .finishing }))

/-! ## COMBINE and EXIT (R170, R171) -/

/-- Reads several ranges, and goes on with their bytes. -/
def gateReads (w : Nat) (j : GateJob) (s : State) : List (Nat × Nat) → List (List PByte) →
    (List (List PByte) → State → State) → State
  | [], acc, k => k acc s
  | x :: xs, acc, k => gateRead s w j x.1 x.2 (fun bs s => gateReads w j s xs (acc ++ [bs]) k)

/-- The placed entries of a token record of a COMBINE: expert, position and weight. The entries of a NaN token name no
expert, 0x7FF, and add nothing (log entry 14). -/
def placedEntries (j : GateJob) (rcd : List Byte) : List (Nat × Nat × Word) :=
  ((List.range j.k).map (fun r => leNat ((rcd.drop (8 * r)).take 8))).filterMap (fun e =>
    if bitAt e 12 || bitAt e 13 || bitsOf e 0 11 = 0x7FF then none else some (bitsOf e 0 11, bitsOf e 16 16, BitVec.ofNat 32 (bitsOf e 32 32)))

/-- The combined row of a token, from its residual row and its experts' rows. -/
def combineRow (j : GateJob) (ws : List Word) (tok : List PByte) (rows : List (List PByte)) : List PByte :=
  let col (c : Nat) : Nat × Bool :=
    let x := if j.resid then pElem (elemBits j.tfmt) tok c else (0, false)
    let ys := rows.map (fun r => pElem (elemBits j.efmt) r c)
    let v := combineColumn (if j.resid then widen j.tfmt x.1 else .fin false 0 0) (ws.zip (ys.map (fun y => widen j.efmt y.1)))
    (match elemOf j.ofmt with
      | some e => (toElem e .rne j.sat false (f32 v)).1
      | none => 0, x.2 || ys.any Prod.snd)
  pPack (elemBits j.ofmt) ((List.range j.rowElems).map col)

/-- Is channel GATE_CH of a source core's mover free for a combined row, behind the descriptors that it holds (R170, R196)? -/
def combineFree (s : State) (j : GateJob) (c : Nat) : Bool := (chan s c j.ch).queue.isEmpty && !moverStopped s c

/-- Combines the tokens of a list in turn: each row is written through the mover of the core that holds its token, and is not formed
again (R170). -/
def combineTokens (w : Nat) (j : GateJob) (recs : List Byte) (s : State) : List Nat → (State → State) → State
  | [], k => k s
  | t :: ts, k =>
    let c := (tokenHome j.srcs t).1
    if !combineFree s j c then s else
    let es := placedEntries j ((recs.drop (64 * t)).take 64)
    let n := j.rowElems * elemBits j.efmt / 8
    let ranges := (if j.resid then [(j.token + t * j.pitch, j.rowElems * elemBits j.tfmt / 8)] else [])
      ++ es.map (fun e => (j.expbuf + e.1 * j.expStride + e.2.1 * n, n))
    gateReads w j s ranges [] (fun got s =>
      let tok := if j.resid then got.headD [] else []
      let row := combineRow j (es.map (fun e => e.2.2)) tok (if j.resid then got.drop 1 else got)
      gatePut w j (2 + c) s [(j.outVa + t * j.pitch, row)] (fun s =>
        combineTokens w j recs (modRun (devDone s (gateQ w) 1) w (fun r => { r with token := t + 1 })) ts k))

/-- COMBINE: a running COMBINE sums each live token's placed expert rows, by weight, into its output row (R170). -/
def execCombine (w : Nat) (s : State) : Out :=
  .next (match gateRuns s w 1 .selected with
    | none => s
    | some r =>
      let j := r.job
      withLive s w j (fun live s => gateClean s w j j.tokrec (64 * j.tokens) (fun recs s =>
        let alive := (List.range j.tokens).filter (isLive live)
        combineTokens w j recs s (alive.filter (fun t => decide (r.token ≤ t))) (fun s =>
          modRun (devDone s (gateQ w) 1) w (fun r => { r with
            phase := .finishing, sum := [alive.length, 0, 0, 0, j.tokens - alive.length, 0, 0, 0, 0, 0] })))))

/-- EXIT: a running EXIT evaluates the predicate of every live token and clears the live bits of those that exit (R171). -/
def execExit (w : Nat) (ups : List Upset) (s : State) : Out :=
  .next (match gateRuns s w 2 .selected with
    | none => s
    | some r =>
      let j := r.job
      withLive (gateUpsets s ups) w j (fun live s =>
        let alive := (List.range j.tokens).filter (isLive live)
        let rows := tokenRows j s alive
        if rows.1 ≠ 0 then gateFail rows.2.2 w j rows.1 true else
        let out := (rows.2.1.filter (fun t => exitHolds j t.2)).map Prod.fst
        let new := (List.range live.length).map (fun i =>
          let old := (live.getD i 0).toNat
          BitVec.ofNat 8 ((List.range 8).foldl (fun a b => if out.contains (8 * i + b) then setBits a b 1 0 else a) old))
        gateWrite rows.2.2 w j j.live (clean new) (fun s =>
          modRun (devDone s (gateQ w) 1) w (fun r => { r with
            phase := .finishing
            sum := [alive.length - out.length, 0, 0, 0, out.length, (rows.2.1.filter (fun t => hasNan t.2)).length,
              0, 0, 0, 0] }))))

/-- The 64 bytes of a summary record (R168). -/
def summaryRecord (l : List Nat) : List Byte :=
  (List.range 7).flatMap (fun i => leBytes 4 (l.getD i 0)) ++ leBytes 2 (l.getD 7 0) ++ leBytes 1 (l.getD 8 0)
    ++ leBytes 1 (l.getD 9 0) ++ List.replicate 32 0

/-- Ends a dispatch: a completed ROUTE sets LAST, and the command's fence follows (R172, step 11, R178). -/
def gateEnd (s : State) (w : Nat) (r : GateRun) : State :=
  let j := r.job
  let s := if r.err = 0 then countR s r_GATE_DONE w 1 else s
  let s := if r.err = 0 && j.op = 0 then modGate s w (fun g => { g with
      last := mput g.last (jobSlot s j).1 ⟨topSet r.used, if j.runahead then some j.nextPred else none⟩ }) else s
  endCmd (modGate (gateClear s w) w (fun g => { g with run := none })) j.cmd r.err

/-- GATE_DISPATCH_COMPLETE: every write of a dispatch is performed; its summary is written, then the predictor record that it
updates, and its command ends, which signals its fence (R168, R172, steps 10 and 11). A failed dispatch ends with its error once its
transfers are over; a write that another chip refuses fails it (R174). -/
def execGateDispatchComplete (w : Nat) (s : State) : Out :=
  .next (match (gateOf s w).run with
    | none => s
    | some r =>
      let j := r.job
      if gateStalled s w || gateOut s w then s
      else if r.err ≠ 0 then
        if r.out ≠ 0 then s
        else if r.phase ≠ .finishing then gateFail s w j r.err true
        else gateEnd s w r
      else if wingStopped s w then s
      else if gateErr s w ≠ 0 && (r.phase = .finishing || r.phase = .summed || r.phase = .closing) then gateFail s w j (gateErr s w) true
      else match r.phase with
        | .finishing =>
          let on (s : State) : State := modRun s w (fun r => { r with phase := .summed })
          if j.summary = 0 then on s else gateWrite s w j j.summary (clean (summaryRecord r.sum)) on
        | .summed =>
          let on (s : State) : State := modRun s w (fun r => { r with phase := .closing })
          match r.record with
          | some rcd => gateWrite s w j j.pred (clean rcd) on
          | none => on s
        | .closing => gateEnd s w r
        | _ => s)

/-! ## Landing slots (R181 to R187) -/

/-- Where a fetch's line leads: Imago memory of this chip, or nowhere a fetch may go (R181). -/
def landPlace (s : State) (l : LandSlot) (va : Nat) : Option Nat :=
  match (devPlace s (mget SlotInfo.empty s.slots l.ctx) (gateQ l.wing) 1 va).2 with
  | some (g, 1, _) => if gpaChip g = chipId s then some g else none
  | _ => none

/-- Is every line of a slot's source in Imago memory of this chip? -/
def landMapped (s : State) (l : LandSlot) : Bool := (linePieces l.va l.len).all (fun p => (landPlace s l p.1).isSome)

/-- The bytes of a slot's source, with poison; no count, log or allocation is touched (R181). -/
def landBytes (s : State) (l : LandSlot) (errs : List SectorErr) : List PByte :=
  (linePieces l.va l.len).flatMap (fun p =>
    let g := (landPlace s l p.1).getD 0
    let d := readAt s g p.2
    let a := forwarded s (gpaLocal g)
    (List.range d.1.length).map (fun i => (d.1.getD i 0,
      bitAt d.2 ((a + i) % 256 / 32) || errs.any (fun e => e.double && e.sector = (a + i) / 32))))

/-- Lands a slot's bytes in its held pages. Writes for a core whose instar has changed are discarded and counted, and the slot is
squashed (R358, R359). -/
def landSlot (s : State) (id : Nat) (l : LandSlot) (errs : List SectorErr) : State :=
  if instarOf s (.core l.core) ≠ l.instar then doomSlot (countStale s (.core l.core)) id else
  let bs := landBytes s l errs
  let s := modCore s l.core (fun k => { k with
    scr := memPut k.scr l.base (bs.map Prod.fst)
    marks := (List.range (l.len / 8)).foldl (fun m i =>
      mset .good m (l.base / 8 + i) (if ((bs.drop (8 * i)).take 8).any Prod.snd then .poison else .good)) k.marks })
  let dirty := (linePieces l.va l.len).filter (fun p => (readAt s ((landPlace s l p.1).getD 0) p.2).2 ≠ 0)
  { s with landing := mput s.landing id { l with state := .landed, errs := errs, poisoned := dirty.length } }

/-- SLOT_FETCH_LANDED: every byte of a slot's fetch has landed. `errs` are the errors its reads met, by sector of the chip,
recorded only if the slot is promoted (R180, R181, R187). -/
def execSlotFetchLanded (id : Nat) (errs : List SectorErr) (s : State) : Out :=
  .next (match mfind s.landing id with
    | some l => if l.state = .fetching && landMapped s l then landSlot s id l errs else s
    | none => s)

/-- SLOT_FETCH_VOID: a fetch meets a page that is unmapped, or in host memory or on another chip, and ends: no fault is
recorded (R181). One that waits for its promotion is then not promoted. -/
def execSlotFetchVoid (id : Nat) (s : State) : Out :=
  .next (match mfind s.landing id with
    | some l =>
      if landMapped s l then s
      else if l.state = .fetching then { s with landing := mput s.landing id { l with state := .void } }
      else if l.state = .promoting then doomSlot s id
      else s
    | none => s)

/-- SLOT_PROMOTED: the fetch of a slot that its resolution promotes has landed; the hold ends and its bytes are counted
(R183, R187). -/
def execSlotPromoted (id : Nat) (errs : List SectorErr) (s : State) : Out :=
  .next (match mfind s.landing id with
    | some l =>
      if l.state = .promoting && landMapped s l then
        let s := landSlot s id l errs
        if ((mfind s.landing id).map LandSlot.state) = some .landed then promoteSlot s id else s
      else s
    | none => s)

/-- SQUASH: a slot whose squash has been triggered stops its fetch, and what it has issued is cancelled (R184, steps 1
and 2). -/
def execSquash (id : Nat) (s : State) : Out :=
  .next (match mfind s.landing id with
    | some l => if l.state = .doomed then { s with landing := mput s.landing id { l with state := .squashing } } else s
    | none => s)

/-- SQUASH_COMPLETE: every request of a squashed fetch is gone; its pages become cleared pages and the slot is free (R184,
steps 3 to 5). -/
def execSquashComplete (id : Nat) (s : State) : Out :=
  .next (match mfind s.landing id with
    | some l => if l.state = .squashing then squashDone s id else s
    | none => s)

/-- SLOT_TTL_EXPIRY: a slot held for GATE_SPEC_TTL µs is squashed (R186). -/
def execSlotTtlExpiry (id : Nat) (s : State) : Out :=
  .next (match mfind s.landing id with
    | some l => if dueRun s l.since (getF s f_GATE_SPEC_TTL_US * usTicks) then doomSlot s id else s
    | none => s)

/-! ## Registers (R177, R186, R188) -/

/-- Squashes every held slot of a wing. -/
def squashWing (s : State) (w : Nat) : State := doomIf s (fun l => l.wing = w)

/-- Advances a wing's generation (R177). -/
def stepWgen (s : State) (w : Nat) : State := setF s f_GATE_WGEN_WGEN w ((getF s f_GATE_WGEN_WGEN w + 1) % 2 ^ 32)

/-- GATE_CTRL_WRITE: a write of the enables; one that leaves ENABLE or RUNAHEAD_EN clear squashes every held slot (R186,
R188). -/
def execGateCtrlWrite (w v : Nat) (s : State) : Out :=
  .next (if 8 ≤ w then s else
    let s := setR s r_GATE_CTRL w (v % 4)
    if v % 4 = 3 then s else squashWing s w)

/-- SQUASH_ALL: squashes every held slot of the unit (R188). -/
def execSquashAll (w : Nat) (s : State) : Out := .next (if 8 ≤ w then s else squashWing s w)

/-- FORGET: squashes every held slot, invalidates LAST triples and advances WGEN (R177, R188). -/
def execForget (w : Nat) (s : State) : Out :=
  .next (if 8 ≤ w then s else modGate (stepWgen (squashWing s w) w) w (fun g => { g with last := [] }))

end Sys2Proof.Machine
end

