-- ==== Sys2Proof/Machine/Queues.lean ====
section
/-!
DEFINITION. Contexts, objects and queues (R362 to R369, R374 to R377, R404): the window operations of SCH_CMD, doorbells, and
the taking and validation of ring entries.
-/

namespace Sys2Proof.Machine

/-! ## Windows and their shares (R403, R437, R438, R448) -/

/-- Does an instance exist? -/
def instExists (s : State) (i : Nat) : Bool := i < 32 && flagF s f_SEC_INST_EXISTS i

/-- Does a window take writes: the physical function's, or that of an instance that exists and is not being reset? -/
def winOpen (s : State) (win : Nat) : Bool :=
  win = 0 || (win ≤ 32 && instExists s (win - 1) && !flagF s f_SEC_INST_RESETTING (win - 1))

/-- The instance whose contexts a window holds: 0xFF for the physical function's. -/
def instOfWin (win : Nat) : Nat := if win = 0 then 0xFF else win - 1

/-- The sum of a share over all instances. -/
def instSum (s : State) (f : RF) : Nat := (List.range 32).foldl (fun a i => a + getF s f i) 0

/-- The queue numbers of a window: the physical function has what no instance holds. -/
def winQueues (s : State) (win : Nat) : Nat :=
  if win = 0 then 65536 - instSum s f_SCH_INST_Q_COUNT else getF s f_SCH_INST_Q_COUNT (win - 1)

/-- The context slots of a window. -/
def winSlots (s : State) (win : Nat) : Nat :=
  if win = 0 then 64 - instSum s f_SCH_INST_SLOTS else getF s f_SCH_INST_SLOTS (win - 1)

/-- The first instance range at or after a descriptor number, with its end; none when no range follows. -/
def nextRange (s : State) (p : Nat) : Option (Nat × Nat) :=
  (List.range 32).foldl (fun best i =>
    let b := getF s f_SCH_INST_Q_BASE i
    let n := getF s f_SCH_INST_Q_COUNT i
    if n = 0 || b < p then best else match best with
      | none => some (b, b + n)
      | some (b', _) => if b < b' then some (b, b + n) else best) none

/-- The descriptor of the physical function's queue `n`, counted over the descriptors that no instance holds (R403). -/
def pfQueue (s : State) : Nat → Nat → Nat → Nat
  | 0, p, n => p + n
  | k + 1, p, n => match nextRange s p with
    | none => p + n
    | some (b, e) => if n < b - p then p + n else pfQueue s k e (n - (b - p))

/-- The queue descriptor of queue `n` of a window (R403). -/
def queueDescOf (s : State) (win n : Nat) : Nat :=
  if win = 0 then pfQueue s 32 0 n else getF s f_SCH_INST_Q_BASE (win - 1) + n

/-! ## The space table (R280, R281) -/

/-- The entry of a space in the space table: INSTANCE, and what a slot keeps; none while the table is not in use, or for an
entry that is not VALID or breaks the rules on reserved fields. -/
def spaceEntry (s : State) (space : Nat) : Option (Nat × SlotInfo) :=
  if !flagF s f_XLT_SPACE_BASE_ENABLE then none else
  let a := getF s f_XLT_SPACE_BASE_ADDR * 4096 + 16 * space
  let w0 := memLE s.host a 8
  let w1 := memLE s.host (a + 8) 8
  if !bitAt w0 0 || 1 < bitsOf w0 2 2 || bitsOf w0 4 9 ≠ 0 || 256 ≤ w1 then none
  else some (w1 % 256, ⟨space, w1 % 256, bitsOf w0 1 1, bitsOf w0 2 2, w0 / 8192 * 8192⟩)

/-- The instance that owns a space: of its context, or of its space-table entry. -/
def spaceOwner (s : State) (space : Nat) : Option Nat :=
  match ctxOf s space with
  | some c => some c.inst
  | none => (spaceEntry s space).map Prod.fst

/-- The slot data by which device work reaches a context's space: its slot's, or its table entry's while it is not
resident. -/
def ctxSlot (s : State) (space : Nat) : SlotInfo :=
  match slotOf s space with
  | some (_, x) => x
  | none => ((spaceEntry s space).map Prod.snd).getD { SlotInfo.empty with space := space, inst := 0xFF }

/-! ## Queues (R374, R386) -/

/-- The status block of a queue (R374). -/
def statusBlock (s : State) (q : Nat) (v : Queue) : List Byte :=
  leBytes 4 v.head ++ leBytes 1 v.state ++ leBytes 1 (instarOf s (.queue q)) ++ leBytes 2 v.code ++ leBytes 8 v.completed
    ++ leBytes 4 v.failedAt ++ List.replicate 44 0

/-- Writes the status block; one whose address does not translate at once is not written (log entry 25). -/
def writeStatus (s : State) (q : Nat) : State :=
  match queueOf s q with
  | none => s
  | some v => (devWrite s (ctxSlot s v.space) q 0 v.status (statusBlock s q v)).2

/-- Queue states (R374). -/
def qRunning : Nat := 0
def qStopped : Nat := 1
def qPropagating : Nat := 2
def qDestroyed : Nat := 3

/-- Puts a queue in a state with a code: the status block is written and a QUEUE_STOPPED record posted (R386). -/
def haltQueue (s : State) (q state code idx tag : Nat) : State :=
  match queueOf s q with
  | none => s
  | some v =>
    let s := writeStatus (modQueue s q (fun v => { v with state := state, code := code, failedAt := idx, badBell := false })) q
    postEvent s v.win (eventRecord 0x17 code v.space v.num idx tag s.now)

/-- Stops a queue (R364, R376, R377). -/
def stopQueue (s : State) (q code idx tag : Nat) : State := haltQueue s q qStopped code idx tag

/-- The queues of a context. -/
def queuesOf (s : State) (space : Nat) : List Nat := (s.queues.filter (fun kv => kv.2.space = space)).map Prod.fst

/-- The commands on chip of a context. -/
def cmdsOf (s : State) (space : Nat) : List (Nat × Cmd) := s.cmds.filter (fun kv => kv.2.space = space)

/-- INSTAR_ADVANCE: a unit whose advance waited takes it once 100 µs have passed since the last (R357). A Q_CREATE or
Q_DESTROY that waited for it is then done (R404). -/
def execInstarAdvance (u : Unit8) (s : State) : Out :=
  .next (
    let n := mget 0 s.instarDue u.key
    if n = 0 || !instarReady s u then s
    else
      let s := stepInstar { s with instarDue := mset 0 s.instarDue u.key (n - 1) } u
      match u with
      | .queue q => match queueOf s q with
        | none => s
        | some v =>
          if n ≠ 1 || (v.state ≠ 4 && v.state ≠ qDestroyed) then s
          else
            let s := setF s f_SCH_RESULT_BUSY 0 0 v.win
            if v.state = qDestroyed then { writeStatus s q with queues := mdel (writeStatus s q).queues q }
            else writeStatus (modQueue s q (fun v => { v with state := qRunning, progress := s.now })) q
      | _ => s)

/-! ## Starting and ready work (R378, R386, R388) -/

/-- Is an Imago fenced by a compute reset (R514)? -/
def fenced (s : State) (inst : Nat) : Bool :=
  flagF s f_RST_STATUS_CHIP_RESET || (inst < 32 && bitAt (getF s f_RST_IMG_RESET_MASK) inst)

/-- SIGNAL, WAIT and MARKER, which act while their context is resident (R378). -/
def actsResident (op : Nat) : Bool := op = opSignal || op = opWait || op = opMarker

/-- Has a command started, or failed before it could? -/
def Cmd.going (c : Cmd) : Bool := c.start.isSome || c.fin.isSome

/-- Does a queue still have to react to a failure of one of its commands (R386)? -/
def failing (s : State) (v : Queue) : Bool :=
  v.mode ≠ 2 && v.cmds.any (fun i => match cmdOf s i with
    | some c => !c.quiet && c.fin.isSome && c.fin ≠ some 0 && (v.state = qRunning || (v.state = qStopped && v.badBell))
    | none => false)

/-- Does the order of a queue let a command start (R378)? Commands that completed are no longer in the queue's list. -/
def orderLets (s : State) (v : Queue) (id : Nat) (c : Cmd) : Bool :=
  let before := v.cmds.takeWhile (fun x => x ≠ id)
  v.cmds.contains id && (!bitAt (c.num 1 1) 0 || before.isEmpty) && before.all (fun x => match cmdOf s x with
    | some b => b.going && !(b.op = opSignal || b.op = opWait)
    | none => true)

/-- Could a command start, holder or not (R378, R386)? -/
def couldStart (s : State) (id : Nat) (c : Cmd) : Bool :=
  !c.going && match queueOf s c.queue with
    | none => false
    | some v => (v.state = qRunning || v.state = qPropagating || (v.state = qStopped && v.badBell)) && orderLets s v id c
      && !failing s v

/-- Has a context ready work (R388): saved batches, a command that could start, or work of a started command that a handover
stopped and that can go on (log entry 26)? -/
def readyWork (s : State) (space : Nat) : Bool :=
  match ctxOf s space with
  | none => false
  | some x => x.slot.isSome && x.down.isNone
    && (!x.saved.isEmpty || (cmdsOf s space).any (fun kv => couldStart s kv.1 kv.2
      || (!kv.2.kept.isEmpty && kv.2.fin.isNone)
      || (kv.2.start.isSome && kv.2.fin.isNone && kv.2.running = 0
        && (kv.2.op = opCopy || kv.2.op = opFill || kv.2.op = opMigrate || kv.2.op = opCollective || (kv.2.op = opKernel && !kv.2.begun))))
      || (nextKernel s space).isSome)

/-- Has a context a command running, other than a WAIT? -/
def runningWork (s : State) (space : Nat) : Bool :=
  (cmdsOf s space).any (fun kv => kv.2.start.isSome && kv.2.fin.isNone && kv.2.op ≠ opWait) || !(coresOf s space).isEmpty

/-! ## The scheduler of a brood (R388 to R391) -/

/-- The scheduler of an Imago. -/
def sched (s : State) (i : Nat) : Sched := mget Sched.empty s.scheds i

/-- Changes a scheduler. -/
def modSched (s : State) (i : Nat) (f : Sched → Sched) : State := { s with scheds := mput s.scheds i (f (sched s i)) }

/-- A context's priority. -/
def prioOf (s : State) (space : Nat) : Nat := ((ctxOf s space).map Ctx.prio).getD 0

/-- The slot number of a resident context. -/
def slotNum (s : State) (space : Nat) : Nat := ((slotOf s space).map Prod.fst).getD 0

/-- The contexts of an Imago's brood with ready work. -/
def readyCtxs (s : State) (i : Nat) : List Nat :=
  (s.ctxs.filter (fun kv => kv.2.inst = i && readyWork s kv.1)).map Prod.fst

/-- The next context after a slot number, round robin by slot. -/
def nextAfter (s : State) (l : List Nat) (last : Nat) : Option Nat :=
  let lowest (l : List Nat) : Option Nat := l.foldl (fun best c => match best with
    | none => some c
    | some b => if slotNum s c < slotNum s b then some c else best) none
  match lowest (l.filter (fun c => decide (last < slotNum s c))) with
  | some c => some c
  | none => lowest l

/-- The function choose_holder of R388 among contexts; answers the choice and the displaced lists left. -/
def chooseHolder (s : State) (i : Nat) (ready : List Nat) : Option Nat × State :=
  match ready with
  | [] => (none, s)
  | c :: cs =>
    let p := cs.foldl (fun a x => min a (prioOf s x)) (prioOf s c)
    let d := (sched s i).displaced.filter (fun x => (slotOf s x.2).isSome)
    match d.find? (fun x => x.1 = p) with
    | some x => (some x.2, modSched s i (fun v => { v with displaced := d.erase x }))
    | none => (nextAfter s (ready.filter (fun x => prioOf s x = p)) (mget 64 (sched s i).last p), s)

/-- Sets the state of a context's slot. -/
def setSlotState (s : State) (space st : Nat) : State :=
  match slotOf s space with
  | some (k, _) => setF s f_SCH_SLOT_STATE k st
  | none => s

/-- Starts a holder's slice (R389): SLICE_US less its debt, at least 100 µs; the part of a displaced holder. -/
def startSlice (s : State) (i space : Nat) : State :=
  match ctxOf s space with
  | none => s
  | some x =>
    let us := if x.sliceUs = 0 then getF s f_SCH_CFG_SLICE_DEF_US else x.sliceUs
    let full := us * usTicks
    let len := match x.left with
      | some l => l
      | none => max (full - x.debt) (100 * usTicks)
    let debt := match x.left with
      | some _ => x.debt
      | none => x.debt - (full - len)
    let s := modCtx s space (fun x => { x with left := none, debt := debt, ran := s.now })
    modSched s i (fun v => { v with start := some s.now, len := len })

/-- Names a context the holder of an Imago, or none. -/
def setHolder (s : State) (i : Nat) (c : Option Nat) : State :=
  match c with
  | none => setF s f_SCH_IMG_VALID i 0
  | some c =>
    let s := setF (setF s f_SCH_IMG_HOLDER i (slotNum s c)) f_SCH_IMG_VALID i 1
    modSched (setSlotState s c slotHolder) i (fun v => { v with last := mput v.last (prioOf s c) (slotNum s c) })

/-- Hands the Imago over from its holder to another context, or to none (R391): the holder yields. -/
def handOver (s : State) (i old : Nat) (new : Option Nat) : State :=
  let s := setSlotState s old slotYielding
  let s := modSched s i (fun v => { v with old := some old, yieldAt := s.now, start := none, late := 0 })
  setHolder s i new

/-- Has the slice of an Imago's holder ended? -/
def sliceOver (s : State) (i : Nat) : Bool :=
  match (sched s i).start with
  | some t => dueRun s t (sched s i).len
  | none => false

/-- The scheduler's decision (R388, R389): for an Imago without a holder; for a higher priority with ready work, which
displaces the holder; at the end of the slice, which is renewed without a rival; and for a holder without ready or running
work. Nothing is decided while a handover is in progress. -/
def schedule (s : State) (i : Nat) : State :=
  if 32 ≤ i || (sched s i).old.isSome || fenced s i then s else
  let ready := readyCtxs s i
  match holderOf s i with
  | none =>
    let (c, s) := chooseHolder s i ready
    match c with
    | none => s
    | some c => startSlice (setHolder s i (some c)) i c
  | some h =>
    let p := prioOf s h
    let higher := ready.filter (fun c => decide (prioOf s c < p))
    let rivals := ready.filter (fun c => c ≠ h && decide (prioOf s c ≤ p))
    if !higher.isEmpty then
      let gone := match (sched s i).start with
        | some t => sinceRun s t
        | none => 0
      let s := modCtx s h (fun x => { x with left := some ((sched s i).len - gone) })
      let s := modSched s i (fun v => { v with displaced := v.displaced ++ [(p, h)] })
      let (c, s) := chooseHolder s i higher
      handOver s i h c
    else if sliceOver s i && rivals.isEmpty && (readyWork s h || runningWork s h) then startSlice s i h
    else if sliceOver s i && !rivals.isEmpty then
      let (c, s) := chooseHolder s i ready
      match c with
      | some c => if c = h then startSlice s i h else handOver s i h (some c)
      | none => s
    else if !readyWork s h && !runningWork s h then
      let (c, s) := chooseHolder s i ready
      handOver s i h c
    else s

/-! ## Objects (R368, R369) -/

/-- An object's key: its context's space and its index. -/
def objKey (space handle : Nat) : Nat := space * 2 ^ 24 + handle % 2 ^ 24

/-- The address of an object table entry. -/
def objVa (x : Ctx) (handle : Nat) : Nat := x.objVa + 32 * (handle % 2 ^ 24)

/-- Objects that commands reference: the entries of the reference table in use. -/
def objsReferenced (s : State) : Nat := (s.objs.filter (fun kv => decide (0 < kv.2.refs))).length

/-- Retires the objects that are being freed and have no reference left: the entry becomes RETIRED and the record is posted,
while the window's event queue has room (R369, R401). One whose table has still to be read on another chip waits. -/
def retireObjects (s : State) : State :=
  s.objs.foldl (fun s kv =>
    let space := kv.1 / 2 ^ 24
    match ctxOf s space with
    | none => { s with objs := mdel s.objs kv.1 }
    | some x =>
      if !kv.2.freeing || kv.2.refs ≠ 0 || !evRoom s x.win then s
      else match devWrite s (ctxSlot s space) (adminQ x.win) 0 (objVa x kv.2.handle + 0x11) [3] with
        | (.wait, s) => s
        | (_, s) => postEvent { s with objs := mdel s.objs kv.1 } x.win
            (eventRecord 0x11 0 space kv.2.handle kv.2.va kv.2.bytes s.now)) s

/-- Takes one reference on each object of a command. -/
def takeRefs (s : State) (keys : List Nat) : State :=
  keys.foldl (fun s k => { s with objs := mmod ⟨0, false, 0, 0, 0⟩ s.objs k (fun o => { o with refs := o.refs + 1 }) }) s

/-- Releases a command's references; what is freed retires. -/
def dropRefs (s : State) (keys : List Nat) : State :=
  retireObjects (keys.foldl (fun s k => match mfind s.objs k with
    | none => s
    | some o =>
      if o.refs ≤ 1 && !o.freeing then { s with objs := mdel s.objs k }
      else { s with objs := mput s.objs k { o with refs := o.refs - 1 } }) s)

/-! ## The window operations (R404) -/

/-- The result codes of R404. -/
def resOk : Nat := 0
def resSpaceRefused : Nat := 0x0A01
def resExists : Nat := 0x0A02
def resNotFound : Nat := 0x0A03
def resBadArg : Nat := 0x0A04
def resQueueRange : Nat := 0x0A05
def resNoDirectory : Nat := 0x0A06
def resQueueBusy : Nat := 0x0A07
def resFenceFault : Nat := 0x0A08

/-- No result: an operation that waits for an answer of another chip is performed by the same command later (log entry 60). -/
def resWait : Nat := 0x10000

/-- An argument of a window's operation. -/
def schArg (s : State) (win k : Nat) : Nat := getR s r_SCH_ARG k win

/-- Performs a window operation whose arguments use no bits outside the masks: its result is set; `busy` leaves BUSY set. A
command to a window that takes no writes, or while BUSY, is discarded (R403, R448). -/
def schOp (s : State) (win : Nat) (masks : List Nat) (f : State → Nat × State) : State :=
  if !winOpen s win || flagF s f_SCH_RESULT_BUSY 0 win then s else
  let ok := (List.range 4).all (fun k => Nat.land (schArg s win k) (masks.getD k 0) = schArg s win k)
  let r := if ok then f s else (resBadArg, s)
  if r.1 = resWait then r.2 else setF r.2 f_SCH_RESULT_CODE 0 r.1 win

/-- All bits of an argument, and the bits of a space ID. -/
def argAll : Nat := 2 ^ 64 - 1
def argSpace : Nat := 2 ^ 20 - 1

/-- Does a context descriptor hold fields within their ranges and zeros in reserved places (R362)? -/
def ctxDescOk (d : List Byte) (space : Nat) : Bool :=
  let num (o n : Nat) : Nat := leNat ((d.drop o).take n)
  let slice := num 8 4
  num 0 4 = space && num 4 1 < 4 && num 5 3 = 0 && (slice = 0 || (100 ≤ slice && slice ≤ 100000))
    && 1 ≤ num 0xC 4 && num 0xC 4 ≤ 144 && num 0x10 8 % 0x200000 = 0 && num 0x10 8 + num 0xC 4 * 0xD00000 ≤ 2 ^ 49
    && num 0x18 8 % 64 = 0 && num 0x18 8 < 2 ^ 49 && num 0x20 4 ≤ 2 ^ 24 && num 0x24 28 = 0

/-- What cores keep of an earlier context of a space is none of a new one's: its reservations, and its contents (R73, R74). -/
def forgetSpace (s : State) (space : Nat) : State :=
  { s with cores := s.cores.map (fun kv : Nat × Core => (kv.1, { kv.2 with
      region := kv.2.region.filter (fun t => t.space ≠ space)
      lastCtx := if kv.2.lastCtx = some space then none else kv.2.lastCtx })) }

/-- CTX_CREATE: the space's entry and the descriptor are checked; the descriptor's address goes into the context directory
(R362, R363). -/
def execCtxCreate (win : Nat) (s : State) : Out :=
  .next (schOp s win [argSpace, argAll, 0, 0] (fun s =>
    let space := schArg s win 0
    let a := schArg s win 1
    let d := memBytes s.host a 64
    let num (o n : Nat) : Nat := leNat ((d.drop o).take n)
    if !flagF s f_SCH_CTX_DIR_ENABLE then (resNoDirectory, s)
    else if (spaceEntry s space).map Prod.fst ≠ some (instOfWin win) then (resSpaceRefused, s)
    else if (ctxOf s space).isSome then (resExists, s)
    else if a % 64 ≠ 0 || 2 ^ 47 ≤ a || !ctxDescOk d space then (resBadArg, s)
    else
      let x : Ctx := ⟨instOfWin win, win, a, num 4 1, num 8 4, num 0xC 4, num 0x10 8, num 0x18 8, num 0x20 4, none, [], 0,
        none, s.now, none, false, 0, 0, 0⟩
      let s := forgetSpace s space
      (resOk, { s with
        ctxs := mput s.ctxs space x
        host := memPut s.host (getF s f_SCH_CTX_DIR_ADDR * 4096 + 8 * space) (leBytes 8 a) })))

/-- The context that an operation of a window names, or the result that refuses it (R404). -/
def winCtx (s : State) (win space : Nat) : Nat × Option Ctx :=
  match ctxOf s space with
  | none => (resNotFound, none)
  | some x => if x.down.isSome then (resNotFound, none) else if x.win ≠ win then (resSpaceRefused, none) else (resOk, some x)

/-- The requests that a context's work has outstanding. -/
def spaceReqs (s : State) (space : Nat) : List (Nat × MemReq) :=
  s.reqs.filter (fun kv => kv.2.space = space && kv.2.stage ≠ .done && match kv.2.owner with
    | .walk _ => false
    | .landing _ => false
    | .link _ => false
    | _ => true)

/-- Begins the teardown of a context (R394): its queues stop, its batches stop issue and are not saved, and it holds no
Imago. A save that it cuts short leaves its frame, which R546 gives no contents then, with the bytes it had (log entry 60). -/
def teardown (s : State) (space code : Nat) : State :=
  match ctxOf s space with
  | none => s
  | some x =>
    if x.down.isSome then s else
    let i := x.inst
    let hold := holderOf s i = some space
    let s := setSlotState s space slotTeardown
    let s := modCtx s space (fun x => { x with down := some (code, s.now), drained := (spaceReqs s space).length })
    let s := modSched s i (fun v => { v with
      displaced := v.displaced.filter (fun d => d.2 ≠ space), old := if v.old = some space then none else v.old })
    let s := (coresOf s space).foldl (fun s c => match batchOf s c with
      | some b => setBatch s c (some (b.stopFor .teardown s.now))
      | none => s) s
    let s := if hold then setHolder s i none else s
    let s := if i < 32 && (sched s i).old.isNone then match holderOf s i with
        | some h => if (sched s i).start.isNone then startSlice s i h else s
        | none => s
      else s
    schedule s i

/-- CTX_DESTROY: teardown with CONTEXT_DESTROYED (R394, R404). -/
def execCtxDestroy (win : Nat) (s : State) : Out :=
  .next (schOp s win [argSpace, 0, 0, 0] (fun s =>
    let r := winCtx s win (schArg s win 0)
    if r.2.isNone then (r.1, s) else (resOk, teardown s (schArg s win 0) errContextDestroyed)))

/-- CTX_KILL: teardown with PRODUCER_LOST. -/
def execCtxKill (win : Nat) (s : State) : Out :=
  .next (schOp s win [argSpace, 0, 0, 0] (fun s =>
    let r := winCtx s win (schArg s win 0)
    if r.2.isNone then (r.1, s) else (resOk, teardown s (schArg s win 0) errProducerLost)))

/-- Q_CREATE: binds a queue number to a ring, error mode and status block of a context; the descriptor's instar advances, and
BUSY stays set while that waits (R374, R404). -/
def execQCreate (win : Nat) (s : State) : Out :=
  .next (schOp s win [65535 + 2 ^ 32 * argSpace, argAll, 0x31F, argAll] (fun s =>
    let n := schArg s win 0 % 65536
    let space := bitsOf (schArg s win 0) 32 20
    let ring := schArg s win 1
    let log2 := schArg s win 2 % 32
    let mode := bitsOf (schArg s win 2) 8 2
    let st := schArg s win 3
    let q := queueDescOf s win n
    let r := winCtx s win space
    if winQueues s win ≤ n then (resQueueRange, s)
    else if r.2.isNone then (r.1, s)
    else if (queueOf s q).isSome then (resExists, s)
    else if log2 < 4 || 16 < log2 || mode = 3 || ring % 4096 ≠ 0 || 2 ^ 49 ≤ ring || st % 64 ≠ 0 || 2 ^ 49 ≤ st then (resBadArg, s)
    else
      let wait := !(instarReady s (.queue q) && mget 0 s.instarDue (Unit8.queue q).key = 0)
      let v : Queue := ⟨space, win, n, ring, log2, mode, st, if wait then 4 else qRunning, 0, 0, 0, 0, 0, 0, [], false, 0, none, s.now⟩
      let s := advanceInstar { s with queues := mput s.queues q v } (.queue q)
      if wait then (resOk, setF s f_SCH_RESULT_BUSY 0 1 win) else (resOk, writeStatus s q)))

/-- The queue that an operation names, if it exists. -/
def winQueue (s : State) (win n : Nat) : Option (Nat × Queue) :=
  let q := queueDescOf s win n
  if winQueues s win ≤ n then none else
  match queueOf s q with
  | none => none
  | some v => if v.state = qDestroyed || v.state = 4 || v.win ≠ win then none else some (q, v)

/-- Q_DESTROY: destroys a queue with no command taken; the descriptor's instar advances, and while that has to wait the queue takes
nothing and stands (R357, R374, R404). -/
def execQDestroy (win : Nat) (s : State) : Out :=
  .next (schOp s win [65535, 0, 0, 0] (fun s =>
    match winQueue s win (schArg s win 0 % 65536) with
    | none => (if winQueues s win ≤ schArg s win 0 % 65536 then resQueueRange else resNotFound, s)
    | some (q, v) =>
      if !v.cmds.isEmpty then (resQueueBusy, s) else
      let wait := !(instarReady s (.queue q) && mget 0 s.instarDue (Unit8.queue q).key = 0)
      let s := modQueue s q (fun v => { v with state := qDestroyed })
      if wait then (resOk, setF (advanceInstar s (.queue q)) f_SCH_RESULT_BUSY 0 1 win)
      else
        let s := advanceInstar (writeStatus s q) (.queue q)
        (resOk, { s with queues := mdel s.queues q })))

/-- Fails a command that has not started. -/
def failEarly (s : State) (id code : Nat) (quiet : Bool) : State :=
  modCmd s id (fun c => if c.going then c else { c with start := some s.now, fin := some code, quiet := quiet })

/-- Q_RESUME: a stopped or propagating queue runs again; with FLUSH, every command taken and not started and every visible
entry fails with QUEUE_FLUSHED (R376, R386). -/
def execQResume (win : Nat) (s : State) : Out :=
  .next (schOp s win [0x1FFFF, 0, 0, 0] (fun s =>
    match winQueue s win (schArg s win 0 % 65536) with
    | none => (if winQueues s win ≤ schArg s win 0 % 65536 then resQueueRange else resNotFound, s)
    | some (q, v) =>
      let flush := bitAt (schArg s win 0) 16
      let s := if flush then v.cmds.foldl (fun s id => failEarly s id errQueueFlushed true) s else s
      let n := if flush then (v.tail + 2 ^ v.log2 - v.head) % 2 ^ v.log2 else 0
      let s := modQueue s q (fun v => { v with state := qRunning, code := 0, failedAt := 0, badBell := false, flush := n })
      (resOk, schedule (writeStatus s q) (instOfWin win))))

/-- OBJ_FREE: a live object becomes FREEING, and RETIRED once no command references it (R369). -/
def execObjFree (win : Nat) (s : State) : Out :=
  .next (schOp s win [argSpace, 2 ^ 32 - 1, 0, 0] (fun s =>
    let space := schArg s win 0
    let h := schArg s win 1
    let r := winCtx s win space
    match r.2 with
    | none => (r.1, s)
    | some x =>
      let key := objKey space h
      if h = 0 || x.objCount ≤ h % 2 ^ 24 || ((mfind s.objs key).map ObjRec.freeing) = some true then (resNotFound, s) else
      match devRead s (ctxSlot s space) (adminQ win) 0 (objVa x h) 32 with
      | (.wait, s) => (resWait, s)
      | (.ok d 0, s) =>
        let num (o n : Nat) : Nat := leNat ((d.drop o).take n)
        if num 0x11 1 ≠ 1 || num 0x10 1 ≠ h / 2 ^ 24 then (resNotFound, s) else
        let s := (devWrite (devDone s (adminQ win) 0) (ctxSlot s space) (adminQ win) 0 (objVa x h + 0x11) [2]).2
        let o := mget ⟨0, false, 0, 0, 0⟩ s.objs key
        (resOk, retireObjects { s with objs := mput s.objs key { o with freeing := true, handle := h, va := num 0 8, bytes := num 8 8 } })
      | (_, s) => (resNotFound, devDone s (adminQ win) 0)))

/-- A fence operation of a window (R371, R404): FENCE_FAULT when the address does not translate. -/
def winFence (s : State) (win : Nat) (mask : Nat) (act : Nat → FenceAct) : State :=
  schOp s win [argSpace, argAll, mask, 0] (fun s =>
    let space := schArg s win 0
    let r := winCtx s win space
    if r.2.isNone then (r.1, s) else
    match fenceOp s (ctxSlot s space) win (schArg s win 1) (act (schArg s win 2)) (adminQ win) 0 false with
    | .done s => (resOk, devEnd s (adminQ win) 0)
    | .sent s => (resOk, devEnd s (adminQ win) 0)
    | .wait s => (resWait, s)
    | .failed _ s => (resFenceFault, devEnd s (adminQ win) 0))

/-- FENCE_SIGNAL. -/
def execFenceSignal (win : Nat) (s : State) : Out := .next (winFence s win argAll FenceAct.signal)

/-- FENCE_ERROR. -/
def execFenceError (win : Nat) (s : State) : Out := .next (winFence s win 65535 FenceAct.error)

/-- FENCE_RESET. -/
def execFenceReset (win : Nat) (s : State) : Out := .next (winFence s win argAll FenceAct.reset)

/-! ## Doorbells (R375, R376) -/

/-- May a doorbell move the TAIL of a queue: no bit at or above LOG2, and neither past HEAD nor to a full ring (R376)? -/
def doorbellOk (v : Queue) (t : Nat) : Bool :=
  let n := 2 ^ v.log2
  t < n && (t + n - v.tail % n) % n ≤ n - 1 - (v.tail + n - v.head % n) % n

/-- DOORBELL: a write of SCH_DB_n makes entries visible, or stops the queue with COMMAND_INVALID (R376). A doorbell for a queue
that does not exist or is being destroyed is discarded (R359, R397). -/
def execDoorbell (win n v : Nat) (s : State) : Out :=
  .next (
    let t := v % 65536
    if !winOpen s win then s else
    match winQueue s win n with
    | none => if ((queueOf s (queueDescOf s win n)).map Queue.state) = some qDestroyed then countStale s (.queue (queueDescOf s win n)) else s
    | some (q, w) =>
      if t = w.tail || ((ctxOf s w.space).bind Ctx.down).isSome then s
      else if doorbellOk w t then schedule (modQueue s q (fun w => { w with tail := t, progress := s.now })) (instOfWin win)
      else modQueue (stopQueue s q errCommandInvalid t 0) q (fun w => { w with badBell := true }))

/-! ## Validation (R377, R380) -/

/-- A range check of a body field. -/
def within (lo hi v : Nat) : Bool := lo ≤ v && v ≤ hi

/-- Is an address aligned and below 2⁴⁹? -/
def addrOk (align v : Nat) : Bool := v % align = 0 && v < 2 ^ 49

/-- The body of a command: its fields in range, its addresses well formed, its unused bytes zero (R380). -/
def bodyOk (c : Cmd) : Bool :=
  let n := c.num
  if c.op = opKernel then addrOk 1 (n 0x20 8) && n 0x28 16 = 0
  else if c.op = opCopy then addrOk 64 (n 0x20 8) && within 1 65536 (n 0x28 4) && within 1 32 (n 0x2C 4) && n 0x30 8 = 0
  else if c.op = opFill then addrOk 1 (n 0x20 8) && within 1 (2 ^ 48) (n 0x28 8)
  else if c.op = opSignal then n 0x20 1 ≤ 2 && n 0x21 1 = 0 && n 0x24 20 = 0
  else if c.op = opWait then addrOk 16 (n 0x20 8) && n 0x34 4 = 0
  else if c.op = opCollective then addrOk 128 (n 0x20 8) && 1 ≤ n 0x2C 4 && n 0x30 8 = 0
  else if c.op = opGate then addrOk 256 (n 0x20 8) && n 0x28 16 = 0
  else if c.op = opAtomic then addrOk 32 (n 0x20 8) && within 1 16 (n 0x28 1) && n 0x29 1 ≤ 1 && n 0x2A 6 = 0 && addrOk 8 (n 0x30 8)
  else if c.op = opMigrate then addrOk 16 (n 0x20 8) && within 1 65536 (n 0x28 4) && n 0x2C 1 ≤ 3 && n 0x2D 11 = 0
  else c.op = opMarker && addrOk 16 (n 0x28 8) && n 0x30 1 ≤ 1 && n 0x31 7 = 0

/-- Is the completion fence's address well formed (R377)? -/
def fenceVaOk (c : Cmd) : Bool := addrOk 16 (c.num 8 8)

/-- An entry's fields but its object references (R377). -/
def entryOk (c : Cmd) : Bool :=
  let k := c.num 3 1
  let r := c.num 0x18 8
  c.num 1 1 ≤ 1 && c.num 2 1 ≤ 7 && fenceVaOk c && addrOk 64 (c.num 0x38 8)
    && (if k = 0 then r = 0 else if k = 1 then r < 2 ^ 32 else k = 2 || addrOk 4 r) && bodyOk c

/-- The outcome of a validation: an error with what references it takes, not yet, or missing ranges. -/
inductive Valid where
  | ok (bad : Nat) (refs : List Nat)
  | wait
  | fault (fs : List TileFault)
  deriving DecidableEq, Repr

/-- Checks the handles of a command one after another (R368, R369, R377). -/
def checkHandles (s : State) (slot : SlotInfo) (q : Nat) (x : Ctx) : List Nat → List Nat → Valid × State
  | [], refs => (.ok 0 refs, s)
  | h :: hs, refs =>
    if h = 0 then checkHandles s slot q x hs refs
    else if x.objCount ≤ h % 2 ^ 24 then (.ok errObjectInvalid [], s)
    else match devRead s slot q 0 (objVa x h) 32 with
      | (.ok d bad, s) =>
        let st := (d.getD 0x11 0).toNat
        if bad ≠ 0 || st = 0 || 3 < st then (.ok errObjectInvalid [], s)
        else if (d.getD 0x10 0).toNat ≠ h / 2 ^ 24 || st ≠ 1 || ((mfind s.objs (objKey slot.space h)).map ObjRec.freeing) = some true then
          (.ok errObjectRetired [], s)
        else checkHandles s slot q x hs (refs ++ [objKey slot.space h])
      | (.fault f, s) => (.fault f, s)
      | (.wait, s) => (.wait, s)
      | (.error _, s) => (.ok errObjectInvalid [], s)

/-- Validates an entry (R377). -/
def validate (s : State) (slot : SlotInfo) (q : Nat) (x : Ctx) (c : Cmd) : Valid × State :=
  if !entryOk c then (.ok errCommandInvalid [], s) else
  let k := c.num 3 1
  if k ≤ 2 then checkHandles s slot q x (([c.num 0x18 4, c.num 0x1C 4]).take k) []
  else match devRead s slot q 0 (c.num 0x18 8) (4 * k) with
    | (.ok d bad, s) =>
      if bad ≠ 0 then (.ok errObjectInvalid [], s)
      else checkHandles s slot q x ((List.range k).map (fun i => leNat ((d.drop (4 * i)).take 4))) []
    | (.fault f, s) => (.fault f, s)
    | (.wait, s) => (.wait, s)
    | (.error _, s) => (.ok errObjectInvalid [], s)

/-- Puts a validated command on chip; HEAD passes its entry, and every 16th entry writes the status block (R374, R375). -/
def enterCmd (s : State) (q : Nat) (v : Queue) (c : Cmd) : State :=
  let (id, s) := fresh (devDone s q 0)
  let s := takeRefs { s with cmds := mput s.cmds id c } c.refs
  let s := modQueue s q (fun w => { w with
    head := (v.head + 1) % 2 ^ v.log2, cmds := w.cmds ++ [id], taken := (w.taken + 1) % 16, flush := w.flush - 1
    progress := s.now })
  if v.taken = 15 then writeStatus s q else s

/-- A command as its entry gives it. -/
def Cmd.ofEntry (q idx : Nat) (bytes : List Byte) (space : Nat) (x : Ctx) : Cmd :=
  { queue := q, idx := idx, bytes := bytes, space := space, inst := x.inst, win := x.win, bad := 0, fenceOk := true, refs := []
    start := none, begun := false, next := 0, running := 0, err := 0, fin := none, count := 0, flags := 0, poisoned := 0
    written := 0, capped := false, preempted := false, overrun := false, overPosted := false, stalled := 0, kept := []
    quiet := false, post := false, old := none }

/-- Takes an entry of a torn down or flushed queue: it fails without validation. -/
def takeFailing (s : State) (q : Nat) (v : Queue) (c : Cmd) (code : Nat) : State :=
  let s := modCtx s v.space (fun x => if x.down.isSome then { x with failed := x.failed + 1 } else x)
  enterCmd s q v { c with fenceOk := fenceVaOk c, start := some s.now, fin := some code, quiet := true }

/-- COMMAND_TAKE: the next visible entry of a queue is read, validated and copied on chip, with its references (R369, R375,
R377). A poisoned or unreachable entry stops the queue. -/
def execCommandTake (q : Nat) (s : State) : Out :=
  .next (match queueOf s q with
    | none => s
    | some v => match ctxOf s v.space with
      | none => s
      | some x =>
        let down := x.down.isSome
        let takes := v.state = qRunning || v.state = qPropagating || (down && v.state = qStopped)
        if !takes || v.head = v.tail || 64 ≤ v.cmds.length || 32768 ≤ s.cmds.length || (x.slot.isNone && !down)
          || (devStalled s q 0 && !down) then s else
        let slot := ctxSlot s v.space
        match devRead s slot q 0 (v.ring + 64 * v.head) 64 with
        | (.wait, s) => s
        | (.fault f, s) =>
          if down then modQueue s q (fun w => { w with head := w.tail }) else devStall s (slotNum s v.space) slot q 0 1 f
        | (.error e, s) => if down then modQueue s q (fun w => { w with head := w.tail }) else stopQueue (devDone s q 0) q e v.head 0
        | (.ok d bad, s) =>
          let c := Cmd.ofEntry q v.head d v.space x
          if bad ≠ 0 then
            if down then modQueue s q (fun w => { w with head := w.tail }) else stopQueue (devDone s q 0) q errDataPoison v.head 0
          else if down then takeFailing s q v c ((x.down.map Prod.fst).getD 0)
          else if v.flush ≠ 0 then takeFailing s q v c errQueueFlushed
          else match validate s slot q x c with
            | (.wait, s) => s
            | (.fault f, s) => devStall s (slotNum s v.space) slot q 0 1 f
            | (.ok e refs, s) =>
              let new := (refs.filter (fun k => ((mfind s.objs k).map ObjRec.refs).getD 0 = 0)).eraseDups
              if 65536 < objsReferenced s + new.length then setF s f_SCH_STATUS_OBJREF_FULL 0 1
              else
                let s := setF s f_SCH_STATUS_OBJREF_FULL 0 0
                schedule (retireObjects (enterCmd s q v { c with bad := e, fenceOk := fenceVaOk c, refs := refs })) x.inst)

/-! ## Residency (R364, R365, R367, R440) -/

/-- Does a context need a slot: a visible entry, a command that could start, or one that a released waiter has ended? -/
def wantsSlot (s : State) (space : Nat) : Bool :=
  (queuesOf s space).any (fun q => match queueOf s q with
    | some v => (v.state = qRunning || v.state = qPropagating) && v.head ≠ v.tail && v.cmds.length < 64
    | none => false)
  || (cmdsOf s space).any (fun kv => kv.2.fin.isSome || couldStart s kv.1 kv.2)

/-- Does every page of a save area lie under a leaf of location 0 (R364)? The walk goes page by page of whatever size, as device work
kept under a queue number; none while a table entry of another chip has still to be read. -/
def saveAreaOk (slot : SlotInfo) (q : Nat) : State → Nat → Nat → Nat → Option Bool × State
  | s, 0, _, _ => (some false, s)
  | s, n + 1, va, top =>
    if top ≤ va then (some true, s) else
    match devXlat s slot q 0 va with
    | .ok x => if x.loc = 0 then saveAreaOk slot q (devTouch s slot q 0 va) n (x.va + x.size) top else (some false, s)
    | .fault _ => (some false, s)
    | .wait _ => (none, devTouch s slot q 0 va)

/-- The resident contexts of an instance. -/
def residents (s : State) (inst : Nat) : List (Nat × Ctx) := s.ctxs.filter (fun kv => kv.2.inst = inst && kv.2.slot.isSome)

/-- May a resident context be evicted: no command of it has started and not completed, other than WAITs (R365)? -/
def evictable (s : State) (space : Nat) (x : Ctx) : Bool :=
  (match x.slot with
    | some k => slotState s k = slotResident
    | none => false)
  && (cmdsOf s space).all (fun kv => !kv.2.start.isSome || (kv.2.op = opWait && kv.2.fin.isNone))
  && !s.colls.any (fun kv => kv.2.space = space && kv.2.fate.isNone)

/-- Releases the slot of a context: its landing slots are squashed, and its instar advances (R186, R357, R365). -/
def leaveSlot (s : State) (space : Nat) : State :=
  match slotOf s space with
  | none => s
  | some (k, _) =>
    let i := instarOf s (.slot k)
    let s := doomIf s (fun l => l.ctx = k)
    let s := modCtx { s with slots := mdel s.slots k } space (fun x => { x with slot := none })
    advanceInstar (setR s r_SCH_SLOT k (i * 2 ^ 24)) (.slot k)

/-- Does a space-table entry name a context's instance, in that instance's world (R281, R451)? -/
def entryFits (s : State) (x : Ctx) (i : Nat) (e : SlotInfo) : Bool :=
  i = x.inst && (x.inst ≥ 32 || getF s f_SEC_INST_WORLD x.inst = e.world)

/-- The entry of a context whose save area, of at most `n` leaves up to `top`, is all local memory. -/
def saveEntry (s : State) (x : Ctx) (e : SlotInfo) (n top : Nat) : Option (Option SlotInfo) × State :=
  let r := saveAreaOk e (adminQ x.win) s n x.saveVa top
  (r.1.map (fun b => if b then some e else none), r.2)

/-- What a context that takes a slot keeps of its space-table entry: none within when the entry does not admit it or its save area is
not all local memory; nothing yet while a table entry of another chip is read (R281, R366). -/
def slotEntry (s : State) (space : Nat) (x : Ctx) : Option (Option SlotInfo) × State :=
  match spaceEntry s space with
  | some (i, e) =>
    if entryFits s x i e then saveEntry s x e (x.frames * 3328 + 1) (x.saveVa + x.frames * 0xD00000) else (some none, s)
  | none => (some none, s)

/-- CONTEXT_RESIDENT: a context with work takes a free slot of its instance, evicting the one that ran least recently when
none is free, once that slot's instar may advance (R357); its descriptor's save area and its space-table entry are checked, and a failure
stops its queues with SAVE_FAULT. -/
def execContextResident (space : Nat) (s : State) : Out :=
  .next (match ctxOf s space with
    | none => s
    | some x =>
      if x.slot.isSome || x.down.isSome || !wantsSlot s space then s else
      let mine := residents s x.inst
      if winSlots s x.win ≤ mine.length then
        match mine.filter (fun kv => evictable s kv.1 kv.2) with
        | [] => s
        | v :: vs =>
          let old := vs.foldl (fun (b : Nat × Ctx) kv => if kv.2.ran < b.2.ran then kv else b) v
          match old.2.slot with
          | some k => if instarReady s (.slot k) && mget 0 s.instarDue (Unit8.slot k).key = 0 then leaveSlot s old.1 else s
          | none => s
      else
        match (List.range 64).find? (fun k => slotState s k = slotFree && instarReady s (.slot k)
            && mget 0 s.instarDue (Unit8.slot k).key = 0) with
        | none => s
        | some k =>
          match slotEntry s space x with
          | (none, s) => s
          | (some none, s) => (queuesOf s space).foldl (fun s q => match queueOf s q with
            | some v => stopQueue s q errSaveFault v.head 0
            | none => s) (devEnd s (adminQ x.win) 0)
          | (some (some e), s) =>
            let s := devEnd s (adminQ x.win) 0
            let s := { s with slots := mput s.slots k e }
            let s := modCtx s space (fun x => { x with slot := some k, ran := s.now })
            let s := setF (setF (setF (setF s f_SCH_SLOT_SPACE k space) f_SCH_SLOT_STATE k slotResident) f_SCH_SLOT_INSTANCE k x.inst)
              f_SCH_SLOT_PRIO k x.prio
            schedule (advanceInstar s (.slot k)) x.inst)

end Sys2Proof.Machine
end

