-- ==== Sys2Proof/Machine/Commands.lean ====
section
/-!
DEFINITION. Commands (R378 to R387): starting, the actions of KERNEL, COPY, FILL, SIGNAL, WAIT, GATE_DISPATCH, ATOMIC_SEQ, MIGRATE and
MARKER, and completion with records, fences and error modes. COLLECTIVE is in Collective.lean.
-/

namespace Sys2Proof.Machine

/-! ## Starting (R378, R382, R384) -/

/-- The base dies whose clusters work for an Imago: those on which it holds a local memory slice, or all (R382). -/
def workDies (s : State) (inst : Nat) : List Nat :=
  let held (d : Nat) : Bool := inst < 32 && (List.range 256).any (fun k =>
    flagF s f_CMP_SLIST_VALID (256 * inst + k) && getF s f_CMP_SLIST_CHIP (256 * inst + k) = chipId s
      && getF s f_CMP_SLIST_SLICE (256 * inst + k) / 64 = d)
  let l := (List.range 4).filter held
  if l.isEmpty then List.range 4 else l

/-- The bulk channels with USE 0 that work for an Imago, by number. -/
def workChannels (s : State) (inst : Nat) : List Nat :=
  (List.range 512).filter (fun n => (workDies s inst).contains (n / 128) && getF s f_TMV_BCH_CFG_USE n = 0)

/-- Does a command's context hold its Imago? -/
def holdsImago (s : State) (c : Cmd) : Bool := holderOf s c.inst = some c.space

/-- May a command start now (R378)? A command of a fenced Imago starts only to fail (R514). None starts while issue is stopped,
and out of service only SIGNAL, WAIT and MARKER do (R483, R525). -/
def mayStart (s : State) (id : Nat) (c : Cmd) : Bool :=
  !chipStopped s && (actsResident c.op || !computeHeld s) && couldStart s id c && (match ctxOf s c.space with
    | some x => x.slot.isSome && x.down.isNone
    | none => false)
    && (actsResident c.op || fenced s c.inst || holdsImago s c)

/-- Does the command need a bulk channel with USE 0 (R382)? -/
def needsBulk (op : Nat) : Bool := op = opCopy || op = opFill || op = opMigrate || op = opCollective

/-- Marks a command started. -/
def beginCmd (s : State) (id : Nat) (c : Cmd) : State :=
  let s := modCmd s id (fun v => { v with start := some s.now })
  modQueue (modCtx s c.space (fun x => { x with ran := s.now })) c.queue (fun v => { v with progress := s.now })

/-- COMMAND_START: a command whose ordering conditions hold starts; one that failed validation, that a PROPAGATING queue
holds, or whose Imago is fenced fails at that moment without running (R377, R378, R386, R514). A GATE_DISPATCH starts when it
enters its Gate unit's queue (R384). -/
def execCommandStart (id : Nat) (s : State) : Out :=
  .next (match cmdOf s id with
    | none => s
    | some c => match queueOf s c.queue with
      | none => s
      | some v =>
        if !mayStart s id c then s
        else if c.bad ≠ 0 then endCmd (beginCmd s id c) id c.bad
        else if v.state = qPropagating then endCmd (modCmd (beginCmd s id c) id (fun c => { c with quiet := true })) id v.code
        else if fenced s c.inst && !actsResident c.op then endCmd (beginCmd s id c) id errFenced
        else if c.op = opGate || (needsBulk c.op && (workChannels s c.inst).isEmpty) then s
        else beginCmd s id c)

/-- A command of an operation that has started, not ended, and whose context goes on, while issue is not stopped (R483). -/
def running (s : State) (id op : Nat) : Option Cmd :=
  match cmdOf s id with
  | none => none
  | some c =>
    if c.op = op && c.start.isSome && c.fin.isNone && ((ctxOf s c.space).map (fun x => x.down.isNone && x.slot.isSome)) = some true
      && !devStalled s c.queue id && !chipStopped s
    then some c else none

/-! ## Device work of a command -/

/-- Stalls a command's device work on missing ranges. -/
def cmdStall (s : State) (id : Nat) (c : Cmd) (rights : Nat) (fs : List TileFault) : State :=
  devStall s (slotNum s c.space) (ctxSlot s c.space) c.queue id rights fs

/-- Reads for a command: poison fails it with DATA_POISON. -/
def cmdRead (s : State) (id : Nat) (c : Cmd) (va n : Nat) (k : List Byte → State → State) : State :=
  match devRead s (ctxSlot s c.space) c.queue id va n with
  | (.ok d bad, s) => if bad ≠ 0 then endCmd s id errDataPoison else k d s
  | (.wait, s) => s
  | (.fault f, s) => cmdStall s id c 1 f
  | (.error e, s) => endCmd s id e

/-- Writes for a command. -/
def cmdWrite (s : State) (id : Nat) (c : Cmd) (va : Nat) (data : List Byte) (k : State → State) : State :=
  match devWrite s (ctxSlot s c.space) c.queue id va data with
  | (.fault f, s) => cmdStall s id c 2 f
  | (.error e, s) => endCmd s id e
  | (.wait, s) => s
  | (.ok _ _, s) => k s

/-- Ends a command once its writes to other chips are answered. -/
def endWhenOut (s : State) (id : Nat) (c : Cmd) : State :=
  if devOut s c.queue id then s else endCmd s id (devErr s c.queue id)

/-! ## KERNEL (R66 to R71, R390) -/

/-- A launch block (R70). -/
def launchOf (va : Nat) (d : List Byte) : Launch :=
  let num (o n : Nat) : Nat := leNat ((d.drop o).take n)
  ⟨va, num 0 8, num 8 4, num 0x10 8, num 0x18 4, num 0x1C 2, num 0x1E 2, num 0x20 2, num 0x22 2, num 0x24 2, num 0x28 4,
    BitVec.ofNat 32 (num 0x2C 4), num 0x30 4, num 0xC 4 ≠ 0 || num 0x26 2 ≠ 0 || 64 ≤ num 0x30 4 || num 0x34 76 ≠ 0⟩

/-- The conditions of R71. -/
def launchOk (l : Launch) : Bool :=
  l.va % 128 = 0 && l.codeVa % 256 = 0 && l.codeVa < 2 ^ 49 && l.argVa < 2 ^ 49 && l.codeBytes % 8 = 0 && 8 ≤ l.codeBytes
    && l.codeBytes ≤ 2 ^ 24 && l.groups < 2 ^ 32 && 1 ≤ l.batchGroups && l.batchGroups ≤ 256 && l.scrPages + l.specPages ≤ 2560
    && !l.rsvd

/-- KERNEL: the launch block is read and checked, and its batches may be dealt (R66 to R71). -/
def execKernel (id : Nat) (s : State) : Out :=
  .next (match running s id opKernel with
    | none => s
    | some c =>
      let va := c.num 0x20 8
      if c.begun || !holdsImago s c then s
      else if va % 128 ≠ 0 then endCmd s id errLaunchInvalid
      else cmdRead s id c va 128 (fun d s =>
        let l := launchOf va d
        if !launchOk l then endCmd s id errLaunchInvalid
        else if l.groups = 0 then endCmd s id 0
        else
          let (kid, s) := fresh s
          let n := (l.groups + l.batchGroups - 1) / l.batchGroups
          let k : Kernel := ⟨slotNum s c.space, c.space, c.inst, c.win, c.queue, id, c.num 4 4, l, n, 0, 0, none, none, 0, 0, true, false⟩
          modCmd { s with kernels := mput s.kernels kid k } id (fun v => { v with begun := true })))

/-! ## COPY, FILL and MIGRATE (R309, R380, R382) -/

/-- Descriptors queued or running on a bulk channel; an action of a collective that occupies it counts as one. -/
def bulkLoad (s : State) (n : Nat) : Nat := (chan s (256 + n / 32) (n % 32)).queue.length + b2n (collOn s n)

/-- The bulk channel with the fewest descriptors, the lowest number among equals (R382). -/
def leastLoaded (s : State) (l : List Nat) : Option Nat :=
  l.foldl (fun best n => match best with
    | none => some n
    | some b => if bulkLoad s n < bulkLoad s b then some n else best) none

/-- Bulk channels that hold descriptors of a command. -/
def channelsOf (s : State) (id : Nat) : List Nat :=
  (List.range 512).filter (fun n => (chan s (256 + n / 32) (n % 32)).queue.any (fun d => match d.owner with
    | .command _ c => c = id
    | _ => false))

/-- Deals a descriptor of a command, to at most `limit` channels at once; none when it must wait. -/
def deal (s : State) (id : Nat) (c : Cmd) (limit : Nat) (d : Desc) : Option State :=
  match leastLoaded s (workChannels s c.inst) with
  | none => none
  | some n =>
    let mine := channelsOf s id
    if !mine.contains n && limit ≤ mine.length then none
    else some (modCmd (queueDesc s (256 + n / 32) (n % 32) d) id (fun v => { v with running := v.running + 1 }))

/-- A descriptor built from a command. -/
def Cmd.desc (c : Cmd) (id : Nat) (bytes : List Byte) (label : Nat) : Desc :=
  ⟨bytes, .command c.queue id, label, c.space, c.inst, none⟩

/-- Deals again what a handover took off its channels. -/
def dealKept (s : State) (id : Nat) (c : Cmd) (limit : Nat) (d : Desc) : State :=
  match deal s id c limit d with
  | some s => modCmd (dropTiles s (fun t => t.owner = .savedBulk c.queue id)) id (fun v => { v with kept := v.kept.drop 1 })
  | none => s

/-- Goes on with a command's descriptors: those kept first, then the next, which `next` gives with the command's place after
it; the command ends when it has failed or none is left (R382). -/
def dealNext (s : State) (id : Nat) (c : Cmd) (limit : Nat) (next : State → State) : State :=
  if c.err ≠ 0 || c.dealt then bulkEnd s id
  else if !holdsImago s c then s
  else match c.kept with
    | d :: _ => dealKept s id c limit d
    | [] => next s

/-- Fails a bulk command with a descriptor that never starts. -/
def bulkFail (s : State) (id code : Nat) : State :=
  bulkEnd (modCmd s id (fun v => { v with err := if v.err = 0 then code else v.err })) id

/-- COPY: the next descriptor of the list is read and dealt. One with ORD waits for every earlier one; CREDIT, PACED and
RAISE_EN fail with MOVER_PARAM on the channel that would take the descriptor, as other spaces do at the mover (R220, R382). -/
def execCopy (id : Nat) (s : State) : Out :=
  .next (match running s id opCopy with
    | none => s
    | some c => dealNext s id c (c.num 0x2C 4) (fun s =>
      cmdRead s id c (c.num 0x20 8 + 64 * c.next) 64 (fun bytes s =>
        let s := devDone s c.queue id
        let d := c.desc id bytes (max ((bytes.getD 1 0).toNat % 8) (c.num 2 1))
        if d.op = dCredit || d.paced || d.bits 7 4 1 = 1 then
          bulkFail (match leastLoaded s (workChannels s c.inst) with
            | some n => setF s f_TMV_BCH_STAT_LAST_ERR n errMoverParam
            | none => s) id errMoverParam
        else if d.bits 1 5 1 = 1 && c.running ≠ 0 then s
        else match deal s id c (c.num 0x2C 4) d with
          | some s => modCmd s id (fun v => { v with next := v.next + 1 })
          | none => s)))

/-- The bytes of a descriptor of `rows` rows of `x` bytes each, one after another, in device virtual memory. -/
def rowsDesc (op label : Nat) (src dst x rows : Nat) (aux : List Byte) : List Byte :=
  leBytes 1 op ++ leBytes 1 label ++ [5, 10, 0, 0, 0, 0] ++ leBytes 8 src ++ leBytes 8 dst ++ leBytes 4 x ++ leBytes 2 rows
    ++ leBytes 2 1 ++ leBytes 4 (if rows = 1 || op = dFill then 0 else x) ++ leBytes 4 0 ++ leBytes 4 (if rows = 1 then 0 else x)
    ++ leBytes 4 0 ++ aux ++ leBytes 8 0

/-- FILL: the next rows of the range go to a bulk channel; rows are 8 MiB, so that byte i of the range takes byte i mod 8 of
PATTERN (R203, R380). -/
def execFill (id : Nat) (s : State) : Out :=
  .next (match running s id opFill with
    | none => s
    | some c => dealNext s id c 32 (fun s =>
      let left := c.num 0x28 8 - c.next
      let rows := if left < 0x800000 then 1 else min (left / 0x800000) 65535
      let x := min left 0x800000
      let d := c.desc id (rowsDesc dFill (c.num 2 1) 0 (c.num 0x20 8 + c.next) x rows (leBytes 8 (c.num 0x30 8))) (c.num 2 1)
      match deal s id c 32 d with
      | some s => modCmd s id (fun v => { v with next := v.next + x * rows })
      | none => s))

/-- A page of MIGRATE's PSIZE (R302). -/
def pageBytes (psize : Nat) : Nat := [4096, 65536, 0x200000, 0x40000000].getD psize 4096

/-- MIGRATE: the next page pair is read and its copy dealt, once the page before it has been copied (R309). -/
def execMigrate (id : Nat) (s : State) : Out :=
  .next (match running s id opMigrate with
    | none => s
    | some c => dealNext s id c 1 (fun s =>
      if c.running ≠ 0 then s else
      cmdRead s id c (c.num 0x20 8 + 16 * c.next) 16 (fun bytes s =>
        let s := devDone s c.queue id
        let page := pageBytes (c.num 0x2C 1)
        let src := leNat (bytes.take 8)
        let dst := leNat (bytes.drop 8)
        if src % page ≠ 0 || dst % page ≠ 0 then bulkFail s id errCommandInvalid else
        let x := min page 65536
        match deal s id c 1 (c.desc id (rowsDesc dCopy (c.num 2 1) src dst x (page / x) (leBytes 8 0)) (c.num 2 1)) with
        | some s => modCmd s id (fun v => { v with next := v.next + 1 })
        | none => s)))

/-! ## SIGNAL, WAIT and MARKER (R371, R380, R381) -/

/-- SIGNAL: applies SET, RESET or ERROR to the fence at FENCE_VA (R381). One without a fence has nothing to do. -/
def execSignal (id : Nat) (s : State) : Out :=
  .next (match running s id opSignal with
    | none => s
    | some c =>
      let act := match c.num 0x20 1 with
        | 0 => FenceAct.signal (c.num 0x10 8)
        | 1 => FenceAct.reset (c.num 0x10 8)
        | _ => FenceAct.error (c.num 0x22 2)
      if c.begun then s
      else if c.num 8 8 = 0 then endCmd s id 0
      else match fenceOp s (ctxSlot s c.space) c.win (c.num 8 8) act c.queue id true with
        | .done s => endCmd (devEnd s c.queue id) id 0
        | .sent s => modCmd (devEnd s c.queue id) id (fun v => { v with begun := true })
        | .wait s => s
        | .failed e s => endCmd (devEnd s c.queue id) id e)

/-- WAIT: registers at the fence's home until the fence reaches WAIT_VALUE (R371, R372, R381). A full fence cache makes it
wait. -/
def execWait (id : Nat) (s : State) : Out :=
  .next (match running s id opWait with
    | none => s
    | some c =>
      let value := c.num 0x28 8
      if c.begun then s else
      match fenceAt s (ctxSlot s c.space) c.queue id (c.num 0x20 8) with
      | (.bad, s) => endCmd (devEnd s c.queue id) id errFenceInvalid
      | (.wait, s) => s
      | (.at g, s) =>
        let s := devEnd s c.queue id
        if gpaChip g = chipId s then
          let (v, st) := fenceWords s g
          match fenceWaitEnd v st value with
          | some code => endCmd s id code
          | none =>
            if fenceFull s g then s
            else
              let w : FenceWaiter := ⟨g, BitVec.ofNat 64 value, .queue c.queue id (instarOf s (.queue c.queue))⟩
              modCmd { s with fenceWaiters := s.fenceWaiters ++ [w] } id (fun v => { v with begun := true })
        else
          let (tag, s) := fresh s
          match fenceSend s c.inst g 3 value (instarOf s (.queue c.queue)) tag with
          | none => endCmd s id errPeerLost
          | some s =>
            let o : FenceOut := ⟨gpaChip g, c.queue, id, true, s.now, c.space, c.inst, epochOf s c.inst⟩
            modCmd { s with fenceOuts := mput s.fenceOuts tag o } id (fun v => { v with begun := true }))

/-- Removes what a command waits for at fences. -/
def dropWaits (s : State) (id : Nat) : State :=
  { s with
    fenceWaiters := s.fenceWaiters.filter (fun w => match w.src with
      | .queue _ c _ => c ≠ id
      | _ => true)
    fenceOuts := s.fenceOuts.filter (fun kv => kv.2.cmd ≠ id) }

/-- WAIT_TIMEOUT: a WAIT that is unsatisfied TIMEOUT_US after it started fails with WAIT_TIMEOUT (R381). -/
def execWaitTimeout (id : Nat) (s : State) : Out :=
  .next (match cmdOf s id with
    | none => s
    | some c => match c.start with
      | none => s
      | some t =>
        if c.op ≠ opWait || c.fin.isSome || c.num 0x30 4 = 0 || !due s t (c.num 0x30 4 * usTicks) then s
        else endCmd (dropWaits s id) id errWaitTimeout)

/-- MARKER: writes VALUE and the tick at DEST_VA and posts its record (R380, R400). -/
def execMarker (id : Nat) (s : State) : Out :=
  .next (match running s id opMarker with
    | none => s
    | some c =>
      if c.begun then endWhenOut s id c else
      let post (s : State) : State :=
        let s := if c.num 0x30 1 = 1 then
            postEvent s c.win (eventRecord 0x16 0 c.space (c.num 0x20 8) (((queueOf s c.queue).map Queue.num).getD 0) (c.num 4 4) s.now)
          else s
        endWhenOut (modCmd s id (fun v => { v with begun := true })) id c
      if c.num 0x28 8 = 0 then post s
      else cmdWrite s id c (c.num 0x28 8) (leBytes 8 (c.num 0x20 8) ++ leBytes 8 s.now.toNat) post)

/-! ## GATE_DISPATCH (R157, R384) -/

/-- GATE_DISPATCH: the dispatch block is read, and the dispatch enters its Gate unit's queue of 16 once it has room, which
starts the command. -/
def execGateDispatch (id : Nat) (s : State) : Out :=
  .next (match cmdOf s id with
    | none => s
    | some c =>
      let ok : Bool := ((queueOf s c.queue).map (fun v => decide (v.state ≠ qPropagating))).getD false
      if c.op ≠ opGate || !mayStart s id c || c.bad ≠ 0 || fenced s c.inst || !ok || devStalled s c.queue id then s else
      cmdRead s id c (c.num 0x20 8) 256 (fun d s =>
        let w := (d.getD 1 0).toNat
        if 8 ≤ w then endCmd (beginCmd s id c) id errGateParam
        else if 16 ≤ (gateOf s w).waiting.length then s
        else
          let j : GateJob := ⟨c.queue, id, c.space, c.inst, c.win, c.num 2 1, d⟩
          beginCmd (modGate (devDone s c.queue id) w (fun g => { g with waiting := g.waiting ++ [j] })) id c))

/-! ## ATOMIC_SEQ (R383) -/

/-- How an operation of a sequence ends: its old value, not yet, stalled, or an error. -/
inductive SeqRes where
  | old (v : Nat) (s : State)
  | wait (s : State)
  | stop (s : State)

/-- Performs one operation on a target (R91, R246, R248, R383): `sub` is 5 for READ and 6 for WRITE. -/
def seqPerform (s : State) (id : Nat) (c : Cmd) (va sub n : Nat) (signed : Bool) (a b : Nat) : SeqRes :=
  let slot := ctxSlot s c.space
  let rights := if sub = 5 then 1 else if sub = 6 then 2 else 4
  let op := if sub = 6 then 3 else sub
  match devAccess s slot c.queue id [(va, n)] (fun s _ => (.ok [] 0, s)) with
  | (.fault fs, s) => .stop (cmdStall s id c rights fs)
  | (.error e, s) => .stop (endCmd s id e)
  | (.wait, s) => .wait s
  | (.ok _ _, s) => match (devPlace s slot c.queue id va).2 with
   | none => .stop s
   | some (g, dst, _) =>
    let r : MemReq := { devReq s slot c.queue id (if sub = 5 then .read else .atomic op n signed true) g n
        (if sub = 5 then [] else leBytes n a) with label := c.num 2 1, data2 := if sub = 4 then leBytes n b else [] }
    if gpaChip g = chipId s && hostWindow ≤ gpaLocal g then .stop (endCmd s id errAtomicTarget)
    else if gpaChip g = chipId s then
      let ((d, bad), s) := readNow (regulate s r dst).2 managerRouter g n
      if bad ≠ 0 then .stop (endCmd s id errDataPoison)
      else if sub = 5 then .old (leNat d) s
      else .old (leNat d) (writeNow s managerRouter g 0 (leBytes n (atomicResult op (8 * n) signed (leNat d) a b)))
    else
      match (devReqs s c.queue id).find? (fun kv => kv.2.gpa = g && kv.2.len = n && kv.2.op ≠ .write) with
      | some (_, r) =>
        if r.err ≠ 0 then .stop (endCmd s id r.err)
        else if r.stage ≠ .done then .wait s
        else if r.poison ≠ 0 then .stop (endCmd s id errDataPoison)
        else .old (leNat r.data) (devDone s c.queue id)
      | none => .wait (sendReq s r dst).2

/-- Writes the old value of the operation that a sequence has performed, and goes on to the next. A stall leaves only this write to be
made again (R292, R383). -/
def seqResult (s : State) (id : Nat) (c : Cmd) (v : Nat) (ended : Bool) : State :=
  let go (s : State) : State := modCmd s id (fun x => { x with
    next := if ended then c.num 0x28 1 else x.next + 1, count := x.count + 1, begun := true, old := none })
  if c.num 0x30 8 = 0 then go s
  else cmdWrite (modCmd s id (fun x => { x with old := some (v, ended) })) id c (c.num 0x30 8 + 8 * c.next) (leBytes 8 v) go

/-- ATOMIC_SEQ: the next operation of the sequence is read and performed at its buffer slice, and its old value written; the
sequence ends with the last, or with STOP after a CAS that fails (R383). -/
def execAtomicSeq (id : Nat) (s : State) : Out :=
  .next (match running s id opAtomic with
    | none => s
    | some c =>
      if devOut s c.queue id && c.begun then s
      else match c.old with
      | some (v, ended) => seqResult s id c v ended
      | none =>
      if devErr s c.queue id ≠ 0 && c.begun then endCmd s id (devErr s c.queue id)
      else if c.num 0x28 1 ≤ c.next then endWhenOut s id c
      else cmdRead s id c (c.num 0x20 8 + 32 * c.next) 32 (fun d s =>
        let num (o n : Nat) : Nat := leNat ((d.drop o).take n)
        let sub := num 8 1 % 16
        let n := if bitAt (num 8 1) 5 then 8 else 4
        let signed := bitAt (num 8 1) 4
        if 6 < sub || 64 ≤ num 8 1 || num 9 7 ≠ 0 || num 0 8 % n ≠ 0 then endCmd s id errCommandInvalid else
        match seqPerform s id c (num 0 8) sub n signed (num 0x10 8 % 2 ^ (8 * n)) (num 0x18 8 % 2 ^ (8 * n)) with
        | .wait s => s
        | .stop s => s
        | .old v s =>
          seqResult (devDone s c.queue id) id c v (sub = 4 && v ≠ num 0x10 8 % 2 ^ (8 * n) && c.num 0x29 1 = 1)))

/-! ## Completion (R385, R386) -/

/-- The completion record. -/
def completionRecord (c : Cmd) (code : Nat) (now : DWord) : List Byte :=
  let moves := c.op = opCopy || c.op = opFill || c.op = opMigrate
  leBytes 4 (c.num 4 4) ++ leBytes 2 code ++ leBytes 1 c.op
    ++ leBytes 1 (b2n c.capped + 2 * b2n c.preempted + 4 * b2n c.overrun)
    ++ leBytes 8 ((c.start.getD now).toNat) ++ leBytes 8 now.toNat ++ leBytes 4 c.flags.toNat
    ++ leBytes 4 (if moves || c.op = opCollective then c.poisoned else 0) ++ leBytes 8 (if moves then c.written else 0)
    ++ leBytes 4 (if c.op = opFill then 0 else c.count) ++ List.replicate 20 0

/-- A non-preemptible command (R392): a running GATE_DISPATCH, ATOMIC_SEQ, or step of a collective. -/
def nonPreemptible (c : Cmd) : Bool := c.op = opGate || c.op = opAtomic || (c.op = opCollective && c.begun)

/-- Charges what a non-preemptible command ran past the end of its context's slice (R392). -/
def chargeOverrun (s : State) (id : Nat) (c : Cmd) : State :=
  if nonPreemptible c && c.start.isSome && c.inst < 32 && (sched s c.inst).old = some c.space then
    let n := since s (sched s c.inst).yieldAt
    modCmd (modSched s c.inst (fun v => { v with late := max v.late n })) id (fun v => { v with overrun := true })
  else s

/-- Writes the completion record (R385, step 2); one that stalls waits, and one that cannot be written is left out. -/
def writeRecord (s : State) (id : Nat) (c : Cmd) (code : Nat) : State :=
  let done (s : State) : State := modCmd s id (fun v => { v with post := true })
  if c.num 0x38 8 = 0 || !addrOk 64 (c.num 0x38 8) then done s
  else match devWrite (devDone s c.queue id) (ctxSlot s c.space) c.queue id (c.num 0x38 8) (completionRecord c code s.now) with
    | (.fault f, s') =>
      if ((ctxOf s c.space).bind Ctx.down).isSome then done s' else cmdStall s' id c 2 f
    | (.wait, s) => s
    | (_, s) => done s

/-- Signals the completion fence, or sets it to the error (R385, step 3); answers the failure that then stands, or none while the fence
operation waits. A SIGNAL that succeeds has acted on its fence already. -/
def signalFence (s : State) (id : Nat) (c : Cmd) (code : Nat) : Option Nat × State :=
  if !c.fenceOk || c.num 8 8 = 0 || (c.op = opSignal && code = 0) then (some code, s)
  else match fenceOp s (ctxSlot s c.space) c.win (c.num 8 8) (if code = 0 then .signal (c.num 0x10 8) else .error code) c.queue id false with
    | .done s => (some code, s)
    | .sent s => (some code, s)
    | .wait s => (none, s)
    | .failed e s => (some (if code = 0 then e else code), s)

/-- A queue reacts to a failure of a command by its error mode (R386); one without a fence to carry it stops the queue
(R377). A fenced queue reacts when the fence is lifted (R514). One that a bad doorbell has stopped, whose commands
already taken go on (R376), reacts too: it stays STOPPED and they start no more, or it becomes PROPAGATING (DESIGN CHOICE, log
entry 63). -/
def reactTo (s : State) (q code idx tag : Nat) (noFence : Bool) : State :=
  match queueOf s q with
  | none => s
  | some v =>
    let inst := ((ctxOf s v.space).map Ctx.inst).getD 0xFF
    let still (s : State) : State := modQueue s q (fun v => { v with badBell := false })
    if noFence then (if v.state = qStopped then still s else stopQueue s q errCommandInvalid idx tag)
    else if v.mode = 2 || !(v.state = qRunning || (v.state = qStopped && v.badBell)) then s
    else if v.mode = 1 && v.state = qStopped then still s
    else if fenced s inst then modQueue s q (fun v => { v with held := some (v.held.getD (code, idx, tag)) })
    else haltQueue s q (if v.mode = 1 then qStopped else qPropagating) code idx tag

/-- COMMAND_COMPLETE: a command that has ended writes its record, signals its fence, releases its references and leaves its
queue, which follows its error mode; then the scheduler decides (R369, R373, R385, R386, R388). -/
def execCommandComplete (id : Nat) (s : State) : Out :=
  .next (match cmdOf s id with
    | none => s
    | some c => match c.fin with
      | none => s
      | some code =>
        let x := ctxOf s c.space
        let down := ((x.bind Ctx.down)).isSome
        if (x.bind Ctx.slot).isNone && !down then s
        else if devStalled s c.queue id then s
        else
          let s := if c.post then s else chargeOverrun s id c
          let c := (cmdOf s id).getD c
          let s := if c.post then s else writeRecord s id c code
          if !(((cmdOf s id).map Cmd.post).getD true) || devOut s c.queue id then s
          else
            match signalFence s id c code with
            | (none, s) => s
            | (some code, s) =>
            let s := collEnded (devEnd s c.queue id) id code
            let s := dropRefs (dropWaits { s with cmds := mdel s.cmds id } id) c.refs
            let s := modQueue s c.queue (fun v => { v with
              cmds := v.cmds.filter (fun k => k ≠ id), completed := (v.completed + 1) % 2 ^ 64, progress := s.now })
            let s := if code = 0 || c.quiet || down then s else reactTo s c.queue code c.idx (c.num 4 4) (!c.fenceOk)
            schedule s c.inst)

end Sys2Proof.Machine
end

