-- ==== Sys2Proof/Machine/Inval.lean ====
section
/-!
DEFINITION. Fault records, replay and abort (R296 to R301), invalidations and whole-space flushes (R302 to R308).
-/

namespace Sys2Proof.Machine

/-! ## Fault records (R297, R312) -/

/-- The entries of a window's fault ring. -/
def fqSize (s : State) (win : Nat) : Nat := 2 ^ getF s f_EVT_FQ_SIZE_LOG2 0 win

/-- Is a window's fault queue enabled and not full (R297)? -/
def fqRoom (s : State) (win : Nat) : Bool :=
  flagF s f_EVT_FQ_BASE_ENABLE 0 win
    && (getF s f_EVT_FQ_TAIL_INDEX 0 win + 1) % fqSize s win ≠ getF s f_EVT_FQ_HEAD_INDEX 0 win

/-- FAULT_RECORD_POST: the oldest held record is written at the tail with its PHASE, the tail advances, and the queue
notifies (R297, R402). -/
def execFaultRecordPost (win : Nat) (s : State) : Out :=
  .next (match mget [] s.fqHeld win with
    | [] => s
    | rcd :: rest =>
      if !fqRoom s win then s else
      let r := mget Ring.empty s.rings (2 * win)
      let tail := getF s f_EVT_FQ_TAIL_INDEX 0 win
      let word := leNat ((rcd.drop 4).take 4) + ringPhase r * 2 ^ 31
      let entry := rcd.take 4 ++ leBytes 4 word ++ rcd.drop 8
      let s := { s with
        host := memPut s.host (getF s f_EVT_FQ_BASE_ADDR 0 win * 4096 + 32 * tail) entry
        fqHeld := mput s.fqHeld win rest
        rings := mput s.rings (2 * win) (ringNext r tail (fqSize s win)) }
      notifyQueue (setF s f_EVT_FQ_TAIL_INDEX 0 ((tail + 1) % fqSize s win) win) win 0)

/-! ## Replay and abort (R298 to R301) -/

/-- A stalled tile none of whose entries is outstanding becomes ready: it is translated afresh, or its unit's work tries
again. -/
def readyTile (s : State) (tid : Nat) : State :=
  match mfind s.tiles tid with
  | none => s
  | some t => match t.owner with
    | .saved _ _ _ _ _ => dropTile s tid
    | .savedMover _ _ _ _ => dropTile s tid
    | .savedBulk _ _ => dropTile s tid
    | .device _ _ _ => dropTile s tid
    | .gate _ => dropTile s tid
    | _ => lookTile s tid

/-- Tiles that wait for a tracker entry translate again, as entries have been freed (R293). -/
def retryTiles (s : State) : State :=
  let l := s.tiles.filter (fun kv => kv.2.wantsEntry)
  if l.isEmpty then s
  else l.foldl (fun s kv => readyTile s kv.1) (setF s f_XLT_STATUS_TRACKER_FULL 0 0)

/-- Frees a tracker entry: its instar advances. -/
def freeEntry (s : State) (k : Nat) : State :=
  { s with tracker := mput s.tracker k { TrackEntry.empty with instar := ((track s k).instar + 1) % 256 } }

/-- Takes an entry off the tiles that hold it; those left with none become ready (R298). -/
def releaseEntry (s : State) (k : Nat) : State :=
  let l := s.tiles.filter (fun kv => kv.2.entries.contains k)
  let s := l.foldl (fun s kv => match mfind s.tiles kv.1 with
    | none => s
    | some t =>
      let left := t.entries.filter (fun e => e ≠ k)
      let s := setTile s kv.1 { t with entries := left }
      if left.isEmpty then readyTile s kv.1 else s) (freeEntry s k)
  retryTiles s

/-- The saved batch whose group a tile belongs to. -/
def savedOf (s : State) (kid b : Nat) : Option SavedBatch :=
  (ctxOf s (kernel s kid).space).bind (fun x => x.saved.find? (fun v => v.kernel = kid && v.batch.index = b))

/-- Is a kernel's context being torn down, or its Imago reset, so that faults are only counted (R546)? -/
def faultsCounted (s : State) (k : Kernel) : Bool := ((ctxOf s k.space).bind Ctx.down).isSome || fenced s k.inst

/-- A fault of a saved batch stops its kernel, or is only counted in a teardown or a reset (R301, R546). -/
def savedFault (s : State) (kid : Nat) (fi : FaultInfo) : State :=
  if faultsCounted s (kernel s kid) then modKernel s kid (fun k => { k with others := satAdd 16 k.others 1 }) else noteFault s kid fi

/-- The group that queued the descriptor at the front of a saved channel. -/
def savedGroup (v : SavedBatch) (k : Nat) : Nat :=
  match (mget Chan.empty v.mover.chans k).queue.head?.map Desc.owner with
  | some (.xmov _ g) => g
  | _ => 0

/-- Fails a tile whose entry is aborted, by its master (R299). -/
def abortTile (s : State) (tid : Nat) (t : Tile) (e : TrackEntry) : State :=
  match t.owner with
  | .thread op => failLanes s tid op errXltAborted (fun l => e.va ≤ l.va && l.va < e.va + e.size)
  | .fetch c line => lineFault (dropTile s tid) c line errXltAborted
  | .mover u k => match frontDesc s u k with
    | some d => moverFail s u k d errXltAborted ((t.pages.find? (fun p => e.va ≤ p && p < e.va + e.size)).getD e.va)
    | none => dropTile s tid
  | .gate w => match (gateOf s w).run with
    | some r => gateFail (dropTile s tid) w r.job errXltAborted true
    | none => dropTile s tid
  | .device _ q c =>
    let s := dropTile s tid
    if c = 0 then match queueOf s q with
      | some v => stopQueue s q errXltAborted v.head 0
      | none => s
    else match cmdOf s c with
      | none => s
      | some v =>
        if v.fin.isSome then modCmd s c (fun v => { v with post := true })
        else if v.start.isNone then endCmd (beginCmd s c v) c errXltAborted else endCmd s c errXltAborted
  | .landing _ => dropTile s tid
  | .saved kid b g c lanes =>
    let s := dropTile s tid
    match savedOf s kid b with
    | none => s
    | some v =>
      let gr := mget Group.empty v.batch.groups g
      let hit := lanes.filter (fun l => e.va ≤ l.2 && l.2 < e.va + e.size)
      let mask := if hit.isEmpty then gr.active else laneMask (hit.map Prod.fst)
      let va := ((hit.head?).map Prod.snd).getD e.va
      savedFault s kid ⟨errXltAborted, s.now, c, g, gr.lin, b, lowLane mask, mask, gr.pc, BitVec.ofNat 64 va, none⟩
  | .savedMover kid b c k =>
    let s := dropTile s tid
    match savedOf s kid b with
    | none => s
    | some v =>
      let g := savedGroup v k
      let gr := mget Group.empty v.batch.groups g
      let va := (t.pages.find? (fun p => e.va ≤ p && p < e.va + e.size)).getD e.va
      savedFault s kid ⟨errXltAborted, s.now, c, g, gr.lin, b, 0, 0, gr.pc, BitVec.ofNat 64 va, some k⟩
  | .savedBulk _ c =>
    bulkEnd (modCmd (dropTile s tid) c (fun v => { v with err := if v.err = 0 then errXltAborted else v.err })) c

/-- Aborts an entry: it is freed, and every tile that holds it fails, whatever else it holds. -/
def abortEntry (s : State) (k : Nat) : State :=
  let e := track s k
  let l := s.tiles.filter (fun kv => kv.2.entries.contains k)
  retryTiles (l.foldl (fun s kv => match mfind s.tiles kv.1 with
    | none => s
    | some t => abortTile s kv.1 t e) (freeEntry s k))

/-- The tracker entry that a FAULT_ID names, if a window may answer it and its instar is current (R298). -/
def answered (s : State) (win id : Nat) : Option Nat :=
  let k := id % 4096
  let e := track s k
  if e.used && (win = 0 || e.inst = instOfWin win) && e.instar = id / 4096 % 256 then some k else none

/-- A discarded replay is counted (R298). -/
def staleReplay (s : State) (win : Nat) : State := satF s f_XLT_REPLAY_STALE_COUNT 0 1 win

/-- REPLAY: XLT_REPLAY with ABORT 0 releases a tracker entry (R298). -/
def execReplay (win id : Nat) (s : State) : Out :=
  .next (if !winOpen s win then s else match answered s win id with
    | some k => releaseEntry s k
    | none => staleReplay s win)

/-- ABORT: XLT_REPLAY with ABORT 1 fails every tile that holds an entry (R299). -/
def execAbort (win id : Nat) (s : State) : Out :=
  .next (if !winOpen s win then s else match answered s win id with
    | some k => abortEntry s k
    | none => staleReplay s win)

/-- FAULT_TIMEOUT: an entry outstanding for FAULT_TMO ms is aborted by the device (R300). -/
def execFaultTimeout (k : Nat) (s : State) : Out :=
  .next (
    let e := track s k
    if e.used && dueRun s e.tick (getF s f_XLT_CFG_FAULT_TMO * msTicks) then countR (abortEntry s k) r_XLT_FAULTS_TMO 0 1 else s)

/-- Retires tracker entries: they are freed, and their tiles are gone with their work (R301); tiles that wait for an entry try again. -/
def retireEntries (s : State) (p : TrackEntry → Bool) : State :=
  retryTiles ((s.tracker.filter (fun kv => kv.2.used && p kv.2)).foldl (fun s kv => freeEntry s kv.1) s)

/-! ## Invalidation (R302 to R306) -/

/-- Does an invalidation cover a range of a space? -/
def covers (kind : InvKind) (space sp va size : Nat) : Bool :=
  match kind with
  | .range a len => sp = space && a < va + size && va < a + len
  | .space => sp = space
  | .all => true
  | .sync => false
  | .nothing => false

/-- Does it concern a space at all? -/
def concerns (kind : InvKind) (space sp : Nat) : Bool :=
  match kind with
  | .range _ _ => sp = space
  | .space => sp = space
  | .all => true
  | .sync => false
  | .nothing => false

/-- A tile that holds a dropped translation and has not issued translates again; a mover segment goes on with its remaining
bursts as a new tile (R305). -/
def redoTile (s : State) (tid : Nat) (t : Tile) : State :=
  match t.owner with
  | .mover u k => match frontDesc s u k with
    | none => dropTile s tid
    | some d =>
      let c := chan s u k
      if c.state = .translating && (c.stage ≠ 0 && !c.bursts.isEmpty) then s
      else if c.state = .translating then lookTile s tid
      else if c.state = .ready && !pastEnd c.row c.ofs c.lim then nextTile s u k d
      else setChan (dropTile s tid) u k { chan s u k with tile := none }
  | _ => lookTile s tid

/-- The bursts that have started under translations that an invalidation covers, by number. -/
def burstsHeld (s : State) (kind : InvKind) (space : Nat) : List Nat :=
  s.movers.flatMap (fun m => m.2.chans.flatMap (fun kv : Nat × Chan =>
    match kv.2.queue.head? with
    | none => []
    | some d => (kv.2.bursts.filter (fun b => b.held.any (fun x => covers kind space d.space x.va x.size))).map Burst.id))

/-- Carries an invalidation out: caches drop what it covers, walks of its spaces become void, landing slots in its range are
squashed, and tiles that have not issued start again. It then waits for the walks, requests, bursts, fence operations of other chips and squashes (R304). -/
def startInval (s : State) (v : Inval) : State :=
  let s := { s with
    tlb := s.tlb.filter (fun e => !covers v.kind v.space e.space e.x.va e.x.size)
    wcache := s.wcache.filter (fun e => !covers v.kind v.space e.space e.va (levelRange e.level)) }
  let walks := (s.walks.filter (fun kv => concerns v.kind v.space kv.2.space)).map Prod.fst
  let s := { s with walks := s.walks.map (fun kv : Nat × Walk =>
    if concerns v.kind v.space kv.2.space then (kv.1, { kv.2 with void := true }) else kv) }
  let reqs := (s.reqs.filter (fun kv => concerns v.kind v.space kv.2.space && match kv.2.owner with
    | .walk _ => false
    | .link _ => false
    | .coll _ => false
    | _ => true)).map Prod.fst
  let hit (l : LandSlot) : Bool :=
    covers v.kind v.space ((mfind s.slots l.ctx).map SlotInfo.space |>.getD 0) l.va l.len && l.state ≠ .promoted
  let outs := (s.fenceOuts.filter (fun kv => !kv.2.wait && concerns v.kind v.space kv.2.space)).map Prod.fst
  let slots := (s.landing.filter (fun kv => hit kv.2)).map Prod.fst
  let bursts := burstsHeld s v.kind v.space
  let s := doomIf s hit
  let s := (s.tiles.filter (fun kv => !kv.2.stalled && kv.2.held.any (fun x => covers v.kind v.space kv.2.space x.va x.size))).foldl
    (fun s kv => redoTile s kv.1 kv.2) s
  let (id, s) := fresh s
  { s with invals := mput s.invals id { v with walks := walks, reqs := reqs ++ bursts, slots := slots, outs := outs, began := s.now } }

/-- Does a request or burst still hold an invalidation up? One that has been refused at its delivery has released its translations
(R305, R547); what another has read goes to its destination with it. -/
def stillOut (s : State) (id : Nat) : Bool :=
  (match mfind s.reqs id with
    | none => false
    | some r => match r.owner with
      | .moverRead _ _ => r.stage ≠ .done
      | .command _ _ => r.stage ≠ .done
      | _ => true)
  || s.movers.any (fun m => m.2.chans.any (fun kv => kv.2.bursts.any (fun b => b.id = id && (b.delivered || !b.held.isEmpty))))

/-- Does every completion condition of R304 hold? -/
def invalDone (s : State) (v : Inval) : Bool :=
  v.walks.all (fun w => (mfind s.walks w).isNone) && v.reqs.all (fun r => !stillOut s r)
    && v.slots.all (fun l => (mfind s.landing l).isNone) && v.outs.all (fun o => (mfind s.fenceOuts o).isNone)

/-! ## The invalidation queue (R302, R303) -/

/-- IQ_TAIL_WRITE: the driver's TAIL makes descriptors visible. -/
def execIqTailWrite (win v : Nat) (s : State) : Out :=
  .next (if winOpen s win then setF s f_XLT_IQ_TAIL_INDEX 0 v win else s)

/-- The descriptors of a window's invalidation ring. -/
def iqSize (s : State) (win : Nat) : Nat := 2 ^ getF s f_XLT_IQ_SIZE_LOG2 0 win

/-- Is a descriptor of a window's queue in progress? -/
def iqBusy (s : State) (win : Nat) : Bool := s.invals.any (fun kv => kv.2.win = win && kv.2.idx.isSome)

/-- Advances HEAD past a completed descriptor. -/
def iqAdvance (s : State) (win : Nat) : State :=
  setF s f_XLT_IQ_HEAD_INDEX 0 ((getF s f_XLT_IQ_HEAD_INDEX 0 win + 1) % iqSize s win) win

/-- The descriptor at HEAD, if the queue has one to begin. -/
def iqHead (s : State) (win : Nat) : Option (List Byte) :=
  let h := getF s f_XLT_IQ_HEAD_INDEX 0 win
  if !winOpen s win || !flagF s f_XLT_IQ_BASE_ENABLE 0 win || h = getF s f_XLT_IQ_TAIL_INDEX 0 win || iqBusy s win then none
  else some (memBytes s.host (getF s f_XLT_IQ_BASE_ADDR 0 win * 4096 + 64 * h) 64)

/-- Does a window's instance own a space? The physical function may name any (R311). -/
def winOwns (s : State) (win space : Nat) : Bool := win = 0 || spaceOwner s space = some (instOfWin win)

/-- Begins the descriptor at HEAD, if its OP is `op`: it is rejected, or carried out, a malformed RANGE as SPACE (R303). -/
def beginInval (s : State) (win op : Nat) : State :=
  match iqHead s win with
  | none => s
  | some d =>
    let num (o n : Nat) : Nat := leNat ((d.drop o).take n)
    if num 0 1 % 4 ≠ op then s else
    let space := num 4 4 % 2 ^ 20
    let fspace := num 0x14 4 % 2 ^ 20
    let fence := bitAt (num 2 1) 0
    let page := pageBytes (num 1 1 % 4)
    let bad := num 0 1 / 4 ≠ 0 || num 1 1 / 4 ≠ 0 || num 2 1 / 2 ≠ 0 || num 3 1 ≠ 0 || num 4 4 / 2 ^ 20 ≠ 0
      || num 0x14 4 / 2 ^ 20 ≠ 0 || num 0x28 24 ≠ 0
      || (op = 0 && (num 8 8 % page ≠ 0 || num 0x10 4 = 0 || 2 ^ 49 < num 8 8 + num 0x10 4 * page))
    let rejected := (op = 2 && win ≠ 0) || (op ≤ 1 && !winOwns s win space) || (fence && !winOwns s win fspace)
    if rejected then iqAdvance (setF s f_XLT_IQ_STATUS_REJECTED 0 1 win) win
    else
      let s := if bad then setF s f_XLT_IQ_STATUS_MALFORMED 0 1 win else s
      let kind : InvKind := if op = 0 then if bad then .space else .range (num 8 8) (num 0x10 4 * page)
        else if op = 1 then .space else if op = 2 then .all else .sync
      startInval s ⟨win, some (getF s f_XLT_IQ_HEAD_INDEX 0 win), kind, space,
        if fence then some (fspace, num 0x18 8, num 0x20 8) else none, [], [], [], [], s.now, false, none⟩

/-- RANGE: begins a descriptor that drops what overlaps an address range. -/
def execRange (win : Nat) (s : State) : Out := .next (beginInval s win 0)

/-- SPACE: begins a descriptor that drops every entry of a space. -/
def execSpace (win : Nat) (s : State) : Out := .next (beginInval s win 1)

/-- ALL: begins a descriptor that drops every entry, from the physical function only. -/
def execAll (win : Nat) (s : State) : Out := .next (beginInval s win 2)

/-- SYNC: begins a descriptor that drops nothing. Earlier ones of its queue have completed (R302). -/
def execSync (win : Nat) (s : State) : Out := .next (beginInval s win 3)

/-- INVALIDATION_COMPLETE: every condition of R304 holds; the fence is signalled and HEAD advances, once the fence operation has no
answer to wait for. -/
def execInvalidationComplete (id : Nat) (s : State) : Out :=
  .next (match mfind s.invals id with
    | none => s
    | some v =>
      if v.idx.isNone || !invalDone s v then s else
      let r : Bool × State := match v.fence with
        | none => (true, s)
        | some (space, va, value) => fenceTry s (ctxSlot s space) v.win va (.signal value) (adminQ v.win) id
      if r.1 then iqAdvance { devEnd r.2 (adminQ v.win) id with invals := mdel (devEnd r.2 (adminQ v.win) id).invals id } v.win else r.2)

/-- INVALIDATION_SLOW: an invalidation not complete after XLT_INV_TIMEOUT µs is counted, once (R306). -/
def execInvalidationSlow (id : Nat) (s : State) : Out :=
  .next (match mfind s.invals id with
    | none => s
    | some v =>
      if v.slow || invalDone s v || !due s v.began (getF s f_XLT_INV_TIMEOUT_US * usTicks) then s
      else countR { s with invals := mput s.invals id { v with slow := true } } r_XLT_INV_SLOW 0 1)

/-! ## The whole-space flush (R307, R308) -/

/-- A flush makes a change of the space-table entry of a resident context take effect (R281): it is read when the caches drop the old
one's entries, so that no walk uses the old one after the flush. An entry that no longer satisfies R281 leaves the slot as it is (log
entry 27). -/
def rereadSlot (s : State) (space : Nat) : State :=
  match ctxOf s space, slotOf s space, spaceEntry s space with
  | some x, some (k, _), some (i, e) => if i = x.inst then { s with slots := mput s.slots k e } else s
  | _, _, _ => s

/-- Begins a whole-space flush for a window, or for a teardown. -/
def startFlush (s : State) (win space : Nat) (teardown : Option Nat) : State :=
  startInval (if teardown.isSome then s else rereadSlot s space) ⟨win, none, .space, space, none, [], [], [], [], s.now, false, teardown⟩

/-- WS_FLUSH: a write of XLT_WS_FLUSH; with BUSY it starts a flush. A write while BUSY is discarded whole; a space that the
window does not own completes with no effect and sets REJECTED. -/
def execWsFlush (win v : Nat) (s : State) : Out :=
  .next (
    if !winOpen s win || flagF s f_XLT_WS_FLUSH_BUSY 0 win then s else
    let space := v % 2 ^ 20
    let s := setF s f_XLT_WS_FLUSH_SPACE 0 space win
    if !bitAt v 31 then s
    else if winOwns s win space then startFlush (setF s f_XLT_WS_FLUSH_BUSY 0 1 win) win space none
    else countR (setF s f_XLT_IQ_STATUS_REJECTED 0 1 win) r_XLT_WS_FLUSH_DONE 0 1 win)

/-- WS_FLUSH_COMPLETE: a whole-space flush has met every condition of R304; BUSY clears and the flush is counted. -/
def execWsFlushComplete (id : Nat) (s : State) : Out :=
  .next (match mfind s.invals id with
    | none => s
    | some v =>
      if v.idx.isSome || !invalDone s v then s else
      let s := { s with invals := mdel s.invals id }
      if v.teardown.isSome then s
      else countR (setF s f_XLT_WS_FLUSH_BUSY 0 0 v.win) r_XLT_WS_FLUSH_DONE 0 1 v.win)

end Sys2Proof.Machine
end

