-- ==== Sys2Proof/Machine/Brood.lean ====
section
/-!
DEFINITION. Time slices and handovers (R388 to R392), teardown (R394, R395) and quiescence.
-/

namespace Sys2Proof.Machine

/-! ## Slices and handovers -/

/-- SLICE_END: the scheduler of an Imago decides: at the end of a slice, for a holder without work, for a higher priority, or
for an Imago without a holder (R388, R389). -/
def execSliceEnd (i : Nat) (s : State) : Out := .next (schedule s i)

/-- Is a descriptor part of a COPY, FILL or MIGRATE of a context? -/
def bulkOf (s : State) (space : Nat) (d : Desc) : Bool :=
  d.space = space && match d.owner with
    | .command _ c => ((cmdOf s c).map Cmd.op) ≠ some opCollective
    | _ => false

/-- Has a bulk channel come to a burst boundary, if its front descriptor is one of a context's (R391)? A stalled segment is
left where it stands. -/
def atBoundary (s : State) (space : Nat) (c : Chan) : Bool :=
  match c.queue.head? with
  | none => true
  | some d => !bulkOf s space d || (c.bursts.isEmpty && c.cnt = 0) || chanParked s c

/-- Have all bulk channels come to a burst boundary of a context's work? -/
def bulkStopped (s : State) (space : Nat) : Bool :=
  s.movers.all (fun m => m.1 < 256 || m.2.chans.all (fun kv => atBoundary s space kv.2))

/-- Gives a descriptor back to its command, with how far it has come. -/
def keepDesc (s : State) (d : Desc) (p : Option Prog) : State :=
  match d.owner with
  | .command _ c => modCmd s c (fun v => { v with
      kept := v.kept ++ [{ d with prog := p }], running := v.running - 1, preempted := true })
  | _ => s

/-- The stalled tile of a channel stays on its tracker entries, for the command whose descriptor is lifted off (R301). -/
def parkTile (s : State) (u k : Nat) (d : Desc) : State :=
  match d.owner, (chan s u k).tile with
  | .command q c, some id => match mfind s.tiles id with
    | some t => setChan (setTile s id { t with owner := .savedBulk q c }) u k { chan s u k with tile := none }
    | none => s
  | _, _ => s

/-- Takes a context's descriptors off one bulk channel. -/
def liftChan (s : State) (u k space : Nat) : State :=
  let c := chan s u k
  match c.queue with
  | [] => s
  | d :: _ =>
    let mine := c.queue.filter (bulkOf s space)
    let front := bulkOf s space d
    let prog : Option Prog := if front && c.begun then some c.prog else d.prog
    let s := if front && chanStalled s c then parkTile s u k d else s
    let s := if front then endDesc s u k else s
    let s := setChan s u k { chan s u k with queue := (chan s u k).queue.filter (fun x => !bulkOf s space x) }
    (if front then mine.drop 1 else mine).foldl (fun s x => keepDesc s x x.prog) (if front then keepDesc s d prog else s)

/-- Takes a context's descriptors off the bulk channels: the work stays with its commands (R391). -/
def liftBulk (s : State) (space : Nat) : State :=
  (List.range 512).foldl (fun s n => liftChan s (256 + n / 32) (n % 32) space) s

/-- Has a context a non-preemptible command running (R392)? -/
def npRunning (s : State) (space : Nat) : Bool :=
  (cmdsOf s space).any (fun kv => nonPreemptible kv.2 && kv.2.start.isSome && kv.2.fin.isNone)

/-- HANDOVER_COMPLETE: every batch of the old holder is saved, its bulk work has stopped, and every non-preemptible command
of it is complete: it becomes RESIDENT with its overrun as debt, and the new holder's slice starts (R367, R391, R392). -/
def execHandoverComplete (i : Nat) (s : State) : Out :=
  .next (match (sched s i).old with
    | none => s
    | some o =>
      if !(coresOf s o).isEmpty || npRunning s o || !bulkStopped s o then s else
      let s := setSlotState (liftBulk s o) o slotResident
      let s := modCtx s o (fun x => { x with debt := x.debt + (sched s i).late })
      let s := modSched s i (fun v => { v with old := none, late := 0 })
      match holderOf s i with
      | some h => startSlice s i h
      | none => schedule s i)

/-- How long a command has now been stalled on translation faults. -/
def stalledNow (s : State) (id : Nat) : Nat :=
  s.tiles.foldl (fun n kv => match mfind s.stallAt kv.1 with
    | some t => if kv.2.stalled && (tileCmd s kv.2).map Prod.snd = some id then max n (since s t) else n
    | none => n) 0

/-- The time a command has run, without what it was stalled on translation faults (R300, R392). -/
def ranFor (s : State) (id : Nat) (c : Cmd) : Nat :=
  match c.start with
  | some t => sinceRun s t - c.stalled - stalledNow s id
  | none => 0

/-- NP_OVERRUN: a non-preemptible command that has run longer than SCH_NP_MAX posts its record, once (R392, R400). -/
def execNpOverrun (id : Nat) (s : State) : Out :=
  .next (match cmdOf s id with
    | none => s
    | some c =>
      if !nonPreemptible c || c.start.isNone || c.fin.isSome || c.overPosted || ranFor s id c ≤ getF s f_SCH_NP_MAX_US * usTicks then s
      else
        let s := modCmd s id (fun v => { v with overPosted := true })
        postEvent (countR s r_SCH_NP_OVERRUNS 0 1) c.win
          (eventRecord 0x13 0 c.space (c.num 4 4 + c.op * 2 ^ 32) (ranFor s id c / usTicks)
            (((queueOf s c.queue).map Queue.num).getD 0) s.now))

/-! ## Teardown (R394, R395) -/

/-- Aborts and removes the descriptors of one channel that meet a test; answers how many requests were aborted, and the
commands whose begun descriptors were. -/
def dropDescs (s : State) (u k : Nat) (p : Desc → Bool) : Nat × List Nat × State :=
  let c := chan s u k
  match c.queue with
  | [] => (0, [], s)
  | d :: _ =>
    let r : Nat × List Nat × State :=
      if p d then
        let (n, s) := abortReqs s (fun r => r.owner = .moverRead u k || r.owner = .moverWrite u k)
        (n, match d.owner with
          | .command _ id => if c.begun then [id] else []
          | _ => [], endDesc s u k)
      else (0, [], s)
    (r.1, r.2.1, setChan r.2.2 u k { chan r.2.2 u k with queue := (chan r.2.2 u k).queue.filter (fun x => !p x) })

/-- The same over every channel of every mover. -/
def dropAllDescs (s : State) (p : Desc → Bool) : Nat × List Nat × State :=
  (s.movers.flatMap (fun m => m.2.chans.map (fun kv => (m.1, kv.1)))).foldl (fun (acc : Nat × List Nat × State) uk =>
    let r := dropDescs acc.2.2 uk.1 uk.2 p
    (acc.1 + r.1, acc.2.1 ++ r.2.1, r.2.2)) (0, [], s)

/-- Removes the dispatches of Gate units that meet a test: a running one leaves its outputs undefined, its transfers end, and
its context's plan is squashed. -/
def dropDispatches (s : State) (p : GateJob → Bool) : State :=
  (List.range 8).foldl (fun s w =>
    let s := modGate s w (fun g => { g with waiting := g.waiting.filter (fun j => !p j) })
    match (gateOf s w).run with
    | none => s
    | some r =>
      if !p r.job then s else
      let s := dropPlan (freeOutputs s w r.job) w (jobSlot s r.job).1
      let s := (dropAllDescs s (fun d => d.owner = .gate w)).2.2
      let s := dropTiles s (fun t => t.owner = .gate w)
      modGate (gateClear s w) w (fun g => { g with run := none })) s

/-- Ends a kernel that a teardown or reset covers: its cores are freed and its reservations invalidated; a kernel already
stopped keeps its fault, which is reported (R101, R395). Answers the requests aborted. -/
def cutKernel (s : State) (kid code : Nat) : Nat × State :=
  let k := kernel s kid
  let cs := coresRunning s kid
  let r := cs.foldl (fun (acc : Nat × State) c =>
    let a := abortCore acc.2 c
    (acc.1 + a.1, modCore (clearCore a.2 c) c (fun v => { v with region := none, resvPages := 0 }))) (0, s)
  let s := doomIf r.2 (fun v => cs.contains v.core)
  (r.1, match k.fault with
    | some f => endKernel (postEvent s k.window (kernelFaultRecord k f)) kid f.code
    | none => endKernel s kid (if r.1 ≠ 0 then errTransferAborted else code))

/-- Removes the device work of a context's queues that is outstanding. -/
def dropDevice (s : State) (space : Nat) : Nat × State :=
  let qs := queuesOf s space
  let s := dropTiles s (fun t => match t.owner with
    | .device _ q _ => qs.contains q
    | .saved kid _ _ _ _ => (kernel s kid).space = space
    | .savedMover kid _ _ _ => (kernel s kid).space = space
    | .savedBulk q _ => qs.contains q
    | _ => false)
  abortReqs s (fun r => r.space = space && match r.owner with
    | .command q _ => qs.contains q
    | _ => false)

/-- Cancels requests on links: an ABORT with the context slot's instar goes to each chip that has requests of the space
(R394, R421). -/
def abortLinks (s : State) (space instar : Nat) : State :=
  (((spaceReqs s space).filter (fun kv => kv.2.stage = .remote)).map (fun kv => (gpaChip kv.2.gpa, kv.2.inst))).eraseDups.foldl
    (fun s d => sendOrDrop s { LinkMsg.blank s msgAbort d.1 with inst := d.2 % 32, instar := instarOf s (.inst d.2), aux := instar }) s

/-- TEARDOWN_ABORT: 100 µs into a teardown what remains is aborted; the slot's instar advances, tracker entries are retired
and landing slots squashed, every command not complete fails, and the whole-space flush begins (R301, R308, R394, R395). -/
def execTeardownAbort (space : Nat) (s : State) : Out :=
  .next (match ctxOf s space with
    | none => s
    | some x => match x.down with
      | none => s
      | some (code, t) =>
        if x.downAborted || !due s t (100 * usTicks) then s else
        let slot := slotOf s space
        let s := abortLinks s space ((slot.map (fun k => instarOf s (.slot k.1))).getD 0)
        let kids := (s.kernels.filter (fun kv => kv.2.space = space)).map Prod.fst
        let k := kids.foldl (fun (acc : Nat × State) kid =>
          let r := cutKernel acc.2 kid code
          (acc.1 + r.1, r.2)) (0, s)
        let d := dropAllDescs k.2 (fun d => d.space = space && match d.owner with
          | .command _ _ => true
          | _ => false)
        let s := d.2.1.foldl (fun s c => endCmd s c errTransferAborted) d.2.2
        let s := dropDispatches s (fun j => j.space = space)
        let v := dropDevice s space
        let s := retireEntries v.2 (fun e => e.space = space)
        let s := (cmdsOf s space).foldl (fun s kv =>
          let s := if kv.2.fin.isSome then s else endCmd s kv.1 code
          let s := modCmd s kv.1 (fun c => { c with start := some (c.start.getD s.now), quiet := true })
          if kv.2.fin = some 0 then s else modCtx s space (fun x => { x with failed := x.failed + 1 })) s
        let cut := k.1 + d.1 + v.1
        let s := modCtx s space (fun x => { x with
          downAborted := true, saved := [], cut := cut, drained := x.drained - cut })
        let s := match slot with
          | some (n, _) => advanceInstar (doomIf s (fun l => l.ctx = n)) (.slot n)
          | none => s
        startFlush s x.win space (some space))

/-- Destroys a context's queue: the status block is written and the descriptor's instar advances (R374, R394). -/
def destroyQueue (s : State) (q : Nat) : State :=
  let s := writeStatus (modQueue s q (fun v => { v with state := qDestroyed })) q
  advanceInstar { s with queues := mdel s.queues q } (.queue q)

/-- QUIESCE: the flush is complete and every command has failed: the queues are destroyed, the directory entry is cleared, the
QUIESCE record posted and the slot released (R367, R394, R400). It waits until their instars may advance (R357), and for room in the
event queue (R401), but not in an instance reset, which discards held records (R448). -/
def execQuiesce (space : Nat) (s : State) : Out :=
  .next (match ctxOf s space with
    | none => s
    | some x => match x.down with
      | none => s
      | some (code, _) =>
        let resetting := x.inst < 32 && flagF s f_SEC_INST_RESETTING x.inst
        let flushing := s.invals.any (fun kv => kv.2.teardown = some space)
        let qs := queuesOf s space
        let busy := qs.any (fun q => ((queueOf s q).map (fun v => decide (v.head ≠ v.tail))).getD false) || !(cmdsOf s space).isEmpty
          || (!resetting && s.objs.any (fun kv => kv.1 / 2 ^ 24 = space && kv.2.freeing))
        let landing := s.landing.any (fun kv => (slotOf s space).map Prod.fst = some kv.2.ctx)
        let due := (match slotOf s space with
          | some (k, _) => decide (mget 0 s.instarDue (Unit8.slot k).key ≠ 0)
          | none => false) || qs.any (fun q => !instarReady s (.queue q) || mget 0 s.instarDue (Unit8.queue q).key ≠ 0)
        if !x.downAborted || flushing || busy || landing || due || !(evRoom s x.win || resetting) then s else
        let s := forgetSpace (dropColls (qs.foldl destroyQueue s) space) space
        let dir := getF s f_SCH_CTX_DIR_ADDR * 4096 + 8 * space
        let s := { s with host := memPut s.host dir (List.replicate 8 0) }
        let r := match slotOf s space with
          | some (k, _) => (k + 256 * instarOf s (.slot k),
              setR { s with slots := mdel s.slots k } r_SCH_SLOT k (instarOf s (.slot k) * 2 ^ 24))
          | none => freeVal s 16
        let s := { r.2 with
          ctxs := mdel r.2.ctxs space
          objs := r.2.objs.filter (fun kv => kv.1 / 2 ^ 24 ≠ space) }
        let s := postEvent s x.win (eventRecord 0x12 code space r.1 x.failed (x.drained + x.cut * 2 ^ 32) s.now)
        schedule s x.inst)

end Sys2Proof.Machine
end

