-- ==== Sys2Proof/Machine/CInstr.lean ====
section
/-!
DEFINITION. The C instructions (R82, R83, R94 to R96, R98, R99), except CSILK (Silk.lean), and the events that end a
group's wait.
-/

namespace Sys2Proof.Machine

/-- The reserved fields of a C instruction are zero: D and A unless used, SUB and IMM outside their masks (R94). -/
def cWell (t : Th) (usesD usesA : Bool) (sub imm : Nat) : Bool :=
  (usesD || fD t = 0) && (usesA || fA t = 0) && Nat.land (cSub t) sub = cSub t && Nat.land (cImm t) imm = cImm t
    && rkind (fD t) ≠ .reserved && rkind (fA t) ≠ .reserved

/-- An address a signed count of instructions from the C instruction (R94). -/
def cTarget (g : Group) (count : Nat) (w : Nat) : DWord := g.pc + BitVec.ofInt 64 (8 * signedOf count w)

/-- CNOP (R94). -/
def execCnop (t : Th) (s : State) : Out := .next (issueLocal s t (cWell t false false 0 0) [usesPred t] (fun g => g))

/-- The procedure cbr of R82: none when the stack would pass 32 entries. -/
def cbr (g : Group) (target rpc : DWord) (taken : Word) : Option Group :=
  let fall := g.active &&& ~~~ taken
  if fall = 0 then some { g with pc := target }
  else if taken = 0 then some { g with pc := nextPc g }
  else if 32 < g.stack.length + 2 then none
  else some { g with
    stack := ⟨nextPc g, fall, rpc⟩ :: ⟨rpc, g.active, g.rpc⟩ :: g.stack
    active := taken
    rpc := rpc
    pc := target }

/-- CBR: a conditional branch that may split the group (R82, R94). -/
def execCbr (t : Th) (s : State) : Out :=
  .next (issue s t (cWell t false false 0 0xFFFFFFFF) [usesPred t] (fun g =>
    match cbr g (cTarget g (fld t 16 16) 16) (cTarget g (fld t 0 16) 16) (execMask g t) with
    | some g' => retire s t.core t.grp g'
    | none => threadFault s t.core t.grp errDivergeDepth g.active g.pc))

/-- CJMP: a uniform jump; PRED must be p0 with PNEG = 0 (R94). -/
def execCjmp (t : Th) (s : State) : Out :=
  .next (issue s t (cWell t false false 0 0xFFFFFFFF && fPred t = 0 && !fPneg t) [] (fun g =>
    retire s t.core t.grp { g with pc := cTarget g (cImm t) 32 }))

/-- CCALL: the a register D receives the return address, and the group jumps; uniform (R94). -/
def execCcall (t : Th) (s : State) : Out :=
  .next (issue s t (cWell t true false 0 0xFFFFFFFF && rkind (fD t) = .a) [usesPred t, fD t] (fun g =>
    retire s t.core t.grp (
      if execMask g t = 0 then { g with pc := nextPc g }
      else { wrA g (fD t - 0x60) (nextPc g) with pc := cTarget g (cImm t) 32 })))

/-- CJMPR: a jump to the address in a A, which must be 8-byte aligned; uniform (R94). -/
def execCjmpr (t : Th) (s : State) : Out :=
  .next (issue s t (cWell t false true 0 0 && rkind (fA t) = .a) [usesPred t, fA t] (fun g =>
    let target := aReg g (fA t - 0x60)
    if execMask g t = 0 then retire s t.core t.grp { g with pc := nextPc g }
    else if target.toNat % 8 ≠ 0 then threadFault s t.core t.grp errMisaligned (execMask g t) target
    else retire s t.core t.grp { g with pc := target }))

/-- CEXIT: the executing lanes leave the active mask for good (R82); a group whose lanes have all exited ends (R68). -/
def execCexit (t : Th) (s : State) : Out :=
  .next (issue s t (cWell t false false 0 0) [usesPred t] (fun g =>
    let m := execMask g t
    retire s t.core t.grp { g with active := g.active &&& ~~~ m, exited := g.exited ||| m, pc := nextPc g }))

/-- A uniform instruction that makes the group wait when it executes. -/
def cWaitFor (s : State) (t : Th) (legal : Bool) (w : Group → Wait) : State :=
  issueLocal s t legal [usesPred t] (fun g => if execMask g t = 0 then g else { g with wait := w g })

/-- CBAR: the group waits at batch barrier SUB[2:0] (R95). -/
def execCbar (t : Th) (s : State) : Out :=
  .next (cWaitFor s t (cWell t false false 7 0) (fun _ => .barrier (cSub t)))

/-- BARRIER_RELEASE: when every group that has not ended waits at the barrier, all are released and it resets (R95). -/
def execBarrierRelease (c n : Nat) (s : State) : Out :=
  .next (match batchOf s c with
    | none => s
    | some b => if barrierMet b n then setBatch s c (some (releaseBarrier b n)) else s)

/-- The M instructions of a group that have not completed (R96). -/
def mOutstanding (s : State) (c g : Nat) : Nat :=
  let m := (core s c).m
  ((m.load ++ m.stream ++ m.drain).filter (fun i => i.grp = g)).length

/-- Is a global access of a group not yet performed at Imago scope (R96, R242)? -/
def globalOutstanding (s : State) (c g : Nat) : Bool :=
  s.ops.any (fun kv => kv.2.core = c && kv.2.grp = g && !kv.2.performed
    && (kv.2.kind = .load || kv.2.kind = .store || kv.2.kind = .atomic))

/-- Is a Silk operation of a group not yet acknowledged (R96)? -/
def silkOutstanding (s : State) (c g : Nat) : Bool :=
  s.ops.any (fun kv => kv.2.core = c && kv.2.grp = g
    && !(kv.2.kind = .load || kv.2.kind = .store || kv.2.kind = .atomic))

/-- The incomplete descriptors of a channel that the batch queued (R96, R196). -/
def batchDescs (s : State) (c k : Nat) : Nat :=
  ((chan s c k).queue.filter (fun d => match d.owner with
    | .xmov _ _ => true
    | _ => false)).length

/-- Do the conditions that SUB selects hold (R96)? -/
def waitMet (s : State) (c g sub chans count : Nat) : Bool :=
  (!bitAt sub 0 || mOutstanding s c g = 0) && (!bitAt sub 1 || !globalOutstanding s c g)
    && (!bitAt sub 2 || (List.range 8).all (fun k => !bitAt chans k || batchDescs s c k ≤ count))
    && (!bitAt sub 3 || !silkOutstanding s c g)

/-- CWAIT: the group is not ready until every selected condition holds; SUB = 0 has no effect (R96). -/
def execCwait (t : Th) (s : State) : Out :=
  .next (cWaitFor s t (cWell t false false 0xF 0xFFF) (fun _ =>
    if waitMet s t.core t.grp (cSub t) (fld t 0 8) (fld t 8 4) then .ready
    else .cond (cSub t) (fld t 0 8) (fld t 8 4)))

/-- CWAIT_SATISFIED: the conditions of a waiting CWAIT hold, and the group becomes ready (R96). -/
def execCwaitSatisfied (c g : Nat) (s : State) : Out :=
  .next (match groupOf s c g with
    | some gr => match gr.wait with
      | .cond sub chans count =>
        if waitMet s c g sub chans count then setGroup s c g { gr with wait := .ready } else s
      | _ => s
    | none => s)

/-- CSLEEP: the group is not ready for IMM[19:0] core clocks (R94). -/
def execCsleep (t : Th) (s : State) : Out :=
  .next (cWaitFor s t (cWell t false false 0 0xFFFFF) (fun _ => .sleep (clock20 s t.core + 20 * fld t 0 20)))

/-- CSLEEP_EXPIRY: a sleeping group's clocks have run out, and it becomes ready (R94). -/
def execCsleepExpiry (c g : Nat) (s : State) : Out :=
  .next (match groupOf s c g with
    | some gr => match gr.wait with
      | .sleep u => if u ≤ clock20 s c then setGroup s c g { gr with wait := .ready } else s
      | _ => s
    | none => s)

/-- The special registers (R98): their value in a lane, and whether they are 64 bits wide. -/
def special (s : State) (c : Nat) (b : Batch) (g : Group) (lane n : Nat) : Option (DWord × Bool) :=
  let l := (kernel s b.kernel).lb
  let w32 (v : Nat) : Option (DWord × Bool) := some (BitVec.ofNat 64 (v % 2 ^ 32), false)
  match n with
  | 0x00 => w32 lane
  | 0x01 => w32 (g.lin % l.gridX)
  | 0x02 => w32 (g.lin / l.gridX % l.gridY)
  | 0x03 => w32 (g.lin / l.gridX / l.gridY)
  | 0x04 => w32 l.gridX
  | 0x05 => w32 l.gridY
  | 0x06 => w32 l.gridZ
  | 0x07 => w32 b.index
  | 0x08 => w32 b.ngroups
  | 0x09 => w32 g.active.toNat
  | 0x0A => w32 g.flags.toNat
  | 0x0B => some (coreClock s c, true)
  | 0x0C => some (s.now, true)
  | 0x0D => w32 c
  | 0x0E => w32 (b2n b.resident)
  | 0x0F => w32 (l.scrPages * 4096)
  | 0x10 => w32 (l.specPages * 4096)
  | 0x11 => w32 l.mode
  | 0x12 => w32 l.seed.toNat
  | _ => none

/-- CSRD: D receives a special register (R98); a number not listed is illegal. -/
def execCsrd (t : Th) (s : State) : Out :=
  .next (match batchOf s t.core with
    | none => s
    | some b =>
      let n := fld t 0 8
      issueLocal s t (cWell t true false 0 0xFF && rkind (fD t) ≠ .p && n ≤ 0x12) [usesPred t, fD t] (fun g =>
        let m := execMask g t
        let v (lane : Nat) : DWord := ((special s t.core b g lane n).map Prod.fst).getD 0
        if rkind (fD t) = .a then if m = 0 then g else wrA g (fD t - 0x60) (v (lowLane m))
        else wr g (fD t) m (fun lane => BitVec.setWidth 32 (v lane))))

/-- CSWR: writes A to FLAGS, each 1 clearing its bit (R98, R99); any other register is illegal. Of an s register whose lanes
differ the lowest executing lane's value counts: the model's choice (log entry 59). -/
def execCswr (t : Th) (s : State) : Out :=
  .next (issueLocal s t (cWell t false true 0 0xFF && fld t 0 8 = 0x0A) [usesPred t, fA t] (fun g =>
    let m := execMask g t
    if m = 0 then g else clearFlags g (rd g (lowLane m) (fA t))))

/-- CABORT: raises KERNEL_ABORT carrying IMM[15:0] (R94, R102). -/
def execCabort (t : Th) (s : State) : Out :=
  .next (issue s t (cWell t false false 0 0xFFFF) [usesPred t] (fun g =>
    if execMask g t = 0 then retire s t.core t.grp { g with pc := nextPc g }
    else threadFault s t.core t.grp errKernelAbort (execMask g t) (BitVec.ofNat 64 (fld t 0 16))))

end Sys2Proof.Machine
end

