-- ==== Sys2Proof/Machine/Admit.lean ====
section
/-!
DEFINITION. Admission (R269 to R273, R341): what a composition is charged on each resource, and whether every load stays within
capacity. Loads are held as whole numbers of 1/`fine` of the unit of R271, 1/128 MB/s: an Imago's bulk work is shared by up to
16 clusters, whose shares are then whole too, and nothing but the division over link ports is rounded (R271, log entry 60).
-/

namespace Sys2Proof.Machine

/-! ## Resources, in the order of R272 -/

/-- Resource keys: 4,096 × the KIND of QOS_ADM_LOG + its INDEX. -/
def resSlice (m : Nat) : Nat := 4096 + m
def resCore (c : Nat) : Nat := 2 * 4096 + c
def resLink (p : Nat) : Nat := 3 * 4096 + p
def resCluster (k : Nat) : Nat := 4 * 4096 + k
def resBridge (b : Nat) : Nat := 5 * 4096 + b
def resHost : Nat := 6 * 4096

/-- The admissible capacity of a resource (R269). -/
def capOf (s : State) (k : Nat) : Nat :=
  match k / 4096 with
  | 1 => getR s r_QOS_CAP_MEM * 128
  | 2 => getR s r_QOS_CAP_CPORT * 128
  | 3 => getR s r_QOS_CAP_LINK * 128
  | 4 => getR s r_QOS_CAP_CLUSTER * 128
  | 5 => bridgeCap s (k % 4096 / 2)
  | _ => getR s r_QOS_CAP_HOST * 128

/-- The parts into which the unit of R271 is cut: a multiple of every number of clusters, 1 to 16. -/
def fine : Nat := 720720

/-- Adds a charge, in `fine` parts, to a load. -/
def addFine (m : SMap Nat) (k v : Nat) : SMap Nat := if v = 0 then m else mput m k (mget 0 m k + v)

/-- Adds a charge, in whole units, to a load. -/
def addLoad (m : SMap Nat) (k v : Nat) : SMap Nat := addFine m k (fine * v)

/-- The sum of two loads. -/
def sumLoad (a b : SMap Nat) : SMap Nat := b.foldl (fun m kv => addFine m kv.1 kv.2) a

/-- The larger of two loads, resource by resource. -/
def maxLoad (a b : SMap Nat) : SMap Nat := b.foldl (fun m kv => mput m kv.1 (max (mget 0 m kv.1) kv.2)) a

/-- A quotient rounded up. -/
def ceilDiv (a b : Nat) : Nat := (a + b - 1) / b

/-! ## Charges (R270) -/

/-- The bridge directions that a route from one base die to another crosses, as members of QOS_BRIDGE_LOAD (R227). -/
def dieRoute (a b : Nat) : List Nat :=
  (if a % 2 = b % 2 then [] else [2 * (a / 2) + (1 - b % 2)])
    ++ (if a / 2 = b / 2 then [] else [2 * (2 + b % 2) + (1 - b / 2)])

/-- Charges the bridges between two dies, in both directions of travel, in `fine` parts. -/
def chargeDies (m : SMap Nat) (a b v : Nat) : SMap Nat :=
  (dieRoute a b ++ dieRoute b a).foldl (fun m k => addFine m (resBridge k) v) m

/-- The number of interleave entries that name each local slice, and each other chip. -/
def entryCounts (s : State) (c : Comp) : SMap Nat × SMap Nat :=
  c.ilv.foldl (fun (acc : SMap Nat × SMap Nat) e =>
    let w := mget 0 c.slist (bitsOf e 0 8)
    if bitsOf w 0 16 = chipId s then (addFine acc.1 (bitsOf w 16 8) 1, acc.2)
    else (acc.1, addFine acc.2 (bitsOf w 0 16) 1)) ([], [])

/-- The base dies from which a master's requests leave: each with its share of them, out of `fine`. -/
abbrev Origins := List (Nat × Nat)

/-- Charges the bridges between every origin and a die, each by its share of `v` whole units. -/
def chargeFrom (m : SMap Nat) (from' : Origins) (die v : Nat) : SMap Nat :=
  from'.foldl (fun m o => chargeDies m o.1 die (v * o.2)) m

/-- The ports of a mask. -/
def maskPorts (ports : Nat) : List Nat := (List.range 32).filter (fun p => bitAt ports p)

/-- The charge of a grant of `q` to Imago memory: slices, bridges, and, for remote slices of a DIRECT destination, its link
ports in equal parts. -/
def chargeMem (c : Comp) (n : SMap Nat × SMap Nat) (from' : Origins) (q : Nat) (m : SMap Nat) : SMap Nat :=
  let m := n.1.foldl (fun m kv => chargeFrom (addLoad m (resSlice kv.1) (q * kv.2)) from' (kv.1 / 64) (q * kv.2)) m
  n.2.foldl (fun m kv => match c.routes.find? (fun r => r.dest = kv.1 && r.direct) with
    | none => m
    | some r =>
      let ps := maskPorts r.ports
      let v := ceilDiv (q * kv.2) ps.length
      ps.foldl (fun m p => chargeFrom (addLoad m (resLink p) v) from' (p / 8) v) m) m

/-- The charge of a grant of `q` to the host: the host interface, and the bridges to B0. -/
def chargeHost (from' : Origins) (q : Nat) (m : SMap Nat) : SMap Nat :=
  chargeFrom (addLoad m resHost (1024 * q)) from' 0 (1024 * q)

/-- The sum of the rates of a QOS rate register over the classes with a target. -/
def rateFor (c : Comp) (rates target : Nat) : Nat :=
  ((List.range 4).filter (fun k => bitsOf c.target (2 * k) 2 = target)).foldl (fun a k => a + bitsOf rates (16 * k) 16) 0

/-- The base dies on which a composition has local slices, or all (R382). -/
def compDies (s : State) (c : Comp) : List Nat :=
  let l := (List.range 4).filter (fun d => c.slist.any (fun kv => bitsOf kv.2 0 16 = chipId s && bitsOf kv.2 16 8 / 64 = d))
  if l.isEmpty then List.range 4 else l

/-- The clusters that run a composition's commands: those of its dies with a channel whose USE is 0. -/
def compClusters (s : State) (c : Comp) : List Nat :=
  (List.range 16).filter (fun k => (compDies s c).contains (k / 4)
    && (List.range 32).any (fun j => getF s f_TMV_BCH_CFG_USE (32 * k + j) = 0))

/-- The charge of an Imago's bulk work or spill: its clusters in place of a core's port. -/
def chargeBulk (s : State) (c : Comp) (n : SMap Nat × SMap Nat) (mem host : Nat) (m : SMap Nat) : SMap Nat :=
  let cl := compClusters s c
  let k := cl.length
  let from' : Origins := cl.map (fun x => (x / 4, fine / k))
  let m := cl.foldl (fun m x => addFine m (resCluster x) (1024 * (mem + host) * (fine / k))) m
  chargeHost from' host (chargeMem c n from' mem m)

/-- What a composition is charged (R270). -/
def charges (s : State) (c : Comp) : SMap Nat :=
  let n := entryCounts s c
  let m := c.coreRate.foldl (fun m kv =>
    let mem := rateFor c kv.2 1
    let host := rateFor c kv.2 2
    let from' : Origins := [(dieOfCore s kv.1, fine)]
    chargeHost from' host (chargeMem c n from' mem (addLoad m (resCore kv.1) (1024 * (mem + host))))) []
  chargeBulk s c n c.spill 0 (chargeBulk s c n (rateFor c c.bulk 1) (rateFor c c.bulk 2) m)

/-- Is a route listed with this chip's neighbour at every port (R436)? -/
def routeDirect (s : State) (k : Nat) : Bool :=
  flagF s f_LNK_RT_VALID k && (List.range (getF s f_LNK_RT_COUNT k + 1)).all (fun n =>
    let p := bitsOf (getR s r_LNK_RT k) (5 * n) 5
    flagF s f_LNK_PORT_PEER_VALID p && getF s f_LNK_PORT_PEER_CHIP p = k)

/-- Is every guarantee of a composition admissible: none has Imago memory as its target while an interleave entry names a chip
whose way crosses more than one link hop (R270)? A chip one hop away that no DIRECT route names is charged nothing: what goes
there is demoted (R331). -/
def admissible (s : State) (c : Comp) : Bool :=
  let grants := c.spill ≠ 0 || rateFor c c.bulk 1 ≠ 0 || c.coreRate.any (fun kv => rateFor c kv.2 1 ≠ 0)
  !grants || (entryCounts s c).2.all (fun kv => c.routes.any (fun r => r.dest = kv.1 && r.direct) || routeDirect s kv.1)

/-- The channels of a base die that device work may use, in number order (R197). -/
def deviceChannels (s : State) (die : Nat) : List Nat :=
  ((List.range 128).map (fun n => 128 * die + n)).filter (fun n => getF s f_TMV_BCH_CFG_USE n = 1)

/-- What an evacuation is charged, by its source slice, destinations and rate, on the channel it runs on. -/
def chargeEvac (src rate : Nat) (chan : Option Nat) (dests : List Nat) (m : SMap Nat) : SMap Nat :=
  let v := 1024 * rate
  let dies := (dests.map (fun d => d / 64)).eraseDups
  let m := match chan with
    | some n => addLoad (addLoad m (resSlice src) v) (resCluster (n / 32)) v
    | none => addLoad m (resSlice src) v
  let m := dests.foldl (fun m d => addLoad m (resSlice d) v) m
  dies.foldl (fun m d => (dieRoute (src / 64) d).foldl (fun m k => addLoad m (resBridge k) v) m) m

/-- The source slices of a stream's EVACUATE records. -/
def evacSources (es : List EvacEntry) : List Nat := (es.map EvacEntry.srcSlice).eraseDups

/-- Gives each EVACUATE of a stream a channel for device work of its source's die, in turn (R347, log entry 60). -/
def giveChans (s : State) (es : List EvacEntry) : List EvacEntry :=
  let srcs := evacSources es
  es.map (fun e =>
    let die := e.srcSlice / 64
    let chans := deviceChannels s die
    let turn := ((srcs.takeWhile (fun x => x ≠ e.srcSlice)).filter (fun x => x / 64 = die)).length
    { e with chan := chans[turn % max 1 chans.length]? })

/-- What a stream's evacuations are charged: one of each source, on its channel (R270, R347). -/
def evacCharges (es : List EvacEntry) : SMap Nat :=
  (evacSources es).foldl (fun m src =>
    let mine := es.filter (fun e => e.srcSlice = src)
    match mine with
    | e :: _ => chargeEvac src e.rate e.chan (mine.map EvacEntry.dstSlice).eraseDups m
    | [] => m) []

/-- What lent slices and link-inbound grants are charged: for a slice the larger of its rate and 57.4 GB/s, on each of its
ports and the bridges between port and slice; and on each port no less than its link-inbound grants (R270, R352). -/
def poolCharges (lends : List (Lease × LeaseTerms)) (rates : SMap Nat) : SMap Nat :=
  let m := lends.foldl (fun (m : SMap Nat) l =>
    let v := 1024 * (if l.1.kind = 0 then max l.2.rate 7175 else l.2.rate)
    let die := if l.1.kind = 0 then l.1.unit / 64 else l.1.unit / 8
    (maskPorts l.2.ports).foldl (fun m p => chargeDies (addLoad m (resLink p) v) (p / 8) die (fine * v)) m) []
  rates.foldl (fun m kv =>
    let v := fine * 1024 * ((List.range 4).foldl (fun a k => a + bitsOf kv.2 (16 * k) 16) 0)
    mput m (resLink kv.1) (max (mget 0 m (resLink kv.1)) v)) m

/-! ## Loads admitted -/

/-- The leases lent, with their terms. -/
def lentTerms (s : State) : List (Lease × LeaseTerms) :=
  (lentLeases s).map (fun k => (leaseAt s k, mget LeaseTerms.empty s.leaseTerms k))

/-- The link-inbound grants in force. -/
def linkRates (s : State) : SMap Nat :=
  ((List.range 32).filter (fun p => getR s r_QOS_LINK_RATE p ≠ 0)).map (fun p => (p, getR s r_QOS_LINK_RATE p))

/-- The load of the pool's lendings. -/
def poolLoad (s : State) : SMap Nat := poolCharges (lentTerms s) (linkRates s)

/-- The load of every Imago but one, and of the pool's lendings unless they are what changes. -/
def otherLoad (s : State) (but : Option Nat) : SMap Nat :=
  (s.imagos.filter (fun kv => some kv.1 ≠ but)).foldl (fun m kv => sumLoad m kv.2.load) (if but.isNone then [] else poolLoad s)

/-- Does a load pass a resource's capacity? -/
def overCap (s : State) (kv : Nat × Nat) : Bool := decide (fine * capOf s kv.1 < kv.2)

/-- The first resource, of all that are loaded, whose total would exceed its capacity, with the total (R272, R277). -/
def firstBreach (s : State) (load mine : SMap Nat) : Option (Nat × Nat) := (sumLoad load mine).find? (overCap s)

/-- Notes a rejection in QOS_ADM_LOG: LOAD is rounded up. -/
def logBreach (s : State) (inst : Nat) (b : Nat × Nat) : State :=
  setR s r_QOS_ADM_LOG 0
    (b.1 / 4096 + b.1 % 4096 * 2 ^ 4 + inst % 32 * 2 ^ 12 + ceilDiv b.2 (1024 * fine) % 2 ^ 31 * 2 ^ 32 + 2 ^ 63)

/-- A resource's load in the units of the load registers: a part of a unit counts as one (log entry 60). -/
def loadUnits (load : SMap Nat) (k : Nat) : Nat := ceilDiv (mget 0 load k) fine

/-- Writes a register member unless it holds the value. -/
def putR (s : State) (r : Reg) (k v : Nat) : State := if getR s r k = v then s else setR s r k v

/-- Does an Imago hold a grant that is not zero? -/
def hasGrant (s : State) (i : Nat) : Bool :=
  getR s r_QOS_IMG_BULK_RATE i ≠ 0 || getR s r_QOS_IMG_SPILL_RATE i ≠ 0
    || (List.range 144).any (fun c => getR s r_QOS_CORE_RATE c ≠ 0 && getF s f_CMP_CORE_INSTANCE c = i)

/-- Brings the load registers and QOS_STATUS up to date (R272, R277, R278). -/
def refreshLoads (s : State) : State :=
  let load := s.imagos.foldl (fun m kv => sumLoad m kv.2.load) (poolLoad s)
  let s := (List.range 256).foldl (fun s m => putR s r_QOS_SLICE_LOAD m (loadUnits load (resSlice m))) s
  let s := (List.range 8).foldl (fun s b => putR s r_QOS_BRIDGE_LOAD b (loadUnits load (resBridge b))) s
  let s := (List.range 16).foldl (fun s k => putR s r_QOS_CLU_LOAD k (loadUnits load (resCluster k))) s
  let s := putR s r_QOS_HOST_LOAD 0 (loadUnits load resHost)
  let s := setF s f_QOS_STATUS_GUARANTEED 0 ((List.range 32).filter (hasGrant s)).length
  if !load.any (overCap s) then setF s f_QOS_STATUS_OVERCOMMIT 0 0 else s

end Sys2Proof.Machine
end

