-- ==== Sys2Proof/Machine/Oatas.lean ====
section
/-!
DEFINITION. The Oatas stream format (R317 to R334): the header, records and signature block, read from bytes.
-/

namespace Sys2Proof.Machine

/-! ## Result codes (R318) -/

def cmpOk : Nat := 0x0000
def cmpDryOk : Nat := 0x0001
def cmpBadFormat : Nat := 0x0101
def cmpBadSignature : Nat := 0x0102
def cmpBadKey : Nat := 0x0103
def cmpWrongChip : Nat := 0x0104
def cmpExpired : Nat := 0x0105
def cmpBadEpoch : Nat := 0x0106
def cmpBusy : Nat := 0x0201
def cmpNoInstance : Nat := 0x0202
def cmpNotReady : Nat := 0x0203
def cmpSliceUnavailable : Nat := 0x0301
def cmpIlvInvalid : Nat := 0x0302
def cmpRbChange : Nat := 0x0303
def cmpGuaranteeInvalid : Nat := 0x0304
def cmpKeyRefused : Nat := 0x0305
def cmpPlaceConflict : Nat := 0x0306
def cmpRouteInvalid : Nat := 0x0307
def cmpAdmission : Nat := 0x0401
def cmpRemoteRefused : Nat := 0x0402

/-- The RECORD of a failure that concerns the stream as a whole (R318). -/
def wholeStream : Nat := 0xFFFF

/-! ## Records (R320 to R334) -/

/-- A REMOTE record (R329): SUB, KIND, UNIT, LIST and FLAG of ARG, and its payload read both ways: CHIP, IMAGO, LEASE,
LINK_RATE and PORTS, or VA_BASE and VA_LIMIT. -/
structure RemoteRec where
  sub : Nat
  kind : Nat
  unit : Nat
  list : Nat
  flag : Bool
  chip : Nat
  imago : Nat
  lease : Nat
  rate : Nat
  ports : Nat
  base : Nat
  limit : Nat
  deriving DecidableEq, Repr

/-- A record of a stream. -/
inductive OatasRec where
  | bind (kind : Nat) (awake : Bool) (items : List Nat)
  | unbind (kind : Nat) (items : List Nat)
  | interleave (first rb : Nat) (entries : List Nat)
  | evacuate (list rate : Nat)
  | guarantee (master cls target index rate : Nat)
  | route (dest : Nat) (direct : Bool) (ports : Nat)
  | remote (r : RemoteRec)
  | keyref (slot use port : Nat)
  | commit
  deriving DecidableEq, Repr

/-- A number of `n` little-endian bytes at an offset. -/
def numAt (b : List Byte) (o n : Nat) : Nat := leNat ((b.drop o).take n)

/-- `n` numbers of `w` bytes each from an offset. -/
def numsAt (b : List Byte) (o w n : Nat) : List Nat := (List.range n).map (fun k => numAt b (o + w * k) w)

/-- A size rounded up to a multiple of 8. -/
def pad8 (n : Nat) : Nat := (n + 7) / 8 * 8

/-- Are the bytes from an offset on all zero? -/
def zeroFrom (b : List Byte) (o : Nat) : Bool := (b.drop o).all (fun x => x = 0)

/-- BIND and UNBIND (R322). -/
def readBind (isBind : Bool) (arg : Nat) (p : List Byte) : Option OatasRec :=
  let kind := bitsOf arg 0 2
  let n := bitsOf arg 16 16
  let items := numsAt p 0 2 n
  let awake := bitAt arg 8
  if kind = 3 || n = 0 || bitsOf arg 2 6 ≠ 0 || bitsOf arg 9 7 ≠ 0 || p.length ≠ pad8 (2 * n) || !zeroFrom p (2 * n) then none
  else if isBind then
    if awake && kind ≠ 0 then none else some (.bind kind awake items)
  else if awake || (kind = 1 && items.any (fun x => x % 256 ≠ 0)) then none
  else some (.unbind kind items)

/-- INTERLEAVE (R324): entries are VALID, not MOVING, with zero reserved bits. -/
def readInterleave (arg : Nat) (p : List Byte) : Option OatasRec :=
  let first := bitsOf arg 0 10
  let n := bitsOf arg 16 11
  let es := numsAt p 8 4 n
  if bitsOf arg 10 6 ≠ 0 || bitsOf arg 27 5 ≠ 0 || n = 0 || 1024 < first + n || p.length ≠ pad8 (8 + 4 * n)
      || !zeroFrom p (8 + 4 * n) || es.any (fun e => !bitAt e 31 || bitsOf e 18 13 ≠ 0) then none
  else some (.interleave first (numAt p 0 8) es)

/-- EVACUATE (R325). -/
def readEvacuate (arg : Nat) (p : List Byte) : Option OatasRec :=
  let rate := bitsOf arg 16 16
  if !p.isEmpty || bitsOf arg 8 8 ≠ 0 || rate = 0 || 6250 < rate then none else some (.evacuate (arg % 256) rate)

/-- GUARANTEE (R326): in a pool stream for link-inbound grants only (R320). -/
def readGuarantee (pool : Bool) (arg : Nat) (p : List Byte) : Option OatasRec :=
  let m := bitsOf arg 0 3
  let cls := bitsOf arg 4 2
  let tgt := bitsOf arg 8 2
  let idx := bitsOf arg 16 16
  if p.length ≠ 8 || !zeroFrom p 4 || 3 < m || bitAt arg 3 || bitsOf arg 6 2 ≠ 0 || bitsOf arg 10 6 ≠ 0 || tgt = 3
      || (m = 2 && cls ≠ 0) || (2 ≤ m && tgt ≠ 0) || ((m = 1 || m = 2) && idx ≠ 0xFFFF) || (m = 3 && 32 ≤ idx)
      || (pool && m ≠ 3) then none
  else some (.guarantee m cls tgt idx (numAt p 0 4))

/-- ROUTE (R328). -/
def readRoute (arg : Nat) (p : List Byte) : Option OatasRec :=
  if p.length ≠ 8 || !zeroFrom p 4 || 2 ^ 17 ≤ arg then none else some (.route (arg % 65536) (bitAt arg 16) (numAt p 0 4))

/-- REMOTE (R329): each SUB in its own kind of stream (R320), and unused fields zero. -/
def readRemote (pool : Bool) (arg : Nat) (p : List Byte) : Option OatasRec :=
  let r : RemoteRec := ⟨bitsOf arg 0 4, bitsOf arg 4 4, bitsOf arg 8 8, bitsOf arg 16 8, bitAt arg 24, numAt p 0 2, numAt p 2 1,
    numAt p 4 4, numAt p 8 4, numAt p 12 4, numAt p 0 8, numAt p 8 8⟩
  if 4 < r.sub || p.length ≠ 16 || 2 ^ 25 ≤ arg || 1 < r.kind || decide (r.sub = 1 ∨ r.sub = 3) ≠ pool then none
  else
    let ok : Bool := match r.sub with
      | 4 => r.unit = 0 && r.list = 0 && r.base < 2 ^ 49 && r.limit < 2 ^ 49
      | 0 => numAt p 3 1 = 0 && !(r.flag && r.kind = 1) && (r.flag || r.list = 0) && r.imago = 0 && r.rate = 0 && r.ports = 0
      | 1 => numAt p 3 1 = 0 && r.list = 0 && !r.flag && r.imago < 32
      | n => numAt p 3 1 = 0 && r.list = 0 && !(n = 2 && r.flag) && r.imago = 0 && r.rate = 0 && r.ports = 0
    if ok then some (.remote r) else none

/-- KEYREF (R333). -/
def readKeyref (arg : Nat) (p : List Byte) : Option OatasRec :=
  if !p.isEmpty || bitsOf arg 10 6 ≠ 0 || 2 ^ 21 ≤ arg || 1 < bitsOf arg 8 2 || (bitsOf arg 8 2 = 0 && bitsOf arg 16 5 ≠ 0) then none
  else some (.keyref (arg % 256) (bitsOf arg 8 2) (bitsOf arg 16 5))

/-- One record: TYPE, ARG and payload, in an Imago or a pool stream (R320). -/
def readRec (pool : Bool) (type arg : Nat) (p : List Byte) : Option OatasRec :=
  match type with
  | 0x01 => if pool then none else readBind true arg p
  | 0x02 => if pool then none else readBind false arg p
  | 0x03 => if pool then none else readInterleave arg p
  | 0x04 => if pool then none else readEvacuate arg p
  | 0x05 => readGuarantee pool arg p
  | 0x06 => if pool then none else readRoute arg p
  | 0x07 => readRemote pool arg p
  | 0x08 => if pool then none else readKeyref arg p
  | 0x0F => if arg = 0 && p.isEmpty then some .commit else none
  | _ => none

/-- The records of a stream, `n` of them from the bytes before its signature block: COMMIT is the last and ends them. The
first fault is the index of the record that is wrong, or the whole stream. -/
def readRecs (pool : Bool) : List Byte → Nat → Nat → Except Nat (List OatasRec)
  | b, _, 0 => if b.isEmpty then .ok [] else .error wholeStream
  | b, i, n + 1 =>
    let len := numAt b 2 2
    if b.length < 8 || len < 8 || len % 8 ≠ 0 || b.length < len || numAt b 1 1 ≠ 0 then .error i
    else match readRec pool (numAt b 0 1) (numAt b 4 4) ((b.take len).drop 8) with
      | none => .error i
      | some r =>
        if decide (r = .commit) ≠ decide (n = 0) then .error (if n = 0 then wholeStream else i)
        else match readRecs pool (b.drop len) (i + 1) n with
          | .ok rs => .ok (r :: rs)
          | .error k => .error k

/-! ## Streams (R319, R334) -/

/-- A stream: its target (none for the pool), header fields, records, the bytes its signature covers, and the signature
block's key index and pair. -/
structure Oatas where
  target : Option Nat
  dry : Bool
  chip : Nat
  epoch : Nat
  serial : Nat
  notAfter : Nat
  recs : List OatasRec
  signed : List Byte
  keyIndex : Nat
  sig : List Byte
  deriving DecidableEq, Repr

/-- Reads a stream of the length its request gives; the error is BAD_FORMAT's RECORD (R317, R319, R320, R334). -/
def readStream (b : List Byte) : Except Nat Oatas :=
  let n := b.length
  let imago := numAt b 0xE 1
  let pool := decide (imago = 0xFF)
  let sig := b.drop (n - 112)
  if n < 64 + 8 + 112 || n % 8 ≠ 0 || numAt b 0 4 ≠ 0x5341544F || numAt b 4 2 ≠ 1 || 1 < numAt b 6 2 || numAt b 8 4 ≠ n
      || numAt b 0xF 1 ≠ 0 || numAt b 0x14 4 ≠ 0 || numAt b 0x28 24 ≠ 0 || numAt b 0x12 2 = 0
      || numAt sig 1 15 ≠ 0 then .error wholeStream
  else match readRecs pool ((b.take (n - 112)).drop 64) 0 (numAt b 0x12 2) with
    | .error k => .error k
    | .ok rs => .ok ⟨if pool then none else some imago, bitAt (numAt b 6 2) 0, numAt b 0xC 2, numAt b 0x10 2, numAt b 0x18 8,
        numAt b 0x20 8, rs, b.take (n - 112), numAt sig 0 1, sig.drop 0x10⟩

end Sys2Proof.Machine
end

