-- ==== Sys2Proof/Machine/Fw.lean ====
section
/-!
DEFINITION. What firmware requests share (R441 to R446, R454 to R458): messages on their way to IN buffers, the queue of
requests, replies, host buffers, and the use of key slots.
-/

namespace Sys2Proof.Machine

/-! ## Messages (R441 to R443) -/

/-- The window number that stands for the management firmware. -/
def fwWindow : Nat := 33

/-- The instar that a mailbox message to a window carries: that of the window's instance (R358). -/
def mailInstar (s : State) (dest : Nat) : Nat := if dest = 0 ∨ 32 < dest then 0 else instarOf s (.inst (dest - 1))

/-- Is a window's mailbox in use: not one of an instance that does not exist or is being reset (R441, R448)? -/
def mailOpen (s : State) (win : Nat) : Bool := winOpen s win

/-- A message of firmware to a window: word 0 with FW set, and its payload (R443). -/
def fwMail (s : State) (dest type seq : Nat) (payload : List Nat) : State :=
  if !mailOpen s dest then s else
  { s with mail := s.mail ++ [⟨dest, fwWindow, mailInstar s dest,
      ((type % 256 + 2 ^ 13 + seq % 65536 * 2 ^ 16) :: payload ++ List.replicate 16 0).take 16⟩] }

/-! ## Requests (R443, R445) -/

/-- The result codes of R446. -/
def fwOk : Nat := 0
def fwBadMsg : Nat := 1
def fwNoInstance : Nat := 2
def fwExists : Nat := 3
def fwVfDisabled : Nat := 4
def fwNoSpace : Nat := 5
def fwBusy : Nat := 6
def fwAddress : Nat := 7
def fwNotOwner : Nat := 8
def fwKeyEmpty : Nat := 9
def fwKeyUse : Nat := 0xA
def fwTagFail : Nat := 0xB
def fwSigInvalid : Nat := 0xC
def fwTimeInvalid : Nat := 0xD
def fwKeyBad : Nat := 0x901

/-- A word of a request. -/
def FwReq.word (r : FwReq) (n : Nat) : Nat := r.words.getD n 0

/-- A request's TYPE. -/
def FwReq.type (r : FwReq) : Nat := r.word 0 % 256

/-- A request's tag. -/
def FwReq.seq (r : FwReq) : Nat := bitsOf (r.word 0) 16 16

/-- Two words as a 64-bit number. -/
def FwReq.wide (r : FwReq) (n : Nat) : Nat := r.word n + 2 ^ 32 * r.word (n + 1)

/-- May a request of this type come from the window (R445)? -/
def fwPermitted (r : FwReq) : Bool :=
  0x01 ≤ r.type && r.type ≤ 0x10 && (r.win = 0 || (0x05 ≤ r.type && r.type ≤ 0x0D))

/-- Replies to a request: TYPE plus 0x80, the result, and words 2 on (R443). -/
def fwReply (s : State) (r : FwReq) (result : Nat) (rest : List Nat) : State :=
  fwMail s r.win (r.type + 0x80) r.seq (result :: rest)

/-- Answers BAD_MSG to what stands at the front and firmware does not accept. -/
def fwSettleN (s : State) : Nat → State
  | 0 => s
  | n + 1 => match s.fwq with
    | [] => s
    | r :: rest => if fwPermitted r then s else fwSettleN (fwReply { s with fwq := rest } r fwBadMsg []) n

/-- `fwSettleN` over the whole queue. -/
def fwSettle (s : State) : State := fwSettleN s s.fwq.length

/-- Ends the request that firmware handles, with its reply. -/
def fwEnd (s : State) (r : FwReq) (result : Nat) (rest : List Nat) : State :=
  fwSettle (fwReply { s with fwq := s.fwq.drop 1 } r result rest)

/-- The request at the front, when it is of a type. -/
def fwFront (s : State) (type : Nat) : Option FwReq :=
  match s.fwq with
  | r :: _ => if r.type = type then some r else none
  | [] => none

/-- Are a request's words from `n` on all zero? -/
def FwReq.zeroFrom (r : FwReq) (n : Nat) : Bool := (r.words.drop n).all (fun w => w = 0)

/-- The instance a window stands for; 0xFF for the manager. -/
def FwReq.inst (r : FwReq) : Nat := instOfWin r.win

/-! ## Host buffers (R445) -/

/-- Does a buffer lie in the PCIe bus address space? -/
def hostRange (a n : Nat) : Bool := a + n ≤ 2 ^ 64

/-- Reads a host buffer; none when an access fails: an address out of range, or poisoned data. -/
def fwRead (s : State) (a n : Nat) : Option (List Byte) :=
  if hostRange a n && (linePieces a n).all (fun p => hostBad s p.1 p.2 = 0) then some (memBytes s.host a n) else none

/-- Writes a host buffer. -/
def fwWrite (s : State) (a : Nat) (data : List Byte) : State :=
  (linePieces a data.length).foldl (fun s p => hostWrite s p.1 ((data.drop (p.1 - a)).take p.2) 0) s

/-! ## Key slots (R454, R455, R458) -/

/-- A slot's attribute word. -/
def keyAttr (s : State) (k : Nat) : Nat := getR s r_SEC_KEY_ATTR k

/-- A slot's material. -/
def keyBytes (s : State) (k : Nat) : List Byte := mget [] s.keyMat k

/-- USE of a slot. -/
def keyUse (s : State) (k : Nat) : Nat := bitsOf (keyAttr s k) 0 2

/-- Is a slot VALID? -/
def keyValid (s : State) (k : Nat) : Bool := bitAt (keyAttr s k) 8

/-- Is a slot BAD? -/
def keyIsBad (s : State) (k : Nat) : Bool := bitAt (keyAttr s k) 9

/-- Uses of a slot (R455). -/
def useEncrypt : Nat := 0
def useDecrypt : Nat := 1
def useWrap : Nat := 2
def useDerive : Nat := 3

/-- Does a slot belong to an instance, or, for 0xFF, to the manager (R454)? -/
def keyOwned (s : State) (inst k : Nat) : Bool :=
  let mine (i : Nat) : Bool :=
    getF s f_SEC_INST_KEY_BASE i ≤ k && k < getF s f_SEC_INST_KEY_BASE i + getF s f_SEC_INST_KEY_COUNT i
  if inst < 32 then mine inst else (List.range 32).all (fun i => !mine i)

/-- A slot's tag fails: it is marked BAD, its material is zeroed, the failure is counted, and the manager is told (R458). -/
def failKey (s : State) (k : Nat) : State :=
  let s := setR s r_SEC_KEY_ATTR k (setBits (keyAttr s k) 9 1 1)
  fwMail (countR { s with keyMat := mdel s.keyMat k } r_SEC_KEY_BAD 0 1) 0 0x41 0 [k]

/-- Does a slot's use as a DERIVE key pass: VALID, not BAD, USE 3, and the permission bit (R455, R458)? -/
def keyDerives (s : State) (k bit : Nat) : Bool :=
  keyValid s k && !keyIsBad s k && keyUse s k = useDerive && bitAt (keyAttr s k) bit

end Sys2Proof.Machine
end

