-- ==== Sys2Proof/Machine/Compose.lean ====
section
/-!
DEFINITION. Verifying an Oatas stream (R317 to R336, R355, R420): the current composition, applying records in kind order, the
checks of the result, admission, lease requests, and the row COMPOSE.
-/

namespace Sys2Proof.Machine

/-! ## The current composition -/

/-- The composition that an instance's Imago has, as the CMP and QOS registers and key references hold it. -/
def currentComp (s : State) (i : Nat) : Comp :=
  let im := imago s i
  let cores := (List.range 144).filter (fun c => coreBound s i c)
  { cores := cores.map (fun c => (c, flagF s f_CMP_CORE_AWAKE c))
    slist := ((List.range 256).filter (fun k => flagF s f_CMP_SLIST_VALID (256 * i + k))).map
      (fun k => (k, getR s r_CMP_SLIST (256 * i + k)))
    rb := getF s f_CMP_IMG_RB_RB i
    ilv := if holdsMemory s i then (List.range 1024).map (fun e => getR s r_CMP_ILV (1024 * i + e)) else []
    links := (List.range 32).filter (fun p => getF s f_CMP_LINK_STATE p = 2 && getF s f_CMP_LINK_INSTANCE p = i)
    routes := im.routes
    places := ((List.range 16).filter (fun j => flagF s f_CMP_PLACE_VALID (16 * i + j))).map (fun j =>
      (getF s f_CMP_PLACE_BASE (16 * i + j) * 2 ^ 21, getF s f_CMP_PLACE_LAST (16 * i + j) * 2 ^ 21 + (2 ^ 21 - 1),
        flagF s f_CMP_PLACE_HOT (16 * i + j)))
    leases := ((borrowedLeases s).filter (fun k => getF s f_CMP_LEASE_INSTANCE k = i)).map (leaseAt s)
    coreRate := (cores.filter (fun c => getR s r_QOS_CORE_RATE c ≠ 0)).map (fun c => (c, getR s r_QOS_CORE_RATE c))
    bulk := getR s r_QOS_IMG_BULK_RATE i
    spill := getR s r_QOS_IMG_SPILL_RATE i
    target := getR s r_QOS_IMG_TARGET i
    memKey := im.memKey
    linkKeys := im.linkKeys }

/-! ## Applying records (R321) -/

/-- What a stream builds: the composition so far, its EVACUATE records (list entry, rate, index), the list entries it
unbinds, the leases it borrows with their records, and the guaranteed classes it has given a target. -/
structure Build where
  comp : Comp
  evacs : List (Nat × Nat × Nat)
  gone : List Nat
  borrows : List (Nat × Lease)
  targets : List (Nat × Nat)
  deriving DecidableEq, Repr

/-- A step of verification: its result, or the code and RECORD of the failure (R318). -/
abbrev Check (α : Type) := Except (Nat × Nat) α

/-- Applies a step to every record with its index. -/
def overRecs (f : Build → Nat → OatasRec → Check Build) : List OatasRec → Nat → Build → Check Build
  | [], _, b => .ok b
  | r :: rs, i, b => match f b i r with
    | .ok b => overRecs f rs (i + 1) b
    | .error e => .error e

/-- Applies a step to every item of a record. -/
def overItems (f : Build → Nat → Check Build) : List Nat → Build → Check Build
  | [], b => .ok b
  | x :: xs, b => match f b x with
    | .ok b => overItems f xs b
    | .error e => .error e

/-- The first record of the kinds a failed condition concerns (R318). -/
def firstRec (p : OatasRec → Bool) (rs : List OatasRec) : Nat := ((findIdxFrom p rs 0).map Prod.fst).getD wholeStream

/-- The kinds that ILV_INVALID names. -/
def ilvKind : OatasRec → Bool
  | .bind .. | .unbind .. | .interleave .. | .evacuate .. | .remote .. => true
  | _ => false

/-- The kinds that PLACE_CONFLICT names. -/
def placeKind : OatasRec → Bool
  | .interleave .. | .remote .. => true
  | _ => false

/-- The kinds that GUARANTEE_INVALID names when a core is not held awake. -/
def awakeKind : OatasRec → Bool
  | .bind .. | .unbind .. | .guarantee .. => true
  | _ => false

/-- The kind that GUARANTEE_INVALID names else. -/
def grantKind : OatasRec → Bool
  | .guarantee .. => true
  | _ => false

/-- The kind that ROUTE_INVALID names. -/
def routeKind : OatasRec → Bool
  | .route .. => true
  | _ => false

/-- The kind that KEY_REFUSED names. -/
def keyKind : OatasRec → Bool
  | .keyref .. => true
  | _ => false

/-- A route map without a port; a destination left with no port is removed (R331). -/
def withoutPort (rs : List Route) (p : Nat) : List Route :=
  (rs.map (fun r => { r with ports := if bitAt r.ports p then r.ports - 2 ^ p else r.ports })).filter (fun r => r.ports ≠ 0)

/-- The slice of a slice-list word: chip and physical slice. -/
def sliceWord (w : Nat) : Nat × Nat := (bitsOf w 0 16, bitsOf w 16 8)

/-- A slice-list word (R361). -/
def listWord (chip slice : Nat) (remote : Bool) : Nat := chip + slice * 2 ^ 16 + 2 ^ 24 + b2n remote * 2 ^ 25

/-- Are the members of a list all different? -/
def allDistinct {α : Type} [DecidableEq α] : List α → Bool
  | [] => true
  | x :: xs => !xs.contains x && allDistinct xs

/-- UNBIND (R322, R331): an item must have been held; one that an earlier record unbound stays so (R321). A remote list entry
ends its borrow. -/
def applyUnbind (old : Comp) (b : Build) (i : Nat) : OatasRec → Check Build
  | .unbind kind items =>
    overItems (fun b x =>
      let c := b.comp
      match kind with
      | 0 =>
        if (mfind old.cores x).isNone then .error (cmpSliceUnavailable, i)
        else .ok { b with comp := { c with cores := mdel c.cores x, coreRate := mdel c.coreRate x } }
      | 1 => match mfind old.slist (x / 256) with
        | none => .error (cmpSliceUnavailable, i)
        | some w =>
          let keep (l : Lease) : Bool := !(bitAt w 25 && l.kind = 0 && l.chip = (sliceWord w).1 && l.unit = (sliceWord w).2)
          .ok { b with gone := b.gone ++ [x / 256]
                       comp := { c with slist := mdel c.slist (x / 256), leases := c.leases.filter keep } }
      | _ =>
        if !old.links.contains x then .error (cmpSliceUnavailable, i)
        else .ok { b with comp := { c with
          links := c.links.filter (fun p => p ≠ x), routes := withoutPort c.routes x, linkKeys := mdel c.linkKeys x } })
      items b
  | _ => .ok b

/-- BIND (R315, R322, R323, R327): a slice must be FREE, but for a core that the Imago holds already. A list entry takes one
slice: one that the Imago holds, or two items of one record, break R327; a later record overrides an earlier one (R321). -/
def applyBind (s : State) (old : Comp) (ilv1 : Nat) (b : Build) (i : Nat) : OatasRec → Check Build
  | .bind kind awake items =>
    let twice := kind = 1 && !allDistinct (items.map (fun x => x / 256))
    let kept (k : Nat) : Bool := (mfind old.slist k).isSome && !b.gone.contains k
    overItems (fun b x =>
      let c := b.comp
      match kind with
      | 0 =>
        if (mfind old.cores x).isSome || (x < getF s f_CHIP_CAP_CORE_ENABLED && getF s f_CMP_CORE_STATE x = 0) then
          .ok { b with comp := { c with cores := mput c.cores x awake } }
        else .error (cmpSliceUnavailable, i)
      | 1 =>
        if getF s f_CMP_MEM_STATE (x % 256) ≠ 1 then .error (cmpSliceUnavailable, i)
        else if twice || kept (x / 256) then .error (cmpIlvInvalid, ilv1)
        else .ok { b with comp := { c with slist := mput c.slist (x / 256) (listWord (chipId s) (x % 256) false) } }
      | _ =>
        if 32 ≤ x || getF s f_CMP_LINK_STATE x ≠ 1 then .error (cmpSliceUnavailable, i)
        else .ok { b with comp := { c with links := c.links.filter (fun p => p ≠ x) ++ [x] } })
      items b
  | _ => .ok b

/-- INTERLEAVE (R324, R327): the first of an instance fixes RB, a multiple of 64 KiB from 1.5 MiB to 1.5 GiB. -/
def applyInterleave (ilv1 : Nat) (b : Build) (i : Nat) : OatasRec → Check Build
  | .interleave first rb es =>
    let c := b.comp
    if c.rb ≠ 0 && rb ≠ c.rb * 65536 then .error (cmpRbChange, i)
    else if rb % 65536 ≠ 0 || rb < 1572864 || sliceBytes < rb then .error (cmpIlvInvalid, ilv1)
    else
      let t := if c.ilv.isEmpty then List.replicate 1024 0 else c.ilv
      .ok { b with comp := { c with rb := rb / 65536, ilv := t.take first ++ es ++ t.drop (first + es.length) } }
  | _ => .ok b

/-- EVACUATE (R325, R327): its source is a local slice that the Imago held before, and has no other such record. -/
def applyEvacuate (s : State) (old : Comp) (ilv1 : Nat) (b : Build) (i : Nat) : OatasRec → Check Build
  | .evacuate l rate =>
    let ok : Bool := match mfind old.slist l with
      | some w => (sliceWord w).1 = chipId s
      | none => false
    if !ok || b.evacs.any (fun e => e.1 = l) then .error (cmpIlvInvalid, ilv1)
    else .ok { b with evacs := b.evacs ++ [(l, rate, i)] }
  | _ => .ok b

/-- ROUTE (R328, R331, R420). `first` is the record that a failure names (R318). -/
def applyRoute (s : State) (first : Nat) (b : Build) (_ : Nat) : OatasRec → Check Build
  | .route dest direct ports =>
    let c := b.comp
    let ps := (List.range 32).filter (bitAt ports)
    let cabled (p : Nat) : Bool := isUp s p && !flagF s f_LNK_PORT_STAT_LONG p && flagF s f_LNK_PORT_PEER_VALID p
      && getF s f_LNK_PORT_PEER_CHIP p = dest
    if dest = chipId s || ps.any (fun p => !c.links.contains p) || (direct && ps.any (fun p => !cabled p)) then
      .error (cmpRouteInvalid, first)
    else
      let others := c.routes.filter (fun r => r.dest ≠ dest)
      .ok { b with comp := { c with routes := if ports = 0 then others else others ++ [⟨dest, direct, ports⟩] } }
  | _ => .ok b

/-- Is a placement range well formed (R355)? -/
def placeOk (base limit : Nat) : Bool := base ≤ limit && base % 2 ^ 21 = 0 && (limit + 1) % 2 ^ 21 = 0

/-- REMOTE BORROW, RETURN and PLACE (R329, R352 to R355). A later BORROW of the same lease, or to the same list entry, overrides
an earlier one of the stream, as a later RETURN or PLACE does (R321). -/
def applyRemote (s : State) (i0 ilv1 place1 : Nat) (old : Comp) (b : Build) (i : Nat) : OatasRec → Check Build
  | .remote r =>
    let c := b.comp
    match r.sub with
    | 0 =>
      let l : Lease := ⟨r.lease, r.chip, r.unit, r.kind, i0⟩
      let again := b.borrows.any (fun x => x.2 = l)
      let borrowed (k : Nat) : Bool := b.borrows.any (fun x =>
        (mfind c.slist k).any (fun w => bitAt w 25 && sliceWord w = (x.2.chip, x.2.unit)))
      let rest := if again then c.slist.filter (fun kv => !(bitAt kv.2 25 && sliceWord kv.2 = (l.chip, l.unit))) else c.slist
      if r.chip = chipId s || (r.kind = 1 && 32 ≤ r.unit) || (!again && c.leases.any (fun x =>
          x.chip = l.chip && (x.num = l.num || (x.kind = l.kind && x.unit = l.unit)))) then .error (cmpSliceUnavailable, i)
      else if r.flag && (mfind rest r.list).isSome && !borrowed r.list then .error (cmpIlvInvalid, ilv1)
      else .ok { b with
        borrows := b.borrows.filter (fun x => x.2 ≠ l) ++ [(i, l)]
        comp := { c with
          leases := c.leases.filter (fun x => x ≠ l) ++ [l]
          slist := if r.flag then mput rest r.list (listWord r.chip r.unit true) else rest } }
    | 2 =>
      let mine (l : Lease) : Bool := l.chip = r.chip && l.unit = r.unit && l.kind = r.kind && l.num = r.lease
      if !old.leases.any mine then .error (cmpSliceUnavailable, i)
      else
        let lost (w : Nat) : Bool := r.kind = 0 && bitAt w 25 && sliceWord w = (r.chip, r.unit)
        .ok { b with
          gone := (b.gone ++ (c.slist.filter (fun kv => lost kv.2)).map Prod.fst)
          comp := { c with leases := c.leases.filter (fun l => !mine l), slist := c.slist.filter (fun kv => !lost kv.2) } }
    | 4 =>
      let same (p : Nat × Nat × Bool) : Bool := p.1 = r.base && p.2.1 = r.limit
      let rest := c.places.filter (fun p => !same p)
      if !placeOk r.base r.limit then .error (cmpPlaceConflict, place1)
      else if r.kind = 1 then
        if c.places.any same || old.places.any same then .ok { b with comp := { c with places := rest } }
        else .error (cmpPlaceConflict, place1)
      else .ok { b with comp := { c with places := rest ++ [(r.base, r.limit, r.flag)] } }
    | _ => .ok b
  | _ => .ok b

/-- Sets the rate of a class in the form of a QOS rate register. -/
def setRate (v cls rate : Nat) : Nat := setBits v (16 * cls) 16 rate

/-- GUARANTEE (R326, R330). A rate of 0 withdraws the grant and names no target. `first` and `awake1` are the records that
failures name (R318). -/
def applyGuarantee (first awake1 : Nat) (b : Build) (_ : Nat) : OatasRec → Check Build
  | .guarantee m cls target index rate =>
    let c := b.comp
    if m = 3 || (if m = 2 then 16777215 else 65535) < rate then .error (cmpGuaranteeInvalid, first)
    else if m = 2 then .ok { b with comp := { c with spill := rate } }
    else if rate ≠ 0 && b.targets.any (fun t => t.1 = cls && t.2 ≠ target) then .error (cmpGuaranteeInvalid, first)
    else
      let b := if rate = 0 then b else { b with
        targets := b.targets ++ [(cls, target)], comp := { c with target := setBits c.target (2 * cls) 2 target } }
      let c := b.comp
      if m = 1 then .ok { b with comp := { c with bulk := setRate c.bulk cls rate } }
      else
        let named := if index = 0xFFFF then c.cores.map Prod.fst else [index]
        if named.any (fun x => mfind c.cores x ≠ some true) then .error (cmpGuaranteeInvalid, awake1)
        else
          let rates := named.foldl (fun m x => mset 0 m x (setRate (mget 0 m x) cls rate)) c.coreRate
          .ok { b with comp := { c with coreRate := rates } }
  | _ => .ok b

/-- KEYREF (R333, R455, R461). `first` is the record that a failure names (R318). -/
def applyKeyref (s : State) (i0 first : Nat) (old : Comp) (b : Build) (_ : Nat) : OatasRec → Check Build
  | .keyref slot use port =>
    let c := b.comp
    if !keyOwned s i0 slot || !keyDerives s slot (if use = 0 then 16 else 17) then .error (cmpKeyRefused, first)
    else if use = 0 then
      let kept := c.slist.any (fun kv => mfind old.slist kv.1 = some kv.2)
      if kept then .error (cmpKeyRefused, first) else .ok { b with comp := { c with memKey := some slot } }
    else if !c.links.contains port then .error (cmpKeyRefused, first)
    else .ok { b with comp := { c with linkKeys := mput c.linkKeys port slot } }
  | _ => .ok b

/-- A chain of steps of verification. -/
def thenCheck {α β : Type} (x : Check α) (f : α → Check β) : Check β :=
  match x with
  | .ok a => f a
  | .error e => .error e

/-- Applies the records of an Imago stream, kind by kind (R321). -/
def applyRecs (s : State) (i : Nat) (old : Comp) (rs : List OatasRec) : Check Build :=
  let ilv1 := firstRec ilvKind rs
  let run (f : Build → Nat → OatasRec → Check Build) (b : Build) : Check Build := overRecs f rs 0 b
  thenCheck (run (applyUnbind old) ⟨old, [], [], [], []⟩) fun b =>
  thenCheck (run (applyBind s old ilv1) b) fun b =>
  thenCheck (run (applyInterleave ilv1) b) fun b =>
  thenCheck (run (applyEvacuate s old ilv1) b) fun b =>
  thenCheck (run (applyRoute s (firstRec routeKind rs)) b) fun b =>
  thenCheck (run (applyRemote s i ilv1 (firstRec placeKind rs) old) b) fun b =>
  thenCheck (run (applyGuarantee (firstRec grantKind rs) (firstRec awakeKind rs)) b) fun b =>
  run (applyKeyref s i (firstRec keyKind rs) old) b

/-! ## Checks of the result (R327, R330, R331, R355, R461) -/

/-- The place that an interleave word names: chip, slice and region. -/
def placeOf (slist : SMap Nat) (e : Nat) : Nat × Nat × Nat :=
  let w := mget 0 slist (bitsOf e 0 8)
  (bitsOf w 0 16, bitsOf w 16 8, bitsOf e 8 10)

/-- The memory conditions of R327 on a resulting composition. -/
def memoryOk (s : State) (old new : Comp) (b : Build) (wrote : Bool) : Bool :=
  if new.slist.isEmpty then !wrote
  else
    let places := new.ilv.map (placeOf new.slist)
    let before := old.ilv.map (placeOf old.slist)
    let moved := (places.zip before).filter (fun p => p.1 ≠ p.2)
    new.ilv.length = 1024
      && allDistinct (new.slist.map (fun kv => sliceWord kv.2))
      && new.ilv.all (fun e => bitAt e 31 && (mfind new.slist (bitsOf e 0 8)).isSome && bitsOf e 8 10 < sliceBytes / (new.rb * 65536)
        && !b.gone.contains (bitsOf e 0 8))
      && allDistinct places
      && moved.all (fun p => !before.contains p.1)
      && ((new.ilv.zip old.ilv).all (fun p =>
        placeOf new.slist p.1 = placeOf old.slist p.2 || !b.evacs.any (fun e => e.1 = bitsOf p.2 0 8)
          || (placeOf new.slist p.1).1 = chipId s))

/-- The composition with its interleave table cleared when it holds no memory (R327). -/
def clearIlv (c : Comp) : Comp := if c.slist.isEmpty then { c with ilv := [] } else c

/-- The checks of R327 to R333 and R355 on what a stream builds. An Imago holds at most 16 leases and a chip 64 (R316, R352);
the last BORROW is named when they are passed. -/
def checkComp (s : State) (old : Comp) (rs : List OatasRec) (b : Build) : Check Build :=
  let c := clearIlv b.comp
  let wrote := rs.any (fun r => match r with
    | .interleave .. => true
    | _ => false)
  let spread := c.slist.any (fun kv => bitAt kv.2 25)
  if !memoryOk s old c b wrote then .error (cmpIlvInvalid, firstRec ilvKind rs)
  else if 64 < c.routes.length then .error (cmpRouteInvalid, firstRec routeKind rs)
  else if 16 < c.leases.length || 64 < (lentLeases s).length + (borrowedLeases s).length + b.borrows.length then
    .error (cmpSliceUnavailable, ((b.borrows.getLast?).map Prod.fst).getD wholeStream)
  else if 16 < c.places.length || (!c.places.isEmpty && spread) then .error (cmpPlaceConflict, firstRec placeKind rs)
  else if c.coreRate.any (fun kv => mfind c.cores kv.1 ≠ some true) then .error (cmpGuaranteeInvalid, firstRec awakeKind rs)
  else if c.memKey.isSome && spread then .error (cmpKeyRefused, firstRec keyKind rs)
  else .ok { b with comp := c }

/-- The entries that EVACUATE records move, in ascending order (R325, R347). -/
def evacEntries (old new : Comp) (evacs : List (Nat × Nat × Nat)) : List EvacEntry :=
  (List.range old.ilv.length).filterMap (fun e =>
    let o := old.ilv.getD e 0
    let n := new.ilv.getD e 0
    let po := placeOf old.slist o
    let pn := placeOf new.slist n
    match evacs.find? (fun x => x.1 = bitsOf o 0 8) with
    | some x => if po = pn || new.ilv.isEmpty then none
      else some ⟨e, po.2.1, po.2.2, pn.2.1, pn.2.2, bitsOf n 0 8, 0, x.2.1, false, none⟩
    | none => none)

/-! ## Pool streams (R320, R352, R353, R356) -/

/-- Applies a pool stream's records: offers, recalls and link-inbound grants. A later record of the same offer overrides an
earlier one (R321). `first` is the record that a failed grant names (R318). -/
def applyPool (s : State) (first : Nat) : List OatasRec → Nat → PoolChange → Check PoolChange
  | [], _, p => .ok p
  | .remote r :: rs, i, p =>
    if r.sub = 1 then
      let free := if r.kind = 0 then decide (getF s f_CMP_MEM_STATE r.unit = 1)
        else decide (r.unit < 32 ∧ getF s f_CMP_LINK_STATE r.unit = 1)
      let lent := (lentLeases s).filter (fun k => !p.recalls.contains k)
      let l : Lease := ⟨r.lease, r.chip, r.unit, r.kind, r.imago⟩
      let others := p.lends.filter (fun x => x.1 ≠ l)
      let used := lent.any (fun k => (leaseAt s k).num = r.lease) || others.any (fun l => l.1.num = r.lease
        || (l.1.kind = r.kind && l.1.unit = r.unit))
      if !free || r.chip = chipId s || used
          || 64 ≤ lent.length + (borrowedLeases s).length + others.length then .error (cmpSliceUnavailable, i)
      else applyPool s first rs (i + 1) { p with lends := others ++ [(l, ⟨r.rate, r.ports, 0, false⟩)] }
    else
      match (lentLeases s).find? (fun k =>
        leaseAt s k = { leaseAt s k with num := r.lease, chip := r.chip, unit := r.unit, kind := r.kind }) with
      | none => .error (cmpSliceUnavailable, i)
      | some k =>
        if flagF s f_CMP_LEASE_TAKEN k && !r.flag then .error (cmpSliceUnavailable, i)
        else applyPool s first rs (i + 1) { p with recalls := p.recalls.filter (fun x => x ≠ k) ++ [k] }
  | .guarantee _ cls _ index rate :: rs, i, p =>
    if 65535 < rate then .error (cmpGuaranteeInvalid, first)
    else
      let v := (mfind p.rates index).getD (getR s r_QOS_LINK_RATE index)
      applyPool s first rs (i + 1) { p with rates := mput p.rates index (setRate v cls rate) }
  | _ :: rs, i, p => applyPool s first rs (i + 1) p

/-- The load of the pool's lendings after a change. -/
def poolAfter (s : State) (p : PoolChange) : SMap Nat :=
  let lent := ((lentLeases s).filter (fun k => !p.recalls.contains k)).map (fun k => (leaseAt s k, mget LeaseTerms.empty s.leaseTerms k))
  poolCharges (lent ++ p.lends) (p.rates.foldl (fun m kv => mput m kv.1 kv.2) (linkRates s))

/-! ## Results (R317, R318, R339) -/

/-- Records a result in CMP_LAST, ends VERIFYING, and replies. `epoch` and `imago` are the stream's header fields. -/
def composeEnd (s : State) (r : FwReq) (code rec' epoch imago : Nat) : State :=
  let pool := decide (imago = 0xFF)
  let last := code + rec' % 2 ^ 16 * 2 ^ 16 + epoch % 2 ^ 16 * 2 ^ 32 + (if pool then 0 else imago % 32) * 2 ^ 48 + b2n pool * 2 ^ 53 + 2 ^ 63
  let s := setR (setR s r_CMP_LAST 0 last) r_CMP_STATUS 0 0
  fwEnd { s with verif := none } r code [rec', epoch]

/-- The state an Imago had before VERIFYING: ACTIVE when it holds anything, else EMPTY (R339). -/
def restState (s : State) (i : Nat) : Nat :=
  if (List.range 144).any (fun c => getF s f_CMP_CORE_INSTANCE c = i) || holdsMemory s i
      || (List.range 32).any (fun p => getF s f_CMP_LINK_INSTANCE p = i && getF s f_CMP_LINK_STATE p = 2)
      || (borrowedLeases s).any (fun k => getF s f_CMP_LEASE_INSTANCE k = i) then 2 else 1

/-- The IMAGO field of a verification. -/
def Verif.imago (v : Verif) : Nat := v.inst.getD 0xFF

/-- Operations of a LEASE message (log entry 28): request, grant, refusal, release of a
grant that came to nothing, loss, return. -/
def leaseAsk : Nat := 0
def leaseGrant : Nat := 1
def leaseRefuse : Nat := 2
def leaseRelease : Nat := 3
def leaseLost : Nat := 4
def leaseReturn : Nat := 5

/-- A LEASE message about a lease (R353, log entry 28): AUX the operation, ADDR the lease number, the unit in bits [39:32] and
the kind in bit [40]. -/
def leaseMsg (s : State) (l : Lease) (op epoch : Nat) : LinkMsg :=
  { LinkMsg.blank s msgLease l.chip with
    aux := op, addr := l.num + l.unit * 2 ^ 32 + l.kind * 2 ^ 40, inst := l.inst, epoch := epoch
    instar := instarOf s (.inst l.inst) }

/-- Sends a LEASE message. -/
def sendLease (s : State) (l : Lease) (op epoch : Nat) : State := sendOrDrop s (leaseMsg s l op epoch)

/-- Ends a verification that does not commit: every lease taken for it is released, and the Imago returns to its state
(R335, R339, R353). -/
def verifEnd (s : State) (r : FwReq) (v : Verif) (code rec' : Nat) : State :=
  let s := v.won.foldl (fun s x => sendLease s x.2 leaseRelease v.epoch) s
  let s := match v.inst with
    | some i => if getF s f_CMP_EPOCH_STATE i = 3 then setF s f_CMP_EPOCH_STATE i (restState s i) else s
    | none => s
  composeEnd s r code rec' v.epoch v.imago

/-- All checks and handshakes have passed: a dry run replies, any other stream's commit is broadcast (R335, R337). -/
def verifPassed (s : State) (r : FwReq) (v : Verif) : State :=
  if v.dry then verifEnd s r v cmpDryOk wholeStream
  else { s with verif := some { v with asked := [], commitAt := some s.now } }

/-- Marks a stream's target as being verified. -/
def showVerifying (s : State) (v : Verif) : State :=
  let s := setR s r_CMP_STATUS 0 (1 + (if v.inst.isNone then 0 else v.imago % 32) * 2 + b2n v.inst.isNone * 2 ^ 6)
  match v.inst with
  | some i => setF s f_CMP_EPOCH_STATE i 3
  | none => s

/-- next_epoch (R335). -/
def nextEpoch (e : Nat) : Nat := if e = 0xFFFF then 1 else e + 1

/-- The checks of R335 before a stream's records are applied: the code of the first that fails. -/
def headerCheck (s : State) (o : Oatas) : Option Nat :=
  let cur := match o.target with
    | some i => getF s f_CMP_EPOCH_EPOCH i
    | none => getF s f_CMP_POOL_EPOCH_EPOCH
  let busy := match o.target with
    | some i => decide (i < 32) && (getF s f_CMP_EPOCH_STATE i = 4 || flagF s f_SEC_INST_RESETTING i)
    | none => flagF s f_CMP_POOL_EPOCH_CHRYSALIS
  if busy then some cmpBusy
  else if 16 ≤ o.keyIndex || !flagF s f_SEC_CVK_VALID o.keyIndex || flagF s f_SEC_CVK_REVOKED o.keyIndex then some cmpBadKey
  else if !Config.ecdsaOk (mget [] s.cvks o.keyIndex) (Config.sha384 o.signed) o.sig then some cmpBadSignature
  else if o.chip ≠ chipId s || o.serial ≠ getF s f_CHIP_SERIAL_SERIAL then some cmpWrongChip
  else if o.notAfter ≠ 0 && (!flagF s f_RTC_STATUS_VALID || o.notAfter < s.rtc.secs) then some cmpExpired
  else if o.target.any (fun i => !instExists s i) then some cmpNoInstance
  else if o.epoch ≠ nextEpoch cur then some cmpBadEpoch
  else none

/-- Verifies an Imago stream's records, and admits it (R321, R327 to R333, R341, R355). -/
def verifyImago (s : State) (o : Oatas) (i : Nat) : Check Verif :=
  let old := currentComp s i
  thenCheck (applyRecs s i old o.recs) fun b =>
  thenCheck (checkComp s old o.recs b) fun b =>
    let es := giveChans s (evacEntries old b.comp b.evacs)
    let new := charges s b.comp
    .ok ⟨some i, o.epoch, o.dry, Config.sha384 o.signed, b.comp, es, b.gone, ⟨[], [], []⟩, b.borrows, [], s.now, none, new,
      sumLoad (maxLoad (imago s i).load new) (evacCharges es)⟩

/-- An empty composition. -/
def Comp.empty : Comp := ⟨[], [], 0, [], [], [], [], [], [], 0, 0, 0, none, []⟩

/-- Verifies a pool stream's records. -/
def verifyPool (s : State) (o : Oatas) : Check Verif :=
  thenCheck (applyPool s (firstRec grantKind o.recs) o.recs 0 ⟨[], [], []⟩) fun p =>
    let new := poolAfter s p
    .ok ⟨none, o.epoch, o.dry, Config.sha384 o.signed, Comp.empty, [], [], p, [], [], s.now, none, new, new⟩

/-- Admits a verified stream, sends its lease requests, and passes it when it makes none (R270, R272, R353). -/
def admitVerif (s : State) (r : FwReq) (v : Verif) : State :=
  match firstBreach s (otherLoad s v.inst) v.both with
  | some b => composeEnd (logBreach s (if v.inst.isNone then 0 else v.imago) b) r cmpAdmission wholeStream v.epoch v.imago
  | none =>
    if !admissible s v.comp then composeEnd s r cmpAdmission wholeStream v.epoch v.imago else
    let s := showVerifying { s with verif := some v } v
    if v.asked.isEmpty then verifPassed s r v
    else v.asked.foldl (fun s x => sendLease s x.2 leaseAsk v.epoch) s

/-- COMPOSE: firmware takes the request at the front, copies the stream, and checks it in the order of R335. -/
def execCompose (s : State) : Out :=
  .next (match fwFront s 0x04 with
    | none => s
    | some r =>
      if s.verif.isSome then s else
      let a := r.wide 1
      let n := r.word 3
      if !flagF s f_RST_STATE_READY || flagF s f_RST_STATE_OUT_OF_SERVICE then composeEnd s r cmpNotReady wholeStream 0 0
      else if a % 8 ≠ 0 || n = 0 || 1048576 < n || !r.zeroFrom 4 || !hostRange a n then
        composeEnd s r cmpBadFormat wholeStream 0 0
      else
        let bytes := memBytes s.host a n
        let epoch := numAt bytes 0x10 2
        let imago := numAt bytes 0xE 1
        match readStream bytes with
        | .error k => composeEnd s r cmpBadFormat k epoch imago
        | .ok o =>
          match headerCheck s o with
          | some code => composeEnd s r code wholeStream epoch imago
          | none =>
            match (match o.target with
              | some i => verifyImago s o i
              | none => verifyPool s o) with
            | .error (code, k) => composeEnd s r code k epoch imago
            | .ok v => admitVerif s r v)

/-- A lease that a verification has won or asks for is lost before its commit: the stream fails, naming its record (R353,
R356). -/
def wonLost (s : State) (num chip : Nat) : State :=
  match s.verif, fwFront s 0x04 with
  | some v, some r => match v.won.find? (fun x => x.2.num = num && x.2.chip = chip) with
    | none => s
    | some x =>
      let v := { v with won := v.won.filter (fun y => y.1 ≠ x.1) }
      verifEnd (v.asked.foldl (fun s y => sendLease s y.2 leaseRelease v.epoch) s) r v cmpRemoteRefused x.1
  | _, _ => s

/-- LEASE_HANDSHAKE_TIMEOUT: a lender has not answered within 1 ms, and the stream fails, naming its record (R353). -/
def execLeaseHandshakeTimeout (s : State) : Out :=
  .next (match s.verif, fwFront s 0x04 with
    | some v, some r => match v.asked with
      | [] => s
      | x :: _ => if v.commitAt.isNone && due s v.askedAt msTicks then
          verifEnd (v.asked.foldl (fun s x => sendLease s x.2 leaseRelease v.epoch) s) r v cmpRemoteRefused x.1
        else s
    | _, _ => s)

/-- A lender's answer about a lease that a verification asked for (R353). -/
def leaseAnswer (s : State) (num chip : Nat) (granted : Bool) : State :=
  match s.verif, fwFront s 0x04 with
  | some v, some r => match v.asked.find? (fun x => x.2.num = num && x.2.chip = chip) with
    | none => s
    | some x =>
      let rest := v.asked.filter (fun y => y.1 ≠ x.1)
      if !granted then
        verifEnd (rest.foldl (fun s y => sendLease s y.2 leaseRelease v.epoch) s) r v cmpRemoteRefused x.1
      else
        let v := { v with asked := rest, won := v.won ++ [x] }
        if rest.isEmpty then verifPassed s r v else { s with verif := some v }
  | _, _ => s

end Sys2Proof.Machine
end

