-- ==== Sys2Proof/Machine/Commit.lean ====
section
/-!
DEFINITION. Commits and chrysalis (R314, R315, R323, R337 to R360): the commit tick, slices that leave, evacuations, scrubbing,
and the end of chrysalis.
-/

namespace Sys2Proof.Machine

/-! ## The commit (R337) -/

/-- Sets a rate register; the old value holds until the next window, unless the change is at once (R266). -/
def setRateReg (s : State) (r : Reg) (k v : Nat) (atOnce : Bool) : State :=
  let key := regKey r k 0
  let old := getR s r k
  if atOnce then { setR s r k v with qosOld := mdel s.qosOld key }
  else if old = v then s
  else { setR s r k v with
    qosOld := if (mfind s.qosOld key).isSome then s.qosOld else mput s.qosOld key (BitVec.ofNat 64 old) }

/-- Binds a core (R314, R323, R357). -/
def bindCore (s : State) (i c : Nat) (awake : Bool) : State :=
  if coreBound s i c then setF s f_CMP_CORE_AWAKE c (b2n awake)
  else advanceInstar (setF (setF (setF s f_CMP_CORE_INSTANCE c i) f_CMP_CORE_STATE c 1) f_CMP_CORE_AWAKE c (b2n awake)) (.core c)

/-- A core starts to leave: it is given no further batch, and its regulators are at rate 0 (R266, R342). -/
def leaveCore (s : State) (c : Nat) : State :=
  setRateReg (setF (setF s f_CMP_CORE_STATE c 2) f_CMP_CORE_AWAKE c 0) r_QOS_CORE_RATE c 0 true

/-- Binds a memory slice to a list entry; one of a secure instance belongs to the secure world (R314, R440). -/
def bindSlice (s : State) (i k m : Nat) : State :=
  let s := setR s r_CMP_MEM m (2 + i * 2 ^ 8 + k * 2 ^ 16)
  let s := setF (setF s f_MEM_SLICE_STAT_BOUND m 1) f_MEM_SLICE_STAT_INSTANCE m i
  if flagF s f_SEC_INST_WORLD i then
    setR s r_SEC_SLICE_WORLD (m / 32) (setBits (getR s r_SEC_SLICE_WORLD (m / 32)) (m % 32) 1 1)
  else s

/-- A memory slice enters SCRUBBING: its buffer slice drops every line without write-back (R315). -/
def scrubSlice (s : State) (m : Nat) : State :=
  let s := { s with bufs := s.bufs.filter (fun kv => sliceOf (256 * kv.1) ≠ m) }
  let s := setR s r_CMP_MEM m (4 + 0xFF * 2 ^ 8)
  setF (setF s f_MEM_SLICE_STAT_BOUND m 0) f_MEM_SLICE_STAT_INSTANCE m 0xFF

/-- A link slice becomes FREE; its LINK_GCM reference ends (R344). -/
def freeLink (s : State) (p : Nat) : State :=
  let i := getF s f_CMP_LINK_INSTANCE p
  let s := setR s r_CMP_LINK p (1 + 0xFF * 2 ^ 8)
  if i < 32 then modImago s i (fun m => { m with leaveLinks := m.leaveLinks.filter (fun x => x ≠ p), linkKeys := mdel m.linkKeys p })
  else s

/-- The first member of CMP_LEASE that is not in use. -/
def freeLease (s : State) : Nat := ((List.range 64).find? (fun k => !leaseValid s k)).getD 0

/-- Writes a lease to CMP_LEASE. -/
def addLease (s : State) (l : Lease) (dir taken : Bool) (t : LeaseTerms) : State :=
  let k := freeLease s
  { setR s r_CMP_LEASE k (l.num % 2 ^ 32 + l.chip * 2 ^ 32 + l.unit * 2 ^ 48 + l.kind * 2 ^ 56 + b2n dir * 2 ^ 57
      + b2n taken * 2 ^ 58 + l.inst % 32 * 2 ^ 59) with leaseTerms := mput s.leaseTerms k t }

/-- Removes a member of CMP_LEASE. -/
def dropLease (s : State) (k : Nat) : State :=
  { setR s r_CMP_LEASE k 0 with leaseTerms := mdel s.leaseTerms k }

/-- The word of an interleave entry at the commit tick: one that is evacuated keeps its old place and is MOVING (R347). -/
def commitWord (old new : Comp) (es : List EvacEntry) (e : Nat) : Nat :=
  if es.any (fun x => x.entry = e) then setBits (old.ilv.getD e 0) 30 1 1 else new.ilv.getD e 0

/-- Writes the CMP registers of a composition: region size, slice list, interleave table and placement ranges. -/
def writeMaps (s : State) (i : Nat) (old new : Comp) (es : List EvacEntry) : State :=
  let s := setF s f_CMP_IMG_RB_RB i new.rb
  let s := (List.range 256).foldl (fun s k => putR s r_CMP_SLIST (256 * i + k) (mget 0 new.slist k)) s
  let s := (List.range 1024).foldl (fun s e => putR s r_CMP_ILV (1024 * i + e) (commitWord old new es e)) s
  (List.range 16).foldl (fun s j =>
    let v := match new.places[j]? with
      | some p => p.1 / 2 ^ 21 + p.2.1 / 2 ^ 21 * 2 ^ 32 + b2n p.2.2 * 2 ^ 60 + 2 ^ 63
      | none => 0
    putR s r_CMP_PLACE (16 * i + j) v) s

/-- Writes the QOS registers of a composition (R266). -/
def writeRates (s : State) (i : Nat) (old new : Comp) : State :=
  let s := new.cores.foldl (fun s c => setRateReg s r_QOS_CORE_RATE c.1 (mget 0 new.coreRate c.1) false) s
  let s := setRateReg s r_QOS_IMG_BULK_RATE i new.bulk false
  let s := setRateReg s r_QOS_IMG_SPILL_RATE i new.spill false
  let s := setRateReg s r_QOS_IMG_TARGET i new.target false
  (old.cores.filter (fun c => (mfind new.cores c.1).isNone)).foldl (fun s c => leaveCore s c.1) s

/-- Takes the memory key of a KEYREF into use: its tag is checked, and a failure marks the slot BAD and refuses the Imago's
memory (R458, R461). -/
def takeMemKey (s : State) (i : Nat) (new : Comp) (fresh' : Bool) (epoch : Nat) (badKeys : List Nat) : State :=
  match new.memKey with
  | none => s
  | some k =>
    if !fresh' then s
    else
      let bad := badKeys.contains k
      let s := if bad then failKey s k else s
      setF (modImago s i (fun m => { m with memKey := some k, memKeyEpoch := epoch, keyBad := bad || keyIsBad s k }))
        f_SEC_INST_MEM_XTS i 1

/-- The wings in which a commit binds or unbinds a core: each WGEN advances, and its landing slots are squashed (R177, R186). -/
def changeWings (s : State) (old new : Comp) : State :=
  let changed := (old.cores.filter (fun c => (mfind new.cores c.1).isNone)) ++ (new.cores.filter (fun c => (mfind old.cores c.1).isNone))
  ((changed.map (fun c => wingOf s c.1)).eraseDups).foldl (fun s w => squashWing (stepWgen s w) w) s

/-- Commits an Imago's composition (R337 to R347): every unit changes over at this tick. -/
def commitImago (s : State) (i : Nat) (v : Verif) (badKeys : List Nat) : State :=
  let old := currentComp s i
  let new := v.comp
  let oldMap : OldMap := ⟨getF s f_CMP_EPOCH_EPOCH i, (List.range 1024).map (fun e => getR s r_CMP_ILV (1024 * i + e)),
    (List.range 256).map (fun k => getR s r_CMP_SLIST (256 * i + k)), old.routes⟩
  let locals (c : Comp) : List (Nat × Nat) := (c.slist.filter (fun kv => !bitAt kv.2 25)).map (fun kv => (kv.1, bitsOf kv.2 16 8))
  let freed := ((locals old).filter (fun x => !(locals new).any (fun y => y.2 = x.2))).map Prod.snd
  let leftLinks := old.links.filter (fun p => !new.links.contains p)
  let leftCores := (old.cores.filter (fun c => (mfind new.cores c.1).isNone)).map Prod.fst
  let s := changeWings s old new
  let s := writeRates (writeMaps s i old new v.evac) i old new
  let s := new.cores.foldl (fun s c => bindCore s i c.1 c.2) s
  let s := (locals new).foldl (fun s x => bindSlice s i x.1 x.2) s
  let s := new.links.foldl (fun s p => setR s r_CMP_LINK p (2 + i * 2 ^ 8)) s
  let s := leftLinks.foldl (fun s p => setF s f_CMP_LINK_STATE p 4) s
  let s := (v.evac.map EvacEntry.srcSlice).eraseDups.foldl (fun s m => setF s f_CMP_MEM_SOURCE m 1) s
  let s := (new.leases.filter (fun l => !old.leases.contains l)).foldl (fun s l => addLease s l true true LeaseTerms.empty) s
  let s := modImago s i (fun m => { m with
    old := some oldMap
    routes := new.routes
    evac := v.evac
    snapshot := none
    committed := s.now
    leaveCores := leftCores
    leaveLinks := leftLinks
    freed := freed
    returned := old.leases.filter (fun l => !new.leases.contains l)
    linkKeys := leftLinks.foldl (fun m p => match mfind old.linkKeys p with
      | some k => mput m p k
      | none => m) new.linkKeys
    load := v.both
    after := v.charge
    digest := v.digest })
  let s := takeMemKey s i new (new.memKey.isSome && new.memKey ≠ old.memKey) v.epoch badKeys
  let s := setR s r_CMP_EVAC i v.evac.length
  refreshLoads (setR s r_CMP_EPOCH i (v.epoch + 4 * 2 ^ 16 + b2n (!v.evac.isEmpty) * 2 ^ 19))

/-- Ends a lease that this chip has lent: the slice is scrubbed, or the port is FREE (R315, R353, R356). -/
def endLent (s : State) (k : Nat) : State :=
  let l := leaseAt s k
  let s := dropLease s k
  if l.kind = 0 then scrubSlice s l.unit else freeLink s l.unit

/-- Commits a pool stream (R352, R356): offers become LENT, recalled leases end and their borrowers are told, and link-inbound
grants are set. -/
def commitPool (s : State) (v : Verif) : State :=
  let s := v.pool.recalls.foldl (fun s k =>
    let l := leaseAt s k
    let s := if flagF s f_CMP_LEASE_TAKEN k then sendLease s l leaseLost v.epoch else s
    let s := if l.kind = 0 then { s with poolFreed := s.poolFreed ++ [l.unit] } else s
    endLent s k) s
  let s := v.pool.lends.foldl (fun s x =>
    let s := addLease s x.1 false false x.2
    if x.1.kind = 0 then setF (setR s r_CMP_MEM x.1.unit (3 + 0xFF * 2 ^ 8)) f_MEM_SLICE_STAT_BOUND x.1.unit 1
    else setR s r_CMP_LINK x.1.unit (3 + 0xFF * 2 ^ 8)) s
  let s := v.pool.rates.foldl (fun s kv => setRateReg s r_QOS_LINK_RATE kv.1 kv.2 false) s
  refreshLoads (setR s r_CMP_POOL_EPOCH 0 (v.epoch + 2 ^ 16))

/-- May the commit tick come: 20 ticks after the broadcast, not before a compute reset of the Imago has completed, and not
before every core that it binds may advance its instar (R337, R357, R519)? -/
def commitReady (s : State) (v : Verif) : Bool :=
  (match v.commitAt with
    | some t => due s t 20
    | none => false)
    && match v.inst with
      | some i => !fenced s i && v.comp.cores.all (fun c => coreBound s i c.1 || instarReady s (.core c.1))
      | none => true

/-- COMMIT_TICK: every unit changes to the new epoch together, the reply OK is sent, and the Imago enters chrysalis (R337).
`badKeys` are the key slots whose tags fail as they are used (R458). -/
def execCommitTick (badKeys : List Nat) (s : State) : Out :=
  .next (match s.verif, fwFront s 0x04 with
    | some v, some r =>
      if !commitReady s v then s else
      let s := match v.inst with
        | some i => commitImago s i v badKeys
        | none => commitPool s v
      composeEnd s r cmpOk wholeStream v.epoch v.imago
    | _, _ => s)

/-! ## Slices that leave (R342 to R345, R315) -/

/-- Has a leaving core done all it must: no batch, no transfer, no dispatch, waiting or running, that names it, and no request of
its own? -/
def coreDone (s : State) (c : Nat) : Bool :=
  (batchOf s c).isNone && (mover s c).chans.all (fun kv => kv.2.queue.isEmpty)
    && !s.gates.any (fun kv => kv.2.waiting.any (fun j => j.cores.contains c) || (match kv.2.run with
      | some r => r.job.cores.contains c
      | none => false))
    && !s.reqs.any (fun kv => kv.2.stage ≠ .lost && kv.2.master = masterCore c)

/-- CORE_LEFT: every request an unbound core issued has completed; its instar advances, and it is FREE (R342, R357). -/
def execCoreLeft (c : Nat) (s : State) : Out :=
  .next (
    if 144 ≤ c || getF s f_CMP_CORE_STATE c ≠ 2 || !coreDone s c || !instarReady s (.core c) then s else
    let i := getF s f_CMP_CORE_INSTANCE c
    let s := if i < 32 then modImago s i (fun m => { m with leaveCores := m.leaveCores.filter (fun x => x ≠ c) }) else s
    advanceInstar (setF (setF (setF s f_CMP_CORE_STATE c 0) f_CMP_CORE_INSTANCE c 0xFF) f_CMP_CORE_AWAKE c 0) (.core c))

/-- Does a port still hold flits of an instance's Imago, waiting or not yet acknowledged? -/
def portHolds (s : State) (p i : Nat) : Bool :=
  let q := port s p
  q.waiting.any (fun m => m.src = chipId s && m.inst = i)
    || q.unacked.any (fun f => match f.msg with
      | some m => m.src = chipId s && m.inst = i
      | none => false)

/-- LINK_SLICE_LEFT: an unbound port's last flit of the Imago is acknowledged, and it is FREE (R344). -/
def execLinkSliceLeft (p : Nat) (s : State) : Out :=
  .next (
    if 32 ≤ p || getF s f_CMP_LINK_STATE p ≠ 4 || portHolds s p (getF s f_CMP_LINK_INSTANCE p) then s else freeLink s p)

/-- SCRUB_COMPLETE: every sector of a slice in SCRUBBING holds zeros with clean check bits, and the slice is FREE; it belongs
to the secure world no longer (R315, R440). -/
def execScrubComplete (m : Nat) (s : State) : Out :=
  .next (
    if 256 ≤ m || getF s f_CMP_MEM_STATE m ≠ 4 then s else
    let s := { s with
      hbm := s.hbm.filter (fun kv => sliceOf kv.1 ≠ m)
      hbmPoison := s.hbmPoison.filter (fun kv => kv.1 / (sliceBytes / 32) ≠ m) }
    let s := setR s r_SEC_SLICE_WORLD (m / 32) (setBits (getR s r_SEC_SLICE_WORLD (m / 32)) (m % 32) 1 0)
    setR s r_CMP_MEM m (1 + 0xFF * 2 ^ 8))

/-! ## Evacuations (R347 to R350) -/

/-- The entry that the EVACUATE of a source slice moves now: the lowest that has not flipped. -/
def movingEntry (es : List EvacEntry) (src : Nat) : Option EvacEntry := es.find? (fun e => e.srcSlice = src && !e.flipped)

/-- Lines of a region. -/
def regionLines (s : State) (i : Nat) : Nat := imagoRb s i / 256

/-- Moves one line: it is read from the buffer or HBM with its poison, dropped at the source, and written allocated and dirty
at the destination (R348). `errs` are the errors of the read. -/
def moveLine (s : State) (a b : Nat) (errs : List SectorErr) : State :=
  let held := ((bufOf s a).map BufLine.valid).getD 0
  let s := hbmFind (sramFind s a held errs) 0 a (minus 255 held) errs
  let data := lineBytes s a
  let bad := lineBad s a
  bufWrite (allocate { s with bufs := mdel s.bufs a } b 0) b 0 bad data

/-- Is a thread operation an ADD or READ of Silk that another chip has still to answer? A wait that is held at its home has been
performed there: R340 waits for no release (log entry 60). -/
def silkAway (o : ThreadOp) : Bool := o.sub ≠ 0 && (o.kind = .silkAdd || o.kind = .silkRead)

/-- The messages of an Imago's collectives that its ports hold, waiting or not yet acknowledged (R427, R429). -/
def collAway (s : State) (i : Nat) : List LinkMsg :=
  (s.ports.map (fun kv : Nat × Port => kv.2.waiting ++ kv.2.unacked.filterMap SentFlit.msg)).flatten.filter (fun m =>
    m.src = chipId s && m.inst = i && (m.type = msgCollPut || m.type = msgCollToken))

/-- The requests of an Imago, of an epoch that meets a test, that are outstanding: of memory, of Silk on this chip and on others,
and fence updates at another chip. Each has a number of its own. -/
def imagoReqs (s : State) (i : Nat) (p : Nat → Bool) : List Nat :=
  (s.reqs.filter (fun kv => kv.2.inst = i && p kv.2.epoch)).map Prod.fst
    ++ (s.silkMsgs.filter (fun kv => kv.2.inst = i && p kv.2.epoch)).map Prod.fst
    ++ (s.ops.filter (fun kv => silkAway kv.2 && (kernel s kv.2.kernel).inst = i && p kv.2.epoch)).map Prod.fst
    ++ (s.fenceOuts.filter (fun kv => !kv.2.wait && kv.2.inst = i && p kv.2.epoch)).map Prod.fst

/-- The bulk channel that the EVACUATE of a source slice runs on, once it has begun and until its last entry flips. -/
def evacHolds (es : List EvacEntry) (src : Nat) : Option Nat :=
  let mine := es.filter (fun e => e.srcSlice = src)
  if mine.any (fun e => e.flipped || 0 < e.cursor) && mine.any (fun e => !e.flipped) then mine.head?.bind EvacEntry.chan else none

/-- Is a bulk channel occupied by an evacuation (R197, R347)? -/
def evacOn (s : State) (n : Nat) : Bool :=
  s.imagos.any (fun kv => (evacSources kv.2.evac).any (fun src => evacHolds kv.2.evac src = some n))

/-- The channel for the next line of an EVACUATE: the one it holds, else the one it was charged on, else the lowest of its die,
when it is Idle and for device work. -/
def evacChan (s : State) (es : List EvacEntry) (e : EvacEntry) : Option Nat :=
  let idle (n : Nat) : Bool := getF s f_TMV_BCH_CFG_USE n = 1 && !evacOn s n && (chan s (256 + n / 32) (n % 32)).queue.isEmpty
  match evacHolds es e.srcSlice with
  | some n => some n
  | none => if e.chan.any idle then e.chan else (deviceChannels s (e.srcSlice / 64)).find? idle

/-- An evacuation leaves the bulk channel that it holds. -/
def leaveEvac (s : State) (c : Option Nat) : State :=
  match c with
  | some n => leaveChan s n
  | none => s

/-- After its last line an entry flips to its destination; after the last entry of all, the drain snapshot is taken (R349,
R350). -/
def flipEntry (s : State) (i : Nat) (e : EvacEntry) : State :=
  let s := setR s r_CMP_ILV (1024 * i + e.entry) (2 ^ 31 + e.dstRegion * 2 ^ 8 + e.dstList)
  let es := (imago s i).evac.map (fun x => if x.entry = e.entry then { x with flipped := true } else x)
  let s := modImago s i (fun m => { m with evac := es })
  let left := (es.filter (fun x => !x.flipped)).length
  let s := setF s f_CMP_EVAC_ENTRIES_LEFT i left
  let s := match e.chan with
    | some n => countR s r_TMV_BCH_DONE n 1
    | none => s
  let s := if es.any (fun x => x.srcSlice = e.srcSlice && !x.flipped) then s
    else setF (leaveEvac s e.chan) f_CMP_MEM_SOURCE e.srcSlice 0
  if left ≠ 0 then s
  else setF (modImago s i (fun m => { m with snapshot := some (imagoReqs s i (fun _ => true)) })) f_CMP_EPOCH_EVAC i 0

/-- EVACUATE_LINE: the next line of the entry that an EVACUATE moves is locked, once every request accepted for it has been
performed, and moved; the cursor passes it, and requests for it are then performed at the destination (R347 to R350). It
occupies a bulk channel with USE 1 on the source's die, whose cluster counts its bytes, and needs issue not stopped (R224, R360,
R483). -/
def execEvacuateLine (i src : Nat) (errs : List SectorErr) (s : State) : Out :=
  .next (match movingEntry (imago s i).evac src with
    | none => s
    | some e =>
      let a := (e.srcSlice * sliceBytes + e.srcRegion * imagoRb s i) / 256 + e.cursor
      let b := (e.dstSlice * sliceBytes + e.dstRegion * imagoRb s i) / 256 + e.cursor
      let accepted := s.reqs.any (fun kv => kv.2.stage = .hbm && (reqLine s kv.2).1 = a)
      if accepted || mastersStopped s || flagF s f_RST_STATUS_CHIP_RESET then s else
      match evacChan s (imago s i).evac e with
      | none => s
      | some n =>
        let s := moveLine s a b errs
        let e' := { e with cursor := e.cursor + 1, chan := some n }
        let s := modImago s i (fun m => { m with evac := m.evac.map (fun x =>
          if x.entry = e.entry then e' else if x.srcSlice = src then { x with chan := some n } else x) })
        let s := countR (countR s r_TMV_CLU_RD (n / 32) 256) r_TMV_CLU_WR (n / 32) 256
        let s := satF s f_CMP_EVAC_BYTES i 256
        if e'.cursor < regionLines s i then s else flipEntry s i e')

/-! ## The end of chrysalis (R340, R345, R353) -/

/-- Is anything of an Imago still on its way under an epoch (R338, R340)? -/
def oldWork (s : State) (i epoch : Nat) : Bool :=
  !(imagoReqs s i (fun e => decide (e = epoch))).isEmpty || (collAway s i).any (fun m => m.epoch = epoch)

/-- Do the conditions of R340 hold? -/
def chrysalisOver (s : State) (i : Nat) : Bool :=
  let m := imago s i
  (match m.old with
    | some o => !oldWork s i o.epoch
    | none => true)
    && m.leaveCores.isEmpty && m.leaveLinks.isEmpty && m.evac.all EvacEntry.flipped
    && (match m.snapshot with
      | some l => (imagoReqs s i (fun _ => true)).all (fun n => !l.contains n)
      | none => true)

/-- Gives a borrowed lease back to its lender (R353). -/
def giveBack (s : State) (l : Lease) (epoch : Nat) : State :=
  let s := sendLease s l leaseReturn epoch
  match (borrowedLeases s).find? (fun k => leaseAt s k = l) with
  | some k => dropLease s k
  | none => s

/-- Ends the chrysalis of the Imago of instance `i` (R339, R345, R350, R353). -/
def endChrysalis (s : State) (i : Nat) : State :=
  let m := imago s i
  let epoch := getF s f_CMP_EPOCH_EPOCH i
  let s := m.freed.foldl scrubSlice s
  let s := m.returned.foldl (fun s l => giveBack s l epoch) s
  let s := modImago s i (fun m => { m with
    old := none, evac := [], snapshot := none, freed := [], returned := [], load := m.after })
  let s := refreshLoads (setR s r_CMP_EPOCH i (epoch + restState s i * 2 ^ 16))
  postEvent s 0 (eventRecord 0x20 0 i epoch 0 0 s.now)

/-- CHRYSALIS_END: when the conditions of R340 hold, the previous map is retired, freed memory slices enter SCRUBBING,
borrowed leases are returned, and COMPOSED is posted. The pool's own chrysalis (operand 0xFF) ends when no request of a peer
is under way in a slice whose lease ended. -/
def execChrysalisEnd (i : Nat) (s : State) : Out :=
  .next (
    if i = 0xFF then
      let busy := s.reqs.any (fun kv => match kv.2.owner with
        | .link _ => s.poolFreed.contains (sliceOf (gpaLocal kv.2.gpa))
        | _ => false)
      if flagF s f_CMP_POOL_EPOCH_CHRYSALIS && !busy then setF { s with poolFreed := [] } f_CMP_POOL_EPOCH_CHRYSALIS 0 0 else s
    else if 32 ≤ i || getF s f_CMP_EPOCH_STATE i ≠ 4 || !chrysalisOver s i then s
    else endChrysalis s i)

/-- CHRYSALIS_SLOW: a chrysalis has lasted WARN_MS: SLOW is set, and CHRYSALIS_SLOW is posted (R340). -/
def execChrysalisSlow (i : Nat) (s : State) : Out :=
  .next (
    if 32 ≤ i || getF s f_CMP_EPOCH_STATE i ≠ 4 || flagF s f_CMP_EPOCH_SLOW i
        || !dueRun s (imago s i).committed (getF s f_CMP_CFG_WARN_MS * msTicks) then s
    else postEvent (setF s f_CMP_EPOCH_SLOW i 1) 0 (eventRecord 0x21 0 i (getF s f_CMP_EPOCH_EPOCH i) 0 0 s.now))

/-! ## Removal (R360, R450) -/

/-- Every slice of an Imago leaves, as at the removal of its instance: evacuations stop with their lines where they are, cores
and links leave, memory is scrubbed, borrowed leases are returned, what remains of a chrysalis ends, and the Imago is ABSENT
(R339). -/
def removeImago (s : State) (i : Nat) : State :=
  let old := currentComp s i
  let m := imago s i
  let cores := (List.range 144).filter (fun c => coreBound s i c)
  let slices := (List.range 256).filter (fun k => getF s f_CMP_MEM_STATE k = 2 && getF s f_CMP_MEM_INSTANCE k = i)
  let epoch := getF s f_CMP_EPOCH_EPOCH i
  let chans := (evacSources m.evac).filterMap (evacHolds m.evac)
  let s := changeWings s old Comp.empty
  let s := cores.foldl leaveCore s
  let s := old.links.foldl (fun s p => setF s f_CMP_LINK_STATE p 4) s
  let s := (slices ++ m.freed.filter (fun x => !slices.contains x)).foldl scrubSlice s
  let s := (old.leases ++ m.returned).foldl (fun s l => giveBack s l epoch) s
  let s := writeMaps s i Comp.empty Comp.empty []
  let s := setRateReg (setRateReg (setRateReg s r_QOS_IMG_BULK_RATE i 0 true) r_QOS_IMG_SPILL_RATE i 0 true) r_QOS_IMG_TARGET i 0 true
  let s := { s with imagos := mput s.imagos i { Imago.empty with
    leaveCores := m.leaveCores ++ cores, leaveLinks := m.leaveLinks ++ old.links, linkKeys := m.linkKeys } }
  let s := chans.foldl leaveChan s
  refreshLoads (setR (setR (setF s f_SEC_INST_MEM_XTS i 0) r_CMP_EVAC i 0) r_CMP_EPOCH i 0)

end Sys2Proof.Machine
end

