-- ==== Sys2Proof/Machine/LinkPorts.lean ====
section
/-!
DEFINITION. Link ports (R407 to R412, R417, R422 to R424): states and training, leaving UP, flits received, link keys, and the
time master.
-/

namespace Sys2Proof.Machine

/-! ## The time master (R424) -/

/-- The chips of peer entries in a state that a test admits, with their hops. -/
def peersIn (s : State) (p : Nat → Bool) : List (Nat × Nat) :=
  (s.peers.filter (fun kv => p (getF s f_LNK_PEER_STATE kv.1))).map (fun kv =>
    (getF s f_LNK_PEER_CHIP kv.1, getF s f_LNK_PEER_HOPS kv.1))

/-- Peer states (R435). -/
def peerLearning : Nat := 1
def peerKnown : Nat := 2
def peerAging : Nat := 3
def peerReset : Nat := 4
def peerIdle : Nat := 5
def peerLost : Nat := 6

/-- The chip ID of the time master. -/
def timeMaster (s : State) : Nat :=
  if flagF s f_LNK_TIME_CFG_MASTER_SET then getF s f_LNK_TIME_CFG_MASTER
  else (peersIn s (fun st => st = peerKnown)).foldl (fun a p => min a p.1) (chipId s)

/-- The hops from a port's neighbour to the master, and one more. -/
def hopsVia (s : State) (p master : Nat) : Option Nat :=
  if !isUp s p || flagF s f_LNK_PORT_STAT_LONG p || !flagF s f_LNK_PORT_PEER_VALID p then none
  else if getF s f_LNK_PORT_PEER_CHIP p = master then some 1
  else (mfind (port s p).adv master).map (fun h => h + 1)

/-- The parent: the port that leads fewest hops toward the master, the lowest among equals, with its hops. -/
def timeParent (s : State) : Option (Nat × Nat) :=
  (List.range 32).foldl (fun best p => match hopsVia s p (timeMaster s), best with
    | some h, some (_, b) => if h < b then some (p, h) else best
    | some h, none => some (p, h)
    | none, _ => best) none

/-- Re-evaluates TIME_MASTER, and TIME_SYNC where it clears: a chip without a parent within four hops of the master. The
master is synchronised once its links are in service, from phase E9. -/
def updateTime (s : State) : State :=
  let me := timeMaster s = chipId s && 9 ≤ getF s f_RST_STATE_PHASE
  let s := setF s f_LNK_STATUS_TIME_MASTER 0 (b2n me)
  if me then { setF s f_LNK_STATUS_TIME_SYNC 0 1 with synced := true }
  else match timeParent s with
    | some (_, h) => if h ≤ 4 then s else setF s f_LNK_STATUS_TIME_SYNC 0 0
    | none => setF s f_LNK_STATUS_TIME_SYNC 0 0

/-! ## Leaving UP (R407, R417) -/

/-- Does a message await an answer, which is ERR when it cannot go on (R414, R417)? A CUSTODY answer carries AUX bit 8 (log
entry 29). -/
def wantsAnswer (m : LinkMsg) : Bool :=
  (1 ≤ m.type && m.type ≤ 3) || m.type = msgCollPut || (msgSilk ≤ m.type && m.type < msgSilkRelease) || m.type = msgCollToken
    || m.type = msgFenceOp || (m.type = msgCustody && !bitAt m.aux 8)

/-- Answers ERR to a message that goes no further: over the links, or, to this chip itself, at once. -/
def refuseMsg (s : State) (m : LinkMsg) (code : Nat) : State :=
  if !wantsAnswer m then s
  else if m.src = chipId s then selfErr s m code
  else sendOrDrop s (answerTo s m msgErr code 0 [] 0)

/-- May a port train: it is in the pool, ENABLE is 1, laser input is within limits, and phase E9 has begun (R407, R512)? -/
def mayTrain (s : State) (p : Nat) : Bool :=
  getF s f_CMP_LINK_STATE p ≠ 0 && flagF s f_LNK_PORT_CTRL_ENABLE p && !flagF s f_LNK_PORT_STAT_LASER_LOW p && 9 ≤ getF s f_RST_STATE_PHASE

/-- A DOWN port that may train begins (R407). -/
def tryTrain (s : State) (p : Nat) : State :=
  if getF s f_LNK_PORT_STAT_STATE p = portDown && mayTrain s p then
    modPort (setF s f_LNK_PORT_STAT_STATE p portTraining) p (fun q => { q with since := s.now, failedTraining := false })
  else s

/-- The messages a port holds that its neighbour has not acknowledged. -/
def heldMsgs (q : Port) : List LinkMsg := q.unacked.filterMap SentFlit.msg ++ q.waiting

/-- A port leaves UP, or any other state, for another (R417): what it holds is discarded and counted, requests among it are
answered UNAVAILABLE, and its neighbour is forgotten. A DOWN port trains again at once when it may. -/
def portExit (s : State) (p st : Nat) (cause : Option Nat) : State :=
  let held := heldMsgs (port s p)
  let s := setF (setF (setF s f_LNK_PORT_STAT_STATE p st) f_LNK_PORT_STAT_ENC p 0) f_LNK_PORT_PEER_VALID p 0
  let s := match cause with
    | some c => setF s f_LNK_PORT_STAT_CAUSE p c
    | none => s
  let s := satF s f_LNK_PORT_LOST_COUNT p held.length
  let s := { s with ports := mput s.ports p { Port.empty with since := s.now } }
  let s := held.foldl (fun s m => refuseMsg s m linkUnavailable) s
  updateTime (tryTrain s p)

/-- A port that is UP leaves it. -/
def leaveUp (s : State) (p st : Nat) (cause : Option Nat) : State := if isUp s p then portExit s p st cause else s

/-! ## Link keys (R422, R423, R458) -/

/-- The slot that a port's encryption uses, and whether a LINK_GCM reference names it: the reference of the Imago that holds
the port, else KEY_SLOT while ENC_EN is 1. -/
def linkSlot (s : State) (p : Nat) : Option (Nat × Bool) :=
  let i := getF s f_CMP_LINK_INSTANCE p
  match (if i < 32 then mfind (imago s i).linkKeys p else none) with
  | some k => some (k, true)
  | none => if flagF s f_LNK_PORT_CTRL_ENC_EN p then some (getF s f_LNK_PORT_CTRL_KEY_SLOT p, false) else none

/-- The derivation of R422: 64 bytes of HKDF over the slot's material, the key nonces, chip IDs and port numbers in the order
of the chip IDs, and the key epoch (log entry 30: ports take one byte each, numbers are little-endian). -/
def linkKey (s : State) (p slot epoch : Nat) : List Byte :=
  let me := chipId s
  let you := getF s f_LNK_PORT_PEER_CHIP p
  let q := port s p
  let mine := (leBytes 8 q.nonce.toNat, leBytes 2 me, leBytes 1 p)
  let yours := (leBytes 8 q.peerNonce.toNat, leBytes 2 you, leBytes 1 (getF s f_LNK_PORT_PEER_PORT p))
  let a := if me ≤ you then mine else yours
  let b := if me ≤ you then yours else mine
  Config.hkdf (keyBytes s slot) (a.1 ++ b.1)
    ([0x42, 0x4C, 0x4B, 0x31] ++ a.2.1 ++ b.2.1 ++ a.2.2 ++ b.2.2 ++ leBytes 4 epoch) 64

/-- The bit of an attribute word that permits LINK_GCM (R455). -/
def keyLinkBit : Nat := 17

/-- Derives a port's keys at a key epoch, and encrypts from then on; a slot that is BAD, not VALID, or lacks P_LINK fails the
port (R458). -/
def keyPort (s : State) (p epoch : Nat) : State :=
  match linkSlot s p with
  | none => s
  | some (k, _) =>
    if !keyDerives s k keyLinkBit then leaveUp s p portFailed (some 4)
    else
      let key := linkKey s p k epoch
      modPort (setF s f_LNK_PORT_STAT_ENC p 1) p (fun q => { q with
        keys := key, kepoch := epoch, encFlits := 0, encRxFlits := 0, encFails := 0, encAsked := none })

/-- The ENC_REQ message of a port (log entry 29): AUX 0 asks, 1 agrees, and ADDR carries the key epoch. -/
def encMsg (s : State) (p op : Nat) : LinkMsg :=
  { LinkMsg.blank s msgEncReq (getF s f_LNK_PORT_PEER_CHIP p) with aux := op, addr := (port s p).kepoch }

/-- Asks the neighbour to encrypt, when the port wants to and has not asked; a slot that is BAD, not VALID, or lacks P_LINK fails
the port, also one that encrypts already (R458). -/
def askEnc (s : State) (p : Nat) : State :=
  match linkSlot s p with
  | none => s
  | some (k, _) =>
    if !keyDerives s k keyLinkBit then leaveUp s p portFailed (some 4)
    else if flagF s f_LNK_PORT_STAT_ENC p || (port s p).encAsked.isSome || !isUp s p then s
    else sendOn (modPort s p (fun q => { q with encAsked := some s.now })) p (encMsg s p 0)

/-! ## Rows of ports -/

/-- LNK_PORT_CTRL_WRITE: ENABLE 0 takes the port DOWN from any state; ENABLE 1 lets a DOWN port train (R407, R422, R435). -/
def execLnkPortCtrlWrite (p v : Nat) (s : State) : Out :=
  .next (
    if 32 ≤ p then s else
    let s := setR s r_LNK_PORT_CTRL p (bitsOf v 0 2 + bitsOf v 8 8 * 256)
    let s := if (linkSlot s p).isNone then setF s f_LNK_PORT_STAT_ENC p 0 else s
    if bitAt v 0 then tryTrain s p
    else if getF s f_LNK_PORT_STAT_STATE p = portDown then s else portExit s p portDown none)

/-- Has the present training attempt of a port begun: 10 ms after a failed one (R407)? -/
def trainingNow (s : State) (p : Nat) : Bool :=
  getF s f_LNK_PORT_STAT_STATE p = portTraining && 0 ≤ signedOf (s.now - (port s p).since).toNat 64

/-- Records a port's one-way delay, and whether it is LONG: over 150 ns (R408). -/
def noteDelay (s : State) (p delay : Nat) : State :=
  setF (setF s f_LNK_PORT_STAT_DELAY_NS p (min delay 255)) f_LNK_PORT_STAT_LONG p (b2n (decide (150 < delay)))

/-- PORT_TRAINED: training completes, the delay is measured, and the port enters UP with full credits and a new key nonce
(R407, R408, R410). -/
def execPortTrained (p delay : Nat) (s : State) : Out :=
  .next (
    if 32 ≤ p || !trainingNow s p then s else
    let (n, s) := freeVal s 64
    let s := setR (noteDelay (setF s f_LNK_PORT_STAT_STATE p portUp) p delay) r_LNK_PORT_PEER p 0
    updateTime { s with ports := mput s.ports p { Port.empty with
      since := s.now, credits := fullCredits, lastTx := s.now, lastProbe := s.now, nonce := BitVec.ofNat 64 n } })

/-- TRAINING_TIMEOUT: training has not completed within 50 ms: it is counted, and tried again after 10 ms (R407). -/
def execTrainingTimeout (p : Nat) (s : State) : Out :=
  .next (
    if 32 ≤ p || !trainingNow s p || !due s (port s p).since (50 * msTicks) then s
    else modPort (setF s f_LNK_PORT_STAT_CAUSE p 5) p (fun q => { q with
      since := s.now + BitVec.ofNat 64 (10 * msTicks), failedTraining := true }))

/-- DELAY_PROBE: every 1 ms a port that is UP measures its one-way delay (R408). -/
def execDelayProbe (p delay : Nat) (s : State) : Out :=
  .next (
    if 32 ≤ p || !isUp s p || !due s (port s p).lastProbe msTicks then s
    else updateTime (modPort (noteDelay s p delay) p (fun q => { q with lastProbe := s.now })))

/-- LOCK_LOSS: 1 µs without lock takes a port DOWN (R407, R417). -/
def execLockLoss (p : Nat) (s : State) : Out := .next (if 32 ≤ p then s else leaveUp s p portDown (some 1))

/-- LASER_LOW: laser input below its limit for 10 µs is marked, and takes the port DOWN (R407, R542). -/
def execLaserLow (p : Nat) (s : State) : Out :=
  .next (
    if 32 ≤ p then s else
    let s := setF s f_LNK_PORT_STAT_LASER_LOW p 1
    if isUp s p then portExit s p portDown (some 3)
    else if getF s f_LNK_PORT_STAT_STATE p = portTraining then setF s f_LNK_PORT_STAT_STATE p portDown else s)

/-- LASER_RESTORED: laser input is within limits again, and a DOWN port that may trains (R407). -/
def execLaserRestored (p : Nat) (s : State) : Out :=
  .next (if 32 ≤ p then s else tryTrain (setF s f_LNK_PORT_STAT_LASER_LOW p 0) p)

/-- LINKCTL_ACK_SEND: a port that has sent no flit for 256 ns sends a LINKCTL flit with ACK (R411). -/
def execLinkctlAckSend (p : Nat) (s : State) : Out :=
  .next (
    if 32 ≤ p || !isUp s p || !due s (port s p).lastTx 64 || 2048 ≤ (port s p).unacked.length then s
    else countR (modPort s p (fun q => { giveCredits q with
      nakSent := false, lastTx := s.now, txSeq := (q.txSeq + 1) % 4096
      unacked := q.unacked ++ [⟨q.txSeq, 6, 0, none⟩] })) r_LNK_PORT_TX p 1)

/-- ENC_REQ_TIMEOUT: the peer has not agreed within 1 ms: with a LINK_GCM reference the port enters FAILED with CAUSE KEY;
without one it stays in clear (R423). -/
def execEncReqTimeout (p : Nat) (s : State) : Out :=
  .next (match (port s p).encAsked with
    | none => s
    | some t =>
      if 32 ≤ p || !isUp s p || !due s t msTicks then s
      else match linkSlot s p with
        | some (_, true) => leaveUp s p portFailed (some 4)
        | _ => modPort s p (fun q => { q with encAsked := none }))

/-- KEY_EPOCH_ADVANCE: after 2⁴⁰ flits under a key in either direction, the key epoch advances and the keys are derived again
(R422). -/
def execKeyEpochAdvance (p : Nat) (s : State) : Out :=
  .next (
    let q := port s p
    if 32 ≤ p || !flagF s f_LNK_PORT_STAT_ENC p || (q.encFlits < 2 ^ 40 && q.encRxFlits < 2 ^ 40) then s
    else pump (keyPort s p (q.kepoch + 1)) p)

/-! ## Flits (R409, R411, R413, R521) -/

/-- A message as it stands on this chip: its deadline and the tick it was sent, by its age (R267, R521). -/
def wireMsg (s : State) (m : WireMsg) : LinkMsg :=
  ⟨m.type % 256, m.label % 8, m.hops % 8, m.src, m.dest, m.epoch, m.instar, m.inst % 32,
    if m.label % 8 ≤ 3 then some (s.now + BitVec.ofInt 64 (signed24 (BitVec.ofNat 64 m.deadline) s.now)) else none,
    m.tag, m.aux, m.addr, m.data, m.poison, s.now - BitVec.ofNat 64 (m.ageMs % 256 * msTicks)⟩

/-- The unacknowledged flits after an ACK: those up to it leave. -/
def afterAck (l : List SentFlit) (ack : Nat) : List SentFlit :=
  match findIdxFrom (fun f : SentFlit => decide (f.seq = ack)) l 0 with
  | some (i, _) => l.drop (i + 1)
  | none => l

/-- Accepts a flit in order: its buffer is freed at once, and the messages that end in it are handed on; one that is already
20 ms old is discarded and counted (R411, R521). -/
def acceptFlit (s : State) (p : Nat) (f : Flit) : State :=
  let s := modPort s p (fun q => { q with
    rxSeq := f.seq % 4096, nakSent := false
    freed := if f.vl < 6 then mput q.freed (4 * f.vl + f.part % 4) (mget 0 q.freed (4 * f.vl + f.part % 4) + 1) else q.freed })
  f.msgs.foldl (fun s m =>
    if m.type % 256 = 0 then s
    else if 20 ≤ m.ageMs % 256 then countR s r_RST_DISCARDS 0 1
    else { s with linkIn := s.linkIn ++ [(p, wireMsg s m)] }) s

/-- FLIT_RECEIVE: a flit arrives on a port. FEC counts; a flit that fails CHECK is discarded and answered NAK, and the 16th
encrypted one in a row fails the port; ACK and credits are taken; NAK resends what is not acknowledged, and the 16th resend of
one flit takes the port DOWN; a flit in order is accepted, any other discarded (R407, R409, R411, R423). -/
def execFlitReceive (p : Nat) (f : Flit) (s : State) : Out :=
  .next (
    if 32 ≤ p || !isUp s p then s else
    let s := countR (countR s r_LNK_PORT_FEC p f.corrected) r_LNK_PORT_UNCORR p f.uncorrectable
    if !f.good then
      let s := modPort s p (fun q => { q with nakSent := true, encFails := if f.enc then q.encFails + 1 else q.encFails })
      if f.enc && 16 ≤ (port s p).encFails then portExit s p portFailed (some 4) else s
    else
      let old := (port s p).unacked
      let left := afterAck old f.ack
      let key := 4 * f.cvl + f.cpart % 4
      let s := modPort s p (fun q => { q with
        encFails := if f.enc then 0 else q.encFails
        encRxFlits := q.encRxFlits + b2n f.enc
        unacked := left
        resends := if left.length < old.length then 0 else q.resends
        credits := if f.credits = 0 then q.credits else mput q.credits key (mget 0 q.credits key + f.credits % 128) })
      let s := if f.nak && !left.isEmpty then
          countR (modPort s p (fun q => { q with resends := q.resends + 1, lastTx := s.now })) r_LNK_PORT_RETRY p left.length
        else s
      if 16 ≤ (port s p).resends then portExit s p portDown (some 2)
      else
        let s := if 7 ≤ f.vl then s
          else if f.seq % 4096 = ((port s p).rxSeq + 1) % 4096 then acceptFlit s p f
          else if 2048 ≤ (f.seq + 4096 - (port s p).rxSeq) % 4096 || f.seq % 4096 = (port s p).rxSeq then s
          else modPort s p (fun q => { q with nakSent := true })
        pump s p)

/-- Has a message sent at a tick reached an age of 20 ms (R521)? -/
def aged (s : State) (t : DWord) : Bool := due s t (20 * msTicks)

end Sys2Proof.Machine
end

