-- ==== Sys2Proof/Machine/Links.lean ====
section
/-!
DEFINITION. Messages that arrive on links (R413 to R417, R421, R425, R426, R372, R353 to R356): transit, requests to memory
lent to peers, answers, Silk, fences and leases.
-/

namespace Sys2Proof.Machine

/-! ## Taking a message -/

/-- Is a message only ever for the neighbour: discovery, LINK_IDLE, TIME, ENC_REQ? -/
def linkLocal (m : LinkMsg) : Bool :=
  m.type = msgHello || m.type = msgAdvert || m.type = msgLinkIdle || m.type = msgTime || m.type = msgEncReq

/-- The message at place `k` of the input, when none of its port and lane stands before it and it is not 20 ms old, with the
port it came on (32: this chip's own answers) and the state without it. -/
def takeIn (s : State) (k : Nat) (p : Nat → LinkMsg → Bool) : Option (Nat × LinkMsg × State) :=
  match s.linkIn[k]? with
  | none => none
  | some (port, m) =>
    if (s.linkIn.take k).any (fun x => x.1 = port && laneOf x.2 = laneOf m) || aged s m.sent || !p port m then none
    else some (port, m, { s with linkIn := s.linkIn.eraseIdx k })

/-- The message at place `k`, when it is of a type and for this chip. -/
def takeMine (s : State) (k type : Nat) : Option (Nat × LinkMsg × State) :=
  takeIn s k (fun _ m => m.type = type && (m.dest = chipId s || linkLocal m))

/-- Runs a step on a message, if it can be taken. -/
def onMsg (s : State) (k type : Nat) (f : Nat → LinkMsg → State → State) : Out :=
  .next (match takeMine s k type with
    | some (p, m, s) => f p m s
    | none => s)

/-! ## Transit (R415, R416) -/

/-- MESSAGE_TRANSIT: a message for another chip goes on through a port of its route, as label 4 if it was guaranteed; with no
usable port, or when a fifth hop would be needed, it is answered ERR and counted (R414 to R417). -/
def execMessageTransit (k : Nat) (s : State) : Out :=
  .next (match takeIn s k (fun p m => p < 32 && m.dest ≠ chipId s && !linkLocal m) with
    | none => s
    | some (_, m, s) =>
      let m := { m with hops := m.hops + 1, label := if m.label ≤ 3 then 4 else m.label
                        deadline := if m.label ≤ 3 then none else m.deadline }
      let refuse (code : Nat) : State := refuseMsg (countR s r_LNK_DISCARDS 0 1) m code
      match choosePort s (routePorts s m.dest) with
      | none => refuse linkNoRoute
      | some p =>
        let near := flagF s f_LNK_PORT_PEER_VALID p && getF s f_LNK_PORT_PEER_CHIP p = m.dest
        if 3 < m.hops || (m.hops = 3 && !near) then refuse linkHopLimit else sendOn s p m)

/-! ## Requests to lent memory (R354, R421) -/

/-- How a peer's request for local bytes is admitted: the lease, or an ERR code. -/
def admitPeer (s : State) (p : Nat) (m : LinkMsg) (len : Nat) : Except Nat Nat :=
  let fits (k : Nat) : Bool :=
    let l := leaseAt s k
    l.kind = 0 && l.chip = m.src && l.inst = m.inst && flagF s f_CMP_LEASE_TAKEN k && m.addr < hbmTop
      && sliceOf m.addr = l.unit && m.addr + len ≤ (l.unit + 1) * sliceBytes
      && bitAt (mget LeaseTerms.empty s.leaseTerms k).ports p
  match (lentLeases s).find? fits with
  | none => .error linkRefused
  | some k => if (mget LeaseTerms.empty s.leaseTerms k).instar ≠ m.instar then .error linkStale else .ok k

/-- Refuses a peer's request: counted by its kind, and answered. -/
def refusePeer (s : State) (m : LinkMsg) (code : Nat) : State :=
  answerErr (if code = linkStale then countStale s (.inst m.inst) else s) m code

/-- Admits a peer's request for bytes in a lent slice: outside secure memory, for its lease. -/
def forPeer (s : State) (p : Nat) (m : LinkMsg) (len : Nat) (f : State → State) : State :=
  match admitPeer s p m len with
  | .error code => refusePeer s m code
  | .ok _ =>
    if (linePieces m.addr len).any (fun x => secureAddr s x.1) then
      refusePeer (countR s r_SEC_WORLD_REFUSED 0 1) m linkRefused
    else f s

/-- Sends the parts of a peer's request to their buffer slices, as traffic of its port. -/
def peerParts (s : State) (p : Nat) (m : LinkMsg) (parts : List (Nat × Nat)) (op : ReqOp) (d2 : List Byte) : State :=
  let (id, s) := fresh s
  let s := { s with linkReqs := mput s.linkReqs id ⟨m, p, [], parts.length⟩ }
  parts.foldl (fun s x =>
    let o := x.1 - m.addr
    let r := MemReq.make op (.link id) (chipId s * 2 ^ 48 + x.1) x.2 ((m.data.drop o).take x.2) m.label 0 0xFF 0 (masterLink p) (p / 8) false
    let bad := Nat.land (m.poison / 2 ^ (o / 32) * 2 ^ (x.1 % 256 / 32)) (touchedMask (x.1 % 256) x.2)
    (sendReq s { r with deadline := m.deadline, data2 := d2, poison := if op = .read then 0 else bad } 1).2) s

/-- LINK_READ: a peer's READ is performed in a slice lent to it, or answered with an error (R354, R421). -/
def execLinkRead (k : Nat) (s : State) : Out :=
  onMsg s k msgRead (fun p m s =>
    let n := m.aux % 2 ^ 16
    forPeer s p m n (fun s =>
      if n = 0 then sendOrDrop s (answerTo s m msgResp 0 0 [] 0) else peerParts s p m (linePieces m.addr n) .read []))

/-- LINK_WRITE: a peer's WRITE is performed in a slice lent to it and answered ACK, or answered with an error (R354, R421). -/
def execLinkWrite (k : Nat) (s : State) : Out :=
  onMsg s k msgWrite (fun p m s =>
    let n := m.data.length
    forPeer s p m n (fun s =>
      if n = 0 then sendOrDrop s (answerTo s m msgAck 0 0 [] 0) else peerParts s p m (linePieces m.addr n) .write []))

/-- LINK_ATOMIC: a peer's atomic or reduction is performed in a slice lent to it; an atomic returns its old value, a reduction
is acknowledged (R247, R354, R414, R421). -/
def execLinkAtomic (k : Nat) (s : State) : Out :=
  onMsg s k msgAtomic (fun p m s =>
    let red := bitsOf m.aux 6 2
    let size := if bitAt m.aux 4 then 8 else 4
    if red = 0 then
      let bad := 4 < m.aux % 16 || m.addr % size ≠ 0 || m.data.length < size
      if bad then refusePeer s m linkRefused
      else forPeer s p m size (fun s =>
        peerParts s p { m with data := m.data.take size } [(m.addr, size)] (.atomic (m.aux % 16) size (bitAt m.aux 5) true)
          (m.data.drop size))
    else if red = 3 || m.data.isEmpty || m.addr % (if red = 1 then 4 else 2) ≠ 0
        || m.data.length % (if red = 1 then 4 else 2) ≠ 0 then refusePeer s m linkRefused
    else forPeer s p m m.data.length (fun s => peerParts s p m (linePieces m.addr m.data.length) (.reduce (red = 1)) []))

/-! ## Answers (R414, R359) -/

/-- The request of this chip that an answer names: sent to the chip it comes from, and still out. -/
def answeredReq (s : State) (m : LinkMsg) : Option MemReq :=
  match mfind s.reqs m.tag with
  | some r => if r.stage = .remote && r.err = 0 && gpaChip r.gpa = m.src then some r else none
  | none => none

/-- Counts an answer that finds no requester (R521). -/
def lateAnswer (s : State) : State := countR s r_RST_LATE 0 1

/-- Is a request device work, whose answers are counted as they arrive? -/
def isDeviceReq (r : MemReq) : Bool :=
  match r.owner with
  | .command _ _ => true
  | _ => false

/-- RESP: the data of a read, or the old value of an atomic, returns to its requester, with its poison; over a FAILED bridge link
all of it is poisoned (R414, R230, R251). -/
def execResp (k : Nat) (s : State) : Out :=
  onMsg s k msgResp (fun p m s => match answeredReq s m with
    | none => lateAnswer s
    | some r =>
      if opAnswers r.op then
        let all := touchedMask (r.gpa % 256) r.len
        let lost := p < 32 && (failedOn s (portRouter p) (originOf s r)).isSome
        let bad := if lost then all else Nat.land (m.poison * 2 ^ (r.gpa % 256 / 32)) all
        let s := if isDeviceReq r then countPoison (readMiss s r) bad else s
        setReq s m.tag { r with stage := .done, data := m.data.take r.len, poison := bad }
      else endWrite s m.tag r)

/-- LINK_ACK: a remote write, atomic or reduction has been performed (R414). -/
def execLinkAck (k : Nat) (s : State) : Out :=
  onMsg s k msgAck (fun _ m s => match answeredReq s m with
    | none => lateAnswer s
    | some r => if opAnswers r.op then lateAnswer s else endWrite s m.tag r)

/-- Ends a request of this chip with an error, by the path of its master (R220, R359, R414). -/
def errReq (s : State) (id : Nat) (r : MemReq) (code : Nat) : State :=
  match r.owner with
  | .thread op _ =>
    if opAnswers r.op then setReq s id { r with err := code }
    else
      let s := dropReq s id
      match mfind s.ops op with
      | none => s
      | some o =>
        let lane := laneOfReq r
        let va := ((o.lanes.find? (fun a => a.lane = lane)).map LaneAcc.va).getD 0
        settleOp (coreFault s o.core { groupFault s o.core o.grp code (laneMask [lane]) lane (BitVec.ofNat 64 va) with pc := o.pc }) op
  | .moverWrite u k =>
    let mine := (chan s u k).bursts.any (fun b => b.writes.contains id)
    let s := dropReq s id
    match frontDesc s u k with
    | some d => if mine then moverFail s u k d code (gpaLocal r.gpa) else s
    | none => s
  | _ => setReq s id { r with err := code }

/-- Is a request for a borrowed slice whose lease is lost, as far as this chip has been told (R356)? -/
def leaseOver (s : State) (r : MemReq) : Bool :=
  leaseGone s r.gpa || s.linkIn.any (fun x => x.2.type = msgLease && x.2.aux = leaseLost && x.2.src = gpaChip r.gpa
    && bitsOf x.2.addr 40 1 = 0 && bitsOf x.2.addr 32 8 = sliceOf (gpaLocal r.gpa))

/-- A request that a lender refuses because the lease is lost: a read returns poisoned data, and a write is discarded and counted
(R356). -/
def lostReq (s : State) (id : Nat) (r : MemReq) : State :=
  if opAnswers r.op then poisonedBack (if isDeviceReq r then countPoison (readMiss s r) 1 else s) id r
  else ownerWritten (dropReq (countR s r_LNK_DISCARDS 0 1) id) id r

/-- A Silk operation of a saved batch ends with an error: it is held until the batch resumes (R103, R546). -/
def silkFailSaved (s : State) (op : Nat) (o : ThreadOp) (code : Nat) : State :=
  { s with
    ops := mdel s.ops op
    ctxs := s.ctxs.map (fun kv : Nat × Ctx => (kv.1, { kv.2 with saved := kv.2.saved.map (fun v : SavedBatch =>
      if v.kernel = o.kernel && v.batch.index = o.batch then
        let g := mget Group.empty v.batch.groups o.grp
        { v with batch := { v.batch with deferred := v.batch.deferred ++
          [⟨code, s.now, 0, o.grp, g.lin, o.batch, lowLane g.active, g.active, g.pc, 0, none⟩] } }
      else v) })) }

/-- Ends a custody operation that this chip has out (R436). -/
def custodyEnd (s : State) (code word : Nat) : State :=
  let s := setR s r_SILK_CUST_RESULT 0 code
  setR { s with custOp := none } r_SILK_CUST_WORD 0 word

/-- The same for an operation that no word answers: SILK_CUST_WORD is then meaningless, and its value is free (R436). -/
def custodyFail (s : State) (code : Nat) : State :=
  let v := freeVal s 64
  custodyEnd v.2 code v.1

/-- Removes a remote waiter entry whose release went to a chip with a tag; for a TAKE the home adds 1 back (R426). -/
def undoRelease (s : State) (p : SilkWaiter → Bool) : State :=
  match s.silkSent.find? p with
  | none => s
  | some w =>
    let s := { s with silkSent := s.silkSent.erase w }
    if w.take && !s.custody.contains w.ctr then setCounter s w.ctr ((getR s r_SILK_CTR w.ctr + 1) % 2 ^ 64) else s

/-- Is a waiter's release one sent to a chip with a tag? -/
def releasedTo (chip tag : Nat) (w : SilkWaiter) : Bool :=
  match w.src with
  | .peer c _ t => c = chip && t = tag
  | _ => false

/-- Ends a Silk operation that was sent to another chip with an error. -/
def silkRemoteFail (s : State) (op : Nat) (o : ThreadOp) (code : Nat) : State :=
  if o.core = noCore then silkFailSaved s op o code
  else
    let s := match groupOf s o.core o.grp with
      | some g => setGroup s o.core o.grp { g with pend := g.pend.filter (fun p => p.1 ≠ op) }
      | none => s
    silkFail s o.core o.grp op code

/-- ERR: an answer ends the operation that its tag names, with the error of its code: a memory request by the path of its
master, a Silk operation with its kernel, a fence operation with its command, a custody operation as UNREACHABLE, and a
collective; a release answered so removes its waiter entry (R359, R414, R426, R430). -/
def execErr (k : Nat) (s : State) : Out :=
  onMsg s k msgErr (fun _ m s =>
    let code := errOfLink (m.aux % 256)
    match answeredReq s m, mfind s.ops m.tag, mfind s.fenceOuts m.tag with
    | some r, _, _ => if m.aux % 256 = linkRefused && leaseOver s r then lostReq s m.tag r else errReq s m.tag r code
    | none, some o, _ =>
      if o.kind = .load || o.kind = .store || o.kind = .atomic || o.sub ≠ m.src + 1 then undoRelease s (releasedTo m.src m.tag)
      else silkRemoteFail s m.tag o code
    | none, none, some f => endCmd { s with fenceOuts := mdel s.fenceOuts m.tag } f.cmd code
    | none, none, none =>
      match s.custOp, s.colls.find? (fun kv => kv.2.tag = m.tag) with
      | some c, _ =>
        if c.tag = m.tag then custodyFail s 6 else undoRelease s (releasedTo m.src m.tag)
      | none, some (id, c) => if c.ranks.any (fun x => x.1 = m.src) then failColl s id code else s
      | none, none =>
        if s.silkSent.any (releasedTo m.src m.tag) then undoRelease s (releasedTo m.src m.tag) else lateAnswer s)

/-- LINK_ABORT: queued requests of the named source and instance are discarded; nothing is answered (R394, R421). -/
def execLinkAbort (k : Nat) (s : State) : Out :=
  onMsg s k msgAbort (fun _ m s =>
    let mine (x : LinkMsg) : Bool := x.src = m.src && x.inst = m.inst && x.instar = m.instar && wantsAnswer x && laneOf x ≠ 0
    let gone := (s.linkReqs.filter (fun kv => mine kv.2.msg)).map Prod.fst
    forgetReqs { s with
      linkIn := s.linkIn.filter (fun x => !mine x.2)
      linkReqs := s.linkReqs.filter (fun kv => !gone.contains kv.1) } (fun _ r => match r.owner with
        | .link j => gone.contains j
        | _ => false))

/-! ## Silk from peers (R425, R426) -/

/-- The import entry that admits a sender. -/
def importOf (s : State) (m : LinkMsg) : Option Nat :=
  (List.range 256).find? (fun k => flagF s f_SILK_IMPORT_VALID k && getF s f_SILK_IMPORT_PEER_CHIP k = m.src
    && getF s f_SILK_IMPORT_PEER_INST k = m.inst)

/-- A delivery that missed its bound is counted in SILK_X_LATE and reported (R412, R425). One that came on a LONG port has no
bound to miss (R408). -/
def crossLate (s : State) (late : Bool) (p inst : Nat) : State :=
  if late && !(p < 32 && flagF s f_LNK_PORT_STAT_LONG p) then fabricFault (countR s r_SILK_X_LATE 0 1) 2 0 (masterLink p) inst 0 0 0 else s

/-- A Silk operation from a peer, of type 0x10 plus its operation: performed at its home under the import entry that admits
it, or answered REFUSED; one whose INSTAR is not that of the instance it is for is stale, and answered STALE (R252, R358, R359,
R448; log entry 31). `late` tells that it missed its bound (R412, R425). -/
def silkFromPeer (k op : Nat) (late : Bool) (s : State) : Out :=
  onMsg s k (msgSilk + op) (fun p m s => match importOf s m with
    | none => refusePeer s m linkRefused
    | some e =>
      let i := m.aux % 2 ^ 14
      let inst := getF s f_SILK_IMPORT_LOCAL_INST e
      if m.instar ≠ instarOf s (.inst inst) then refusePeer s m linkStale
      else if getF s f_SILK_IMPORT_SIZE e ≤ i then refusePeer s m linkRefused
      else silkPerform (crossLate s late p inst) ⟨op, getF s f_SILK_RANGE_BASE inst + getF s f_SILK_IMPORT_BASE e + i,
        BitVec.ofNat 64 m.addr, .peer m.src m.inst m.tag, inst, instarOf s (.inst inst), m.epoch, m.sent⟩)

/-- SILK_ADD_MSG (R425). -/
def execSilkAddMsg (k : Nat) (late : Bool) (s : State) : Out := silkFromPeer k silkAdd late s

/-- SILK_READ_MSG (R425). -/
def execSilkReadMsg (k : Nat) (late : Bool) (s : State) : Out := silkFromPeer k silkRead late s

/-- SILK_WAITGE_MSG: performed, or held in a remote waiter entry (R425, R426). -/
def execSilkWaitgeMsg (k : Nat) (late : Bool) (s : State) : Out := silkFromPeer k silkWaitge late s

/-- SILK_TAKE_MSG: performed, or held in a remote waiter entry (R425, R426). -/
def execSilkTakeMsg (k : Nat) (late : Bool) (s : State) : Out := silkFromPeer k silkTake late s

/-- SILK_RELEASE: a release or a READ's value reaches the group that waits for it, and a release is acknowledged; one whose
operation is over is discarded as stale, counted, and answered STALE (R359, R426). -/
def execSilkRelease (k : Nat) (late : Bool) (s : State) : Out :=
  onMsg s k msgSilkRelease (fun p m s => match (mfind s.ops m.tag).filter (fun o => o.sub = m.src + 1) with
    | none => answerErr (countR (countR s r_CMP_STALE 0 1) r_CMP_STALE_KIND 0 1) m linkStale
    | some o =>
      let s := crossLate s late p (kernel s o.kernel).inst
      if o.kind = .silkRead then
        let r : SilkReply := ⟨o.core, o.grp, m.tag, BitVec.ofNat 64 m.addr, instarOf s (.core o.core), s.now⟩
        { s with silkReplies := mput s.silkReplies m.tag r }
      else
        let s := sendOrDrop s (answerTo s m msgSilkAck 0 0 [] 0)
        silkRelease s ⟨false, 0, 0, .group o.core o.grp m.tag, instarOf s (.core o.core), m.epoch⟩ m.addr)

/-- SILK_ACK: an ADD has been performed at its remote home, or a release has reached its group, and its waiter entry is free
(R414, R426). -/
def execSilkAck (k : Nat) (s : State) : Out :=
  onMsg s k msgSilkAck (fun _ m s => match mfind s.ops m.tag with
    | some o =>
      if o.kind = .silkAdd && o.sub = m.src + 1 then { s with ops := mdel s.ops m.tag }
      else { s with silkSent := s.silkSent.filter (fun w => !releasedTo m.src m.tag w) }
    | none => { s with silkSent := s.silkSent.filter (fun w => !releasedTo m.src m.tag w) })

/-! ## Fences from peers (R372) -/

/-- FENCE_OP: a peer's fence operation is performed at the fence's home, if it lies in a slice lent to the sender under R354; a
wait that is not over is held, and one that finds the fence cache full waits where it is (R372, R421; log entry 24). -/
def execFenceOp (k : Nat) (s : State) : Out :=
  .next (match takeMine s k msgFenceOp with
    | none => s
    | some (p, m, s') =>
      let g := chipId s * 2 ^ 48 + m.addr
      let v := leNat (m.data.take 8)
      let op := m.aux % 4
      if m.addr % 16 ≠ 0 then refusePeer s' m linkRefused
      else match admitPeer s p m 16 with
      | .error code => refusePeer s' m code
      | .ok _ =>
      if secureAddr s m.addr then refusePeer (countR s' r_SEC_WORLD_REFUSED 0 1) m linkRefused
      else if op = 3 then
        let (value, state) := fenceWords s g
        match fenceWaitEnd value state v with
        | some code => fenceMsg s' m.src m.inst m.tag (bitsOf m.aux 8 8) code
        | none =>
          if fenceFull s g then s
          else { s' with fenceWaiters := s'.fenceWaiters ++ [⟨g, BitVec.ofNat 64 v, .peer m.src m.inst m.tag (bitsOf m.aux 8 8)⟩] }
      else if fenceFull s g then s
      else
        let act := if op = 0 then FenceAct.signal v else if op = 1 then .error (v % 2 ^ 16) else .reset v
        fenceMsg (fenceUpdate s' 0 0 m.addr g act) m.src m.inst m.tag (bitsOf m.aux 8 8) 0)

/-- FENCE_RELEASE: the home's answer ends the command that waits for it; one for a queue that has been destroyed since is
discarded and counted (R372, R397). -/
def execFenceRelease (k : Nat) (s : State) : Out :=
  onMsg s k msgFenceRelease (fun _ m s => match mfind s.fenceOuts m.tag with
    | none => s
    | some f =>
      let s := { s with fenceOuts := mdel s.fenceOuts m.tag }
      if f.dest ≠ m.src then s
      else if f.wait && bitsOf m.aux 16 8 ≠ instarOf s (.queue f.queue) then countStale s (.queue f.queue)
      else endCmd s f.cmd (m.aux % 2 ^ 16))

/-! ## Leases (R353, R356; log entry 28) -/

/-- The member of CMP_LEASE that a LEASE message names, on the side given. -/
def leaseNamed (s : State) (m : LinkMsg) (l : List Nat) : Option Nat :=
  l.find? (fun k => (leaseAt s k).num = m.addr % 2 ^ 32 && (leaseAt s k).chip = m.src && (leaseAt s k).unit = bitsOf m.addr 32 8
    && (leaseAt s k).kind = bitsOf m.addr 40 1)

/-- A borrowed lease is lost: its slice reads poisoned from then on, and LEASE_LOST is posted (R356, R419). -/
def loseLease (s : State) (k : Nat) : State :=
  let l := leaseAt s k
  let t := mget LeaseTerms.empty s.leaseTerms k
  if t.lost then s else
  postEvent { s with leaseTerms := mput s.leaseTerms k { t with lost := true } } 0
    (eventRecord 0x22 0 l.inst l.num (l.chip + l.unit * 2 ^ 16) 0 s.now)

/-- LEASE: a lender grants a request for an offer that is this chip's to take, and marks it TAKEN, or refuses; an answer goes to
the verification that asked; a release by the borrower makes it an offer again, a return ends it; and a loss marks the borrowed
slice (R353, R356). -/
def execLease (k : Nat) (s : State) : Out :=
  onMsg s k msgLease (fun _ m s =>
    let l : Lease := ⟨m.addr % 2 ^ 32, m.src, bitsOf m.addr 32 8, bitsOf m.addr 40 1, m.inst⟩
    if m.aux = leaseAsk then
      match leaseNamed s m (lentLeases s) with
      | some j =>
        if (leaseAt s j).inst = m.inst && !flagF s f_CMP_LEASE_TAKEN j then
          let t := mget LeaseTerms.empty s.leaseTerms j
          let s := { s with leaseTerms := mput s.leaseTerms j { t with instar := m.instar } }
          sendLease (setF s f_CMP_LEASE_TAKEN j 1) l leaseGrant m.epoch
        else sendLease s l leaseRefuse m.epoch
      | none => sendLease s l leaseRefuse m.epoch
    else if m.aux = leaseGrant then leaseAnswer s l.num l.chip true
    else if m.aux = leaseRefuse then leaseAnswer s l.num l.chip false
    else if m.aux = leaseRelease || m.aux = leaseReturn then
      match leaseNamed s m (lentLeases s) with
      | some j =>
        if !flagF s f_CMP_LEASE_TAKEN j || (leaseAt s j).inst ≠ m.inst then s
        else if m.aux = leaseRelease then setF s f_CMP_LEASE_TAKEN j 0
        else refreshLoads (endLent s j)
      | none => s
    else if m.aux = leaseLost then
      match leaseNamed s m (borrowedLeases s) with
      | some j => loseLease s j
      | none => wonLost s l.num l.chip
    else s)

end Sys2Proof.Machine
end

