-- ==== Sys2Proof/Machine/Peers.lean ====
section
/-!
DEFINITION. Peers (R418, R419, R424, R434) and custody words (R431, R432, R436).
-/

namespace Sys2Proof.Machine

/-! ## The peer table (R418) -/

/-- The entry of a chip. -/
def peerOf (s : State) (chip : Nat) : Option Nat :=
  ((s.peers.find? (fun kv => decide (getF s f_LNK_PEER_CHIP kv.1 = chip))).map Prod.fst)

/-- The state of a peer entry. -/
def peerState (s : State) (k : Nat) : Nat := getF s f_LNK_PEER_STATE k

/-- Is a chip LOST? -/
def chipLost (s : State) (chip : Nat) : Bool := (peerOf s chip).any (fun k => peerState s k = peerLost)

/-- An entry for a chip that has none: the first empty one of the 4,096 (no more than the listed ones are taken), else the
first that is LOST. -/
def freePeer (s : State) : Option Nat :=
  match ((List.range (s.peers.length + 1)).find? (fun k => (mfind s.peers k).isNone)).filter (fun k => decide (k < 4096)) with
  | some k => some k
  | none => (List.range s.peers.length).find? (fun k => peerState s k = peerLost)

/-- Starts an entry (R418): LEARNING. -/
def startPeer (s : State) (k chip hops boot serial : Nat) : State :=
  setR { s with peers := mput s.peers k ⟨serial, s.now, []⟩ } r_LNK_PEER k
    (chip + peerLearning * 2 ^ 16 + hops * 2 ^ 19 + boot % 2 ^ 32 * 2 ^ 32)

/-- The limit of a peer's silence: AGE intervals of HELLO for a neighbour, of ADVERT for others (R418). -/
def ageLimit (s : State) (k : Nat) : Nat :=
  getF s f_LNK_CFG_AGE * (if getF s f_LNK_PEER_HOPS k = 1 then getF s f_LNK_CFG_HELLO_US * usTicks
    else getF s f_LNK_CFG_ADVERT_MS * msTicks)

/-- Writes the AUTO route entry of a neighbour, over an entry that is not VALID or is AUTO: its UP ports, at most four
(R418, R435). -/
def autoRoute (s : State) (chip : Nat) : State :=
  let l := ((List.range 32).filter (fun p => isUp s p && flagF s f_LNK_PORT_PEER_VALID p && getF s f_LNK_PORT_PEER_CHIP p = chip)).take 4
  if l.isEmpty || (flagF s f_LNK_RT_VALID chip && !flagF s f_LNK_RT_AUTO chip) then s
  else setR s r_LNK_RT chip (l.getD 0 0 + l.getD 1 0 * 2 ^ 5 + l.getD 2 0 * 2 ^ 10 + l.getD 3 0 * 2 ^ 15 + (l.length - 1) * 2 ^ 20
    + 2 ^ 22 + 2 ^ 24)

/-- What this chip does when a peer becomes LOST (R419, R372, R426): everything that depends on it ends with PEER_LOST. -/
def losePeer (s : State) (k : Nat) : State :=
  let chip := getF s f_LNK_PEER_CHIP k
  let s := setF s f_LNK_PEER_STATE k peerLost
  let s := (s.fenceOuts.filter (fun kv => kv.2.dest = chip)).foldl (fun s kv =>
    endCmd { s with fenceOuts := mdel s.fenceOuts kv.1 } kv.2.cmd errPeerLost) s
  let s := failColls s errPeerLost (fun c => c.ranks.any (fun x => x.1 = chip))
  let ofPeer (f : SilkFrom) : Bool := match f with
    | .peer c _ _ => c = chip
    | _ => false
  let s := { s with
    fenceWaiters := s.fenceWaiters.filter (fun w => match w.src with
      | .peer c _ _ _ => c ≠ chip
      | _ => true)
    silkWaiters := s.silkWaiters.filter (fun w => !ofPeer w.src)
    ports := s.ports.map (fun kv : Nat × Port => (kv.1, { kv.2 with adv := mdel kv.2.adv chip })) }
  let s := (s.silkSent.filter (fun w => ofPeer w.src)).foldl (fun s w => undoRelease s (fun x => x = w)) s
  let s := if flagF s f_LNK_RT_AUTO chip then setF s f_LNK_RT_VALID chip 0 else s
  let s := (s.reqs.filter (fun kv => kv.2.stage = .remote && kv.2.err = 0 && gpaChip kv.2.gpa = chip)).foldl (fun s kv =>
    errReq s kv.1 kv.2 errPeerLost) s
  let s := (s.ops.filter (fun kv => kv.2.sub = chip + 1 && !(kv.2.kind = .load || kv.2.kind = .store || kv.2.kind = .atomic))).foldl
    (fun s kv => silkRemoteFail s kv.1 kv.2 errPeerLost) s
  let s := match s.custOp with
    | some c => if c.home = chip then custodyFail s 5 else s
    | none => s
  let s := ((borrowedLeases s).filter (fun j => (leaseAt s j).chip = chip)).foldl loseLease s
  updateTime s

/-- A chip is heard of, by HELLO (with its serial) or ADVERT, at a number of hops (R418). -/
def hearPeer (s : State) (chip hops boot : Nat) (serial : Option Nat) (idle : Bool) : State :=
  match peerOf s chip with
  | none => match freePeer s with
    | some k => startPeer s k chip hops boot (serial.getD 0)
    | none => countR s r_LNK_DISCARDS 0 1
  | some k =>
    let st := peerState s k
    let fresh := startPeer s k chip hops boot (serial.getD 0)
    let near := getF s f_LNK_PEER_HOPS k = 1
    if st = peerLost then fresh
    else if getF s f_LNK_PEER_BOOT k ≠ boot % 2 ^ 32 then
      if st = peerLearning then fresh else startPeer (losePeer s k) k chip hops boot (serial.getD 0)
    else if near && serial.isNone then s
    else
      let info := mget ⟨0, 0, []⟩ s.peers k
      let inTime := !due s info.heard (ageLimit s k + 1)
      let s := { s with peers := mput s.peers k { info with heard := s.now, serial := serial.getD info.serial } }
      let s := setF s f_LNK_PEER_HOPS k (min hops (getF s f_LNK_PEER_HOPS k))
      if st = peerLearning then if inTime then setF s f_LNK_PEER_STATE k peerKnown else s
      else if st = peerAging then setF s f_LNK_PEER_STATE k peerKnown
      else if st = peerIdle && serial.isSome && !idle then
        setF { s with peers := mput s.peers k { info with heard := s.now, idle := [] } } f_LNK_PEER_STATE k peerKnown
      else s

/-- HELLO: a neighbour is recorded or refreshed, with the port it is on; one that names this chip's ID, or that of a KNOWN peer
with another serial, fails the port (R407, R418). AUX holds the neighbour's port in [4:0] and IDLE in [9], TAG its boot nonce,
ADDR its serial, and the data its key nonce (log entry 29). -/
def execHello (k : Nat) (s : State) : Out :=
  onMsg s k msgHello (fun p m s =>
    if 32 ≤ p || !isUp s p then s else
    let dup := m.src = chipId s || (peerOf s m.src).any (fun j =>
      peerState s j = peerKnown && (mget ⟨0, 0, []⟩ s.peers j).serial ≠ 0 && (mget ⟨0, 0, []⟩ s.peers j).serial ≠ m.addr)
    if dup then leaveUp s p portFailed (some 6) else
    let s := setR s r_LNK_PORT_PEER p (m.src + m.aux % 32 * 2 ^ 16 + 2 ^ 31)
    let s := modPort s p (fun q => { q with peerNonce := BitVec.ofNat 64 (leNat (m.data.take 8)) })
    let s := hearPeer s m.src 1 m.tag (some m.addr) (bitAt m.aux 9)
    let s := if (peerOf s m.src).any (fun j => peerState s j = peerKnown) then autoRoute s m.src else s
    updateTime (askEnc s p))

/-- ADVERT: each listed peer is recorded one hop further; one beyond 4 hops is not, and is counted (R418). Its data are
entries of 8 bytes: chip, hops, zero, boot nonce (log entry 29). -/
def execAdvert (k : Nat) (s : State) : Out :=
  onMsg s k msgAdvert (fun p m s =>
    let near := (List.range 32).filter (fun q => q = p || (isUp s q && getF s f_LNK_PORT_PEER_CHIP q = m.src
      && flagF s f_LNK_PORT_PEER_VALID q))
    updateTime ((List.range (m.data.length / 8)).foldl (fun s i =>
      let e := (m.data.drop (8 * i)).take 8
      let chip := leNat (e.take 2)
      let hops := leNat ((e.drop 2).take 1)
      if chip = chipId s then s
      else if 3 < hops then countR s r_LNK_DISCARDS 0 1
      else
        let s := near.foldl (fun s q => modPort s q (fun v => { v with adv := mput v.adv chip hops })) s
        hearPeer s chip (hops + 1) (leNat ((e.drop 4).take 4)) none false) s))

/-- PEER_AGE_EXPIRY: a peer not heard of for AGE intervals is AGING, and after as many again LOST (R418, R419). -/
def execPeerAgeExpiry (k : Nat) (s : State) : Out :=
  .next (match mfind s.peers k with
    | none => s
    | some i =>
      let st := peerState s k
      if !due s i.heard (ageLimit s k) then s
      else if st = peerKnown || st = peerReset then
        updateTime (setF { s with peers := mput s.peers k { i with heard := s.now } } f_LNK_PEER_STATE k peerAging)
      else if st = peerAging then losePeer s k
      else s)

/-- LINK_IDLE: a peer that has sent it on every port to this chip is IDLE (R418). -/
def execLinkIdle (k : Nat) (s : State) : Out :=
  onMsg s k msgLinkIdle (fun p m s => match peerOf s m.src with
    | none => s
    | some j =>
      let i := mget ⟨0, 0, []⟩ s.peers j
      let l := if i.idle.contains p then i.idle else i.idle ++ [p]
      let s := { s with peers := mput s.peers j { i with idle := l } }
      let all := (List.range 32).filter (fun q => isUp s q && flagF s f_LNK_PORT_PEER_VALID q && getF s f_LNK_PORT_PEER_CHIP q = m.src)
      if peerState s j = peerKnown && all.all (fun q => l.contains q) then updateTime (setF s f_LNK_PEER_STATE j peerIdle) else s)

/-- PEER_NOTICE: a KNOWN peer whose compute resets is marked, and collectives with a rank in the reset's scope fail; READY
returns it to KNOWN (R418, R430, R434). -/
def execPeerNotice (k : Nat) (s : State) : Out :=
  onMsg s k msgPeerNotice (fun _ m s =>
    let st := (peerOf s m.src).map (fun j => (j, peerState s j))
    if bitAt m.aux 0 then
      let s := match st with
        | some (j, t) => if t = peerKnown then setF s f_LNK_PEER_STATE j peerReset else s
        | none => s
      failColls (updateTime s) errPeerComputeReset (fun c => c.ranks.any (fun x =>
        x.1 = m.src && (bitAt m.aux 6 || x.2 = bitsOf m.aux 1 5)))
    else match st with
      | some (j, t) => if t = peerReset then updateTime (setF s f_LNK_PEER_STATE j peerKnown) else s
      | none => s)

/-- HELLO_SEND: every HELLO_US each UP port sends a HELLO (R418). -/
def execHelloSend (s : State) : Out :=
  .next (
    if !due s s.lastHello (getF s f_LNK_CFG_HELLO_US * usTicks) then s else
    ((List.range 32).filter (isUp s)).foldl (fun s p =>
      let dest := if flagF s f_LNK_PORT_PEER_VALID p then getF s f_LNK_PORT_PEER_CHIP p else 0
      sendOn s p { LinkMsg.blank s msgHello dest with
        tag := s.bootNonce, aux := p + 256 * b2n (flagF s f_RST_STATUS_CHIP_RESET), addr := getR s r_CHIP_SERIAL
        data := leBytes 8 (port s p).nonce.toNat }) { s with lastHello := s.now })

/-- The peer entries that an ADVERT lists: those recorded, with HOPS up to 3. -/
def advertList (s : State) : List (List Byte) :=
  (s.peers.filter (fun kv =>
    let st := peerState s kv.1
    (st = peerKnown || st = peerAging || st = peerReset || st = peerIdle : Bool) && getF s f_LNK_PEER_HOPS kv.1 ≤ 3)).map (fun kv =>
      leBytes 2 (getF s f_LNK_PEER_CHIP kv.1) ++ leBytes 1 (getF s f_LNK_PEER_HOPS kv.1) ++ [0]
        ++ leBytes 4 (getF s f_LNK_PEER_BOOT kv.1))

/-- ADVERT_SEND: every ADVERT_MS the chip sends its peer entries to every neighbour, 512 to a message (R418). -/
def execAdvertSend (s : State) : Out :=
  .next (
    if !due s s.lastAdvert (getF s f_LNK_CFG_ADVERT_MS * msTicks) then s else
    let l := advertList s
    let ports := (List.range 32).filter (fun p => isUp s p && flagF s f_LNK_PORT_PEER_VALID p
      && !(List.range p).any (fun q => isUp s q && flagF s f_LNK_PORT_PEER_VALID q
        && getF s f_LNK_PORT_PEER_CHIP q = getF s f_LNK_PORT_PEER_CHIP p))
    ports.foldl (fun s p => (List.range ((l.length + 511) / 512)).foldl (fun s i =>
      sendOn s p { LinkMsg.blank s msgAdvert (getF s f_LNK_PORT_PEER_CHIP p) with data := ((l.drop (512 * i)).take 512).flatten }) s)
      { s with lastAdvert := s.now })

/-! ## Link encryption agreed (R422) -/

/-- ENC_REQ: the neighbour asks to encrypt, or agrees: a port that wants to agrees, and derives its keys (R422, R458).
`tagBad` is a failure of the slot's tag as it is used. -/
def execEncReq (k : Nat) (tagBad : Bool) (s : State) : Out :=
  onMsg s k msgEncReq (fun p m s =>
    if 32 ≤ p || !isUp s p then s else
    match linkSlot s p with
    | none => s
    | some (slot, _) =>
      let s := if tagBad && keyValid s slot then failKey s slot else s
      let epoch := max (port s p).kepoch (m.addr % 2 ^ 32)
      if bitAt m.aux 0 then (if (port s p).encAsked.isSome then pump (keyPort s p epoch) p else s)
      else
        let s := if keyDerives s slot keyLinkBit then sendOn (modPort s p (fun q => { q with kepoch := epoch })) p
            { encMsg s p 1 with addr := epoch } else s
        pump (keyPort s p epoch) p)

/-! ## The time base (R424) -/

/-- TIME: a message from the parent corrects the time base: it steps forward only before TIME_SYNC first reads 1, and slews
from then on. ADDR is the parent's tick as it sends (log entry 29); the port's delay is added. -/
def execTime (k : Nat) (s : State) : Out :=
  onMsg s k msgTime (fun p m s =>
    match timeParent s with
    | none => s
    | some (q, h) =>
      if q ≠ p || timeMaster s = chipId s || 4 < h then s
      else
        let goal := m.addr + getF s f_LNK_PORT_STAT_DELAY_NS p / 4
        let d := signedOf (BitVec.ofNat 64 goal - s.now).toNat 64
        let s := if !s.synced && 0 < d then { s with now := BitVec.ofNat 64 goal, timeSlew := 0 } else { s with timeSlew := d }
        setF { s with synced := true } f_LNK_STATUS_TIME_SYNC 0 1)

/-- TIME_SEND: every 1 ms a synchronised chip sends TIME on every port but its parent's (R424). -/
def execTimeSend (s : State) : Out :=
  .next (
    if !due s s.lastTime msTicks || !flagF s f_LNK_STATUS_TIME_SYNC then s else
    let parent := if timeMaster s = chipId s then none else (timeParent s).map Prod.fst
    ((List.range 32).filter (fun p => isUp s p && flagF s f_LNK_PORT_PEER_VALID p && parent ≠ some p)).foldl (fun s p =>
      sendOn s p { LinkMsg.blank s msgTime (getF s f_LNK_PORT_PEER_CHIP p) with addr := s.now.toNat }) { s with lastTime := s.now })

/-! ## Custody words (R431, R432, R436) -/

/-- The fields of a custody word. -/
def custHome (w : Nat) : Nat := bitsOf w 0 16
def custodian (w : Nat) : Nat := bitsOf w 16 16
def custPending (w : Nat) : Nat := bitsOf w 32 16
def custEpoch (w : Nat) : Nat := bitsOf w 48 14
def custState (w : Nat) : Nat := bitsOf w 62 2

/-- The states of a custody word. -/
def custHeld : Nat := 1
def custOffered : Nat := 2
def custAccepted : Nat := 3

/-- A custody word. -/
def custWord (home cust pend epoch st : Nat) : Nat :=
  home % 2 ^ 16 + cust % 2 ^ 16 * 2 ^ 16 + pend % 2 ^ 16 * 2 ^ 32 + epoch % 2 ^ 14 * 2 ^ 48 + st * 2 ^ 62

/-- The epoch after an epoch: 16,383 is followed by 1. -/
def nextCepoch (e : Nat) : Nat := if e = 16383 then 1 else e + 1

/-- The custody operations of SILK_CUST_CMD. -/
def custInit : Nat := 1
def custOffer : Nat := 2
def custAccept : Nat := 3
def custRelease : Nat := 4
def custReclaim : Nat := 5
def custRead : Nat := 6

/-- A custody operation on a word that is one (R432): the new word, or the code that rejects it: CUSTODY_STALE for an epoch
other than CEPOCH, CUSTODY_STATE for any other condition. `lost` tells whether CUSTODIAN or PENDING is LOST at the home. -/
def custStep (op q home e peer w : Nat) (lost : Bool) : Except Nat Nat :=
  if op = custRead then .ok w
  else if op = custInit then (if q = home then .ok (custWord q q 0 1 custHeld) else .error 2)
  else if e ≠ custEpoch w then .error 1
  else if op = custOffer then
    if custState w = custHeld && custodian w = q then .ok (custWord (custHome w) (custodian w) peer e custOffered) else .error 2
  else if op = custAccept then
    if custState w = custOffered && custPending w = q then .ok (custWord (custHome w) q (custodian w) (nextCepoch e) custAccepted)
    else .error 2
  else if op = custRelease then
    if (custState w = custAccepted && custPending w = q) || (custState w = custOffered && custodian w = q) then
      .ok (custWord (custHome w) (custodian w) 0 e custHeld)
    else .error 2
  else if op = custReclaim then
    if q = home && lost then .ok (custWord (custHome w) (custHome w) 0 (nextCepoch e) custHeld) else .error 2
  else .error 2

/-- Sets a custody word at its home: WAITGE waiters it reaches are released, and TAKE waiters, whose operations a custody word
discards (R253, R431). -/
def setCustody (s : State) (ctr w : Nat) : State :=
  let s := { setR s r_SILK_CTR ctr w with custody := if s.custody.contains ctr then s.custody else s.custody ++ [ctr] }
  let s := releaseGe s ctr
  let out := s.silkWaiters.filter (fun x => x.ctr = ctr && x.take)
  out.foldl (fun s x => silkRelease s { x with take := false } w)
    { s with silkWaiters := s.silkWaiters.filter (fun x => !(x.ctr = ctr && x.take)) }

/-- Performs a custody operation at its home: the result code, and the state. -/
def custPerform (s : State) (op q arg : Nat) : Nat × State :=
  let ctr := bitsOf arg 0 14
  let w := getR s r_SILK_CTR ctr
  if op ≠ custInit && !s.custody.contains ctr then (4, s)
  else match custStep op q (chipId s) (bitsOf arg 32 14) (bitsOf arg 46 16) w (chipLost s (custodian w) || chipLost s (custPending w)) with
    | .error code => (code, s)
    | .ok w' => (0, if op = custRead then s else setCustody s ctr w')

/-- CUSTODY: a custody operation is performed at its home and answered with the word as it then stands; an answer ends the
operation of SILK_CUST_CMD that is under way (R432, R436; log entry 29: AUX bit 8 marks an answer, and a request's ADDR holds
SILK_CUST_ARG with the offeree in [61:46]). -/
def execCustody (k : Nat) (s : State) : Out :=
  onMsg s k msgCustody (fun _ m s =>
    if bitAt m.aux 8 then match s.custOp with
      | some c => if c.tag = m.tag then custodyEnd s (bitsOf m.aux 4 4) m.addr else lateAnswer s
      | none => lateAnswer s
    else
      let (code, s) := custPerform s (m.aux % 16) m.src m.addr
      let s := countR s (if m.src = chipId s then r_SILK_OPS else r_SILK_X_OPS) 0 1
      let ans := answerTo s m msgCustody (m.aux % 16 + code * 16 + 256) (getR s r_SILK_CTR (bitsOf m.addr 0 14)) [] 0
      if m.src = chipId s then { s with linkIn := s.linkIn ++ [(32, ans)] } else sendOrDrop s ans)

/-- Starts a custody operation from SILK_CUST_CMD; a write while BUSY is discarded, and an INIT or RECLAIM from a chip other
than HOME ends with NOT_HOME (R432, R436). -/
def custStart (s : State) (op : Nat) : State :=
  if flagF s f_SILK_CUST_RESULT_BUSY then s else
  let home := getF s f_SILK_CUST_ARG_HOME
  if (op = custInit || op = custReclaim) && home ≠ chipId s then custodyFail s 3
  else if chipLost s home then custodyFail s 5
  else
    let (tag, s) := fresh s
    let m := { LinkMsg.blank s msgCustody home with
      tag := tag, aux := op, addr := getR s r_SILK_CUST_ARG % 2 ^ 46 + getF s f_SILK_CUST_PEER_PEER * 2 ^ 46 }
    let s := setF { s with custOp := some ⟨op, home, tag, s.now⟩ } f_SILK_CUST_RESULT_BUSY 0 1
    if home = chipId s then { s with linkIn := s.linkIn ++ [(32, m)] }
    else match sendMsg s m with
      | some (_, s) => s
      | none => custodyFail s 6

/-- INIT: a counter of this chip becomes a custody word that this chip holds (R432). -/
def execInit (s : State) : Out := .next (custStart s custInit)

/-- OFFER: the custodian offers custody to the chip in SILK_CUST_PEER (R432). -/
def execOffer (s : State) : Out := .next (custStart s custOffer)

/-- ACCEPT: the offeree takes custody, and CEPOCH advances (R432). -/
def execAccept (s : State) : Out := .next (custStart s custAccept)

/-- RELEASE: the previous custodian completes a handoff, or the custodian withdraws its offer (R432). -/
def execRelease (s : State) : Out := .next (custStart s custRelease)

/-- RECLAIM: the home takes custody back from a chip that is LOST (R432). -/
def execReclaim (s : State) : Out := .next (custStart s custReclaim)

/-- CUSTODY_READ: the word is returned (R432). -/
def execCustodyRead (s : State) : Out := .next (custStart s custRead)

/-- CUSTODY_UNREACHABLE: no answer within 20 ms (R436). -/
def execCustodyUnreachable (s : State) : Out :=
  .next (match s.custOp with
    | some c => if due s c.sent (20 * msTicks) then custodyFail s 6 else s
    | none => s)

end Sys2Proof.Machine
end

