-- ==== Sys2Proof/Machine/Collective.lean ====
section
/-!
DEFINITION. The rows of collectives (R427 to R430): opening, send and receive actions, COLL_PUT, COLL_TOKEN and the timeout.
-/

namespace Sys2Proof.Machine

/-- The collective that a command runs. -/
def collOfCmd (s : State) (id : Nat) : Option (Nat × Coll) := s.colls.find? (fun kv => kv.2.cmd = some id && kv.2.fate.isNone)

/-- The lines of a range, and what device work reads from each: bytes and poisoned sectors. -/
def collLines (s : State) (slot : SlotInfo) (q c va n : Nat) : Except DevRes (List (Nat × List Byte × Nat)) × State :=
  let ps := linePieces va n
  match devFetch s slot q c ps with
  | (.ok d bad, s) =>
    (.ok ((List.range ps.length).map (fun i =>
      let p := ps.getD i (0, 0)
      (p.1, (d.drop (p.1 - va)).take p.2, bitsOf bad (8 * i) 8))), s)
  | (e, s) => (.error e, s)

/-- Writes lines with their poison, once every one of them is translated. -/
def collPut (s : State) (slot : SlotInfo) (q c : Nat) (l : List (Nat × List Byte × Nat)) : DevRes × State :=
  devAccess s slot q c (l.map (fun x => (x.1, x.2.1.length))) (fun s gs =>
    (.ok [] 0, (l.zip gs).foldl (fun s x => devPut s slot q c x.2.1 x.2.2.1 x.1.2.1 x.1.2.2) s))

/-- The channels that an action of a collective takes: the lowest that are Idle of those that work for its Imago, as many as its
descriptor allows (R427, R429, log entry 60). -/
def collChans (s : State) (c : Cmd) (v : Coll) : List Nat :=
  ((workChannels s c.inst).filter (fun n => bulkLoad s n = 0)).take (collNum v.desc 0x2A 1)

/-- An action has moved bytes: the first of its channels' clusters counts them (R224). -/
def collBytes (s : State) (l : List Nat) (rd wr : Nat) : State :=
  match l with
  | [] => s
  | n :: _ => countR (countR s r_TMV_CLU_RD (n / 32) rd) r_TMV_CLU_WR (n / 32) wr

/-- An action ends: each channel that it took has completed its part, and is free. -/
def collFree (s : State) (l : List Nat) : State := l.foldl (fun s n => leaveChan (countR s r_TMV_BCH_DONE n 1) n) s

/-- How an access that did not end with data leaves a command: waiting, stalled, or ended. -/
def collMiss (s : State) (id : Nat) (c : Cmd) (rights : Nat) (r : DevRes) : State :=
  match r with
  | .fault fs => cmdStall s id c rights fs
  | .error e => endCmd s id e
  | _ => s

/-- COLLECTIVE: the descriptor and its ranks are read and checked, and the collective opens: OPEN goes to every rank that sends
to this one, twice where it stages (R427, R429); a command that continues an open collective takes it up at FIRST_STEP. -/
def execCollective (id : Nat) (s : State) : Out :=
  .next (match running s id opCollective with
    | none => s
    | some c =>
      if (collOfCmd s id).isSome || !holdsImago s c || chipStopped s then s
      else cmdRead s id c (c.num 0x20 8) 128 (fun d s =>
        let bad := !collOk d (getF s f_SILK_RANGE_SIZE c.inst) || 32 ≤ c.inst || collSteps d < c.num 0x28 4 + c.num 0x2C 4
        if bad then endCmd s id errCommandInvalid
        else cmdRead s id c (collPeers d) (4 * collN d) (fun b s =>
          let s := devDone s c.queue id
          match collRanks (chipId s) c.inst (collRank d) b with
          | none => endCmd s id errCommandInvalid
          | some ranks =>
            let k := collId d
            let open' (s : State) : State :=
              let (tag, s) := fresh s
              let v := collAtStep ⟨c.space, c.inst, some id, d, ranks, 0, 0, 0, [], [], [], s.now, tag, none, [], []⟩ (c.num 0x28 4) s.now
              let s := { s with colls := mput s.colls k v }
              (collSenders d).foldl (fun s r => (List.range (if collReduces d then 2 else 1)).foldl (fun s _ =>
                collSendMsg s (collMsg s k v r msgCollToken (2 ^ 16))) s) s
            match mfind s.colls k with
            | none => open' s
            | some v =>
              if v.space ≠ c.space then (if v.fate.isNone then endCmd s id errCommandInvalid else open' s)
              else match v.fate, v.cmd with
                | some 0, _ => open' s
                | some e, _ => endCmd (freeColl s k v) id e
                | none, some _ => s
                | none, none => modColl s k (fun v => collAtStep { v with cmd := some id } (c.num 0x28 4) s.now))))

/-- May an action of a collective begin (R378, R392, R429, R483): its command runs, holds its Imago, and issue is not
stopped? -/
def collMay (s : State) (id : Nat) : Option (Cmd × Nat × Coll) :=
  match running s id opCollective, collOfCmd s id with
  | some c, some (k, v) => if holdsImago s c && !chipStopped s then some (c, k, v) else none
  | _, _ => none

/-- An action has begun, or ended, now. -/
def collTouch (s : State) (id k : Nat) (begun : Bool) (f : Coll → Coll) : State :=
  let s := modColl s k (fun v => f { v with since := s.now })
  modCmd s id (fun c => { c with begun := begun })

/-- A COLL_PUT goes out as bulk work of its Imago (R262, R264, R415). -/
def sendPut (s : State) (c : Cmd) (m : LinkMsg) : State :=
  let r := MemReq.make .write (.coll 0) (m.dest * 2 ^ 48) m.data.length [] (c.num 2 1 % 8) 0 c.inst c.space (masterBulk c.inst) 0 false
  let (r, s) := regulate s { r with epoch := m.epoch } 1
  collSendMsg s { m with label := r.label, deadline := r.deadline }

/-- Bytes of a COLL_PUT, cut at 4,096, with their poison per 32-byte sector. -/
def putParts (l : List (Nat × List Byte × Nat)) : List (List Byte × Nat) :=
  (List.range ((l.length + 15) / 16)).map (fun i =>
    let part := (l.drop (16 * i)).take 16
    ((part.map (fun x => x.2.1)).flatten,
      (List.range part.length).foldl (fun a j => a + ((part.getD j (0, [], 0)).2.2 % 256) * 2 ^ (8 * j)) 0))

/-- COLL_SEND_ACTION: the send of the step begins once the receiver's OPEN has arrived and, through staging, FREE allows; the
chunk goes out in COLL_PUT messages. All-to-all copies its own chunk at the first step (R428, R429). -/
def execCollSendAction (id : Nat) (s : State) : Out :=
  .next (match collMay s id with
    | none => s
    | some (c, k, v) => match collSend v.desc v.step with
      | none => s
      | some m =>
        let free := getR s r_SILK_CTR (collCtr s v 1)
        let chans := collChans s c v
        if v.sendSt ≠ 0 || !v.opens.contains m.rank || (m.how = 1 && free < sendOrd v.desc v.step) || chans.isEmpty then s
        else
          let slot := ctxSlot s c.space
          let own := collRank v.desc * collChunk v.desc
          match collLines s slot c.queue id (collBuf v.desc + m.ofs) m.len with
          | (.error r, s) => collMiss s id c 1 r
          | (.ok l, s) =>
            let copy := if collAlg v.desc = 4 && v.step = 0 then collLines s slot c.queue id (collBuf v.desc + own) (collChunk v.desc)
              else (.ok [], s)
            match copy with
            | (.error r, s) => collMiss s id c 1 r
            | (.ok own', s) =>
              match collPut s slot c.queue id (own'.map (fun x => (x.1 - collBuf v.desc + collOut v.desc, x.2.1, x.2.2))) with
              | (.ok _ _, s) =>
                let s := devDone s c.queue id
                let s := collTouch s id k true (fun v => { v with sendSt := 1, sendCh := chans })
                let copied := own'.foldl (fun a x => a + x.2.1.length) 0
                let s := collBytes s chans (m.len + copied) copied
                let s := (List.range (putParts l).length).foldl (fun s i =>
                  let p := (putParts l).getD i ([], 0)
                  sendPut s c { collMsg s k v m.rank msgCollPut v.step with addr := k + 4096 * i * 2 ^ 32, data := p.1, poison := p.2 }) s
                let bad := (l ++ own').foldl (fun a x => a + ((List.range 8).filter (bitAt x.2.2)).length) 0
                modCmd s id (fun c => { c with poisoned := satAdd 32 c.poisoned bad })
              | (r, s) => collMiss s id c 2 r)

/-- Bytes that a step keeps on chip, as lines. -/
def stagedLines (v : Coll) (n : Nat) : List (List Byte × Nat) :=
  (List.range (n / 256)).map (fun i => mget (List.replicate 256 0, 0) v.staged (v.step * 2 ^ 32 + i))

/-- COLL_RECEIVE_ACTION: the receive of the step begins when ARRIVED reaches it; staged data is reduced into BUF, with poison
kept (R428 to R430, R205). -/
def execCollReceiveAction (id : Nat) (s : State) : Out :=
  .next (match collMay s id with
    | none => s
    | some (c, k, v) => match collRecv v.desc v.step with
      | none => s
      | some m =>
        if v.recvSt ≠ 0 || getR s r_SILK_CTR (collCtr s v 0) < recvOrd v.desc v.step then s
        else
          let slot := ctxSlot s c.space
          let chans := if m.how = 0 then [] else collChans s c v
          let start (s : State) : State := collTouch s id k true (fun v => { v with recvSt := 1, recvCh := chans })
          if m.how = 0 then start s
          else if chans.isEmpty then s
          else
            let src : Except DevRes (List (List Byte × Nat)) × State :=
              match recvVa v.desc v.step m with
              | none => (.ok (stagedLines v m.len), s)
              | some a => match collLines s slot c.queue id a m.len with
                | (.ok l, s) => (.ok (l.map (fun x => x.2)), s)
                | (.error r, s) => (.error r, s)
            match src with
            | (.error r, s) => collMiss s id c 1 r
            | (.ok from', s) => match collLines s slot c.queue id (collBuf v.desc + m.ofs) m.len with
              | (.error r, s) => collMiss s id c 1 r
              | (.ok l, s) =>
                let sums := (List.range l.length).map (fun i =>
                  let old := l.getD i (0, [], 0)
                  let new := from'.getD i ([], 0)
                  let r := reduceElems (collNum v.desc 1 1 = 1) old.2.1 new.1
                  ((old.1, r.1, Nat.lor old.2.2 new.2), r.2))
                match collPut s slot c.queue id (sums.map Prod.fst) with
                | (.ok _ _, s) =>
                  let s := collBytes (start (devDone s c.queue id)) chans (if m.how = 2 then m.len else 2 * m.len) m.len
                  let bad := sums.foldl (fun a x => a + ((List.range 8).filter (bitAt x.1.2.2)).length) 0
                  modCmd s id (fun c => { c with
                    flags := sums.foldl (fun f x => f ||| x.2) c.flags, poisoned := satAdd 32 c.poisoned bad })
                | (r, s) => collMiss s id c 2 r)

/-- COLL_ACTION_COMPLETE: an action ends: a receive sends its token to the sender; when both actions of a step are over the
collective goes to the next step, and the command ends with its last (R380, R429). -/
def execCollActionComplete (id : Nat) (recv : Bool) (s : State) : Out :=
  .next (match cmdOf s id, collOfCmd s id with
    | some c, some (k, v) =>
      if (if recv then v.recvSt else v.sendSt) ≠ 1 || c.fin.isSome || devOut s c.queue id then s
      else
        let s := match recv, collRecv v.desc v.step with
          | true, some m => collSendMsg s (collMsg s k v m.rank msgCollToken v.step)
          | _, _ => s
        let other := if recv then v.sendSt else v.recvSt
        let used := if recv then v.recvCh else v.sendCh
        let s := modQueue (collTouch s id k (other = 1) (fun v =>
          if recv then { v with recvSt := 2, recvCh := [] } else { v with sendSt := 2, sendCh := [] })) c.queue
          (fun q => { q with progress := s.now })
        let s := collFree s used
        let s := settleCaps s
        if other ≠ 2 then s
        else
          let n := v.step + 1
          let s := modCmd s id (fun c => { c with count := c.count + 1, begun := false })
          let left := v.staged.filter (fun x => x.1 / 2 ^ 32 ≠ v.step)
          let s := modColl s k (fun v => collAtStep { v with got := mdel v.got v.step, staged := left } n s.now)
          let s := if collSteps v.desc ≤ n then modColl s k (fun v => { v with fate := some 0 }) else s
          if c.num 0x28 4 + c.num 0x2C 4 ≤ n then endCmd s id (devErr s c.queue id) else s
    | _, _ => s)

/-- COLL_TIMEOUT: no action of a collective could begin for LNK_COLL_TMO (R430); time in which issue is stopped does not
count (R483). -/
def execCollTimeout (id : Nat) (s : State) : Out :=
  .next (match collOfCmd s id with
    | none => s
    | some (_, v) =>
      if v.sendSt = 1 || v.recvSt = 1 || !dueRun s v.since (getF s f_LNK_COLL_TMO_MS * msTicks) then s
      else endCmd s id errWaitTimeout)

/-- The open collective that a message names, and the rank of its sender. -/
def collFrom (s : State) (m : LinkMsg) : Option (Coll × Nat) :=
  match mfind s.colls (m.addr % 2 ^ 32) with
  | none => none
  | some v => match findIdxFrom (fun x : Nat × Nat => x.1 = m.src && x.2 = m.inst) v.ranks 0 with
    | some (r, _) => if v.fate = none || v.fate = some 0 then some (v, r) else none
    | none => none

/-- Is a collective in the scope of a reset that is under way (R434)? -/
def collReset (s : State) (v : Coll) : Bool := fenced s v.inst || (v.inst < 32 && flagF s f_SEC_INST_RESETTING v.inst)

/-- The lines of a COLL_PUT's data, from an address or offset. -/
def putLines (m : LinkMsg) (a : Nat) : List (Nat × List Byte × Nat) :=
  (List.range ((m.data.length + 255) / 256)).map (fun i => (a + 256 * i, (m.data.drop (256 * i)).take 256, bitsOf m.poison (8 * i) 8))

/-- COLL_PUT: data of a step is written in the context space of the collective, and the step's last byte adds 1 to ARRIVED;
AUX 0xFFFF fails the collective; one that no open collective admits is answered with an error (R421, R429, R430, R434). A
write that does not translate stalls the message where it is. -/
def execCollPut (k : Nat) (s : State) : Out :=
  .next (match takeMine s k msgCollPut with
    | none => s
    | some (_, m, s') => match collFrom s m with
      | none => refusePeer s' m linkRefused
      | some (v, r) =>
        let key := m.addr % 2 ^ 32
        let n := m.aux % 2 ^ 16
        if collReset s v then refusePeer s' m linkComputeReset
        else if n = 0xFFFF then failColl s' key errRemoteError
        else match collRecv v.desc n with
          | none => refusePeer s' m linkRefused
          | some mv =>
            let ofs := m.addr / 2 ^ 32
            if mv.rank ≠ r || mv.len < ofs + m.data.length || ofs % 256 ≠ 0 || m.data.length % 256 ≠ 0 || v.fate.isSome then
              refusePeer s' m linkRefused
            else
              let land (s : State) : State :=
                let got := mget 0 v.got n + m.data.length
                let s := modColl s key (fun v => { v with got := mput v.got n got })
                if got < mv.len then s else collCount s v 0
              let kept := (putLines m ofs).foldl (fun x l => mput x (n * 2 ^ 32 + l.1 / 256) l.2) v.staged
              match recvVa v.desc n mv with
              | none => land (modColl s' key (fun v => { v with staged := kept }))
              | some a =>
                let owner := (v.cmd.bind (fun id => (cmdOf s id).map (fun c => (c.queue, id)))).getD (0, v.tag)
                if devStalled s owner.1 owner.2 then s
                else match collPut s' (ctxSlot s v.space) owner.1 owner.2 (putLines m (a + ofs)) with
                  | (.ok _ _, s) => land s
                  | (.fault fs, t) =>
                    devStall { t with linkIn := s.linkIn } (slotNum s v.space) (ctxSlot s v.space) owner.1 owner.2 2 fs
                  | (.error e, s) => match v.cmd with
                    | some id => endCmd s id e
                    | none => failColl (collTell s key v) key e
                  | (.wait, t) => { t with linkIn := s.linkIn })

/-- COLL_TOKEN: OPEN lets this rank send to the sender, and counts a free half where it stages; any other token adds 1 to FREE
(R429, R434). -/
def execCollToken (k : Nat) (s : State) : Out :=
  onMsg s k msgCollToken (fun _ m s => match collFrom s m with
    | none => refusePeer s m linkRefused
    | some (v, r) =>
      let key := m.addr % 2 ^ 32
      if collReset s v then refusePeer s m linkComputeReset
      else if bitAt m.aux 16 then
        let stages := (List.range (collSteps v.desc)).any (fun n => (collSend v.desc n).any (fun x => x.rank = r && x.how = 1))
        let s := modColl s key (fun v => { v with opens := if v.opens.contains r then v.opens else v.opens ++ [r] })
        if stages then collCount s v 1 else s
      else collCount s v 1)

end Sys2Proof.Machine
end

