-- ==== Sys2Proof/Machine/Instances.lean ====
section
/-!
DEFINITION. Mailboxes (R441 to R443) and the life of instances (R437 to R440, R447 to R451, R517): creation, reset, removal and
function-level resets.
-/

namespace Sys2Proof.Machine

/-! ## Mailboxes -/

/-- Ends a SEND, refused or not (R441). -/
def endSend (s : State) (win : Nat) (refused : Bool) : State :=
  let s := setF s f_MBX_CTRL_SEND 0 0 win
  if refused then setF s f_MBX_CTRL_REFUSED 0 1 win else s

/-- Is word 0 malformed (R441)? -/
def badWord0 (w : Nat) : Bool := bitAt w 15 || bitAt w 14 || w % 256 = 0 || (bitAt w 13 && 0x80 ≤ w % 256)

/-- MBX_SEND: a window's OUT message is refused, or goes on its way to firmware, to the manager, or to the instance that PEER
names, with its routing bits rewritten (R441, R443). -/
def execMbxSend (win : Nat) (s : State) : Out :=
  .next (
    if 32 < win || flagF s f_MBX_CTRL_SEND 0 win then s else
    let words := (List.range 16).map (fun k => getR s r_MBX_OUT_DATA k win)
    let w0 := words.headD 0
    let peer := bitsOf w0 8 5
    let refused := !winOpen s win || badWord0 w0 || (win = 0 && !bitAt w0 13 && !instExists s peer)
    if refused then setF s f_MBX_CTRL_REFUSED 0 1 win
    else
      let s := setF s f_MBX_CTRL_SEND 0 1 win
      let kept := w0 % 256 + bitsOf w0 16 16 * 2 ^ 16
      let m : Mail :=
        if bitAt w0 13 then ⟨fwWindow, win, 0, words⟩
        else if win = 0 then ⟨peer + 1, 0, mailInstar s (peer + 1), (kept + 2 ^ 14) :: words.drop 1⟩
        else ⟨0, win, 0, (kept + (win - 1) * 2 ^ 8) :: words.drop 1⟩
      { s with mail := s.mail ++ [m] })

/-- A message has been taken: its sender's SEND clears. -/
def mailTaken (s : State) (m : Mail) : State := if m.src = fwWindow then s else endSend s m.src false

/-- MBX_DELIVER: the oldest message for a recipient is taken: by firmware (window 33) into its requests, by a window into its
free IN buffer, with its interrupt; one whose instar is stale is discarded and counted (R358, R359, R442, R443). -/
def execMbxDeliver (win : Nat) (s : State) : Out :=
  .next (match s.mail.find? (fun m => m.dest = win) with
    | none => s
    | some m =>
      let rest := { s with mail := s.mail.erase m }
      if win = fwWindow then
        fwSettle (mailTaken { rest with fwq := rest.fwq ++ [⟨m.src, m.words⟩] } m)
      else if win ≠ 0 && m.instar ≠ mailInstar s win then countStale (mailTaken rest m) (.inst (win - 1))
      else if !winOpen s win then mailTaken rest m
      else if flagF s f_MBX_CTRL_IN_VALID 0 win then s
      else
        let s := (List.range 16).foldl (fun s k => setR s r_MBX_IN_DATA k (m.words.getD k 0) win) rest
        let s := setF (mailTaken s m) f_MBX_CTRL_IN_VALID 0 1 win
        if flagF s f_MBX_CTRL_IRQ_EN 0 win then sendMsi s win (getF s f_MBX_CTRL_VECTOR 0 win) else s)

/-- MBX_IN_RELEASE: the recipient releases its IN buffer (R442). -/
def execMbxInRelease (win : Nat) (s : State) : Out :=
  .next (if winOpen s win then setF s f_MBX_CTRL_IN_VALID 0 0 win else s)

/-! ## Requests: shared parts -/

/-- Do the payload words of a request stay within masks, one for each word from 1 on, 0 where the list ends (R445)? -/
def FwReq.within (r : FwReq) (masks : List Nat) : Bool :=
  (List.range 15).all (fun k => Nat.land (r.word (k + 1)) (masks.getD k 0) = r.word (k + 1))

/-- Runs the request at the front, when it is of a type; with unused bits set it is answered BAD_MSG. -/
def onFw (s : State) (type : Nat) (masks : List Nat) (f : FwReq → State) : Out :=
  .next (match fwFront s type with
    | none => s
    | some r => if r.within masks then f r else fwEnd s r fwBadMsg [])

/-- A mask of 32 bits. -/
def allBits : Nat := 2 ^ 32 - 1

/-! ## Creation (R437 to R439) -/

/-- Is a range free of those that instances hold, and within the whole? An empty range always is. -/
def rangeFree (used : List (Nat × Nat)) (total base n : Nat) : Bool :=
  n = 0 || (base + n ≤ total && used.all (fun u => u.2 = 0 || base + n ≤ u.1 || u.1 + u.2 ≤ base))

/-- Is there a free range of `n`: one at 0 or after a range that is held? -/
def rangeExists (used : List (Nat × Nat)) (total n : Nat) : Bool :=
  (0 :: used.map (fun u => u.1 + u.2)).any (fun b => rangeFree used total b n)

/-- The queue ranges that instances hold. -/
def queueRanges (s : State) : List (Nat × Nat) :=
  (List.range 32).map (fun i => (getF s f_SCH_INST_Q_BASE i, getF s f_SCH_INST_Q_COUNT i))

/-- The Silk ranges that instances hold. -/
def silkRanges (s : State) : List (Nat × Nat) :=
  (List.range 32).map (fun i => (getF s f_SILK_RANGE_BASE i, getF s f_SILK_RANGE_SIZE i))

/-- The key ranges that instances hold. -/
def keyRanges (s : State) : List (Nat × Nat) :=
  (List.range 32).map (fun i => (getF s f_SEC_INST_KEY_BASE i, getF s f_SEC_INST_KEY_COUNT i))

/-- Clears members of a register, which then read their reset value 0. -/
def clearR (s : State) (r : Reg) (k n : Nat) (win : Nat := 0) : State :=
  let lo := regKey r k win
  { s with regs := s.regs.filter (fun kv => !(decide (lo ≤ kv.1) && decide (kv.1 < lo + n * r.stride) && (kv.1 - lo) % r.stride = 0)) }

/-- Zeroes the counters of an instance's Silk range; they are no custody words, and no peer waits on them (R252, R448). -/
def zeroSilk (s : State) (i : Nat) : State :=
  let b := getF s f_SILK_RANGE_BASE i
  let n := getF s f_SILK_RANGE_SIZE i
  let mine (k : Nat) : Bool := b ≤ k && k < b + n
  let s := clearR s r_SILK_CTR b n
  { s with
    custody := s.custody.filter (fun k => !mine k)
    silkWaiters := s.silkWaiters.filter (fun w => !mine w.ctr)
    silkSent := s.silkSent.filter (fun w => !mine w.ctr) }

/-- Is a register key one of a window's own registers? All of a virtual function's; of the physical function's the MBX block,
the XLT fault-queue registers, the SCH window and the EVT block (R12, R517). -/
def windowKey (win k : Nat) : Bool :=
  k / windowSpan = win && (win ≠ 0 || (0x100000 ≤ k && k < 0x200000) || (0x401000 ≤ k && k < 0x402000)
    || (0x301000 ≤ k && k < 0x400000) || 0x1000000 ≤ k)

/-- Sets every register of a window to its reset value, with the queues behind it: held records are discarded (R439, R448). -/
def resetWindow (s : State) (win : Nat) : State :=
  let mine (k : Nat) : Bool := k = 2 * win || k = 2 * win + 1
  { s with
    regs := s.regs.filter (fun kv => !windowKey win kv.1)
    evHeld := mdel s.evHeld win
    fqHeld := mdel s.fqHeld win
    rings := s.rings.filter (fun kv => !mine kv.1)
    armed := s.armed.filter (fun k => !mine k)
    msixDue := s.msixDue.filter (fun k => !mine k)
    msixLast := s.msixLast.filter (fun kv => !mine kv.1)
    invals := s.invals.filter (fun kv => !(kv.2.win = win && kv.2.idx.isSome))
    mail := s.mail.filter (fun m => m.src ≠ win) }

/-- INST_CREATE: firmware grants an instance its ranges, at bases of its choice, and prepares it (R437 to R439); `qb`, `sb`
and `kb` are the bases. The request waits while the instance's instar may not advance yet. -/
def execInstCreate (qb sb kb : Nat) (s : State) : Out :=
  onFw s 0x01 [0x11F, 0x1FFFF, 0x7F, 0x7FFF, 0x1FF] (fun r =>
    let i := r.word 1 % 32
    let q := r.word 2
    let slots := r.word 3
    let silk := r.word 4
    let keys := r.word 5
    if q < 1 || 65536 < q || slots < 1 || 64 < slots || 16384 < silk || 256 < keys then fwEnd s r fwBadMsg []
    else if (mfind s.instResets i).isSome then fwEnd s r fwBusy []
    else if instExists s i then fwEnd s r fwExists []
    else if s.numVfs ≤ i then fwEnd s r fwVfDisabled []
    else if 64 < instSum s f_SCH_INST_SLOTS + slots || !rangeExists (queueRanges s) 65536 q
        || !rangeExists (silkRanges s) 16384 silk || !rangeExists (keyRanges s) 256 keys then fwEnd s r fwNoSpace []
    else if !rangeFree (queueRanges s) 65536 qb q || !rangeFree (silkRanges s) 16384 sb silk || !rangeFree (keyRanges s) 256 kb keys
        || !instarReady s (.inst i) then s
    else
      let s := setR s r_SCH_INST i (qb + q * 2 ^ 32 + slots * 2 ^ 49)
      let s := setR s r_SILK_RANGE i (sb + silk * 2 ^ 16 + 2 ^ 31)
      let s := setR s r_SEC_INST i (kb % 256 + keys * 2 ^ 8 + bitsOf (r.word 1) 8 1 * 2 ^ 24 + 2 ^ 25)
      let s := zeroSilk s i
      let s := setR (setR (setR s r_QOS_IMG_MISS i 0) r_QOS_IMG_DEMOTE i 0) r_CMP_PLACE_MISS i 0
      let s := setR s r_CMP_EPOCH i (1 * 2 ^ 16)
      let s := resetWindow (advanceInstar s (.inst i)) (i + 1)
      let s := (List.range keys).foldl (fun s k => { setR s r_SEC_KEY_ATTR (kb + k) 0 with keyMat := mdel s.keyMat (kb + k) }) s
      fwEnd s r fwOk [qb, sb, kb])

/-! ## Reset and removal (R447 to R451) -/

/-- Begins the reset of an instance: its window is fenced, messages for it are discarded, its contexts are torn down as by
CTX_KILL, and its instar advances 100 µs later (R448). -/
def beginReset (s : State) (i reply : Nat) (remove : Bool) : State :=
  let s := setF { s with instResets := mput s.instResets i ⟨s.now, reply, remove, 0⟩ } f_SEC_INST_RESETTING i 1
  let gone := s.mail.filter (fun m => m.dest = i + 1)
  let s := gone.foldl mailTaken { s with mail := s.mail.filter (fun m => m.dest ≠ i + 1) }
  let s := ((s.ctxs.filter (fun kv => kv.2.inst = i)).map Prod.fst).foldl (fun s c => teardown s c errProducerLost) s
  let key := (Unit8.inst i).key
  { s with
    instarAt := mput s.instarAt key s.now
    instarDue := mset 0 s.instarDue key (mget 0 s.instarDue key + 1) }

/-- Is firmware's request at the front a reset or removal already under way? -/
def resetHeld (s : State) : Bool := s.instResets.any (fun kv => kv.2.reply = 1)

/-- INST_RESET: the manager's request starts an instance reset; it is answered when the reset is over (R448, R451). -/
def execInstReset (s : State) : Out :=
  onFw s 0x02 [0x1F] (fun r =>
    let i := r.word 1 % 32
    if resetHeld s then s
    else if !instExists s i then fwEnd s r fwNoInstance []
    else if (mfind s.instResets i).isSome then fwEnd s r fwBusy []
    else beginReset s i 1 false)

/-- INST_REMOVE: the manager's request resets an instance and then removes it; one being reset is removed after its reset, and
one being removed is answered BUSY (R450, R451). -/
def execInstRemove (s : State) : Out :=
  onFw s 0x03 [0x1F] (fun r =>
    let i := r.word 1 % 32
    if resetHeld s then s
    else if !instExists s i then fwEnd s r fwNoInstance []
    else match mfind s.instResets i with
      | some x => if x.remove then fwEnd s r fwBusy [] else s
      | none => beginReset s i 1 true)

/-- A removal that no request of firmware makes stops the verification of a stream for the instance: NO_INSTANCE, with RECORD
0xFFFF (R360). -/
def stopVerif (s : State) (i : Nat) : State :=
  match s.verif, fwFront s 0x04 with
  | some v, some r => if v.inst = some i then verifEnd s r v cmpNoInstance wholeStream else s
  | _, _ => s

/-- Removes an instance that no request names: its reset begins, or, when one is under way, goes on to a removal. -/
def forceRemove (s : State) (i : Nat) : State :=
  if !instExists s i then s else
  let s := stopVerif s i
  match mfind s.instResets i with
  | some x => { s with instResets := mput s.instResets i { x with remove := true } }
  | none => beginReset s i 0 true

/-- Has the teardown part of a reset ended: no context is left, the instar has advanced, and no compute reset of the Imago is
under way (R448, R451)? -/
def resetOver (s : State) (i : Nat) : Bool :=
  !s.ctxs.any (fun kv => kv.2.inst = i) && mget 0 s.instarDue (Unit8.inst i).key = 0 && !fenced s i

/-- Completes the reset part: tracker entries are retired, the Silk range is zeroed, and the window's registers return to their
reset values (R448). -/
def finishReset (s : State) (i : Nat) : State :=
  resetWindow (zeroSilk (retireEntries s (fun e => e.inst = i)) i) (i + 1)

/-- The first part of a removal after its reset: the Imago's slices leave, the keys are erased, the grants and the import
entries cleared, and the instar advances again (R450). -/
def removeInst (s : State) (i : Nat) : State :=
  let kb := getF s f_SEC_INST_KEY_BASE i
  let keys := getF s f_SEC_INST_KEY_COUNT i
  let s := removeImago s i
  let s := (List.range keys).foldl (fun s k => { setR s r_SEC_KEY_ATTR (kb + k) 0 with keyMat := mdel s.keyMat (kb + k) }) s
  let s := setR (setR s r_SILK_RANGE i 0) r_SCH_INST i 0
  let s := setR s r_SEC_INST i (2 ^ 25 + 2 ^ 26)
  let s := (List.range 256).foldl (fun s k =>
    if flagF s f_SILK_IMPORT_VALID k && getF s f_SILK_IMPORT_LOCAL_INST k = i then setR s r_SILK_IMPORT k 0 else s) s
  advanceInstar s (.inst i)

/-- Reports the end of a reset: the reply, or INST_FLR (R445, R448). -/
def reportReset (s : State) (i : Nat) (x : InstReset) : State :=
  if x.reply = 1 then match s.fwq with
    | r :: _ => fwEnd s r fwOk []
    | [] => s
  else if x.reply = 2 then fwMail s 0 0x40 0 [i, fwOk]
  else s

/-- INST_RESET_DONE: an instance reset finishes: the fence lifts and the reply or INST_FLR is sent; a removal goes on, and is
over once its cores and link ports have left (R448, R450). -/
def execInstResetDone (i : Nat) (s : State) : Out :=
  .next (match mfind s.instResets i with
    | none => s
    | some x =>
      if x.phase = 0 then
        if !resetOver s i then s
        else
          let s := finishReset s i
          if x.remove then
            let x' := { x with phase := 1 }
            removeInst { s with instResets := mput s.instResets i x' } i
          else reportReset (setF { s with instResets := mdel s.instResets i } f_SEC_INST_RESETTING i 0) i x
      else
        let m := imago s i
        if !m.leaveCores.isEmpty || !m.leaveLinks.isEmpty || mget 0 s.instarDue (Unit8.inst i).key ≠ 0 then s
        else
          let s := setR (setR { s with instResets := mdel s.instResets i, imagos := mdel s.imagos i } r_SEC_INST i 0) r_CMP_EPOCH i 0
          reportReset s i x)

/-- VF_FLR: an FLR of virtual function i + 1 resets instance i; without an instance it completes at once, and during a reset it
is ignored (R449, R451). -/
def execVfFlr (i : Nat) (s : State) : Out :=
  .next (if !instExists s i || (mfind s.instResets i).isSome then s else beginReset s i 2 false)

/-- NUMVFS_LOWER: NumVFs of the SR-IOV capability is written; the instances beyond it are removed (R437, R449). -/
def execNumvfsLower (n : Nat) (s : State) : Out :=
  .next (
    if 32 < n then s
    else (List.range 32).foldl (fun s i => if n ≤ i then forceRemove s i else s) { s with numVfs := n })

/-- PF_FLR: an FLR of the physical function kills the manager's contexts, removes every instance, and returns the window
registers of the physical function to their reset values (R360, R517). -/
def execPfFlr (s : State) : Out :=
  .next (
    let s := ((s.ctxs.filter (fun kv => 32 ≤ kv.2.inst)).map Prod.fst).foldl (fun s c => teardown s c errProducerLost) s
    let s := (List.range 32).foldl forceRemove { s with numVfs := 0 }
    resetWindow { s with mail := s.mail.filter (fun m => m.dest ≠ 0) } 0)

end Sys2Proof.Machine
end

