-- ==== Sys2Proof/Machine/Keys.lean ====
section
/-!
DEFINITION. Requests about Imagos, identity, keys, composition keys and regions (R445, R453 to R464).
-/

namespace Sys2Proof.Machine

/-! ## The instance a request concerns -/

/-- The instance of a request: its own, or, from the manager, the one its payload names. -/
def FwReq.about (r : FwReq) (named : Nat) : Nat := if r.win = 0 then named else r.inst

/-- How many members of a list meet a test. -/
def countOf (l : List Nat) (p : Nat → Bool) : Nat := (l.filter p).length

/-- IMAGO_INFO: an Imago's composition and grants (R445). -/
def execImagoInfo (s : State) : Out :=
  .next (match fwFront s 0x05 with
    | none => s
    | some r =>
      let i := r.about (r.word 1 % 32)
      if !r.within (if r.win = 0 then [0x1F] else []) then fwEnd s r fwBadMsg []
      else if !instExists s i then fwEnd s r fwNoInstance []
      else
        let cores := countOf (List.range 144) (fun c => coreBound s i c)
        let awake := countOf (List.range 144) (fun c => coreBound s i c && flagF s f_CMP_CORE_AWAKE c)
        let mem := countOf (List.range 256) (fun k => flagF s f_CMP_SLIST_VALID (256 * i + k))
        let links := countOf (List.range 32) (fun p => getF s f_CMP_LINK_STATE p = 2 && getF s f_CMP_LINK_INSTANCE p = i)
        fwEnd s r fwOk [getR s r_CMP_EPOCH i, cores + awake * 2 ^ 8 + mem * 2 ^ 16 + links * 2 ^ 25, getF s f_CMP_IMG_RB_RB i,
          getF s f_SCH_INST_SLOTS i, getF s f_SCH_INST_Q_COUNT i, getF s f_SILK_RANGE_SIZE i,
          getF s f_SEC_INST_KEY_COUNT i + getF s f_SEC_INST_KEY_BASE i * 2 ^ 16 + getF s f_SEC_INST_WORLD i * 2 ^ 24
            + getF s f_SEC_INST_MEM_XTS i * 2 ^ 25])

/-! ## Identity (R462, R463) -/

/-- Is the certificate one that firmware may use: the calendar clock, while VALID, lies within its period (R462)? -/
def certUsable (s : State) : Bool :=
  !flagF s f_RTC_STATUS_VALID || (s.flash.certFrom ≤ s.rtc.secs && s.rtc.secs ≤ s.flash.certUntil)

/-- The attestation report without its signature (R463). -/
def attestBody (s : State) (i : Nat) (nonce : List Byte) : List Byte :=
  let inst := decide (i < 32)
  let slots := (List.range 256).filter (keyOwned s i)
  leBytes 4 0x54544142 ++ leBytes 2 1 ++ leBytes 2 512 ++ leBytes 8 (getR s r_CHIP_SERIAL) ++ leBytes 2 (chipId s)
    ++ leBytes 1 (getR s r_CHIP_STEPPING) ++ leBytes 1 i ++ leBytes 1 (if inst then getF s f_SEC_INST_WORLD i else 0)
    ++ List.replicate 3 0 ++ leBytes 8 s.rtc.secs ++ leBytes 4 (getR s r_RTC_HOURS)
    ++ leBytes 2 (if inst then getF s f_CMP_EPOCH_EPOCH i else 0)
    ++ leBytes 2 (getF s f_RTC_STATUS_VALID + (if inst then 2 * getF s f_SEC_INST_MEM_XTS i else 0)
      + 4 * getF s f_RST_STATE_OUT_OF_SERVICE)
    ++ nonce ++ ((List.range 6).map (fun n => leBytes 8 (getR s r_SEC_FW_DIGEST n))).flatten
    ++ Config.sha384 s.flash.ledger
    ++ (if inst && (imago s i).digest ≠ [] then (imago s i).digest else List.replicate 48 0)
    ++ Config.sha384 ((slots.map (fun k => leBytes 4 (keyAttr s k))).flatten)
    ++ leBytes 8 (((List.range 16).filter (fun k => flagF s f_SEC_CVK_VALID k && !flagF s f_SEC_CVK_REVOKED k)).foldl
      (fun a k => a + 2 ^ k) 0)
    ++ List.replicate 128 0

/-- ATTEST: a signed report about the requester, or, for the manager, any instance; an unusable certificate is answered
TIME_INVALID (R462, R463). -/
def execAttest (s : State) : Out :=
  .next (match fwFront s 0x06 with
    | none => s
    | some r =>
      let m := allBits
      let i := r.about (r.word 3 % 256)
      if !r.within ([m, m, if r.win = 0 then 0xFF else 0] ++ List.replicate 12 m) || r.wide 1 % 64 ≠ 0
          || (32 ≤ i && i ≠ 0xFF) then fwEnd s r fwBadMsg []
      else if i ≠ 0xFF && !instExists s i then fwEnd s r fwNoInstance []
      else if !certUsable s then fwEnd s r fwTimeInvalid []
      else if !hostRange (r.wide 1) 512 then fwEnd s r fwAddress []
      else
        let nonce := ((List.range 12).map (fun k => leBytes 4 (r.word (4 + k)))).flatten
        let body := attestBody s i nonce
        let sig := Config.identitySign (getR s r_CHIP_SERIAL) (Config.sha384 body)
        fwEnd (fwWrite s (r.wide 1) (body ++ sig)) r fwOk [])

/-- CERT_READ: the identity certificate chain, leaf first; ADDRESS when the buffer is too small (R462). -/
def execCertRead (s : State) : Out :=
  onFw s 0x07 [allBits, allBits, allBits] (fun r =>
    let n := s.flash.certs.length
    if r.word 3 < n || !hostRange (r.wide 1) n then fwEnd s r fwAddress []
    else fwEnd (fwWrite s (r.wide 1) s.flash.certs) r fwOk [n])

/-! ## Key requests (R454 to R459) -/

/-- Does an attribute word of a request keep R455: only USE, LEN, EXPORTABLE and P bits, LEN in range, P bits on DERIVE only? -/
def attrOk (w : Nat) : Bool :=
  let use := bitsOf w 0 2
  let len := bitsOf w 2 6
  Nat.land w 0x000704FF = w && (if use = useDerive then 4 ≤ len && len ≤ 8 else len = 4 && bitsOf w 16 3 = 0 : Bool)

/-- The attribute word of a loaded slot: VALID, GENERATED as it is, and its owner (R455). -/
def attrLoaded (r : FwReq) (w : Nat) (generated : Bool) : Nat :=
  Nat.land w 0x000704FF + 2 ^ 8 + b2n generated * 2 ^ 11 + (if r.win = 0 then 2 ^ 29 else r.inst * 2 ^ 24)

/-- Loads a slot. -/
def loadKey (s : State) (r : FwReq) (k w : Nat) (generated : Bool) (mat : List Byte) : State :=
  { setR s r_SEC_KEY_ATTR k (attrLoaded r w generated) with keyMat := mput s.keyMat k mat }

/-- Material bytes of an attribute word. -/
def attrBytes (w : Nat) : Nat := 8 * bitsOf w 2 6

/-- The first use of a slot checks its tag; `bad` lists the slots whose tags fail (R458). -/
def touchKey (s : State) (bad : List Nat) (k : Nat) : State :=
  if bad.contains k && keyValid s k && !keyIsBad s k then failKey s k else s

/-- The failure of a slot as the source of an operation with a USE: NOT_OWNER, KEY_BAD, KEY_EMPTY or KEY_USE. -/
def sourceErr (s : State) (r : FwReq) (k : Nat) (use : Nat → Bool) : Option Nat :=
  if !keyOwned s r.inst k then some fwNotOwner
  else if keyIsBad s k then some fwKeyBad
  else if !keyValid s k then some fwKeyEmpty
  else if !use (keyAttr s k) then some fwKeyUse
  else none

/-- The failure of a slot that is to be filled: NOT_OWNER, KEY_BAD, or KEY_EMPTY when it is VALID. -/
def targetErr (s : State) (r : FwReq) (k : Nat) : Option Nat :=
  if !keyOwned s r.inst k then some fwNotOwner
  else if keyIsBad s k then some fwKeyBad
  else if keyValid s k then some fwKeyEmpty
  else none

/-- Goes on unless one of the failures stands. -/
def orFail (s : State) (r : FwReq) (errs : List (Option Nat)) (f : State) : State :=
  match errs.filterMap id with
  | e :: _ => fwEnd s r e []
  | [] => f

/-- KEY_GEN: fills a slot from the random generator, whose output is free (R456). -/
def execKeyGen (bad : List Nat) (s : State) : Out :=
  onFw s 0x08 [0xFF, allBits] (fun r =>
    let k := r.word 1
    let w := r.word 2
    if !attrOk w then fwEnd s r fwBadMsg []
    else
      let s := touchKey s bad k
      let v := freeBytes s (attrBytes w)
      orFail s r [targetErr s r k] (fwEnd (loadKey v.2 r k w true v.1) r fwOk []))

/-- The key blob's parts (R457). -/
def blobMagic : Nat := 0x59454B42

/-- KEY_IMPORT: a blob is unwrapped into a slot (R456, R457). -/
def execKeyImport (bad : List Nat) (s : State) : Out :=
  onFw s 0x09 [0xFFFF, allBits, allBits] (fun r =>
    let k := r.word 1 % 256
    let wk := r.word 1 / 256
    let s := touchKey (touchKey s bad wk) bad k
    orFail s r [sourceErr s r wk (fun a => bitsOf a 0 2 = useWrap), targetErr s r k]
      (match fwRead s (r.wide 2) 112 with
        | none => fwEnd s r fwAddress []
        | some b =>
          let w := leNat ((b.drop 4).take 4)
          match Config.gcmOpen (keyBytes s wk) ((b.drop 16).take 12) (b.take 32) (b.drop 32) with
          | none => fwEnd s r fwTagFail []
          | some plain =>
            if leNat (b.take 4) ≠ blobMagic || !attrOk (Nat.land w 0xC0FFF4FF) || leNat ((b.drop 28).take 4) ≠ 0 then fwEnd s r fwBadMsg []
            else fwEnd (loadKey s r k w false (plain.take (attrBytes w))) r fwOk []))

/-- KEY_EXPORT: an EXPORTABLE slot is wrapped into a blob, under an IV that the device draws (R456, R457). -/
def execKeyExport (bad : List Nat) (s : State) : Out :=
  onFw s 0x0A [0xFFFF, allBits, allBits] (fun r =>
    let k := r.word 1 % 256
    let wk := r.word 1 / 256
    let s := touchKey (touchKey s bad wk) bad k
    orFail s r [sourceErr s r wk (fun a => bitsOf a 0 2 = useWrap), sourceErr s r k (fun a => bitAt a 10)]
      (if !hostRange (r.wide 2) 112 then fwEnd s r fwAddress []
      else
        let iv := freeBytes s 12
        let head := leBytes 4 blobMagic ++ leBytes 4 (keyAttr s k) ++ leBytes 8 (getR s r_CHIP_SERIAL) ++ iv.1 ++ leBytes 4 0
        let mat := keyBytes s k
        let sealed' := Config.gcmSeal (keyBytes s wk) iv.1 head (mat ++ List.replicate (64 - mat.length) 0)
        fwEnd (fwWrite iv.2 (r.wide 2) (head ++ sealed')) r fwOk []))

/-- KEY_DERIVE: fills a slot by HKDF-SHA-384 from a DERIVE slot with P_SLOT (R456). -/
def execKeyDerive (bad : List Nat) (s : State) : Out :=
  onFw s 0x0B ([0xFFFF, allBits, 0x3F] ++ List.replicate 10 allBits) (fun r =>
    let k := r.word 1 % 256
    let dk := r.word 1 / 256
    let w := r.word 2
    let n := r.word 3
    let info := ((List.range 10).map (fun j => leBytes 4 (r.word (4 + j)))).flatten
    if !attrOk w || 40 < n || (info.drop n).any (fun x => x ≠ 0) then fwEnd s r fwBadMsg []
    else
      let s := touchKey (touchKey s bad dk) bad k
      orFail s r [sourceErr s r dk (fun a => bitsOf a 0 2 = useDerive && bitAt a 18), targetErr s r k]
        (fwEnd (loadKey s r k w true (Config.hkdf (keyBytes s dk) (leBytes 8 (getR s r_CHIP_SERIAL)) (info.take n) (attrBytes w)))
          r fwOk []))

/-- KEY_ERASE: a slot's material, attribute word and tag are zeroed (R458, R459). -/
def execKeyErase (s : State) : Out :=
  onFw s 0x0C [0xFF] (fun r =>
    let k := r.word 1
    if !keyOwned s r.inst k then fwEnd s r fwNotOwner []
    else fwEnd { setR s r_SEC_KEY_ATTR k 0 with keyMat := mdel s.keyMat k } r fwOk [])

/-- KEY_CRYPT: a host buffer is encrypted, its tag following the ciphertext, or decrypted with its tag (R456). -/
def execKeyCrypt (bad : List Nat) (s : State) : Out :=
  onFw s 0x0D [0xFF, allBits, allBits, allBits, allBits, 0x1FFF, allBits, allBits, allBits] (fun r =>
    let k := r.word 1
    let n := r.word 6
    let iv := ((List.range 3).map (fun j => leBytes 4 (r.word (7 + j)))).flatten
    if n < 1 || 4096 < n then fwEnd s r fwBadMsg []
    else
      let s := touchKey s bad k
      orFail s r [sourceErr s r k (fun a => bitsOf a 0 2 = useEncrypt || bitsOf a 0 2 = useDecrypt)]
        (let enc := keyUse s k = useEncrypt
        match fwRead s (r.wide 2) (if enc then n else n + 16) with
        | none => fwEnd s r fwAddress []
        | some b =>
          if !hostRange (r.wide 4) (if enc then n + 16 else n) then fwEnd s r fwAddress []
          else if enc then fwEnd (fwWrite s (r.wide 4) (Config.gcmSeal (keyBytes s k) iv [] b)) r fwOk []
          else match Config.gcmOpen (keyBytes s k) iv [] b with
            | none => fwEnd s r fwTagFail []
            | some plain => fwEnd (fwWrite s (r.wide 4) plain) r fwOk []))

/-! ## Signed blobs (R464, R466, R527) -/

/-- The fields that signed blobs share: magic, op, index, signer, serial, sequence number, and the signature's check. -/
structure Blob where
  magic : Nat
  op : Nat
  index : Nat
  signer : Nat
  zero : Nat
  serial : Nat
  seq : Nat
  body : List Byte
  rsvd : Nat
  sigOk : Bool

/-- Is an entry of the enrolment table valid: it holds a key that is not revoked (R464)? -/
def cvkValid (s : State) (k : Nat) : Bool := k < 16 && flagF s f_SEC_CVK_VALID k && !flagF s f_SEC_CVK_REVOKED k

/-- A blob of 224 bytes: 128 signed, 96 of signature. -/
def blobOf (s : State) (b : List Byte) : Blob :=
  let num (o n : Nat) : Nat := leNat ((b.drop o).take n)
  ⟨num 0 4, num 4 1, num 5 1, num 6 1, num 7 1, num 8 8, num 0x10 8, (b.drop 0x18).take 97, num 0x79 7,
    Config.ecdsaOk (mget [] s.cvks (num 6 1)) (Config.sha384 (b.take 128)) ((b.drop 128).take 96)⟩

/-- CVK_UPDATE: a signed blob enrols or revokes a composition verification key (R464). -/
def execCvkUpdate (s : State) : Out :=
  onFw s 0x0E [allBits, allBits] (fun r => match fwRead s (r.wide 1) 224 with
    | none => fwEnd s r fwAddress []
    | some bytes =>
      let b := blobOf s bytes
      let enrol := b.op = 1
      if b.magic ≠ 0x4B564342 || b.op < 1 || 2 < b.op || b.index < 1 || 15 < b.index || b.zero ≠ 0 || b.rsvd ≠ 0
          || (if enrol then b.body.headD 0 ≠ 4 else b.body.any (fun x => x ≠ 0) : Bool) then fwEnd s r fwBadMsg []
      else if b.signer = b.index || !cvkValid s b.signer || b.serial ≠ getR s r_CHIP_SERIAL || b.seq ≤ s.flash.seq || !b.sigOk then
        fwEnd s r fwSigInvalid []
      else
        let s := { s with flash := { s.flash with seq := b.seq } }
        let s := if enrol then
            setR { s with cvks := mput s.cvks b.index b.body } r_SEC_CVK b.index
              (1 + leNat ((Config.sha384 b.body).take 4) % 2 ^ 32 * 2 ^ 32)
          else setF (setF { s with cvks := mdel s.cvks b.index } f_SEC_CVK_VALID b.index 0) f_SEC_CVK_REVOKED b.index 1
        fwEnd s r fwOk [])

/-- TIME_SET: a signed blob sets the calendar clock, whatever VALID says; one no newer than the last accepted is answered
TIME_INVALID (R446, R466). -/
def execTimeSet (s : State) : Out :=
  onFw s 0x0F [allBits, allBits] (fun r => match fwRead s (r.wide 1) 224 with
    | none => fwEnd s r fwAddress []
    | some bytes =>
      let b := blobOf s bytes
      if b.magic ≠ 0x4D495442 || b.op ≠ 0 || b.index ≠ 0 || b.zero ≠ 0 || b.rsvd ≠ 0 || (b.body.drop 8).any (fun x => x ≠ 0) then
        fwEnd s r fwBadMsg []
      else if !cvkValid s b.signer || b.serial ≠ getR s r_CHIP_SERIAL || !b.sigOk then fwEnd s r fwSigInvalid []
      else if b.seq ≤ s.flash.seq then fwEnd s r fwTimeInvalid []
      else
        let s := { s with
          flash := { s.flash with seq := b.seq }
          rtc := { s.rtc with secs := leNat (b.body.take 8) % 2 ^ 48, frac := 0, acc := 0, slew := 0 } }
        fwEnd (setF (setF s f_RTC_STATUS_VALID 0 1) f_RTC_STATUS_SLEWING 0 0) r fwOk [])

/-- REGION_SET: the manager sets a world region descriptor, while no secure instance exists (R453, R470). -/
def execRegionSet (s : State) : Out :=
  onFw s 0x10 [0x33F, 0xFFFFF000, 0xFFFF, 0xFFFFF000, 0xFFFF] (fun r =>
    let d := r.word 1 % 64
    if d < 16 then fwEnd s r fwBadMsg []
    else if (List.range 32).any (fun i => instExists s i && flagF s f_SEC_INST_WORLD i) then fwEnd s r fwBusy []
    else fwEnd (setR (setR s r_SEC_REGION_BASE d (r.wide 2 + bitsOf (r.word 1) 8 2)) r_SEC_REGION_LIMIT d (r.wide 4)) r fwOk [])

end Sys2Proof.Machine
end

