-- ==== Sys2Proof/Machine/Rtc.lean ====
section
/-!
DEFINITION. The calendar clock (R465 to R468, R471): its setting, slews, hours in service, and its backup supplies.
-/

namespace Sys2Proof.Machine

/-- RTC_SET: while VALID is 0 a write sets the time and VALID (R466). -/
def execRtcSet (v : Nat) (s : State) : Out :=
  .next (
    if flagF s f_RTC_STATUS_VALID then s
    else setF { s with rtc := { s.rtc with secs := v % 2 ^ 48, frac := 0, acc := 0 } } f_RTC_STATUS_VALID 0 1)

/-- The milliseconds slewed in the last 24 hours. -/
def slewSum (c : Rtc) : Nat := (c.adjs.filter (fun a => decide (c.secs < a.1 + 86400))).foldl (fun x a => x + a.2) 0

/-- RTC_ADJ: a write slews the time while VALID is 1; during a slew, out of range, or beyond 2,000 ms in 24 hours it is refused
(R466, R471). -/
def execRtcAdj (v : Nat) (s : State) : Out :=
  .next (
    let ms := signedOf v 16
    let size := ms.natAbs
    if !flagF s f_RTC_STATUS_VALID || flagF s f_RTC_STATUS_SLEWING || 2000 < size || 2000 < slewSum s.rtc + size then
      setF s f_RTC_STATUS_ADJ_REFUSED 0 1
    else
      let kept := s.rtc.adjs.filter (fun a => decide (s.rtc.secs < a.1 + 86400))
      setF { s with rtc := { s.rtc with slew := ms * 1000000000, adjs := kept ++ [(s.rtc.secs, size)] } } f_RTC_STATUS_SLEWING 0 1)

/-- SLEW_COMPLETE: the slew has been made, and SLEWING clears (R466). -/
def execSlewComplete (s : State) : Out :=
  .next (if flagF s f_RTC_STATUS_SLEWING && s.rtc.slew = 0 then setF s f_RTC_STATUS_SLEWING 0 0 else s)

/-- HOURS_TICK: an hour in service has elapsed: the count advances, time and hours are mirrored to NOR flash, and the
calibration coefficients are saved there (R467, R476). -/
def execHoursTick (s : State) : Out :=
  .next (
    if s.rtc.service < 3600 then s else
    let h := satAdd 32 (getR s r_RTC_HOURS) 1
    let saved := if s.power.coefs.isEmpty then s.flash.saved else (List.range 8).map (fun w => mget 0 s.power.coefs w)
    let s := { s with flash := { s.flash with saved := saved } }
    setR { s with rtc := { s.rtc with service := s.rtc.service - 3600, mirror := s.rtc.secs, mirrorHours := h } } r_RTC_HOURS 0 h)

/-- VBAT_SAMPLE: every 60 s, while VIN_AUX is present, VBAT is sampled, here in mV, and BATT_LOW set below 2.5 V (R468). -/
def execVbatSample (mv : Nat) (s : State) : Out :=
  .next (
    if !due s s.rtc.sampled (60 * secTicks) then s
    else setF { s with rtc := { s.rtc with sampled := s.now } } f_RTC_STATUS_BATT_LOW 0 (b2n (decide (mv < 2500))))

/-- OSC_STOP: both backup supplies are lost, or the oscillator has stopped for over 1 s: the clock restarts at the last mirror,
invalid (R467, R468). -/
def execOscStop (s : State) : Out :=
  .next (
    let s := { s with rtc := { s.rtc with secs := s.rtc.mirror, frac := 0, acc := 0, slew := 0, adjs := [], service := 0 } }
    let s := setR s r_RTC_HOURS 0 s.rtc.mirrorHours
    setF (setF (setF s f_RTC_STATUS_VALID 0 0) f_RTC_STATUS_VBAT_LOST 0 1) f_RTC_STATUS_SLEWING 0 0)

/-- A tick of 4 ns on the calendar clock, with its slew of 500 ppm, 2 ps a tick (R465, R466); a second in service counts while
VIN_MAIN is within its limits (R467). -/
def rtcTick (c : Rtc) (inService : Bool) : Rtc :=
  let step : Int := if 0 < c.slew then min 2 c.slew else if c.slew < 0 then max (-2) c.slew else 0
  let acc := c.acc + ((4000 + step) * 32768).toNat
  let carry := acc / 10 ^ 12
  let frac := c.frac + carry
  { c with
    slew := c.slew - step, acc := acc % 10 ^ 12, frac := frac % 32768, secs := (c.secs + frac / 32768) % 2 ^ 48
    service := if inService then c.service + frac / 32768 else c.service }

end Sys2Proof.Machine
end

