-- ==== Sys2Proof/Machine/Power.lean ====
section
/-!
DEFINITION. Power (R472 to R484, R489, R490, R494 to R496): the budget arbiter and its calibration, voltages and frequencies,
current limits, droop, soft caps, supply dips, re-plans, and the events and interrupts of the PWR and RST blocks.
-/

namespace Sys2Proof.Machine

/-! ## Events of the PWR and RST blocks (R496, R528) -/

/-- The armed bit of PWR_EVT's interrupt among the armed bits of R402. -/
def armPwr : Nat := 100

/-- The armed bit of RST_EVT's interrupt. -/
def armRst : Nat := 101

/-- Raises an event bit: while armed, one that EN and MASK enable sends its message, and the armed bit clears (R402). -/
def raiseBit (s : State) (f en mask vec : RF) (arm : Nat) : State :=
  let s := setF s f 0 1
  if s.armed.contains arm && flagF s en && bitAt (getF s mask) f.lo then
    sendMsi { s with armed := s.armed.filter (fun x => x ≠ arm) } 0 (getF s vec)
  else s

/-- Raises a bit of PWR_EVT. -/
def raisePwr (s : State) (f : RF) : State :=
  raiseBit s f f_PWR_IRQ_CFG_EN f_PWR_IRQ_CFG_MASK f_PWR_IRQ_CFG_VECTOR armPwr

/-- Raises a bit of RST_EVT. -/
def raiseRst (s : State) (f : RF) : State :=
  raiseBit s f f_RST_IRQ_CFG_EN f_RST_IRQ_CFG_MASK f_RST_IRQ_CFG_VECTOR armRst

/-- Sets an armed bit. -/
def armBit (s : State) (k : Nat) : State := if s.armed.contains k then s else { s with armed := s.armed ++ [k] }

/-- PWR_EVT_WRITE: each 1 clears its bit, and the interrupt is armed again (R496). -/
def execPwrEvtWrite (v : Nat) (s : State) : Out :=
  .next (armBit (setR s r_PWR_EVT 0 (getR s r_PWR_EVT &&& (0xFF - v % 256))) armPwr)

/-- RST_EVT_WRITE: the same for RST_EVT (R528). -/
def execRstEvtWrite (v : Nat) (s : State) : Out :=
  .next (armBit (setR s r_RST_EVT 0 (getR s r_RST_EVT &&& (0x7F - v % 128))) armRst)

/-! ## Cores, wings and their voltages (R474) -/

/-- The enabled cores of the chip. -/
def enabledCores (s : State) : List Nat := List.range (getF s f_CHIP_CAP_CORE_ENABLED)

/-- The enabled cores of a wing (R29). -/
def wingCores (s : State) (w : Nat) : List Nat :=
  (List.range (getF s f_CHIP_CAP_WING_ENABLED w)).map (fun k => getF s f_CHIP_CAP_WING_FIRST_ID w + k)

/-- The physical core that has a logical ID: wing × 20 + position. -/
def physOf (s : State) (c : Nat) : Nat := mget 0 s.corePhys c

/-- Is a core awake (R493)? -/
def awake (s : State) (c : Nat) : Bool := getF s f_THM_CORE_AGE_DSTATE c = 0

/-- The frequency a core runs at. -/
def stepsOf (s : State) (c : Nat) : Nat := getF s f_PWR_CORE_FREQ_STEPS c

/-- The last grant of a core. -/
def grantOf (s : State) (c : Nat) : Nat := getF s f_PWR_CORE_FREQ_GRANT c

/-- The voltage in mV that a core needs at a frequency: its fused curve and its ageing offset (R474). -/
def coreMv (s : State) (c n : Nat) : Nat := Config.voltCurve (physOf s c) n + 5 * getF s f_THM_CORE_FMAX_VOFS c

/-- The highest voltage that any awake core of a wing needs, at the frequencies given (R474). -/
def wingMv (s : State) (w : Nat) (f : Nat → Nat) : Nat :=
  ((wingCores s w).filter (awake s)).foldl (fun m c => max m (coreMv s c (f c))) 0

/-- A core's clock changes frequency; it stands still during a coolant stop (R474, R488). -/
def setSteps (s : State) (c n : Nat) : State :=
  retimeCore (setF s f_PWR_CORE_FREQ_STEPS c n) c (if flagF s f_PWR_STATUS_COOLANT_STOP then 0 else n)

/-- A core's frequency is lowered at once; the voltage follows 10 µs later (R474). -/
def lowerCore (s : State) (c n : Nat) : State :=
  if !awake s c || stepsOf s c ≤ n then s
  else setSteps { s with power := { s.power with lowAt := mput s.power.lowAt (wingOf s c) s.now } } c n

/-- The highest FMAX of a wing. -/
def wingFmax (s : State) (w : Nat) : Nat := (wingCores s w).foldl (fun m c => max m (getF s f_THM_CORE_FMAX_FMAX c)) 0

/-- The hard limit of a core (R480): its maximum, its wing's ceiling, and F_LOW, 64 steps, while issue is stopped (R482). -/
def hardLimit (s : State) (c : Nat) : Nat :=
  let n := min (getF s f_THM_CORE_FMAX_FMAX c) (getF s f_THM_WING_CEIL (wingOf s c))
  if chipStopped s then 64 else max 64 n

/-- A hard limit acts at once on every core (R480). -/
def enforceLimits (s : State) : State := (enabledCores s).foldl (fun s c => lowerCore s c (hardLimit s c)) s

/-- The frequency a core may rise to: its grant, within the hard limit of the moment, which a plan may have lowered since
the arbitration (R35, R474, R480). -/
def raiseTo (s : State) (c : Nat) : Nat := min (grantOf s c) (hardLimit s c)

/-! ## Raises and their holds (R474, R479) -/

/-- Are raises held in a wing? -/
def stepHeld (s : State) (w : Nat) : Bool := flagF s f_PWR_DOM_STAT_RAISE_HOLD w

/-- Holds the raises of a wing from now; a voltage slew in progress stops at the voltage reached, at 5 mV/µs (R479). -/
def holdRaise (s : State) (w : Nat) : State :=
  let p := s.power
  let s := setF { s with power := { p with holdFrom := mput p.holdFrom w s.now, slew := mdel p.slew w } } f_PWR_DOM_STAT_RAISE_HOLD w 1
  match mfind p.slew w with
  | none => s
  | some t =>
    let mv := getF s f_THM_WING_VCORE_MV w
    setF s f_THM_WING_VCORE_MV w (max mv (min (mv + 5 * (since s t / usTicks)) (wingMv s w (raiseTo s))))

/-- Does a grant call for a raise in a wing? -/
def wantsRaise (s : State) (w : Nat) : Bool := (wingCores s w).any (fun c => awake s c && decide (stepsOf s c < raiseTo s c))

/-- A raise that is granted and not held begins with the voltage (R474, R479). -/
def startRaise (s : State) (w : Nat) : State :=
  if stepHeld s w || chipStopped s || (mfind s.power.slew w).isSome || !wantsRaise s w then s
  else { s with power := { s.power with slew := mput s.power.slew w s.now } }

/-- VOLTAGE_REACHED: a VCORE slew reaches its target, and the raised frequencies step (R474). -/
def execVoltageReached (w : Nat) (s : State) : Out :=
  .next (match mfind s.power.slew w with
    | none => s
    | some t =>
      let target := wingMv s w (fun c => max (stepsOf s c) (raiseTo s c))
      let mv := getF s f_THM_WING_VCORE_MV w
      if since s t * 5 < (target - mv) * usTicks then s
      else
        let s := setF { s with power := { s.power with slew := mdel s.power.slew w } } f_THM_WING_VCORE_MV w (max mv target)
        ((wingCores s w).filter (fun c => awake s c && decide (stepsOf s c < raiseTo s c))).foldl (fun s c =>
          setSteps s c (raiseTo s c)) s)

/-- VOLTAGE_LOWERING: 10 µs after a lowering, VCORE falls to what the frequencies need (R474). -/
def execVoltageLowering (w : Nat) (s : State) : Out :=
  .next (match mfind s.power.lowAt w with
    | none => s
    | some t =>
      if !due s t (10 * usTicks) then s
      else
        let up := (mfind s.power.slew w).isSome
        let need := wingMv s w (fun c => if up then max (stepsOf s c) (raiseTo s c) else stepsOf s c)
        let s := { s with power := { s.power with lowAt := mdel s.power.lowAt w } }
        setF s f_THM_WING_VCORE_MV w (min (getF s f_THM_WING_VCORE_MV w) need))

/-- RAISE_HOLD_EXPIRY: 50 µs after the last droop, dip or wake, a held raise begins if the grant still calls for it (R479). -/
def execRaiseHoldExpiry (w : Nat) (s : State) : Out :=
  .next (
    if !stepHeld s w || chipStopped s || !due s (mget 0 s.power.holdFrom w) (50 * usTicks) then s
    else startRaise (setF s f_PWR_DOM_STAT_RAISE_HOLD w 0) w)

/-- DROOP_EVENT: a core's supply falls 30 mV below plan: its clock is stretched, the event counts, and raises are held (R478,
R479). -/
def execDroopEvent (c : Nat) (s : State) : Out :=
  .next (
    if getF s f_CHIP_CAP_CORE_ENABLED ≤ c || !awake s c then s
    else
      let w := wingOf s c
      let l := if s.power.droops.contains c then s.power.droops else s.power.droops ++ [c]
      holdRaise (countR { s with power := { s.power with droops := l } } r_PWR_DOM_DROOP w 1) w)

/-- DROOP_END: the supply recovers, and the stretching ends (R478). -/
def execDroopEnd (c : Nat) (s : State) : Out :=
  .next { s with power := { s.power with droops := s.power.droops.filter (fun x => x ≠ c) } }

/-! ## Current limits (R473) -/

/-- ILIM_EXCEED: a domain's averaged current, here in A, exceeds its limit, and the domain limits. -/
def execIlimExceed (d amps : Nat) (s : State) : Out :=
  .next (
    if 36 ≤ d || amps ≤ getF s f_PWR_DOM_ILIM_AMPS d then s
    else setF (setF s f_PWR_DOM_STAT_LIMITING d 1) f_PWR_STATUS_ILIM_ACTIVE 0 1)

/-- LIMITING_END: the average is back at its limit: limiting ends. -/
def execLimitingEnd (d amps : Nat) (s : State) : Out :=
  .next (
    if 36 ≤ d || getF s f_PWR_DOM_ILIM_AMPS d < amps then s
    else
      let s := setF s f_PWR_DOM_STAT_LIMITING d 0
      setF s f_PWR_STATUS_ILIM_ACTIVE 0 (b2n ((List.range 36).any (fun k => flagF s f_PWR_DOM_STAT_LIMITING k))))

/-! ## Calibration (R476) -/

/-- The agreement of a wing's last ten counting calibrations: how many lie within 3% of their mean. -/
def agreeing (l : List Nat) : Nat :=
  let n := l.length
  let sum := l.foldl (· + ·) 0
  (l.filter (fun k => decide (100 * (n * k) ≤ 103 * sum) && decide (97 * sum ≤ 100 * (n * k)))).length

/-- Does a wing meet the agreement rule? -/
def agrees (s : State) (w : Nat) : Bool := agreeing (mget [] s.power.hist w) = 10

/-- A wing's coefficient in 1/10,000: the measured or saved one, else 1.25 times the factory's (R476). -/
def wingCoef (s : State) (w : Nat) : Nat :=
  match mfind s.power.coefs w with
  | some k => k
  | none => s.flash.factory.getD w 10000 * 5 / 4

/-- The wings with an enabled core, which alone take part in the rule. -/
def ruleWings (s : State) : List Nat := (List.range 8).filter (fun w => getF s f_CHIP_CAP_WING_ENABLED w ≠ 0)

/-- The spread of a list of coefficients, in units of 0.01% of their mean. -/
def spreadOf (l : List Nat) : Nat :=
  let sum := l.foldl (· + ·) 0
  if sum = 0 then 0 else 10000 * l.length * (l.foldl max 0 - l.foldl min (l.headD 0)) / sum

/-- Brings PWR_CAL up to date, and lets the cap rise to 100% when the rule holds (R476). -/
def settleCal (s : State) : State :=
  let ws := ruleWings s
  let hist (w : Nat) : List Nat := mget [] s.power.hist w
  let s := setF s f_PWR_CAL_AGREE 0 (if ws.isEmpty then 0 else ws.foldl (fun m w => min m (agreeing (hist w))) 10)
  let s := setF s f_PWR_CAL_WINGS_OK 0 (ws.foldl (fun m w => m + b2n (agrees s w) * 2 ^ w) 0)
  let s := setF s f_PWR_CAL_SPREAD 0 (min 65535 (ws.foldl (fun m w => max m (spreadOf (hist w))) 0))
  let ok := ws.any (agrees s) && ws.all (fun w => agrees s w || decide (mget 0 s.power.counted w < 10))
  if ok && !flagF s f_PWR_CAL_CAL_DONE then
    raisePwr (setF (setF s f_PWR_CAL_CAL_DONE 0 1) f_PWR_CAL_FACTORY 0 0) f_PWR_EVT_CAL_DONE
  else s

/-- One wing's calibration: measured and estimated energy of the millisecond, and the average VCORE current in A. It counts
at 20% of the rated 280 A. -/
def calibrateWing (s : State) (w measured estimated amps : Nat) : State :=
  if amps < 56 || estimated = 0 then s
  else
    let p := s.power
    let k := 10000 * measured / estimated
    let s := { s with power := { p with
      hist := mput p.hist w ((k :: mget [] p.hist w).take 10)
      counted := mput p.counted w (mget 0 p.counted w + 1) } }
    if agrees s w then { s with power := { s.power with coefs := mput s.power.coefs w k } } else s

/-- CALIBRATE: every 1 ms the wings' coefficients are updated and CAL_DONE evaluated. `energy` gives, by wing, measured and
estimated energy and the average VCORE current in A. -/
def execCalibrate (energy : List (Nat × Nat × Nat)) (s : State) : Out :=
  .next (
    if !flagF s f_RST_STATE_READY || !due s s.power.calAt msTicks then s
    else
      let s := { s with power := { s.power with calAt := s.now } }
      settleCal ((ruleWings s).foldl (fun s w =>
        let e := energy.getD w (0, 0, 0)
        calibrateWing s w e.1 e.2.1 e.2.2) s))

/-- CAL_RESTART: PWR_CMD CAL_RESTART returns to the factory coefficients (R476). -/
def execCalRestart (s : State) : Out :=
  .next (
    let s := { s with power := { s.power with coefs := [], hist := [], counted := [] } }
    settleCal (setF (setF s f_PWR_CAL_CAL_DONE 0 0) f_PWR_CAL_FACTORY 0 1))

/-- A change of VOFS in a wing invalidates its coefficients and discards its history (R476). -/
def dropCal (s : State) (w : Nat) : State :=
  let p := s.power
  { s with
    power := { p with coefs := mdel p.coefs w, hist := mdel p.hist w }
    flash := { s.flash with saved := if s.flash.saved.isEmpty then [] else s.flash.saved.set w 0 } }

/-! ## The budget arbiter (R475, R477) -/

/-- A core's power in mW at a frequency: its activity estimate, priced at the voltage, by its wing's coefficient; in diapause,
its leakage. -/
def estMw (s : State) (acts : List Nat) (c n : Nat) : Nat :=
  if getF s f_THM_CORE_AGE_DSTATE c = 2 then Config.leakage (physOf s c)
  else Config.corePower (acts.getD c 0) n (coreMv s c n) * wingCoef s (wingOf s c) / 10000

/-- The sum of an estimate over cores. -/
def sumMw (l : List Nat) (f : Nat → Nat) : Nat := l.foldl (fun a c => a + f c) 0

/-- The cap of the arbiter in mW, with the factory rule and the supply ramp of R482: over 100 µs from the power of every core
at F_LOW to the full cap. -/
def capMw (s : State) (acts : List Nat) : Nat :=
  let full := 1000 * getF s f_PWR_PKG_CAP_WATTS
  let cap := if flagF s f_PWR_CAL_CAL_DONE then full else full * 8 / 10
  if getF s f_PWR_STATUS_SUPPLY = 3 then
    let low := sumMw (enabledCores s) (fun c => estMw s acts c 64)
    let t := min (since s s.power.timerAt) (100 * usTicks)
    min cap (low + (full - low) * t / (100 * usTicks))
  else cap

/-- What the arbiter grants each core. `dom` gives each domain's current in A and voltage in mV. -/
def grants (s : State) (acts : List Nat) (dom : List (Nat × Nat)) : List (Nat × Nat) :=
  let others := (List.range 24).map (fun k => dom.getD (12 + k) (0, 0))
  let fixed : Nat := (others.foldl (fun (a : Nat) d => a + d.1 * d.2) 0) * 105 / 100
  let deferred (c : Nat) : Bool := (mfind s.power.preCap c).isSome
  let heldGrants := ((enabledCores s).filter deferred).map (fun c => (c, max 64 (min (hardLimit s c) (mget 64 s.power.preCap c))))
  let heldMw := heldGrants.foldl (fun a g => a + estMw s acts g.1 g.2) 0
  let avail : Int := (capMw s acts : Int) - fixed - s.power.excess - heldMw
  let free := (enabledCores s).filter (fun c => !deferred c)
  let target (c : Nat) : Nat := min (hardLimit s c) (getF s f_PWR_CORE_FCAP_STEPS c)
  let fits (n : Nat) : Bool := decide ((sumMw free (fun c => estMw s acts c (min (target c) n)) : Int) ≤ avail)
  let ceil := ((List.range 121).filter (fun k => fits (64 + k))).foldl (fun m k => max m (64 + k)) 64
  heldGrants ++ free.map (fun c => (c, max 64 (min (target c) ceil)))

/-- ARBITRATE: every 10 µs the budget arbiter grants core frequencies: a lowering acts at once, a raise follows its wing's
voltage (R474, R475, R477). The operands are the activity estimates, each domain's current in A and voltage in mV, and the
package power of the last millisecond in W. -/
def execArbitrate (acts : List Nat) (dom : List (Nat × Nat)) (avgW : Nat) (s : State) : Out :=
  .next (
    if !flagF s f_RST_STATE_READY || !due s s.power.arbAt (10 * usTicks) then s
    else
      let excess := 1000 * (avgW - getF s f_PWR_PKG_CAP_WATTS)
      let s := settleCaps { s with power := { s.power with arbAt := s.now, excess := excess } }
      let s := (List.range 36).foldl (fun s d =>
        let x := dom.getD d (0, 0)
        setF (setF s f_PWR_DOM_STAT_AMPS d x.1) f_PWR_DOM_STAT_MV d x.2) s
      let gs := grants s acts dom
      let s := setF s f_PWR_PKG_POWER_AVG_W 0 (min 4095 avgW)
      let s := setF s f_PWR_PKG_POWER_GRANT_W 0 (min 4095 ((gs.foldl (fun a g => a + estMw s acts g.1 g.2) 0) / 1000))
      let s := gs.foldl (fun s g => lowerCore (setF s f_PWR_CORE_FREQ_GRANT g.1 g.2) g.1 g.2) s
      (List.range 8).foldl startRaise s)

/-! ## Soft caps (R480, R481) -/

/-- The collective actions that run in the brood of an instance. -/
def runningActions (s : State) (i : Nat) : List (Nat × Nat × Bool) :=
  (s.colls.filter (fun kv => kv.2.inst = i)).flatMap (fun kv =>
    (if kv.2.sendSt = 1 then [(kv.1, kv.2.step, false)] else []) ++ (if kv.2.recvSt = 1 then [(kv.1, kv.2.step, true)] else []))

/-- A soft cap is written that concerns some cores: those of an Imago with a running collective action keep their grants; a cap
written while another is deferred joins it (R481). -/
def deferCap (s : State) (cores : List Nat) : State :=
  let held := cores.filter (fun c => coreBound s (getF s f_CMP_CORE_INSTANCE c) c
    && !(runningActions s (getF s f_CMP_CORE_INSTANCE c)).isEmpty)
  if held.isEmpty then s else
  let p := s.power
  let ops := ((held.map (fun c => getF s f_CMP_CORE_INSTANCE c)).eraseDups).flatMap (runningActions s)
  let s := { s with power := { p with
    capAt := if p.preCap.isEmpty then s.now else p.capAt
    capOps := (p.capOps ++ ops).eraseDups
    preCap := held.foldl (fun m c => if (mfind m c).isSome then m else mput m c (grantOf s c)) p.preCap } }
  setF (held.foldl (fun s c => setF s f_PWR_CORE_FREQ_DEFERRED c 1) s) f_PWR_STATUS_CAP_PENDING 0 1

/-- PWR_PKG_CAP_WRITE: a value from 1,000 to 3,200 W is taken; a lower one is a soft cap (R481, R496). -/
def execPwrPkgCapWrite (v : Nat) (s : State) : Out :=
  .next (
    let w := v % 4096
    let old := getF s f_PWR_PKG_CAP_WATTS
    if w < 1000 || 3200 < w then s
    else if w < old then setF (deferCap s (enabledCores s)) f_PWR_PKG_CAP_WATTS 0 w
    else setF s f_PWR_PKG_CAP_WATTS 0 w)

/-- PWR_CORE_FCAP_WRITE: a value from 64 to 184 is taken; a lower one is a soft cap of that core (R481, R496). -/
def execPwrCoreFcapWrite (c v : Nat) (s : State) : Out :=
  .next (
    let n := v % 256
    if 144 ≤ c || n < 64 || 184 < n then s
    else if n < getF s f_PWR_CORE_FCAP_STEPS c then setF (deferCap s [c]) f_PWR_CORE_FCAP_STEPS c n
    else setF s f_PWR_CORE_FCAP_STEPS c n)

/-- CAP_DEFER_EXPIRY: 2 ms after a deferred cap it takes effect, and the commands of the actions still running in the broods
concerned are marked CAPPED (R481). -/
def execCapDeferExpiry (s : State) : Out :=
  .next (
    let p := s.power
    if p.preCap.isEmpty || !due s p.capAt (2 * msTicks) then s
    else
      let insts := p.preCap.map (fun kv => getF s f_CMP_CORE_INSTANCE kv.1)
      let marked := (s.colls.filter (fun kv => insts.contains kv.2.inst && (kv.2.sendSt = 1 || kv.2.recvSt = 1))).filterMap (fun kv => kv.2.cmd)
      let s := p.preCap.foldl (fun s kv => setF s f_PWR_CORE_FREQ_DEFERRED kv.1 0) { s with power := { p with preCap := [], capOps := [] } }
      setF (marked.foldl (fun s id => modCmd s id (fun c => { c with capped := true })) s) f_PWR_STATUS_CAP_PENDING 0 0)

/-! ## Stopping and resuming issue (R482, R483, R489) -/

/-- Every core goes to F_LOW at once, and raises are held (R479, R482, R488). -/
def forceLow (s : State) : State :=
  (List.range 8).foldl holdRaise ((enabledCores s).foldl (fun s c => if awake s c then setSteps s c 64 else s) s)

/-- Issue stops: the times of R483 stand still from now. -/
def noteStop (s : State) : State := if s.stopSince.isSome then s else { s with stopSince := some s.now }

/-- Issue resumes, once nothing stops it: raises stay held for 50 µs more, and a re-plan that waited begins (R479, R483,
R495). -/
def noteResume (s : State) : State :=
  if chipStopped s then s else
  match s.stopSince with
  | none => s
  | some t =>
    let s := { s with stopSince := none, stops := s.stops ++ [(t, s.now)] }
    let s := (List.range 8).foldl holdRaise s
    if s.power.replanDue then setF { s with power := { s.power with replanDue := false } } f_THM_REPLAN_STAT_BUSY 0 1 else s

/-- The supply ramp starts (R482). -/
def startRamp (s : State) : State :=
  setF { s with power := { s.power with timerAt := s.now } } f_PWR_STATUS_SUPPLY 0 3

/-- Dips within the window (R484). -/
def recentDips (s : State) : List DWord :=
  s.power.dips.filter (fun t => !due s t (getF s f_PWR_DIP_CFG_WINDOW_S * secTicks))

/-- Counts a dip, and raises DIP_ALERT when the dips of the window reach the threshold; again only after the count has fallen
below it (R484). -/
def countDip (s : State) : State :=
  let old := recentDips s
  let limit := getF s f_PWR_DIP_CFG_THRESH
  let alerted := s.power.alerted && decide (limit ≤ old.length)
  let hit := !alerted && decide (limit ≤ old.length + 1)
  let s := countR { s with power := { s.power with dips := old ++ [s.now], alerted := alerted || hit } } r_PWR_DIP_COUNT 0 1
  if hit then raisePwr s f_PWR_EVT_DIP_ALERT else s

/-- VIN_DIP: VIN_MAIN, in mV, falls below 1.71 V: from NORMAL or RAMP every core goes to F_LOW, issue stops, the dip counts and
its log begins; in HOLD, where it is below 1.74 V as well, the timer stops (R482). -/
def execVinDip (mv : Nat) (s : State) : Out :=
  .next (
    let st := getF s f_PWR_STATUS_SUPPLY
    if s.aon.off || 1710 ≤ mv || mv < 1620 then s
    else if st = 1 then s
    else if st = 2 then setF s f_PWR_STATUS_SUPPLY 0 1
    else
      let s := countDip (noteStop (setF s f_PWR_STATUS_SUPPLY 0 1))
      let s := setF (setF s f_PWR_DIP_LOG_DURATION_US 0 0) f_PWR_DIP_LOG_MIN_MV 0 mv
      forceLow (setF s f_PWR_DIP_LOG_SECONDS 0 (s.rtc.secs % 2 ^ 32)))

/-- VIN_RECOVER: VIN_MAIN is back at 1.74 V: the 1 ms timer starts. `us` is the time spent below 1.71 V and `mv` the lowest
voltage seen, which the log takes (R482). -/
def execVinRecover (us mv : Nat) (s : State) : Out :=
  .next (
    if getF s f_PWR_STATUS_SUPPLY ≠ 1 then s
    else
      let s := satF s f_PWR_DIP_LOG_DURATION_US 0 us
      let s := setF s f_PWR_DIP_LOG_MIN_MV 0 (min mv (getF s f_PWR_DIP_LOG_MIN_MV))
      setF { s with power := { s.power with timerAt := s.now } } f_PWR_STATUS_SUPPLY 0 2)

/-- HOLD_SUPPLY_DROP: VIN_MAIN falls below 1.74 V in HOLD: the timer stops (R482). -/
def execHoldSupplyDrop (s : State) : Out :=
  .next (if getF s f_PWR_STATUS_SUPPLY = 2 then setF s f_PWR_STATUS_SUPPLY 0 1 else s)

/-- DIP_HOLD_EXPIRY: the timer expires: issue resumes, and the power ramp starts (R482). -/
def execDipHoldExpiry (s : State) : Out :=
  .next (if getF s f_PWR_STATUS_SUPPLY = 2 && due s s.power.timerAt msTicks then noteResume (startRamp s) else s)

/-- RAMP_END: 100 µs of ramp have passed, and the supply is NORMAL (R482). -/
def execRampEnd (s : State) : Out :=
  .next (
    if getF s f_PWR_STATUS_SUPPLY = 3 && due s s.power.timerAt (100 * usTicks) then setF s f_PWR_STATUS_SUPPLY 0 0 else s)

/-! ## Re-plans (R494, R495) -/

/-- REPLAN: THM_CMD REPLAN, or 168 hours of service, starts a re-plan; while issue is stopped it waits (R495). -/
def execReplan (command : Bool) (s : State) : Out :=
  .next (
    let late := command || getF s f_THM_REPLAN_HOURS_HOURS + 168 ≤ getR s r_RTC_HOURS
    if !late || flagF s f_THM_REPLAN_STAT_BUSY || !flagF s f_RST_STATE_READY then s
    else if chipStopped s then { s with power := { s.power with replanDue := true } }
    else setF s f_THM_REPLAN_STAT_BUSY 0 1)

/-- The re-plan of one core from its frequency and voltage offset (R495): (FMAX, VOFS, slack, AGED_OUT). -/
def replanFrom (s : State) (c d drift : Nat) : Nat → Nat → Nat → Nat × Nat × Nat × Bool
  | 0, n, v => (n, v, 0, true)
  | k + 1, n, v =>
    let p := physOf s c
    let slack := Config.replicaSlack p d n (Config.voltCurve p n + 5 * v)
    if 1200 + n * drift ≤ n * slack then (n, v, slack, false)
    else if v + 1 ≤ 6 then replanFrom s c d drift k n (v + 1)
    else if 80 < n then replanFrom s c d drift k (n - 1) v
    else (n, v, slack, true)

/-- A part's record of a core's age. -/
def ageOf (s : State) (p : Nat) : Age :=
  (mfind s.flash.ageing p).getD ⟨s.flash.fused.getD p 0, 0, false, 0, 0, []⟩

/-- Re-plans one core with the degradation measured: its registers and the ageing record. -/
def replanCore (s : State) (c d : Nat) : State :=
  let p := physOf s c
  let a := ageOf s p
  let n := getF s f_THM_CORE_FMAX_FMAX c
  let v := getF s f_THM_CORE_FMAX_VOFS c
  let r := replanFrom s c d (Config.drift p d a.past) 130 n v
  let changed := r.1 ≠ n || r.2.1 ≠ v
  let s := if r.2.1 ≠ v then dropCal s (wingOf s c) else s
  let s := setF (setF (setF s f_THM_CORE_FMAX_FMAX c r.1) f_THM_CORE_FMAX_VOFS c r.2.1) f_THM_CORE_FMAX_AGED_OUT c
    (b2n (r.2.2.2 || a.aged))
  let s := setF (setF s f_THM_CORE_AGE_DEGR_PPM c (min 65535 d)) f_THM_CORE_AGE_SLACK_PS c (min 4095 r.2.2.1)
  let s := { s with flash := { s.flash with
    ageing := mput s.flash.ageing p ⟨r.1, r.2.1, r.2.2.2 || a.aged, d, r.2.2.1, a.past ++ [d]⟩ } }
  if changed then setF s f_THM_REPLAN_STAT_CHANGED 0 (getF s f_THM_REPLAN_STAT_CHANGED + 1) else s

/-- REPLAN_COMPLETE: the re-plan of every core ends: FMAX is lowered or VOFS raised, a lowered FMAX acts at once, and REPLAN is
raised. `degr` gives each logical core's degradation in ppm (R495). -/
def execReplanComplete (degr : List Nat) (s : State) : Out :=
  .next (
    if !flagF s f_THM_REPLAN_STAT_BUSY || chipStopped s then s
    else
      let s := setF s f_THM_REPLAN_STAT_CHANGED 0 0
      let s := (enabledCores s).foldl (fun s c => replanCore s c (degr.getD c 0)) s
      let h := getR s r_RTC_HOURS
      let s := setF { s with flash := { s.flash with replanAt := h } } f_THM_REPLAN_HOURS_HOURS 0 h
      raisePwr (enforceLimits (settleCal (setF s f_THM_REPLAN_STAT_BUSY 0 0))) f_PWR_EVT_REPLAN)

end Sys2Proof.Machine
end

