-- ==== Sys2Proof/Machine/Thermal.lean ====
section
/-!
DEFINITION. Temperature (R485, R486), the end of a coolant stop and the resumption from it (R488, R489), and diapause (R491 to
R493).
-/

namespace Sys2Proof.Machine

/-! ## Sensors (R485, R486) -/

/-- The reading of a sensor, in °C. -/
def tempOf (s : State) (n : Nat) : Nat := mget 0 s.power.temps n

/-- The sensors that count toward a wing: its cores, its Gate unit and the four of its base die (R485). -/
def wingSensors (s : State) (w : Nat) : List Nat :=
  wingCores s w ++ [144 + w] ++ (List.range 4).map (fun k => 152 + 4 * (w / 2) + k)

/-- The hottest of a list of sensors. -/
def hottest (s : State) (l : List Nat) : Nat := l.foldl (fun m n => max m (tempOf s n)) 0

/-- The first index below `n` at which a function is greatest. -/
def firstMax (f : Nat → Nat) : Nat → Nat
  | 0 => 0
  | n + 1 => if f (firstMax f n) < f n then n else firstMax f n

/-- F_LOW, 800 MHz. -/
def fLow : Nat := 64

/-- The thermal controller's action on one wing (R485). -/
def thermalWing (s : State) (w : Nat) : State :=
  let t := hottest s (wingSensors s w)
  let top := wingFmax s w
  let limit := getF s f_THM_CFG_THROTTLE_C
  let ceil := getF s f_THM_WING_CEIL w
  let s := setF s f_THM_WING_TJ_C w (min 255 t)
  let rise := t + getF s f_THM_CFG_HYST < limit && (match mfind s.power.raisedAt w with
    | some a => due s a msTicks
    | none => true)
  let ceil' := if 100 ≤ t then fLow else if limit ≤ t then max fLow (ceil - 4) else if rise then min top (ceil + 1) else ceil
  let s := if ceil < ceil' then { s with power := { s.power with raisedAt := mput s.power.raisedAt w s.now } } else s
  let began := ceil' < top && !flagF s f_THM_WING_THROTTLE w
  let s := setF (setF s f_THM_WING_CEIL w ceil') f_THM_WING_THROTTLE w (b2n (decide (ceil' < top)))
  let s := if began then raisePwr s f_PWR_EVT_THROTTLE else s
  if 105 ≤ t && !flagF s f_THM_WING_EMERGENCY w then raisePwr (setF s f_THM_WING_EMERGENCY w 1) f_PWR_EVT_EMERGENCY
  else if t < 100 then setF s f_THM_WING_EMERGENCY w 0 else s

/-- The pacing of one HBM stack, and its registers (R237, R486). -/
def thermalStack (s : State) (k : Nat) : State :=
  let t := tempOf s (168 + k)
  let old := mget 100 s.power.pace k
  let new := if 93 ≤ t then 25 else if 90 ≤ t then 50 else if t < 88 then 100 else old
  let s := setF (setF s f_MEM_STACK_STAT_TEMP k (min 255 t)) f_MEM_STACK_STAT_REFRESH_X2 k (b2n (decide (85 < t)))
  let s := { s with power := { s.power with pace := mset 100 s.power.pace k new } }
  if new = 25 && old ≠ 25 then raisePwr s f_PWR_EVT_STACK_HOT else s

/-- THERMAL_SAMPLE: every 100 µs the sensors are read, and wing ceilings and stack pacing adjusted. `temps` gives sensors with
their readings in °C; one it leaves out keeps its reading, and those of disabled cores are not read (R485, R486). -/
def execThermalSample (temps : List (Nat × Nat)) (s : State) : Out :=
  .next (
    if s.aon.off || !due s s.power.sampleAt (100 * usTicks) then s
    else
      let read := temps.filter (fun x => decide (x.1 < 176) && (decide (144 ≤ x.1) || (enabledCores s).contains x.1))
      let s := { s with power := { s.power with
        sampleAt := s.now, temps := read.foldl (fun m x => mput m x.1 x.2) s.power.temps } }
      let s := (List.range 8).foldl thermalStack ((List.range 8).foldl thermalWing s)
      let hot := firstMax (fun w => getF s f_THM_WING_TJ_C w) 8
      let stack := firstMax (fun k => tempOf s (168 + k)) 8
      let s := setF (setF s f_THM_STATUS_HOT_C 0 (getF s f_THM_WING_TJ_C hot)) f_THM_STATUS_HOT_WING 0 hot
      let s := setF (setF s f_THM_STATUS_HOT_STACK_C 0 (min 255 (tempOf s (168 + stack)))) f_THM_STATUS_HOT_STACK 0 stack
      let any (f : RF) : Nat := b2n ((List.range 8).any (fun w => flagF s f w))
      let s := setF (setF s f_THM_STATUS_THROTTLING 0 (any f_THM_WING_THROTTLE)) f_THM_STATUS_EMERGENCY 0 (any f_THM_WING_EMERGENCY)
      enforceLimits s)

/-! ## Coolant (R488, R489) -/

/-- Has FLOW_OK been asserted for 100 ms (R489, R533)? -/
def flowOk (s : State) : Bool := s.aon.flowAt.any (fun t => due s t (100 * msTicks))

/-- Do the conditions of a resumption hold (R489)? -/
def resumeReady (s : State) : Bool :=
  flowOk s && (s.power.temps.all (fun kv => if kv.1 < 168 then decide (kv.2 < getF s f_THM_CFG_THROTTLE_C) else decide (kv.2 < 88)))

/-- Requests of this chip's masters that are still out. -/
def requestsOut (s : State) : Bool :=
  s.reqs.any (fun kv => match kv.2.owner with
    | .link _ => false
    | _ => kv.2.stage ≠ .done)

/-- A port sends LINK_IDLE and enters IDLE (R407, R488). -/
def idlePort (s : State) (p : Nat) : State :=
  if !isUp s p then s else
  let dest := getF s f_LNK_PORT_PEER_CHIP p
  let s := sendOn s p (LinkMsg.blank s msgLinkIdle dest)
  let other (m : LinkMsg) : Bool := m.type ≠ msgLinkIdle
  let s := modPort s p (fun q => { q with waiting := q.waiting.filter other, unacked := q.unacked.filter (fun f => f.msg.all other) })
  portExit s p portIdle none

/-- COOLANT_STOP_COMPLETE: requests have drained; every buffer slice has written its dirty lines back, the stacks are in
self-refresh, and every UP port has sent LINK_IDLE and is IDLE (R488). -/
def execCoolantStopComplete (s : State) : Out :=
  .next (
    if !flagF s f_PWR_STATUS_COOLANT_STOP || requestsOut s then s
    else
      let s := (s.bufs.map Prod.fst).foldl writeBack s
      let s := (List.range 8).foldl (fun s k =>
        if flagF s f_MEM_STACK_STAT_TRAINED k then setF s f_MEM_STACK_STAT_SELF_REFRESH k 1 else s) s
      (List.range 32).foldl idlePort s)

/-- FLOW_RESTORED: FLOW_OK returns; during a coolant stop that raises FLOW_RESTORED, and resumes nothing (R489). -/
def execFlowRestored (s : State) : Out :=
  .next (
    if s.aon.flowAt.isSome || !s.aon.aux then s
    else
      let s := { s with aon := { s.aon with flowAt := some s.now } }
      if flagF s f_PWR_STATUS_COOLANT_STOP then raisePwr s f_PWR_EVT_FLOW_RESTORED else s)

/-- The memory keys are derived again as a stack leaves self-refresh; `bad` are the slots whose tags fail (R461). -/
def rederiveKeys (s : State) (bad : List Nat) : State :=
  (s.imagos.map Prod.fst).foldl (fun s i => match (imago s i).memKey with
    | none => s
    | some k =>
      let s := if bad.contains k && !keyIsBad s k then failKey s k else s
      if keyIsBad s k then modImago s i (fun m => { m with keyBad := true }) else s) s

/-- RESUME: PWR_CMD RESUME restarts the chip from a coolant stop when its conditions hold and the supply is NORMAL or in RAMP:
the stacks leave self-refresh, clocks restart at F_LOW, IDLE ports train, and issue resumes with the ramp and the raise hold
(R489, R490). -/
def execResume (badKeys : List Nat) (s : State) : Out :=
  .next (
    let st := getF s f_PWR_STATUS_SUPPLY
    if !flagF s f_PWR_STATUS_COOLANT_STOP || !resumeReady s || st = 1 || st = 2 then s
    else
      let s := (List.range 8).foldl (fun s k => setF s f_MEM_STACK_STAT_SELF_REFRESH k 0) s
      let s := setF (rederiveKeys s badKeys) f_PWR_STATUS_COOLANT_STOP 0 0
      let s := (enabledCores s).foldl (fun s c =>
        if getF s f_THM_CORE_AGE_DSTATE c = 0 || getF s f_THM_CORE_AGE_DSTATE c = 3 then setSteps s c fLow else s) s
      let s := (List.range 32).foldl (fun s p =>
        if getF s f_LNK_PORT_STAT_STATE p = portIdle then
          modPort (setF s f_LNK_PORT_STAT_STATE p portTraining) p (fun q => { q with since := s.now, failedTraining := false })
        else s) s
      noteResume (startRamp s))

/-! ## Diapause (R491 to R493) -/

/-- May a core enter diapause, but for the time it must have been idle (R491)? -/
def coreIdle (s : State) (c : Nat) : Bool :=
  let i := getF s f_CMP_CORE_INSTANCE c
  let bound := coreBound s i c
  (batchOf s c).isNone
    && !(bound && ((holderOf s i).bind (ctxOf s)).any (fun x => !x.saved.isEmpty))
    && !s.landing.any (fun kv => kv.2.core = c)
    && !(getF s f_CMP_CORE_STATE c ≠ 0 && flagF s f_CMP_CORE_AWAKE c)
    && !s.reqs.any (fun kv => kv.2.master = masterCore c)
    && !s.ops.any (fun kv => kv.2.core = c)
    && !s.silkReplies.any (fun kv => kv.2.core = c)
    && !s.gates.any (fun kv => kv.2.run.any (fun r => r.job.cores.contains c))
    && !(bound && fenced s i) && !flagF s f_RST_STATUS_CHIP_RESET

/-- May a wing enter diapause, but for the time (R492)? -/
def wingIdleNow (s : State) (w : Nat) : Bool :=
  (wingCores s w).all (fun c => getF s f_THM_CORE_AGE_DSTATE c = 2)
    && (gateOf s w).run.isNone && (gateOf s w).waiting.isEmpty && !s.landing.any (fun kv => kv.2.wing = w)

/-- Notes, as time passes, which cores and wings are not idle. -/
def noteIdle (s : State) : State :=
  let s := ((enabledCores s).filter (fun c => !coreIdle s c)).foldl (fun s c => modCore s c (fun k => { k with idleSince := s.now })) s
  let busy := (List.range 8).filter (fun w => getF s f_CHIP_CAP_WING_ENABLED w ≠ 0 && !wingIdleNow s w)
  let idle := busy.foldl (fun m w => mput m w s.now) s.power.wingIdle
  { s with power := { s.power with wingIdle := idle } }

/-- CORE_DIAPAUSE_ENTRY: a core idle for CORE_IDLE_US begins to enter diapause: its clock stops, and its micro-TLB and
instruction cache are lost (R491, R493). -/
def execCoreDiapauseEntry (c : Nat) (s : State) : Out :=
  .next (
    let us := getF s f_THM_DIAP_CFG_CORE_IDLE_US
    if us = 0 || !(enabledCores s).contains c || !awake s c || !coreIdle s c || !due s (core s c).idleSince (us * usTicks)
        || flagF s f_PWR_STATUS_COOLANT_STOP then s
    else
      let s := retimeCore (setF s f_THM_CORE_AGE_DSTATE c 1) c 0
      modCore { s with tlb := s.tlb.filter (fun e => e.cache ≠ c) } c (fun k => { k with icache := [], icacheKernel := none }))

/-- WING_DIAPAUSE_ENTRY: a wing idle for WING_IDLE_US begins to enter diapause (R492, R493). -/
def execWingDiapauseEntry (w : Nat) (s : State) : Out :=
  .next (
    let us := getF s f_THM_DIAP_CFG_WING_IDLE_US
    if us = 0 || 8 ≤ w || getF s f_CHIP_CAP_WING_ENABLED w = 0 || getF s f_THM_WING_STATE w ≠ 0 || !wingIdleNow s w
        || !due s (mget 0 s.power.wingIdle w) (us * usTicks) then s
    else setF s f_THM_WING_STATE w 1)

/-- DIAPAUSE_ENTERED: the entry of a core, or of a wing (unit 256 + w), completes; a wing's VCORE falls to 0.55 V (R492,
R493). -/
def execDiapauseEntered (unit : Nat) (s : State) : Out :=
  .next (
    if unit < 144 then (if getF s f_THM_CORE_AGE_DSTATE unit = 1 then setF s f_THM_CORE_AGE_DSTATE unit 2 else s)
    else
      let w := unit - 256
      if unit < 256 || 8 ≤ w || getF s f_THM_WING_STATE w ≠ 1 then s
      else setF (setF s f_THM_WING_STATE w 2) f_THM_WING_VCORE_MV w 550)

/-- WAKE: an event of R493 wakes a core that has one waiting (a batch, a running dispatch that names it, or a binding that
holds it awake), or a wing whose Gate unit has selected a dispatch. -/
def execWake (unit : Nat) (s : State) : Out :=
  .next (
    if unit < 144 then
      let cause := (batchOf s unit).isSome || (getF s f_CMP_CORE_STATE unit ≠ 0 && flagF s f_CMP_CORE_AWAKE unit)
        || s.gates.any (fun kv => kv.2.run.any (fun r => r.job.cores.contains unit))
      if cause then wakeCore s unit else s
    else if unit < 256 || 8 ≤ unit - 256 || (gateOf s (unit - 256)).run.isNone then s
    else wakeWing s (unit - 256))

/-- WAKE_COMPLETE: a wake completes: a wing's VCORE stands at what F_LOW needs; a core, once its wing is awake, is counted, and
raises are held for 50 µs (R479, R493). What waits at its router may now be delivered (R257). -/
def execWakeComplete (unit : Nat) (s : State) : Out :=
  .next (
    if unit < 144 then
      if getF s f_THM_CORE_AGE_DSTATE unit ≠ 3 || getF s f_THM_WING_STATE (wingOf s unit) ≠ 0 then s
      else
        let s := modCore (setF s f_THM_CORE_AGE_DSTATE unit 0) unit (fun k => { k with idleSince := s.now })
        holdRaise (countR s r_THM_WAKES 0 1) (wingOf s unit)
    else
      let w := unit - 256
      if unit < 256 || 8 ≤ w || getF s f_THM_WING_STATE w ≠ 3 then s
      else
        let mv := (wingCores s w).foldl (fun m c => max m (coreMv s c fLow)) 0
        let s := { s with power := { s.power with wingIdle := mput s.power.wingIdle w s.now } }
        setF (setF s f_THM_WING_STATE w 0) f_THM_WING_VCORE_MV w (max 550 mv))

/-- WAKE_ALL: THM_CMD WAKE_ALL wakes every core and wing (R493, R497). -/
def execWakeAll (s : State) : Out :=
  .next ((List.range 8).foldl wakeWing ((enabledCores s).foldl wakeCore s))

end Sys2Proof.Machine
end

