-- ==== Sys2Proof/Machine/Eclosion.lean ====
section
/-!
DEFINITION. Bring-up (R498 to R512): the defect ledger, the board descriptor, the phases of eclosion with their holds and
retries, full resets and the loss of power (R513, R515, R516, R533 to R538), and the events of supplies and pins.
-/

namespace Sys2Proof.Machine

/-! ## CRC-32 (R507, R509) -/

/-- One bit of the reflected CRC-32 of IEEE 802.3. -/
def crcBit (c : Nat) : Nat := if c % 2 = 1 then Nat.xor (c / 2) 0xEDB88320 else c / 2

/-- `n` bits. -/
def crcBits (c : Nat) : Nat → Nat
  | 0 => c
  | n + 1 => crcBits (crcBit c) n

/-- The CRC-32 of bytes. -/
def crc32 (l : List Byte) : Nat := Nat.xor (l.foldl (fun c b => crcBits (Nat.xor c b.toNat) 8) 0xFFFFFFFF) 0xFFFFFFFF

/-- A little-endian number at an offset of bytes. -/
def bytesNum (l : List Byte) (o n : Nat) : Nat := leNat ((l.drop o).take n)

/-! ## The defect ledger (R506, R507) -/

/-- The entries written. -/
def ledgerCount (s : State) : Nat := s.flash.ledger.length / 32

/-- An entry's bytes. -/
def ledgerEntry (s : State) (k : Nat) : List Byte := (s.flash.ledger.drop (32 * k)).take 32

/-- Does an entry's CRC check? -/
def ledgerOk (e : List Byte) : Bool := crc32 (e.take 28) = bytesNum e 28 4

/-- The entries whose CRC checks. -/
def goodEntries (s : State) : List (List Byte) := ((List.range (ledgerCount s)).map (ledgerEntry s)).filter ledgerOk

/-- Does a TYPE of finding take its unit out of the pool (R507)? -/
def lossType (t : Nat) : Bool := t = 1 || t = 3 || t = 4 || t = 6 || t = 7 || t = 8 || t = 9

/-- Is a unit lost, by the ledger or by what this bring-up has found? -/
def unitLost (s : State) (type unit : Nat) : Bool :=
  s.aon.found.contains (type, unit)
    || (goodEntries s).any (fun e => bytesNum e 0 1 = type && bytesNum e 4 4 = unit && bitAt (bytesNum e 2 1) 0)

/-- Is a finding in the ledger already (R506)? -/
def entryKnown (s : State) (f : Finding) : Bool :=
  f.type < 0x10 && (goodEntries s).any (fun e => bytesNum e 0 1 = f.type && bytesNum e 4 4 = f.unit
    && (if lossType f.type then bitAt (bytesNum e 2 1) 0 else decide (bytesNum e 8 8 = f.detail)))

/-- The ledger's state in RST_LEDGER. -/
def showLedger (s : State) : State :=
  let n := ledgerCount s
  let s := setF (setF s f_RST_LEDGER_ENTRIES 0 (min 4096 n)) f_RST_LEDGER_FULL 0 (b2n (decide (4096 ≤ n)))
  setF s f_RST_LEDGER_TORN 0 (b2n (decide ((goodEntries s).length ≠ n)))

/-- Appends an entry, when the ledger has room and no entry says it already; the entry that fills the ledger raises
LEDGER_FULL (R506, R507). -/
def appendEntry (s : State) (f : Finding) : State :=
  let s := if lossType f.type then { s with aon := { s.aon with found := s.aon.found ++ [(f.type, f.unit)] } } else s
  if entryKnown s f || 4096 ≤ ledgerCount s then s else
  let phase := if flagF s f_RST_STATE_READY then 0xF0 else getF s f_RST_STATE_PHASE
  let head := leBytes 1 f.type ++ leBytes 1 phase ++ leBytes 1 (b2n (lossType f.type) + 2 * b2n (flagF s f_RTC_STATUS_VALID)) ++ [0]
    ++ leBytes 4 f.unit ++ leBytes 8 f.detail ++ leBytes 8 s.rtc.secs ++ leBytes 4 (getR s r_RTC_HOURS)
  let s := { s with flash := { s.flash with ledger := s.flash.ledger ++ head ++ leBytes 4 (crc32 head) } }
  let s := showLedger (if flagF s f_RST_STATE_READY then s else satF s f_RST_LEDGER_NEW 0 1)
  if ledgerCount s = 4096 then raiseRst s f_RST_EVT_LEDGER_FULL else s

/-- Appends findings in order. -/
def appendAll (s : State) (l : List Finding) : State := l.foldl appendEntry s

/-! ## Records of resets (R524, R528) -/

/-- The counted resets within the window, by the calendar clock (R524). -/
def countedResets (s : State) : List Nat :=
  s.aon.escs.filter (fun t => decide (s.rtc.secs < t + getF s f_RST_ESC_CFG_WINDOW_S))

/-- Writes RST_LAST. -/
def recordReset (s : State) (domain cause inst : Nat) (counted : Bool) : State :=
  setR s r_RST_LAST 0 (domain + cause * 2 ^ 8 + inst % 32 * 2 ^ 12 + b2n counted * 2 ^ 17 + s.rtc.secs % 2 ^ 32 * 2 ^ 32)

/-- Counts a reset; answers whether it brings the count to the threshold (R525). -/
def countReset (s : State) (counted : Bool) : Bool × State :=
  if !counted then (false, s) else
  let l := countedResets s ++ [s.rtc.secs]
  (!computeHeld s && decide (getF s f_RST_ESC_CFG_THRESH ≤ l.length), { s with aon := { s.aon with escs := l } })

/-- The device goes out of service: the entry and the event (R525). -/
def noteOos (s : State) : State :=
  raiseRst (appendEntry s ⟨0x11, 0, (countedResets s).length⟩) f_RST_EVT_OOS

/-! ## Losing everything but the always-on domain (R513, R515, R516) -/

/-- Registers that the always-on domain and NOR flash hold: the calendar clock, THM_TRIP_LOG, RST_LAST and SEC_CVK (R464,
R515). DESIGN CHOICE (log entry 60): R471 gives RTC_STATUS.SLEWING and ADJ_REFUSED the reset value 0 and R515 keeps the calendar
clock through a full reset; the spec does not say which holds for these two bits, and they are kept with the clock. -/
def keptReg (k : Nat) : Bool :=
  (r_RTC_TIME.base ≤ k && k ≤ r_RTC_HOURS.base) || k = r_THM_TRIP_LOG.base || k = r_RST_LAST.base
    || (r_SEC_CVK.base ≤ k && k < r_SEC_CVK.base + 128)

/-- The first tick of the regulator window that holds a tick, at the reset length of 500 ticks: windows lie on the fabric time
base (R264). -/
def windowOf (t : DWord) : DWord := BitVec.ofNat 64 (t.toNat / 500 * 500)

/-- The state after every domain but the always-on one has lost its own: registers at their reset values, nothing in progress.
Host memory and what has been sent to the host are not the part's. -/
def blankState (s : State) : State :=
  let oos := computeHeld s
  let s := { State.reset with
    regs := s.regs.filter (fun kv => keptReg kv.1)
    reply := s.reply, now := s.now, freeCtr := s.freeCtr, nextId := s.nextId
    host := s.host, hostPoison := s.hostPoison, msix := s.msix
    winStart := windowOf s.now, lastHello := s.now, lastAdvert := s.now, lastTime := s.now
    cvks := s.cvks, rtc := s.rtc, flash := s.flash
    power := { Power.empty with temps := s.power.temps }
    aon := s.aon, pending := s.pending }
  setF s f_RST_STATE_OUT_OF_SERVICE 0 (b2n oos)

/-- Phase E1 begins on a path (R498, R499): 0 cold, 1 fast, 2 retraining. -/
def beginE1 (s : State) (path : Nat) : State :=
  let s := blankState s
  let s := setF { s with aon := { s.aon with
    off := false, hostLink := false, path := path, waiting := 0, phaseAt := s.now, found := [], image := [] } } f_RST_STATE_PHASE 0 1
  setF s f_THM_STATUS_TRIP_PREV 0 (b2n s.aon.tripped)

/-- The longest a phase may take, in ms (R499). -/
def phaseMax (n : Nat) : Nat := [200, 2000, 200, 1000, 1000, 6000, 5000, 500, 1000, 1500].getD n 0

/-- May a stack skip its training in E5 (R501)? Its domains have stayed powered as long as its training is remembered. -/
def fastStack (s : State) (k temp : Nat) : Bool :=
  s.aon.path = 1 && !s.aon.retrain && (match mfind s.aon.trained k with
    | some (t, h) => decide (temp ≤ t + 10) && decide (t ≤ temp + 10) && decide (getR s r_RTC_HOURS < h + 720)
    | none => false)

/-- A full reset (R498, R513, R515): the chip is fenced and its state lost, but for the always-on domain, NOR flash and the
stacks in self-refresh; E1 begins. One whose count reaches the threshold leaves the device out of service (R525). -/
def fullReset (s : State) (cause : Nat) (counted selftest retrain : Bool) : State :=
  let (esc, s) := countReset s counted
  let s := if esc then setF { s with aon := { s.aon with oosDue := true } } f_RST_STATE_OUT_OF_SERVICE 0 1 else s
  let s := { s with aon := { s.aon with path := 1, selftest := selftest, retrain := retrain, retried := [] } }
  let fast := (List.range 8).all (fun k => fastStack s k (tempOf s (168 + k)))
  let hbm := s.hbm
  let s := beginE1 (recordReset s (if fast then 3 else 4) cause 0 counted) 1
  { s with hbm := hbm }

/-- The VIN_MAIN domains are turned off (R487, R516, R538): their state is lost. -/
def powerOff (s : State) : State :=
  let s := blankState s
  let aon := { s.aon with off := true, hostLink := false, waiting := 0, trained := [], image := [], found := [] }
  setF { s with aon := aon, hbm := [], power := Power.empty } f_RST_STATE_PHASE 0 0

/-- A cold eclosion begins at E1 (R498, R515, R527): OUT_OF_SERVICE and the count are cleared. The time of its phase E0 stays in
RST_PHASE_MS_0 (R499). -/
def coldStart (s : State) : State :=
  let e0 := getR s r_RST_PHASE_MS
  let s := { s with aon := { s.aon with escs := [], oosDue := false, retried := [], selftest := false, retrain := false } }
  let s := beginE1 (recordReset (setF s f_RST_STATE_OUT_OF_SERVICE 0 0) 5 (if s.aon.tripped then 4 else 0) 0 false) 0
  setR { s with aon := { s.aon with tripped := false } } r_RST_PHASE_MS 0 e0

/-- Power is good: the bring-up that is due begins (R499, R516, R536). -/
def powerGood (s : State) : State :=
  if s.aon.path = 0 then coldStart s
  else beginE1 { s with aon := { s.aon with retried := [], selftest := false, retrain := false } } 2

/-! ## Supplies and pins (R487, R498, R499, R516, R533 to R538) -/

/-- VIN_AUX_APPLY: VIN_AUX is applied, and phase E0 begins (R499, R536). -/
def execVinAuxApply (s : State) : Out :=
  .next (
    if s.aon.aux then s
    else setF { s with aon := { s.aon with aux := true, e0 := false, phaseAt := s.now, path := 0 } } f_RST_STATE_PHASE 0 0)

/-- VIN_MAIN_APPLY: VIN_MAIN has stayed at or above 1.74 V for 1 ms: E1 begins, once E0 is over; not while THERM_TRIP_N is
asserted (R487, R498, R499, R516). -/
def execVinMainApply (s : State) : Out :=
  .next (
    if s.aon.main = 2 || s.aon.trip then s
    else
      let s := { s with aon := { s.aon with main := 2 } }
      if s.aon.aux && s.aon.e0 then powerGood s else s)

/-- SUPPLY_RESET: VIN_MAIN falls below 1.62 V: every domain it feeds is turned off; the reset counts (R482, R516, R524). -/
def supplyReset (s : State) : State :=
  if s.aon.off then { s with aon := { s.aon with main := min 1 s.aon.main } } else
  let (esc, s) := countReset s true
  let s := if esc then setF { s with aon := { s.aon with oosDue := true } } f_RST_STATE_OUT_OF_SERVICE 0 1 else s
  let s := powerOff (recordReset s 4 3 0 true)
  { s with aon := { s.aon with main := 1, path := 2 } }

/-- SUPPLY_RESET. -/
def execSupplyReset (s : State) : Out := .next (supplyReset s)

/-- REFCLK_LOSS: REFCLK_100 has been lost for over 10 µs: as a supply reset (R534). -/
def execRefclkLoss (s : State) : Out := .next (if s.aon.main = 2 then supplyReset s else s)

/-- THERMAL_TRIP: a sensor at trip level (110 °C, or 100 °C of a stack): THERM_TRIP_N asserts, every domain is turned off, and
the trip is logged (R485 to R487). -/
def execThermalTrip (sensor temp : Nat) (s : State) : Out :=
  .next (
    if s.aon.off || 176 ≤ sensor || temp < (if sensor < 168 then 110 else 100) then s
    else
      let s := setR s r_THM_TRIP_LOG 0
        (s.rtc.secs % 2 ^ 32 + temp % 256 * 2 ^ 32 + sensor % 256 * 2 ^ 40 + 2 ^ 48)
      let s := powerOff s
      { s with aon := { s.aon with trip := true, tripped := true, main := min 1 s.aon.main, path := 0 } })

/-- VIN_MAIN_REMOVED: VIN_MAIN falls below 0.5 V: THERM_TRIP_N is released, and the next bring-up is a cold eclosion (R498,
R533). -/
def execVinMainRemoved (s : State) : Out :=
  .next (
    let s := if s.aon.off then s else supplyReset s
    { s with aon := { s.aon with main := 0, trip := false, path := 0 } })

/-- VIN_AUX_LOSS: VIN_AUX falls below 1.60 V: every VIN_MAIN domain is turned off without THERM_TRIP_N, and what the always-on
domain holds is lost but the calendar clock, which VBAT supplies (R465, R538). -/
def execVinAuxLoss (s : State) : Out :=
  .next (
    if !s.aon.aux then s
    else
      let s := powerOff s
      let s := setR (setR (setF s f_RST_STATE_OUT_OF_SERVICE 0 0) r_THM_TRIP_LOG 0 0) r_RST_LAST 0 0
      { s with aon := { s.aon with
        aux := false, e0 := false, trip := false, tripped := false, escs := [], oosDue := false, flowAt := none, path := 0 } })

/-- PERST_ASSERT: PERST_N asserted for 10 µs while VIN_MAIN is present starts a full reset, which is not counted; before E1 it
has no effect (R498, R524, R533, R538). -/
def execPerstAssert (s : State) : Out :=
  .next (
    let s := { s with aon := { s.aon with perst := true } }
    if s.aon.off || s.aon.main ≠ 2 || getF s f_RST_STATE_PHASE = 0 then s
    else fullReset s 2 false false false)

/-- PERST_DEASSERT: once E3 has completed the host link may train (R499). -/
def execPerstDeassert (s : State) : Out :=
  .next { s with aon := { s.aon with perst := false, hostLink := s.aon.hostLink || (!s.aon.off && 3 < getF s f_RST_STATE_PHASE) } }

/-- COOLANT_STOP: FLOW_OK has been deasserted for 10 µs: after READY issue stops and the coolant stop begins; from E3 on before
READY the domains are turned off, and the bring-up starts again when flow returns (R488, R538). -/
def execCoolantStop (s : State) : Out :=
  .next (
    let s := { s with aon := { s.aon with flowAt := none } }
    let phase := getF s f_RST_STATE_PHASE
    if s.aon.off then s
    else if flagF s f_RST_STATE_READY then
      if flagF s f_PWR_STATUS_COOLANT_STOP then s
      else raisePwr (quietReqs (noteStop (forceLow (setF s f_PWR_STATUS_COOLANT_STOP 0 1)))) f_PWR_EVT_COOLANT_STOP
    else if 3 ≤ phase then
      let s := powerOff (recordReset s 4 7 0 false)
      { s with aon := { s.aon with path := 2, waiting := 2 } }
    else s)

/-- Phase E3 begins (R504, R536). -/
def beginE3 (s : State) : State :=
  setF { s with aon := { s.aon with waiting := 0, phaseAt := s.now } } f_RST_STATE_PHASE 0 3

/-- FLOW_OK_HELD: FLOW_OK has been asserted for 100 ms: E3 begins, or a bring-up that lost flow starts again (R536, R538). -/
def execFlowOkHeld (s : State) : Out :=
  .next (
    if !s.aon.aux then s
    else
      let s := match s.aon.flowAt with
        | some t => if due s t (100 * msTicks) then s else { s with aon := { s.aon with flowAt := some (s.now - BitVec.ofNat 64 (100 * msTicks)) } }
        | none => { s with aon := { s.aon with flowAt := some (s.now - BitVec.ofNat 64 (100 * msTicks)) } }
      if s.aon.waiting = 1 then beginE3 s
      else if s.aon.waiting = 2 && s.aon.main = 2 then
        beginE1 { s with aon := { s.aon with selftest := false, retrain := false } } 2
      else s)

/-! ## The phases (R499 to R505, R508) -/

/-- Notes a phase's duration, and begins the next. -/
def nextPhase (s : State) (n : Nat) : State :=
  let p := getF s f_RST_STATE_PHASE
  let s := setR s r_RST_PHASE_MS p (min 65535 (since s s.aon.phaseAt / msTicks))
  setF { s with aon := { s.aon with phaseAt := s.now } } f_RST_STATE_PHASE 0 n

/-- The device holds in a phase (R500). -/
def holdPhase (s : State) : State := raiseRst (setF s f_RST_STATE_FAILED 0 1) f_RST_EVT_PHASE_FAIL

/-- E1: the first image that authenticates is loaded (R503). -/
def endE1 (s : State) (flash : Flash) (rootOk : Bool) : State :=
  let first := decide (s.flash = Flash.empty)
  let s := if first then
      flash.cvks.foldl (fun s kv => setR { s with cvks := mput s.cvks kv.1 kv.2 } r_SEC_CVK (kv.1 % 16)
        (1 + leNat ((Config.sha384 kv.2).take 4) % 2 ^ 32 * 2 ^ 32)) { s with flash := flash }
    else s
  let s := showLedger (setF s f_SEC_STATUS_ROOT_OK 0 (b2n rootOk))
  let image := if Config.imageOk s.flash.primary then some s.flash.primary
    else if Config.imageOk s.flash.secondary then some s.flash.secondary else none
  match image with
  | none => holdPhase s
  | some b =>
    let d := Config.sha384 b
    let s := (List.range 6).foldl (fun s k => setR s r_SEC_FW_DIGEST k (bytesNum d (8 * k) 8)) s
    nextPhase (setF s f_SEC_STATUS_FW_AUTH 0 1) 2

/-- The ledger's UNIT of a physical core, wing × 20 + position (R507). -/
def coreUnit (p : Nat) : Nat := p / 40 + 4 * (p / 20 % 2) + 8 * (p % 20)

/-- The working physical cores of a wing. -/
def workingCores (s : State) (w : Nat) : List Nat :=
  ((List.range 20).map (fun k => 20 * w + k)).filter (fun p => !unitLost s 1 (coreUnit p))

/-- The enabled physical cores of a wing: the 18 working ones with the highest FMAX, ties to the lower position (R508). -/
def chosenCores (s : State) (w : Nat) : List Nat :=
  let l := workingCores s w
  let f (p : Nat) : Nat := (ageOf s p).fmax
  l.filter (fun p => decide ((l.filter (fun q => decide (f p < f q) || (f p = f q && decide (q < p)))).length < 18))

/-- The fused maximum of a physical core (R494). -/
def fusedOf (s : State) (p : Nat) : Nat := s.flash.fused.getD p 0 % 256

/-- THM_CORE_FMAX.FUSED is loaded in E2, for the numbers that the ledger gives as it then stands; E7 numbers the cores for good
and loads it again (R504, R508; DESIGN CHOICE, log entry 60). -/
def loadFused (s : State) : State :=
  let l := (List.range 8).flatMap (chosenCores s)
  (List.range l.length).foldl (fun s c => setF s f_THM_CORE_FMAX_FUSED c (fusedOf s (l.getD c 0))) s

/-- E2: the fuses are loaded (R504). E3 waits for FLOW_OK (R536). -/
def endE2 (s : State) (parityOk : Bool) : State :=
  if !parityOk then holdPhase s else
  let s := setF (setR s r_CHIP_SERIAL 0 s.flash.serial) f_SEC_STATUS_DEBUG_LOCKED 0 (b2n s.flash.locked)
  let s := loadFused s
  if flowOk s then nextPhase s 3
  else
    let s := nextPhase s 2
    { s with aon := { s.aon with waiting := 1 } }

/-- The rated current of a regulator domain, in A (R472). -/
def ratedAmps (d : Nat) : Nat :=
  if d < 8 then 280 else if d < 12 then 160 else if d < 16 then 250 else if d < 20 then 110 else if d % 2 = 0 then 40 else 45

/-- E3: the rails are up, and the PCIe interface is reachable (R504). -/
def endE3 (s : State) : State :=
  let s := (List.range 36).foldl (fun s d => setF s f_PWR_DOM_ILIM_AMPS d (ratedAmps d)) s
  let s := nextPhase s 4
  { s with aon := { s.aon with hostLink := !s.aon.perst } }

/-- E4: bridge links that fail, or whose entry marks them lost, are FAILED; a bridge without a working link holds the device
(R500, R505). -/
def endE4 (s : State) (failed : List (Nat × Nat)) : State :=
  let s := appendAll s ((failed.filter (fun x => decide (x.1 < 4) && decide (x.2 < 8))).map (fun x => ⟨9, x.1 + 4 * x.2, 0⟩))
  let mask (b : Nat) : Nat := ((List.range 8).filter (fun k => unitLost s 9 (b + 4 * k))).foldl (fun m k => m + 2 ^ k) 0
  let s := (List.range 4).foldl (fun s b => setF s f_MEM_BRIDGE_STAT_FAILED b (mask b)) s
  if (List.range 4).any (fun b => mask b = 255) then holdPhase s else nextPhase s 5

/-- Does E6 run in this bring-up (R502)? -/
def runsE6 (s : State) : Bool := s.aon.path = 0 || s.aon.selftest || flagF s f_RST_LEDGER_FULL

/-- E5: the stacks are trained, or take the fast path, and every slice is zeroed (R501). -/
def endE5 (s : State) (untrained temps : List Nat) (finds : List Finding) : State :=
  let ok (k : Nat) : Bool := !untrained.contains k
  let fast (k : Nat) : Bool := fastStack s k (temps.getD k 0)
  let hours := getR s r_RTC_HOURS
  let trained := (List.range 8).foldl (fun m k =>
    if !ok k then mdel m k else if fast k then m else mput m k (temps.getD k 0, hours)) s.aon.trained
  let s := (List.range 8).foldl (fun s k => setF (setF s f_MEM_STACK_STAT_TRAINED k (b2n (ok k))) f_MEM_STACK_STAT_TEMP k
    (min 255 (temps.getD k 0))) s
  let warm := s.aon.path = 1 && (List.range 8).all fast && !runsE6 s
  let s := setF { s with aon := { s.aon with trained := trained }, hbm := [], hbmPoison := [], bufs := [] } f_RST_STATE_WARM_PATH 0 (b2n warm)
  let s := appendAll s finds
  nextPhase s (if runsE6 s then 6 else 7)

/-- Numbers the enabled cores of one wing, and loads what is known of each (R494, R508). -/
def numberWing (s : State) (w : Nat) : State :=
  let l := chosenCores s w
  let first := s.corePhys.length
  let s := setR s r_CHIP_CAP_WING w (l.length + ((workingCores s w).length - l.length) * 2 ^ 8 + first * 2 ^ 16
    + b2n (!unitLost s 3 w) * 2 ^ 24)
  let s := (List.range l.length).foldl (fun s k =>
    let p := l.getD k 0
    let c := first + k
    let a := ageOf s p
    let s := setR { s with corePhys := s.corePhys ++ [(c, p)] } r_THM_CORE_FMAX c
      (fusedOf s p + a.fmax % 256 * 2 ^ 8 + a.vofs % 8 * 2 ^ 16 + b2n a.aged * 2 ^ 19)
    setR s r_THM_CORE_AGE c (min 65535 a.degr + min 4095 a.slack * 2 ^ 16)) s
  s

/-- Port p belongs to optical engine floor(p/2) (R406): a port is lost with its engine. -/
def portLost (s : State) (p : Nat) : Bool := unitLost s 7 p || unitLost s 8 (enginePort p)

/-- The ports in the pool, and the capability fields that count them and the engines (R21, R37, R508, R512). -/
def loadLinkCaps (s : State) : State :=
  let s := setF s f_CHIP_CAP_LINK_PORTS 0 ((List.range 32).filter (fun p => !portLost s p)).length
  setF s f_CHIP_CAP_LINK_OPT_ENGINES 0 ((List.range 16).filter (fun e => !unitLost s 8 e)).length

/-- E7: the pool is derived from the ledger, cores are numbered, and saved records restored (R28, R32, R508). -/
def endE7 (s : State) : State :=
  let s := (List.range 144).foldl (fun s c => setR s r_THM_CORE_FMAX c 0) (loadLinkCaps s)
  let s := (List.range 8).foldl numberWing { s with corePhys := [] }
  let s := setF s f_CHIP_CAP_CORE_ENABLED 0 s.corePhys.length
  let here (m : Nat) : Bool := flagF s f_MEM_STACK_STAT_TRAINED (m / 32) && !unitLost s 4 m && !unitLost s 6 m
  let slices := (List.range 256).filter here
  let s := slices.foldl (fun s m => setF (setF s f_MEM_SLICE_STAT_PRESENT m 1) f_CMP_MEM_STATE m 1) s
  let s := setF s f_CHIP_CAP_MEM_SLICES 0 slices.length
  let s := (List.range 512).foldl (fun s n => setF s f_TMV_BCH_CFG_USE n (if 28 ≤ n % 32 then 1 else 0)) s
  let s := (List.range 8).foldl (fun s w =>
    let (g, s) := freeVal s 32
    let s := setR s r_GATE_WGEN w g
    let mv := (wingCores s w).foldl (fun m c => max m (coreMv s c fLow)) 0
    setF (setF s f_THM_WING_CEIL w (wingFmax s w)) f_THM_WING_VCORE_MV w mv) s
  let (nonce, s) := freeVal s 32
  let s := setR { s with bootNonce := nonce } r_RST_BOOT_NONCE 0 nonce
  let s := setF s f_THM_REPLAN_HOURS_HOURS 0 s.flash.replanAt
  let coefs := ((List.range 8).map (fun w => (w, s.flash.saved.getD w 0))).filter (fun x => decide (x.2 ≠ 0))
  let s := { s with power := { s.power with coefs := coefs } }
  let s := setF (setF s f_PWR_CAL_CAL_DONE 0 (b2n (!coefs.isEmpty))) f_PWR_CAL_FACTORY 0 (b2n coefs.isEmpty)
  let s := if s.aon.oosDue then noteOos { s with aon := { s.aon with oosDue := false } } else s
  nextPhase s 8

/-! ## The topology check (R509 to R511) -/

/-- Is the board descriptor present, with its MAGIC, VERSION and CRC? -/
def boardOk (b : List Byte) : Bool :=
  b.length = 128 && bytesNum b 0 4 = 0x44524242 && bytesNum b 4 2 = 1 && crc32 (b.take 124) = bytesNum b 124 4

/-- Chip ID of a tray by a descriptor. -/
def boardId (b : List Byte) (tray : Nat) : Nat := bytesNum b 6 2 + Nat.land tray (bytesNum b 8 1)

/-- Loads the chip ID, and E9 begins. -/
def endE8 (s : State) (id : Nat) : State :=
  let s := setF (setF s f_CHIP_FAB_ID_CHIP_ID 0 id) f_CHIP_FAB_ID_VALID 0 1
  nextPhase (setF s f_RST_STATE_TOPO_HOLD 0 0) 9

/-- The bits below `n` of a mask at which a test holds. -/
def maskWhere (n : Nat) (p : Nat → Bool) : Nat := ((List.range n).filter p).foldl (fun m k => m + 2 ^ k) 0

/-- E8: the straps are sampled and the device is checked against the descriptor; a mismatch holds it (R509, R510). -/
def checkE8 (s : State) (tray dies engines ports : Nat) : State :=
  let s := setR s r_RST_STRAPS 0 (tray % 256)
  let b := s.flash.board
  let bad := !boardOk b
  let id := boardId b (tray % 256)
  let range := !bad && decide (0xFFFF < id)
  let needs (o n k : Nat) : Bool := !bad && bitAt (bytesNum b o n) k
  let stk := maskWhere 8 (fun k => needs 9 1 k
    && (!flagF s f_MEM_STACK_STAT_TRAINED k || (List.range 32).all (fun j => unitLost s 4 (32 * k + j))))
  let ch (q : Nat) : Nat := maskWhere 64 (fun j => needs 0x20 32 (64 * q + j) && !slicePresent s (64 * q + j))
  let eng := maskWhere 16 (fun k => needs 0xA 2 k && (bitAt engines k || unitLost s 8 k))
  let prt := maskWhere 32 (fun k => needs 0xC 4 k && (bitAt ports k || unitLost s 7 k))
  let cores := !bad && decide (getF s f_CHIP_CAP_CORE_ENABLED < bytesNum b 0x10 1)
  let slices := !bad && decide (getF s f_CHIP_CAP_MEM_SLICES < bytesNum b 0x12 2)
  let s := setR s r_RST_TOPO_SUM 0 (dies % 256 + stk * 2 ^ 8 + b2n cores * 2 ^ 16 + b2n slices * 2 ^ 17 + b2n bad * 2 ^ 18
    + b2n range * 2 ^ 19)
  let s := setR s r_RST_TOPO_LINK 0 (prt + eng * 2 ^ 32)
  let s := (List.range 4).foldl (fun s q => setR s r_RST_TOPO_CH q (ch q)) s
  let fail := getR s r_RST_TOPO_SUM ≠ 0 || getR s r_RST_TOPO_LINK ≠ 0 || (List.range 4).any (fun q => decide (ch q ≠ 0))
  if fail then raiseRst (setF s f_RST_STATE_TOPO_HOLD 0 1) f_RST_EVT_TOPO_HOLD else endE8 s id

/-- TOPO_CONTINUE: RST_CMD TOPO_CONTINUE overrides a hold in E8: an entry records it, and E9 begins; with no usable descriptor
the chip ID is TRAY_ID (R511). -/
def execTopoContinue (s : State) : Out :=
  .next (
    if !flagF s f_RST_STATE_TOPO_HOLD then s
    else
      let tray := getF s f_RST_STRAPS_TRAY_ID
      let none' := flagF s f_RST_TOPO_SUM_DESC_BAD || flagF s f_RST_TOPO_SUM_ID_RANGE
      let s := appendEntry s ⟨0x10, 0, getR s r_RST_TOPO_SUM⟩
      endE8 s (if none' then tray else boardId s.flash.board tray))

/-- E9: ports and engines that fail are recorded and absent from the pool, which the capability fields then show; the others
train, and the device is READY (R512). -/
def endE9 (s : State) (finds : List Finding) : State :=
  let s := appendAll s finds
  let pool := (List.range 32).filter (fun p => !portLost s p)
  let s := loadLinkCaps (pool.foldl (fun s p => setF s f_CMP_LINK_STATE p 1) s)
  let s := setF (nextPhase s 9) f_RST_STATE_READY 0 1
  updateTime (pool.foldl tryTrain { s with aon := { s.aon with retried := [] } })

/-- PHASE_COMPLETE: the phase in progress completes, with what it has found, and the next begins; E9 sets READY (R499 to R512).
-/
def execPhaseComplete (data : PhaseData) (s : State) : Out :=
  .next (
    let held := flagF s f_RST_STATE_FAILED || flagF s f_RST_STATE_TOPO_HOLD || flagF s f_RST_STATE_READY || s.aon.waiting ≠ 0
    let phase := getF s f_RST_STATE_PHASE
    match data with
    | .alwaysOn =>
      if !s.aon.aux || s.aon.e0 then s
      else
        let s := setR { s with aon := { s.aon with e0 := true } } r_RST_PHASE_MS 0 (min 65535 (since s s.aon.phaseAt / msTicks))
        if s.aon.main = 2 then powerGood s else s
    | .rom flash rootOk => if held || s.aon.off || phase ≠ 1 then s else endE1 s flash rootOk
    | .fuses parityOk => if held || s.aon.off || phase ≠ 2 then s else endE2 s parityOk
    | .rails => if held || s.aon.off || phase ≠ 3 then s else endE3 s
    | .bridges failed => if held || s.aon.off || phase ≠ 4 then s else endE4 s failed
    | .memory untrained temps finds => if held || s.aon.off || phase ≠ 5 then s else endE5 s untrained temps finds
    | .selfTest finds => if held || s.aon.off || phase ≠ 6 then s else nextPhase (appendAll s finds) 7
    | .numbering => if held || s.aon.off || phase ≠ 7 then s else endE7 s
    | .topology tray dies engines ports => if held || s.aon.off || phase ≠ 8 then s else checkE8 s tray dies engines ports
    | .links finds => if held || s.aon.off || phase ≠ 9 then s else endE9 s finds)

/-- PHASE_TIMEOUT: a phase exceeds its maximum: the bring-up starts again from E1 on the retraining path, or, when the same phase
does so again, the device holds in it (R500). -/
def execPhaseTimeout (s : State) : Out :=
  .next (
    let phase := getF s f_RST_STATE_PHASE
    let held := flagF s f_RST_STATE_FAILED || flagF s f_RST_STATE_TOPO_HOLD || flagF s f_RST_STATE_READY || s.aon.waiting ≠ 0
    if s.aon.off || phase = 0 || held || !due s s.aon.phaseAt (phaseMax phase * msTicks) then s
    else if s.aon.retried.contains phase then holdPhase s
    else
      let s := recordReset s 4 7 0 false
      beginE1 { s with aon := { s.aon with retried := s.aon.retried ++ [phase], selftest := false, retrain := false } } 2)

end Sys2Proof.Machine
end

