-- ==== Sys2Proof/Machine/Matrix.lean ====
section
/-!
DEFINITION. The matrix unit (R105 to R131) and the sparsity it carries out (R132 to R144): the M instructions, their engines,
and the arithmetic of streams and drains. Clock counts are left out (log entry 2): each event comes when its conditions hold.
-/

namespace Sys2Proof.Machine

/-! ## Fields of an M instruction (R108 to R118) -/

/-- A field of an issued M instruction. -/
def MInstr.fld (i : MInstr) (lo w : Nat) : Nat := bitsOf i.bits lo w

/-- The weight slot an instruction names. -/
def MInstr.slotNo (i : MInstr) : Nat := i.fld 44 1

/-- Register k of an instruction's u registers. -/
def MInstr.reg (i : MInstr) (k : Nat) : Nat := (i.u.getD k 0).toNat

/-- MLOADW: WFMT, CLASS and SPN (R109). -/
def MInstr.wfmt (i : MInstr) : Nat := i.fld 40 4
def MInstr.cls (i : MInstr) : Nat := i.fld 38 2
def MInstr.spn (i : MInstr) : Nat := i.fld 35 3

/-- A stream's fields (R111). -/
def MInstr.afmt (i : MInstr) : Nat := i.fld 40 4
def MInstr.td (i : MInstr) : Nat := i.fld 37 3
def MInstr.tn (i : MInstr) : Nat := i.fld 34 3
def MInstr.init (i : MInstr) : Bool := i.fld 33 1 = 1
def MInstr.zskip (i : MInstr) : Bool := i.fld 32 1 = 1

/-- A stream's rows, and whether SKIP marks one (R112, R140). -/
def MInstr.rowsM (i : MInstr) : Nat := bitsOf (i.reg 1) 16 12 + 1
def MInstr.skips (i : MInstr) (m : Nat) : Bool := bitAt (i.reg 4) (m / 128)

/-- A drain's fields (R117, R118). -/
def MInstr.ts (i : MInstr) : Nat := i.fld 42 3
def MInstr.dfmt (i : MInstr) : Nat := i.fld 38 4
def MInstr.sat (i : MInstr) : Bool := i.fld 37 1 = 1
def MInstr.rnd (i : MInstr) : Nat := i.fld 35 2
def MInstr.smode (i : MInstr) : Nat := i.fld 33 2
def MInstr.bias (i : MInstr) : Bool := i.fld 32 1 = 1
def MInstr.act (i : MInstr) : Nat := i.fld 28 4
def MInstr.clr (i : MInstr) : Bool := i.fld 27 1 = 1
def MInstr.row0 (i : MInstr) : Nat := bitsOf (i.reg 1) 16 7
def MInstr.nrows (i : MInstr) : Nat := bitsOf (i.reg 1) 24 7 + 1

/-- The reduction indices of a dense row of a class (R105). -/
def ktOf (cls : Nat) : Nat := if cls = 0 then 64 else if cls = 1 then 128 else 256

/-- The reduction width of a slot setting (R106). -/
def kwOf (cls spn : Nat) : Nat := if spn = 0 then ktOf cls else 2 * ktOf cls

/-- The rate class of element bits (R39, R47). -/
def classOf (bits : Nat) : Nat := if bits = 16 then 0 else if bits = 4 then 2 else 1

/-- Bytes of a slot load's value plane and index plane (R109). -/
def loadBytes (wfmt cls spn : Nat) : Nat × Nat :=
  let kw := kwOf cls spn
  if spn = 0 then (kw * 128 * elemBits wfmt / 8, 0)
  else (kw * spn / 8 * 128 * elemBits wfmt / 8, kw * spn / 8 * 128 * 3 / 8)

/-- Is an operation carried out by the load, stream or drain engine (R108)? -/
def MOp.engine : MOp → Nat
  | .loadw | .wblock | .wtile => 0
  | .stream | .sparse | .atile => 1
  | .drain => 2

/-- Is it MSTREAM or MSPARSE? -/
def MOp.streams : MOp → Bool
  | .stream | .sparse => true
  | _ => false

/-- An engine's instructions, in issue order. -/
def Matrix.queue (m : Matrix) (e : Nat) : List MInstr := if e = 0 then m.load else if e = 1 then m.stream else m.drain

/-- Replaces an engine's instructions. -/
def Matrix.setQueue (m : Matrix) (e : Nat) (l : List MInstr) : Matrix :=
  if e = 0 then { m with load := l } else if e = 1 then { m with stream := l } else { m with drain := l }

/-- A weight slot. -/
def Matrix.slot (m : Matrix) (k : Nat) : WSlot := if k = 0 then m.slot0 else m.slot1

/-- Replaces a weight slot. -/
def Matrix.setSlot (m : Matrix) (k : Nat) (v : WSlot) : Matrix :=
  if k = 0 then { m with slot0 := v } else { m with slot1 := v }

/-- The setting of a slot for an instruction: of the latest MLOADW before it, queued or done (R110, R130): format, class, N.
None for a slot that nothing has loaded. -/
def slotShape (m : Matrix) (k seq : Nat) : Option (Nat × Nat × Nat) :=
  match (m.load.filter (fun i => i.op = .loadw && i.slotNo = k && decide (i.seq < seq))).getLast? with
  | some i => some (i.wfmt, i.cls, i.spn)
  | none => let w := m.slot k; if w.loaded then some (w.fmt, w.cls, w.spn) else none

/-! ## Issue (R108 to R113, R121) -/

/-- Issues an M instruction: it takes a place in its engine's queue, with the u registers it reads; a full queue of eight
that have not begun makes the group wait (R121). -/
def issueM (s : State) (t : Th) (op : MOp) (legal : Bool) (first n : Nat) : State :=
  let waiting := ((core s t.core).m.queue op.engine).filter (fun i => !i.begun)
  if legal && 8 ≤ waiting.length then s else
  issue s t legal (usesPred t :: (List.range n).map (fun k => 0x40 + first + k)) (fun g =>
    let m := execMask g t
    if m = 0 then retire s t.core t.grp { g with pc := nextPc g } else
    let i : MInstr := ⟨op, t.grp, (core s t.core).m.nextSeq, t.bits.toNat, (List.range n).map (fun k => uReg g (first + k)),
      g.pc, m, false, false, WSlot.empty, [], 0, 0, 0, 0, 0, 0, false, 0⟩
    let s := retire s t.core t.grp { g with pc := nextPc g }
    modCore s t.core (fun k => { k with
      m := { k.m.setQueue op.engine (k.m.queue op.engine ++ [i]) with nextSeq := k.m.nextSeq + 1 } }))

/-- May a code be a matrix operand: 0x0 and 0xD are illegal, 0xE and 0xF reserved (R39, R113)? -/
def mFmt (code : Nat) : Bool := isMatrixFmt code

/-- MLOADW: queues the load of a weight tile into a slot (R109, R113). -/
def execMloadw (t : Th) (s : State) : Out :=
  .next (
    let ua := fld t 45 5
    let wf := fld t 40 4
    let cls := fld t 38 2
    let spn := fld t 35 3
    let legal := fld t 0 35 = 0 && cls ≠ 3 && spn ≤ 4 && mFmt wf && decide (elemBits wf ≤ [16, 8, 4].getD cls 0)
      && !(spn ≠ 0 && ua = 31)
    issueM s t .loadw legal ua (if spn = 0 then 1 else 2))

/-- WBLOCK: queues the load of a slot's block-scale store (R110). -/
def execWblock (t : Th) (s : State) : Out :=
  .next (issueM s t .wblock (fld t 0 40 = 0 && fld t 40 4 = 0) (fld t 45 5) 1)

/-- The weight tile scales a slot needs: one per 128 reduction indices (R107, R110). -/
def scalesOf (shape : Option (Nat × Nat × Nat)) : Nat :=
  match shape with
  | some (_, cls, spn) => (kwOf cls spn + 127) / 128
  | none => 1

/-- WTILE: queues the setting of a slot's weight tile scales from u registers (R110, R113). -/
def execWtile (t : Th) (s : State) : Out :=
  .next (
    let m := (core s t.core).m
    let n := scalesOf (slotShape m (fld t 44 1) m.nextSeq)
    issueM s t .wtile (fld t 0 40 = 0 && fld t 40 4 = 1 && decide (fld t 45 5 + n ≤ 32)) (fld t 45 5) n)

/-- ATILE: queues the setting of the four A tile scales (R110, R113). -/
def execAtile (t : Th) (s : State) : Out :=
  .next (issueM s t .atile (fld t 0 40 = 0 && fld t 40 4 = 2 && decide (fld t 45 5 ≤ 28)) (fld t 45 5) 4)

/-- The checks of a stream's word (R111, R113). -/
def streamLegal (t : Th) : Bool :=
  fld t 0 32 = 0 && fld t 45 5 % 8 = 0 && mFmt (fld t 40 4) && decide (fld t 37 3 + fld t 34 3 + 1 ≤ 8)

/-- MSTREAM: queues a stream of A rows against a dense slot (R111, R114). -/
def execMstream (t : Th) (s : State) : Out := .next (issueM s t .stream (streamLegal t) (fld t 45 5) 8)

/-- MSPARSE: queues a stream of A rows against an N:8 sparse slot (R111, R115). -/
def execMsparse (t : Th) (s : State) : Out := .next (issueM s t .sparse (streamLegal t) (fld t 45 5) 8)

/-- MDRAIN: queues a drain of accumulator rows (R117, R118). -/
def execMdrain (t : Th) (s : State) : Out :=
  .next (issueM s t .drain
    (fld t 0 27 = 0 && fld t 45 5 % 8 = 0 && decide (fld t 38 4 ≤ 0xC) && decide (fld t 35 2 ≤ 1) && fld t 33 2 ≠ 3
      && decide (fld t 28 4 ≤ 7)) (fld t 45 5) 8)

/-! ## Faults (R130) -/

/-- Frees the accumulator rows of a tile, from `row` on: their values are undefined after a fault (R130, log entry 5). -/
def freeAccRows (s : State) (c tile row n : Nat) : State :=
  (List.range (n * 128)).foldl (fun s k =>
    let v := freeVal s 32
    modCore v.2 c (fun x => { x with
      tacc := mset 0 x.tacc (tile * 16384 + row * 128 + k) (BitVec.ofNat 32 v.1)
      taccBad := mset false x.taccBad (tile * 128 + row + k / 128) false })) s

/-- Frees destination bytes of a drain that faults (R130). -/
def freeScratch (s : State) (c a n : Nat) : State :=
  let v := freeBytes s n
  scrWrite v.2 c a v.1 [] srcMatrix

/-- Destination row bytes and pitch of a drain (R118). -/
def drainPitch (i : MInstr) : Nat × Nat :=
  let size := rowBytes (elemBits i.dfmt) 128
  (size, if bitsOf (i.reg 1) 0 16 = 0 then size else bitsOf (i.reg 1) 0 16)

/-- Scale-plane pitch of a drain (R118). -/
def drainScalePitch (i : MInstr) : Nat := if bitsOf (i.reg 3) 0 16 = 0 then 4 else bitsOf (i.reg 3) 0 16

/-- Stops the kernel for an M instruction: it leaves its engine; the accumulator rows it addresses and its destination bytes are
undefined, whether or not it had begun (R101, R130). -/
def mFault (s : State) (c : Nat) (i : MInstr) (code : Nat) (addr : Nat) : State :=
  let limit := scrLimit (kernelOn s c).lb
  let s := modCore s c (fun k => { k with m := { k.m with
    load := k.m.load.filter (fun x => x.seq ≠ i.seq)
    stream := k.m.stream.filter (fun x => x.seq ≠ i.seq)
    drain := k.m.drain.filter (fun x => x.seq ≠ i.seq)
    abuf := k.m.abuf.filter (fun x => x.seq ≠ i.seq)
    zeros := k.m.zeros.filter (fun x => x.seq ≠ i.seq)
    array := k.m.array.filter (fun x => x.seq ≠ i.seq)
    out := k.m.out.filter (fun x => x.seq ≠ i.seq) } })
  let s :=
    if i.op.streams then
      (List.range (i.tn + 1)).foldl (fun s k => freeAccRows s c (i.td + k) 0 (min 128 (i.rowsM - 128 * k))) s
    else if i.op = .drain then
      let s := (List.range i.nrows).foldl (fun s r =>
        let a := i.reg 0 + r * (drainPitch i).2
        let s := if a + (drainPitch i).1 ≤ limit then freeScratch s c a (drainPitch i).1 else s
        let d := i.reg 2 + r * drainScalePitch i
        if isMX i.dfmt && d + 4 ≤ limit then freeScratch s c d 4 else s) s
      freeAccRows s c i.ts i.row0 (min i.nrows (128 - i.row0))
    else s
  coreFault s c { groupFault s c i.grp code i.lanes (lowLane i.lanes) (BitVec.ofNat 64 addr) with pc := i.pc }

/-- Reads scratchpad for the matrix unit: the bytes, or the error of an uncorrectable or poisoned word (R130, R193, R194). -/
def matrixRead (s : State) (c a n : Nat) : Option Nat × List Byte × State :=
  let (f, s) := scanWords s c srcMatrix (wordsOf a n)
  (if !f.ue.isEmpty then some errScratchEcc else if !f.bad.isEmpty then some errDataPoison else none, scrBytes s c a n, s)

/-- Replaces an instruction in its engine. -/
def setM (s : State) (c : Nat) (i : MInstr) : State :=
  modCore s c (fun k =>
    let q := mapIf (fun x => decide (x.seq = i.seq)) (fun _ => i) (k.m.queue i.op.engine)
    { k with m := k.m.setQueue i.op.engine q })

/-- The binary32 words that bytes spell. -/
def wordsLE : Nat → List Byte → List Word
  | 0, _ => []
  | n + 1, l => BitVec.ofNat 32 (leNat (l.take 4)) :: wordsLE n (l.drop 4)

/-! ## The checks and the start of an instruction (R121, R122, R130, R131) -/

/-- Has a stream's every row entered the array or left as a zero row? -/
def MInstr.allIn (i : MInstr) : Bool := i.finished || decide (i.rows = i.rowsM)

/-- The bytes of an A row, its pitch, and the pitch of its block scales (R112). -/
def aRow (i : MInstr) (kw : Nat) : Nat × Nat × Nat :=
  let size := kw * elemBits i.afmt / 8
  (size, if bitsOf (i.reg 1) 0 16 = 0 then size else bitsOf (i.reg 1) 0 16,
    if bitsOf (i.reg 3) 0 16 = 0 then kw / 32 else bitsOf (i.reg 3) 0 16)

/-- The reduction width that a stream's rows have: of its slot's latest load, else of the dense class of its format. -/
def streamKw (m : Matrix) (i : MInstr) : Nat :=
  match slotShape m i.slotNo i.seq with
  | some (_, cls, spn) => kwOf cls spn
  | none => ktOf (classOf (elemBits i.afmt))

/-- The parameter, alignment and range checks of a stream before its first fetch (R130): an error and its address. -/
def streamCheck (m : Matrix) (i : MInstr) (limit : Nat) : Option (Nat × Nat) :=
  let kw := streamKw m i
  let (size, pitch, sp) := aRow i kw
  let read := (List.range i.rowsM).filter (fun r => !i.skips r)
  if bitsOf (i.reg 1) 28 4 ≠ 0 || bitsOf (i.reg 3) 16 16 ≠ 0 || i.reg 5 ≠ 0 || i.reg 6 ≠ 0 || i.reg 7 ≠ 0 then
    some (errMatrixParam, 0)
  else if i.reg 0 % 32 ≠ 0 || bitsOf (i.reg 1) 0 16 % 32 ≠ 0 then some (errMisaligned, i.reg 0)
  else if isMX i.afmt && (i.reg 2 % (kw / 32) ≠ 0 || bitsOf (i.reg 3) 0 16 % (kw / 32) ≠ 0) then
    some (errMisaligned, i.reg 2)
  else match read.find? (fun r => decide (limit < i.reg 0 + r * pitch + size)) with
    | some r => some (errScratchRange, i.reg 0 + r * pitch)
    | none => match read.find? (fun r => isMX i.afmt && decide (limit < i.reg 2 + r * sp + kw / 32)) with
      | some r => some (errScratchRange, i.reg 2 + r * sp)
      | none => none

/-- The checks of a drain before its first read (R118, R130). -/
def drainCheck (i : MInstr) (limit : Nat) : Option (Nat × Nat) :=
  let (size, pitch) := drainPitch i
  let last := i.nrows - 1
  if bitAt (i.reg 1) 23 || bitAt (i.reg 1) 31 || bitsOf (i.reg 3) 16 16 ≠ 0 || 127 < i.row0 + last then
    some (errMatrixParam, 0)
  else if i.reg 0 % 32 ≠ 0 || bitsOf (i.reg 1) 0 16 % 32 ≠ 0 then some (errMisaligned, i.reg 0)
  else if isMX i.dfmt && (i.reg 2 % 4 ≠ 0 || bitsOf (i.reg 3) 0 16 % 4 ≠ 0) then some (errMisaligned, i.reg 2)
  else if i.smode = 2 && i.reg 4 % 512 ≠ 0 then some (errMisaligned, i.reg 4)
  else if i.bias && i.reg 5 % 512 ≠ 0 then some (errMisaligned, i.reg 5)
  else if limit < i.reg 0 + last * pitch + size then some (errScratchRange, i.reg 0 + last * pitch)
  else if isMX i.dfmt && limit < i.reg 2 + last * drainScalePitch i + 4 then
    some (errScratchRange, i.reg 2 + last * drainScalePitch i)
  else if i.smode = 2 && limit < i.reg 4 + 512 then some (errScratchRange, i.reg 4)
  else if i.bias && limit < i.reg 5 + 512 then some (errScratchRange, i.reg 5)
  else none

/-- The checks of a slot load (R109, R130). -/
def loadCheck (i : MInstr) (limit : Nat) : Option (Nat × Nat) :=
  let (v, x) := loadBytes i.wfmt i.cls i.spn
  if i.reg 0 % 256 ≠ 0 then some (errMisaligned, i.reg 0)
  else if i.spn ≠ 0 && i.reg 1 % 256 ≠ 0 then some (errMisaligned, i.reg 1)
  else if limit < i.reg 0 + v then some (errScratchRange, i.reg 0)
  else if i.spn ≠ 0 && limit < i.reg 1 + x then some (errScratchRange, i.reg 1)
  else none

/-- Is it an instruction's turn to begin in its engine (R121, R122, R128)? Loads on a slot wait for the earlier streams on it
to have entered; a stream's fetch for the earlier streams to be fetched whole; ATILE for them to have entered. -/
def mTurn (m : Matrix) (i : MInstr) : Bool :=
  let earlier := m.stream.filter (fun x => decide (x.seq < i.seq))
  match i.op with
  | .loadw | .wblock | .wtile =>
    (m.load.head?.map MInstr.seq) = some i.seq
      && earlier.all (fun x => !x.op.streams || x.slotNo ≠ i.slotNo || x.allIn)
  | .stream | .sparse => earlier.all (fun x => !x.op.streams || decide (x.fetched = x.rowsM))
  | .atile => earlier.all (fun x => if x.op.streams then x.allIn else x.finished)
  | .drain => (m.drain.head?.map MInstr.seq) = some i.seq

/-- Marks an instruction, and every earlier one of its engine, as begun (R131). -/
def markBegun (s : State) (c : Nat) (i : MInstr) : State :=
  modCore s c (fun k =>
    let q := mapIf (fun x => decide (x.seq ≤ i.seq)) (fun x => { x with begun := true }) (k.m.queue i.op.engine)
    { k with m := k.m.setQueue i.op.engine q })

/-- WBLOCK's action: the block scales enter the slot's store (R110). -/
def doWblock (s : State) (c : Nat) (i : MInstr) : State :=
  let w := (core s c).m.slot i.slotNo
  if !w.loaded then mFault s c i errMatrixOperand 0 else
  let n := 128 * kwOf w.cls w.spn / 32
  if scrLimit (kernelOn s c).lb < i.reg 0 + n then mFault s c i errScratchRange (i.reg 0) else
  let r := matrixRead s c (i.reg 0) n
  match r.1 with
  | some e => mFault (markBegun r.2.2 c i) c i e (i.reg 0)
  | none =>
    let s := modCore (markBegun r.2.2 c i) c (fun k => { k with m := k.m.setSlot i.slotNo { w with blk := some r.2.1 } })
    setM s c { i with begun := true, finished := true }

/-- A drain's start: its scale and bias vectors are read, and with stochastic rounding the generator is loaded (R61, R119,
R125). One that does none of these has begun only once it reads its first row (R131). -/
def startDrain (s : State) (c : Nat) (i : MInstr) : State :=
  let acts := i.smode = 2 || i.bias || i.rnd = 1
  let s := if acts then markBegun s c i else s
  let i := { i with begun := i.begun || acts, slotOk := true }
  let a := if i.smode = 2 then matrixRead s c (i.reg 4) 512 else (none, [], s)
  match a.1 with
  | some e => mFault a.2.2 c i e (i.reg 4)
  | none =>
    let b := if i.bias then matrixRead a.2.2 c (i.reg 5) 512 else (none, [], a.2.2)
    match b.1 with
    | some e => mFault b.2.2 c i e (i.reg 5)
    | none =>
      let scales := if i.smode = 2 then wordsLE 128 a.2.1
        else List.replicate 128 (if i.smode = 1 then BitVec.ofNat 32 (i.reg 4) else 0)
      let biases := if i.bias then wordsLE 128 b.2.1 else List.replicate 128 0
      let s := setM b.2.2 c { i with vec := scales ++ biases }
      if i.rnd = 1 then
        modCore s c (fun k => { k with m := { k.m with
          lfsr := lfsrLoad (kernelOn s c).lb.seed (BitVec.ofNat 32 (i.reg 6)) } })
      else s

/-- The next row a stream fetches: the first that has not arrived and that SKIP does not mark. -/
def MInstr.nextFetch (i : MInstr) : Option Nat := ((List.range i.rowsM).drop i.fetched).find? (fun m => !i.skips m)

/-- Rows at the end of a stream that SKIP marks need no fetch; once every row has arrived and none of a stream that has
entered rows is left in the A buffer, its last row has entered. -/
def fetchedTo (m : Matrix) (i : MInstr) : MInstr :=
  let i := if i.nextFetch.isNone then { i with fetched := i.rowsM } else i
  if i.entered ≠ 0 && i.fetched = i.rowsM && !m.abuf.any (fun r => r.seq = i.seq) then { i with rows := i.rowsM } else i

/-- The accumulator row that row `m` of a stream updates: tile × 128 + row (R114). -/
def accRow (i : MInstr) (m : Nat) : Nat :=
  let r := m % (128 * (i.tn + 1))
  (i.td + r / 128) * 128 + r % 128

/-- Makes the checks of an instruction that acts in its engine, and begins it (R130, R131). -/
def beginM (s : State) (c : Nat) (i : MInstr) : State :=
  let limit := scrLimit (kernelOn s c).lb
  let m := (core s c).m
  match i.op with
  | .loadw => match loadCheck i limit with
    | some (e, a) => mFault s c i e a
    | none => markBegun s c i
  | .wblock => doWblock s c i
  | .wtile =>
    let w := m.slot i.slotNo
    if !w.loaded then mFault s c i errMatrixOperand 0 else
    let n := scalesOf (some (w.fmt, w.cls, w.spn))
    let s := modCore (markBegun s c i) c (fun k => { k with m := k.m.setSlot i.slotNo { w with
      scales := i.u.take n ++ w.scales.drop n } })
    setM s c { i with begun := true, finished := true }
  | .atile =>
    setM (modCore (markBegun s c i) c (fun k => { k with m := { k.m with ascale := i.u } })) c
      { i with begun := true, finished := true }
  | .stream | .sparse => match streamCheck m i limit with
    | some (e, a) => mFault s c i e a
    | none => setM (markBegun s c i) c (fetchedTo m { i with begun := true })
  | .drain => match drainCheck i limit with
    | some (e, a) => mFault s c i e a
    | none => startDrain s c i

/-- Does the batch of a core run on, with issue not stopped: instructions may begin in its engines? -/
def mRuns (s : State) (c : Nat) : Bool :=
  match batchOf s c with
  | some b => b.why = .running && !issueStopped s c
  | none => false

/-- What an engine of a core does in a clock; a core whose clock is stopped does nothing (R488, R491). -/
def onClock (s : State) (c : Nat) (s' : State) : Out := .next (if asleep s c then s else s')

/-- Does an instruction that has begun wait under R122 for one of another engine to run: a drain for the streams before it that
update its rows, a stream for the loads before it on its slot; and so for those before these in their engine? -/
def mWants (m : Matrix) (j i : MInstr) : Bool :=
  let between (x : MInstr) : Bool := decide (i.seq ≤ x.seq) && decide (x.seq < j.seq) && !x.finished
  if j.op = .drain then
    i.op.engine = 1 && m.stream.any (fun x => between x && x.op.streams && ((List.range j.nrows).drop j.reads).any (fun k =>
      ((List.range x.rowsM).drop x.upd).any (fun q => accRow x q = j.ts * 128 + j.row0 + k)))
  else j.op.streams && i.op.engine = 0 && m.load.any (fun x => between x && x.slotNo = j.slotNo)

/-- May an instruction begin: its batch runs on, or it stops and one that has begun cannot otherwise come to its end (R122, R131;
log entry 61)? -/
def mMayBegin (s : State) (c : Nat) (i : MInstr) : Bool :=
  let m := (core s c).m
  mRuns s c || (match batchOf s c with
    | some b => b.why = .preempt && !issueStopped s c
        && (m.load ++ m.stream ++ m.drain).any (fun j => j.begun && !j.finished && mWants m j i)
    | none => false)

/-- M_ENGINE_BEGIN: an M instruction whose turn it is, after the hazards of R122, is checked and begins in its engine.
`seq` is its number in issue order; `ups` the upsets of the words it reads now. -/
def execMEngineBegin (c seq : Nat) (ups : List Upset) (s : State) : Out :=
  .next (
    let m := (core s c).m
    match (m.load ++ m.stream ++ m.drain).find? (fun i => i.seq = seq && !i.finished) with
    | none => s
    | some i =>
      let acted := (if i.op = .drain then i.slotOk else i.begun) && !(i.op = .atile)
      if acted || !i.begun && !mMayBegin s c i || !mTurn m i then s else beginM (applyUpsets s c ups) c i)

/-! ## Slot loads (R107, R109, R138) -/

/-- Are the stored positions of every group of a sparse slot strictly ascending (R134, R138)? -/
def sparseOk (idx : List Byte) (kw n : Nat) : Bool :=
  (List.range (128 * (kw / 8))).all (fun g =>
    (List.range (n - 1)).all (fun j => decide (getElem 3 idx (g * n + j) < getElem 3 idx (g * n + j + 1))))

/-- SLOT_LOAD_COMPLETE: the last byte of a weight tile is in its slot: the tile, format, class and N are replaced, its block
scales are empty and its tile scales 1.0; positions out of order fault (R107, R126, R138). -/
def execSlotLoadComplete (c : Nat) (ups : List Upset) (s : State) : Out :=
  onClock s c (match (core s c).m.load.head? with
    | none => s
    | some i =>
      if !(i.op = .loadw && i.begun && !i.finished) then s else
      let s := applyUpsets s c ups
      let (v, x) := loadBytes i.wfmt i.cls i.spn
      let a := matrixRead s c (i.reg 0) v
      match a.1 with
      | some e => mFault a.2.2 c i e (i.reg 0)
      | none =>
        let b := if i.spn = 0 then (none, [], a.2.2) else matrixRead a.2.2 c (i.reg 1) x
        match b.1 with
        | some e => mFault b.2.2 c i e (i.reg 1)
        | none =>
          if i.spn ≠ 0 && !sparseOk b.2.1 (kwOf i.cls i.spn) i.spn then mFault b.2.2 c i errSparseIndex (i.reg 1) else
          let w : WSlot := { WSlot.empty with
            loaded := true, fmt := i.wfmt, cls := i.cls, spn := i.spn, bytes := a.2.1, idx := b.2.1 }
          setM (modCore b.2.2 c (fun k => { k with m := k.m.setSlot i.slotNo w })) c { i with finished := true })

/-! ## Arithmetic of a row (R47 to R51, R132 to R137) -/

/-- The weight of column `n` at reduction index `k` (R106, R134 to R137); an unstored one is +0. -/
def WSlot.weight (w : WSlot) (n k : Nat) : FVal :=
  match elemOf w.fmt with
  | none => .nan
  | some el =>
    let bits := elemBits w.fmt
    let kw := kwOf w.cls w.spn
    if w.spn = 0 then decodeElem el (getElem bits w.bytes (n * kw + k))
    else
      let base := n * (kw * w.spn / 8) + k / 8 * w.spn
      match (List.range w.spn).find? (fun j => getElem 3 w.idx (base + j) = k % 8) with
      | some j => decodeElem el (getElem bits w.bytes (base + j))
      | none => .fin false 0 0

/-- The scale of a weight: its block's, or its tile's (R114, R137). -/
def WSlot.wscale (w : WSlot) (n k : Nat) : FVal :=
  if isMX w.fmt then
    let kw := kwOf w.cls w.spn
    e8m0 (((w.blk.getD []).getD (n * (kw / 32) + k / 32) 0).toNat)
  else f32 (w.scales.getD (k / 128) 0x3F800000)

/-- The element and scale of an A row at an index: a row that SKIP marks is all +0, with scale 1.0 for an MX format
(R132). -/
def aElem (i : MInstr) (r : Option ARow) (k : Nat) : FVal × FVal :=
  let tile := f32 (i.vec.getD (k / 128) 0x3F800000)
  match r, elemOf i.afmt with
  | some r, some el => (decodeElem el (r.codes.getD k 0), if isMX i.afmt then e8m0 (r.scales.getD (k / 32) 0) else tile)
  | _, _ => (.fin false 0 0, if isMX i.afmt then e8m0 0x7F else tile)

/-- The terms of a group of 32 indices for a column, and whether a factor is a NaN (R48, R132). -/
def groupTerms (i : MInstr) (r : Option ARow) (n g : Nat) : List FVal × Bool :=
  let fs := (List.range 32).map (fun j =>
    let a := aElem i r (32 * g + j)
    (a.1, i.slot.weight n (32 * g + j), a.2, i.slot.wscale n (32 * g + j)))
  (fs.map (fun f => fmulX (fmulX (fmulX f.1 f.2.1) f.2.2.1) f.2.2.2),
    fs.any (fun f => f.1.isNan || f.2.1.isNan || f.2.2.1.isNan || f.2.2.2.isNan))

/-- One accumulator element after a row: its groups in ascending order, each rounded once (R48, R49, R114). -/
def reduceRow (i : MInstr) (r : Option ARow) (n : Nat) (acc : Word) : Word × Flags :=
  (List.range (kwOf i.slot.cls i.slot.spn / 32)).foldl (fun (p : Word × Flags) g =>
    let t := groupTerms i r n g
    let v := toF32 false (t.2 || (f32 p.1).isNan) (sumTerms (f32 p.1 :: t.1))
    (v.1, p.2 ||| v.2)) (acc, 0)

/-- Updates the accumulator row of row `m` of a stream; a row taken afresh by INIT loses an earlier error. Only INVALID and
OVERFLOW are flags of a stream (R126). -/
def updateRow (s : State) (c : Nat) (i : MInstr) (m : Nat) (r : Option ARow) : Flags × State :=
  let a := accRow i m
  let first := i.init && decide (m < 128 * (i.tn + 1))
  let k := core s c
  let vs := (List.range 128).map (fun n => reduceRow i r n (if first then 0 else mget 0 k.tacc (a * 128 + n)))
  let t := (vs.zip (List.range 128)).foldl (fun m (v : (Word × Flags) × Nat) => mset 0 m (a * 128 + v.2) v.1.1) k.tacc
  ((vs.foldl (fun f v => f ||| v.2) 0) &&& (flInvalid ||| flOverflow),
    setCore s c { k with tacc := t, taccBad := if first then mset false k.taccBad a false else k.taccBad })

/-! ## Streams (R114 to R116, R128, R140 to R144) -/

/-- Is every element of a row zero (R141)? -/
def zeroCodes (fmt : Nat) (codes : List Nat) : Bool :=
  match elemOf fmt with
  | some el => codes.all (fun c => (decodeElem el c).isZero)
  | none => false

/-- Fetches row `m` of a stream: its codes and block scales, or the error its words meet. -/
def fetchRow (s : State) (c : Nat) (i : MInstr) (kw m : Nat) : Option Nat × ARow × State :=
  let (size, pitch, sp) := aRow i kw
  let a := matrixRead s c (i.reg 0 + m * pitch) size
  let b := if isMX i.afmt then matrixRead a.2.2 c (i.reg 2 + m * sp) (kw / 32) else (none, [], a.2.2)
  let codes := (List.range kw).map (fun k => getElem (elemBits i.afmt) a.2.1 k)
  (if a.1.isSome then a.1 else b.1,
    ⟨i.seq, m, codes, b.2.1.map BitVec.toNat, i.zskip && zeroCodes i.afmt codes⟩, b.2.2)

/-- The rows that arrive with the chunk that holds the end of row `m`: rows that end in the same 512 bytes. The chunk is requested
only when the buffer, with `room` places left, has one for every row that begins in it; rows that began before it have theirs
(R128). -/
def chunkRows (i : MInstr) (kw m room : Nat) : List Nat :=
  let (size, pitch, _) := aRow i kw
  let first (r : Nat) : Nat := (i.reg 0 + r * pitch) / 512
  let chunk (r : Nat) : Nat := (i.reg 0 + r * pitch + size - 1) / 512
  let rows := ((List.range i.rowsM).drop m).filter (fun r => !i.skips r)
  if room < (rows.takeWhile (fun r => decide (first r ≤ chunk m))).length then []
  else rows.takeWhile (fun r => chunk r = chunk m)

/-- A row that arrives: it takes a place in the A buffer, or, a zero row under ZSKIP, leaves at once (R142). -/
def arriveRow (s : State) (c : Nat) (seq kw m : Nat) : State :=
  match (core s c).m.stream.find? (fun i => i.seq = seq) with
  | none => s
  | some i =>
    let f := fetchRow s c i kw m
    match f.1 with
    | some e => mFault f.2.2 c i e (i.reg 0 + m * (aRow i kw).2.1)
    | none =>
      let s := setM f.2.2 c { i with fetched := m + 1 }
      if f.2.1.zero then modCore s c (fun k => { k with m := { k.m with zeros := k.m.zeros ++ [f.2.1] } })
      else modCore s c (fun k => { k with m := { k.m with abuf := k.m.abuf ++ [f.2.1] } })

/-- A_CHUNK_ARRIVAL: the next chunk that completes rows of the stream being fetched arrives in the A buffer; its rows are
tested for zero (R128, R141, R142). -/
def execAChunkArrival (c : Nat) (ups : List Upset) (s : State) : Out :=
  onClock s c (
    let m := (core s c).m
    match m.stream.find? (fun i => i.op.streams && i.begun && decide (i.fetched < i.rowsM)) with
    | none => s
    | some i =>
      let kw := streamKw m i
      match i.nextFetch with
      | none => setM s c (fetchedTo m i)
      | some r =>
        let rows := chunkRows i kw r (16 - m.abuf.length)
        if rows.isEmpty then s else
        let s := rows.foldl (fun s r => arriveRow s c i.seq kw r) (applyUpsets s c ups)
        match (core s c).m.stream.find? (fun x => x.seq = i.seq) with
        | some x => setM s c (fetchedTo (core s c).m x)
        | none => s)

/-- The checks of a stream that concern its slot (R47, R130). -/
def slotCheck (i : MInstr) (w : WSlot) : Bool :=
  w.loaded && classOf (max (elemBits i.afmt) (elemBits w.fmt)) = w.cls && (decide (w.spn = 0) == decide (i.op = .stream))
    && (!isMX w.fmt || w.blk.isSome)

/-- Have the earlier loads on a stream's slot completed (R122)? -/
def loadsDone (m : Matrix) (i : MInstr) : Bool :=
  m.load.all (fun x => decide (i.seq < x.seq) || x.slotNo ≠ i.slotNo || x.finished)

/-- Does an earlier drain still have to read an accumulator row that row `r` of a stream updates (R122)? -/
def drainBlocks (m : Matrix) (i : MInstr) (r : Nat) : Bool :=
  m.drain.any (fun d => decide (d.seq < i.seq) && (List.range d.nrows).any (fun k =>
    decide (d.reads ≤ k) && d.ts * 128 + d.row0 + k = accRow i r))

/-- Have the stream instructions before one been carried out as far as its rows need: streams entered, ATILEs done (R121)? -/
def streamTurn (m : Matrix) (i : MInstr) : Bool :=
  (m.stream.filter (fun x => decide (x.seq < i.seq))).all (fun x => if x.op.streams then x.allIn else x.finished)

/-- MATRIX_ROW_ENTRY: the next row enters the array: it is in the A buffer, its slot is loaded, no drain blocks it or the
skipped rows before it; at the first row the slot is checked (R114, R116, R122, R128, R130). -/
def execMatrixRowEntry (c : Nat) (s : State) : Out :=
  onClock s c (
    let m := (core s c).m
    match m.abuf with
    | [] => s
    | r :: rest =>
      match m.stream.find? (fun i => i.seq = r.seq) with
      | none => s
      | some i =>
        let span := (List.range (r.row + 1)).drop i.rows
        if issueStopped s c || !streamTurn m i || !loadsDone m i || span.any (drainBlocks m i) then s else
        let w := m.slot i.slotNo
        if !i.slotOk && !slotCheck i w then mFault s c i errMatrixOperand 0 else
        let i := if i.slotOk then i else { i with slotOk := true, slot := w, vec := m.ascale }
        let i := { i with rows := r.row + 1, entered := i.entered + 1 }
        let s := modCore s c (fun k => { k with m := { k.m with abuf := rest, array := k.m.array ++ [r] } })
        setM s c (fetchedTo (core s c).m i))

/-- Applies the updates of zero rows and skipped rows of a stream (R116, R142). -/
def applyZero (s : State) (c : Nat) (i : MInstr) (l : List Nat) : Flags × State :=
  l.foldl (fun (p : Flags × State) m =>
    let v := updateRow p.2 c i m ((core p.2 c).m.zeros.find? (fun r => r.seq = i.seq && r.row = m))
    (p.1 ||| v.1, v.2)) (0, s)

/-- Marks an accumulator row as having an uncorrectable error, when the read of it found one (R124). -/
def accUpset (s : State) (c row : Nat) (bad : Bool) : State :=
  if bad then modCore s c (fun k => { k with taccBad := mset false k.taccBad row true }) else s

/-- Is the accumulator row of row `m` of a stream read by its update, not taken afresh (R114)? -/
def accRead (i : MInstr) (m : Nat) : Bool := !(i.init && decide (m < 128 * (i.tn + 1)))

/-- The uncorrectable errors that the updates of the rows of a list meet, named in `bad` by row of the stream (R124). -/
def accUpsets (s : State) (c : Nat) (i : MInstr) (l bad : List Nat) : State :=
  (l.filter (fun m => bad.contains m && accRead i m)).foldl (fun s m => accUpset s c (accRow i m) true) s

/-- Is any accumulator row of a list in error, and read (not taken afresh)? -/
def accBad (s : State) (c : Nat) (i : MInstr) (l : List Nat) : Bool :=
  l.any (fun m => mget false (core s c).taccBad (accRow i m) && accRead i m)

/-- The row of a stream that stands first in the array. -/
def firstRow (m : Matrix) (i : MInstr) : Option ARow := m.array.head?.filter (fun r => r.seq = i.seq)

/-- The oldest row in the array, of stream `i`, updates its accumulator row, after the zero and skipped rows before it. -/
def updateEntered (s : State) (c : Nat) (bad : List Nat) (i : MInstr) (r : ARow) : State :=
  let before := (List.range r.row).drop i.upd
  let s := accUpsets s c i (before ++ [r.row]) bad
  if accBad s c i (before ++ [r.row]) then mFault s c i errAccEcc 0 else
  let z := applyZero s c i before
  let v := updateRow z.2 c i r.row (some r)
  let i := { i with upd := r.row + 1, flags := i.flags ||| z.1 ||| v.1 }
  setM (modCore v.2 c (fun k => { k with m := { k.m with array := k.m.array.drop 1 } })) c { i with finished := i.upd = i.rowsM }

/-- The zero and skipped rows of a stream that no row follows update their accumulator rows. -/
def updateTrailing (s : State) (c : Nat) (bad : List Nat) (i : MInstr) : State :=
  let l := (List.range i.rowsM).drop i.upd
  let s := accUpsets s c i l bad
  if accBad s c i l then mFault s c i errAccEcc 0 else
  let z := applyZero s c i l
  setM z.2 c { i with upd := i.rowsM, flags := i.flags ||| z.1, finished := true }

/-- ACC_UPDATE: the oldest stream goes on: its oldest row in the array updates its accumulator row, after the pending zero and
skipped rows before it; once none is left, its trailing ones are applied, before any row of a later stream (R116, R125, R142).
`bad` names, by row of the stream, the uncorrectable errors that the reads meet (R124, R130). -/
def execAccUpdate (c : Nat) (bad : List Nat) (s : State) : Out :=
  onClock s c (
    let m := (core s c).m
    match m.stream.find? (fun i => i.op.streams && !i.finished) with
    | none => s
    | some i => match firstRow m i with
      | some r => updateEntered s c bad i r
      | none =>
        if i.entered = 0 || !i.allIn || ((List.range i.rowsM).drop i.upd).any (drainBlocks m i) then s
        else updateTrailing s c bad i)

/-- NO_ROW_STREAM_UPDATE: a stream of which no row enters, its chunks arrived, its slot loaded and the stream before it
updated, is checked against its slot, applies all its updates and completes (R130, R144). `x.bad` is as ACC_UPDATE's `bad`. -/
def execNoRowStreamUpdate (x : RowErrs) (s : State) : Out :=
  let c := x.core
  onClock s c (
    let m := (core s c).m
    match m.stream.find? (fun i => i.op.streams && !i.finished) with
    | none => s
    | some i =>
      let l := List.range i.rowsM
      if !i.begun || i.entered ≠ 0 || i.fetched ≠ i.rowsM || m.abuf.any (fun r => r.seq = i.seq) || !streamTurn m i
        || !loadsDone m i || l.any (drainBlocks m i) then s else
      let w := m.slot i.slotNo
      if !slotCheck i w then mFault s c i errMatrixOperand 0
      else updateTrailing s c x.bad { i with slotOk := true, slot := w, vec := m.ascale, rows := i.rowsM })

/-! ## Drains (R119, R120) -/

/-- One rounded step of a drain: its value and the flags so far. -/
def dStep (nanIn : Bool) (v : FVal) (f : Flags) : Word × Flags :=
  let r := toF32 false nanIn v
  (r.1, f ||| r.2)

/-- The binary32 constants of GELU (R120): √(2/π) and 0.044715. -/
def gelu1 : Word := 0x3F4C422A
def gelu2 : Word := 0x3D372713

/-- The activations of R120. -/
def activate (act : Nat) (param : Word) (x : Word) : Word × Flags :=
  let v := f32 x
  if act = 0 then (x, 0)
  else if v.isNan then (canonNaN, 0)
  else if act = 1 then (if fltX (.fin false 0 0) v then x else 0, 0)
  else if act = 2 then
    let c := (f32 param).abs
    let y := fminX (fmaxX v c.negate) c
    ((toF32 false true y).1, 0)
  else if act = 3 then
    let q := dStep false (fmulX v v) 0
    let q := dStep (f32 q.1).isNan (fmulX (f32 q.1) v) q.2
    let y := dStep (f32 q.1).isNan (faddX (fmulX (f32 gelu2) (f32 q.1)) v) q.2
    let y := dStep (f32 y.1).isNan (fmulX (f32 y.1) (f32 gelu1)) y.2
    let t := approxResult 0x15 false y.1
    let y := (t.1, y.2 ||| t.2)
    let y := dStep (f32 y.1).isNan (faddX (f32 y.1) (.fin false 1 0)) y.2
    let y := dStep (f32 y.1).isNan (fmulX (f32 y.1) v) y.2
    dStep (f32 y.1).isNan (fmulX (f32 y.1) (.fin false 1 (-1))) y.2
  else if act = 4 then
    let g := approxResult 0x16 false x
    dStep (f32 g.1).isNan (fmulX v (f32 g.1)) g.2
  else if act = 5 then approxResult 0x16 false x
  else if act = 6 then approxResult 0x15 false x
  else if fltX v (.fin false 0 0) then dStep (f32 param).isNan (fmulX v (f32 param)) 0
  else (x, 0)

/-- An element of a drain before its conversion (R119): the scale, bias and activation steps. -/
def drainElem (i : MInstr) (acc : Word) (n : Nat) : Word × Flags :=
  let v := f32 acc
  let sc := f32 (i.vec.getD n 0)
  let b := f32 (i.vec.getD (128 + n) 0)
  let x :=
    if i.smode ≠ 0 && i.bias then dStep (v.isNan || sc.isNan || b.isNan) (faddX (fmulX v sc) b) 0
    else if i.smode ≠ 0 then dStep (v.isNan || sc.isNan) (fmulX v sc) 0
    else if i.bias then dStep (v.isNan || b.isNan) (faddX v b) 0
    else (acc, 0)
  let y := activate i.act (BitVec.ofNat 32 (i.reg 7)) x.1
  (y.1, x.2 ||| y.2)

/-- The rounding of each of `n` elements, and the generator after them (R60, R62). -/
def rndsFrom (stoch : Bool) (lfsr : Word) : Nat → List Rnd × Word
  | 0 => ([], lfsr)
  | n + 1 =>
    if stoch then
      let l := lfsrStep lfsr
      let r := rndsFrom stoch l n
      (.stoch (lfsrR l) :: r.1, r.2)
    else
      let r := rndsFrom stoch lfsr n
      (.rne :: r.1, r.2)

/-- Converts a row of 128 values to DFMT: the bytes, the block scale bytes, and the flags (R57 to R59, R63, R64). -/
def drainRow (i : MInstr) (flush : Bool) (rnds : List Rnd) (xs : List Word) : List Byte × List Byte × Flags :=
  let w := elemBits i.dfmt
  if isMX i.dfmt then
    let bs := (List.range 4).map (fun b =>
      toBlock i.dfmt i.sat flush ((rnds.drop (32 * b)).take 32) (((xs.drop (32 * b)).take 32).map f32))
    (packElems w (bs.flatMap (fun b => b.2.1)), bs.map (fun b => BitVec.ofNat 8 b.1), bs.foldl (fun f b => f ||| b.2.2) 0)
  else match elemOf i.dfmt with
    | none => ([], [], 0)
    | some el =>
      let rs := (xs.zip rnds).map (fun p => toElem el p.2 i.sat flush (f32 p.1))
      (packElems w (rs.map Prod.fst), [], rs.foldl (fun f r => f ||| r.2) 0)

/-- May a drain read tile row `r`: every earlier stream has made its last update of it (R122)? -/
def drainReady (m : Matrix) (d : MInstr) (r : Nat) : Bool :=
  m.stream.all (fun i => !i.op.streams || decide (d.seq < i.seq)
    || ((List.range i.rowsM).drop i.upd).all (fun q => accRow i q ≠ r))

/-- DRAIN_ROW_READ: the drain, which has then begun, reads its next accumulator row, clears it with CLR, and processes its elements
into the output buffer of 16 rows (R119, R125, R127, R131). `bad` is an uncorrectable error of the row. -/
def execDrainRowRead (c : Nat) (bad : Bool) (s : State) : Out :=
  onClock s c (
    let m := (core s c).m
    match m.drain.head? with
    | none => s
    | some i =>
      let r := i.ts * 128 + i.row0 + i.reads
      if !i.slotOk || !i.begun && !mRuns s c || i.nrows ≤ i.reads || 16 ≤ m.out.length || !drainReady m i r then s else
      let s := accUpset s c r bad
      let k := core s c
      if mget false k.taccBad r then mFault s c i errAccEcc 0 else
      let xs := (List.range 128).map (fun n => drainElem i (mget 0 k.tacc (r * 128 + n)) n)
      let rnds := rndsFrom (i.rnd = 1) m.lfsr 128
      let row := drainRow i (flushOf s c) rnds.1 (xs.map Prod.fst)
      let fl := xs.foldl (fun f x => f ||| x.2) row.2.2
      let t := if i.clr then k.tacc.filter (fun kv => !(r * 128 ≤ kv.1 && kv.1 < r * 128 + 128)) else k.tacc
      let s := setCore s c { k with
        tacc := t, m := { k.m with lfsr := rnds.2, out := k.m.out ++ [⟨i.seq, i.reads, row.1, row.2.1⟩] } }
      setM (markBegun s c i) c { i with begun := true, reads := i.reads + 1, flags := i.flags ||| fl })

/-- DRAIN_ROW_WRITE: the oldest converted row, with its scale bytes, is written to scratchpad (R118, R125). -/
def execDrainRowWrite (c : Nat) (s : State) : Out :=
  onClock s c (
    let m := (core s c).m
    match m.out, m.drain.head? with
    | r :: rest, some i =>
      let s := scrWrite s c (i.reg 0 + r.row * (drainPitch i).2) r.bytes [] srcMatrix
      let s := if r.scales.isEmpty then s else scrWrite s c (i.reg 2 + r.row * drainScalePitch i) r.scales [] srcMatrix
      setM (modCore s c (fun k => { k with m := { k.m with out := rest } })) c
        { i with writes := i.writes + 1, finished := i.writes + 1 = i.nrows }
    | _, _ => s)

/-! ## Completion (R126, R214) -/

/-- The credit line that a completion raises (R214). -/
def MOp.credit : MOp → Option Nat
  | .loadw | .wblock => some 13
  | .stream | .sparse => some 14
  | .drain => some 15
  | _ => none

/-- Raises an instruction's flags in its group; a group that has ended hands them to the kernel's summary (R99, R126). -/
def raiseM (s : State) (c : Nat) (i : MInstr) : State :=
  match groupOf s c i.grp with
  | none => s
  | some g =>
    let s' := setGroup s c i.grp (raiseFlags g i.flags)
    if g.ended then
      match batchOf s c with
      | some b => modKernel s' b.kernel (fun k => { k with flagSum := k.flagSum ||| i.flags })
      | none => s'
    else s'

/-- M_INSTR_COMPLETE: the oldest instruction of an engine, finished, completes: its flags are raised, and its credit line
(R126, R214). The engine is 0 load, 1 stream, 2 drain. -/
def execMInstrComplete (c e : Nat) (s : State) : Out :=
  onClock s c (
    match (core s c).m.queue e with
    | [] => s
    | i :: rest =>
      if !i.finished then s else
      let s := modCore s c (fun k => { k with m :=
        { k.m.setQueue e rest with zeros := k.m.zeros.filter (fun r => r.seq ≠ i.seq) } })
      let s := raiseM s c i
      match i.op.credit with
      | some l => raiseCredit s c l 1
      | none => s)

end Sys2Proof.Machine
end

