-- ==== Sys2Proof/Machine/Resets.lean ====
section
/-!
DEFINITION. Compute resets and their domains (R513 to R519), full resets by command, escalation and the override that ends
being out of service (R523 to R527), and the watchdogs (R520 to R522).
-/

namespace Sys2Proof.Machine

/-! ## Domains (R513) -/

/-- The number that stands for the whole chip among compute resets. -/
def chipUnit : Nat := 32

/-- Is an instance's work in the domain of a reset: the instance's own, or, of a chip reset, every one's? -/
def inDomain (u inst : Nat) : Bool := u = chipUnit || inst = u

/-- The cores of a domain. -/
def domainCores (s : State) (u : Nat) : List Nat :=
  if u = chipUnit then enabledCores s
  else (List.range 144).filter (fun c => getF s f_CMP_CORE_STATE c ≠ 0 && getF s f_CMP_CORE_INSTANCE c = u)

/-- The wings on which they lie. -/
def domainWings (s : State) (u : Nat) : List Nat :=
  (List.range 8).filter (fun w => (domainCores s u).any (fun c => wingOf s c = w))

/-- Has an Imago a slice of any kind? -/
def hasSlices (s : State) (i : Nat) : Bool :=
  holdsMemory s i || !(domainCores s i).isEmpty
    || (List.range 32).any (fun p => getF s f_CMP_LINK_STATE p = 2 && getF s f_CMP_LINK_INSTANCE p = i)

/-- Tells every KNOWN peer that compute resets, or is ready again; that one is told too which resets its own compute meanwhile
(R434, R515). The message's form is the model's (log entry 29): AUX
bit 0 says reset, [5:1] name the instance, and bit 6 the whole chip. -/
def noticePeers (s : State) (u : Nat) (reset : Bool) : State :=
  let aux := b2n reset + (if u = chipUnit then 64 else 2 * (u % 32))
  ((s.peers.map Prod.fst).filter (fun k => peerState s k = peerKnown || (!reset && peerState s k = peerReset : Bool))).foldl (fun s k =>
    sendOrDrop s { LinkMsg.blank s msgPeerNotice (getF s f_LNK_PEER_CHIP k) with aux := aux }) s

/-! ## The fence (R514, R515) -/

/-- Removes the dispatches of a domain that wait in Gate units' queues: they fail with RESET_ABORT. -/
def emptyGates (s : State) (u : Nat) : State :=
  (List.range 8).foldl (fun s w =>
    let gone := (gateOf s w).waiting.filter (fun j => inDomain u j.inst)
    let s := modGate s w (fun g => { g with waiting := g.waiting.filter (fun j => !inDomain u j.inst) })
    gone.foldl (fun s j => endCmd s j.cmd errResetAbort) s) s

/-- Stops issue from every batch of a domain. -/
def stopDomain (s : State) (u : Nat) : State :=
  { s with cores := s.cores.map (fun kv : Nat × Core =>
      match kv.2.batch with
      | some b =>
        if inDomain u (kernel s b.kernel).inst then (kv.1, { kv.2 with batch := some (b.stopFor .reset s.now) })
        else kv
      | none => kv) }

/-- A compute reset begins: its domain is fenced, its dispatches leave the Gate queues, its cores are woken, and peers are told. A
chip compute reset absorbs those of Imagos, whose drains keep their earlier limits (R519, R546). -/
def beginFence (s : State) (u cause : Nat) : State :=
  let mask := getF s f_RST_IMG_RESET_MASK
  let s := if u = chipUnit then setF s f_RST_STATUS_CHIP_RESET 0 1
    else setF s f_RST_IMG_RESET_MASK 0 (Nat.lor mask (2 ^ u))
  let s := { s with resets := mput s.resets u ⟨s.now, cause, false⟩ }
  let s := stopDomain (emptyGates s u) u
  let s := (domainWings s u).foldl wakeWing ((domainCores s u).foldl wakeCore s)
  noticePeers s u true

/-- Starts a compute reset with a cause (R519, R523 to R525): one already under way, or absorbed, goes on; before READY no compute
is running. A counted one that brings the count to the threshold takes the device out of service: a chip compute reset runs
with the cause ESCALATION. -/
def startCompute (s : State) (u cause : Nat) (counted : Bool) : State :=
  if !flagF s f_RST_STATE_READY || flagF s f_RST_STATUS_CHIP_RESET || (u < 32 && bitAt (getF s f_RST_IMG_RESET_MASK) u)
      || (u < 32 && !hasSlices s u) then s
  else
    let counted := counted || (u < 32 && flagF s f_RST_ESC_CFG_IMAGO)
    let r := countReset s counted
    if r.1 then
      let s := recordReset (noteOos (setF r.2 f_RST_STATE_OUT_OF_SERVICE 0 1)) 2 8 0 true
      beginFence s chipUnit 8
    else if u = chipUnit then beginFence (recordReset r.2 2 cause 0 counted) u cause
    else beginFence (recordReset r.2 1 cause u counted) u cause

/-- IMAGO_RESET: RST_CMD IMAGO_RESET resets the compute of an instance's Imago; one without slices is left alone (R515, R528). -/
def execImagoReset (i : Nat) (count : Bool) (s : State) : Out :=
  .next (if i < 32 then startCompute s i 1 count else s)

/-- CHIP_RESET: RST_CMD CHIP_RESET resets all compute of the chip (R515). -/
def execChipReset (count : Bool) (s : State) : Out := .next (startCompute s chipUnit 1 count)

/-- FULL_RESET: RST_CMD FULL_RESET starts the bring-up again from E1, with SELFTEST and RETRAIN as given (R498, R515). The command
can come once E3 has made BAR0 reachable. -/
def execFullReset (count selftest retrain : Bool) (s : State) : Out :=
  .next (if s.aon.off || getF s f_RST_STATE_PHASE ≤ 3 then s else fullReset s 1 count selftest retrain)

/-! ## The end of the drain (R395, R514, R515) -/

/-- The contexts of a domain. -/
def domainCtxs (s : State) (u : Nat) : List Nat := (s.ctxs.filter (fun kv => inDomain u kv.2.inst)).map Prod.fst

/-- Does a reset fail a command: it has started and not ended, and is no SIGNAL, WAIT or MARKER (R514)? -/
def resetFails (u : Nat) (c : Cmd) : Bool :=
  inDomain u c.inst && c.start.isSome && c.fin.isNone && !actsResident c.op

/-- The commands that a reset fails, and the kernels of a domain. A kernel that has met a fault of its own ends with that. -/
def failRunning (s : State) (u : Nat) : State :=
  let own (id : Nat) : Bool := s.kernels.any (fun kv => kv.2.cmd = id && kv.2.fault.isSome)
  let s := (s.cmds.filter (fun kv => resetFails u kv.2 && !own kv.1)).foldl (fun s kv => endCmd s kv.1 errResetAbort) s
  ((s.kernels.filter (fun kv => inDomain u kv.2.inst)).map Prod.fst).foldl (fun s kid => (cutKernel s kid errResetAbort).2) s

/-- Removes what failed commands of a domain have outstanding: descriptors, requests, and tiles, those of saved batches too. -/
def dropWork (s : State) (u : Nat) : State :=
  let ended (id : Nat) : Bool := ((cmdOf s id).map (fun c => inDomain u c.inst && c.fin.isSome && !c.post && !actsResident c.op)) = some true
  let s := (dropAllDescs s (fun d => inDomain u d.inst && match d.owner with
    | .command _ _ => true
    | _ => false)).2.2
  let s := dropTiles s (fun t => match t.owner with
    | .device _ _ c => ended c
    | .saved kid _ _ _ _ => inDomain u (kernel s kid).inst
    | .savedMover kid _ _ _ => inDomain u (kernel s kid).inst
    | .savedBulk _ c => ended c
    | _ => false)
  (abortReqs s (fun r => match r.owner with
    | .command _ c => ended c
    | _ => false)).2

/-- RESET_DRAIN_END: 100 µs after the fence what remains is aborted: running commands fail with RESET_ABORT, requests on links are
cancelled, saved batches and named reservations are gone, landing slots are squashed, and tracker entries that no tile holds
any longer are retired (R301, R395, R514, R515). -/
def execResetDrainEnd (u : Nat) (s : State) : Out :=
  .next (match mfind s.resets u with
    | none => s
    | some r =>
      if r.drained || !due s r.began (100 * usTicks) then s else
      let s := (domainCtxs s u).foldl (fun s space =>
        match slotOf s space with
        | some (k, _) => abortLinks s space (instarOf s (.slot k))
        | none => s) s
      let cores := domainCores s u
      let s := dropDispatches (failRunning s u) (fun j => inDomain u j.inst)
      let s := dropWork s u
      let s := (domainCtxs s u).foldl (fun s space => modCtx s space (fun x => { x with saved := [] })) s
      let s := cores.foldl (fun s c => modCore s c (fun v => { v with region := none, resvPages := 0 })) s
      let wings := domainWings s u
      let s := doomIf s (fun l => wings.contains l.wing)
      let idle := (s.tracker.filter (fun kv => kv.2.used && inDomain u kv.2.inst
        && !s.tiles.any (fun t => t.2.entries.contains kv.1))).map Prod.fst
      let s := retryTiles (idle.foldl freeEntry s)
      { s with resets := mput s.resets u { r with drained := true } })

/-! ## Completion (R515, R518) -/

/-- A core after its reset: nothing on it, its arrays zeroed, its caches empty; the frequency and CLOCK it has stay. -/
def resetCore (s : State) (c : Nat) : State :=
  let s := modCore s c (fun k => { Core.empty with
    clkBase := k.clkBase, clkStamp := k.clkStamp, clkSteps := k.clkSteps, idleSince := s.now })
  let s := { s with tlb := s.tlb.filter (fun e => e.cache ≠ c), movers := mdel s.movers c }
  setR s r_TMV_CORE_STAT c 0

/-- The scheduler of an Imago after a reset: no holder; those that held or yielded are RESIDENT. -/
def resetSched (s : State) (i : Nat) : State :=
  let s := (s.ctxs.filter (fun kv => kv.2.inst = i)).foldl (fun s kv => match kv.2.slot with
    | some k =>
      let s := modCtx s kv.1 (fun x => { x with left := none })
      if slotState s k = slotHolder || slotState s k = slotYielding then setF s f_SCH_SLOT_STATE k slotResident else s
    | none => s) s
  setR { s with scheds := mdel s.scheds i } r_SCH_IMG i 0

/-- Queues of a domain react to the failures that the fence held back (R386, R514). -/
def releaseQueues (s : State) (u : Nat) : State :=
  ((s.queues.filter (fun kv => inDomain u (((ctxOf s kv.2.space).map Ctx.inst).getD 0xFF))).map Prod.fst).foldl (fun s q =>
    match (queueOf s q).bind Queue.held with
    | some (code, idx, tag) => reactTo (modQueue s q (fun v => { v with held := none })) q code idx tag false
    | none => s) s

/-- The Imagos of a domain. -/
def domainImagos (u : Nat) : List Nat := if u = chipUnit then List.range 32 else [u]

/-- Lifts the fence of a domain (R514, R515). -/
def liftFence (s : State) (u : Nat) : State :=
  let s := { s with resets := if u = chipUnit then [] else mdel s.resets u }
  let s := if u = chipUnit then setR (setF s f_RST_STATUS_CHIP_RESET 0 0) r_RST_IMG_RESET 0 0
    else setF s f_RST_IMG_RESET_MASK 0 (minus (getF s f_RST_IMG_RESET_MASK) (2 ^ u))
  let s := raiseRst (noticePeers s u false) f_RST_EVT_RESET_DONE
  (domainImagos u).foldl schedule (releaseQueues s u)

/-- May a compute reset's last step be over: its drain has ended, core clocks run, its cores are awake, and no landing slot of
its wings holds a scratchpad (R186, R515, R519)? A reset that a chip compute reset has absorbed completes with that. -/
def resetReady (s : State) (u : Nat) (r : CompReset) : Bool :=
  let cores := domainCores s u
  r.drained && (u = chipUnit || !flagF s f_RST_STATUS_CHIP_RESET) && !chipStopped s && cores.all (awake s)
    && !s.landing.any (fun kv => cores.contains kv.2.core || ((domainWings s u).contains kv.2.wing && kv.2.state ≠ .promoted))

/-- RESET_DONE: a compute reset completes. Cores that fail the check of a chip compute reset get their entries, and the reset goes
on as a full reset (R515). -/
def execResetDone (u : Nat) (failed : List Nat) (s : State) : Out :=
  .next (match mfind s.resets u with
    | none => s
    | some r =>
      if !resetReady s u r then s else
      let bad := if u = chipUnit then failed.filter (fun c => decide (c < getF s f_CHIP_CAP_CORE_ENABLED)) else []
      if !bad.isEmpty then
        fullReset (appendAll s (bad.map (fun c => ⟨1, coreUnit (physOf s c), 0⟩))) r.cause false false false
      else
        let cores := domainCores s u
        let s := (domainWings s u).foldl stepWgen s
        let s := cores.foldl resetCore s
        let s := if u = chipUnit then
            let s := { s with movers := s.movers.filter (fun kv => kv.1 < 256) }
            cores.foldl (fun s c => retimeCore (setR s r_PWR_CORE_FREQ c (resetOf r_PWR_CORE_FREQ c)) c 64) s
          else s
        let s := if u = chipUnit then (List.range 8).foldl holdRaise s else s
        liftFence ((domainImagos u).foldl resetSched s) u)

/-- RESET_BOUND_MISS: an Imago compute reset not complete within 50 ms becomes a chip compute reset, and a chip compute reset not
complete within 200 ms a full reset, with the cause RESET_FAILED; both count (R519, R523). -/
def execResetBoundMiss (u : Nat) (s : State) : Out :=
  .next (match mfind s.resets u with
    | none => s
    | some r =>
      if u = chipUnit then
        if dueRun s r.began (200 * msTicks) then fullReset s 6 true false false else s
      else if dueRun s r.began (50 * msTicks) then startCompute s chipUnit 6 true else s)

/-! ## Override (R527) -/

/-- OVERRIDE: RST_CMD OVERRIDE checks the signed blob at RST_OVR_ADDR: OK ends being out of service and clears the count (R527).
Each result stands in RST_OVR_STATUS. -/
def execOverride (s : State) : Out :=
  .next (
    let answer (s : State) (code : Nat) : State := setF s f_RST_OVR_STATUS_CODE 0 code
    if !computeHeld s then answer s fwBadMsg else
    match fwRead s (getR s r_RST_OVR_ADDR) 224 with
    | none => answer s fwAddress
    | some bytes =>
      let b := blobOf s bytes
      if b.magic ≠ 0x52534F42 || b.op ≠ 1 || b.index ≠ 0 || b.zero ≠ 0 || b.rsvd ≠ 0 || b.body.any (fun x => x ≠ 0)
          || !cvkValid s b.signer || b.serial ≠ getR s r_CHIP_SERIAL || b.seq ≤ s.flash.seq || !b.sigOk then answer s fwSigInvalid
      else
        let s := { s with flash := { s.flash with seq := b.seq }, aon := { s.aon with escs := [], oosDue := false } }
        let s := appendEntry (setF s f_RST_STATE_OUT_OF_SERVICE 0 0) ⟨0x12, 0, b.seq⟩
        (List.range 32).foldl schedule (answer s fwOk))

/-! ## Watchdogs (R520 to R522) -/

/-- A watchdog fires: it is counted and reported. -/
def wdFired (s : State) (k : Nat) : State := raiseRst (countR s r_RST_WD_FIRED k 1) f_RST_EVT_WATCHDOG

/-- Has a limit of a watchdog's register, in ms, passed since a tick? A limit of 0 never does. -/
def wdDue (s : State) (f : RF) (t : DWord) : Bool := getF s f ≠ 0 && dueRun s t (getF s f * msTicks)

/-- Is work of a core stalled on a translation fault (R522)? -/
def coreStalled (s : State) (c : Nat) : Bool := s.tiles.any (fun kv => kv.2.stalled && tileOn s c kv.2)

/-- The fault HANG_TIMEOUT of a batch: of its first group that has not ended. -/
def hangFault (s : State) (c : Nat) (b : Batch) : FaultInfo :=
  match b.groups.find? (fun kv => !kv.2.ended) with
  | some kv => groupFault s c kv.1 errHangTimeout kv.2.active (lowLane kv.2.active) 0
  | none => groupFault s c 0 errHangTimeout 0 0 0

/-- KERNEL_WATCHDOG: a batch that has retired nothing for RST_WD_KERNEL stops its kernel with HANG_TIMEOUT (R520, R522). -/
def execKernelWatchdog (c : Nat) (s : State) : Out :=
  .next (match batchOf s c with
    | none => s
    | some b =>
      let k := kernel s b.kernel
      if !b.started || b.why ≠ .running || !wdDue s f_RST_WD_KERNEL_MS b.progress || fenced s k.inst || coreStalled s c
          || holderOf s k.inst ≠ some k.space then s
      else coreFault (wdFired s 0) c (hangFault s c b))

/-- Is a command stalled on a translation fault? -/
def cmdStalled (s : State) (id : Nat) : Bool :=
  s.tiles.any (fun kv => kv.2.stalled && ((tileCmd s kv.2).map Prod.snd) = some id)

/-- Removes what a command has outstanding, so that it may end. -/
def cutCmd (s : State) (id : Nat) : State :=
  let s := (dropAllDescs s (fun d => match d.owner with
    | .command _ c => c = id
    | _ => false)).2.2
  let s := dropDispatches s (fun j => j.cmd = id)
  let s := dropTiles s (fun t => match t.owner with
    | .device _ _ c => c = id
    | _ => false)
  dropWaits (abortReqs s (fun r => match r.owner with
    | .command _ c => c = id
    | _ => false)).2 id

/-- NP_WATCHDOG: a non-preemptible command that has run for RST_WD_NP fails with HANG_TIMEOUT, NP_HANG goes to its window and the
manager, and a compute reset of its Imago starts, or, for the manager's work, of the chip (R392, R513, R520). A dispatch stays in its
Gate unit until the reset's drain ends. -/
def execNpWatchdog (id : Nat) (s : State) : Out :=
  .next (match cmdOf s id with
    | none => s
    | some c => match c.start with
      | none => s
      | some _ =>
        let ran := ranFor s id c
        let here := match slotOf s c.space with
          | some (k, _) => slotState s k = slotHolder || slotState s k = slotYielding
          | none => false
        if !nonPreemptible c || c.fin.isSome || getF s f_RST_WD_NP_MS = 0 || ran < getF s f_RST_WD_NP_MS * msTicks
            || fenced s c.inst || cmdStalled s id || (c.inst < 32 && !here) then s
        else
          let rcd := eventRecord 0x14 errHangTimeout c.space (c.num 4 4 + c.op * 2 ^ 32) (ran / usTicks)
            (((queueOf s c.queue).map Queue.num).getD 0) s.now
          let s := postEvent (wdFired s 1) c.win rcd
          let s := if c.win = 0 then s else postEvent s 0 rcd
          let s := endCmd s id errHangTimeout
          if c.inst < 32 then startCompute s c.inst 5 false else startCompute s chipUnit 5 true)

/-- The commands of a queue that are running. -/
def runningCmds (s : State) (v : Queue) : List Nat :=
  v.cmds.filter (fun id => match cmdOf s id with
    | some c => c.start.isSome && c.fin.isNone
    | none => false)

/-- A running command of a hung queue fails: a kernel stops by R101, other work is cut off. -/
def hangCmd (s : State) (id : Nat) : State :=
  match s.kernels.find? (fun kv => kv.2.cmd = id) with
  | some (kid, k) =>
    match coresRunning s kid with
    | c :: _ => match batchOf s c with
      | some b => noteFault s kid (hangFault s c b)
      | none => s
    | [] => noteFault s kid ⟨errHangTimeout, s.now, 0, 0, 0, k.nextBatch, 0, 0, 0, 0, none⟩
  | none => endCmd (cutCmd s id) id errHangTimeout

/-- QUEUE_WATCHDOG: a queue of a holder that has made no progress for RST_WD_QUEUE fails its running commands with HANG_TIMEOUT,
and follows its error mode (R520, R522). A queue whose front command is a WAIT is not watched. -/
def execQueueWatchdog (q : Nat) (s : State) : Out :=
  .next (match queueOf s q with
    | none => s
    | some v =>
      let inst := ((ctxOf s v.space).map Ctx.inst).getD 0xFF
      let front := ((v.cmds.head?.bind (cmdOf s)).map Cmd.op) = some opWait
      let run := runningCmds s v
      let mine (b : Batch) : Bool := run.contains (kernel s b.kernel).cmd
      let busy := s.cores.any (fun kv => match kv.2.batch with
        | some b => mine b && (b.why ≠ .running || !wdDue s f_RST_WD_QUEUE_MS b.progress || coreStalled s kv.1)
        | none => false)
      let stalled := s.tiles.any (fun kv => kv.2.stalled && ((tileCmd s kv.2).map Prod.fst) = some q)
      if (v.state ≠ qRunning && v.state ≠ qPropagating) || (v.head = v.tail && v.cmds.isEmpty) || front || busy || stalled
          || !wdDue s f_RST_WD_QUEUE_MS v.progress || fenced s inst || holderOf s inst ≠ some v.space then s
      else
        let s := modQueue (wdFired s 2) q (fun v => { v with progress := s.now })
        if run.isEmpty then reactTo s q errHangTimeout v.head 0 false else run.foldl hangCmd s)

/-- Has the fabric watchdog's limit passed? It cannot be disabled. -/
def fabricDue (s : State) (t : DWord) : Bool := dueRun s t (getF s f_RST_WD_FABRIC_MS * msTicks)

/-- A firing of the fabric watchdog. -/
def fabricFired (s : State) : State := raiseRst (wdFired s 3) f_RST_EVT_FABRIC_TIMEOUT

/-- Is a Silk operation still known anywhere on this chip: as a message, a waiter, or a reply (R521)? -/
def silkKnown (s : State) (op : Nat) : Bool :=
  let mine (f : SilkFrom) : Bool := match f with
    | .group _ _ o => o = op
    | _ => false
  s.silkMsgs.any (fun kv => mine kv.2.src) || s.silkWaiters.any (fun w => mine w.src) || s.silkReplies.any (fun kv => kv.2.op = op)

/-- Ends a Silk operation that the watchdog finds lost: one of another chip with REMOTE_ERROR, one of this chip as if performed,
and then READ's value is free. -/
def silkTimeout (s : State) (id : Nat) (o : ThreadOp) : State :=
  if o.sub ≠ 0 then silkRemoteFail s id o errRemoteError
  else if o.kind = .silkRead then
    let (v, s) := freeVal s 64
    { s with silkReplies := mput s.silkReplies id ⟨o.core, o.grp, id, BitVec.ofNat 64 v, instarOf s (.core o.core), s.now⟩ }
  else silkWake s o.core o.grp id

/-- FABRIC_WATCHDOG: a request that has been outstanding at its requester for RST_WD_FABRIC ends: one that left the chip with
REMOTE_ERROR, a read or value-returning atomic of this chip with poisoned data, and any other as if performed (R521). A Silk
wait held at its home is no request outstanding (log entry 41). -/
def execFabricWatchdog (id : Nat) (s : State) : Out :=
  .next (match mfind s.reqs id, mfind s.ops id, mfind s.fenceOuts id with
    | some r, _, _ =>
      let peers := match r.owner with
        | .link _ => true
        | _ => false
      if peers || r.stage = .done || r.err ≠ 0 || !fabricDue s r.issued || fenced s r.inst then s
      else
        let s := fabricFired s
        if gpaChip r.gpa ≠ chipId s then errReq s id r errRemoteError
        else if opAnswers r.op then poisonedBack s id r
        else endWrite s id r
    | none, some o, _ =>
      let silk := o.kind = .silkRead || o.kind = .silkAdd || (isSilkWait o && o.sub = 0)
      if !silk || silkKnown s id || !fabricDue s o.issued || fenced s (kernel s o.kernel).inst then s
      else silkTimeout (fabricFired s) id o
    | none, none, some f =>
      if f.wait || !fabricDue s f.sent then s
      else endCmd (fabricFired { s with fenceOuts := mdel s.fenceOuts id }) f.cmd errRemoteError
    | none, none, none => s)

end Sys2Proof.Machine
end

