-- ==== Sys2Proof/Machine/RegAccess.lean ====
section
/-!
DEFINITION. Accesses to registers (R11 to R21, R437, R444, R448, R544): finding a register, reading it whole or by halves, writing its
fields by their access codes, the registers whose value is computed when they are read, and the manager's proxy. Every write
that a command of its own describes goes to that command's meaning. Discards of old messages (R521) stand at the end.
-/

namespace Sys2Proof.Machine

/-! ## Values computed when they are read -/

/-- How many numbers below `n` meet a test. -/
def countIf (n : Nat) (p : Nat → Bool) : Nat := ((List.range n).filter p).length

/-- Does a unit's channel run an evacuation, or an action of a collective (R347, R429)? -/
def chanUsed (s : State) (u k : Nat) : Bool := isBulk u && (evacOn s (bulkNum u k) || collOn s (bulkNum u k))

/-- Is a channel Idle (R215)? -/
def chanIdle (s : State) (u k : Nat) : Bool := (chan s u k).queue.isEmpty && !chanUsed s u k

/-- A mask of the channels of a core's mover. -/
def coreMask (p : Nat → Bool) : Nat := maskWhere 8 p

/-- The unit and channel of a bulk channel's number. -/
def bulkUnit (n : Nat) : Nat := 256 + n / 32

/-- The instance whose work runs on a channel; 0xFF is device work (R224). -/
def chanOwner (s : State) (u k : Nat) : Nat :=
  match frontDesc s u k with
  | some d => if d.inst < 32 then d.inst else 0xFF
  | none =>
    if chanUsed s u k then
      ((s.colls.find? (fun kv => (kv.2.sendCh ++ kv.2.recvCh).contains (bulkNum u k))).map (fun kv => kv.2.inst)).getD 0xFF
    else 0

/-- Does an operation wait for a fence cache entry (R372)? -/
def fenceWaits (s : State) : Bool :=
  16384 ≤ (fencesHeld s).length
    && (s.cmds.any (fun kv => kv.2.op = opWait && kv.2.start.isSome && !kv.2.begun && kv.2.fin.isNone)
        || s.linkIn.any (fun x => x.2.type = msgFenceOp && !(fencesHeld s).contains (chipId s * 2 ^ 48 + x.2.addr)))

/-- What is left of the slice of an Imago's holder, in µs (R389). -/
def sliceLeft (s : State) (i : Nat) : Nat :=
  let c := sched s i
  let gone := match c.start with
    | some t => sinceRun s t
    | none => 0
  if (holderOf s i).isSome then (c.len - gone) / usTicks else 0

/-- The waiters held at the Silk home of a base die (R252). -/
def homeWaiters (s : State) (die : Nat) : Nat := (s.silkWaiters.filter (fun w => w.ctr / 4096 = die)).length

/-- The transactions that the trackers of a base die's slices hold (R237, R258). -/
def inFlight (s : State) (die : Nat) : Nat :=
  (s.reqs.filter (fun kv => kv.2.stage = .hbm && sliceOf (256 * (reqLine s kv.2).1) / 64 = die)).length

/-- Is a window's fault queue full (R297)? -/
def fqFull (s : State) (win : Nat) : Bool :=
  (getF s f_EVT_FQ_TAIL_INDEX 0 win + 1) % fqSize s win = getF s f_EVT_FQ_HEAD_INDEX 0 win

/-- Is a window's event queue full (R398)? -/
def eqFull (s : State) (win : Nat) : Bool :=
  (getF s f_EVT_EQ_TAIL_INDEX 0 win + 1) % eqSize s win = getF s f_EVT_EQ_HEAD_INDEX 0 win

/-- The fields of member `k` of a register in a window whose value is computed when they are read, with that value: the
counts and states of the pool, scheduler, queues, movers, Gate units, links, memory, keys and clock, by the field tables of
R36, R188, R224, R258, R259, R311, R312, R361, R403, R405, R436, R469 to R471, R496 and R528. -/
def live (s : State) (r : Reg) (k win : Nat) : List (RF × Nat) :=
  let is (x : Reg) : Bool := r.base = x.base
  let waits (u c : Nat) : Bool := chanWaits s u c
  let stall (u c : Nat) : Bool := chanStalled s (chan s u c)
  if is r_CHIP_STATE then [(⟨r, 0, 12⟩, getR s r_RST_STATE % 4096)]
  else if is r_CMP_STATUS then [(f_CMP_STATUS_SCRUBBING, b2n ((List.range 256).any (fun m => getF s f_CMP_MEM_STATE m = 4)))]
  else if is r_CMP_POOL then
    [(f_CMP_POOL_FREE_CORES, ((enabledCores s).filter (fun c => getF s f_CMP_CORE_STATE c = 0)).length),
     (f_CMP_POOL_FREE_MEM, countIf 256 (fun m => getF s f_CMP_MEM_STATE m = 1)),
     (f_CMP_POOL_FREE_LINKS, countIf 32 (fun p => getF s f_CMP_LINK_STATE p = 1)),
     (f_CMP_POOL_SCRUB_MEM, countIf 256 (fun m => getF s f_CMP_MEM_STATE m = 4))]
  else if is r_SCH_STATUS then
    [(f_SCH_STATUS_RESIDENT, countIf 64 (fun n => getF s f_SCH_SLOT_STATE n ≠ 0)),
     (f_SCH_STATUS_FENCE_USED, min 16384 (fencesHeld s).length),
     (f_SCH_STATUS_FENCE_FULL, b2n (fenceWaits s)),
     (f_SCH_STATUS_CMDBUF_FULL, b2n (decide (32768 ≤ s.cmds.length)))]
  else if is r_SCH_SLOT then
    [(f_SCH_SLOT_FRAMES_USED, if getF s f_SCH_SLOT_STATE k = 0 then 0 else framesUsed s (getF s f_SCH_SLOT_SPACE k))]
  else if is r_SCH_IMG then [(f_SCH_IMG_SLICE_LEFT_US, sliceLeft s k)]
  else if is r_SCH_WINDOW then [(f_SCH_WINDOW_QUEUES, winQueues s win), (f_SCH_WINDOW_SLOTS, winSlots s win)]
  else if is r_EVT_FQ_STATUS then
    [(f_EVT_FQ_STATUS_FULL, b2n (fqFull s win)), (f_EVT_FQ_STATUS_PENDING, (mget [] s.fqHeld win).length)]
  else if is r_EVT_EQ_STATUS then
    [(f_EVT_EQ_STATUS_FULL, b2n (eqFull s win)), (f_EVT_EQ_STATUS_PENDING, min 2047 (mget [] s.evHeld win).length)]
  else if is r_XLT_STATUS then [(f_XLT_STATUS_TRACKER_USED, trackUsed s)]
  else if is r_XLT_WALK_BUSY then [(f_XLT_WALK_BUSY_BUSY, walkersBusy s k)]
  else if is r_XLT_IQ_STATUS then [(f_XLT_IQ_STATUS_BUSY, b2n (iqBusy s win))]
  else if is r_TMV_STATUS then
    [(f_TMV_STATUS_BCH_BUSY, countIf 512 (fun n => !chanIdle s (bulkUnit n) (n % 32))),
     (f_TMV_STATUS_CORE_BUSY, countIf 144 (fun c => (List.range 8).any (fun j => !chanIdle s c j)))]
  else if is r_TMV_CORE_STAT then
    [(f_TMV_CORE_STAT_BUSY, coreMask (fun j => !chanIdle s k j)), (f_TMV_CORE_STAT_WAITING, coreMask (waits k)),
     (f_TMV_CORE_STAT_STALLED, coreMask (stall k))]
  else if is r_TMV_CORE_CL then
    [(f_TMV_CORE_CL_LINE0, credit s (k / 4) (4 * (k % 4))), (f_TMV_CORE_CL_LINE1, credit s (k / 4) (4 * (k % 4) + 1)),
     (f_TMV_CORE_CL_LINE2, credit s (k / 4) (4 * (k % 4) + 2)), (f_TMV_CORE_CL_LINE3, credit s (k / 4) (4 * (k % 4) + 3))]
  else if is r_TMV_BCH_STAT then
    let u := bulkUnit k
    [(f_TMV_BCH_STAT_BUSY, b2n (!chanIdle s u (k % 32))), (f_TMV_BCH_STAT_WAITING, b2n (waits u (k % 32))),
     (f_TMV_BCH_STAT_STALLED, b2n (stall u (k % 32))), (f_TMV_BCH_STAT_QDEPTH, (chan s u (k % 32)).queue.length + b2n (chanUsed s u (k % 32))),
     (f_TMV_BCH_STAT_OWNER, chanOwner s u (k % 32))]
  else if is r_GATE_STATUS then
    [(f_GATE_STATUS_BUSY, b2n (gateOf s k).run.isSome), (f_GATE_STATUS_QDEPTH, (gateOf s k).waiting.length),
     (f_GATE_STATUS_AWAKE, b2n (decide (getF s f_THM_WING_STATE k ≠ 2))), (f_GATE_STATUS_XLT_STALL, b2n (gateStalled s k))]
  else if is r_MEM_STATUS then [(f_MEM_STATUS_SLICES, countIf 256 (fun m => flagF s f_MEM_SLICE_STAT_PRESENT m))]
  else if is r_MEM_INFLIGHT then [(f_MEM_INFLIGHT_COUNT, inFlight s k)]
  else if is r_LNK_STATUS then
    [(f_LNK_STATUS_PORTS_UP, countIf 32 (isUp s)),
     (f_LNK_STATUS_PEERS, (s.peers.filter (fun kv => decide (2 ≤ peerState s kv.1) && decide (peerState s kv.1 ≤ 5))).length)]
  else if is r_LNK_RT then [(f_LNK_RT_DIRECT, b2n (routeDirect s k))]
  else if is r_SILK_STATUS then
    let home := firstMax (homeWaiters s) 4
    [(f_SILK_STATUS_WAITERS, min 65536 (homeWaiters s home)), (f_SILK_STATUS_HOME, home)]
  else if is r_SILK_X_STATUS then
    [(f_SILK_X_STATUS_RWAIT, remoteWaiters s), (f_SILK_X_STATUS_IMPORTS, countIf 256 (fun n => flagF s f_SILK_IMPORT_VALID n))]
  else if is r_SEC_STATUS then
    [(f_SEC_STATUS_KEYS_BAD, countIf 256 (keyIsBad s)),
     (f_SEC_STATUS_SECURE_INST, min 15 (countIf 32 (fun i => flagF s f_SEC_INST_EXISTS i && flagF s f_SEC_INST_WORLD i)))]
  else if is r_MBX_INST_PEND then [(f_MBX_INST_PEND_MASK, maskWhere 32 (fun i => s.mail.any (fun m => m.src = i + 1 && m.dest = 0)))]
  else if is r_MBX_INST_BUSY then [(f_MBX_INST_BUSY_MASK, maskWhere 32 (fun i => flagF s f_MBX_CTRL_IN_VALID 0 (i + 1)))]
  else if is r_RTC_TIME then [(f_RTC_TIME_FRAC, s.rtc.frac), (f_RTC_TIME_SECONDS, s.rtc.secs)]
  else if is r_PWR_STATUS then [(f_PWR_STATUS_FLOW_OK, b2n (flowOk s)), (f_PWR_STATUS_RESUME_READY, b2n (resumeReady s))]
  else if is r_RST_ESC_STAT then [(f_RST_ESC_STAT_COUNT, min 255 (countedResets s).length)]
  else []

/-! ## Finding a register (R11 to R13, R24, R544) -/

/-- The bytes of a register. -/
def Reg.bytes (r : Reg) : Nat := if r.w64 then 8 else 4

/-- The register at an offset of a window's BAR0, its member, and the byte of it that the offset names. An instance's window
holds only its own copies. -/
def findReg (win off : Nat) : Option (Reg × Nat × Nat) :=
  ((blockRegs (off / 0x100000)).find? (fun r => (win = 0 || r.vf) && decide (r.base ≤ off)
    && decide ((off - r.base) / r.stride < r.count) && decide ((off - r.base) % r.stride < r.bytes))).map
    (fun r => (r, (off - r.base) / r.stride, (off - r.base) % r.stride))

/-- Is a window of BAR0 reachable over PCIe: the host link is up from the end of E3, and its virtual function is enabled (R437,
R504)? Otherwise an access ends as an Unsupported Request. -/
def barOpen (s : State) (win : Nat) : Bool :=
  s.aon.hostLink && !s.aon.off && 3 < getF s f_RST_STATE_PHASE && win ≤ s.numVfs

/-- Is an offset within the MBX block? -/
def inMbx (r : Reg) : Bool := r.base / 0x100000 = 1

/-- Does a window read as zero and discard writes, as its instance does not exist (R437)? Its MBX block does not. -/
def windowDead (s : State) (win : Nat) (r : Reg) : Bool := win ≠ 0 && !instExists s (win - 1) && !inMbx r

/-! ## Reading (R14, R16, R19) -/

/-- What a field reads as. -/
def fieldRead (v : Nat) (secure : Bool) (f : FieldDef) : Nat :=
  match f.acc with
  | .wo => 0
  | .rws => if secure then bitsOf v f.lo f.width else 0
  | _ => bitsOf v f.lo f.width

/-- The value of member `k` of a register, with its computed fields. -/
def regNow (s : State) (r : Reg) (k win : Nat) : Nat :=
  (live s r k win).foldl (fun v (x : RF × Nat) => setBits v x.1.lo x.1.width x.2) (getR s r k win)

/-- What member `k` of a register reads as: reserved bits are zero. -/
def regRead (s : State) (r : Reg) (k win : Nat) (secure : Bool) : Nat :=
  if windowDead s win r then 0
  else r.flds.foldl (fun v f => v + fieldRead (regNow s r k win) secure f * 2 ^ f.lo) 0

/-! ## Latches of 64-bit registers (R14) -/

/-- The latch of a requester on a register. -/
def latchOf (s : State) (req key : Nat) : Option Nat := (s.latches.find? (fun l => l.req = req && l.key = key)).map Latch.upper

/-- Discards the latch of a requester on a register. -/
def dropLatch (s : State) (req key : Nat) : State := { s with latches := s.latches.filter (fun l => !(l.req = req && l.key = key)) }

/-- Discards every latch on a register. -/
def dropLatches (s : State) (key : Nat) : State := { s with latches := s.latches.filter (fun l => l.key ≠ key) }

/-! ## Writing (R16 to R20) -/

/-- The entries of a window's MSI-X table. -/
def msixSize (win : Nat) : Nat := 2 + Config.msixMore win

/-- The lowest PWR_DOM_ILIM of a regulator domain, in A (R472). -/
def lowestAmps (d : Nat) : Nat :=
  if d < 12 then 40 else if d < 16 then 200 else if d < 20 then 90 else if d % 2 = 0 then 34 else 38

/-- Is a value one that a field takes, and not a reserved encoding (R20)? -/
def fieldTakes (r : Reg) (k win : Nat) (f : FieldDef) (v : Nat) : Bool :=
  let is (x : RF) : Bool := r.base = x.reg.base && f.lo = x.lo
  decide (f.least ≤ v) && decide (v ≤ f.greatest)
    && (if is f_EVT_IRQ_CFG_FQ_VEC || is f_EVT_IRQ_CFG_EQ_VEC || is f_MBX_CTRL_VECTOR then decide (v < msixSize win)
        else if is f_PWR_IRQ_CFG_VECTOR || is f_RST_IRQ_CFG_VECTOR then decide (v < msixSize 0)
        else if is f_PWR_DOM_ILIM_AMPS then decide (lowestAmps k ≤ v) && decide (v ≤ ratedAmps k)
        else if is f_RST_OVR_ADDR_ADDR then v % 64 = 0
        else true)

/-- What a field holds after `v` is written to its register, which held `old`. -/
def fieldWrite (r : Reg) (k win : Nat) (secure : Bool) (old v : Nat) (f : FieldDef) : Nat :=
  let o := bitsOf old f.lo f.width
  let n := bitsOf v f.lo f.width
  let takes := fieldTakes r k win f n
  match f.acc with
  | .ro | .wo => o
  | .rw => if takes then n else o
  | .w1c => o - Nat.land o n
  | .w1s => Nat.lor o n
  | .rws => if secure && takes then n else o

/-- The value of a register after a write by its fields' access codes. -/
def regAfter (s : State) (r : Reg) (k win : Nat) (secure : Bool) (v : Nat) : Nat :=
  r.flds.foldl (fun x f => setBits x f.lo f.width (fieldWrite r k win secure (getR s r k win) v f)) (getR s r k win)

/-- A write of a register's fields by their access codes. -/
def putFields (s : State) (r : Reg) (k win : Nat) (secure : Bool) (v : Nat) : State := setR s r k (regAfter s r k win secure v) win

/-- Writes a queue's base: enabling the queue arms it (R402). -/
def putBase (s : State) (r : Reg) (win q v : Nat) : State :=
  let s' := putFields s r 0 win false v
  if bitAt (getR s r 0 win) 0 || !bitAt (getR s' r 0 win) 0 then s' else armQueue s' win q

/-- Writes an interrupt configuration: setting EN arms its bit. -/
def putIrq (s : State) (r : Reg) (arm v : Nat) : State :=
  let s' := putFields s r 0 0 false v
  if bitAt (getR s r) 8 || !bitAt (getR s' r) 8 then s' else armBit s' arm

/-- Writes MBX_CTRL: its plain fields, then a release of the IN buffer, then a SEND (R441, R442). A window that is being reset
takes only the SEND, which it refuses (R448). -/
def writeMbxCtrl (s : State) (win v : Nat) : Out :=
  let s := if winOpen s win || !instExists s (win - 1) then putFields s r_MBX_CTRL 0 win false (v - v % 4) else s
  andThen (if bitAt v 1 then execMbxInRelease win s else .next s) (fun s => if bitAt v 0 then execMbxSend win s else .next s)

/-- Writes TMV_BCH_CFG: RATE at once; USE when the channel is next Idle (R224). -/
def writeBchCfg (s : State) (k v : Nat) : State :=
  let u := bulkUnit k
  let s := setF s f_TMV_BCH_CFG_RATE k (bitsOf v 8 8)
  if 2 < v % 4 then s
  else if chanIdle s u (k % 32) then setF s f_TMV_BCH_CFG_USE k (v % 4)
  else setChan s u (k % 32) { chan s u (k % 32) with newUse := some (v % 4) }

/-- Is a write of SILK_IMPORT_k discarded whole: its entry would be valid, and its window reaches beyond the local instance's
range, or another valid entry is for the same peer instance (R436)? -/
def importRefused (s : State) (k v : Nat) : Bool :=
  let x := regAfter s r_SILK_IMPORT k 0 false v
  let field (f : RF) : Nat := bitsOf x f.lo f.width
  field f_SILK_IMPORT_VALID = 1
    && (decide (getF s f_SILK_RANGE_SIZE (field f_SILK_IMPORT_LOCAL_INST) < field f_SILK_IMPORT_BASE + field f_SILK_IMPORT_SIZE)
      || (List.range 256).any (fun n => n ≠ k && flagF s f_SILK_IMPORT_VALID n
        && getF s f_SILK_IMPORT_PEER_CHIP n = field f_SILK_IMPORT_PEER_CHIP
        && getF s f_SILK_IMPORT_PEER_INST n = field f_SILK_IMPORT_PEER_INST))

/-- Registers that hold what is in use, whose writes are then discarded: the space table's base while a context is resident, the
context directory while a context exists, and deadlines while an Imago holds a grant (R278, R311, R405). -/
def writeLocked (s : State) (r : Reg) : Bool :=
  let is (x : Reg) : Bool := r.base = x.base
  (is r_XLT_SPACE_BASE && (List.range 64).any (fun n => decide (getF s f_SCH_SLOT_STATE n ≠ 0)))
    || (is r_SCH_CTX_DIR && !s.ctxs.isEmpty)
    || (is r_QOS_CLASS_DL && getF s f_QOS_STATUS_GUARANTEED ≠ 0)

/-- The operation of SCH_CMD (R404); others have no effect. -/
def schCommand (s : State) (win op : Nat) : Out :=
  match op with
  | 1 => execCtxCreate win s
  | 2 => execCtxDestroy win s
  | 3 => execCtxKill win s
  | 4 => execQCreate win s
  | 5 => execQDestroy win s
  | 6 => execQResume win s
  | 7 => execObjFree win s
  | 8 => execFenceSignal win s
  | 9 => execFenceError win s
  | 10 => execFenceReset win s
  | _ => .next s

/-- The operation of SILK_CUST_CMD (R436); others are reserved. -/
def custCommand (s : State) (op : Nat) : Out :=
  match op with
  | 1 => execInit s
  | 2 => execOffer s
  | 3 => execAccept s
  | 4 => execRelease s
  | 5 => execReclaim s
  | 6 => execCustodyRead s
  | _ => .next s

/-- The operation of RST_CMD (R528); others are discarded. -/
def rstCommand (s : State) (v : Nat) : Out :=
  match v % 16 with
  | 1 => execImagoReset (bitsOf v 4 5) (bitAt v 9) s
  | 2 => execChipReset (bitAt v 9) s
  | 3 => execFullReset (bitAt v 9) (bitAt v 10) (bitAt v 11) s
  | 4 => execTopoContinue s
  | 5 => execOverride s
  | _ => .next s

/-- A write of member `k` of a register other than MBX_PROXY_DATA in a window that takes it: one that a command describes goes
to that command's meaning, and any other sets fields by their access codes. -/
def regWrite (s : State) (r : Reg) (k win : Nat) (secure : Bool) (v : Nat) : Out :=
  let is (x : Reg) : Bool := r.base = x.base
  if is r_MBX_CTRL then writeMbxCtrl s win v
  else if win ≠ 0 && !winOpen s win && !(inMbx r && !instExists s (win - 1)) then .next s
  else if writeLocked s r || (is r_SILK_IMPORT && importRefused s k v) then .next s
  else if is r_SCH_DB then execDoorbell win k v s
  else if is r_SCH_CMD then schCommand s win (v % 256)
  else if is r_XLT_REPLAY then if bitAt v 31 then execAbort win (v % 2 ^ 20) s else execReplay win (v % 2 ^ 20) s
  else if is r_XLT_IQ_TAIL then execIqTailWrite win (v % 4096) s
  else if is r_XLT_WS_FLUSH then execWsFlush win v s
  else if is r_XLT_IQ_SIZE then
    if flagF s f_XLT_IQ_BASE_ENABLE 0 win then .next s else .next (putFields s r k win secure v)
  else if is r_EVT_FQ_HEAD then execEvtFqHeadWrite win (v % 65536) s
  else if is r_EVT_EQ_HEAD then execEvtEqHeadWrite win (v % 65536) s
  else if is r_EVT_FQ_BASE then .next (putBase s r win 0 v)
  else if is r_EVT_EQ_BASE then .next (putBase s r win 1 v)
  else if is r_EVT_FQ_SIZE then
    if flagF s f_EVT_FQ_BASE_ENABLE 0 win then .next s else .next (putFields s r k win secure v)
  else if is r_EVT_EQ_SIZE then
    if flagF s f_EVT_EQ_BASE_ENABLE 0 win then .next s else .next (putFields s r k win secure v)
  else if is r_GATE_CTRL then execGateCtrlWrite k v s
  else if is r_GATE_CMD then if bitAt v 1 then execForget k s else if bitAt v 0 then execSquashAll k s else .next s
  else if is r_MEM_SLICE_CMD then if bitAt v 1 then execWbinv k s else if bitAt v 0 then execWb k s else .next s
  else if is r_SILK_CTR then execSilkCtrWrite k v s
  else if is r_SILK_CUST_CMD then custCommand s (v % 16)
  else if is r_QOS_WIN_LEN then execQosWinLenWrite v s
  else if is r_TMV_BCH_CFG then .next (writeBchCfg s k v)
  else if is r_LNK_PORT_CTRL then execLnkPortCtrlWrite k v s
  else if is r_LNK_RT then .next (setF (putFields s r k win secure v) f_LNK_RT_AUTO k 0)
  else if is r_LNK_TIME_CFG then .next (updateTime (putFields s r k win secure v))
  else if is r_RTC_SET then execRtcSet v s
  else if is r_RTC_ADJ then execRtcAdj v s
  else if is r_PWR_PKG_CAP then execPwrPkgCapWrite v s
  else if is r_PWR_CORE_FCAP then execPwrCoreFcapWrite k v s
  else if is r_PWR_CMD then
    andThen (if bitAt v 0 then execResume [] s else .next s) (fun s => if bitAt v 1 then execCalRestart s else .next s)
  else if is r_PWR_EVT then execPwrEvtWrite v s
  else if is r_PWR_IRQ_CFG then .next (putIrq s r armPwr v)
  else if is r_RST_EVT then execRstEvtWrite v s
  else if is r_RST_IRQ_CFG then .next (putIrq s r armRst v)
  else if is r_RST_CMD then rstCommand s v
  else if is r_THM_CMD then
    andThen (if bitAt v 0 then execReplan true s else .next s) (fun s => if bitAt v 1 then execWakeAll s else .next s)
  else .next (putFields s r k win secure v)

/-! ## The manager's proxy (R444) -/

/-- Is an offset of an instance's window within the MBX, SCH or EVT block or the XLT fault-queue registers? -/
def proxyBlock (off : Nat) : Bool :=
  off / 0x100000 = 1 || off / 0x100000 = 3 || off / 0x100000 = 16 || off / 0x1000 = 0x401

/-- The register that MBX_PROXY_ADDR names, and its member; none where the access is refused or no register lies there. -/
def proxyReg (s : State) : Option (Reg × Nat) :=
  match findReg (getF s f_MBX_PROXY_ADDR_INSTANCE + 1) (getF s f_MBX_PROXY_ADDR_OFFSET) with
  | some (r, k, 0) => some (r, k)
  | _ => none

/-- Does the proxy refuse an access: to a register outside the four blocks, or of an instance that does not exist? -/
def proxyRefuses (s : State) : Bool :=
  !instExists s (getF s f_MBX_PROXY_ADDR_INSTANCE) || !proxyBlock (getF s f_MBX_PROXY_ADDR_OFFSET)

/-- A read of MBX_PROXY_DATA: the read of the register that MBX_PROXY_ADDR names, at that register's width, with what it read. A
refused one sets REFUSED of the manager's window. -/
def proxyRead (s : State) (req : Requester) : Nat × State :=
  if proxyRefuses s then (0, setF s f_MBX_CTRL_REFUSED 0 1)
  else match proxyReg s with
    | some (r, k) => (regRead s r k (getF s f_MBX_PROXY_ADDR_INSTANCE + 1) false,
        dropLatch s req.id (regKey r k (getF s f_MBX_PROXY_ADDR_INSTANCE + 1)))
    | none => (0, s)

/-- A write of MBX_PROXY_DATA: the write of the register that MBX_PROXY_ADDR names, at that register's width. A refused one sets
REFUSED of the manager's window. -/
def proxyWrite (s : State) (v : Nat) : Out :=
  if proxyRefuses s then .next (setF s f_MBX_CTRL_REFUSED 0 1)
  else match proxyReg s with
    | some (r, k) =>
      let win := getF s f_MBX_PROXY_ADDR_INSTANCE + 1
      regWrite (dropLatches s (regKey r k win)) r k win false (v % 2 ^ (8 * r.bytes))
    | none => .next s

/-- Is a register MBX_PROXY_DATA? -/
def isProxy (r : Reg) : Bool := r.base = r_MBX_PROXY_DATA.base

/-- A read of a register, through the proxy for MBX_PROXY_DATA. -/
def readReg (s : State) (req : Requester) (r : Reg) (k win : Nat) : Nat × State :=
  if isProxy r then proxyRead s req else (regRead s r k win req.secure, s)

/-! ## Accesses -/

/-- Sets what an access returned. -/
def answerAccess (s : State) (data : List Byte) : State := { s with reply := ⟨true, false, data⟩ }

/-- An access that ends as an Unsupported Request. -/
def refuseAccess (s : State) : State := { s with reply := ⟨false, false, []⟩ }

/-- An access to a register of a core's mover is a control message to that core, and wakes it (R257). What it then reads or
writes is the same, so the answer is given at once (DESIGN CHOICE, log entry 60). -/
def wakeFor (s : State) (r : Reg) (k : Nat) : State :=
  if r.base = r_TMV_CORE_STAT.base then wakeCore s k
  else if r.base = r_TMV_CORE_CL.base then wakeCore s (k / 4)
  else s

/-- REGISTER_WRITE: a write of `size` bytes at an offset of a window's BAR0 (0: the physical function's; i + 1: instance i's). Only
a whole register is written; a 32-bit write to half of a 64-bit register is discarded, as is every other form, but discards its
latches as any write does (R13 to R20, R544). -/
def execRegisterWrite (req : Requester) (win off size v : Nat) (s : State) : Out :=
  if !barOpen s win then .next (refuseAccess s)
  else
    let s := answerAccess s []
    match findReg win off with
    | none => .next s
    | some (r, k, sub) =>
      let s := wakeFor s r k
      if sub = 0 && size = r.bytes then
        let s := dropLatches s (regKey r k win)
        if isProxy r then proxyWrite s v
        else regWrite s r k win req.secure (v % 2 ^ (8 * size))
      else if r.w64 && size = 4 && sub % 4 = 0 then .next (dropLatches s (regKey r k win))
      else .next s

/-- REGISTER_SPLIT_READ: a read of `size` bytes at an offset of a window's BAR0: a whole register, or a half of a 64-bit one. The
lower half latches the upper half for its requester, whose next read of the upper half returns it (R13, R14, R544). -/
def execRegisterSplitRead (req : Requester) (win off size : Nat) (s : State) : Out :=
  if !barOpen s win then .next (refuseAccess s)
  else
    let zero := answerAccess s (List.replicate size 0)
    match findReg win off with
    | none => .next zero
    | some (r, k, sub) =>
      let key := regKey r k win
      let s := wakeFor s r k
      let zero := answerAccess s (List.replicate size 0)
      if (sub = 0 && size = r.bytes) || (r.w64 && size = 4 && sub % 4 = 0) then
        match (if sub = 4 then latchOf s req.id key else none) with
        | some u => .next (answerAccess (dropLatch s req.id key) (leBytes 4 u))
        | none =>
          let x := readReg s req r k win
          let s := dropLatch x.2 req.id key
          if sub = 4 then .next (answerAccess s (leBytes 4 (x.1 / 2 ^ 32)))
          else
            let s := if size < r.bytes then { s with latches := s.latches ++ [⟨req.id, key, x.1 / 2 ^ 32⟩] } else s
            .next (answerAccess s (leBytes size x.1))
      else .next zero

/-- MBX_PROXY_ACCESS: a 64-bit read or write of MBX_PROXY_DATA performs the access to an instance's register (R444). -/
def execMbxProxyAccess (req : Requester) (write : Bool) (v : Nat) (s : State) : Out :=
  if !barOpen s 0 then .next (refuseAccess s)
  else
    let key := regKey r_MBX_PROXY_DATA 0 0
    if write then andThen (proxyWrite (dropLatches s key) v) (fun s => .next (answerAccess s []))
    else
      let x := proxyRead (dropLatch s req.id key) req
      .next (answerAccess x.2 (leBytes 8 x.1))

/-! ## Messages that reach 20 ms (R521) -/

/-- The tick at which a held message was sent, and the state without it. A request of a peer takes its job along: it is never
answered. A request of this chip stays outstanding at its requester, where only the watchdog ends it. -/
def heldMsg (s : State) : HeldMsg → Option (DWord × State)
  | .arrived k => (s.linkIn[k]?).map (fun x => (x.2.sent, { s with linkIn := s.linkIn.eraseIdx k }))
  | .atPort p k => ((port s p).waiting[k]?).map (fun m =>
      (m.sent, modPort s p (fun q => { q with waiting := q.waiting.eraseIdx k })))
  | .silk id => (mfind s.silkMsgs id).map (fun m => (m.sent, { s with silkMsgs := mdel s.silkMsgs id }))
  | .release op => (mfind s.silkReplies op).map (fun m => (m.sent, { s with silkReplies := mdel s.silkReplies op }))
  | .request id => match mfind s.reqs id with
    | none => none
    | some r =>
      if r.stage ≠ .sent && r.stage ≠ .hbm then none else match r.owner with
        | .link j =>
          let mine (o : ReqOwner) : Bool := decide (o = .link j)
          some (r.issued, forgetReqs { s with linkReqs := mdel s.linkReqs j } (fun _ r => mine r.owner))
        | _ => some (r.issued, { s with reqs := mput s.reqs id { r with stage := .lost } })

/-- MESSAGE_AGE_DISCARD: a message held for 20 ms since it was sent is discarded where it is, without answer, and counted (R521). -/
def execMessageAgeDiscard (m : HeldMsg) (s : State) : Out :=
  .next (match heldMsg s m with
    | some (t, s') => if aged s t then countR s' r_RST_DISCARDS 0 1 else s
    | none => s)

end Sys2Proof.Machine
end

