-- ==== Sys2Proof/Machine/Pins.lean ====
section
/-!
DEFINITION. The management and test ports and the alert pin (R496, R539, R540): the commands of the I3C port, which answer in
`reply` (a command that is not accepted is NAKed), and the instructions of the test access port.
-/

namespace Sys2Proof.Machine

/-- Is PWR_ALERT_N asserted: E3 has completed, and a condition holds that PWR_ALERT_MASK enables (R496, R532)? -/
def powerAlert (s : State) : Bool :=
  let supply := getF s f_PWR_STATUS_SUPPLY
  !s.aon.off && 3 < getF s f_RST_STATE_PHASE && ((flagF s f_PWR_ALERT_MASK_DIP && (supply = 1 || supply = 2)) || (flagF s f_PWR_ALERT_MASK_ILIM && flagF s f_PWR_STATUS_ILIM_ACTIVE)
    || (flagF s f_PWR_ALERT_MASK_THROTTLE && (flagF s f_THM_STATUS_THROTTLING || flagF s f_THM_STATUS_EMERGENCY))
    || (flagF s f_PWR_ALERT_MASK_COOLANT && flagF s f_PWR_STATUS_COOLANT_STOP)
    || (flagF s f_PWR_ALERT_MASK_DIP_ALERT && flagF s f_PWR_EVT_DIP_ALERT))

/-- A command of the I3C port, which needs VIN_AUX and its own condition; otherwise it is NAKed. -/
def onI3c (s : State) (ok : Bool) (f : State → State) : Out := .next (if s.aon.aux && ok then f s else refuseAccess s)

/-- Has phase E2 ended? -/
def e2Over (s : State) : Bool :=
  !s.aon.off && (2 < getF s f_RST_STATE_PHASE || (getF s f_RST_STATE_PHASE = 2 && s.aon.waiting = 1))

/-- Does the device hold in E1 for want of firmware that authenticates (R503)? -/
def recoveryHold (s : State) : Bool :=
  !s.aon.off && getF s f_RST_STATE_PHASE = 1 && flagF s f_RST_STATE_FAILED && !flagF s f_SEC_STATUS_FW_AUTH

/-- STATUS: returns CHIP_STATE, THM_STATUS, PWR_PKG_POWER and PWR_STATUS (R539). -/
def execStatus (s : State) : Out :=
  onI3c s true (fun s => answerAccess s
    ([r_CHIP_STATE, r_THM_STATUS, r_PWR_PKG_POWER, r_PWR_STATUS].flatMap (fun r => leBytes 4 (regRead s r 0 0 false))))

/-- DESC_READ: returns the 128 bytes of the board descriptor, from the end of E2 (R539). -/
def execDescRead (s : State) : Out :=
  onI3c s (e2Over s) (fun s => answerAccess s ((List.range 128).map (fun k => s.flash.board.getD k 0)))

/-- DESC_WRITE: replaces the board descriptor when the CRC of the 128 bytes checks, from the end of E2 and not while the device is
out of service; a write whose CRC fails is NAKed (R509, R539). -/
def execDescWrite (data : List Byte) (s : State) : Out :=
  onI3c s (e2Over s && !computeHeld s && decide (data.length = 128) && crc32 (data.take 124) = bytesNum data 124 4) (fun s =>
    answerAccess { s with flash := { s.flash with board := data } } [])

/-- RECOVERY: writes up to 4,096 bytes of a recovery image at an offset, during the hold in E1 (R503, R539). -/
def execRecovery (offset : Nat) (data : List Byte) (s : State) : Out :=
  onI3c s (recoveryHold s && decide (data.length ≤ 4096)) (fun s =>
    let image := (List.range data.length).foldl (fun (m : Mem) k => mput m (offset % 2 ^ 32 + k) (data.getD k 0)) s.aon.image
    answerAccess { s with aon := { s.aon with image := image } } [])

/-- The recovery image received: every byte up to the last one written; a byte never written reads zero. -/
def recoveryImage (s : State) : List Byte :=
  let n := s.aon.image.foldl (fun m (kv : Nat × Byte) => max m (kv.1 + 1)) 0
  memBytes s.aon.image 0 n

/-- RECOVERY_DONE: the secure ROM authenticates the image: one that checks becomes the primary copy, and E1 starts again; one that
fails changes nothing (R503, R539). -/
def execRecoveryDone (s : State) : Out :=
  onI3c s (recoveryHold s) (fun s =>
    let b := recoveryImage s
    if !Config.imageOk b then answerAccess s []
    else
      let s := setF { s with flash := { s.flash with primary := b }, aon := { s.aon with image := [], phaseAt := s.now } }
        f_RST_STATE_FAILED 0 0
      answerAccess s [])

/-- TAP_INSTRUCTION: while TRST_N is low the test access port stays reset and nothing acts. While it is high, BYPASS selects the
bypass bit and IDCODE the identification register, whose value the spec does not state; neither reaches the secure world. The
part's behaviour is specified for no other instruction then (R540). -/
def execTapInstruction (i : TapInstr) (trstHigh : Bool) (s : State) : Out :=
  if !trstHigh then .next s
  else match i with
    | .bypass => .next (answerAccess s [0])
    | .idcode => .next (answerAccess s (leBytes 4 Config.idcode.toNat))
    | .other _ => .refused .testAccess

end Sys2Proof.Machine
end

