-- ==== Sys2Proof/Machine/SInstr.lean ====
section
/-!
DEFINITION. The S instructions (R84): one meaning per mnemonic over `sAlu`, the shared shape of integer instructions.
-/

namespace Sys2Proof.Machine

/-- NOP: no effect beyond the next instruction (R84). -/
def execNop (t : Th) (s : State) : Out := .next (issueLocal s t (sLegal t) [usesPred t] (fun g => g))

/-- The number of one bits among the low `n` bits. -/
def popcount (a : Word) : Nat → Word
  | 0 => 0
  | n + 1 => popcount a n + (if a.getLsbD n then 1 else 0)

/-- MOV: D ← A (R84). -/
def execMov (t : Th) (s : State) : Out := .next (sAlu s t (fun a _ => a))

/-- ADD: D ← A + B, modulo 2³² (R84). -/
def execAdd (t : Th) (s : State) : Out := .next (sAlu s t (fun a b => a + b))

/-- SUB: D ← A − B, modulo 2³² (R84). -/
def execSub (t : Th) (s : State) : Out := .next (sAlu s t (fun a b => a - b))

/-- MUL: the low 32 bits of A × B (R84). -/
def execMul (t : Th) (s : State) : Out := .next (sAlu s t (fun a b => a * b))

/-- MULHI: the high 32 bits of the signed product (R84). -/
def execMulhi (t : Th) (s : State) : Out := .next (sAlu s t (fun a b => BitVec.ofInt 32 (a.toInt * b.toInt / 4294967296)))

/-- MULHIU: the high 32 bits of the unsigned product (R84). -/
def execMulhiu (t : Th) (s : State) : Out := .next (sAlu s t (fun a b => BitVec.ofNat 32 (a.toNat * b.toNat / 4294967296)))

/-- AND (R84). -/
def execAnd (t : Th) (s : State) : Out := .next (sAlu s t (fun a b => a &&& b))

/-- OR (R84). -/
def execOr (t : Th) (s : State) : Out := .next (sAlu s t (fun a b => a ||| b))

/-- XOR (R84). -/
def execXor (t : Th) (s : State) : Out := .next (sAlu s t (fun a b => a ^^^ b))

/-- ANDN: A AND NOT B (R84). -/
def execAndn (t : Th) (s : State) : Out := .next (sAlu s t (fun a b => a &&& ~~~ b))

/-- SHL: A shifted left by B[4:0] (R84). -/
def execShl (t : Th) (s : State) : Out := .next (sAlu s t (fun a b => a <<< (b.toNat % 32)))

/-- SHR: A shifted right by B[4:0], zero-filled (R84). -/
def execShr (t : Th) (s : State) : Out := .next (sAlu s t (fun a b => a >>> (b.toNat % 32)))

/-- SRA: A shifted right by B[4:0], sign-filled (R84). -/
def execSra (t : Th) (s : State) : Out := .next (sAlu s t (fun a b => a.sshiftRight (b.toNat % 32)))

/-- MIN: the signed minimum (R84). -/
def execMin (t : Th) (s : State) : Out := .next (sAlu s t (fun a b => if a.sle b then a else b))

/-- MAX: the signed maximum (R84). -/
def execMax (t : Th) (s : State) : Out := .next (sAlu s t (fun a b => if a.sle b then b else a))

/-- MINU: the unsigned minimum (R84). -/
def execMinu (t : Th) (s : State) : Out := .next (sAlu s t (fun a b => if a.ule b then a else b))

/-- MAXU: the unsigned maximum (R84). -/
def execMaxu (t : Th) (s : State) : Out := .next (sAlu s t (fun a b => if a.ule b then b else a))

/-- CLZ: leading zero bits of A, 0 to 32 (R84). -/
def execClz (t : Th) (s : State) : Out := .next (sAlu s t (fun a _ => BitVec.ofNat 32 (32 - bitLen a.toNat)))

/-- POPC: one bits of A (R84). -/
def execPopc (t : Th) (s : State) : Out := .next (sAlu s t (fun a _ => popcount a 32))

/-- BREV: A with its bit order reversed (R84). -/
def execBrev (t : Th) (s : State) : Out := .next (sAlu s t (fun a _ => maskOf (fun i => a.getLsbD (31 - i)) 32))

/-- SEL: in every active lane, A where the predicate holds and B otherwise (R81, R84). With PRED = p0 and PNEG = 1, which R81
calls a no-operation, B is written in every active lane as R84 says: the model's choice (log entry 59). -/
def execSel (t : Th) (s : State) : Out :=
  .next (issueLocal s t (sLegal t) (sUses t) (fun g =>
    wr g (fD t) g.active (fun l => if (execMask g t).getLsbD l then rd g l (fA t) else opB g t l)))

/-- SHFL: A as held in lane B[4:0]; an inactive source lane gives 0 (R84). -/
def execShfl (t : Th) (s : State) : Out :=
  .next (issueLocal s t (sLegal t) (sUses t) (fun g =>
    wr g (fD t) (execMask g t) (fun l =>
      let src := (opB g t l).toNat % 32
      if g.active.getLsbD src then rd g src (fA t) else 0)))

/-- BALLOT: the mask of active lanes in which the p register A is 1; uniform (R84). Which lanes of an s register are written
is the model's choice: the executing ones (log entry 59). -/
def execBallot (t : Th) (s : State) : Out :=
  .next (issueLocal s t (sLegal t && rkind (fA t) = .p) (sUses t) (fun g =>
    wr g (fD t) (execMask g t) (fun _ => g.active &&& pMask g (fA t - 0x70))))

/-- SETP: the p register D receives the comparison of A with B (R84); conditions 0 to 5 are EQ, NE, LT, LE, LTU, LEU, and
others are opcodes the table does not list (R80). -/
def execSetp (cond : BitVec 3) (t : Th) (s : State) : Out :=
  .next (issueLocal s t (sWell t && rkind (fD t) = .p && cond.toNat < 6) (sUses t) (fun g =>
    wr g (fD t) (execMask g t) (fun l => if setpCond cond.toNat (rd g l (fA t)) (opB g t l) then 1 else 0)))

/-- The lane masks that PAND, POR, PXOR and PANDN make (R84). -/
def plogic (op : BitVec 2) (a b : Word) : Word :=
  match op.toNat with
  | 0 => a &&& b
  | 1 => a ||| b
  | 2 => a ^^^ b
  | _ => a &&& ~~~ b

/-- PAND, POR, PXOR, PANDN: the p register D receives p A op p B per lane (R84). -/
def execPredicateLogic (op : BitVec 2) (t : Th) (s : State) : Out :=
  .next (issueLocal s t
    (sWell t && rkind (fD t) = .p && rkind (fA t) = .p && !fI t && rkind (fB t) = .p) (sUses t) (fun g =>
      wrP g (fD t - 0x70) (execMask g t) (plogic op (pMask g (fA t - 0x70)) (pMask g (fB t - 0x70)))))

/-- The shape of AADD, ALO and AHI: uniform, with B taken in the lowest executing lane (R78, R84). -/
def sAddr (s : State) (t : Th) (legal : Bool) (f : Group → Word → DWord) : State :=
  issueLocal s t (sWell t && rkind (fD t) = .a && legal) (sUses t) (fun g =>
    let m := execMask g t
    if m = 0 then g else wrA g (fD t - 0x60) (f g (opB g t (lowLane m))))

/-- AADD: the a register D receives a A plus sign-extended B (R84). -/
def execAadd (t : Th) (s : State) : Out :=
  .next (sAddr s t (rkind (fA t) = .a) (fun g b => aReg g (fA t - 0x60) + BitVec.signExtend 64 b))

/-- ALO: bits [31:0] of the a register D receive B (R84). -/
def execAlo (t : Th) (s : State) : Out :=
  .next (sAddr s t true (fun g b => (aReg g (fD t - 0x60) &&& 0xFFFFFFFF00000000) ||| BitVec.setWidth 64 b))

/-- AHI: bits [63:32] of the a register D receive B (R84). -/
def execAhi (t : Th) (s : State) : Out :=
  .next (sAddr s t true (fun g b => (aReg g (fD t - 0x60) &&& 0xFFFFFFFF) ||| (BitVec.setWidth 64 b <<< 32)))

/-- AGETL: D receives bits [31:0] of the a register A (R84). -/
def execAgetl (t : Th) (s : State) : Out :=
  .next (issueLocal s t (sLegal t && rkind (fA t) = .a) (sUses t) (fun g =>
    wr g (fD t) (execMask g t) (fun _ => BitVec.setWidth 32 (aReg g (fA t - 0x60)))))

/-- AGETH: D receives bits [63:32] of the a register A (R84). -/
def execAgeth (t : Th) (s : State) : Out :=
  .next (issueLocal s t (sLegal t && rkind (fA t) = .a) (sUses t) (fun g =>
    wr g (fD t) (execMask g t) (fun _ => BitVec.setWidth 32 (aReg g (fA t - 0x60) >>> 32))))

end Sys2Proof.Machine
end

