-- ==== Sys2Proof/Machine/Dispatch.lean ====
section
/-!
DEFINITION. The dispatch of commands to their meanings, one arm per row of the opcode table.
-/

namespace Sys2Proof.Machine

/-- The effect of a command on everything but the queue: the meaning of its row. -/
def exec (i : Instr) (s : State) : Host.Outcome State Fault Refusal :=
  match i with
  | .registerWrite req win off size v => Sys2Proof.Machine.execRegisterWrite req win off size v s
  | .registerSplitRead req win off size => Sys2Proof.Machine.execRegisterSplitRead req win off size s
  | .nop t => Sys2Proof.Machine.execNop t s
  | .mov t => Sys2Proof.Machine.execMov t s
  | .add t => Sys2Proof.Machine.execAdd t s
  | .sub t => Sys2Proof.Machine.execSub t s
  | .mul t => Sys2Proof.Machine.execMul t s
  | .mulhi t => Sys2Proof.Machine.execMulhi t s
  | .mulhiu t => Sys2Proof.Machine.execMulhiu t s
  | .and t => Sys2Proof.Machine.execAnd t s
  | .or t => Sys2Proof.Machine.execOr t s
  | .xor t => Sys2Proof.Machine.execXor t s
  | .andn t => Sys2Proof.Machine.execAndn t s
  | .shl t => Sys2Proof.Machine.execShl t s
  | .shr t => Sys2Proof.Machine.execShr t s
  | .sra t => Sys2Proof.Machine.execSra t s
  | .min t => Sys2Proof.Machine.execMin t s
  | .max t => Sys2Proof.Machine.execMax t s
  | .minu t => Sys2Proof.Machine.execMinu t s
  | .maxu t => Sys2Proof.Machine.execMaxu t s
  | .clz t => Sys2Proof.Machine.execClz t s
  | .popc t => Sys2Proof.Machine.execPopc t s
  | .brev t => Sys2Proof.Machine.execBrev t s
  | .sel t => Sys2Proof.Machine.execSel t s
  | .shfl t => Sys2Proof.Machine.execShfl t s
  | .ballot t => Sys2Proof.Machine.execBallot t s
  | .setp cond t => Sys2Proof.Machine.execSetp cond t s
  | .predicateLogic op t => Sys2Proof.Machine.execPredicateLogic op t s
  | .aadd t => Sys2Proof.Machine.execAadd t s
  | .alo t => Sys2Proof.Machine.execAlo t s
  | .ahi t => Sys2Proof.Machine.execAhi t s
  | .agetl t => Sys2Proof.Machine.execAgetl t s
  | .ageth t => Sys2Proof.Machine.execAgeth t s
  | .fadd t => Sys2Proof.Machine.execFadd t s
  | .fsub t => Sys2Proof.Machine.execFsub t s
  | .fmul t => Sys2Proof.Machine.execFmul t s
  | .ffma t => Sys2Proof.Machine.execFfma t s
  | .fmin t => Sys2Proof.Machine.execFmin t s
  | .fmax t => Sys2Proof.Machine.execFmax t s
  | .fabs t => Sys2Proof.Machine.execFabs t s
  | .fneg t => Sys2Proof.Machine.execFneg t s
  | .fsetp cond t => Sys2Proof.Machine.execFsetp cond t s
  | .frcp t => Sys2Proof.Machine.execFrcp t s
  | .frsq t => Sys2Proof.Machine.execFrsq t s
  | .fsqrt t => Sys2Proof.Machine.execFsqrt t s
  | .fexp2 t => Sys2Proof.Machine.execFexp2 t s
  | .flog2 t => Sys2Proof.Machine.execFlog2 t s
  | .ftanh t => Sys2Proof.Machine.execFtanh t s
  | .fsigm t => Sys2Proof.Machine.execFsigm t s
  | .cvt t => Sys2Proof.Machine.execCvt t s
  | .fredadd t => Sys2Proof.Machine.execFredadd t s
  | .fredmax t => Sys2Proof.Machine.execFredmax t s
  | .xlds t ups => Sys2Proof.Machine.execXlds t ups s
  | .xsts t ups => Sys2Proof.Machine.execXsts t ups s
  | .xldg t => Sys2Proof.Machine.execXldg t s
  | .xstg t => Sys2Proof.Machine.execXstg t s
  | .xatoms t ups => Sys2Proof.Machine.execXatoms t ups s
  | .xatomg t => Sys2Proof.Machine.execXatomg t s
  | .xmov t ups => Sys2Proof.Machine.execXmov t ups s
  | .xfence t => Sys2Proof.Machine.execXfence t s
  | .cnop t => Sys2Proof.Machine.execCnop t s
  | .cbr t => Sys2Proof.Machine.execCbr t s
  | .cjmp t => Sys2Proof.Machine.execCjmp t s
  | .ccall t => Sys2Proof.Machine.execCcall t s
  | .cjmpr t => Sys2Proof.Machine.execCjmpr t s
  | .cexit t => Sys2Proof.Machine.execCexit t s
  | .cbar t => Sys2Proof.Machine.execCbar t s
  | .barrierRelease c n => Sys2Proof.Machine.execBarrierRelease c n s
  | .cwait t => Sys2Proof.Machine.execCwait t s
  | .cwaitSatisfied c g => Sys2Proof.Machine.execCwaitSatisfied c g s
  | .csleep t => Sys2Proof.Machine.execCsleep t s
  | .csleepExpiry c g => Sys2Proof.Machine.execCsleepExpiry c g s
  | .csilkAdd t => Sys2Proof.Machine.execCsilkAdd t s
  | .csilkRead t => Sys2Proof.Machine.execCsilkRead t s
  | .csilkWaitge t => Sys2Proof.Machine.execCsilkWaitge t s
  | .csilkTake t => Sys2Proof.Machine.execCsilkTake t s
  | .csrd t => Sys2Proof.Machine.execCsrd t s
  | .cswr t => Sys2Proof.Machine.execCswr t s
  | .cabort t => Sys2Proof.Machine.execCabort t s
  | .loadDataReturn op => Sys2Proof.Machine.execLoadDataReturn op s
  | .tileTranslated tid => Sys2Proof.Machine.execTileTranslated tid s
  | .ifetchLine c g => Sys2Proof.Machine.execIfetchLine c g s
  | .ifetchLineReturn c line => Sys2Proof.Machine.execIfetchLineReturn c line s
  | .kernelStopDrainEnd kid => Sys2Proof.Machine.execKernelStopDrainEnd kid s
  | .kernelStopAbort kid => Sys2Proof.Machine.execKernelStopAbort kid s
  | .batchDeal x => Sys2Proof.Machine.execBatchDeal x s
  | .batchStart c => Sys2Proof.Machine.execBatchStart c s
  | .batchEnd c => Sys2Proof.Machine.execBatchEnd c s
  | .batchPreempt c => Sys2Proof.Machine.execBatchPreempt c s
  | .batchSaveComplete c => Sys2Proof.Machine.execBatchSaveComplete c s
  | .batchRestore x corrupt => Sys2Proof.Machine.execBatchRestore x corrupt s
  | .mloadw t => Sys2Proof.Machine.execMloadw t s
  | .wblock t => Sys2Proof.Machine.execWblock t s
  | .wtile t => Sys2Proof.Machine.execWtile t s
  | .atile t => Sys2Proof.Machine.execAtile t s
  | .mstream t => Sys2Proof.Machine.execMstream t s
  | .msparse t => Sys2Proof.Machine.execMsparse t s
  | .mdrain t => Sys2Proof.Machine.execMdrain t s
  | .mEngineBegin c seq ups => Sys2Proof.Machine.execMEngineBegin c seq ups s
  | .aChunkArrival c ups => Sys2Proof.Machine.execAChunkArrival c ups s
  | .matrixRowEntry c => Sys2Proof.Machine.execMatrixRowEntry c s
  | .accUpdate c bad => Sys2Proof.Machine.execAccUpdate c bad s
  | .noRowStreamUpdate x => Sys2Proof.Machine.execNoRowStreamUpdate x s
  | .slotLoadComplete c ups => Sys2Proof.Machine.execSlotLoadComplete c ups s
  | .drainRowRead c bad => Sys2Proof.Machine.execDrainRowRead c bad s
  | .drainRowWrite c => Sys2Proof.Machine.execDrainRowWrite c s
  | .mInstrComplete c e => Sys2Proof.Machine.execMInstrComplete c e s
  | .scratchEccWriteback c => Sys2Proof.Machine.execScratchEccWriteback c s
  | .descFront u k => Sys2Proof.Machine.execDescFront u k s
  | .descTranslated u k => Sys2Proof.Machine.execDescTranslated u k s
  | .burstStart u => Sys2Proof.Machine.execBurstStart u s
  | .moverReadReturn u k ups => Sys2Proof.Machine.execMoverReadReturn u k ups s
  | .descComplete u k => Sys2Proof.Machine.execDescComplete u k s
  | .peerAccessTimeout u k => Sys2Proof.Machine.execPeerAccessTimeout u k s
  | .bstHeaderReturn u k => Sys2Proof.Machine.execBstHeaderReturn u k s
  | .bstTileRow u k => Sys2Proof.Machine.execBstTileRow u k s
  | .gateDispatchSelect w => Sys2Proof.Machine.execGateDispatchSelect w s
  | .route w ups => Sys2Proof.Machine.execRoute w ups s
  | .combine w => Sys2Proof.Machine.execCombine w s
  | .exit w ups => Sys2Proof.Machine.execExit w ups s
  | .gateGatherComplete w => Sys2Proof.Machine.execGateGatherComplete w s
  | .gateDispatchComplete w => Sys2Proof.Machine.execGateDispatchComplete w s
  | .slotFetchLanded id errs => Sys2Proof.Machine.execSlotFetchLanded id errs s
  | .slotFetchVoid id => Sys2Proof.Machine.execSlotFetchVoid id s
  | .slotPromoted id errs => Sys2Proof.Machine.execSlotPromoted id errs s
  | .squash id => Sys2Proof.Machine.execSquash id s
  | .squashComplete id => Sys2Proof.Machine.execSquashComplete id s
  | .slotTtlExpiry id => Sys2Proof.Machine.execSlotTtlExpiry id s
  | .gateCtrlWrite w v => Sys2Proof.Machine.execGateCtrlWrite w v s
  | .squashAll w => Sys2Proof.Machine.execSquashAll w s
  | .forget w => Sys2Proof.Machine.execForget w s
  | .bufferRequest id errs => Sys2Proof.Machine.execBufferRequest id errs s
  | .hbmAccessComplete id errs => Sys2Proof.Machine.execHbmAccessComplete id errs s
  | .bufferAtomic id errs => Sys2Proof.Machine.execBufferAtomic id errs s
  | .bufferReduction id errs => Sys2Proof.Machine.execBufferReduction id errs s
  | .scrubLine m errs => Sys2Proof.Machine.execScrubLine m errs s
  | .bridgeResend b k again => Sys2Proof.Machine.execBridgeResend b k again s
  | .apertureRequest n o len write atomicOp data poisoned => Sys2Proof.Machine.execApertureRequest n o len write atomicOp data poisoned s
  | .wb m => Sys2Proof.Machine.execWb m s
  | .wbinv m => Sys2Proof.Machine.execWbinv m s
  | .sliceCmdDone m => Sys2Proof.Machine.execSliceCmdDone m s
  | .silkHomeOp id => Sys2Proof.Machine.execSilkHomeOp id s
  | .silkCtrWrite n v => Sys2Proof.Machine.execSilkCtrWrite n v s
  | .messageAgeDiscard m => Sys2Proof.Machine.execMessageAgeDiscard m s
  | .regulatorWindow => Sys2Proof.Machine.execRegulatorWindow s
  | .qosWinLenWrite v => Sys2Proof.Machine.execQosWinLenWrite v s
  | .walkReadReturn wid hostErr => Sys2Proof.Machine.execWalkReadReturn wid hostErr s
  | .faultRecordPost win => Sys2Proof.Machine.execFaultRecordPost win s
  | .replay win id => Sys2Proof.Machine.execReplay win id s
  | .abort win id => Sys2Proof.Machine.execAbort win id s
  | .faultTimeout k => Sys2Proof.Machine.execFaultTimeout k s
  | .iqTailWrite win v => Sys2Proof.Machine.execIqTailWrite win v s
  | .range win => Sys2Proof.Machine.execRange win s
  | .space win => Sys2Proof.Machine.execSpace win s
  | .all win => Sys2Proof.Machine.execAll win s
  | .sync win => Sys2Proof.Machine.execSync win s
  | .invalidationComplete id => Sys2Proof.Machine.execInvalidationComplete id s
  | .invalidationSlow id => Sys2Proof.Machine.execInvalidationSlow id s
  | .wsFlush win v => Sys2Proof.Machine.execWsFlush win v s
  | .wsFlushComplete id => Sys2Proof.Machine.execWsFlushComplete id s
  | .compose => Sys2Proof.Machine.execCompose s
  | .commitTick badKeys => Sys2Proof.Machine.execCommitTick badKeys s
  | .chrysalisEnd x => Sys2Proof.Machine.execChrysalisEnd x s
  | .chrysalisSlow x => Sys2Proof.Machine.execChrysalisSlow x s
  | .coreLeft c => Sys2Proof.Machine.execCoreLeft c s
  | .linkSliceLeft p => Sys2Proof.Machine.execLinkSliceLeft p s
  | .scrubComplete m => Sys2Proof.Machine.execScrubComplete m s
  | .evacuateLine x src errs => Sys2Proof.Machine.execEvacuateLine x src errs s
  | .leaseHandshakeTimeout => Sys2Proof.Machine.execLeaseHandshakeTimeout s
  | .instarAdvance u => Sys2Proof.Machine.execInstarAdvance u s
  | .ctxCreate win => Sys2Proof.Machine.execCtxCreate win s
  | .ctxDestroy win => Sys2Proof.Machine.execCtxDestroy win s
  | .ctxKill win => Sys2Proof.Machine.execCtxKill win s
  | .qCreate win => Sys2Proof.Machine.execQCreate win s
  | .qDestroy win => Sys2Proof.Machine.execQDestroy win s
  | .qResume win => Sys2Proof.Machine.execQResume win s
  | .objFree win => Sys2Proof.Machine.execObjFree win s
  | .fenceSignal win => Sys2Proof.Machine.execFenceSignal win s
  | .fenceError win => Sys2Proof.Machine.execFenceError win s
  | .fenceReset win => Sys2Proof.Machine.execFenceReset win s
  | .doorbell win n v => Sys2Proof.Machine.execDoorbell win n v s
  | .commandTake q => Sys2Proof.Machine.execCommandTake q s
  | .contextResident space => Sys2Proof.Machine.execContextResident space s
  | .commandStart id => Sys2Proof.Machine.execCommandStart id s
  | .kernel id => Sys2Proof.Machine.execKernel id s
  | .copy id => Sys2Proof.Machine.execCopy id s
  | .fill id => Sys2Proof.Machine.execFill id s
  | .signal id => Sys2Proof.Machine.execSignal id s
  | .wait id => Sys2Proof.Machine.execWait id s
  | .waitTimeout id => Sys2Proof.Machine.execWaitTimeout id s
  | .collective id => Sys2Proof.Machine.execCollective id s
  | .gateDispatch id => Sys2Proof.Machine.execGateDispatch id s
  | .atomicSeq id => Sys2Proof.Machine.execAtomicSeq id s
  | .migrate id => Sys2Proof.Machine.execMigrate id s
  | .marker id => Sys2Proof.Machine.execMarker id s
  | .commandComplete id => Sys2Proof.Machine.execCommandComplete id s
  | .sliceEnd x => Sys2Proof.Machine.execSliceEnd x s
  | .handoverComplete x => Sys2Proof.Machine.execHandoverComplete x s
  | .npOverrun id => Sys2Proof.Machine.execNpOverrun id s
  | .teardownAbort space => Sys2Proof.Machine.execTeardownAbort space s
  | .quiesce space => Sys2Proof.Machine.execQuiesce space s
  | .eventRecordPost win => Sys2Proof.Machine.execEventRecordPost win s
  | .evtFqHeadWrite win v => Sys2Proof.Machine.execEvtFqHeadWrite win v s
  | .evtEqHeadWrite win v => Sys2Proof.Machine.execEvtEqHeadWrite win v s
  | .msixSend win q => Sys2Proof.Machine.execMsixSend win q s
  | .lnkPortCtrlWrite p v => Sys2Proof.Machine.execLnkPortCtrlWrite p v s
  | .portTrained p delay => Sys2Proof.Machine.execPortTrained p delay s
  | .trainingTimeout p => Sys2Proof.Machine.execTrainingTimeout p s
  | .delayProbe p delay => Sys2Proof.Machine.execDelayProbe p delay s
  | .lockLoss p => Sys2Proof.Machine.execLockLoss p s
  | .laserLow p => Sys2Proof.Machine.execLaserLow p s
  | .flitReceive p f => Sys2Proof.Machine.execFlitReceive p f s
  | .messageTransit k => Sys2Proof.Machine.execMessageTransit k s
  | .linkRead k => Sys2Proof.Machine.execLinkRead k s
  | .linkWrite k => Sys2Proof.Machine.execLinkWrite k s
  | .linkAtomic k => Sys2Proof.Machine.execLinkAtomic k s
  | .resp k => Sys2Proof.Machine.execResp k s
  | .linkAck k => Sys2Proof.Machine.execLinkAck k s
  | .err k => Sys2Proof.Machine.execErr k s
  | .collPut k => Sys2Proof.Machine.execCollPut k s
  | .linkAbort k => Sys2Proof.Machine.execLinkAbort k s
  | .silkAddMsg k late => Sys2Proof.Machine.execSilkAddMsg k late s
  | .silkReadMsg k late => Sys2Proof.Machine.execSilkReadMsg k late s
  | .silkWaitgeMsg k late => Sys2Proof.Machine.execSilkWaitgeMsg k late s
  | .silkTakeMsg k late => Sys2Proof.Machine.execSilkTakeMsg k late s
  | .silkRelease k late => Sys2Proof.Machine.execSilkRelease k late s
  | .silkAck k => Sys2Proof.Machine.execSilkAck k s
  | .collToken k => Sys2Proof.Machine.execCollToken k s
  | .custody k => Sys2Proof.Machine.execCustody k s
  | .peerNotice k => Sys2Proof.Machine.execPeerNotice k s
  | .hello k => Sys2Proof.Machine.execHello k s
  | .advert k => Sys2Proof.Machine.execAdvert k s
  | .fenceOp k => Sys2Proof.Machine.execFenceOp k s
  | .fenceRelease k => Sys2Proof.Machine.execFenceRelease k s
  | .lease k => Sys2Proof.Machine.execLease k s
  | .linkIdle k => Sys2Proof.Machine.execLinkIdle k s
  | .time k => Sys2Proof.Machine.execTime k s
  | .encReq k tagBad => Sys2Proof.Machine.execEncReq k tagBad s
  | .encReqTimeout p => Sys2Proof.Machine.execEncReqTimeout p s
  | .keyEpochAdvance p => Sys2Proof.Machine.execKeyEpochAdvance p s
  | .helloSend => Sys2Proof.Machine.execHelloSend s
  | .advertSend => Sys2Proof.Machine.execAdvertSend s
  | .peerAgeExpiry k => Sys2Proof.Machine.execPeerAgeExpiry k s
  | .collSendAction id => Sys2Proof.Machine.execCollSendAction id s
  | .collReceiveAction id => Sys2Proof.Machine.execCollReceiveAction id s
  | .collActionComplete id recv => Sys2Proof.Machine.execCollActionComplete id recv s
  | .collTimeout id => Sys2Proof.Machine.execCollTimeout id s
  | .init => Sys2Proof.Machine.execInit s
  | .offer => Sys2Proof.Machine.execOffer s
  | .accept => Sys2Proof.Machine.execAccept s
  | .release => Sys2Proof.Machine.execRelease s
  | .reclaim => Sys2Proof.Machine.execReclaim s
  | .custodyRead => Sys2Proof.Machine.execCustodyRead s
  | .custodyUnreachable => Sys2Proof.Machine.execCustodyUnreachable s
  | .mbxSend win => Sys2Proof.Machine.execMbxSend win s
  | .mbxDeliver win => Sys2Proof.Machine.execMbxDeliver win s
  | .mbxInRelease win => Sys2Proof.Machine.execMbxInRelease win s
  | .mbxProxyAccess req write v => Sys2Proof.Machine.execMbxProxyAccess req write v s
  | .instCreate qb sb kb => Sys2Proof.Machine.execInstCreate qb sb kb s
  | .instReset => Sys2Proof.Machine.execInstReset s
  | .instResetDone x => Sys2Proof.Machine.execInstResetDone x s
  | .instRemove => Sys2Proof.Machine.execInstRemove s
  | .imagoInfo => Sys2Proof.Machine.execImagoInfo s
  | .attest => Sys2Proof.Machine.execAttest s
  | .certRead => Sys2Proof.Machine.execCertRead s
  | .keyGen bad => Sys2Proof.Machine.execKeyGen bad s
  | .keyImport bad => Sys2Proof.Machine.execKeyImport bad s
  | .keyExport bad => Sys2Proof.Machine.execKeyExport bad s
  | .keyDerive bad => Sys2Proof.Machine.execKeyDerive bad s
  | .keyErase => Sys2Proof.Machine.execKeyErase s
  | .keyCrypt bad => Sys2Proof.Machine.execKeyCrypt bad s
  | .cvkUpdate => Sys2Proof.Machine.execCvkUpdate s
  | .timeSet => Sys2Proof.Machine.execTimeSet s
  | .regionSet => Sys2Proof.Machine.execRegionSet s
  | .vfFlr x => Sys2Proof.Machine.execVfFlr x s
  | .numvfsLower n => Sys2Proof.Machine.execNumvfsLower n s
  | .pfFlr => Sys2Proof.Machine.execPfFlr s
  | .rtcSet v => Sys2Proof.Machine.execRtcSet v s
  | .rtcAdj v => Sys2Proof.Machine.execRtcAdj v s
  | .slewComplete => Sys2Proof.Machine.execSlewComplete s
  | .hoursTick => Sys2Proof.Machine.execHoursTick s
  | .vbatSample mv => Sys2Proof.Machine.execVbatSample mv s
  | .oscStop => Sys2Proof.Machine.execOscStop s
  | .arbitrate acts dom avgW => Sys2Proof.Machine.execArbitrate acts dom avgW s
  | .voltageReached w => Sys2Proof.Machine.execVoltageReached w s
  | .calibrate energy => Sys2Proof.Machine.execCalibrate energy s
  | .ilimExceed d amps => Sys2Proof.Machine.execIlimExceed d amps s
  | .droopEvent c => Sys2Proof.Machine.execDroopEvent c s
  | .raiseHoldExpiry w => Sys2Proof.Machine.execRaiseHoldExpiry w s
  | .pwrPkgCapWrite v => Sys2Proof.Machine.execPwrPkgCapWrite v s
  | .pwrCoreFcapWrite c v => Sys2Proof.Machine.execPwrCoreFcapWrite c v s
  | .capDeferExpiry => Sys2Proof.Machine.execCapDeferExpiry s
  | .vinDip mv => Sys2Proof.Machine.execVinDip mv s
  | .vinRecover us mv => Sys2Proof.Machine.execVinRecover us mv s
  | .dipHoldExpiry => Sys2Proof.Machine.execDipHoldExpiry s
  | .rampEnd => Sys2Proof.Machine.execRampEnd s
  | .supplyReset => Sys2Proof.Machine.execSupplyReset s
  | .thermalSample temps => Sys2Proof.Machine.execThermalSample temps s
  | .thermalTrip sensor temp => Sys2Proof.Machine.execThermalTrip sensor temp s
  | .coolantStop => Sys2Proof.Machine.execCoolantStop s
  | .coolantStopComplete => Sys2Proof.Machine.execCoolantStopComplete s
  | .flowRestored => Sys2Proof.Machine.execFlowRestored s
  | .resume badKeys => Sys2Proof.Machine.execResume badKeys s
  | .calRestart => Sys2Proof.Machine.execCalRestart s
  | .pwrEvtWrite v => Sys2Proof.Machine.execPwrEvtWrite v s
  | .coreDiapauseEntry c => Sys2Proof.Machine.execCoreDiapauseEntry c s
  | .wingDiapauseEntry w => Sys2Proof.Machine.execWingDiapauseEntry w s
  | .diapauseEntered unit => Sys2Proof.Machine.execDiapauseEntered unit s
  | .wake unit => Sys2Proof.Machine.execWake unit s
  | .wakeComplete unit => Sys2Proof.Machine.execWakeComplete unit s
  | .replan command => Sys2Proof.Machine.execReplan command s
  | .replanComplete degr => Sys2Proof.Machine.execReplanComplete degr s
  | .wakeAll => Sys2Proof.Machine.execWakeAll s
  | .vinAuxApply => Sys2Proof.Machine.execVinAuxApply s
  | .vinMainApply => Sys2Proof.Machine.execVinMainApply s
  | .phaseComplete data => Sys2Proof.Machine.execPhaseComplete data s
  | .phaseTimeout => Sys2Proof.Machine.execPhaseTimeout s
  | .perstAssert => Sys2Proof.Machine.execPerstAssert s
  | .perstDeassert => Sys2Proof.Machine.execPerstDeassert s
  | .imagoReset x count => Sys2Proof.Machine.execImagoReset x count s
  | .chipReset count => Sys2Proof.Machine.execChipReset count s
  | .fullReset count selftest retrain => Sys2Proof.Machine.execFullReset count selftest retrain s
  | .topoContinue => Sys2Proof.Machine.execTopoContinue s
  | .override => Sys2Proof.Machine.execOverride s
  | .resetDrainEnd u => Sys2Proof.Machine.execResetDrainEnd u s
  | .resetDone u failed => Sys2Proof.Machine.execResetDone u failed s
  | .resetBoundMiss u => Sys2Proof.Machine.execResetBoundMiss u s
  | .rstEvtWrite v => Sys2Proof.Machine.execRstEvtWrite v s
  | .kernelWatchdog c => Sys2Proof.Machine.execKernelWatchdog c s
  | .npWatchdog id => Sys2Proof.Machine.execNpWatchdog id s
  | .queueWatchdog q => Sys2Proof.Machine.execQueueWatchdog q s
  | .fabricWatchdog id => Sys2Proof.Machine.execFabricWatchdog id s
  | .vinAuxLoss => Sys2Proof.Machine.execVinAuxLoss s
  | .refclkLoss => Sys2Proof.Machine.execRefclkLoss s
  | .vinMainRemoved => Sys2Proof.Machine.execVinMainRemoved s
  | .status => Sys2Proof.Machine.execStatus s
  | .descRead => Sys2Proof.Machine.execDescRead s
  | .descWrite data => Sys2Proof.Machine.execDescWrite data s
  | .recovery offset data => Sys2Proof.Machine.execRecovery offset data s
  | .recoveryDone => Sys2Proof.Machine.execRecoveryDone s
  | .tapInstruction x trstHigh => Sys2Proof.Machine.execTapInstruction x trstHigh s
  | .flowOkHeld => Sys2Proof.Machine.execFlowOkHeld s
  | .laserRestored p => Sys2Proof.Machine.execLaserRestored p s
  | .timeSend => Sys2Proof.Machine.execTimeSend s
  | .linkctlAckSend p => Sys2Proof.Machine.execLinkctlAckSend p s
  | .limitingEnd d amps => Sys2Proof.Machine.execLimitingEnd d amps s
  | .droopEnd c => Sys2Proof.Machine.execDroopEnd c s
  | .holdSupplyDrop => Sys2Proof.Machine.execHoldSupplyDrop s
  | .voltageLowering w => Sys2Proof.Machine.execVoltageLowering w s

end Sys2Proof.Machine
end

