-- ==== Sys2Proof/Machine/Tick.lean ====
section
/-!
DEFINITION. What time does while no command waits (R9, R424, R465): the fabric time base advances by one tick, and the calendar clock with
it. Everything that happens at its own time is a command, which finds by the time base whether it is due (log entries 2, 3).
-/

namespace Sys2Proof.Machine

/-- The ticks by which the time base advances now: it slews toward its parent's by one tick in 10,000, 100 ppm (R424). -/
def tickStep (s : State) : Nat :=
  if s.timeSlew = 0 || !due s s.slewAt 10000 then 1 else if 0 < s.timeSlew then 2 else 0

/-- One tick of 4 ns. -/
def tick (s : State) : State :=
  let n := tickStep s
  let s := if n = 1 then s else { s with timeSlew := if n = 2 then s.timeSlew - 1 else s.timeSlew + 1, slewAt := s.now }
  noteIdle { s with now := s.now + BitVec.ofNat 64 n, rtc := rtcTick s.rtc (s.aon.main = 2) }

end Sys2Proof.Machine
end

