-- ==== Sys2Proof/Safety.lean ====
section
/-!
DEFINITION. The terms in which statements about the block are made: when a command answers, when a thread instruction issues,
what it writes, what it leaves, and the invariant of every step.
-/

namespace Sys2Proof.Machine

/-- A command answers with a next state: it neither faults nor is refused. -/
def Answers (o : Out) : Prop := ∃ s, o = .next s

/-! ## Thread instructions -/

/-- Group `g` is the group that `t` names; it is ready, its PC lies in the kernel's code, its code line is cached, and no
register that the instruction uses awaits a result (R75, R94, R545). -/
structure Issues (s : State) (t : Th) (uses : List Nat) (g : Group) : Prop where
  ready : readyGroup s t.core t.grp = some g
  code : inCode (kernelOn s t.core).lb g.pc = true
  line : (core s t.core).icache.contains (lineOf g.pc) = true
  free : g.pend.any (fun p => uses.contains p.2) = false

/-- A 32-bit result `v` written to the register specifier `d` in the lanes of `m`, and to no other register (R69, R78, R81):
an s or p register lane by lane; a u or a register from the lowest lane; p0 and ZERO not at all. -/
structure Wrote (g g' : Group) (d : Nat) (m : Word) (v : Nat → Word) : Prop where
  sreg : ∀ n l, n < 64 → l < 32 →
    mget 0 g'.sregs (sKey n l) = if d = n ∧ m.getLsbD l then v l else mget 0 g.sregs (sKey n l)
  ureg : ∀ n, n < 32 → uReg g' n = if d = 0x40 + n ∧ m ≠ 0 then v (lowLane m) else uReg g n
  areg : ∀ n, n < 16 → aReg g' n = if d = 0x60 + n ∧ m ≠ 0 then BitVec.setWidth 64 (v (lowLane m)) else aReg g n
  preg : ∀ n l, n < 8 → l < 32 →
    (pMask g' n).getLsbD l = if d = 0x70 + n ∧ n ≠ 0 ∧ m.getLsbD l then (v l).getLsbD 0 else (pMask g n).getLsbD l

/-- A 64-bit value written to a register `n`, and to no other register. -/
structure WroteA (g g' : Group) (n : Nat) (v : DWord) : Prop where
  areg : ∀ k, aReg g' k = if k = n then v else aReg g k
  rest : g'.sregs = g.sregs ∧ g'.uregs = g.uregs ∧ g'.pregs = g.pregs

/-- The group goes on: its flags gain `f`, and unless it stands at its rejoin point or has no active lane (R82) its PC is
`pc` and its masks, stack and reconvergence PC stay. -/
structure Advanced (g g' : Group) (f : Flags) (pc : DWord) : Prop where
  flags : g'.flags = g.flags ||| f
  kept : g'.lin = g.lin ∧ g'.exited = g.exited ∧ g'.pend = g.pend
  seq : pc ≠ g.rpc → g.active ≠ 0 →
    g'.pc = pc ∧ g'.active = g.active ∧ g'.stack = g.stack ∧ g'.rpc = g.rpc ∧ g'.ended = g.ended

/-- Nothing but one group of one core, the tick of its batch's last retired instruction, and kernels' FLAGS sums changes: every
other group, core and kernel, scratchpad, accumulator tile, register of the register space, memory and unit is as before. -/
structure OnlyGroup (s s' : State) (c g : Nat) : Prop where
  state : s' = { s with cores := s'.cores, kernels := s'.kernels }
  cores : ∀ x, x ≠ c → core s' x = core s x
  core : core s' c = { core s c with batch := (core s' c).batch }
  groups : ∀ x, x ≠ g → groupOf s' c x = groupOf s c x
  kernels : ∀ k, { kernel s' k with flagSum := 0 } = { kernel s k with flagSum := 0 }

/-! ## What a command leaves -/

/-- A part of the state other than the register space: a field of `State`. -/
inductive Part where
  | latches | reply | now | timeSlew | slewAt | synced | freeCtr | nextId | cores | corePhys | kernels | ops
  | movers | reqs | hbm | hbmPoison | bufs | host | hostPoison | winStart | winLen | regCounts | qosOld
  | missPosted | bridgeRun | scrubPos | tiles | stallAt | walks | tlb | wcache | tracker | invals | fqHeld | slots
  | gates | landing | evHeld | rings | armed | msixDue | msixLast | msix | instars | instarAt | instarDue
  | silkMsgs | silkWaiters | silkReplies | silkSent | ports | linkIn | linkReqs | linkRr | peers | custody | custOp
  | colls | bootNonce | lastHello | lastAdvert | lastTime | imagos | verif | leaseTerms | poolFreed | ctxs | scheds
  | queues | cmds | objs | fenceWaiters | fenceOuts | fwq | mail | instResets | numVfs | keyMat | cvks | rtc
  | flash | power | stops | stopSince | aon | resets | pending
  deriving DecidableEq, Repr

/-- A part of the state is as it was. -/
def Part.same (p : Part) (s t : State) : Prop :=
  match p with
  | .latches => t.latches = s.latches
  | .reply => t.reply = s.reply
  | .now => t.now = s.now
  | .timeSlew => t.timeSlew = s.timeSlew
  | .slewAt => t.slewAt = s.slewAt
  | .synced => t.synced = s.synced
  | .freeCtr => t.freeCtr = s.freeCtr
  | .nextId => t.nextId = s.nextId
  | .cores => t.cores = s.cores
  | .corePhys => t.corePhys = s.corePhys
  | .kernels => t.kernels = s.kernels
  | .ops => t.ops = s.ops
  | .movers => t.movers = s.movers
  | .reqs => t.reqs = s.reqs
  | .hbm => t.hbm = s.hbm
  | .hbmPoison => t.hbmPoison = s.hbmPoison
  | .bufs => t.bufs = s.bufs
  | .host => t.host = s.host
  | .hostPoison => t.hostPoison = s.hostPoison
  | .winStart => t.winStart = s.winStart
  | .winLen => t.winLen = s.winLen
  | .regCounts => t.regCounts = s.regCounts
  | .qosOld => t.qosOld = s.qosOld
  | .missPosted => t.missPosted = s.missPosted
  | .bridgeRun => t.bridgeRun = s.bridgeRun
  | .scrubPos => t.scrubPos = s.scrubPos
  | .tiles => t.tiles = s.tiles
  | .stallAt => t.stallAt = s.stallAt
  | .walks => t.walks = s.walks
  | .tlb => t.tlb = s.tlb
  | .wcache => t.wcache = s.wcache
  | .tracker => t.tracker = s.tracker
  | .invals => t.invals = s.invals
  | .fqHeld => t.fqHeld = s.fqHeld
  | .slots => t.slots = s.slots
  | .gates => t.gates = s.gates
  | .landing => t.landing = s.landing
  | .evHeld => t.evHeld = s.evHeld
  | .rings => t.rings = s.rings
  | .armed => t.armed = s.armed
  | .msixDue => t.msixDue = s.msixDue
  | .msixLast => t.msixLast = s.msixLast
  | .msix => t.msix = s.msix
  | .instars => t.instars = s.instars
  | .instarAt => t.instarAt = s.instarAt
  | .instarDue => t.instarDue = s.instarDue
  | .silkMsgs => t.silkMsgs = s.silkMsgs
  | .silkWaiters => t.silkWaiters = s.silkWaiters
  | .silkReplies => t.silkReplies = s.silkReplies
  | .silkSent => t.silkSent = s.silkSent
  | .ports => t.ports = s.ports
  | .linkIn => t.linkIn = s.linkIn
  | .linkReqs => t.linkReqs = s.linkReqs
  | .linkRr => t.linkRr = s.linkRr
  | .peers => t.peers = s.peers
  | .custody => t.custody = s.custody
  | .custOp => t.custOp = s.custOp
  | .colls => t.colls = s.colls
  | .bootNonce => t.bootNonce = s.bootNonce
  | .lastHello => t.lastHello = s.lastHello
  | .lastAdvert => t.lastAdvert = s.lastAdvert
  | .lastTime => t.lastTime = s.lastTime
  | .imagos => t.imagos = s.imagos
  | .verif => t.verif = s.verif
  | .leaseTerms => t.leaseTerms = s.leaseTerms
  | .poolFreed => t.poolFreed = s.poolFreed
  | .ctxs => t.ctxs = s.ctxs
  | .scheds => t.scheds = s.scheds
  | .queues => t.queues = s.queues
  | .cmds => t.cmds = s.cmds
  | .objs => t.objs = s.objs
  | .fenceWaiters => t.fenceWaiters = s.fenceWaiters
  | .fenceOuts => t.fenceOuts = s.fenceOuts
  | .fwq => t.fwq = s.fwq
  | .mail => t.mail = s.mail
  | .instResets => t.instResets = s.instResets
  | .numVfs => t.numVfs = s.numVfs
  | .keyMat => t.keyMat = s.keyMat
  | .cvks => t.cvks = s.cvks
  | .rtc => t.rtc = s.rtc
  | .flash => t.flash = s.flash
  | .power => t.power = s.power
  | .stops => t.stops = s.stops
  | .stopSince => t.stopSince = s.stopSince
  | .aon => t.aon = s.aon
  | .resets => t.resets = s.resets
  | .pending => t.pending = s.pending

/-- Nothing of the state changed but the parts `ps` and members of the registers `rs`. -/
structure Kept (ps : List Part) (rs : List Reg) (s t : State) : Prop where
  parts : ∀ p, p ∉ ps → p.same s t
  regs : ∀ key, (∀ r ∈ rs, ∀ k win, key ≠ regKey r k win) → mfind t.regs key = mfind s.regs key

/-- No part of the state changed but `ps` and the register space. -/
def KeptParts (ps : List Part) (s t : State) : Prop := ∀ p, p ∉ ps → p.same s t

end Sys2Proof.Machine
end

