-- ==== Sys2Proof/Certificates/Slice0/Obligations.lean ====
section
/-!
DEFINITION. The statements about the LB-9620 that are left to be proved. Each is a proposition over the step and the meanings of
the commands; its docstring names the rules it rests on.
-/

namespace Sys2Proof.Machine

/-! ## Thread instructions (R69 to R99) -/

/-- No master holds a request back (R243, R349). -/
def NoHeld (s : State) : Prop := ∀ kv ∈ s.reqs, kv.2.stage ≠ .held

/-- A command answers, changes nothing but the group that `t` names, and leaves a state and a group that `P` holds of. -/
def Runs (c : Instr) (s : State) (t : Th) (P : State → Group → Prop) : Prop :=
  ∃ s' g', exec c s = .next s' ∧ groupOf s' t.core t.grp = some g' ∧ OnlyGroup s s' t.core t.grp ∧ P s' g'

/-- The group issues `c` and D receives `v` in the lanes of `m`: the group's flags gain `f`, it goes to the next instruction,
and nothing else changes. -/
def Yields (c : Instr) (s : State) (t : Th) (g : Group) (d : Nat) (m : Word) (v : Nat → Word) (f : Flags) : Prop :=
  Runs c s t (fun _ g' => Wrote g g' d m v ∧ Advanced g g' f (nextPc g))

/-- The integer instructions of R84 that compute D from A and B in every executing lane, with what they compute. -/
def integerOps : List ((Th → Instr) × (Word → Word → Word)) :=
  [ (.mov, fun a _ => a),
    (.add, fun a b => a + b),
    (.sub, fun a b => a - b),
    (.mul, fun a b => a * b),
    (.mulhi, fun a b => BitVec.extractLsb' 32 32 (BitVec.signExtend 64 a * BitVec.signExtend 64 b)),
    (.mulhiu, fun a b => BitVec.extractLsb' 32 32 (BitVec.setWidth 64 a * BitVec.setWidth 64 b)),
    (.and, fun a b => a &&& b),
    (.or, fun a b => a ||| b),
    (.xor, fun a b => a ^^^ b),
    (.andn, fun a b => a &&& ~~~ b),
    (.shl, fun a b => a <<< (b &&& 31)),
    (.shr, fun a b => a >>> (b &&& 31)),
    (.sra, fun a b => BitVec.sshiftRight' a (b &&& 31)),
    (.min, fun a b => if a.toInt ≤ b.toInt then a else b),
    (.max, fun a b => if a.toInt ≤ b.toInt then b else a),
    (.minu, fun a b => if a.toNat ≤ b.toNat then a else b),
    (.maxu, fun a b => if a.toNat ≤ b.toNat then b else a),
    (.clz, fun a _ => BitVec.ofNat 32 (32 - ((List.range 32).filter (fun i => 2 ^ i ≤ a.toNat)).length)),
    (.popc, fun a _ => BitVec.ofNat 32 ((List.range 32).filter (fun i => a.getLsbD i)).length),
    (.brev, fun a _ => a.reverse) ]

/-- The floating-point instructions of R85 with one rounding: the sources each reads, its exact result, and whether a lane's
inputs hold a NaN. -/
def floatOps : List ((Th → Instr) × Nat × (FVal → FVal → FVal → FVal)) :=
  [ (.fadd, 2, fun a b _ => faddX a b),
    (.fsub, 2, fun a b _ => faddX a b.negate),
    (.fmul, 2, fun a b _ => fmulX a b),
    (.ffma, 3, fun a b c => faddX (fmulX a b) c),
    (.fmin, 2, fun a b _ => if a.isNan then b else if b.isNan then a else if fbelow b a then b else a),
    (.fmax, 2, fun a b _ => if a.isNan then b else if b.isNan then a else if fbelow a b then b else a),
    (.fabs, 1, fun a _ _ => a.abs),
    (.fneg, 1, fun a _ _ => a.negate),
    (.fsqrt, 1, fun a _ _ => fsqrtX a) ]

/-- The approximations of R85, with their opcodes. -/
def approxOps : List ((Th → Instr) × Nat) :=
  [(.frcp, 0x10), (.frsq, 0x11), (.fexp2, 0x13), (.flog2, 0x14), (.ftanh, 0x15), (.fsigm, 0x16)]

/-! ## Own scratchpad -/

/-- The words that `n` bytes at `a` of a core's scratchpad touch are good, and no landing slot holds them. -/
def ScrGood (s : State) (c a n : Nat) : Prop := ∀ w ∈ wordsOf a n, heldBy s c (8 * w) = none ∧ markOf s c w = .good

/-- The group issues an access of `size` bytes: some lane executes, and the address of every lane that acts is aligned and lies
in the reservation, in good words. -/
structure ScrOk (s : State) (t : Th) (g : Group) (size : Nat) : Prop where
  lanes : execMask g t ≠ 0
  fits : ∀ l ∈ xLanes t (execMask g t), (xAddr g t l).toNat % size = 0 ∧ (xAddr g t l).toNat < scrLimit (kernelOn s t.core).lb
    ∧ ScrGood s t.core (xAddr g t l).toNat size

/-- The registers of two groups are the same. -/
def SameRegs (g g' : Group) : Prop := g'.sregs = g.sregs ∧ g'.uregs = g.uregs ∧ g'.aregs = g.aregs ∧ g'.pregs = g.pregs

/-- A command answers, and leaves a state and the group that `t` names as `P` says. -/
def Leads (c : Instr) (s : State) (t : Th) (P : State → Group → Prop) : Prop :=
  ∃ s' g', exec c s = .next s' ∧ groupOf s' t.core t.grp = some g' ∧ P s' g'

/-- A command answers with a state that `P` holds of. -/
def Gives (c : Instr) (s : State) (P : State → Prop) : Prop := ∃ s', exec c s = .next s' ∧ P s'

/-- The kernel of a core's batch stops with a fault of a group: its code, lanes and address. -/
def Faults (c : Instr) (s : State) (t : Th) (g : Group) (code : Nat) (lanes : Word) (addr : DWord) : Prop :=
  ∀ b, batchOf s t.core = some b → b.why = .running → (kernel s b.kernel).fault = none →
    Gives c s (fun s' => (kernel s' b.kernel).fault = some ⟨code, s.now, t.core, t.grp, g.lin, b.index, lowLane lanes, lanes, g.pc, addr,
      none⟩ ∧ (kernel s' b.kernel).stopAt = some s.now ∧ (batchOf s' t.core).map Batch.why = some .fault)

/-- One lane of a 32-bit scratchpad atomic, on the group's registers and the scratchpad's bytes: the old value goes to DATA and the
result to memory. -/
def atomStep (g0 : Group) (t : Th) (r : Group × Mem) (l : Nat) : Group × Mem :=
  let a := (xAddr g0 t l).toNat
  let old := memBytes r.2 a 4
  let v := atomicResult (xSub t) 32 (xSx t) (leNat old) (leNat (dataBytes g0 l (xData t) 0 4)) (leNat (dataBytes g0 l (xData t) 1 4))
  (writeData r.1 (xData t) 2 false l old, memPut r.2 a (leBytes 4 v))

/-! ## Matrix unit -/

/-- The M instructions (R108 to R118): what each is queued as, how many u registers it reads, and the checks
of its word (R113), which include that number. -/
def matrixOps : List ((Th → Instr) × MOp × (Th → Nat → Bool) × (State → Th → Nat)) :=
  [ (.mloadw, .loadw, fun t _ => fld t 0 35 = 0 && fld t 38 2 ≠ 3 && decide (fld t 35 3 ≤ 4) && mFmt (fld t 40 4)
      && decide (elemBits (fld t 40 4) ≤ [16, 8, 4].getD (fld t 38 2) 0) && !(fld t 35 3 ≠ 0 && fld t 45 5 = 31),
      fun _ t => if fld t 35 3 = 0 then 1 else 2),
    (.wblock, .wblock, fun t _ => fld t 0 40 = 0 && fld t 40 4 = 0, fun _ _ => 1),
    (.wtile, .wtile, fun t n => fld t 0 40 = 0 && fld t 40 4 = 1 && decide (fld t 45 5 + n ≤ 32),
      fun s t => scalesOf (slotShape (core s t.core).m (fld t 44 1) (core s t.core).m.nextSeq)),
    (.atile, .atile, fun t _ => fld t 0 40 = 0 && fld t 40 4 = 2 && decide (fld t 45 5 ≤ 28), fun _ _ => 4),
    (.mstream, .stream, fun t _ => fld t 0 32 = 0 && fld t 45 5 % 8 = 0 && mFmt (fld t 40 4)
      && decide (fld t 37 3 + fld t 34 3 + 1 ≤ 8), fun _ _ => 8),
    (.msparse, .sparse, fun t _ => fld t 0 32 = 0 && fld t 45 5 % 8 = 0 && mFmt (fld t 40 4)
      && decide (fld t 37 3 + fld t 34 3 + 1 ≤ 8), fun _ _ => 8),
    (.mdrain, .drain, fun t _ => fld t 0 27 = 0 && fld t 45 5 % 8 = 0 && decide (fld t 38 4 ≤ 0xC) && decide (fld t 35 2 ≤ 1)
      && fld t 33 2 ≠ 3 && decide (fld t 28 4 ≤ 7), fun _ _ => 8) ]

/-- The instruction of an engine with a number. -/
def mInstr (m : Matrix) (e seq : Nat) : Option MInstr := (m.queue e).find? (fun x => x.seq = seq)

/-- The kernel of a core's batch, which runs without a fault, stops with a code. -/
def Stops (c : Instr) (s : State) (n code : Nat) : Prop :=
  ∀ b, batchOf s n = some b → b.why = .running → (kernel s b.kernel).fault = none →
    Gives c s (fun s' => (kernel s' b.kernel).fault.map FaultInfo.code = some code ∧ (kernel s' b.kernel).stopAt = some s.now)

/-! ## Tile movers -/

/-- A channel's front descriptor is an XMOV descriptor of the batch on its core. -/
def XmovFront (s : State) (u k : Nat) (d : Desc) : Prop := frontDesc s u k = some d ∧ isXmov d = true

/-- The reads of ranges go out: no translated place is refused, and none has a bad key. -/
def Reachable (s : State) (u k : Nat) (d : Desc) (l : List (Nat × Nat)) : Prop :=
  anyRefused (heldPlaces s d (chanHeld s u k) l) = false ∧ anyKeyBad (heldPlaces s d (chanHeld s u k) l) = false

/-! ## Gate units -/

/-- The running dispatch of a wing. -/
def gateRun (s : State) (w : Nat) : Option GateRun := (gateOf s w).run

/-- A dispatch reads its live bitmap from device memory, or has every token live, and goes on in state `s1`. -/
def LiveIs (s s1 : State) (w : Nat) (j : GateJob) (live : List Byte) : Prop := ∀ k, withLive s w j k = k live s1

/-- A landing slot is held and can still be squashed. -/
def Squashable (l : LandSlot) : Prop := l.state ≠ .promoted ∧ l.state ≠ .squashing

/-- The state of a landing slot. -/
def landOf (s : State) (id : Nat) : Option LandState := (mfind s.landing id).map LandSlot.state

/-! ## Memory -/

/-- A buffered line is in order: 256 bytes, dirty sectors are valid, and clean valid ones agree with HBM. -/
def Coherent (s : State) (n : Nat) : Prop :=
  ∀ b, bufOf s n = some b → b.data.length = 256
    ∧ ∀ k, k < 8 → (bitAt b.dirty k = true → bitAt b.valid k = true)
      ∧ (bitAt b.valid k = true → bitAt b.dirty k = false → sectorOf b.data k = sectorOf (hbmLine s n) k)

/-- No bridge link has failed on the way of a request to its line and back. -/
def RouteOk (s : State) (r : MemReq) (n : Nat) : Prop :=
  failedOn s (originOf s r) (sliceRouter (sliceOf (256 * n))) = none
    ∧ failedOn s (sliceRouter (sliceOf (256 * n))) (originOf s r) = none

/-- A request is not a peer's. -/
def OwnReq (r : MemReq) : Prop := ∀ m, r.owner ≠ .link m

/-- A request that the step performs as a write: it is over, and every agent sees its bytes in its line and other lines as
before. -/
def Written (c : Instr) (s : State) (id n o : Nat) (data : List Byte) : Prop :=
  Gives c s (fun s' => mfind s'.reqs id = none ∧ lineBytes s' n = patch (lineBytes s n) o data
    ∧ ∀ x, x ≠ n → (∀ y, Coherent s y) → lineBytes s' x = lineBytes s x)

/-! ## Translation and invalidation -/

/-- A walk's read has returned whole and without error. -/
def WalkReads (s : State) (wid : Nat) (w : Walk) (e : Nat) : Prop :=
  mfind s.walks wid = some w ∧ w.void = false ∧ ∃ r data, mfind s.reqs w.req = some r ∧ r.err = 0 ∧ r.deadline = none
    ∧ readBack s r = some (data, 0) ∧ leNat data = e

/-- Tracker entry `k` has been freed: its instar has advanced. -/
def Freed (s s' : State) (k : Nat) : Prop := track s' k = { TrackEntry.empty with instar := ((track s k).instar + 1) % 256 }

/-- No tile waits for a tracker entry. -/
def NoneWaits (s : State) : Prop := sortedKeys s.tiles = true ∧ ∀ kv ∈ s.tiles, kv.2.wantsEntry = false

/-- No tile that may start again holds a translation that an invalidation covers. -/
def NoneHeld (s : State) (kind : InvKind) (space : Nat) : Prop :=
  ∀ kv ∈ s.tiles, kv.2.stalled = false → kv.2.held.any (fun x => covers kind space kv.2.space x.va x.size) = false

/-- An invalidation has begun: no cache holds what it covers, walks of its spaces are void, and it waits under its number. -/
def Begun (s s' : State) (win : Nat) (idx : Option Nat) (kind : InvKind) (space : Nat) : Prop :=
  s'.tlb = s.tlb.filter (fun e => !covers kind space e.space e.x.va e.x.size)
  ∧ s'.wcache = s.wcache.filter (fun e => !covers kind space e.space e.va (levelRange e.level))
  ∧ s'.walks = s.walks.map (fun kv => if concerns kind space kv.2.space then (kv.1, { kv.2 with void := true }) else kv)
  ∧ ∃ v, mfind s'.invals s.nextId = some v ∧ v.win = win ∧ v.idx = idx ∧ v.kind = kind ∧ v.space = space ∧ v.began = s.now
    ∧ v.walks = (s.walks.filter (fun kv => concerns kind space kv.2.space)).map Prod.fst

/-- A number that an invalidation descriptor holds. -/
def dnum (d : List Byte) (o n : Nat) : Nat := leNat ((d.drop o).take n)

/-- A descriptor is well formed but for its OP's own operands (R302). -/
def IqWell (d : List Byte) (op : Nat) : Prop :=
  dnum d 0 1 = op ∧ dnum d 1 1 < 4 ∧ dnum d 2 1 ≤ 1 ∧ dnum d 3 1 = 0 ∧ dnum d 4 4 < 2 ^ 20 ∧ dnum d 0x14 4 < 2 ^ 20 ∧ dnum d 0x28 24 = 0

/-- The queue's HEAD has advanced past a descriptor. -/
def HeadMoved (s s' : State) (win : Nat) : Prop :=
  getF s' f_XLT_IQ_HEAD_INDEX 0 win = (getF s f_XLT_IQ_HEAD_INDEX 0 win + 1) % iqSize s win % 2 ^ f_XLT_IQ_HEAD_INDEX.width

/-! ## Composition -/

/-- A verification has ended: CMP_LAST holds its result, nothing is being verified, and its request has left the queue. -/
def Composed (s s' : State) (code rec' epoch imago : Nat) : Prop :=
  getF s' f_CMP_LAST_RESULT = code ∧ getF s' f_CMP_LAST_RECORD = rec' % 2 ^ 16 ∧ getF s' f_CMP_LAST_EPOCH = epoch % 2 ^ 16
  ∧ getF s' f_CMP_LAST_POOL = b2n (imago = 0xFF) ∧ flagF s' f_CMP_LAST_VALID = true ∧ getR s' r_CMP_STATUS = 0 ∧ s'.verif = none
  ∧ s'.fwq.length < s.fwq.length

/-- The state of an evacuation's entry, by its interleave entry. -/
def evacAt (s : State) (i entry : Nat) : Option EvacEntry := (imago s i).evac.find? (fun x => x.entry = entry)

/-! ## Queues and commands -/

/-- A window takes an operation whose arguments use no bits outside the masks. -/
def Asks (s : State) (win : Nat) (masks : List Nat) : Prop :=
  winOpen s win = true ∧ flagF s f_SCH_RESULT_BUSY 0 win = false
  ∧ ∀ k, k < 4 → Nat.land (schArg s win k) (masks.getD k 0) = schArg s win k

/-- The result of a window's last operation. -/
def resultOf (s : State) (win : Nat) : Nat := getF s f_SCH_RESULT_CODE 0 win

/-- The end of a command, if it has ended. -/
def finOf (s : State) (id : Nat) : Option (Option Nat) := (cmdOf s id).map Cmd.fin

/-- An address of this chip, in host memory or in a line in order that no evacuation moves, to which a router's bridge links have
not failed. -/
def Reached (s : State) (here : Nat × Nat) (g : Nat) : Prop :=
  gpaChip g = chipId s ∧ failedOn s here (homeRouter s g) = none ∧ failedOn s (homeRouter s g) here = none
  ∧ (hostWindow ≤ gpaLocal g ∨ Coherent s (gpaLocal g / 256) ∧ ∀ kv ∈ s.imagos, kv.2.evac = [])

/-- Sixteen bytes that device work reaches on this chip: the address that they have, and the state after its translation. No request
is held back. -/
def PlaceHere (s : State) (slot : SlotInfo) (q c va : Nat) (here : Nat × Nat) (g : Nat) (s1 : State) : Prop :=
  (∃ dst hint, devPlace s slot q c va = (.ok [] 0, some (g, dst, hint))) ∧ s1 = devTouch s slot q c va ∧ va % 16 = 0
  ∧ gpaLocal g % 16 = 0 ∧ Reached s1 here g ∧ NoHeld s

/-- A fence whose home is this chip's fence cache, with room for it. -/
def HomeHere (s : State) (slot : SlotInfo) (q c va g : Nat) (s1 : State) : Prop :=
  PlaceHere s slot q c va managerRouter g s1 ∧ fenceFull s1 g = false

/-- The two words of a fence after an operation (R371). -/
def FenceIs (s s' : State) (g : Nat) : FenceAct → Prop
  | .signal v => fenceWords s' g =
      if bitAt (fenceWords s g).2 16 then fenceWords s g else (max (fenceWords s g).1 (v % 2 ^ 64), (fenceWords s g).2)
  | .error c => fenceWords s' g =
      if bitAt (fenceWords s g).2 16 then fenceWords s g
      else ((fenceWords s g).1, (fenceWords s g).2 / 2 ^ 16 * 2 ^ 16 + 2 ^ 16 + c % 2 ^ 16)
  | .reset v => fenceWords s' g = (v % 2 ^ 64, (fenceWords s g).2 / 2 ^ 17 * 2 ^ 17)

/-- A bulk channel takes a descriptor of a command, at the end of its queue. -/
def DealtTo (s s' : State) (id n : Nat) (c : Cmd) (d : Desc) : Prop :=
  (chan s' (256 + n / 32) (n % 32)).queue = (chan s (256 + n / 32) (n % 32)).queue ++ [d]
  ∧ (cmdOf s' id).map Cmd.running = some (c.running + 1)

/-- A bulk command may deal to channel `n`: nothing failed, nothing kept, the Imago held, and the channel the least loaded. -/
def MayDeal (s : State) (id n limit : Nat) (c : Cmd) : Prop :=
  c.err = 0 ∧ c.kept = [] ∧ c.dealt = false ∧ holdsImago s c = true ∧ leastLoaded s (workChannels s c.inst) = some n
  ∧ ((channelsOf s id).contains n = true ∨ (channelsOf s id).length < limit)

/-- A window has no object that waits to be retired. -/
def NoneFreeing (s : State) : Prop := ∀ kv ∈ s.objs, kv.2.freeing = false

/-- A completed command and its queue: the command is gone, and its queue counts it and is in state `st` with `code`. -/
def Retired (s' : State) (id : Nat) (c : Cmd) (v : Queue) (st code : Nat) : Prop :=
  cmdOf s' id = none ∧ (queueOf s' c.queue).map (fun w => (w.cmds, w.completed, w.state, w.code)) =
    some (v.cmds.filter (fun k => k ≠ id), (v.completed + 1) % 2 ^ 64, st, code)

/-! ## Scheduling and events -/

/-- A window's event queue has the records `l` more. -/
def Posts (s s' : State) (win : Nat) (l : List (List Byte)) : Prop := mget [] s'.evHeld win = mget [] s.evHeld win ++ l

/-- Nothing works that a teardown would have to abort. -/
def Quiet (s : State) : Prop :=
  s.kernels = [] ∧ s.movers = [] ∧ s.gates = [] ∧ s.tiles = [] ∧ s.walks = [] ∧ s.reqs = [] ∧ s.colls = []

/-! ## Links -/

/-- A port holds a message, to send or to be acknowledged. -/
def Sends (s' : State) (type aux dest : Nat) : Prop :=
  ∃ p m, m ∈ heldMsgs (port s' p) ∧ m.type = type ∧ m.aux = aux ∧ m.dest = dest

/-- A usable port leads to a chip. -/
def Reach (s : State) (dest : Nat) : Prop :=
  dest < 65536 ∧ noWay s dest = linkNoRoute ∧ (choosePort s (routePorts s dest)).isSome = true ∧ (∀ kv ∈ s.peers, kv.1 < 4096)
  ∧ ∀ p ∈ routePorts s dest, getF s f_CMP_LINK_STATE p ≠ 4

/-- The message at a place of the input, with its port, can be taken as one of a type, for this chip. -/
def Comes (s : State) (k type p : Nat) (m : LinkMsg) : Prop :=
  takeMine s k type = some (p, m, { s with linkIn := s.linkIn.eraseIdx k })

/-- The open collective of a command, by its number. -/
def CollRuns (s : State) (id k : Nat) (v : Coll) : Prop := collOfCmd s id = some (k, v) ∧ mfind s.colls k = some v

/-- No waiter of a counter. -/
def NoWaiter (s : State) (n : Nat) : Prop := ∀ w ∈ s.silkWaiters, w.ctr ≠ n

/-- The state of a port. -/
def portState (s : State) (p : Nat) : Nat := getF s f_LNK_PORT_STAT_STATE p

/-- The reason a port last left UP. -/
def portCause (s : State) (p : Nat) : Nat := getF s f_LNK_PORT_STAT_CAUSE p

/-- A port has left UP: what it held is gone and counted, it forgets its neighbour, and it trains again if it may. -/
def PortLeft (s s' : State) (p st cause : Nat) : Prop :=
  portState s' p = (if st = portDown ∧ mayTrain s p = true then portTraining else st) ∧ portCause s' p = cause
  ∧ heldMsgs (port s' p) = [] ∧ flagF s' f_LNK_PORT_PEER_VALID p = false
  ∧ getF s' f_LNK_PORT_LOST_COUNT p = satAdd 32 (getF s f_LNK_PORT_LOST_COUNT p) (heldMsgs (port s p)).length

/-- A fence of this chip that a peer may name: a local address outside secure memory that its lease admits, in a line in order that
no evacuation moves, and nobody waits for it. -/
def PeerFence (s : State) (p : Nat) (m : LinkMsg) : Prop :=
  m.addr % 16 = 0 ∧ (∃ l, admitPeer s p m 16 = .ok l) ∧ secureAddr s m.addr = false
  ∧ Reached s managerRouter (chipId s * 2 ^ 48 + m.addr) ∧ fenceFull s (chipId s * 2 ^ 48 + m.addr) = false
  ∧ ∀ w ∈ s.fenceWaiters, w.gpa ≠ chipId s * 2 ^ 48 + m.addr

/-! ## Peers -/

/-- The peer table keeps entries of the table only. -/
def PeersOk (s : State) : Prop := ∀ kv ∈ s.peers, kv.1 < 4096

/-- An entry of the peer table: its chip, state, hops and boot nonce. -/
def PeerIs (s : State) (k chip st hops boot : Nat) : Prop :=
  getF s f_LNK_PEER_CHIP k = chip ∧ peerState s k = st ∧ getF s f_LNK_PEER_HOPS k = hops ∧ getF s f_LNK_PEER_BOOT k = boot
  ∧ (mfind s.peers k).isSome = true

/-- A custody request is answered with a code, and its word is `w`. -/
def CustodyAnswer (s s' : State) (m : LinkMsg) (code w : Nat) : Prop :=
  getR s' r_SILK_CTR (bitsOf m.addr 0 14) = w
  ∧ (if m.src = chipId s then ∃ a, (32, a) ∈ s'.linkIn ∧ a.type = msgCustody ∧ a.aux = m.aux % 16 + code * 16 + 256 ∧ a.addr = w
    else Sends s' msgCustody (m.aux % 16 + code * 16 + 256) m.src)


/-! ## Firmware, instances and keys -/

/-- Firmware handles the request `r`, which keeps to the fields of its type, from a window that takes messages; `rest` waits. -/
def Handles (s : State) (r : FwReq) (type : Nat) (masks : List Nat) (rest : List FwReq) : Prop :=
  s.fwq = r :: rest ∧ r.type = type ∧ r.within masks = true ∧ winOpen s r.win = true ∧ ∀ q ∈ rest.head?, fwPermitted q = true

/-- The request `r` has its reply, with a result and words 2 on, and firmware goes on to `rest`. -/
def Replies (s' : State) (r : FwReq) (rest : List FwReq) (result : Nat) (words : List Nat) : Prop :=
  s'.fwq = rest ∧ s'.mail.getLast? = some ⟨r.win, 33, mailInstar s' r.win,
    (((r.type + 0x80) % 256 + 2 ^ 13 + r.seq * 2 ^ 16) :: result :: words ++ List.replicate 16 0).take 16⟩

/-- The slots that contexts hold are slots of the chip. -/
def SlotsOk (s : State) : Prop := ∀ kv ∈ s.ctxs, ∀ k, kv.2.slot = some k → k < 64

/-- The reset of an instance has begun: its window is fenced, what waits for its IN buffer is gone, and its contexts are torn
down. -/
def ResetBegun (s s' : State) (i reply : Nat) (remove : Bool) : Prop :=
  (mfind s'.instResets i).map (fun x => (x.began, x.reply, x.remove, x.phase)) = some (s.now, reply, remove, 0)
  ∧ flagF s' f_SEC_INST_RESETTING i = true ∧ (∀ m ∈ s'.mail, m.dest ≠ i + 1)
  ∧ ∀ c x, ctxOf s c = some x → x.inst = i → x.down = none → (ctxOf s' c).bind Ctx.down = some (errProducerLost, s.now)

/-- A slot is loaded with material under an attribute word's USE, LEN, EXPORTABLE and P bits, for the owner of `r`. -/
def Loaded (s' : State) (r : FwReq) (k w : Nat) (generated : Bool) (mat : List Byte) : Prop :=
  getR s' r_SEC_KEY_ATTR k = Nat.land w 0x704FF + 2 ^ 8 + (if generated then 2 ^ 11 else 0)
    + (if r.win = 0 then 2 ^ 29 else r.inst * 2 ^ 24) ∧ mfind s'.keyMat k = some mat


/-! ## Clock, power and temperature -/

/-- The pool has at most the cores of the chip. -/
def PoolOk (s : State) : Prop :=
  getF s f_CHIP_CAP_CORE_ENABLED ≤ 144 ∧ ∀ w, w < 8 → getF s f_CHIP_CAP_WING_FIRST_ID w + getF s f_CHIP_CAP_WING_ENABLED w ≤ 144

/-- The state of a core or a wing in diapause: 0 awake, 1 entering, 2 in diapause, 3 waking. -/
def dstate (s : State) (c : Nat) : Nat := getF s f_THM_CORE_AGE_DSTATE c

/-- The collective actions that would hold a soft cap for a core back. -/
def capHeld (s : State) (c : Nat) : Bool :=
  coreBound s (getF s f_CMP_CORE_INSTANCE c) c && !(runningActions s (getF s f_CMP_CORE_INSTANCE c)).isEmpty


/-! ## Bring-up, resets and accesses -/

/-- A bring-up begins at phase E1 on a path: 0 cold, 1 fast, 2 retraining. What the always-on domain and NOR flash hold stays, and
nothing else is in progress. -/
def BringsUp (s s' : State) (path : Nat) : Prop :=
  getF s' f_RST_STATE_PHASE = 1 ∧ flagF s' f_RST_STATE_READY = false ∧ s'.aon.path = path ∧ s'.aon.off = false
  ∧ s'.flash = s.flash ∧ s'.rtc = s.rtc ∧ s'.keyMat = [] ∧ s'.cores = [] ∧ s'.cmds = [] ∧ s'.ctxs = []

/-- The domains that VIN_MAIN feeds are off, and their state is lost. -/
def PowersOff (s s' : State) : Prop :=
  s'.aon.off = true ∧ getF s' f_RST_STATE_PHASE = 0 ∧ s'.hbm = [] ∧ s'.bufs = [] ∧ s'.keyMat = [] ∧ s'.cores = []
  ∧ s'.flash = s.flash ∧ s'.rtc = s.rtc

/-- What RST_LAST says: domain, cause, and whether the reset was counted. -/
def lastReset (s : State) : Nat × Nat × Bool :=
  (getF s f_RST_LAST_DOMAIN, getF s f_RST_LAST_CAUSE, flagF s f_RST_LAST_COUNTED)

/-- The bring-up is in a phase, and nothing holds it there. -/
def InPhase (s : State) (n : Nat) : Prop :=
  s.aon.off = false ∧ getF s f_RST_STATE_PHASE = n ∧ flagF s f_RST_STATE_FAILED = false ∧ flagF s f_RST_STATE_TOPO_HOLD = false
  ∧ flagF s f_RST_STATE_READY = false ∧ s.aon.waiting = 0

/-- A counted reset would bring the count to its threshold. -/
def AtThreshold (s : State) : Prop :=
  computeHeld s = false ∧ getF s f_RST_ESC_CFG_THRESH ≤ (countedResets s).length + 1

/-- A compute reset of a domain has begun with a cause. -/
def ComputeFenced (s s' : State) (u cause : Nat) : Prop :=
  (mfind s'.resets u).map (fun r => (r.began, r.cause, r.drained)) = some (s.now, cause, false)
  ∧ (if u = chipUnit then flagF s' f_RST_STATUS_CHIP_RESET = true else bitAt (getF s' f_RST_IMG_RESET_MASK) u = true)
  ∧ (s.gates = [] → ∀ c b, batchOf s c = some b → inDomain u (kernel s b.kernel).inst = true →
    (batchOf s' c).map Batch.why = some .reset)

/-- No queue waits for a fence to be lifted. -/
def NoFenceWait (s : State) : Prop := ∀ kv ∈ s.queues, kv.2.held = none

/-- A watchdog has fired. -/
def WatchdogFired (s s' : State) (k : Nat) : Prop :=
  getR s' r_RST_WD_FIRED k = (getR s r_RST_WD_FIRED k + 1) % 2 ^ 64 ∧ flagF s' f_RST_EVT_WATCHDOG = true

/-- The registers whose writes have a meaning of their own. -/
def writeActs : List Reg :=
  [r_MBX_CTRL, r_MBX_PROXY_DATA, r_SCH_DB, r_SCH_CMD, r_XLT_REPLAY, r_XLT_IQ_TAIL, r_XLT_WS_FLUSH, r_XLT_IQ_SIZE, r_EVT_FQ_HEAD, r_EVT_EQ_HEAD,
    r_XLT_SPACE_BASE, r_SCH_CTX_DIR, r_QOS_CLASS_DL, r_SILK_IMPORT,
    r_EVT_FQ_BASE, r_EVT_EQ_BASE, r_EVT_FQ_SIZE, r_EVT_EQ_SIZE, r_GATE_CTRL, r_GATE_CMD, r_MEM_SLICE_CMD, r_SILK_CTR, r_SILK_CUST_CMD,
    r_QOS_WIN_LEN, r_TMV_BCH_CFG, r_LNK_PORT_CTRL, r_LNK_RT, r_LNK_TIME_CFG, r_RTC_SET, r_RTC_ADJ, r_PWR_PKG_CAP, r_PWR_CORE_FCAP, r_PWR_CMD,
    r_PWR_EVT, r_PWR_IRQ_CFG, r_RST_EVT, r_RST_IRQ_CFG, r_RST_CMD, r_THM_CMD]

/-- Is a register one whose writes only set its fields? -/
def plainWrite (r : Reg) : Bool := writeActs.all (fun x => x.base ≠ r.base)

/-- What a field holds after a write of `n` by an access code, when it held `o`. -/
def fieldAfter (acc : Access) (takes secure : Bool) (o n : Nat) : Nat :=
  match acc with
  | .ro | .wo => o
  | .rw => if takes then n else o
  | .w1c => o - Nat.land o n
  | .w1s => Nat.lor o n
  | .rws => if secure && takes then n else o

end Sys2Proof.Machine

open Sys2Proof Sys2Proof.Machine
/-- R84: MOV, ADD, SUB, MUL, MULHI, MULHIU, AND, OR, XOR, ANDN, SHL, SHR, SRA, MIN, MAX, MINU, MAXU, CLZ, POPC and BREV complete: D
receives the result in every executing lane, the group goes to the next instruction with its FLAGS kept, and nothing
else changes.

R81, R84: SEL writes every active lane, A where the predicate holds and B elsewhere; SHFL gives A as held in lane B[4:0],
0 from an inactive lane; BALLOT gives the mask of active lanes in which the p register A is 1; SETP writes a comparison, and
PREDICATE_LOGIC a combination of two p registers, to a p register. -/
def Obligations.IntegerCrossLaneAndPredicates : Prop :=
  (
  ∀ op ∈ integerOps, ∀ (t : Th) (s : State) (g : Group), Issues s t (sUses t) g → sLegal t = true →
    Yields (op.1 t) s t g (fD t) (execMask g t) (fun l => op.2 (rd g l (fA t)) (opB g t l)) 0)
  ∧ (
  (∀ (t : Th) (s : State) (g : Group), Issues s t (sUses t) g → sLegal t = true →
    Yields (.sel t) s t g (fD t) g.active
        (fun l => if (execMask g t).getLsbD l then rd g l (fA t) else opB g t l) 0
    ∧ Yields (.shfl t) s t g (fD t) (execMask g t)
        (fun l => if g.active.getLsbD ((opB g t l).toNat % 32) then rd g ((opB g t l).toNat % 32) (fA t) else 0) 0
    ∧ (∀ n, n < 8 → fA t = 0x70 + n → Yields (.ballot t) s t g (fD t) (execMask g t) (fun _ => g.active &&& pMask g n) 0))
  ∧ (∀ (t : Th) (s : State) (g : Group) (n : Nat), Issues s t (sUses t) g → sWell t = true → n < 8 → fD t = 0x70 + n →
    Yields (.setp 0 t) s t g (fD t) (execMask g t) (fun l => if rd g l (fA t) = opB g t l then 1 else 0) 0
    ∧ Yields (.setp 1 t) s t g (fD t) (execMask g t) (fun l => if rd g l (fA t) = opB g t l then 0 else 1) 0
    ∧ Yields (.setp 2 t) s t g (fD t) (execMask g t)
        (fun l => if (rd g l (fA t)).toInt < (opB g t l).toInt then 1 else 0) 0
    ∧ Yields (.setp 3 t) s t g (fD t) (execMask g t)
        (fun l => if (rd g l (fA t)).toInt ≤ (opB g t l).toInt then 1 else 0) 0
    ∧ Yields (.setp 4 t) s t g (fD t) (execMask g t)
        (fun l => if (rd g l (fA t)).toNat < (opB g t l).toNat then 1 else 0) 0
    ∧ Yields (.setp 5 t) s t g (fD t) (execMask g t)
        (fun l => if (rd g l (fA t)).toNat ≤ (opB g t l).toNat then 1 else 0) 0
    ∧ ∀ a b, a < 8 → b < 8 → fA t = 0x70 + a → fI t = false → fB t = 0x70 + b →
        Yields (.predicateLogic 0 t) s t g (fD t) (execMask g t)
          (fun l => if (pMask g a).getLsbD l && (pMask g b).getLsbD l then 1 else 0) 0
        ∧ Yields (.predicateLogic 1 t) s t g (fD t) (execMask g t)
          (fun l => if (pMask g a).getLsbD l || (pMask g b).getLsbD l then 1 else 0) 0
        ∧ Yields (.predicateLogic 2 t) s t g (fD t) (execMask g t)
          (fun l => if (pMask g a).getLsbD l != (pMask g b).getLsbD l then 1 else 0) 0
        ∧ Yields (.predicateLogic 3 t) s t g (fD t) (execMask g t)
          (fun l => if (pMask g a).getLsbD l && !(pMask g b).getLsbD l then 1 else 0) 0))

/-- R84: AADD, ALO and AHI write the a register D, AGETL and AGETH read the a register A. The 64-bit writes are uniform: with no
executing lane nothing is written. -/
def Obligations.AddressRegisters : Prop :=  ∀ (t : Th) (s : State) (g : Group), Issues s t (sUses t) g →
    (∀ n, sWell t = true → n < 16 → fD t = 0x60 + n → execMask g t ≠ 0 →
      (∀ k, k < 16 → fA t = 0x60 + k →
        Runs (.aadd t) s t (fun _ g' =>
          WroteA g g' n (aReg g k + BitVec.signExtend 64 (opB g t (lowLane (execMask g t)))) ∧ Advanced g g' 0 (nextPc g)))
      ∧ Runs (.alo t) s t (fun _ g' =>
          WroteA g g' n (BitVec.extractLsb' 32 32 (aReg g n) ++ opB g t (lowLane (execMask g t)))
          ∧ Advanced g g' 0 (nextPc g))
      ∧ Runs (.ahi t) s t (fun _ g' =>
          WroteA g g' n (opB g t (lowLane (execMask g t)) ++ BitVec.extractLsb' 0 32 (aReg g n))
          ∧ Advanced g g' 0 (nextPc g)))
    ∧ (∀ k, sLegal t = true → k < 16 → fA t = 0x60 + k →
      Yields (.agetl t) s t g (fD t) (execMask g t) (fun _ => BitVec.extractLsb' 0 32 (aReg g k)) 0
      ∧ Yields (.ageth t) s t g (fD t) (execMask g t) (fun _ => BitVec.extractLsb' 32 32 (aReg g k)) 0)

/-- R85: FADD, FSUB, FMUL, FFMA, FMIN, FMAX, FABS, FNEG and FSQRT complete: D receives the exact result rounded once to binary32, and
FLAGS gains the flags of the executing lanes. -/
def Obligations.FloatResults : Prop :=  ∀ op ∈ floatOps, ∀ (t : Th) (s : State) (g : Group), Issues s t (vUses t op.2.1) g → vWell t = true →
    let a := fun l => f32 (rd g l (vA t))
    let b := fun l => f32 (rd g l (vBreg t))
    let c := fun l => f32 (rd g l (vC t))
    let r := fun l => toF32 (flushOf s t.core)
      ((a l).isNan || (decide (2 ≤ op.2.1) && (b l).isNan) || (decide (3 ≤ op.2.1) && (c l).isNan)) (op.2.2 (a l) (b l) (c l))
    Yields (op.1 t) s t g (vD t) (execMask g t) (fun l => (r l).1) (laneFlags (execMask g t) (fun l => (r l).2) 32)

/-- R85, R86: FSETP writes a comparison to a p register; FRCP, FRSQ, FEXP2, FLOG2, FTANH and FSIGM give the model's approximation (a free
function of the operand within its stated bound, log entry 6); CVT converts an element of A and writes it as an element of D. -/
def Obligations.FloatCompareApproximateConvert : Prop :=  (∀ (cond : BitVec 3) (t : Th) (s : State) (g : Group), cond.toNat < 5 → vWell t = true → vD t < 8 →
    Issues s t [usesPred t, 0x70 + vD t, vA t, vBreg t] g →
    Yields (.fsetp cond t) s t g (0x70 + vD t) (execMask g t)
      (fun l => if fsetpCond cond.toNat (f32 (rd g l (vA t))) (f32 (rd g l (vBreg t))) then 1 else 0) 0)
  ∧ (∀ op ∈ approxOps, ∀ (t : Th) (s : State) (g : Group), Issues s t (vUses t 1) g → vWell t = true →
    Yields (op.1 t) s t g (vD t) (execMask g t) (fun l => (approxResult op.2 (flushOf s t.core) (rd g l (vA t))).1)
      (laneFlags (execMask g t) (fun l => (approxResult op.2 (flushOf s t.core) (rd g l (vA t))).2) 32))
  ∧ (∀ (t : Th) (s : State) (g : Group), Issues s t (vUses t 1) g → vWell t = true →
    cvtFmt (vSfmt t) = true → cvtFmt (vDfmt t) = true → elemOk (vSfmt t) (vSelem t) = true → elemOk (vDfmt t) (vDelem t) = true →
    Yields (.cvt t) s t g (vD t) (execMask g t) (fun l => (cvtLane g t (flushOf s t.core) l).1)
      (laneFlags (execMask g t) (fun l => (cvtLane g t (flushOf s t.core) l).2) 32))

/-- R87: FREDADD gives every active lane the sum of A over the executing lanes, by a tree of five levels over 32 lanes in which
the other lanes contribute −0; FREDMAX the maximum under FMAX's ordering. With no executing lane nothing is written. -/
def Obligations.Reductions : Prop :=  ∀ (t : Th) (s : State) (g : Group), Issues s t (vUses t 1) g → vWell t = true → execMask g t ≠ 0 →
    let vs := (List.range 32).map (fun l => if (execMask g t).getLsbD l then rd g l (vA t) else 0x80000000)
    let sum := redTree (flushOf s t.core) 5 vs
    let top := toF32 (flushOf s t.core) true
      ((((List.range 32).filter (fun l => (execMask g t).getLsbD l)).map (fun l => f32 (rd g l (vA t)))).foldl fmaxX .nan)
    Yields (.fredadd t) s t g (vD t) g.active (fun _ => sum.1.headD 0) sum.2
    ∧ Yields (.fredmax t) s t g (vD t) g.active (fun _ => top.1) top.2

/-- R82, R84, R94: NOP and CNOP go to the next instruction; CJMP, CCALL and CJMPR go to their targets, CCALL with the return address
in D; CEXIT removes the executing lanes; CBR goes to its target when every active lane takes it, to the next instruction when
none does, and otherwise pushes two entries and runs the taken lanes. -/
def Obligations.Branches : Prop :=  ∀ (t : Th) (s : State) (g : Group),
    (Issues s t [usesPred t] g → sLegal t = true → Runs (.nop t) s t (fun _ g' => Advanced g g' 0 (nextPc g)))
    ∧ (Issues s t [usesPred t] g → cWell t false false 0 0 = true →
        Runs (.cnop t) s t (fun _ g' => Advanced g g' 0 (nextPc g))
        ∧ Runs (.cexit t) s t (fun _ g' => g'.exited = g.exited ||| execMask g t ∧ g'.flags = g.flags
            ∧ (g.active &&& ~~~ execMask g t ≠ 0 → nextPc g ≠ g.rpc →
                g'.active = g.active &&& ~~~ execMask g t ∧ g'.pc = nextPc g)
            ∧ (g.active &&& ~~~ execMask g t = 0 → g.stack = [] → g'.ended = true)))
    ∧ (Issues s t [] g → cWell t false false 0 0xFFFFFFFF = true → fPred t = 0 → fPneg t = false →
        Runs (.cjmp t) s t (fun _ g' => Advanced g g' 0 (g.pc + BitVec.ofInt 64 (8 * signedOf (fld t 0 32) 32))))
    ∧ (∀ n, Issues s t [usesPred t, fD t] g → cWell t true false 0 0xFFFFFFFF = true → n < 16 → fD t = 0x60 + n →
        execMask g t ≠ 0 →
        Runs (.ccall t) s t (fun _ g' => WroteA g g' n (nextPc g)
          ∧ Advanced g g' 0 (g.pc + BitVec.ofInt 64 (8 * signedOf (fld t 0 32) 32))))
    ∧ (∀ n, Issues s t [usesPred t, fA t] g → cWell t false true 0 0 = true → n < 16 → fA t = 0x60 + n →
        execMask g t ≠ 0 → (aReg g n).toNat % 8 = 0 → Runs (.cjmpr t) s t (fun _ g' => Advanced g g' 0 (aReg g n)))
    ∧ (Issues s t [usesPred t] g → cWell t false false 0 0xFFFFFFFF = true →
        let target := g.pc + BitVec.ofInt 64 (8 * signedOf (fld t 16 16) 16)
        let join := g.pc + BitVec.ofInt 64 (8 * signedOf (fld t 0 16) 16)
        let taken := execMask g t
        (g.active &&& ~~~ taken = 0 → Runs (.cbr t) s t (fun _ g' => Advanced g g' 0 target))
        ∧ (g.active &&& ~~~ taken ≠ 0 → taken = 0 → Runs (.cbr t) s t (fun _ g' => Advanced g g' 0 (nextPc g)))
        ∧ (g.active &&& ~~~ taken ≠ 0 → taken ≠ 0 → g.stack.length ≤ 30 → target ≠ join →
            Runs (.cbr t) s t (fun _ g' => g'.pc = target ∧ g'.active = taken ∧ g'.rpc = join
              ∧ g'.stack = ⟨nextPc g, g.active &&& ~~~ taken, join⟩ :: ⟨join, g.active, g.rpc⟩ :: g.stack)))

/-- R94 to R96: CBAR, CWAIT and CSLEEP make a group with an executing lane wait; BARRIER_RELEASE readies every group when all that have
not ended wait at the barrier; CWAIT_SATISFIED and CSLEEP_EXPIRY ready a group whose conditions hold or whose clocks have passed.

R94, R98, R99, R101: CSRD gives D a special register, CSWR clears the FLAGS bits that A sets, and CABORT raises KERNEL_ABORT with
its code, which stops the kernel. -/
def Obligations.WaitsAndSpecialRegisters : Prop :=
  (
  (∀ (t : Th) (s : State) (g : Group), Issues s t [usesPred t] g → execMask g t ≠ 0 →
    (cWell t false false 7 0 = true → Runs (.cbar t) s t (fun _ g' => g'.wait = .barrier (cSub t)))
    ∧ (cWell t false false 0xF 0xFFF = true → Runs (.cwait t) s t (fun _ g' => g'.wait =
        if waitMet s t.core t.grp (cSub t) (fld t 0 8) (fld t 8 4) then .ready else .cond (cSub t) (fld t 0 8) (fld t 8 4)))
    ∧ (cWell t false false 0 0xFFFFF = true → Runs (.csleep t) s t (fun _ g' =>
        g'.wait = .sleep (clock20 s t.core + 20 * fld t 0 20))))
  ∧ (∀ (c n : Nat) (s : State) (b : Batch), batchOf s c = some b → barrierMet b n = true →
    ∃ s', exec (.barrierRelease c n) s = .next s' ∧ s' = { s with cores := s'.cores }
      ∧ (∀ x, x ≠ c → core s' x = core s x)
      ∧ ∀ g gr, groupOf s c g = some gr → ∃ gr', groupOf s' c g = some gr'
          ∧ gr' = { gr with wait := gr'.wait } ∧ (gr.ended = false → gr'.wait = .ready))
  ∧ (∀ (c g : Nat) (s : State) (gr : Group), groupOf s c g = some gr →
    (∀ sub chans count, gr.wait = .cond sub chans count → waitMet s c g sub chans count = true →
      ∃ s', exec (.cwaitSatisfied c g) s = .next s' ∧ groupOf s' c g = some { gr with wait := .ready } ∧ OnlyGroup s s' c g)
    ∧ (∀ u, gr.wait = .sleep u → u ≤ clock20 s c →
      ∃ s', exec (.csleepExpiry c g) s = .next s' ∧ groupOf s' c g = some { gr with wait := .ready } ∧ OnlyGroup s s' c g)))
  ∧ (
  (∀ (t : Th) (s : State) (g : Group) (b : Batch), batchOf s t.core = some b → Issues s t [usesPred t, fD t] g →
    cWell t true false 0 0xFF = true → rkind (fD t) ≠ .p → fld t 0 8 ≤ 0x12 →
    let v := fun l => ((special s t.core b g l (fld t 0 8)).map Prod.fst).getD 0
    (rkind (fD t) ≠ .a →
      Yields (.csrd t) s t g (fD t) (execMask g t) (fun l => BitVec.setWidth 32 (v l)) 0)
    ∧ ∀ n, n < 16 → fD t = 0x60 + n → execMask g t ≠ 0 →
      Runs (.csrd t) s t (fun _ g' => WroteA g g' n (v (lowLane (execMask g t))) ∧ Advanced g g' 0 (nextPc g)))
  ∧ (∀ (t : Th) (s : State) (g : Group), Issues s t [usesPred t, fA t] g → cWell t false true 0 0xFF = true →
    fld t 0 8 = 0x0A → execMask g t ≠ 0 →
    Runs (.cswr t) s t (fun _ g' =>
      g'.flags = g.flags &&& ~~~ BitVec.setWidth 5 (rd g (lowLane (execMask g t)) (fA t))))
  ∧ (∀ (t : Th) (s : State) (g : Group) (b : Batch), batchOf s t.core = some b → Issues s t [usesPred t] g →
    cWell t false false 0 0xFFFF = true → execMask g t ≠ 0 → (kernel s b.kernel).fault = none →
    ∃ s' f, exec (.cabort t) s = .next s' ∧ (kernel s' b.kernel).fault = some f ∧ f.code = errKernelAbort
      ∧ f.addr = BitVec.ofNat 64 (fld t 0 16) ∧ f.pc = g.pc ∧ (kernel s' b.kernel).stopAt = some s.now
      ∧ (batchOf s' t.core).map Batch.why = some .fault ∧ s' = { s with cores := s'.cores, kernels := s'.kernels }))

/-- R72, R88, R89, R91, R93: XLDS writes to DATA, lane by lane, what its own scratchpad holds at the effective addresses; XSTS stores
DATA there in ascending lane order; XATOMS performs its operation in ascending lane order and returns the old values; XMOV appends
the 64 bytes to its channel's queue.

R100, R102: a scratchpad access some of whose lanes are misaligned or lie beyond the reservation stops the kernel at the
instruction, with those lanes and the code of the lowest: MISALIGNED before SCRATCH_RANGE. An instruction that its form does not
allow raises ILLEGAL_INSTR. -/
def Obligations.ScratchpadAccessesAndFaults : Prop :=
  (
  ∀ (t : Th) (s : State) (g : Group), s.landing = [] →
    (Issues s t (xUses t (sizeRegs (xSize t))) g → xLegal t true = true → ScrOk s t g (2 ^ xSize t) →
      Runs (.xlds t []) s t (fun _ g' => Advanced g g' 0 (nextPc g) ∧
        SameRegs ((xLanes t (execMask g t)).foldl (fun r l => writeData r (xData t) (xSize t) (xSx t) l
          (memBytes (core s t.core).scr (xAddr g t l).toNat (2 ^ xSize t))) g) g'))
    ∧ (Issues s t (xUses t (sizeRegs (xSize t))) g → xLegal t false = true → ScrOk s t g (2 ^ xSize t) →
      redSpans s t.core = [] → Memory.wf (core s t.core).scr = true →
      Leads (.xsts t []) s t (fun s' g' => Advanced g g' 0 (nextPc g) ∧ SameRegs g g'
        ∧ (core s' t.core).scr = (xLanes t (execMask g t)).foldl (fun m l => memPut m (xAddr g t l).toNat
            (dataBytes g l (xData t) 0 (2 ^ xSize t))) (core s t.core).scr
        ∧ ∀ c, c ≠ t.core → core s' c = core s c))
    ∧ (Issues s t (xUses t (if xSub t = 4 then 2 else 1)) g → atomLegal t false = true → ScrOk s t g 4 →
      Leads (.xatoms t []) s t (fun s' g' => Advanced g g' 0 (nextPc g)
        ∧ SameRegs ((xLanes t (execMask g t)).foldl (atomStep g t) (g, (core s t.core).scr)).1 g'
        ∧ (core s' t.core).scr = ((xLanes t (execMask g t)).foldl (atomStep g t) (g, (core s t.core).scr)).2
        ∧ ∀ c, c ≠ t.core → core s' c = core s c))
    ∧ (∀ b, Issues s t [usesPred t, 0x60 + xAbase t, xIdx t] g → batchOf s t.core = some b → bitAt (xSub t) 3 = false →
      rkind (xData t) ≠ .reserved → rkind (xIdx t) ≠ .reserved → (chan s t.core (xSub t)).queue.length < 16 → execMask g t ≠ 0 →
      (xAddr g t (lowLane (execMask g t))).toNat % 64 = 0 →
      (xAddr g t (lowLane (execMask g t))).toNat < scrLimit (kernelOn s t.core).lb →
      ScrGood s t.core (xAddr g t (lowLane (execMask g t))).toNat 64 →
      Leads (.xmov t []) s t (fun s' g' => Advanced g g' 0 (nextPc g) ∧ SameRegs g g'
        ∧ ∃ d, (chan s' t.core (xSub t)).queue = (chan s t.core (xSub t)).queue ++ [d]
          ∧ d.bytes = memBytes (core s t.core).scr (xAddr g t (lowLane (execMask g t))).toNat 64
          ∧ d.owner = .xmov b.kernel t.grp ∧ d.space = (kernel s b.kernel).space)))
  ∧ (
  ∀ (t : Th) (s : State) (g : Group) (load : Bool), Issues s t (xUses t (sizeRegs (xSize t))) g →
    let c : Instr := if load then .xlds t [] else .xsts t []
    let far := fun l => decide (scrLimit (kernelOn s t.core).lb ≤ (xAddr g t l).toNat)
    let odd := fun l => decide ((xAddr g t l).toNat % 2 ^ xSize t ≠ 0)
    (xLegal t load = false → Faults c s t g errIllegalInstr g.active g.pc)
    ∧ ∀ l rest, xLegal t load = true → execMask g t ≠ 0 →
      (xLanes t (execMask g t)).filter (fun l => odd l || far l) = l :: rest →
      Faults c s t g (if odd l then errMisaligned else errScratchRange)
        (if xUniform t then execMask g t else laneMask (l :: rest)) (xAddr g t l))

/-- R92: XFENCE goes on, and marks the group's global accesses that are still outstanding: a later access of the group waits until
they are performed. R193: SCRATCH_ECC_WRITEBACK writes back the oldest corrected word, which is then good.

R75, R89, R91, R292: a global access whose lanes' addresses are aligned and below 2⁴⁹ stalls its group at the instruction, with an
operation that holds the lanes and a tile that holds their pages. -/
def Obligations.FencesWritebacksAndGlobalAccesses : Prop :=
  (
  (∀ (t : Th) (s : State) (g : Group), Issues s t [usesPred t] g → xSub t ≤ 2 → rkind (xData t) ≠ .reserved →
    rkind (xIdx t) ≠ .reserved → execMask g t ≠ 0 →
    Leads (.xfence t) s t (fun s' g' => Advanced g g' 0 (nextPc g) ∧ SameRegs g g'
      ∧ s'.ops = s.ops.map (fun kv => if kv.2.core = t.core ∧ kv.2.grp = t.grp then (kv.1, { kv.2 with fenced := true }) else kv)
      ∧ ((s.ops.any fun kv => kv.2.core = t.core && kv.2.grp = t.grp && !kv.2.left.isEmpty) = true →
          fenceHolds s' t.core t.grp = true)))
  ∧ (∀ (c w : Nat) (rest : List Nat) (s : State), (core s c).backs = w :: rest →
    (markOf s c w = .single → Gives (.scratchEccWriteback c) s (fun s' => markOf s' c w = .good
      ∧ core s' c = { core s c with backs := rest, marks := (core s' c).marks } ∧ (∀ x, x ≠ w → markOf s' c x = markOf s c x)
      ∧ s' = { s with cores := s'.cores } ∧ ∀ x, x ≠ c → core s' x = core s x))
    ∧ (markOf s c w = .double → Gives (.scratchEccWriteback c) s (fun s' =>
        getR s' r_TMV_SCR_UE = (getR s r_TMV_SCR_UE + 1) % 2 ^ 64
        ∧ getF s' f_TMV_SCR_UE_LOG_SOURCE = srcWriteBack ∧ (core s' c).backs = rest))))
  ∧ (
  ∀ row ∈ [(ThreadKind.load, Instr.xldg), (.store, .xstg), (.atomic, .xatomg)], ∀ (t : Th) (s : State) (g : Group) (b : Batch),
    let n := if row.1 = .atomic ∧ xSub t = 4 then 2 * sizeRegs (xSize t) else sizeRegs (xSize t)
    let legal := if row.1 = .atomic then atomLegal t true else xLegal t (row.1 = .load)
    let lanes := xLanes t (execMask g t)
    Issues s t (xUses t n) g → legal = true → fenceHolds s t.core t.grp = false → execMask g t ≠ 0 → batchOf s t.core = some b →
    (∀ l ∈ lanes, (xAddr g t l).toNat % 2 ^ xSize t = 0 ∧ (xAddr g t l).toNat < 2 ^ 49) →
    Gives (row.2 t) s (fun s' => groupOf s' t.core t.grp = some { g with wait := .tile (s.nextId + 1) }
      ∧ (∃ o, mfind s'.ops s.nextId = some o ∧ o.kind = row.1 ∧ o.core = t.core ∧ o.grp = t.grp ∧ o.pc = g.pc
        ∧ o.lanes.map LaneAcc.lane = lanes ∧ o.lanes.map LaneAcc.va = lanes.map (fun l => (xAddr g t l).toNat)
        ∧ o.lanes.map LaneAcc.data = lanes.map (fun l => dataBytes g l (xData t) 0 (2 ^ xSize t)))
      ∧ ∃ x, mfind s'.tiles (s.nextId + 1) = some x ∧ x.owner = .thread s.nextId
        ∧ x.pages = pagesOf (lanes.map (fun l => (xAddr g t l).toNat))))

/-- R75, R292, R414: TILE_TRANSLATED issues a ready tile: the tile goes, the group goes on to its next instruction, its loaded
registers await the data, and each lane's request is sent; here for one lane on this chip's memory, and for an instruction line. -/
def Obligations.TileIssue : Prop :=  ∀ (tid : Nat) (s : State) (x : Tile), mfind s.tiles tid = some x → tileReady x = true →
    (∀ op o g a ga hint, x.owner = .thread op → mfind s.ops op = some o → batchRuns s o.core = true → issueStopped s o.core = false →
      groupOf s o.core o.grp = some g → o.lanes = [a] →
      resolve s x.inst (worldOf s x.slot) (tileXlat x a.va) a.va = .at ga 1 hint → gpaChip ga = chipId s → gpaLocal ga < hostWindow →
      Gives (.tileTranslated tid) s (fun s' => mfind s'.tiles tid = none
        ∧ (∃ r, mfind s'.reqs s.nextId = some r ∧ r.owner = .thread op a.lane ∧ r.gpa = ga ∧ r.len = 2 ^ o.size
          ∧ (r.stage = .sent ∨ r.stage = .held) ∧ ((∀ kv ∈ s.reqs, kv.2.master ≠ r.master) → r.stage = .sent)
          ∧ r.op = (match o.kind with
            | .load => .read
            | .store => .write
            | _ => .atomic o.sub (2 ^ o.size) o.sx (opReturns o)))
        ∧ ∃ g', groupOf s' o.core o.grp = some g' ∧ g'.wait = .ready ∧ SameRegs g g'
          ∧ g'.pend = if opReturns o then g.pend ++ (dataRegs o.data (sizeRegs o.size)).map (fun r => (op, r)) else g.pend))
    ∧ (∀ c line ga hint, x.owner = .fetch c line → batchRuns s c = true →
      resolve s x.inst (worldOf s x.slot) (tileXlat x line) line = .at ga 1 hint → gpaChip ga = chipId s → gpaLocal ga < hostWindow →
      Gives (.tileTranslated tid) s (fun s' => mfind s'.tiles tid = none
        ∧ ∃ r, mfind s'.reqs s.nextId = some r ∧ r.owner = .fetch c line ∧ r.gpa = ga ∧ r.len = 256 ∧ r.op = .read))

/-- R76, R100, R254: LOAD_DATA_RETURN writes the clean lanes of a load whose requests are all done to its registers, which await
nothing more, and raises DATA_POISON for a poisoned lane; the value of a Silk READ goes to its register. -/
def Obligations.DataReturns : Prop :=  ∀ (op : Nat) (s : State) (o : ThreadOp) (g : Group) (b : Batch), mfind s.ops op = some o → groupOf s o.core o.grp = some g →
    batchOf s o.core = some b → b.why = .running → asleep s o.core = false →
    (∀ id r a, o.kind = .load → o.left = [] → o.lanes = [a] → reqsOfOp s op = [(id, r)] → r.stage = .done → r.err = 0 →
      r.owner = .thread op a.lane → r.deadline = none → NoHeld s →
      (r.poison = 0 → Gives (.loadDataReturn op) s (fun s' => mfind s'.reqs id = none ∧ mfind s'.ops op = none
        ∧ ∃ g', groupOf s' o.core o.grp = some g' ∧ g'.pend = g.pend.filter (fun p => p.1 ≠ op)
          ∧ SameRegs (writeData g o.data o.size o.sx a.lane r.data) g'))
      ∧ (r.poison ≠ 0 → (kernel s b.kernel).fault = none → Gives (.loadDataReturn op) s (fun s' =>
          (∃ g', groupOf s' o.core o.grp = some g' ∧ SameRegs g g')
          ∧ ∃ f, (kernel s' b.kernel).fault = some f ∧ f.code = errDataPoison ∧ f.pc = o.pc ∧ f.addr = BitVec.ofNat 64 a.va)))
    ∧ (∀ r k, o.kind = .silkRead → mfind s.silkReplies op = some r → r.instar = instarOf s (.core o.core) →
      k < 32 → o.data = 0x40 + k →
      Gives (.loadDataReturn op) s (fun s' => mfind s'.silkReplies op = none ∧ mfind s'.ops op = none
        ∧ ∃ g', groupOf s' o.core o.grp = some g' ∧ uReg g' k = BitVec.setWidth 32 r.value ∧ g'.sregs = g.sregs
          ∧ g'.pend = g.pend.filter (fun p => p.1 ≠ op)))

/-- R545: IFETCH_LINE begins the fetch of the line that a running group's next instruction lies in and the cache does not hold; when
it returns clean IFETCH_LINE_RETURN enters it in the cache, and poisoned it stops the kernel with DATA_POISON. -/
def Obligations.InstructionFetch : Prop :=  (∀ (c g : Nat) (s : State) (gr : Group), readyGroup s c g = some gr → inCode (kernelOn s c).lb gr.pc = true →
    (core s c).icache.contains (lineOf gr.pc) = false → (s.tiles.any fun kv => kv.2.owner = .fetch c (lineOf gr.pc)) = false →
    (s.reqs.any fun kv => kv.2.owner = .fetch c (lineOf gr.pc)) = false →
    Gives (.ifetchLine c g) s (fun s' => groupOf s' c g = some gr
      ∧ ∃ x, mfind s'.tiles s.nextId = some x ∧ x.owner = .fetch c (lineOf gr.pc) ∧ x.pages = [lineOf gr.pc] ∧ x.rights = 1))
  ∧ (∀ (c line id : Nat) (s : State) (r : MemReq), asleep s c = false →
    s.reqs.find? (fun kv => kv.2.owner = .fetch c line) = some (id, r) → r.stage = .done → r.err = 0 → r.deadline = none →
    NoHeld s →
    (r.poison = 0 → Gives (.ifetchLineReturn c line) s (fun s' => (core s' c).icache.contains line = true ∧ mfind s'.reqs id = none
      ∧ ∀ l, (core s c).icache.contains l = true → (core s' c).icache.contains l = true))
    ∧ (∀ b g gr, r.poison ≠ 0 → batchOf s c = some b → b.why = .running → (kernel s b.kernel).fault = none →
      b.groups.find? (fun kv => !kv.2.ended && lineOf kv.2.pc = line) = some (g, gr) → groupOf s c g = some gr →
      Gives (.ifetchLineReturn c line) s (fun s' => (core s' c).icache = (core s c).icache
        ∧ ∃ f, (kernel s' b.kernel).fault = some f ∧ f.code = errDataPoison ∧ f.group = g ∧ f.pc = gr.pc)))

/-- R97: a CSILK ADD, READ, WAITGE or TAKE to a counter of the kernel's own range sends its operation to the counter's home; READ's
register then awaits the value, and WAITGE and TAKE make the group wait. An index beyond the range raises SILK_RANGE. -/
def Obligations.SilkInstructions : Prop :=  ∀ row ∈ [(Instr.csilkAdd, silkAdd), (.csilkRead, silkRead), (.csilkWaitge, silkWaitge), (.csilkTake, silkTake)],
    ∀ (t : Th) (s : State) (g : Group) (b : Batch) (n : Nat), Issues s t [usesPred t, fD t, fA t] g → silkLegal t = true →
    execMask g t ≠ 0 → batchOf s t.core = some b → fA t = 0x60 + n →
    let a := (aReg g n).toNat
    let i := (kernel s b.kernel).inst
    a < 2 ^ 14 →
    (a < getF s f_SILK_RANGE_SIZE i →
      Gives (row.1 t) s (fun s' => mfind s'.silkMsgs (s.nextId + 1) = some ⟨row.2, getF s f_SILK_RANGE_BASE i + a, silkValue g (fD t),
          .group t.core t.grp s.nextId, i, instarOf s (.inst i),
          epochOf s i, s.now⟩
        ∧ ∃ g', groupOf s' t.core t.grp = some g' ∧ SameRegs g g' ∧ g'.flags = g.flags
          ∧ g'.pend = (if row.2 = silkRead then g.pend ++ [(s.nextId, fD t)] else g.pend)
          ∧ g'.wait = (if row.2 = silkWaitge ∨ row.2 = silkTake then .silk s.nextId else .ready)
          ∧ (nextPc g ≠ g.rpc → g.active ≠ 0 → g'.pc = nextPc g)))
    ∧ (getF s f_SILK_RANGE_SIZE i ≤ a → Faults (row.1 t) s t g errSilkRange (execMask g t) (aReg g n))

/-- R253, R431: SILK_HOME_OP performs the oldest message of a counter: ADD adds modulo 2⁶⁴, READ returns the value, WAITGE is
satisfied or held, TAKE decrements a counter that is not zero or is held. A WAITGE waiter that an ADD satisfies is released. R259:
SILK_CTR_WRITE sets a counter, which is no custody word any longer. -/
def Obligations.SilkHome : Prop :=  (∀ (id c g op : Nat) (s : State) (m : SilkMsg), mfind s.silkMsgs id = some m →
    (s.silkMsgs.any fun kv => decide (kv.1 < id) && kv.2.ctr = m.ctr) = false → m.src = .group c g op → m.inst < 32 → m.ctr < 16384 →
    silkStale s m = false → s.custody.contains m.ctr = false →
    let v := getR s r_SILK_CTR m.ctr
    (m.op = silkAdd → (∀ w ∈ s.silkWaiters, w.ctr ≠ m.ctr) → Gives (.silkHomeOp id) s (fun s' =>
      getR s' r_SILK_CTR m.ctr = (v + m.value.toNat) % 2 ^ 64 ∧ mfind s'.silkMsgs id = none))
    ∧ (∀ val c2 g2 op2 ep gr, m.op = silkAdd →
      s.silkWaiters = [⟨false, m.ctr, val, .group c2 g2 op2, instarOf s (.core c2), ep⟩] → c2 ≠ noCore → asleep s c2 = false →
      groupOf s c2 g2 = some gr → gr.wait = .silk op2 → op2 ≠ op → val.toNat ≤ (v + m.value.toNat) % 2 ^ 64 →
      Gives (.silkHomeOp id) s (fun s' => s'.silkWaiters = [] ∧ ∃ gr', groupOf s' c2 g2 = some gr' ∧ gr'.wait = .ready))
    ∧ (m.op = silkRead → Gives (.silkHomeOp id) s (fun s' =>
        (∃ r, mfind s'.silkReplies op = some r ∧ r.value = BitVec.ofNat 64 v ∧ r.core = c ∧ r.grp = g)
        ∧ getR s' r_SILK_CTR m.ctr = v))
    ∧ (m.op = silkTake → v ≠ 0 → v < 2 ^ 64 → (∀ w ∈ s.silkWaiters, w.ctr ≠ m.ctr) →
      Gives (.silkHomeOp id) s (fun s' => getR s' r_SILK_CTR m.ctr = v - 1 ∧ s'.silkWaiters = s.silkWaiters))
    ∧ ((m.op = silkWaitge ∧ v < m.value.toNat) ∨ (m.op = silkTake ∧ v = 0) → Gives (.silkHomeOp id) s (fun s' =>
        s'.silkWaiters = s.silkWaiters ++ [⟨m.op = silkTake, m.ctr, m.value, m.src, instarOf s (.core c), m.epoch⟩]
        ∧ getR s' r_SILK_CTR m.ctr = v)))
  ∧ ∀ (n v : Nat) (s : State), n < 16384 → (∀ w ∈ s.silkWaiters, w.ctr ≠ n) →
    Gives (.silkCtrWrite n v) s (fun s' => getR s' r_SILK_CTR n = v % 2 ^ 64 ∧ n ∉ s'.custody
      ∧ ∀ k, k ≠ n → k ∈ s.custody → k ∈ s'.custody)

/-- R66 to R74, R390: BATCH_DEAL places the next batch of the Imago's holder on the core that R390 chooses; BATCH_START gives its
groups their first state on an awake core; BATCH_END frees the core when all its groups have ended, and with the last batch the
kernel's command ends.

R101, R103, R104, R342, R391: KERNEL_STOP_DRAIN_END ends a stopped kernel whose batches have drained with its fault's code;
KERNEL_STOP_ABORT drops what they still have outstanding 100 µs after the fault; BATCH_PREEMPT stops a batch whose context yields. -/
def Obligations.BatchesAndKernelStops : Prop :=
  (
  (∀ (i space n kid : Nat) (s : State) (c : Ctx) (k : Kernel), holderOf s i = some space → ctxOf s space = some c →
    nextKernel s space = some (kid, k) → computeHeld s = false → c.saved = [] → c.down = none → framesUsed s space < c.frames →
    chooseCore s i space k.lb k.nextBatch = some n →
    Gives (.batchDeal i) s (fun s' =>
      batchOf s' n = some ⟨kid, k.nextBatch, k.lb.batchSize k.nextBatch, [], false, false, .running, 0, s.now, []⟩
      ∧ kernel s' kid = { kernel s kid with nextBatch := (kernel s kid).nextBatch + 1 }))
  ∧ (∀ (c : Nat) (s : State) (b : Batch), batchOf s c = some b → b.started = false → b.why = .running → asleep s c = false →
    let k := kernel s b.kernel
    let res := regionMatch (core s c) k.space k.lb b.index && decide ((core s c).lastCtx = some k.space)
    (res = false → pinned s c = false ∧ slotsHeld s c = false) →
    Gives (.batchStart c) s (fun s' =>
      batchOf s' c = some { b with
        started := true, resident := res, progress := s.now
        groups := (List.range b.ngroups).map (fun g => (g, Group.initial k.lb b.index g)) }
      ∧ (core s' c).m = Matrix.empty ∧ (core s' c).lastCtx = some k.space ∧ (∀ l, credit s' c l = 0)
      ∧ ((core s c).lastCtx ≠ some k.space → (core s' c).tacc = [] ∧ ∀ a, a < 0xA00000 → mem8 (core s' c).scr a = 0)))
  ∧ (∀ (c : Nat) (s : State) (b : Batch), batchOf s c = some b → batchOver s c b = true → b.why = .running → b.deferred = [] →
    let k := kernel s b.kernel
    (k.ended + 1 ≠ k.nbatch → Gives (.batchEnd c) s (fun s' => batchOf s' c = none
      ∧ kernel s' b.kernel = { k with ended := k.ended + 1 }))
    ∧ ∀ v, k.ended + 1 = k.nbatch → k.stopAt = none → mfind s.cmds k.cmd = some v → v.fin = none →
      Gives (.batchEnd c) s (fun s' => batchOf s' c = none ∧ mfind s'.kernels b.kernel = none
        ∧ (mfind s'.cmds k.cmd).map Cmd.fin = some (some 0))))
  ∧ (
  (∀ (kid : Nat) (s : State) (k : Kernel) (f : FaultInfo) (v : Cmd), mfind s.kernels kid = some k → k.fault = some f →
    ((coresRunning s kid).all fun c => batchDrained s c false) = true →
    (∀ c ∈ reservedCores s kid, pinned s c = false ∧ slotsHeld s c = false) → evRoom s k.window = true →
    mfind s.cmds k.cmd = some v → v.fin = none →
    Gives (.kernelStopDrainEnd kid) s (fun s' => mfind s'.kernels kid = none
      ∧ (∀ c ∈ coresRunning s kid, batchOf s' c = none) ∧ (mfind s'.cmds k.cmd).map Cmd.fin = some (some f.code)))
  ∧ (∀ (kid : Nat) (s : State) (t : DWord), (kernel s kid).stopAt = some t → due s t (100 * usTicks) = true →
    Gives (.kernelStopAbort kid) s (fun s' => ∀ c ∈ coresRunning s kid, opsOn s' c = [] ∧ (core s' c).m = Matrix.empty))
  ∧ (∀ (c : Nat) (s : State) (b : Batch), batchOf s c = some b → b.why = .running → mustYield s c (kernel s b.kernel) = true →
    Gives (.batchPreempt c) s (fun s' => batchOf s' c = some { b with why := .preempt, stopAt := s.now })))

/-- R104, R366, R393: BATCH_SAVE_COMPLETE saves a preempted batch that has drained to the lowest free frame of its context's save area
and frees its core; BATCH_RESTORE puts the oldest saved batch on a core, where it goes on. -/
def Obligations.SaveAndRestore : Prop :=  (∀ (c n : Nat) (s : State) (b : Batch) (x : Ctx) (slot : SlotInfo), batchOf s c = some b → b.why = .preempt →
    let k := kernel s b.kernel
    NoHeld s → slotsHeld s c = false → mastersStopped s = false →
    ((coresOf s k.space).filter (fun n => decide (n < c) && ((batchOf s n).map Batch.why) = some .preempt)).length <
      savesAtOnce s k.inst →
    spillChannel s (dieOfCore s c) = true → pinned s c = false → batchDrained s c true = true →
    ctxOf s k.space = some x → slotOf s k.space = some (n, slot) →
    (frameLook s slot c k.inst (framePages (frameVa x (freeFrame x)) k.lb b.ngroups)).1 = some true →
    Gives (.batchSaveComplete c) s (fun s' => batchOf s' c = none
      ∧ getR s' r_SCH_PREEMPTS = (getR s r_SCH_PREEMPTS + 1) % 2 ^ 64
      ∧ ∃ x' v, ctxOf s' k.space = some x' ∧ x'.saved = x.saved ++ [v] ∧ v.kernel = b.kernel ∧ v.frame = freeFrame x
        ∧ (b.started = true → v.m = { (core s c).m with lfsr := 0 } ∧ v.tacc = (core s c).tacc) ∧ v.batch.index = b.index
        ∧ v.batch.groups.map Prod.fst = b.groups.map Prod.fst))
  ∧ (∀ (i space n c : Nat) (s : State) (x : Ctx) (slot : SlotInfo) (v : SavedBatch) (rest : List SavedBatch),
    holderOf s i = some space → ctxOf s space = some x → slotOf s space = some (n, slot) → x.saved = v :: rest →
    mastersStopped s = false → x.down = none → (coresOf s space).length < x.frames → (kernel s v.kernel).stopAt = none →
    chooseCore s i space (kernel s v.kernel).lb v.batch.index = some c → asleep s c = false →
    spillChannel s (dieOfCore s c) = true → v.batch.deferred = [] → NoHeld s → pinned s c = false →
    (v.batch.started = true → slotsHeld s c = false) →
    (frameLook s slot c (kernel s v.kernel).inst (framePages (frameVa x v.frame) (kernel s v.kernel).lb v.batch.ngroups)).1 =
      some true →
    Gives (.batchRestore i false) s (fun s' => (ctxOf s' space).map Ctx.saved = some rest
      ∧ (v.batch.started = true → (core s' c).m = { v.m with lfsr := (core s c).m.lfsr } ∧ (core s' c).tacc = v.tacc)
      ∧ ∃ b, batchOf s' c = some b ∧ b.kernel = v.kernel ∧ b.index = v.batch.index ∧ b.why = .running
        ∧ b.groups.map Prod.fst = v.batch.groups.map Prod.fst
        ∧ ∀ g gr, mfind v.batch.groups g = some gr → (∀ u, gr.wait ≠ .sleep u) → groupOf s' c g = some gr))

/-- R108 to R113, R117, R121: MLOADW, WBLOCK, WTILE, ATILE, MSTREAM, MSPARSE and MDRAIN take a place in their engine's queue, in issue
order, with their u registers as they stand, and the group goes on; an engine with eight instructions that have not begun makes
the group wait; an instruction whose word the checks of R113 refuse raises ILLEGAL_INSTR. -/
def Obligations.MatrixIssue : Prop :=  ∀ row ∈ matrixOps, ∀ (t : Th) (s : State) (g : Group),
    let m := (core s t.core).m
    let u := (List.range (row.2.2.2 s t)).map (fun k => fld t 45 5 + k)
    let waiting := (m.queue row.2.1.engine).filter (fun i => !i.begun)
    Issues s t (usesPred t :: u.map (fun n => 0x40 + n)) g →
    (row.2.2.1 t u.length = true → waiting.length < 8 → execMask g t ≠ 0 →
      Leads (row.1 t) s t (fun s' g' => Advanced g g' 0 (nextPc g) ∧ SameRegs g g'
        ∧ (core s' t.core).m.nextSeq = m.nextSeq + 1
        ∧ ∃ i, (core s' t.core).m.queue row.2.1.engine = m.queue row.2.1.engine ++ [i] ∧ i.op = row.2.1 ∧ i.seq = m.nextSeq
          ∧ i.grp = t.grp ∧ i.bits = t.bits.toNat ∧ i.u = u.map (uReg g) ∧ i.begun = false ∧ i.finished = false))
    ∧ (row.2.2.1 t u.length = true → waiting.length < 8 → execMask g t = 0 →
      Leads (row.1 t) s t (fun s' g' => Advanced g g' 0 (nextPc g) ∧ SameRegs g g' ∧ (core s' t.core).m = m))
    ∧ (row.2.2.1 t u.length = true → 8 ≤ waiting.length → exec (row.1 t) s = .next s)
    ∧ (row.2.2.1 t u.length = false → Faults (row.1 t) s t g errIllegalInstr g.active g.pc)

/-- R121, R122, R130, R131: M_ENGINE_BEGIN starts an M instruction whose turn it is: a load, stream or drain that passes its checks
begins, with the earlier ones of its engine; WTILE, ATILE and WBLOCK act at once. One that fails a check stops the kernel with
the check's code.

R107, R109, R110, R138: SLOT_LOAD_COMPLETE replaces the slot's tile, format, class and N, empties its block scales and sets its
tile scales to 1.0; index positions that do not ascend stop the kernel with SPARSE_INDEX. R128, R141, R142: A_CHUNK_ARRIVAL brings a
fetched row into the A buffer, or, a zero row under ZSKIP, past it. R126, R214: M_INSTR_COMPLETE takes the oldest finished
instruction off its engine, raises its flags in its group and its credit line by 1. -/
def Obligations.MatrixBeginAndLoads : Prop :=
  (
  ∀ (c seq : Nat) (s : State) (i : MInstr),
    let m := (core s c).m
    let lim := scrLimit (kernelOn s c).lb
    let w := m.slot i.slotNo
    let begins := fun (l : List MInstr) => l.map (fun x => if x.seq ≤ i.seq then { x with begun := true } else x)
    (m.load ++ m.stream ++ m.drain).find? (fun x => x.seq = seq && !x.finished) = some i → i.begun = false →
    mRuns s c = true → mTurn m i = true →
    (i.op = .loadw → loadCheck i lim = none → Gives (.mEngineBegin c seq []) s (fun s' => (core s' c).m.load = begins m.load))
    ∧ (i.op.streams = true → streamCheck m i lim = none → (∀ x ∈ m.stream, x.seq = i.seq → x = i) → i.entered = 0 →
      (i.nextFetch ≠ none → Gives (.mEngineBegin c seq []) s (fun s' => (core s' c).m.stream = begins m.stream))
      ∧ (i.nextFetch = none → i ∈ m.stream → Gives (.mEngineBegin c seq []) s (fun s' =>
          mInstr (core s' c).m 1 i.seq = some { i with begun := true, fetched := i.rowsM })))
    ∧ (i.op = .atile → Gives (.mEngineBegin c seq []) s (fun s' => (core s' c).m.ascale = i.u))
    ∧ (i.op = .wtile → w.loaded = true → Gives (.mEngineBegin c seq []) s (fun s' => (core s' c).m.slot i.slotNo =
        { w with scales := i.u.take ((kwOf w.cls w.spn + 127) / 128) ++ w.scales.drop ((kwOf w.cls w.spn + 127) / 128) }))
    ∧ (i.op = .wblock → w.loaded = true → i.reg 0 + 128 * kwOf w.cls w.spn / 32 ≤ lim →
      ScrGood s c (i.reg 0) (128 * kwOf w.cls w.spn / 32) → Gives (.mEngineBegin c seq []) s (fun s' =>
        (core s' c).m.slot i.slotNo = { w with blk := some (scrBytes s c (i.reg 0) (128 * kwOf w.cls w.spn / 32)) }))
    ∧ (i.op = .drain → i.slotOk = false → drainCheck i lim = none → (i.smode = 2 → ScrGood s c (i.reg 4) 512) →
      (i.bias = true → ScrGood s c (i.reg 5) 512) → m.drain.head? = some i → Gives (.mEngineBegin c seq []) s (fun s' =>
        (∃ x, (core s' c).m.drain.head? = some x ∧ x.seq = i.seq ∧ x.slotOk = true
          ∧ (i.smode = 2 ∨ i.bias = true ∨ i.rnd = 1 → x.begun = true))
        ∧ (i.rnd = 1 → (core s' c).m.lfsr = lfsrLoad (kernelOn s c).lb.seed (BitVec.ofNat 32 (i.reg 6)))))
    ∧ (∀ e a, i.op = .loadw → loadCheck i lim = some (e, a) → Stops (.mEngineBegin c seq []) s c e)
    ∧ (∀ e a, i.op.streams = true → streamCheck m i lim = some (e, a) → Stops (.mEngineBegin c seq []) s c e)
    ∧ (∀ e a, i.op = .drain → i.slotOk = false → drainCheck i lim = some (e, a) → Stops (.mEngineBegin c seq []) s c e)
    ∧ ((i.op = .wblock ∨ i.op = .wtile) → w.loaded = false → Stops (.mEngineBegin c seq []) s c errMatrixOperand))
  ∧ (
  (∀ (c : Nat) (s : State) (i : MInstr), asleep s c = false → (core s c).m.load.head? = some i → i.op = .loadw → i.begun = true →
    i.finished = false →
    let size := loadBytes i.wfmt i.cls i.spn
    ScrGood s c (i.reg 0) size.1 → (i.spn ≠ 0 → ScrGood s c (i.reg 1) size.2) →
    let idx := if i.spn = 0 then [] else scrBytes s c (i.reg 1) size.2
    (i.spn = 0 ∨ sparseOk idx (kwOf i.cls i.spn) i.spn = true → Gives (.slotLoadComplete c []) s (fun s' =>
      (core s' c).m.slot i.slotNo = ⟨true, i.wfmt, i.cls, i.spn, scrBytes s c (i.reg 0) size.1, idx, none,
        List.replicate 4 0x3F800000⟩
      ∧ (core s' c).m.load.head?.map MInstr.finished = some true))
    ∧ (i.spn ≠ 0 → sparseOk idx (kwOf i.cls i.spn) i.spn = false → Stops (.slotLoadComplete c []) s c errSparseIndex))
  ∧ (∀ (c r : Nat) (s : State) (i : MInstr) (row : ARow), asleep s c = false →
    let m := (core s c).m
    m.stream.find? (fun x => x.op.streams && x.begun && decide (x.fetched < x.rowsM)) = some i → mInstr m 1 i.seq = some i →
    i.nextFetch = some r → chunkRows i (streamKw m i) r (16 - m.abuf.length) = [r] →
    fetchRow s c i (streamKw m i) r = (none, row, s) →
    Gives (.aChunkArrival c []) s (fun s' =>
      (core s' c).m.abuf = (if row.zero then m.abuf else m.abuf ++ [row])
      ∧ (core s' c).m.zeros = (if row.zero then m.zeros ++ [row] else m.zeros)
      ∧ ∃ x, mInstr (core s' c).m 1 i.seq = some x ∧ r + 1 ≤ x.fetched))
  ∧ (∀ (c e : Nat) (s : State) (i : MInstr) (rest : List MInstr) (g : Group), asleep s c = false →
    (core s c).m.queue e = i :: rest → i.finished = true → groupOf s c i.grp = some g → g.ended = false →
    Gives (.mInstrComplete c e) s (fun s' => (core s' c).m.queue e = rest
      ∧ (groupOf s' c i.grp).map Group.flags = some (g.flags ||| i.flags)
      ∧ ∀ l, i.op.credit = some l → credit s c l < 65535 → credit s' c l = credit s c l + 1)))

/-- R114 to R116, R122, R125, R142, R144: MATRIX_ROW_ENTRY takes the next row into the array, its slot checked at the first;
ACC_UPDATE adds the row's products to its accumulator row, group by group, each group rounded once; NO_ROW_STREAM_UPDATE carries
out a stream of which no row enters. R124, R130: an operand mismatch stops the kernel with MATRIX_OPERAND, an accumulator row in
error with ACC_ECC.

R118 to R120, R122, R125: DRAIN_ROW_READ reads the drain's next accumulator row, scaled, biased, activated and converted, into
the output buffer, and clears it with CLR; DRAIN_ROW_WRITE writes the oldest row to scratchpad. -/
def Obligations.MatrixRowsAndDrains : Prop :=
  (
  (∀ (c : Nat) (s : State) (r : ARow) (rest : List ARow) (i : MInstr), asleep s c = false →
    let m := (core s c).m
    m.abuf = r :: rest → mInstr m 1 r.seq = some i → i.op.streams = true → issueStopped s c = false → streamTurn m i = true →
    loadsDone m i = true → ((List.range (r.row + 1)).drop i.rows).any (drainBlocks m i) = false →
    (i.slotOk = true ∨ slotCheck i (m.slot i.slotNo) = true → Gives (.matrixRowEntry c) s (fun s' =>
      (core s' c).m.abuf = rest ∧ (core s' c).m.array = m.array ++ [r]
      ∧ ∃ x, mInstr (core s' c).m 1 r.seq = some x ∧ x.slotOk = true ∧ x.entered = i.entered + 1
        ∧ (i.slotOk = false → x.slot = m.slot i.slotNo ∧ x.vec = m.ascale)))
    ∧ (i.slotOk = false → slotCheck i (m.slot i.slotNo) = false → Stops (.matrixRowEntry c) s c errMatrixOperand))
  ∧ (∀ (c : Nat) (s : State) (r : ARow) (rest : List ARow) (i : MInstr), asleep s c = false →
    let m := (core s c).m
    m.array = r :: rest → m.stream.find? (fun x => x.op.streams && !x.finished) = some i → r.seq = i.seq → i.upd = r.row →
    let first := i.init && decide (r.row < 128 * (i.tn + 1))
    (first = true ∨ mget false (core s c).taccBad (accRow i r.row) = false → Gives (.accUpdate c []) s (fun s' =>
      (core s' c).m.array = rest
      ∧ ∀ a n, n < 128 → mget 0 (core s' c).tacc (a * 128 + n) =
          if a = accRow i r.row then
            (reduceRow i (some r) n (if first then 0 else mget 0 (core s c).tacc (a * 128 + n))).1
          else mget 0 (core s c).tacc (a * 128 + n)))
    ∧ (first = false → Stops (.accUpdate c [r.row]) s c errAccEcc))
  ∧ (∀ (c : Nat) (s : State) (i : MInstr), asleep s c = false →
    let m := (core s c).m
    m.stream.find? (fun x => x.op.streams && !x.finished) = some i → mInstr m 1 i.seq = some i → i.begun = true → i.entered = 0 →
    i.fetched = i.rowsM → (m.abuf.any fun r => r.seq = i.seq) = false → streamTurn m i = true → loadsDone m i = true →
    (List.range i.rowsM).any (drainBlocks m i) = false →
    (slotCheck i (m.slot i.slotNo) = true → accBad s c i (List.range i.rowsM) = false →
      Gives (.noRowStreamUpdate ⟨c, []⟩) s (fun s' => (core s' c).m.array = m.array
        ∧ ∃ x, mInstr (core s' c).m 1 i.seq = some x ∧ x.finished = true ∧ x.rows = i.rowsM ∧ x.upd = i.rowsM
          ∧ (i.rowsM = 1 → i.upd = 0 → ∀ n, n < 128 → mget 0 (core s' c).tacc (accRow i 0 * 128 + n) =
            (reduceRow x (m.zeros.find? (fun r => r.seq = i.seq && r.row = 0)) n
              (if i.init then 0 else mget 0 (core s c).tacc (accRow i 0 * 128 + n))).1)))
    ∧ (slotCheck i (m.slot i.slotNo) = false → Stops (.noRowStreamUpdate ⟨c, []⟩) s c errMatrixOperand)))
  ∧ (
  (∀ (c : Nat) (s : State) (i : MInstr), asleep s c = false →
    let m := (core s c).m
    let r := i.ts * 128 + i.row0 + i.reads
    m.drain.head? = some i → i.slotOk = true → (i.begun = true ∨ mRuns s c = true) → i.reads < i.nrows → m.out.length < 16 → drainReady m i r = true →
    (mget false (core s c).taccBad r = false →
      let xs := (List.range 128).map (fun n => drainElem i (mget 0 (core s c).tacc (r * 128 + n)) n)
      let row := drainRow i (flushOf s c) (rndsFrom (i.rnd = 1) m.lfsr 128).1 (xs.map Prod.fst)
      Gives (.drainRowRead c false) s (fun s' => (core s' c).m.out = m.out ++ [⟨i.seq, i.reads, row.1, row.2.1⟩]
        ∧ ∀ a n, n < 128 → mget 0 (core s' c).tacc (a * 128 + n) =
            if i.clr ∧ a = r then 0 else mget 0 (core s c).tacc (a * 128 + n)))
    ∧ Stops (.drainRowRead c true) s c errAccEcc)
  ∧ (∀ (c : Nat) (s : State) (r : DrainRow) (rest : List DrainRow) (i : MInstr), asleep s c = false →
    (core s c).m.out = r :: rest → (core s c).m.drain.head? = some i → s.landing = [] →
    Gives (.drainRowWrite c) s (fun s' => (core s' c).m.out = rest
      ∧ (core s' c).scr = memPut (memPut (core s c).scr (i.reg 0 + r.row * (drainPitch i).2) r.bytes)
          (i.reg 2 + r.row * drainScalePitch i) r.scales)))

/-! ## Tile movers -/

/-- R201, R203, R215: DESC_FRONT checks the descriptor at the front of an idle channel: one that fails a check stops its kernel with
the check's code; a CREDIT descriptor adds to its line and leaves its queue; another has its first tile entered into translation.
DESC_TRANSLATED makes a channel whose tile is mapped Ready. R214, R215, R218, R221: DESC_COMPLETE frees the queue entry of a drained
descriptor, raises its line under RAISE and gives its owner its flags. R199: PEER_ACCESS_TIMEOUT fails a peer access that has waited
too long with SCRATCH_PEER. -/
def Obligations.MoverDescriptors : Prop :=  (∀ (u k : Nat) (s : State) (d : Desc), XmovFront s u k d → (chan s u k).state = .idle → mayBegin s u k d = true →
    moverStopped s u = false → (isBulk u = true → collOn s (bulkNum u k) = false) →
    (∀ e, descCheck (isBulk u) d = some e → Stops (.descFront u k) s u e)
    ∧ (descCheck (isBulk u) d = none → d.op = dCredit → credit s u d.line + d.aux % 65536 ≤ 65535 →
      Gives (.descFront u k) s (fun s' => credit s' u d.line = credit s u d.line + d.aux % 65536
        ∧ (chan s' u k).queue = (chan s u k).queue.drop 1 ∧ (chan s' u k).state = .idle))
    ∧ (descCheck (isBulk u) d = none → d.op ≠ dCredit → d.prog = none → (chan s u k) = { Chan.empty with queue := (chan s u k).queue } →
      needsStage d (chan s u k) = none → d.rows ≠ 0 →
      let t := tileTake s d (chan s u k) (segPieces d (chan s u k) (tileEnd s d (chan s u k))).1 []
      spaceCheck s u d d.sspace (t.1.flatMap (pieceReads d (chan s u k))) = none →
      spaceCheck s u d d.dspace (t.1.flatMap (pieceWrites d (chan s u k))) = none →
      Gives (.descFront u k) s (fun s' => (chan s' u k).state = .translating ∧ (chan s' u k).queue = (chan s u k).queue
        ∧ ((chan s' u k).tile = none ↔ t.2 = []))))
  ∧ (∀ (u k : Nat) (s : State) (d : Desc), frontDesc s u k = some d →
    let c := chan s u k
    c.state = .translating → c.stage = 0 → (∀ t tile, c.tile = some t → mfind s.tiles t = some tile → tileReady tile = true) →
    moverStopped s u = false → pastEnd c.row c.ofs c.lim = false →
    Gives (.descTranslated u k) s (fun s' => (chan s' u k).state = .ready ∧ (chan s' u k).queue = c.queue))
  ∧ (∀ (u k : Nat) (s : State) (d : Desc), frontDesc s u k = some d →
    let c := chan s u k
    c.state = .draining → c.bursts = [] → (d.op = dBst → d.skipw = true → c.skipSent = true) → c.newUse = none →
    NoHeld s →
    let idle := { Chan.empty with queue := c.queue.drop 1, before := if (c.queue.drop 1).isEmpty then [] else c.spans }
    (∀ kid grp, d.owner = .xmov kid grp → credit s u (d.bits 7 0 4) < 65535 →
      Gives (.descComplete u k) s (fun s' => chan s' u k = idle
        ∧ (kernel s' kid).flagSum = (kernel s kid).flagSum ||| c.flags
        ∧ (d.bits 7 4 2 = 1 → credit s' u (d.bits 7 0 4) = credit s u (d.bits 7 0 4) + 1)
        ∧ (d.bits 7 4 2 = 0 → ∀ l, credit s' u l = credit s u l)))
    ∧ (∀ q n v, d.owner = .command q n → mfind s.cmds n = some v → 2 ≤ v.running → 256 ≤ u → u < 264 → k < 32 → d.bits 7 4 2 = 0 →
      Gives (.descComplete u k) s (fun s' => chan s' u k = idle
        ∧ (mfind s'.cmds n).map (fun v => (v.running, v.count)) = some (v.running - 1, v.count + 1)
        ∧ getR s' r_TMV_BCH_DONE (bulkNum u k) = (getR s r_TMV_BCH_DONE (bulkNum u k) + 1) % 2 ^ 64)))
  ∧ (∀ (u k : Nat) (s : State) (d : Desc) (t : DWord), XmovFront s u k d → (chan s u k).peerSince = some t →
    dueRun s t (getF s f_TMV_PEER_TIMEOUT_US * usTicks) = true → Stops (.peerAccessTimeout u k) s u errScratchPeer)

/-- R203, R212 to R214: BURST_START starts the next burst of the channel that the mover picks, takes a credit for a PACED one, and
asks for its source data. R202, R207, R208: MOVER_READ_RETURN delivers the oldest burst whose data has arrived to the destination
and raises a line under RAISE; a read that failed stops the kernel with its code. -/
def Obligations.MoverBursts : Prop :=  (∀ (u p k : Nat) (s : State) (d : Desc), moverStopped s u = false → pickChan s u = some (p, k) → frontDesc s u k = some d →
    let c := chan s u k
    let n := nextBurst d c
    let reads := n.1.flatMap (pieceReads d c)
    reads ≠ [] → (d.sspace = 1 → Reachable s u k d (lineParts reads)) →
    Gives (.burstStart u) s (fun s' => mget 0 (mover s' u).rr p = k
      ∧ credit s' u d.line = (if d.paced ∧ c.cnt = 0 ∧ c.paid = false then credit s u d.line - 1 else credit s u d.line)
      ∧ (chan s' u k).row = n.2.2.1 ∧ (chan s' u k).ofs = n.2.2.2 ∧ (chan s' u k).begun = true
      ∧ (chan s' u k).nextBurst = c.nextBurst + (if c.cnt = 0 then 1 else 0)
      ∧ ∃ b, (chan s' u k).bursts = c.bursts ++ [b] ∧ b.pieces = n.1 ∧ b.last = n.2.1 ∧ b.delivered = false))
  ∧ (∀ (u k : Nat) (s : State) (d : Desc) (b : Burst), frontDesc s u k = some d →
    let c := chan s u k
    c.stage = 0 → isBulk u = false → asleep s u = false → NoHeld s → (d.dspace = 1 → b.held ≠ []) →
    (∀ x ∈ b.cores, instarOf s (.core x.1) = x.2) → c.bursts.find? (fun b => !b.delivered) = some b →
    sleepers s u d.sspace (b.pieces.flatMap (pieceReads d c)) = [] → sleepers s u d.dspace (b.pieces.flatMap (pieceWrites d c)) = [] →
    spaceCheck s u d d.sspace (b.pieces.flatMap (pieceReads d c)) = none →
    spaceCheck s u d d.dspace (b.pieces.flatMap (pieceWrites d c)) = none →
    (∀ parts, burstParts s b = some (0, parts) → d.sspace = 1 → d.dspace = 0 → d.red = 0 → s.landing = [] →
      c.before = [] → (∀ a, clashes d c u a = false) → pastEnd c.row c.ofs c.lim = false → credit s u (d.bits 7 0 4) < 65535 →
      Gives (.moverReadReturn u k []) s (fun s' =>
        (core s' u).scr = ((b.pieces.map (pieceOut d c (partByte parts))).flatMap Prod.fst).foldl
          (fun m w => memPut m w.1 (w.2.map Prod.fst)) (core s u).scr
        ∧ b ∉ (chan s' u k).bursts
        ∧ (b.last = true → d.bits 7 4 2 = 3 → credit s' u (d.bits 7 0 4) = credit s u (d.bits 7 0 4) + 1)))
    ∧ (∀ e parts, burstParts s b = some (e, parts) → e ≠ 0 → isXmov d = true → Stops (.moverReadReturn u k []) s u e))

/-- R149, R150, R154: BST_HEADER_RETURN takes in a BST transfer's header, which must be valid and fit the extent, and goes on with the
first tile row; BST_TILE_ROW takes in a tile row's bits and row bases, which must agree, and goes on with its index records. One that
is not in order stops the kernel with BST_FORMAT. -/
def Obligations.MoverBst : Prop :=  (∀ (u k : Nat) (s s1 : State) (d : Desc) (bytes : List PByte), XmovFront s u k d → d.op = dBst →
    let c := chan s u k
    let h := bytes.map Prod.fst
    NoHeld s → c.stage = 3 → c.state = .translating → sleepers s u (stageSpace d) (stageRanges d c) = [] →
    stageBytes s u k d = some (0, bytes, s1) → bytes.any Prod.snd = false →
    (bstValid h = false → Stops (.bstHeaderReturn u k) s u errBstFormat)
    ∧ (bstValid h = true → bstFits d (bstOf h) = none → c.row = 0 → c.list = [] → d.rows ≠ 0 →
      spaceCheck s1 u d (stageSpace d) (stageRanges d { c with hdr := h, stage := 1 }) = none →
      Gives (.bstHeaderReturn u k) s (fun s' => (chan s' u k).hdr = h ∧ (chan s' u k).stage = 1
        ∧ (chan s' u k).state = .translating)))
  ∧ (∀ (u k : Nat) (s s1 : State) (d : Desc) (bytes : List PByte), XmovFront s u k d → d.op = dBst →
    let c := chan s u k
    let b := bstOf c.hdr
    let i := d.i0 + c.row / d.cj
    let bits := leNat (bytes.map Prod.fst)
    let has := fun j => b2n (bitAt bits (i * b.cols % 8 + j))
    let n := (i * b.cols + b.cols + 7) / 8 - i * b.cols / 8
    let base := fun j => leNat ((((bytes.drop n).drop (4 * j)).take 4).map Prod.fst)
    let present := fun j => (List.range j).foldl (fun a j => a + has j) 0
    NoHeld s → c.stage = 1 → c.state = .translating → sleepers s u (stageSpace d) (stageRanges d c) = [] →
    stageBytes s u k d = some (0, bytes, s1) → bytes.any Prod.snd = false →
    (base 0 + present b.cols ≠ base 1 ∨ b.present < base 1 → Stops (.bstTileRow u k) s u errBstFormat)
    ∧ (base 0 + present b.cols = base 1 → base 1 ≤ b.present → b.spn ≠ 0 → (∃ j, j < d.cj ∧ has (d.j0 + j) = 1) →
      c.hdr ≠ [] → c.row < d.rows →
      let rest := idxRest d { c with
        list := (List.range d.cj).map (fun j => has (d.j0 + j)), rank := base 0 + present d.j0, idx := [] }
      (∀ n, n ≤ rest.2 → spaceCheck s1 u d (stageSpace d) [(rest.1, n)] = none) →
      Gives (.bstTileRow u k) s (fun s' => (chan s' u k).list = (List.range d.cj).map (fun j => has (d.j0 + j))
        ∧ (chan s' u k).rank = base 0 + present d.j0 ∧ (chan s' u k).stage = 2 ∧ (chan s' u k).state = .translating)))

/-! ## Gate units -/

/-- R157 to R161, R168, R172, R174: GATE_DISPATCH_SELECT takes the waiting dispatch with the lowest class label and checks it: one
whose unit is not available fails with GATE_UNAVAILABLE, one with bad parameters with GATE_PARAM; GATE_GATHER_COMPLETE ends the
gathers, and with run-ahead arms a plan; GATE_DISPATCH_COMPLETE frees the unit and ends the command with the dispatch's outcome. -/
def Obligations.GateDispatches : Prop :=  (∀ (w : Nat) (s : State) (j : GateJob), gateRun s w = none → wingStopped s w = false → firstJob (gateOf s w).waiting = some j →
    w < 8 → (∀ c ∈ j.cores, c < 144) →
    (gateAvailable s w j = true → gateParamOk j = true → gateSourceOk s w j = true →
      Gives (.gateDispatchSelect w) s (fun s' => (gateOf s' w).waiting = (gateOf s w).waiting.erase j
        ∧ (gateRun s' w).map (fun r => (r.job, r.phase, r.err)) = some (j, .selected, 0)))
    ∧ (gateAvailable s w j = false → Gives (.gateDispatchSelect w) s (fun s' =>
        (gateRun s' w).map (fun r => (r.job, r.phase, r.err)) = some (j, .finishing, errGateUnavailable)))
    ∧ (gateAvailable s w j = true → gateParamOk j = false → Gives (.gateDispatchSelect w) s (fun s' =>
        (gateRun s' w).map (fun r => (r.job, r.phase, r.err)) = some (j, .finishing, errGateParam))))
  ∧ (∀ (w : Nat) (s : State) (r : GateRun), gateRuns s w 0 .gathering = some r → r.todo = [] → r.out = 0 →
    (r.job.runahead = false ∨ flagF s f_GATE_CTRL_RUNAHEAD_EN w = false → Gives (.gateGatherComplete w) s (fun s' =>
      gateRun s' w = some { r with phase := .finishing } ∧ (gateOf s' w).plans = (gateOf s w).plans))
    ∧ (∀ bs s1, r.job.runahead = true → flagF s f_GATE_CTRL_RUNAHEAD_EN w = true → (r.record = none ∨ r.job.nextPred ≠ r.job.pred) →
      (∀ k, gateRead s w r.job r.job.nextPred 4096 k = k bs s1) → gateRun s1 w = some r → bs.any Prod.snd = false →
      predBad (bs.map Prod.fst) none = false → predStale (bs.map Prod.fst) (getF s1 f_GATE_WGEN_WGEN w) = false →
      Gives (.gateGatherComplete w) s (fun s' => (gateRun s' w).map GateRun.phase = some .finishing
        ∧ mfind (gateOf s' w).plans (jobSlot s1 r.job).1 = some ⟨r.job.nextPred, predNum (bs.map Prod.fst) 4 2, r.job.specRegion,
          r.job.fetchBytes, r.job.nslot, r.job.cores⟩
        ∧ ∀ id l, mfind s'.landing id = some l → mfind s1.landing id ≠ some l →
          l.wing = w ∧ (l.state = .doomed ∨ l.state = .fetching ∧ l.len = r.job.fetchBytes ∧ l.since = s1.now))))
  ∧ (∀ (w : Nat) (s : State) (r : GateRun) (v : Cmd), gateRun s w = some r → w < 8 → NoHeld s →
    gateStalled s w = false → gateOut s w = false → mfind s.cmds r.job.cmd = some v → v.fin = none →
    (r.err = 0 → wingStopped s w = false →
      (gateErr s w = 0 → r.phase = .finishing → r.job.summary = 0 →
        Gives (.gateDispatchComplete w) s (fun s' => gateRun s' w = some { r with phase := .summed }))
      ∧ (∀ s1, gateErr s w = 0 → r.phase = .finishing → r.job.summary ≠ 0 →
        (∀ k, gateWrite s w r.job r.job.summary (clean (summaryRecord r.sum)) k = k s1) → gateRun s1 w = some r →
        Gives (.gateDispatchComplete w) s (fun s' => gateRun s' w = some { r with phase := .summed } ∧ s'.hbm = s1.hbm))
      ∧ (gateErr s w = 0 → r.phase = .summed → r.record = none →
        Gives (.gateDispatchComplete w) s (fun s' => gateRun s' w = some { r with phase := .closing }))
      ∧ (gateErr s w = 0 → r.phase = .closing → Gives (.gateDispatchComplete w) s (fun s' => gateRun s' w = none
        ∧ getR s' r_GATE_DONE w = (getR s r_GATE_DONE w + 1) % 2 ^ 64 ∧ (mfind s'.cmds r.job.cmd).map Cmd.fin = some (some 0)))
      ∧ (gateErr s w ≠ 0 → r.phase = .finishing ∨ r.phase = .summed ∨ r.phase = .closing →
        Gives (.gateDispatchComplete w) s (fun s' =>
          (gateRun s' w).map (fun r => (r.phase, r.err)) = some (.finishing, gateErr s w))))
    ∧ (r.err ≠ 0 → r.out = 0 → r.phase ≠ .finishing →
      Gives (.gateDispatchComplete w) s (fun s' => (gateRun s' w).map (fun r => (r.phase, r.err)) = some (.finishing, r.err)))
    ∧ (r.err ≠ 0 → r.out = 0 → r.phase = .finishing → Gives (.gateDispatchComplete w) s (fun s' => gateRun s' w = none
      ∧ getR s' r_GATE_DONE w = getR s r_GATE_DONE w ∧ (mfind s'.cmds r.job.cmd).map Cmd.fin = some (some r.err))))

/-- R162 to R172: ROUTE scores and selects for every live token without a NaN, assigns capacity, writes the token records, expert
lists and counts, and goes on to its resolution with its summary counted; COMBINE writes each live token's combined row; EXIT
clears the live bits of the tokens whose predicate holds. The states s1, s2, … follow each other as the operation's reads and
writes answer. -/
def Obligations.GateOperations : Prop :=  (∀ (w : Nat) (s s1 s2 s3 s4 s5 : State) (r : GateRun) (live bias : List Byte) (pb : List PByte) (rows : List (Nat × List Word)),
    let j := r.job
    let alive := (List.range j.tokens).filter (isLive live)
    let routed := rows.filter (fun t => !hasNan t.2)
    let sel := selectAll j ((List.range j.experts).map (fun e => BitVec.ofNat 32 (leNat ((bias.drop (4 * e)).take 4)))) s4 routed
    let cap := gateAssign j sel.1
    let used := ((List.range j.experts).map (fun e => (e, mget 0 cap.count e))).filter (fun x => decide (0 < x.2))
    gateRuns s w 0 .selected = some r → LiveIs s s1 w j live →
    (if j.selBias = 0 then bias = [] ∧ s2 = s1 else ∀ k, gateClean s1 w j j.selBias (4 * j.experts) k = k bias s2) →
    (if j.pred = 0 then pb = [] ∧ s3 = s2 else ∀ k, gateRead s2 w j j.pred 4096 k = k pb s3) →
    tokenRows j s3 alive = (0, rows, s4) →
    (∀ k, gateWrites w j (modRun sel.2 w (fun r => { r with used := used })) (routeWrites j live sel.1 cap) k = k s5) →
    gateRun s5 w = some { r with used := used } →
    Gives (.route w []) s (fun s' => s'.hbm = s5.hbm ∧ ∃ r', gateRun s' w = some r' ∧ r'.phase = .promoting ∧ r'.job = j
      ∧ r'.used = used ∧ r'.sum.getD 4 0 = j.tokens - alive.length ∧ r'.sum.getD 5 0 = alive.length - routed.length))
  ∧ (∀ (w : Nat) (s s1 s2 : State) (r : GateRun) (live recs : List Byte), gateRuns s w 1 .selected = some r →
    let j := r.job
    let alive := (List.range j.tokens).filter (isLive live)
    LiveIs s s1 w j live → (∀ k, gateClean s1 w j j.tokrec (64 * j.tokens) k = k recs s2) →
    (∀ s3, (∀ k, combineTokens w j recs s2 (alive.filter (fun t => decide (r.token ≤ t))) k = k s3) → (gateRun s3 w).isSome = true →
      Gives (.combine w) s (fun s' => s'.hbm = s3.hbm ∧ (gateRun s' w).map (fun r => (r.phase, r.sum)) =
        some (.finishing, [alive.length, 0, 0, 0, j.tokens - alive.length, 0, 0, 0, 0, 0])))
    ∧ ∀ t got s3 s4, alive = [t] → r.token ≤ t → j.resid = true → combineFree s2 j (tokenHome j.srcs t).1 = true →
      let es := placedEntries j ((recs.drop (64 * t)).take 64)
      let n := j.rowElems * elemBits j.efmt / 8
      (∀ k, gateReads w j s2 ((j.token + t * j.pitch, j.rowElems * elemBits j.tfmt / 8)
        :: es.map (fun e => (j.expbuf + e.1 * j.expStride + e.2.1 * n, n))) [] k = k got s3) →
      (∀ k, gatePut w j (2 + (tokenHome j.srcs t).1) s3
        [(j.outVa + t * j.pitch, combineRow j (es.map (fun e => e.2.2)) (got.headD []) (got.drop 1))] k = k s4) →
      (gateRun s4 w).isSome = true →
      Gives (.combine w) s (fun s' => s'.hbm = s4.hbm ∧ (gateRun s' w).map GateRun.phase = some .finishing))
  ∧ (∀ (w : Nat) (s s1 s2 s3 : State) (r : GateRun) (live : List Byte) (rows : List (Nat × List Word)),
    gateRuns s w 2 .selected = some r →
    let j := r.job
    let alive := (List.range j.tokens).filter (isLive live)
    let out := (rows.filter (fun t => exitHolds j t.2)).map Prod.fst
    LiveIs s s1 w j live → tokenRows j s1 alive = (0, rows, s2) → (gateRun s3 w).isSome = true →
    (∀ k new, new.length = live.length →
      (∀ t, t < 8 * live.length → (isLive new t = (isLive live t && !out.contains t))) →
      gateWrite s2 w j j.live (clean new) k = k s3) →
    Gives (.exit w []) s (fun s' => s'.hbm = s3.hbm ∧ (gateRun s' w).map (fun r => (r.phase, r.sum.take 6)) =
      some (.finishing, [alive.length - out.length, 0, 0, 0, out.length, (rows.filter (fun t => hasNan t.2)).length])))

/-- R180 to R187: the landing slots: SLOT_FETCH_LANDED lands a fetch's bytes in the held pages; SLOT_FETCH_VOID ends one that meets a
page it may not fetch; SLOT_PROMOTED ends the hold and counts the bytes; SQUASH stops the fetch of a doomed slot and SQUASH_COMPLETE
clears its pages and frees it; SLOT_TTL_EXPIRY squashes one that is held too long.

R177, R186, R188: GATE_CTRL_WRITE sets the enables, and squashes the unit's held slots when one is left clear; SQUASH_ALL squashes
them; FORGET does, invalidates the LAST triples and advances WGEN modulo 2³². -/
def Obligations.GateSlotsAndControl : Prop :=
  (
  ∀ (id : Nat) (s : State) (l : LandSlot), mfind s.landing id = some l →
    let bytes := (landBytes s l []).map Prod.fst
    (l.state = .fetching → landMapped s l = true → instarOf s (.core l.core) = l.instar → Gives (.slotFetchLanded id []) s (fun s' => landOf s' id = some .landed
      ∧ (core s' l.core).scr = memPut (core s l.core).scr l.base bytes))
    ∧ (l.state = .fetching → landMapped s l = false → Gives (.slotFetchVoid id) s (fun s' => landOf s' id = some .void
      ∧ s'.cores = s.cores))
    ∧ (l.state = .promoting → landMapped s l = false → Gives (.slotFetchVoid id) s (fun s' => landOf s' id = some .doomed))
    ∧ (l.state = .promoting → landMapped s l = true → instarOf s (.core l.core) = l.instar → l.wing < 8 → Gives (.slotPromoted id []) s (fun s' =>
      landOf s' id = some .promoted ∧ (core s' l.core).scr = memPut (core s l.core).scr l.base bytes
      ∧ getR s' r_GATE_PROMOTED l.wing = (getR s r_GATE_PROMOTED l.wing + l.len) % 2 ^ 64))
    ∧ (l.state = .doomed → Gives (.squash id) s (fun s' => landOf s' id = some .squashing ∧ s'.cores = s.cores))
    ∧ (l.state = .squashing → Gives (.squashComplete id) s (fun s' => landOf s' id = none
      ∧ (∀ a, l.base ≤ a → a < l.base + l.len → mem8 (core s' l.core).scr a = 0)
      ∧ ∀ a, a < l.base ∨ l.base + l.len ≤ a → mem8 (core s' l.core).scr a = mem8 (core s l.core).scr a))
    ∧ (Squashable l → dueRun s l.since (getF s f_GATE_SPEC_TTL_US * usTicks) = true →
      Gives (.slotTtlExpiry id) s (fun s' => landOf s' id = some .doomed)))
  ∧ (
  ∀ (w v : Nat) (s : State), w < 8 →
    let squashed := fun s' => ∀ id l, mfind s.landing id = some l → l.wing = w → Squashable l → landOf s' id = some .doomed
    Gives (.gateCtrlWrite w v) s (fun s' => getR s' r_GATE_CTRL w = v % 4
      ∧ (v % 4 = 3 → s'.landing = s.landing) ∧ (v % 4 ≠ 3 → squashed s'))
    ∧ Gives (.squashAll w) s squashed
    ∧ Gives (.forget w) s (fun s' => squashed s' ∧ (gateOf s' w).last = [] ∧ (gateOf s' w).plans = (gateOf s w).plans
      ∧ getF s' f_GATE_WGEN_WGEN w = (getF s f_GATE_WGEN_WGEN w + 1) % 2 ^ 32))

/-! ## Memory -/

/-- R239 to R241: BUFFER_REQUEST performs a read or write whose sectors its buffer slice holds, and has another wait for HBM;
HBM_ACCESS_COMPLETE performs one that has waited. A read gets the line's bytes and the poison of its sectors; a write replaces its
bytes of the line, which every agent then sees. -/
def Obligations.MemoryRequests : Prop :=  ∀ (id : Nat) (s : State) (r : MemReq),
    let n := (reqLine s r).1
    let o := (reqLine s r).2
    Coherent s n → RouteOk s r n → OwnReq r → NoHeld s →
    let got : MemReq := { r with
      stage := .done, data := ((lineBytes s n).drop o).take r.len, poison := Nat.land (lineBad s n) (touchedMask o r.len) }
    (atSlice s id .sent = some r → r.op = .read → bufHit s n o r.len false = true →
      Gives (.bufferRequest id []) s (fun s' => mfind s'.reqs id = some got ∧ ∀ x, lineBytes s' x = lineBytes s x))
    ∧ (atSlice s id .sent = some r → r.op = .read → bufHit s n o r.len false = false →
      Gives (.bufferRequest id []) s (fun s' => mfind s'.reqs id = some { r with stage := .hbm } ∧ s'.bufs = s.bufs))
    ∧ (atSlice s id .sent = some r → r.op = .write → o + r.data.length ≤ 256 → r.len = r.data.length →
      (r.hint = 3 ∨ bufHit s n o r.len true = true) → Written (.bufferRequest id []) s id n o r.data)
    ∧ (atSlice s id .hbm = some r → r.op = .read →
      Gives (.hbmAccessComplete id []) s (fun s' => (mfind s'.reqs id).map (fun q => (q.stage, q.data)) = some (got.stage, got.data)
        ∧ lineBytes s' n = lineBytes s n))
    ∧ (atSlice s id .hbm = some r → r.op = .write → o + r.data.length ≤ 256 → Written (.hbmAccessComplete id []) s id n o r.data)

/-- R205, R246 to R248: BUFFER_ATOMIC performs an integer atomic on a line its buffer slice holds, and returns the old value;
poisoned, it is not performed. BUFFER_REDUCTION adds a mover's elements into the line, and gives the channel its flags. -/
def Obligations.MemoryAtomics : Prop :=  ∀ (id : Nat) (s : State) (r : MemReq),
    let n := (reqLine s r).1
    let o := (reqLine s r).2
    atSlice s id .sent = some r → Coherent s n → RouteOk s r n → OwnReq r → NoHeld s →
    (∀ sub size sg, r.op = .atomic sub size sg true → o + size ≤ 256 → bufHit s n o size false = true →
      let old := ((lineBytes s n).drop o).take size
      let bad := Nat.land (lineBad s n) (touchedMask o size)
      (bad = 0 → Gives (.bufferAtomic id []) s (fun s' =>
        mfind s'.reqs id = some { r with stage := .done, data := old, poison := 0 }
        ∧ lineBytes s' n = patch (lineBytes s n) o
          (leBytes size (atomicResult sub (8 * size) sg (leNat old) (leNat r.data) (leNat r.data2)))))
      ∧ (bad ≠ 0 → Gives (.bufferAtomic id []) s (fun s' =>
        mfind s'.reqs id = some { r with stage := .done, data := old, poison := bad } ∧ lineBytes s' n = lineBytes s n)))
    ∧ (∀ isF32 u k, r.op = .reduce isF32 → r.owner = .moverWrite u k → o + r.len ≤ 256 → r.data.length = r.len → r.len % 4 = 0 →
      bufHit s n o r.len false = true →
      let sum := reduceElems isF32 (((lineBytes s n).drop o).take r.len) r.data
      Gives (.bufferReduction id []) s (fun s' => mfind s'.reqs id = none ∧ lineBytes s' n = patch (lineBytes s n) o sum.1
        ∧ (chan s' u k).flags = (chan s u k).flags ||| sum.2))

/-- R230, R249, R250, R258: SCRUB_LINE reads the next line of a slice, counting and poisoning an uncorrectable sector; the sixteenth
BRIDGE_RESEND in a row marks the link FAILED; WB writes a slice's dirty lines back and WBINV also drops them, with no byte of memory
changed for any agent, and SLICE_CMD_DONE ends them. -/
def Obligations.MemoryUpkeep : Prop :=  (∀ (m : Nat) (s : State), flagF s f_MEM_CFG_SCRUB_EN = true → slicePresent s m = true →
    let k := mget 0 s.scrubPos m
    let n := m * (sliceBytes / 256) + k
    Gives (.scrubLine m []) s (fun s' => mget 0 s'.scrubPos m = (k + 1) % (sliceBytes / 256) ∧ s'.hbm = s.hbm ∧ s'.bufs = s.bufs)
    ∧ ∀ i, i < 8 → bufOf s n = none → k < sliceBytes / 256 → Gives (.scrubLine m [⟨8 * n + i, true⟩]) s (fun s' =>
        mget false s'.hbmPoison (8 * n + i) = true ∧ getR s' r_MEM_UE m = (getR s r_MEM_UE m + 1) % 2 ^ 64
        ∧ getF s' f_MEM_UE_LOG_SLICE = m))
  ∧ (∀ (b k : Nat) (again : Bool) (s : State), b < 4 → k < 8 → bitAt (getF s f_MEM_BRIDGE_STAT_FAILED b) k = false →
    let run := (if again then mget 0 s.bridgeRun (8 * b + k) else 0) + 1
    Gives (.bridgeResend b k again) s (fun s' =>
      getF s' f_MEM_BRIDGE_STAT_RETRIES b = satAdd f_MEM_BRIDGE_STAT_RETRIES.width (getF s f_MEM_BRIDGE_STAT_RETRIES b) 1
      ∧ mget 0 s'.bridgeRun (8 * b + k) = run
      ∧ bitAt (getF s' f_MEM_BRIDGE_STAT_FAILED b) k = decide (16 ≤ run)))
  ∧ (∀ (m : Nat) (s : State), m < 256 → flagF s f_MEM_SLICE_STAT_WB_BUSY m = false → (∀ n, Coherent s n) →
    Gives (.wb m) s (fun s' => flagF s' f_MEM_SLICE_STAT_WB_BUSY m = true ∧ (∀ n, lineBytes s' n = lineBytes s n)
      ∧ ∀ n b, bufOf s' n = some b → sliceOf (256 * n) = m → b.dirty = 0)
    ∧ Gives (.wbinv m) s (fun s' => flagF s' f_MEM_SLICE_STAT_WB_BUSY m = true ∧ (∀ n, lineBytes s' n = lineBytes s n)
      ∧ ∀ n, sliceOf (256 * n) = m → bufOf s' n = none))
  ∧ ∀ (m : Nat) (s : State), m < 256 → flagF s f_MEM_SLICE_STAT_WB_BUSY m = true →
    Gives (.sliceCmdDone m) s (fun s' => flagF s' f_MEM_SLICE_STAT_WB_BUSY m = false ∧ s'.hbm = s.hbm)

/-- R245, R251, R264, R266: REGULATOR_WINDOW begins the window that holds the present tick, with every count zero and the written
length; QOS_WIN_LEN_WRITE takes lengths of 64 to 16,000 ticks; APERTURE_REQUEST reads and writes the bytes its aperture leads to,
and refuses what leads nowhere or to a secure address. -/
def Obligations.WindowsAndApertures : Prop :=  (∀ (s : State), s.winLen ≤ since s s.winStart →
    let w := getF s f_QOS_WIN_LEN_TICKS
    let first := s.winStart + BitVec.ofNat 64 s.winLen
    Gives .regulatorWindow s (fun s' => s'.winLen = w ∧ s'.regCounts = [] ∧ s'.missPosted = []
      ∧ s'.winStart = first + BitVec.ofNat 64 ((s.now - first).toNat / w * w)))
  ∧ (∀ (v : Nat) (s : State), Gives (.qosWinLenWrite v) s (fun s' => getF s' f_QOS_WIN_LEN_TICKS =
      if 64 ≤ v % 2 ^ 14 ∧ v % 2 ^ 14 ≤ 16000 then v % 2 ^ 14 else getF s f_QOS_WIN_LEN_TICKS))
  ∧ ∀ (n o a : Nat) (s : State) (data : List Byte), n < 16 →
    let p := forwarded s a
    let len := data.length
    let here := apertureOpen s = true ∧ apertureLine s n o = some a ∧ a < hbmTop ∧ p < hbmTop ∧ Coherent s (p / 256)
      ∧ failedOn s hostRouter (sliceRouter (sliceOf p)) = none ∧ failedOn s (sliceRouter (sliceOf p)) hostRouter = none
    0 < len → o % 256 + len ≤ 256 → p % 256 + len ≤ 256 → o + len ≤ 0x40000000 →
    (here → Gives (.apertureRequest n o 0 true false data false) s (fun s' => s'.reply = ⟨true, false, []⟩
      ∧ lineBytes s' (p / 256) = patch (lineBytes s (p / 256)) (p % 256) data))
    ∧ (here → Gives (.apertureRequest n o len false false [] false) s (fun s' => s'.reply =
        ⟨true, decide (Nat.land (lineBad s (p / 256)) (touchedMask (p % 256) len) ≠ 0),
          ((lineBytes s (p / 256)).drop (p % 256)).take len⟩
      ∧ lineBytes s' (p / 256) = lineBytes s (p / 256)))
    ∧ (apertureOpen s = false ∨ apertureLine s n o = none → Gives (.apertureRequest n o 0 true false data false) s (fun s' =>
      s'.reply = ⟨false, false, []⟩ ∧ s'.hbm = s.hbm ∧ s'.bufs = s.bufs))

/-! ## Translation and invalidation -/

/-- R284, R288, R292, R293: WALK_READ_RETURN goes on with an entry: a leaf ends the walk, fills the shared TLB and gives its tile the
translation; a table pointer sends the next read a level lower; a fault stalls the tile, takes a tracker entry and posts a record. -/
def Obligations.Walks : Prop :=  ∀ (wid e : Nat) (s : State) (w : Walk), WalkReads s wid w e → NoHeld s →
    let out := readEntry s (mget SlotInfo.empty s.slots w.slot) w.va w.level e
    (∀ x tid t, out = .leaf x → w.tiles = [tid] → mfind s.tiles tid = some t → t.faults = [] →
      Gives (.walkReadReturn wid false) s (fun s' => mfind s'.walks wid = none
        ∧ (mfind s'.tiles tid).map Tile.held = some (t.held ++ [x])
        ∧ (w.spec = false → 256 ≤ t.cache → ⟨sharedTlb w.die, w.space, x⟩ ∈ s'.tlb)))
    ∧ (∀ loc a g dst hint, out = .table loc a → (mget SlotInfo.empty s.slots w.slot).inst = w.inst →
      resolve s w.inst (mget SlotInfo.empty s.slots w.slot).world ⟨0, 2 ^ 64, loc, 0, 0⟩
        (a + 8 * tableIndex w.va (w.level - 1)) = .at g dst hint →
      Gives (.walkReadReturn wid false) s (fun s' => ∃ q,
        mfind s'.walks wid = some { w with level := w.level - 1, loc := loc, table := a, req := q }))
    ∧ (∀ reason tid t, out = .fault reason → w.tiles = [tid] → mfind s.tiles tid = some t → t.faults = [] → t.held = [] →
      t.pages = [w.va] → t.stalled = false → specTile t = false →
      trackFind s t.space ⟨w.level, reason, (missingRange w.va w.level reason
        (if isLeaf e w.level then leafSize w.level e else 0)).1, 0, 0⟩ = none → trackUsed s < 4096 →
      Gives (.walkReadReturn wid false) s (fun s' => mfind s'.walks wid = none
        ∧ (∃ k, (mfind s'.tiles tid).map (fun t => (t.stalled, t.entries)) = some (true, [k]) ∧ (track s' k).used = true
          ∧ (track s k).used = false ∧ k < 4096)
        ∧ (mget [] s'.fqHeld (faultWindow t.inst)).length = (mget [] s.fqHeld (faultWindow t.inst)).length + 1
        ∧ getR s' r_XLT_FAULTS = (getR s r_XLT_FAULTS + 1) % 2 ^ 64))

/-- R297 to R300: FAULT_RECORD_POST writes the oldest held record at the tail of the fault ring; REPLAY frees a tracker entry and makes
the work that waited for it ready, ABORT fails that work with XLT_ABORTED, FAULT_TIMEOUT aborts an entry that nobody answers; an
answer whose FAULT_ID is not current is counted. -/
def Obligations.TranslationFaults : Prop :=  (∀ (win : Nat) (s : State) (r : List Byte) (rest : List (List Byte)), win ≤ 32 → mget [] s.fqHeld win = r :: rest →
    r.length = 32 → fqRoom s win = true →
    let tail := getF s f_EVT_FQ_TAIL_INDEX 0 win
    let ring := mget Ring.empty s.rings (2 * win)
    Gives (.faultRecordPost win) s (fun s' => mget [] s'.fqHeld win = rest
      ∧ memBytes s'.host (getF s f_EVT_FQ_BASE_ADDR 0 win * 4096 + 32 * tail) 32 =
        r.take 4 ++ leBytes 4 (leNat ((r.drop 4).take 4) + ringPhase ring * 2 ^ 31) ++ r.drop 8
      ∧ getF s' f_EVT_FQ_TAIL_INDEX 0 win = (tail + 1) % fqSize s win % 2 ^ f_EVT_FQ_TAIL_INDEX.width))
  ∧ (∀ (win id k : Nat) (s : State), winOpen s win = true → answered s win id = some k → NoneWaits s →
    ((∀ kv ∈ s.tiles, kv.2.entries.contains k = true → ∃ m q c, kv.2.owner = .device m q c) →
      Gives (.replay win id) s (fun s' => Freed s s' k
        ∧ ∀ tid t, mfind s.tiles tid = some t → t.entries = [k] → mfind s'.tiles tid = none))
    ∧ (∀ tid t m q c v, s.tiles = [(tid, t)] → t.entries = [k] → t.owner = .device m q c → c ≠ 0 → cmdOf s c = some v →
      v.fin = none → v.start.isSome = true → Gives (.abort win id) s (fun s' => Freed s s' k ∧ mfind s'.tiles tid = none
        ∧ (cmdOf s' c).map Cmd.fin = some (some errXltAborted))))
  ∧ (∀ (win id : Nat) (s : State), winOpen s win = true → answered s win id = none →
    let counted := fun s' => getF s' f_XLT_REPLAY_STALE_COUNT 0 win =
      satAdd f_XLT_REPLAY_STALE_COUNT.width (getF s f_XLT_REPLAY_STALE_COUNT 0 win) 1 ∧ s'.tracker = s.tracker
    Gives (.replay win id) s counted ∧ Gives (.abort win id) s counted)
  ∧ ∀ (k : Nat) (s : State), (track s k).used = true → dueRun s (track s k).tick (getF s f_XLT_CFG_FAULT_TMO * msTicks) = true →
    NoneWaits s → (∀ kv ∈ s.tiles, kv.2.entries.contains k = false) →
    Gives (.faultTimeout k) s (fun s' => Freed s s' k ∧ getR s' r_XLT_FAULTS_TMO = (getR s r_XLT_FAULTS_TMO + 1) % 2 ^ 64)

/-- R302 to R304: IQ_TAIL_WRITE makes descriptors visible; RANGE, SPACE, ALL and SYNC carry out the descriptor at HEAD: every cache
drops what it covers and the walks of its spaces become void; a window that does not own the space has its descriptor rejected.

R304, R306 to R308: INVALIDATION_COMPLETE ends a descriptor none of whose conditions is left, and HEAD moves on;
INVALIDATION_SLOW counts one that takes too long; WS_FLUSH begins a whole-space flush, which WS_FLUSH_COMPLETE ends and counts. -/
def Obligations.InvalidationQueue : Prop :=
  (
  (∀ (win v : Nat) (s : State), winOpen s win = true →
    Gives (.iqTailWrite win v) s (fun s' => getF s' f_XLT_IQ_TAIL_INDEX 0 win = v % 2 ^ f_XLT_IQ_TAIL_INDEX.width))
  ∧ ∀ (win : Nat) (s : State) (d : List Byte), iqHead s win = some d →
    let space := dnum d 4 4
    let page := pageBytes (dnum d 1 1)
    let head := some (getF s f_XLT_IQ_HEAD_INDEX 0 win)
    let may := winOwns s win space = true ∧ (dnum d 2 1 = 1 → winOwns s win (dnum d 0x14 4) = true)
    let any := dnum d 2 1 = 1 → winOwns s win (dnum d 0x14 4) = true
    (IqWell d 0 → may → dnum d 8 8 % page = 0 → dnum d 0x10 4 ≠ 0 → dnum d 8 8 + dnum d 0x10 4 * page ≤ 2 ^ 49 →
      NoneHeld s (.range (dnum d 8 8) (dnum d 0x10 4 * page)) space →
      Gives (.range win) s (fun s' => Begun s s' win head (.range (dnum d 8 8) (dnum d 0x10 4 * page)) space))
    ∧ (IqWell d 1 → may → NoneHeld s .space space → Gives (.space win) s (fun s' => Begun s s' win head .space space))
    ∧ (IqWell d 2 → win = 0 → any → NoneHeld s .all space → Gives (.all win) s (fun s' => Begun s s' win head .all space))
    ∧ (IqWell d 3 → any → Gives (.sync win) s (fun s' => Begun s s' win head .sync space))
    ∧ (IqWell d 1 → winOwns s win space = false → Gives (.space win) s (fun s' =>
        HeadMoved s s' win ∧ flagF s' f_XLT_IQ_STATUS_REJECTED 0 win = true ∧ s'.tlb = s.tlb ∧ s'.invals = s.invals))
    ∧ (IqWell d 2 → win ≠ 0 → Gives (.all win) s (fun s' =>
        HeadMoved s s' win ∧ flagF s' f_XLT_IQ_STATUS_REJECTED 0 win = true ∧ s'.tlb = s.tlb ∧ s'.invals = s.invals)))
  ∧ (
  (∀ (id : Nat) (s : State) (v : Inval), mfind s.invals id = some v → v.win ≤ 32 →
    (v.idx.isSome = true → invalDone s v = true → v.fence = none → NoHeld s → Gives (.invalidationComplete id) s (fun s' =>
      mfind s'.invals id = none ∧ HeadMoved s s' v.win))
    ∧ (v.slow = false → invalDone s v = false → due s v.began (getF s f_XLT_INV_TIMEOUT_US * usTicks) = true →
      Gives (.invalidationSlow id) s (fun s' => mfind s'.invals id = some { v with slow := true }
        ∧ getR s' r_XLT_INV_SLOW = (getR s r_XLT_INV_SLOW + 1) % 2 ^ 64))
    ∧ (v.idx = none → v.teardown = none → invalDone s v = true → Gives (.wsFlushComplete id) s (fun s' =>
        mfind s'.invals id = none ∧ flagF s' f_XLT_WS_FLUSH_BUSY 0 v.win = false
        ∧ getR s' r_XLT_WS_FLUSH_DONE 0 v.win = (getR s r_XLT_WS_FLUSH_DONE 0 v.win + 1) % 2 ^ 64)))
  ∧ ∀ (win v : Nat) (s : State), winOpen s win = true → flagF s f_XLT_WS_FLUSH_BUSY 0 win = false →
    (bitAt v 31 = false → Gives (.wsFlush win v) s (fun s' => getF s' f_XLT_WS_FLUSH_SPACE 0 win = v % 2 ^ 20
      ∧ flagF s' f_XLT_WS_FLUSH_BUSY 0 win = false ∧ s'.invals = s.invals))
    ∧ (bitAt v 31 = true → winOwns s win (v % 2 ^ 20) = true → NoneHeld s .space (v % 2 ^ 20) → Gives (.wsFlush win v) s (fun s' =>
        Begun s s' win none .space (v % 2 ^ 20) ∧ flagF s' f_XLT_WS_FLUSH_BUSY 0 win = true))
    ∧ (bitAt v 31 = true → winOwns s win (v % 2 ^ 20) = false → Gives (.wsFlush win v) s (fun s' =>
        flagF s' f_XLT_IQ_STATUS_REJECTED 0 win = true ∧ flagF s' f_XLT_WS_FLUSH_BUSY 0 win = false ∧ s'.invals = s.invals
        ∧ getR s' r_XLT_WS_FLUSH_DONE 0 win = (getR s r_XLT_WS_FLUSH_DONE 0 win + 1) % 2 ^ 64)))

/-! ## Composition -/

/-- R317, R318, R335, R339, R353: COMPOSE checks the stream that the front request names: the first check that fails ends it with its
code and record; a stream that passes is held for its commit, its Imago VERIFYING, and a dry run ends with DRY_OK.
LEASE_HANDSHAKE_TIMEOUT ends a verification whose lender does not answer within 1 ms, with REMOTE_REFUSED and its record. -/
def Obligations.Composing : Prop :=  (∀ (s : State) (r : FwReq), fwFront s 0x04 = some r → s.verif = none →
    let ready := flagF s f_RST_STATE_READY = true ∧ flagF s f_RST_STATE_OUT_OF_SERVICE = false
    let a := r.wide 1
    let n := r.word 3
    let fits := a % 8 = 0 ∧ n ≠ 0 ∧ n ≤ 1048576 ∧ r.zeroFrom 4 = true ∧ hostRange a n = true
    let bytes := memBytes s.host a n
    let ends := fun code k => Gives .compose s (fun s' => Composed s s' code k (numAt bytes 0x10 2) (numAt bytes 0xE 1))
    (¬ ready → Gives .compose s (fun s' => Composed s s' cmpNotReady wholeStream 0 0))
    ∧ (ready → ¬ fits → Gives .compose s (fun s' => Composed s s' cmpBadFormat wholeStream 0 0))
    ∧ (∀ k, ready → fits → readStream bytes = .error k → ends cmpBadFormat k)
    ∧ (∀ o code, ready → fits → readStream bytes = .ok o → headerCheck s o = some code → code < 2 ^ 16 → ends code wholeStream)
    ∧ (∀ o i code k, ready → fits → readStream bytes = .ok o → headerCheck s o = none → o.target = some i →
      verifyImago s o i = .error (code, k) → code < 2 ^ 16 → ends code k)
    ∧ (∀ o i v, ready → fits → readStream bytes = .ok o → headerCheck s o = none → o.target = some i → i < 32 →
      verifyImago s o i = .ok v → firstBreach s (otherLoad s (some i)) v.both = none → admissible s v.comp = true → v.asked = [] →
      v.dry = false →
      v.inst = some i → Gives .compose s (fun s' => s'.verif = some { v with commitAt := some s.now }
        ∧ getF s' f_CMP_EPOCH_STATE i = 3 ∧ s'.fwq = s.fwq))
    ∧ (∀ o i v, ready → fits → readStream bytes = .ok o → headerCheck s o = none → o.target = some i → i < 32 →
      verifyImago s o i = .ok v → firstBreach s (otherLoad s (some i)) v.both = none → admissible s v.comp = true → v.asked = [] →
      v.won = [] → v.dry = true →
      v.inst = some i → Gives .compose s (fun s' => Composed s s' cmpDryOk wholeStream v.epoch i)))
  ∧ ∀ (s : State) (r : FwReq) (v : Verif) (k : Nat) (l : Lease) (rest : List (Nat × Lease)), s.verif = some v →
    fwFront s 0x04 = some r → v.asked = (k, l) :: rest → v.commitAt = none → due s v.askedAt msTicks = true →
    Gives .leaseHandshakeTimeout s (fun s' => Composed s s' cmpRemoteRefused k v.epoch v.imago)

/-- R337 to R347: COMMIT_TICK makes a verified composition the Imago's, at least 20 ticks after its broadcast: its epoch and cores,
its routes and maps are the new ones, the old map is kept, and the Imago is in chrysalis; a pool stream's commit sets the pool's
epoch. R340, R345: CHRYSALIS_END retires the old map and frees what left; CHRYSALIS_SLOW marks a chrysalis that lasts too long. -/
def Obligations.Commits : Prop :=  (∀ (s : State) (r : FwReq) (v : Verif), s.verif = some v → fwFront s 0x04 = some r → commitReady s v = true → v.epoch < 2 ^ 16 →
    (∀ i, v.inst = some i → i < 32 → sortedKeys v.comp.cores = true → (∀ x ∈ v.comp.cores, x.1 < 144) →
      (∀ p ∈ v.comp.links, p < 32) → (∀ e ∈ v.evac, e.srcSlice < 256) → (∀ k, v.comp.memKey = some k → k < 256) →
      Gives (.commitTick []) s (fun s' => Composed s s' cmpOk wholeStream v.epoch i
        ∧ getF s' f_CMP_EPOCH_EPOCH i = v.epoch ∧ getF s' f_CMP_EPOCH_STATE i = 4
        ∧ (imago s' i).routes = v.comp.routes ∧ (imago s' i).evac = v.evac ∧ (imago s' i).committed = s.now
        ∧ (imago s' i).old.map OldMap.epoch = some (getF s f_CMP_EPOCH_EPOCH i)
        ∧ (∀ c awake, mfind v.comp.cores c = some awake →
          coreBound s' i c = true ∧ flagF s' f_CMP_CORE_AWAKE c = awake)
        ∧ ∀ c, c < 144 → coreBound s i c = true → mfind v.comp.cores c = none → getF s' f_CMP_CORE_STATE c = 2))
    ∧ (v.inst = none → Gives (.commitTick []) s (fun s' => Composed s s' cmpOk wholeStream v.epoch 0xFF
        ∧ getF s' f_CMP_POOL_EPOCH_EPOCH = v.epoch ∧ flagF s' f_CMP_POOL_EPOCH_CHRYSALIS = true)))
  ∧ (∀ (i : Nat) (s : State), i < 32 → getF s f_CMP_EPOCH_STATE i = 4 → chrysalisOver s i = true →
    (∀ m ∈ (imago s i).freed, m < 256) →
    Gives (.chrysalisEnd i) s (fun s' => (imago s' i).old = none ∧ (imago s' i).evac = [] ∧ (imago s' i).load = (imago s i).after
      ∧ getF s' f_CMP_EPOCH_EPOCH i = getF s f_CMP_EPOCH_EPOCH i ∧ (getF s' f_CMP_EPOCH_STATE i = 1 ∨ getF s' f_CMP_EPOCH_STATE i = 2)
      ∧ ∀ m ∈ (imago s i).freed, getF s' f_CMP_MEM_STATE m = 4))
  ∧ (∀ (s : State), flagF s f_CMP_POOL_EPOCH_CHRYSALIS = true → s.reqs = [] →
    Gives (.chrysalisEnd 0xFF) s (fun s' => flagF s' f_CMP_POOL_EPOCH_CHRYSALIS = false ∧ s'.poolFreed = []))
  ∧ ∀ (i : Nat) (s : State), i < 32 → getF s f_CMP_EPOCH_STATE i = 4 → flagF s f_CMP_EPOCH_SLOW i = false →
    dueRun s (imago s i).committed (getF s f_CMP_CFG_WARN_MS * msTicks) = true → (mget [] s.evHeld 0).length < 1024 →
    Gives (.chrysalisSlow i) s (fun s' => flagF s' f_CMP_EPOCH_SLOW i = true ∧ getF s' f_CMP_EPOCH_STATE i = 4
      ∧ mget [] s'.evHeld 0 = mget [] s.evHeld 0 ++ [eventRecord 0x21 0 i (getF s f_CMP_EPOCH_EPOCH i) 0 0 s.now])

/-- R315, R342, R344, R347 to R350: CORE_LEFT and LINK_SLICE_LEFT free what an Imago has left, SCRUB_COMPLETE leaves a slice of zeros
in the pool, and EVACUATE_LINE moves a line to its destination and, after an entry's last line, flips the entry. -/
def Obligations.LeavingAndEvacuation : Prop :=  (∀ (c : Nat) (s : State), c < 144 → getF s f_CMP_CORE_STATE c = 2 → coreDone s c = true → instarReady s (.core c) = true →
    mget 0 s.instarDue (Unit8.core c).key = 0 →
    Gives (.coreLeft c) s (fun s' => getF s' f_CMP_CORE_STATE c = 0 ∧ getF s' f_CMP_CORE_INSTANCE c = 0xFF
      ∧ flagF s' f_CMP_CORE_AWAKE c = false ∧ instarOf s' (.core c) = (instarOf s (.core c) + 1) % 256))
  ∧ (∀ (p : Nat) (s : State), p < 32 → getF s f_CMP_LINK_STATE p = 4 → portHolds s p (getF s f_CMP_LINK_INSTANCE p) = false →
    Gives (.linkSliceLeft p) s (fun s' => getF s' f_CMP_LINK_STATE p = 1 ∧ getF s' f_CMP_LINK_INSTANCE p = 0xFF))
  ∧ (∀ (m : Nat) (s : State), m < 256 → getF s f_CMP_MEM_STATE m = 4 →
    Gives (.scrubComplete m) s (fun s' => getF s' f_CMP_MEM_STATE m = 1
      ∧ (∀ a, mem8 s'.hbm a = if sliceOf a = m then 0 else mem8 s.hbm a)
      ∧ (∀ k, k / (sliceBytes / 32) = m → mget false s'.hbmPoison k = false)
      ∧ bitAt (getR s' r_SEC_SLICE_WORLD (m / 32)) (m % 32) = false))
  ∧ ∀ (i src n : Nat) (s : State) (e : EvacEntry), i < 32 → movingEntry (imago s i).evac src = some e →
    let a := (e.srcSlice * sliceBytes + e.srcRegion * imagoRb s i) / 256 + e.cursor
    let b := (e.dstSlice * sliceBytes + e.dstRegion * imagoRb s i) / 256 + e.cursor
    (∀ kv ∈ s.reqs, kv.2.stage ≠ .hbm) → mastersStopped s = false → flagF s f_RST_STATUS_CHIP_RESET = false →
    evacChan s (imago s i).evac e = some n → a ≠ b → Coherent s a → Coherent s b →
    (e.cursor + 1 < regionLines s i → Gives (.evacuateLine i src []) s (fun s' => lineBytes s' b = lineBytes s a
      ∧ bufOf s' a = none ∧ movingEntry (imago s' i).evac src = some { e with cursor := e.cursor + 1, chan := some n }
      ∧ getF s' f_CMP_EVAC_BYTES i = satAdd f_CMP_EVAC_BYTES.width (getF s f_CMP_EVAC_BYTES i) 256))
    ∧ (regionLines s i ≤ e.cursor + 1 → e.entry < 1024 → e.srcSlice < 256 → e.dstRegion < 1024 → e.dstList < 256 →
      Gives (.evacuateLine i src []) s (fun s' => lineBytes s' b = lineBytes s a
        ∧ (evacAt s' i e.entry).map EvacEntry.flipped = some true
        ∧ getR s' r_CMP_ILV (1024 * i + e.entry) = 2 ^ 31 + e.dstRegion * 2 ^ 8 + e.dstList))

/-! ## Queues and commands -/

/-- R362, R363, R368, R369, R371, R374, R376, R386, R394, R404: the operations of a window: CTX_CREATE enters a context in the
directory, CTX_DESTROY and CTX_KILL begin its teardown, Q_CREATE makes a running queue, Q_DESTROY ends one without commands,
Q_RESUME runs a queue on, failing what is not started with FLUSH, OBJ_FREE frees an object, and FENCE_SIGNAL, FENCE_ERROR and
FENCE_RESET act on a fence; each sets its result, and one that cannot be done changes nothing else. -/
def Obligations.WindowOperations : Prop :=  (∀ (win : Nat) (s : State), Asks s win [argSpace, argAll, 0, 0] →
    let space := schArg s win 0
    let a := schArg s win 1
    let d := memBytes s.host a 64
    (flagF s f_SCH_CTX_DIR_ENABLE = false → Gives (.ctxCreate win) s (fun s' => resultOf s' win = 0x0A06 ∧ s'.ctxs = s.ctxs))
    ∧ (flagF s f_SCH_CTX_DIR_ENABLE = true → (spaceEntry s space).map Prod.fst ≠ some (instOfWin win) →
      Gives (.ctxCreate win) s (fun s' => resultOf s' win = 0x0A01 ∧ s'.ctxs = s.ctxs))
    ∧ (flagF s f_SCH_CTX_DIR_ENABLE = true → (spaceEntry s space).map Prod.fst = some (instOfWin win) → (ctxOf s space).isSome = true →
      Gives (.ctxCreate win) s (fun s' => resultOf s' win = 0x0A02 ∧ s'.ctxs = s.ctxs))
    ∧ (flagF s f_SCH_CTX_DIR_ENABLE = true → (spaceEntry s space).map Prod.fst = some (instOfWin win) → ctxOf s space = none →
      a % 64 = 0 → a < 2 ^ 47 → ctxDescOk d space = true → Gives (.ctxCreate win) s (fun s' => resultOf s' win = 0
        ∧ memBytes s'.host (getF s f_SCH_CTX_DIR_ADDR * 4096 + 8 * space) 8 = leBytes 8 a
        ∧ (ctxOf s' space).map (fun x => (x.inst, x.win, x.desc, x.prio)) =
          some (instOfWin win, win, a, leNat ((d.drop 4).take 1))
        ∧ (ctxOf s' space).map (fun x => (x.slot, x.saved.length, x.down)) = some (none, 0, none))))
  ∧ (∀ (win : Nat) (s : State), Asks s win [argSpace, 0, 0, 0] →
    let space := schArg s win 0
    (ctxOf s space = none → Gives (.ctxDestroy win) s (fun s' => resultOf s' win = 0x0A03 ∧ s'.ctxs = s.ctxs)
      ∧ Gives (.ctxKill win) s (fun s' => resultOf s' win = 0x0A03 ∧ s'.ctxs = s.ctxs))
    ∧ ∀ x, ctxOf s space = some x → x.down = none →
      (x.win ≠ win → Gives (.ctxDestroy win) s (fun s' => resultOf s' win = 0x0A01 ∧ s'.ctxs = s.ctxs)
        ∧ Gives (.ctxKill win) s (fun s' => resultOf s' win = 0x0A01 ∧ s'.ctxs = s.ctxs))
      ∧ (x.win = win →
        Gives (.ctxDestroy win) s (fun s' => resultOf s' win = 0
          ∧ (ctxOf s' space).map (fun y => (y.down, y.slot)) = some (some (errContextDestroyed, s.now), x.slot))
        ∧ Gives (.ctxKill win) s (fun s' => resultOf s' win = 0
          ∧ (ctxOf s' space).map (fun y => (y.down, y.slot)) = some (some (errProducerLost, s.now), x.slot))))
  ∧ (∀ (win : Nat) (s : State), Asks s win [65535 + 2 ^ 32 * argSpace, argAll, 0x31F, argAll] →
    let n := schArg s win 0 % 65536
    let space := bitsOf (schArg s win 0) 32 20
    let a2 := schArg s win 2
    let q := queueDescOf s win n
    (winQueues s win ≤ n → Gives (.qCreate win) s (fun s' => resultOf s' win = 0x0A05 ∧ s'.queues = s.queues))
    ∧ ∀ x, n < winQueues s win → winCtx s win space = (0, some x) →
      ((queueOf s q).isSome = true → Gives (.qCreate win) s (fun s' => resultOf s' win = 0x0A02 ∧ s'.queues = s.queues))
      ∧ (queueOf s q = none → 4 ≤ a2 % 32 → a2 % 32 ≤ 16 → bitsOf a2 8 2 ≠ 3 → schArg s win 1 % 4096 = 0 → schArg s win 1 < 2 ^ 49 →
        schArg s win 3 % 64 = 0 → schArg s win 3 < 2 ^ 49 → instarReady s (.queue q) = true →
        mget 0 s.instarDue (Unit8.queue q).key = 0 →
        Gives (.qCreate win) s (fun s' => resultOf s' win = 0 ∧ instarOf s' (.queue q) = (instarOf s (.queue q) + 1) % 256
          ∧ (queueOf s' q).map (fun v => (v.space, v.win, v.num, v.ring)) = some (space, win, n, schArg s win 1)
          ∧ (queueOf s' q).map (fun v => (v.log2, v.mode, v.status)) = some (a2 % 32, bitsOf a2 8 2, schArg s win 3)
          ∧ (queueOf s' q).map (fun v => (v.state, v.head, v.tail, v.cmds)) = some (qRunning, 0, 0, []))))
  ∧ (∀ (win q : Nat) (s : State) (v : Queue), winQueue s win (schArg s win 0 % 65536) = some (q, v) →
    (Asks s win [65535, 0, 0, 0] →
      (v.cmds ≠ [] → Gives (.qDestroy win) s (fun s' => resultOf s' win = 0x0A07 ∧ s'.queues = s.queues))
      ∧ (v.cmds = [] → instarReady s (.queue q) = true → mget 0 s.instarDue (Unit8.queue q).key = 0 →
        Gives (.qDestroy win) s (fun s' => resultOf s' win = 0 ∧ queueOf s' q = none
          ∧ instarOf s' (.queue q) = (instarOf s (.queue q) + 1) % 256)))
    ∧ (Asks s win [0x1FFFF, 0, 0, 0] → Gives (.qResume win) s (fun s' => resultOf s' win = 0
      ∧ (queueOf s' q).map (fun w => (w.state, w.code, w.head, w.tail)) = some (qRunning, 0, v.head, v.tail)
      ∧ (bitAt (schArg s win 0) 16 = false → s'.cmds = s.cmds)
      ∧ (bitAt (schArg s win 0) 16 = true →
        (queueOf s' q).map Queue.flush = some ((v.tail + 2 ^ v.log2 - v.head) % 2 ^ v.log2)
        ∧ ∀ id c, id ∈ v.cmds → cmdOf s id = some c → c.start = none → c.fin = none → finOf s' id = some (some errQueueFlushed)))))
  ∧ (∀ (win : Nat) (s : State) (x : Ctx) (d : List Byte), Asks s win [argSpace, 2 ^ 32 - 1, 0, 0] →
    let space := schArg s win 0
    let h := schArg s win 1
    let key := objKey space h
    winCtx s win space = (0, some x) → h ≠ 0 → h % 2 ^ 24 < x.objCount → (mfind s.objs key).map ObjRec.freeing ≠ some true →
    (devRead s (ctxSlot s space) (adminQ win) 0 (objVa x h) 32).1 = .ok d 0 →
    (((d.getD 0x11 0).toNat ≠ 1 ∨ (d.getD 0x10 0).toNat ≠ h / 2 ^ 24) → d.length = 32 →
      Gives (.objFree win) s (fun s' => resultOf s' win = 0x0A03 ∧ s'.objs = s.objs))
    ∧ ((d.getD 0x11 0).toNat = 1 → (d.getD 0x10 0).toNat = h / 2 ^ 24 → d.length = 32 → NoneFreeing s → sortedKeys s.objs = true →
      (∀ o, mfind s.objs key = some o → 0 < o.refs → Gives (.objFree win) s (fun s' => resultOf s' win = 0
        ∧ (mfind s'.objs key).map (fun o => (o.refs, o.freeing, o.handle, o.va, o.bytes)) =
          some (o.refs, true, h, leNat (d.take 8), leNat ((d.drop 8).take 8))))
      ∧ (mfind s.objs key = none → evRoom s win = true → Gives (.objFree win) s (fun s' => resultOf s' win = 0
        ∧ mfind s'.objs key = none ∧ mget [] s'.evHeld win = mget [] s.evHeld win ++
          [eventRecord 0x11 0 space h (leNat (d.take 8)) (leNat ((d.drop 8).take 8)) s.now]))))
  ∧ ∀ (win : Nat) (s : State) (x : Ctx),
    let space := schArg s win 0
    let va := schArg s win 1
    winCtx s win space = (0, some x) →
    ((fenceAt s (ctxSlot s space) (adminQ win) 0 va).1 = .bad →
      (Asks s win [argSpace, argAll, argAll, 0] → Gives (.fenceSignal win) s (fun s' => resultOf s' win = 0x0A08 ∧ s'.host = s.host)
        ∧ Gives (.fenceReset win) s (fun s' => resultOf s' win = 0x0A08 ∧ s'.host = s.host))
      ∧ (Asks s win [argSpace, argAll, 65535, 0] → Gives (.fenceError win) s (fun s' => resultOf s' win = 0x0A08 ∧ s'.host = s.host)))
    ∧ ∀ g s1, HomeHere s (ctxSlot s space) (adminQ win) 0 va g s1 →
      (Asks s win [argSpace, argAll, argAll, 0] →
        Gives (.fenceSignal win) s (fun s' => resultOf s' win = 0 ∧ FenceIs s1 s' g (.signal (schArg s win 2))
          ∧ ∀ w q c k, w ∈ s.fenceWaiters → w.gpa = g → w.src = .queue q c (instarOf s (.queue q)) → cmdOf s c = some k → k.fin = none →
            bitAt (fenceWords s1 g).2 16 = false → w.value.toNat ≤ schArg s win 2 → finOf s' c = some (some 0))
        ∧ Gives (.fenceReset win) s (fun s' => resultOf s' win = 0 ∧ FenceIs s1 s' g (.reset (schArg s win 2))))
      ∧ (Asks s win [argSpace, argAll, 65535, 0] →
        Gives (.fenceError win) s (fun s' => resultOf s' win = 0 ∧ FenceIs s1 s' g (.error (schArg s win 2))))

/-- R357, R364, R365, R374 to R377, R440: DOORBELL moves a queue's TAIL, or stops the queue; COMMAND_TAKE takes the entry at HEAD,
with COMMAND_INVALID for a malformed one, and stops the queue at a poisoned one; CONTEXT_RESIDENT gives a context that has work a
slot, taking one from the context that ran least recently, or stops its queues with SAVE_FAULT; INSTAR_ADVANCE makes an advance
that waited. -/
def Obligations.QueueService : Prop :=  (∀ (win n v q : Nat) (s : State) (w : Queue), winOpen s win = true → winQueue s win n = some (q, w) →
    ((ctxOf s w.space).bind Ctx.down) = none → v % 65536 ≠ w.tail →
    (doorbellOk w (v % 65536) = true → Gives (.doorbell win n v) s (fun s' =>
      (queueOf s' q).map (fun u => (u.tail, u.head, u.state)) = some (v % 65536, w.head, w.state)))
    ∧ (doorbellOk w (v % 65536) = false → (mget [] s.evHeld w.win).length < 1024 → Gives (.doorbell win n v) s (fun s' =>
      (queueOf s' q).map (fun u => (u.tail, u.state, u.code, u.failedAt)) = some (w.tail, qStopped, errCommandInvalid, v % 65536)
      ∧ mget [] s'.evHeld w.win = mget [] s.evHeld w.win ++
        [eventRecord 0x17 errCommandInvalid w.space w.num (v % 65536) 0 s.now])))
  ∧ (∀ (q bad : Nat) (s s1 : State) (v : Queue) (x : Ctx) (d : List Byte), queueOf s q = some v → ctxOf s v.space = some x →
    x.down = none → x.slot.isSome = true → v.state = qRunning → v.head ≠ v.tail → v.cmds.length < 64 → s.cmds.length < 32768 →
    devStalled s q 0 = false → devRead s (ctxSlot s v.space) q 0 (v.ring + 64 * v.head) 64 = (.ok d bad, s1) →
    (bad ≠ 0 → Gives (.commandTake q) s (fun s' =>
      (queueOf s' q).map (fun w => (w.head, w.state, w.code)) = some (v.head, qStopped, errDataPoison) ∧ s'.cmds = s.cmds))
    ∧ ∀ e refs, bad = 0 → v.flush = 0 →
      (validate s1 (ctxSlot s v.space) q x (Cmd.ofEntry q v.head d v.space x)).1 = .ok e refs →
      objsReferenced s + refs.length ≤ 65536 → Gives (.commandTake q) s (fun s' => ∃ id, cmdOf s' id = some
          { Cmd.ofEntry q v.head d v.space x with bad := e, fenceOk := fenceVaOk (Cmd.ofEntry q v.head d v.space x), refs := refs }
        ∧ (queueOf s' q).map (fun w => (w.head, w.cmds, w.state)) = some ((v.head + 1) % 2 ^ v.log2, v.cmds ++ [id], qRunning)
        ∧ (entryOk (Cmd.ofEntry q v.head d v.space x) = false → (cmdOf s' id).map Cmd.bad = some errCommandInvalid)))
  ∧ (∀ (space : Nat) (s : State) (x : Ctx), ctxOf s space = some x → x.slot = none → x.down = none → wantsSlot s space = true →
    let mine := residents s x.inst
    let free := (List.range 64).find? (fun k => slotState s k = slotFree && instarReady s (.slot k)
      && mget 0 s.instarDue (Unit8.slot k).key = 0)
    let area := fun e => (saveAreaOk e (adminQ x.win) s (x.frames * 3328 + 1) x.saveVa (x.saveVa + x.frames * 0xD00000)).1
    (∀ k e, mine.length < winSlots s x.win → free = some k → spaceEntry s space = some (x.inst, e) →
      (x.inst < 32 → getF s f_SEC_INST_WORLD x.inst = e.world) → area e = some true → space < 2 ^ 20 →
      Gives (.contextResident space) s (fun s' => (ctxOf s' space).map Ctx.slot = some (some k) ∧ mfind s'.slots k = some e
        ∧ getF s' f_SCH_SLOT_SPACE k = space ∧ instarOf s' (.slot k) = (instarOf s (.slot k) + 1) % 256
        ∧ (x.inst = 0xFF → slotState s' k = slotResident)))
    ∧ (∀ k, mine.length < winSlots s x.win → free = some k →
      (spaceEntry s space = none ∨ ∃ i e, spaceEntry s space = some (i, e) ∧ (i ≠ x.inst ∨ area e = some false)) →
      Gives (.contextResident space) s (fun s' => s'.ctxs = s.ctxs ∧ ∀ q, q ∈ queuesOf s space →
        (queueOf s' q).map (fun w => (w.state, w.code)) = some (qStopped, errSaveFault)))
    ∧ (∀ old y k, winSlots s x.win ≤ mine.length → mine.filter (fun kv => evictable s kv.1 kv.2) = [(old, y)] →
      mfind s.ctxs old = some y → y.slot = some k → k < 64 → instarReady s (.slot k) = true →
      mget 0 s.instarDue (Unit8.slot k).key = 0 → Gives (.contextResident space) s (fun s' =>
        (ctxOf s' old).map Ctx.slot = some none ∧ slotState s' k = slotFree
        ∧ instarOf s' (.slot k) = (instarOf s (.slot k) + 1) % 256)))
  ∧ ∀ (u : Unit8) (s : State), 0 < mget 0 s.instarDue u.key → instarReady s u = true →
    (∀ c, u = .core c → c < 144) → (∀ k, u = .slot k → k < 64) →
    Gives (.instarAdvance u) s (fun s' => instarOf s' u = (instarOf s u + 1) % 256
      ∧ mget 0 s'.instarDue u.key = mget 0 s.instarDue u.key - 1
      ∧ ∀ q v, u = .queue q → queueOf s q = some v → mget 0 s.instarDue u.key = 1 →
        (v.state = 4 → (queueOf s' q).map Queue.state = some qRunning)
        ∧ (v.state = qDestroyed → queueOf s' q = none ∧ flagF s' f_SCH_RESULT_BUSY 0 v.win = false))

/-- R66 to R71, R157, R371, R378 to R386, R392, R514: COMMAND_START starts a command or fails it unstarted; KERNEL reads its launch
block; COPY, FILL and MIGRATE deal descriptors to bulk channels; SIGNAL acts on its fence; WAIT ends at once or waits, and
WAIT_TIMEOUT ends it; GATE_DISPATCH enters its unit's queue; ATOMIC_SEQ performs its next operation; MARKER writes its value and
the tick; COMMAND_COMPLETE writes the completion record, signals the fence, counts the command and applies the queue's error mode. -/
def Obligations.CommandActions : Prop :=  (∀ (id : Nat) (s : State) (c : Cmd) (v : Queue), cmdOf s id = some c → queueOf s c.queue = some v → mayStart s id c = true →
    (c.bad ≠ 0 → Gives (.commandStart id) s (fun s' => finOf s' id = some (some c.bad)))
    ∧ (c.bad = 0 → v.state = qPropagating → Gives (.commandStart id) s (fun s' => finOf s' id = some (some v.code)))
    ∧ (c.bad = 0 → v.state ≠ qPropagating → fenced s c.inst = true → actsResident c.op = false →
      Gives (.commandStart id) s (fun s' => finOf s' id = some (some errFenced)))
    ∧ (c.bad = 0 → v.state ≠ qPropagating → fenced s c.inst = false → c.op ≠ opGate →
      (needsBulk c.op = true → workChannels s c.inst ≠ []) →
      Gives (.commandStart id) s (fun s' => cmdOf s' id = some { c with start := some s.now })))
  ∧ (∀ (id : Nat) (s : State) (c : Cmd), running s id opKernel = some c → c.begun = false → holdsImago s c = true →
    let va := c.num 0x20 8
    (va % 128 ≠ 0 → Gives (.kernel id) s (fun s' => finOf s' id = some (some errLaunchInvalid)))
    ∧ ∀ d, va % 128 = 0 → (devRead s (ctxSlot s c.space) c.queue id va 128).1 = .ok d 0 →
      let l := launchOf va d
      (launchOk l = false → Gives (.kernel id) s (fun s' => finOf s' id = some (some errLaunchInvalid) ∧ s'.kernels = s.kernels))
      ∧ (launchOk l = true → l.groups = 0 → Gives (.kernel id) s (fun s' => finOf s' id = some (some 0) ∧ s'.kernels = s.kernels))
      ∧ (launchOk l = true → l.groups ≠ 0 → Gives (.kernel id) s (fun s' => (cmdOf s' id).map Cmd.begun = some true
        ∧ ∃ k, (mfind s'.kernels k).map (fun k => (k.cmd, k.space, k.lb, k.nbatch)) =
          some (id, c.space, l, (l.groups + l.batchGroups - 1) / l.batchGroups))))
  ∧ (∀ (id n : Nat) (s : State) (c : Cmd),
    (∀ bytes s1, running s id opCopy = some c → MayDeal s id n (c.num 0x2C 4) c →
      devRead s (ctxSlot s c.space) c.queue id (c.num 0x20 8 + 64 * c.next) 64 = (.ok bytes 0, s1) → NoHeld s1 →
      let d := c.desc id bytes (max ((bytes.getD 1 0).toNat % 8) (c.num 2 1))
      (d.op ≠ dCredit → d.paced = false → d.bits 7 4 1 = 0 → (d.bits 1 5 1 = 1 → c.running = 0) →
        Gives (.copy id) s (fun s' => DealtTo s s' id n c d ∧ (cmdOf s' id).map Cmd.next = some (c.next + 1)))
      ∧ ((d.op = dCredit ∨ d.paced = true ∨ d.bits 7 4 1 = 1) → c.running = 0 →
        Gives (.copy id) s (fun s' => finOf s' id = some (some errMoverParam) ∧ getF s' f_TMV_BCH_STAT_LAST_ERR n = errMoverParam)))
    ∧ (running s id opFill = some c → MayDeal s id n 32 c →
      let left := c.num 0x28 8 - c.next
      let rows := if left < 0x800000 then 1 else min (left / 0x800000) 65535
      let x := min left 0x800000
      Gives (.fill id) s (fun s' => (cmdOf s' id).map Cmd.next = some (c.next + x * rows)
        ∧ DealtTo s s' id n c
          (c.desc id (rowsDesc dFill (c.num 2 1) 0 (c.num 0x20 8 + c.next) x rows (leBytes 8 (c.num 0x30 8))) (c.num 2 1))))
    ∧ (∀ bytes s1, running s id opMigrate = some c → MayDeal s id n 1 c → c.running = 0 →
      devRead s (ctxSlot s c.space) c.queue id (c.num 0x20 8 + 16 * c.next) 16 = (.ok bytes 0, s1) → NoHeld s1 →
      let page := pageBytes (c.num 0x2C 1)
      let src := leNat (bytes.take 8)
      let dst := leNat (bytes.drop 8)
      (src % page = 0 → dst % page = 0 → Gives (.migrate id) s (fun s' => (cmdOf s' id).map Cmd.next = some (c.next + 1)
        ∧ DealtTo s s' id n c (c.desc id
          (rowsDesc dCopy (c.num 2 1) src dst (min page 65536) (page / min page 65536) (leBytes 8 0)) (c.num 2 1))))
      ∧ (src % page ≠ 0 ∨ dst % page ≠ 0 → Gives (.migrate id) s (fun s' => finOf s' id = some (some errCommandInvalid)))))
  ∧ (∀ (id : Nat) (s : State) (c : Cmd), running s id opSignal = some c → c.begun = false →
    let va := c.num 8 8
    (va = 0 → Gives (.signal id) s (fun s' => finOf s' id = some (some 0) ∧ s'.host = s.host))
    ∧ (va ≠ 0 → (fenceAt s (ctxSlot s c.space) c.queue id va).1 = .bad → Gives (.signal id) s (fun s' => finOf s' id = some (some errFenceInvalid)))
    ∧ ∀ g s1, va ≠ 0 → HomeHere s (ctxSlot s c.space) c.queue id va g s1 → (∀ w ∈ s.fenceWaiters, w.gpa ≠ g) →
      Gives (.signal id) s (fun s' => finOf s' id = some (some 0) ∧ FenceIs s1 s' g
        (if c.num 0x20 1 = 0 then .signal (c.num 0x10 8) else if c.num 0x20 1 = 1 then .reset (c.num 0x10 8) else .error (c.num 0x22 2))))
  ∧ (∀ (id : Nat) (s : State) (c : Cmd),
    (∀ g s1, running s id opWait = some c → c.begun = false → HomeHere s (ctxSlot s c.space) c.queue id (c.num 0x20 8) g s1 →
      let f := fenceWords s1 g
      let v := c.num 0x28 8
      (v ≤ f.1 → Gives (.wait id) s (fun s' => finOf s' id = some (some 0)))
      ∧ (f.1 < v → bitAt f.2 16 = true → Gives (.wait id) s (fun s' => finOf s' id = some (some (f.2 % 2 ^ 16))))
      ∧ (f.1 < v → bitAt f.2 16 = false → Gives (.wait id) s (fun s' => finOf s' id = some none
        ∧ s'.fenceWaiters = s.fenceWaiters ++ [⟨g, BitVec.ofNat 64 v, .queue c.queue id (instarOf s (.queue c.queue))⟩])))
    ∧ (running s id opWait = some c → c.begun = false → (fenceAt s (ctxSlot s c.space) c.queue id (c.num 0x20 8)).1 = .bad →
      Gives (.wait id) s (fun s' => finOf s' id = some (some errFenceInvalid)))
    ∧ (∀ t, cmdOf s id = some c → c.op = opWait → c.start = some t → c.fin = none → c.num 0x30 4 ≠ 0 →
      due s t (c.num 0x30 4 * usTicks) = true → Gives (.waitTimeout id) s (fun s' => finOf s' id = some (some errWaitTimeout)
        ∧ ∀ w ∈ s'.fenceWaiters, w ∈ s.fenceWaiters ∧ ∀ q k, w.src ≠ .queue q id k)))
  ∧ (∀ (id : Nat) (s : State) (c : Cmd) (v : Queue) (d : List Byte), cmdOf s id = some c → c.op = opGate → mayStart s id c = true →
    c.bad = 0 → fenced s c.inst = false → queueOf s c.queue = some v → v.state ≠ qPropagating → devStalled s c.queue id = false →
    (devRead s (ctxSlot s c.space) c.queue id (c.num 0x20 8) 256).1 = .ok d 0 →
    let w := (d.getD 1 0).toNat
    (w < 8 → (gateOf s w).waiting.length < 16 → Gives (.gateDispatch id) s (fun s' =>
      (gateOf s' w).waiting = (gateOf s w).waiting ++ [⟨c.queue, id, c.space, c.inst, c.win, c.num 2 1, d⟩]
      ∧ cmdOf s' id = some { c with start := some s.now }))
    ∧ (w < 8 → 16 ≤ (gateOf s w).waiting.length → Gives (.gateDispatch id) s (fun s' => cmdOf s' id = some c))
    ∧ (8 ≤ w → Gives (.gateDispatch id) s (fun s' => finOf s' id = some (some errGateParam))))
  ∧ (∀ (id : Nat) (s : State) (c : Cmd), running s id opAtomic = some c → devReqs s c.queue id = [] → c.old = none → NoHeld s →
    (c.num 0x28 1 ≤ c.next → Gives (.atomicSeq id) s (fun s' => finOf s' id = some (some 0)))
    ∧ ∀ (d : List Byte) (g dst hint : Nat) (s1 : State), c.next < c.num 0x28 1 → c.num 0x30 8 = 0 →
      devRead s (ctxSlot s c.space) c.queue id (c.num 0x20 8 + 32 * c.next) 32 = (.ok d 0, s1) → d.length = 32 →
      let num := fun o n => leNat ((d.drop o).take n)
      let sub := num 8 1 % 16
      let n := if bitAt (num 8 1) 5 then 8 else 4
      let a := num 0x10 8 % 2 ^ (8 * n)
      let slot := ctxSlot s c.space
      let s2 := devTouch s1 slot c.queue id (num 0 8)
      let old := leNat (readAt s2 g n).1
      let i := forwarded s2 (gpaLocal g)
      ((6 < sub ∨ 64 ≤ num 8 1 ∨ num 9 7 ≠ 0 ∨ num 0 8 % n ≠ 0) → Gives (.atomicSeq id) s (fun s' => finOf s' id = some (some errCommandInvalid)))
      ∧ (sub ≤ 6 → num 8 1 < 64 → num 9 7 = 0 → num 0 8 % n = 0 → (devPlace s1 slot c.queue id (num 0 8)).1 = .ok [] 0 →
        (devPlace s1 slot c.queue id (num 0 8)).2 = some (g, dst, hint) → gpaChip g = chipId s → NoHeld s1 → (hostWindow ≤ gpaLocal g →
          Gives (.atomicSeq id) s (fun s' => finOf s' id = some (some errAtomicTarget)))
        ∧ (gpaLocal g < hostWindow → (readAt s2 g n).2 ≠ 0 → Gives (.atomicSeq id) s (fun s' => finOf s' id = some (some errDataPoison)))
        ∧ (gpaLocal g < hostWindow → (readAt s2 g n).2 = 0 → Reached s2 managerRouter g → Coherent s2 (i / 256) → i % 256 + n ≤ 256 →
          Gives (.atomicSeq id) s (fun s' =>
            lineBytes s' (i / 256) = (if sub = 5 then lineBytes s2 (i / 256) else patch (lineBytes s2 (i / 256)) (i % 256)
              (leBytes n (atomicResult (if sub = 6 then 3 else sub) (8 * n) (bitAt (num 8 1) 4) old a (num 0x18 8 % 2 ^ (8 * n)))))
            ∧ (cmdOf s' id).map (fun x => (x.next, x.count, x.fin)) =
              some (if sub = 4 ∧ old ≠ a ∧ c.num 0x29 1 = 1 then c.num 0x28 1 else c.next + 1, c.count + 1, none)))))
  ∧ (∀ (id : Nat) (s : State) (c : Cmd), running s id opMarker = some c → c.begun = false → devReqs s c.queue id = [] →
    (c.num 0x28 8 = 0 → Gives (.marker id) s (fun s' => finOf s' id = some (some 0) ∧ s'.host = s.host))
    ∧ ∀ g s1, c.num 0x28 8 ≠ 0 →
      PlaceHere s (ctxSlot s c.space) c.queue id (c.num 0x28 8) (devRouter s c.queue id) g s1 →
      Gives (.marker id) s (fun s' => finOf s' id = some (some 0) ∧ fenceWords s' g = (c.num 0x20 8, s.now.toNat)
        ∧ (c.num 0x30 1 = 1 → (mget [] s.evHeld c.win).length < 1024 → mget [] s'.evHeld c.win = mget [] s.evHeld c.win ++
          [eventRecord 0x16 0 c.space (c.num 0x20 8) (((queueOf s c.queue).map Queue.num).getD 0) (c.num 4 4) s.now])))
  ∧ ∀ (id code : Nat) (s : State) (c : Cmd) (v : Queue) (x : Ctx), cmdOf s id = some c → c.fin = some code →
    queueOf s c.queue = some v → ctxOf s c.space = some x → x.slot.isSome = true → x.down = none →
    devStalled s c.queue id = false → devReqs s c.queue id = [] → NoHeld s →
    (c.num 0x38 8 = 0 → c.num 8 8 = 0 → c.fenceOk = true →
      (code = 0 ∨ c.quiet = true ∨ v.mode = 2 ∨ v.state ≠ qRunning →
        Gives (.commandComplete id) s (fun s' => Retired s' id c v v.state v.code))
      ∧ (code ≠ 0 → c.quiet = false → v.state = qRunning → v.mode ≠ 2 → (∀ y, ctxOf s v.space = some y → fenced s y.inst = false) →
        (ctxOf s v.space).isSome = true → NoneFreeing s → (∀ kv ∈ s.colls, kv.2.cmd ≠ some id) →
        Gives (.commandComplete id) s (fun s' => Retired s' id c v (if v.mode = 1 then qStopped else qPropagating) code)))
    ∧ (c.refs = [] → NoneFreeing s → (code = 0 ∨ c.quiet = true) →
      (∀ a dst hint, c.num 0x38 8 ≠ 0 → addrOk 64 (c.num 0x38 8) = true → c.num 8 8 = 0 → c.post = false → nonPreemptible c = false →
        devPlace s (ctxSlot s c.space) c.queue id (c.num 0x38 8) = (.ok [] 0, some (a, dst, hint)) → gpaChip a = chipId s →
        hostWindow ≤ gpaLocal a → failedOn s (devRouter s c.queue id) hostRouter = none →
        Gives (.commandComplete id) s (fun s' => Retired s' id c v v.state v.code
          ∧ memBytes s'.host (gpaLocal a - hostWindow) 64 = completionRecord c code s.now))
      ∧ ∀ g s0 s1, c.num 8 8 ≠ 0 → c.fenceOk = true → (c.op = opSignal → code ≠ 0) →
        (c.post = true ∧ s0 = s ∨ c.post = false ∧ c.num 0x38 8 = 0
          ∧ s0 = modCmd (chargeOverrun s id c) id (fun v => { v with post := true })) →
        HomeHere s0 (ctxSlot s c.space) c.queue id (c.num 8 8) g s1 → (∀ w ∈ s.fenceWaiters, w.gpa ≠ g) →
        Gives (.commandComplete id) s (fun s' => Retired s' id c v v.state v.code
          ∧ FenceIs s1 s' g (if code = 0 then .signal (c.num 0x10 8) else .error code)))

/-! ## Scheduling and events -/

/-- R388, R389, R391, R392: SLICE_END makes the scheduler of an Imago decide: a context with ready work becomes the holder where
there is none; a higher priority displaces the holder, which yields; a slice without a rival is renewed; a holder without work
yields. HANDOVER_COMPLETE makes the old holder RESIDENT with its overrun as debt and starts the new slice. NP_OVERRUN posts the
record of a non-preemptible command that runs too long.

R301, R308, R394, R395, R398, R400 to R402: TEARDOWN_ABORT, 100 µs into a teardown, fails the context's commands, retires its
tracker entries, advances its slot's instar and begins the flush; QUIESCE then destroys its queues and the context, clears its
directory entry and posts the record. EVENT_RECORD_POST writes a held record with its SEQ and PHASE; MSIX_SEND sends a due message;
a write of a head arms the interrupt. -/
def Obligations.SchedulingTeardownAndEvents : Prop :=
  (
  (∀ (i : Nat) (s : State), i < 32 → (sched s i).old = none → fenced s i = false →
    (holderOf s i = none → readyCtxs s i = [] → Gives (.sliceEnd i) s (fun s' => s' = s))
    ∧ (∀ c k e x, holderOf s i = none → readyCtxs s i = [c] → (sched s i).displaced = [] → slotOf s c = some (k, e) → k < 64 →
      ctxOf s c = some x → x.left = none → Gives (.sliceEnd i) s (fun s' => getF s' f_SCH_IMG_HOLDER i = k
        ∧ flagF s' f_SCH_IMG_VALID i = true ∧ slotState s' k = slotHolder ∧ (sched s' i).start = some s.now
        ∧ (sched s' i).len =
          max ((if x.sliceUs = 0 then getF s f_SCH_CFG_SLICE_DEF_US else x.sliceUs) * usTicks - x.debt) (100 * usTicks)))
    ∧ (∀ h c k e kh eh, holderOf s i = some h →
      (readyCtxs s i).filter (fun c => decide (prioOf s c < prioOf s h)) = [c] →
      (sched s i).displaced = [] → slotOf s c = some (k, e) → slotOf s h = some (kh, eh) → k ≠ kh → k < 64 → kh < 64 →
      Gives (.sliceEnd i) s (fun s' => getF s' f_SCH_IMG_HOLDER i = k ∧ slotState s' k = slotHolder
        ∧ slotState s' kh = slotYielding ∧ (sched s' i).old = some h ∧ (sched s' i).start = none
        ∧ (sched s' i).displaced = [(prioOf s h, h)]))
    ∧ (∀ h, holderOf s i = some h → (readyCtxs s i).filter (fun c => decide (prioOf s c < prioOf s h)) = [] →
      (readyCtxs s i).filter (fun c => c ≠ h && decide (prioOf s c ≤ prioOf s h)) = [] → (ctxOf s h).isSome = true →
      (readyWork s h = true ∨ runningWork s h = true) → sliceOver s i = true →
      Gives (.sliceEnd i) s (fun s' => (sched s' i).start = some s.now ∧ (sched s' i).old = none ∧ s'.regs = s.regs))
    ∧ (∀ h kh eh, holderOf s i = some h → readyCtxs s i = [] → readyWork s h = false → runningWork s h = false →
      sliceOver s i = false → slotOf s h = some (kh, eh) → kh < 64 →
      Gives (.sliceEnd i) s (fun s' => flagF s' f_SCH_IMG_VALID i = false ∧ slotState s' kh = slotYielding
        ∧ (sched s' i).old = some h)))
  ∧ (∀ (i o h k : Nat) (s : State) (e : SlotInfo) (x y : Ctx), i < 32 → (sched s i).old = some o → coresOf s o = [] →
    npRunning s o = false → bulkStopped s o = true → holderOf s i = some h → slotOf s o = some (k, e) → k < 64 →
    getF s f_SCH_IMG_HOLDER i ≠ k → ctxOf s o = some x → ctxOf s h = some y → o ≠ h →
    Gives (.handoverComplete i) s (fun s' => (sched s' i).old = none ∧ (sched s' i).start = some s.now
      ∧ slotState s' k = slotResident ∧ (ctxOf s' o).map Ctx.debt = some (x.debt + (sched s i).late)))
  ∧ ∀ (id : Nat) (s : State) (c : Cmd), cmdOf s id = some c → nonPreemptible c = true → c.start.isSome = true → c.fin = none →
    c.overPosted = false → getF s f_SCH_NP_MAX_US * usTicks < ranFor s id c → (mget [] s.evHeld c.win).length < 1024 →
    Gives (.npOverrun id) s (fun s' => (cmdOf s' id).map Cmd.overPosted = some true
      ∧ getR s' r_SCH_NP_OVERRUNS = (getR s r_SCH_NP_OVERRUNS + 1) % 2 ^ 64
      ∧ Posts s s' c.win [eventRecord 0x13 0 c.space (c.num 4 4 + c.op * 2 ^ 32) (ranFor s id c / usTicks)
        (((queueOf s c.queue).map Queue.num).getD 0) s.now]))
  ∧ (
  (∀ (space code : Nat) (t : DWord) (s : State) (x : Ctx), ctxOf s space = some x → x.down = some (code, t) →
    x.downAborted = false → due s t (100 * usTicks) = true → Quiet s →
    Gives (.teardownAbort space) s (fun s' => (ctxOf s' space).map (fun y => (y.downAborted, y.saved.length)) = some (true, 0)
      ∧ (∀ id c, cmdOf s id = some c → c.space = space → c.fin = none → finOf s' id = some (some code))
      ∧ (∀ k, (track s k).used = true → (track s k).space = space → (track s' k).used = false)
      ∧ (∀ k e, slotOf s space = some (k, e) → k < 64 → instarReady s (.slot k) = true → mget 0 s.instarDue (Unit8.slot k).key = 0 →
        instarOf s' (.slot k) = (instarOf s (.slot k) + 1) % 256)
      ∧ ∃ kv ∈ s'.invals, kv.2.teardown = some space))
  ∧ (∀ (space code k : Nat) (t : DWord) (s : State) (x : Ctx) (e : SlotInfo), ctxOf s space = some x → x.down = some (code, t) →
    x.downAborted = true → (∀ kv ∈ s.invals, kv.2.teardown ≠ some space) → cmdsOf s space = [] → NoneFreeing s →
    (∀ q ∈ queuesOf s space, ∀ v, queueOf s q = some v → v.head = v.tail) → slotOf s space = some (k, e) → k < 64 →
    (∀ kv ∈ s.landing, kv.2.ctx ≠ k) → mget 0 s.instarDue (Unit8.slot k).key = 0 → evRoom s x.win = true →
    (∀ q ∈ queuesOf s space, instarReady s (.queue q) = true ∧ mget 0 s.instarDue (Unit8.queue q).key = 0) →
    Gives (.quiesce space) s (fun s' => ctxOf s' space = none ∧ mfind s'.slots k = none
      ∧ (∀ q, q ∈ queuesOf s space → queueOf s' q = none)
      ∧ (queuesOf s space = [] → s.colls = [] →
        memBytes s'.host (getF s f_SCH_CTX_DIR_ADDR * 4096 + 8 * space) 8 = List.replicate 8 0 ∧ Posts s s' x.win
        [eventRecord 0x12 code space (k + 256 * instarOf s (.slot k)) x.failed (x.drained + x.cut * 2 ^ 32) s.now])))
  ∧ (∀ (win : Nat) (s : State) (r : List Byte) (rest : List (List Byte)), win ≤ 32 → mget [] s.evHeld win = r :: rest →
    r.length = 56 → eqRoom s win = true →
    let tail := getF s f_EVT_EQ_TAIL_INDEX 0 win
    let ring := mget Ring.empty s.rings (2 * win + 1)
    Gives (.eventRecordPost win) s (fun s' => mget [] s'.evHeld win = rest
      ∧ memBytes s'.host (getF s f_EVT_EQ_BASE_ADDR 0 win * 4096 + 64 * tail) 64 =
        r ++ leBytes 4 (ring.posted + 1) ++ leBytes 4 (ringPhase ring * 2 ^ 31)
      ∧ getF s' f_EVT_EQ_TAIL_INDEX 0 win = (tail + 1) % eqSize s win % 2 ^ f_EVT_EQ_TAIL_INDEX.width
      ∧ (s.armed.contains (2 * win + 1) = true → flagF s f_EVT_IRQ_CFG_EQ_EN 0 win = true →
        s'.msixDue = s.msixDue ++ [2 * win + 1] ∧ s'.armed.contains (2 * win + 1) = false)))
  ∧ (∀ (win q : Nat) (s : State), win ≤ 32 → q < 2 →
    let k := 2 * win + q
    let waited := ∀ t, mfind s.msixLast k = some t → due s t (getF s f_EVT_IRQ_MOD_US 0 win * usTicks) = true
    (k ∈ s.msixDue → waited → Gives (.msixSend win q) s (fun s' => s'.msixDue = s.msixDue.erase k
      ∧ mfind s'.msixLast k = some s.now ∧ s'.msix = s.msix ++
        [(win, if q = 0 then getF s f_EVT_IRQ_CFG_FQ_VEC 0 win else getF s f_EVT_IRQ_CFG_EQ_VEC 0 win)]))
    ∧ (k ∉ s.msixDue ∨ ¬ waited → Gives (.msixSend win q) s (fun s' => s' = s)))
  ∧ ∀ (win v : Nat) (s : State), win ≤ 32 →
    Gives (.evtEqHeadWrite win v) s (fun s' => s'.armed.contains (2 * win + 1) = true
      ∧ getF s' f_EVT_EQ_HEAD_INDEX 0 win = v % 2 ^ f_EVT_EQ_HEAD_INDEX.width)
    ∧ Gives (.evtFqHeadWrite win v) s (fun s' => s'.armed.contains (2 * win) = true
      ∧ getF s' f_EVT_FQ_HEAD_INDEX 0 win = v % 2 ^ f_EVT_FQ_HEAD_INDEX.width))

/-! ## Collectives -/

/-- R427 to R430: COLLECTIVE opens its collective at FIRST_STEP and sends OPEN to every rank that sends to this one, or fails on a
bad descriptor; COLL_SEND_ACTION sends the step's chunk once it may; COLL_RECEIVE_ACTION begins the receive and reduces;
COLL_ACTION_COMPLETE sends the token, goes to the next step, and ends the command with its last; COLL_PUT and COLL_TOKEN are
taken at the receiver; COLL_TIMEOUT fails a collective that cannot go on. -/
def Obligations.Collectives : Prop :=  (∀ (id : Nat) (s s1 s2 : State) (c : Cmd) (d : List Byte), running s id opCollective = some c → collOfCmd s id = none →
    holdsImago s c = true → devRead s (ctxSlot s c.space) c.queue id (c.num 0x20 8) 128 = (.ok d 0, s1) →
    (collOk d (getF s f_SILK_RANGE_SIZE c.inst) = false ∨ 32 ≤ c.inst ∨ collSteps d < c.num 0x28 4 + c.num 0x2C 4 →
      Gives (.collective id) s (fun s' => finOf s' id = some (some errCommandInvalid)))
    ∧ ∀ b, collOk d (getF s f_SILK_RANGE_SIZE c.inst) = true → c.inst < 32 → c.num 0x28 4 + c.num 0x2C 4 ≤ collSteps d →
      devRead s1 (ctxSlot s c.space) c.queue id (collPeers d) (4 * collN d) = (.ok b 0, s2) → NoHeld s2 →
      (collRanks (chipId s) c.inst (collRank d) b = none →
        Gives (.collective id) s (fun s' => finOf s' id = some (some errCommandInvalid)))
      ∧ ∀ ranks, collRanks (chipId s) c.inst (collRank d) b = some ranks →
        (mfind s.colls (collId d) = none → Gives (.collective id) s (fun s' =>
          (mfind s'.colls (collId d)).map (fun v => (v.cmd, v.desc, v.ranks, v.step, v.fate)) =
            some (some id, d, ranks, c.num 0x28 4, none)
          ∧ ∀ r ∈ collSenders d, Reach s2 (ranks.getD r (0, 0)).1 → Sends s' msgCollToken (2 ^ 16) (ranks.getD r (0, 0)).1))
        ∧ ∀ v, mfind s.colls (collId d) = some v → v.space = c.space →
          (v.fate = none → v.cmd = none → Gives (.collective id) s (fun s' =>
            (mfind s'.colls (collId d)).map (fun v => (v.cmd, v.step)) = some (some id, c.num 0x28 4)))
          ∧ (∀ e, v.fate = some e → e ≠ 0 → Gives (.collective id) s (fun s' => finOf s' id = some (some e))))
  ∧ (∀ (id k : Nat) (s : State) (c : Cmd) (v : Coll), collMay s id = some (c, k, v) → CollRuns s id k v →
    let slot := ctxSlot s c.space
    (∀ m, collSend v.desc v.step = some m → v.sendSt = 0 →
      (v.opens.contains m.rank = false → Gives (.collSendAction id) s (fun s' => s' = s))
      ∧ (collChans s c v = [] → Gives (.collSendAction id) s (fun s' => s' = s))
      ∧ ∀ l own s1 s2 s3, v.opens.contains m.rank = true → collChans s c v ≠ [] → NoHeld s3 →
        (m.how = 1 → sendOrd v.desc v.step ≤ getR s r_SILK_CTR (collCtr s v 1)) →
        collLines s slot c.queue id (collBuf v.desc + m.ofs) m.len = (.ok l, s1) →
        (collAlg v.desc = 4 → v.step = 0 →
          collLines s1 slot c.queue id (collBuf v.desc + collRank v.desc * collChunk v.desc) (collChunk v.desc) = (.ok own, s2)) →
        (collAlg v.desc ≠ 4 ∨ v.step ≠ 0 → own = [] ∧ s2 = s1) →
        collPut s2 slot c.queue id (own.map (fun x => (x.1 - collBuf v.desc + collOut v.desc, x.2.1, x.2.2))) = (.ok [] 0, s3) →
        Gives (.collSendAction id) s (fun s' => (mfind s'.colls k).map (fun v => (v.sendSt, v.sendCh)) = some (1, collChans s c v)
          ∧ s'.hbm = s3.hbm ∧ s'.host = s3.host ∧ (l ≠ [] → own = [] → Reach s3 (v.ranks.getD m.rank (0, 0)).1 → Sends s' msgCollPut v.step (v.ranks.getD m.rank (0, 0)).1)))
    ∧ (∀ m, collRecv v.desc v.step = some m → v.recvSt = 0 →
      (getR s r_SILK_CTR (collCtr s v 0) < recvOrd v.desc v.step → Gives (.collReceiveAction id) s (fun s' => s' = s))
      ∧ (recvOrd v.desc v.step ≤ getR s r_SILK_CTR (collCtr s v 0) →
        (m.how = 0 → Gives (.collReceiveAction id) s (fun s' => (mfind s'.colls k).map Coll.recvSt = some 1 ∧ s'.hbm = s.hbm))
        ∧ ∀ l src s1 s2 s3, m.how ≠ 0 → collChans s c v ≠ [] → NoHeld s3 →
          (recvVa v.desc v.step m = none → src = stagedLines v m.len ∧ s1 = s) →
          (∀ a, recvVa v.desc v.step m = some a →
            ∃ l', collLines s slot c.queue id a m.len = (.ok l', s1) ∧ src = l'.map (fun x => x.2)) →
          collLines s1 slot c.queue id (collBuf v.desc + m.ofs) m.len = (.ok l, s2) →
          collPut s2 slot c.queue id ((List.range l.length).map (fun i =>
            let old := l.getD i (0, [], 0)
            let new := src.getD i ([], 0)
            (old.1, (reduceElems (collNum v.desc 1 1 = 1) old.2.1 new.1).1, Nat.lor old.2.2 new.2))) = (.ok [] 0, s3) →
          Gives (.collReceiveAction id) s (fun s' => (mfind s'.colls k).map (fun v => (v.recvSt, v.recvCh)) = some (1, collChans s c v)
            ∧ s'.hbm = s3.hbm ∧ s'.host = s3.host))))
  ∧ (∀ (id k : Nat) (recv : Bool) (s : State) (c : Cmd) (v : Coll), cmdOf s id = some c → CollRuns s id k v → c.fin = none →
    devReqs s c.queue id = [] → (if recv then v.recvSt else v.sendSt) = 1 →
    ((if recv then v.sendSt else v.recvSt) ≠ 2 → Gives (.collActionComplete id recv) s (fun s' =>
      (mfind s'.colls k).map (fun v => (v.step, if recv then v.recvSt else v.sendSt)) = some (v.step, 2) ∧ finOf s' id = some none))
    ∧ ((if recv then v.sendSt else v.recvSt) = 2 → Gives (.collActionComplete id recv) s (fun s' =>
      (mfind s'.colls k).map Coll.step = some (v.step + 1) ∧ (cmdOf s' id).map Cmd.count = some (c.count + 1)
      ∧ finOf s' id = some (if c.num 0x28 4 + c.num 0x2C 4 ≤ v.step + 1 then some 0 else none)))
    ∧ (∀ m, recv = true → collRecv v.desc v.step = some m → Reach s (v.ranks.getD m.rank (0, 0)).1 →
      Gives (.collActionComplete id recv) s (fun s' => Sends s' msgCollToken v.step (v.ranks.getD m.rank (0, 0)).1)))
  ∧ (∀ (id k : Nat) (s : State) (c : Cmd) (v : Coll), CollRuns s id k v → cmdOf s id = some c → c.fin = none → v.sendSt ≠ 1 →
    v.recvSt ≠ 1 → dueRun s v.since (getF s f_LNK_COLL_TMO_MS * msTicks) = true →
    Gives (.collTimeout id) s (fun s' => finOf s' id = some (some errWaitTimeout)))
  ∧ ∀ (k p : Nat) (s : State) (m : LinkMsg) (v : Coll) (r : Nat),
    let key := m.addr % 2 ^ 32
    let n := m.aux % 2 ^ 16
    let ofs := m.addr / 2 ^ 32
    (Comes s k msgCollPut p m → collFrom s m = none → Reach s m.src → Gives (.collPut k) s (fun s' =>
      Sends s' msgErr linkRefused m.src ∧ s'.colls = s.colls))
    ∧ (Comes s k msgCollToken p m → collFrom s m = none → Reach s m.src → Gives (.collToken k) s (fun s' =>
      Sends s' msgErr linkRefused m.src ∧ s'.colls = s.colls))
    ∧ (collFrom s m = some (v, r) → collReset s v = false →
      (∀ mv, Comes s k msgCollPut p m → n ≠ 0xFFFF → collRecv v.desc n = some mv → mv.rank = r → ofs + m.data.length ≤ mv.len →
        ofs % 256 = 0 → m.data.length % 256 = 0 → v.fate = none → recvVa v.desc n mv = none →
        Gives (.collPut k) s (fun s' => (mfind s'.colls key).map (fun w => mget 0 w.got n) = some (mget 0 v.got n + m.data.length)
          ∧ (mget 0 v.got n + m.data.length < mv.len → s'.regs = s.regs)
          ∧ (mv.len ≤ mget 0 v.got n + m.data.length → collCtr s v 0 < 16384 → NoWaiter s (collCtr s v 0) →
            getR s' r_SILK_CTR (collCtr s v 0) = (getR s r_SILK_CTR (collCtr s v 0) + 1) % 2 ^ 64)))
      ∧ (∀ id c, Comes s k msgCollPut p m → n = 0xFFFF → v.fate = none → v.cmd = some id → cmdOf s id = some c → c.fin = none →
        Gives (.collPut k) s (fun s' => finOf s' id = some (some errRemoteError) ∧ mfind s'.colls key = none))
      ∧ (Comes s k msgCollToken p m → bitAt m.aux 16 = true → Gives (.collToken k) s (fun s' =>
        ((mfind s'.colls key).map (fun w => w.opens.contains r)) = some true))
      ∧ (Comes s k msgCollToken p m → bitAt m.aux 16 = false → collCtr s v 1 < 16384 → NoWaiter s (collCtr s v 1) →
        Gives (.collToken k) s (fun s' =>
          getR s' r_SILK_CTR (collCtr s v 1) = (getR s r_SILK_CTR (collCtr s v 1) + 1) % 2 ^ 64 ∧ s'.colls = s.colls)))

/-! ## Link ports -/

/-- R407 to R411, R413, R417, R422, R423, R521, R542: the events of a link port: LNK_PORT_CTRL_WRITE, PORT_TRAINED,
TRAINING_TIMEOUT, DELAY_PROBE, LOCK_LOSS, LASER_LOW, LASER_RESTORED, LINKCTL_ACK_SEND, ENC_REQ_TIMEOUT, KEY_EPOCH_ADVANCE and
FLIT_RECEIVE, by what each does to the port's state, its queues, its keys and its counters. -/
def Obligations.LinkPorts : Prop :=  ∀ (p : Nat) (s : State), p < 32 →
    (∀ v, (bitAt v 0 = true → portState s p = portDown → getF s f_CMP_LINK_STATE p ≠ 0 →
          flagF s f_LNK_PORT_STAT_LASER_LOW p = false → 9 ≤ getF s f_RST_STATE_PHASE →
          Gives (.lnkPortCtrlWrite p v) s (fun s' => portState s' p = portTraining
            ∧ getR s' r_LNK_PORT_CTRL p = bitsOf v 0 2 + bitsOf v 8 8 * 256 ∧ (port s' p).since = s.now))
      ∧ (bitAt v 0 = false → portState s p ≠ portDown → Gives (.lnkPortCtrlWrite p v) s (fun s' => portState s' p = portDown
          ∧ getR s' r_LNK_PORT_CTRL p = bitsOf v 0 2 + bitsOf v 8 8 * 256 ∧ heldMsgs (port s' p) = [])))
    ∧ (∀ delay, trainingNow s p = true → Gives (.portTrained p delay) s (fun s' => portState s' p = portUp
      ∧ getF s' f_LNK_PORT_STAT_DELAY_NS p = min delay 255 ∧ flagF s' f_LNK_PORT_STAT_LONG p = decide (150 < delay)
      ∧ (port s' p).credits = fullCredits ∧ heldMsgs (port s' p) = []))
    ∧ (trainingNow s p = true → due s (port s p).since (50 * msTicks) = true → Gives (.trainingTimeout p) s (fun s' =>
      portCause s' p = 5 ∧ (port s' p).since = s.now + BitVec.ofNat 64 (10 * msTicks) ∧ (port s' p).failedTraining = true))
    ∧ (∀ delay, isUp s p = true → due s (port s p).lastProbe msTicks = true → Gives (.delayProbe p delay) s (fun s' =>
      getF s' f_LNK_PORT_STAT_DELAY_NS p = min delay 255 ∧ flagF s' f_LNK_PORT_STAT_LONG p = decide (150 < delay)
      ∧ (port s' p).lastProbe = s.now))
    ∧ (isUp s p = true → Gives (.lockLoss p) s (fun s' => PortLeft s s' p portDown 1))
    ∧ (isUp s p = true → Gives (.laserLow p) s (fun s' => portState s' p = portDown ∧ portCause s' p = 3
      ∧ flagF s' f_LNK_PORT_STAT_LASER_LOW p = true ∧ heldMsgs (port s' p) = []))
    ∧ (portState s p = portTraining → Gives (.laserLow p) s (fun s' => portState s' p = portDown))
    ∧ (portState s p = portDown → getF s f_CMP_LINK_STATE p ≠ 0 → flagF s f_LNK_PORT_CTRL_ENABLE p = true →
      9 ≤ getF s f_RST_STATE_PHASE → Gives (.laserRestored p) s (fun s' => portState s' p = portTraining
        ∧ flagF s' f_LNK_PORT_STAT_LASER_LOW p = false))
    ∧ (isUp s p = true → due s (port s p).lastTx 64 = true → (port s p).unacked.length < 2048 →
      Gives (.linkctlAckSend p) s (fun s' => (port s' p).unacked = (port s p).unacked ++ [⟨(port s p).txSeq, 6, 0, none⟩]
        ∧ (port s' p).txSeq = ((port s p).txSeq + 1) % 4096 ∧ (port s' p).lastTx = s.now
        ∧ getR s' r_LNK_PORT_TX p = (getR s r_LNK_PORT_TX p + 1) % 2 ^ 64))
    ∧ (∀ t k, (port s p).encAsked = some t → isUp s p = true → due s t msTicks = true →
      (linkSlot s p = some (k, true) → Gives (.encReqTimeout p) s (fun s' => PortLeft s s' p portFailed 4))
      ∧ (linkSlot s p = some (k, false) → Gives (.encReqTimeout p) s (fun s' => (port s' p).encAsked = none ∧ s'.regs = s.regs)))
    ∧ (∀ k b, flagF s f_LNK_PORT_STAT_ENC p = true → 2 ^ 40 ≤ (port s p).encFlits ∨ 2 ^ 40 ≤ (port s p).encRxFlits →
      linkSlot s p = some (k, b) → keyDerives s k keyLinkBit = true → Gives (.keyEpochAdvance p) s (fun s' =>
        (port s' p).kepoch = (port s p).kepoch + 1 ∧ (port s' p).keys = linkKey s p k ((port s p).kepoch + 1)))
    ∧ ∀ f, isUp s p = true →
      let left := afterAck (port s p).unacked f.ack
      (f.good = false → f.enc = false ∨ (port s p).encFails + 1 < 16 → Gives (.flitReceive p f) s (fun s' =>
        (port s' p).nakSent = true ∧ (port s' p).rxSeq = (port s p).rxSeq ∧ s'.linkIn = s.linkIn
        ∧ getR s' r_LNK_PORT_UNCORR p = (getR s r_LNK_PORT_UNCORR p + f.uncorrectable) % 2 ^ 64))
      ∧ (f.good = false → f.enc = true → 15 ≤ (port s p).encFails →
        Gives (.flitReceive p f) s (fun s' => PortLeft s s' p portFailed 4))
      ∧ (f.good = true → f.nak = true → left = (port s p).unacked → left ≠ [] → 15 ≤ (port s p).resends →
        Gives (.flitReceive p f) s (fun s' => PortLeft s s' p portDown 2))
      ∧ (f.good = true → f.nak = false → left.length < (port s p).unacked.length ∨ (port s p).resends < 16 →
        (f.vl < 7 → f.seq % 4096 = ((port s p).rxSeq + 1) % 4096 → Gives (.flitReceive p f) s (fun s' =>
          (port s' p).rxSeq = f.seq % 4096 ∧ getR s' r_LNK_PORT_FEC p = (getR s r_LNK_PORT_FEC p + f.corrected) % 2 ^ 64
          ∧ ∀ w, f.msgs = [w] → w.type % 256 ≠ 0 → (w.ageMs % 256 < 20 → s'.linkIn = s.linkIn ++ [(p, wireMsg s w)])
            ∧ (20 ≤ w.ageMs % 256 → s'.linkIn = s.linkIn ∧ getR s' r_RST_DISCARDS = (getR s r_RST_DISCARDS + 1) % 2 ^ 64)))
        ∧ (f.vl < 7 → f.seq % 4096 ≠ ((port s p).rxSeq + 1) % 4096 →
          Gives (.flitReceive p f) s (fun s' => (port s' p).rxSeq = (port s p).rxSeq ∧ s'.linkIn = s.linkIn)))

/-! ## Messages on links -/

/-- R354, R372, R414 to R417, R421: MESSAGE_TRANSIT sends a message on, with one more hop and as best effort, or answers ERR;
LINK_READ, LINK_WRITE and LINK_ATOMIC make requests of a peer's request for lent memory, or refuse it; RESP, LINK_ACK and ERR end
the request or operation that they answer, and one that answers none is counted; LINK_ABORT discards what it names.

R353, R354, R356, R371, R372, R425, R426: SILK_ADD_MSG, SILK_READ_MSG, SILK_WAITGE_MSG and SILK_TAKE_MSG perform a peer's Silk
operation under the import entry that admits it, or refuse it, or answer STALE to an instar that is not the instance's; SILK_RELEASE and SILK_ACK end an operation of this chip; FENCE_OP
performs a peer's fence operation and FENCE_RELEASE ends a wait; LEASE grants, refuses, ends and loses leases. -/
def Obligations.LinkMessages : Prop :=
  (
  (∀ (k p p' : Nat) (s : State) (m : LinkMsg), takeIn s k (fun p m => p < 32 && m.dest ≠ chipId s && !linkLocal m) =
      some (p, m, { s with linkIn := s.linkIn.eraseIdx k }) →
    let on : LinkMsg := { m with
      hops := m.hops + 1, label := if m.label ≤ 3 then 4 else m.label, deadline := if m.label ≤ 3 then none else m.deadline }
    let near := flagF s f_LNK_PORT_PEER_VALID p' = true ∧ getF s f_LNK_PORT_PEER_CHIP p' = m.dest
    (choosePort s (routePorts s m.dest) = some p' → m.hops < 2 ∨ (m.hops = 2 ∧ near) →
      Gives (.messageTransit k) s (fun s' => on ∈ heldMsgs (port s' p')))
    ∧ (choosePort s (routePorts s m.dest) = none → wantsAnswer m = true → m.src ≠ chipId s → Reach s m.src →
      Gives (.messageTransit k) s (fun s' => Sends s' msgErr linkNoRoute m.src
        ∧ getR s' r_LNK_DISCARDS = (getR s r_LNK_DISCARDS + 1) % 2 ^ 64))
    ∧ (choosePort s (routePorts s m.dest) = some p' → 3 ≤ m.hops ∨ (m.hops = 2 ∧ ¬ near) → wantsAnswer m = true →
      m.src ≠ chipId s → Reach s m.src → Gives (.messageTransit k) s (fun s' => Sends s' msgErr linkHopLimit m.src)))
  ∧ (∀ (k p : Nat) (s : State) (m : LinkMsg),
    let secure := fun n => (linePieces m.addr n).any (fun x => secureAddr s x.1)
    let asked := fun (s' : State) (op : ReqOp) (n : Nat) (m' : LinkMsg) =>
      ∃ j id r, mfind s'.linkReqs j = some ⟨m', p, [], 1⟩ ∧ mfind s'.reqs id = some r ∧ r.op = op ∧ r.owner = .link j ∧ r.len = n
        ∧ r.gpa = chipId s * 2 ^ 48 + m.addr
    (∀ c, admitPeer s p m (m.aux % 2 ^ 16) = .error c → Comes s k msgRead p m → Reach s m.src →
      Gives (.linkRead k) s (fun s' => Sends s' msgErr c m.src ∧ s'.reqs = s.reqs))
    ∧ (∀ l n, n = m.aux % 2 ^ 16 → admitPeer s p m n = .ok l → secure n = false → 0 < n → m.addr % 256 + n ≤ 256 →
      Comes s k msgRead p m → Gives (.linkRead k) s (fun s' => asked s' .read n m))
    ∧ (∀ c, admitPeer s p m m.data.length = .error c → Comes s k msgWrite p m → Reach s m.src →
      Gives (.linkWrite k) s (fun s' => Sends s' msgErr c m.src ∧ s'.reqs = s.reqs))
    ∧ (∀ l, admitPeer s p m m.data.length = .ok l → secure m.data.length = false → m.data ≠ [] →
      m.addr % 256 + m.data.length ≤ 256 → Comes s k msgWrite p m →
      Gives (.linkWrite k) s (fun s' => asked s' .write m.data.length m))
    ∧ (∀ l, let size := if bitAt m.aux 4 then 8 else 4
      bitsOf m.aux 6 2 = 0 → m.aux % 16 ≤ 4 → m.addr % size = 0 → size ≤ m.data.length → admitPeer s p m size = .ok l →
      secure size = false → Comes s k msgAtomic p m → Gives (.linkAtomic k) s (fun s' =>
        asked s' (.atomic (m.aux % 16) size (bitAt m.aux 5) true) size { m with data := m.data.take size }))
    ∧ (bitsOf m.aux 6 2 = 0 → 4 < m.aux % 16 → Comes s k msgAtomic p m → Reach s m.src →
      Gives (.linkAtomic k) s (fun s' => Sends s' msgErr linkRefused m.src ∧ s'.reqs = s.reqs)))
  ∧ (∀ (k p : Nat) (s : State) (m : LinkMsg) (r : MemReq),
    (answeredReq s m = some r → opAnswers r.op = true → (p < 32 → failedOn s (portRouter p) (originOf s r) = none) →
      Comes s k msgResp p m → Gives (.resp k) s (fun s' =>
      mfind s'.reqs m.tag = some { r with
        stage := .done, data := m.data.take r.len
        poison := Nat.land (m.poison * 2 ^ (r.gpa % 256 / 32)) (touchedMask (r.gpa % 256) r.len) }))
    ∧ (∀ q c, answeredReq s m = some r → opAnswers r.op = false → r.owner = .command q c → Comes s k msgAck p m →
      Gives (.linkAck k) s (fun s' => mfind s'.reqs m.tag = none))
    ∧ (∀ q c, answeredReq s m = some r → r.owner = .command q c → Comes s k msgErr p m →
      (leaseOver s r = false → Gives (.err k) s (fun s' =>
        mfind s'.reqs m.tag = some { r with err := errOfLink (m.aux % 256) }))
      ∧ (leaseGone s r.gpa = true → m.aux % 256 = linkRefused → opAnswers r.op = true → Gives (.err k) s (fun s' =>
        (mfind s'.reqs m.tag).map (fun r => (r.stage, r.poison, r.err)) = some (.done, 255, r.err))))
    ∧ (answeredReq s m = none →
      (Comes s k msgResp p m → Gives (.resp k) s (fun s' => getR s' r_RST_LATE = (getR s r_RST_LATE + 1) % 2 ^ 64))
      ∧ (Comes s k msgAck p m → Gives (.linkAck k) s (fun s' => getR s' r_RST_LATE = (getR s r_RST_LATE + 1) % 2 ^ 64))
      ∧ (∀ f c, Comes s k msgErr p m → mfind s.ops m.tag = none → mfind s.fenceOuts m.tag = some f → cmdOf s f.cmd = some c →
        c.fin = none → Gives (.err k) s (fun s' => finOf s' f.cmd = some (some (errOfLink (m.aux % 256)))
          ∧ mfind s'.fenceOuts m.tag = none))))
  ∧ ∀ (k p : Nat) (s : State) (m : LinkMsg), Comes s k msgAbort p m → NoHeld s →
    let hit := fun (x : LinkMsg) => x.src = m.src && x.inst = m.inst && x.instar = m.instar && wantsAnswer x && laneOf x ≠ 0
    Gives (.linkAbort k) s (fun s' => (∀ x ∈ s'.linkIn, x ∈ s.linkIn ∧ hit x.2 = false)
      ∧ (∀ kv ∈ s.linkReqs, kv ∈ s'.linkReqs ∨ hit kv.2.msg = true ∨ ∃ j ∈ s.linkReqs, j.1 = kv.1 ∧ hit j.2.msg = true)
      ∧ ∀ kv ∈ s'.linkReqs, kv ∈ s.linkReqs ∧ hit kv.2.msg = false))
  ∧ (
  (∀ (k p e : Nat) (s : State) (m : LinkMsg),
    let inst := getF s f_SILK_IMPORT_LOCAL_INST e
    let i := m.aux % 2 ^ 14
    let n := getF s f_SILK_RANGE_BASE inst + getF s f_SILK_IMPORT_BASE e + i
    let v := getR s r_SILK_CTR n
    (importOf s m = none → Reach s m.src →
      (Comes s k msgSilk p m → Gives (.silkAddMsg k false) s (fun s' => Sends s' msgErr linkRefused m.src ∧ s'.silkWaiters = s.silkWaiters))
      ∧ (Comes s k (msgSilk + 1) p m → Gives (.silkReadMsg k false) s (fun s' => Sends s' msgErr linkRefused m.src))
      ∧ (Comes s k (msgSilk + 2) p m → Gives (.silkWaitgeMsg k false) s (fun s' => Sends s' msgErr linkRefused m.src))
      ∧ (Comes s k (msgSilk + 3) p m → Gives (.silkTakeMsg k false) s (fun s' => Sends s' msgErr linkRefused m.src)))
    ∧ (importOf s m = some e → m.instar ≠ instarOf s (.inst inst) → Reach s m.src →
      (Comes s k msgSilk p m → Gives (.silkAddMsg k false) s (fun s' => Sends s' msgErr linkStale m.src ∧ getR s' r_SILK_CTR n = v))
      ∧ (Comes s k (msgSilk + 1) p m → Gives (.silkReadMsg k false) s (fun s' => Sends s' msgErr linkStale m.src))
      ∧ (Comes s k (msgSilk + 2) p m → Gives (.silkWaitgeMsg k false) s (fun s' => Sends s' msgErr linkStale m.src
        ∧ s'.silkWaiters = s.silkWaiters))
      ∧ (Comes s k (msgSilk + 3) p m → Gives (.silkTakeMsg k false) s (fun s' => Sends s' msgErr linkStale m.src
        ∧ s'.silkWaiters = s.silkWaiters ∧ getR s' r_SILK_CTR n = v)))
    ∧ (importOf s m = some e → m.instar = instarOf s (.inst inst) → i < getF s f_SILK_IMPORT_SIZE e → n < 16384 → m.addr < 2 ^ 64 →
      Reach s m.src → n ∉ s.custody → NoWaiter s n →
      (Comes s k msgSilk p m → Gives (.silkAddMsg k false) s (fun s' => getR s' r_SILK_CTR n = (v + m.addr) % 2 ^ 64
        ∧ Sends s' msgSilkAck 0 m.src))
      ∧ (Comes s k (msgSilk + 1) p m → Gives (.silkReadMsg k false) s (fun s' => getR s' r_SILK_CTR n = v
        ∧ Sends s' msgSilkRelease 0 m.src))
      ∧ (Comes s k (msgSilk + 2) p m → m.addr ≤ v → Gives (.silkWaitgeMsg k false) s (fun s' => getR s' r_SILK_CTR n = v
        ∧ Sends s' msgSilkRelease 0 m.src))
      ∧ (Comes s k (msgSilk + 3) p m → v ≠ 0 → v < 2 ^ 64 → Gives (.silkTakeMsg k false) s (fun s' =>
        getR s' r_SILK_CTR n = v - 1 ∧ Sends s' msgSilkRelease 0 m.src))
      ∧ (remoteWaiters s < 16384 →
        (Comes s k (msgSilk + 2) p m → v < m.addr → Gives (.silkWaitgeMsg k false) s (fun s' =>
          s'.silkWaiters = s.silkWaiters ++ [⟨false, n, BitVec.ofNat 64 m.addr, .peer m.src m.inst m.tag, 0, m.epoch⟩]))
        ∧ (Comes s k (msgSilk + 3) p m → v = 0 → Gives (.silkTakeMsg k false) s (fun s' =>
          s'.silkWaiters = s.silkWaiters ++ [⟨true, n, BitVec.ofNat 64 m.addr, .peer m.src m.inst m.tag, 0, m.epoch⟩])))))
  ∧ (∀ (k p : Nat) (s : State) (m : LinkMsg) (o : ThreadOp), mfind s.ops m.tag = some o → o.sub = m.src + 1 →
    (o.kind = .silkRead → Comes s k msgSilkRelease p m → Gives (.silkRelease k false) s (fun s' =>
      mfind s'.silkReplies m.tag = some ⟨o.core, o.grp, m.tag, BitVec.ofNat 64 m.addr, instarOf s (.core o.core), s.now⟩))
    ∧ (∀ g, isSilkWait o = true → o.core < 144 → asleep s o.core = false → groupOf s o.core o.grp = some g → g.wait = .silk m.tag →
      Reach s m.src → Comes s k msgSilkRelease p m → Gives (.silkRelease k false) s (fun s' => mfind s'.ops m.tag = none
        ∧ (groupOf s' o.core o.grp).map Group.wait = some .ready ∧ Sends s' msgSilkAck 0 m.src))
    ∧ (o.kind = .silkAdd → Comes s k msgSilkAck p m → Gives (.silkAck k) s (fun s' => mfind s'.ops m.tag = none)))
  ∧ (∀ (k p : Nat) (s : State) (m : LinkMsg), mfind s.ops m.tag = none →
    (Comes s k msgSilkAck p m → Gives (.silkAck k) s (fun s' => ∀ w ∈ s'.silkSent, w ∈ s.silkSent ∧ releasedTo m.src m.tag w = false))
    ∧ (Reach s m.src → Comes s k msgSilkRelease p m → Gives (.silkRelease k false) s (fun s' => Sends s' msgErr linkStale m.src)))
  ∧ (∀ (k p : Nat) (s : State) (m : LinkMsg), Comes s k msgFenceOp p m →
    let g := chipId s * 2 ^ 48 + m.addr
    let v := leNat (m.data.take 8)
    (∀ c, m.addr % 16 = 0 → admitPeer s p m 16 = .error c → Reach s m.src →
      Gives (.fenceOp k) s (fun s' => Sends s' msgErr c m.src ∧ s'.fenceWaiters = s.fenceWaiters))
    ∧ (m.addr % 16 ≠ 0 → Reach s m.src →
      Gives (.fenceOp k) s (fun s' => Sends s' msgErr linkRefused m.src ∧ s'.fenceWaiters = s.fenceWaiters))
    ∧ (PeerFence s p m →
      (m.aux % 4 ≠ 3 → Gives (.fenceOp k) s (fun s' => FenceIs s s' g
        (if m.aux % 4 = 0 then .signal v else if m.aux % 4 = 1 then .error v else .reset v)))
      ∧ (m.aux % 4 = 3 → v ≤ (fenceWords s g).1 → Reach s m.src → Gives (.fenceOp k) s (fun s' =>
        Sends s' msgFenceRelease (65536 * bitsOf m.aux 8 8) m.src))
      ∧ (m.aux % 4 = 3 → (fenceWords s g).1 < v → bitAt (fenceWords s g).2 16 = false →
        Gives (.fenceOp k) s (fun s' => s'.fenceWaiters =
          s.fenceWaiters ++ [⟨g, BitVec.ofNat 64 v, .peer m.src m.inst m.tag (bitsOf m.aux 8 8)⟩]))))
  ∧ (∀ (k p : Nat) (s : State) (m : LinkMsg) (f : FenceOut) (c : Cmd), Comes s k msgFenceRelease p m →
    mfind s.fenceOuts m.tag = some f → f.dest = m.src → f.wait = false ∨ bitsOf m.aux 16 8 = instarOf s (.queue f.queue) →
    cmdOf s f.cmd = some c → c.fin = none → Gives (.fenceRelease k) s (fun s' =>
      finOf s' f.cmd = some (some (m.aux % 2 ^ 16)) ∧ mfind s'.fenceOuts m.tag = none))
  ∧ ∀ (k p j : Nat) (s : State) (m : LinkMsg), Comes s k msgLease p m →
    (leaseNamed s m (lentLeases s) = some j → (leaseAt s j).inst = m.inst →
      (m.aux = leaseAsk → flagF s f_CMP_LEASE_TAKEN j = false → Reach s m.src → Gives (.lease k) s (fun s' =>
        flagF s' f_CMP_LEASE_TAKEN j = true ∧ Sends s' msgLease leaseGrant m.src
        ∧ (mget LeaseTerms.empty s'.leaseTerms j).instar = m.instar))
      ∧ (m.aux = leaseAsk → flagF s f_CMP_LEASE_TAKEN j = true → Reach s m.src → Gives (.lease k) s (fun s' =>
        Sends s' msgLease leaseRefuse m.src ∧ s'.leaseTerms = s.leaseTerms))
      ∧ (m.aux = leaseRelease → flagF s f_CMP_LEASE_TAKEN j = true → Gives (.lease k) s (fun s' =>
        flagF s' f_CMP_LEASE_TAKEN j = false))
      ∧ (m.aux = leaseReturn → flagF s f_CMP_LEASE_TAKEN j = false → Gives (.lease k) s (fun s' => s'.regs = s.regs)))
    ∧ (leaseNamed s m (lentLeases s) = none → m.aux = leaseAsk → Reach s m.src → Gives (.lease k) s (fun s' =>
      Sends s' msgLease leaseRefuse m.src))
    ∧ (leaseNamed s m (borrowedLeases s) = some j → m.aux = leaseLost → (mget LeaseTerms.empty s.leaseTerms j).lost = false →
      evRoom s 0 = true → Gives (.lease k) s (fun s' => (mget LeaseTerms.empty s'.leaseTerms j).lost = true
        ∧ Posts s s' 0 [eventRecord 0x22 0 (leaseAt s j).inst (leaseAt s j).num ((leaseAt s j).chip + (leaseAt s j).unit * 2 ^ 16) 0
          s.now])))

/-! ## Peers -/

/-- R407, R418, R419, R422, R424, R430 to R432, R434, R436: HELLO and ADVERT record and refresh peers, PEER_AGE_EXPIRY makes a silent
one AGING and then LOST, LINK_IDLE and PEER_NOTICE mark one; HELLO_SEND, ADVERT_SEND and TIME_SEND send in time; ENC_REQ keys a port;
TIME corrects the time base.

R431, R432, R436: INIT, OFFER, ACCEPT, RELEASE, RECLAIM and CUSTODY_READ send their operation to the word's home, or end with
NOT_HOME; CUSTODY performs one at the home by the table of custody words, or rejects it with CUSTODY_STALE or CUSTODY_STATE, and
answers with the word; its answer ends the operation, as does CUSTODY_UNREACHABLE. -/
def Obligations.PeersAndCustody : Prop :=
  (
  (∀ (k p : Nat) (s : State) (m : LinkMsg), Comes s k msgHello p m → p < 32 → isUp s p = true → m.src < 65536 → PeersOk s →
    (m.src = chipId s → Gives (.hello k) s (fun s' => PortLeft s s' p portFailed 6))
    ∧ (m.src ≠ chipId s → linkSlot s p = none →
      (∀ j, peerOf s m.src = none → freePeer s = some j → j < 4096 → Gives (.hello k) s (fun s' =>
        PeerIs s' j m.src peerLearning 1 (m.tag % 2 ^ 32) ∧ getR s' r_LNK_PORT_PEER p = m.src + m.aux % 32 * 2 ^ 16 + 2 ^ 31))
      ∧ (∀ j, peerOf s m.src = some j → peerState s j = peerLearning → getF s f_LNK_PEER_BOOT j = m.tag % 2 ^ 32 →
        due s (mget ⟨0, 0, []⟩ s.peers j).heard (ageLimit s j + 1) = false → Gives (.hello k) s (fun s' =>
          peerState s' j = peerKnown ∧ getF s' f_LNK_PEER_HOPS j = min 1 (getF s f_LNK_PEER_HOPS j)
          ∧ (mfind s'.peers j).map PeerInfo.heard = some s.now))))
  ∧ (∀ (k p chip hops j : Nat) (s : State) (m : LinkMsg), Comes s k msgAdvert p m → m.data.length = 8 → chip = leNat (m.data.take 2) →
    hops = leNat ((m.data.drop 2).take 1) → chip ≠ chipId s → PeersOk s →
    (hops ≤ 3 → peerOf s chip = none → freePeer s = some j → j < 4096 → Gives (.advert k) s (fun s' =>
      PeerIs s' j chip peerLearning (hops + 1) (leNat ((m.data.drop 4).take 4))))
    ∧ (3 < hops → Gives (.advert k) s (fun s' => s'.peers = s.peers
      ∧ getR s' r_LNK_DISCARDS = (getR s r_LNK_DISCARDS + 1) % 2 ^ 64)))
  ∧ (∀ (k : Nat) (s : State) (i : PeerInfo), mfind s.peers k = some i → k < 4096 → due s i.heard (ageLimit s k) = true →
    (peerState s k = peerKnown ∨ peerState s k = peerReset → Gives (.peerAgeExpiry k) s (fun s' => peerState s' k = peerAging))
    ∧ (peerState s k = peerAging → s.reqs = [] → s.ops = [] → s.silkSent = [] → s.colls = [] → Gives (.peerAgeExpiry k) s (fun s' =>
      peerState s' k = peerLost ∧ ∀ tag f c, mfind s.fenceOuts tag = some f → f.dest = getF s f_LNK_PEER_CHIP k →
        cmdOf s f.cmd = some c → c.fin = none → finOf s' f.cmd = some (some errPeerLost))))
  ∧ (∀ (k p j : Nat) (s : State) (m : LinkMsg), peerOf s m.src = some j → PeersOk s →
    (Comes s k msgLinkIdle p m → peerState s j = peerKnown →
      (∀ q, q < 32 → isUp s q = true → flagF s f_LNK_PORT_PEER_VALID q = true → getF s f_LNK_PORT_PEER_CHIP q = m.src →
        q = p ∨ q ∈ (mget ⟨0, 0, []⟩ s.peers j).idle) → Gives (.linkIdle k) s (fun s' => peerState s' j = peerIdle))
    ∧ (Comes s k msgPeerNotice p m → bitAt m.aux 0 = true → peerState s j = peerKnown → s.colls = [] →
      Gives (.peerNotice k) s (fun s' => peerState s' j = peerReset))
    ∧ (Comes s k msgPeerNotice p m → bitAt m.aux 0 = false → peerState s j = peerReset →
      Gives (.peerNotice k) s (fun s' => peerState s' j = peerKnown)))
  ∧ (∀ (s : State),
    (due s s.lastHello (getF s f_LNK_CFG_HELLO_US * usTicks) = true → Gives .helloSend s (fun s' => s'.lastHello = s.now
      ∧ ∀ p, p < 32 → isUp s p = true → ∃ m ∈ heldMsgs (port s' p), m.type = msgHello ∧ m.tag = s.bootNonce))
    ∧ (due s s.lastAdvert (getF s f_LNK_CFG_ADVERT_MS * msTicks) = true → Gives .advertSend s (fun s' => s'.lastAdvert = s.now
      ∧ ∀ p, p < 32 → isUp s p = true → flagF s f_LNK_PORT_PEER_VALID p = true → advertList s ≠ [] →
        Sends s' msgAdvert 0 (getF s f_LNK_PORT_PEER_CHIP p)))
    ∧ (due s s.lastTime msTicks = true → flagF s f_LNK_STATUS_TIME_SYNC = true → Gives .timeSend s (fun s' => s'.lastTime = s.now
      ∧ ∀ p, p < 32 → isUp s p = true → flagF s f_LNK_PORT_PEER_VALID p = true →
        (timeMaster s = chipId s ∨ (timeParent s).map Prod.fst ≠ some p) →
        ∃ m ∈ heldMsgs (port s' p), m.type = msgTime ∧ m.addr = s.now.toNat)))
  ∧ (∀ (k p slot : Nat) (b : Bool) (s : State) (m : LinkMsg), Comes s k msgEncReq p m → p < 32 → isUp s p = true →
    linkSlot s p = some (slot, b) → keyDerives s slot keyLinkBit = true →
    let epoch := max (port s p).kepoch (m.addr % 2 ^ 32)
    let keyed := fun s' => flagF s' f_LNK_PORT_STAT_ENC p = true ∧ (port s' p).kepoch = epoch
      ∧ (port s' p).keys = linkKey s p slot epoch ∧ (port s' p).encAsked = none
    (bitAt m.aux 0 = true → (port s p).encAsked.isSome = true → Gives (.encReq k false) s keyed)
    ∧ (bitAt m.aux 0 = false → Gives (.encReq k false) s (fun s' => keyed s'
      ∧ ∃ x ∈ heldMsgs (port s' p), x.type = msgEncReq ∧ x.aux = 1 ∧ x.addr = epoch)))
  ∧ ∀ (k p h : Nat) (s : State) (m : LinkMsg), Comes s k msgTime p m → timeParent s = some (p, h) → timeMaster s ≠ chipId s → h ≤ 4 →
    let goal := m.addr + getF s f_LNK_PORT_STAT_DELAY_NS p / 4
    let d := signedOf (BitVec.ofNat 64 goal - s.now).toNat 64
    (s.synced = false → 0 < d → Gives (.time k) s (fun s' => s'.now = BitVec.ofNat 64 goal ∧ s'.synced = true
      ∧ flagF s' f_LNK_STATUS_TIME_SYNC = true))
    ∧ (s.synced = true → Gives (.time k) s (fun s' => s'.now = s.now ∧ s'.timeSlew = d)))
  ∧ (
  (∀ row ∈ [(Instr.init, 1), (.offer, 2), (.accept, 3), (.release, 4), (.reclaim, 5), (.custodyRead, 6)], ∀ (s : State),
    flagF s f_SILK_CUST_RESULT_BUSY = false →
    let home := getF s f_SILK_CUST_ARG_HOME
    (row.2 = 1 ∨ row.2 = 5 → home ≠ chipId s → Gives row.1 s (fun s' => getR s' r_SILK_CUST_RESULT = 3 ∧ s'.custOp = none))
    ∧ (home = chipId s → chipLost s home = false → Gives row.1 s (fun s' => flagF s' f_SILK_CUST_RESULT_BUSY = true
      ∧ s'.custOp.map (fun c => (c.op, c.home)) = some (row.2, home)
      ∧ ∃ m, s'.linkIn = s.linkIn ++ [(32, m)] ∧ m.type = msgCustody ∧ m.aux = row.2 ∧ m.dest = home
        ∧ m.addr = getR s r_SILK_CUST_ARG % 2 ^ 46 + getF s f_SILK_CUST_PEER_PEER * 2 ^ 46))
    ∧ (row.2 ≠ 1 → row.2 ≠ 5 → chipLost s home = false → home ≠ chipId s → Reach s home → Gives row.1 s (fun s' =>
      flagF s' f_SILK_CUST_RESULT_BUSY = true ∧ Sends s' msgCustody row.2 home)))
  ∧ (∀ (k p : Nat) (s : State) (m : LinkMsg), Comes s k msgCustody p m → bitAt m.aux 8 = false → m.src < 2 ^ 16 →
    (m.src ≠ chipId s → Reach s m.src) →
    let ctr := bitsOf m.addr 0 14
    let w := getR s r_SILK_CTR ctr
    let e := bitsOf m.addr 32 14
    let peer := bitsOf m.addr 46 16
    let op := m.aux % 16
    let q := m.src
    NoWaiter s ctr → w < 2 ^ 64 →
    (op = custInit → q = chipId s → Gives (.custody k) s (fun s' => CustodyAnswer s s' m 0 (custWord q q 0 1 custHeld)
      ∧ ctr ∈ s'.custody))
    ∧ (op = custInit → q ≠ chipId s → Gives (.custody k) s (fun s' => CustodyAnswer s s' m 2 w))
    ∧ (op ≠ custInit → ctr ∉ s.custody → Gives (.custody k) s (fun s' => CustodyAnswer s s' m 4 w))
    ∧ (ctr ∈ s.custody →
      (op = custRead → Gives (.custody k) s (fun s' => CustodyAnswer s s' m 0 w))
      ∧ (2 ≤ op → op ≤ 5 → e ≠ custEpoch w → Gives (.custody k) s (fun s' => CustodyAnswer s s' m 1 w))
      ∧ (e = custEpoch w →
        (op = custOffer → custState w = custHeld → custodian w = q →
          Gives (.custody k) s (fun s' => CustodyAnswer s s' m 0 (custWord (custHome w) q peer e custOffered)))
        ∧ (op = custOffer → custState w ≠ custHeld ∨ custodian w ≠ q →
          Gives (.custody k) s (fun s' => CustodyAnswer s s' m 2 w))
        ∧ (op = custAccept → custState w = custOffered → custPending w = q → Gives (.custody k) s (fun s' =>
          CustodyAnswer s s' m 0 (custWord (custHome w) q (custodian w) (if e = 16383 then 1 else e + 1) custAccepted)))
        ∧ (op = custRelease → (custState w = custAccepted ∧ custPending w = q) ∨ (custState w = custOffered ∧ custodian w = q) →
          Gives (.custody k) s (fun s' => CustodyAnswer s s' m 0 (custWord (custHome w) (custodian w) 0 e custHeld)))
        ∧ (op = custReclaim → q = chipId s → chipLost s (custodian w) = true ∨ chipLost s (custPending w) = true →
          Gives (.custody k) s (fun s' =>
            CustodyAnswer s s' m 0 (custWord (custHome w) (custHome w) 0 (if e = 16383 then 1 else e + 1) custHeld))))))
  ∧ (∀ (k p : Nat) (s : State) (m : LinkMsg) (c : CustOp), Comes s k msgCustody p m → bitAt m.aux 8 = true → s.custOp = some c →
    c.tag = m.tag → m.addr < 2 ^ 64 → Gives (.custody k) s (fun s' => getR s' r_SILK_CUST_RESULT = bitsOf m.aux 4 4
      ∧ getR s' r_SILK_CUST_WORD = m.addr ∧ s'.custOp = none))
  ∧ ∀ (s : State) (c : CustOp), s.custOp = some c → due s c.sent (20 * msTicks) = true →
    Gives .custodyUnreachable s (fun s' => getR s' r_SILK_CUST_RESULT = 6 ∧ s'.custOp = none))

/-! ## Firmware, instances and keys -/

/-- R358, R359, R437 to R443, R446 to R451, R517: SEND refuses a message or sends it on, with its routing bits rewritten; a message is
taken when its recipient's IN buffer is free, and discarded when its instar is stale; INST_CREATE grants an instance its ranges and
clears its window, counters and key slots; a reset fences the window and tears the contexts down, and ends with its registers
reset and its reply; a removal then clears the grants. -/
def Obligations.MailboxesAndInstances : Prop :=  (∀ (win : Nat) (s : State), win ≤ 32 → flagF s f_MBX_CTRL_SEND 0 win = false →
    let words := (List.range 16).map (fun k => getR s r_MBX_OUT_DATA k win)
    let w := getR s r_MBX_OUT_DATA 0 win
    let peer := bitsOf w 8 5
    let bad := bitAt w 15 = true ∨ bitAt w 14 = true ∨ w % 256 = 0 ∨ (bitAt w 13 = true ∧ 0x80 ≤ w % 256)
    let lost := win = 0 ∧ bitAt w 13 = false ∧ instExists s peer = false
    (winOpen s win = false ∨ bad ∨ lost → Gives (.mbxSend win) s (fun s' => flagF s' f_MBX_CTRL_REFUSED 0 win = true
      ∧ flagF s' f_MBX_CTRL_SEND 0 win = false ∧ s'.mail = s.mail))
    ∧ (winOpen s win = true → ¬ bad → ¬ lost → Gives (.mbxSend win) s (fun s' => flagF s' f_MBX_CTRL_SEND 0 win = true
      ∧ s'.mail = s.mail ++ [if bitAt w 13 then ⟨33, win, 0, words⟩
        else if win = 0 then
          ⟨peer + 1, 0, mailInstar s (peer + 1), (w % 256 + bitsOf w 16 16 * 2 ^ 16 + 2 ^ 14) :: words.drop 1⟩
        else ⟨0, win, 0, (w % 256 + bitsOf w 16 16 * 2 ^ 16 + (win - 1) * 2 ^ 8) :: words.drop 1⟩])))
  ∧ (∀ (win : Nat) (s : State) (m : Mail), s.mail.find? (fun m => m.dest = win) = some m → m.src ≤ 33 →
    (win = 33 → m.src ≤ 32 → (∀ q ∈ (s.fwq ++ [(⟨m.src, m.words⟩ : FwReq)]).head?, fwPermitted q = true) → Gives (.mbxDeliver win) s (fun s' =>
      s'.fwq = s.fwq ++ [(⟨m.src, m.words⟩ : FwReq)] ∧ s'.mail = s.mail.erase m ∧ flagF s' f_MBX_CTRL_SEND 0 m.src = false))
    ∧ (win = 33 → s.fwq = [] → fwPermitted ⟨m.src, m.words⟩ = false → winOpen s m.src = true →
      Gives (.mbxDeliver win) s (fun s' => Replies s' ⟨m.src, m.words⟩ [] fwBadMsg []))
    ∧ (win ≤ 32 → (win ≠ 0 → m.instar = mailInstar s win) → winOpen s win = true → flagF s f_MBX_CTRL_IN_VALID 0 win = false →
      Gives (.mbxDeliver win) s (fun s' => (∀ k, k < 16 → getR s' r_MBX_IN_DATA k win = m.words.getD k 0 % 2 ^ 64)
        ∧ flagF s' f_MBX_CTRL_IN_VALID 0 win = true ∧ s'.mail = s.mail.erase m
        ∧ (m.src ≤ 32 → flagF s' f_MBX_CTRL_SEND 0 m.src = false)
        ∧ s'.msix = if flagF s f_MBX_CTRL_IRQ_EN 0 win then s.msix ++ [(win, getF s f_MBX_CTRL_VECTOR 0 win)] else s.msix))
    ∧ (win ≤ 32 → win ≠ 0 → m.instar ≠ mailInstar s win → Gives (.mbxDeliver win) s (fun s' => s'.mail = s.mail.erase m
      ∧ getR s' r_CMP_STALE = (getR s r_CMP_STALE + 1) % 2 ^ 64
      ∧ ∀ k, k < 16 → getR s' r_MBX_IN_DATA k win = getR s r_MBX_IN_DATA k win))
    ∧ (win ≤ 32 → (win ≠ 0 → m.instar = mailInstar s win) → winOpen s win = true → flagF s f_MBX_CTRL_IN_VALID 0 win = true →
      Gives (.mbxDeliver win) s (fun s' => s' = s)))
  ∧ (∀ (win : Nat) (s : State), winOpen s win = true → Gives (.mbxInRelease win) s (fun s' =>
    flagF s' f_MBX_CTRL_IN_VALID 0 win = false ∧ s'.mail = s.mail))
  ∧ (∀ (qb sb kb : Nat) (s : State) (r : FwReq) (rest : List FwReq),
    Handles s r 0x01 [0x11F, 0x1FFFF, 0x7F, 0x7FFF, 0x1FF] rest → r.win = 0 →
    let i := r.word 1 % 32
    let q := r.word 2
    let slots := r.word 3
    let silk := r.word 4
    let keys := r.word 5
    let inRange := 1 ≤ q ∧ q ≤ 65536 ∧ 1 ≤ slots ∧ slots ≤ 64 ∧ silk ≤ 16384 ∧ keys ≤ 256
    let fits := instSum s f_SCH_INST_SLOTS + slots ≤ 64 ∧ rangeExists (queueRanges s) 65536 q = true
      ∧ rangeExists (silkRanges s) 16384 silk = true ∧ rangeExists (keyRanges s) 256 keys = true
    let fails := fun code => Gives (.instCreate qb sb kb) s (fun s' => Replies s' r rest code [] ∧ s'.regs = s.regs)
    (¬ inRange → fails fwBadMsg)
    ∧ (inRange → mfind s.instResets i = none → instExists s i = true → fails fwExists)
    ∧ (inRange → mfind s.instResets i = none → instExists s i = false → s.numVfs ≤ i → fails fwVfDisabled)
    ∧ (inRange → mfind s.instResets i = none → instExists s i = false → i < s.numVfs → ¬ fits → fails fwNoSpace)
    ∧ (inRange → mfind s.instResets i = none → instExists s i = false → i < s.numVfs → fits →
      rangeFree (queueRanges s) 65536 qb q = true → rangeFree (silkRanges s) 16384 sb silk = true →
      rangeFree (keyRanges s) 256 kb keys = true → sb < 16384 → kb < 256 → instarReady s (.inst i) = true →
      mget 0 s.instarDue (Unit8.inst i).key = 0 → Gives (.instCreate qb sb kb) s (fun s' =>
        Replies s' r rest fwOk [qb, sb, kb] ∧ instExists s' i = true ∧ flagF s' f_SEC_INST_WORLD i = bitAt (r.word 1) 8
        ∧ (getF s' f_SCH_INST_Q_BASE i, getF s' f_SCH_INST_Q_COUNT i, getF s' f_SCH_INST_SLOTS i) = (qb, q, slots)
        ∧ (getF s' f_SILK_RANGE_BASE i, getF s' f_SILK_RANGE_SIZE i) = (sb, silk)
        ∧ (getF s' f_SEC_INST_KEY_BASE i, getF s' f_SEC_INST_KEY_COUNT i) = (kb, keys)
        ∧ getF s' f_CMP_EPOCH_EPOCH i = 0 ∧ getF s' f_CMP_EPOCH_STATE i = 1
        ∧ instarOf s' (.inst i) = (instarOf s (.inst i) + 1) % 256
        ∧ (∀ k, sb ≤ k → k < sb + silk → getR s' r_SILK_CTR k = 0)
        ∧ (∀ k, kb ≤ k → k < kb + keys → getR s' r_SEC_KEY_ATTR k = 0)
        ∧ getR s' r_QOS_IMG_MISS i = 0 ∧ getR s' r_QOS_IMG_DEMOTE i = 0 ∧ getR s' r_CMP_PLACE_MISS i = 0
        ∧ ∀ k, k / windowSpan = i + 1 → mfind s'.regs k = none)))
  ∧ (∀ (s : State) (r : FwReq) (rest : List FwReq), r.win = 0 → resetHeld s = false → SlotsOk s →
    let i := r.word 1 % 32
    (Handles s r 0x02 [0x1F] rest →
      (instExists s i = false → Gives .instReset s (fun s' => Replies s' r rest fwNoInstance []))
      ∧ (instExists s i = true → (mfind s.instResets i).isSome = true → Gives .instReset s (fun s' => Replies s' r rest fwBusy []))
      ∧ (instExists s i = true → mfind s.instResets i = none →
        Gives .instReset s (fun s' => s'.fwq = s.fwq ∧ ResetBegun s s' i 1 false)))
    ∧ (Handles s r 0x03 [0x1F] rest →
      (instExists s i = false → Gives .instRemove s (fun s' => Replies s' r rest fwNoInstance []))
      ∧ (instExists s i = true → mfind s.instResets i = none →
        Gives .instRemove s (fun s' => s'.fwq = s.fwq ∧ ResetBegun s s' i 1 true))
      ∧ (instExists s i = true → (mfind s.instResets i).map InstReset.remove = some false →
        Gives .instRemove s (fun s' => s' = s))))
  ∧ (∀ (i : Nat) (s : State) (x : InstReset), i < 32 → mfind s.instResets i = some x →
    (x.phase = 0 → (∀ kv ∈ s.ctxs, kv.2.inst ≠ i) → mget 0 s.instarDue (Unit8.inst i).key = 0 → fenced s i = false →
      let lo := getF s f_SILK_RANGE_BASE i
      (x.remove = false → Gives (.instResetDone i) s (fun s' => mfind s'.instResets i = none
        ∧ flagF s' f_SEC_INST_RESETTING i = false ∧ (∀ k, k / windowSpan = i + 1 → mfind s'.regs k = none)
        ∧ (∀ k, lo ≤ k → k < lo + getF s f_SILK_RANGE_SIZE i → getR s' r_SILK_CTR k = 0)
        ∧ (NoneWaits s → ∀ e, (track s e).inst = i → (track s e).used = true → (track s' e).used = false)
        ∧ (∀ r rest, x.reply = 1 → r.win = 0 → s.fwq = r :: rest → (∀ q ∈ rest.head?, fwPermitted q = true) →
          Replies s' r rest fwOk [])
        ∧ (x.reply = 2 → s'.mail.getLast? = some ⟨0, 33, 0, [0x40 + 2 ^ 13, i] ++ List.replicate 14 0⟩)))
      ∧ (x.remove = true → Gives (.instResetDone i) s (fun s' => (mfind s'.instResets i).map InstReset.phase = some 1
        ∧ getR s' r_SILK_RANGE i = 0 ∧ getR s' r_SCH_INST i = 0
        ∧ (∀ k, getF s f_SEC_INST_KEY_BASE i ≤ k → k < getF s f_SEC_INST_KEY_BASE i + getF s f_SEC_INST_KEY_COUNT i →
          getR s' r_SEC_KEY_ATTR k = 0 ∧ mfind s'.keyMat k = none)
        ∧ ∀ k, k < 256 → flagF s' f_SILK_IMPORT_VALID k = true → getF s' f_SILK_IMPORT_LOCAL_INST k ≠ i)))
    ∧ (x.phase = 1 → (imago s i).leaveCores = [] → (imago s i).leaveLinks = [] → mget 0 s.instarDue (Unit8.inst i).key = 0 →
      Gives (.instResetDone i) s (fun s' => mfind s'.instResets i = none ∧ instExists s' i = false ∧ getR s' r_CMP_EPOCH i = 0
        ∧ ∀ r rest, x.reply = 1 → r.win = 0 → s.fwq = r :: rest → (∀ q ∈ rest.head?, fwPermitted q = true) →
          Replies s' r rest fwOk [])))
  ∧ (∀ (i n : Nat) (s : State), SlotsOk s →
    (instExists s i = true → mfind s.instResets i = none → Gives (.vfFlr i) s (fun s' => ResetBegun s s' i 2 false))
    ∧ (instExists s i = false ∨ (mfind s.instResets i).isSome = true → Gives (.vfFlr i) s (fun s' => s' = s))
    ∧ (n ≤ 32 → Gives (.numvfsLower n) s (fun s' => s'.numVfs = n
      ∧ (∀ j, n ≤ j → j < 32 → instExists s j = true → (mfind s'.instResets j).map InstReset.remove = some true)
      ∧ ∀ j, j < n → mfind s'.instResets j = mfind s.instResets j))
    ∧ Gives .pfFlr s (fun s' => s'.numVfs = 0 ∧ (∀ m ∈ s'.mail, m.dest ≠ 0 ∧ m.src ≠ 0)
      ∧ (∀ k, windowKey 0 k = true → mfind s'.regs k = none)
      ∧ (∀ j, j < 32 → instExists s j = true → (mfind s'.instResets j).map InstReset.remove = some true)
      ∧ ∀ c x, ctxOf s c = some x → 32 ≤ x.inst → x.down = none → (ctxOf s' c).bind Ctx.down = some (errProducerLost, s.now)))

/-- R445, R446, R453 to R459, R462 to R464, R466: the requests of IMAGO_INFO, ATTEST and CERT_READ, of the key store, and of
CVK_UPDATE, TIME_SET and REGION_SET have their effect and are answered OK; a slot that is another's, BAD, empty, filled, or of another
use is answered NOT_OWNER, KEY_BAD, KEY_EMPTY or KEY_USE; a tag or a signature that fails, TAG_FAIL or SIG_INVALID; a slot whose own
tag fails becomes BAD. -/
def Obligations.FirmwareRequests : Prop :=  (∀ (s : State) (r : FwReq) (rest : List FwReq), Handles s r 0x05 (if r.win = 0 then [0x1F] else []) rest →
    let i := if r.win = 0 then r.word 1 % 32 else r.win - 1
    (instExists s i = false → Gives .imagoInfo s (fun s' => Replies s' r rest fwNoInstance []))
    ∧ (instExists s i = true → Gives .imagoInfo s (fun s' => Replies s' r rest fwOk [getR s r_CMP_EPOCH i,
      countOf (List.range 144) (fun c => coreBound s i c)
        + countOf (List.range 144) (fun c => coreBound s i c && flagF s f_CMP_CORE_AWAKE c) * 2 ^ 8
        + countOf (List.range 256) (fun k => flagF s f_CMP_SLIST_VALID (256 * i + k)) * 2 ^ 16
        + countOf (List.range 32) (fun p => getF s f_CMP_LINK_STATE p = 2 && getF s f_CMP_LINK_INSTANCE p = i) * 2 ^ 25,
      getF s f_CMP_IMG_RB_RB i, getF s f_SCH_INST_SLOTS i, getF s f_SCH_INST_Q_COUNT i, getF s f_SILK_RANGE_SIZE i,
      getF s f_SEC_INST_KEY_COUNT i + getF s f_SEC_INST_KEY_BASE i * 2 ^ 16 + getF s f_SEC_INST_WORLD i * 2 ^ 24
        + getF s f_SEC_INST_MEM_XTS i * 2 ^ 25])))
  ∧ (∀ (s : State) (r : FwReq) (rest : List FwReq),
    Handles s r 0x06 ([allBits, allBits, if r.win = 0 then 0xFF else 0] ++ List.replicate 12 allBits) rest → r.wide 1 % 64 = 0 →
    let i := if r.win = 0 then r.word 3 % 256 else r.win - 1
    let a := r.wide 1
    let nonce := ((List.range 12).map (fun k => leBytes 4 (r.word (4 + k)))).flatten
    (i < 32 ∧ instExists s i = true ∨ i = 0xFF) →
    (certUsable s = false → Gives .attest s (fun s' => Replies s' r rest fwTimeInvalid [] ∧ s'.host = s.host))
    ∧ (certUsable s = true → a + 512 ≤ 2 ^ 64 → Gives .attest s (fun s' => Replies s' r rest fwOk []
      ∧ memBytes s'.host a 24 = leBytes 4 0x54544142 ++ leBytes 2 1 ++ leBytes 2 512 ++ leBytes 8 (getR s r_CHIP_SERIAL)
        ++ leBytes 2 (chipId s) ++ leBytes 1 (getR s r_CHIP_STEPPING) ++ leBytes 1 i
        ++ leBytes 1 (if i < 32 then getF s f_SEC_INST_WORLD i else 0) ++ List.replicate 3 0
      ∧ memBytes s'.host (a + 0x18) 64 = leBytes 8 s.rtc.secs ++ leBytes 4 (getR s r_RTC_HOURS)
        ++ leBytes 2 (if i < 32 then getF s f_CMP_EPOCH_EPOCH i else 0)
        ++ leBytes 2 (getF s f_RTC_STATUS_VALID + (if i < 32 then 2 * getF s f_SEC_INST_MEM_XTS i else 0)
          + 4 * getF s f_RST_STATE_OUT_OF_SERVICE) ++ nonce)))
  ∧ (∀ (s : State) (r : FwReq) (rest : List FwReq), Handles s r 0x07 [allBits, allBits, allBits] rest →
    let n := s.flash.certs.length
    (r.word 3 < n → Gives .certRead s (fun s' => Replies s' r rest fwAddress [] ∧ s'.host = s.host))
    ∧ (n ≤ r.word 3 → r.wide 1 + n ≤ 2 ^ 64 → Gives .certRead s (fun s' => Replies s' r rest fwOk [n]
      ∧ memBytes s'.host (r.wide 1) n = s.flash.certs)))
  ∧ (∀ (bad : List Nat) (s : State) (r : FwReq) (rest : List FwReq), Handles s r 0x08 [0xFF, allBits] rest →
    let k := r.word 1
    let w := r.word 2
    (attrOk w = false → Gives (.keyGen bad) s (fun s' => Replies s' r rest fwBadMsg []))
    ∧ (attrOk w = true → keyOwned s r.inst k = true → keyValid s k = false → keyIsBad s k = false →
      Gives (.keyGen bad) s (fun s' => Replies s' r rest fwOk [] ∧ ∃ mat, mat.length = 8 * bitsOf w 2 6 ∧ Loaded s' r k w true mat))
    ∧ (attrOk w = true → keyOwned s r.inst k = false → k ∉ bad →
      Gives (.keyGen bad) s (fun s' => Replies s' r rest fwNotOwner [] ∧ s'.keyMat = s.keyMat))
    ∧ (attrOk w = true → keyOwned s r.inst k = true → keyValid s k = true → keyIsBad s k = false → k ∉ bad →
      Gives (.keyGen bad) s (fun s' => Replies s' r rest fwKeyEmpty [] ∧ s'.keyMat = s.keyMat))
    ∧ (attrOk w = true → keyOwned s r.inst k = true → keyValid s k = true → keyIsBad s k = false → k ∈ bad →
      Gives (.keyGen bad) s (fun s' => Replies s' r rest fwKeyBad [] ∧ keyIsBad s' k = true ∧ mfind s'.keyMat k = none
        ∧ getR s' r_SEC_KEY_BAD = (getR s r_SEC_KEY_BAD + 1) % 2 ^ 64
        ∧ (⟨0, 33, 0, [0x41 + 2 ^ 13, k] ++ List.replicate 14 0⟩ : Mail) ∈ s'.mail)))
  ∧ (∀ (s : State) (r : FwReq) (rest : List FwReq), Handles s r 0x09 [0xFFFF, allBits, allBits] rest →
    let k := r.word 1 % 256
    let wk := r.word 1 / 256
    (∀ e, sourceErr s r wk (fun a => bitsOf a 0 2 = useWrap) = some e →
      Gives (.keyImport []) s (fun s' => Replies s' r rest e [] ∧ s'.keyMat = s.keyMat))
    ∧ (∀ b, sourceErr s r wk (fun a => bitsOf a 0 2 = useWrap) = none → targetErr s r k = none → fwRead s (r.wide 2) 112 = some b →
      let w := leNat ((b.drop 4).take 4)
      let opened := Config.gcmOpen (keyBytes s wk) ((b.drop 16).take 12) (b.take 32) (b.drop 32)
      (opened = none → Gives (.keyImport []) s (fun s' => Replies s' r rest fwTagFail [] ∧ s'.keyMat = s.keyMat))
      ∧ (∀ plain, opened = some plain → leNat (b.take 4) = 0x59454B42 → attrOk (Nat.land w 0xC0FFF4FF) = true →
        leNat ((b.drop 28).take 4) = 0 → Gives (.keyImport []) s (fun s' => Replies s' r rest fwOk []
          ∧ Loaded s' r k w false (plain.take (8 * bitsOf w 2 6))))))
  ∧ (∀ (s : State) (r : FwReq) (rest : List FwReq), Handles s r 0x0A [0xFFFF, allBits, allBits] rest →
    let k := r.word 1 % 256
    let wk := r.word 1 / 256
    let a := r.wide 2
    (∀ e, sourceErr s r wk (fun a => bitsOf a 0 2 = useWrap) = none → sourceErr s r k (fun a => bitAt a 10) = some e →
      Gives (.keyExport []) s (fun s' => Replies s' r rest e [] ∧ s'.host = s.host))
    ∧ (sourceErr s r wk (fun a => bitsOf a 0 2 = useWrap) = none → sourceErr s r k (fun a => bitAt a 10) = none → a + 112 ≤ 2 ^ 64 →
      Gives (.keyExport []) s (fun s' => Replies s' r rest fwOk [] ∧ ∃ iv, iv.length = 12 ∧
        let head := leBytes 4 0x59454B42 ++ leBytes 4 (keyAttr s k) ++ leBytes 8 (getR s r_CHIP_SERIAL) ++ iv ++ leBytes 4 0
        let mat := keyBytes s k
        let blob := head ++ Config.gcmSeal (keyBytes s wk) iv head (mat ++ List.replicate (64 - mat.length) 0)
        memBytes s'.host a blob.length = blob)))
  ∧ (∀ (s : State) (r : FwReq) (rest : List FwReq), Handles s r 0x0B ([0xFFFF, allBits, 0x3F] ++ List.replicate 10 allBits) rest →
    let k := r.word 1 % 256
    let dk := r.word 1 / 256
    let w := r.word 2
    let info := ((List.range 10).map (fun j => leBytes 4 (r.word (4 + j)))).flatten
    r.word 3 ≤ 40 → (∀ x ∈ info.drop (r.word 3), x = 0) → attrOk w = true →
    (∀ e, sourceErr s r dk (fun a => bitsOf a 0 2 = useDerive && bitAt a 18) = some e →
      Gives (.keyDerive []) s (fun s' => Replies s' r rest e [] ∧ s'.keyMat = s.keyMat))
    ∧ (sourceErr s r dk (fun a => bitsOf a 0 2 = useDerive && bitAt a 18) = none → targetErr s r k = none →
      Gives (.keyDerive []) s (fun s' => Replies s' r rest fwOk [] ∧ Loaded s' r k w true
        (Config.hkdf (keyBytes s dk) (leBytes 8 (getR s r_CHIP_SERIAL)) (info.take (r.word 3)) (8 * bitsOf w 2 6)))))
  ∧ (∀ (s : State) (r : FwReq) (rest : List FwReq), Handles s r 0x0C [0xFF] rest →
    (keyOwned s r.inst (r.word 1) = true → Gives .keyErase s (fun s' => Replies s' r rest fwOk []
      ∧ getR s' r_SEC_KEY_ATTR (r.word 1) = 0 ∧ mfind s'.keyMat (r.word 1) = none))
    ∧ (keyOwned s r.inst (r.word 1) = false → Gives .keyErase s (fun s' => Replies s' r rest fwNotOwner [] ∧ s'.keyMat = s.keyMat)))
  ∧ (∀ (s : State) (r : FwReq) (rest : List FwReq) (b : List Byte),
    Handles s r 0x0D [0xFF, allBits, allBits, allBits, allBits, 0x1FFF, allBits, allBits, allBits] rest →
    let k := r.word 1
    let n := r.word 6
    let iv := ((List.range 3).map (fun j => leBytes 4 (r.word (7 + j)))).flatten
    1 ≤ n → n ≤ 4096 → sourceErr s r k (fun a => bitsOf a 0 2 = useEncrypt || bitsOf a 0 2 = useDecrypt) = none →
    (keyUse s k = useEncrypt → fwRead s (r.wide 2) n = some b → r.wide 4 + (n + 16) ≤ 2 ^ 64 →
      Gives (.keyCrypt []) s (fun s' => Replies s' r rest fwOk [] ∧
        memBytes s'.host (r.wide 4) (Config.gcmSeal (keyBytes s k) iv [] b).length = Config.gcmSeal (keyBytes s k) iv [] b))
    ∧ (keyUse s k = useDecrypt → fwRead s (r.wide 2) (n + 16) = some b → r.wide 4 + n ≤ 2 ^ 64 →
      (Config.gcmOpen (keyBytes s k) iv [] b = none →
        Gives (.keyCrypt []) s (fun s' => Replies s' r rest fwTagFail [] ∧ s'.host = s.host))
      ∧ ∀ plain, Config.gcmOpen (keyBytes s k) iv [] b = some plain → Gives (.keyCrypt []) s (fun s' => Replies s' r rest fwOk []
        ∧ memBytes s'.host (r.wide 4) plain.length = plain)))
  ∧ (∀ (s : State) (r : FwReq) (rest : List FwReq) (bytes : List Byte), r.win = 0 → fwRead s (r.wide 1) 224 = some bytes →
    let b := blobOf s bytes
    let signed := cvkValid s b.signer = true ∧ b.serial = getR s r_CHIP_SERIAL ∧ b.sigOk = true
    (Handles s r 0x0E [allBits, allBits] rest → b.magic = 0x4B564342 → 1 ≤ b.index → b.index ≤ 15 → b.zero = 0 → b.rsvd = 0 →
      (b.op = 1 → b.body.headD 0 = 4 → b.signer ≠ b.index → signed → s.flash.seq < b.seq → Gives .cvkUpdate s (fun s' =>
        Replies s' r rest fwOk [] ∧ cvkValid s' b.index = true ∧ s'.flash.seq = b.seq ∧ mfind s'.cvks b.index = some b.body
        ∧ getF s' f_SEC_CVK_DIGEST b.index = leNat ((Config.sha384 b.body).take 4)))
      ∧ (b.op = 2 → (∀ x ∈ b.body, x = 0) → b.signer ≠ b.index → signed → s.flash.seq < b.seq → Gives .cvkUpdate s (fun s' =>
        Replies s' r rest fwOk [] ∧ cvkValid s' b.index = false ∧ flagF s' f_SEC_CVK_REVOKED b.index = true ∧ s'.flash.seq = b.seq))
      ∧ (b.op = 2 → (∀ x ∈ b.body, x = 0) → b.signer = b.index ∨ ¬ signed ∨ b.seq ≤ s.flash.seq → Gives .cvkUpdate s (fun s' =>
        Replies s' r rest fwSigInvalid [] ∧ s'.flash = s.flash ∧ s'.regs = s.regs)))
    ∧ (Handles s r 0x0F [allBits, allBits] rest → b.magic = 0x4D495442 → b.op = 0 → b.index = 0 → b.zero = 0 → b.rsvd = 0 →
      (∀ x ∈ b.body.drop 8, x = 0) →
      (¬ signed → Gives .timeSet s (fun s' => Replies s' r rest fwSigInvalid [] ∧ s'.rtc = s.rtc))
      ∧ (signed → b.seq ≤ s.flash.seq → Gives .timeSet s (fun s' => Replies s' r rest fwTimeInvalid [] ∧ s'.rtc = s.rtc))
      ∧ (signed → s.flash.seq < b.seq → Gives .timeSet s (fun s' => Replies s' r rest fwOk [] ∧ s'.flash.seq = b.seq
        ∧ s'.rtc.secs = leNat (b.body.take 8) % 2 ^ 48 ∧ s'.rtc.frac = 0 ∧ flagF s' f_RTC_STATUS_VALID = true))))
  ∧ ∀ (s : State) (r : FwReq) (rest : List FwReq), Handles s r 0x10 [0x33F, 0xFFFFF000, 0xFFFF, 0xFFFFF000, 0xFFFF] rest → r.win = 0 →
    let d := r.word 1 % 64
    let secure := ∃ i, i < 32 ∧ instExists s i = true ∧ flagF s f_SEC_INST_WORLD i = true
    (d < 16 → Gives .regionSet s (fun s' => Replies s' r rest fwBadMsg [] ∧ s'.regs = s.regs))
    ∧ (16 ≤ d → secure → Gives .regionSet s (fun s' => Replies s' r rest fwBusy [] ∧ s'.regs = s.regs))
    ∧ (16 ≤ d → ¬ secure → Gives .regionSet s (fun s' => Replies s' r rest fwOk []
      ∧ getR s' r_SEC_REGION_BASE d = r.wide 2 + bitsOf (r.word 1) 8 2 ∧ getR s' r_SEC_REGION_LIMIT d = r.wide 4))

/-! ## Clock, power and temperature -/

/-- R466 to R468: RTC_SET sets an invalid clock; RTC_ADJ slews a valid one within 2,000 ms in 24 hours, or is refused; SLEW_COMPLETE
ends a slew; HOURS_TICK counts and mirrors an hour; VBAT_SAMPLE shows a low battery; OSC_STOP restarts the clock from the mirror,
invalid. -/
def Obligations.CalendarClock : Prop :=  (∀ (v : Nat) (s : State),
    (flagF s f_RTC_STATUS_VALID = false → Gives (.rtcSet v) s (fun s' => (s'.rtc.secs, s'.rtc.frac) = (v % 2 ^ 48, 0)
      ∧ flagF s' f_RTC_STATUS_VALID = true))
    ∧ (flagF s f_RTC_STATUS_VALID = true → Gives (.rtcSet v) s (fun s' => s' = s)))
  ∧ (∀ (v : Nat) (s : State),
    let ms := signedOf v 16
    let fits := flagF s f_RTC_STATUS_VALID = true ∧ flagF s f_RTC_STATUS_SLEWING = false ∧ ms.natAbs ≤ 2000
      ∧ ((s.rtc.adjs.filter (fun a => decide (s.rtc.secs < a.1 + 86400))).map Prod.snd).sum + ms.natAbs ≤ 2000
    (fits → Gives (.rtcAdj v) s (fun s' => flagF s' f_RTC_STATUS_SLEWING = true ∧ s'.rtc.slew = ms * 1000000000
      ∧ s'.rtc.secs = s.rtc.secs ∧ flagF s' f_RTC_STATUS_ADJ_REFUSED = flagF s f_RTC_STATUS_ADJ_REFUSED))
    ∧ (¬ fits → Gives (.rtcAdj v) s (fun s' => flagF s' f_RTC_STATUS_ADJ_REFUSED = true ∧ s'.rtc = s.rtc)))
  ∧ ∀ (mv : Nat) (s : State),
    (flagF s f_RTC_STATUS_SLEWING = true → s.rtc.slew = 0 → Gives .slewComplete s (fun s' =>
      flagF s' f_RTC_STATUS_SLEWING = false ∧ s'.rtc = s.rtc))
    ∧ (3600 ≤ s.rtc.service → Gives .hoursTick s (fun s' => getR s' r_RTC_HOURS = min (getR s r_RTC_HOURS + 1) (2 ^ 32 - 1)
      ∧ s'.rtc.mirror = s.rtc.secs ∧ s'.rtc.mirrorHours = getR s' r_RTC_HOURS ∧ s'.rtc.service = s.rtc.service - 3600))
    ∧ (due s s.rtc.sampled (60 * secTicks) = true → Gives (.vbatSample mv) s (fun s' =>
      flagF s' f_RTC_STATUS_BATT_LOW = decide (mv < 2500)))
    ∧ Gives .oscStop s (fun s' => (s'.rtc.secs, s'.rtc.frac, s'.rtc.slew) = (s.rtc.mirror, 0, 0)
      ∧ getR s' r_RTC_HOURS = s.rtc.mirrorHours % 2 ^ 64 ∧ flagF s' f_RTC_STATUS_VALID = false
      ∧ flagF s' f_RTC_STATUS_VBAT_LOST = true)

/-- R402, R473 to R482, R484, R495, R496, R528: the arbiter grants each core a frequency from F_LOW up to its limits, and a lowering acts
at once; a raise follows its wing's voltage, and droops and dips hold it; a domain limits while its current exceeds its limit;
calibrations count at 20% of the rated current; a lower cap waits for running collective actions, at most 2 ms; a dip stops
issue until 1 ms above 1.74 V and the ramp; a re-plan lowers FMAX or raises VOFS; a write of PWR_EVT or RST_EVT clears its bits. -/
def Obligations.PowerManagement : Prop :=  (∀ (acts : List Nat) (dom : List (Nat × Nat)) (avgW : Nat) (s : State), flagF s f_RST_STATE_READY = true →
    due s s.power.arbAt (10 * usTicks) = true → s.power.preCap = [] → PoolOk s →
    Gives (.arbitrate acts dom avgW) s (fun s' => s'.power.arbAt = s.now
      ∧ getF s' f_PWR_PKG_POWER_AVG_W = min 4095 avgW
      ∧ (∀ c, c < getF s f_CHIP_CAP_CORE_ENABLED → 64 ≤ getF s' f_PWR_CORE_FREQ_GRANT c
        ∧ getF s' f_PWR_CORE_FREQ_GRANT c ≤ max 64 (min (hardLimit s c) (getF s f_PWR_CORE_FCAP_STEPS c))
        ∧ (awake s c = true → getF s' f_PWR_CORE_FREQ_STEPS c = min (getF s f_PWR_CORE_FREQ_STEPS c) (getF s' f_PWR_CORE_FREQ_GRANT c)))
      ∧ (∀ d, d < 36 → (getF s' f_PWR_DOM_STAT_AMPS d, getF s' f_PWR_DOM_STAT_MV d) =
        ((dom.getD d (0, 0)).1 % 2 ^ 12, (dom.getD d (0, 0)).2 % 2 ^ 12))))
  ∧ (∀ (w : Nat) (t : DWord) (s : State), w < 8 → PoolOk s →
    (let target := wingMv s w (fun c => max (stepsOf s c) (raiseTo s c))
    mfind s.power.slew w = some t → (target - getF s f_THM_WING_VCORE_MV w) * usTicks ≤ since s t * 5 →
    Gives (.voltageReached w) s (fun s' => mfind s'.power.slew w = none
      ∧ getF s' f_THM_WING_VCORE_MV w = max (getF s f_THM_WING_VCORE_MV w) target % 2 ^ 12
      ∧ ∀ c ∈ wingCores s w, awake s c = true → stepsOf s' c = max (stepsOf s c) (raiseTo s c)))
    ∧ (mfind s.power.lowAt w = some t → due s t (10 * usTicks) = true → mfind s.power.slew w = none → Gives (.voltageLowering w) s (fun s' =>
      getF s' f_THM_WING_VCORE_MV w = min (getF s f_THM_WING_VCORE_MV w) (wingMv s w (stepsOf s)) ∧ mfind s'.power.lowAt w = none))
    ∧ (stepHeld s w = true → chipStopped s = false → due s (mget 0 s.power.holdFrom w) (50 * usTicks) = true →
      Gives (.raiseHoldExpiry w) s (fun s' => stepHeld s' w = false
        ∧ (wantsRaise s w = true → (mfind s'.power.slew w).isSome = true)))
    ∧ (stepHeld s w = true → chipStopped s = false → due s (mget 0 s.power.holdFrom w) (50 * usTicks) = false →
      Gives (.raiseHoldExpiry w) s (fun s' => s' = s)))
  ∧ (∀ (c : Nat) (s : State), PoolOk s →
    (c < getF s f_CHIP_CAP_CORE_ENABLED → awake s c = true → Gives (.droopEvent c) s (fun s' => c ∈ s'.power.droops
      ∧ getR s' r_PWR_DOM_DROOP (wingOf s c) = (getR s r_PWR_DOM_DROOP (wingOf s c) + 1) % 2 ^ 64
      ∧ stepHeld s' (wingOf s c) = true ∧ mfind s'.power.holdFrom (wingOf s c) = some s.now ∧ mfind s'.power.slew (wingOf s c) = none))
    ∧ Gives (.droopEnd c) s (fun s' => c ∉ s'.power.droops ∧ ∀ d, d ≠ c → d ∈ s.power.droops → d ∈ s'.power.droops))
  ∧ (∀ (d amps : Nat) (s : State), d < 36 →
    (getF s f_PWR_DOM_ILIM_AMPS d < amps → Gives (.ilimExceed d amps) s (fun s' => flagF s' f_PWR_DOM_STAT_LIMITING d = true
      ∧ flagF s' f_PWR_STATUS_ILIM_ACTIVE = true))
    ∧ (amps ≤ getF s f_PWR_DOM_ILIM_AMPS d → Gives (.limitingEnd d amps) s (fun s' => flagF s' f_PWR_DOM_STAT_LIMITING d = false
      ∧ (flagF s' f_PWR_STATUS_ILIM_ACTIVE = true ↔ ∃ k, k < 36 ∧ k ≠ d ∧ flagF s f_PWR_DOM_STAT_LIMITING k = true)))
    ∧ (amps ≤ getF s f_PWR_DOM_ILIM_AMPS d → Gives (.ilimExceed d amps) s (fun s' => s' = s))
    ∧ (getF s f_PWR_DOM_ILIM_AMPS d < amps → Gives (.limitingEnd d amps) s (fun s' => s' = s)))
  ∧ (∀ (energy : List (Nat × Nat × Nat)) (s : State),
    (flagF s f_RST_STATE_READY = true → due s s.power.calAt msTicks = true → Gives (.calibrate energy) s (fun s' => s'.power.calAt = s.now
      ∧ ∀ w, w < 8 → getF s f_CHIP_CAP_WING_ENABLED w ≠ 0 →
        let e := energy.getD w (0, 0, 0)
        mget [] s'.power.hist w = if e.2.2 < 56 ∨ e.2.1 = 0 then mget [] s.power.hist w
          else (10000 * e.1 / e.2.1 :: mget [] s.power.hist w).take 10))
    ∧ Gives .calRestart s (fun s' => (s'.power.coefs, s'.power.hist, s'.power.counted) = ([], [], [])
      ∧ flagF s' f_PWR_CAL_CAL_DONE = false ∧ flagF s' f_PWR_CAL_FACTORY = true))
  ∧ (∀ (v c : Nat) (s : State), PoolOk s →
    (let w := v % 4096
    1000 ≤ w → w ≤ 3200 → Gives (.pwrPkgCapWrite v) s (fun s' => getF s' f_PWR_PKG_CAP_WATTS = w
      ∧ (w < getF s f_PWR_PKG_CAP_WATTS → ∀ k, k < getF s f_CHIP_CAP_CORE_ENABLED → capHeld s k = true →
        flagF s' f_PWR_STATUS_CAP_PENDING = true ∧ flagF s' f_PWR_CORE_FREQ_DEFERRED k = true
        ∧ (mfind s.power.preCap k = none → mfind s'.power.preCap k = some (grantOf s k)))))
    ∧ (v % 4096 < 1000 ∨ 3200 < v % 4096 → Gives (.pwrPkgCapWrite v) s (fun s' => s' = s))
    ∧ (let n := v % 256
    c < 144 → 64 ≤ n → n ≤ 184 → Gives (.pwrCoreFcapWrite c v) s (fun s' => getF s' f_PWR_CORE_FCAP_STEPS c = n
      ∧ (n < getF s f_PWR_CORE_FCAP_STEPS c → capHeld s c = true → flagF s' f_PWR_STATUS_CAP_PENDING = true
        ∧ flagF s' f_PWR_CORE_FREQ_DEFERRED c = true)))
    ∧ (144 ≤ c ∨ v % 256 < 64 ∨ 184 < v % 256 → Gives (.pwrCoreFcapWrite c v) s (fun s' => s' = s))
    ∧ (s.power.preCap ≠ [] → (∀ kv ∈ s.power.preCap, kv.1 < 144) → due s s.power.capAt (2 * msTicks) = true →
      Gives .capDeferExpiry s (fun s' => s'.power.preCap = [] ∧ flagF s' f_PWR_STATUS_CAP_PENDING = false
        ∧ (∀ kv ∈ s.power.preCap, flagF s' f_PWR_CORE_FREQ_DEFERRED kv.1 = false)
        ∧ ∀ x ∈ s.colls, ∀ id y, x.2.cmd = some id → cmdOf s id = some y → x.2.sendSt = 1 ∨ x.2.recvSt = 1 →
          (∃ kv ∈ s.power.preCap, getF s f_CMP_CORE_INSTANCE kv.1 = x.2.inst) → (cmdOf s' id).map Cmd.capped = some true)))
  ∧ (∀ (mv us : Nat) (s : State), PoolOk s →
    let supply := getF s f_PWR_STATUS_SUPPLY
    (s.aon.off = false → 1620 ≤ mv → mv < 1710 → supply = 0 ∨ supply = 3 → Gives (.vinDip mv) s (fun s' =>
      getF s' f_PWR_STATUS_SUPPLY = 1 ∧ s'.stopSince.isSome = true
      ∧ getR s' r_PWR_DIP_COUNT = (getR s r_PWR_DIP_COUNT + 1) % 2 ^ 64 ∧ getF s' f_PWR_DIP_LOG_MIN_MV = mv
      ∧ (∀ c, c < getF s f_CHIP_CAP_CORE_ENABLED → awake s c = true → stepsOf s' c = 64)
      ∧ (∀ w, w < 8 → stepHeld s' w = true)))
    ∧ (s.aon.off = false → 1620 ≤ mv → mv < 1710 → supply = 2 → Gives (.vinDip mv) s (fun s' => getF s' f_PWR_STATUS_SUPPLY = 1))
    ∧ (supply = 1 → Gives (.vinRecover us mv) s (fun s' => getF s' f_PWR_STATUS_SUPPLY = 2 ∧ s'.power.timerAt = s.now
      ∧ getF s' f_PWR_DIP_LOG_MIN_MV = min mv (getF s f_PWR_DIP_LOG_MIN_MV)
      ∧ getF s' f_PWR_DIP_LOG_DURATION_US = min (getF s f_PWR_DIP_LOG_DURATION_US + us) (2 ^ 20 - 1)))
    ∧ (supply = 2 → Gives .holdSupplyDrop s (fun s' => getF s' f_PWR_STATUS_SUPPLY = 1))
    ∧ (supply = 2 → due s s.power.timerAt msTicks = true → Gives .dipHoldExpiry s (fun s' => getF s' f_PWR_STATUS_SUPPLY = 3
      ∧ s'.power.timerAt = s.now ∧ (flagF s f_PWR_STATUS_COOLANT_STOP = false → s'.stopSince = none)
      ∧ (flagF s f_PWR_STATUS_COOLANT_STOP = true → s'.stopSince = s.stopSince)))
    ∧ (supply = 3 → due s s.power.timerAt (100 * usTicks) = true → Gives .rampEnd s (fun s' => getF s' f_PWR_STATUS_SUPPLY = 0)))
  ∧ (∀ (command : Bool) (degr : List Nat) (s : State), PoolOk s →
    (command = true ∨ getF s f_THM_REPLAN_HOURS_HOURS + 168 ≤ getR s r_RTC_HOURS → flagF s f_THM_REPLAN_STAT_BUSY = false →
      flagF s f_RST_STATE_READY = true →
      (chipStopped s = false → Gives (.replan command) s (fun s' => flagF s' f_THM_REPLAN_STAT_BUSY = true))
      ∧ (chipStopped s = true → Gives (.replan command) s (fun s' => flagF s' f_THM_REPLAN_STAT_BUSY = false
        ∧ s'.power.replanDue = true)))
    ∧ (flagF s f_THM_REPLAN_STAT_BUSY = true → chipStopped s = false → Gives (.replanComplete degr) s (fun s' =>
      flagF s' f_THM_REPLAN_STAT_BUSY = false ∧ getF s' f_THM_REPLAN_HOURS_HOURS = getR s r_RTC_HOURS % 2 ^ 32
      ∧ flagF s' f_PWR_EVT_REPLAN = true
      ∧ ∀ c, c < getF s f_CHIP_CAP_CORE_ENABLED → getF s' f_THM_CORE_FMAX_FMAX c ≤ getF s f_THM_CORE_FMAX_FMAX c
        ∧ getF s f_THM_CORE_FMAX_VOFS c ≤ getF s' f_THM_CORE_FMAX_VOFS c
        ∧ getF s' f_THM_CORE_AGE_DEGR_PPM c = min 65535 (degr.getD c 0)
        ∧ (awake s c = true → stepsOf s' c = min (stepsOf s c) (hardLimit s' c)))))
  ∧ ∀ (v : Nat) (s : State),
    Gives (.pwrEvtWrite v) s (fun s' => getR s' r_PWR_EVT = getR s r_PWR_EVT &&& (0xFF - v % 256) ∧ s'.armed.contains armPwr = true)
    ∧ Gives (.rstEvtWrite v) s (fun s' => getR s' r_RST_EVT = getR s r_RST_EVT &&& (0x7F - v % 128) ∧ s'.armed.contains armRst = true)

/-- R485, R486, R488 to R493: a sample of the sensors sets the wings' ceilings and the stacks' pacing; a coolant stop ends with dirty
lines in memory, stacks in self-refresh and ports IDLE, and RESUME undoes it once flow is back and the part is cool; an idle core or
wing enters diapause, and an event wakes it. -/
def Obligations.ThermalAndDiapause : Prop :=  (∀ (temps : List (Nat × Nat)) (w k : Nat) (s : State), s.aon.off = false → due s s.power.sampleAt (100 * usTicks) = true → w < 8 → k < 8 →
    PoolOk s → Gives (.thermalSample temps) s (fun s' =>
      let t := hottest s' (wingSensors s w)
      let u := tempOf s' (168 + k)
      let ceil := getF s f_THM_WING_CEIL w
      (∀ n x, 144 ≤ n → n < 176 → (∀ y ∈ temps, y.1 = n → y.2 = x) → (n, x) ∈ temps → tempOf s' n = x)
      ∧ getF s' f_THM_WING_TJ_C w = min 255 t
      ∧ (100 ≤ t → getF s' f_THM_WING_CEIL w = 64)
      ∧ (getF s f_THM_CFG_THROTTLE_C ≤ t → t < 100 → getF s' f_THM_WING_CEIL w = max 64 (ceil - 4))
      ∧ (t + getF s f_THM_CFG_HYST < getF s f_THM_CFG_THROTTLE_C → getF s f_THM_CFG_THROTTLE_C ≤ 100 → mfind s.power.raisedAt w = none →
        getF s' f_THM_WING_CEIL w = min (wingFmax s w) (ceil + 1))
      ∧ (flagF s' f_THM_WING_THROTTLE w = true ↔ getF s' f_THM_WING_CEIL w < wingFmax s w)
      ∧ (105 ≤ t → flagF s' f_THM_WING_EMERGENCY w = true) ∧ (t < 100 → flagF s' f_THM_WING_EMERGENCY w = false)
      ∧ mget 100 s'.power.pace k = (if 93 ≤ u then 25 else if 90 ≤ u then 50 else if u < 88 then 100 else mget 100 s.power.pace k)
      ∧ (flagF s' f_MEM_STACK_STAT_REFRESH_X2 k = true ↔ 85 < u)
      ∧ ∀ c, c < getF s f_CHIP_CAP_CORE_ENABLED → awake s c = true → stepsOf s' c = min (stepsOf s c) (hardLimit s' c)))
  ∧ (∀ (s : State), flagF s f_PWR_STATUS_COOLANT_STOP = true →
    (requestsOut s = false → Gives .coolantStopComplete s (fun s' => (∀ n b, bufOf s' n = some b → b.dirty = 0)
      ∧ (∀ k, k < 8 → flagF s f_MEM_STACK_STAT_TRAINED k = true → flagF s' f_MEM_STACK_STAT_SELF_REFRESH k = true)
      ∧ ∀ p, p < 32 → isUp s p = true → portState s' p = portIdle))
    ∧ (s.aon.flowAt = none → s.aon.aux = true → Gives .flowRestored s (fun s' => s'.aon.flowAt = some s.now
      ∧ flagF s' f_PWR_EVT_FLOW_RESTORED = true ∧ flagF s' f_PWR_STATUS_COOLANT_STOP = true))
    ∧ (∀ bad : List Nat, (∀ k ∈ bad, k < 256) → resumeReady s = true → getF s f_PWR_STATUS_SUPPLY = 0 ∨ getF s f_PWR_STATUS_SUPPLY = 3 → PoolOk s →
      Gives (.resume bad) s (fun s' => flagF s' f_PWR_STATUS_COOLANT_STOP = false ∧ getF s' f_PWR_STATUS_SUPPLY = 3
        ∧ s'.power.timerAt = s.now ∧ s'.stopSince = none
        ∧ (∀ k, k < 8 → flagF s' f_MEM_STACK_STAT_SELF_REFRESH k = false)
        ∧ (∀ c, c < getF s f_CHIP_CAP_CORE_ENABLED → awake s c = true → stepsOf s' c = 64)
        ∧ (∀ p, p < 32 → portState s p = portIdle → portState s' p = portTraining)))
    ∧ (∀ bad, resumeReady s = false → Gives (.resume bad) s (fun s' => s' = s)))
  ∧ (∀ (c : Nat) (s : State), c < 144 →
    (let us := getF s f_THM_DIAP_CFG_CORE_IDLE_US
    us ≠ 0 → c < getF s f_CHIP_CAP_CORE_ENABLED → awake s c = true → coreIdle s c = true →
      due s (core s c).idleSince (us * usTicks) = true → flagF s f_PWR_STATUS_COOLANT_STOP = false →
      Gives (.coreDiapauseEntry c) s (fun s' => dstate s' c = 1 ∧ (core s' c).clkSteps = 0 ∧ (core s' c).icache = []
        ∧ ∀ e ∈ s'.tlb, e.cache ≠ c))
    ∧ (dstate s c = 1 → Gives (.diapauseEntered c) s (fun s' => dstate s' c = 2))
    ∧ ((batchOf s c).isSome = true ∨ (getF s f_CMP_CORE_STATE c ≠ 0 ∧ flagF s f_CMP_CORE_AWAKE c = true) →
      (dstate s c = 1 → Gives (.wake c) s (fun s' => dstate s' c = 0))
      ∧ (dstate s c = 2 → Gives (.wake c) s (fun s' => dstate s' c = 3 ∧ stepsOf s' c = 64
        ∧ (getF s f_THM_WING_STATE (wingOf s c) = 2 → getF s' f_THM_WING_STATE (wingOf s c) = 3))))
    ∧ (dstate s c = 3 → getF s f_THM_WING_STATE (wingOf s c) = 0 → Gives (.wakeComplete c) s (fun s' => dstate s' c = 0
      ∧ getR s' r_THM_WAKES = (getR s r_THM_WAKES + 1) % 2 ^ 64 ∧ stepHeld s' (wingOf s c) = true))
    ∧ (dstate s c = 3 → getF s f_THM_WING_STATE (wingOf s c) ≠ 0 → Gives (.wakeComplete c) s (fun s' => s' = s)))
  ∧ (∀ (w : Nat) (s : State), w < 8 →
    (let us := getF s f_THM_DIAP_CFG_WING_IDLE_US
    us ≠ 0 → getF s f_CHIP_CAP_WING_ENABLED w ≠ 0 → getF s f_THM_WING_STATE w = 0 → wingIdleNow s w = true →
      due s (mget 0 s.power.wingIdle w) (us * usTicks) = true → Gives (.wingDiapauseEntry w) s (fun s' => getF s' f_THM_WING_STATE w = 1))
    ∧ (getF s f_THM_WING_STATE w = 1 → Gives (.diapauseEntered (256 + w)) s (fun s' => getF s' f_THM_WING_STATE w = 2
      ∧ getF s' f_THM_WING_VCORE_MV w = 550))
    ∧ ((gateOf s w).run.isSome = true → getF s f_THM_WING_STATE w = 2 → Gives (.wake (256 + w)) s (fun s' => getF s' f_THM_WING_STATE w = 3))
    ∧ (getF s f_THM_WING_STATE w = 3 → Gives (.wakeComplete (256 + w)) s (fun s' => getF s' f_THM_WING_STATE w = 0)))
  ∧ ∀ (s : State), PoolOk s → Gives .wakeAll s (fun s' =>
    (∀ c, c < getF s f_CHIP_CAP_CORE_ENABLED → dstate s' c ≠ 1 ∧ dstate s' c ≠ 2)
    ∧ ∀ w, w < 8 → getF s' f_THM_WING_STATE w ≠ 1 ∧ getF s' f_THM_WING_STATE w ≠ 2)

/-! ## Bring-up, resets and accesses -/

/-- R487, R488, R498 to R516, R524, R533 to R538: the supplies, FLOW_OK and PERST_N begin a bring-up or turn the domains off, with what
the always-on domain and NOR flash hold kept; each phase ends by the next, or holds the device; a phase that takes too long
starts the bring-up again, or holds it the second time. -/
def Obligations.Eclosion : Prop :=  (∀ (s : State),
    (s.aon.aux = false → Gives .vinAuxApply s (fun s' => s'.aon.aux = true ∧ s'.aon.e0 = false ∧ getF s' f_RST_STATE_PHASE = 0))
    ∧ (s.aon.main ≠ 2 → s.aon.trip = false → Gives .vinMainApply s (fun s' => s'.aon.main = 2
      ∧ (s.aon.aux = true → s.aon.e0 = true →
        (s.aon.path = 0 → BringsUp s s' 0 ∧ lastReset s' = (5, (if s.aon.tripped then 4 else 0), false)
          ∧ computeHeld s' = false ∧ s'.aon.escs = [] ∧ (flagF s' f_THM_STATUS_TRIP_PREV = s.aon.tripped))
        ∧ (s.aon.path ≠ 0 → BringsUp s s' 2 ∧ computeHeld s' = computeHeld s))))
    ∧ (s.aon.trip = true → Gives .vinMainApply s (fun s' => s' = s))
    ∧ (s.aon.off = false → Gives .supplyReset s (fun s' => PowersOff s s' ∧ s'.aon.main = 1 ∧ s'.aon.path = 2
      ∧ lastReset s' = (4, 3, true) ∧ s'.aon.escs = countedResets s ++ [s.rtc.secs]
      ∧ (AtThreshold s → s'.aon.oosDue = true ∧ computeHeld s' = true)))
    ∧ (s.aon.off = false → s.aon.main = 2 → Gives .refclkLoss s (fun s' => PowersOff s s' ∧ s'.aon.main = 1
      ∧ lastReset s' = (4, 3, true)))
    ∧ (∀ sensor temp, s.aon.off = false → sensor < 176 → (if sensor < 168 then 110 else 100) ≤ temp →
      Gives (.thermalTrip sensor temp) s (fun s' => PowersOff s s' ∧ s'.aon.trip = true ∧ s'.aon.path = 0
        ∧ getR s' r_THM_TRIP_LOG = s.rtc.secs % 2 ^ 32 + temp % 256 * 2 ^ 32 + sensor * 2 ^ 40 + 2 ^ 48))
    ∧ Gives .vinMainRemoved s (fun s' => s'.aon.off = true ∧ s'.aon.main = 0 ∧ s'.aon.trip = false ∧ s'.aon.path = 0)
    ∧ (s.aon.aux = true → Gives .vinAuxLoss s (fun s' => PowersOff s s' ∧ s'.aon.aux = false ∧ s'.aon.trip = false
      ∧ s'.aon.escs = [] ∧ computeHeld s' = false ∧ getR s' r_RST_LAST = 0 ∧ s'.aon.path = 0)))
  ∧ (∀ (s : State),
    (s.aon.off = false → s.aon.main = 2 → getF s f_RST_STATE_PHASE ≠ 0 → Gives .perstAssert s (fun s' => BringsUp s s' 1
      ∧ s'.aon.perst = true ∧ s'.hbm = s.hbm ∧ (lastReset s').2 = (2, false) ∧ computeHeld s' = computeHeld s))
    ∧ (s.aon.off = true ∨ s.aon.main ≠ 2 ∨ getF s f_RST_STATE_PHASE = 0 → Gives .perstAssert s (fun s' => s'.regs = s.regs))
    ∧ (s.aon.off = false → 3 < getF s f_RST_STATE_PHASE → Gives .perstDeassert s (fun s' => s'.aon.perst = false
      ∧ s'.aon.hostLink = true))
    ∧ (s.aon.off = false → flagF s f_RST_STATE_READY = true → flagF s f_PWR_STATUS_COOLANT_STOP = false → PoolOk s →
      Gives .coolantStop s (fun s' => flagF s' f_PWR_STATUS_COOLANT_STOP = true ∧ s'.stopSince.isSome = true
        ∧ flagF s' f_PWR_EVT_COOLANT_STOP = true ∧ s'.aon.flowAt = none
        ∧ ∀ c, c < getF s f_CHIP_CAP_CORE_ENABLED → awake s c = true → stepsOf s' c = 64 ∧ (core s' c).clkSteps = 0))
    ∧ (s.aon.off = false → flagF s f_RST_STATE_READY = false → 3 ≤ getF s f_RST_STATE_PHASE →
      Gives .coolantStop s (fun s' => PowersOff s s' ∧ s'.aon.waiting = 2 ∧ s'.aon.path = 2))
    ∧ (s.aon.aux = true → s.aon.waiting = 1 → Gives .flowOkHeld s (fun s' => getF s' f_RST_STATE_PHASE = 3 ∧ s'.aon.waiting = 0))
    ∧ (s.aon.aux = true → s.aon.waiting = 2 → s.aon.main = 2 → Gives .flowOkHeld s (fun s' => BringsUp s s' 2)))
  ∧ (∀ (s : State), s.aon.aux = true → s.aon.e0 = false → Gives (.phaseComplete .alwaysOn) s (fun s' => s'.aon.e0 = true
    ∧ (s.aon.main = 2 → getF s' f_RST_STATE_PHASE = 1) ∧ (s.aon.main ≠ 2 → getF s' f_RST_STATE_PHASE = getF s f_RST_STATE_PHASE)))
  ∧ (∀ (flash : Flash) (rootOk : Bool) (s : State), InPhase s 1 →
    let f := if s.flash = Flash.empty then flash else s.flash
    let image := if Config.imageOk f.primary then f.primary else f.secondary
    (Config.imageOk f.primary = true ∨ Config.imageOk f.secondary = true → Gives (.phaseComplete (.rom flash rootOk)) s (fun s' =>
      getF s' f_RST_STATE_PHASE = 2 ∧ flagF s' f_SEC_STATUS_FW_AUTH = true ∧ flagF s' f_SEC_STATUS_ROOT_OK = rootOk ∧ s'.flash = f
      ∧ ∀ k, k < 6 → getR s' r_SEC_FW_DIGEST k = leNat (((Config.sha384 image).drop (8 * k)).take 8)))
    ∧ (Config.imageOk f.primary = false → Config.imageOk f.secondary = false → Gives (.phaseComplete (.rom flash rootOk)) s (fun s' =>
      getF s' f_RST_STATE_PHASE = 1 ∧ flagF s' f_RST_STATE_FAILED = true ∧ flagF s' f_RST_EVT_PHASE_FAIL = true)))
  ∧ (∀ (s : State), InPhase s 2 →
    Gives (.phaseComplete (.fuses false)) s (fun s' => getF s' f_RST_STATE_PHASE = 2 ∧ flagF s' f_RST_STATE_FAILED = true)
    ∧ Gives (.phaseComplete (.fuses true)) s (fun s' => getR s' r_CHIP_SERIAL = s.flash.serial % 2 ^ 64
      ∧ flagF s' f_SEC_STATUS_DEBUG_LOCKED = s.flash.locked
      ∧ (flowOk s = true → getF s' f_RST_STATE_PHASE = 3 ∧ s'.aon.waiting = 0)
      ∧ (flowOk s = false → getF s' f_RST_STATE_PHASE = 2 ∧ s'.aon.waiting = 1)))
  ∧ (∀ (s : State), InPhase s 3 → Gives (.phaseComplete .rails) s (fun s' => getF s' f_RST_STATE_PHASE = 4
    ∧ s'.aon.hostLink = !s.aon.perst ∧ ∀ d, d < 36 → getF s' f_PWR_DOM_ILIM_AMPS d = ratedAmps d))
  ∧ (∀ (failed : List (Nat × Nat)) (s : State), InPhase s 4 → s.flash.ledger.length % 32 = 0 →
    ((∀ b, b < 4 → ∃ k, k < 8 ∧ unitLost s 9 (b + 4 * k) = false ∧ (b, k) ∉ failed) →
      Gives (.phaseComplete (.bridges failed)) s (fun s' => getF s' f_RST_STATE_PHASE = 5))
    ∧ (∀ b, b < 4 → (∀ k, k < 8 → (b, k) ∈ failed) → Gives (.phaseComplete (.bridges failed)) s (fun s' =>
      getF s' f_RST_STATE_PHASE = 4 ∧ flagF s' f_RST_STATE_FAILED = true ∧ getF s' f_MEM_BRIDGE_STAT_FAILED b = 255)))
  ∧ (∀ (untrained temps : List Nat) (finds : List Finding) (s : State), InPhase s 5 →
    Gives (.phaseComplete (.memory untrained temps finds)) s (fun s' => s'.hbm = [] ∧ s'.bufs = []
      ∧ (∀ k, k < 8 → (flagF s' f_MEM_STACK_STAT_TRAINED k = true ↔ k ∉ untrained))
      ∧ (s.aon.path = 0 ∨ s.aon.selftest = true → getF s' f_RST_STATE_PHASE = 6)
      ∧ (s.aon.path ≠ 0 → s.aon.selftest = false → flagF s' f_RST_LEDGER_FULL = false → getF s' f_RST_STATE_PHASE = 7)))
  ∧ (∀ (finds : List Finding) (s : State), InPhase s 6 →
    Gives (.phaseComplete (.selfTest finds)) s (fun s' => getF s' f_RST_STATE_PHASE = 7))
  ∧ (∀ (s : State), InPhase s 7 → Gives (.phaseComplete .numbering) s (fun s' => getF s' f_RST_STATE_PHASE = 8
    ∧ (∀ w, w < 8 → getF s' f_CHIP_CAP_WING_ENABLED w = (chosenCores s w).length ∧ (chosenCores s w).length ≤ 18)
    ∧ getF s' f_CHIP_CAP_CORE_ENABLED = ((List.range 8).map (fun w => (chosenCores s w).length)).sum
    ∧ ∀ m, m < 256 → flagF s f_MEM_STACK_STAT_TRAINED (m / 32) = true → unitLost s 4 m = false → unitLost s 6 m = false →
      flagF s' f_MEM_SLICE_STAT_PRESENT m = true ∧ getF s' f_CMP_MEM_STATE m = 1))
  ∧ (∀ (tray dies engines ports : Nat) (s : State), InPhase s 8 →
    Gives (.phaseComplete (.topology tray dies engines ports)) s (fun s' =>
      let fits := getR s' r_RST_TOPO_SUM = 0 ∧ getR s' r_RST_TOPO_LINK = 0 ∧ ∀ q, q < 4 → getR s' r_RST_TOPO_CH q = 0
      getF s' f_RST_STRAPS_TRAY_ID = tray % 256 ∧ flagF s' f_RST_TOPO_SUM_DESC_BAD = !boardOk s.flash.board
      ∧ getF s' f_RST_TOPO_SUM_DIES = dies % 256
      ∧ (fits → getF s' f_RST_STATE_PHASE = 9 ∧ flagF s' f_CHIP_FAB_ID_VALID = true
        ∧ chipId s' = boardId s.flash.board (tray % 256) % 2 ^ f_CHIP_FAB_ID_CHIP_ID.width)
      ∧ (¬ fits → getF s' f_RST_STATE_PHASE = 8 ∧ flagF s' f_RST_STATE_TOPO_HOLD = true ∧ flagF s' f_RST_EVT_TOPO_HOLD = true)))
  ∧ (∀ (finds : List Finding) (s : State), InPhase s 9 → Gives (.phaseComplete (.links finds)) s (fun s' =>
    flagF s' f_RST_STATE_READY = true ∧ getF s' f_RST_STATE_PHASE = 9
    ∧ ∀ p, p < 32 → unitLost s' 7 p = false → unitLost s' 8 (p / 2) = false → getF s' f_CMP_LINK_STATE p = 1))
  ∧ ∀ (s : State),
    (flagF s f_RST_STATE_TOPO_HOLD = true → Gives .topoContinue s (fun s' => flagF s' f_RST_STATE_TOPO_HOLD = false
      ∧ getF s' f_RST_STATE_PHASE = 9 ∧ flagF s' f_CHIP_FAB_ID_VALID = true
      ∧ (flagF s f_RST_TOPO_SUM_DESC_BAD = true → chipId s' = getF s f_RST_STRAPS_TRAY_ID)))
    ∧ ∀ n, InPhase s n → n ≠ 0 → due s s.aon.phaseAt (phaseMax n * msTicks) = true →
      (n ∉ s.aon.retried → Gives .phaseTimeout s (fun s' => BringsUp s s' 2 ∧ s'.aon.retried = s.aon.retried ++ [n]
        ∧ lastReset s' = (4, 7, false)))
      ∧ (n ∈ s.aon.retried → Gives .phaseTimeout s (fun s' => getF s' f_RST_STATE_PHASE = n
        ∧ flagF s' f_RST_STATE_FAILED = true ∧ flagF s' f_RST_EVT_PHASE_FAIL = true))

/-- R513 to R527: IMAGO_RESET and CHIP_RESET fence their domain and stop its batches; 100 µs later what runs fails with RESET_ABORT; the
reset is over once its cores are awake, with nothing left on them; one that misses its bound becomes a wider reset; FULL_RESET
begins a bring-up; a count at its threshold takes the device out of service, and OVERRIDE brings it back; the watchdogs end
what makes no progress. -/
def Obligations.ResetsAndWatchdogs : Prop :=  (∀ (i : Nat) (count : Bool) (s : State), flagF s f_RST_STATE_READY = true → flagF s f_RST_STATUS_CHIP_RESET = false → PoolOk s →
    (i < 32 → bitAt (getF s f_RST_IMG_RESET_MASK) i = false →
      let counted := count || flagF s f_RST_ESC_CFG_IMAGO
      (hasSlices s i = true → (counted = true → ¬ AtThreshold s) → Gives (.imagoReset i count) s (fun s' => ComputeFenced s s' i 1
        ∧ lastReset s' = (1, 1, counted) ∧ getF s' f_RST_LAST_INSTANCE = i))
      ∧ (hasSlices s i = true → counted = true → AtThreshold s → Gives (.imagoReset i count) s (fun s' =>
        ComputeFenced s s' chipUnit 8 ∧ computeHeld s' = true ∧ lastReset s' = (2, 8, true) ∧ flagF s' f_RST_EVT_OOS = true))
      ∧ (hasSlices s i = false → Gives (.imagoReset i count) s (fun s' => s' = s)))
    ∧ ((count = true → ¬ AtThreshold s) → Gives (.chipReset count) s (fun s' => ComputeFenced s s' chipUnit 1
      ∧ lastReset s' = (2, 1, count) ∧ ∀ v, v ≠ chipUnit → mfind s'.resets v = mfind s.resets v)))
  ∧ (∀ (count selftest retrain : Bool) (s : State), s.aon.off = false → 3 < getF s f_RST_STATE_PHASE →
    Gives (.fullReset count selftest retrain) s (fun s' => BringsUp s s' 1 ∧ s'.aon.selftest = selftest ∧ s'.aon.retrain = retrain
      ∧ s'.hbm = s.hbm ∧ (lastReset s').2 = (1, count)
      ∧ (computeHeld s' = true ↔ computeHeld s = true ∨ (count = true ∧ AtThreshold s))))
  ∧ (∀ (s : State), SlotsOk s →
    (computeHeld s = false → Gives .override s (fun s' => getF s' f_RST_OVR_STATUS_CODE = 1))
    ∧ (computeHeld s = true → ∀ bytes, fwRead s (getR s r_RST_OVR_ADDR) 224 = some bytes →
      let b := blobOf s bytes
      let good := b.magic = 0x52534F42 ∧ b.op = 1 ∧ b.index = 0 ∧ b.zero = 0 ∧ b.rsvd = 0 ∧ (∀ x ∈ b.body, x = 0)
        ∧ cvkValid s b.signer = true ∧ b.serial = getR s r_CHIP_SERIAL ∧ s.flash.seq < b.seq ∧ b.sigOk = true
      (good → Gives .override s (fun s' => getF s' f_RST_OVR_STATUS_CODE = 0 ∧ computeHeld s' = false ∧ s'.flash.seq = b.seq
        ∧ s'.aon.escs = []))
      ∧ (¬ good → Gives .override s (fun s' => getF s' f_RST_OVR_STATUS_CODE = 12 ∧ computeHeld s' = true))))
  ∧ (∀ (u : Nat) (s : State) (r : CompReset), mfind s.resets u = some r →
    (r.drained = false → due s r.began (100 * usTicks) = true → Quiet s → Gives (.resetDrainEnd u) s (fun s' =>
      (mfind s'.resets u).map CompReset.drained = some true
      ∧ (∀ id c, cmdOf s id = some c → inDomain u c.inst = true → c.start.isSome = true → c.fin = none → actsResident c.op = false →
        finOf s' id = some (some errResetAbort))
      ∧ (∀ space x, ctxOf s space = some x → inDomain u x.inst = true → (ctxOf s' space).map (fun y => y.saved.length) = some 0)
      ∧ ∀ c ∈ domainCores s u, (core s' c).region = none ∧ (core s' c).resvPages = 0))
    ∧ (resetReady s u r = true → u ≤ 32 → NoFenceWait s → SlotsOk s → PoolOk s → Gives (.resetDone u []) s (fun s' =>
      mfind s'.resets u = none ∧ flagF s' f_RST_EVT_RESET_DONE = true
      ∧ (u < 32 → bitAt (getF s' f_RST_IMG_RESET_MASK) u = false)
      ∧ (u = chipUnit → flagF s' f_RST_STATUS_CHIP_RESET = false ∧ getR s' r_RST_IMG_RESET = 0)
      ∧ ∀ c ∈ domainCores s u, batchOf s' c = none ∧ (core s' c).scr = [] ∧ (core s' c).icache = []))
    ∧ (∀ c, resetReady s chipUnit r = true → u = chipUnit → c < getF s f_CHIP_CAP_CORE_ENABLED → Gives (.resetDone u [c]) s (fun s' =>
      getF s' f_RST_STATE_PHASE = 1 ∧ s'.aon.path = 1))
    ∧ (u = chipUnit → dueRun s r.began (200 * msTicks) = true → Gives (.resetBoundMiss u) s (fun s' => BringsUp s s' 1
      ∧ (lastReset s').2 = (6, true)))
    ∧ (u < 32 → dueRun s r.began (50 * msTicks) = true → flagF s f_RST_STATE_READY = true → flagF s f_RST_STATUS_CHIP_RESET = false →
      PoolOk s → ¬ AtThreshold s → Gives (.resetBoundMiss u) s (fun s' => ComputeFenced s s' chipUnit 6 ∧ lastReset s' = (2, 6, true))))
  ∧ (∀ (c : Nat) (s : State) (b : Batch), batchOf s c = some b → b.started = true → b.why = .running →
    wdDue s f_RST_WD_KERNEL_MS b.progress = true → fenced s (kernel s b.kernel).inst = false → coreStalled s c = false →
    holderOf s (kernel s b.kernel).inst = some (kernel s b.kernel).space → (kernel s b.kernel).fault = none → SlotsOk s →
    Gives (.kernelWatchdog c) s (fun s' => WatchdogFired s s' 0
      ∧ (kernel s' b.kernel).fault.map FaultInfo.code = some errHangTimeout ∧ (kernel s' b.kernel).stopAt = some s.now))
  ∧ (∀ (id : Nat) (s : State) (c : Cmd) (t : DWord), cmdOf s id = some c → c.start = some t → nonPreemptible c = true → c.fin = none →
    getF s f_RST_WD_NP_MS ≠ 0 → getF s f_RST_WD_NP_MS * msTicks ≤ ranFor s id c → fenced s c.inst = false →
    cmdStalled s id = false → flagF s f_RST_STATE_READY = true → PoolOk s → c.win ≤ 32 →
    (32 ≤ c.inst → ¬ AtThreshold s → Gives (.npWatchdog id) s (fun s' => finOf s' id = some (some errHangTimeout)
      ∧ WatchdogFired s s' 1 ∧ ComputeFenced s s' chipUnit 5))
    ∧ (c.inst < 32 → flagF s f_RST_ESC_CFG_IMAGO = false → hasSlices s c.inst = true →
      (∃ k e, slotOf s c.space = some (k, e) ∧ slotState s k = slotHolder) → Gives (.npWatchdog id) s (fun s' =>
        finOf s' id = some (some errHangTimeout) ∧ WatchdogFired s s' 1 ∧ ComputeFenced s s' c.inst 5)))
  ∧ (∀ (q : Nat) (s : State) (v : Queue) (x : Ctx), queueOf s q = some v → ctxOf s v.space = some x → v.state = qRunning →
    (v.head ≠ v.tail ∨ v.cmds ≠ []) → ((v.cmds.head?.bind (cmdOf s)).map Cmd.op) ≠ some opWait → Quiet s → s.cores = [] →
    wdDue s f_RST_WD_QUEUE_MS v.progress = true → fenced s x.inst = false → holderOf s x.inst = some v.space →
    runningCmds s v ≠ [] → Gives (.queueWatchdog q) s (fun s' => WatchdogFired s s' 2
      ∧ ∀ id ∈ runningCmds s v, finOf s' id = some (some errHangTimeout)))
  ∧ ∀ (id : Nat) (s : State),
    (∀ r, mfind s.reqs id = some r → (∀ j, r.owner ≠ .link j) → r.stage ≠ .done → r.err = 0 → fabricDue s r.issued = true →
      fenced s r.inst = false → gpaChip r.gpa = chipId s → opAnswers r.op = true → Gives (.fabricWatchdog id) s (fun s' =>
        WatchdogFired s s' 3 ∧ flagF s' f_RST_EVT_FABRIC_TIMEOUT = true
        ∧ (mfind s'.reqs id).map (fun x => (x.stage, x.poison)) = some (.done, 255)))
    ∧ (∀ f c, mfind s.reqs id = none → mfind s.ops id = none → mfind s.fenceOuts id = some f → f.wait = false →
      fabricDue s f.sent = true → cmdOf s f.cmd = some c → c.fin = none → Gives (.fabricWatchdog id) s (fun s' =>
        WatchdogFired s s' 3 ∧ finOf s' f.cmd = some (some errRemoteError) ∧ mfind s'.fenceOuts id = none))
    ∧ (∀ f, mfind s.reqs id = none → mfind s.ops id = none → mfind s.fenceOuts id = some f → fabricDue s f.sent = false →
      Gives (.fabricWatchdog id) s (fun s' => s' = s))

/-- R13 to R20, R437, R444, R521, R539, R540: a read of a reserved offset returns zero and a write to one is discarded; a write of
a whole register sets its fields by their access codes, and one of another size does not; a read of a whole register gives its
fields, and its lower half latches its upper half; an access to a core's mover register wakes the core (R257; log entry 60);
the proxy acts on an instance's register, or is refused; a message held for 20 ms is discarded; the I3C port answers its
commands, or does not accept them; the test port answers BYPASS and IDCODE while TRST_N is high, acts on nothing while it is
low, and is otherwise refused: no behaviour of the part is stated (R540). -/
def Obligations.RegistersAndPins : Prop :=  (∀ (req : Requester) (win off size v : Nat) (s : State),
    (barOpen s win = false → Gives (.registerWrite req win off size v) s (fun s' => s'.reply.ok = false ∧ s'.regs = s.regs)
      ∧ Gives (.registerSplitRead req win off size) s (fun s' => s'.reply.ok = false ∧ s'.regs = s.regs))
    ∧ (barOpen s win = true → findReg win off = none →
      Gives (.registerWrite req win off size v) s (fun s' => s' = { s with reply := ⟨true, false, []⟩ })
      ∧ Gives (.registerSplitRead req win off size) s (fun s' => s' = { s with reply := ⟨true, false, List.replicate size 0⟩ }))
    ∧ ∀ r k sub, barOpen s win = true → findReg win off = some (r, k, sub) →
      (sub = 0 → size = r.bytes → plainWrite r = true → win = 0 ∨ winOpen s win = true →
        Gives (.registerWrite req win off size v) s (fun s' => s'.reply.ok = true
          ∧ ∀ f ∈ r.flds, bitsOf (getR s' r k win) f.lo f.width =
            fieldAfter f.acc (fieldTakes r k win f (bitsOf v f.lo f.width)) req.secure (bitsOf (getR s r k win) f.lo f.width)
              (bitsOf v f.lo f.width)))
      ∧ (sub ≠ 0 ∨ size ≠ r.bytes → Gives (.registerWrite req win off size v) s (fun s' => s'.regs = (wakeFor s r k).regs))
      ∧ (sub = 0 → size = r.bytes → r.base ≠ r_MBX_PROXY_DATA.base →
        Gives (.registerSplitRead req win off size) s (fun s' => s'.reply = ⟨true, false, leBytes size (regRead (wakeFor s r k) r k win req.secure)⟩
          ∧ s'.regs = (wakeFor s r k).regs))
      ∧ (sub = 0 → size = 4 → r.w64 = true → r.base ≠ r_MBX_PROXY_DATA.base →
        Gives (.registerSplitRead req win off size) s (fun s' => s'.reply = ⟨true, false, leBytes 4 (regRead (wakeFor s r k) r k win req.secure)⟩
          ∧ latchOf s' req.id (regKey r k win) = some (regRead (wakeFor s r k) r k win req.secure / 2 ^ 32)))
      ∧ (∀ u, sub = 4 → size = 4 → r.w64 = true → latchOf s req.id (regKey r k win) = some u →
        Gives (.registerSplitRead req win off size) s (fun s' => s'.reply = ⟨true, false, leBytes 4 u⟩
          ∧ latchOf s' req.id (regKey r k win) = none))
      ∧ (r.base = r_TMV_CORE_STAT.base → dstate s k = 2 → Gives (.registerSplitRead req win off size) s (fun s' => dstate s' k = 3)
        ∧ Gives (.registerWrite req win off size v) s (fun s' => dstate s' k = 3)))
  ∧ (∀ (req : Requester) (write : Bool) (v : Nat) (s : State), barOpen s 0 = true →
    let i := getF s f_MBX_PROXY_ADDR_INSTANCE
    let off := getF s f_MBX_PROXY_ADDR_OFFSET
    (instExists s i = false ∨ proxyBlock off = false → Gives (.mbxProxyAccess req write v) s (fun s' =>
      flagF s' f_MBX_CTRL_REFUSED = true ∧ (write = false → s'.reply = ⟨true, false, List.replicate 8 0⟩)))
    ∧ ∀ r k, instExists s i = true → proxyBlock off = true → findReg (i + 1) off = some (r, k, 0) →
      Gives (.mbxProxyAccess req false v) s (fun s' => s'.reply = ⟨true, false, leBytes 8 (regRead s r k (i + 1) false)⟩
        ∧ s'.regs = s.regs)
      ∧ (plainWrite r = true → winOpen s (i + 1) = true → Gives (.mbxProxyAccess req true v) s (fun s' =>
        ∀ f ∈ r.flds, bitsOf (getR s' r k (i + 1)) f.lo f.width =
          fieldAfter f.acc (fieldTakes r k (i + 1) f (bitsOf v f.lo f.width)) false (bitsOf (getR s r k (i + 1)) f.lo f.width)
            (bitsOf v f.lo f.width))))
  ∧ (∀ (s : State),
    let old := fun t => due s t (20 * msTicks) = true
    let counted := fun s' => getR s' r_RST_DISCARDS = (getR s r_RST_DISCARDS + 1) % 2 ^ 64
    (∀ k x, s.linkIn[k]? = some x →
      (old x.2.sent → Gives (.messageAgeDiscard (.arrived k)) s (fun s' => s'.linkIn = s.linkIn.eraseIdx k ∧ counted s'))
      ∧ (¬ old x.2.sent → Gives (.messageAgeDiscard (.arrived k)) s (fun s' => s' = s)))
    ∧ (∀ p k m, (port s p).waiting[k]? = some m → old m.sent → Gives (.messageAgeDiscard (.atPort p k)) s (fun s' =>
      (port s' p).waiting = (port s p).waiting.eraseIdx k ∧ counted s'))
    ∧ (∀ id m, mfind s.silkMsgs id = some m → old m.sent → Gives (.messageAgeDiscard (.silk id)) s (fun s' =>
      mfind s'.silkMsgs id = none ∧ counted s'))
    ∧ (∀ op m, mfind s.silkReplies op = some m → old m.sent → Gives (.messageAgeDiscard (.release op)) s (fun s' =>
      mfind s'.silkReplies op = none ∧ counted s'))
    ∧ ∀ id r, mfind s.reqs id = some r → r.stage = .sent ∨ r.stage = .hbm → (∀ j, r.owner ≠ .link j) → old r.issued →
      Gives (.messageAgeDiscard (.request id)) s (fun s' => (mfind s'.reqs id).map MemReq.stage = some .lost ∧ counted s'))
  ∧ (∀ (data : List Byte) (offset : Nat) (s : State),
    (s.aon.aux = true → Gives .status s (fun s' => s'.reply = ⟨true, false, leBytes 4 (regRead s r_CHIP_STATE 0 0 false)
      ++ leBytes 4 (regRead s r_THM_STATUS 0 0 false) ++ leBytes 4 (regRead s r_PWR_PKG_POWER 0 0 false)
      ++ leBytes 4 (regRead s r_PWR_STATUS 0 0 false)⟩))
    ∧ (s.aon.aux = false → ∀ c ∈ [Instr.status, .descRead, .descWrite data, .recovery offset data, .recoveryDone],
      Gives c s (fun s' => s'.reply.ok = false ∧ s'.flash = s.flash))
    ∧ (s.aon.aux = true → e2Over s = true → s.flash.board.length = 128 → Gives .descRead s (fun s' =>
      s'.reply = ⟨true, false, s.flash.board⟩))
    ∧ (s.aon.aux = true → e2Over s = true → computeHeld s = false → data.length = 128 →
      (crc32 (data.take 124) = leNat (data.drop 124) → Gives (.descWrite data) s (fun s' => s'.reply.ok = true ∧ s'.flash.board = data))
      ∧ (crc32 (data.take 124) ≠ leNat (data.drop 124) → Gives (.descWrite data) s (fun s' => s'.reply.ok = false ∧ s'.flash = s.flash)))
    ∧ (s.aon.aux = true → recoveryHold s = true →
      (data.length ≤ 4096 → Gives (.recovery offset data) s (fun s' => s'.reply.ok = true
        ∧ ∀ k, k < data.length → mem8 s'.aon.image (offset % 2 ^ 32 + k) = data.getD k 0))
      ∧ (4096 < data.length → Gives (.recovery offset data) s (fun s' => s'.reply.ok = false ∧ s'.aon = s.aon))
      ∧ (Config.imageOk (recoveryImage s) = true → Gives .recoveryDone s (fun s' => s'.flash.primary = recoveryImage s
        ∧ flagF s' f_RST_STATE_FAILED = false ∧ getF s' f_RST_STATE_PHASE = 1))
      ∧ (Config.imageOk (recoveryImage s) = false → Gives .recoveryDone s (fun s' => s'.flash = s.flash ∧ s'.regs = s.regs))))
  ∧ ∀ (i : TapInstr) (n : Nat) (s : State),
    Gives (.tapInstruction i false) s (fun s' => s' = s)
    ∧ Gives (.tapInstruction .bypass true) s (fun s' => s' = { s with reply := ⟨true, false, [0]⟩ })
    ∧ Gives (.tapInstruction .idcode true) s (fun s' => s' = { s with reply := ⟨true, false, leBytes 4 Config.idcode.toNat⟩ })
    ∧ exec (.tapInstruction (.other n) true) s = .refused .testAccess

/-! ## The block -/

/-- With a command at the front of the queue, a step is the command's effect on the state with the queue's rest. -/
def Obligations.StepTakesFront : Prop :=  ∀ (c : Instr) (rest : List Instr) (s : State), step { s with pending := c :: rest } = exec c { s with pending := rest }

/-- No command changes the queue: a step that goes on from a queue with `c` at its front leaves the queue's rest. -/
def Obligations.StepConsumesFront : Prop :=  ∀ (c : Instr) (rest : List Instr) (s s' : State), s.pending = c :: rest → step s = .next s' → s'.pending = rest

/-- The model's choice (log entry 3): with no command waiting a step is the passing of time. The time base advances by one tick,
by two or none at a step of a slew (R424), the calendar clock with it, and what idles is noted; nothing else changes. -/
def Obligations.IdleStepIsTick : Prop :=  ∀ s : State, s.pending = [] → ∃ s', step s = .next s' ∧ s'.pending = [] ∧ s'.regs = s.regs
    ∧ s'.now = s.now + BitVec.ofNat 64 (tickStep s) ∧ tickStep s ≤ 2 ∧ (s.timeSlew = 0 → tickStep s = 1)
    ∧ Kept [.cores, .now, .power, .rtc, .slewAt, .timeSlew] [] s s'
    ∧ ∀ c, core s' c = { core s c with idleSince := (core s' c).idleSince }

/-- After reset nothing is in memory, waiting or in progress; the part is in phase E1 of a cold eclosion, not READY; and these
fields hold the values of their Reset columns: limits, windows, caps and idle times. -/
def Obligations.ResetValues : Prop :=  (State.reset.pending = [] ∧ State.reset.now = 0 ∧ (∀ a, mem8 State.reset.hbm a = 0) ∧ ∀ c, batchOf State.reset c = none)
  ∧ (∀ fv ∈ [(f_RST_STATE_PHASE, 1), (f_RST_STATE_READY, 0), (f_RST_STATE_FAILED, 0), (f_MEM_CFG_SCRUB_HOURS, 24), (f_XLT_CFG_FAULT_TMO, 200),
      (f_XLT_INV_TIMEOUT_US, 1000), (f_CMP_CFG_WARN_MS, 50), (f_SCH_CFG_SLICE_DEF_US, 2000), (f_SCH_NP_MAX_US, 500),
      (f_LNK_COLL_TMO_MS, 1000), (f_PWR_DIP_CFG_THRESH, 16), (f_PWR_DIP_CFG_WINDOW_S, 3600), (f_THM_CFG_THROTTLE_C, 95),
      (f_THM_DIAP_CFG_CORE_IDLE_US, 50), (f_THM_DIAP_CFG_WING_IDLE_US, 500), (f_RST_ESC_CFG_WINDOW_S, 600), (f_SCH_IMG_VALID, 0)],
    getF State.reset fv.1 = fv.2)
  ∧ (∀ c, c < 144 → getF State.reset f_PWR_CORE_FCAP_STEPS c = 184)
  ∧ ∀ n, n < 16384 → getR State.reset r_SILK_CTR n = 0

/-- The model's form of memory (log entry 9): at reset HBM, host memory and every scratchpad have the canonical form. -/
def Obligations.ResetMemories : Prop := MemoriesWf State.reset

/-- Every step keeps the canonical form of HBM, of host memory and of every core's scratchpad: their addresses rise strictly and no
byte that is listed is zero, so that equal memories are equal data (log entry 9). -/
def Obligations.StepKeepsMemories : Prop := ∀ s s' : State, MemoriesWf s → step s = .next s' → MemoriesWf s'

/-! ## Frames -/

/-- X instructions, Silk, kernels, the matrix unit, movers and Gate units: what each command of these families can change, and
that it leaves everything else as it was. -/
def Obligations.FrameOfCoresMoversAndGates : Prop := ∀ s s',
  (∀ t ups, exec (.xlds t ups) s = .next s' →
    Kept [.cores, .kernels, .ctxs, .scheds]
      [r_SCH_SLOT, r_SCH_IMG, r_TMV_SCR_CE, r_TMV_SCR_UE, r_TMV_SCR_UE_LOG] s s') ∧
  (∀ t ups, exec (.xsts t ups) s = .next s' →
    Kept [.freeCtr, .cores, .kernels, .landing, .ctxs, .scheds]
      [r_SCH_SLOT, r_SCH_IMG, r_TMV_SCR_CE, r_TMV_SCR_UE, r_TMV_SCR_UE_LOG] s s') ∧
  (∀ t, exec (.xldg t) s = .next s' →
    Kept [.freeCtr, .nextId, .cores, .kernels, .ops, .reqs, .host, .hostPoison, .regCounts, .tiles, .stallAt, .walks, .tlb, .tracker,
      .fqHeld, .ports, .linkIn, .linkRr, .ctxs, .scheds, .queues, .cmds]
      [r_CMP_PLACE_MISS, r_SCH_SLOT, r_SCH_IMG, r_XLT_STATUS, r_XLT_FAULTS, r_XLT_WALKS, r_XLT_STLB_MISS, r_QOS_DEMOTED,
      r_QOS_IMG_DEMOTE, r_MEM_BRIDGE_STAT, r_LNK_DISCARDS, r_LNK_PORT_TX, r_SEC_WORLD_REFUSED] s s') ∧
  (∀ t, exec (.xstg t) s = .next s' →
    Kept [.freeCtr, .nextId, .cores, .kernels, .ops, .reqs, .host, .hostPoison, .regCounts, .tiles, .stallAt, .walks, .tlb, .tracker,
      .fqHeld, .ports, .linkIn, .linkRr, .ctxs, .scheds, .queues, .cmds]
      [r_CMP_PLACE_MISS, r_SCH_SLOT, r_SCH_IMG, r_XLT_STATUS, r_XLT_FAULTS, r_XLT_WALKS, r_XLT_STLB_MISS, r_QOS_DEMOTED,
      r_QOS_IMG_DEMOTE, r_MEM_BRIDGE_STAT, r_LNK_DISCARDS, r_LNK_PORT_TX, r_SEC_WORLD_REFUSED] s s') ∧
  (∀ t ups, exec (.xatoms t ups) s = .next s' →
    Kept [.cores, .kernels, .landing, .ctxs, .scheds]
      [r_SCH_SLOT, r_SCH_IMG, r_TMV_SCR_CE, r_TMV_SCR_UE, r_TMV_SCR_UE_LOG] s s') ∧
  (∀ t, exec (.xatomg t) s = .next s' →
    Kept [.freeCtr, .nextId, .cores, .kernels, .ops, .reqs, .host, .hostPoison, .regCounts, .tiles, .stallAt, .walks, .tlb, .tracker,
      .fqHeld, .ports, .linkIn, .linkRr, .ctxs, .scheds, .queues, .cmds]
      [r_CMP_PLACE_MISS, r_SCH_SLOT, r_SCH_IMG, r_XLT_STATUS, r_XLT_FAULTS, r_XLT_WALKS, r_XLT_STLB_MISS, r_QOS_DEMOTED,
      r_QOS_IMG_DEMOTE, r_MEM_BRIDGE_STAT, r_LNK_DISCARDS, r_LNK_PORT_TX, r_SEC_WORLD_REFUSED] s s') ∧
  (∀ t ups, exec (.xmov t ups) s = .next s' →
    Kept [.cores, .kernels, .movers, .ctxs, .scheds]
      [r_SCH_SLOT, r_SCH_IMG, r_TMV_SCR_CE, r_TMV_SCR_UE, r_TMV_SCR_UE_LOG] s s') ∧
  (∀ t, exec (.xfence t) s = .next s' → Kept [.cores, .kernels, .ops, .ctxs, .scheds] [r_SCH_SLOT, r_SCH_IMG] s s') ∧
  (∀ t, exec (.csilkAdd t) s = .next s' →
    Kept [.freeCtr, .nextId, .cores, .kernels, .ops, .silkMsgs, .ports, .linkIn, .linkRr, .ctxs, .scheds]
      [r_SCH_SLOT, r_SCH_IMG, r_LNK_PORT_TX] s s') ∧
  (∀ t, exec (.csilkRead t) s = .next s' →
    Kept [.freeCtr, .nextId, .cores, .kernels, .ops, .silkMsgs, .ports, .linkIn, .linkRr, .ctxs, .scheds]
      [r_SCH_SLOT, r_SCH_IMG, r_LNK_PORT_TX] s s') ∧
  (∀ t, exec (.csilkWaitge t) s = .next s' →
    Kept [.freeCtr, .nextId, .cores, .kernels, .ops, .silkMsgs, .ports, .linkIn, .linkRr, .ctxs, .scheds]
      [r_SCH_SLOT, r_SCH_IMG, r_LNK_PORT_TX] s s') ∧
  (∀ t, exec (.csilkTake t) s = .next s' →
    Kept [.freeCtr, .nextId, .cores, .kernels, .ops, .silkMsgs, .ports, .linkIn, .linkRr, .ctxs, .scheds]
      [r_SCH_SLOT, r_SCH_IMG, r_LNK_PORT_TX] s s') ∧
  (∀ op, exec (.loadDataReturn op) s = .next s' →
    Kept [.freeCtr, .cores, .kernels, .ops, .movers, .reqs, .host, .hostPoison, .regCounts, .missPosted, .evHeld, .silkReplies, .ports,
      .linkIn, .linkReqs, .linkRr, .ctxs, .scheds]
      [r_CMP_STALE, r_CMP_STALE_KIND, r_SCH_SLOT, r_SCH_IMG, r_QOS_STATUS, r_QOS_MISS_COUNT, r_QOS_DEMOTED, r_QOS_IMG_MISS,
      r_QOS_IMG_DEMOTE, r_TMV_CORE_STAT, r_MEM_POISON_RD, r_MEM_BRIDGE_STAT, r_LNK_DISCARDS, r_LNK_PORT_TX, r_SILK_LATE,
      r_EVT_EQ_LOST] s s') ∧
  (∀ tid, exec (.tileTranslated tid) s = .next s' →
    Kept [.freeCtr, .nextId, .cores, .kernels, .ops, .reqs, .host, .hostPoison, .regCounts, .tiles, .stallAt, .walks, .tracker,
      .fqHeld, .ports, .linkIn, .linkRr, .ctxs, .scheds, .queues, .cmds]
      [r_CMP_PLACE_MISS, r_SCH_SLOT, r_SCH_IMG, r_XLT_STATUS, r_XLT_FAULTS, r_QOS_DEMOTED, r_QOS_IMG_DEMOTE, r_MEM_BRIDGE_STAT,
      r_LNK_DISCARDS, r_LNK_PORT_TX, r_SEC_WORLD_REFUSED] s s') ∧
  (∀ c g, exec (.ifetchLine c g) s = .next s' →
    Kept [.freeCtr, .nextId, .cores, .reqs, .host, .hostPoison, .regCounts, .tiles, .stallAt, .walks, .tlb, .tracker, .fqHeld, .ports,
      .linkIn, .linkRr, .queues, .cmds]
      [r_CMP_PLACE_MISS, r_XLT_STATUS, r_XLT_FAULTS, r_XLT_WALKS, r_XLT_STLB_MISS, r_QOS_DEMOTED, r_QOS_IMG_DEMOTE,
      r_MEM_BRIDGE_STAT, r_LNK_DISCARDS, r_LNK_PORT_TX, r_SEC_WORLD_REFUSED] s s') ∧
  (∀ c line, exec (.ifetchLineReturn c line) s = .next s' →
    Kept [.freeCtr, .cores, .kernels, .ops, .movers, .reqs, .host, .hostPoison, .regCounts, .missPosted, .evHeld, .ports, .linkIn,
      .linkReqs, .linkRr, .ctxs, .scheds]
      [r_SCH_SLOT, r_SCH_IMG, r_QOS_STATUS, r_QOS_MISS_COUNT, r_QOS_DEMOTED, r_QOS_IMG_MISS, r_QOS_IMG_DEMOTE, r_TMV_CORE_STAT,
      r_MEM_POISON_RD, r_MEM_BRIDGE_STAT, r_LNK_DISCARDS, r_LNK_PORT_TX, r_EVT_EQ_LOST] s s') ∧
  (∀ kid, exec (.kernelStopDrainEnd kid) s = .next s' →
    Kept [.freeCtr, .cores, .kernels, .ops, .movers, .reqs, .host, .hostPoison, .regCounts, .tiles, .stallAt, .walks, .landing,
      .evHeld, .silkWaiters, .silkReplies, .ports, .linkIn, .linkReqs, .linkRr, .ctxs, .queues, .cmds]
      [r_XLT_STATUS, r_QOS_DEMOTED, r_QOS_IMG_DEMOTE, r_TMV_CORE_STAT, r_MEM_BRIDGE_STAT, r_LNK_DISCARDS, r_LNK_PORT_TX,
      r_EVT_EQ_LOST] s s') ∧
  (∀ kid, exec (.kernelStopAbort kid) s = .next s' →
    Kept [.freeCtr, .cores, .ops, .movers, .reqs, .hbm, .hbmPoison, .bufs, .host, .hostPoison, .regCounts, .tiles, .stallAt, .walks,
      .ports, .linkIn, .linkReqs, .linkRr, .queues, .cmds]
      [r_XLT_STATUS, r_QOS_DEMOTED, r_QOS_IMG_DEMOTE, r_TMV_CORE_STAT, r_MEM_BRIDGE_STAT, r_LNK_DISCARDS, r_LNK_PORT_TX] s s') ∧
  (∀ x, exec (.batchDeal x) s = .next s' → Kept [.cores, .kernels] [r_PWR_CORE_FREQ, r_THM_WING, r_THM_CORE_AGE] s s') ∧
  (∀ c, exec (.batchStart c) s = .next s' → Kept [.cores, .movers, .landing] [] s s') ∧
  (∀ c, exec (.batchEnd c) s = .next s' →
    Kept [.freeCtr, .cores, .kernels, .ops, .movers, .reqs, .host, .hostPoison, .regCounts, .tiles, .stallAt, .walks, .silkWaiters,
      .silkReplies, .ports, .linkIn, .linkReqs, .linkRr, .queues, .cmds]
      [r_XLT_STATUS, r_QOS_DEMOTED, r_QOS_IMG_DEMOTE, r_TMV_CORE_STAT, r_MEM_BRIDGE_STAT, r_LNK_DISCARDS, r_LNK_PORT_TX] s s') ∧
  (∀ c, exec (.batchPreempt c) s = .next s' → Kept [.cores, .landing] [] s s') ∧
  (∀ c, exec (.batchSaveComplete c) s = .next s' →
    Kept [.freeCtr, .nextId, .cores, .kernels, .ops, .movers, .reqs, .hbm, .hbmPoison, .bufs, .host, .hostPoison, .regCounts, .tiles,
      .stallAt, .walks, .tlb, .wcache, .silkMsgs, .silkWaiters, .silkReplies, .ports, .linkIn, .linkReqs, .linkRr, .ctxs, .queues,
      .cmds]
      [r_CMP_PLACE_MISS, r_SCH_PREEMPTS, r_SCH_SPILL_BYTES, r_XLT_STATUS, r_XLT_WALKS, r_XLT_STLB_MISS, r_QOS_DEMOTED,
      r_QOS_IMG_DEMOTE, r_TMV_CORE_STAT, r_TMV_BCH_DONE, r_TMV_CLU_RD, r_TMV_CLU_WR, r_MEM_POISON_RD, r_MEM_BRIDGE_STAT,
      r_MEM_RD_BYTES, r_MEM_WR_BYTES, r_LNK_DISCARDS, r_LNK_PORT_TX, r_SEC_WORLD_REFUSED] s s') ∧
  (∀ x corrupt, exec (.batchRestore x corrupt) s = .next s' →
    Kept [.freeCtr, .nextId, .cores, .kernels, .ops, .movers, .reqs, .hbm, .hbmPoison, .bufs, .host, .hostPoison, .regCounts, .tiles,
      .stallAt, .walks, .tlb, .wcache, .landing, .silkMsgs, .silkWaiters, .ports, .linkIn, .linkReqs, .linkRr, .ctxs, .queues, .cmds]
      [r_CMP_PLACE_MISS, r_SCH_SPILL_BYTES, r_XLT_STATUS, r_XLT_WALKS, r_XLT_STLB_MISS, r_QOS_DEMOTED, r_QOS_IMG_DEMOTE,
      r_TMV_CORE_STAT, r_TMV_BCH_DONE, r_TMV_CLU_RD, r_TMV_CLU_WR, r_MEM_POISON_RD, r_MEM_BRIDGE_STAT, r_MEM_RD_BYTES,
      r_LNK_DISCARDS, r_LNK_PORT_TX, r_PWR_CORE_FREQ, r_THM_WING, r_THM_CORE_AGE, r_SEC_WORLD_REFUSED] s s') ∧
  (∀ t, exec (.mloadw t) s = .next s' → Kept [.cores, .kernels, .ctxs, .scheds] [r_SCH_SLOT, r_SCH_IMG] s s') ∧
  (∀ t, exec (.wblock t) s = .next s' → Kept [.cores, .kernels, .ctxs, .scheds] [r_SCH_SLOT, r_SCH_IMG] s s') ∧
  (∀ t, exec (.wtile t) s = .next s' → Kept [.cores, .kernels, .ctxs, .scheds] [r_SCH_SLOT, r_SCH_IMG] s s') ∧
  (∀ t, exec (.atile t) s = .next s' → Kept [.cores, .kernels, .ctxs, .scheds] [r_SCH_SLOT, r_SCH_IMG] s s') ∧
  (∀ t, exec (.mstream t) s = .next s' → Kept [.cores, .kernels, .ctxs, .scheds] [r_SCH_SLOT, r_SCH_IMG] s s') ∧
  (∀ t, exec (.msparse t) s = .next s' → Kept [.cores, .kernels, .ctxs, .scheds] [r_SCH_SLOT, r_SCH_IMG] s s') ∧
  (∀ t, exec (.mdrain t) s = .next s' → Kept [.cores, .kernels, .ctxs, .scheds] [r_SCH_SLOT, r_SCH_IMG] s s') ∧
  (∀ c seq ups, exec (.mEngineBegin c seq ups) s = .next s' →
    Kept [.freeCtr, .cores, .kernels, .landing, .ctxs, .scheds]
      [r_SCH_SLOT, r_SCH_IMG, r_TMV_SCR_CE, r_TMV_SCR_UE, r_TMV_SCR_UE_LOG] s s') ∧
  (∀ c ups, exec (.aChunkArrival c ups) s = .next s' →
    Kept [.freeCtr, .cores, .kernels, .landing, .ctxs, .scheds]
      [r_SCH_SLOT, r_SCH_IMG, r_TMV_SCR_CE, r_TMV_SCR_UE, r_TMV_SCR_UE_LOG] s s') ∧
  (∀ c, exec (.matrixRowEntry c) s = .next s' →
    Kept [.freeCtr, .cores, .kernels, .landing, .ctxs, .scheds]
      [r_SCH_SLOT, r_SCH_IMG, r_TMV_SCR_CE, r_TMV_SCR_UE, r_TMV_SCR_UE_LOG] s s') ∧
  (∀ c bad, exec (.accUpdate c bad) s = .next s' →
    Kept [.freeCtr, .cores, .kernels, .landing, .ctxs, .scheds]
      [r_SCH_SLOT, r_SCH_IMG, r_TMV_SCR_CE, r_TMV_SCR_UE, r_TMV_SCR_UE_LOG] s s') ∧
  (∀ x, exec (.noRowStreamUpdate x) s = .next s' →
    Kept [.freeCtr, .cores, .kernels, .landing, .ctxs, .scheds]
      [r_SCH_SLOT, r_SCH_IMG, r_TMV_SCR_CE, r_TMV_SCR_UE, r_TMV_SCR_UE_LOG] s s') ∧
  (∀ c ups, exec (.slotLoadComplete c ups) s = .next s' →
    Kept [.freeCtr, .cores, .kernels, .landing, .ctxs, .scheds]
      [r_SCH_SLOT, r_SCH_IMG, r_TMV_SCR_CE, r_TMV_SCR_UE, r_TMV_SCR_UE_LOG] s s') ∧
  (∀ c bad, exec (.drainRowRead c bad) s = .next s' →
    Kept [.freeCtr, .cores, .kernels, .landing, .ctxs, .scheds]
      [r_SCH_SLOT, r_SCH_IMG, r_TMV_SCR_CE, r_TMV_SCR_UE, r_TMV_SCR_UE_LOG] s s') ∧
  (∀ c, exec (.drainRowWrite c) s = .next s' → Kept [.cores, .landing] [r_TMV_SCR_CE, r_TMV_SCR_UE, r_TMV_SCR_UE_LOG] s s') ∧
  (∀ c e, exec (.mInstrComplete c e) s = .next s' → Kept [.cores, .kernels, .movers] [r_TMV_CORE_STAT] s s') ∧
  (∀ c, exec (.scratchEccWriteback c) s = .next s' → Kept [.cores] [r_TMV_SCR_UE, r_TMV_SCR_UE_LOG] s s') ∧
  (∀ u k, exec (.descFront u k) s = .next s' →
    Kept [.freeCtr, .nextId, .cores, .kernels, .ops, .movers, .reqs, .host, .hostPoison, .regCounts, .tiles, .stallAt, .walks, .tlb,
      .tracker, .fqHeld, .gates, .landing, .ports, .linkIn, .linkReqs, .linkRr, .ctxs, .scheds, .queues, .cmds]
      [r_CMP_PLACE_MISS, r_SCH_SLOT, r_SCH_IMG, r_XLT_STATUS, r_XLT_FAULTS, r_XLT_WALKS, r_XLT_STLB_MISS, r_QOS_DEMOTED,
      r_QOS_IMG_DEMOTE, r_TMV_SCR_CE, r_TMV_SCR_UE, r_TMV_SCR_UE_LOG, r_TMV_CORE_STAT, r_TMV_BCH_CFG, r_TMV_BCH_STAT,
      r_MEM_BRIDGE_STAT, r_LNK_DISCARDS, r_LNK_PORT_TX, r_SEC_WORLD_REFUSED] s s') ∧
  (∀ u k, exec (.descTranslated u k) s = .next s' →
    Kept [.freeCtr, .nextId, .cores, .kernels, .ops, .movers, .reqs, .host, .hostPoison, .regCounts, .tiles, .stallAt, .walks, .tlb,
      .tracker, .fqHeld, .gates, .landing, .ports, .linkIn, .linkReqs, .linkRr, .ctxs, .scheds, .queues, .cmds]
      [r_CMP_PLACE_MISS, r_SCH_SLOT, r_SCH_IMG, r_XLT_STATUS, r_XLT_FAULTS, r_XLT_WALKS, r_XLT_STLB_MISS, r_QOS_DEMOTED,
      r_QOS_IMG_DEMOTE, r_TMV_SCR_CE, r_TMV_SCR_UE, r_TMV_SCR_UE_LOG, r_TMV_CORE_STAT, r_TMV_BCH_CFG, r_TMV_BCH_STAT, r_TMV_CLU_RD,
      r_MEM_BRIDGE_STAT, r_LNK_DISCARDS, r_LNK_PORT_TX, r_SEC_WORLD_REFUSED] s s') ∧
  (∀ u, exec (.burstStart u) s = .next s' →
    Kept [.freeCtr, .nextId, .cores, .kernels, .ops, .movers, .reqs, .host, .hostPoison, .regCounts, .missPosted, .tiles, .stallAt,
      .walks, .tlb, .tracker, .fqHeld, .gates, .landing, .evHeld, .ports, .linkIn, .linkReqs, .linkRr, .ctxs, .scheds, .queues,
      .cmds]
      [r_CMP_PLACE_MISS, r_SCH_SLOT, r_SCH_IMG, r_XLT_STATUS, r_XLT_FAULTS, r_XLT_WALKS, r_XLT_STLB_MISS, r_QOS_STATUS,
      r_QOS_MISS_COUNT, r_QOS_DEMOTED, r_QOS_IMG_MISS, r_QOS_IMG_DEMOTE, r_TMV_SCR_CE, r_TMV_SCR_UE, r_TMV_SCR_UE_LOG,
      r_TMV_CORE_STAT, r_TMV_BCH_CFG, r_TMV_BCH_STAT, r_TMV_CLU_RD, r_TMV_CLU_WR, r_MEM_POISON_RD, r_MEM_BRIDGE_STAT,
      r_LNK_DISCARDS, r_LNK_PORT_TX, r_SEC_WORLD_REFUSED, r_EVT_EQ_LOST] s s') ∧
  (∀ u k ups, exec (.moverReadReturn u k ups) s = .next s' →
    Kept [.freeCtr, .nextId, .cores, .kernels, .ops, .movers, .reqs, .host, .hostPoison, .regCounts, .missPosted, .tiles, .stallAt,
      .walks, .tlb, .tracker, .fqHeld, .gates, .landing, .evHeld, .ports, .linkIn, .linkReqs, .linkRr, .ctxs, .scheds, .queues,
      .cmds]
      [r_CMP_STALE, r_CMP_STALE_KIND, r_CMP_PLACE_MISS, r_SCH_SLOT, r_SCH_IMG, r_XLT_STATUS, r_XLT_FAULTS, r_XLT_WALKS,
      r_XLT_STLB_MISS, r_QOS_STATUS, r_QOS_MISS_COUNT, r_QOS_DEMOTED, r_QOS_IMG_MISS, r_QOS_IMG_DEMOTE, r_TMV_SCR_CE, r_TMV_SCR_UE,
      r_TMV_SCR_UE_LOG, r_TMV_CORE_STAT, r_TMV_BCH_CFG, r_TMV_BCH_STAT, r_TMV_CLU_WR, r_MEM_POISON_RD, r_MEM_BRIDGE_STAT,
      r_LNK_DISCARDS, r_LNK_PORT_TX, r_PWR_CORE_FREQ, r_THM_WING, r_THM_CORE_AGE, r_SEC_WORLD_REFUSED, r_EVT_EQ_LOST] s s') ∧
  (∀ u k, exec (.descComplete u k) s = .next s' →
    Kept [.freeCtr, .nextId, .cores, .kernels, .ops, .movers, .reqs, .host, .hostPoison, .regCounts, .tiles, .stallAt, .walks, .tlb,
      .tracker, .fqHeld, .gates, .landing, .ports, .linkIn, .linkReqs, .linkRr, .ctxs, .scheds, .queues, .cmds]
      [r_CMP_PLACE_MISS, r_SCH_SLOT, r_SCH_IMG, r_XLT_STATUS, r_XLT_FAULTS, r_XLT_WALKS, r_XLT_STLB_MISS, r_QOS_DEMOTED,
      r_QOS_IMG_DEMOTE, r_TMV_SCR_CE, r_TMV_SCR_UE, r_TMV_SCR_UE_LOG, r_TMV_CORE_STAT, r_TMV_BCH_CFG, r_TMV_BCH_STAT,
      r_TMV_BCH_DONE, r_TMV_CLU_WR, r_MEM_BRIDGE_STAT, r_LNK_DISCARDS, r_LNK_PORT_TX, r_PWR_CORE_FREQ, r_THM_WING, r_THM_CORE_AGE,
      r_SEC_WORLD_REFUSED] s s') ∧
  (∀ u k, exec (.peerAccessTimeout u k) s = .next s' →
    Kept [.freeCtr, .nextId, .cores, .kernels, .ops, .movers, .reqs, .host, .hostPoison, .regCounts, .tiles, .stallAt, .walks, .gates,
      .landing, .ports, .linkIn, .linkReqs, .linkRr, .ctxs, .scheds, .queues, .cmds]
      [r_SCH_SLOT, r_SCH_IMG, r_XLT_STATUS, r_QOS_DEMOTED, r_QOS_IMG_DEMOTE, r_TMV_SCR_CE, r_TMV_SCR_UE, r_TMV_SCR_UE_LOG,
      r_TMV_CORE_STAT, r_TMV_BCH_CFG, r_TMV_BCH_STAT, r_MEM_BRIDGE_STAT, r_LNK_DISCARDS, r_LNK_PORT_TX] s s') ∧
  (∀ u k, exec (.bstHeaderReturn u k) s = .next s' →
    Kept [.freeCtr, .nextId, .cores, .kernels, .ops, .movers, .reqs, .host, .hostPoison, .regCounts, .missPosted, .tiles, .stallAt,
      .walks, .tlb, .tracker, .fqHeld, .gates, .landing, .evHeld, .ports, .linkIn, .linkReqs, .linkRr, .ctxs, .scheds, .queues,
      .cmds]
      [r_CMP_PLACE_MISS, r_SCH_SLOT, r_SCH_IMG, r_XLT_STATUS, r_XLT_FAULTS, r_XLT_WALKS, r_XLT_STLB_MISS, r_QOS_STATUS,
      r_QOS_MISS_COUNT, r_QOS_DEMOTED, r_QOS_IMG_MISS, r_QOS_IMG_DEMOTE, r_TMV_SCR_CE, r_TMV_SCR_UE, r_TMV_SCR_UE_LOG,
      r_TMV_CORE_STAT, r_TMV_BCH_CFG, r_TMV_BCH_STAT, r_MEM_POISON_RD, r_MEM_BRIDGE_STAT, r_LNK_DISCARDS, r_LNK_PORT_TX,
      r_PWR_CORE_FREQ, r_THM_WING, r_THM_CORE_AGE, r_SEC_WORLD_REFUSED, r_EVT_EQ_LOST] s s') ∧
  (∀ u k, exec (.bstTileRow u k) s = .next s' →
    Kept [.freeCtr, .nextId, .cores, .kernels, .ops, .movers, .reqs, .host, .hostPoison, .regCounts, .missPosted, .tiles, .stallAt,
      .walks, .tlb, .tracker, .fqHeld, .gates, .landing, .evHeld, .ports, .linkIn, .linkReqs, .linkRr, .ctxs, .scheds, .queues,
      .cmds]
      [r_CMP_PLACE_MISS, r_SCH_SLOT, r_SCH_IMG, r_XLT_STATUS, r_XLT_FAULTS, r_XLT_WALKS, r_XLT_STLB_MISS, r_QOS_STATUS,
      r_QOS_MISS_COUNT, r_QOS_DEMOTED, r_QOS_IMG_MISS, r_QOS_IMG_DEMOTE, r_TMV_SCR_CE, r_TMV_SCR_UE, r_TMV_SCR_UE_LOG,
      r_TMV_CORE_STAT, r_TMV_BCH_CFG, r_TMV_BCH_STAT, r_MEM_POISON_RD, r_MEM_BRIDGE_STAT, r_LNK_DISCARDS, r_LNK_PORT_TX,
      r_PWR_CORE_FREQ, r_THM_WING, r_THM_CORE_AGE, r_SEC_WORLD_REFUSED, r_EVT_EQ_LOST] s s') ∧
  (∀ w, exec (.gateDispatchSelect w) s = .next s' →
    Kept [.freeCtr, .nextId, .cores, .reqs, .hbm, .hbmPoison, .bufs, .host, .hostPoison, .regCounts, .tlb, .wcache, .gates, .landing,
      .ports, .linkIn, .linkRr]
      [r_CMP_PLACE_MISS, r_XLT_WALKS, r_XLT_STLB_MISS, r_QOS_DEMOTED, r_QOS_IMG_DEMOTE, r_MEM_POISON_RD, r_MEM_BRIDGE_STAT,
      r_MEM_RD_BYTES, r_MEM_WR_BYTES, r_LNK_DISCARDS, r_LNK_PORT_TX, r_PWR_CORE_FREQ, r_THM_WING, r_THM_CORE_AGE,
      r_SEC_WORLD_REFUSED] s s') ∧
  (∀ w ups, exec (.route w ups) s = .next s' →
    Kept [.freeCtr, .nextId, .cores, .ops, .movers, .reqs, .hbm, .hbmPoison, .bufs, .host, .hostPoison, .regCounts, .tiles, .stallAt,
      .tlb, .wcache, .tracker, .fqHeld, .gates, .landing, .ports, .linkIn, .linkReqs, .linkRr]
      [r_CMP_PLACE_MISS, r_XLT_STATUS, r_XLT_FAULTS, r_XLT_WALKS, r_XLT_STLB_MISS, r_QOS_DEMOTED, r_QOS_IMG_DEMOTE, r_TMV_SCR_CE,
      r_TMV_SCR_UE, r_TMV_SCR_UE_LOG, r_TMV_CORE_STAT, r_GATE_PROMOTED, r_MEM_UE_LOG, r_MEM_POISON_RD, r_MEM_BRIDGE_STAT, r_MEM_CE,
      r_MEM_UE, r_MEM_RD_BYTES, r_MEM_WR_BYTES, r_LNK_DISCARDS, r_LNK_PORT_TX, r_SEC_WORLD_REFUSED] s s') ∧
  (∀ w, exec (.combine w) s = .next s' →
    Kept [.freeCtr, .nextId, .ops, .movers, .reqs, .hbm, .hbmPoison, .bufs, .host, .hostPoison, .regCounts, .tiles, .stallAt, .tlb,
      .wcache, .tracker, .fqHeld, .gates, .landing, .ports, .linkIn, .linkReqs, .linkRr]
      [r_CMP_PLACE_MISS, r_XLT_STATUS, r_XLT_FAULTS, r_XLT_WALKS, r_XLT_STLB_MISS, r_QOS_DEMOTED, r_QOS_IMG_DEMOTE, r_TMV_CORE_STAT,
      r_MEM_POISON_RD, r_MEM_BRIDGE_STAT, r_MEM_RD_BYTES, r_MEM_WR_BYTES, r_LNK_DISCARDS, r_LNK_PORT_TX, r_SEC_WORLD_REFUSED] s s') ∧
  (∀ w ups, exec (.exit w ups) s = .next s' →
    Kept [.freeCtr, .nextId, .cores, .ops, .movers, .reqs, .hbm, .hbmPoison, .bufs, .host, .hostPoison, .regCounts, .tiles, .stallAt,
      .tlb, .wcache, .tracker, .fqHeld, .gates, .landing, .ports, .linkIn, .linkReqs, .linkRr]
      [r_CMP_PLACE_MISS, r_XLT_STATUS, r_XLT_FAULTS, r_XLT_WALKS, r_XLT_STLB_MISS, r_QOS_DEMOTED, r_QOS_IMG_DEMOTE, r_TMV_SCR_CE,
      r_TMV_SCR_UE, r_TMV_SCR_UE_LOG, r_TMV_CORE_STAT, r_MEM_POISON_RD, r_MEM_BRIDGE_STAT, r_MEM_RD_BYTES, r_MEM_WR_BYTES,
      r_LNK_DISCARDS, r_LNK_PORT_TX, r_SEC_WORLD_REFUSED] s s') ∧
  (∀ w, exec (.gateGatherComplete w) s = .next s' →
    Kept [.freeCtr, .nextId, .ops, .movers, .reqs, .hbm, .hbmPoison, .bufs, .host, .hostPoison, .regCounts, .tiles, .stallAt, .tlb,
      .wcache, .tracker, .fqHeld, .gates, .landing, .ports, .linkIn, .linkReqs, .linkRr]
      [r_CMP_PLACE_MISS, r_XLT_STATUS, r_XLT_FAULTS, r_XLT_WALKS, r_XLT_STLB_MISS, r_QOS_DEMOTED, r_QOS_IMG_DEMOTE, r_TMV_CORE_STAT,
      r_MEM_POISON_RD, r_MEM_BRIDGE_STAT, r_MEM_RD_BYTES, r_MEM_WR_BYTES, r_LNK_DISCARDS, r_LNK_PORT_TX, r_SEC_WORLD_REFUSED] s s') ∧
  (∀ w, exec (.gateDispatchComplete w) s = .next s' →
    Kept [.freeCtr, .nextId, .ops, .movers, .reqs, .hbm, .hbmPoison, .bufs, .host, .hostPoison, .regCounts, .tiles, .stallAt, .tlb,
      .wcache, .tracker, .fqHeld, .gates, .landing, .ports, .linkIn, .linkReqs, .linkRr, .cmds]
      [r_CMP_PLACE_MISS, r_XLT_STATUS, r_XLT_FAULTS, r_XLT_WALKS, r_XLT_STLB_MISS, r_QOS_DEMOTED, r_QOS_IMG_DEMOTE, r_TMV_CORE_STAT,
      r_GATE_DONE, r_MEM_POISON_RD, r_MEM_BRIDGE_STAT, r_MEM_RD_BYTES, r_MEM_WR_BYTES, r_LNK_DISCARDS, r_LNK_PORT_TX,
      r_SEC_WORLD_REFUSED] s s') ∧
  (∀ id errs, exec (.slotFetchLanded id errs) s = .next s' → Kept [.cores, .landing] [r_CMP_STALE, r_CMP_STALE_KIND] s s') ∧
  (∀ id, exec (.slotFetchVoid id) s = .next s' → Kept [.landing] [] s s') ∧
  (∀ id errs, exec (.slotPromoted id errs) s = .next s' →
    Kept [.cores, .hbmPoison, .landing]
      [r_CMP_STALE, r_CMP_STALE_KIND, r_GATE_PROMOTED, r_MEM_UE_LOG, r_MEM_POISON_RD, r_MEM_CE, r_MEM_UE] s s') ∧
  (∀ id, exec (.squash id) s = .next s' → Kept [.landing] [] s s') ∧
  (∀ id, exec (.squashComplete id) s = .next s' → Kept [.cores, .landing] [] s s') ∧
  (∀ id, exec (.slotTtlExpiry id) s = .next s' → Kept [.landing] [] s s') ∧
  (∀ w v, exec (.gateCtrlWrite w v) s = .next s' → Kept [.landing] [r_GATE_CTRL] s s') ∧
  (∀ w, exec (.squashAll w) s = .next s' → Kept [.landing] [] s s') ∧
  (∀ w, exec (.forget w) s = .next s' → Kept [.gates, .landing] [r_GATE_WGEN] s s') ∧
  (∀ id, exec (.silkHomeOp id) s = .next s' →
    Kept [.freeCtr, .cores, .kernels, .ops, .evHeld, .silkMsgs, .silkWaiters, .silkReplies, .silkSent, .ports, .linkRr, .ctxs, .scheds]
      [r_CMP_STALE, r_CMP_STALE_KIND, r_SCH_SLOT, r_SCH_IMG, r_LNK_DISCARDS, r_LNK_PORT_TX, r_SILK_OPS, r_SILK_LATE, r_SILK_CTR,
      r_SILK_X_OPS, r_EVT_EQ_LOST] s s') ∧
  (∀ n v, exec (.silkCtrWrite n v) s = .next s' →
    Kept [.freeCtr, .cores, .ops, .silkWaiters, .silkReplies, .silkSent, .ports, .linkRr, .custody, .ctxs]
      [r_CMP_STALE, r_CMP_STALE_KIND, r_LNK_DISCARDS, r_LNK_PORT_TX, r_SILK_CTR] s s')

/-- Memory, translation, events, composition, queues, commands and scheduling: what each command of these families can change,
and that it leaves everything else as it was. -/
def Obligations.FrameOfMemoryAndWork : Prop := ∀ s s',
  (∀ id errs, exec (.bufferRequest id errs) s = .next s' →
    Kept [.freeCtr, .ops, .movers, .reqs, .hbm, .hbmPoison, .bufs, .host, .hostPoison, .regCounts, .missPosted, .evHeld, .ports,
      .linkIn, .linkReqs, .linkRr]
      [r_QOS_STATUS, r_QOS_MISS_COUNT, r_QOS_DEMOTED, r_QOS_IMG_MISS, r_QOS_IMG_DEMOTE, r_TMV_CORE_STAT, r_MEM_UE_LOG,
      r_MEM_BRIDGE_STAT, r_MEM_CE, r_MEM_UE, r_MEM_RD_BYTES, r_MEM_WR_BYTES, r_LNK_DISCARDS, r_LNK_PORT_TX, r_EVT_EQ_LOST] s s') ∧
  (∀ id errs, exec (.hbmAccessComplete id errs) s = .next s' →
    Kept [.freeCtr, .ops, .movers, .reqs, .hbm, .hbmPoison, .bufs, .host, .hostPoison, .regCounts, .missPosted, .evHeld, .ports,
      .linkIn, .linkReqs, .linkRr]
      [r_QOS_STATUS, r_QOS_MISS_COUNT, r_QOS_DEMOTED, r_QOS_IMG_MISS, r_QOS_IMG_DEMOTE, r_TMV_CORE_STAT, r_MEM_UE_LOG,
      r_MEM_BRIDGE_STAT, r_MEM_CE, r_MEM_UE, r_MEM_RD_BYTES, r_MEM_WR_BYTES, r_LNK_DISCARDS, r_LNK_PORT_TX, r_EVT_EQ_LOST] s s') ∧
  (∀ id errs, exec (.bufferAtomic id errs) s = .next s' →
    Kept [.freeCtr, .ops, .movers, .reqs, .bufs, .host, .hostPoison, .regCounts, .missPosted, .evHeld, .ports, .linkIn, .linkReqs,
      .linkRr]
      [r_QOS_STATUS, r_QOS_MISS_COUNT, r_QOS_DEMOTED, r_QOS_IMG_MISS, r_QOS_IMG_DEMOTE, r_TMV_CORE_STAT, r_MEM_UE_LOG,
      r_MEM_BRIDGE_STAT, r_MEM_CE, r_MEM_UE, r_MEM_RD_BYTES, r_MEM_WR_BYTES, r_LNK_DISCARDS, r_LNK_PORT_TX, r_EVT_EQ_LOST] s s') ∧
  (∀ id errs, exec (.bufferReduction id errs) s = .next s' →
    Kept [.freeCtr, .ops, .movers, .reqs, .bufs, .host, .hostPoison, .regCounts, .missPosted, .evHeld, .ports, .linkIn, .linkReqs,
      .linkRr]
      [r_QOS_STATUS, r_QOS_MISS_COUNT, r_QOS_DEMOTED, r_QOS_IMG_MISS, r_QOS_IMG_DEMOTE, r_TMV_CORE_STAT, r_MEM_UE_LOG,
      r_MEM_BRIDGE_STAT, r_MEM_CE, r_MEM_UE, r_MEM_RD_BYTES, r_MEM_WR_BYTES, r_LNK_DISCARDS, r_LNK_PORT_TX, r_EVT_EQ_LOST] s s') ∧
  (∀ m errs, exec (.scrubLine m errs) s = .next s' →
    Kept [.hbmPoison, .bufs, .scrubPos]
      [r_MEM_STATUS, r_MEM_UE_LOG, r_MEM_CE, r_MEM_UE] s s') ∧
  (∀ b k again, exec (.bridgeResend b k again) s = .next s' →
    Kept [.bridgeRun, .evHeld]
      [r_QOS_STATUS, r_MEM_BRIDGE_STAT, r_EVT_EQ_LOST] s s') ∧
  (∀ n o len write atomicOp data poisoned, exec (.apertureRequest n o len write atomicOp data poisoned) s = .next s' →
    Kept [.reply, .hbm, .hbmPoison, .bufs, .host, .hostPoison]
      [r_MEM_POISON_RD, r_MEM_BRIDGE_STAT, r_MEM_RD_BYTES, r_MEM_WR_BYTES, r_SEC_WORLD_REFUSED] s s') ∧
  (∀ m, exec (.wb m) s = .next s' → Kept [.hbm, .hbmPoison, .bufs] [r_MEM_SLICE_STAT] s s') ∧
  (∀ m, exec (.wbinv m) s = .next s' → Kept [.hbm, .hbmPoison, .bufs] [r_MEM_SLICE_STAT] s s') ∧
  (∀ m, exec (.sliceCmdDone m) s = .next s' → Kept [] [r_MEM_SLICE_STAT] s s') ∧
  (exec .regulatorWindow s = .next s' →
    Kept [.winStart, .winLen, .regCounts, .qosOld, .missPosted, .ports]
      [r_LNK_PORT_TX] s s') ∧
  (∀ v, exec (.qosWinLenWrite v) s = .next s' → Kept [] [r_QOS_WIN_LEN] s s') ∧
  (∀ wid hostErr, exec (.walkReadReturn wid hostErr) s = .next s' →
    Kept [.freeCtr, .nextId, .cores, .ops, .movers, .reqs, .host, .hostPoison, .regCounts, .missPosted, .tiles, .stallAt, .walks, .tlb,
      .wcache, .tracker, .fqHeld, .evHeld, .ports, .linkIn, .linkReqs, .linkRr, .queues, .cmds]
      [r_CMP_PLACE_MISS, r_XLT_STATUS, r_XLT_FAULTS, r_XLT_WALKS, r_XLT_STLB_MISS, r_QOS_STATUS, r_QOS_MISS_COUNT, r_QOS_DEMOTED,
      r_QOS_IMG_MISS, r_QOS_IMG_DEMOTE, r_TMV_CORE_STAT, r_MEM_POISON_RD, r_MEM_BRIDGE_STAT, r_LNK_DISCARDS, r_LNK_PORT_TX,
      r_SEC_WORLD_REFUSED, r_EVT_EQ_LOST] s s') ∧
  (∀ win, exec (.faultRecordPost win) s = .next s' → Kept [.host, .fqHeld, .rings, .armed, .msixDue] [r_EVT_FQ_TAIL] s s') ∧
  (∀ win id, exec (.replay win id) s = .next s' →
    Kept [.freeCtr, .nextId, .cores, .reqs, .host, .hostPoison, .regCounts, .tiles, .stallAt, .walks, .tlb, .tracker, .fqHeld, .ports,
      .linkIn, .linkRr, .queues, .cmds]
      [r_CMP_PLACE_MISS, r_XLT_STATUS, r_XLT_FAULTS, r_XLT_WALKS, r_XLT_STLB_MISS, r_XLT_REPLAY_STALE, r_QOS_DEMOTED,
      r_QOS_IMG_DEMOTE, r_MEM_BRIDGE_STAT, r_LNK_DISCARDS, r_LNK_PORT_TX, r_SEC_WORLD_REFUSED] s s') ∧
  (∀ win id, exec (.abort win id) s = .next s' →
    Kept [.freeCtr, .nextId, .cores, .kernels, .ops, .movers, .reqs, .hbm, .hbmPoison, .bufs, .host, .hostPoison, .regCounts, .tiles,
      .stallAt, .walks, .tlb, .wcache, .tracker, .fqHeld, .gates, .landing, .evHeld, .ports, .linkIn, .linkReqs, .linkRr, .ctxs,
      .scheds, .queues, .cmds]
      [r_CMP_PLACE_MISS, r_SCH_SLOT, r_SCH_IMG, r_XLT_STATUS, r_XLT_FAULTS, r_XLT_WALKS, r_XLT_STLB_MISS, r_XLT_REPLAY_STALE,
      r_QOS_DEMOTED, r_QOS_IMG_DEMOTE, r_TMV_SCR_CE, r_TMV_SCR_UE, r_TMV_SCR_UE_LOG, r_TMV_CORE_STAT, r_TMV_BCH_CFG,
      r_TMV_BCH_STAT, r_MEM_POISON_RD, r_MEM_BRIDGE_STAT, r_MEM_RD_BYTES, r_MEM_WR_BYTES, r_LNK_DISCARDS, r_LNK_PORT_TX,
      r_SEC_WORLD_REFUSED, r_EVT_EQ_LOST] s s') ∧
  (∀ k, exec (.faultTimeout k) s = .next s' →
    Kept [.freeCtr, .nextId, .cores, .kernels, .ops, .movers, .reqs, .hbm, .hbmPoison, .bufs, .host, .hostPoison, .regCounts, .tiles,
      .stallAt, .walks, .tlb, .wcache, .tracker, .fqHeld, .gates, .landing, .evHeld, .ports, .linkIn, .linkReqs, .linkRr, .ctxs,
      .scheds, .queues, .cmds]
      [r_CMP_PLACE_MISS, r_SCH_SLOT, r_SCH_IMG, r_XLT_STATUS, r_XLT_FAULTS, r_XLT_FAULTS_TMO, r_XLT_WALKS, r_XLT_STLB_MISS,
      r_QOS_DEMOTED, r_QOS_IMG_DEMOTE, r_TMV_SCR_CE, r_TMV_SCR_UE, r_TMV_SCR_UE_LOG, r_TMV_CORE_STAT, r_TMV_BCH_CFG,
      r_TMV_BCH_STAT, r_MEM_POISON_RD, r_MEM_BRIDGE_STAT, r_MEM_RD_BYTES, r_MEM_WR_BYTES, r_LNK_DISCARDS, r_LNK_PORT_TX,
      r_SEC_WORLD_REFUSED, r_EVT_EQ_LOST] s s') ∧
  (∀ win v, exec (.iqTailWrite win v) s = .next s' → Kept [] [r_XLT_IQ_TAIL] s s') ∧
  (∀ win, exec (.range win) s = .next s' →
    Kept [.freeCtr, .nextId, .cores, .kernels, .ops, .movers, .reqs, .host, .hostPoison, .regCounts, .tiles, .stallAt, .walks, .tlb,
      .wcache, .tracker, .invals, .fqHeld, .gates, .landing, .ports, .linkIn, .linkReqs, .linkRr, .ctxs, .scheds, .queues, .cmds]
      [r_CMP_PLACE_MISS, r_SCH_SLOT, r_SCH_IMG, r_XLT_STATUS, r_XLT_FAULTS, r_XLT_WALKS, r_XLT_STLB_MISS, r_XLT_IQ_HEAD,
      r_XLT_IQ_STATUS, r_QOS_DEMOTED, r_QOS_IMG_DEMOTE, r_TMV_SCR_CE, r_TMV_SCR_UE, r_TMV_SCR_UE_LOG, r_TMV_CORE_STAT,
      r_TMV_BCH_CFG, r_TMV_BCH_STAT, r_MEM_BRIDGE_STAT, r_LNK_DISCARDS, r_LNK_PORT_TX, r_SEC_WORLD_REFUSED] s s') ∧
  (∀ win, exec (.space win) s = .next s' →
    Kept [.freeCtr, .nextId, .cores, .kernels, .ops, .movers, .reqs, .host, .hostPoison, .regCounts, .tiles, .stallAt, .walks, .tlb,
      .wcache, .tracker, .invals, .fqHeld, .gates, .landing, .ports, .linkIn, .linkReqs, .linkRr, .ctxs, .scheds, .queues, .cmds]
      [r_CMP_PLACE_MISS, r_SCH_SLOT, r_SCH_IMG, r_XLT_STATUS, r_XLT_FAULTS, r_XLT_WALKS, r_XLT_STLB_MISS, r_XLT_IQ_HEAD,
      r_XLT_IQ_STATUS, r_QOS_DEMOTED, r_QOS_IMG_DEMOTE, r_TMV_SCR_CE, r_TMV_SCR_UE, r_TMV_SCR_UE_LOG, r_TMV_CORE_STAT,
      r_TMV_BCH_CFG, r_TMV_BCH_STAT, r_MEM_BRIDGE_STAT, r_LNK_DISCARDS, r_LNK_PORT_TX, r_SEC_WORLD_REFUSED] s s') ∧
  (∀ win, exec (.all win) s = .next s' →
    Kept [.freeCtr, .nextId, .cores, .kernels, .ops, .movers, .reqs, .host, .hostPoison, .regCounts, .tiles, .stallAt, .walks, .tlb,
      .wcache, .tracker, .invals, .fqHeld, .gates, .landing, .ports, .linkIn, .linkReqs, .linkRr, .ctxs, .scheds, .queues, .cmds]
      [r_CMP_PLACE_MISS, r_SCH_SLOT, r_SCH_IMG, r_XLT_STATUS, r_XLT_FAULTS, r_XLT_WALKS, r_XLT_STLB_MISS, r_XLT_IQ_HEAD,
      r_XLT_IQ_STATUS, r_QOS_DEMOTED, r_QOS_IMG_DEMOTE, r_TMV_SCR_CE, r_TMV_SCR_UE, r_TMV_SCR_UE_LOG, r_TMV_CORE_STAT,
      r_TMV_BCH_CFG, r_TMV_BCH_STAT, r_MEM_BRIDGE_STAT, r_LNK_DISCARDS, r_LNK_PORT_TX, r_SEC_WORLD_REFUSED] s s') ∧
  (∀ win, exec (.sync win) s = .next s' →
    Kept [.freeCtr, .nextId, .cores, .kernels, .ops, .movers, .reqs, .host, .hostPoison, .regCounts, .tiles, .stallAt, .walks, .tlb,
      .wcache, .tracker, .invals, .fqHeld, .gates, .landing, .ports, .linkIn, .linkReqs, .linkRr, .ctxs, .scheds, .queues, .cmds]
      [r_CMP_PLACE_MISS, r_SCH_SLOT, r_SCH_IMG, r_XLT_STATUS, r_XLT_FAULTS, r_XLT_WALKS, r_XLT_STLB_MISS, r_XLT_IQ_HEAD,
      r_XLT_IQ_STATUS, r_QOS_DEMOTED, r_QOS_IMG_DEMOTE, r_TMV_SCR_CE, r_TMV_SCR_UE, r_TMV_SCR_UE_LOG, r_TMV_CORE_STAT,
      r_TMV_BCH_CFG, r_TMV_BCH_STAT, r_MEM_BRIDGE_STAT, r_LNK_DISCARDS, r_LNK_PORT_TX, r_SEC_WORLD_REFUSED] s s') ∧
  (∀ id, exec (.invalidationComplete id) s = .next s' →
    Kept [.freeCtr, .nextId, .ops, .movers, .reqs, .hbm, .hbmPoison, .bufs, .host, .hostPoison, .regCounts, .tlb, .wcache, .invals,
      .evHeld, .ports, .linkIn, .linkReqs, .linkRr, .cmds, .fenceWaiters, .fenceOuts]
      [r_CMP_STALE, r_CMP_STALE_KIND, r_CMP_PLACE_MISS, r_XLT_WALKS, r_XLT_STLB_MISS, r_XLT_IQ_HEAD, r_QOS_DEMOTED,
      r_QOS_IMG_DEMOTE, r_TMV_CORE_STAT, r_MEM_POISON_RD, r_MEM_BRIDGE_STAT, r_MEM_RD_BYTES, r_MEM_WR_BYTES, r_LNK_DISCARDS,
      r_LNK_PORT_TX, r_SEC_WORLD_REFUSED, r_EVT_EQ_LOST] s s') ∧
  (∀ id, exec (.invalidationSlow id) s = .next s' → Kept [.invals] [r_XLT_INV_SLOW] s s') ∧
  (∀ win v, exec (.wsFlush win v) s = .next s' →
    Kept [.freeCtr, .nextId, .cores, .kernels, .ops, .movers, .reqs, .host, .hostPoison, .regCounts, .tiles, .stallAt, .walks, .tlb,
      .wcache, .tracker, .invals, .fqHeld, .slots, .gates, .landing, .ports, .linkIn, .linkReqs, .linkRr, .ctxs, .scheds, .queues,
      .cmds]
      [r_CMP_PLACE_MISS, r_SCH_SLOT, r_SCH_IMG, r_XLT_STATUS, r_XLT_FAULTS, r_XLT_WALKS, r_XLT_STLB_MISS, r_XLT_IQ_STATUS,
      r_XLT_WS_FLUSH, r_XLT_WS_FLUSH_DONE, r_QOS_DEMOTED, r_QOS_IMG_DEMOTE, r_TMV_SCR_CE, r_TMV_SCR_UE, r_TMV_SCR_UE_LOG,
      r_TMV_CORE_STAT, r_TMV_BCH_CFG, r_TMV_BCH_STAT, r_MEM_BRIDGE_STAT, r_LNK_DISCARDS, r_LNK_PORT_TX, r_SEC_WORLD_REFUSED] s s') ∧
  (∀ id, exec (.wsFlushComplete id) s = .next s' → Kept [.invals] [r_XLT_WS_FLUSH, r_XLT_WS_FLUSH_DONE] s s') ∧
  (exec .compose s = .next s' →
    Kept [.ports, .linkRr, .verif, .fwq, .mail]
      [r_CMP_STATUS, r_CMP_LAST, r_CMP_EPOCH, r_QOS_ADM_LOG, r_LNK_DISCARDS, r_LNK_PORT_TX] s s') ∧
  (∀ badKeys, exec (.commitTick badKeys) s = .next s' →
    Kept [.bufs, .qosOld, .landing, .instars, .instarAt, .instarDue, .ports, .linkRr, .imagos, .verif, .leaseTerms, .poolFreed, .fwq,
      .mail, .keyMat]
      [r_CMP_STATUS, r_CMP_POOL_EPOCH, r_CMP_LAST, r_CMP_EPOCH, r_CMP_IMG_RB, r_CMP_EVAC, r_CMP_CORE, r_CMP_MEM, r_CMP_LINK,
      r_CMP_LEASE, r_CMP_ILV, r_CMP_SLIST, r_CMP_PLACE, r_SCH_SLOT, r_QOS_STATUS, r_QOS_CORE_RATE, r_QOS_IMG_BULK_RATE,
      r_QOS_IMG_SPILL_RATE, r_QOS_IMG_TARGET, r_QOS_LINK_RATE, r_QOS_SLICE_LOAD, r_QOS_BRIDGE_LOAD, r_QOS_CLU_LOAD,
      r_QOS_HOST_LOAD, r_GATE_WGEN, r_MEM_SLICE_STAT, r_LNK_DISCARDS, r_LNK_PORT_TX, r_SEC_KEY_BAD, r_SEC_SLICE_WORLD, r_SEC_INST,
      r_SEC_KEY_ATTR] s s') ∧
  (∀ x, exec (.chrysalisEnd x) s = .next s' →
    Kept [.bufs, .evHeld, .ports, .linkRr, .imagos, .leaseTerms, .poolFreed]
      [r_CMP_POOL_EPOCH, r_CMP_EPOCH, r_CMP_MEM, r_CMP_LEASE, r_QOS_STATUS, r_QOS_SLICE_LOAD, r_QOS_BRIDGE_LOAD, r_QOS_CLU_LOAD,
      r_QOS_HOST_LOAD, r_MEM_SLICE_STAT, r_LNK_DISCARDS, r_LNK_PORT_TX, r_EVT_EQ_LOST] s s') ∧
  (∀ x, exec (.chrysalisSlow x) s = .next s' → Kept [.evHeld] [r_CMP_EPOCH, r_EVT_EQ_LOST] s s') ∧
  (∀ c, exec (.coreLeft c) s = .next s' → Kept [.instars, .instarAt, .instarDue, .imagos] [r_CMP_CORE, r_SCH_SLOT] s s') ∧
  (∀ p, exec (.linkSliceLeft p) s = .next s' → Kept [.imagos] [r_CMP_LINK] s s') ∧
  (∀ m, exec (.scrubComplete m) s = .next s' → Kept [.hbm, .hbmPoison] [r_CMP_MEM, r_SEC_SLICE_WORLD] s s') ∧
  (∀ x src errs, exec (.evacuateLine x src errs) s = .next s' →
    Kept [.movers, .hbm, .hbmPoison, .bufs, .imagos]
      [r_CMP_EPOCH, r_CMP_EVAC, r_CMP_MEM, r_CMP_ILV, r_TMV_BCH_CFG, r_TMV_BCH_DONE, r_TMV_CLU_RD, r_TMV_CLU_WR, r_MEM_UE_LOG,
      r_MEM_CE, r_MEM_UE] s s') ∧
  (exec .leaseHandshakeTimeout s = .next s' →
    Kept [.ports, .linkRr, .verif, .fwq, .mail]
      [r_CMP_STATUS, r_CMP_LAST, r_CMP_EPOCH, r_LNK_DISCARDS, r_LNK_PORT_TX] s s') ∧
  (∀ u, exec (.instarAdvance u) s = .next s' →
    Kept [.freeCtr, .nextId, .cores, .reqs, .hbm, .hbmPoison, .bufs, .host, .hostPoison, .regCounts, .tlb, .wcache, .instars,
      .instarAt, .instarDue, .ports, .linkIn, .linkRr, .queues]
      [r_CMP_PLACE_MISS, r_CMP_CORE, r_SCH_SLOT, r_SCH_RESULT, r_XLT_WALKS, r_XLT_STLB_MISS, r_QOS_DEMOTED, r_QOS_IMG_DEMOTE,
      r_MEM_POISON_RD, r_MEM_BRIDGE_STAT, r_MEM_RD_BYTES, r_MEM_WR_BYTES, r_LNK_DISCARDS, r_LNK_PORT_TX, r_SEC_WORLD_REFUSED] s s') ∧
  (∀ win, exec (.ctxCreate win) s = .next s' → Kept [.cores, .host, .ctxs] [r_SCH_RESULT] s s') ∧
  (∀ win, exec (.ctxDestroy win) s = .next s' → Kept [.cores, .ctxs, .scheds] [r_SCH_SLOT, r_SCH_IMG, r_SCH_RESULT] s s') ∧
  (∀ win, exec (.ctxKill win) s = .next s' → Kept [.cores, .ctxs, .scheds] [r_SCH_SLOT, r_SCH_IMG, r_SCH_RESULT] s s') ∧
  (∀ win, exec (.qCreate win) s = .next s' →
    Kept [.freeCtr, .nextId, .reqs, .hbm, .hbmPoison, .bufs, .host, .hostPoison, .regCounts, .tlb, .wcache, .instars, .instarAt,
      .instarDue, .ports, .linkIn, .linkRr, .queues]
      [r_CMP_PLACE_MISS, r_CMP_CORE, r_SCH_SLOT, r_SCH_RESULT, r_XLT_WALKS, r_XLT_STLB_MISS, r_QOS_DEMOTED, r_QOS_IMG_DEMOTE,
      r_MEM_POISON_RD, r_MEM_BRIDGE_STAT, r_MEM_RD_BYTES, r_MEM_WR_BYTES, r_LNK_DISCARDS, r_LNK_PORT_TX, r_SEC_WORLD_REFUSED] s s') ∧
  (∀ win, exec (.qDestroy win) s = .next s' →
    Kept [.freeCtr, .nextId, .reqs, .hbm, .hbmPoison, .bufs, .host, .hostPoison, .regCounts, .tlb, .wcache, .instars, .instarAt,
      .instarDue, .ports, .linkIn, .linkRr, .queues]
      [r_CMP_PLACE_MISS, r_CMP_CORE, r_SCH_SLOT, r_SCH_RESULT, r_XLT_WALKS, r_XLT_STLB_MISS, r_QOS_DEMOTED, r_QOS_IMG_DEMOTE,
      r_MEM_POISON_RD, r_MEM_BRIDGE_STAT, r_MEM_RD_BYTES, r_MEM_WR_BYTES, r_LNK_DISCARDS, r_LNK_PORT_TX, r_SEC_WORLD_REFUSED] s s') ∧
  (∀ win, exec (.qResume win) s = .next s' →
    Kept [.freeCtr, .nextId, .reqs, .hbm, .hbmPoison, .bufs, .host, .hostPoison, .regCounts, .tlb, .wcache, .ports, .linkIn, .linkRr,
      .ctxs, .scheds, .queues, .cmds]
      [r_CMP_PLACE_MISS, r_SCH_SLOT, r_SCH_IMG, r_SCH_RESULT, r_XLT_WALKS, r_XLT_STLB_MISS, r_QOS_DEMOTED, r_QOS_IMG_DEMOTE,
      r_MEM_POISON_RD, r_MEM_BRIDGE_STAT, r_MEM_RD_BYTES, r_MEM_WR_BYTES, r_LNK_DISCARDS, r_LNK_PORT_TX, r_SEC_WORLD_REFUSED] s s') ∧
  (∀ win, exec (.objFree win) s = .next s' →
    Kept [.freeCtr, .nextId, .ops, .movers, .reqs, .hbm, .hbmPoison, .bufs, .host, .hostPoison, .regCounts, .tlb, .wcache, .evHeld,
      .ports, .linkIn, .linkReqs, .linkRr, .objs]
      [r_CMP_PLACE_MISS, r_SCH_RESULT, r_XLT_WALKS, r_XLT_STLB_MISS, r_QOS_DEMOTED, r_QOS_IMG_DEMOTE, r_TMV_CORE_STAT,
      r_MEM_POISON_RD, r_MEM_BRIDGE_STAT, r_MEM_RD_BYTES, r_MEM_WR_BYTES, r_LNK_DISCARDS, r_LNK_PORT_TX, r_SEC_WORLD_REFUSED,
      r_EVT_EQ_LOST] s s') ∧
  (∀ win, exec (.fenceSignal win) s = .next s' →
    Kept [.freeCtr, .nextId, .ops, .movers, .reqs, .hbm, .hbmPoison, .bufs, .host, .hostPoison, .regCounts, .tlb, .wcache, .evHeld,
      .ports, .linkIn, .linkReqs, .linkRr, .cmds, .fenceWaiters, .fenceOuts]
      [r_CMP_STALE, r_CMP_STALE_KIND, r_CMP_PLACE_MISS, r_SCH_RESULT, r_XLT_WALKS, r_XLT_STLB_MISS, r_QOS_DEMOTED, r_QOS_IMG_DEMOTE,
      r_TMV_CORE_STAT, r_MEM_POISON_RD, r_MEM_BRIDGE_STAT, r_MEM_RD_BYTES, r_MEM_WR_BYTES, r_LNK_DISCARDS, r_LNK_PORT_TX,
      r_SEC_WORLD_REFUSED, r_EVT_EQ_LOST] s s') ∧
  (∀ win, exec (.fenceError win) s = .next s' →
    Kept [.freeCtr, .nextId, .ops, .movers, .reqs, .hbm, .hbmPoison, .bufs, .host, .hostPoison, .regCounts, .tlb, .wcache, .evHeld,
      .ports, .linkIn, .linkReqs, .linkRr, .cmds, .fenceWaiters, .fenceOuts]
      [r_CMP_STALE, r_CMP_STALE_KIND, r_CMP_PLACE_MISS, r_SCH_RESULT, r_XLT_WALKS, r_XLT_STLB_MISS, r_QOS_DEMOTED, r_QOS_IMG_DEMOTE,
      r_TMV_CORE_STAT, r_MEM_POISON_RD, r_MEM_BRIDGE_STAT, r_MEM_RD_BYTES, r_MEM_WR_BYTES, r_LNK_DISCARDS, r_LNK_PORT_TX,
      r_SEC_WORLD_REFUSED, r_EVT_EQ_LOST] s s') ∧
  (∀ win, exec (.fenceReset win) s = .next s' →
    Kept [.freeCtr, .nextId, .ops, .movers, .reqs, .hbm, .hbmPoison, .bufs, .host, .hostPoison, .regCounts, .tlb, .wcache, .evHeld,
      .ports, .linkIn, .linkReqs, .linkRr, .cmds, .fenceWaiters, .fenceOuts]
      [r_CMP_STALE, r_CMP_STALE_KIND, r_CMP_PLACE_MISS, r_SCH_RESULT, r_XLT_WALKS, r_XLT_STLB_MISS, r_QOS_DEMOTED, r_QOS_IMG_DEMOTE,
      r_TMV_CORE_STAT, r_MEM_POISON_RD, r_MEM_BRIDGE_STAT, r_MEM_RD_BYTES, r_MEM_WR_BYTES, r_LNK_DISCARDS, r_LNK_PORT_TX,
      r_SEC_WORLD_REFUSED, r_EVT_EQ_LOST] s s') ∧
  (∀ win n v, exec (.doorbell win n v) s = .next s' →
    Kept [.freeCtr, .nextId, .cores, .reqs, .hbm, .hbmPoison, .bufs, .host, .hostPoison, .regCounts, .tlb, .wcache, .evHeld, .ports,
      .linkIn, .linkRr, .ctxs, .scheds, .queues]
      [r_CMP_STALE, r_CMP_STALE_KIND, r_CMP_PLACE_MISS, r_SCH_SLOT, r_SCH_IMG, r_XLT_WALKS, r_XLT_STLB_MISS, r_QOS_DEMOTED,
      r_QOS_IMG_DEMOTE, r_MEM_POISON_RD, r_MEM_BRIDGE_STAT, r_MEM_RD_BYTES, r_MEM_WR_BYTES, r_LNK_DISCARDS, r_LNK_PORT_TX,
      r_SEC_WORLD_REFUSED, r_EVT_EQ_LOST] s s') ∧
  (∀ q, exec (.commandTake q) s = .next s' →
    Kept [.freeCtr, .nextId, .cores, .ops, .movers, .reqs, .hbm, .hbmPoison, .bufs, .host, .hostPoison, .regCounts, .tiles, .stallAt,
      .tlb, .wcache, .tracker, .fqHeld, .evHeld, .ports, .linkIn, .linkReqs, .linkRr, .ctxs, .scheds, .queues, .cmds, .objs]
      [r_CMP_PLACE_MISS, r_SCH_STATUS, r_SCH_SLOT, r_SCH_IMG, r_XLT_STATUS, r_XLT_FAULTS, r_XLT_WALKS, r_XLT_STLB_MISS,
      r_QOS_DEMOTED, r_QOS_IMG_DEMOTE, r_TMV_CORE_STAT, r_MEM_POISON_RD, r_MEM_BRIDGE_STAT, r_MEM_RD_BYTES, r_MEM_WR_BYTES,
      r_LNK_DISCARDS, r_LNK_PORT_TX, r_SEC_WORLD_REFUSED, r_EVT_EQ_LOST] s s') ∧
  (∀ space, exec (.contextResident space) s = .next s' →
    Kept [.freeCtr, .nextId, .ops, .movers, .reqs, .hbm, .hbmPoison, .bufs, .host, .hostPoison, .regCounts, .tlb, .wcache, .slots,
      .landing, .evHeld, .instars, .instarAt, .instarDue, .ports, .linkIn, .linkReqs, .linkRr, .ctxs, .scheds, .queues]
      [r_CMP_PLACE_MISS, r_CMP_CORE, r_SCH_SLOT, r_SCH_IMG, r_XLT_WALKS, r_XLT_STLB_MISS, r_QOS_DEMOTED, r_QOS_IMG_DEMOTE,
      r_TMV_CORE_STAT, r_MEM_POISON_RD, r_MEM_BRIDGE_STAT, r_MEM_RD_BYTES, r_MEM_WR_BYTES, r_LNK_DISCARDS, r_LNK_PORT_TX,
      r_SEC_WORLD_REFUSED, r_EVT_EQ_LOST] s s') ∧
  (∀ id, exec (.commandStart id) s = .next s' → Kept [.cores, .ctxs, .queues, .cmds] [] s s') ∧
  (∀ id, exec (.kernel id) s = .next s' →
    Kept [.freeCtr, .nextId, .kernels, .ops, .movers, .reqs, .hbm, .hbmPoison, .bufs, .host, .hostPoison, .regCounts, .tiles, .stallAt,
      .tlb, .wcache, .tracker, .fqHeld, .ports, .linkIn, .linkReqs, .linkRr, .cmds]
      [r_CMP_PLACE_MISS, r_XLT_STATUS, r_XLT_FAULTS, r_XLT_WALKS, r_XLT_STLB_MISS, r_QOS_DEMOTED, r_QOS_IMG_DEMOTE, r_TMV_CORE_STAT,
      r_MEM_POISON_RD, r_MEM_BRIDGE_STAT, r_MEM_RD_BYTES, r_LNK_DISCARDS, r_LNK_PORT_TX, r_SEC_WORLD_REFUSED] s s') ∧
  (∀ id, exec (.copy id) s = .next s' →
    Kept [.freeCtr, .nextId, .cores, .ops, .movers, .reqs, .hbm, .hbmPoison, .bufs, .host, .hostPoison, .regCounts, .tiles, .stallAt,
      .walks, .tlb, .wcache, .tracker, .fqHeld, .ports, .linkIn, .linkReqs, .linkRr, .queues, .cmds]
      [r_CMP_PLACE_MISS, r_XLT_STATUS, r_XLT_FAULTS, r_XLT_WALKS, r_XLT_STLB_MISS, r_QOS_DEMOTED, r_QOS_IMG_DEMOTE, r_TMV_CORE_STAT,
      r_TMV_BCH_STAT, r_MEM_POISON_RD, r_MEM_BRIDGE_STAT, r_MEM_RD_BYTES, r_LNK_DISCARDS, r_LNK_PORT_TX, r_SEC_WORLD_REFUSED] s s') ∧
  (∀ id, exec (.fill id) s = .next s' →
    Kept [.cores, .movers, .tiles, .stallAt, .walks, .queues, .cmds]
      [r_XLT_STATUS] s s') ∧
  (∀ id, exec (.signal id) s = .next s' →
    Kept [.freeCtr, .nextId, .ops, .movers, .reqs, .hbm, .hbmPoison, .bufs, .host, .hostPoison, .regCounts, .tlb, .wcache, .evHeld,
      .ports, .linkIn, .linkReqs, .linkRr, .cmds, .fenceWaiters, .fenceOuts]
      [r_CMP_STALE, r_CMP_STALE_KIND, r_CMP_PLACE_MISS, r_XLT_WALKS, r_XLT_STLB_MISS, r_QOS_DEMOTED, r_QOS_IMG_DEMOTE,
      r_TMV_CORE_STAT, r_MEM_POISON_RD, r_MEM_BRIDGE_STAT, r_MEM_RD_BYTES, r_MEM_WR_BYTES, r_LNK_DISCARDS, r_LNK_PORT_TX,
      r_SEC_WORLD_REFUSED, r_EVT_EQ_LOST] s s') ∧
  (∀ id, exec (.wait id) s = .next s' →
    Kept [.freeCtr, .nextId, .ops, .movers, .reqs, .hbm, .hbmPoison, .bufs, .host, .hostPoison, .regCounts, .tlb, .wcache, .ports,
      .linkIn, .linkReqs, .linkRr, .cmds, .fenceWaiters, .fenceOuts]
      [r_CMP_PLACE_MISS, r_XLT_WALKS, r_XLT_STLB_MISS, r_QOS_DEMOTED, r_QOS_IMG_DEMOTE, r_TMV_CORE_STAT, r_MEM_POISON_RD,
      r_MEM_BRIDGE_STAT, r_MEM_RD_BYTES, r_LNK_DISCARDS, r_LNK_PORT_TX, r_SEC_WORLD_REFUSED] s s') ∧
  (∀ id, exec (.waitTimeout id) s = .next s' → Kept [.cmds, .fenceWaiters, .fenceOuts] [] s s') ∧
  (∀ id, exec (.gateDispatch id) s = .next s' →
    Kept [.freeCtr, .nextId, .cores, .ops, .movers, .reqs, .hbm, .hbmPoison, .bufs, .host, .hostPoison, .regCounts, .tiles, .stallAt,
      .tlb, .wcache, .tracker, .fqHeld, .gates, .ports, .linkIn, .linkReqs, .linkRr, .ctxs, .queues, .cmds]
      [r_CMP_PLACE_MISS, r_XLT_STATUS, r_XLT_FAULTS, r_XLT_WALKS, r_XLT_STLB_MISS, r_QOS_DEMOTED, r_QOS_IMG_DEMOTE, r_TMV_CORE_STAT,
      r_MEM_POISON_RD, r_MEM_BRIDGE_STAT, r_MEM_RD_BYTES, r_LNK_DISCARDS, r_LNK_PORT_TX, r_SEC_WORLD_REFUSED] s s') ∧
  (∀ id, exec (.atomicSeq id) s = .next s' →
    Kept [.freeCtr, .nextId, .ops, .movers, .reqs, .hbm, .hbmPoison, .bufs, .host, .hostPoison, .regCounts, .tiles, .stallAt, .tlb,
      .wcache, .tracker, .fqHeld, .ports, .linkIn, .linkReqs, .linkRr, .cmds]
      [r_CMP_PLACE_MISS, r_XLT_STATUS, r_XLT_FAULTS, r_XLT_WALKS, r_XLT_STLB_MISS, r_QOS_DEMOTED, r_QOS_IMG_DEMOTE, r_TMV_CORE_STAT,
      r_MEM_POISON_RD, r_MEM_BRIDGE_STAT, r_MEM_RD_BYTES, r_MEM_WR_BYTES, r_LNK_DISCARDS, r_LNK_PORT_TX, r_SEC_WORLD_REFUSED] s s') ∧
  (∀ id, exec (.migrate id) s = .next s' →
    Kept [.freeCtr, .nextId, .cores, .ops, .movers, .reqs, .hbm, .hbmPoison, .bufs, .host, .hostPoison, .regCounts, .tiles, .stallAt,
      .walks, .tlb, .wcache, .tracker, .fqHeld, .ports, .linkIn, .linkReqs, .linkRr, .queues, .cmds]
      [r_CMP_PLACE_MISS, r_XLT_STATUS, r_XLT_FAULTS, r_XLT_WALKS, r_XLT_STLB_MISS, r_QOS_DEMOTED, r_QOS_IMG_DEMOTE, r_TMV_CORE_STAT,
      r_MEM_POISON_RD, r_MEM_BRIDGE_STAT, r_MEM_RD_BYTES, r_LNK_DISCARDS, r_LNK_PORT_TX, r_SEC_WORLD_REFUSED] s s') ∧
  (∀ id, exec (.marker id) s = .next s' →
    Kept [.freeCtr, .nextId, .ops, .movers, .reqs, .hbm, .hbmPoison, .bufs, .host, .hostPoison, .regCounts, .tiles, .stallAt, .tlb,
      .wcache, .tracker, .fqHeld, .evHeld, .ports, .linkIn, .linkReqs, .linkRr, .cmds]
      [r_CMP_PLACE_MISS, r_XLT_STATUS, r_XLT_FAULTS, r_XLT_WALKS, r_XLT_STLB_MISS, r_QOS_DEMOTED, r_QOS_IMG_DEMOTE, r_TMV_CORE_STAT,
      r_MEM_POISON_RD, r_MEM_BRIDGE_STAT, r_MEM_RD_BYTES, r_MEM_WR_BYTES, r_LNK_DISCARDS, r_LNK_PORT_TX, r_SEC_WORLD_REFUSED,
      r_EVT_EQ_LOST] s s') ∧
  (∀ id, exec (.commandComplete id) s = .next s' →
    Kept [.freeCtr, .nextId, .cores, .ops, .movers, .reqs, .hbm, .hbmPoison, .bufs, .host, .hostPoison, .regCounts, .tiles, .stallAt,
      .tlb, .wcache, .tracker, .fqHeld, .evHeld, .ports, .linkIn, .linkReqs, .linkRr, .colls, .ctxs, .scheds, .queues, .cmds,
      .objs, .fenceWaiters, .fenceOuts, .power]
      [r_CMP_STALE, r_CMP_STALE_KIND, r_CMP_PLACE_MISS, r_SCH_SLOT, r_SCH_IMG, r_XLT_STATUS, r_XLT_FAULTS, r_XLT_WALKS,
      r_XLT_STLB_MISS, r_QOS_DEMOTED, r_QOS_IMG_DEMOTE, r_TMV_CORE_STAT, r_TMV_BCH_CFG, r_MEM_POISON_RD, r_MEM_BRIDGE_STAT,
      r_MEM_RD_BYTES, r_MEM_WR_BYTES, r_LNK_DISCARDS, r_LNK_PORT_TX, r_PWR_STATUS, r_PWR_CORE_FREQ, r_SEC_WORLD_REFUSED,
      r_EVT_EQ_LOST] s s') ∧
  (∀ x, exec (.sliceEnd x) s = .next s' → Kept [.ctxs, .scheds] [r_SCH_SLOT, r_SCH_IMG] s s') ∧
  (∀ x, exec (.handoverComplete x) s = .next s' →
    Kept [.freeCtr, .cores, .ops, .movers, .reqs, .host, .hostPoison, .regCounts, .tiles, .stallAt, .walks, .ports, .linkIn, .linkReqs,
      .linkRr, .ctxs, .scheds, .queues, .cmds]
      [r_SCH_SLOT, r_SCH_IMG, r_XLT_STATUS, r_QOS_DEMOTED, r_QOS_IMG_DEMOTE, r_TMV_CORE_STAT, r_TMV_BCH_CFG, r_MEM_BRIDGE_STAT,
      r_LNK_DISCARDS, r_LNK_PORT_TX] s s') ∧
  (∀ id, exec (.npOverrun id) s = .next s' → Kept [.evHeld, .cmds] [r_SCH_NP_OVERRUNS, r_EVT_EQ_LOST] s s') ∧
  (∀ space, exec (.teardownAbort space) s = .next s' →
    Kept [.freeCtr, .nextId, .cores, .kernels, .ops, .movers, .reqs, .hbm, .hbmPoison, .bufs, .host, .hostPoison, .regCounts, .tiles,
      .stallAt, .walks, .tlb, .wcache, .tracker, .invals, .fqHeld, .slots, .gates, .landing, .evHeld, .instars, .instarAt,
      .instarDue, .silkWaiters, .silkReplies, .ports, .linkIn, .linkReqs, .linkRr, .ctxs, .scheds, .queues, .cmds]
      [r_CMP_PLACE_MISS, r_CMP_CORE, r_SCH_SLOT, r_SCH_IMG, r_XLT_STATUS, r_XLT_FAULTS, r_XLT_WALKS, r_XLT_STLB_MISS, r_QOS_DEMOTED,
      r_QOS_IMG_DEMOTE, r_TMV_SCR_CE, r_TMV_SCR_UE, r_TMV_SCR_UE_LOG, r_TMV_CORE_STAT, r_TMV_BCH_CFG, r_TMV_BCH_STAT,
      r_MEM_POISON_RD, r_MEM_BRIDGE_STAT, r_MEM_RD_BYTES, r_MEM_WR_BYTES, r_LNK_DISCARDS, r_LNK_PORT_TX, r_SEC_WORLD_REFUSED,
      r_EVT_EQ_LOST] s s') ∧
  (∀ space, exec (.quiesce space) s = .next s' →
    Kept [.freeCtr, .nextId, .cores, .movers, .reqs, .hbm, .hbmPoison, .bufs, .host, .hostPoison, .regCounts, .tlb, .wcache, .slots,
      .evHeld, .instars, .instarAt, .instarDue, .ports, .linkIn, .linkRr, .colls, .ctxs, .scheds, .queues, .objs, .power]
      [r_CMP_PLACE_MISS, r_CMP_CORE, r_SCH_SLOT, r_SCH_IMG, r_XLT_WALKS, r_XLT_STLB_MISS, r_QOS_DEMOTED, r_QOS_IMG_DEMOTE,
      r_TMV_BCH_CFG, r_MEM_POISON_RD, r_MEM_BRIDGE_STAT, r_MEM_RD_BYTES, r_MEM_WR_BYTES, r_LNK_DISCARDS, r_LNK_PORT_TX,
      r_PWR_STATUS, r_PWR_CORE_FREQ, r_SEC_WORLD_REFUSED, r_EVT_EQ_LOST] s s') ∧
  (∀ win, exec (.eventRecordPost win) s = .next s' → Kept [.host, .evHeld, .rings, .armed, .msixDue] [r_EVT_EQ_TAIL] s s') ∧
  (∀ win v, exec (.evtFqHeadWrite win v) s = .next s' → Kept [.armed] [r_EVT_FQ_HEAD] s s') ∧
  (∀ win v, exec (.evtEqHeadWrite win v) s = .next s' → Kept [.armed] [r_EVT_EQ_HEAD] s s') ∧
  (∀ win q, exec (.msixSend win q) s = .next s' → Kept [.msixDue, .msixLast, .msix] [] s s')

/-- Links, peers, collectives, instances, keys, clocks, power, eclosion, resets, pins and register accesses: what each command
of these families can change, and that it leaves everything else as it was. -/
def Obligations.FrameOfLinksAndTheSystem : Prop := ∀ s s',
  (∀ req win off size v, exec (.registerWrite req win off size v) s = .next s' →
    KeptParts [.latches, .reply, .timeSlew, .slewAt, .synced, .freeCtr, .nextId, .cores, .corePhys, .kernels, .ops, .movers, .reqs, .hbm,
      .hbmPoison, .bufs, .host, .hostPoison, .winStart, .winLen, .regCounts, .qosOld, .missPosted, .bridgeRun, .scrubPos, .tiles,
      .stallAt, .walks, .tlb, .wcache, .tracker, .invals, .fqHeld, .slots, .gates, .landing, .evHeld, .rings, .armed, .msixDue,
      .msixLast, .msix, .instars, .instarAt, .instarDue, .silkMsgs, .silkWaiters, .silkReplies, .silkSent, .ports, .linkIn,
      .linkReqs, .linkRr, .peers, .custody, .custOp, .colls, .bootNonce, .lastHello, .lastAdvert, .lastTime, .imagos, .verif,
      .leaseTerms, .poolFreed, .ctxs, .scheds, .queues, .cmds, .objs, .fenceWaiters, .fenceOuts, .fwq, .mail, .instResets, .numVfs,
      .keyMat, .rtc, .flash, .power, .stops, .stopSince, .aon, .resets] s s') ∧
  (∀ req win off size, exec (.registerSplitRead req win off size) s = .next s' →
    Kept [.latches, .reply, .cores]
      [r_MBX_CTRL, r_PWR_CORE_FREQ, r_THM_WING, r_THM_CORE_AGE] s s') ∧
  (∀ m, exec (.messageAgeDiscard m) s = .next s' →
    Kept [.freeCtr, .ops, .movers, .reqs, .host, .hostPoison, .regCounts, .silkMsgs, .silkReplies, .ports, .linkIn, .linkReqs, .linkRr]
      [r_QOS_DEMOTED, r_QOS_IMG_DEMOTE, r_TMV_CORE_STAT, r_MEM_BRIDGE_STAT, r_LNK_DISCARDS, r_LNK_PORT_TX, r_RST_DISCARDS] s s') ∧
  (∀ id, exec (.collective id) s = .next s' →
    Kept [.freeCtr, .nextId, .ops, .movers, .reqs, .hbm, .hbmPoison, .bufs, .host, .hostPoison, .regCounts, .tiles, .stallAt, .tlb,
      .wcache, .tracker, .fqHeld, .ports, .linkIn, .linkReqs, .linkRr, .colls, .cmds]
      [r_CMP_PLACE_MISS, r_XLT_STATUS, r_XLT_FAULTS, r_XLT_WALKS, r_XLT_STLB_MISS, r_QOS_DEMOTED, r_QOS_IMG_DEMOTE, r_TMV_CORE_STAT,
      r_TMV_BCH_CFG, r_MEM_POISON_RD, r_MEM_BRIDGE_STAT, r_MEM_RD_BYTES, r_LNK_DISCARDS, r_LNK_PORT_TX, r_SEC_WORLD_REFUSED] s s') ∧
  (∀ p v, exec (.lnkPortCtrlWrite p v) s = .next s' →
    Kept [.synced, .ports, .linkIn, .linkRr]
      [r_LNK_STATUS, r_LNK_DISCARDS, r_LNK_PORT_CTRL, r_LNK_PORT_STAT, r_LNK_PORT_PEER, r_LNK_PORT_LOST, r_LNK_PORT_TX] s s') ∧
  (∀ p delay, exec (.portTrained p delay) s = .next s' →
    Kept [.synced, .freeCtr, .ports]
      [r_LNK_STATUS, r_LNK_PORT_STAT, r_LNK_PORT_PEER] s s') ∧
  (∀ p, exec (.trainingTimeout p) s = .next s' → Kept [.ports] [r_LNK_PORT_STAT] s s') ∧
  (∀ p delay, exec (.delayProbe p delay) s = .next s' → Kept [.synced, .ports] [r_LNK_STATUS, r_LNK_PORT_STAT] s s') ∧
  (∀ p, exec (.lockLoss p) s = .next s' →
    Kept [.synced, .ports, .linkIn, .linkRr]
      [r_LNK_STATUS, r_LNK_DISCARDS, r_LNK_PORT_STAT, r_LNK_PORT_PEER, r_LNK_PORT_LOST, r_LNK_PORT_TX] s s') ∧
  (∀ p, exec (.laserLow p) s = .next s' →
    Kept [.synced, .ports, .linkIn, .linkRr]
      [r_LNK_STATUS, r_LNK_DISCARDS, r_LNK_PORT_STAT, r_LNK_PORT_PEER, r_LNK_PORT_LOST, r_LNK_PORT_TX] s s') ∧
  (∀ p f, exec (.flitReceive p f) s = .next s' →
    Kept [.synced, .ports, .linkIn, .linkRr]
      [r_LNK_STATUS, r_LNK_DISCARDS, r_LNK_PORT_STAT, r_LNK_PORT_PEER, r_LNK_PORT_LOST, r_LNK_PORT_FEC, r_LNK_PORT_UNCORR,
      r_LNK_PORT_RETRY, r_LNK_PORT_TX, r_RST_DISCARDS] s s') ∧
  (∀ k, exec (.messageTransit k) s = .next s' → Kept [.ports, .linkIn, .linkRr] [r_LNK_DISCARDS, r_LNK_PORT_TX] s s') ∧
  (∀ k, exec (.linkRead k) s = .next s' →
    Kept [.freeCtr, .nextId, .reqs, .host, .hostPoison, .regCounts, .ports, .linkIn, .linkReqs, .linkRr]
      [r_CMP_STALE, r_CMP_STALE_KIND, r_QOS_DEMOTED, r_QOS_IMG_DEMOTE, r_MEM_BRIDGE_STAT, r_LNK_DISCARDS, r_LNK_PORT_TX,
      r_SEC_WORLD_REFUSED] s s') ∧
  (∀ k, exec (.linkWrite k) s = .next s' →
    Kept [.freeCtr, .nextId, .reqs, .host, .hostPoison, .regCounts, .ports, .linkIn, .linkReqs, .linkRr]
      [r_CMP_STALE, r_CMP_STALE_KIND, r_QOS_DEMOTED, r_QOS_IMG_DEMOTE, r_MEM_BRIDGE_STAT, r_LNK_DISCARDS, r_LNK_PORT_TX,
      r_SEC_WORLD_REFUSED] s s') ∧
  (∀ k, exec (.linkAtomic k) s = .next s' →
    Kept [.freeCtr, .nextId, .reqs, .host, .hostPoison, .regCounts, .ports, .linkIn, .linkReqs, .linkRr]
      [r_CMP_STALE, r_CMP_STALE_KIND, r_QOS_DEMOTED, r_QOS_IMG_DEMOTE, r_MEM_BRIDGE_STAT, r_LNK_DISCARDS, r_LNK_PORT_TX,
      r_SEC_WORLD_REFUSED] s s') ∧
  (∀ k, exec (.resp k) s = .next s' →
    Kept [.freeCtr, .ops, .movers, .reqs, .host, .hostPoison, .regCounts, .missPosted, .evHeld, .ports, .linkIn, .linkReqs, .linkRr]
      [r_QOS_STATUS, r_QOS_MISS_COUNT, r_QOS_DEMOTED, r_QOS_IMG_MISS, r_QOS_IMG_DEMOTE, r_TMV_CORE_STAT, r_MEM_POISON_RD,
      r_MEM_BRIDGE_STAT, r_LNK_DISCARDS, r_LNK_PORT_TX, r_RST_LATE, r_EVT_EQ_LOST] s s') ∧
  (∀ k, exec (.linkAck k) s = .next s' →
    Kept [.freeCtr, .ops, .movers, .reqs, .host, .hostPoison, .regCounts, .missPosted, .evHeld, .ports, .linkIn, .linkReqs, .linkRr]
      [r_QOS_STATUS, r_QOS_MISS_COUNT, r_QOS_DEMOTED, r_QOS_IMG_MISS, r_QOS_IMG_DEMOTE, r_TMV_CORE_STAT, r_MEM_BRIDGE_STAT,
      r_LNK_DISCARDS, r_LNK_PORT_TX, r_RST_LATE, r_EVT_EQ_LOST] s s') ∧
  (∀ k, exec (.err k) s = .next s' →
    Kept [.freeCtr, .nextId, .cores, .kernels, .ops, .movers, .reqs, .host, .hostPoison, .regCounts, .missPosted, .tiles, .stallAt,
      .walks, .gates, .landing, .evHeld, .silkWaiters, .silkReplies, .silkSent, .ports, .linkIn, .linkReqs, .linkRr, .custOp,
      .colls, .ctxs, .scheds, .queues, .cmds, .fenceOuts, .power]
      [r_CMP_STALE, r_CMP_STALE_KIND, r_SCH_SLOT, r_SCH_IMG, r_XLT_STATUS, r_QOS_STATUS, r_QOS_MISS_COUNT, r_QOS_DEMOTED,
      r_QOS_IMG_MISS, r_QOS_IMG_DEMOTE, r_TMV_SCR_CE, r_TMV_SCR_UE, r_TMV_SCR_UE_LOG, r_TMV_CORE_STAT, r_TMV_BCH_CFG,
      r_TMV_BCH_STAT, r_MEM_POISON_RD, r_MEM_BRIDGE_STAT, r_LNK_DISCARDS, r_LNK_PORT_TX, r_SILK_CTR, r_SILK_CUST_RESULT,
      r_SILK_CUST_WORD, r_PWR_STATUS, r_PWR_CORE_FREQ, r_RST_LATE, r_EVT_EQ_LOST] s s') ∧
  (∀ k, exec (.collPut k) s = .next s' →
    Kept [.freeCtr, .nextId, .cores, .ops, .movers, .reqs, .hbm, .hbmPoison, .bufs, .host, .hostPoison, .regCounts, .tiles, .stallAt,
      .tlb, .wcache, .tracker, .fqHeld, .silkWaiters, .silkReplies, .silkSent, .ports, .linkIn, .linkReqs, .linkRr, .colls, .ctxs,
      .cmds, .power]
      [r_CMP_STALE, r_CMP_STALE_KIND, r_CMP_PLACE_MISS, r_XLT_STATUS, r_XLT_FAULTS, r_XLT_WALKS, r_XLT_STLB_MISS, r_QOS_DEMOTED,
      r_QOS_IMG_DEMOTE, r_TMV_CORE_STAT, r_TMV_BCH_CFG, r_MEM_POISON_RD, r_MEM_BRIDGE_STAT, r_MEM_RD_BYTES, r_MEM_WR_BYTES,
      r_LNK_DISCARDS, r_LNK_PORT_TX, r_SILK_CTR, r_PWR_STATUS, r_PWR_CORE_FREQ, r_SEC_WORLD_REFUSED] s s') ∧
  (∀ k, exec (.linkAbort k) s = .next s' →
    Kept [.freeCtr, .ops, .movers, .reqs, .host, .hostPoison, .regCounts, .ports, .linkIn, .linkReqs, .linkRr]
      [r_QOS_DEMOTED, r_QOS_IMG_DEMOTE, r_TMV_CORE_STAT, r_MEM_BRIDGE_STAT, r_LNK_DISCARDS, r_LNK_PORT_TX] s s') ∧
  (∀ k late, exec (.silkAddMsg k late) s = .next s' →
    Kept [.freeCtr, .cores, .ops, .evHeld, .silkWaiters, .silkReplies, .silkSent, .ports, .linkIn, .linkRr, .ctxs]
      [r_CMP_STALE, r_CMP_STALE_KIND, r_LNK_DISCARDS, r_LNK_PORT_TX, r_SILK_OPS, r_SILK_CTR, r_SILK_X_OPS, r_SILK_X_LATE,
      r_EVT_EQ_LOST] s s') ∧
  (∀ k late, exec (.silkReadMsg k late) s = .next s' →
    Kept [.freeCtr, .cores, .ops, .evHeld, .silkWaiters, .silkReplies, .silkSent, .ports, .linkIn, .linkRr, .ctxs]
      [r_CMP_STALE, r_CMP_STALE_KIND, r_LNK_DISCARDS, r_LNK_PORT_TX, r_SILK_OPS, r_SILK_CTR, r_SILK_X_OPS, r_SILK_X_LATE,
      r_EVT_EQ_LOST] s s') ∧
  (∀ k late, exec (.silkWaitgeMsg k late) s = .next s' →
    Kept [.freeCtr, .cores, .ops, .evHeld, .silkWaiters, .silkReplies, .silkSent, .ports, .linkIn, .linkRr, .ctxs]
      [r_CMP_STALE, r_CMP_STALE_KIND, r_LNK_DISCARDS, r_LNK_PORT_TX, r_SILK_OPS, r_SILK_CTR, r_SILK_X_OPS, r_SILK_X_LATE,
      r_EVT_EQ_LOST] s s') ∧
  (∀ k late, exec (.silkTakeMsg k late) s = .next s' →
    Kept [.freeCtr, .cores, .ops, .evHeld, .silkWaiters, .silkReplies, .silkSent, .ports, .linkIn, .linkRr, .ctxs]
      [r_CMP_STALE, r_CMP_STALE_KIND, r_LNK_DISCARDS, r_LNK_PORT_TX, r_SILK_OPS, r_SILK_CTR, r_SILK_X_OPS, r_SILK_X_LATE,
      r_EVT_EQ_LOST] s s') ∧
  (∀ k late, exec (.silkRelease k late) s = .next s' →
    Kept [.freeCtr, .cores, .ops, .evHeld, .silkReplies, .silkSent, .ports, .linkIn, .linkRr, .ctxs]
      [r_CMP_STALE, r_CMP_STALE_KIND, r_LNK_DISCARDS, r_LNK_PORT_TX, r_SILK_X_LATE, r_EVT_EQ_LOST] s s') ∧
  (∀ k, exec (.silkAck k) s = .next s' → Kept [.ops, .silkSent, .linkIn] [] s s') ∧
  (∀ k, exec (.collToken k) s = .next s' →
    Kept [.freeCtr, .cores, .ops, .silkWaiters, .silkReplies, .silkSent, .ports, .linkIn, .linkRr, .colls, .ctxs]
      [r_CMP_STALE, r_CMP_STALE_KIND, r_LNK_DISCARDS, r_LNK_PORT_TX, r_SILK_CTR] s s') ∧
  (∀ k, exec (.custody k) s = .next s' →
    Kept [.freeCtr, .cores, .ops, .silkWaiters, .silkReplies, .silkSent, .ports, .linkIn, .linkRr, .custody, .custOp, .ctxs]
      [r_CMP_STALE, r_CMP_STALE_KIND, r_LNK_DISCARDS, r_LNK_PORT_TX, r_SILK_OPS, r_SILK_CTR, r_SILK_X_OPS, r_SILK_CUST_RESULT,
      r_SILK_CUST_WORD, r_RST_LATE] s s') ∧
  (∀ k, exec (.peerNotice k) s = .next s' →
    Kept [.synced, .movers, .linkIn, .colls, .cmds, .power]
      [r_TMV_BCH_CFG, r_LNK_STATUS, r_LNK_PEER, r_PWR_STATUS, r_PWR_CORE_FREQ] s s') ∧
  (∀ k, exec (.hello k) s = .next s' →
    Kept [.synced, .freeCtr, .nextId, .cores, .kernels, .ops, .movers, .reqs, .host, .hostPoison, .regCounts, .tiles, .stallAt, .walks,
      .gates, .landing, .evHeld, .silkWaiters, .silkReplies, .silkSent, .ports, .linkIn, .linkReqs, .linkRr, .peers, .custOp,
      .colls, .leaseTerms, .ctxs, .scheds, .queues, .cmds, .fenceWaiters, .fenceOuts, .power]
      [r_CMP_STALE, r_CMP_STALE_KIND, r_SCH_SLOT, r_SCH_IMG, r_XLT_STATUS, r_QOS_DEMOTED, r_QOS_IMG_DEMOTE, r_TMV_SCR_CE,
      r_TMV_SCR_UE, r_TMV_SCR_UE_LOG, r_TMV_CORE_STAT, r_TMV_BCH_CFG, r_TMV_BCH_STAT, r_MEM_BRIDGE_STAT, r_LNK_STATUS,
      r_LNK_DISCARDS, r_LNK_PORT_STAT, r_LNK_PORT_PEER, r_LNK_PORT_LOST, r_LNK_PORT_TX, r_LNK_RT, r_LNK_PEER, r_SILK_CTR,
      r_SILK_CUST_RESULT, r_SILK_CUST_WORD, r_PWR_STATUS, r_PWR_CORE_FREQ, r_EVT_EQ_LOST] s s') ∧
  (∀ k, exec (.advert k) s = .next s' →
    Kept [.synced, .freeCtr, .nextId, .cores, .kernels, .ops, .movers, .reqs, .host, .hostPoison, .regCounts, .tiles, .stallAt, .walks,
      .gates, .landing, .evHeld, .silkWaiters, .silkReplies, .silkSent, .ports, .linkIn, .linkReqs, .linkRr, .peers, .custOp,
      .colls, .leaseTerms, .ctxs, .scheds, .queues, .cmds, .fenceWaiters, .fenceOuts, .power]
      [r_CMP_STALE, r_CMP_STALE_KIND, r_SCH_SLOT, r_SCH_IMG, r_XLT_STATUS, r_QOS_DEMOTED, r_QOS_IMG_DEMOTE, r_TMV_SCR_CE,
      r_TMV_SCR_UE, r_TMV_SCR_UE_LOG, r_TMV_CORE_STAT, r_TMV_BCH_CFG, r_TMV_BCH_STAT, r_MEM_BRIDGE_STAT, r_LNK_STATUS,
      r_LNK_DISCARDS, r_LNK_PORT_TX, r_LNK_RT, r_LNK_PEER, r_SILK_CTR, r_SILK_CUST_RESULT, r_SILK_CUST_WORD, r_PWR_STATUS,
      r_PWR_CORE_FREQ, r_EVT_EQ_LOST] s s') ∧
  (∀ k, exec (.fenceOp k) s = .next s' →
    Kept [.hbm, .hbmPoison, .bufs, .host, .hostPoison, .regCounts, .evHeld, .ports, .linkIn, .linkRr, .cmds, .fenceWaiters]
      [r_CMP_STALE, r_CMP_STALE_KIND, r_QOS_DEMOTED, r_QOS_IMG_DEMOTE, r_MEM_POISON_RD, r_MEM_BRIDGE_STAT, r_MEM_RD_BYTES,
      r_MEM_WR_BYTES, r_LNK_DISCARDS, r_LNK_PORT_TX, r_SEC_WORLD_REFUSED, r_EVT_EQ_LOST] s s') ∧
  (∀ k, exec (.fenceRelease k) s = .next s' → Kept [.linkIn, .cmds, .fenceOuts] [r_CMP_STALE, r_CMP_STALE_KIND] s s') ∧
  (∀ k, exec (.lease k) s = .next s' →
    Kept [.bufs, .evHeld, .ports, .linkIn, .linkRr, .imagos, .verif, .leaseTerms, .fwq, .mail]
      [r_CMP_STATUS, r_CMP_LAST, r_CMP_EPOCH, r_CMP_MEM, r_CMP_LINK, r_CMP_LEASE, r_QOS_STATUS, r_QOS_SLICE_LOAD, r_QOS_BRIDGE_LOAD,
      r_QOS_CLU_LOAD, r_QOS_HOST_LOAD, r_MEM_SLICE_STAT, r_LNK_DISCARDS, r_LNK_PORT_TX, r_EVT_EQ_LOST] s s') ∧
  (∀ k, exec (.linkIdle k) s = .next s' → Kept [.synced, .linkIn, .peers] [r_LNK_STATUS, r_LNK_PEER] s s') ∧
  (∀ k, exec (.time k) s = .next s' → Kept [.now, .timeSlew, .synced, .linkIn] [r_LNK_STATUS] s s') ∧
  (∀ k tagBad, exec (.encReq k tagBad) s = .next s' →
    Kept [.synced, .ports, .linkIn, .linkRr, .mail, .keyMat]
      [r_LNK_STATUS, r_LNK_DISCARDS, r_LNK_PORT_STAT, r_LNK_PORT_PEER, r_LNK_PORT_LOST, r_LNK_PORT_TX, r_SEC_KEY_BAD, r_SEC_KEY_ATTR] s s') ∧
  (∀ p, exec (.encReqTimeout p) s = .next s' →
    Kept [.synced, .ports, .linkIn, .linkRr]
      [r_LNK_STATUS, r_LNK_DISCARDS, r_LNK_PORT_STAT, r_LNK_PORT_PEER, r_LNK_PORT_LOST, r_LNK_PORT_TX] s s') ∧
  (∀ p, exec (.keyEpochAdvance p) s = .next s' →
    Kept [.synced, .ports, .linkIn, .linkRr]
      [r_LNK_STATUS, r_LNK_DISCARDS, r_LNK_PORT_STAT, r_LNK_PORT_PEER, r_LNK_PORT_LOST, r_LNK_PORT_TX] s s') ∧
  (exec .helloSend s = .next s' → Kept [.ports, .lastHello] [r_LNK_PORT_TX] s s') ∧
  (exec .advertSend s = .next s' → Kept [.ports, .lastAdvert] [r_LNK_PORT_TX] s s') ∧
  (∀ k, exec (.peerAgeExpiry k) s = .next s' →
    Kept [.synced, .freeCtr, .nextId, .cores, .kernels, .ops, .movers, .reqs, .host, .hostPoison, .regCounts, .tiles, .stallAt, .walks,
      .gates, .landing, .evHeld, .silkWaiters, .silkReplies, .silkSent, .ports, .linkIn, .linkReqs, .linkRr, .peers, .custOp,
      .colls, .leaseTerms, .ctxs, .scheds, .queues, .cmds, .fenceWaiters, .fenceOuts, .power]
      [r_CMP_STALE, r_CMP_STALE_KIND, r_SCH_SLOT, r_SCH_IMG, r_XLT_STATUS, r_QOS_DEMOTED, r_QOS_IMG_DEMOTE, r_TMV_SCR_CE,
      r_TMV_SCR_UE, r_TMV_SCR_UE_LOG, r_TMV_CORE_STAT, r_TMV_BCH_CFG, r_TMV_BCH_STAT, r_MEM_BRIDGE_STAT, r_LNK_STATUS,
      r_LNK_DISCARDS, r_LNK_PORT_TX, r_LNK_RT, r_LNK_PEER, r_SILK_CTR, r_SILK_CUST_RESULT, r_SILK_CUST_WORD, r_PWR_STATUS,
      r_PWR_CORE_FREQ, r_EVT_EQ_LOST] s s') ∧
  (∀ id, exec (.collSendAction id) s = .next s' →
    Kept [.freeCtr, .nextId, .ops, .movers, .reqs, .hbm, .hbmPoison, .bufs, .host, .hostPoison, .regCounts, .tiles, .stallAt, .tlb,
      .wcache, .tracker, .fqHeld, .ports, .linkIn, .linkReqs, .linkRr, .colls, .cmds]
      [r_CMP_PLACE_MISS, r_XLT_STATUS, r_XLT_FAULTS, r_XLT_WALKS, r_XLT_STLB_MISS, r_QOS_DEMOTED, r_QOS_IMG_DEMOTE, r_TMV_CORE_STAT,
      r_TMV_CLU_RD, r_TMV_CLU_WR, r_MEM_POISON_RD, r_MEM_BRIDGE_STAT, r_MEM_RD_BYTES, r_MEM_WR_BYTES, r_LNK_DISCARDS,
      r_LNK_PORT_TX, r_SEC_WORLD_REFUSED] s s') ∧
  (∀ id, exec (.collReceiveAction id) s = .next s' →
    Kept [.freeCtr, .nextId, .ops, .movers, .reqs, .hbm, .hbmPoison, .bufs, .host, .hostPoison, .regCounts, .tiles, .stallAt, .tlb,
      .wcache, .tracker, .fqHeld, .ports, .linkIn, .linkReqs, .linkRr, .colls, .cmds]
      [r_CMP_PLACE_MISS, r_XLT_STATUS, r_XLT_FAULTS, r_XLT_WALKS, r_XLT_STLB_MISS, r_QOS_DEMOTED, r_QOS_IMG_DEMOTE, r_TMV_CORE_STAT,
      r_TMV_CLU_RD, r_TMV_CLU_WR, r_MEM_POISON_RD, r_MEM_BRIDGE_STAT, r_MEM_RD_BYTES, r_MEM_WR_BYTES, r_LNK_DISCARDS,
      r_LNK_PORT_TX, r_SEC_WORLD_REFUSED] s s') ∧
  (∀ id recv, exec (.collActionComplete id recv) s = .next s' →
    Kept [.cores, .movers, .ports, .linkIn, .linkRr, .colls, .queues, .cmds, .power]
      [r_TMV_BCH_CFG, r_TMV_BCH_DONE, r_LNK_PORT_TX, r_PWR_STATUS, r_PWR_CORE_FREQ] s s') ∧
  (∀ id, exec (.collTimeout id) s = .next s' → Kept [.cmds] [] s s') ∧
  (exec .init s = .next s' →
    Kept [.freeCtr, .nextId, .ports, .linkIn, .linkRr, .custOp]
      [r_LNK_PORT_TX, r_SILK_CUST_RESULT, r_SILK_CUST_WORD] s s') ∧
  (exec .offer s = .next s' →
    Kept [.freeCtr, .nextId, .ports, .linkIn, .linkRr, .custOp]
      [r_LNK_PORT_TX, r_SILK_CUST_RESULT, r_SILK_CUST_WORD] s s') ∧
  (exec .accept s = .next s' →
    Kept [.freeCtr, .nextId, .ports, .linkIn, .linkRr, .custOp]
      [r_LNK_PORT_TX, r_SILK_CUST_RESULT, r_SILK_CUST_WORD] s s') ∧
  (exec .release s = .next s' →
    Kept [.freeCtr, .nextId, .ports, .linkIn, .linkRr, .custOp]
      [r_LNK_PORT_TX, r_SILK_CUST_RESULT, r_SILK_CUST_WORD] s s') ∧
  (exec .reclaim s = .next s' →
    Kept [.freeCtr, .nextId, .ports, .linkIn, .linkRr, .custOp]
      [r_LNK_PORT_TX, r_SILK_CUST_RESULT, r_SILK_CUST_WORD] s s') ∧
  (exec .custodyRead s = .next s' →
    Kept [.freeCtr, .nextId, .ports, .linkIn, .linkRr, .custOp]
      [r_LNK_PORT_TX, r_SILK_CUST_RESULT, r_SILK_CUST_WORD] s s') ∧
  (exec .custodyUnreachable s = .next s' → Kept [.freeCtr, .custOp] [r_SILK_CUST_RESULT, r_SILK_CUST_WORD] s s') ∧
  (∀ win, exec (.mbxSend win) s = .next s' → Kept [.mail] [r_MBX_CTRL] s s') ∧
  (∀ win, exec (.mbxDeliver win) s = .next s' →
    Kept [.msix, .fwq, .mail]
      [r_MBX_IN_DATA, r_MBX_CTRL, r_CMP_STALE, r_CMP_STALE_KIND] s s') ∧
  (∀ win, exec (.mbxInRelease win) s = .next s' → Kept [] [r_MBX_CTRL] s s') ∧
  (∀ req write v, exec (.mbxProxyAccess req write v) s = .next s' →
    KeptParts [.latches, .reply, .timeSlew, .slewAt, .synced, .freeCtr, .nextId, .cores, .corePhys, .kernels, .ops, .movers, .reqs, .hbm,
      .hbmPoison, .bufs, .host, .hostPoison, .winStart, .winLen, .regCounts, .qosOld, .missPosted, .bridgeRun, .scrubPos, .tiles,
      .stallAt, .walks, .tlb, .wcache, .tracker, .invals, .fqHeld, .slots, .gates, .landing, .evHeld, .rings, .armed, .msixDue,
      .msixLast, .msix, .instars, .instarAt, .instarDue, .silkMsgs, .silkWaiters, .silkReplies, .silkSent, .ports, .linkIn,
      .linkReqs, .linkRr, .peers, .custody, .custOp, .colls, .bootNonce, .lastHello, .lastAdvert, .lastTime, .imagos, .verif,
      .leaseTerms, .poolFreed, .ctxs, .scheds, .queues, .cmds, .objs, .fenceWaiters, .fenceOuts, .fwq, .mail, .instResets, .numVfs,
      .keyMat, .rtc, .flash, .power, .stops, .stopSince, .aon, .resets] s s') ∧
  (∀ qb sb kb, exec (.instCreate qb sb kb) s = .next s' →
    KeptParts [.invals, .fqHeld, .evHeld, .rings, .armed, .msixDue, .msixLast, .instars, .instarAt, .instarDue, .silkWaiters, .silkSent,
      .custody, .fwq, .mail, .keyMat] s s') ∧
  (exec .instReset s = .next s' →
    Kept [.cores, .instarAt, .instarDue, .ctxs, .scheds, .fwq, .mail, .instResets]
      [r_MBX_CTRL, r_SCH_SLOT, r_SCH_IMG, r_SEC_INST] s s') ∧
  (∀ x, exec (.instResetDone x) s = .next s' →
    KeptParts [.freeCtr, .nextId, .cores, .movers, .reqs, .bufs, .host, .hostPoison, .regCounts, .qosOld, .tiles, .stallAt, .walks, .tlb,
      .tracker, .invals, .fqHeld, .landing, .evHeld, .rings, .armed, .msixDue, .msixLast, .instars, .instarAt, .instarDue,
      .silkWaiters, .silkSent, .ports, .linkIn, .linkRr, .custody, .imagos, .leaseTerms, .queues, .cmds, .fwq, .mail, .instResets,
      .keyMat] s s') ∧
  (exec .instRemove s = .next s' →
    Kept [.cores, .instarAt, .instarDue, .ctxs, .scheds, .fwq, .mail, .instResets]
      [r_MBX_CTRL, r_SCH_SLOT, r_SCH_IMG, r_SEC_INST] s s') ∧
  (exec .imagoInfo s = .next s' → Kept [.fwq, .mail] [] s s') ∧
  (exec .attest s = .next s' → Kept [.host, .hostPoison, .fwq, .mail] [] s s') ∧
  (exec .certRead s = .next s' → Kept [.host, .hostPoison, .fwq, .mail] [] s s') ∧
  (∀ bad, exec (.keyGen bad) s = .next s' → Kept [.freeCtr, .fwq, .mail, .keyMat] [r_SEC_KEY_BAD, r_SEC_KEY_ATTR] s s') ∧
  (∀ bad, exec (.keyImport bad) s = .next s' → Kept [.fwq, .mail, .keyMat] [r_SEC_KEY_BAD, r_SEC_KEY_ATTR] s s') ∧
  (∀ bad, exec (.keyExport bad) s = .next s' →
    Kept [.freeCtr, .host, .hostPoison, .fwq, .mail, .keyMat]
      [r_SEC_KEY_BAD, r_SEC_KEY_ATTR] s s') ∧
  (∀ bad, exec (.keyDerive bad) s = .next s' → Kept [.fwq, .mail, .keyMat] [r_SEC_KEY_BAD, r_SEC_KEY_ATTR] s s') ∧
  (exec .keyErase s = .next s' → Kept [.fwq, .mail, .keyMat] [r_SEC_KEY_ATTR] s s') ∧
  (∀ bad, exec (.keyCrypt bad) s = .next s' →
    Kept [.host, .hostPoison, .fwq, .mail, .keyMat]
      [r_SEC_KEY_BAD, r_SEC_KEY_ATTR] s s') ∧
  (exec .cvkUpdate s = .next s' → Kept [.fwq, .mail, .cvks, .flash] [r_SEC_CVK] s s') ∧
  (exec .timeSet s = .next s' → Kept [.fwq, .mail, .rtc, .flash] [r_RTC_STATUS] s s') ∧
  (exec .regionSet s = .next s' → Kept [.fwq, .mail] [r_SEC_REGION_BASE, r_SEC_REGION_LIMIT] s s') ∧
  (∀ x, exec (.vfFlr x) s = .next s' →
    Kept [.cores, .instarAt, .instarDue, .ctxs, .scheds, .mail, .instResets]
      [r_MBX_CTRL, r_SCH_SLOT, r_SCH_IMG, r_SEC_INST] s s') ∧
  (∀ n, exec (.numvfsLower n) s = .next s' →
    Kept [.cores, .instarAt, .instarDue, .ports, .linkRr, .verif, .ctxs, .scheds, .fwq, .mail, .instResets, .numVfs]
      [r_MBX_CTRL, r_CMP_STATUS, r_CMP_LAST, r_CMP_EPOCH, r_SCH_SLOT, r_SCH_IMG, r_LNK_DISCARDS, r_LNK_PORT_TX, r_SEC_INST] s s') ∧
  (exec .pfFlr s = .next s' →
    KeptParts [.cores, .invals, .fqHeld, .evHeld, .rings, .armed, .msixDue, .msixLast, .instarAt, .instarDue, .ports, .linkRr, .verif,
      .ctxs, .scheds, .fwq, .mail, .instResets, .numVfs] s s') ∧
  (∀ v, exec (.rtcSet v) s = .next s' → Kept [.rtc] [r_RTC_STATUS] s s') ∧
  (∀ v, exec (.rtcAdj v) s = .next s' → Kept [.rtc] [r_RTC_STATUS] s s') ∧
  (exec .slewComplete s = .next s' → Kept [] [r_RTC_STATUS] s s') ∧
  (exec .hoursTick s = .next s' → Kept [.rtc, .flash] [r_RTC_HOURS] s s') ∧
  (∀ mv, exec (.vbatSample mv) s = .next s' → Kept [.rtc] [r_RTC_STATUS] s s') ∧
  (exec .oscStop s = .next s' → Kept [.rtc] [r_RTC_STATUS, r_RTC_HOURS] s s') ∧
  (∀ acts dom avgW, exec (.arbitrate acts dom avgW) s = .next s' →
    Kept [.cores, .power]
      [r_PWR_STATUS, r_PWR_PKG_POWER, r_PWR_DOM_STAT, r_PWR_CORE_FREQ] s s') ∧
  (∀ w, exec (.voltageReached w) s = .next s' → Kept [.cores, .power] [r_PWR_CORE_FREQ, r_THM_WING] s s') ∧
  (∀ energy, exec (.calibrate energy) s = .next s' →
    Kept [.armed, .msix, .power]
      [r_PWR_EVT, r_PWR_IRQ_CFG, r_PWR_CAL] s s') ∧
  (∀ d amps, exec (.ilimExceed d amps) s = .next s' → Kept [] [r_PWR_STATUS, r_PWR_DOM_STAT] s s') ∧
  (∀ c, exec (.droopEvent c) s = .next s' → Kept [.power] [r_PWR_DOM_STAT, r_PWR_DOM_DROOP, r_THM_WING] s s') ∧
  (∀ w, exec (.raiseHoldExpiry w) s = .next s' → Kept [.power] [r_PWR_DOM_STAT] s s') ∧
  (∀ v, exec (.pwrPkgCapWrite v) s = .next s' → Kept [.power] [r_PWR_PKG_CAP, r_PWR_STATUS, r_PWR_CORE_FREQ] s s') ∧
  (∀ c v, exec (.pwrCoreFcapWrite c v) s = .next s' → Kept [.power] [r_PWR_STATUS, r_PWR_CORE_FCAP, r_PWR_CORE_FREQ] s s') ∧
  (exec .capDeferExpiry s = .next s' → Kept [.cmds, .power] [r_PWR_STATUS, r_PWR_CORE_FREQ] s s') ∧
  (∀ mv, exec (.vinDip mv) s = .next s' →
    Kept [.cores, .armed, .msix, .power, .stopSince]
      [r_PWR_STATUS, r_PWR_DIP_COUNT, r_PWR_DIP_LOG, r_PWR_EVT, r_PWR_IRQ_CFG, r_PWR_DOM_STAT, r_PWR_CORE_FREQ, r_THM_WING] s s') ∧
  (∀ us mv, exec (.vinRecover us mv) s = .next s' → Kept [.power] [r_PWR_STATUS, r_PWR_DIP_LOG] s s') ∧
  (exec .dipHoldExpiry s = .next s' →
    Kept [.power, .stops, .stopSince]
      [r_PWR_STATUS, r_PWR_DOM_STAT, r_THM_REPLAN_STAT, r_THM_WING] s s') ∧
  (exec .rampEnd s = .next s' → Kept [] [r_PWR_STATUS] s s') ∧
  (exec .supplyReset s = .next s' →
    KeptParts [.latches, .timeSlew, .slewAt, .synced, .cores, .corePhys, .kernels, .ops, .movers, .reqs, .hbm, .hbmPoison, .bufs, .winStart,
      .winLen, .regCounts, .qosOld, .missPosted, .bridgeRun, .scrubPos, .tiles, .stallAt, .walks, .tlb, .wcache, .tracker, .invals,
      .fqHeld, .slots, .gates, .landing, .evHeld, .rings, .armed, .msixDue, .msixLast, .instars, .instarAt, .instarDue, .silkMsgs,
      .silkWaiters, .silkReplies, .silkSent, .ports, .linkIn, .linkReqs, .linkRr, .peers, .custody, .custOp, .colls, .bootNonce,
      .lastHello, .lastAdvert, .lastTime, .imagos, .verif, .leaseTerms, .poolFreed, .ctxs, .scheds, .queues, .cmds, .objs,
      .fenceWaiters, .fenceOuts, .fwq, .mail, .instResets, .numVfs, .keyMat, .power, .stops, .stopSince, .aon, .resets] s s') ∧
  (∀ temps, exec (.thermalSample temps) s = .next s' →
    Kept [.cores, .armed, .msix, .power]
      [r_MEM_STACK_STAT, r_PWR_EVT, r_PWR_IRQ_CFG, r_PWR_CORE_FREQ, r_THM_STATUS, r_THM_WING] s s') ∧
  (∀ sensor temp, exec (.thermalTrip sensor temp) s = .next s' →
    KeptParts [.latches, .timeSlew, .slewAt, .synced, .cores, .corePhys, .kernels, .ops, .movers, .reqs, .hbm, .hbmPoison, .bufs, .winStart,
      .winLen, .regCounts, .qosOld, .missPosted, .bridgeRun, .scrubPos, .tiles, .stallAt, .walks, .tlb, .wcache, .tracker, .invals,
      .fqHeld, .slots, .gates, .landing, .evHeld, .rings, .armed, .msixDue, .msixLast, .instars, .instarAt, .instarDue, .silkMsgs,
      .silkWaiters, .silkReplies, .silkSent, .ports, .linkIn, .linkReqs, .linkRr, .peers, .custody, .custOp, .colls, .bootNonce,
      .lastHello, .lastAdvert, .lastTime, .imagos, .verif, .leaseTerms, .poolFreed, .ctxs, .scheds, .queues, .cmds, .objs,
      .fenceWaiters, .fenceOuts, .fwq, .mail, .instResets, .numVfs, .keyMat, .power, .stops, .stopSince, .aon, .resets] s s') ∧
  (exec .coolantStop s = .next s' →
    KeptParts [.latches, .timeSlew, .slewAt, .synced, .cores, .corePhys, .kernels, .ops, .movers, .reqs, .hbm, .hbmPoison, .bufs, .winStart,
      .winLen, .regCounts, .qosOld, .missPosted, .bridgeRun, .scrubPos, .tiles, .stallAt, .walks, .tlb, .wcache, .tracker, .invals,
      .fqHeld, .slots, .gates, .landing, .evHeld, .rings, .armed, .msixDue, .msixLast, .msix, .instars, .instarAt, .instarDue,
      .silkMsgs, .silkWaiters, .silkReplies, .silkSent, .ports, .linkIn, .linkReqs, .linkRr, .peers, .custody, .custOp, .colls,
      .bootNonce, .lastHello, .lastAdvert, .lastTime, .imagos, .verif, .leaseTerms, .poolFreed, .ctxs, .scheds, .queues, .cmds,
      .objs, .fenceWaiters, .fenceOuts, .fwq, .mail, .instResets, .numVfs, .keyMat, .power, .stops, .stopSince, .aon, .resets] s s') ∧
  (exec .coolantStopComplete s = .next s' →
    Kept [.synced, .hbm, .hbmPoison, .bufs, .ports, .linkIn, .linkRr]
      [r_MEM_STACK_STAT, r_LNK_STATUS, r_LNK_DISCARDS, r_LNK_PORT_STAT, r_LNK_PORT_PEER, r_LNK_PORT_LOST, r_LNK_PORT_TX] s s') ∧
  (exec .flowRestored s = .next s' → Kept [.armed, .msix, .aon] [r_PWR_EVT, r_PWR_IRQ_CFG] s s') ∧
  (∀ badKeys, exec (.resume badKeys) s = .next s' →
    Kept [.cores, .ports, .imagos, .mail, .keyMat, .power, .stops, .stopSince]
      [r_MEM_STACK_STAT, r_LNK_PORT_STAT, r_PWR_STATUS, r_PWR_DOM_STAT, r_PWR_CORE_FREQ, r_THM_REPLAN_STAT, r_THM_WING,
      r_SEC_KEY_BAD, r_SEC_KEY_ATTR] s s') ∧
  (exec .calRestart s = .next s' → Kept [.armed, .msix, .power] [r_PWR_EVT, r_PWR_IRQ_CFG, r_PWR_CAL] s s') ∧
  (∀ v, exec (.pwrEvtWrite v) s = .next s' → Kept [.armed] [r_PWR_EVT] s s') ∧
  (∀ c, exec (.coreDiapauseEntry c) s = .next s' → Kept [.cores, .tlb] [r_THM_CORE_AGE] s s') ∧
  (∀ w, exec (.wingDiapauseEntry w) s = .next s' → Kept [] [r_THM_WING] s s') ∧
  (∀ unit, exec (.diapauseEntered unit) s = .next s' → Kept [] [r_THM_WING, r_THM_CORE_AGE] s s') ∧
  (∀ unit, exec (.wake unit) s = .next s' → Kept [.cores] [r_PWR_CORE_FREQ, r_THM_WING, r_THM_CORE_AGE] s s') ∧
  (∀ unit, exec (.wakeComplete unit) s = .next s' →
    Kept [.cores, .power]
      [r_PWR_DOM_STAT, r_THM_WAKES, r_THM_WING, r_THM_CORE_AGE] s s') ∧
  (∀ command, exec (.replan command) s = .next s' → Kept [.power] [r_THM_REPLAN_STAT] s s') ∧
  (∀ degr, exec (.replanComplete degr) s = .next s' →
    Kept [.cores, .armed, .msix, .flash, .power]
      [r_PWR_EVT, r_PWR_IRQ_CFG, r_PWR_CAL, r_PWR_CORE_FREQ, r_THM_REPLAN_STAT, r_THM_REPLAN_HOURS, r_THM_CORE_FMAX, r_THM_CORE_AGE] s s') ∧
  (exec .wakeAll s = .next s' → Kept [.cores] [r_PWR_CORE_FREQ, r_THM_WING, r_THM_CORE_AGE] s s') ∧
  (exec .vinAuxApply s = .next s' → Kept [.aon] [r_RST_STATE] s s') ∧
  (exec .vinMainApply s = .next s' →
    KeptParts [.latches, .timeSlew, .slewAt, .synced, .cores, .corePhys, .kernels, .ops, .movers, .reqs, .hbm, .hbmPoison, .bufs, .winStart,
      .winLen, .regCounts, .qosOld, .missPosted, .bridgeRun, .scrubPos, .tiles, .stallAt, .walks, .tlb, .wcache, .tracker, .invals,
      .fqHeld, .slots, .gates, .landing, .evHeld, .rings, .armed, .msixDue, .msixLast, .instars, .instarAt, .instarDue, .silkMsgs,
      .silkWaiters, .silkReplies, .silkSent, .ports, .linkIn, .linkReqs, .linkRr, .peers, .custody, .custOp, .colls, .bootNonce,
      .lastHello, .lastAdvert, .lastTime, .imagos, .verif, .leaseTerms, .poolFreed, .ctxs, .scheds, .queues, .cmds, .objs,
      .fenceWaiters, .fenceOuts, .fwq, .mail, .instResets, .numVfs, .keyMat, .power, .stops, .stopSince, .aon, .resets] s s') ∧
  (∀ data, exec (.phaseComplete data) s = .next s' →
    KeptParts [.latches, .timeSlew, .slewAt, .synced, .freeCtr, .cores, .corePhys, .kernels, .ops, .movers, .reqs, .hbm, .hbmPoison, .bufs,
      .winStart, .winLen, .regCounts, .qosOld, .missPosted, .bridgeRun, .scrubPos, .tiles, .stallAt, .walks, .tlb, .wcache,
      .tracker, .invals, .fqHeld, .slots, .gates, .landing, .evHeld, .rings, .armed, .msixDue, .msixLast, .msix, .instars,
      .instarAt, .instarDue, .silkMsgs, .silkWaiters, .silkReplies, .silkSent, .ports, .linkIn, .linkReqs, .linkRr, .peers,
      .custody, .custOp, .colls, .bootNonce, .lastHello, .lastAdvert, .lastTime, .imagos, .verif, .leaseTerms, .poolFreed, .ctxs,
      .scheds, .queues, .cmds, .objs, .fenceWaiters, .fenceOuts, .fwq, .mail, .instResets, .numVfs, .keyMat, .cvks, .flash, .power,
      .stops, .stopSince, .aon, .resets] s s') ∧
  (exec .phaseTimeout s = .next s' →
    KeptParts [.latches, .timeSlew, .slewAt, .synced, .cores, .corePhys, .kernels, .ops, .movers, .reqs, .hbm, .hbmPoison, .bufs, .winStart,
      .winLen, .regCounts, .qosOld, .missPosted, .bridgeRun, .scrubPos, .tiles, .stallAt, .walks, .tlb, .wcache, .tracker, .invals,
      .fqHeld, .slots, .gates, .landing, .evHeld, .rings, .armed, .msixDue, .msixLast, .msix, .instars, .instarAt, .instarDue,
      .silkMsgs, .silkWaiters, .silkReplies, .silkSent, .ports, .linkIn, .linkReqs, .linkRr, .peers, .custody, .custOp, .colls,
      .bootNonce, .lastHello, .lastAdvert, .lastTime, .imagos, .verif, .leaseTerms, .poolFreed, .ctxs, .scheds, .queues, .cmds,
      .objs, .fenceWaiters, .fenceOuts, .fwq, .mail, .instResets, .numVfs, .keyMat, .power, .stops, .stopSince, .aon, .resets] s s') ∧
  (exec .perstAssert s = .next s' →
    KeptParts [.latches, .timeSlew, .slewAt, .synced, .cores, .corePhys, .kernels, .ops, .movers, .reqs, .hbm, .hbmPoison, .bufs, .winStart,
      .winLen, .regCounts, .qosOld, .missPosted, .bridgeRun, .scrubPos, .tiles, .stallAt, .walks, .tlb, .wcache, .tracker, .invals,
      .fqHeld, .slots, .gates, .landing, .evHeld, .rings, .armed, .msixDue, .msixLast, .instars, .instarAt, .instarDue, .silkMsgs,
      .silkWaiters, .silkReplies, .silkSent, .ports, .linkIn, .linkReqs, .linkRr, .peers, .custody, .custOp, .colls, .bootNonce,
      .lastHello, .lastAdvert, .lastTime, .imagos, .verif, .leaseTerms, .poolFreed, .ctxs, .scheds, .queues, .cmds, .objs,
      .fenceWaiters, .fenceOuts, .fwq, .mail, .instResets, .numVfs, .keyMat, .power, .stops, .stopSince, .aon, .resets] s s') ∧
  (exec .perstDeassert s = .next s' → Kept [.aon] [] s s') ∧
  (∀ x count, exec (.imagoReset x count) s = .next s' →
    Kept [.cores, .gates, .armed, .msix, .ports, .linkRr, .cmds, .flash, .aon, .resets]
      [r_LNK_DISCARDS, r_LNK_PORT_TX, r_PWR_CORE_FREQ, r_THM_WING, r_THM_CORE_AGE, r_RST_STATE, r_RST_STATUS, r_RST_IMG_RESET,
      r_RST_LAST, r_RST_EVT, r_RST_IRQ_CFG, r_RST_LEDGER] s s') ∧
  (∀ count, exec (.chipReset count) s = .next s' →
    Kept [.cores, .gates, .armed, .msix, .ports, .linkRr, .cmds, .flash, .aon, .resets]
      [r_LNK_DISCARDS, r_LNK_PORT_TX, r_PWR_CORE_FREQ, r_THM_WING, r_THM_CORE_AGE, r_RST_STATE, r_RST_STATUS, r_RST_IMG_RESET,
      r_RST_LAST, r_RST_EVT, r_RST_IRQ_CFG, r_RST_LEDGER] s s') ∧
  (∀ count selftest retrain, exec (.fullReset count selftest retrain) s = .next s' →
    KeptParts [.latches, .timeSlew, .slewAt, .synced, .cores, .corePhys, .kernels, .ops, .movers, .reqs, .hbm, .hbmPoison, .bufs, .winStart,
      .winLen, .regCounts, .qosOld, .missPosted, .bridgeRun, .scrubPos, .tiles, .stallAt, .walks, .tlb, .wcache, .tracker, .invals,
      .fqHeld, .slots, .gates, .landing, .evHeld, .rings, .armed, .msixDue, .msixLast, .instars, .instarAt, .instarDue, .silkMsgs,
      .silkWaiters, .silkReplies, .silkSent, .ports, .linkIn, .linkReqs, .linkRr, .peers, .custody, .custOp, .colls, .bootNonce,
      .lastHello, .lastAdvert, .lastTime, .imagos, .verif, .leaseTerms, .poolFreed, .ctxs, .scheds, .queues, .cmds, .objs,
      .fenceWaiters, .fenceOuts, .fwq, .mail, .instResets, .numVfs, .keyMat, .power, .stops, .stopSince, .aon, .resets] s s') ∧
  (exec .topoContinue s = .next s' →
    Kept [.armed, .msix, .flash, .aon]
      [r_CHIP_FAB_ID, r_RST_STATE, r_RST_EVT, r_RST_IRQ_CFG, r_RST_LEDGER, r_RST_PHASE_MS] s s') ∧
  (exec .override s = .next s' →
    Kept [.armed, .msix, .ctxs, .scheds, .flash, .aon]
      [r_SCH_SLOT, r_SCH_IMG, r_RST_STATE, r_RST_EVT, r_RST_IRQ_CFG, r_RST_LEDGER, r_RST_OVR_STATUS] s s') ∧
  (∀ u, exec (.resetDrainEnd u) s = .next s' →
    Kept [.freeCtr, .nextId, .cores, .kernels, .ops, .movers, .reqs, .hbm, .hbmPoison, .bufs, .host, .hostPoison, .regCounts, .tiles,
      .stallAt, .walks, .tlb, .wcache, .tracker, .fqHeld, .gates, .landing, .evHeld, .silkWaiters, .silkReplies, .ports, .linkIn,
      .linkReqs, .linkRr, .ctxs, .queues, .cmds, .resets]
      [r_CMP_PLACE_MISS, r_XLT_STATUS, r_XLT_FAULTS, r_XLT_WALKS, r_XLT_STLB_MISS, r_QOS_DEMOTED, r_QOS_IMG_DEMOTE, r_TMV_CORE_STAT,
      r_TMV_BCH_CFG, r_MEM_POISON_RD, r_MEM_BRIDGE_STAT, r_MEM_RD_BYTES, r_MEM_WR_BYTES, r_LNK_DISCARDS, r_LNK_PORT_TX,
      r_SEC_WORLD_REFUSED, r_EVT_EQ_LOST] s s') ∧
  (∀ u failed, exec (.resetDone u failed) s = .next s' →
    KeptParts [.latches, .timeSlew, .slewAt, .synced, .freeCtr, .nextId, .cores, .corePhys, .kernels, .ops, .movers, .reqs, .hbm,
      .hbmPoison, .bufs, .host, .hostPoison, .winStart, .winLen, .regCounts, .qosOld, .missPosted, .bridgeRun, .scrubPos, .tiles,
      .stallAt, .walks, .tlb, .wcache, .tracker, .invals, .fqHeld, .slots, .gates, .landing, .evHeld, .rings, .armed, .msixDue,
      .msixLast, .msix, .instars, .instarAt, .instarDue, .silkMsgs, .silkWaiters, .silkReplies, .silkSent, .ports, .linkIn,
      .linkReqs, .linkRr, .peers, .custody, .custOp, .colls, .bootNonce, .lastHello, .lastAdvert, .lastTime, .imagos, .verif,
      .leaseTerms, .poolFreed, .ctxs, .scheds, .queues, .cmds, .objs, .fenceWaiters, .fenceOuts, .fwq, .mail, .instResets, .numVfs,
      .keyMat, .flash, .power, .stops, .stopSince, .aon, .resets] s s') ∧
  (∀ u, exec (.resetBoundMiss u) s = .next s' →
    KeptParts [.latches, .timeSlew, .slewAt, .synced, .cores, .corePhys, .kernels, .ops, .movers, .reqs, .hbm, .hbmPoison, .bufs, .winStart,
      .winLen, .regCounts, .qosOld, .missPosted, .bridgeRun, .scrubPos, .tiles, .stallAt, .walks, .tlb, .wcache, .tracker, .invals,
      .fqHeld, .slots, .gates, .landing, .evHeld, .rings, .armed, .msixDue, .msixLast, .msix, .instars, .instarAt, .instarDue,
      .silkMsgs, .silkWaiters, .silkReplies, .silkSent, .ports, .linkIn, .linkReqs, .linkRr, .peers, .custody, .custOp, .colls,
      .bootNonce, .lastHello, .lastAdvert, .lastTime, .imagos, .verif, .leaseTerms, .poolFreed, .ctxs, .scheds, .queues, .cmds,
      .objs, .fenceWaiters, .fenceOuts, .fwq, .mail, .instResets, .numVfs, .keyMat, .flash, .power, .stops, .stopSince, .aon,
      .resets] s s') ∧
  (∀ v, exec (.rstEvtWrite v) s = .next s' → Kept [.armed] [r_RST_EVT] s s') ∧
  (∀ c, exec (.kernelWatchdog c) s = .next s' →
    Kept [.cores, .kernels, .armed, .msix, .ctxs, .scheds]
      [r_SCH_SLOT, r_SCH_IMG, r_RST_WD_FIRED, r_RST_EVT, r_RST_IRQ_CFG] s s') ∧
  (∀ id, exec (.npWatchdog id) s = .next s' →
    Kept [.cores, .gates, .evHeld, .armed, .msix, .ports, .linkRr, .cmds, .flash, .aon, .resets]
      [r_LNK_DISCARDS, r_LNK_PORT_TX, r_PWR_CORE_FREQ, r_THM_WING, r_THM_CORE_AGE, r_RST_STATE, r_RST_STATUS, r_RST_IMG_RESET,
      r_RST_LAST, r_RST_WD_FIRED, r_RST_EVT, r_RST_IRQ_CFG, r_RST_LEDGER, r_EVT_EQ_LOST] s s') ∧
  (∀ q, exec (.queueWatchdog q) s = .next s' →
    Kept [.freeCtr, .nextId, .cores, .kernels, .ops, .movers, .reqs, .hbm, .hbmPoison, .bufs, .host, .hostPoison, .regCounts, .tiles,
      .stallAt, .walks, .tlb, .wcache, .gates, .landing, .evHeld, .armed, .msix, .ports, .linkIn, .linkReqs, .linkRr, .queues,
      .cmds, .fenceWaiters, .fenceOuts]
      [r_CMP_PLACE_MISS, r_XLT_STATUS, r_XLT_WALKS, r_XLT_STLB_MISS, r_QOS_DEMOTED, r_QOS_IMG_DEMOTE, r_TMV_CORE_STAT,
      r_TMV_BCH_CFG, r_MEM_POISON_RD, r_MEM_BRIDGE_STAT, r_MEM_RD_BYTES, r_MEM_WR_BYTES, r_LNK_DISCARDS, r_LNK_PORT_TX,
      r_RST_WD_FIRED, r_RST_EVT, r_RST_IRQ_CFG, r_SEC_WORLD_REFUSED, r_EVT_EQ_LOST] s s') ∧
  (∀ id, exec (.fabricWatchdog id) s = .next s' →
    Kept [.freeCtr, .nextId, .cores, .kernels, .ops, .movers, .reqs, .host, .hostPoison, .regCounts, .missPosted, .tiles, .stallAt,
      .walks, .gates, .landing, .evHeld, .armed, .msix, .silkReplies, .ports, .linkIn, .linkReqs, .linkRr, .ctxs, .scheds, .queues,
      .cmds, .fenceOuts]
      [r_SCH_SLOT, r_SCH_IMG, r_XLT_STATUS, r_QOS_STATUS, r_QOS_MISS_COUNT, r_QOS_DEMOTED, r_QOS_IMG_MISS, r_QOS_IMG_DEMOTE,
      r_TMV_SCR_CE, r_TMV_SCR_UE, r_TMV_SCR_UE_LOG, r_TMV_CORE_STAT, r_TMV_BCH_CFG, r_TMV_BCH_STAT, r_MEM_BRIDGE_STAT,
      r_LNK_DISCARDS, r_LNK_PORT_TX, r_RST_WD_FIRED, r_RST_EVT, r_RST_IRQ_CFG, r_EVT_EQ_LOST] s s') ∧
  (exec .vinAuxLoss s = .next s' →
    KeptParts [.latches, .timeSlew, .slewAt, .synced, .cores, .corePhys, .kernels, .ops, .movers, .reqs, .hbm, .hbmPoison, .bufs, .winStart,
      .winLen, .regCounts, .qosOld, .missPosted, .bridgeRun, .scrubPos, .tiles, .stallAt, .walks, .tlb, .wcache, .tracker, .invals,
      .fqHeld, .slots, .gates, .landing, .evHeld, .rings, .armed, .msixDue, .msixLast, .instars, .instarAt, .instarDue, .silkMsgs,
      .silkWaiters, .silkReplies, .silkSent, .ports, .linkIn, .linkReqs, .linkRr, .peers, .custody, .custOp, .colls, .bootNonce,
      .lastHello, .lastAdvert, .lastTime, .imagos, .verif, .leaseTerms, .poolFreed, .ctxs, .scheds, .queues, .cmds, .objs,
      .fenceWaiters, .fenceOuts, .fwq, .mail, .instResets, .numVfs, .keyMat, .power, .stops, .stopSince, .aon, .resets] s s') ∧
  (exec .refclkLoss s = .next s' →
    KeptParts [.latches, .timeSlew, .slewAt, .synced, .cores, .corePhys, .kernels, .ops, .movers, .reqs, .hbm, .hbmPoison, .bufs, .winStart,
      .winLen, .regCounts, .qosOld, .missPosted, .bridgeRun, .scrubPos, .tiles, .stallAt, .walks, .tlb, .wcache, .tracker, .invals,
      .fqHeld, .slots, .gates, .landing, .evHeld, .rings, .armed, .msixDue, .msixLast, .instars, .instarAt, .instarDue, .silkMsgs,
      .silkWaiters, .silkReplies, .silkSent, .ports, .linkIn, .linkReqs, .linkRr, .peers, .custody, .custOp, .colls, .bootNonce,
      .lastHello, .lastAdvert, .lastTime, .imagos, .verif, .leaseTerms, .poolFreed, .ctxs, .scheds, .queues, .cmds, .objs,
      .fenceWaiters, .fenceOuts, .fwq, .mail, .instResets, .numVfs, .keyMat, .power, .stops, .stopSince, .aon, .resets] s s') ∧
  (exec .vinMainRemoved s = .next s' →
    KeptParts [.latches, .timeSlew, .slewAt, .synced, .cores, .corePhys, .kernels, .ops, .movers, .reqs, .hbm, .hbmPoison, .bufs, .winStart,
      .winLen, .regCounts, .qosOld, .missPosted, .bridgeRun, .scrubPos, .tiles, .stallAt, .walks, .tlb, .wcache, .tracker, .invals,
      .fqHeld, .slots, .gates, .landing, .evHeld, .rings, .armed, .msixDue, .msixLast, .instars, .instarAt, .instarDue, .silkMsgs,
      .silkWaiters, .silkReplies, .silkSent, .ports, .linkIn, .linkReqs, .linkRr, .peers, .custody, .custOp, .colls, .bootNonce,
      .lastHello, .lastAdvert, .lastTime, .imagos, .verif, .leaseTerms, .poolFreed, .ctxs, .scheds, .queues, .cmds, .objs,
      .fenceWaiters, .fenceOuts, .fwq, .mail, .instResets, .numVfs, .keyMat, .power, .stops, .stopSince, .aon, .resets] s s') ∧
  (exec .status s = .next s' → Kept [.reply] [] s s') ∧
  (exec .descRead s = .next s' → Kept [.reply] [] s s') ∧
  (∀ data, exec (.descWrite data) s = .next s' → Kept [.reply, .flash] [] s s') ∧
  (∀ offset data, exec (.recovery offset data) s = .next s' → Kept [.reply, .aon] [] s s') ∧
  (exec .recoveryDone s = .next s' → Kept [.reply, .flash, .aon] [r_RST_STATE] s s') ∧
  (∀ x trstHigh, exec (.tapInstruction x trstHigh) s = .next s' → Kept [.reply] [] s s') ∧
  (exec .flowOkHeld s = .next s' →
    KeptParts [.latches, .timeSlew, .slewAt, .synced, .cores, .corePhys, .kernels, .ops, .movers, .reqs, .hbm, .hbmPoison, .bufs, .winStart,
      .winLen, .regCounts, .qosOld, .missPosted, .bridgeRun, .scrubPos, .tiles, .stallAt, .walks, .tlb, .wcache, .tracker, .invals,
      .fqHeld, .slots, .gates, .landing, .evHeld, .rings, .armed, .msixDue, .msixLast, .instars, .instarAt, .instarDue, .silkMsgs,
      .silkWaiters, .silkReplies, .silkSent, .ports, .linkIn, .linkReqs, .linkRr, .peers, .custody, .custOp, .colls, .bootNonce,
      .lastHello, .lastAdvert, .lastTime, .imagos, .verif, .leaseTerms, .poolFreed, .ctxs, .scheds, .queues, .cmds, .objs,
      .fenceWaiters, .fenceOuts, .fwq, .mail, .instResets, .numVfs, .keyMat, .power, .stops, .stopSince, .aon, .resets] s s') ∧
  (∀ p, exec (.laserRestored p) s = .next s' → Kept [.ports] [r_LNK_PORT_STAT] s s') ∧
  (exec .timeSend s = .next s' → Kept [.ports, .lastTime] [r_LNK_PORT_TX] s s') ∧
  (∀ p, exec (.linkctlAckSend p) s = .next s' → Kept [.ports] [r_LNK_PORT_TX] s s') ∧
  (∀ d amps, exec (.limitingEnd d amps) s = .next s' → Kept [] [r_PWR_STATUS, r_PWR_DOM_STAT] s s') ∧
  (∀ c, exec (.droopEnd c) s = .next s' → Kept [.power] [] s s') ∧
  (exec .holdSupplyDrop s = .next s' → Kept [] [r_PWR_STATUS] s s') ∧
  (∀ w, exec (.voltageLowering w) s = .next s' → Kept [.power] [r_THM_WING] s s')
end

