-- ==== Sys2Proof/Laws/Maps.lean ====
section
/-!
SUPPORT. Laws of sparse maps and memories: reading after a write, and that every write keeps the canonical form.
-/

namespace Sys2Proof.Machine

variable {α : Type}

theorem mfind_mput (m : SMap α) (x y : Nat) (v : α) :
    mfind (mput m x v) y = if x = y then some v else mfind m y := by
  induction m with
  | nil => simp [mput, mfind]
  | cons e m ih =>
    obtain ⟨k, w⟩ := e
    by_cases h1 : x < k
    · simp [mput, h1, mfind]
    · by_cases h2 : x = k
      · subst h2
        simp only [mput, lt_irrefl, if_false, if_true, mfind]
        split <;> simp_all
      · simp only [mput, if_neg h1, if_neg h2, mfind, ih]
        by_cases h3 : k = y
        · have : x ≠ y := fun h => h2 (h.trans h3.symm)
          simp [h3, this]
        · simp [h3]

theorem mfind_filter_key {m : SMap α} {p : Nat × α → Bool} {x : Nat} (h : ∀ v, p (x, v) = true) :
    mfind (m.filter p) x = mfind m x := by
  induction m with
  | nil => rfl
  | cons e m ih =>
    obtain ⟨k, v⟩ := e
    by_cases hk : k = x
    · subst hk; simp [List.filter, h v, mfind]
    · cases hp : p (k, v) <;> simp [List.filter, hp, mfind, hk, ih]

theorem mfind_mdel (m : SMap α) (x y : Nat) :
    mfind (mdel m x) y = if x = y then none else mfind m y := by
  induction m with
  | nil => simp [mdel, mfind]
  | cons e m ih =>
    obtain ⟨k, w⟩ := e
    by_cases h1 : k = x
    · subst h1
      simp only [mdel, if_true, ih, mfind]
      split <;> simp_all
    · simp only [mdel, if_neg h1, mfind, ih]
      by_cases h3 : k = y
      · have : x ≠ y := fun h => h1 (h3.trans h.symm)
        simp [h3, this]
      · simp [h3]

/-- Reading after `mput`: the value put at its key, and every other key as before. -/
@[simp] theorem mget_mput (d : α) (m : SMap α) (x y : Nat) (v : α) :
    mget d (mput m x v) y = if x = y then v else mget d m y := by
  simp only [mget, mfind_mput]; split <;> rfl

/-- Reading after `mset`. -/
@[simp] theorem mget_mset [DecidableEq α] (d : α) (m : SMap α) (x y : Nat) (v : α) :
    mget d (mset d m x v) y = if x = y then v else mget d m y := by
  unfold mset
  split
  · rename_i h
    simp only [mget, mfind_mdel]; split <;> simp_all
  · simp

/-- Reading after `mmod`. -/
@[simp] theorem mget_mmod (d : α) (m : SMap α) (x y : Nat) (f : α → α) :
    mget d (mmod d m x f) y = if x = y then f (mget d m x) else mget d m y := by
  simp [mmod]

/-- Reading a byte after a byte is written. -/
@[simp] theorem mem8_memSet8 (m : Mem) (a b : Nat) (v : Byte) :
    mem8 (memSet8 m a v) b = if a = b then v else mem8 m b := by
  simp [mem8, memSet8]

/-- Reading a byte after bytes are written: the byte of that place, and every other byte as before. -/
theorem mem8_memPut (m : Mem) (bs : List Byte) (a b : Nat) :
    mem8 (memPut m a bs) b = if a ≤ b ∧ b < a + bs.length then bs.getD (b - a) 0 else mem8 m b := by
  induction bs generalizing m a with
  | nil =>
    simp [memPut]
  | cons x bs ih =>
    simp only [memPut, ih, List.length_cons, mem8_memSet8]
    by_cases h1 : a = b
    · subst h1
      simp
    · by_cases h2 : a + 1 ≤ b ∧ b < a + 1 + bs.length
      · have h3 : a ≤ b ∧ b < a + (bs.length + 1) := by omega
        have h4 : b - a = (b - (a + 1)) + 1 := by omega
        simp [h2, h3, h4]
      · have h3 : ¬ (a ≤ b ∧ b < a + (bs.length + 1)) := by omega
        rw [if_neg h2, if_neg h3, if_neg h1]

/-! ## The canonical form -/

/-- Is every key at least a bound? -/
def keysFrom (n : Nat) (m : SMap α) : Bool := m.all (fun kv => decide (n ≤ kv.1))

theorem sortedKeys_cons (k : Nat) (v : α) (m : SMap α) :
    sortedKeys ((k, v) :: m) = true ↔ keysFrom (k + 1) m = true ∧ sortedKeys m = true := by
  induction m generalizing k v with
  | nil => simp [sortedKeys, keysFrom]
  | cons e m ih =>
    obtain ⟨k', v'⟩ := e
    have h := ih k' v'
    simp only [sortedKeys, Bool.and_eq_true, decide_eq_true_eq, keysFrom, List.all_cons] at *
    constructor
    · rintro ⟨h1, h2⟩
      refine ⟨⟨h1, ?_⟩, h2⟩
      rw [List.all_eq_true] at *
      intro x hx
      have := (h.1 h2).1
      have := this x hx
      simp only [decide_eq_true_eq] at *
      omega
    · rintro ⟨⟨h1, _⟩, h2⟩
      exact ⟨h1, h2⟩

theorem keysFrom_mput {n x : Nat} {m : SMap α} {v : α} (hx : n ≤ x) (h : keysFrom n m = true) :
    keysFrom n (mput m x v) = true := by
  induction m with
  | nil => simp [mput, keysFrom, hx]
  | cons e m ih =>
    obtain ⟨k, w⟩ := e
    simp only [keysFrom, List.all_cons, Bool.and_eq_true, decide_eq_true_eq] at h ih
    unfold mput
    split
    · simp only [keysFrom, List.all_cons, Bool.and_eq_true, decide_eq_true_eq]; exact ⟨hx, h⟩
    · split
      · simp only [keysFrom, List.all_cons, Bool.and_eq_true, decide_eq_true_eq]; exact ⟨hx, h.2⟩
      · simp only [keysFrom, List.all_cons, Bool.and_eq_true, decide_eq_true_eq]
        exact ⟨h.1, ih h.2⟩

theorem sortedKeys_mput {m : SMap α} (x : Nat) (v : α) (h : sortedKeys m = true) : sortedKeys (mput m x v) = true := by
  induction m with
  | nil => simp [mput, sortedKeys]
  | cons e m ih =>
    obtain ⟨k, w⟩ := e
    have hc := (sortedKeys_cons k w m).1 h
    unfold mput
    split
    · rename_i hlt
      simp [sortedKeys, hlt, h]
    · split
      · rename_i heq
        subst heq
        exact (sortedKeys_cons x v m).2 hc
      · rename_i h1 h2
        exact (sortedKeys_cons k w _).2 ⟨keysFrom_mput (by omega) hc.1, ih hc.2⟩

theorem all_mdel {m : SMap α} (x : Nat) (p : Nat × α → Bool) (h : m.all p = true) : (mdel m x).all p = true := by
  induction m with
  | nil => simp [mdel]
  | cons e m ih =>
    obtain ⟨k, w⟩ := e
    simp only [List.all_cons, Bool.and_eq_true] at h
    unfold mdel
    split
    · exact ih h.2
    · simp only [List.all_cons, Bool.and_eq_true]
      exact ⟨h.1, ih h.2⟩

theorem sortedKeys_mdel {m : SMap α} (x : Nat) (h : sortedKeys m = true) : sortedKeys (mdel m x) = true := by
  induction m with
  | nil => simp [mdel, sortedKeys]
  | cons e m ih =>
    obtain ⟨k, w⟩ := e
    have hc := (sortedKeys_cons k w m).1 h
    unfold mdel
    split
    · exact ih hc.2
    · exact (sortedKeys_cons k w _).2 ⟨all_mdel x _ hc.1, ih hc.2⟩

theorem all_mput {m : SMap α} (x : Nat) (v : α) (p : Nat × α → Bool) (hv : p (x, v) = true) (h : m.all p = true) :
    (mput m x v).all p = true := by
  induction m with
  | nil => simp [mput, hv]
  | cons e m ih =>
    obtain ⟨k, w⟩ := e
    simp only [List.all_cons, Bool.and_eq_true] at h
    unfold mput
    split
    · simp [hv, h]
    · split
      · simp [hv, h]
      · simp only [List.all_cons, Bool.and_eq_true]
        exact ⟨h.1, ih h.2⟩

/-- `mset` keeps the canonical form. -/
theorem canonical_mset [DecidableEq α] {d : α} {m : SMap α} (x : Nat) (v : α) (h : canonical d m = true) :
    canonical d (mset d m x v) = true := by
  simp only [canonical, Bool.and_eq_true] at *
  unfold mset
  split
  · exact ⟨sortedKeys_mdel x h.1, all_mdel x _ h.2⟩
  · rename_i hv
    exact ⟨sortedKeys_mput x v h.1, all_mput x v _ (by simp [hv]) h.2⟩

/-- Writing a byte keeps a memory's canonical form. -/
theorem canonical_memSet8 {m : Mem} (a : Nat) (v : Byte) (h : canonical 0 m = true) : canonical 0 (memSet8 m a v) = true :=
  canonical_mset a v h

/-- Writing bytes keeps a memory's canonical form. -/
theorem canonical_memPut {m : Mem} (a : Nat) (bs : List Byte) (h : canonical 0 m = true) :
    canonical 0 (memPut m a bs) = true := by
  induction bs generalizing m a with
  | nil => exact h
  | cons b bs ih => exact ih (a + 1) (canonical_memSet8 a b h)

theorem sortedKeys_filter {m : SMap α} (p : Nat × α → Bool) (h : sortedKeys m = true) : sortedKeys (m.filter p) = true := by
  induction m with
  | nil => simp [sortedKeys]
  | cons e m ih =>
    obtain ⟨k, w⟩ := e
    have hc := (sortedKeys_cons k w m).1 h
    by_cases hp : p (k, w) = true
    · rw [List.filter_cons_of_pos hp]
      refine (sortedKeys_cons k w _).2 ⟨?_, ih hc.2⟩
      simp only [keysFrom, List.all_eq_true, List.mem_filter] at *
      exact fun x hx => hc.1 x hx.1
    · rw [List.filter_cons_of_neg hp]
      exact ih hc.2

/-- Dropping bytes of a memory keeps its canonical form. -/
theorem canonical_filter [DecidableEq α] {d : α} {m : SMap α} (p : Nat × α → Bool) (h : canonical d m = true) :
    canonical d (m.filter p) = true := by
  simp only [canonical, Bool.and_eq_true, List.all_eq_true, List.mem_filter] at *
  exact ⟨sortedKeys_filter p h.1, fun x hx => h.2 x hx.1⟩

/-- Setting bytes one by one keeps a memory's canonical form. -/
theorem canonical_foldl_mset [DecidableEq α] {d : α} (l m : SMap α) (h : canonical d m = true) :
    canonical d (l.foldl (fun m (kv : Nat × α) => mset d m kv.1 kv.2) m) = true := by
  induction l generalizing m with
  | nil => exact h
  | cons e l ih => exact ih _ (canonical_mset e.1 e.2 h)

/-- A map of a sparse map's entries that keeps their keys changes what each key finds. -/
theorem mfind_map {m : SMap α} {f : Nat × α → Nat × α} (hf : ∀ kv, (f kv).1 = kv.1) (x : Nat) :
    mfind (m.map f) x = (mfind m x).map (fun v => (f (x, v)).2) := by
  induction m with
  | nil => rfl
  | cons e m ih =>
    obtain ⟨k, v⟩ := e
    rw [List.map_cons]
    have hk := hf (k, v)
    generalize he : f (k, v) = e at hk
    obtain ⟨k2, v2⟩ := e
    simp only at hk
    subst hk
    unfold mfind
    split
    · rename_i hx; subst hx; simp [he]
    · exact ih

end Sys2Proof.Machine
end

