-- ==== Sys2Proof/Laws/Agree.lean ====
section
/-!
SUPPORT. Agreement of states outside a set of fields, given as the bits of a number in the order of State's fields,
after them the registers, by their place in the register table.
-/

namespace Sys2Proof.Machine

/-- Does every bit of `a` stand in `b`? -/
def bitsIn (a b : Nat) : Bool := Nat.beq (Nat.land a b) a

theorem bitsIn_rfl {a b : Nat} (h : Nat.beq (Nat.land a b) a = true) : bitsIn a b = true := h

theorem bitsIn_trans {a b M : Nat} (h : Nat.beq (Nat.land a b) a = true) (hs : bitsIn b M = true) : bitsIn a M = true := by
  have h1 : a &&& b = a := Nat.eq_of_beq_eq_true h
  have h2 : b &&& M = b := Nat.eq_of_beq_eq_true hs
  have h3 : a &&& M = a := by rw [← h1, Nat.and_assoc, h2]
  show Nat.beq (a &&& M) a = true
  rw [h3]; exact Nat.beq_refl a

/-- Is a register in the table? -/
def Known (r : Reg) : Prop := allRegs[r.ix]? = some r

/-- `t` agrees with `s` in every field whose bit `M` does not hold. -/
structure Agree (M : Nat) (s t : State) : Prop where
  regs : M.testBit 0 = false → ∀ key, (∀ r k w, Known r → M.testBit (88 + r.ix) = true → key ≠ regKey r k w) →
    mfind t.regs key = mfind s.regs key
  latches : M.testBit 1 = false → t.latches = s.latches
  reply : M.testBit 2 = false → t.reply = s.reply
  now : M.testBit 3 = false → t.now = s.now
  timeSlew : M.testBit 4 = false → t.timeSlew = s.timeSlew
  slewAt : M.testBit 5 = false → t.slewAt = s.slewAt
  synced : M.testBit 6 = false → t.synced = s.synced
  freeCtr : M.testBit 7 = false → t.freeCtr = s.freeCtr
  nextId : M.testBit 8 = false → t.nextId = s.nextId
  cores : M.testBit 9 = false → t.cores = s.cores
  corePhys : M.testBit 10 = false → t.corePhys = s.corePhys
  kernels : M.testBit 11 = false → t.kernels = s.kernels
  ops : M.testBit 12 = false → t.ops = s.ops
  movers : M.testBit 13 = false → t.movers = s.movers
  reqs : M.testBit 14 = false → t.reqs = s.reqs
  hbm : M.testBit 15 = false → t.hbm = s.hbm
  hbmPoison : M.testBit 16 = false → t.hbmPoison = s.hbmPoison
  bufs : M.testBit 17 = false → t.bufs = s.bufs
  host : M.testBit 18 = false → t.host = s.host
  hostPoison : M.testBit 19 = false → t.hostPoison = s.hostPoison
  winStart : M.testBit 20 = false → t.winStart = s.winStart
  winLen : M.testBit 21 = false → t.winLen = s.winLen
  regCounts : M.testBit 22 = false → t.regCounts = s.regCounts
  qosOld : M.testBit 23 = false → t.qosOld = s.qosOld
  missPosted : M.testBit 24 = false → t.missPosted = s.missPosted
  bridgeRun : M.testBit 25 = false → t.bridgeRun = s.bridgeRun
  scrubPos : M.testBit 26 = false → t.scrubPos = s.scrubPos
  tiles : M.testBit 27 = false → t.tiles = s.tiles
  stallAt : M.testBit 28 = false → t.stallAt = s.stallAt
  walks : M.testBit 29 = false → t.walks = s.walks
  tlb : M.testBit 30 = false → t.tlb = s.tlb
  wcache : M.testBit 31 = false → t.wcache = s.wcache
  tracker : M.testBit 32 = false → t.tracker = s.tracker
  invals : M.testBit 33 = false → t.invals = s.invals
  fqHeld : M.testBit 34 = false → t.fqHeld = s.fqHeld
  slots : M.testBit 35 = false → t.slots = s.slots
  gates : M.testBit 36 = false → t.gates = s.gates
  landing : M.testBit 37 = false → t.landing = s.landing
  evHeld : M.testBit 38 = false → t.evHeld = s.evHeld
  rings : M.testBit 39 = false → t.rings = s.rings
  armed : M.testBit 40 = false → t.armed = s.armed
  msixDue : M.testBit 41 = false → t.msixDue = s.msixDue
  msixLast : M.testBit 42 = false → t.msixLast = s.msixLast
  msix : M.testBit 43 = false → t.msix = s.msix
  instars : M.testBit 44 = false → t.instars = s.instars
  instarAt : M.testBit 45 = false → t.instarAt = s.instarAt
  instarDue : M.testBit 46 = false → t.instarDue = s.instarDue
  silkMsgs : M.testBit 47 = false → t.silkMsgs = s.silkMsgs
  silkWaiters : M.testBit 48 = false → t.silkWaiters = s.silkWaiters
  silkReplies : M.testBit 49 = false → t.silkReplies = s.silkReplies
  silkSent : M.testBit 50 = false → t.silkSent = s.silkSent
  ports : M.testBit 51 = false → t.ports = s.ports
  linkIn : M.testBit 52 = false → t.linkIn = s.linkIn
  linkReqs : M.testBit 53 = false → t.linkReqs = s.linkReqs
  linkRr : M.testBit 54 = false → t.linkRr = s.linkRr
  peers : M.testBit 55 = false → t.peers = s.peers
  custody : M.testBit 56 = false → t.custody = s.custody
  custOp : M.testBit 57 = false → t.custOp = s.custOp
  colls : M.testBit 58 = false → t.colls = s.colls
  bootNonce : M.testBit 59 = false → t.bootNonce = s.bootNonce
  lastHello : M.testBit 60 = false → t.lastHello = s.lastHello
  lastAdvert : M.testBit 61 = false → t.lastAdvert = s.lastAdvert
  lastTime : M.testBit 62 = false → t.lastTime = s.lastTime
  imagos : M.testBit 63 = false → t.imagos = s.imagos
  verif : M.testBit 64 = false → t.verif = s.verif
  leaseTerms : M.testBit 65 = false → t.leaseTerms = s.leaseTerms
  poolFreed : M.testBit 66 = false → t.poolFreed = s.poolFreed
  ctxs : M.testBit 67 = false → t.ctxs = s.ctxs
  scheds : M.testBit 68 = false → t.scheds = s.scheds
  queues : M.testBit 69 = false → t.queues = s.queues
  cmds : M.testBit 70 = false → t.cmds = s.cmds
  objs : M.testBit 71 = false → t.objs = s.objs
  fenceWaiters : M.testBit 72 = false → t.fenceWaiters = s.fenceWaiters
  fenceOuts : M.testBit 73 = false → t.fenceOuts = s.fenceOuts
  fwq : M.testBit 74 = false → t.fwq = s.fwq
  mail : M.testBit 75 = false → t.mail = s.mail
  instResets : M.testBit 76 = false → t.instResets = s.instResets
  numVfs : M.testBit 77 = false → t.numVfs = s.numVfs
  keyMat : M.testBit 78 = false → t.keyMat = s.keyMat
  cvks : M.testBit 79 = false → t.cvks = s.cvks
  rtc : M.testBit 80 = false → t.rtc = s.rtc
  flash : M.testBit 81 = false → t.flash = s.flash
  power : M.testBit 82 = false → t.power = s.power
  stops : M.testBit 83 = false → t.stops = s.stops
  stopSince : M.testBit 84 = false → t.stopSince = s.stopSince
  aon : M.testBit 85 = false → t.aon = s.aon
  resets : M.testBit 86 = false → t.resets = s.resets
  pending : M.testBit 87 = false → t.pending = s.pending
  mems : MemoriesWf s → MemoriesWf t

theorem bitsIn_bit {m M i : Nat} (hs : bitsIn m M = true) (hm : m.testBit i = true) : M.testBit i = true := by
  have h : Nat.land m M = m := Nat.eq_of_beq_eq_true hs
  have h2 : (Nat.land m M).testBit i = (m.testBit i && M.testBit i) := Nat.testBit_and m M i
  rw [h, hm] at h2
  simpa using h2.symm

theorem bitsIn_off {m M i : Nat} (hs : bitsIn m M = true) (hb : M.testBit i = false) : m.testBit i = false := by
  cases hm : m.testBit i with
  | false => rfl
  | true => rw [bitsIn_bit hs hm] at hb; exact absurd hb (by decide)

theorem bit_off {m M i : Nat} {P : Prop} (hs : bitsIn m M = true) (hm : m.testBit i = true) (hb : M.testBit i = false) : P := by
  rw [bitsIn_bit hs hm] at hb; exact absurd hb (by decide)

theorem Agree.refl (M : Nat) (s : State) : Agree M s s :=
  ⟨fun _ _ _ => rfl, fun _ => rfl, fun _ => rfl, fun _ => rfl, fun _ => rfl, fun _ => rfl, fun _ => rfl, fun _ => rfl, fun _ => rfl, fun _ => rfl, fun _ => rfl, fun _ => rfl, fun _ => rfl, fun _ => rfl, fun _ => rfl, fun _ => rfl, fun _ => rfl, fun _ => rfl, fun _ => rfl, fun _ => rfl, fun _ => rfl, fun _ => rfl, fun _ => rfl, fun _ => rfl, fun _ => rfl, fun _ => rfl, fun _ => rfl, fun _ => rfl, fun _ => rfl, fun _ => rfl, fun _ => rfl, fun _ => rfl, fun _ => rfl, fun _ => rfl, fun _ => rfl, fun _ => rfl, fun _ => rfl, fun _ => rfl, fun _ => rfl, fun _ => rfl, fun _ => rfl, fun _ => rfl, fun _ => rfl, fun _ => rfl, fun _ => rfl, fun _ => rfl, fun _ => rfl, fun _ => rfl, fun _ => rfl, fun _ => rfl, fun _ => rfl, fun _ => rfl, fun _ => rfl, fun _ => rfl, fun _ => rfl, fun _ => rfl, fun _ => rfl, fun _ => rfl, fun _ => rfl, fun _ => rfl, fun _ => rfl, fun _ => rfl, fun _ => rfl, fun _ => rfl, fun _ => rfl, fun _ => rfl, fun _ => rfl, fun _ => rfl, fun _ => rfl, fun _ => rfl, fun _ => rfl, fun _ => rfl, fun _ => rfl, fun _ => rfl, fun _ => rfl, fun _ => rfl, fun _ => rfl, fun _ => rfl, fun _ => rfl, fun _ => rfl, fun _ => rfl, fun _ => rfl, fun _ => rfl, fun _ => rfl, fun _ => rfl, fun _ => rfl, fun _ => rfl, fun _ => rfl, fun w => w⟩

theorem Agree.step {M m : Nat} {s0 s t : State} (h : Agree M s0 s) (hs : bitsIn m M = true) (g : Agree m s t) : Agree M s0 t :=
  ⟨fun b key hk => (g.regs (bitsIn_off hs b) key (fun r k w kn hb => hk r k w kn (bitsIn_bit hs hb))).trans (h.regs b key hk),
   fun b => (g.latches (bitsIn_off hs b)).trans (h.latches b),
   fun b => (g.reply (bitsIn_off hs b)).trans (h.reply b),
   fun b => (g.now (bitsIn_off hs b)).trans (h.now b),
   fun b => (g.timeSlew (bitsIn_off hs b)).trans (h.timeSlew b),
   fun b => (g.slewAt (bitsIn_off hs b)).trans (h.slewAt b),
   fun b => (g.synced (bitsIn_off hs b)).trans (h.synced b),
   fun b => (g.freeCtr (bitsIn_off hs b)).trans (h.freeCtr b),
   fun b => (g.nextId (bitsIn_off hs b)).trans (h.nextId b),
   fun b => (g.cores (bitsIn_off hs b)).trans (h.cores b),
   fun b => (g.corePhys (bitsIn_off hs b)).trans (h.corePhys b),
   fun b => (g.kernels (bitsIn_off hs b)).trans (h.kernels b),
   fun b => (g.ops (bitsIn_off hs b)).trans (h.ops b),
   fun b => (g.movers (bitsIn_off hs b)).trans (h.movers b),
   fun b => (g.reqs (bitsIn_off hs b)).trans (h.reqs b),
   fun b => (g.hbm (bitsIn_off hs b)).trans (h.hbm b),
   fun b => (g.hbmPoison (bitsIn_off hs b)).trans (h.hbmPoison b),
   fun b => (g.bufs (bitsIn_off hs b)).trans (h.bufs b),
   fun b => (g.host (bitsIn_off hs b)).trans (h.host b),
   fun b => (g.hostPoison (bitsIn_off hs b)).trans (h.hostPoison b),
   fun b => (g.winStart (bitsIn_off hs b)).trans (h.winStart b),
   fun b => (g.winLen (bitsIn_off hs b)).trans (h.winLen b),
   fun b => (g.regCounts (bitsIn_off hs b)).trans (h.regCounts b),
   fun b => (g.qosOld (bitsIn_off hs b)).trans (h.qosOld b),
   fun b => (g.missPosted (bitsIn_off hs b)).trans (h.missPosted b),
   fun b => (g.bridgeRun (bitsIn_off hs b)).trans (h.bridgeRun b),
   fun b => (g.scrubPos (bitsIn_off hs b)).trans (h.scrubPos b),
   fun b => (g.tiles (bitsIn_off hs b)).trans (h.tiles b),
   fun b => (g.stallAt (bitsIn_off hs b)).trans (h.stallAt b),
   fun b => (g.walks (bitsIn_off hs b)).trans (h.walks b),
   fun b => (g.tlb (bitsIn_off hs b)).trans (h.tlb b),
   fun b => (g.wcache (bitsIn_off hs b)).trans (h.wcache b),
   fun b => (g.tracker (bitsIn_off hs b)).trans (h.tracker b),
   fun b => (g.invals (bitsIn_off hs b)).trans (h.invals b),
   fun b => (g.fqHeld (bitsIn_off hs b)).trans (h.fqHeld b),
   fun b => (g.slots (bitsIn_off hs b)).trans (h.slots b),
   fun b => (g.gates (bitsIn_off hs b)).trans (h.gates b),
   fun b => (g.landing (bitsIn_off hs b)).trans (h.landing b),
   fun b => (g.evHeld (bitsIn_off hs b)).trans (h.evHeld b),
   fun b => (g.rings (bitsIn_off hs b)).trans (h.rings b),
   fun b => (g.armed (bitsIn_off hs b)).trans (h.armed b),
   fun b => (g.msixDue (bitsIn_off hs b)).trans (h.msixDue b),
   fun b => (g.msixLast (bitsIn_off hs b)).trans (h.msixLast b),
   fun b => (g.msix (bitsIn_off hs b)).trans (h.msix b),
   fun b => (g.instars (bitsIn_off hs b)).trans (h.instars b),
   fun b => (g.instarAt (bitsIn_off hs b)).trans (h.instarAt b),
   fun b => (g.instarDue (bitsIn_off hs b)).trans (h.instarDue b),
   fun b => (g.silkMsgs (bitsIn_off hs b)).trans (h.silkMsgs b),
   fun b => (g.silkWaiters (bitsIn_off hs b)).trans (h.silkWaiters b),
   fun b => (g.silkReplies (bitsIn_off hs b)).trans (h.silkReplies b),
   fun b => (g.silkSent (bitsIn_off hs b)).trans (h.silkSent b),
   fun b => (g.ports (bitsIn_off hs b)).trans (h.ports b),
   fun b => (g.linkIn (bitsIn_off hs b)).trans (h.linkIn b),
   fun b => (g.linkReqs (bitsIn_off hs b)).trans (h.linkReqs b),
   fun b => (g.linkRr (bitsIn_off hs b)).trans (h.linkRr b),
   fun b => (g.peers (bitsIn_off hs b)).trans (h.peers b),
   fun b => (g.custody (bitsIn_off hs b)).trans (h.custody b),
   fun b => (g.custOp (bitsIn_off hs b)).trans (h.custOp b),
   fun b => (g.colls (bitsIn_off hs b)).trans (h.colls b),
   fun b => (g.bootNonce (bitsIn_off hs b)).trans (h.bootNonce b),
   fun b => (g.lastHello (bitsIn_off hs b)).trans (h.lastHello b),
   fun b => (g.lastAdvert (bitsIn_off hs b)).trans (h.lastAdvert b),
   fun b => (g.lastTime (bitsIn_off hs b)).trans (h.lastTime b),
   fun b => (g.imagos (bitsIn_off hs b)).trans (h.imagos b),
   fun b => (g.verif (bitsIn_off hs b)).trans (h.verif b),
   fun b => (g.leaseTerms (bitsIn_off hs b)).trans (h.leaseTerms b),
   fun b => (g.poolFreed (bitsIn_off hs b)).trans (h.poolFreed b),
   fun b => (g.ctxs (bitsIn_off hs b)).trans (h.ctxs b),
   fun b => (g.scheds (bitsIn_off hs b)).trans (h.scheds b),
   fun b => (g.queues (bitsIn_off hs b)).trans (h.queues b),
   fun b => (g.cmds (bitsIn_off hs b)).trans (h.cmds b),
   fun b => (g.objs (bitsIn_off hs b)).trans (h.objs b),
   fun b => (g.fenceWaiters (bitsIn_off hs b)).trans (h.fenceWaiters b),
   fun b => (g.fenceOuts (bitsIn_off hs b)).trans (h.fenceOuts b),
   fun b => (g.fwq (bitsIn_off hs b)).trans (h.fwq b),
   fun b => (g.mail (bitsIn_off hs b)).trans (h.mail b),
   fun b => (g.instResets (bitsIn_off hs b)).trans (h.instResets b),
   fun b => (g.numVfs (bitsIn_off hs b)).trans (h.numVfs b),
   fun b => (g.keyMat (bitsIn_off hs b)).trans (h.keyMat b),
   fun b => (g.cvks (bitsIn_off hs b)).trans (h.cvks b),
   fun b => (g.rtc (bitsIn_off hs b)).trans (h.rtc b),
   fun b => (g.flash (bitsIn_off hs b)).trans (h.flash b),
   fun b => (g.power (bitsIn_off hs b)).trans (h.power b),
   fun b => (g.stops (bitsIn_off hs b)).trans (h.stops b),
   fun b => (g.stopSince (bitsIn_off hs b)).trans (h.stopSince b),
   fun b => (g.aon (bitsIn_off hs b)).trans (h.aon b),
   fun b => (g.resets (bitsIn_off hs b)).trans (h.resets b),
   fun b => (g.pending (bitsIn_off hs b)).trans (h.pending b),
   fun w => g.mems (h.mems w)⟩

/-- May a register change under a mask? -/
def RegIn (M : Nat) (r : Reg) : Prop := M.testBit 0 = true ∨ (M.testBit (88 + r.ix) = true ∧ Known r)

theorem regIn_rfl {M : Nat} {r : Reg} (h : M.testBit (88 + r.ix) = true) (hk : Known r) : RegIn M r := .inr ⟨h, hk⟩

theorem regIn_sub {m M : Nat} {r : Reg} (h : m.testBit (88 + r.ix) = true) (hk : Known r) (hs : bitsIn m M = true) : RegIn M r :=
  .inr ⟨bitsIn_bit hs h, hk⟩

theorem Agree.setRegs {M : Nat} {s0 s : State} {l : SMap DWord} (h : Agree M s0 s)
    (hl : M.testBit 0 = false → ∀ key, (∀ r k w, Known r → M.testBit (88 + r.ix) = true → key ≠ regKey r k w) →
      mfind l key = mfind s.regs key) : Agree M s0 { s with regs := l } :=
  ⟨fun b key hk => (hl b key hk).trans (h.regs b key hk), h.latches, h.reply, h.now, h.timeSlew, h.slewAt, h.synced, h.freeCtr, h.nextId, h.cores, h.corePhys, h.kernels, h.ops, h.movers, h.reqs, h.hbm, h.hbmPoison, h.bufs, h.host, h.hostPoison, h.winStart, h.winLen, h.regCounts, h.qosOld, h.missPosted, h.bridgeRun, h.scrubPos, h.tiles, h.stallAt, h.walks, h.tlb, h.wcache, h.tracker, h.invals, h.fqHeld, h.slots, h.gates, h.landing, h.evHeld, h.rings, h.armed, h.msixDue, h.msixLast, h.msix, h.instars, h.instarAt, h.instarDue, h.silkMsgs, h.silkWaiters, h.silkReplies, h.silkSent, h.ports, h.linkIn, h.linkReqs, h.linkRr, h.peers, h.custody, h.custOp, h.colls, h.bootNonce, h.lastHello, h.lastAdvert, h.lastTime, h.imagos, h.verif, h.leaseTerms, h.poolFreed, h.ctxs, h.scheds, h.queues, h.cmds, h.objs, h.fenceWaiters, h.fenceOuts, h.fwq, h.mail, h.instResets, h.numVfs, h.keyMat, h.cvks, h.rtc, h.flash, h.power, h.stops, h.stopSince, h.aon, h.resets, h.pending, h.mems⟩


theorem Agree.ite {M : Nat} {s0 a b : State} {c : Prop} [Decidable c] (h1 : Agree M s0 a) (h2 : Agree M s0 b) :
    Agree M s0 (if c then a else b) := by split <;> assumption

theorem Agree.foldl {α : Type} {M : Nat} {s0 s : State} {f : State → α → State} {l : List α}
    (hf : ∀ s x, Agree M s0 s → Agree M s0 (f s x)) (h : Agree M s0 s) : Agree M s0 (l.foldl f s) := by
  induction l generalizing s with
  | nil => exact h
  | cons x l ih => exact ih (hf s x h)

theorem Agree.foldl2 {α β : Type} {M : Nat} {s0 : State} {f : β × State → α → β × State} {b : β × State} {l : List α}
    (hf : ∀ r x, Agree M s0 r.2 → Agree M s0 (f r x).2) (h : Agree M s0 b.2) : Agree M s0 (l.foldl f b).2 := by
  induction l generalizing b with
  | nil => exact h
  | cons x l ih => exact ih (hf b x h)

theorem Agree.foldl3 {α β γ : Type} {M : Nat} {s0 : State} {f : β × γ × State → α → β × γ × State} {b : β × γ × State}
    {l : List α} (hf : ∀ r x, Agree M s0 r.2.2 → Agree M s0 (f r x).2.2) (h : Agree M s0 b.2.2) :
    Agree M s0 (l.foldl f b).2.2 := by
  induction l generalizing b with
  | nil => exact h
  | cons x l ih => exact ih (hf b x h)

theorem Agree.foldl4 {α β γ δ : Type} {M : Nat} {s0 : State} {f : β × γ × δ × State → α → β × γ × δ × State} {b : β × γ × δ × State}
    {l : List α} (hf : ∀ r x, Agree M s0 r.2.2.2 → Agree M s0 (f r x).2.2.2) (h : Agree M s0 b.2.2.2) :
    Agree M s0 (l.foldl f b).2.2.2 := by
  induction l generalizing b with
  | nil => exact h
  | cons x l ih => exact ih (hf b x h)

theorem Agree.of_pair {α : Type} {M : Nat} {s0 t : State} {p : α × State} {a : α} (e : p = (a, t)) (h : Agree M s0 p.2) : Agree M s0 t := by
  subst e; exact h

theorem Agree.of_pair2 {α β : Type} {M : Nat} {s0 t : State} {p : α × β × State} {a : α} {b : β} (e : p = (a, b, t)) (h : Agree M s0 p.2.2) :
    Agree M s0 t := by
  subst e; exact h

/-- An outcome agrees when its next state does. -/
def AgreeO (M : Nat) (s : State) (o : Host.Outcome State Fault Refusal) : Prop := ∀ t, o = .next t → Agree M s t

theorem AgreeO.next {M : Nat} {s t : State} (h : Agree M s t) : AgreeO M s (.next t) := by
  intro x hx; injection hx with hx; exact hx ▸ h

theorem AgreeO.refused {M : Nat} {s : State} {r : Refusal} : AgreeO M s (.refused r) := by
  intro x hx; exact absurd hx (by simp)

theorem AgreeO.fault {M : Nat} {s : State} {r : Fault} : AgreeO M s (.fault r) := by
  intro x hx; exact absurd hx (by simp)

theorem AgreeO.ite {M : Nat} {s : State} {a b : Host.Outcome State Fault Refusal} {c : Prop} [Decidable c] (h1 : AgreeO M s a) (h2 : AgreeO M s b) :
    AgreeO M s (if c then a else b) := by split <;> assumption

theorem Agree.stepO {M m : Nat} {s0 s : State} {o : Host.Outcome State Fault Refusal} (h : Agree M s0 s) (hs : bitsIn m M = true) (g : AgreeO m s o) :
    AgreeO M s0 o := fun t ht => h.step hs (g t ht)

/-- An optional state agrees when it is there. -/
def AgreeS (M : Nat) (s : State) (o : Option State) : Prop := ∀ t, o = some t → Agree M s t

theorem AgreeS.some {M : Nat} {s t : State} (h : Agree M s t) : AgreeS M s (some t) := by
  intro x hx; injection hx with hx; exact hx ▸ h

theorem AgreeS.none {M : Nat} {s : State} : AgreeS M s none := by intro x hx; exact absurd hx (by simp)

theorem AgreeS.ite {M : Nat} {s : State} {a b : Option State} {c : Prop} [Decidable c] (h1 : AgreeS M s a) (h2 : AgreeS M s b) :
    AgreeS M s (if c then a else b) := by split <;> assumption

theorem Agree.stepS {M m : Nat} {s0 s : State} {o : Option State} (h : Agree M s0 s) (hs : bitsIn m M = true) (g : AgreeS m s o) :
    AgreeS M s0 o := fun t ht => h.step hs (g t ht)

/-- An optional pair agrees when its state does. -/
def AgreeP {α : Type} (M : Nat) (s : State) (o : Option (α × State)) : Prop := ∀ t, o = some t → Agree M s t.2

theorem AgreeP.some {α : Type} {M : Nat} {s : State} {t : α × State} (h : Agree M s t.2) : AgreeP M s (some t) := by
  intro x hx; injection hx with hx; exact hx ▸ h

theorem AgreeP.none {α : Type} {M : Nat} {s : State} : AgreeP M s (none : Option (α × State)) := by
  intro x hx; exact absurd hx (by simp)

theorem AgreeP.ite {α : Type} {M : Nat} {s : State} {a b : Option (α × State)} {c : Prop} [Decidable c] (h1 : AgreeP M s a) (h2 : AgreeP M s b) :
    AgreeP M s (if c then a else b) := by split <;> assumption

theorem AgreeP.of {α : Type} {M : Nat} {s t : State} {o : Option (α × State)} {x : α} (h : AgreeP M s o) (e : o = Option.some (x, t)) :
    Agree M s t := h _ e

theorem AgreeP.map {α β : Type} {M : Nat} {s : State} {o : Option β} {f : β → α × State} (h : ∀ x, o = Option.some x → Agree M s (f x).2) :
    AgreeP M s (o.map f) := by
  intro t e
  cases o with
  | none => exact absurd e (by simp)
  | some x => injection e with e; exact e ▸ h x rfl

theorem AgreeP.snd {α : Type} {M : Nat} {s : State} {o : Option (α × State)} (h : AgreeP M s o) : AgreeS M s (o.map Prod.snd) := by
  intro t e
  cases o with
  | none => exact absurd e (by simp)
  | some x => injection e with e; exact e ▸ h x rfl

theorem AgreeS.of {M : Nat} {s t : State} {o : Option State} (h : AgreeS M s o) (e : o = Option.some t) : Agree M s t := h _ e

theorem Agree.stepP {α : Type} {M m : Nat} {s0 s : State} {o : Option (α × State)} (h : Agree M s0 s) (hs : bitsIn m M = true)
    (g : AgreeP m s o) : AgreeP M s0 o := fun t ht => h.step hs (g t ht)

/-- An outcome with a value agrees when its next state does. -/
def AgreeQ {α : Type} (M : Nat) (s : State) (o : Host.Outcome (α × State) Fault Refusal) : Prop := ∀ t, o = .next t → Agree M s t.2

theorem AgreeQ.some {α : Type} {M : Nat} {s : State} {t : α × State} (h : Agree M s t.2) : AgreeQ M s (.next t) := by
  intro x hx; injection hx with hx; exact hx ▸ h

theorem AgreeQ.none {α : Type} {M : Nat} {s : State} {r : Refusal} : AgreeQ M s (.refused r : Host.Outcome (α × State) Fault Refusal) := by
  intro x hx; exact absurd hx (by simp)

theorem AgreeQ.fault {α : Type} {M : Nat} {s : State} {r : Fault} : AgreeQ M s (.fault r : Host.Outcome (α × State) Fault Refusal) := by
  intro x hx; exact absurd hx (by simp)

theorem AgreeQ.ite {α : Type} {M : Nat} {s : State} {a b : Host.Outcome (α × State) Fault Refusal} {c : Prop} [Decidable c] (h1 : AgreeQ M s a) (h2 : AgreeQ M s b) :
    AgreeQ M s (if c then a else b) := by split <;> assumption

theorem AgreeO.of {M : Nat} {s t : State} {o : Host.Outcome State Fault Refusal} (h : AgreeO M s o) (e : o = .next t) : Agree M s t := h _ e

theorem AgreeQ.of {α : Type} {M : Nat} {s t : State} {o : Host.Outcome (α × State) Fault Refusal} {x : α} (h : AgreeQ M s o)
    (e : o = .next (x, t)) : Agree M s t := h _ e

theorem AgreeQ.of2 {α : Type} {M : Nat} {s : State} {o : Host.Outcome (α × State) Fault Refusal} {x : α × State} (h : AgreeQ M s o)
    (e : o = .next x) : Agree M s x.2 := h _ e

theorem Agree.stepQ {α : Type} {M m : Nat} {s0 s : State} {o : Host.Outcome (α × State) Fault Refusal} (h : Agree M s0 s) (hs : bitsIn m M = true)
    (g : AgreeQ m s o) : AgreeQ M s0 o := fun t ht => h.step hs (g t ht)

/-- From two states whose memories have the canonical form comes a third. -/
def MemOf (a b t : State) : Prop := MemoriesWf a → MemoriesWf b → MemoriesWf t

theorem MemOf.intro {a b t : State} (h : MemoriesWf a → MemoriesWf b → MemoriesWf t) : MemOf a b t := h

/-- A core's scratchpad has the canonical form when every core's has. -/
def CoreOf (s : State) (k : Core) : Prop := (∀ x, Memory.wf (core s x).scr = true) → Memory.wf k.scr = true

theorem CoreOf.intro {s : State} {k : Core} (h : (∀ x, Memory.wf (core s x).scr = true) → Memory.wf k.scr = true) : CoreOf s k := h

/-- A change of a core keeps its scratchpad's canonical form. -/
def ModOf (f : Core → Core) : Prop := ∀ k : Core, Memory.wf k.scr = true → Memory.wf (f k).scr = true

theorem ModOf.intro {f : Core → Core} (h : ∀ k : Core, Memory.wf k.scr = true → Memory.wf (f k).scr = true) : ModOf f := h

/-- A core whose scratchpad keeps the canonical form may replace another. -/
theorem memoriesWf_setCore {s : State} {c : Nat} {k : Core} (w : MemoriesWf s) (hk : Memory.wf k.scr = true) :
    MemoriesWf { s with cores := mput s.cores c k } := by
  refine ⟨w.1, w.2.1, fun x => ?_⟩
  simp only [core, mget_mput]
  split
  · exact hk
  · exact w.2.2 x

/-- Changes of cores that leave their scratchpads keep the canonical form. -/
theorem memoriesWf_mapCores {s : State} {f : Nat × Core → Nat × Core} (w : MemoriesWf s)
    (hf : ∀ kv, (f kv).1 = kv.1 ∧ (f kv).2.scr = kv.2.scr) : MemoriesWf { s with cores := s.cores.map f } := by
  refine ⟨w.1, w.2.1, fun x => ?_⟩
  have h := w.2.2 x
  simp only [core, mget, mfind_map (fun kv => (hf kv).1)] at *
  cases hx : mfind s.cores x with
  | none => simpa [hx] using h
  | some v => simpa [hx, (hf (x, v)).2] using h

theorem upd_aon {M : Nat} {s0 s : State} {v0} (hs : bitsIn 0x2000000000000000000000 M = true) (h : Agree M s0 s) :
    Agree M s0 { s with aon := v0 } :=
  ⟨h.regs, h.latches, h.reply, h.now, h.timeSlew, h.slewAt, h.synced, h.freeCtr, h.nextId, h.cores, h.corePhys, h.kernels, h.ops, h.movers, h.reqs, h.hbm, h.hbmPoison, h.bufs, h.host, h.hostPoison, h.winStart, h.winLen, h.regCounts, h.qosOld, h.missPosted, h.bridgeRun, h.scrubPos, h.tiles, h.stallAt, h.walks, h.tlb, h.wcache, h.tracker, h.invals, h.fqHeld, h.slots, h.gates, h.landing, h.evHeld, h.rings, h.armed, h.msixDue, h.msixLast, h.msix, h.instars, h.instarAt, h.instarDue, h.silkMsgs, h.silkWaiters, h.silkReplies, h.silkSent, h.ports, h.linkIn, h.linkReqs, h.linkRr, h.peers, h.custody, h.custOp, h.colls, h.bootNonce, h.lastHello, h.lastAdvert, h.lastTime, h.imagos, h.verif, h.leaseTerms, h.poolFreed, h.ctxs, h.scheds, h.queues, h.cmds, h.objs, h.fenceWaiters, h.fenceOuts, h.fwq, h.mail, h.instResets, h.numVfs, h.keyMat, h.cvks, h.rtc, h.flash, h.power, h.stops, h.stopSince, bit_off hs rfl, h.resets, h.pending, h.mems⟩

theorem upd_armed {M : Nat} {s0 s : State} {v0} (hs : bitsIn 0x10000000000 M = true) (h : Agree M s0 s) :
    Agree M s0 { s with armed := v0 } :=
  ⟨h.regs, h.latches, h.reply, h.now, h.timeSlew, h.slewAt, h.synced, h.freeCtr, h.nextId, h.cores, h.corePhys, h.kernels, h.ops, h.movers, h.reqs, h.hbm, h.hbmPoison, h.bufs, h.host, h.hostPoison, h.winStart, h.winLen, h.regCounts, h.qosOld, h.missPosted, h.bridgeRun, h.scrubPos, h.tiles, h.stallAt, h.walks, h.tlb, h.wcache, h.tracker, h.invals, h.fqHeld, h.slots, h.gates, h.landing, h.evHeld, h.rings, bit_off hs rfl, h.msixDue, h.msixLast, h.msix, h.instars, h.instarAt, h.instarDue, h.silkMsgs, h.silkWaiters, h.silkReplies, h.silkSent, h.ports, h.linkIn, h.linkReqs, h.linkRr, h.peers, h.custody, h.custOp, h.colls, h.bootNonce, h.lastHello, h.lastAdvert, h.lastTime, h.imagos, h.verif, h.leaseTerms, h.poolFreed, h.ctxs, h.scheds, h.queues, h.cmds, h.objs, h.fenceWaiters, h.fenceOuts, h.fwq, h.mail, h.instResets, h.numVfs, h.keyMat, h.cvks, h.rtc, h.flash, h.power, h.stops, h.stopSince, h.aon, h.resets, h.pending, h.mems⟩

theorem upd_bootNonce {M : Nat} {s0 s : State} {v0} (hs : bitsIn 0x800000000000000 M = true) (h : Agree M s0 s) :
    Agree M s0 { s with bootNonce := v0 } :=
  ⟨h.regs, h.latches, h.reply, h.now, h.timeSlew, h.slewAt, h.synced, h.freeCtr, h.nextId, h.cores, h.corePhys, h.kernels, h.ops, h.movers, h.reqs, h.hbm, h.hbmPoison, h.bufs, h.host, h.hostPoison, h.winStart, h.winLen, h.regCounts, h.qosOld, h.missPosted, h.bridgeRun, h.scrubPos, h.tiles, h.stallAt, h.walks, h.tlb, h.wcache, h.tracker, h.invals, h.fqHeld, h.slots, h.gates, h.landing, h.evHeld, h.rings, h.armed, h.msixDue, h.msixLast, h.msix, h.instars, h.instarAt, h.instarDue, h.silkMsgs, h.silkWaiters, h.silkReplies, h.silkSent, h.ports, h.linkIn, h.linkReqs, h.linkRr, h.peers, h.custody, h.custOp, h.colls, bit_off hs rfl, h.lastHello, h.lastAdvert, h.lastTime, h.imagos, h.verif, h.leaseTerms, h.poolFreed, h.ctxs, h.scheds, h.queues, h.cmds, h.objs, h.fenceWaiters, h.fenceOuts, h.fwq, h.mail, h.instResets, h.numVfs, h.keyMat, h.cvks, h.rtc, h.flash, h.power, h.stops, h.stopSince, h.aon, h.resets, h.pending, h.mems⟩

theorem upd_bridgeRun {M : Nat} {s0 s : State} {v0} (hs : bitsIn 0x2000000 M = true) (h : Agree M s0 s) :
    Agree M s0 { s with bridgeRun := v0 } :=
  ⟨h.regs, h.latches, h.reply, h.now, h.timeSlew, h.slewAt, h.synced, h.freeCtr, h.nextId, h.cores, h.corePhys, h.kernels, h.ops, h.movers, h.reqs, h.hbm, h.hbmPoison, h.bufs, h.host, h.hostPoison, h.winStart, h.winLen, h.regCounts, h.qosOld, h.missPosted, bit_off hs rfl, h.scrubPos, h.tiles, h.stallAt, h.walks, h.tlb, h.wcache, h.tracker, h.invals, h.fqHeld, h.slots, h.gates, h.landing, h.evHeld, h.rings, h.armed, h.msixDue, h.msixLast, h.msix, h.instars, h.instarAt, h.instarDue, h.silkMsgs, h.silkWaiters, h.silkReplies, h.silkSent, h.ports, h.linkIn, h.linkReqs, h.linkRr, h.peers, h.custody, h.custOp, h.colls, h.bootNonce, h.lastHello, h.lastAdvert, h.lastTime, h.imagos, h.verif, h.leaseTerms, h.poolFreed, h.ctxs, h.scheds, h.queues, h.cmds, h.objs, h.fenceWaiters, h.fenceOuts, h.fwq, h.mail, h.instResets, h.numVfs, h.keyMat, h.cvks, h.rtc, h.flash, h.power, h.stops, h.stopSince, h.aon, h.resets, h.pending, h.mems⟩

theorem upd_bufs {M : Nat} {s0 s : State} {v0} (hs : bitsIn 0x20000 M = true) (h : Agree M s0 s) :
    Agree M s0 { s with bufs := v0 } :=
  ⟨h.regs, h.latches, h.reply, h.now, h.timeSlew, h.slewAt, h.synced, h.freeCtr, h.nextId, h.cores, h.corePhys, h.kernels, h.ops, h.movers, h.reqs, h.hbm, h.hbmPoison, bit_off hs rfl, h.host, h.hostPoison, h.winStart, h.winLen, h.regCounts, h.qosOld, h.missPosted, h.bridgeRun, h.scrubPos, h.tiles, h.stallAt, h.walks, h.tlb, h.wcache, h.tracker, h.invals, h.fqHeld, h.slots, h.gates, h.landing, h.evHeld, h.rings, h.armed, h.msixDue, h.msixLast, h.msix, h.instars, h.instarAt, h.instarDue, h.silkMsgs, h.silkWaiters, h.silkReplies, h.silkSent, h.ports, h.linkIn, h.linkReqs, h.linkRr, h.peers, h.custody, h.custOp, h.colls, h.bootNonce, h.lastHello, h.lastAdvert, h.lastTime, h.imagos, h.verif, h.leaseTerms, h.poolFreed, h.ctxs, h.scheds, h.queues, h.cmds, h.objs, h.fenceWaiters, h.fenceOuts, h.fwq, h.mail, h.instResets, h.numVfs, h.keyMat, h.cvks, h.rtc, h.flash, h.power, h.stops, h.stopSince, h.aon, h.resets, h.pending, h.mems⟩

theorem upd_cmds {M : Nat} {s0 s : State} {v0} (hs : bitsIn 0x400000000000000000 M = true) (h : Agree M s0 s) :
    Agree M s0 { s with cmds := v0 } :=
  ⟨h.regs, h.latches, h.reply, h.now, h.timeSlew, h.slewAt, h.synced, h.freeCtr, h.nextId, h.cores, h.corePhys, h.kernels, h.ops, h.movers, h.reqs, h.hbm, h.hbmPoison, h.bufs, h.host, h.hostPoison, h.winStart, h.winLen, h.regCounts, h.qosOld, h.missPosted, h.bridgeRun, h.scrubPos, h.tiles, h.stallAt, h.walks, h.tlb, h.wcache, h.tracker, h.invals, h.fqHeld, h.slots, h.gates, h.landing, h.evHeld, h.rings, h.armed, h.msixDue, h.msixLast, h.msix, h.instars, h.instarAt, h.instarDue, h.silkMsgs, h.silkWaiters, h.silkReplies, h.silkSent, h.ports, h.linkIn, h.linkReqs, h.linkRr, h.peers, h.custody, h.custOp, h.colls, h.bootNonce, h.lastHello, h.lastAdvert, h.lastTime, h.imagos, h.verif, h.leaseTerms, h.poolFreed, h.ctxs, h.scheds, h.queues, bit_off hs rfl, h.objs, h.fenceWaiters, h.fenceOuts, h.fwq, h.mail, h.instResets, h.numVfs, h.keyMat, h.cvks, h.rtc, h.flash, h.power, h.stops, h.stopSince, h.aon, h.resets, h.pending, h.mems⟩

theorem upd_colls {M : Nat} {s0 s : State} {v0} (hs : bitsIn 0x400000000000000 M = true) (h : Agree M s0 s) :
    Agree M s0 { s with colls := v0 } :=
  ⟨h.regs, h.latches, h.reply, h.now, h.timeSlew, h.slewAt, h.synced, h.freeCtr, h.nextId, h.cores, h.corePhys, h.kernels, h.ops, h.movers, h.reqs, h.hbm, h.hbmPoison, h.bufs, h.host, h.hostPoison, h.winStart, h.winLen, h.regCounts, h.qosOld, h.missPosted, h.bridgeRun, h.scrubPos, h.tiles, h.stallAt, h.walks, h.tlb, h.wcache, h.tracker, h.invals, h.fqHeld, h.slots, h.gates, h.landing, h.evHeld, h.rings, h.armed, h.msixDue, h.msixLast, h.msix, h.instars, h.instarAt, h.instarDue, h.silkMsgs, h.silkWaiters, h.silkReplies, h.silkSent, h.ports, h.linkIn, h.linkReqs, h.linkRr, h.peers, h.custody, h.custOp, bit_off hs rfl, h.bootNonce, h.lastHello, h.lastAdvert, h.lastTime, h.imagos, h.verif, h.leaseTerms, h.poolFreed, h.ctxs, h.scheds, h.queues, h.cmds, h.objs, h.fenceWaiters, h.fenceOuts, h.fwq, h.mail, h.instResets, h.numVfs, h.keyMat, h.cvks, h.rtc, h.flash, h.power, h.stops, h.stopSince, h.aon, h.resets, h.pending, h.mems⟩

theorem upd_corePhys {M : Nat} {s0 s : State} {v0} (hs : bitsIn 0x400 M = true) (h : Agree M s0 s) :
    Agree M s0 { s with corePhys := v0 } :=
  ⟨h.regs, h.latches, h.reply, h.now, h.timeSlew, h.slewAt, h.synced, h.freeCtr, h.nextId, h.cores, bit_off hs rfl, h.kernels, h.ops, h.movers, h.reqs, h.hbm, h.hbmPoison, h.bufs, h.host, h.hostPoison, h.winStart, h.winLen, h.regCounts, h.qosOld, h.missPosted, h.bridgeRun, h.scrubPos, h.tiles, h.stallAt, h.walks, h.tlb, h.wcache, h.tracker, h.invals, h.fqHeld, h.slots, h.gates, h.landing, h.evHeld, h.rings, h.armed, h.msixDue, h.msixLast, h.msix, h.instars, h.instarAt, h.instarDue, h.silkMsgs, h.silkWaiters, h.silkReplies, h.silkSent, h.ports, h.linkIn, h.linkReqs, h.linkRr, h.peers, h.custody, h.custOp, h.colls, h.bootNonce, h.lastHello, h.lastAdvert, h.lastTime, h.imagos, h.verif, h.leaseTerms, h.poolFreed, h.ctxs, h.scheds, h.queues, h.cmds, h.objs, h.fenceWaiters, h.fenceOuts, h.fwq, h.mail, h.instResets, h.numVfs, h.keyMat, h.cvks, h.rtc, h.flash, h.power, h.stops, h.stopSince, h.aon, h.resets, h.pending, h.mems⟩

theorem upd_cores {M : Nat} {s0 s : State} {v0} (hs : bitsIn 0x200 M = true)
    (hw : MemOf s0 s { s with cores := v0 }) (h : Agree M s0 s) :
    Agree M s0 { s with cores := v0 } :=
  ⟨h.regs, h.latches, h.reply, h.now, h.timeSlew, h.slewAt, h.synced, h.freeCtr, h.nextId, bit_off hs rfl, h.corePhys, h.kernels, h.ops, h.movers, h.reqs, h.hbm, h.hbmPoison, h.bufs, h.host, h.hostPoison, h.winStart, h.winLen, h.regCounts, h.qosOld, h.missPosted, h.bridgeRun, h.scrubPos, h.tiles, h.stallAt, h.walks, h.tlb, h.wcache, h.tracker, h.invals, h.fqHeld, h.slots, h.gates, h.landing, h.evHeld, h.rings, h.armed, h.msixDue, h.msixLast, h.msix, h.instars, h.instarAt, h.instarDue, h.silkMsgs, h.silkWaiters, h.silkReplies, h.silkSent, h.ports, h.linkIn, h.linkReqs, h.linkRr, h.peers, h.custody, h.custOp, h.colls, h.bootNonce, h.lastHello, h.lastAdvert, h.lastTime, h.imagos, h.verif, h.leaseTerms, h.poolFreed, h.ctxs, h.scheds, h.queues, h.cmds, h.objs, h.fenceWaiters, h.fenceOuts, h.fwq, h.mail, h.instResets, h.numVfs, h.keyMat, h.cvks, h.rtc, h.flash, h.power, h.stops, h.stopSince, h.aon, h.resets, h.pending, fun w => hw w (h.mems w)⟩

theorem upd_ctxs {M : Nat} {s0 s : State} {v0} (hs : bitsIn 0x80000000000000000 M = true) (h : Agree M s0 s) :
    Agree M s0 { s with ctxs := v0 } :=
  ⟨h.regs, h.latches, h.reply, h.now, h.timeSlew, h.slewAt, h.synced, h.freeCtr, h.nextId, h.cores, h.corePhys, h.kernels, h.ops, h.movers, h.reqs, h.hbm, h.hbmPoison, h.bufs, h.host, h.hostPoison, h.winStart, h.winLen, h.regCounts, h.qosOld, h.missPosted, h.bridgeRun, h.scrubPos, h.tiles, h.stallAt, h.walks, h.tlb, h.wcache, h.tracker, h.invals, h.fqHeld, h.slots, h.gates, h.landing, h.evHeld, h.rings, h.armed, h.msixDue, h.msixLast, h.msix, h.instars, h.instarAt, h.instarDue, h.silkMsgs, h.silkWaiters, h.silkReplies, h.silkSent, h.ports, h.linkIn, h.linkReqs, h.linkRr, h.peers, h.custody, h.custOp, h.colls, h.bootNonce, h.lastHello, h.lastAdvert, h.lastTime, h.imagos, h.verif, h.leaseTerms, h.poolFreed, bit_off hs rfl, h.scheds, h.queues, h.cmds, h.objs, h.fenceWaiters, h.fenceOuts, h.fwq, h.mail, h.instResets, h.numVfs, h.keyMat, h.cvks, h.rtc, h.flash, h.power, h.stops, h.stopSince, h.aon, h.resets, h.pending, h.mems⟩

theorem upd_custOp {M : Nat} {s0 s : State} {v0} (hs : bitsIn 0x200000000000000 M = true) (h : Agree M s0 s) :
    Agree M s0 { s with custOp := v0 } :=
  ⟨h.regs, h.latches, h.reply, h.now, h.timeSlew, h.slewAt, h.synced, h.freeCtr, h.nextId, h.cores, h.corePhys, h.kernels, h.ops, h.movers, h.reqs, h.hbm, h.hbmPoison, h.bufs, h.host, h.hostPoison, h.winStart, h.winLen, h.regCounts, h.qosOld, h.missPosted, h.bridgeRun, h.scrubPos, h.tiles, h.stallAt, h.walks, h.tlb, h.wcache, h.tracker, h.invals, h.fqHeld, h.slots, h.gates, h.landing, h.evHeld, h.rings, h.armed, h.msixDue, h.msixLast, h.msix, h.instars, h.instarAt, h.instarDue, h.silkMsgs, h.silkWaiters, h.silkReplies, h.silkSent, h.ports, h.linkIn, h.linkReqs, h.linkRr, h.peers, h.custody, bit_off hs rfl, h.colls, h.bootNonce, h.lastHello, h.lastAdvert, h.lastTime, h.imagos, h.verif, h.leaseTerms, h.poolFreed, h.ctxs, h.scheds, h.queues, h.cmds, h.objs, h.fenceWaiters, h.fenceOuts, h.fwq, h.mail, h.instResets, h.numVfs, h.keyMat, h.cvks, h.rtc, h.flash, h.power, h.stops, h.stopSince, h.aon, h.resets, h.pending, h.mems⟩

theorem upd_custody {M : Nat} {s0 s : State} {v0} (hs : bitsIn 0x100000000000000 M = true) (h : Agree M s0 s) :
    Agree M s0 { s with custody := v0 } :=
  ⟨h.regs, h.latches, h.reply, h.now, h.timeSlew, h.slewAt, h.synced, h.freeCtr, h.nextId, h.cores, h.corePhys, h.kernels, h.ops, h.movers, h.reqs, h.hbm, h.hbmPoison, h.bufs, h.host, h.hostPoison, h.winStart, h.winLen, h.regCounts, h.qosOld, h.missPosted, h.bridgeRun, h.scrubPos, h.tiles, h.stallAt, h.walks, h.tlb, h.wcache, h.tracker, h.invals, h.fqHeld, h.slots, h.gates, h.landing, h.evHeld, h.rings, h.armed, h.msixDue, h.msixLast, h.msix, h.instars, h.instarAt, h.instarDue, h.silkMsgs, h.silkWaiters, h.silkReplies, h.silkSent, h.ports, h.linkIn, h.linkReqs, h.linkRr, h.peers, bit_off hs rfl, h.custOp, h.colls, h.bootNonce, h.lastHello, h.lastAdvert, h.lastTime, h.imagos, h.verif, h.leaseTerms, h.poolFreed, h.ctxs, h.scheds, h.queues, h.cmds, h.objs, h.fenceWaiters, h.fenceOuts, h.fwq, h.mail, h.instResets, h.numVfs, h.keyMat, h.cvks, h.rtc, h.flash, h.power, h.stops, h.stopSince, h.aon, h.resets, h.pending, h.mems⟩

theorem upd_cvks {M : Nat} {s0 s : State} {v0} (hs : bitsIn 0x80000000000000000000 M = true) (h : Agree M s0 s) :
    Agree M s0 { s with cvks := v0 } :=
  ⟨h.regs, h.latches, h.reply, h.now, h.timeSlew, h.slewAt, h.synced, h.freeCtr, h.nextId, h.cores, h.corePhys, h.kernels, h.ops, h.movers, h.reqs, h.hbm, h.hbmPoison, h.bufs, h.host, h.hostPoison, h.winStart, h.winLen, h.regCounts, h.qosOld, h.missPosted, h.bridgeRun, h.scrubPos, h.tiles, h.stallAt, h.walks, h.tlb, h.wcache, h.tracker, h.invals, h.fqHeld, h.slots, h.gates, h.landing, h.evHeld, h.rings, h.armed, h.msixDue, h.msixLast, h.msix, h.instars, h.instarAt, h.instarDue, h.silkMsgs, h.silkWaiters, h.silkReplies, h.silkSent, h.ports, h.linkIn, h.linkReqs, h.linkRr, h.peers, h.custody, h.custOp, h.colls, h.bootNonce, h.lastHello, h.lastAdvert, h.lastTime, h.imagos, h.verif, h.leaseTerms, h.poolFreed, h.ctxs, h.scheds, h.queues, h.cmds, h.objs, h.fenceWaiters, h.fenceOuts, h.fwq, h.mail, h.instResets, h.numVfs, h.keyMat, bit_off hs rfl, h.rtc, h.flash, h.power, h.stops, h.stopSince, h.aon, h.resets, h.pending, h.mems⟩

theorem upd_evHeld {M : Nat} {s0 s : State} {v0} (hs : bitsIn 0x4000000000 M = true) (h : Agree M s0 s) :
    Agree M s0 { s with evHeld := v0 } :=
  ⟨h.regs, h.latches, h.reply, h.now, h.timeSlew, h.slewAt, h.synced, h.freeCtr, h.nextId, h.cores, h.corePhys, h.kernels, h.ops, h.movers, h.reqs, h.hbm, h.hbmPoison, h.bufs, h.host, h.hostPoison, h.winStart, h.winLen, h.regCounts, h.qosOld, h.missPosted, h.bridgeRun, h.scrubPos, h.tiles, h.stallAt, h.walks, h.tlb, h.wcache, h.tracker, h.invals, h.fqHeld, h.slots, h.gates, h.landing, bit_off hs rfl, h.rings, h.armed, h.msixDue, h.msixLast, h.msix, h.instars, h.instarAt, h.instarDue, h.silkMsgs, h.silkWaiters, h.silkReplies, h.silkSent, h.ports, h.linkIn, h.linkReqs, h.linkRr, h.peers, h.custody, h.custOp, h.colls, h.bootNonce, h.lastHello, h.lastAdvert, h.lastTime, h.imagos, h.verif, h.leaseTerms, h.poolFreed, h.ctxs, h.scheds, h.queues, h.cmds, h.objs, h.fenceWaiters, h.fenceOuts, h.fwq, h.mail, h.instResets, h.numVfs, h.keyMat, h.cvks, h.rtc, h.flash, h.power, h.stops, h.stopSince, h.aon, h.resets, h.pending, h.mems⟩

theorem upd_fenceOuts {M : Nat} {s0 s : State} {v0} (hs : bitsIn 0x2000000000000000000 M = true) (h : Agree M s0 s) :
    Agree M s0 { s with fenceOuts := v0 } :=
  ⟨h.regs, h.latches, h.reply, h.now, h.timeSlew, h.slewAt, h.synced, h.freeCtr, h.nextId, h.cores, h.corePhys, h.kernels, h.ops, h.movers, h.reqs, h.hbm, h.hbmPoison, h.bufs, h.host, h.hostPoison, h.winStart, h.winLen, h.regCounts, h.qosOld, h.missPosted, h.bridgeRun, h.scrubPos, h.tiles, h.stallAt, h.walks, h.tlb, h.wcache, h.tracker, h.invals, h.fqHeld, h.slots, h.gates, h.landing, h.evHeld, h.rings, h.armed, h.msixDue, h.msixLast, h.msix, h.instars, h.instarAt, h.instarDue, h.silkMsgs, h.silkWaiters, h.silkReplies, h.silkSent, h.ports, h.linkIn, h.linkReqs, h.linkRr, h.peers, h.custody, h.custOp, h.colls, h.bootNonce, h.lastHello, h.lastAdvert, h.lastTime, h.imagos, h.verif, h.leaseTerms, h.poolFreed, h.ctxs, h.scheds, h.queues, h.cmds, h.objs, h.fenceWaiters, bit_off hs rfl, h.fwq, h.mail, h.instResets, h.numVfs, h.keyMat, h.cvks, h.rtc, h.flash, h.power, h.stops, h.stopSince, h.aon, h.resets, h.pending, h.mems⟩

theorem upd_fenceWaiters {M : Nat} {s0 s : State} {v0} (hs : bitsIn 0x1000000000000000000 M = true) (h : Agree M s0 s) :
    Agree M s0 { s with fenceWaiters := v0 } :=
  ⟨h.regs, h.latches, h.reply, h.now, h.timeSlew, h.slewAt, h.synced, h.freeCtr, h.nextId, h.cores, h.corePhys, h.kernels, h.ops, h.movers, h.reqs, h.hbm, h.hbmPoison, h.bufs, h.host, h.hostPoison, h.winStart, h.winLen, h.regCounts, h.qosOld, h.missPosted, h.bridgeRun, h.scrubPos, h.tiles, h.stallAt, h.walks, h.tlb, h.wcache, h.tracker, h.invals, h.fqHeld, h.slots, h.gates, h.landing, h.evHeld, h.rings, h.armed, h.msixDue, h.msixLast, h.msix, h.instars, h.instarAt, h.instarDue, h.silkMsgs, h.silkWaiters, h.silkReplies, h.silkSent, h.ports, h.linkIn, h.linkReqs, h.linkRr, h.peers, h.custody, h.custOp, h.colls, h.bootNonce, h.lastHello, h.lastAdvert, h.lastTime, h.imagos, h.verif, h.leaseTerms, h.poolFreed, h.ctxs, h.scheds, h.queues, h.cmds, h.objs, bit_off hs rfl, h.fenceOuts, h.fwq, h.mail, h.instResets, h.numVfs, h.keyMat, h.cvks, h.rtc, h.flash, h.power, h.stops, h.stopSince, h.aon, h.resets, h.pending, h.mems⟩

theorem upd_flash {M : Nat} {s0 s : State} {v0} (hs : bitsIn 0x200000000000000000000 M = true) (h : Agree M s0 s) :
    Agree M s0 { s with flash := v0 } :=
  ⟨h.regs, h.latches, h.reply, h.now, h.timeSlew, h.slewAt, h.synced, h.freeCtr, h.nextId, h.cores, h.corePhys, h.kernels, h.ops, h.movers, h.reqs, h.hbm, h.hbmPoison, h.bufs, h.host, h.hostPoison, h.winStart, h.winLen, h.regCounts, h.qosOld, h.missPosted, h.bridgeRun, h.scrubPos, h.tiles, h.stallAt, h.walks, h.tlb, h.wcache, h.tracker, h.invals, h.fqHeld, h.slots, h.gates, h.landing, h.evHeld, h.rings, h.armed, h.msixDue, h.msixLast, h.msix, h.instars, h.instarAt, h.instarDue, h.silkMsgs, h.silkWaiters, h.silkReplies, h.silkSent, h.ports, h.linkIn, h.linkReqs, h.linkRr, h.peers, h.custody, h.custOp, h.colls, h.bootNonce, h.lastHello, h.lastAdvert, h.lastTime, h.imagos, h.verif, h.leaseTerms, h.poolFreed, h.ctxs, h.scheds, h.queues, h.cmds, h.objs, h.fenceWaiters, h.fenceOuts, h.fwq, h.mail, h.instResets, h.numVfs, h.keyMat, h.cvks, h.rtc, bit_off hs rfl, h.power, h.stops, h.stopSince, h.aon, h.resets, h.pending, h.mems⟩

theorem upd_freeCtr {M : Nat} {s0 s : State} {v0} (hs : bitsIn 0x80 M = true) (h : Agree M s0 s) :
    Agree M s0 { s with freeCtr := v0 } :=
  ⟨h.regs, h.latches, h.reply, h.now, h.timeSlew, h.slewAt, h.synced, bit_off hs rfl, h.nextId, h.cores, h.corePhys, h.kernels, h.ops, h.movers, h.reqs, h.hbm, h.hbmPoison, h.bufs, h.host, h.hostPoison, h.winStart, h.winLen, h.regCounts, h.qosOld, h.missPosted, h.bridgeRun, h.scrubPos, h.tiles, h.stallAt, h.walks, h.tlb, h.wcache, h.tracker, h.invals, h.fqHeld, h.slots, h.gates, h.landing, h.evHeld, h.rings, h.armed, h.msixDue, h.msixLast, h.msix, h.instars, h.instarAt, h.instarDue, h.silkMsgs, h.silkWaiters, h.silkReplies, h.silkSent, h.ports, h.linkIn, h.linkReqs, h.linkRr, h.peers, h.custody, h.custOp, h.colls, h.bootNonce, h.lastHello, h.lastAdvert, h.lastTime, h.imagos, h.verif, h.leaseTerms, h.poolFreed, h.ctxs, h.scheds, h.queues, h.cmds, h.objs, h.fenceWaiters, h.fenceOuts, h.fwq, h.mail, h.instResets, h.numVfs, h.keyMat, h.cvks, h.rtc, h.flash, h.power, h.stops, h.stopSince, h.aon, h.resets, h.pending, h.mems⟩

theorem upd_fwq {M : Nat} {s0 s : State} {v0} (hs : bitsIn 0x4000000000000000000 M = true) (h : Agree M s0 s) :
    Agree M s0 { s with fwq := v0 } :=
  ⟨h.regs, h.latches, h.reply, h.now, h.timeSlew, h.slewAt, h.synced, h.freeCtr, h.nextId, h.cores, h.corePhys, h.kernels, h.ops, h.movers, h.reqs, h.hbm, h.hbmPoison, h.bufs, h.host, h.hostPoison, h.winStart, h.winLen, h.regCounts, h.qosOld, h.missPosted, h.bridgeRun, h.scrubPos, h.tiles, h.stallAt, h.walks, h.tlb, h.wcache, h.tracker, h.invals, h.fqHeld, h.slots, h.gates, h.landing, h.evHeld, h.rings, h.armed, h.msixDue, h.msixLast, h.msix, h.instars, h.instarAt, h.instarDue, h.silkMsgs, h.silkWaiters, h.silkReplies, h.silkSent, h.ports, h.linkIn, h.linkReqs, h.linkRr, h.peers, h.custody, h.custOp, h.colls, h.bootNonce, h.lastHello, h.lastAdvert, h.lastTime, h.imagos, h.verif, h.leaseTerms, h.poolFreed, h.ctxs, h.scheds, h.queues, h.cmds, h.objs, h.fenceWaiters, h.fenceOuts, bit_off hs rfl, h.mail, h.instResets, h.numVfs, h.keyMat, h.cvks, h.rtc, h.flash, h.power, h.stops, h.stopSince, h.aon, h.resets, h.pending, h.mems⟩

theorem upd_gates {M : Nat} {s0 s : State} {v0} (hs : bitsIn 0x1000000000 M = true) (h : Agree M s0 s) :
    Agree M s0 { s with gates := v0 } :=
  ⟨h.regs, h.latches, h.reply, h.now, h.timeSlew, h.slewAt, h.synced, h.freeCtr, h.nextId, h.cores, h.corePhys, h.kernels, h.ops, h.movers, h.reqs, h.hbm, h.hbmPoison, h.bufs, h.host, h.hostPoison, h.winStart, h.winLen, h.regCounts, h.qosOld, h.missPosted, h.bridgeRun, h.scrubPos, h.tiles, h.stallAt, h.walks, h.tlb, h.wcache, h.tracker, h.invals, h.fqHeld, h.slots, bit_off hs rfl, h.landing, h.evHeld, h.rings, h.armed, h.msixDue, h.msixLast, h.msix, h.instars, h.instarAt, h.instarDue, h.silkMsgs, h.silkWaiters, h.silkReplies, h.silkSent, h.ports, h.linkIn, h.linkReqs, h.linkRr, h.peers, h.custody, h.custOp, h.colls, h.bootNonce, h.lastHello, h.lastAdvert, h.lastTime, h.imagos, h.verif, h.leaseTerms, h.poolFreed, h.ctxs, h.scheds, h.queues, h.cmds, h.objs, h.fenceWaiters, h.fenceOuts, h.fwq, h.mail, h.instResets, h.numVfs, h.keyMat, h.cvks, h.rtc, h.flash, h.power, h.stops, h.stopSince, h.aon, h.resets, h.pending, h.mems⟩

theorem upd_hbm {M : Nat} {s0 s : State} {v0} (hs : bitsIn 0x8000 M = true)
    (hw : MemOf s0 s { s with hbm := v0 }) (h : Agree M s0 s) :
    Agree M s0 { s with hbm := v0 } :=
  ⟨h.regs, h.latches, h.reply, h.now, h.timeSlew, h.slewAt, h.synced, h.freeCtr, h.nextId, h.cores, h.corePhys, h.kernels, h.ops, h.movers, h.reqs, bit_off hs rfl, h.hbmPoison, h.bufs, h.host, h.hostPoison, h.winStart, h.winLen, h.regCounts, h.qosOld, h.missPosted, h.bridgeRun, h.scrubPos, h.tiles, h.stallAt, h.walks, h.tlb, h.wcache, h.tracker, h.invals, h.fqHeld, h.slots, h.gates, h.landing, h.evHeld, h.rings, h.armed, h.msixDue, h.msixLast, h.msix, h.instars, h.instarAt, h.instarDue, h.silkMsgs, h.silkWaiters, h.silkReplies, h.silkSent, h.ports, h.linkIn, h.linkReqs, h.linkRr, h.peers, h.custody, h.custOp, h.colls, h.bootNonce, h.lastHello, h.lastAdvert, h.lastTime, h.imagos, h.verif, h.leaseTerms, h.poolFreed, h.ctxs, h.scheds, h.queues, h.cmds, h.objs, h.fenceWaiters, h.fenceOuts, h.fwq, h.mail, h.instResets, h.numVfs, h.keyMat, h.cvks, h.rtc, h.flash, h.power, h.stops, h.stopSince, h.aon, h.resets, h.pending, fun w => hw w (h.mems w)⟩

theorem upd_hbmPoison {M : Nat} {s0 s : State} {v0} (hs : bitsIn 0x10000 M = true) (h : Agree M s0 s) :
    Agree M s0 { s with hbmPoison := v0 } :=
  ⟨h.regs, h.latches, h.reply, h.now, h.timeSlew, h.slewAt, h.synced, h.freeCtr, h.nextId, h.cores, h.corePhys, h.kernels, h.ops, h.movers, h.reqs, h.hbm, bit_off hs rfl, h.bufs, h.host, h.hostPoison, h.winStart, h.winLen, h.regCounts, h.qosOld, h.missPosted, h.bridgeRun, h.scrubPos, h.tiles, h.stallAt, h.walks, h.tlb, h.wcache, h.tracker, h.invals, h.fqHeld, h.slots, h.gates, h.landing, h.evHeld, h.rings, h.armed, h.msixDue, h.msixLast, h.msix, h.instars, h.instarAt, h.instarDue, h.silkMsgs, h.silkWaiters, h.silkReplies, h.silkSent, h.ports, h.linkIn, h.linkReqs, h.linkRr, h.peers, h.custody, h.custOp, h.colls, h.bootNonce, h.lastHello, h.lastAdvert, h.lastTime, h.imagos, h.verif, h.leaseTerms, h.poolFreed, h.ctxs, h.scheds, h.queues, h.cmds, h.objs, h.fenceWaiters, h.fenceOuts, h.fwq, h.mail, h.instResets, h.numVfs, h.keyMat, h.cvks, h.rtc, h.flash, h.power, h.stops, h.stopSince, h.aon, h.resets, h.pending, h.mems⟩

theorem upd_host {M : Nat} {s0 s : State} {v0} (hs : bitsIn 0x40000 M = true)
    (hw : MemOf s0 s { s with host := v0 }) (h : Agree M s0 s) :
    Agree M s0 { s with host := v0 } :=
  ⟨h.regs, h.latches, h.reply, h.now, h.timeSlew, h.slewAt, h.synced, h.freeCtr, h.nextId, h.cores, h.corePhys, h.kernels, h.ops, h.movers, h.reqs, h.hbm, h.hbmPoison, h.bufs, bit_off hs rfl, h.hostPoison, h.winStart, h.winLen, h.regCounts, h.qosOld, h.missPosted, h.bridgeRun, h.scrubPos, h.tiles, h.stallAt, h.walks, h.tlb, h.wcache, h.tracker, h.invals, h.fqHeld, h.slots, h.gates, h.landing, h.evHeld, h.rings, h.armed, h.msixDue, h.msixLast, h.msix, h.instars, h.instarAt, h.instarDue, h.silkMsgs, h.silkWaiters, h.silkReplies, h.silkSent, h.ports, h.linkIn, h.linkReqs, h.linkRr, h.peers, h.custody, h.custOp, h.colls, h.bootNonce, h.lastHello, h.lastAdvert, h.lastTime, h.imagos, h.verif, h.leaseTerms, h.poolFreed, h.ctxs, h.scheds, h.queues, h.cmds, h.objs, h.fenceWaiters, h.fenceOuts, h.fwq, h.mail, h.instResets, h.numVfs, h.keyMat, h.cvks, h.rtc, h.flash, h.power, h.stops, h.stopSince, h.aon, h.resets, h.pending, fun w => hw w (h.mems w)⟩

theorem upd_hostPoison {M : Nat} {s0 s : State} {v0} (hs : bitsIn 0x80000 M = true) (h : Agree M s0 s) :
    Agree M s0 { s with hostPoison := v0 } :=
  ⟨h.regs, h.latches, h.reply, h.now, h.timeSlew, h.slewAt, h.synced, h.freeCtr, h.nextId, h.cores, h.corePhys, h.kernels, h.ops, h.movers, h.reqs, h.hbm, h.hbmPoison, h.bufs, h.host, bit_off hs rfl, h.winStart, h.winLen, h.regCounts, h.qosOld, h.missPosted, h.bridgeRun, h.scrubPos, h.tiles, h.stallAt, h.walks, h.tlb, h.wcache, h.tracker, h.invals, h.fqHeld, h.slots, h.gates, h.landing, h.evHeld, h.rings, h.armed, h.msixDue, h.msixLast, h.msix, h.instars, h.instarAt, h.instarDue, h.silkMsgs, h.silkWaiters, h.silkReplies, h.silkSent, h.ports, h.linkIn, h.linkReqs, h.linkRr, h.peers, h.custody, h.custOp, h.colls, h.bootNonce, h.lastHello, h.lastAdvert, h.lastTime, h.imagos, h.verif, h.leaseTerms, h.poolFreed, h.ctxs, h.scheds, h.queues, h.cmds, h.objs, h.fenceWaiters, h.fenceOuts, h.fwq, h.mail, h.instResets, h.numVfs, h.keyMat, h.cvks, h.rtc, h.flash, h.power, h.stops, h.stopSince, h.aon, h.resets, h.pending, h.mems⟩

theorem upd_imagos {M : Nat} {s0 s : State} {v0} (hs : bitsIn 0x8000000000000000 M = true) (h : Agree M s0 s) :
    Agree M s0 { s with imagos := v0 } :=
  ⟨h.regs, h.latches, h.reply, h.now, h.timeSlew, h.slewAt, h.synced, h.freeCtr, h.nextId, h.cores, h.corePhys, h.kernels, h.ops, h.movers, h.reqs, h.hbm, h.hbmPoison, h.bufs, h.host, h.hostPoison, h.winStart, h.winLen, h.regCounts, h.qosOld, h.missPosted, h.bridgeRun, h.scrubPos, h.tiles, h.stallAt, h.walks, h.tlb, h.wcache, h.tracker, h.invals, h.fqHeld, h.slots, h.gates, h.landing, h.evHeld, h.rings, h.armed, h.msixDue, h.msixLast, h.msix, h.instars, h.instarAt, h.instarDue, h.silkMsgs, h.silkWaiters, h.silkReplies, h.silkSent, h.ports, h.linkIn, h.linkReqs, h.linkRr, h.peers, h.custody, h.custOp, h.colls, h.bootNonce, h.lastHello, h.lastAdvert, h.lastTime, bit_off hs rfl, h.verif, h.leaseTerms, h.poolFreed, h.ctxs, h.scheds, h.queues, h.cmds, h.objs, h.fenceWaiters, h.fenceOuts, h.fwq, h.mail, h.instResets, h.numVfs, h.keyMat, h.cvks, h.rtc, h.flash, h.power, h.stops, h.stopSince, h.aon, h.resets, h.pending, h.mems⟩

theorem upd_instResets {M : Nat} {s0 s : State} {v0} (hs : bitsIn 0x10000000000000000000 M = true) (h : Agree M s0 s) :
    Agree M s0 { s with instResets := v0 } :=
  ⟨h.regs, h.latches, h.reply, h.now, h.timeSlew, h.slewAt, h.synced, h.freeCtr, h.nextId, h.cores, h.corePhys, h.kernels, h.ops, h.movers, h.reqs, h.hbm, h.hbmPoison, h.bufs, h.host, h.hostPoison, h.winStart, h.winLen, h.regCounts, h.qosOld, h.missPosted, h.bridgeRun, h.scrubPos, h.tiles, h.stallAt, h.walks, h.tlb, h.wcache, h.tracker, h.invals, h.fqHeld, h.slots, h.gates, h.landing, h.evHeld, h.rings, h.armed, h.msixDue, h.msixLast, h.msix, h.instars, h.instarAt, h.instarDue, h.silkMsgs, h.silkWaiters, h.silkReplies, h.silkSent, h.ports, h.linkIn, h.linkReqs, h.linkRr, h.peers, h.custody, h.custOp, h.colls, h.bootNonce, h.lastHello, h.lastAdvert, h.lastTime, h.imagos, h.verif, h.leaseTerms, h.poolFreed, h.ctxs, h.scheds, h.queues, h.cmds, h.objs, h.fenceWaiters, h.fenceOuts, h.fwq, h.mail, bit_off hs rfl, h.numVfs, h.keyMat, h.cvks, h.rtc, h.flash, h.power, h.stops, h.stopSince, h.aon, h.resets, h.pending, h.mems⟩

theorem upd_instarAt {M : Nat} {s0 s : State} {v0} (hs : bitsIn 0x200000000000 M = true) (h : Agree M s0 s) :
    Agree M s0 { s with instarAt := v0 } :=
  ⟨h.regs, h.latches, h.reply, h.now, h.timeSlew, h.slewAt, h.synced, h.freeCtr, h.nextId, h.cores, h.corePhys, h.kernels, h.ops, h.movers, h.reqs, h.hbm, h.hbmPoison, h.bufs, h.host, h.hostPoison, h.winStart, h.winLen, h.regCounts, h.qosOld, h.missPosted, h.bridgeRun, h.scrubPos, h.tiles, h.stallAt, h.walks, h.tlb, h.wcache, h.tracker, h.invals, h.fqHeld, h.slots, h.gates, h.landing, h.evHeld, h.rings, h.armed, h.msixDue, h.msixLast, h.msix, h.instars, bit_off hs rfl, h.instarDue, h.silkMsgs, h.silkWaiters, h.silkReplies, h.silkSent, h.ports, h.linkIn, h.linkReqs, h.linkRr, h.peers, h.custody, h.custOp, h.colls, h.bootNonce, h.lastHello, h.lastAdvert, h.lastTime, h.imagos, h.verif, h.leaseTerms, h.poolFreed, h.ctxs, h.scheds, h.queues, h.cmds, h.objs, h.fenceWaiters, h.fenceOuts, h.fwq, h.mail, h.instResets, h.numVfs, h.keyMat, h.cvks, h.rtc, h.flash, h.power, h.stops, h.stopSince, h.aon, h.resets, h.pending, h.mems⟩

theorem upd_instarDue {M : Nat} {s0 s : State} {v0} (hs : bitsIn 0x400000000000 M = true) (h : Agree M s0 s) :
    Agree M s0 { s with instarDue := v0 } :=
  ⟨h.regs, h.latches, h.reply, h.now, h.timeSlew, h.slewAt, h.synced, h.freeCtr, h.nextId, h.cores, h.corePhys, h.kernels, h.ops, h.movers, h.reqs, h.hbm, h.hbmPoison, h.bufs, h.host, h.hostPoison, h.winStart, h.winLen, h.regCounts, h.qosOld, h.missPosted, h.bridgeRun, h.scrubPos, h.tiles, h.stallAt, h.walks, h.tlb, h.wcache, h.tracker, h.invals, h.fqHeld, h.slots, h.gates, h.landing, h.evHeld, h.rings, h.armed, h.msixDue, h.msixLast, h.msix, h.instars, h.instarAt, bit_off hs rfl, h.silkMsgs, h.silkWaiters, h.silkReplies, h.silkSent, h.ports, h.linkIn, h.linkReqs, h.linkRr, h.peers, h.custody, h.custOp, h.colls, h.bootNonce, h.lastHello, h.lastAdvert, h.lastTime, h.imagos, h.verif, h.leaseTerms, h.poolFreed, h.ctxs, h.scheds, h.queues, h.cmds, h.objs, h.fenceWaiters, h.fenceOuts, h.fwq, h.mail, h.instResets, h.numVfs, h.keyMat, h.cvks, h.rtc, h.flash, h.power, h.stops, h.stopSince, h.aon, h.resets, h.pending, h.mems⟩

theorem upd_instars {M : Nat} {s0 s : State} {v0} (hs : bitsIn 0x100000000000 M = true) (h : Agree M s0 s) :
    Agree M s0 { s with instars := v0 } :=
  ⟨h.regs, h.latches, h.reply, h.now, h.timeSlew, h.slewAt, h.synced, h.freeCtr, h.nextId, h.cores, h.corePhys, h.kernels, h.ops, h.movers, h.reqs, h.hbm, h.hbmPoison, h.bufs, h.host, h.hostPoison, h.winStart, h.winLen, h.regCounts, h.qosOld, h.missPosted, h.bridgeRun, h.scrubPos, h.tiles, h.stallAt, h.walks, h.tlb, h.wcache, h.tracker, h.invals, h.fqHeld, h.slots, h.gates, h.landing, h.evHeld, h.rings, h.armed, h.msixDue, h.msixLast, h.msix, bit_off hs rfl, h.instarAt, h.instarDue, h.silkMsgs, h.silkWaiters, h.silkReplies, h.silkSent, h.ports, h.linkIn, h.linkReqs, h.linkRr, h.peers, h.custody, h.custOp, h.colls, h.bootNonce, h.lastHello, h.lastAdvert, h.lastTime, h.imagos, h.verif, h.leaseTerms, h.poolFreed, h.ctxs, h.scheds, h.queues, h.cmds, h.objs, h.fenceWaiters, h.fenceOuts, h.fwq, h.mail, h.instResets, h.numVfs, h.keyMat, h.cvks, h.rtc, h.flash, h.power, h.stops, h.stopSince, h.aon, h.resets, h.pending, h.mems⟩

theorem upd_invals {M : Nat} {s0 s : State} {v0} (hs : bitsIn 0x200000000 M = true) (h : Agree M s0 s) :
    Agree M s0 { s with invals := v0 } :=
  ⟨h.regs, h.latches, h.reply, h.now, h.timeSlew, h.slewAt, h.synced, h.freeCtr, h.nextId, h.cores, h.corePhys, h.kernels, h.ops, h.movers, h.reqs, h.hbm, h.hbmPoison, h.bufs, h.host, h.hostPoison, h.winStart, h.winLen, h.regCounts, h.qosOld, h.missPosted, h.bridgeRun, h.scrubPos, h.tiles, h.stallAt, h.walks, h.tlb, h.wcache, h.tracker, bit_off hs rfl, h.fqHeld, h.slots, h.gates, h.landing, h.evHeld, h.rings, h.armed, h.msixDue, h.msixLast, h.msix, h.instars, h.instarAt, h.instarDue, h.silkMsgs, h.silkWaiters, h.silkReplies, h.silkSent, h.ports, h.linkIn, h.linkReqs, h.linkRr, h.peers, h.custody, h.custOp, h.colls, h.bootNonce, h.lastHello, h.lastAdvert, h.lastTime, h.imagos, h.verif, h.leaseTerms, h.poolFreed, h.ctxs, h.scheds, h.queues, h.cmds, h.objs, h.fenceWaiters, h.fenceOuts, h.fwq, h.mail, h.instResets, h.numVfs, h.keyMat, h.cvks, h.rtc, h.flash, h.power, h.stops, h.stopSince, h.aon, h.resets, h.pending, h.mems⟩

theorem upd_kernels {M : Nat} {s0 s : State} {v0} (hs : bitsIn 0x800 M = true) (h : Agree M s0 s) :
    Agree M s0 { s with kernels := v0 } :=
  ⟨h.regs, h.latches, h.reply, h.now, h.timeSlew, h.slewAt, h.synced, h.freeCtr, h.nextId, h.cores, h.corePhys, bit_off hs rfl, h.ops, h.movers, h.reqs, h.hbm, h.hbmPoison, h.bufs, h.host, h.hostPoison, h.winStart, h.winLen, h.regCounts, h.qosOld, h.missPosted, h.bridgeRun, h.scrubPos, h.tiles, h.stallAt, h.walks, h.tlb, h.wcache, h.tracker, h.invals, h.fqHeld, h.slots, h.gates, h.landing, h.evHeld, h.rings, h.armed, h.msixDue, h.msixLast, h.msix, h.instars, h.instarAt, h.instarDue, h.silkMsgs, h.silkWaiters, h.silkReplies, h.silkSent, h.ports, h.linkIn, h.linkReqs, h.linkRr, h.peers, h.custody, h.custOp, h.colls, h.bootNonce, h.lastHello, h.lastAdvert, h.lastTime, h.imagos, h.verif, h.leaseTerms, h.poolFreed, h.ctxs, h.scheds, h.queues, h.cmds, h.objs, h.fenceWaiters, h.fenceOuts, h.fwq, h.mail, h.instResets, h.numVfs, h.keyMat, h.cvks, h.rtc, h.flash, h.power, h.stops, h.stopSince, h.aon, h.resets, h.pending, h.mems⟩

theorem upd_keyMat {M : Nat} {s0 s : State} {v0} (hs : bitsIn 0x40000000000000000000 M = true) (h : Agree M s0 s) :
    Agree M s0 { s with keyMat := v0 } :=
  ⟨h.regs, h.latches, h.reply, h.now, h.timeSlew, h.slewAt, h.synced, h.freeCtr, h.nextId, h.cores, h.corePhys, h.kernels, h.ops, h.movers, h.reqs, h.hbm, h.hbmPoison, h.bufs, h.host, h.hostPoison, h.winStart, h.winLen, h.regCounts, h.qosOld, h.missPosted, h.bridgeRun, h.scrubPos, h.tiles, h.stallAt, h.walks, h.tlb, h.wcache, h.tracker, h.invals, h.fqHeld, h.slots, h.gates, h.landing, h.evHeld, h.rings, h.armed, h.msixDue, h.msixLast, h.msix, h.instars, h.instarAt, h.instarDue, h.silkMsgs, h.silkWaiters, h.silkReplies, h.silkSent, h.ports, h.linkIn, h.linkReqs, h.linkRr, h.peers, h.custody, h.custOp, h.colls, h.bootNonce, h.lastHello, h.lastAdvert, h.lastTime, h.imagos, h.verif, h.leaseTerms, h.poolFreed, h.ctxs, h.scheds, h.queues, h.cmds, h.objs, h.fenceWaiters, h.fenceOuts, h.fwq, h.mail, h.instResets, h.numVfs, bit_off hs rfl, h.cvks, h.rtc, h.flash, h.power, h.stops, h.stopSince, h.aon, h.resets, h.pending, h.mems⟩

theorem upd_landing {M : Nat} {s0 s : State} {v0} (hs : bitsIn 0x2000000000 M = true) (h : Agree M s0 s) :
    Agree M s0 { s with landing := v0 } :=
  ⟨h.regs, h.latches, h.reply, h.now, h.timeSlew, h.slewAt, h.synced, h.freeCtr, h.nextId, h.cores, h.corePhys, h.kernels, h.ops, h.movers, h.reqs, h.hbm, h.hbmPoison, h.bufs, h.host, h.hostPoison, h.winStart, h.winLen, h.regCounts, h.qosOld, h.missPosted, h.bridgeRun, h.scrubPos, h.tiles, h.stallAt, h.walks, h.tlb, h.wcache, h.tracker, h.invals, h.fqHeld, h.slots, h.gates, bit_off hs rfl, h.evHeld, h.rings, h.armed, h.msixDue, h.msixLast, h.msix, h.instars, h.instarAt, h.instarDue, h.silkMsgs, h.silkWaiters, h.silkReplies, h.silkSent, h.ports, h.linkIn, h.linkReqs, h.linkRr, h.peers, h.custody, h.custOp, h.colls, h.bootNonce, h.lastHello, h.lastAdvert, h.lastTime, h.imagos, h.verif, h.leaseTerms, h.poolFreed, h.ctxs, h.scheds, h.queues, h.cmds, h.objs, h.fenceWaiters, h.fenceOuts, h.fwq, h.mail, h.instResets, h.numVfs, h.keyMat, h.cvks, h.rtc, h.flash, h.power, h.stops, h.stopSince, h.aon, h.resets, h.pending, h.mems⟩

theorem upd_lastAdvert {M : Nat} {s0 s : State} {v0} (hs : bitsIn 0x2000000000000000 M = true) (h : Agree M s0 s) :
    Agree M s0 { s with lastAdvert := v0 } :=
  ⟨h.regs, h.latches, h.reply, h.now, h.timeSlew, h.slewAt, h.synced, h.freeCtr, h.nextId, h.cores, h.corePhys, h.kernels, h.ops, h.movers, h.reqs, h.hbm, h.hbmPoison, h.bufs, h.host, h.hostPoison, h.winStart, h.winLen, h.regCounts, h.qosOld, h.missPosted, h.bridgeRun, h.scrubPos, h.tiles, h.stallAt, h.walks, h.tlb, h.wcache, h.tracker, h.invals, h.fqHeld, h.slots, h.gates, h.landing, h.evHeld, h.rings, h.armed, h.msixDue, h.msixLast, h.msix, h.instars, h.instarAt, h.instarDue, h.silkMsgs, h.silkWaiters, h.silkReplies, h.silkSent, h.ports, h.linkIn, h.linkReqs, h.linkRr, h.peers, h.custody, h.custOp, h.colls, h.bootNonce, h.lastHello, bit_off hs rfl, h.lastTime, h.imagos, h.verif, h.leaseTerms, h.poolFreed, h.ctxs, h.scheds, h.queues, h.cmds, h.objs, h.fenceWaiters, h.fenceOuts, h.fwq, h.mail, h.instResets, h.numVfs, h.keyMat, h.cvks, h.rtc, h.flash, h.power, h.stops, h.stopSince, h.aon, h.resets, h.pending, h.mems⟩

theorem upd_lastHello {M : Nat} {s0 s : State} {v0} (hs : bitsIn 0x1000000000000000 M = true) (h : Agree M s0 s) :
    Agree M s0 { s with lastHello := v0 } :=
  ⟨h.regs, h.latches, h.reply, h.now, h.timeSlew, h.slewAt, h.synced, h.freeCtr, h.nextId, h.cores, h.corePhys, h.kernels, h.ops, h.movers, h.reqs, h.hbm, h.hbmPoison, h.bufs, h.host, h.hostPoison, h.winStart, h.winLen, h.regCounts, h.qosOld, h.missPosted, h.bridgeRun, h.scrubPos, h.tiles, h.stallAt, h.walks, h.tlb, h.wcache, h.tracker, h.invals, h.fqHeld, h.slots, h.gates, h.landing, h.evHeld, h.rings, h.armed, h.msixDue, h.msixLast, h.msix, h.instars, h.instarAt, h.instarDue, h.silkMsgs, h.silkWaiters, h.silkReplies, h.silkSent, h.ports, h.linkIn, h.linkReqs, h.linkRr, h.peers, h.custody, h.custOp, h.colls, h.bootNonce, bit_off hs rfl, h.lastAdvert, h.lastTime, h.imagos, h.verif, h.leaseTerms, h.poolFreed, h.ctxs, h.scheds, h.queues, h.cmds, h.objs, h.fenceWaiters, h.fenceOuts, h.fwq, h.mail, h.instResets, h.numVfs, h.keyMat, h.cvks, h.rtc, h.flash, h.power, h.stops, h.stopSince, h.aon, h.resets, h.pending, h.mems⟩

theorem upd_lastTime {M : Nat} {s0 s : State} {v0} (hs : bitsIn 0x4000000000000000 M = true) (h : Agree M s0 s) :
    Agree M s0 { s with lastTime := v0 } :=
  ⟨h.regs, h.latches, h.reply, h.now, h.timeSlew, h.slewAt, h.synced, h.freeCtr, h.nextId, h.cores, h.corePhys, h.kernels, h.ops, h.movers, h.reqs, h.hbm, h.hbmPoison, h.bufs, h.host, h.hostPoison, h.winStart, h.winLen, h.regCounts, h.qosOld, h.missPosted, h.bridgeRun, h.scrubPos, h.tiles, h.stallAt, h.walks, h.tlb, h.wcache, h.tracker, h.invals, h.fqHeld, h.slots, h.gates, h.landing, h.evHeld, h.rings, h.armed, h.msixDue, h.msixLast, h.msix, h.instars, h.instarAt, h.instarDue, h.silkMsgs, h.silkWaiters, h.silkReplies, h.silkSent, h.ports, h.linkIn, h.linkReqs, h.linkRr, h.peers, h.custody, h.custOp, h.colls, h.bootNonce, h.lastHello, h.lastAdvert, bit_off hs rfl, h.imagos, h.verif, h.leaseTerms, h.poolFreed, h.ctxs, h.scheds, h.queues, h.cmds, h.objs, h.fenceWaiters, h.fenceOuts, h.fwq, h.mail, h.instResets, h.numVfs, h.keyMat, h.cvks, h.rtc, h.flash, h.power, h.stops, h.stopSince, h.aon, h.resets, h.pending, h.mems⟩

theorem upd_latches {M : Nat} {s0 s : State} {v0} (hs : bitsIn 0x2 M = true) (h : Agree M s0 s) :
    Agree M s0 { s with latches := v0 } :=
  ⟨h.regs, bit_off hs rfl, h.reply, h.now, h.timeSlew, h.slewAt, h.synced, h.freeCtr, h.nextId, h.cores, h.corePhys, h.kernels, h.ops, h.movers, h.reqs, h.hbm, h.hbmPoison, h.bufs, h.host, h.hostPoison, h.winStart, h.winLen, h.regCounts, h.qosOld, h.missPosted, h.bridgeRun, h.scrubPos, h.tiles, h.stallAt, h.walks, h.tlb, h.wcache, h.tracker, h.invals, h.fqHeld, h.slots, h.gates, h.landing, h.evHeld, h.rings, h.armed, h.msixDue, h.msixLast, h.msix, h.instars, h.instarAt, h.instarDue, h.silkMsgs, h.silkWaiters, h.silkReplies, h.silkSent, h.ports, h.linkIn, h.linkReqs, h.linkRr, h.peers, h.custody, h.custOp, h.colls, h.bootNonce, h.lastHello, h.lastAdvert, h.lastTime, h.imagos, h.verif, h.leaseTerms, h.poolFreed, h.ctxs, h.scheds, h.queues, h.cmds, h.objs, h.fenceWaiters, h.fenceOuts, h.fwq, h.mail, h.instResets, h.numVfs, h.keyMat, h.cvks, h.rtc, h.flash, h.power, h.stops, h.stopSince, h.aon, h.resets, h.pending, h.mems⟩

theorem upd_leaseTerms {M : Nat} {s0 s : State} {v0} (hs : bitsIn 0x20000000000000000 M = true) (h : Agree M s0 s) :
    Agree M s0 { s with leaseTerms := v0 } :=
  ⟨h.regs, h.latches, h.reply, h.now, h.timeSlew, h.slewAt, h.synced, h.freeCtr, h.nextId, h.cores, h.corePhys, h.kernels, h.ops, h.movers, h.reqs, h.hbm, h.hbmPoison, h.bufs, h.host, h.hostPoison, h.winStart, h.winLen, h.regCounts, h.qosOld, h.missPosted, h.bridgeRun, h.scrubPos, h.tiles, h.stallAt, h.walks, h.tlb, h.wcache, h.tracker, h.invals, h.fqHeld, h.slots, h.gates, h.landing, h.evHeld, h.rings, h.armed, h.msixDue, h.msixLast, h.msix, h.instars, h.instarAt, h.instarDue, h.silkMsgs, h.silkWaiters, h.silkReplies, h.silkSent, h.ports, h.linkIn, h.linkReqs, h.linkRr, h.peers, h.custody, h.custOp, h.colls, h.bootNonce, h.lastHello, h.lastAdvert, h.lastTime, h.imagos, h.verif, bit_off hs rfl, h.poolFreed, h.ctxs, h.scheds, h.queues, h.cmds, h.objs, h.fenceWaiters, h.fenceOuts, h.fwq, h.mail, h.instResets, h.numVfs, h.keyMat, h.cvks, h.rtc, h.flash, h.power, h.stops, h.stopSince, h.aon, h.resets, h.pending, h.mems⟩

theorem upd_linkIn {M : Nat} {s0 s : State} {v0} (hs : bitsIn 0x10000000000000 M = true) (h : Agree M s0 s) :
    Agree M s0 { s with linkIn := v0 } :=
  ⟨h.regs, h.latches, h.reply, h.now, h.timeSlew, h.slewAt, h.synced, h.freeCtr, h.nextId, h.cores, h.corePhys, h.kernels, h.ops, h.movers, h.reqs, h.hbm, h.hbmPoison, h.bufs, h.host, h.hostPoison, h.winStart, h.winLen, h.regCounts, h.qosOld, h.missPosted, h.bridgeRun, h.scrubPos, h.tiles, h.stallAt, h.walks, h.tlb, h.wcache, h.tracker, h.invals, h.fqHeld, h.slots, h.gates, h.landing, h.evHeld, h.rings, h.armed, h.msixDue, h.msixLast, h.msix, h.instars, h.instarAt, h.instarDue, h.silkMsgs, h.silkWaiters, h.silkReplies, h.silkSent, h.ports, bit_off hs rfl, h.linkReqs, h.linkRr, h.peers, h.custody, h.custOp, h.colls, h.bootNonce, h.lastHello, h.lastAdvert, h.lastTime, h.imagos, h.verif, h.leaseTerms, h.poolFreed, h.ctxs, h.scheds, h.queues, h.cmds, h.objs, h.fenceWaiters, h.fenceOuts, h.fwq, h.mail, h.instResets, h.numVfs, h.keyMat, h.cvks, h.rtc, h.flash, h.power, h.stops, h.stopSince, h.aon, h.resets, h.pending, h.mems⟩

theorem upd_linkReqs {M : Nat} {s0 s : State} {v0} (hs : bitsIn 0x20000000000000 M = true) (h : Agree M s0 s) :
    Agree M s0 { s with linkReqs := v0 } :=
  ⟨h.regs, h.latches, h.reply, h.now, h.timeSlew, h.slewAt, h.synced, h.freeCtr, h.nextId, h.cores, h.corePhys, h.kernels, h.ops, h.movers, h.reqs, h.hbm, h.hbmPoison, h.bufs, h.host, h.hostPoison, h.winStart, h.winLen, h.regCounts, h.qosOld, h.missPosted, h.bridgeRun, h.scrubPos, h.tiles, h.stallAt, h.walks, h.tlb, h.wcache, h.tracker, h.invals, h.fqHeld, h.slots, h.gates, h.landing, h.evHeld, h.rings, h.armed, h.msixDue, h.msixLast, h.msix, h.instars, h.instarAt, h.instarDue, h.silkMsgs, h.silkWaiters, h.silkReplies, h.silkSent, h.ports, h.linkIn, bit_off hs rfl, h.linkRr, h.peers, h.custody, h.custOp, h.colls, h.bootNonce, h.lastHello, h.lastAdvert, h.lastTime, h.imagos, h.verif, h.leaseTerms, h.poolFreed, h.ctxs, h.scheds, h.queues, h.cmds, h.objs, h.fenceWaiters, h.fenceOuts, h.fwq, h.mail, h.instResets, h.numVfs, h.keyMat, h.cvks, h.rtc, h.flash, h.power, h.stops, h.stopSince, h.aon, h.resets, h.pending, h.mems⟩

theorem upd_linkRr {M : Nat} {s0 s : State} {v0} (hs : bitsIn 0x40000000000000 M = true) (h : Agree M s0 s) :
    Agree M s0 { s with linkRr := v0 } :=
  ⟨h.regs, h.latches, h.reply, h.now, h.timeSlew, h.slewAt, h.synced, h.freeCtr, h.nextId, h.cores, h.corePhys, h.kernels, h.ops, h.movers, h.reqs, h.hbm, h.hbmPoison, h.bufs, h.host, h.hostPoison, h.winStart, h.winLen, h.regCounts, h.qosOld, h.missPosted, h.bridgeRun, h.scrubPos, h.tiles, h.stallAt, h.walks, h.tlb, h.wcache, h.tracker, h.invals, h.fqHeld, h.slots, h.gates, h.landing, h.evHeld, h.rings, h.armed, h.msixDue, h.msixLast, h.msix, h.instars, h.instarAt, h.instarDue, h.silkMsgs, h.silkWaiters, h.silkReplies, h.silkSent, h.ports, h.linkIn, h.linkReqs, bit_off hs rfl, h.peers, h.custody, h.custOp, h.colls, h.bootNonce, h.lastHello, h.lastAdvert, h.lastTime, h.imagos, h.verif, h.leaseTerms, h.poolFreed, h.ctxs, h.scheds, h.queues, h.cmds, h.objs, h.fenceWaiters, h.fenceOuts, h.fwq, h.mail, h.instResets, h.numVfs, h.keyMat, h.cvks, h.rtc, h.flash, h.power, h.stops, h.stopSince, h.aon, h.resets, h.pending, h.mems⟩

theorem upd_mail {M : Nat} {s0 s : State} {v0} (hs : bitsIn 0x8000000000000000000 M = true) (h : Agree M s0 s) :
    Agree M s0 { s with mail := v0 } :=
  ⟨h.regs, h.latches, h.reply, h.now, h.timeSlew, h.slewAt, h.synced, h.freeCtr, h.nextId, h.cores, h.corePhys, h.kernels, h.ops, h.movers, h.reqs, h.hbm, h.hbmPoison, h.bufs, h.host, h.hostPoison, h.winStart, h.winLen, h.regCounts, h.qosOld, h.missPosted, h.bridgeRun, h.scrubPos, h.tiles, h.stallAt, h.walks, h.tlb, h.wcache, h.tracker, h.invals, h.fqHeld, h.slots, h.gates, h.landing, h.evHeld, h.rings, h.armed, h.msixDue, h.msixLast, h.msix, h.instars, h.instarAt, h.instarDue, h.silkMsgs, h.silkWaiters, h.silkReplies, h.silkSent, h.ports, h.linkIn, h.linkReqs, h.linkRr, h.peers, h.custody, h.custOp, h.colls, h.bootNonce, h.lastHello, h.lastAdvert, h.lastTime, h.imagos, h.verif, h.leaseTerms, h.poolFreed, h.ctxs, h.scheds, h.queues, h.cmds, h.objs, h.fenceWaiters, h.fenceOuts, h.fwq, bit_off hs rfl, h.instResets, h.numVfs, h.keyMat, h.cvks, h.rtc, h.flash, h.power, h.stops, h.stopSince, h.aon, h.resets, h.pending, h.mems⟩

theorem upd_missPosted {M : Nat} {s0 s : State} {v0} (hs : bitsIn 0x1000000 M = true) (h : Agree M s0 s) :
    Agree M s0 { s with missPosted := v0 } :=
  ⟨h.regs, h.latches, h.reply, h.now, h.timeSlew, h.slewAt, h.synced, h.freeCtr, h.nextId, h.cores, h.corePhys, h.kernels, h.ops, h.movers, h.reqs, h.hbm, h.hbmPoison, h.bufs, h.host, h.hostPoison, h.winStart, h.winLen, h.regCounts, h.qosOld, bit_off hs rfl, h.bridgeRun, h.scrubPos, h.tiles, h.stallAt, h.walks, h.tlb, h.wcache, h.tracker, h.invals, h.fqHeld, h.slots, h.gates, h.landing, h.evHeld, h.rings, h.armed, h.msixDue, h.msixLast, h.msix, h.instars, h.instarAt, h.instarDue, h.silkMsgs, h.silkWaiters, h.silkReplies, h.silkSent, h.ports, h.linkIn, h.linkReqs, h.linkRr, h.peers, h.custody, h.custOp, h.colls, h.bootNonce, h.lastHello, h.lastAdvert, h.lastTime, h.imagos, h.verif, h.leaseTerms, h.poolFreed, h.ctxs, h.scheds, h.queues, h.cmds, h.objs, h.fenceWaiters, h.fenceOuts, h.fwq, h.mail, h.instResets, h.numVfs, h.keyMat, h.cvks, h.rtc, h.flash, h.power, h.stops, h.stopSince, h.aon, h.resets, h.pending, h.mems⟩

theorem upd_movers {M : Nat} {s0 s : State} {v0} (hs : bitsIn 0x2000 M = true) (h : Agree M s0 s) :
    Agree M s0 { s with movers := v0 } :=
  ⟨h.regs, h.latches, h.reply, h.now, h.timeSlew, h.slewAt, h.synced, h.freeCtr, h.nextId, h.cores, h.corePhys, h.kernels, h.ops, bit_off hs rfl, h.reqs, h.hbm, h.hbmPoison, h.bufs, h.host, h.hostPoison, h.winStart, h.winLen, h.regCounts, h.qosOld, h.missPosted, h.bridgeRun, h.scrubPos, h.tiles, h.stallAt, h.walks, h.tlb, h.wcache, h.tracker, h.invals, h.fqHeld, h.slots, h.gates, h.landing, h.evHeld, h.rings, h.armed, h.msixDue, h.msixLast, h.msix, h.instars, h.instarAt, h.instarDue, h.silkMsgs, h.silkWaiters, h.silkReplies, h.silkSent, h.ports, h.linkIn, h.linkReqs, h.linkRr, h.peers, h.custody, h.custOp, h.colls, h.bootNonce, h.lastHello, h.lastAdvert, h.lastTime, h.imagos, h.verif, h.leaseTerms, h.poolFreed, h.ctxs, h.scheds, h.queues, h.cmds, h.objs, h.fenceWaiters, h.fenceOuts, h.fwq, h.mail, h.instResets, h.numVfs, h.keyMat, h.cvks, h.rtc, h.flash, h.power, h.stops, h.stopSince, h.aon, h.resets, h.pending, h.mems⟩

theorem upd_msix {M : Nat} {s0 s : State} {v0} (hs : bitsIn 0x80000000000 M = true) (h : Agree M s0 s) :
    Agree M s0 { s with msix := v0 } :=
  ⟨h.regs, h.latches, h.reply, h.now, h.timeSlew, h.slewAt, h.synced, h.freeCtr, h.nextId, h.cores, h.corePhys, h.kernels, h.ops, h.movers, h.reqs, h.hbm, h.hbmPoison, h.bufs, h.host, h.hostPoison, h.winStart, h.winLen, h.regCounts, h.qosOld, h.missPosted, h.bridgeRun, h.scrubPos, h.tiles, h.stallAt, h.walks, h.tlb, h.wcache, h.tracker, h.invals, h.fqHeld, h.slots, h.gates, h.landing, h.evHeld, h.rings, h.armed, h.msixDue, h.msixLast, bit_off hs rfl, h.instars, h.instarAt, h.instarDue, h.silkMsgs, h.silkWaiters, h.silkReplies, h.silkSent, h.ports, h.linkIn, h.linkReqs, h.linkRr, h.peers, h.custody, h.custOp, h.colls, h.bootNonce, h.lastHello, h.lastAdvert, h.lastTime, h.imagos, h.verif, h.leaseTerms, h.poolFreed, h.ctxs, h.scheds, h.queues, h.cmds, h.objs, h.fenceWaiters, h.fenceOuts, h.fwq, h.mail, h.instResets, h.numVfs, h.keyMat, h.cvks, h.rtc, h.flash, h.power, h.stops, h.stopSince, h.aon, h.resets, h.pending, h.mems⟩

theorem upd_msixDue {M : Nat} {s0 s : State} {v0} (hs : bitsIn 0x20000000000 M = true) (h : Agree M s0 s) :
    Agree M s0 { s with msixDue := v0 } :=
  ⟨h.regs, h.latches, h.reply, h.now, h.timeSlew, h.slewAt, h.synced, h.freeCtr, h.nextId, h.cores, h.corePhys, h.kernels, h.ops, h.movers, h.reqs, h.hbm, h.hbmPoison, h.bufs, h.host, h.hostPoison, h.winStart, h.winLen, h.regCounts, h.qosOld, h.missPosted, h.bridgeRun, h.scrubPos, h.tiles, h.stallAt, h.walks, h.tlb, h.wcache, h.tracker, h.invals, h.fqHeld, h.slots, h.gates, h.landing, h.evHeld, h.rings, h.armed, bit_off hs rfl, h.msixLast, h.msix, h.instars, h.instarAt, h.instarDue, h.silkMsgs, h.silkWaiters, h.silkReplies, h.silkSent, h.ports, h.linkIn, h.linkReqs, h.linkRr, h.peers, h.custody, h.custOp, h.colls, h.bootNonce, h.lastHello, h.lastAdvert, h.lastTime, h.imagos, h.verif, h.leaseTerms, h.poolFreed, h.ctxs, h.scheds, h.queues, h.cmds, h.objs, h.fenceWaiters, h.fenceOuts, h.fwq, h.mail, h.instResets, h.numVfs, h.keyMat, h.cvks, h.rtc, h.flash, h.power, h.stops, h.stopSince, h.aon, h.resets, h.pending, h.mems⟩

theorem upd_nextId {M : Nat} {s0 s : State} {v0} (hs : bitsIn 0x100 M = true) (h : Agree M s0 s) :
    Agree M s0 { s with nextId := v0 } :=
  ⟨h.regs, h.latches, h.reply, h.now, h.timeSlew, h.slewAt, h.synced, h.freeCtr, bit_off hs rfl, h.cores, h.corePhys, h.kernels, h.ops, h.movers, h.reqs, h.hbm, h.hbmPoison, h.bufs, h.host, h.hostPoison, h.winStart, h.winLen, h.regCounts, h.qosOld, h.missPosted, h.bridgeRun, h.scrubPos, h.tiles, h.stallAt, h.walks, h.tlb, h.wcache, h.tracker, h.invals, h.fqHeld, h.slots, h.gates, h.landing, h.evHeld, h.rings, h.armed, h.msixDue, h.msixLast, h.msix, h.instars, h.instarAt, h.instarDue, h.silkMsgs, h.silkWaiters, h.silkReplies, h.silkSent, h.ports, h.linkIn, h.linkReqs, h.linkRr, h.peers, h.custody, h.custOp, h.colls, h.bootNonce, h.lastHello, h.lastAdvert, h.lastTime, h.imagos, h.verif, h.leaseTerms, h.poolFreed, h.ctxs, h.scheds, h.queues, h.cmds, h.objs, h.fenceWaiters, h.fenceOuts, h.fwq, h.mail, h.instResets, h.numVfs, h.keyMat, h.cvks, h.rtc, h.flash, h.power, h.stops, h.stopSince, h.aon, h.resets, h.pending, h.mems⟩

theorem upd_numVfs {M : Nat} {s0 s : State} {v0} (hs : bitsIn 0x20000000000000000000 M = true) (h : Agree M s0 s) :
    Agree M s0 { s with numVfs := v0 } :=
  ⟨h.regs, h.latches, h.reply, h.now, h.timeSlew, h.slewAt, h.synced, h.freeCtr, h.nextId, h.cores, h.corePhys, h.kernels, h.ops, h.movers, h.reqs, h.hbm, h.hbmPoison, h.bufs, h.host, h.hostPoison, h.winStart, h.winLen, h.regCounts, h.qosOld, h.missPosted, h.bridgeRun, h.scrubPos, h.tiles, h.stallAt, h.walks, h.tlb, h.wcache, h.tracker, h.invals, h.fqHeld, h.slots, h.gates, h.landing, h.evHeld, h.rings, h.armed, h.msixDue, h.msixLast, h.msix, h.instars, h.instarAt, h.instarDue, h.silkMsgs, h.silkWaiters, h.silkReplies, h.silkSent, h.ports, h.linkIn, h.linkReqs, h.linkRr, h.peers, h.custody, h.custOp, h.colls, h.bootNonce, h.lastHello, h.lastAdvert, h.lastTime, h.imagos, h.verif, h.leaseTerms, h.poolFreed, h.ctxs, h.scheds, h.queues, h.cmds, h.objs, h.fenceWaiters, h.fenceOuts, h.fwq, h.mail, h.instResets, bit_off hs rfl, h.keyMat, h.cvks, h.rtc, h.flash, h.power, h.stops, h.stopSince, h.aon, h.resets, h.pending, h.mems⟩

theorem upd_objs {M : Nat} {s0 s : State} {v0} (hs : bitsIn 0x800000000000000000 M = true) (h : Agree M s0 s) :
    Agree M s0 { s with objs := v0 } :=
  ⟨h.regs, h.latches, h.reply, h.now, h.timeSlew, h.slewAt, h.synced, h.freeCtr, h.nextId, h.cores, h.corePhys, h.kernels, h.ops, h.movers, h.reqs, h.hbm, h.hbmPoison, h.bufs, h.host, h.hostPoison, h.winStart, h.winLen, h.regCounts, h.qosOld, h.missPosted, h.bridgeRun, h.scrubPos, h.tiles, h.stallAt, h.walks, h.tlb, h.wcache, h.tracker, h.invals, h.fqHeld, h.slots, h.gates, h.landing, h.evHeld, h.rings, h.armed, h.msixDue, h.msixLast, h.msix, h.instars, h.instarAt, h.instarDue, h.silkMsgs, h.silkWaiters, h.silkReplies, h.silkSent, h.ports, h.linkIn, h.linkReqs, h.linkRr, h.peers, h.custody, h.custOp, h.colls, h.bootNonce, h.lastHello, h.lastAdvert, h.lastTime, h.imagos, h.verif, h.leaseTerms, h.poolFreed, h.ctxs, h.scheds, h.queues, h.cmds, bit_off hs rfl, h.fenceWaiters, h.fenceOuts, h.fwq, h.mail, h.instResets, h.numVfs, h.keyMat, h.cvks, h.rtc, h.flash, h.power, h.stops, h.stopSince, h.aon, h.resets, h.pending, h.mems⟩

theorem upd_ops {M : Nat} {s0 s : State} {v0} (hs : bitsIn 0x1000 M = true) (h : Agree M s0 s) :
    Agree M s0 { s with ops := v0 } :=
  ⟨h.regs, h.latches, h.reply, h.now, h.timeSlew, h.slewAt, h.synced, h.freeCtr, h.nextId, h.cores, h.corePhys, h.kernels, bit_off hs rfl, h.movers, h.reqs, h.hbm, h.hbmPoison, h.bufs, h.host, h.hostPoison, h.winStart, h.winLen, h.regCounts, h.qosOld, h.missPosted, h.bridgeRun, h.scrubPos, h.tiles, h.stallAt, h.walks, h.tlb, h.wcache, h.tracker, h.invals, h.fqHeld, h.slots, h.gates, h.landing, h.evHeld, h.rings, h.armed, h.msixDue, h.msixLast, h.msix, h.instars, h.instarAt, h.instarDue, h.silkMsgs, h.silkWaiters, h.silkReplies, h.silkSent, h.ports, h.linkIn, h.linkReqs, h.linkRr, h.peers, h.custody, h.custOp, h.colls, h.bootNonce, h.lastHello, h.lastAdvert, h.lastTime, h.imagos, h.verif, h.leaseTerms, h.poolFreed, h.ctxs, h.scheds, h.queues, h.cmds, h.objs, h.fenceWaiters, h.fenceOuts, h.fwq, h.mail, h.instResets, h.numVfs, h.keyMat, h.cvks, h.rtc, h.flash, h.power, h.stops, h.stopSince, h.aon, h.resets, h.pending, h.mems⟩

theorem upd_peers {M : Nat} {s0 s : State} {v0} (hs : bitsIn 0x80000000000000 M = true) (h : Agree M s0 s) :
    Agree M s0 { s with peers := v0 } :=
  ⟨h.regs, h.latches, h.reply, h.now, h.timeSlew, h.slewAt, h.synced, h.freeCtr, h.nextId, h.cores, h.corePhys, h.kernels, h.ops, h.movers, h.reqs, h.hbm, h.hbmPoison, h.bufs, h.host, h.hostPoison, h.winStart, h.winLen, h.regCounts, h.qosOld, h.missPosted, h.bridgeRun, h.scrubPos, h.tiles, h.stallAt, h.walks, h.tlb, h.wcache, h.tracker, h.invals, h.fqHeld, h.slots, h.gates, h.landing, h.evHeld, h.rings, h.armed, h.msixDue, h.msixLast, h.msix, h.instars, h.instarAt, h.instarDue, h.silkMsgs, h.silkWaiters, h.silkReplies, h.silkSent, h.ports, h.linkIn, h.linkReqs, h.linkRr, bit_off hs rfl, h.custody, h.custOp, h.colls, h.bootNonce, h.lastHello, h.lastAdvert, h.lastTime, h.imagos, h.verif, h.leaseTerms, h.poolFreed, h.ctxs, h.scheds, h.queues, h.cmds, h.objs, h.fenceWaiters, h.fenceOuts, h.fwq, h.mail, h.instResets, h.numVfs, h.keyMat, h.cvks, h.rtc, h.flash, h.power, h.stops, h.stopSince, h.aon, h.resets, h.pending, h.mems⟩

theorem upd_pending {M : Nat} {s0 s : State} {v0} (hs : bitsIn 0x8000000000000000000000 M = true) (h : Agree M s0 s) :
    Agree M s0 { s with pending := v0 } :=
  ⟨h.regs, h.latches, h.reply, h.now, h.timeSlew, h.slewAt, h.synced, h.freeCtr, h.nextId, h.cores, h.corePhys, h.kernels, h.ops, h.movers, h.reqs, h.hbm, h.hbmPoison, h.bufs, h.host, h.hostPoison, h.winStart, h.winLen, h.regCounts, h.qosOld, h.missPosted, h.bridgeRun, h.scrubPos, h.tiles, h.stallAt, h.walks, h.tlb, h.wcache, h.tracker, h.invals, h.fqHeld, h.slots, h.gates, h.landing, h.evHeld, h.rings, h.armed, h.msixDue, h.msixLast, h.msix, h.instars, h.instarAt, h.instarDue, h.silkMsgs, h.silkWaiters, h.silkReplies, h.silkSent, h.ports, h.linkIn, h.linkReqs, h.linkRr, h.peers, h.custody, h.custOp, h.colls, h.bootNonce, h.lastHello, h.lastAdvert, h.lastTime, h.imagos, h.verif, h.leaseTerms, h.poolFreed, h.ctxs, h.scheds, h.queues, h.cmds, h.objs, h.fenceWaiters, h.fenceOuts, h.fwq, h.mail, h.instResets, h.numVfs, h.keyMat, h.cvks, h.rtc, h.flash, h.power, h.stops, h.stopSince, h.aon, h.resets, bit_off hs rfl, h.mems⟩

theorem upd_poolFreed {M : Nat} {s0 s : State} {v0} (hs : bitsIn 0x40000000000000000 M = true) (h : Agree M s0 s) :
    Agree M s0 { s with poolFreed := v0 } :=
  ⟨h.regs, h.latches, h.reply, h.now, h.timeSlew, h.slewAt, h.synced, h.freeCtr, h.nextId, h.cores, h.corePhys, h.kernels, h.ops, h.movers, h.reqs, h.hbm, h.hbmPoison, h.bufs, h.host, h.hostPoison, h.winStart, h.winLen, h.regCounts, h.qosOld, h.missPosted, h.bridgeRun, h.scrubPos, h.tiles, h.stallAt, h.walks, h.tlb, h.wcache, h.tracker, h.invals, h.fqHeld, h.slots, h.gates, h.landing, h.evHeld, h.rings, h.armed, h.msixDue, h.msixLast, h.msix, h.instars, h.instarAt, h.instarDue, h.silkMsgs, h.silkWaiters, h.silkReplies, h.silkSent, h.ports, h.linkIn, h.linkReqs, h.linkRr, h.peers, h.custody, h.custOp, h.colls, h.bootNonce, h.lastHello, h.lastAdvert, h.lastTime, h.imagos, h.verif, h.leaseTerms, bit_off hs rfl, h.ctxs, h.scheds, h.queues, h.cmds, h.objs, h.fenceWaiters, h.fenceOuts, h.fwq, h.mail, h.instResets, h.numVfs, h.keyMat, h.cvks, h.rtc, h.flash, h.power, h.stops, h.stopSince, h.aon, h.resets, h.pending, h.mems⟩

theorem upd_ports {M : Nat} {s0 s : State} {v0} (hs : bitsIn 0x8000000000000 M = true) (h : Agree M s0 s) :
    Agree M s0 { s with ports := v0 } :=
  ⟨h.regs, h.latches, h.reply, h.now, h.timeSlew, h.slewAt, h.synced, h.freeCtr, h.nextId, h.cores, h.corePhys, h.kernels, h.ops, h.movers, h.reqs, h.hbm, h.hbmPoison, h.bufs, h.host, h.hostPoison, h.winStart, h.winLen, h.regCounts, h.qosOld, h.missPosted, h.bridgeRun, h.scrubPos, h.tiles, h.stallAt, h.walks, h.tlb, h.wcache, h.tracker, h.invals, h.fqHeld, h.slots, h.gates, h.landing, h.evHeld, h.rings, h.armed, h.msixDue, h.msixLast, h.msix, h.instars, h.instarAt, h.instarDue, h.silkMsgs, h.silkWaiters, h.silkReplies, h.silkSent, bit_off hs rfl, h.linkIn, h.linkReqs, h.linkRr, h.peers, h.custody, h.custOp, h.colls, h.bootNonce, h.lastHello, h.lastAdvert, h.lastTime, h.imagos, h.verif, h.leaseTerms, h.poolFreed, h.ctxs, h.scheds, h.queues, h.cmds, h.objs, h.fenceWaiters, h.fenceOuts, h.fwq, h.mail, h.instResets, h.numVfs, h.keyMat, h.cvks, h.rtc, h.flash, h.power, h.stops, h.stopSince, h.aon, h.resets, h.pending, h.mems⟩

theorem upd_power {M : Nat} {s0 s : State} {v0} (hs : bitsIn 0x400000000000000000000 M = true) (h : Agree M s0 s) :
    Agree M s0 { s with power := v0 } :=
  ⟨h.regs, h.latches, h.reply, h.now, h.timeSlew, h.slewAt, h.synced, h.freeCtr, h.nextId, h.cores, h.corePhys, h.kernels, h.ops, h.movers, h.reqs, h.hbm, h.hbmPoison, h.bufs, h.host, h.hostPoison, h.winStart, h.winLen, h.regCounts, h.qosOld, h.missPosted, h.bridgeRun, h.scrubPos, h.tiles, h.stallAt, h.walks, h.tlb, h.wcache, h.tracker, h.invals, h.fqHeld, h.slots, h.gates, h.landing, h.evHeld, h.rings, h.armed, h.msixDue, h.msixLast, h.msix, h.instars, h.instarAt, h.instarDue, h.silkMsgs, h.silkWaiters, h.silkReplies, h.silkSent, h.ports, h.linkIn, h.linkReqs, h.linkRr, h.peers, h.custody, h.custOp, h.colls, h.bootNonce, h.lastHello, h.lastAdvert, h.lastTime, h.imagos, h.verif, h.leaseTerms, h.poolFreed, h.ctxs, h.scheds, h.queues, h.cmds, h.objs, h.fenceWaiters, h.fenceOuts, h.fwq, h.mail, h.instResets, h.numVfs, h.keyMat, h.cvks, h.rtc, h.flash, bit_off hs rfl, h.stops, h.stopSince, h.aon, h.resets, h.pending, h.mems⟩

theorem upd_qosOld {M : Nat} {s0 s : State} {v0} (hs : bitsIn 0x800000 M = true) (h : Agree M s0 s) :
    Agree M s0 { s with qosOld := v0 } :=
  ⟨h.regs, h.latches, h.reply, h.now, h.timeSlew, h.slewAt, h.synced, h.freeCtr, h.nextId, h.cores, h.corePhys, h.kernels, h.ops, h.movers, h.reqs, h.hbm, h.hbmPoison, h.bufs, h.host, h.hostPoison, h.winStart, h.winLen, h.regCounts, bit_off hs rfl, h.missPosted, h.bridgeRun, h.scrubPos, h.tiles, h.stallAt, h.walks, h.tlb, h.wcache, h.tracker, h.invals, h.fqHeld, h.slots, h.gates, h.landing, h.evHeld, h.rings, h.armed, h.msixDue, h.msixLast, h.msix, h.instars, h.instarAt, h.instarDue, h.silkMsgs, h.silkWaiters, h.silkReplies, h.silkSent, h.ports, h.linkIn, h.linkReqs, h.linkRr, h.peers, h.custody, h.custOp, h.colls, h.bootNonce, h.lastHello, h.lastAdvert, h.lastTime, h.imagos, h.verif, h.leaseTerms, h.poolFreed, h.ctxs, h.scheds, h.queues, h.cmds, h.objs, h.fenceWaiters, h.fenceOuts, h.fwq, h.mail, h.instResets, h.numVfs, h.keyMat, h.cvks, h.rtc, h.flash, h.power, h.stops, h.stopSince, h.aon, h.resets, h.pending, h.mems⟩

theorem upd_queues {M : Nat} {s0 s : State} {v0} (hs : bitsIn 0x200000000000000000 M = true) (h : Agree M s0 s) :
    Agree M s0 { s with queues := v0 } :=
  ⟨h.regs, h.latches, h.reply, h.now, h.timeSlew, h.slewAt, h.synced, h.freeCtr, h.nextId, h.cores, h.corePhys, h.kernels, h.ops, h.movers, h.reqs, h.hbm, h.hbmPoison, h.bufs, h.host, h.hostPoison, h.winStart, h.winLen, h.regCounts, h.qosOld, h.missPosted, h.bridgeRun, h.scrubPos, h.tiles, h.stallAt, h.walks, h.tlb, h.wcache, h.tracker, h.invals, h.fqHeld, h.slots, h.gates, h.landing, h.evHeld, h.rings, h.armed, h.msixDue, h.msixLast, h.msix, h.instars, h.instarAt, h.instarDue, h.silkMsgs, h.silkWaiters, h.silkReplies, h.silkSent, h.ports, h.linkIn, h.linkReqs, h.linkRr, h.peers, h.custody, h.custOp, h.colls, h.bootNonce, h.lastHello, h.lastAdvert, h.lastTime, h.imagos, h.verif, h.leaseTerms, h.poolFreed, h.ctxs, h.scheds, bit_off hs rfl, h.cmds, h.objs, h.fenceWaiters, h.fenceOuts, h.fwq, h.mail, h.instResets, h.numVfs, h.keyMat, h.cvks, h.rtc, h.flash, h.power, h.stops, h.stopSince, h.aon, h.resets, h.pending, h.mems⟩

theorem upd_regCounts {M : Nat} {s0 s : State} {v0} (hs : bitsIn 0x400000 M = true) (h : Agree M s0 s) :
    Agree M s0 { s with regCounts := v0 } :=
  ⟨h.regs, h.latches, h.reply, h.now, h.timeSlew, h.slewAt, h.synced, h.freeCtr, h.nextId, h.cores, h.corePhys, h.kernels, h.ops, h.movers, h.reqs, h.hbm, h.hbmPoison, h.bufs, h.host, h.hostPoison, h.winStart, h.winLen, bit_off hs rfl, h.qosOld, h.missPosted, h.bridgeRun, h.scrubPos, h.tiles, h.stallAt, h.walks, h.tlb, h.wcache, h.tracker, h.invals, h.fqHeld, h.slots, h.gates, h.landing, h.evHeld, h.rings, h.armed, h.msixDue, h.msixLast, h.msix, h.instars, h.instarAt, h.instarDue, h.silkMsgs, h.silkWaiters, h.silkReplies, h.silkSent, h.ports, h.linkIn, h.linkReqs, h.linkRr, h.peers, h.custody, h.custOp, h.colls, h.bootNonce, h.lastHello, h.lastAdvert, h.lastTime, h.imagos, h.verif, h.leaseTerms, h.poolFreed, h.ctxs, h.scheds, h.queues, h.cmds, h.objs, h.fenceWaiters, h.fenceOuts, h.fwq, h.mail, h.instResets, h.numVfs, h.keyMat, h.cvks, h.rtc, h.flash, h.power, h.stops, h.stopSince, h.aon, h.resets, h.pending, h.mems⟩

theorem upd_regs {M : Nat} {s0 s : State} {v0} (hs : bitsIn 0x1 M = true) (h : Agree M s0 s) :
    Agree M s0 { s with regs := v0 } :=
  ⟨bit_off hs rfl, h.latches, h.reply, h.now, h.timeSlew, h.slewAt, h.synced, h.freeCtr, h.nextId, h.cores, h.corePhys, h.kernels, h.ops, h.movers, h.reqs, h.hbm, h.hbmPoison, h.bufs, h.host, h.hostPoison, h.winStart, h.winLen, h.regCounts, h.qosOld, h.missPosted, h.bridgeRun, h.scrubPos, h.tiles, h.stallAt, h.walks, h.tlb, h.wcache, h.tracker, h.invals, h.fqHeld, h.slots, h.gates, h.landing, h.evHeld, h.rings, h.armed, h.msixDue, h.msixLast, h.msix, h.instars, h.instarAt, h.instarDue, h.silkMsgs, h.silkWaiters, h.silkReplies, h.silkSent, h.ports, h.linkIn, h.linkReqs, h.linkRr, h.peers, h.custody, h.custOp, h.colls, h.bootNonce, h.lastHello, h.lastAdvert, h.lastTime, h.imagos, h.verif, h.leaseTerms, h.poolFreed, h.ctxs, h.scheds, h.queues, h.cmds, h.objs, h.fenceWaiters, h.fenceOuts, h.fwq, h.mail, h.instResets, h.numVfs, h.keyMat, h.cvks, h.rtc, h.flash, h.power, h.stops, h.stopSince, h.aon, h.resets, h.pending, h.mems⟩

theorem upd_reply {M : Nat} {s0 s : State} {v0} (hs : bitsIn 0x4 M = true) (h : Agree M s0 s) :
    Agree M s0 { s with reply := v0 } :=
  ⟨h.regs, h.latches, bit_off hs rfl, h.now, h.timeSlew, h.slewAt, h.synced, h.freeCtr, h.nextId, h.cores, h.corePhys, h.kernels, h.ops, h.movers, h.reqs, h.hbm, h.hbmPoison, h.bufs, h.host, h.hostPoison, h.winStart, h.winLen, h.regCounts, h.qosOld, h.missPosted, h.bridgeRun, h.scrubPos, h.tiles, h.stallAt, h.walks, h.tlb, h.wcache, h.tracker, h.invals, h.fqHeld, h.slots, h.gates, h.landing, h.evHeld, h.rings, h.armed, h.msixDue, h.msixLast, h.msix, h.instars, h.instarAt, h.instarDue, h.silkMsgs, h.silkWaiters, h.silkReplies, h.silkSent, h.ports, h.linkIn, h.linkReqs, h.linkRr, h.peers, h.custody, h.custOp, h.colls, h.bootNonce, h.lastHello, h.lastAdvert, h.lastTime, h.imagos, h.verif, h.leaseTerms, h.poolFreed, h.ctxs, h.scheds, h.queues, h.cmds, h.objs, h.fenceWaiters, h.fenceOuts, h.fwq, h.mail, h.instResets, h.numVfs, h.keyMat, h.cvks, h.rtc, h.flash, h.power, h.stops, h.stopSince, h.aon, h.resets, h.pending, h.mems⟩

theorem upd_reqs {M : Nat} {s0 s : State} {v0} (hs : bitsIn 0x4000 M = true) (h : Agree M s0 s) :
    Agree M s0 { s with reqs := v0 } :=
  ⟨h.regs, h.latches, h.reply, h.now, h.timeSlew, h.slewAt, h.synced, h.freeCtr, h.nextId, h.cores, h.corePhys, h.kernels, h.ops, h.movers, bit_off hs rfl, h.hbm, h.hbmPoison, h.bufs, h.host, h.hostPoison, h.winStart, h.winLen, h.regCounts, h.qosOld, h.missPosted, h.bridgeRun, h.scrubPos, h.tiles, h.stallAt, h.walks, h.tlb, h.wcache, h.tracker, h.invals, h.fqHeld, h.slots, h.gates, h.landing, h.evHeld, h.rings, h.armed, h.msixDue, h.msixLast, h.msix, h.instars, h.instarAt, h.instarDue, h.silkMsgs, h.silkWaiters, h.silkReplies, h.silkSent, h.ports, h.linkIn, h.linkReqs, h.linkRr, h.peers, h.custody, h.custOp, h.colls, h.bootNonce, h.lastHello, h.lastAdvert, h.lastTime, h.imagos, h.verif, h.leaseTerms, h.poolFreed, h.ctxs, h.scheds, h.queues, h.cmds, h.objs, h.fenceWaiters, h.fenceOuts, h.fwq, h.mail, h.instResets, h.numVfs, h.keyMat, h.cvks, h.rtc, h.flash, h.power, h.stops, h.stopSince, h.aon, h.resets, h.pending, h.mems⟩

theorem upd_resets {M : Nat} {s0 s : State} {v0} (hs : bitsIn 0x4000000000000000000000 M = true) (h : Agree M s0 s) :
    Agree M s0 { s with resets := v0 } :=
  ⟨h.regs, h.latches, h.reply, h.now, h.timeSlew, h.slewAt, h.synced, h.freeCtr, h.nextId, h.cores, h.corePhys, h.kernels, h.ops, h.movers, h.reqs, h.hbm, h.hbmPoison, h.bufs, h.host, h.hostPoison, h.winStart, h.winLen, h.regCounts, h.qosOld, h.missPosted, h.bridgeRun, h.scrubPos, h.tiles, h.stallAt, h.walks, h.tlb, h.wcache, h.tracker, h.invals, h.fqHeld, h.slots, h.gates, h.landing, h.evHeld, h.rings, h.armed, h.msixDue, h.msixLast, h.msix, h.instars, h.instarAt, h.instarDue, h.silkMsgs, h.silkWaiters, h.silkReplies, h.silkSent, h.ports, h.linkIn, h.linkReqs, h.linkRr, h.peers, h.custody, h.custOp, h.colls, h.bootNonce, h.lastHello, h.lastAdvert, h.lastTime, h.imagos, h.verif, h.leaseTerms, h.poolFreed, h.ctxs, h.scheds, h.queues, h.cmds, h.objs, h.fenceWaiters, h.fenceOuts, h.fwq, h.mail, h.instResets, h.numVfs, h.keyMat, h.cvks, h.rtc, h.flash, h.power, h.stops, h.stopSince, h.aon, bit_off hs rfl, h.pending, h.mems⟩

theorem upd_rtc {M : Nat} {s0 s : State} {v0} (hs : bitsIn 0x100000000000000000000 M = true) (h : Agree M s0 s) :
    Agree M s0 { s with rtc := v0 } :=
  ⟨h.regs, h.latches, h.reply, h.now, h.timeSlew, h.slewAt, h.synced, h.freeCtr, h.nextId, h.cores, h.corePhys, h.kernels, h.ops, h.movers, h.reqs, h.hbm, h.hbmPoison, h.bufs, h.host, h.hostPoison, h.winStart, h.winLen, h.regCounts, h.qosOld, h.missPosted, h.bridgeRun, h.scrubPos, h.tiles, h.stallAt, h.walks, h.tlb, h.wcache, h.tracker, h.invals, h.fqHeld, h.slots, h.gates, h.landing, h.evHeld, h.rings, h.armed, h.msixDue, h.msixLast, h.msix, h.instars, h.instarAt, h.instarDue, h.silkMsgs, h.silkWaiters, h.silkReplies, h.silkSent, h.ports, h.linkIn, h.linkReqs, h.linkRr, h.peers, h.custody, h.custOp, h.colls, h.bootNonce, h.lastHello, h.lastAdvert, h.lastTime, h.imagos, h.verif, h.leaseTerms, h.poolFreed, h.ctxs, h.scheds, h.queues, h.cmds, h.objs, h.fenceWaiters, h.fenceOuts, h.fwq, h.mail, h.instResets, h.numVfs, h.keyMat, h.cvks, bit_off hs rfl, h.flash, h.power, h.stops, h.stopSince, h.aon, h.resets, h.pending, h.mems⟩

theorem upd_scheds {M : Nat} {s0 s : State} {v0} (hs : bitsIn 0x100000000000000000 M = true) (h : Agree M s0 s) :
    Agree M s0 { s with scheds := v0 } :=
  ⟨h.regs, h.latches, h.reply, h.now, h.timeSlew, h.slewAt, h.synced, h.freeCtr, h.nextId, h.cores, h.corePhys, h.kernels, h.ops, h.movers, h.reqs, h.hbm, h.hbmPoison, h.bufs, h.host, h.hostPoison, h.winStart, h.winLen, h.regCounts, h.qosOld, h.missPosted, h.bridgeRun, h.scrubPos, h.tiles, h.stallAt, h.walks, h.tlb, h.wcache, h.tracker, h.invals, h.fqHeld, h.slots, h.gates, h.landing, h.evHeld, h.rings, h.armed, h.msixDue, h.msixLast, h.msix, h.instars, h.instarAt, h.instarDue, h.silkMsgs, h.silkWaiters, h.silkReplies, h.silkSent, h.ports, h.linkIn, h.linkReqs, h.linkRr, h.peers, h.custody, h.custOp, h.colls, h.bootNonce, h.lastHello, h.lastAdvert, h.lastTime, h.imagos, h.verif, h.leaseTerms, h.poolFreed, h.ctxs, bit_off hs rfl, h.queues, h.cmds, h.objs, h.fenceWaiters, h.fenceOuts, h.fwq, h.mail, h.instResets, h.numVfs, h.keyMat, h.cvks, h.rtc, h.flash, h.power, h.stops, h.stopSince, h.aon, h.resets, h.pending, h.mems⟩

theorem upd_scrubPos {M : Nat} {s0 s : State} {v0} (hs : bitsIn 0x4000000 M = true) (h : Agree M s0 s) :
    Agree M s0 { s with scrubPos := v0 } :=
  ⟨h.regs, h.latches, h.reply, h.now, h.timeSlew, h.slewAt, h.synced, h.freeCtr, h.nextId, h.cores, h.corePhys, h.kernels, h.ops, h.movers, h.reqs, h.hbm, h.hbmPoison, h.bufs, h.host, h.hostPoison, h.winStart, h.winLen, h.regCounts, h.qosOld, h.missPosted, h.bridgeRun, bit_off hs rfl, h.tiles, h.stallAt, h.walks, h.tlb, h.wcache, h.tracker, h.invals, h.fqHeld, h.slots, h.gates, h.landing, h.evHeld, h.rings, h.armed, h.msixDue, h.msixLast, h.msix, h.instars, h.instarAt, h.instarDue, h.silkMsgs, h.silkWaiters, h.silkReplies, h.silkSent, h.ports, h.linkIn, h.linkReqs, h.linkRr, h.peers, h.custody, h.custOp, h.colls, h.bootNonce, h.lastHello, h.lastAdvert, h.lastTime, h.imagos, h.verif, h.leaseTerms, h.poolFreed, h.ctxs, h.scheds, h.queues, h.cmds, h.objs, h.fenceWaiters, h.fenceOuts, h.fwq, h.mail, h.instResets, h.numVfs, h.keyMat, h.cvks, h.rtc, h.flash, h.power, h.stops, h.stopSince, h.aon, h.resets, h.pending, h.mems⟩

theorem upd_silkMsgs {M : Nat} {s0 s : State} {v0} (hs : bitsIn 0x800000000000 M = true) (h : Agree M s0 s) :
    Agree M s0 { s with silkMsgs := v0 } :=
  ⟨h.regs, h.latches, h.reply, h.now, h.timeSlew, h.slewAt, h.synced, h.freeCtr, h.nextId, h.cores, h.corePhys, h.kernels, h.ops, h.movers, h.reqs, h.hbm, h.hbmPoison, h.bufs, h.host, h.hostPoison, h.winStart, h.winLen, h.regCounts, h.qosOld, h.missPosted, h.bridgeRun, h.scrubPos, h.tiles, h.stallAt, h.walks, h.tlb, h.wcache, h.tracker, h.invals, h.fqHeld, h.slots, h.gates, h.landing, h.evHeld, h.rings, h.armed, h.msixDue, h.msixLast, h.msix, h.instars, h.instarAt, h.instarDue, bit_off hs rfl, h.silkWaiters, h.silkReplies, h.silkSent, h.ports, h.linkIn, h.linkReqs, h.linkRr, h.peers, h.custody, h.custOp, h.colls, h.bootNonce, h.lastHello, h.lastAdvert, h.lastTime, h.imagos, h.verif, h.leaseTerms, h.poolFreed, h.ctxs, h.scheds, h.queues, h.cmds, h.objs, h.fenceWaiters, h.fenceOuts, h.fwq, h.mail, h.instResets, h.numVfs, h.keyMat, h.cvks, h.rtc, h.flash, h.power, h.stops, h.stopSince, h.aon, h.resets, h.pending, h.mems⟩

theorem upd_silkReplies {M : Nat} {s0 s : State} {v0} (hs : bitsIn 0x2000000000000 M = true) (h : Agree M s0 s) :
    Agree M s0 { s with silkReplies := v0 } :=
  ⟨h.regs, h.latches, h.reply, h.now, h.timeSlew, h.slewAt, h.synced, h.freeCtr, h.nextId, h.cores, h.corePhys, h.kernels, h.ops, h.movers, h.reqs, h.hbm, h.hbmPoison, h.bufs, h.host, h.hostPoison, h.winStart, h.winLen, h.regCounts, h.qosOld, h.missPosted, h.bridgeRun, h.scrubPos, h.tiles, h.stallAt, h.walks, h.tlb, h.wcache, h.tracker, h.invals, h.fqHeld, h.slots, h.gates, h.landing, h.evHeld, h.rings, h.armed, h.msixDue, h.msixLast, h.msix, h.instars, h.instarAt, h.instarDue, h.silkMsgs, h.silkWaiters, bit_off hs rfl, h.silkSent, h.ports, h.linkIn, h.linkReqs, h.linkRr, h.peers, h.custody, h.custOp, h.colls, h.bootNonce, h.lastHello, h.lastAdvert, h.lastTime, h.imagos, h.verif, h.leaseTerms, h.poolFreed, h.ctxs, h.scheds, h.queues, h.cmds, h.objs, h.fenceWaiters, h.fenceOuts, h.fwq, h.mail, h.instResets, h.numVfs, h.keyMat, h.cvks, h.rtc, h.flash, h.power, h.stops, h.stopSince, h.aon, h.resets, h.pending, h.mems⟩

theorem upd_silkSent {M : Nat} {s0 s : State} {v0} (hs : bitsIn 0x4000000000000 M = true) (h : Agree M s0 s) :
    Agree M s0 { s with silkSent := v0 } :=
  ⟨h.regs, h.latches, h.reply, h.now, h.timeSlew, h.slewAt, h.synced, h.freeCtr, h.nextId, h.cores, h.corePhys, h.kernels, h.ops, h.movers, h.reqs, h.hbm, h.hbmPoison, h.bufs, h.host, h.hostPoison, h.winStart, h.winLen, h.regCounts, h.qosOld, h.missPosted, h.bridgeRun, h.scrubPos, h.tiles, h.stallAt, h.walks, h.tlb, h.wcache, h.tracker, h.invals, h.fqHeld, h.slots, h.gates, h.landing, h.evHeld, h.rings, h.armed, h.msixDue, h.msixLast, h.msix, h.instars, h.instarAt, h.instarDue, h.silkMsgs, h.silkWaiters, h.silkReplies, bit_off hs rfl, h.ports, h.linkIn, h.linkReqs, h.linkRr, h.peers, h.custody, h.custOp, h.colls, h.bootNonce, h.lastHello, h.lastAdvert, h.lastTime, h.imagos, h.verif, h.leaseTerms, h.poolFreed, h.ctxs, h.scheds, h.queues, h.cmds, h.objs, h.fenceWaiters, h.fenceOuts, h.fwq, h.mail, h.instResets, h.numVfs, h.keyMat, h.cvks, h.rtc, h.flash, h.power, h.stops, h.stopSince, h.aon, h.resets, h.pending, h.mems⟩

theorem upd_silkWaiters {M : Nat} {s0 s : State} {v0} (hs : bitsIn 0x1000000000000 M = true) (h : Agree M s0 s) :
    Agree M s0 { s with silkWaiters := v0 } :=
  ⟨h.regs, h.latches, h.reply, h.now, h.timeSlew, h.slewAt, h.synced, h.freeCtr, h.nextId, h.cores, h.corePhys, h.kernels, h.ops, h.movers, h.reqs, h.hbm, h.hbmPoison, h.bufs, h.host, h.hostPoison, h.winStart, h.winLen, h.regCounts, h.qosOld, h.missPosted, h.bridgeRun, h.scrubPos, h.tiles, h.stallAt, h.walks, h.tlb, h.wcache, h.tracker, h.invals, h.fqHeld, h.slots, h.gates, h.landing, h.evHeld, h.rings, h.armed, h.msixDue, h.msixLast, h.msix, h.instars, h.instarAt, h.instarDue, h.silkMsgs, bit_off hs rfl, h.silkReplies, h.silkSent, h.ports, h.linkIn, h.linkReqs, h.linkRr, h.peers, h.custody, h.custOp, h.colls, h.bootNonce, h.lastHello, h.lastAdvert, h.lastTime, h.imagos, h.verif, h.leaseTerms, h.poolFreed, h.ctxs, h.scheds, h.queues, h.cmds, h.objs, h.fenceWaiters, h.fenceOuts, h.fwq, h.mail, h.instResets, h.numVfs, h.keyMat, h.cvks, h.rtc, h.flash, h.power, h.stops, h.stopSince, h.aon, h.resets, h.pending, h.mems⟩

theorem upd_slots {M : Nat} {s0 s : State} {v0} (hs : bitsIn 0x800000000 M = true) (h : Agree M s0 s) :
    Agree M s0 { s with slots := v0 } :=
  ⟨h.regs, h.latches, h.reply, h.now, h.timeSlew, h.slewAt, h.synced, h.freeCtr, h.nextId, h.cores, h.corePhys, h.kernels, h.ops, h.movers, h.reqs, h.hbm, h.hbmPoison, h.bufs, h.host, h.hostPoison, h.winStart, h.winLen, h.regCounts, h.qosOld, h.missPosted, h.bridgeRun, h.scrubPos, h.tiles, h.stallAt, h.walks, h.tlb, h.wcache, h.tracker, h.invals, h.fqHeld, bit_off hs rfl, h.gates, h.landing, h.evHeld, h.rings, h.armed, h.msixDue, h.msixLast, h.msix, h.instars, h.instarAt, h.instarDue, h.silkMsgs, h.silkWaiters, h.silkReplies, h.silkSent, h.ports, h.linkIn, h.linkReqs, h.linkRr, h.peers, h.custody, h.custOp, h.colls, h.bootNonce, h.lastHello, h.lastAdvert, h.lastTime, h.imagos, h.verif, h.leaseTerms, h.poolFreed, h.ctxs, h.scheds, h.queues, h.cmds, h.objs, h.fenceWaiters, h.fenceOuts, h.fwq, h.mail, h.instResets, h.numVfs, h.keyMat, h.cvks, h.rtc, h.flash, h.power, h.stops, h.stopSince, h.aon, h.resets, h.pending, h.mems⟩

theorem upd_stallAt {M : Nat} {s0 s : State} {v0} (hs : bitsIn 0x10000000 M = true) (h : Agree M s0 s) :
    Agree M s0 { s with stallAt := v0 } :=
  ⟨h.regs, h.latches, h.reply, h.now, h.timeSlew, h.slewAt, h.synced, h.freeCtr, h.nextId, h.cores, h.corePhys, h.kernels, h.ops, h.movers, h.reqs, h.hbm, h.hbmPoison, h.bufs, h.host, h.hostPoison, h.winStart, h.winLen, h.regCounts, h.qosOld, h.missPosted, h.bridgeRun, h.scrubPos, h.tiles, bit_off hs rfl, h.walks, h.tlb, h.wcache, h.tracker, h.invals, h.fqHeld, h.slots, h.gates, h.landing, h.evHeld, h.rings, h.armed, h.msixDue, h.msixLast, h.msix, h.instars, h.instarAt, h.instarDue, h.silkMsgs, h.silkWaiters, h.silkReplies, h.silkSent, h.ports, h.linkIn, h.linkReqs, h.linkRr, h.peers, h.custody, h.custOp, h.colls, h.bootNonce, h.lastHello, h.lastAdvert, h.lastTime, h.imagos, h.verif, h.leaseTerms, h.poolFreed, h.ctxs, h.scheds, h.queues, h.cmds, h.objs, h.fenceWaiters, h.fenceOuts, h.fwq, h.mail, h.instResets, h.numVfs, h.keyMat, h.cvks, h.rtc, h.flash, h.power, h.stops, h.stopSince, h.aon, h.resets, h.pending, h.mems⟩

theorem upd_stopSince {M : Nat} {s0 s : State} {v0} (hs : bitsIn 0x1000000000000000000000 M = true) (h : Agree M s0 s) :
    Agree M s0 { s with stopSince := v0 } :=
  ⟨h.regs, h.latches, h.reply, h.now, h.timeSlew, h.slewAt, h.synced, h.freeCtr, h.nextId, h.cores, h.corePhys, h.kernels, h.ops, h.movers, h.reqs, h.hbm, h.hbmPoison, h.bufs, h.host, h.hostPoison, h.winStart, h.winLen, h.regCounts, h.qosOld, h.missPosted, h.bridgeRun, h.scrubPos, h.tiles, h.stallAt, h.walks, h.tlb, h.wcache, h.tracker, h.invals, h.fqHeld, h.slots, h.gates, h.landing, h.evHeld, h.rings, h.armed, h.msixDue, h.msixLast, h.msix, h.instars, h.instarAt, h.instarDue, h.silkMsgs, h.silkWaiters, h.silkReplies, h.silkSent, h.ports, h.linkIn, h.linkReqs, h.linkRr, h.peers, h.custody, h.custOp, h.colls, h.bootNonce, h.lastHello, h.lastAdvert, h.lastTime, h.imagos, h.verif, h.leaseTerms, h.poolFreed, h.ctxs, h.scheds, h.queues, h.cmds, h.objs, h.fenceWaiters, h.fenceOuts, h.fwq, h.mail, h.instResets, h.numVfs, h.keyMat, h.cvks, h.rtc, h.flash, h.power, h.stops, bit_off hs rfl, h.aon, h.resets, h.pending, h.mems⟩

theorem upd_synced {M : Nat} {s0 s : State} {v0} (hs : bitsIn 0x40 M = true) (h : Agree M s0 s) :
    Agree M s0 { s with synced := v0 } :=
  ⟨h.regs, h.latches, h.reply, h.now, h.timeSlew, h.slewAt, bit_off hs rfl, h.freeCtr, h.nextId, h.cores, h.corePhys, h.kernels, h.ops, h.movers, h.reqs, h.hbm, h.hbmPoison, h.bufs, h.host, h.hostPoison, h.winStart, h.winLen, h.regCounts, h.qosOld, h.missPosted, h.bridgeRun, h.scrubPos, h.tiles, h.stallAt, h.walks, h.tlb, h.wcache, h.tracker, h.invals, h.fqHeld, h.slots, h.gates, h.landing, h.evHeld, h.rings, h.armed, h.msixDue, h.msixLast, h.msix, h.instars, h.instarAt, h.instarDue, h.silkMsgs, h.silkWaiters, h.silkReplies, h.silkSent, h.ports, h.linkIn, h.linkReqs, h.linkRr, h.peers, h.custody, h.custOp, h.colls, h.bootNonce, h.lastHello, h.lastAdvert, h.lastTime, h.imagos, h.verif, h.leaseTerms, h.poolFreed, h.ctxs, h.scheds, h.queues, h.cmds, h.objs, h.fenceWaiters, h.fenceOuts, h.fwq, h.mail, h.instResets, h.numVfs, h.keyMat, h.cvks, h.rtc, h.flash, h.power, h.stops, h.stopSince, h.aon, h.resets, h.pending, h.mems⟩

theorem upd_tiles {M : Nat} {s0 s : State} {v0} (hs : bitsIn 0x8000000 M = true) (h : Agree M s0 s) :
    Agree M s0 { s with tiles := v0 } :=
  ⟨h.regs, h.latches, h.reply, h.now, h.timeSlew, h.slewAt, h.synced, h.freeCtr, h.nextId, h.cores, h.corePhys, h.kernels, h.ops, h.movers, h.reqs, h.hbm, h.hbmPoison, h.bufs, h.host, h.hostPoison, h.winStart, h.winLen, h.regCounts, h.qosOld, h.missPosted, h.bridgeRun, h.scrubPos, bit_off hs rfl, h.stallAt, h.walks, h.tlb, h.wcache, h.tracker, h.invals, h.fqHeld, h.slots, h.gates, h.landing, h.evHeld, h.rings, h.armed, h.msixDue, h.msixLast, h.msix, h.instars, h.instarAt, h.instarDue, h.silkMsgs, h.silkWaiters, h.silkReplies, h.silkSent, h.ports, h.linkIn, h.linkReqs, h.linkRr, h.peers, h.custody, h.custOp, h.colls, h.bootNonce, h.lastHello, h.lastAdvert, h.lastTime, h.imagos, h.verif, h.leaseTerms, h.poolFreed, h.ctxs, h.scheds, h.queues, h.cmds, h.objs, h.fenceWaiters, h.fenceOuts, h.fwq, h.mail, h.instResets, h.numVfs, h.keyMat, h.cvks, h.rtc, h.flash, h.power, h.stops, h.stopSince, h.aon, h.resets, h.pending, h.mems⟩

theorem upd_timeSlew {M : Nat} {s0 s : State} {v0} (hs : bitsIn 0x10 M = true) (h : Agree M s0 s) :
    Agree M s0 { s with timeSlew := v0 } :=
  ⟨h.regs, h.latches, h.reply, h.now, bit_off hs rfl, h.slewAt, h.synced, h.freeCtr, h.nextId, h.cores, h.corePhys, h.kernels, h.ops, h.movers, h.reqs, h.hbm, h.hbmPoison, h.bufs, h.host, h.hostPoison, h.winStart, h.winLen, h.regCounts, h.qosOld, h.missPosted, h.bridgeRun, h.scrubPos, h.tiles, h.stallAt, h.walks, h.tlb, h.wcache, h.tracker, h.invals, h.fqHeld, h.slots, h.gates, h.landing, h.evHeld, h.rings, h.armed, h.msixDue, h.msixLast, h.msix, h.instars, h.instarAt, h.instarDue, h.silkMsgs, h.silkWaiters, h.silkReplies, h.silkSent, h.ports, h.linkIn, h.linkReqs, h.linkRr, h.peers, h.custody, h.custOp, h.colls, h.bootNonce, h.lastHello, h.lastAdvert, h.lastTime, h.imagos, h.verif, h.leaseTerms, h.poolFreed, h.ctxs, h.scheds, h.queues, h.cmds, h.objs, h.fenceWaiters, h.fenceOuts, h.fwq, h.mail, h.instResets, h.numVfs, h.keyMat, h.cvks, h.rtc, h.flash, h.power, h.stops, h.stopSince, h.aon, h.resets, h.pending, h.mems⟩

theorem upd_tlb {M : Nat} {s0 s : State} {v0} (hs : bitsIn 0x40000000 M = true) (h : Agree M s0 s) :
    Agree M s0 { s with tlb := v0 } :=
  ⟨h.regs, h.latches, h.reply, h.now, h.timeSlew, h.slewAt, h.synced, h.freeCtr, h.nextId, h.cores, h.corePhys, h.kernels, h.ops, h.movers, h.reqs, h.hbm, h.hbmPoison, h.bufs, h.host, h.hostPoison, h.winStart, h.winLen, h.regCounts, h.qosOld, h.missPosted, h.bridgeRun, h.scrubPos, h.tiles, h.stallAt, h.walks, bit_off hs rfl, h.wcache, h.tracker, h.invals, h.fqHeld, h.slots, h.gates, h.landing, h.evHeld, h.rings, h.armed, h.msixDue, h.msixLast, h.msix, h.instars, h.instarAt, h.instarDue, h.silkMsgs, h.silkWaiters, h.silkReplies, h.silkSent, h.ports, h.linkIn, h.linkReqs, h.linkRr, h.peers, h.custody, h.custOp, h.colls, h.bootNonce, h.lastHello, h.lastAdvert, h.lastTime, h.imagos, h.verif, h.leaseTerms, h.poolFreed, h.ctxs, h.scheds, h.queues, h.cmds, h.objs, h.fenceWaiters, h.fenceOuts, h.fwq, h.mail, h.instResets, h.numVfs, h.keyMat, h.cvks, h.rtc, h.flash, h.power, h.stops, h.stopSince, h.aon, h.resets, h.pending, h.mems⟩

theorem upd_tracker {M : Nat} {s0 s : State} {v0} (hs : bitsIn 0x100000000 M = true) (h : Agree M s0 s) :
    Agree M s0 { s with tracker := v0 } :=
  ⟨h.regs, h.latches, h.reply, h.now, h.timeSlew, h.slewAt, h.synced, h.freeCtr, h.nextId, h.cores, h.corePhys, h.kernels, h.ops, h.movers, h.reqs, h.hbm, h.hbmPoison, h.bufs, h.host, h.hostPoison, h.winStart, h.winLen, h.regCounts, h.qosOld, h.missPosted, h.bridgeRun, h.scrubPos, h.tiles, h.stallAt, h.walks, h.tlb, h.wcache, bit_off hs rfl, h.invals, h.fqHeld, h.slots, h.gates, h.landing, h.evHeld, h.rings, h.armed, h.msixDue, h.msixLast, h.msix, h.instars, h.instarAt, h.instarDue, h.silkMsgs, h.silkWaiters, h.silkReplies, h.silkSent, h.ports, h.linkIn, h.linkReqs, h.linkRr, h.peers, h.custody, h.custOp, h.colls, h.bootNonce, h.lastHello, h.lastAdvert, h.lastTime, h.imagos, h.verif, h.leaseTerms, h.poolFreed, h.ctxs, h.scheds, h.queues, h.cmds, h.objs, h.fenceWaiters, h.fenceOuts, h.fwq, h.mail, h.instResets, h.numVfs, h.keyMat, h.cvks, h.rtc, h.flash, h.power, h.stops, h.stopSince, h.aon, h.resets, h.pending, h.mems⟩

theorem upd_verif {M : Nat} {s0 s : State} {v0} (hs : bitsIn 0x10000000000000000 M = true) (h : Agree M s0 s) :
    Agree M s0 { s with verif := v0 } :=
  ⟨h.regs, h.latches, h.reply, h.now, h.timeSlew, h.slewAt, h.synced, h.freeCtr, h.nextId, h.cores, h.corePhys, h.kernels, h.ops, h.movers, h.reqs, h.hbm, h.hbmPoison, h.bufs, h.host, h.hostPoison, h.winStart, h.winLen, h.regCounts, h.qosOld, h.missPosted, h.bridgeRun, h.scrubPos, h.tiles, h.stallAt, h.walks, h.tlb, h.wcache, h.tracker, h.invals, h.fqHeld, h.slots, h.gates, h.landing, h.evHeld, h.rings, h.armed, h.msixDue, h.msixLast, h.msix, h.instars, h.instarAt, h.instarDue, h.silkMsgs, h.silkWaiters, h.silkReplies, h.silkSent, h.ports, h.linkIn, h.linkReqs, h.linkRr, h.peers, h.custody, h.custOp, h.colls, h.bootNonce, h.lastHello, h.lastAdvert, h.lastTime, h.imagos, bit_off hs rfl, h.leaseTerms, h.poolFreed, h.ctxs, h.scheds, h.queues, h.cmds, h.objs, h.fenceWaiters, h.fenceOuts, h.fwq, h.mail, h.instResets, h.numVfs, h.keyMat, h.cvks, h.rtc, h.flash, h.power, h.stops, h.stopSince, h.aon, h.resets, h.pending, h.mems⟩

theorem upd_walks {M : Nat} {s0 s : State} {v0} (hs : bitsIn 0x20000000 M = true) (h : Agree M s0 s) :
    Agree M s0 { s with walks := v0 } :=
  ⟨h.regs, h.latches, h.reply, h.now, h.timeSlew, h.slewAt, h.synced, h.freeCtr, h.nextId, h.cores, h.corePhys, h.kernels, h.ops, h.movers, h.reqs, h.hbm, h.hbmPoison, h.bufs, h.host, h.hostPoison, h.winStart, h.winLen, h.regCounts, h.qosOld, h.missPosted, h.bridgeRun, h.scrubPos, h.tiles, h.stallAt, bit_off hs rfl, h.tlb, h.wcache, h.tracker, h.invals, h.fqHeld, h.slots, h.gates, h.landing, h.evHeld, h.rings, h.armed, h.msixDue, h.msixLast, h.msix, h.instars, h.instarAt, h.instarDue, h.silkMsgs, h.silkWaiters, h.silkReplies, h.silkSent, h.ports, h.linkIn, h.linkReqs, h.linkRr, h.peers, h.custody, h.custOp, h.colls, h.bootNonce, h.lastHello, h.lastAdvert, h.lastTime, h.imagos, h.verif, h.leaseTerms, h.poolFreed, h.ctxs, h.scheds, h.queues, h.cmds, h.objs, h.fenceWaiters, h.fenceOuts, h.fwq, h.mail, h.instResets, h.numVfs, h.keyMat, h.cvks, h.rtc, h.flash, h.power, h.stops, h.stopSince, h.aon, h.resets, h.pending, h.mems⟩

theorem upd_wcache {M : Nat} {s0 s : State} {v0} (hs : bitsIn 0x80000000 M = true) (h : Agree M s0 s) :
    Agree M s0 { s with wcache := v0 } :=
  ⟨h.regs, h.latches, h.reply, h.now, h.timeSlew, h.slewAt, h.synced, h.freeCtr, h.nextId, h.cores, h.corePhys, h.kernels, h.ops, h.movers, h.reqs, h.hbm, h.hbmPoison, h.bufs, h.host, h.hostPoison, h.winStart, h.winLen, h.regCounts, h.qosOld, h.missPosted, h.bridgeRun, h.scrubPos, h.tiles, h.stallAt, h.walks, h.tlb, bit_off hs rfl, h.tracker, h.invals, h.fqHeld, h.slots, h.gates, h.landing, h.evHeld, h.rings, h.armed, h.msixDue, h.msixLast, h.msix, h.instars, h.instarAt, h.instarDue, h.silkMsgs, h.silkWaiters, h.silkReplies, h.silkSent, h.ports, h.linkIn, h.linkReqs, h.linkRr, h.peers, h.custody, h.custOp, h.colls, h.bootNonce, h.lastHello, h.lastAdvert, h.lastTime, h.imagos, h.verif, h.leaseTerms, h.poolFreed, h.ctxs, h.scheds, h.queues, h.cmds, h.objs, h.fenceWaiters, h.fenceOuts, h.fwq, h.mail, h.instResets, h.numVfs, h.keyMat, h.cvks, h.rtc, h.flash, h.power, h.stops, h.stopSince, h.aon, h.resets, h.pending, h.mems⟩

theorem upd_ctxs_objs {M : Nat} {s0 s : State} {v0} {v1} (hs : bitsIn 0x880000000000000000 M = true) (h : Agree M s0 s) :
    Agree M s0 { s with ctxs := v0, objs := v1 } :=
  ⟨h.regs, h.latches, h.reply, h.now, h.timeSlew, h.slewAt, h.synced, h.freeCtr, h.nextId, h.cores, h.corePhys, h.kernels, h.ops, h.movers, h.reqs, h.hbm, h.hbmPoison, h.bufs, h.host, h.hostPoison, h.winStart, h.winLen, h.regCounts, h.qosOld, h.missPosted, h.bridgeRun, h.scrubPos, h.tiles, h.stallAt, h.walks, h.tlb, h.wcache, h.tracker, h.invals, h.fqHeld, h.slots, h.gates, h.landing, h.evHeld, h.rings, h.armed, h.msixDue, h.msixLast, h.msix, h.instars, h.instarAt, h.instarDue, h.silkMsgs, h.silkWaiters, h.silkReplies, h.silkSent, h.ports, h.linkIn, h.linkReqs, h.linkRr, h.peers, h.custody, h.custOp, h.colls, h.bootNonce, h.lastHello, h.lastAdvert, h.lastTime, h.imagos, h.verif, h.leaseTerms, h.poolFreed, bit_off hs rfl, h.scheds, h.queues, h.cmds, bit_off hs rfl, h.fenceWaiters, h.fenceOuts, h.fwq, h.mail, h.instResets, h.numVfs, h.keyMat, h.cvks, h.rtc, h.flash, h.power, h.stops, h.stopSince, h.aon, h.resets, h.pending, h.mems⟩

theorem upd_cvks_flash {M : Nat} {s0 s : State} {v0} {v1} (hs : bitsIn 0x280000000000000000000 M = true) (h : Agree M s0 s) :
    Agree M s0 { s with cvks := v0, flash := v1 } :=
  ⟨h.regs, h.latches, h.reply, h.now, h.timeSlew, h.slewAt, h.synced, h.freeCtr, h.nextId, h.cores, h.corePhys, h.kernels, h.ops, h.movers, h.reqs, h.hbm, h.hbmPoison, h.bufs, h.host, h.hostPoison, h.winStart, h.winLen, h.regCounts, h.qosOld, h.missPosted, h.bridgeRun, h.scrubPos, h.tiles, h.stallAt, h.walks, h.tlb, h.wcache, h.tracker, h.invals, h.fqHeld, h.slots, h.gates, h.landing, h.evHeld, h.rings, h.armed, h.msixDue, h.msixLast, h.msix, h.instars, h.instarAt, h.instarDue, h.silkMsgs, h.silkWaiters, h.silkReplies, h.silkSent, h.ports, h.linkIn, h.linkReqs, h.linkRr, h.peers, h.custody, h.custOp, h.colls, h.bootNonce, h.lastHello, h.lastAdvert, h.lastTime, h.imagos, h.verif, h.leaseTerms, h.poolFreed, h.ctxs, h.scheds, h.queues, h.cmds, h.objs, h.fenceWaiters, h.fenceOuts, h.fwq, h.mail, h.instResets, h.numVfs, h.keyMat, bit_off hs rfl, h.rtc, bit_off hs rfl, h.power, h.stops, h.stopSince, h.aon, h.resets, h.pending, h.mems⟩

theorem upd_fenceWaiters_fenceOuts {M : Nat} {s0 s : State} {v0} {v1} (hs : bitsIn 0x3000000000000000000 M = true) (h : Agree M s0 s) :
    Agree M s0 { s with fenceWaiters := v0, fenceOuts := v1 } :=
  ⟨h.regs, h.latches, h.reply, h.now, h.timeSlew, h.slewAt, h.synced, h.freeCtr, h.nextId, h.cores, h.corePhys, h.kernels, h.ops, h.movers, h.reqs, h.hbm, h.hbmPoison, h.bufs, h.host, h.hostPoison, h.winStart, h.winLen, h.regCounts, h.qosOld, h.missPosted, h.bridgeRun, h.scrubPos, h.tiles, h.stallAt, h.walks, h.tlb, h.wcache, h.tracker, h.invals, h.fqHeld, h.slots, h.gates, h.landing, h.evHeld, h.rings, h.armed, h.msixDue, h.msixLast, h.msix, h.instars, h.instarAt, h.instarDue, h.silkMsgs, h.silkWaiters, h.silkReplies, h.silkSent, h.ports, h.linkIn, h.linkReqs, h.linkRr, h.peers, h.custody, h.custOp, h.colls, h.bootNonce, h.lastHello, h.lastAdvert, h.lastTime, h.imagos, h.verif, h.leaseTerms, h.poolFreed, h.ctxs, h.scheds, h.queues, h.cmds, h.objs, bit_off hs rfl, bit_off hs rfl, h.fwq, h.mail, h.instResets, h.numVfs, h.keyMat, h.cvks, h.rtc, h.flash, h.power, h.stops, h.stopSince, h.aon, h.resets, h.pending, h.mems⟩

theorem upd_flash_aon {M : Nat} {s0 s : State} {v0} {v1} (hs : bitsIn 0x2200000000000000000000 M = true) (h : Agree M s0 s) :
    Agree M s0 { s with flash := v0, aon := v1 } :=
  ⟨h.regs, h.latches, h.reply, h.now, h.timeSlew, h.slewAt, h.synced, h.freeCtr, h.nextId, h.cores, h.corePhys, h.kernels, h.ops, h.movers, h.reqs, h.hbm, h.hbmPoison, h.bufs, h.host, h.hostPoison, h.winStart, h.winLen, h.regCounts, h.qosOld, h.missPosted, h.bridgeRun, h.scrubPos, h.tiles, h.stallAt, h.walks, h.tlb, h.wcache, h.tracker, h.invals, h.fqHeld, h.slots, h.gates, h.landing, h.evHeld, h.rings, h.armed, h.msixDue, h.msixLast, h.msix, h.instars, h.instarAt, h.instarDue, h.silkMsgs, h.silkWaiters, h.silkReplies, h.silkSent, h.ports, h.linkIn, h.linkReqs, h.linkRr, h.peers, h.custody, h.custOp, h.colls, h.bootNonce, h.lastHello, h.lastAdvert, h.lastTime, h.imagos, h.verif, h.leaseTerms, h.poolFreed, h.ctxs, h.scheds, h.queues, h.cmds, h.objs, h.fenceWaiters, h.fenceOuts, h.fwq, h.mail, h.instResets, h.numVfs, h.keyMat, h.cvks, h.rtc, bit_off hs rfl, h.power, h.stops, h.stopSince, bit_off hs rfl, h.resets, h.pending, h.mems⟩

theorem upd_flash_power {M : Nat} {s0 s : State} {v0} {v1} (hs : bitsIn 0x600000000000000000000 M = true) (h : Agree M s0 s) :
    Agree M s0 { s with flash := v0, power := v1 } :=
  ⟨h.regs, h.latches, h.reply, h.now, h.timeSlew, h.slewAt, h.synced, h.freeCtr, h.nextId, h.cores, h.corePhys, h.kernels, h.ops, h.movers, h.reqs, h.hbm, h.hbmPoison, h.bufs, h.host, h.hostPoison, h.winStart, h.winLen, h.regCounts, h.qosOld, h.missPosted, h.bridgeRun, h.scrubPos, h.tiles, h.stallAt, h.walks, h.tlb, h.wcache, h.tracker, h.invals, h.fqHeld, h.slots, h.gates, h.landing, h.evHeld, h.rings, h.armed, h.msixDue, h.msixLast, h.msix, h.instars, h.instarAt, h.instarDue, h.silkMsgs, h.silkWaiters, h.silkReplies, h.silkSent, h.ports, h.linkIn, h.linkReqs, h.linkRr, h.peers, h.custody, h.custOp, h.colls, h.bootNonce, h.lastHello, h.lastAdvert, h.lastTime, h.imagos, h.verif, h.leaseTerms, h.poolFreed, h.ctxs, h.scheds, h.queues, h.cmds, h.objs, h.fenceWaiters, h.fenceOuts, h.fwq, h.mail, h.instResets, h.numVfs, h.keyMat, h.cvks, h.rtc, bit_off hs rfl, bit_off hs rfl, h.stops, h.stopSince, h.aon, h.resets, h.pending, h.mems⟩

theorem upd_fwq_mail {M : Nat} {s0 s : State} {v0} {v1} (hs : bitsIn 0xc000000000000000000 M = true) (h : Agree M s0 s) :
    Agree M s0 { s with fwq := v0, mail := v1 } :=
  ⟨h.regs, h.latches, h.reply, h.now, h.timeSlew, h.slewAt, h.synced, h.freeCtr, h.nextId, h.cores, h.corePhys, h.kernels, h.ops, h.movers, h.reqs, h.hbm, h.hbmPoison, h.bufs, h.host, h.hostPoison, h.winStart, h.winLen, h.regCounts, h.qosOld, h.missPosted, h.bridgeRun, h.scrubPos, h.tiles, h.stallAt, h.walks, h.tlb, h.wcache, h.tracker, h.invals, h.fqHeld, h.slots, h.gates, h.landing, h.evHeld, h.rings, h.armed, h.msixDue, h.msixLast, h.msix, h.instars, h.instarAt, h.instarDue, h.silkMsgs, h.silkWaiters, h.silkReplies, h.silkSent, h.ports, h.linkIn, h.linkReqs, h.linkRr, h.peers, h.custody, h.custOp, h.colls, h.bootNonce, h.lastHello, h.lastAdvert, h.lastTime, h.imagos, h.verif, h.leaseTerms, h.poolFreed, h.ctxs, h.scheds, h.queues, h.cmds, h.objs, h.fenceWaiters, h.fenceOuts, bit_off hs rfl, bit_off hs rfl, h.instResets, h.numVfs, h.keyMat, h.cvks, h.rtc, h.flash, h.power, h.stops, h.stopSince, h.aon, h.resets, h.pending, h.mems⟩

theorem upd_hbm_hbmPoison {M : Nat} {s0 s : State} {v0} {v1} (hs : bitsIn 0x18000 M = true)
    (hw : MemOf s0 s { s with hbm := v0, hbmPoison := v1 }) (h : Agree M s0 s) :
    Agree M s0 { s with hbm := v0, hbmPoison := v1 } :=
  ⟨h.regs, h.latches, h.reply, h.now, h.timeSlew, h.slewAt, h.synced, h.freeCtr, h.nextId, h.cores, h.corePhys, h.kernels, h.ops, h.movers, h.reqs, bit_off hs rfl, bit_off hs rfl, h.bufs, h.host, h.hostPoison, h.winStart, h.winLen, h.regCounts, h.qosOld, h.missPosted, h.bridgeRun, h.scrubPos, h.tiles, h.stallAt, h.walks, h.tlb, h.wcache, h.tracker, h.invals, h.fqHeld, h.slots, h.gates, h.landing, h.evHeld, h.rings, h.armed, h.msixDue, h.msixLast, h.msix, h.instars, h.instarAt, h.instarDue, h.silkMsgs, h.silkWaiters, h.silkReplies, h.silkSent, h.ports, h.linkIn, h.linkReqs, h.linkRr, h.peers, h.custody, h.custOp, h.colls, h.bootNonce, h.lastHello, h.lastAdvert, h.lastTime, h.imagos, h.verif, h.leaseTerms, h.poolFreed, h.ctxs, h.scheds, h.queues, h.cmds, h.objs, h.fenceWaiters, h.fenceOuts, h.fwq, h.mail, h.instResets, h.numVfs, h.keyMat, h.cvks, h.rtc, h.flash, h.power, h.stops, h.stopSince, h.aon, h.resets, h.pending, fun w => hw w (h.mems w)⟩

theorem upd_host_ctxs {M : Nat} {s0 s : State} {v0} {v1} (hs : bitsIn 0x80000000000040000 M = true)
    (hw : MemOf s0 s { s with host := v0, ctxs := v1 }) (h : Agree M s0 s) :
    Agree M s0 { s with host := v0, ctxs := v1 } :=
  ⟨h.regs, h.latches, h.reply, h.now, h.timeSlew, h.slewAt, h.synced, h.freeCtr, h.nextId, h.cores, h.corePhys, h.kernels, h.ops, h.movers, h.reqs, h.hbm, h.hbmPoison, h.bufs, bit_off hs rfl, h.hostPoison, h.winStart, h.winLen, h.regCounts, h.qosOld, h.missPosted, h.bridgeRun, h.scrubPos, h.tiles, h.stallAt, h.walks, h.tlb, h.wcache, h.tracker, h.invals, h.fqHeld, h.slots, h.gates, h.landing, h.evHeld, h.rings, h.armed, h.msixDue, h.msixLast, h.msix, h.instars, h.instarAt, h.instarDue, h.silkMsgs, h.silkWaiters, h.silkReplies, h.silkSent, h.ports, h.linkIn, h.linkReqs, h.linkRr, h.peers, h.custody, h.custOp, h.colls, h.bootNonce, h.lastHello, h.lastAdvert, h.lastTime, h.imagos, h.verif, h.leaseTerms, h.poolFreed, bit_off hs rfl, h.scheds, h.queues, h.cmds, h.objs, h.fenceWaiters, h.fenceOuts, h.fwq, h.mail, h.instResets, h.numVfs, h.keyMat, h.cvks, h.rtc, h.flash, h.power, h.stops, h.stopSince, h.aon, h.resets, h.pending, fun w => hw w (h.mems w)⟩

theorem upd_host_slots {M : Nat} {s0 s : State} {v0} {v1} (hs : bitsIn 0x800040000 M = true)
    (hw : MemOf s0 s { s with host := v0, slots := v1 }) (h : Agree M s0 s) :
    Agree M s0 { s with host := v0, slots := v1 } :=
  ⟨h.regs, h.latches, h.reply, h.now, h.timeSlew, h.slewAt, h.synced, h.freeCtr, h.nextId, h.cores, h.corePhys, h.kernels, h.ops, h.movers, h.reqs, h.hbm, h.hbmPoison, h.bufs, bit_off hs rfl, h.hostPoison, h.winStart, h.winLen, h.regCounts, h.qosOld, h.missPosted, h.bridgeRun, h.scrubPos, h.tiles, h.stallAt, h.walks, h.tlb, h.wcache, h.tracker, h.invals, h.fqHeld, bit_off hs rfl, h.gates, h.landing, h.evHeld, h.rings, h.armed, h.msixDue, h.msixLast, h.msix, h.instars, h.instarAt, h.instarDue, h.silkMsgs, h.silkWaiters, h.silkReplies, h.silkSent, h.ports, h.linkIn, h.linkReqs, h.linkRr, h.peers, h.custody, h.custOp, h.colls, h.bootNonce, h.lastHello, h.lastAdvert, h.lastTime, h.imagos, h.verif, h.leaseTerms, h.poolFreed, h.ctxs, h.scheds, h.queues, h.cmds, h.objs, h.fenceWaiters, h.fenceOuts, h.fwq, h.mail, h.instResets, h.numVfs, h.keyMat, h.cvks, h.rtc, h.flash, h.power, h.stops, h.stopSince, h.aon, h.resets, h.pending, fun w => hw w (h.mems w)⟩

theorem upd_imagos_instResets {M : Nat} {s0 s : State} {v0} {v1} (hs : bitsIn 0x10008000000000000000 M = true) (h : Agree M s0 s) :
    Agree M s0 { s with imagos := v0, instResets := v1 } :=
  ⟨h.regs, h.latches, h.reply, h.now, h.timeSlew, h.slewAt, h.synced, h.freeCtr, h.nextId, h.cores, h.corePhys, h.kernels, h.ops, h.movers, h.reqs, h.hbm, h.hbmPoison, h.bufs, h.host, h.hostPoison, h.winStart, h.winLen, h.regCounts, h.qosOld, h.missPosted, h.bridgeRun, h.scrubPos, h.tiles, h.stallAt, h.walks, h.tlb, h.wcache, h.tracker, h.invals, h.fqHeld, h.slots, h.gates, h.landing, h.evHeld, h.rings, h.armed, h.msixDue, h.msixLast, h.msix, h.instars, h.instarAt, h.instarDue, h.silkMsgs, h.silkWaiters, h.silkReplies, h.silkSent, h.ports, h.linkIn, h.linkReqs, h.linkRr, h.peers, h.custody, h.custOp, h.colls, h.bootNonce, h.lastHello, h.lastAdvert, h.lastTime, bit_off hs rfl, h.verif, h.leaseTerms, h.poolFreed, h.ctxs, h.scheds, h.queues, h.cmds, h.objs, h.fenceWaiters, h.fenceOuts, h.fwq, h.mail, bit_off hs rfl, h.numVfs, h.keyMat, h.cvks, h.rtc, h.flash, h.power, h.stops, h.stopSince, h.aon, h.resets, h.pending, h.mems⟩

theorem upd_instarAt_instarDue {M : Nat} {s0 s : State} {v0} {v1} (hs : bitsIn 0x600000000000 M = true) (h : Agree M s0 s) :
    Agree M s0 { s with instarAt := v0, instarDue := v1 } :=
  ⟨h.regs, h.latches, h.reply, h.now, h.timeSlew, h.slewAt, h.synced, h.freeCtr, h.nextId, h.cores, h.corePhys, h.kernels, h.ops, h.movers, h.reqs, h.hbm, h.hbmPoison, h.bufs, h.host, h.hostPoison, h.winStart, h.winLen, h.regCounts, h.qosOld, h.missPosted, h.bridgeRun, h.scrubPos, h.tiles, h.stallAt, h.walks, h.tlb, h.wcache, h.tracker, h.invals, h.fqHeld, h.slots, h.gates, h.landing, h.evHeld, h.rings, h.armed, h.msixDue, h.msixLast, h.msix, h.instars, bit_off hs rfl, bit_off hs rfl, h.silkMsgs, h.silkWaiters, h.silkReplies, h.silkSent, h.ports, h.linkIn, h.linkReqs, h.linkRr, h.peers, h.custody, h.custOp, h.colls, h.bootNonce, h.lastHello, h.lastAdvert, h.lastTime, h.imagos, h.verif, h.leaseTerms, h.poolFreed, h.ctxs, h.scheds, h.queues, h.cmds, h.objs, h.fenceWaiters, h.fenceOuts, h.fwq, h.mail, h.instResets, h.numVfs, h.keyMat, h.cvks, h.rtc, h.flash, h.power, h.stops, h.stopSince, h.aon, h.resets, h.pending, h.mems⟩

theorem upd_linkIn_linkReqs {M : Nat} {s0 s : State} {v0} {v1} (hs : bitsIn 0x30000000000000 M = true) (h : Agree M s0 s) :
    Agree M s0 { s with linkIn := v0, linkReqs := v1 } :=
  ⟨h.regs, h.latches, h.reply, h.now, h.timeSlew, h.slewAt, h.synced, h.freeCtr, h.nextId, h.cores, h.corePhys, h.kernels, h.ops, h.movers, h.reqs, h.hbm, h.hbmPoison, h.bufs, h.host, h.hostPoison, h.winStart, h.winLen, h.regCounts, h.qosOld, h.missPosted, h.bridgeRun, h.scrubPos, h.tiles, h.stallAt, h.walks, h.tlb, h.wcache, h.tracker, h.invals, h.fqHeld, h.slots, h.gates, h.landing, h.evHeld, h.rings, h.armed, h.msixDue, h.msixLast, h.msix, h.instars, h.instarAt, h.instarDue, h.silkMsgs, h.silkWaiters, h.silkReplies, h.silkSent, h.ports, bit_off hs rfl, bit_off hs rfl, h.linkRr, h.peers, h.custody, h.custOp, h.colls, h.bootNonce, h.lastHello, h.lastAdvert, h.lastTime, h.imagos, h.verif, h.leaseTerms, h.poolFreed, h.ctxs, h.scheds, h.queues, h.cmds, h.objs, h.fenceWaiters, h.fenceOuts, h.fwq, h.mail, h.instResets, h.numVfs, h.keyMat, h.cvks, h.rtc, h.flash, h.power, h.stops, h.stopSince, h.aon, h.resets, h.pending, h.mems⟩

theorem upd_movers_tlb {M : Nat} {s0 s : State} {v0} {v1} (hs : bitsIn 0x40002000 M = true) (h : Agree M s0 s) :
    Agree M s0 { s with movers := v0, tlb := v1 } :=
  ⟨h.regs, h.latches, h.reply, h.now, h.timeSlew, h.slewAt, h.synced, h.freeCtr, h.nextId, h.cores, h.corePhys, h.kernels, h.ops, bit_off hs rfl, h.reqs, h.hbm, h.hbmPoison, h.bufs, h.host, h.hostPoison, h.winStart, h.winLen, h.regCounts, h.qosOld, h.missPosted, h.bridgeRun, h.scrubPos, h.tiles, h.stallAt, h.walks, bit_off hs rfl, h.wcache, h.tracker, h.invals, h.fqHeld, h.slots, h.gates, h.landing, h.evHeld, h.rings, h.armed, h.msixDue, h.msixLast, h.msix, h.instars, h.instarAt, h.instarDue, h.silkMsgs, h.silkWaiters, h.silkReplies, h.silkSent, h.ports, h.linkIn, h.linkReqs, h.linkRr, h.peers, h.custody, h.custOp, h.colls, h.bootNonce, h.lastHello, h.lastAdvert, h.lastTime, h.imagos, h.verif, h.leaseTerms, h.poolFreed, h.ctxs, h.scheds, h.queues, h.cmds, h.objs, h.fenceWaiters, h.fenceOuts, h.fwq, h.mail, h.instResets, h.numVfs, h.keyMat, h.cvks, h.rtc, h.flash, h.power, h.stops, h.stopSince, h.aon, h.resets, h.pending, h.mems⟩

theorem upd_msixDue_msixLast {M : Nat} {s0 s : State} {v0} {v1} (hs : bitsIn 0x60000000000 M = true) (h : Agree M s0 s) :
    Agree M s0 { s with msixDue := v0, msixLast := v1 } :=
  ⟨h.regs, h.latches, h.reply, h.now, h.timeSlew, h.slewAt, h.synced, h.freeCtr, h.nextId, h.cores, h.corePhys, h.kernels, h.ops, h.movers, h.reqs, h.hbm, h.hbmPoison, h.bufs, h.host, h.hostPoison, h.winStart, h.winLen, h.regCounts, h.qosOld, h.missPosted, h.bridgeRun, h.scrubPos, h.tiles, h.stallAt, h.walks, h.tlb, h.wcache, h.tracker, h.invals, h.fqHeld, h.slots, h.gates, h.landing, h.evHeld, h.rings, h.armed, bit_off hs rfl, bit_off hs rfl, h.msix, h.instars, h.instarAt, h.instarDue, h.silkMsgs, h.silkWaiters, h.silkReplies, h.silkSent, h.ports, h.linkIn, h.linkReqs, h.linkRr, h.peers, h.custody, h.custOp, h.colls, h.bootNonce, h.lastHello, h.lastAdvert, h.lastTime, h.imagos, h.verif, h.leaseTerms, h.poolFreed, h.ctxs, h.scheds, h.queues, h.cmds, h.objs, h.fenceWaiters, h.fenceOuts, h.fwq, h.mail, h.instResets, h.numVfs, h.keyMat, h.cvks, h.rtc, h.flash, h.power, h.stops, h.stopSince, h.aon, h.resets, h.pending, h.mems⟩

theorem upd_now_rtc {M : Nat} {s0 s : State} {v0} {v1} (hs : bitsIn 0x100000000000000000008 M = true) (h : Agree M s0 s) :
    Agree M s0 { s with now := v0, rtc := v1 } :=
  ⟨h.regs, h.latches, h.reply, bit_off hs rfl, h.timeSlew, h.slewAt, h.synced, h.freeCtr, h.nextId, h.cores, h.corePhys, h.kernels, h.ops, h.movers, h.reqs, h.hbm, h.hbmPoison, h.bufs, h.host, h.hostPoison, h.winStart, h.winLen, h.regCounts, h.qosOld, h.missPosted, h.bridgeRun, h.scrubPos, h.tiles, h.stallAt, h.walks, h.tlb, h.wcache, h.tracker, h.invals, h.fqHeld, h.slots, h.gates, h.landing, h.evHeld, h.rings, h.armed, h.msixDue, h.msixLast, h.msix, h.instars, h.instarAt, h.instarDue, h.silkMsgs, h.silkWaiters, h.silkReplies, h.silkSent, h.ports, h.linkIn, h.linkReqs, h.linkRr, h.peers, h.custody, h.custOp, h.colls, h.bootNonce, h.lastHello, h.lastAdvert, h.lastTime, h.imagos, h.verif, h.leaseTerms, h.poolFreed, h.ctxs, h.scheds, h.queues, h.cmds, h.objs, h.fenceWaiters, h.fenceOuts, h.fwq, h.mail, h.instResets, h.numVfs, h.keyMat, h.cvks, bit_off hs rfl, h.flash, h.power, h.stops, h.stopSince, h.aon, h.resets, h.pending, h.mems⟩

theorem upd_now_timeSlew {M : Nat} {s0 s : State} {v0} {v1} (hs : bitsIn 0x18 M = true) (h : Agree M s0 s) :
    Agree M s0 { s with now := v0, timeSlew := v1 } :=
  ⟨h.regs, h.latches, h.reply, bit_off hs rfl, bit_off hs rfl, h.slewAt, h.synced, h.freeCtr, h.nextId, h.cores, h.corePhys, h.kernels, h.ops, h.movers, h.reqs, h.hbm, h.hbmPoison, h.bufs, h.host, h.hostPoison, h.winStart, h.winLen, h.regCounts, h.qosOld, h.missPosted, h.bridgeRun, h.scrubPos, h.tiles, h.stallAt, h.walks, h.tlb, h.wcache, h.tracker, h.invals, h.fqHeld, h.slots, h.gates, h.landing, h.evHeld, h.rings, h.armed, h.msixDue, h.msixLast, h.msix, h.instars, h.instarAt, h.instarDue, h.silkMsgs, h.silkWaiters, h.silkReplies, h.silkSent, h.ports, h.linkIn, h.linkReqs, h.linkRr, h.peers, h.custody, h.custOp, h.colls, h.bootNonce, h.lastHello, h.lastAdvert, h.lastTime, h.imagos, h.verif, h.leaseTerms, h.poolFreed, h.ctxs, h.scheds, h.queues, h.cmds, h.objs, h.fenceWaiters, h.fenceOuts, h.fwq, h.mail, h.instResets, h.numVfs, h.keyMat, h.cvks, h.rtc, h.flash, h.power, h.stops, h.stopSince, h.aon, h.resets, h.pending, h.mems⟩

theorem upd_ops_ctxs {M : Nat} {s0 s : State} {v0} {v1} (hs : bitsIn 0x80000000000001000 M = true) (h : Agree M s0 s) :
    Agree M s0 { s with ops := v0, ctxs := v1 } :=
  ⟨h.regs, h.latches, h.reply, h.now, h.timeSlew, h.slewAt, h.synced, h.freeCtr, h.nextId, h.cores, h.corePhys, h.kernels, bit_off hs rfl, h.movers, h.reqs, h.hbm, h.hbmPoison, h.bufs, h.host, h.hostPoison, h.winStart, h.winLen, h.regCounts, h.qosOld, h.missPosted, h.bridgeRun, h.scrubPos, h.tiles, h.stallAt, h.walks, h.tlb, h.wcache, h.tracker, h.invals, h.fqHeld, h.slots, h.gates, h.landing, h.evHeld, h.rings, h.armed, h.msixDue, h.msixLast, h.msix, h.instars, h.instarAt, h.instarDue, h.silkMsgs, h.silkWaiters, h.silkReplies, h.silkSent, h.ports, h.linkIn, h.linkReqs, h.linkRr, h.peers, h.custody, h.custOp, h.colls, h.bootNonce, h.lastHello, h.lastAdvert, h.lastTime, h.imagos, h.verif, h.leaseTerms, h.poolFreed, bit_off hs rfl, h.scheds, h.queues, h.cmds, h.objs, h.fenceWaiters, h.fenceOuts, h.fwq, h.mail, h.instResets, h.numVfs, h.keyMat, h.cvks, h.rtc, h.flash, h.power, h.stops, h.stopSince, h.aon, h.resets, h.pending, h.mems⟩

theorem upd_ops_silkReplies {M : Nat} {s0 s : State} {v0} {v1} (hs : bitsIn 0x2000000001000 M = true) (h : Agree M s0 s) :
    Agree M s0 { s with ops := v0, silkReplies := v1 } :=
  ⟨h.regs, h.latches, h.reply, h.now, h.timeSlew, h.slewAt, h.synced, h.freeCtr, h.nextId, h.cores, h.corePhys, h.kernels, bit_off hs rfl, h.movers, h.reqs, h.hbm, h.hbmPoison, h.bufs, h.host, h.hostPoison, h.winStart, h.winLen, h.regCounts, h.qosOld, h.missPosted, h.bridgeRun, h.scrubPos, h.tiles, h.stallAt, h.walks, h.tlb, h.wcache, h.tracker, h.invals, h.fqHeld, h.slots, h.gates, h.landing, h.evHeld, h.rings, h.armed, h.msixDue, h.msixLast, h.msix, h.instars, h.instarAt, h.instarDue, h.silkMsgs, h.silkWaiters, bit_off hs rfl, h.silkSent, h.ports, h.linkIn, h.linkReqs, h.linkRr, h.peers, h.custody, h.custOp, h.colls, h.bootNonce, h.lastHello, h.lastAdvert, h.lastTime, h.imagos, h.verif, h.leaseTerms, h.poolFreed, h.ctxs, h.scheds, h.queues, h.cmds, h.objs, h.fenceWaiters, h.fenceOuts, h.fwq, h.mail, h.instResets, h.numVfs, h.keyMat, h.cvks, h.rtc, h.flash, h.power, h.stops, h.stopSince, h.aon, h.resets, h.pending, h.mems⟩

theorem upd_rtc_flash {M : Nat} {s0 s : State} {v0} {v1} (hs : bitsIn 0x300000000000000000000 M = true) (h : Agree M s0 s) :
    Agree M s0 { s with rtc := v0, flash := v1 } :=
  ⟨h.regs, h.latches, h.reply, h.now, h.timeSlew, h.slewAt, h.synced, h.freeCtr, h.nextId, h.cores, h.corePhys, h.kernels, h.ops, h.movers, h.reqs, h.hbm, h.hbmPoison, h.bufs, h.host, h.hostPoison, h.winStart, h.winLen, h.regCounts, h.qosOld, h.missPosted, h.bridgeRun, h.scrubPos, h.tiles, h.stallAt, h.walks, h.tlb, h.wcache, h.tracker, h.invals, h.fqHeld, h.slots, h.gates, h.landing, h.evHeld, h.rings, h.armed, h.msixDue, h.msixLast, h.msix, h.instars, h.instarAt, h.instarDue, h.silkMsgs, h.silkWaiters, h.silkReplies, h.silkSent, h.ports, h.linkIn, h.linkReqs, h.linkRr, h.peers, h.custody, h.custOp, h.colls, h.bootNonce, h.lastHello, h.lastAdvert, h.lastTime, h.imagos, h.verif, h.leaseTerms, h.poolFreed, h.ctxs, h.scheds, h.queues, h.cmds, h.objs, h.fenceWaiters, h.fenceOuts, h.fwq, h.mail, h.instResets, h.numVfs, h.keyMat, h.cvks, bit_off hs rfl, bit_off hs rfl, h.power, h.stops, h.stopSince, h.aon, h.resets, h.pending, h.mems⟩

theorem upd_stops_stopSince {M : Nat} {s0 s : State} {v0} {v1} (hs : bitsIn 0x1800000000000000000000 M = true) (h : Agree M s0 s) :
    Agree M s0 { s with stops := v0, stopSince := v1 } :=
  ⟨h.regs, h.latches, h.reply, h.now, h.timeSlew, h.slewAt, h.synced, h.freeCtr, h.nextId, h.cores, h.corePhys, h.kernels, h.ops, h.movers, h.reqs, h.hbm, h.hbmPoison, h.bufs, h.host, h.hostPoison, h.winStart, h.winLen, h.regCounts, h.qosOld, h.missPosted, h.bridgeRun, h.scrubPos, h.tiles, h.stallAt, h.walks, h.tlb, h.wcache, h.tracker, h.invals, h.fqHeld, h.slots, h.gates, h.landing, h.evHeld, h.rings, h.armed, h.msixDue, h.msixLast, h.msix, h.instars, h.instarAt, h.instarDue, h.silkMsgs, h.silkWaiters, h.silkReplies, h.silkSent, h.ports, h.linkIn, h.linkReqs, h.linkRr, h.peers, h.custody, h.custOp, h.colls, h.bootNonce, h.lastHello, h.lastAdvert, h.lastTime, h.imagos, h.verif, h.leaseTerms, h.poolFreed, h.ctxs, h.scheds, h.queues, h.cmds, h.objs, h.fenceWaiters, h.fenceOuts, h.fwq, h.mail, h.instResets, h.numVfs, h.keyMat, h.cvks, h.rtc, h.flash, h.power, bit_off hs rfl, bit_off hs rfl, h.aon, h.resets, h.pending, h.mems⟩

theorem upd_tiles_walks {M : Nat} {s0 s : State} {v0} {v1} (hs : bitsIn 0x28000000 M = true) (h : Agree M s0 s) :
    Agree M s0 { s with tiles := v0, walks := v1 } :=
  ⟨h.regs, h.latches, h.reply, h.now, h.timeSlew, h.slewAt, h.synced, h.freeCtr, h.nextId, h.cores, h.corePhys, h.kernels, h.ops, h.movers, h.reqs, h.hbm, h.hbmPoison, h.bufs, h.host, h.hostPoison, h.winStart, h.winLen, h.regCounts, h.qosOld, h.missPosted, h.bridgeRun, h.scrubPos, bit_off hs rfl, h.stallAt, bit_off hs rfl, h.tlb, h.wcache, h.tracker, h.invals, h.fqHeld, h.slots, h.gates, h.landing, h.evHeld, h.rings, h.armed, h.msixDue, h.msixLast, h.msix, h.instars, h.instarAt, h.instarDue, h.silkMsgs, h.silkWaiters, h.silkReplies, h.silkSent, h.ports, h.linkIn, h.linkReqs, h.linkRr, h.peers, h.custody, h.custOp, h.colls, h.bootNonce, h.lastHello, h.lastAdvert, h.lastTime, h.imagos, h.verif, h.leaseTerms, h.poolFreed, h.ctxs, h.scheds, h.queues, h.cmds, h.objs, h.fenceWaiters, h.fenceOuts, h.fwq, h.mail, h.instResets, h.numVfs, h.keyMat, h.cvks, h.rtc, h.flash, h.power, h.stops, h.stopSince, h.aon, h.resets, h.pending, h.mems⟩

theorem upd_timeSlew_slewAt {M : Nat} {s0 s : State} {v0} {v1} (hs : bitsIn 0x30 M = true) (h : Agree M s0 s) :
    Agree M s0 { s with timeSlew := v0, slewAt := v1 } :=
  ⟨h.regs, h.latches, h.reply, h.now, bit_off hs rfl, bit_off hs rfl, h.synced, h.freeCtr, h.nextId, h.cores, h.corePhys, h.kernels, h.ops, h.movers, h.reqs, h.hbm, h.hbmPoison, h.bufs, h.host, h.hostPoison, h.winStart, h.winLen, h.regCounts, h.qosOld, h.missPosted, h.bridgeRun, h.scrubPos, h.tiles, h.stallAt, h.walks, h.tlb, h.wcache, h.tracker, h.invals, h.fqHeld, h.slots, h.gates, h.landing, h.evHeld, h.rings, h.armed, h.msixDue, h.msixLast, h.msix, h.instars, h.instarAt, h.instarDue, h.silkMsgs, h.silkWaiters, h.silkReplies, h.silkSent, h.ports, h.linkIn, h.linkReqs, h.linkRr, h.peers, h.custody, h.custOp, h.colls, h.bootNonce, h.lastHello, h.lastAdvert, h.lastTime, h.imagos, h.verif, h.leaseTerms, h.poolFreed, h.ctxs, h.scheds, h.queues, h.cmds, h.objs, h.fenceWaiters, h.fenceOuts, h.fwq, h.mail, h.instResets, h.numVfs, h.keyMat, h.cvks, h.rtc, h.flash, h.power, h.stops, h.stopSince, h.aon, h.resets, h.pending, h.mems⟩

theorem upd_timeSlew_synced {M : Nat} {s0 s : State} {v0} {v1} (hs : bitsIn 0x50 M = true) (h : Agree M s0 s) :
    Agree M s0 { s with timeSlew := v0, synced := v1 } :=
  ⟨h.regs, h.latches, h.reply, h.now, bit_off hs rfl, h.slewAt, bit_off hs rfl, h.freeCtr, h.nextId, h.cores, h.corePhys, h.kernels, h.ops, h.movers, h.reqs, h.hbm, h.hbmPoison, h.bufs, h.host, h.hostPoison, h.winStart, h.winLen, h.regCounts, h.qosOld, h.missPosted, h.bridgeRun, h.scrubPos, h.tiles, h.stallAt, h.walks, h.tlb, h.wcache, h.tracker, h.invals, h.fqHeld, h.slots, h.gates, h.landing, h.evHeld, h.rings, h.armed, h.msixDue, h.msixLast, h.msix, h.instars, h.instarAt, h.instarDue, h.silkMsgs, h.silkWaiters, h.silkReplies, h.silkSent, h.ports, h.linkIn, h.linkReqs, h.linkRr, h.peers, h.custody, h.custOp, h.colls, h.bootNonce, h.lastHello, h.lastAdvert, h.lastTime, h.imagos, h.verif, h.leaseTerms, h.poolFreed, h.ctxs, h.scheds, h.queues, h.cmds, h.objs, h.fenceWaiters, h.fenceOuts, h.fwq, h.mail, h.instResets, h.numVfs, h.keyMat, h.cvks, h.rtc, h.flash, h.power, h.stops, h.stopSince, h.aon, h.resets, h.pending, h.mems⟩

theorem upd_tlb_wcache {M : Nat} {s0 s : State} {v0} {v1} (hs : bitsIn 0xc0000000 M = true) (h : Agree M s0 s) :
    Agree M s0 { s with tlb := v0, wcache := v1 } :=
  ⟨h.regs, h.latches, h.reply, h.now, h.timeSlew, h.slewAt, h.synced, h.freeCtr, h.nextId, h.cores, h.corePhys, h.kernels, h.ops, h.movers, h.reqs, h.hbm, h.hbmPoison, h.bufs, h.host, h.hostPoison, h.winStart, h.winLen, h.regCounts, h.qosOld, h.missPosted, h.bridgeRun, h.scrubPos, h.tiles, h.stallAt, h.walks, bit_off hs rfl, bit_off hs rfl, h.tracker, h.invals, h.fqHeld, h.slots, h.gates, h.landing, h.evHeld, h.rings, h.armed, h.msixDue, h.msixLast, h.msix, h.instars, h.instarAt, h.instarDue, h.silkMsgs, h.silkWaiters, h.silkReplies, h.silkSent, h.ports, h.linkIn, h.linkReqs, h.linkRr, h.peers, h.custody, h.custOp, h.colls, h.bootNonce, h.lastHello, h.lastAdvert, h.lastTime, h.imagos, h.verif, h.leaseTerms, h.poolFreed, h.ctxs, h.scheds, h.queues, h.cmds, h.objs, h.fenceWaiters, h.fenceOuts, h.fwq, h.mail, h.instResets, h.numVfs, h.keyMat, h.cvks, h.rtc, h.flash, h.power, h.stops, h.stopSince, h.aon, h.resets, h.pending, h.mems⟩

theorem upd_tracker_fqHeld {M : Nat} {s0 s : State} {v0} {v1} (hs : bitsIn 0x500000000 M = true) (h : Agree M s0 s) :
    Agree M s0 { s with tracker := v0, fqHeld := v1 } :=
  ⟨h.regs, h.latches, h.reply, h.now, h.timeSlew, h.slewAt, h.synced, h.freeCtr, h.nextId, h.cores, h.corePhys, h.kernels, h.ops, h.movers, h.reqs, h.hbm, h.hbmPoison, h.bufs, h.host, h.hostPoison, h.winStart, h.winLen, h.regCounts, h.qosOld, h.missPosted, h.bridgeRun, h.scrubPos, h.tiles, h.stallAt, h.walks, h.tlb, h.wcache, bit_off hs rfl, h.invals, bit_off hs rfl, h.slots, h.gates, h.landing, h.evHeld, h.rings, h.armed, h.msixDue, h.msixLast, h.msix, h.instars, h.instarAt, h.instarDue, h.silkMsgs, h.silkWaiters, h.silkReplies, h.silkSent, h.ports, h.linkIn, h.linkReqs, h.linkRr, h.peers, h.custody, h.custOp, h.colls, h.bootNonce, h.lastHello, h.lastAdvert, h.lastTime, h.imagos, h.verif, h.leaseTerms, h.poolFreed, h.ctxs, h.scheds, h.queues, h.cmds, h.objs, h.fenceWaiters, h.fenceOuts, h.fwq, h.mail, h.instResets, h.numVfs, h.keyMat, h.cvks, h.rtc, h.flash, h.power, h.stops, h.stopSince, h.aon, h.resets, h.pending, h.mems⟩

theorem upd_hbm_power_aon {M : Nat} {s0 s : State} {v0} {v1} {v2} (hs : bitsIn 0x2400000000000000008000 M = true)
    (hw : MemOf s0 s { s with hbm := v0, power := v1, aon := v2 }) (h : Agree M s0 s) :
    Agree M s0 { s with hbm := v0, power := v1, aon := v2 } :=
  ⟨h.regs, h.latches, h.reply, h.now, h.timeSlew, h.slewAt, h.synced, h.freeCtr, h.nextId, h.cores, h.corePhys, h.kernels, h.ops, h.movers, h.reqs, bit_off hs rfl, h.hbmPoison, h.bufs, h.host, h.hostPoison, h.winStart, h.winLen, h.regCounts, h.qosOld, h.missPosted, h.bridgeRun, h.scrubPos, h.tiles, h.stallAt, h.walks, h.tlb, h.wcache, h.tracker, h.invals, h.fqHeld, h.slots, h.gates, h.landing, h.evHeld, h.rings, h.armed, h.msixDue, h.msixLast, h.msix, h.instars, h.instarAt, h.instarDue, h.silkMsgs, h.silkWaiters, h.silkReplies, h.silkSent, h.ports, h.linkIn, h.linkReqs, h.linkRr, h.peers, h.custody, h.custOp, h.colls, h.bootNonce, h.lastHello, h.lastAdvert, h.lastTime, h.imagos, h.verif, h.leaseTerms, h.poolFreed, h.ctxs, h.scheds, h.queues, h.cmds, h.objs, h.fenceWaiters, h.fenceOuts, h.fwq, h.mail, h.instResets, h.numVfs, h.keyMat, h.cvks, h.rtc, h.flash, bit_off hs rfl, h.stops, h.stopSince, bit_off hs rfl, h.resets, h.pending, fun w => hw w (h.mems w)⟩

theorem upd_host_evHeld_rings {M : Nat} {s0 s : State} {v0} {v1} {v2} (hs : bitsIn 0xc000040000 M = true)
    (hw : MemOf s0 s { s with host := v0, evHeld := v1, rings := v2 }) (h : Agree M s0 s) :
    Agree M s0 { s with host := v0, evHeld := v1, rings := v2 } :=
  ⟨h.regs, h.latches, h.reply, h.now, h.timeSlew, h.slewAt, h.synced, h.freeCtr, h.nextId, h.cores, h.corePhys, h.kernels, h.ops, h.movers, h.reqs, h.hbm, h.hbmPoison, h.bufs, bit_off hs rfl, h.hostPoison, h.winStart, h.winLen, h.regCounts, h.qosOld, h.missPosted, h.bridgeRun, h.scrubPos, h.tiles, h.stallAt, h.walks, h.tlb, h.wcache, h.tracker, h.invals, h.fqHeld, h.slots, h.gates, h.landing, bit_off hs rfl, bit_off hs rfl, h.armed, h.msixDue, h.msixLast, h.msix, h.instars, h.instarAt, h.instarDue, h.silkMsgs, h.silkWaiters, h.silkReplies, h.silkSent, h.ports, h.linkIn, h.linkReqs, h.linkRr, h.peers, h.custody, h.custOp, h.colls, h.bootNonce, h.lastHello, h.lastAdvert, h.lastTime, h.imagos, h.verif, h.leaseTerms, h.poolFreed, h.ctxs, h.scheds, h.queues, h.cmds, h.objs, h.fenceWaiters, h.fenceOuts, h.fwq, h.mail, h.instResets, h.numVfs, h.keyMat, h.cvks, h.rtc, h.flash, h.power, h.stops, h.stopSince, h.aon, h.resets, h.pending, fun w => hw w (h.mems w)⟩

theorem upd_host_fqHeld_rings {M : Nat} {s0 s : State} {v0} {v1} {v2} (hs : bitsIn 0x8400040000 M = true)
    (hw : MemOf s0 s { s with host := v0, fqHeld := v1, rings := v2 }) (h : Agree M s0 s) :
    Agree M s0 { s with host := v0, fqHeld := v1, rings := v2 } :=
  ⟨h.regs, h.latches, h.reply, h.now, h.timeSlew, h.slewAt, h.synced, h.freeCtr, h.nextId, h.cores, h.corePhys, h.kernels, h.ops, h.movers, h.reqs, h.hbm, h.hbmPoison, h.bufs, bit_off hs rfl, h.hostPoison, h.winStart, h.winLen, h.regCounts, h.qosOld, h.missPosted, h.bridgeRun, h.scrubPos, h.tiles, h.stallAt, h.walks, h.tlb, h.wcache, h.tracker, h.invals, bit_off hs rfl, h.slots, h.gates, h.landing, h.evHeld, bit_off hs rfl, h.armed, h.msixDue, h.msixLast, h.msix, h.instars, h.instarAt, h.instarDue, h.silkMsgs, h.silkWaiters, h.silkReplies, h.silkSent, h.ports, h.linkIn, h.linkReqs, h.linkRr, h.peers, h.custody, h.custOp, h.colls, h.bootNonce, h.lastHello, h.lastAdvert, h.lastTime, h.imagos, h.verif, h.leaseTerms, h.poolFreed, h.ctxs, h.scheds, h.queues, h.cmds, h.objs, h.fenceWaiters, h.fenceOuts, h.fwq, h.mail, h.instResets, h.numVfs, h.keyMat, h.cvks, h.rtc, h.flash, h.power, h.stops, h.stopSince, h.aon, h.resets, h.pending, fun w => hw w (h.mems w)⟩

theorem upd_now_timeSlew_synced {M : Nat} {s0 s : State} {v0} {v1} {v2} (hs : bitsIn 0x58 M = true) (h : Agree M s0 s) :
    Agree M s0 { s with now := v0, timeSlew := v1, synced := v2 } :=
  ⟨h.regs, h.latches, h.reply, bit_off hs rfl, bit_off hs rfl, h.slewAt, bit_off hs rfl, h.freeCtr, h.nextId, h.cores, h.corePhys, h.kernels, h.ops, h.movers, h.reqs, h.hbm, h.hbmPoison, h.bufs, h.host, h.hostPoison, h.winStart, h.winLen, h.regCounts, h.qosOld, h.missPosted, h.bridgeRun, h.scrubPos, h.tiles, h.stallAt, h.walks, h.tlb, h.wcache, h.tracker, h.invals, h.fqHeld, h.slots, h.gates, h.landing, h.evHeld, h.rings, h.armed, h.msixDue, h.msixLast, h.msix, h.instars, h.instarAt, h.instarDue, h.silkMsgs, h.silkWaiters, h.silkReplies, h.silkSent, h.ports, h.linkIn, h.linkReqs, h.linkRr, h.peers, h.custody, h.custOp, h.colls, h.bootNonce, h.lastHello, h.lastAdvert, h.lastTime, h.imagos, h.verif, h.leaseTerms, h.poolFreed, h.ctxs, h.scheds, h.queues, h.cmds, h.objs, h.fenceWaiters, h.fenceOuts, h.fwq, h.mail, h.instResets, h.numVfs, h.keyMat, h.cvks, h.rtc, h.flash, h.power, h.stops, h.stopSince, h.aon, h.resets, h.pending, h.mems⟩

theorem upd_ops_silkMsgs_silkWaiters {M : Nat} {s0 s : State} {v0} {v1} {v2} (hs : bitsIn 0x1800000001000 M = true) (h : Agree M s0 s) :
    Agree M s0 { s with ops := v0, silkMsgs := v1, silkWaiters := v2 } :=
  ⟨h.regs, h.latches, h.reply, h.now, h.timeSlew, h.slewAt, h.synced, h.freeCtr, h.nextId, h.cores, h.corePhys, h.kernels, bit_off hs rfl, h.movers, h.reqs, h.hbm, h.hbmPoison, h.bufs, h.host, h.hostPoison, h.winStart, h.winLen, h.regCounts, h.qosOld, h.missPosted, h.bridgeRun, h.scrubPos, h.tiles, h.stallAt, h.walks, h.tlb, h.wcache, h.tracker, h.invals, h.fqHeld, h.slots, h.gates, h.landing, h.evHeld, h.rings, h.armed, h.msixDue, h.msixLast, h.msix, h.instars, h.instarAt, h.instarDue, bit_off hs rfl, bit_off hs rfl, h.silkReplies, h.silkSent, h.ports, h.linkIn, h.linkReqs, h.linkRr, h.peers, h.custody, h.custOp, h.colls, h.bootNonce, h.lastHello, h.lastAdvert, h.lastTime, h.imagos, h.verif, h.leaseTerms, h.poolFreed, h.ctxs, h.scheds, h.queues, h.cmds, h.objs, h.fenceWaiters, h.fenceOuts, h.fwq, h.mail, h.instResets, h.numVfs, h.keyMat, h.cvks, h.rtc, h.flash, h.power, h.stops, h.stopSince, h.aon, h.resets, h.pending, h.mems⟩

theorem upd_ops_silkWaiters_silkReplies {M : Nat} {s0 s : State} {v0} {v1} {v2} (hs : bitsIn 0x3000000001000 M = true) (h : Agree M s0 s) :
    Agree M s0 { s with ops := v0, silkWaiters := v1, silkReplies := v2 } :=
  ⟨h.regs, h.latches, h.reply, h.now, h.timeSlew, h.slewAt, h.synced, h.freeCtr, h.nextId, h.cores, h.corePhys, h.kernels, bit_off hs rfl, h.movers, h.reqs, h.hbm, h.hbmPoison, h.bufs, h.host, h.hostPoison, h.winStart, h.winLen, h.regCounts, h.qosOld, h.missPosted, h.bridgeRun, h.scrubPos, h.tiles, h.stallAt, h.walks, h.tlb, h.wcache, h.tracker, h.invals, h.fqHeld, h.slots, h.gates, h.landing, h.evHeld, h.rings, h.armed, h.msixDue, h.msixLast, h.msix, h.instars, h.instarAt, h.instarDue, h.silkMsgs, bit_off hs rfl, bit_off hs rfl, h.silkSent, h.ports, h.linkIn, h.linkReqs, h.linkRr, h.peers, h.custody, h.custOp, h.colls, h.bootNonce, h.lastHello, h.lastAdvert, h.lastTime, h.imagos, h.verif, h.leaseTerms, h.poolFreed, h.ctxs, h.scheds, h.queues, h.cmds, h.objs, h.fenceWaiters, h.fenceOuts, h.fwq, h.mail, h.instResets, h.numVfs, h.keyMat, h.cvks, h.rtc, h.flash, h.power, h.stops, h.stopSince, h.aon, h.resets, h.pending, h.mems⟩

theorem upd_silkWaiters_ports_fenceWaiters {M : Nat} {s0 s : State} {v0} {v1} {v2} (hs : bitsIn 0x1000009000000000000 M = true) (h : Agree M s0 s) :
    Agree M s0 { s with silkWaiters := v0, ports := v1, fenceWaiters := v2 } :=
  ⟨h.regs, h.latches, h.reply, h.now, h.timeSlew, h.slewAt, h.synced, h.freeCtr, h.nextId, h.cores, h.corePhys, h.kernels, h.ops, h.movers, h.reqs, h.hbm, h.hbmPoison, h.bufs, h.host, h.hostPoison, h.winStart, h.winLen, h.regCounts, h.qosOld, h.missPosted, h.bridgeRun, h.scrubPos, h.tiles, h.stallAt, h.walks, h.tlb, h.wcache, h.tracker, h.invals, h.fqHeld, h.slots, h.gates, h.landing, h.evHeld, h.rings, h.armed, h.msixDue, h.msixLast, h.msix, h.instars, h.instarAt, h.instarDue, h.silkMsgs, bit_off hs rfl, h.silkReplies, h.silkSent, bit_off hs rfl, h.linkIn, h.linkReqs, h.linkRr, h.peers, h.custody, h.custOp, h.colls, h.bootNonce, h.lastHello, h.lastAdvert, h.lastTime, h.imagos, h.verif, h.leaseTerms, h.poolFreed, h.ctxs, h.scheds, h.queues, h.cmds, h.objs, bit_off hs rfl, h.fenceOuts, h.fwq, h.mail, h.instResets, h.numVfs, h.keyMat, h.cvks, h.rtc, h.flash, h.power, h.stops, h.stopSince, h.aon, h.resets, h.pending, h.mems⟩

theorem upd_silkWaiters_silkSent_custody {M : Nat} {s0 s : State} {v0} {v1} {v2} (hs : bitsIn 0x105000000000000 M = true) (h : Agree M s0 s) :
    Agree M s0 { s with silkWaiters := v0, silkSent := v1, custody := v2 } :=
  ⟨h.regs, h.latches, h.reply, h.now, h.timeSlew, h.slewAt, h.synced, h.freeCtr, h.nextId, h.cores, h.corePhys, h.kernels, h.ops, h.movers, h.reqs, h.hbm, h.hbmPoison, h.bufs, h.host, h.hostPoison, h.winStart, h.winLen, h.regCounts, h.qosOld, h.missPosted, h.bridgeRun, h.scrubPos, h.tiles, h.stallAt, h.walks, h.tlb, h.wcache, h.tracker, h.invals, h.fqHeld, h.slots, h.gates, h.landing, h.evHeld, h.rings, h.armed, h.msixDue, h.msixLast, h.msix, h.instars, h.instarAt, h.instarDue, h.silkMsgs, bit_off hs rfl, h.silkReplies, bit_off hs rfl, h.ports, h.linkIn, h.linkReqs, h.linkRr, h.peers, bit_off hs rfl, h.custOp, h.colls, h.bootNonce, h.lastHello, h.lastAdvert, h.lastTime, h.imagos, h.verif, h.leaseTerms, h.poolFreed, h.ctxs, h.scheds, h.queues, h.cmds, h.objs, h.fenceWaiters, h.fenceOuts, h.fwq, h.mail, h.instResets, h.numVfs, h.keyMat, h.cvks, h.rtc, h.flash, h.power, h.stops, h.stopSince, h.aon, h.resets, h.pending, h.mems⟩

theorem upd_walks_tlb_wcache {M : Nat} {s0 s : State} {v0} {v1} {v2} (hs : bitsIn 0xe0000000 M = true) (h : Agree M s0 s) :
    Agree M s0 { s with walks := v0, tlb := v1, wcache := v2 } :=
  ⟨h.regs, h.latches, h.reply, h.now, h.timeSlew, h.slewAt, h.synced, h.freeCtr, h.nextId, h.cores, h.corePhys, h.kernels, h.ops, h.movers, h.reqs, h.hbm, h.hbmPoison, h.bufs, h.host, h.hostPoison, h.winStart, h.winLen, h.regCounts, h.qosOld, h.missPosted, h.bridgeRun, h.scrubPos, h.tiles, h.stallAt, bit_off hs rfl, bit_off hs rfl, bit_off hs rfl, h.tracker, h.invals, h.fqHeld, h.slots, h.gates, h.landing, h.evHeld, h.rings, h.armed, h.msixDue, h.msixLast, h.msix, h.instars, h.instarAt, h.instarDue, h.silkMsgs, h.silkWaiters, h.silkReplies, h.silkSent, h.ports, h.linkIn, h.linkReqs, h.linkRr, h.peers, h.custody, h.custOp, h.colls, h.bootNonce, h.lastHello, h.lastAdvert, h.lastTime, h.imagos, h.verif, h.leaseTerms, h.poolFreed, h.ctxs, h.scheds, h.queues, h.cmds, h.objs, h.fenceWaiters, h.fenceOuts, h.fwq, h.mail, h.instResets, h.numVfs, h.keyMat, h.cvks, h.rtc, h.flash, h.power, h.stops, h.stopSince, h.aon, h.resets, h.pending, h.mems⟩

theorem upd_hbm_hbmPoison_bufs_aon {M : Nat} {s0 s : State} {v0} {v1} {v2} {v3} (hs : bitsIn 0x2000000000000000038000 M = true)
    (hw : MemOf s0 s { s with hbm := v0, hbmPoison := v1, bufs := v2, aon := v3 }) (h : Agree M s0 s) :
    Agree M s0 { s with hbm := v0, hbmPoison := v1, bufs := v2, aon := v3 } :=
  ⟨h.regs, h.latches, h.reply, h.now, h.timeSlew, h.slewAt, h.synced, h.freeCtr, h.nextId, h.cores, h.corePhys, h.kernels, h.ops, h.movers, h.reqs, bit_off hs rfl, bit_off hs rfl, bit_off hs rfl, h.host, h.hostPoison, h.winStart, h.winLen, h.regCounts, h.qosOld, h.missPosted, h.bridgeRun, h.scrubPos, h.tiles, h.stallAt, h.walks, h.tlb, h.wcache, h.tracker, h.invals, h.fqHeld, h.slots, h.gates, h.landing, h.evHeld, h.rings, h.armed, h.msixDue, h.msixLast, h.msix, h.instars, h.instarAt, h.instarDue, h.silkMsgs, h.silkWaiters, h.silkReplies, h.silkSent, h.ports, h.linkIn, h.linkReqs, h.linkRr, h.peers, h.custody, h.custOp, h.colls, h.bootNonce, h.lastHello, h.lastAdvert, h.lastTime, h.imagos, h.verif, h.leaseTerms, h.poolFreed, h.ctxs, h.scheds, h.queues, h.cmds, h.objs, h.fenceWaiters, h.fenceOuts, h.fwq, h.mail, h.instResets, h.numVfs, h.keyMat, h.cvks, h.rtc, h.flash, h.power, h.stops, h.stopSince, bit_off hs rfl, h.resets, h.pending, fun w => hw w (h.mems w)⟩

theorem upd_winStart_winLen_regCounts_qosOld_missPosted_ports {M : Nat} {s0 s : State} {v0} {v1} {v2} {v3} {v4} {v5} (hs : bitsIn 0x8000001f00000 M = true) (h : Agree M s0 s) :
    Agree M s0 { s with winStart := v0, winLen := v1, regCounts := v2, qosOld := v3, missPosted := v4, ports := v5 } :=
  ⟨h.regs, h.latches, h.reply, h.now, h.timeSlew, h.slewAt, h.synced, h.freeCtr, h.nextId, h.cores, h.corePhys, h.kernels, h.ops, h.movers, h.reqs, h.hbm, h.hbmPoison, h.bufs, h.host, h.hostPoison, bit_off hs rfl, bit_off hs rfl, bit_off hs rfl, bit_off hs rfl, bit_off hs rfl, h.bridgeRun, h.scrubPos, h.tiles, h.stallAt, h.walks, h.tlb, h.wcache, h.tracker, h.invals, h.fqHeld, h.slots, h.gates, h.landing, h.evHeld, h.rings, h.armed, h.msixDue, h.msixLast, h.msix, h.instars, h.instarAt, h.instarDue, h.silkMsgs, h.silkWaiters, h.silkReplies, h.silkSent, bit_off hs rfl, h.linkIn, h.linkReqs, h.linkRr, h.peers, h.custody, h.custOp, h.colls, h.bootNonce, h.lastHello, h.lastAdvert, h.lastTime, h.imagos, h.verif, h.leaseTerms, h.poolFreed, h.ctxs, h.scheds, h.queues, h.cmds, h.objs, h.fenceWaiters, h.fenceOuts, h.fwq, h.mail, h.instResets, h.numVfs, h.keyMat, h.cvks, h.rtc, h.flash, h.power, h.stops, h.stopSince, h.aon, h.resets, h.pending, h.mems⟩

theorem upd_regs_invals_fqHeld_evHeld_rings_armed_msixDue_msixLast_mail {M : Nat} {s0 s : State} {v0} {v1} {v2} {v3} {v4} {v5} {v6} {v7} {v8} (hs : bitsIn 0x800000007c600000001 M = true) (h : Agree M s0 s) :
    Agree M s0 { s with regs := v0, invals := v1, fqHeld := v2, evHeld := v3, rings := v4, armed := v5, msixDue := v6, msixLast := v7, mail := v8 } :=
  ⟨bit_off hs rfl, h.latches, h.reply, h.now, h.timeSlew, h.slewAt, h.synced, h.freeCtr, h.nextId, h.cores, h.corePhys, h.kernels, h.ops, h.movers, h.reqs, h.hbm, h.hbmPoison, h.bufs, h.host, h.hostPoison, h.winStart, h.winLen, h.regCounts, h.qosOld, h.missPosted, h.bridgeRun, h.scrubPos, h.tiles, h.stallAt, h.walks, h.tlb, h.wcache, h.tracker, bit_off hs rfl, bit_off hs rfl, h.slots, h.gates, h.landing, bit_off hs rfl, bit_off hs rfl, bit_off hs rfl, bit_off hs rfl, bit_off hs rfl, h.msix, h.instars, h.instarAt, h.instarDue, h.silkMsgs, h.silkWaiters, h.silkReplies, h.silkSent, h.ports, h.linkIn, h.linkReqs, h.linkRr, h.peers, h.custody, h.custOp, h.colls, h.bootNonce, h.lastHello, h.lastAdvert, h.lastTime, h.imagos, h.verif, h.leaseTerms, h.poolFreed, h.ctxs, h.scheds, h.queues, h.cmds, h.objs, h.fenceWaiters, h.fenceOuts, h.fwq, bit_off hs rfl, h.instResets, h.numVfs, h.keyMat, h.cvks, h.rtc, h.flash, h.power, h.stops, h.stopSince, h.aon, h.resets, h.pending, h.mems⟩

end Sys2Proof.Machine
end

