-- ==== Sys2Proof/Laws/FrameOps.lean ====
section
/-!
SUPPORT. The frame of every function of Machine/Ops.lean that answers a state: the fields it can change, by mask.
-/

set_option linter.unusedTactic false
set_option linter.unreachableTactic false
set_option linter.unusedVariables false

namespace Sys2Proof.Machine

theorem setR_step {M : Nat} {s0 s : State} {r : Reg} {k v win : Nat} (_hs : bitsIn 0 M = true) (hr : RegIn M r)
    (h : Agree M s0 s) : Agree M s0 (setR s r k v win) := by
  refine h.setRegs fun b key hk => ?_
  rw [mfind_mput, if_neg]
  rcases hr with h0 | ⟨hb, kn⟩
  · rw [h0] at b; exact absurd b (by decide)
  · exact (hk r k win kn hb).symm

theorem countR_step {M : Nat} {s0 : State} {s : State} {r : Reg} {k n : Nat} {win : Nat} (hs : bitsIn 0x0 M = true) (hr0 : RegIn M r) (hA : Agree M s0 s) : Agree M s0 (countR s r k n win) := by
  unfold countR
  repeat' first
    | with_reducible assumption
    | fail
    | exact bitsIn_trans rfl hs
    | with_reducible refine setR_step ?_ ?_ ?_
    | with_reducible refine Agree.ite ?_ ?_
    | dsimp only
    | split
    | (with_reducible refine Agree.of_pair (by assumption) ?_)
    | (with_reducible refine Agree.of_pair2 (by assumption) ?_)
    | intro _

theorem freeVal_frame (s : State) (w : Nat) : Agree 0x80 s (freeVal s w).2 := by
  unfold freeVal
  repeat' first
    | with_reducible assumption
    | with_reducible exact Agree.refl _ _
    | exact bitsIn_rfl rfl
    | ((conv => arg 3; arg 88; skip); with_reducible first | refine upd_freeCtr ?_ ?_)
    | with_reducible refine Agree.ite ?_ ?_
    | dsimp only
    | split
    | (with_reducible refine Agree.of_pair (by assumption) ?_)
    | (with_reducible refine Agree.of_pair2 (by assumption) ?_)
    | intro _
theorem freeVal_step {M s0} {s : State} {w : Nat} (hs : bitsIn 0x80 M = true) (hA : Agree M s0 s) : Agree M s0 (freeVal s w).2 :=
  hA.step hs (freeVal_frame s w)

theorem freeBytes_frame (s : State) (n : Nat) : Agree 0x80 s (freeBytes s n).2 := by
  unfold freeBytes
  repeat' first
    | with_reducible assumption
    | with_reducible exact Agree.refl _ _
    | exact bitsIn_rfl rfl
    | with_reducible refine freeVal_step ?_ ?_
    | with_reducible refine Agree.ite ?_ ?_
    | dsimp only
    | split
    | (with_reducible refine Agree.of_pair (by assumption) ?_)
    | (with_reducible refine Agree.of_pair2 (by assumption) ?_)
    | intro _
theorem freeBytes_step {M s0} {s : State} {n : Nat} (hs : bitsIn 0x80 M = true) (hA : Agree M s0 s) : Agree M s0 (freeBytes s n).2 :=
  hA.step hs (freeBytes_frame s n)

theorem setF_step {M : Nat} {s0 : State} {s : State} {f : RF} {k v : Nat} {win : Nat} (hs : bitsIn 0x0 M = true) (hr0 : RegIn M f.reg) (hA : Agree M s0 s) : Agree M s0 (setF s f k v win) := by
  unfold setF
  repeat' first
    | with_reducible assumption
    | fail
    | exact bitsIn_trans rfl hs
    | with_reducible refine setR_step ?_ ?_ ?_
    | with_reducible refine Agree.ite ?_ ?_
    | dsimp only
    | split
    | (with_reducible refine Agree.of_pair (by assumption) ?_)
    | (with_reducible refine Agree.of_pair2 (by assumption) ?_)
    | intro _

theorem satF_step {M : Nat} {s0 : State} {s : State} {f : RF} {k n : Nat} {win : Nat} (hs : bitsIn 0x0 M = true) (hr0 : RegIn M f.reg) (hA : Agree M s0 s) : Agree M s0 (satF s f k n win) := by
  unfold satF
  repeat' first
    | with_reducible assumption
    | fail
    | exact bitsIn_trans rfl hs
    | with_reducible refine setF_step ?_ ?_ ?_
    | with_reducible refine Agree.ite ?_ ?_
    | dsimp only
    | split
    | (with_reducible refine Agree.of_pair (by assumption) ?_)
    | (with_reducible refine Agree.of_pair2 (by assumption) ?_)
    | intro _

theorem setCore_step {M : Nat} {s0 s : State} {c : Nat} {k : Core} (hs : bitsIn 0x200 M = true)
    (hk : CoreOf s k) (h : Agree M s0 s) : Agree M s0 (setCore s c k) :=
  upd_cores hs (fun _ w => memoriesWf_setCore w (hk w.2.2)) h

theorem modCore_step {M : Nat} {s0 s : State} {c : Nat} {f : Core → Core} (hs : bitsIn 0x200 M = true)
    (hf : ModOf f) (h : Agree M s0 s) : Agree M s0 (modCore s c f) :=
  setCore_step hs (fun w => hf _ (w c)) h

theorem retimeCore_frame (s : State) (c steps : Nat) : Agree 0x200 s (retimeCore s c steps) := by
  unfold retimeCore
  repeat' first
    | with_reducible assumption
    | with_reducible exact Agree.refl _ _
    | exact bitsIn_rfl rfl
    | ((with_reducible refine ModOf.intro ?_); first | exact fun _ w => w | exact fun _ w => canonical_memPut _ _ w | exact fun _ w => canonical_filter _ w | exact fun _ w => canonical_foldl_mset _ _ w | exact fun _ _ => rfl)
    | with_reducible refine modCore_step ?_ ?_ ?_
    | with_reducible refine Agree.ite ?_ ?_
    | dsimp only
    | split
    | (with_reducible refine Agree.of_pair (by assumption) ?_)
    | (with_reducible refine Agree.of_pair2 (by assumption) ?_)
    | intro _
theorem retimeCore_step {M s0} {s : State} {c steps : Nat} (hs : bitsIn 0x200 M = true) (hA : Agree M s0 s) : Agree M s0 (retimeCore s c steps) :=
  hA.step hs (retimeCore_frame s c steps)

theorem setBatch_frame (s : State) (c : Nat) (b : Option Batch) : Agree 0x200 s (setBatch s c b) := by
  unfold setBatch
  repeat' first
    | with_reducible assumption
    | with_reducible exact Agree.refl _ _
    | exact bitsIn_rfl rfl
    | ((with_reducible refine ModOf.intro ?_); first | exact fun _ w => w | exact fun _ w => canonical_memPut _ _ w | exact fun _ w => canonical_filter _ w | exact fun _ w => canonical_foldl_mset _ _ w | exact fun _ _ => rfl)
    | with_reducible refine modCore_step ?_ ?_ ?_
    | with_reducible refine Agree.ite ?_ ?_
    | dsimp only
    | split
    | (with_reducible refine Agree.of_pair (by assumption) ?_)
    | (with_reducible refine Agree.of_pair2 (by assumption) ?_)
    | intro _
theorem setBatch_step {M s0} {s : State} {c : Nat} {b : Option Batch} (hs : bitsIn 0x200 M = true) (hA : Agree M s0 s) : Agree M s0 (setBatch s c b) :=
  hA.step hs (setBatch_frame s c b)

theorem setGroup_frame (s : State) (c g : Nat) (v : Group) : Agree 0x200 s (setGroup s c g v) := by
  unfold setGroup
  repeat' first
    | with_reducible assumption
    | with_reducible exact Agree.refl _ _
    | exact bitsIn_rfl rfl
    | with_reducible refine setBatch_step ?_ ?_
    | with_reducible refine Agree.ite ?_ ?_
    | dsimp only
    | split
    | (with_reducible refine Agree.of_pair (by assumption) ?_)
    | (with_reducible refine Agree.of_pair2 (by assumption) ?_)
    | intro _
theorem setGroup_step {M s0} {s : State} {c g : Nat} {v : Group} (hs : bitsIn 0x200 M = true) (hA : Agree M s0 s) : Agree M s0 (setGroup s c g v) :=
  hA.step hs (setGroup_frame s c g v)

theorem setChan_frame (s : State) (u k : Nat) (v : Chan) : Agree 0x2000 s (setChan s u k v) := by
  unfold setChan
  repeat' first
    | with_reducible assumption
    | with_reducible exact Agree.refl _ _
    | exact bitsIn_rfl rfl
    | ((conv => arg 3; arg 88; skip); with_reducible first | refine upd_movers ?_ ?_)
    | with_reducible refine Agree.ite ?_ ?_
    | dsimp only
    | split
    | (with_reducible refine Agree.of_pair (by assumption) ?_)
    | (with_reducible refine Agree.of_pair2 (by assumption) ?_)
    | intro _
theorem setChan_step {M s0} {s : State} {u k : Nat} {v : Chan} (hs : bitsIn 0x2000 M = true) (hA : Agree M s0 s) : Agree M s0 (setChan s u k v) :=
  hA.step hs (setChan_frame s u k v)

theorem modKernel_frame (s : State) (k : Nat) (f : Kernel → Kernel) : Agree 0x800 s (modKernel s k f) := by
  unfold modKernel
  repeat' first
    | with_reducible assumption
    | with_reducible exact Agree.refl _ _
    | exact bitsIn_rfl rfl
    | ((conv => arg 3; arg 88; skip); with_reducible first | refine upd_kernels ?_ ?_)
    | with_reducible refine Agree.ite ?_ ?_
    | dsimp only
    | split
    | (with_reducible refine Agree.of_pair (by assumption) ?_)
    | (with_reducible refine Agree.of_pair2 (by assumption) ?_)
    | intro _
theorem modKernel_step {M s0} {s : State} {k : Nat} {f : Kernel → Kernel} (hs : bitsIn 0x800 M = true) (hA : Agree M s0 s) : Agree M s0 (modKernel s k f) :=
  hA.step hs (modKernel_frame s k f)

theorem stopBatches_frame (s : State) (kid : Nat) : Agree 0x200 s (stopBatches s kid) := by
  unfold stopBatches
  repeat' first
    | with_reducible assumption
    | with_reducible exact Agree.refl _ _
    | exact bitsIn_rfl rfl
    | ((with_reducible refine MemOf.intro ?_); first | exact fun _ w => memoriesWf_mapCores w (fun kv => by dsimp only; repeat' first | exact ⟨rfl, rfl⟩ | split))
    | ((conv => arg 3; arg 88; skip); with_reducible first | refine upd_cores ?_ ?_ ?_)
    | with_reducible refine Agree.ite ?_ ?_
    | dsimp only
    | split
    | (with_reducible refine Agree.of_pair (by assumption) ?_)
    | (with_reducible refine Agree.of_pair2 (by assumption) ?_)
    | intro _
theorem stopBatches_step {M s0} {s : State} {kid : Nat} (hs : bitsIn 0x200 M = true) (hA : Agree M s0 s) : Agree M s0 (stopBatches s kid) :=
  hA.step hs (stopBatches_frame s kid)

theorem noteFault_frame (s : State) (kid : Nat) (fi : FaultInfo) : Agree 0xa00 s (noteFault s kid fi) := by
  unfold noteFault
  repeat' first
    | with_reducible assumption
    | with_reducible exact Agree.refl _ _
    | exact bitsIn_rfl rfl
    | with_reducible refine modKernel_step ?_ ?_
    | with_reducible refine stopBatches_step ?_ ?_
    | with_reducible refine Agree.ite ?_ ?_
    | dsimp only
    | split
    | (with_reducible refine Agree.of_pair (by assumption) ?_)
    | (with_reducible refine Agree.of_pair2 (by assumption) ?_)
    | intro _
theorem noteFault_step {M s0} {s : State} {kid : Nat} {fi : FaultInfo} (hs : bitsIn 0xa00 M = true) (hA : Agree M s0 s) : Agree M s0 (noteFault s kid fi) :=
  hA.step hs (noteFault_frame s kid fi)

theorem coreFault_frame (s : State) (c : Nat) (fi : FaultInfo) : Agree 0x30000000000000000180000000000000a00 s (coreFault s c fi) := by
  unfold coreFault
  repeat' first
    | with_reducible assumption
    | with_reducible exact Agree.refl _ _
    | exact bitsIn_rfl rfl
    | exact regIn_rfl rfl rfl
    | with_reducible refine modKernel_step ?_ ?_
    | with_reducible refine noteFault_step ?_ ?_
    | with_reducible refine setBatch_step ?_ ?_
    | with_reducible refine teardown_step ?_ ?_
    | with_reducible refine Agree.ite ?_ ?_
    | dsimp only
    | split
    | (with_reducible refine Agree.of_pair (by assumption) ?_)
    | (with_reducible refine Agree.of_pair2 (by assumption) ?_)
    | intro _
theorem coreFault_step {M s0} {s : State} {c : Nat} {fi : FaultInfo} (hs : bitsIn 0x30000000000000000180000000000000a00 M = true) (hA : Agree M s0 s) : Agree M s0 (coreFault s c fi) :=
  hA.step hs (coreFault_frame s c fi)

theorem threadFault_frame (s : State) (c g code : Nat) (lanes : Word) (addr : DWord) : Agree 0x30000000000000000180000000000000a00 s (threadFault s c g code lanes addr) := by
  unfold threadFault
  repeat' first
    | with_reducible assumption
    | with_reducible exact Agree.refl _ _
    | exact bitsIn_rfl rfl
    | exact regIn_rfl rfl rfl
    | with_reducible refine coreFault_step ?_ ?_
    | with_reducible refine Agree.ite ?_ ?_
    | dsimp only
    | split
    | (with_reducible refine Agree.of_pair (by assumption) ?_)
    | (with_reducible refine Agree.of_pair2 (by assumption) ?_)
    | intro _
theorem threadFault_step {M s0} {s : State} {c g code : Nat} {lanes : Word} {addr : DWord} (hs : bitsIn 0x30000000000000000180000000000000a00 M = true) (hA : Agree M s0 s) : Agree M s0 (threadFault s c g code lanes addr) :=
  hA.step hs (threadFault_frame s c g code lanes addr)

theorem fresh_frame (s : State) : Agree 0x100 s (fresh s).2 := by
  unfold fresh
  repeat' first
    | with_reducible assumption
    | with_reducible exact Agree.refl _ _
    | exact bitsIn_rfl rfl
    | ((conv => arg 3; arg 88; skip); with_reducible first | refine upd_nextId ?_ ?_)
    | with_reducible refine Agree.ite ?_ ?_
    | dsimp only
    | split
    | (with_reducible refine Agree.of_pair (by assumption) ?_)
    | (with_reducible refine Agree.of_pair2 (by assumption) ?_)
    | intro _
theorem fresh_step {M s0} {s : State} (hs : bitsIn 0x100 M = true) (hA : Agree M s0 s) : Agree M s0 (fresh s).2 :=
  hA.step hs (fresh_frame s)

theorem setCredit_frame (s : State) (u line v : Nat) : Agree 0x2000 s (setCredit s u line v) := by
  unfold setCredit
  repeat' first
    | with_reducible assumption
    | with_reducible exact Agree.refl _ _
    | exact bitsIn_rfl rfl
    | ((conv => arg 3; arg 88; skip); with_reducible first | refine upd_movers ?_ ?_)
    | with_reducible refine Agree.ite ?_ ?_
    | dsimp only
    | split
    | (with_reducible refine Agree.of_pair (by assumption) ?_)
    | (with_reducible refine Agree.of_pair2 (by assumption) ?_)
    | intro _
theorem setCredit_step {M s0} {s : State} {u line v : Nat} (hs : bitsIn 0x2000 M = true) (hA : Agree M s0 s) : Agree M s0 (setCredit s u line v) :=
  hA.step hs (setCredit_frame s u line v)

theorem raiseCredit_frame (s : State) (u line n : Nat) : Agree 0x2000000000000000000000000000000000000000000002000 s (raiseCredit s u line n) := by
  unfold raiseCredit
  repeat' first
    | with_reducible assumption
    | with_reducible exact Agree.refl _ _
    | exact bitsIn_rfl rfl
    | exact regIn_rfl rfl rfl
    | with_reducible refine setCredit_step ?_ ?_
    | with_reducible refine setF_step ?_ ?_ ?_
    | with_reducible refine Agree.ite ?_ ?_
    | dsimp only
    | split
    | (with_reducible refine Agree.of_pair (by assumption) ?_)
    | (with_reducible refine Agree.of_pair2 (by assumption) ?_)
    | intro _
theorem raiseCredit_step {M s0} {s : State} {u line n : Nat} (hs : bitsIn 0x2000000000000000000000000000000000000000000002000 M = true) (hA : Agree M s0 s) : Agree M s0 (raiseCredit s u line n) :=
  hA.step hs (raiseCredit_frame s u line n)

theorem andThen_step {M : Nat} {s0 : State} {o : Out} {f : State → Out} (h : AgreeO M s0 o)
    (hf : ∀ s, Agree M s0 s → AgreeO M s0 (f s)) : AgreeO M s0 (andThen o f) := by
  unfold andThen
  split
  · rename_i s; exact hf s (h s rfl)
  · exact AgreeO.fault
  · exact AgreeO.refused

end Sys2Proof.Machine
end

