-- ==== Sys2Proof/Laws/FrameEvents.lean ====
section
/-!
SUPPORT. The frame of every function of Machine/Events.lean that answers a state: the fields it can change, by mask.
-/

set_option linter.unusedTactic false
set_option linter.unreachableTactic false
set_option linter.unusedVariables false

namespace Sys2Proof.Machine

theorem sendMsi_frame (s : State) (win vec : Nat) : Agree 0x80000000000 s (sendMsi s win vec) := by
  unfold sendMsi
  repeat' first
    | with_reducible assumption
    | with_reducible exact Agree.refl _ _
    | exact bitsIn_rfl rfl
    | ((conv => arg 3; arg 88; skip); with_reducible first | refine upd_msix ?_ ?_)
    | with_reducible refine Agree.ite ?_ ?_
    | dsimp only
    | split
    | (with_reducible refine Agree.of_pair (by assumption) ?_)
    | (with_reducible refine Agree.of_pair2 (by assumption) ?_)
    | intro _
theorem sendMsi_step {M s0} {s : State} {win vec : Nat} (hs : bitsIn 0x80000000000 M = true) (hA : Agree M s0 s) : Agree M s0 (sendMsi s win vec) :=
  hA.step hs (sendMsi_frame s win vec)

theorem countStale_frame (s : State) (u : Unit8) : Agree 0x300000000000000000000000000000 s (countStale s u) := by
  unfold countStale
  repeat' first
    | with_reducible assumption
    | with_reducible exact Agree.refl _ _
    | exact bitsIn_rfl rfl
    | exact regIn_rfl rfl rfl
    | with_reducible refine countR_step ?_ ?_ ?_
    | with_reducible refine Agree.ite ?_ ?_
    | dsimp only
    | split
    | (with_reducible refine Agree.of_pair (by assumption) ?_)
    | (with_reducible refine Agree.of_pair2 (by assumption) ?_)
    | intro _
theorem countStale_step {M s0} {s : State} {u : Unit8} (hs : bitsIn 0x300000000000000000000000000000 M = true) (hA : Agree M s0 s) : Agree M s0 (countStale s u) :=
  hA.step hs (countStale_frame s u)

theorem postEvent_frame (s : State) (win : Nat) (rec : List Byte) : Agree 0x10000000000000000000000000000000000000000000000000000000000000000000000004000000000 s (postEvent s win rec) := by
  unfold postEvent
  repeat' first
    | with_reducible assumption
    | with_reducible exact Agree.refl _ _
    | exact bitsIn_rfl rfl
    | exact regIn_rfl rfl rfl
    | with_reducible refine countR_step ?_ ?_ ?_
    | ((conv => arg 3; arg 88; skip); with_reducible first | refine upd_evHeld ?_ ?_)
    | with_reducible refine Agree.ite ?_ ?_
    | dsimp only
    | split
    | (with_reducible refine Agree.of_pair (by assumption) ?_)
    | (with_reducible refine Agree.of_pair2 (by assumption) ?_)
    | intro _
theorem postEvent_step {M s0} {s : State} {win : Nat} {rec : List Byte} (hs : bitsIn 0x10000000000000000000000000000000000000000000000000000000000000000000000004000000000 M = true) (hA : Agree M s0 s) : Agree M s0 (postEvent s win rec) :=
  hA.step hs (postEvent_frame s win rec)

theorem fabricFault_frame (s : State) (type info master inst epoch addr deadline : Nat) : Agree 0x10000000000000000000000000000000000000000000000000000000000000000000000004000000000 s (fabricFault s type info master inst epoch addr deadline) := by
  unfold fabricFault
  repeat' first
    | with_reducible assumption
    | with_reducible exact Agree.refl _ _
    | exact bitsIn_rfl rfl
    | exact regIn_rfl rfl rfl
    | with_reducible refine postEvent_step ?_ ?_
    | with_reducible refine Agree.ite ?_ ?_
    | dsimp only
    | split
    | (with_reducible refine Agree.of_pair (by assumption) ?_)
    | (with_reducible refine Agree.of_pair2 (by assumption) ?_)
    | intro _
theorem fabricFault_step {M s0} {s : State} {type info master inst epoch addr deadline : Nat} (hs : bitsIn 0x10000000000000000000000000000000000000000000000000000000000000000000000004000000000 M = true) (hA : Agree M s0 s) : Agree M s0 (fabricFault s type info master inst epoch addr deadline) :=
  hA.step hs (fabricFault_frame s type info master inst epoch addr deadline)

theorem notifyQueue_frame (s : State) (win q : Nat) : Agree 0x30000000000 s (notifyQueue s win q) := by
  unfold notifyQueue
  repeat' first
    | with_reducible assumption
    | with_reducible exact Agree.refl _ _
    | exact bitsIn_rfl rfl
    | ((conv => arg 3; arg 88; skip); with_reducible first | refine upd_armed ?_ ?_ | refine upd_msixDue ?_ ?_)
    | with_reducible refine Agree.ite ?_ ?_
    | dsimp only
    | split
    | (with_reducible refine Agree.of_pair (by assumption) ?_)
    | (with_reducible refine Agree.of_pair2 (by assumption) ?_)
    | intro _
theorem notifyQueue_step {M s0} {s : State} {win q : Nat} (hs : bitsIn 0x30000000000 M = true) (hA : Agree M s0 s) : Agree M s0 (notifyQueue s win q) :=
  hA.step hs (notifyQueue_frame s win q)

theorem setInstar_frame (s : State) (u : Unit8) (v : Nat) : Agree 0x10004000000000000000000100000000000 s (setInstar s u v) := by
  unfold setInstar
  repeat' first
    | with_reducible assumption
    | with_reducible exact Agree.refl _ _
    | exact bitsIn_rfl rfl
    | exact regIn_rfl rfl rfl
    | with_reducible refine setF_step ?_ ?_ ?_
    | ((conv => arg 3; arg 88; skip); with_reducible first | refine upd_instars ?_ ?_)
    | with_reducible refine Agree.ite ?_ ?_
    | dsimp only
    | split
    | (with_reducible refine Agree.of_pair (by assumption) ?_)
    | (with_reducible refine Agree.of_pair2 (by assumption) ?_)
    | intro _
theorem setInstar_step {M s0} {s : State} {u : Unit8} {v : Nat} (hs : bitsIn 0x10004000000000000000000100000000000 M = true) (hA : Agree M s0 s) : Agree M s0 (setInstar s u v) :=
  hA.step hs (setInstar_frame s u v)

theorem stepInstar_frame (s : State) (u : Unit8) : Agree 0x10004000000000000000000300000000000 s (stepInstar s u) := by
  unfold stepInstar
  repeat' first
    | with_reducible assumption
    | with_reducible exact Agree.refl _ _
    | exact bitsIn_rfl rfl
    | exact regIn_rfl rfl rfl
    | with_reducible refine setInstar_step ?_ ?_
    | ((conv => arg 3; arg 88; skip); with_reducible first | refine upd_instarAt ?_ ?_)
    | with_reducible refine Agree.ite ?_ ?_
    | dsimp only
    | split
    | (with_reducible refine Agree.of_pair (by assumption) ?_)
    | (with_reducible refine Agree.of_pair2 (by assumption) ?_)
    | intro _
theorem stepInstar_step {M s0} {s : State} {u : Unit8} (hs : bitsIn 0x10004000000000000000000300000000000 M = true) (hA : Agree M s0 s) : Agree M s0 (stepInstar s u) :=
  hA.step hs (stepInstar_frame s u)

theorem advanceInstar_frame (s : State) (u : Unit8) : Agree 0x10004000000000000000000700000000000 s (advanceInstar s u) := by
  unfold advanceInstar
  repeat' first
    | with_reducible assumption
    | with_reducible exact Agree.refl _ _
    | exact bitsIn_rfl rfl
    | exact regIn_rfl rfl rfl
    | with_reducible refine stepInstar_step ?_ ?_
    | ((conv => arg 3; arg 88; skip); with_reducible first | refine upd_instarDue ?_ ?_)
    | with_reducible refine Agree.ite ?_ ?_
    | dsimp only
    | split
    | (with_reducible refine Agree.of_pair (by assumption) ?_)
    | (with_reducible refine Agree.of_pair2 (by assumption) ?_)
    | intro _
theorem advanceInstar_step {M s0} {s : State} {u : Unit8} (hs : bitsIn 0x10004000000000000000000700000000000 M = true) (hA : Agree M s0 s) : Agree M s0 (advanceInstar s u) :=
  hA.step hs (advanceInstar_frame s u)

theorem armQueue_frame (s : State) (win q : Nat) : Agree 0x10000000000 s (armQueue s win q) := by
  unfold armQueue
  repeat' first
    | with_reducible assumption
    | with_reducible exact Agree.refl _ _
    | exact bitsIn_rfl rfl
    | ((conv => arg 3; arg 88; skip); with_reducible first | refine upd_armed ?_ ?_)
    | with_reducible refine Agree.ite ?_ ?_
    | dsimp only
    | split
    | (with_reducible refine Agree.of_pair (by assumption) ?_)
    | (with_reducible refine Agree.of_pair2 (by assumption) ?_)
    | intro _
theorem armQueue_step {M s0} {s : State} {win q : Nat} (hs : bitsIn 0x10000000000 M = true) (hA : Agree M s0 s) : Agree M s0 (armQueue s win q) :=
  hA.step hs (armQueue_frame s win q)

theorem execEvtEqHeadWrite_frame (win v : Nat) (s : State) : AgreeO 0x2000000000000000000000000000000000000000000000000000000000000000000000010000000000 s (execEvtEqHeadWrite win v s) := by
  unfold execEvtEqHeadWrite
  repeat' first
    | with_reducible assumption
    | with_reducible exact Agree.refl _ _
    | exact bitsIn_rfl rfl
    | exact regIn_rfl rfl rfl
    | with_reducible refine AgreeO.next ?_
    | with_reducible refine AgreeO.ite ?_ ?_
    | with_reducible exact AgreeO.refused
    | with_reducible exact AgreeO.fault
    | with_reducible refine armQueue_step ?_ ?_
    | with_reducible refine setF_step ?_ ?_ ?_
    | with_reducible refine Agree.ite ?_ ?_
    | dsimp only
    | split
    | (with_reducible refine Agree.of_pair (by assumption) ?_)
    | (with_reducible refine Agree.of_pair2 (by assumption) ?_)
    | intro _
theorem execEvtEqHeadWrite_step {M s0} {win v : Nat} {s : State} (hs : bitsIn 0x2000000000000000000000000000000000000000000000000000000000000000000000010000000000 M = true) (hA : Agree M s0 s) : AgreeO M s0 (execEvtEqHeadWrite win v s) :=
  hA.stepO hs (execEvtEqHeadWrite_frame win v s)

theorem execEvtFqHeadWrite_frame (win v : Nat) (s : State) : AgreeO 0x100000000000000000000000000000000000000000000000000000000000000000000010000000000 s (execEvtFqHeadWrite win v s) := by
  unfold execEvtFqHeadWrite
  repeat' first
    | with_reducible assumption
    | with_reducible exact Agree.refl _ _
    | exact bitsIn_rfl rfl
    | exact regIn_rfl rfl rfl
    | with_reducible refine AgreeO.next ?_
    | with_reducible refine AgreeO.ite ?_ ?_
    | with_reducible exact AgreeO.refused
    | with_reducible exact AgreeO.fault
    | with_reducible refine armQueue_step ?_ ?_
    | with_reducible refine setF_step ?_ ?_ ?_
    | with_reducible refine Agree.ite ?_ ?_
    | dsimp only
    | split
    | (with_reducible refine Agree.of_pair (by assumption) ?_)
    | (with_reducible refine Agree.of_pair2 (by assumption) ?_)
    | intro _
theorem execEvtFqHeadWrite_step {M s0} {win v : Nat} {s : State} (hs : bitsIn 0x100000000000000000000000000000000000000000000000000000000000000000000010000000000 M = true) (hA : Agree M s0 s) : AgreeO M s0 (execEvtFqHeadWrite win v s) :=
  hA.stepO hs (execEvtFqHeadWrite_frame win v s)

theorem execMsixSend_frame (win q : Nat) (s : State) : AgreeO 0xe0000000000 s (execMsixSend win q s) := by
  unfold execMsixSend
  repeat' first
    | with_reducible assumption
    | with_reducible exact Agree.refl _ _
    | exact bitsIn_rfl rfl
    | with_reducible refine AgreeO.next ?_
    | with_reducible refine AgreeO.ite ?_ ?_
    | with_reducible exact AgreeO.refused
    | with_reducible exact AgreeO.fault
    | with_reducible refine sendMsi_step ?_ ?_
    | ((conv => arg 3; arg 88; skip); with_reducible first | refine upd_msixDue_msixLast ?_ ?_)
    | with_reducible refine Agree.ite ?_ ?_
    | dsimp only
    | split
    | (with_reducible refine Agree.of_pair (by assumption) ?_)
    | (with_reducible refine Agree.of_pair2 (by assumption) ?_)
    | intro _
theorem execMsixSend_step {M s0} {win q : Nat} {s : State} (hs : bitsIn 0xe0000000000 M = true) (hA : Agree M s0 s) : AgreeO M s0 (execMsixSend win q s) :=
  hA.stepO hs (execMsixSend_frame win q s)

theorem execEventRecordPost_frame (win : Nat) (s : State) : AgreeO 0x400000000000000000000000000000000000000000000000000000000000000000000003c000040000 s (execEventRecordPost win s) := by
  unfold execEventRecordPost
  repeat' first
    | with_reducible assumption
    | with_reducible exact Agree.refl _ _
    | exact bitsIn_rfl rfl
    | exact regIn_rfl rfl rfl
    | with_reducible refine AgreeO.next ?_
    | with_reducible refine AgreeO.ite ?_ ?_
    | with_reducible exact AgreeO.refused
    | with_reducible exact AgreeO.fault
    | ((with_reducible refine MemOf.intro ?_); first | exact fun _ w => ⟨w.1, canonical_memPut _ _ w.2.1, w.2.2⟩)
    | with_reducible refine notifyQueue_step ?_ ?_
    | with_reducible refine setF_step ?_ ?_ ?_
    | ((conv => arg 3; arg 88; skip); with_reducible first | refine upd_host_evHeld_rings ?_ ?_ ?_)
    | with_reducible refine Agree.ite ?_ ?_
    | dsimp only
    | split
    | (with_reducible refine Agree.of_pair (by assumption) ?_)
    | (with_reducible refine Agree.of_pair2 (by assumption) ?_)
    | intro _
theorem execEventRecordPost_step {M s0} {win : Nat} {s : State} (hs : bitsIn 0x400000000000000000000000000000000000000000000000000000000000000000000003c000040000 M = true) (hA : Agree M s0 s) : AgreeO M s0 (execEventRecordPost win s) :=
  hA.stepO hs (execEventRecordPost_frame win s)

end Sys2Proof.Machine
end

