-- ==== Sys2Proof/Laws/FrameMem.lean ====
section
/-!
SUPPORT. The frame of every function of Machine/Mem.lean that answers a state: the fields it can change, by mask.
-/

set_option linter.unusedTactic false
set_option linter.unreachableTactic false
set_option linter.unusedVariables false

namespace Sys2Proof.Machine

theorem setHbmBad_frame (s : State) (sector : Nat) (v : Bool) : Agree 0x10000 s (setHbmBad s sector v) := by
  unfold setHbmBad
  repeat' first
    | with_reducible assumption
    | with_reducible exact Agree.refl _ _
    | exact bitsIn_rfl rfl
    | ((conv => arg 3; arg 88; skip); with_reducible first | refine upd_hbmPoison ?_ ?_)
    | with_reducible refine Agree.ite ?_ ?_
    | dsimp only
    | split
    | (with_reducible refine Agree.of_pair (by assumption) ?_)
    | (with_reducible refine Agree.of_pair2 (by assumption) ?_)
    | intro _
theorem setHbmBad_step {M s0} {s : State} {sector : Nat} {v : Bool} (hs : bitsIn 0x10000 M = true) (hA : Agree M s0 s) : Agree M s0 (setHbmBad s sector v) :=
  hA.step hs (setHbmBad_frame s sector v)

theorem hbmPutFrom_frame (s : State) (n mask bad : Nat) (data : List Byte) (k : Nat) :
    Agree 0x18000 s (hbmPutFrom s n mask bad data k) := by
  induction k with
  | zero => exact Agree.refl _ _
  | succ k ih =>
    unfold hbmPutFrom
    dsimp only
    refine Agree.ite (setHbmBad_step (bitsIn_rfl rfl) ?_) ih
    exact upd_hbm (bitsIn_rfl rfl) (fun _ w => ⟨canonical_memPut _ _ w.1, w.2⟩) ih
theorem hbmPutFrom_step {M s0} {s : State} {n mask bad : Nat} {data : List Byte} {k : Nat} (hs : bitsIn 0x18000 M = true)
    (h : Agree M s0 s) : Agree M s0 (hbmPutFrom s n mask bad data k) := h.step hs (hbmPutFrom_frame s n mask bad data k)

theorem hbmPut_frame (s : State) (n mask bad : Nat) (data : List Byte) : Agree 0x18000 s (hbmPut s n mask bad data) := by
  unfold hbmPut
  repeat' first
    | with_reducible assumption
    | with_reducible exact Agree.refl _ _
    | exact bitsIn_rfl rfl
    | with_reducible refine hbmPutFrom_step ?_ ?_
    | with_reducible refine Agree.ite ?_ ?_
    | dsimp only
    | split
    | (with_reducible refine Agree.of_pair (by assumption) ?_)
    | (with_reducible refine Agree.of_pair2 (by assumption) ?_)
    | intro _
theorem hbmPut_step {M s0} {s : State} {n mask bad : Nat} {data : List Byte} (hs : bitsIn 0x18000 M = true) (hA : Agree M s0 s) : Agree M s0 (hbmPut s n mask bad data) :=
  hA.step hs (hbmPut_frame s n mask bad data)

theorem logUe_frame (s : State) (wher sector : Nat) : Agree 0x8040000000000000000000000000000000000000000000000000000 s (logUe s wher sector) := by
  unfold logUe
  repeat' first
    | with_reducible assumption
    | with_reducible exact Agree.refl _ _
    | exact bitsIn_rfl rfl
    | exact regIn_rfl rfl rfl
    | with_reducible refine countR_step ?_ ?_ ?_
    | with_reducible refine setR_step ?_ ?_ ?_
    | with_reducible refine Agree.ite ?_ ?_
    | dsimp only
    | split
    | (with_reducible refine Agree.of_pair (by assumption) ?_)
    | (with_reducible refine Agree.of_pair2 (by assumption) ?_)
    | intro _
theorem logUe_step {M s0} {s : State} {wher sector : Nat} (hs : bitsIn 0x8040000000000000000000000000000000000000000000000000000 M = true) (hA : Agree M s0 s) : Agree M s0 (logUe s wher sector) :=
  hA.step hs (logUe_frame s wher sector)

theorem hbmFind_frame (s : State) (wher n mask : Nat) (errs : List SectorErr) : Agree 0xc040000000000000000000000000000000000000000000000010000 s (hbmFind s wher n mask errs) := by
  unfold hbmFind
  repeat' first
    | with_reducible assumption
    | with_reducible exact Agree.refl _ _
    | exact bitsIn_rfl rfl
    | exact regIn_rfl rfl rfl
    | with_reducible refine countR_step ?_ ?_ ?_
    | with_reducible refine logUe_step ?_ ?_
    | with_reducible refine setHbmBad_step ?_ ?_
    | with_reducible refine Agree.ite ?_ ?_
    | (with_reducible refine Agree.foldl ?_ ?_; intro _ _ _)
    | (with_reducible refine Agree.foldl2 ?_ ?_; intro _ _ _)
    | (with_reducible refine Agree.foldl3 ?_ ?_; intro _ _ _)
    | (with_reducible refine Agree.foldl4 ?_ ?_; intro _ _ _)
    | dsimp only
    | split
    | (with_reducible refine Agree.of_pair (by assumption) ?_)
    | (with_reducible refine Agree.of_pair2 (by assumption) ?_)
    | intro _
theorem hbmFind_step {M s0} {s : State} {wher n mask : Nat} {errs : List SectorErr} (hs : bitsIn 0xc040000000000000000000000000000000000000000000000010000 M = true) (hA : Agree M s0 s) : Agree M s0 (hbmFind s wher n mask errs) :=
  hA.step hs (hbmFind_frame s wher n mask errs)

theorem setBuf_frame (s : State) (n : Nat) (b : BufLine) : Agree 0x20000 s (setBuf s n b) := by
  unfold setBuf
  repeat' first
    | with_reducible assumption
    | with_reducible exact Agree.refl _ _
    | exact bitsIn_rfl rfl
    | ((conv => arg 3; arg 88; skip); with_reducible first | refine upd_bufs ?_ ?_)
    | with_reducible refine Agree.ite ?_ ?_
    | dsimp only
    | split
    | (with_reducible refine Agree.of_pair (by assumption) ?_)
    | (with_reducible refine Agree.of_pair2 (by assumption) ?_)
    | intro _
theorem setBuf_step {M s0} {s : State} {n : Nat} {b : BufLine} (hs : bitsIn 0x20000 M = true) (hA : Agree M s0 s) : Agree M s0 (setBuf s n b) :=
  hA.step hs (setBuf_frame s n b)

theorem writeBack_frame (s : State) (n : Nat) : Agree 0x38000 s (writeBack s n) := by
  unfold writeBack
  repeat' first
    | with_reducible assumption
    | with_reducible exact Agree.refl _ _
    | exact bitsIn_rfl rfl
    | with_reducible refine hbmPut_step ?_ ?_
    | with_reducible refine setBuf_step ?_ ?_
    | with_reducible refine Agree.ite ?_ ?_
    | dsimp only
    | split
    | (with_reducible refine Agree.of_pair (by assumption) ?_)
    | (with_reducible refine Agree.of_pair2 (by assumption) ?_)
    | intro _
theorem writeBack_step {M s0} {s : State} {n : Nat} (hs : bitsIn 0x38000 M = true) (hA : Agree M s0 s) : Agree M s0 (writeBack s n) :=
  hA.step hs (writeBack_frame s n)

theorem evict_frame (s : State) (n : Nat) : Agree 0x38000 s (evict s n) := by
  unfold evict
  repeat' first
    | with_reducible assumption
    | with_reducible exact Agree.refl _ _
    | exact bitsIn_rfl rfl
    | with_reducible refine writeBack_step ?_ ?_
    | ((conv => arg 3; arg 88; skip); with_reducible first | refine upd_bufs ?_ ?_)
    | with_reducible refine Agree.ite ?_ ?_
    | dsimp only
    | split
    | (with_reducible refine Agree.of_pair (by assumption) ?_)
    | (with_reducible refine Agree.of_pair2 (by assumption) ?_)
    | intro _
theorem evict_step {M s0} {s : State} {n : Nat} (hs : bitsIn 0x38000 M = true) (hA : Agree M s0 s) : Agree M s0 (evict s n) :=
  hA.step hs (evict_frame s n)

theorem allocate_frame (s : State) (n hint : Nat) : Agree 0x38000 s (allocate s n hint) := by
  unfold allocate
  repeat' first
    | with_reducible assumption
    | with_reducible exact Agree.refl _ _
    | exact bitsIn_rfl rfl
    | with_reducible refine evict_step ?_ ?_
    | with_reducible refine setBuf_step ?_ ?_
    | with_reducible refine Agree.ite ?_ ?_
    | dsimp only
    | split
    | (with_reducible refine Agree.of_pair (by assumption) ?_)
    | (with_reducible refine Agree.of_pair2 (by assumption) ?_)
    | intro _
theorem allocate_step {M s0} {s : State} {n hint : Nat} (hs : bitsIn 0x38000 M = true) (hA : Agree M s0 s) : Agree M s0 (allocate s n hint) :=
  hA.step hs (allocate_frame s n hint)

theorem fillLine_frame (s : State) (n mask : Nat) : Agree 0x20000 s (fillLine s n mask) := by
  unfold fillLine
  repeat' first
    | with_reducible assumption
    | with_reducible exact Agree.refl _ _
    | exact bitsIn_rfl rfl
    | with_reducible refine setBuf_step ?_ ?_
    | with_reducible refine Agree.ite ?_ ?_
    | dsimp only
    | split
    | (with_reducible refine Agree.of_pair (by assumption) ?_)
    | (with_reducible refine Agree.of_pair2 (by assumption) ?_)
    | intro _
theorem fillLine_step {M s0} {s : State} {n mask : Nat} (hs : bitsIn 0x20000 M = true) (hA : Agree M s0 s) : Agree M s0 (fillLine s n mask) :=
  hA.step hs (fillLine_frame s n mask)

theorem bufWrite_frame (s : State) (n o bad : Nat) (data : List Byte) : Agree 0x20000 s (bufWrite s n o bad data) := by
  unfold bufWrite
  repeat' first
    | with_reducible assumption
    | with_reducible exact Agree.refl _ _
    | exact bitsIn_rfl rfl
    | with_reducible refine setBuf_step ?_ ?_
    | with_reducible refine Agree.ite ?_ ?_
    | dsimp only
    | split
    | (with_reducible refine Agree.of_pair (by assumption) ?_)
    | (with_reducible refine Agree.of_pair2 (by assumption) ?_)
    | intro _
theorem bufWrite_step {M s0} {s : State} {n o bad : Nat} {data : List Byte} (hs : bitsIn 0x20000 M = true) (hA : Agree M s0 s) : Agree M s0 (bufWrite s n o bad data) :=
  hA.step hs (bufWrite_frame s n o bad data)

theorem lineWrite_frame (s : State) (n o bad hint : Nat) (data : List Byte) : Agree 0x38000 s (lineWrite s n o bad hint data) := by
  unfold lineWrite
  repeat' first
    | with_reducible assumption
    | with_reducible exact Agree.refl _ _
    | exact bitsIn_rfl rfl
    | with_reducible refine allocate_step ?_ ?_
    | with_reducible refine bufWrite_step ?_ ?_
    | with_reducible refine fillLine_step ?_ ?_
    | with_reducible refine hbmPut_step ?_ ?_
    | with_reducible refine setBuf_step ?_ ?_
    | with_reducible refine writeBack_step ?_ ?_
    | with_reducible refine Agree.ite ?_ ?_
    | dsimp only
    | split
    | (with_reducible refine Agree.of_pair (by assumption) ?_)
    | (with_reducible refine Agree.of_pair2 (by assumption) ?_)
    | intro _
theorem lineWrite_step {M s0} {s : State} {n o bad hint : Nat} {data : List Byte} (hs : bitsIn 0x38000 M = true) (hA : Agree M s0 s) : Agree M s0 (lineWrite s n o bad hint data) :=
  hA.step hs (lineWrite_frame s n o bad hint data)

theorem readAllocate_frame (s : State) (n hint : Nat) (spec : Bool) (o len : Nat) : Agree 0x38000 s (readAllocate s n hint spec o len) := by
  unfold readAllocate
  repeat' first
    | with_reducible assumption
    | with_reducible exact Agree.refl _ _
    | exact bitsIn_rfl rfl
    | with_reducible refine allocate_step ?_ ?_
    | with_reducible refine fillLine_step ?_ ?_
    | with_reducible refine Agree.ite ?_ ?_
    | dsimp only
    | split
    | (with_reducible refine Agree.of_pair (by assumption) ?_)
    | (with_reducible refine Agree.of_pair2 (by assumption) ?_)
    | intro _
theorem readAllocate_step {M s0} {s : State} {n hint : Nat} {spec : Bool} {o len : Nat} (hs : bitsIn 0x38000 M = true) (hA : Agree M s0 s) : Agree M s0 (readAllocate s n hint spec o len) :=
  hA.step hs (readAllocate_frame s n hint spec o len)

theorem touchLine_frame (s : State) (n : Nat) : Agree 0x20000 s (touchLine s n) := by
  unfold touchLine
  repeat' first
    | with_reducible assumption
    | with_reducible exact Agree.refl _ _
    | exact bitsIn_rfl rfl
    | with_reducible refine setBuf_step ?_ ?_
    | with_reducible refine Agree.ite ?_ ?_
    | dsimp only
    | split
    | (with_reducible refine Agree.of_pair (by assumption) ?_)
    | (with_reducible refine Agree.of_pair2 (by assumption) ?_)
    | intro _
theorem touchLine_step {M s0} {s : State} {n : Nat} (hs : bitsIn 0x20000 M = true) (hA : Agree M s0 s) : Agree M s0 (touchLine s n) :=
  hA.step hs (touchLine_frame s n)

theorem sramFind_frame (s : State) (n mask : Nat) (errs : List SectorErr) : Agree 0xc040000000000000000000000000000000000000000000000020000 s (sramFind s n mask errs) := by
  unfold sramFind
  repeat' first
    | with_reducible assumption
    | with_reducible exact Agree.refl _ _
    | exact bitsIn_rfl rfl
    | exact regIn_rfl rfl rfl
    | with_reducible refine countR_step ?_ ?_ ?_
    | with_reducible refine logUe_step ?_ ?_
    | with_reducible refine setBuf_step ?_ ?_
    | with_reducible refine Agree.ite ?_ ?_
    | (with_reducible refine Agree.foldl ?_ ?_; intro _ _ _)
    | (with_reducible refine Agree.foldl2 ?_ ?_; intro _ _ _)
    | (with_reducible refine Agree.foldl3 ?_ ?_; intro _ _ _)
    | (with_reducible refine Agree.foldl4 ?_ ?_; intro _ _ _)
    | dsimp only
    | split
    | (with_reducible refine Agree.of_pair (by assumption) ?_)
    | (with_reducible refine Agree.of_pair2 (by assumption) ?_)
    | intro _
theorem sramFind_step {M s0} {s : State} {n mask : Nat} {errs : List SectorErr} (hs : bitsIn 0xc040000000000000000000000000000000000000000000000020000 M = true) (hA : Agree M s0 s) : Agree M s0 (sramFind s n mask errs) :=
  hA.step hs (sramFind_frame s n mask errs)

theorem modImago_frame (s : State) (i : Nat) (f : Imago → Imago) : Agree 0x8000000000000000 s (modImago s i f) := by
  unfold modImago
  repeat' first
    | with_reducible assumption
    | with_reducible exact Agree.refl _ _
    | exact bitsIn_rfl rfl
    | ((conv => arg 3; arg 88; skip); with_reducible first | refine upd_imagos ?_ ?_)
    | with_reducible refine Agree.ite ?_ ?_
    | dsimp only
    | split
    | (with_reducible refine Agree.of_pair (by assumption) ?_)
    | (with_reducible refine Agree.of_pair2 (by assumption) ?_)
    | intro _
theorem modImago_step {M s0} {s : State} {i : Nat} {f : Imago → Imago} (hs : bitsIn 0x8000000000000000 M = true) (hA : Agree M s0 s) : Agree M s0 (modImago s i f) :=
  hA.step hs (modImago_frame s i f)

end Sys2Proof.Machine
end

