-- ==== Sys2Proof/Laws/FrameLinkOps.lean ====
section
/-!
SUPPORT. The frame of every function of Machine/LinkOps.lean that answers a state: the fields it can change, by mask.
-/

set_option linter.unusedTactic false
set_option linter.unreachableTactic false
set_option linter.unusedVariables false

namespace Sys2Proof.Machine

theorem modPort_frame (s : State) (p : Nat) (f : Port → Port) : Agree 0x8000000000000 s (modPort s p f) := by
  unfold modPort
  repeat' first
    | with_reducible assumption
    | with_reducible exact Agree.refl _ _
    | exact bitsIn_rfl rfl
    | ((conv => arg 3; arg 88; skip); with_reducible first | refine upd_ports ?_ ?_)
    | with_reducible refine Agree.ite ?_ ?_
    | dsimp only
    | split
    | (with_reducible refine Agree.of_pair (by assumption) ?_)
    | (with_reducible refine Agree.of_pair2 (by assumption) ?_)
    | intro _
theorem modPort_step {M s0} {s : State} {p : Nat} {f : Port → Port} (hs : bitsIn 0x8000000000000 M = true) (hA : Agree M s0 s) : Agree M s0 (modPort s p f) :=
  hA.step hs (modPort_frame s p f)

theorem rotate_frame (s : State) (key : Nat) (l : List Nat) : AgreeP 0x40000000000000 s (rotate s key l) := by
  unfold rotate
  repeat' first
    | with_reducible assumption
    | with_reducible exact Agree.refl _ _
    | exact bitsIn_rfl rfl
    | with_reducible refine AgreeP.some ?_
    | with_reducible refine AgreeP.ite ?_ ?_
    | with_reducible exact AgreeP.none
    | ((conv => arg 3; arg 88; skip); with_reducible first | refine upd_linkRr ?_ ?_)
    | with_reducible refine Agree.ite ?_ ?_
    | dsimp only
    | split
    | (with_reducible refine Agree.of_pair (by assumption) ?_)
    | (with_reducible refine Agree.of_pair2 (by assumption) ?_)
    | (with_reducible refine AgreeP.map (fun _ _ => ?_))
    | intro _
theorem rotate_step {M s0} {s : State} {key : Nat} {l : List Nat} (hs : bitsIn 0x40000000000000 M = true) (hA : Agree M s0 s) : AgreeP M s0 (rotate s key l) :=
  hA.stepP hs (rotate_frame s key l)

theorem pumpN_frame (s : State) (p n : Nat) : Agree 0x40000000000000000000000000000000000000000000008000000000000 s (pumpN s p n) := by
  have key : ∀ n s0 s, Agree 0x40000000000000000000000000000000000000000000008000000000000 s0 s → Agree 0x40000000000000000000000000000000000000000000008000000000000 s0 (pumpN s p n) := by
    intro n
    induction n with
    | zero => intro s0 s h; exact h
    | succ n ih =>
      intro s0 s h
      unfold pumpN
      dsimp only
      refine Agree.ite h ?_
      split
      · exact h
      · refine Agree.ite h (ih _ _ (countR_step (bitsIn_rfl rfl) (regIn_rfl rfl rfl) ?_))
        exact upd_ports (bitsIn_rfl rfl) h
  exact key n s s (Agree.refl _ _)
theorem pumpN_step {M s0} {s : State} {p n : Nat} (hs : bitsIn 0x40000000000000000000000000000000000000000000008000000000000 M = true) (h : Agree M s0 s) :
    Agree M s0 (pumpN s p n) := h.step hs (pumpN_frame s p n)

theorem pump_frame (s : State) (p : Nat) : Agree 0x40000000000000000000000000000000000000000000008000000000000 s (pump s p) := by
  unfold pump
  repeat' first
    | with_reducible assumption
    | with_reducible exact Agree.refl _ _
    | exact bitsIn_rfl rfl
    | exact regIn_rfl rfl rfl
    | with_reducible refine pumpN_step ?_ ?_
    | with_reducible refine Agree.ite ?_ ?_
    | dsimp only
    | split
    | (with_reducible refine Agree.of_pair (by assumption) ?_)
    | (with_reducible refine Agree.of_pair2 (by assumption) ?_)
    | intro _
theorem pump_step {M s0} {s : State} {p : Nat} (hs : bitsIn 0x40000000000000000000000000000000000000000000008000000000000 M = true) (hA : Agree M s0 s) : Agree M s0 (pump s p) :=
  hA.step hs (pump_frame s p)

theorem sendOn_frame (s : State) (p : Nat) (m : LinkMsg) : Agree 0x40000000000000000000000000000000000000000000008000000000000 s (sendOn s p m) := by
  unfold sendOn
  repeat' first
    | with_reducible assumption
    | with_reducible exact Agree.refl _ _
    | exact bitsIn_rfl rfl
    | exact regIn_rfl rfl rfl
    | with_reducible refine modPort_step ?_ ?_
    | with_reducible refine pump_step ?_ ?_
    | with_reducible refine Agree.ite ?_ ?_
    | dsimp only
    | split
    | (with_reducible refine Agree.of_pair (by assumption) ?_)
    | (with_reducible refine Agree.of_pair2 (by assumption) ?_)
    | intro _
theorem sendOn_step {M s0} {s : State} {p : Nat} {m : LinkMsg} (hs : bitsIn 0x40000000000000000000000000000000000000000000008000000000000 M = true) (hA : Agree M s0 s) : Agree M s0 (sendOn s p m) :=
  hA.step hs (sendOn_frame s p m)

theorem sendMsg_frame (s : State) (m : LinkMsg) : AgreeP 0x40000000000000000000000000000000000000000000048000000000000 s (sendMsg s m) := by
  unfold sendMsg
  repeat' first
    | with_reducible assumption
    | with_reducible exact Agree.refl _ _
    | exact bitsIn_rfl rfl
    | exact regIn_rfl rfl rfl
    | with_reducible refine AgreeP.some ?_
    | with_reducible refine AgreeP.ite ?_ ?_
    | with_reducible exact AgreeP.none
    | with_reducible refine rotate_step ?_ ?_
    | with_reducible refine sendOn_step ?_ ?_
    | with_reducible refine Agree.ite ?_ ?_
    | dsimp only
    | split
    | (with_reducible refine Agree.of_pair (by assumption) ?_)
    | (with_reducible refine Agree.of_pair2 (by assumption) ?_)
    | (with_reducible refine AgreeP.of ?_ (by assumption))
    | (with_reducible refine AgreeP.map (fun _ _ => ?_))
    | intro _
theorem sendMsg_step {M s0} {s : State} {m : LinkMsg} (hs : bitsIn 0x40000000000000000000000000000000000000000000048000000000000 M = true) (hA : Agree M s0 s) : AgreeP M s0 (sendMsg s m) :=
  hA.stepP hs (sendMsg_frame s m)

theorem sendOrDrop_frame (s : State) (m : LinkMsg) : Agree 0x40400000000000000000000000000000000000000000048000000000000 s (sendOrDrop s m) := by
  unfold sendOrDrop
  cases e : sendMsg s m with
  | none => exact countR_step (bitsIn_rfl rfl) (regIn_rfl rfl rfl) (Agree.refl _ _)
  | some x => exact sendMsg_step (bitsIn_rfl rfl) (Agree.refl _ _) x e
theorem sendOrDrop_step {M s0} {s : State} {m : LinkMsg} (hs : bitsIn 0x40400000000000000000000000000000000000000000048000000000000 M = true) (h : Agree M s0 s) :
    Agree M s0 (sendOrDrop s m) := h.step hs (sendOrDrop_frame s m)

theorem answerErr_frame (s : State) (m : LinkMsg) (code : Nat) : Agree 0x40400000000000000000000000000000000000000000048000000000000 s (answerErr s m code) := by
  unfold answerErr
  repeat' first
    | with_reducible assumption
    | with_reducible exact Agree.refl _ _
    | exact bitsIn_rfl rfl
    | exact regIn_rfl rfl rfl
    | with_reducible refine countR_step ?_ ?_ ?_
    | with_reducible refine sendOrDrop_step ?_ ?_
    | with_reducible refine Agree.ite ?_ ?_
    | dsimp only
    | split
    | (with_reducible refine Agree.of_pair (by assumption) ?_)
    | (with_reducible refine Agree.of_pair2 (by assumption) ?_)
    | intro _
theorem answerErr_step {M s0} {s : State} {m : LinkMsg} {code : Nat} (hs : bitsIn 0x40400000000000000000000000000000000000000000048000000000000 M = true) (hA : Agree M s0 s) : Agree M s0 (answerErr s m code) :=
  hA.step hs (answerErr_frame s m code)

end Sys2Proof.Machine
end

