-- ==== Sys2Proof/Laws/FrameMemOps.lean ====
section
/-!
SUPPORT. The frame of every function of Machine/MemOps.lean that answers a state: the fields it can change, by mask.
-/

set_option linter.unusedTactic false
set_option linter.unreachableTactic false
set_option linter.unusedVariables false

namespace Sys2Proof.Machine

theorem hostWrite_frame (s : State) (h : Nat) (data : List Byte) (bad : Nat) : Agree 0xc0000 s (hostWrite s h data bad) := by
  unfold hostWrite
  repeat' first
    | with_reducible assumption
    | with_reducible exact Agree.refl _ _
    | exact bitsIn_rfl rfl
    | ((with_reducible refine MemOf.intro ?_); first | exact fun _ w => ⟨w.1, canonical_memPut _ _ w.2.1, w.2.2⟩)
    | ((conv => arg 3; arg 88; skip); with_reducible first | refine upd_host ?_ ?_ ?_ | refine upd_hostPoison ?_ ?_)
    | with_reducible refine Agree.ite ?_ ?_
    | (with_reducible refine Agree.foldl ?_ ?_; intro _ _ _)
    | (with_reducible refine Agree.foldl2 ?_ ?_; intro _ _ _)
    | (with_reducible refine Agree.foldl3 ?_ ?_; intro _ _ _)
    | (with_reducible refine Agree.foldl4 ?_ ?_; intro _ _ _)
    | dsimp only
    | split
    | (with_reducible refine Agree.of_pair (by assumption) ?_)
    | (with_reducible refine Agree.of_pair2 (by assumption) ?_)
    | intro _
theorem hostWrite_step {M s0} {s : State} {h : Nat} {data : List Byte} {bad : Nat} (hs : bitsIn 0xc0000 M = true) (hA : Agree M s0 s) : Agree M s0 (hostWrite s h data bad) :=
  hA.step hs (hostWrite_frame s h data bad)

theorem quietReqs_frame (s : State) : Agree 0x4000 s (quietReqs s) := by
  unfold quietReqs
  repeat' first
    | with_reducible assumption
    | with_reducible exact Agree.refl _ _
    | exact bitsIn_rfl rfl
    | ((conv => arg 3; arg 88; skip); with_reducible first | refine upd_reqs ?_ ?_)
    | with_reducible refine Agree.ite ?_ ?_
    | dsimp only
    | split
    | (with_reducible refine Agree.of_pair (by assumption) ?_)
    | (with_reducible refine Agree.of_pair2 (by assumption) ?_)
    | intro _
theorem quietReqs_step {M s0} {s : State} (hs : bitsIn 0x4000 M = true) (hA : Agree M s0 s) : Agree M s0 (quietReqs s) :=
  hA.step hs (quietReqs_frame s)

theorem selfErr_frame (s : State) (m : LinkMsg) (code : Nat) : Agree 0x10000000000000 s (selfErr s m code) := by
  unfold selfErr
  repeat' first
    | with_reducible assumption
    | with_reducible exact Agree.refl _ _
    | exact bitsIn_rfl rfl
    | ((conv => arg 3; arg 88; skip); with_reducible first | refine upd_linkIn ?_ ?_)
    | with_reducible refine Agree.ite ?_ ?_
    | dsimp only
    | split
    | (with_reducible refine Agree.of_pair (by assumption) ?_)
    | (with_reducible refine Agree.of_pair2 (by assumption) ?_)
    | intro _
theorem selfErr_step {M s0} {s : State} {m : LinkMsg} {code : Nat} (hs : bitsIn 0x10000000000000 M = true) (hA : Agree M s0 s) : Agree M s0 (selfErr s m code) :=
  hA.step hs (selfErr_frame s m code)

theorem fixHostReads_frame (s : State) (r : MemReq) : Agree 0x4000 s (fixHostReads s r) := by
  unfold fixHostReads
  repeat' first
    | with_reducible assumption
    | with_reducible exact Agree.refl _ _
    | exact bitsIn_rfl rfl
    | ((conv => arg 3; arg 88; skip); with_reducible first | refine upd_reqs ?_ ?_)
    | with_reducible refine Agree.ite ?_ ?_
    | dsimp only
    | split
    | (with_reducible refine Agree.of_pair (by assumption) ?_)
    | (with_reducible refine Agree.of_pair2 (by assumption) ?_)
    | intro _
theorem fixHostReads_step {M s0} {s : State} {r : MemReq} (hs : bitsIn 0x4000 M = true) (hA : Agree M s0 s) : Agree M s0 (fixHostReads s r) :=
  hA.step hs (fixHostReads_frame s r)

theorem setReq_frame (s : State) (id : Nat) (r : MemReq) : Agree 0x4000 s (setReq s id r) := by
  unfold setReq
  repeat' first
    | with_reducible assumption
    | with_reducible exact Agree.refl _ _
    | exact bitsIn_rfl rfl
    | ((conv => arg 3; arg 88; skip); with_reducible first | refine upd_reqs ?_ ?_)
    | with_reducible refine Agree.ite ?_ ?_
    | dsimp only
    | split
    | (with_reducible refine Agree.of_pair (by assumption) ?_)
    | (with_reducible refine Agree.of_pair2 (by assumption) ?_)
    | intro _
theorem setReq_step {M s0} {s : State} {id : Nat} {r : MemReq} (hs : bitsIn 0x4000 M = true) (hA : Agree M s0 s) : Agree M s0 (setReq s id r) :=
  hA.step hs (setReq_frame s id r)

theorem poisonedBack_frame (s : State) (id : Nat) (r : MemReq) : Agree 0x4080 s (poisonedBack s id r) := by
  unfold poisonedBack
  repeat' first
    | with_reducible assumption
    | with_reducible exact Agree.refl _ _
    | exact bitsIn_rfl rfl
    | with_reducible refine freeBytes_step ?_ ?_
    | with_reducible refine setReq_step ?_ ?_
    | with_reducible refine Agree.ite ?_ ?_
    | dsimp only
    | split
    | (with_reducible refine Agree.of_pair (by assumption) ?_)
    | (with_reducible refine Agree.of_pair2 (by assumption) ?_)
    | intro _
theorem poisonedBack_step {M s0} {s : State} {id : Nat} {r : MemReq} (hs : bitsIn 0x4080 M = true) (hA : Agree M s0 s) : Agree M s0 (poisonedBack s id r) :=
  hA.step hs (poisonedBack_frame s id r)

theorem launch_frame (s : State) (id : Nat) (r : MemReq) : Agree 0x404002000000000000000000000000000000000000000580000000c4080 s (launch s id r) := by
  unfold launch
  repeat' first
    | with_reducible assumption
    | with_reducible exact Agree.refl _ _
    | exact bitsIn_rfl rfl
    | exact regIn_rfl rfl rfl
    | with_reducible refine countR_step ?_ ?_ ?_
    | with_reducible refine fixHostReads_step ?_ ?_
    | with_reducible refine hostWrite_step ?_ ?_
    | with_reducible refine poisonedBack_step ?_ ?_
    | with_reducible refine satF_step ?_ ?_ ?_
    | with_reducible refine selfErr_step ?_ ?_
    | with_reducible refine sendMsg_step ?_ ?_
    | with_reducible refine setReq_step ?_ ?_
    | with_reducible refine Agree.ite ?_ ?_
    | dsimp only
    | split
    | (with_reducible refine Agree.of_pair (by assumption) ?_)
    | (with_reducible refine Agree.of_pair2 (by assumption) ?_)
    | (with_reducible refine AgreeP.of ?_ (by assumption))
    | intro _
theorem launch_step {M s0} {s : State} {id : Nat} {r : MemReq} (hs : bitsIn 0x404002000000000000000000000000000000000000000580000000c4080 M = true) (hA : Agree M s0 s) : Agree M s0 (launch s id r) :=
  hA.step hs (launch_frame s id r)

theorem demote_frame (s : State) (r : MemReq) : Agree 0x4080000000000000000000000000000000000000000000 s (demote s r).2 := by
  unfold demote
  repeat' first
    | with_reducible assumption
    | with_reducible exact Agree.refl _ _
    | exact bitsIn_rfl rfl
    | exact regIn_rfl rfl rfl
    | with_reducible refine countR_step ?_ ?_ ?_
    | with_reducible refine Agree.ite ?_ ?_
    | dsimp only
    | split
    | (with_reducible refine Agree.of_pair (by assumption) ?_)
    | (with_reducible refine Agree.of_pair2 (by assumption) ?_)
    | intro _
theorem demote_step {M s0} {s : State} {r : MemReq} (hs : bitsIn 0x4080000000000000000000000000000000000000000000 M = true) (hA : Agree M s0 s) : Agree M s0 (demote s r).2 :=
  hA.step hs (demote_frame s r)

theorem regulate_frame (s : State) (r : MemReq) (dst : Nat) : Agree 0x4080000000000000000000000000000000000000400000 s (regulate s r dst).2 := by
  unfold regulate
  repeat' first
    | with_reducible assumption
    | with_reducible exact Agree.refl _ _
    | exact bitsIn_rfl rfl
    | exact regIn_rfl rfl rfl
    | with_reducible refine demote_step ?_ ?_
    | ((conv => arg 3; arg 88; skip); with_reducible first | refine upd_regCounts ?_ ?_)
    | with_reducible refine Agree.ite ?_ ?_
    | dsimp only
    | split
    | (with_reducible refine Agree.of_pair (by assumption) ?_)
    | (with_reducible refine Agree.of_pair2 (by assumption) ?_)
    | intro _
theorem regulate_step {M s0} {s : State} {r : MemReq} {dst : Nat} (hs : bitsIn 0x4080000000000000000000000000000000000000400000 M = true) (hA : Agree M s0 s) : Agree M s0 (regulate s r dst).2 :=
  hA.step hs (regulate_frame s r dst)

theorem sendReq_frame (s : State) (r : MemReq) (dst : Nat) : Agree 0x404002000000040800000000000000000000000000000580000004c4180 s (sendReq s r dst).2 := by
  unfold sendReq
  repeat' first
    | with_reducible assumption
    | with_reducible exact Agree.refl _ _
    | exact bitsIn_rfl rfl
    | exact regIn_rfl rfl rfl
    | with_reducible refine fresh_step ?_ ?_
    | with_reducible refine launch_step ?_ ?_
    | with_reducible refine regulate_step ?_ ?_
    | with_reducible refine setReq_step ?_ ?_
    | with_reducible refine Agree.ite ?_ ?_
    | dsimp only
    | split
    | (with_reducible refine Agree.of_pair (by assumption) ?_)
    | (with_reducible refine Agree.of_pair2 (by assumption) ?_)
    | intro _
theorem sendReq_step {M s0} {s : State} {r : MemReq} {dst : Nat} (hs : bitsIn 0x404002000000040800000000000000000000000000000580000004c4180 M = true) (hA : Agree M s0 s) : Agree M s0 (sendReq s r dst).2 :=
  hA.step hs (sendReq_frame s r dst)

theorem settleOp_frame (s : State) (op : Nat) : Agree 0x1000 s (settleOp s op) := by
  unfold settleOp
  repeat' first
    | with_reducible assumption
    | with_reducible exact Agree.refl _ _
    | exact bitsIn_rfl rfl
    | ((conv => arg 3; arg 88; skip); with_reducible first | refine upd_ops ?_ ?_)
    | with_reducible refine Agree.ite ?_ ?_
    | dsimp only
    | split
    | (with_reducible refine Agree.of_pair (by assumption) ?_)
    | (with_reducible refine Agree.of_pair2 (by assumption) ?_)
    | intro _
theorem settleOp_step {M s0} {s : State} {op : Nat} (hs : bitsIn 0x1000 M = true) (hA : Agree M s0 s) : Agree M s0 (settleOp s op) :=
  hA.step hs (settleOp_frame s op)

theorem countPoison_frame (s : State) (bad : Nat) : Agree 0x80000000000000000000000000000000000000000000000000000 s (countPoison s bad) := by
  unfold countPoison
  repeat' first
    | with_reducible assumption
    | with_reducible exact Agree.refl _ _
    | exact bitsIn_rfl rfl
    | exact regIn_rfl rfl rfl
    | with_reducible refine countR_step ?_ ?_ ?_
    | with_reducible refine Agree.ite ?_ ?_
    | dsimp only
    | split
    | (with_reducible refine Agree.of_pair (by assumption) ?_)
    | (with_reducible refine Agree.of_pair2 (by assumption) ?_)
    | intro _
theorem countPoison_step {M s0} {s : State} {bad : Nat} (hs : bitsIn 0x80000000000000000000000000000000000000000000000000000 M = true) (hA : Agree M s0 s) : Agree M s0 (countPoison s bad) :=
  hA.step hs (countPoison_frame s bad)

theorem nextHeld_of {M s0} {s : State} {id : Nat} {r : MemReq} {t : State} (e : nextHeld s = some (id, r, t))
    (hs : bitsIn 0x4080000000000000000000000000000000000000404000 M = true) (h : Agree M s0 s) : Agree M s0 t := by
  unfold nextHeld at e
  obtain ⟨kv, -, e⟩ := List.mem_filterMap.mp (List.mem_of_mem_head? (Option.mem_def.mpr e))
  dsimp only at e
  split at e
  · exact absurd e (by simp)
  · split at e
    · exact absurd e (by simp)
    · simp only [Option.some.injEq, Prod.mk.injEq] at e
      obtain ⟨-, -, rfl⟩ := e
      exact upd_reqs (bitsIn_trans rfl hs) (regulate_step (bitsIn_trans rfl hs) h)

theorem answerPeer_frame (s : State) (msg type ofs : Nat) (data : List Byte) (poison : Nat) : Agree 0x40400000000000000000000000000000000000000000068000000000000 s (answerPeer s msg type ofs data poison) := by
  unfold answerPeer
  repeat' first
    | with_reducible assumption
    | with_reducible exact Agree.refl _ _
    | exact bitsIn_rfl rfl
    | exact regIn_rfl rfl rfl
    | with_reducible refine sendOrDrop_step ?_ ?_
    | ((conv => arg 3; arg 88; skip); with_reducible first | refine upd_linkReqs ?_ ?_)
    | with_reducible refine Agree.ite ?_ ?_
    | (with_reducible refine Agree.foldl ?_ ?_; intro _ _ _)
    | (with_reducible refine Agree.foldl2 ?_ ?_; intro _ _ _)
    | (with_reducible refine Agree.foldl3 ?_ ?_; intro _ _ _)
    | (with_reducible refine Agree.foldl4 ?_ ?_; intro _ _ _)
    | dsimp only
    | split
    | (with_reducible refine Agree.of_pair (by assumption) ?_)
    | (with_reducible refine Agree.of_pair2 (by assumption) ?_)
    | intro _
theorem answerPeer_step {M s0} {s : State} {msg type ofs : Nat} {data : List Byte} {poison : Nat} (hs : bitsIn 0x40400000000000000000000000000000000000000000068000000000000 M = true) (hA : Agree M s0 s) : Agree M s0 (answerPeer s msg type ofs data poison) :=
  hA.step hs (answerPeer_frame s msg type ofs data poison)

theorem burstWritten_frame (s : State) (u k id : Nat) : Agree 0x2000000000000000000000000000000000000000000002000 s (burstWritten s u k id) := by
  unfold burstWritten
  repeat' first
    | with_reducible assumption
    | with_reducible exact Agree.refl _ _
    | exact bitsIn_rfl rfl
    | exact regIn_rfl rfl rfl
    | with_reducible refine raiseCredit_step ?_ ?_
    | with_reducible refine setChan_step ?_ ?_
    | with_reducible refine Agree.ite ?_ ?_
    | dsimp only
    | split
    | (with_reducible refine Agree.of_pair (by assumption) ?_)
    | (with_reducible refine Agree.of_pair2 (by assumption) ?_)
    | intro _
theorem burstWritten_step {M s0} {s : State} {u k id : Nat} (hs : bitsIn 0x2000000000000000000000000000000000000000000002000 M = true) (hA : Agree M s0 s) : Agree M s0 (burstWritten s u k id) :=
  hA.step hs (burstWritten_frame s u k id)

theorem ownerWritten_frame (s : State) (id : Nat) (r : MemReq) : Agree 0x40400000002000000000000000000000000000000000068000000003000 s (ownerWritten s id r) := by
  unfold ownerWritten
  repeat' first
    | with_reducible assumption
    | with_reducible exact Agree.refl _ _
    | exact bitsIn_rfl rfl
    | exact regIn_rfl rfl rfl
    | with_reducible refine answerPeer_step ?_ ?_
    | with_reducible refine burstWritten_step ?_ ?_
    | with_reducible refine settleOp_step ?_ ?_
    | with_reducible refine Agree.ite ?_ ?_
    | dsimp only
    | split
    | (with_reducible refine Agree.of_pair (by assumption) ?_)
    | (with_reducible refine Agree.of_pair2 (by assumption) ?_)
    | intro _
theorem ownerWritten_step {M s0} {s : State} {id : Nat} {r : MemReq} (hs : bitsIn 0x40400000002000000000000000000000000000000000068000000003000 M = true) (hA : Agree M s0 s) : Agree M s0 (ownerWritten s id r) :=
  hA.step hs (ownerWritten_frame s id r)

theorem releaseHeld_frame (s : State) (n : Nat) : Agree 0x404002000020040800000000000000000000000000000780000004c7080 s (releaseHeld s n) := by
  have key : ∀ n s0 s, Agree 0x404002000020040800000000000000000000000000000780000004c7080 s0 s → Agree 0x404002000020040800000000000000000000000000000780000004c7080 s0 (releaseHeld s n) := by
    intro n
    induction n with
    | zero => intro s0 s h; exact h
    | succ n ih =>
      intro s0 s h
      unfold releaseHeld
      dsimp only
      split
      · exact h
      · rename_i id r t e
        have h2 := launch_step (id := id) (r := r) (bitsIn_rfl rfl) (nextHeld_of e (bitsIn_rfl rfl) h)
        exact ih _ _ (Agree.ite h2 (ownerWritten_step (bitsIn_rfl rfl) h2))
  exact key n s s (Agree.refl _ _)
theorem releaseHeld_step {M s0} {s : State} {n : Nat} (hs : bitsIn 0x404002000020040800000000000000000000000000000780000004c7080 M = true) (h : Agree M s0 s) :
    Agree M s0 (releaseHeld s n) := h.step hs (releaseHeld_frame s n)

theorem forgetReqs_frame (s : State) (p : Nat → MemReq → Bool) : Agree 0x404002000020040800000000000000000000000000000780000004c7080 s (forgetReqs s p) := by
  unfold forgetReqs
  exact releaseHeld_step (bitsIn_rfl rfl) (upd_reqs (bitsIn_rfl rfl) (Agree.refl _ _))
theorem forgetReqs_step {M s0} {s : State} {p : Nat → MemReq → Bool} (hs : bitsIn 0x404002000020040800000000000000000000000000000780000004c7080 M = true) (h : Agree M s0 s) :
    Agree M s0 (forgetReqs s p) := h.step hs (forgetReqs_frame s p)

theorem dropReq_frame (s : State) (id : Nat) : Agree 0x404002000020040800000000000000000000000000000780000004c7080 s (dropReq s id) := by
  unfold dropReq
  repeat' first
    | with_reducible assumption
    | with_reducible exact Agree.refl _ _
    | exact bitsIn_rfl rfl
    | exact regIn_rfl rfl rfl
    | with_reducible refine forgetReqs_step ?_ ?_
    | with_reducible refine Agree.ite ?_ ?_
    | dsimp only
    | split
    | (with_reducible refine Agree.of_pair (by assumption) ?_)
    | (with_reducible refine Agree.of_pair2 (by assumption) ?_)
    | intro _
theorem dropReq_step {M s0} {s : State} {id : Nat} (hs : bitsIn 0x404002000020040800000000000000000000000000000780000004c7080 M = true) (hA : Agree M s0 s) : Agree M s0 (dropReq s id) :=
  hA.step hs (dropReq_frame s id)

theorem missCheck_frame (s : State) (r : MemReq) (write : Bool) : Agree 0x10000000000000000000000000000000000002040200000000000000000000000000000004001000000 s (missCheck s r write) := by
  unfold missCheck
  repeat' first
    | with_reducible assumption
    | with_reducible exact Agree.refl _ _
    | exact bitsIn_rfl rfl
    | exact regIn_rfl rfl rfl
    | with_reducible refine countR_step ?_ ?_ ?_
    | with_reducible refine fabricFault_step ?_ ?_
    | with_reducible refine setF_step ?_ ?_ ?_
    | ((conv => arg 3; arg 88; skip); with_reducible first | refine upd_missPosted ?_ ?_)
    | with_reducible refine Agree.ite ?_ ?_
    | dsimp only
    | split
    | (with_reducible refine Agree.of_pair (by assumption) ?_)
    | (with_reducible refine Agree.of_pair2 (by assumption) ?_)
    | intro _
theorem missCheck_step {M s0} {s : State} {r : MemReq} {write : Bool} (hs : bitsIn 0x10000000000000000000000000000000000002040200000000000000000000000000000004001000000 M = true) (hA : Agree M s0 s) : Agree M s0 (missCheck s r write) :=
  hA.step hs (missCheck_frame s r write)

theorem readMiss_frame (s : State) (r : MemReq) : Agree 0x10000000000000000000000000000000000002040200000000000000000000000000000004001000000 s (readMiss s r) := by
  unfold readMiss
  repeat' first
    | with_reducible assumption
    | with_reducible exact Agree.refl _ _
    | exact bitsIn_rfl rfl
    | exact regIn_rfl rfl rfl
    | with_reducible refine missCheck_step ?_ ?_
    | with_reducible refine Agree.ite ?_ ?_
    | dsimp only
    | split
    | (with_reducible refine Agree.of_pair (by assumption) ?_)
    | (with_reducible refine Agree.of_pair2 (by assumption) ?_)
    | intro _
theorem readMiss_step {M s0} {s : State} {r : MemReq} (hs : bitsIn 0x10000000000000000000000000000000000002040200000000000000000000000000000004001000000 M = true) (hA : Agree M s0 s) : Agree M s0 (readMiss s r) :=
  hA.step hs (readMiss_frame s r)

theorem readLine_frame (s : State) (here : Nat × Nat) (g n : Nat) : Agree 0x10000000000000000000000000000000000000000000000000038000 s (readLine s here g n).2 := by
  unfold readLine
  repeat' first
    | with_reducible assumption
    | with_reducible exact Agree.refl _ _
    | exact bitsIn_rfl rfl
    | exact regIn_rfl rfl rfl
    | with_reducible refine countR_step ?_ ?_ ?_
    | with_reducible refine readAllocate_step ?_ ?_
    | with_reducible refine Agree.ite ?_ ?_
    | dsimp only
    | split
    | (with_reducible refine Agree.of_pair (by assumption) ?_)
    | (with_reducible refine Agree.of_pair2 (by assumption) ?_)
    | intro _
theorem readLine_step {M s0} {s : State} {here : Nat × Nat} {g n : Nat} (hs : bitsIn 0x10000000000000000000000000000000000000000000000000038000 M = true) (hA : Agree M s0 s) : Agree M s0 (readLine s here g n).2 :=
  hA.step hs (readLine_frame s here g n)

theorem readNow_frame (s : State) (here : Nat × Nat) (g n : Nat) : Agree 0x10080000000000000000000000000000000000000000000000038000 s (readNow s here g n).2 := by
  unfold readNow
  repeat' first
    | with_reducible assumption
    | with_reducible exact Agree.refl _ _
    | exact bitsIn_rfl rfl
    | exact regIn_rfl rfl rfl
    | with_reducible refine countPoison_step ?_ ?_
    | with_reducible refine readLine_step ?_ ?_
    | with_reducible refine Agree.ite ?_ ?_
    | dsimp only
    | split
    | (with_reducible refine Agree.of_pair (by assumption) ?_)
    | (with_reducible refine Agree.of_pair2 (by assumption) ?_)
    | intro _
theorem readNow_step {M s0} {s : State} {here : Nat × Nat} {g n : Nat} (hs : bitsIn 0x10080000000000000000000000000000000000000000000000038000 M = true) (hA : Agree M s0 s) : Agree M s0 (readNow s here g n).2 :=
  hA.step hs (readNow_frame s here g n)

theorem writeNow_frame (s : State) (here : Nat × Nat) (g bad : Nat) (data : List Byte) : Agree 0x202000000000000000000000000000000000000000000000000f8000 s (writeNow s here g bad data) := by
  unfold writeNow
  repeat' first
    | with_reducible assumption
    | with_reducible exact Agree.refl _ _
    | exact bitsIn_rfl rfl
    | exact regIn_rfl rfl rfl
    | with_reducible refine countR_step ?_ ?_ ?_
    | with_reducible refine hostWrite_step ?_ ?_
    | with_reducible refine lineWrite_step ?_ ?_
    | with_reducible refine satF_step ?_ ?_ ?_
    | with_reducible refine Agree.ite ?_ ?_
    | dsimp only
    | split
    | (with_reducible refine Agree.of_pair (by assumption) ?_)
    | (with_reducible refine Agree.of_pair2 (by assumption) ?_)
    | intro _
theorem writeNow_step {M s0} {s : State} {here : Nat × Nat} {g bad : Nat} {data : List Byte} (hs : bitsIn 0x202000000000000000000000000000000000000000000000000f8000 M = true) (hA : Agree M s0 s) : Agree M s0 (writeNow s here g bad data) :=
  hA.step hs (writeNow_frame s here g bad data)

theorem endWrite_frame (s : State) (id : Nat) (r : MemReq) : Agree 0x100000000000000000000000404002000020060c02000000000000000000000000000780040014c7080 s (endWrite s id r) := by
  unfold endWrite
  repeat' first
    | with_reducible assumption
    | with_reducible exact Agree.refl _ _
    | exact bitsIn_rfl rfl
    | exact regIn_rfl rfl rfl
    | with_reducible refine dropReq_step ?_ ?_
    | with_reducible refine missCheck_step ?_ ?_
    | with_reducible refine ownerWritten_step ?_ ?_
    | with_reducible refine Agree.ite ?_ ?_
    | dsimp only
    | split
    | (with_reducible refine Agree.of_pair (by assumption) ?_)
    | (with_reducible refine Agree.of_pair2 (by assumption) ?_)
    | intro _
theorem endWrite_step {M s0} {s : State} {id : Nat} {r : MemReq} (hs : bitsIn 0x100000000000000000000000404002000020060c02000000000000000000000000000780040014c7080 M = true) (hA : Agree M s0 s) : Agree M s0 (endWrite s id r) :=
  hA.step hs (endWrite_frame s id r)

theorem execQosWinLenWrite_frame (v : Nat) (s : State) : AgreeO 0x100000000000000000000000000000000000000000 s (execQosWinLenWrite v s) := by
  unfold execQosWinLenWrite
  repeat' first
    | with_reducible assumption
    | with_reducible exact Agree.refl _ _
    | exact bitsIn_rfl rfl
    | exact regIn_rfl rfl rfl
    | with_reducible refine AgreeO.next ?_
    | with_reducible refine AgreeO.ite ?_ ?_
    | with_reducible exact AgreeO.refused
    | with_reducible exact AgreeO.fault
    | with_reducible refine setF_step ?_ ?_ ?_
    | with_reducible refine Agree.ite ?_ ?_
    | dsimp only
    | split
    | (with_reducible refine Agree.of_pair (by assumption) ?_)
    | (with_reducible refine Agree.of_pair2 (by assumption) ?_)
    | intro _
theorem execQosWinLenWrite_step {M s0} {v : Nat} {s : State} (hs : bitsIn 0x100000000000000000000000000000000000000000 M = true) (hA : Agree M s0 s) : AgreeO M s0 (execQosWinLenWrite v s) :=
  hA.stepO hs (execQosWinLenWrite_frame v s)

theorem execWb_frame (m : Nat) (s : State) : AgreeO 0x1000000000000000000000000000000000000000000000000038000 s (execWb m s) := by
  unfold execWb
  repeat' first
    | with_reducible assumption
    | with_reducible exact Agree.refl _ _
    | exact bitsIn_rfl rfl
    | exact regIn_rfl rfl rfl
    | with_reducible refine AgreeO.next ?_
    | with_reducible refine AgreeO.ite ?_ ?_
    | with_reducible exact AgreeO.refused
    | with_reducible exact AgreeO.fault
    | with_reducible refine setF_step ?_ ?_ ?_
    | with_reducible refine writeBack_step ?_ ?_
    | with_reducible refine Agree.ite ?_ ?_
    | (with_reducible refine Agree.foldl ?_ ?_; intro _ _ _)
    | (with_reducible refine Agree.foldl2 ?_ ?_; intro _ _ _)
    | (with_reducible refine Agree.foldl3 ?_ ?_; intro _ _ _)
    | (with_reducible refine Agree.foldl4 ?_ ?_; intro _ _ _)
    | dsimp only
    | split
    | (with_reducible refine Agree.of_pair (by assumption) ?_)
    | (with_reducible refine Agree.of_pair2 (by assumption) ?_)
    | intro _
theorem execWb_step {M s0} {m : Nat} {s : State} (hs : bitsIn 0x1000000000000000000000000000000000000000000000000038000 M = true) (hA : Agree M s0 s) : AgreeO M s0 (execWb m s) :=
  hA.stepO hs (execWb_frame m s)

theorem execWbinv_frame (m : Nat) (s : State) : AgreeO 0x1000000000000000000000000000000000000000000000000038000 s (execWbinv m s) := by
  unfold execWbinv
  repeat' first
    | with_reducible assumption
    | with_reducible exact Agree.refl _ _
    | exact bitsIn_rfl rfl
    | exact regIn_rfl rfl rfl
    | with_reducible refine AgreeO.next ?_
    | with_reducible refine AgreeO.ite ?_ ?_
    | with_reducible exact AgreeO.refused
    | with_reducible exact AgreeO.fault
    | with_reducible refine evict_step ?_ ?_
    | with_reducible refine setF_step ?_ ?_ ?_
    | with_reducible refine Agree.ite ?_ ?_
    | (with_reducible refine Agree.foldl ?_ ?_; intro _ _ _)
    | (with_reducible refine Agree.foldl2 ?_ ?_; intro _ _ _)
    | (with_reducible refine Agree.foldl3 ?_ ?_; intro _ _ _)
    | (with_reducible refine Agree.foldl4 ?_ ?_; intro _ _ _)
    | dsimp only
    | split
    | (with_reducible refine Agree.of_pair (by assumption) ?_)
    | (with_reducible refine Agree.of_pair2 (by assumption) ?_)
    | intro _
theorem execWbinv_step {M s0} {m : Nat} {s : State} (hs : bitsIn 0x1000000000000000000000000000000000000000000000000038000 M = true) (hA : Agree M s0 s) : AgreeO M s0 (execWbinv m s) :=
  hA.stepO hs (execWbinv_frame m s)

theorem endRead_frame (s : State) (id : Nat) (r : MemReq) (data : List Byte) (bad : Nat) : Agree 0x100000000000000000000000404002000020060c02000000000000000000000000000780040014c7080 s (endRead s id r data bad) := by
  unfold endRead
  repeat' first
    | with_reducible assumption
    | with_reducible exact Agree.refl _ _
    | exact bitsIn_rfl rfl
    | exact regIn_rfl rfl rfl
    | with_reducible refine answerPeer_step ?_ ?_
    | with_reducible refine dropReq_step ?_ ?_
    | with_reducible refine missCheck_step ?_ ?_
    | with_reducible refine setReq_step ?_ ?_
    | with_reducible refine Agree.ite ?_ ?_
    | dsimp only
    | split
    | (with_reducible refine Agree.of_pair (by assumption) ?_)
    | (with_reducible refine Agree.of_pair2 (by assumption) ?_)
    | intro _
theorem endRead_step {M s0} {s : State} {id : Nat} {r : MemReq} {data : List Byte} {bad : Nat} (hs : bitsIn 0x100000000000000000000000404002000020060c02000000000000000000000000000780040014c7080 M = true) (hA : Agree M s0 s) : Agree M s0 (endRead s id r data bad) :=
  hA.step hs (endRead_frame s id r data bad)

theorem performRead_frame (s : State) (id : Nat) (r : MemReq) : Agree 0x100000000000000000000000404102000020060c02000000000000000000000000000780040014c7080 s (performRead s id r) := by
  unfold performRead
  repeat' first
    | with_reducible assumption
    | with_reducible exact Agree.refl _ _
    | exact bitsIn_rfl rfl
    | exact regIn_rfl rfl rfl
    | with_reducible refine countR_step ?_ ?_ ?_
    | with_reducible refine endRead_step ?_ ?_
    | with_reducible refine Agree.ite ?_ ?_
    | dsimp only
    | split
    | (with_reducible refine Agree.of_pair (by assumption) ?_)
    | (with_reducible refine Agree.of_pair2 (by assumption) ?_)
    | intro _
theorem performRead_step {M s0} {s : State} {id : Nat} {r : MemReq} (hs : bitsIn 0x100000000000000000000000404102000020060c02000000000000000000000000000780040014c7080 M = true) (hA : Agree M s0 s) : Agree M s0 (performRead s id r) :=
  hA.step hs (performRead_frame s id r)

theorem performWrite_frame (s : State) (id : Nat) (r : MemReq) : Agree 0x100000000000000000000000404202000020060c02000000000000000000000000000780040014ff080 s (performWrite s id r) := by
  unfold performWrite
  repeat' first
    | with_reducible assumption
    | with_reducible exact Agree.refl _ _
    | exact bitsIn_rfl rfl
    | exact regIn_rfl rfl rfl
    | with_reducible refine countR_step ?_ ?_ ?_
    | with_reducible refine endWrite_step ?_ ?_
    | with_reducible refine lineWrite_step ?_ ?_
    | with_reducible refine satF_step ?_ ?_ ?_
    | with_reducible refine Agree.ite ?_ ?_
    | dsimp only
    | split
    | (with_reducible refine Agree.of_pair (by assumption) ?_)
    | (with_reducible refine Agree.of_pair2 (by assumption) ?_)
    | intro _
theorem performWrite_step {M s0} {s : State} {id : Nat} {r : MemReq} (hs : bitsIn 0x100000000000000000000000404202000020060c02000000000000000000000000000780040014ff080 M = true) (hA : Agree M s0 s) : Agree M s0 (performWrite s id r) :=
  hA.step hs (performWrite_frame s id r)

theorem execBufferRequest_frame (id : Nat) (errs : List SectorErr) (s : State) : AgreeO 0x1000000000000000000000004043c2400020060c02000000000000000000000000000780040014ff080 s (execBufferRequest id errs s) := by
  unfold execBufferRequest
  repeat' first
    | with_reducible assumption
    | with_reducible exact Agree.refl _ _
    | exact bitsIn_rfl rfl
    | exact regIn_rfl rfl rfl
    | with_reducible refine AgreeO.next ?_
    | with_reducible refine AgreeO.ite ?_ ?_
    | with_reducible exact AgreeO.refused
    | with_reducible exact AgreeO.fault
    | with_reducible refine performRead_step ?_ ?_
    | with_reducible refine performWrite_step ?_ ?_
    | with_reducible refine setReq_step ?_ ?_
    | with_reducible refine sramFind_step ?_ ?_
    | with_reducible refine touchLine_step ?_ ?_
    | with_reducible refine Agree.ite ?_ ?_
    | dsimp only
    | split
    | (with_reducible refine Agree.of_pair (by assumption) ?_)
    | (with_reducible refine Agree.of_pair2 (by assumption) ?_)
    | intro _
theorem execBufferRequest_step {M s0} {id : Nat} {errs : List SectorErr} {s : State} (hs : bitsIn 0x1000000000000000000000004043c2400020060c02000000000000000000000000000780040014ff080 M = true) (hA : Agree M s0 s) : AgreeO M s0 (execBufferRequest id errs s) :=
  hA.stepO hs (execBufferRequest_frame id errs s)

theorem execHbmAccessComplete_frame (id : Nat) (errs : List SectorErr) (s : State) : AgreeO 0x1000000000000000000000004043c2400020060c02000000000000000000000000000780040014ff080 s (execHbmAccessComplete id errs s) := by
  unfold execHbmAccessComplete
  repeat' first
    | with_reducible assumption
    | with_reducible exact Agree.refl _ _
    | exact bitsIn_rfl rfl
    | exact regIn_rfl rfl rfl
    | with_reducible refine AgreeO.next ?_
    | with_reducible refine AgreeO.ite ?_ ?_
    | with_reducible exact AgreeO.refused
    | with_reducible exact AgreeO.fault
    | with_reducible refine allocate_step ?_ ?_
    | with_reducible refine fillLine_step ?_ ?_
    | with_reducible refine hbmFind_step ?_ ?_
    | with_reducible refine performRead_step ?_ ?_
    | with_reducible refine performWrite_step ?_ ?_
    | with_reducible refine readAllocate_step ?_ ?_
    | with_reducible refine setReq_step ?_ ?_
    | with_reducible refine Agree.ite ?_ ?_
    | dsimp only
    | split
    | (with_reducible refine Agree.of_pair (by assumption) ?_)
    | (with_reducible refine Agree.of_pair2 (by assumption) ?_)
    | intro _
theorem execHbmAccessComplete_step {M s0} {id : Nat} {errs : List SectorErr} {s : State} (hs : bitsIn 0x1000000000000000000000004043c2400020060c02000000000000000000000000000780040014ff080 M = true) (hA : Agree M s0 s) : AgreeO M s0 (execHbmAccessComplete id errs s) :=
  hA.stepO hs (execHbmAccessComplete_frame id errs s)

theorem execBufferAtomic_frame (id : Nat) (errs : List SectorErr) (s : State) : AgreeO 0x1000000000000000000000004043c2400020060c02000000000000000000000000000780040014e7080 s (execBufferAtomic id errs s) := by
  unfold execBufferAtomic
  repeat' first
    | with_reducible assumption
    | with_reducible exact Agree.refl _ _
    | exact bitsIn_rfl rfl
    | exact regIn_rfl rfl rfl
    | with_reducible refine AgreeO.next ?_
    | with_reducible refine AgreeO.ite ?_ ?_
    | with_reducible exact AgreeO.refused
    | with_reducible exact AgreeO.fault
    | with_reducible refine bufWrite_step ?_ ?_
    | with_reducible refine countR_step ?_ ?_ ?_
    | with_reducible refine endRead_step ?_ ?_
    | with_reducible refine endWrite_step ?_ ?_
    | with_reducible refine satF_step ?_ ?_ ?_
    | with_reducible refine setReq_step ?_ ?_
    | with_reducible refine sramFind_step ?_ ?_
    | with_reducible refine Agree.ite ?_ ?_
    | dsimp only
    | split
    | (with_reducible refine Agree.of_pair (by assumption) ?_)
    | (with_reducible refine Agree.of_pair2 (by assumption) ?_)
    | intro _
theorem execBufferAtomic_step {M s0} {id : Nat} {errs : List SectorErr} {s : State} (hs : bitsIn 0x1000000000000000000000004043c2400020060c02000000000000000000000000000780040014e7080 M = true) (hA : Agree M s0 s) : AgreeO M s0 (execBufferAtomic id errs s) :=
  hA.stepO hs (execBufferAtomic_frame id errs s)

theorem execBufferReduction_frame (id : Nat) (errs : List SectorErr) (s : State) : AgreeO 0x1000000000000000000000004043c2400020060c02000000000000000000000000000780040014e7080 s (execBufferReduction id errs s) := by
  unfold execBufferReduction
  repeat' first
    | with_reducible assumption
    | with_reducible exact Agree.refl _ _
    | exact bitsIn_rfl rfl
    | exact regIn_rfl rfl rfl
    | with_reducible refine AgreeO.next ?_
    | with_reducible refine AgreeO.ite ?_ ?_
    | with_reducible exact AgreeO.refused
    | with_reducible exact AgreeO.fault
    | with_reducible refine bufWrite_step ?_ ?_
    | with_reducible refine countR_step ?_ ?_ ?_
    | with_reducible refine endWrite_step ?_ ?_
    | with_reducible refine satF_step ?_ ?_ ?_
    | with_reducible refine setChan_step ?_ ?_
    | with_reducible refine setReq_step ?_ ?_
    | with_reducible refine sramFind_step ?_ ?_
    | with_reducible refine Agree.ite ?_ ?_
    | dsimp only
    | split
    | (with_reducible refine Agree.of_pair (by assumption) ?_)
    | (with_reducible refine Agree.of_pair2 (by assumption) ?_)
    | intro _
theorem execBufferReduction_step {M s0} {id : Nat} {errs : List SectorErr} {s : State} (hs : bitsIn 0x1000000000000000000000004043c2400020060c02000000000000000000000000000780040014e7080 M = true) (hA : Agree M s0 s) : AgreeO M s0 (execBufferReduction id errs s) :=
  hA.stepO hs (execBufferReduction_frame id errs s)

theorem execScrubLine_frame (m : Nat) (errs : List SectorErr) (s : State) : AgreeO 0xc060000000000000000000000000000000000000000000004030000 s (execScrubLine m errs s) := by
  unfold execScrubLine
  repeat' first
    | with_reducible assumption
    | with_reducible exact Agree.refl _ _
    | exact bitsIn_rfl rfl
    | exact regIn_rfl rfl rfl
    | with_reducible refine AgreeO.next ?_
    | with_reducible refine AgreeO.ite ?_ ?_
    | with_reducible exact AgreeO.refused
    | with_reducible exact AgreeO.fault
    | with_reducible refine hbmFind_step ?_ ?_
    | with_reducible refine setF_step ?_ ?_ ?_
    | with_reducible refine sramFind_step ?_ ?_
    | ((conv => arg 3; arg 88; skip); with_reducible first | refine upd_scrubPos ?_ ?_)
    | with_reducible refine Agree.ite ?_ ?_
    | dsimp only
    | split
    | (with_reducible refine Agree.of_pair (by assumption) ?_)
    | (with_reducible refine Agree.of_pair2 (by assumption) ?_)
    | intro _
theorem execScrubLine_step {M s0} {m : Nat} {errs : List SectorErr} {s : State} (hs : bitsIn 0xc060000000000000000000000000000000000000000000004030000 M = true) (hA : Agree M s0 s) : AgreeO M s0 (execScrubLine m errs s) :=
  hA.stepO hs (execScrubLine_frame m errs s)

theorem bridgeFail_frame (s : State) (b k : Nat) : Agree 0x10000000000000000000000000000200000000000200000000000000000000000000000004000000000 s (bridgeFail s b k) := by
  unfold bridgeFail
  repeat' first
    | with_reducible assumption
    | with_reducible exact Agree.refl _ _
    | exact bitsIn_rfl rfl
    | exact regIn_rfl rfl rfl
    | with_reducible refine fabricFault_step ?_ ?_
    | with_reducible refine setF_step ?_ ?_ ?_
    | with_reducible refine Agree.ite ?_ ?_
    | dsimp only
    | split
    | (with_reducible refine Agree.of_pair (by assumption) ?_)
    | (with_reducible refine Agree.of_pair2 (by assumption) ?_)
    | intro _
theorem bridgeFail_step {M s0} {s : State} {b k : Nat} (hs : bitsIn 0x10000000000000000000000000000200000000000200000000000000000000000000000004000000000 M = true) (hA : Agree M s0 s) : Agree M s0 (bridgeFail s b k) :=
  hA.step hs (bridgeFail_frame s b k)

theorem execBridgeResend_frame (b k : Nat) (again : Bool) (s : State) : AgreeO 0x10000000000000000000000000000200000000000200000000000000000000000000000004002000000 s (execBridgeResend b k again s) := by
  unfold execBridgeResend
  repeat' first
    | with_reducible assumption
    | with_reducible exact Agree.refl _ _
    | exact bitsIn_rfl rfl
    | exact regIn_rfl rfl rfl
    | with_reducible refine AgreeO.next ?_
    | with_reducible refine AgreeO.ite ?_ ?_
    | with_reducible exact AgreeO.refused
    | with_reducible exact AgreeO.fault
    | with_reducible refine bridgeFail_step ?_ ?_
    | with_reducible refine satF_step ?_ ?_ ?_
    | ((conv => arg 3; arg 88; skip); with_reducible first | refine upd_bridgeRun ?_ ?_)
    | with_reducible refine Agree.ite ?_ ?_
    | dsimp only
    | split
    | (with_reducible refine Agree.of_pair (by assumption) ?_)
    | (with_reducible refine Agree.of_pair2 (by assumption) ?_)
    | intro _
theorem execBridgeResend_step {M s0} {b k : Nat} {again : Bool} {s : State} (hs : bitsIn 0x10000000000000000000000000000200000000000200000000000000000000000000000004002000000 M = true) (hA : Agree M s0 s) : AgreeO M s0 (execBridgeResend b k again s) :=
  hA.stepO hs (execBridgeResend_frame b k again s)

theorem execSliceCmdDone_frame (m : Nat) (s : State) : AgreeO 0x1000000000000000000000000000000000000000000000000000000 s (execSliceCmdDone m s) := by
  unfold execSliceCmdDone
  repeat' first
    | with_reducible assumption
    | with_reducible exact Agree.refl _ _
    | exact bitsIn_rfl rfl
    | exact regIn_rfl rfl rfl
    | with_reducible refine AgreeO.next ?_
    | with_reducible refine AgreeO.ite ?_ ?_
    | with_reducible exact AgreeO.refused
    | with_reducible exact AgreeO.fault
    | with_reducible refine setF_step ?_ ?_ ?_
    | with_reducible refine Agree.ite ?_ ?_
    | dsimp only
    | split
    | (with_reducible refine Agree.of_pair (by assumption) ?_)
    | (with_reducible refine Agree.of_pair2 (by assumption) ?_)
    | intro _
theorem execSliceCmdDone_step {M s0} {m : Nat} {s : State} (hs : bitsIn 0x1000000000000000000000000000000000000000000000000000000 M = true) (hA : Agree M s0 s) : AgreeO M s0 (execSliceCmdDone m s) :=
  hA.stepO hs (execSliceCmdDone_frame m s)

theorem execRegulatorWindow_frame (s : State) : AgreeO 0x40000000000000000000000000000000000000000000008000001f00000 s (execRegulatorWindow s) := by
  unfold execRegulatorWindow
  repeat' first
    | with_reducible assumption
    | with_reducible exact Agree.refl _ _
    | exact bitsIn_rfl rfl
    | exact regIn_rfl rfl rfl
    | with_reducible refine AgreeO.next ?_
    | with_reducible refine AgreeO.ite ?_ ?_
    | with_reducible exact AgreeO.refused
    | with_reducible exact AgreeO.fault
    | with_reducible refine pump_step ?_ ?_
    | ((conv => arg 3; arg 88; skip); with_reducible first | refine upd_winStart_winLen_regCounts_qosOld_missPosted_ports ?_ ?_)
    | with_reducible refine Agree.ite ?_ ?_
    | (with_reducible refine Agree.foldl ?_ ?_; intro _ _ _)
    | (with_reducible refine Agree.foldl2 ?_ ?_; intro _ _ _)
    | (with_reducible refine Agree.foldl3 ?_ ?_; intro _ _ _)
    | (with_reducible refine Agree.foldl4 ?_ ?_; intro _ _ _)
    | dsimp only
    | split
    | (with_reducible refine Agree.of_pair (by assumption) ?_)
    | (with_reducible refine Agree.of_pair2 (by assumption) ?_)
    | intro _
theorem execRegulatorWindow_step {M s0} {s : State} (hs : bitsIn 0x40000000000000000000000000000000000000000000008000001f00000 M = true) (hA : Agree M s0 s) : AgreeO M s0 (execRegulatorWindow s) :=
  hA.stepO hs (execRegulatorWindow_frame s)

theorem execApertureRequest_frame (n o len : Nat) (write atomicOp : Bool) (data : List Byte) (poisoned : Bool) (s : State) : AgreeO 0x400000000000000000000302800000000000000000000000000000000000000000000000f8004 s (execApertureRequest n o len write atomicOp data poisoned s) := by
  unfold execApertureRequest
  repeat' first
    | with_reducible assumption
    | with_reducible exact Agree.refl _ _
    | exact bitsIn_rfl rfl
    | exact regIn_rfl rfl rfl
    | with_reducible refine AgreeO.next ?_
    | with_reducible refine AgreeO.ite ?_ ?_
    | with_reducible exact AgreeO.refused
    | with_reducible exact AgreeO.fault
    | with_reducible refine countPoison_step ?_ ?_
    | with_reducible refine countR_step ?_ ?_ ?_
    | with_reducible refine readLine_step ?_ ?_
    | with_reducible refine writeNow_step ?_ ?_
    | ((conv => arg 3; arg 88; skip); with_reducible first | refine upd_reply ?_ ?_)
    | with_reducible refine Agree.ite ?_ ?_
    | (with_reducible refine Agree.foldl ?_ ?_; intro _ _ _)
    | (with_reducible refine Agree.foldl2 ?_ ?_; intro _ _ _)
    | (with_reducible refine Agree.foldl3 ?_ ?_; intro _ _ _)
    | (with_reducible refine Agree.foldl4 ?_ ?_; intro _ _ _)
    | dsimp only
    | split
    | (with_reducible refine Agree.of_pair (by assumption) ?_)
    | (with_reducible refine Agree.of_pair2 (by assumption) ?_)
    | intro _
theorem execApertureRequest_step {M s0} {n o len : Nat} {write atomicOp : Bool} {data : List Byte} {poisoned : Bool} {s : State} (hs : bitsIn 0x400000000000000000000302800000000000000000000000000000000000000000000000f8004 M = true) (hA : Agree M s0 s) : AgreeO M s0 (execApertureRequest n o len write atomicOp data poisoned s) :=
  hA.stepO hs (execApertureRequest_frame n o len write atomicOp data poisoned s)

end Sys2Proof.Machine
end

