-- ==== Sys2Proof/Laws/FrameXlt.lean ====
section
/-!
SUPPORT. The frame of every function of Machine/Xlt.lean that answers a state: the fields it can change, by mask.
-/

set_option linter.unusedTactic false
set_option linter.unreachableTactic false
set_option linter.unusedVariables false

namespace Sys2Proof.Machine

theorem setTile_frame (s : State) (id : Nat) (t : Tile) : Agree 0x8000000 s (setTile s id t) := by
  unfold setTile
  repeat' first
    | with_reducible assumption
    | with_reducible exact Agree.refl _ _
    | exact bitsIn_rfl rfl
    | ((conv => arg 3; arg 88; skip); with_reducible first | refine upd_tiles ?_ ?_)
    | with_reducible refine Agree.ite ?_ ?_
    | dsimp only
    | split
    | (with_reducible refine Agree.of_pair (by assumption) ?_)
    | (with_reducible refine Agree.of_pair2 (by assumption) ?_)
    | intro _
theorem setTile_step {M s0} {s : State} {id : Nat} {t : Tile} (hs : bitsIn 0x8000000 M = true) (hA : Agree M s0 s) : Agree M s0 (setTile s id t) :=
  hA.step hs (setTile_frame s id t)

theorem trackNew_frame (s : State) (t : Tile) (n : Nat) (f : TileFault) (posted k : Nat) : Agree 0x10000000000000000000000000000500000000 s (trackNew s t n f posted k) := by
  unfold trackNew
  repeat' first
    | with_reducible assumption
    | with_reducible exact Agree.refl _ _
    | exact bitsIn_rfl rfl
    | exact regIn_rfl rfl rfl
    | with_reducible refine countR_step ?_ ?_ ?_
    | ((conv => arg 3; arg 88; skip); with_reducible first | refine upd_tracker_fqHeld ?_ ?_)
    | with_reducible refine Agree.ite ?_ ?_
    | dsimp only
    | split
    | (with_reducible refine Agree.of_pair (by assumption) ?_)
    | (with_reducible refine Agree.of_pair2 (by assumption) ?_)
    | intro _
theorem trackNew_step {M s0} {s : State} {t : Tile} {n : Nat} {f : TileFault} {posted k : Nat} (hs : bitsIn 0x10000000000000000000000000000500000000 M = true) (hA : Agree M s0 s) : Agree M s0 (trackNew s t n f posted k) :=
  hA.step hs (trackNew_frame s t n f posted k)

theorem trackAll_frame (s : State) (t : Tile) (n : Nat) (fs : List TileFault) (k : Nat) (acc : List Nat) :
    Agree 0x10000000000000000000000000000500000000 s (trackAll s t n fs k acc).2 := by
  have key : ∀ fs s0 s k acc, Agree 0x10000000000000000000000000000500000000 s0 s → Agree 0x10000000000000000000000000000500000000 s0 (trackAll s t n fs k acc).2 := by
    intro fs
    induction fs with
    | nil => intro s0 s k acc h; exact h
    | cons f fs ih =>
      intro s0 s k acc h
      unfold trackAll
      split
      · exact ih _ _ _ _ h
      · split
        · exact h
        · exact ih _ _ _ _ (trackNew_step (bitsIn_rfl rfl) h)
  exact key fs s s k acc (Agree.refl _ _)
theorem trackAll_step {M s0} {s : State} {t : Tile} {n : Nat} {fs : List TileFault} {k : Nat} {acc : List Nat}
    (hs : bitsIn 0x10000000000000000000000000000500000000 M = true) (h : Agree M s0 s) : Agree M s0 (trackAll s t n fs k acc).2 :=
  h.step hs (trackAll_frame s t n fs k acc)

theorem stallTile_frame (s : State) (id : Nat) (t : Tile) : Agree 0x12000000000000000000000000000518000000 s (stallTile s id t) := by
  unfold stallTile
  repeat' first
    | with_reducible assumption
    | with_reducible exact Agree.refl _ _
    | exact bitsIn_rfl rfl
    | exact regIn_rfl rfl rfl
    | with_reducible refine setF_step ?_ ?_ ?_
    | with_reducible refine setTile_step ?_ ?_
    | with_reducible refine trackAll_step ?_ ?_
    | ((conv => arg 3; arg 88; skip); with_reducible first | refine upd_stallAt ?_ ?_)
    | with_reducible refine Agree.ite ?_ ?_
    | dsimp only
    | split
    | (with_reducible refine Agree.of_pair (by assumption) ?_)
    | (with_reducible refine Agree.of_pair2 (by assumption) ?_)
    | intro _
theorem stallTile_step {M s0} {s : State} {id : Nat} {t : Tile} (hs : bitsIn 0x12000000000000000000000000000518000000 M = true) (hA : Agree M s0 s) : Agree M s0 (stallTile s id t) :=
  hA.step hs (stallTile_frame s id t)

theorem checkTile_frame (s : State) (id : Nat) : Agree 0x12000000000000000000000000000518000000 s (checkTile s id) := by
  unfold checkTile
  repeat' first
    | with_reducible assumption
    | with_reducible exact Agree.refl _ _
    | exact bitsIn_rfl rfl
    | exact regIn_rfl rfl rfl
    | with_reducible refine stallTile_step ?_ ?_
    | with_reducible refine Agree.ite ?_ ?_
    | dsimp only
    | split
    | (with_reducible refine Agree.of_pair (by assumption) ?_)
    | (with_reducible refine Agree.of_pair2 (by assumption) ?_)
    | intro _
theorem checkTile_step {M s0} {s : State} {id : Nat} (hs : bitsIn 0x12000000000000000000000000000518000000 M = true) (hA : Agree M s0 s) : Agree M s0 (checkTile s id) :=
  hA.step hs (checkTile_frame s id)

theorem countRefusal_frame (s : State) (inst : Nat) (x : Xlat) (va reason : Nat) : Agree 0x40000000000000000000000000000000000000000000002000000000000000000000000000000 s (countRefusal s inst x va reason) := by
  unfold countRefusal
  repeat' first
    | with_reducible assumption
    | with_reducible exact Agree.refl _ _
    | exact bitsIn_rfl rfl
    | exact regIn_rfl rfl rfl
    | with_reducible refine countR_step ?_ ?_ ?_
    | with_reducible refine Agree.ite ?_ ?_
    | dsimp only
    | split
    | (with_reducible refine Agree.of_pair (by assumption) ?_)
    | (with_reducible refine Agree.of_pair2 (by assumption) ?_)
    | intro _
theorem countRefusal_step {M s0} {s : State} {inst : Nat} {x : Xlat} {va reason : Nat} (hs : bitsIn 0x40000000000000000000000000000000000000000000002000000000000000000000000000000 M = true) (hA : Agree M s0 s) : Agree M s0 (countRefusal s inst x va reason) :=
  hA.step hs (countRefusal_frame s inst x va reason)

theorem dropWalk_frame (s : State) (wid : Nat) : Agree 0x20000000 s (dropWalk s wid) := by
  unfold dropWalk
  repeat' first
    | with_reducible assumption
    | with_reducible exact Agree.refl _ _
    | exact bitsIn_rfl rfl
    | ((conv => arg 3; arg 88; skip); with_reducible first | refine upd_walks ?_ ?_)
    | with_reducible refine Agree.ite ?_ ?_
    | dsimp only
    | split
    | (with_reducible refine Agree.of_pair (by assumption) ?_)
    | (with_reducible refine Agree.of_pair2 (by assumption) ?_)
    | intro _
theorem dropWalk_step {M s0} {s : State} {wid : Nat} (hs : bitsIn 0x20000000 M = true) (hA : Agree M s0 s) : Agree M s0 (dropWalk s wid) :=
  hA.step hs (dropWalk_frame s wid)

theorem faultTile_frame (s : State) (id level reason va size : Nat) : Agree 0x12000000000000000000000000000518000000 s (faultTile s id level reason va size) := by
  unfold faultTile
  repeat' first
    | with_reducible assumption
    | with_reducible exact Agree.refl _ _
    | exact bitsIn_rfl rfl
    | exact regIn_rfl rfl rfl
    | with_reducible refine checkTile_step ?_ ?_
    | with_reducible refine setTile_step ?_ ?_
    | with_reducible refine Agree.ite ?_ ?_
    | (with_reducible refine Agree.foldl ?_ ?_; intro _ _ _)
    | (with_reducible refine Agree.foldl2 ?_ ?_; intro _ _ _)
    | (with_reducible refine Agree.foldl3 ?_ ?_; intro _ _ _)
    | (with_reducible refine Agree.foldl4 ?_ ?_; intro _ _ _)
    | dsimp only
    | split
    | (with_reducible refine Agree.of_pair (by assumption) ?_)
    | (with_reducible refine Agree.of_pair2 (by assumption) ?_)
    | intro _
theorem faultTile_step {M s0} {s : State} {id level reason va size : Nat} (hs : bitsIn 0x12000000000000000000000000000518000000 M = true) (hA : Agree M s0 s) : Agree M s0 (faultTile s id level reason va size) :=
  hA.step hs (faultTile_frame s id level reason va size)

theorem failWalk_frame (s : State) (wid : Nat) (w : Walk) (reason leaf : Nat) : Agree 0x12000000000000000000000000000538000000 s (failWalk s wid w reason leaf) := by
  unfold failWalk
  repeat' first
    | with_reducible assumption
    | with_reducible exact Agree.refl _ _
    | exact bitsIn_rfl rfl
    | exact regIn_rfl rfl rfl
    | with_reducible refine dropWalk_step ?_ ?_
    | with_reducible refine faultTile_step ?_ ?_
    | with_reducible refine Agree.ite ?_ ?_
    | (with_reducible refine Agree.foldl ?_ ?_; intro _ _ _)
    | (with_reducible refine Agree.foldl2 ?_ ?_; intro _ _ _)
    | (with_reducible refine Agree.foldl3 ?_ ?_; intro _ _ _)
    | (with_reducible refine Agree.foldl4 ?_ ?_; intro _ _ _)
    | dsimp only
    | split
    | (with_reducible refine Agree.of_pair (by assumption) ?_)
    | (with_reducible refine Agree.of_pair2 (by assumption) ?_)
    | intro _
theorem failWalk_step {M s0} {s : State} {wid : Nat} {w : Walk} {reason leaf : Nat} (hs : bitsIn 0x12000000000000000000000000000538000000 M = true) (hA : Agree M s0 s) : Agree M s0 (failWalk s wid w reason leaf) :=
  hA.step hs (failWalk_frame s wid w reason leaf)

theorem walkRead_frame (s : State) (wid : Nat) (w : Walk) (size : Nat) : Agree 0x400000000000000000404002000000040800000120000020000000000000000580005384c4180 s (walkRead s wid w size) := by
  unfold walkRead
  repeat' first
    | with_reducible assumption
    | with_reducible exact Agree.refl _ _
    | exact bitsIn_rfl rfl
    | exact regIn_rfl rfl rfl
    | with_reducible refine countRefusal_step ?_ ?_
    | with_reducible refine failWalk_step ?_ ?_
    | with_reducible refine sendReq_step ?_ ?_
    | ((conv => arg 3; arg 88; skip); with_reducible first | refine upd_walks ?_ ?_)
    | with_reducible refine Agree.ite ?_ ?_
    | dsimp only
    | split
    | (with_reducible refine Agree.of_pair (by assumption) ?_)
    | (with_reducible refine Agree.of_pair2 (by assumption) ?_)
    | intro _
theorem walkRead_step {M s0} {s : State} {wid : Nat} {w : Walk} {size : Nat} (hs : bitsIn 0x400000000000000000404002000000040800000120000020000000000000000580005384c4180 M = true) (hA : Agree M s0 s) : Agree M s0 (walkRead s wid w size) :=
  hA.step hs (walkRead_frame s wid w size)

theorem startWalk_frame (s : State) (tid : Nat) (t : Tile) (va : Nat) : Agree 0x400000000000000000404002000000040800000920000020000000000000000580005384c4180 s (startWalk s tid t va) := by
  unfold startWalk
  repeat' first
    | with_reducible assumption
    | with_reducible exact Agree.refl _ _
    | exact bitsIn_rfl rfl
    | exact regIn_rfl rfl rfl
    | with_reducible refine countR_step ?_ ?_ ?_
    | with_reducible refine fresh_step ?_ ?_
    | with_reducible refine walkRead_step ?_ ?_
    | ((conv => arg 3; arg 88; skip); with_reducible first | refine upd_tiles ?_ ?_ | refine upd_walks ?_ ?_)
    | with_reducible refine Agree.ite ?_ ?_
    | dsimp only
    | split
    | (with_reducible refine Agree.of_pair (by assumption) ?_)
    | (with_reducible refine Agree.of_pair2 (by assumption) ?_)
    | intro _
theorem startWalk_step {M s0} {s : State} {tid : Nat} {t : Tile} {va : Nat} (hs : bitsIn 0x400000000000000000404002000000040800000920000020000000000000000580005384c4180 M = true) (hA : Agree M s0 s) : Agree M s0 (startWalk s tid t va) :=
  hA.step hs (startWalk_frame s tid t va)

theorem tlbFill_frame (s : State) (cache space : Nat) (x : Xlat) : Agree 0x40000000 s (tlbFill s cache space x) := by
  unfold tlbFill
  repeat' first
    | with_reducible assumption
    | with_reducible exact Agree.refl _ _
    | exact bitsIn_rfl rfl
    | ((conv => arg 3; arg 88; skip); with_reducible first | refine upd_tlb ?_ ?_)
    | with_reducible refine Agree.ite ?_ ?_
    | dsimp only
    | split
    | (with_reducible refine Agree.of_pair (by assumption) ?_)
    | (with_reducible refine Agree.of_pair2 (by assumption) ?_)
    | intro _
theorem tlbFill_step {M s0} {s : State} {cache space : Nat} {x : Xlat} (hs : bitsIn 0x40000000 M = true) (hA : Agree M s0 s) : Agree M s0 (tlbFill s cache space x) :=
  hA.step hs (tlbFill_frame s cache space x)

theorem lookPage_frame (s : State) (tid va : Nat) : Agree 0x400000000000000000404002000000040800001920000020000000000000000580005784c4180 s (lookPage s tid va) := by
  unfold lookPage
  repeat' first
    | with_reducible assumption
    | with_reducible exact Agree.refl _ _
    | exact bitsIn_rfl rfl
    | exact regIn_rfl rfl rfl
    | with_reducible refine countR_step ?_ ?_ ?_
    | with_reducible refine setTile_step ?_ ?_
    | with_reducible refine startWalk_step ?_ ?_
    | with_reducible refine tlbFill_step ?_ ?_
    | with_reducible refine Agree.ite ?_ ?_
    | dsimp only
    | split
    | (with_reducible refine Agree.of_pair (by assumption) ?_)
    | (with_reducible refine Agree.of_pair2 (by assumption) ?_)
    | intro _
theorem lookPage_step {M s0} {s : State} {tid va : Nat} (hs : bitsIn 0x400000000000000000404002000000040800001920000020000000000000000580005784c4180 M = true) (hA : Agree M s0 s) : Agree M s0 (lookPage s tid va) :=
  hA.step hs (lookPage_frame s tid va)

theorem noteWaiting_frame (s : State) : Agree 0x2000000000000000000000000000000000000 s (noteWaiting s) := by
  unfold noteWaiting
  repeat' first
    | with_reducible assumption
    | with_reducible exact Agree.refl _ _
    | exact bitsIn_rfl rfl
    | exact regIn_rfl rfl rfl
    | with_reducible refine setF_step ?_ ?_ ?_
    | with_reducible refine Agree.ite ?_ ?_
    | dsimp only
    | split
    | (with_reducible refine Agree.of_pair (by assumption) ?_)
    | (with_reducible refine Agree.of_pair2 (by assumption) ?_)
    | intro _
theorem noteWaiting_step {M s0} {s : State} (hs : bitsIn 0x2000000000000000000000000000000000000 M = true) (hA : Agree M s0 s) : Agree M s0 (noteWaiting s) :=
  hA.step hs (noteWaiting_frame s)

theorem stallTime_frame (s : State) (t : Tile) (n : Nat) : Agree 0x600000000000000200 s (stallTime s t n) := by
  unfold stallTime
  repeat' first
    | with_reducible assumption
    | with_reducible exact Agree.refl _ _
    | exact bitsIn_rfl rfl
    | with_reducible refine progress_step ?_ ?_
    | with_reducible refine setBatch_step ?_ ?_
    | ((conv => arg 3; arg 88; skip); with_reducible first | refine upd_cmds ?_ ?_ | refine upd_queues ?_ ?_)
    | with_reducible refine Agree.ite ?_ ?_
    | dsimp only
    | split
    | (with_reducible refine Agree.of_pair (by assumption) ?_)
    | (with_reducible refine Agree.of_pair2 (by assumption) ?_)
    | intro _
theorem stallTime_step {M s0} {s : State} {t : Tile} {n : Nat} (hs : bitsIn 0x600000000000000200 M = true) (hA : Agree M s0 s) : Agree M s0 (stallTime s t n) :=
  hA.step hs (stallTime_frame s t n)

theorem unstall_frame (s : State) (id : Nat) : Agree 0x600000000010000200 s (unstall s id) := by
  unfold unstall
  repeat' first
    | with_reducible assumption
    | with_reducible exact Agree.refl _ _
    | exact bitsIn_rfl rfl
    | with_reducible refine stallTime_step ?_ ?_
    | ((conv => arg 3; arg 88; skip); with_reducible first | refine upd_stallAt ?_ ?_)
    | with_reducible refine Agree.ite ?_ ?_
    | dsimp only
    | split
    | (with_reducible refine Agree.of_pair (by assumption) ?_)
    | (with_reducible refine Agree.of_pair2 (by assumption) ?_)
    | intro _
theorem unstall_step {M s0} {s : State} {id : Nat} (hs : bitsIn 0x600000000010000200 M = true) (hA : Agree M s0 s) : Agree M s0 (unstall s id) :=
  hA.step hs (unstall_frame s id)

theorem lookTile_frame (s : State) (tid : Nat) : Agree 0x400000000000000000404002000000040800001920000020000000000006000580005784c4380 s (lookTile s tid) := by
  unfold lookTile
  repeat' first
    | with_reducible assumption
    | with_reducible exact Agree.refl _ _
    | exact bitsIn_rfl rfl
    | exact regIn_rfl rfl rfl
    | with_reducible refine checkTile_step ?_ ?_
    | with_reducible refine lookPage_step ?_ ?_
    | with_reducible refine noteWaiting_step ?_ ?_
    | with_reducible refine setTile_step ?_ ?_
    | with_reducible refine unstall_step ?_ ?_
    | with_reducible refine Agree.ite ?_ ?_
    | (with_reducible refine Agree.foldl ?_ ?_; intro _ _ _)
    | (with_reducible refine Agree.foldl2 ?_ ?_; intro _ _ _)
    | (with_reducible refine Agree.foldl3 ?_ ?_; intro _ _ _)
    | (with_reducible refine Agree.foldl4 ?_ ?_; intro _ _ _)
    | dsimp only
    | split
    | (with_reducible refine Agree.of_pair (by assumption) ?_)
    | (with_reducible refine Agree.of_pair2 (by assumption) ?_)
    | intro _
theorem lookTile_step {M s0} {s : State} {tid : Nat} (hs : bitsIn 0x400000000000000000404002000000040800001920000020000000000006000580005784c4380 M = true) (hA : Agree M s0 s) : Agree M s0 (lookTile s tid) :=
  hA.step hs (lookTile_frame s tid)

theorem newTile_frame (s : State) (t : Tile) : Agree 0x400000000000000000404002000000040800001920000020000000000006000580005784c4380 s (newTile s t).2 := by
  unfold newTile
  repeat' first
    | with_reducible assumption
    | with_reducible exact Agree.refl _ _
    | exact bitsIn_rfl rfl
    | exact regIn_rfl rfl rfl
    | with_reducible refine fresh_step ?_ ?_
    | with_reducible refine lookTile_step ?_ ?_
    | with_reducible refine setTile_step ?_ ?_
    | with_reducible refine Agree.ite ?_ ?_
    | dsimp only
    | split
    | (with_reducible refine Agree.of_pair (by assumption) ?_)
    | (with_reducible refine Agree.of_pair2 (by assumption) ?_)
    | intro _
theorem newTile_step {M s0} {s : State} {t : Tile} (hs : bitsIn 0x400000000000000000404002000000040800001920000020000000000006000580005784c4380 M = true) (hA : Agree M s0 s) : Agree M s0 (newTile s t).2 :=
  hA.step hs (newTile_frame s t)

theorem dropTile_frame (s : State) (id : Nat) : Agree 0x2000000000000000000600000000038000200 s (dropTile s id) := by
  unfold dropTile
  repeat' first
    | with_reducible assumption
    | with_reducible exact Agree.refl _ _
    | exact bitsIn_rfl rfl
    | exact regIn_rfl rfl rfl
    | with_reducible refine noteWaiting_step ?_ ?_
    | with_reducible refine unstall_step ?_ ?_
    | ((conv => arg 3; arg 88; skip); with_reducible first | refine upd_tiles ?_ ?_ | refine upd_tiles_walks ?_ ?_)
    | with_reducible refine Agree.ite ?_ ?_
    | dsimp only
    | split
    | (with_reducible refine Agree.of_pair (by assumption) ?_)
    | (with_reducible refine Agree.of_pair2 (by assumption) ?_)
    | intro _
theorem dropTile_step {M s0} {s : State} {id : Nat} (hs : bitsIn 0x2000000000000000000600000000038000200 M = true) (hA : Agree M s0 s) : Agree M s0 (dropTile s id) :=
  hA.step hs (dropTile_frame s id)

theorem wcFill_frame (s : State) (e : WalkCacheEntry) : Agree 0x80000000 s (wcFill s e) := by
  unfold wcFill
  repeat' first
    | with_reducible assumption
    | with_reducible exact Agree.refl _ _
    | exact bitsIn_rfl rfl
    | ((conv => arg 3; arg 88; skip); with_reducible first | refine upd_wcache ?_ ?_)
    | with_reducible refine Agree.ite ?_ ?_
    | dsimp only
    | split
    | (with_reducible refine Agree.of_pair (by assumption) ?_)
    | (with_reducible refine Agree.of_pair2 (by assumption) ?_)
    | intro _
theorem wcFill_step {M s0} {s : State} {e : WalkCacheEntry} (hs : bitsIn 0x80000000 M = true) (hA : Agree M s0 s) : Agree M s0 (wcFill s e) :=
  hA.step hs (wcFill_frame s e)

theorem walkDone_frame (s : State) (die : Nat) (slot : SlotInfo) (w : WalkRun) : Agree 0x400000000000000000000100800000040800001800000020000000000000000000000c0438000 s (walkDone s die slot w) := by
  unfold walkDone
  repeat' first
    | with_reducible assumption
    | with_reducible exact Agree.refl _ _
    | exact bitsIn_rfl rfl
    | exact regIn_rfl rfl rfl
    | with_reducible refine countR_step ?_ ?_ ?_
    | with_reducible refine countRefusal_step ?_ ?_
    | with_reducible refine readNow_step ?_ ?_
    | with_reducible refine regulate_step ?_ ?_
    | with_reducible refine tlbFill_step ?_ ?_
    | with_reducible refine wcFill_step ?_ ?_
    | with_reducible refine Agree.ite ?_ ?_
    | (with_reducible refine Agree.foldl ?_ ?_; intro _ _ _)
    | (with_reducible refine Agree.foldl2 ?_ ?_; intro _ _ _)
    | (with_reducible refine Agree.foldl3 ?_ ?_; intro _ _ _)
    | (with_reducible refine Agree.foldl4 ?_ ?_; intro _ _ _)
    | dsimp only
    | split
    | (with_reducible refine Agree.of_pair (by assumption) ?_)
    | (with_reducible refine Agree.of_pair2 (by assumption) ?_)
    | intro _
theorem walkDone_step {M s0} {s : State} {die : Nat} {slot : SlotInfo} {w : WalkRun} (hs : bitsIn 0x400000000000000000000100800000040800001800000020000000000000000000000c0438000 M = true) (hA : Agree M s0 s) : Agree M s0 (walkDone s die slot w) :=
  hA.step hs (walkDone_frame s die slot w)

theorem leafWalk_frame (s : State) (wid : Nat) (w : Walk) (x : Xlat) : Agree 0x12000000000000000000000000000578000000 s (leafWalk s wid w x) := by
  unfold leafWalk
  repeat' first
    | with_reducible assumption
    | with_reducible exact Agree.refl _ _
    | exact bitsIn_rfl rfl
    | exact regIn_rfl rfl rfl
    | with_reducible refine checkTile_step ?_ ?_
    | with_reducible refine dropWalk_step ?_ ?_
    | with_reducible refine setTile_step ?_ ?_
    | with_reducible refine tlbFill_step ?_ ?_
    | with_reducible refine Agree.ite ?_ ?_
    | (with_reducible refine Agree.foldl ?_ ?_; intro _ _ _)
    | (with_reducible refine Agree.foldl2 ?_ ?_; intro _ _ _)
    | (with_reducible refine Agree.foldl3 ?_ ?_; intro _ _ _)
    | (with_reducible refine Agree.foldl4 ?_ ?_; intro _ _ _)
    | dsimp only
    | split
    | (with_reducible refine Agree.of_pair (by assumption) ?_)
    | (with_reducible refine Agree.of_pair2 (by assumption) ?_)
    | intro _
theorem leafWalk_step {M s0} {s : State} {wid : Nat} {w : Walk} {x : Xlat} (hs : bitsIn 0x12000000000000000000000000000578000000 M = true) (hA : Agree M s0 s) : Agree M s0 (leafWalk s wid w x) :=
  hA.step hs (leafWalk_frame s wid w x)

theorem execWalkReadReturn_frame (wid : Nat) (hostErr : Bool) (s : State) : AgreeO 0x100000400000000000000000404002800020060c02001920000020000000000006000780045f94c7380 s (execWalkReadReturn wid hostErr s) := by
  unfold execWalkReadReturn
  repeat' first
    | with_reducible assumption
    | with_reducible exact Agree.refl _ _
    | exact bitsIn_rfl rfl
    | exact regIn_rfl rfl rfl
    | with_reducible refine AgreeO.next ?_
    | with_reducible refine AgreeO.ite ?_ ?_
    | with_reducible exact AgreeO.refused
    | with_reducible exact AgreeO.fault
    | with_reducible refine countPoison_step ?_ ?_
    | with_reducible refine dropReq_step ?_ ?_
    | with_reducible refine dropWalk_step ?_ ?_
    | with_reducible refine failWalk_step ?_ ?_
    | with_reducible refine leafWalk_step ?_ ?_
    | with_reducible refine lookTile_step ?_ ?_
    | with_reducible refine readMiss_step ?_ ?_
    | with_reducible refine walkRead_step ?_ ?_
    | with_reducible refine wcFill_step ?_ ?_
    | with_reducible refine Agree.ite ?_ ?_
    | (with_reducible refine Agree.foldl ?_ ?_; intro _ _ _)
    | (with_reducible refine Agree.foldl2 ?_ ?_; intro _ _ _)
    | (with_reducible refine Agree.foldl3 ?_ ?_; intro _ _ _)
    | (with_reducible refine Agree.foldl4 ?_ ?_; intro _ _ _)
    | dsimp only
    | split
    | (with_reducible refine Agree.of_pair (by assumption) ?_)
    | (with_reducible refine Agree.of_pair2 (by assumption) ?_)
    | intro _
theorem execWalkReadReturn_step {M s0} {wid : Nat} {hostErr : Bool} {s : State} (hs : bitsIn 0x100000400000000000000000404002800020060c02001920000020000000000006000780045f94c7380 M = true) (hA : Agree M s0 s) : AgreeO M s0 (execWalkReadReturn wid hostErr s) :=
  hA.stepO hs (execWalkReadReturn_frame wid hostErr s)

end Sys2Proof.Machine
end

