-- ==== Sys2Proof/Laws/FrameDevice.lean ====
section
/-!
SUPPORT. The frame of every function of Machine/Device.lean that answers a state: the fields it can change, by mask.
-/

set_option linter.unusedTactic false
set_option linter.unreachableTactic false
set_option linter.unusedVariables false

namespace Sys2Proof.Machine

theorem modCmd_frame (s : State) (c : Nat) (f : Cmd → Cmd) : Agree 0x400000000000000000 s (modCmd s c f) := by
  unfold modCmd
  repeat' first
    | with_reducible assumption
    | with_reducible exact Agree.refl _ _
    | exact bitsIn_rfl rfl
    | ((conv => arg 3; arg 88; skip); with_reducible first | refine upd_cmds ?_ ?_)
    | with_reducible refine Agree.ite ?_ ?_
    | dsimp only
    | split
    | (with_reducible refine Agree.of_pair (by assumption) ?_)
    | (with_reducible refine Agree.of_pair2 (by assumption) ?_)
    | intro _
theorem modCmd_step {M s0} {s : State} {c : Nat} {f : Cmd → Cmd} (hs : bitsIn 0x400000000000000000 M = true) (hA : Agree M s0 s) : Agree M s0 (modCmd s c f) :=
  hA.step hs (modCmd_frame s c f)

theorem endCmd_frame (s : State) (c code : Nat) : Agree 0x400000000000000000 s (endCmd s c code) := by
  unfold endCmd
  repeat' first
    | with_reducible assumption
    | with_reducible exact Agree.refl _ _
    | exact bitsIn_rfl rfl
    | with_reducible refine modCmd_step ?_ ?_
    | with_reducible refine Agree.ite ?_ ?_
    | dsimp only
    | split
    | (with_reducible refine Agree.of_pair (by assumption) ?_)
    | (with_reducible refine Agree.of_pair2 (by assumption) ?_)
    | intro _
theorem endCmd_step {M s0} {s : State} {c code : Nat} (hs : bitsIn 0x400000000000000000 M = true) (hA : Agree M s0 s) : Agree M s0 (endCmd s c code) :=
  hA.step hs (endCmd_frame s c code)

theorem modCtx_frame (s : State) (space : Nat) (f : Ctx → Ctx) : Agree 0x80000000000000000 s (modCtx s space f) := by
  unfold modCtx
  repeat' first
    | with_reducible assumption
    | with_reducible exact Agree.refl _ _
    | exact bitsIn_rfl rfl
    | ((conv => arg 3; arg 88; skip); with_reducible first | refine upd_ctxs ?_ ?_)
    | with_reducible refine Agree.ite ?_ ?_
    | dsimp only
    | split
    | (with_reducible refine Agree.of_pair (by assumption) ?_)
    | (with_reducible refine Agree.of_pair2 (by assumption) ?_)
    | intro _
theorem modCtx_step {M s0} {s : State} {space : Nat} {f : Ctx → Ctx} (hs : bitsIn 0x80000000000000000 M = true) (hA : Agree M s0 s) : Agree M s0 (modCtx s space f) :=
  hA.step hs (modCtx_frame s space f)

theorem modQueue_frame (s : State) (q : Nat) (f : Queue → Queue) : Agree 0x200000000000000000 s (modQueue s q f) := by
  unfold modQueue
  repeat' first
    | with_reducible assumption
    | with_reducible exact Agree.refl _ _
    | exact bitsIn_rfl rfl
    | ((conv => arg 3; arg 88; skip); with_reducible first | refine upd_queues ?_ ?_)
    | with_reducible refine Agree.ite ?_ ?_
    | dsimp only
    | split
    | (with_reducible refine Agree.of_pair (by assumption) ?_)
    | (with_reducible refine Agree.of_pair2 (by assumption) ?_)
    | intro _
theorem modQueue_step {M s0} {s : State} {q : Nat} {f : Queue → Queue} (hs : bitsIn 0x200000000000000000 M = true) (hA : Agree M s0 s) : Agree M s0 (modQueue s q f) :=
  hA.step hs (modQueue_frame s q f)

theorem devAsk_frame (s : State) (q c g n dst : Nat) (r : MemReq) : Agree 0x404002000000040800000000000000000000000000000580000004c4180 s (devAsk s q c g n dst r) := by
  unfold devAsk
  repeat' first
    | with_reducible assumption
    | with_reducible exact Agree.refl _ _
    | exact bitsIn_rfl rfl
    | exact regIn_rfl rfl rfl
    | with_reducible refine sendReq_step ?_ ?_
    | with_reducible refine Agree.ite ?_ ?_
    | dsimp only
    | split
    | (with_reducible refine Agree.of_pair (by assumption) ?_)
    | (with_reducible refine Agree.of_pair2 (by assumption) ?_)
    | intro _
theorem devAsk_step {M s0} {s : State} {q c g n dst : Nat} {r : MemReq} (hs : bitsIn 0x404002000000040800000000000000000000000000000580000004c4180 M = true) (hA : Agree M s0 s) : Agree M s0 (devAsk s q c g n dst r) :=
  hA.step hs (devAsk_frame s q c g n dst r)

theorem devTouch_frame (s : State) (slot : SlotInfo) (q c va : Nat) : Agree 0x400000000000000000404102800000040800001800000020000000000000000580000c04fc180 s (devTouch s slot q c va) := by
  unfold devTouch
  repeat' first
    | with_reducible assumption
    | with_reducible exact Agree.refl _ _
    | exact bitsIn_rfl rfl
    | exact regIn_rfl rfl rfl
    | with_reducible refine devAsk_step ?_ ?_
    | with_reducible refine walkDone_step ?_ ?_
    | with_reducible refine Agree.ite ?_ ?_
    | dsimp only
    | split
    | (with_reducible refine Agree.of_pair (by assumption) ?_)
    | (with_reducible refine Agree.of_pair2 (by assumption) ?_)
    | intro _
theorem devTouch_step {M s0} {s : State} {slot : SlotInfo} {q c va : Nat} (hs : bitsIn 0x400000000000000000404102800000040800001800000020000000000000000580000c04fc180 M = true) (hA : Agree M s0 s) : Agree M s0 (devTouch s slot q c va) :=
  hA.step hs (devTouch_frame s slot q c va)

theorem devLook_frame (slot : SlotInfo) (q c : Nat) (s : State) (ps : List (Nat × Nat)) : Agree 0x400000000000000000404102800000040800001800000020000000000000000580000c04fc180 s (devLook slot q c s ps).2 := by
  induction ps generalizing s with
  | nil => exact Agree.refl _ _
  | cons p ps ih =>
    unfold devLook
    exact (devTouch_frame s slot q c p.1).step (bitsIn_rfl rfl) (ih _)
theorem devLook_step {M s0} {slot : SlotInfo} {q c : Nat} {s : State} {ps : List (Nat × Nat)} (hs : bitsIn 0x400000000000000000404102800000040800001800000020000000000000000580000c04fc180 M = true)
    (h : Agree M s0 s) : Agree M s0 (devLook slot q c s ps).2 := h.step hs (devLook_frame slot q c s ps)

theorem devRefused_frame (s : State) (slot : SlotInfo) (q c : Nat) (ps : List (Nat × Nat)) : Agree 0x40000000000000000000000000000000000000000000002000000000000000000000000000000 s (devRefused s slot q c ps) := by
  unfold devRefused
  repeat' first
    | with_reducible assumption
    | with_reducible exact Agree.refl _ _
    | exact bitsIn_rfl rfl
    | exact regIn_rfl rfl rfl
    | with_reducible refine countRefusal_step ?_ ?_
    | with_reducible refine Agree.ite ?_ ?_
    | (with_reducible refine Agree.foldl ?_ ?_; intro _ _ _)
    | (with_reducible refine Agree.foldl2 ?_ ?_; intro _ _ _)
    | (with_reducible refine Agree.foldl3 ?_ ?_; intro _ _ _)
    | (with_reducible refine Agree.foldl4 ?_ ?_; intro _ _ _)
    | dsimp only
    | split
    | (with_reducible refine Agree.of_pair (by assumption) ?_)
    | (with_reducible refine Agree.of_pair2 (by assumption) ?_)
    | intro _
theorem devRefused_step {M s0} {s : State} {slot : SlotInfo} {q c : Nat} {ps : List (Nat × Nat)} (hs : bitsIn 0x40000000000000000000000000000000000000000000002000000000000000000000000000000 M = true) (hA : Agree M s0 s) : Agree M s0 (devRefused s slot q c ps) :=
  hA.step hs (devRefused_frame s slot q c ps)

theorem devAccess_step {M s0} {s : State} {slot : SlotInfo} {q c : Nat} {ps : List (Nat × Nat)}
    {k : State → List (Nat × Nat × Nat) → DevRes × State} (hs : bitsIn 0x400000000000000000404102800000040800001800000020000000000000000580000c04fc180 M = true)
    (hk : ∀ t gs, Agree M s0 t → Agree M s0 (k t gs).2) (h : Agree M s0 s) : Agree M s0 (devAccess s slot q c ps k).2 := by
  unfold devAccess
  dsimp only
  have h2 := devLook_step (slot := slot) (q := q) (c := c) (ps := ps) (bitsIn_trans rfl hs) h
  split
  · exact hk _ _ h2
  · exact devRefused_step (bitsIn_trans rfl hs) h2
  · exact h2

theorem devPut_frame (s : State) (slot : SlotInfo) (q c : Nat) (g dst : Nat) (data : List Byte) (bad : Nat) : Agree 0x404202000000040800000000000000000000000000000580000004fc180 s (devPut s slot q c g dst data bad) := by
  unfold devPut
  repeat' first
    | with_reducible assumption
    | with_reducible exact Agree.refl _ _
    | exact bitsIn_rfl rfl
    | exact regIn_rfl rfl rfl
    | with_reducible refine regulate_step ?_ ?_
    | with_reducible refine sendReq_step ?_ ?_
    | with_reducible refine writeNow_step ?_ ?_
    | with_reducible refine Agree.ite ?_ ?_
    | dsimp only
    | split
    | (with_reducible refine Agree.of_pair (by assumption) ?_)
    | (with_reducible refine Agree.of_pair2 (by assumption) ?_)
    | intro _
theorem devPut_step {M s0} {s : State} {slot : SlotInfo} {q c : Nat} {g dst : Nat} {data : List Byte} {bad : Nat} (hs : bitsIn 0x404202000000040800000000000000000000000000000580000004fc180 M = true) (hA : Agree M s0 s) : Agree M s0 (devPut s slot q c g dst data bad) :=
  hA.step hs (devPut_frame s slot q c g dst data bad)

theorem devWrite_frame (s : State) (slot : SlotInfo) (q c va : Nat) (data : List Byte) (bad : Nat) : Agree 0x400000000000000000404302800000040800001800000020000000000000000580000c04fc180 s (devWrite s slot q c va data bad).2 := by
  unfold devWrite
  repeat' first
    | with_reducible assumption
    | with_reducible exact Agree.refl _ _
    | exact bitsIn_rfl rfl
    | exact regIn_rfl rfl rfl
    | with_reducible refine devAccess_step ?_ ?_ ?_
    | with_reducible refine devPut_step ?_ ?_
    | with_reducible refine Agree.ite ?_ ?_
    | (with_reducible refine Agree.foldl ?_ ?_; intro _ _ _)
    | (with_reducible refine Agree.foldl2 ?_ ?_; intro _ _ _)
    | (with_reducible refine Agree.foldl3 ?_ ?_; intro _ _ _)
    | (with_reducible refine Agree.foldl4 ?_ ?_; intro _ _ _)
    | dsimp only
    | split
    | (with_reducible refine Agree.of_pair (by assumption) ?_)
    | (with_reducible refine Agree.of_pair2 (by assumption) ?_)
    | intro _
theorem devWrite_step {M s0} {s : State} {slot : SlotInfo} {q c va : Nat} {data : List Byte} {bad : Nat} (hs : bitsIn 0x400000000000000000404302800000040800001800000020000000000000000580000c04fc180 M = true) (hA : Agree M s0 s) : Agree M s0 (devWrite s slot q c va data bad).2 :=
  hA.step hs (devWrite_frame s slot q c va data bad)

theorem devPart_frame (s : State) (slot : SlotInfo) (q c : Nat) (g dst n : Nat) : Agree 0x10080000004080000000000000000000000000000000000000438000 s (devPart s slot q c g dst n).2 := by
  unfold devPart
  repeat' first
    | with_reducible assumption
    | with_reducible exact Agree.refl _ _
    | exact bitsIn_rfl rfl
    | exact regIn_rfl rfl rfl
    | with_reducible refine readNow_step ?_ ?_
    | with_reducible refine regulate_step ?_ ?_
    | with_reducible refine Agree.ite ?_ ?_
    | dsimp only
    | split
    | (with_reducible refine Agree.of_pair (by assumption) ?_)
    | (with_reducible refine Agree.of_pair2 (by assumption) ?_)
    | intro _
theorem devPart_step {M s0} {s : State} {slot : SlotInfo} {q c : Nat} {g dst n : Nat} (hs : bitsIn 0x10080000004080000000000000000000000000000000000000438000 M = true) (hA : Agree M s0 s) : Agree M s0 (devPart s slot q c g dst n).2 :=
  hA.step hs (devPart_frame s slot q c g dst n)

theorem devFetch_frame (s : State) (slot : SlotInfo) (q c : Nat) (ps : List (Nat × Nat)) : Agree 0x400000000000000000404102800000040800001800000020000000000000000580000c04fc180 s (devFetch s slot q c ps).2 := by
  unfold devFetch
  repeat' first
    | with_reducible assumption
    | with_reducible exact Agree.refl _ _
    | exact bitsIn_rfl rfl
    | exact regIn_rfl rfl rfl
    | with_reducible refine devAccess_step ?_ ?_ ?_
    | with_reducible refine devAsk_step ?_ ?_
    | with_reducible refine devPart_step ?_ ?_
    | with_reducible refine Agree.ite ?_ ?_
    | (with_reducible refine Agree.foldl ?_ ?_; intro _ _ _)
    | (with_reducible refine Agree.foldl2 ?_ ?_; intro _ _ _)
    | (with_reducible refine Agree.foldl3 ?_ ?_; intro _ _ _)
    | (with_reducible refine Agree.foldl4 ?_ ?_; intro _ _ _)
    | dsimp only
    | split
    | (with_reducible refine Agree.of_pair (by assumption) ?_)
    | (with_reducible refine Agree.of_pair2 (by assumption) ?_)
    | intro _
theorem devFetch_step {M s0} {s : State} {slot : SlotInfo} {q c : Nat} {ps : List (Nat × Nat)} (hs : bitsIn 0x400000000000000000404102800000040800001800000020000000000000000580000c04fc180 M = true) (hA : Agree M s0 s) : Agree M s0 (devFetch s slot q c ps).2 :=
  hA.step hs (devFetch_frame s slot q c ps)

theorem devRead_frame (s : State) (slot : SlotInfo) (q c va n : Nat) : Agree 0x400000000000000000404102800000040800001800000020000000000000000580000c04fc180 s (devRead s slot q c va n).2 := by
  unfold devRead
  repeat' first
    | with_reducible assumption
    | with_reducible exact Agree.refl _ _
    | exact bitsIn_rfl rfl
    | exact regIn_rfl rfl rfl
    | with_reducible refine devFetch_step ?_ ?_
    | with_reducible refine Agree.ite ?_ ?_
    | (with_reducible refine Agree.foldl ?_ ?_; intro _ _ _)
    | (with_reducible refine Agree.foldl2 ?_ ?_; intro _ _ _)
    | (with_reducible refine Agree.foldl3 ?_ ?_; intro _ _ _)
    | (with_reducible refine Agree.foldl4 ?_ ?_; intro _ _ _)
    | dsimp only
    | split
    | (with_reducible refine Agree.of_pair (by assumption) ?_)
    | (with_reducible refine Agree.of_pair2 (by assumption) ?_)
    | intro _
theorem devRead_step {M s0} {s : State} {slot : SlotInfo} {q c va n : Nat} (hs : bitsIn 0x400000000000000000404102800000040800001800000020000000000000000580000c04fc180 M = true) (hA : Agree M s0 s) : Agree M s0 (devRead s slot q c va n).2 :=
  hA.step hs (devRead_frame s slot q c va n)

theorem devEnd_frame (s : State) (q c : Nat) : Agree 0x404002000020040800000000000000000000000000000780000004c7080 s (devEnd s q c) := by
  unfold devEnd
  repeat' first
    | with_reducible assumption
    | with_reducible exact Agree.refl _ _
    | exact bitsIn_rfl rfl
    | exact regIn_rfl rfl rfl
    | with_reducible refine forgetReqs_step ?_ ?_
    | with_reducible refine Agree.ite ?_ ?_
    | dsimp only
    | split
    | (with_reducible refine Agree.of_pair (by assumption) ?_)
    | (with_reducible refine Agree.of_pair2 (by assumption) ?_)
    | intro _
theorem devEnd_step {M s0} {s : State} {q c : Nat} (hs : bitsIn 0x404002000020040800000000000000000000000000000780000004c7080 M = true) (hA : Agree M s0 s) : Agree M s0 (devEnd s q c) :=
  hA.step hs (devEnd_frame s q c)

theorem devDone_frame (s : State) (q c : Nat) : Agree 0x404002000020040800000000000000000000000000000780000004c7080 s (devDone s q c) := by
  unfold devDone
  repeat' first
    | with_reducible assumption
    | with_reducible exact Agree.refl _ _
    | exact bitsIn_rfl rfl
    | exact regIn_rfl rfl rfl
    | with_reducible refine forgetReqs_step ?_ ?_
    | with_reducible refine Agree.ite ?_ ?_
    | dsimp only
    | split
    | (with_reducible refine Agree.of_pair (by assumption) ?_)
    | (with_reducible refine Agree.of_pair2 (by assumption) ?_)
    | intro _
theorem devDone_step {M s0} {s : State} {q c : Nat} (hs : bitsIn 0x404002000020040800000000000000000000000000000780000004c7080 M = true) (hA : Agree M s0 s) : Agree M s0 (devDone s q c) :=
  hA.step hs (devDone_frame s q c)

theorem devStall_frame (s : State) (k : Nat) (slot : SlotInfo) (q c rights : Nat) (fs : List TileFault) : Agree 0x404002000020040800000120000000000000000000000780005184c7180 s (devStall s k slot q c rights fs) := by
  unfold devStall
  repeat' first
    | with_reducible assumption
    | with_reducible exact Agree.refl _ _
    | exact bitsIn_rfl rfl
    | exact regIn_rfl rfl rfl
    | with_reducible refine devDone_step ?_ ?_
    | with_reducible refine fresh_step ?_ ?_
    | with_reducible refine stallTile_step ?_ ?_
    | with_reducible refine Agree.ite ?_ ?_
    | dsimp only
    | split
    | (with_reducible refine Agree.of_pair (by assumption) ?_)
    | (with_reducible refine Agree.of_pair2 (by assumption) ?_)
    | intro _
theorem devStall_step {M s0} {s : State} {k : Nat} {slot : SlotInfo} {q c rights : Nat} {fs : List TileFault} (hs : bitsIn 0x404002000020040800000120000000000000000000000780005184c7180 M = true) (hA : Agree M s0 s) : Agree M s0 (devStall s k slot q c rights fs) :=
  hA.step hs (devStall_frame s k slot q c rights fs)

end Sys2Proof.Machine
end

