-- ==== Sys2Proof/Laws/FrameOperands.lean ====
section
/-!
SUPPORT. The frame of every function of Machine/Operands.lean that answers a state: the fields it can change, by mask.
-/

set_option linter.unusedTactic false
set_option linter.unreachableTactic false
set_option linter.unusedVariables false

namespace Sys2Proof.Machine

theorem issue_step {M : Nat} {s0 : State} {s : State} {t : Th} {legal : Bool} {uses : List Nat} {act : Group → State} (hs : bitsIn 0x30000000000000000180000000000000a00 M = true) (hk_act : ∀ (a0 : Group), Agree M s0 (act a0)) (hA : Agree M s0 s) : Agree M s0 (issue s t legal uses act) := by
  unfold issue
  repeat' first
    | with_reducible assumption
    | fail
    | exact bitsIn_trans rfl hs
    | exact regIn_sub rfl rfl hs
    | with_reducible refine threadFault_step ?_ ?_
    | with_reducible refine Agree.ite ?_ ?_
    | dsimp only
    | split
    | (with_reducible refine Agree.of_pair (by assumption) ?_)
    | (with_reducible refine Agree.of_pair2 (by assumption) ?_)
    | intro _
    | with_reducible refine hk_act _

theorem progress_frame (s : State) (c : Nat) : Agree 0x200 s (progress s c) := by
  unfold progress
  repeat' first
    | with_reducible assumption
    | with_reducible exact Agree.refl _ _
    | exact bitsIn_rfl rfl
    | with_reducible refine setBatch_step ?_ ?_
    | with_reducible refine Agree.ite ?_ ?_
    | dsimp only
    | split
    | (with_reducible refine Agree.of_pair (by assumption) ?_)
    | (with_reducible refine Agree.of_pair2 (by assumption) ?_)
    | intro _
theorem progress_step {M s0} {s : State} {c : Nat} (hs : bitsIn 0x200 M = true) (hA : Agree M s0 s) : Agree M s0 (progress s c) :=
  hA.step hs (progress_frame s c)

theorem retire_frame (s : State) (c g : Nat) (gr : Group) : Agree 0xa00 s (retire s c g gr) := by
  unfold retire
  repeat' first
    | with_reducible assumption
    | with_reducible exact Agree.refl _ _
    | exact bitsIn_rfl rfl
    | with_reducible refine modKernel_step ?_ ?_
    | with_reducible refine progress_step ?_ ?_
    | with_reducible refine setGroup_step ?_ ?_
    | with_reducible refine Agree.ite ?_ ?_
    | dsimp only
    | split
    | (with_reducible refine Agree.of_pair (by assumption) ?_)
    | (with_reducible refine Agree.of_pair2 (by assumption) ?_)
    | intro _
theorem retire_step {M s0} {s : State} {c g : Nat} {gr : Group} (hs : bitsIn 0xa00 M = true) (hA : Agree M s0 s) : Agree M s0 (retire s c g gr) :=
  hA.step hs (retire_frame s c g gr)

theorem issueLocal_frame (s : State) (t : Th) (legal : Bool) (uses : List Nat) (f : Group → Group) : Agree 0x30000000000000000180000000000000a00 s (issueLocal s t legal uses f) := by
  unfold issueLocal
  repeat' first
    | with_reducible assumption
    | with_reducible exact Agree.refl _ _
    | exact bitsIn_rfl rfl
    | exact regIn_rfl rfl rfl
    | with_reducible refine issue_step ?_ ?_ ?_
    | with_reducible refine retire_step ?_ ?_
    | with_reducible refine Agree.ite ?_ ?_
    | dsimp only
    | split
    | (with_reducible refine Agree.of_pair (by assumption) ?_)
    | (with_reducible refine Agree.of_pair2 (by assumption) ?_)
    | intro _
theorem issueLocal_step {M s0} {s : State} {t : Th} {legal : Bool} {uses : List Nat} {f : Group → Group} (hs : bitsIn 0x30000000000000000180000000000000a00 M = true) (hA : Agree M s0 s) : Agree M s0 (issueLocal s t legal uses f) :=
  hA.step hs (issueLocal_frame s t legal uses f)

theorem sAlu_frame (s : State) (t : Th) (f : Word → Word → Word) : Agree 0x30000000000000000180000000000000a00 s (sAlu s t f) := by
  unfold sAlu
  repeat' first
    | with_reducible assumption
    | with_reducible exact Agree.refl _ _
    | exact bitsIn_rfl rfl
    | exact regIn_rfl rfl rfl
    | with_reducible refine issueLocal_step ?_ ?_
    | with_reducible refine Agree.ite ?_ ?_
    | dsimp only
    | split
    | (with_reducible refine Agree.of_pair (by assumption) ?_)
    | (with_reducible refine Agree.of_pair2 (by assumption) ?_)
    | intro _
theorem sAlu_step {M s0} {s : State} {t : Th} {f : Word → Word → Word} (hs : bitsIn 0x30000000000000000180000000000000a00 M = true) (hA : Agree M s0 s) : Agree M s0 (sAlu s t f) :=
  hA.step hs (sAlu_frame s t f)

end Sys2Proof.Machine
end

