-- ==== Sys2Proof/Laws/FrameSilk.lean ====
section
/-!
SUPPORT. The frame of every function of Machine/Silk.lean that answers a state: the fields it can change, by mask.
-/

set_option linter.unusedTactic false
set_option linter.unreachableTactic false
set_option linter.unusedVariables false

namespace Sys2Proof.Machine

theorem silkTo_frame (s : State) (chip inst tag epoch type value : Nat) : Agree 0x40400000000000000000000000000000000000000000048000000000080 s (silkTo s chip inst tag epoch type value) := by
  unfold silkTo
  repeat' first
    | with_reducible assumption
    | with_reducible exact Agree.refl _ _
    | exact bitsIn_rfl rfl
    | exact regIn_rfl rfl rfl
    | with_reducible refine freeVal_step ?_ ?_
    | with_reducible refine sendOrDrop_step ?_ ?_
    | with_reducible refine Agree.ite ?_ ?_
    | dsimp only
    | split
    | (with_reducible refine Agree.of_pair (by assumption) ?_)
    | (with_reducible refine Agree.of_pair2 (by assumption) ?_)
    | intro _
theorem silkTo_step {M s0} {s : State} {chip inst tag epoch type value : Nat} (hs : bitsIn 0x40400000000000000000000000000000000000000000048000000000080 M = true) (hA : Agree M s0 s) : Agree M s0 (silkTo s chip inst tag epoch type value) :=
  hA.step hs (silkTo_frame s chip inst tag epoch type value)

theorem silkWake_frame (s : State) (c g op : Nat) : Agree 0x80000000000001200 s (silkWake s c g op) := by
  unfold silkWake
  repeat' first
    | with_reducible assumption
    | with_reducible exact Agree.refl _ _
    | exact bitsIn_rfl rfl
    | with_reducible refine setGroup_step ?_ ?_
    | ((conv => arg 3; arg 88; skip); with_reducible first | refine upd_ctxs ?_ ?_ | refine upd_ops ?_ ?_ | refine upd_ops_ctxs ?_ ?_)
    | with_reducible refine Agree.ite ?_ ?_
    | dsimp only
    | split
    | (with_reducible refine Agree.of_pair (by assumption) ?_)
    | (with_reducible refine Agree.of_pair2 (by assumption) ?_)
    | intro _
theorem silkWake_step {M s0} {s : State} {c g op : Nat} (hs : bitsIn 0x80000000000001200 M = true) (hA : Agree M s0 s) : Agree M s0 (silkWake s c g op) :=
  hA.step hs (silkWake_frame s c g op)

theorem silkRelease_frame (s : State) (w : SilkWaiter) (value : Nat) : Agree 0x4040000000000000000000000000030000000000008004e000000001280 s (silkRelease s w value) := by
  unfold silkRelease
  repeat' first
    | with_reducible assumption
    | with_reducible exact Agree.refl _ _
    | exact bitsIn_rfl rfl
    | exact regIn_rfl rfl rfl
    | with_reducible refine countStale_step ?_ ?_
    | with_reducible refine silkTo_step ?_ ?_
    | with_reducible refine silkWake_step ?_ ?_
    | ((conv => arg 3; arg 88; skip); with_reducible first | refine upd_silkReplies ?_ ?_ | refine upd_silkSent ?_ ?_)
    | with_reducible refine Agree.ite ?_ ?_
    | dsimp only
    | split
    | (with_reducible refine Agree.of_pair (by assumption) ?_)
    | (with_reducible refine Agree.of_pair2 (by assumption) ?_)
    | intro _
theorem silkRelease_step {M s0} {s : State} {w : SilkWaiter} {value : Nat} (hs : bitsIn 0x4040000000000000000000000000030000000000008004e000000001280 M = true) (hA : Agree M s0 s) : Agree M s0 (silkRelease s w value) :=
  hA.step hs (silkRelease_frame s w value)

theorem releaseGe_frame (s : State) (ctr : Nat) : Agree 0x4040000000000000000000000000030000000000008004f000000001280 s (releaseGe s ctr) := by
  unfold releaseGe
  repeat' first
    | with_reducible assumption
    | with_reducible exact Agree.refl _ _
    | exact bitsIn_rfl rfl
    | exact regIn_rfl rfl rfl
    | with_reducible refine silkRelease_step ?_ ?_
    | ((conv => arg 3; arg 88; skip); with_reducible first | refine upd_silkWaiters ?_ ?_)
    | with_reducible refine Agree.ite ?_ ?_
    | (with_reducible refine Agree.foldl ?_ ?_; intro _ _ _)
    | (with_reducible refine Agree.foldl2 ?_ ?_; intro _ _ _)
    | (with_reducible refine Agree.foldl3 ?_ ?_; intro _ _ _)
    | (with_reducible refine Agree.foldl4 ?_ ?_; intro _ _ _)
    | dsimp only
    | split
    | (with_reducible refine Agree.of_pair (by assumption) ?_)
    | (with_reducible refine Agree.of_pair2 (by assumption) ?_)
    | intro _
theorem releaseGe_step {M s0} {s : State} {ctr : Nat} (hs : bitsIn 0x4040000000000000000000000000030000000000008004f000000001280 M = true) (hA : Agree M s0 s) : Agree M s0 (releaseGe s ctr) :=
  hA.step hs (releaseGe_frame s ctr)

theorem releaseTake_frame (s : State) (ctr n : Nat) : Agree 0x204040000000000000000000000000030000000000008004f000000001280 s (releaseTake s ctr n) := by
  have key : ∀ n s0 s, Agree 0x204040000000000000000000000000030000000000008004f000000001280 s0 s → Agree 0x204040000000000000000000000000030000000000008004f000000001280 s0 (releaseTake s ctr n) := by
    intro n
    induction n with
    | zero => intro s0 s h; exact h
    | succ n ih =>
      intro s0 s h
      unfold releaseTake
      dsimp only
      refine Agree.ite h ?_
      split
      · exact h
      · refine ih _ _ (silkRelease_step (bitsIn_rfl rfl) (setR_step (bitsIn_rfl rfl) (regIn_rfl rfl rfl) ?_))
        exact upd_silkWaiters (bitsIn_rfl rfl) h
  exact key n s s (Agree.refl _ _)
theorem releaseTake_step {M s0} {s : State} {ctr n : Nat} (hs : bitsIn 0x204040000000000000000000000000030000000000008004f000000001280 M = true) (h : Agree M s0 s) :
    Agree M s0 (releaseTake s ctr n) := h.step hs (releaseTake_frame s ctr n)

theorem releaseWaiters_frame (s : State) (ctr : Nat) : Agree 0x204040000000000000000000000000030000000000008004f000000001280 s (releaseWaiters s ctr) := by
  unfold releaseWaiters
  repeat' first
    | with_reducible assumption
    | with_reducible exact Agree.refl _ _
    | exact bitsIn_rfl rfl
    | exact regIn_rfl rfl rfl
    | with_reducible refine releaseGe_step ?_ ?_
    | with_reducible refine releaseTake_step ?_ ?_
    | with_reducible refine Agree.ite ?_ ?_
    | dsimp only
    | split
    | (with_reducible refine Agree.of_pair (by assumption) ?_)
    | (with_reducible refine Agree.of_pair2 (by assumption) ?_)
    | intro _
theorem releaseWaiters_step {M s0} {s : State} {ctr : Nat} (hs : bitsIn 0x204040000000000000000000000000030000000000008004f000000001280 M = true) (hA : Agree M s0 s) : Agree M s0 (releaseWaiters s ctr) :=
  hA.step hs (releaseWaiters_frame s ctr)

theorem setCounter_frame (s : State) (ctr v : Nat) : Agree 0x204040000000000000000000000000030000000000008004f000000001280 s (setCounter s ctr v) := by
  unfold setCounter
  repeat' first
    | with_reducible assumption
    | with_reducible exact Agree.refl _ _
    | exact bitsIn_rfl rfl
    | exact regIn_rfl rfl rfl
    | with_reducible refine releaseWaiters_step ?_ ?_
    | with_reducible refine setR_step ?_ ?_ ?_
    | with_reducible refine Agree.ite ?_ ?_
    | dsimp only
    | split
    | (with_reducible refine Agree.of_pair (by assumption) ?_)
    | (with_reducible refine Agree.of_pair2 (by assumption) ?_)
    | intro _
theorem setCounter_step {M s0} {s : State} {ctr v : Nat} (hs : bitsIn 0x204040000000000000000000000000030000000000008004f000000001280 M = true) (hA : Agree M s0 s) : Agree M s0 (setCounter s ctr v) :=
  hA.step hs (setCounter_frame s ctr v)

theorem silkLate_frame (s : State) (sent : DWord) (bound master inst : Nat) : Agree 0x10000000000000000000000800000000000000000000000000000000000000000000000004000000000 s (silkLate s sent bound master inst) := by
  unfold silkLate
  repeat' first
    | with_reducible assumption
    | with_reducible exact Agree.refl _ _
    | exact bitsIn_rfl rfl
    | exact regIn_rfl rfl rfl
    | with_reducible refine countR_step ?_ ?_ ?_
    | with_reducible refine fabricFault_step ?_ ?_
    | with_reducible refine Agree.ite ?_ ?_
    | dsimp only
    | split
    | (with_reducible refine Agree.of_pair (by assumption) ?_)
    | (with_reducible refine Agree.of_pair2 (by assumption) ?_)
    | intro _
theorem silkLate_step {M s0} {s : State} {sent : DWord} {bound master inst : Nat} (hs : bitsIn 0x10000000000000000000000800000000000000000000000000000000000000000000000004000000000 M = true) (hA : Agree M s0 s) : Agree M s0 (silkLate s sent bound master inst) :=
  hA.step hs (silkLate_frame s sent bound master inst)

theorem silkFail_frame (s : State) (c g op code : Nat) : Agree 0x30000000000000000180000000000001a00 s (silkFail s c g op code) := by
  unfold silkFail
  repeat' first
    | with_reducible assumption
    | with_reducible exact Agree.refl _ _
    | exact bitsIn_rfl rfl
    | exact regIn_rfl rfl rfl
    | with_reducible refine threadFault_step ?_ ?_
    | ((conv => arg 3; arg 88; skip); with_reducible first | refine upd_ops ?_ ?_)
    | with_reducible refine Agree.ite ?_ ?_
    | dsimp only
    | split
    | (with_reducible refine Agree.of_pair (by assumption) ?_)
    | (with_reducible refine Agree.of_pair2 (by assumption) ?_)
    | intro _
theorem silkFail_step {M s0} {s : State} {c g op code : Nat} (hs : bitsIn 0x30000000000000000180000000000001a00 M = true) (hA : Agree M s0 s) : Agree M s0 (silkFail s c g op code) :=
  hA.step hs (silkFail_frame s c g op code)

theorem silkAnswer_frame (s : State) (m : SilkMsg) (value : Nat) : Agree 0x4040000000000000000000000000000000000000008004e000000001280 s (silkAnswer s m value) := by
  unfold silkAnswer
  repeat' first
    | with_reducible assumption
    | with_reducible exact Agree.refl _ _
    | exact bitsIn_rfl rfl
    | exact regIn_rfl rfl rfl
    | with_reducible refine silkTo_step ?_ ?_
    | with_reducible refine silkWake_step ?_ ?_
    | ((conv => arg 3; arg 88; skip); with_reducible first | refine upd_silkReplies ?_ ?_ | refine upd_silkSent ?_ ?_)
    | with_reducible refine Agree.ite ?_ ?_
    | dsimp only
    | split
    | (with_reducible refine Agree.of_pair (by assumption) ?_)
    | (with_reducible refine Agree.of_pair2 (by assumption) ?_)
    | intro _
theorem silkAnswer_step {M s0} {s : State} {m : SilkMsg} {value : Nat} (hs : bitsIn 0x4040000000000000000000000000000000000000008004e000000001280 M = true) (hA : Agree M s0 s) : Agree M s0 (silkAnswer s m value) :=
  hA.step hs (silkAnswer_frame s m value)

theorem silkHold_frame (s : State) (m : SilkMsg) : Agree 0x40400000000000000000000000000000000000000000049000000000000 s (silkHold s m) := by
  unfold silkHold
  repeat' first
    | with_reducible assumption
    | with_reducible exact Agree.refl _ _
    | exact bitsIn_rfl rfl
    | exact regIn_rfl rfl rfl
    | with_reducible refine countR_step ?_ ?_ ?_
    | with_reducible refine sendOrDrop_step ?_ ?_
    | ((conv => arg 3; arg 88; skip); with_reducible first | refine upd_silkWaiters ?_ ?_)
    | with_reducible refine Agree.ite ?_ ?_
    | dsimp only
    | split
    | (with_reducible refine Agree.of_pair (by assumption) ?_)
    | (with_reducible refine Agree.of_pair2 (by assumption) ?_)
    | intro _
theorem silkHold_step {M s0} {s : State} {m : SilkMsg} (hs : bitsIn 0x40400000000000000000000000000000000000000000049000000000000 M = true) (hA : Agree M s0 s) : Agree M s0 (silkHold s m) :=
  hA.step hs (silkHold_frame s m)

theorem silkPerform_frame (s : State) (m : SilkMsg) : Agree 0xa44040000000000000000000000000030000000000008004f000000001280 s (silkPerform s m) := by
  unfold silkPerform
  repeat' first
    | with_reducible assumption
    | with_reducible exact Agree.refl _ _
    | exact bitsIn_rfl rfl
    | exact regIn_rfl rfl rfl
    | with_reducible refine countR_step ?_ ?_ ?_
    | with_reducible refine setCounter_step ?_ ?_
    | with_reducible refine silkAnswer_step ?_ ?_
    | with_reducible refine silkHold_step ?_ ?_
    | with_reducible refine Agree.ite ?_ ?_
    | dsimp only
    | split
    | (with_reducible refine Agree.of_pair (by assumption) ?_)
    | (with_reducible refine Agree.of_pair2 (by assumption) ?_)
    | intro _
theorem silkPerform_step {M s0} {s : State} {m : SilkMsg} (hs : bitsIn 0xa44040000000000000000000000000030000000000008004f000000001280 M = true) (hA : Agree M s0 s) : Agree M s0 (silkPerform s m) :=
  hA.step hs (silkPerform_frame s m)

theorem execSilkHomeOp_frame (id : Nat) (s : State) : AgreeO 0x1000000000000000000000ac4040000000000000000000003000030000000000018004f804000001a80 s (execSilkHomeOp id s) := by
  unfold execSilkHomeOp
  repeat' first
    | with_reducible assumption
    | with_reducible exact Agree.refl _ _
    | exact bitsIn_rfl rfl
    | exact regIn_rfl rfl rfl
    | with_reducible refine AgreeO.next ?_
    | with_reducible refine AgreeO.ite ?_ ?_
    | with_reducible exact AgreeO.refused
    | with_reducible exact AgreeO.fault
    | with_reducible refine countStale_step ?_ ?_
    | with_reducible refine sendOrDrop_step ?_ ?_
    | with_reducible refine silkFail_step ?_ ?_
    | with_reducible refine silkLate_step ?_ ?_
    | with_reducible refine silkPerform_step ?_ ?_
    | ((conv => arg 3; arg 88; skip); with_reducible first | refine upd_silkMsgs ?_ ?_)
    | with_reducible refine Agree.ite ?_ ?_
    | dsimp only
    | split
    | (with_reducible refine Agree.of_pair (by assumption) ?_)
    | (with_reducible refine Agree.of_pair2 (by assumption) ?_)
    | intro _
theorem execSilkHomeOp_step {M s0} {id : Nat} {s : State} (hs : bitsIn 0x1000000000000000000000ac4040000000000000000000003000030000000000018004f804000001a80 M = true) (hA : Agree M s0 s) : AgreeO M s0 (execSilkHomeOp id s) :=
  hA.stepO hs (execSilkHomeOp_frame id s)

theorem execSilkCtrWrite_frame (n v : Nat) (s : State) : AgreeO 0x204040000000000000000000000000030000000000008014f000000001280 s (execSilkCtrWrite n v s) := by
  unfold execSilkCtrWrite
  repeat' first
    | with_reducible assumption
    | with_reducible exact Agree.refl _ _
    | exact bitsIn_rfl rfl
    | exact regIn_rfl rfl rfl
    | with_reducible refine AgreeO.next ?_
    | with_reducible refine AgreeO.ite ?_ ?_
    | with_reducible exact AgreeO.refused
    | with_reducible exact AgreeO.fault
    | with_reducible refine setCounter_step ?_ ?_
    | ((conv => arg 3; arg 88; skip); with_reducible first | refine upd_custody ?_ ?_)
    | with_reducible refine Agree.ite ?_ ?_
    | dsimp only
    | split
    | (with_reducible refine Agree.of_pair (by assumption) ?_)
    | (with_reducible refine Agree.of_pair2 (by assumption) ?_)
    | intro _
theorem execSilkCtrWrite_step {M s0} {n v : Nat} {s : State} (hs : bitsIn 0x204040000000000000000000000000030000000000008014f000000001280 M = true) (hA : Agree M s0 s) : AgreeO M s0 (execSilkCtrWrite n v s) :=
  hA.stepO hs (execSilkCtrWrite_frame n v s)

theorem csilk_frame (s : State) (t : Th) (op : Nat) (k : ThreadKind) : Agree 0x40000000000000000000000030000000000000000180058800000001b80 s (csilk s t op k) := by
  unfold csilk
  repeat' first
    | with_reducible assumption
    | with_reducible exact Agree.refl _ _
    | exact bitsIn_rfl rfl
    | exact regIn_rfl rfl rfl
    | with_reducible refine freeVal_step ?_ ?_
    | with_reducible refine fresh_step ?_ ?_
    | with_reducible refine issue_step ?_ ?_ ?_
    | with_reducible refine retire_step ?_ ?_
    | with_reducible refine selfErr_step ?_ ?_
    | with_reducible refine sendMsg_step ?_ ?_
    | with_reducible refine threadFault_step ?_ ?_
    | ((conv => arg 3; arg 88; skip); with_reducible first | refine upd_ops ?_ ?_ | refine upd_silkMsgs ?_ ?_)
    | with_reducible refine Agree.ite ?_ ?_
    | dsimp only
    | split
    | (with_reducible refine Agree.of_pair (by assumption) ?_)
    | (with_reducible refine Agree.of_pair2 (by assumption) ?_)
    | (with_reducible refine AgreeP.of ?_ (by assumption))
    | intro _
theorem csilk_step {M s0} {s : State} {t : Th} {op : Nat} {k : ThreadKind} (hs : bitsIn 0x40000000000000000000000030000000000000000180058800000001b80 M = true) (hA : Agree M s0 s) : Agree M s0 (csilk s t op k) :=
  hA.step hs (csilk_frame s t op k)

theorem execCsilkAdd_frame (t : Th) (s : State) : AgreeO 0x40000000000000000000000030000000000000000180058800000001b80 s (execCsilkAdd t s) := by
  unfold execCsilkAdd
  repeat' first
    | with_reducible assumption
    | with_reducible exact Agree.refl _ _
    | exact bitsIn_rfl rfl
    | exact regIn_rfl rfl rfl
    | with_reducible refine AgreeO.next ?_
    | with_reducible refine AgreeO.ite ?_ ?_
    | with_reducible exact AgreeO.refused
    | with_reducible exact AgreeO.fault
    | with_reducible refine csilk_step ?_ ?_
    | with_reducible refine Agree.ite ?_ ?_
    | dsimp only
    | split
    | (with_reducible refine Agree.of_pair (by assumption) ?_)
    | (with_reducible refine Agree.of_pair2 (by assumption) ?_)
    | intro _
theorem execCsilkAdd_step {M s0} {t : Th} {s : State} (hs : bitsIn 0x40000000000000000000000030000000000000000180058800000001b80 M = true) (hA : Agree M s0 s) : AgreeO M s0 (execCsilkAdd t s) :=
  hA.stepO hs (execCsilkAdd_frame t s)

theorem execCsilkRead_frame (t : Th) (s : State) : AgreeO 0x40000000000000000000000030000000000000000180058800000001b80 s (execCsilkRead t s) := by
  unfold execCsilkRead
  repeat' first
    | with_reducible assumption
    | with_reducible exact Agree.refl _ _
    | exact bitsIn_rfl rfl
    | exact regIn_rfl rfl rfl
    | with_reducible refine AgreeO.next ?_
    | with_reducible refine AgreeO.ite ?_ ?_
    | with_reducible exact AgreeO.refused
    | with_reducible exact AgreeO.fault
    | with_reducible refine csilk_step ?_ ?_
    | with_reducible refine Agree.ite ?_ ?_
    | dsimp only
    | split
    | (with_reducible refine Agree.of_pair (by assumption) ?_)
    | (with_reducible refine Agree.of_pair2 (by assumption) ?_)
    | intro _
theorem execCsilkRead_step {M s0} {t : Th} {s : State} (hs : bitsIn 0x40000000000000000000000030000000000000000180058800000001b80 M = true) (hA : Agree M s0 s) : AgreeO M s0 (execCsilkRead t s) :=
  hA.stepO hs (execCsilkRead_frame t s)

theorem execCsilkWaitge_frame (t : Th) (s : State) : AgreeO 0x40000000000000000000000030000000000000000180058800000001b80 s (execCsilkWaitge t s) := by
  unfold execCsilkWaitge
  repeat' first
    | with_reducible assumption
    | with_reducible exact Agree.refl _ _
    | exact bitsIn_rfl rfl
    | exact regIn_rfl rfl rfl
    | with_reducible refine AgreeO.next ?_
    | with_reducible refine AgreeO.ite ?_ ?_
    | with_reducible exact AgreeO.refused
    | with_reducible exact AgreeO.fault
    | with_reducible refine csilk_step ?_ ?_
    | with_reducible refine Agree.ite ?_ ?_
    | dsimp only
    | split
    | (with_reducible refine Agree.of_pair (by assumption) ?_)
    | (with_reducible refine Agree.of_pair2 (by assumption) ?_)
    | intro _
theorem execCsilkWaitge_step {M s0} {t : Th} {s : State} (hs : bitsIn 0x40000000000000000000000030000000000000000180058800000001b80 M = true) (hA : Agree M s0 s) : AgreeO M s0 (execCsilkWaitge t s) :=
  hA.stepO hs (execCsilkWaitge_frame t s)

theorem execCsilkTake_frame (t : Th) (s : State) : AgreeO 0x40000000000000000000000030000000000000000180058800000001b80 s (execCsilkTake t s) := by
  unfold execCsilkTake
  repeat' first
    | with_reducible assumption
    | with_reducible exact Agree.refl _ _
    | exact bitsIn_rfl rfl
    | exact regIn_rfl rfl rfl
    | with_reducible refine AgreeO.next ?_
    | with_reducible refine AgreeO.ite ?_ ?_
    | with_reducible exact AgreeO.refused
    | with_reducible exact AgreeO.fault
    | with_reducible refine csilk_step ?_ ?_
    | with_reducible refine Agree.ite ?_ ?_
    | dsimp only
    | split
    | (with_reducible refine Agree.of_pair (by assumption) ?_)
    | (with_reducible refine Agree.of_pair2 (by assumption) ?_)
    | intro _
theorem execCsilkTake_step {M s0} {t : Th} {s : State} (hs : bitsIn 0x40000000000000000000000030000000000000000180058800000001b80 M = true) (hA : Agree M s0 s) : AgreeO M s0 (execCsilkTake t s) :=
  hA.stepO hs (execCsilkTake_frame t s)

end Sys2Proof.Machine
end

