-- ==== Sys2Proof/Laws/FrameCollOps.lean ====
section
/-!
SUPPORT. The frame of every function of Machine/CollOps.lean that answers a state: the fields it can change, by mask.
-/

set_option linter.unusedTactic false
set_option linter.unreachableTactic false
set_option linter.unusedVariables false

namespace Sys2Proof.Machine

theorem modColl_frame (s : State) (k : Nat) (f : Coll → Coll) : Agree 0x400000000000000 s (modColl s k f) := by
  unfold modColl
  repeat' first
    | with_reducible assumption
    | with_reducible exact Agree.refl _ _
    | exact bitsIn_rfl rfl
    | ((conv => arg 3; arg 88; skip); with_reducible first | refine upd_colls ?_ ?_)
    | with_reducible refine Agree.ite ?_ ?_
    | dsimp only
    | split
    | (with_reducible refine Agree.of_pair (by assumption) ?_)
    | (with_reducible refine Agree.of_pair2 (by assumption) ?_)
    | intro _
theorem modColl_step {M s0} {s : State} {k : Nat} {f : Coll → Coll} (hs : bitsIn 0x400000000000000 M = true) (hA : Agree M s0 s) : Agree M s0 (modColl s k f) :=
  hA.step hs (modColl_frame s k f)

theorem collCount_frame (s : State) (c : Coll) (k : Nat) : Agree 0x204040000000000000000000000000030000000000008004f000000001280 s (collCount s c k) := by
  unfold collCount
  repeat' first
    | with_reducible assumption
    | with_reducible exact Agree.refl _ _
    | exact bitsIn_rfl rfl
    | exact regIn_rfl rfl rfl
    | with_reducible refine setCounter_step ?_ ?_
    | with_reducible refine Agree.ite ?_ ?_
    | dsimp only
    | split
    | (with_reducible refine Agree.of_pair (by assumption) ?_)
    | (with_reducible refine Agree.of_pair2 (by assumption) ?_)
    | intro _
theorem collCount_step {M s0} {s : State} {c : Coll} {k : Nat} (hs : bitsIn 0x204040000000000000000000000000030000000000008004f000000001280 M = true) (hA : Agree M s0 s) : Agree M s0 (collCount s c k) :=
  hA.step hs (collCount_frame s c k)

theorem collSendMsg_frame (s : State) (m : LinkMsg) : Agree 0x40000000000000000000000000000000000000000000058000000000000 s (collSendMsg s m) := by
  unfold collSendMsg
  repeat' first
    | with_reducible assumption
    | with_reducible exact Agree.refl _ _
    | exact bitsIn_rfl rfl
    | exact regIn_rfl rfl rfl
    | with_reducible refine selfErr_step ?_ ?_
    | with_reducible refine sendMsg_step ?_ ?_
    | with_reducible refine Agree.ite ?_ ?_
    | dsimp only
    | split
    | (with_reducible refine Agree.of_pair (by assumption) ?_)
    | (with_reducible refine Agree.of_pair2 (by assumption) ?_)
    | (with_reducible refine AgreeP.of ?_ (by assumption))
    | intro _
theorem collSendMsg_step {M s0} {s : State} {m : LinkMsg} (hs : bitsIn 0x40000000000000000000000000000000000000000000058000000000000 M = true) (hA : Agree M s0 s) : Agree M s0 (collSendMsg s m) :=
  hA.step hs (collSendMsg_frame s m)

theorem leaveChan_frame (s : State) (n : Nat) : Agree 0x8000000000000000000000000000000000000000000002000 s (leaveChan s n) := by
  unfold leaveChan
  repeat' first
    | with_reducible assumption
    | with_reducible exact Agree.refl _ _
    | exact bitsIn_rfl rfl
    | exact regIn_rfl rfl rfl
    | with_reducible refine setChan_step ?_ ?_
    | with_reducible refine setF_step ?_ ?_ ?_
    | with_reducible refine Agree.ite ?_ ?_
    | dsimp only
    | split
    | (with_reducible refine Agree.of_pair (by assumption) ?_)
    | (with_reducible refine Agree.of_pair2 (by assumption) ?_)
    | intro _
theorem leaveChan_step {M s0} {s : State} {n : Nat} (hs : bitsIn 0x8000000000000000000000000000000000000000000002000 M = true) (hA : Agree M s0 s) : Agree M s0 (leaveChan s n) :=
  hA.step hs (leaveChan_frame s n)

theorem freeColl_frame (s : State) (k : Nat) (c : Coll) : Agree 0x8000000000000000000000000000000000400000000002000 s (freeColl s k c) := by
  unfold freeColl
  repeat' first
    | with_reducible assumption
    | with_reducible exact Agree.refl _ _
    | exact bitsIn_rfl rfl
    | exact regIn_rfl rfl rfl
    | with_reducible refine leaveChan_step ?_ ?_
    | ((conv => arg 3; arg 88; skip); with_reducible first | refine upd_colls ?_ ?_)
    | with_reducible refine Agree.ite ?_ ?_
    | (with_reducible refine Agree.foldl ?_ ?_; intro _ _ _)
    | (with_reducible refine Agree.foldl2 ?_ ?_; intro _ _ _)
    | (with_reducible refine Agree.foldl3 ?_ ?_; intro _ _ _)
    | (with_reducible refine Agree.foldl4 ?_ ?_; intro _ _ _)
    | dsimp only
    | split
    | (with_reducible refine Agree.of_pair (by assumption) ?_)
    | (with_reducible refine Agree.of_pair2 (by assumption) ?_)
    | intro _
theorem freeColl_step {M s0} {s : State} {k : Nat} {c : Coll} (hs : bitsIn 0x8000000000000000000000000000000000400000000002000 M = true) (hA : Agree M s0 s) : Agree M s0 (freeColl s k c) :=
  hA.step hs (freeColl_frame s k c)

theorem collTell_frame (s : State) (k : Nat) (c : Coll) : Agree 0x40000000000000000000000000000000000000000000058000000000000 s (collTell s k c) := by
  unfold collTell
  repeat' first
    | with_reducible assumption
    | with_reducible exact Agree.refl _ _
    | exact bitsIn_rfl rfl
    | exact regIn_rfl rfl rfl
    | with_reducible refine collSendMsg_step ?_ ?_
    | with_reducible refine Agree.ite ?_ ?_
    | (with_reducible refine Agree.foldl ?_ ?_; intro _ _ _)
    | (with_reducible refine Agree.foldl2 ?_ ?_; intro _ _ _)
    | (with_reducible refine Agree.foldl3 ?_ ?_; intro _ _ _)
    | (with_reducible refine Agree.foldl4 ?_ ?_; intro _ _ _)
    | dsimp only
    | split
    | (with_reducible refine Agree.of_pair (by assumption) ?_)
    | (with_reducible refine Agree.of_pair2 (by assumption) ?_)
    | intro _
theorem collTell_step {M s0} {s : State} {k : Nat} {c : Coll} (hs : bitsIn 0x40000000000000000000000000000000000000000000058000000000000 M = true) (hA : Agree M s0 s) : Agree M s0 (collTell s k c) :=
  hA.step hs (collTell_frame s k c)

theorem settleCaps_frame (s : State) : Agree 0x4001000000000000000000000000000000000000000000400000000000000000000 s (settleCaps s) := by
  unfold settleCaps
  repeat' first
    | with_reducible assumption
    | with_reducible exact Agree.refl _ _
    | exact bitsIn_rfl rfl
    | exact regIn_rfl rfl rfl
    | with_reducible refine setF_step ?_ ?_ ?_
    | ((conv => arg 3; arg 88; skip); with_reducible first | refine upd_power ?_ ?_)
    | with_reducible refine Agree.ite ?_ ?_
    | (with_reducible refine Agree.foldl ?_ ?_; intro _ _ _)
    | (with_reducible refine Agree.foldl2 ?_ ?_; intro _ _ _)
    | (with_reducible refine Agree.foldl3 ?_ ?_; intro _ _ _)
    | (with_reducible refine Agree.foldl4 ?_ ?_; intro _ _ _)
    | dsimp only
    | split
    | (with_reducible refine Agree.of_pair (by assumption) ?_)
    | (with_reducible refine Agree.of_pair2 (by assumption) ?_)
    | intro _
theorem settleCaps_step {M s0} {s : State} (hs : bitsIn 0x4001000000000000000000000000000000000000000000400000000000000000000 M = true) (hA : Agree M s0 s) : Agree M s0 (settleCaps s) :=
  hA.step hs (settleCaps_frame s)

theorem failColl_frame (s : State) (k code : Nat) : Agree 0x4001000000000000008000000000000000000000000000400400400000000002000 s (failColl s k code) := by
  unfold failColl
  repeat' first
    | with_reducible assumption
    | with_reducible exact Agree.refl _ _
    | exact bitsIn_rfl rfl
    | exact regIn_rfl rfl rfl
    | with_reducible refine endCmd_step ?_ ?_
    | with_reducible refine freeColl_step ?_ ?_
    | with_reducible refine modColl_step ?_ ?_
    | with_reducible refine settleCaps_step ?_ ?_
    | with_reducible refine Agree.ite ?_ ?_
    | dsimp only
    | split
    | (with_reducible refine Agree.of_pair (by assumption) ?_)
    | (with_reducible refine Agree.of_pair2 (by assumption) ?_)
    | intro _
theorem failColl_step {M s0} {s : State} {k code : Nat} (hs : bitsIn 0x4001000000000000008000000000000000000000000000400400400000000002000 M = true) (hA : Agree M s0 s) : Agree M s0 (failColl s k code) :=
  hA.step hs (failColl_frame s k code)

theorem failColls_frame (s : State) (code : Nat) (p : Coll → Bool) : Agree 0x4001000000000000008000000000000000000000000000400400400000000002000 s (failColls s code p) := by
  unfold failColls
  repeat' first
    | with_reducible assumption
    | with_reducible exact Agree.refl _ _
    | exact bitsIn_rfl rfl
    | exact regIn_rfl rfl rfl
    | with_reducible refine failColl_step ?_ ?_
    | with_reducible refine Agree.ite ?_ ?_
    | (with_reducible refine Agree.foldl ?_ ?_; intro _ _ _)
    | (with_reducible refine Agree.foldl2 ?_ ?_; intro _ _ _)
    | (with_reducible refine Agree.foldl3 ?_ ?_; intro _ _ _)
    | (with_reducible refine Agree.foldl4 ?_ ?_; intro _ _ _)
    | dsimp only
    | split
    | (with_reducible refine Agree.of_pair (by assumption) ?_)
    | (with_reducible refine Agree.of_pair2 (by assumption) ?_)
    | intro _
theorem failColls_step {M s0} {s : State} {code : Nat} {p : Coll → Bool} (hs : bitsIn 0x4001000000000000008000000000000000000000000000400400400000000002000 M = true) (hA : Agree M s0 s) : Agree M s0 (failColls s code p) :=
  hA.step hs (failColls_frame s code p)

theorem collEnded_frame (s : State) (id code : Nat) : Agree 0x4001000040000000008000000000000000000000000000400000458000000002000 s (collEnded s id code) := by
  unfold collEnded
  repeat' first
    | with_reducible assumption
    | with_reducible exact Agree.refl _ _
    | exact bitsIn_rfl rfl
    | exact regIn_rfl rfl rfl
    | with_reducible refine collTell_step ?_ ?_
    | with_reducible refine freeColl_step ?_ ?_
    | with_reducible refine modColl_step ?_ ?_
    | with_reducible refine settleCaps_step ?_ ?_
    | with_reducible refine Agree.ite ?_ ?_
    | dsimp only
    | split
    | (with_reducible refine Agree.of_pair (by assumption) ?_)
    | (with_reducible refine Agree.of_pair2 (by assumption) ?_)
    | intro _
theorem collEnded_step {M s0} {s : State} {id code : Nat} (hs : bitsIn 0x4001000040000000008000000000000000000000000000400000458000000002000 M = true) (hA : Agree M s0 s) : Agree M s0 (collEnded s id code) :=
  hA.step hs (collEnded_frame s id code)

theorem dropColls_frame (s : State) (space : Nat) : Agree 0x4001000040000000008000000000000000000000000000400000458000000002000 s (dropColls s space) := by
  unfold dropColls
  repeat' first
    | with_reducible assumption
    | with_reducible exact Agree.refl _ _
    | exact bitsIn_rfl rfl
    | exact regIn_rfl rfl rfl
    | with_reducible refine collTell_step ?_ ?_
    | with_reducible refine freeColl_step ?_ ?_
    | with_reducible refine settleCaps_step ?_ ?_
    | with_reducible refine Agree.ite ?_ ?_
    | (with_reducible refine Agree.foldl ?_ ?_; intro _ _ _)
    | (with_reducible refine Agree.foldl2 ?_ ?_; intro _ _ _)
    | (with_reducible refine Agree.foldl3 ?_ ?_; intro _ _ _)
    | (with_reducible refine Agree.foldl4 ?_ ?_; intro _ _ _)
    | dsimp only
    | split
    | (with_reducible refine Agree.of_pair (by assumption) ?_)
    | (with_reducible refine Agree.of_pair2 (by assumption) ?_)
    | intro _
theorem dropColls_step {M s0} {s : State} {space : Nat} (hs : bitsIn 0x4001000040000000008000000000000000000000000000400000458000000002000 M = true) (hA : Agree M s0 s) : Agree M s0 (dropColls s space) :=
  hA.step hs (dropColls_frame s space)

end Sys2Proof.Machine
end

