-- ==== Sys2Proof/Laws/FrameFences.lean ====
section
/-!
SUPPORT. The frame of every function of Machine/Fences.lean that answers a state: the fields it can change, by mask.
-/

set_option linter.unusedTactic false
set_option linter.unreachableTactic false
set_option linter.unusedVariables false

namespace Sys2Proof.Machine

/-- The state of an answer of this kind agrees. -/
def AgreeFenceRes (M : Nat) (s : State) (r : FenceRes) : Prop := ∀ t, (r = .done t) ∨ (r = .sent t) ∨ (r = .wait t) ∨ (∃ x0, r = .failed x0 t) → Agree M s t

theorem AgreeFenceRes.done {M s t} (h : Agree M s t) : AgreeFenceRes M s (.done t) := by
  intro u e; simp at e; first | (subst e; exact h) | (obtain ⟨-, e⟩ := e; subst e; exact h) | (obtain ⟨-, -, e⟩ := e; subst e; exact h) 
theorem AgreeFenceRes.of_done {M s t r} (h : AgreeFenceRes M s r) (e : r = .done t) : Agree M s t := h t (.inl (e))
theorem AgreeFenceRes.sent {M s t} (h : Agree M s t) : AgreeFenceRes M s (.sent t) := by
  intro u e; simp at e; first | (subst e; exact h) | (obtain ⟨-, e⟩ := e; subst e; exact h) | (obtain ⟨-, -, e⟩ := e; subst e; exact h) 
theorem AgreeFenceRes.of_sent {M s t r} (h : AgreeFenceRes M s r) (e : r = .sent t) : Agree M s t := h t (.inr (.inl (e)))
theorem AgreeFenceRes.wait {M s t} (h : Agree M s t) : AgreeFenceRes M s (.wait t) := by
  intro u e; simp at e; first | (subst e; exact h) | (obtain ⟨-, e⟩ := e; subst e; exact h) | (obtain ⟨-, -, e⟩ := e; subst e; exact h) 
theorem AgreeFenceRes.of_wait {M s t r} (h : AgreeFenceRes M s r) (e : r = .wait t) : Agree M s t := h t (.inr (.inr (.inl (e))))
theorem AgreeFenceRes.failed {M s t} {x0 } (h : Agree M s t) : AgreeFenceRes M s (.failed x0 t) := by
  intro u e; simp at e; first | (subst e; exact h) | (obtain ⟨-, e⟩ := e; subst e; exact h) | (obtain ⟨-, -, e⟩ := e; subst e; exact h) 
theorem AgreeFenceRes.of_failed {M s t r} {x0 } (h : AgreeFenceRes M s r) (e : r = .failed x0 t) : Agree M s t := h t (.inr (.inr (.inr (⟨_, e⟩))))
theorem AgreeFenceRes.ite {M s a b} {c : Prop} [Decidable c] (h1 : AgreeFenceRes M s a) (h2 : AgreeFenceRes M s b) : AgreeFenceRes M s (if c then a else b) := by split <;> assumption
theorem Agree.stepFenceRes {M m s0 s r} (h : Agree M s0 s) (hs : bitsIn m M = true) (g : AgreeFenceRes m s r) : AgreeFenceRes M s0 r := fun t ht => h.step hs (g t ht)

theorem fenceAt_frame (s : State) (slot : SlotInfo) (q c va : Nat) : Agree 0x400000000000000000404102800000040800001800000020000000000000000580000c04fc180 s (fenceAt s slot q c va).2 := by
  unfold fenceAt
  repeat' first
    | with_reducible assumption
    | with_reducible exact Agree.refl _ _
    | exact bitsIn_rfl rfl
    | exact regIn_rfl rfl rfl
    | with_reducible refine devAccess_step ?_ ?_ ?_
    | with_reducible refine Agree.ite ?_ ?_
    | dsimp only
    | split
    | (with_reducible refine Agree.of_pair (by assumption) ?_)
    | (with_reducible refine Agree.of_pair2 (by assumption) ?_)
    | intro _
theorem fenceAt_step {M s0} {s : State} {slot : SlotInfo} {q c va : Nat} (hs : bitsIn 0x400000000000000000404102800000040800001800000020000000000000000580000c04fc180 M = true) (hA : Agree M s0 s) : Agree M s0 (fenceAt s slot q c va).2 :=
  hA.step hs (fenceAt_frame s slot q c va)

theorem fenceSend_frame (s : State) (inst gpa op arg instar tag : Nat) : AgreeS 0x40000000000000000000000000000000000000000000048000000000000 s (fenceSend s inst gpa op arg instar tag) := by
  unfold fenceSend
  repeat' first
    | with_reducible assumption
    | with_reducible exact Agree.refl _ _
    | exact bitsIn_rfl rfl
    | exact regIn_rfl rfl rfl
    | with_reducible refine AgreeS.some ?_
    | with_reducible refine AgreeS.ite ?_ ?_
    | with_reducible exact AgreeS.none
    | with_reducible refine sendMsg_step ?_ ?_
    | with_reducible refine Agree.ite ?_ ?_
    | dsimp only
    | split
    | (with_reducible refine Agree.of_pair (by assumption) ?_)
    | (with_reducible refine Agree.of_pair2 (by assumption) ?_)
    | (with_reducible refine AgreeP.of ?_ (by assumption))
    | with_reducible refine AgreeP.snd ?_
    | intro _
theorem fenceSend_step {M s0} {s : State} {inst gpa op arg instar tag : Nat} (hs : bitsIn 0x40000000000000000000000000000000000000000000048000000000000 M = true) (hA : Agree M s0 s) : AgreeS M s0 (fenceSend s inst gpa op arg instar tag) :=
  hA.stepS hs (fenceSend_frame s inst gpa op arg instar tag)

theorem fenceWrite_frame (s : State) (space gpa : Nat) (data : List Byte) : Agree 0x302800000040800000000000000000000000000000000000004f8000 s (fenceWrite s space gpa data) := by
  unfold fenceWrite
  repeat' first
    | with_reducible assumption
    | with_reducible exact Agree.refl _ _
    | exact bitsIn_rfl rfl
    | exact regIn_rfl rfl rfl
    | with_reducible refine readNow_step ?_ ?_
    | with_reducible refine regulate_step ?_ ?_
    | with_reducible refine writeNow_step ?_ ?_
    | with_reducible refine Agree.ite ?_ ?_
    | dsimp only
    | split
    | (with_reducible refine Agree.of_pair (by assumption) ?_)
    | (with_reducible refine Agree.of_pair2 (by assumption) ?_)
    | intro _
theorem fenceWrite_step {M s0} {s : State} {space gpa : Nat} {data : List Byte} (hs : bitsIn 0x302800000040800000000000000000000000000000000000004f8000 M = true) (hA : Agree M s0 s) : Agree M s0 (fenceWrite s space gpa data) :=
  hA.step hs (fenceWrite_frame s space gpa data)

theorem fenceMsg_frame (s : State) (chip inst tag instar code : Nat) : Agree 0x40400000000000000000000000000000000000000000048000000000000 s (fenceMsg s chip inst tag instar code) := by
  unfold fenceMsg
  repeat' first
    | with_reducible assumption
    | with_reducible exact Agree.refl _ _
    | exact bitsIn_rfl rfl
    | exact regIn_rfl rfl rfl
    | with_reducible refine sendOrDrop_step ?_ ?_
    | with_reducible refine Agree.ite ?_ ?_
    | dsimp only
    | split
    | (with_reducible refine Agree.of_pair (by assumption) ?_)
    | (with_reducible refine Agree.of_pair2 (by assumption) ?_)
    | intro _
theorem fenceMsg_step {M s0} {s : State} {chip inst tag instar code : Nat} (hs : bitsIn 0x40400000000000000000000000000000000000000000048000000000000 M = true) (hA : Agree M s0 s) : Agree M s0 (fenceMsg s chip inst tag instar code) :=
  hA.step hs (fenceMsg_frame s chip inst tag instar code)

theorem releaseFence_frame (s : State) (w : FenceWaiter) (code : Nat) : Agree 0x40400000000000000000000000000300000000000400048000000000000 s (releaseFence s w code) := by
  unfold releaseFence
  repeat' first
    | with_reducible assumption
    | with_reducible exact Agree.refl _ _
    | exact bitsIn_rfl rfl
    | exact regIn_rfl rfl rfl
    | with_reducible refine countStale_step ?_ ?_
    | with_reducible refine endCmd_step ?_ ?_
    | with_reducible refine fenceMsg_step ?_ ?_
    | with_reducible refine Agree.ite ?_ ?_
    | dsimp only
    | split
    | (with_reducible refine Agree.of_pair (by assumption) ?_)
    | (with_reducible refine Agree.of_pair2 (by assumption) ?_)
    | intro _
theorem releaseFence_step {M s0} {s : State} {w : FenceWaiter} {code : Nat} (hs : bitsIn 0x40400000000000000000000000000300000000000400048000000000000 M = true) (hA : Agree M s0 s) : Agree M s0 (releaseFence s w code) :=
  hA.step hs (releaseFence_frame s w code)

theorem releaseFences_frame (s : State) (gpa : Nat) : Agree 0x40400000000000000000000000000300000000001400048000000000000 s (releaseFences s gpa) := by
  unfold releaseFences
  repeat' first
    | with_reducible assumption
    | with_reducible exact Agree.refl _ _
    | exact bitsIn_rfl rfl
    | exact regIn_rfl rfl rfl
    | with_reducible refine releaseFence_step ?_ ?_
    | ((conv => arg 3; arg 88; skip); with_reducible first | refine upd_fenceWaiters ?_ ?_)
    | with_reducible refine Agree.ite ?_ ?_
    | (with_reducible refine Agree.foldl ?_ ?_; intro _ _ _)
    | (with_reducible refine Agree.foldl2 ?_ ?_; intro _ _ _)
    | (with_reducible refine Agree.foldl3 ?_ ?_; intro _ _ _)
    | (with_reducible refine Agree.foldl4 ?_ ?_; intro _ _ _)
    | dsimp only
    | split
    | (with_reducible refine Agree.of_pair (by assumption) ?_)
    | (with_reducible refine Agree.of_pair2 (by assumption) ?_)
    | intro _
theorem releaseFences_step {M s0} {s : State} {gpa : Nat} (hs : bitsIn 0x40400000000000000000000000000300000000001400048000000000000 M = true) (hA : Agree M s0 s) : Agree M s0 (releaseFences s gpa) :=
  hA.step hs (releaseFences_frame s gpa)

theorem fenceUpdate_frame (s : State) (win space va gpa : Nat) (act : FenceAct) : Agree 0x100000000000000000000000404302800000040800000000000003000000000014000480040004f8000 s (fenceUpdate s win space va gpa act) := by
  unfold fenceUpdate
  repeat' first
    | with_reducible assumption
    | with_reducible exact Agree.refl _ _
    | exact bitsIn_rfl rfl
    | exact regIn_rfl rfl rfl
    | with_reducible refine fenceWrite_step ?_ ?_
    | with_reducible refine postEvent_step ?_ ?_
    | with_reducible refine releaseFences_step ?_ ?_
    | with_reducible refine Agree.ite ?_ ?_
    | dsimp only
    | split
    | (with_reducible refine Agree.of_pair (by assumption) ?_)
    | (with_reducible refine Agree.of_pair2 (by assumption) ?_)
    | intro _
theorem fenceUpdate_step {M s0} {s : State} {win space va gpa : Nat} {act : FenceAct} (hs : bitsIn 0x100000000000000000000000404302800000040800000000000003000000000014000480040004f8000 M = true) (hA : Agree M s0 s) : Agree M s0 (fenceUpdate s win space va gpa act) :=
  hA.step hs (fenceUpdate_frame s win space va gpa act)

theorem fenceOp_frame (s : State) (slot : SlotInfo) (win va : Nat) (act : FenceAct) (q c : Nat) (awaits : Bool) : AgreeFenceRes 0x100000400000000000000000404302800000040800001800000023000000000034000580040c04fc180 s (fenceOp s slot win va act q c awaits) := by
  unfold fenceOp
  repeat' first
    | with_reducible assumption
    | with_reducible exact Agree.refl _ _
    | exact bitsIn_rfl rfl
    | exact regIn_rfl rfl rfl
    | with_reducible refine AgreeFenceRes.ite ?_ ?_
    | with_reducible refine AgreeFenceRes.done ?_
    | with_reducible refine AgreeFenceRes.sent ?_
    | with_reducible refine AgreeFenceRes.wait ?_
    | with_reducible refine AgreeFenceRes.failed ?_
    | with_reducible refine fenceAt_step ?_ ?_
    | with_reducible refine fenceSend_step ?_ ?_
    | with_reducible refine fenceUpdate_step ?_ ?_
    | with_reducible refine fresh_step ?_ ?_
    | ((conv => arg 3; arg 88; skip); with_reducible first | refine upd_fenceOuts ?_ ?_)
    | with_reducible refine Agree.ite ?_ ?_
    | dsimp only
    | split
    | (with_reducible refine Agree.of_pair (by assumption) ?_)
    | (with_reducible refine Agree.of_pair2 (by assumption) ?_)
    | (with_reducible refine AgreeS.of ?_ (by assumption))
    | intro _
theorem fenceOp_step {M s0} {s : State} {slot : SlotInfo} {win va : Nat} {act : FenceAct} {q c : Nat} {awaits : Bool} (hs : bitsIn 0x100000400000000000000000404302800000040800001800000023000000000034000580040c04fc180 M = true) (hA : Agree M s0 s) : AgreeFenceRes M s0 (fenceOp s slot win va act q c awaits) :=
  hA.stepFenceRes hs (fenceOp_frame s slot win va act q c awaits)

theorem fenceTry_frame (s : State) (slot : SlotInfo) (win va : Nat) (act : FenceAct) (q c : Nat) : Agree 0x100000400000000000000000404302800000040800001800000023000000000034000580040c04fc180 s (fenceTry s slot win va act q c).2 := by
  unfold fenceTry
  repeat' first
    | with_reducible assumption
    | with_reducible exact Agree.refl _ _
    | exact bitsIn_rfl rfl
    | exact regIn_rfl rfl rfl
    | with_reducible refine fenceOp_step ?_ ?_
    | (with_reducible refine AgreeFenceRes.of_done ?_ (by assumption))
    | (with_reducible refine AgreeFenceRes.of_sent ?_ (by assumption))
    | (with_reducible refine AgreeFenceRes.of_wait ?_ (by assumption))
    | (with_reducible refine AgreeFenceRes.of_failed ?_ (by assumption))
    | with_reducible refine Agree.ite ?_ ?_
    | dsimp only
    | split
    | (with_reducible refine Agree.of_pair (by assumption) ?_)
    | (with_reducible refine Agree.of_pair2 (by assumption) ?_)
    | intro _
theorem fenceTry_step {M s0} {s : State} {slot : SlotInfo} {win va : Nat} {act : FenceAct} {q c : Nat} (hs : bitsIn 0x100000400000000000000000404302800000040800001800000023000000000034000580040c04fc180 M = true) (hA : Agree M s0 s) : Agree M s0 (fenceTry s slot win va act q c).2 :=
  hA.step hs (fenceTry_frame s slot win va act q c)

end Sys2Proof.Machine
end

