-- ==== Sys2Proof/Laws/FrameScratch.lean ====
section
/-!
SUPPORT. The frame of every function of Machine/Scratch.lean that answers a state: the fields it can change, by mask.
-/

set_option linter.unusedTactic false
set_option linter.unreachableTactic false
set_option linter.unusedVariables false

namespace Sys2Proof.Machine

theorem setMark_frame (s : State) (c w : Nat) (m : WordMark) : Agree 0x200 s (setMark s c w m) := by
  unfold setMark
  repeat' first
    | with_reducible assumption
    | with_reducible exact Agree.refl _ _
    | exact bitsIn_rfl rfl
    | ((with_reducible refine ModOf.intro ?_); first | exact fun _ w => w | exact fun _ w => canonical_memPut _ _ w | exact fun _ w => canonical_filter _ w | exact fun _ w => canonical_foldl_mset _ _ w | exact fun _ _ => rfl)
    | with_reducible refine modCore_step ?_ ?_ ?_
    | with_reducible refine Agree.ite ?_ ?_
    | dsimp only
    | split
    | (with_reducible refine Agree.of_pair (by assumption) ?_)
    | (with_reducible refine Agree.of_pair2 (by assumption) ?_)
    | intro _
theorem setMark_step {M s0} {s : State} {c w : Nat} {m : WordMark} (hs : bitsIn 0x200 M = true) (hA : Agree M s0 s) : Agree M s0 (setMark s c w m) :=
  hA.step hs (setMark_frame s c w m)

theorem applyUpsets_frame (s : State) (c : Nat) (ups : List Upset) : Agree 0x200 s (applyUpsets s c ups) := by
  unfold applyUpsets
  repeat' first
    | with_reducible assumption
    | with_reducible exact Agree.refl _ _
    | exact bitsIn_rfl rfl
    | with_reducible refine setMark_step ?_ ?_
    | with_reducible refine Agree.ite ?_ ?_
    | (with_reducible refine Agree.foldl ?_ ?_; intro _ _ _)
    | (with_reducible refine Agree.foldl2 ?_ ?_; intro _ _ _)
    | (with_reducible refine Agree.foldl3 ?_ ?_; intro _ _ _)
    | (with_reducible refine Agree.foldl4 ?_ ?_; intro _ _ _)
    | dsimp only
    | split
    | (with_reducible refine Agree.of_pair (by assumption) ?_)
    | (with_reducible refine Agree.of_pair2 (by assumption) ?_)
    | intro _
theorem applyUpsets_step {M s0} {s : State} {c : Nat} {ups : List Upset} (hs : bitsIn 0x200 M = true) (hA : Agree M s0 s) : Agree M s0 (applyUpsets s c ups) :=
  hA.step hs (applyUpsets_frame s c ups)

theorem logScrUe_frame (s : State) (c w src : Nat) : Agree 0x1800000000000000000000000000000000000000000000000 s (logScrUe s c w src) := by
  unfold logScrUe
  repeat' first
    | with_reducible assumption
    | with_reducible exact Agree.refl _ _
    | exact bitsIn_rfl rfl
    | exact regIn_rfl rfl rfl
    | with_reducible refine countR_step ?_ ?_ ?_
    | with_reducible refine setR_step ?_ ?_ ?_
    | with_reducible refine Agree.ite ?_ ?_
    | dsimp only
    | split
    | (with_reducible refine Agree.of_pair (by assumption) ?_)
    | (with_reducible refine Agree.of_pair2 (by assumption) ?_)
    | intro _
theorem logScrUe_step {M s0} {s : State} {c w src : Nat} (hs : bitsIn 0x1800000000000000000000000000000000000000000000000 M = true) (hA : Agree M s0 s) : Agree M s0 (logScrUe s c w src) :=
  hA.step hs (logScrUe_frame s c w src)

theorem scanWords_frame (s : State) (c src : Nat) (words : List Nat) : Agree 0x1c00000000000000000000000000000000000000000000200 s (scanWords s c src words).2 := by
  unfold scanWords
  repeat' first
    | with_reducible assumption
    | with_reducible exact Agree.refl _ _
    | exact bitsIn_rfl rfl
    | exact regIn_rfl rfl rfl
    | ((with_reducible refine ModOf.intro ?_); first | exact fun _ w => w | exact fun _ w => canonical_memPut _ _ w | exact fun _ w => canonical_filter _ w | exact fun _ w => canonical_foldl_mset _ _ w | exact fun _ _ => rfl)
    | with_reducible refine countR_step ?_ ?_ ?_
    | with_reducible refine logScrUe_step ?_ ?_
    | with_reducible refine modCore_step ?_ ?_ ?_
    | with_reducible refine Agree.ite ?_ ?_
    | (with_reducible refine Agree.foldl ?_ ?_; intro _ _ _)
    | (with_reducible refine Agree.foldl2 ?_ ?_; intro _ _ _)
    | (with_reducible refine Agree.foldl3 ?_ ?_; intro _ _ _)
    | (with_reducible refine Agree.foldl4 ?_ ?_; intro _ _ _)
    | dsimp only
    | split
    | (with_reducible refine Agree.of_pair (by assumption) ?_)
    | (with_reducible refine Agree.of_pair2 (by assumption) ?_)
    | intro _
theorem scanWords_step {M s0} {s : State} {c src : Nat} {words : List Nat} (hs : bitsIn 0x1c00000000000000000000000000000000000000000000200 M = true) (hA : Agree M s0 s) : Agree M s0 (scanWords s c src words).2 :=
  hA.step hs (scanWords_frame s c src words)

theorem zeroScr_frame (s : State) (c lo len : Nat) : Agree 0x200 s (zeroScr s c lo len) := by
  unfold zeroScr
  repeat' first
    | with_reducible assumption
    | with_reducible exact Agree.refl _ _
    | exact bitsIn_rfl rfl
    | ((with_reducible refine ModOf.intro ?_); first | exact fun _ w => w | exact fun _ w => canonical_memPut _ _ w | exact fun _ w => canonical_filter _ w | exact fun _ w => canonical_foldl_mset _ _ w | exact fun _ _ => rfl)
    | with_reducible refine modCore_step ?_ ?_ ?_
    | with_reducible refine Agree.ite ?_ ?_
    | dsimp only
    | split
    | (with_reducible refine Agree.of_pair (by assumption) ?_)
    | (with_reducible refine Agree.of_pair2 (by assumption) ?_)
    | intro _
theorem zeroScr_step {M s0} {s : State} {c lo len : Nat} (hs : bitsIn 0x200 M = true) (hA : Agree M s0 s) : Agree M s0 (zeroScr s c lo len) :=
  hA.step hs (zeroScr_frame s c lo len)

theorem squashDone_frame (s : State) (id : Nat) : Agree 0x2000000200 s (squashDone s id) := by
  unfold squashDone
  repeat' first
    | with_reducible assumption
    | with_reducible exact Agree.refl _ _
    | exact bitsIn_rfl rfl
    | with_reducible refine zeroScr_step ?_ ?_
    | ((conv => arg 3; arg 88; skip); with_reducible first | refine upd_landing ?_ ?_)
    | with_reducible refine Agree.ite ?_ ?_
    | dsimp only
    | split
    | (with_reducible refine Agree.of_pair (by assumption) ?_)
    | (with_reducible refine Agree.of_pair2 (by assumption) ?_)
    | intro _
theorem squashDone_step {M s0} {s : State} {id : Nat} (hs : bitsIn 0x2000000200 M = true) (hA : Agree M s0 s) : Agree M s0 (squashDone s id) :=
  hA.step hs (squashDone_frame s id)

theorem writeMark_frame (s : State) (c w src : Nat) (whole bad : Bool) : Agree 0x1c00000000000000000000000000000000000000000000200 s (writeMark s c w src whole bad) := by
  unfold writeMark
  repeat' first
    | with_reducible assumption
    | with_reducible exact Agree.refl _ _
    | exact bitsIn_rfl rfl
    | exact regIn_rfl rfl rfl
    | with_reducible refine countR_step ?_ ?_ ?_
    | with_reducible refine logScrUe_step ?_ ?_
    | with_reducible refine setMark_step ?_ ?_
    | with_reducible refine Agree.ite ?_ ?_
    | dsimp only
    | split
    | (with_reducible refine Agree.of_pair (by assumption) ?_)
    | (with_reducible refine Agree.of_pair2 (by assumption) ?_)
    | intro _
theorem writeMark_step {M s0} {s : State} {c w src : Nat} {whole bad : Bool} (hs : bitsIn 0x1c00000000000000000000000000000000000000000000200 M = true) (hA : Agree M s0 s) : Agree M s0 (writeMark s c w src whole bad) :=
  hA.step hs (writeMark_frame s c w src whole bad)

theorem scrWriteAll_frame (s : State) (c : Nat) (ws : List (Nat × List Byte)) (bad : List Nat) (src : Nat) : Agree 0x1c00000000000000000000000000000000000002000000200 s (scrWriteAll s c ws bad src) := by
  unfold scrWriteAll
  repeat' first
    | with_reducible assumption
    | with_reducible exact Agree.refl _ _
    | exact bitsIn_rfl rfl
    | exact regIn_rfl rfl rfl
    | ((with_reducible refine ModOf.intro ?_); first | exact fun _ w => w | exact fun _ w => canonical_memPut _ _ w | exact fun _ w => canonical_filter _ w | exact fun _ w => canonical_foldl_mset _ _ w | exact fun _ _ => rfl)
    | with_reducible refine modCore_step ?_ ?_ ?_
    | with_reducible refine squashDone_step ?_ ?_
    | with_reducible refine writeMark_step ?_ ?_
    | with_reducible refine Agree.ite ?_ ?_
    | (with_reducible refine Agree.foldl ?_ ?_; intro _ _ _)
    | (with_reducible refine Agree.foldl2 ?_ ?_; intro _ _ _)
    | (with_reducible refine Agree.foldl3 ?_ ?_; intro _ _ _)
    | (with_reducible refine Agree.foldl4 ?_ ?_; intro _ _ _)
    | dsimp only
    | split
    | (with_reducible refine Agree.of_pair (by assumption) ?_)
    | (with_reducible refine Agree.of_pair2 (by assumption) ?_)
    | intro _
theorem scrWriteAll_step {M s0} {s : State} {c : Nat} {ws : List (Nat × List Byte)} {bad : List Nat} {src : Nat} (hs : bitsIn 0x1c00000000000000000000000000000000000002000000200 M = true) (hA : Agree M s0 s) : Agree M s0 (scrWriteAll s c ws bad src) :=
  hA.step hs (scrWriteAll_frame s c ws bad src)

theorem scrWrite_frame (s : State) (c a : Nat) (data : List Byte) (bad : List Nat) (src : Nat) : Agree 0x1c00000000000000000000000000000000000002000000200 s (scrWrite s c a data bad src) := by
  unfold scrWrite
  repeat' first
    | with_reducible assumption
    | with_reducible exact Agree.refl _ _
    | exact bitsIn_rfl rfl
    | exact regIn_rfl rfl rfl
    | ((with_reducible refine ModOf.intro ?_); first | exact fun _ w => w | exact fun _ w => canonical_memPut _ _ w | exact fun _ w => canonical_filter _ w | exact fun _ w => canonical_foldl_mset _ _ w | exact fun _ _ => rfl)
    | with_reducible refine modCore_step ?_ ?_ ?_
    | with_reducible refine squashDone_step ?_ ?_
    | with_reducible refine writeMark_step ?_ ?_
    | with_reducible refine Agree.ite ?_ ?_
    | (with_reducible refine Agree.foldl ?_ ?_; intro _ _ _)
    | (with_reducible refine Agree.foldl2 ?_ ?_; intro _ _ _)
    | (with_reducible refine Agree.foldl3 ?_ ?_; intro _ _ _)
    | (with_reducible refine Agree.foldl4 ?_ ?_; intro _ _ _)
    | dsimp only
    | split
    | (with_reducible refine Agree.of_pair (by assumption) ?_)
    | (with_reducible refine Agree.of_pair2 (by assumption) ?_)
    | intro _
theorem scrWrite_step {M s0} {s : State} {c a : Nat} {data : List Byte} {bad : List Nat} {src : Nat} (hs : bitsIn 0x1c00000000000000000000000000000000000002000000200 M = true) (hA : Agree M s0 s) : Agree M s0 (scrWrite s c a data bad src) :=
  hA.step hs (scrWrite_frame s c a data bad src)

theorem doomSlot_frame (s : State) (id : Nat) : Agree 0x2000000000 s (doomSlot s id) := by
  unfold doomSlot
  repeat' first
    | with_reducible assumption
    | with_reducible exact Agree.refl _ _
    | exact bitsIn_rfl rfl
    | ((conv => arg 3; arg 88; skip); with_reducible first | refine upd_landing ?_ ?_)
    | with_reducible refine Agree.ite ?_ ?_
    | dsimp only
    | split
    | (with_reducible refine Agree.of_pair (by assumption) ?_)
    | (with_reducible refine Agree.of_pair2 (by assumption) ?_)
    | intro _
theorem doomSlot_step {M s0} {s : State} {id : Nat} (hs : bitsIn 0x2000000000 M = true) (hA : Agree M s0 s) : Agree M s0 (doomSlot s id) :=
  hA.step hs (doomSlot_frame s id)

theorem doomIf_frame (s : State) (p : LandSlot → Bool) : Agree 0x2000000000 s (doomIf s p) := by
  unfold doomIf
  repeat' first
    | with_reducible assumption
    | with_reducible exact Agree.refl _ _
    | exact bitsIn_rfl rfl
    | with_reducible refine doomSlot_step ?_ ?_
    | with_reducible refine Agree.ite ?_ ?_
    | (with_reducible refine Agree.foldl ?_ ?_; intro _ _ _)
    | (with_reducible refine Agree.foldl2 ?_ ?_; intro _ _ _)
    | (with_reducible refine Agree.foldl3 ?_ ?_; intro _ _ _)
    | (with_reducible refine Agree.foldl4 ?_ ?_; intro _ _ _)
    | dsimp only
    | split
    | (with_reducible refine Agree.of_pair (by assumption) ?_)
    | (with_reducible refine Agree.of_pair2 (by assumption) ?_)
    | intro _
theorem doomIf_step {M s0} {s : State} {p : LandSlot → Bool} (hs : bitsIn 0x2000000000 M = true) (hA : Agree M s0 s) : Agree M s0 (doomIf s p) :=
  hA.step hs (doomIf_frame s p)

theorem execScratchEccWriteback_frame (c : Nat) (s : State) : AgreeO 0x1800000000000000000000000000000000000000000000200 s (execScratchEccWriteback c s) := by
  unfold execScratchEccWriteback
  repeat' first
    | with_reducible assumption
    | with_reducible exact Agree.refl _ _
    | exact bitsIn_rfl rfl
    | exact regIn_rfl rfl rfl
    | with_reducible refine AgreeO.next ?_
    | with_reducible refine AgreeO.ite ?_ ?_
    | with_reducible exact AgreeO.refused
    | with_reducible exact AgreeO.fault
    | ((with_reducible refine ModOf.intro ?_); first | exact fun _ w => w | exact fun _ w => canonical_memPut _ _ w | exact fun _ w => canonical_filter _ w | exact fun _ w => canonical_foldl_mset _ _ w | exact fun _ _ => rfl)
    | with_reducible refine logScrUe_step ?_ ?_
    | with_reducible refine modCore_step ?_ ?_ ?_
    | with_reducible refine setMark_step ?_ ?_
    | with_reducible refine Agree.ite ?_ ?_
    | dsimp only
    | split
    | (with_reducible refine Agree.of_pair (by assumption) ?_)
    | (with_reducible refine Agree.of_pair2 (by assumption) ?_)
    | intro _
theorem execScratchEccWriteback_step {M s0} {c : Nat} {s : State} (hs : bitsIn 0x1800000000000000000000000000000000000000000000200 M = true) (hA : Agree M s0 s) : AgreeO M s0 (execScratchEccWriteback c s) :=
  hA.stepO hs (execScratchEccWriteback_frame c s)

end Sys2Proof.Machine
end

