-- ==== Sys2Proof/Laws/FrameXInstr.lean ====
section
/-!
SUPPORT. The frame of every function of Machine/XInstr.lean that answers a state: the fields it can change, by mask.
-/

set_option linter.unusedTactic false
set_option linter.unreachableTactic false
set_option linter.unusedVariables false

namespace Sys2Proof.Machine

theorem scratchAccess_step {M : Nat} {s0 : State} {s : State} {t : Th} {legal : Bool} {n size : Nat} {act : Group → List (Nat × Nat) → State} (hs : bitsIn 0x30000000000000000180000000000000a00 M = true) (hk_act : ∀ (a0 : Group) (a1 : List (Nat × Nat)), Agree M s0 (act a0 a1)) (hA : Agree M s0 s) : Agree M s0 (scratchAccess s t legal n size act) := by
  unfold scratchAccess
  repeat' first
    | with_reducible assumption
    | fail
    | exact bitsIn_trans rfl hs
    | exact regIn_sub rfl rfl hs
    | with_reducible refine issue_step ?_ ?_ ?_
    | with_reducible refine retire_step ?_ ?_
    | with_reducible refine threadFault_step ?_ ?_
    | with_reducible refine Agree.ite ?_ ?_
    | dsimp only
    | split
    | (with_reducible refine Agree.of_pair (by assumption) ?_)
    | (with_reducible refine Agree.of_pair2 (by assumption) ?_)
    | intro _
    | with_reducible refine hk_act _ _

theorem scratchFault_frame (s : State) (t : Th) (g : Group) (ue : List (Nat × Nat)) (bad : List (Nat × Nat)) : Agree 0x30000000000000000180000000000000a00 s (scratchFault s t g ue bad) := by
  unfold scratchFault
  repeat' first
    | with_reducible assumption
    | with_reducible exact Agree.refl _ _
    | exact bitsIn_rfl rfl
    | exact regIn_rfl rfl rfl
    | with_reducible refine coreFault_step ?_ ?_
    | with_reducible refine Agree.ite ?_ ?_
    | (with_reducible refine Agree.foldl ?_ ?_; intro _ _ _)
    | (with_reducible refine Agree.foldl2 ?_ ?_; intro _ _ _)
    | (with_reducible refine Agree.foldl3 ?_ ?_; intro _ _ _)
    | (with_reducible refine Agree.foldl4 ?_ ?_; intro _ _ _)
    | dsimp only
    | split
    | (with_reducible refine Agree.of_pair (by assumption) ?_)
    | (with_reducible refine Agree.of_pair2 (by assumption) ?_)
    | intro _
theorem scratchFault_step {M s0} {s : State} {t : Th} {g : Group} {ue : List (Nat × Nat)} {bad : List (Nat × Nat)} (hs : bitsIn 0x30000000000000000180000000000000a00 M = true) (hA : Agree M s0 s) : Agree M s0 (scratchFault s t g ue bad) :=
  hA.step hs (scratchFault_frame s t g ue bad)

theorem execXlds_frame (t : Th) (ups : List Upset) (s : State) : AgreeO 0x1c00000000000030000000000000000180000000000000a00 s (execXlds t ups s) := by
  unfold execXlds
  repeat' first
    | with_reducible assumption
    | with_reducible exact Agree.refl _ _
    | exact bitsIn_rfl rfl
    | exact regIn_rfl rfl rfl
    | with_reducible refine AgreeO.next ?_
    | with_reducible refine AgreeO.ite ?_ ?_
    | with_reducible exact AgreeO.refused
    | with_reducible exact AgreeO.fault
    | with_reducible refine applyUpsets_step ?_ ?_
    | with_reducible refine retire_step ?_ ?_
    | with_reducible refine scanWords_step ?_ ?_
    | with_reducible refine scratchAccess_step ?_ ?_ ?_
    | with_reducible refine scratchFault_step ?_ ?_
    | with_reducible refine setGroup_step ?_ ?_
    | with_reducible refine Agree.ite ?_ ?_
    | (with_reducible refine Agree.foldl ?_ ?_; intro _ _ _)
    | (with_reducible refine Agree.foldl2 ?_ ?_; intro _ _ _)
    | (with_reducible refine Agree.foldl3 ?_ ?_; intro _ _ _)
    | (with_reducible refine Agree.foldl4 ?_ ?_; intro _ _ _)
    | dsimp only
    | split
    | (with_reducible refine Agree.of_pair (by assumption) ?_)
    | (with_reducible refine Agree.of_pair2 (by assumption) ?_)
    | intro _
theorem execXlds_step {M s0} {t : Th} {ups : List Upset} {s : State} (hs : bitsIn 0x1c00000000000030000000000000000180000000000000a00 M = true) (hA : Agree M s0 s) : AgreeO M s0 (execXlds t ups s) :=
  hA.stepO hs (execXlds_frame t ups s)

theorem freeWithin_frame (s : State) (spans : List (Nat × Nat)) (ws : List (Nat × List Byte)) : Agree 0x80 s (freeWithin s spans ws).2 := by
  unfold freeWithin
  repeat' first
    | with_reducible assumption
    | with_reducible exact Agree.refl _ _
    | exact bitsIn_rfl rfl
    | with_reducible refine freeBytes_step ?_ ?_
    | with_reducible refine Agree.ite ?_ ?_
    | (with_reducible refine Agree.foldl ?_ ?_; intro _ _ _)
    | (with_reducible refine Agree.foldl2 ?_ ?_; intro _ _ _)
    | (with_reducible refine Agree.foldl3 ?_ ?_; intro _ _ _)
    | (with_reducible refine Agree.foldl4 ?_ ?_; intro _ _ _)
    | dsimp only
    | split
    | (with_reducible refine Agree.of_pair (by assumption) ?_)
    | (with_reducible refine Agree.of_pair2 (by assumption) ?_)
    | intro _
theorem freeWithin_step {M s0} {s : State} {spans : List (Nat × Nat)} {ws : List (Nat × List Byte)} (hs : bitsIn 0x80 M = true) (hA : Agree M s0 s) : Agree M s0 (freeWithin s spans ws).2 :=
  hA.step hs (freeWithin_frame s spans ws)

theorem execXsts_frame (t : Th) (ups : List Upset) (s : State) : AgreeO 0x1c00000000000030000000000000000180000002000000a80 s (execXsts t ups s) := by
  unfold execXsts
  repeat' first
    | with_reducible assumption
    | with_reducible exact Agree.refl _ _
    | exact bitsIn_rfl rfl
    | exact regIn_rfl rfl rfl
    | with_reducible refine AgreeO.next ?_
    | with_reducible refine AgreeO.ite ?_ ?_
    | with_reducible exact AgreeO.refused
    | with_reducible exact AgreeO.fault
    | with_reducible refine applyUpsets_step ?_ ?_
    | with_reducible refine freeWithin_step ?_ ?_
    | with_reducible refine retire_step ?_ ?_
    | with_reducible refine scrWriteAll_step ?_ ?_
    | with_reducible refine scratchAccess_step ?_ ?_ ?_
    | with_reducible refine Agree.ite ?_ ?_
    | (with_reducible refine Agree.foldl ?_ ?_; intro _ _ _)
    | (with_reducible refine Agree.foldl2 ?_ ?_; intro _ _ _)
    | (with_reducible refine Agree.foldl3 ?_ ?_; intro _ _ _)
    | (with_reducible refine Agree.foldl4 ?_ ?_; intro _ _ _)
    | dsimp only
    | split
    | (with_reducible refine Agree.of_pair (by assumption) ?_)
    | (with_reducible refine Agree.of_pair2 (by assumption) ?_)
    | intro _
theorem execXsts_step {M s0} {t : Th} {ups : List Upset} {s : State} (hs : bitsIn 0x1c00000000000030000000000000000180000002000000a80 M = true) (hA : Agree M s0 s) : AgreeO M s0 (execXsts t ups s) :=
  hA.stepO hs (execXsts_frame t ups s)

theorem scratchAtomic_frame (s : State) (t : Th) (g : Group) (lane a : Nat) : Agree 0x1c00000000000000000000000000000000000002000000200 s (scratchAtomic s t g lane a).2.2 := by
  unfold scratchAtomic
  repeat' first
    | with_reducible assumption
    | with_reducible exact Agree.refl _ _
    | exact bitsIn_rfl rfl
    | exact regIn_rfl rfl rfl
    | with_reducible refine scanWords_step ?_ ?_
    | with_reducible refine scrWrite_step ?_ ?_
    | with_reducible refine Agree.ite ?_ ?_
    | dsimp only
    | split
    | (with_reducible refine Agree.of_pair (by assumption) ?_)
    | (with_reducible refine Agree.of_pair2 (by assumption) ?_)
    | intro _
theorem scratchAtomic_step {M s0} {s : State} {t : Th} {g : Group} {lane a : Nat} (hs : bitsIn 0x1c00000000000000000000000000000000000002000000200 M = true) (hA : Agree M s0 s) : Agree M s0 (scratchAtomic s t g lane a).2.2 :=
  hA.step hs (scratchAtomic_frame s t g lane a)

theorem execXatoms_frame (t : Th) (ups : List Upset) (s : State) : AgreeO 0x1c00000000000030000000000000000180000002000000a00 s (execXatoms t ups s) := by
  unfold execXatoms
  repeat' first
    | with_reducible assumption
    | with_reducible exact Agree.refl _ _
    | exact bitsIn_rfl rfl
    | exact regIn_rfl rfl rfl
    | with_reducible refine AgreeO.next ?_
    | with_reducible refine AgreeO.ite ?_ ?_
    | with_reducible exact AgreeO.refused
    | with_reducible exact AgreeO.fault
    | with_reducible refine applyUpsets_step ?_ ?_
    | with_reducible refine retire_step ?_ ?_
    | with_reducible refine scratchAccess_step ?_ ?_ ?_
    | with_reducible refine scratchAtomic_step ?_ ?_
    | with_reducible refine scratchFault_step ?_ ?_
    | with_reducible refine setGroup_step ?_ ?_
    | with_reducible refine Agree.ite ?_ ?_
    | (with_reducible refine Agree.foldl ?_ ?_; intro _ _ _)
    | (with_reducible refine Agree.foldl2 ?_ ?_; intro _ _ _)
    | (with_reducible refine Agree.foldl3 ?_ ?_; intro _ _ _)
    | (with_reducible refine Agree.foldl4 ?_ ?_; intro _ _ _)
    | dsimp only
    | split
    | (with_reducible refine Agree.of_pair (by assumption) ?_)
    | (with_reducible refine Agree.of_pair2 (by assumption) ?_)
    | intro _
theorem execXatoms_step {M s0} {t : Th} {ups : List Upset} {s : State} (hs : bitsIn 0x1c00000000000030000000000000000180000002000000a00 M = true) (hA : Agree M s0 s) : AgreeO M s0 (execXatoms t ups s) :=
  hA.stepO hs (execXatoms_frame t ups s)

theorem queueDesc_frame (s : State) (u k : Nat) (d : Desc) : Agree 0x2000 s (queueDesc s u k d) := by
  unfold queueDesc
  repeat' first
    | with_reducible assumption
    | with_reducible exact Agree.refl _ _
    | exact bitsIn_rfl rfl
    | with_reducible refine setChan_step ?_ ?_
    | with_reducible refine Agree.ite ?_ ?_
    | dsimp only
    | split
    | (with_reducible refine Agree.of_pair (by assumption) ?_)
    | (with_reducible refine Agree.of_pair2 (by assumption) ?_)
    | intro _
theorem queueDesc_step {M s0} {s : State} {u k : Nat} {d : Desc} (hs : bitsIn 0x2000 M = true) (hA : Agree M s0 s) : Agree M s0 (queueDesc s u k d) :=
  hA.step hs (queueDesc_frame s u k d)

theorem execXmov_frame (t : Th) (ups : List Upset) (s : State) : AgreeO 0x1c00000000000030000000000000000180000000000002a00 s (execXmov t ups s) := by
  unfold execXmov
  repeat' first
    | with_reducible assumption
    | with_reducible exact Agree.refl _ _
    | exact bitsIn_rfl rfl
    | exact regIn_rfl rfl rfl
    | with_reducible refine AgreeO.next ?_
    | with_reducible refine AgreeO.ite ?_ ?_
    | with_reducible exact AgreeO.refused
    | with_reducible exact AgreeO.fault
    | with_reducible refine applyUpsets_step ?_ ?_
    | with_reducible refine issue_step ?_ ?_ ?_
    | with_reducible refine queueDesc_step ?_ ?_
    | with_reducible refine retire_step ?_ ?_
    | with_reducible refine scanWords_step ?_ ?_
    | with_reducible refine threadFault_step ?_ ?_
    | with_reducible refine Agree.ite ?_ ?_
    | dsimp only
    | split
    | (with_reducible refine Agree.of_pair (by assumption) ?_)
    | (with_reducible refine Agree.of_pair2 (by assumption) ?_)
    | intro _
theorem execXmov_step {M s0} {t : Th} {ups : List Upset} {s : State} (hs : bitsIn 0x1c00000000000030000000000000000180000000000002a00 M = true) (hA : Agree M s0 s) : AgreeO M s0 (execXmov t ups s) :=
  hA.stepO hs (execXmov_frame t ups s)

theorem execXfence_frame (t : Th) (s : State) : AgreeO 0x30000000000000000180000000000001a00 s (execXfence t s) := by
  unfold execXfence
  repeat' first
    | with_reducible assumption
    | with_reducible exact Agree.refl _ _
    | exact bitsIn_rfl rfl
    | exact regIn_rfl rfl rfl
    | with_reducible refine AgreeO.next ?_
    | with_reducible refine AgreeO.ite ?_ ?_
    | with_reducible exact AgreeO.refused
    | with_reducible exact AgreeO.fault
    | with_reducible refine issue_step ?_ ?_ ?_
    | with_reducible refine retire_step ?_ ?_
    | ((conv => arg 3; arg 88; skip); with_reducible first | refine upd_ops ?_ ?_)
    | with_reducible refine Agree.ite ?_ ?_
    | dsimp only
    | split
    | (with_reducible refine Agree.of_pair (by assumption) ?_)
    | (with_reducible refine Agree.of_pair2 (by assumption) ?_)
    | intro _
theorem execXfence_step {M s0} {t : Th} {s : State} (hs : bitsIn 0x30000000000000000180000000000001a00 M = true) (hA : Agree M s0 s) : AgreeO M s0 (execXfence t s) :=
  hA.stepO hs (execXfence_frame t s)

theorem globalAccess_frame (s : State) (t : Th) (kind : ThreadKind) (legal : Bool) (n : Nat) : Agree 0x400000000000000000404002000000040800001920300020000000000007800580005784c5b80 s (globalAccess s t kind legal n) := by
  unfold globalAccess
  repeat' first
    | with_reducible assumption
    | with_reducible exact Agree.refl _ _
    | exact bitsIn_rfl rfl
    | exact regIn_rfl rfl rfl
    | with_reducible refine fresh_step ?_ ?_
    | with_reducible refine issue_step ?_ ?_ ?_
    | with_reducible refine newTile_step ?_ ?_
    | with_reducible refine retire_step ?_ ?_
    | with_reducible refine setGroup_step ?_ ?_
    | with_reducible refine threadFault_step ?_ ?_
    | ((conv => arg 3; arg 88; skip); with_reducible first | refine upd_ops ?_ ?_)
    | with_reducible refine Agree.ite ?_ ?_
    | dsimp only
    | split
    | (with_reducible refine Agree.of_pair (by assumption) ?_)
    | (with_reducible refine Agree.of_pair2 (by assumption) ?_)
    | intro _
theorem globalAccess_step {M s0} {s : State} {t : Th} {kind : ThreadKind} {legal : Bool} {n : Nat} (hs : bitsIn 0x400000000000000000404002000000040800001920300020000000000007800580005784c5b80 M = true) (hA : Agree M s0 s) : Agree M s0 (globalAccess s t kind legal n) :=
  hA.step hs (globalAccess_frame s t kind legal n)

theorem execXldg_frame (t : Th) (s : State) : AgreeO 0x400000000000000000404002000000040800001920300020000000000007800580005784c5b80 s (execXldg t s) := by
  unfold execXldg
  repeat' first
    | with_reducible assumption
    | with_reducible exact Agree.refl _ _
    | exact bitsIn_rfl rfl
    | exact regIn_rfl rfl rfl
    | with_reducible refine AgreeO.next ?_
    | with_reducible refine AgreeO.ite ?_ ?_
    | with_reducible exact AgreeO.refused
    | with_reducible exact AgreeO.fault
    | with_reducible refine globalAccess_step ?_ ?_
    | with_reducible refine Agree.ite ?_ ?_
    | dsimp only
    | split
    | (with_reducible refine Agree.of_pair (by assumption) ?_)
    | (with_reducible refine Agree.of_pair2 (by assumption) ?_)
    | intro _
theorem execXldg_step {M s0} {t : Th} {s : State} (hs : bitsIn 0x400000000000000000404002000000040800001920300020000000000007800580005784c5b80 M = true) (hA : Agree M s0 s) : AgreeO M s0 (execXldg t s) :=
  hA.stepO hs (execXldg_frame t s)

theorem execXstg_frame (t : Th) (s : State) : AgreeO 0x400000000000000000404002000000040800001920300020000000000007800580005784c5b80 s (execXstg t s) := by
  unfold execXstg
  repeat' first
    | with_reducible assumption
    | with_reducible exact Agree.refl _ _
    | exact bitsIn_rfl rfl
    | exact regIn_rfl rfl rfl
    | with_reducible refine AgreeO.next ?_
    | with_reducible refine AgreeO.ite ?_ ?_
    | with_reducible exact AgreeO.refused
    | with_reducible exact AgreeO.fault
    | with_reducible refine globalAccess_step ?_ ?_
    | with_reducible refine Agree.ite ?_ ?_
    | dsimp only
    | split
    | (with_reducible refine Agree.of_pair (by assumption) ?_)
    | (with_reducible refine Agree.of_pair2 (by assumption) ?_)
    | intro _
theorem execXstg_step {M s0} {t : Th} {s : State} (hs : bitsIn 0x400000000000000000404002000000040800001920300020000000000007800580005784c5b80 M = true) (hA : Agree M s0 s) : AgreeO M s0 (execXstg t s) :=
  hA.stepO hs (execXstg_frame t s)

theorem execXatomg_frame (t : Th) (s : State) : AgreeO 0x400000000000000000404002000000040800001920300020000000000007800580005784c5b80 s (execXatomg t s) := by
  unfold execXatomg
  repeat' first
    | with_reducible assumption
    | with_reducible exact Agree.refl _ _
    | exact bitsIn_rfl rfl
    | exact regIn_rfl rfl rfl
    | with_reducible refine AgreeO.next ?_
    | with_reducible refine AgreeO.ite ?_ ?_
    | with_reducible exact AgreeO.refused
    | with_reducible exact AgreeO.fault
    | with_reducible refine globalAccess_step ?_ ?_
    | with_reducible refine Agree.ite ?_ ?_
    | dsimp only
    | split
    | (with_reducible refine Agree.of_pair (by assumption) ?_)
    | (with_reducible refine Agree.of_pair2 (by assumption) ?_)
    | intro _
theorem execXatomg_step {M s0} {t : Th} {s : State} (hs : bitsIn 0x400000000000000000404002000000040800001920300020000000000007800580005784c5b80 M = true) (hA : Agree M s0 s) : AgreeO M s0 (execXatomg t s) :=
  hA.stepO hs (execXatomg_frame t s)

theorem refuseTile_frame (s : State) (tid : Nat) (t : Tile) (ps : List (Nat × Place)) : Agree 0x40000000000000000000000000000000000000012000002000000000000000000000518000000 s (refuseTile s tid t ps) := by
  unfold refuseTile
  repeat' first
    | with_reducible assumption
    | with_reducible exact Agree.refl _ _
    | exact bitsIn_rfl rfl
    | exact regIn_rfl rfl rfl
    | with_reducible refine countRefusal_step ?_ ?_
    | with_reducible refine stallTile_step ?_ ?_
    | with_reducible refine Agree.ite ?_ ?_
    | (with_reducible refine Agree.foldl ?_ ?_; intro _ _ _)
    | (with_reducible refine Agree.foldl2 ?_ ?_; intro _ _ _)
    | (with_reducible refine Agree.foldl3 ?_ ?_; intro _ _ _)
    | (with_reducible refine Agree.foldl4 ?_ ?_; intro _ _ _)
    | dsimp only
    | split
    | (with_reducible refine Agree.of_pair (by assumption) ?_)
    | (with_reducible refine Agree.of_pair2 (by assumption) ?_)
    | intro _
theorem refuseTile_step {M s0} {s : State} {tid : Nat} {t : Tile} {ps : List (Nat × Place)} (hs : bitsIn 0x40000000000000000000000000000000000000012000002000000000000000000000518000000 M = true) (hA : Agree M s0 s) : Agree M s0 (refuseTile s tid t ps) :=
  hA.step hs (refuseTile_frame s tid t ps)

theorem failLanes_frame (s : State) (tid op code : Nat) (p : LaneAcc → Bool) : Agree 0x2030000000000000000780000000038001a00 s (failLanes s tid op code p) := by
  unfold failLanes
  repeat' first
    | with_reducible assumption
    | with_reducible exact Agree.refl _ _
    | exact bitsIn_rfl rfl
    | exact regIn_rfl rfl rfl
    | with_reducible refine dropTile_step ?_ ?_
    | with_reducible refine setGroup_step ?_ ?_
    | with_reducible refine threadFault_step ?_ ?_
    | ((conv => arg 3; arg 88; skip); with_reducible first | refine upd_ops ?_ ?_)
    | with_reducible refine Agree.ite ?_ ?_
    | dsimp only
    | split
    | (with_reducible refine Agree.of_pair (by assumption) ?_)
    | (with_reducible refine Agree.of_pair2 (by assumption) ?_)
    | intro _
theorem failLanes_step {M s0} {s : State} {tid op code : Nat} {p : LaneAcc → Bool} (hs : bitsIn 0x2030000000000000000780000000038001a00 M = true) (hA : Agree M s0 s) : Agree M s0 (failLanes s tid op code p) :=
  hA.step hs (failLanes_frame s tid op code p)

theorem failOp_frame (s : State) (tid op code : Nat) : Agree 0x2030000000000000000780000000038001a00 s (failOp s tid op code) := by
  unfold failOp
  repeat' first
    | with_reducible assumption
    | with_reducible exact Agree.refl _ _
    | exact bitsIn_rfl rfl
    | exact regIn_rfl rfl rfl
    | with_reducible refine failLanes_step ?_ ?_
    | with_reducible refine Agree.ite ?_ ?_
    | dsimp only
    | split
    | (with_reducible refine Agree.of_pair (by assumption) ?_)
    | (with_reducible refine Agree.of_pair2 (by assumption) ?_)
    | intro _
theorem failOp_step {M s0} {s : State} {tid op code : Nat} (hs : bitsIn 0x2030000000000000000780000000038001a00 M = true) (hA : Agree M s0 s) : Agree M s0 (failOp s tid op code) :=
  hA.step hs (failOp_frame s tid op code)

theorem issueOp_frame (s : State) (tid op : Nat) (t : Tile) (o : ThreadOp) (ps : List (Nat × Place)) : Agree 0x404002000000040800000020000000000000000006000580000384c5b80 s (issueOp s tid op t o ps) := by
  unfold issueOp
  repeat' first
    | with_reducible assumption
    | with_reducible exact Agree.refl _ _
    | exact bitsIn_rfl rfl
    | exact regIn_rfl rfl rfl
    | with_reducible refine dropTile_step ?_ ?_
    | with_reducible refine retire_step ?_ ?_
    | with_reducible refine sendReq_step ?_ ?_
    | with_reducible refine settleOp_step ?_ ?_
    | ((conv => arg 3; arg 88; skip); with_reducible first | refine upd_ops ?_ ?_)
    | with_reducible refine Agree.ite ?_ ?_
    | (with_reducible refine Agree.foldl ?_ ?_; intro _ _ _)
    | (with_reducible refine Agree.foldl2 ?_ ?_; intro _ _ _)
    | (with_reducible refine Agree.foldl3 ?_ ?_; intro _ _ _)
    | (with_reducible refine Agree.foldl4 ?_ ?_; intro _ _ _)
    | dsimp only
    | split
    | (with_reducible refine Agree.of_pair (by assumption) ?_)
    | (with_reducible refine Agree.of_pair2 (by assumption) ?_)
    | intro _
theorem issueOp_step {M s0} {s : State} {tid op : Nat} {t : Tile} {o : ThreadOp} {ps : List (Nat × Place)} (hs : bitsIn 0x404002000000040800000020000000000000000006000580000384c5b80 M = true) (hA : Agree M s0 s) : Agree M s0 (issueOp s tid op t o ps) :=
  hA.step hs (issueOp_frame s tid op t o ps)

theorem execTileTranslated_frame (tid : Nat) (s : State) : AgreeO 0x400000000000000000404002000000040800000120300020000000000007800580005384c5b80 s (execTileTranslated tid s) := by
  unfold execTileTranslated
  repeat' first
    | with_reducible assumption
    | with_reducible exact Agree.refl _ _
    | exact bitsIn_rfl rfl
    | exact regIn_rfl rfl rfl
    | with_reducible refine AgreeO.next ?_
    | with_reducible refine AgreeO.ite ?_ ?_
    | with_reducible exact AgreeO.refused
    | with_reducible exact AgreeO.fault
    | with_reducible refine dropTile_step ?_ ?_
    | with_reducible refine failLanes_step ?_ ?_
    | with_reducible refine failOp_step ?_ ?_
    | with_reducible refine fresh_step ?_ ?_
    | with_reducible refine issueOp_step ?_ ?_
    | with_reducible refine refuseTile_step ?_ ?_
    | with_reducible refine sendReq_step ?_ ?_
    | with_reducible refine setReq_step ?_ ?_
    | with_reducible refine Agree.ite ?_ ?_
    | dsimp only
    | split
    | (with_reducible refine Agree.of_pair (by assumption) ?_)
    | (with_reducible refine Agree.of_pair2 (by assumption) ?_)
    | intro _
theorem execTileTranslated_step {M s0} {tid : Nat} {s : State} (hs : bitsIn 0x400000000000000000404002000000040800000120300020000000000007800580005384c5b80 M = true) (hA : Agree M s0 s) : AgreeO M s0 (execTileTranslated tid s) :=
  hA.stepO hs (execTileTranslated_frame tid s)

theorem returnLanes_frame (s : State) (op : Nat) (o : ThreadOp) (rs : List (Nat × (List Byte × Nat × Nat))) : Agree 0x30000000000000000180000000000001a00 s (returnLanes s op o rs) := by
  unfold returnLanes
  repeat' first
    | with_reducible assumption
    | with_reducible exact Agree.refl _ _
    | exact bitsIn_rfl rfl
    | exact regIn_rfl rfl rfl
    | with_reducible refine coreFault_step ?_ ?_
    | with_reducible refine setGroup_step ?_ ?_
    | ((conv => arg 3; arg 88; skip); with_reducible first | refine upd_ops ?_ ?_)
    | with_reducible refine Agree.ite ?_ ?_
    | (with_reducible refine Agree.foldl ?_ ?_; intro _ _ _)
    | (with_reducible refine Agree.foldl2 ?_ ?_; intro _ _ _)
    | (with_reducible refine Agree.foldl3 ?_ ?_; intro _ _ _)
    | (with_reducible refine Agree.foldl4 ?_ ?_; intro _ _ _)
    | dsimp only
    | split
    | (with_reducible refine Agree.of_pair (by assumption) ?_)
    | (with_reducible refine Agree.of_pair2 (by assumption) ?_)
    | intro _
theorem returnLanes_step {M s0} {s : State} {op : Nat} {o : ThreadOp} {rs : List (Nat × (List Byte × Nat × Nat))} (hs : bitsIn 0x30000000000000000180000000000001a00 M = true) (hA : Agree M s0 s) : Agree M s0 (returnLanes s op o rs) :=
  hA.step hs (returnLanes_frame s op o rs)

theorem execLoadDataReturn_frame (op : Nat) (s : State) : AgreeO 0x100000000000000000000008404002800020060c020000003000030000000000018007a0040014c7a80 s (execLoadDataReturn op s) := by
  unfold execLoadDataReturn
  repeat' first
    | with_reducible assumption
    | with_reducible exact Agree.refl _ _
    | exact bitsIn_rfl rfl
    | exact regIn_rfl rfl rfl
    | with_reducible refine AgreeO.next ?_
    | with_reducible refine AgreeO.ite ?_ ?_
    | with_reducible exact AgreeO.refused
    | with_reducible exact AgreeO.fault
    | with_reducible refine countPoison_step ?_ ?_
    | with_reducible refine countStale_step ?_ ?_
    | with_reducible refine dropReq_step ?_ ?_
    | with_reducible refine readMiss_step ?_ ?_
    | with_reducible refine returnLanes_step ?_ ?_
    | with_reducible refine setGroup_step ?_ ?_
    | with_reducible refine silkLate_step ?_ ?_
    | with_reducible refine silkWake_step ?_ ?_
    | ((conv => arg 3; arg 88; skip); with_reducible first | refine upd_silkReplies ?_ ?_ | refine upd_ops_silkReplies ?_ ?_)
    | with_reducible refine Agree.ite ?_ ?_
    | (with_reducible refine Agree.foldl ?_ ?_; intro _ _ _)
    | (with_reducible refine Agree.foldl2 ?_ ?_; intro _ _ _)
    | (with_reducible refine Agree.foldl3 ?_ ?_; intro _ _ _)
    | (with_reducible refine Agree.foldl4 ?_ ?_; intro _ _ _)
    | dsimp only
    | split
    | (with_reducible refine Agree.of_pair (by assumption) ?_)
    | (with_reducible refine Agree.of_pair2 (by assumption) ?_)
    | intro _
theorem execLoadDataReturn_step {M s0} {op : Nat} {s : State} (hs : bitsIn 0x100000000000000000000008404002800020060c020000003000030000000000018007a0040014c7a80 M = true) (hA : Agree M s0 s) : AgreeO M s0 (execLoadDataReturn op s) :=
  hA.stepO hs (execLoadDataReturn_frame op s)

theorem execIfetchLine_frame (c g : Nat) (s : State) : AgreeO 0x400000000000000000404002000000040800001920000020000000000006000580005784c4380 s (execIfetchLine c g s) := by
  unfold execIfetchLine
  repeat' first
    | with_reducible assumption
    | with_reducible exact Agree.refl _ _
    | exact bitsIn_rfl rfl
    | exact regIn_rfl rfl rfl
    | with_reducible refine AgreeO.next ?_
    | with_reducible refine AgreeO.ite ?_ ?_
    | with_reducible exact AgreeO.refused
    | with_reducible exact AgreeO.fault
    | with_reducible refine newTile_step ?_ ?_
    | with_reducible refine Agree.ite ?_ ?_
    | dsimp only
    | split
    | (with_reducible refine Agree.of_pair (by assumption) ?_)
    | (with_reducible refine Agree.of_pair2 (by assumption) ?_)
    | intro _
theorem execIfetchLine_step {M s0} {c g : Nat} {s : State} (hs : bitsIn 0x400000000000000000404002000000040800001920000020000000000006000580005784c4380 M = true) (hA : Agree M s0 s) : AgreeO M s0 (execIfetchLine c g s) :=
  hA.stepO hs (execIfetchLine_frame c g s)

theorem lineFault_frame (s : State) (c line code : Nat) : Agree 0x30000000000000000180000000000000a00 s (lineFault s c line code) := by
  unfold lineFault
  repeat' first
    | with_reducible assumption
    | with_reducible exact Agree.refl _ _
    | exact bitsIn_rfl rfl
    | exact regIn_rfl rfl rfl
    | with_reducible refine threadFault_step ?_ ?_
    | with_reducible refine Agree.ite ?_ ?_
    | dsimp only
    | split
    | (with_reducible refine Agree.of_pair (by assumption) ?_)
    | (with_reducible refine Agree.of_pair2 (by assumption) ?_)
    | intro _
theorem lineFault_step {M s0} {s : State} {c line code : Nat} (hs : bitsIn 0x30000000000000000180000000000000a00 M = true) (hA : Agree M s0 s) : Agree M s0 (lineFault s c line code) :=
  hA.step hs (lineFault_frame s c line code)

theorem execIfetchLineReturn_frame (c line : Nat) (s : State) : AgreeO 0x100000000000000000000000404002800020060c02000000300000000000000001800780040014c7a80 s (execIfetchLineReturn c line s) := by
  unfold execIfetchLineReturn
  repeat' first
    | with_reducible assumption
    | with_reducible exact Agree.refl _ _
    | exact bitsIn_rfl rfl
    | exact regIn_rfl rfl rfl
    | with_reducible refine AgreeO.next ?_
    | with_reducible refine AgreeO.ite ?_ ?_
    | with_reducible exact AgreeO.refused
    | with_reducible exact AgreeO.fault
    | ((with_reducible refine ModOf.intro ?_); first | exact fun _ w => w | exact fun _ w => canonical_memPut _ _ w | exact fun _ w => canonical_filter _ w | exact fun _ w => canonical_foldl_mset _ _ w | exact fun _ _ => rfl)
    | with_reducible refine countPoison_step ?_ ?_
    | with_reducible refine dropReq_step ?_ ?_
    | with_reducible refine lineFault_step ?_ ?_
    | with_reducible refine modCore_step ?_ ?_ ?_
    | with_reducible refine readMiss_step ?_ ?_
    | with_reducible refine Agree.ite ?_ ?_
    | dsimp only
    | split
    | (with_reducible refine Agree.of_pair (by assumption) ?_)
    | (with_reducible refine Agree.of_pair2 (by assumption) ?_)
    | intro _
theorem execIfetchLineReturn_step {M s0} {c line : Nat} {s : State} (hs : bitsIn 0x100000000000000000000000404002800020060c02000000300000000000000001800780040014c7a80 M = true) (hA : Agree M s0 s) : AgreeO M s0 (execIfetchLineReturn c line s) :=
  hA.stepO hs (execIfetchLineReturn_frame c line s)

end Sys2Proof.Machine
end

