-- ==== Sys2Proof/Laws/FrameKernel.lean ====
section
/-!
SUPPORT. The frame of every function of Machine/Kernel.lean that answers a state: the fields it can change, by mask.
-/

set_option linter.unusedTactic false
set_option linter.unreachableTactic false
set_option linter.unusedVariables false

namespace Sys2Proof.Machine

theorem wakeWing_frame (s : State) (w : Nat) : Agree 0x800000000000000000000000000000000000000000000000000000000000000000000 s (wakeWing s w) := by
  unfold wakeWing
  repeat' first
    | with_reducible assumption
    | with_reducible exact Agree.refl _ _
    | exact bitsIn_rfl rfl
    | exact regIn_rfl rfl rfl
    | with_reducible refine setF_step ?_ ?_ ?_
    | with_reducible refine Agree.ite ?_ ?_
    | dsimp only
    | split
    | (with_reducible refine Agree.of_pair (by assumption) ?_)
    | (with_reducible refine Agree.of_pair2 (by assumption) ?_)
    | intro _
theorem wakeWing_step {M s0} {s : State} {w : Nat} (hs : bitsIn 0x800000000000000000000000000000000000000000000000000000000000000000000 M = true) (hA : Agree M s0 s) : Agree M s0 (wakeWing s w) :=
  hA.step hs (wakeWing_frame s w)

theorem wakeCore_frame (s : State) (c : Nat) : Agree 0x2804000000000000000000000000000000000000000000000000000000000000000200 s (wakeCore s c) := by
  unfold wakeCore
  repeat' first
    | with_reducible assumption
    | with_reducible exact Agree.refl _ _
    | exact bitsIn_rfl rfl
    | exact regIn_rfl rfl rfl
    | with_reducible refine retimeCore_step ?_ ?_
    | with_reducible refine setF_step ?_ ?_ ?_
    | with_reducible refine wakeWing_step ?_ ?_
    | with_reducible refine Agree.ite ?_ ?_
    | dsimp only
    | split
    | (with_reducible refine Agree.of_pair (by assumption) ?_)
    | (with_reducible refine Agree.of_pair2 (by assumption) ?_)
    | intro _
theorem wakeCore_step {M s0} {s : State} {c : Nat} (hs : bitsIn 0x2804000000000000000000000000000000000000000000000000000000000000000200 M = true) (hA : Agree M s0 s) : Agree M s0 (wakeCore s c) :=
  hA.step hs (wakeCore_frame s c)

theorem abortWrite_frame (s : State) (r : MemReq) : Agree 0x38080 s (abortWrite s r) := by
  unfold abortWrite
  repeat' first
    | with_reducible assumption
    | with_reducible exact Agree.refl _ _
    | exact bitsIn_rfl rfl
    | with_reducible refine freeVal_step ?_ ?_
    | with_reducible refine lineWrite_step ?_ ?_
    | with_reducible refine Agree.ite ?_ ?_
    | (with_reducible refine Agree.foldl ?_ ?_; intro _ _ _)
    | (with_reducible refine Agree.foldl2 ?_ ?_; intro _ _ _)
    | (with_reducible refine Agree.foldl3 ?_ ?_; intro _ _ _)
    | (with_reducible refine Agree.foldl4 ?_ ?_; intro _ _ _)
    | dsimp only
    | split
    | (with_reducible refine Agree.of_pair (by assumption) ?_)
    | (with_reducible refine Agree.of_pair2 (by assumption) ?_)
    | intro _
theorem abortWrite_step {M s0} {s : State} {r : MemReq} (hs : bitsIn 0x38080 M = true) (hA : Agree M s0 s) : Agree M s0 (abortWrite s r) :=
  hA.step hs (abortWrite_frame s r)

theorem abortReq_frame (s : State) (id : Nat) : Agree 0x404002000020040800000000000000000000000000000780000004ff080 s (abortReq s id) := by
  unfold abortReq
  repeat' first
    | with_reducible assumption
    | with_reducible exact Agree.refl _ _
    | exact bitsIn_rfl rfl
    | exact regIn_rfl rfl rfl
    | with_reducible refine abortWrite_step ?_ ?_
    | with_reducible refine dropReq_step ?_ ?_
    | with_reducible refine Agree.ite ?_ ?_
    | dsimp only
    | split
    | (with_reducible refine Agree.of_pair (by assumption) ?_)
    | (with_reducible refine Agree.of_pair2 (by assumption) ?_)
    | intro _
theorem abortReq_step {M s0} {s : State} {id : Nat} (hs : bitsIn 0x404002000020040800000000000000000000000000000780000004ff080 M = true) (hA : Agree M s0 s) : Agree M s0 (abortReq s id) :=
  hA.step hs (abortReq_frame s id)

theorem abortReqs_frame (s : State) (p : MemReq → Bool) : Agree 0x404002000020040800000000000000000000000000000780000004ff080 s (abortReqs s p).2 := by
  unfold abortReqs
  repeat' first
    | with_reducible assumption
    | with_reducible exact Agree.refl _ _
    | exact bitsIn_rfl rfl
    | exact regIn_rfl rfl rfl
    | with_reducible refine abortReq_step ?_ ?_
    | with_reducible refine Agree.ite ?_ ?_
    | (with_reducible refine Agree.foldl ?_ ?_; intro _ _ _)
    | (with_reducible refine Agree.foldl2 ?_ ?_; intro _ _ _)
    | (with_reducible refine Agree.foldl3 ?_ ?_; intro _ _ _)
    | (with_reducible refine Agree.foldl4 ?_ ?_; intro _ _ _)
    | dsimp only
    | split
    | (with_reducible refine Agree.of_pair (by assumption) ?_)
    | (with_reducible refine Agree.of_pair2 (by assumption) ?_)
    | intro _
theorem abortReqs_step {M s0} {s : State} {p : MemReq → Bool} (hs : bitsIn 0x404002000020040800000000000000000000000000000780000004ff080 M = true) (hA : Agree M s0 s) : Agree M s0 (abortReqs s p).2 :=
  hA.step hs (abortReqs_frame s p)

theorem dropTiles_frame (s : State) (p : Tile → Bool) : Agree 0x2000000000000000000600000000038000200 s (dropTiles s p) := by
  unfold dropTiles
  repeat' first
    | with_reducible assumption
    | with_reducible exact Agree.refl _ _
    | exact bitsIn_rfl rfl
    | exact regIn_rfl rfl rfl
    | with_reducible refine dropTile_step ?_ ?_
    | with_reducible refine Agree.ite ?_ ?_
    | (with_reducible refine Agree.foldl ?_ ?_; intro _ _ _)
    | (with_reducible refine Agree.foldl2 ?_ ?_; intro _ _ _)
    | (with_reducible refine Agree.foldl3 ?_ ?_; intro _ _ _)
    | (with_reducible refine Agree.foldl4 ?_ ?_; intro _ _ _)
    | dsimp only
    | split
    | (with_reducible refine Agree.of_pair (by assumption) ?_)
    | (with_reducible refine Agree.of_pair2 (by assumption) ?_)
    | intro _
theorem dropTiles_step {M s0} {s : State} {p : Tile → Bool} (hs : bitsIn 0x2000000000000000000600000000038000200 M = true) (hA : Agree M s0 s) : Agree M s0 (dropTiles s p) :=
  hA.step hs (dropTiles_frame s p)

theorem dropXmov_frame (s : State) (c : Nat) : Agree 0x2000 s (dropXmov s c) := by
  unfold dropXmov
  repeat' first
    | with_reducible assumption
    | with_reducible exact Agree.refl _ _
    | exact bitsIn_rfl rfl
    | ((conv => arg 3; arg 88; skip); with_reducible first | refine upd_movers ?_ ?_)
    | with_reducible refine Agree.ite ?_ ?_
    | dsimp only
    | split
    | (with_reducible refine Agree.of_pair (by assumption) ?_)
    | (with_reducible refine Agree.of_pair2 (by assumption) ?_)
    | intro _
theorem dropXmov_step {M s0} {s : State} {c : Nat} (hs : bitsIn 0x2000 M = true) (hA : Agree M s0 s) : Agree M s0 (dropXmov s c) :=
  hA.step hs (dropXmov_frame s c)

theorem abortCore_frame (s : State) (c : Nat) : Agree 0x404002000020040800000020000000000000000006000780000384ff280 s (abortCore s c).2 := by
  unfold abortCore
  repeat' first
    | with_reducible assumption
    | with_reducible exact Agree.refl _ _
    | exact bitsIn_rfl rfl
    | exact regIn_rfl rfl rfl
    | ((with_reducible refine ModOf.intro ?_); first | exact fun _ w => w | exact fun _ w => canonical_memPut _ _ w | exact fun _ w => canonical_filter _ w | exact fun _ w => canonical_foldl_mset _ _ w | exact fun _ _ => rfl)
    | with_reducible refine abortReqs_step ?_ ?_
    | with_reducible refine dropTiles_step ?_ ?_
    | with_reducible refine dropXmov_step ?_ ?_
    | with_reducible refine modCore_step ?_ ?_ ?_
    | ((conv => arg 3; arg 88; skip); with_reducible first | refine upd_ops ?_ ?_)
    | with_reducible refine Agree.ite ?_ ?_
    | dsimp only
    | split
    | (with_reducible refine Agree.of_pair (by assumption) ?_)
    | (with_reducible refine Agree.of_pair2 (by assumption) ?_)
    | intro _
theorem abortCore_step {M s0} {s : State} {c : Nat} (hs : bitsIn 0x404002000020040800000020000000000000000006000780000384ff280 M = true) (hA : Agree M s0 s) : Agree M s0 (abortCore s c).2 :=
  hA.step hs (abortCore_frame s c)

theorem clearCore_frame (s : State) (c : Nat) : Agree 0x4040020000200408000000200000000000000000060007b0000384c7280 s (clearCore s c) := by
  unfold clearCore
  repeat' first
    | with_reducible assumption
    | with_reducible exact Agree.refl _ _
    | exact bitsIn_rfl rfl
    | exact regIn_rfl rfl rfl
    | ((with_reducible refine ModOf.intro ?_); first | exact fun _ w => w | exact fun _ w => canonical_memPut _ _ w | exact fun _ w => canonical_filter _ w | exact fun _ w => canonical_foldl_mset _ _ w | exact fun _ _ => rfl)
    | with_reducible refine dropTiles_step ?_ ?_
    | with_reducible refine dropXmov_step ?_ ?_
    | with_reducible refine forgetReqs_step ?_ ?_
    | with_reducible refine modCore_step ?_ ?_ ?_
    | ((conv => arg 3; arg 88; skip); with_reducible first | refine upd_ops_silkWaiters_silkReplies ?_ ?_)
    | with_reducible refine Agree.ite ?_ ?_
    | dsimp only
    | split
    | (with_reducible refine Agree.of_pair (by assumption) ?_)
    | (with_reducible refine Agree.of_pair2 (by assumption) ?_)
    | intro _
theorem clearCore_step {M s0} {s : State} {c : Nat} (hs : bitsIn 0x4040020000200408000000200000000000000000060007b0000384c7280 M = true) (hA : Agree M s0 s) : Agree M s0 (clearCore s c) :=
  hA.step hs (clearCore_frame s c)

theorem endKernel_frame (s : State) (kid code : Nat) : Agree 0x400000000000000800 s (endKernel s kid code) := by
  unfold endKernel
  repeat' first
    | with_reducible assumption
    | with_reducible exact Agree.refl _ _
    | exact bitsIn_rfl rfl
    | with_reducible refine endCmd_step ?_ ?_
    | with_reducible refine modCmd_step ?_ ?_
    | ((conv => arg 3; arg 88; skip); with_reducible first | refine upd_kernels ?_ ?_)
    | with_reducible refine Agree.ite ?_ ?_
    | dsimp only
    | split
    | (with_reducible refine Agree.of_pair (by assumption) ?_)
    | (with_reducible refine Agree.of_pair2 (by assumption) ?_)
    | intro _
theorem endKernel_step {M s0} {s : State} {kid code : Nat} (hs : bitsIn 0x400000000000000800 M = true) (hA : Agree M s0 s) : Agree M s0 (endKernel s kid code) :=
  hA.step hs (endKernel_frame s kid code)

theorem execBatchDeal_frame (i : Nat) (s : State) : AgreeO 0x2804000000000000000000000000000000000000000000000000000000000000000a00 s (execBatchDeal i s) := by
  unfold execBatchDeal
  repeat' first
    | with_reducible assumption
    | with_reducible exact Agree.refl _ _
    | exact bitsIn_rfl rfl
    | exact regIn_rfl rfl rfl
    | with_reducible refine AgreeO.next ?_
    | with_reducible refine AgreeO.ite ?_ ?_
    | with_reducible exact AgreeO.refused
    | with_reducible exact AgreeO.fault
    | with_reducible refine modKernel_step ?_ ?_
    | with_reducible refine setBatch_step ?_ ?_
    | with_reducible refine wakeCore_step ?_ ?_
    | with_reducible refine Agree.ite ?_ ?_
    | dsimp only
    | split
    | (with_reducible refine Agree.of_pair (by assumption) ?_)
    | (with_reducible refine Agree.of_pair2 (by assumption) ?_)
    | intro _
theorem execBatchDeal_step {M s0} {i : Nat} {s : State} (hs : bitsIn 0x2804000000000000000000000000000000000000000000000000000000000000000a00 M = true) (hA : Agree M s0 s) : AgreeO M s0 (execBatchDeal i s) :=
  hA.stepO hs (execBatchDeal_frame i s)

theorem zeroAcc_frame (s : State) (c : Nat) : Agree 0x200 s (zeroAcc s c) := by
  unfold zeroAcc
  repeat' first
    | with_reducible assumption
    | with_reducible exact Agree.refl _ _
    | exact bitsIn_rfl rfl
    | ((with_reducible refine ModOf.intro ?_); first | exact fun _ w => w | exact fun _ w => canonical_memPut _ _ w | exact fun _ w => canonical_filter _ w | exact fun _ w => canonical_foldl_mset _ _ w | exact fun _ _ => rfl)
    | with_reducible refine modCore_step ?_ ?_ ?_
    | with_reducible refine Agree.ite ?_ ?_
    | dsimp only
    | split
    | (with_reducible refine Agree.of_pair (by assumption) ?_)
    | (with_reducible refine Agree.of_pair2 (by assumption) ?_)
    | intro _
theorem zeroAcc_step {M s0} {s : State} {c : Nat} (hs : bitsIn 0x200 M = true) (hA : Agree M s0 s) : Agree M s0 (zeroAcc s c) :=
  hA.step hs (zeroAcc_frame s c)

theorem execBatchStart_frame (c : Nat) (s : State) : AgreeO 0x2000002200 s (execBatchStart c s) := by
  unfold execBatchStart
  repeat' first
    | with_reducible assumption
    | with_reducible exact Agree.refl _ _
    | exact bitsIn_rfl rfl
    | with_reducible refine AgreeO.next ?_
    | with_reducible refine AgreeO.ite ?_ ?_
    | with_reducible exact AgreeO.refused
    | with_reducible exact AgreeO.fault
    | ((with_reducible refine ModOf.intro ?_); first | exact fun _ w => w | exact fun _ w => canonical_memPut _ _ w | exact fun _ w => canonical_filter _ w | exact fun _ w => canonical_foldl_mset _ _ w | exact fun _ _ => rfl)
    | with_reducible refine doomIf_step ?_ ?_
    | with_reducible refine modCore_step ?_ ?_ ?_
    | with_reducible refine progress_step ?_ ?_
    | with_reducible refine zeroAcc_step ?_ ?_
    | with_reducible refine zeroScr_step ?_ ?_
    | ((conv => arg 3; arg 88; skip); with_reducible first | refine upd_movers ?_ ?_)
    | with_reducible refine Agree.ite ?_ ?_
    | dsimp only
    | split
    | (with_reducible refine Agree.of_pair (by assumption) ?_)
    | (with_reducible refine Agree.of_pair2 (by assumption) ?_)
    | intro _
theorem execBatchStart_step {M s0} {c : Nat} {s : State} (hs : bitsIn 0x2000002200 M = true) (hA : Agree M s0 s) : AgreeO M s0 (execBatchStart c s) :=
  hA.stepO hs (execBatchStart_frame c s)

theorem raiseHeld_frame (s : State) (kid : Nat) (l : List FaultInfo) : Agree 0xa00 s (raiseHeld s kid l) := by
  unfold raiseHeld
  repeat' first
    | with_reducible assumption
    | with_reducible exact Agree.refl _ _
    | exact bitsIn_rfl rfl
    | with_reducible refine noteFault_step ?_ ?_
    | with_reducible refine Agree.ite ?_ ?_
    | (with_reducible refine Agree.foldl ?_ ?_; intro _ _ _)
    | (with_reducible refine Agree.foldl2 ?_ ?_; intro _ _ _)
    | (with_reducible refine Agree.foldl3 ?_ ?_; intro _ _ _)
    | (with_reducible refine Agree.foldl4 ?_ ?_; intro _ _ _)
    | dsimp only
    | split
    | (with_reducible refine Agree.of_pair (by assumption) ?_)
    | (with_reducible refine Agree.of_pair2 (by assumption) ?_)
    | intro _
theorem raiseHeld_step {M s0} {s : State} {kid : Nat} {l : List FaultInfo} (hs : bitsIn 0xa00 M = true) (hA : Agree M s0 s) : Agree M s0 (raiseHeld s kid l) :=
  hA.step hs (raiseHeld_frame s kid l)

theorem execBatchEnd_frame (c : Nat) (s : State) : AgreeO 0x4040020000200408000000200000000000000000060007b0000384c7a80 s (execBatchEnd c s) := by
  unfold execBatchEnd
  repeat' first
    | with_reducible assumption
    | with_reducible exact Agree.refl _ _
    | exact bitsIn_rfl rfl
    | exact regIn_rfl rfl rfl
    | with_reducible refine AgreeO.next ?_
    | with_reducible refine AgreeO.ite ?_ ?_
    | with_reducible exact AgreeO.refused
    | with_reducible exact AgreeO.fault
    | with_reducible refine clearCore_step ?_ ?_
    | with_reducible refine endKernel_step ?_ ?_
    | with_reducible refine modKernel_step ?_ ?_
    | with_reducible refine raiseHeld_step ?_ ?_
    | with_reducible refine setBatch_step ?_ ?_
    | with_reducible refine Agree.ite ?_ ?_
    | dsimp only
    | split
    | (with_reducible refine Agree.of_pair (by assumption) ?_)
    | (with_reducible refine Agree.of_pair2 (by assumption) ?_)
    | intro _
theorem execBatchEnd_step {M s0} {c : Nat} {s : State} (hs : bitsIn 0x4040020000200408000000200000000000000000060007b0000384c7a80 M = true) (hA : Agree M s0 s) : AgreeO M s0 (execBatchEnd c s) :=
  hA.stepO hs (execBatchEnd_frame c s)

theorem finishStop_frame (s : State) (kid : Nat) (f : FaultInfo) : Agree 0x1000000000000000000000004040020000200408000000200000000000000000068007b0040384c7a80 s (finishStop s kid f) := by
  unfold finishStop
  repeat' first
    | with_reducible assumption
    | with_reducible exact Agree.refl _ _
    | exact bitsIn_rfl rfl
    | exact regIn_rfl rfl rfl
    | ((with_reducible refine ModOf.intro ?_); first | exact fun _ w => w | exact fun _ w => canonical_memPut _ _ w | exact fun _ w => canonical_filter _ w | exact fun _ w => canonical_foldl_mset _ _ w | exact fun _ _ => rfl)
    | with_reducible refine clearCore_step ?_ ?_
    | with_reducible refine endKernel_step ?_ ?_
    | with_reducible refine modCore_step ?_ ?_ ?_
    | with_reducible refine modCtx_step ?_ ?_
    | with_reducible refine modKernel_step ?_ ?_
    | with_reducible refine postEvent_step ?_ ?_
    | with_reducible refine Agree.ite ?_ ?_
    | (with_reducible refine Agree.foldl ?_ ?_; intro _ _ _)
    | (with_reducible refine Agree.foldl2 ?_ ?_; intro _ _ _)
    | (with_reducible refine Agree.foldl3 ?_ ?_; intro _ _ _)
    | (with_reducible refine Agree.foldl4 ?_ ?_; intro _ _ _)
    | dsimp only
    | split
    | (with_reducible refine Agree.of_pair (by assumption) ?_)
    | (with_reducible refine Agree.of_pair2 (by assumption) ?_)
    | intro _
theorem finishStop_step {M s0} {s : State} {kid : Nat} {f : FaultInfo} (hs : bitsIn 0x1000000000000000000000004040020000200408000000200000000000000000068007b0040384c7a80 M = true) (hA : Agree M s0 s) : Agree M s0 (finishStop s kid f) :=
  hA.step hs (finishStop_frame s kid f)

theorem execKernelStopDrainEnd_frame (kid : Nat) (s : State) : AgreeO 0x1000000000000000000000004040020000200408000000200000000000000000068007b0060384c7a80 s (execKernelStopDrainEnd kid s) := by
  unfold execKernelStopDrainEnd
  repeat' first
    | with_reducible assumption
    | with_reducible exact Agree.refl _ _
    | exact bitsIn_rfl rfl
    | exact regIn_rfl rfl rfl
    | with_reducible refine AgreeO.next ?_
    | with_reducible refine AgreeO.ite ?_ ?_
    | with_reducible exact AgreeO.refused
    | with_reducible exact AgreeO.fault
    | with_reducible refine doomIf_step ?_ ?_
    | with_reducible refine finishStop_step ?_ ?_
    | with_reducible refine Agree.ite ?_ ?_
    | dsimp only
    | split
    | (with_reducible refine Agree.of_pair (by assumption) ?_)
    | (with_reducible refine Agree.of_pair2 (by assumption) ?_)
    | intro _
theorem execKernelStopDrainEnd_step {M s0} {kid : Nat} {s : State} (hs : bitsIn 0x1000000000000000000000004040020000200408000000200000000000000000068007b0060384c7a80 M = true) (hA : Agree M s0 s) : AgreeO M s0 (execKernelStopDrainEnd kid s) :=
  hA.stepO hs (execKernelStopDrainEnd_frame kid s)

theorem execKernelStopAbort_frame (kid : Nat) (s : State) : AgreeO 0x404002000020040800000020000000000000000006000780000384ff280 s (execKernelStopAbort kid s) := by
  unfold execKernelStopAbort
  repeat' first
    | with_reducible assumption
    | with_reducible exact Agree.refl _ _
    | exact bitsIn_rfl rfl
    | exact regIn_rfl rfl rfl
    | with_reducible refine AgreeO.next ?_
    | with_reducible refine AgreeO.ite ?_ ?_
    | with_reducible exact AgreeO.refused
    | with_reducible exact AgreeO.fault
    | with_reducible refine abortCore_step ?_ ?_
    | with_reducible refine Agree.ite ?_ ?_
    | (with_reducible refine Agree.foldl ?_ ?_; intro _ _ _)
    | (with_reducible refine Agree.foldl2 ?_ ?_; intro _ _ _)
    | (with_reducible refine Agree.foldl3 ?_ ?_; intro _ _ _)
    | (with_reducible refine Agree.foldl4 ?_ ?_; intro _ _ _)
    | dsimp only
    | split
    | (with_reducible refine Agree.of_pair (by assumption) ?_)
    | (with_reducible refine Agree.of_pair2 (by assumption) ?_)
    | intro _
theorem execKernelStopAbort_step {M s0} {kid : Nat} {s : State} (hs : bitsIn 0x404002000020040800000020000000000000000006000780000384ff280 M = true) (hA : Agree M s0 s) : AgreeO M s0 (execKernelStopAbort kid s) :=
  hA.stepO hs (execKernelStopAbort_frame kid s)

theorem execBatchPreempt_frame (c : Nat) (s : State) : AgreeO 0x2000000200 s (execBatchPreempt c s) := by
  unfold execBatchPreempt
  repeat' first
    | with_reducible assumption
    | with_reducible exact Agree.refl _ _
    | exact bitsIn_rfl rfl
    | with_reducible refine AgreeO.next ?_
    | with_reducible refine AgreeO.ite ?_ ?_
    | with_reducible exact AgreeO.refused
    | with_reducible exact AgreeO.fault
    | with_reducible refine doomIf_step ?_ ?_
    | with_reducible refine setBatch_step ?_ ?_
    | with_reducible refine Agree.ite ?_ ?_
    | dsimp only
    | split
    | (with_reducible refine Agree.of_pair (by assumption) ?_)
    | (with_reducible refine Agree.of_pair2 (by assumption) ?_)
    | intro _
theorem execBatchPreempt_step {M s0} {c : Nat} {s : State} (hs : bitsIn 0x2000000200 M = true) (hA : Agree M s0 s) : AgreeO M s0 (execBatchPreempt c s) :=
  hA.stepO hs (execBatchPreempt_frame c s)

theorem writeFrame_frame (s : State) (slot : SlotInfo) (c inst : Nat) (pages : List Nat) : Agree 0x400000000000000000404302800000040800001800000020000000000000000580000c04fc180 s (writeFrame s slot c inst pages) := by
  unfold writeFrame
  repeat' first
    | with_reducible assumption
    | with_reducible exact Agree.refl _ _
    | exact bitsIn_rfl rfl
    | exact regIn_rfl rfl rfl
    | with_reducible refine devWrite_step ?_ ?_
    | with_reducible refine freeBytes_step ?_ ?_
    | with_reducible refine Agree.ite ?_ ?_
    | (with_reducible refine Agree.foldl ?_ ?_; intro _ _ _)
    | (with_reducible refine Agree.foldl2 ?_ ?_; intro _ _ _)
    | (with_reducible refine Agree.foldl3 ?_ ?_; intro _ _ _)
    | (with_reducible refine Agree.foldl4 ?_ ?_; intro _ _ _)
    | dsimp only
    | split
    | (with_reducible refine Agree.of_pair (by assumption) ?_)
    | (with_reducible refine Agree.of_pair2 (by assumption) ?_)
    | intro _
theorem writeFrame_step {M s0} {s : State} {slot : SlotInfo} {c inst : Nat} {pages : List Nat} (hs : bitsIn 0x400000000000000000404302800000040800001800000020000000000000000580000c04fc180 M = true) (hA : Agree M s0 s) : Agree M s0 (writeFrame s slot c inst pages) :=
  hA.step hs (writeFrame_frame s slot c inst pages)

theorem frameLook_frame (s : State) (slot : SlotInfo) (c inst : Nat) (pages : List Nat) : Agree 0x400000000000000000404102800020040800001800000020000000000000000780000c04ff180 s (frameLook s slot c inst pages).2 := by
  unfold frameLook
  repeat' first
    | with_reducible assumption
    | with_reducible exact Agree.refl _ _
    | exact bitsIn_rfl rfl
    | exact regIn_rfl rfl rfl
    | with_reducible refine devAccess_step ?_ ?_ ?_
    | with_reducible refine devEnd_step ?_ ?_
    | with_reducible refine Agree.ite ?_ ?_
    | dsimp only
    | split
    | (with_reducible refine Agree.of_pair (by assumption) ?_)
    | (with_reducible refine Agree.of_pair2 (by assumption) ?_)
    | intro _
theorem frameLook_step {M s0} {s : State} {slot : SlotInfo} {c inst : Nat} {pages : List Nat} (hs : bitsIn 0x400000000000000000404102800020040800001800000020000000000000000780000c04ff180 M = true) (hA : Agree M s0 s) : Agree M s0 (frameLook s slot c inst pages).2 :=
  hA.step hs (frameLook_frame s slot c inst pages)

theorem countSpill_frame (s : State) (c n : Nat) (save : Bool) : Agree 0xe0000000000000000000000000000000000000000000000000 s (countSpill s c n save) := by
  unfold countSpill
  repeat' first
    | with_reducible assumption
    | with_reducible exact Agree.refl _ _
    | exact bitsIn_rfl rfl
    | exact regIn_rfl rfl rfl
    | with_reducible refine countR_step ?_ ?_ ?_
    | with_reducible refine Agree.ite ?_ ?_
    | dsimp only
    | split
    | (with_reducible refine Agree.of_pair (by assumption) ?_)
    | (with_reducible refine Agree.of_pair2 (by assumption) ?_)
    | intro _
theorem countSpill_step {M s0} {s : State} {c n : Nat} {save : Bool} (hs : bitsIn 0xe0000000000000000000000000000000000000000000000000 M = true) (hA : Agree M s0 s) : Agree M s0 (countSpill s c n save) :=
  hA.step hs (countSpill_frame s c n save)

theorem saveTiles_frame (s : State) (c : Nat) (b : Batch) : Agree 0x8000000 s (saveTiles s c b) := by
  unfold saveTiles
  repeat' first
    | with_reducible assumption
    | with_reducible exact Agree.refl _ _
    | exact bitsIn_rfl rfl
    | ((conv => arg 3; arg 88; skip); with_reducible first | refine upd_tiles ?_ ?_)
    | with_reducible refine Agree.ite ?_ ?_
    | dsimp only
    | split
    | (with_reducible refine Agree.of_pair (by assumption) ?_)
    | (with_reducible refine Agree.of_pair2 (by assumption) ?_)
    | intro _
theorem saveTiles_step {M s0} {s : State} {c : Nat} {b : Batch} (hs : bitsIn 0x8000000 M = true) (hA : Agree M s0 s) : Agree M s0 (saveTiles s c b) :=
  hA.step hs (saveTiles_frame s c b)

theorem moveWaits_frame (s : State) (ops : List Nat) (c : Nat) : Agree 0x1800000001000 s (moveWaits s ops c) := by
  unfold moveWaits
  repeat' first
    | with_reducible assumption
    | with_reducible exact Agree.refl _ _
    | exact bitsIn_rfl rfl
    | ((conv => arg 3; arg 88; skip); with_reducible first | refine upd_ops_silkMsgs_silkWaiters ?_ ?_)
    | with_reducible refine Agree.ite ?_ ?_
    | dsimp only
    | split
    | (with_reducible refine Agree.of_pair (by assumption) ?_)
    | (with_reducible refine Agree.of_pair2 (by assumption) ?_)
    | intro _
theorem moveWaits_step {M s0} {s : State} {ops : List Nat} {c : Nat} (hs : bitsIn 0x1800000001000 M = true) (hA : Agree M s0 s) : Agree M s0 (moveWaits s ops c) :=
  hA.step hs (moveWaits_frame s ops c)

theorem restoreMover_frame (s : State) (c : Nat) (m : Mover) : Agree 0x2000 s (restoreMover s c m) := by
  unfold restoreMover
  repeat' first
    | with_reducible assumption
    | with_reducible exact Agree.refl _ _
    | exact bitsIn_rfl rfl
    | with_reducible refine setChan_step ?_ ?_
    | ((conv => arg 3; arg 88; skip); with_reducible first | refine upd_movers ?_ ?_)
    | with_reducible refine Agree.ite ?_ ?_
    | (with_reducible refine Agree.foldl ?_ ?_; intro _ _ _)
    | (with_reducible refine Agree.foldl2 ?_ ?_; intro _ _ _)
    | (with_reducible refine Agree.foldl3 ?_ ?_; intro _ _ _)
    | (with_reducible refine Agree.foldl4 ?_ ?_; intro _ _ _)
    | dsimp only
    | split
    | (with_reducible refine Agree.of_pair (by assumption) ?_)
    | (with_reducible refine Agree.of_pair2 (by assumption) ?_)
    | intro _
theorem restoreMover_step {M s0} {s : State} {c : Nat} {m : Mover} (hs : bitsIn 0x2000 M = true) (hA : Agree M s0 s) : Agree M s0 (restoreMover s c m) :=
  hA.step hs (restoreMover_frame s c m)

theorem execBatchSaveComplete_frame (c : Nat) (s : State) : AgreeO 0x400000000000000000404302800e200408000018200a00200000000000068007b8000f84ffb80 s (execBatchSaveComplete c s) := by
  unfold execBatchSaveComplete
  repeat' first
    | with_reducible assumption
    | with_reducible exact Agree.refl _ _
    | exact bitsIn_rfl rfl
    | exact regIn_rfl rfl rfl
    | with_reducible refine AgreeO.next ?_
    | with_reducible refine AgreeO.ite ?_ ?_
    | with_reducible exact AgreeO.refused
    | with_reducible exact AgreeO.fault
    | ((with_reducible refine ModOf.intro ?_); first | exact fun _ w => w | exact fun _ w => canonical_memPut _ _ w | exact fun _ w => canonical_filter _ w | exact fun _ w => canonical_foldl_mset _ _ w | exact fun _ _ => rfl)
    | with_reducible refine clearCore_step ?_ ?_
    | with_reducible refine countR_step ?_ ?_ ?_
    | with_reducible refine countSpill_step ?_ ?_
    | with_reducible refine frameLook_step ?_ ?_
    | with_reducible refine modCmd_step ?_ ?_
    | with_reducible refine modCore_step ?_ ?_ ?_
    | with_reducible refine modCtx_step ?_ ?_
    | with_reducible refine moveWaits_step ?_ ?_
    | with_reducible refine noteFault_step ?_ ?_
    | with_reducible refine progress_step ?_ ?_
    | with_reducible refine saveTiles_step ?_ ?_
    | with_reducible refine setBatch_step ?_ ?_
    | with_reducible refine writeFrame_step ?_ ?_
    | with_reducible refine Agree.ite ?_ ?_
    | dsimp only
    | split
    | (with_reducible refine Agree.of_pair (by assumption) ?_)
    | (with_reducible refine Agree.of_pair2 (by assumption) ?_)
    | intro _
theorem execBatchSaveComplete_step {M s0} {c : Nat} {s : State} (hs : bitsIn 0x400000000000000000404302800e200408000018200a00200000000000068007b8000f84ffb80 M = true) (hA : Agree M s0 s) : AgreeO M s0 (execBatchSaveComplete c s) :=
  hA.stepO hs (execBatchSaveComplete_frame c s)

theorem restoreUnstarted_frame (s : State) (c : Nat) (v : SavedBatch) : Agree 0x200 s (restoreUnstarted s c v) := by
  unfold restoreUnstarted
  repeat' first
    | with_reducible assumption
    | with_reducible exact Agree.refl _ _
    | exact bitsIn_rfl rfl
    | with_reducible refine progress_step ?_ ?_
    | with_reducible refine setBatch_step ?_ ?_
    | with_reducible refine Agree.ite ?_ ?_
    | dsimp only
    | split
    | (with_reducible refine Agree.of_pair (by assumption) ?_)
    | (with_reducible refine Agree.of_pair2 (by assumption) ?_)
    | intro _
theorem restoreUnstarted_step {M s0} {s : State} {c : Nat} {v : SavedBatch} (hs : bitsIn 0x200 M = true) (hA : Agree M s0 s) : Agree M s0 (restoreUnstarted s c v) :=
  hA.step hs (restoreUnstarted_frame s c v)

theorem restoreOn_frame (s : State) (c : Nat) (k : Kernel) (v : SavedBatch) : Agree 0x2000000000000000000600001800038003200 s (restoreOn s c k v) := by
  unfold restoreOn
  repeat' first
    | with_reducible assumption
    | with_reducible exact Agree.refl _ _
    | exact bitsIn_rfl rfl
    | exact regIn_rfl rfl rfl
    | ((with_reducible refine ModOf.intro ?_); first | exact fun _ w => w | exact fun _ w => canonical_memPut _ _ w | exact fun _ w => canonical_filter _ w | exact fun _ w => canonical_foldl_mset _ _ w | exact fun _ _ => rfl)
    | with_reducible refine dropTiles_step ?_ ?_
    | with_reducible refine modCore_step ?_ ?_ ?_
    | with_reducible refine moveWaits_step ?_ ?_
    | with_reducible refine progress_step ?_ ?_
    | with_reducible refine restoreMover_step ?_ ?_
    | with_reducible refine restoreUnstarted_step ?_ ?_
    | with_reducible refine zeroScr_step ?_ ?_
    | with_reducible refine Agree.ite ?_ ?_
    | (with_reducible refine Agree.foldl ?_ ?_; intro _ _ _)
    | (with_reducible refine Agree.foldl2 ?_ ?_; intro _ _ _)
    | (with_reducible refine Agree.foldl3 ?_ ?_; intro _ _ _)
    | (with_reducible refine Agree.foldl4 ?_ ?_; intro _ _ _)
    | dsimp only
    | split
    | (with_reducible refine Agree.of_pair (by assumption) ?_)
    | (with_reducible refine Agree.of_pair2 (by assumption) ?_)
    | intro _
theorem restoreOn_step {M s0} {s : State} {c : Nat} {k : Kernel} {v : SavedBatch} (hs : bitsIn 0x2000000000000000000600001800038003200 M = true) (hA : Agree M s0 s) : Agree M s0 (restoreOn s c k v) :=
  hA.step hs (restoreOn_frame s c k v)

theorem execBatchRestore_frame (i : Nat) (corrupt : Bool) (s : State) : AgreeO 0x400000028040000000404102800e20040800001820080020000000000006800798020f84ffb80 s (execBatchRestore i corrupt s) := by
  unfold execBatchRestore
  repeat' first
    | with_reducible assumption
    | with_reducible exact Agree.refl _ _
    | exact bitsIn_rfl rfl
    | exact regIn_rfl rfl rfl
    | with_reducible refine AgreeO.next ?_
    | with_reducible refine AgreeO.ite ?_ ?_
    | with_reducible exact AgreeO.refused
    | with_reducible exact AgreeO.fault
    | with_reducible refine countR_step ?_ ?_ ?_
    | with_reducible refine countSpill_step ?_ ?_
    | with_reducible refine doomIf_step ?_ ?_
    | with_reducible refine frameLook_step ?_ ?_
    | with_reducible refine modCtx_step ?_ ?_
    | with_reducible refine noteFault_step ?_ ?_
    | with_reducible refine raiseHeld_step ?_ ?_
    | with_reducible refine restoreOn_step ?_ ?_
    | with_reducible refine wakeCore_step ?_ ?_
    | with_reducible refine Agree.ite ?_ ?_
    | dsimp only
    | split
    | (with_reducible refine Agree.of_pair (by assumption) ?_)
    | (with_reducible refine Agree.of_pair2 (by assumption) ?_)
    | intro _
theorem execBatchRestore_step {M s0} {i : Nat} {corrupt : Bool} {s : State} (hs : bitsIn 0x400000028040000000404102800e20040800001820080020000000000006800798020f84ffb80 M = true) (hA : Agree M s0 s) : AgreeO M s0 (execBatchRestore i corrupt s) :=
  hA.stepO hs (execBatchRestore_frame i corrupt s)

end Sys2Proof.Machine
end

