-- ==== Sys2Proof/Laws/FrameMover.lean ====
section
/-!
SUPPORT. The frame of every function of Machine/Mover.lean that answers a state: the fields it can change, by mask.
-/

set_option linter.unusedTactic false
set_option linter.unreachableTactic false
set_option linter.unusedVariables false

namespace Sys2Proof.Machine

/-- The state of an answer of this kind agrees. -/
def AgreePutRes (M : Nat) (s : State) (r : PutRes) : Prop := ∀ t, (∃ x0, r = .refused x0 t) ∨ (∃ x0 x1, r = .failed x0 x1 t) ∨ (∃ x0 x1, r = .ok x0 x1 t) → Agree M s t

theorem AgreePutRes.refused {M s t} {x0 } (h : Agree M s t) : AgreePutRes M s (.refused x0 t) := by
  intro u e; simp at e; first | (subst e; exact h) | (obtain ⟨-, e⟩ := e; subst e; exact h) | (obtain ⟨-, -, e⟩ := e; subst e; exact h) 
theorem AgreePutRes.of_refused {M s t r} {x0 } (h : AgreePutRes M s r) (e : r = .refused x0 t) : Agree M s t := h t (.inl (⟨_, e⟩))
theorem AgreePutRes.failed {M s t} {x0 x1 } (h : Agree M s t) : AgreePutRes M s (.failed x0 x1 t) := by
  intro u e; simp at e; first | (subst e; exact h) | (obtain ⟨-, e⟩ := e; subst e; exact h) | (obtain ⟨-, -, e⟩ := e; subst e; exact h) 
theorem AgreePutRes.of_failed {M s t r} {x0 x1 } (h : AgreePutRes M s r) (e : r = .failed x0 x1 t) : Agree M s t := h t (.inr (.inl (⟨_, _, e⟩)))
theorem AgreePutRes.ok {M s t} {x0 x1 } (h : Agree M s t) : AgreePutRes M s (.ok x0 x1 t) := by
  intro u e; simp at e; first | (subst e; exact h) | (obtain ⟨-, e⟩ := e; subst e; exact h) | (obtain ⟨-, -, e⟩ := e; subst e; exact h) 
theorem AgreePutRes.of_ok {M s t r} {x0 x1 } (h : AgreePutRes M s r) (e : r = .ok x0 x1 t) : Agree M s t := h t (.inr (.inr (⟨_, _, e⟩)))
theorem AgreePutRes.ite {M s a b} {c : Prop} [Decidable c] (h1 : AgreePutRes M s a) (h2 : AgreePutRes M s b) : AgreePutRes M s (if c then a else b) := by split <;> assumption
theorem Agree.stepPutRes {M m s0 s r} (h : Agree M s0 s) (hs : bitsIn m M = true) (g : AgreePutRes m s r) : AgreePutRes M s0 r := fun t ht => h.step hs (g t ht)

theorem bulkEnd_frame (s : State) (c : Nat) : Agree 0x400000000000000000 s (bulkEnd s c) := by
  unfold bulkEnd
  repeat' first
    | with_reducible assumption
    | with_reducible exact Agree.refl _ _
    | exact bitsIn_rfl rfl
    | with_reducible refine endCmd_step ?_ ?_
    | with_reducible refine Agree.ite ?_ ?_
    | dsimp only
    | split
    | (with_reducible refine Agree.of_pair (by assumption) ?_)
    | (with_reducible refine Agree.of_pair2 (by assumption) ?_)
    | intro _
theorem bulkEnd_step {M s0} {s : State} {c : Nat} (hs : bitsIn 0x400000000000000000 M = true) (hA : Agree M s0 s) : Agree M s0 (bulkEnd s c) :=
  hA.step hs (bulkEnd_frame s c)

theorem modGate_frame (s : State) (w : Nat) (f : Gate → Gate) : Agree 0x1000000000 s (modGate s w f) := by
  unfold modGate
  repeat' first
    | with_reducible assumption
    | with_reducible exact Agree.refl _ _
    | exact bitsIn_rfl rfl
    | ((conv => arg 3; arg 88; skip); with_reducible first | refine upd_gates ?_ ?_)
    | with_reducible refine Agree.ite ?_ ?_
    | dsimp only
    | split
    | (with_reducible refine Agree.of_pair (by assumption) ?_)
    | (with_reducible refine Agree.of_pair2 (by assumption) ?_)
    | intro _
theorem modGate_step {M s0} {s : State} {w : Nat} {f : Gate → Gate} (hs : bitsIn 0x1000000000 M = true) (hA : Agree M s0 s) : Agree M s0 (modGate s w f) :=
  hA.step hs (modGate_frame s w f)

theorem modRun_frame (s : State) (w : Nat) (f : GateRun → GateRun) : Agree 0x1000000000 s (modRun s w f) := by
  unfold modRun
  repeat' first
    | with_reducible assumption
    | with_reducible exact Agree.refl _ _
    | exact bitsIn_rfl rfl
    | with_reducible refine modGate_step ?_ ?_
    | with_reducible refine Agree.ite ?_ ?_
    | dsimp only
    | split
    | (with_reducible refine Agree.of_pair (by assumption) ?_)
    | (with_reducible refine Agree.of_pair2 (by assumption) ?_)
    | intro _
theorem modRun_step {M s0} {s : State} {w : Nat} {f : GateRun → GateRun} (hs : bitsIn 0x1000000000 M = true) (hA : Agree M s0 s) : Agree M s0 (modRun s w f) :=
  hA.step hs (modRun_frame s w f)

theorem feedGather_frame (s : State) (w ch : Nat) (l : List (Nat × Desc)) : Agree 0x1000002000 s (feedGather s w ch l) := by
  have key : ∀ l s0 s, Agree 0x1000002000 s0 s → Agree 0x1000002000 s0 (feedGather s w ch l) := by
    intro l
    induction l with
    | nil => intro s0 s h; exact modRun_step (bitsIn_rfl rfl) h
    | cons x l ih =>
      obtain ⟨c, d⟩ := x
      intro s0 s h
      unfold feedGather
      dsimp only
      refine Agree.ite (modRun_step (bitsIn_rfl rfl) h) (ih _ _ (modRun_step (bitsIn_rfl rfl) (queueDesc_step (bitsIn_rfl rfl) h)))
  exact key l s s (Agree.refl _ _)
theorem feedGather_step {M s0} {s : State} {w ch : Nat} {l : List (Nat × Desc)} (hs : bitsIn 0x1000002000 M = true)
    (h : Agree M s0 s) : Agree M s0 (feedGather s w ch l) := h.step hs (feedGather_frame s w ch l)

theorem descOwner_frame (s : State) (u k : Nat) (d : Desc) (code : Nat) (addr : Nat) (f : Flags) : Agree 0x30000000000000000780000001000002a00 s (descOwner s u k d code addr f) := by
  unfold descOwner
  repeat' first
    | with_reducible assumption
    | with_reducible exact Agree.refl _ _
    | exact bitsIn_rfl rfl
    | exact regIn_rfl rfl rfl
    | with_reducible refine bulkEnd_step ?_ ?_
    | with_reducible refine coreFault_step ?_ ?_
    | with_reducible refine feedGather_step ?_ ?_
    | with_reducible refine modCmd_step ?_ ?_
    | with_reducible refine modKernel_step ?_ ?_
    | with_reducible refine modQueue_step ?_ ?_
    | with_reducible refine modRun_step ?_ ?_
    | with_reducible refine progress_step ?_ ?_
    | with_reducible refine Agree.ite ?_ ?_
    | dsimp only
    | split
    | (with_reducible refine Agree.of_pair (by assumption) ?_)
    | (with_reducible refine Agree.of_pair2 (by assumption) ?_)
    | intro _
theorem descOwner_step {M s0} {s : State} {u k : Nat} {d : Desc} {code : Nat} {addr : Nat} {f : Flags} (hs : bitsIn 0x30000000000000000780000001000002a00 M = true) (hA : Agree M s0 s) : Agree M s0 (descOwner s u k d code addr f) :=
  hA.step hs (descOwner_frame s u k d code addr f)

theorem popChan_frame (s : State) (u k : Nat) : Agree 0x8000000000000000000000000000000000000000000002000 s (popChan s u k) := by
  unfold popChan
  repeat' first
    | with_reducible assumption
    | with_reducible exact Agree.refl _ _
    | exact bitsIn_rfl rfl
    | exact regIn_rfl rfl rfl
    | with_reducible refine setChan_step ?_ ?_
    | with_reducible refine setF_step ?_ ?_ ?_
    | with_reducible refine Agree.ite ?_ ?_
    | dsimp only
    | split
    | (with_reducible refine Agree.of_pair (by assumption) ?_)
    | (with_reducible refine Agree.of_pair2 (by assumption) ?_)
    | intro _
theorem popChan_step {M s0} {s : State} {u k : Nat} (hs : bitsIn 0x8000000000000000000000000000000000000000000002000 M = true) (hA : Agree M s0 s) : Agree M s0 (popChan s u k) :=
  hA.step hs (popChan_frame s u k)

theorem endDesc_frame (s : State) (u k : Nat) : Agree 0x4040020000a0040800000020000000000000000006000780000384c7280 s (endDesc s u k) := by
  unfold endDesc
  repeat' first
    | with_reducible assumption
    | with_reducible exact Agree.refl _ _
    | exact bitsIn_rfl rfl
    | exact regIn_rfl rfl rfl
    | with_reducible refine dropTile_step ?_ ?_
    | with_reducible refine forgetReqs_step ?_ ?_
    | with_reducible refine popChan_step ?_ ?_
    | with_reducible refine Agree.ite ?_ ?_
    | dsimp only
    | split
    | (with_reducible refine Agree.of_pair (by assumption) ?_)
    | (with_reducible refine Agree.of_pair2 (by assumption) ?_)
    | intro _
theorem endDesc_step {M s0} {s : State} {u k : Nat} (hs : bitsIn 0x4040020000a0040800000020000000000000000006000780000384c7280 M = true) (hA : Agree M s0 s) : Agree M s0 (endDesc s u k) :=
  hA.step hs (endDesc_frame s u k)

theorem putReq_frame (s : State) (u k : Nat) (d : Desc) (op : ReqOp) (g dst hint : Nat) (w : Nat × List PByte) : Agree 0x404002000000040800000000000000000000000000000580000004c4180 s (putReq s u k d op g dst hint w).2.2 := by
  unfold putReq
  repeat' first
    | with_reducible assumption
    | with_reducible exact Agree.refl _ _
    | exact bitsIn_rfl rfl
    | exact regIn_rfl rfl rfl
    | with_reducible refine sendReq_step ?_ ?_
    | with_reducible refine Agree.ite ?_ ?_
    | (with_reducible refine Agree.foldl ?_ ?_; intro _ _ _)
    | (with_reducible refine Agree.foldl2 ?_ ?_; intro _ _ _)
    | (with_reducible refine Agree.foldl3 ?_ ?_; intro _ _ _)
    | (with_reducible refine Agree.foldl4 ?_ ?_; intro _ _ _)
    | dsimp only
    | split
    | (with_reducible refine Agree.of_pair (by assumption) ?_)
    | (with_reducible refine Agree.of_pair2 (by assumption) ?_)
    | intro _
theorem putReq_step {M s0} {s : State} {u k : Nat} {d : Desc} {op : ReqOp} {g dst hint : Nat} {w : Nat × List PByte} (hs : bitsIn 0x404002000000040800000000000000000000000000000580000004c4180 M = true) (hA : Agree M s0 s) : Agree M s0 (putReq s u k d op g dst hint w).2.2 :=
  hA.step hs (putReq_frame s u k d op g dst hint w)

theorem scrPutAll_frame (s : State) (u : Nat) (d : Desc) (ws : List (Nat × List PByte)) : Agree 0x1c00000000000000000000000000000000000002000000200 s (scrPutAll s u d ws) := by
  unfold scrPutAll
  repeat' first
    | with_reducible assumption
    | with_reducible exact Agree.refl _ _
    | exact bitsIn_rfl rfl
    | exact regIn_rfl rfl rfl
    | with_reducible refine scrWriteAll_step ?_ ?_
    | with_reducible refine Agree.ite ?_ ?_
    | dsimp only
    | split
    | (with_reducible refine Agree.of_pair (by assumption) ?_)
    | (with_reducible refine Agree.of_pair2 (by assumption) ?_)
    | intro _
theorem scrPutAll_step {M s0} {s : State} {u : Nat} {d : Desc} {ws : List (Nat × List PByte)} (hs : bitsIn 0x1c00000000000000000000000000000000000002000000200 M = true) (hA : Agree M s0 s) : Agree M s0 (scrPutAll s u d ws) :=
  hA.step hs (scrPutAll_frame s u d ws)

theorem freeRange_frame (s : State) (u k : Nat) (d : Desc) (held : List Xlat) (r : Nat × Nat) : Agree 0x40400200001c040800000000000000000000000000000580020004c4380 s (freeRange s u k d held r) := by
  unfold freeRange
  repeat' first
    | with_reducible assumption
    | with_reducible exact Agree.refl _ _
    | exact bitsIn_rfl rfl
    | exact regIn_rfl rfl rfl
    | with_reducible refine freeBytes_step ?_ ?_
    | with_reducible refine putReq_step ?_ ?_
    | with_reducible refine scrPutAll_step ?_ ?_
    | with_reducible refine Agree.ite ?_ ?_
    | (with_reducible refine Agree.foldl ?_ ?_; intro _ _ _)
    | (with_reducible refine Agree.foldl2 ?_ ?_; intro _ _ _)
    | (with_reducible refine Agree.foldl3 ?_ ?_; intro _ _ _)
    | (with_reducible refine Agree.foldl4 ?_ ?_; intro _ _ _)
    | dsimp only
    | split
    | (with_reducible refine Agree.of_pair (by assumption) ?_)
    | (with_reducible refine Agree.of_pair2 (by assumption) ?_)
    | intro _
theorem freeRange_step {M s0} {s : State} {u k : Nat} {d : Desc} {held : List Xlat} {r : Nat × Nat} (hs : bitsIn 0x40400200001c040800000000000000000000000000000580020004c4380 M = true) (hA : Agree M s0 s) : Agree M s0 (freeRange s u k d held r) :=
  hA.step hs (freeRange_frame s u k d held r)

theorem freeRanges_frame (s : State) (u k : Nat) (d : Desc) (held : List Xlat) (l : List (Nat × Nat)) : Agree 0x40400200001c040800000000000000000000000000000580020004c4380 s (freeRanges s u k d held l) := by
  unfold freeRanges
  repeat' first
    | with_reducible assumption
    | with_reducible exact Agree.refl _ _
    | exact bitsIn_rfl rfl
    | exact regIn_rfl rfl rfl
    | with_reducible refine freeRange_step ?_ ?_
    | with_reducible refine Agree.ite ?_ ?_
    | (with_reducible refine Agree.foldl ?_ ?_; intro _ _ _)
    | (with_reducible refine Agree.foldl2 ?_ ?_; intro _ _ _)
    | (with_reducible refine Agree.foldl3 ?_ ?_; intro _ _ _)
    | (with_reducible refine Agree.foldl4 ?_ ?_; intro _ _ _)
    | dsimp only
    | split
    | (with_reducible refine Agree.of_pair (by assumption) ?_)
    | (with_reducible refine Agree.of_pair2 (by assumption) ?_)
    | intro _
theorem freeRanges_step {M s0} {s : State} {u k : Nat} {d : Desc} {held : List Xlat} {l : List (Nat × Nat)} (hs : bitsIn 0x40400200001c040800000000000000000000000000000580020004c4380 M = true) (hA : Agree M s0 s) : Agree M s0 (freeRanges s u k d held l) :=
  hA.step hs (freeRanges_frame s u k d held l)

theorem moverFail_frame (s : State) (u k : Nat) (d : Desc) (code addr : Nat) : Agree 0x4040020001bc040800000020300000000000000007800780030384c7b80 s (moverFail s u k d code addr) := by
  unfold moverFail
  repeat' first
    | with_reducible assumption
    | with_reducible exact Agree.refl _ _
    | exact bitsIn_rfl rfl
    | exact regIn_rfl rfl rfl
    | with_reducible refine descOwner_step ?_ ?_
    | with_reducible refine endDesc_step ?_ ?_
    | with_reducible refine freeRanges_step ?_ ?_
    | with_reducible refine setF_step ?_ ?_ ?_
    | with_reducible refine Agree.ite ?_ ?_
    | dsimp only
    | split
    | (with_reducible refine Agree.of_pair (by assumption) ?_)
    | (with_reducible refine Agree.of_pair2 (by assumption) ?_)
    | intro _
theorem moverFail_step {M s0} {s : State} {u k : Nat} {d : Desc} {code addr : Nat} (hs : bitsIn 0x4040020001bc040800000020300000000000000007800780030384c7b80 M = true) (hA : Agree M s0 s) : Agree M s0 (moverFail s u k d code addr) :=
  hA.step hs (moverFail_frame s u k d code addr)

theorem chanTile_frame (s : State) (u k : Nat) (d : Desc) (pages : List Nat) (rights : Nat) : Agree 0x400000000000000000404002000000040800001920000020000000000006000580005784c6380 s (chanTile s u k d pages rights) := by
  unfold chanTile
  repeat' first
    | with_reducible assumption
    | with_reducible exact Agree.refl _ _
    | exact bitsIn_rfl rfl
    | exact regIn_rfl rfl rfl
    | with_reducible refine newTile_step ?_ ?_
    | with_reducible refine setChan_step ?_ ?_
    | with_reducible refine Agree.ite ?_ ?_
    | dsimp only
    | split
    | (with_reducible refine Agree.of_pair (by assumption) ?_)
    | (with_reducible refine Agree.of_pair2 (by assumption) ?_)
    | intro _
theorem chanTile_step {M s0} {s : State} {u k : Nat} {d : Desc} {pages : List Nat} {rights : Nat} (hs : bitsIn 0x400000000000000000404002000000040800001920000020000000000006000580005784c6380 M = true) (hA : Agree M s0 s) : Agree M s0 (chanTile s u k d pages rights) :=
  hA.step hs (chanTile_frame s u k d pages rights)

theorem beginData_frame (s : State) (u k : Nat) (d : Desc) : Agree 0x4000000000000000004040020001bc040800001920300020000000000007800780035784c7b80 s (beginData s u k d) := by
  unfold beginData
  repeat' first
    | with_reducible assumption
    | with_reducible exact Agree.refl _ _
    | exact bitsIn_rfl rfl
    | exact regIn_rfl rfl rfl
    | with_reducible refine chanTile_step ?_ ?_
    | with_reducible refine freeRanges_step ?_ ?_
    | with_reducible refine moverFail_step ?_ ?_
    | with_reducible refine setChan_step ?_ ?_
    | with_reducible refine Agree.ite ?_ ?_
    | dsimp only
    | split
    | (with_reducible refine Agree.of_pair (by assumption) ?_)
    | (with_reducible refine Agree.of_pair2 (by assumption) ?_)
    | intro _
theorem beginData_step {M s0} {s : State} {u k : Nat} {d : Desc} (hs : bitsIn 0x4000000000000000004040020001bc040800001920300020000000000007800780035784c7b80 M = true) (hA : Agree M s0 s) : Agree M s0 (beginData s u k d) :=
  hA.step hs (beginData_frame s u k d)

theorem beginStage_frame (s : State) (u k : Nat) (d : Desc) (stage : Nat) : Agree 0x4000000000000000004040020001bc040800001920300020000000000007800780035784c7b80 s (beginStage s u k d stage) := by
  unfold beginStage
  repeat' first
    | with_reducible assumption
    | with_reducible exact Agree.refl _ _
    | exact bitsIn_rfl rfl
    | exact regIn_rfl rfl rfl
    | with_reducible refine chanTile_step ?_ ?_
    | with_reducible refine moverFail_step ?_ ?_
    | with_reducible refine setChan_step ?_ ?_
    | with_reducible refine Agree.ite ?_ ?_
    | dsimp only
    | split
    | (with_reducible refine Agree.of_pair (by assumption) ?_)
    | (with_reducible refine Agree.of_pair2 (by assumption) ?_)
    | intro _
theorem beginStage_step {M s0} {s : State} {u k : Nat} {d : Desc} {stage : Nat} (hs : bitsIn 0x4000000000000000004040020001bc040800001920300020000000000007800780035784c7b80 M = true) (hA : Agree M s0 s) : Agree M s0 (beginStage s u k d stage) :=
  hA.step hs (beginStage_frame s u k d stage)

theorem nextTile_frame (s : State) (u k : Nat) (d : Desc) : Agree 0x4000000000000000004040020001bc040800001920300020000000000007800780035784c7b80 s (nextTile s u k d) := by
  unfold nextTile
  repeat' first
    | with_reducible assumption
    | with_reducible exact Agree.refl _ _
    | exact bitsIn_rfl rfl
    | exact regIn_rfl rfl rfl
    | with_reducible refine beginData_step ?_ ?_
    | with_reducible refine beginStage_step ?_ ?_
    | with_reducible refine dropTile_step ?_ ?_
    | with_reducible refine setChan_step ?_ ?_
    | with_reducible refine Agree.ite ?_ ?_
    | dsimp only
    | split
    | (with_reducible refine Agree.of_pair (by assumption) ?_)
    | (with_reducible refine Agree.of_pair2 (by assumption) ?_)
    | intro _
theorem nextTile_step {M s0} {s : State} {u k : Nat} {d : Desc} (hs : bitsIn 0x4000000000000000004040020001bc040800001920300020000000000007800780035784c7b80 M = true) (hA : Agree M s0 s) : Agree M s0 (nextTile s u k d) :=
  hA.step hs (nextTile_frame s u k d)

theorem readOver_frame (s : State) (d : Desc) (c : Chan) (u : Nat) (l : List (Nat × Nat)) (get : Nat → PByte) : Agree 0x80 s (readOver s d c u l get).2 := by
  unfold readOver
  repeat' first
    | with_reducible assumption
    | with_reducible exact Agree.refl _ _
    | exact bitsIn_rfl rfl
    | with_reducible refine freeBytes_step ?_ ?_
    | with_reducible refine Agree.ite ?_ ?_
    | (with_reducible refine Agree.foldl ?_ ?_; intro _ _ _)
    | (with_reducible refine Agree.foldl2 ?_ ?_; intro _ _ _)
    | (with_reducible refine Agree.foldl3 ?_ ?_; intro _ _ _)
    | (with_reducible refine Agree.foldl4 ?_ ?_; intro _ _ _)
    | dsimp only
    | split
    | (with_reducible refine Agree.of_pair (by assumption) ?_)
    | (with_reducible refine Agree.of_pair2 (by assumption) ?_)
    | intro _
theorem readOver_step {M s0} {s : State} {d : Desc} {c : Chan} {u : Nat} {l : List (Nat × Nat)} {get : Nat → PByte} (hs : bitsIn 0x80 M = true) (hA : Agree M s0 s) : Agree M s0 (readOver s d c u l get).2 :=
  hA.step hs (readOver_frame s d c u l get)

theorem writeOver_frame (s : State) (hit : Nat → Bool) (ws : List (Nat × List PByte)) : Agree 0x80 s (writeOver s hit ws).2 := by
  unfold writeOver
  repeat' first
    | with_reducible assumption
    | with_reducible exact Agree.refl _ _
    | exact bitsIn_rfl rfl
    | with_reducible refine freeBytes_step ?_ ?_
    | with_reducible refine Agree.ite ?_ ?_
    | (with_reducible refine Agree.foldl ?_ ?_; intro _ _ _)
    | (with_reducible refine Agree.foldl2 ?_ ?_; intro _ _ _)
    | (with_reducible refine Agree.foldl3 ?_ ?_; intro _ _ _)
    | (with_reducible refine Agree.foldl4 ?_ ?_; intro _ _ _)
    | dsimp only
    | split
    | (with_reducible refine Agree.of_pair (by assumption) ?_)
    | (with_reducible refine Agree.of_pair2 (by assumption) ?_)
    | intro _
theorem writeOver_step {M s0} {s : State} {hit : Nat → Bool} {ws : List (Nat × List PByte)} (hs : bitsIn 0x80 M = true) (hA : Agree M s0 s) : Agree M s0 (writeOver s hit ws).2 :=
  hA.step hs (writeOver_frame s hit ws)

theorem sendReads_frame (s : State) (u k : Nat) (d : Desc) (ps : List (Nat × Place)) (l : List (Nat × Nat)) :
    Agree 0x404002000400040800000000000000000000000000000580000004c4180 s (sendReads s u k d ps l).2 := by
  have key : ∀ l s0 s, Agree 0x404002000400040800000000000000000000000000000580000004c4180 s0 s → Agree 0x404002000400040800000000000000000000000000000580000004c4180 s0 (sendReads s u k d ps l).2 := by
    intro l
    induction l with
    | nil => intro s0 s h; exact h
    | cons x l ih =>
      intro s0 s h
      obtain ⟨va, n⟩ := x
      unfold sendReads
      split
      · dsimp only
        refine ih _ _ (Agree.ite (countR_step (bitsIn_rfl rfl) (regIn_rfl rfl rfl) ?_) ?_) <;> exact sendReq_step (bitsIn_rfl rfl) h
      · exact ih _ _ h
  exact key l s s (Agree.refl _ _)
theorem sendReads_step {M s0} {s : State} {u k : Nat} {d : Desc} {ps : List (Nat × Place)} {l : List (Nat × Nat)}
    (hs : bitsIn 0x404002000400040800000000000000000000000000000580000004c4180 M = true) (h : Agree M s0 s) : Agree M s0 (sendReads s u k d ps l).2 := h.step hs (sendReads_frame s u k d ps l)

theorem scrReader_frame (s : State) (u sp : Nat) (l : List (Nat × Nat)) : Agree 0x1c00000000000000000000000000000000000000000000200 s (scrReader s u sp l).2.2 := by
  unfold scrReader
  dsimp only
  exact Agree.foldl2 (fun r x h => scanWords_step (bitsIn_rfl rfl) h) (Agree.refl _ _)
theorem scrReader_step {M s0} {s : State} {u sp : Nat} {l : List (Nat × Nat)}
    (hs : bitsIn 0x1c00000000000000000000000000000000000000000000200 M = true) (h : Agree M s0 s) : Agree M s0 (scrReader s u sp l).2.2 := h.step hs (scrReader_frame s u sp l)

theorem dropReads_frame (s : State) (b : Burst) : Agree 0x100000000000000000000000404002800020060c02000000000000000000000000000780040014c7080 s (dropReads s b) := by
  unfold dropReads
  repeat' first
    | with_reducible assumption
    | with_reducible exact Agree.refl _ _
    | exact bitsIn_rfl rfl
    | exact regIn_rfl rfl rfl
    | with_reducible refine countPoison_step ?_ ?_
    | with_reducible refine dropReq_step ?_ ?_
    | with_reducible refine readMiss_step ?_ ?_
    | with_reducible refine Agree.ite ?_ ?_
    | (with_reducible refine Agree.foldl ?_ ?_; intro _ _ _)
    | (with_reducible refine Agree.foldl2 ?_ ?_; intro _ _ _)
    | (with_reducible refine Agree.foldl3 ?_ ?_; intro _ _ _)
    | (with_reducible refine Agree.foldl4 ?_ ?_; intro _ _ _)
    | dsimp only
    | split
    | (with_reducible refine Agree.of_pair (by assumption) ?_)
    | (with_reducible refine Agree.of_pair2 (by assumption) ?_)
    | intro _
theorem dropReads_step {M s0} {s : State} {b : Burst} (hs : bitsIn 0x100000000000000000000000404002800020060c02000000000000000000000000000780040014c7080 M = true) (hA : Agree M s0 s) : Agree M s0 (dropReads s b) :=
  hA.step hs (dropReads_frame s b)

theorem scrAdd_frame (s : State) (u : Nat) (d : Desc) (w : Nat × List PByte) : Agree 0x1c00000000000000000000000000000000000002000000200 s (scrAdd s u d w).2.2 := by
  unfold scrAdd
  repeat' first
    | with_reducible assumption
    | with_reducible exact Agree.refl _ _
    | exact bitsIn_rfl rfl
    | exact regIn_rfl rfl rfl
    | with_reducible refine scanWords_step ?_ ?_
    | with_reducible refine scrWrite_step ?_ ?_
    | with_reducible refine Agree.ite ?_ ?_
    | dsimp only
    | split
    | (with_reducible refine Agree.of_pair (by assumption) ?_)
    | (with_reducible refine Agree.of_pair2 (by assumption) ?_)
    | intro _
theorem scrAdd_step {M s0} {s : State} {u : Nat} {d : Desc} {w : Nat × List PByte} (hs : bitsIn 0x1c00000000000000000000000000000000000002000000200 M = true) (hA : Agree M s0 s) : Agree M s0 (scrAdd s u d w).2.2 :=
  hA.step hs (scrAdd_frame s u d w)

theorem devSend_frame (s : State) (u k : Nat) (d : Desc) (ps : List (Nat × Place)) (w : Nat × List PByte) : Agree 0x404002000800040800000000000000000000000004000580000004c4180 s (devSend s u k d ps w).2 := by
  unfold devSend
  repeat' first
    | with_reducible assumption
    | with_reducible exact Agree.refl _ _
    | exact bitsIn_rfl rfl
    | exact regIn_rfl rfl rfl
    | with_reducible refine countR_step ?_ ?_ ?_
    | with_reducible refine modCmd_step ?_ ?_
    | with_reducible refine putReq_step ?_ ?_
    | with_reducible refine Agree.ite ?_ ?_
    | dsimp only
    | split
    | (with_reducible refine Agree.of_pair (by assumption) ?_)
    | (with_reducible refine Agree.of_pair2 (by assumption) ?_)
    | intro _
theorem devSend_step {M s0} {s : State} {u k : Nat} {d : Desc} {ps : List (Nat × Place)} {w : Nat × List PByte} (hs : bitsIn 0x404002000800040800000000000000000000000004000580000004c4180 M = true) (hA : Agree M s0 s) : Agree M s0 (devSend s u k d ps w).2 :=
  hA.step hs (devSend_frame s u k d ps w)

theorem putAll_frame (s : State) (u k : Nat) (d : Desc) (held : List Xlat) (ws : List (Nat × List PByte)) : AgreePutRes 0x40400200081c040800000000000000000000000004000580020004c4380 s (putAll s u k d held ws) := by
  unfold putAll
  repeat' first
    | with_reducible assumption
    | with_reducible exact Agree.refl _ _
    | exact bitsIn_rfl rfl
    | exact regIn_rfl rfl rfl
    | with_reducible refine AgreePutRes.ite ?_ ?_
    | with_reducible refine AgreePutRes.refused ?_
    | with_reducible refine AgreePutRes.failed ?_
    | with_reducible refine AgreePutRes.ok ?_
    | with_reducible refine devSend_step ?_ ?_
    | with_reducible refine scrAdd_step ?_ ?_
    | with_reducible refine scrPutAll_step ?_ ?_
    | with_reducible refine Agree.ite ?_ ?_
    | (with_reducible refine Agree.foldl ?_ ?_; intro _ _ _)
    | (with_reducible refine Agree.foldl2 ?_ ?_; intro _ _ _)
    | (with_reducible refine Agree.foldl3 ?_ ?_; intro _ _ _)
    | (with_reducible refine Agree.foldl4 ?_ ?_; intro _ _ _)
    | dsimp only
    | split
    | (with_reducible refine Agree.of_pair (by assumption) ?_)
    | (with_reducible refine Agree.of_pair2 (by assumption) ?_)
    | intro _
theorem putAll_step {M s0} {s : State} {u k : Nat} {d : Desc} {held : List Xlat} {ws : List (Nat × List PByte)} (hs : bitsIn 0x40400200081c040800000000000000000000000004000580020004c4380 M = true) (hA : Agree M s0 s) : AgreePutRes M s0 (putAll s u k d held ws) :=
  hA.stepPutRes hs (putAll_frame s u k d held ws)

theorem refuseChan_frame (s : State) (u k : Nat) (d : Desc) (pages : List Nat) (held : List Xlat) (ps : List (Nat × Place)) : Agree 0x40000000000000000000000000000000000000012000002000000000000600000000518002300 s (refuseChan s u k d pages held ps) := by
  unfold refuseChan
  repeat' first
    | with_reducible assumption
    | with_reducible exact Agree.refl _ _
    | exact bitsIn_rfl rfl
    | exact regIn_rfl rfl rfl
    | with_reducible refine fresh_step ?_ ?_
    | with_reducible refine refuseTile_step ?_ ?_
    | with_reducible refine setChan_step ?_ ?_
    | with_reducible refine setTile_step ?_ ?_
    | with_reducible refine unstall_step ?_ ?_
    | with_reducible refine Agree.ite ?_ ?_
    | dsimp only
    | split
    | (with_reducible refine Agree.of_pair (by assumption) ?_)
    | (with_reducible refine Agree.of_pair2 (by assumption) ?_)
    | intro _
theorem refuseChan_step {M s0} {s : State} {u k : Nat} {d : Desc} {pages : List Nat} {held : List Xlat} {ps : List (Nat × Place)} (hs : bitsIn 0x40000000000000000000000000000000000000012000002000000000000600000000518002300 M = true) (hA : Agree M s0 s) : Agree M s0 (refuseChan s u k d pages held ps) :=
  hA.step hs (refuseChan_frame s u k d pages held ps)

theorem nextSeg_frame (s : State) (u k : Nat) (d : Desc) : Agree 0x4000000000000000004040020001bc040800001920300020000000000007800780035784c7b80 s (nextSeg s u k d) := by
  unfold nextSeg
  repeat' first
    | with_reducible assumption
    | with_reducible exact Agree.refl _ _
    | exact bitsIn_rfl rfl
    | exact regIn_rfl rfl rfl
    | with_reducible refine nextTile_step ?_ ?_
    | with_reducible refine setChan_step ?_ ?_
    | with_reducible refine Agree.ite ?_ ?_
    | dsimp only
    | split
    | (with_reducible refine Agree.of_pair (by assumption) ?_)
    | (with_reducible refine Agree.of_pair2 (by assumption) ?_)
    | intro _
theorem nextSeg_step {M s0} {s : State} {u k : Nat} {d : Desc} (hs : bitsIn 0x4000000000000000004040020001bc040800001920300020000000000007800780035784c7b80 M = true) (hA : Agree M s0 s) : Agree M s0 (nextSeg s u k d) :=
  hA.step hs (nextSeg_frame s u k d)

theorem execDescFront_frame (u k : Nat) (s : State) : AgreeO 0x4000000000000000004040020001bc040800001920300020000000000007800780035784c7b80 s (execDescFront u k s) := by
  unfold execDescFront
  repeat' first
    | with_reducible assumption
    | with_reducible exact Agree.refl _ _
    | exact bitsIn_rfl rfl
    | exact regIn_rfl rfl rfl
    | with_reducible refine AgreeO.next ?_
    | with_reducible refine AgreeO.ite ?_ ?_
    | with_reducible exact AgreeO.refused
    | with_reducible exact AgreeO.fault
    | with_reducible refine descOwner_step ?_ ?_
    | with_reducible refine moverFail_step ?_ ?_
    | with_reducible refine nextTile_step ?_ ?_
    | with_reducible refine popChan_step ?_ ?_
    | with_reducible refine raiseCredit_step ?_ ?_
    | with_reducible refine setChan_step ?_ ?_
    | with_reducible refine Agree.ite ?_ ?_
    | dsimp only
    | split
    | (with_reducible refine Agree.of_pair (by assumption) ?_)
    | (with_reducible refine Agree.of_pair2 (by assumption) ?_)
    | intro _
theorem execDescFront_step {M s0} {u k : Nat} {s : State} (hs : bitsIn 0x4000000000000000004040020001bc040800001920300020000000000007800780035784c7b80 M = true) (hA : Agree M s0 s) : AgreeO M s0 (execDescFront u k s) :=
  hA.stepO hs (execDescFront_frame u k s)

theorem issueReads_frame (s : State) (u k : Nat) (d : Desc) (sp : Nat) (last : Bool) (pieces : List Piece) (l : List (Nat × Nat)) (go : Chan → Chan) : Agree 0x4000000000000000004040020005bc040800000120300020000000000007800780035384c7b80 s (issueReads s u k d sp last pieces l go) := by
  unfold issueReads
  repeat' first
    | with_reducible assumption
    | with_reducible exact Agree.refl _ _
    | exact bitsIn_rfl rfl
    | exact regIn_rfl rfl rfl
    | with_reducible refine fresh_step ?_ ?_
    | with_reducible refine moverFail_step ?_ ?_
    | with_reducible refine refuseChan_step ?_ ?_
    | with_reducible refine sendReads_step ?_ ?_
    | with_reducible refine setChan_step ?_ ?_
    | with_reducible refine Agree.ite ?_ ?_
    | dsimp only
    | split
    | (with_reducible refine Agree.of_pair (by assumption) ?_)
    | (with_reducible refine Agree.of_pair2 (by assumption) ?_)
    | intro _
theorem issueReads_step {M s0} {s : State} {u k : Nat} {d : Desc} {sp : Nat} {last : Bool} {pieces : List Piece} {l : List (Nat × Nat)} {go : Chan → Chan} (hs : bitsIn 0x4000000000000000004040020005bc040800000120300020000000000007800780035384c7b80 M = true) (hA : Agree M s0 s) : Agree M s0 (issueReads s u k d sp last pieces l go) :=
  hA.step hs (issueReads_frame s u k d sp last pieces l go)

theorem execDescTranslated_frame (u k : Nat) (s : State) : AgreeO 0x4000000000000000004040020005bc040800001920300020000000000007800780035784c7b80 s (execDescTranslated u k s) := by
  unfold execDescTranslated
  repeat' first
    | with_reducible assumption
    | with_reducible exact Agree.refl _ _
    | exact bitsIn_rfl rfl
    | exact regIn_rfl rfl rfl
    | with_reducible refine AgreeO.next ?_
    | with_reducible refine AgreeO.ite ?_ ?_
    | with_reducible exact AgreeO.refused
    | with_reducible exact AgreeO.fault
    | with_reducible refine issueReads_step ?_ ?_
    | with_reducible refine nextSeg_step ?_ ?_
    | with_reducible refine setChan_step ?_ ?_
    | with_reducible refine Agree.ite ?_ ?_
    | dsimp only
    | split
    | (with_reducible refine Agree.of_pair (by assumption) ?_)
    | (with_reducible refine Agree.of_pair2 (by assumption) ?_)
    | intro _
theorem execDescTranslated_step {M s0} {u k : Nat} {s : State} (hs : bitsIn 0x4000000000000000004040020005bc040800001920300020000000000007800780035784c7b80 M = true) (hA : Agree M s0 s) : AgreeO M s0 (execDescTranslated u k s) :=
  hA.stepO hs (execDescTranslated_frame u k s)

theorem deliver_frame (s : State) (u k : Nat) (d : Desc) (b : Burst) (parts : Parts) : Agree 0x1000004000000000000000004040028009bc060c02001920300020000000000007800780075794c7b80 s (deliver s u k d b parts) := by
  unfold deliver
  repeat' first
    | with_reducible assumption
    | with_reducible exact Agree.refl _ _
    | exact bitsIn_rfl rfl
    | exact regIn_rfl rfl rfl
    | with_reducible refine dropReads_step ?_ ?_
    | with_reducible refine freeRanges_step ?_ ?_
    | with_reducible refine modQueue_step ?_ ?_
    | with_reducible refine moverFail_step ?_ ?_
    | with_reducible refine nextSeg_step ?_ ?_
    | with_reducible refine progress_step ?_ ?_
    | with_reducible refine putAll_step ?_ ?_
    | with_reducible refine raiseCredit_step ?_ ?_
    | with_reducible refine readOver_step ?_ ?_
    | with_reducible refine refuseChan_step ?_ ?_
    | with_reducible refine scrReader_step ?_ ?_
    | with_reducible refine setChan_step ?_ ?_
    | with_reducible refine writeOver_step ?_ ?_
    | (with_reducible refine AgreePutRes.of_refused ?_ (by assumption))
    | (with_reducible refine AgreePutRes.of_failed ?_ (by assumption))
    | (with_reducible refine AgreePutRes.of_ok ?_ (by assumption))
    | with_reducible refine Agree.ite ?_ ?_
    | (with_reducible refine Agree.foldl ?_ ?_; intro _ _ _)
    | (with_reducible refine Agree.foldl2 ?_ ?_; intro _ _ _)
    | (with_reducible refine Agree.foldl3 ?_ ?_; intro _ _ _)
    | (with_reducible refine Agree.foldl4 ?_ ?_; intro _ _ _)
    | dsimp only
    | split
    | (with_reducible refine Agree.of_pair (by assumption) ?_)
    | (with_reducible refine Agree.of_pair2 (by assumption) ?_)
    | intro _
theorem deliver_step {M s0} {s : State} {u k : Nat} {d : Desc} {b : Burst} {parts : Parts} (hs : bitsIn 0x1000004000000000000000004040028009bc060c02001920300020000000000007800780075794c7b80 M = true) (hA : Agree M s0 s) : Agree M s0 (deliver s u k d b parts) :=
  hA.step hs (deliver_frame s u k d b parts)

theorem waitPeers_frame (s : State) (u k : Nat) (l : List Nat) : Agree 0x2804000000000000000000000000000000000000000000000000000000000000002200 s (waitPeers s u k l) := by
  unfold waitPeers
  repeat' first
    | with_reducible assumption
    | with_reducible exact Agree.refl _ _
    | exact bitsIn_rfl rfl
    | exact regIn_rfl rfl rfl
    | with_reducible refine setChan_step ?_ ?_
    | with_reducible refine wakeCore_step ?_ ?_
    | with_reducible refine Agree.ite ?_ ?_
    | (with_reducible refine Agree.foldl ?_ ?_; intro _ _ _)
    | (with_reducible refine Agree.foldl2 ?_ ?_; intro _ _ _)
    | (with_reducible refine Agree.foldl3 ?_ ?_; intro _ _ _)
    | (with_reducible refine Agree.foldl4 ?_ ?_; intro _ _ _)
    | dsimp only
    | split
    | (with_reducible refine Agree.of_pair (by assumption) ?_)
    | (with_reducible refine Agree.of_pair2 (by assumption) ?_)
    | intro _
theorem waitPeers_step {M s0} {s : State} {u k : Nat} {l : List Nat} (hs : bitsIn 0x2804000000000000000000000000000000000000000000000000000000000000002200 M = true) (hA : Agree M s0 s) : Agree M s0 (waitPeers s u k l) :=
  hA.step hs (waitPeers_frame s u k l)

theorem execBurstStart_frame (u : Nat) (s : State) : AgreeO 0x100000400000000000000000404002800dbc060c02001920300020000000000007800780075794c7b80 s (execBurstStart u s) := by
  unfold execBurstStart
  repeat' first
    | with_reducible assumption
    | with_reducible exact Agree.refl _ _
    | exact bitsIn_rfl rfl
    | exact regIn_rfl rfl rfl
    | with_reducible refine AgreeO.next ?_
    | with_reducible refine AgreeO.ite ?_ ?_
    | with_reducible exact AgreeO.refused
    | with_reducible exact AgreeO.fault
    | with_reducible refine deliver_step ?_ ?_
    | with_reducible refine issueReads_step ?_ ?_
    | with_reducible refine setChan_step ?_ ?_
    | with_reducible refine setCredit_step ?_ ?_
    | ((conv => arg 3; arg 88; skip); with_reducible first | refine upd_movers ?_ ?_)
    | with_reducible refine Agree.ite ?_ ?_
    | (with_reducible refine Agree.foldl ?_ ?_; intro _ _ _)
    | (with_reducible refine Agree.foldl2 ?_ ?_; intro _ _ _)
    | (with_reducible refine Agree.foldl3 ?_ ?_; intro _ _ _)
    | (with_reducible refine Agree.foldl4 ?_ ?_; intro _ _ _)
    | dsimp only
    | split
    | (with_reducible refine Agree.of_pair (by assumption) ?_)
    | (with_reducible refine Agree.of_pair2 (by assumption) ?_)
    | intro _
theorem execBurstStart_step {M s0} {u : Nat} {s : State} (hs : bitsIn 0x100000400000000000000000404002800dbc060c02001920300020000000000007800780075794c7b80 M = true) (hA : Agree M s0 s) : AgreeO M s0 (execBurstStart u s) :=
  hA.stepO hs (execBurstStart_frame u s)

theorem stageDone_frame (s : State) (u k : Nat) (d : Desc) (f : Chan → Chan) : Agree 0x4000000000000000004040020001bc040800001920300020000000000007800780035784c7b80 s (stageDone s u k d f) := by
  unfold stageDone
  repeat' first
    | with_reducible assumption
    | with_reducible exact Agree.refl _ _
    | exact bitsIn_rfl rfl
    | exact regIn_rfl rfl rfl
    | with_reducible refine nextTile_step ?_ ?_
    | with_reducible refine setChan_step ?_ ?_
    | with_reducible refine Agree.ite ?_ ?_
    | dsimp only
    | split
    | (with_reducible refine Agree.of_pair (by assumption) ?_)
    | (with_reducible refine Agree.of_pair2 (by assumption) ?_)
    | intro _
theorem stageDone_step {M s0} {s : State} {u k : Nat} {d : Desc} {f : Chan → Chan} (hs : bitsIn 0x4000000000000000004040020001bc040800001920300020000000000007800780035784c7b80 M = true) (hA : Agree M s0 s) : Agree M s0 (stageDone s u k d f) :=
  hA.step hs (stageDone_frame s u k d f)

theorem stageBytes_of {M s0} {s : State} {u k : Nat} {d : Desc} {a : Nat} {b : List PByte} {t : State}
    (e : stageBytes s u k d = some (a, b, t)) (hs : bitsIn 0x10000000000000000000000040400280003c060c02000000000000000000000000000780040014c7280 M = true) (h : Agree M s0 s) : Agree M s0 t := by
  unfold stageBytes at e
  dsimp only at e
  split at e
  · exact absurd e (by simp)
  · split at e
    · exact absurd e (by simp)
    · simp only [Option.some.injEq, Prod.mk.injEq] at e
      obtain ⟨-, -, rfl⟩ := e
      refine dropReads_step (bitsIn_trans rfl hs) ?_
      split
      · exact h
      · exact scrReader_step (bitsIn_trans rfl hs) h

theorem withStage_step {M : Nat} {s0 : State} {s : State} {u k stage : Nat} {d : Desc} {ok : List PByte → State → State} (hs : bitsIn 0x1000000000000280400000004040028001bc060c02000020300000000000000007800780070394c7b80 M = true) (hk_ok : ∀ (a0 : List PByte) (a1 : State), Agree M s0 a1 → Agree M s0 (ok a0 a1)) (hA : Agree M s0 s) : Agree M s0 (withStage s u k stage d ok) := by
  unfold withStage
  repeat' first
    | with_reducible assumption
    | fail
    | exact bitsIn_trans rfl hs
    | exact regIn_sub rfl rfl hs
    | with_reducible refine moverFail_step ?_ ?_
    | (with_reducible refine stageBytes_of (by assumption) ?_ ?_)
    | with_reducible refine waitPeers_step ?_ ?_
    | with_reducible refine Agree.ite ?_ ?_
    | dsimp only
    | split
    | (with_reducible refine Agree.of_pair (by assumption) ?_)
    | (with_reducible refine Agree.of_pair2 (by assumption) ?_)
    | intro _
    | with_reducible refine hk_ok _ _ ?_

theorem execBstHeaderReturn_frame (u k : Nat) (s : State) : AgreeO 0x1000004000000280400000004040028001bc060c02001920300020000000000007800780075794c7b80 s (execBstHeaderReturn u k s) := by
  unfold execBstHeaderReturn
  repeat' first
    | with_reducible assumption
    | with_reducible exact Agree.refl _ _
    | exact bitsIn_rfl rfl
    | exact regIn_rfl rfl rfl
    | with_reducible refine AgreeO.next ?_
    | with_reducible refine AgreeO.ite ?_ ?_
    | with_reducible exact AgreeO.refused
    | with_reducible exact AgreeO.fault
    | with_reducible refine moverFail_step ?_ ?_
    | with_reducible refine stageDone_step ?_ ?_
    | with_reducible refine withStage_step ?_ ?_ ?_
    | with_reducible refine Agree.ite ?_ ?_
    | dsimp only
    | split
    | (with_reducible refine Agree.of_pair (by assumption) ?_)
    | (with_reducible refine Agree.of_pair2 (by assumption) ?_)
    | intro _
theorem execBstHeaderReturn_step {M s0} {u k : Nat} {s : State} (hs : bitsIn 0x1000004000000280400000004040028001bc060c02001920300020000000000007800780075794c7b80 M = true) (hA : Agree M s0 s) : AgreeO M s0 (execBstHeaderReturn u k s) :=
  hA.stepO hs (execBstHeaderReturn_frame u k s)

theorem execBstTileRow_frame (u k : Nat) (s : State) : AgreeO 0x1000004000000280400000004040028001bc060c02001920300020000000000007800780075794c7b80 s (execBstTileRow u k s) := by
  unfold execBstTileRow
  repeat' first
    | with_reducible assumption
    | with_reducible exact Agree.refl _ _
    | exact bitsIn_rfl rfl
    | exact regIn_rfl rfl rfl
    | with_reducible refine AgreeO.next ?_
    | with_reducible refine AgreeO.ite ?_ ?_
    | with_reducible exact AgreeO.refused
    | with_reducible exact AgreeO.fault
    | with_reducible refine moverFail_step ?_ ?_
    | with_reducible refine stageDone_step ?_ ?_
    | with_reducible refine withStage_step ?_ ?_ ?_
    | with_reducible refine Agree.ite ?_ ?_
    | (with_reducible refine Agree.foldl ?_ ?_; intro _ _ _)
    | (with_reducible refine Agree.foldl2 ?_ ?_; intro _ _ _)
    | (with_reducible refine Agree.foldl3 ?_ ?_; intro _ _ _)
    | (with_reducible refine Agree.foldl4 ?_ ?_; intro _ _ _)
    | dsimp only
    | split
    | (with_reducible refine Agree.of_pair (by assumption) ?_)
    | (with_reducible refine Agree.of_pair2 (by assumption) ?_)
    | intro _
theorem execBstTileRow_step {M s0} {u k : Nat} {s : State} (hs : bitsIn 0x1000004000000280400000004040028001bc060c02001920300020000000000007800780075794c7b80 M = true) (hA : Agree M s0 s) : AgreeO M s0 (execBstTileRow u k s) :=
  hA.stepO hs (execBstTileRow_frame u k s)

theorem indexReturn_frame (s : State) (u k : Nat) (d : Desc) : Agree 0x1000004000000280400000004040028001bc060c02001920300020000000000007800780075794c7b80 s (indexReturn s u k d) := by
  unfold indexReturn
  repeat' first
    | with_reducible assumption
    | with_reducible exact Agree.refl _ _
    | exact bitsIn_rfl rfl
    | exact regIn_rfl rfl rfl
    | with_reducible refine moverFail_step ?_ ?_
    | with_reducible refine stageDone_step ?_ ?_
    | with_reducible refine withStage_step ?_ ?_ ?_
    | with_reducible refine Agree.ite ?_ ?_
    | dsimp only
    | split
    | (with_reducible refine Agree.of_pair (by assumption) ?_)
    | (with_reducible refine Agree.of_pair2 (by assumption) ?_)
    | intro _
theorem indexReturn_step {M s0} {s : State} {u k : Nat} {d : Desc} (hs : bitsIn 0x1000004000000280400000004040028001bc060c02001920300020000000000007800780075794c7b80 M = true) (hA : Agree M s0 s) : Agree M s0 (indexReturn s u k d) :=
  hA.step hs (indexReturn_frame s u k d)

theorem listReturn_frame (s : State) (u k : Nat) (d : Desc) : Agree 0x1000004000000280400000004040028001bc060c02001920300020000000000007800780075794c7b80 s (listReturn s u k d) := by
  unfold listReturn
  repeat' first
    | with_reducible assumption
    | with_reducible exact Agree.refl _ _
    | exact bitsIn_rfl rfl
    | exact regIn_rfl rfl rfl
    | with_reducible refine moverFail_step ?_ ?_
    | with_reducible refine stageDone_step ?_ ?_
    | with_reducible refine withStage_step ?_ ?_ ?_
    | with_reducible refine Agree.ite ?_ ?_
    | dsimp only
    | split
    | (with_reducible refine Agree.of_pair (by assumption) ?_)
    | (with_reducible refine Agree.of_pair2 (by assumption) ?_)
    | intro _
theorem listReturn_step {M s0} {s : State} {u k : Nat} {d : Desc} (hs : bitsIn 0x1000004000000280400000004040028001bc060c02001920300020000000000007800780075794c7b80 M = true) (hA : Agree M s0 s) : Agree M s0 (listReturn s u k d) :=
  hA.step hs (listReturn_frame s u k d)

theorem execMoverReadReturn_frame (u k : Nat) (ups : List Upset) (s : State) : AgreeO 0x1000004000000280400000004040028009bc060c02001920300023000000000007800780075794c7b80 s (execMoverReadReturn u k ups s) := by
  unfold execMoverReadReturn
  repeat' first
    | with_reducible assumption
    | with_reducible exact Agree.refl _ _
    | exact bitsIn_rfl rfl
    | exact regIn_rfl rfl rfl
    | with_reducible refine AgreeO.next ?_
    | with_reducible refine AgreeO.ite ?_ ?_
    | with_reducible exact AgreeO.refused
    | with_reducible exact AgreeO.fault
    | with_reducible refine applyUpsets_step ?_ ?_
    | with_reducible refine countStale_step ?_ ?_
    | with_reducible refine deliver_step ?_ ?_
    | with_reducible refine dropReads_step ?_ ?_
    | with_reducible refine indexReturn_step ?_ ?_
    | with_reducible refine listReturn_step ?_ ?_
    | with_reducible refine moverFail_step ?_ ?_
    | with_reducible refine waitPeers_step ?_ ?_
    | with_reducible refine Agree.ite ?_ ?_
    | dsimp only
    | split
    | (with_reducible refine Agree.of_pair (by assumption) ?_)
    | (with_reducible refine Agree.of_pair2 (by assumption) ?_)
    | intro _
theorem execMoverReadReturn_step {M s0} {u k : Nat} {ups : List Upset} {s : State} (hs : bitsIn 0x1000004000000280400000004040028009bc060c02001920300023000000000007800780075794c7b80 M = true) (hA : Agree M s0 s) : AgreeO M s0 (execMoverReadReturn u k ups s) :=
  hA.stepO hs (execMoverReadReturn_frame u k ups s)

theorem execPeerAccessTimeout_frame (u k : Nat) (s : State) : AgreeO 0x4040020001bc040800000020300000000000000007800780030384c7b80 s (execPeerAccessTimeout u k s) := by
  unfold execPeerAccessTimeout
  repeat' first
    | with_reducible assumption
    | with_reducible exact Agree.refl _ _
    | exact bitsIn_rfl rfl
    | exact regIn_rfl rfl rfl
    | with_reducible refine AgreeO.next ?_
    | with_reducible refine AgreeO.ite ?_ ?_
    | with_reducible exact AgreeO.refused
    | with_reducible exact AgreeO.fault
    | with_reducible refine moverFail_step ?_ ?_
    | with_reducible refine Agree.ite ?_ ?_
    | dsimp only
    | split
    | (with_reducible refine Agree.of_pair (by assumption) ?_)
    | (with_reducible refine Agree.of_pair2 (by assumption) ?_)
    | intro _
theorem execPeerAccessTimeout_step {M s0} {u k : Nat} {s : State} (hs : bitsIn 0x4040020001bc040800000020300000000000000007800780030384c7b80 M = true) (hA : Agree M s0 s) : AgreeO M s0 (execPeerAccessTimeout u k s) :=
  hA.stepO hs (execPeerAccessTimeout_frame u k s)

theorem execDescComplete_frame (u k : Nat) (s : State) : AgreeO 0x400000028040000000404002000bbc040800001920300020000000000007800780035784c7b80 s (execDescComplete u k s) := by
  unfold execDescComplete
  repeat' first
    | with_reducible assumption
    | with_reducible exact Agree.refl _ _
    | exact bitsIn_rfl rfl
    | exact regIn_rfl rfl rfl
    | with_reducible refine AgreeO.next ?_
    | with_reducible refine AgreeO.ite ?_ ?_
    | with_reducible exact AgreeO.refused
    | with_reducible exact AgreeO.fault
    | with_reducible refine chanTile_step ?_ ?_
    | with_reducible refine countR_step ?_ ?_ ?_
    | with_reducible refine descOwner_step ?_ ?_
    | with_reducible refine endDesc_step ?_ ?_
    | with_reducible refine moverFail_step ?_ ?_
    | with_reducible refine putAll_step ?_ ?_
    | with_reducible refine raiseCredit_step ?_ ?_
    | with_reducible refine refuseChan_step ?_ ?_
    | with_reducible refine setChan_step ?_ ?_
    | with_reducible refine waitPeers_step ?_ ?_
    | (with_reducible refine AgreePutRes.of_refused ?_ (by assumption))
    | (with_reducible refine AgreePutRes.of_failed ?_ (by assumption))
    | (with_reducible refine AgreePutRes.of_ok ?_ (by assumption))
    | with_reducible refine Agree.ite ?_ ?_
    | dsimp only
    | split
    | (with_reducible refine Agree.of_pair (by assumption) ?_)
    | (with_reducible refine Agree.of_pair2 (by assumption) ?_)
    | intro _
theorem execDescComplete_step {M s0} {u k : Nat} {s : State} (hs : bitsIn 0x400000028040000000404002000bbc040800001920300020000000000007800780035784c7b80 M = true) (hA : Agree M s0 s) : AgreeO M s0 (execDescComplete u k s) :=
  hA.stepO hs (execDescComplete_frame u k s)

end Sys2Proof.Machine
end

