-- ==== Sys2Proof/Laws/FrameVInstr.lean ====
section
/-!
SUPPORT. The frame of every function of Machine/VInstr.lean that answers a state: the fields it can change, by mask.
-/

set_option linter.unusedTactic false
set_option linter.unreachableTactic false
set_option linter.unusedVariables false

namespace Sys2Proof.Machine

theorem vAlu_frame (s : State) (t : Th) (n : Nat) (f : Group → Nat → FVal) (nanIn : Group → Nat → Bool) : Agree 0x30000000000000000180000000000000a00 s (vAlu s t n f nanIn) := by
  unfold vAlu
  repeat' first
    | with_reducible assumption
    | with_reducible exact Agree.refl _ _
    | exact bitsIn_rfl rfl
    | exact regIn_rfl rfl rfl
    | with_reducible refine issueLocal_step ?_ ?_
    | with_reducible refine Agree.ite ?_ ?_
    | dsimp only
    | split
    | (with_reducible refine Agree.of_pair (by assumption) ?_)
    | (with_reducible refine Agree.of_pair2 (by assumption) ?_)
    | intro _
theorem vAlu_step {M s0} {s : State} {t : Th} {n : Nat} {f : Group → Nat → FVal} {nanIn : Group → Nat → Bool} (hs : bitsIn 0x30000000000000000180000000000000a00 M = true) (hA : Agree M s0 s) : Agree M s0 (vAlu s t n f nanIn) :=
  hA.step hs (vAlu_frame s t n f nanIn)

theorem execFadd_frame (t : Th) (s : State) : AgreeO 0x30000000000000000180000000000000a00 s (execFadd t s) := by
  unfold execFadd
  repeat' first
    | with_reducible assumption
    | with_reducible exact Agree.refl _ _
    | exact bitsIn_rfl rfl
    | exact regIn_rfl rfl rfl
    | with_reducible refine AgreeO.next ?_
    | with_reducible refine AgreeO.ite ?_ ?_
    | with_reducible exact AgreeO.refused
    | with_reducible exact AgreeO.fault
    | with_reducible refine vAlu_step ?_ ?_
    | with_reducible refine Agree.ite ?_ ?_
    | dsimp only
    | split
    | (with_reducible refine Agree.of_pair (by assumption) ?_)
    | (with_reducible refine Agree.of_pair2 (by assumption) ?_)
    | intro _
theorem execFadd_step {M s0} {t : Th} {s : State} (hs : bitsIn 0x30000000000000000180000000000000a00 M = true) (hA : Agree M s0 s) : AgreeO M s0 (execFadd t s) :=
  hA.stepO hs (execFadd_frame t s)

theorem execFsub_frame (t : Th) (s : State) : AgreeO 0x30000000000000000180000000000000a00 s (execFsub t s) := by
  unfold execFsub
  repeat' first
    | with_reducible assumption
    | with_reducible exact Agree.refl _ _
    | exact bitsIn_rfl rfl
    | exact regIn_rfl rfl rfl
    | with_reducible refine AgreeO.next ?_
    | with_reducible refine AgreeO.ite ?_ ?_
    | with_reducible exact AgreeO.refused
    | with_reducible exact AgreeO.fault
    | with_reducible refine vAlu_step ?_ ?_
    | with_reducible refine Agree.ite ?_ ?_
    | dsimp only
    | split
    | (with_reducible refine Agree.of_pair (by assumption) ?_)
    | (with_reducible refine Agree.of_pair2 (by assumption) ?_)
    | intro _
theorem execFsub_step {M s0} {t : Th} {s : State} (hs : bitsIn 0x30000000000000000180000000000000a00 M = true) (hA : Agree M s0 s) : AgreeO M s0 (execFsub t s) :=
  hA.stepO hs (execFsub_frame t s)

theorem execFmul_frame (t : Th) (s : State) : AgreeO 0x30000000000000000180000000000000a00 s (execFmul t s) := by
  unfold execFmul
  repeat' first
    | with_reducible assumption
    | with_reducible exact Agree.refl _ _
    | exact bitsIn_rfl rfl
    | exact regIn_rfl rfl rfl
    | with_reducible refine AgreeO.next ?_
    | with_reducible refine AgreeO.ite ?_ ?_
    | with_reducible exact AgreeO.refused
    | with_reducible exact AgreeO.fault
    | with_reducible refine vAlu_step ?_ ?_
    | with_reducible refine Agree.ite ?_ ?_
    | dsimp only
    | split
    | (with_reducible refine Agree.of_pair (by assumption) ?_)
    | (with_reducible refine Agree.of_pair2 (by assumption) ?_)
    | intro _
theorem execFmul_step {M s0} {t : Th} {s : State} (hs : bitsIn 0x30000000000000000180000000000000a00 M = true) (hA : Agree M s0 s) : AgreeO M s0 (execFmul t s) :=
  hA.stepO hs (execFmul_frame t s)

theorem execFfma_frame (t : Th) (s : State) : AgreeO 0x30000000000000000180000000000000a00 s (execFfma t s) := by
  unfold execFfma
  repeat' first
    | with_reducible assumption
    | with_reducible exact Agree.refl _ _
    | exact bitsIn_rfl rfl
    | exact regIn_rfl rfl rfl
    | with_reducible refine AgreeO.next ?_
    | with_reducible refine AgreeO.ite ?_ ?_
    | with_reducible exact AgreeO.refused
    | with_reducible exact AgreeO.fault
    | with_reducible refine vAlu_step ?_ ?_
    | with_reducible refine Agree.ite ?_ ?_
    | dsimp only
    | split
    | (with_reducible refine Agree.of_pair (by assumption) ?_)
    | (with_reducible refine Agree.of_pair2 (by assumption) ?_)
    | intro _
theorem execFfma_step {M s0} {t : Th} {s : State} (hs : bitsIn 0x30000000000000000180000000000000a00 M = true) (hA : Agree M s0 s) : AgreeO M s0 (execFfma t s) :=
  hA.stepO hs (execFfma_frame t s)

theorem execFmin_frame (t : Th) (s : State) : AgreeO 0x30000000000000000180000000000000a00 s (execFmin t s) := by
  unfold execFmin
  repeat' first
    | with_reducible assumption
    | with_reducible exact Agree.refl _ _
    | exact bitsIn_rfl rfl
    | exact regIn_rfl rfl rfl
    | with_reducible refine AgreeO.next ?_
    | with_reducible refine AgreeO.ite ?_ ?_
    | with_reducible exact AgreeO.refused
    | with_reducible exact AgreeO.fault
    | with_reducible refine vAlu_step ?_ ?_
    | with_reducible refine Agree.ite ?_ ?_
    | dsimp only
    | split
    | (with_reducible refine Agree.of_pair (by assumption) ?_)
    | (with_reducible refine Agree.of_pair2 (by assumption) ?_)
    | intro _
theorem execFmin_step {M s0} {t : Th} {s : State} (hs : bitsIn 0x30000000000000000180000000000000a00 M = true) (hA : Agree M s0 s) : AgreeO M s0 (execFmin t s) :=
  hA.stepO hs (execFmin_frame t s)

theorem execFmax_frame (t : Th) (s : State) : AgreeO 0x30000000000000000180000000000000a00 s (execFmax t s) := by
  unfold execFmax
  repeat' first
    | with_reducible assumption
    | with_reducible exact Agree.refl _ _
    | exact bitsIn_rfl rfl
    | exact regIn_rfl rfl rfl
    | with_reducible refine AgreeO.next ?_
    | with_reducible refine AgreeO.ite ?_ ?_
    | with_reducible exact AgreeO.refused
    | with_reducible exact AgreeO.fault
    | with_reducible refine vAlu_step ?_ ?_
    | with_reducible refine Agree.ite ?_ ?_
    | dsimp only
    | split
    | (with_reducible refine Agree.of_pair (by assumption) ?_)
    | (with_reducible refine Agree.of_pair2 (by assumption) ?_)
    | intro _
theorem execFmax_step {M s0} {t : Th} {s : State} (hs : bitsIn 0x30000000000000000180000000000000a00 M = true) (hA : Agree M s0 s) : AgreeO M s0 (execFmax t s) :=
  hA.stepO hs (execFmax_frame t s)

theorem execFabs_frame (t : Th) (s : State) : AgreeO 0x30000000000000000180000000000000a00 s (execFabs t s) := by
  unfold execFabs
  repeat' first
    | with_reducible assumption
    | with_reducible exact Agree.refl _ _
    | exact bitsIn_rfl rfl
    | exact regIn_rfl rfl rfl
    | with_reducible refine AgreeO.next ?_
    | with_reducible refine AgreeO.ite ?_ ?_
    | with_reducible exact AgreeO.refused
    | with_reducible exact AgreeO.fault
    | with_reducible refine vAlu_step ?_ ?_
    | with_reducible refine Agree.ite ?_ ?_
    | dsimp only
    | split
    | (with_reducible refine Agree.of_pair (by assumption) ?_)
    | (with_reducible refine Agree.of_pair2 (by assumption) ?_)
    | intro _
theorem execFabs_step {M s0} {t : Th} {s : State} (hs : bitsIn 0x30000000000000000180000000000000a00 M = true) (hA : Agree M s0 s) : AgreeO M s0 (execFabs t s) :=
  hA.stepO hs (execFabs_frame t s)

theorem execFneg_frame (t : Th) (s : State) : AgreeO 0x30000000000000000180000000000000a00 s (execFneg t s) := by
  unfold execFneg
  repeat' first
    | with_reducible assumption
    | with_reducible exact Agree.refl _ _
    | exact bitsIn_rfl rfl
    | exact regIn_rfl rfl rfl
    | with_reducible refine AgreeO.next ?_
    | with_reducible refine AgreeO.ite ?_ ?_
    | with_reducible exact AgreeO.refused
    | with_reducible exact AgreeO.fault
    | with_reducible refine vAlu_step ?_ ?_
    | with_reducible refine Agree.ite ?_ ?_
    | dsimp only
    | split
    | (with_reducible refine Agree.of_pair (by assumption) ?_)
    | (with_reducible refine Agree.of_pair2 (by assumption) ?_)
    | intro _
theorem execFneg_step {M s0} {t : Th} {s : State} (hs : bitsIn 0x30000000000000000180000000000000a00 M = true) (hA : Agree M s0 s) : AgreeO M s0 (execFneg t s) :=
  hA.stepO hs (execFneg_frame t s)

theorem execFsqrt_frame (t : Th) (s : State) : AgreeO 0x30000000000000000180000000000000a00 s (execFsqrt t s) := by
  unfold execFsqrt
  repeat' first
    | with_reducible assumption
    | with_reducible exact Agree.refl _ _
    | exact bitsIn_rfl rfl
    | exact regIn_rfl rfl rfl
    | with_reducible refine AgreeO.next ?_
    | with_reducible refine AgreeO.ite ?_ ?_
    | with_reducible exact AgreeO.refused
    | with_reducible exact AgreeO.fault
    | with_reducible refine vAlu_step ?_ ?_
    | with_reducible refine Agree.ite ?_ ?_
    | dsimp only
    | split
    | (with_reducible refine Agree.of_pair (by assumption) ?_)
    | (with_reducible refine Agree.of_pair2 (by assumption) ?_)
    | intro _
theorem execFsqrt_step {M s0} {t : Th} {s : State} (hs : bitsIn 0x30000000000000000180000000000000a00 M = true) (hA : Agree M s0 s) : AgreeO M s0 (execFsqrt t s) :=
  hA.stepO hs (execFsqrt_frame t s)

theorem execFsetp_frame (cond : BitVec 3) (t : Th) (s : State) : AgreeO 0x30000000000000000180000000000000a00 s (execFsetp cond t s) := by
  unfold execFsetp
  repeat' first
    | with_reducible assumption
    | with_reducible exact Agree.refl _ _
    | exact bitsIn_rfl rfl
    | exact regIn_rfl rfl rfl
    | with_reducible refine AgreeO.next ?_
    | with_reducible refine AgreeO.ite ?_ ?_
    | with_reducible exact AgreeO.refused
    | with_reducible exact AgreeO.fault
    | with_reducible refine issueLocal_step ?_ ?_
    | with_reducible refine Agree.ite ?_ ?_
    | dsimp only
    | split
    | (with_reducible refine Agree.of_pair (by assumption) ?_)
    | (with_reducible refine Agree.of_pair2 (by assumption) ?_)
    | intro _
theorem execFsetp_step {M s0} {cond : BitVec 3} {t : Th} {s : State} (hs : bitsIn 0x30000000000000000180000000000000a00 M = true) (hA : Agree M s0 s) : AgreeO M s0 (execFsetp cond t s) :=
  hA.stepO hs (execFsetp_frame cond t s)

theorem vApprox_frame (s : State) (t : Th) (op : Nat) : Agree 0x30000000000000000180000000000000a00 s (vApprox s t op) := by
  unfold vApprox
  repeat' first
    | with_reducible assumption
    | with_reducible exact Agree.refl _ _
    | exact bitsIn_rfl rfl
    | exact regIn_rfl rfl rfl
    | with_reducible refine issueLocal_step ?_ ?_
    | with_reducible refine Agree.ite ?_ ?_
    | dsimp only
    | split
    | (with_reducible refine Agree.of_pair (by assumption) ?_)
    | (with_reducible refine Agree.of_pair2 (by assumption) ?_)
    | intro _
theorem vApprox_step {M s0} {s : State} {t : Th} {op : Nat} (hs : bitsIn 0x30000000000000000180000000000000a00 M = true) (hA : Agree M s0 s) : Agree M s0 (vApprox s t op) :=
  hA.step hs (vApprox_frame s t op)

theorem execFrcp_frame (t : Th) (s : State) : AgreeO 0x30000000000000000180000000000000a00 s (execFrcp t s) := by
  unfold execFrcp
  repeat' first
    | with_reducible assumption
    | with_reducible exact Agree.refl _ _
    | exact bitsIn_rfl rfl
    | exact regIn_rfl rfl rfl
    | with_reducible refine AgreeO.next ?_
    | with_reducible refine AgreeO.ite ?_ ?_
    | with_reducible exact AgreeO.refused
    | with_reducible exact AgreeO.fault
    | with_reducible refine vApprox_step ?_ ?_
    | with_reducible refine Agree.ite ?_ ?_
    | dsimp only
    | split
    | (with_reducible refine Agree.of_pair (by assumption) ?_)
    | (with_reducible refine Agree.of_pair2 (by assumption) ?_)
    | intro _
theorem execFrcp_step {M s0} {t : Th} {s : State} (hs : bitsIn 0x30000000000000000180000000000000a00 M = true) (hA : Agree M s0 s) : AgreeO M s0 (execFrcp t s) :=
  hA.stepO hs (execFrcp_frame t s)

theorem execFrsq_frame (t : Th) (s : State) : AgreeO 0x30000000000000000180000000000000a00 s (execFrsq t s) := by
  unfold execFrsq
  repeat' first
    | with_reducible assumption
    | with_reducible exact Agree.refl _ _
    | exact bitsIn_rfl rfl
    | exact regIn_rfl rfl rfl
    | with_reducible refine AgreeO.next ?_
    | with_reducible refine AgreeO.ite ?_ ?_
    | with_reducible exact AgreeO.refused
    | with_reducible exact AgreeO.fault
    | with_reducible refine vApprox_step ?_ ?_
    | with_reducible refine Agree.ite ?_ ?_
    | dsimp only
    | split
    | (with_reducible refine Agree.of_pair (by assumption) ?_)
    | (with_reducible refine Agree.of_pair2 (by assumption) ?_)
    | intro _
theorem execFrsq_step {M s0} {t : Th} {s : State} (hs : bitsIn 0x30000000000000000180000000000000a00 M = true) (hA : Agree M s0 s) : AgreeO M s0 (execFrsq t s) :=
  hA.stepO hs (execFrsq_frame t s)

theorem execFexp2_frame (t : Th) (s : State) : AgreeO 0x30000000000000000180000000000000a00 s (execFexp2 t s) := by
  unfold execFexp2
  repeat' first
    | with_reducible assumption
    | with_reducible exact Agree.refl _ _
    | exact bitsIn_rfl rfl
    | exact regIn_rfl rfl rfl
    | with_reducible refine AgreeO.next ?_
    | with_reducible refine AgreeO.ite ?_ ?_
    | with_reducible exact AgreeO.refused
    | with_reducible exact AgreeO.fault
    | with_reducible refine vApprox_step ?_ ?_
    | with_reducible refine Agree.ite ?_ ?_
    | dsimp only
    | split
    | (with_reducible refine Agree.of_pair (by assumption) ?_)
    | (with_reducible refine Agree.of_pair2 (by assumption) ?_)
    | intro _
theorem execFexp2_step {M s0} {t : Th} {s : State} (hs : bitsIn 0x30000000000000000180000000000000a00 M = true) (hA : Agree M s0 s) : AgreeO M s0 (execFexp2 t s) :=
  hA.stepO hs (execFexp2_frame t s)

theorem execFlog2_frame (t : Th) (s : State) : AgreeO 0x30000000000000000180000000000000a00 s (execFlog2 t s) := by
  unfold execFlog2
  repeat' first
    | with_reducible assumption
    | with_reducible exact Agree.refl _ _
    | exact bitsIn_rfl rfl
    | exact regIn_rfl rfl rfl
    | with_reducible refine AgreeO.next ?_
    | with_reducible refine AgreeO.ite ?_ ?_
    | with_reducible exact AgreeO.refused
    | with_reducible exact AgreeO.fault
    | with_reducible refine vApprox_step ?_ ?_
    | with_reducible refine Agree.ite ?_ ?_
    | dsimp only
    | split
    | (with_reducible refine Agree.of_pair (by assumption) ?_)
    | (with_reducible refine Agree.of_pair2 (by assumption) ?_)
    | intro _
theorem execFlog2_step {M s0} {t : Th} {s : State} (hs : bitsIn 0x30000000000000000180000000000000a00 M = true) (hA : Agree M s0 s) : AgreeO M s0 (execFlog2 t s) :=
  hA.stepO hs (execFlog2_frame t s)

theorem execFtanh_frame (t : Th) (s : State) : AgreeO 0x30000000000000000180000000000000a00 s (execFtanh t s) := by
  unfold execFtanh
  repeat' first
    | with_reducible assumption
    | with_reducible exact Agree.refl _ _
    | exact bitsIn_rfl rfl
    | exact regIn_rfl rfl rfl
    | with_reducible refine AgreeO.next ?_
    | with_reducible refine AgreeO.ite ?_ ?_
    | with_reducible exact AgreeO.refused
    | with_reducible exact AgreeO.fault
    | with_reducible refine vApprox_step ?_ ?_
    | with_reducible refine Agree.ite ?_ ?_
    | dsimp only
    | split
    | (with_reducible refine Agree.of_pair (by assumption) ?_)
    | (with_reducible refine Agree.of_pair2 (by assumption) ?_)
    | intro _
theorem execFtanh_step {M s0} {t : Th} {s : State} (hs : bitsIn 0x30000000000000000180000000000000a00 M = true) (hA : Agree M s0 s) : AgreeO M s0 (execFtanh t s) :=
  hA.stepO hs (execFtanh_frame t s)

theorem execFsigm_frame (t : Th) (s : State) : AgreeO 0x30000000000000000180000000000000a00 s (execFsigm t s) := by
  unfold execFsigm
  repeat' first
    | with_reducible assumption
    | with_reducible exact Agree.refl _ _
    | exact bitsIn_rfl rfl
    | exact regIn_rfl rfl rfl
    | with_reducible refine AgreeO.next ?_
    | with_reducible refine AgreeO.ite ?_ ?_
    | with_reducible exact AgreeO.refused
    | with_reducible exact AgreeO.fault
    | with_reducible refine vApprox_step ?_ ?_
    | with_reducible refine Agree.ite ?_ ?_
    | dsimp only
    | split
    | (with_reducible refine Agree.of_pair (by assumption) ?_)
    | (with_reducible refine Agree.of_pair2 (by assumption) ?_)
    | intro _
theorem execFsigm_step {M s0} {t : Th} {s : State} (hs : bitsIn 0x30000000000000000180000000000000a00 M = true) (hA : Agree M s0 s) : AgreeO M s0 (execFsigm t s) :=
  hA.stepO hs (execFsigm_frame t s)

theorem execCvt_frame (t : Th) (s : State) : AgreeO 0x30000000000000000180000000000000a00 s (execCvt t s) := by
  unfold execCvt
  repeat' first
    | with_reducible assumption
    | with_reducible exact Agree.refl _ _
    | exact bitsIn_rfl rfl
    | exact regIn_rfl rfl rfl
    | with_reducible refine AgreeO.next ?_
    | with_reducible refine AgreeO.ite ?_ ?_
    | with_reducible exact AgreeO.refused
    | with_reducible exact AgreeO.fault
    | with_reducible refine issueLocal_step ?_ ?_
    | with_reducible refine Agree.ite ?_ ?_
    | dsimp only
    | split
    | (with_reducible refine Agree.of_pair (by assumption) ?_)
    | (with_reducible refine Agree.of_pair2 (by assumption) ?_)
    | intro _
theorem execCvt_step {M s0} {t : Th} {s : State} (hs : bitsIn 0x30000000000000000180000000000000a00 M = true) (hA : Agree M s0 s) : AgreeO M s0 (execCvt t s) :=
  hA.stepO hs (execCvt_frame t s)

theorem vReduce_frame (s : State) (t : Th) (f : Group → Word → Word × Flags) : Agree 0x30000000000000000180000000000000a00 s (vReduce s t f) := by
  unfold vReduce
  repeat' first
    | with_reducible assumption
    | with_reducible exact Agree.refl _ _
    | exact bitsIn_rfl rfl
    | exact regIn_rfl rfl rfl
    | with_reducible refine issueLocal_step ?_ ?_
    | with_reducible refine Agree.ite ?_ ?_
    | dsimp only
    | split
    | (with_reducible refine Agree.of_pair (by assumption) ?_)
    | (with_reducible refine Agree.of_pair2 (by assumption) ?_)
    | intro _
theorem vReduce_step {M s0} {s : State} {t : Th} {f : Group → Word → Word × Flags} (hs : bitsIn 0x30000000000000000180000000000000a00 M = true) (hA : Agree M s0 s) : Agree M s0 (vReduce s t f) :=
  hA.step hs (vReduce_frame s t f)

theorem execFredadd_frame (t : Th) (s : State) : AgreeO 0x30000000000000000180000000000000a00 s (execFredadd t s) := by
  unfold execFredadd
  repeat' first
    | with_reducible assumption
    | with_reducible exact Agree.refl _ _
    | exact bitsIn_rfl rfl
    | exact regIn_rfl rfl rfl
    | with_reducible refine AgreeO.next ?_
    | with_reducible refine AgreeO.ite ?_ ?_
    | with_reducible exact AgreeO.refused
    | with_reducible exact AgreeO.fault
    | with_reducible refine vReduce_step ?_ ?_
    | with_reducible refine Agree.ite ?_ ?_
    | dsimp only
    | split
    | (with_reducible refine Agree.of_pair (by assumption) ?_)
    | (with_reducible refine Agree.of_pair2 (by assumption) ?_)
    | intro _
theorem execFredadd_step {M s0} {t : Th} {s : State} (hs : bitsIn 0x30000000000000000180000000000000a00 M = true) (hA : Agree M s0 s) : AgreeO M s0 (execFredadd t s) :=
  hA.stepO hs (execFredadd_frame t s)

theorem execFredmax_frame (t : Th) (s : State) : AgreeO 0x30000000000000000180000000000000a00 s (execFredmax t s) := by
  unfold execFredmax
  repeat' first
    | with_reducible assumption
    | with_reducible exact Agree.refl _ _
    | exact bitsIn_rfl rfl
    | exact regIn_rfl rfl rfl
    | with_reducible refine AgreeO.next ?_
    | with_reducible refine AgreeO.ite ?_ ?_
    | with_reducible exact AgreeO.refused
    | with_reducible exact AgreeO.fault
    | with_reducible refine vReduce_step ?_ ?_
    | with_reducible refine Agree.ite ?_ ?_
    | (with_reducible refine Agree.foldl ?_ ?_; intro _ _ _)
    | (with_reducible refine Agree.foldl2 ?_ ?_; intro _ _ _)
    | (with_reducible refine Agree.foldl3 ?_ ?_; intro _ _ _)
    | (with_reducible refine Agree.foldl4 ?_ ?_; intro _ _ _)
    | dsimp only
    | split
    | (with_reducible refine Agree.of_pair (by assumption) ?_)
    | (with_reducible refine Agree.of_pair2 (by assumption) ?_)
    | intro _
theorem execFredmax_step {M s0} {t : Th} {s : State} (hs : bitsIn 0x30000000000000000180000000000000a00 M = true) (hA : Agree M s0 s) : AgreeO M s0 (execFredmax t s) :=
  hA.stepO hs (execFredmax_frame t s)

end Sys2Proof.Machine
end

