-- ==== Sys2Proof/Laws/FrameGate.lean ====
section
/-!
SUPPORT. The frame of every function of Machine/Gate.lean that answers a state: the fields it can change, by mask.
-/

set_option linter.unusedTactic false
set_option linter.unreachableTactic false
set_option linter.unusedVariables false

namespace Sys2Proof.Machine

theorem dropPlan_frame (s : State) (w k : Nat) : Agree 0x3000000000 s (dropPlan s w k) := by
  unfold dropPlan
  repeat' first
    | with_reducible assumption
    | with_reducible exact Agree.refl _ _
    | exact bitsIn_rfl rfl
    | with_reducible refine doomIf_step ?_ ?_
    | with_reducible refine modGate_step ?_ ?_
    | ((conv => arg 3; arg 88; skip); with_reducible first | refine upd_landing ?_ ?_)
    | with_reducible refine Agree.ite ?_ ?_
    | dsimp only
    | split
    | (with_reducible refine Agree.of_pair (by assumption) ?_)
    | (with_reducible refine Agree.of_pair2 (by assumption) ?_)
    | intro _
theorem dropPlan_step {M s0} {s : State} {w k : Nat} (hs : bitsIn 0x3000000000 M = true) (hA : Agree M s0 s) : Agree M s0 (dropPlan s w k) :=
  hA.step hs (dropPlan_frame s w k)

theorem freeBits_frame (s : State) (w : Nat) (j : GateJob) : Agree 0x400000000000000000404302800000040800001800000020000000000000000580000c04fc180 s (freeBits s w j) := by
  unfold freeBits
  repeat' first
    | with_reducible assumption
    | with_reducible exact Agree.refl _ _
    | exact bitsIn_rfl rfl
    | exact regIn_rfl rfl rfl
    | with_reducible refine devRead_step ?_ ?_
    | with_reducible refine devWrite_step ?_ ?_
    | with_reducible refine freeBytes_step ?_ ?_
    | with_reducible refine Agree.ite ?_ ?_
    | (with_reducible refine Agree.foldl ?_ ?_; intro _ _ _)
    | (with_reducible refine Agree.foldl2 ?_ ?_; intro _ _ _)
    | (with_reducible refine Agree.foldl3 ?_ ?_; intro _ _ _)
    | (with_reducible refine Agree.foldl4 ?_ ?_; intro _ _ _)
    | dsimp only
    | split
    | (with_reducible refine Agree.of_pair (by assumption) ?_)
    | (with_reducible refine Agree.of_pair2 (by assumption) ?_)
    | intro _
theorem freeBits_step {M s0} {s : State} {w : Nat} {j : GateJob} (hs : bitsIn 0x400000000000000000404302800000040800001800000020000000000000000580000c04fc180 M = true) (hA : Agree M s0 s) : Agree M s0 (freeBits s w j) :=
  hA.step hs (freeBits_frame s w j)

theorem freeOutputs_frame (s : State) (w : Nat) (j : GateJob) : Agree 0x400000000000000000404302800000040800001800000020000000000000000580000c04fc180 s (freeOutputs s w j) := by
  unfold freeOutputs
  repeat' first
    | with_reducible assumption
    | with_reducible exact Agree.refl _ _
    | exact bitsIn_rfl rfl
    | exact regIn_rfl rfl rfl
    | with_reducible refine devWrite_step ?_ ?_
    | with_reducible refine freeBits_step ?_ ?_
    | with_reducible refine freeBytes_step ?_ ?_
    | with_reducible refine Agree.ite ?_ ?_
    | (with_reducible refine Agree.foldl ?_ ?_; intro _ _ _)
    | (with_reducible refine Agree.foldl2 ?_ ?_; intro _ _ _)
    | (with_reducible refine Agree.foldl3 ?_ ?_; intro _ _ _)
    | (with_reducible refine Agree.foldl4 ?_ ?_; intro _ _ _)
    | dsimp only
    | split
    | (with_reducible refine Agree.of_pair (by assumption) ?_)
    | (with_reducible refine Agree.of_pair2 (by assumption) ?_)
    | intro _
theorem freeOutputs_step {M s0} {s : State} {w : Nat} {j : GateJob} (hs : bitsIn 0x400000000000000000404302800000040800001800000020000000000000000580000c04fc180 M = true) (hA : Agree M s0 s) : Agree M s0 (freeOutputs s w j) :=
  hA.step hs (freeOutputs_frame s w j)

theorem gateFail_frame (s : State) (w : Nat) (j : GateJob) (code : Nat) (wrote : Bool) : Agree 0x400000000000000000404302800000040800001800000020000000000000000580030c04fc180 s (gateFail s w j code wrote) := by
  unfold gateFail
  repeat' first
    | with_reducible assumption
    | with_reducible exact Agree.refl _ _
    | exact bitsIn_rfl rfl
    | exact regIn_rfl rfl rfl
    | with_reducible refine dropPlan_step ?_ ?_
    | with_reducible refine freeOutputs_step ?_ ?_
    | with_reducible refine modRun_step ?_ ?_
    | with_reducible refine Agree.ite ?_ ?_
    | dsimp only
    | split
    | (with_reducible refine Agree.of_pair (by assumption) ?_)
    | (with_reducible refine Agree.of_pair2 (by assumption) ?_)
    | intro _
theorem gateFail_step {M s0} {s : State} {w : Nat} {j : GateJob} {code : Nat} {wrote : Bool} (hs : bitsIn 0x400000000000000000404302800000040800001800000020000000000000000580030c04fc180 M = true) (hA : Agree M s0 s) : Agree M s0 (gateFail s w j code wrote) :=
  hA.step hs (gateFail_frame s w j code wrote)

theorem squashWing_frame (s : State) (w : Nat) : Agree 0x2000000000 s (squashWing s w) := by
  unfold squashWing
  repeat' first
    | with_reducible assumption
    | with_reducible exact Agree.refl _ _
    | exact bitsIn_rfl rfl
    | with_reducible refine doomIf_step ?_ ?_
    | with_reducible refine Agree.ite ?_ ?_
    | dsimp only
    | split
    | (with_reducible refine Agree.of_pair (by assumption) ?_)
    | (with_reducible refine Agree.of_pair2 (by assumption) ?_)
    | intro _
theorem squashWing_step {M s0} {s : State} {w : Nat} (hs : bitsIn 0x2000000000 M = true) (hA : Agree M s0 s) : Agree M s0 (squashWing s w) :=
  hA.step hs (squashWing_frame s w)

theorem stepWgen_frame (s : State) (w : Nat) : Agree 0x400000000000000000000000000000000000000000000000000 s (stepWgen s w) := by
  unfold stepWgen
  repeat' first
    | with_reducible assumption
    | with_reducible exact Agree.refl _ _
    | exact bitsIn_rfl rfl
    | exact regIn_rfl rfl rfl
    | with_reducible refine setF_step ?_ ?_ ?_
    | with_reducible refine Agree.ite ?_ ?_
    | dsimp only
    | split
    | (with_reducible refine Agree.of_pair (by assumption) ?_)
    | (with_reducible refine Agree.of_pair2 (by assumption) ?_)
    | intro _
theorem stepWgen_step {M s0} {s : State} {w : Nat} (hs : bitsIn 0x400000000000000000000000000000000000000000000000000 M = true) (hA : Agree M s0 s) : Agree M s0 (stepWgen s w) :=
  hA.step hs (stepWgen_frame s w)

theorem gateClear_frame (s : State) (w : Nat) : Agree 0x404002000020040800000000000000000000000000000780000004c7080 s (gateClear s w) := by
  unfold gateClear
  repeat' first
    | with_reducible assumption
    | with_reducible exact Agree.refl _ _
    | exact bitsIn_rfl rfl
    | exact regIn_rfl rfl rfl
    | with_reducible refine forgetReqs_step ?_ ?_
    | with_reducible refine Agree.ite ?_ ?_
    | dsimp only
    | split
    | (with_reducible refine Agree.of_pair (by assumption) ?_)
    | (with_reducible refine Agree.of_pair2 (by assumption) ?_)
    | intro _
theorem gateClear_step {M s0} {s : State} {w : Nat} (hs : bitsIn 0x404002000020040800000000000000000000000000000780000004c7080 M = true) (hA : Agree M s0 s) : Agree M s0 (gateClear s w) :=
  hA.step hs (gateClear_frame s w)

theorem execForget_frame (w : Nat) (s : State) : AgreeO 0x400000000000000000000000000000000000000003000000000 s (execForget w s) := by
  unfold execForget
  repeat' first
    | with_reducible assumption
    | with_reducible exact Agree.refl _ _
    | exact bitsIn_rfl rfl
    | exact regIn_rfl rfl rfl
    | with_reducible refine AgreeO.next ?_
    | with_reducible refine AgreeO.ite ?_ ?_
    | with_reducible exact AgreeO.refused
    | with_reducible exact AgreeO.fault
    | with_reducible refine modGate_step ?_ ?_
    | with_reducible refine squashWing_step ?_ ?_
    | with_reducible refine stepWgen_step ?_ ?_
    | with_reducible refine Agree.ite ?_ ?_
    | dsimp only
    | split
    | (with_reducible refine Agree.of_pair (by assumption) ?_)
    | (with_reducible refine Agree.of_pair2 (by assumption) ?_)
    | intro _
theorem execForget_step {M s0} {w : Nat} {s : State} (hs : bitsIn 0x400000000000000000000000000000000000000003000000000 M = true) (hA : Agree M s0 s) : AgreeO M s0 (execForget w s) :=
  hA.stepO hs (execForget_frame w s)

theorem execGateCtrlWrite_frame (w v : Nat) (s : State) : AgreeO 0x100000000000000000000000000000000000000002000000000 s (execGateCtrlWrite w v s) := by
  unfold execGateCtrlWrite
  repeat' first
    | with_reducible assumption
    | with_reducible exact Agree.refl _ _
    | exact bitsIn_rfl rfl
    | exact regIn_rfl rfl rfl
    | with_reducible refine AgreeO.next ?_
    | with_reducible refine AgreeO.ite ?_ ?_
    | with_reducible exact AgreeO.refused
    | with_reducible exact AgreeO.fault
    | with_reducible refine setR_step ?_ ?_ ?_
    | with_reducible refine squashWing_step ?_ ?_
    | with_reducible refine Agree.ite ?_ ?_
    | dsimp only
    | split
    | (with_reducible refine Agree.of_pair (by assumption) ?_)
    | (with_reducible refine Agree.of_pair2 (by assumption) ?_)
    | intro _
theorem execGateCtrlWrite_step {M s0} {w v : Nat} {s : State} (hs : bitsIn 0x100000000000000000000000000000000000000002000000000 M = true) (hA : Agree M s0 s) : AgreeO M s0 (execGateCtrlWrite w v s) :=
  hA.stepO hs (execGateCtrlWrite_frame w v s)

theorem execSquashAll_frame (w : Nat) (s : State) : AgreeO 0x2000000000 s (execSquashAll w s) := by
  unfold execSquashAll
  repeat' first
    | with_reducible assumption
    | with_reducible exact Agree.refl _ _
    | exact bitsIn_rfl rfl
    | with_reducible refine AgreeO.next ?_
    | with_reducible refine AgreeO.ite ?_ ?_
    | with_reducible exact AgreeO.refused
    | with_reducible exact AgreeO.fault
    | with_reducible refine squashWing_step ?_ ?_
    | with_reducible refine Agree.ite ?_ ?_
    | dsimp only
    | split
    | (with_reducible refine Agree.of_pair (by assumption) ?_)
    | (with_reducible refine Agree.of_pair2 (by assumption) ?_)
    | intro _
theorem execSquashAll_step {M s0} {w : Nat} {s : State} (hs : bitsIn 0x2000000000 M = true) (hA : Agree M s0 s) : AgreeO M s0 (execSquashAll w s) :=
  hA.stepO hs (execSquashAll_frame w s)

theorem gateStall_frame (s : State) (w : Nat) (j : GateJob) (rights : Nat) (fs : List TileFault) : Agree 0x404002000020040800000120000000000000000000000780005184c7180 s (gateStall s w j rights fs) := by
  unfold gateStall
  repeat' first
    | with_reducible assumption
    | with_reducible exact Agree.refl _ _
    | exact bitsIn_rfl rfl
    | exact regIn_rfl rfl rfl
    | with_reducible refine devDone_step ?_ ?_
    | with_reducible refine fresh_step ?_ ?_
    | with_reducible refine stallTile_step ?_ ?_
    | with_reducible refine Agree.ite ?_ ?_
    | dsimp only
    | split
    | (with_reducible refine Agree.of_pair (by assumption) ?_)
    | (with_reducible refine Agree.of_pair2 (by assumption) ?_)
    | intro _
theorem gateStall_step {M s0} {s : State} {w : Nat} {j : GateJob} {rights : Nat} {fs : List TileFault} (hs : bitsIn 0x404002000020040800000120000000000000000000000780005184c7180 M = true) (hA : Agree M s0 s) : Agree M s0 (gateStall s w j rights fs) :=
  hA.step hs (gateStall_frame s w j rights fs)

theorem gateParts_step {M s0} {w : Nat} {j : GateJob} {s : State} {l : List (Nat × Nat)} {acc : List PByte}
    {k : List PByte → State → State} (hs : bitsIn 0x400000000000000000404302800020040800001920000020000000000000000780035d84ff180 M = true) (hk : ∀ a t, Agree M s0 t → Agree M s0 (k a t))
    (h : Agree M s0 s) : Agree M s0 (gateParts w j s l acc k) := by
  induction l generalizing s acc with
  | nil => exact hk _ _ h
  | cons p ps ih =>
    unfold gateParts
    have h2 : Agree M s0 (devRead s (jobSlot s j).2 (gateQ w) 1 p.1 p.2).2 := devRead_step (bitsIn_trans rfl hs) h
    split
    · rename_i e; rw [e] at h2; exact ih h2
    · rename_i e; rw [e] at h2; exact h2
    · rename_i e; rw [e] at h2; exact gateStall_step (bitsIn_trans rfl hs) h2
    · rename_i e; rw [e] at h2; exact gateFail_step (bitsIn_trans rfl hs) h2

theorem gateRead_step {M : Nat} {s0 : State} {s : State} {w : Nat} {j : GateJob} {va n : Nat} {k : List PByte → State → State} (hs : bitsIn 0x400000000000000000404302800020040800001920000020000000000000000780035d84ff180 M = true) (hk_k : ∀ (a0 : List PByte) (a1 : State), Agree M s0 a1 → Agree M s0 (k a0 a1)) (hA : Agree M s0 s) : Agree M s0 (gateRead s w j va n k) := by
  unfold gateRead
  repeat' first
    | with_reducible assumption
    | fail
    | exact bitsIn_trans rfl hs
    | exact regIn_sub rfl rfl hs
    | with_reducible refine gateParts_step ?_ ?_ ?_
    | with_reducible refine Agree.ite ?_ ?_
    | dsimp only
    | split
    | (with_reducible refine Agree.of_pair (by assumption) ?_)
    | (with_reducible refine Agree.of_pair2 (by assumption) ?_)
    | intro _
    | with_reducible refine hk_k _ _ ?_

theorem gateClean_step {M : Nat} {s0 : State} {s : State} {w : Nat} {j : GateJob} {va n : Nat} {k : List Byte → State → State} (hs : bitsIn 0x400000000000000000404302800020040800001920000020000000000000000780035d84ff180 M = true) (hk_k : ∀ (a0 : List Byte) (a1 : State), Agree M s0 a1 → Agree M s0 (k a0 a1)) (hA : Agree M s0 s) : Agree M s0 (gateClean s w j va n k) := by
  unfold gateClean
  repeat' first
    | with_reducible assumption
    | fail
    | exact bitsIn_trans rfl hs
    | exact regIn_sub rfl rfl hs
    | with_reducible refine gateFail_step ?_ ?_
    | with_reducible refine gateRead_step ?_ ?_ ?_
    | with_reducible refine Agree.ite ?_ ?_
    | dsimp only
    | split
    | (with_reducible refine Agree.of_pair (by assumption) ?_)
    | (with_reducible refine Agree.of_pair2 (by assumption) ?_)
    | intro _
    | with_reducible refine hk_k _ _ ?_

theorem gateLook_step {M s0} {w : Nat} {j : GateJob} {c : Nat} {s : State} {l : List (Nat × Nat)}
    {k : State → State} (hs : bitsIn 0x400000000000000000404302800020040800001920000020000000000000000780035d84ff180 M = true) (hk : ∀ t, Agree M s0 t → Agree M s0 (k t))
    (h : Agree M s0 s) : Agree M s0 (gateLook w j c s l k) := by
  induction l generalizing s with
  | nil => exact hk _ h
  | cons p ps ih =>
    unfold gateLook
    have h2 : Agree M s0 (devAccess s (jobSlot s j).2 (gateQ w) c [p] (fun s _ => (.ok [] 0, s))).2 :=
      devAccess_step (bitsIn_trans rfl hs) (fun _ _ h => h) h
    split
    · rename_i e; rw [e] at h2; exact ih h2
    · rename_i e; rw [e] at h2; exact h2
    · rename_i e; rw [e] at h2; exact gateStall_step (bitsIn_trans rfl hs) h2
    · rename_i e; rw [e] at h2; exact gateFail_step (bitsIn_trans rfl hs) h2

theorem gatePut_step {M s0} {w : Nat} {j : GateJob} {c : Nat} {s : State} {l : List (Nat × List PByte)}
    {k : State → State} (hs : bitsIn 0x400000000000000000404302800020040800001920000020000000000000000780035d84ff180 M = true) (hk : ∀ t, Agree M s0 t → Agree M s0 (k t))
    (h : Agree M s0 s) : Agree M s0 (gatePut w j c s l k) := by
  unfold gatePut
  exact gateLook_step (bitsIn_trans rfl hs)
    (fun _ h => hk _ (Agree.foldl (fun _ _ h => devWrite_step (bitsIn_trans rfl hs) h) h)) h

theorem gateWrites_step {M : Nat} {s0 : State} {w : Nat} {j : GateJob} {s : State} {l : List (Nat × List PByte)} {k : State → State} (hs : bitsIn 0x400000000000000000404302800020040800001920000020000000000000000780035d84ff180 M = true) (hk_k : ∀ (a0 : State), Agree M s0 a0 → Agree M s0 (k a0)) (hA : Agree M s0 s) : Agree M s0 (gateWrites w j s l k) := by
  unfold gateWrites
  repeat' first
    | with_reducible assumption
    | fail
    | exact bitsIn_trans rfl hs
    | exact regIn_sub rfl rfl hs
    | with_reducible refine gatePut_step ?_ ?_ ?_
    | with_reducible refine Agree.ite ?_ ?_
    | dsimp only
    | split
    | (with_reducible refine Agree.of_pair (by assumption) ?_)
    | (with_reducible refine Agree.of_pair2 (by assumption) ?_)
    | intro _
    | with_reducible refine hk_k _ ?_

theorem gateWrite_step {M : Nat} {s0 : State} {s : State} {w : Nat} {j : GateJob} {va : Nat} {bs : List PByte} {k : State → State} (hs : bitsIn 0x400000000000000000404302800020040800001920000020000000000000000780035d84ff180 M = true) (hk_k : ∀ (a0 : State), Agree M s0 a0 → Agree M s0 (k a0)) (hA : Agree M s0 s) : Agree M s0 (gateWrite s w j va bs k) := by
  unfold gateWrite
  repeat' first
    | with_reducible assumption
    | fail
    | exact bitsIn_trans rfl hs
    | exact regIn_sub rfl rfl hs
    | with_reducible refine gateWrites_step ?_ ?_ ?_
    | with_reducible refine Agree.ite ?_ ?_
    | dsimp only
    | split
    | (with_reducible refine Agree.of_pair (by assumption) ?_)
    | (with_reducible refine Agree.of_pair2 (by assumption) ?_)
    | intro _
    | with_reducible refine hk_k _ ?_

theorem execGateDispatchSelect_frame (w : Nat) (s : State) : AgreeO 0x400000028040000000404302800000040800001800000020000000000000000580030c04fc380 s (execGateDispatchSelect w s) := by
  unfold execGateDispatchSelect
  repeat' first
    | with_reducible assumption
    | with_reducible exact Agree.refl _ _
    | exact bitsIn_rfl rfl
    | exact regIn_rfl rfl rfl
    | with_reducible refine AgreeO.next ?_
    | with_reducible refine AgreeO.ite ?_ ?_
    | with_reducible exact AgreeO.refused
    | with_reducible exact AgreeO.fault
    | with_reducible refine gateFail_step ?_ ?_
    | with_reducible refine modGate_step ?_ ?_
    | with_reducible refine wakeCore_step ?_ ?_
    | with_reducible refine wakeWing_step ?_ ?_
    | with_reducible refine Agree.ite ?_ ?_
    | (with_reducible refine Agree.foldl ?_ ?_; intro _ _ _)
    | (with_reducible refine Agree.foldl2 ?_ ?_; intro _ _ _)
    | (with_reducible refine Agree.foldl3 ?_ ?_; intro _ _ _)
    | (with_reducible refine Agree.foldl4 ?_ ?_; intro _ _ _)
    | dsimp only
    | split
    | (with_reducible refine Agree.of_pair (by assumption) ?_)
    | (with_reducible refine Agree.of_pair2 (by assumption) ?_)
    | intro _
theorem execGateDispatchSelect_step {M s0} {w : Nat} {s : State} (hs : bitsIn 0x400000028040000000404302800000040800001800000020000000000000000580030c04fc380 M = true) (hA : Agree M s0 s) : AgreeO M s0 (execGateDispatchSelect w s) :=
  hA.stepO hs (execGateDispatchSelect_frame w s)

theorem gateUpsets_frame (s : State) (ups : List Upset) : Agree 0x200 s (gateUpsets s ups) := by
  unfold gateUpsets
  repeat' first
    | with_reducible assumption
    | with_reducible exact Agree.refl _ _
    | exact bitsIn_rfl rfl
    | with_reducible refine applyUpsets_step ?_ ?_
    | with_reducible refine Agree.ite ?_ ?_
    | (with_reducible refine Agree.foldl ?_ ?_; intro _ _ _)
    | (with_reducible refine Agree.foldl2 ?_ ?_; intro _ _ _)
    | (with_reducible refine Agree.foldl3 ?_ ?_; intro _ _ _)
    | (with_reducible refine Agree.foldl4 ?_ ?_; intro _ _ _)
    | dsimp only
    | split
    | (with_reducible refine Agree.of_pair (by assumption) ?_)
    | (with_reducible refine Agree.of_pair2 (by assumption) ?_)
    | intro _
theorem gateUpsets_step {M s0} {s : State} {ups : List Upset} (hs : bitsIn 0x200 M = true) (hA : Agree M s0 s) : Agree M s0 (gateUpsets s ups) :=
  hA.step hs (gateUpsets_frame s ups)

theorem tokenRow_frame (s : State) (j : GateJob) (t : Nat) : Agree 0x1c00000000000000000000000000000000000000000000200 s (tokenRow s j t).2.2 := by
  unfold tokenRow
  repeat' first
    | with_reducible assumption
    | with_reducible exact Agree.refl _ _
    | exact bitsIn_rfl rfl
    | exact regIn_rfl rfl rfl
    | with_reducible refine scanWords_step ?_ ?_
    | with_reducible refine Agree.ite ?_ ?_
    | dsimp only
    | split
    | (with_reducible refine Agree.of_pair (by assumption) ?_)
    | (with_reducible refine Agree.of_pair2 (by assumption) ?_)
    | intro _
theorem tokenRow_step {M s0} {s : State} {j : GateJob} {t : Nat} (hs : bitsIn 0x1c00000000000000000000000000000000000000000000200 M = true) (hA : Agree M s0 s) : Agree M s0 (tokenRow s j t).2.2 :=
  hA.step hs (tokenRow_frame s j t)

theorem tokenRows_frame (j : GateJob) (s : State) (l : List Nat) : Agree 0x1c00000000000000000000000000000000000000000000200 s (tokenRows j s l).2.2 := by
  induction l generalizing s with
  | nil => exact Agree.refl _ _
  | cons t ts ih =>
    unfold tokenRows
    dsimp only
    split
    · exact tokenRow_frame s j t
    · exact (tokenRow_frame s j t).step (bitsIn_rfl rfl) (ih _)
theorem tokenRows_step {M s0} {j : GateJob} {s : State} {l : List Nat} (hs : bitsIn 0x1c00000000000000000000000000000000000000000000200 M = true) (h : Agree M s0 s) :
    Agree M s0 (tokenRows j s l).2.2 := h.step hs (tokenRows_frame j s l)

theorem withLive_step {M : Nat} {s0 : State} {s : State} {w : Nat} {j : GateJob} {k : List Byte → State → State} (hs : bitsIn 0x400000000000000000404302800020040800001920000020000000000000000780035d84ff180 M = true) (hk_k : ∀ (a0 : List Byte) (a1 : State), Agree M s0 a1 → Agree M s0 (k a0 a1)) (hA : Agree M s0 s) : Agree M s0 (withLive s w j k) := by
  unfold withLive
  repeat' first
    | with_reducible assumption
    | fail
    | exact bitsIn_trans rfl hs
    | exact regIn_sub rfl rfl hs
    | with_reducible refine gateClean_step ?_ ?_ ?_
    | with_reducible refine Agree.ite ?_ ?_
    | dsimp only
    | split
    | (with_reducible refine Agree.of_pair (by assumption) ?_)
    | (with_reducible refine Agree.of_pair2 (by assumption) ?_)
    | intro _
    | with_reducible refine hk_k _ _ ?_

theorem selectToken_frame (j : GateJob) (bias : List Word) (s : State) (t : Nat × List Word) : Agree 0x80 s (selectToken j bias s t).2 := by
  unfold selectToken
  repeat' first
    | with_reducible assumption
    | with_reducible exact Agree.refl _ _
    | exact bitsIn_rfl rfl
    | with_reducible refine freeVal_step ?_ ?_
    | with_reducible refine Agree.ite ?_ ?_
    | (with_reducible refine Agree.foldl ?_ ?_; intro _ _ _)
    | (with_reducible refine Agree.foldl2 ?_ ?_; intro _ _ _)
    | (with_reducible refine Agree.foldl3 ?_ ?_; intro _ _ _)
    | (with_reducible refine Agree.foldl4 ?_ ?_; intro _ _ _)
    | dsimp only
    | split
    | (with_reducible refine Agree.of_pair (by assumption) ?_)
    | (with_reducible refine Agree.of_pair2 (by assumption) ?_)
    | intro _
theorem selectToken_step {M s0} {j : GateJob} {bias : List Word} {s : State} {t : Nat × List Word} (hs : bitsIn 0x80 M = true) (hA : Agree M s0 s) : Agree M s0 (selectToken j bias s t).2 :=
  hA.step hs (selectToken_frame j bias s t)

theorem selectAll_frame (j : GateJob) (bias : List Word) (s : State) (l : List (Nat × List Word)) :
    Agree 0x80 s (selectAll j bias s l).2 := by
  induction l generalizing s with
  | nil => exact Agree.refl _ _
  | cons t ts ih =>
    unfold selectAll
    exact (selectToken_frame j bias s t).step (bitsIn_rfl rfl) (ih _)
theorem selectAll_step {M s0} {j : GateJob} {bias : List Word} {s : State} {l : List (Nat × List Word)}
    (hs : bitsIn 0x80 M = true) (h : Agree M s0 s) : Agree M s0 (selectAll j bias s l).2 := h.step hs (selectAll_frame j bias s l)

theorem promoteSlot_frame (s : State) (id : Nat) : Agree 0xc0c4000000000000000000000000000000000000000002000010000 s (promoteSlot s id) := by
  unfold promoteSlot
  repeat' first
    | with_reducible assumption
    | with_reducible exact Agree.refl _ _
    | exact bitsIn_rfl rfl
    | exact regIn_rfl rfl rfl
    | with_reducible refine countR_step ?_ ?_ ?_
    | with_reducible refine logUe_step ?_ ?_
    | with_reducible refine setHbmBad_step ?_ ?_
    | ((conv => arg 3; arg 88; skip); with_reducible first | refine upd_landing ?_ ?_)
    | with_reducible refine Agree.ite ?_ ?_
    | (with_reducible refine Agree.foldl ?_ ?_; intro _ _ _)
    | (with_reducible refine Agree.foldl2 ?_ ?_; intro _ _ _)
    | (with_reducible refine Agree.foldl3 ?_ ?_; intro _ _ _)
    | (with_reducible refine Agree.foldl4 ?_ ?_; intro _ _ _)
    | dsimp only
    | split
    | (with_reducible refine Agree.of_pair (by assumption) ?_)
    | (with_reducible refine Agree.of_pair2 (by assumption) ?_)
    | intro _
theorem promoteSlot_step {M s0} {s : State} {id : Nat} (hs : bitsIn 0xc0c4000000000000000000000000000000000000000002000010000 M = true) (hA : Agree M s0 s) : Agree M s0 (promoteSlot s id) :=
  hA.step hs (promoteSlot_frame s id)

theorem resolvePlan_frame (s : State) (w k : Nat) (matched : Bool) (used : List Nat) : Agree 0xc0c4000000000000000000000000000000000000000002000010000 s (resolvePlan s w k matched used).2 := by
  unfold resolvePlan
  repeat' first
    | with_reducible assumption
    | with_reducible exact Agree.refl _ _
    | exact bitsIn_rfl rfl
    | exact regIn_rfl rfl rfl
    | with_reducible refine doomSlot_step ?_ ?_
    | with_reducible refine promoteSlot_step ?_ ?_
    | ((conv => arg 3; arg 88; skip); with_reducible first | refine upd_landing ?_ ?_)
    | with_reducible refine Agree.ite ?_ ?_
    | (with_reducible refine Agree.foldl ?_ ?_; intro _ _ _)
    | (with_reducible refine Agree.foldl2 ?_ ?_; intro _ _ _)
    | (with_reducible refine Agree.foldl3 ?_ ?_; intro _ _ _)
    | (with_reducible refine Agree.foldl4 ?_ ?_; intro _ _ _)
    | dsimp only
    | split
    | (with_reducible refine Agree.of_pair (by assumption) ?_)
    | (with_reducible refine Agree.of_pair2 (by assumption) ?_)
    | intro _
theorem resolvePlan_step {M s0} {s : State} {w k : Nat} {matched : Bool} {used : List Nat} (hs : bitsIn 0xc0c4000000000000000000000000000000000000000002000010000 M = true) (hA : Agree M s0 s) : Agree M s0 (resolvePlan s w k matched used).2 :=
  hA.step hs (resolvePlan_frame s w k matched used)

theorem routeStart_frame (s : State) (w : Nat) (j : GateJob) : Agree 0x4000000000000000004043c2c4003c040800001920000020000000000000000780035d84ff380 s (routeStart s w j) := by
  unfold routeStart
  repeat' first
    | with_reducible assumption
    | with_reducible exact Agree.refl _ _
    | exact bitsIn_rfl rfl
    | exact regIn_rfl rfl rfl
    | with_reducible refine devDone_step ?_ ?_
    | with_reducible refine gateClean_step ?_ ?_ ?_
    | with_reducible refine gateFail_step ?_ ?_
    | with_reducible refine gateRead_step ?_ ?_ ?_
    | with_reducible refine gateWrites_step ?_ ?_ ?_
    | with_reducible refine modRun_step ?_ ?_
    | with_reducible refine resolvePlan_step ?_ ?_
    | with_reducible refine selectAll_step ?_ ?_
    | with_reducible refine tokenRows_step ?_ ?_
    | with_reducible refine withLive_step ?_ ?_ ?_
    | with_reducible refine Agree.ite ?_ ?_
    | (with_reducible refine Agree.foldl ?_ ?_; intro _ _ _)
    | (with_reducible refine Agree.foldl2 ?_ ?_; intro _ _ _)
    | (with_reducible refine Agree.foldl3 ?_ ?_; intro _ _ _)
    | (with_reducible refine Agree.foldl4 ?_ ?_; intro _ _ _)
    | dsimp only
    | split
    | (with_reducible refine Agree.of_pair (by assumption) ?_)
    | (with_reducible refine Agree.of_pair2 (by assumption) ?_)
    | intro _
theorem routeStart_step {M s0} {s : State} {w : Nat} {j : GateJob} (hs : bitsIn 0x4000000000000000004043c2c4003c040800001920000020000000000000000780035d84ff380 M = true) (hA : Agree M s0 s) : Agree M s0 (routeStart s w j) :=
  hA.step hs (routeStart_frame s w j)

theorem writeManifest_frame (s : State) (w k : Nat) (p : GatePlan) (c : Nat) : Agree 0x1c00000000000000000000000000000000000002000000200 s (writeManifest s w k p c) := by
  unfold writeManifest
  repeat' first
    | with_reducible assumption
    | with_reducible exact Agree.refl _ _
    | exact bitsIn_rfl rfl
    | exact regIn_rfl rfl rfl
    | with_reducible refine scrWrite_step ?_ ?_
    | with_reducible refine zeroScr_step ?_ ?_
    | with_reducible refine Agree.ite ?_ ?_
    | (with_reducible refine Agree.foldl ?_ ?_; intro _ _ _)
    | (with_reducible refine Agree.foldl2 ?_ ?_; intro _ _ _)
    | (with_reducible refine Agree.foldl3 ?_ ?_; intro _ _ _)
    | (with_reducible refine Agree.foldl4 ?_ ?_; intro _ _ _)
    | dsimp only
    | split
    | (with_reducible refine Agree.of_pair (by assumption) ?_)
    | (with_reducible refine Agree.of_pair2 (by assumption) ?_)
    | intro _
theorem writeManifest_step {M s0} {s : State} {w k : Nat} {p : GatePlan} {c : Nat} (hs : bitsIn 0x1c00000000000000000000000000000000000002000000200 M = true) (hA : Agree M s0 s) : Agree M s0 (writeManifest s w k p c) :=
  hA.step hs (writeManifest_frame s w k p c)

theorem withPred_step {M : Nat} {s0 : State} {s : State} {w : Nat} {j : GateJob} {va : Nat} {experts : Option Nat} {k : Option (List Byte × Bool) → List Byte → State → State} (hs : bitsIn 0x400000000000000000404302800020040800001920000020000000000000000780035d84ff180 M = true) (hk_k : ∀ (a0 : Option (List Byte × Bool)) (a1 : List Byte) (a2 : State), Agree M s0 a2 → Agree M s0 (k a0 a1 a2)) (hA : Agree M s0 s) : Agree M s0 (withPred s w j va experts k) := by
  unfold withPred
  repeat' first
    | with_reducible assumption
    | fail
    | exact bitsIn_trans rfl hs
    | exact regIn_sub rfl rfl hs
    | with_reducible refine gateRead_step ?_ ?_ ?_
    | with_reducible refine Agree.ite ?_ ?_
    | dsimp only
    | split
    | (with_reducible refine Agree.of_pair (by assumption) ?_)
    | (with_reducible refine Agree.of_pair2 (by assumption) ?_)
    | intro _
    | with_reducible refine hk_k _ _ _ ?_

theorem routeCommit_frame (s : State) (w : Nat) (j : GateJob) (flags : Nat) (rcd : Option (List Byte)) : Agree 0x404002000020040800000000000000000000000000000780030004c7080 s (routeCommit s w j flags rcd) := by
  unfold routeCommit
  repeat' first
    | with_reducible assumption
    | with_reducible exact Agree.refl _ _
    | exact bitsIn_rfl rfl
    | exact regIn_rfl rfl rfl
    | with_reducible refine devDone_step ?_ ?_
    | with_reducible refine feedGather_step ?_ ?_
    | with_reducible refine modGate_step ?_ ?_
    | with_reducible refine modRun_step ?_ ?_
    | ((conv => arg 3; arg 88; skip); with_reducible first | refine upd_landing ?_ ?_)
    | with_reducible refine Agree.ite ?_ ?_
    | dsimp only
    | split
    | (with_reducible refine Agree.of_pair (by assumption) ?_)
    | (with_reducible refine Agree.of_pair2 (by assumption) ?_)
    | intro _
theorem routeCommit_step {M s0} {s : State} {w : Nat} {j : GateJob} {flags : Nat} {rcd : Option (List Byte)} (hs : bitsIn 0x404002000020040800000000000000000000000000000780030004c7080 M = true) (hA : Agree M s0 s) : Agree M s0 (routeCommit s w j flags rcd) :=
  hA.step hs (routeCommit_frame s w j flags rcd)

theorem writeManifests_frame (s : State) (w k : Nat) : Agree 0x1c00000000000000000000000000000000000002000000200 s (writeManifests s w k) := by
  unfold writeManifests
  repeat' first
    | with_reducible assumption
    | with_reducible exact Agree.refl _ _
    | exact bitsIn_rfl rfl
    | exact regIn_rfl rfl rfl
    | with_reducible refine writeManifest_step ?_ ?_
    | with_reducible refine Agree.ite ?_ ?_
    | (with_reducible refine Agree.foldl ?_ ?_; intro _ _ _)
    | (with_reducible refine Agree.foldl2 ?_ ?_; intro _ _ _)
    | (with_reducible refine Agree.foldl3 ?_ ?_; intro _ _ _)
    | (with_reducible refine Agree.foldl4 ?_ ?_; intro _ _ _)
    | dsimp only
    | split
    | (with_reducible refine Agree.of_pair (by assumption) ?_)
    | (with_reducible refine Agree.of_pair2 (by assumption) ?_)
    | intro _
theorem writeManifests_step {M s0} {s : State} {w k : Nat} (hs : bitsIn 0x1c00000000000000000000000000000000000002000000200 M = true) (hA : Agree M s0 s) : Agree M s0 (writeManifests s w k) :=
  hA.step hs (writeManifests_frame s w k)

theorem routeResolve_frame (s : State) (w : Nat) (r : GateRun) : Agree 0x40000000000000000040430280003c040800001920000020000000000000000780035d84ff380 s (routeResolve s w r) := by
  unfold routeResolve
  repeat' first
    | with_reducible assumption
    | with_reducible exact Agree.refl _ _
    | exact bitsIn_rfl rfl
    | exact regIn_rfl rfl rfl
    | with_reducible refine routeCommit_step ?_ ?_
    | with_reducible refine withPred_step ?_ ?_ ?_
    | with_reducible refine writeManifests_step ?_ ?_
    | with_reducible refine Agree.ite ?_ ?_
    | dsimp only
    | split
    | (with_reducible refine Agree.of_pair (by assumption) ?_)
    | (with_reducible refine Agree.of_pair2 (by assumption) ?_)
    | intro _
theorem routeResolve_step {M s0} {s : State} {w : Nat} {r : GateRun} (hs : bitsIn 0x40000000000000000040430280003c040800001920000020000000000000000780035d84ff380 M = true) (hA : Agree M s0 s) : Agree M s0 (routeResolve s w r) :=
  hA.step hs (routeResolve_frame s w r)

theorem execRoute_frame (w : Nat) (ups : List Upset) (s : State) : AgreeO 0x4000000000000000004043c2c4003c040800001920000020000000000000000780035d84ff380 s (execRoute w ups s) := by
  unfold execRoute
  repeat' first
    | with_reducible assumption
    | with_reducible exact Agree.refl _ _
    | exact bitsIn_rfl rfl
    | exact regIn_rfl rfl rfl
    | with_reducible refine AgreeO.next ?_
    | with_reducible refine AgreeO.ite ?_ ?_
    | with_reducible exact AgreeO.refused
    | with_reducible exact AgreeO.fault
    | with_reducible refine gateUpsets_step ?_ ?_
    | with_reducible refine routeResolve_step ?_ ?_
    | with_reducible refine routeStart_step ?_ ?_
    | with_reducible refine Agree.ite ?_ ?_
    | dsimp only
    | split
    | (with_reducible refine Agree.of_pair (by assumption) ?_)
    | (with_reducible refine Agree.of_pair2 (by assumption) ?_)
    | intro _
theorem execRoute_step {M s0} {w : Nat} {ups : List Upset} {s : State} (hs : bitsIn 0x4000000000000000004043c2c4003c040800001920000020000000000000000780035d84ff380 M = true) (hA : Agree M s0 s) : AgreeO M s0 (execRoute w ups s) :=
  hA.stepO hs (execRoute_frame w ups s)

theorem assignSlot_step {M s0} {w k : Nat} {j : GateJob} {limit : Nat} {acc : Nat × State} {x : Nat}
    (hs : bitsIn 0x2000000100 M = true) (h : Agree M s0 acc.2) : Agree M s0 (assignSlot w k j limit acc x).2 := by
  unfold assignSlot
  dsimp only
  split
  · split
    · exact h
    · exact upd_landing (bitsIn_trans rfl hs) (fresh_step (bitsIn_trans rfl hs) h)
  · exact h

theorem armPlan_frame (s : State) (w : Nat) (r : GateRun) : Agree 0x400000000000000000404302800020040800001920000020000000000000000780035d84ff180 s (armPlan s w r) := by
  unfold armPlan
  repeat' first
    | with_reducible assumption
    | with_reducible exact Agree.refl _ _
    | exact bitsIn_rfl rfl
    | exact regIn_rfl rfl rfl
    | with_reducible refine assignSlot_step ?_ ?_
    | with_reducible refine devDone_step ?_ ?_
    | with_reducible refine doomIf_step ?_ ?_
    | with_reducible refine gateWrite_step ?_ ?_ ?_
    | with_reducible refine modGate_step ?_ ?_
    | with_reducible refine modRun_step ?_ ?_
    | with_reducible refine withPred_step ?_ ?_ ?_
    | with_reducible refine Agree.ite ?_ ?_
    | (with_reducible refine Agree.foldl ?_ ?_; intro _ _ _)
    | (with_reducible refine Agree.foldl2 ?_ ?_; intro _ _ _)
    | (with_reducible refine Agree.foldl3 ?_ ?_; intro _ _ _)
    | (with_reducible refine Agree.foldl4 ?_ ?_; intro _ _ _)
    | dsimp only
    | split
    | (with_reducible refine Agree.of_pair (by assumption) ?_)
    | (with_reducible refine Agree.of_pair2 (by assumption) ?_)
    | intro _
theorem armPlan_step {M s0} {s : State} {w : Nat} {r : GateRun} (hs : bitsIn 0x400000000000000000404302800020040800001920000020000000000000000780035d84ff180 M = true) (hA : Agree M s0 s) : Agree M s0 (armPlan s w r) :=
  hA.step hs (armPlan_frame s w r)

theorem execGateGatherComplete_frame (w : Nat) (s : State) : AgreeO 0x400000000000000000404302800020040800001920000020000000000000000780035d84ff180 s (execGateGatherComplete w s) := by
  unfold execGateGatherComplete
  repeat' first
    | with_reducible assumption
    | with_reducible exact Agree.refl _ _
    | exact bitsIn_rfl rfl
    | exact regIn_rfl rfl rfl
    | with_reducible refine AgreeO.next ?_
    | with_reducible refine AgreeO.ite ?_ ?_
    | with_reducible exact AgreeO.refused
    | with_reducible exact AgreeO.fault
    | with_reducible refine armPlan_step ?_ ?_
    | with_reducible refine modRun_step ?_ ?_
    | with_reducible refine Agree.ite ?_ ?_
    | dsimp only
    | split
    | (with_reducible refine Agree.of_pair (by assumption) ?_)
    | (with_reducible refine Agree.of_pair2 (by assumption) ?_)
    | intro _
theorem execGateGatherComplete_step {M s0} {w : Nat} {s : State} (hs : bitsIn 0x400000000000000000404302800020040800001920000020000000000000000780035d84ff180 M = true) (hA : Agree M s0 s) : AgreeO M s0 (execGateGatherComplete w s) :=
  hA.stepO hs (execGateGatherComplete_frame w s)

theorem gateReads_step {M s0} {w : Nat} {j : GateJob} {s : State} {l : List (Nat × Nat)} {acc : List (List PByte)}
    {k : List (List PByte) → State → State} (hs : bitsIn 0x400000000000000000404302800020040800001920000020000000000000000780035d84ff180 M = true) (hk : ∀ a t, Agree M s0 t → Agree M s0 (k a t))
    (h : Agree M s0 s) : Agree M s0 (gateReads w j s l acc k) := by
  induction l generalizing s acc with
  | nil => exact hk _ _ h
  | cons p ps ih =>
    unfold gateReads
    exact gateRead_step (bitsIn_trans rfl hs) (fun _ _ h => ih h) h

theorem combineTokens_step {M s0} {w : Nat} {j : GateJob} {recs : List Byte} {s : State} {l : List Nat}
    {k : State → State} (hs : bitsIn 0x400000000000000000404302800020040800001920000020000000000000000780035d84ff180 M = true) (hk : ∀ t, Agree M s0 t → Agree M s0 (k t))
    (h : Agree M s0 s) : Agree M s0 (combineTokens w j recs s l k) := by
  induction l generalizing s with
  | nil => exact hk _ h
  | cons t ts ih =>
    unfold combineTokens
    dsimp only
    refine Agree.ite h (gateReads_step (bitsIn_trans rfl hs) (fun _ _ h => gatePut_step (bitsIn_trans rfl hs) (fun _ h => ih ?_) h) h)
    exact modRun_step (bitsIn_trans rfl hs) (devDone_step (bitsIn_trans rfl hs) h)

theorem execCombine_frame (w : Nat) (s : State) : AgreeO 0x400000000000000000404302800020040800001920000020000000000000000780035d84ff180 s (execCombine w s) := by
  unfold execCombine
  repeat' first
    | with_reducible assumption
    | with_reducible exact Agree.refl _ _
    | exact bitsIn_rfl rfl
    | exact regIn_rfl rfl rfl
    | with_reducible refine AgreeO.next ?_
    | with_reducible refine AgreeO.ite ?_ ?_
    | with_reducible exact AgreeO.refused
    | with_reducible exact AgreeO.fault
    | with_reducible refine combineTokens_step ?_ ?_ ?_
    | with_reducible refine devDone_step ?_ ?_
    | with_reducible refine gateClean_step ?_ ?_ ?_
    | with_reducible refine modRun_step ?_ ?_
    | with_reducible refine withLive_step ?_ ?_ ?_
    | with_reducible refine Agree.ite ?_ ?_
    | dsimp only
    | split
    | (with_reducible refine Agree.of_pair (by assumption) ?_)
    | (with_reducible refine Agree.of_pair2 (by assumption) ?_)
    | intro _
theorem execCombine_step {M s0} {w : Nat} {s : State} (hs : bitsIn 0x400000000000000000404302800020040800001920000020000000000000000780035d84ff180 M = true) (hA : Agree M s0 s) : AgreeO M s0 (execCombine w s) :=
  hA.stepO hs (execCombine_frame w s)

theorem execExit_frame (w : Nat) (ups : List Upset) (s : State) : AgreeO 0x40000000000000000040430280003c040800001920000020000000000000000780035d84ff380 s (execExit w ups s) := by
  unfold execExit
  repeat' first
    | with_reducible assumption
    | with_reducible exact Agree.refl _ _
    | exact bitsIn_rfl rfl
    | exact regIn_rfl rfl rfl
    | with_reducible refine AgreeO.next ?_
    | with_reducible refine AgreeO.ite ?_ ?_
    | with_reducible exact AgreeO.refused
    | with_reducible exact AgreeO.fault
    | with_reducible refine devDone_step ?_ ?_
    | with_reducible refine gateFail_step ?_ ?_
    | with_reducible refine gateUpsets_step ?_ ?_
    | with_reducible refine gateWrite_step ?_ ?_ ?_
    | with_reducible refine modRun_step ?_ ?_
    | with_reducible refine tokenRows_step ?_ ?_
    | with_reducible refine withLive_step ?_ ?_ ?_
    | with_reducible refine Agree.ite ?_ ?_
    | (with_reducible refine Agree.foldl ?_ ?_; intro _ _ _)
    | (with_reducible refine Agree.foldl2 ?_ ?_; intro _ _ _)
    | (with_reducible refine Agree.foldl3 ?_ ?_; intro _ _ _)
    | (with_reducible refine Agree.foldl4 ?_ ?_; intro _ _ _)
    | dsimp only
    | split
    | (with_reducible refine Agree.of_pair (by assumption) ?_)
    | (with_reducible refine Agree.of_pair2 (by assumption) ?_)
    | intro _
theorem execExit_step {M s0} {w : Nat} {ups : List Upset} {s : State} (hs : bitsIn 0x40000000000000000040430280003c040800001920000020000000000000000780035d84ff380 M = true) (hA : Agree M s0 s) : AgreeO M s0 (execExit w ups s) :=
  hA.stepO hs (execExit_frame w ups s)

theorem gateEnd_frame (s : State) (w : Nat) (r : GateRun) : Agree 0x404002020020040800000000000000000000000004000780010004c7080 s (gateEnd s w r) := by
  unfold gateEnd
  repeat' first
    | with_reducible assumption
    | with_reducible exact Agree.refl _ _
    | exact bitsIn_rfl rfl
    | exact regIn_rfl rfl rfl
    | with_reducible refine countR_step ?_ ?_ ?_
    | with_reducible refine endCmd_step ?_ ?_
    | with_reducible refine gateClear_step ?_ ?_
    | with_reducible refine modGate_step ?_ ?_
    | with_reducible refine Agree.ite ?_ ?_
    | dsimp only
    | split
    | (with_reducible refine Agree.of_pair (by assumption) ?_)
    | (with_reducible refine Agree.of_pair2 (by assumption) ?_)
    | intro _
theorem gateEnd_step {M s0} {s : State} {w : Nat} {r : GateRun} (hs : bitsIn 0x404002020020040800000000000000000000000004000780010004c7080 M = true) (hA : Agree M s0 s) : Agree M s0 (gateEnd s w r) :=
  hA.step hs (gateEnd_frame s w r)

theorem execGateDispatchComplete_frame (w : Nat) (s : State) : AgreeO 0x400000000000000000404302820020040800001920000020000000000004000780035d84ff180 s (execGateDispatchComplete w s) := by
  unfold execGateDispatchComplete
  repeat' first
    | with_reducible assumption
    | with_reducible exact Agree.refl _ _
    | exact bitsIn_rfl rfl
    | exact regIn_rfl rfl rfl
    | with_reducible refine AgreeO.next ?_
    | with_reducible refine AgreeO.ite ?_ ?_
    | with_reducible exact AgreeO.refused
    | with_reducible exact AgreeO.fault
    | with_reducible refine gateEnd_step ?_ ?_
    | with_reducible refine gateFail_step ?_ ?_
    | with_reducible refine gateWrite_step ?_ ?_ ?_
    | with_reducible refine modRun_step ?_ ?_
    | with_reducible refine Agree.ite ?_ ?_
    | dsimp only
    | split
    | (with_reducible refine Agree.of_pair (by assumption) ?_)
    | (with_reducible refine Agree.of_pair2 (by assumption) ?_)
    | intro _
theorem execGateDispatchComplete_step {M s0} {w : Nat} {s : State} (hs : bitsIn 0x400000000000000000404302820020040800001920000020000000000004000780035d84ff180 M = true) (hA : Agree M s0 s) : AgreeO M s0 (execGateDispatchComplete w s) :=
  hA.stepO hs (execGateDispatchComplete_frame w s)

theorem landSlot_frame (s : State) (id : Nat) (l : LandSlot) (errs : List SectorErr) : Agree 0x300000000000000000002000000200 s (landSlot s id l errs) := by
  unfold landSlot
  repeat' first
    | with_reducible assumption
    | with_reducible exact Agree.refl _ _
    | exact bitsIn_rfl rfl
    | exact regIn_rfl rfl rfl
    | ((with_reducible refine ModOf.intro ?_); first | exact fun _ w => w | exact fun _ w => canonical_memPut _ _ w | exact fun _ w => canonical_filter _ w | exact fun _ w => canonical_foldl_mset _ _ w | exact fun _ _ => rfl)
    | with_reducible refine countStale_step ?_ ?_
    | with_reducible refine doomSlot_step ?_ ?_
    | with_reducible refine modCore_step ?_ ?_ ?_
    | ((conv => arg 3; arg 88; skip); with_reducible first | refine upd_landing ?_ ?_)
    | with_reducible refine Agree.ite ?_ ?_
    | (with_reducible refine Agree.foldl ?_ ?_; intro _ _ _)
    | (with_reducible refine Agree.foldl2 ?_ ?_; intro _ _ _)
    | (with_reducible refine Agree.foldl3 ?_ ?_; intro _ _ _)
    | (with_reducible refine Agree.foldl4 ?_ ?_; intro _ _ _)
    | dsimp only
    | split
    | (with_reducible refine Agree.of_pair (by assumption) ?_)
    | (with_reducible refine Agree.of_pair2 (by assumption) ?_)
    | intro _
theorem landSlot_step {M s0} {s : State} {id : Nat} {l : LandSlot} {errs : List SectorErr} (hs : bitsIn 0x300000000000000000002000000200 M = true) (hA : Agree M s0 s) : Agree M s0 (landSlot s id l errs) :=
  hA.step hs (landSlot_frame s id l errs)

theorem execSlotFetchLanded_frame (id : Nat) (errs : List SectorErr) (s : State) : AgreeO 0x300000000000000000002000000200 s (execSlotFetchLanded id errs s) := by
  unfold execSlotFetchLanded
  repeat' first
    | with_reducible assumption
    | with_reducible exact Agree.refl _ _
    | exact bitsIn_rfl rfl
    | exact regIn_rfl rfl rfl
    | with_reducible refine AgreeO.next ?_
    | with_reducible refine AgreeO.ite ?_ ?_
    | with_reducible exact AgreeO.refused
    | with_reducible exact AgreeO.fault
    | with_reducible refine landSlot_step ?_ ?_
    | with_reducible refine Agree.ite ?_ ?_
    | dsimp only
    | split
    | (with_reducible refine Agree.of_pair (by assumption) ?_)
    | (with_reducible refine Agree.of_pair2 (by assumption) ?_)
    | intro _
theorem execSlotFetchLanded_step {M s0} {id : Nat} {errs : List SectorErr} {s : State} (hs : bitsIn 0x300000000000000000002000000200 M = true) (hA : Agree M s0 s) : AgreeO M s0 (execSlotFetchLanded id errs s) :=
  hA.stepO hs (execSlotFetchLanded_frame id errs s)

theorem execSlotFetchVoid_frame (id : Nat) (s : State) : AgreeO 0x2000000000 s (execSlotFetchVoid id s) := by
  unfold execSlotFetchVoid
  repeat' first
    | with_reducible assumption
    | with_reducible exact Agree.refl _ _
    | exact bitsIn_rfl rfl
    | with_reducible refine AgreeO.next ?_
    | with_reducible refine AgreeO.ite ?_ ?_
    | with_reducible exact AgreeO.refused
    | with_reducible exact AgreeO.fault
    | with_reducible refine doomSlot_step ?_ ?_
    | ((conv => arg 3; arg 88; skip); with_reducible first | refine upd_landing ?_ ?_)
    | with_reducible refine Agree.ite ?_ ?_
    | dsimp only
    | split
    | (with_reducible refine Agree.of_pair (by assumption) ?_)
    | (with_reducible refine Agree.of_pair2 (by assumption) ?_)
    | intro _
theorem execSlotFetchVoid_step {M s0} {id : Nat} {s : State} (hs : bitsIn 0x2000000000 M = true) (hA : Agree M s0 s) : AgreeO M s0 (execSlotFetchVoid id s) :=
  hA.stepO hs (execSlotFetchVoid_frame id s)

theorem execSlotPromoted_frame (id : Nat) (errs : List SectorErr) (s : State) : AgreeO 0xc0c4000000000000000000000300000000000000000002000010200 s (execSlotPromoted id errs s) := by
  unfold execSlotPromoted
  repeat' first
    | with_reducible assumption
    | with_reducible exact Agree.refl _ _
    | exact bitsIn_rfl rfl
    | exact regIn_rfl rfl rfl
    | with_reducible refine AgreeO.next ?_
    | with_reducible refine AgreeO.ite ?_ ?_
    | with_reducible exact AgreeO.refused
    | with_reducible exact AgreeO.fault
    | with_reducible refine landSlot_step ?_ ?_
    | with_reducible refine promoteSlot_step ?_ ?_
    | with_reducible refine Agree.ite ?_ ?_
    | dsimp only
    | split
    | (with_reducible refine Agree.of_pair (by assumption) ?_)
    | (with_reducible refine Agree.of_pair2 (by assumption) ?_)
    | intro _
theorem execSlotPromoted_step {M s0} {id : Nat} {errs : List SectorErr} {s : State} (hs : bitsIn 0xc0c4000000000000000000000300000000000000000002000010200 M = true) (hA : Agree M s0 s) : AgreeO M s0 (execSlotPromoted id errs s) :=
  hA.stepO hs (execSlotPromoted_frame id errs s)

theorem execSquash_frame (id : Nat) (s : State) : AgreeO 0x2000000000 s (execSquash id s) := by
  unfold execSquash
  repeat' first
    | with_reducible assumption
    | with_reducible exact Agree.refl _ _
    | exact bitsIn_rfl rfl
    | with_reducible refine AgreeO.next ?_
    | with_reducible refine AgreeO.ite ?_ ?_
    | with_reducible exact AgreeO.refused
    | with_reducible exact AgreeO.fault
    | ((conv => arg 3; arg 88; skip); with_reducible first | refine upd_landing ?_ ?_)
    | with_reducible refine Agree.ite ?_ ?_
    | dsimp only
    | split
    | (with_reducible refine Agree.of_pair (by assumption) ?_)
    | (with_reducible refine Agree.of_pair2 (by assumption) ?_)
    | intro _
theorem execSquash_step {M s0} {id : Nat} {s : State} (hs : bitsIn 0x2000000000 M = true) (hA : Agree M s0 s) : AgreeO M s0 (execSquash id s) :=
  hA.stepO hs (execSquash_frame id s)

theorem execSquashComplete_frame (id : Nat) (s : State) : AgreeO 0x2000000200 s (execSquashComplete id s) := by
  unfold execSquashComplete
  repeat' first
    | with_reducible assumption
    | with_reducible exact Agree.refl _ _
    | exact bitsIn_rfl rfl
    | with_reducible refine AgreeO.next ?_
    | with_reducible refine AgreeO.ite ?_ ?_
    | with_reducible exact AgreeO.refused
    | with_reducible exact AgreeO.fault
    | with_reducible refine squashDone_step ?_ ?_
    | with_reducible refine Agree.ite ?_ ?_
    | dsimp only
    | split
    | (with_reducible refine Agree.of_pair (by assumption) ?_)
    | (with_reducible refine Agree.of_pair2 (by assumption) ?_)
    | intro _
theorem execSquashComplete_step {M s0} {id : Nat} {s : State} (hs : bitsIn 0x2000000200 M = true) (hA : Agree M s0 s) : AgreeO M s0 (execSquashComplete id s) :=
  hA.stepO hs (execSquashComplete_frame id s)

theorem execSlotTtlExpiry_frame (id : Nat) (s : State) : AgreeO 0x2000000000 s (execSlotTtlExpiry id s) := by
  unfold execSlotTtlExpiry
  repeat' first
    | with_reducible assumption
    | with_reducible exact Agree.refl _ _
    | exact bitsIn_rfl rfl
    | with_reducible refine AgreeO.next ?_
    | with_reducible refine AgreeO.ite ?_ ?_
    | with_reducible exact AgreeO.refused
    | with_reducible exact AgreeO.fault
    | with_reducible refine doomSlot_step ?_ ?_
    | with_reducible refine Agree.ite ?_ ?_
    | dsimp only
    | split
    | (with_reducible refine Agree.of_pair (by assumption) ?_)
    | (with_reducible refine Agree.of_pair2 (by assumption) ?_)
    | intro _
theorem execSlotTtlExpiry_step {M s0} {id : Nat} {s : State} (hs : bitsIn 0x2000000000 M = true) (hA : Agree M s0 s) : AgreeO M s0 (execSlotTtlExpiry id s) :=
  hA.stepO hs (execSlotTtlExpiry_frame id s)

end Sys2Proof.Machine
end

