-- ==== Sys2Proof/Laws/FrameQueues.lean ====
section
/-!
SUPPORT. The frame of every function of Machine/Queues.lean that answers a state: the fields it can change, by mask.
-/

set_option linter.unusedTactic false
set_option linter.unreachableTactic false
set_option linter.unusedVariables false

namespace Sys2Proof.Machine

theorem modSched_frame (s : State) (i : Nat) (f : Sched → Sched) : Agree 0x100000000000000000 s (modSched s i f) := by
  unfold modSched
  repeat' first
    | with_reducible assumption
    | with_reducible exact Agree.refl _ _
    | exact bitsIn_rfl rfl
    | ((conv => arg 3; arg 88; skip); with_reducible first | refine upd_scheds ?_ ?_)
    | with_reducible refine Agree.ite ?_ ?_
    | dsimp only
    | split
    | (with_reducible refine Agree.of_pair (by assumption) ?_)
    | (with_reducible refine Agree.of_pair2 (by assumption) ?_)
    | intro _
theorem modSched_step {M s0} {s : State} {i : Nat} {f : Sched → Sched} (hs : bitsIn 0x100000000000000000 M = true) (hA : Agree M s0 s) : Agree M s0 (modSched s i f) :=
  hA.step hs (modSched_frame s i f)

theorem chooseHolder_frame (s : State) (i : Nat) (ready : List Nat) : Agree 0x100000000000000000 s (chooseHolder s i ready).2 := by
  unfold chooseHolder
  repeat' first
    | with_reducible assumption
    | with_reducible exact Agree.refl _ _
    | exact bitsIn_rfl rfl
    | with_reducible refine modSched_step ?_ ?_
    | with_reducible refine Agree.ite ?_ ?_
    | (with_reducible refine Agree.foldl ?_ ?_; intro _ _ _)
    | (with_reducible refine Agree.foldl2 ?_ ?_; intro _ _ _)
    | (with_reducible refine Agree.foldl3 ?_ ?_; intro _ _ _)
    | (with_reducible refine Agree.foldl4 ?_ ?_; intro _ _ _)
    | dsimp only
    | split
    | (with_reducible refine Agree.of_pair (by assumption) ?_)
    | (with_reducible refine Agree.of_pair2 (by assumption) ?_)
    | intro _
theorem chooseHolder_step {M s0} {s : State} {i : Nat} {ready : List Nat} (hs : bitsIn 0x100000000000000000 M = true) (hA : Agree M s0 s) : Agree M s0 (chooseHolder s i ready).2 :=
  hA.step hs (chooseHolder_frame s i ready)

theorem setSlotState_frame (s : State) (space st : Nat) : Agree 0x10000000000000000000000000000000000 s (setSlotState s space st) := by
  unfold setSlotState
  repeat' first
    | with_reducible assumption
    | with_reducible exact Agree.refl _ _
    | exact bitsIn_rfl rfl
    | exact regIn_rfl rfl rfl
    | with_reducible refine setF_step ?_ ?_ ?_
    | with_reducible refine Agree.ite ?_ ?_
    | dsimp only
    | split
    | (with_reducible refine Agree.of_pair (by assumption) ?_)
    | (with_reducible refine Agree.of_pair2 (by assumption) ?_)
    | intro _
theorem setSlotState_step {M s0} {s : State} {space st : Nat} (hs : bitsIn 0x10000000000000000000000000000000000 M = true) (hA : Agree M s0 s) : Agree M s0 (setSlotState s space st) :=
  hA.step hs (setSlotState_frame s space st)

theorem setHolder_frame (s : State) (i : Nat) (c : Option Nat) : Agree 0x30000000000000000100000000000000000 s (setHolder s i c) := by
  unfold setHolder
  repeat' first
    | with_reducible assumption
    | with_reducible exact Agree.refl _ _
    | exact bitsIn_rfl rfl
    | exact regIn_rfl rfl rfl
    | with_reducible refine modSched_step ?_ ?_
    | with_reducible refine setF_step ?_ ?_ ?_
    | with_reducible refine setSlotState_step ?_ ?_
    | with_reducible refine Agree.ite ?_ ?_
    | dsimp only
    | split
    | (with_reducible refine Agree.of_pair (by assumption) ?_)
    | (with_reducible refine Agree.of_pair2 (by assumption) ?_)
    | intro _
theorem setHolder_step {M s0} {s : State} {i : Nat} {c : Option Nat} (hs : bitsIn 0x30000000000000000100000000000000000 M = true) (hA : Agree M s0 s) : Agree M s0 (setHolder s i c) :=
  hA.step hs (setHolder_frame s i c)

theorem handOver_frame (s : State) (i old : Nat) (new : Option Nat) : Agree 0x30000000000000000100000000000000000 s (handOver s i old new) := by
  unfold handOver
  repeat' first
    | with_reducible assumption
    | with_reducible exact Agree.refl _ _
    | exact bitsIn_rfl rfl
    | exact regIn_rfl rfl rfl
    | with_reducible refine modSched_step ?_ ?_
    | with_reducible refine setHolder_step ?_ ?_
    | with_reducible refine setSlotState_step ?_ ?_
    | with_reducible refine Agree.ite ?_ ?_
    | dsimp only
    | split
    | (with_reducible refine Agree.of_pair (by assumption) ?_)
    | (with_reducible refine Agree.of_pair2 (by assumption) ?_)
    | intro _
theorem handOver_step {M s0} {s : State} {i old : Nat} {new : Option Nat} (hs : bitsIn 0x30000000000000000100000000000000000 M = true) (hA : Agree M s0 s) : Agree M s0 (handOver s i old new) :=
  hA.step hs (handOver_frame s i old new)

theorem startSlice_frame (s : State) (i space : Nat) : Agree 0x180000000000000000 s (startSlice s i space) := by
  unfold startSlice
  repeat' first
    | with_reducible assumption
    | with_reducible exact Agree.refl _ _
    | exact bitsIn_rfl rfl
    | with_reducible refine modCtx_step ?_ ?_
    | with_reducible refine modSched_step ?_ ?_
    | with_reducible refine Agree.ite ?_ ?_
    | dsimp only
    | split
    | (with_reducible refine Agree.of_pair (by assumption) ?_)
    | (with_reducible refine Agree.of_pair2 (by assumption) ?_)
    | intro _
theorem startSlice_step {M s0} {s : State} {i space : Nat} (hs : bitsIn 0x180000000000000000 M = true) (hA : Agree M s0 s) : Agree M s0 (startSlice s i space) :=
  hA.step hs (startSlice_frame s i space)

theorem schedule_frame (s : State) (i : Nat) : Agree 0x30000000000000000180000000000000000 s (schedule s i) := by
  unfold schedule
  repeat' first
    | with_reducible assumption
    | with_reducible exact Agree.refl _ _
    | exact bitsIn_rfl rfl
    | exact regIn_rfl rfl rfl
    | with_reducible refine chooseHolder_step ?_ ?_
    | with_reducible refine handOver_step ?_ ?_
    | with_reducible refine modCtx_step ?_ ?_
    | with_reducible refine modSched_step ?_ ?_
    | with_reducible refine setHolder_step ?_ ?_
    | with_reducible refine startSlice_step ?_ ?_
    | with_reducible refine Agree.ite ?_ ?_
    | dsimp only
    | split
    | (with_reducible refine Agree.of_pair (by assumption) ?_)
    | (with_reducible refine Agree.of_pair2 (by assumption) ?_)
    | intro _
theorem schedule_step {M s0} {s : State} {i : Nat} (hs : bitsIn 0x30000000000000000180000000000000000 M = true) (hA : Agree M s0 s) : Agree M s0 (schedule s i) :=
  hA.step hs (schedule_frame s i)

theorem teardown_frame (s : State) (space code : Nat) : Agree 0x30000000000000000180000000000000200 s (teardown s space code) := by
  unfold teardown
  repeat' first
    | with_reducible assumption
    | with_reducible exact Agree.refl _ _
    | exact bitsIn_rfl rfl
    | exact regIn_rfl rfl rfl
    | with_reducible refine modCtx_step ?_ ?_
    | with_reducible refine modSched_step ?_ ?_
    | with_reducible refine schedule_step ?_ ?_
    | with_reducible refine setBatch_step ?_ ?_
    | with_reducible refine setHolder_step ?_ ?_
    | with_reducible refine setSlotState_step ?_ ?_
    | with_reducible refine startSlice_step ?_ ?_
    | with_reducible refine Agree.ite ?_ ?_
    | (with_reducible refine Agree.foldl ?_ ?_; intro _ _ _)
    | (with_reducible refine Agree.foldl2 ?_ ?_; intro _ _ _)
    | (with_reducible refine Agree.foldl3 ?_ ?_; intro _ _ _)
    | (with_reducible refine Agree.foldl4 ?_ ?_; intro _ _ _)
    | dsimp only
    | split
    | (with_reducible refine Agree.of_pair (by assumption) ?_)
    | (with_reducible refine Agree.of_pair2 (by assumption) ?_)
    | intro _
theorem teardown_step {M s0} {s : State} {space code : Nat} (hs : bitsIn 0x30000000000000000180000000000000200 M = true) (hA : Agree M s0 s) : Agree M s0 (teardown s space code) :=
  hA.step hs (teardown_frame s space code)

theorem writeStatus_frame (s : State) (q : Nat) : Agree 0x400000000000000000404302800000040800001800000020000000000000000580000c04fc180 s (writeStatus s q) := by
  unfold writeStatus
  repeat' first
    | with_reducible assumption
    | with_reducible exact Agree.refl _ _
    | exact bitsIn_rfl rfl
    | exact regIn_rfl rfl rfl
    | with_reducible refine devWrite_step ?_ ?_
    | with_reducible refine Agree.ite ?_ ?_
    | dsimp only
    | split
    | (with_reducible refine Agree.of_pair (by assumption) ?_)
    | (with_reducible refine Agree.of_pair2 (by assumption) ?_)
    | intro _
theorem writeStatus_step {M s0} {s : State} {q : Nat} (hs : bitsIn 0x400000000000000000404302800000040800001800000020000000000000000580000c04fc180 M = true) (hA : Agree M s0 s) : Agree M s0 (writeStatus s q) :=
  hA.step hs (writeStatus_frame s q)

theorem haltQueue_frame (s : State) (q state code idx tag : Nat) : Agree 0x100000400000000000000000404302800000040800001800000020000000000002000580040c04fc180 s (haltQueue s q state code idx tag) := by
  unfold haltQueue
  repeat' first
    | with_reducible assumption
    | with_reducible exact Agree.refl _ _
    | exact bitsIn_rfl rfl
    | exact regIn_rfl rfl rfl
    | with_reducible refine modQueue_step ?_ ?_
    | with_reducible refine postEvent_step ?_ ?_
    | with_reducible refine writeStatus_step ?_ ?_
    | with_reducible refine Agree.ite ?_ ?_
    | dsimp only
    | split
    | (with_reducible refine Agree.of_pair (by assumption) ?_)
    | (with_reducible refine Agree.of_pair2 (by assumption) ?_)
    | intro _
theorem haltQueue_step {M s0} {s : State} {q state code idx tag : Nat} (hs : bitsIn 0x100000400000000000000000404302800000040800001800000020000000000002000580040c04fc180 M = true) (hA : Agree M s0 s) : Agree M s0 (haltQueue s q state code idx tag) :=
  hA.step hs (haltQueue_frame s q state code idx tag)

theorem stopQueue_frame (s : State) (q code idx tag : Nat) : Agree 0x100000400000000000000000404302800000040800001800000020000000000002000580040c04fc180 s (stopQueue s q code idx tag) := by
  unfold stopQueue
  repeat' first
    | with_reducible assumption
    | with_reducible exact Agree.refl _ _
    | exact bitsIn_rfl rfl
    | exact regIn_rfl rfl rfl
    | with_reducible refine haltQueue_step ?_ ?_
    | with_reducible refine Agree.ite ?_ ?_
    | dsimp only
    | split
    | (with_reducible refine Agree.of_pair (by assumption) ?_)
    | (with_reducible refine Agree.of_pair2 (by assumption) ?_)
    | intro _
theorem stopQueue_step {M s0} {s : State} {q code idx tag : Nat} (hs : bitsIn 0x100000400000000000000000404302800000040800001800000020000000000002000580040c04fc180 M = true) (hA : Agree M s0 s) : Agree M s0 (stopQueue s q code idx tag) :=
  hA.step hs (stopQueue_frame s q code idx tag)

theorem forgetSpace_frame (s : State) (space : Nat) : Agree 0x200 s (forgetSpace s space) := by
  unfold forgetSpace
  repeat' first
    | with_reducible assumption
    | with_reducible exact Agree.refl _ _
    | exact bitsIn_rfl rfl
    | ((with_reducible refine MemOf.intro ?_); first | exact fun _ w => memoriesWf_mapCores w (fun kv => by dsimp only; repeat' first | exact ⟨rfl, rfl⟩ | split))
    | ((conv => arg 3; arg 88; skip); with_reducible first | refine upd_cores ?_ ?_ ?_)
    | with_reducible refine Agree.ite ?_ ?_
    | dsimp only
    | split
    | (with_reducible refine Agree.of_pair (by assumption) ?_)
    | (with_reducible refine Agree.of_pair2 (by assumption) ?_)
    | intro _
theorem forgetSpace_step {M s0} {s : State} {space : Nat} (hs : bitsIn 0x200 M = true) (hA : Agree M s0 s) : Agree M s0 (forgetSpace s space) :=
  hA.step hs (forgetSpace_frame s space)

theorem schOp_step {M s0} {s : State} {win : Nat} {masks : List Nat} {f : State → Nat × State} (hs : bitsIn 0x200000000000000000000000000000000000 M = true)
    (hf : ∀ s, Agree M s0 s → Agree M s0 (f s).2) (h : Agree M s0 s) : Agree M s0 (schOp s win masks f) := by
  unfold schOp
  dsimp only
  have h2 : Agree M s0 (if (List.range 4).all (fun k => Nat.land (schArg s win k) (masks.getD k 0) = schArg s win k) then f s
      else (resBadArg, s)).2 := by
    split
    · exact hf s h
    · exact h
  exact Agree.ite h (Agree.ite h2 (setF_step (bitsIn_trans rfl hs) (regIn_sub rfl rfl hs) h2))

theorem execCtxCreate_frame (win : Nat) (s : State) : AgreeO 0x200000000000000000080000000000040200 s (execCtxCreate win s) := by
  unfold execCtxCreate
  repeat' first
    | with_reducible assumption
    | with_reducible exact Agree.refl _ _
    | exact bitsIn_rfl rfl
    | exact regIn_rfl rfl rfl
    | with_reducible refine AgreeO.next ?_
    | with_reducible refine AgreeO.ite ?_ ?_
    | with_reducible exact AgreeO.refused
    | with_reducible exact AgreeO.fault
    | ((with_reducible refine MemOf.intro ?_); first | exact fun _ w => ⟨w.1, canonical_memPut _ _ w.2.1, w.2.2⟩)
    | with_reducible refine forgetSpace_step ?_ ?_
    | with_reducible refine schOp_step ?_ ?_ ?_
    | ((conv => arg 3; arg 88; skip); with_reducible first | refine upd_host_ctxs ?_ ?_ ?_)
    | with_reducible refine Agree.ite ?_ ?_
    | dsimp only
    | split
    | (with_reducible refine Agree.of_pair (by assumption) ?_)
    | (with_reducible refine Agree.of_pair2 (by assumption) ?_)
    | intro _
theorem execCtxCreate_step {M s0} {win : Nat} {s : State} (hs : bitsIn 0x200000000000000000080000000000040200 M = true) (hA : Agree M s0 s) : AgreeO M s0 (execCtxCreate win s) :=
  hA.stepO hs (execCtxCreate_frame win s)

theorem execCtxDestroy_frame (win : Nat) (s : State) : AgreeO 0x230000000000000000180000000000000200 s (execCtxDestroy win s) := by
  unfold execCtxDestroy
  repeat' first
    | with_reducible assumption
    | with_reducible exact Agree.refl _ _
    | exact bitsIn_rfl rfl
    | exact regIn_rfl rfl rfl
    | with_reducible refine AgreeO.next ?_
    | with_reducible refine AgreeO.ite ?_ ?_
    | with_reducible exact AgreeO.refused
    | with_reducible exact AgreeO.fault
    | with_reducible refine schOp_step ?_ ?_ ?_
    | with_reducible refine teardown_step ?_ ?_
    | with_reducible refine Agree.ite ?_ ?_
    | dsimp only
    | split
    | (with_reducible refine Agree.of_pair (by assumption) ?_)
    | (with_reducible refine Agree.of_pair2 (by assumption) ?_)
    | intro _
theorem execCtxDestroy_step {M s0} {win : Nat} {s : State} (hs : bitsIn 0x230000000000000000180000000000000200 M = true) (hA : Agree M s0 s) : AgreeO M s0 (execCtxDestroy win s) :=
  hA.stepO hs (execCtxDestroy_frame win s)

theorem execCtxKill_frame (win : Nat) (s : State) : AgreeO 0x230000000000000000180000000000000200 s (execCtxKill win s) := by
  unfold execCtxKill
  repeat' first
    | with_reducible assumption
    | with_reducible exact Agree.refl _ _
    | exact bitsIn_rfl rfl
    | exact regIn_rfl rfl rfl
    | with_reducible refine AgreeO.next ?_
    | with_reducible refine AgreeO.ite ?_ ?_
    | with_reducible exact AgreeO.refused
    | with_reducible exact AgreeO.fault
    | with_reducible refine schOp_step ?_ ?_ ?_
    | with_reducible refine teardown_step ?_ ?_
    | with_reducible refine Agree.ite ?_ ?_
    | dsimp only
    | split
    | (with_reducible refine Agree.of_pair (by assumption) ?_)
    | (with_reducible refine Agree.of_pair2 (by assumption) ?_)
    | intro _
theorem execCtxKill_step {M s0} {win : Nat} {s : State} (hs : bitsIn 0x230000000000000000180000000000000200 M = true) (hA : Agree M s0 s) : AgreeO M s0 (execCtxKill win s) :=
  hA.stepO hs (execCtxKill_frame win s)

theorem winFence_frame (s : State) (win : Nat) (mask : Nat) (act : Nat → FenceAct) : Agree 0x100000400000000000000000404302800020040800001802000023000000000034000780040c04ff180 s (winFence s win mask act) := by
  unfold winFence
  repeat' first
    | with_reducible assumption
    | with_reducible exact Agree.refl _ _
    | exact bitsIn_rfl rfl
    | exact regIn_rfl rfl rfl
    | with_reducible refine devEnd_step ?_ ?_
    | with_reducible refine fenceOp_step ?_ ?_
    | with_reducible refine schOp_step ?_ ?_ ?_
    | (with_reducible refine AgreeFenceRes.of_done ?_ (by assumption))
    | (with_reducible refine AgreeFenceRes.of_sent ?_ (by assumption))
    | (with_reducible refine AgreeFenceRes.of_wait ?_ (by assumption))
    | (with_reducible refine AgreeFenceRes.of_failed ?_ (by assumption))
    | with_reducible refine Agree.ite ?_ ?_
    | dsimp only
    | split
    | (with_reducible refine Agree.of_pair (by assumption) ?_)
    | (with_reducible refine Agree.of_pair2 (by assumption) ?_)
    | intro _
theorem winFence_step {M s0} {s : State} {win : Nat} {mask : Nat} {act : Nat → FenceAct} (hs : bitsIn 0x100000400000000000000000404302800020040800001802000023000000000034000780040c04ff180 M = true) (hA : Agree M s0 s) : Agree M s0 (winFence s win mask act) :=
  hA.step hs (winFence_frame s win mask act)

theorem execFenceError_frame (win : Nat) (s : State) : AgreeO 0x100000400000000000000000404302800020040800001802000023000000000034000780040c04ff180 s (execFenceError win s) := by
  unfold execFenceError
  repeat' first
    | with_reducible assumption
    | with_reducible exact Agree.refl _ _
    | exact bitsIn_rfl rfl
    | exact regIn_rfl rfl rfl
    | with_reducible refine AgreeO.next ?_
    | with_reducible refine AgreeO.ite ?_ ?_
    | with_reducible exact AgreeO.refused
    | with_reducible exact AgreeO.fault
    | with_reducible refine winFence_step ?_ ?_
    | with_reducible refine Agree.ite ?_ ?_
    | dsimp only
    | split
    | (with_reducible refine Agree.of_pair (by assumption) ?_)
    | (with_reducible refine Agree.of_pair2 (by assumption) ?_)
    | intro _
theorem execFenceError_step {M s0} {win : Nat} {s : State} (hs : bitsIn 0x100000400000000000000000404302800020040800001802000023000000000034000780040c04ff180 M = true) (hA : Agree M s0 s) : AgreeO M s0 (execFenceError win s) :=
  hA.stepO hs (execFenceError_frame win s)

theorem execFenceReset_frame (win : Nat) (s : State) : AgreeO 0x100000400000000000000000404302800020040800001802000023000000000034000780040c04ff180 s (execFenceReset win s) := by
  unfold execFenceReset
  repeat' first
    | with_reducible assumption
    | with_reducible exact Agree.refl _ _
    | exact bitsIn_rfl rfl
    | exact regIn_rfl rfl rfl
    | with_reducible refine AgreeO.next ?_
    | with_reducible refine AgreeO.ite ?_ ?_
    | with_reducible exact AgreeO.refused
    | with_reducible exact AgreeO.fault
    | with_reducible refine winFence_step ?_ ?_
    | with_reducible refine Agree.ite ?_ ?_
    | dsimp only
    | split
    | (with_reducible refine Agree.of_pair (by assumption) ?_)
    | (with_reducible refine Agree.of_pair2 (by assumption) ?_)
    | intro _
theorem execFenceReset_step {M s0} {win : Nat} {s : State} (hs : bitsIn 0x100000400000000000000000404302800020040800001802000023000000000034000780040c04ff180 M = true) (hA : Agree M s0 s) : AgreeO M s0 (execFenceReset win s) :=
  hA.stepO hs (execFenceReset_frame win s)

theorem execFenceSignal_frame (win : Nat) (s : State) : AgreeO 0x100000400000000000000000404302800020040800001802000023000000000034000780040c04ff180 s (execFenceSignal win s) := by
  unfold execFenceSignal
  repeat' first
    | with_reducible assumption
    | with_reducible exact Agree.refl _ _
    | exact bitsIn_rfl rfl
    | exact regIn_rfl rfl rfl
    | with_reducible refine AgreeO.next ?_
    | with_reducible refine AgreeO.ite ?_ ?_
    | with_reducible exact AgreeO.refused
    | with_reducible exact AgreeO.fault
    | with_reducible refine winFence_step ?_ ?_
    | with_reducible refine Agree.ite ?_ ?_
    | dsimp only
    | split
    | (with_reducible refine Agree.of_pair (by assumption) ?_)
    | (with_reducible refine Agree.of_pair2 (by assumption) ?_)
    | intro _
theorem execFenceSignal_step {M s0} {win : Nat} {s : State} (hs : bitsIn 0x100000400000000000000000404302800020040800001802000023000000000034000780040c04ff180 M = true) (hA : Agree M s0 s) : AgreeO M s0 (execFenceSignal win s) :=
  hA.stepO hs (execFenceSignal_frame win s)

theorem retireObjects_frame (s : State) : Agree 0x100000400000000000000000404302800000040800001800000020000000000008000580040c04fc180 s (retireObjects s) := by
  unfold retireObjects
  repeat' first
    | with_reducible assumption
    | with_reducible exact Agree.refl _ _
    | exact bitsIn_rfl rfl
    | exact regIn_rfl rfl rfl
    | with_reducible refine devWrite_step ?_ ?_
    | with_reducible refine postEvent_step ?_ ?_
    | ((conv => arg 3; arg 88; skip); with_reducible first | refine upd_objs ?_ ?_)
    | with_reducible refine Agree.ite ?_ ?_
    | (with_reducible refine Agree.foldl ?_ ?_; intro _ _ _)
    | (with_reducible refine Agree.foldl2 ?_ ?_; intro _ _ _)
    | (with_reducible refine Agree.foldl3 ?_ ?_; intro _ _ _)
    | (with_reducible refine Agree.foldl4 ?_ ?_; intro _ _ _)
    | dsimp only
    | split
    | (with_reducible refine Agree.of_pair (by assumption) ?_)
    | (with_reducible refine Agree.of_pair2 (by assumption) ?_)
    | intro _
theorem retireObjects_step {M s0} {s : State} (hs : bitsIn 0x100000400000000000000000404302800000040800001800000020000000000008000580040c04fc180 M = true) (hA : Agree M s0 s) : Agree M s0 (retireObjects s) :=
  hA.step hs (retireObjects_frame s)

theorem execObjFree_frame (win : Nat) (s : State) : AgreeO 0x100000400000000000000000404302800020040800001802000020000000000008000780040c04ff180 s (execObjFree win s) := by
  unfold execObjFree
  repeat' first
    | with_reducible assumption
    | with_reducible exact Agree.refl _ _
    | exact bitsIn_rfl rfl
    | exact regIn_rfl rfl rfl
    | with_reducible refine AgreeO.next ?_
    | with_reducible refine AgreeO.ite ?_ ?_
    | with_reducible exact AgreeO.refused
    | with_reducible exact AgreeO.fault
    | with_reducible refine devDone_step ?_ ?_
    | with_reducible refine devRead_step ?_ ?_
    | with_reducible refine devWrite_step ?_ ?_
    | with_reducible refine retireObjects_step ?_ ?_
    | with_reducible refine schOp_step ?_ ?_ ?_
    | ((conv => arg 3; arg 88; skip); with_reducible first | refine upd_objs ?_ ?_)
    | with_reducible refine Agree.ite ?_ ?_
    | dsimp only
    | split
    | (with_reducible refine Agree.of_pair (by assumption) ?_)
    | (with_reducible refine Agree.of_pair2 (by assumption) ?_)
    | intro _
theorem execObjFree_step {M s0} {win : Nat} {s : State} (hs : bitsIn 0x100000400000000000000000404302800020040800001802000020000000000008000780040c04ff180 M = true) (hA : Agree M s0 s) : AgreeO M s0 (execObjFree win s) :=
  hA.stepO hs (execObjFree_frame win s)

theorem execQCreate_frame (win : Nat) (s : State) : AgreeO 0x400000000000000000404302800000040800001802100060000000000002000587000c04fc180 s (execQCreate win s) := by
  unfold execQCreate
  repeat' first
    | with_reducible assumption
    | with_reducible exact Agree.refl _ _
    | exact bitsIn_rfl rfl
    | exact regIn_rfl rfl rfl
    | with_reducible refine AgreeO.next ?_
    | with_reducible refine AgreeO.ite ?_ ?_
    | with_reducible exact AgreeO.refused
    | with_reducible exact AgreeO.fault
    | with_reducible refine advanceInstar_step ?_ ?_
    | with_reducible refine schOp_step ?_ ?_ ?_
    | with_reducible refine setF_step ?_ ?_ ?_
    | with_reducible refine writeStatus_step ?_ ?_
    | ((conv => arg 3; arg 88; skip); with_reducible first | refine upd_queues ?_ ?_)
    | with_reducible refine Agree.ite ?_ ?_
    | dsimp only
    | split
    | (with_reducible refine Agree.of_pair (by assumption) ?_)
    | (with_reducible refine Agree.of_pair2 (by assumption) ?_)
    | intro _
theorem execQCreate_step {M s0} {win : Nat} {s : State} (hs : bitsIn 0x400000000000000000404302800000040800001802100060000000000002000587000c04fc180 M = true) (hA : Agree M s0 s) : AgreeO M s0 (execQCreate win s) :=
  hA.stepO hs (execQCreate_frame win s)

theorem execQDestroy_frame (win : Nat) (s : State) : AgreeO 0x400000000000000000404302800000040800001802100060000000000002000587000c04fc180 s (execQDestroy win s) := by
  unfold execQDestroy
  repeat' first
    | with_reducible assumption
    | with_reducible exact Agree.refl _ _
    | exact bitsIn_rfl rfl
    | exact regIn_rfl rfl rfl
    | with_reducible refine AgreeO.next ?_
    | with_reducible refine AgreeO.ite ?_ ?_
    | with_reducible exact AgreeO.refused
    | with_reducible exact AgreeO.fault
    | with_reducible refine advanceInstar_step ?_ ?_
    | with_reducible refine modQueue_step ?_ ?_
    | with_reducible refine schOp_step ?_ ?_ ?_
    | with_reducible refine setF_step ?_ ?_ ?_
    | with_reducible refine writeStatus_step ?_ ?_
    | ((conv => arg 3; arg 88; skip); with_reducible first | refine upd_queues ?_ ?_)
    | with_reducible refine Agree.ite ?_ ?_
    | dsimp only
    | split
    | (with_reducible refine Agree.of_pair (by assumption) ?_)
    | (with_reducible refine Agree.of_pair2 (by assumption) ?_)
    | intro _
theorem execQDestroy_step {M s0} {win : Nat} {s : State} (hs : bitsIn 0x400000000000000000404302800000040800001802100060000000000002000587000c04fc180 M = true) (hA : Agree M s0 s) : AgreeO M s0 (execQDestroy win s) :=
  hA.stepO hs (execQDestroy_frame win s)

theorem failEarly_frame (s : State) (id code : Nat) (quiet : Bool) : Agree 0x400000000000000000 s (failEarly s id code quiet) := by
  unfold failEarly
  repeat' first
    | with_reducible assumption
    | with_reducible exact Agree.refl _ _
    | exact bitsIn_rfl rfl
    | with_reducible refine modCmd_step ?_ ?_
    | with_reducible refine Agree.ite ?_ ?_
    | dsimp only
    | split
    | (with_reducible refine Agree.of_pair (by assumption) ?_)
    | (with_reducible refine Agree.of_pair2 (by assumption) ?_)
    | intro _
theorem failEarly_step {M s0} {s : State} {id code : Nat} {quiet : Bool} (hs : bitsIn 0x400000000000000000 M = true) (hA : Agree M s0 s) : Agree M s0 (failEarly s id code quiet) :=
  hA.step hs (failEarly_frame s id code quiet)

theorem execQResume_frame (win : Nat) (s : State) : AgreeO 0x400000000000000000404302800000040800001802300020000000000007800580000c04fc180 s (execQResume win s) := by
  unfold execQResume
  repeat' first
    | with_reducible assumption
    | with_reducible exact Agree.refl _ _
    | exact bitsIn_rfl rfl
    | exact regIn_rfl rfl rfl
    | with_reducible refine AgreeO.next ?_
    | with_reducible refine AgreeO.ite ?_ ?_
    | with_reducible exact AgreeO.refused
    | with_reducible exact AgreeO.fault
    | with_reducible refine failEarly_step ?_ ?_
    | with_reducible refine modQueue_step ?_ ?_
    | with_reducible refine schOp_step ?_ ?_ ?_
    | with_reducible refine schedule_step ?_ ?_
    | with_reducible refine writeStatus_step ?_ ?_
    | with_reducible refine Agree.ite ?_ ?_
    | (with_reducible refine Agree.foldl ?_ ?_; intro _ _ _)
    | (with_reducible refine Agree.foldl2 ?_ ?_; intro _ _ _)
    | (with_reducible refine Agree.foldl3 ?_ ?_; intro _ _ _)
    | (with_reducible refine Agree.foldl4 ?_ ?_; intro _ _ _)
    | dsimp only
    | split
    | (with_reducible refine Agree.of_pair (by assumption) ?_)
    | (with_reducible refine Agree.of_pair2 (by assumption) ?_)
    | intro _
theorem execQResume_step {M s0} {win : Nat} {s : State} (hs : bitsIn 0x400000000000000000404302800000040800001802300020000000000007800580000c04fc180 M = true) (hA : Agree M s0 s) : AgreeO M s0 (execQResume win s) :=
  hA.stepO hs (execQResume_frame win s)

theorem execDoorbell_frame (win n v : Nat) (s : State) : AgreeO 0x100000400000000000000000404302800000040800001800300023000000000003800580040c04fc380 s (execDoorbell win n v s) := by
  unfold execDoorbell
  repeat' first
    | with_reducible assumption
    | with_reducible exact Agree.refl _ _
    | exact bitsIn_rfl rfl
    | exact regIn_rfl rfl rfl
    | with_reducible refine AgreeO.next ?_
    | with_reducible refine AgreeO.ite ?_ ?_
    | with_reducible exact AgreeO.refused
    | with_reducible exact AgreeO.fault
    | with_reducible refine countStale_step ?_ ?_
    | with_reducible refine modQueue_step ?_ ?_
    | with_reducible refine progress_step ?_ ?_
    | with_reducible refine schedule_step ?_ ?_
    | with_reducible refine stopQueue_step ?_ ?_
    | with_reducible refine Agree.ite ?_ ?_
    | dsimp only
    | split
    | (with_reducible refine Agree.of_pair (by assumption) ?_)
    | (with_reducible refine Agree.of_pair2 (by assumption) ?_)
    | intro _
theorem execDoorbell_step {M s0} {win n v : Nat} {s : State} (hs : bitsIn 0x100000400000000000000000404302800000040800001800300023000000000003800580040c04fc380 M = true) (hA : Agree M s0 s) : AgreeO M s0 (execDoorbell win n v s) :=
  hA.stepO hs (execDoorbell_frame win n v s)

theorem dropRefs_frame (s : State) (keys : List Nat) : Agree 0x100000400000000000000000404302800000040800001800000020000000000008000580040c04fc180 s (dropRefs s keys) := by
  unfold dropRefs
  repeat' first
    | with_reducible assumption
    | with_reducible exact Agree.refl _ _
    | exact bitsIn_rfl rfl
    | exact regIn_rfl rfl rfl
    | with_reducible refine retireObjects_step ?_ ?_
    | ((conv => arg 3; arg 88; skip); with_reducible first | refine upd_objs ?_ ?_)
    | with_reducible refine Agree.ite ?_ ?_
    | (with_reducible refine Agree.foldl ?_ ?_; intro _ _ _)
    | (with_reducible refine Agree.foldl2 ?_ ?_; intro _ _ _)
    | (with_reducible refine Agree.foldl3 ?_ ?_; intro _ _ _)
    | (with_reducible refine Agree.foldl4 ?_ ?_; intro _ _ _)
    | dsimp only
    | split
    | (with_reducible refine Agree.of_pair (by assumption) ?_)
    | (with_reducible refine Agree.of_pair2 (by assumption) ?_)
    | intro _
theorem dropRefs_step {M s0} {s : State} {keys : List Nat} (hs : bitsIn 0x100000400000000000000000404302800000040800001800000020000000000008000580040c04fc180 M = true) (hA : Agree M s0 s) : Agree M s0 (dropRefs s keys) :=
  hA.step hs (dropRefs_frame s keys)

theorem execInstarAdvance_frame (u : Unit8) (s : State) : AgreeO 0x400000000000000000404302800000040800001802100060000000000002000587000c04fc380 s (execInstarAdvance u s) := by
  unfold execInstarAdvance
  repeat' first
    | with_reducible assumption
    | with_reducible exact Agree.refl _ _
    | exact bitsIn_rfl rfl
    | exact regIn_rfl rfl rfl
    | with_reducible refine AgreeO.next ?_
    | with_reducible refine AgreeO.ite ?_ ?_
    | with_reducible exact AgreeO.refused
    | with_reducible exact AgreeO.fault
    | with_reducible refine modQueue_step ?_ ?_
    | with_reducible refine progress_step ?_ ?_
    | with_reducible refine setF_step ?_ ?_ ?_
    | with_reducible refine stepInstar_step ?_ ?_
    | with_reducible refine writeStatus_step ?_ ?_
    | ((conv => arg 3; arg 88; skip); with_reducible first | refine upd_instarDue ?_ ?_ | refine upd_queues ?_ ?_)
    | with_reducible refine Agree.ite ?_ ?_
    | dsimp only
    | split
    | (with_reducible refine Agree.of_pair (by assumption) ?_)
    | (with_reducible refine Agree.of_pair2 (by assumption) ?_)
    | intro _
theorem execInstarAdvance_step {M s0} {u : Unit8} {s : State} (hs : bitsIn 0x400000000000000000404302800000040800001802100060000000000002000587000c04fc380 M = true) (hA : Agree M s0 s) : AgreeO M s0 (execInstarAdvance u s) :=
  hA.stepO hs (execInstarAdvance_frame u s)

theorem takeRefs_frame (s : State) (keys : List Nat) : Agree 0x800000000000000000 s (takeRefs s keys) := by
  unfold takeRefs
  repeat' first
    | with_reducible assumption
    | with_reducible exact Agree.refl _ _
    | exact bitsIn_rfl rfl
    | ((conv => arg 3; arg 88; skip); with_reducible first | refine upd_objs ?_ ?_)
    | with_reducible refine Agree.ite ?_ ?_
    | (with_reducible refine Agree.foldl ?_ ?_; intro _ _ _)
    | (with_reducible refine Agree.foldl2 ?_ ?_; intro _ _ _)
    | (with_reducible refine Agree.foldl3 ?_ ?_; intro _ _ _)
    | (with_reducible refine Agree.foldl4 ?_ ?_; intro _ _ _)
    | dsimp only
    | split
    | (with_reducible refine Agree.of_pair (by assumption) ?_)
    | (with_reducible refine Agree.of_pair2 (by assumption) ?_)
    | intro _
theorem takeRefs_step {M s0} {s : State} {keys : List Nat} (hs : bitsIn 0x800000000000000000 M = true) (hA : Agree M s0 s) : Agree M s0 (takeRefs s keys) :=
  hA.step hs (takeRefs_frame s keys)

theorem checkHandles_frame (s : State) (slot : SlotInfo) (q : Nat) (x : Ctx) (l refs : List Nat) :
    Agree 0x400000000000000000404102800000040800001800000020000000000000000580000c04fc180 s (checkHandles s slot q x l refs).2 := by
  have key : ∀ l refs s0 s, Agree 0x400000000000000000404102800000040800001800000020000000000000000580000c04fc180 s0 s → Agree 0x400000000000000000404102800000040800001800000020000000000000000580000c04fc180 s0 (checkHandles s slot q x l refs).2 := by
    intro l
    induction l with
    | nil => intro refs s0 s h; exact h
    | cons y l ih =>
      intro refs s0 s h
      unfold checkHandles
      split
      · exact ih _ _ _ h
      · split
        · exact h
        · have h2 : Agree 0x400000000000000000404102800000040800001800000020000000000000000580000c04fc180 s0 (devRead s slot q 0 (objVa x y) 32).2 := devRead_step (bitsIn_rfl rfl) h
          split
          · rename_i e
            rw [e] at h2
            dsimp only
            split
            · exact h2
            · split
              · exact h2
              · exact ih _ _ _ h2
          · rename_i e; rw [e] at h2; exact h2
          · rename_i e; rw [e] at h2; exact h2
          · rename_i e; rw [e] at h2; exact h2
  exact key l refs s s (Agree.refl _ _)
theorem checkHandles_step {M s0} {s : State} {slot : SlotInfo} {q : Nat} {x : Ctx} {l refs : List Nat}
    (hs : bitsIn 0x400000000000000000404102800000040800001800000020000000000000000580000c04fc180 M = true) (h : Agree M s0 s) : Agree M s0 (checkHandles s slot q x l refs).2 :=
  h.step hs (checkHandles_frame s slot q x l refs)

theorem validate_frame (s : State) (slot : SlotInfo) (q : Nat) (x : Ctx) (c : Cmd) : Agree 0x400000000000000000404102800000040800001800000020000000000000000580000c04fc180 s (validate s slot q x c).2 := by
  unfold validate
  repeat' first
    | with_reducible assumption
    | with_reducible exact Agree.refl _ _
    | exact bitsIn_rfl rfl
    | exact regIn_rfl rfl rfl
    | with_reducible refine checkHandles_step ?_ ?_
    | with_reducible refine devRead_step ?_ ?_
    | with_reducible refine Agree.ite ?_ ?_
    | dsimp only
    | split
    | (with_reducible refine Agree.of_pair (by assumption) ?_)
    | (with_reducible refine Agree.of_pair2 (by assumption) ?_)
    | intro _
theorem validate_step {M s0} {s : State} {slot : SlotInfo} {q : Nat} {x : Ctx} {c : Cmd} (hs : bitsIn 0x400000000000000000404102800000040800001800000020000000000000000580000c04fc180 M = true) (hA : Agree M s0 s) : Agree M s0 (validate s slot q x c).2 :=
  hA.step hs (validate_frame s slot q x c)

theorem enterCmd_frame (s : State) (q : Nat) (v : Queue) (c : Cmd) : Agree 0x40000000000000000040430280002004080000180000002000000000000e000780000c04ff380 s (enterCmd s q v c) := by
  unfold enterCmd
  repeat' first
    | with_reducible assumption
    | with_reducible exact Agree.refl _ _
    | exact bitsIn_rfl rfl
    | exact regIn_rfl rfl rfl
    | with_reducible refine devDone_step ?_ ?_
    | with_reducible refine fresh_step ?_ ?_
    | with_reducible refine modQueue_step ?_ ?_
    | with_reducible refine progress_step ?_ ?_
    | with_reducible refine takeRefs_step ?_ ?_
    | with_reducible refine writeStatus_step ?_ ?_
    | ((conv => arg 3; arg 88; skip); with_reducible first | refine upd_cmds ?_ ?_)
    | with_reducible refine Agree.ite ?_ ?_
    | dsimp only
    | split
    | (with_reducible refine Agree.of_pair (by assumption) ?_)
    | (with_reducible refine Agree.of_pair2 (by assumption) ?_)
    | intro _
theorem enterCmd_step {M s0} {s : State} {q : Nat} {v : Queue} {c : Cmd} (hs : bitsIn 0x40000000000000000040430280002004080000180000002000000000000e000780000c04ff380 M = true) (hA : Agree M s0 s) : Agree M s0 (enterCmd s q v c) :=
  hA.step hs (enterCmd_frame s q v c)

theorem takeFailing_frame (s : State) (q : Nat) (v : Queue) (c : Cmd) (code : Nat) : Agree 0x40000000000000000040430280002004080000180000002000000000000e800780000c04ff380 s (takeFailing s q v c code) := by
  unfold takeFailing
  repeat' first
    | with_reducible assumption
    | with_reducible exact Agree.refl _ _
    | exact bitsIn_rfl rfl
    | exact regIn_rfl rfl rfl
    | with_reducible refine enterCmd_step ?_ ?_
    | with_reducible refine modCtx_step ?_ ?_
    | with_reducible refine Agree.ite ?_ ?_
    | dsimp only
    | split
    | (with_reducible refine Agree.of_pair (by assumption) ?_)
    | (with_reducible refine Agree.of_pair2 (by assumption) ?_)
    | intro _
theorem takeFailing_step {M s0} {s : State} {q : Nat} {v : Queue} {c : Cmd} {code : Nat} (hs : bitsIn 0x40000000000000000040430280002004080000180000002000000000000e800780000c04ff380 M = true) (hA : Agree M s0 s) : Agree M s0 (takeFailing s q v c code) :=
  hA.step hs (takeFailing_frame s q v c code)

theorem execCommandTake_frame (q : Nat) (s : State) : AgreeO 0x10000040000000000000000040430280002004080000192030802000000000000f800780045d84ff380 s (execCommandTake q s) := by
  unfold execCommandTake
  repeat' first
    | with_reducible assumption
    | with_reducible exact Agree.refl _ _
    | exact bitsIn_rfl rfl
    | exact regIn_rfl rfl rfl
    | with_reducible refine AgreeO.next ?_
    | with_reducible refine AgreeO.ite ?_ ?_
    | with_reducible exact AgreeO.refused
    | with_reducible exact AgreeO.fault
    | with_reducible refine devDone_step ?_ ?_
    | with_reducible refine devRead_step ?_ ?_
    | with_reducible refine devStall_step ?_ ?_
    | with_reducible refine enterCmd_step ?_ ?_
    | with_reducible refine modQueue_step ?_ ?_
    | with_reducible refine retireObjects_step ?_ ?_
    | with_reducible refine schedule_step ?_ ?_
    | with_reducible refine setF_step ?_ ?_ ?_
    | with_reducible refine stopQueue_step ?_ ?_
    | with_reducible refine takeFailing_step ?_ ?_
    | with_reducible refine validate_step ?_ ?_
    | with_reducible refine Agree.ite ?_ ?_
    | dsimp only
    | split
    | (with_reducible refine Agree.of_pair (by assumption) ?_)
    | (with_reducible refine Agree.of_pair2 (by assumption) ?_)
    | intro _
theorem execCommandTake_step {M s0} {q : Nat} {s : State} (hs : bitsIn 0x10000040000000000000000040430280002004080000192030802000000000000f800780045d84ff380 M = true) (hA : Agree M s0 s) : AgreeO M s0 (execCommandTake q s) :=
  hA.stepO hs (execCommandTake_frame q s)

theorem saveAreaOk_frame (slot : SlotInfo) (q : Nat) (s : State) (n va top : Nat) : Agree 0x400000000000000000404102800000040800001800000020000000000000000580000c04fc180 s (saveAreaOk slot q s n va top).2 := by
  induction n generalizing s va with
  | zero => exact Agree.refl _ _
  | succ n ih =>
    unfold saveAreaOk
    split
    · exact Agree.refl _ _
    · split
      · split
        · exact (devTouch_frame s slot q 0 va).step (bitsIn_rfl rfl) (ih _ _)
        · exact Agree.refl _ _
      · exact Agree.refl _ _
      · exact devTouch_frame s slot q 0 va
theorem saveAreaOk_step {M s0} {slot : SlotInfo} {q : Nat} {s : State} {n va top : Nat} (hs : bitsIn 0x400000000000000000404102800000040800001800000020000000000000000580000c04fc180 M = true)
    (h : Agree M s0 s) : Agree M s0 (saveAreaOk slot q s n va top).2 := h.step hs (saveAreaOk_frame slot q s n va top)

theorem leaveSlot_frame (s : State) (space : Nat) : Agree 0x10004000000000000080000702800000000 s (leaveSlot s space) := by
  unfold leaveSlot
  repeat' first
    | with_reducible assumption
    | with_reducible exact Agree.refl _ _
    | exact bitsIn_rfl rfl
    | exact regIn_rfl rfl rfl
    | with_reducible refine advanceInstar_step ?_ ?_
    | with_reducible refine doomIf_step ?_ ?_
    | with_reducible refine modCtx_step ?_ ?_
    | with_reducible refine setR_step ?_ ?_ ?_
    | ((conv => arg 3; arg 88; skip); with_reducible first | refine upd_slots ?_ ?_)
    | with_reducible refine Agree.ite ?_ ?_
    | dsimp only
    | split
    | (with_reducible refine Agree.of_pair (by assumption) ?_)
    | (with_reducible refine Agree.of_pair2 (by assumption) ?_)
    | intro _
theorem leaveSlot_step {M s0} {s : State} {space : Nat} (hs : bitsIn 0x10004000000000000080000702800000000 M = true) (hA : Agree M s0 s) : Agree M s0 (leaveSlot s space) :=
  hA.step hs (leaveSlot_frame s space)

theorem saveEntry_frame (s : State) (x : Ctx) (e : SlotInfo) (n top : Nat) : Agree 0x400000000000000000404102800000040800001800000020000000000000000580000c04fc180 s (saveEntry s x e n top).2 := by
  unfold saveEntry
  repeat' first
    | with_reducible assumption
    | with_reducible exact Agree.refl _ _
    | exact bitsIn_rfl rfl
    | exact regIn_rfl rfl rfl
    | with_reducible refine saveAreaOk_step ?_ ?_
    | with_reducible refine Agree.ite ?_ ?_
    | dsimp only
    | split
    | (with_reducible refine Agree.of_pair (by assumption) ?_)
    | (with_reducible refine Agree.of_pair2 (by assumption) ?_)
    | intro _
theorem saveEntry_step {M s0} {s : State} {x : Ctx} {e : SlotInfo} {n top : Nat} (hs : bitsIn 0x400000000000000000404102800000040800001800000020000000000000000580000c04fc180 M = true) (hA : Agree M s0 s) : Agree M s0 (saveEntry s x e n top).2 :=
  hA.step hs (saveEntry_frame s x e n top)

theorem slotEntry_frame (s : State) (space : Nat) (x : Ctx) : Agree 0x400000000000000000404102800000040800001800000020000000000000000580000c04fc180 s (slotEntry s space x).2 := by
  unfold slotEntry
  repeat' first
    | with_reducible assumption
    | with_reducible exact Agree.refl _ _
    | exact bitsIn_rfl rfl
    | exact regIn_rfl rfl rfl
    | with_reducible refine saveEntry_step ?_ ?_
    | with_reducible refine Agree.ite ?_ ?_
    | dsimp only
    | split
    | (with_reducible refine Agree.of_pair (by assumption) ?_)
    | (with_reducible refine Agree.of_pair2 (by assumption) ?_)
    | intro _
theorem slotEntry_step {M s0} {s : State} {space : Nat} {x : Ctx} (hs : bitsIn 0x400000000000000000404102800000040800001800000020000000000000000580000c04fc180 M = true) (hA : Agree M s0 s) : Agree M s0 (slotEntry s space x).2 :=
  hA.step hs (slotEntry_frame s space x)

theorem execContextResident_frame (space : Nat) (s : State) : AgreeO 0x100000400000000000000000404302800020040800001800300060000000000003800787068c04ff180 s (execContextResident space s) := by
  unfold execContextResident
  repeat' first
    | with_reducible assumption
    | with_reducible exact Agree.refl _ _
    | exact bitsIn_rfl rfl
    | exact regIn_rfl rfl rfl
    | with_reducible refine AgreeO.next ?_
    | with_reducible refine AgreeO.ite ?_ ?_
    | with_reducible exact AgreeO.refused
    | with_reducible exact AgreeO.fault
    | with_reducible refine advanceInstar_step ?_ ?_
    | with_reducible refine devEnd_step ?_ ?_
    | with_reducible refine leaveSlot_step ?_ ?_
    | with_reducible refine modCtx_step ?_ ?_
    | with_reducible refine schedule_step ?_ ?_
    | with_reducible refine setF_step ?_ ?_ ?_
    | with_reducible refine slotEntry_step ?_ ?_
    | with_reducible refine stopQueue_step ?_ ?_
    | ((conv => arg 3; arg 88; skip); with_reducible first | refine upd_slots ?_ ?_)
    | with_reducible refine Agree.ite ?_ ?_
    | (with_reducible refine Agree.foldl ?_ ?_; intro _ _ _)
    | (with_reducible refine Agree.foldl2 ?_ ?_; intro _ _ _)
    | (with_reducible refine Agree.foldl3 ?_ ?_; intro _ _ _)
    | (with_reducible refine Agree.foldl4 ?_ ?_; intro _ _ _)
    | dsimp only
    | split
    | (with_reducible refine Agree.of_pair (by assumption) ?_)
    | (with_reducible refine Agree.of_pair2 (by assumption) ?_)
    | intro _
theorem execContextResident_step {M s0} {space : Nat} {s : State} (hs : bitsIn 0x100000400000000000000000404302800020040800001800300060000000000003800787068c04ff180 M = true) (hA : Agree M s0 s) : AgreeO M s0 (execContextResident space s) :=
  hA.stepO hs (execContextResident_frame space s)

end Sys2Proof.Machine
end

