-- ==== Sys2Proof/Laws/FrameCommands.lean ====
section
/-!
SUPPORT. The frame of every function of Machine/Commands.lean that answers a state: the fields it can change, by mask.
-/

set_option linter.unusedTactic false
set_option linter.unreachableTactic false
set_option linter.unusedVariables false

namespace Sys2Proof.Machine

/-- The state of an answer of this kind agrees. -/
def AgreeSeqRes (M : Nat) (s : State) (r : SeqRes) : Prop := ∀ t, (∃ x0, r = .old x0 t) ∨ (r = .wait t) ∨ (r = .stop t) → Agree M s t

theorem AgreeSeqRes.old {M s t} {x0 } (h : Agree M s t) : AgreeSeqRes M s (.old x0 t) := by
  intro u e; simp at e; first | (subst e; exact h) | (obtain ⟨-, e⟩ := e; subst e; exact h) | (obtain ⟨-, -, e⟩ := e; subst e; exact h) 
theorem AgreeSeqRes.of_old {M s t r} {x0 } (h : AgreeSeqRes M s r) (e : r = .old x0 t) : Agree M s t := h t (.inl (⟨_, e⟩))
theorem AgreeSeqRes.wait {M s t} (h : Agree M s t) : AgreeSeqRes M s (.wait t) := by
  intro u e; simp at e; first | (subst e; exact h) | (obtain ⟨-, e⟩ := e; subst e; exact h) | (obtain ⟨-, -, e⟩ := e; subst e; exact h) 
theorem AgreeSeqRes.of_wait {M s t r} (h : AgreeSeqRes M s r) (e : r = .wait t) : Agree M s t := h t (.inr (.inl (e)))
theorem AgreeSeqRes.stop {M s t} (h : Agree M s t) : AgreeSeqRes M s (.stop t) := by
  intro u e; simp at e; first | (subst e; exact h) | (obtain ⟨-, e⟩ := e; subst e; exact h) | (obtain ⟨-, -, e⟩ := e; subst e; exact h) 
theorem AgreeSeqRes.of_stop {M s t r} (h : AgreeSeqRes M s r) (e : r = .stop t) : Agree M s t := h t (.inr (.inr (e)))
theorem AgreeSeqRes.ite {M s a b} {c : Prop} [Decidable c] (h1 : AgreeSeqRes M s a) (h2 : AgreeSeqRes M s b) : AgreeSeqRes M s (if c then a else b) := by split <;> assumption
theorem Agree.stepSeqRes {M m s0 s r} (h : Agree M s0 s) (hs : bitsIn m M = true) (g : AgreeSeqRes m s r) : AgreeSeqRes M s0 r := fun t ht => h.step hs (g t ht)

theorem beginCmd_frame (s : State) (id : Nat) (c : Cmd) : Agree 0x680000000000000200 s (beginCmd s id c) := by
  unfold beginCmd
  repeat' first
    | with_reducible assumption
    | with_reducible exact Agree.refl _ _
    | exact bitsIn_rfl rfl
    | with_reducible refine modCmd_step ?_ ?_
    | with_reducible refine modCtx_step ?_ ?_
    | with_reducible refine modQueue_step ?_ ?_
    | with_reducible refine progress_step ?_ ?_
    | with_reducible refine Agree.ite ?_ ?_
    | dsimp only
    | split
    | (with_reducible refine Agree.of_pair (by assumption) ?_)
    | (with_reducible refine Agree.of_pair2 (by assumption) ?_)
    | intro _
theorem beginCmd_step {M s0} {s : State} {id : Nat} {c : Cmd} (hs : bitsIn 0x680000000000000200 M = true) (hA : Agree M s0 s) : Agree M s0 (beginCmd s id c) :=
  hA.step hs (beginCmd_frame s id c)

theorem reactTo_frame (s : State) (q code idx tag : Nat) (noFence : Bool) : Agree 0x100000400000000000000000404302800000040800001800000020000000000002000580040c04fc180 s (reactTo s q code idx tag noFence) := by
  unfold reactTo
  repeat' first
    | with_reducible assumption
    | with_reducible exact Agree.refl _ _
    | exact bitsIn_rfl rfl
    | exact regIn_rfl rfl rfl
    | with_reducible refine haltQueue_step ?_ ?_
    | with_reducible refine modQueue_step ?_ ?_
    | with_reducible refine stopQueue_step ?_ ?_
    | with_reducible refine Agree.ite ?_ ?_
    | dsimp only
    | split
    | (with_reducible refine Agree.of_pair (by assumption) ?_)
    | (with_reducible refine Agree.of_pair2 (by assumption) ?_)
    | intro _
theorem reactTo_step {M s0} {s : State} {q code idx tag : Nat} {noFence : Bool} (hs : bitsIn 0x100000400000000000000000404302800000040800001800000020000000000002000580040c04fc180 M = true) (hA : Agree M s0 s) : Agree M s0 (reactTo s q code idx tag noFence) :=
  hA.step hs (reactTo_frame s q code idx tag noFence)

theorem dropWaits_frame (s : State) (id : Nat) : Agree 0x3000000000000000000 s (dropWaits s id) := by
  unfold dropWaits
  repeat' first
    | with_reducible assumption
    | with_reducible exact Agree.refl _ _
    | exact bitsIn_rfl rfl
    | ((conv => arg 3; arg 88; skip); with_reducible first | refine upd_fenceWaiters_fenceOuts ?_ ?_)
    | with_reducible refine Agree.ite ?_ ?_
    | dsimp only
    | split
    | (with_reducible refine Agree.of_pair (by assumption) ?_)
    | (with_reducible refine Agree.of_pair2 (by assumption) ?_)
    | intro _
theorem dropWaits_step {M s0} {s : State} {id : Nat} (hs : bitsIn 0x3000000000000000000 M = true) (hA : Agree M s0 s) : Agree M s0 (dropWaits s id) :=
  hA.step hs (dropWaits_frame s id)

theorem cmdStall_frame (s : State) (id : Nat) (c : Cmd) (rights : Nat) (fs : List TileFault) : Agree 0x404002000020040800000120000000000000000000000780005184c7180 s (cmdStall s id c rights fs) := by
  unfold cmdStall
  repeat' first
    | with_reducible assumption
    | with_reducible exact Agree.refl _ _
    | exact bitsIn_rfl rfl
    | exact regIn_rfl rfl rfl
    | with_reducible refine devStall_step ?_ ?_
    | with_reducible refine Agree.ite ?_ ?_
    | dsimp only
    | split
    | (with_reducible refine Agree.of_pair (by assumption) ?_)
    | (with_reducible refine Agree.of_pair2 (by assumption) ?_)
    | intro _
theorem cmdStall_step {M s0} {s : State} {id : Nat} {c : Cmd} {rights : Nat} {fs : List TileFault} (hs : bitsIn 0x404002000020040800000120000000000000000000000780005184c7180 M = true) (hA : Agree M s0 s) : Agree M s0 (cmdStall s id c rights fs) :=
  hA.step hs (cmdStall_frame s id c rights fs)

theorem cmdRead_step {M : Nat} {s0 : State} {s : State} {id : Nat} {c : Cmd} {va n : Nat} {k : List Byte → State → State} (hs : bitsIn 0x400000000000000000404102800020040800001920000020000000000004000780005d84ff180 M = true) (hk_k : ∀ (a0 : List Byte) (a1 : State), Agree M s0 a1 → Agree M s0 (k a0 a1)) (hA : Agree M s0 s) : Agree M s0 (cmdRead s id c va n k) := by
  unfold cmdRead
  repeat' first
    | with_reducible assumption
    | fail
    | exact bitsIn_trans rfl hs
    | exact regIn_sub rfl rfl hs
    | with_reducible refine cmdStall_step ?_ ?_
    | with_reducible refine devRead_step ?_ ?_
    | with_reducible refine endCmd_step ?_ ?_
    | with_reducible refine Agree.ite ?_ ?_
    | dsimp only
    | split
    | (with_reducible refine Agree.of_pair (by assumption) ?_)
    | (with_reducible refine Agree.of_pair2 (by assumption) ?_)
    | intro _
    | with_reducible refine hk_k _ _ ?_

theorem execCommandStart_frame (id : Nat) (s : State) : AgreeO 0x680000000000000200 s (execCommandStart id s) := by
  unfold execCommandStart
  repeat' first
    | with_reducible assumption
    | with_reducible exact Agree.refl _ _
    | exact bitsIn_rfl rfl
    | with_reducible refine AgreeO.next ?_
    | with_reducible refine AgreeO.ite ?_ ?_
    | with_reducible exact AgreeO.refused
    | with_reducible exact AgreeO.fault
    | with_reducible refine beginCmd_step ?_ ?_
    | with_reducible refine endCmd_step ?_ ?_
    | with_reducible refine modCmd_step ?_ ?_
    | with_reducible refine Agree.ite ?_ ?_
    | dsimp only
    | split
    | (with_reducible refine Agree.of_pair (by assumption) ?_)
    | (with_reducible refine Agree.of_pair2 (by assumption) ?_)
    | intro _
theorem execCommandStart_step {M s0} {id : Nat} {s : State} (hs : bitsIn 0x680000000000000200 M = true) (hA : Agree M s0 s) : AgreeO M s0 (execCommandStart id s) :=
  hA.stepO hs (execCommandStart_frame id s)

theorem cmdWrite_step {M : Nat} {s0 : State} {s : State} {id : Nat} {c : Cmd} {va : Nat} {data : List Byte} {k : State → State} (hs : bitsIn 0x400000000000000000404302800020040800001920000020000000000004000780005d84ff180 M = true) (hk_k : ∀ (a0 : State), Agree M s0 a0 → Agree M s0 (k a0)) (hA : Agree M s0 s) : Agree M s0 (cmdWrite s id c va data k) := by
  unfold cmdWrite
  repeat' first
    | with_reducible assumption
    | fail
    | exact bitsIn_trans rfl hs
    | exact regIn_sub rfl rfl hs
    | with_reducible refine cmdStall_step ?_ ?_
    | with_reducible refine devWrite_step ?_ ?_
    | with_reducible refine endCmd_step ?_ ?_
    | with_reducible refine Agree.ite ?_ ?_
    | dsimp only
    | split
    | (with_reducible refine Agree.of_pair (by assumption) ?_)
    | (with_reducible refine Agree.of_pair2 (by assumption) ?_)
    | intro _
    | with_reducible refine hk_k _ ?_

theorem endWhenOut_frame (s : State) (id : Nat) (c : Cmd) : Agree 0x400000000000000000 s (endWhenOut s id c) := by
  unfold endWhenOut
  repeat' first
    | with_reducible assumption
    | with_reducible exact Agree.refl _ _
    | exact bitsIn_rfl rfl
    | with_reducible refine endCmd_step ?_ ?_
    | with_reducible refine Agree.ite ?_ ?_
    | dsimp only
    | split
    | (with_reducible refine Agree.of_pair (by assumption) ?_)
    | (with_reducible refine Agree.of_pair2 (by assumption) ?_)
    | intro _
theorem endWhenOut_step {M s0} {s : State} {id : Nat} {c : Cmd} (hs : bitsIn 0x400000000000000000 M = true) (hA : Agree M s0 s) : Agree M s0 (endWhenOut s id c) :=
  hA.step hs (endWhenOut_frame s id c)

theorem execKernel_frame (id : Nat) (s : State) : AgreeO 0x400000000000000000404102800020040800001920000020000000000004000780005d84ff980 s (execKernel id s) := by
  unfold execKernel
  repeat' first
    | with_reducible assumption
    | with_reducible exact Agree.refl _ _
    | exact bitsIn_rfl rfl
    | exact regIn_rfl rfl rfl
    | with_reducible refine AgreeO.next ?_
    | with_reducible refine AgreeO.ite ?_ ?_
    | with_reducible exact AgreeO.refused
    | with_reducible exact AgreeO.fault
    | with_reducible refine cmdRead_step ?_ ?_ ?_
    | with_reducible refine endCmd_step ?_ ?_
    | with_reducible refine fresh_step ?_ ?_
    | with_reducible refine modCmd_step ?_ ?_
    | ((conv => arg 3; arg 88; skip); with_reducible first | refine upd_kernels ?_ ?_)
    | with_reducible refine Agree.ite ?_ ?_
    | dsimp only
    | split
    | (with_reducible refine Agree.of_pair (by assumption) ?_)
    | (with_reducible refine Agree.of_pair2 (by assumption) ?_)
    | intro _
theorem execKernel_step {M s0} {id : Nat} {s : State} (hs : bitsIn 0x400000000000000000404102800020040800001920000020000000000004000780005d84ff980 M = true) (hA : Agree M s0 s) : AgreeO M s0 (execKernel id s) :=
  hA.stepO hs (execKernel_frame id s)

theorem deal_frame (s : State) (id : Nat) (c : Cmd) (limit : Nat) (d : Desc) : AgreeS 0x400000000000002000 s (deal s id c limit d) := by
  unfold deal
  repeat' first
    | with_reducible assumption
    | with_reducible exact Agree.refl _ _
    | exact bitsIn_rfl rfl
    | with_reducible refine AgreeS.some ?_
    | with_reducible refine AgreeS.ite ?_ ?_
    | with_reducible exact AgreeS.none
    | with_reducible refine modCmd_step ?_ ?_
    | with_reducible refine queueDesc_step ?_ ?_
    | with_reducible refine Agree.ite ?_ ?_
    | dsimp only
    | split
    | (with_reducible refine Agree.of_pair (by assumption) ?_)
    | (with_reducible refine Agree.of_pair2 (by assumption) ?_)
    | with_reducible refine AgreeP.snd ?_
    | intro _
theorem deal_step {M s0} {s : State} {id : Nat} {c : Cmd} {limit : Nat} {d : Desc} (hs : bitsIn 0x400000000000002000 M = true) (hA : Agree M s0 s) : AgreeS M s0 (deal s id c limit d) :=
  hA.stepS hs (deal_frame s id c limit d)

theorem dealKept_frame (s : State) (id : Nat) (c : Cmd) (limit : Nat) (d : Desc) : Agree 0x2000000000000000000600000000038002200 s (dealKept s id c limit d) := by
  unfold dealKept
  repeat' first
    | with_reducible assumption
    | with_reducible exact Agree.refl _ _
    | exact bitsIn_rfl rfl
    | exact regIn_rfl rfl rfl
    | with_reducible refine deal_step ?_ ?_
    | with_reducible refine dropTiles_step ?_ ?_
    | with_reducible refine modCmd_step ?_ ?_
    | with_reducible refine Agree.ite ?_ ?_
    | dsimp only
    | split
    | (with_reducible refine Agree.of_pair (by assumption) ?_)
    | (with_reducible refine Agree.of_pair2 (by assumption) ?_)
    | (with_reducible refine AgreeS.of ?_ (by assumption))
    | intro _
theorem dealKept_step {M s0} {s : State} {id : Nat} {c : Cmd} {limit : Nat} {d : Desc} (hs : bitsIn 0x2000000000000000000600000000038002200 M = true) (hA : Agree M s0 s) : Agree M s0 (dealKept s id c limit d) :=
  hA.step hs (dealKept_frame s id c limit d)

theorem dealNext_step {M : Nat} {s0 : State} {s : State} {id : Nat} {c : Cmd} {limit : Nat} {next : State → State} (hs : bitsIn 0x2000000000000000000600000000038002200 M = true) (hk_next : ∀ (a0 : State), Agree M s0 a0 → Agree M s0 (next a0)) (hA : Agree M s0 s) : Agree M s0 (dealNext s id c limit next) := by
  unfold dealNext
  repeat' first
    | with_reducible assumption
    | fail
    | exact bitsIn_trans rfl hs
    | exact regIn_sub rfl rfl hs
    | with_reducible refine bulkEnd_step ?_ ?_
    | with_reducible refine dealKept_step ?_ ?_
    | with_reducible refine Agree.ite ?_ ?_
    | dsimp only
    | split
    | (with_reducible refine Agree.of_pair (by assumption) ?_)
    | (with_reducible refine Agree.of_pair2 (by assumption) ?_)
    | intro _
    | with_reducible refine hk_next _ ?_

theorem bulkFail_frame (s : State) (id code : Nat) : Agree 0x400000000000000000 s (bulkFail s id code) := by
  unfold bulkFail
  repeat' first
    | with_reducible assumption
    | with_reducible exact Agree.refl _ _
    | exact bitsIn_rfl rfl
    | with_reducible refine bulkEnd_step ?_ ?_
    | with_reducible refine modCmd_step ?_ ?_
    | with_reducible refine Agree.ite ?_ ?_
    | dsimp only
    | split
    | (with_reducible refine Agree.of_pair (by assumption) ?_)
    | (with_reducible refine Agree.of_pair2 (by assumption) ?_)
    | intro _
theorem bulkFail_step {M s0} {s : State} {id code : Nat} (hs : bitsIn 0x400000000000000000 M = true) (hA : Agree M s0 s) : Agree M s0 (bulkFail s id code) :=
  hA.step hs (bulkFail_frame s id code)

theorem execCopy_frame (id : Nat) (s : State) : AgreeO 0x400000000000000000404102800120040800001920000020000000000006000780005f84ff380 s (execCopy id s) := by
  unfold execCopy
  repeat' first
    | with_reducible assumption
    | with_reducible exact Agree.refl _ _
    | exact bitsIn_rfl rfl
    | exact regIn_rfl rfl rfl
    | with_reducible refine AgreeO.next ?_
    | with_reducible refine AgreeO.ite ?_ ?_
    | with_reducible exact AgreeO.refused
    | with_reducible exact AgreeO.fault
    | with_reducible refine bulkFail_step ?_ ?_
    | with_reducible refine cmdRead_step ?_ ?_ ?_
    | with_reducible refine deal_step ?_ ?_
    | with_reducible refine dealNext_step ?_ ?_ ?_
    | with_reducible refine devDone_step ?_ ?_
    | with_reducible refine modCmd_step ?_ ?_
    | with_reducible refine setF_step ?_ ?_ ?_
    | with_reducible refine Agree.ite ?_ ?_
    | dsimp only
    | split
    | (with_reducible refine Agree.of_pair (by assumption) ?_)
    | (with_reducible refine Agree.of_pair2 (by assumption) ?_)
    | (with_reducible refine AgreeS.of ?_ (by assumption))
    | intro _
theorem execCopy_step {M s0} {id : Nat} {s : State} (hs : bitsIn 0x400000000000000000404102800120040800001920000020000000000006000780005f84ff380 M = true) (hA : Agree M s0 s) : AgreeO M s0 (execCopy id s) :=
  hA.stepO hs (execCopy_frame id s)

theorem execFill_frame (id : Nat) (s : State) : AgreeO 0x2000000000000000000600000000038002200 s (execFill id s) := by
  unfold execFill
  repeat' first
    | with_reducible assumption
    | with_reducible exact Agree.refl _ _
    | exact bitsIn_rfl rfl
    | exact regIn_rfl rfl rfl
    | with_reducible refine AgreeO.next ?_
    | with_reducible refine AgreeO.ite ?_ ?_
    | with_reducible exact AgreeO.refused
    | with_reducible exact AgreeO.fault
    | with_reducible refine deal_step ?_ ?_
    | with_reducible refine dealNext_step ?_ ?_ ?_
    | with_reducible refine modCmd_step ?_ ?_
    | with_reducible refine Agree.ite ?_ ?_
    | dsimp only
    | split
    | (with_reducible refine Agree.of_pair (by assumption) ?_)
    | (with_reducible refine Agree.of_pair2 (by assumption) ?_)
    | (with_reducible refine AgreeS.of ?_ (by assumption))
    | intro _
theorem execFill_step {M s0} {id : Nat} {s : State} (hs : bitsIn 0x2000000000000000000600000000038002200 M = true) (hA : Agree M s0 s) : AgreeO M s0 (execFill id s) :=
  hA.stepO hs (execFill_frame id s)

theorem execMigrate_frame (id : Nat) (s : State) : AgreeO 0x400000000000000000404102800020040800001920000020000000000006000780005f84ff380 s (execMigrate id s) := by
  unfold execMigrate
  repeat' first
    | with_reducible assumption
    | with_reducible exact Agree.refl _ _
    | exact bitsIn_rfl rfl
    | exact regIn_rfl rfl rfl
    | with_reducible refine AgreeO.next ?_
    | with_reducible refine AgreeO.ite ?_ ?_
    | with_reducible exact AgreeO.refused
    | with_reducible exact AgreeO.fault
    | with_reducible refine bulkFail_step ?_ ?_
    | with_reducible refine cmdRead_step ?_ ?_ ?_
    | with_reducible refine deal_step ?_ ?_
    | with_reducible refine dealNext_step ?_ ?_ ?_
    | with_reducible refine devDone_step ?_ ?_
    | with_reducible refine modCmd_step ?_ ?_
    | with_reducible refine Agree.ite ?_ ?_
    | dsimp only
    | split
    | (with_reducible refine Agree.of_pair (by assumption) ?_)
    | (with_reducible refine Agree.of_pair2 (by assumption) ?_)
    | (with_reducible refine AgreeS.of ?_ (by assumption))
    | intro _
theorem execMigrate_step {M s0} {id : Nat} {s : State} (hs : bitsIn 0x400000000000000000404102800020040800001920000020000000000006000780005f84ff380 M = true) (hA : Agree M s0 s) : AgreeO M s0 (execMigrate id s) :=
  hA.stepO hs (execMigrate_frame id s)

theorem execSignal_frame (id : Nat) (s : State) : AgreeO 0x100000400000000000000000404302800020040800001800000023000000000034000780040c04ff180 s (execSignal id s) := by
  unfold execSignal
  repeat' first
    | with_reducible assumption
    | with_reducible exact Agree.refl _ _
    | exact bitsIn_rfl rfl
    | exact regIn_rfl rfl rfl
    | with_reducible refine AgreeO.next ?_
    | with_reducible refine AgreeO.ite ?_ ?_
    | with_reducible exact AgreeO.refused
    | with_reducible exact AgreeO.fault
    | with_reducible refine devEnd_step ?_ ?_
    | with_reducible refine endCmd_step ?_ ?_
    | with_reducible refine fenceOp_step ?_ ?_
    | with_reducible refine modCmd_step ?_ ?_
    | (with_reducible refine AgreeFenceRes.of_done ?_ (by assumption))
    | (with_reducible refine AgreeFenceRes.of_sent ?_ (by assumption))
    | (with_reducible refine AgreeFenceRes.of_wait ?_ (by assumption))
    | (with_reducible refine AgreeFenceRes.of_failed ?_ (by assumption))
    | with_reducible refine Agree.ite ?_ ?_
    | dsimp only
    | split
    | (with_reducible refine Agree.of_pair (by assumption) ?_)
    | (with_reducible refine Agree.of_pair2 (by assumption) ?_)
    | intro _
theorem execSignal_step {M s0} {id : Nat} {s : State} (hs : bitsIn 0x100000400000000000000000404302800020040800001800000023000000000034000780040c04ff180 M = true) (hA : Agree M s0 s) : AgreeO M s0 (execSignal id s) :=
  hA.stepO hs (execSignal_frame id s)

theorem execWait_frame (id : Nat) (s : State) : AgreeO 0x400000000000000000404102800020040800001800000020000000000034000780000c04ff180 s (execWait id s) := by
  unfold execWait
  repeat' first
    | with_reducible assumption
    | with_reducible exact Agree.refl _ _
    | exact bitsIn_rfl rfl
    | exact regIn_rfl rfl rfl
    | with_reducible refine AgreeO.next ?_
    | with_reducible refine AgreeO.ite ?_ ?_
    | with_reducible exact AgreeO.refused
    | with_reducible exact AgreeO.fault
    | with_reducible refine devEnd_step ?_ ?_
    | with_reducible refine endCmd_step ?_ ?_
    | with_reducible refine fenceAt_step ?_ ?_
    | with_reducible refine fenceSend_step ?_ ?_
    | with_reducible refine fresh_step ?_ ?_
    | with_reducible refine modCmd_step ?_ ?_
    | ((conv => arg 3; arg 88; skip); with_reducible first | refine upd_fenceOuts ?_ ?_ | refine upd_fenceWaiters ?_ ?_)
    | with_reducible refine Agree.ite ?_ ?_
    | dsimp only
    | split
    | (with_reducible refine Agree.of_pair (by assumption) ?_)
    | (with_reducible refine Agree.of_pair2 (by assumption) ?_)
    | (with_reducible refine AgreeS.of ?_ (by assumption))
    | intro _
theorem execWait_step {M s0} {id : Nat} {s : State} (hs : bitsIn 0x400000000000000000404102800020040800001800000020000000000034000780000c04ff180 M = true) (hA : Agree M s0 s) : AgreeO M s0 (execWait id s) :=
  hA.stepO hs (execWait_frame id s)

theorem execWaitTimeout_frame (id : Nat) (s : State) : AgreeO 0x3400000000000000000 s (execWaitTimeout id s) := by
  unfold execWaitTimeout
  repeat' first
    | with_reducible assumption
    | with_reducible exact Agree.refl _ _
    | exact bitsIn_rfl rfl
    | with_reducible refine AgreeO.next ?_
    | with_reducible refine AgreeO.ite ?_ ?_
    | with_reducible exact AgreeO.refused
    | with_reducible exact AgreeO.fault
    | with_reducible refine dropWaits_step ?_ ?_
    | with_reducible refine endCmd_step ?_ ?_
    | with_reducible refine Agree.ite ?_ ?_
    | dsimp only
    | split
    | (with_reducible refine Agree.of_pair (by assumption) ?_)
    | (with_reducible refine Agree.of_pair2 (by assumption) ?_)
    | intro _
theorem execWaitTimeout_step {M s0} {id : Nat} {s : State} (hs : bitsIn 0x3400000000000000000 M = true) (hA : Agree M s0 s) : AgreeO M s0 (execWaitTimeout id s) :=
  hA.stepO hs (execWaitTimeout_frame id s)

theorem execMarker_frame (id : Nat) (s : State) : AgreeO 0x100000400000000000000000404302800020040800001920000020000000000004000780045d84ff180 s (execMarker id s) := by
  unfold execMarker
  repeat' first
    | with_reducible assumption
    | with_reducible exact Agree.refl _ _
    | exact bitsIn_rfl rfl
    | exact regIn_rfl rfl rfl
    | with_reducible refine AgreeO.next ?_
    | with_reducible refine AgreeO.ite ?_ ?_
    | with_reducible exact AgreeO.refused
    | with_reducible exact AgreeO.fault
    | with_reducible refine cmdWrite_step ?_ ?_ ?_
    | with_reducible refine endWhenOut_step ?_ ?_
    | with_reducible refine modCmd_step ?_ ?_
    | with_reducible refine postEvent_step ?_ ?_
    | with_reducible refine Agree.ite ?_ ?_
    | dsimp only
    | split
    | (with_reducible refine Agree.of_pair (by assumption) ?_)
    | (with_reducible refine Agree.of_pair2 (by assumption) ?_)
    | intro _
theorem execMarker_step {M s0} {id : Nat} {s : State} (hs : bitsIn 0x100000400000000000000000404302800020040800001920000020000000000004000780045d84ff180 M = true) (hA : Agree M s0 s) : AgreeO M s0 (execMarker id s) :=
  hA.stepO hs (execMarker_frame id s)

theorem execGateDispatch_frame (id : Nat) (s : State) : AgreeO 0x400000000000000000404102800020040800001920000020000000000006800780015d84ff380 s (execGateDispatch id s) := by
  unfold execGateDispatch
  repeat' first
    | with_reducible assumption
    | with_reducible exact Agree.refl _ _
    | exact bitsIn_rfl rfl
    | exact regIn_rfl rfl rfl
    | with_reducible refine AgreeO.next ?_
    | with_reducible refine AgreeO.ite ?_ ?_
    | with_reducible exact AgreeO.refused
    | with_reducible exact AgreeO.fault
    | with_reducible refine beginCmd_step ?_ ?_
    | with_reducible refine cmdRead_step ?_ ?_ ?_
    | with_reducible refine devDone_step ?_ ?_
    | with_reducible refine endCmd_step ?_ ?_
    | with_reducible refine modGate_step ?_ ?_
    | with_reducible refine Agree.ite ?_ ?_
    | dsimp only
    | split
    | (with_reducible refine Agree.of_pair (by assumption) ?_)
    | (with_reducible refine Agree.of_pair2 (by assumption) ?_)
    | intro _
theorem execGateDispatch_step {M s0} {id : Nat} {s : State} (hs : bitsIn 0x400000000000000000404102800020040800001920000020000000000006800780015d84ff380 M = true) (hA : Agree M s0 s) : AgreeO M s0 (execGateDispatch id s) :=
  hA.stepO hs (execGateDispatch_frame id s)

theorem seqPerform_frame (s : State) (id : Nat) (c : Cmd) (va sub n : Nat) (signed : Bool) (a b : Nat) : AgreeSeqRes 0x400000000000000000404302800020040800001920000020000000000004000780005d84ff180 s (seqPerform s id c va sub n signed a b) := by
  unfold seqPerform
  repeat' first
    | with_reducible assumption
    | with_reducible exact Agree.refl _ _
    | exact bitsIn_rfl rfl
    | exact regIn_rfl rfl rfl
    | with_reducible refine AgreeSeqRes.ite ?_ ?_
    | with_reducible refine AgreeSeqRes.old ?_
    | with_reducible refine AgreeSeqRes.wait ?_
    | with_reducible refine AgreeSeqRes.stop ?_
    | with_reducible refine cmdStall_step ?_ ?_
    | with_reducible refine devAccess_step ?_ ?_ ?_
    | with_reducible refine devDone_step ?_ ?_
    | with_reducible refine endCmd_step ?_ ?_
    | with_reducible refine readNow_step ?_ ?_
    | with_reducible refine regulate_step ?_ ?_
    | with_reducible refine sendReq_step ?_ ?_
    | with_reducible refine writeNow_step ?_ ?_
    | with_reducible refine Agree.ite ?_ ?_
    | dsimp only
    | split
    | (with_reducible refine Agree.of_pair (by assumption) ?_)
    | (with_reducible refine Agree.of_pair2 (by assumption) ?_)
    | intro _
theorem seqPerform_step {M s0} {s : State} {id : Nat} {c : Cmd} {va sub n : Nat} {signed : Bool} {a b : Nat} (hs : bitsIn 0x400000000000000000404302800020040800001920000020000000000004000780005d84ff180 M = true) (hA : Agree M s0 s) : AgreeSeqRes M s0 (seqPerform s id c va sub n signed a b) :=
  hA.stepSeqRes hs (seqPerform_frame s id c va sub n signed a b)

theorem seqResult_frame (s : State) (id : Nat) (c : Cmd) (v : Nat) (ended : Bool) : Agree 0x400000000000000000404302800020040800001920000020000000000004000780005d84ff180 s (seqResult s id c v ended) := by
  unfold seqResult
  repeat' first
    | with_reducible assumption
    | with_reducible exact Agree.refl _ _
    | exact bitsIn_rfl rfl
    | exact regIn_rfl rfl rfl
    | with_reducible refine cmdWrite_step ?_ ?_ ?_
    | with_reducible refine modCmd_step ?_ ?_
    | with_reducible refine Agree.ite ?_ ?_
    | dsimp only
    | split
    | (with_reducible refine Agree.of_pair (by assumption) ?_)
    | (with_reducible refine Agree.of_pair2 (by assumption) ?_)
    | intro _
theorem seqResult_step {M s0} {s : State} {id : Nat} {c : Cmd} {v : Nat} {ended : Bool} (hs : bitsIn 0x400000000000000000404302800020040800001920000020000000000004000780005d84ff180 M = true) (hA : Agree M s0 s) : Agree M s0 (seqResult s id c v ended) :=
  hA.step hs (seqResult_frame s id c v ended)

theorem execAtomicSeq_frame (id : Nat) (s : State) : AgreeO 0x400000000000000000404302800020040800001920000020000000000004000780005d84ff180 s (execAtomicSeq id s) := by
  unfold execAtomicSeq
  repeat' first
    | with_reducible assumption
    | with_reducible exact Agree.refl _ _
    | exact bitsIn_rfl rfl
    | exact regIn_rfl rfl rfl
    | with_reducible refine AgreeO.next ?_
    | with_reducible refine AgreeO.ite ?_ ?_
    | with_reducible exact AgreeO.refused
    | with_reducible exact AgreeO.fault
    | with_reducible refine cmdRead_step ?_ ?_ ?_
    | with_reducible refine devDone_step ?_ ?_
    | with_reducible refine endCmd_step ?_ ?_
    | with_reducible refine endWhenOut_step ?_ ?_
    | with_reducible refine seqPerform_step ?_ ?_
    | with_reducible refine seqResult_step ?_ ?_
    | (with_reducible refine AgreeSeqRes.of_old ?_ (by assumption))
    | (with_reducible refine AgreeSeqRes.of_wait ?_ (by assumption))
    | (with_reducible refine AgreeSeqRes.of_stop ?_ (by assumption))
    | with_reducible refine Agree.ite ?_ ?_
    | dsimp only
    | split
    | (with_reducible refine Agree.of_pair (by assumption) ?_)
    | (with_reducible refine Agree.of_pair2 (by assumption) ?_)
    | intro _
theorem execAtomicSeq_step {M s0} {id : Nat} {s : State} (hs : bitsIn 0x400000000000000000404302800020040800001920000020000000000004000780005d84ff180 M = true) (hA : Agree M s0 s) : AgreeO M s0 (execAtomicSeq id s) :=
  hA.stepO hs (execAtomicSeq_frame id s)

theorem chargeOverrun_frame (s : State) (id : Nat) (c : Cmd) : Agree 0x500000000000000000 s (chargeOverrun s id c) := by
  unfold chargeOverrun
  repeat' first
    | with_reducible assumption
    | with_reducible exact Agree.refl _ _
    | exact bitsIn_rfl rfl
    | with_reducible refine modCmd_step ?_ ?_
    | with_reducible refine modSched_step ?_ ?_
    | with_reducible refine Agree.ite ?_ ?_
    | dsimp only
    | split
    | (with_reducible refine Agree.of_pair (by assumption) ?_)
    | (with_reducible refine Agree.of_pair2 (by assumption) ?_)
    | intro _
theorem chargeOverrun_step {M s0} {s : State} {id : Nat} {c : Cmd} (hs : bitsIn 0x500000000000000000 M = true) (hA : Agree M s0 s) : Agree M s0 (chargeOverrun s id c) :=
  hA.step hs (chargeOverrun_frame s id c)

theorem writeRecord_frame (s : State) (id : Nat) (c : Cmd) (code : Nat) : Agree 0x400000000000000000404302800020040800001920000020000000000004000780005d84ff180 s (writeRecord s id c code) := by
  unfold writeRecord
  repeat' first
    | with_reducible assumption
    | with_reducible exact Agree.refl _ _
    | exact bitsIn_rfl rfl
    | exact regIn_rfl rfl rfl
    | with_reducible refine cmdStall_step ?_ ?_
    | with_reducible refine devDone_step ?_ ?_
    | with_reducible refine devWrite_step ?_ ?_
    | with_reducible refine modCmd_step ?_ ?_
    | with_reducible refine Agree.ite ?_ ?_
    | dsimp only
    | split
    | (with_reducible refine Agree.of_pair (by assumption) ?_)
    | (with_reducible refine Agree.of_pair2 (by assumption) ?_)
    | intro _
theorem writeRecord_step {M s0} {s : State} {id : Nat} {c : Cmd} {code : Nat} (hs : bitsIn 0x400000000000000000404302800020040800001920000020000000000004000780005d84ff180 M = true) (hA : Agree M s0 s) : Agree M s0 (writeRecord s id c code) :=
  hA.step hs (writeRecord_frame s id c code)

theorem signalFence_frame (s : State) (id : Nat) (c : Cmd) (code : Nat) : Agree 0x100000400000000000000000404302800000040800001800000023000000000034000580040c04fc180 s (signalFence s id c code).2 := by
  unfold signalFence
  repeat' first
    | with_reducible assumption
    | with_reducible exact Agree.refl _ _
    | exact bitsIn_rfl rfl
    | exact regIn_rfl rfl rfl
    | with_reducible refine fenceOp_step ?_ ?_
    | (with_reducible refine AgreeFenceRes.of_done ?_ (by assumption))
    | (with_reducible refine AgreeFenceRes.of_sent ?_ (by assumption))
    | (with_reducible refine AgreeFenceRes.of_wait ?_ (by assumption))
    | (with_reducible refine AgreeFenceRes.of_failed ?_ (by assumption))
    | with_reducible refine Agree.ite ?_ ?_
    | dsimp only
    | split
    | (with_reducible refine Agree.of_pair (by assumption) ?_)
    | (with_reducible refine Agree.of_pair2 (by assumption) ?_)
    | intro _
theorem signalFence_step {M s0} {s : State} {id : Nat} {c : Cmd} {code : Nat} (hs : bitsIn 0x100000400000000000000000404302800000040800001800000023000000000034000580040c04fc180 M = true) (hA : Agree M s0 s) : Agree M s0 (signalFence s id c code).2 :=
  hA.step hs (signalFence_frame s id c code)

theorem execCommandComplete_frame (id : Nat) (s : State) : AgreeO 0x1000004000000000400100004043028000a004080000192030002300000000403f804780045d84ff380 s (execCommandComplete id s) := by
  unfold execCommandComplete
  repeat' first
    | with_reducible assumption
    | with_reducible exact Agree.refl _ _
    | exact bitsIn_rfl rfl
    | exact regIn_rfl rfl rfl
    | with_reducible refine AgreeO.next ?_
    | with_reducible refine AgreeO.ite ?_ ?_
    | with_reducible exact AgreeO.refused
    | with_reducible exact AgreeO.fault
    | with_reducible refine chargeOverrun_step ?_ ?_
    | with_reducible refine collEnded_step ?_ ?_
    | with_reducible refine devEnd_step ?_ ?_
    | with_reducible refine dropRefs_step ?_ ?_
    | with_reducible refine dropWaits_step ?_ ?_
    | with_reducible refine modQueue_step ?_ ?_
    | with_reducible refine progress_step ?_ ?_
    | with_reducible refine reactTo_step ?_ ?_
    | with_reducible refine schedule_step ?_ ?_
    | with_reducible refine signalFence_step ?_ ?_
    | with_reducible refine writeRecord_step ?_ ?_
    | ((conv => arg 3; arg 88; skip); with_reducible first | refine upd_cmds ?_ ?_)
    | with_reducible refine Agree.ite ?_ ?_
    | dsimp only
    | split
    | (with_reducible refine Agree.of_pair (by assumption) ?_)
    | (with_reducible refine Agree.of_pair2 (by assumption) ?_)
    | intro _
theorem execCommandComplete_step {M s0} {id : Nat} {s : State} (hs : bitsIn 0x1000004000000000400100004043028000a004080000192030002300000000403f804780045d84ff380 M = true) (hA : Agree M s0 s) : AgreeO M s0 (execCommandComplete id s) :=
  hA.stepO hs (execCommandComplete_frame id s)

end Sys2Proof.Machine
end

