-- ==== Sys2Proof/Laws/FrameAdmit.lean ====
section
/-!
SUPPORT. The frame of every function of Machine/Admit.lean that answers a state: the fields it can change, by mask.
-/

set_option linter.unusedTactic false
set_option linter.unreachableTactic false
set_option linter.unusedVariables false

namespace Sys2Proof.Machine

theorem putR_step {M : Nat} {s0 : State} {s : State} {r : Reg} {k v : Nat} (hs : bitsIn 0x0 M = true) (hr0 : RegIn M r) (hA : Agree M s0 s) : Agree M s0 (putR s r k v) := by
  unfold putR
  repeat' first
    | with_reducible assumption
    | fail
    | exact bitsIn_trans rfl hs
    | with_reducible refine setR_step ?_ ?_ ?_
    | with_reducible refine Agree.ite ?_ ?_
    | dsimp only
    | split
    | (with_reducible refine Agree.of_pair (by assumption) ?_)
    | (with_reducible refine Agree.of_pair2 (by assumption) ?_)
    | intro _

theorem refreshLoads_frame (s : State) : Agree 0x78000200000000000000000000000000000000000000000 s (refreshLoads s) := by
  unfold refreshLoads
  repeat' first
    | with_reducible assumption
    | with_reducible exact Agree.refl _ _
    | exact bitsIn_rfl rfl
    | exact regIn_rfl rfl rfl
    | with_reducible refine putR_step ?_ ?_ ?_
    | with_reducible refine setF_step ?_ ?_ ?_
    | with_reducible refine Agree.ite ?_ ?_
    | (with_reducible refine Agree.foldl ?_ ?_; intro _ _ _)
    | (with_reducible refine Agree.foldl2 ?_ ?_; intro _ _ _)
    | (with_reducible refine Agree.foldl3 ?_ ?_; intro _ _ _)
    | (with_reducible refine Agree.foldl4 ?_ ?_; intro _ _ _)
    | dsimp only
    | split
    | (with_reducible refine Agree.of_pair (by assumption) ?_)
    | (with_reducible refine Agree.of_pair2 (by assumption) ?_)
    | intro _
theorem refreshLoads_step {M s0} {s : State} (hs : bitsIn 0x78000200000000000000000000000000000000000000000 M = true) (hA : Agree M s0 s) : Agree M s0 (refreshLoads s) :=
  hA.step hs (refreshLoads_frame s)

theorem logBreach_frame (s : State) (inst : Nat) (b : Nat × Nat) : Agree 0x20000000000000000000000000000000000000000000 s (logBreach s inst b) := by
  unfold logBreach
  repeat' first
    | with_reducible assumption
    | with_reducible exact Agree.refl _ _
    | exact bitsIn_rfl rfl
    | exact regIn_rfl rfl rfl
    | with_reducible refine setR_step ?_ ?_ ?_
    | with_reducible refine Agree.ite ?_ ?_
    | dsimp only
    | split
    | (with_reducible refine Agree.of_pair (by assumption) ?_)
    | (with_reducible refine Agree.of_pair2 (by assumption) ?_)
    | intro _
theorem logBreach_step {M s0} {s : State} {inst : Nat} {b : Nat × Nat} (hs : bitsIn 0x20000000000000000000000000000000000000000000 M = true) (hA : Agree M s0 s) : Agree M s0 (logBreach s inst b) :=
  hA.step hs (logBreach_frame s inst b)

end Sys2Proof.Machine
end

