-- ==== Sys2Proof/Laws/FrameInval.lean ====
section
/-!
SUPPORT. The frame of every function of Machine/Inval.lean that answers a state: the fields it can change, by mask.
-/

set_option linter.unusedTactic false
set_option linter.unreachableTactic false
set_option linter.unusedVariables false

namespace Sys2Proof.Machine

theorem execFaultRecordPost_frame (win : Nat) (s : State) : AgreeO 0x200000000000000000000000000000000000000000000000000000000000000000000038400040000 s (execFaultRecordPost win s) := by
  unfold execFaultRecordPost
  repeat' first
    | with_reducible assumption
    | with_reducible exact Agree.refl _ _
    | exact bitsIn_rfl rfl
    | exact regIn_rfl rfl rfl
    | with_reducible refine AgreeO.next ?_
    | with_reducible refine AgreeO.ite ?_ ?_
    | with_reducible exact AgreeO.refused
    | with_reducible exact AgreeO.fault
    | ((with_reducible refine MemOf.intro ?_); first | exact fun _ w => ⟨w.1, canonical_memPut _ _ w.2.1, w.2.2⟩)
    | with_reducible refine notifyQueue_step ?_ ?_
    | with_reducible refine setF_step ?_ ?_ ?_
    | ((conv => arg 3; arg 88; skip); with_reducible first | refine upd_host_fqHeld_rings ?_ ?_ ?_)
    | with_reducible refine Agree.ite ?_ ?_
    | dsimp only
    | split
    | (with_reducible refine Agree.of_pair (by assumption) ?_)
    | (with_reducible refine Agree.of_pair2 (by assumption) ?_)
    | intro _
theorem execFaultRecordPost_step {M s0} {win : Nat} {s : State} (hs : bitsIn 0x200000000000000000000000000000000000000000000000000000000000000000000038400040000 M = true) (hA : Agree M s0 s) : AgreeO M s0 (execFaultRecordPost win s) :=
  hA.stepO hs (execFaultRecordPost_frame win s)

theorem readyTile_frame (s : State) (tid : Nat) : Agree 0x400000000000000000404002000000040800001920000020000000000006000580005784c4380 s (readyTile s tid) := by
  unfold readyTile
  repeat' first
    | with_reducible assumption
    | with_reducible exact Agree.refl _ _
    | exact bitsIn_rfl rfl
    | exact regIn_rfl rfl rfl
    | with_reducible refine dropTile_step ?_ ?_
    | with_reducible refine lookTile_step ?_ ?_
    | with_reducible refine Agree.ite ?_ ?_
    | dsimp only
    | split
    | (with_reducible refine Agree.of_pair (by assumption) ?_)
    | (with_reducible refine Agree.of_pair2 (by assumption) ?_)
    | intro _
theorem readyTile_step {M s0} {s : State} {tid : Nat} (hs : bitsIn 0x400000000000000000404002000000040800001920000020000000000006000580005784c4380 M = true) (hA : Agree M s0 s) : Agree M s0 (readyTile s tid) :=
  hA.step hs (readyTile_frame s tid)

theorem retryTiles_frame (s : State) : Agree 0x400000000000000000404002000000040800001920000020000000000006000580005784c4380 s (retryTiles s) := by
  unfold retryTiles
  repeat' first
    | with_reducible assumption
    | with_reducible exact Agree.refl _ _
    | exact bitsIn_rfl rfl
    | exact regIn_rfl rfl rfl
    | with_reducible refine readyTile_step ?_ ?_
    | with_reducible refine setF_step ?_ ?_ ?_
    | with_reducible refine Agree.ite ?_ ?_
    | (with_reducible refine Agree.foldl ?_ ?_; intro _ _ _)
    | (with_reducible refine Agree.foldl2 ?_ ?_; intro _ _ _)
    | (with_reducible refine Agree.foldl3 ?_ ?_; intro _ _ _)
    | (with_reducible refine Agree.foldl4 ?_ ?_; intro _ _ _)
    | dsimp only
    | split
    | (with_reducible refine Agree.of_pair (by assumption) ?_)
    | (with_reducible refine Agree.of_pair2 (by assumption) ?_)
    | intro _
theorem retryTiles_step {M s0} {s : State} (hs : bitsIn 0x400000000000000000404002000000040800001920000020000000000006000580005784c4380 M = true) (hA : Agree M s0 s) : Agree M s0 (retryTiles s) :=
  hA.step hs (retryTiles_frame s)

theorem freeEntry_frame (s : State) (k : Nat) : Agree 0x100000000 s (freeEntry s k) := by
  unfold freeEntry
  repeat' first
    | with_reducible assumption
    | with_reducible exact Agree.refl _ _
    | exact bitsIn_rfl rfl
    | ((conv => arg 3; arg 88; skip); with_reducible first | refine upd_tracker ?_ ?_)
    | with_reducible refine Agree.ite ?_ ?_
    | dsimp only
    | split
    | (with_reducible refine Agree.of_pair (by assumption) ?_)
    | (with_reducible refine Agree.of_pair2 (by assumption) ?_)
    | intro _
theorem freeEntry_step {M s0} {s : State} {k : Nat} (hs : bitsIn 0x100000000 M = true) (hA : Agree M s0 s) : Agree M s0 (freeEntry s k) :=
  hA.step hs (freeEntry_frame s k)

theorem releaseEntry_frame (s : State) (k : Nat) : Agree 0x400000000000000000404002000000040800001920000020000000000006000580005784c4380 s (releaseEntry s k) := by
  unfold releaseEntry
  repeat' first
    | with_reducible assumption
    | with_reducible exact Agree.refl _ _
    | exact bitsIn_rfl rfl
    | exact regIn_rfl rfl rfl
    | with_reducible refine freeEntry_step ?_ ?_
    | with_reducible refine readyTile_step ?_ ?_
    | with_reducible refine retryTiles_step ?_ ?_
    | with_reducible refine setTile_step ?_ ?_
    | with_reducible refine Agree.ite ?_ ?_
    | (with_reducible refine Agree.foldl ?_ ?_; intro _ _ _)
    | (with_reducible refine Agree.foldl2 ?_ ?_; intro _ _ _)
    | (with_reducible refine Agree.foldl3 ?_ ?_; intro _ _ _)
    | (with_reducible refine Agree.foldl4 ?_ ?_; intro _ _ _)
    | dsimp only
    | split
    | (with_reducible refine Agree.of_pair (by assumption) ?_)
    | (with_reducible refine Agree.of_pair2 (by assumption) ?_)
    | intro _
theorem releaseEntry_step {M s0} {s : State} {k : Nat} (hs : bitsIn 0x400000000000000000404002000000040800001920000020000000000006000580005784c4380 M = true) (hA : Agree M s0 s) : Agree M s0 (releaseEntry s k) :=
  hA.step hs (releaseEntry_frame s k)

theorem savedFault_frame (s : State) (kid : Nat) (fi : FaultInfo) : Agree 0xa00 s (savedFault s kid fi) := by
  unfold savedFault
  repeat' first
    | with_reducible assumption
    | with_reducible exact Agree.refl _ _
    | exact bitsIn_rfl rfl
    | with_reducible refine modKernel_step ?_ ?_
    | with_reducible refine noteFault_step ?_ ?_
    | with_reducible refine Agree.ite ?_ ?_
    | dsimp only
    | split
    | (with_reducible refine Agree.of_pair (by assumption) ?_)
    | (with_reducible refine Agree.of_pair2 (by assumption) ?_)
    | intro _
theorem savedFault_step {M s0} {s : State} {kid : Nat} {fi : FaultInfo} (hs : bitsIn 0xa00 M = true) (hA : Agree M s0 s) : Agree M s0 (savedFault s kid fi) :=
  hA.step hs (savedFault_frame s kid fi)

theorem abortTile_frame (s : State) (tid : Nat) (t : Tile) (e : TrackEntry) : Agree 0x1000004000000000000000004043028001bc040800001820300020000000000007800780070f84ffb80 s (abortTile s tid t e) := by
  unfold abortTile
  repeat' first
    | with_reducible assumption
    | with_reducible exact Agree.refl _ _
    | exact bitsIn_rfl rfl
    | exact regIn_rfl rfl rfl
    | with_reducible refine beginCmd_step ?_ ?_
    | with_reducible refine bulkEnd_step ?_ ?_
    | with_reducible refine dropTile_step ?_ ?_
    | with_reducible refine endCmd_step ?_ ?_
    | with_reducible refine failLanes_step ?_ ?_
    | with_reducible refine gateFail_step ?_ ?_
    | with_reducible refine lineFault_step ?_ ?_
    | with_reducible refine modCmd_step ?_ ?_
    | with_reducible refine moverFail_step ?_ ?_
    | with_reducible refine savedFault_step ?_ ?_
    | with_reducible refine stopQueue_step ?_ ?_
    | with_reducible refine Agree.ite ?_ ?_
    | dsimp only
    | split
    | (with_reducible refine Agree.of_pair (by assumption) ?_)
    | (with_reducible refine Agree.of_pair2 (by assumption) ?_)
    | intro _
theorem abortTile_step {M s0} {s : State} {tid : Nat} {t : Tile} {e : TrackEntry} (hs : bitsIn 0x1000004000000000000000004043028001bc040800001820300020000000000007800780070f84ffb80 M = true) (hA : Agree M s0 s) : Agree M s0 (abortTile s tid t e) :=
  hA.step hs (abortTile_frame s tid t e)

theorem abortEntry_frame (s : State) (k : Nat) : Agree 0x1000004000000000000000004043028001bc040800001920300020000000000007800780075f84ffb80 s (abortEntry s k) := by
  unfold abortEntry
  repeat' first
    | with_reducible assumption
    | with_reducible exact Agree.refl _ _
    | exact bitsIn_rfl rfl
    | exact regIn_rfl rfl rfl
    | with_reducible refine abortTile_step ?_ ?_
    | with_reducible refine freeEntry_step ?_ ?_
    | with_reducible refine retryTiles_step ?_ ?_
    | with_reducible refine Agree.ite ?_ ?_
    | (with_reducible refine Agree.foldl ?_ ?_; intro _ _ _)
    | (with_reducible refine Agree.foldl2 ?_ ?_; intro _ _ _)
    | (with_reducible refine Agree.foldl3 ?_ ?_; intro _ _ _)
    | (with_reducible refine Agree.foldl4 ?_ ?_; intro _ _ _)
    | dsimp only
    | split
    | (with_reducible refine Agree.of_pair (by assumption) ?_)
    | (with_reducible refine Agree.of_pair2 (by assumption) ?_)
    | intro _
theorem abortEntry_step {M s0} {s : State} {k : Nat} (hs : bitsIn 0x1000004000000000000000004043028001bc040800001920300020000000000007800780075f84ffb80 M = true) (hA : Agree M s0 s) : Agree M s0 (abortEntry s k) :=
  hA.step hs (abortEntry_frame s k)

theorem staleReplay_frame (s : State) (win : Nat) : Agree 0x800000000000000000000000000000000000000 s (staleReplay s win) := by
  unfold staleReplay
  repeat' first
    | with_reducible assumption
    | with_reducible exact Agree.refl _ _
    | exact bitsIn_rfl rfl
    | exact regIn_rfl rfl rfl
    | with_reducible refine satF_step ?_ ?_ ?_
    | with_reducible refine Agree.ite ?_ ?_
    | dsimp only
    | split
    | (with_reducible refine Agree.of_pair (by assumption) ?_)
    | (with_reducible refine Agree.of_pair2 (by assumption) ?_)
    | intro _
theorem staleReplay_step {M s0} {s : State} {win : Nat} (hs : bitsIn 0x800000000000000000000000000000000000000 M = true) (hA : Agree M s0 s) : Agree M s0 (staleReplay s win) :=
  hA.step hs (staleReplay_frame s win)

theorem execReplay_frame (win id : Nat) (s : State) : AgreeO 0x400000000000000000404002000000040800009920000020000000000006000580005784c4380 s (execReplay win id s) := by
  unfold execReplay
  repeat' first
    | with_reducible assumption
    | with_reducible exact Agree.refl _ _
    | exact bitsIn_rfl rfl
    | exact regIn_rfl rfl rfl
    | with_reducible refine AgreeO.next ?_
    | with_reducible refine AgreeO.ite ?_ ?_
    | with_reducible exact AgreeO.refused
    | with_reducible exact AgreeO.fault
    | with_reducible refine releaseEntry_step ?_ ?_
    | with_reducible refine staleReplay_step ?_ ?_
    | with_reducible refine Agree.ite ?_ ?_
    | dsimp only
    | split
    | (with_reducible refine Agree.of_pair (by assumption) ?_)
    | (with_reducible refine Agree.of_pair2 (by assumption) ?_)
    | intro _
theorem execReplay_step {M s0} {win id : Nat} {s : State} (hs : bitsIn 0x400000000000000000404002000000040800009920000020000000000006000580005784c4380 M = true) (hA : Agree M s0 s) : AgreeO M s0 (execReplay win id s) :=
  hA.stepO hs (execReplay_frame win id s)

theorem execAbort_frame (win id : Nat) (s : State) : AgreeO 0x1000004000000000000000004043028001bc040800009920300020000000000007800780075f84ffb80 s (execAbort win id s) := by
  unfold execAbort
  repeat' first
    | with_reducible assumption
    | with_reducible exact Agree.refl _ _
    | exact bitsIn_rfl rfl
    | exact regIn_rfl rfl rfl
    | with_reducible refine AgreeO.next ?_
    | with_reducible refine AgreeO.ite ?_ ?_
    | with_reducible exact AgreeO.refused
    | with_reducible exact AgreeO.fault
    | with_reducible refine abortEntry_step ?_ ?_
    | with_reducible refine staleReplay_step ?_ ?_
    | with_reducible refine Agree.ite ?_ ?_
    | dsimp only
    | split
    | (with_reducible refine Agree.of_pair (by assumption) ?_)
    | (with_reducible refine Agree.of_pair2 (by assumption) ?_)
    | intro _
theorem execAbort_step {M s0} {win id : Nat} {s : State} (hs : bitsIn 0x1000004000000000000000004043028001bc040800009920300020000000000007800780075f84ffb80 M = true) (hA : Agree M s0 s) : AgreeO M s0 (execAbort win id s) :=
  hA.stepO hs (execAbort_frame win id s)

theorem execFaultTimeout_frame (k : Nat) (s : State) : AgreeO 0x1000004000000000000000004043028001bc040800001b20300020000000000007800780075f84ffb80 s (execFaultTimeout k s) := by
  unfold execFaultTimeout
  repeat' first
    | with_reducible assumption
    | with_reducible exact Agree.refl _ _
    | exact bitsIn_rfl rfl
    | exact regIn_rfl rfl rfl
    | with_reducible refine AgreeO.next ?_
    | with_reducible refine AgreeO.ite ?_ ?_
    | with_reducible exact AgreeO.refused
    | with_reducible exact AgreeO.fault
    | with_reducible refine abortEntry_step ?_ ?_
    | with_reducible refine countR_step ?_ ?_ ?_
    | with_reducible refine Agree.ite ?_ ?_
    | dsimp only
    | split
    | (with_reducible refine Agree.of_pair (by assumption) ?_)
    | (with_reducible refine Agree.of_pair2 (by assumption) ?_)
    | intro _
theorem execFaultTimeout_step {M s0} {k : Nat} {s : State} (hs : bitsIn 0x1000004000000000000000004043028001bc040800001b20300020000000000007800780075f84ffb80 M = true) (hA : Agree M s0 s) : AgreeO M s0 (execFaultTimeout k s) :=
  hA.stepO hs (execFaultTimeout_frame k s)

theorem retireEntries_frame (s : State) (p : TrackEntry → Bool) : Agree 0x400000000000000000404002000000040800001920000020000000000006000580005784c4380 s (retireEntries s p) := by
  unfold retireEntries
  repeat' first
    | with_reducible assumption
    | with_reducible exact Agree.refl _ _
    | exact bitsIn_rfl rfl
    | exact regIn_rfl rfl rfl
    | with_reducible refine freeEntry_step ?_ ?_
    | with_reducible refine retryTiles_step ?_ ?_
    | with_reducible refine Agree.ite ?_ ?_
    | (with_reducible refine Agree.foldl ?_ ?_; intro _ _ _)
    | (with_reducible refine Agree.foldl2 ?_ ?_; intro _ _ _)
    | (with_reducible refine Agree.foldl3 ?_ ?_; intro _ _ _)
    | (with_reducible refine Agree.foldl4 ?_ ?_; intro _ _ _)
    | dsimp only
    | split
    | (with_reducible refine Agree.of_pair (by assumption) ?_)
    | (with_reducible refine Agree.of_pair2 (by assumption) ?_)
    | intro _
theorem retireEntries_step {M s0} {s : State} {p : TrackEntry → Bool} (hs : bitsIn 0x400000000000000000404002000000040800001920000020000000000006000580005784c4380 M = true) (hA : Agree M s0 s) : Agree M s0 (retireEntries s p) :=
  hA.step hs (retireEntries_frame s p)

theorem redoTile_frame (s : State) (tid : Nat) (t : Tile) : Agree 0x4000000000000000004040020001bc040800001920300020000000000007800780035784c7b80 s (redoTile s tid t) := by
  unfold redoTile
  repeat' first
    | with_reducible assumption
    | with_reducible exact Agree.refl _ _
    | exact bitsIn_rfl rfl
    | exact regIn_rfl rfl rfl
    | with_reducible refine dropTile_step ?_ ?_
    | with_reducible refine lookTile_step ?_ ?_
    | with_reducible refine nextTile_step ?_ ?_
    | with_reducible refine setChan_step ?_ ?_
    | with_reducible refine Agree.ite ?_ ?_
    | dsimp only
    | split
    | (with_reducible refine Agree.of_pair (by assumption) ?_)
    | (with_reducible refine Agree.of_pair2 (by assumption) ?_)
    | intro _
theorem redoTile_step {M s0} {s : State} {tid : Nat} {t : Tile} (hs : bitsIn 0x4000000000000000004040020001bc040800001920300020000000000007800780035784c7b80 M = true) (hA : Agree M s0 s) : Agree M s0 (redoTile s tid t) :=
  hA.step hs (redoTile_frame s tid t)

theorem startInval_frame (s : State) (v : Inval) : Agree 0x4000000000000000004040020001bc040800001920300020000000000007800780037f84c7b80 s (startInval s v) := by
  unfold startInval
  repeat' first
    | with_reducible assumption
    | with_reducible exact Agree.refl _ _
    | exact bitsIn_rfl rfl
    | exact regIn_rfl rfl rfl
    | with_reducible refine doomIf_step ?_ ?_
    | with_reducible refine fresh_step ?_ ?_
    | with_reducible refine redoTile_step ?_ ?_
    | ((conv => arg 3; arg 88; skip); with_reducible first | refine upd_invals ?_ ?_ | refine upd_walks ?_ ?_ | refine upd_tlb_wcache ?_ ?_ | refine upd_walks_tlb_wcache ?_ ?_)
    | with_reducible refine Agree.ite ?_ ?_
    | (with_reducible refine Agree.foldl ?_ ?_; intro _ _ _)
    | (with_reducible refine Agree.foldl2 ?_ ?_; intro _ _ _)
    | (with_reducible refine Agree.foldl3 ?_ ?_; intro _ _ _)
    | (with_reducible refine Agree.foldl4 ?_ ?_; intro _ _ _)
    | dsimp only
    | split
    | (with_reducible refine Agree.of_pair (by assumption) ?_)
    | (with_reducible refine Agree.of_pair2 (by assumption) ?_)
    | intro _
theorem startInval_step {M s0} {s : State} {v : Inval} (hs : bitsIn 0x4000000000000000004040020001bc040800001920300020000000000007800780037f84c7b80 M = true) (hA : Agree M s0 s) : Agree M s0 (startInval s v) :=
  hA.step hs (startInval_frame s v)

theorem execIqTailWrite_frame (win v : Nat) (s : State) : AgreeO 0x4000000000000000000000000000000000000000 s (execIqTailWrite win v s) := by
  unfold execIqTailWrite
  repeat' first
    | with_reducible assumption
    | with_reducible exact Agree.refl _ _
    | exact bitsIn_rfl rfl
    | exact regIn_rfl rfl rfl
    | with_reducible refine AgreeO.next ?_
    | with_reducible refine AgreeO.ite ?_ ?_
    | with_reducible exact AgreeO.refused
    | with_reducible exact AgreeO.fault
    | with_reducible refine setF_step ?_ ?_ ?_
    | with_reducible refine Agree.ite ?_ ?_
    | dsimp only
    | split
    | (with_reducible refine Agree.of_pair (by assumption) ?_)
    | (with_reducible refine Agree.of_pair2 (by assumption) ?_)
    | intro _
theorem execIqTailWrite_step {M s0} {win v : Nat} {s : State} (hs : bitsIn 0x4000000000000000000000000000000000000000 M = true) (hA : Agree M s0 s) : AgreeO M s0 (execIqTailWrite win v s) :=
  hA.stepO hs (execIqTailWrite_frame win v s)

theorem iqAdvance_frame (s : State) (win : Nat) : Agree 0x8000000000000000000000000000000000000000 s (iqAdvance s win) := by
  unfold iqAdvance
  repeat' first
    | with_reducible assumption
    | with_reducible exact Agree.refl _ _
    | exact bitsIn_rfl rfl
    | exact regIn_rfl rfl rfl
    | with_reducible refine setF_step ?_ ?_ ?_
    | with_reducible refine Agree.ite ?_ ?_
    | dsimp only
    | split
    | (with_reducible refine Agree.of_pair (by assumption) ?_)
    | (with_reducible refine Agree.of_pair2 (by assumption) ?_)
    | intro _
theorem iqAdvance_step {M s0} {s : State} {win : Nat} (hs : bitsIn 0x8000000000000000000000000000000000000000 M = true) (hA : Agree M s0 s) : Agree M s0 (iqAdvance s win) :=
  hA.step hs (iqAdvance_frame s win)

theorem beginInval_frame (s : State) (win op : Nat) : Agree 0x4000000000000000004040020001bc040800181920300020000000000007800780037f84c7b80 s (beginInval s win op) := by
  unfold beginInval
  repeat' first
    | with_reducible assumption
    | with_reducible exact Agree.refl _ _
    | exact bitsIn_rfl rfl
    | exact regIn_rfl rfl rfl
    | with_reducible refine iqAdvance_step ?_ ?_
    | with_reducible refine setF_step ?_ ?_ ?_
    | with_reducible refine startInval_step ?_ ?_
    | with_reducible refine Agree.ite ?_ ?_
    | dsimp only
    | split
    | (with_reducible refine Agree.of_pair (by assumption) ?_)
    | (with_reducible refine Agree.of_pair2 (by assumption) ?_)
    | intro _
theorem beginInval_step {M s0} {s : State} {win op : Nat} (hs : bitsIn 0x4000000000000000004040020001bc040800181920300020000000000007800780037f84c7b80 M = true) (hA : Agree M s0 s) : Agree M s0 (beginInval s win op) :=
  hA.step hs (beginInval_frame s win op)

theorem execRange_frame (win : Nat) (s : State) : AgreeO 0x4000000000000000004040020001bc040800181920300020000000000007800780037f84c7b80 s (execRange win s) := by
  unfold execRange
  repeat' first
    | with_reducible assumption
    | with_reducible exact Agree.refl _ _
    | exact bitsIn_rfl rfl
    | exact regIn_rfl rfl rfl
    | with_reducible refine AgreeO.next ?_
    | with_reducible refine AgreeO.ite ?_ ?_
    | with_reducible exact AgreeO.refused
    | with_reducible exact AgreeO.fault
    | with_reducible refine beginInval_step ?_ ?_
    | with_reducible refine Agree.ite ?_ ?_
    | dsimp only
    | split
    | (with_reducible refine Agree.of_pair (by assumption) ?_)
    | (with_reducible refine Agree.of_pair2 (by assumption) ?_)
    | intro _
theorem execRange_step {M s0} {win : Nat} {s : State} (hs : bitsIn 0x4000000000000000004040020001bc040800181920300020000000000007800780037f84c7b80 M = true) (hA : Agree M s0 s) : AgreeO M s0 (execRange win s) :=
  hA.stepO hs (execRange_frame win s)

theorem execSpace_frame (win : Nat) (s : State) : AgreeO 0x4000000000000000004040020001bc040800181920300020000000000007800780037f84c7b80 s (execSpace win s) := by
  unfold execSpace
  repeat' first
    | with_reducible assumption
    | with_reducible exact Agree.refl _ _
    | exact bitsIn_rfl rfl
    | exact regIn_rfl rfl rfl
    | with_reducible refine AgreeO.next ?_
    | with_reducible refine AgreeO.ite ?_ ?_
    | with_reducible exact AgreeO.refused
    | with_reducible exact AgreeO.fault
    | with_reducible refine beginInval_step ?_ ?_
    | with_reducible refine Agree.ite ?_ ?_
    | dsimp only
    | split
    | (with_reducible refine Agree.of_pair (by assumption) ?_)
    | (with_reducible refine Agree.of_pair2 (by assumption) ?_)
    | intro _
theorem execSpace_step {M s0} {win : Nat} {s : State} (hs : bitsIn 0x4000000000000000004040020001bc040800181920300020000000000007800780037f84c7b80 M = true) (hA : Agree M s0 s) : AgreeO M s0 (execSpace win s) :=
  hA.stepO hs (execSpace_frame win s)

theorem execAll_frame (win : Nat) (s : State) : AgreeO 0x4000000000000000004040020001bc040800181920300020000000000007800780037f84c7b80 s (execAll win s) := by
  unfold execAll
  repeat' first
    | with_reducible assumption
    | with_reducible exact Agree.refl _ _
    | exact bitsIn_rfl rfl
    | exact regIn_rfl rfl rfl
    | with_reducible refine AgreeO.next ?_
    | with_reducible refine AgreeO.ite ?_ ?_
    | with_reducible exact AgreeO.refused
    | with_reducible exact AgreeO.fault
    | with_reducible refine beginInval_step ?_ ?_
    | with_reducible refine Agree.ite ?_ ?_
    | dsimp only
    | split
    | (with_reducible refine Agree.of_pair (by assumption) ?_)
    | (with_reducible refine Agree.of_pair2 (by assumption) ?_)
    | intro _
theorem execAll_step {M s0} {win : Nat} {s : State} (hs : bitsIn 0x4000000000000000004040020001bc040800181920300020000000000007800780037f84c7b80 M = true) (hA : Agree M s0 s) : AgreeO M s0 (execAll win s) :=
  hA.stepO hs (execAll_frame win s)

theorem execSync_frame (win : Nat) (s : State) : AgreeO 0x4000000000000000004040020001bc040800181920300020000000000007800780037f84c7b80 s (execSync win s) := by
  unfold execSync
  repeat' first
    | with_reducible assumption
    | with_reducible exact Agree.refl _ _
    | exact bitsIn_rfl rfl
    | exact regIn_rfl rfl rfl
    | with_reducible refine AgreeO.next ?_
    | with_reducible refine AgreeO.ite ?_ ?_
    | with_reducible exact AgreeO.refused
    | with_reducible exact AgreeO.fault
    | with_reducible refine beginInval_step ?_ ?_
    | with_reducible refine Agree.ite ?_ ?_
    | dsimp only
    | split
    | (with_reducible refine Agree.of_pair (by assumption) ?_)
    | (with_reducible refine Agree.of_pair2 (by assumption) ?_)
    | intro _
theorem execSync_step {M s0} {win : Nat} {s : State} (hs : bitsIn 0x4000000000000000004040020001bc040800181920300020000000000007800780037f84c7b80 M = true) (hA : Agree M s0 s) : AgreeO M s0 (execSync win s) :=
  hA.stepO hs (execSync_frame win s)

theorem execInvalidationComplete_frame (id : Nat) (s : State) : AgreeO 0x100000400000000000000000404302800020040800081800000023000000000034000780042c04ff180 s (execInvalidationComplete id s) := by
  unfold execInvalidationComplete
  repeat' first
    | with_reducible assumption
    | with_reducible exact Agree.refl _ _
    | exact bitsIn_rfl rfl
    | exact regIn_rfl rfl rfl
    | with_reducible refine AgreeO.next ?_
    | with_reducible refine AgreeO.ite ?_ ?_
    | with_reducible exact AgreeO.refused
    | with_reducible exact AgreeO.fault
    | with_reducible refine devEnd_step ?_ ?_
    | with_reducible refine fenceTry_step ?_ ?_
    | with_reducible refine iqAdvance_step ?_ ?_
    | ((conv => arg 3; arg 88; skip); with_reducible first | refine upd_invals ?_ ?_)
    | with_reducible refine Agree.ite ?_ ?_
    | dsimp only
    | split
    | (with_reducible refine Agree.of_pair (by assumption) ?_)
    | (with_reducible refine Agree.of_pair2 (by assumption) ?_)
    | intro _
theorem execInvalidationComplete_step {M s0} {id : Nat} {s : State} (hs : bitsIn 0x100000400000000000000000404302800020040800081800000023000000000034000780042c04ff180 M = true) (hA : Agree M s0 s) : AgreeO M s0 (execInvalidationComplete id s) :=
  hA.stepO hs (execInvalidationComplete_frame id s)

theorem execInvalidationSlow_frame (id : Nat) (s : State) : AgreeO 0x40000000000000000000000000000200000000 s (execInvalidationSlow id s) := by
  unfold execInvalidationSlow
  repeat' first
    | with_reducible assumption
    | with_reducible exact Agree.refl _ _
    | exact bitsIn_rfl rfl
    | exact regIn_rfl rfl rfl
    | with_reducible refine AgreeO.next ?_
    | with_reducible refine AgreeO.ite ?_ ?_
    | with_reducible exact AgreeO.refused
    | with_reducible exact AgreeO.fault
    | with_reducible refine countR_step ?_ ?_ ?_
    | ((conv => arg 3; arg 88; skip); with_reducible first | refine upd_invals ?_ ?_)
    | with_reducible refine Agree.ite ?_ ?_
    | dsimp only
    | split
    | (with_reducible refine Agree.of_pair (by assumption) ?_)
    | (with_reducible refine Agree.of_pair2 (by assumption) ?_)
    | intro _
theorem execInvalidationSlow_step {M s0} {id : Nat} {s : State} (hs : bitsIn 0x40000000000000000000000000000200000000 M = true) (hA : Agree M s0 s) : AgreeO M s0 (execInvalidationSlow id s) :=
  hA.stepO hs (execInvalidationSlow_frame id s)

theorem rereadSlot_frame (s : State) (space : Nat) : Agree 0x800000000 s (rereadSlot s space) := by
  unfold rereadSlot
  repeat' first
    | with_reducible assumption
    | with_reducible exact Agree.refl _ _
    | exact bitsIn_rfl rfl
    | ((conv => arg 3; arg 88; skip); with_reducible first | refine upd_slots ?_ ?_)
    | with_reducible refine Agree.ite ?_ ?_
    | dsimp only
    | split
    | (with_reducible refine Agree.of_pair (by assumption) ?_)
    | (with_reducible refine Agree.of_pair2 (by assumption) ?_)
    | intro _
theorem rereadSlot_step {M s0} {s : State} {space : Nat} (hs : bitsIn 0x800000000 M = true) (hA : Agree M s0 s) : Agree M s0 (rereadSlot s space) :=
  hA.step hs (rereadSlot_frame s space)

theorem startFlush_frame (s : State) (win space : Nat) (teardown : Option Nat) : Agree 0x4000000000000000004040020001bc04080000192030002000000000000780078003ff84c7b80 s (startFlush s win space teardown) := by
  unfold startFlush
  repeat' first
    | with_reducible assumption
    | with_reducible exact Agree.refl _ _
    | exact bitsIn_rfl rfl
    | exact regIn_rfl rfl rfl
    | with_reducible refine rereadSlot_step ?_ ?_
    | with_reducible refine startInval_step ?_ ?_
    | with_reducible refine teardown_step ?_ ?_
    | with_reducible refine Agree.ite ?_ ?_
    | dsimp only
    | split
    | (with_reducible refine Agree.of_pair (by assumption) ?_)
    | (with_reducible refine Agree.of_pair2 (by assumption) ?_)
    | intro _
theorem startFlush_step {M s0} {s : State} {win space : Nat} {teardown : Option Nat} (hs : bitsIn 0x4000000000000000004040020001bc04080000192030002000000000000780078003ff84c7b80 M = true) (hA : Agree M s0 s) : Agree M s0 (startFlush s win space teardown) :=
  hA.step hs (startFlush_frame s win space teardown)

theorem execWsFlush_frame (win v : Nat) (s : State) : AgreeO 0x4000000000000000004040020001bc04080070192030002000000000000780078003ff84c7b80 s (execWsFlush win v s) := by
  unfold execWsFlush
  repeat' first
    | with_reducible assumption
    | with_reducible exact Agree.refl _ _
    | exact bitsIn_rfl rfl
    | exact regIn_rfl rfl rfl
    | with_reducible refine AgreeO.next ?_
    | with_reducible refine AgreeO.ite ?_ ?_
    | with_reducible exact AgreeO.refused
    | with_reducible exact AgreeO.fault
    | with_reducible refine countR_step ?_ ?_ ?_
    | with_reducible refine setF_step ?_ ?_ ?_
    | with_reducible refine startFlush_step ?_ ?_
    | with_reducible refine Agree.ite ?_ ?_
    | dsimp only
    | split
    | (with_reducible refine Agree.of_pair (by assumption) ?_)
    | (with_reducible refine Agree.of_pair2 (by assumption) ?_)
    | intro _
theorem execWsFlush_step {M s0} {win v : Nat} {s : State} (hs : bitsIn 0x4000000000000000004040020001bc04080070192030002000000000000780078003ff84c7b80 M = true) (hA : Agree M s0 s) : AgreeO M s0 (execWsFlush win v s) :=
  hA.stepO hs (execWsFlush_frame win v s)

theorem execWsFlushComplete_frame (id : Nat) (s : State) : AgreeO 0x60000000000000000000000000000000200000000 s (execWsFlushComplete id s) := by
  unfold execWsFlushComplete
  repeat' first
    | with_reducible assumption
    | with_reducible exact Agree.refl _ _
    | exact bitsIn_rfl rfl
    | exact regIn_rfl rfl rfl
    | with_reducible refine AgreeO.next ?_
    | with_reducible refine AgreeO.ite ?_ ?_
    | with_reducible exact AgreeO.refused
    | with_reducible exact AgreeO.fault
    | with_reducible refine countR_step ?_ ?_ ?_
    | with_reducible refine setF_step ?_ ?_ ?_
    | ((conv => arg 3; arg 88; skip); with_reducible first | refine upd_invals ?_ ?_)
    | with_reducible refine Agree.ite ?_ ?_
    | dsimp only
    | split
    | (with_reducible refine Agree.of_pair (by assumption) ?_)
    | (with_reducible refine Agree.of_pair2 (by assumption) ?_)
    | intro _
theorem execWsFlushComplete_step {M s0} {id : Nat} {s : State} (hs : bitsIn 0x60000000000000000000000000000000200000000 M = true) (hA : Agree M s0 s) : AgreeO M s0 (execWsFlushComplete id s) :=
  hA.stepO hs (execWsFlushComplete_frame id s)

end Sys2Proof.Machine
end

