-- ==== Sys2Proof/Laws/FrameBrood.lean ====
section
/-!
SUPPORT. The frame of every function of Machine/Brood.lean that answers a state: the fields it can change, by mask.
-/

set_option linter.unusedTactic false
set_option linter.unreachableTactic false
set_option linter.unusedVariables false

namespace Sys2Proof.Machine

theorem cutKernel_frame (s : State) (kid code : Nat) : Agree 0x1000000000000000000000004040020000200408000000200000000000000000060007b0060384ffa80 s (cutKernel s kid code).2 := by
  unfold cutKernel
  repeat' first
    | with_reducible assumption
    | with_reducible exact Agree.refl _ _
    | exact bitsIn_rfl rfl
    | exact regIn_rfl rfl rfl
    | ((with_reducible refine ModOf.intro ?_); first | exact fun _ w => w | exact fun _ w => canonical_memPut _ _ w | exact fun _ w => canonical_filter _ w | exact fun _ w => canonical_foldl_mset _ _ w | exact fun _ _ => rfl)
    | with_reducible refine abortCore_step ?_ ?_
    | with_reducible refine clearCore_step ?_ ?_
    | with_reducible refine doomIf_step ?_ ?_
    | with_reducible refine endKernel_step ?_ ?_
    | with_reducible refine modCore_step ?_ ?_ ?_
    | with_reducible refine postEvent_step ?_ ?_
    | with_reducible refine Agree.ite ?_ ?_
    | (with_reducible refine Agree.foldl ?_ ?_; intro _ _ _)
    | (with_reducible refine Agree.foldl2 ?_ ?_; intro _ _ _)
    | (with_reducible refine Agree.foldl3 ?_ ?_; intro _ _ _)
    | (with_reducible refine Agree.foldl4 ?_ ?_; intro _ _ _)
    | dsimp only
    | split
    | (with_reducible refine Agree.of_pair (by assumption) ?_)
    | (with_reducible refine Agree.of_pair2 (by assumption) ?_)
    | intro _
theorem cutKernel_step {M s0} {s : State} {kid code : Nat} (hs : bitsIn 0x1000000000000000000000004040020000200408000000200000000000000000060007b0060384ffa80 M = true) (hA : Agree M s0 s) : Agree M s0 (cutKernel s kid code).2 :=
  hA.step hs (cutKernel_frame s kid code)

theorem dropDescs_frame (s : State) (u k : Nat) (p : Desc → Bool) : Agree 0x4040020000a0040800000020000000000000000006000780000384ff280 s (dropDescs s u k p).2.2 := by
  unfold dropDescs
  repeat' first
    | with_reducible assumption
    | with_reducible exact Agree.refl _ _
    | exact bitsIn_rfl rfl
    | exact regIn_rfl rfl rfl
    | with_reducible refine abortReqs_step ?_ ?_
    | with_reducible refine endDesc_step ?_ ?_
    | with_reducible refine setChan_step ?_ ?_
    | with_reducible refine Agree.ite ?_ ?_
    | dsimp only
    | split
    | (with_reducible refine Agree.of_pair (by assumption) ?_)
    | (with_reducible refine Agree.of_pair2 (by assumption) ?_)
    | intro _
theorem dropDescs_step {M s0} {s : State} {u k : Nat} {p : Desc → Bool} (hs : bitsIn 0x4040020000a0040800000020000000000000000006000780000384ff280 M = true) (hA : Agree M s0 s) : Agree M s0 (dropDescs s u k p).2.2 :=
  hA.step hs (dropDescs_frame s u k p)

theorem dropAllDescs_frame (s : State) (p : Desc → Bool) : Agree 0x4040020000a0040800000020000000000000000006000780000384ff280 s (dropAllDescs s p).2.2 := by
  unfold dropAllDescs
  repeat' first
    | with_reducible assumption
    | with_reducible exact Agree.refl _ _
    | exact bitsIn_rfl rfl
    | exact regIn_rfl rfl rfl
    | with_reducible refine dropDescs_step ?_ ?_
    | with_reducible refine Agree.ite ?_ ?_
    | (with_reducible refine Agree.foldl ?_ ?_; intro _ _ _)
    | (with_reducible refine Agree.foldl2 ?_ ?_; intro _ _ _)
    | (with_reducible refine Agree.foldl3 ?_ ?_; intro _ _ _)
    | (with_reducible refine Agree.foldl4 ?_ ?_; intro _ _ _)
    | dsimp only
    | split
    | (with_reducible refine Agree.of_pair (by assumption) ?_)
    | (with_reducible refine Agree.of_pair2 (by assumption) ?_)
    | intro _
theorem dropAllDescs_step {M s0} {s : State} {p : Desc → Bool} (hs : bitsIn 0x4040020000a0040800000020000000000000000006000780000384ff280 M = true) (hA : Agree M s0 s) : Agree M s0 (dropAllDescs s p).2.2 :=
  hA.step hs (dropAllDescs_frame s p)

theorem abortLinks_frame (s : State) (space instar : Nat) : Agree 0x40400000000000000000000000000000000000000000048000000000000 s (abortLinks s space instar) := by
  unfold abortLinks
  repeat' first
    | with_reducible assumption
    | with_reducible exact Agree.refl _ _
    | exact bitsIn_rfl rfl
    | exact regIn_rfl rfl rfl
    | with_reducible refine sendOrDrop_step ?_ ?_
    | with_reducible refine Agree.ite ?_ ?_
    | (with_reducible refine Agree.foldl ?_ ?_; intro _ _ _)
    | (with_reducible refine Agree.foldl2 ?_ ?_; intro _ _ _)
    | (with_reducible refine Agree.foldl3 ?_ ?_; intro _ _ _)
    | (with_reducible refine Agree.foldl4 ?_ ?_; intro _ _ _)
    | dsimp only
    | split
    | (with_reducible refine Agree.of_pair (by assumption) ?_)
    | (with_reducible refine Agree.of_pair2 (by assumption) ?_)
    | intro _
theorem abortLinks_step {M s0} {s : State} {space instar : Nat} (hs : bitsIn 0x40400000000000000000000000000000000000000000048000000000000 M = true) (hA : Agree M s0 s) : Agree M s0 (abortLinks s space instar) :=
  hA.step hs (abortLinks_frame s space instar)

theorem dropDispatches_frame (s : State) (p : GateJob → Bool) : Agree 0x4000000000000000004043028000a0040800001820000020000000000006000780030f84ff380 s (dropDispatches s p) := by
  unfold dropDispatches
  repeat' first
    | with_reducible assumption
    | with_reducible exact Agree.refl _ _
    | exact bitsIn_rfl rfl
    | exact regIn_rfl rfl rfl
    | with_reducible refine dropAllDescs_step ?_ ?_
    | with_reducible refine dropPlan_step ?_ ?_
    | with_reducible refine dropTiles_step ?_ ?_
    | with_reducible refine freeOutputs_step ?_ ?_
    | with_reducible refine gateClear_step ?_ ?_
    | with_reducible refine modGate_step ?_ ?_
    | with_reducible refine Agree.ite ?_ ?_
    | (with_reducible refine Agree.foldl ?_ ?_; intro _ _ _)
    | (with_reducible refine Agree.foldl2 ?_ ?_; intro _ _ _)
    | (with_reducible refine Agree.foldl3 ?_ ?_; intro _ _ _)
    | (with_reducible refine Agree.foldl4 ?_ ?_; intro _ _ _)
    | dsimp only
    | split
    | (with_reducible refine Agree.of_pair (by assumption) ?_)
    | (with_reducible refine Agree.of_pair2 (by assumption) ?_)
    | intro _
theorem dropDispatches_step {M s0} {s : State} {p : GateJob → Bool} (hs : bitsIn 0x4000000000000000004043028000a0040800001820000020000000000006000780030f84ff380 M = true) (hA : Agree M s0 s) : Agree M s0 (dropDispatches s p) :=
  hA.step hs (dropDispatches_frame s p)

theorem execSliceEnd_frame (i : Nat) (s : State) : AgreeO 0x30000000000000000180000000000000000 s (execSliceEnd i s) := by
  unfold execSliceEnd
  repeat' first
    | with_reducible assumption
    | with_reducible exact Agree.refl _ _
    | exact bitsIn_rfl rfl
    | exact regIn_rfl rfl rfl
    | with_reducible refine AgreeO.next ?_
    | with_reducible refine AgreeO.ite ?_ ?_
    | with_reducible exact AgreeO.refused
    | with_reducible exact AgreeO.fault
    | with_reducible refine schedule_step ?_ ?_
    | with_reducible refine Agree.ite ?_ ?_
    | dsimp only
    | split
    | (with_reducible refine Agree.of_pair (by assumption) ?_)
    | (with_reducible refine Agree.of_pair2 (by assumption) ?_)
    | intro _
theorem execSliceEnd_step {M s0} {i : Nat} {s : State} (hs : bitsIn 0x30000000000000000180000000000000000 M = true) (hA : Agree M s0 s) : AgreeO M s0 (execSliceEnd i s) :=
  hA.stepO hs (execSliceEnd_frame i s)

theorem keepDesc_frame (s : State) (d : Desc) (p : Option Prog) : Agree 0x400000000000000000 s (keepDesc s d p) := by
  unfold keepDesc
  repeat' first
    | with_reducible assumption
    | with_reducible exact Agree.refl _ _
    | exact bitsIn_rfl rfl
    | with_reducible refine modCmd_step ?_ ?_
    | with_reducible refine Agree.ite ?_ ?_
    | dsimp only
    | split
    | (with_reducible refine Agree.of_pair (by assumption) ?_)
    | (with_reducible refine Agree.of_pair2 (by assumption) ?_)
    | intro _
theorem keepDesc_step {M s0} {s : State} {d : Desc} {p : Option Prog} (hs : bitsIn 0x400000000000000000 M = true) (hA : Agree M s0 s) : Agree M s0 (keepDesc s d p) :=
  hA.step hs (keepDesc_frame s d p)

theorem parkTile_frame (s : State) (u k : Nat) (d : Desc) : Agree 0x8002000 s (parkTile s u k d) := by
  unfold parkTile
  repeat' first
    | with_reducible assumption
    | with_reducible exact Agree.refl _ _
    | exact bitsIn_rfl rfl
    | with_reducible refine setChan_step ?_ ?_
    | with_reducible refine setTile_step ?_ ?_
    | with_reducible refine Agree.ite ?_ ?_
    | dsimp only
    | split
    | (with_reducible refine Agree.of_pair (by assumption) ?_)
    | (with_reducible refine Agree.of_pair2 (by assumption) ?_)
    | intro _
theorem parkTile_step {M s0} {s : State} {u k : Nat} {d : Desc} (hs : bitsIn 0x8002000 M = true) (hA : Agree M s0 s) : Agree M s0 (parkTile s u k d) :=
  hA.step hs (parkTile_frame s u k d)

theorem liftChan_frame (s : State) (u k space : Nat) : Agree 0x4040020000a0040800000020000000000000000006000780000384c7280 s (liftChan s u k space) := by
  unfold liftChan
  repeat' first
    | with_reducible assumption
    | with_reducible exact Agree.refl _ _
    | exact bitsIn_rfl rfl
    | exact regIn_rfl rfl rfl
    | with_reducible refine endDesc_step ?_ ?_
    | with_reducible refine keepDesc_step ?_ ?_
    | with_reducible refine parkTile_step ?_ ?_
    | with_reducible refine setChan_step ?_ ?_
    | with_reducible refine Agree.ite ?_ ?_
    | (with_reducible refine Agree.foldl ?_ ?_; intro _ _ _)
    | (with_reducible refine Agree.foldl2 ?_ ?_; intro _ _ _)
    | (with_reducible refine Agree.foldl3 ?_ ?_; intro _ _ _)
    | (with_reducible refine Agree.foldl4 ?_ ?_; intro _ _ _)
    | dsimp only
    | split
    | (with_reducible refine Agree.of_pair (by assumption) ?_)
    | (with_reducible refine Agree.of_pair2 (by assumption) ?_)
    | intro _
theorem liftChan_step {M s0} {s : State} {u k space : Nat} (hs : bitsIn 0x4040020000a0040800000020000000000000000006000780000384c7280 M = true) (hA : Agree M s0 s) : Agree M s0 (liftChan s u k space) :=
  hA.step hs (liftChan_frame s u k space)

theorem liftBulk_frame (s : State) (space : Nat) : Agree 0x4040020000a0040800000020000000000000000006000780000384c7280 s (liftBulk s space) := by
  unfold liftBulk
  repeat' first
    | with_reducible assumption
    | with_reducible exact Agree.refl _ _
    | exact bitsIn_rfl rfl
    | exact regIn_rfl rfl rfl
    | with_reducible refine liftChan_step ?_ ?_
    | with_reducible refine Agree.ite ?_ ?_
    | (with_reducible refine Agree.foldl ?_ ?_; intro _ _ _)
    | (with_reducible refine Agree.foldl2 ?_ ?_; intro _ _ _)
    | (with_reducible refine Agree.foldl3 ?_ ?_; intro _ _ _)
    | (with_reducible refine Agree.foldl4 ?_ ?_; intro _ _ _)
    | dsimp only
    | split
    | (with_reducible refine Agree.of_pair (by assumption) ?_)
    | (with_reducible refine Agree.of_pair2 (by assumption) ?_)
    | intro _
theorem liftBulk_step {M s0} {s : State} {space : Nat} (hs : bitsIn 0x4040020000a0040800000020000000000000000006000780000384c7280 M = true) (hA : Agree M s0 s) : Agree M s0 (liftBulk s space) :=
  hA.step hs (liftBulk_frame s space)

theorem execHandoverComplete_frame (i : Nat) (s : State) : AgreeO 0x4040020000a0040800000020300000000000000007800780000384c7280 s (execHandoverComplete i s) := by
  unfold execHandoverComplete
  repeat' first
    | with_reducible assumption
    | with_reducible exact Agree.refl _ _
    | exact bitsIn_rfl rfl
    | exact regIn_rfl rfl rfl
    | with_reducible refine AgreeO.next ?_
    | with_reducible refine AgreeO.ite ?_ ?_
    | with_reducible exact AgreeO.refused
    | with_reducible exact AgreeO.fault
    | with_reducible refine liftBulk_step ?_ ?_
    | with_reducible refine modCtx_step ?_ ?_
    | with_reducible refine modSched_step ?_ ?_
    | with_reducible refine schedule_step ?_ ?_
    | with_reducible refine setSlotState_step ?_ ?_
    | with_reducible refine startSlice_step ?_ ?_
    | with_reducible refine Agree.ite ?_ ?_
    | dsimp only
    | split
    | (with_reducible refine Agree.of_pair (by assumption) ?_)
    | (with_reducible refine Agree.of_pair2 (by assumption) ?_)
    | intro _
theorem execHandoverComplete_step {M s0} {i : Nat} {s : State} (hs : bitsIn 0x4040020000a0040800000020300000000000000007800780000384c7280 M = true) (hA : Agree M s0 s) : AgreeO M s0 (execHandoverComplete i s) :=
  hA.stepO hs (execHandoverComplete_frame i s)

theorem execNpOverrun_frame (id : Nat) (s : State) : AgreeO 0x10000000000000000000000000000000000000000000000004000000000000000400000004000000000 s (execNpOverrun id s) := by
  unfold execNpOverrun
  repeat' first
    | with_reducible assumption
    | with_reducible exact Agree.refl _ _
    | exact bitsIn_rfl rfl
    | exact regIn_rfl rfl rfl
    | with_reducible refine AgreeO.next ?_
    | with_reducible refine AgreeO.ite ?_ ?_
    | with_reducible exact AgreeO.refused
    | with_reducible exact AgreeO.fault
    | with_reducible refine countR_step ?_ ?_ ?_
    | with_reducible refine modCmd_step ?_ ?_
    | with_reducible refine postEvent_step ?_ ?_
    | with_reducible refine Agree.ite ?_ ?_
    | dsimp only
    | split
    | (with_reducible refine Agree.of_pair (by assumption) ?_)
    | (with_reducible refine Agree.of_pair2 (by assumption) ?_)
    | intro _
theorem execNpOverrun_step {M s0} {id : Nat} {s : State} (hs : bitsIn 0x10000000000000000000000000000000000000000000000004000000000000000400000004000000000 M = true) (hA : Agree M s0 s) : AgreeO M s0 (execNpOverrun id s) :=
  hA.stepO hs (execNpOverrun_frame id s)

theorem dropDevice_frame (s : State) (space : Nat) : Agree 0x404002000020040800000020000000000000000006000780000384ff280 s (dropDevice s space).2 := by
  unfold dropDevice
  repeat' first
    | with_reducible assumption
    | with_reducible exact Agree.refl _ _
    | exact bitsIn_rfl rfl
    | exact regIn_rfl rfl rfl
    | with_reducible refine abortReqs_step ?_ ?_
    | with_reducible refine dropTiles_step ?_ ?_
    | with_reducible refine Agree.ite ?_ ?_
    | dsimp only
    | split
    | (with_reducible refine Agree.of_pair (by assumption) ?_)
    | (with_reducible refine Agree.of_pair2 (by assumption) ?_)
    | intro _
theorem dropDevice_step {M s0} {s : State} {space : Nat} (hs : bitsIn 0x404002000020040800000020000000000000000006000780000384ff280 M = true) (hA : Agree M s0 s) : Agree M s0 (dropDevice s space).2 :=
  hA.step hs (dropDevice_frame s space)

theorem execTeardownAbort_frame (space : Nat) (s : State) : AgreeO 0x1000004000000000000000004043028001bc0408000019203000600000000000078007b707ff84ffb80 s (execTeardownAbort space s) := by
  unfold execTeardownAbort
  repeat' first
    | with_reducible assumption
    | with_reducible exact Agree.refl _ _
    | exact bitsIn_rfl rfl
    | exact regIn_rfl rfl rfl
    | with_reducible refine AgreeO.next ?_
    | with_reducible refine AgreeO.ite ?_ ?_
    | with_reducible exact AgreeO.refused
    | with_reducible exact AgreeO.fault
    | with_reducible refine abortLinks_step ?_ ?_
    | with_reducible refine advanceInstar_step ?_ ?_
    | with_reducible refine cutKernel_step ?_ ?_
    | with_reducible refine doomIf_step ?_ ?_
    | with_reducible refine dropAllDescs_step ?_ ?_
    | with_reducible refine dropDevice_step ?_ ?_
    | with_reducible refine dropDispatches_step ?_ ?_
    | with_reducible refine endCmd_step ?_ ?_
    | with_reducible refine modCmd_step ?_ ?_
    | with_reducible refine modCtx_step ?_ ?_
    | with_reducible refine retireEntries_step ?_ ?_
    | with_reducible refine startFlush_step ?_ ?_
    | with_reducible refine Agree.ite ?_ ?_
    | (with_reducible refine Agree.foldl ?_ ?_; intro _ _ _)
    | (with_reducible refine Agree.foldl2 ?_ ?_; intro _ _ _)
    | (with_reducible refine Agree.foldl3 ?_ ?_; intro _ _ _)
    | (with_reducible refine Agree.foldl4 ?_ ?_; intro _ _ _)
    | dsimp only
    | split
    | (with_reducible refine Agree.of_pair (by assumption) ?_)
    | (with_reducible refine Agree.of_pair2 (by assumption) ?_)
    | intro _
theorem execTeardownAbort_step {M s0} {space : Nat} {s : State} (hs : bitsIn 0x1000004000000000000000004043028001bc0408000019203000600000000000078007b707ff84ffb80 M = true) (hA : Agree M s0 s) : AgreeO M s0 (execTeardownAbort space s) :=
  hA.stepO hs (execTeardownAbort_frame space s)

theorem destroyQueue_frame (s : State) (q : Nat) : Agree 0x400000000000000000404302800000040800001800100060000000000002000587000c04fc180 s (destroyQueue s q) := by
  unfold destroyQueue
  repeat' first
    | with_reducible assumption
    | with_reducible exact Agree.refl _ _
    | exact bitsIn_rfl rfl
    | exact regIn_rfl rfl rfl
    | with_reducible refine advanceInstar_step ?_ ?_
    | with_reducible refine modQueue_step ?_ ?_
    | with_reducible refine writeStatus_step ?_ ?_
    | ((conv => arg 3; arg 88; skip); with_reducible first | refine upd_queues ?_ ?_)
    | with_reducible refine Agree.ite ?_ ?_
    | dsimp only
    | split
    | (with_reducible refine Agree.of_pair (by assumption) ?_)
    | (with_reducible refine Agree.of_pair2 (by assumption) ?_)
    | intro _
theorem destroyQueue_step {M s0} {s : State} {q : Nat} (hs : bitsIn 0x400000000000000000404302800000040800001800100060000000000002000587000c04fc180 M = true) (hA : Agree M s0 s) : Agree M s0 (destroyQueue s q) :=
  hA.step hs (destroyQueue_frame s q)

theorem execQuiesce_frame (space : Nat) (s : State) : AgreeO 0x10000040000000004001000040430280008004080000180030006000000000400b804587048c04fe380 s (execQuiesce space s) := by
  unfold execQuiesce
  repeat' first
    | with_reducible assumption
    | with_reducible exact Agree.refl _ _
    | exact bitsIn_rfl rfl
    | exact regIn_rfl rfl rfl
    | with_reducible refine AgreeO.next ?_
    | with_reducible refine AgreeO.ite ?_ ?_
    | with_reducible exact AgreeO.refused
    | with_reducible exact AgreeO.fault
    | ((with_reducible refine MemOf.intro ?_); first | exact fun _ w => ⟨w.1, canonical_memPut _ _ w.2.1, w.2.2⟩)
    | with_reducible refine destroyQueue_step ?_ ?_
    | with_reducible refine dropColls_step ?_ ?_
    | with_reducible refine forgetSpace_step ?_ ?_
    | with_reducible refine freeVal_step ?_ ?_
    | with_reducible refine postEvent_step ?_ ?_
    | with_reducible refine schedule_step ?_ ?_
    | with_reducible refine setR_step ?_ ?_ ?_
    | ((conv => arg 3; arg 88; skip); with_reducible first | refine upd_host ?_ ?_ ?_ | refine upd_slots ?_ ?_ | refine upd_ctxs_objs ?_ ?_ | refine upd_host_slots ?_ ?_ ?_)
    | with_reducible refine Agree.ite ?_ ?_
    | (with_reducible refine Agree.foldl ?_ ?_; intro _ _ _)
    | (with_reducible refine Agree.foldl2 ?_ ?_; intro _ _ _)
    | (with_reducible refine Agree.foldl3 ?_ ?_; intro _ _ _)
    | (with_reducible refine Agree.foldl4 ?_ ?_; intro _ _ _)
    | dsimp only
    | split
    | (with_reducible refine Agree.of_pair (by assumption) ?_)
    | (with_reducible refine Agree.of_pair2 (by assumption) ?_)
    | intro _
theorem execQuiesce_step {M s0} {space : Nat} {s : State} (hs : bitsIn 0x10000040000000004001000040430280008004080000180030006000000000400b804587048c04fe380 M = true) (hA : Agree M s0 s) : AgreeO M s0 (execQuiesce space s) :=
  hA.stepO hs (execQuiesce_frame space s)

end Sys2Proof.Machine
end

