-- ==== Sys2Proof/Laws/FrameCInstr.lean ====
section
/-!
SUPPORT. The frame of every function of Machine/CInstr.lean that answers a state: the fields it can change, by mask.
-/

set_option linter.unusedTactic false
set_option linter.unreachableTactic false
set_option linter.unusedVariables false

namespace Sys2Proof.Machine

theorem execCnop_frame (t : Th) (s : State) : AgreeO 0x30000000000000000180000000000000a00 s (execCnop t s) := by
  unfold execCnop
  repeat' first
    | with_reducible assumption
    | with_reducible exact Agree.refl _ _
    | exact bitsIn_rfl rfl
    | exact regIn_rfl rfl rfl
    | with_reducible refine AgreeO.next ?_
    | with_reducible refine AgreeO.ite ?_ ?_
    | with_reducible exact AgreeO.refused
    | with_reducible exact AgreeO.fault
    | with_reducible refine issueLocal_step ?_ ?_
    | with_reducible refine Agree.ite ?_ ?_
    | dsimp only
    | split
    | (with_reducible refine Agree.of_pair (by assumption) ?_)
    | (with_reducible refine Agree.of_pair2 (by assumption) ?_)
    | intro _
theorem execCnop_step {M s0} {t : Th} {s : State} (hs : bitsIn 0x30000000000000000180000000000000a00 M = true) (hA : Agree M s0 s) : AgreeO M s0 (execCnop t s) :=
  hA.stepO hs (execCnop_frame t s)

theorem execCbr_frame (t : Th) (s : State) : AgreeO 0x30000000000000000180000000000000a00 s (execCbr t s) := by
  unfold execCbr
  repeat' first
    | with_reducible assumption
    | with_reducible exact Agree.refl _ _
    | exact bitsIn_rfl rfl
    | exact regIn_rfl rfl rfl
    | with_reducible refine AgreeO.next ?_
    | with_reducible refine AgreeO.ite ?_ ?_
    | with_reducible exact AgreeO.refused
    | with_reducible exact AgreeO.fault
    | with_reducible refine issue_step ?_ ?_ ?_
    | with_reducible refine retire_step ?_ ?_
    | with_reducible refine threadFault_step ?_ ?_
    | with_reducible refine Agree.ite ?_ ?_
    | dsimp only
    | split
    | (with_reducible refine Agree.of_pair (by assumption) ?_)
    | (with_reducible refine Agree.of_pair2 (by assumption) ?_)
    | intro _
theorem execCbr_step {M s0} {t : Th} {s : State} (hs : bitsIn 0x30000000000000000180000000000000a00 M = true) (hA : Agree M s0 s) : AgreeO M s0 (execCbr t s) :=
  hA.stepO hs (execCbr_frame t s)

theorem execCjmp_frame (t : Th) (s : State) : AgreeO 0x30000000000000000180000000000000a00 s (execCjmp t s) := by
  unfold execCjmp
  repeat' first
    | with_reducible assumption
    | with_reducible exact Agree.refl _ _
    | exact bitsIn_rfl rfl
    | exact regIn_rfl rfl rfl
    | with_reducible refine AgreeO.next ?_
    | with_reducible refine AgreeO.ite ?_ ?_
    | with_reducible exact AgreeO.refused
    | with_reducible exact AgreeO.fault
    | with_reducible refine issue_step ?_ ?_ ?_
    | with_reducible refine retire_step ?_ ?_
    | with_reducible refine Agree.ite ?_ ?_
    | dsimp only
    | split
    | (with_reducible refine Agree.of_pair (by assumption) ?_)
    | (with_reducible refine Agree.of_pair2 (by assumption) ?_)
    | intro _
theorem execCjmp_step {M s0} {t : Th} {s : State} (hs : bitsIn 0x30000000000000000180000000000000a00 M = true) (hA : Agree M s0 s) : AgreeO M s0 (execCjmp t s) :=
  hA.stepO hs (execCjmp_frame t s)

theorem execCcall_frame (t : Th) (s : State) : AgreeO 0x30000000000000000180000000000000a00 s (execCcall t s) := by
  unfold execCcall
  repeat' first
    | with_reducible assumption
    | with_reducible exact Agree.refl _ _
    | exact bitsIn_rfl rfl
    | exact regIn_rfl rfl rfl
    | with_reducible refine AgreeO.next ?_
    | with_reducible refine AgreeO.ite ?_ ?_
    | with_reducible exact AgreeO.refused
    | with_reducible exact AgreeO.fault
    | with_reducible refine issue_step ?_ ?_ ?_
    | with_reducible refine retire_step ?_ ?_
    | with_reducible refine Agree.ite ?_ ?_
    | dsimp only
    | split
    | (with_reducible refine Agree.of_pair (by assumption) ?_)
    | (with_reducible refine Agree.of_pair2 (by assumption) ?_)
    | intro _
theorem execCcall_step {M s0} {t : Th} {s : State} (hs : bitsIn 0x30000000000000000180000000000000a00 M = true) (hA : Agree M s0 s) : AgreeO M s0 (execCcall t s) :=
  hA.stepO hs (execCcall_frame t s)

theorem execCjmpr_frame (t : Th) (s : State) : AgreeO 0x30000000000000000180000000000000a00 s (execCjmpr t s) := by
  unfold execCjmpr
  repeat' first
    | with_reducible assumption
    | with_reducible exact Agree.refl _ _
    | exact bitsIn_rfl rfl
    | exact regIn_rfl rfl rfl
    | with_reducible refine AgreeO.next ?_
    | with_reducible refine AgreeO.ite ?_ ?_
    | with_reducible exact AgreeO.refused
    | with_reducible exact AgreeO.fault
    | with_reducible refine issue_step ?_ ?_ ?_
    | with_reducible refine retire_step ?_ ?_
    | with_reducible refine threadFault_step ?_ ?_
    | with_reducible refine Agree.ite ?_ ?_
    | dsimp only
    | split
    | (with_reducible refine Agree.of_pair (by assumption) ?_)
    | (with_reducible refine Agree.of_pair2 (by assumption) ?_)
    | intro _
theorem execCjmpr_step {M s0} {t : Th} {s : State} (hs : bitsIn 0x30000000000000000180000000000000a00 M = true) (hA : Agree M s0 s) : AgreeO M s0 (execCjmpr t s) :=
  hA.stepO hs (execCjmpr_frame t s)

theorem execCexit_frame (t : Th) (s : State) : AgreeO 0x30000000000000000180000000000000a00 s (execCexit t s) := by
  unfold execCexit
  repeat' first
    | with_reducible assumption
    | with_reducible exact Agree.refl _ _
    | exact bitsIn_rfl rfl
    | exact regIn_rfl rfl rfl
    | with_reducible refine AgreeO.next ?_
    | with_reducible refine AgreeO.ite ?_ ?_
    | with_reducible exact AgreeO.refused
    | with_reducible exact AgreeO.fault
    | with_reducible refine issue_step ?_ ?_ ?_
    | with_reducible refine retire_step ?_ ?_
    | with_reducible refine Agree.ite ?_ ?_
    | dsimp only
    | split
    | (with_reducible refine Agree.of_pair (by assumption) ?_)
    | (with_reducible refine Agree.of_pair2 (by assumption) ?_)
    | intro _
theorem execCexit_step {M s0} {t : Th} {s : State} (hs : bitsIn 0x30000000000000000180000000000000a00 M = true) (hA : Agree M s0 s) : AgreeO M s0 (execCexit t s) :=
  hA.stepO hs (execCexit_frame t s)

theorem cWaitFor_frame (s : State) (t : Th) (legal : Bool) (w : Group → Wait) : Agree 0x30000000000000000180000000000000a00 s (cWaitFor s t legal w) := by
  unfold cWaitFor
  repeat' first
    | with_reducible assumption
    | with_reducible exact Agree.refl _ _
    | exact bitsIn_rfl rfl
    | exact regIn_rfl rfl rfl
    | with_reducible refine issueLocal_step ?_ ?_
    | with_reducible refine Agree.ite ?_ ?_
    | dsimp only
    | split
    | (with_reducible refine Agree.of_pair (by assumption) ?_)
    | (with_reducible refine Agree.of_pair2 (by assumption) ?_)
    | intro _
theorem cWaitFor_step {M s0} {s : State} {t : Th} {legal : Bool} {w : Group → Wait} (hs : bitsIn 0x30000000000000000180000000000000a00 M = true) (hA : Agree M s0 s) : Agree M s0 (cWaitFor s t legal w) :=
  hA.step hs (cWaitFor_frame s t legal w)

theorem execCbar_frame (t : Th) (s : State) : AgreeO 0x30000000000000000180000000000000a00 s (execCbar t s) := by
  unfold execCbar
  repeat' first
    | with_reducible assumption
    | with_reducible exact Agree.refl _ _
    | exact bitsIn_rfl rfl
    | exact regIn_rfl rfl rfl
    | with_reducible refine AgreeO.next ?_
    | with_reducible refine AgreeO.ite ?_ ?_
    | with_reducible exact AgreeO.refused
    | with_reducible exact AgreeO.fault
    | with_reducible refine cWaitFor_step ?_ ?_
    | with_reducible refine Agree.ite ?_ ?_
    | dsimp only
    | split
    | (with_reducible refine Agree.of_pair (by assumption) ?_)
    | (with_reducible refine Agree.of_pair2 (by assumption) ?_)
    | intro _
theorem execCbar_step {M s0} {t : Th} {s : State} (hs : bitsIn 0x30000000000000000180000000000000a00 M = true) (hA : Agree M s0 s) : AgreeO M s0 (execCbar t s) :=
  hA.stepO hs (execCbar_frame t s)

theorem execBarrierRelease_frame (c n : Nat) (s : State) : AgreeO 0x200 s (execBarrierRelease c n s) := by
  unfold execBarrierRelease
  repeat' first
    | with_reducible assumption
    | with_reducible exact Agree.refl _ _
    | exact bitsIn_rfl rfl
    | with_reducible refine AgreeO.next ?_
    | with_reducible refine AgreeO.ite ?_ ?_
    | with_reducible exact AgreeO.refused
    | with_reducible exact AgreeO.fault
    | with_reducible refine setBatch_step ?_ ?_
    | with_reducible refine Agree.ite ?_ ?_
    | dsimp only
    | split
    | (with_reducible refine Agree.of_pair (by assumption) ?_)
    | (with_reducible refine Agree.of_pair2 (by assumption) ?_)
    | intro _
theorem execBarrierRelease_step {M s0} {c n : Nat} {s : State} (hs : bitsIn 0x200 M = true) (hA : Agree M s0 s) : AgreeO M s0 (execBarrierRelease c n s) :=
  hA.stepO hs (execBarrierRelease_frame c n s)

theorem execCwait_frame (t : Th) (s : State) : AgreeO 0x30000000000000000180000000000000a00 s (execCwait t s) := by
  unfold execCwait
  repeat' first
    | with_reducible assumption
    | with_reducible exact Agree.refl _ _
    | exact bitsIn_rfl rfl
    | exact regIn_rfl rfl rfl
    | with_reducible refine AgreeO.next ?_
    | with_reducible refine AgreeO.ite ?_ ?_
    | with_reducible exact AgreeO.refused
    | with_reducible exact AgreeO.fault
    | with_reducible refine cWaitFor_step ?_ ?_
    | with_reducible refine Agree.ite ?_ ?_
    | dsimp only
    | split
    | (with_reducible refine Agree.of_pair (by assumption) ?_)
    | (with_reducible refine Agree.of_pair2 (by assumption) ?_)
    | intro _
theorem execCwait_step {M s0} {t : Th} {s : State} (hs : bitsIn 0x30000000000000000180000000000000a00 M = true) (hA : Agree M s0 s) : AgreeO M s0 (execCwait t s) :=
  hA.stepO hs (execCwait_frame t s)

theorem execCwaitSatisfied_frame (c g : Nat) (s : State) : AgreeO 0x200 s (execCwaitSatisfied c g s) := by
  unfold execCwaitSatisfied
  repeat' first
    | with_reducible assumption
    | with_reducible exact Agree.refl _ _
    | exact bitsIn_rfl rfl
    | with_reducible refine AgreeO.next ?_
    | with_reducible refine AgreeO.ite ?_ ?_
    | with_reducible exact AgreeO.refused
    | with_reducible exact AgreeO.fault
    | with_reducible refine setGroup_step ?_ ?_
    | with_reducible refine Agree.ite ?_ ?_
    | dsimp only
    | split
    | (with_reducible refine Agree.of_pair (by assumption) ?_)
    | (with_reducible refine Agree.of_pair2 (by assumption) ?_)
    | intro _
theorem execCwaitSatisfied_step {M s0} {c g : Nat} {s : State} (hs : bitsIn 0x200 M = true) (hA : Agree M s0 s) : AgreeO M s0 (execCwaitSatisfied c g s) :=
  hA.stepO hs (execCwaitSatisfied_frame c g s)

theorem execCsleep_frame (t : Th) (s : State) : AgreeO 0x30000000000000000180000000000000a00 s (execCsleep t s) := by
  unfold execCsleep
  repeat' first
    | with_reducible assumption
    | with_reducible exact Agree.refl _ _
    | exact bitsIn_rfl rfl
    | exact regIn_rfl rfl rfl
    | with_reducible refine AgreeO.next ?_
    | with_reducible refine AgreeO.ite ?_ ?_
    | with_reducible exact AgreeO.refused
    | with_reducible exact AgreeO.fault
    | with_reducible refine cWaitFor_step ?_ ?_
    | with_reducible refine Agree.ite ?_ ?_
    | dsimp only
    | split
    | (with_reducible refine Agree.of_pair (by assumption) ?_)
    | (with_reducible refine Agree.of_pair2 (by assumption) ?_)
    | intro _
theorem execCsleep_step {M s0} {t : Th} {s : State} (hs : bitsIn 0x30000000000000000180000000000000a00 M = true) (hA : Agree M s0 s) : AgreeO M s0 (execCsleep t s) :=
  hA.stepO hs (execCsleep_frame t s)

theorem execCsleepExpiry_frame (c g : Nat) (s : State) : AgreeO 0x200 s (execCsleepExpiry c g s) := by
  unfold execCsleepExpiry
  repeat' first
    | with_reducible assumption
    | with_reducible exact Agree.refl _ _
    | exact bitsIn_rfl rfl
    | with_reducible refine AgreeO.next ?_
    | with_reducible refine AgreeO.ite ?_ ?_
    | with_reducible exact AgreeO.refused
    | with_reducible exact AgreeO.fault
    | with_reducible refine setGroup_step ?_ ?_
    | with_reducible refine Agree.ite ?_ ?_
    | dsimp only
    | split
    | (with_reducible refine Agree.of_pair (by assumption) ?_)
    | (with_reducible refine Agree.of_pair2 (by assumption) ?_)
    | intro _
theorem execCsleepExpiry_step {M s0} {c g : Nat} {s : State} (hs : bitsIn 0x200 M = true) (hA : Agree M s0 s) : AgreeO M s0 (execCsleepExpiry c g s) :=
  hA.stepO hs (execCsleepExpiry_frame c g s)

theorem execCsrd_frame (t : Th) (s : State) : AgreeO 0x30000000000000000180000000000000a00 s (execCsrd t s) := by
  unfold execCsrd
  repeat' first
    | with_reducible assumption
    | with_reducible exact Agree.refl _ _
    | exact bitsIn_rfl rfl
    | exact regIn_rfl rfl rfl
    | with_reducible refine AgreeO.next ?_
    | with_reducible refine AgreeO.ite ?_ ?_
    | with_reducible exact AgreeO.refused
    | with_reducible exact AgreeO.fault
    | with_reducible refine issueLocal_step ?_ ?_
    | with_reducible refine Agree.ite ?_ ?_
    | dsimp only
    | split
    | (with_reducible refine Agree.of_pair (by assumption) ?_)
    | (with_reducible refine Agree.of_pair2 (by assumption) ?_)
    | intro _
theorem execCsrd_step {M s0} {t : Th} {s : State} (hs : bitsIn 0x30000000000000000180000000000000a00 M = true) (hA : Agree M s0 s) : AgreeO M s0 (execCsrd t s) :=
  hA.stepO hs (execCsrd_frame t s)

theorem execCswr_frame (t : Th) (s : State) : AgreeO 0x30000000000000000180000000000000a00 s (execCswr t s) := by
  unfold execCswr
  repeat' first
    | with_reducible assumption
    | with_reducible exact Agree.refl _ _
    | exact bitsIn_rfl rfl
    | exact regIn_rfl rfl rfl
    | with_reducible refine AgreeO.next ?_
    | with_reducible refine AgreeO.ite ?_ ?_
    | with_reducible exact AgreeO.refused
    | with_reducible exact AgreeO.fault
    | with_reducible refine issueLocal_step ?_ ?_
    | with_reducible refine Agree.ite ?_ ?_
    | dsimp only
    | split
    | (with_reducible refine Agree.of_pair (by assumption) ?_)
    | (with_reducible refine Agree.of_pair2 (by assumption) ?_)
    | intro _
theorem execCswr_step {M s0} {t : Th} {s : State} (hs : bitsIn 0x30000000000000000180000000000000a00 M = true) (hA : Agree M s0 s) : AgreeO M s0 (execCswr t s) :=
  hA.stepO hs (execCswr_frame t s)

theorem execCabort_frame (t : Th) (s : State) : AgreeO 0x30000000000000000180000000000000a00 s (execCabort t s) := by
  unfold execCabort
  repeat' first
    | with_reducible assumption
    | with_reducible exact Agree.refl _ _
    | exact bitsIn_rfl rfl
    | exact regIn_rfl rfl rfl
    | with_reducible refine AgreeO.next ?_
    | with_reducible refine AgreeO.ite ?_ ?_
    | with_reducible exact AgreeO.refused
    | with_reducible exact AgreeO.fault
    | with_reducible refine issue_step ?_ ?_ ?_
    | with_reducible refine retire_step ?_ ?_
    | with_reducible refine threadFault_step ?_ ?_
    | with_reducible refine Agree.ite ?_ ?_
    | dsimp only
    | split
    | (with_reducible refine Agree.of_pair (by assumption) ?_)
    | (with_reducible refine Agree.of_pair2 (by assumption) ?_)
    | intro _
theorem execCabort_step {M s0} {t : Th} {s : State} (hs : bitsIn 0x30000000000000000180000000000000a00 M = true) (hA : Agree M s0 s) : AgreeO M s0 (execCabort t s) :=
  hA.stepO hs (execCabort_frame t s)

end Sys2Proof.Machine
end

