-- ==== Sys2Proof/Laws/FrameFw.lean ====
section
/-!
SUPPORT. The frame of every function of Machine/Fw.lean that answers a state: the fields it can change, by mask.
-/

set_option linter.unusedTactic false
set_option linter.unreachableTactic false
set_option linter.unusedVariables false

namespace Sys2Proof.Machine

theorem fwMail_frame (s : State) (dest type seq : Nat) (payload : List Nat) : Agree 0x8000000000000000000 s (fwMail s dest type seq payload) := by
  unfold fwMail
  repeat' first
    | with_reducible assumption
    | with_reducible exact Agree.refl _ _
    | exact bitsIn_rfl rfl
    | ((conv => arg 3; arg 88; skip); with_reducible first | refine upd_mail ?_ ?_)
    | with_reducible refine Agree.ite ?_ ?_
    | dsimp only
    | split
    | (with_reducible refine Agree.of_pair (by assumption) ?_)
    | (with_reducible refine Agree.of_pair2 (by assumption) ?_)
    | intro _
theorem fwMail_step {M s0} {s : State} {dest type seq : Nat} {payload : List Nat} (hs : bitsIn 0x8000000000000000000 M = true) (hA : Agree M s0 s) : Agree M s0 (fwMail s dest type seq payload) :=
  hA.step hs (fwMail_frame s dest type seq payload)

theorem fwReply_frame (s : State) (r : FwReq) (result : Nat) (rest : List Nat) : Agree 0x8000000000000000000 s (fwReply s r result rest) := by
  unfold fwReply
  repeat' first
    | with_reducible assumption
    | with_reducible exact Agree.refl _ _
    | exact bitsIn_rfl rfl
    | with_reducible refine fwMail_step ?_ ?_
    | with_reducible refine Agree.ite ?_ ?_
    | dsimp only
    | split
    | (with_reducible refine Agree.of_pair (by assumption) ?_)
    | (with_reducible refine Agree.of_pair2 (by assumption) ?_)
    | intro _
theorem fwReply_step {M s0} {s : State} {r : FwReq} {result : Nat} {rest : List Nat} (hs : bitsIn 0x8000000000000000000 M = true) (hA : Agree M s0 s) : Agree M s0 (fwReply s r result rest) :=
  hA.step hs (fwReply_frame s r result rest)

theorem fwSettleN_frame (s : State) (n : Nat) : Agree 0xc000000000000000000 s (fwSettleN s n) := by
  have key : ∀ n s0 s, Agree 0xc000000000000000000 s0 s → Agree 0xc000000000000000000 s0 (fwSettleN s n) := by
    intro n
    induction n with
    | zero => intro s0 s h; exact h
    | succ n ih =>
      intro s0 s h
      unfold fwSettleN
      split
      · exact h
      · refine Agree.ite h (ih _ _ (fwReply_step (bitsIn_rfl rfl) ?_))
        exact upd_fwq (bitsIn_rfl rfl) h
  exact key n s s (Agree.refl _ _)
theorem fwSettleN_step {M s0} {s : State} {n : Nat} (hs : bitsIn 0xc000000000000000000 M = true) (h : Agree M s0 s) :
    Agree M s0 (fwSettleN s n) := h.step hs (fwSettleN_frame s n)

theorem fwSettle_frame (s : State) : Agree 0xc000000000000000000 s (fwSettle s) := by
  unfold fwSettle
  repeat' first
    | with_reducible assumption
    | with_reducible exact Agree.refl _ _
    | exact bitsIn_rfl rfl
    | with_reducible refine fwSettleN_step ?_ ?_
    | with_reducible refine Agree.ite ?_ ?_
    | dsimp only
    | split
    | (with_reducible refine Agree.of_pair (by assumption) ?_)
    | (with_reducible refine Agree.of_pair2 (by assumption) ?_)
    | intro _
theorem fwSettle_step {M s0} {s : State} (hs : bitsIn 0xc000000000000000000 M = true) (hA : Agree M s0 s) : Agree M s0 (fwSettle s) :=
  hA.step hs (fwSettle_frame s)

theorem fwEnd_frame (s : State) (r : FwReq) (result : Nat) (rest : List Nat) : Agree 0xc000000000000000000 s (fwEnd s r result rest) := by
  unfold fwEnd
  repeat' first
    | with_reducible assumption
    | with_reducible exact Agree.refl _ _
    | exact bitsIn_rfl rfl
    | with_reducible refine fwReply_step ?_ ?_
    | with_reducible refine fwSettle_step ?_ ?_
    | ((conv => arg 3; arg 88; skip); with_reducible first | refine upd_fwq ?_ ?_)
    | with_reducible refine Agree.ite ?_ ?_
    | dsimp only
    | split
    | (with_reducible refine Agree.of_pair (by assumption) ?_)
    | (with_reducible refine Agree.of_pair2 (by assumption) ?_)
    | intro _
theorem fwEnd_step {M s0} {s : State} {r : FwReq} {result : Nat} {rest : List Nat} (hs : bitsIn 0xc000000000000000000 M = true) (hA : Agree M s0 s) : Agree M s0 (fwEnd s r result rest) :=
  hA.step hs (fwEnd_frame s r result rest)

theorem fwWrite_frame (s : State) (a : Nat) (data : List Byte) : Agree 0xc0000 s (fwWrite s a data) := by
  unfold fwWrite
  repeat' first
    | with_reducible assumption
    | with_reducible exact Agree.refl _ _
    | exact bitsIn_rfl rfl
    | with_reducible refine hostWrite_step ?_ ?_
    | with_reducible refine Agree.ite ?_ ?_
    | (with_reducible refine Agree.foldl ?_ ?_; intro _ _ _)
    | (with_reducible refine Agree.foldl2 ?_ ?_; intro _ _ _)
    | (with_reducible refine Agree.foldl3 ?_ ?_; intro _ _ _)
    | (with_reducible refine Agree.foldl4 ?_ ?_; intro _ _ _)
    | dsimp only
    | split
    | (with_reducible refine Agree.of_pair (by assumption) ?_)
    | (with_reducible refine Agree.of_pair2 (by assumption) ?_)
    | intro _
theorem fwWrite_step {M s0} {s : State} {a : Nat} {data : List Byte} (hs : bitsIn 0xc0000 M = true) (hA : Agree M s0 s) : Agree M s0 (fwWrite s a data) :=
  hA.step hs (fwWrite_frame s a data)

theorem failKey_frame (s : State) (k : Nat) : Agree 0x820000000000000000000000000000000000000000000000000000000048000000000000000000 s (failKey s k) := by
  unfold failKey
  repeat' first
    | with_reducible assumption
    | with_reducible exact Agree.refl _ _
    | exact bitsIn_rfl rfl
    | exact regIn_rfl rfl rfl
    | with_reducible refine countR_step ?_ ?_ ?_
    | with_reducible refine fwMail_step ?_ ?_
    | with_reducible refine setR_step ?_ ?_ ?_
    | ((conv => arg 3; arg 88; skip); with_reducible first | refine upd_keyMat ?_ ?_)
    | with_reducible refine Agree.ite ?_ ?_
    | dsimp only
    | split
    | (with_reducible refine Agree.of_pair (by assumption) ?_)
    | (with_reducible refine Agree.of_pair2 (by assumption) ?_)
    | intro _
theorem failKey_step {M s0} {s : State} {k : Nat} (hs : bitsIn 0x820000000000000000000000000000000000000000000000000000000048000000000000000000 M = true) (hA : Agree M s0 s) : Agree M s0 (failKey s k) :=
  hA.step hs (failKey_frame s k)

end Sys2Proof.Machine
end

