-- ==== Sys2Proof/Laws/FrameCompose.lean ====
section
/-!
SUPPORT. The frame of every function of Machine/Compose.lean that answers a state: the fields it can change, by mask.
-/

set_option linter.unusedTactic false
set_option linter.unreachableTactic false
set_option linter.unusedVariables false

namespace Sys2Proof.Machine

theorem sendLease_frame (s : State) (l : Lease) (op epoch : Nat) : Agree 0x40400000000000000000000000000000000000000000048000000000000 s (sendLease s l op epoch) := by
  unfold sendLease
  repeat' first
    | with_reducible assumption
    | with_reducible exact Agree.refl _ _
    | exact bitsIn_rfl rfl
    | exact regIn_rfl rfl rfl
    | with_reducible refine sendOrDrop_step ?_ ?_
    | with_reducible refine Agree.ite ?_ ?_
    | dsimp only
    | split
    | (with_reducible refine Agree.of_pair (by assumption) ?_)
    | (with_reducible refine Agree.of_pair2 (by assumption) ?_)
    | intro _
theorem sendLease_step {M s0} {s : State} {l : Lease} {op epoch : Nat} (hs : bitsIn 0x40400000000000000000000000000000000000000000048000000000000 M = true) (hA : Agree M s0 s) : Agree M s0 (sendLease s l op epoch) :=
  hA.step hs (sendLease_frame s l op epoch)

theorem composeEnd_frame (s : State) (r : FwReq) (code rec' epoch imago : Nat) : Agree 0x9000000000c010000000000000000 s (composeEnd s r code rec' epoch imago) := by
  unfold composeEnd
  repeat' first
    | with_reducible assumption
    | with_reducible exact Agree.refl _ _
    | exact bitsIn_rfl rfl
    | exact regIn_rfl rfl rfl
    | with_reducible refine fwEnd_step ?_ ?_
    | with_reducible refine setR_step ?_ ?_ ?_
    | ((conv => arg 3; arg 88; skip); with_reducible first | refine upd_verif ?_ ?_)
    | with_reducible refine Agree.ite ?_ ?_
    | dsimp only
    | split
    | (with_reducible refine Agree.of_pair (by assumption) ?_)
    | (with_reducible refine Agree.of_pair2 (by assumption) ?_)
    | intro _
theorem composeEnd_step {M s0} {s : State} {r : FwReq} {code rec' epoch imago : Nat} (hs : bitsIn 0x9000000000c010000000000000000 M = true) (hA : Agree M s0 s) : Agree M s0 (composeEnd s r code rec' epoch imago) :=
  hA.step hs (composeEnd_frame s r code rec' epoch imago)

theorem verifEnd_frame (s : State) (r : FwReq) (v : Verif) (code rec' : Nat) : Agree 0x4040000000000000000000000000049000000000c010048000000000000 s (verifEnd s r v code rec') := by
  unfold verifEnd
  repeat' first
    | with_reducible assumption
    | with_reducible exact Agree.refl _ _
    | exact bitsIn_rfl rfl
    | exact regIn_rfl rfl rfl
    | with_reducible refine composeEnd_step ?_ ?_
    | with_reducible refine sendLease_step ?_ ?_
    | with_reducible refine setF_step ?_ ?_ ?_
    | with_reducible refine Agree.ite ?_ ?_
    | (with_reducible refine Agree.foldl ?_ ?_; intro _ _ _)
    | (with_reducible refine Agree.foldl2 ?_ ?_; intro _ _ _)
    | (with_reducible refine Agree.foldl3 ?_ ?_; intro _ _ _)
    | (with_reducible refine Agree.foldl4 ?_ ?_; intro _ _ _)
    | dsimp only
    | split
    | (with_reducible refine Agree.of_pair (by assumption) ?_)
    | (with_reducible refine Agree.of_pair2 (by assumption) ?_)
    | intro _
theorem verifEnd_step {M s0} {s : State} {r : FwReq} {v : Verif} {code rec' : Nat} (hs : bitsIn 0x4040000000000000000000000000049000000000c010048000000000000 M = true) (hA : Agree M s0 s) : Agree M s0 (verifEnd s r v code rec') :=
  hA.step hs (verifEnd_frame s r v code rec')

theorem verifPassed_frame (s : State) (r : FwReq) (v : Verif) : Agree 0x4040000000000000000000000000049000000000c010048000000000000 s (verifPassed s r v) := by
  unfold verifPassed
  repeat' first
    | with_reducible assumption
    | with_reducible exact Agree.refl _ _
    | exact bitsIn_rfl rfl
    | exact regIn_rfl rfl rfl
    | with_reducible refine verifEnd_step ?_ ?_
    | ((conv => arg 3; arg 88; skip); with_reducible first | refine upd_verif ?_ ?_)
    | with_reducible refine Agree.ite ?_ ?_
    | dsimp only
    | split
    | (with_reducible refine Agree.of_pair (by assumption) ?_)
    | (with_reducible refine Agree.of_pair2 (by assumption) ?_)
    | intro _
theorem verifPassed_step {M s0} {s : State} {r : FwReq} {v : Verif} (hs : bitsIn 0x4040000000000000000000000000049000000000c010048000000000000 M = true) (hA : Agree M s0 s) : Agree M s0 (verifPassed s r v) :=
  hA.step hs (verifPassed_frame s r v)

theorem leaseAnswer_frame (s : State) (num chip : Nat) (granted : Bool) : Agree 0x4040000000000000000000000000049000000000c010048000000000000 s (leaseAnswer s num chip granted) := by
  unfold leaseAnswer
  repeat' first
    | with_reducible assumption
    | with_reducible exact Agree.refl _ _
    | exact bitsIn_rfl rfl
    | exact regIn_rfl rfl rfl
    | with_reducible refine sendLease_step ?_ ?_
    | with_reducible refine verifEnd_step ?_ ?_
    | with_reducible refine verifPassed_step ?_ ?_
    | ((conv => arg 3; arg 88; skip); with_reducible first | refine upd_verif ?_ ?_)
    | with_reducible refine Agree.ite ?_ ?_
    | (with_reducible refine Agree.foldl ?_ ?_; intro _ _ _)
    | (with_reducible refine Agree.foldl2 ?_ ?_; intro _ _ _)
    | (with_reducible refine Agree.foldl3 ?_ ?_; intro _ _ _)
    | (with_reducible refine Agree.foldl4 ?_ ?_; intro _ _ _)
    | dsimp only
    | split
    | (with_reducible refine Agree.of_pair (by assumption) ?_)
    | (with_reducible refine Agree.of_pair2 (by assumption) ?_)
    | intro _
theorem leaseAnswer_step {M s0} {s : State} {num chip : Nat} {granted : Bool} (hs : bitsIn 0x4040000000000000000000000000049000000000c010048000000000000 M = true) (hA : Agree M s0 s) : Agree M s0 (leaseAnswer s num chip granted) :=
  hA.step hs (leaseAnswer_frame s num chip granted)

theorem wonLost_frame (s : State) (num chip : Nat) : Agree 0x4040000000000000000000000000049000000000c010048000000000000 s (wonLost s num chip) := by
  unfold wonLost
  repeat' first
    | with_reducible assumption
    | with_reducible exact Agree.refl _ _
    | exact bitsIn_rfl rfl
    | exact regIn_rfl rfl rfl
    | with_reducible refine sendLease_step ?_ ?_
    | with_reducible refine verifEnd_step ?_ ?_
    | with_reducible refine Agree.ite ?_ ?_
    | (with_reducible refine Agree.foldl ?_ ?_; intro _ _ _)
    | (with_reducible refine Agree.foldl2 ?_ ?_; intro _ _ _)
    | (with_reducible refine Agree.foldl3 ?_ ?_; intro _ _ _)
    | (with_reducible refine Agree.foldl4 ?_ ?_; intro _ _ _)
    | dsimp only
    | split
    | (with_reducible refine Agree.of_pair (by assumption) ?_)
    | (with_reducible refine Agree.of_pair2 (by assumption) ?_)
    | intro _
theorem wonLost_step {M s0} {s : State} {num chip : Nat} (hs : bitsIn 0x4040000000000000000000000000049000000000c010048000000000000 M = true) (hA : Agree M s0 s) : Agree M s0 (wonLost s num chip) :=
  hA.step hs (wonLost_frame s num chip)

theorem showVerifying_frame (s : State) (v : Verif) : Agree 0x410000000000000000000000000000 s (showVerifying s v) := by
  unfold showVerifying
  repeat' first
    | with_reducible assumption
    | with_reducible exact Agree.refl _ _
    | exact bitsIn_rfl rfl
    | exact regIn_rfl rfl rfl
    | with_reducible refine setF_step ?_ ?_ ?_
    | with_reducible refine setR_step ?_ ?_ ?_
    | with_reducible refine Agree.ite ?_ ?_
    | dsimp only
    | split
    | (with_reducible refine Agree.of_pair (by assumption) ?_)
    | (with_reducible refine Agree.of_pair2 (by assumption) ?_)
    | intro _
theorem showVerifying_step {M s0} {s : State} {v : Verif} (hs : bitsIn 0x410000000000000000000000000000 M = true) (hA : Agree M s0 s) : Agree M s0 (showVerifying s v) :=
  hA.step hs (showVerifying_frame s v)

theorem admitVerif_frame (s : State) (r : FwReq) (v : Verif) : Agree 0x4040000000000002000000000000049000000000c010048000000000000 s (admitVerif s r v) := by
  unfold admitVerif
  repeat' first
    | with_reducible assumption
    | with_reducible exact Agree.refl _ _
    | exact bitsIn_rfl rfl
    | exact regIn_rfl rfl rfl
    | with_reducible refine composeEnd_step ?_ ?_
    | with_reducible refine logBreach_step ?_ ?_
    | with_reducible refine sendLease_step ?_ ?_
    | with_reducible refine showVerifying_step ?_ ?_
    | with_reducible refine verifPassed_step ?_ ?_
    | ((conv => arg 3; arg 88; skip); with_reducible first | refine upd_verif ?_ ?_)
    | with_reducible refine Agree.ite ?_ ?_
    | (with_reducible refine Agree.foldl ?_ ?_; intro _ _ _)
    | (with_reducible refine Agree.foldl2 ?_ ?_; intro _ _ _)
    | (with_reducible refine Agree.foldl3 ?_ ?_; intro _ _ _)
    | (with_reducible refine Agree.foldl4 ?_ ?_; intro _ _ _)
    | dsimp only
    | split
    | (with_reducible refine Agree.of_pair (by assumption) ?_)
    | (with_reducible refine Agree.of_pair2 (by assumption) ?_)
    | intro _
theorem admitVerif_step {M s0} {s : State} {r : FwReq} {v : Verif} (hs : bitsIn 0x4040000000000002000000000000049000000000c010048000000000000 M = true) (hA : Agree M s0 s) : Agree M s0 (admitVerif s r v) :=
  hA.step hs (admitVerif_frame s r v)

theorem execCompose_frame (s : State) : AgreeO 0x4040000000000002000000000000049000000000c010048000000000000 s (execCompose s) := by
  unfold execCompose
  repeat' first
    | with_reducible assumption
    | with_reducible exact Agree.refl _ _
    | exact bitsIn_rfl rfl
    | exact regIn_rfl rfl rfl
    | with_reducible refine AgreeO.next ?_
    | with_reducible refine AgreeO.ite ?_ ?_
    | with_reducible exact AgreeO.refused
    | with_reducible exact AgreeO.fault
    | with_reducible refine admitVerif_step ?_ ?_
    | with_reducible refine composeEnd_step ?_ ?_
    | with_reducible refine Agree.ite ?_ ?_
    | dsimp only
    | split
    | (with_reducible refine Agree.of_pair (by assumption) ?_)
    | (with_reducible refine Agree.of_pair2 (by assumption) ?_)
    | intro _
theorem execCompose_step {M s0} {s : State} (hs : bitsIn 0x4040000000000002000000000000049000000000c010048000000000000 M = true) (hA : Agree M s0 s) : AgreeO M s0 (execCompose s) :=
  hA.stepO hs (execCompose_frame s)

theorem execLeaseHandshakeTimeout_frame (s : State) : AgreeO 0x4040000000000000000000000000049000000000c010048000000000000 s (execLeaseHandshakeTimeout s) := by
  unfold execLeaseHandshakeTimeout
  repeat' first
    | with_reducible assumption
    | with_reducible exact Agree.refl _ _
    | exact bitsIn_rfl rfl
    | exact regIn_rfl rfl rfl
    | with_reducible refine AgreeO.next ?_
    | with_reducible refine AgreeO.ite ?_ ?_
    | with_reducible exact AgreeO.refused
    | with_reducible exact AgreeO.fault
    | with_reducible refine sendLease_step ?_ ?_
    | with_reducible refine verifEnd_step ?_ ?_
    | with_reducible refine Agree.ite ?_ ?_
    | (with_reducible refine Agree.foldl ?_ ?_; intro _ _ _)
    | (with_reducible refine Agree.foldl2 ?_ ?_; intro _ _ _)
    | (with_reducible refine Agree.foldl3 ?_ ?_; intro _ _ _)
    | (with_reducible refine Agree.foldl4 ?_ ?_; intro _ _ _)
    | dsimp only
    | split
    | (with_reducible refine Agree.of_pair (by assumption) ?_)
    | (with_reducible refine Agree.of_pair2 (by assumption) ?_)
    | intro _
theorem execLeaseHandshakeTimeout_step {M s0} {s : State} (hs : bitsIn 0x4040000000000000000000000000049000000000c010048000000000000 M = true) (hA : Agree M s0 s) : AgreeO M s0 (execLeaseHandshakeTimeout s) :=
  hA.stepO hs (execLeaseHandshakeTimeout_frame s)

end Sys2Proof.Machine
end

