-- ==== Sys2Proof/Laws/FrameCommit.lean ====
section
/-!
SUPPORT. The frame of every function of Machine/Commit.lean that answers a state: the fields it can change, by mask.
-/

set_option linter.unusedTactic false
set_option linter.unreachableTactic false
set_option linter.unusedVariables false

namespace Sys2Proof.Machine

theorem setRateReg_step {M : Nat} {s0 : State} {s : State} {r : Reg} {k v : Nat} {atOnce : Bool} (hs : bitsIn 0x800000 M = true) (hr0 : RegIn M r) (hA : Agree M s0 s) : Agree M s0 (setRateReg s r k v atOnce) := by
  unfold setRateReg
  repeat' first
    | with_reducible assumption
    | fail
    | exact bitsIn_trans rfl hs
    | with_reducible refine setR_step ?_ ?_ ?_
    | ((conv => arg 3; arg 88; skip); with_reducible first | refine upd_qosOld ?_ ?_)
    | with_reducible refine Agree.ite ?_ ?_
    | dsimp only
    | split
    | (with_reducible refine Agree.of_pair (by assumption) ?_)
    | (with_reducible refine Agree.of_pair2 (by assumption) ?_)
    | intro _

theorem bindCore_frame (s : State) (i c : Nat) (awake : Bool) : Agree 0x10004000000000000000000700000000000 s (bindCore s i c awake) := by
  unfold bindCore
  repeat' first
    | with_reducible assumption
    | with_reducible exact Agree.refl _ _
    | exact bitsIn_rfl rfl
    | exact regIn_rfl rfl rfl
    | with_reducible refine advanceInstar_step ?_ ?_
    | with_reducible refine setF_step ?_ ?_ ?_
    | with_reducible refine Agree.ite ?_ ?_
    | dsimp only
    | split
    | (with_reducible refine Agree.of_pair (by assumption) ?_)
    | (with_reducible refine Agree.of_pair2 (by assumption) ?_)
    | intro _
theorem bindCore_step {M s0} {s : State} {i c : Nat} {awake : Bool} (hs : bitsIn 0x10004000000000000000000700000000000 M = true) (hA : Agree M s0 s) : Agree M s0 (bindCore s i c awake) :=
  hA.step hs (bindCore_frame s i c awake)

theorem leaveCore_frame (s : State) (c : Nat) : Agree 0x100000000000004000000000000000000000000800000 s (leaveCore s c) := by
  unfold leaveCore
  repeat' first
    | with_reducible assumption
    | with_reducible exact Agree.refl _ _
    | exact bitsIn_rfl rfl
    | exact regIn_rfl rfl rfl
    | with_reducible refine setF_step ?_ ?_ ?_
    | with_reducible refine setRateReg_step ?_ ?_ ?_
    | with_reducible refine Agree.ite ?_ ?_
    | dsimp only
    | split
    | (with_reducible refine Agree.of_pair (by assumption) ?_)
    | (with_reducible refine Agree.of_pair2 (by assumption) ?_)
    | intro _
theorem leaveCore_step {M s0} {s : State} {c : Nat} (hs : bitsIn 0x100000000000004000000000000000000000000800000 M = true) (hA : Agree M s0 s) : Agree M s0 (leaveCore s c) :=
  hA.step hs (leaveCore_frame s c)

theorem bindSlice_frame (s : State) (i k m : Nat) : Agree 0x200000000000000000000001000000000000000000000008000000000000000000000000000000 s (bindSlice s i k m) := by
  unfold bindSlice
  repeat' first
    | with_reducible assumption
    | with_reducible exact Agree.refl _ _
    | exact bitsIn_rfl rfl
    | exact regIn_rfl rfl rfl
    | with_reducible refine setF_step ?_ ?_ ?_
    | with_reducible refine setR_step ?_ ?_ ?_
    | with_reducible refine Agree.ite ?_ ?_
    | dsimp only
    | split
    | (with_reducible refine Agree.of_pair (by assumption) ?_)
    | (with_reducible refine Agree.of_pair2 (by assumption) ?_)
    | intro _
theorem bindSlice_step {M s0} {s : State} {i k m : Nat} (hs : bitsIn 0x200000000000000000000001000000000000000000000008000000000000000000000000000000 M = true) (hA : Agree M s0 s) : Agree M s0 (bindSlice s i k m) :=
  hA.step hs (bindSlice_frame s i k m)

theorem scrubSlice_frame (s : State) (m : Nat) : Agree 0x1000000000000000000000008000000000000000000000000020000 s (scrubSlice s m) := by
  unfold scrubSlice
  repeat' first
    | with_reducible assumption
    | with_reducible exact Agree.refl _ _
    | exact bitsIn_rfl rfl
    | exact regIn_rfl rfl rfl
    | with_reducible refine setF_step ?_ ?_ ?_
    | with_reducible refine setR_step ?_ ?_ ?_
    | ((conv => arg 3; arg 88; skip); with_reducible first | refine upd_bufs ?_ ?_)
    | with_reducible refine Agree.ite ?_ ?_
    | dsimp only
    | split
    | (with_reducible refine Agree.of_pair (by assumption) ?_)
    | (with_reducible refine Agree.of_pair2 (by assumption) ?_)
    | intro _
theorem scrubSlice_step {M s0} {s : State} {m : Nat} (hs : bitsIn 0x1000000000000000000000008000000000000000000000000020000 M = true) (hA : Agree M s0 s) : Agree M s0 (scrubSlice s m) :=
  hA.step hs (scrubSlice_frame s m)

theorem freeLink_frame (s : State) (p : Nat) : Agree 0x10000000000000008000000000000000 s (freeLink s p) := by
  unfold freeLink
  repeat' first
    | with_reducible assumption
    | with_reducible exact Agree.refl _ _
    | exact bitsIn_rfl rfl
    | exact regIn_rfl rfl rfl
    | with_reducible refine modImago_step ?_ ?_
    | with_reducible refine setR_step ?_ ?_ ?_
    | with_reducible refine Agree.ite ?_ ?_
    | dsimp only
    | split
    | (with_reducible refine Agree.of_pair (by assumption) ?_)
    | (with_reducible refine Agree.of_pair2 (by assumption) ?_)
    | intro _
theorem freeLink_step {M s0} {s : State} {p : Nat} (hs : bitsIn 0x10000000000000008000000000000000 M = true) (hA : Agree M s0 s) : Agree M s0 (freeLink s p) :=
  hA.step hs (freeLink_frame s p)

theorem addLease_frame (s : State) (l : Lease) (dir taken : Bool) (t : LeaseTerms) : Agree 0x20000000000000020000000000000000 s (addLease s l dir taken t) := by
  unfold addLease
  repeat' first
    | with_reducible assumption
    | with_reducible exact Agree.refl _ _
    | exact bitsIn_rfl rfl
    | exact regIn_rfl rfl rfl
    | with_reducible refine setR_step ?_ ?_ ?_
    | ((conv => arg 3; arg 88; skip); with_reducible first | refine upd_leaseTerms ?_ ?_)
    | with_reducible refine Agree.ite ?_ ?_
    | dsimp only
    | split
    | (with_reducible refine Agree.of_pair (by assumption) ?_)
    | (with_reducible refine Agree.of_pair2 (by assumption) ?_)
    | intro _
theorem addLease_step {M s0} {s : State} {l : Lease} {dir taken : Bool} {t : LeaseTerms} (hs : bitsIn 0x20000000000000020000000000000000 M = true) (hA : Agree M s0 s) : Agree M s0 (addLease s l dir taken t) :=
  hA.step hs (addLease_frame s l dir taken t)

theorem dropLease_frame (s : State) (k : Nat) : Agree 0x20000000000000020000000000000000 s (dropLease s k) := by
  unfold dropLease
  repeat' first
    | with_reducible assumption
    | with_reducible exact Agree.refl _ _
    | exact bitsIn_rfl rfl
    | exact regIn_rfl rfl rfl
    | with_reducible refine setR_step ?_ ?_ ?_
    | ((conv => arg 3; arg 88; skip); with_reducible first | refine upd_leaseTerms ?_ ?_)
    | with_reducible refine Agree.ite ?_ ?_
    | dsimp only
    | split
    | (with_reducible refine Agree.of_pair (by assumption) ?_)
    | (with_reducible refine Agree.of_pair2 (by assumption) ?_)
    | intro _
theorem dropLease_step {M s0} {s : State} {k : Nat} (hs : bitsIn 0x20000000000000020000000000000000 M = true) (hA : Agree M s0 s) : Agree M s0 (dropLease s k) :=
  hA.step hs (dropLease_frame s k)

theorem writeMaps_frame (s : State) (i : Nat) (old new : Comp) (es : List EvacEntry) : Agree 0x1c0800000000000000000000000000000 s (writeMaps s i old new es) := by
  unfold writeMaps
  repeat' first
    | with_reducible assumption
    | with_reducible exact Agree.refl _ _
    | exact bitsIn_rfl rfl
    | exact regIn_rfl rfl rfl
    | with_reducible refine putR_step ?_ ?_ ?_
    | with_reducible refine setF_step ?_ ?_ ?_
    | with_reducible refine Agree.ite ?_ ?_
    | (with_reducible refine Agree.foldl ?_ ?_; intro _ _ _)
    | (with_reducible refine Agree.foldl2 ?_ ?_; intro _ _ _)
    | (with_reducible refine Agree.foldl3 ?_ ?_; intro _ _ _)
    | (with_reducible refine Agree.foldl4 ?_ ?_; intro _ _ _)
    | dsimp only
    | split
    | (with_reducible refine Agree.of_pair (by assumption) ?_)
    | (with_reducible refine Agree.of_pair2 (by assumption) ?_)
    | intro _
theorem writeMaps_step {M s0} {s : State} {i : Nat} {old new : Comp} {es : List EvacEntry} (hs : bitsIn 0x1c0800000000000000000000000000000 M = true) (hA : Agree M s0 s) : Agree M s0 (writeMaps s i old new es) :=
  hA.step hs (writeMaps_frame s i old new es)

theorem writeRates_frame (s : State) (i : Nat) (old new : Comp) : Agree 0xf00000000000004000000000000000000000000800000 s (writeRates s i old new) := by
  unfold writeRates
  repeat' first
    | with_reducible assumption
    | with_reducible exact Agree.refl _ _
    | exact bitsIn_rfl rfl
    | exact regIn_rfl rfl rfl
    | with_reducible refine leaveCore_step ?_ ?_
    | with_reducible refine setRateReg_step ?_ ?_ ?_
    | with_reducible refine Agree.ite ?_ ?_
    | (with_reducible refine Agree.foldl ?_ ?_; intro _ _ _)
    | (with_reducible refine Agree.foldl2 ?_ ?_; intro _ _ _)
    | (with_reducible refine Agree.foldl3 ?_ ?_; intro _ _ _)
    | (with_reducible refine Agree.foldl4 ?_ ?_; intro _ _ _)
    | dsimp only
    | split
    | (with_reducible refine Agree.of_pair (by assumption) ?_)
    | (with_reducible refine Agree.of_pair2 (by assumption) ?_)
    | intro _
theorem writeRates_step {M s0} {s : State} {i : Nat} {old new : Comp} (hs : bitsIn 0xf00000000000004000000000000000000000000800000 M = true) (hA : Agree M s0 s) : Agree M s0 (writeRates s i old new) :=
  hA.step hs (writeRates_frame s i old new)

theorem takeMemKey_frame (s : State) (i : Nat) (new : Comp) (fresh' : Bool) (epoch : Nat) (badKeys : List Nat) : Agree 0xc20000000000000000000000000000000000000000000000000000000048008000000000000000 s (takeMemKey s i new fresh' epoch badKeys) := by
  unfold takeMemKey
  repeat' first
    | with_reducible assumption
    | with_reducible exact Agree.refl _ _
    | exact bitsIn_rfl rfl
    | exact regIn_rfl rfl rfl
    | with_reducible refine failKey_step ?_ ?_
    | with_reducible refine modImago_step ?_ ?_
    | with_reducible refine setF_step ?_ ?_ ?_
    | with_reducible refine Agree.ite ?_ ?_
    | dsimp only
    | split
    | (with_reducible refine Agree.of_pair (by assumption) ?_)
    | (with_reducible refine Agree.of_pair2 (by assumption) ?_)
    | intro _
theorem takeMemKey_step {M s0} {s : State} {i : Nat} {new : Comp} {fresh' : Bool} {epoch : Nat} {badKeys : List Nat} (hs : bitsIn 0xc20000000000000000000000000000000000000000000000000000000048008000000000000000 M = true) (hA : Agree M s0 s) : Agree M s0 (takeMemKey s i new fresh' epoch badKeys) :=
  hA.step hs (takeMemKey_frame s i new fresh' epoch badKeys)

theorem changeWings_frame (s : State) (old new : Comp) : Agree 0x400000000000000000000000000000000000000002000000000 s (changeWings s old new) := by
  unfold changeWings
  repeat' first
    | with_reducible assumption
    | with_reducible exact Agree.refl _ _
    | exact bitsIn_rfl rfl
    | exact regIn_rfl rfl rfl
    | with_reducible refine squashWing_step ?_ ?_
    | with_reducible refine stepWgen_step ?_ ?_
    | with_reducible refine Agree.ite ?_ ?_
    | (with_reducible refine Agree.foldl ?_ ?_; intro _ _ _)
    | (with_reducible refine Agree.foldl2 ?_ ?_; intro _ _ _)
    | (with_reducible refine Agree.foldl3 ?_ ?_; intro _ _ _)
    | (with_reducible refine Agree.foldl4 ?_ ?_; intro _ _ _)
    | dsimp only
    | split
    | (with_reducible refine Agree.of_pair (by assumption) ?_)
    | (with_reducible refine Agree.of_pair2 (by assumption) ?_)
    | intro _
theorem changeWings_step {M s0} {s : State} {old new : Comp} (hs : bitsIn 0x400000000000000000000000000000000000000002000000000 M = true) (hA : Agree M s0 s) : Agree M s0 (changeWings s old new) :=
  hA.step hs (changeWings_frame s old new)

theorem commitImago_frame (s : State) (i : Nat) (v : Verif) (badKeys : List Nat) : Agree 0xe20000000000000000000001000400078f002000000101fdc00000000048028000702000800000 s (commitImago s i v badKeys) := by
  unfold commitImago
  repeat' first
    | with_reducible assumption
    | with_reducible exact Agree.refl _ _
    | exact bitsIn_rfl rfl
    | exact regIn_rfl rfl rfl
    | with_reducible refine addLease_step ?_ ?_
    | with_reducible refine bindCore_step ?_ ?_
    | with_reducible refine bindSlice_step ?_ ?_
    | with_reducible refine changeWings_step ?_ ?_
    | with_reducible refine modImago_step ?_ ?_
    | with_reducible refine refreshLoads_step ?_ ?_
    | with_reducible refine setF_step ?_ ?_ ?_
    | with_reducible refine setR_step ?_ ?_ ?_
    | with_reducible refine takeMemKey_step ?_ ?_
    | with_reducible refine writeMaps_step ?_ ?_
    | with_reducible refine writeRates_step ?_ ?_
    | with_reducible refine Agree.ite ?_ ?_
    | (with_reducible refine Agree.foldl ?_ ?_; intro _ _ _)
    | (with_reducible refine Agree.foldl2 ?_ ?_; intro _ _ _)
    | (with_reducible refine Agree.foldl3 ?_ ?_; intro _ _ _)
    | (with_reducible refine Agree.foldl4 ?_ ?_; intro _ _ _)
    | dsimp only
    | split
    | (with_reducible refine Agree.of_pair (by assumption) ?_)
    | (with_reducible refine Agree.of_pair2 (by assumption) ?_)
    | intro _
theorem commitImago_step {M s0} {s : State} {i : Nat} {v : Verif} {badKeys : List Nat} (hs : bitsIn 0xe20000000000000000000001000400078f002000000101fdc00000000048028000702000800000 M = true) (hA : Agree M s0 s) : Agree M s0 (commitImago s i v badKeys) :=
  hA.step hs (commitImago_frame s i v badKeys)

theorem endLent_frame (s : State) (k : Nat) : Agree 0x1000000000000000000000038000000000000028000000000020000 s (endLent s k) := by
  unfold endLent
  repeat' first
    | with_reducible assumption
    | with_reducible exact Agree.refl _ _
    | exact bitsIn_rfl rfl
    | exact regIn_rfl rfl rfl
    | with_reducible refine dropLease_step ?_ ?_
    | with_reducible refine freeLink_step ?_ ?_
    | with_reducible refine scrubSlice_step ?_ ?_
    | with_reducible refine Agree.ite ?_ ?_
    | dsimp only
    | split
    | (with_reducible refine Agree.of_pair (by assumption) ?_)
    | (with_reducible refine Agree.of_pair2 (by assumption) ?_)
    | intro _
theorem endLent_step {M s0} {s : State} {k : Nat} (hs : bitsIn 0x1000000000000000000000038000000000000028000000000020000 M = true) (hA : Agree M s0 s) : Agree M s0 (endLent s k) :=
  hA.step hs (endLent_frame s k)

theorem commitPool_frame (s : State) (v : Verif) : Agree 0x40401000000079000200000000038040000000000068048000000820000 s (commitPool s v) := by
  unfold commitPool
  repeat' first
    | with_reducible assumption
    | with_reducible exact Agree.refl _ _
    | exact bitsIn_rfl rfl
    | exact regIn_rfl rfl rfl
    | with_reducible refine addLease_step ?_ ?_
    | with_reducible refine endLent_step ?_ ?_
    | with_reducible refine refreshLoads_step ?_ ?_
    | with_reducible refine sendLease_step ?_ ?_
    | with_reducible refine setF_step ?_ ?_ ?_
    | with_reducible refine setR_step ?_ ?_ ?_
    | with_reducible refine setRateReg_step ?_ ?_ ?_
    | ((conv => arg 3; arg 88; skip); with_reducible first | refine upd_poolFreed ?_ ?_)
    | with_reducible refine Agree.ite ?_ ?_
    | (with_reducible refine Agree.foldl ?_ ?_; intro _ _ _)
    | (with_reducible refine Agree.foldl2 ?_ ?_; intro _ _ _)
    | (with_reducible refine Agree.foldl3 ?_ ?_; intro _ _ _)
    | (with_reducible refine Agree.foldl4 ?_ ?_; intro _ _ _)
    | dsimp only
    | split
    | (with_reducible refine Agree.of_pair (by assumption) ?_)
    | (with_reducible refine Agree.of_pair2 (by assumption) ?_)
    | intro _
theorem commitPool_step {M s0} {s : State} {v : Verif} (hs : bitsIn 0x40401000000079000200000000038040000000000068048000000820000 M = true) (hA : Agree M s0 s) : Agree M s0 (commitPool s v) :=
  hA.step hs (commitPool_frame s v)

theorem execCommitTick_frame (badKeys : List Nat) (s : State) : AgreeO 0xe20000000000000000040401000400079f002000000101fdcd000000004c078048702000820000 s (execCommitTick badKeys s) := by
  unfold execCommitTick
  repeat' first
    | with_reducible assumption
    | with_reducible exact Agree.refl _ _
    | exact bitsIn_rfl rfl
    | exact regIn_rfl rfl rfl
    | with_reducible refine AgreeO.next ?_
    | with_reducible refine AgreeO.ite ?_ ?_
    | with_reducible exact AgreeO.refused
    | with_reducible exact AgreeO.fault
    | with_reducible refine commitImago_step ?_ ?_
    | with_reducible refine commitPool_step ?_ ?_
    | with_reducible refine composeEnd_step ?_ ?_
    | with_reducible refine Agree.ite ?_ ?_
    | dsimp only
    | split
    | (with_reducible refine Agree.of_pair (by assumption) ?_)
    | (with_reducible refine Agree.of_pair2 (by assumption) ?_)
    | intro _
theorem execCommitTick_step {M s0} {badKeys : List Nat} {s : State} (hs : bitsIn 0xe20000000000000000040401000400079f002000000101fdcd000000004c078048702000820000 M = true) (hA : Agree M s0 s) : AgreeO M s0 (execCommitTick badKeys s) :=
  hA.stepO hs (execCommitTick_frame badKeys s)

theorem execCoreLeft_frame (c : Nat) (s : State) : AgreeO 0x10004000000000000008000700000000000 s (execCoreLeft c s) := by
  unfold execCoreLeft
  repeat' first
    | with_reducible assumption
    | with_reducible exact Agree.refl _ _
    | exact bitsIn_rfl rfl
    | exact regIn_rfl rfl rfl
    | with_reducible refine AgreeO.next ?_
    | with_reducible refine AgreeO.ite ?_ ?_
    | with_reducible exact AgreeO.refused
    | with_reducible exact AgreeO.fault
    | with_reducible refine advanceInstar_step ?_ ?_
    | with_reducible refine modImago_step ?_ ?_
    | with_reducible refine setF_step ?_ ?_ ?_
    | with_reducible refine Agree.ite ?_ ?_
    | dsimp only
    | split
    | (with_reducible refine Agree.of_pair (by assumption) ?_)
    | (with_reducible refine Agree.of_pair2 (by assumption) ?_)
    | intro _
theorem execCoreLeft_step {M s0} {c : Nat} {s : State} (hs : bitsIn 0x10004000000000000008000700000000000 M = true) (hA : Agree M s0 s) : AgreeO M s0 (execCoreLeft c s) :=
  hA.stepO hs (execCoreLeft_frame c s)

theorem execLinkSliceLeft_frame (p : Nat) (s : State) : AgreeO 0x10000000000000008000000000000000 s (execLinkSliceLeft p s) := by
  unfold execLinkSliceLeft
  repeat' first
    | with_reducible assumption
    | with_reducible exact Agree.refl _ _
    | exact bitsIn_rfl rfl
    | exact regIn_rfl rfl rfl
    | with_reducible refine AgreeO.next ?_
    | with_reducible refine AgreeO.ite ?_ ?_
    | with_reducible exact AgreeO.refused
    | with_reducible exact AgreeO.fault
    | with_reducible refine freeLink_step ?_ ?_
    | with_reducible refine Agree.ite ?_ ?_
    | dsimp only
    | split
    | (with_reducible refine Agree.of_pair (by assumption) ?_)
    | (with_reducible refine Agree.of_pair2 (by assumption) ?_)
    | intro _
theorem execLinkSliceLeft_step {M s0} {p : Nat} {s : State} (hs : bitsIn 0x10000000000000008000000000000000 M = true) (hA : Agree M s0 s) : AgreeO M s0 (execLinkSliceLeft p s) :=
  hA.stepO hs (execLinkSliceLeft_frame p s)

theorem execScrubComplete_frame (m : Nat) (s : State) : AgreeO 0x200000000000000000000000000000000000000000000008000000000000000000000000018000 s (execScrubComplete m s) := by
  unfold execScrubComplete
  repeat' first
    | with_reducible assumption
    | with_reducible exact Agree.refl _ _
    | exact bitsIn_rfl rfl
    | exact regIn_rfl rfl rfl
    | with_reducible refine AgreeO.next ?_
    | with_reducible refine AgreeO.ite ?_ ?_
    | with_reducible exact AgreeO.refused
    | with_reducible exact AgreeO.fault
    | ((with_reducible refine MemOf.intro ?_); first | exact fun _ w => ⟨canonical_filter _ w.1, w.2⟩ | exact fun _ w => ⟨rfl, w.2⟩)
    | with_reducible refine setR_step ?_ ?_ ?_
    | ((conv => arg 3; arg 88; skip); with_reducible first | refine upd_hbm_hbmPoison ?_ ?_ ?_)
    | with_reducible refine Agree.ite ?_ ?_
    | dsimp only
    | split
    | (with_reducible refine Agree.of_pair (by assumption) ?_)
    | (with_reducible refine Agree.of_pair2 (by assumption) ?_)
    | intro _
theorem execScrubComplete_step {M s0} {m : Nat} {s : State} (hs : bitsIn 0x200000000000000000000000000000000000000000000008000000000000000000000000018000 M = true) (hA : Agree M s0 s) : AgreeO M s0 (execScrubComplete m s) :=
  hA.stepO hs (execScrubComplete_frame m s)

theorem moveLine_frame (s : State) (a b : Nat) (errs : List SectorErr) : Agree 0xc040000000000000000000000000000000000000000000000038000 s (moveLine s a b errs) := by
  unfold moveLine
  repeat' first
    | with_reducible assumption
    | with_reducible exact Agree.refl _ _
    | exact bitsIn_rfl rfl
    | exact regIn_rfl rfl rfl
    | with_reducible refine allocate_step ?_ ?_
    | with_reducible refine bufWrite_step ?_ ?_
    | with_reducible refine hbmFind_step ?_ ?_
    | with_reducible refine sramFind_step ?_ ?_
    | ((conv => arg 3; arg 88; skip); with_reducible first | refine upd_bufs ?_ ?_)
    | with_reducible refine Agree.ite ?_ ?_
    | dsimp only
    | split
    | (with_reducible refine Agree.of_pair (by assumption) ?_)
    | (with_reducible refine Agree.of_pair2 (by assumption) ?_)
    | intro _
theorem moveLine_step {M s0} {s : State} {a b : Nat} {errs : List SectorErr} (hs : bitsIn 0xc040000000000000000000000000000000000000000000000038000 M = true) (hA : Agree M s0 s) : Agree M s0 (moveLine s a b errs) :=
  hA.step hs (moveLine_frame s a b errs)

theorem leaveEvac_frame (s : State) (c : Option Nat) : Agree 0x8000000000000000000000000000000000000000000002000 s (leaveEvac s c) := by
  unfold leaveEvac
  repeat' first
    | with_reducible assumption
    | with_reducible exact Agree.refl _ _
    | exact bitsIn_rfl rfl
    | exact regIn_rfl rfl rfl
    | with_reducible refine leaveChan_step ?_ ?_
    | with_reducible refine Agree.ite ?_ ?_
    | dsimp only
    | split
    | (with_reducible refine Agree.of_pair (by assumption) ?_)
    | (with_reducible refine Agree.of_pair2 (by assumption) ?_)
    | intro _
theorem leaveEvac_step {M s0} {s : State} {c : Option Nat} (hs : bitsIn 0x8000000000000000000000000000000000000000000002000 M = true) (hA : Agree M s0 s) : Agree M s0 (leaveEvac s c) :=
  hA.step hs (leaveEvac_frame s c)

theorem flipEntry_frame (s : State) (i : Nat) (e : EvacEntry) : Agree 0x28000000000000000049400000000000008000000000002000 s (flipEntry s i e) := by
  unfold flipEntry
  repeat' first
    | with_reducible assumption
    | with_reducible exact Agree.refl _ _
    | exact bitsIn_rfl rfl
    | exact regIn_rfl rfl rfl
    | with_reducible refine countR_step ?_ ?_ ?_
    | with_reducible refine leaveEvac_step ?_ ?_
    | with_reducible refine modImago_step ?_ ?_
    | with_reducible refine setF_step ?_ ?_ ?_
    | with_reducible refine setR_step ?_ ?_ ?_
    | with_reducible refine Agree.ite ?_ ?_
    | dsimp only
    | split
    | (with_reducible refine Agree.of_pair (by assumption) ?_)
    | (with_reducible refine Agree.of_pair2 (by assumption) ?_)
    | intro _
theorem flipEntry_step {M s0} {s : State} {i : Nat} {e : EvacEntry} (hs : bitsIn 0x28000000000000000049400000000000008000000000002000 M = true) (hA : Agree M s0 s) : Agree M s0 (flipEntry s i e) :=
  hA.step hs (flipEntry_frame s i e)

theorem execEvacuateLine_frame (i src : Nat) (errs : List SectorErr) (s : State) : AgreeO 0xc0400e800000000000000004940000000000000800000000003a000 s (execEvacuateLine i src errs s) := by
  unfold execEvacuateLine
  repeat' first
    | with_reducible assumption
    | with_reducible exact Agree.refl _ _
    | exact bitsIn_rfl rfl
    | exact regIn_rfl rfl rfl
    | with_reducible refine AgreeO.next ?_
    | with_reducible refine AgreeO.ite ?_ ?_
    | with_reducible exact AgreeO.refused
    | with_reducible exact AgreeO.fault
    | with_reducible refine countR_step ?_ ?_ ?_
    | with_reducible refine flipEntry_step ?_ ?_
    | with_reducible refine modImago_step ?_ ?_
    | with_reducible refine moveLine_step ?_ ?_
    | with_reducible refine satF_step ?_ ?_ ?_
    | with_reducible refine Agree.ite ?_ ?_
    | dsimp only
    | split
    | (with_reducible refine Agree.of_pair (by assumption) ?_)
    | (with_reducible refine Agree.of_pair2 (by assumption) ?_)
    | intro _
theorem execEvacuateLine_step {M s0} {i src : Nat} {errs : List SectorErr} {s : State} (hs : bitsIn 0xc0400e800000000000000004940000000000000800000000003a000 M = true) (hA : Agree M s0 s) : AgreeO M s0 (execEvacuateLine i src errs s) :=
  hA.stepO hs (execEvacuateLine_frame i src errs s)

theorem giveBack_frame (s : State) (l : Lease) (epoch : Nat) : Agree 0x40400000000000000000000000020000000000000020048000000000000 s (giveBack s l epoch) := by
  unfold giveBack
  repeat' first
    | with_reducible assumption
    | with_reducible exact Agree.refl _ _
    | exact bitsIn_rfl rfl
    | exact regIn_rfl rfl rfl
    | with_reducible refine dropLease_step ?_ ?_
    | with_reducible refine sendLease_step ?_ ?_
    | with_reducible refine Agree.ite ?_ ?_
    | dsimp only
    | split
    | (with_reducible refine Agree.of_pair (by assumption) ?_)
    | (with_reducible refine Agree.of_pair2 (by assumption) ?_)
    | intro _
theorem giveBack_step {M s0} {s : State} {l : Lease} {epoch : Nat} (hs : bitsIn 0x40400000000000000000000000020000000000000020048000000000000 M = true) (hA : Agree M s0 s) : Agree M s0 (giveBack s l epoch) :=
  hA.step hs (giveBack_frame s l epoch)

theorem endChrysalis_frame (s : State) (i : Nat) : Agree 0x10000000000000000000000040401000000078000200000000028400000000000028048004000020000 s (endChrysalis s i) := by
  unfold endChrysalis
  repeat' first
    | with_reducible assumption
    | with_reducible exact Agree.refl _ _
    | exact bitsIn_rfl rfl
    | exact regIn_rfl rfl rfl
    | with_reducible refine giveBack_step ?_ ?_
    | with_reducible refine modImago_step ?_ ?_
    | with_reducible refine postEvent_step ?_ ?_
    | with_reducible refine refreshLoads_step ?_ ?_
    | with_reducible refine scrubSlice_step ?_ ?_
    | with_reducible refine setR_step ?_ ?_ ?_
    | with_reducible refine Agree.ite ?_ ?_
    | (with_reducible refine Agree.foldl ?_ ?_; intro _ _ _)
    | (with_reducible refine Agree.foldl2 ?_ ?_; intro _ _ _)
    | (with_reducible refine Agree.foldl3 ?_ ?_; intro _ _ _)
    | (with_reducible refine Agree.foldl4 ?_ ?_; intro _ _ _)
    | dsimp only
    | split
    | (with_reducible refine Agree.of_pair (by assumption) ?_)
    | (with_reducible refine Agree.of_pair2 (by assumption) ?_)
    | intro _
theorem endChrysalis_step {M s0} {s : State} {i : Nat} (hs : bitsIn 0x10000000000000000000000040401000000078000200000000028400000000000028048004000020000 M = true) (hA : Agree M s0 s) : Agree M s0 (endChrysalis s i) :=
  hA.step hs (endChrysalis_frame s i)

theorem execChrysalisEnd_frame (i : Nat) (s : State) : AgreeO 0x10000000000000000000000040401000000078000200000000028440000000000068048004000020000 s (execChrysalisEnd i s) := by
  unfold execChrysalisEnd
  repeat' first
    | with_reducible assumption
    | with_reducible exact Agree.refl _ _
    | exact bitsIn_rfl rfl
    | exact regIn_rfl rfl rfl
    | with_reducible refine AgreeO.next ?_
    | with_reducible refine AgreeO.ite ?_ ?_
    | with_reducible exact AgreeO.refused
    | with_reducible exact AgreeO.fault
    | with_reducible refine endChrysalis_step ?_ ?_
    | with_reducible refine setF_step ?_ ?_ ?_
    | ((conv => arg 3; arg 88; skip); with_reducible first | refine upd_poolFreed ?_ ?_)
    | with_reducible refine Agree.ite ?_ ?_
    | dsimp only
    | split
    | (with_reducible refine Agree.of_pair (by assumption) ?_)
    | (with_reducible refine Agree.of_pair2 (by assumption) ?_)
    | intro _
theorem execChrysalisEnd_step {M s0} {i : Nat} {s : State} (hs : bitsIn 0x10000000000000000000000040401000000078000200000000028440000000000068048004000020000 M = true) (hA : Agree M s0 s) : AgreeO M s0 (execChrysalisEnd i s) :=
  hA.stepO hs (execChrysalisEnd_frame i s)

theorem execChrysalisSlow_frame (i : Nat) (s : State) : AgreeO 0x10000000000000000000000000000000000000000000000000000400000000000000000004000000000 s (execChrysalisSlow i s) := by
  unfold execChrysalisSlow
  repeat' first
    | with_reducible assumption
    | with_reducible exact Agree.refl _ _
    | exact bitsIn_rfl rfl
    | exact regIn_rfl rfl rfl
    | with_reducible refine AgreeO.next ?_
    | with_reducible refine AgreeO.ite ?_ ?_
    | with_reducible exact AgreeO.refused
    | with_reducible exact AgreeO.fault
    | with_reducible refine postEvent_step ?_ ?_
    | with_reducible refine setF_step ?_ ?_ ?_
    | with_reducible refine Agree.ite ?_ ?_
    | dsimp only
    | split
    | (with_reducible refine Agree.of_pair (by assumption) ?_)
    | (with_reducible refine Agree.of_pair2 (by assumption) ?_)
    | intro _
theorem execChrysalisSlow_step {M s0} {i : Nat} {s : State} (hs : bitsIn 0x10000000000000000000000000000000000000000000000000000400000000000000000004000000000 M = true) (hA : Agree M s0 s) : AgreeO M s0 (execChrysalisSlow i s) :=
  hA.stepO hs (execChrysalisSlow_frame i s)

theorem removeImago_frame (s : State) (i : Nat) : Agree 0x400000000000000000040401000408078f002000000001fdc00000000000028048002000822000 s (removeImago s i) := by
  unfold removeImago
  repeat' first
    | with_reducible assumption
    | with_reducible exact Agree.refl _ _
    | exact bitsIn_rfl rfl
    | exact regIn_rfl rfl rfl
    | with_reducible refine changeWings_step ?_ ?_
    | with_reducible refine giveBack_step ?_ ?_
    | with_reducible refine leaveChan_step ?_ ?_
    | with_reducible refine leaveCore_step ?_ ?_
    | with_reducible refine refreshLoads_step ?_ ?_
    | with_reducible refine scrubSlice_step ?_ ?_
    | with_reducible refine setF_step ?_ ?_ ?_
    | with_reducible refine setR_step ?_ ?_ ?_
    | with_reducible refine setRateReg_step ?_ ?_ ?_
    | with_reducible refine writeMaps_step ?_ ?_
    | ((conv => arg 3; arg 88; skip); with_reducible first | refine upd_imagos ?_ ?_)
    | with_reducible refine Agree.ite ?_ ?_
    | (with_reducible refine Agree.foldl ?_ ?_; intro _ _ _)
    | (with_reducible refine Agree.foldl2 ?_ ?_; intro _ _ _)
    | (with_reducible refine Agree.foldl3 ?_ ?_; intro _ _ _)
    | (with_reducible refine Agree.foldl4 ?_ ?_; intro _ _ _)
    | dsimp only
    | split
    | (with_reducible refine Agree.of_pair (by assumption) ?_)
    | (with_reducible refine Agree.of_pair2 (by assumption) ?_)
    | intro _
theorem removeImago_step {M s0} {s : State} {i : Nat} (hs : bitsIn 0x400000000000000000040401000408078f002000000001fdc00000000000028048002000822000 M = true) (hA : Agree M s0 s) : Agree M s0 (removeImago s i) :=
  hA.step hs (removeImago_frame s i)

end Sys2Proof.Machine
end

