-- ==== Sys2Proof/Laws/FrameLinkPorts.lean ====
section
/-!
SUPPORT. The frame of every function of Machine/LinkPorts.lean that answers a state: the fields it can change, by mask.
-/

set_option linter.unusedTactic false
set_option linter.unreachableTactic false
set_option linter.unusedVariables false

namespace Sys2Proof.Machine

theorem tryTrain_frame (s : State) (p : Nat) : Agree 0x1000000000000000000000000000000000000000000008000000000000 s (tryTrain s p) := by
  unfold tryTrain
  repeat' first
    | with_reducible assumption
    | with_reducible exact Agree.refl _ _
    | exact bitsIn_rfl rfl
    | exact regIn_rfl rfl rfl
    | with_reducible refine modPort_step ?_ ?_
    | with_reducible refine setF_step ?_ ?_ ?_
    | with_reducible refine Agree.ite ?_ ?_
    | dsimp only
    | split
    | (with_reducible refine Agree.of_pair (by assumption) ?_)
    | (with_reducible refine Agree.of_pair2 (by assumption) ?_)
    | intro _
theorem tryTrain_step {M s0} {s : State} {p : Nat} (hs : bitsIn 0x1000000000000000000000000000000000000000000008000000000000 M = true) (hA : Agree M s0 s) : Agree M s0 (tryTrain s p) :=
  hA.step hs (tryTrain_frame s p)

theorem updateTime_frame (s : State) : Agree 0x100000000000000000000000000000000000000000000000000000040 s (updateTime s) := by
  unfold updateTime
  repeat' first
    | with_reducible assumption
    | with_reducible exact Agree.refl _ _
    | exact bitsIn_rfl rfl
    | exact regIn_rfl rfl rfl
    | with_reducible refine setF_step ?_ ?_ ?_
    | ((conv => arg 3; arg 88; skip); with_reducible first | refine upd_synced ?_ ?_)
    | with_reducible refine Agree.ite ?_ ?_
    | dsimp only
    | split
    | (with_reducible refine Agree.of_pair (by assumption) ?_)
    | (with_reducible refine Agree.of_pair2 (by assumption) ?_)
    | intro _
theorem updateTime_step {M s0} {s : State} (hs : bitsIn 0x100000000000000000000000000000000000000000000000000000040 M = true) (hA : Agree M s0 s) : Agree M s0 (updateTime s) :=
  hA.step hs (updateTime_frame s)

theorem refuseMsg_frame (s : State) (m : LinkMsg) (code : Nat) : Agree 0x40400000000000000000000000000000000000000000058000000000000 s (refuseMsg s m code) := by
  unfold refuseMsg
  repeat' first
    | with_reducible assumption
    | with_reducible exact Agree.refl _ _
    | exact bitsIn_rfl rfl
    | exact regIn_rfl rfl rfl
    | with_reducible refine selfErr_step ?_ ?_
    | with_reducible refine sendOrDrop_step ?_ ?_
    | with_reducible refine Agree.ite ?_ ?_
    | dsimp only
    | split
    | (with_reducible refine Agree.of_pair (by assumption) ?_)
    | (with_reducible refine Agree.of_pair2 (by assumption) ?_)
    | intro _
theorem refuseMsg_step {M s0} {s : State} {m : LinkMsg} {code : Nat} (hs : bitsIn 0x40400000000000000000000000000000000000000000058000000000000 M = true) (hA : Agree M s0 s) : Agree M s0 (refuseMsg s m code) :=
  hA.step hs (refuseMsg_frame s m code)

theorem portExit_frame (s : State) (p st : Nat) (cause : Option Nat) : Agree 0x47500000000000000000000000000000000000000000058000000000040 s (portExit s p st cause) := by
  unfold portExit
  repeat' first
    | with_reducible assumption
    | with_reducible exact Agree.refl _ _
    | exact bitsIn_rfl rfl
    | exact regIn_rfl rfl rfl
    | with_reducible refine refuseMsg_step ?_ ?_
    | with_reducible refine satF_step ?_ ?_ ?_
    | with_reducible refine setF_step ?_ ?_ ?_
    | with_reducible refine tryTrain_step ?_ ?_
    | with_reducible refine updateTime_step ?_ ?_
    | ((conv => arg 3; arg 88; skip); with_reducible first | refine upd_ports ?_ ?_)
    | with_reducible refine Agree.ite ?_ ?_
    | (with_reducible refine Agree.foldl ?_ ?_; intro _ _ _)
    | (with_reducible refine Agree.foldl2 ?_ ?_; intro _ _ _)
    | (with_reducible refine Agree.foldl3 ?_ ?_; intro _ _ _)
    | (with_reducible refine Agree.foldl4 ?_ ?_; intro _ _ _)
    | dsimp only
    | split
    | (with_reducible refine Agree.of_pair (by assumption) ?_)
    | (with_reducible refine Agree.of_pair2 (by assumption) ?_)
    | intro _
theorem portExit_step {M s0} {s : State} {p st : Nat} {cause : Option Nat} (hs : bitsIn 0x47500000000000000000000000000000000000000000058000000000040 M = true) (hA : Agree M s0 s) : Agree M s0 (portExit s p st cause) :=
  hA.step hs (portExit_frame s p st cause)

theorem leaveUp_frame (s : State) (p st : Nat) (cause : Option Nat) : Agree 0x47500000000000000000000000000000000000000000058000000000040 s (leaveUp s p st cause) := by
  unfold leaveUp
  repeat' first
    | with_reducible assumption
    | with_reducible exact Agree.refl _ _
    | exact bitsIn_rfl rfl
    | exact regIn_rfl rfl rfl
    | with_reducible refine portExit_step ?_ ?_
    | with_reducible refine Agree.ite ?_ ?_
    | dsimp only
    | split
    | (with_reducible refine Agree.of_pair (by assumption) ?_)
    | (with_reducible refine Agree.of_pair2 (by assumption) ?_)
    | intro _
theorem leaveUp_step {M s0} {s : State} {p st : Nat} {cause : Option Nat} (hs : bitsIn 0x47500000000000000000000000000000000000000000058000000000040 M = true) (hA : Agree M s0 s) : Agree M s0 (leaveUp s p st cause) :=
  hA.step hs (leaveUp_frame s p st cause)

theorem askEnc_frame (s : State) (p : Nat) : Agree 0x47500000000000000000000000000000000000000000058000000000040 s (askEnc s p) := by
  unfold askEnc
  repeat' first
    | with_reducible assumption
    | with_reducible exact Agree.refl _ _
    | exact bitsIn_rfl rfl
    | exact regIn_rfl rfl rfl
    | with_reducible refine leaveUp_step ?_ ?_
    | with_reducible refine modPort_step ?_ ?_
    | with_reducible refine sendOn_step ?_ ?_
    | with_reducible refine Agree.ite ?_ ?_
    | dsimp only
    | split
    | (with_reducible refine Agree.of_pair (by assumption) ?_)
    | (with_reducible refine Agree.of_pair2 (by assumption) ?_)
    | intro _
theorem askEnc_step {M s0} {s : State} {p : Nat} (hs : bitsIn 0x47500000000000000000000000000000000000000000058000000000040 M = true) (hA : Agree M s0 s) : Agree M s0 (askEnc s p) :=
  hA.step hs (askEnc_frame s p)

theorem keyPort_frame (s : State) (p epoch : Nat) : Agree 0x47500000000000000000000000000000000000000000058000000000040 s (keyPort s p epoch) := by
  unfold keyPort
  repeat' first
    | with_reducible assumption
    | with_reducible exact Agree.refl _ _
    | exact bitsIn_rfl rfl
    | exact regIn_rfl rfl rfl
    | with_reducible refine leaveUp_step ?_ ?_
    | with_reducible refine modPort_step ?_ ?_
    | with_reducible refine setF_step ?_ ?_ ?_
    | with_reducible refine Agree.ite ?_ ?_
    | dsimp only
    | split
    | (with_reducible refine Agree.of_pair (by assumption) ?_)
    | (with_reducible refine Agree.of_pair2 (by assumption) ?_)
    | intro _
theorem keyPort_step {M s0} {s : State} {p epoch : Nat} (hs : bitsIn 0x47500000000000000000000000000000000000000000058000000000040 M = true) (hA : Agree M s0 s) : Agree M s0 (keyPort s p epoch) :=
  hA.step hs (keyPort_frame s p epoch)

theorem execLnkPortCtrlWrite_frame (p v : Nat) (s : State) : AgreeO 0x47d00000000000000000000000000000000000000000058000000000040 s (execLnkPortCtrlWrite p v s) := by
  unfold execLnkPortCtrlWrite
  repeat' first
    | with_reducible assumption
    | with_reducible exact Agree.refl _ _
    | exact bitsIn_rfl rfl
    | exact regIn_rfl rfl rfl
    | with_reducible refine AgreeO.next ?_
    | with_reducible refine AgreeO.ite ?_ ?_
    | with_reducible exact AgreeO.refused
    | with_reducible exact AgreeO.fault
    | with_reducible refine portExit_step ?_ ?_
    | with_reducible refine setF_step ?_ ?_ ?_
    | with_reducible refine setR_step ?_ ?_ ?_
    | with_reducible refine tryTrain_step ?_ ?_
    | with_reducible refine Agree.ite ?_ ?_
    | dsimp only
    | split
    | (with_reducible refine Agree.of_pair (by assumption) ?_)
    | (with_reducible refine Agree.of_pair2 (by assumption) ?_)
    | intro _
theorem execLnkPortCtrlWrite_step {M s0} {p v : Nat} {s : State} (hs : bitsIn 0x47d00000000000000000000000000000000000000000058000000000040 M = true) (hA : Agree M s0 s) : AgreeO M s0 (execLnkPortCtrlWrite p v s) :=
  hA.stepO hs (execLnkPortCtrlWrite_frame p v s)

theorem noteDelay_frame (s : State) (p delay : Nat) : Agree 0x1000000000000000000000000000000000000000000000000000000000 s (noteDelay s p delay) := by
  unfold noteDelay
  repeat' first
    | with_reducible assumption
    | with_reducible exact Agree.refl _ _
    | exact bitsIn_rfl rfl
    | exact regIn_rfl rfl rfl
    | with_reducible refine setF_step ?_ ?_ ?_
    | with_reducible refine Agree.ite ?_ ?_
    | dsimp only
    | split
    | (with_reducible refine Agree.of_pair (by assumption) ?_)
    | (with_reducible refine Agree.of_pair2 (by assumption) ?_)
    | intro _
theorem noteDelay_step {M s0} {s : State} {p delay : Nat} (hs : bitsIn 0x1000000000000000000000000000000000000000000000000000000000 M = true) (hA : Agree M s0 s) : Agree M s0 (noteDelay s p delay) :=
  hA.step hs (noteDelay_frame s p delay)

theorem execPortTrained_frame (p delay : Nat) (s : State) : AgreeO 0x31000000000000000000000000000000000000000000080000000000c0 s (execPortTrained p delay s) := by
  unfold execPortTrained
  repeat' first
    | with_reducible assumption
    | with_reducible exact Agree.refl _ _
    | exact bitsIn_rfl rfl
    | exact regIn_rfl rfl rfl
    | with_reducible refine AgreeO.next ?_
    | with_reducible refine AgreeO.ite ?_ ?_
    | with_reducible exact AgreeO.refused
    | with_reducible exact AgreeO.fault
    | with_reducible refine freeVal_step ?_ ?_
    | with_reducible refine noteDelay_step ?_ ?_
    | with_reducible refine setF_step ?_ ?_ ?_
    | with_reducible refine setR_step ?_ ?_ ?_
    | with_reducible refine updateTime_step ?_ ?_
    | ((conv => arg 3; arg 88; skip); with_reducible first | refine upd_ports ?_ ?_)
    | with_reducible refine Agree.ite ?_ ?_
    | dsimp only
    | split
    | (with_reducible refine Agree.of_pair (by assumption) ?_)
    | (with_reducible refine Agree.of_pair2 (by assumption) ?_)
    | intro _
theorem execPortTrained_step {M s0} {p delay : Nat} {s : State} (hs : bitsIn 0x31000000000000000000000000000000000000000000080000000000c0 M = true) (hA : Agree M s0 s) : AgreeO M s0 (execPortTrained p delay s) :=
  hA.stepO hs (execPortTrained_frame p delay s)

theorem execTrainingTimeout_frame (p : Nat) (s : State) : AgreeO 0x1000000000000000000000000000000000000000000008000000000000 s (execTrainingTimeout p s) := by
  unfold execTrainingTimeout
  repeat' first
    | with_reducible assumption
    | with_reducible exact Agree.refl _ _
    | exact bitsIn_rfl rfl
    | exact regIn_rfl rfl rfl
    | with_reducible refine AgreeO.next ?_
    | with_reducible refine AgreeO.ite ?_ ?_
    | with_reducible exact AgreeO.refused
    | with_reducible exact AgreeO.fault
    | with_reducible refine modPort_step ?_ ?_
    | with_reducible refine setF_step ?_ ?_ ?_
    | with_reducible refine Agree.ite ?_ ?_
    | dsimp only
    | split
    | (with_reducible refine Agree.of_pair (by assumption) ?_)
    | (with_reducible refine Agree.of_pair2 (by assumption) ?_)
    | intro _
theorem execTrainingTimeout_step {M s0} {p : Nat} {s : State} (hs : bitsIn 0x1000000000000000000000000000000000000000000008000000000000 M = true) (hA : Agree M s0 s) : AgreeO M s0 (execTrainingTimeout p s) :=
  hA.stepO hs (execTrainingTimeout_frame p s)

theorem execDelayProbe_frame (p delay : Nat) (s : State) : AgreeO 0x1100000000000000000000000000000000000000000008000000000040 s (execDelayProbe p delay s) := by
  unfold execDelayProbe
  repeat' first
    | with_reducible assumption
    | with_reducible exact Agree.refl _ _
    | exact bitsIn_rfl rfl
    | exact regIn_rfl rfl rfl
    | with_reducible refine AgreeO.next ?_
    | with_reducible refine AgreeO.ite ?_ ?_
    | with_reducible exact AgreeO.refused
    | with_reducible exact AgreeO.fault
    | with_reducible refine modPort_step ?_ ?_
    | with_reducible refine noteDelay_step ?_ ?_
    | with_reducible refine updateTime_step ?_ ?_
    | with_reducible refine Agree.ite ?_ ?_
    | dsimp only
    | split
    | (with_reducible refine Agree.of_pair (by assumption) ?_)
    | (with_reducible refine Agree.of_pair2 (by assumption) ?_)
    | intro _
theorem execDelayProbe_step {M s0} {p delay : Nat} {s : State} (hs : bitsIn 0x1100000000000000000000000000000000000000000008000000000040 M = true) (hA : Agree M s0 s) : AgreeO M s0 (execDelayProbe p delay s) :=
  hA.stepO hs (execDelayProbe_frame p delay s)

theorem execLockLoss_frame (p : Nat) (s : State) : AgreeO 0x47500000000000000000000000000000000000000000058000000000040 s (execLockLoss p s) := by
  unfold execLockLoss
  repeat' first
    | with_reducible assumption
    | with_reducible exact Agree.refl _ _
    | exact bitsIn_rfl rfl
    | exact regIn_rfl rfl rfl
    | with_reducible refine AgreeO.next ?_
    | with_reducible refine AgreeO.ite ?_ ?_
    | with_reducible exact AgreeO.refused
    | with_reducible exact AgreeO.fault
    | with_reducible refine leaveUp_step ?_ ?_
    | with_reducible refine Agree.ite ?_ ?_
    | dsimp only
    | split
    | (with_reducible refine Agree.of_pair (by assumption) ?_)
    | (with_reducible refine Agree.of_pair2 (by assumption) ?_)
    | intro _
theorem execLockLoss_step {M s0} {p : Nat} {s : State} (hs : bitsIn 0x47500000000000000000000000000000000000000000058000000000040 M = true) (hA : Agree M s0 s) : AgreeO M s0 (execLockLoss p s) :=
  hA.stepO hs (execLockLoss_frame p s)

theorem execLaserLow_frame (p : Nat) (s : State) : AgreeO 0x47500000000000000000000000000000000000000000058000000000040 s (execLaserLow p s) := by
  unfold execLaserLow
  repeat' first
    | with_reducible assumption
    | with_reducible exact Agree.refl _ _
    | exact bitsIn_rfl rfl
    | exact regIn_rfl rfl rfl
    | with_reducible refine AgreeO.next ?_
    | with_reducible refine AgreeO.ite ?_ ?_
    | with_reducible exact AgreeO.refused
    | with_reducible exact AgreeO.fault
    | with_reducible refine portExit_step ?_ ?_
    | with_reducible refine setF_step ?_ ?_ ?_
    | with_reducible refine Agree.ite ?_ ?_
    | dsimp only
    | split
    | (with_reducible refine Agree.of_pair (by assumption) ?_)
    | (with_reducible refine Agree.of_pair2 (by assumption) ?_)
    | intro _
theorem execLaserLow_step {M s0} {p : Nat} {s : State} (hs : bitsIn 0x47500000000000000000000000000000000000000000058000000000040 M = true) (hA : Agree M s0 s) : AgreeO M s0 (execLaserLow p s) :=
  hA.stepO hs (execLaserLow_frame p s)

theorem execLaserRestored_frame (p : Nat) (s : State) : AgreeO 0x1000000000000000000000000000000000000000000008000000000000 s (execLaserRestored p s) := by
  unfold execLaserRestored
  repeat' first
    | with_reducible assumption
    | with_reducible exact Agree.refl _ _
    | exact bitsIn_rfl rfl
    | exact regIn_rfl rfl rfl
    | with_reducible refine AgreeO.next ?_
    | with_reducible refine AgreeO.ite ?_ ?_
    | with_reducible exact AgreeO.refused
    | with_reducible exact AgreeO.fault
    | with_reducible refine setF_step ?_ ?_ ?_
    | with_reducible refine tryTrain_step ?_ ?_
    | with_reducible refine Agree.ite ?_ ?_
    | dsimp only
    | split
    | (with_reducible refine Agree.of_pair (by assumption) ?_)
    | (with_reducible refine Agree.of_pair2 (by assumption) ?_)
    | intro _
theorem execLaserRestored_step {M s0} {p : Nat} {s : State} (hs : bitsIn 0x1000000000000000000000000000000000000000000008000000000000 M = true) (hA : Agree M s0 s) : AgreeO M s0 (execLaserRestored p s) :=
  hA.stepO hs (execLaserRestored_frame p s)

theorem execLinkctlAckSend_frame (p : Nat) (s : State) : AgreeO 0x40000000000000000000000000000000000000000000008000000000000 s (execLinkctlAckSend p s) := by
  unfold execLinkctlAckSend
  repeat' first
    | with_reducible assumption
    | with_reducible exact Agree.refl _ _
    | exact bitsIn_rfl rfl
    | exact regIn_rfl rfl rfl
    | with_reducible refine AgreeO.next ?_
    | with_reducible refine AgreeO.ite ?_ ?_
    | with_reducible exact AgreeO.refused
    | with_reducible exact AgreeO.fault
    | with_reducible refine countR_step ?_ ?_ ?_
    | with_reducible refine modPort_step ?_ ?_
    | with_reducible refine Agree.ite ?_ ?_
    | dsimp only
    | split
    | (with_reducible refine Agree.of_pair (by assumption) ?_)
    | (with_reducible refine Agree.of_pair2 (by assumption) ?_)
    | intro _
theorem execLinkctlAckSend_step {M s0} {p : Nat} {s : State} (hs : bitsIn 0x40000000000000000000000000000000000000000000008000000000000 M = true) (hA : Agree M s0 s) : AgreeO M s0 (execLinkctlAckSend p s) :=
  hA.stepO hs (execLinkctlAckSend_frame p s)

theorem execEncReqTimeout_frame (p : Nat) (s : State) : AgreeO 0x47500000000000000000000000000000000000000000058000000000040 s (execEncReqTimeout p s) := by
  unfold execEncReqTimeout
  repeat' first
    | with_reducible assumption
    | with_reducible exact Agree.refl _ _
    | exact bitsIn_rfl rfl
    | exact regIn_rfl rfl rfl
    | with_reducible refine AgreeO.next ?_
    | with_reducible refine AgreeO.ite ?_ ?_
    | with_reducible exact AgreeO.refused
    | with_reducible exact AgreeO.fault
    | with_reducible refine leaveUp_step ?_ ?_
    | with_reducible refine modPort_step ?_ ?_
    | with_reducible refine Agree.ite ?_ ?_
    | dsimp only
    | split
    | (with_reducible refine Agree.of_pair (by assumption) ?_)
    | (with_reducible refine Agree.of_pair2 (by assumption) ?_)
    | intro _
theorem execEncReqTimeout_step {M s0} {p : Nat} {s : State} (hs : bitsIn 0x47500000000000000000000000000000000000000000058000000000040 M = true) (hA : Agree M s0 s) : AgreeO M s0 (execEncReqTimeout p s) :=
  hA.stepO hs (execEncReqTimeout_frame p s)

theorem execKeyEpochAdvance_frame (p : Nat) (s : State) : AgreeO 0x47500000000000000000000000000000000000000000058000000000040 s (execKeyEpochAdvance p s) := by
  unfold execKeyEpochAdvance
  repeat' first
    | with_reducible assumption
    | with_reducible exact Agree.refl _ _
    | exact bitsIn_rfl rfl
    | exact regIn_rfl rfl rfl
    | with_reducible refine AgreeO.next ?_
    | with_reducible refine AgreeO.ite ?_ ?_
    | with_reducible exact AgreeO.refused
    | with_reducible exact AgreeO.fault
    | with_reducible refine keyPort_step ?_ ?_
    | with_reducible refine pump_step ?_ ?_
    | with_reducible refine Agree.ite ?_ ?_
    | dsimp only
    | split
    | (with_reducible refine Agree.of_pair (by assumption) ?_)
    | (with_reducible refine Agree.of_pair2 (by assumption) ?_)
    | intro _
theorem execKeyEpochAdvance_step {M s0} {p : Nat} {s : State} (hs : bitsIn 0x47500000000000000000000000000000000000000000058000000000040 M = true) (hA : Agree M s0 s) : AgreeO M s0 (execKeyEpochAdvance p s) :=
  hA.stepO hs (execKeyEpochAdvance_frame p s)

theorem acceptFlit_frame (s : State) (p : Nat) (f : Flit) : Agree 0x8000000000000000000000000000000000000000000000000000000000018000000000000 s (acceptFlit s p f) := by
  unfold acceptFlit
  repeat' first
    | with_reducible assumption
    | with_reducible exact Agree.refl _ _
    | exact bitsIn_rfl rfl
    | exact regIn_rfl rfl rfl
    | with_reducible refine countR_step ?_ ?_ ?_
    | with_reducible refine modPort_step ?_ ?_
    | ((conv => arg 3; arg 88; skip); with_reducible first | refine upd_linkIn ?_ ?_)
    | with_reducible refine Agree.ite ?_ ?_
    | (with_reducible refine Agree.foldl ?_ ?_; intro _ _ _)
    | (with_reducible refine Agree.foldl2 ?_ ?_; intro _ _ _)
    | (with_reducible refine Agree.foldl3 ?_ ?_; intro _ _ _)
    | (with_reducible refine Agree.foldl4 ?_ ?_; intro _ _ _)
    | dsimp only
    | split
    | (with_reducible refine Agree.of_pair (by assumption) ?_)
    | (with_reducible refine Agree.of_pair2 (by assumption) ?_)
    | intro _
theorem acceptFlit_step {M s0} {s : State} {p : Nat} {f : Flit} (hs : bitsIn 0x8000000000000000000000000000000000000000000000000000000000018000000000000 M = true) (hA : Agree M s0 s) : Agree M s0 (acceptFlit s p f) :=
  hA.step hs (acceptFlit_frame s p f)

theorem execFlitReceive_frame (p : Nat) (f : Flit) (s : State) : AgreeO 0x800000000000007f500000000000000000000000000000000000000000058000000000040 s (execFlitReceive p f s) := by
  unfold execFlitReceive
  repeat' first
    | with_reducible assumption
    | with_reducible exact Agree.refl _ _
    | exact bitsIn_rfl rfl
    | exact regIn_rfl rfl rfl
    | with_reducible refine AgreeO.next ?_
    | with_reducible refine AgreeO.ite ?_ ?_
    | with_reducible exact AgreeO.refused
    | with_reducible exact AgreeO.fault
    | with_reducible refine acceptFlit_step ?_ ?_
    | with_reducible refine countR_step ?_ ?_ ?_
    | with_reducible refine modPort_step ?_ ?_
    | with_reducible refine portExit_step ?_ ?_
    | with_reducible refine pump_step ?_ ?_
    | with_reducible refine Agree.ite ?_ ?_
    | dsimp only
    | split
    | (with_reducible refine Agree.of_pair (by assumption) ?_)
    | (with_reducible refine Agree.of_pair2 (by assumption) ?_)
    | intro _
theorem execFlitReceive_step {M s0} {p : Nat} {f : Flit} {s : State} (hs : bitsIn 0x800000000000007f500000000000000000000000000000000000000000058000000000040 M = true) (hA : Agree M s0 s) : AgreeO M s0 (execFlitReceive p f s) :=
  hA.stepO hs (execFlitReceive_frame p f s)

end Sys2Proof.Machine
end

