-- ==== Sys2Proof/Laws/FrameLinks.lean ====
section
/-!
SUPPORT. The frame of every function of Machine/Links.lean that answers a state: the fields it can change, by mask.
-/

set_option linter.unusedTactic false
set_option linter.unreachableTactic false
set_option linter.unusedVariables false

namespace Sys2Proof.Machine

theorem custodyEnd_frame (s : State) (code word : Nat) : Agree 0x600000000000000000000000000000000000000000000000200000000000000 s (custodyEnd s code word) := by
  unfold custodyEnd
  repeat' first
    | with_reducible assumption
    | with_reducible exact Agree.refl _ _
    | exact bitsIn_rfl rfl
    | exact regIn_rfl rfl rfl
    | with_reducible refine setR_step ?_ ?_ ?_
    | ((conv => arg 3; arg 88; skip); with_reducible first | refine upd_custOp ?_ ?_)
    | with_reducible refine Agree.ite ?_ ?_
    | dsimp only
    | split
    | (with_reducible refine Agree.of_pair (by assumption) ?_)
    | (with_reducible refine Agree.of_pair2 (by assumption) ?_)
    | intro _
theorem custodyEnd_step {M s0} {s : State} {code word : Nat} (hs : bitsIn 0x600000000000000000000000000000000000000000000000200000000000000 M = true) (hA : Agree M s0 s) : Agree M s0 (custodyEnd s code word) :=
  hA.step hs (custodyEnd_frame s code word)

theorem custodyFail_frame (s : State) (code : Nat) : Agree 0x600000000000000000000000000000000000000000000000200000000000080 s (custodyFail s code) := by
  unfold custodyFail
  repeat' first
    | with_reducible assumption
    | with_reducible exact Agree.refl _ _
    | exact bitsIn_rfl rfl
    | exact regIn_rfl rfl rfl
    | with_reducible refine custodyEnd_step ?_ ?_
    | with_reducible refine freeVal_step ?_ ?_
    | with_reducible refine Agree.ite ?_ ?_
    | dsimp only
    | split
    | (with_reducible refine Agree.of_pair (by assumption) ?_)
    | (with_reducible refine Agree.of_pair2 (by assumption) ?_)
    | intro _
theorem custodyFail_step {M s0} {s : State} {code : Nat} (hs : bitsIn 0x600000000000000000000000000000000000000000000000200000000000080 M = true) (hA : Agree M s0 s) : Agree M s0 (custodyFail s code) :=
  hA.step hs (custodyFail_frame s code)

theorem errReq_frame (s : State) (id : Nat) (r : MemReq) (code : Nat) : Agree 0x4040020001bc040800000020300000000000000007800780030384c7b80 s (errReq s id r code) := by
  unfold errReq
  repeat' first
    | with_reducible assumption
    | with_reducible exact Agree.refl _ _
    | exact bitsIn_rfl rfl
    | exact regIn_rfl rfl rfl
    | with_reducible refine coreFault_step ?_ ?_
    | with_reducible refine dropReq_step ?_ ?_
    | with_reducible refine moverFail_step ?_ ?_
    | with_reducible refine setReq_step ?_ ?_
    | with_reducible refine settleOp_step ?_ ?_
    | with_reducible refine Agree.ite ?_ ?_
    | dsimp only
    | split
    | (with_reducible refine Agree.of_pair (by assumption) ?_)
    | (with_reducible refine Agree.of_pair2 (by assumption) ?_)
    | intro _
theorem errReq_step {M s0} {s : State} {id : Nat} {r : MemReq} {code : Nat} (hs : bitsIn 0x4040020001bc040800000020300000000000000007800780030384c7b80 M = true) (hA : Agree M s0 s) : Agree M s0 (errReq s id r code) :=
  hA.step hs (errReq_frame s id r code)

theorem loseLease_frame (s : State) (k : Nat) : Agree 0x10000000000000000000000000000000000000000000000000000000000000000020000004000000000 s (loseLease s k) := by
  unfold loseLease
  repeat' first
    | with_reducible assumption
    | with_reducible exact Agree.refl _ _
    | exact bitsIn_rfl rfl
    | exact regIn_rfl rfl rfl
    | with_reducible refine postEvent_step ?_ ?_
    | ((conv => arg 3; arg 88; skip); with_reducible first | refine upd_leaseTerms ?_ ?_)
    | with_reducible refine Agree.ite ?_ ?_
    | dsimp only
    | split
    | (with_reducible refine Agree.of_pair (by assumption) ?_)
    | (with_reducible refine Agree.of_pair2 (by assumption) ?_)
    | intro _
theorem loseLease_step {M s0} {s : State} {k : Nat} (hs : bitsIn 0x10000000000000000000000000000000000000000000000000000000000000000020000004000000000 M = true) (hA : Agree M s0 s) : Agree M s0 (loseLease s k) :=
  hA.step hs (loseLease_frame s k)

theorem silkFailSaved_frame (s : State) (op : Nat) (o : ThreadOp) (code : Nat) : Agree 0x80000000000001000 s (silkFailSaved s op o code) := by
  unfold silkFailSaved
  repeat' first
    | with_reducible assumption
    | with_reducible exact Agree.refl _ _
    | exact bitsIn_rfl rfl
    | ((conv => arg 3; arg 88; skip); with_reducible first | refine upd_ops_ctxs ?_ ?_)
    | with_reducible refine Agree.ite ?_ ?_
    | dsimp only
    | split
    | (with_reducible refine Agree.of_pair (by assumption) ?_)
    | (with_reducible refine Agree.of_pair2 (by assumption) ?_)
    | intro _
theorem silkFailSaved_step {M s0} {s : State} {op : Nat} {o : ThreadOp} {code : Nat} (hs : bitsIn 0x80000000000001000 M = true) (hA : Agree M s0 s) : Agree M s0 (silkFailSaved s op o code) :=
  hA.step hs (silkFailSaved_frame s op o code)

theorem silkRemoteFail_frame (s : State) (op : Nat) (o : ThreadOp) (code : Nat) : Agree 0x30000000000000000180000000000001a00 s (silkRemoteFail s op o code) := by
  unfold silkRemoteFail
  repeat' first
    | with_reducible assumption
    | with_reducible exact Agree.refl _ _
    | exact bitsIn_rfl rfl
    | exact regIn_rfl rfl rfl
    | with_reducible refine setGroup_step ?_ ?_
    | with_reducible refine silkFail_step ?_ ?_
    | with_reducible refine silkFailSaved_step ?_ ?_
    | with_reducible refine Agree.ite ?_ ?_
    | dsimp only
    | split
    | (with_reducible refine Agree.of_pair (by assumption) ?_)
    | (with_reducible refine Agree.of_pair2 (by assumption) ?_)
    | intro _
theorem silkRemoteFail_step {M s0} {s : State} {op : Nat} {o : ThreadOp} {code : Nat} (hs : bitsIn 0x30000000000000000180000000000001a00 M = true) (hA : Agree M s0 s) : Agree M s0 (silkRemoteFail s op o code) :=
  hA.step hs (silkRemoteFail_frame s op o code)

theorem undoRelease_frame (s : State) (p : SilkWaiter → Bool) : Agree 0x204040000000000000000000000000030000000000008004f000000001280 s (undoRelease s p) := by
  unfold undoRelease
  repeat' first
    | with_reducible assumption
    | with_reducible exact Agree.refl _ _
    | exact bitsIn_rfl rfl
    | exact regIn_rfl rfl rfl
    | with_reducible refine setCounter_step ?_ ?_
    | ((conv => arg 3; arg 88; skip); with_reducible first | refine upd_silkSent ?_ ?_)
    | with_reducible refine Agree.ite ?_ ?_
    | dsimp only
    | split
    | (with_reducible refine Agree.of_pair (by assumption) ?_)
    | (with_reducible refine Agree.of_pair2 (by assumption) ?_)
    | intro _
theorem undoRelease_step {M s0} {s : State} {p : SilkWaiter → Bool} (hs : bitsIn 0x204040000000000000000000000000030000000000008004f000000001280 M = true) (hA : Agree M s0 s) : Agree M s0 (undoRelease s p) :=
  hA.step hs (undoRelease_frame s p)

theorem takeIn_of {M s0} {s : State} {k : Nat} {p : Nat → LinkMsg → Bool} {a : Nat} {m : LinkMsg} {t : State}
    (e : takeIn s k p = some (a, m, t)) (hs : bitsIn 0x10000000000000 M = true) (h : Agree M s0 s) : Agree M s0 t := by
  unfold takeIn at e
  split at e
  · exact absurd e (by simp)
  · split at e
    · exact absurd e (by simp)
    · simp only [Option.some.injEq, Prod.mk.injEq] at e
      obtain ⟨-, -, rfl⟩ := e
      exact upd_linkIn hs h

theorem takeMine_of {M s0} {s : State} {k y : Nat} {a : Nat} {m : LinkMsg} {t : State}
    (e : takeMine s k y = some (a, m, t)) (hs : bitsIn 0x10000000000000 M = true) (h : Agree M s0 s) : Agree M s0 t := takeIn_of e hs h

theorem onMsg_step {M : Nat} {s0 : State} {s : State} {k type : Nat} {f : Nat → LinkMsg → State → State} (hs : bitsIn 0x10000000000000 M = true) (hk_f : ∀ (a0 : Nat) (a1 : LinkMsg) (a2 : State), Agree M s0 a2 → Agree M s0 (f a0 a1 a2)) (hA : Agree M s0 s) : AgreeO M s0 (onMsg s k type f) := by
  unfold onMsg
  repeat' first
    | with_reducible assumption
    | fail
    | exact bitsIn_trans rfl hs
    | with_reducible refine AgreeO.next ?_
    | with_reducible refine AgreeO.ite ?_ ?_
    | with_reducible exact AgreeO.refused
    | with_reducible exact AgreeO.fault
    | (with_reducible refine takeMine_of (by assumption) ?_ ?_)
    | with_reducible refine Agree.ite ?_ ?_
    | dsimp only
    | split
    | (with_reducible refine Agree.of_pair (by assumption) ?_)
    | (with_reducible refine Agree.of_pair2 (by assumption) ?_)
    | intro _
    | with_reducible refine hk_f _ _ _ ?_

theorem lateAnswer_frame (s : State) : Agree 0x4000000000000000000000000000000000000000000000000000000000000000000000000 s (lateAnswer s) := by
  unfold lateAnswer
  repeat' first
    | with_reducible assumption
    | with_reducible exact Agree.refl _ _
    | exact bitsIn_rfl rfl
    | exact regIn_rfl rfl rfl
    | with_reducible refine countR_step ?_ ?_ ?_
    | with_reducible refine Agree.ite ?_ ?_
    | dsimp only
    | split
    | (with_reducible refine Agree.of_pair (by assumption) ?_)
    | (with_reducible refine Agree.of_pair2 (by assumption) ?_)
    | intro _
theorem lateAnswer_step {M s0} {s : State} (hs : bitsIn 0x4000000000000000000000000000000000000000000000000000000000000000000000000 M = true) (hA : Agree M s0 s) : Agree M s0 (lateAnswer s) :=
  hA.step hs (lateAnswer_frame s)

theorem execMessageTransit_frame (k : Nat) (s : State) : AgreeO 0x40400000000000000000000000000000000000000000058000000000000 s (execMessageTransit k s) := by
  unfold execMessageTransit
  repeat' first
    | with_reducible assumption
    | with_reducible exact Agree.refl _ _
    | exact bitsIn_rfl rfl
    | exact regIn_rfl rfl rfl
    | with_reducible refine AgreeO.next ?_
    | with_reducible refine AgreeO.ite ?_ ?_
    | with_reducible exact AgreeO.refused
    | with_reducible exact AgreeO.fault
    | with_reducible refine countR_step ?_ ?_ ?_
    | with_reducible refine refuseMsg_step ?_ ?_
    | with_reducible refine sendOn_step ?_ ?_
    | (with_reducible refine takeIn_of (by assumption) ?_ ?_)
    | with_reducible refine Agree.ite ?_ ?_
    | dsimp only
    | split
    | (with_reducible refine Agree.of_pair (by assumption) ?_)
    | (with_reducible refine Agree.of_pair2 (by assumption) ?_)
    | intro _
theorem execMessageTransit_step {M s0} {k : Nat} {s : State} (hs : bitsIn 0x40400000000000000000000000000000000000000000058000000000000 M = true) (hA : Agree M s0 s) : AgreeO M s0 (execMessageTransit k s) :=
  hA.stepO hs (execMessageTransit_frame k s)

theorem refusePeer_frame (s : State) (m : LinkMsg) (code : Nat) : Agree 0x40400000000000000000000000000300000000000000048000000000000 s (refusePeer s m code) := by
  unfold refusePeer
  repeat' first
    | with_reducible assumption
    | with_reducible exact Agree.refl _ _
    | exact bitsIn_rfl rfl
    | exact regIn_rfl rfl rfl
    | with_reducible refine answerErr_step ?_ ?_
    | with_reducible refine countStale_step ?_ ?_
    | with_reducible refine Agree.ite ?_ ?_
    | dsimp only
    | split
    | (with_reducible refine Agree.of_pair (by assumption) ?_)
    | (with_reducible refine Agree.of_pair2 (by assumption) ?_)
    | intro _
theorem refusePeer_step {M s0} {s : State} {m : LinkMsg} {code : Nat} (hs : bitsIn 0x40400000000000000000000000000300000000000000048000000000000 M = true) (hA : Agree M s0 s) : Agree M s0 (refusePeer s m code) :=
  hA.step hs (refusePeer_frame s m code)

theorem forPeer_step {M : Nat} {s0 : State} {s : State} {p : Nat} {m : LinkMsg} {len : Nat} {f : State → State} (hs : bitsIn 0x40000000000000000040400000000000000000000000000300000000000000048000000000000 M = true) (hk_f : ∀ (a0 : State), Agree M s0 a0 → Agree M s0 (f a0)) (hA : Agree M s0 s) : Agree M s0 (forPeer s p m len f) := by
  unfold forPeer
  repeat' first
    | with_reducible assumption
    | fail
    | exact bitsIn_trans rfl hs
    | exact regIn_sub rfl rfl hs
    | with_reducible refine countR_step ?_ ?_ ?_
    | with_reducible refine refusePeer_step ?_ ?_
    | with_reducible refine Agree.ite ?_ ?_
    | dsimp only
    | split
    | (with_reducible refine Agree.of_pair (by assumption) ?_)
    | (with_reducible refine Agree.of_pair2 (by assumption) ?_)
    | intro _
    | with_reducible refine hk_f _ ?_

theorem peerParts_frame (s : State) (p : Nat) (m : LinkMsg) (parts : List (Nat × Nat)) (op : ReqOp) (d2 : List Byte) : Agree 0x404002000000040800000000000000000000000000000780000004c4180 s (peerParts s p m parts op d2) := by
  unfold peerParts
  repeat' first
    | with_reducible assumption
    | with_reducible exact Agree.refl _ _
    | exact bitsIn_rfl rfl
    | exact regIn_rfl rfl rfl
    | with_reducible refine fresh_step ?_ ?_
    | with_reducible refine sendReq_step ?_ ?_
    | ((conv => arg 3; arg 88; skip); with_reducible first | refine upd_linkReqs ?_ ?_)
    | with_reducible refine Agree.ite ?_ ?_
    | (with_reducible refine Agree.foldl ?_ ?_; intro _ _ _)
    | (with_reducible refine Agree.foldl2 ?_ ?_; intro _ _ _)
    | (with_reducible refine Agree.foldl3 ?_ ?_; intro _ _ _)
    | (with_reducible refine Agree.foldl4 ?_ ?_; intro _ _ _)
    | dsimp only
    | split
    | (with_reducible refine Agree.of_pair (by assumption) ?_)
    | (with_reducible refine Agree.of_pair2 (by assumption) ?_)
    | intro _
theorem peerParts_step {M s0} {s : State} {p : Nat} {m : LinkMsg} {parts : List (Nat × Nat)} {op : ReqOp} {d2 : List Byte} (hs : bitsIn 0x404002000000040800000000000000000000000000000780000004c4180 M = true) (hA : Agree M s0 s) : Agree M s0 (peerParts s p m parts op d2) :=
  hA.step hs (peerParts_frame s p m parts op d2)

theorem execLinkRead_frame (k : Nat) (s : State) : AgreeO 0x400000000000000000404002000000040800000000000003000000000000000780000004c4180 s (execLinkRead k s) := by
  unfold execLinkRead
  repeat' first
    | with_reducible assumption
    | with_reducible exact Agree.refl _ _
    | exact bitsIn_rfl rfl
    | exact regIn_rfl rfl rfl
    | with_reducible refine AgreeO.next ?_
    | with_reducible refine AgreeO.ite ?_ ?_
    | with_reducible exact AgreeO.refused
    | with_reducible exact AgreeO.fault
    | with_reducible refine forPeer_step ?_ ?_ ?_
    | with_reducible refine onMsg_step ?_ ?_ ?_
    | with_reducible refine peerParts_step ?_ ?_
    | with_reducible refine sendOrDrop_step ?_ ?_
    | with_reducible refine Agree.ite ?_ ?_
    | dsimp only
    | split
    | (with_reducible refine Agree.of_pair (by assumption) ?_)
    | (with_reducible refine Agree.of_pair2 (by assumption) ?_)
    | (with_reducible refine AgreeO.of ?_ (by assumption))
    | intro _
theorem execLinkRead_step {M s0} {k : Nat} {s : State} (hs : bitsIn 0x400000000000000000404002000000040800000000000003000000000000000780000004c4180 M = true) (hA : Agree M s0 s) : AgreeO M s0 (execLinkRead k s) :=
  hA.stepO hs (execLinkRead_frame k s)

theorem execLinkWrite_frame (k : Nat) (s : State) : AgreeO 0x400000000000000000404002000000040800000000000003000000000000000780000004c4180 s (execLinkWrite k s) := by
  unfold execLinkWrite
  repeat' first
    | with_reducible assumption
    | with_reducible exact Agree.refl _ _
    | exact bitsIn_rfl rfl
    | exact regIn_rfl rfl rfl
    | with_reducible refine AgreeO.next ?_
    | with_reducible refine AgreeO.ite ?_ ?_
    | with_reducible exact AgreeO.refused
    | with_reducible exact AgreeO.fault
    | with_reducible refine forPeer_step ?_ ?_ ?_
    | with_reducible refine onMsg_step ?_ ?_ ?_
    | with_reducible refine peerParts_step ?_ ?_
    | with_reducible refine sendOrDrop_step ?_ ?_
    | with_reducible refine Agree.ite ?_ ?_
    | dsimp only
    | split
    | (with_reducible refine Agree.of_pair (by assumption) ?_)
    | (with_reducible refine Agree.of_pair2 (by assumption) ?_)
    | (with_reducible refine AgreeO.of ?_ (by assumption))
    | intro _
theorem execLinkWrite_step {M s0} {k : Nat} {s : State} (hs : bitsIn 0x400000000000000000404002000000040800000000000003000000000000000780000004c4180 M = true) (hA : Agree M s0 s) : AgreeO M s0 (execLinkWrite k s) :=
  hA.stepO hs (execLinkWrite_frame k s)

theorem execLinkAtomic_frame (k : Nat) (s : State) : AgreeO 0x400000000000000000404002000000040800000000000003000000000000000780000004c4180 s (execLinkAtomic k s) := by
  unfold execLinkAtomic
  repeat' first
    | with_reducible assumption
    | with_reducible exact Agree.refl _ _
    | exact bitsIn_rfl rfl
    | exact regIn_rfl rfl rfl
    | with_reducible refine AgreeO.next ?_
    | with_reducible refine AgreeO.ite ?_ ?_
    | with_reducible exact AgreeO.refused
    | with_reducible exact AgreeO.fault
    | with_reducible refine forPeer_step ?_ ?_ ?_
    | with_reducible refine onMsg_step ?_ ?_ ?_
    | with_reducible refine peerParts_step ?_ ?_
    | with_reducible refine refusePeer_step ?_ ?_
    | with_reducible refine Agree.ite ?_ ?_
    | dsimp only
    | split
    | (with_reducible refine Agree.of_pair (by assumption) ?_)
    | (with_reducible refine Agree.of_pair2 (by assumption) ?_)
    | (with_reducible refine AgreeO.of ?_ (by assumption))
    | intro _
theorem execLinkAtomic_step {M s0} {k : Nat} {s : State} (hs : bitsIn 0x400000000000000000404002000000040800000000000003000000000000000780000004c4180 M = true) (hA : Agree M s0 s) : AgreeO M s0 (execLinkAtomic k s) :=
  hA.stepO hs (execLinkAtomic_frame k s)

theorem execResp_frame (k : Nat) (s : State) : AgreeO 0x100000000040000000000000404002800020060c02000000000000000000000000000780040014c7080 s (execResp k s) := by
  unfold execResp
  repeat' first
    | with_reducible assumption
    | with_reducible exact Agree.refl _ _
    | exact bitsIn_rfl rfl
    | exact regIn_rfl rfl rfl
    | with_reducible refine AgreeO.next ?_
    | with_reducible refine AgreeO.ite ?_ ?_
    | with_reducible exact AgreeO.refused
    | with_reducible exact AgreeO.fault
    | with_reducible refine countPoison_step ?_ ?_
    | with_reducible refine endWrite_step ?_ ?_
    | with_reducible refine lateAnswer_step ?_ ?_
    | with_reducible refine onMsg_step ?_ ?_ ?_
    | with_reducible refine readMiss_step ?_ ?_
    | with_reducible refine setReq_step ?_ ?_
    | with_reducible refine Agree.ite ?_ ?_
    | dsimp only
    | split
    | (with_reducible refine Agree.of_pair (by assumption) ?_)
    | (with_reducible refine Agree.of_pair2 (by assumption) ?_)
    | (with_reducible refine AgreeO.of ?_ (by assumption))
    | intro _
theorem execResp_step {M s0} {k : Nat} {s : State} (hs : bitsIn 0x100000000040000000000000404002800020060c02000000000000000000000000000780040014c7080 M = true) (hA : Agree M s0 s) : AgreeO M s0 (execResp k s) :=
  hA.stepO hs (execResp_frame k s)

theorem execLinkAck_frame (k : Nat) (s : State) : AgreeO 0x100000000040000000000000404002000020060c02000000000000000000000000000780040014c7080 s (execLinkAck k s) := by
  unfold execLinkAck
  repeat' first
    | with_reducible assumption
    | with_reducible exact Agree.refl _ _
    | exact bitsIn_rfl rfl
    | exact regIn_rfl rfl rfl
    | with_reducible refine AgreeO.next ?_
    | with_reducible refine AgreeO.ite ?_ ?_
    | with_reducible exact AgreeO.refused
    | with_reducible exact AgreeO.fault
    | with_reducible refine endWrite_step ?_ ?_
    | with_reducible refine lateAnswer_step ?_ ?_
    | with_reducible refine onMsg_step ?_ ?_ ?_
    | with_reducible refine Agree.ite ?_ ?_
    | dsimp only
    | split
    | (with_reducible refine Agree.of_pair (by assumption) ?_)
    | (with_reducible refine Agree.of_pair2 (by assumption) ?_)
    | (with_reducible refine AgreeO.of ?_ (by assumption))
    | intro _
theorem execLinkAck_step {M s0} {k : Nat} {s : State} (hs : bitsIn 0x100000000040000000000000404002000020060c02000000000000000000000000000780040014c7080 M = true) (hA : Agree M s0 s) : AgreeO M s0 (execLinkAck k s) :=
  hA.stepO hs (execLinkAck_frame k s)

theorem lostReq_frame (s : State) (id : Nat) (r : MemReq) : Agree 0x100000000000000000000000404002800020060c02000000000000000000000000000780040014c7080 s (lostReq s id r) := by
  unfold lostReq
  repeat' first
    | with_reducible assumption
    | with_reducible exact Agree.refl _ _
    | exact bitsIn_rfl rfl
    | exact regIn_rfl rfl rfl
    | with_reducible refine countPoison_step ?_ ?_
    | with_reducible refine countR_step ?_ ?_ ?_
    | with_reducible refine dropReq_step ?_ ?_
    | with_reducible refine ownerWritten_step ?_ ?_
    | with_reducible refine poisonedBack_step ?_ ?_
    | with_reducible refine readMiss_step ?_ ?_
    | with_reducible refine Agree.ite ?_ ?_
    | dsimp only
    | split
    | (with_reducible refine Agree.of_pair (by assumption) ?_)
    | (with_reducible refine Agree.of_pair2 (by assumption) ?_)
    | intro _
theorem lostReq_step {M s0} {s : State} {id : Nat} {r : MemReq} (hs : bitsIn 0x100000000000000000000000404002800020060c02000000000000000000000000000780040014c7080 M = true) (hA : Agree M s0 s) : Agree M s0 (lostReq s id r) :=
  hA.step hs (lostReq_frame s id r)

theorem execErr_frame (k : Nat) (s : State) : AgreeO 0x1000000000400000400160204040028001bc060c020000203000030000000040278067f0070394c7b80 s (execErr k s) := by
  unfold execErr
  repeat' first
    | with_reducible assumption
    | with_reducible exact Agree.refl _ _
    | exact bitsIn_rfl rfl
    | exact regIn_rfl rfl rfl
    | with_reducible refine AgreeO.next ?_
    | with_reducible refine AgreeO.ite ?_ ?_
    | with_reducible exact AgreeO.refused
    | with_reducible exact AgreeO.fault
    | with_reducible refine custodyFail_step ?_ ?_
    | with_reducible refine endCmd_step ?_ ?_
    | with_reducible refine errReq_step ?_ ?_
    | with_reducible refine failColl_step ?_ ?_
    | with_reducible refine lateAnswer_step ?_ ?_
    | with_reducible refine lostReq_step ?_ ?_
    | with_reducible refine onMsg_step ?_ ?_ ?_
    | with_reducible refine silkRemoteFail_step ?_ ?_
    | with_reducible refine undoRelease_step ?_ ?_
    | ((conv => arg 3; arg 88; skip); with_reducible first | refine upd_fenceOuts ?_ ?_)
    | with_reducible refine Agree.ite ?_ ?_
    | dsimp only
    | split
    | (with_reducible refine Agree.of_pair (by assumption) ?_)
    | (with_reducible refine Agree.of_pair2 (by assumption) ?_)
    | (with_reducible refine AgreeO.of ?_ (by assumption))
    | intro _
theorem execErr_step {M s0} {k : Nat} {s : State} (hs : bitsIn 0x1000000000400000400160204040028001bc060c020000203000030000000040278067f0070394c7b80 M = true) (hA : Agree M s0 s) : AgreeO M s0 (execErr k s) :=
  hA.stepO hs (execErr_frame k s)

theorem execLinkAbort_frame (k : Nat) (s : State) : AgreeO 0x404002000020040800000000000000000000000000000780000004c7080 s (execLinkAbort k s) := by
  unfold execLinkAbort
  repeat' first
    | with_reducible assumption
    | with_reducible exact Agree.refl _ _
    | exact bitsIn_rfl rfl
    | exact regIn_rfl rfl rfl
    | with_reducible refine AgreeO.next ?_
    | with_reducible refine AgreeO.ite ?_ ?_
    | with_reducible exact AgreeO.refused
    | with_reducible exact AgreeO.fault
    | with_reducible refine forgetReqs_step ?_ ?_
    | with_reducible refine onMsg_step ?_ ?_ ?_
    | ((conv => arg 3; arg 88; skip); with_reducible first | refine upd_linkIn_linkReqs ?_ ?_)
    | with_reducible refine Agree.ite ?_ ?_
    | dsimp only
    | split
    | (with_reducible refine Agree.of_pair (by assumption) ?_)
    | (with_reducible refine Agree.of_pair2 (by assumption) ?_)
    | (with_reducible refine AgreeO.of ?_ (by assumption))
    | intro _
theorem execLinkAbort_step {M s0} {k : Nat} {s : State} (hs : bitsIn 0x404002000020040800000000000000000000000000000780000004c7080 M = true) (hA : Agree M s0 s) : AgreeO M s0 (execLinkAbort k s) :=
  hA.stepO hs (execLinkAbort_frame k s)

theorem crossLate_frame (s : State) (late : Bool) (p inst : Nat) : Agree 0x10000000000000000000010000000000000000000000000000000000000000000000000004000000000 s (crossLate s late p inst) := by
  unfold crossLate
  repeat' first
    | with_reducible assumption
    | with_reducible exact Agree.refl _ _
    | exact bitsIn_rfl rfl
    | exact regIn_rfl rfl rfl
    | with_reducible refine countR_step ?_ ?_ ?_
    | with_reducible refine fabricFault_step ?_ ?_
    | with_reducible refine Agree.ite ?_ ?_
    | dsimp only
    | split
    | (with_reducible refine Agree.of_pair (by assumption) ?_)
    | (with_reducible refine Agree.of_pair2 (by assumption) ?_)
    | intro _
theorem crossLate_step {M s0} {s : State} {late : Bool} {p inst : Nat} (hs : bitsIn 0x10000000000000000000010000000000000000000000000000000000000000000000000004000000000 M = true) (hA : Agree M s0 s) : Agree M s0 (crossLate s late p inst) :=
  hA.step hs (crossLate_frame s late p inst)

theorem silkFromPeer_frame (k op : Nat) (late : Bool) (s : State) : AgreeO 0x1000000000000000000001a44040000000000000000000000000030000000000008005f004000001280 s (silkFromPeer k op late s) := by
  unfold silkFromPeer
  repeat' first
    | with_reducible assumption
    | with_reducible exact Agree.refl _ _
    | exact bitsIn_rfl rfl
    | exact regIn_rfl rfl rfl
    | with_reducible refine AgreeO.next ?_
    | with_reducible refine AgreeO.ite ?_ ?_
    | with_reducible exact AgreeO.refused
    | with_reducible exact AgreeO.fault
    | with_reducible refine crossLate_step ?_ ?_
    | with_reducible refine onMsg_step ?_ ?_ ?_
    | with_reducible refine refusePeer_step ?_ ?_
    | with_reducible refine silkPerform_step ?_ ?_
    | with_reducible refine Agree.ite ?_ ?_
    | dsimp only
    | split
    | (with_reducible refine Agree.of_pair (by assumption) ?_)
    | (with_reducible refine Agree.of_pair2 (by assumption) ?_)
    | (with_reducible refine AgreeO.of ?_ (by assumption))
    | intro _
theorem silkFromPeer_step {M s0} {k op : Nat} {late : Bool} {s : State} (hs : bitsIn 0x1000000000000000000001a44040000000000000000000000000030000000000008005f004000001280 M = true) (hA : Agree M s0 s) : AgreeO M s0 (silkFromPeer k op late s) :=
  hA.stepO hs (silkFromPeer_frame k op late s)

theorem execSilkAddMsg_frame (k : Nat) (late : Bool) (s : State) : AgreeO 0x1000000000000000000001a44040000000000000000000000000030000000000008005f004000001280 s (execSilkAddMsg k late s) := by
  unfold execSilkAddMsg
  repeat' first
    | with_reducible assumption
    | with_reducible exact Agree.refl _ _
    | exact bitsIn_rfl rfl
    | exact regIn_rfl rfl rfl
    | with_reducible refine AgreeO.next ?_
    | with_reducible refine AgreeO.ite ?_ ?_
    | with_reducible exact AgreeO.refused
    | with_reducible exact AgreeO.fault
    | with_reducible refine silkFromPeer_step ?_ ?_
    | with_reducible refine Agree.ite ?_ ?_
    | dsimp only
    | split
    | (with_reducible refine Agree.of_pair (by assumption) ?_)
    | (with_reducible refine Agree.of_pair2 (by assumption) ?_)
    | (with_reducible refine AgreeO.of ?_ (by assumption))
    | intro _
theorem execSilkAddMsg_step {M s0} {k : Nat} {late : Bool} {s : State} (hs : bitsIn 0x1000000000000000000001a44040000000000000000000000000030000000000008005f004000001280 M = true) (hA : Agree M s0 s) : AgreeO M s0 (execSilkAddMsg k late s) :=
  hA.stepO hs (execSilkAddMsg_frame k late s)

theorem execSilkReadMsg_frame (k : Nat) (late : Bool) (s : State) : AgreeO 0x1000000000000000000001a44040000000000000000000000000030000000000008005f004000001280 s (execSilkReadMsg k late s) := by
  unfold execSilkReadMsg
  repeat' first
    | with_reducible assumption
    | with_reducible exact Agree.refl _ _
    | exact bitsIn_rfl rfl
    | exact regIn_rfl rfl rfl
    | with_reducible refine AgreeO.next ?_
    | with_reducible refine AgreeO.ite ?_ ?_
    | with_reducible exact AgreeO.refused
    | with_reducible exact AgreeO.fault
    | with_reducible refine silkFromPeer_step ?_ ?_
    | with_reducible refine Agree.ite ?_ ?_
    | dsimp only
    | split
    | (with_reducible refine Agree.of_pair (by assumption) ?_)
    | (with_reducible refine Agree.of_pair2 (by assumption) ?_)
    | (with_reducible refine AgreeO.of ?_ (by assumption))
    | intro _
theorem execSilkReadMsg_step {M s0} {k : Nat} {late : Bool} {s : State} (hs : bitsIn 0x1000000000000000000001a44040000000000000000000000000030000000000008005f004000001280 M = true) (hA : Agree M s0 s) : AgreeO M s0 (execSilkReadMsg k late s) :=
  hA.stepO hs (execSilkReadMsg_frame k late s)

theorem execSilkWaitgeMsg_frame (k : Nat) (late : Bool) (s : State) : AgreeO 0x1000000000000000000001a44040000000000000000000000000030000000000008005f004000001280 s (execSilkWaitgeMsg k late s) := by
  unfold execSilkWaitgeMsg
  repeat' first
    | with_reducible assumption
    | with_reducible exact Agree.refl _ _
    | exact bitsIn_rfl rfl
    | exact regIn_rfl rfl rfl
    | with_reducible refine AgreeO.next ?_
    | with_reducible refine AgreeO.ite ?_ ?_
    | with_reducible exact AgreeO.refused
    | with_reducible exact AgreeO.fault
    | with_reducible refine silkFromPeer_step ?_ ?_
    | with_reducible refine Agree.ite ?_ ?_
    | dsimp only
    | split
    | (with_reducible refine Agree.of_pair (by assumption) ?_)
    | (with_reducible refine Agree.of_pair2 (by assumption) ?_)
    | (with_reducible refine AgreeO.of ?_ (by assumption))
    | intro _
theorem execSilkWaitgeMsg_step {M s0} {k : Nat} {late : Bool} {s : State} (hs : bitsIn 0x1000000000000000000001a44040000000000000000000000000030000000000008005f004000001280 M = true) (hA : Agree M s0 s) : AgreeO M s0 (execSilkWaitgeMsg k late s) :=
  hA.stepO hs (execSilkWaitgeMsg_frame k late s)

theorem execSilkTakeMsg_frame (k : Nat) (late : Bool) (s : State) : AgreeO 0x1000000000000000000001a44040000000000000000000000000030000000000008005f004000001280 s (execSilkTakeMsg k late s) := by
  unfold execSilkTakeMsg
  repeat' first
    | with_reducible assumption
    | with_reducible exact Agree.refl _ _
    | exact bitsIn_rfl rfl
    | exact regIn_rfl rfl rfl
    | with_reducible refine AgreeO.next ?_
    | with_reducible refine AgreeO.ite ?_ ?_
    | with_reducible exact AgreeO.refused
    | with_reducible exact AgreeO.fault
    | with_reducible refine silkFromPeer_step ?_ ?_
    | with_reducible refine Agree.ite ?_ ?_
    | dsimp only
    | split
    | (with_reducible refine Agree.of_pair (by assumption) ?_)
    | (with_reducible refine Agree.of_pair2 (by assumption) ?_)
    | (with_reducible refine AgreeO.of ?_ (by assumption))
    | intro _
theorem execSilkTakeMsg_step {M s0} {k : Nat} {late : Bool} {s : State} (hs : bitsIn 0x1000000000000000000001a44040000000000000000000000000030000000000008005f004000001280 M = true) (hA : Agree M s0 s) : AgreeO M s0 (execSilkTakeMsg k late s) :=
  hA.stepO hs (execSilkTakeMsg_frame k late s)

theorem execSilkRelease_frame (k : Nat) (late : Bool) (s : State) : AgreeO 0x1000000000000000000001004040000000000000000000000000030000000000008005e004000001280 s (execSilkRelease k late s) := by
  unfold execSilkRelease
  repeat' first
    | with_reducible assumption
    | with_reducible exact Agree.refl _ _
    | exact bitsIn_rfl rfl
    | exact regIn_rfl rfl rfl
    | with_reducible refine AgreeO.next ?_
    | with_reducible refine AgreeO.ite ?_ ?_
    | with_reducible exact AgreeO.refused
    | with_reducible exact AgreeO.fault
    | with_reducible refine answerErr_step ?_ ?_
    | with_reducible refine countR_step ?_ ?_ ?_
    | with_reducible refine crossLate_step ?_ ?_
    | with_reducible refine onMsg_step ?_ ?_ ?_
    | with_reducible refine sendOrDrop_step ?_ ?_
    | with_reducible refine silkRelease_step ?_ ?_
    | ((conv => arg 3; arg 88; skip); with_reducible first | refine upd_silkReplies ?_ ?_)
    | with_reducible refine Agree.ite ?_ ?_
    | dsimp only
    | split
    | (with_reducible refine Agree.of_pair (by assumption) ?_)
    | (with_reducible refine Agree.of_pair2 (by assumption) ?_)
    | (with_reducible refine AgreeO.of ?_ (by assumption))
    | intro _
theorem execSilkRelease_step {M s0} {k : Nat} {late : Bool} {s : State} (hs : bitsIn 0x1000000000000000000001004040000000000000000000000000030000000000008005e004000001280 M = true) (hA : Agree M s0 s) : AgreeO M s0 (execSilkRelease k late s) :=
  hA.stepO hs (execSilkRelease_frame k late s)

theorem execSilkAck_frame (k : Nat) (s : State) : AgreeO 0x14000000001000 s (execSilkAck k s) := by
  unfold execSilkAck
  repeat' first
    | with_reducible assumption
    | with_reducible exact Agree.refl _ _
    | exact bitsIn_rfl rfl
    | with_reducible refine AgreeO.next ?_
    | with_reducible refine AgreeO.ite ?_ ?_
    | with_reducible exact AgreeO.refused
    | with_reducible exact AgreeO.fault
    | with_reducible refine onMsg_step ?_ ?_ ?_
    | ((conv => arg 3; arg 88; skip); with_reducible first | refine upd_ops ?_ ?_ | refine upd_silkSent ?_ ?_)
    | with_reducible refine Agree.ite ?_ ?_
    | dsimp only
    | split
    | (with_reducible refine Agree.of_pair (by assumption) ?_)
    | (with_reducible refine Agree.of_pair2 (by assumption) ?_)
    | (with_reducible refine AgreeO.of ?_ (by assumption))
    | intro _
theorem execSilkAck_step {M s0} {k : Nat} {s : State} (hs : bitsIn 0x14000000001000 M = true) (hA : Agree M s0 s) : AgreeO M s0 (execSilkAck k s) :=
  hA.stepO hs (execSilkAck_frame k s)

theorem execFenceOp_frame (k : Nat) (s : State) : AgreeO 0x100000400000000000000000404302800000040800000000000003000000000014000580040004f8000 s (execFenceOp k s) := by
  unfold execFenceOp
  repeat' first
    | with_reducible assumption
    | with_reducible exact Agree.refl _ _
    | exact bitsIn_rfl rfl
    | exact regIn_rfl rfl rfl
    | with_reducible refine AgreeO.next ?_
    | with_reducible refine AgreeO.ite ?_ ?_
    | with_reducible exact AgreeO.refused
    | with_reducible exact AgreeO.fault
    | with_reducible refine countR_step ?_ ?_ ?_
    | with_reducible refine fenceMsg_step ?_ ?_
    | with_reducible refine fenceUpdate_step ?_ ?_
    | with_reducible refine refusePeer_step ?_ ?_
    | (with_reducible refine takeMine_of (by assumption) ?_ ?_)
    | ((conv => arg 3; arg 88; skip); with_reducible first | refine upd_fenceWaiters ?_ ?_)
    | with_reducible refine Agree.ite ?_ ?_
    | dsimp only
    | split
    | (with_reducible refine Agree.of_pair (by assumption) ?_)
    | (with_reducible refine Agree.of_pair2 (by assumption) ?_)
    | intro _
theorem execFenceOp_step {M s0} {k : Nat} {s : State} (hs : bitsIn 0x100000400000000000000000404302800000040800000000000003000000000014000580040004f8000 M = true) (hA : Agree M s0 s) : AgreeO M s0 (execFenceOp k s) :=
  hA.stepO hs (execFenceOp_frame k s)

theorem execFenceRelease_frame (k : Nat) (s : State) : AgreeO 0x300000000002400010000000000000 s (execFenceRelease k s) := by
  unfold execFenceRelease
  repeat' first
    | with_reducible assumption
    | with_reducible exact Agree.refl _ _
    | exact bitsIn_rfl rfl
    | exact regIn_rfl rfl rfl
    | with_reducible refine AgreeO.next ?_
    | with_reducible refine AgreeO.ite ?_ ?_
    | with_reducible exact AgreeO.refused
    | with_reducible exact AgreeO.fault
    | with_reducible refine countStale_step ?_ ?_
    | with_reducible refine endCmd_step ?_ ?_
    | with_reducible refine onMsg_step ?_ ?_ ?_
    | ((conv => arg 3; arg 88; skip); with_reducible first | refine upd_fenceOuts ?_ ?_)
    | with_reducible refine Agree.ite ?_ ?_
    | dsimp only
    | split
    | (with_reducible refine Agree.of_pair (by assumption) ?_)
    | (with_reducible refine Agree.of_pair2 (by assumption) ?_)
    | (with_reducible refine AgreeO.of ?_ (by assumption))
    | intro _
theorem execFenceRelease_step {M s0} {k : Nat} {s : State} (hs : bitsIn 0x300000000002400010000000000000 M = true) (hA : Agree M s0 s) : AgreeO M s0 (execFenceRelease k s) :=
  hA.stepO hs (execFenceRelease_frame k s)

theorem execLease_frame (k : Nat) (s : State) : AgreeO 0x1000000000000000000000004040100000007800020000000003849000000000c038058004000020000 s (execLease k s) := by
  unfold execLease
  repeat' first
    | with_reducible assumption
    | with_reducible exact Agree.refl _ _
    | exact bitsIn_rfl rfl
    | exact regIn_rfl rfl rfl
    | with_reducible refine AgreeO.next ?_
    | with_reducible refine AgreeO.ite ?_ ?_
    | with_reducible exact AgreeO.refused
    | with_reducible exact AgreeO.fault
    | with_reducible refine endLent_step ?_ ?_
    | with_reducible refine leaseAnswer_step ?_ ?_
    | with_reducible refine loseLease_step ?_ ?_
    | with_reducible refine onMsg_step ?_ ?_ ?_
    | with_reducible refine refreshLoads_step ?_ ?_
    | with_reducible refine sendLease_step ?_ ?_
    | with_reducible refine setF_step ?_ ?_ ?_
    | with_reducible refine wonLost_step ?_ ?_
    | ((conv => arg 3; arg 88; skip); with_reducible first | refine upd_leaseTerms ?_ ?_)
    | with_reducible refine Agree.ite ?_ ?_
    | dsimp only
    | split
    | (with_reducible refine Agree.of_pair (by assumption) ?_)
    | (with_reducible refine Agree.of_pair2 (by assumption) ?_)
    | (with_reducible refine AgreeO.of ?_ (by assumption))
    | intro _
theorem execLease_step {M s0} {k : Nat} {s : State} (hs : bitsIn 0x1000000000000000000000004040100000007800020000000003849000000000c038058004000020000 M = true) (hA : Agree M s0 s) : AgreeO M s0 (execLease k s) :=
  hA.stepO hs (execLease_frame k s)

end Sys2Proof.Machine
end

