-- ==== Sys2Proof/Laws/FramePeers.lean ====
section
/-!
SUPPORT. The frame of every function of Machine/Peers.lean that answers a state: the fields it can change, by mask.
-/

set_option linter.unusedTactic false
set_option linter.unreachableTactic false
set_option linter.unusedVariables false

namespace Sys2Proof.Machine

theorem startPeer_frame (s : State) (k chip hops boot serial : Nat) : Agree 0x100000000000000000000000000000000000000000000080000000000000 s (startPeer s k chip hops boot serial) := by
  unfold startPeer
  repeat' first
    | with_reducible assumption
    | with_reducible exact Agree.refl _ _
    | exact bitsIn_rfl rfl
    | exact regIn_rfl rfl rfl
    | with_reducible refine setR_step ?_ ?_ ?_
    | ((conv => arg 3; arg 88; skip); with_reducible first | refine upd_peers ?_ ?_)
    | with_reducible refine Agree.ite ?_ ?_
    | dsimp only
    | split
    | (with_reducible refine Agree.of_pair (by assumption) ?_)
    | (with_reducible refine Agree.of_pair2 (by assumption) ?_)
    | intro _
theorem startPeer_step {M s0} {s : State} {k chip hops boot serial : Nat} (hs : bitsIn 0x100000000000000000000000000000000000000000000080000000000000 M = true) (hA : Agree M s0 s) : Agree M s0 (startPeer s k chip hops boot serial) :=
  hA.step hs (startPeer_frame s k chip hops boot serial)

theorem autoRoute_frame (s : State) (chip : Nat) : Agree 0x80000000000000000000000000000000000000000000000000000000000 s (autoRoute s chip) := by
  unfold autoRoute
  repeat' first
    | with_reducible assumption
    | with_reducible exact Agree.refl _ _
    | exact bitsIn_rfl rfl
    | exact regIn_rfl rfl rfl
    | with_reducible refine setR_step ?_ ?_ ?_
    | with_reducible refine Agree.ite ?_ ?_
    | dsimp only
    | split
    | (with_reducible refine Agree.of_pair (by assumption) ?_)
    | (with_reducible refine Agree.of_pair2 (by assumption) ?_)
    | intro _
theorem autoRoute_step {M s0} {s : State} {chip : Nat} (hs : bitsIn 0x80000000000000000000000000000000000000000000000000000000000 M = true) (hA : Agree M s0 s) : Agree M s0 (autoRoute s chip) :=
  hA.step hs (autoRoute_frame s chip)

theorem losePeer_frame (s : State) (k : Nat) : Agree 0x100000000000000040016021c050020001bc040800000020300003000000004037a067f0070384c7bc0 s (losePeer s k) := by
  unfold losePeer
  repeat' first
    | with_reducible assumption
    | with_reducible exact Agree.refl _ _
    | exact bitsIn_rfl rfl
    | exact regIn_rfl rfl rfl
    | with_reducible refine custodyFail_step ?_ ?_
    | with_reducible refine endCmd_step ?_ ?_
    | with_reducible refine errReq_step ?_ ?_
    | with_reducible refine failColls_step ?_ ?_
    | with_reducible refine loseLease_step ?_ ?_
    | with_reducible refine setF_step ?_ ?_ ?_
    | with_reducible refine silkRemoteFail_step ?_ ?_
    | with_reducible refine undoRelease_step ?_ ?_
    | with_reducible refine updateTime_step ?_ ?_
    | ((conv => arg 3; arg 88; skip); with_reducible first | refine upd_fenceOuts ?_ ?_ | refine upd_silkWaiters_ports_fenceWaiters ?_ ?_)
    | with_reducible refine Agree.ite ?_ ?_
    | (with_reducible refine Agree.foldl ?_ ?_; intro _ _ _)
    | (with_reducible refine Agree.foldl2 ?_ ?_; intro _ _ _)
    | (with_reducible refine Agree.foldl3 ?_ ?_; intro _ _ _)
    | (with_reducible refine Agree.foldl4 ?_ ?_; intro _ _ _)
    | dsimp only
    | split
    | (with_reducible refine Agree.of_pair (by assumption) ?_)
    | (with_reducible refine Agree.of_pair2 (by assumption) ?_)
    | intro _
theorem losePeer_step {M s0} {s : State} {k : Nat} (hs : bitsIn 0x100000000000000040016021c050020001bc040800000020300003000000004037a067f0070384c7bc0 M = true) (hA : Agree M s0 s) : Agree M s0 (losePeer s k) :=
  hA.step hs (losePeer_frame s k)

theorem hearPeer_frame (s : State) (chip hops boot : Nat) (serial : Option Nat) (idle : Bool) : Agree 0x100000000000000040016021c050020001bc040800000020300003000000004037a06ff0070384c7bc0 s (hearPeer s chip hops boot serial idle) := by
  unfold hearPeer
  repeat' first
    | with_reducible assumption
    | with_reducible exact Agree.refl _ _
    | exact bitsIn_rfl rfl
    | exact regIn_rfl rfl rfl
    | with_reducible refine countR_step ?_ ?_ ?_
    | with_reducible refine fresh_step ?_ ?_
    | with_reducible refine losePeer_step ?_ ?_
    | with_reducible refine setF_step ?_ ?_ ?_
    | with_reducible refine startPeer_step ?_ ?_
    | ((conv => arg 3; arg 88; skip); with_reducible first | refine upd_peers ?_ ?_)
    | with_reducible refine Agree.ite ?_ ?_
    | dsimp only
    | split
    | (with_reducible refine Agree.of_pair (by assumption) ?_)
    | (with_reducible refine Agree.of_pair2 (by assumption) ?_)
    | intro _
theorem hearPeer_step {M s0} {s : State} {chip hops boot : Nat} {serial : Option Nat} {idle : Bool} (hs : bitsIn 0x100000000000000040016021c050020001bc040800000020300003000000004037a06ff0070384c7bc0 M = true) (hA : Agree M s0 s) : Agree M s0 (hearPeer s chip hops boot serial idle) :=
  hA.step hs (hearPeer_frame s chip hops boot serial idle)

theorem execHello_frame (k : Nat) (s : State) : AgreeO 0x100000000000000040016021c750020001bc040800000020300003000000004037a06ff0070384c7bc0 s (execHello k s) := by
  unfold execHello
  repeat' first
    | with_reducible assumption
    | with_reducible exact Agree.refl _ _
    | exact bitsIn_rfl rfl
    | exact regIn_rfl rfl rfl
    | with_reducible refine AgreeO.next ?_
    | with_reducible refine AgreeO.ite ?_ ?_
    | with_reducible exact AgreeO.refused
    | with_reducible exact AgreeO.fault
    | with_reducible refine askEnc_step ?_ ?_
    | with_reducible refine autoRoute_step ?_ ?_
    | with_reducible refine hearPeer_step ?_ ?_
    | with_reducible refine leaveUp_step ?_ ?_
    | with_reducible refine modPort_step ?_ ?_
    | with_reducible refine onMsg_step ?_ ?_ ?_
    | with_reducible refine setR_step ?_ ?_ ?_
    | with_reducible refine updateTime_step ?_ ?_
    | with_reducible refine Agree.ite ?_ ?_
    | dsimp only
    | split
    | (with_reducible refine Agree.of_pair (by assumption) ?_)
    | (with_reducible refine Agree.of_pair2 (by assumption) ?_)
    | (with_reducible refine AgreeO.of ?_ (by assumption))
    | intro _
theorem execHello_step {M s0} {k : Nat} {s : State} (hs : bitsIn 0x100000000000000040016021c750020001bc040800000020300003000000004037a06ff0070384c7bc0 M = true) (hA : Agree M s0 s) : AgreeO M s0 (execHello k s) :=
  hA.stepO hs (execHello_frame k s)

theorem execAdvert_frame (k : Nat) (s : State) : AgreeO 0x100000000000000040016021c050020001bc040800000020300003000000004037a06ff0070384c7bc0 s (execAdvert k s) := by
  unfold execAdvert
  repeat' first
    | with_reducible assumption
    | with_reducible exact Agree.refl _ _
    | exact bitsIn_rfl rfl
    | exact regIn_rfl rfl rfl
    | with_reducible refine AgreeO.next ?_
    | with_reducible refine AgreeO.ite ?_ ?_
    | with_reducible exact AgreeO.refused
    | with_reducible exact AgreeO.fault
    | with_reducible refine countR_step ?_ ?_ ?_
    | with_reducible refine hearPeer_step ?_ ?_
    | with_reducible refine modPort_step ?_ ?_
    | with_reducible refine onMsg_step ?_ ?_ ?_
    | with_reducible refine updateTime_step ?_ ?_
    | with_reducible refine Agree.ite ?_ ?_
    | (with_reducible refine Agree.foldl ?_ ?_; intro _ _ _)
    | (with_reducible refine Agree.foldl2 ?_ ?_; intro _ _ _)
    | (with_reducible refine Agree.foldl3 ?_ ?_; intro _ _ _)
    | (with_reducible refine Agree.foldl4 ?_ ?_; intro _ _ _)
    | dsimp only
    | split
    | (with_reducible refine Agree.of_pair (by assumption) ?_)
    | (with_reducible refine Agree.of_pair2 (by assumption) ?_)
    | (with_reducible refine AgreeO.of ?_ (by assumption))
    | intro _
theorem execAdvert_step {M s0} {k : Nat} {s : State} (hs : bitsIn 0x100000000000000040016021c050020001bc040800000020300003000000004037a06ff0070384c7bc0 M = true) (hA : Agree M s0 s) : AgreeO M s0 (execAdvert k s) :=
  hA.stepO hs (execAdvert_frame k s)

theorem execPeerAgeExpiry_frame (k : Nat) (s : State) : AgreeO 0x100000000000000040016021c050020001bc040800000020300003000000004037a06ff0070384c7bc0 s (execPeerAgeExpiry k s) := by
  unfold execPeerAgeExpiry
  repeat' first
    | with_reducible assumption
    | with_reducible exact Agree.refl _ _
    | exact bitsIn_rfl rfl
    | exact regIn_rfl rfl rfl
    | with_reducible refine AgreeO.next ?_
    | with_reducible refine AgreeO.ite ?_ ?_
    | with_reducible exact AgreeO.refused
    | with_reducible exact AgreeO.fault
    | with_reducible refine losePeer_step ?_ ?_
    | with_reducible refine setF_step ?_ ?_ ?_
    | with_reducible refine updateTime_step ?_ ?_
    | ((conv => arg 3; arg 88; skip); with_reducible first | refine upd_peers ?_ ?_)
    | with_reducible refine Agree.ite ?_ ?_
    | dsimp only
    | split
    | (with_reducible refine Agree.of_pair (by assumption) ?_)
    | (with_reducible refine Agree.of_pair2 (by assumption) ?_)
    | intro _
theorem execPeerAgeExpiry_step {M s0} {k : Nat} {s : State} (hs : bitsIn 0x100000000000000040016021c050020001bc040800000020300003000000004037a06ff0070384c7bc0 M = true) (hA : Agree M s0 s) : AgreeO M s0 (execPeerAgeExpiry k s) :=
  hA.stepO hs (execPeerAgeExpiry_frame k s)

theorem execLinkIdle_frame (k : Nat) (s : State) : AgreeO 0x100100000000000000000000000000000000000000000090000000000040 s (execLinkIdle k s) := by
  unfold execLinkIdle
  repeat' first
    | with_reducible assumption
    | with_reducible exact Agree.refl _ _
    | exact bitsIn_rfl rfl
    | exact regIn_rfl rfl rfl
    | with_reducible refine AgreeO.next ?_
    | with_reducible refine AgreeO.ite ?_ ?_
    | with_reducible exact AgreeO.refused
    | with_reducible exact AgreeO.fault
    | with_reducible refine onMsg_step ?_ ?_ ?_
    | with_reducible refine setF_step ?_ ?_ ?_
    | with_reducible refine updateTime_step ?_ ?_
    | ((conv => arg 3; arg 88; skip); with_reducible first | refine upd_peers ?_ ?_)
    | with_reducible refine Agree.ite ?_ ?_
    | dsimp only
    | split
    | (with_reducible refine Agree.of_pair (by assumption) ?_)
    | (with_reducible refine Agree.of_pair2 (by assumption) ?_)
    | (with_reducible refine AgreeO.of ?_ (by assumption))
    | intro _
theorem execLinkIdle_step {M s0} {k : Nat} {s : State} (hs : bitsIn 0x100100000000000000000000000000000000000000000090000000000040 M = true) (hA : Agree M s0 s) : AgreeO M s0 (execLinkIdle k s) :=
  hA.stepO hs (execLinkIdle_frame k s)

theorem execPeerNotice_frame (k : Nat) (s : State) : AgreeO 0x4001000100100000008000000000000000000000000000400400410000000002040 s (execPeerNotice k s) := by
  unfold execPeerNotice
  repeat' first
    | with_reducible assumption
    | with_reducible exact Agree.refl _ _
    | exact bitsIn_rfl rfl
    | exact regIn_rfl rfl rfl
    | with_reducible refine AgreeO.next ?_
    | with_reducible refine AgreeO.ite ?_ ?_
    | with_reducible exact AgreeO.refused
    | with_reducible exact AgreeO.fault
    | with_reducible refine failColls_step ?_ ?_
    | with_reducible refine onMsg_step ?_ ?_ ?_
    | with_reducible refine setF_step ?_ ?_ ?_
    | with_reducible refine updateTime_step ?_ ?_
    | with_reducible refine Agree.ite ?_ ?_
    | dsimp only
    | split
    | (with_reducible refine Agree.of_pair (by assumption) ?_)
    | (with_reducible refine Agree.of_pair2 (by assumption) ?_)
    | (with_reducible refine AgreeO.of ?_ (by assumption))
    | intro _
theorem execPeerNotice_step {M s0} {k : Nat} {s : State} (hs : bitsIn 0x4001000100100000008000000000000000000000000000400400410000000002040 M = true) (hA : Agree M s0 s) : AgreeO M s0 (execPeerNotice k s) :=
  hA.stepO hs (execPeerNotice_frame k s)

theorem execHelloSend_frame (s : State) : AgreeO 0x40000000000000000000000000000000000000000001008000000000000 s (execHelloSend s) := by
  unfold execHelloSend
  repeat' first
    | with_reducible assumption
    | with_reducible exact Agree.refl _ _
    | exact bitsIn_rfl rfl
    | exact regIn_rfl rfl rfl
    | with_reducible refine AgreeO.next ?_
    | with_reducible refine AgreeO.ite ?_ ?_
    | with_reducible exact AgreeO.refused
    | with_reducible exact AgreeO.fault
    | with_reducible refine sendOn_step ?_ ?_
    | ((conv => arg 3; arg 88; skip); with_reducible first | refine upd_lastHello ?_ ?_)
    | with_reducible refine Agree.ite ?_ ?_
    | (with_reducible refine Agree.foldl ?_ ?_; intro _ _ _)
    | (with_reducible refine Agree.foldl2 ?_ ?_; intro _ _ _)
    | (with_reducible refine Agree.foldl3 ?_ ?_; intro _ _ _)
    | (with_reducible refine Agree.foldl4 ?_ ?_; intro _ _ _)
    | dsimp only
    | split
    | (with_reducible refine Agree.of_pair (by assumption) ?_)
    | (with_reducible refine Agree.of_pair2 (by assumption) ?_)
    | intro _
theorem execHelloSend_step {M s0} {s : State} (hs : bitsIn 0x40000000000000000000000000000000000000000001008000000000000 M = true) (hA : Agree M s0 s) : AgreeO M s0 (execHelloSend s) :=
  hA.stepO hs (execHelloSend_frame s)

theorem execAdvertSend_frame (s : State) : AgreeO 0x40000000000000000000000000000000000000000002008000000000000 s (execAdvertSend s) := by
  unfold execAdvertSend
  repeat' first
    | with_reducible assumption
    | with_reducible exact Agree.refl _ _
    | exact bitsIn_rfl rfl
    | exact regIn_rfl rfl rfl
    | with_reducible refine AgreeO.next ?_
    | with_reducible refine AgreeO.ite ?_ ?_
    | with_reducible exact AgreeO.refused
    | with_reducible exact AgreeO.fault
    | with_reducible refine sendOn_step ?_ ?_
    | ((conv => arg 3; arg 88; skip); with_reducible first | refine upd_lastAdvert ?_ ?_)
    | with_reducible refine Agree.ite ?_ ?_
    | (with_reducible refine Agree.foldl ?_ ?_; intro _ _ _)
    | (with_reducible refine Agree.foldl2 ?_ ?_; intro _ _ _)
    | (with_reducible refine Agree.foldl3 ?_ ?_; intro _ _ _)
    | (with_reducible refine Agree.foldl4 ?_ ?_; intro _ _ _)
    | dsimp only
    | split
    | (with_reducible refine Agree.of_pair (by assumption) ?_)
    | (with_reducible refine Agree.of_pair2 (by assumption) ?_)
    | intro _
theorem execAdvertSend_step {M s0} {s : State} (hs : bitsIn 0x40000000000000000000000000000000000000000002008000000000000 M = true) (hA : Agree M s0 s) : AgreeO M s0 (execAdvertSend s) :=
  hA.stepO hs (execAdvertSend_frame s)

theorem execEncReq_frame (k : Nat) (tagBad : Bool) (s : State) : AgreeO 0x820000000000000000047500000000000000000000000000000000000048000058000000000040 s (execEncReq k tagBad s) := by
  unfold execEncReq
  repeat' first
    | with_reducible assumption
    | with_reducible exact Agree.refl _ _
    | exact bitsIn_rfl rfl
    | exact regIn_rfl rfl rfl
    | with_reducible refine AgreeO.next ?_
    | with_reducible refine AgreeO.ite ?_ ?_
    | with_reducible exact AgreeO.refused
    | with_reducible exact AgreeO.fault
    | with_reducible refine failKey_step ?_ ?_
    | with_reducible refine keyPort_step ?_ ?_
    | with_reducible refine modPort_step ?_ ?_
    | with_reducible refine onMsg_step ?_ ?_ ?_
    | with_reducible refine pump_step ?_ ?_
    | with_reducible refine sendOn_step ?_ ?_
    | with_reducible refine Agree.ite ?_ ?_
    | dsimp only
    | split
    | (with_reducible refine Agree.of_pair (by assumption) ?_)
    | (with_reducible refine Agree.of_pair2 (by assumption) ?_)
    | (with_reducible refine AgreeO.of ?_ (by assumption))
    | intro _
theorem execEncReq_step {M s0} {k : Nat} {tagBad : Bool} {s : State} (hs : bitsIn 0x820000000000000000047500000000000000000000000000000000000048000058000000000040 M = true) (hA : Agree M s0 s) : AgreeO M s0 (execEncReq k tagBad s) :=
  hA.stepO hs (execEncReq_frame k tagBad s)

theorem execTime_frame (k : Nat) (s : State) : AgreeO 0x100000000000000000000000000000000000000000010000000000058 s (execTime k s) := by
  unfold execTime
  repeat' first
    | with_reducible assumption
    | with_reducible exact Agree.refl _ _
    | exact bitsIn_rfl rfl
    | exact regIn_rfl rfl rfl
    | with_reducible refine AgreeO.next ?_
    | with_reducible refine AgreeO.ite ?_ ?_
    | with_reducible exact AgreeO.refused
    | with_reducible exact AgreeO.fault
    | with_reducible refine onMsg_step ?_ ?_ ?_
    | with_reducible refine setF_step ?_ ?_ ?_
    | ((conv => arg 3; arg 88; skip); with_reducible first | refine upd_synced ?_ ?_ | refine upd_timeSlew ?_ ?_ | refine upd_now_timeSlew ?_ ?_ | refine upd_timeSlew_synced ?_ ?_ | refine upd_now_timeSlew_synced ?_ ?_)
    | with_reducible refine Agree.ite ?_ ?_
    | dsimp only
    | split
    | (with_reducible refine Agree.of_pair (by assumption) ?_)
    | (with_reducible refine Agree.of_pair2 (by assumption) ?_)
    | (with_reducible refine AgreeO.of ?_ (by assumption))
    | intro _
theorem execTime_step {M s0} {k : Nat} {s : State} (hs : bitsIn 0x100000000000000000000000000000000000000000010000000000058 M = true) (hA : Agree M s0 s) : AgreeO M s0 (execTime k s) :=
  hA.stepO hs (execTime_frame k s)

theorem execTimeSend_frame (s : State) : AgreeO 0x40000000000000000000000000000000000000000004008000000000000 s (execTimeSend s) := by
  unfold execTimeSend
  repeat' first
    | with_reducible assumption
    | with_reducible exact Agree.refl _ _
    | exact bitsIn_rfl rfl
    | exact regIn_rfl rfl rfl
    | with_reducible refine AgreeO.next ?_
    | with_reducible refine AgreeO.ite ?_ ?_
    | with_reducible exact AgreeO.refused
    | with_reducible exact AgreeO.fault
    | with_reducible refine sendOn_step ?_ ?_
    | ((conv => arg 3; arg 88; skip); with_reducible first | refine upd_lastTime ?_ ?_)
    | with_reducible refine Agree.ite ?_ ?_
    | (with_reducible refine Agree.foldl ?_ ?_; intro _ _ _)
    | (with_reducible refine Agree.foldl2 ?_ ?_; intro _ _ _)
    | (with_reducible refine Agree.foldl3 ?_ ?_; intro _ _ _)
    | (with_reducible refine Agree.foldl4 ?_ ?_; intro _ _ _)
    | dsimp only
    | split
    | (with_reducible refine Agree.of_pair (by assumption) ?_)
    | (with_reducible refine Agree.of_pair2 (by assumption) ?_)
    | intro _
theorem execTimeSend_step {M s0} {s : State} (hs : bitsIn 0x40000000000000000000000000000000000000000004008000000000000 M = true) (hA : Agree M s0 s) : AgreeO M s0 (execTimeSend s) :=
  hA.stepO hs (execTimeSend_frame s)

theorem setCustody_frame (s : State) (ctr w : Nat) : Agree 0x204040000000000000000000000000030000000000008014f000000001280 s (setCustody s ctr w) := by
  unfold setCustody
  repeat' first
    | with_reducible assumption
    | with_reducible exact Agree.refl _ _
    | exact bitsIn_rfl rfl
    | exact regIn_rfl rfl rfl
    | with_reducible refine releaseGe_step ?_ ?_
    | with_reducible refine setR_step ?_ ?_ ?_
    | with_reducible refine silkRelease_step ?_ ?_
    | ((conv => arg 3; arg 88; skip); with_reducible first | refine upd_custody ?_ ?_ | refine upd_silkWaiters ?_ ?_)
    | with_reducible refine Agree.ite ?_ ?_
    | (with_reducible refine Agree.foldl ?_ ?_; intro _ _ _)
    | (with_reducible refine Agree.foldl2 ?_ ?_; intro _ _ _)
    | (with_reducible refine Agree.foldl3 ?_ ?_; intro _ _ _)
    | (with_reducible refine Agree.foldl4 ?_ ?_; intro _ _ _)
    | dsimp only
    | split
    | (with_reducible refine Agree.of_pair (by assumption) ?_)
    | (with_reducible refine Agree.of_pair2 (by assumption) ?_)
    | intro _
theorem setCustody_step {M s0} {s : State} {ctr w : Nat} (hs : bitsIn 0x204040000000000000000000000000030000000000008014f000000001280 M = true) (hA : Agree M s0 s) : Agree M s0 (setCustody s ctr w) :=
  hA.step hs (setCustody_frame s ctr w)

theorem custPerform_frame (s : State) (op q arg : Nat) : Agree 0x204040000000000000000000000000030000000000008014f000000001280 s (custPerform s op q arg).2 := by
  unfold custPerform
  repeat' first
    | with_reducible assumption
    | with_reducible exact Agree.refl _ _
    | exact bitsIn_rfl rfl
    | exact regIn_rfl rfl rfl
    | with_reducible refine setCustody_step ?_ ?_
    | with_reducible refine Agree.ite ?_ ?_
    | dsimp only
    | split
    | (with_reducible refine Agree.of_pair (by assumption) ?_)
    | (with_reducible refine Agree.of_pair2 (by assumption) ?_)
    | intro _
theorem custPerform_step {M s0} {s : State} {op q arg : Nat} (hs : bitsIn 0x204040000000000000000000000000030000000000008014f000000001280 M = true) (hA : Agree M s0 s) : Agree M s0 (custPerform s op q arg).2 :=
  hA.step hs (custPerform_frame s op q arg)

theorem execCustody_frame (k : Nat) (s : State) : AgreeO 0x400000000060a44040000000000000000000000000030000000000008035f000000001280 s (execCustody k s) := by
  unfold execCustody
  repeat' first
    | with_reducible assumption
    | with_reducible exact Agree.refl _ _
    | exact bitsIn_rfl rfl
    | exact regIn_rfl rfl rfl
    | with_reducible refine AgreeO.next ?_
    | with_reducible refine AgreeO.ite ?_ ?_
    | with_reducible exact AgreeO.refused
    | with_reducible exact AgreeO.fault
    | with_reducible refine countR_step ?_ ?_ ?_
    | with_reducible refine custPerform_step ?_ ?_
    | with_reducible refine custodyEnd_step ?_ ?_
    | with_reducible refine lateAnswer_step ?_ ?_
    | with_reducible refine onMsg_step ?_ ?_ ?_
    | with_reducible refine sendOrDrop_step ?_ ?_
    | ((conv => arg 3; arg 88; skip); with_reducible first | refine upd_linkIn ?_ ?_)
    | with_reducible refine Agree.ite ?_ ?_
    | dsimp only
    | split
    | (with_reducible refine Agree.of_pair (by assumption) ?_)
    | (with_reducible refine Agree.of_pair2 (by assumption) ?_)
    | (with_reducible refine AgreeO.of ?_ (by assumption))
    | intro _
theorem execCustody_step {M s0} {k : Nat} {s : State} (hs : bitsIn 0x400000000060a44040000000000000000000000000030000000000008035f000000001280 M = true) (hA : Agree M s0 s) : AgreeO M s0 (execCustody k s) :=
  hA.stepO hs (execCustody_frame k s)

theorem custStart_frame (s : State) (op : Nat) : Agree 0x600040000000000000000000000000000000000000000000258000000000180 s (custStart s op) := by
  unfold custStart
  repeat' first
    | with_reducible assumption
    | with_reducible exact Agree.refl _ _
    | exact bitsIn_rfl rfl
    | exact regIn_rfl rfl rfl
    | with_reducible refine custodyFail_step ?_ ?_
    | with_reducible refine fresh_step ?_ ?_
    | with_reducible refine sendMsg_step ?_ ?_
    | with_reducible refine setF_step ?_ ?_ ?_
    | ((conv => arg 3; arg 88; skip); with_reducible first | refine upd_custOp ?_ ?_ | refine upd_linkIn ?_ ?_)
    | with_reducible refine Agree.ite ?_ ?_
    | dsimp only
    | split
    | (with_reducible refine Agree.of_pair (by assumption) ?_)
    | (with_reducible refine Agree.of_pair2 (by assumption) ?_)
    | (with_reducible refine AgreeP.of ?_ (by assumption))
    | intro _
theorem custStart_step {M s0} {s : State} {op : Nat} (hs : bitsIn 0x600040000000000000000000000000000000000000000000258000000000180 M = true) (hA : Agree M s0 s) : Agree M s0 (custStart s op) :=
  hA.step hs (custStart_frame s op)

theorem execInit_frame (s : State) : AgreeO 0x600040000000000000000000000000000000000000000000258000000000180 s (execInit s) := by
  unfold execInit
  repeat' first
    | with_reducible assumption
    | with_reducible exact Agree.refl _ _
    | exact bitsIn_rfl rfl
    | exact regIn_rfl rfl rfl
    | with_reducible refine AgreeO.next ?_
    | with_reducible refine AgreeO.ite ?_ ?_
    | with_reducible exact AgreeO.refused
    | with_reducible exact AgreeO.fault
    | with_reducible refine custStart_step ?_ ?_
    | with_reducible refine Agree.ite ?_ ?_
    | dsimp only
    | split
    | (with_reducible refine Agree.of_pair (by assumption) ?_)
    | (with_reducible refine Agree.of_pair2 (by assumption) ?_)
    | intro _
theorem execInit_step {M s0} {s : State} (hs : bitsIn 0x600040000000000000000000000000000000000000000000258000000000180 M = true) (hA : Agree M s0 s) : AgreeO M s0 (execInit s) :=
  hA.stepO hs (execInit_frame s)

theorem execOffer_frame (s : State) : AgreeO 0x600040000000000000000000000000000000000000000000258000000000180 s (execOffer s) := by
  unfold execOffer
  repeat' first
    | with_reducible assumption
    | with_reducible exact Agree.refl _ _
    | exact bitsIn_rfl rfl
    | exact regIn_rfl rfl rfl
    | with_reducible refine AgreeO.next ?_
    | with_reducible refine AgreeO.ite ?_ ?_
    | with_reducible exact AgreeO.refused
    | with_reducible exact AgreeO.fault
    | with_reducible refine custStart_step ?_ ?_
    | with_reducible refine Agree.ite ?_ ?_
    | dsimp only
    | split
    | (with_reducible refine Agree.of_pair (by assumption) ?_)
    | (with_reducible refine Agree.of_pair2 (by assumption) ?_)
    | intro _
theorem execOffer_step {M s0} {s : State} (hs : bitsIn 0x600040000000000000000000000000000000000000000000258000000000180 M = true) (hA : Agree M s0 s) : AgreeO M s0 (execOffer s) :=
  hA.stepO hs (execOffer_frame s)

theorem execAccept_frame (s : State) : AgreeO 0x600040000000000000000000000000000000000000000000258000000000180 s (execAccept s) := by
  unfold execAccept
  repeat' first
    | with_reducible assumption
    | with_reducible exact Agree.refl _ _
    | exact bitsIn_rfl rfl
    | exact regIn_rfl rfl rfl
    | with_reducible refine AgreeO.next ?_
    | with_reducible refine AgreeO.ite ?_ ?_
    | with_reducible exact AgreeO.refused
    | with_reducible exact AgreeO.fault
    | with_reducible refine custStart_step ?_ ?_
    | with_reducible refine Agree.ite ?_ ?_
    | dsimp only
    | split
    | (with_reducible refine Agree.of_pair (by assumption) ?_)
    | (with_reducible refine Agree.of_pair2 (by assumption) ?_)
    | intro _
theorem execAccept_step {M s0} {s : State} (hs : bitsIn 0x600040000000000000000000000000000000000000000000258000000000180 M = true) (hA : Agree M s0 s) : AgreeO M s0 (execAccept s) :=
  hA.stepO hs (execAccept_frame s)

theorem execRelease_frame (s : State) : AgreeO 0x600040000000000000000000000000000000000000000000258000000000180 s (execRelease s) := by
  unfold execRelease
  repeat' first
    | with_reducible assumption
    | with_reducible exact Agree.refl _ _
    | exact bitsIn_rfl rfl
    | exact regIn_rfl rfl rfl
    | with_reducible refine AgreeO.next ?_
    | with_reducible refine AgreeO.ite ?_ ?_
    | with_reducible exact AgreeO.refused
    | with_reducible exact AgreeO.fault
    | with_reducible refine custStart_step ?_ ?_
    | with_reducible refine Agree.ite ?_ ?_
    | dsimp only
    | split
    | (with_reducible refine Agree.of_pair (by assumption) ?_)
    | (with_reducible refine Agree.of_pair2 (by assumption) ?_)
    | intro _
theorem execRelease_step {M s0} {s : State} (hs : bitsIn 0x600040000000000000000000000000000000000000000000258000000000180 M = true) (hA : Agree M s0 s) : AgreeO M s0 (execRelease s) :=
  hA.stepO hs (execRelease_frame s)

theorem execReclaim_frame (s : State) : AgreeO 0x600040000000000000000000000000000000000000000000258000000000180 s (execReclaim s) := by
  unfold execReclaim
  repeat' first
    | with_reducible assumption
    | with_reducible exact Agree.refl _ _
    | exact bitsIn_rfl rfl
    | exact regIn_rfl rfl rfl
    | with_reducible refine AgreeO.next ?_
    | with_reducible refine AgreeO.ite ?_ ?_
    | with_reducible exact AgreeO.refused
    | with_reducible exact AgreeO.fault
    | with_reducible refine custStart_step ?_ ?_
    | with_reducible refine Agree.ite ?_ ?_
    | dsimp only
    | split
    | (with_reducible refine Agree.of_pair (by assumption) ?_)
    | (with_reducible refine Agree.of_pair2 (by assumption) ?_)
    | intro _
theorem execReclaim_step {M s0} {s : State} (hs : bitsIn 0x600040000000000000000000000000000000000000000000258000000000180 M = true) (hA : Agree M s0 s) : AgreeO M s0 (execReclaim s) :=
  hA.stepO hs (execReclaim_frame s)

theorem execCustodyRead_frame (s : State) : AgreeO 0x600040000000000000000000000000000000000000000000258000000000180 s (execCustodyRead s) := by
  unfold execCustodyRead
  repeat' first
    | with_reducible assumption
    | with_reducible exact Agree.refl _ _
    | exact bitsIn_rfl rfl
    | exact regIn_rfl rfl rfl
    | with_reducible refine AgreeO.next ?_
    | with_reducible refine AgreeO.ite ?_ ?_
    | with_reducible exact AgreeO.refused
    | with_reducible exact AgreeO.fault
    | with_reducible refine custStart_step ?_ ?_
    | with_reducible refine Agree.ite ?_ ?_
    | dsimp only
    | split
    | (with_reducible refine Agree.of_pair (by assumption) ?_)
    | (with_reducible refine Agree.of_pair2 (by assumption) ?_)
    | intro _
theorem execCustodyRead_step {M s0} {s : State} (hs : bitsIn 0x600040000000000000000000000000000000000000000000258000000000180 M = true) (hA : Agree M s0 s) : AgreeO M s0 (execCustodyRead s) :=
  hA.stepO hs (execCustodyRead_frame s)

theorem execCustodyUnreachable_frame (s : State) : AgreeO 0x600000000000000000000000000000000000000000000000200000000000080 s (execCustodyUnreachable s) := by
  unfold execCustodyUnreachable
  repeat' first
    | with_reducible assumption
    | with_reducible exact Agree.refl _ _
    | exact bitsIn_rfl rfl
    | exact regIn_rfl rfl rfl
    | with_reducible refine AgreeO.next ?_
    | with_reducible refine AgreeO.ite ?_ ?_
    | with_reducible exact AgreeO.refused
    | with_reducible exact AgreeO.fault
    | with_reducible refine custodyFail_step ?_ ?_
    | with_reducible refine Agree.ite ?_ ?_
    | dsimp only
    | split
    | (with_reducible refine Agree.of_pair (by assumption) ?_)
    | (with_reducible refine Agree.of_pair2 (by assumption) ?_)
    | intro _
theorem execCustodyUnreachable_step {M s0} {s : State} (hs : bitsIn 0x600000000000000000000000000000000000000000000000200000000000080 M = true) (hA : Agree M s0 s) : AgreeO M s0 (execCustodyUnreachable s) :=
  hA.stepO hs (execCustodyUnreachable_frame s)

end Sys2Proof.Machine
end

