-- ==== Sys2Proof/Laws/FrameCollective.lean ====
section
/-!
SUPPORT. The frame of every function of Machine/Collective.lean that answers a state: the fields it can change, by mask.
-/

set_option linter.unusedTactic false
set_option linter.unreachableTactic false
set_option linter.unusedVariables false

namespace Sys2Proof.Machine

theorem collPut_frame (s : State) (slot : SlotInfo) (q c : Nat) (l : List (Nat × List Byte × Nat)) : Agree 0x400000000000000000404302800000040800001800000020000000000000000580000c04fc180 s (collPut s slot q c l).2 := by
  unfold collPut
  repeat' first
    | with_reducible assumption
    | with_reducible exact Agree.refl _ _
    | exact bitsIn_rfl rfl
    | exact regIn_rfl rfl rfl
    | with_reducible refine devAccess_step ?_ ?_ ?_
    | with_reducible refine devPut_step ?_ ?_
    | with_reducible refine Agree.ite ?_ ?_
    | (with_reducible refine Agree.foldl ?_ ?_; intro _ _ _)
    | (with_reducible refine Agree.foldl2 ?_ ?_; intro _ _ _)
    | (with_reducible refine Agree.foldl3 ?_ ?_; intro _ _ _)
    | (with_reducible refine Agree.foldl4 ?_ ?_; intro _ _ _)
    | dsimp only
    | split
    | (with_reducible refine Agree.of_pair (by assumption) ?_)
    | (with_reducible refine Agree.of_pair2 (by assumption) ?_)
    | intro _
theorem collPut_step {M s0} {s : State} {slot : SlotInfo} {q c : Nat} {l : List (Nat × List Byte × Nat)} (hs : bitsIn 0x400000000000000000404302800000040800001800000020000000000000000580000c04fc180 M = true) (hA : Agree M s0 s) : Agree M s0 (collPut s slot q c l).2 :=
  hA.step hs (collPut_frame s slot q c l)

theorem collLines_frame (s : State) (slot : SlotInfo) (q c va n : Nat) : Agree 0x400000000000000000404102800000040800001800000020000000000000000580000c04fc180 s (collLines s slot q c va n).2 := by
  unfold collLines
  repeat' first
    | with_reducible assumption
    | with_reducible exact Agree.refl _ _
    | exact bitsIn_rfl rfl
    | exact regIn_rfl rfl rfl
    | with_reducible refine devFetch_step ?_ ?_
    | with_reducible refine Agree.ite ?_ ?_
    | dsimp only
    | split
    | (with_reducible refine Agree.of_pair (by assumption) ?_)
    | (with_reducible refine Agree.of_pair2 (by assumption) ?_)
    | intro _
theorem collLines_step {M s0} {s : State} {slot : SlotInfo} {q c va n : Nat} (hs : bitsIn 0x400000000000000000404102800000040800001800000020000000000000000580000c04fc180 M = true) (hA : Agree M s0 s) : Agree M s0 (collLines s slot q c va n).2 :=
  hA.step hs (collLines_frame s slot q c va n)

theorem collBytes_frame (s : State) (l : List Nat) (rd wr : Nat) : Agree 0xc0000000000000000000000000000000000000000000000000 s (collBytes s l rd wr) := by
  unfold collBytes
  repeat' first
    | with_reducible assumption
    | with_reducible exact Agree.refl _ _
    | exact bitsIn_rfl rfl
    | exact regIn_rfl rfl rfl
    | with_reducible refine countR_step ?_ ?_ ?_
    | with_reducible refine Agree.ite ?_ ?_
    | dsimp only
    | split
    | (with_reducible refine Agree.of_pair (by assumption) ?_)
    | (with_reducible refine Agree.of_pair2 (by assumption) ?_)
    | intro _
theorem collBytes_step {M s0} {s : State} {l : List Nat} {rd wr : Nat} (hs : bitsIn 0xc0000000000000000000000000000000000000000000000000 M = true) (hA : Agree M s0 s) : Agree M s0 (collBytes s l rd wr) :=
  hA.step hs (collBytes_frame s l rd wr)

theorem collFree_frame (s : State) (l : List Nat) : Agree 0x28000000000000000000000000000000000000000000002000 s (collFree s l) := by
  unfold collFree
  repeat' first
    | with_reducible assumption
    | with_reducible exact Agree.refl _ _
    | exact bitsIn_rfl rfl
    | exact regIn_rfl rfl rfl
    | with_reducible refine countR_step ?_ ?_ ?_
    | with_reducible refine leaveChan_step ?_ ?_
    | with_reducible refine Agree.ite ?_ ?_
    | (with_reducible refine Agree.foldl ?_ ?_; intro _ _ _)
    | (with_reducible refine Agree.foldl2 ?_ ?_; intro _ _ _)
    | (with_reducible refine Agree.foldl3 ?_ ?_; intro _ _ _)
    | (with_reducible refine Agree.foldl4 ?_ ?_; intro _ _ _)
    | dsimp only
    | split
    | (with_reducible refine Agree.of_pair (by assumption) ?_)
    | (with_reducible refine Agree.of_pair2 (by assumption) ?_)
    | intro _
theorem collFree_step {M s0} {s : State} {l : List Nat} (hs : bitsIn 0x28000000000000000000000000000000000000000000002000 M = true) (hA : Agree M s0 s) : Agree M s0 (collFree s l) :=
  hA.step hs (collFree_frame s l)

theorem collMiss_frame (s : State) (id : Nat) (c : Cmd) (rights : Nat) (r : DevRes) : Agree 0x404002000020040800000120000000000000000004000780005184c7180 s (collMiss s id c rights r) := by
  unfold collMiss
  repeat' first
    | with_reducible assumption
    | with_reducible exact Agree.refl _ _
    | exact bitsIn_rfl rfl
    | exact regIn_rfl rfl rfl
    | with_reducible refine cmdStall_step ?_ ?_
    | with_reducible refine endCmd_step ?_ ?_
    | with_reducible refine Agree.ite ?_ ?_
    | dsimp only
    | split
    | (with_reducible refine Agree.of_pair (by assumption) ?_)
    | (with_reducible refine Agree.of_pair2 (by assumption) ?_)
    | intro _
theorem collMiss_step {M s0} {s : State} {id : Nat} {c : Cmd} {rights : Nat} {r : DevRes} (hs : bitsIn 0x404002000020040800000120000000000000000004000780005184c7180 M = true) (hA : Agree M s0 s) : Agree M s0 (collMiss s id c rights r) :=
  hA.step hs (collMiss_frame s id c rights r)

theorem execCollective_frame (id : Nat) (s : State) : AgreeO 0x4000000000000000004041028000a0040800001920000020000000000004004780005d84ff180 s (execCollective id s) := by
  unfold execCollective
  repeat' first
    | with_reducible assumption
    | with_reducible exact Agree.refl _ _
    | exact bitsIn_rfl rfl
    | exact regIn_rfl rfl rfl
    | with_reducible refine AgreeO.next ?_
    | with_reducible refine AgreeO.ite ?_ ?_
    | with_reducible exact AgreeO.refused
    | with_reducible exact AgreeO.fault
    | with_reducible refine cmdRead_step ?_ ?_ ?_
    | with_reducible refine collSendMsg_step ?_ ?_
    | with_reducible refine devDone_step ?_ ?_
    | with_reducible refine endCmd_step ?_ ?_
    | with_reducible refine freeColl_step ?_ ?_
    | with_reducible refine fresh_step ?_ ?_
    | with_reducible refine modColl_step ?_ ?_
    | ((conv => arg 3; arg 88; skip); with_reducible first | refine upd_colls ?_ ?_)
    | with_reducible refine Agree.ite ?_ ?_
    | (with_reducible refine Agree.foldl ?_ ?_; intro _ _ _)
    | (with_reducible refine Agree.foldl2 ?_ ?_; intro _ _ _)
    | (with_reducible refine Agree.foldl3 ?_ ?_; intro _ _ _)
    | (with_reducible refine Agree.foldl4 ?_ ?_; intro _ _ _)
    | dsimp only
    | split
    | (with_reducible refine Agree.of_pair (by assumption) ?_)
    | (with_reducible refine Agree.of_pair2 (by assumption) ?_)
    | intro _
theorem execCollective_step {M s0} {id : Nat} {s : State} (hs : bitsIn 0x4000000000000000004041028000a0040800001920000020000000000004004780005d84ff180 M = true) (hA : Agree M s0 s) : AgreeO M s0 (execCollective id s) :=
  hA.stepO hs (execCollective_frame id s)

theorem collTouch_frame (s : State) (id k : Nat) (begun : Bool) (f : Coll → Coll) : Agree 0x400400000000000000 s (collTouch s id k begun f) := by
  unfold collTouch
  repeat' first
    | with_reducible assumption
    | with_reducible exact Agree.refl _ _
    | exact bitsIn_rfl rfl
    | with_reducible refine modCmd_step ?_ ?_
    | with_reducible refine modColl_step ?_ ?_
    | with_reducible refine Agree.ite ?_ ?_
    | dsimp only
    | split
    | (with_reducible refine Agree.of_pair (by assumption) ?_)
    | (with_reducible refine Agree.of_pair2 (by assumption) ?_)
    | intro _
theorem collTouch_step {M s0} {s : State} {id k : Nat} {begun : Bool} {f : Coll → Coll} (hs : bitsIn 0x400400000000000000 M = true) (hA : Agree M s0 s) : Agree M s0 (collTouch s id k begun f) :=
  hA.step hs (collTouch_frame s id k begun f)

theorem sendPut_frame (s : State) (c : Cmd) (m : LinkMsg) : Agree 0x40000000000004080000000000000000000000000000058000000400000 s (sendPut s c m) := by
  unfold sendPut
  repeat' first
    | with_reducible assumption
    | with_reducible exact Agree.refl _ _
    | exact bitsIn_rfl rfl
    | exact regIn_rfl rfl rfl
    | with_reducible refine collSendMsg_step ?_ ?_
    | with_reducible refine regulate_step ?_ ?_
    | with_reducible refine Agree.ite ?_ ?_
    | dsimp only
    | split
    | (with_reducible refine Agree.of_pair (by assumption) ?_)
    | (with_reducible refine Agree.of_pair2 (by assumption) ?_)
    | intro _
theorem sendPut_step {M s0} {s : State} {c : Cmd} {m : LinkMsg} (hs : bitsIn 0x40000000000004080000000000000000000000000000058000000400000 M = true) (hA : Agree M s0 s) : Agree M s0 (sendPut s c m) :=
  hA.step hs (sendPut_frame s c m)

theorem execCollSendAction_frame (id : Nat) (s : State) : AgreeO 0x400000000000000000404302800c20040800001920000020000000000004004780005d84ff180 s (execCollSendAction id s) := by
  unfold execCollSendAction
  repeat' first
    | with_reducible assumption
    | with_reducible exact Agree.refl _ _
    | exact bitsIn_rfl rfl
    | exact regIn_rfl rfl rfl
    | with_reducible refine AgreeO.next ?_
    | with_reducible refine AgreeO.ite ?_ ?_
    | with_reducible exact AgreeO.refused
    | with_reducible exact AgreeO.fault
    | with_reducible refine collBytes_step ?_ ?_
    | with_reducible refine collLines_step ?_ ?_
    | with_reducible refine collMiss_step ?_ ?_
    | with_reducible refine collPut_step ?_ ?_
    | with_reducible refine collTouch_step ?_ ?_
    | with_reducible refine devDone_step ?_ ?_
    | with_reducible refine modCmd_step ?_ ?_
    | with_reducible refine sendPut_step ?_ ?_
    | with_reducible refine Agree.ite ?_ ?_
    | (with_reducible refine Agree.foldl ?_ ?_; intro _ _ _)
    | (with_reducible refine Agree.foldl2 ?_ ?_; intro _ _ _)
    | (with_reducible refine Agree.foldl3 ?_ ?_; intro _ _ _)
    | (with_reducible refine Agree.foldl4 ?_ ?_; intro _ _ _)
    | dsimp only
    | split
    | (with_reducible refine Agree.of_pair (by assumption) ?_)
    | (with_reducible refine Agree.of_pair2 (by assumption) ?_)
    | intro _
theorem execCollSendAction_step {M s0} {id : Nat} {s : State} (hs : bitsIn 0x400000000000000000404302800c20040800001920000020000000000004004780005d84ff180 M = true) (hA : Agree M s0 s) : AgreeO M s0 (execCollSendAction id s) :=
  hA.stepO hs (execCollSendAction_frame id s)

theorem execCollReceiveAction_frame (id : Nat) (s : State) : AgreeO 0x400000000000000000404302800c20040800001920000020000000000004004780005d84ff180 s (execCollReceiveAction id s) := by
  unfold execCollReceiveAction
  repeat' first
    | with_reducible assumption
    | with_reducible exact Agree.refl _ _
    | exact bitsIn_rfl rfl
    | exact regIn_rfl rfl rfl
    | with_reducible refine AgreeO.next ?_
    | with_reducible refine AgreeO.ite ?_ ?_
    | with_reducible exact AgreeO.refused
    | with_reducible exact AgreeO.fault
    | with_reducible refine collBytes_step ?_ ?_
    | with_reducible refine collLines_step ?_ ?_
    | with_reducible refine collMiss_step ?_ ?_
    | with_reducible refine collPut_step ?_ ?_
    | with_reducible refine collTouch_step ?_ ?_
    | with_reducible refine devDone_step ?_ ?_
    | with_reducible refine modCmd_step ?_ ?_
    | with_reducible refine Agree.ite ?_ ?_
    | (with_reducible refine Agree.foldl ?_ ?_; intro _ _ _)
    | (with_reducible refine Agree.foldl2 ?_ ?_; intro _ _ _)
    | (with_reducible refine Agree.foldl3 ?_ ?_; intro _ _ _)
    | (with_reducible refine Agree.foldl4 ?_ ?_; intro _ _ _)
    | dsimp only
    | split
    | (with_reducible refine Agree.of_pair (by assumption) ?_)
    | (with_reducible refine Agree.of_pair2 (by assumption) ?_)
    | intro _
theorem execCollReceiveAction_step {M s0} {id : Nat} {s : State} (hs : bitsIn 0x400000000000000000404302800c20040800001920000020000000000004004780005d84ff180 M = true) (hA : Agree M s0 s) : AgreeO M s0 (execCollReceiveAction id s) :=
  hA.stepO hs (execCollReceiveAction_frame id s)

theorem execCollActionComplete_frame (id : Nat) (recv : Bool) (s : State) : AgreeO 0x4001000040000000028000000000000000000000000000400600458000000002200 s (execCollActionComplete id recv s) := by
  unfold execCollActionComplete
  repeat' first
    | with_reducible assumption
    | with_reducible exact Agree.refl _ _
    | exact bitsIn_rfl rfl
    | exact regIn_rfl rfl rfl
    | with_reducible refine AgreeO.next ?_
    | with_reducible refine AgreeO.ite ?_ ?_
    | with_reducible exact AgreeO.refused
    | with_reducible exact AgreeO.fault
    | with_reducible refine collFree_step ?_ ?_
    | with_reducible refine collSendMsg_step ?_ ?_
    | with_reducible refine collTouch_step ?_ ?_
    | with_reducible refine endCmd_step ?_ ?_
    | with_reducible refine modCmd_step ?_ ?_
    | with_reducible refine modColl_step ?_ ?_
    | with_reducible refine modQueue_step ?_ ?_
    | with_reducible refine progress_step ?_ ?_
    | with_reducible refine settleCaps_step ?_ ?_
    | with_reducible refine Agree.ite ?_ ?_
    | dsimp only
    | split
    | (with_reducible refine Agree.of_pair (by assumption) ?_)
    | (with_reducible refine Agree.of_pair2 (by assumption) ?_)
    | intro _
theorem execCollActionComplete_step {M s0} {id : Nat} {recv : Bool} {s : State} (hs : bitsIn 0x4001000040000000028000000000000000000000000000400600458000000002200 M = true) (hA : Agree M s0 s) : AgreeO M s0 (execCollActionComplete id recv s) :=
  hA.stepO hs (execCollActionComplete_frame id recv s)

theorem execCollTimeout_frame (id : Nat) (s : State) : AgreeO 0x400000000000000000 s (execCollTimeout id s) := by
  unfold execCollTimeout
  repeat' first
    | with_reducible assumption
    | with_reducible exact Agree.refl _ _
    | exact bitsIn_rfl rfl
    | with_reducible refine AgreeO.next ?_
    | with_reducible refine AgreeO.ite ?_ ?_
    | with_reducible exact AgreeO.refused
    | with_reducible exact AgreeO.fault
    | with_reducible refine endCmd_step ?_ ?_
    | with_reducible refine Agree.ite ?_ ?_
    | dsimp only
    | split
    | (with_reducible refine Agree.of_pair (by assumption) ?_)
    | (with_reducible refine Agree.of_pair2 (by assumption) ?_)
    | intro _
theorem execCollTimeout_step {M s0} {id : Nat} {s : State} (hs : bitsIn 0x400000000000000000 M = true) (hA : Agree M s0 s) : AgreeO M s0 (execCollTimeout id s) :=
  hA.stepO hs (execCollTimeout_frame id s)

theorem execCollPut_frame (k : Nat) (s : State) : AgreeO 0x4000000000400100204043028000a00408000019200000230000000040048047f0005d84ff380 s (execCollPut k s) := by
  unfold execCollPut
  repeat' first
    | with_reducible assumption
    | with_reducible exact Agree.refl _ _
    | exact bitsIn_rfl rfl
    | exact regIn_rfl rfl rfl
    | with_reducible refine AgreeO.next ?_
    | with_reducible refine AgreeO.ite ?_ ?_
    | with_reducible exact AgreeO.refused
    | with_reducible exact AgreeO.fault
    | with_reducible refine collCount_step ?_ ?_
    | with_reducible refine collPut_step ?_ ?_
    | with_reducible refine collTell_step ?_ ?_
    | with_reducible refine devStall_step ?_ ?_
    | with_reducible refine endCmd_step ?_ ?_
    | with_reducible refine failColl_step ?_ ?_
    | with_reducible refine modColl_step ?_ ?_
    | with_reducible refine refusePeer_step ?_ ?_
    | (with_reducible refine takeMine_of (by assumption) ?_ ?_)
    | ((conv => arg 3; arg 88; skip); with_reducible first | refine upd_linkIn ?_ ?_)
    | with_reducible refine Agree.ite ?_ ?_
    | (with_reducible refine Agree.foldl ?_ ?_; intro _ _ _)
    | (with_reducible refine Agree.foldl2 ?_ ?_; intro _ _ _)
    | (with_reducible refine Agree.foldl3 ?_ ?_; intro _ _ _)
    | (with_reducible refine Agree.foldl4 ?_ ?_; intro _ _ _)
    | dsimp only
    | split
    | (with_reducible refine Agree.of_pair (by assumption) ?_)
    | (with_reducible refine Agree.of_pair2 (by assumption) ?_)
    | intro _
theorem execCollPut_step {M s0} {k : Nat} {s : State} (hs : bitsIn 0x4000000000400100204043028000a00408000019200000230000000040048047f0005d84ff380 M = true) (hA : Agree M s0 s) : AgreeO M s0 (execCollPut k s) :=
  hA.stepO hs (execCollPut_frame k s)

theorem execCollToken_frame (k : Nat) (s : State) : AgreeO 0x204040000000000000000000000000030000000000008045f000000001280 s (execCollToken k s) := by
  unfold execCollToken
  repeat' first
    | with_reducible assumption
    | with_reducible exact Agree.refl _ _
    | exact bitsIn_rfl rfl
    | exact regIn_rfl rfl rfl
    | with_reducible refine AgreeO.next ?_
    | with_reducible refine AgreeO.ite ?_ ?_
    | with_reducible exact AgreeO.refused
    | with_reducible exact AgreeO.fault
    | with_reducible refine collCount_step ?_ ?_
    | with_reducible refine modColl_step ?_ ?_
    | with_reducible refine onMsg_step ?_ ?_ ?_
    | with_reducible refine refusePeer_step ?_ ?_
    | with_reducible refine Agree.ite ?_ ?_
    | dsimp only
    | split
    | (with_reducible refine Agree.of_pair (by assumption) ?_)
    | (with_reducible refine Agree.of_pair2 (by assumption) ?_)
    | (with_reducible refine AgreeO.of ?_ (by assumption))
    | intro _
theorem execCollToken_step {M s0} {k : Nat} {s : State} (hs : bitsIn 0x204040000000000000000000000000030000000000008045f000000001280 M = true) (hA : Agree M s0 s) : AgreeO M s0 (execCollToken k s) :=
  hA.stepO hs (execCollToken_frame k s)

end Sys2Proof.Machine
end

