-- ==== Sys2Proof/Laws/FrameInstances.lean ====
section
/-!
SUPPORT. The frame of every function of Machine/Instances.lean that answers a state: the fields it can change, by mask.
-/

set_option linter.unusedTactic false
set_option linter.unreachableTactic false
set_option linter.unusedVariables false

namespace Sys2Proof.Machine

theorem onFw_step {M : Nat} {s0 : State} {s : State} {type : Nat} {masks : List Nat} {f : FwReq → State} (hs : bitsIn 0xc000000000000000000 M = true) (hk_f : ∀ (a0 : FwReq), Agree M s0 (f a0)) (hA : Agree M s0 s) : AgreeO M s0 (onFw s type masks f) := by
  unfold onFw
  repeat' first
    | with_reducible assumption
    | fail
    | exact bitsIn_trans rfl hs
    | with_reducible refine AgreeO.next ?_
    | with_reducible refine AgreeO.ite ?_ ?_
    | with_reducible exact AgreeO.refused
    | with_reducible exact AgreeO.fault
    | with_reducible refine fwEnd_step ?_ ?_
    | with_reducible refine Agree.ite ?_ ?_
    | dsimp only
    | split
    | (with_reducible refine Agree.of_pair (by assumption) ?_)
    | (with_reducible refine Agree.of_pair2 (by assumption) ?_)
    | intro _
    | with_reducible refine hk_f _

theorem execMbxInRelease_frame (win : Nat) (s : State) : AgreeO 0x400000000000000000000000000 s (execMbxInRelease win s) := by
  unfold execMbxInRelease
  repeat' first
    | with_reducible assumption
    | with_reducible exact Agree.refl _ _
    | exact bitsIn_rfl rfl
    | exact regIn_rfl rfl rfl
    | with_reducible refine AgreeO.next ?_
    | with_reducible refine AgreeO.ite ?_ ?_
    | with_reducible exact AgreeO.refused
    | with_reducible exact AgreeO.fault
    | with_reducible refine setF_step ?_ ?_ ?_
    | with_reducible refine Agree.ite ?_ ?_
    | dsimp only
    | split
    | (with_reducible refine Agree.of_pair (by assumption) ?_)
    | (with_reducible refine Agree.of_pair2 (by assumption) ?_)
    | intro _
theorem execMbxInRelease_step {M s0} {win : Nat} {s : State} (hs : bitsIn 0x400000000000000000000000000 M = true) (hA : Agree M s0 s) : AgreeO M s0 (execMbxInRelease win s) :=
  hA.stepO hs (execMbxInRelease_frame win s)

theorem execMbxSend_frame (win : Nat) (s : State) : AgreeO 0x400000008000000000000000000 s (execMbxSend win s) := by
  unfold execMbxSend
  repeat' first
    | with_reducible assumption
    | with_reducible exact Agree.refl _ _
    | exact bitsIn_rfl rfl
    | exact regIn_rfl rfl rfl
    | with_reducible refine AgreeO.next ?_
    | with_reducible refine AgreeO.ite ?_ ?_
    | with_reducible exact AgreeO.refused
    | with_reducible exact AgreeO.fault
    | with_reducible refine setF_step ?_ ?_ ?_
    | ((conv => arg 3; arg 88; skip); with_reducible first | refine upd_mail ?_ ?_)
    | with_reducible refine Agree.ite ?_ ?_
    | dsimp only
    | split
    | (with_reducible refine Agree.of_pair (by assumption) ?_)
    | (with_reducible refine Agree.of_pair2 (by assumption) ?_)
    | intro _
theorem execMbxSend_step {M s0} {win : Nat} {s : State} (hs : bitsIn 0x400000008000000000000000000 M = true) (hA : Agree M s0 s) : AgreeO M s0 (execMbxSend win s) :=
  hA.stepO hs (execMbxSend_frame win s)

theorem endSend_frame (s : State) (win : Nat) (refused : Bool) : Agree 0x400000000000000000000000000 s (endSend s win refused) := by
  unfold endSend
  repeat' first
    | with_reducible assumption
    | with_reducible exact Agree.refl _ _
    | exact bitsIn_rfl rfl
    | exact regIn_rfl rfl rfl
    | with_reducible refine setF_step ?_ ?_ ?_
    | with_reducible refine Agree.ite ?_ ?_
    | dsimp only
    | split
    | (with_reducible refine Agree.of_pair (by assumption) ?_)
    | (with_reducible refine Agree.of_pair2 (by assumption) ?_)
    | intro _
theorem endSend_step {M s0} {s : State} {win : Nat} {refused : Bool} (hs : bitsIn 0x400000000000000000000000000 M = true) (hA : Agree M s0 s) : Agree M s0 (endSend s win refused) :=
  hA.step hs (endSend_frame s win refused)

theorem mailTaken_frame (s : State) (m : Mail) : Agree 0x400000000000000000000000000 s (mailTaken s m) := by
  unfold mailTaken
  repeat' first
    | with_reducible assumption
    | with_reducible exact Agree.refl _ _
    | exact bitsIn_rfl rfl
    | exact regIn_rfl rfl rfl
    | with_reducible refine endSend_step ?_ ?_
    | with_reducible refine Agree.ite ?_ ?_
    | dsimp only
    | split
    | (with_reducible refine Agree.of_pair (by assumption) ?_)
    | (with_reducible refine Agree.of_pair2 (by assumption) ?_)
    | intro _
theorem mailTaken_step {M s0} {s : State} {m : Mail} (hs : bitsIn 0x400000000000000000000000000 M = true) (hA : Agree M s0 s) : Agree M s0 (mailTaken s m) :=
  hA.step hs (mailTaken_frame s m)

theorem execMbxDeliver_frame (win : Nat) (s : State) : AgreeO 0x30060000000c000000080000000000 s (execMbxDeliver win s) := by
  unfold execMbxDeliver
  repeat' first
    | with_reducible assumption
    | with_reducible exact Agree.refl _ _
    | exact bitsIn_rfl rfl
    | exact regIn_rfl rfl rfl
    | with_reducible refine AgreeO.next ?_
    | with_reducible refine AgreeO.ite ?_ ?_
    | with_reducible exact AgreeO.refused
    | with_reducible exact AgreeO.fault
    | with_reducible refine countStale_step ?_ ?_
    | with_reducible refine fwSettle_step ?_ ?_
    | with_reducible refine mailTaken_step ?_ ?_
    | with_reducible refine sendMsi_step ?_ ?_
    | with_reducible refine setF_step ?_ ?_ ?_
    | with_reducible refine setR_step ?_ ?_ ?_
    | ((conv => arg 3; arg 88; skip); with_reducible first | refine upd_fwq ?_ ?_ | refine upd_mail ?_ ?_ | refine upd_fwq_mail ?_ ?_)
    | with_reducible refine Agree.ite ?_ ?_
    | (with_reducible refine Agree.foldl ?_ ?_; intro _ _ _)
    | (with_reducible refine Agree.foldl2 ?_ ?_; intro _ _ _)
    | (with_reducible refine Agree.foldl3 ?_ ?_; intro _ _ _)
    | (with_reducible refine Agree.foldl4 ?_ ?_; intro _ _ _)
    | dsimp only
    | split
    | (with_reducible refine Agree.of_pair (by assumption) ?_)
    | (with_reducible refine Agree.of_pair2 (by assumption) ?_)
    | intro _
theorem execMbxDeliver_step {M s0} {win : Nat} {s : State} (hs : bitsIn 0x30060000000c000000080000000000 M = true) (hA : Agree M s0 s) : AgreeO M s0 (execMbxDeliver win s) :=
  hA.stepO hs (execMbxDeliver_frame win s)

theorem clearR_step {M : Nat} {s0 s : State} {r : Reg} {k n win : Nat} (_hs : bitsIn 0 M = true) (hr : RegIn M r)
    (h : Agree M s0 s) : Agree M s0 (clearR s r k n win) := by
  refine h.setRegs fun b key hk => mfind_filter_key fun v => ?_
  rcases hr with h0 | ⟨hb, kn⟩
  · rw [h0] at b; exact absurd b (by decide)
  · by_contra hc
    simp only [Bool.not_eq_true, Bool.not_eq_false', Bool.and_eq_true, decide_eq_true_eq] at hc
    obtain ⟨⟨h1, _⟩, h3⟩ := hc
    refine hk r (k + (key - regKey r k win) / r.stride) win kn hb ?_
    have hd := Nat.div_add_mod (key - regKey r k win) r.stride
    rw [h3] at hd
    unfold regKey at *
    rw [Nat.add_mul, Nat.mul_comm ((key - _) / r.stride)]
    omega

theorem zeroSilk_frame (s : State) (i : Nat) : Agree 0x2000000000000000000000000000000000000000000000105000000000000 s (zeroSilk s i) := by
  unfold zeroSilk
  repeat' first
    | with_reducible assumption
    | with_reducible exact Agree.refl _ _
    | exact bitsIn_rfl rfl
    | exact regIn_rfl rfl rfl
    | with_reducible refine clearR_step ?_ ?_ ?_
    | ((conv => arg 3; arg 88; skip); with_reducible first | refine upd_silkWaiters_silkSent_custody ?_ ?_)
    | with_reducible refine Agree.ite ?_ ?_
    | dsimp only
    | split
    | (with_reducible refine Agree.of_pair (by assumption) ?_)
    | (with_reducible refine Agree.of_pair2 (by assumption) ?_)
    | intro _
theorem zeroSilk_step {M s0} {s : State} {i : Nat} (hs : bitsIn 0x2000000000000000000000000000000000000000000000105000000000000 M = true) (hA : Agree M s0 s) : Agree M s0 (zeroSilk s i) :=
  hA.step hs (zeroSilk_frame s i)

theorem resetWindow_frame (s : State) (win : Nat) : Agree 0x800000007c600000001 s (resetWindow s win) := by
  unfold resetWindow
  repeat' first
    | with_reducible assumption
    | with_reducible exact Agree.refl _ _
    | exact bitsIn_rfl rfl
    | exact .inl rfl
    | ((conv => arg 3; arg 88; skip); with_reducible first | refine upd_regs_invals_fqHeld_evHeld_rings_armed_msixDue_msixLast_mail ?_ ?_)
    | with_reducible refine Agree.ite ?_ ?_
    | dsimp only
    | split
    | (with_reducible refine Agree.of_pair (by assumption) ?_)
    | (with_reducible refine Agree.of_pair2 (by assumption) ?_)
    | intro _
theorem resetWindow_step {M s0} {s : State} {win : Nat} (hs : bitsIn 0x800000007c600000001 M = true) (hA : Agree M s0 s) : Agree M s0 (resetWindow s win) :=
  hA.step hs (resetWindow_frame s win)

theorem execInstCreate_frame (qb sb kb : Nat) (s : State) : AgreeO 0xc0000000000000000300000000000000600000000005000640000000004c00010577c600000001 s (execInstCreate qb sb kb s) := by
  unfold execInstCreate
  repeat' first
    | with_reducible assumption
    | with_reducible exact Agree.refl _ _
    | exact bitsIn_rfl rfl
    | exact regIn_rfl rfl rfl
    | exact .inl rfl
    | with_reducible refine AgreeO.next ?_
    | with_reducible refine AgreeO.ite ?_ ?_
    | with_reducible exact AgreeO.refused
    | with_reducible exact AgreeO.fault
    | with_reducible refine advanceInstar_step ?_ ?_
    | with_reducible refine fwEnd_step ?_ ?_
    | with_reducible refine onFw_step ?_ ?_ ?_
    | with_reducible refine resetWindow_step ?_ ?_
    | with_reducible refine setR_step ?_ ?_ ?_
    | with_reducible refine zeroSilk_step ?_ ?_
    | ((conv => arg 3; arg 88; skip); with_reducible first | refine upd_keyMat ?_ ?_)
    | with_reducible refine Agree.ite ?_ ?_
    | (with_reducible refine Agree.foldl ?_ ?_; intro _ _ _)
    | (with_reducible refine Agree.foldl2 ?_ ?_; intro _ _ _)
    | (with_reducible refine Agree.foldl3 ?_ ?_; intro _ _ _)
    | (with_reducible refine Agree.foldl4 ?_ ?_; intro _ _ _)
    | dsimp only
    | split
    | (with_reducible refine Agree.of_pair (by assumption) ?_)
    | (with_reducible refine Agree.of_pair2 (by assumption) ?_)
    | (with_reducible refine AgreeO.of ?_ (by assumption))
    | intro _
theorem execInstCreate_step {M s0} {qb sb kb : Nat} {s : State} (hs : bitsIn 0xc0000000000000000300000000000000600000000005000640000000004c00010577c600000001 M = true) (hA : Agree M s0 s) : AgreeO M s0 (execInstCreate qb sb kb s) :=
  hA.stepO hs (execInstCreate_frame qb sb kb s)

theorem beginReset_frame (s : State) (i reply : Nat) (remove : Bool) : Agree 0x400000000000000000000000000000000000000000030000000400000018180000600000000200 s (beginReset s i reply remove) := by
  unfold beginReset
  repeat' first
    | with_reducible assumption
    | with_reducible exact Agree.refl _ _
    | exact bitsIn_rfl rfl
    | exact regIn_rfl rfl rfl
    | with_reducible refine mailTaken_step ?_ ?_
    | with_reducible refine setF_step ?_ ?_ ?_
    | with_reducible refine teardown_step ?_ ?_
    | ((conv => arg 3; arg 88; skip); with_reducible first | refine upd_instResets ?_ ?_ | refine upd_mail ?_ ?_ | refine upd_instarAt_instarDue ?_ ?_)
    | with_reducible refine Agree.ite ?_ ?_
    | (with_reducible refine Agree.foldl ?_ ?_; intro _ _ _)
    | (with_reducible refine Agree.foldl2 ?_ ?_; intro _ _ _)
    | (with_reducible refine Agree.foldl3 ?_ ?_; intro _ _ _)
    | (with_reducible refine Agree.foldl4 ?_ ?_; intro _ _ _)
    | dsimp only
    | split
    | (with_reducible refine Agree.of_pair (by assumption) ?_)
    | (with_reducible refine Agree.of_pair2 (by assumption) ?_)
    | intro _
theorem beginReset_step {M s0} {s : State} {i reply : Nat} {remove : Bool} (hs : bitsIn 0x400000000000000000000000000000000000000000030000000400000018180000600000000200 M = true) (hA : Agree M s0 s) : Agree M s0 (beginReset s i reply remove) :=
  hA.step hs (beginReset_frame s i reply remove)

theorem execInstReset_frame (s : State) : AgreeO 0x40000000000000000000000000000000000000000003000000040000001c180000600000000200 s (execInstReset s) := by
  unfold execInstReset
  repeat' first
    | with_reducible assumption
    | with_reducible exact Agree.refl _ _
    | exact bitsIn_rfl rfl
    | exact regIn_rfl rfl rfl
    | with_reducible refine AgreeO.next ?_
    | with_reducible refine AgreeO.ite ?_ ?_
    | with_reducible exact AgreeO.refused
    | with_reducible exact AgreeO.fault
    | with_reducible refine beginReset_step ?_ ?_
    | with_reducible refine fwEnd_step ?_ ?_
    | with_reducible refine onFw_step ?_ ?_ ?_
    | with_reducible refine Agree.ite ?_ ?_
    | dsimp only
    | split
    | (with_reducible refine Agree.of_pair (by assumption) ?_)
    | (with_reducible refine Agree.of_pair2 (by assumption) ?_)
    | (with_reducible refine AgreeO.of ?_ (by assumption))
    | intro _
theorem execInstReset_step {M s0} {s : State} (hs : bitsIn 0x40000000000000000000000000000000000000000003000000040000001c180000600000000200 M = true) (hA : Agree M s0 s) : AgreeO M s0 (execInstReset s) :=
  hA.stepO hs (execInstReset_frame s)

theorem execInstRemove_frame (s : State) : AgreeO 0x40000000000000000000000000000000000000000003000000040000001c180000600000000200 s (execInstRemove s) := by
  unfold execInstRemove
  repeat' first
    | with_reducible assumption
    | with_reducible exact Agree.refl _ _
    | exact bitsIn_rfl rfl
    | exact regIn_rfl rfl rfl
    | with_reducible refine AgreeO.next ?_
    | with_reducible refine AgreeO.ite ?_ ?_
    | with_reducible exact AgreeO.refused
    | with_reducible exact AgreeO.fault
    | with_reducible refine beginReset_step ?_ ?_
    | with_reducible refine fwEnd_step ?_ ?_
    | with_reducible refine onFw_step ?_ ?_ ?_
    | with_reducible refine Agree.ite ?_ ?_
    | dsimp only
    | split
    | (with_reducible refine Agree.of_pair (by assumption) ?_)
    | (with_reducible refine Agree.of_pair2 (by assumption) ?_)
    | (with_reducible refine AgreeO.of ?_ (by assumption))
    | intro _
theorem execInstRemove_step {M s0} {s : State} (hs : bitsIn 0x40000000000000000000000000000000000000000003000000040000001c180000600000000200 M = true) (hA : Agree M s0 s) : AgreeO M s0 (execInstRemove s) :=
  hA.stepO hs (execInstRemove_frame s)

theorem stopVerif_frame (s : State) (i : Nat) : Agree 0x4040000000000000000000000000049000000000c010048000000000000 s (stopVerif s i) := by
  unfold stopVerif
  repeat' first
    | with_reducible assumption
    | with_reducible exact Agree.refl _ _
    | exact bitsIn_rfl rfl
    | exact regIn_rfl rfl rfl
    | with_reducible refine verifEnd_step ?_ ?_
    | with_reducible refine Agree.ite ?_ ?_
    | dsimp only
    | split
    | (with_reducible refine Agree.of_pair (by assumption) ?_)
    | (with_reducible refine Agree.of_pair2 (by assumption) ?_)
    | intro _
theorem stopVerif_step {M s0} {s : State} {i : Nat} (hs : bitsIn 0x4040000000000000000000000000049000000000c010048000000000000 M = true) (hA : Agree M s0 s) : Agree M s0 (stopVerif s i) :=
  hA.step hs (stopVerif_frame s i)

theorem forceRemove_frame (s : State) (i : Nat) : Agree 0x40000000000000000004040000000000000000000003000049040000001c190048600000000200 s (forceRemove s i) := by
  unfold forceRemove
  repeat' first
    | with_reducible assumption
    | with_reducible exact Agree.refl _ _
    | exact bitsIn_rfl rfl
    | exact regIn_rfl rfl rfl
    | with_reducible refine beginReset_step ?_ ?_
    | with_reducible refine stopVerif_step ?_ ?_
    | ((conv => arg 3; arg 88; skip); with_reducible first | refine upd_instResets ?_ ?_)
    | with_reducible refine Agree.ite ?_ ?_
    | dsimp only
    | split
    | (with_reducible refine Agree.of_pair (by assumption) ?_)
    | (with_reducible refine Agree.of_pair2 (by assumption) ?_)
    | intro _
theorem forceRemove_step {M s0} {s : State} {i : Nat} (hs : bitsIn 0x40000000000000000004040000000000000000000003000049040000001c190048600000000200 M = true) (hA : Agree M s0 s) : Agree M s0 (forceRemove s i) :=
  hA.step hs (forceRemove_frame s i)

theorem finishReset_frame (s : State) (i : Nat) : Agree 0x4000000000000000204040020000000408000019200000200000000000860015d07c7784c4381 s (finishReset s i) := by
  unfold finishReset
  repeat' first
    | with_reducible assumption
    | with_reducible exact Agree.refl _ _
    | exact bitsIn_rfl rfl
    | exact regIn_rfl rfl rfl
    | exact .inl rfl
    | with_reducible refine resetWindow_step ?_ ?_
    | with_reducible refine retireEntries_step ?_ ?_
    | with_reducible refine zeroSilk_step ?_ ?_
    | with_reducible refine Agree.ite ?_ ?_
    | dsimp only
    | split
    | (with_reducible refine Agree.of_pair (by assumption) ?_)
    | (with_reducible refine Agree.of_pair2 (by assumption) ?_)
    | intro _
theorem finishReset_step {M s0} {s : State} {i : Nat} (hs : bitsIn 0x4000000000000000204040020000000408000019200000200000000000860015d07c7784c4381 M = true) (hA : Agree M s0 s) : Agree M s0 (finishReset s i) :=
  hA.step hs (finishReset_frame s i)

theorem removeInst_frame (s : State) (i : Nat) : Agree 0xc00000000000000021040401000408078f002000000501fdc00000000040028048702000822000 s (removeInst s i) := by
  unfold removeInst
  repeat' first
    | with_reducible assumption
    | with_reducible exact Agree.refl _ _
    | exact bitsIn_rfl rfl
    | exact regIn_rfl rfl rfl
    | with_reducible refine advanceInstar_step ?_ ?_
    | with_reducible refine removeImago_step ?_ ?_
    | with_reducible refine setR_step ?_ ?_ ?_
    | ((conv => arg 3; arg 88; skip); with_reducible first | refine upd_keyMat ?_ ?_)
    | with_reducible refine Agree.ite ?_ ?_
    | (with_reducible refine Agree.foldl ?_ ?_; intro _ _ _)
    | (with_reducible refine Agree.foldl2 ?_ ?_; intro _ _ _)
    | (with_reducible refine Agree.foldl3 ?_ ?_; intro _ _ _)
    | (with_reducible refine Agree.foldl4 ?_ ?_; intro _ _ _)
    | dsimp only
    | split
    | (with_reducible refine Agree.of_pair (by assumption) ?_)
    | (with_reducible refine Agree.of_pair2 (by assumption) ?_)
    | intro _
theorem removeInst_step {M s0} {s : State} {i : Nat} (hs : bitsIn 0xc00000000000000021040401000408078f002000000501fdc00000000040028048702000822000 M = true) (hA : Agree M s0 s) : Agree M s0 (removeInst s i) :=
  hA.step hs (removeInst_frame s i)

theorem reportReset_frame (s : State) (i : Nat) (x : InstReset) : Agree 0xc000000000000000000 s (reportReset s i x) := by
  unfold reportReset
  repeat' first
    | with_reducible assumption
    | with_reducible exact Agree.refl _ _
    | exact bitsIn_rfl rfl
    | with_reducible refine fwEnd_step ?_ ?_
    | with_reducible refine fwMail_step ?_ ?_
    | with_reducible refine Agree.ite ?_ ?_
    | dsimp only
    | split
    | (with_reducible refine Agree.of_pair (by assumption) ?_)
    | (with_reducible refine Agree.of_pair2 (by assumption) ?_)
    | intro _
theorem reportReset_step {M s0} {s : State} {i : Nat} {x : InstReset} (hs : bitsIn 0xc000000000000000000 M = true) (hA : Agree M s0 s) : Agree M s0 (reportReset s i x) :=
  hA.step hs (reportReset_frame s i x)

theorem execInstResetDone_frame (i : Nat) (s : State) : AgreeO 0xc4000000000000002304040120040807cf802001920501ffc0000000005c62815d77e778ce6381 s (execInstResetDone i s) := by
  unfold execInstResetDone
  repeat' first
    | with_reducible assumption
    | with_reducible exact Agree.refl _ _
    | exact bitsIn_rfl rfl
    | exact regIn_rfl rfl rfl
    | exact .inl rfl
    | with_reducible refine AgreeO.next ?_
    | with_reducible refine AgreeO.ite ?_ ?_
    | with_reducible exact AgreeO.refused
    | with_reducible exact AgreeO.fault
    | with_reducible refine finishReset_step ?_ ?_
    | with_reducible refine removeInst_step ?_ ?_
    | with_reducible refine reportReset_step ?_ ?_
    | with_reducible refine setF_step ?_ ?_ ?_
    | with_reducible refine setR_step ?_ ?_ ?_
    | ((conv => arg 3; arg 88; skip); with_reducible first | refine upd_instResets ?_ ?_ | refine upd_imagos_instResets ?_ ?_)
    | with_reducible refine Agree.ite ?_ ?_
    | dsimp only
    | split
    | (with_reducible refine Agree.of_pair (by assumption) ?_)
    | (with_reducible refine Agree.of_pair2 (by assumption) ?_)
    | intro _
theorem execInstResetDone_step {M s0} {i : Nat} {s : State} (hs : bitsIn 0xc4000000000000002304040120040807cf802001920501ffc0000000005c62815d77e778ce6381 M = true) (hA : Agree M s0 s) : AgreeO M s0 (execInstResetDone i s) :=
  hA.stepO hs (execInstResetDone_frame i s)

theorem execVfFlr_frame (i : Nat) (s : State) : AgreeO 0x400000000000000000000000000000000000000000030000000400000018180000600000000200 s (execVfFlr i s) := by
  unfold execVfFlr
  repeat' first
    | with_reducible assumption
    | with_reducible exact Agree.refl _ _
    | exact bitsIn_rfl rfl
    | exact regIn_rfl rfl rfl
    | with_reducible refine AgreeO.next ?_
    | with_reducible refine AgreeO.ite ?_ ?_
    | with_reducible exact AgreeO.refused
    | with_reducible exact AgreeO.fault
    | with_reducible refine beginReset_step ?_ ?_
    | with_reducible refine Agree.ite ?_ ?_
    | dsimp only
    | split
    | (with_reducible refine Agree.of_pair (by assumption) ?_)
    | (with_reducible refine Agree.of_pair2 (by assumption) ?_)
    | intro _
theorem execVfFlr_step {M s0} {i : Nat} {s : State} (hs : bitsIn 0x400000000000000000000000000000000000000000030000000400000018180000600000000200 M = true) (hA : Agree M s0 s) : AgreeO M s0 (execVfFlr i s) :=
  hA.stepO hs (execVfFlr_frame i s)

theorem execNumvfsLower_frame (n : Nat) (s : State) : AgreeO 0x40000000000000000004040000000000000000000003000049040000003c190048600000000200 s (execNumvfsLower n s) := by
  unfold execNumvfsLower
  repeat' first
    | with_reducible assumption
    | with_reducible exact Agree.refl _ _
    | exact bitsIn_rfl rfl
    | exact regIn_rfl rfl rfl
    | with_reducible refine AgreeO.next ?_
    | with_reducible refine AgreeO.ite ?_ ?_
    | with_reducible exact AgreeO.refused
    | with_reducible exact AgreeO.fault
    | with_reducible refine forceRemove_step ?_ ?_
    | ((conv => arg 3; arg 88; skip); with_reducible first | refine upd_numVfs ?_ ?_)
    | with_reducible refine Agree.ite ?_ ?_
    | (with_reducible refine Agree.foldl ?_ ?_; intro _ _ _)
    | (with_reducible refine Agree.foldl2 ?_ ?_; intro _ _ _)
    | (with_reducible refine Agree.foldl3 ?_ ?_; intro _ _ _)
    | (with_reducible refine Agree.foldl4 ?_ ?_; intro _ _ _)
    | dsimp only
    | split
    | (with_reducible refine Agree.of_pair (by assumption) ?_)
    | (with_reducible refine Agree.of_pair2 (by assumption) ?_)
    | intro _
theorem execNumvfsLower_step {M s0} {n : Nat} {s : State} (hs : bitsIn 0x40000000000000000004040000000000000000000003000049040000003c190048600000000200 M = true) (hA : Agree M s0 s) : AgreeO M s0 (execNumvfsLower n s) :=
  hA.stepO hs (execNumvfsLower_frame n s)

theorem execPfFlr_frame (s : State) : AgreeO 0x40000000000000000004040000000000000000000003000049040000003c19004867c600000201 s (execPfFlr s) := by
  unfold execPfFlr
  repeat' first
    | with_reducible assumption
    | with_reducible exact Agree.refl _ _
    | exact bitsIn_rfl rfl
    | exact regIn_rfl rfl rfl
    | exact .inl rfl
    | with_reducible refine AgreeO.next ?_
    | with_reducible refine AgreeO.ite ?_ ?_
    | with_reducible exact AgreeO.refused
    | with_reducible exact AgreeO.fault
    | with_reducible refine forceRemove_step ?_ ?_
    | with_reducible refine resetWindow_step ?_ ?_
    | with_reducible refine teardown_step ?_ ?_
    | ((conv => arg 3; arg 88; skip); with_reducible first | refine upd_mail ?_ ?_ | refine upd_numVfs ?_ ?_)
    | with_reducible refine Agree.ite ?_ ?_
    | (with_reducible refine Agree.foldl ?_ ?_; intro _ _ _)
    | (with_reducible refine Agree.foldl2 ?_ ?_; intro _ _ _)
    | (with_reducible refine Agree.foldl3 ?_ ?_; intro _ _ _)
    | (with_reducible refine Agree.foldl4 ?_ ?_; intro _ _ _)
    | dsimp only
    | split
    | (with_reducible refine Agree.of_pair (by assumption) ?_)
    | (with_reducible refine Agree.of_pair2 (by assumption) ?_)
    | intro _
theorem execPfFlr_step {M s0} {s : State} (hs : bitsIn 0x40000000000000000004040000000000000000000003000049040000003c19004867c600000201 M = true) (hA : Agree M s0 s) : AgreeO M s0 (execPfFlr s) :=
  hA.stepO hs (execPfFlr_frame s)

end Sys2Proof.Machine
end

