-- ==== Sys2Proof/Laws/FrameKeys.lean ====
section
/-!
SUPPORT. The frame of every function of Machine/Keys.lean that answers a state: the fields it can change, by mask.
-/

set_option linter.unusedTactic false
set_option linter.unreachableTactic false
set_option linter.unusedVariables false

namespace Sys2Proof.Machine

theorem execImagoInfo_frame (s : State) : AgreeO 0xc000000000000000000 s (execImagoInfo s) := by
  unfold execImagoInfo
  repeat' first
    | with_reducible assumption
    | with_reducible exact Agree.refl _ _
    | exact bitsIn_rfl rfl
    | with_reducible refine AgreeO.next ?_
    | with_reducible refine AgreeO.ite ?_ ?_
    | with_reducible exact AgreeO.refused
    | with_reducible exact AgreeO.fault
    | with_reducible refine fwEnd_step ?_ ?_
    | with_reducible refine Agree.ite ?_ ?_
    | dsimp only
    | split
    | (with_reducible refine Agree.of_pair (by assumption) ?_)
    | (with_reducible refine Agree.of_pair2 (by assumption) ?_)
    | intro _
theorem execImagoInfo_step {M s0} {s : State} (hs : bitsIn 0xc000000000000000000 M = true) (hA : Agree M s0 s) : AgreeO M s0 (execImagoInfo s) :=
  hA.stepO hs (execImagoInfo_frame s)

theorem execAttest_frame (s : State) : AgreeO 0xc0000000000000c0000 s (execAttest s) := by
  unfold execAttest
  repeat' first
    | with_reducible assumption
    | with_reducible exact Agree.refl _ _
    | exact bitsIn_rfl rfl
    | with_reducible refine AgreeO.next ?_
    | with_reducible refine AgreeO.ite ?_ ?_
    | with_reducible exact AgreeO.refused
    | with_reducible exact AgreeO.fault
    | with_reducible refine fwEnd_step ?_ ?_
    | with_reducible refine fwWrite_step ?_ ?_
    | with_reducible refine Agree.ite ?_ ?_
    | dsimp only
    | split
    | (with_reducible refine Agree.of_pair (by assumption) ?_)
    | (with_reducible refine Agree.of_pair2 (by assumption) ?_)
    | intro _
theorem execAttest_step {M s0} {s : State} (hs : bitsIn 0xc0000000000000c0000 M = true) (hA : Agree M s0 s) : AgreeO M s0 (execAttest s) :=
  hA.stepO hs (execAttest_frame s)

theorem execCertRead_frame (s : State) : AgreeO 0xc0000000000000c0000 s (execCertRead s) := by
  unfold execCertRead
  repeat' first
    | with_reducible assumption
    | with_reducible exact Agree.refl _ _
    | exact bitsIn_rfl rfl
    | with_reducible refine AgreeO.next ?_
    | with_reducible refine AgreeO.ite ?_ ?_
    | with_reducible exact AgreeO.refused
    | with_reducible exact AgreeO.fault
    | with_reducible refine fwEnd_step ?_ ?_
    | with_reducible refine fwWrite_step ?_ ?_
    | with_reducible refine onFw_step ?_ ?_ ?_
    | with_reducible refine Agree.ite ?_ ?_
    | dsimp only
    | split
    | (with_reducible refine Agree.of_pair (by assumption) ?_)
    | (with_reducible refine Agree.of_pair2 (by assumption) ?_)
    | (with_reducible refine AgreeO.of ?_ (by assumption))
    | intro _
theorem execCertRead_step {M s0} {s : State} (hs : bitsIn 0xc0000000000000c0000 M = true) (hA : Agree M s0 s) : AgreeO M s0 (execCertRead s) :=
  hA.stepO hs (execCertRead_frame s)

theorem loadKey_frame (s : State) (r : FwReq) (k w : Nat) (generated : Bool) (mat : List Byte) : Agree 0x800000000000000000000000000000000000000000000000000000000040000000000000000000 s (loadKey s r k w generated mat) := by
  unfold loadKey
  repeat' first
    | with_reducible assumption
    | with_reducible exact Agree.refl _ _
    | exact bitsIn_rfl rfl
    | exact regIn_rfl rfl rfl
    | with_reducible refine setR_step ?_ ?_ ?_
    | ((conv => arg 3; arg 88; skip); with_reducible first | refine upd_keyMat ?_ ?_)
    | with_reducible refine Agree.ite ?_ ?_
    | dsimp only
    | split
    | (with_reducible refine Agree.of_pair (by assumption) ?_)
    | (with_reducible refine Agree.of_pair2 (by assumption) ?_)
    | intro _
theorem loadKey_step {M s0} {s : State} {r : FwReq} {k w : Nat} {generated : Bool} {mat : List Byte} (hs : bitsIn 0x800000000000000000000000000000000000000000000000000000000040000000000000000000 M = true) (hA : Agree M s0 s) : Agree M s0 (loadKey s r k w generated mat) :=
  hA.step hs (loadKey_frame s r k w generated mat)

theorem touchKey_frame (s : State) (bad : List Nat) (k : Nat) : Agree 0x820000000000000000000000000000000000000000000000000000000048000000000000000000 s (touchKey s bad k) := by
  unfold touchKey
  repeat' first
    | with_reducible assumption
    | with_reducible exact Agree.refl _ _
    | exact bitsIn_rfl rfl
    | exact regIn_rfl rfl rfl
    | with_reducible refine failKey_step ?_ ?_
    | with_reducible refine Agree.ite ?_ ?_
    | dsimp only
    | split
    | (with_reducible refine Agree.of_pair (by assumption) ?_)
    | (with_reducible refine Agree.of_pair2 (by assumption) ?_)
    | intro _
theorem touchKey_step {M s0} {s : State} {bad : List Nat} {k : Nat} (hs : bitsIn 0x820000000000000000000000000000000000000000000000000000000048000000000000000000 M = true) (hA : Agree M s0 s) : Agree M s0 (touchKey s bad k) :=
  hA.step hs (touchKey_frame s bad k)

theorem orFail_step {M s0} {s : State} {r : FwReq} {errs : List (Option Nat)} {f : State} (hs : bitsIn 0xc000000000000000000 M = true)
    (h : Agree M s0 s) (hf : Agree M s0 f) : Agree M s0 (orFail s r errs f) := by
  unfold orFail
  split
  · exact fwEnd_step (bitsIn_trans rfl hs) h
  · exact hf

theorem execKeyGen_frame (bad : List Nat) (s : State) : AgreeO 0x82000000000000000000000000000000000000000000000000000000004c000000000000000080 s (execKeyGen bad s) := by
  unfold execKeyGen
  repeat' first
    | with_reducible assumption
    | with_reducible exact Agree.refl _ _
    | exact bitsIn_rfl rfl
    | exact regIn_rfl rfl rfl
    | with_reducible refine AgreeO.next ?_
    | with_reducible refine AgreeO.ite ?_ ?_
    | with_reducible exact AgreeO.refused
    | with_reducible exact AgreeO.fault
    | with_reducible refine freeBytes_step ?_ ?_
    | with_reducible refine fwEnd_step ?_ ?_
    | with_reducible refine loadKey_step ?_ ?_
    | with_reducible refine onFw_step ?_ ?_ ?_
    | with_reducible refine orFail_step ?_ ?_ ?_
    | with_reducible refine touchKey_step ?_ ?_
    | with_reducible refine Agree.ite ?_ ?_
    | dsimp only
    | split
    | (with_reducible refine Agree.of_pair (by assumption) ?_)
    | (with_reducible refine Agree.of_pair2 (by assumption) ?_)
    | (with_reducible refine AgreeO.of ?_ (by assumption))
    | intro _
theorem execKeyGen_step {M s0} {bad : List Nat} {s : State} (hs : bitsIn 0x82000000000000000000000000000000000000000000000000000000004c000000000000000080 M = true) (hA : Agree M s0 s) : AgreeO M s0 (execKeyGen bad s) :=
  hA.stepO hs (execKeyGen_frame bad s)

theorem execKeyImport_frame (bad : List Nat) (s : State) : AgreeO 0x82000000000000000000000000000000000000000000000000000000004c000000000000000000 s (execKeyImport bad s) := by
  unfold execKeyImport
  repeat' first
    | with_reducible assumption
    | with_reducible exact Agree.refl _ _
    | exact bitsIn_rfl rfl
    | exact regIn_rfl rfl rfl
    | with_reducible refine AgreeO.next ?_
    | with_reducible refine AgreeO.ite ?_ ?_
    | with_reducible exact AgreeO.refused
    | with_reducible exact AgreeO.fault
    | with_reducible refine fwEnd_step ?_ ?_
    | with_reducible refine loadKey_step ?_ ?_
    | with_reducible refine onFw_step ?_ ?_ ?_
    | with_reducible refine orFail_step ?_ ?_ ?_
    | with_reducible refine touchKey_step ?_ ?_
    | with_reducible refine Agree.ite ?_ ?_
    | dsimp only
    | split
    | (with_reducible refine Agree.of_pair (by assumption) ?_)
    | (with_reducible refine Agree.of_pair2 (by assumption) ?_)
    | (with_reducible refine AgreeO.of ?_ (by assumption))
    | intro _
theorem execKeyImport_step {M s0} {bad : List Nat} {s : State} (hs : bitsIn 0x82000000000000000000000000000000000000000000000000000000004c000000000000000000 M = true) (hA : Agree M s0 s) : AgreeO M s0 (execKeyImport bad s) :=
  hA.stepO hs (execKeyImport_frame bad s)

theorem execKeyExport_frame (bad : List Nat) (s : State) : AgreeO 0x82000000000000000000000000000000000000000000000000000000004c0000000000000c0080 s (execKeyExport bad s) := by
  unfold execKeyExport
  repeat' first
    | with_reducible assumption
    | with_reducible exact Agree.refl _ _
    | exact bitsIn_rfl rfl
    | exact regIn_rfl rfl rfl
    | with_reducible refine AgreeO.next ?_
    | with_reducible refine AgreeO.ite ?_ ?_
    | with_reducible exact AgreeO.refused
    | with_reducible exact AgreeO.fault
    | with_reducible refine freeBytes_step ?_ ?_
    | with_reducible refine fwEnd_step ?_ ?_
    | with_reducible refine fwWrite_step ?_ ?_
    | with_reducible refine onFw_step ?_ ?_ ?_
    | with_reducible refine orFail_step ?_ ?_ ?_
    | with_reducible refine touchKey_step ?_ ?_
    | with_reducible refine Agree.ite ?_ ?_
    | dsimp only
    | split
    | (with_reducible refine Agree.of_pair (by assumption) ?_)
    | (with_reducible refine Agree.of_pair2 (by assumption) ?_)
    | (with_reducible refine AgreeO.of ?_ (by assumption))
    | intro _
theorem execKeyExport_step {M s0} {bad : List Nat} {s : State} (hs : bitsIn 0x82000000000000000000000000000000000000000000000000000000004c0000000000000c0080 M = true) (hA : Agree M s0 s) : AgreeO M s0 (execKeyExport bad s) :=
  hA.stepO hs (execKeyExport_frame bad s)

theorem execKeyDerive_frame (bad : List Nat) (s : State) : AgreeO 0x82000000000000000000000000000000000000000000000000000000004c000000000000000000 s (execKeyDerive bad s) := by
  unfold execKeyDerive
  repeat' first
    | with_reducible assumption
    | with_reducible exact Agree.refl _ _
    | exact bitsIn_rfl rfl
    | exact regIn_rfl rfl rfl
    | with_reducible refine AgreeO.next ?_
    | with_reducible refine AgreeO.ite ?_ ?_
    | with_reducible exact AgreeO.refused
    | with_reducible exact AgreeO.fault
    | with_reducible refine fwEnd_step ?_ ?_
    | with_reducible refine loadKey_step ?_ ?_
    | with_reducible refine onFw_step ?_ ?_ ?_
    | with_reducible refine orFail_step ?_ ?_ ?_
    | with_reducible refine touchKey_step ?_ ?_
    | with_reducible refine Agree.ite ?_ ?_
    | dsimp only
    | split
    | (with_reducible refine Agree.of_pair (by assumption) ?_)
    | (with_reducible refine Agree.of_pair2 (by assumption) ?_)
    | (with_reducible refine AgreeO.of ?_ (by assumption))
    | intro _
theorem execKeyDerive_step {M s0} {bad : List Nat} {s : State} (hs : bitsIn 0x82000000000000000000000000000000000000000000000000000000004c000000000000000000 M = true) (hA : Agree M s0 s) : AgreeO M s0 (execKeyDerive bad s) :=
  hA.stepO hs (execKeyDerive_frame bad s)

theorem execKeyErase_frame (s : State) : AgreeO 0x80000000000000000000000000000000000000000000000000000000004c000000000000000000 s (execKeyErase s) := by
  unfold execKeyErase
  repeat' first
    | with_reducible assumption
    | with_reducible exact Agree.refl _ _
    | exact bitsIn_rfl rfl
    | exact regIn_rfl rfl rfl
    | with_reducible refine AgreeO.next ?_
    | with_reducible refine AgreeO.ite ?_ ?_
    | with_reducible exact AgreeO.refused
    | with_reducible exact AgreeO.fault
    | with_reducible refine fwEnd_step ?_ ?_
    | with_reducible refine onFw_step ?_ ?_ ?_
    | with_reducible refine setR_step ?_ ?_ ?_
    | ((conv => arg 3; arg 88; skip); with_reducible first | refine upd_keyMat ?_ ?_)
    | with_reducible refine Agree.ite ?_ ?_
    | dsimp only
    | split
    | (with_reducible refine Agree.of_pair (by assumption) ?_)
    | (with_reducible refine Agree.of_pair2 (by assumption) ?_)
    | (with_reducible refine AgreeO.of ?_ (by assumption))
    | intro _
theorem execKeyErase_step {M s0} {s : State} (hs : bitsIn 0x80000000000000000000000000000000000000000000000000000000004c000000000000000000 M = true) (hA : Agree M s0 s) : AgreeO M s0 (execKeyErase s) :=
  hA.stepO hs (execKeyErase_frame s)

theorem execKeyCrypt_frame (bad : List Nat) (s : State) : AgreeO 0x82000000000000000000000000000000000000000000000000000000004c0000000000000c0000 s (execKeyCrypt bad s) := by
  unfold execKeyCrypt
  repeat' first
    | with_reducible assumption
    | with_reducible exact Agree.refl _ _
    | exact bitsIn_rfl rfl
    | exact regIn_rfl rfl rfl
    | with_reducible refine AgreeO.next ?_
    | with_reducible refine AgreeO.ite ?_ ?_
    | with_reducible exact AgreeO.refused
    | with_reducible exact AgreeO.fault
    | with_reducible refine fwEnd_step ?_ ?_
    | with_reducible refine fwWrite_step ?_ ?_
    | with_reducible refine onFw_step ?_ ?_ ?_
    | with_reducible refine orFail_step ?_ ?_ ?_
    | with_reducible refine touchKey_step ?_ ?_
    | with_reducible refine Agree.ite ?_ ?_
    | dsimp only
    | split
    | (with_reducible refine Agree.of_pair (by assumption) ?_)
    | (with_reducible refine Agree.of_pair2 (by assumption) ?_)
    | (with_reducible refine AgreeO.of ?_ (by assumption))
    | intro _
theorem execKeyCrypt_step {M s0} {bad : List Nat} {s : State} (hs : bitsIn 0x82000000000000000000000000000000000000000000000000000000004c0000000000000c0000 M = true) (hA : Agree M s0 s) : AgreeO M s0 (execKeyCrypt bad s) :=
  hA.stepO hs (execKeyCrypt_frame bad s)

theorem execCvkUpdate_frame (s : State) : AgreeO 0x100000000000000000000000000000000000000000000000000000000028c000000000000000000 s (execCvkUpdate s) := by
  unfold execCvkUpdate
  repeat' first
    | with_reducible assumption
    | with_reducible exact Agree.refl _ _
    | exact bitsIn_rfl rfl
    | exact regIn_rfl rfl rfl
    | with_reducible refine AgreeO.next ?_
    | with_reducible refine AgreeO.ite ?_ ?_
    | with_reducible exact AgreeO.refused
    | with_reducible exact AgreeO.fault
    | with_reducible refine fwEnd_step ?_ ?_
    | with_reducible refine onFw_step ?_ ?_ ?_
    | with_reducible refine setF_step ?_ ?_ ?_
    | with_reducible refine setR_step ?_ ?_ ?_
    | ((conv => arg 3; arg 88; skip); with_reducible first | refine upd_cvks ?_ ?_ | refine upd_flash ?_ ?_ | refine upd_cvks_flash ?_ ?_)
    | with_reducible refine Agree.ite ?_ ?_
    | dsimp only
    | split
    | (with_reducible refine Agree.of_pair (by assumption) ?_)
    | (with_reducible refine Agree.of_pair2 (by assumption) ?_)
    | (with_reducible refine AgreeO.of ?_ (by assumption))
    | intro _
theorem execCvkUpdate_step {M s0} {s : State} (hs : bitsIn 0x100000000000000000000000000000000000000000000000000000000028c000000000000000000 M = true) (hA : Agree M s0 s) : AgreeO M s0 (execCvkUpdate s) :=
  hA.stepO hs (execCvkUpdate_frame s)

theorem execTimeSet_frame (s : State) : AgreeO 0x400000000000000000000000000000000000000000000000000000000030c000000000000000000 s (execTimeSet s) := by
  unfold execTimeSet
  repeat' first
    | with_reducible assumption
    | with_reducible exact Agree.refl _ _
    | exact bitsIn_rfl rfl
    | exact regIn_rfl rfl rfl
    | with_reducible refine AgreeO.next ?_
    | with_reducible refine AgreeO.ite ?_ ?_
    | with_reducible exact AgreeO.refused
    | with_reducible exact AgreeO.fault
    | with_reducible refine fwEnd_step ?_ ?_
    | with_reducible refine onFw_step ?_ ?_ ?_
    | with_reducible refine setF_step ?_ ?_ ?_
    | ((conv => arg 3; arg 88; skip); with_reducible first | refine upd_rtc_flash ?_ ?_)
    | with_reducible refine Agree.ite ?_ ?_
    | dsimp only
    | split
    | (with_reducible refine Agree.of_pair (by assumption) ?_)
    | (with_reducible refine Agree.of_pair2 (by assumption) ?_)
    | (with_reducible refine AgreeO.of ?_ (by assumption))
    | intro _
theorem execTimeSet_step {M s0} {s : State} (hs : bitsIn 0x400000000000000000000000000000000000000000000000000000000030c000000000000000000 M = true) (hA : Agree M s0 s) : AgreeO M s0 (execTimeSet s) :=
  hA.stepO hs (execTimeSet_frame s)

theorem execRegionSet_frame (s : State) : AgreeO 0x18000000000000000000000000000000000000000000000000000000000c000000000000000000 s (execRegionSet s) := by
  unfold execRegionSet
  repeat' first
    | with_reducible assumption
    | with_reducible exact Agree.refl _ _
    | exact bitsIn_rfl rfl
    | exact regIn_rfl rfl rfl
    | with_reducible refine AgreeO.next ?_
    | with_reducible refine AgreeO.ite ?_ ?_
    | with_reducible exact AgreeO.refused
    | with_reducible exact AgreeO.fault
    | with_reducible refine fwEnd_step ?_ ?_
    | with_reducible refine onFw_step ?_ ?_ ?_
    | with_reducible refine setR_step ?_ ?_ ?_
    | with_reducible refine Agree.ite ?_ ?_
    | dsimp only
    | split
    | (with_reducible refine Agree.of_pair (by assumption) ?_)
    | (with_reducible refine Agree.of_pair2 (by assumption) ?_)
    | (with_reducible refine AgreeO.of ?_ (by assumption))
    | intro _
theorem execRegionSet_step {M s0} {s : State} (hs : bitsIn 0x18000000000000000000000000000000000000000000000000000000000c000000000000000000 M = true) (hA : Agree M s0 s) : AgreeO M s0 (execRegionSet s) :=
  hA.stepO hs (execRegionSet_frame s)

end Sys2Proof.Machine
end

