-- ==== Sys2Proof/Laws/FrameRtc.lean ====
section
/-!
SUPPORT. The frame of every function of Machine/Rtc.lean that answers a state: the fields it can change, by mask.
-/

set_option linter.unusedTactic false
set_option linter.unreachableTactic false
set_option linter.unusedVariables false

namespace Sys2Proof.Machine

theorem execRtcAdj_frame (v : Nat) (s : State) : AgreeO 0x4000000000000000000000000000000000000000000000000000000000100000000000000000000 s (execRtcAdj v s) := by
  unfold execRtcAdj
  repeat' first
    | with_reducible assumption
    | with_reducible exact Agree.refl _ _
    | exact bitsIn_rfl rfl
    | exact regIn_rfl rfl rfl
    | with_reducible refine AgreeO.next ?_
    | with_reducible refine AgreeO.ite ?_ ?_
    | with_reducible exact AgreeO.refused
    | with_reducible exact AgreeO.fault
    | with_reducible refine setF_step ?_ ?_ ?_
    | ((conv => arg 3; arg 88; skip); with_reducible first | refine upd_rtc ?_ ?_)
    | with_reducible refine Agree.ite ?_ ?_
    | dsimp only
    | split
    | (with_reducible refine Agree.of_pair (by assumption) ?_)
    | (with_reducible refine Agree.of_pair2 (by assumption) ?_)
    | intro _
theorem execRtcAdj_step {M s0} {v : Nat} {s : State} (hs : bitsIn 0x4000000000000000000000000000000000000000000000000000000000100000000000000000000 M = true) (hA : Agree M s0 s) : AgreeO M s0 (execRtcAdj v s) :=
  hA.stepO hs (execRtcAdj_frame v s)

theorem execRtcSet_frame (v : Nat) (s : State) : AgreeO 0x4000000000000000000000000000000000000000000000000000000000100000000000000000000 s (execRtcSet v s) := by
  unfold execRtcSet
  repeat' first
    | with_reducible assumption
    | with_reducible exact Agree.refl _ _
    | exact bitsIn_rfl rfl
    | exact regIn_rfl rfl rfl
    | with_reducible refine AgreeO.next ?_
    | with_reducible refine AgreeO.ite ?_ ?_
    | with_reducible exact AgreeO.refused
    | with_reducible exact AgreeO.fault
    | with_reducible refine setF_step ?_ ?_ ?_
    | ((conv => arg 3; arg 88; skip); with_reducible first | refine upd_rtc ?_ ?_)
    | with_reducible refine Agree.ite ?_ ?_
    | dsimp only
    | split
    | (with_reducible refine Agree.of_pair (by assumption) ?_)
    | (with_reducible refine Agree.of_pair2 (by assumption) ?_)
    | intro _
theorem execRtcSet_step {M s0} {v : Nat} {s : State} (hs : bitsIn 0x4000000000000000000000000000000000000000000000000000000000100000000000000000000 M = true) (hA : Agree M s0 s) : AgreeO M s0 (execRtcSet v s) :=
  hA.stepO hs (execRtcSet_frame v s)

theorem execSlewComplete_frame (s : State) : AgreeO 0x4000000000000000000000000000000000000000000000000000000000000000000000000000000 s (execSlewComplete s) := by
  unfold execSlewComplete
  repeat' first
    | with_reducible assumption
    | with_reducible exact Agree.refl _ _
    | exact bitsIn_rfl rfl
    | exact regIn_rfl rfl rfl
    | with_reducible refine AgreeO.next ?_
    | with_reducible refine AgreeO.ite ?_ ?_
    | with_reducible exact AgreeO.refused
    | with_reducible exact AgreeO.fault
    | with_reducible refine setF_step ?_ ?_ ?_
    | with_reducible refine Agree.ite ?_ ?_
    | dsimp only
    | split
    | (with_reducible refine Agree.of_pair (by assumption) ?_)
    | (with_reducible refine Agree.of_pair2 (by assumption) ?_)
    | intro _
theorem execSlewComplete_step {M s0} {s : State} (hs : bitsIn 0x4000000000000000000000000000000000000000000000000000000000000000000000000000000 M = true) (hA : Agree M s0 s) : AgreeO M s0 (execSlewComplete s) :=
  hA.stepO hs (execSlewComplete_frame s)

theorem execHoursTick_frame (s : State) : AgreeO 0x20000000000000000000000000000000000000000000000000000000000300000000000000000000 s (execHoursTick s) := by
  unfold execHoursTick
  repeat' first
    | with_reducible assumption
    | with_reducible exact Agree.refl _ _
    | exact bitsIn_rfl rfl
    | exact regIn_rfl rfl rfl
    | with_reducible refine AgreeO.next ?_
    | with_reducible refine AgreeO.ite ?_ ?_
    | with_reducible exact AgreeO.refused
    | with_reducible exact AgreeO.fault
    | with_reducible refine setR_step ?_ ?_ ?_
    | ((conv => arg 3; arg 88; skip); with_reducible first | refine upd_flash ?_ ?_ | refine upd_rtc ?_ ?_)
    | with_reducible refine Agree.ite ?_ ?_
    | dsimp only
    | split
    | (with_reducible refine Agree.of_pair (by assumption) ?_)
    | (with_reducible refine Agree.of_pair2 (by assumption) ?_)
    | intro _
theorem execHoursTick_step {M s0} {s : State} (hs : bitsIn 0x20000000000000000000000000000000000000000000000000000000000300000000000000000000 M = true) (hA : Agree M s0 s) : AgreeO M s0 (execHoursTick s) :=
  hA.stepO hs (execHoursTick_frame s)

theorem execVbatSample_frame (mv : Nat) (s : State) : AgreeO 0x4000000000000000000000000000000000000000000000000000000000100000000000000000000 s (execVbatSample mv s) := by
  unfold execVbatSample
  repeat' first
    | with_reducible assumption
    | with_reducible exact Agree.refl _ _
    | exact bitsIn_rfl rfl
    | exact regIn_rfl rfl rfl
    | with_reducible refine AgreeO.next ?_
    | with_reducible refine AgreeO.ite ?_ ?_
    | with_reducible exact AgreeO.refused
    | with_reducible exact AgreeO.fault
    | with_reducible refine setF_step ?_ ?_ ?_
    | ((conv => arg 3; arg 88; skip); with_reducible first | refine upd_rtc ?_ ?_)
    | with_reducible refine Agree.ite ?_ ?_
    | dsimp only
    | split
    | (with_reducible refine Agree.of_pair (by assumption) ?_)
    | (with_reducible refine Agree.of_pair2 (by assumption) ?_)
    | intro _
theorem execVbatSample_step {M s0} {mv : Nat} {s : State} (hs : bitsIn 0x4000000000000000000000000000000000000000000000000000000000100000000000000000000 M = true) (hA : Agree M s0 s) : AgreeO M s0 (execVbatSample mv s) :=
  hA.stepO hs (execVbatSample_frame mv s)

theorem execOscStop_frame (s : State) : AgreeO 0x24000000000000000000000000000000000000000000000000000000000100000000000000000000 s (execOscStop s) := by
  unfold execOscStop
  repeat' first
    | with_reducible assumption
    | with_reducible exact Agree.refl _ _
    | exact bitsIn_rfl rfl
    | exact regIn_rfl rfl rfl
    | with_reducible refine AgreeO.next ?_
    | with_reducible refine AgreeO.ite ?_ ?_
    | with_reducible exact AgreeO.refused
    | with_reducible exact AgreeO.fault
    | with_reducible refine setF_step ?_ ?_ ?_
    | with_reducible refine setR_step ?_ ?_ ?_
    | ((conv => arg 3; arg 88; skip); with_reducible first | refine upd_rtc ?_ ?_)
    | with_reducible refine Agree.ite ?_ ?_
    | dsimp only
    | split
    | (with_reducible refine Agree.of_pair (by assumption) ?_)
    | (with_reducible refine Agree.of_pair2 (by assumption) ?_)
    | intro _
theorem execOscStop_step {M s0} {s : State} (hs : bitsIn 0x24000000000000000000000000000000000000000000000000000000000100000000000000000000 M = true) (hA : Agree M s0 s) : AgreeO M s0 (execOscStop s) :=
  hA.stepO hs (execOscStop_frame s)

end Sys2Proof.Machine
end

