-- ==== Sys2Proof/Laws/FramePower.lean ====
section
/-!
SUPPORT. The frame of every function of Machine/Power.lean that answers a state: the fields it can change, by mask.
-/

set_option linter.unusedTactic false
set_option linter.unreachableTactic false
set_option linter.unusedVariables false

namespace Sys2Proof.Machine

theorem raiseBit_step {M : Nat} {s0 : State} {s : State} {f en mask vec : RF} {arm : Nat} (hs : bitsIn 0x90000000000 M = true) (hr0 : RegIn M f.reg) (hr1 : RegIn M en.reg) (hr2 : RegIn M mask.reg) (hr3 : RegIn M vec.reg) (hA : Agree M s0 s) : Agree M s0 (raiseBit s f en mask vec arm) := by
  unfold raiseBit
  repeat' first
    | with_reducible assumption
    | fail
    | exact bitsIn_trans rfl hs
    | with_reducible refine sendMsi_step ?_ ?_
    | with_reducible refine setF_step ?_ ?_ ?_
    | ((conv => arg 3; arg 88; skip); with_reducible first | refine upd_armed ?_ ?_)
    | with_reducible refine Agree.ite ?_ ?_
    | dsimp only
    | split
    | (with_reducible refine Agree.of_pair (by assumption) ?_)
    | (with_reducible refine Agree.of_pair2 (by assumption) ?_)
    | intro _

theorem raiseRst_step {M : Nat} {s0 : State} {s : State} {f : RF} (hs : bitsIn 0x20000000000000000000000000000000000000000000000000000000000000090000000000 M = true) (hr0 : RegIn M f.reg) (hA : Agree M s0 s) : Agree M s0 (raiseRst s f) := by
  unfold raiseRst
  repeat' first
    | with_reducible assumption
    | fail
    | exact bitsIn_trans rfl hs
    | exact regIn_sub rfl rfl hs
    | with_reducible refine raiseBit_step ?_ ?_ ?_ ?_ ?_ ?_
    | with_reducible refine Agree.ite ?_ ?_
    | dsimp only
    | split
    | (with_reducible refine Agree.of_pair (by assumption) ?_)
    | (with_reducible refine Agree.of_pair2 (by assumption) ?_)
    | intro _

theorem holdRaise_frame (s : State) (w : Nat) : Agree 0x800800000000000000000000000000000000000000000000400000000000000000000 s (holdRaise s w) := by
  unfold holdRaise
  repeat' first
    | with_reducible assumption
    | with_reducible exact Agree.refl _ _
    | exact bitsIn_rfl rfl
    | exact regIn_rfl rfl rfl
    | with_reducible refine setF_step ?_ ?_ ?_
    | ((conv => arg 3; arg 88; skip); with_reducible first | refine upd_power ?_ ?_)
    | with_reducible refine Agree.ite ?_ ?_
    | dsimp only
    | split
    | (with_reducible refine Agree.of_pair (by assumption) ?_)
    | (with_reducible refine Agree.of_pair2 (by assumption) ?_)
    | intro _
theorem holdRaise_step {M s0} {s : State} {w : Nat} (hs : bitsIn 0x800800000000000000000000000000000000000000000000400000000000000000000 M = true) (hA : Agree M s0 s) : Agree M s0 (holdRaise s w) :=
  hA.step hs (holdRaise_frame s w)

theorem setSteps_frame (s : State) (c n : Nat) : Agree 0x4000000000000000000000000000000000000000000000000000000000000000200 s (setSteps s c n) := by
  unfold setSteps
  repeat' first
    | with_reducible assumption
    | with_reducible exact Agree.refl _ _
    | exact bitsIn_rfl rfl
    | exact regIn_rfl rfl rfl
    | with_reducible refine retimeCore_step ?_ ?_
    | with_reducible refine setF_step ?_ ?_ ?_
    | with_reducible refine Agree.ite ?_ ?_
    | dsimp only
    | split
    | (with_reducible refine Agree.of_pair (by assumption) ?_)
    | (with_reducible refine Agree.of_pair2 (by assumption) ?_)
    | intro _
theorem setSteps_step {M s0} {s : State} {c n : Nat} (hs : bitsIn 0x4000000000000000000000000000000000000000000000000000000000000000200 M = true) (hA : Agree M s0 s) : Agree M s0 (setSteps s c n) :=
  hA.step hs (setSteps_frame s c n)

theorem forceLow_frame (s : State) : Agree 0x804800000000000000000000000000000000000000000000400000000000000000200 s (forceLow s) := by
  unfold forceLow
  repeat' first
    | with_reducible assumption
    | with_reducible exact Agree.refl _ _
    | exact bitsIn_rfl rfl
    | exact regIn_rfl rfl rfl
    | with_reducible refine holdRaise_step ?_ ?_
    | with_reducible refine setSteps_step ?_ ?_
    | with_reducible refine Agree.ite ?_ ?_
    | (with_reducible refine Agree.foldl ?_ ?_; intro _ _ _)
    | (with_reducible refine Agree.foldl2 ?_ ?_; intro _ _ _)
    | (with_reducible refine Agree.foldl3 ?_ ?_; intro _ _ _)
    | (with_reducible refine Agree.foldl4 ?_ ?_; intro _ _ _)
    | dsimp only
    | split
    | (with_reducible refine Agree.of_pair (by assumption) ?_)
    | (with_reducible refine Agree.of_pair2 (by assumption) ?_)
    | intro _
theorem forceLow_step {M s0} {s : State} (hs : bitsIn 0x804800000000000000000000000000000000000000000000400000000000000000200 M = true) (hA : Agree M s0 s) : Agree M s0 (forceLow s) :=
  hA.step hs (forceLow_frame s)

theorem noteStop_frame (s : State) : Agree 0x1000000000000000000000 s (noteStop s) := by
  unfold noteStop
  repeat' first
    | with_reducible assumption
    | with_reducible exact Agree.refl _ _
    | exact bitsIn_rfl rfl
    | ((conv => arg 3; arg 88; skip); with_reducible first | refine upd_stopSince ?_ ?_)
    | with_reducible refine Agree.ite ?_ ?_
    | dsimp only
    | split
    | (with_reducible refine Agree.of_pair (by assumption) ?_)
    | (with_reducible refine Agree.of_pair2 (by assumption) ?_)
    | intro _
theorem noteStop_step {M s0} {s : State} (hs : bitsIn 0x1000000000000000000000 M = true) (hA : Agree M s0 s) : Agree M s0 (noteStop s) :=
  hA.step hs (noteStop_frame s)

theorem raisePwr_step {M : Nat} {s0 : State} {s : State} {f : RF} (hs : bitsIn 0x40000000000000000000000000000000000000000000000000000090000000000 M = true) (hr0 : RegIn M f.reg) (hA : Agree M s0 s) : Agree M s0 (raisePwr s f) := by
  unfold raisePwr
  repeat' first
    | with_reducible assumption
    | fail
    | exact bitsIn_trans rfl hs
    | exact regIn_sub rfl rfl hs
    | with_reducible refine raiseBit_step ?_ ?_ ?_ ?_ ?_ ?_
    | with_reducible refine Agree.ite ?_ ?_
    | dsimp only
    | split
    | (with_reducible refine Agree.of_pair (by assumption) ?_)
    | (with_reducible refine Agree.of_pair2 (by assumption) ?_)
    | intro _

theorem armBit_frame (s : State) (k : Nat) : Agree 0x10000000000 s (armBit s k) := by
  unfold armBit
  repeat' first
    | with_reducible assumption
    | with_reducible exact Agree.refl _ _
    | exact bitsIn_rfl rfl
    | ((conv => arg 3; arg 88; skip); with_reducible first | refine upd_armed ?_ ?_)
    | with_reducible refine Agree.ite ?_ ?_
    | dsimp only
    | split
    | (with_reducible refine Agree.of_pair (by assumption) ?_)
    | (with_reducible refine Agree.of_pair2 (by assumption) ?_)
    | intro _
theorem armBit_step {M s0} {s : State} {k : Nat} (hs : bitsIn 0x10000000000 M = true) (hA : Agree M s0 s) : Agree M s0 (armBit s k) :=
  hA.step hs (armBit_frame s k)

theorem settleCal_frame (s : State) : Agree 0x260000000000000000000000000000000000000000000000000000090000000000 s (settleCal s) := by
  unfold settleCal
  repeat' first
    | with_reducible assumption
    | with_reducible exact Agree.refl _ _
    | exact bitsIn_rfl rfl
    | exact regIn_rfl rfl rfl
    | with_reducible refine raisePwr_step ?_ ?_ ?_
    | with_reducible refine setF_step ?_ ?_ ?_
    | with_reducible refine Agree.ite ?_ ?_
    | (with_reducible refine Agree.foldl ?_ ?_; intro _ _ _)
    | (with_reducible refine Agree.foldl2 ?_ ?_; intro _ _ _)
    | (with_reducible refine Agree.foldl3 ?_ ?_; intro _ _ _)
    | (with_reducible refine Agree.foldl4 ?_ ?_; intro _ _ _)
    | dsimp only
    | split
    | (with_reducible refine Agree.of_pair (by assumption) ?_)
    | (with_reducible refine Agree.of_pair2 (by assumption) ?_)
    | intro _
theorem settleCal_step {M s0} {s : State} (hs : bitsIn 0x260000000000000000000000000000000000000000000000000000090000000000 M = true) (hA : Agree M s0 s) : Agree M s0 (settleCal s) :=
  hA.step hs (settleCal_frame s)

theorem execCalRestart_frame (s : State) : AgreeO 0x260000000000000000000000000000000000000000000400000000090000000000 s (execCalRestart s) := by
  unfold execCalRestart
  repeat' first
    | with_reducible assumption
    | with_reducible exact Agree.refl _ _
    | exact bitsIn_rfl rfl
    | exact regIn_rfl rfl rfl
    | with_reducible refine AgreeO.next ?_
    | with_reducible refine AgreeO.ite ?_ ?_
    | with_reducible exact AgreeO.refused
    | with_reducible exact AgreeO.fault
    | with_reducible refine setF_step ?_ ?_ ?_
    | with_reducible refine settleCal_step ?_ ?_
    | ((conv => arg 3; arg 88; skip); with_reducible first | refine upd_power ?_ ?_)
    | with_reducible refine Agree.ite ?_ ?_
    | dsimp only
    | split
    | (with_reducible refine Agree.of_pair (by assumption) ?_)
    | (with_reducible refine Agree.of_pair2 (by assumption) ?_)
    | intro _
theorem execCalRestart_step {M s0} {s : State} (hs : bitsIn 0x260000000000000000000000000000000000000000000400000000090000000000 M = true) (hA : Agree M s0 s) : AgreeO M s0 (execCalRestart s) :=
  hA.stepO hs (execCalRestart_frame s)

theorem deferCap_frame (s : State) (cores : List Nat) : Agree 0x4001000000000000000000000000000000000000000000400000000000000000000 s (deferCap s cores) := by
  unfold deferCap
  repeat' first
    | with_reducible assumption
    | with_reducible exact Agree.refl _ _
    | exact bitsIn_rfl rfl
    | exact regIn_rfl rfl rfl
    | with_reducible refine setF_step ?_ ?_ ?_
    | ((conv => arg 3; arg 88; skip); with_reducible first | refine upd_power ?_ ?_)
    | with_reducible refine Agree.ite ?_ ?_
    | (with_reducible refine Agree.foldl ?_ ?_; intro _ _ _)
    | (with_reducible refine Agree.foldl2 ?_ ?_; intro _ _ _)
    | (with_reducible refine Agree.foldl3 ?_ ?_; intro _ _ _)
    | (with_reducible refine Agree.foldl4 ?_ ?_; intro _ _ _)
    | dsimp only
    | split
    | (with_reducible refine Agree.of_pair (by assumption) ?_)
    | (with_reducible refine Agree.of_pair2 (by assumption) ?_)
    | intro _
theorem deferCap_step {M s0} {s : State} {cores : List Nat} (hs : bitsIn 0x4001000000000000000000000000000000000000000000400000000000000000000 M = true) (hA : Agree M s0 s) : Agree M s0 (deferCap s cores) :=
  hA.step hs (deferCap_frame s cores)

theorem execPwrCoreFcapWrite_frame (c v : Nat) (s : State) : AgreeO 0x6001000000000000000000000000000000000000000000400000000000000000000 s (execPwrCoreFcapWrite c v s) := by
  unfold execPwrCoreFcapWrite
  repeat' first
    | with_reducible assumption
    | with_reducible exact Agree.refl _ _
    | exact bitsIn_rfl rfl
    | exact regIn_rfl rfl rfl
    | with_reducible refine AgreeO.next ?_
    | with_reducible refine AgreeO.ite ?_ ?_
    | with_reducible exact AgreeO.refused
    | with_reducible exact AgreeO.fault
    | with_reducible refine deferCap_step ?_ ?_
    | with_reducible refine setF_step ?_ ?_ ?_
    | with_reducible refine Agree.ite ?_ ?_
    | dsimp only
    | split
    | (with_reducible refine Agree.of_pair (by assumption) ?_)
    | (with_reducible refine Agree.of_pair2 (by assumption) ?_)
    | intro _
theorem execPwrCoreFcapWrite_step {M s0} {c v : Nat} {s : State} (hs : bitsIn 0x6001000000000000000000000000000000000000000000400000000000000000000 M = true) (hA : Agree M s0 s) : AgreeO M s0 (execPwrCoreFcapWrite c v s) :=
  hA.stepO hs (execPwrCoreFcapWrite_frame c v s)

theorem execPwrEvtWrite_frame (v : Nat) (s : State) : AgreeO 0x20000000000000000000000000000000000000000000000000000010000000000 s (execPwrEvtWrite v s) := by
  unfold execPwrEvtWrite
  repeat' first
    | with_reducible assumption
    | with_reducible exact Agree.refl _ _
    | exact bitsIn_rfl rfl
    | exact regIn_rfl rfl rfl
    | with_reducible refine AgreeO.next ?_
    | with_reducible refine AgreeO.ite ?_ ?_
    | with_reducible exact AgreeO.refused
    | with_reducible exact AgreeO.fault
    | with_reducible refine armBit_step ?_ ?_
    | with_reducible refine setR_step ?_ ?_ ?_
    | with_reducible refine Agree.ite ?_ ?_
    | dsimp only
    | split
    | (with_reducible refine Agree.of_pair (by assumption) ?_)
    | (with_reducible refine Agree.of_pair2 (by assumption) ?_)
    | intro _
theorem execPwrEvtWrite_step {M s0} {v : Nat} {s : State} (hs : bitsIn 0x20000000000000000000000000000000000000000000000000000010000000000 M = true) (hA : Agree M s0 s) : AgreeO M s0 (execPwrEvtWrite v s) :=
  hA.stepO hs (execPwrEvtWrite_frame v s)

theorem execPwrPkgCapWrite_frame (v : Nat) (s : State) : AgreeO 0x4001800000000000000000000000000000000000000000400000000000000000000 s (execPwrPkgCapWrite v s) := by
  unfold execPwrPkgCapWrite
  repeat' first
    | with_reducible assumption
    | with_reducible exact Agree.refl _ _
    | exact bitsIn_rfl rfl
    | exact regIn_rfl rfl rfl
    | with_reducible refine AgreeO.next ?_
    | with_reducible refine AgreeO.ite ?_ ?_
    | with_reducible exact AgreeO.refused
    | with_reducible exact AgreeO.fault
    | with_reducible refine deferCap_step ?_ ?_
    | with_reducible refine setF_step ?_ ?_ ?_
    | with_reducible refine Agree.ite ?_ ?_
    | dsimp only
    | split
    | (with_reducible refine Agree.of_pair (by assumption) ?_)
    | (with_reducible refine Agree.of_pair2 (by assumption) ?_)
    | intro _
theorem execPwrPkgCapWrite_step {M s0} {v : Nat} {s : State} (hs : bitsIn 0x4001800000000000000000000000000000000000000000400000000000000000000 M = true) (hA : Agree M s0 s) : AgreeO M s0 (execPwrPkgCapWrite v s) :=
  hA.stepO hs (execPwrPkgCapWrite_frame v s)

theorem execReplan_frame (command : Bool) (s : State) : AgreeO 0x80000000000000000000000000000000000000000000000400000000000000000000 s (execReplan command s) := by
  unfold execReplan
  repeat' first
    | with_reducible assumption
    | with_reducible exact Agree.refl _ _
    | exact bitsIn_rfl rfl
    | exact regIn_rfl rfl rfl
    | with_reducible refine AgreeO.next ?_
    | with_reducible refine AgreeO.ite ?_ ?_
    | with_reducible exact AgreeO.refused
    | with_reducible exact AgreeO.fault
    | with_reducible refine setF_step ?_ ?_ ?_
    | ((conv => arg 3; arg 88; skip); with_reducible first | refine upd_power ?_ ?_)
    | with_reducible refine Agree.ite ?_ ?_
    | dsimp only
    | split
    | (with_reducible refine Agree.of_pair (by assumption) ?_)
    | (with_reducible refine Agree.of_pair2 (by assumption) ?_)
    | intro _
theorem execReplan_step {M s0} {command : Bool} {s : State} (hs : bitsIn 0x80000000000000000000000000000000000000000000000400000000000000000000 M = true) (hA : Agree M s0 s) : AgreeO M s0 (execReplan command s) :=
  hA.stepO hs (execReplan_frame command s)

theorem noteResume_frame (s : State) : Agree 0x880800000000000000000000000000000000000000000001c00000000000000000000 s (noteResume s) := by
  unfold noteResume
  repeat' first
    | with_reducible assumption
    | with_reducible exact Agree.refl _ _
    | exact bitsIn_rfl rfl
    | exact regIn_rfl rfl rfl
    | with_reducible refine holdRaise_step ?_ ?_
    | with_reducible refine setF_step ?_ ?_ ?_
    | ((conv => arg 3; arg 88; skip); with_reducible first | refine upd_power ?_ ?_ | refine upd_stops_stopSince ?_ ?_)
    | with_reducible refine Agree.ite ?_ ?_
    | (with_reducible refine Agree.foldl ?_ ?_; intro _ _ _)
    | (with_reducible refine Agree.foldl2 ?_ ?_; intro _ _ _)
    | (with_reducible refine Agree.foldl3 ?_ ?_; intro _ _ _)
    | (with_reducible refine Agree.foldl4 ?_ ?_; intro _ _ _)
    | dsimp only
    | split
    | (with_reducible refine Agree.of_pair (by assumption) ?_)
    | (with_reducible refine Agree.of_pair2 (by assumption) ?_)
    | intro _
theorem noteResume_step {M s0} {s : State} (hs : bitsIn 0x880800000000000000000000000000000000000000000001c00000000000000000000 M = true) (hA : Agree M s0 s) : Agree M s0 (noteResume s) :=
  hA.step hs (noteResume_frame s)

theorem startRamp_frame (s : State) : Agree 0x1000000000000000000000000000000000000000000400000000000000000000 s (startRamp s) := by
  unfold startRamp
  repeat' first
    | with_reducible assumption
    | with_reducible exact Agree.refl _ _
    | exact bitsIn_rfl rfl
    | exact regIn_rfl rfl rfl
    | with_reducible refine setF_step ?_ ?_ ?_
    | ((conv => arg 3; arg 88; skip); with_reducible first | refine upd_power ?_ ?_)
    | with_reducible refine Agree.ite ?_ ?_
    | dsimp only
    | split
    | (with_reducible refine Agree.of_pair (by assumption) ?_)
    | (with_reducible refine Agree.of_pair2 (by assumption) ?_)
    | intro _
theorem startRamp_step {M s0} {s : State} (hs : bitsIn 0x1000000000000000000000000000000000000000000400000000000000000000 M = true) (hA : Agree M s0 s) : Agree M s0 (startRamp s) :=
  hA.step hs (startRamp_frame s)

theorem execRstEvtWrite_frame (v : Nat) (s : State) : AgreeO 0x10000000000000000000000000000000000000000000000000000000000000010000000000 s (execRstEvtWrite v s) := by
  unfold execRstEvtWrite
  repeat' first
    | with_reducible assumption
    | with_reducible exact Agree.refl _ _
    | exact bitsIn_rfl rfl
    | exact regIn_rfl rfl rfl
    | with_reducible refine AgreeO.next ?_
    | with_reducible refine AgreeO.ite ?_ ?_
    | with_reducible exact AgreeO.refused
    | with_reducible exact AgreeO.fault
    | with_reducible refine armBit_step ?_ ?_
    | with_reducible refine setR_step ?_ ?_ ?_
    | with_reducible refine Agree.ite ?_ ?_
    | dsimp only
    | split
    | (with_reducible refine Agree.of_pair (by assumption) ?_)
    | (with_reducible refine Agree.of_pair2 (by assumption) ?_)
    | intro _
theorem execRstEvtWrite_step {M s0} {v : Nat} {s : State} (hs : bitsIn 0x10000000000000000000000000000000000000000000000000000000000000010000000000 M = true) (hA : Agree M s0 s) : AgreeO M s0 (execRstEvtWrite v s) :=
  hA.stepO hs (execRstEvtWrite_frame v s)

theorem lowerCore_frame (s : State) (c n : Nat) : Agree 0x4000000000000000000000000000000000000000000000400000000000000000200 s (lowerCore s c n) := by
  unfold lowerCore
  repeat' first
    | with_reducible assumption
    | with_reducible exact Agree.refl _ _
    | exact bitsIn_rfl rfl
    | exact regIn_rfl rfl rfl
    | with_reducible refine setSteps_step ?_ ?_
    | ((conv => arg 3; arg 88; skip); with_reducible first | refine upd_power ?_ ?_)
    | with_reducible refine Agree.ite ?_ ?_
    | dsimp only
    | split
    | (with_reducible refine Agree.of_pair (by assumption) ?_)
    | (with_reducible refine Agree.of_pair2 (by assumption) ?_)
    | intro _
theorem lowerCore_step {M s0} {s : State} {c n : Nat} (hs : bitsIn 0x4000000000000000000000000000000000000000000000400000000000000000200 M = true) (hA : Agree M s0 s) : Agree M s0 (lowerCore s c n) :=
  hA.step hs (lowerCore_frame s c n)

theorem enforceLimits_frame (s : State) : Agree 0x4000000000000000000000000000000000000000000000400000000000000000200 s (enforceLimits s) := by
  unfold enforceLimits
  repeat' first
    | with_reducible assumption
    | with_reducible exact Agree.refl _ _
    | exact bitsIn_rfl rfl
    | exact regIn_rfl rfl rfl
    | with_reducible refine lowerCore_step ?_ ?_
    | with_reducible refine Agree.ite ?_ ?_
    | (with_reducible refine Agree.foldl ?_ ?_; intro _ _ _)
    | (with_reducible refine Agree.foldl2 ?_ ?_; intro _ _ _)
    | (with_reducible refine Agree.foldl3 ?_ ?_; intro _ _ _)
    | (with_reducible refine Agree.foldl4 ?_ ?_; intro _ _ _)
    | dsimp only
    | split
    | (with_reducible refine Agree.of_pair (by assumption) ?_)
    | (with_reducible refine Agree.of_pair2 (by assumption) ?_)
    | intro _
theorem enforceLimits_step {M s0} {s : State} (hs : bitsIn 0x4000000000000000000000000000000000000000000000400000000000000000200 M = true) (hA : Agree M s0 s) : Agree M s0 (enforceLimits s) :=
  hA.step hs (enforceLimits_frame s)

theorem startRaise_frame (s : State) (w : Nat) : Agree 0x400000000000000000000 s (startRaise s w) := by
  unfold startRaise
  repeat' first
    | with_reducible assumption
    | with_reducible exact Agree.refl _ _
    | exact bitsIn_rfl rfl
    | ((conv => arg 3; arg 88; skip); with_reducible first | refine upd_power ?_ ?_)
    | with_reducible refine Agree.ite ?_ ?_
    | dsimp only
    | split
    | (with_reducible refine Agree.of_pair (by assumption) ?_)
    | (with_reducible refine Agree.of_pair2 (by assumption) ?_)
    | intro _
theorem startRaise_step {M s0} {s : State} {w : Nat} (hs : bitsIn 0x400000000000000000000 M = true) (hA : Agree M s0 s) : Agree M s0 (startRaise s w) :=
  hA.step hs (startRaise_frame s w)

theorem execVoltageReached_frame (w : Nat) (s : State) : AgreeO 0x804000000000000000000000000000000000000000000000400000000000000000200 s (execVoltageReached w s) := by
  unfold execVoltageReached
  repeat' first
    | with_reducible assumption
    | with_reducible exact Agree.refl _ _
    | exact bitsIn_rfl rfl
    | exact regIn_rfl rfl rfl
    | with_reducible refine AgreeO.next ?_
    | with_reducible refine AgreeO.ite ?_ ?_
    | with_reducible exact AgreeO.refused
    | with_reducible exact AgreeO.fault
    | with_reducible refine setF_step ?_ ?_ ?_
    | with_reducible refine setSteps_step ?_ ?_
    | ((conv => arg 3; arg 88; skip); with_reducible first | refine upd_power ?_ ?_)
    | with_reducible refine Agree.ite ?_ ?_
    | (with_reducible refine Agree.foldl ?_ ?_; intro _ _ _)
    | (with_reducible refine Agree.foldl2 ?_ ?_; intro _ _ _)
    | (with_reducible refine Agree.foldl3 ?_ ?_; intro _ _ _)
    | (with_reducible refine Agree.foldl4 ?_ ?_; intro _ _ _)
    | dsimp only
    | split
    | (with_reducible refine Agree.of_pair (by assumption) ?_)
    | (with_reducible refine Agree.of_pair2 (by assumption) ?_)
    | intro _
theorem execVoltageReached_step {M s0} {w : Nat} {s : State} (hs : bitsIn 0x804000000000000000000000000000000000000000000000400000000000000000200 M = true) (hA : Agree M s0 s) : AgreeO M s0 (execVoltageReached w s) :=
  hA.stepO hs (execVoltageReached_frame w s)

theorem execVoltageLowering_frame (w : Nat) (s : State) : AgreeO 0x800000000000000000000000000000000000000000000000400000000000000000000 s (execVoltageLowering w s) := by
  unfold execVoltageLowering
  repeat' first
    | with_reducible assumption
    | with_reducible exact Agree.refl _ _
    | exact bitsIn_rfl rfl
    | exact regIn_rfl rfl rfl
    | with_reducible refine AgreeO.next ?_
    | with_reducible refine AgreeO.ite ?_ ?_
    | with_reducible exact AgreeO.refused
    | with_reducible exact AgreeO.fault
    | with_reducible refine setF_step ?_ ?_ ?_
    | ((conv => arg 3; arg 88; skip); with_reducible first | refine upd_power ?_ ?_)
    | with_reducible refine Agree.ite ?_ ?_
    | dsimp only
    | split
    | (with_reducible refine Agree.of_pair (by assumption) ?_)
    | (with_reducible refine Agree.of_pair2 (by assumption) ?_)
    | intro _
theorem execVoltageLowering_step {M s0} {w : Nat} {s : State} (hs : bitsIn 0x800000000000000000000000000000000000000000000000400000000000000000000 M = true) (hA : Agree M s0 s) : AgreeO M s0 (execVoltageLowering w s) :=
  hA.stepO hs (execVoltageLowering_frame w s)

theorem execRaiseHoldExpiry_frame (w : Nat) (s : State) : AgreeO 0x800000000000000000000000000000000000000000000400000000000000000000 s (execRaiseHoldExpiry w s) := by
  unfold execRaiseHoldExpiry
  repeat' first
    | with_reducible assumption
    | with_reducible exact Agree.refl _ _
    | exact bitsIn_rfl rfl
    | exact regIn_rfl rfl rfl
    | with_reducible refine AgreeO.next ?_
    | with_reducible refine AgreeO.ite ?_ ?_
    | with_reducible exact AgreeO.refused
    | with_reducible exact AgreeO.fault
    | with_reducible refine setF_step ?_ ?_ ?_
    | with_reducible refine startRaise_step ?_ ?_
    | with_reducible refine Agree.ite ?_ ?_
    | dsimp only
    | split
    | (with_reducible refine Agree.of_pair (by assumption) ?_)
    | (with_reducible refine Agree.of_pair2 (by assumption) ?_)
    | intro _
theorem execRaiseHoldExpiry_step {M s0} {w : Nat} {s : State} (hs : bitsIn 0x800000000000000000000000000000000000000000000400000000000000000000 M = true) (hA : Agree M s0 s) : AgreeO M s0 (execRaiseHoldExpiry w s) :=
  hA.stepO hs (execRaiseHoldExpiry_frame w s)

theorem execDroopEvent_frame (c : Nat) (s : State) : AgreeO 0x801800000000000000000000000000000000000000000000400000000000000000000 s (execDroopEvent c s) := by
  unfold execDroopEvent
  repeat' first
    | with_reducible assumption
    | with_reducible exact Agree.refl _ _
    | exact bitsIn_rfl rfl
    | exact regIn_rfl rfl rfl
    | with_reducible refine AgreeO.next ?_
    | with_reducible refine AgreeO.ite ?_ ?_
    | with_reducible exact AgreeO.refused
    | with_reducible exact AgreeO.fault
    | with_reducible refine countR_step ?_ ?_ ?_
    | with_reducible refine holdRaise_step ?_ ?_
    | ((conv => arg 3; arg 88; skip); with_reducible first | refine upd_power ?_ ?_)
    | with_reducible refine Agree.ite ?_ ?_
    | dsimp only
    | split
    | (with_reducible refine Agree.of_pair (by assumption) ?_)
    | (with_reducible refine Agree.of_pair2 (by assumption) ?_)
    | intro _
theorem execDroopEvent_step {M s0} {c : Nat} {s : State} (hs : bitsIn 0x801800000000000000000000000000000000000000000000400000000000000000000 M = true) (hA : Agree M s0 s) : AgreeO M s0 (execDroopEvent c s) :=
  hA.stepO hs (execDroopEvent_frame c s)

theorem execDroopEnd_frame (c : Nat) (s : State) : AgreeO 0x400000000000000000000 s (execDroopEnd c s) := by
  unfold execDroopEnd
  repeat' first
    | with_reducible assumption
    | with_reducible exact Agree.refl _ _
    | exact bitsIn_rfl rfl
    | with_reducible refine AgreeO.next ?_
    | with_reducible refine AgreeO.ite ?_ ?_
    | with_reducible exact AgreeO.refused
    | with_reducible exact AgreeO.fault
    | ((conv => arg 3; arg 88; skip); with_reducible first | refine upd_power ?_ ?_)
    | with_reducible refine Agree.ite ?_ ?_
    | dsimp only
    | split
    | (with_reducible refine Agree.of_pair (by assumption) ?_)
    | (with_reducible refine Agree.of_pair2 (by assumption) ?_)
    | intro _
theorem execDroopEnd_step {M s0} {c : Nat} {s : State} (hs : bitsIn 0x400000000000000000000 M = true) (hA : Agree M s0 s) : AgreeO M s0 (execDroopEnd c s) :=
  hA.stepO hs (execDroopEnd_frame c s)

theorem execIlimExceed_frame (d amps : Nat) (s : State) : AgreeO 0x801000000000000000000000000000000000000000000000000000000000000000 s (execIlimExceed d amps s) := by
  unfold execIlimExceed
  repeat' first
    | with_reducible assumption
    | with_reducible exact Agree.refl _ _
    | exact bitsIn_rfl rfl
    | exact regIn_rfl rfl rfl
    | with_reducible refine AgreeO.next ?_
    | with_reducible refine AgreeO.ite ?_ ?_
    | with_reducible exact AgreeO.refused
    | with_reducible exact AgreeO.fault
    | with_reducible refine setF_step ?_ ?_ ?_
    | with_reducible refine Agree.ite ?_ ?_
    | dsimp only
    | split
    | (with_reducible refine Agree.of_pair (by assumption) ?_)
    | (with_reducible refine Agree.of_pair2 (by assumption) ?_)
    | intro _
theorem execIlimExceed_step {M s0} {d amps : Nat} {s : State} (hs : bitsIn 0x801000000000000000000000000000000000000000000000000000000000000000 M = true) (hA : Agree M s0 s) : AgreeO M s0 (execIlimExceed d amps s) :=
  hA.stepO hs (execIlimExceed_frame d amps s)

theorem execLimitingEnd_frame (d amps : Nat) (s : State) : AgreeO 0x801000000000000000000000000000000000000000000000000000000000000000 s (execLimitingEnd d amps s) := by
  unfold execLimitingEnd
  repeat' first
    | with_reducible assumption
    | with_reducible exact Agree.refl _ _
    | exact bitsIn_rfl rfl
    | exact regIn_rfl rfl rfl
    | with_reducible refine AgreeO.next ?_
    | with_reducible refine AgreeO.ite ?_ ?_
    | with_reducible exact AgreeO.refused
    | with_reducible exact AgreeO.fault
    | with_reducible refine setF_step ?_ ?_ ?_
    | with_reducible refine Agree.ite ?_ ?_
    | dsimp only
    | split
    | (with_reducible refine Agree.of_pair (by assumption) ?_)
    | (with_reducible refine Agree.of_pair2 (by assumption) ?_)
    | intro _
theorem execLimitingEnd_step {M s0} {d amps : Nat} {s : State} (hs : bitsIn 0x801000000000000000000000000000000000000000000000000000000000000000 M = true) (hA : Agree M s0 s) : AgreeO M s0 (execLimitingEnd d amps s) :=
  hA.stepO hs (execLimitingEnd_frame d amps s)

theorem calibrateWing_frame (s : State) (w measured estimated amps : Nat) : Agree 0x400000000000000000000 s (calibrateWing s w measured estimated amps) := by
  unfold calibrateWing
  repeat' first
    | with_reducible assumption
    | with_reducible exact Agree.refl _ _
    | exact bitsIn_rfl rfl
    | ((conv => arg 3; arg 88; skip); with_reducible first | refine upd_power ?_ ?_)
    | with_reducible refine Agree.ite ?_ ?_
    | dsimp only
    | split
    | (with_reducible refine Agree.of_pair (by assumption) ?_)
    | (with_reducible refine Agree.of_pair2 (by assumption) ?_)
    | intro _
theorem calibrateWing_step {M s0} {s : State} {w measured estimated amps : Nat} (hs : bitsIn 0x400000000000000000000 M = true) (hA : Agree M s0 s) : Agree M s0 (calibrateWing s w measured estimated amps) :=
  hA.step hs (calibrateWing_frame s w measured estimated amps)

theorem execCalibrate_frame (energy : List (Nat × Nat × Nat)) (s : State) : AgreeO 0x260000000000000000000000000000000000000000000400000000090000000000 s (execCalibrate energy s) := by
  unfold execCalibrate
  repeat' first
    | with_reducible assumption
    | with_reducible exact Agree.refl _ _
    | exact bitsIn_rfl rfl
    | exact regIn_rfl rfl rfl
    | with_reducible refine AgreeO.next ?_
    | with_reducible refine AgreeO.ite ?_ ?_
    | with_reducible exact AgreeO.refused
    | with_reducible exact AgreeO.fault
    | with_reducible refine calibrateWing_step ?_ ?_
    | with_reducible refine settleCal_step ?_ ?_
    | ((conv => arg 3; arg 88; skip); with_reducible first | refine upd_power ?_ ?_)
    | with_reducible refine Agree.ite ?_ ?_
    | (with_reducible refine Agree.foldl ?_ ?_; intro _ _ _)
    | (with_reducible refine Agree.foldl2 ?_ ?_; intro _ _ _)
    | (with_reducible refine Agree.foldl3 ?_ ?_; intro _ _ _)
    | (with_reducible refine Agree.foldl4 ?_ ?_; intro _ _ _)
    | dsimp only
    | split
    | (with_reducible refine Agree.of_pair (by assumption) ?_)
    | (with_reducible refine Agree.of_pair2 (by assumption) ?_)
    | intro _
theorem execCalibrate_step {M s0} {energy : List (Nat × Nat × Nat)} {s : State} (hs : bitsIn 0x260000000000000000000000000000000000000000000400000000090000000000 M = true) (hA : Agree M s0 s) : AgreeO M s0 (execCalibrate energy s) :=
  hA.stepO hs (execCalibrate_frame energy s)

theorem dropCal_frame (s : State) (w : Nat) : Agree 0x600000000000000000000 s (dropCal s w) := by
  unfold dropCal
  repeat' first
    | with_reducible assumption
    | with_reducible exact Agree.refl _ _
    | exact bitsIn_rfl rfl
    | ((conv => arg 3; arg 88; skip); with_reducible first | refine upd_flash_power ?_ ?_)
    | with_reducible refine Agree.ite ?_ ?_
    | dsimp only
    | split
    | (with_reducible refine Agree.of_pair (by assumption) ?_)
    | (with_reducible refine Agree.of_pair2 (by assumption) ?_)
    | intro _
theorem dropCal_step {M s0} {s : State} {w : Nat} (hs : bitsIn 0x600000000000000000000 M = true) (hA : Agree M s0 s) : Agree M s0 (dropCal s w) :=
  hA.step hs (dropCal_frame s w)

theorem execArbitrate_frame (acts : List Nat) (dom : List (Nat × Nat)) (avgW : Nat) (s : State) : AgreeO 0x4901000000000000000000000000000000000000000000400000000000000000200 s (execArbitrate acts dom avgW s) := by
  unfold execArbitrate
  repeat' first
    | with_reducible assumption
    | with_reducible exact Agree.refl _ _
    | exact bitsIn_rfl rfl
    | exact regIn_rfl rfl rfl
    | with_reducible refine AgreeO.next ?_
    | with_reducible refine AgreeO.ite ?_ ?_
    | with_reducible exact AgreeO.refused
    | with_reducible exact AgreeO.fault
    | with_reducible refine lowerCore_step ?_ ?_
    | with_reducible refine setF_step ?_ ?_ ?_
    | with_reducible refine settleCaps_step ?_ ?_
    | with_reducible refine startRaise_step ?_ ?_
    | ((conv => arg 3; arg 88; skip); with_reducible first | refine upd_power ?_ ?_)
    | with_reducible refine Agree.ite ?_ ?_
    | (with_reducible refine Agree.foldl ?_ ?_; intro _ _ _)
    | (with_reducible refine Agree.foldl2 ?_ ?_; intro _ _ _)
    | (with_reducible refine Agree.foldl3 ?_ ?_; intro _ _ _)
    | (with_reducible refine Agree.foldl4 ?_ ?_; intro _ _ _)
    | dsimp only
    | split
    | (with_reducible refine Agree.of_pair (by assumption) ?_)
    | (with_reducible refine Agree.of_pair2 (by assumption) ?_)
    | intro _
theorem execArbitrate_step {M s0} {acts : List Nat} {dom : List (Nat × Nat)} {avgW : Nat} {s : State} (hs : bitsIn 0x4901000000000000000000000000000000000000000000400000000000000000200 M = true) (hA : Agree M s0 s) : AgreeO M s0 (execArbitrate acts dom avgW s) :=
  hA.stepO hs (execArbitrate_frame acts dom avgW s)

theorem execCapDeferExpiry_frame (s : State) : AgreeO 0x4001000000000000000000000000000000000000000000400400000000000000000 s (execCapDeferExpiry s) := by
  unfold execCapDeferExpiry
  repeat' first
    | with_reducible assumption
    | with_reducible exact Agree.refl _ _
    | exact bitsIn_rfl rfl
    | exact regIn_rfl rfl rfl
    | with_reducible refine AgreeO.next ?_
    | with_reducible refine AgreeO.ite ?_ ?_
    | with_reducible exact AgreeO.refused
    | with_reducible exact AgreeO.fault
    | with_reducible refine modCmd_step ?_ ?_
    | with_reducible refine setF_step ?_ ?_ ?_
    | ((conv => arg 3; arg 88; skip); with_reducible first | refine upd_power ?_ ?_)
    | with_reducible refine Agree.ite ?_ ?_
    | (with_reducible refine Agree.foldl ?_ ?_; intro _ _ _)
    | (with_reducible refine Agree.foldl2 ?_ ?_; intro _ _ _)
    | (with_reducible refine Agree.foldl3 ?_ ?_; intro _ _ _)
    | (with_reducible refine Agree.foldl4 ?_ ?_; intro _ _ _)
    | dsimp only
    | split
    | (with_reducible refine Agree.of_pair (by assumption) ?_)
    | (with_reducible refine Agree.of_pair2 (by assumption) ?_)
    | intro _
theorem execCapDeferExpiry_step {M s0} {s : State} (hs : bitsIn 0x4001000000000000000000000000000000000000000000400400000000000000000 M = true) (hA : Agree M s0 s) : AgreeO M s0 (execCapDeferExpiry s) :=
  hA.stepO hs (execCapDeferExpiry_frame s)

theorem countDip_frame (s : State) : Agree 0x68000000000000000000000000000000000000000000400000000090000000000 s (countDip s) := by
  unfold countDip
  repeat' first
    | with_reducible assumption
    | with_reducible exact Agree.refl _ _
    | exact bitsIn_rfl rfl
    | exact regIn_rfl rfl rfl
    | with_reducible refine countR_step ?_ ?_ ?_
    | with_reducible refine raisePwr_step ?_ ?_ ?_
    | ((conv => arg 3; arg 88; skip); with_reducible first | refine upd_power ?_ ?_)
    | with_reducible refine Agree.ite ?_ ?_
    | dsimp only
    | split
    | (with_reducible refine Agree.of_pair (by assumption) ?_)
    | (with_reducible refine Agree.of_pair2 (by assumption) ?_)
    | intro _
theorem countDip_step {M s0} {s : State} (hs : bitsIn 0x68000000000000000000000000000000000000000000400000000090000000000 M = true) (hA : Agree M s0 s) : Agree M s0 (countDip s) :=
  hA.step hs (countDip_frame s)

theorem execVinDip_frame (mv : Nat) (s : State) : AgreeO 0x804879000000000000000000000000000000000000000001400000000090000000200 s (execVinDip mv s) := by
  unfold execVinDip
  repeat' first
    | with_reducible assumption
    | with_reducible exact Agree.refl _ _
    | exact bitsIn_rfl rfl
    | exact regIn_rfl rfl rfl
    | with_reducible refine AgreeO.next ?_
    | with_reducible refine AgreeO.ite ?_ ?_
    | with_reducible exact AgreeO.refused
    | with_reducible exact AgreeO.fault
    | with_reducible refine countDip_step ?_ ?_
    | with_reducible refine forceLow_step ?_ ?_
    | with_reducible refine noteStop_step ?_ ?_
    | with_reducible refine setF_step ?_ ?_ ?_
    | with_reducible refine Agree.ite ?_ ?_
    | dsimp only
    | split
    | (with_reducible refine Agree.of_pair (by assumption) ?_)
    | (with_reducible refine Agree.of_pair2 (by assumption) ?_)
    | intro _
theorem execVinDip_step {M s0} {mv : Nat} {s : State} (hs : bitsIn 0x804879000000000000000000000000000000000000000001400000000090000000200 M = true) (hA : Agree M s0 s) : AgreeO M s0 (execVinDip mv s) :=
  hA.stepO hs (execVinDip_frame mv s)

theorem execVinRecover_frame (us mv : Nat) (s : State) : AgreeO 0x11000000000000000000000000000000000000000000400000000000000000000 s (execVinRecover us mv s) := by
  unfold execVinRecover
  repeat' first
    | with_reducible assumption
    | with_reducible exact Agree.refl _ _
    | exact bitsIn_rfl rfl
    | exact regIn_rfl rfl rfl
    | with_reducible refine AgreeO.next ?_
    | with_reducible refine AgreeO.ite ?_ ?_
    | with_reducible exact AgreeO.refused
    | with_reducible exact AgreeO.fault
    | with_reducible refine satF_step ?_ ?_ ?_
    | with_reducible refine setF_step ?_ ?_ ?_
    | ((conv => arg 3; arg 88; skip); with_reducible first | refine upd_power ?_ ?_)
    | with_reducible refine Agree.ite ?_ ?_
    | dsimp only
    | split
    | (with_reducible refine Agree.of_pair (by assumption) ?_)
    | (with_reducible refine Agree.of_pair2 (by assumption) ?_)
    | intro _
theorem execVinRecover_step {M s0} {us mv : Nat} {s : State} (hs : bitsIn 0x11000000000000000000000000000000000000000000400000000000000000000 M = true) (hA : Agree M s0 s) : AgreeO M s0 (execVinRecover us mv s) :=
  hA.stepO hs (execVinRecover_frame us mv s)

theorem execHoldSupplyDrop_frame (s : State) : AgreeO 0x1000000000000000000000000000000000000000000000000000000000000000 s (execHoldSupplyDrop s) := by
  unfold execHoldSupplyDrop
  repeat' first
    | with_reducible assumption
    | with_reducible exact Agree.refl _ _
    | exact bitsIn_rfl rfl
    | exact regIn_rfl rfl rfl
    | with_reducible refine AgreeO.next ?_
    | with_reducible refine AgreeO.ite ?_ ?_
    | with_reducible exact AgreeO.refused
    | with_reducible exact AgreeO.fault
    | with_reducible refine setF_step ?_ ?_ ?_
    | with_reducible refine Agree.ite ?_ ?_
    | dsimp only
    | split
    | (with_reducible refine Agree.of_pair (by assumption) ?_)
    | (with_reducible refine Agree.of_pair2 (by assumption) ?_)
    | intro _
theorem execHoldSupplyDrop_step {M s0} {s : State} (hs : bitsIn 0x1000000000000000000000000000000000000000000000000000000000000000 M = true) (hA : Agree M s0 s) : AgreeO M s0 (execHoldSupplyDrop s) :=
  hA.stepO hs (execHoldSupplyDrop_frame s)

theorem execDipHoldExpiry_frame (s : State) : AgreeO 0x880801000000000000000000000000000000000000000001c00000000000000000000 s (execDipHoldExpiry s) := by
  unfold execDipHoldExpiry
  repeat' first
    | with_reducible assumption
    | with_reducible exact Agree.refl _ _
    | exact bitsIn_rfl rfl
    | exact regIn_rfl rfl rfl
    | with_reducible refine AgreeO.next ?_
    | with_reducible refine AgreeO.ite ?_ ?_
    | with_reducible exact AgreeO.refused
    | with_reducible exact AgreeO.fault
    | with_reducible refine noteResume_step ?_ ?_
    | with_reducible refine startRamp_step ?_ ?_
    | with_reducible refine Agree.ite ?_ ?_
    | dsimp only
    | split
    | (with_reducible refine Agree.of_pair (by assumption) ?_)
    | (with_reducible refine Agree.of_pair2 (by assumption) ?_)
    | intro _
theorem execDipHoldExpiry_step {M s0} {s : State} (hs : bitsIn 0x880801000000000000000000000000000000000000000001c00000000000000000000 M = true) (hA : Agree M s0 s) : AgreeO M s0 (execDipHoldExpiry s) :=
  hA.stepO hs (execDipHoldExpiry_frame s)

theorem execRampEnd_frame (s : State) : AgreeO 0x1000000000000000000000000000000000000000000000000000000000000000 s (execRampEnd s) := by
  unfold execRampEnd
  repeat' first
    | with_reducible assumption
    | with_reducible exact Agree.refl _ _
    | exact bitsIn_rfl rfl
    | exact regIn_rfl rfl rfl
    | with_reducible refine AgreeO.next ?_
    | with_reducible refine AgreeO.ite ?_ ?_
    | with_reducible exact AgreeO.refused
    | with_reducible exact AgreeO.fault
    | with_reducible refine setF_step ?_ ?_ ?_
    | with_reducible refine Agree.ite ?_ ?_
    | dsimp only
    | split
    | (with_reducible refine Agree.of_pair (by assumption) ?_)
    | (with_reducible refine Agree.of_pair2 (by assumption) ?_)
    | intro _
theorem execRampEnd_step {M s0} {s : State} (hs : bitsIn 0x1000000000000000000000000000000000000000000000000000000000000000 M = true) (hA : Agree M s0 s) : AgreeO M s0 (execRampEnd s) :=
  hA.stepO hs (execRampEnd_frame s)

theorem replanCore_frame (s : State) (c d : Nat) : Agree 0x3080000000000000000000000000000000000000000000000600000000000000000000 s (replanCore s c d) := by
  unfold replanCore
  repeat' first
    | with_reducible assumption
    | with_reducible exact Agree.refl _ _
    | exact bitsIn_rfl rfl
    | exact regIn_rfl rfl rfl
    | with_reducible refine dropCal_step ?_ ?_
    | with_reducible refine setF_step ?_ ?_ ?_
    | ((conv => arg 3; arg 88; skip); with_reducible first | refine upd_flash ?_ ?_)
    | with_reducible refine Agree.ite ?_ ?_
    | dsimp only
    | split
    | (with_reducible refine Agree.of_pair (by assumption) ?_)
    | (with_reducible refine Agree.of_pair2 (by assumption) ?_)
    | intro _
theorem replanCore_step {M s0} {s : State} {c d : Nat} (hs : bitsIn 0x3080000000000000000000000000000000000000000000000600000000000000000000 M = true) (hA : Agree M s0 s) : Agree M s0 (replanCore s c d) :=
  hA.step hs (replanCore_frame s c d)

theorem execReplanComplete_frame (degr : List Nat) (s : State) : AgreeO 0x3184260000000000000000000000000000000000000000000600000000090000000200 s (execReplanComplete degr s) := by
  unfold execReplanComplete
  repeat' first
    | with_reducible assumption
    | with_reducible exact Agree.refl _ _
    | exact bitsIn_rfl rfl
    | exact regIn_rfl rfl rfl
    | with_reducible refine AgreeO.next ?_
    | with_reducible refine AgreeO.ite ?_ ?_
    | with_reducible exact AgreeO.refused
    | with_reducible exact AgreeO.fault
    | with_reducible refine enforceLimits_step ?_ ?_
    | with_reducible refine raisePwr_step ?_ ?_ ?_
    | with_reducible refine replanCore_step ?_ ?_
    | with_reducible refine setF_step ?_ ?_ ?_
    | with_reducible refine settleCal_step ?_ ?_
    | ((conv => arg 3; arg 88; skip); with_reducible first | refine upd_flash ?_ ?_)
    | with_reducible refine Agree.ite ?_ ?_
    | (with_reducible refine Agree.foldl ?_ ?_; intro _ _ _)
    | (with_reducible refine Agree.foldl2 ?_ ?_; intro _ _ _)
    | (with_reducible refine Agree.foldl3 ?_ ?_; intro _ _ _)
    | (with_reducible refine Agree.foldl4 ?_ ?_; intro _ _ _)
    | dsimp only
    | split
    | (with_reducible refine Agree.of_pair (by assumption) ?_)
    | (with_reducible refine Agree.of_pair2 (by assumption) ?_)
    | intro _
theorem execReplanComplete_step {M s0} {degr : List Nat} {s : State} (hs : bitsIn 0x3184260000000000000000000000000000000000000000000600000000090000000200 M = true) (hA : Agree M s0 s) : AgreeO M s0 (execReplanComplete degr s) :=
  hA.stepO hs (execReplanComplete_frame degr s)

end Sys2Proof.Machine
end

