-- ==== Sys2Proof/Laws/FrameThermal.lean ====
section
/-!
SUPPORT. The frame of every function of Machine/Thermal.lean that answers a state: the fields it can change, by mask.
-/

set_option linter.unusedTactic false
set_option linter.unreachableTactic false
set_option linter.unusedVariables false

namespace Sys2Proof.Machine

theorem rederiveKeys_frame (s : State) (bad : List Nat) : Agree 0x820000000000000000000000000000000000000000000000000000000048008000000000000000 s (rederiveKeys s bad) := by
  unfold rederiveKeys
  repeat' first
    | with_reducible assumption
    | with_reducible exact Agree.refl _ _
    | exact bitsIn_rfl rfl
    | exact regIn_rfl rfl rfl
    | with_reducible refine failKey_step ?_ ?_
    | with_reducible refine modImago_step ?_ ?_
    | with_reducible refine Agree.ite ?_ ?_
    | (with_reducible refine Agree.foldl ?_ ?_; intro _ _ _)
    | (with_reducible refine Agree.foldl2 ?_ ?_; intro _ _ _)
    | (with_reducible refine Agree.foldl3 ?_ ?_; intro _ _ _)
    | (with_reducible refine Agree.foldl4 ?_ ?_; intro _ _ _)
    | dsimp only
    | split
    | (with_reducible refine Agree.of_pair (by assumption) ?_)
    | (with_reducible refine Agree.of_pair2 (by assumption) ?_)
    | intro _
theorem rederiveKeys_step {M s0} {s : State} {bad : List Nat} (hs : bitsIn 0x820000000000000000000000000000000000000000000000000000000048008000000000000000 M = true) (hA : Agree M s0 s) : Agree M s0 (rederiveKeys s bad) :=
  hA.step hs (rederiveKeys_frame s bad)

theorem execResume_frame (badKeys : List Nat) (s : State) : AgreeO 0x820000000884801000001000400000000000000000000000000000001c48008008000000000200 s (execResume badKeys s) := by
  unfold execResume
  repeat' first
    | with_reducible assumption
    | with_reducible exact Agree.refl _ _
    | exact bitsIn_rfl rfl
    | exact regIn_rfl rfl rfl
    | with_reducible refine AgreeO.next ?_
    | with_reducible refine AgreeO.ite ?_ ?_
    | with_reducible exact AgreeO.refused
    | with_reducible exact AgreeO.fault
    | with_reducible refine modPort_step ?_ ?_
    | with_reducible refine noteResume_step ?_ ?_
    | with_reducible refine rederiveKeys_step ?_ ?_
    | with_reducible refine setF_step ?_ ?_ ?_
    | with_reducible refine setSteps_step ?_ ?_
    | with_reducible refine startRamp_step ?_ ?_
    | with_reducible refine Agree.ite ?_ ?_
    | (with_reducible refine Agree.foldl ?_ ?_; intro _ _ _)
    | (with_reducible refine Agree.foldl2 ?_ ?_; intro _ _ _)
    | (with_reducible refine Agree.foldl3 ?_ ?_; intro _ _ _)
    | (with_reducible refine Agree.foldl4 ?_ ?_; intro _ _ _)
    | dsimp only
    | split
    | (with_reducible refine Agree.of_pair (by assumption) ?_)
    | (with_reducible refine Agree.of_pair2 (by assumption) ?_)
    | intro _
theorem execResume_step {M s0} {badKeys : List Nat} {s : State} (hs : bitsIn 0x820000000884801000001000400000000000000000000000000000001c48008008000000000200 M = true) (hA : Agree M s0 s) : AgreeO M s0 (execResume badKeys s) :=
  hA.stepO hs (execResume_frame badKeys s)

theorem execWakeAll_frame (s : State) : AgreeO 0x2804000000000000000000000000000000000000000000000000000000000000000200 s (execWakeAll s) := by
  unfold execWakeAll
  repeat' first
    | with_reducible assumption
    | with_reducible exact Agree.refl _ _
    | exact bitsIn_rfl rfl
    | exact regIn_rfl rfl rfl
    | with_reducible refine AgreeO.next ?_
    | with_reducible refine AgreeO.ite ?_ ?_
    | with_reducible exact AgreeO.refused
    | with_reducible exact AgreeO.fault
    | with_reducible refine wakeCore_step ?_ ?_
    | with_reducible refine wakeWing_step ?_ ?_
    | with_reducible refine Agree.ite ?_ ?_
    | (with_reducible refine Agree.foldl ?_ ?_; intro _ _ _)
    | (with_reducible refine Agree.foldl2 ?_ ?_; intro _ _ _)
    | (with_reducible refine Agree.foldl3 ?_ ?_; intro _ _ _)
    | (with_reducible refine Agree.foldl4 ?_ ?_; intro _ _ _)
    | dsimp only
    | split
    | (with_reducible refine Agree.of_pair (by assumption) ?_)
    | (with_reducible refine Agree.of_pair2 (by assumption) ?_)
    | intro _
theorem execWakeAll_step {M s0} {s : State} (hs : bitsIn 0x2804000000000000000000000000000000000000000000000000000000000000000200 M = true) (hA : Agree M s0 s) : AgreeO M s0 (execWakeAll s) :=
  hA.stepO hs (execWakeAll_frame s)

theorem thermalWing_frame (s : State) (w : Nat) : Agree 0x800060000000000000000000000000000000000000000000400000000090000000000 s (thermalWing s w) := by
  unfold thermalWing
  repeat' first
    | with_reducible assumption
    | with_reducible exact Agree.refl _ _
    | exact bitsIn_rfl rfl
    | exact regIn_rfl rfl rfl
    | with_reducible refine raisePwr_step ?_ ?_ ?_
    | with_reducible refine setF_step ?_ ?_ ?_
    | ((conv => arg 3; arg 88; skip); with_reducible first | refine upd_power ?_ ?_)
    | with_reducible refine Agree.ite ?_ ?_
    | dsimp only
    | split
    | (with_reducible refine Agree.of_pair (by assumption) ?_)
    | (with_reducible refine Agree.of_pair2 (by assumption) ?_)
    | intro _
theorem thermalWing_step {M s0} {s : State} {w : Nat} (hs : bitsIn 0x800060000000000000000000000000000000000000000000400000000090000000000 M = true) (hA : Agree M s0 s) : Agree M s0 (thermalWing s w) :=
  hA.step hs (thermalWing_frame s w)

theorem thermalStack_frame (s : State) (k : Nat) : Agree 0x60000000000400000000000000000000000000000000400000000090000000000 s (thermalStack s k) := by
  unfold thermalStack
  repeat' first
    | with_reducible assumption
    | with_reducible exact Agree.refl _ _
    | exact bitsIn_rfl rfl
    | exact regIn_rfl rfl rfl
    | with_reducible refine raisePwr_step ?_ ?_ ?_
    | with_reducible refine setF_step ?_ ?_ ?_
    | ((conv => arg 3; arg 88; skip); with_reducible first | refine upd_power ?_ ?_)
    | with_reducible refine Agree.ite ?_ ?_
    | dsimp only
    | split
    | (with_reducible refine Agree.of_pair (by assumption) ?_)
    | (with_reducible refine Agree.of_pair2 (by assumption) ?_)
    | intro _
theorem thermalStack_step {M s0} {s : State} {k : Nat} (hs : bitsIn 0x60000000000400000000000000000000000000000000400000000090000000000 M = true) (hA : Agree M s0 s) : Agree M s0 (thermalStack s k) :=
  hA.step hs (thermalStack_frame s k)

theorem execThermalSample_frame (temps : List (Nat × Nat)) (s : State) : AgreeO 0x824060000000000400000000000000000000000000000000400000000090000000200 s (execThermalSample temps s) := by
  unfold execThermalSample
  repeat' first
    | with_reducible assumption
    | with_reducible exact Agree.refl _ _
    | exact bitsIn_rfl rfl
    | exact regIn_rfl rfl rfl
    | with_reducible refine AgreeO.next ?_
    | with_reducible refine AgreeO.ite ?_ ?_
    | with_reducible exact AgreeO.refused
    | with_reducible exact AgreeO.fault
    | with_reducible refine enforceLimits_step ?_ ?_
    | with_reducible refine setF_step ?_ ?_ ?_
    | with_reducible refine thermalStack_step ?_ ?_
    | with_reducible refine thermalWing_step ?_ ?_
    | ((conv => arg 3; arg 88; skip); with_reducible first | refine upd_power ?_ ?_)
    | with_reducible refine Agree.ite ?_ ?_
    | (with_reducible refine Agree.foldl ?_ ?_; intro _ _ _)
    | (with_reducible refine Agree.foldl2 ?_ ?_; intro _ _ _)
    | (with_reducible refine Agree.foldl3 ?_ ?_; intro _ _ _)
    | (with_reducible refine Agree.foldl4 ?_ ?_; intro _ _ _)
    | dsimp only
    | split
    | (with_reducible refine Agree.of_pair (by assumption) ?_)
    | (with_reducible refine Agree.of_pair2 (by assumption) ?_)
    | intro _
theorem execThermalSample_step {M s0} {temps : List (Nat × Nat)} {s : State} (hs : bitsIn 0x824060000000000400000000000000000000000000000000400000000090000000200 M = true) (hA : Agree M s0 s) : AgreeO M s0 (execThermalSample temps s) :=
  hA.stepO hs (execThermalSample_frame temps s)

theorem idlePort_frame (s : State) (p : Nat) : Agree 0x47500000000000000000000000000000000000000000058000000000040 s (idlePort s p) := by
  unfold idlePort
  repeat' first
    | with_reducible assumption
    | with_reducible exact Agree.refl _ _
    | exact bitsIn_rfl rfl
    | exact regIn_rfl rfl rfl
    | with_reducible refine modPort_step ?_ ?_
    | with_reducible refine portExit_step ?_ ?_
    | with_reducible refine sendOn_step ?_ ?_
    | with_reducible refine Agree.ite ?_ ?_
    | dsimp only
    | split
    | (with_reducible refine Agree.of_pair (by assumption) ?_)
    | (with_reducible refine Agree.of_pair2 (by assumption) ?_)
    | intro _
theorem idlePort_step {M s0} {s : State} {p : Nat} (hs : bitsIn 0x47500000000000000000000000000000000000000000058000000000040 M = true) (hA : Agree M s0 s) : Agree M s0 (idlePort s p) :=
  hA.step hs (idlePort_frame s p)

theorem execCoolantStopComplete_frame (s : State) : AgreeO 0x47500400000000000000000000000000000000000000058000000038040 s (execCoolantStopComplete s) := by
  unfold execCoolantStopComplete
  repeat' first
    | with_reducible assumption
    | with_reducible exact Agree.refl _ _
    | exact bitsIn_rfl rfl
    | exact regIn_rfl rfl rfl
    | with_reducible refine AgreeO.next ?_
    | with_reducible refine AgreeO.ite ?_ ?_
    | with_reducible exact AgreeO.refused
    | with_reducible exact AgreeO.fault
    | with_reducible refine idlePort_step ?_ ?_
    | with_reducible refine setF_step ?_ ?_ ?_
    | with_reducible refine writeBack_step ?_ ?_
    | with_reducible refine Agree.ite ?_ ?_
    | (with_reducible refine Agree.foldl ?_ ?_; intro _ _ _)
    | (with_reducible refine Agree.foldl2 ?_ ?_; intro _ _ _)
    | (with_reducible refine Agree.foldl3 ?_ ?_; intro _ _ _)
    | (with_reducible refine Agree.foldl4 ?_ ?_; intro _ _ _)
    | dsimp only
    | split
    | (with_reducible refine Agree.of_pair (by assumption) ?_)
    | (with_reducible refine Agree.of_pair2 (by assumption) ?_)
    | intro _
theorem execCoolantStopComplete_step {M s0} {s : State} (hs : bitsIn 0x47500400000000000000000000000000000000000000058000000038040 M = true) (hA : Agree M s0 s) : AgreeO M s0 (execCoolantStopComplete s) :=
  hA.stepO hs (execCoolantStopComplete_frame s)

theorem execFlowRestored_frame (s : State) : AgreeO 0x60000000000000000000000000000000000000000002000000000090000000000 s (execFlowRestored s) := by
  unfold execFlowRestored
  repeat' first
    | with_reducible assumption
    | with_reducible exact Agree.refl _ _
    | exact bitsIn_rfl rfl
    | exact regIn_rfl rfl rfl
    | with_reducible refine AgreeO.next ?_
    | with_reducible refine AgreeO.ite ?_ ?_
    | with_reducible exact AgreeO.refused
    | with_reducible exact AgreeO.fault
    | with_reducible refine raisePwr_step ?_ ?_ ?_
    | ((conv => arg 3; arg 88; skip); with_reducible first | refine upd_aon ?_ ?_)
    | with_reducible refine Agree.ite ?_ ?_
    | dsimp only
    | split
    | (with_reducible refine Agree.of_pair (by assumption) ?_)
    | (with_reducible refine Agree.of_pair2 (by assumption) ?_)
    | intro _
theorem execFlowRestored_step {M s0} {s : State} (hs : bitsIn 0x60000000000000000000000000000000000000000002000000000090000000000 M = true) (hA : Agree M s0 s) : AgreeO M s0 (execFlowRestored s) :=
  hA.stepO hs (execFlowRestored_frame s)

theorem noteIdle_frame (s : State) : Agree 0x400000000000000000200 s (noteIdle s) := by
  unfold noteIdle
  repeat' first
    | with_reducible assumption
    | with_reducible exact Agree.refl _ _
    | exact bitsIn_rfl rfl
    | ((with_reducible refine ModOf.intro ?_); first | exact fun _ w => w | exact fun _ w => canonical_memPut _ _ w | exact fun _ w => canonical_filter _ w | exact fun _ w => canonical_foldl_mset _ _ w | exact fun _ _ => rfl)
    | with_reducible refine modCore_step ?_ ?_ ?_
    | ((conv => arg 3; arg 88; skip); with_reducible first | refine upd_power ?_ ?_)
    | with_reducible refine Agree.ite ?_ ?_
    | (with_reducible refine Agree.foldl ?_ ?_; intro _ _ _)
    | (with_reducible refine Agree.foldl2 ?_ ?_; intro _ _ _)
    | (with_reducible refine Agree.foldl3 ?_ ?_; intro _ _ _)
    | (with_reducible refine Agree.foldl4 ?_ ?_; intro _ _ _)
    | dsimp only
    | split
    | (with_reducible refine Agree.of_pair (by assumption) ?_)
    | (with_reducible refine Agree.of_pair2 (by assumption) ?_)
    | intro _
theorem noteIdle_step {M s0} {s : State} (hs : bitsIn 0x400000000000000000200 M = true) (hA : Agree M s0 s) : Agree M s0 (noteIdle s) :=
  hA.step hs (noteIdle_frame s)

theorem execCoreDiapauseEntry_frame (c : Nat) (s : State) : AgreeO 0x2000000000000000000000000000000000000000000000000000000000000040000200 s (execCoreDiapauseEntry c s) := by
  unfold execCoreDiapauseEntry
  repeat' first
    | with_reducible assumption
    | with_reducible exact Agree.refl _ _
    | exact bitsIn_rfl rfl
    | exact regIn_rfl rfl rfl
    | with_reducible refine AgreeO.next ?_
    | with_reducible refine AgreeO.ite ?_ ?_
    | with_reducible exact AgreeO.refused
    | with_reducible exact AgreeO.fault
    | ((with_reducible refine ModOf.intro ?_); first | exact fun _ w => w | exact fun _ w => canonical_memPut _ _ w | exact fun _ w => canonical_filter _ w | exact fun _ w => canonical_foldl_mset _ _ w | exact fun _ _ => rfl)
    | with_reducible refine modCore_step ?_ ?_ ?_
    | with_reducible refine retimeCore_step ?_ ?_
    | with_reducible refine setF_step ?_ ?_ ?_
    | ((conv => arg 3; arg 88; skip); with_reducible first | refine upd_tlb ?_ ?_)
    | with_reducible refine Agree.ite ?_ ?_
    | dsimp only
    | split
    | (with_reducible refine Agree.of_pair (by assumption) ?_)
    | (with_reducible refine Agree.of_pair2 (by assumption) ?_)
    | intro _
theorem execCoreDiapauseEntry_step {M s0} {c : Nat} {s : State} (hs : bitsIn 0x2000000000000000000000000000000000000000000000000000000000000040000200 M = true) (hA : Agree M s0 s) : AgreeO M s0 (execCoreDiapauseEntry c s) :=
  hA.stepO hs (execCoreDiapauseEntry_frame c s)

theorem execWingDiapauseEntry_frame (w : Nat) (s : State) : AgreeO 0x800000000000000000000000000000000000000000000000000000000000000000000 s (execWingDiapauseEntry w s) := by
  unfold execWingDiapauseEntry
  repeat' first
    | with_reducible assumption
    | with_reducible exact Agree.refl _ _
    | exact bitsIn_rfl rfl
    | exact regIn_rfl rfl rfl
    | with_reducible refine AgreeO.next ?_
    | with_reducible refine AgreeO.ite ?_ ?_
    | with_reducible exact AgreeO.refused
    | with_reducible exact AgreeO.fault
    | with_reducible refine setF_step ?_ ?_ ?_
    | with_reducible refine Agree.ite ?_ ?_
    | dsimp only
    | split
    | (with_reducible refine Agree.of_pair (by assumption) ?_)
    | (with_reducible refine Agree.of_pair2 (by assumption) ?_)
    | intro _
theorem execWingDiapauseEntry_step {M s0} {w : Nat} {s : State} (hs : bitsIn 0x800000000000000000000000000000000000000000000000000000000000000000000 M = true) (hA : Agree M s0 s) : AgreeO M s0 (execWingDiapauseEntry w s) :=
  hA.stepO hs (execWingDiapauseEntry_frame w s)

theorem execDiapauseEntered_frame (unit : Nat) (s : State) : AgreeO 0x2800000000000000000000000000000000000000000000000000000000000000000000 s (execDiapauseEntered unit s) := by
  unfold execDiapauseEntered
  repeat' first
    | with_reducible assumption
    | with_reducible exact Agree.refl _ _
    | exact bitsIn_rfl rfl
    | exact regIn_rfl rfl rfl
    | with_reducible refine AgreeO.next ?_
    | with_reducible refine AgreeO.ite ?_ ?_
    | with_reducible exact AgreeO.refused
    | with_reducible exact AgreeO.fault
    | with_reducible refine setF_step ?_ ?_ ?_
    | with_reducible refine Agree.ite ?_ ?_
    | dsimp only
    | split
    | (with_reducible refine Agree.of_pair (by assumption) ?_)
    | (with_reducible refine Agree.of_pair2 (by assumption) ?_)
    | intro _
theorem execDiapauseEntered_step {M s0} {unit : Nat} {s : State} (hs : bitsIn 0x2800000000000000000000000000000000000000000000000000000000000000000000 M = true) (hA : Agree M s0 s) : AgreeO M s0 (execDiapauseEntered unit s) :=
  hA.stepO hs (execDiapauseEntered_frame unit s)

theorem execWake_frame (unit : Nat) (s : State) : AgreeO 0x2804000000000000000000000000000000000000000000000000000000000000000200 s (execWake unit s) := by
  unfold execWake
  repeat' first
    | with_reducible assumption
    | with_reducible exact Agree.refl _ _
    | exact bitsIn_rfl rfl
    | exact regIn_rfl rfl rfl
    | with_reducible refine AgreeO.next ?_
    | with_reducible refine AgreeO.ite ?_ ?_
    | with_reducible exact AgreeO.refused
    | with_reducible exact AgreeO.fault
    | with_reducible refine wakeCore_step ?_ ?_
    | with_reducible refine wakeWing_step ?_ ?_
    | with_reducible refine Agree.ite ?_ ?_
    | dsimp only
    | split
    | (with_reducible refine Agree.of_pair (by assumption) ?_)
    | (with_reducible refine Agree.of_pair2 (by assumption) ?_)
    | intro _
theorem execWake_step {M s0} {unit : Nat} {s : State} (hs : bitsIn 0x2804000000000000000000000000000000000000000000000000000000000000000200 M = true) (hA : Agree M s0 s) : AgreeO M s0 (execWake unit s) :=
  hA.stepO hs (execWake_frame unit s)

theorem execWakeComplete_frame (unit : Nat) (s : State) : AgreeO 0x2c00800000000000000000000000000000000000000000000400000000000000000200 s (execWakeComplete unit s) := by
  unfold execWakeComplete
  repeat' first
    | with_reducible assumption
    | with_reducible exact Agree.refl _ _
    | exact bitsIn_rfl rfl
    | exact regIn_rfl rfl rfl
    | with_reducible refine AgreeO.next ?_
    | with_reducible refine AgreeO.ite ?_ ?_
    | with_reducible exact AgreeO.refused
    | with_reducible exact AgreeO.fault
    | ((with_reducible refine ModOf.intro ?_); first | exact fun _ w => w | exact fun _ w => canonical_memPut _ _ w | exact fun _ w => canonical_filter _ w | exact fun _ w => canonical_foldl_mset _ _ w | exact fun _ _ => rfl)
    | with_reducible refine countR_step ?_ ?_ ?_
    | with_reducible refine holdRaise_step ?_ ?_
    | with_reducible refine modCore_step ?_ ?_ ?_
    | with_reducible refine setF_step ?_ ?_ ?_
    | ((conv => arg 3; arg 88; skip); with_reducible first | refine upd_power ?_ ?_)
    | with_reducible refine Agree.ite ?_ ?_
    | (with_reducible refine Agree.foldl ?_ ?_; intro _ _ _)
    | (with_reducible refine Agree.foldl2 ?_ ?_; intro _ _ _)
    | (with_reducible refine Agree.foldl3 ?_ ?_; intro _ _ _)
    | (with_reducible refine Agree.foldl4 ?_ ?_; intro _ _ _)
    | dsimp only
    | split
    | (with_reducible refine Agree.of_pair (by assumption) ?_)
    | (with_reducible refine Agree.of_pair2 (by assumption) ?_)
    | intro _
theorem execWakeComplete_step {M s0} {unit : Nat} {s : State} (hs : bitsIn 0x2c00800000000000000000000000000000000000000000000400000000000000000200 M = true) (hA : Agree M s0 s) : AgreeO M s0 (execWakeComplete unit s) :=
  hA.stepO hs (execWakeComplete_frame unit s)

end Sys2Proof.Machine
end

