-- ==== Sys2Proof/Laws/FrameEclosion.lean ====
section
/-!
SUPPORT. The frame of every function of Machine/Eclosion.lean that answers a state: the fields it can change, by mask.
-/

set_option linter.unusedTactic false
set_option linter.unreachableTactic false
set_option linter.unusedVariables false

namespace Sys2Proof.Machine

theorem showLedger_frame (s : State) : Agree 0x40000000000000000000000000000000000000000000000000000000000000000000000000 s (showLedger s) := by
  unfold showLedger
  repeat' first
    | with_reducible assumption
    | with_reducible exact Agree.refl _ _
    | exact bitsIn_rfl rfl
    | exact regIn_rfl rfl rfl
    | with_reducible refine setF_step ?_ ?_ ?_
    | with_reducible refine Agree.ite ?_ ?_
    | dsimp only
    | split
    | (with_reducible refine Agree.of_pair (by assumption) ?_)
    | (with_reducible refine Agree.of_pair2 (by assumption) ?_)
    | intro _
theorem showLedger_step {M s0} {s : State} (hs : bitsIn 0x40000000000000000000000000000000000000000000000000000000000000000000000000 M = true) (hA : Agree M s0 s) : Agree M s0 (showLedger s) :=
  hA.step hs (showLedger_frame s)

theorem appendEntry_frame (s : State) (f : Finding) : Agree 0x70000000000000000000000000000000000000000000000000002200000000090000000000 s (appendEntry s f) := by
  unfold appendEntry
  repeat' first
    | with_reducible assumption
    | with_reducible exact Agree.refl _ _
    | exact bitsIn_rfl rfl
    | exact regIn_rfl rfl rfl
    | with_reducible refine raiseRst_step ?_ ?_ ?_
    | with_reducible refine satF_step ?_ ?_ ?_
    | with_reducible refine showLedger_step ?_ ?_
    | ((conv => arg 3; arg 88; skip); with_reducible first | refine upd_aon ?_ ?_ | refine upd_flash ?_ ?_)
    | with_reducible refine Agree.ite ?_ ?_
    | dsimp only
    | split
    | (with_reducible refine Agree.of_pair (by assumption) ?_)
    | (with_reducible refine Agree.of_pair2 (by assumption) ?_)
    | intro _
theorem appendEntry_step {M s0} {s : State} {f : Finding} (hs : bitsIn 0x70000000000000000000000000000000000000000000000000002200000000090000000000 M = true) (hA : Agree M s0 s) : Agree M s0 (appendEntry s f) :=
  hA.step hs (appendEntry_frame s f)

theorem appendAll_frame (s : State) (l : List Finding) : Agree 0x70000000000000000000000000000000000000000000000000002200000000090000000000 s (appendAll s l) := by
  unfold appendAll
  repeat' first
    | with_reducible assumption
    | with_reducible exact Agree.refl _ _
    | exact bitsIn_rfl rfl
    | exact regIn_rfl rfl rfl
    | with_reducible refine appendEntry_step ?_ ?_
    | with_reducible refine Agree.ite ?_ ?_
    | (with_reducible refine Agree.foldl ?_ ?_; intro _ _ _)
    | (with_reducible refine Agree.foldl2 ?_ ?_; intro _ _ _)
    | (with_reducible refine Agree.foldl3 ?_ ?_; intro _ _ _)
    | (with_reducible refine Agree.foldl4 ?_ ?_; intro _ _ _)
    | dsimp only
    | split
    | (with_reducible refine Agree.of_pair (by assumption) ?_)
    | (with_reducible refine Agree.of_pair2 (by assumption) ?_)
    | intro _
theorem appendAll_step {M s0} {s : State} {l : List Finding} (hs : bitsIn 0x70000000000000000000000000000000000000000000000000002200000000090000000000 M = true) (hA : Agree M s0 s) : Agree M s0 (appendAll s l) :=
  hA.step hs (appendAll_frame s l)

theorem recordReset_frame (s : State) (domain cause inst : Nat) (counted : Bool) : Agree 0x40000000000000000000000000000000000000000000000000000000000000000000000 s (recordReset s domain cause inst counted) := by
  unfold recordReset
  repeat' first
    | with_reducible assumption
    | with_reducible exact Agree.refl _ _
    | exact bitsIn_rfl rfl
    | exact regIn_rfl rfl rfl
    | with_reducible refine setR_step ?_ ?_ ?_
    | with_reducible refine Agree.ite ?_ ?_
    | dsimp only
    | split
    | (with_reducible refine Agree.of_pair (by assumption) ?_)
    | (with_reducible refine Agree.of_pair2 (by assumption) ?_)
    | intro _
theorem recordReset_step {M s0} {s : State} {domain cause inst : Nat} {counted : Bool} (hs : bitsIn 0x40000000000000000000000000000000000000000000000000000000000000000000000 M = true) (hA : Agree M s0 s) : Agree M s0 (recordReset s domain cause inst counted) :=
  hA.step hs (recordReset_frame s domain cause inst counted)

theorem countReset_frame (s : State) (counted : Bool) : Agree 0x2000000000000000000000 s (countReset s counted).2 := by
  unfold countReset
  repeat' first
    | with_reducible assumption
    | with_reducible exact Agree.refl _ _
    | exact bitsIn_rfl rfl
    | ((conv => arg 3; arg 88; skip); with_reducible first | refine upd_aon ?_ ?_)
    | with_reducible refine Agree.ite ?_ ?_
    | dsimp only
    | split
    | (with_reducible refine Agree.of_pair (by assumption) ?_)
    | (with_reducible refine Agree.of_pair2 (by assumption) ?_)
    | intro _
theorem countReset_step {M s0} {s : State} {counted : Bool} (hs : bitsIn 0x2000000000000000000000 M = true) (hA : Agree M s0 s) : Agree M s0 (countReset s counted).2 :=
  hA.step hs (countReset_frame s counted)

theorem noteOos_frame (s : State) : Agree 0x70000000000000000000000000000000000000000000000000002200000000090000000000 s (noteOos s) := by
  unfold noteOos
  repeat' first
    | with_reducible assumption
    | with_reducible exact Agree.refl _ _
    | exact bitsIn_rfl rfl
    | exact regIn_rfl rfl rfl
    | with_reducible refine appendEntry_step ?_ ?_
    | with_reducible refine raiseRst_step ?_ ?_ ?_
    | with_reducible refine Agree.ite ?_ ?_
    | dsimp only
    | split
    | (with_reducible refine Agree.of_pair (by assumption) ?_)
    | (with_reducible refine Agree.of_pair2 (by assumption) ?_)
    | intro _
theorem noteOos_step {M s0} {s : State} (hs : bitsIn 0x70000000000000000000000000000000000000000000000000002200000000090000000000 M = true) (hA : Agree M s0 s) : Agree M s0 (noteOos s) :=
  hA.step hs (noteOos_frame s)

theorem blankState_frame (s : State) : Agree 0x4000000000000000000000000000000000000000000000005c7ffffffff7fffff3fe73 s (blankState s) := by
  unfold blankState
  refine setF_step (bitsIn_rfl rfl) (.inl rfl) ?_
  exact ⟨fun b => absurd b (by decide), fun b => absurd b (by decide), fun _ => rfl, fun _ => rfl, fun b => absurd b (by decide), fun b => absurd b (by decide), fun b => absurd b (by decide), fun _ => rfl, fun _ => rfl, fun b => absurd b (by decide), fun b => absurd b (by decide), fun b => absurd b (by decide), fun b => absurd b (by decide), fun b => absurd b (by decide), fun b => absurd b (by decide), fun b => absurd b (by decide), fun b => absurd b (by decide), fun b => absurd b (by decide), fun _ => rfl, fun _ => rfl, fun b => absurd b (by decide), fun b => absurd b (by decide), fun b => absurd b (by decide), fun b => absurd b (by decide), fun b => absurd b (by decide), fun b => absurd b (by decide), fun b => absurd b (by decide), fun b => absurd b (by decide), fun b => absurd b (by decide), fun b => absurd b (by decide), fun b => absurd b (by decide), fun b => absurd b (by decide), fun b => absurd b (by decide), fun b => absurd b (by decide), fun b => absurd b (by decide), fun b => absurd b (by decide), fun b => absurd b (by decide), fun b => absurd b (by decide), fun b => absurd b (by decide), fun b => absurd b (by decide), fun b => absurd b (by decide), fun b => absurd b (by decide), fun b => absurd b (by decide), fun _ => rfl, fun b => absurd b (by decide), fun b => absurd b (by decide), fun b => absurd b (by decide), fun b => absurd b (by decide), fun b => absurd b (by decide), fun b => absurd b (by decide), fun b => absurd b (by decide), fun b => absurd b (by decide), fun b => absurd b (by decide), fun b => absurd b (by decide), fun b => absurd b (by decide), fun b => absurd b (by decide), fun b => absurd b (by decide), fun b => absurd b (by decide), fun b => absurd b (by decide), fun b => absurd b (by decide), fun b => absurd b (by decide), fun b => absurd b (by decide), fun b => absurd b (by decide), fun b => absurd b (by decide), fun b => absurd b (by decide), fun b => absurd b (by decide), fun b => absurd b (by decide), fun b => absurd b (by decide), fun b => absurd b (by decide), fun b => absurd b (by decide), fun b => absurd b (by decide), fun b => absurd b (by decide), fun b => absurd b (by decide), fun b => absurd b (by decide), fun b => absurd b (by decide), fun b => absurd b (by decide), fun b => absurd b (by decide), fun b => absurd b (by decide), fun b => absurd b (by decide), fun _ => rfl, fun _ => rfl, fun _ => rfl, fun b => absurd b (by decide), fun b => absurd b (by decide), fun b => absurd b (by decide), fun _ => rfl, fun b => absurd b (by decide), fun _ => rfl,
    fun w => ⟨rfl, w.2.1, fun _ => rfl⟩⟩
theorem blankState_step {M s0} {s : State} (hs : bitsIn 0x4000000000000000000000000000000000000000000000005c7ffffffff7fffff3fe73 M = true) (h : Agree M s0 s) : Agree M s0 (blankState s) :=
  h.step hs (blankState_frame s)

theorem beginE1_frame (s : State) (path : Nat) : Agree 0x4020000000000000000000000000000000000000000000007c7ffffffff7fffff3fe73 s (beginE1 s path) := by
  unfold beginE1
  repeat' first
    | with_reducible assumption
    | with_reducible exact Agree.refl _ _
    | exact bitsIn_rfl rfl
    | exact regIn_rfl rfl rfl
    | exact .inl rfl
    | with_reducible refine blankState_step ?_ ?_
    | with_reducible refine setF_step ?_ ?_ ?_
    | ((conv => arg 3; arg 88; skip); with_reducible first | refine upd_aon ?_ ?_)
    | with_reducible refine Agree.ite ?_ ?_
    | dsimp only
    | split
    | (with_reducible refine Agree.of_pair (by assumption) ?_)
    | (with_reducible refine Agree.of_pair2 (by assumption) ?_)
    | intro _
theorem beginE1_step {M s0} {s : State} {path : Nat} (hs : bitsIn 0x4020000000000000000000000000000000000000000000007c7ffffffff7fffff3fe73 M = true) (hA : Agree M s0 s) : Agree M s0 (beginE1 s path) :=
  hA.step hs (beginE1_frame s path)

theorem memOf_hbm {a s : State} {h : Mem} (hh : MemoriesWf a → Memory.wf h = true) : MemOf a s { s with hbm := h } :=
  fun w v => ⟨hh w, v.2⟩

theorem memOf_of {a b : State} {x : Aon} (h : MemoriesWf a → MemoriesWf b) (w : MemoriesWf a) :
    Memory.wf { b with aon := x }.hbm = true := (h w).1

theorem fullReset_frame (s : State) (cause : Nat) (counted selftest retrain : Bool) :
    Agree 0x44020000000000000000000000000000000000000000000007c7ffffffff7fffff3fe73 s (fullReset s cause counted selftest retrain) := by
  have hc : Agree 0x44020000000000000000000000000000000000000000000007c7ffffffff7fffff3fe73 s (countReset s counted).2 := countReset_step (bitsIn_rfl rfl) (Agree.refl _ s)
  unfold fullReset
  generalize countReset s counted = p at hc
  obtain ⟨esc, t⟩ := p
  have h2 : Agree 0x44020000000000000000000000000000000000000000000007c7ffffffff7fffff3fe73 s (if esc then setF { t with aon := { t.aon with oosDue := true } } f_RST_STATE_OUT_OF_SERVICE 0 1 else t) :=
    Agree.ite (setF_step (bitsIn_rfl rfl) (.inl rfl) (upd_aon (bitsIn_rfl rfl) hc)) hc
  dsimp only
  generalize (if esc then setF { t with aon := { t.aon with oosDue := true } } f_RST_STATE_OUT_OF_SERVICE 0 1 else t) = u at h2
  exact upd_hbm (bitsIn_rfl rfl) (memOf_hbm (memOf_of h2.mems))
    (beginE1_step (bitsIn_rfl rfl) (recordReset_step (bitsIn_rfl rfl) (upd_aon (bitsIn_rfl rfl) h2)))
theorem fullReset_step {M s0} {s : State} {cause : Nat} {counted selftest retrain : Bool} (hs : bitsIn 0x44020000000000000000000000000000000000000000000007c7ffffffff7fffff3fe73 M = true)
    (hA : Agree M s0 s) : Agree M s0 (fullReset s cause counted selftest retrain) :=
  hA.step hs (fullReset_frame s cause counted selftest retrain)

theorem powerOff_frame (s : State) : Agree 0x4000000000000000000000000000000000000000000000007c7ffffffff7fffff3fe73 s (powerOff s) := by
  unfold powerOff
  repeat' first
    | with_reducible assumption
    | with_reducible exact Agree.refl _ _
    | exact bitsIn_rfl rfl
    | exact regIn_rfl rfl rfl
    | exact .inl rfl
    | ((with_reducible refine MemOf.intro ?_); first | exact fun _ w => ⟨canonical_filter _ w.1, w.2⟩ | exact fun _ w => ⟨rfl, w.2⟩)
    | with_reducible refine blankState_step ?_ ?_
    | with_reducible refine setF_step ?_ ?_ ?_
    | ((conv => arg 3; arg 88; skip); with_reducible first | refine upd_hbm_power_aon ?_ ?_ ?_)
    | with_reducible refine Agree.ite ?_ ?_
    | dsimp only
    | split
    | (with_reducible refine Agree.of_pair (by assumption) ?_)
    | (with_reducible refine Agree.of_pair2 (by assumption) ?_)
    | intro _
theorem powerOff_step {M s0} {s : State} (hs : bitsIn 0x4000000000000000000000000000000000000000000000007c7ffffffff7fffff3fe73 M = true) (hA : Agree M s0 s) : Agree M s0 (powerOff s) :=
  hA.step hs (powerOff_frame s)

theorem coldStart_frame (s : State) : Agree 0x800044020000000000000000000000000000000000000000000007c7ffffffff7fffff3fe73 s (coldStart s) := by
  unfold coldStart
  repeat' first
    | with_reducible assumption
    | with_reducible exact Agree.refl _ _
    | exact bitsIn_rfl rfl
    | exact regIn_rfl rfl rfl
    | exact .inl rfl
    | with_reducible refine beginE1_step ?_ ?_
    | with_reducible refine recordReset_step ?_ ?_
    | with_reducible refine setF_step ?_ ?_ ?_
    | with_reducible refine setR_step ?_ ?_ ?_
    | ((conv => arg 3; arg 88; skip); with_reducible first | refine upd_aon ?_ ?_)
    | with_reducible refine Agree.ite ?_ ?_
    | dsimp only
    | split
    | (with_reducible refine Agree.of_pair (by assumption) ?_)
    | (with_reducible refine Agree.of_pair2 (by assumption) ?_)
    | intro _
theorem coldStart_step {M s0} {s : State} (hs : bitsIn 0x800044020000000000000000000000000000000000000000000007c7ffffffff7fffff3fe73 M = true) (hA : Agree M s0 s) : Agree M s0 (coldStart s) :=
  hA.step hs (coldStart_frame s)

theorem powerGood_frame (s : State) : Agree 0x800044020000000000000000000000000000000000000000000007c7ffffffff7fffff3fe73 s (powerGood s) := by
  unfold powerGood
  repeat' first
    | with_reducible assumption
    | with_reducible exact Agree.refl _ _
    | exact bitsIn_rfl rfl
    | exact regIn_rfl rfl rfl
    | exact .inl rfl
    | with_reducible refine beginE1_step ?_ ?_
    | with_reducible refine coldStart_step ?_ ?_
    | ((conv => arg 3; arg 88; skip); with_reducible first | refine upd_aon ?_ ?_)
    | with_reducible refine Agree.ite ?_ ?_
    | dsimp only
    | split
    | (with_reducible refine Agree.of_pair (by assumption) ?_)
    | (with_reducible refine Agree.of_pair2 (by assumption) ?_)
    | intro _
theorem powerGood_step {M s0} {s : State} (hs : bitsIn 0x800044020000000000000000000000000000000000000000000007c7ffffffff7fffff3fe73 M = true) (hA : Agree M s0 s) : Agree M s0 (powerGood s) :=
  hA.step hs (powerGood_frame s)

theorem execVinAuxApply_frame (s : State) : AgreeO 0x4000000000000000000000000000000000000000000000002000000000000000000000 s (execVinAuxApply s) := by
  unfold execVinAuxApply
  repeat' first
    | with_reducible assumption
    | with_reducible exact Agree.refl _ _
    | exact bitsIn_rfl rfl
    | exact regIn_rfl rfl rfl
    | with_reducible refine AgreeO.next ?_
    | with_reducible refine AgreeO.ite ?_ ?_
    | with_reducible exact AgreeO.refused
    | with_reducible exact AgreeO.fault
    | with_reducible refine setF_step ?_ ?_ ?_
    | ((conv => arg 3; arg 88; skip); with_reducible first | refine upd_aon ?_ ?_)
    | with_reducible refine Agree.ite ?_ ?_
    | dsimp only
    | split
    | (with_reducible refine Agree.of_pair (by assumption) ?_)
    | (with_reducible refine Agree.of_pair2 (by assumption) ?_)
    | intro _
theorem execVinAuxApply_step {M s0} {s : State} (hs : bitsIn 0x4000000000000000000000000000000000000000000000002000000000000000000000 M = true) (hA : Agree M s0 s) : AgreeO M s0 (execVinAuxApply s) :=
  hA.stepO hs (execVinAuxApply_frame s)

theorem execVinMainApply_frame (s : State) : AgreeO 0x800044020000000000000000000000000000000000000000000007c7ffffffff7fffff3fe73 s (execVinMainApply s) := by
  unfold execVinMainApply
  repeat' first
    | with_reducible assumption
    | with_reducible exact Agree.refl _ _
    | exact bitsIn_rfl rfl
    | exact regIn_rfl rfl rfl
    | exact .inl rfl
    | with_reducible refine AgreeO.next ?_
    | with_reducible refine AgreeO.ite ?_ ?_
    | with_reducible exact AgreeO.refused
    | with_reducible exact AgreeO.fault
    | with_reducible refine powerGood_step ?_ ?_
    | ((conv => arg 3; arg 88; skip); with_reducible first | refine upd_aon ?_ ?_)
    | with_reducible refine Agree.ite ?_ ?_
    | dsimp only
    | split
    | (with_reducible refine Agree.of_pair (by assumption) ?_)
    | (with_reducible refine Agree.of_pair2 (by assumption) ?_)
    | intro _
theorem execVinMainApply_step {M s0} {s : State} (hs : bitsIn 0x800044020000000000000000000000000000000000000000000007c7ffffffff7fffff3fe73 M = true) (hA : Agree M s0 s) : AgreeO M s0 (execVinMainApply s) :=
  hA.stepO hs (execVinMainApply_frame s)

theorem supplyReset_frame (s : State) : Agree 0x44000000000000000000000000000000000000000000000007c7ffffffff7fffff3fe73 s (supplyReset s) := by
  unfold supplyReset
  repeat' first
    | with_reducible assumption
    | with_reducible exact Agree.refl _ _
    | exact bitsIn_rfl rfl
    | exact regIn_rfl rfl rfl
    | exact .inl rfl
    | with_reducible refine countReset_step ?_ ?_
    | with_reducible refine powerOff_step ?_ ?_
    | with_reducible refine recordReset_step ?_ ?_
    | with_reducible refine setF_step ?_ ?_ ?_
    | ((conv => arg 3; arg 88; skip); with_reducible first | refine upd_aon ?_ ?_)
    | with_reducible refine Agree.ite ?_ ?_
    | dsimp only
    | split
    | (with_reducible refine Agree.of_pair (by assumption) ?_)
    | (with_reducible refine Agree.of_pair2 (by assumption) ?_)
    | intro _
theorem supplyReset_step {M s0} {s : State} (hs : bitsIn 0x44000000000000000000000000000000000000000000000007c7ffffffff7fffff3fe73 M = true) (hA : Agree M s0 s) : Agree M s0 (supplyReset s) :=
  hA.step hs (supplyReset_frame s)

theorem execSupplyReset_frame (s : State) : AgreeO 0x44000000000000000000000000000000000000000000000007c7ffffffff7fffff3fe73 s (execSupplyReset s) := by
  unfold execSupplyReset
  repeat' first
    | with_reducible assumption
    | with_reducible exact Agree.refl _ _
    | exact bitsIn_rfl rfl
    | exact regIn_rfl rfl rfl
    | exact .inl rfl
    | with_reducible refine AgreeO.next ?_
    | with_reducible refine AgreeO.ite ?_ ?_
    | with_reducible exact AgreeO.refused
    | with_reducible exact AgreeO.fault
    | with_reducible refine supplyReset_step ?_ ?_
    | with_reducible refine Agree.ite ?_ ?_
    | dsimp only
    | split
    | (with_reducible refine Agree.of_pair (by assumption) ?_)
    | (with_reducible refine Agree.of_pair2 (by assumption) ?_)
    | intro _
theorem execSupplyReset_step {M s0} {s : State} (hs : bitsIn 0x44000000000000000000000000000000000000000000000007c7ffffffff7fffff3fe73 M = true) (hA : Agree M s0 s) : AgreeO M s0 (execSupplyReset s) :=
  hA.stepO hs (execSupplyReset_frame s)

theorem execRefclkLoss_frame (s : State) : AgreeO 0x44000000000000000000000000000000000000000000000007c7ffffffff7fffff3fe73 s (execRefclkLoss s) := by
  unfold execRefclkLoss
  repeat' first
    | with_reducible assumption
    | with_reducible exact Agree.refl _ _
    | exact bitsIn_rfl rfl
    | exact regIn_rfl rfl rfl
    | exact .inl rfl
    | with_reducible refine AgreeO.next ?_
    | with_reducible refine AgreeO.ite ?_ ?_
    | with_reducible exact AgreeO.refused
    | with_reducible exact AgreeO.fault
    | with_reducible refine supplyReset_step ?_ ?_
    | with_reducible refine Agree.ite ?_ ?_
    | dsimp only
    | split
    | (with_reducible refine Agree.of_pair (by assumption) ?_)
    | (with_reducible refine Agree.of_pair2 (by assumption) ?_)
    | intro _
theorem execRefclkLoss_step {M s0} {s : State} (hs : bitsIn 0x44000000000000000000000000000000000000000000000007c7ffffffff7fffff3fe73 M = true) (hA : Agree M s0 s) : AgreeO M s0 (execRefclkLoss s) :=
  hA.stepO hs (execRefclkLoss_frame s)

theorem execThermalTrip_frame (sensor temp : Nat) (s : State) : AgreeO 0x4200000000000000000000000000000000000000000000007c7ffffffff7fffff3fe73 s (execThermalTrip sensor temp s) := by
  unfold execThermalTrip
  repeat' first
    | with_reducible assumption
    | with_reducible exact Agree.refl _ _
    | exact bitsIn_rfl rfl
    | exact regIn_rfl rfl rfl
    | exact .inl rfl
    | with_reducible refine AgreeO.next ?_
    | with_reducible refine AgreeO.ite ?_ ?_
    | with_reducible exact AgreeO.refused
    | with_reducible exact AgreeO.fault
    | with_reducible refine powerOff_step ?_ ?_
    | with_reducible refine setR_step ?_ ?_ ?_
    | ((conv => arg 3; arg 88; skip); with_reducible first | refine upd_aon ?_ ?_)
    | with_reducible refine Agree.ite ?_ ?_
    | dsimp only
    | split
    | (with_reducible refine Agree.of_pair (by assumption) ?_)
    | (with_reducible refine Agree.of_pair2 (by assumption) ?_)
    | intro _
theorem execThermalTrip_step {M s0} {sensor temp : Nat} {s : State} (hs : bitsIn 0x4200000000000000000000000000000000000000000000007c7ffffffff7fffff3fe73 M = true) (hA : Agree M s0 s) : AgreeO M s0 (execThermalTrip sensor temp s) :=
  hA.stepO hs (execThermalTrip_frame sensor temp s)

theorem execVinMainRemoved_frame (s : State) : AgreeO 0x44000000000000000000000000000000000000000000000007c7ffffffff7fffff3fe73 s (execVinMainRemoved s) := by
  unfold execVinMainRemoved
  repeat' first
    | with_reducible assumption
    | with_reducible exact Agree.refl _ _
    | exact bitsIn_rfl rfl
    | exact regIn_rfl rfl rfl
    | exact .inl rfl
    | with_reducible refine AgreeO.next ?_
    | with_reducible refine AgreeO.ite ?_ ?_
    | with_reducible exact AgreeO.refused
    | with_reducible exact AgreeO.fault
    | with_reducible refine supplyReset_step ?_ ?_
    | ((conv => arg 3; arg 88; skip); with_reducible first | refine upd_aon ?_ ?_)
    | with_reducible refine Agree.ite ?_ ?_
    | dsimp only
    | split
    | (with_reducible refine Agree.of_pair (by assumption) ?_)
    | (with_reducible refine Agree.of_pair2 (by assumption) ?_)
    | intro _
theorem execVinMainRemoved_step {M s0} {s : State} (hs : bitsIn 0x44000000000000000000000000000000000000000000000007c7ffffffff7fffff3fe73 M = true) (hA : Agree M s0 s) : AgreeO M s0 (execVinMainRemoved s) :=
  hA.stepO hs (execVinMainRemoved_frame s)

theorem execVinAuxLoss_frame (s : State) : AgreeO 0x44200000000000000000000000000000000000000000000007c7ffffffff7fffff3fe73 s (execVinAuxLoss s) := by
  unfold execVinAuxLoss
  repeat' first
    | with_reducible assumption
    | with_reducible exact Agree.refl _ _
    | exact bitsIn_rfl rfl
    | exact regIn_rfl rfl rfl
    | exact .inl rfl
    | with_reducible refine AgreeO.next ?_
    | with_reducible refine AgreeO.ite ?_ ?_
    | with_reducible exact AgreeO.refused
    | with_reducible exact AgreeO.fault
    | with_reducible refine powerOff_step ?_ ?_
    | with_reducible refine setF_step ?_ ?_ ?_
    | with_reducible refine setR_step ?_ ?_ ?_
    | ((conv => arg 3; arg 88; skip); with_reducible first | refine upd_aon ?_ ?_)
    | with_reducible refine Agree.ite ?_ ?_
    | dsimp only
    | split
    | (with_reducible refine Agree.of_pair (by assumption) ?_)
    | (with_reducible refine Agree.of_pair2 (by assumption) ?_)
    | intro _
theorem execVinAuxLoss_step {M s0} {s : State} (hs : bitsIn 0x44200000000000000000000000000000000000000000000007c7ffffffff7fffff3fe73 M = true) (hA : Agree M s0 s) : AgreeO M s0 (execVinAuxLoss s) :=
  hA.stepO hs (execVinAuxLoss_frame s)

theorem execPerstAssert_frame (s : State) : AgreeO 0x44020000000000000000000000000000000000000000000007c7ffffffff7fffff3fe73 s (execPerstAssert s) := by
  unfold execPerstAssert
  repeat' first
    | with_reducible assumption
    | with_reducible exact Agree.refl _ _
    | exact bitsIn_rfl rfl
    | exact regIn_rfl rfl rfl
    | exact .inl rfl
    | with_reducible refine AgreeO.next ?_
    | with_reducible refine AgreeO.ite ?_ ?_
    | with_reducible exact AgreeO.refused
    | with_reducible exact AgreeO.fault
    | with_reducible refine fullReset_step ?_ ?_
    | ((conv => arg 3; arg 88; skip); with_reducible first | refine upd_aon ?_ ?_)
    | with_reducible refine Agree.ite ?_ ?_
    | dsimp only
    | split
    | (with_reducible refine Agree.of_pair (by assumption) ?_)
    | (with_reducible refine Agree.of_pair2 (by assumption) ?_)
    | intro _
theorem execPerstAssert_step {M s0} {s : State} (hs : bitsIn 0x44020000000000000000000000000000000000000000000007c7ffffffff7fffff3fe73 M = true) (hA : Agree M s0 s) : AgreeO M s0 (execPerstAssert s) :=
  hA.stepO hs (execPerstAssert_frame s)

theorem execPerstDeassert_frame (s : State) : AgreeO 0x2000000000000000000000 s (execPerstDeassert s) := by
  unfold execPerstDeassert
  repeat' first
    | with_reducible assumption
    | with_reducible exact Agree.refl _ _
    | exact bitsIn_rfl rfl
    | with_reducible refine AgreeO.next ?_
    | with_reducible refine AgreeO.ite ?_ ?_
    | with_reducible exact AgreeO.refused
    | with_reducible exact AgreeO.fault
    | ((conv => arg 3; arg 88; skip); with_reducible first | refine upd_aon ?_ ?_)
    | with_reducible refine Agree.ite ?_ ?_
    | dsimp only
    | split
    | (with_reducible refine Agree.of_pair (by assumption) ?_)
    | (with_reducible refine Agree.of_pair2 (by assumption) ?_)
    | intro _
theorem execPerstDeassert_step {M s0} {s : State} (hs : bitsIn 0x2000000000000000000000 M = true) (hA : Agree M s0 s) : AgreeO M s0 (execPerstDeassert s) :=
  hA.stepO hs (execPerstDeassert_frame s)

theorem execCoolantStop_frame (s : State) : AgreeO 0x44804861000000000000000000000000000000000000000007c7ffffffffffffff3fe73 s (execCoolantStop s) := by
  unfold execCoolantStop
  repeat' first
    | with_reducible assumption
    | with_reducible exact Agree.refl _ _
    | exact bitsIn_rfl rfl
    | exact regIn_rfl rfl rfl
    | exact .inl rfl
    | with_reducible refine AgreeO.next ?_
    | with_reducible refine AgreeO.ite ?_ ?_
    | with_reducible exact AgreeO.refused
    | with_reducible exact AgreeO.fault
    | with_reducible refine forceLow_step ?_ ?_
    | with_reducible refine noteStop_step ?_ ?_
    | with_reducible refine powerOff_step ?_ ?_
    | with_reducible refine quietReqs_step ?_ ?_
    | with_reducible refine raisePwr_step ?_ ?_ ?_
    | with_reducible refine recordReset_step ?_ ?_
    | with_reducible refine setF_step ?_ ?_ ?_
    | ((conv => arg 3; arg 88; skip); with_reducible first | refine upd_aon ?_ ?_)
    | with_reducible refine Agree.ite ?_ ?_
    | dsimp only
    | split
    | (with_reducible refine Agree.of_pair (by assumption) ?_)
    | (with_reducible refine Agree.of_pair2 (by assumption) ?_)
    | intro _
theorem execCoolantStop_step {M s0} {s : State} (hs : bitsIn 0x44804861000000000000000000000000000000000000000007c7ffffffffffffff3fe73 M = true) (hA : Agree M s0 s) : AgreeO M s0 (execCoolantStop s) :=
  hA.stepO hs (execCoolantStop_frame s)

theorem beginE3_frame (s : State) : Agree 0x4000000000000000000000000000000000000000000000002000000000000000000000 s (beginE3 s) := by
  unfold beginE3
  repeat' first
    | with_reducible assumption
    | with_reducible exact Agree.refl _ _
    | exact bitsIn_rfl rfl
    | exact regIn_rfl rfl rfl
    | with_reducible refine setF_step ?_ ?_ ?_
    | ((conv => arg 3; arg 88; skip); with_reducible first | refine upd_aon ?_ ?_)
    | with_reducible refine Agree.ite ?_ ?_
    | dsimp only
    | split
    | (with_reducible refine Agree.of_pair (by assumption) ?_)
    | (with_reducible refine Agree.of_pair2 (by assumption) ?_)
    | intro _
theorem beginE3_step {M s0} {s : State} (hs : bitsIn 0x4000000000000000000000000000000000000000000000002000000000000000000000 M = true) (hA : Agree M s0 s) : Agree M s0 (beginE3 s) :=
  hA.step hs (beginE3_frame s)

theorem execFlowOkHeld_frame (s : State) : AgreeO 0x4020000000000000000000000000000000000000000000007c7ffffffff7fffff3fe73 s (execFlowOkHeld s) := by
  unfold execFlowOkHeld
  repeat' first
    | with_reducible assumption
    | with_reducible exact Agree.refl _ _
    | exact bitsIn_rfl rfl
    | exact regIn_rfl rfl rfl
    | exact .inl rfl
    | with_reducible refine AgreeO.next ?_
    | with_reducible refine AgreeO.ite ?_ ?_
    | with_reducible exact AgreeO.refused
    | with_reducible exact AgreeO.fault
    | with_reducible refine beginE1_step ?_ ?_
    | with_reducible refine beginE3_step ?_ ?_
    | ((conv => arg 3; arg 88; skip); with_reducible first | refine upd_aon ?_ ?_)
    | with_reducible refine Agree.ite ?_ ?_
    | dsimp only
    | split
    | (with_reducible refine Agree.of_pair (by assumption) ?_)
    | (with_reducible refine Agree.of_pair2 (by assumption) ?_)
    | intro _
theorem execFlowOkHeld_step {M s0} {s : State} (hs : bitsIn 0x4020000000000000000000000000000000000000000000007c7ffffffff7fffff3fe73 M = true) (hA : Agree M s0 s) : AgreeO M s0 (execFlowOkHeld s) :=
  hA.stepO hs (execFlowOkHeld_frame s)

theorem nextPhase_frame (s : State) (n : Nat) : Agree 0x800004000000000000000000000000000000000000000000000002000000000000000000000 s (nextPhase s n) := by
  unfold nextPhase
  repeat' first
    | with_reducible assumption
    | with_reducible exact Agree.refl _ _
    | exact bitsIn_rfl rfl
    | exact regIn_rfl rfl rfl
    | with_reducible refine setF_step ?_ ?_ ?_
    | with_reducible refine setR_step ?_ ?_ ?_
    | ((conv => arg 3; arg 88; skip); with_reducible first | refine upd_aon ?_ ?_)
    | with_reducible refine Agree.ite ?_ ?_
    | dsimp only
    | split
    | (with_reducible refine Agree.of_pair (by assumption) ?_)
    | (with_reducible refine Agree.of_pair2 (by assumption) ?_)
    | intro _
theorem nextPhase_step {M s0} {s : State} {n : Nat} (hs : bitsIn 0x800004000000000000000000000000000000000000000000000002000000000000000000000 M = true) (hA : Agree M s0 s) : Agree M s0 (nextPhase s n) :=
  hA.step hs (nextPhase_frame s n)

theorem holdPhase_frame (s : State) : Agree 0x30004000000000000000000000000000000000000000000000000000000000090000000000 s (holdPhase s) := by
  unfold holdPhase
  repeat' first
    | with_reducible assumption
    | with_reducible exact Agree.refl _ _
    | exact bitsIn_rfl rfl
    | exact regIn_rfl rfl rfl
    | with_reducible refine raiseRst_step ?_ ?_ ?_
    | with_reducible refine setF_step ?_ ?_ ?_
    | with_reducible refine Agree.ite ?_ ?_
    | dsimp only
    | split
    | (with_reducible refine Agree.of_pair (by assumption) ?_)
    | (with_reducible refine Agree.of_pair2 (by assumption) ?_)
    | intro _
theorem holdPhase_step {M s0} {s : State} (hs : bitsIn 0x30004000000000000000000000000000000000000000000000000000000000090000000000 M = true) (hA : Agree M s0 s) : Agree M s0 (holdPhase s) :=
  hA.step hs (holdPhase_frame s)

theorem endE1_frame (s : State) (flash : Flash) (rootOk : Bool) : Agree 0x1018870004000000000000000000000000000000000000000000000002280000000090000000000 s (endE1 s flash rootOk) := by
  unfold endE1
  repeat' first
    | with_reducible assumption
    | with_reducible exact Agree.refl _ _
    | exact bitsIn_rfl rfl
    | exact regIn_rfl rfl rfl
    | with_reducible refine holdPhase_step ?_ ?_
    | with_reducible refine nextPhase_step ?_ ?_
    | with_reducible refine setF_step ?_ ?_ ?_
    | with_reducible refine setR_step ?_ ?_ ?_
    | with_reducible refine showLedger_step ?_ ?_
    | ((conv => arg 3; arg 88; skip); with_reducible first | refine upd_cvks ?_ ?_ | refine upd_flash ?_ ?_)
    | with_reducible refine Agree.ite ?_ ?_
    | (with_reducible refine Agree.foldl ?_ ?_; intro _ _ _)
    | (with_reducible refine Agree.foldl2 ?_ ?_; intro _ _ _)
    | (with_reducible refine Agree.foldl3 ?_ ?_; intro _ _ _)
    | (with_reducible refine Agree.foldl4 ?_ ?_; intro _ _ _)
    | dsimp only
    | split
    | (with_reducible refine Agree.of_pair (by assumption) ?_)
    | (with_reducible refine Agree.of_pair2 (by assumption) ?_)
    | intro _
theorem endE1_step {M s0} {s : State} {flash : Flash} {rootOk : Bool} (hs : bitsIn 0x1018870004000000000000000000000000000000000000000000000002280000000090000000000 M = true) (hA : Agree M s0 s) : Agree M s0 (endE1 s flash rootOk) :=
  hA.step hs (endE1_frame s flash rootOk)

theorem loadFused_frame (s : State) : Agree 0x1000000000000000000000000000000000000000000000000000000000000000000000 s (loadFused s) := by
  unfold loadFused
  repeat' first
    | with_reducible assumption
    | with_reducible exact Agree.refl _ _
    | exact bitsIn_rfl rfl
    | exact regIn_rfl rfl rfl
    | with_reducible refine setF_step ?_ ?_ ?_
    | with_reducible refine Agree.ite ?_ ?_
    | (with_reducible refine Agree.foldl ?_ ?_; intro _ _ _)
    | (with_reducible refine Agree.foldl2 ?_ ?_; intro _ _ _)
    | (with_reducible refine Agree.foldl3 ?_ ?_; intro _ _ _)
    | (with_reducible refine Agree.foldl4 ?_ ?_; intro _ _ _)
    | dsimp only
    | split
    | (with_reducible refine Agree.of_pair (by assumption) ?_)
    | (with_reducible refine Agree.of_pair2 (by assumption) ?_)
    | intro _
theorem loadFused_step {M s0} {s : State} (hs : bitsIn 0x1000000000000000000000000000000000000000000000000000000000000000000000 M = true) (hA : Agree M s0 s) : Agree M s0 (loadFused s) :=
  hA.step hs (loadFused_frame s)

theorem endE2_frame (s : State) (parityOk : Bool) : Agree 0x8830005000000000000000000000000000000000000000000000102000000000090000000000 s (endE2 s parityOk) := by
  unfold endE2
  repeat' first
    | with_reducible assumption
    | with_reducible exact Agree.refl _ _
    | exact bitsIn_rfl rfl
    | exact regIn_rfl rfl rfl
    | with_reducible refine holdPhase_step ?_ ?_
    | with_reducible refine loadFused_step ?_ ?_
    | with_reducible refine nextPhase_step ?_ ?_
    | with_reducible refine setF_step ?_ ?_ ?_
    | with_reducible refine setR_step ?_ ?_ ?_
    | ((conv => arg 3; arg 88; skip); with_reducible first | refine upd_aon ?_ ?_)
    | with_reducible refine Agree.ite ?_ ?_
    | dsimp only
    | split
    | (with_reducible refine Agree.of_pair (by assumption) ?_)
    | (with_reducible refine Agree.of_pair2 (by assumption) ?_)
    | intro _
theorem endE2_step {M s0} {s : State} {parityOk : Bool} (hs : bitsIn 0x8830005000000000000000000000000000000000000000000000102000000000090000000000 M = true) (hA : Agree M s0 s) : Agree M s0 (endE2 s parityOk) :=
  hA.step hs (endE2_frame s parityOk)

theorem endE3_frame (s : State) : Agree 0x800004000400000000000000000000000000000000000000000002000000000000000000000 s (endE3 s) := by
  unfold endE3
  repeat' first
    | with_reducible assumption
    | with_reducible exact Agree.refl _ _
    | exact bitsIn_rfl rfl
    | exact regIn_rfl rfl rfl
    | with_reducible refine nextPhase_step ?_ ?_
    | with_reducible refine setF_step ?_ ?_ ?_
    | ((conv => arg 3; arg 88; skip); with_reducible first | refine upd_aon ?_ ?_)
    | with_reducible refine Agree.ite ?_ ?_
    | (with_reducible refine Agree.foldl ?_ ?_; intro _ _ _)
    | (with_reducible refine Agree.foldl2 ?_ ?_; intro _ _ _)
    | (with_reducible refine Agree.foldl3 ?_ ?_; intro _ _ _)
    | (with_reducible refine Agree.foldl4 ?_ ?_; intro _ _ _)
    | dsimp only
    | split
    | (with_reducible refine Agree.of_pair (by assumption) ?_)
    | (with_reducible refine Agree.of_pair2 (by assumption) ?_)
    | intro _
theorem endE3_step {M s0} {s : State} (hs : bitsIn 0x800004000400000000000000000000000000000000000000000002000000000000000000000 M = true) (hA : Agree M s0 s) : Agree M s0 (endE3 s) :=
  hA.step hs (endE3_frame s)

theorem endE4_frame (s : State) (failed : List (Nat × Nat)) : Agree 0x870004000000000000000200000000000000000000000000000002200000000090000000000 s (endE4 s failed) := by
  unfold endE4
  repeat' first
    | with_reducible assumption
    | with_reducible exact Agree.refl _ _
    | exact bitsIn_rfl rfl
    | exact regIn_rfl rfl rfl
    | with_reducible refine appendAll_step ?_ ?_
    | with_reducible refine holdPhase_step ?_ ?_
    | with_reducible refine nextPhase_step ?_ ?_
    | with_reducible refine setF_step ?_ ?_ ?_
    | with_reducible refine Agree.ite ?_ ?_
    | (with_reducible refine Agree.foldl ?_ ?_; intro _ _ _)
    | (with_reducible refine Agree.foldl2 ?_ ?_; intro _ _ _)
    | (with_reducible refine Agree.foldl3 ?_ ?_; intro _ _ _)
    | (with_reducible refine Agree.foldl4 ?_ ?_; intro _ _ _)
    | dsimp only
    | split
    | (with_reducible refine Agree.of_pair (by assumption) ?_)
    | (with_reducible refine Agree.of_pair2 (by assumption) ?_)
    | intro _
theorem endE4_step {M s0} {s : State} {failed : List (Nat × Nat)} (hs : bitsIn 0x870004000000000000000200000000000000000000000000000002200000000090000000000 M = true) (hA : Agree M s0 s) : Agree M s0 (endE4 s failed) :=
  hA.step hs (endE4_frame s failed)

theorem endE5_frame (s : State) (untrained temps : List Nat) (finds : List Finding) : Agree 0x870004000000000000000400000000000000000000000000000002200000000090000038000 s (endE5 s untrained temps finds) := by
  have h1 : ∀ (g : State → Nat → State), (∀ t k, Agree 0x870004000000000000000400000000000000000000000000000002200000000090000038000 s t → Agree 0x870004000000000000000400000000000000000000000000000002200000000090000038000 s (g t k)) →
      Agree 0x870004000000000000000400000000000000000000000000000002200000000090000038000 s ((List.range 8).foldl g s) := fun g hg => Agree.foldl hg (Agree.refl _ s)
  have h2 := h1 (fun s k => setF (setF s f_MEM_STACK_STAT_TRAINED k (b2n (!untrained.contains k))) f_MEM_STACK_STAT_TEMP k
    (min 255 (temps.getD k 0))) (fun t k h => setF_step (bitsIn_rfl rfl) (regIn_rfl rfl rfl)
      (setF_step (bitsIn_rfl rfl) (regIn_rfl rfl rfl) h))
  unfold endE5
  dsimp only
  generalize (List.range 8).foldl (fun s k => setF (setF s f_MEM_STACK_STAT_TRAINED k (b2n (!untrained.contains k)))
    f_MEM_STACK_STAT_TEMP k (min 255 (temps.getD k 0))) s = u at h2
  refine nextPhase_step (bitsIn_rfl rfl) (appendAll_step (bitsIn_rfl rfl) (setF_step (bitsIn_rfl rfl) (regIn_rfl rfl rfl) ?_))
  exact upd_hbm_hbmPoison_bufs_aon (bitsIn_rfl rfl) (MemOf.intro (fun _ w => ⟨rfl, w.2⟩)) h2
theorem endE5_step {M s0} {s : State} {untrained temps : List Nat} {finds : List Finding} (hs : bitsIn 0x870004000000000000000400000000000000000000000000000002200000000090000038000 M = true) (hA : Agree M s0 s) : Agree M s0 (endE5 s untrained temps finds) :=
  hA.step hs (endE5_frame s untrained temps finds)

theorem numberWing_frame (s : State) (w : Nat) : Agree 0x3000000000000000000000000000000000000000000001000000000000000000000400 s (numberWing s w) := by
  unfold numberWing
  repeat' first
    | with_reducible assumption
    | with_reducible exact Agree.refl _ _
    | exact bitsIn_rfl rfl
    | exact regIn_rfl rfl rfl
    | with_reducible refine setR_step ?_ ?_ ?_
    | ((conv => arg 3; arg 88; skip); with_reducible first | refine upd_corePhys ?_ ?_)
    | with_reducible refine Agree.ite ?_ ?_
    | (with_reducible refine Agree.foldl ?_ ?_; intro _ _ _)
    | (with_reducible refine Agree.foldl2 ?_ ?_; intro _ _ _)
    | (with_reducible refine Agree.foldl3 ?_ ?_; intro _ _ _)
    | (with_reducible refine Agree.foldl4 ?_ ?_; intro _ _ _)
    | dsimp only
    | split
    | (with_reducible refine Agree.of_pair (by assumption) ?_)
    | (with_reducible refine Agree.of_pair2 (by assumption) ?_)
    | intro _
theorem numberWing_step {M s0} {s : State} {w : Nat} (hs : bitsIn 0x3000000000000000000000000000000000000000000001000000000000000000000400 M = true) (hA : Agree M s0 s) : Agree M s0 (numberWing s w) :=
  hA.step hs (numberWing_frame s w)

theorem loadLinkCaps_frame (s : State) : Agree 0x4000000000000000000000000 s (loadLinkCaps s) := by
  unfold loadLinkCaps
  repeat' first
    | with_reducible assumption
    | with_reducible exact Agree.refl _ _
    | exact bitsIn_rfl rfl
    | exact regIn_rfl rfl rfl
    | with_reducible refine setF_step ?_ ?_ ?_
    | with_reducible refine Agree.ite ?_ ?_
    | dsimp only
    | split
    | (with_reducible refine Agree.of_pair (by assumption) ?_)
    | (with_reducible refine Agree.of_pair2 (by assumption) ?_)
    | intro _
theorem loadLinkCaps_step {M s0} {s : State} (hs : bitsIn 0x4000000000000000000000000 M = true) (hA : Agree M s0 s) : Agree M s0 (loadLinkCaps s) :=
  hA.step hs (loadLinkCaps_frame s)

theorem endE7_frame (s : State) : Agree 0x970007900200000000001000408000000000000000008000007802600000800090000000480 s (endE7 s) := by
  unfold endE7
  repeat' first
    | with_reducible assumption
    | with_reducible exact Agree.refl _ _
    | exact bitsIn_rfl rfl
    | exact regIn_rfl rfl rfl
    | with_reducible refine freeVal_step ?_ ?_
    | with_reducible refine loadLinkCaps_step ?_ ?_
    | with_reducible refine nextPhase_step ?_ ?_
    | with_reducible refine noteOos_step ?_ ?_
    | with_reducible refine numberWing_step ?_ ?_
    | with_reducible refine setF_step ?_ ?_ ?_
    | with_reducible refine setR_step ?_ ?_ ?_
    | ((conv => arg 3; arg 88; skip); with_reducible first | refine upd_aon ?_ ?_ | refine upd_bootNonce ?_ ?_ | refine upd_corePhys ?_ ?_ | refine upd_power ?_ ?_)
    | with_reducible refine Agree.ite ?_ ?_
    | (with_reducible refine Agree.foldl ?_ ?_; intro _ _ _)
    | (with_reducible refine Agree.foldl2 ?_ ?_; intro _ _ _)
    | (with_reducible refine Agree.foldl3 ?_ ?_; intro _ _ _)
    | (with_reducible refine Agree.foldl4 ?_ ?_; intro _ _ _)
    | dsimp only
    | split
    | (with_reducible refine Agree.of_pair (by assumption) ?_)
    | (with_reducible refine Agree.of_pair2 (by assumption) ?_)
    | intro _
theorem endE7_step {M s0} {s : State} (hs : bitsIn 0x970007900200000000001000408000000000000000008000007802600000800090000000480 M = true) (hA : Agree M s0 s) : Agree M s0 (endE7 s) :=
  hA.step hs (endE7_frame s)

theorem endE8_frame (s : State) (id : Nat) : Agree 0x800004000000000000000000000000000000000000000000000202000000000000000000000 s (endE8 s id) := by
  unfold endE8
  repeat' first
    | with_reducible assumption
    | with_reducible exact Agree.refl _ _
    | exact bitsIn_rfl rfl
    | exact regIn_rfl rfl rfl
    | with_reducible refine nextPhase_step ?_ ?_
    | with_reducible refine setF_step ?_ ?_ ?_
    | with_reducible refine Agree.ite ?_ ?_
    | dsimp only
    | split
    | (with_reducible refine Agree.of_pair (by assumption) ?_)
    | (with_reducible refine Agree.of_pair2 (by assumption) ?_)
    | intro _
theorem endE8_step {M s0} {s : State} {id : Nat} (hs : bitsIn 0x800004000000000000000000000000000000000000000000000202000000000000000000000 M = true) (hA : Agree M s0 s) : Agree M s0 (endE8 s id) :=
  hA.step hs (endE8_frame s id)

theorem checkE8_frame (s : State) (tray dies engines ports : Nat) : Agree 0x78b0004000000000000000000000000000000000000000000000202000000000090000000000 s (checkE8 s tray dies engines ports) := by
  unfold checkE8
  repeat' first
    | with_reducible assumption
    | with_reducible exact Agree.refl _ _
    | exact bitsIn_rfl rfl
    | exact regIn_rfl rfl rfl
    | with_reducible refine endE8_step ?_ ?_
    | with_reducible refine raiseRst_step ?_ ?_ ?_
    | with_reducible refine setF_step ?_ ?_ ?_
    | with_reducible refine setR_step ?_ ?_ ?_
    | with_reducible refine Agree.ite ?_ ?_
    | (with_reducible refine Agree.foldl ?_ ?_; intro _ _ _)
    | (with_reducible refine Agree.foldl2 ?_ ?_; intro _ _ _)
    | (with_reducible refine Agree.foldl3 ?_ ?_; intro _ _ _)
    | (with_reducible refine Agree.foldl4 ?_ ?_; intro _ _ _)
    | dsimp only
    | split
    | (with_reducible refine Agree.of_pair (by assumption) ?_)
    | (with_reducible refine Agree.of_pair2 (by assumption) ?_)
    | intro _
theorem checkE8_step {M s0} {s : State} {tray dies engines ports : Nat} (hs : bitsIn 0x78b0004000000000000000000000000000000000000000000000202000000000090000000000 M = true) (hA : Agree M s0 s) : Agree M s0 (checkE8 s tray dies engines ports) :=
  hA.step hs (checkE8_frame s tray dies engines ports)

theorem execTopoContinue_frame (s : State) : AgreeO 0x870004000000000000000000000000000000000000000000000202200000000090000000000 s (execTopoContinue s) := by
  unfold execTopoContinue
  repeat' first
    | with_reducible assumption
    | with_reducible exact Agree.refl _ _
    | exact bitsIn_rfl rfl
    | exact regIn_rfl rfl rfl
    | with_reducible refine AgreeO.next ?_
    | with_reducible refine AgreeO.ite ?_ ?_
    | with_reducible exact AgreeO.refused
    | with_reducible exact AgreeO.fault
    | with_reducible refine appendEntry_step ?_ ?_
    | with_reducible refine endE8_step ?_ ?_
    | with_reducible refine Agree.ite ?_ ?_
    | dsimp only
    | split
    | (with_reducible refine Agree.of_pair (by assumption) ?_)
    | (with_reducible refine Agree.of_pair2 (by assumption) ?_)
    | intro _
theorem execTopoContinue_step {M s0} {s : State} (hs : bitsIn 0x870004000000000000000000000000000000000000000000000202200000000090000000000 M = true) (hA : Agree M s0 s) : AgreeO M s0 (execTopoContinue s) :=
  hA.stepO hs (execTopoContinue_frame s)

theorem endE9_frame (s : State) (finds : List Finding) : Agree 0x870004000000000001100000000000000000000000010000004002200000008090000000040 s (endE9 s finds) := by
  unfold endE9
  repeat' first
    | with_reducible assumption
    | with_reducible exact Agree.refl _ _
    | exact bitsIn_rfl rfl
    | exact regIn_rfl rfl rfl
    | with_reducible refine appendAll_step ?_ ?_
    | with_reducible refine loadLinkCaps_step ?_ ?_
    | with_reducible refine nextPhase_step ?_ ?_
    | with_reducible refine setF_step ?_ ?_ ?_
    | with_reducible refine tryTrain_step ?_ ?_
    | with_reducible refine updateTime_step ?_ ?_
    | ((conv => arg 3; arg 88; skip); with_reducible first | refine upd_aon ?_ ?_)
    | with_reducible refine Agree.ite ?_ ?_
    | (with_reducible refine Agree.foldl ?_ ?_; intro _ _ _)
    | (with_reducible refine Agree.foldl2 ?_ ?_; intro _ _ _)
    | (with_reducible refine Agree.foldl3 ?_ ?_; intro _ _ _)
    | (with_reducible refine Agree.foldl4 ?_ ?_; intro _ _ _)
    | dsimp only
    | split
    | (with_reducible refine Agree.of_pair (by assumption) ?_)
    | (with_reducible refine Agree.of_pair2 (by assumption) ?_)
    | intro _
theorem endE9_step {M s0} {s : State} {finds : List Finding} (hs : bitsIn 0x870004000000000001100000000000000000000000010000004002200000008090000000040 M = true) (hA : Agree M s0 s) : Agree M s0 (endE9 s finds) :=
  hA.step hs (endE9_frame s finds)

theorem execPhaseComplete_frame (data : PhaseData) (s : State) : AgreeO 0x101f9f0047920600000001101600408000000000000000018000007b07efffffffffffffff3fef3 s (execPhaseComplete data s) := by
  unfold execPhaseComplete
  repeat' first
    | with_reducible assumption
    | with_reducible exact Agree.refl _ _
    | exact bitsIn_rfl rfl
    | exact regIn_rfl rfl rfl
    | exact .inl rfl
    | with_reducible refine AgreeO.next ?_
    | with_reducible refine AgreeO.ite ?_ ?_
    | with_reducible exact AgreeO.refused
    | with_reducible exact AgreeO.fault
    | with_reducible refine appendAll_step ?_ ?_
    | with_reducible refine checkE8_step ?_ ?_
    | with_reducible refine endE1_step ?_ ?_
    | with_reducible refine endE2_step ?_ ?_
    | with_reducible refine endE3_step ?_ ?_
    | with_reducible refine endE4_step ?_ ?_
    | with_reducible refine endE5_step ?_ ?_
    | with_reducible refine endE7_step ?_ ?_
    | with_reducible refine endE9_step ?_ ?_
    | with_reducible refine nextPhase_step ?_ ?_
    | with_reducible refine powerGood_step ?_ ?_
    | with_reducible refine setR_step ?_ ?_ ?_
    | ((conv => arg 3; arg 88; skip); with_reducible first | refine upd_aon ?_ ?_)
    | with_reducible refine Agree.ite ?_ ?_
    | dsimp only
    | split
    | (with_reducible refine Agree.of_pair (by assumption) ?_)
    | (with_reducible refine Agree.of_pair2 (by assumption) ?_)
    | intro _
theorem execPhaseComplete_step {M s0} {data : PhaseData} {s : State} (hs : bitsIn 0x101f9f0047920600000001101600408000000000000000018000007b07efffffffffffffff3fef3 M = true) (hA : Agree M s0 s) : AgreeO M s0 (execPhaseComplete data s) :=
  hA.stepO hs (execPhaseComplete_frame data s)

theorem execPhaseTimeout_frame (s : State) : AgreeO 0x30044020000000000000000000000000000000000000000000007c7ffffffffffffff3fe73 s (execPhaseTimeout s) := by
  unfold execPhaseTimeout
  repeat' first
    | with_reducible assumption
    | with_reducible exact Agree.refl _ _
    | exact bitsIn_rfl rfl
    | exact regIn_rfl rfl rfl
    | exact .inl rfl
    | with_reducible refine AgreeO.next ?_
    | with_reducible refine AgreeO.ite ?_ ?_
    | with_reducible exact AgreeO.refused
    | with_reducible exact AgreeO.fault
    | with_reducible refine beginE1_step ?_ ?_
    | with_reducible refine holdPhase_step ?_ ?_
    | with_reducible refine recordReset_step ?_ ?_
    | ((conv => arg 3; arg 88; skip); with_reducible first | refine upd_aon ?_ ?_)
    | with_reducible refine Agree.ite ?_ ?_
    | dsimp only
    | split
    | (with_reducible refine Agree.of_pair (by assumption) ?_)
    | (with_reducible refine Agree.of_pair2 (by assumption) ?_)
    | intro _
theorem execPhaseTimeout_step {M s0} {s : State} (hs : bitsIn 0x30044020000000000000000000000000000000000000000000007c7ffffffffffffff3fe73 M = true) (hA : Agree M s0 s) : AgreeO M s0 (execPhaseTimeout s) :=
  hA.stepO hs (execPhaseTimeout_frame s)

end Sys2Proof.Machine
end

