-- ==== Sys2Proof/Laws/FrameMatrix.lean ====
section
/-!
SUPPORT. The frame of every function of Machine/Matrix.lean that answers a state: the fields it can change, by mask.
-/

set_option linter.unusedTactic false
set_option linter.unreachableTactic false
set_option linter.unusedVariables false

namespace Sys2Proof.Machine

theorem issueM_frame (s : State) (t : Th) (op : MOp) (legal : Bool) (first n : Nat) : Agree 0x30000000000000000180000000000000a00 s (issueM s t op legal first n) := by
  unfold issueM
  repeat' first
    | with_reducible assumption
    | with_reducible exact Agree.refl _ _
    | exact bitsIn_rfl rfl
    | exact regIn_rfl rfl rfl
    | ((with_reducible refine ModOf.intro ?_); first | exact fun _ w => w | exact fun _ w => canonical_memPut _ _ w | exact fun _ w => canonical_filter _ w | exact fun _ w => canonical_foldl_mset _ _ w | exact fun _ _ => rfl)
    | with_reducible refine issue_step ?_ ?_ ?_
    | with_reducible refine modCore_step ?_ ?_ ?_
    | with_reducible refine retire_step ?_ ?_
    | with_reducible refine Agree.ite ?_ ?_
    | dsimp only
    | split
    | (with_reducible refine Agree.of_pair (by assumption) ?_)
    | (with_reducible refine Agree.of_pair2 (by assumption) ?_)
    | intro _
theorem issueM_step {M s0} {s : State} {t : Th} {op : MOp} {legal : Bool} {first n : Nat} (hs : bitsIn 0x30000000000000000180000000000000a00 M = true) (hA : Agree M s0 s) : Agree M s0 (issueM s t op legal first n) :=
  hA.step hs (issueM_frame s t op legal first n)

theorem execMloadw_frame (t : Th) (s : State) : AgreeO 0x30000000000000000180000000000000a00 s (execMloadw t s) := by
  unfold execMloadw
  repeat' first
    | with_reducible assumption
    | with_reducible exact Agree.refl _ _
    | exact bitsIn_rfl rfl
    | exact regIn_rfl rfl rfl
    | with_reducible refine AgreeO.next ?_
    | with_reducible refine AgreeO.ite ?_ ?_
    | with_reducible exact AgreeO.refused
    | with_reducible exact AgreeO.fault
    | with_reducible refine issueM_step ?_ ?_
    | with_reducible refine Agree.ite ?_ ?_
    | dsimp only
    | split
    | (with_reducible refine Agree.of_pair (by assumption) ?_)
    | (with_reducible refine Agree.of_pair2 (by assumption) ?_)
    | intro _
theorem execMloadw_step {M s0} {t : Th} {s : State} (hs : bitsIn 0x30000000000000000180000000000000a00 M = true) (hA : Agree M s0 s) : AgreeO M s0 (execMloadw t s) :=
  hA.stepO hs (execMloadw_frame t s)

theorem execWblock_frame (t : Th) (s : State) : AgreeO 0x30000000000000000180000000000000a00 s (execWblock t s) := by
  unfold execWblock
  repeat' first
    | with_reducible assumption
    | with_reducible exact Agree.refl _ _
    | exact bitsIn_rfl rfl
    | exact regIn_rfl rfl rfl
    | with_reducible refine AgreeO.next ?_
    | with_reducible refine AgreeO.ite ?_ ?_
    | with_reducible exact AgreeO.refused
    | with_reducible exact AgreeO.fault
    | with_reducible refine issueM_step ?_ ?_
    | with_reducible refine Agree.ite ?_ ?_
    | dsimp only
    | split
    | (with_reducible refine Agree.of_pair (by assumption) ?_)
    | (with_reducible refine Agree.of_pair2 (by assumption) ?_)
    | intro _
theorem execWblock_step {M s0} {t : Th} {s : State} (hs : bitsIn 0x30000000000000000180000000000000a00 M = true) (hA : Agree M s0 s) : AgreeO M s0 (execWblock t s) :=
  hA.stepO hs (execWblock_frame t s)

theorem execWtile_frame (t : Th) (s : State) : AgreeO 0x30000000000000000180000000000000a00 s (execWtile t s) := by
  unfold execWtile
  repeat' first
    | with_reducible assumption
    | with_reducible exact Agree.refl _ _
    | exact bitsIn_rfl rfl
    | exact regIn_rfl rfl rfl
    | with_reducible refine AgreeO.next ?_
    | with_reducible refine AgreeO.ite ?_ ?_
    | with_reducible exact AgreeO.refused
    | with_reducible exact AgreeO.fault
    | with_reducible refine issueM_step ?_ ?_
    | with_reducible refine Agree.ite ?_ ?_
    | dsimp only
    | split
    | (with_reducible refine Agree.of_pair (by assumption) ?_)
    | (with_reducible refine Agree.of_pair2 (by assumption) ?_)
    | intro _
theorem execWtile_step {M s0} {t : Th} {s : State} (hs : bitsIn 0x30000000000000000180000000000000a00 M = true) (hA : Agree M s0 s) : AgreeO M s0 (execWtile t s) :=
  hA.stepO hs (execWtile_frame t s)

theorem execAtile_frame (t : Th) (s : State) : AgreeO 0x30000000000000000180000000000000a00 s (execAtile t s) := by
  unfold execAtile
  repeat' first
    | with_reducible assumption
    | with_reducible exact Agree.refl _ _
    | exact bitsIn_rfl rfl
    | exact regIn_rfl rfl rfl
    | with_reducible refine AgreeO.next ?_
    | with_reducible refine AgreeO.ite ?_ ?_
    | with_reducible exact AgreeO.refused
    | with_reducible exact AgreeO.fault
    | with_reducible refine issueM_step ?_ ?_
    | with_reducible refine Agree.ite ?_ ?_
    | dsimp only
    | split
    | (with_reducible refine Agree.of_pair (by assumption) ?_)
    | (with_reducible refine Agree.of_pair2 (by assumption) ?_)
    | intro _
theorem execAtile_step {M s0} {t : Th} {s : State} (hs : bitsIn 0x30000000000000000180000000000000a00 M = true) (hA : Agree M s0 s) : AgreeO M s0 (execAtile t s) :=
  hA.stepO hs (execAtile_frame t s)

theorem execMstream_frame (t : Th) (s : State) : AgreeO 0x30000000000000000180000000000000a00 s (execMstream t s) := by
  unfold execMstream
  repeat' first
    | with_reducible assumption
    | with_reducible exact Agree.refl _ _
    | exact bitsIn_rfl rfl
    | exact regIn_rfl rfl rfl
    | with_reducible refine AgreeO.next ?_
    | with_reducible refine AgreeO.ite ?_ ?_
    | with_reducible exact AgreeO.refused
    | with_reducible exact AgreeO.fault
    | with_reducible refine issueM_step ?_ ?_
    | with_reducible refine Agree.ite ?_ ?_
    | dsimp only
    | split
    | (with_reducible refine Agree.of_pair (by assumption) ?_)
    | (with_reducible refine Agree.of_pair2 (by assumption) ?_)
    | intro _
theorem execMstream_step {M s0} {t : Th} {s : State} (hs : bitsIn 0x30000000000000000180000000000000a00 M = true) (hA : Agree M s0 s) : AgreeO M s0 (execMstream t s) :=
  hA.stepO hs (execMstream_frame t s)

theorem execMsparse_frame (t : Th) (s : State) : AgreeO 0x30000000000000000180000000000000a00 s (execMsparse t s) := by
  unfold execMsparse
  repeat' first
    | with_reducible assumption
    | with_reducible exact Agree.refl _ _
    | exact bitsIn_rfl rfl
    | exact regIn_rfl rfl rfl
    | with_reducible refine AgreeO.next ?_
    | with_reducible refine AgreeO.ite ?_ ?_
    | with_reducible exact AgreeO.refused
    | with_reducible exact AgreeO.fault
    | with_reducible refine issueM_step ?_ ?_
    | with_reducible refine Agree.ite ?_ ?_
    | dsimp only
    | split
    | (with_reducible refine Agree.of_pair (by assumption) ?_)
    | (with_reducible refine Agree.of_pair2 (by assumption) ?_)
    | intro _
theorem execMsparse_step {M s0} {t : Th} {s : State} (hs : bitsIn 0x30000000000000000180000000000000a00 M = true) (hA : Agree M s0 s) : AgreeO M s0 (execMsparse t s) :=
  hA.stepO hs (execMsparse_frame t s)

theorem execMdrain_frame (t : Th) (s : State) : AgreeO 0x30000000000000000180000000000000a00 s (execMdrain t s) := by
  unfold execMdrain
  repeat' first
    | with_reducible assumption
    | with_reducible exact Agree.refl _ _
    | exact bitsIn_rfl rfl
    | exact regIn_rfl rfl rfl
    | with_reducible refine AgreeO.next ?_
    | with_reducible refine AgreeO.ite ?_ ?_
    | with_reducible exact AgreeO.refused
    | with_reducible exact AgreeO.fault
    | with_reducible refine issueM_step ?_ ?_
    | with_reducible refine Agree.ite ?_ ?_
    | dsimp only
    | split
    | (with_reducible refine Agree.of_pair (by assumption) ?_)
    | (with_reducible refine Agree.of_pair2 (by assumption) ?_)
    | intro _
theorem execMdrain_step {M s0} {t : Th} {s : State} (hs : bitsIn 0x30000000000000000180000000000000a00 M = true) (hA : Agree M s0 s) : AgreeO M s0 (execMdrain t s) :=
  hA.stepO hs (execMdrain_frame t s)

theorem freeAccRows_frame (s : State) (c tile row n : Nat) : Agree 0x280 s (freeAccRows s c tile row n) := by
  unfold freeAccRows
  repeat' first
    | with_reducible assumption
    | with_reducible exact Agree.refl _ _
    | exact bitsIn_rfl rfl
    | ((with_reducible refine ModOf.intro ?_); first | exact fun _ w => w | exact fun _ w => canonical_memPut _ _ w | exact fun _ w => canonical_filter _ w | exact fun _ w => canonical_foldl_mset _ _ w | exact fun _ _ => rfl)
    | with_reducible refine freeVal_step ?_ ?_
    | with_reducible refine modCore_step ?_ ?_ ?_
    | with_reducible refine Agree.ite ?_ ?_
    | (with_reducible refine Agree.foldl ?_ ?_; intro _ _ _)
    | (with_reducible refine Agree.foldl2 ?_ ?_; intro _ _ _)
    | (with_reducible refine Agree.foldl3 ?_ ?_; intro _ _ _)
    | (with_reducible refine Agree.foldl4 ?_ ?_; intro _ _ _)
    | dsimp only
    | split
    | (with_reducible refine Agree.of_pair (by assumption) ?_)
    | (with_reducible refine Agree.of_pair2 (by assumption) ?_)
    | intro _
theorem freeAccRows_step {M s0} {s : State} {c tile row n : Nat} (hs : bitsIn 0x280 M = true) (hA : Agree M s0 s) : Agree M s0 (freeAccRows s c tile row n) :=
  hA.step hs (freeAccRows_frame s c tile row n)

theorem freeScratch_frame (s : State) (c a n : Nat) : Agree 0x1c00000000000000000000000000000000000002000000280 s (freeScratch s c a n) := by
  unfold freeScratch
  repeat' first
    | with_reducible assumption
    | with_reducible exact Agree.refl _ _
    | exact bitsIn_rfl rfl
    | exact regIn_rfl rfl rfl
    | with_reducible refine freeBytes_step ?_ ?_
    | with_reducible refine scrWrite_step ?_ ?_
    | with_reducible refine Agree.ite ?_ ?_
    | dsimp only
    | split
    | (with_reducible refine Agree.of_pair (by assumption) ?_)
    | (with_reducible refine Agree.of_pair2 (by assumption) ?_)
    | intro _
theorem freeScratch_step {M s0} {s : State} {c a n : Nat} (hs : bitsIn 0x1c00000000000000000000000000000000000002000000280 M = true) (hA : Agree M s0 s) : Agree M s0 (freeScratch s c a n) :=
  hA.step hs (freeScratch_frame s c a n)

theorem mFault_frame (s : State) (c : Nat) (i : MInstr) (code : Nat) (addr : Nat) : Agree 0x1c00000000000030000000000000000180000002000000a80 s (mFault s c i code addr) := by
  unfold mFault
  repeat' first
    | with_reducible assumption
    | with_reducible exact Agree.refl _ _
    | exact bitsIn_rfl rfl
    | exact regIn_rfl rfl rfl
    | ((with_reducible refine ModOf.intro ?_); first | exact fun _ w => w | exact fun _ w => canonical_memPut _ _ w | exact fun _ w => canonical_filter _ w | exact fun _ w => canonical_foldl_mset _ _ w | exact fun _ _ => rfl)
    | with_reducible refine coreFault_step ?_ ?_
    | with_reducible refine freeAccRows_step ?_ ?_
    | with_reducible refine freeScratch_step ?_ ?_
    | with_reducible refine modCore_step ?_ ?_ ?_
    | with_reducible refine Agree.ite ?_ ?_
    | (with_reducible refine Agree.foldl ?_ ?_; intro _ _ _)
    | (with_reducible refine Agree.foldl2 ?_ ?_; intro _ _ _)
    | (with_reducible refine Agree.foldl3 ?_ ?_; intro _ _ _)
    | (with_reducible refine Agree.foldl4 ?_ ?_; intro _ _ _)
    | dsimp only
    | split
    | (with_reducible refine Agree.of_pair (by assumption) ?_)
    | (with_reducible refine Agree.of_pair2 (by assumption) ?_)
    | intro _
theorem mFault_step {M s0} {s : State} {c : Nat} {i : MInstr} {code : Nat} {addr : Nat} (hs : bitsIn 0x1c00000000000030000000000000000180000002000000a80 M = true) (hA : Agree M s0 s) : Agree M s0 (mFault s c i code addr) :=
  hA.step hs (mFault_frame s c i code addr)

theorem matrixRead_frame (s : State) (c a n : Nat) : Agree 0x1c00000000000000000000000000000000000000000000200 s (matrixRead s c a n).2.2 := by
  unfold matrixRead
  repeat' first
    | with_reducible assumption
    | with_reducible exact Agree.refl _ _
    | exact bitsIn_rfl rfl
    | exact regIn_rfl rfl rfl
    | with_reducible refine scanWords_step ?_ ?_
    | with_reducible refine Agree.ite ?_ ?_
    | dsimp only
    | split
    | (with_reducible refine Agree.of_pair (by assumption) ?_)
    | (with_reducible refine Agree.of_pair2 (by assumption) ?_)
    | intro _
theorem matrixRead_step {M s0} {s : State} {c a n : Nat} (hs : bitsIn 0x1c00000000000000000000000000000000000000000000200 M = true) (hA : Agree M s0 s) : Agree M s0 (matrixRead s c a n).2.2 :=
  hA.step hs (matrixRead_frame s c a n)

theorem setM_frame (s : State) (c : Nat) (i : MInstr) : Agree 0x200 s (setM s c i) := by
  unfold setM
  repeat' first
    | with_reducible assumption
    | with_reducible exact Agree.refl _ _
    | exact bitsIn_rfl rfl
    | ((with_reducible refine ModOf.intro ?_); first | exact fun _ w => w | exact fun _ w => canonical_memPut _ _ w | exact fun _ w => canonical_filter _ w | exact fun _ w => canonical_foldl_mset _ _ w | exact fun _ _ => rfl)
    | with_reducible refine modCore_step ?_ ?_ ?_
    | with_reducible refine Agree.ite ?_ ?_
    | dsimp only
    | split
    | (with_reducible refine Agree.of_pair (by assumption) ?_)
    | (with_reducible refine Agree.of_pair2 (by assumption) ?_)
    | intro _
theorem setM_step {M s0} {s : State} {c : Nat} {i : MInstr} (hs : bitsIn 0x200 M = true) (hA : Agree M s0 s) : Agree M s0 (setM s c i) :=
  hA.step hs (setM_frame s c i)

theorem markBegun_frame (s : State) (c : Nat) (i : MInstr) : Agree 0x200 s (markBegun s c i) := by
  unfold markBegun
  repeat' first
    | with_reducible assumption
    | with_reducible exact Agree.refl _ _
    | exact bitsIn_rfl rfl
    | ((with_reducible refine ModOf.intro ?_); first | exact fun _ w => w | exact fun _ w => canonical_memPut _ _ w | exact fun _ w => canonical_filter _ w | exact fun _ w => canonical_foldl_mset _ _ w | exact fun _ _ => rfl)
    | with_reducible refine modCore_step ?_ ?_ ?_
    | with_reducible refine Agree.ite ?_ ?_
    | dsimp only
    | split
    | (with_reducible refine Agree.of_pair (by assumption) ?_)
    | (with_reducible refine Agree.of_pair2 (by assumption) ?_)
    | intro _
theorem markBegun_step {M s0} {s : State} {c : Nat} {i : MInstr} (hs : bitsIn 0x200 M = true) (hA : Agree M s0 s) : Agree M s0 (markBegun s c i) :=
  hA.step hs (markBegun_frame s c i)

theorem doWblock_frame (s : State) (c : Nat) (i : MInstr) : Agree 0x1c00000000000030000000000000000180000002000000a80 s (doWblock s c i) := by
  unfold doWblock
  repeat' first
    | with_reducible assumption
    | with_reducible exact Agree.refl _ _
    | exact bitsIn_rfl rfl
    | exact regIn_rfl rfl rfl
    | ((with_reducible refine ModOf.intro ?_); first | exact fun _ w => w | exact fun _ w => canonical_memPut _ _ w | exact fun _ w => canonical_filter _ w | exact fun _ w => canonical_foldl_mset _ _ w | exact fun _ _ => rfl)
    | with_reducible refine mFault_step ?_ ?_
    | with_reducible refine markBegun_step ?_ ?_
    | with_reducible refine matrixRead_step ?_ ?_
    | with_reducible refine modCore_step ?_ ?_ ?_
    | with_reducible refine setM_step ?_ ?_
    | with_reducible refine Agree.ite ?_ ?_
    | dsimp only
    | split
    | (with_reducible refine Agree.of_pair (by assumption) ?_)
    | (with_reducible refine Agree.of_pair2 (by assumption) ?_)
    | intro _
theorem doWblock_step {M s0} {s : State} {c : Nat} {i : MInstr} (hs : bitsIn 0x1c00000000000030000000000000000180000002000000a80 M = true) (hA : Agree M s0 s) : Agree M s0 (doWblock s c i) :=
  hA.step hs (doWblock_frame s c i)

theorem startDrain_frame (s : State) (c : Nat) (i : MInstr) : Agree 0x1c00000000000030000000000000000180000002000000a80 s (startDrain s c i) := by
  unfold startDrain
  repeat' first
    | with_reducible assumption
    | with_reducible exact Agree.refl _ _
    | exact bitsIn_rfl rfl
    | exact regIn_rfl rfl rfl
    | ((with_reducible refine ModOf.intro ?_); first | exact fun _ w => w | exact fun _ w => canonical_memPut _ _ w | exact fun _ w => canonical_filter _ w | exact fun _ w => canonical_foldl_mset _ _ w | exact fun _ _ => rfl)
    | with_reducible refine mFault_step ?_ ?_
    | with_reducible refine markBegun_step ?_ ?_
    | with_reducible refine matrixRead_step ?_ ?_
    | with_reducible refine modCore_step ?_ ?_ ?_
    | with_reducible refine setM_step ?_ ?_
    | with_reducible refine Agree.ite ?_ ?_
    | dsimp only
    | split
    | (with_reducible refine Agree.of_pair (by assumption) ?_)
    | (with_reducible refine Agree.of_pair2 (by assumption) ?_)
    | intro _
theorem startDrain_step {M s0} {s : State} {c : Nat} {i : MInstr} (hs : bitsIn 0x1c00000000000030000000000000000180000002000000a80 M = true) (hA : Agree M s0 s) : Agree M s0 (startDrain s c i) :=
  hA.step hs (startDrain_frame s c i)

theorem beginM_frame (s : State) (c : Nat) (i : MInstr) : Agree 0x1c00000000000030000000000000000180000002000000a80 s (beginM s c i) := by
  unfold beginM
  repeat' first
    | with_reducible assumption
    | with_reducible exact Agree.refl _ _
    | exact bitsIn_rfl rfl
    | exact regIn_rfl rfl rfl
    | ((with_reducible refine ModOf.intro ?_); first | exact fun _ w => w | exact fun _ w => canonical_memPut _ _ w | exact fun _ w => canonical_filter _ w | exact fun _ w => canonical_foldl_mset _ _ w | exact fun _ _ => rfl)
    | with_reducible refine doWblock_step ?_ ?_
    | with_reducible refine mFault_step ?_ ?_
    | with_reducible refine markBegun_step ?_ ?_
    | with_reducible refine modCore_step ?_ ?_ ?_
    | with_reducible refine setM_step ?_ ?_
    | with_reducible refine startDrain_step ?_ ?_
    | with_reducible refine Agree.ite ?_ ?_
    | dsimp only
    | split
    | (with_reducible refine Agree.of_pair (by assumption) ?_)
    | (with_reducible refine Agree.of_pair2 (by assumption) ?_)
    | intro _
theorem beginM_step {M s0} {s : State} {c : Nat} {i : MInstr} (hs : bitsIn 0x1c00000000000030000000000000000180000002000000a80 M = true) (hA : Agree M s0 s) : Agree M s0 (beginM s c i) :=
  hA.step hs (beginM_frame s c i)

theorem onClock_step {M s0} {s : State} {c : Nat} {s' : State} (h : Agree M s0 s) (h' : Agree M s0 s') :
    AgreeO M s0 (onClock s c s') := AgreeO.next (Agree.ite h h')

theorem execMEngineBegin_frame (c seq : Nat) (ups : List Upset) (s : State) : AgreeO 0x1c00000000000030000000000000000180000002000000a80 s (execMEngineBegin c seq ups s) := by
  unfold execMEngineBegin
  repeat' first
    | with_reducible assumption
    | with_reducible exact Agree.refl _ _
    | exact bitsIn_rfl rfl
    | exact regIn_rfl rfl rfl
    | with_reducible refine AgreeO.next ?_
    | with_reducible refine AgreeO.ite ?_ ?_
    | with_reducible exact AgreeO.refused
    | with_reducible exact AgreeO.fault
    | with_reducible refine applyUpsets_step ?_ ?_
    | with_reducible refine beginM_step ?_ ?_
    | with_reducible refine Agree.ite ?_ ?_
    | dsimp only
    | split
    | (with_reducible refine Agree.of_pair (by assumption) ?_)
    | (with_reducible refine Agree.of_pair2 (by assumption) ?_)
    | intro _
theorem execMEngineBegin_step {M s0} {c seq : Nat} {ups : List Upset} {s : State} (hs : bitsIn 0x1c00000000000030000000000000000180000002000000a80 M = true) (hA : Agree M s0 s) : AgreeO M s0 (execMEngineBegin c seq ups s) :=
  hA.stepO hs (execMEngineBegin_frame c seq ups s)

theorem execSlotLoadComplete_frame (c : Nat) (ups : List Upset) (s : State) : AgreeO 0x1c00000000000030000000000000000180000002000000a80 s (execSlotLoadComplete c ups s) := by
  unfold execSlotLoadComplete
  repeat' first
    | with_reducible assumption
    | with_reducible exact Agree.refl _ _
    | exact bitsIn_rfl rfl
    | exact regIn_rfl rfl rfl
    | with_reducible refine AgreeO.next ?_
    | with_reducible refine AgreeO.ite ?_ ?_
    | with_reducible exact AgreeO.refused
    | with_reducible exact AgreeO.fault
    | ((with_reducible refine ModOf.intro ?_); first | exact fun _ w => w | exact fun _ w => canonical_memPut _ _ w | exact fun _ w => canonical_filter _ w | exact fun _ w => canonical_foldl_mset _ _ w | exact fun _ _ => rfl)
    | with_reducible refine applyUpsets_step ?_ ?_
    | with_reducible refine mFault_step ?_ ?_
    | with_reducible refine matrixRead_step ?_ ?_
    | with_reducible refine modCore_step ?_ ?_ ?_
    | with_reducible refine onClock_step ?_ ?_
    | with_reducible refine setM_step ?_ ?_
    | with_reducible refine Agree.ite ?_ ?_
    | dsimp only
    | split
    | (with_reducible refine Agree.of_pair (by assumption) ?_)
    | (with_reducible refine Agree.of_pair2 (by assumption) ?_)
    | (with_reducible refine AgreeO.of ?_ (by assumption))
    | intro _
theorem execSlotLoadComplete_step {M s0} {c : Nat} {ups : List Upset} {s : State} (hs : bitsIn 0x1c00000000000030000000000000000180000002000000a80 M = true) (hA : Agree M s0 s) : AgreeO M s0 (execSlotLoadComplete c ups s) :=
  hA.stepO hs (execSlotLoadComplete_frame c ups s)

theorem updateRow_frame (s : State) (c : Nat) (i : MInstr) (m : Nat) (r : Option ARow) : Agree 0x200 s (updateRow s c i m r).2 := by
  unfold updateRow
  repeat' first
    | with_reducible assumption
    | with_reducible exact Agree.refl _ _
    | exact bitsIn_rfl rfl
    | ((with_reducible refine CoreOf.intro ?_); exact fun w => w _)
    | with_reducible refine setCore_step ?_ ?_ ?_
    | with_reducible refine Agree.ite ?_ ?_
    | (with_reducible refine Agree.foldl ?_ ?_; intro _ _ _)
    | (with_reducible refine Agree.foldl2 ?_ ?_; intro _ _ _)
    | (with_reducible refine Agree.foldl3 ?_ ?_; intro _ _ _)
    | (with_reducible refine Agree.foldl4 ?_ ?_; intro _ _ _)
    | dsimp only
    | split
    | (with_reducible refine Agree.of_pair (by assumption) ?_)
    | (with_reducible refine Agree.of_pair2 (by assumption) ?_)
    | intro _
theorem updateRow_step {M s0} {s : State} {c : Nat} {i : MInstr} {m : Nat} {r : Option ARow} (hs : bitsIn 0x200 M = true) (hA : Agree M s0 s) : Agree M s0 (updateRow s c i m r).2 :=
  hA.step hs (updateRow_frame s c i m r)

theorem fetchRow_frame (s : State) (c : Nat) (i : MInstr) (kw m : Nat) : Agree 0x1c00000000000000000000000000000000000000000000200 s (fetchRow s c i kw m).2.2 := by
  unfold fetchRow
  repeat' first
    | with_reducible assumption
    | with_reducible exact Agree.refl _ _
    | exact bitsIn_rfl rfl
    | exact regIn_rfl rfl rfl
    | with_reducible refine matrixRead_step ?_ ?_
    | with_reducible refine Agree.ite ?_ ?_
    | dsimp only
    | split
    | (with_reducible refine Agree.of_pair (by assumption) ?_)
    | (with_reducible refine Agree.of_pair2 (by assumption) ?_)
    | intro _
theorem fetchRow_step {M s0} {s : State} {c : Nat} {i : MInstr} {kw m : Nat} (hs : bitsIn 0x1c00000000000000000000000000000000000000000000200 M = true) (hA : Agree M s0 s) : Agree M s0 (fetchRow s c i kw m).2.2 :=
  hA.step hs (fetchRow_frame s c i kw m)

theorem arriveRow_frame (s : State) (c : Nat) (seq kw m : Nat) : Agree 0x1c00000000000030000000000000000180000002000000a80 s (arriveRow s c seq kw m) := by
  unfold arriveRow
  repeat' first
    | with_reducible assumption
    | with_reducible exact Agree.refl _ _
    | exact bitsIn_rfl rfl
    | exact regIn_rfl rfl rfl
    | ((with_reducible refine ModOf.intro ?_); first | exact fun _ w => w | exact fun _ w => canonical_memPut _ _ w | exact fun _ w => canonical_filter _ w | exact fun _ w => canonical_foldl_mset _ _ w | exact fun _ _ => rfl)
    | with_reducible refine fetchRow_step ?_ ?_
    | with_reducible refine mFault_step ?_ ?_
    | with_reducible refine modCore_step ?_ ?_ ?_
    | with_reducible refine setM_step ?_ ?_
    | with_reducible refine Agree.ite ?_ ?_
    | dsimp only
    | split
    | (with_reducible refine Agree.of_pair (by assumption) ?_)
    | (with_reducible refine Agree.of_pair2 (by assumption) ?_)
    | intro _
theorem arriveRow_step {M s0} {s : State} {c : Nat} {seq kw m : Nat} (hs : bitsIn 0x1c00000000000030000000000000000180000002000000a80 M = true) (hA : Agree M s0 s) : Agree M s0 (arriveRow s c seq kw m) :=
  hA.step hs (arriveRow_frame s c seq kw m)

theorem execAChunkArrival_frame (c : Nat) (ups : List Upset) (s : State) : AgreeO 0x1c00000000000030000000000000000180000002000000a80 s (execAChunkArrival c ups s) := by
  unfold execAChunkArrival
  repeat' first
    | with_reducible assumption
    | with_reducible exact Agree.refl _ _
    | exact bitsIn_rfl rfl
    | exact regIn_rfl rfl rfl
    | with_reducible refine AgreeO.next ?_
    | with_reducible refine AgreeO.ite ?_ ?_
    | with_reducible exact AgreeO.refused
    | with_reducible exact AgreeO.fault
    | with_reducible refine applyUpsets_step ?_ ?_
    | with_reducible refine arriveRow_step ?_ ?_
    | with_reducible refine onClock_step ?_ ?_
    | with_reducible refine setM_step ?_ ?_
    | with_reducible refine Agree.ite ?_ ?_
    | (with_reducible refine Agree.foldl ?_ ?_; intro _ _ _)
    | (with_reducible refine Agree.foldl2 ?_ ?_; intro _ _ _)
    | (with_reducible refine Agree.foldl3 ?_ ?_; intro _ _ _)
    | (with_reducible refine Agree.foldl4 ?_ ?_; intro _ _ _)
    | dsimp only
    | split
    | (with_reducible refine Agree.of_pair (by assumption) ?_)
    | (with_reducible refine Agree.of_pair2 (by assumption) ?_)
    | (with_reducible refine AgreeO.of ?_ (by assumption))
    | intro _
theorem execAChunkArrival_step {M s0} {c : Nat} {ups : List Upset} {s : State} (hs : bitsIn 0x1c00000000000030000000000000000180000002000000a80 M = true) (hA : Agree M s0 s) : AgreeO M s0 (execAChunkArrival c ups s) :=
  hA.stepO hs (execAChunkArrival_frame c ups s)

theorem execMatrixRowEntry_frame (c : Nat) (s : State) : AgreeO 0x1c00000000000030000000000000000180000002000000a80 s (execMatrixRowEntry c s) := by
  unfold execMatrixRowEntry
  repeat' first
    | with_reducible assumption
    | with_reducible exact Agree.refl _ _
    | exact bitsIn_rfl rfl
    | exact regIn_rfl rfl rfl
    | with_reducible refine AgreeO.next ?_
    | with_reducible refine AgreeO.ite ?_ ?_
    | with_reducible exact AgreeO.refused
    | with_reducible exact AgreeO.fault
    | ((with_reducible refine ModOf.intro ?_); first | exact fun _ w => w | exact fun _ w => canonical_memPut _ _ w | exact fun _ w => canonical_filter _ w | exact fun _ w => canonical_foldl_mset _ _ w | exact fun _ _ => rfl)
    | with_reducible refine mFault_step ?_ ?_
    | with_reducible refine modCore_step ?_ ?_ ?_
    | with_reducible refine onClock_step ?_ ?_
    | with_reducible refine setM_step ?_ ?_
    | with_reducible refine Agree.ite ?_ ?_
    | dsimp only
    | split
    | (with_reducible refine Agree.of_pair (by assumption) ?_)
    | (with_reducible refine Agree.of_pair2 (by assumption) ?_)
    | (with_reducible refine AgreeO.of ?_ (by assumption))
    | intro _
theorem execMatrixRowEntry_step {M s0} {c : Nat} {s : State} (hs : bitsIn 0x1c00000000000030000000000000000180000002000000a80 M = true) (hA : Agree M s0 s) : AgreeO M s0 (execMatrixRowEntry c s) :=
  hA.stepO hs (execMatrixRowEntry_frame c s)

theorem applyZero_frame (s : State) (c : Nat) (i : MInstr) (l : List Nat) : Agree 0x200 s (applyZero s c i l).2 := by
  unfold applyZero
  repeat' first
    | with_reducible assumption
    | with_reducible exact Agree.refl _ _
    | exact bitsIn_rfl rfl
    | with_reducible refine updateRow_step ?_ ?_
    | with_reducible refine Agree.ite ?_ ?_
    | (with_reducible refine Agree.foldl ?_ ?_; intro _ _ _)
    | (with_reducible refine Agree.foldl2 ?_ ?_; intro _ _ _)
    | (with_reducible refine Agree.foldl3 ?_ ?_; intro _ _ _)
    | (with_reducible refine Agree.foldl4 ?_ ?_; intro _ _ _)
    | dsimp only
    | split
    | (with_reducible refine Agree.of_pair (by assumption) ?_)
    | (with_reducible refine Agree.of_pair2 (by assumption) ?_)
    | intro _
theorem applyZero_step {M s0} {s : State} {c : Nat} {i : MInstr} {l : List Nat} (hs : bitsIn 0x200 M = true) (hA : Agree M s0 s) : Agree M s0 (applyZero s c i l).2 :=
  hA.step hs (applyZero_frame s c i l)

theorem accUpset_frame (s : State) (c row : Nat) (bad : Bool) : Agree 0x200 s (accUpset s c row bad) := by
  unfold accUpset
  repeat' first
    | with_reducible assumption
    | with_reducible exact Agree.refl _ _
    | exact bitsIn_rfl rfl
    | ((with_reducible refine ModOf.intro ?_); first | exact fun _ w => w | exact fun _ w => canonical_memPut _ _ w | exact fun _ w => canonical_filter _ w | exact fun _ w => canonical_foldl_mset _ _ w | exact fun _ _ => rfl)
    | with_reducible refine modCore_step ?_ ?_ ?_
    | with_reducible refine Agree.ite ?_ ?_
    | dsimp only
    | split
    | (with_reducible refine Agree.of_pair (by assumption) ?_)
    | (with_reducible refine Agree.of_pair2 (by assumption) ?_)
    | intro _
theorem accUpset_step {M s0} {s : State} {c row : Nat} {bad : Bool} (hs : bitsIn 0x200 M = true) (hA : Agree M s0 s) : Agree M s0 (accUpset s c row bad) :=
  hA.step hs (accUpset_frame s c row bad)

theorem accUpsets_frame (s : State) (c : Nat) (i : MInstr) (l bad : List Nat) : Agree 0x200 s (accUpsets s c i l bad) := by
  unfold accUpsets
  repeat' first
    | with_reducible assumption
    | with_reducible exact Agree.refl _ _
    | exact bitsIn_rfl rfl
    | with_reducible refine accUpset_step ?_ ?_
    | with_reducible refine Agree.ite ?_ ?_
    | (with_reducible refine Agree.foldl ?_ ?_; intro _ _ _)
    | (with_reducible refine Agree.foldl2 ?_ ?_; intro _ _ _)
    | (with_reducible refine Agree.foldl3 ?_ ?_; intro _ _ _)
    | (with_reducible refine Agree.foldl4 ?_ ?_; intro _ _ _)
    | dsimp only
    | split
    | (with_reducible refine Agree.of_pair (by assumption) ?_)
    | (with_reducible refine Agree.of_pair2 (by assumption) ?_)
    | intro _
theorem accUpsets_step {M s0} {s : State} {c : Nat} {i : MInstr} {l bad : List Nat} (hs : bitsIn 0x200 M = true) (hA : Agree M s0 s) : Agree M s0 (accUpsets s c i l bad) :=
  hA.step hs (accUpsets_frame s c i l bad)

theorem updateEntered_frame (s : State) (c : Nat) (bad : List Nat) (i : MInstr) (r : ARow) : Agree 0x1c00000000000030000000000000000180000002000000a80 s (updateEntered s c bad i r) := by
  unfold updateEntered
  repeat' first
    | with_reducible assumption
    | with_reducible exact Agree.refl _ _
    | exact bitsIn_rfl rfl
    | exact regIn_rfl rfl rfl
    | ((with_reducible refine ModOf.intro ?_); first | exact fun _ w => w | exact fun _ w => canonical_memPut _ _ w | exact fun _ w => canonical_filter _ w | exact fun _ w => canonical_foldl_mset _ _ w | exact fun _ _ => rfl)
    | with_reducible refine accUpsets_step ?_ ?_
    | with_reducible refine applyZero_step ?_ ?_
    | with_reducible refine mFault_step ?_ ?_
    | with_reducible refine modCore_step ?_ ?_ ?_
    | with_reducible refine setM_step ?_ ?_
    | with_reducible refine updateRow_step ?_ ?_
    | with_reducible refine Agree.ite ?_ ?_
    | dsimp only
    | split
    | (with_reducible refine Agree.of_pair (by assumption) ?_)
    | (with_reducible refine Agree.of_pair2 (by assumption) ?_)
    | intro _
theorem updateEntered_step {M s0} {s : State} {c : Nat} {bad : List Nat} {i : MInstr} {r : ARow} (hs : bitsIn 0x1c00000000000030000000000000000180000002000000a80 M = true) (hA : Agree M s0 s) : Agree M s0 (updateEntered s c bad i r) :=
  hA.step hs (updateEntered_frame s c bad i r)

theorem updateTrailing_frame (s : State) (c : Nat) (bad : List Nat) (i : MInstr) : Agree 0x1c00000000000030000000000000000180000002000000a80 s (updateTrailing s c bad i) := by
  unfold updateTrailing
  repeat' first
    | with_reducible assumption
    | with_reducible exact Agree.refl _ _
    | exact bitsIn_rfl rfl
    | exact regIn_rfl rfl rfl
    | with_reducible refine accUpsets_step ?_ ?_
    | with_reducible refine applyZero_step ?_ ?_
    | with_reducible refine mFault_step ?_ ?_
    | with_reducible refine setM_step ?_ ?_
    | with_reducible refine Agree.ite ?_ ?_
    | dsimp only
    | split
    | (with_reducible refine Agree.of_pair (by assumption) ?_)
    | (with_reducible refine Agree.of_pair2 (by assumption) ?_)
    | intro _
theorem updateTrailing_step {M s0} {s : State} {c : Nat} {bad : List Nat} {i : MInstr} (hs : bitsIn 0x1c00000000000030000000000000000180000002000000a80 M = true) (hA : Agree M s0 s) : Agree M s0 (updateTrailing s c bad i) :=
  hA.step hs (updateTrailing_frame s c bad i)

theorem execAccUpdate_frame (c : Nat) (bad : List Nat) (s : State) : AgreeO 0x1c00000000000030000000000000000180000002000000a80 s (execAccUpdate c bad s) := by
  unfold execAccUpdate
  repeat' first
    | with_reducible assumption
    | with_reducible exact Agree.refl _ _
    | exact bitsIn_rfl rfl
    | exact regIn_rfl rfl rfl
    | with_reducible refine AgreeO.next ?_
    | with_reducible refine AgreeO.ite ?_ ?_
    | with_reducible exact AgreeO.refused
    | with_reducible exact AgreeO.fault
    | with_reducible refine onClock_step ?_ ?_
    | with_reducible refine updateEntered_step ?_ ?_
    | with_reducible refine updateTrailing_step ?_ ?_
    | with_reducible refine Agree.ite ?_ ?_
    | dsimp only
    | split
    | (with_reducible refine Agree.of_pair (by assumption) ?_)
    | (with_reducible refine Agree.of_pair2 (by assumption) ?_)
    | (with_reducible refine AgreeO.of ?_ (by assumption))
    | intro _
theorem execAccUpdate_step {M s0} {c : Nat} {bad : List Nat} {s : State} (hs : bitsIn 0x1c00000000000030000000000000000180000002000000a80 M = true) (hA : Agree M s0 s) : AgreeO M s0 (execAccUpdate c bad s) :=
  hA.stepO hs (execAccUpdate_frame c bad s)

theorem execNoRowStreamUpdate_frame (x : RowErrs) (s : State) : AgreeO 0x1c00000000000030000000000000000180000002000000a80 s (execNoRowStreamUpdate x s) := by
  unfold execNoRowStreamUpdate
  repeat' first
    | with_reducible assumption
    | with_reducible exact Agree.refl _ _
    | exact bitsIn_rfl rfl
    | exact regIn_rfl rfl rfl
    | with_reducible refine AgreeO.next ?_
    | with_reducible refine AgreeO.ite ?_ ?_
    | with_reducible exact AgreeO.refused
    | with_reducible exact AgreeO.fault
    | with_reducible refine mFault_step ?_ ?_
    | with_reducible refine onClock_step ?_ ?_
    | with_reducible refine updateTrailing_step ?_ ?_
    | with_reducible refine Agree.ite ?_ ?_
    | dsimp only
    | split
    | (with_reducible refine Agree.of_pair (by assumption) ?_)
    | (with_reducible refine Agree.of_pair2 (by assumption) ?_)
    | (with_reducible refine AgreeO.of ?_ (by assumption))
    | intro _
theorem execNoRowStreamUpdate_step {M s0} {x : RowErrs} {s : State} (hs : bitsIn 0x1c00000000000030000000000000000180000002000000a80 M = true) (hA : Agree M s0 s) : AgreeO M s0 (execNoRowStreamUpdate x s) :=
  hA.stepO hs (execNoRowStreamUpdate_frame x s)

theorem execDrainRowRead_frame (c : Nat) (bad : Bool) (s : State) : AgreeO 0x1c00000000000030000000000000000180000002000000a80 s (execDrainRowRead c bad s) := by
  unfold execDrainRowRead
  repeat' first
    | with_reducible assumption
    | with_reducible exact Agree.refl _ _
    | exact bitsIn_rfl rfl
    | exact regIn_rfl rfl rfl
    | with_reducible refine AgreeO.next ?_
    | with_reducible refine AgreeO.ite ?_ ?_
    | with_reducible exact AgreeO.refused
    | with_reducible exact AgreeO.fault
    | ((with_reducible refine CoreOf.intro ?_); exact fun w => w _)
    | with_reducible refine accUpset_step ?_ ?_
    | with_reducible refine mFault_step ?_ ?_
    | with_reducible refine markBegun_step ?_ ?_
    | with_reducible refine onClock_step ?_ ?_
    | with_reducible refine setCore_step ?_ ?_ ?_
    | with_reducible refine setM_step ?_ ?_
    | with_reducible refine Agree.ite ?_ ?_
    | (with_reducible refine Agree.foldl ?_ ?_; intro _ _ _)
    | (with_reducible refine Agree.foldl2 ?_ ?_; intro _ _ _)
    | (with_reducible refine Agree.foldl3 ?_ ?_; intro _ _ _)
    | (with_reducible refine Agree.foldl4 ?_ ?_; intro _ _ _)
    | dsimp only
    | split
    | (with_reducible refine Agree.of_pair (by assumption) ?_)
    | (with_reducible refine Agree.of_pair2 (by assumption) ?_)
    | (with_reducible refine AgreeO.of ?_ (by assumption))
    | intro _
theorem execDrainRowRead_step {M s0} {c : Nat} {bad : Bool} {s : State} (hs : bitsIn 0x1c00000000000030000000000000000180000002000000a80 M = true) (hA : Agree M s0 s) : AgreeO M s0 (execDrainRowRead c bad s) :=
  hA.stepO hs (execDrainRowRead_frame c bad s)

theorem execDrainRowWrite_frame (c : Nat) (s : State) : AgreeO 0x1c00000000000000000000000000000000000002000000200 s (execDrainRowWrite c s) := by
  unfold execDrainRowWrite
  repeat' first
    | with_reducible assumption
    | with_reducible exact Agree.refl _ _
    | exact bitsIn_rfl rfl
    | exact regIn_rfl rfl rfl
    | with_reducible refine AgreeO.next ?_
    | with_reducible refine AgreeO.ite ?_ ?_
    | with_reducible exact AgreeO.refused
    | with_reducible exact AgreeO.fault
    | ((with_reducible refine ModOf.intro ?_); first | exact fun _ w => w | exact fun _ w => canonical_memPut _ _ w | exact fun _ w => canonical_filter _ w | exact fun _ w => canonical_foldl_mset _ _ w | exact fun _ _ => rfl)
    | with_reducible refine modCore_step ?_ ?_ ?_
    | with_reducible refine onClock_step ?_ ?_
    | with_reducible refine scrWrite_step ?_ ?_
    | with_reducible refine setM_step ?_ ?_
    | with_reducible refine Agree.ite ?_ ?_
    | dsimp only
    | split
    | (with_reducible refine Agree.of_pair (by assumption) ?_)
    | (with_reducible refine Agree.of_pair2 (by assumption) ?_)
    | (with_reducible refine AgreeO.of ?_ (by assumption))
    | intro _
theorem execDrainRowWrite_step {M s0} {c : Nat} {s : State} (hs : bitsIn 0x1c00000000000000000000000000000000000002000000200 M = true) (hA : Agree M s0 s) : AgreeO M s0 (execDrainRowWrite c s) :=
  hA.stepO hs (execDrainRowWrite_frame c s)

theorem raiseM_frame (s : State) (c : Nat) (i : MInstr) : Agree 0xa00 s (raiseM s c i) := by
  unfold raiseM
  repeat' first
    | with_reducible assumption
    | with_reducible exact Agree.refl _ _
    | exact bitsIn_rfl rfl
    | with_reducible refine modKernel_step ?_ ?_
    | with_reducible refine setGroup_step ?_ ?_
    | with_reducible refine Agree.ite ?_ ?_
    | dsimp only
    | split
    | (with_reducible refine Agree.of_pair (by assumption) ?_)
    | (with_reducible refine Agree.of_pair2 (by assumption) ?_)
    | intro _
theorem raiseM_step {M s0} {s : State} {c : Nat} {i : MInstr} (hs : bitsIn 0xa00 M = true) (hA : Agree M s0 s) : Agree M s0 (raiseM s c i) :=
  hA.step hs (raiseM_frame s c i)

theorem execMInstrComplete_frame (c e : Nat) (s : State) : AgreeO 0x2000000000000000000000000000000000000000000002a00 s (execMInstrComplete c e s) := by
  unfold execMInstrComplete
  repeat' first
    | with_reducible assumption
    | with_reducible exact Agree.refl _ _
    | exact bitsIn_rfl rfl
    | exact regIn_rfl rfl rfl
    | with_reducible refine AgreeO.next ?_
    | with_reducible refine AgreeO.ite ?_ ?_
    | with_reducible exact AgreeO.refused
    | with_reducible exact AgreeO.fault
    | ((with_reducible refine ModOf.intro ?_); first | exact fun _ w => w | exact fun _ w => canonical_memPut _ _ w | exact fun _ w => canonical_filter _ w | exact fun _ w => canonical_foldl_mset _ _ w | exact fun _ _ => rfl)
    | with_reducible refine modCore_step ?_ ?_ ?_
    | with_reducible refine onClock_step ?_ ?_
    | with_reducible refine raiseCredit_step ?_ ?_
    | with_reducible refine raiseM_step ?_ ?_
    | with_reducible refine Agree.ite ?_ ?_
    | dsimp only
    | split
    | (with_reducible refine Agree.of_pair (by assumption) ?_)
    | (with_reducible refine Agree.of_pair2 (by assumption) ?_)
    | (with_reducible refine AgreeO.of ?_ (by assumption))
    | intro _
theorem execMInstrComplete_step {M s0} {c e : Nat} {s : State} (hs : bitsIn 0x2000000000000000000000000000000000000000000002a00 M = true) (hA : Agree M s0 s) : AgreeO M s0 (execMInstrComplete c e s) :=
  hA.stepO hs (execMInstrComplete_frame c e s)

end Sys2Proof.Machine
end

