-- ==== Sys2Proof/Laws/FrameResets.lean ====
section
/-!
SUPPORT. The frame of every function of Machine/Resets.lean that answers a state: the fields it can change, by mask.
-/

set_option linter.unusedTactic false
set_option linter.unreachableTactic false
set_option linter.unusedVariables false

namespace Sys2Proof.Machine

theorem noticePeers_frame (s : State) (u : Nat) (reset : Bool) : Agree 0x40400000000000000000000000000000000000000000048000000000000 s (noticePeers s u reset) := by
  unfold noticePeers
  repeat' first
    | with_reducible assumption
    | with_reducible exact Agree.refl _ _
    | exact bitsIn_rfl rfl
    | exact regIn_rfl rfl rfl
    | with_reducible refine sendOrDrop_step ?_ ?_
    | with_reducible refine Agree.ite ?_ ?_
    | (with_reducible refine Agree.foldl ?_ ?_; intro _ _ _)
    | (with_reducible refine Agree.foldl2 ?_ ?_; intro _ _ _)
    | (with_reducible refine Agree.foldl3 ?_ ?_; intro _ _ _)
    | (with_reducible refine Agree.foldl4 ?_ ?_; intro _ _ _)
    | dsimp only
    | split
    | (with_reducible refine Agree.of_pair (by assumption) ?_)
    | (with_reducible refine Agree.of_pair2 (by assumption) ?_)
    | intro _
theorem noticePeers_step {M s0} {s : State} {u : Nat} {reset : Bool} (hs : bitsIn 0x40400000000000000000000000000000000000000000048000000000000 M = true) (hA : Agree M s0 s) : Agree M s0 (noticePeers s u reset) :=
  hA.step hs (noticePeers_frame s u reset)

theorem emptyGates_frame (s : State) (u : Nat) : Agree 0x400000001000000000 s (emptyGates s u) := by
  unfold emptyGates
  repeat' first
    | with_reducible assumption
    | with_reducible exact Agree.refl _ _
    | exact bitsIn_rfl rfl
    | with_reducible refine endCmd_step ?_ ?_
    | with_reducible refine modGate_step ?_ ?_
    | with_reducible refine Agree.ite ?_ ?_
    | (with_reducible refine Agree.foldl ?_ ?_; intro _ _ _)
    | (with_reducible refine Agree.foldl2 ?_ ?_; intro _ _ _)
    | (with_reducible refine Agree.foldl3 ?_ ?_; intro _ _ _)
    | (with_reducible refine Agree.foldl4 ?_ ?_; intro _ _ _)
    | dsimp only
    | split
    | (with_reducible refine Agree.of_pair (by assumption) ?_)
    | (with_reducible refine Agree.of_pair2 (by assumption) ?_)
    | intro _
theorem emptyGates_step {M s0} {s : State} {u : Nat} (hs : bitsIn 0x400000001000000000 M = true) (hA : Agree M s0 s) : Agree M s0 (emptyGates s u) :=
  hA.step hs (emptyGates_frame s u)

theorem stopDomain_frame (s : State) (u : Nat) : Agree 0x200 s (stopDomain s u) := by
  unfold stopDomain
  repeat' first
    | with_reducible assumption
    | with_reducible exact Agree.refl _ _
    | exact bitsIn_rfl rfl
    | ((with_reducible refine MemOf.intro ?_); first | exact fun _ w => memoriesWf_mapCores w (fun kv => by dsimp only; repeat' first | exact ⟨rfl, rfl⟩ | split))
    | ((conv => arg 3; arg 88; skip); with_reducible first | refine upd_cores ?_ ?_ ?_)
    | with_reducible refine Agree.ite ?_ ?_
    | dsimp only
    | split
    | (with_reducible refine Agree.of_pair (by assumption) ?_)
    | (with_reducible refine Agree.of_pair2 (by assumption) ?_)
    | intro _
theorem stopDomain_step {M s0} {s : State} {u : Nat} (hs : bitsIn 0x200 M = true) (hA : Agree M s0 s) : Agree M s0 (stopDomain s u) :=
  hA.step hs (stopDomain_frame s u)

theorem beginFence_frame (s : State) (u cause : Nat) : Agree 0x32804000000040400000000000000000000000000000000004000400048001000000200 s (beginFence s u cause) := by
  unfold beginFence
  repeat' first
    | with_reducible assumption
    | with_reducible exact Agree.refl _ _
    | exact bitsIn_rfl rfl
    | exact regIn_rfl rfl rfl
    | with_reducible refine emptyGates_step ?_ ?_
    | with_reducible refine noticePeers_step ?_ ?_
    | with_reducible refine setF_step ?_ ?_ ?_
    | with_reducible refine stopDomain_step ?_ ?_
    | with_reducible refine wakeCore_step ?_ ?_
    | with_reducible refine wakeWing_step ?_ ?_
    | ((conv => arg 3; arg 88; skip); with_reducible first | refine upd_resets ?_ ?_)
    | with_reducible refine Agree.ite ?_ ?_
    | (with_reducible refine Agree.foldl ?_ ?_; intro _ _ _)
    | (with_reducible refine Agree.foldl2 ?_ ?_; intro _ _ _)
    | (with_reducible refine Agree.foldl3 ?_ ?_; intro _ _ _)
    | (with_reducible refine Agree.foldl4 ?_ ?_; intro _ _ _)
    | dsimp only
    | split
    | (with_reducible refine Agree.of_pair (by assumption) ?_)
    | (with_reducible refine Agree.of_pair2 (by assumption) ?_)
    | intro _
theorem beginFence_step {M s0} {s : State} {u cause : Nat} (hs : bitsIn 0x32804000000040400000000000000000000000000000000004000400048001000000200 M = true) (hA : Agree M s0 s) : Agree M s0 (beginFence s u cause) :=
  hA.step hs (beginFence_frame s u cause)

theorem startCompute_frame (s : State) (u cause : Nat) (counted : Bool) : Agree 0x70076804000000040400000000000000000000000000000000006200400048091000000200 s (startCompute s u cause counted) := by
  unfold startCompute
  repeat' first
    | with_reducible assumption
    | with_reducible exact Agree.refl _ _
    | exact bitsIn_rfl rfl
    | exact regIn_rfl rfl rfl
    | with_reducible refine beginFence_step ?_ ?_
    | with_reducible refine countReset_step ?_ ?_
    | with_reducible refine noteOos_step ?_ ?_
    | with_reducible refine recordReset_step ?_ ?_
    | with_reducible refine setF_step ?_ ?_ ?_
    | with_reducible refine Agree.ite ?_ ?_
    | dsimp only
    | split
    | (with_reducible refine Agree.of_pair (by assumption) ?_)
    | (with_reducible refine Agree.of_pair2 (by assumption) ?_)
    | intro _
theorem startCompute_step {M s0} {s : State} {u cause : Nat} {counted : Bool} (hs : bitsIn 0x70076804000000040400000000000000000000000000000000006200400048091000000200 M = true) (hA : Agree M s0 s) : Agree M s0 (startCompute s u cause counted) :=
  hA.step hs (startCompute_frame s u cause counted)

theorem execImagoReset_frame (i : Nat) (count : Bool) (s : State) : AgreeO 0x70076804000000040400000000000000000000000000000000006200400048091000000200 s (execImagoReset i count s) := by
  unfold execImagoReset
  repeat' first
    | with_reducible assumption
    | with_reducible exact Agree.refl _ _
    | exact bitsIn_rfl rfl
    | exact regIn_rfl rfl rfl
    | with_reducible refine AgreeO.next ?_
    | with_reducible refine AgreeO.ite ?_ ?_
    | with_reducible exact AgreeO.refused
    | with_reducible exact AgreeO.fault
    | with_reducible refine startCompute_step ?_ ?_
    | with_reducible refine Agree.ite ?_ ?_
    | dsimp only
    | split
    | (with_reducible refine Agree.of_pair (by assumption) ?_)
    | (with_reducible refine Agree.of_pair2 (by assumption) ?_)
    | intro _
theorem execImagoReset_step {M s0} {i : Nat} {count : Bool} {s : State} (hs : bitsIn 0x70076804000000040400000000000000000000000000000000006200400048091000000200 M = true) (hA : Agree M s0 s) : AgreeO M s0 (execImagoReset i count s) :=
  hA.stepO hs (execImagoReset_frame i count s)

theorem execChipReset_frame (count : Bool) (s : State) : AgreeO 0x70076804000000040400000000000000000000000000000000006200400048091000000200 s (execChipReset count s) := by
  unfold execChipReset
  repeat' first
    | with_reducible assumption
    | with_reducible exact Agree.refl _ _
    | exact bitsIn_rfl rfl
    | exact regIn_rfl rfl rfl
    | with_reducible refine AgreeO.next ?_
    | with_reducible refine AgreeO.ite ?_ ?_
    | with_reducible exact AgreeO.refused
    | with_reducible exact AgreeO.fault
    | with_reducible refine startCompute_step ?_ ?_
    | with_reducible refine Agree.ite ?_ ?_
    | dsimp only
    | split
    | (with_reducible refine Agree.of_pair (by assumption) ?_)
    | (with_reducible refine Agree.of_pair2 (by assumption) ?_)
    | intro _
theorem execChipReset_step {M s0} {count : Bool} {s : State} (hs : bitsIn 0x70076804000000040400000000000000000000000000000000006200400048091000000200 M = true) (hA : Agree M s0 s) : AgreeO M s0 (execChipReset count s) :=
  hA.stepO hs (execChipReset_frame count s)

theorem execFullReset_frame (count selftest retrain : Bool) (s : State) : AgreeO 0x44020000000000000000000000000000000000000000000007c7ffffffff7fffff3fe73 s (execFullReset count selftest retrain s) := by
  unfold execFullReset
  repeat' first
    | with_reducible assumption
    | with_reducible exact Agree.refl _ _
    | exact bitsIn_rfl rfl
    | exact regIn_rfl rfl rfl
    | exact .inl rfl
    | with_reducible refine AgreeO.next ?_
    | with_reducible refine AgreeO.ite ?_ ?_
    | with_reducible exact AgreeO.refused
    | with_reducible exact AgreeO.fault
    | with_reducible refine fullReset_step ?_ ?_
    | with_reducible refine Agree.ite ?_ ?_
    | dsimp only
    | split
    | (with_reducible refine Agree.of_pair (by assumption) ?_)
    | (with_reducible refine Agree.of_pair2 (by assumption) ?_)
    | intro _
theorem execFullReset_step {M s0} {count selftest retrain : Bool} {s : State} (hs : bitsIn 0x44020000000000000000000000000000000000000000000007c7ffffffff7fffff3fe73 M = true) (hA : Agree M s0 s) : AgreeO M s0 (execFullReset count selftest retrain s) :=
  hA.stepO hs (execFullReset_frame count selftest retrain s)

theorem failRunning_frame (s : State) (u : Nat) : Agree 0x1000000000000000000000004040020000200408000000200000000000000000060007b0060384ffa80 s (failRunning s u) := by
  unfold failRunning
  repeat' first
    | with_reducible assumption
    | with_reducible exact Agree.refl _ _
    | exact bitsIn_rfl rfl
    | exact regIn_rfl rfl rfl
    | with_reducible refine cutKernel_step ?_ ?_
    | with_reducible refine endCmd_step ?_ ?_
    | with_reducible refine Agree.ite ?_ ?_
    | (with_reducible refine Agree.foldl ?_ ?_; intro _ _ _)
    | (with_reducible refine Agree.foldl2 ?_ ?_; intro _ _ _)
    | (with_reducible refine Agree.foldl3 ?_ ?_; intro _ _ _)
    | (with_reducible refine Agree.foldl4 ?_ ?_; intro _ _ _)
    | dsimp only
    | split
    | (with_reducible refine Agree.of_pair (by assumption) ?_)
    | (with_reducible refine Agree.of_pair2 (by assumption) ?_)
    | intro _
theorem failRunning_step {M s0} {s : State} {u : Nat} (hs : bitsIn 0x1000000000000000000000004040020000200408000000200000000000000000060007b0060384ffa80 M = true) (hA : Agree M s0 s) : Agree M s0 (failRunning s u) :=
  hA.step hs (failRunning_frame s u)

theorem dropWork_frame (s : State) (u : Nat) : Agree 0x4040020000a0040800000020000000000000000006000780000384ff280 s (dropWork s u) := by
  unfold dropWork
  repeat' first
    | with_reducible assumption
    | with_reducible exact Agree.refl _ _
    | exact bitsIn_rfl rfl
    | exact regIn_rfl rfl rfl
    | with_reducible refine abortReqs_step ?_ ?_
    | with_reducible refine dropAllDescs_step ?_ ?_
    | with_reducible refine dropTiles_step ?_ ?_
    | with_reducible refine Agree.ite ?_ ?_
    | dsimp only
    | split
    | (with_reducible refine Agree.of_pair (by assumption) ?_)
    | (with_reducible refine Agree.of_pair2 (by assumption) ?_)
    | intro _
theorem dropWork_step {M s0} {s : State} {u : Nat} (hs : bitsIn 0x4040020000a0040800000020000000000000000006000780000384ff280 M = true) (hA : Agree M s0 s) : Agree M s0 (dropWork s u) :=
  hA.step hs (dropWork_frame s u)

theorem execResetDrainEnd_frame (u : Nat) (s : State) : AgreeO 0x1000004000000000000000004043028000a00408000019200000200000000400068007b0075f84ffb80 s (execResetDrainEnd u s) := by
  unfold execResetDrainEnd
  repeat' first
    | with_reducible assumption
    | with_reducible exact Agree.refl _ _
    | exact bitsIn_rfl rfl
    | exact regIn_rfl rfl rfl
    | with_reducible refine AgreeO.next ?_
    | with_reducible refine AgreeO.ite ?_ ?_
    | with_reducible exact AgreeO.refused
    | with_reducible exact AgreeO.fault
    | ((with_reducible refine ModOf.intro ?_); first | exact fun _ w => w | exact fun _ w => canonical_memPut _ _ w | exact fun _ w => canonical_filter _ w | exact fun _ w => canonical_foldl_mset _ _ w | exact fun _ _ => rfl)
    | with_reducible refine abortLinks_step ?_ ?_
    | with_reducible refine doomIf_step ?_ ?_
    | with_reducible refine dropDispatches_step ?_ ?_
    | with_reducible refine dropWork_step ?_ ?_
    | with_reducible refine failRunning_step ?_ ?_
    | with_reducible refine freeEntry_step ?_ ?_
    | with_reducible refine modCore_step ?_ ?_ ?_
    | with_reducible refine modCtx_step ?_ ?_
    | with_reducible refine retryTiles_step ?_ ?_
    | ((conv => arg 3; arg 88; skip); with_reducible first | refine upd_resets ?_ ?_)
    | with_reducible refine Agree.ite ?_ ?_
    | (with_reducible refine Agree.foldl ?_ ?_; intro _ _ _)
    | (with_reducible refine Agree.foldl2 ?_ ?_; intro _ _ _)
    | (with_reducible refine Agree.foldl3 ?_ ?_; intro _ _ _)
    | (with_reducible refine Agree.foldl4 ?_ ?_; intro _ _ _)
    | dsimp only
    | split
    | (with_reducible refine Agree.of_pair (by assumption) ?_)
    | (with_reducible refine Agree.of_pair2 (by assumption) ?_)
    | intro _
theorem execResetDrainEnd_step {M s0} {u : Nat} {s : State} (hs : bitsIn 0x1000004000000000000000004043028000a00408000019200000200000000400068007b0075f84ffb80 M = true) (hA : Agree M s0 s) : AgreeO M s0 (execResetDrainEnd u s) :=
  hA.stepO hs (execResetDrainEnd_frame u s)

theorem resetCore_frame (s : State) (c : Nat) : Agree 0x2000000000000000000000000000000000000000040002200 s (resetCore s c) := by
  unfold resetCore
  repeat' first
    | with_reducible assumption
    | with_reducible exact Agree.refl _ _
    | exact bitsIn_rfl rfl
    | exact regIn_rfl rfl rfl
    | ((with_reducible refine ModOf.intro ?_); first | exact fun _ w => w | exact fun _ w => canonical_memPut _ _ w | exact fun _ w => canonical_filter _ w | exact fun _ w => canonical_foldl_mset _ _ w | exact fun _ _ => rfl)
    | with_reducible refine modCore_step ?_ ?_ ?_
    | with_reducible refine setR_step ?_ ?_ ?_
    | ((conv => arg 3; arg 88; skip); with_reducible first | refine upd_movers_tlb ?_ ?_)
    | with_reducible refine Agree.ite ?_ ?_
    | dsimp only
    | split
    | (with_reducible refine Agree.of_pair (by assumption) ?_)
    | (with_reducible refine Agree.of_pair2 (by assumption) ?_)
    | intro _
theorem resetCore_step {M s0} {s : State} {c : Nat} (hs : bitsIn 0x2000000000000000000000000000000000000000040002200 M = true) (hA : Agree M s0 s) : Agree M s0 (resetCore s c) :=
  hA.step hs (resetCore_frame s c)

theorem resetSched_frame (s : State) (i : Nat) : Agree 0x30000000000000000180000000000000000 s (resetSched s i) := by
  unfold resetSched
  repeat' first
    | with_reducible assumption
    | with_reducible exact Agree.refl _ _
    | exact bitsIn_rfl rfl
    | exact regIn_rfl rfl rfl
    | with_reducible refine modCtx_step ?_ ?_
    | with_reducible refine setF_step ?_ ?_ ?_
    | with_reducible refine setR_step ?_ ?_ ?_
    | ((conv => arg 3; arg 88; skip); with_reducible first | refine upd_scheds ?_ ?_)
    | with_reducible refine Agree.ite ?_ ?_
    | (with_reducible refine Agree.foldl ?_ ?_; intro _ _ _)
    | (with_reducible refine Agree.foldl2 ?_ ?_; intro _ _ _)
    | (with_reducible refine Agree.foldl3 ?_ ?_; intro _ _ _)
    | (with_reducible refine Agree.foldl4 ?_ ?_; intro _ _ _)
    | dsimp only
    | split
    | (with_reducible refine Agree.of_pair (by assumption) ?_)
    | (with_reducible refine Agree.of_pair2 (by assumption) ?_)
    | intro _
theorem resetSched_step {M s0} {s : State} {i : Nat} (hs : bitsIn 0x30000000000000000180000000000000000 M = true) (hA : Agree M s0 s) : Agree M s0 (resetSched s i) :=
  hA.step hs (resetSched_frame s i)

theorem releaseQueues_frame (s : State) (u : Nat) : Agree 0x100000400000000000000000404302800000040800001800000020000000000002000580040c04fc180 s (releaseQueues s u) := by
  unfold releaseQueues
  repeat' first
    | with_reducible assumption
    | with_reducible exact Agree.refl _ _
    | exact bitsIn_rfl rfl
    | exact regIn_rfl rfl rfl
    | with_reducible refine modQueue_step ?_ ?_
    | with_reducible refine reactTo_step ?_ ?_
    | with_reducible refine Agree.ite ?_ ?_
    | (with_reducible refine Agree.foldl ?_ ?_; intro _ _ _)
    | (with_reducible refine Agree.foldl2 ?_ ?_; intro _ _ _)
    | (with_reducible refine Agree.foldl3 ?_ ?_; intro _ _ _)
    | (with_reducible refine Agree.foldl4 ?_ ?_; intro _ _ _)
    | dsimp only
    | split
    | (with_reducible refine Agree.of_pair (by assumption) ?_)
    | (with_reducible refine Agree.of_pair2 (by assumption) ?_)
    | intro _
theorem releaseQueues_step {M s0} {s : State} {u : Nat} (hs : bitsIn 0x100000400000000000000000404302800000040800001800000020000000000002000580040c04fc180 M = true) (hA : Agree M s0 s) : Agree M s0 (releaseQueues s u) :=
  hA.step hs (releaseQueues_frame s u)

theorem liftFence_frame (s : State) (u : Nat) : Agree 0x100000400300300000000000404302800000040800001800300020000000040003800580940c04fc180 s (liftFence s u) := by
  unfold liftFence
  repeat' first
    | with_reducible assumption
    | with_reducible exact Agree.refl _ _
    | exact bitsIn_rfl rfl
    | exact regIn_rfl rfl rfl
    | with_reducible refine noticePeers_step ?_ ?_
    | with_reducible refine raiseRst_step ?_ ?_ ?_
    | with_reducible refine releaseQueues_step ?_ ?_
    | with_reducible refine schedule_step ?_ ?_
    | with_reducible refine setF_step ?_ ?_ ?_
    | with_reducible refine setR_step ?_ ?_ ?_
    | ((conv => arg 3; arg 88; skip); with_reducible first | refine upd_resets ?_ ?_)
    | with_reducible refine Agree.ite ?_ ?_
    | (with_reducible refine Agree.foldl ?_ ?_; intro _ _ _)
    | (with_reducible refine Agree.foldl2 ?_ ?_; intro _ _ _)
    | (with_reducible refine Agree.foldl3 ?_ ?_; intro _ _ _)
    | (with_reducible refine Agree.foldl4 ?_ ?_; intro _ _ _)
    | dsimp only
    | split
    | (with_reducible refine Agree.of_pair (by assumption) ?_)
    | (with_reducible refine Agree.of_pair2 (by assumption) ?_)
    | intro _
theorem liftFence_step {M s0} {s : State} {u : Nat} (hs : bitsIn 0x100000400300300000000000404302800000040800001800300020000000040003800580940c04fc180 M = true) (hA : Agree M s0 s) : Agree M s0 (liftFence s u) :=
  hA.step hs (liftFence_frame s u)

theorem execResetDone_frame (u : Nat) (failed : List Nat) (s : State) : AgreeO 0x10000040070074824800000040430280402004080000180030002000000007e7ffffffffffffffffff3 s (execResetDone u failed s) := by
  unfold execResetDone
  repeat' first
    | with_reducible assumption
    | with_reducible exact Agree.refl _ _
    | exact bitsIn_rfl rfl
    | exact regIn_rfl rfl rfl
    | exact .inl rfl
    | with_reducible refine AgreeO.next ?_
    | with_reducible refine AgreeO.ite ?_ ?_
    | with_reducible exact AgreeO.refused
    | with_reducible exact AgreeO.fault
    | with_reducible refine appendAll_step ?_ ?_
    | with_reducible refine fullReset_step ?_ ?_
    | with_reducible refine holdRaise_step ?_ ?_
    | with_reducible refine liftFence_step ?_ ?_
    | with_reducible refine resetCore_step ?_ ?_
    | with_reducible refine resetSched_step ?_ ?_
    | with_reducible refine retimeCore_step ?_ ?_
    | with_reducible refine setR_step ?_ ?_ ?_
    | with_reducible refine stepWgen_step ?_ ?_
    | ((conv => arg 3; arg 88; skip); with_reducible first | refine upd_movers ?_ ?_)
    | with_reducible refine Agree.ite ?_ ?_
    | (with_reducible refine Agree.foldl ?_ ?_; intro _ _ _)
    | (with_reducible refine Agree.foldl2 ?_ ?_; intro _ _ _)
    | (with_reducible refine Agree.foldl3 ?_ ?_; intro _ _ _)
    | (with_reducible refine Agree.foldl4 ?_ ?_; intro _ _ _)
    | dsimp only
    | split
    | (with_reducible refine Agree.of_pair (by assumption) ?_)
    | (with_reducible refine Agree.of_pair2 (by assumption) ?_)
    | intro _
theorem execResetDone_step {M s0} {u : Nat} {failed : List Nat} {s : State} (hs : bitsIn 0x10000040070074824800000040430280402004080000180030002000000007e7ffffffffffffffffff3 M = true) (hA : Agree M s0 s) : AgreeO M s0 (execResetDone u failed s) :=
  hA.stepO hs (execResetDone_frame u failed s)

theorem execResetBoundMiss_frame (u : Nat) (s : State) : AgreeO 0x70076824000000040400000000000000000000000000000000007e7ffffffffffffff3fe73 s (execResetBoundMiss u s) := by
  unfold execResetBoundMiss
  repeat' first
    | with_reducible assumption
    | with_reducible exact Agree.refl _ _
    | exact bitsIn_rfl rfl
    | exact regIn_rfl rfl rfl
    | exact .inl rfl
    | with_reducible refine AgreeO.next ?_
    | with_reducible refine AgreeO.ite ?_ ?_
    | with_reducible exact AgreeO.refused
    | with_reducible exact AgreeO.fault
    | with_reducible refine fullReset_step ?_ ?_
    | with_reducible refine startCompute_step ?_ ?_
    | with_reducible refine Agree.ite ?_ ?_
    | dsimp only
    | split
    | (with_reducible refine Agree.of_pair (by assumption) ?_)
    | (with_reducible refine Agree.of_pair2 (by assumption) ?_)
    | intro _
theorem execResetBoundMiss_step {M s0} {u : Nat} {s : State} (hs : bitsIn 0x70076824000000040400000000000000000000000000000000007e7ffffffffffffff3fe73 M = true) (hA : Agree M s0 s) : AgreeO M s0 (execResetBoundMiss u s) :=
  hA.stepO hs (execResetBoundMiss_frame u s)

theorem execOverride_frame (s : State) : AgreeO 0x470004000000000000000000000000000000000030000000000002200180000090000000000 s (execOverride s) := by
  unfold execOverride
  repeat' first
    | with_reducible assumption
    | with_reducible exact Agree.refl _ _
    | exact bitsIn_rfl rfl
    | exact regIn_rfl rfl rfl
    | with_reducible refine AgreeO.next ?_
    | with_reducible refine AgreeO.ite ?_ ?_
    | with_reducible exact AgreeO.refused
    | with_reducible exact AgreeO.fault
    | with_reducible refine appendEntry_step ?_ ?_
    | with_reducible refine schedule_step ?_ ?_
    | with_reducible refine setF_step ?_ ?_ ?_
    | ((conv => arg 3; arg 88; skip); with_reducible first | refine upd_flash_aon ?_ ?_)
    | with_reducible refine Agree.ite ?_ ?_
    | (with_reducible refine Agree.foldl ?_ ?_; intro _ _ _)
    | (with_reducible refine Agree.foldl2 ?_ ?_; intro _ _ _)
    | (with_reducible refine Agree.foldl3 ?_ ?_; intro _ _ _)
    | (with_reducible refine Agree.foldl4 ?_ ?_; intro _ _ _)
    | dsimp only
    | split
    | (with_reducible refine Agree.of_pair (by assumption) ?_)
    | (with_reducible refine Agree.of_pair2 (by assumption) ?_)
    | intro _
theorem execOverride_step {M s0} {s : State} (hs : bitsIn 0x470004000000000000000000000000000000000030000000000002200180000090000000000 M = true) (hA : Agree M s0 s) : AgreeO M s0 (execOverride s) :=
  hA.stepO hs (execOverride_frame s)

theorem wdFired_frame (s : State) (k : Nat) : Agree 0x32000000000000000000000000000000000000000000000000000000000000090000000000 s (wdFired s k) := by
  unfold wdFired
  repeat' first
    | with_reducible assumption
    | with_reducible exact Agree.refl _ _
    | exact bitsIn_rfl rfl
    | exact regIn_rfl rfl rfl
    | with_reducible refine countR_step ?_ ?_ ?_
    | with_reducible refine raiseRst_step ?_ ?_ ?_
    | with_reducible refine Agree.ite ?_ ?_
    | dsimp only
    | split
    | (with_reducible refine Agree.of_pair (by assumption) ?_)
    | (with_reducible refine Agree.of_pair2 (by assumption) ?_)
    | intro _
theorem wdFired_step {M s0} {s : State} {k : Nat} (hs : bitsIn 0x32000000000000000000000000000000000000000000000000000000000000090000000000 M = true) (hA : Agree M s0 s) : Agree M s0 (wdFired s k) :=
  hA.step hs (wdFired_frame s k)

theorem execKernelWatchdog_frame (c : Nat) (s : State) : AgreeO 0x32000000000000000000000000000000000000030000000000000000180000090000000a00 s (execKernelWatchdog c s) := by
  unfold execKernelWatchdog
  repeat' first
    | with_reducible assumption
    | with_reducible exact Agree.refl _ _
    | exact bitsIn_rfl rfl
    | exact regIn_rfl rfl rfl
    | with_reducible refine AgreeO.next ?_
    | with_reducible refine AgreeO.ite ?_ ?_
    | with_reducible exact AgreeO.refused
    | with_reducible exact AgreeO.fault
    | with_reducible refine coreFault_step ?_ ?_
    | with_reducible refine wdFired_step ?_ ?_
    | with_reducible refine Agree.ite ?_ ?_
    | dsimp only
    | split
    | (with_reducible refine Agree.of_pair (by assumption) ?_)
    | (with_reducible refine Agree.of_pair2 (by assumption) ?_)
    | intro _
theorem execKernelWatchdog_step {M s0} {c : Nat} {s : State} (hs : bitsIn 0x32000000000000000000000000000000000000030000000000000000180000090000000a00 M = true) (hA : Agree M s0 s) : AgreeO M s0 (execKernelWatchdog c s) :=
  hA.stepO hs (execKernelWatchdog_frame c s)

theorem cutCmd_frame (s : State) (id : Nat) : Agree 0x4000000000000000004043028000a0040800001820000020000000000036000780030f84ff380 s (cutCmd s id) := by
  unfold cutCmd
  repeat' first
    | with_reducible assumption
    | with_reducible exact Agree.refl _ _
    | exact bitsIn_rfl rfl
    | exact regIn_rfl rfl rfl
    | with_reducible refine abortReqs_step ?_ ?_
    | with_reducible refine dropAllDescs_step ?_ ?_
    | with_reducible refine dropDispatches_step ?_ ?_
    | with_reducible refine dropTiles_step ?_ ?_
    | with_reducible refine dropWaits_step ?_ ?_
    | with_reducible refine Agree.ite ?_ ?_
    | dsimp only
    | split
    | (with_reducible refine Agree.of_pair (by assumption) ?_)
    | (with_reducible refine Agree.of_pair2 (by assumption) ?_)
    | intro _
theorem cutCmd_step {M s0} {s : State} {id : Nat} (hs : bitsIn 0x4000000000000000004043028000a0040800001820000020000000000036000780030f84ff380 M = true) (hA : Agree M s0 s) : Agree M s0 (cutCmd s id) :=
  hA.step hs (cutCmd_frame s id)

theorem execNpWatchdog_frame (id : Nat) (s : State) : AgreeO 0x10000000072076804000000040400000000000000000000000000000000006200400048095000000200 s (execNpWatchdog id s) := by
  unfold execNpWatchdog
  repeat' first
    | with_reducible assumption
    | with_reducible exact Agree.refl _ _
    | exact bitsIn_rfl rfl
    | exact regIn_rfl rfl rfl
    | with_reducible refine AgreeO.next ?_
    | with_reducible refine AgreeO.ite ?_ ?_
    | with_reducible exact AgreeO.refused
    | with_reducible exact AgreeO.fault
    | with_reducible refine endCmd_step ?_ ?_
    | with_reducible refine postEvent_step ?_ ?_
    | with_reducible refine startCompute_step ?_ ?_
    | with_reducible refine wdFired_step ?_ ?_
    | with_reducible refine Agree.ite ?_ ?_
    | dsimp only
    | split
    | (with_reducible refine Agree.of_pair (by assumption) ?_)
    | (with_reducible refine Agree.of_pair2 (by assumption) ?_)
    | intro _
theorem execNpWatchdog_step {M s0} {id : Nat} {s : State} (hs : bitsIn 0x10000000072076804000000040400000000000000000000000000000000006200400048095000000200 M = true) (hA : Agree M s0 s) : AgreeO M s0 (execNpWatchdog id s) :=
  hA.stepO hs (execNpWatchdog_frame id s)

theorem hangCmd_frame (s : State) (id : Nat) : Agree 0x4000000000000000004043028000a0040800001820000020000000000036000780030f84ffb80 s (hangCmd s id) := by
  unfold hangCmd
  repeat' first
    | with_reducible assumption
    | with_reducible exact Agree.refl _ _
    | exact bitsIn_rfl rfl
    | exact regIn_rfl rfl rfl
    | with_reducible refine cutCmd_step ?_ ?_
    | with_reducible refine endCmd_step ?_ ?_
    | with_reducible refine noteFault_step ?_ ?_
    | with_reducible refine Agree.ite ?_ ?_
    | dsimp only
    | split
    | (with_reducible refine Agree.of_pair (by assumption) ?_)
    | (with_reducible refine Agree.of_pair2 (by assumption) ?_)
    | intro _
theorem hangCmd_step {M s0} {s : State} {id : Nat} (hs : bitsIn 0x4000000000000000004043028000a0040800001820000020000000000036000780030f84ffb80 M = true) (hA : Agree M s0 s) : Agree M s0 (hangCmd s id) :=
  hA.step hs (hangCmd_frame s id)

theorem execQueueWatchdog_frame (q : Nat) (s : State) : AgreeO 0x1000004003200000000000004043028000a0040800001820000020000000000036000780970f84ffb80 s (execQueueWatchdog q s) := by
  unfold execQueueWatchdog
  repeat' first
    | with_reducible assumption
    | with_reducible exact Agree.refl _ _
    | exact bitsIn_rfl rfl
    | exact regIn_rfl rfl rfl
    | with_reducible refine AgreeO.next ?_
    | with_reducible refine AgreeO.ite ?_ ?_
    | with_reducible exact AgreeO.refused
    | with_reducible exact AgreeO.fault
    | with_reducible refine hangCmd_step ?_ ?_
    | with_reducible refine modQueue_step ?_ ?_
    | with_reducible refine progress_step ?_ ?_
    | with_reducible refine reactTo_step ?_ ?_
    | with_reducible refine wdFired_step ?_ ?_
    | with_reducible refine Agree.ite ?_ ?_
    | (with_reducible refine Agree.foldl ?_ ?_; intro _ _ _)
    | (with_reducible refine Agree.foldl2 ?_ ?_; intro _ _ _)
    | (with_reducible refine Agree.foldl3 ?_ ?_; intro _ _ _)
    | (with_reducible refine Agree.foldl4 ?_ ?_; intro _ _ _)
    | dsimp only
    | split
    | (with_reducible refine Agree.of_pair (by assumption) ?_)
    | (with_reducible refine Agree.of_pair2 (by assumption) ?_)
    | intro _
theorem execQueueWatchdog_step {M s0} {q : Nat} {s : State} (hs : bitsIn 0x1000004003200000000000004043028000a0040800001820000020000000000036000780970f84ffb80 M = true) (hA : Agree M s0 s) : AgreeO M s0 (execQueueWatchdog q s) :=
  hA.stepO hs (execQueueWatchdog_frame q s)

theorem fabricFired_frame (s : State) : Agree 0x32000000000000000000000000000000000000000000000000000000000000090000000000 s (fabricFired s) := by
  unfold fabricFired
  repeat' first
    | with_reducible assumption
    | with_reducible exact Agree.refl _ _
    | exact bitsIn_rfl rfl
    | exact regIn_rfl rfl rfl
    | with_reducible refine raiseRst_step ?_ ?_ ?_
    | with_reducible refine wdFired_step ?_ ?_
    | with_reducible refine Agree.ite ?_ ?_
    | dsimp only
    | split
    | (with_reducible refine Agree.of_pair (by assumption) ?_)
    | (with_reducible refine Agree.of_pair2 (by assumption) ?_)
    | intro _
theorem fabricFired_step {M s0} {s : State} (hs : bitsIn 0x32000000000000000000000000000000000000000000000000000000000000090000000000 M = true) (hA : Agree M s0 s) : Agree M s0 (fabricFired s) :=
  hA.step hs (fabricFired_frame s)

theorem silkTimeout_frame (s : State) (id : Nat) (o : ThreadOp) : Agree 0x30000000000000000180002000000001a80 s (silkTimeout s id o) := by
  unfold silkTimeout
  repeat' first
    | with_reducible assumption
    | with_reducible exact Agree.refl _ _
    | exact bitsIn_rfl rfl
    | exact regIn_rfl rfl rfl
    | with_reducible refine freeVal_step ?_ ?_
    | with_reducible refine silkRemoteFail_step ?_ ?_
    | with_reducible refine silkWake_step ?_ ?_
    | ((conv => arg 3; arg 88; skip); with_reducible first | refine upd_silkReplies ?_ ?_)
    | with_reducible refine Agree.ite ?_ ?_
    | dsimp only
    | split
    | (with_reducible refine Agree.of_pair (by assumption) ?_)
    | (with_reducible refine Agree.of_pair2 (by assumption) ?_)
    | intro _
theorem silkTimeout_step {M s0} {s : State} {id : Nat} {o : ThreadOp} (hs : bitsIn 0x30000000000000000180002000000001a80 M = true) (hA : Agree M s0 s) : Agree M s0 (silkTimeout s id o) :=
  hA.step hs (silkTimeout_frame s id o)

theorem execFabricWatchdog_frame (id : Nat) (s : State) : AgreeO 0x1000000003200000000000004040020001bc060c020000203000000000000000278007a0970394c7b80 s (execFabricWatchdog id s) := by
  unfold execFabricWatchdog
  repeat' first
    | with_reducible assumption
    | with_reducible exact Agree.refl _ _
    | exact bitsIn_rfl rfl
    | exact regIn_rfl rfl rfl
    | with_reducible refine AgreeO.next ?_
    | with_reducible refine AgreeO.ite ?_ ?_
    | with_reducible exact AgreeO.refused
    | with_reducible exact AgreeO.fault
    | with_reducible refine endCmd_step ?_ ?_
    | with_reducible refine endWrite_step ?_ ?_
    | with_reducible refine errReq_step ?_ ?_
    | with_reducible refine fabricFired_step ?_ ?_
    | with_reducible refine poisonedBack_step ?_ ?_
    | with_reducible refine silkTimeout_step ?_ ?_
    | ((conv => arg 3; arg 88; skip); with_reducible first | refine upd_fenceOuts ?_ ?_)
    | with_reducible refine Agree.ite ?_ ?_
    | dsimp only
    | split
    | (with_reducible refine Agree.of_pair (by assumption) ?_)
    | (with_reducible refine Agree.of_pair2 (by assumption) ?_)
    | intro _
theorem execFabricWatchdog_step {M s0} {id : Nat} {s : State} (hs : bitsIn 0x1000000003200000000000004040020001bc060c020000203000000000000000278007a0970394c7b80 M = true) (hA : Agree M s0 s) : AgreeO M s0 (execFabricWatchdog id s) :=
  hA.stepO hs (execFabricWatchdog_frame id s)

end Sys2Proof.Machine
end

