-- ==== Sys2Proof/Laws/FrameRegAccess.lean ====
section
/-!
SUPPORT. The frame of every function of Machine/RegAccess.lean that answers a state: the fields it can change, by mask.
-/

set_option linter.unusedTactic false
set_option linter.unreachableTactic false
set_option linter.unusedVariables false

namespace Sys2Proof.Machine

theorem dropLatch_frame (s : State) (req key : Nat) : Agree 0x2 s (dropLatch s req key) := by
  unfold dropLatch
  repeat' first
    | with_reducible assumption
    | with_reducible exact Agree.refl _ _
    | exact bitsIn_rfl rfl
    | ((conv => arg 3; arg 88; skip); with_reducible first | refine upd_latches ?_ ?_)
    | with_reducible refine Agree.ite ?_ ?_
    | dsimp only
    | split
    | (with_reducible refine Agree.of_pair (by assumption) ?_)
    | (with_reducible refine Agree.of_pair2 (by assumption) ?_)
    | intro _
theorem dropLatch_step {M s0} {s : State} {req key : Nat} (hs : bitsIn 0x2 M = true) (hA : Agree M s0 s) : Agree M s0 (dropLatch s req key) :=
  hA.step hs (dropLatch_frame s req key)

theorem dropLatches_frame (s : State) (key : Nat) : Agree 0x2 s (dropLatches s key) := by
  unfold dropLatches
  repeat' first
    | with_reducible assumption
    | with_reducible exact Agree.refl _ _
    | exact bitsIn_rfl rfl
    | ((conv => arg 3; arg 88; skip); with_reducible first | refine upd_latches ?_ ?_)
    | with_reducible refine Agree.ite ?_ ?_
    | dsimp only
    | split
    | (with_reducible refine Agree.of_pair (by assumption) ?_)
    | (with_reducible refine Agree.of_pair2 (by assumption) ?_)
    | intro _
theorem dropLatches_step {M s0} {s : State} {key : Nat} (hs : bitsIn 0x2 M = true) (hA : Agree M s0 s) : Agree M s0 (dropLatches s key) :=
  hA.step hs (dropLatches_frame s key)

theorem putFields_step {M : Nat} {s0 : State} {s : State} {r : Reg} {k win : Nat} {secure : Bool} {v : Nat} (hs : bitsIn 0x0 M = true) (hr0 : RegIn M r) (hA : Agree M s0 s) : Agree M s0 (putFields s r k win secure v) := by
  unfold putFields
  repeat' first
    | with_reducible assumption
    | fail
    | exact bitsIn_trans rfl hs
    | with_reducible refine setR_step ?_ ?_ ?_
    | with_reducible refine Agree.ite ?_ ?_
    | dsimp only
    | split
    | (with_reducible refine Agree.of_pair (by assumption) ?_)
    | (with_reducible refine Agree.of_pair2 (by assumption) ?_)
    | intro _

theorem putBase_step {M : Nat} {s0 : State} {s : State} {r : Reg} {win q v : Nat} (hs : bitsIn 0x10000000000 M = true) (hr0 : RegIn M r) (hA : Agree M s0 s) : Agree M s0 (putBase s r win q v) := by
  unfold putBase
  repeat' first
    | with_reducible assumption
    | fail
    | exact bitsIn_trans rfl hs
    | with_reducible refine armQueue_step ?_ ?_
    | with_reducible refine putFields_step ?_ ?_ ?_
    | with_reducible refine Agree.ite ?_ ?_
    | dsimp only
    | split
    | (with_reducible refine Agree.of_pair (by assumption) ?_)
    | (with_reducible refine Agree.of_pair2 (by assumption) ?_)
    | intro _

theorem putIrq_step {M : Nat} {s0 : State} {s : State} {r : Reg} {arm v : Nat} (hs : bitsIn 0x10000000000 M = true) (hr0 : RegIn M r) (hA : Agree M s0 s) : Agree M s0 (putIrq s r arm v) := by
  unfold putIrq
  repeat' first
    | with_reducible assumption
    | fail
    | exact bitsIn_trans rfl hs
    | with_reducible refine armBit_step ?_ ?_
    | with_reducible refine putFields_step ?_ ?_ ?_
    | with_reducible refine Agree.ite ?_ ?_
    | dsimp only
    | split
    | (with_reducible refine Agree.of_pair (by assumption) ?_)
    | (with_reducible refine Agree.of_pair2 (by assumption) ?_)
    | intro _

theorem writeMbxCtrl_frame (s : State) (win v : Nat) : AgreeO 0x400000008000000000000000000 s (writeMbxCtrl s win v) := by
  unfold writeMbxCtrl
  repeat' first
    | with_reducible assumption
    | with_reducible exact Agree.refl _ _
    | exact bitsIn_rfl rfl
    | exact regIn_rfl rfl rfl
    | with_reducible refine AgreeO.next ?_
    | with_reducible refine AgreeO.ite ?_ ?_
    | with_reducible exact AgreeO.refused
    | with_reducible exact AgreeO.fault
    | with_reducible refine andThen_step ?_ ?_
    | with_reducible refine execMbxInRelease_step ?_ ?_
    | with_reducible refine execMbxSend_step ?_ ?_
    | with_reducible refine putFields_step ?_ ?_ ?_
    | with_reducible refine Agree.ite ?_ ?_
    | dsimp only
    | split
    | (with_reducible refine Agree.of_pair (by assumption) ?_)
    | (with_reducible refine Agree.of_pair2 (by assumption) ?_)
    | (with_reducible refine AgreeO.of ?_ (by assumption))
    | intro _
theorem writeMbxCtrl_step {M s0} {s : State} {win v : Nat} (hs : bitsIn 0x400000008000000000000000000 M = true) (hA : Agree M s0 s) : AgreeO M s0 (writeMbxCtrl s win v) :=
  hA.stepO hs (writeMbxCtrl_frame s win v)

theorem writeBchCfg_frame (s : State) (k v : Nat) : Agree 0x8000000000000000000000000000000000000000000002000 s (writeBchCfg s k v) := by
  unfold writeBchCfg
  repeat' first
    | with_reducible assumption
    | with_reducible exact Agree.refl _ _
    | exact bitsIn_rfl rfl
    | exact regIn_rfl rfl rfl
    | with_reducible refine setChan_step ?_ ?_
    | with_reducible refine setF_step ?_ ?_ ?_
    | with_reducible refine Agree.ite ?_ ?_
    | dsimp only
    | split
    | (with_reducible refine Agree.of_pair (by assumption) ?_)
    | (with_reducible refine Agree.of_pair2 (by assumption) ?_)
    | intro _
theorem writeBchCfg_step {M s0} {s : State} {k v : Nat} (hs : bitsIn 0x8000000000000000000000000000000000000000000002000 M = true) (hA : Agree M s0 s) : Agree M s0 (writeBchCfg s k v) :=
  hA.step hs (writeBchCfg_frame s k v)

theorem schCommand_frame (s : State) (win op : Nat) : AgreeO 0x10000040000000000000000040430280002004080000180230006300000000003f800787040c04ff380 s (schCommand s win op) := by
  unfold schCommand
  repeat' first
    | with_reducible assumption
    | with_reducible exact Agree.refl _ _
    | exact bitsIn_rfl rfl
    | exact regIn_rfl rfl rfl
    | with_reducible refine AgreeO.next ?_
    | with_reducible refine AgreeO.ite ?_ ?_
    | with_reducible exact AgreeO.refused
    | with_reducible exact AgreeO.fault
    | with_reducible refine execCtxCreate_step ?_ ?_
    | with_reducible refine execCtxDestroy_step ?_ ?_
    | with_reducible refine execCtxKill_step ?_ ?_
    | with_reducible refine execFenceError_step ?_ ?_
    | with_reducible refine execFenceReset_step ?_ ?_
    | with_reducible refine execFenceSignal_step ?_ ?_
    | with_reducible refine execObjFree_step ?_ ?_
    | with_reducible refine execQCreate_step ?_ ?_
    | with_reducible refine execQDestroy_step ?_ ?_
    | with_reducible refine execQResume_step ?_ ?_
    | with_reducible refine Agree.ite ?_ ?_
    | dsimp only
    | split
    | (with_reducible refine Agree.of_pair (by assumption) ?_)
    | (with_reducible refine Agree.of_pair2 (by assumption) ?_)
    | (with_reducible refine AgreeO.of ?_ (by assumption))
    | intro _
theorem schCommand_step {M s0} {s : State} {win op : Nat} (hs : bitsIn 0x10000040000000000000000040430280002004080000180230006300000000003f800787040c04ff380 M = true) (hA : Agree M s0 s) : AgreeO M s0 (schCommand s win op) :=
  hA.stepO hs (schCommand_frame s win op)

theorem custCommand_frame (s : State) (op : Nat) : AgreeO 0x600040000000000000000000000000000000000000000000258000000000180 s (custCommand s op) := by
  unfold custCommand
  repeat' first
    | with_reducible assumption
    | with_reducible exact Agree.refl _ _
    | exact bitsIn_rfl rfl
    | exact regIn_rfl rfl rfl
    | with_reducible refine AgreeO.next ?_
    | with_reducible refine AgreeO.ite ?_ ?_
    | with_reducible exact AgreeO.refused
    | with_reducible exact AgreeO.fault
    | with_reducible refine execAccept_step ?_ ?_
    | with_reducible refine execCustodyRead_step ?_ ?_
    | with_reducible refine execInit_step ?_ ?_
    | with_reducible refine execOffer_step ?_ ?_
    | with_reducible refine execReclaim_step ?_ ?_
    | with_reducible refine execRelease_step ?_ ?_
    | with_reducible refine Agree.ite ?_ ?_
    | dsimp only
    | split
    | (with_reducible refine Agree.of_pair (by assumption) ?_)
    | (with_reducible refine Agree.of_pair2 (by assumption) ?_)
    | (with_reducible refine AgreeO.of ?_ (by assumption))
    | intro _
theorem custCommand_step {M s0} {s : State} {op : Nat} (hs : bitsIn 0x600040000000000000000000000000000000000000000000258000000000180 M = true) (hA : Agree M s0 s) : AgreeO M s0 (custCommand s op) :=
  hA.stepO hs (custCommand_frame s op)

theorem rstCommand_frame (s : State) (v : Nat) : AgreeO 0xc70076824000000040400000000000000000000030000000000207e7ffffffffffffff3fe73 s (rstCommand s v) := by
  unfold rstCommand
  repeat' first
    | with_reducible assumption
    | with_reducible exact Agree.refl _ _
    | exact bitsIn_rfl rfl
    | exact regIn_rfl rfl rfl
    | exact .inl rfl
    | with_reducible refine AgreeO.next ?_
    | with_reducible refine AgreeO.ite ?_ ?_
    | with_reducible exact AgreeO.refused
    | with_reducible exact AgreeO.fault
    | with_reducible refine execChipReset_step ?_ ?_
    | with_reducible refine execFullReset_step ?_ ?_
    | with_reducible refine execImagoReset_step ?_ ?_
    | with_reducible refine execOverride_step ?_ ?_
    | with_reducible refine execTopoContinue_step ?_ ?_
    | with_reducible refine Agree.ite ?_ ?_
    | dsimp only
    | split
    | (with_reducible refine Agree.of_pair (by assumption) ?_)
    | (with_reducible refine Agree.of_pair2 (by assumption) ?_)
    | (with_reducible refine AgreeO.of ?_ (by assumption))
    | intro _
theorem rstCommand_step {M s0} {s : State} {v : Nat} (hs : bitsIn 0xc70076824000000040400000000000000000000030000000000207e7ffffffffffffff3fe73 M = true) (hA : Agree M s0 s) : AgreeO M s0 (rstCommand s v) :=
  hA.stepO hs (rstCommand_frame s v)

theorem regWrite_frame (s : State) (r : Reg) (k win : Nat) (secure : Bool) (v : Nat) : AgreeO 0x12104860c700768a6a61e020c7d3168051bc04080174992230006300400207f7ffffffffffffffffff3 s (regWrite s r k win secure v) := by
  unfold regWrite
  repeat' first
    | with_reducible assumption
    | with_reducible exact Agree.refl _ _
    | exact bitsIn_rfl rfl
    | exact .inl rfl
    | with_reducible refine AgreeO.next ?_
    | with_reducible refine AgreeO.ite ?_ ?_
    | with_reducible exact AgreeO.refused
    | with_reducible exact AgreeO.fault
    | with_reducible refine andThen_step ?_ ?_
    | with_reducible refine custCommand_step ?_ ?_
    | with_reducible refine execAbort_step ?_ ?_
    | with_reducible refine execCalRestart_step ?_ ?_
    | with_reducible refine execDoorbell_step ?_ ?_
    | with_reducible refine execEvtEqHeadWrite_step ?_ ?_
    | with_reducible refine execEvtFqHeadWrite_step ?_ ?_
    | with_reducible refine execForget_step ?_ ?_
    | with_reducible refine execGateCtrlWrite_step ?_ ?_
    | with_reducible refine execIqTailWrite_step ?_ ?_
    | with_reducible refine execLnkPortCtrlWrite_step ?_ ?_
    | with_reducible refine execPwrCoreFcapWrite_step ?_ ?_
    | with_reducible refine execPwrEvtWrite_step ?_ ?_
    | with_reducible refine execPwrPkgCapWrite_step ?_ ?_
    | with_reducible refine execQosWinLenWrite_step ?_ ?_
    | with_reducible refine execReplan_step ?_ ?_
    | with_reducible refine execReplay_step ?_ ?_
    | with_reducible refine execResume_step ?_ ?_
    | with_reducible refine execRstEvtWrite_step ?_ ?_
    | with_reducible refine execRtcAdj_step ?_ ?_
    | with_reducible refine execRtcSet_step ?_ ?_
    | with_reducible refine execSilkCtrWrite_step ?_ ?_
    | with_reducible refine execSquashAll_step ?_ ?_
    | with_reducible refine execWakeAll_step ?_ ?_
    | with_reducible refine execWb_step ?_ ?_
    | with_reducible refine execWbinv_step ?_ ?_
    | with_reducible refine execWsFlush_step ?_ ?_
    | with_reducible refine putBase_step ?_ ?_ ?_
    | with_reducible refine putFields_step ?_ ?_ ?_
    | with_reducible refine putIrq_step ?_ ?_ ?_
    | with_reducible refine rstCommand_step ?_ ?_
    | with_reducible refine schCommand_step ?_ ?_
    | with_reducible refine setF_step ?_ ?_ ?_
    | with_reducible refine updateTime_step ?_ ?_
    | with_reducible refine writeBchCfg_step ?_ ?_
    | with_reducible refine writeMbxCtrl_step ?_ ?_
    | with_reducible refine Agree.ite ?_ ?_
    | dsimp only
    | split
    | (with_reducible refine Agree.of_pair (by assumption) ?_)
    | (with_reducible refine Agree.of_pair2 (by assumption) ?_)
    | (with_reducible refine AgreeO.of ?_ (by assumption))
    | intro _
theorem regWrite_step {M s0} {s : State} {r : Reg} {k win : Nat} {secure : Bool} {v : Nat} (hs : bitsIn 0x12104860c700768a6a61e020c7d3168051bc04080174992230006300400207f7ffffffffffffffffff3 M = true) (hA : Agree M s0 s) : AgreeO M s0 (regWrite s r k win secure v) :=
  hA.stepO hs (regWrite_frame s r k win secure v)

theorem proxyRead_frame (s : State) (req : Requester) : Agree 0x400000000000000000000000002 s (proxyRead s req).2 := by
  unfold proxyRead
  repeat' first
    | with_reducible assumption
    | with_reducible exact Agree.refl _ _
    | exact bitsIn_rfl rfl
    | exact regIn_rfl rfl rfl
    | with_reducible refine dropLatch_step ?_ ?_
    | with_reducible refine setF_step ?_ ?_ ?_
    | with_reducible refine Agree.ite ?_ ?_
    | dsimp only
    | split
    | (with_reducible refine Agree.of_pair (by assumption) ?_)
    | (with_reducible refine Agree.of_pair2 (by assumption) ?_)
    | intro _
theorem proxyRead_step {M s0} {s : State} {req : Requester} (hs : bitsIn 0x400000000000000000000000002 M = true) (hA : Agree M s0 s) : Agree M s0 (proxyRead s req).2 :=
  hA.step hs (proxyRead_frame s req)

theorem proxyWrite_frame (s : State) (v : Nat) : AgreeO 0x12104860c700768a6a61e020c7d3168051bc04080174992230006300400207f7ffffffffffffffffff3 s (proxyWrite s v) := by
  unfold proxyWrite
  repeat' first
    | with_reducible assumption
    | with_reducible exact Agree.refl _ _
    | exact bitsIn_rfl rfl
    | exact regIn_rfl rfl rfl
    | exact .inl rfl
    | with_reducible refine AgreeO.next ?_
    | with_reducible refine AgreeO.ite ?_ ?_
    | with_reducible exact AgreeO.refused
    | with_reducible exact AgreeO.fault
    | with_reducible refine dropLatches_step ?_ ?_
    | with_reducible refine regWrite_step ?_ ?_
    | with_reducible refine setF_step ?_ ?_ ?_
    | with_reducible refine Agree.ite ?_ ?_
    | dsimp only
    | split
    | (with_reducible refine Agree.of_pair (by assumption) ?_)
    | (with_reducible refine Agree.of_pair2 (by assumption) ?_)
    | (with_reducible refine AgreeO.of ?_ (by assumption))
    | intro _
theorem proxyWrite_step {M s0} {s : State} {v : Nat} (hs : bitsIn 0x12104860c700768a6a61e020c7d3168051bc04080174992230006300400207f7ffffffffffffffffff3 M = true) (hA : Agree M s0 s) : AgreeO M s0 (proxyWrite s v) :=
  hA.stepO hs (proxyWrite_frame s v)

theorem readReg_frame (s : State) (req : Requester) (r : Reg) (k win : Nat) : Agree 0x400000000000000000000000002 s (readReg s req r k win).2 := by
  unfold readReg
  repeat' first
    | with_reducible assumption
    | with_reducible exact Agree.refl _ _
    | exact bitsIn_rfl rfl
    | exact regIn_rfl rfl rfl
    | with_reducible refine proxyRead_step ?_ ?_
    | with_reducible refine Agree.ite ?_ ?_
    | dsimp only
    | split
    | (with_reducible refine Agree.of_pair (by assumption) ?_)
    | (with_reducible refine Agree.of_pair2 (by assumption) ?_)
    | intro _
theorem readReg_step {M s0} {s : State} {req : Requester} {r : Reg} {k win : Nat} (hs : bitsIn 0x400000000000000000000000002 M = true) (hA : Agree M s0 s) : Agree M s0 (readReg s req r k win).2 :=
  hA.step hs (readReg_frame s req r k win)

theorem answerAccess_frame (s : State) (data : List Byte) : Agree 0x4 s (answerAccess s data) := by
  unfold answerAccess
  repeat' first
    | with_reducible assumption
    | with_reducible exact Agree.refl _ _
    | exact bitsIn_rfl rfl
    | ((conv => arg 3; arg 88; skip); with_reducible first | refine upd_reply ?_ ?_)
    | with_reducible refine Agree.ite ?_ ?_
    | dsimp only
    | split
    | (with_reducible refine Agree.of_pair (by assumption) ?_)
    | (with_reducible refine Agree.of_pair2 (by assumption) ?_)
    | intro _
theorem answerAccess_step {M s0} {s : State} {data : List Byte} (hs : bitsIn 0x4 M = true) (hA : Agree M s0 s) : Agree M s0 (answerAccess s data) :=
  hA.step hs (answerAccess_frame s data)

theorem refuseAccess_frame (s : State) : Agree 0x4 s (refuseAccess s) := by
  unfold refuseAccess
  repeat' first
    | with_reducible assumption
    | with_reducible exact Agree.refl _ _
    | exact bitsIn_rfl rfl
    | ((conv => arg 3; arg 88; skip); with_reducible first | refine upd_reply ?_ ?_)
    | with_reducible refine Agree.ite ?_ ?_
    | dsimp only
    | split
    | (with_reducible refine Agree.of_pair (by assumption) ?_)
    | (with_reducible refine Agree.of_pair2 (by assumption) ?_)
    | intro _
theorem refuseAccess_step {M s0} {s : State} (hs : bitsIn 0x4 M = true) (hA : Agree M s0 s) : Agree M s0 (refuseAccess s) :=
  hA.step hs (refuseAccess_frame s)

theorem wakeFor_frame (s : State) (r : Reg) (k : Nat) : Agree 0x2804000000000000000000000000000000000000000000000000000000000000000200 s (wakeFor s r k) := by
  unfold wakeFor
  repeat' first
    | with_reducible assumption
    | with_reducible exact Agree.refl _ _
    | exact bitsIn_rfl rfl
    | exact regIn_rfl rfl rfl
    | with_reducible refine wakeCore_step ?_ ?_
    | with_reducible refine Agree.ite ?_ ?_
    | dsimp only
    | split
    | (with_reducible refine Agree.of_pair (by assumption) ?_)
    | (with_reducible refine Agree.of_pair2 (by assumption) ?_)
    | intro _
theorem wakeFor_step {M s0} {s : State} {r : Reg} {k : Nat} (hs : bitsIn 0x2804000000000000000000000000000000000000000000000000000000000000000200 M = true) (hA : Agree M s0 s) : Agree M s0 (wakeFor s r k) :=
  hA.step hs (wakeFor_frame s r k)

theorem execRegisterWrite_frame (req : Requester) (win off size v : Nat) (s : State) : AgreeO 0x12104860c700768a6a61e020c7d3168051bc04080174992230006300400207f7ffffffffffffffffff7 s (execRegisterWrite req win off size v s) := by
  unfold execRegisterWrite
  repeat' first
    | with_reducible assumption
    | with_reducible exact Agree.refl _ _
    | exact bitsIn_rfl rfl
    | exact regIn_rfl rfl rfl
    | exact .inl rfl
    | with_reducible refine AgreeO.next ?_
    | with_reducible refine AgreeO.ite ?_ ?_
    | with_reducible exact AgreeO.refused
    | with_reducible exact AgreeO.fault
    | with_reducible refine answerAccess_step ?_ ?_
    | with_reducible refine dropLatches_step ?_ ?_
    | with_reducible refine proxyWrite_step ?_ ?_
    | with_reducible refine refuseAccess_step ?_ ?_
    | with_reducible refine regWrite_step ?_ ?_
    | with_reducible refine wakeFor_step ?_ ?_
    | with_reducible refine Agree.ite ?_ ?_
    | dsimp only
    | split
    | (with_reducible refine Agree.of_pair (by assumption) ?_)
    | (with_reducible refine Agree.of_pair2 (by assumption) ?_)
    | (with_reducible refine AgreeO.of ?_ (by assumption))
    | intro _
theorem execRegisterWrite_step {M s0} {req : Requester} {win off size v : Nat} {s : State} (hs : bitsIn 0x12104860c700768a6a61e020c7d3168051bc04080174992230006300400207f7ffffffffffffffffff7 M = true) (hA : Agree M s0 s) : AgreeO M s0 (execRegisterWrite req win off size v s) :=
  hA.stepO hs (execRegisterWrite_frame req win off size v s)

theorem execRegisterSplitRead_frame (req : Requester) (win off size : Nat) (s : State) : AgreeO 0x2804000000000000000000000000000000000000000400000000000000000000000206 s (execRegisterSplitRead req win off size s) := by
  unfold execRegisterSplitRead
  repeat' first
    | with_reducible assumption
    | with_reducible exact Agree.refl _ _
    | exact bitsIn_rfl rfl
    | exact regIn_rfl rfl rfl
    | with_reducible refine AgreeO.next ?_
    | with_reducible refine AgreeO.ite ?_ ?_
    | with_reducible exact AgreeO.refused
    | with_reducible exact AgreeO.fault
    | with_reducible refine answerAccess_step ?_ ?_
    | with_reducible refine dropLatch_step ?_ ?_
    | with_reducible refine readReg_step ?_ ?_
    | with_reducible refine refuseAccess_step ?_ ?_
    | with_reducible refine wakeFor_step ?_ ?_
    | ((conv => arg 3; arg 88; skip); with_reducible first | refine upd_latches ?_ ?_)
    | with_reducible refine Agree.ite ?_ ?_
    | dsimp only
    | split
    | (with_reducible refine Agree.of_pair (by assumption) ?_)
    | (with_reducible refine Agree.of_pair2 (by assumption) ?_)
    | intro _
theorem execRegisterSplitRead_step {M s0} {req : Requester} {win off size : Nat} {s : State} (hs : bitsIn 0x2804000000000000000000000000000000000000000400000000000000000000000206 M = true) (hA : Agree M s0 s) : AgreeO M s0 (execRegisterSplitRead req win off size s) :=
  hA.stepO hs (execRegisterSplitRead_frame req win off size s)

theorem execMbxProxyAccess_frame (req : Requester) (write : Bool) (v : Nat) (s : State) : AgreeO 0x12104860c700768a6a61e020c7d3168051bc04080174992230006300400207f7ffffffffffffffffff7 s (execMbxProxyAccess req write v s) := by
  unfold execMbxProxyAccess
  repeat' first
    | with_reducible assumption
    | with_reducible exact Agree.refl _ _
    | exact bitsIn_rfl rfl
    | exact regIn_rfl rfl rfl
    | exact .inl rfl
    | with_reducible refine AgreeO.next ?_
    | with_reducible refine AgreeO.ite ?_ ?_
    | with_reducible exact AgreeO.refused
    | with_reducible exact AgreeO.fault
    | with_reducible refine andThen_step ?_ ?_
    | with_reducible refine answerAccess_step ?_ ?_
    | with_reducible refine dropLatch_step ?_ ?_
    | with_reducible refine dropLatches_step ?_ ?_
    | with_reducible refine proxyRead_step ?_ ?_
    | with_reducible refine proxyWrite_step ?_ ?_
    | with_reducible refine refuseAccess_step ?_ ?_
    | with_reducible refine Agree.ite ?_ ?_
    | dsimp only
    | split
    | (with_reducible refine Agree.of_pair (by assumption) ?_)
    | (with_reducible refine Agree.of_pair2 (by assumption) ?_)
    | (with_reducible refine AgreeO.of ?_ (by assumption))
    | intro _
theorem execMbxProxyAccess_step {M s0} {req : Requester} {write : Bool} {v : Nat} {s : State} (hs : bitsIn 0x12104860c700768a6a61e020c7d3168051bc04080174992230006300400207f7ffffffffffffffffff7 M = true) (hA : Agree M s0 s) : AgreeO M s0 (execMbxProxyAccess req write v s) :=
  hA.stepO hs (execMbxProxyAccess_frame req write v s)

theorem heldMsg_frame (s : State) (m : HeldMsg) : AgreeP 0x4040020000200408000000000000000000000000000007a8000004c7080 s (heldMsg s m) := by
  intro x e
  unfold heldMsg at e
  split at e
  · simp only [Option.map_eq_some_iff] at e
    obtain ⟨y, -, rfl⟩ := e
    exact upd_linkIn (bitsIn_rfl rfl) (Agree.refl _ _)
  · simp only [Option.map_eq_some_iff] at e
    obtain ⟨y, -, rfl⟩ := e
    dsimp only
    refine modPort_step (bitsIn_rfl ?_) (Agree.refl _ _)
    rfl
  · simp only [Option.map_eq_some_iff] at e
    obtain ⟨y, -, rfl⟩ := e
    exact upd_silkMsgs (bitsIn_rfl rfl) (Agree.refl _ _)
  · simp only [Option.map_eq_some_iff] at e
    obtain ⟨y, -, rfl⟩ := e
    exact upd_silkReplies (bitsIn_rfl rfl) (Agree.refl _ _)
  · split at e
    · exact absurd e (by simp)
    · split at e
      · exact absurd e (by simp)
      · split at e
        · simp only [Option.some.injEq] at e
          subst e
          dsimp only
          refine forgetReqs_step (bitsIn_rfl ?_) (upd_linkReqs (bitsIn_rfl ?_) (Agree.refl _ _)) <;> rfl
        · simp only [Option.some.injEq] at e
          subst e
          exact upd_reqs (bitsIn_rfl rfl) (Agree.refl _ _)
theorem heldMsg_step {M s0} {s : State} {m : HeldMsg} (hs : bitsIn 0x4040020000200408000000000000000000000000000007a8000004c7080 M = true) (h : Agree M s0 s) : AgreeP M s0 (heldMsg s m) :=
  h.stepP hs (heldMsg_frame s m)

theorem execMessageAgeDiscard_frame (m : HeldMsg) (s : State) : AgreeO 0x800000000000004040020000200408000000000000000000000000000007a8000004c7080 s (execMessageAgeDiscard m s) := by
  unfold execMessageAgeDiscard
  repeat' first
    | with_reducible assumption
    | with_reducible exact Agree.refl _ _
    | exact bitsIn_rfl rfl
    | exact regIn_rfl rfl rfl
    | with_reducible refine AgreeO.next ?_
    | with_reducible refine AgreeO.ite ?_ ?_
    | with_reducible exact AgreeO.refused
    | with_reducible exact AgreeO.fault
    | with_reducible refine countR_step ?_ ?_ ?_
    | with_reducible refine heldMsg_step ?_ ?_
    | with_reducible refine Agree.ite ?_ ?_
    | dsimp only
    | split
    | (with_reducible refine Agree.of_pair (by assumption) ?_)
    | (with_reducible refine Agree.of_pair2 (by assumption) ?_)
    | (with_reducible refine AgreeP.of ?_ (by assumption))
    | intro _
theorem execMessageAgeDiscard_step {M s0} {m : HeldMsg} {s : State} (hs : bitsIn 0x800000000000004040020000200408000000000000000000000000000007a8000004c7080 M = true) (hA : Agree M s0 s) : AgreeO M s0 (execMessageAgeDiscard m s) :=
  hA.stepO hs (execMessageAgeDiscard_frame m s)

end Sys2Proof.Machine
end

