-- ==== Sys2Proof/Laws/FramePins.lean ====
section
/-!
SUPPORT. The frame of every function of Machine/Pins.lean that answers a state: the fields it can change, by mask.
-/

set_option linter.unusedTactic false
set_option linter.unreachableTactic false
set_option linter.unusedVariables false

namespace Sys2Proof.Machine

theorem onI3c_step {M : Nat} {s0 : State} {s : State} {ok : Bool} {f : State → State} (hs : bitsIn 0x4 M = true) (hk_f : ∀ (a0 : State), Agree M s0 a0 → Agree M s0 (f a0)) (hA : Agree M s0 s) : AgreeO M s0 (onI3c s ok f) := by
  unfold onI3c
  repeat' first
    | with_reducible assumption
    | fail
    | exact bitsIn_trans rfl hs
    | with_reducible refine AgreeO.next ?_
    | with_reducible refine AgreeO.ite ?_ ?_
    | with_reducible exact AgreeO.refused
    | with_reducible exact AgreeO.fault
    | with_reducible refine refuseAccess_step ?_ ?_
    | with_reducible refine Agree.ite ?_ ?_
    | dsimp only
    | split
    | (with_reducible refine Agree.of_pair (by assumption) ?_)
    | (with_reducible refine Agree.of_pair2 (by assumption) ?_)
    | intro _
    | with_reducible refine hk_f _ ?_

theorem execStatus_frame (s : State) : AgreeO 0x4 s (execStatus s) := by
  unfold execStatus
  repeat' first
    | with_reducible assumption
    | with_reducible exact Agree.refl _ _
    | exact bitsIn_rfl rfl
    | with_reducible refine AgreeO.next ?_
    | with_reducible refine AgreeO.ite ?_ ?_
    | with_reducible exact AgreeO.refused
    | with_reducible exact AgreeO.fault
    | with_reducible refine answerAccess_step ?_ ?_
    | with_reducible refine onI3c_step ?_ ?_ ?_
    | with_reducible refine Agree.ite ?_ ?_
    | dsimp only
    | split
    | (with_reducible refine Agree.of_pair (by assumption) ?_)
    | (with_reducible refine Agree.of_pair2 (by assumption) ?_)
    | (with_reducible refine AgreeO.of ?_ (by assumption))
    | intro _
theorem execStatus_step {M s0} {s : State} (hs : bitsIn 0x4 M = true) (hA : Agree M s0 s) : AgreeO M s0 (execStatus s) :=
  hA.stepO hs (execStatus_frame s)

theorem execDescRead_frame (s : State) : AgreeO 0x4 s (execDescRead s) := by
  unfold execDescRead
  repeat' first
    | with_reducible assumption
    | with_reducible exact Agree.refl _ _
    | exact bitsIn_rfl rfl
    | with_reducible refine AgreeO.next ?_
    | with_reducible refine AgreeO.ite ?_ ?_
    | with_reducible exact AgreeO.refused
    | with_reducible exact AgreeO.fault
    | with_reducible refine answerAccess_step ?_ ?_
    | with_reducible refine onI3c_step ?_ ?_ ?_
    | with_reducible refine Agree.ite ?_ ?_
    | dsimp only
    | split
    | (with_reducible refine Agree.of_pair (by assumption) ?_)
    | (with_reducible refine Agree.of_pair2 (by assumption) ?_)
    | (with_reducible refine AgreeO.of ?_ (by assumption))
    | intro _
theorem execDescRead_step {M s0} {s : State} (hs : bitsIn 0x4 M = true) (hA : Agree M s0 s) : AgreeO M s0 (execDescRead s) :=
  hA.stepO hs (execDescRead_frame s)

theorem execDescWrite_frame (data : List Byte) (s : State) : AgreeO 0x200000000000000000004 s (execDescWrite data s) := by
  unfold execDescWrite
  repeat' first
    | with_reducible assumption
    | with_reducible exact Agree.refl _ _
    | exact bitsIn_rfl rfl
    | with_reducible refine AgreeO.next ?_
    | with_reducible refine AgreeO.ite ?_ ?_
    | with_reducible exact AgreeO.refused
    | with_reducible exact AgreeO.fault
    | with_reducible refine answerAccess_step ?_ ?_
    | with_reducible refine onI3c_step ?_ ?_ ?_
    | ((conv => arg 3; arg 88; skip); with_reducible first | refine upd_flash ?_ ?_)
    | with_reducible refine Agree.ite ?_ ?_
    | dsimp only
    | split
    | (with_reducible refine Agree.of_pair (by assumption) ?_)
    | (with_reducible refine Agree.of_pair2 (by assumption) ?_)
    | (with_reducible refine AgreeO.of ?_ (by assumption))
    | intro _
theorem execDescWrite_step {M s0} {data : List Byte} {s : State} (hs : bitsIn 0x200000000000000000004 M = true) (hA : Agree M s0 s) : AgreeO M s0 (execDescWrite data s) :=
  hA.stepO hs (execDescWrite_frame data s)

theorem execRecovery_frame (offset : Nat) (data : List Byte) (s : State) : AgreeO 0x2000000000000000000004 s (execRecovery offset data s) := by
  unfold execRecovery
  repeat' first
    | with_reducible assumption
    | with_reducible exact Agree.refl _ _
    | exact bitsIn_rfl rfl
    | with_reducible refine AgreeO.next ?_
    | with_reducible refine AgreeO.ite ?_ ?_
    | with_reducible exact AgreeO.refused
    | with_reducible exact AgreeO.fault
    | with_reducible refine answerAccess_step ?_ ?_
    | with_reducible refine onI3c_step ?_ ?_ ?_
    | ((conv => arg 3; arg 88; skip); with_reducible first | refine upd_aon ?_ ?_)
    | with_reducible refine Agree.ite ?_ ?_
    | (with_reducible refine Agree.foldl ?_ ?_; intro _ _ _)
    | (with_reducible refine Agree.foldl2 ?_ ?_; intro _ _ _)
    | (with_reducible refine Agree.foldl3 ?_ ?_; intro _ _ _)
    | (with_reducible refine Agree.foldl4 ?_ ?_; intro _ _ _)
    | dsimp only
    | split
    | (with_reducible refine Agree.of_pair (by assumption) ?_)
    | (with_reducible refine Agree.of_pair2 (by assumption) ?_)
    | (with_reducible refine AgreeO.of ?_ (by assumption))
    | intro _
theorem execRecovery_step {M s0} {offset : Nat} {data : List Byte} {s : State} (hs : bitsIn 0x2000000000000000000004 M = true) (hA : Agree M s0 s) : AgreeO M s0 (execRecovery offset data s) :=
  hA.stepO hs (execRecovery_frame offset data s)

theorem execRecoveryDone_frame (s : State) : AgreeO 0x4000000000000000000000000000000000000000000000002200000000000000000004 s (execRecoveryDone s) := by
  unfold execRecoveryDone
  repeat' first
    | with_reducible assumption
    | with_reducible exact Agree.refl _ _
    | exact bitsIn_rfl rfl
    | exact regIn_rfl rfl rfl
    | with_reducible refine AgreeO.next ?_
    | with_reducible refine AgreeO.ite ?_ ?_
    | with_reducible exact AgreeO.refused
    | with_reducible exact AgreeO.fault
    | with_reducible refine answerAccess_step ?_ ?_
    | with_reducible refine onI3c_step ?_ ?_ ?_
    | with_reducible refine setF_step ?_ ?_ ?_
    | ((conv => arg 3; arg 88; skip); with_reducible first | refine upd_flash_aon ?_ ?_)
    | with_reducible refine Agree.ite ?_ ?_
    | dsimp only
    | split
    | (with_reducible refine Agree.of_pair (by assumption) ?_)
    | (with_reducible refine Agree.of_pair2 (by assumption) ?_)
    | (with_reducible refine AgreeO.of ?_ (by assumption))
    | intro _
theorem execRecoveryDone_step {M s0} {s : State} (hs : bitsIn 0x4000000000000000000000000000000000000000000000002200000000000000000004 M = true) (hA : Agree M s0 s) : AgreeO M s0 (execRecoveryDone s) :=
  hA.stepO hs (execRecoveryDone_frame s)

theorem execTapInstruction_frame (i : TapInstr) (trstHigh : Bool) (s : State) : AgreeO 0x4 s (execTapInstruction i trstHigh s) := by
  unfold execTapInstruction
  repeat' first
    | with_reducible assumption
    | with_reducible exact Agree.refl _ _
    | exact bitsIn_rfl rfl
    | with_reducible refine AgreeO.next ?_
    | with_reducible refine AgreeO.ite ?_ ?_
    | with_reducible exact AgreeO.refused
    | with_reducible exact AgreeO.fault
    | with_reducible refine answerAccess_step ?_ ?_
    | with_reducible refine Agree.ite ?_ ?_
    | dsimp only
    | split
    | (with_reducible refine Agree.of_pair (by assumption) ?_)
    | (with_reducible refine Agree.of_pair2 (by assumption) ?_)
    | intro _
theorem execTapInstruction_step {M s0} {i : TapInstr} {trstHigh : Bool} {s : State} (hs : bitsIn 0x4 M = true) (hA : Agree M s0 s) : AgreeO M s0 (execTapInstruction i trstHigh s) :=
  hA.stepO hs (execTapInstruction_frame i trstHigh s)

end Sys2Proof.Machine
end

