-- ==== Sys2Proof/Laws/FrameTick.lean ====
section
/-!
SUPPORT. The frame of every function of Machine/Tick.lean that answers a state: the fields it can change, by mask.
-/

set_option linter.unusedTactic false
set_option linter.unreachableTactic false
set_option linter.unusedVariables false

namespace Sys2Proof.Machine

theorem tick_frame (s : State) : Agree 0x500000000000000000238 s (tick s) := by
  unfold tick
  repeat' first
    | with_reducible assumption
    | with_reducible exact Agree.refl _ _
    | exact bitsIn_rfl rfl
    | with_reducible refine noteIdle_step ?_ ?_
    | ((conv => arg 3; arg 88; skip); with_reducible first | refine upd_now_rtc ?_ ?_ | refine upd_timeSlew_slewAt ?_ ?_)
    | with_reducible refine Agree.ite ?_ ?_
    | dsimp only
    | split
    | (with_reducible refine Agree.of_pair (by assumption) ?_)
    | (with_reducible refine Agree.of_pair2 (by assumption) ?_)
    | intro _
theorem tick_step {M s0} {s : State} (hs : bitsIn 0x500000000000000000238 M = true) (hA : Agree M s0 s) : Agree M s0 (tick s) :=
  hA.step hs (tick_frame s)

end Sys2Proof.Machine
end

