-- ==== Sys2Proof/Laws/Kept.lean ====
section
/-!
SUPPORT. From agreement under a mask to the lists of parts and registers that statements name.
-/

namespace Sys2Proof.Machine

/-- Every part, by its bit less one. -/
def Part.all : List Part :=
  [.latches, .reply, .now, .timeSlew, .slewAt, .synced, .freeCtr, .nextId, .cores, .corePhys, .kernels, .ops, .movers,
   .reqs, .hbm, .hbmPoison, .bufs, .host, .hostPoison, .winStart, .winLen, .regCounts, .qosOld, .missPosted,
   .bridgeRun, .scrubPos, .tiles, .stallAt, .walks, .tlb, .wcache, .tracker, .invals, .fqHeld, .slots, .gates,
   .landing, .evHeld, .rings, .armed, .msixDue, .msixLast, .msix, .instars, .instarAt, .instarDue, .silkMsgs,
   .silkWaiters, .silkReplies, .silkSent, .ports, .linkIn, .linkReqs, .linkRr, .peers, .custody, .custOp, .colls,
   .bootNonce, .lastHello, .lastAdvert, .lastTime, .imagos, .verif, .leaseTerms, .poolFreed, .ctxs, .scheds, .queues,
   .cmds, .objs, .fenceWaiters, .fenceOuts, .fwq, .mail, .instResets, .numVfs, .keyMat, .cvks, .rtc, .flash, .power,
   .stops, .stopSince, .aon, .resets, .pending]

/-- The bit of a part. -/
def Part.bit (p : Part) : Nat :=
  match p with
  | .latches => 1
  | .reply => 2
  | .now => 3
  | .timeSlew => 4
  | .slewAt => 5
  | .synced => 6
  | .freeCtr => 7
  | .nextId => 8
  | .cores => 9
  | .corePhys => 10
  | .kernels => 11
  | .ops => 12
  | .movers => 13
  | .reqs => 14
  | .hbm => 15
  | .hbmPoison => 16
  | .bufs => 17
  | .host => 18
  | .hostPoison => 19
  | .winStart => 20
  | .winLen => 21
  | .regCounts => 22
  | .qosOld => 23
  | .missPosted => 24
  | .bridgeRun => 25
  | .scrubPos => 26
  | .tiles => 27
  | .stallAt => 28
  | .walks => 29
  | .tlb => 30
  | .wcache => 31
  | .tracker => 32
  | .invals => 33
  | .fqHeld => 34
  | .slots => 35
  | .gates => 36
  | .landing => 37
  | .evHeld => 38
  | .rings => 39
  | .armed => 40
  | .msixDue => 41
  | .msixLast => 42
  | .msix => 43
  | .instars => 44
  | .instarAt => 45
  | .instarDue => 46
  | .silkMsgs => 47
  | .silkWaiters => 48
  | .silkReplies => 49
  | .silkSent => 50
  | .ports => 51
  | .linkIn => 52
  | .linkReqs => 53
  | .linkRr => 54
  | .peers => 55
  | .custody => 56
  | .custOp => 57
  | .colls => 58
  | .bootNonce => 59
  | .lastHello => 60
  | .lastAdvert => 61
  | .lastTime => 62
  | .imagos => 63
  | .verif => 64
  | .leaseTerms => 65
  | .poolFreed => 66
  | .ctxs => 67
  | .scheds => 68
  | .queues => 69
  | .cmds => 70
  | .objs => 71
  | .fenceWaiters => 72
  | .fenceOuts => 73
  | .fwq => 74
  | .mail => 75
  | .instResets => 76
  | .numVfs => 77
  | .keyMat => 78
  | .cvks => 79
  | .rtc => 80
  | .flash => 81
  | .power => 82
  | .stops => 83
  | .stopSince => 84
  | .aon => 85
  | .resets => 86
  | .pending => 87

/-- The mask of lists of parts and registers. -/
def listMask (ps : List Part) (rs : List Reg) : Nat :=
  ps.foldr (fun p m => Nat.lor (2 ^ p.bit) m) (rs.foldr (fun r m => Nat.lor (2 ^ (88 + r.ix)) m) 0)

theorem testBit_foldr_pow {α : Type} (g : α → Nat) (l : List α) (b i : Nat) :
    (l.foldr (fun p m => Nat.lor (2 ^ g p) m) b).testBit i = true ↔ (∃ p ∈ l, g p = i) ∨ b.testBit i = true := by
  induction l with
  | nil => simp
  | cons x l ih =>
    show (2 ^ g x ||| _).testBit i = true ↔ _
    rw [Nat.testBit_or, Bool.or_eq_true, ih, Nat.testBit_two_pow]
    simp only [decide_eq_true_eq, List.mem_cons, exists_eq_or_imp, or_assoc]

theorem Part.all_bit (p : Part) : Part.all[p.bit - 1]? = some p := by cases p <;> rfl

theorem Part.bit_pos (p : Part) : 0 < p.bit := by cases p <;> decide

theorem Part.bit_lt (p : Part) : p.bit < 88 := by cases p <;> decide

theorem Part.bit_inj {p q : Part} (h : p.bit = q.bit) : p = q := by
  have h1 := p.all_bit
  rw [h, q.all_bit] at h1
  exact (Option.some.inj h1).symm

theorem Agree.same {M : Nat} {s t : State} (h : Agree M s t) (p : Part) (hb : M.testBit p.bit = false) : p.same s t := by
  cases p

  · exact h.latches hb
  · exact h.reply hb
  · exact h.now hb
  · exact h.timeSlew hb
  · exact h.slewAt hb
  · exact h.synced hb
  · exact h.freeCtr hb
  · exact h.nextId hb
  · exact h.cores hb
  · exact h.corePhys hb
  · exact h.kernels hb
  · exact h.ops hb
  · exact h.movers hb
  · exact h.reqs hb
  · exact h.hbm hb
  · exact h.hbmPoison hb
  · exact h.bufs hb
  · exact h.host hb
  · exact h.hostPoison hb
  · exact h.winStart hb
  · exact h.winLen hb
  · exact h.regCounts hb
  · exact h.qosOld hb
  · exact h.missPosted hb
  · exact h.bridgeRun hb
  · exact h.scrubPos hb
  · exact h.tiles hb
  · exact h.stallAt hb
  · exact h.walks hb
  · exact h.tlb hb
  · exact h.wcache hb
  · exact h.tracker hb
  · exact h.invals hb
  · exact h.fqHeld hb
  · exact h.slots hb
  · exact h.gates hb
  · exact h.landing hb
  · exact h.evHeld hb
  · exact h.rings hb
  · exact h.armed hb
  · exact h.msixDue hb
  · exact h.msixLast hb
  · exact h.msix hb
  · exact h.instars hb
  · exact h.instarAt hb
  · exact h.instarDue hb
  · exact h.silkMsgs hb
  · exact h.silkWaiters hb
  · exact h.silkReplies hb
  · exact h.silkSent hb
  · exact h.ports hb
  · exact h.linkIn hb
  · exact h.linkReqs hb
  · exact h.linkRr hb
  · exact h.peers hb
  · exact h.custody hb
  · exact h.custOp hb
  · exact h.colls hb
  · exact h.bootNonce hb
  · exact h.lastHello hb
  · exact h.lastAdvert hb
  · exact h.lastTime hb
  · exact h.imagos hb
  · exact h.verif hb
  · exact h.leaseTerms hb
  · exact h.poolFreed hb
  · exact h.ctxs hb
  · exact h.scheds hb
  · exact h.queues hb
  · exact h.cmds hb
  · exact h.objs hb
  · exact h.fenceWaiters hb
  · exact h.fenceOuts hb
  · exact h.fwq hb
  · exact h.mail hb
  · exact h.instResets hb
  · exact h.numVfs hb
  · exact h.keyMat hb
  · exact h.cvks hb
  · exact h.rtc hb
  · exact h.flash hb
  · exact h.power hb
  · exact h.stops hb
  · exact h.stopSince hb
  · exact h.aon hb
  · exact h.resets hb
  · exact h.pending hb

theorem listMask_part {ps : List Part} {rs : List Reg} (p : Part) (h : p ∉ ps) : (listMask ps rs).testBit p.bit = false := by
  cases e : (listMask ps rs).testBit p.bit with
  | false => rfl
  | true =>
    rcases (testBit_foldr_pow Part.bit ps _ _).1 e with ⟨q, hq, hb⟩ | e
    · exact absurd (Part.bit_inj hb ▸ hq) h
    · rcases (testBit_foldr_pow (fun r : Reg => 88 + r.ix) rs _ _).1 e with ⟨q, _, hb⟩ | e
      · have := p.bit_lt; omega
      · simp at e

theorem listMask_zero {ps : List Part} {rs : List Reg} : (listMask ps rs).testBit 0 = false := by
  cases e : (listMask ps rs).testBit 0 with
  | false => rfl
  | true =>
    rcases (testBit_foldr_pow Part.bit ps _ _).1 e with ⟨q, _, hb⟩ | e
    · have := q.bit_pos; omega
    · rcases (testBit_foldr_pow (fun r : Reg => 88 + r.ix) rs _ _).1 e with ⟨q, _, hb⟩ | e
      · omega
      · simp at e

/-- A frame under a mask gives the frame that lists its parts and registers. -/
theorem Agree.kept {M : Nat} {s t : State} (h : Agree M s t) (ps : List Part) (rs : List Reg)
    (hs : bitsIn M (listMask ps rs) = true) (hk : ∀ r ∈ rs, Known r) : Kept ps rs s t := by
  have g : Agree (listMask ps rs) s t := (Agree.refl _ s).step hs h
  refine ⟨fun p hp => g.same p (listMask_part p hp), fun key hkey => g.regs listMask_zero key fun r k w kn hb => ?_⟩
  rcases (testBit_foldr_pow Part.bit ps _ _).1 hb with ⟨q, _, hb⟩ | e
  · have := q.bit_lt; omega
  · rcases (testBit_foldr_pow (fun r : Reg => 88 + r.ix) rs _ _).1 e with ⟨q, hq, hb⟩ | e
    · have hi : q.ix = r.ix := by omega
      have h1 := hk q hq
      unfold Known at h1 kn
      rw [hi, kn] at h1
      exact hkey r (Option.some.inj h1 ▸ hq) k w
    · simp at e

theorem Agree.keptParts {M : Nat} {s t : State} (h : Agree M s t) (ps : List Part)
    (hs : ∀ p, p ∉ ps → M.testBit p.bit = false) : KeptParts ps s t := fun p hp => h.same p (hs p hp)

end Sys2Proof.Machine
end

