-- ==== Sys2Proof/Laws/Memories.lean ====
section
/-!
SUPPORT. The memories keep their canonical form: `Memory.wf` under each operation on a memory, and `MemoriesWf` under the operations by
which HBM, host memory and scratchpads are written. Every frame of a command says the same of the command (`Agree.mems`).
-/

namespace Sys2Proof.Machine

/-- Writing bytes. -/
theorem memPut_wf {m : Mem} (a : Nat) (l : List Byte) (h : Memory.wf m = true) : Memory.wf (memPut m a l) = true := canonical_memPut a l h

/-- Writing one byte. -/
theorem memSet8_wf {m : Mem} (a : Nat) (v : Byte) (h : Memory.wf m = true) : Memory.wf (memSet8 m a v) = true := canonical_memSet8 a v h

/-- Writing a number. -/
theorem memPutLE_wf {m : Mem} (a n v : Nat) (h : Memory.wf m = true) : Memory.wf (memPutLE m a n v) = true := canonical_memPut a _ h

/-- Dropping bytes. -/
theorem memory_filter_wf {m : Mem} (p : Nat × Byte → Bool) (h : Memory.wf m = true) : Memory.wf (m.filter p) = true := canonical_filter p h

/-- Reset's memory has the form. -/
theorem reset_hbm_wf : Memory.wf State.reset.hbm = true ∧ Memory.wf State.reset.host = true := ⟨rfl, rfl⟩

theorem hbmPut_memories {s : State} (n mask bad : Nat) (l : List Byte) (w : MemoriesWf s) : MemoriesWf (hbmPut s n mask bad l) :=
  (hbmPut_frame s n mask bad l).mems w

theorem hostWrite_memories {s : State} (h : Nat) (l : List Byte) (bad : Nat) (w : MemoriesWf s) : MemoriesWf (hostWrite s h l bad) :=
  (hostWrite_frame s h l bad).mems w

theorem scrWrite_memories {s : State} (c a : Nat) (l : List Byte) (bad : List Nat) (src : Nat) (w : MemoriesWf s) :
    MemoriesWf (scrWrite s c a l bad src) := (scrWrite_frame s c a l bad src).mems w

theorem zeroScr_memories {s : State} (c lo len : Nat) (w : MemoriesWf s) : MemoriesWf (zeroScr s c lo len) := (zeroScr_frame s c lo len).mems w

theorem lineWrite_memories {s : State} (n o bad hint : Nat) (l : List Byte) (w : MemoriesWf s) : MemoriesWf (lineWrite s n o bad hint l) :=
  (lineWrite_frame s n o bad hint l).mems w

theorem tick_memories {s : State} (w : MemoriesWf s) : MemoriesWf (tick s) := (tick_frame s).mems w

end Sys2Proof.Machine
end

