-- ==== Sys2Proof/Laws/State.lean ====
section
/-!
SUPPORT. What the update operations of Machine/Ops.lean leave: one lemma per field per update.
-/

namespace Sys2Proof.Machine

@[simp] theorem setR_latches (s : State) (r : Reg) (k v win : Nat) : (setR s r k v win).latches = s.latches := rfl
@[simp] theorem setR_reply (s : State) (r : Reg) (k v win : Nat) : (setR s r k v win).reply = s.reply := rfl
@[simp] theorem setR_now (s : State) (r : Reg) (k v win : Nat) : (setR s r k v win).now = s.now := rfl
@[simp] theorem setR_timeSlew (s : State) (r : Reg) (k v win : Nat) : (setR s r k v win).timeSlew = s.timeSlew := rfl
@[simp] theorem setR_slewAt (s : State) (r : Reg) (k v win : Nat) : (setR s r k v win).slewAt = s.slewAt := rfl
@[simp] theorem setR_synced (s : State) (r : Reg) (k v win : Nat) : (setR s r k v win).synced = s.synced := rfl
@[simp] theorem setR_freeCtr (s : State) (r : Reg) (k v win : Nat) : (setR s r k v win).freeCtr = s.freeCtr := rfl
@[simp] theorem setR_nextId (s : State) (r : Reg) (k v win : Nat) : (setR s r k v win).nextId = s.nextId := rfl
@[simp] theorem setR_cores (s : State) (r : Reg) (k v win : Nat) : (setR s r k v win).cores = s.cores := rfl
@[simp] theorem setR_corePhys (s : State) (r : Reg) (k v win : Nat) : (setR s r k v win).corePhys = s.corePhys := rfl
@[simp] theorem setR_kernels (s : State) (r : Reg) (k v win : Nat) : (setR s r k v win).kernels = s.kernels := rfl
@[simp] theorem setR_ops (s : State) (r : Reg) (k v win : Nat) : (setR s r k v win).ops = s.ops := rfl
@[simp] theorem setR_movers (s : State) (r : Reg) (k v win : Nat) : (setR s r k v win).movers = s.movers := rfl
@[simp] theorem setR_reqs (s : State) (r : Reg) (k v win : Nat) : (setR s r k v win).reqs = s.reqs := rfl
@[simp] theorem setR_hbm (s : State) (r : Reg) (k v win : Nat) : (setR s r k v win).hbm = s.hbm := rfl
@[simp] theorem setR_hbmPoison (s : State) (r : Reg) (k v win : Nat) : (setR s r k v win).hbmPoison = s.hbmPoison := rfl
@[simp] theorem setR_bufs (s : State) (r : Reg) (k v win : Nat) : (setR s r k v win).bufs = s.bufs := rfl
@[simp] theorem setR_host (s : State) (r : Reg) (k v win : Nat) : (setR s r k v win).host = s.host := rfl
@[simp] theorem setR_hostPoison (s : State) (r : Reg) (k v win : Nat) : (setR s r k v win).hostPoison = s.hostPoison := rfl
@[simp] theorem setR_winStart (s : State) (r : Reg) (k v win : Nat) : (setR s r k v win).winStart = s.winStart := rfl
@[simp] theorem setR_winLen (s : State) (r : Reg) (k v win : Nat) : (setR s r k v win).winLen = s.winLen := rfl
@[simp] theorem setR_regCounts (s : State) (r : Reg) (k v win : Nat) : (setR s r k v win).regCounts = s.regCounts := rfl
@[simp] theorem setR_qosOld (s : State) (r : Reg) (k v win : Nat) : (setR s r k v win).qosOld = s.qosOld := rfl
@[simp] theorem setR_missPosted (s : State) (r : Reg) (k v win : Nat) : (setR s r k v win).missPosted = s.missPosted := rfl
@[simp] theorem setR_bridgeRun (s : State) (r : Reg) (k v win : Nat) : (setR s r k v win).bridgeRun = s.bridgeRun := rfl
@[simp] theorem setR_scrubPos (s : State) (r : Reg) (k v win : Nat) : (setR s r k v win).scrubPos = s.scrubPos := rfl
@[simp] theorem setR_tiles (s : State) (r : Reg) (k v win : Nat) : (setR s r k v win).tiles = s.tiles := rfl
@[simp] theorem setR_stallAt (s : State) (r : Reg) (k v win : Nat) : (setR s r k v win).stallAt = s.stallAt := rfl
@[simp] theorem setR_walks (s : State) (r : Reg) (k v win : Nat) : (setR s r k v win).walks = s.walks := rfl
@[simp] theorem setR_tlb (s : State) (r : Reg) (k v win : Nat) : (setR s r k v win).tlb = s.tlb := rfl
@[simp] theorem setR_wcache (s : State) (r : Reg) (k v win : Nat) : (setR s r k v win).wcache = s.wcache := rfl
@[simp] theorem setR_tracker (s : State) (r : Reg) (k v win : Nat) : (setR s r k v win).tracker = s.tracker := rfl
@[simp] theorem setR_invals (s : State) (r : Reg) (k v win : Nat) : (setR s r k v win).invals = s.invals := rfl
@[simp] theorem setR_fqHeld (s : State) (r : Reg) (k v win : Nat) : (setR s r k v win).fqHeld = s.fqHeld := rfl
@[simp] theorem setR_slots (s : State) (r : Reg) (k v win : Nat) : (setR s r k v win).slots = s.slots := rfl
@[simp] theorem setR_gates (s : State) (r : Reg) (k v win : Nat) : (setR s r k v win).gates = s.gates := rfl
@[simp] theorem setR_landing (s : State) (r : Reg) (k v win : Nat) : (setR s r k v win).landing = s.landing := rfl
@[simp] theorem setR_evHeld (s : State) (r : Reg) (k v win : Nat) : (setR s r k v win).evHeld = s.evHeld := rfl
@[simp] theorem setR_rings (s : State) (r : Reg) (k v win : Nat) : (setR s r k v win).rings = s.rings := rfl
@[simp] theorem setR_armed (s : State) (r : Reg) (k v win : Nat) : (setR s r k v win).armed = s.armed := rfl
@[simp] theorem setR_msixDue (s : State) (r : Reg) (k v win : Nat) : (setR s r k v win).msixDue = s.msixDue := rfl
@[simp] theorem setR_msixLast (s : State) (r : Reg) (k v win : Nat) : (setR s r k v win).msixLast = s.msixLast := rfl
@[simp] theorem setR_msix (s : State) (r : Reg) (k v win : Nat) : (setR s r k v win).msix = s.msix := rfl
@[simp] theorem setR_instars (s : State) (r : Reg) (k v win : Nat) : (setR s r k v win).instars = s.instars := rfl
@[simp] theorem setR_instarAt (s : State) (r : Reg) (k v win : Nat) : (setR s r k v win).instarAt = s.instarAt := rfl
@[simp] theorem setR_instarDue (s : State) (r : Reg) (k v win : Nat) : (setR s r k v win).instarDue = s.instarDue := rfl
@[simp] theorem setR_silkMsgs (s : State) (r : Reg) (k v win : Nat) : (setR s r k v win).silkMsgs = s.silkMsgs := rfl
@[simp] theorem setR_silkWaiters (s : State) (r : Reg) (k v win : Nat) : (setR s r k v win).silkWaiters = s.silkWaiters := rfl
@[simp] theorem setR_silkReplies (s : State) (r : Reg) (k v win : Nat) : (setR s r k v win).silkReplies = s.silkReplies := rfl
@[simp] theorem setR_silkSent (s : State) (r : Reg) (k v win : Nat) : (setR s r k v win).silkSent = s.silkSent := rfl
@[simp] theorem setR_ports (s : State) (r : Reg) (k v win : Nat) : (setR s r k v win).ports = s.ports := rfl
@[simp] theorem setR_linkIn (s : State) (r : Reg) (k v win : Nat) : (setR s r k v win).linkIn = s.linkIn := rfl
@[simp] theorem setR_linkReqs (s : State) (r : Reg) (k v win : Nat) : (setR s r k v win).linkReqs = s.linkReqs := rfl
@[simp] theorem setR_linkRr (s : State) (r : Reg) (k v win : Nat) : (setR s r k v win).linkRr = s.linkRr := rfl
@[simp] theorem setR_peers (s : State) (r : Reg) (k v win : Nat) : (setR s r k v win).peers = s.peers := rfl
@[simp] theorem setR_custody (s : State) (r : Reg) (k v win : Nat) : (setR s r k v win).custody = s.custody := rfl
@[simp] theorem setR_custOp (s : State) (r : Reg) (k v win : Nat) : (setR s r k v win).custOp = s.custOp := rfl
@[simp] theorem setR_colls (s : State) (r : Reg) (k v win : Nat) : (setR s r k v win).colls = s.colls := rfl
@[simp] theorem setR_bootNonce (s : State) (r : Reg) (k v win : Nat) : (setR s r k v win).bootNonce = s.bootNonce := rfl
@[simp] theorem setR_lastHello (s : State) (r : Reg) (k v win : Nat) : (setR s r k v win).lastHello = s.lastHello := rfl
@[simp] theorem setR_lastAdvert (s : State) (r : Reg) (k v win : Nat) : (setR s r k v win).lastAdvert = s.lastAdvert := rfl
@[simp] theorem setR_lastTime (s : State) (r : Reg) (k v win : Nat) : (setR s r k v win).lastTime = s.lastTime := rfl
@[simp] theorem setR_imagos (s : State) (r : Reg) (k v win : Nat) : (setR s r k v win).imagos = s.imagos := rfl
@[simp] theorem setR_verif (s : State) (r : Reg) (k v win : Nat) : (setR s r k v win).verif = s.verif := rfl
@[simp] theorem setR_leaseTerms (s : State) (r : Reg) (k v win : Nat) : (setR s r k v win).leaseTerms = s.leaseTerms := rfl
@[simp] theorem setR_poolFreed (s : State) (r : Reg) (k v win : Nat) : (setR s r k v win).poolFreed = s.poolFreed := rfl
@[simp] theorem setR_ctxs (s : State) (r : Reg) (k v win : Nat) : (setR s r k v win).ctxs = s.ctxs := rfl
@[simp] theorem setR_scheds (s : State) (r : Reg) (k v win : Nat) : (setR s r k v win).scheds = s.scheds := rfl
@[simp] theorem setR_queues (s : State) (r : Reg) (k v win : Nat) : (setR s r k v win).queues = s.queues := rfl
@[simp] theorem setR_cmds (s : State) (r : Reg) (k v win : Nat) : (setR s r k v win).cmds = s.cmds := rfl
@[simp] theorem setR_objs (s : State) (r : Reg) (k v win : Nat) : (setR s r k v win).objs = s.objs := rfl
@[simp] theorem setR_fenceWaiters (s : State) (r : Reg) (k v win : Nat) : (setR s r k v win).fenceWaiters = s.fenceWaiters := rfl
@[simp] theorem setR_fenceOuts (s : State) (r : Reg) (k v win : Nat) : (setR s r k v win).fenceOuts = s.fenceOuts := rfl
@[simp] theorem setR_fwq (s : State) (r : Reg) (k v win : Nat) : (setR s r k v win).fwq = s.fwq := rfl
@[simp] theorem setR_mail (s : State) (r : Reg) (k v win : Nat) : (setR s r k v win).mail = s.mail := rfl
@[simp] theorem setR_instResets (s : State) (r : Reg) (k v win : Nat) : (setR s r k v win).instResets = s.instResets := rfl
@[simp] theorem setR_numVfs (s : State) (r : Reg) (k v win : Nat) : (setR s r k v win).numVfs = s.numVfs := rfl
@[simp] theorem setR_keyMat (s : State) (r : Reg) (k v win : Nat) : (setR s r k v win).keyMat = s.keyMat := rfl
@[simp] theorem setR_cvks (s : State) (r : Reg) (k v win : Nat) : (setR s r k v win).cvks = s.cvks := rfl
@[simp] theorem setR_rtc (s : State) (r : Reg) (k v win : Nat) : (setR s r k v win).rtc = s.rtc := rfl
@[simp] theorem setR_flash (s : State) (r : Reg) (k v win : Nat) : (setR s r k v win).flash = s.flash := rfl
@[simp] theorem setR_power (s : State) (r : Reg) (k v win : Nat) : (setR s r k v win).power = s.power := rfl
@[simp] theorem setR_stops (s : State) (r : Reg) (k v win : Nat) : (setR s r k v win).stops = s.stops := rfl
@[simp] theorem setR_stopSince (s : State) (r : Reg) (k v win : Nat) : (setR s r k v win).stopSince = s.stopSince := rfl
@[simp] theorem setR_aon (s : State) (r : Reg) (k v win : Nat) : (setR s r k v win).aon = s.aon := rfl
@[simp] theorem setR_resets (s : State) (r : Reg) (k v win : Nat) : (setR s r k v win).resets = s.resets := rfl
@[simp] theorem setR_pending (s : State) (r : Reg) (k v win : Nat) : (setR s r k v win).pending = s.pending := rfl

@[simp] theorem setF_latches (s : State) (f : RF) (k v win : Nat) : (setF s f k v win).latches = s.latches := rfl
@[simp] theorem setF_reply (s : State) (f : RF) (k v win : Nat) : (setF s f k v win).reply = s.reply := rfl
@[simp] theorem setF_now (s : State) (f : RF) (k v win : Nat) : (setF s f k v win).now = s.now := rfl
@[simp] theorem setF_timeSlew (s : State) (f : RF) (k v win : Nat) : (setF s f k v win).timeSlew = s.timeSlew := rfl
@[simp] theorem setF_slewAt (s : State) (f : RF) (k v win : Nat) : (setF s f k v win).slewAt = s.slewAt := rfl
@[simp] theorem setF_synced (s : State) (f : RF) (k v win : Nat) : (setF s f k v win).synced = s.synced := rfl
@[simp] theorem setF_freeCtr (s : State) (f : RF) (k v win : Nat) : (setF s f k v win).freeCtr = s.freeCtr := rfl
@[simp] theorem setF_nextId (s : State) (f : RF) (k v win : Nat) : (setF s f k v win).nextId = s.nextId := rfl
@[simp] theorem setF_cores (s : State) (f : RF) (k v win : Nat) : (setF s f k v win).cores = s.cores := rfl
@[simp] theorem setF_corePhys (s : State) (f : RF) (k v win : Nat) : (setF s f k v win).corePhys = s.corePhys := rfl
@[simp] theorem setF_kernels (s : State) (f : RF) (k v win : Nat) : (setF s f k v win).kernels = s.kernels := rfl
@[simp] theorem setF_ops (s : State) (f : RF) (k v win : Nat) : (setF s f k v win).ops = s.ops := rfl
@[simp] theorem setF_movers (s : State) (f : RF) (k v win : Nat) : (setF s f k v win).movers = s.movers := rfl
@[simp] theorem setF_reqs (s : State) (f : RF) (k v win : Nat) : (setF s f k v win).reqs = s.reqs := rfl
@[simp] theorem setF_hbm (s : State) (f : RF) (k v win : Nat) : (setF s f k v win).hbm = s.hbm := rfl
@[simp] theorem setF_hbmPoison (s : State) (f : RF) (k v win : Nat) : (setF s f k v win).hbmPoison = s.hbmPoison := rfl
@[simp] theorem setF_bufs (s : State) (f : RF) (k v win : Nat) : (setF s f k v win).bufs = s.bufs := rfl
@[simp] theorem setF_host (s : State) (f : RF) (k v win : Nat) : (setF s f k v win).host = s.host := rfl
@[simp] theorem setF_hostPoison (s : State) (f : RF) (k v win : Nat) : (setF s f k v win).hostPoison = s.hostPoison := rfl
@[simp] theorem setF_winStart (s : State) (f : RF) (k v win : Nat) : (setF s f k v win).winStart = s.winStart := rfl
@[simp] theorem setF_winLen (s : State) (f : RF) (k v win : Nat) : (setF s f k v win).winLen = s.winLen := rfl
@[simp] theorem setF_regCounts (s : State) (f : RF) (k v win : Nat) : (setF s f k v win).regCounts = s.regCounts := rfl
@[simp] theorem setF_qosOld (s : State) (f : RF) (k v win : Nat) : (setF s f k v win).qosOld = s.qosOld := rfl
@[simp] theorem setF_missPosted (s : State) (f : RF) (k v win : Nat) : (setF s f k v win).missPosted = s.missPosted := rfl
@[simp] theorem setF_bridgeRun (s : State) (f : RF) (k v win : Nat) : (setF s f k v win).bridgeRun = s.bridgeRun := rfl
@[simp] theorem setF_scrubPos (s : State) (f : RF) (k v win : Nat) : (setF s f k v win).scrubPos = s.scrubPos := rfl
@[simp] theorem setF_tiles (s : State) (f : RF) (k v win : Nat) : (setF s f k v win).tiles = s.tiles := rfl
@[simp] theorem setF_stallAt (s : State) (f : RF) (k v win : Nat) : (setF s f k v win).stallAt = s.stallAt := rfl
@[simp] theorem setF_walks (s : State) (f : RF) (k v win : Nat) : (setF s f k v win).walks = s.walks := rfl
@[simp] theorem setF_tlb (s : State) (f : RF) (k v win : Nat) : (setF s f k v win).tlb = s.tlb := rfl
@[simp] theorem setF_wcache (s : State) (f : RF) (k v win : Nat) : (setF s f k v win).wcache = s.wcache := rfl
@[simp] theorem setF_tracker (s : State) (f : RF) (k v win : Nat) : (setF s f k v win).tracker = s.tracker := rfl
@[simp] theorem setF_invals (s : State) (f : RF) (k v win : Nat) : (setF s f k v win).invals = s.invals := rfl
@[simp] theorem setF_fqHeld (s : State) (f : RF) (k v win : Nat) : (setF s f k v win).fqHeld = s.fqHeld := rfl
@[simp] theorem setF_slots (s : State) (f : RF) (k v win : Nat) : (setF s f k v win).slots = s.slots := rfl
@[simp] theorem setF_gates (s : State) (f : RF) (k v win : Nat) : (setF s f k v win).gates = s.gates := rfl
@[simp] theorem setF_landing (s : State) (f : RF) (k v win : Nat) : (setF s f k v win).landing = s.landing := rfl
@[simp] theorem setF_evHeld (s : State) (f : RF) (k v win : Nat) : (setF s f k v win).evHeld = s.evHeld := rfl
@[simp] theorem setF_rings (s : State) (f : RF) (k v win : Nat) : (setF s f k v win).rings = s.rings := rfl
@[simp] theorem setF_armed (s : State) (f : RF) (k v win : Nat) : (setF s f k v win).armed = s.armed := rfl
@[simp] theorem setF_msixDue (s : State) (f : RF) (k v win : Nat) : (setF s f k v win).msixDue = s.msixDue := rfl
@[simp] theorem setF_msixLast (s : State) (f : RF) (k v win : Nat) : (setF s f k v win).msixLast = s.msixLast := rfl
@[simp] theorem setF_msix (s : State) (f : RF) (k v win : Nat) : (setF s f k v win).msix = s.msix := rfl
@[simp] theorem setF_instars (s : State) (f : RF) (k v win : Nat) : (setF s f k v win).instars = s.instars := rfl
@[simp] theorem setF_instarAt (s : State) (f : RF) (k v win : Nat) : (setF s f k v win).instarAt = s.instarAt := rfl
@[simp] theorem setF_instarDue (s : State) (f : RF) (k v win : Nat) : (setF s f k v win).instarDue = s.instarDue := rfl
@[simp] theorem setF_silkMsgs (s : State) (f : RF) (k v win : Nat) : (setF s f k v win).silkMsgs = s.silkMsgs := rfl
@[simp] theorem setF_silkWaiters (s : State) (f : RF) (k v win : Nat) : (setF s f k v win).silkWaiters = s.silkWaiters := rfl
@[simp] theorem setF_silkReplies (s : State) (f : RF) (k v win : Nat) : (setF s f k v win).silkReplies = s.silkReplies := rfl
@[simp] theorem setF_silkSent (s : State) (f : RF) (k v win : Nat) : (setF s f k v win).silkSent = s.silkSent := rfl
@[simp] theorem setF_ports (s : State) (f : RF) (k v win : Nat) : (setF s f k v win).ports = s.ports := rfl
@[simp] theorem setF_linkIn (s : State) (f : RF) (k v win : Nat) : (setF s f k v win).linkIn = s.linkIn := rfl
@[simp] theorem setF_linkReqs (s : State) (f : RF) (k v win : Nat) : (setF s f k v win).linkReqs = s.linkReqs := rfl
@[simp] theorem setF_linkRr (s : State) (f : RF) (k v win : Nat) : (setF s f k v win).linkRr = s.linkRr := rfl
@[simp] theorem setF_peers (s : State) (f : RF) (k v win : Nat) : (setF s f k v win).peers = s.peers := rfl
@[simp] theorem setF_custody (s : State) (f : RF) (k v win : Nat) : (setF s f k v win).custody = s.custody := rfl
@[simp] theorem setF_custOp (s : State) (f : RF) (k v win : Nat) : (setF s f k v win).custOp = s.custOp := rfl
@[simp] theorem setF_colls (s : State) (f : RF) (k v win : Nat) : (setF s f k v win).colls = s.colls := rfl
@[simp] theorem setF_bootNonce (s : State) (f : RF) (k v win : Nat) : (setF s f k v win).bootNonce = s.bootNonce := rfl
@[simp] theorem setF_lastHello (s : State) (f : RF) (k v win : Nat) : (setF s f k v win).lastHello = s.lastHello := rfl
@[simp] theorem setF_lastAdvert (s : State) (f : RF) (k v win : Nat) : (setF s f k v win).lastAdvert = s.lastAdvert := rfl
@[simp] theorem setF_lastTime (s : State) (f : RF) (k v win : Nat) : (setF s f k v win).lastTime = s.lastTime := rfl
@[simp] theorem setF_imagos (s : State) (f : RF) (k v win : Nat) : (setF s f k v win).imagos = s.imagos := rfl
@[simp] theorem setF_verif (s : State) (f : RF) (k v win : Nat) : (setF s f k v win).verif = s.verif := rfl
@[simp] theorem setF_leaseTerms (s : State) (f : RF) (k v win : Nat) : (setF s f k v win).leaseTerms = s.leaseTerms := rfl
@[simp] theorem setF_poolFreed (s : State) (f : RF) (k v win : Nat) : (setF s f k v win).poolFreed = s.poolFreed := rfl
@[simp] theorem setF_ctxs (s : State) (f : RF) (k v win : Nat) : (setF s f k v win).ctxs = s.ctxs := rfl
@[simp] theorem setF_scheds (s : State) (f : RF) (k v win : Nat) : (setF s f k v win).scheds = s.scheds := rfl
@[simp] theorem setF_queues (s : State) (f : RF) (k v win : Nat) : (setF s f k v win).queues = s.queues := rfl
@[simp] theorem setF_cmds (s : State) (f : RF) (k v win : Nat) : (setF s f k v win).cmds = s.cmds := rfl
@[simp] theorem setF_objs (s : State) (f : RF) (k v win : Nat) : (setF s f k v win).objs = s.objs := rfl
@[simp] theorem setF_fenceWaiters (s : State) (f : RF) (k v win : Nat) : (setF s f k v win).fenceWaiters = s.fenceWaiters := rfl
@[simp] theorem setF_fenceOuts (s : State) (f : RF) (k v win : Nat) : (setF s f k v win).fenceOuts = s.fenceOuts := rfl
@[simp] theorem setF_fwq (s : State) (f : RF) (k v win : Nat) : (setF s f k v win).fwq = s.fwq := rfl
@[simp] theorem setF_mail (s : State) (f : RF) (k v win : Nat) : (setF s f k v win).mail = s.mail := rfl
@[simp] theorem setF_instResets (s : State) (f : RF) (k v win : Nat) : (setF s f k v win).instResets = s.instResets := rfl
@[simp] theorem setF_numVfs (s : State) (f : RF) (k v win : Nat) : (setF s f k v win).numVfs = s.numVfs := rfl
@[simp] theorem setF_keyMat (s : State) (f : RF) (k v win : Nat) : (setF s f k v win).keyMat = s.keyMat := rfl
@[simp] theorem setF_cvks (s : State) (f : RF) (k v win : Nat) : (setF s f k v win).cvks = s.cvks := rfl
@[simp] theorem setF_rtc (s : State) (f : RF) (k v win : Nat) : (setF s f k v win).rtc = s.rtc := rfl
@[simp] theorem setF_flash (s : State) (f : RF) (k v win : Nat) : (setF s f k v win).flash = s.flash := rfl
@[simp] theorem setF_power (s : State) (f : RF) (k v win : Nat) : (setF s f k v win).power = s.power := rfl
@[simp] theorem setF_stops (s : State) (f : RF) (k v win : Nat) : (setF s f k v win).stops = s.stops := rfl
@[simp] theorem setF_stopSince (s : State) (f : RF) (k v win : Nat) : (setF s f k v win).stopSince = s.stopSince := rfl
@[simp] theorem setF_aon (s : State) (f : RF) (k v win : Nat) : (setF s f k v win).aon = s.aon := rfl
@[simp] theorem setF_resets (s : State) (f : RF) (k v win : Nat) : (setF s f k v win).resets = s.resets := rfl
@[simp] theorem setF_pending (s : State) (f : RF) (k v win : Nat) : (setF s f k v win).pending = s.pending := rfl

@[simp] theorem countR_latches (s : State) (r : Reg) (k n win : Nat) : (countR s r k n win).latches = s.latches := rfl
@[simp] theorem countR_reply (s : State) (r : Reg) (k n win : Nat) : (countR s r k n win).reply = s.reply := rfl
@[simp] theorem countR_now (s : State) (r : Reg) (k n win : Nat) : (countR s r k n win).now = s.now := rfl
@[simp] theorem countR_timeSlew (s : State) (r : Reg) (k n win : Nat) : (countR s r k n win).timeSlew = s.timeSlew := rfl
@[simp] theorem countR_slewAt (s : State) (r : Reg) (k n win : Nat) : (countR s r k n win).slewAt = s.slewAt := rfl
@[simp] theorem countR_synced (s : State) (r : Reg) (k n win : Nat) : (countR s r k n win).synced = s.synced := rfl
@[simp] theorem countR_freeCtr (s : State) (r : Reg) (k n win : Nat) : (countR s r k n win).freeCtr = s.freeCtr := rfl
@[simp] theorem countR_nextId (s : State) (r : Reg) (k n win : Nat) : (countR s r k n win).nextId = s.nextId := rfl
@[simp] theorem countR_cores (s : State) (r : Reg) (k n win : Nat) : (countR s r k n win).cores = s.cores := rfl
@[simp] theorem countR_corePhys (s : State) (r : Reg) (k n win : Nat) : (countR s r k n win).corePhys = s.corePhys := rfl
@[simp] theorem countR_kernels (s : State) (r : Reg) (k n win : Nat) : (countR s r k n win).kernels = s.kernels := rfl
@[simp] theorem countR_ops (s : State) (r : Reg) (k n win : Nat) : (countR s r k n win).ops = s.ops := rfl
@[simp] theorem countR_movers (s : State) (r : Reg) (k n win : Nat) : (countR s r k n win).movers = s.movers := rfl
@[simp] theorem countR_reqs (s : State) (r : Reg) (k n win : Nat) : (countR s r k n win).reqs = s.reqs := rfl
@[simp] theorem countR_hbm (s : State) (r : Reg) (k n win : Nat) : (countR s r k n win).hbm = s.hbm := rfl
@[simp] theorem countR_hbmPoison (s : State) (r : Reg) (k n win : Nat) : (countR s r k n win).hbmPoison = s.hbmPoison := rfl
@[simp] theorem countR_bufs (s : State) (r : Reg) (k n win : Nat) : (countR s r k n win).bufs = s.bufs := rfl
@[simp] theorem countR_host (s : State) (r : Reg) (k n win : Nat) : (countR s r k n win).host = s.host := rfl
@[simp] theorem countR_hostPoison (s : State) (r : Reg) (k n win : Nat) : (countR s r k n win).hostPoison = s.hostPoison := rfl
@[simp] theorem countR_winStart (s : State) (r : Reg) (k n win : Nat) : (countR s r k n win).winStart = s.winStart := rfl
@[simp] theorem countR_winLen (s : State) (r : Reg) (k n win : Nat) : (countR s r k n win).winLen = s.winLen := rfl
@[simp] theorem countR_regCounts (s : State) (r : Reg) (k n win : Nat) : (countR s r k n win).regCounts = s.regCounts := rfl
@[simp] theorem countR_qosOld (s : State) (r : Reg) (k n win : Nat) : (countR s r k n win).qosOld = s.qosOld := rfl
@[simp] theorem countR_missPosted (s : State) (r : Reg) (k n win : Nat) : (countR s r k n win).missPosted = s.missPosted := rfl
@[simp] theorem countR_bridgeRun (s : State) (r : Reg) (k n win : Nat) : (countR s r k n win).bridgeRun = s.bridgeRun := rfl
@[simp] theorem countR_scrubPos (s : State) (r : Reg) (k n win : Nat) : (countR s r k n win).scrubPos = s.scrubPos := rfl
@[simp] theorem countR_tiles (s : State) (r : Reg) (k n win : Nat) : (countR s r k n win).tiles = s.tiles := rfl
@[simp] theorem countR_stallAt (s : State) (r : Reg) (k n win : Nat) : (countR s r k n win).stallAt = s.stallAt := rfl
@[simp] theorem countR_walks (s : State) (r : Reg) (k n win : Nat) : (countR s r k n win).walks = s.walks := rfl
@[simp] theorem countR_tlb (s : State) (r : Reg) (k n win : Nat) : (countR s r k n win).tlb = s.tlb := rfl
@[simp] theorem countR_wcache (s : State) (r : Reg) (k n win : Nat) : (countR s r k n win).wcache = s.wcache := rfl
@[simp] theorem countR_tracker (s : State) (r : Reg) (k n win : Nat) : (countR s r k n win).tracker = s.tracker := rfl
@[simp] theorem countR_invals (s : State) (r : Reg) (k n win : Nat) : (countR s r k n win).invals = s.invals := rfl
@[simp] theorem countR_fqHeld (s : State) (r : Reg) (k n win : Nat) : (countR s r k n win).fqHeld = s.fqHeld := rfl
@[simp] theorem countR_slots (s : State) (r : Reg) (k n win : Nat) : (countR s r k n win).slots = s.slots := rfl
@[simp] theorem countR_gates (s : State) (r : Reg) (k n win : Nat) : (countR s r k n win).gates = s.gates := rfl
@[simp] theorem countR_landing (s : State) (r : Reg) (k n win : Nat) : (countR s r k n win).landing = s.landing := rfl
@[simp] theorem countR_evHeld (s : State) (r : Reg) (k n win : Nat) : (countR s r k n win).evHeld = s.evHeld := rfl
@[simp] theorem countR_rings (s : State) (r : Reg) (k n win : Nat) : (countR s r k n win).rings = s.rings := rfl
@[simp] theorem countR_armed (s : State) (r : Reg) (k n win : Nat) : (countR s r k n win).armed = s.armed := rfl
@[simp] theorem countR_msixDue (s : State) (r : Reg) (k n win : Nat) : (countR s r k n win).msixDue = s.msixDue := rfl
@[simp] theorem countR_msixLast (s : State) (r : Reg) (k n win : Nat) : (countR s r k n win).msixLast = s.msixLast := rfl
@[simp] theorem countR_msix (s : State) (r : Reg) (k n win : Nat) : (countR s r k n win).msix = s.msix := rfl
@[simp] theorem countR_instars (s : State) (r : Reg) (k n win : Nat) : (countR s r k n win).instars = s.instars := rfl
@[simp] theorem countR_instarAt (s : State) (r : Reg) (k n win : Nat) : (countR s r k n win).instarAt = s.instarAt := rfl
@[simp] theorem countR_instarDue (s : State) (r : Reg) (k n win : Nat) : (countR s r k n win).instarDue = s.instarDue := rfl
@[simp] theorem countR_silkMsgs (s : State) (r : Reg) (k n win : Nat) : (countR s r k n win).silkMsgs = s.silkMsgs := rfl
@[simp] theorem countR_silkWaiters (s : State) (r : Reg) (k n win : Nat) : (countR s r k n win).silkWaiters = s.silkWaiters := rfl
@[simp] theorem countR_silkReplies (s : State) (r : Reg) (k n win : Nat) : (countR s r k n win).silkReplies = s.silkReplies := rfl
@[simp] theorem countR_silkSent (s : State) (r : Reg) (k n win : Nat) : (countR s r k n win).silkSent = s.silkSent := rfl
@[simp] theorem countR_ports (s : State) (r : Reg) (k n win : Nat) : (countR s r k n win).ports = s.ports := rfl
@[simp] theorem countR_linkIn (s : State) (r : Reg) (k n win : Nat) : (countR s r k n win).linkIn = s.linkIn := rfl
@[simp] theorem countR_linkReqs (s : State) (r : Reg) (k n win : Nat) : (countR s r k n win).linkReqs = s.linkReqs := rfl
@[simp] theorem countR_linkRr (s : State) (r : Reg) (k n win : Nat) : (countR s r k n win).linkRr = s.linkRr := rfl
@[simp] theorem countR_peers (s : State) (r : Reg) (k n win : Nat) : (countR s r k n win).peers = s.peers := rfl
@[simp] theorem countR_custody (s : State) (r : Reg) (k n win : Nat) : (countR s r k n win).custody = s.custody := rfl
@[simp] theorem countR_custOp (s : State) (r : Reg) (k n win : Nat) : (countR s r k n win).custOp = s.custOp := rfl
@[simp] theorem countR_colls (s : State) (r : Reg) (k n win : Nat) : (countR s r k n win).colls = s.colls := rfl
@[simp] theorem countR_bootNonce (s : State) (r : Reg) (k n win : Nat) : (countR s r k n win).bootNonce = s.bootNonce := rfl
@[simp] theorem countR_lastHello (s : State) (r : Reg) (k n win : Nat) : (countR s r k n win).lastHello = s.lastHello := rfl
@[simp] theorem countR_lastAdvert (s : State) (r : Reg) (k n win : Nat) : (countR s r k n win).lastAdvert = s.lastAdvert := rfl
@[simp] theorem countR_lastTime (s : State) (r : Reg) (k n win : Nat) : (countR s r k n win).lastTime = s.lastTime := rfl
@[simp] theorem countR_imagos (s : State) (r : Reg) (k n win : Nat) : (countR s r k n win).imagos = s.imagos := rfl
@[simp] theorem countR_verif (s : State) (r : Reg) (k n win : Nat) : (countR s r k n win).verif = s.verif := rfl
@[simp] theorem countR_leaseTerms (s : State) (r : Reg) (k n win : Nat) : (countR s r k n win).leaseTerms = s.leaseTerms := rfl
@[simp] theorem countR_poolFreed (s : State) (r : Reg) (k n win : Nat) : (countR s r k n win).poolFreed = s.poolFreed := rfl
@[simp] theorem countR_ctxs (s : State) (r : Reg) (k n win : Nat) : (countR s r k n win).ctxs = s.ctxs := rfl
@[simp] theorem countR_scheds (s : State) (r : Reg) (k n win : Nat) : (countR s r k n win).scheds = s.scheds := rfl
@[simp] theorem countR_queues (s : State) (r : Reg) (k n win : Nat) : (countR s r k n win).queues = s.queues := rfl
@[simp] theorem countR_cmds (s : State) (r : Reg) (k n win : Nat) : (countR s r k n win).cmds = s.cmds := rfl
@[simp] theorem countR_objs (s : State) (r : Reg) (k n win : Nat) : (countR s r k n win).objs = s.objs := rfl
@[simp] theorem countR_fenceWaiters (s : State) (r : Reg) (k n win : Nat) : (countR s r k n win).fenceWaiters = s.fenceWaiters := rfl
@[simp] theorem countR_fenceOuts (s : State) (r : Reg) (k n win : Nat) : (countR s r k n win).fenceOuts = s.fenceOuts := rfl
@[simp] theorem countR_fwq (s : State) (r : Reg) (k n win : Nat) : (countR s r k n win).fwq = s.fwq := rfl
@[simp] theorem countR_mail (s : State) (r : Reg) (k n win : Nat) : (countR s r k n win).mail = s.mail := rfl
@[simp] theorem countR_instResets (s : State) (r : Reg) (k n win : Nat) : (countR s r k n win).instResets = s.instResets := rfl
@[simp] theorem countR_numVfs (s : State) (r : Reg) (k n win : Nat) : (countR s r k n win).numVfs = s.numVfs := rfl
@[simp] theorem countR_keyMat (s : State) (r : Reg) (k n win : Nat) : (countR s r k n win).keyMat = s.keyMat := rfl
@[simp] theorem countR_cvks (s : State) (r : Reg) (k n win : Nat) : (countR s r k n win).cvks = s.cvks := rfl
@[simp] theorem countR_rtc (s : State) (r : Reg) (k n win : Nat) : (countR s r k n win).rtc = s.rtc := rfl
@[simp] theorem countR_flash (s : State) (r : Reg) (k n win : Nat) : (countR s r k n win).flash = s.flash := rfl
@[simp] theorem countR_power (s : State) (r : Reg) (k n win : Nat) : (countR s r k n win).power = s.power := rfl
@[simp] theorem countR_stops (s : State) (r : Reg) (k n win : Nat) : (countR s r k n win).stops = s.stops := rfl
@[simp] theorem countR_stopSince (s : State) (r : Reg) (k n win : Nat) : (countR s r k n win).stopSince = s.stopSince := rfl
@[simp] theorem countR_aon (s : State) (r : Reg) (k n win : Nat) : (countR s r k n win).aon = s.aon := rfl
@[simp] theorem countR_resets (s : State) (r : Reg) (k n win : Nat) : (countR s r k n win).resets = s.resets := rfl
@[simp] theorem countR_pending (s : State) (r : Reg) (k n win : Nat) : (countR s r k n win).pending = s.pending := rfl

@[simp] theorem satF_latches (s : State) (f : RF) (k n win : Nat) : (satF s f k n win).latches = s.latches := rfl
@[simp] theorem satF_reply (s : State) (f : RF) (k n win : Nat) : (satF s f k n win).reply = s.reply := rfl
@[simp] theorem satF_now (s : State) (f : RF) (k n win : Nat) : (satF s f k n win).now = s.now := rfl
@[simp] theorem satF_timeSlew (s : State) (f : RF) (k n win : Nat) : (satF s f k n win).timeSlew = s.timeSlew := rfl
@[simp] theorem satF_slewAt (s : State) (f : RF) (k n win : Nat) : (satF s f k n win).slewAt = s.slewAt := rfl
@[simp] theorem satF_synced (s : State) (f : RF) (k n win : Nat) : (satF s f k n win).synced = s.synced := rfl
@[simp] theorem satF_freeCtr (s : State) (f : RF) (k n win : Nat) : (satF s f k n win).freeCtr = s.freeCtr := rfl
@[simp] theorem satF_nextId (s : State) (f : RF) (k n win : Nat) : (satF s f k n win).nextId = s.nextId := rfl
@[simp] theorem satF_cores (s : State) (f : RF) (k n win : Nat) : (satF s f k n win).cores = s.cores := rfl
@[simp] theorem satF_corePhys (s : State) (f : RF) (k n win : Nat) : (satF s f k n win).corePhys = s.corePhys := rfl
@[simp] theorem satF_kernels (s : State) (f : RF) (k n win : Nat) : (satF s f k n win).kernels = s.kernels := rfl
@[simp] theorem satF_ops (s : State) (f : RF) (k n win : Nat) : (satF s f k n win).ops = s.ops := rfl
@[simp] theorem satF_movers (s : State) (f : RF) (k n win : Nat) : (satF s f k n win).movers = s.movers := rfl
@[simp] theorem satF_reqs (s : State) (f : RF) (k n win : Nat) : (satF s f k n win).reqs = s.reqs := rfl
@[simp] theorem satF_hbm (s : State) (f : RF) (k n win : Nat) : (satF s f k n win).hbm = s.hbm := rfl
@[simp] theorem satF_hbmPoison (s : State) (f : RF) (k n win : Nat) : (satF s f k n win).hbmPoison = s.hbmPoison := rfl
@[simp] theorem satF_bufs (s : State) (f : RF) (k n win : Nat) : (satF s f k n win).bufs = s.bufs := rfl
@[simp] theorem satF_host (s : State) (f : RF) (k n win : Nat) : (satF s f k n win).host = s.host := rfl
@[simp] theorem satF_hostPoison (s : State) (f : RF) (k n win : Nat) : (satF s f k n win).hostPoison = s.hostPoison := rfl
@[simp] theorem satF_winStart (s : State) (f : RF) (k n win : Nat) : (satF s f k n win).winStart = s.winStart := rfl
@[simp] theorem satF_winLen (s : State) (f : RF) (k n win : Nat) : (satF s f k n win).winLen = s.winLen := rfl
@[simp] theorem satF_regCounts (s : State) (f : RF) (k n win : Nat) : (satF s f k n win).regCounts = s.regCounts := rfl
@[simp] theorem satF_qosOld (s : State) (f : RF) (k n win : Nat) : (satF s f k n win).qosOld = s.qosOld := rfl
@[simp] theorem satF_missPosted (s : State) (f : RF) (k n win : Nat) : (satF s f k n win).missPosted = s.missPosted := rfl
@[simp] theorem satF_bridgeRun (s : State) (f : RF) (k n win : Nat) : (satF s f k n win).bridgeRun = s.bridgeRun := rfl
@[simp] theorem satF_scrubPos (s : State) (f : RF) (k n win : Nat) : (satF s f k n win).scrubPos = s.scrubPos := rfl
@[simp] theorem satF_tiles (s : State) (f : RF) (k n win : Nat) : (satF s f k n win).tiles = s.tiles := rfl
@[simp] theorem satF_stallAt (s : State) (f : RF) (k n win : Nat) : (satF s f k n win).stallAt = s.stallAt := rfl
@[simp] theorem satF_walks (s : State) (f : RF) (k n win : Nat) : (satF s f k n win).walks = s.walks := rfl
@[simp] theorem satF_tlb (s : State) (f : RF) (k n win : Nat) : (satF s f k n win).tlb = s.tlb := rfl
@[simp] theorem satF_wcache (s : State) (f : RF) (k n win : Nat) : (satF s f k n win).wcache = s.wcache := rfl
@[simp] theorem satF_tracker (s : State) (f : RF) (k n win : Nat) : (satF s f k n win).tracker = s.tracker := rfl
@[simp] theorem satF_invals (s : State) (f : RF) (k n win : Nat) : (satF s f k n win).invals = s.invals := rfl
@[simp] theorem satF_fqHeld (s : State) (f : RF) (k n win : Nat) : (satF s f k n win).fqHeld = s.fqHeld := rfl
@[simp] theorem satF_slots (s : State) (f : RF) (k n win : Nat) : (satF s f k n win).slots = s.slots := rfl
@[simp] theorem satF_gates (s : State) (f : RF) (k n win : Nat) : (satF s f k n win).gates = s.gates := rfl
@[simp] theorem satF_landing (s : State) (f : RF) (k n win : Nat) : (satF s f k n win).landing = s.landing := rfl
@[simp] theorem satF_evHeld (s : State) (f : RF) (k n win : Nat) : (satF s f k n win).evHeld = s.evHeld := rfl
@[simp] theorem satF_rings (s : State) (f : RF) (k n win : Nat) : (satF s f k n win).rings = s.rings := rfl
@[simp] theorem satF_armed (s : State) (f : RF) (k n win : Nat) : (satF s f k n win).armed = s.armed := rfl
@[simp] theorem satF_msixDue (s : State) (f : RF) (k n win : Nat) : (satF s f k n win).msixDue = s.msixDue := rfl
@[simp] theorem satF_msixLast (s : State) (f : RF) (k n win : Nat) : (satF s f k n win).msixLast = s.msixLast := rfl
@[simp] theorem satF_msix (s : State) (f : RF) (k n win : Nat) : (satF s f k n win).msix = s.msix := rfl
@[simp] theorem satF_instars (s : State) (f : RF) (k n win : Nat) : (satF s f k n win).instars = s.instars := rfl
@[simp] theorem satF_instarAt (s : State) (f : RF) (k n win : Nat) : (satF s f k n win).instarAt = s.instarAt := rfl
@[simp] theorem satF_instarDue (s : State) (f : RF) (k n win : Nat) : (satF s f k n win).instarDue = s.instarDue := rfl
@[simp] theorem satF_silkMsgs (s : State) (f : RF) (k n win : Nat) : (satF s f k n win).silkMsgs = s.silkMsgs := rfl
@[simp] theorem satF_silkWaiters (s : State) (f : RF) (k n win : Nat) : (satF s f k n win).silkWaiters = s.silkWaiters := rfl
@[simp] theorem satF_silkReplies (s : State) (f : RF) (k n win : Nat) : (satF s f k n win).silkReplies = s.silkReplies := rfl
@[simp] theorem satF_silkSent (s : State) (f : RF) (k n win : Nat) : (satF s f k n win).silkSent = s.silkSent := rfl
@[simp] theorem satF_ports (s : State) (f : RF) (k n win : Nat) : (satF s f k n win).ports = s.ports := rfl
@[simp] theorem satF_linkIn (s : State) (f : RF) (k n win : Nat) : (satF s f k n win).linkIn = s.linkIn := rfl
@[simp] theorem satF_linkReqs (s : State) (f : RF) (k n win : Nat) : (satF s f k n win).linkReqs = s.linkReqs := rfl
@[simp] theorem satF_linkRr (s : State) (f : RF) (k n win : Nat) : (satF s f k n win).linkRr = s.linkRr := rfl
@[simp] theorem satF_peers (s : State) (f : RF) (k n win : Nat) : (satF s f k n win).peers = s.peers := rfl
@[simp] theorem satF_custody (s : State) (f : RF) (k n win : Nat) : (satF s f k n win).custody = s.custody := rfl
@[simp] theorem satF_custOp (s : State) (f : RF) (k n win : Nat) : (satF s f k n win).custOp = s.custOp := rfl
@[simp] theorem satF_colls (s : State) (f : RF) (k n win : Nat) : (satF s f k n win).colls = s.colls := rfl
@[simp] theorem satF_bootNonce (s : State) (f : RF) (k n win : Nat) : (satF s f k n win).bootNonce = s.bootNonce := rfl
@[simp] theorem satF_lastHello (s : State) (f : RF) (k n win : Nat) : (satF s f k n win).lastHello = s.lastHello := rfl
@[simp] theorem satF_lastAdvert (s : State) (f : RF) (k n win : Nat) : (satF s f k n win).lastAdvert = s.lastAdvert := rfl
@[simp] theorem satF_lastTime (s : State) (f : RF) (k n win : Nat) : (satF s f k n win).lastTime = s.lastTime := rfl
@[simp] theorem satF_imagos (s : State) (f : RF) (k n win : Nat) : (satF s f k n win).imagos = s.imagos := rfl
@[simp] theorem satF_verif (s : State) (f : RF) (k n win : Nat) : (satF s f k n win).verif = s.verif := rfl
@[simp] theorem satF_leaseTerms (s : State) (f : RF) (k n win : Nat) : (satF s f k n win).leaseTerms = s.leaseTerms := rfl
@[simp] theorem satF_poolFreed (s : State) (f : RF) (k n win : Nat) : (satF s f k n win).poolFreed = s.poolFreed := rfl
@[simp] theorem satF_ctxs (s : State) (f : RF) (k n win : Nat) : (satF s f k n win).ctxs = s.ctxs := rfl
@[simp] theorem satF_scheds (s : State) (f : RF) (k n win : Nat) : (satF s f k n win).scheds = s.scheds := rfl
@[simp] theorem satF_queues (s : State) (f : RF) (k n win : Nat) : (satF s f k n win).queues = s.queues := rfl
@[simp] theorem satF_cmds (s : State) (f : RF) (k n win : Nat) : (satF s f k n win).cmds = s.cmds := rfl
@[simp] theorem satF_objs (s : State) (f : RF) (k n win : Nat) : (satF s f k n win).objs = s.objs := rfl
@[simp] theorem satF_fenceWaiters (s : State) (f : RF) (k n win : Nat) : (satF s f k n win).fenceWaiters = s.fenceWaiters := rfl
@[simp] theorem satF_fenceOuts (s : State) (f : RF) (k n win : Nat) : (satF s f k n win).fenceOuts = s.fenceOuts := rfl
@[simp] theorem satF_fwq (s : State) (f : RF) (k n win : Nat) : (satF s f k n win).fwq = s.fwq := rfl
@[simp] theorem satF_mail (s : State) (f : RF) (k n win : Nat) : (satF s f k n win).mail = s.mail := rfl
@[simp] theorem satF_instResets (s : State) (f : RF) (k n win : Nat) : (satF s f k n win).instResets = s.instResets := rfl
@[simp] theorem satF_numVfs (s : State) (f : RF) (k n win : Nat) : (satF s f k n win).numVfs = s.numVfs := rfl
@[simp] theorem satF_keyMat (s : State) (f : RF) (k n win : Nat) : (satF s f k n win).keyMat = s.keyMat := rfl
@[simp] theorem satF_cvks (s : State) (f : RF) (k n win : Nat) : (satF s f k n win).cvks = s.cvks := rfl
@[simp] theorem satF_rtc (s : State) (f : RF) (k n win : Nat) : (satF s f k n win).rtc = s.rtc := rfl
@[simp] theorem satF_flash (s : State) (f : RF) (k n win : Nat) : (satF s f k n win).flash = s.flash := rfl
@[simp] theorem satF_power (s : State) (f : RF) (k n win : Nat) : (satF s f k n win).power = s.power := rfl
@[simp] theorem satF_stops (s : State) (f : RF) (k n win : Nat) : (satF s f k n win).stops = s.stops := rfl
@[simp] theorem satF_stopSince (s : State) (f : RF) (k n win : Nat) : (satF s f k n win).stopSince = s.stopSince := rfl
@[simp] theorem satF_aon (s : State) (f : RF) (k n win : Nat) : (satF s f k n win).aon = s.aon := rfl
@[simp] theorem satF_resets (s : State) (f : RF) (k n win : Nat) : (satF s f k n win).resets = s.resets := rfl
@[simp] theorem satF_pending (s : State) (f : RF) (k n win : Nat) : (satF s f k n win).pending = s.pending := rfl

@[simp] theorem setCore_regs (s : State) (c : Nat) (k : Core) : (setCore s c k).regs = s.regs := rfl
@[simp] theorem setCore_latches (s : State) (c : Nat) (k : Core) : (setCore s c k).latches = s.latches := rfl
@[simp] theorem setCore_reply (s : State) (c : Nat) (k : Core) : (setCore s c k).reply = s.reply := rfl
@[simp] theorem setCore_now (s : State) (c : Nat) (k : Core) : (setCore s c k).now = s.now := rfl
@[simp] theorem setCore_timeSlew (s : State) (c : Nat) (k : Core) : (setCore s c k).timeSlew = s.timeSlew := rfl
@[simp] theorem setCore_slewAt (s : State) (c : Nat) (k : Core) : (setCore s c k).slewAt = s.slewAt := rfl
@[simp] theorem setCore_synced (s : State) (c : Nat) (k : Core) : (setCore s c k).synced = s.synced := rfl
@[simp] theorem setCore_freeCtr (s : State) (c : Nat) (k : Core) : (setCore s c k).freeCtr = s.freeCtr := rfl
@[simp] theorem setCore_nextId (s : State) (c : Nat) (k : Core) : (setCore s c k).nextId = s.nextId := rfl
@[simp] theorem setCore_corePhys (s : State) (c : Nat) (k : Core) : (setCore s c k).corePhys = s.corePhys := rfl
@[simp] theorem setCore_kernels (s : State) (c : Nat) (k : Core) : (setCore s c k).kernels = s.kernels := rfl
@[simp] theorem setCore_ops (s : State) (c : Nat) (k : Core) : (setCore s c k).ops = s.ops := rfl
@[simp] theorem setCore_movers (s : State) (c : Nat) (k : Core) : (setCore s c k).movers = s.movers := rfl
@[simp] theorem setCore_reqs (s : State) (c : Nat) (k : Core) : (setCore s c k).reqs = s.reqs := rfl
@[simp] theorem setCore_hbm (s : State) (c : Nat) (k : Core) : (setCore s c k).hbm = s.hbm := rfl
@[simp] theorem setCore_hbmPoison (s : State) (c : Nat) (k : Core) : (setCore s c k).hbmPoison = s.hbmPoison := rfl
@[simp] theorem setCore_bufs (s : State) (c : Nat) (k : Core) : (setCore s c k).bufs = s.bufs := rfl
@[simp] theorem setCore_host (s : State) (c : Nat) (k : Core) : (setCore s c k).host = s.host := rfl
@[simp] theorem setCore_hostPoison (s : State) (c : Nat) (k : Core) : (setCore s c k).hostPoison = s.hostPoison := rfl
@[simp] theorem setCore_winStart (s : State) (c : Nat) (k : Core) : (setCore s c k).winStart = s.winStart := rfl
@[simp] theorem setCore_winLen (s : State) (c : Nat) (k : Core) : (setCore s c k).winLen = s.winLen := rfl
@[simp] theorem setCore_regCounts (s : State) (c : Nat) (k : Core) : (setCore s c k).regCounts = s.regCounts := rfl
@[simp] theorem setCore_qosOld (s : State) (c : Nat) (k : Core) : (setCore s c k).qosOld = s.qosOld := rfl
@[simp] theorem setCore_missPosted (s : State) (c : Nat) (k : Core) : (setCore s c k).missPosted = s.missPosted := rfl
@[simp] theorem setCore_bridgeRun (s : State) (c : Nat) (k : Core) : (setCore s c k).bridgeRun = s.bridgeRun := rfl
@[simp] theorem setCore_scrubPos (s : State) (c : Nat) (k : Core) : (setCore s c k).scrubPos = s.scrubPos := rfl
@[simp] theorem setCore_tiles (s : State) (c : Nat) (k : Core) : (setCore s c k).tiles = s.tiles := rfl
@[simp] theorem setCore_stallAt (s : State) (c : Nat) (k : Core) : (setCore s c k).stallAt = s.stallAt := rfl
@[simp] theorem setCore_walks (s : State) (c : Nat) (k : Core) : (setCore s c k).walks = s.walks := rfl
@[simp] theorem setCore_tlb (s : State) (c : Nat) (k : Core) : (setCore s c k).tlb = s.tlb := rfl
@[simp] theorem setCore_wcache (s : State) (c : Nat) (k : Core) : (setCore s c k).wcache = s.wcache := rfl
@[simp] theorem setCore_tracker (s : State) (c : Nat) (k : Core) : (setCore s c k).tracker = s.tracker := rfl
@[simp] theorem setCore_invals (s : State) (c : Nat) (k : Core) : (setCore s c k).invals = s.invals := rfl
@[simp] theorem setCore_fqHeld (s : State) (c : Nat) (k : Core) : (setCore s c k).fqHeld = s.fqHeld := rfl
@[simp] theorem setCore_slots (s : State) (c : Nat) (k : Core) : (setCore s c k).slots = s.slots := rfl
@[simp] theorem setCore_gates (s : State) (c : Nat) (k : Core) : (setCore s c k).gates = s.gates := rfl
@[simp] theorem setCore_landing (s : State) (c : Nat) (k : Core) : (setCore s c k).landing = s.landing := rfl
@[simp] theorem setCore_evHeld (s : State) (c : Nat) (k : Core) : (setCore s c k).evHeld = s.evHeld := rfl
@[simp] theorem setCore_rings (s : State) (c : Nat) (k : Core) : (setCore s c k).rings = s.rings := rfl
@[simp] theorem setCore_armed (s : State) (c : Nat) (k : Core) : (setCore s c k).armed = s.armed := rfl
@[simp] theorem setCore_msixDue (s : State) (c : Nat) (k : Core) : (setCore s c k).msixDue = s.msixDue := rfl
@[simp] theorem setCore_msixLast (s : State) (c : Nat) (k : Core) : (setCore s c k).msixLast = s.msixLast := rfl
@[simp] theorem setCore_msix (s : State) (c : Nat) (k : Core) : (setCore s c k).msix = s.msix := rfl
@[simp] theorem setCore_instars (s : State) (c : Nat) (k : Core) : (setCore s c k).instars = s.instars := rfl
@[simp] theorem setCore_instarAt (s : State) (c : Nat) (k : Core) : (setCore s c k).instarAt = s.instarAt := rfl
@[simp] theorem setCore_instarDue (s : State) (c : Nat) (k : Core) : (setCore s c k).instarDue = s.instarDue := rfl
@[simp] theorem setCore_silkMsgs (s : State) (c : Nat) (k : Core) : (setCore s c k).silkMsgs = s.silkMsgs := rfl
@[simp] theorem setCore_silkWaiters (s : State) (c : Nat) (k : Core) : (setCore s c k).silkWaiters = s.silkWaiters := rfl
@[simp] theorem setCore_silkReplies (s : State) (c : Nat) (k : Core) : (setCore s c k).silkReplies = s.silkReplies := rfl
@[simp] theorem setCore_silkSent (s : State) (c : Nat) (k : Core) : (setCore s c k).silkSent = s.silkSent := rfl
@[simp] theorem setCore_ports (s : State) (c : Nat) (k : Core) : (setCore s c k).ports = s.ports := rfl
@[simp] theorem setCore_linkIn (s : State) (c : Nat) (k : Core) : (setCore s c k).linkIn = s.linkIn := rfl
@[simp] theorem setCore_linkReqs (s : State) (c : Nat) (k : Core) : (setCore s c k).linkReqs = s.linkReqs := rfl
@[simp] theorem setCore_linkRr (s : State) (c : Nat) (k : Core) : (setCore s c k).linkRr = s.linkRr := rfl
@[simp] theorem setCore_peers (s : State) (c : Nat) (k : Core) : (setCore s c k).peers = s.peers := rfl
@[simp] theorem setCore_custody (s : State) (c : Nat) (k : Core) : (setCore s c k).custody = s.custody := rfl
@[simp] theorem setCore_custOp (s : State) (c : Nat) (k : Core) : (setCore s c k).custOp = s.custOp := rfl
@[simp] theorem setCore_colls (s : State) (c : Nat) (k : Core) : (setCore s c k).colls = s.colls := rfl
@[simp] theorem setCore_bootNonce (s : State) (c : Nat) (k : Core) : (setCore s c k).bootNonce = s.bootNonce := rfl
@[simp] theorem setCore_lastHello (s : State) (c : Nat) (k : Core) : (setCore s c k).lastHello = s.lastHello := rfl
@[simp] theorem setCore_lastAdvert (s : State) (c : Nat) (k : Core) : (setCore s c k).lastAdvert = s.lastAdvert := rfl
@[simp] theorem setCore_lastTime (s : State) (c : Nat) (k : Core) : (setCore s c k).lastTime = s.lastTime := rfl
@[simp] theorem setCore_imagos (s : State) (c : Nat) (k : Core) : (setCore s c k).imagos = s.imagos := rfl
@[simp] theorem setCore_verif (s : State) (c : Nat) (k : Core) : (setCore s c k).verif = s.verif := rfl
@[simp] theorem setCore_leaseTerms (s : State) (c : Nat) (k : Core) : (setCore s c k).leaseTerms = s.leaseTerms := rfl
@[simp] theorem setCore_poolFreed (s : State) (c : Nat) (k : Core) : (setCore s c k).poolFreed = s.poolFreed := rfl
@[simp] theorem setCore_ctxs (s : State) (c : Nat) (k : Core) : (setCore s c k).ctxs = s.ctxs := rfl
@[simp] theorem setCore_scheds (s : State) (c : Nat) (k : Core) : (setCore s c k).scheds = s.scheds := rfl
@[simp] theorem setCore_queues (s : State) (c : Nat) (k : Core) : (setCore s c k).queues = s.queues := rfl
@[simp] theorem setCore_cmds (s : State) (c : Nat) (k : Core) : (setCore s c k).cmds = s.cmds := rfl
@[simp] theorem setCore_objs (s : State) (c : Nat) (k : Core) : (setCore s c k).objs = s.objs := rfl
@[simp] theorem setCore_fenceWaiters (s : State) (c : Nat) (k : Core) : (setCore s c k).fenceWaiters = s.fenceWaiters := rfl
@[simp] theorem setCore_fenceOuts (s : State) (c : Nat) (k : Core) : (setCore s c k).fenceOuts = s.fenceOuts := rfl
@[simp] theorem setCore_fwq (s : State) (c : Nat) (k : Core) : (setCore s c k).fwq = s.fwq := rfl
@[simp] theorem setCore_mail (s : State) (c : Nat) (k : Core) : (setCore s c k).mail = s.mail := rfl
@[simp] theorem setCore_instResets (s : State) (c : Nat) (k : Core) : (setCore s c k).instResets = s.instResets := rfl
@[simp] theorem setCore_numVfs (s : State) (c : Nat) (k : Core) : (setCore s c k).numVfs = s.numVfs := rfl
@[simp] theorem setCore_keyMat (s : State) (c : Nat) (k : Core) : (setCore s c k).keyMat = s.keyMat := rfl
@[simp] theorem setCore_cvks (s : State) (c : Nat) (k : Core) : (setCore s c k).cvks = s.cvks := rfl
@[simp] theorem setCore_rtc (s : State) (c : Nat) (k : Core) : (setCore s c k).rtc = s.rtc := rfl
@[simp] theorem setCore_flash (s : State) (c : Nat) (k : Core) : (setCore s c k).flash = s.flash := rfl
@[simp] theorem setCore_power (s : State) (c : Nat) (k : Core) : (setCore s c k).power = s.power := rfl
@[simp] theorem setCore_stops (s : State) (c : Nat) (k : Core) : (setCore s c k).stops = s.stops := rfl
@[simp] theorem setCore_stopSince (s : State) (c : Nat) (k : Core) : (setCore s c k).stopSince = s.stopSince := rfl
@[simp] theorem setCore_aon (s : State) (c : Nat) (k : Core) : (setCore s c k).aon = s.aon := rfl
@[simp] theorem setCore_resets (s : State) (c : Nat) (k : Core) : (setCore s c k).resets = s.resets := rfl
@[simp] theorem setCore_pending (s : State) (c : Nat) (k : Core) : (setCore s c k).pending = s.pending := rfl

@[simp] theorem modCore_regs (s : State) (c : Nat) (f : Core → Core) : (modCore s c f).regs = s.regs := rfl
@[simp] theorem modCore_latches (s : State) (c : Nat) (f : Core → Core) : (modCore s c f).latches = s.latches := rfl
@[simp] theorem modCore_reply (s : State) (c : Nat) (f : Core → Core) : (modCore s c f).reply = s.reply := rfl
@[simp] theorem modCore_now (s : State) (c : Nat) (f : Core → Core) : (modCore s c f).now = s.now := rfl
@[simp] theorem modCore_timeSlew (s : State) (c : Nat) (f : Core → Core) : (modCore s c f).timeSlew = s.timeSlew := rfl
@[simp] theorem modCore_slewAt (s : State) (c : Nat) (f : Core → Core) : (modCore s c f).slewAt = s.slewAt := rfl
@[simp] theorem modCore_synced (s : State) (c : Nat) (f : Core → Core) : (modCore s c f).synced = s.synced := rfl
@[simp] theorem modCore_freeCtr (s : State) (c : Nat) (f : Core → Core) : (modCore s c f).freeCtr = s.freeCtr := rfl
@[simp] theorem modCore_nextId (s : State) (c : Nat) (f : Core → Core) : (modCore s c f).nextId = s.nextId := rfl
@[simp] theorem modCore_corePhys (s : State) (c : Nat) (f : Core → Core) : (modCore s c f).corePhys = s.corePhys := rfl
@[simp] theorem modCore_kernels (s : State) (c : Nat) (f : Core → Core) : (modCore s c f).kernels = s.kernels := rfl
@[simp] theorem modCore_ops (s : State) (c : Nat) (f : Core → Core) : (modCore s c f).ops = s.ops := rfl
@[simp] theorem modCore_movers (s : State) (c : Nat) (f : Core → Core) : (modCore s c f).movers = s.movers := rfl
@[simp] theorem modCore_reqs (s : State) (c : Nat) (f : Core → Core) : (modCore s c f).reqs = s.reqs := rfl
@[simp] theorem modCore_hbm (s : State) (c : Nat) (f : Core → Core) : (modCore s c f).hbm = s.hbm := rfl
@[simp] theorem modCore_hbmPoison (s : State) (c : Nat) (f : Core → Core) : (modCore s c f).hbmPoison = s.hbmPoison := rfl
@[simp] theorem modCore_bufs (s : State) (c : Nat) (f : Core → Core) : (modCore s c f).bufs = s.bufs := rfl
@[simp] theorem modCore_host (s : State) (c : Nat) (f : Core → Core) : (modCore s c f).host = s.host := rfl
@[simp] theorem modCore_hostPoison (s : State) (c : Nat) (f : Core → Core) : (modCore s c f).hostPoison = s.hostPoison := rfl
@[simp] theorem modCore_winStart (s : State) (c : Nat) (f : Core → Core) : (modCore s c f).winStart = s.winStart := rfl
@[simp] theorem modCore_winLen (s : State) (c : Nat) (f : Core → Core) : (modCore s c f).winLen = s.winLen := rfl
@[simp] theorem modCore_regCounts (s : State) (c : Nat) (f : Core → Core) : (modCore s c f).regCounts = s.regCounts := rfl
@[simp] theorem modCore_qosOld (s : State) (c : Nat) (f : Core → Core) : (modCore s c f).qosOld = s.qosOld := rfl
@[simp] theorem modCore_missPosted (s : State) (c : Nat) (f : Core → Core) : (modCore s c f).missPosted = s.missPosted := rfl
@[simp] theorem modCore_bridgeRun (s : State) (c : Nat) (f : Core → Core) : (modCore s c f).bridgeRun = s.bridgeRun := rfl
@[simp] theorem modCore_scrubPos (s : State) (c : Nat) (f : Core → Core) : (modCore s c f).scrubPos = s.scrubPos := rfl
@[simp] theorem modCore_tiles (s : State) (c : Nat) (f : Core → Core) : (modCore s c f).tiles = s.tiles := rfl
@[simp] theorem modCore_stallAt (s : State) (c : Nat) (f : Core → Core) : (modCore s c f).stallAt = s.stallAt := rfl
@[simp] theorem modCore_walks (s : State) (c : Nat) (f : Core → Core) : (modCore s c f).walks = s.walks := rfl
@[simp] theorem modCore_tlb (s : State) (c : Nat) (f : Core → Core) : (modCore s c f).tlb = s.tlb := rfl
@[simp] theorem modCore_wcache (s : State) (c : Nat) (f : Core → Core) : (modCore s c f).wcache = s.wcache := rfl
@[simp] theorem modCore_tracker (s : State) (c : Nat) (f : Core → Core) : (modCore s c f).tracker = s.tracker := rfl
@[simp] theorem modCore_invals (s : State) (c : Nat) (f : Core → Core) : (modCore s c f).invals = s.invals := rfl
@[simp] theorem modCore_fqHeld (s : State) (c : Nat) (f : Core → Core) : (modCore s c f).fqHeld = s.fqHeld := rfl
@[simp] theorem modCore_slots (s : State) (c : Nat) (f : Core → Core) : (modCore s c f).slots = s.slots := rfl
@[simp] theorem modCore_gates (s : State) (c : Nat) (f : Core → Core) : (modCore s c f).gates = s.gates := rfl
@[simp] theorem modCore_landing (s : State) (c : Nat) (f : Core → Core) : (modCore s c f).landing = s.landing := rfl
@[simp] theorem modCore_evHeld (s : State) (c : Nat) (f : Core → Core) : (modCore s c f).evHeld = s.evHeld := rfl
@[simp] theorem modCore_rings (s : State) (c : Nat) (f : Core → Core) : (modCore s c f).rings = s.rings := rfl
@[simp] theorem modCore_armed (s : State) (c : Nat) (f : Core → Core) : (modCore s c f).armed = s.armed := rfl
@[simp] theorem modCore_msixDue (s : State) (c : Nat) (f : Core → Core) : (modCore s c f).msixDue = s.msixDue := rfl
@[simp] theorem modCore_msixLast (s : State) (c : Nat) (f : Core → Core) : (modCore s c f).msixLast = s.msixLast := rfl
@[simp] theorem modCore_msix (s : State) (c : Nat) (f : Core → Core) : (modCore s c f).msix = s.msix := rfl
@[simp] theorem modCore_instars (s : State) (c : Nat) (f : Core → Core) : (modCore s c f).instars = s.instars := rfl
@[simp] theorem modCore_instarAt (s : State) (c : Nat) (f : Core → Core) : (modCore s c f).instarAt = s.instarAt := rfl
@[simp] theorem modCore_instarDue (s : State) (c : Nat) (f : Core → Core) : (modCore s c f).instarDue = s.instarDue := rfl
@[simp] theorem modCore_silkMsgs (s : State) (c : Nat) (f : Core → Core) : (modCore s c f).silkMsgs = s.silkMsgs := rfl
@[simp] theorem modCore_silkWaiters (s : State) (c : Nat) (f : Core → Core) : (modCore s c f).silkWaiters = s.silkWaiters := rfl
@[simp] theorem modCore_silkReplies (s : State) (c : Nat) (f : Core → Core) : (modCore s c f).silkReplies = s.silkReplies := rfl
@[simp] theorem modCore_silkSent (s : State) (c : Nat) (f : Core → Core) : (modCore s c f).silkSent = s.silkSent := rfl
@[simp] theorem modCore_ports (s : State) (c : Nat) (f : Core → Core) : (modCore s c f).ports = s.ports := rfl
@[simp] theorem modCore_linkIn (s : State) (c : Nat) (f : Core → Core) : (modCore s c f).linkIn = s.linkIn := rfl
@[simp] theorem modCore_linkReqs (s : State) (c : Nat) (f : Core → Core) : (modCore s c f).linkReqs = s.linkReqs := rfl
@[simp] theorem modCore_linkRr (s : State) (c : Nat) (f : Core → Core) : (modCore s c f).linkRr = s.linkRr := rfl
@[simp] theorem modCore_peers (s : State) (c : Nat) (f : Core → Core) : (modCore s c f).peers = s.peers := rfl
@[simp] theorem modCore_custody (s : State) (c : Nat) (f : Core → Core) : (modCore s c f).custody = s.custody := rfl
@[simp] theorem modCore_custOp (s : State) (c : Nat) (f : Core → Core) : (modCore s c f).custOp = s.custOp := rfl
@[simp] theorem modCore_colls (s : State) (c : Nat) (f : Core → Core) : (modCore s c f).colls = s.colls := rfl
@[simp] theorem modCore_bootNonce (s : State) (c : Nat) (f : Core → Core) : (modCore s c f).bootNonce = s.bootNonce := rfl
@[simp] theorem modCore_lastHello (s : State) (c : Nat) (f : Core → Core) : (modCore s c f).lastHello = s.lastHello := rfl
@[simp] theorem modCore_lastAdvert (s : State) (c : Nat) (f : Core → Core) : (modCore s c f).lastAdvert = s.lastAdvert := rfl
@[simp] theorem modCore_lastTime (s : State) (c : Nat) (f : Core → Core) : (modCore s c f).lastTime = s.lastTime := rfl
@[simp] theorem modCore_imagos (s : State) (c : Nat) (f : Core → Core) : (modCore s c f).imagos = s.imagos := rfl
@[simp] theorem modCore_verif (s : State) (c : Nat) (f : Core → Core) : (modCore s c f).verif = s.verif := rfl
@[simp] theorem modCore_leaseTerms (s : State) (c : Nat) (f : Core → Core) : (modCore s c f).leaseTerms = s.leaseTerms := rfl
@[simp] theorem modCore_poolFreed (s : State) (c : Nat) (f : Core → Core) : (modCore s c f).poolFreed = s.poolFreed := rfl
@[simp] theorem modCore_ctxs (s : State) (c : Nat) (f : Core → Core) : (modCore s c f).ctxs = s.ctxs := rfl
@[simp] theorem modCore_scheds (s : State) (c : Nat) (f : Core → Core) : (modCore s c f).scheds = s.scheds := rfl
@[simp] theorem modCore_queues (s : State) (c : Nat) (f : Core → Core) : (modCore s c f).queues = s.queues := rfl
@[simp] theorem modCore_cmds (s : State) (c : Nat) (f : Core → Core) : (modCore s c f).cmds = s.cmds := rfl
@[simp] theorem modCore_objs (s : State) (c : Nat) (f : Core → Core) : (modCore s c f).objs = s.objs := rfl
@[simp] theorem modCore_fenceWaiters (s : State) (c : Nat) (f : Core → Core) : (modCore s c f).fenceWaiters = s.fenceWaiters := rfl
@[simp] theorem modCore_fenceOuts (s : State) (c : Nat) (f : Core → Core) : (modCore s c f).fenceOuts = s.fenceOuts := rfl
@[simp] theorem modCore_fwq (s : State) (c : Nat) (f : Core → Core) : (modCore s c f).fwq = s.fwq := rfl
@[simp] theorem modCore_mail (s : State) (c : Nat) (f : Core → Core) : (modCore s c f).mail = s.mail := rfl
@[simp] theorem modCore_instResets (s : State) (c : Nat) (f : Core → Core) : (modCore s c f).instResets = s.instResets := rfl
@[simp] theorem modCore_numVfs (s : State) (c : Nat) (f : Core → Core) : (modCore s c f).numVfs = s.numVfs := rfl
@[simp] theorem modCore_keyMat (s : State) (c : Nat) (f : Core → Core) : (modCore s c f).keyMat = s.keyMat := rfl
@[simp] theorem modCore_cvks (s : State) (c : Nat) (f : Core → Core) : (modCore s c f).cvks = s.cvks := rfl
@[simp] theorem modCore_rtc (s : State) (c : Nat) (f : Core → Core) : (modCore s c f).rtc = s.rtc := rfl
@[simp] theorem modCore_flash (s : State) (c : Nat) (f : Core → Core) : (modCore s c f).flash = s.flash := rfl
@[simp] theorem modCore_power (s : State) (c : Nat) (f : Core → Core) : (modCore s c f).power = s.power := rfl
@[simp] theorem modCore_stops (s : State) (c : Nat) (f : Core → Core) : (modCore s c f).stops = s.stops := rfl
@[simp] theorem modCore_stopSince (s : State) (c : Nat) (f : Core → Core) : (modCore s c f).stopSince = s.stopSince := rfl
@[simp] theorem modCore_aon (s : State) (c : Nat) (f : Core → Core) : (modCore s c f).aon = s.aon := rfl
@[simp] theorem modCore_resets (s : State) (c : Nat) (f : Core → Core) : (modCore s c f).resets = s.resets := rfl
@[simp] theorem modCore_pending (s : State) (c : Nat) (f : Core → Core) : (modCore s c f).pending = s.pending := rfl

@[simp] theorem setBatch_regs (s : State) (c : Nat) (b : Option Batch) : (setBatch s c b).regs = s.regs := rfl
@[simp] theorem setBatch_latches (s : State) (c : Nat) (b : Option Batch) : (setBatch s c b).latches = s.latches := rfl
@[simp] theorem setBatch_reply (s : State) (c : Nat) (b : Option Batch) : (setBatch s c b).reply = s.reply := rfl
@[simp] theorem setBatch_now (s : State) (c : Nat) (b : Option Batch) : (setBatch s c b).now = s.now := rfl
@[simp] theorem setBatch_timeSlew (s : State) (c : Nat) (b : Option Batch) : (setBatch s c b).timeSlew = s.timeSlew := rfl
@[simp] theorem setBatch_slewAt (s : State) (c : Nat) (b : Option Batch) : (setBatch s c b).slewAt = s.slewAt := rfl
@[simp] theorem setBatch_synced (s : State) (c : Nat) (b : Option Batch) : (setBatch s c b).synced = s.synced := rfl
@[simp] theorem setBatch_freeCtr (s : State) (c : Nat) (b : Option Batch) : (setBatch s c b).freeCtr = s.freeCtr := rfl
@[simp] theorem setBatch_nextId (s : State) (c : Nat) (b : Option Batch) : (setBatch s c b).nextId = s.nextId := rfl
@[simp] theorem setBatch_corePhys (s : State) (c : Nat) (b : Option Batch) : (setBatch s c b).corePhys = s.corePhys := rfl
@[simp] theorem setBatch_kernels (s : State) (c : Nat) (b : Option Batch) : (setBatch s c b).kernels = s.kernels := rfl
@[simp] theorem setBatch_ops (s : State) (c : Nat) (b : Option Batch) : (setBatch s c b).ops = s.ops := rfl
@[simp] theorem setBatch_movers (s : State) (c : Nat) (b : Option Batch) : (setBatch s c b).movers = s.movers := rfl
@[simp] theorem setBatch_reqs (s : State) (c : Nat) (b : Option Batch) : (setBatch s c b).reqs = s.reqs := rfl
@[simp] theorem setBatch_hbm (s : State) (c : Nat) (b : Option Batch) : (setBatch s c b).hbm = s.hbm := rfl
@[simp] theorem setBatch_hbmPoison (s : State) (c : Nat) (b : Option Batch) : (setBatch s c b).hbmPoison = s.hbmPoison := rfl
@[simp] theorem setBatch_bufs (s : State) (c : Nat) (b : Option Batch) : (setBatch s c b).bufs = s.bufs := rfl
@[simp] theorem setBatch_host (s : State) (c : Nat) (b : Option Batch) : (setBatch s c b).host = s.host := rfl
@[simp] theorem setBatch_hostPoison (s : State) (c : Nat) (b : Option Batch) : (setBatch s c b).hostPoison = s.hostPoison := rfl
@[simp] theorem setBatch_winStart (s : State) (c : Nat) (b : Option Batch) : (setBatch s c b).winStart = s.winStart := rfl
@[simp] theorem setBatch_winLen (s : State) (c : Nat) (b : Option Batch) : (setBatch s c b).winLen = s.winLen := rfl
@[simp] theorem setBatch_regCounts (s : State) (c : Nat) (b : Option Batch) : (setBatch s c b).regCounts = s.regCounts := rfl
@[simp] theorem setBatch_qosOld (s : State) (c : Nat) (b : Option Batch) : (setBatch s c b).qosOld = s.qosOld := rfl
@[simp] theorem setBatch_missPosted (s : State) (c : Nat) (b : Option Batch) : (setBatch s c b).missPosted = s.missPosted := rfl
@[simp] theorem setBatch_bridgeRun (s : State) (c : Nat) (b : Option Batch) : (setBatch s c b).bridgeRun = s.bridgeRun := rfl
@[simp] theorem setBatch_scrubPos (s : State) (c : Nat) (b : Option Batch) : (setBatch s c b).scrubPos = s.scrubPos := rfl
@[simp] theorem setBatch_tiles (s : State) (c : Nat) (b : Option Batch) : (setBatch s c b).tiles = s.tiles := rfl
@[simp] theorem setBatch_stallAt (s : State) (c : Nat) (b : Option Batch) : (setBatch s c b).stallAt = s.stallAt := rfl
@[simp] theorem setBatch_walks (s : State) (c : Nat) (b : Option Batch) : (setBatch s c b).walks = s.walks := rfl
@[simp] theorem setBatch_tlb (s : State) (c : Nat) (b : Option Batch) : (setBatch s c b).tlb = s.tlb := rfl
@[simp] theorem setBatch_wcache (s : State) (c : Nat) (b : Option Batch) : (setBatch s c b).wcache = s.wcache := rfl
@[simp] theorem setBatch_tracker (s : State) (c : Nat) (b : Option Batch) : (setBatch s c b).tracker = s.tracker := rfl
@[simp] theorem setBatch_invals (s : State) (c : Nat) (b : Option Batch) : (setBatch s c b).invals = s.invals := rfl
@[simp] theorem setBatch_fqHeld (s : State) (c : Nat) (b : Option Batch) : (setBatch s c b).fqHeld = s.fqHeld := rfl
@[simp] theorem setBatch_slots (s : State) (c : Nat) (b : Option Batch) : (setBatch s c b).slots = s.slots := rfl
@[simp] theorem setBatch_gates (s : State) (c : Nat) (b : Option Batch) : (setBatch s c b).gates = s.gates := rfl
@[simp] theorem setBatch_landing (s : State) (c : Nat) (b : Option Batch) : (setBatch s c b).landing = s.landing := rfl
@[simp] theorem setBatch_evHeld (s : State) (c : Nat) (b : Option Batch) : (setBatch s c b).evHeld = s.evHeld := rfl
@[simp] theorem setBatch_rings (s : State) (c : Nat) (b : Option Batch) : (setBatch s c b).rings = s.rings := rfl
@[simp] theorem setBatch_armed (s : State) (c : Nat) (b : Option Batch) : (setBatch s c b).armed = s.armed := rfl
@[simp] theorem setBatch_msixDue (s : State) (c : Nat) (b : Option Batch) : (setBatch s c b).msixDue = s.msixDue := rfl
@[simp] theorem setBatch_msixLast (s : State) (c : Nat) (b : Option Batch) : (setBatch s c b).msixLast = s.msixLast := rfl
@[simp] theorem setBatch_msix (s : State) (c : Nat) (b : Option Batch) : (setBatch s c b).msix = s.msix := rfl
@[simp] theorem setBatch_instars (s : State) (c : Nat) (b : Option Batch) : (setBatch s c b).instars = s.instars := rfl
@[simp] theorem setBatch_instarAt (s : State) (c : Nat) (b : Option Batch) : (setBatch s c b).instarAt = s.instarAt := rfl
@[simp] theorem setBatch_instarDue (s : State) (c : Nat) (b : Option Batch) : (setBatch s c b).instarDue = s.instarDue := rfl
@[simp] theorem setBatch_silkMsgs (s : State) (c : Nat) (b : Option Batch) : (setBatch s c b).silkMsgs = s.silkMsgs := rfl
@[simp] theorem setBatch_silkWaiters (s : State) (c : Nat) (b : Option Batch) : (setBatch s c b).silkWaiters = s.silkWaiters := rfl
@[simp] theorem setBatch_silkReplies (s : State) (c : Nat) (b : Option Batch) : (setBatch s c b).silkReplies = s.silkReplies := rfl
@[simp] theorem setBatch_silkSent (s : State) (c : Nat) (b : Option Batch) : (setBatch s c b).silkSent = s.silkSent := rfl
@[simp] theorem setBatch_ports (s : State) (c : Nat) (b : Option Batch) : (setBatch s c b).ports = s.ports := rfl
@[simp] theorem setBatch_linkIn (s : State) (c : Nat) (b : Option Batch) : (setBatch s c b).linkIn = s.linkIn := rfl
@[simp] theorem setBatch_linkReqs (s : State) (c : Nat) (b : Option Batch) : (setBatch s c b).linkReqs = s.linkReqs := rfl
@[simp] theorem setBatch_linkRr (s : State) (c : Nat) (b : Option Batch) : (setBatch s c b).linkRr = s.linkRr := rfl
@[simp] theorem setBatch_peers (s : State) (c : Nat) (b : Option Batch) : (setBatch s c b).peers = s.peers := rfl
@[simp] theorem setBatch_custody (s : State) (c : Nat) (b : Option Batch) : (setBatch s c b).custody = s.custody := rfl
@[simp] theorem setBatch_custOp (s : State) (c : Nat) (b : Option Batch) : (setBatch s c b).custOp = s.custOp := rfl
@[simp] theorem setBatch_colls (s : State) (c : Nat) (b : Option Batch) : (setBatch s c b).colls = s.colls := rfl
@[simp] theorem setBatch_bootNonce (s : State) (c : Nat) (b : Option Batch) : (setBatch s c b).bootNonce = s.bootNonce := rfl
@[simp] theorem setBatch_lastHello (s : State) (c : Nat) (b : Option Batch) : (setBatch s c b).lastHello = s.lastHello := rfl
@[simp] theorem setBatch_lastAdvert (s : State) (c : Nat) (b : Option Batch) : (setBatch s c b).lastAdvert = s.lastAdvert := rfl
@[simp] theorem setBatch_lastTime (s : State) (c : Nat) (b : Option Batch) : (setBatch s c b).lastTime = s.lastTime := rfl
@[simp] theorem setBatch_imagos (s : State) (c : Nat) (b : Option Batch) : (setBatch s c b).imagos = s.imagos := rfl
@[simp] theorem setBatch_verif (s : State) (c : Nat) (b : Option Batch) : (setBatch s c b).verif = s.verif := rfl
@[simp] theorem setBatch_leaseTerms (s : State) (c : Nat) (b : Option Batch) : (setBatch s c b).leaseTerms = s.leaseTerms := rfl
@[simp] theorem setBatch_poolFreed (s : State) (c : Nat) (b : Option Batch) : (setBatch s c b).poolFreed = s.poolFreed := rfl
@[simp] theorem setBatch_ctxs (s : State) (c : Nat) (b : Option Batch) : (setBatch s c b).ctxs = s.ctxs := rfl
@[simp] theorem setBatch_scheds (s : State) (c : Nat) (b : Option Batch) : (setBatch s c b).scheds = s.scheds := rfl
@[simp] theorem setBatch_queues (s : State) (c : Nat) (b : Option Batch) : (setBatch s c b).queues = s.queues := rfl
@[simp] theorem setBatch_cmds (s : State) (c : Nat) (b : Option Batch) : (setBatch s c b).cmds = s.cmds := rfl
@[simp] theorem setBatch_objs (s : State) (c : Nat) (b : Option Batch) : (setBatch s c b).objs = s.objs := rfl
@[simp] theorem setBatch_fenceWaiters (s : State) (c : Nat) (b : Option Batch) : (setBatch s c b).fenceWaiters = s.fenceWaiters := rfl
@[simp] theorem setBatch_fenceOuts (s : State) (c : Nat) (b : Option Batch) : (setBatch s c b).fenceOuts = s.fenceOuts := rfl
@[simp] theorem setBatch_fwq (s : State) (c : Nat) (b : Option Batch) : (setBatch s c b).fwq = s.fwq := rfl
@[simp] theorem setBatch_mail (s : State) (c : Nat) (b : Option Batch) : (setBatch s c b).mail = s.mail := rfl
@[simp] theorem setBatch_instResets (s : State) (c : Nat) (b : Option Batch) : (setBatch s c b).instResets = s.instResets := rfl
@[simp] theorem setBatch_numVfs (s : State) (c : Nat) (b : Option Batch) : (setBatch s c b).numVfs = s.numVfs := rfl
@[simp] theorem setBatch_keyMat (s : State) (c : Nat) (b : Option Batch) : (setBatch s c b).keyMat = s.keyMat := rfl
@[simp] theorem setBatch_cvks (s : State) (c : Nat) (b : Option Batch) : (setBatch s c b).cvks = s.cvks := rfl
@[simp] theorem setBatch_rtc (s : State) (c : Nat) (b : Option Batch) : (setBatch s c b).rtc = s.rtc := rfl
@[simp] theorem setBatch_flash (s : State) (c : Nat) (b : Option Batch) : (setBatch s c b).flash = s.flash := rfl
@[simp] theorem setBatch_power (s : State) (c : Nat) (b : Option Batch) : (setBatch s c b).power = s.power := rfl
@[simp] theorem setBatch_stops (s : State) (c : Nat) (b : Option Batch) : (setBatch s c b).stops = s.stops := rfl
@[simp] theorem setBatch_stopSince (s : State) (c : Nat) (b : Option Batch) : (setBatch s c b).stopSince = s.stopSince := rfl
@[simp] theorem setBatch_aon (s : State) (c : Nat) (b : Option Batch) : (setBatch s c b).aon = s.aon := rfl
@[simp] theorem setBatch_resets (s : State) (c : Nat) (b : Option Batch) : (setBatch s c b).resets = s.resets := rfl
@[simp] theorem setBatch_pending (s : State) (c : Nat) (b : Option Batch) : (setBatch s c b).pending = s.pending := rfl

@[simp] theorem modKernel_regs (s : State) (k : Nat) (f : Kernel → Kernel) : (modKernel s k f).regs = s.regs := rfl
@[simp] theorem modKernel_latches (s : State) (k : Nat) (f : Kernel → Kernel) : (modKernel s k f).latches = s.latches := rfl
@[simp] theorem modKernel_reply (s : State) (k : Nat) (f : Kernel → Kernel) : (modKernel s k f).reply = s.reply := rfl
@[simp] theorem modKernel_now (s : State) (k : Nat) (f : Kernel → Kernel) : (modKernel s k f).now = s.now := rfl
@[simp] theorem modKernel_timeSlew (s : State) (k : Nat) (f : Kernel → Kernel) : (modKernel s k f).timeSlew = s.timeSlew := rfl
@[simp] theorem modKernel_slewAt (s : State) (k : Nat) (f : Kernel → Kernel) : (modKernel s k f).slewAt = s.slewAt := rfl
@[simp] theorem modKernel_synced (s : State) (k : Nat) (f : Kernel → Kernel) : (modKernel s k f).synced = s.synced := rfl
@[simp] theorem modKernel_freeCtr (s : State) (k : Nat) (f : Kernel → Kernel) : (modKernel s k f).freeCtr = s.freeCtr := rfl
@[simp] theorem modKernel_nextId (s : State) (k : Nat) (f : Kernel → Kernel) : (modKernel s k f).nextId = s.nextId := rfl
@[simp] theorem modKernel_cores (s : State) (k : Nat) (f : Kernel → Kernel) : (modKernel s k f).cores = s.cores := rfl
@[simp] theorem modKernel_corePhys (s : State) (k : Nat) (f : Kernel → Kernel) : (modKernel s k f).corePhys = s.corePhys := rfl
@[simp] theorem modKernel_ops (s : State) (k : Nat) (f : Kernel → Kernel) : (modKernel s k f).ops = s.ops := rfl
@[simp] theorem modKernel_movers (s : State) (k : Nat) (f : Kernel → Kernel) : (modKernel s k f).movers = s.movers := rfl
@[simp] theorem modKernel_reqs (s : State) (k : Nat) (f : Kernel → Kernel) : (modKernel s k f).reqs = s.reqs := rfl
@[simp] theorem modKernel_hbm (s : State) (k : Nat) (f : Kernel → Kernel) : (modKernel s k f).hbm = s.hbm := rfl
@[simp] theorem modKernel_hbmPoison (s : State) (k : Nat) (f : Kernel → Kernel) : (modKernel s k f).hbmPoison = s.hbmPoison := rfl
@[simp] theorem modKernel_bufs (s : State) (k : Nat) (f : Kernel → Kernel) : (modKernel s k f).bufs = s.bufs := rfl
@[simp] theorem modKernel_host (s : State) (k : Nat) (f : Kernel → Kernel) : (modKernel s k f).host = s.host := rfl
@[simp] theorem modKernel_hostPoison (s : State) (k : Nat) (f : Kernel → Kernel) : (modKernel s k f).hostPoison = s.hostPoison := rfl
@[simp] theorem modKernel_winStart (s : State) (k : Nat) (f : Kernel → Kernel) : (modKernel s k f).winStart = s.winStart := rfl
@[simp] theorem modKernel_winLen (s : State) (k : Nat) (f : Kernel → Kernel) : (modKernel s k f).winLen = s.winLen := rfl
@[simp] theorem modKernel_regCounts (s : State) (k : Nat) (f : Kernel → Kernel) : (modKernel s k f).regCounts = s.regCounts := rfl
@[simp] theorem modKernel_qosOld (s : State) (k : Nat) (f : Kernel → Kernel) : (modKernel s k f).qosOld = s.qosOld := rfl
@[simp] theorem modKernel_missPosted (s : State) (k : Nat) (f : Kernel → Kernel) : (modKernel s k f).missPosted = s.missPosted := rfl
@[simp] theorem modKernel_bridgeRun (s : State) (k : Nat) (f : Kernel → Kernel) : (modKernel s k f).bridgeRun = s.bridgeRun := rfl
@[simp] theorem modKernel_scrubPos (s : State) (k : Nat) (f : Kernel → Kernel) : (modKernel s k f).scrubPos = s.scrubPos := rfl
@[simp] theorem modKernel_tiles (s : State) (k : Nat) (f : Kernel → Kernel) : (modKernel s k f).tiles = s.tiles := rfl
@[simp] theorem modKernel_stallAt (s : State) (k : Nat) (f : Kernel → Kernel) : (modKernel s k f).stallAt = s.stallAt := rfl
@[simp] theorem modKernel_walks (s : State) (k : Nat) (f : Kernel → Kernel) : (modKernel s k f).walks = s.walks := rfl
@[simp] theorem modKernel_tlb (s : State) (k : Nat) (f : Kernel → Kernel) : (modKernel s k f).tlb = s.tlb := rfl
@[simp] theorem modKernel_wcache (s : State) (k : Nat) (f : Kernel → Kernel) : (modKernel s k f).wcache = s.wcache := rfl
@[simp] theorem modKernel_tracker (s : State) (k : Nat) (f : Kernel → Kernel) : (modKernel s k f).tracker = s.tracker := rfl
@[simp] theorem modKernel_invals (s : State) (k : Nat) (f : Kernel → Kernel) : (modKernel s k f).invals = s.invals := rfl
@[simp] theorem modKernel_fqHeld (s : State) (k : Nat) (f : Kernel → Kernel) : (modKernel s k f).fqHeld = s.fqHeld := rfl
@[simp] theorem modKernel_slots (s : State) (k : Nat) (f : Kernel → Kernel) : (modKernel s k f).slots = s.slots := rfl
@[simp] theorem modKernel_gates (s : State) (k : Nat) (f : Kernel → Kernel) : (modKernel s k f).gates = s.gates := rfl
@[simp] theorem modKernel_landing (s : State) (k : Nat) (f : Kernel → Kernel) : (modKernel s k f).landing = s.landing := rfl
@[simp] theorem modKernel_evHeld (s : State) (k : Nat) (f : Kernel → Kernel) : (modKernel s k f).evHeld = s.evHeld := rfl
@[simp] theorem modKernel_rings (s : State) (k : Nat) (f : Kernel → Kernel) : (modKernel s k f).rings = s.rings := rfl
@[simp] theorem modKernel_armed (s : State) (k : Nat) (f : Kernel → Kernel) : (modKernel s k f).armed = s.armed := rfl
@[simp] theorem modKernel_msixDue (s : State) (k : Nat) (f : Kernel → Kernel) : (modKernel s k f).msixDue = s.msixDue := rfl
@[simp] theorem modKernel_msixLast (s : State) (k : Nat) (f : Kernel → Kernel) : (modKernel s k f).msixLast = s.msixLast := rfl
@[simp] theorem modKernel_msix (s : State) (k : Nat) (f : Kernel → Kernel) : (modKernel s k f).msix = s.msix := rfl
@[simp] theorem modKernel_instars (s : State) (k : Nat) (f : Kernel → Kernel) : (modKernel s k f).instars = s.instars := rfl
@[simp] theorem modKernel_instarAt (s : State) (k : Nat) (f : Kernel → Kernel) : (modKernel s k f).instarAt = s.instarAt := rfl
@[simp] theorem modKernel_instarDue (s : State) (k : Nat) (f : Kernel → Kernel) : (modKernel s k f).instarDue = s.instarDue := rfl
@[simp] theorem modKernel_silkMsgs (s : State) (k : Nat) (f : Kernel → Kernel) : (modKernel s k f).silkMsgs = s.silkMsgs := rfl
@[simp] theorem modKernel_silkWaiters (s : State) (k : Nat) (f : Kernel → Kernel) : (modKernel s k f).silkWaiters = s.silkWaiters := rfl
@[simp] theorem modKernel_silkReplies (s : State) (k : Nat) (f : Kernel → Kernel) : (modKernel s k f).silkReplies = s.silkReplies := rfl
@[simp] theorem modKernel_silkSent (s : State) (k : Nat) (f : Kernel → Kernel) : (modKernel s k f).silkSent = s.silkSent := rfl
@[simp] theorem modKernel_ports (s : State) (k : Nat) (f : Kernel → Kernel) : (modKernel s k f).ports = s.ports := rfl
@[simp] theorem modKernel_linkIn (s : State) (k : Nat) (f : Kernel → Kernel) : (modKernel s k f).linkIn = s.linkIn := rfl
@[simp] theorem modKernel_linkReqs (s : State) (k : Nat) (f : Kernel → Kernel) : (modKernel s k f).linkReqs = s.linkReqs := rfl
@[simp] theorem modKernel_linkRr (s : State) (k : Nat) (f : Kernel → Kernel) : (modKernel s k f).linkRr = s.linkRr := rfl
@[simp] theorem modKernel_peers (s : State) (k : Nat) (f : Kernel → Kernel) : (modKernel s k f).peers = s.peers := rfl
@[simp] theorem modKernel_custody (s : State) (k : Nat) (f : Kernel → Kernel) : (modKernel s k f).custody = s.custody := rfl
@[simp] theorem modKernel_custOp (s : State) (k : Nat) (f : Kernel → Kernel) : (modKernel s k f).custOp = s.custOp := rfl
@[simp] theorem modKernel_colls (s : State) (k : Nat) (f : Kernel → Kernel) : (modKernel s k f).colls = s.colls := rfl
@[simp] theorem modKernel_bootNonce (s : State) (k : Nat) (f : Kernel → Kernel) : (modKernel s k f).bootNonce = s.bootNonce := rfl
@[simp] theorem modKernel_lastHello (s : State) (k : Nat) (f : Kernel → Kernel) : (modKernel s k f).lastHello = s.lastHello := rfl
@[simp] theorem modKernel_lastAdvert (s : State) (k : Nat) (f : Kernel → Kernel) : (modKernel s k f).lastAdvert = s.lastAdvert := rfl
@[simp] theorem modKernel_lastTime (s : State) (k : Nat) (f : Kernel → Kernel) : (modKernel s k f).lastTime = s.lastTime := rfl
@[simp] theorem modKernel_imagos (s : State) (k : Nat) (f : Kernel → Kernel) : (modKernel s k f).imagos = s.imagos := rfl
@[simp] theorem modKernel_verif (s : State) (k : Nat) (f : Kernel → Kernel) : (modKernel s k f).verif = s.verif := rfl
@[simp] theorem modKernel_leaseTerms (s : State) (k : Nat) (f : Kernel → Kernel) : (modKernel s k f).leaseTerms = s.leaseTerms := rfl
@[simp] theorem modKernel_poolFreed (s : State) (k : Nat) (f : Kernel → Kernel) : (modKernel s k f).poolFreed = s.poolFreed := rfl
@[simp] theorem modKernel_ctxs (s : State) (k : Nat) (f : Kernel → Kernel) : (modKernel s k f).ctxs = s.ctxs := rfl
@[simp] theorem modKernel_scheds (s : State) (k : Nat) (f : Kernel → Kernel) : (modKernel s k f).scheds = s.scheds := rfl
@[simp] theorem modKernel_queues (s : State) (k : Nat) (f : Kernel → Kernel) : (modKernel s k f).queues = s.queues := rfl
@[simp] theorem modKernel_cmds (s : State) (k : Nat) (f : Kernel → Kernel) : (modKernel s k f).cmds = s.cmds := rfl
@[simp] theorem modKernel_objs (s : State) (k : Nat) (f : Kernel → Kernel) : (modKernel s k f).objs = s.objs := rfl
@[simp] theorem modKernel_fenceWaiters (s : State) (k : Nat) (f : Kernel → Kernel) : (modKernel s k f).fenceWaiters = s.fenceWaiters := rfl
@[simp] theorem modKernel_fenceOuts (s : State) (k : Nat) (f : Kernel → Kernel) : (modKernel s k f).fenceOuts = s.fenceOuts := rfl
@[simp] theorem modKernel_fwq (s : State) (k : Nat) (f : Kernel → Kernel) : (modKernel s k f).fwq = s.fwq := rfl
@[simp] theorem modKernel_mail (s : State) (k : Nat) (f : Kernel → Kernel) : (modKernel s k f).mail = s.mail := rfl
@[simp] theorem modKernel_instResets (s : State) (k : Nat) (f : Kernel → Kernel) : (modKernel s k f).instResets = s.instResets := rfl
@[simp] theorem modKernel_numVfs (s : State) (k : Nat) (f : Kernel → Kernel) : (modKernel s k f).numVfs = s.numVfs := rfl
@[simp] theorem modKernel_keyMat (s : State) (k : Nat) (f : Kernel → Kernel) : (modKernel s k f).keyMat = s.keyMat := rfl
@[simp] theorem modKernel_cvks (s : State) (k : Nat) (f : Kernel → Kernel) : (modKernel s k f).cvks = s.cvks := rfl
@[simp] theorem modKernel_rtc (s : State) (k : Nat) (f : Kernel → Kernel) : (modKernel s k f).rtc = s.rtc := rfl
@[simp] theorem modKernel_flash (s : State) (k : Nat) (f : Kernel → Kernel) : (modKernel s k f).flash = s.flash := rfl
@[simp] theorem modKernel_power (s : State) (k : Nat) (f : Kernel → Kernel) : (modKernel s k f).power = s.power := rfl
@[simp] theorem modKernel_stops (s : State) (k : Nat) (f : Kernel → Kernel) : (modKernel s k f).stops = s.stops := rfl
@[simp] theorem modKernel_stopSince (s : State) (k : Nat) (f : Kernel → Kernel) : (modKernel s k f).stopSince = s.stopSince := rfl
@[simp] theorem modKernel_aon (s : State) (k : Nat) (f : Kernel → Kernel) : (modKernel s k f).aon = s.aon := rfl
@[simp] theorem modKernel_resets (s : State) (k : Nat) (f : Kernel → Kernel) : (modKernel s k f).resets = s.resets := rfl
@[simp] theorem modKernel_pending (s : State) (k : Nat) (f : Kernel → Kernel) : (modKernel s k f).pending = s.pending := rfl

@[simp] theorem setChan_regs (s : State) (u k : Nat) (v : Chan) : (setChan s u k v).regs = s.regs := rfl
@[simp] theorem setChan_latches (s : State) (u k : Nat) (v : Chan) : (setChan s u k v).latches = s.latches := rfl
@[simp] theorem setChan_reply (s : State) (u k : Nat) (v : Chan) : (setChan s u k v).reply = s.reply := rfl
@[simp] theorem setChan_now (s : State) (u k : Nat) (v : Chan) : (setChan s u k v).now = s.now := rfl
@[simp] theorem setChan_timeSlew (s : State) (u k : Nat) (v : Chan) : (setChan s u k v).timeSlew = s.timeSlew := rfl
@[simp] theorem setChan_slewAt (s : State) (u k : Nat) (v : Chan) : (setChan s u k v).slewAt = s.slewAt := rfl
@[simp] theorem setChan_synced (s : State) (u k : Nat) (v : Chan) : (setChan s u k v).synced = s.synced := rfl
@[simp] theorem setChan_freeCtr (s : State) (u k : Nat) (v : Chan) : (setChan s u k v).freeCtr = s.freeCtr := rfl
@[simp] theorem setChan_nextId (s : State) (u k : Nat) (v : Chan) : (setChan s u k v).nextId = s.nextId := rfl
@[simp] theorem setChan_cores (s : State) (u k : Nat) (v : Chan) : (setChan s u k v).cores = s.cores := rfl
@[simp] theorem setChan_corePhys (s : State) (u k : Nat) (v : Chan) : (setChan s u k v).corePhys = s.corePhys := rfl
@[simp] theorem setChan_kernels (s : State) (u k : Nat) (v : Chan) : (setChan s u k v).kernels = s.kernels := rfl
@[simp] theorem setChan_ops (s : State) (u k : Nat) (v : Chan) : (setChan s u k v).ops = s.ops := rfl
@[simp] theorem setChan_reqs (s : State) (u k : Nat) (v : Chan) : (setChan s u k v).reqs = s.reqs := rfl
@[simp] theorem setChan_hbm (s : State) (u k : Nat) (v : Chan) : (setChan s u k v).hbm = s.hbm := rfl
@[simp] theorem setChan_hbmPoison (s : State) (u k : Nat) (v : Chan) : (setChan s u k v).hbmPoison = s.hbmPoison := rfl
@[simp] theorem setChan_bufs (s : State) (u k : Nat) (v : Chan) : (setChan s u k v).bufs = s.bufs := rfl
@[simp] theorem setChan_host (s : State) (u k : Nat) (v : Chan) : (setChan s u k v).host = s.host := rfl
@[simp] theorem setChan_hostPoison (s : State) (u k : Nat) (v : Chan) : (setChan s u k v).hostPoison = s.hostPoison := rfl
@[simp] theorem setChan_winStart (s : State) (u k : Nat) (v : Chan) : (setChan s u k v).winStart = s.winStart := rfl
@[simp] theorem setChan_winLen (s : State) (u k : Nat) (v : Chan) : (setChan s u k v).winLen = s.winLen := rfl
@[simp] theorem setChan_regCounts (s : State) (u k : Nat) (v : Chan) : (setChan s u k v).regCounts = s.regCounts := rfl
@[simp] theorem setChan_qosOld (s : State) (u k : Nat) (v : Chan) : (setChan s u k v).qosOld = s.qosOld := rfl
@[simp] theorem setChan_missPosted (s : State) (u k : Nat) (v : Chan) : (setChan s u k v).missPosted = s.missPosted := rfl
@[simp] theorem setChan_bridgeRun (s : State) (u k : Nat) (v : Chan) : (setChan s u k v).bridgeRun = s.bridgeRun := rfl
@[simp] theorem setChan_scrubPos (s : State) (u k : Nat) (v : Chan) : (setChan s u k v).scrubPos = s.scrubPos := rfl
@[simp] theorem setChan_tiles (s : State) (u k : Nat) (v : Chan) : (setChan s u k v).tiles = s.tiles := rfl
@[simp] theorem setChan_stallAt (s : State) (u k : Nat) (v : Chan) : (setChan s u k v).stallAt = s.stallAt := rfl
@[simp] theorem setChan_walks (s : State) (u k : Nat) (v : Chan) : (setChan s u k v).walks = s.walks := rfl
@[simp] theorem setChan_tlb (s : State) (u k : Nat) (v : Chan) : (setChan s u k v).tlb = s.tlb := rfl
@[simp] theorem setChan_wcache (s : State) (u k : Nat) (v : Chan) : (setChan s u k v).wcache = s.wcache := rfl
@[simp] theorem setChan_tracker (s : State) (u k : Nat) (v : Chan) : (setChan s u k v).tracker = s.tracker := rfl
@[simp] theorem setChan_invals (s : State) (u k : Nat) (v : Chan) : (setChan s u k v).invals = s.invals := rfl
@[simp] theorem setChan_fqHeld (s : State) (u k : Nat) (v : Chan) : (setChan s u k v).fqHeld = s.fqHeld := rfl
@[simp] theorem setChan_slots (s : State) (u k : Nat) (v : Chan) : (setChan s u k v).slots = s.slots := rfl
@[simp] theorem setChan_gates (s : State) (u k : Nat) (v : Chan) : (setChan s u k v).gates = s.gates := rfl
@[simp] theorem setChan_landing (s : State) (u k : Nat) (v : Chan) : (setChan s u k v).landing = s.landing := rfl
@[simp] theorem setChan_evHeld (s : State) (u k : Nat) (v : Chan) : (setChan s u k v).evHeld = s.evHeld := rfl
@[simp] theorem setChan_rings (s : State) (u k : Nat) (v : Chan) : (setChan s u k v).rings = s.rings := rfl
@[simp] theorem setChan_armed (s : State) (u k : Nat) (v : Chan) : (setChan s u k v).armed = s.armed := rfl
@[simp] theorem setChan_msixDue (s : State) (u k : Nat) (v : Chan) : (setChan s u k v).msixDue = s.msixDue := rfl
@[simp] theorem setChan_msixLast (s : State) (u k : Nat) (v : Chan) : (setChan s u k v).msixLast = s.msixLast := rfl
@[simp] theorem setChan_msix (s : State) (u k : Nat) (v : Chan) : (setChan s u k v).msix = s.msix := rfl
@[simp] theorem setChan_instars (s : State) (u k : Nat) (v : Chan) : (setChan s u k v).instars = s.instars := rfl
@[simp] theorem setChan_instarAt (s : State) (u k : Nat) (v : Chan) : (setChan s u k v).instarAt = s.instarAt := rfl
@[simp] theorem setChan_instarDue (s : State) (u k : Nat) (v : Chan) : (setChan s u k v).instarDue = s.instarDue := rfl
@[simp] theorem setChan_silkMsgs (s : State) (u k : Nat) (v : Chan) : (setChan s u k v).silkMsgs = s.silkMsgs := rfl
@[simp] theorem setChan_silkWaiters (s : State) (u k : Nat) (v : Chan) : (setChan s u k v).silkWaiters = s.silkWaiters := rfl
@[simp] theorem setChan_silkReplies (s : State) (u k : Nat) (v : Chan) : (setChan s u k v).silkReplies = s.silkReplies := rfl
@[simp] theorem setChan_silkSent (s : State) (u k : Nat) (v : Chan) : (setChan s u k v).silkSent = s.silkSent := rfl
@[simp] theorem setChan_ports (s : State) (u k : Nat) (v : Chan) : (setChan s u k v).ports = s.ports := rfl
@[simp] theorem setChan_linkIn (s : State) (u k : Nat) (v : Chan) : (setChan s u k v).linkIn = s.linkIn := rfl
@[simp] theorem setChan_linkReqs (s : State) (u k : Nat) (v : Chan) : (setChan s u k v).linkReqs = s.linkReqs := rfl
@[simp] theorem setChan_linkRr (s : State) (u k : Nat) (v : Chan) : (setChan s u k v).linkRr = s.linkRr := rfl
@[simp] theorem setChan_peers (s : State) (u k : Nat) (v : Chan) : (setChan s u k v).peers = s.peers := rfl
@[simp] theorem setChan_custody (s : State) (u k : Nat) (v : Chan) : (setChan s u k v).custody = s.custody := rfl
@[simp] theorem setChan_custOp (s : State) (u k : Nat) (v : Chan) : (setChan s u k v).custOp = s.custOp := rfl
@[simp] theorem setChan_colls (s : State) (u k : Nat) (v : Chan) : (setChan s u k v).colls = s.colls := rfl
@[simp] theorem setChan_bootNonce (s : State) (u k : Nat) (v : Chan) : (setChan s u k v).bootNonce = s.bootNonce := rfl
@[simp] theorem setChan_lastHello (s : State) (u k : Nat) (v : Chan) : (setChan s u k v).lastHello = s.lastHello := rfl
@[simp] theorem setChan_lastAdvert (s : State) (u k : Nat) (v : Chan) : (setChan s u k v).lastAdvert = s.lastAdvert := rfl
@[simp] theorem setChan_lastTime (s : State) (u k : Nat) (v : Chan) : (setChan s u k v).lastTime = s.lastTime := rfl
@[simp] theorem setChan_imagos (s : State) (u k : Nat) (v : Chan) : (setChan s u k v).imagos = s.imagos := rfl
@[simp] theorem setChan_verif (s : State) (u k : Nat) (v : Chan) : (setChan s u k v).verif = s.verif := rfl
@[simp] theorem setChan_leaseTerms (s : State) (u k : Nat) (v : Chan) : (setChan s u k v).leaseTerms = s.leaseTerms := rfl
@[simp] theorem setChan_poolFreed (s : State) (u k : Nat) (v : Chan) : (setChan s u k v).poolFreed = s.poolFreed := rfl
@[simp] theorem setChan_ctxs (s : State) (u k : Nat) (v : Chan) : (setChan s u k v).ctxs = s.ctxs := rfl
@[simp] theorem setChan_scheds (s : State) (u k : Nat) (v : Chan) : (setChan s u k v).scheds = s.scheds := rfl
@[simp] theorem setChan_queues (s : State) (u k : Nat) (v : Chan) : (setChan s u k v).queues = s.queues := rfl
@[simp] theorem setChan_cmds (s : State) (u k : Nat) (v : Chan) : (setChan s u k v).cmds = s.cmds := rfl
@[simp] theorem setChan_objs (s : State) (u k : Nat) (v : Chan) : (setChan s u k v).objs = s.objs := rfl
@[simp] theorem setChan_fenceWaiters (s : State) (u k : Nat) (v : Chan) : (setChan s u k v).fenceWaiters = s.fenceWaiters := rfl
@[simp] theorem setChan_fenceOuts (s : State) (u k : Nat) (v : Chan) : (setChan s u k v).fenceOuts = s.fenceOuts := rfl
@[simp] theorem setChan_fwq (s : State) (u k : Nat) (v : Chan) : (setChan s u k v).fwq = s.fwq := rfl
@[simp] theorem setChan_mail (s : State) (u k : Nat) (v : Chan) : (setChan s u k v).mail = s.mail := rfl
@[simp] theorem setChan_instResets (s : State) (u k : Nat) (v : Chan) : (setChan s u k v).instResets = s.instResets := rfl
@[simp] theorem setChan_numVfs (s : State) (u k : Nat) (v : Chan) : (setChan s u k v).numVfs = s.numVfs := rfl
@[simp] theorem setChan_keyMat (s : State) (u k : Nat) (v : Chan) : (setChan s u k v).keyMat = s.keyMat := rfl
@[simp] theorem setChan_cvks (s : State) (u k : Nat) (v : Chan) : (setChan s u k v).cvks = s.cvks := rfl
@[simp] theorem setChan_rtc (s : State) (u k : Nat) (v : Chan) : (setChan s u k v).rtc = s.rtc := rfl
@[simp] theorem setChan_flash (s : State) (u k : Nat) (v : Chan) : (setChan s u k v).flash = s.flash := rfl
@[simp] theorem setChan_power (s : State) (u k : Nat) (v : Chan) : (setChan s u k v).power = s.power := rfl
@[simp] theorem setChan_stops (s : State) (u k : Nat) (v : Chan) : (setChan s u k v).stops = s.stops := rfl
@[simp] theorem setChan_stopSince (s : State) (u k : Nat) (v : Chan) : (setChan s u k v).stopSince = s.stopSince := rfl
@[simp] theorem setChan_aon (s : State) (u k : Nat) (v : Chan) : (setChan s u k v).aon = s.aon := rfl
@[simp] theorem setChan_resets (s : State) (u k : Nat) (v : Chan) : (setChan s u k v).resets = s.resets := rfl
@[simp] theorem setChan_pending (s : State) (u k : Nat) (v : Chan) : (setChan s u k v).pending = s.pending := rfl

@[simp] theorem setCredit_regs (s : State) (u line v : Nat) : (setCredit s u line v).regs = s.regs := rfl
@[simp] theorem setCredit_latches (s : State) (u line v : Nat) : (setCredit s u line v).latches = s.latches := rfl
@[simp] theorem setCredit_reply (s : State) (u line v : Nat) : (setCredit s u line v).reply = s.reply := rfl
@[simp] theorem setCredit_now (s : State) (u line v : Nat) : (setCredit s u line v).now = s.now := rfl
@[simp] theorem setCredit_timeSlew (s : State) (u line v : Nat) : (setCredit s u line v).timeSlew = s.timeSlew := rfl
@[simp] theorem setCredit_slewAt (s : State) (u line v : Nat) : (setCredit s u line v).slewAt = s.slewAt := rfl
@[simp] theorem setCredit_synced (s : State) (u line v : Nat) : (setCredit s u line v).synced = s.synced := rfl
@[simp] theorem setCredit_freeCtr (s : State) (u line v : Nat) : (setCredit s u line v).freeCtr = s.freeCtr := rfl
@[simp] theorem setCredit_nextId (s : State) (u line v : Nat) : (setCredit s u line v).nextId = s.nextId := rfl
@[simp] theorem setCredit_cores (s : State) (u line v : Nat) : (setCredit s u line v).cores = s.cores := rfl
@[simp] theorem setCredit_corePhys (s : State) (u line v : Nat) : (setCredit s u line v).corePhys = s.corePhys := rfl
@[simp] theorem setCredit_kernels (s : State) (u line v : Nat) : (setCredit s u line v).kernels = s.kernels := rfl
@[simp] theorem setCredit_ops (s : State) (u line v : Nat) : (setCredit s u line v).ops = s.ops := rfl
@[simp] theorem setCredit_reqs (s : State) (u line v : Nat) : (setCredit s u line v).reqs = s.reqs := rfl
@[simp] theorem setCredit_hbm (s : State) (u line v : Nat) : (setCredit s u line v).hbm = s.hbm := rfl
@[simp] theorem setCredit_hbmPoison (s : State) (u line v : Nat) : (setCredit s u line v).hbmPoison = s.hbmPoison := rfl
@[simp] theorem setCredit_bufs (s : State) (u line v : Nat) : (setCredit s u line v).bufs = s.bufs := rfl
@[simp] theorem setCredit_host (s : State) (u line v : Nat) : (setCredit s u line v).host = s.host := rfl
@[simp] theorem setCredit_hostPoison (s : State) (u line v : Nat) : (setCredit s u line v).hostPoison = s.hostPoison := rfl
@[simp] theorem setCredit_winStart (s : State) (u line v : Nat) : (setCredit s u line v).winStart = s.winStart := rfl
@[simp] theorem setCredit_winLen (s : State) (u line v : Nat) : (setCredit s u line v).winLen = s.winLen := rfl
@[simp] theorem setCredit_regCounts (s : State) (u line v : Nat) : (setCredit s u line v).regCounts = s.regCounts := rfl
@[simp] theorem setCredit_qosOld (s : State) (u line v : Nat) : (setCredit s u line v).qosOld = s.qosOld := rfl
@[simp] theorem setCredit_missPosted (s : State) (u line v : Nat) : (setCredit s u line v).missPosted = s.missPosted := rfl
@[simp] theorem setCredit_bridgeRun (s : State) (u line v : Nat) : (setCredit s u line v).bridgeRun = s.bridgeRun := rfl
@[simp] theorem setCredit_scrubPos (s : State) (u line v : Nat) : (setCredit s u line v).scrubPos = s.scrubPos := rfl
@[simp] theorem setCredit_tiles (s : State) (u line v : Nat) : (setCredit s u line v).tiles = s.tiles := rfl
@[simp] theorem setCredit_stallAt (s : State) (u line v : Nat) : (setCredit s u line v).stallAt = s.stallAt := rfl
@[simp] theorem setCredit_walks (s : State) (u line v : Nat) : (setCredit s u line v).walks = s.walks := rfl
@[simp] theorem setCredit_tlb (s : State) (u line v : Nat) : (setCredit s u line v).tlb = s.tlb := rfl
@[simp] theorem setCredit_wcache (s : State) (u line v : Nat) : (setCredit s u line v).wcache = s.wcache := rfl
@[simp] theorem setCredit_tracker (s : State) (u line v : Nat) : (setCredit s u line v).tracker = s.tracker := rfl
@[simp] theorem setCredit_invals (s : State) (u line v : Nat) : (setCredit s u line v).invals = s.invals := rfl
@[simp] theorem setCredit_fqHeld (s : State) (u line v : Nat) : (setCredit s u line v).fqHeld = s.fqHeld := rfl
@[simp] theorem setCredit_slots (s : State) (u line v : Nat) : (setCredit s u line v).slots = s.slots := rfl
@[simp] theorem setCredit_gates (s : State) (u line v : Nat) : (setCredit s u line v).gates = s.gates := rfl
@[simp] theorem setCredit_landing (s : State) (u line v : Nat) : (setCredit s u line v).landing = s.landing := rfl
@[simp] theorem setCredit_evHeld (s : State) (u line v : Nat) : (setCredit s u line v).evHeld = s.evHeld := rfl
@[simp] theorem setCredit_rings (s : State) (u line v : Nat) : (setCredit s u line v).rings = s.rings := rfl
@[simp] theorem setCredit_armed (s : State) (u line v : Nat) : (setCredit s u line v).armed = s.armed := rfl
@[simp] theorem setCredit_msixDue (s : State) (u line v : Nat) : (setCredit s u line v).msixDue = s.msixDue := rfl
@[simp] theorem setCredit_msixLast (s : State) (u line v : Nat) : (setCredit s u line v).msixLast = s.msixLast := rfl
@[simp] theorem setCredit_msix (s : State) (u line v : Nat) : (setCredit s u line v).msix = s.msix := rfl
@[simp] theorem setCredit_instars (s : State) (u line v : Nat) : (setCredit s u line v).instars = s.instars := rfl
@[simp] theorem setCredit_instarAt (s : State) (u line v : Nat) : (setCredit s u line v).instarAt = s.instarAt := rfl
@[simp] theorem setCredit_instarDue (s : State) (u line v : Nat) : (setCredit s u line v).instarDue = s.instarDue := rfl
@[simp] theorem setCredit_silkMsgs (s : State) (u line v : Nat) : (setCredit s u line v).silkMsgs = s.silkMsgs := rfl
@[simp] theorem setCredit_silkWaiters (s : State) (u line v : Nat) : (setCredit s u line v).silkWaiters = s.silkWaiters := rfl
@[simp] theorem setCredit_silkReplies (s : State) (u line v : Nat) : (setCredit s u line v).silkReplies = s.silkReplies := rfl
@[simp] theorem setCredit_silkSent (s : State) (u line v : Nat) : (setCredit s u line v).silkSent = s.silkSent := rfl
@[simp] theorem setCredit_ports (s : State) (u line v : Nat) : (setCredit s u line v).ports = s.ports := rfl
@[simp] theorem setCredit_linkIn (s : State) (u line v : Nat) : (setCredit s u line v).linkIn = s.linkIn := rfl
@[simp] theorem setCredit_linkReqs (s : State) (u line v : Nat) : (setCredit s u line v).linkReqs = s.linkReqs := rfl
@[simp] theorem setCredit_linkRr (s : State) (u line v : Nat) : (setCredit s u line v).linkRr = s.linkRr := rfl
@[simp] theorem setCredit_peers (s : State) (u line v : Nat) : (setCredit s u line v).peers = s.peers := rfl
@[simp] theorem setCredit_custody (s : State) (u line v : Nat) : (setCredit s u line v).custody = s.custody := rfl
@[simp] theorem setCredit_custOp (s : State) (u line v : Nat) : (setCredit s u line v).custOp = s.custOp := rfl
@[simp] theorem setCredit_colls (s : State) (u line v : Nat) : (setCredit s u line v).colls = s.colls := rfl
@[simp] theorem setCredit_bootNonce (s : State) (u line v : Nat) : (setCredit s u line v).bootNonce = s.bootNonce := rfl
@[simp] theorem setCredit_lastHello (s : State) (u line v : Nat) : (setCredit s u line v).lastHello = s.lastHello := rfl
@[simp] theorem setCredit_lastAdvert (s : State) (u line v : Nat) : (setCredit s u line v).lastAdvert = s.lastAdvert := rfl
@[simp] theorem setCredit_lastTime (s : State) (u line v : Nat) : (setCredit s u line v).lastTime = s.lastTime := rfl
@[simp] theorem setCredit_imagos (s : State) (u line v : Nat) : (setCredit s u line v).imagos = s.imagos := rfl
@[simp] theorem setCredit_verif (s : State) (u line v : Nat) : (setCredit s u line v).verif = s.verif := rfl
@[simp] theorem setCredit_leaseTerms (s : State) (u line v : Nat) : (setCredit s u line v).leaseTerms = s.leaseTerms := rfl
@[simp] theorem setCredit_poolFreed (s : State) (u line v : Nat) : (setCredit s u line v).poolFreed = s.poolFreed := rfl
@[simp] theorem setCredit_ctxs (s : State) (u line v : Nat) : (setCredit s u line v).ctxs = s.ctxs := rfl
@[simp] theorem setCredit_scheds (s : State) (u line v : Nat) : (setCredit s u line v).scheds = s.scheds := rfl
@[simp] theorem setCredit_queues (s : State) (u line v : Nat) : (setCredit s u line v).queues = s.queues := rfl
@[simp] theorem setCredit_cmds (s : State) (u line v : Nat) : (setCredit s u line v).cmds = s.cmds := rfl
@[simp] theorem setCredit_objs (s : State) (u line v : Nat) : (setCredit s u line v).objs = s.objs := rfl
@[simp] theorem setCredit_fenceWaiters (s : State) (u line v : Nat) : (setCredit s u line v).fenceWaiters = s.fenceWaiters := rfl
@[simp] theorem setCredit_fenceOuts (s : State) (u line v : Nat) : (setCredit s u line v).fenceOuts = s.fenceOuts := rfl
@[simp] theorem setCredit_fwq (s : State) (u line v : Nat) : (setCredit s u line v).fwq = s.fwq := rfl
@[simp] theorem setCredit_mail (s : State) (u line v : Nat) : (setCredit s u line v).mail = s.mail := rfl
@[simp] theorem setCredit_instResets (s : State) (u line v : Nat) : (setCredit s u line v).instResets = s.instResets := rfl
@[simp] theorem setCredit_numVfs (s : State) (u line v : Nat) : (setCredit s u line v).numVfs = s.numVfs := rfl
@[simp] theorem setCredit_keyMat (s : State) (u line v : Nat) : (setCredit s u line v).keyMat = s.keyMat := rfl
@[simp] theorem setCredit_cvks (s : State) (u line v : Nat) : (setCredit s u line v).cvks = s.cvks := rfl
@[simp] theorem setCredit_rtc (s : State) (u line v : Nat) : (setCredit s u line v).rtc = s.rtc := rfl
@[simp] theorem setCredit_flash (s : State) (u line v : Nat) : (setCredit s u line v).flash = s.flash := rfl
@[simp] theorem setCredit_power (s : State) (u line v : Nat) : (setCredit s u line v).power = s.power := rfl
@[simp] theorem setCredit_stops (s : State) (u line v : Nat) : (setCredit s u line v).stops = s.stops := rfl
@[simp] theorem setCredit_stopSince (s : State) (u line v : Nat) : (setCredit s u line v).stopSince = s.stopSince := rfl
@[simp] theorem setCredit_aon (s : State) (u line v : Nat) : (setCredit s u line v).aon = s.aon := rfl
@[simp] theorem setCredit_resets (s : State) (u line v : Nat) : (setCredit s u line v).resets = s.resets := rfl
@[simp] theorem setCredit_pending (s : State) (u line v : Nat) : (setCredit s u line v).pending = s.pending := rfl

end Sys2Proof.Machine
end

