-- ==== Sys2Proof/Laws/Regs.lean ====
section
/-!
SUPPORT. Reading registers and fields after they are written.
-/

namespace Sys2Proof.Machine

theorem getR_setR (s : State) (r r' : Reg) (k k' v w w' : Nat) :
    getR (setR s r k v w) r' k' w' = if regKey r k w = regKey r' k' w' then v % 2 ^ 64 else getR s r' k' w' := by
  unfold getR setR
  simp only [mfind_mput]
  by_cases h : regKey r k w = regKey r' k' w' <;> simp [h]

@[simp] theorem getR_setR_same (s : State) (r : Reg) (k v w : Nat) : getR (setR s r k v w) r k w = v % 2 ^ 64 := by
  simp [getR_setR]

theorem getR_lt {s : State} {r : Reg} {k w : Nat} (h : resetOf r k < 2 ^ 64) : getR s r k w < 2 ^ 64 := by
  unfold getR
  cases mfind s.regs (regKey r k w) with
  | none => simpa using h
  | some v => simpa using v.isLt

/-- A field of a number whose bits were replaced. -/
theorem bitsOf_setBits {v lo w x : Nat} : bitsOf (setBits v lo w x) lo w = x % 2 ^ w := by
  have h1 : v = v % 2 ^ lo + 2 ^ lo * (v / 2 ^ lo % 2 ^ w) + 2 ^ lo * 2 ^ w * (v / 2 ^ lo / 2 ^ w) := by
    have a := Nat.mod_add_div v (2 ^ lo)
    have b := Nat.mod_add_div (v / 2 ^ lo) (2 ^ w)
    calc v = v % 2 ^ lo + 2 ^ lo * (v / 2 ^ lo) := a.symm
      _ = v % 2 ^ lo + 2 ^ lo * (v / 2 ^ lo % 2 ^ w + 2 ^ w * (v / 2 ^ lo / 2 ^ w)) := by rw [b]
      _ = _ := by rw [Nat.mul_add, ← Nat.add_assoc, Nat.mul_assoc]
  have h2 : setBits v lo w x = v % 2 ^ lo + 2 ^ lo * (x % 2 ^ w + 2 ^ w * (v / 2 ^ lo / 2 ^ w)) := by
    unfold setBits bitsOf
    have : v - v / 2 ^ lo % 2 ^ w * 2 ^ lo = v % 2 ^ lo + 2 ^ lo * 2 ^ w * (v / 2 ^ lo / 2 ^ w) := by
      rw [Nat.mul_comm (v / 2 ^ lo % 2 ^ w)]
      omega
    rw [this, Nat.mul_add, Nat.mul_comm (x % 2 ^ w), Nat.mul_assoc]
    omega
  unfold bitsOf
  rw [h2, Nat.add_mul_div_left _ _ (Nat.two_pow_pos lo), Nat.div_eq_of_lt (Nat.mod_lt _ (Nat.two_pow_pos lo)), Nat.zero_add,
    Nat.add_mul_mod_self_left, Nat.mod_mod]

/-- A field that lies elsewhere keeps its value. -/
theorem bitsOf_setBits_off {v lo w x lo' w' : Nat} (h : lo' + w' ≤ lo ∨ lo + w ≤ lo') :
    bitsOf (setBits v lo w x) lo' w' = bitsOf v lo' w' := by
  have hd := Nat.mod_add_div v (2 ^ lo)
  have hm := Nat.mod_add_div (v / 2 ^ lo) (2 ^ w)
  have h2 : setBits v lo w x = v % 2 ^ lo + 2 ^ lo * (x % 2 ^ w + 2 ^ w * (v / 2 ^ lo / 2 ^ w)) := by
    unfold setBits bitsOf
    have h1 : v = v % 2 ^ lo + 2 ^ lo * (v / 2 ^ lo % 2 ^ w) + 2 ^ lo * 2 ^ w * (v / 2 ^ lo / 2 ^ w) := by
      calc v = v % 2 ^ lo + 2 ^ lo * (v / 2 ^ lo) := hd.symm
        _ = v % 2 ^ lo + 2 ^ lo * (v / 2 ^ lo % 2 ^ w + 2 ^ w * (v / 2 ^ lo / 2 ^ w)) := by rw [hm]
        _ = _ := by rw [Nat.mul_add, ← Nat.add_assoc, Nat.mul_assoc]
    have : v - v / 2 ^ lo % 2 ^ w * 2 ^ lo = v % 2 ^ lo + 2 ^ lo * 2 ^ w * (v / 2 ^ lo / 2 ^ w) := by
      rw [Nat.mul_comm (v / 2 ^ lo % 2 ^ w)]
      omega
    rw [this, Nat.mul_add, Nat.mul_comm (x % 2 ^ w), Nat.mul_assoc]
    omega
  rcases h with h | h
  · obtain ⟨k, rfl⟩ : ∃ k, lo = lo' + w' + k := ⟨lo - (lo' + w'), by omega⟩
    have hlow : setBits v (lo' + w' + k) w x % 2 ^ (lo' + w') = v % 2 ^ (lo' + w') := by
      rw [h2]
      have e : 2 ^ (lo' + w' + k) = 2 ^ (lo' + w') * 2 ^ k := Nat.pow_add ..
      rw [e, Nat.mul_assoc, Nat.add_mul_mod_self_left, ← e, Nat.mod_mod_of_dvd _ (by rw [e]; exact Nat.dvd_mul_right ..)]
    have key : ∀ y, bitsOf y lo' w' = y % 2 ^ (lo' + w') / 2 ^ lo' := by
      intro y
      unfold bitsOf
      rw [Nat.pow_add, Nat.mod_mul_right_div_self]
    rw [key, key, hlow]
  · obtain ⟨k, rfl⟩ : ∃ k, lo' = lo + w + k := ⟨lo' - (lo + w), by omega⟩
    have key : ∀ y, bitsOf y (lo + w + k) w' = y / 2 ^ lo / 2 ^ w / 2 ^ k % 2 ^ w' := by
      intro y
      unfold bitsOf
      rw [Nat.pow_add, Nat.pow_add, ← Nat.div_div_eq_div_mul, ← Nat.div_div_eq_div_mul]
    rw [key, key, h2, Nat.add_mul_div_left _ _ (Nat.two_pow_pos lo), Nat.div_eq_of_lt (Nat.mod_lt _ (Nat.two_pow_pos lo)),
      Nat.zero_add, Nat.add_mul_div_left _ _ (Nat.two_pow_pos w), Nat.div_eq_of_lt (Nat.mod_lt _ (Nat.two_pow_pos w)), Nat.zero_add]

theorem bitsOf_mod {v lo w n : Nat} (h : lo + w ≤ n) : bitsOf (v % 2 ^ n) lo w = bitsOf v lo w := by
  have key : ∀ y, bitsOf y lo w = y % 2 ^ (lo + w) / 2 ^ lo := by
    intro y
    unfold bitsOf
    rw [Nat.pow_add, Nat.mod_mul_right_div_self]
  rw [key, key, Nat.mod_mod_of_dvd _ (Nat.pow_dvd_pow 2 h)]

/-- A field after it is set. -/
theorem getF_setF (s : State) (f : RF) (k v w : Nat) (h : f.lo + f.width ≤ 64) :
    getF (setF s f k v w) f k w = v % 2 ^ f.width := by
  unfold getF setF
  rw [getR_setR_same, bitsOf_mod h, bitsOf_setBits]

/-- A field of another register, or another member, after a field is set. -/
theorem getF_setF_key (s : State) (f f' : RF) (k k' v w w' : Nat) (h : regKey f.reg k w ≠ regKey f'.reg k' w') :
    getF (setF s f k v w) f' k' w' = getF s f' k' w' := by
  unfold getF setF
  rw [getR_setR, if_neg h]

/-- Another field of the same register after a field is set. -/
theorem getF_setF_off (s : State) (f f' : RF) (k v w : Nat) (hr : f'.reg = f.reg) (h : f'.lo + f'.width ≤ 64)
    (ho : f'.lo + f'.width ≤ f.lo ∨ f.lo + f.width ≤ f'.lo) : getF (setF s f k v w) f' k w = getF s f' k w := by
  unfold getF setF
  rw [hr, getR_setR_same, bitsOf_mod h, bitsOf_setBits_off ho]

theorem getF_setR_key (s : State) (r : Reg) (f' : RF) (k k' v w w' : Nat) (h : regKey r k w ≠ regKey f'.reg k' w') :
    getF (setR s r k v w) f' k' w' = getF s f' k' w' := by
  unfold getF
  rw [getR_setR, if_neg h]

theorem getR_setF_key (s : State) (f : RF) (r : Reg) (k k' v w w' : Nat) (h : regKey f.reg k w ≠ regKey r k' w') :
    getR (setF s f k v w) r k' w' = getR s r k' w' := by
  unfold setF
  rw [getR_setR, if_neg h]

theorem getR_countR_same (s : State) (r : Reg) (k n w : Nat) : getR (countR s r k n w) r k w = (getR s r k w + n) % 2 ^ 64 := by
  unfold countR
  rw [getR_setR_same, Nat.mod_mod]

theorem getR_countR_key (s : State) (r r' : Reg) (k k' n w w' : Nat) (h : regKey r k w ≠ regKey r' k' w') :
    getR (countR s r k n w) r' k' w' = getR s r' k' w' := by
  unfold countR
  rw [getR_setR, if_neg h]

theorem getF_countR_key (s : State) (r : Reg) (f : RF) (k k' n w w' : Nat) (h : regKey r k w ≠ regKey f.reg k' w') :
    getF (countR s r k n w) f k' w' = getF s f k' w' := by
  unfold countR
  rw [getF_setR_key _ _ _ _ _ _ _ _ h]

end Sys2Proof.Machine
end

