-- ==== Sys2Proof/Laws/Threads.lean ====
section
/-!
SUPPORT. Laws of groups and of the shape of a thread instruction: what it writes, what the sequencer does, what it leaves.
-/

namespace Sys2Proof.Machine

theorem sKey_eq {n n' l l' : Nat} (h : l < 32) (h' : l' < 32) : sKey n l = sKey n' l' ↔ n = n' ∧ l = l' := by
  unfold sKey; omega

theorem mget_wrS (m : SMap Word) (n : Nat) (mask : Word) (f : Nat → Word) (k n' l' : Nat) (hk : k ≤ 32) (hl : l' < 32) :
    mget 0 (wrS m n mask f k) (sKey n' l') =
      if n = n' ∧ l' < k ∧ mask.getLsbD l' = true then f l' else mget 0 m (sKey n' l') := by
  induction k with
  | zero => simp [wrS]
  | succ k ih =>
    have ih := ih (by omega)
    simp only [wrS]
    split
    · rename_i hb
      rw [mget_mset, ih]
      by_cases h : n = n' ∧ k = l'
      · obtain ⟨rfl, rfl⟩ := h; simp [hb]
      · have : ¬ sKey n k = sKey n' l' := by rw [sKey_eq (by omega) hl]; exact h
        rw [if_neg this]
        have e : (n = n' ∧ l' < k ∧ mask.getLsbD l' = true) ↔ (n = n' ∧ l' < k + 1 ∧ mask.getLsbD l' = true) := by
          constructor
          · rintro ⟨a, b, c⟩; exact ⟨a, by omega, c⟩
          · rintro ⟨a, b, c⟩
            refine ⟨a, ?_, c⟩
            rcases Nat.lt_or_ge l' k with h' | h'
            · exact h'
            · exact absurd ⟨a, by omega⟩ h
        simp [e]
    · rename_i hb
      rw [ih]
      have e : (n = n' ∧ l' < k ∧ mask.getLsbD l' = true) ↔ (n = n' ∧ l' < k + 1 ∧ mask.getLsbD l' = true) := by
        constructor
        · rintro ⟨a, b, c⟩; exact ⟨a, by omega, c⟩
        · rintro ⟨a, b, c⟩
          refine ⟨a, ?_, c⟩
          rcases Nat.lt_or_ge l' k with h' | h'
          · exact h'
          · have : l' = k := by omega
            subst this; exact absurd c hb
      simp [e]

theorem maskOf_bit (f : Nat → Bool) (k l : Nat) (hk : k ≤ 32) (hl : l < 32) :
    (maskOf f k).getLsbD l = (decide (l < k) && f l) := by
  induction k with
  | zero => simp [maskOf]
  | succ k ih =>
    simp only [maskOf, BitVec.getLsbD_or, ih (by omega)]
    by_cases h : l = k
    · subst h
      split
      · rename_i hf
        simp only [lt_irrefl, decide_false, Bool.false_and, Bool.false_or, BitVec.getLsbD_ofNat, hl, decide_true,
          Bool.true_and, Nat.testBit_two_pow_self, Nat.lt_succ_self, hf]
      · rename_i hf; simp [hf]
    · have e : decide (l < k + 1) = decide (l < k) := by simp; omega
      rw [e]
      split
      · simp only [BitVec.getLsbD_ofNat, hl, decide_true, Bool.true_and,
          Nat.testBit_two_pow_of_ne (Ne.symm h), Bool.or_false]
      · simp

theorem mask_zero_bit (m : Word) (h : m = 0) (l : Nat) : m.getLsbD l = false := by subst h; simp

/-- What writing a register of any kind does (R69, R78, R81). -/
theorem wr_wrote (g : Group) (d : Nat) (m : Word) (v : Nat → Word) : Wrote g (wr g d m v) d m v := by
  by_cases h0 : m = 0
  · subst h0
    have e : wr g d 0 v = g := by simp [wr]
    rw [e]
    constructor <;> intros <;> simp
  · by_cases h1 : d < 0x40
    · have e : wr g d m v = { g with sregs := wrS g.sregs d m v 32 } := by
        rw [wr, if_neg h0]; simp only [rkind, if_pos h1]
      rw [e]
      constructor
      · intro n l hn hl
        simp only [mget_wrS g.sregs d m v 32 n l (le_refl _) hl, hl, true_and]
      · intro n hn; simp only [uReg]; rw [if_neg (by omega)]
      · intro n hn; simp only [aReg]; rw [if_neg (by omega)]
      · intro n l hn hl; exact (if_neg (by rintro ⟨h, -⟩; omega)).symm
    · by_cases h2 : d < 0x60
      · have e : wr g d m v = { g with uregs := mset 0 g.uregs (d - 0x40) (v (lowLane m)) } := by
          rw [wr, if_neg h0]; simp only [rkind, if_neg h1, if_pos h2]
        rw [e]
        constructor
        · intro n l hn hl; exact (if_neg (by rintro ⟨h, h'⟩; omega)).symm
        · intro n hn
          simp only [uReg, mget_mset]
          by_cases h : d = 0x40 + n
          · subst h; rw [if_pos (by omega), if_pos ⟨rfl, h0⟩]
          · rw [if_neg (by omega), if_neg (by tauto)]
        · intro n hn; simp only [aReg]; rw [if_neg (by omega)]
        · intro n l hn hl; exact (if_neg (by rintro ⟨h, -⟩; omega)).symm
      · by_cases h3 : d < 0x70
        · have e : wr g d m v = { g with aregs := mset 0 g.aregs (d - 0x60) (BitVec.setWidth 64 (v (lowLane m))) } := by
            rw [wr, if_neg h0]; simp only [rkind, if_neg h1, if_neg h2, if_pos h3]
          rw [e]
          constructor
          · intro n l hn hl; exact (if_neg (by rintro ⟨h, h'⟩; omega)).symm
          · intro n hn; simp only [uReg]; rw [if_neg (by omega)]
          · intro n hn
            simp only [aReg, mget_mset]
            by_cases h : d = 0x60 + n
            · subst h; rw [if_pos (by omega), if_pos ⟨rfl, h0⟩]
            · rw [if_neg (by omega), if_neg (by tauto)]
          · intro n l hn hl; exact (if_neg (by rintro ⟨h, -⟩; omega)).symm
        · by_cases h4 : d < 0x78
          · have e : wr g d m v = wrP g (d - 0x70) m (maskOf (fun l => (v l).getLsbD 0) 32) := by
              rw [wr, if_neg h0]; simp only [rkind, if_neg h1, if_neg h2, if_neg h3, if_pos h4]
            rw [e]
            by_cases h5 : d - 0x70 = 0
            · have : d = 0x70 := by omega
              subst this
              have e2 : wrP g 0 m (maskOf (fun l => (v l).getLsbD 0) 32) = g := by simp [wrP]
              simp only [Nat.sub_self, e2]
              constructor
              · intro n l hn hl; exact (if_neg (by rintro ⟨h, h'⟩; omega)).symm
              · intro n hn; rw [if_neg (by omega)]
              · intro n hn; rw [if_neg (by omega)]
              · intro n l hn hl; exact (if_neg (by rintro ⟨h, h'⟩; omega)).symm
            · have e2 : ∀ b, wrP g (d - 0x70) m b =
                  { g with pregs := mset 0 g.pregs (d - 0x70) ((pMask g (d - 0x70) &&& ~~~ m) ||| (b &&& m)) } := by
                intro b; simp only [wrP, if_neg h5]
              rw [e2]
              constructor
              · intro n l hn hl; exact (if_neg (by rintro ⟨h, h'⟩; omega)).symm
              · intro n hn; simp only [uReg]; rw [if_neg (by omega)]
              · intro n hn; simp only [aReg]; rw [if_neg (by omega)]
              · intro n l hn hl
                by_cases hn0 : n = 0
                · subst hn0; rw [if_neg (by omega)]; simp [pMask]
                · by_cases h : d = 0x70 + n
                  · have hd : d - 0x70 = n := by omega
                    simp only [hd]
                    simp only [pMask, if_neg hn0, mget_mset, if_true]
                    simp only [BitVec.getLsbD_or, BitVec.getLsbD_and, BitVec.getLsbD_not,
                      maskOf_bit _ 32 l (le_refl _) hl, hl, decide_true, Bool.true_and]
                    cases hb : m.getLsbD l <;> simp [h, hn0]
                  · rw [if_neg (by tauto)]
                    simp only [pMask, if_neg hn0, mget_mset]
                    rw [if_neg (by omega)]
          · have e : wr g d m v = g := by
              rw [wr, if_neg h0]; simp only [rkind, if_neg h1, if_neg h2, if_neg h3, if_neg h4]
              by_cases h6 : d < 0x7F <;> simp [h6]
            rw [e]
            constructor
            · intro n l hn hl; exact (if_neg (by rintro ⟨h, h'⟩; omega)).symm
            · intro n hn; rw [if_neg (by omega)]
            · intro n hn; rw [if_neg (by omega)]
            · intro n l hn hl; exact (if_neg (by rintro ⟨h, h'⟩; omega)).symm

/-- What writing a p register's lanes does. -/
theorem wrP_wrote (g : Group) (n : Nat) (hn : n < 8) (m b : Word) :
    Wrote g (wrP g n m b) (0x70 + n) m (fun l => if b.getLsbD l then 1 else 0) := by
  by_cases h5 : n = 0
  · subst h5
    have e2 : wrP g 0 m b = g := by simp [wrP]
    rw [e2]
    constructor
    · intro n l hn hl; exact (if_neg (by rintro ⟨h, h'⟩; omega)).symm
    · intro n hn; rw [if_neg (by omega)]
    · intro n hn; rw [if_neg (by omega)]
    · intro n l hn hl; exact (if_neg (by rintro ⟨h, h'⟩; omega)).symm
  · have e2 : wrP g n m b = { g with pregs := mset 0 g.pregs n ((pMask g n &&& ~~~ m) ||| (b &&& m)) } := by
      simp only [wrP, if_neg h5]
    rw [e2]
    constructor
    · intro n l hn hl; exact (if_neg (by rintro ⟨h, h'⟩; omega)).symm
    · intro n hn; simp only [uReg]; rw [if_neg (by omega)]
    · intro n hn; simp only [aReg]; rw [if_neg (by omega)]
    · intro k l hk hl
      by_cases hk0 : k = 0
      · subst hk0; rw [if_neg (by omega)]; simp [pMask]
      · by_cases h : k = n
        · subst h
          simp only [pMask, if_neg hk0, mget_mset, if_true]
          simp only [BitVec.getLsbD_or, BitVec.getLsbD_and, BitVec.getLsbD_not, hl, decide_true, Bool.true_and]
          cases hb : m.getLsbD l <;> cases hc : b.getLsbD l <;> simp [hk0]
        · rw [if_neg (by omega)]
          simp only [pMask, if_neg hk0, mget_mset]
          rw [if_neg (by omega)]

/-- Writing a register changes nothing but registers. -/
theorem wr_kept (g : Group) (d : Nat) (m : Word) (v : Nat → Word) :
    wr g d m v = { g with sregs := (wr g d m v).sregs, uregs := (wr g d m v).uregs, aregs := (wr g d m v).aregs,
                          pregs := (wr g d m v).pregs } := by
  unfold wr wrP
  repeat' split
  all_goals rfl

/-! ## Cores and groups -/

@[simp] theorem core_setCore (s : State) (c x : Nat) (k : Core) : core (setCore s c k) x = if c = x then k else core s x := by
  simp [core, setCore]

@[simp] theorem core_setBatch (s : State) (c x : Nat) (b : Option Batch) :
    core (setBatch s c b) x = if c = x then { core s c with batch := b } else core s x := by
  simp [setBatch, modCore]

@[simp] theorem batchOf_setBatch (s : State) (c x : Nat) (b : Option Batch) :
    batchOf (setBatch s c b) x = if c = x then b else batchOf s x := by
  simp only [batchOf, core_setBatch]; split <;> rfl

theorem groupOf_eq {s : State} {c : Nat} {b : Batch} (h : batchOf s c = some b) (g : Nat) :
    groupOf s c g = mfind b.groups g := by simp [groupOf, h]

theorem readyGroup_some {s : State} {c g : Nat} {gr : Group} (h : readyGroup s c g = some gr) :
    ∃ b, batchOf s c = some b ∧ mfind b.groups g = some gr ∧ gr.wait = .ready ∧ gr.ended = false
      ∧ b.started = true ∧ b.why = .running ∧ issueStopped s c = false := by
  unfold readyGroup at h
  split at h
  · exact absurd h (by simp)
  · rename_i b hb
    split at h
    · rename_i hc
      split at h
      · exact absurd h (by simp)
      · rename_i g' hg
        split at h
        · rename_i hw
          simp only [Option.some.injEq] at h
          subst h
          simp only [Bool.and_eq_true, decide_eq_true_eq, Bool.not_eq_true'] at hc hw
          exact ⟨b, hb, hg, hw.1, hw.2, hc.1.1, hc.1.2, hc.2⟩
        · exact absurd h (by simp)
    · exact absurd h (by simp)

/-- The effect of `retire`: the group settles, and nothing else changes but the progress tick and the kernel's FLAGS sum. -/
theorem retire_eq {s : State} {c g : Nat} {b : Batch} (h : batchOf s c = some b) (gr : Group) :
    ∃ k, retire s c g gr = { s with cores := mput s.cores c { core s c with batch := some { b with groups := mput b.groups g (settle gr), progress := s.now } }, kernels := k }
      ∧ ∀ x, { mget Kernel.empty k x with flagSum := 0 } = { kernel s x with flagSum := 0 } := by
  have hp : progress (setGroup s c g (settle gr)) c =
      { s with cores := mput (mput s.cores c { core s c with batch := some { b with groups := mput b.groups g (settle gr) } }) c { core s c with batch := some { b with groups := mput b.groups g (settle gr), progress := s.now } } } := by
    have e1 : setGroup s c g (settle gr) = setBatch s c (some { b with groups := mput b.groups g (settle gr) }) := by
      simp [setGroup, h]
    have e2 : batchOf (setBatch s c (some { b with groups := mput b.groups g (settle gr) })) c =
        some { b with groups := mput b.groups g (settle gr) } := by simp
    rw [e1, progress, e2]
    simp only [setBatch, modCore, setCore, core, mget_mput, if_true]
  have hm : ∀ v w, mput (mput s.cores c v) c w = mput s.cores c w := by
    intro v w
    induction s.cores with
    | nil => simp [mput]
    | cons e m ih =>
      obtain ⟨k, x⟩ := e
      by_cases h1 : c < k
      · simp [mput, h1]
      · by_cases h2 : c = k
        · subst h2; simp [mput]
        · simp only [mput, if_neg h1, if_neg h2, ih]
  rw [hm] at hp
  unfold retire
  simp only [hp, h]
  split
  · refine ⟨_, rfl, ?_⟩
    intro x
    simp only [kernel, mget_mput]
    split
    · rename_i hx; subst hx; rfl
    · rfl
  · exact ⟨s.kernels, rfl, fun x => rfl⟩

theorem groupOf_retire {s : State} {c g : Nat} {b : Batch} (h : batchOf s c = some b) (gr : Group) (x : Nat) :
    groupOf (retire s c g gr) c x = if g = x then some (settle gr) else groupOf s c x := by
  obtain ⟨k, hk, -⟩ := retire_eq (g := g) h gr
  rw [hk]
  simp only [groupOf, batchOf, core, mget_mput, if_true, Option.bind_some, mfind_mput]
  have h' : (mget Core.empty s.cores c).batch = some b := h
  simp [h']

theorem retire_only {s : State} {c g : Nat} {b : Batch} (h : batchOf s c = some b) (gr : Group) :
    OnlyGroup s (retire s c g gr) c g := by
  obtain ⟨k, hk, hf⟩ := retire_eq (g := g) h gr
  refine ⟨?_, ?_, ?_, ?_, ?_⟩
  · rw [hk]
  · intro x hx
    rw [hk]; simp only [core, mget_mput]; rw [if_neg (Ne.symm hx)]
  · rw [hk]; simp [core]
  · intro x hx
    rw [groupOf_retire h, if_neg (Ne.symm hx)]
  · intro x; rw [hk]; exact hf x

theorem settleFrom_kept (g : Group) (st : List RStackEntry) :
    (settleFrom g st).sregs = g.sregs ∧ (settleFrom g st).uregs = g.uregs ∧ (settleFrom g st).pregs = g.pregs ∧
    (settleFrom g st).aregs = g.aregs ∧ (settleFrom g st).flags = g.flags ∧ (settleFrom g st).lin = g.lin ∧
    (settleFrom g st).exited = g.exited ∧ (settleFrom g st).pend = g.pend ∧ (settleFrom g st).wait = g.wait := by
  induction st generalizing g with
  | nil => unfold settleFrom; split <;> simp
  | cons e st ih =>
    unfold settleFrom
    split
    · have := ih { g with pc := e.pc, active := e.mask &&& ~~~ g.exited, rpc := e.rpc }
      simpa using this
    · simp

theorem settle_kept (g : Group) :
    (settle g).sregs = g.sregs ∧ (settle g).uregs = g.uregs ∧ (settle g).pregs = g.pregs ∧
    (settle g).aregs = g.aregs ∧ (settle g).flags = g.flags ∧ (settle g).lin = g.lin ∧
    (settle g).exited = g.exited ∧ (settle g).pend = g.pend ∧ (settle g).wait = g.wait := settleFrom_kept g g.stack

/-- A group away from its rejoin point, with an active lane, is settled (R82). -/
theorem settle_id (g : Group) (h1 : g.pc ≠ g.rpc) (h2 : g.active ≠ 0) : settle g = g := by
  have hc : ¬ (decide (g.pc = g.rpc) || decide (g.active = 0)) = true := by
    rw [decide_eq_false h1, decide_eq_false h2]; decide
  unfold settle settleFrom
  split
  · rename_i hs
    rw [if_neg hc, ← hs]
  · rename_i hs
    rw [if_neg hc, ← hs]

/-- An instruction that issues acts on its group. -/
theorem issue_acts {s : State} {t : Th} {uses : List Nat} {g : Group} (h : Issues s t uses g) (act : Group → State) :
    issue s t true uses act = act g := by
  have h1 := h.ready; have h2 := h.code; have h3 := h.line; have h4 := h.free
  unfold issue
  simp only [h1, h2, h3, h4]
  simp

/-- An instruction that only changes its group: the group it leaves, and that nothing else changes. -/
theorem issueLocal_spec {s : State} {t : Th} {uses : List Nat} {g : Group} (h : Issues s t uses g) (f : Group → Group) :
    groupOf (issueLocal s t true uses f) t.core t.grp = some (settle { f g with pc := nextPc g }) ∧
    OnlyGroup s (issueLocal s t true uses f) t.core t.grp := by
  obtain ⟨b, hb, -⟩ := readyGroup_some h.ready
  unfold issueLocal
  rw [issue_acts h]
  refine ⟨?_, retire_only hb _⟩
  rw [groupOf_retire hb]; simp

/-- Settling keeps what was written. -/
theorem Wrote.settle {g g' : Group} {d : Nat} {m : Word} {v : Nat → Word} (pc : DWord) (h : Wrote g g' d m v) :
    Wrote g (settle { g' with pc := pc }) d m v := by
  obtain ⟨h1, h2, h3, h4, -⟩ := settle_kept { g' with pc := pc }
  constructor
  · intro n l hn hl; rw [h1]; exact h.sreg n l hn hl
  · intro n hn; simp only [uReg, h2]; exact h.ureg n hn
  · intro n hn; simp only [aReg, h4]; exact h.areg n hn
  · intro n l hn hl; simp only [pMask, h3]; exact h.preg n l hn hl

/-- Going on from a group that differs in registers and flags only. -/
theorem advanced_settle {g g' : Group} {f : Flags} (pc : DWord)
    (hf : g'.flags = g.flags ||| f) (hk : g'.lin = g.lin ∧ g'.exited = g.exited ∧ g'.pend = g.pend)
    (hs : g'.active = g.active ∧ g'.stack = g.stack ∧ g'.rpc = g.rpc ∧ g'.ended = g.ended) :
    Advanced g (Sys2Proof.Machine.settle { g' with pc := pc }) f pc := by
  obtain ⟨h1, h2, h3, h4, h5, h6, h7, h8, h9⟩ := settle_kept { g' with pc := pc }
  refine ⟨by rw [h5]; exact hf, ⟨by rw [h6]; exact hk.1, by rw [h7]; exact hk.2.1, by rw [h8]; exact hk.2.2⟩, ?_⟩
  intro hp ha
  rw [settle_id]
  · exact ⟨rfl, hs⟩
  · simpa [hs.2.2.1] using hp
  · simpa [hs.1] using ha

end Sys2Proof.Machine
end

