-- ==== Sys2Proof/Laws/SInstr.lean ====
section
/-!
SUPPORT. The law of the integer instructions' shape.
-/

namespace Sys2Proof.Machine

/-- What an instruction that computes D in its executing lanes does. -/
theorem sAlu_spec {s : State} {t : Th} {g : Group} (h : Issues s t (sUses t) g) (hl : sLegal t = true)
    (f : Word → Word → Word) :
    ∃ g', groupOf (sAlu s t f) t.core t.grp = some g'
      ∧ Wrote g g' (fD t) (execMask g t) (fun l => f (rd g l (fA t)) (opB g t l))
      ∧ Advanced g g' 0 (nextPc g)
      ∧ OnlyGroup s (sAlu s t f) t.core t.grp := by
  unfold sAlu
  rw [hl]
  obtain ⟨h1, h2⟩ := issueLocal_spec h (fun g => wr g (fD t) (execMask g t) (fun l => f (rd g l (fA t)) (opB g t l)))
  refine ⟨_, h1, (wr_wrote g _ _ _).settle _, ?_, h2⟩
  rw [wr_kept]
  exact advanced_settle _ (by simp) ⟨rfl, rfl, rfl⟩ ⟨rfl, rfl, rfl, rfl⟩

end Sys2Proof.Machine
end

