-- ==== Sys2Proof/Laws/Wire.lean ====
section
/-!
SUPPORT. The bytes of messages and flit headers on a Broulo Link.
-/

namespace Sys2Proof.Machine

theorem leBytes_length (n x : Nat) : (leBytes n x).length = n := by
  induction n generalizing x with
  | zero => rfl
  | succ n ih => simp [leBytes, ih]

/-- A message takes its 32-byte header, 16 bytes of poison mask if it has one, and its data (R413). -/
theorem wireBytes_length (m : WireMsg) :
    (wireBytes m).length = 32 + (if m.poison = 0 then 0 else 16) + m.data.length := by
  unfold wireBytes
  simp only [List.length_append, leBytes_length]
  split <;> simp [leBytes_length]

/-- The header of a flit before its CHECK is eight bytes (R409). -/
theorem flitHeader_length (f : Flit) : (flitHeader f).length = 8 := leBytes_length 8 _

/-- A message takes as many flits as its bytes fill bodies of 240 bytes (R409, R413). -/
theorem flitsOf_eq (s : State) (m : LinkMsg) : flitsOf m = ((wireBytes (m.onWire s)).length + 239) / 240 := by
  rw [wireBytes_length]
  rfl

end Sys2Proof.Machine
end

