-- ==== Sys2Proof/WellFormed.lean ====
section
/-!
DEFINITION. Well-formed commands: every operand names a thing the chip has (R24 to R32, R68, R80, R252, R472) and every value fits
the place it comes from (R409, R413, R539). The meanings are total and rest on none of it.
-/

namespace Sys2Proof

/-- The bounds of operands: logical cores, wings, group slots of a core, ports, memory slices, regulator domains, instances,
windows, movers, reset units, and units of diapause. -/
def coreOk (c : Nat) : Bool := c < 144
def wingOk (w : Nat) : Bool := w < 8
def groupOk (g : Nat) : Bool := g < 256
def portOk (p : Nat) : Bool := p < 32
def sliceOk (m : Nat) : Bool := m < 256
def domainOk (d : Nat) : Bool := d < 36
def instOk (i : Nat) : Bool := i < 32
def windowOk (win : Nat) : Bool := win < 33
def resetOk (u : Nat) : Bool := u < 33
def moverOk (u k : Nat) : Bool := (u < 144 && k < 8) || (256 ≤ u && u < 272 && k < 32)
def sleepOk (u : Nat) : Bool := u < 144 || (256 ≤ u && u < 264)
def bitsOk (w v : Nat) : Bool := v < 2 ^ w

/-- An instruction comes from a group slot of a core. -/
def Th.wf (t : Th) : Bool := coreOk t.core && groupOk t.grp

/-- An upset lies at a 64-bit word. -/
def Upset.wf (u : Upset) : Bool := u.addr % 8 = 0

/-- A message fits the fields of its header (R413). -/
def WireMsg.wf (m : WireMsg) : Bool :=
  bitsOk 8 m.type && bitsOk 3 m.label && bitsOk 3 m.hops && bitsOk 16 m.src && bitsOk 16 m.dest && bitsOk 16 m.epoch && bitsOk 8 m.instar
    && bitsOk 5 m.inst && bitsOk 24 m.deadline && bitsOk 8 m.ageMs && bitsOk 32 m.tag && bitsOk 32 m.aux && bitsOk 64 m.addr
    && decide (m.data.length ≤ 4096) && bitsOk 128 m.poison

/-- A flit fits its fields, and its messages theirs (R409). -/
def Flit.wf (f : Flit) : Bool := bitsOk 12 f.seq && bitsOk 12 f.ack && f.vl < 8 && f.part < 4 && f.cvl < 8 && f.cpart < 4 && bitsOk 7 f.credits && bitsOk 8 f.kepoch
    && f.msgs.all WireMsg.wf

/-- A unit with an instar is one the chip has. -/
def Unit8.wf : Unit8 → Bool
  | .core c => coreOk c
  | .queue q => bitsOk 16 q
  | .slot k => k < 64
  | .inst i => instOk i

/-- A held message at a port is at one the chip has. -/
def HeldMsg.wf : HeldMsg → Bool
  | .atPort p _ => portOk p
  | _ => true

/-- Is a command well formed? -/
def Instr.wf : Instr → Bool
  | .registerWrite _ win off _ v => windowOk win && bitsOk 26 off && bitsOk 64 v
  | .registerSplitRead _ win off _ => windowOk win && bitsOk 26 off
  | .nop t => t.wf
  | .mov t => t.wf
  | .add t => t.wf
  | .sub t => t.wf
  | .mul t => t.wf
  | .mulhi t => t.wf
  | .mulhiu t => t.wf
  | .and t => t.wf
  | .or t => t.wf
  | .xor t => t.wf
  | .andn t => t.wf
  | .shl t => t.wf
  | .shr t => t.wf
  | .sra t => t.wf
  | .min t => t.wf
  | .max t => t.wf
  | .minu t => t.wf
  | .maxu t => t.wf
  | .clz t => t.wf
  | .popc t => t.wf
  | .brev t => t.wf
  | .sel t => t.wf
  | .shfl t => t.wf
  | .ballot t => t.wf
  | .setp _ t => t.wf
  | .predicateLogic _ t => t.wf
  | .aadd t => t.wf
  | .alo t => t.wf
  | .ahi t => t.wf
  | .agetl t => t.wf
  | .ageth t => t.wf
  | .fadd t => t.wf
  | .fsub t => t.wf
  | .fmul t => t.wf
  | .ffma t => t.wf
  | .fmin t => t.wf
  | .fmax t => t.wf
  | .fabs t => t.wf
  | .fneg t => t.wf
  | .fsetp _ t => t.wf
  | .frcp t => t.wf
  | .frsq t => t.wf
  | .fsqrt t => t.wf
  | .fexp2 t => t.wf
  | .flog2 t => t.wf
  | .ftanh t => t.wf
  | .fsigm t => t.wf
  | .cvt t => t.wf
  | .fredadd t => t.wf
  | .fredmax t => t.wf
  | .xlds t ups => t.wf && ups.all Upset.wf
  | .xsts t ups => t.wf && ups.all Upset.wf
  | .xldg t => t.wf
  | .xstg t => t.wf
  | .xatoms t ups => t.wf && ups.all Upset.wf
  | .xatomg t => t.wf
  | .xmov t ups => t.wf && ups.all Upset.wf
  | .xfence t => t.wf
  | .cnop t => t.wf
  | .cbr t => t.wf
  | .cjmp t => t.wf
  | .ccall t => t.wf
  | .cjmpr t => t.wf
  | .cexit t => t.wf
  | .cbar t => t.wf
  | .barrierRelease c n => coreOk c && n < 16
  | .cwait t => t.wf
  | .cwaitSatisfied c g => coreOk c && groupOk g
  | .csleep t => t.wf
  | .csleepExpiry c g => coreOk c && groupOk g
  | .csilkAdd t => t.wf
  | .csilkRead t => t.wf
  | .csilkWaitge t => t.wf
  | .csilkTake t => t.wf
  | .csrd t => t.wf
  | .cswr t => t.wf
  | .cabort t => t.wf
  | .loadDataReturn _ => true
  | .tileTranslated _ => true
  | .ifetchLine c g => coreOk c && groupOk g
  | .ifetchLineReturn c _ => coreOk c
  | .kernelStopDrainEnd _ => true
  | .kernelStopAbort _ => true
  | .batchDeal i => instOk i
  | .batchStart c => coreOk c
  | .batchEnd c => coreOk c
  | .batchPreempt c => coreOk c
  | .batchSaveComplete c => coreOk c
  | .batchRestore i _ => instOk i
  | .mloadw t => t.wf
  | .wblock t => t.wf
  | .wtile t => t.wf
  | .atile t => t.wf
  | .mstream t => t.wf
  | .msparse t => t.wf
  | .mdrain t => t.wf
  | .mEngineBegin c _ ups => coreOk c && ups.all Upset.wf
  | .aChunkArrival c ups => coreOk c && ups.all Upset.wf
  | .matrixRowEntry c => coreOk c
  | .accUpdate c _ => coreOk c
  | .noRowStreamUpdate x => coreOk x.core
  | .slotLoadComplete c ups => coreOk c && ups.all Upset.wf
  | .drainRowRead c _ => coreOk c
  | .drainRowWrite c => coreOk c
  | .mInstrComplete c e => coreOk c && e < 3
  | .scratchEccWriteback c => coreOk c
  | .descFront u k => moverOk u k
  | .descTranslated u k => moverOk u k
  | .burstStart u => moverOk u 0
  | .moverReadReturn u k ups => moverOk u k && ups.all Upset.wf
  | .descComplete u k => moverOk u k
  | .peerAccessTimeout u k => moverOk u k
  | .bstHeaderReturn u k => moverOk u k
  | .bstTileRow u k => moverOk u k
  | .gateDispatchSelect w => wingOk w
  | .route w ups => wingOk w && ups.all Upset.wf
  | .combine w => wingOk w
  | .exit w ups => wingOk w && ups.all Upset.wf
  | .gateGatherComplete w => wingOk w
  | .gateDispatchComplete w => wingOk w
  | .slotFetchLanded _ _ => true
  | .slotFetchVoid _ => true
  | .slotPromoted _ _ => true
  | .squash _ => true
  | .squashComplete _ => true
  | .slotTtlExpiry _ => true
  | .gateCtrlWrite w v => wingOk w && bitsOk 32 v
  | .squashAll w => wingOk w
  | .forget w => wingOk w
  | .bufferRequest _ _ => true
  | .hbmAccessComplete _ _ => true
  | .bufferAtomic _ _ => true
  | .bufferReduction _ _ => true
  | .scrubLine m _ => sliceOk m
  | .bridgeResend b k _ => b < 4 && k < 8
  | .apertureRequest n _ _ _ _ _ _ => n < 16
  | .wb m => sliceOk m
  | .wbinv m => sliceOk m
  | .sliceCmdDone m => sliceOk m
  | .silkHomeOp _ => true
  | .silkCtrWrite n v => n < 16384 && bitsOk 64 v
  | .messageAgeDiscard m => m.wf
  | .regulatorWindow => true
  | .qosWinLenWrite v => bitsOk 32 v
  | .walkReadReturn _ _ => true
  | .faultRecordPost win => windowOk win
  | .replay win _ => windowOk win
  | .abort win _ => windowOk win
  | .faultTimeout k => k < 4096
  | .iqTailWrite win v => windowOk win && bitsOk 32 v
  | .range win => windowOk win
  | .space win => windowOk win
  | .all win => windowOk win
  | .sync win => windowOk win
  | .invalidationComplete _ => true
  | .invalidationSlow _ => true
  | .wsFlush win v => windowOk win && bitsOk 32 v
  | .wsFlushComplete _ => true
  | .compose => true
  | .commitTick _ => true
  | .chrysalisEnd i => instOk i
  | .chrysalisSlow i => instOk i
  | .coreLeft c => coreOk c
  | .linkSliceLeft p => portOk p
  | .scrubComplete m => sliceOk m
  | .evacuateLine i src _ => instOk i && sliceOk src
  | .leaseHandshakeTimeout => true
  | .instarAdvance u => u.wf
  | .ctxCreate win => windowOk win
  | .ctxDestroy win => windowOk win
  | .ctxKill win => windowOk win
  | .qCreate win => windowOk win
  | .qDestroy win => windowOk win
  | .qResume win => windowOk win
  | .objFree win => windowOk win
  | .fenceSignal win => windowOk win
  | .fenceError win => windowOk win
  | .fenceReset win => windowOk win
  | .doorbell win n v => windowOk win && n < 65536 && bitsOk 32 v
  | .commandTake q => q < 65536
  | .contextResident _ => true
  | .commandStart _ => true
  | .kernel _ => true
  | .copy _ => true
  | .fill _ => true
  | .signal _ => true
  | .wait _ => true
  | .waitTimeout _ => true
  | .collective _ => true
  | .gateDispatch _ => true
  | .atomicSeq _ => true
  | .migrate _ => true
  | .marker _ => true
  | .commandComplete _ => true
  | .sliceEnd i => instOk i
  | .handoverComplete i => instOk i
  | .npOverrun _ => true
  | .teardownAbort _ => true
  | .quiesce _ => true
  | .eventRecordPost win => windowOk win
  | .evtFqHeadWrite win v => windowOk win && bitsOk 32 v
  | .evtEqHeadWrite win v => windowOk win && bitsOk 32 v
  | .msixSend win q => windowOk win && q < 2
  | .lnkPortCtrlWrite p v => portOk p && bitsOk 32 v
  | .portTrained p _ => portOk p
  | .trainingTimeout p => portOk p
  | .delayProbe p _ => portOk p
  | .lockLoss p => portOk p
  | .laserLow p => portOk p
  | .flitReceive p f => portOk p && f.wf
  | .messageTransit _ => true
  | .linkRead _ => true
  | .linkWrite _ => true
  | .linkAtomic _ => true
  | .resp _ => true
  | .linkAck _ => true
  | .err _ => true
  | .collPut _ => true
  | .linkAbort _ => true
  | .silkAddMsg _ _ => true
  | .silkReadMsg _ _ => true
  | .silkWaitgeMsg _ _ => true
  | .silkTakeMsg _ _ => true
  | .silkRelease _ _ => true
  | .silkAck _ => true
  | .collToken _ => true
  | .custody _ => true
  | .peerNotice _ => true
  | .hello _ => true
  | .advert _ => true
  | .fenceOp _ => true
  | .fenceRelease _ => true
  | .lease _ => true
  | .linkIdle _ => true
  | .time _ => true
  | .encReq _ _ => true
  | .encReqTimeout p => portOk p
  | .keyEpochAdvance p => portOk p
  | .helloSend => true
  | .advertSend => true
  | .peerAgeExpiry k => k < 4096
  | .collSendAction _ => true
  | .collReceiveAction _ => true
  | .collActionComplete _ _ => true
  | .collTimeout _ => true
  | .init => true
  | .offer => true
  | .accept => true
  | .release => true
  | .reclaim => true
  | .custodyRead => true
  | .custodyUnreachable => true
  | .mbxSend win => windowOk win
  | .mbxDeliver win => (windowOk win || win = 33)
  | .mbxInRelease win => windowOk win
  | .mbxProxyAccess _ _ v => bitsOk 64 v
  | .instCreate qb sb kb => qb < 65536 && sb < 16384 && kb < 256
  | .instReset => true
  | .instResetDone i => instOk i
  | .instRemove => true
  | .imagoInfo => true
  | .attest => true
  | .certRead => true
  | .keyGen _ => true
  | .keyImport _ => true
  | .keyExport _ => true
  | .keyDerive _ => true
  | .keyErase => true
  | .keyCrypt _ => true
  | .cvkUpdate => true
  | .timeSet => true
  | .regionSet => true
  | .vfFlr i => instOk i
  | .numvfsLower n => windowOk n
  | .pfFlr => true
  | .rtcSet v => bitsOk 64 v
  | .rtcAdj v => bitsOk 32 v
  | .slewComplete => true
  | .hoursTick => true
  | .vbatSample _ => true
  | .oscStop => true
  | .arbitrate acts _ _ => acts.length ≤ 144
  | .voltageReached w => wingOk w
  | .calibrate _ => true
  | .ilimExceed d _ => domainOk d
  | .droopEvent c => coreOk c
  | .raiseHoldExpiry w => wingOk w
  | .pwrPkgCapWrite v => bitsOk 32 v
  | .pwrCoreFcapWrite c v => coreOk c && bitsOk 32 v
  | .capDeferExpiry => true
  | .vinDip _ => true
  | .vinRecover _ _ => true
  | .dipHoldExpiry => true
  | .rampEnd => true
  | .supplyReset => true
  | .thermalSample _ => true
  | .thermalTrip sensor _ => sensor < 176
  | .coolantStop => true
  | .coolantStopComplete => true
  | .flowRestored => true
  | .resume _ => true
  | .calRestart => true
  | .pwrEvtWrite v => bitsOk 32 v
  | .coreDiapauseEntry c => coreOk c
  | .wingDiapauseEntry w => wingOk w
  | .diapauseEntered unit => sleepOk unit
  | .wake unit => sleepOk unit
  | .wakeComplete unit => sleepOk unit
  | .replan _ => true
  | .replanComplete _ => true
  | .wakeAll => true
  | .vinAuxApply => true
  | .vinMainApply => true
  | .phaseComplete _ => true
  | .phaseTimeout => true
  | .perstAssert => true
  | .perstDeassert => true
  | .imagoReset i _ => instOk i
  | .chipReset _ => true
  | .fullReset _ _ _ => true
  | .topoContinue => true
  | .override => true
  | .resetDrainEnd u => resetOk u
  | .resetDone u failed => resetOk u && failed.all coreOk
  | .resetBoundMiss u => resetOk u
  | .rstEvtWrite v => bitsOk 32 v
  | .kernelWatchdog c => coreOk c
  | .npWatchdog _ => true
  | .queueWatchdog q => q < 65536
  | .fabricWatchdog _ => true
  | .vinAuxLoss => true
  | .refclkLoss => true
  | .vinMainRemoved => true
  | .status => true
  | .descRead => true
  | .descWrite data => data.length = 128
  | .recovery offset data => bitsOk 32 offset && data.length ≤ 4096
  | .recoveryDone => true
  | .tapInstruction _ _ => true
  | .flowOkHeld => true
  | .laserRestored p => portOk p
  | .timeSend => true
  | .linkctlAckSend p => portOk p
  | .limitingEnd d _ => domainOk d
  | .droopEnd c => coreOk c
  | .holdSupplyDrop => true
  | .voltageLowering w => wingOk w

end Sys2Proof
end

