-- ==== Sys2Proof/Tests/Slice0.lean ====
section
/-!
SUPPORT. Tests: each is one step on a small state. `Meets` shows operands and a state that meet all the hypotheses of a clause of a
statement, and what the command then does; the expected values come from the rules.
-/

namespace Sys2Proof.Machine.Tests

open Sys2Proof Sys2Proof.Machine

set_option Elab.async false

/-- What a command leaves, seen through `f`. -/
def got {α : Type} (c : Instr) (s : State) (f : State → α) : Option α :=
  match exec c s with
  | .next s' => some (f s')
  | _ => none

/-- The hypotheses `h` hold, and the command leaves a state in which `p` does. -/
def Meets (h : Prop) (c : Instr) (s : State) (p : State → Bool) : Prop := h ∧ got c s p = some true

/-- A group that is ready at PC 0 with every lane active. -/
def grp0 : Group := { Group.empty with ended := false }

/-- A batch of kernel 1 with one group. -/
def bat0 (g : Group) : Batch := ⟨1, 0, 1, [(0, g)], false, true, .running, 0, 0, []⟩

/-- Core 0 runs group `g` of a kernel with one code line and one page of scratchpad, which holds `m`. -/
def stG (g : Group) (m : Mem := []) : State :=
  { State.reset with
    cores := [(0, { Core.empty with batch := some (bat0 g), icache := [0], scr := m })]
    kernels := [(1, { Kernel.empty with lb := { Launch.empty with codeBytes := 256, scrPages := 1 } })] }

/-- A thread instruction of group 0 of core 0 with these bits. -/
def th (b : Nat) : Th := ⟨0, 0, BitVec.ofNat 54 b⟩

theorem issues_of {s : State} {t : Th} {u : List Nat} {g : Group} (h : readyGroup s t.core t.grp = some g
    ∧ inCode (kernelOn s t.core).lb g.pc = true ∧ (core s t.core).icache.contains (lineOf g.pc) = true
    ∧ g.pend.any (fun p => u.contains p.2) = false) : Issues s t u g := ⟨h.1, h.2.1, h.2.2.1, h.2.2.2⟩

/-- The words that bytes touch are good: `ScrGood`, which can be decided. -/
theorem scrGood_of {s : State} {c a n : Nat} (h : ((wordsOf a n).all fun w => decide (heldBy s c (8 * w) = none)
    && decide (markOf s c w = .good)) = true) : ScrGood s c a n := by
  intro w hw
  have h2 := List.all_eq_true.mp h w hw
  simpa using h2

/-- A command of queue 0, with nothing done. -/
def cmd0 : Cmd :=
  ⟨0, 0, List.replicate 64 0, 0, 0, 0, 0, false, [], none, false, 0, 0, 0, none, 0, 0, 0, 0, false, false, false, false, 0, [],
    false, false, none⟩

/-- Core `c` is bound to Imago `i`. -/
def bindCore (s : State) (c i : Nat) : State := setF (setF s f_CMP_CORE_STATE c 1) f_CMP_CORE_INSTANCE c i

/-! ## Thread instructions -/

/-- A group with s, u, a and p registers. -/
def gR (sr ur : SMap Word) (ar : SMap DWord := []) (pr : SMap Word := []) : Group :=
  { grp0 with sregs := sr, uregs := ur, aregs := ar, pregs := pr }

/-- The S instruction s1 ← s2, s3, and the V instruction s1 ← s2, s3, s4. -/
def sT : Th := th (1 * 2 ^ 43 + 2 * 2 ^ 36 + 3)
def vT : Th := th (1 * 2 ^ 44 + 2 * 2 ^ 38 + 3 * 2 ^ 32 + 4 * 2 ^ 26)

/-- What s1 holds in lane 5 after a command, where s2, s3 and s4 hold `a`, `b` and `c` in that lane. -/
def s1Of (i : Instr) (a b : Word) (c : Word := 0) : Option (Option Word) :=
  got i (stG (gR [(2 * 32 + 5, a), (3 * 32 + 5, b), (4 * 32 + 5, c)] [])) (fun s => (groupOf s 0 0).map (fun g => mget 0 g.sregs (32 + 5)))

theorem meets_issues : Issues (stG grp0) sT (sUses sT) grp0 ∧ sLegal sT = true ∧ Issues (stG grp0) vT (vUses vT 3) grp0 ∧ vWell vT = true :=
  ⟨issues_of (by decide), by decide, issues_of (by decide), by decide⟩

theorem test_arith : s1Of (.mov sT) 7 1 = some (some 7) ∧ s1Of (.add sT) 0xFFFFFFFF 2 = some (some 1)
    ∧ s1Of (.sub sT) 1 2 = some (some 0xFFFFFFFF) ∧ s1Of (.mul sT) 0x10001 0x10001 = some (some 0x20001)
    ∧ s1Of (.mulhi sT) 0xFFFFFFFF 2 = some (some 0xFFFFFFFF) ∧ s1Of (.mulhiu sT) 0xFFFFFFFF 2 = some (some 1)
    ∧ s1Of (.min sT) 0xFFFFFFFF 1 = some (some 0xFFFFFFFF) ∧ s1Of (.max sT) 0xFFFFFFFF 1 = some (some 1)
    ∧ s1Of (.minu sT) 0xFFFFFFFF 1 = some (some 1) ∧ s1Of (.maxu sT) 0xFFFFFFFF 1 = some (some 0xFFFFFFFF) := by decide +kernel

theorem test_bits : s1Of (.and sT) 12 10 = some (some 8) ∧ s1Of (.or sT) 12 10 = some (some 14) ∧ s1Of (.xor sT) 12 10 = some (some 6)
    ∧ s1Of (.andn sT) 12 10 = some (some 4) ∧ s1Of (.shl sT) 1 33 = some (some 2) ∧ s1Of (.shr sT) 0x80000000 33 = some (some 0x40000000)
    ∧ s1Of (.sra sT) 0x80000000 33 = some (some 0xC0000000) ∧ s1Of (.clz sT) 0 0 = some (some 32) ∧ s1Of (.clz sT) 1 0 = some (some 31)
    ∧ s1Of (.popc sT) 0xF0F 0 = some (some 8) ∧ s1Of (.brev sT) 1 0 = some (some 0x80000000) := by decide +kernel

/-- Under p1, and with D = p1, A = p2, B = p3. -/
def sP1 : Th := th (1 * 2 ^ 51 + 1 * 2 ^ 43 + 2 * 2 ^ 36 + 3)
def sPP : Th := th (0x71 * 2 ^ 43 + 0x72 * 2 ^ 36 + 0x73)
def sPd : Th := th (0x71 * 2 ^ 43 + 2 * 2 ^ 36 + 3)

/-- What p1 holds in lane 5, where p2 holds 1 in that lane and p3 does not. -/
def p1Of (i : Instr) (a b : Word) : Option (Option Bool) :=
  got i (stG (gR [(2 * 32 + 5, a), (3 * 32 + 5, b)] [] [] [(2, 0x20), (3, 0)])) (fun s => (groupOf s 0 0).map (fun g => (mget 0 g.pregs 1).getLsbD 5))

theorem meets_crossLane : Issues (stG grp0) sP1 (sUses sP1) grp0 ∧ sLegal sP1 = true
    ∧ got (.sel sP1) (stG (gR [(2 * 32 + 5, 8), (3 * 32 + 5, 9), (3 * 32 + 6, 9)] [] [] [(1, 0x20)]))
      (fun s => (groupOf s 0 0).map (fun g => (mget 0 g.sregs 37, mget 0 g.sregs 38))) = some (some (8, 9))
    ∧ got (.shfl sT) (stG (gR [(2 * 32 + 31, 8), (3 * 32 + 5, 31)] [])) (fun s => (groupOf s 0 0).map (fun g => mget 0 g.sregs 37)) =
      some (some 8)
    ∧ (fA (th (1 * 2 ^ 43 + 0x77 * 2 ^ 36)) = 0x77
      ∧ got (.ballot (th (1 * 2 ^ 43 + 0x77 * 2 ^ 36))) (stG (gR [] [] [] [(7, 0x21)])) (fun s => (groupOf s 0 0).map (fun g => mget 0 g.sregs 32)) =
        some (some 0x21)) :=
  ⟨issues_of (by decide), by decide, by decide +kernel, by decide +kernel, by decide +kernel⟩

theorem meets_predicates : Issues (stG grp0) sPd (sUses sPd) grp0 ∧ sWell sPd = true ∧ Issues (stG grp0) sPP (sUses sPP) grp0 ∧ sWell sPP = true
    ∧ (fD sPP = 0x70 + 1 ∧ fA sPP = 0x70 + 2 ∧ fI sPP = false ∧ fB sPP = 0x70 + 3) :=
  ⟨issues_of (by decide), by decide, issues_of (by decide), by decide, by decide⟩

theorem test_setp : p1Of (.setp 0 sPd) 7 7 = some (some true) ∧ p1Of (.setp 1 sPd) 7 7 = some (some false)
    ∧ p1Of (.setp 2 sPd) 0xFFFFFFFF 1 = some (some true) ∧ p1Of (.setp 3 sPd) 1 0xFFFFFFFF = some (some false)
    ∧ p1Of (.setp 4 sPd) 0xFFFFFFFF 1 = some (some false) ∧ p1Of (.setp 5 sPd) 1 0xFFFFFFFF = some (some true) := by decide +kernel

theorem test_logic : p1Of (.predicateLogic 0 sPP) 0 0 = some (some false) ∧ p1Of (.predicateLogic 1 sPP) 0 0 = some (some true)
    ∧ p1Of (.predicateLogic 2 sPP) 0 0 = some (some true) ∧ p1Of (.predicateLogic 3 sPP) 0 0 = some (some true) := by decide +kernel

/-- a15 ← a0, s3; and s1 ← a15. -/
def sA : Th := th (0x6F * 2 ^ 43 + 0x60 * 2 ^ 36 + 3)
def sG : Th := th (1 * 2 ^ 43 + 0x6F * 2 ^ 36)

theorem meets_addressRegisters : Issues (stG grp0) sA (sUses sA) grp0 ∧ sWell sA = true ∧ execMask grp0 sA ≠ 0 ∧ fD sA = 0x60 + 15 ∧ fA sA = 0x60 + 0
    ∧ Issues (stG grp0) sG (sUses sG) grp0 ∧ sLegal sG = true :=
  ⟨issues_of (by decide), by decide, by decide, by decide, by decide, issues_of (by decide), by decide⟩

theorem test_address :
    let a15 := fun i => got i (stG (gR [(3 * 32, 0xFFFFFFFF)] [] [(0, 0), (15, 0x100000002)])) (fun s => (groupOf s 0 0).map (fun g => mget 0 g.aregs 15))
    a15 (.aadd sA) = some (some 0xFFFFFFFFFFFFFFFF) ∧ a15 (.alo sA) = some (some 0x1FFFFFFFF) ∧ a15 (.ahi sA) = some (some 0xFFFFFFFF00000002)
    ∧ (let s1 := fun i => got i (stG (gR [] [] [(15, 0x100000002)])) (fun s => (groupOf s 0 0).map (fun g => mget 0 g.sregs 37))
      s1 (.agetl sG) = some (some 2) ∧ s1 (.ageth sG) = some (some 1)) := by decide +kernel

theorem test_float : s1Of (.fadd vT) 0x3F800000 0x40000000 = some (some 0x40400000) ∧ s1Of (.fsub vT) 0x3F800000 0x40000000 = some (some 0xBF800000)
    ∧ s1Of (.fmul vT) 0x40400000 0x40000000 = some (some 0x40C00000) ∧ s1Of (.ffma vT) 0x3F800000 0x40000000 0x3F800000 = some (some 0x40400000)
    ∧ s1Of (.fmin vT) 0xBF800000 0x40000000 = some (some 0xBF800000) ∧ s1Of (.fmax vT) 0xBF800000 0x40000000 = some (some 0x40000000)
    ∧ s1Of (.fabs vT) 0xBF800000 0 = some (some 0x3F800000) ∧ s1Of (.fneg vT) 0x3F800000 0 = some (some 0xBF800000)
    ∧ s1Of (.fsqrt vT) 0x40800000 0 = some (some 0x40000000) := by decide +kernel

/-- D = p1; and CVT of binary32 to INT8 element 3. -/
def vP : Th := th (1 * 2 ^ 44 + 2 * 2 ^ 38 + 3 * 2 ^ 32)
def vCv : Th := th (1 * 2 ^ 44 + 2 * 2 ^ 38 + 0xB * 2 ^ 18 + 3 * 2 ^ 10)

theorem meets_fsetp : Issues (stG grp0) vP [usesPred vP, 0x70 + vD vP, vA vP, vBreg vP] grp0 ∧ vWell vP = true ∧ vD vP < 8
    ∧ p1Of (.fsetp 2 vP) 0xBF800000 0x3F800000 = some (some true) ∧ p1Of (.fsetp 0 vP) 0x7FC00000 0x7FC00000 = some (some false)
    ∧ p1Of (.fsetp 4 vP) 0x7FC00000 0x3F800000 = some (some true) := ⟨issues_of (by decide), by decide +kernel⟩

theorem meets_cvt : Issues (stG grp0) vCv (vUses vCv 1) grp0 ∧ vWell vCv = true ∧ cvtFmt (vSfmt vCv) = true ∧ cvtFmt (vDfmt vCv) = true
    ∧ elemOk (vSfmt vCv) (vSelem vCv) = true ∧ elemOk (vDfmt vCv) (vDelem vCv) = true
    ∧ s1Of (.cvt vCv) 0xC0400000 0 = some (some 0xFD000000) := ⟨issues_of (by decide), by decide +kernel⟩

theorem meets_reductions : Issues (stG grp0) vT (vUses vT 1) grp0 ∧ execMask grp0 vT ≠ 0
    ∧ (let g := gR [(2 * 32, 0x3F800000), (2 * 32 + 31, 0x40000000)] []
      got (.fredadd vT) (stG g) (fun s => (groupOf s 0 0).map (fun g => mget 0 g.sregs 37)) = some (some 0x40400000)
      ∧ got (.fredmax vT) (stG g) (fun s => (groupOf s 0 0).map (fun g => mget 0 g.sregs 37)) = some (some 0x40000000)) :=
  ⟨issues_of (by decide), by decide, by decide +kernel⟩

/-! ### Control -/

/-- What the group is after a command, seen through `f`. -/
def grpOf {α : Type} (i : Instr) (g : Group) (f : Group → α) : Option (Option α) := got i (stG g) (fun s => (groupOf s 0 0).map f)

theorem meets_branches : Issues (stG grp0) (th 0) [usesPred (th 0)] grp0 ∧ sLegal (th 0) = true ∧ cWell (th 0) false false 0 0 = true
    ∧ grpOf (.nop (th 0)) grp0 Group.pc = some (some 8) ∧ grpOf (.cnop (th 0)) grp0 Group.pc = some (some 8)
    ∧ grpOf (.cexit (th 0)) grp0 Group.ended = some (some true)
    ∧ grpOf (.cexit (th (2 ^ 51))) { grp0 with pregs := [(1, 3)] } (fun g => (g.active, g.pc)) = some (some (0xFFFFFFFC, 8))
    ∧ (cWell (th 0xFFFFFFFF) false false 0 0xFFFFFFFF = true ∧ grpOf (.cjmp (th 0xFFFFFFFF)) { grp0 with pc := 16 } Group.pc = some (some 8)) :=
  ⟨issues_of (by decide), by decide +kernel⟩

theorem meets_calls :
    let t := th (0x6F * 2 ^ 43 + 4)
    let r := th (0x6F * 2 ^ 36)
    (Issues (stG grp0) t [usesPred t, fD t] grp0 ∧ cWell t true false 0 0xFFFFFFFF = true ∧ fD t = 0x60 + 15 ∧ execMask grp0 t ≠ 0)
    ∧ Issues (stG grp0) r [usesPred r, fA r] grp0
    ∧ (cWell r false true 0 0 = true ∧ fA r = 0x60 + 15
      ∧ grpOf (.ccall t) grp0 (fun g => (g.pc, aReg g 15)) = some (some (32, 8))
      ∧ grpOf (.cjmpr r) (gR [] [] [(15, 24)]) Group.pc = some (some 24)) :=
  ⟨⟨issues_of (by decide), by decide⟩, issues_of (by decide), by decide +kernel⟩

/-- Target 5 instructions on, join 9 on, under p1. -/
def cB : Th := th (2 ^ 51 + 5 * 2 ^ 16 + 9)

theorem meets_cbr : Issues (stG grp0) cB [usesPred cB] grp0 ∧ cWell cB false false 0 0xFFFFFFFF = true
    ∧ grpOf (.cbr cB) (gR [] [] [] [(1, 0xFFFFFFFF)]) (fun g => (g.pc, g.stack)) = some (some (40, []))
    ∧ grpOf (.cbr cB) grp0 (fun g => (g.pc, g.stack)) = some (some (8, []))
    ∧ grpOf (.cbr cB) (gR [] [] [] [(1, 1)]) (fun g => (g.pc, g.active, g.rpc, g.stack.map (fun e => e.pc))) = some (some (40, 1, 72, [8, 72])) :=
  ⟨issues_of (by decide), by decide +kernel⟩

theorem meets_waits : Issues (stG grp0) (th 0) [usesPred (th 0)] grp0 ∧ cWell (th (7 * 2 ^ 32)) false false 7 0 = true
    ∧ cWell (th (0xF * 2 ^ 32 + 0xFFF)) false false 0xF 0xFFF = true ∧ cWell (th 0xFFFFF) false false 0 0xFFFFF = true
    ∧ grpOf (.cbar (th (7 * 2 ^ 32))) grp0 Group.wait = some (some (.barrier 7))
    ∧ grpOf (.cwait (th 0)) grp0 Group.wait = some (some .ready)
    ∧ grpOf (.csleep (th 3)) grp0 Group.wait = some (some (.sleep 60)) :=
  ⟨issues_of (by decide), by decide +kernel⟩

/-- Two groups on core 0, of which the first is `g`. -/
def stG2 (g : Group) : State :=
  { stG g with cores := [(0, { Core.empty with batch := some { bat0 g with groups := [(0, g), (1, { grp0 with wait := .barrier 3 })] } })] }

theorem meets_released :
    (batchOf (stG2 { grp0 with wait := .barrier 3 }) 0).map (fun b => barrierMet b 3) = some true
    ∧ got (.barrierRelease 0 3) (stG2 { grp0 with wait := .barrier 3 }) (fun s => (groupOf s 0 1).map Group.wait) = some (some .ready)
    ∧ got (.barrierRelease 0 3) (stG2 grp0) (fun s => (groupOf s 0 1).map Group.wait) = some (some (.barrier 3))
    ∧ waitMet (stG grp0) 0 0 15 255 0 = true
    ∧ grpOf (.cwaitSatisfied 0 0) { grp0 with wait := .cond 15 255 0 } Group.wait = some (some .ready)
    ∧ grpOf (.csleepExpiry 0 0) { grp0 with wait := .sleep 0 } Group.wait = some (some .ready)
    ∧ grpOf (.csleepExpiry 0 0) { grp0 with wait := .sleep 1 } Group.wait = some (some (.sleep 1)) := by decide +kernel

theorem meets_special :
    let t := th (1 * 2 ^ 43 + 0)
    let w := th (2 * 2 ^ 36 + 0x0A)
    (Issues (stG grp0) t [usesPred t, fD t] grp0 ∧ cWell t true false 0 0xFF = true ∧ rkind (fD t) ≠ .p ∧ rkind (fD t) ≠ .a)
    ∧ Issues (stG grp0) w [usesPred w, fA w] grp0 ∧ (cWell w false true 0 0xFF = true ∧ cWell (th 0xFFFF) false false 0 0xFFFF = true
      ∧ fD (th (0x60 * 2 ^ 43)) = 0x60 + 0
      ∧ grpOf (.csrd t) grp0 (fun g => mget 0 g.sregs 37) = some (some 5)
      ∧ grpOf (.csrd (th (0x60 * 2 ^ 43 + 0x08))) grp0 (fun g => mget 0 g.aregs 0) = some (some 1)
      ∧ grpOf (.cswr w) { gR [(2 * 32, 3)] [] with flags := 0x1F } Group.flags = some (some 0x1C)
      ∧ got (.cabort (th 0xFFFF)) (stG grp0) (fun s => (kernel s 1).fault.map (fun f => (f.code, f.addr))) = some (some (errKernelAbort, 0xFFFF))) :=
  ⟨⟨issues_of (by decide), by decide⟩, issues_of (by decide), by decide +kernel⟩

/-! ## Scratchpad and global memory -/

/-- s1 (lane by lane), base a0 and index s2, word size; and with u1 and no index. -/
def xW : Th := th (1 * 2 ^ 43 + 2 * 2 ^ 32 + 2 * 2 ^ 29)
def xU : Th := th (0x41 * 2 ^ 43 + 0x7F * 2 ^ 32 + 2 * 2 ^ 29)

/-- Lanes 0 and 1 are active; they address 16 and 20. -/
def gX : Group := { gR [(2 * 32 + 1, 4), (32, 7), (33, 9)] [] [(0, 16)] with active := 3 }

theorem scrOk_of {s : State} {t : Th} {g : Group} {n : Nat} (h : execMask g t ≠ 0 ∧ ((xLanes t (execMask g t)).all fun l =>
    decide ((xAddr g t l).toNat % n = 0) && decide ((xAddr g t l).toNat < scrLimit (kernelOn s t.core).lb)
      && (wordsOf (xAddr g t l).toNat n).all fun w => decide (heldBy s t.core (8 * w) = none) && decide (markOf s t.core w = .good)) = true) :
    ScrOk s t g n := by
  refine ⟨h.1, fun l hl => ?_⟩
  have h2 := List.all_eq_true.mp h.2 l hl
  simp only [Bool.and_eq_true, decide_eq_true_eq] at h2
  exact ⟨h2.1.1, h2.1.2, scrGood_of h2.2⟩

theorem meets_scratchpad : Issues (stG gX) xW (xUses xW (sizeRegs (xSize xW))) gX ∧ xLegal xW true = true ∧ xLegal xW false = true
    ∧ ScrOk (stG gX) xW gX (2 ^ xSize xW) ∧ (stG gX).landing = []
    ∧ (got (.xlds xW []) (stG gX [(16, 5), (20, 6), (23, 0x80)]) (fun s => (groupOf s 0 0).map (fun g => (mget 0 g.sregs 32, mget 0 g.sregs 33, g.pc))) =
        some (some (5, 0x80000006, 8))
      ∧ got (.xsts xW []) (stG gX [(17, 5)]) (fun s => (core s 0).scr) = some [(16, 7), (20, 9)]) :=
  ⟨issues_of (by decide), by decide, by decide, scrOk_of (by decide), rfl, by decide +kernel⟩

/-- At one address, lanes 0 and 1 add s1 in turn. -/
def gSame : Group := { gX with sregs := [(32, 7), (33, 9)] }

theorem meets_scratchpadAtomic : Issues (stG gSame) xW (xUses xW (if xSub xW = 4 then 2 else 1)) gSame ∧ atomLegal xW false = true
    ∧ ScrOk (stG gSame) xW gSame 4 ∧ redSpans (stG gSame [(16, 5)]) 0 = [] ∧ Memory.wf (core (stG gSame [(16, 5)]) 0).scr = true
    ∧ got (.xatoms xW []) (stG gSame [(16, 5)]) (fun s => (groupOf s 0 0).map (fun g => (mget 0 g.sregs 32, mget 0 g.sregs 33, (core s 0).scr))) =
      some (some (5, 12, [(16, 21)])) :=
  ⟨issues_of (by decide), by decide, scrOk_of (by decide), by decide, by decide, by decide +kernel⟩

/-- XMOV on channel 7, from the 64 bytes at a0 = 64. -/
def xM : Th := th (0x7F * 2 ^ 43 + 0x7F * 2 ^ 32 + 7 * 2 ^ 24)

theorem meets_xmov : Issues (stG (gR [] [] [(0, 64)])) xM [usesPred xM, 0x60 + xAbase xM, xIdx xM] (gR [] [] [(0, 64)])
    ∧ ScrGood (stG (gR [] [] [(0, 64)])) 0 64 64
    ∧ (bitAt (xSub xM) 3 = false ∧ rkind (xData xM) ≠ .reserved ∧ rkind (xIdx xM) ≠ .reserved
      ∧ (xAddr (gR [] [] [(0, 64)]) xM 0).toNat = 64
      ∧ got (.xmov xM []) (stG (gR [] [] [(0, 64)]) [(64, 2)]) (fun s => (chan s 0 7).queue.map (fun d => (d.bytes.take 2, d.owner))) =
        some [([2, 0], .xmov 1 0)]) :=
  ⟨issues_of (by decide), scrGood_of (by decide), by decide +kernel⟩

/-- What faults: one lane beyond the reservation, a misaligned lane below one that is, and a reserved SIZE. -/
theorem meets_scratchpadFaults :
    (let f := fun i g => got i (stG g) (fun s => (kernel s 1).fault.map (fun f => (f.code, f.lanes, f.addr)))
    f (.xlds xW []) { gX with sregs := [(65, 4080)] } = some (some (errScratchRange, 2, 4096))
    ∧ f (.xsts xW []) { gX with sregs := [(64, 1), (65, 4080)] } = some (some (errMisaligned, 3, 17))
    ∧ f (.xsts xU []) { gX with aregs := [(0, 4096)] } = some (some (errScratchRange, 3, 4096))
    ∧ f (.xlds (th (1 * 2 ^ 43 + 2 * 2 ^ 32 + 5 * 2 ^ 29)) []) gX = some (some (errIllegalInstr, 3, 0)))
    ∧ (xLanes xW 3).filter (fun l => decide ((xAddr { gX with sregs := [(65, 4080)] } xW l).toNat % 2 ^ xSize xW ≠ 0)
      || decide (scrLimit (kernelOn (stG gX) 0).lb ≤ (xAddr { gX with sregs := [(65, 4080)] } xW l).toNat)) = [1] := by decide +kernel

/-- An operation of group 0 of core 0. -/
def op0 (k : ThreadKind) (data : Nat) (left : List Nat) : ThreadOp :=
  ⟨k, 0, 0, 1, 0, data, 2, false, 0, 0, [⟨5, 0x1000, [1, 2, 3, 4], []⟩], left, false, false, 0, 0⟩

theorem meets_fence : Issues (stG grp0) (th (2 * 2 ^ 24)) [usesPred (th (2 * 2 ^ 24))] grp0 ∧ xSub (th (2 * 2 ^ 24)) = 2
    ∧ got (.xfence (th (2 * 2 ^ 24))) { stG grp0 with ops := [(9, op0 .load 1 [5])] } (fun s => (s.ops.map (fun kv => kv.2.fenced), fenceHolds s 0 0)) =
      some ([true], true) := ⟨issues_of (by decide), by decide +kernel⟩

/-- Word 3 of core 0 was corrected. -/
def stEcc (m : WordMark) : State := { State.reset with cores := [(0, { Core.empty with marks := [(3, m)], backs := [3] })] }

theorem meets_writeback : markOf (stEcc .single) 0 3 = .single ∧ markOf (stEcc .double) 0 3 = .double
    ∧ got (.scratchEccWriteback 0) (stEcc .single) (fun s => (markOf s 0 3, (core s 0).backs)) = some (.good, [])
    ∧ got (.scratchEccWriteback 0) (stEcc .double) (fun s => (getR s r_TMV_SCR_UE, (core s 0).backs)) = some (1, []) := by decide +kernel

/-- A global word access: s1, base a0 = 4096, no index; as an atomic, ADD. -/
def gG : Group := { gR [(32, 7)] [] [(0, 0x1000)] with active := 1 }
def xG : Th := th (1 * 2 ^ 43 + 2 * 2 ^ 32 + 2 * 2 ^ 29)

def seeG (i : Instr) : Option (List ThreadKind × List (List Nat) × Option Wait) :=
  got i (stG gG) (fun s => (s.ops.map (fun kv => kv.2.kind), s.tiles.map (fun kv => kv.2.pages), (groupOf s 0 0).map Group.wait))

theorem meets_global : Issues (stG gG) xG (xUses xG 1) gG ∧ (xLegal xG true = true ∧ xLegal xG false = true ∧ atomLegal xG true = true
    ∧ fenceHolds (stG gG) 0 0 = false ∧ xLanes xG (execMask gG xG) = [0] ∧ (xAddr gG xG 0).toNat = 0x1000)
    ∧ seeG (.xldg xG) = some ([.load], [[0x1000]], some (.tile 2)) ∧ seeG (.xstg xG) = some ([.store], [[0x1000]], some (.tile 2))
    ∧ seeG (.xatomg xG) = some ([.atomic], [[0x1000]], some (.tile 2)) :=
  ⟨issues_of (by decide), by decide, by decide +kernel, by decide +kernel, by decide +kernel⟩

/-! ## Ill-formed commands, which the checks refuse -/

/-- The least ill-formed value of each bound, and the greatest well-formed one. -/
theorem test_wf_bounds : [coreOk 144, wingOk 8, groupOk 256, portOk 32, sliceOk 256, domainOk 36, instOk 32, windowOk 33, resetOk 33, moverOk 144 0,
      moverOk 0 8, moverOk 255 0, moverOk 272 0, moverOk 256 32, sleepOk 144, sleepOk 255, sleepOk 264, bitsOk 3 8].all (fun b => !b) = true
    ∧ [coreOk 143, wingOk 7, groupOk 255, portOk 31, sliceOk 255, domainOk 35, instOk 31, windowOk 32, resetOk 32, moverOk 143 7, moverOk 271 31,
      sleepOk 143, sleepOk 263, bitsOk 3 7].all (fun b => b) = true := by decide

/-- Each check of a command refuses a term. -/
theorem test_wf_commands : [Instr.add ⟨144, 0, 0⟩, .add ⟨0, 256, 0⟩, .xlds ⟨0, 0, 0⟩ [⟨4, true⟩], .registerWrite ⟨1, false⟩ 33 0 4 0,
      .registerWrite ⟨1, false⟩ 0 (2 ^ 26) 4 0, .registerWrite ⟨1, false⟩ 0 0 8 (2 ^ 64), .barrierRelease 0 16, .cwaitSatisfied 0 256, .batchDeal 32,
      .batchStart 144, .mInstrComplete 0 3, .descFront 0 8, .burstStart 300, .gateDispatchSelect 8, .gateCtrlWrite 0 (2 ^ 32), .scrubLine 256 [],
      .bridgeResend 4 0 true, .bridgeResend 0 8 true, .silkCtrWrite 16384 0, .silkCtrWrite 0 (2 ^ 64), .messageAgeDiscard (.atPort 32 0), .qosWinLenWrite (2 ^ 32), .replay 33 0, .faultTimeout 4096, .wsFlush 0 (2 ^ 32), .linkSliceLeft 32, .evacuateLine 32 0 [],
      .instarAdvance (.core 144), .instarAdvance (.queue 65536), .instarAdvance (.slot 64), .instarAdvance (.inst 32), .doorbell 0 65536 0, .commandTake 65536,
      .msixSend 0 2, .peerAgeExpiry 4096, .mbxDeliver 34, .mbxProxyAccess ⟨1, false⟩ true (2 ^ 64), .instCreate 65536 0 0, .numvfsLower 33, .rtcSet (2 ^ 64), .rtcAdj (2 ^ 32),
      .ilimExceed 36 0, .thermalTrip 176 0, .wake 144, .resetDrainEnd 33, .resetDone 0 [144], .rstEvtWrite (2 ^ 32), .queueWatchdog 65536,
      .descWrite [0], .recovery (2 ^ 32) [], .recovery 0 (List.replicate 4097 0)].all (fun c => !c.wf) = true := by decide +kernel

/-- A message and a flit whose every field is at its greatest value, and each with one field a step beyond. -/
theorem test_wf_messages :
    let m : WireMsg := ⟨255, 7, 7, 65535, 65535, 65535, 255, 31, 2 ^ 24 - 1, 255, 2 ^ 32 - 1, 2 ^ 32 - 1, 2 ^ 64 - 1, List.replicate 4096 0, 2 ^ 128 - 1⟩
    let f : Flit := ⟨true, 0, 0, 4095, 4095, false, 7, false, 3, 7, 3, 127, 255, [m]⟩
    m.wf = true ∧ f.wf = true
    ∧ [{ m with type := 256 }, { m with label := 8 }, { m with hops := 8 }, { m with src := 65536 }, { m with dest := 65536 },
      { m with epoch := 65536 }, { m with instar := 256 }, { m with inst := 32 }, { m with deadline := 2 ^ 24 }, { m with ageMs := 256 },
      { m with tag := 2 ^ 32 }, { m with aux := 2 ^ 32 }, { m with addr := 2 ^ 64 }, { m with data := List.replicate 4097 0 },
      { m with poison := 2 ^ 128 }].all (fun x => !x.wf) = true
    ∧ [{ f with seq := 4096 }, { f with ack := 4096 }, { f with vl := 8 }, { f with part := 4 }, { f with cvl := 8 }, { f with cpart := 4 },
      { f with credits := 128 }, { f with kepoch := 256 }, { f with msgs := [{ m with inst := 32 }] }].all (fun x => !x.wf) = true := by
  decide +kernel

/-! ## The block -/

/-- No row of the table gives bits. -/
theorem test_noWord : decodeTableWord 0 0 = none ∧ State.reset.withFetchWord 8 255 = State.reset := by decide +kernel

/-- What a step leaves, seen through `f`. -/
def gotStep {α : Type} (s : State) (f : State → α) : Option α :=
  match step s with
  | .next t => some (f t)
  | _ => none

theorem meets_stepConsumesFront : gotStep { State.reset with pending := [.regulatorWindow, .status] } State.pending = some [.status] := by
  decide +kernel

theorem meets_idleStep : gotStep State.reset (fun t => t.now) = some 1
    ∧ gotStep { State.reset with timeSlew := 1, now := 10000 } (fun t => (t.now, t.timeSlew)) = some (10002, 0)
    ∧ gotStep { State.reset with timeSlew := -1, now := 10000 } (fun t => (t.now, t.timeSlew)) = some (10000, 0) := by decide +kernel

theorem meets_memories : MemoriesWf { State.reset with host := [(1, 7)], cores := [(3, { Core.empty with scr := [(0, 1)] })] } := by
  refine ⟨rfl, rfl, fun c => ?_⟩
  by_cases h : 3 = c
  · subst h; rfl
  · have e : core { State.reset with host := [(1, 7)], cores := [(3, { Core.empty with scr := [(0, 1)] })] } c = Core.empty := by
      simp [core, mget, mfind, h]
    rw [e]; rfl

/-- Commands of each group of the frames answer with a next state. -/
theorem meets_frames : got (.descFront 0 0) State.reset (fun _ => ()) = some () ∧ got .regulatorWindow State.reset (fun _ => ()) = some ()
    ∧ got (.commandTake 0) State.reset (fun _ => ()) = some () ∧ got (.lockLoss 0) State.reset (fun _ => ()) = some ()
    ∧ got (.diapauseEntered 0) State.reset (fun _ => ()) = some () := by decide +kernel

/-! ## Matrix unit -/

/-- Core 0 with matrix unit `m` and scratchpad `scr`. -/
def stM (m : Matrix) (scr : Mem := []) : State :=
  { stG grp0 with cores := [(0, { Core.empty with batch := some (bat0 grp0), icache := [0], scr := scr, m := m })] }

/-- An M instruction with these bits and u registers. -/
def mi (op : MOp) (bits : Nat) (u : List Word) (begun : Bool := false) : MInstr :=
  ⟨op, 0, 0, bits, u, 0, 0xFFFFFFFF, begun, false, WSlot.empty, [], 0, 0, 0, 0, 0, 0, false, 0⟩

/-- MLOADW of class 2 4-bit weights, 2:8 sparse: 4,096 value bytes are its plane. -/
def ldBits : Nat := 3 * 2 ^ 40 + 1 * 2 ^ 38

/-- A loaded dense class 1 slot of 8-bit weights, and a stream of one row against it. -/
def slotE : WSlot := { WSlot.empty with loaded := true, fmt := 3, cls := 1 }
def stBits : Nat := 3 * 2 ^ 40

theorem meets_mloadw : Issues (stG grp0) (th ldBits) [usesPred (th ldBits), 0x40] grp0
    ∧ execMask grp0 (th ldBits) ≠ 0 ∧ got (.mloadw (th ldBits)) (stG grp0)
      (fun s => ((core s 0).m.load.map MInstr.bits, (core s 0).m.nextSeq)) = some ([ldBits], 1) :=
  ⟨issues_of (by decide), by decide, by decide⟩

theorem test_mloadw_reserved : got (.mloadw (th (ldBits + 1))) (stG grp0)
    (fun s => (kernel s 1).fault.map FaultInfo.code) = some (some 0x0201) := by decide

theorem test_mdrain_waits :
    let s := stM { Matrix.empty with drain := List.replicate 8 (mi .drain 0 []) }
    got (.mdrain (th 0)) s (fun t => decide (t = s)) = some true := by decide

theorem test_wtile_top : got (.wtile (th (31 * 2 ^ 45 + 2 ^ 40))) (stG grp0) (fun s => (core s 0).m.load.map MInstr.op) =
    some [.wtile] := by decide

theorem test_atile_top : got (.atile (th (29 * 2 ^ 45 + 2 ^ 41))) (stG grp0)
    (fun s => (kernel s 1).fault.map FaultInfo.code) = some (some 0x0201) := by decide

/-- The hypotheses of `Obligations.MatrixBegin` that every clause shares. -/
def beginHyps (m : Matrix) (scr : Mem) (i : MInstr) : Bool :=
  decide ((m.load ++ m.stream ++ m.drain).find? (fun x => x.seq = 0 && !x.finished) = some i) && !i.begun
    && mRuns (stM m scr) 0 && mTurn m i

/-- The matrix unit with one instruction. -/
def m1 (i : MInstr) : Matrix := ({ Matrix.empty with slot0 := slotE }).setQueue i.op.engine [i]

theorem meets_begin_load : (beginHyps (m1 (mi .loadw (9 * 2 ^ 40 + 2 ^ 39 + 2 ^ 35) [0, 0])) [] (mi .loadw (9 * 2 ^ 40 + 2 ^ 39 + 2 ^ 35) [0, 0])
    && decide (loadCheck (mi .loadw (9 * 2 ^ 40 + 2 ^ 39 + 2 ^ 35) [0, 0]) 12288 = none)) = true := by decide

theorem meets_begin_load_misaligned : beginHyps (m1 (mi .loadw ldBits [1])) [] (mi .loadw ldBits [1]) = true
    ∧ got (.mEngineBegin 0 0 []) (stM (m1 (mi .loadw ldBits [1]))) (fun s => (kernel s 1).fault.map FaultInfo.code) =
      some (some 0x0202) := by decide

theorem meets_begin_load_range : got (.mEngineBegin 0 0 []) (stM (m1 (mi .loadw ldBits [0])))
    (fun s => (kernel s 1).fault.map FaultInfo.code) = some (some 0x0203) := by decide

theorem meets_begin_atile : beginHyps (m1 (mi .atile (2 ^ 41) [1, 2, 3, 4])) [] (mi .atile (2 ^ 41) [1, 2, 3, 4]) = true
    ∧ got (.mEngineBegin 0 0 []) (stM (m1 (mi .atile (2 ^ 41) [1, 2, 3, 4])))
      (fun s => ((core s 0).m.ascale, (core s 0).m.stream.map MInstr.finished)) = some ([1, 2, 3, 4], [true]) := by decide

theorem meets_begin_wtile : beginHyps (m1 (mi .wtile (2 ^ 40) [9])) [] (mi .wtile (2 ^ 40) [9]) = true
    ∧ got (.mEngineBegin 0 0 []) (stM (m1 (mi .wtile (2 ^ 40) [9]))) (fun s => (core s 0).m.slot0.scales) =
      some [9, 0x3F800000, 0x3F800000, 0x3F800000] := by decide

theorem meets_begin_wblock : (beginHyps (m1 (mi .wblock 0 [256])) [(257, 7)] (mi .wblock 0 [256]) = true
    ∧ ScrGood (stM (m1 (mi .wblock 0 [256])) [(257, 7)]) 0 256 512)
    ∧ got (.mEngineBegin 0 0 []) (stM (m1 (mi .wblock 0 [256])) [(257, 7)])
      (fun s => ((core s 0).m.slot0.blk.map (fun l => (l.length, l.take 2)))) = some (some (512, [0, 7])) :=
  ⟨⟨by decide, scrGood_of (by decide +kernel)⟩, by decide +kernel⟩

theorem meets_begin_wblock_empty : beginHyps (m1 (mi .wblock (2 ^ 44) [256])) [] (mi .wblock (2 ^ 44) [256]) = true
    ∧ got (.mEngineBegin 0 0 []) (stM (m1 (mi .wblock (2 ^ 44) [256]))) (fun s => (kernel s 1).fault.map FaultInfo.code) =
      some (some 0x0209) := by decide

theorem meets_begin_stream : beginHyps (m1 (mi .stream stBits (List.replicate 8 0))) [] (mi .stream stBits (List.replicate 8 0)) = true
    ∧ got (.mEngineBegin 0 0 []) (stM (m1 (mi .stream stBits (List.replicate 8 0))))
      (fun s => (core s 0).m.stream.map MInstr.begun) = some [true] := by decide

theorem meets_begin_stream_param : got (.mEngineBegin 0 0 []) (stM (m1 (mi .sparse stBits [0, 0, 0, 0, 0, 1, 0, 0])))
    (fun s => (kernel s 1).fault.map FaultInfo.code) = some (some 0x0103) := by decide +kernel

/-- A stream whose SKIP marks its one row fetches none. -/
theorem meets_begin_stream_skipped :
    let i := mi .stream stBits [0, 0, 0, 0, 1, 0, 0, 0]
    beginHyps (m1 i) [] i = true ∧ streamCheck (m1 i) i 4096 = none ∧ i.nextFetch = none
    ∧ got (.mEngineBegin 0 0 []) (stM (m1 i)) (fun s => (mInstr (core s 0).m 1 0).map (fun x => (x.begun, x.fetched, i.rowsM))) =
      some (some (true, 1, 1)) := by decide +kernel

theorem meets_begin_drain : beginHyps (m1 (mi .drain (1 * 2 ^ 35) (List.replicate 8 0))) [] (mi .drain (1 * 2 ^ 35) (List.replicate 8 0)) = true
    ∧ got (.mEngineBegin 0 0 []) (stM (m1 (mi .drain (1 * 2 ^ 35) (List.replicate 8 0))))
      (fun s => ((core s 0).m.drain.map MInstr.begun, (core s 0).m.lfsr)) = some ([true], lfsrLoad 0 0) := by decide +kernel

theorem meets_begin_drain_rows : got (.mEngineBegin 0 0 [])
    (stM (m1 (mi .drain 0 [0, BitVec.ofNat 32 (127 * 2 ^ 16 + 2 ^ 24), 0, 0, 0, 0, 0, 0])))
    (fun s => (kernel s 1).fault.map FaultInfo.code) = some (some 0x0103) := by decide +kernel

/-- A row of ones of instruction 0, and a stream of one row that holds it in the A buffer or the array. -/
def row0 : ARow := ⟨0, 0, List.replicate 128 0x38, [], false⟩
def stm0 : MInstr := { mi .stream stBits (List.replicate 8 0) true with fetched := 1 }
def stmSlot : MInstr := { stm0 with slotOk := true, rows := 1, entered := 1, slot := { slotE with bytes := [0x38, 0x40] }, vec := [0x3F800000] }
def ld0 : MInstr := mi .loadw (9 * 2 ^ 40 + 2 ^ 39 + 2 ^ 35) [0, 0] true

theorem meets_mInstrComplete : got (.mInstrComplete 0 2)
    (stM { Matrix.empty with drain := [{ mi .drain 0 [] true with finished := true, flags := 4 }] })
    (fun s => ((core s 0).m.drain, (groupOf s 0 0).map Group.flags, credit s 0 15)) = some ([], some 4, 1) := by decide

theorem meets_aChunkArrival :
    let m := { Matrix.empty with slot0 := slotE, stream := [{ stm0 with fetched := 0 }] }
    (asleep (stM m) 0 = false ∧ chunkRows stm0 128 0 16 = [0]
      ∧ (fetchRow (stM m [(0, 0x38)]) 0 { stm0 with fetched := 0 } 128 0).1 = none)
    ∧ got (.aChunkArrival 0 []) (stM m [(0, 0x38)]) (fun s => (core s 0).m.abuf.map (fun r => (r.row, r.codes.take 2))) =
      some [(0, [0x38, 0])] := by decide +kernel

theorem meets_matrixRowEntry :
    let m := { Matrix.empty with slot0 := slotE, stream := [stm0], abuf := [row0] }
    (slotCheck stm0 slotE = true ∧ streamTurn m stm0 = true ∧ loadsDone m stm0 = true ∧ drainBlocks m stm0 0 = false
      ∧ issueStopped (stM m) 0 = false)
    ∧ got (.matrixRowEntry 0) (stM m) (fun s => ((core s 0).m.abuf, (core s 0).m.array, (core s 0).m.stream.map MInstr.entered)) =
      some ([], [row0], [1]) := by decide +kernel

theorem meets_matrixRowEntry_operand : slotCheck stm0 WSlot.empty = false ∧ stm0.slotOk = false ∧ streamTurn
    { Matrix.empty with stream := [stm0], abuf := [row0] } stm0 = true := by decide

/-- 1.0 × 1.0 + 1.0 × 2.0 = 3.0. -/
theorem test_reduceRow : (reduceRow stmSlot (some row0) 0 0).1 = 0x40400000 := by decide +kernel

theorem meets_accUpdate :
    let s := stM { Matrix.empty with stream := [stmSlot], array := [row0] }
    asleep s 0 = false ∧ (core s 0).m.stream.find? (fun x => x.op.streams && !x.finished) = some stmSlot
      ∧ row0.seq = stmSlot.seq ∧ stmSlot.upd = row0.row
      ∧ mget false (core s 0).taccBad (accRow stmSlot 0) = false := by decide

/-- A stream of one row that SKIP marks. -/
def stmSkip : MInstr := { mi .stream stBits [0, 0, 0, 0, 1, 0, 0, 0] true with fetched := 1 }

theorem meets_noRowStreamUpdate :
    let m := { Matrix.empty with slot0 := slotE, stream := [stmSkip] }
    (slotCheck stmSkip slotE = true ∧ streamTurn m stmSkip = true ∧ loadsDone m stmSkip = true
      ∧ accBad (stM m) 0 stmSkip [0] = false)
    ∧ got (.noRowStreamUpdate ⟨0, []⟩) (stM m) (fun s => (core s 0).m.stream.map (fun x => (x.finished, x.upd))) =
      some [(true, 1)] := by decide +kernel

/-- A drain of one row of binary32 (code 0) with CLR. -/
def dr0 : MInstr := { mi .drain (2 ^ 27) (List.replicate 8 0) true with slotOk := true }

/-- The state in which it reads, with an accumulator element at column 1. -/
def stD : State := { stG grp0 with
  cores := [(0, { Core.empty with batch := some (bat0 grp0), tacc := [(1, 0x40400000)], m := { Matrix.empty with drain := [dr0] } })] }

theorem meets_drainRowRead : drainReady (core stD 0).m dr0 0 = true ∧ got (.drainRowRead 0 false) stD
    (fun s => ((core s 0).m.out.map (fun r => r.bytes.take 8), (core s 0).tacc)) =
      some ([[0, 0, 0, 0, 0, 0, 0x40, 0x40]], []) := by decide +kernel

theorem meets_drainRowWrite : got (.drainRowWrite 0)
    (stM { Matrix.empty with drain := [dr0], out := [⟨0, 0, [1, 0, 2], []⟩] })
    (fun s => ((core s 0).scr, (core s 0).m.out)) = some ([(0, 1), (2, 2)], []) := by decide +kernel

/-! ## Tile movers -/

/-- A descriptor of the kernel's group 0 with these bytes, the rest zero. -/
def dsc (l : List (Nat × Nat)) : Desc :=
  ⟨(List.range 64).map (fun i => BitVec.ofNat 8 (mget 0 l i)), .xmov 1 0, 0, 0, 0, none⟩

/-- Core 0 runs its batch, its mover has channel 0 as given, and its scratchpad holds `m`. -/
def stC (c : Chan) (m : Mem := []) : State := { stG grp0 m with movers := [(0, { Mover.empty with chans := [(0, c)] })] }

/-- CREDIT to line 3 of 7, and a COPY of 64 bytes within scratchpad, from 0 to 256, that raises line 2. -/
def dCr : Desc := dsc [(0, 5), (6, 3), (0x30, 7)]
def dCp : Desc := dsc [(0, 0), (7, 0x12), (0x11, 1), (0x18, 64), (0x1C, 1), (0x1E, 1)]
def chanOf (d : Desc) : Chan := { Chan.empty with queue := [d] }

theorem meets_descFront_credit : (XmovFront (stC (chanOf dCr)) 0 0 dCr ∧ mayBegin (stC (chanOf dCr)) 0 0 dCr = true
    ∧ moverStopped (stC (chanOf dCr)) 0 = false ∧ descCheck false dCr = none)
    ∧ got (.descFront 0 0) (stC (chanOf dCr)) (fun s => (credit s 0 3, (chan s 0 0).queue.length)) = some (7, 0) := by
  unfold XmovFront; decide +kernel

theorem meets_descFront_check : descCheck false (dsc [(0, 6)]) = some 0x0104
    ∧ got (.descFront 0 0) (stC (chanOf (dsc [(0, 6)]))) (fun s => (kernel s 1).fault.map FaultInfo.code) =
      some (some 0x0104) := by decide +kernel

theorem meets_descFront_copy : descCheck false dCp = none ∧ needsStage dCp (chanOf dCp) = none ∧ dCp.rows ≠ 0
    ∧ got (.descFront 0 0) (stC (chanOf dCp)) (fun s => ((chan s 0 0).state, (chan s 0 0).tile, (chan s 0 0).lim)) =
      some (.translating, none, (1, 0)) := by decide +kernel

theorem meets_descTranslated : got (.descTranslated 0 0) (stC { chanOf dCp with state := .translating, lim := (1, 0) })
    (fun s => (chan s 0 0).state) = some .ready := by decide +kernel

theorem meets_burstStart :
    let s := stC { chanOf dCp with state := .ready, lim := (1, 0) }
    pickChan s 0 = some (0, 0) ∧ moverStopped s 0 = false
    ∧ got (.burstStart 0) s (fun s => ((chan s 0 0).bursts.map (fun b => (b.pieces.length, b.last)), (chan s 0 0).row)) =
      some ([(1, true)], 1) := by decide +kernel

/-- A burst that has been read. -/
def b0 : Burst := ⟨9, true, [⟨0, 0, 64⟩], [], [], false, [], [], [(256, 64)]⟩

theorem test_moverReadReturn : got (.moverReadReturn 0 0 []) (stC { chanOf dCp with
    state := .ready, row := 1, lim := (1, 0), bursts := [b0], begun := true } [(3, 0xAB)])
    (fun s => ((core s 0).scr, (chan s 0 0).state)) = some ([(3, 0xAB), (259, 0xAB)], .draining) := by decide +kernel

theorem meets_moverReadReturn :
    let d := dsc [(0, 0), (2, 1), (7, 0x32), (0x11, 1), (0x18, 64), (0x1C, 2), (0x1E, 1)]
    let c := { chanOf d with state := .ready, lim := (2, 0), row := 1, bursts := [b0] }
    (∀ a, clashes d c 0 a = false) ∧ burstParts (stC c) b0 = some (0, []) ∧ pastEnd c.row c.ofs c.lim = false
    ∧ spaceCheck (stC c) 0 d 1 (b0.pieces.flatMap (pieceReads d c)) = none
    ∧ got (.moverReadReturn 0 0 []) (stC c) (fun s => ((chan s 0 0).bursts, credit s 0 2)) = some ([], 1) := by
  refine ⟨fun a => ?_, by decide +kernel⟩
  have h : srcSpans (dsc [(0, 0), (2, 1), (7, 0x32), (0x11, 1), (0x18, 64), (0x1C, 2), (0x1E, 1)])
      { chanOf (dsc [(0, 0), (2, 1), (7, 0x32), (0x11, 1), (0x18, 64), (0x1C, 2), (0x1E, 1)]) with
        state := .ready, lim := (2, 0), row := 1, bursts := [b0] } 0 = [(0, 0, 64), (0, 0, 64)] := by decide +kernel
  have hs : (dsc [(0, 0), (2, 1), (7, 0x32), (0x11, 1), (0x18, 64), (0x1C, 2), (0x1E, 1)]).dspace = 0 := by decide +kernel
  simp only [clashes, h, hs]
  simp [inSpans, spot, chanOf, Chan.empty]

theorem meets_descComplete : got (.descComplete 0 0) (stC { chanOf dCp with state := .draining, flags := 4 })
    (fun s => ((chan s 0 0), credit s 0 2, (kernel s 1).flagSum)) = some (Chan.empty, 1, 4) := by decide +kernel

theorem meets_peerAccessTimeout :
    let s := { stC { chanOf dCp with state := .ready, peerSince := some 0 } with now := 0xFFFFFFFF }
    dueRun s 0 (getF s f_TMV_PEER_TIMEOUT_US * usTicks) = true
    ∧ got (.peerAccessTimeout 0 0) s (fun s => (kernel s 1).fault.map FaultInfo.code) = some (some 0x020A) := by decide +kernel

/-- A bulk descriptor of command 5. -/
def dBk : Desc := { dCp with owner := .command 0 5, bytes := dCp.bytes.take 7 ++ [0] ++ dCp.bytes.drop 8 }

/-- A command with two descriptors outstanding. -/
theorem test_bulkComplete : got (.descComplete 263 31) { State.reset with
    movers := [(263, { Mover.empty with chans := [(31, { chanOf dBk with state := .draining })] })]
    cmds := [(5, { cmd0 with running := 2 })] }
    (fun s => ((mfind s.cmds 5).map (fun v => (v.running, v.count)), getR s r_TMV_BCH_DONE 255)) =
    some (some (1, 1), 1) := by decide +kernel

/-- A BST header in scratchpad: E4M3, dense, one tile, its planes at 256, 512, 768 and 4,096. -/
def bstH (fmt n : Nat) : Mem :=
  ((leBytes 4 0x31545342 ++ [BitVec.ofNat 8 fmt, BitVec.ofNat 8 n, 0, 0] ++ leBytes 2 1 ++ leBytes 2 1 ++ leBytes 4 1
    ++ leBytes 8 65536 ++ leBytes 4 256 ++ leBytes 4 512 ++ leBytes 8 768 ++ leBytes 8 (if n = 0 then 0 else 2048)
    ++ leBytes 8 4096).zip (List.range 56)).foldr (fun b m => if b.1 = 0 then m else (b.2, b.1) :: m) []

/-- A BST transfer of that tile to 4,096. -/
def dBstT : Desc := dsc [(0, 4), (0x11, 16), (0x1C, 1), (0x1E, 1), (0x21, 1)]
def chBst (stage : Nat) (hdr : List Byte) : Chan :=
  { chanOf dBstT with state := .translating, stage := stage, hdr := hdr, bursts := [⟨9, false, [], [], [], false, [], [], []⟩] }

theorem meets_bstHeaderReturn_bad : (stageBytes (stC (chBst 3 [])) 0 0 dBstT).isSome = true
    ∧ sleepers (stC (chBst 3 [])) 0 0 (stageRanges dBstT (chBst 3 [])) = []
    ∧ got (.bstHeaderReturn 0 0) (stC (chBst 3 [])) (fun s => (kernel s 1).fault.map FaultInfo.code) = some (some 0x0106) := by
  decide +kernel

theorem meets_bstHeaderReturn : got (.bstHeaderReturn 0 0) (stC (chBst 3 []) (bstH 3 0))
    (fun s => ((chan s 0 0).stage, (chan s 0 0).state, (chan s 0 0).hdr.length)) = some (1, .translating, 64) := by decide +kernel

/-- A 2:8 sparse object, whose bitmap and row bases say that its tile is present. -/
def hSp : List Byte := (List.range 64).map (fun i => mem8 (bstH 3 2) i)

theorem meets_bstTileRow : got (.bstTileRow 0 0) (stC (chBst 1 hSp) [(256, 1), (516, 1)])
    (fun s => ((chan s 0 0).stage, (chan s 0 0).state, (chan s 0 0).list)) = some (2, .translating, [1]) := by decide +kernel

theorem meets_bstTileRow_bad : got (.bstTileRow 0 0) (stC (chBst 1 hSp) [(256, 1)])
    (fun s => (kernel s 1).fault.map FaultInfo.code) = some (some 0x0106) := by decide +kernel

/-! ## Gate units -/

/-- A dispatch of command 5 with these bytes in its block. -/
def gj (l : List (Nat × Nat)) : GateJob :=
  ⟨0, 5, 0, 0, 0, 0, (List.range 256).map (fun i => BitVec.ofNat 8 (mget 0 l i))⟩

/-- Wing 0 with a running dispatch. -/
def stR (j : GateJob) (ph : GatePhase) (err : Nat := 0) : State :=
  { State.reset with
    gates := [(0, { Gate.empty with run := some ⟨j, ph, err, [], 0, [], [0, 0, 0, 0, 0, 0, 0, 0, 0, 0], [], none, 0⟩ })]
    cmds := [(5, cmd0)] }

theorem meets_gateSelect_unavailable :
    let s := { State.reset with gates := [(0, { Gate.empty with waiting := [gj []] })] }
    wingStopped s 0 = false ∧ firstJob (gateOf s 0).waiting = some (gj []) ∧ gateAvailable s 0 (gj []) = false
    ∧ got (.gateDispatchSelect 0) s (fun s => (gateRun s 0).map (fun r => (r.phase, r.err))) =
      some (some (.finishing, 0x020C)) := by decide +kernel

/-- Wing 0 with its Gate unit, one core of Imago 0, and its enables. -/
def stW (j : GateJob) : State :=
  setF (setF (setF (bindCore { State.reset with gates := [(0, { Gate.empty with waiting := [j] })] } 0 0)
    f_CHIP_CAP_WING_GATE_OK 0 1) f_CHIP_CAP_WING_ENABLED 0 1) f_GATE_CTRL_ENABLE 0 1

theorem meets_gateSelect_param : gateAvailable (stW (gj [])) 0 (gj []) = true ∧ gateParamOk (gj []) = false
    ∧ got (.gateDispatchSelect 0) (stW (gj [])) (fun s => (gateRun s 0).map GateRun.err) = some (some 0x0105) := by decide +kernel

theorem meets_gateGatherComplete : (gateRuns (stR (gj []) .gathering) 0 0 .gathering).isSome = true
    ∧ got (.gateGatherComplete 0) (stR (gj []) .gathering) (fun s => (gateRun s 0).map GateRun.phase) =
      some (some .finishing) := by decide +kernel

theorem meets_gateDispatchComplete :
    (gateOut (stR (gj []) .finishing) 0 = false ∧ gateErr (stR (gj []) .finishing) 0 = 0 ∧ gateStalled (stR (gj []) .finishing) 0 = false
      ∧ NoHeld (stR (gj []) .finishing))
    ∧ got (.gateDispatchComplete 0) (stR (gj []) .finishing) (fun s => (gateRun s 0).map GateRun.phase) = some (some .summed)
    ∧ got (.gateDispatchComplete 0) (stR (gj []) .summed) (fun s => (gateRun s 0).map GateRun.phase) = some (some .closing)
    ∧ got (.gateDispatchComplete 0) (stR (gj []) .closing)
      (fun s => (gateRun s 0, getR s r_GATE_DONE 0, (mfind s.cmds 5).map Cmd.fin)) = some (none, 1, some (some 0)) :=
  ⟨⟨by decide +kernel, by decide +kernel, by decide +kernel, fun kv h => by cases h⟩, by decide +kernel⟩

theorem meets_gateDispatchComplete_failed : got (.gateDispatchComplete 0) (stR (gj []) .promoting 0x0105)
    (fun s => (gateRun s 0).map (fun r => (r.phase, r.err))) = some (some (.finishing, 0x0105))
    ∧ got (.gateDispatchComplete 0) (stR (gj []) .finishing 0x0105)
    (fun s => (gateRun s 0, getR s r_GATE_DONE 0, (mfind s.cmds 5).map Cmd.fin)) = some (none, 0, some (some 0x0105)) := by
  decide +kernel

/-- ROUTE of no tokens and no experts, COMBINE and EXIT of none: every hypothesis of `Obligations.GateOperations` holds. -/
theorem meets_route :
    let s := stR (gj []) .selected
    (gateRuns s 0 0 .selected).isSome = true ∧ (∀ k, withLive s 0 (gj []) k = k [] s) ∧ tokenRows (gj []) s [] = (0, [], s)
    ∧ (∀ k, gateWrites 0 (gj []) s [] k = k s)
    ∧ got (.route 0 []) s (fun s => (gateRun s 0).map GateRun.phase) = some (some .promoting) :=
  ⟨by decide +kernel, fun _ => rfl, by decide +kernel, fun _ => rfl, by decide +kernel⟩

theorem meets_combine :
    let j := gj [(0, 1), (4, 1)]
    let s := stR j .selected
    (gateRuns s 0 1 .selected).isSome = true ∧ (∀ k, withLive s 0 j k = k [] s) ∧ (∀ k, gateClean s 0 j j.tokrec 0 k = k [] s)
    ∧ (∀ k, combineTokens 0 j [] s [] k = k s)
    ∧ got (.combine 0) s (fun s => (gateRun s 0).map GateRun.phase) = some (some .finishing) :=
  ⟨by decide +kernel, fun _ => rfl, fun _ => rfl, fun _ => rfl, by decide +kernel⟩

theorem meets_exit :
    let j := gj [(0, 2)]
    let s := stR j .selected
    (gateRuns s 0 2 .selected).isSome = true ∧ (∀ k, withLive s 0 j k = k [] s) ∧ (∀ k, gateWrite s 0 j j.live (clean []) k = k s)
    ∧ got (.exit 0 []) s (fun s => (gateRun s 0).map GateRun.phase) = some (some .finishing) :=
  ⟨by decide +kernel, fun _ => rfl, fun _ => rfl, by decide +kernel⟩

/-- A landing slot of wing 0 that holds core 0's bytes 4,096 to 8,191. -/
def ls0 (st : LandState) : LandSlot := ⟨0, 0, 0, 0, 0, 0, 4096, 4096, 0, st, [], 0, 0⟩
def stL (st : LandState) (n : Nat := 0) : State :=
  { stG grp0 [(4095, 1), (4096, 2), (8191, 3), (8192, 4)] with landing := [(7, { ls0 st with len := n })] }

theorem meets_slotFetchLanded : landMapped (stL .fetching) { ls0 .fetching with len := 0 } = true
    ∧ instarOf (stL .fetching) (.core 0) = (ls0 .fetching).instar
    ∧ got (.slotFetchLanded 7 []) (stL .fetching) (fun s => landOf s 7) = some (some .landed) := by decide +kernel

theorem meets_slotFetchVoid : landMapped (stL .fetching 4096) (ls0 .fetching) = false
    ∧ got (.slotFetchVoid 7) (stL .fetching 4096) (fun s => landOf s 7) = some (some .void)
    ∧ got (.slotFetchVoid 7) (stL .promoting 4096) (fun s => landOf s 7) = some (some .doomed) := by decide +kernel

theorem meets_slotPromoted : got (.slotPromoted 7 []) (stL .promoting) (fun s => landOf s 7) = some (some .promoted) := by
  decide +kernel

theorem meets_squash : got (.squash 7) (stL .doomed) (fun s => landOf s 7) = some (some .squashing) := by decide +kernel

theorem meets_squashComplete : got (.squashComplete 7) (stL .squashing 4096) (fun s => (landOf s 7, (core s 0).scr)) =
    some (none, [(4095, 1), (8192, 4)]) := by decide +kernel

theorem meets_slotTtlExpiry : got (.slotTtlExpiry 7) { stL .landed with now := 0xFFFFFFFF } (fun s => landOf s 7) =
    some (some .doomed) := by decide +kernel

theorem meets_gateCtrlWrite : got (.gateCtrlWrite 7 5) (stL .landed) (fun s => (getR s r_GATE_CTRL 7, landOf s 7)) =
    some (1, some .landed) := by decide +kernel

theorem meets_squashAll : got (.squashAll 0) (stL .landed) (fun s => landOf s 7) = some (some .doomed) := by decide +kernel

theorem meets_forget : got (.forget 0) (setR (stL .void) r_GATE_WGEN 0 0xFFFFFFFF)
    (fun s => (getF s f_GATE_WGEN_WGEN 0, landOf s 7)) = some (0, some .doomed) := by decide +kernel

/-! ## Memory -/

/-- A request of core 0 to 4 bytes of this chip's line 1. -/
def rq (op : ReqOp) (st : ReqStage) (data : List Byte) (owner : ReqOwner := .fetch 0 0) : MemReq :=
  { MemReq.make op owner 260 4 data 7 0 0 0 0 0 false with stage := st }

/-- That request is number 9; line 1 holds 1 at its byte 4, in HBM and in a buffer slice or not. -/
def stB (r : MemReq) (buf : Bool) : State :=
  { State.reset with
    reqs := [(9, r)]
    hbm := [(260, 1)]
    bufs := if buf then [(1, ⟨255, 0, 0, [0, 0, 0, 0, 1] ++ List.replicate 251 0, false, false, 0⟩)] else [] }

/-- The first bytes of line 1, and request 9's data. -/
def seen (s : State) : List Byte × Option (ReqStage × List Byte) :=
  ((lineBytes s 1).take 6, (mfind s.reqs 9).map (fun r => (r.stage, r.data)))

theorem meets_bufferRead : (atSlice (stB (rq .read .sent []) true) 9 .sent).isSome = true
    ∧ reqLine (stB (rq .read .sent []) true) (rq .read .sent []) = (1, 4)
    ∧ bufHit (stB (rq .read .sent []) true) 1 4 4 false = true ∧ bufHit (stB (rq .read .sent []) false) 1 4 4 false = false
    ∧ failedOn (stB (rq .read .sent []) true) (originOf (stB (rq .read .sent []) true) (rq .read .sent [])) (sliceRouter 0) = none
    ∧ got (.bufferRequest 9 []) (stB (rq .read .sent []) true) seen = some ([0, 0, 0, 0, 1, 0], some (.done, [1, 0, 0, 0]))
    ∧ got (.bufferRequest 9 []) (stB (rq .read .sent []) false) seen = some ([0, 0, 0, 0, 1, 0], some (.hbm, [])) := by
  decide +kernel

theorem meets_bufferWrite : got (.bufferRequest 9 []) (stB (rq .write .sent [7, 8, 9, 0]) true) seen =
    some ([0, 0, 0, 0, 7, 8], none) := by decide +kernel

theorem meets_hbmAccess : got (.hbmAccessComplete 9 []) (stB (rq .read .hbm []) false) seen =
      some ([0, 0, 0, 0, 1, 0], some (.done, [1, 0, 0, 0]))
    ∧ got (.hbmAccessComplete 9 []) (stB (rq .write .hbm [7, 8, 9, 0]) false) seen = some ([0, 0, 0, 0, 7, 8], none) := by
  decide +kernel

theorem meets_bufferAtomic : got (.bufferAtomic 9 []) (stB (rq (.atomic 0 4 false true) .sent [255, 0, 0, 0]) true) seen =
    some ([0, 0, 0, 0, 0, 1], some (.done, [1, 0, 0, 0])) := by decide +kernel

/-- 2⁻¹⁴⁹ + 1.0 = 1.0. -/
theorem meets_bufferReduction : got (.bufferReduction 9 []) (stB (rq (.reduce true) .sent [0, 0, 0x80, 0x3F] (.moverWrite 0 0)) true)
    (fun s => ((lineBytes s 1).drop 4 |>.take 4, mfind s.reqs 9)) = some ([0, 0, 0x80, 0x3F], none) := by decide +kernel

/-- Memory slice 255 is in the pool, and the scrubber runs. -/
def stS : State := setF (setF State.reset f_MEM_SLICE_STAT_PRESENT 255 1) f_MEM_CFG_SCRUB_EN 0 1

theorem meets_scrubLine : slicePresent stS 255 = true ∧ got (.scrubLine 255 [⟨8 * (255 * (sliceBytes / 256)) + 7, true⟩]) stS
    (fun s => (s.scrubPos, getR s r_MEM_UE 255, getF s f_MEM_UE_LOG_SLICE)) = some ([(255, 1)], 1, 255) := by decide +kernel

theorem meets_bridgeResend : got (.bridgeResend 3 7 true) { State.reset with bridgeRun := [(31, 15)] }
      (fun s => (getF s f_MEM_BRIDGE_STAT_FAILED 3, getF s f_MEM_BRIDGE_STAT_RETRIES 3)) = some (128, 1)
    ∧ got (.bridgeResend 3 7 true) { State.reset with bridgeRun := [(31, 14)] }
      (fun s => getF s f_MEM_BRIDGE_STAT_FAILED 3) = some 0 := by decide +kernel

/-- A dirty sector of line 1. -/
def stDirty : State :=
  { State.reset with bufs := [(1, ⟨1, 1, 0, [0, 0, 0, 0, 1] ++ List.replicate 251 0, false, false, 0⟩)] }

theorem meets_wb : got (.wb 0) stDirty (fun s => (s.hbm, s.bufs.map (fun kv => kv.2.dirty), (lineBytes s 1).take 6)) =
      some ([(260, 1)], [0], [0, 0, 0, 0, 1, 0])
    ∧ got (.wbinv 0) stDirty (fun s => (s.hbm, s.bufs, flagF s f_MEM_SLICE_STAT_WB_BUSY 0)) = some ([(260, 1)], [], true) := by
  decide +kernel

theorem meets_sliceCmdDone : got (.sliceCmdDone 255) (setF State.reset f_MEM_SLICE_STAT_WB_BUSY 255 1)
    (fun s => flagF s f_MEM_SLICE_STAT_WB_BUSY 255) = some false := by decide +kernel

theorem meets_regulatorWindow : got .regulatorWindow { State.reset with now := 1700, regCounts := [(1, 2)] }
    (fun s => (s.winStart, s.winLen, s.regCounts)) = some (1500, 500, []) := by decide +kernel

theorem meets_qosWinLenWrite : got (.qosWinLenWrite 63) State.reset (fun s => getF s f_QOS_WIN_LEN_TICKS) = some 500
    ∧ got (.qosWinLenWrite 64) State.reset (fun s => getF s f_QOS_WIN_LEN_TICKS) = some 64
    ∧ got (.qosWinLenWrite 16000) State.reset (fun s => getF s f_QOS_WIN_LEN_TICKS) = some 16000
    ∧ got (.qosWinLenWrite 16001) State.reset (fun s => getF s f_QOS_WIN_LEN_TICKS) = some 500 := by decide +kernel

/-- Aperture 15 shows HBM from 2 MiB on, after the bring-up. -/
def stA : State :=
  setF (setF (setF (setF (setF State.reset f_MEM_SLICE_STAT_PRESENT 0 1) f_MEM_APER_VALID 15 1) f_MEM_APER_BASE 15 1)
    f_MEM_APER_INSTANCE 15 0) f_RST_STATE_PHASE 0 9

theorem meets_aperture : apertureOpen stA = true ∧ apertureLine stA 15 252 = some 0x2000FC
    ∧ got (.apertureRequest 15 252 0 true false [1, 2, 3, 4] false) stA
      (fun s => (s.reply.ok, (lineBytes s 0x2000).drop 252)) = some (true, [1, 2, 3, 4])
    ∧ got (.apertureRequest 15 252 4 false false [] false) { stA with hbm := [(0x2000FF, 9)] }
      (fun s => s.reply) = some ⟨true, false, [0, 0, 0, 9]⟩
    ∧ apertureLine stA 14 252 = none ∧ got (.apertureRequest 14 252 0 true false [1] false) stA (fun s => s.reply.ok) = some false := by
  decide +kernel

/-! ## Translation and invalidation -/

/-- A tile of an unstalled device command. -/
def tile0 (o : TileOwner) : Tile := ⟨o, 3, 0, 0, 0, 256, 1, 0, 0, [0x1000], [], [], [], false, false⟩

/-- A level-0 walk for page 0x1000 of space 3, whose read has returned entry `e`. -/
def stWk (e level : Nat) : State :=
  { State.reset with
    tiles := [(4, tile0 (.device 0 0 0))]
    walks := [(5, ⟨3, 0, 0, 0x1000, level, 1, 0, 0, [4], false, false, 6⟩)]
    reqs := [(6, { MemReq.make .read (.walk 5) 0 8 (leBytes 8 e) 0 0 0xFF 3 0 0 false with stage := .done, data := leBytes 8 e })] }

theorem meets_walk_leaf : readEntry (stWk 0x2009 0) SlotInfo.empty 0x1000 0 0x2009 = .leaf ⟨0x1000, 4096, 1, 0x2000, 0⟩
    ∧ got (.walkReadReturn 5 false) (stWk 0x2009 0)
      (fun s => (s.walks.length, (mfind s.tiles 4).map (fun t => t.held.length), s.tlb.length)) = some (0, some 1, 1) := by
  decide +kernel

theorem meets_walk_table : got (.walkReadReturn 5 false) (stWk 0x2009 1)
    (fun s => (mfind s.walks 5).map (fun w => (w.level, w.loc, w.table))) = some (some (0, 1, 0x2000)) := by decide +kernel

theorem meets_walk_fault : readEntry (stWk 0 0) SlotInfo.empty 0x1000 0 0 = .fault 1 ∧ got (.walkReadReturn 5 false) (stWk 0 0)
    (fun s => ((mfind s.tiles 4).map (fun t => (t.stalled, t.entries)), (track s 0).used, getR s r_XLT_FAULTS,
      (mget [] s.fqHeld 1).length)) = some (some (true, [0]), true, 1, 1) := by decide +kernel

/-- Window 0's fault ring of two entries has room. -/
def stFq : State :=
  setF (setF { State.reset with fqHeld := [(0, [List.replicate 32 1])] } f_EVT_FQ_BASE_ENABLE 0 1) f_EVT_FQ_SIZE_LOG2 0 1

theorem meets_faultRecordPost : fqRoom stFq 0 = true ∧ got (.faultRecordPost 0) stFq
    (fun s => (mget [] s.fqHeld 0, (memBytes s.host 0 32).drop 28, getF s f_EVT_FQ_TAIL_INDEX)) =
    some ([], [1, 1, 1, 1], 1) := by decide +kernel

/-- Tracker entry 4,095 is outstanding, and command 9 of device work waits for it. -/
def stTr : State :=
  { State.reset with
    tiles := [(4, { tile0 (.device 0 0 9) with stalled := true, entries := [4095] })]
    cmds := [(9, { cmd0 with start := some 0 })]
    tracker := [(4095, ⟨true, 7, 3, 0, 0, 0x1000, 4096, 0⟩)] }

theorem meets_replay : winOpen stTr 0 = true ∧ answered stTr 0 (4095 + 7 * 4096) = some 4095
    ∧ got (.replay 0 (4095 + 7 * 4096)) stTr (fun s => ((track s 4095).used, (track s 4095).instar, s.tiles.length)) =
      some (false, 8, 0) := by decide +kernel

theorem meets_abort : got (.abort 0 (4095 + 7 * 4096)) stTr (fun s => ((track s 4095).used, (mfind s.cmds 9).map Cmd.fin)) =
    some (false, some (some 0x0401)) := by decide +kernel

theorem meets_replay_stale : answered stTr 0 4095 = none ∧ got (.replay 0 4095) stTr
    (fun s => getF s f_XLT_REPLAY_STALE_COUNT) = some 1 := by decide +kernel

theorem meets_faultTimeout : got (.faultTimeout 4095) { stTr with now := 0xFFFFFFFFFF, tiles := [] }
    (fun s => ((track s 4095).used, getR s r_XLT_FAULTS_TMO)) = some (false, 1) := by decide +kernel

theorem meets_iqTailWrite : got (.iqTailWrite 0 4097) State.reset (fun s => getF s f_XLT_IQ_TAIL_INDEX) = some 1 := by decide +kernel

/-- The physical function's invalidation ring holds a descriptor with this OP, a page count, and a translation is cached. -/
def stIq (op : Nat) : State :=
  setF (setF { State.reset with host := [(0, BitVec.ofNat 8 op), (16, 1)].filter (fun kv => kv.2 ≠ 0), tlb := [⟨256, 0, ⟨0, 4096, 0, 0, 0⟩⟩, ⟨256, 5, ⟨4096, 4096, 0, 0, 0⟩⟩] }
    f_XLT_IQ_BASE_ENABLE 0 1) f_XLT_IQ_TAIL_INDEX 0 1

/-- What is left in the TLB, and the invalidations in progress. -/
def inv (s : State) : List Nat × List InvKind := (s.tlb.map TlbEntry.space, s.invals.map (fun kv => kv.2.kind))

theorem meets_range : (iqHead (stIq 0) 0).isSome = true ∧ got (.range 0) (stIq 0) inv = some ([5], [.range 0 4096]) := by
  decide +kernel

theorem meets_space : got (.space 0) (stIq 1) inv = some ([5], [.space]) := by decide +kernel

theorem meets_all : got (.all 0) (stIq 2) inv = some ([], [.all]) := by decide +kernel

theorem meets_sync : got (.sync 0) (stIq 3) inv = some ([0, 5], [.sync]) := by decide +kernel

/-- An instance's window names a space it does not own. -/
theorem meets_space_rejected :
    let s := setF (setF (setF { stIq 1 with host := [(0, 1)] } f_SEC_INST_EXISTS 31 1) f_XLT_IQ_BASE_ENABLE 0 1 32)
      f_XLT_IQ_TAIL_INDEX 0 1 32
    winOpen s 32 = true ∧ winOwns s 32 0 = false ∧ got (.space 32) s (fun s => (flagF s f_XLT_IQ_STATUS_REJECTED 0 32, inv s)) =
      some (true, inv (stIq 1)) := by decide +kernel

/-- An invalidation that waits for walk 8, or for nothing. -/
def inv0 (idx : Option Nat) (l : List Nat) : State :=
  { State.reset with
    walks := [(8, ⟨3, 0, 0, 0, 0, 0, 0, 0, [], true, false, 0⟩)]
    invals := [(5, ⟨0, idx, .sync, 0, none, l, [], [], [], 0, false, none⟩)], now := 0xFFFFFFFF }

theorem meets_invalidationComplete : got (.invalidationComplete 5) (inv0 (some 0) []) (fun s => s.invals) = some [] := by
  decide +kernel

theorem meets_invalidationSlow : got (.invalidationSlow 5) (inv0 (some 0) [8])
    (fun s => (s.invals.map (fun kv => kv.2.slow), getR s r_XLT_INV_SLOW)) = some ([true], 1) := by decide +kernel

theorem meets_wsFlush : got (.wsFlush 0 (2 ^ 31 + 5)) (stIq 1) (fun s => (inv s, flagF s f_XLT_WS_FLUSH_BUSY)) =
      some (([0], [.space]), true)
    ∧ got (.wsFlush 0 7) (stIq 1) (fun s => (getF s f_XLT_WS_FLUSH_SPACE, flagF s f_XLT_WS_FLUSH_BUSY)) = some (7, false) := by
  decide +kernel

theorem meets_wsFlushComplete : got (.wsFlushComplete 5) (setF (inv0 none []) f_XLT_WS_FLUSH_BUSY 0 1)
    (fun s => (s.invals, flagF s f_XLT_WS_FLUSH_BUSY, getR s r_XLT_WS_FLUSH_DONE)) = some ([], false, 1) := by decide +kernel

/-! ## Composition -/

/-- Firmware's front request is a COMPOSE of `n` bytes at address 0, and the part is ready. -/
def stFw (n : Nat) : State :=
  setF { State.reset with fwq := [⟨0, [4, 0, 0, n, 0, 0, 0, 0, 0, 0, 0, 0, 0, 0, 0, 0]⟩] } f_RST_STATE_READY 0 1

theorem meets_compose_not_ready : (fwFront (stFw 184) 4).isSome = true ∧ got .compose { stFw 184 with regs := [] }
    (fun s => (getF s f_CMP_LAST_RESULT, s.fwq.length)) = some (0x0203, 0) := by decide +kernel

theorem meets_compose_length : got .compose (stFw 0) (fun s => (getF s f_CMP_LAST_RESULT, getF s f_CMP_LAST_RECORD)) =
    some (0x0101, 0xFFFF) := by decide +kernel

theorem meets_compose_format : got .compose (stFw 184) (fun s => getF s f_CMP_LAST_RESULT) = some 0x0101 := by decide +kernel

/-- A stream without records for Imago 31, signed under key 0. -/
def oat0 : Oatas := ⟨some 31, true, 0, 1, 0, 0, [], [], 0, []⟩

/-- The instance exists, and verification key 0 is valid. -/
def stKey : State := setF (setF (stFw 184) f_SEC_INST_EXISTS 31 1) f_SEC_CVK_VALID 0 1

theorem meets_compose_key : headerCheck (stFw 184) oat0 = some 0x0103 := by decide +kernel

theorem meets_compose_header (h : Config.ecdsaOk [] (Config.sha384 []) [] = true) : headerCheck stKey oat0 = none := by
  have h2 : Config.ecdsaOk (mget [] stKey.cvks oat0.keyIndex) (Config.sha384 oat0.signed) oat0.sig = true := h
  unfold headerCheck
  rw [h2]
  decide +kernel

theorem meets_compose_verify : (match verifyImago stKey oat0 31 with
    | .ok v => decide (v.inst = some 31) && v.asked.isEmpty && v.won.isEmpty
        && (firstBreach stKey (otherLoad stKey (some 31)) v.both).isNone && admissible stKey v.comp
    | .error _ => false) = true := by decide +kernel

/-- A stream that unbinds a core which is not held. -/
theorem meets_compose_unavailable : verifyImago stKey { oat0 with recs := [.unbind 0 [5]] } 31 = .error (0x0301, 0) := by
  have h : applyUnbind (currentComp stKey 31) ⟨currentComp stKey 31, [], [], [], []⟩ 0 (.unbind 0 [5]) = .error (0x0301, 0) := by
    have h1 : mfind (currentComp stKey 31).cores 5 = none := by decide +kernel
    simp [applyUnbind, overItems, h1, cmpSliceUnavailable]
  simp [verifyImago, applyRecs, overRecs, thenCheck, h]

/-- A verified stream for Imago 31 that binds core 143. -/
def v0 : Verif :=
  ⟨some 31, 1, false, [], { Comp.empty with cores := [(143, true)] }, [], [], ⟨[], [], []⟩, [], [], 0, some 0, [], []⟩

theorem meets_leaseHandshakeTimeout : got .leaseHandshakeTimeout { stFw 184 with
    verif := some { v0 with commitAt := none, asked := [(6, ⟨0, 1, 0, 0, 31⟩)] }, now := 250000 }
    (fun s => (getF s f_CMP_LAST_RESULT, getF s f_CMP_LAST_RECORD, s.verif)) = some (0x0402, 6, none) := by decide +kernel

theorem meets_commitTick :
    let s := { stFw 184 with verif := some v0, now := 20 }
    commitReady s v0 = true ∧ commitReady { s with now := 19 } v0 = false ∧ sortedKeys v0.comp.cores = true
      ∧ (fwFront s 4).isSome = true := by decide +kernel

/-- Core 143 is bound, and awake. -/
theorem test_bindCore : (coreBound (Machine.bindCore State.reset 31 143 true) 31 143,
    flagF (Machine.bindCore State.reset 31 143 true) f_CMP_CORE_AWAKE 143) = (true, true) := by decide +kernel

theorem meets_commitTick_pool : got (.commitTick []) { stFw 184 with verif := some { v0 with inst := none }, now := 20 }
    (fun s => (getF s f_CMP_POOL_EPOCH_EPOCH, flagF s f_CMP_POOL_EPOCH_CHRYSALIS)) = some (1, true) := by decide +kernel

/-- Imago 31 in chrysalis with a freed slice. -/
def stChr : State := { setF State.reset f_CMP_EPOCH_STATE 31 4 with imagos := [(31, { Imago.empty with freed := [255] })] }

theorem meets_chrysalisEnd : chrysalisOver stChr 31 = true ∧ got (.chrysalisEnd 31) stChr
    (fun s => (getF s f_CMP_EPOCH_STATE 31, getF s f_CMP_MEM_STATE 255, (imago s 31).freed)) = some (1, 4, []) := by decide +kernel

theorem meets_chrysalisEnd_pool : got (.chrysalisEnd 0xFF) (setF State.reset f_CMP_POOL_EPOCH_CHRYSALIS 0 1)
    (fun s => flagF s f_CMP_POOL_EPOCH_CHRYSALIS) = some false := by decide +kernel

theorem meets_chrysalisSlow : got (.chrysalisSlow 31) { stChr with now := 0xFFFFFFFFFF }
    (fun s => (flagF s f_CMP_EPOCH_SLOW 31, (mget [] s.evHeld 0).length)) = some (true, 1) := by decide +kernel

theorem meets_coreLeft : coreDone State.reset 143 = true ∧ got (.coreLeft 143) (setF State.reset f_CMP_CORE_STATE 143 2)
    (fun s => (getF s f_CMP_CORE_STATE 143, getF s f_CMP_CORE_INSTANCE 143, instarOf s (.core 143))) = some (0, 255, 1) := by
  decide +kernel

theorem meets_linkSliceLeft : got (.linkSliceLeft 31) (setF State.reset f_CMP_LINK_STATE 31 4)
    (fun s => (getF s f_CMP_LINK_STATE 31, getF s f_CMP_LINK_INSTANCE 31)) = some (1, 255) := by decide +kernel

theorem meets_scrubComplete : got (.scrubComplete 1) (setF { State.reset with
    hbm := [(sliceBytes - 1, 1), (sliceBytes, 2), (2 * sliceBytes, 3)] } f_CMP_MEM_STATE 1 4)
    (fun s => (s.hbm, getF s f_CMP_MEM_STATE 1)) = some ([(sliceBytes - 1, 1), (2 * sliceBytes, 3)], 1) := by decide +kernel

/-- Imago 0, with regions of `rb` × 64 KiB, moves the entry of slice 0 to slice 1. -/
def stEv (rb cursor : Nat) : State :=
  setF (setF { State.reset with hbm := [(256 * cursor, 7)], imagos := [(0, { Imago.empty with
    evac := [⟨1023, 0, 0, 1, 0, 5, cursor, 0, false, none⟩] })] } f_TMV_BCH_CFG_USE 0 1) f_CMP_IMG_RB_RB 0 rb

theorem meets_evacuateLine : ((imago (stEv 1 254) 0).evac.head?.bind fun e => evacChan (stEv 1 254) (imago (stEv 1 254) 0).evac e).isSome = true ∧ got (.evacuateLine 0 0 []) (stEv 1 254)
    (fun s => ((lineBytes s (sliceBytes / 256 + 254)).take 1, (imago s 0).evac.map EvacEntry.cursor)) =
      some ([7], [255]) := by decide +kernel

theorem meets_evacuateLine_flip : got (.evacuateLine 0 0 []) (stEv 1 255)
    (fun s => ((imago s 0).evac.map EvacEntry.flipped, getR s r_CMP_ILV 1023)) = some ([true], 2 ^ 31 + 5) := by decide +kernel

/-! ## Queues and commands -/

/-- Bytes listed by their offset, the rest zero. -/
def byt (n : Nat) (l : List (Nat × Nat)) : List Byte := (List.range n).map (fun i => BitVec.ofNat 8 (mget 0 l i))

/-- Context 7 of the physical function in slot 3, which holds Imago 0; its addresses 0 to 1 GiB lie in host memory from 1 GiB on. -/
def ctx7 : Ctx := ⟨0, 0, 0x100, 1, 0, 1, 0x200000, 0x400, 8, some 3, [], 0, none, 0, none, false, 0, 0, 0⟩
def q0 : Queue := ⟨7, 0, 2, 0x1000, 4, 0, 0x2000, 0, 0, 0, 0, 15, 1, 0, [], false, 0, none, 0⟩
def cq (l : List (Nat × Nat)) : Cmd := { cmd0 with queue := 2, space := 7, bytes := byt 64 l }
def stQ (q : Queue) (cs : SMap Cmd) (m : Mem := []) : State :=
  setF (setF (setF { State.reset with
    ctxs := [(7, ctx7)], slots := [(3, ⟨7, 0, 0, 1, 0x1000⟩)], queues := [(2, q)], cmds := cs
    host := [(0x1000, 9), (0x1001, 0x30), (0x3000, 0xB), (0x3003, 0x40)] ++ m }
    f_SCH_IMG_VALID 0 1) f_SCH_IMG_HOLDER 0 3) f_SCH_SLOT_STATE 3 2

/-- The arguments of a window operation of window 0. -/
def args (s : State) (l : List Nat) : State := (List.range 4).foldl (fun s k => setR s r_SCH_ARG k (l.getD k 0) 0) s

theorem meets_winOp : (winOpen State.reset 0 = true ∧ flagF State.reset f_SCH_RESULT_BUSY 0 0 = false
    ∧ Nat.land (schArg (args State.reset [5]) 0 0) argSpace = 5) ∧ got (.ctxCreate 0) (args State.reset [5])
    (fun s => resultOf s 0) = some 0x0A06 := by decide +kernel

/-- Window 0 has a directory at page 1, and the space table at page 2 gives space 5 to the physical function; a descriptor of
space 5 stands at address 64. -/
def stDir (dsc : Mem) (ent : Mem) : State :=
  args (setF (setF (setF (setF { State.reset with host := dsc ++ ent } f_SCH_CTX_DIR_ENABLE 0 1) f_SCH_CTX_DIR_ADDR 0 1)
    f_XLT_SPACE_BASE_ENABLE 0 1) f_XLT_SPACE_BASE_ADDR 0 2) [5, 64]

theorem meets_ctxCreate :
    let s := stDir [(64, 5), (68, 2), (76, 1), (0x4A, 1)] [(0x2050, 1), (0x2058, 255)]
    (spaceEntry s 5).map Prod.fst = some 255 ∧ got (.ctxCreate 0) s (fun s => (resultOf s 0, (ctxOf s 5).map Ctx.prio,
      memBytes s.host 0x1028 2)) = some (0, some 2, [64, 0]) := by decide +kernel

theorem meets_ctxCreate_refused : got (.ctxCreate 0) (stDir [] [(0x2050, 1), (0x2058, 3)]) (fun s => resultOf s 0) =
    some 0x0A01 := by decide +kernel

theorem meets_ctxDestroy : got (.ctxDestroy 0) (args (stQ q0 []) [7]) (fun s => (resultOf s 0, (ctxOf s 7).map Ctx.down)) =
    some (0, some (some (0x0601, 0))) := by decide +kernel

theorem meets_ctxKill_absent : got (.ctxKill 0) (args State.reset [7]) (fun s => resultOf s 0) = some 0x0A03 := by decide +kernel

theorem meets_winCtx : winCtx (args (stQ q0 []) [3 + 2 ^ 32 * 7]) 0 7 = (0, some ctx7) := by rfl

theorem meets_qCreate : got (.qCreate 0) (args (stQ q0 []) [3 + 2 ^ 32 * 7, 0x5000, 0x210, 64])
    (fun s => (resultOf s 0, (queueOf s 3).map (fun v => (v.ring, v.log2, v.mode)), instarOf s (.queue 3))) =
    some (0, some (0x5000, 16, 2), 1) := by decide +kernel

theorem meets_qCreate_exists : got (.qCreate 0) (args (stQ q0 []) [2 + 2 ^ 32 * 7]) (fun s => resultOf s 0) = some 0x0A02 := by
  decide +kernel

theorem meets_qDestroy : got (.qDestroy 0) (args (stQ q0 []) [2]) (fun s => (resultOf s 0, queueOf s 2)) = some (0, none)
    ∧ got (.qDestroy 0) (args (stQ { q0 with cmds := [5] } []) [2]) (fun s => resultOf s 0) = some 0x0A07 := by decide +kernel

theorem meets_qResume_flush : (winQueue (args (stQ q0 []) [2 + 65536]) 0 2).isSome = true
    ∧ got (.qResume 0) (args (stQ { q0 with cmds := [5], state := 1 } [(5, cq [])]) [2 + 65536])
      (fun s => ((queueOf s 2).map (fun v => (v.state, v.flush)), finOf s 5)) = some (some (0, 2), some (some 0x0603)) := by
  decide +kernel

/-- Object 1 of the context is live with generation 0. -/
def objM : Mem := [(0x40000431, 1)]

theorem meets_objFree : got (.objFree 0) (args (stQ q0 [] objM) [7, 1])
    (fun s => (resultOf s 0, s.objs.length, (mget [] s.evHeld 0).length, mem8 s.host 0x40000431)) = some (0, 0, 1, 3) := by
  decide +kernel

theorem meets_objFree_held : got (.objFree 0) (args { stQ q0 [] objM with objs := [(objKey 7 1, ⟨2, false, 0, 0, 0⟩)] } [7, 1])
    (fun s => (resultOf s 0, (mfind s.objs (objKey 7 1)).map (fun o => (o.refs, o.freeing)))) = some (0, some (2, true)) := by
  decide +kernel

/-- The fence of the tests: address 0x800 of context 7. -/
def fenG : Nat := hostWindow + 0x40000800

theorem noHeld_nil {s : State} (h : s.reqs = []) : NoHeld s := by
  intro kv hk
  rw [h] at hk
  cases hk

theorem meets_homeHere : HomeHere (stQ q0 []) (ctxSlot (stQ q0 []) 7) (adminQ 0) 0 0x800 fenG
    (devTouch (stQ q0 []) (ctxSlot (stQ q0 []) 7) (adminQ 0) 0 0x800) :=
  ⟨⟨⟨2, 0, by decide +kernel⟩, rfl, by decide, by decide, ⟨by decide +kernel, by decide +kernel, by decide +kernel, .inl (by decide)⟩,
    noHeld_nil rfl⟩, by decide +kernel⟩

theorem meets_fenceSignal : (fun s => fenceWords s fenG) (stQ q0 [] [(0x40000800, 9)]) = (9, 0)
    ∧ got (.fenceSignal 0) (args { stQ q0 [(5, cq [])] [(0x40000800, 9)] with fenceWaiters := [⟨fenG, 12, .queue 2 5 0⟩] }
        [7, 0x800, 12]) (fun s => (resultOf s 0, fenceWords s fenG, finOf s 5)) = some (0, (12, 0), some (some 0)) := by
  decide +kernel

theorem meets_fenceError : got (.fenceError 0) (args (stQ q0 []) [7, 0x800, 5]) (fun s => (resultOf s 0, fenceWords s fenG)) =
    some (0, (0, 65541)) := by decide +kernel

theorem meets_fenceReset : got (.fenceReset 0) (args (stQ q0 [] [(0x40000808, 5), (0x4000080A, 3)]) [7, 0x800, 2])
    (fun s => (resultOf s 0, fenceWords s fenG)) = some (0, (2, 0x20000)) := by decide +kernel

theorem meets_fence_fault : (fenceAt (stQ q0 []) (ctxSlot (stQ q0 []) 7) (adminQ 0) 0 0x40000000).1 = .bad
    ∧ got (.fenceSignal 0) (args (stQ q0 []) [7, 0x40000000]) (fun s => resultOf s 0) = some 0x0A08 := by decide +kernel

theorem meets_doorbell : got (.doorbell 0 2 14) (stQ q0 []) (fun s => (queueOf s 2).map (fun v => (v.tail, v.state))) =
      some (some (14, 0))
    ∧ got (.doorbell 0 2 16) (stQ q0 []) (fun s => ((queueOf s 2).map (fun v => (v.tail, v.state, v.code)),
      (mget [] s.evHeld 0).length)) = some (some (1, 1, 0x0101), 1) := by decide +kernel

/-- The entry at HEAD (15) of the ring is a MARKER. -/
theorem meets_commandTake :
    let s := stQ q0 [] [(0x400013C0, 10)]
    let r := devRead s (ctxSlot s 7) 2 0 (0x1000 + 64 * 15) 64
    r.1 = .ok (byt 64 [(0, 10)]) 0
    ∧ (validate r.2 (ctxSlot s 7) 2 ctx7 (Cmd.ofEntry 2 15 (byt 64 [(0, 10)]) 7 ctx7)).1 = .ok 0 []
    ∧ got (.commandTake 2) s (fun s => ((queueOf s 2).map (fun v => (v.head, v.cmds)), (cmdOf s 1).map Cmd.op)) =
      some (some (0, [1]), some 10) := by decide +kernel

theorem meets_commandTake_bad : got (.commandTake 2) (stQ q0 []) (fun s => (cmdOf s 1).map Cmd.bad) = some (some 0x0101) := by
  decide +kernel

theorem meets_commandTake_poison :
    let s := { stQ q0 [] with hostPoison := [(0x400013C0 / 32, true)] }
    got (.commandTake 2) s (fun s => (queueOf s 2).map (fun v => (v.head, v.state, v.code))) = some (some (15, 1, 0x0301)) := by
  decide +kernel

/-- A visible entry for context 5 of the physical function, which is not resident; the save area is empty. -/
def stRes (area : Nat) : State :=
  { stDir [] [(0x2050, 1), (0x2058, 255)] with
    ctxs := [(5, { ctx7 with inst := 255, slot := none, frames := area })], queues := [(2, { q0 with space := 5 })] }

theorem meets_contextResident : wantsSlot (stRes 0) 5 = true ∧ (residents (stRes 0) 255).length < winSlots (stRes 0) 0
    ∧ got (.contextResident 5) (stRes 0) (fun s => ((ctxOf s 5).map Ctx.slot, slotState s 0, getF s f_SCH_SLOT_SPACE 0)) =
      some (some (some 0), 1, 5)
    ∧ got (.contextResident 5) (stRes 1) (fun s => (queueOf s 2).map (fun v => (v.state, v.code))) = some (some (1, 0x0402)) := by
  decide +kernel

theorem meets_instarAdvance : got (.instarAdvance (.queue 2)) { stQ { q0 with state := 4 } [] with instarDue := [(0x10002, 1)] }
    (fun s => (instarOf s (.queue 2), (queueOf s 2).map Queue.state, s.instarDue)) = some (1, some 0, []) := by decide +kernel

/-! ### Commands -/

/-- Command 5 of queue 2 has started. -/
def stCmd (l : List (Nat × Nat)) (m : Mem := []) : State := stQ { q0 with cmds := [5] } [(5, { cq l with start := some 0 })] m

theorem meets_commandStart :
    let s := stQ { q0 with cmds := [5] } [(5, cq [(0, 10)])]
    mayStart s 5 (cq [(0, 10)]) = true ∧ fenced s 0 = false
    ∧ got (.commandStart 5) s (fun s => (cmdOf s 5).map Cmd.start) = some (some (some 0)) := by decide +kernel

theorem meets_commandStart_bad : got (.commandStart 5) (stQ { q0 with cmds := [5] } [(5, { cq [(0, 10)] with bad := 0x0101 })])
    (fun s => finOf s 5) = some (some (some 0x0101)) := by decide +kernel

theorem meets_commandStart_propagating : got (.commandStart 5) (stQ { q0 with cmds := [5], state := 2, code := 9 } [(5, cq [(0, 10)])])
    (fun s => finOf s 5) = some (some (some 9)) := by decide +kernel

/-- A launch block at address 0x80: code of 8 bytes, `g` groups in batches of 4. -/
def lbM (g : Byte) : Mem := [(0x40000088, 8), (0x40000098, g), (0x4000009C, 1), (0x4000009E, 1), (0x400000A0, 4)]

theorem meets_kernel : got (.kernel 5) (stCmd [(0, 1), (0x20, 0x80)] (lbM 5)) (fun s => ((cmdOf s 5).map Cmd.begun,
      s.kernels.map (fun k => k.2.nbatch))) = some (some true, [2])
    ∧ got (.kernel 5) (stCmd [(0, 1), (0x20, 0x80)] (lbM 0)) (fun s => finOf s 5) = some (some (some 0))
    ∧ got (.kernel 5) (stCmd [(0, 1), (0x20, 0x40)]) (fun s => finOf s 5) = some (some (some 0x0102)) := by decide +kernel

theorem meets_kernel_invalid : launchOk (launchOf 0x80 (byt 128 [])) = false ∧ got (.kernel 5) (stCmd [(0, 1), (0x20, 0x80)])
    (fun s => finOf s 5) = some (some (some 0x0102)) := by decide +kernel

theorem meets_mayDeal : leastLoaded (stCmd [(0, 3)]) [0] = some 0 ∧ holdsImago (stCmd [(0, 3)]) (cq [(0, 3)]) = true
    ∧ (workDies (stCmd [(0, 3)]) 0) = [0, 1, 2, 3] := by decide +kernel

theorem meets_copy : got (.copy 5) (stCmd [(0, 2), (0x28, 2), (0x2C, 1)]) (fun s => ((cmdOf s 5).map (fun c => (c.next, c.running)),
    (chan s 256 0).queue.length)) = some (some (1, 1), 1) := by decide +kernel

theorem meets_copy_credit : got (.copy 5) (stCmd [(0, 2), (0x28, 2), (0x2C, 1)] [(0x40000000, 5)]) (fun s => finOf s 5) =
    some (some (some 0x0104)) := by decide +kernel

theorem meets_fill : got (.fill 5) (stCmd [(0, 3), (0x2B, 2)]) (fun s => ((cmdOf s 5).map Cmd.next,
    (chan s 256 0).queue.map (fun d => (d.op, d.rows)))) = some (some 0x2000000, [(1, 4)]) := by decide +kernel

theorem meets_migrate : got (.migrate 5) (stCmd [(0, 9), (0x20, 0x10), (0x28, 2)] [(0x40000011, 0x10)])
      (fun s => ((cmdOf s 5).map Cmd.next, (chan s 256 0).queue.length)) = some (some 1, 1)
    ∧ got (.migrate 5) (stCmd [(0, 9), (0x20, 0x10), (0x28, 2)] [(0x40000010, 1)]) (fun s => finOf s 5) =
      some (some (some 0x0101)) := by decide +kernel

theorem meets_signal : got (.signal 5) (stCmd [(0, 4), (9, 8), (0x10, 3)]) (fun s => (finOf s 5, fenceWords s fenG)) =
      some (some (some 0), (3, 0))
    ∧ got (.signal 5) (stCmd [(0, 4)]) (fun s => finOf s 5) = some (some (some 0))
    ∧ got (.signal 5) (stCmd [(0, 4), (8, 8)]) (fun s => finOf s 5) = some (some (some 0x0504)) := by decide +kernel

theorem meets_wait : got (.wait 5) (stCmd [(0, 5), (0x21, 8), (0x28, 3)] [(0x40000800, 3)]) (fun s => finOf s 5) =
      some (some (some 0))
    ∧ got (.wait 5) (stCmd [(0, 5), (0x21, 8), (0x28, 3)] [(0x40000808, 7), (0x4000080A, 1)]) (fun s => finOf s 5) =
      some (some (some 7))
    ∧ got (.wait 5) (stCmd [(0, 5), (0x21, 8), (0x28, 3)]) (fun s => (finOf s 5, s.fenceWaiters)) =
      some (some none, [⟨fenG, 3, .queue 2 5 0⟩]) := by decide +kernel

theorem meets_waitTimeout : got (.waitTimeout 5) { stCmd [(0, 5), (0x30, 1)] with now := 100000, fenceWaiters := [⟨fenG, 3, .queue 2 5 0⟩] }
    (fun s => (finOf s 5, s.fenceWaiters)) = some (some (some 0x0503), []) := by decide +kernel

theorem meets_gateDispatch :
    let s := stQ { q0 with cmds := [5] } [(5, cq [(0, 7)])]
    mayStart s 5 (cq [(0, 7)]) = true ∧ got (.gateDispatch 5) s (fun s => ((gateOf s 0).waiting.length, (cmdOf s 5).map Cmd.start)) =
      some (1, some (some 0))
    ∧ got (.gateDispatch 5) { s with host := s.host ++ [(0x40000001, 8)] } (fun s => finOf s 5) = some (some (some 0x0105)) := by
  decide +kernel

/-- A dispatch of context 7 whose summary, ten zeros, goes to address 64. -/
def runSum : GateRun := ⟨{ gj [(0x80, 64)] with space := 7, queue := 2 }, .finishing, 0, [], 0, [], List.replicate 10 0, [], none, 0⟩
def stSum : State := { stCmd [(0, 7)] with gates := [(0, { Gate.empty with run := some runSum })] }

/-- A write of one line whose address is translated goes on. -/
theorem gateLook_one {w c va n : Nat} {j : GateJob} {s : State} {k : State → State}
    (h : (devAccess s (jobSlot s j).2 (gateQ w) c [(va, n)] (fun s _ => (.ok [] 0, s))).1 = .ok [] 0) :
    gateLook w j c s [(va, n)] k = k (devAccess s (jobSlot s j).2 (gateQ w) c [(va, n)] (fun s _ => (.ok [] 0, s))).2 := by
  simp only [gateLook]
  split <;> simp_all

theorem meets_gateSummary : ∃ s1, (∀ k, gateWrite stSum 0 runSum.job runSum.job.summary (clean (summaryRecord runSum.sum)) k = k s1)
    ∧ gateRun s1 0 = some runSum
    ∧ got (.gateDispatchComplete 0) stSum (fun s => ((gateRun s 0).map GateRun.phase, memBytes s.host 0x40000040 2)) =
      some (some .summed, [0, 0]) := by
  have hv : runSum.job.summary = 64 := by decide +kernel
  have hc : [(64, clean (summaryRecord runSum.sum))].flatMap (cutAt 256) = [(64, clean (summaryRecord runSum.sum))] := by decide +kernel
  have hl : (clean (summaryRecord runSum.sum)).length = 64 := by decide +kernel
  have h : (devAccess stSum (jobSlot stSum runSum.job).2 (gateQ 0) 1 [(64, 64)] (fun s _ => (.ok [] 0, s))).1 = .ok [] 0 := by
    decide +kernel
  refine ⟨gateWrite stSum 0 runSum.job runSum.job.summary (clean (summaryRecord runSum.sum)) id, fun k => ?_, by decide +kernel,
    by decide +kernel⟩
  simp only [gateWrite, gateWrites, gatePut, hv, hc, List.map_cons, List.map_nil, hl, gateLook_one h, id]

/-- The bytes of parts of lines that a dispatch reads, with the state after, when nothing stops it. -/
def runParts (w : Nat) (j : GateJob) (s : State) : List (Nat × Nat) → Option (List PByte × State)
  | [] => some ([], s)
  | p :: ps => match devRead s (jobSlot s j).2 (gateQ w) 1 p.1 p.2 with
    | (.ok d bad, s) => (runParts w j s ps).map (fun r => (pBytes p.1 d bad ++ r.1, r.2))
    | _ => none

theorem gateParts_run (w : Nat) (j : GateJob) (k : List PByte → State → State) : ∀ (l : List (Nat × Nat)) (s : State)
    (acc : List PByte) (r : List PByte × State), runParts w j s l = some r → gateParts w j s l acc k = k (acc ++ r.1) r.2
  | [], s, acc, r, h => by cases h; simp [gateParts]
  | p :: ps, s, acc, r, h => by
    simp only [runParts] at h
    simp only [gateParts]
    split at h
    · next d bad s' he =>
      obtain ⟨q, hq, rfl⟩ := Option.map_eq_some_iff.mp h
      rw [he]
      exact (gateParts_run w j k ps s' _ q hq).trans (by rw [List.append_assoc])
    · cases h

/-- A ROUTE with RUNAHEAD, its gathers over, whose next predictor record, at 0x4000, is one of 8 experts. -/
def runArm : GateRun := ⟨{ gj [(6, 1), (0x91, 0x40)] with space := 7, queue := 2 }, .gathering, 0, [], 0, [], List.replicate 10 0, [], none, 0⟩
def stArm : State :=
  setF { stCmd [(0, 7)] [(0x40004000, 0x50), (0x40004001, 0x52), (0x40004002, 0x44), (0x40004003, 0x31), (0x40004006, 8), (0x40004008, 1)] with
    gates := [(0, { Gate.empty with run := some runArm })] } f_GATE_CTRL_RUNAHEAD_EN 0 1

theorem meets_gateArm : ∃ bs s1, (∀ k, gateRead stArm 0 runArm.job runArm.job.nextPred 4096 k = k bs s1)
    ∧ ((runArm.job.runahead = true ∧ flagF stArm f_GATE_CTRL_RUNAHEAD_EN 0 = true ∧ gateRun s1 0 = some runArm)
    ∧ (bs.any Prod.snd = false ∧ predBad (bs.map Prod.fst) none = false
      ∧ predStale (bs.map Prod.fst) (getF s1 f_GATE_WGEN_WGEN 0) = false)
    ∧ got (.gateGatherComplete 0) stArm (fun s => ((gateRun s 0).map GateRun.phase, (gateOf s 0).plans.map (fun p => (p.1, p.2.next, p.2.layer)))) =
      some (some .finishing, [(3, 0x4000, 0)])) := by
  have h : ((runParts 0 runArm.job stArm (linePieces 0x4000 4096)).map (fun r => (gateRun r.2 0 = some runArm)
      && (!r.1.any Prod.snd && !predBad (r.1.map Prod.fst) none && !predStale (r.1.map Prod.fst) (getF r.2 f_GATE_WGEN_WGEN 0)))) =
      some true := by decide +kernel
  obtain ⟨r, hr, hp⟩ := Option.map_eq_some_iff.mp h
  simp only [Bool.and_eq_true, decide_eq_true_eq, Bool.not_eq_true'] at hp
  have hv : runArm.job.nextPred = 0x4000 := by decide +kernel
  refine ⟨r.1, r.2, fun k => ?_, ⟨by decide +kernel, by decide +kernel, hp.1⟩, ⟨hp.2.1.1, hp.2.1.2, hp.2.2⟩, by decide +kernel⟩
  rw [hv]
  exact (gateParts_run 0 runArm.job k _ _ [] r hr).trans (by simp)

theorem meets_atomicSeq : got (.atomicSeq 5) (stCmd [(0, 8), (0x28, 1)]) (fun s => finOf s 5) = some (some (some 0x0207))
    ∧ got (.atomicSeq 5) (stCmd [(0, 8), (0x28, 1)] [(0x40000008, 7)]) (fun s => finOf s 5) = some (some (some 0x0101))
    ∧ got (.atomicSeq 5) (stCmd [(0, 8), (0x28, 0)]) (fun s => finOf s 5) = some (some (some 0)) := by decide +kernel

/-- The first 2 MiB from 1 GiB on of context 7 are Imago 0's memory, whose entry 0 lies at the start of slice 0. -/
def stLoc (l : List (Nat × Nat)) (m : Mem) : State :=
  let s := stCmd l []
  setF (setR (setF (setF { s with
    hbm := [(0, 7)]
    host := [(0x1000, 9), (0x1001, 0x30), (0x3000, 0xB), (0x3003, 0x40), (0x3008, 9), (0x3009, 0x40), (0x4000, 3)] ++ m }
    f_CMP_IMG_RB_RB 0 1) f_CMP_SLIST_VALID 0 1) r_CMP_ILV 0 (2 ^ 31)) f_MEM_SLICE_STAT_PRESENT 0 1

/-- An ADD of 5 to the 4 bytes at 1 GiB. -/
theorem meets_atomicSeq_add :
    let s := stLoc [(0, 8), (0x28, 1)] [(0x40000003, 0x40), (0x40000010, 5)]
    devPlace s (ctxSlot s 7) 2 5 0x40000000 = (.ok [] 0, some (0, 1, 0)) ∧ got (.atomicSeq 5) s
      (fun s => ((lineBytes s 0).take 2, (cmdOf s 5).map (fun c => (c.next, c.count, c.fin)))) =
      some ([12, 0], some (1, 1, none)) := by decide +kernel

theorem meets_marker : got (.marker 5) { stCmd [(0, 10), (0x20, 7), (0x29, 8), (0x30, 1)] with now := 9 }
    (fun s => (finOf s 5, fenceWords s fenG, (mget [] s.evHeld 0).length)) = some (some (some 0), (7, 9), 1)
    ∧ got (.marker 5) (stCmd [(0, 10)]) (fun s => finOf s 5) = some (some (some 0)) := by decide +kernel

/-- Command 5 has ended. -/
def stEnd (l : List (Nat × Nat)) (code : Nat) (mode : Nat := 0) : State :=
  stQ { q0 with cmds := [5], mode := mode } [(5, { cq l with start := some 0, fin := some code, fenceOk := true })]

theorem meets_commandComplete : got (.commandComplete 5) (stEnd [] 0) (fun s => (cmdOf s 5, (queueOf s 2).map (fun v =>
      (v.cmds, v.completed, v.state, v.code)))) = some (none, some ([], 1, 0, 0))
    ∧ got (.commandComplete 5) (stEnd [] 0x0301) (fun s => (queueOf s 2).map (fun v => (v.state, v.code))) = some (some (2, 0x0301))
    ∧ got (.commandComplete 5) (stEnd [] 0x0301 1) (fun s => (queueOf s 2).map (fun v => (v.state, v.code))) =
      some (some (1, 0x0301)) := by decide +kernel

theorem meets_commandComplete_record : got (.commandComplete 5) (stEnd [(0, 10), (4, 3), (0x38, 0x40)] 0)
    (fun s => (memBytes s.host 0x40000040 7, cmdOf s 5)) = some ([3, 0, 0, 0, 0, 0, 10], none) := by decide +kernel

theorem meets_commandComplete_fence : got (.commandComplete 5) (stEnd [(0, 10), (9, 8), (0x10, 3)] 0) (fun s => fenceWords s fenG) =
    some (3, 0) := by decide +kernel

/-! ## Scheduling and events -/

/-- Context 7 has a command that could start, and Imago 0 has no holder. -/
def stSch : State := setF (setF (stQ { q0 with cmds := [5] } [(5, cq [(0, 2)])]) f_SCH_IMG_VALID 0 0) f_SCH_SLOT_STATE 3 1

theorem meets_sliceEnd : holderOf stSch 0 = none ∧ readyCtxs stSch 0 = [7] ∧ got (.sliceEnd 0) stSch (fun s =>
      (getF s f_SCH_IMG_HOLDER 0, flagF s f_SCH_IMG_VALID 0, slotState s 3, (sched s 0).start, (sched s 0).len)) =
      some (3, true, 2, some 0, 500000)
    ∧ got (.sliceEnd 0) State.reset (fun s => decide (s = State.reset)) = some true := by decide +kernel

/-- The holder 7 has no work. -/
theorem meets_sliceEnd_idle : holderOf (stQ q0 []) 0 = some 7 ∧ got (.sliceEnd 0) (stQ q0 []) (fun s =>
    (flagF s f_SCH_IMG_VALID 0, slotState s 3, (sched s 0).old)) = some (false, 3, some 7) := by decide +kernel

/-- The holder 7 has work, and its slice is over. -/
theorem meets_sliceEnd_renewed : got (.sliceEnd 0) { stQ { q0 with cmds := [5] } [(5, cq [(0, 2)])] with
    scheds := [(0, { Sched.empty with start := some 0, len := 9 })], now := 9 } (fun s => (sched s 0).start) = some (some 9) := by
  decide +kernel

/-- Context 8 in slot 63 has a higher priority than the holder. -/
theorem meets_sliceEnd_displaced :
    let s := { stQ { q0 with cmds := [5], space := 8 } [(5, { cq [(0, 2)] with space := 8 })] with
      ctxs := [(7, ctx7), (8, { ctx7 with prio := 0, slot := some 63 })], slots := [(3, ⟨7, 0, 0, 1, 0x1000⟩), (63, ⟨8, 0, 0, 1, 0x1000⟩)] }
    (readyCtxs s 0).filter (fun c => decide (prioOf s c < prioOf s 7)) = [8] ∧ got (.sliceEnd 0) s (fun s =>
      (getF s f_SCH_IMG_HOLDER 0, slotState s 63, slotState s 3, (sched s 0).displaced)) = some (63, 2, 3, [(1, 7)]) := by
  decide +kernel

theorem meets_handoverComplete :
    let s := { stQ q0 [] with
      ctxs := [(7, ctx7), (8, { ctx7 with slot := some 63 })], slots := [(3, ⟨7, 0, 0, 1, 0x1000⟩), (63, ⟨8, 0, 0, 1, 0x1000⟩)]
      scheds := [(0, { Sched.empty with old := some 8, late := 4 })] }
    coresOf s 8 = [] ∧ npRunning s 8 = false ∧ bulkStopped s 8 = true ∧ holderOf s 0 = some 7 := by decide +kernel

theorem meets_npOverrun : got (.npOverrun 5) { stQ q0 [(5, { cq [(0, 8)] with start := some 0 })] with now := 0x1000000000 }
    (fun s => ((cmdOf s 5).map Cmd.overPosted, getR s r_SCH_NP_OVERRUNS, (mget [] s.evHeld 0).length)) =
    some (some true, 1, 1) := by decide +kernel

/-- A teardown of context 7 that began at tick 0. -/
def stDown (ab : Bool) : State :=
  { stQ q0 [] with ctxs := [(7, { ctx7 with down := some (0x0601, 0), downAborted := ab })], now := 50000 }

theorem meets_teardownAbort : due (stDown false) 0 (100 * usTicks) = true
    ∧ got (.teardownAbort 7) { stDown false with cmds := [(5, cq [])], tracker := [(9, ⟨true, 7, 7, 0, 0, 0, 4096, 0⟩)] }
      (fun s => (finOf s 5, (track s 9).used, instarOf s (.slot 3), s.invals.map (fun kv => kv.2.teardown))) =
      some (some (some 0x0601), false, 1, [some 7]) := by decide +kernel

theorem meets_quiesce_queues : (queuesOf (stDown true) 7).all (fun q => instarReady (stDown true) (.queue q)
    && decide (mget 0 (stDown true).instarDue (Unit8.queue q).key = 0)) = true := by decide +kernel

theorem meets_quiesce : got (.quiesce 7) { stDown true with queues := [] } (fun s => ((ctxOf s 7).isSome, mget [] s.evHeld 0)) =
      some (false, [eventRecord 0x12 0x0601 7 3 0 0 50000])
    ∧ got (.quiesce 7) { stDown true with queues := [(2, { q0 with tail := 15 })] } (fun s => (queueOf s 2).isSome) =
      some false := by decide +kernel

/-- Window 32's event ring of two entries, armed and enabled. -/
def stEq : State :=
  setF (setF (setF { State.reset with evHeld := [(32, [List.replicate 56 1])], armed := [65] }
    f_EVT_EQ_BASE_ENABLE 0 1 32) f_EVT_EQ_SIZE_LOG2 0 1 32) f_EVT_IRQ_CFG_EQ_EN 0 1 32

theorem meets_eventRecordPost : eqRoom stEq 32 = true ∧ got (.eventRecordPost 32) stEq
    (fun s => (memBytes s.host 54 10, mget [] s.evHeld 32, s.msixDue, s.armed)) =
    some ([1, 1, 1, 0, 0, 0, 0, 0, 0, 0x80], [], [65], []) := by decide +kernel

theorem meets_msixSend : got (.msixSend 32 1) { stEq with msixDue := [65] } (fun s => (s.msix, s.msixDue)) = some ([(32, 1)], [])
    ∧ got (.msixSend 32 1) stEq (fun s => decide (s = stEq)) = some true := by decide +kernel

theorem meets_headWrites : got (.evtEqHeadWrite 32 1) State.reset (fun s => (s.armed, getF s f_EVT_EQ_HEAD_INDEX 0 32)) =
      some ([65], 1)
    ∧ got (.evtFqHeadWrite 0 1) State.reset (fun s => (s.armed, getF s f_EVT_FQ_HEAD_INDEX)) = some ([0], 1) := by decide +kernel

/-! ## Links -/

/-- Port 31 is UP and leads to chip 2. -/
def upTo (s : State) : State :=
  setF (setF (setF { s with ports := [(31, { Port.empty with credits := fullCredits })] } f_LNK_RT_VALID 2 1) f_LNK_RT_PORT0 2 31)
    f_LNK_PORT_STAT_STATE 31 2

/-- What port 31 holds. -/
def sentOf (s : State) : List (Nat × Nat × Nat) := (heldMsgs (port s 31)).map (fun m => (m.type, m.aux, m.dest))

/-- A message of chip 2 to this chip. -/
def lm (type aux addr : Nat) (data : List Byte := []) : LinkMsg := ⟨type, 4, 0, 2, 0, 0, 0, 0, none, 5, aux, addr, data, 0, 0⟩

/-- The message has arrived on port 31. -/
def inp (m : LinkMsg) (s : State) : State := { s with linkIn := [(31, m)] }

theorem meets_reach : Reach (upTo State.reset) 2 := ⟨by decide, by decide +kernel, by decide +kernel, by simp [upTo, setF, setR, State.reset], by decide +kernel⟩

/-! ### Collectives -/

/-- An all-gather of two ranks, this one first, in chunks of 256 bytes. -/
def dG : List Byte := byt 128 [(0, 2), (2, 2), (8, 9), (0xD, 1), (0x12, 1), (0x21, 4), (0x2A, 1)]
def dM : Mem := [(0x40000080, 2), (0x40000082, 2), (0x40000088, 9), (0x4000008D, 1), (0x40000092, 1), (0x400000A1, 4), (0x400000AA, 1),
  (0x40000404, 2)]
def stColl (cs : SMap Coll) (m : Mem := dM) : State :=
  upTo (setF { stCmd [(0, 6), (0x20, 0x80), (0x2C, 1)] m with colls := cs } f_SILK_RANGE_SIZE 0 4)

theorem meets_collective : collOk dG 4 = true ∧ collRanks 0 0 0 (byt 8 [(4, 2)]) = some [(0, 0), (2, 0)]
    ∧ got (.collective 5) (stColl []) (fun s => ((mfind s.colls 9).map (fun v => (v.cmd, v.step)), sentOf s)) =
      some (some (some 5, 0), [(0x16, 65536, 2)]) := by decide +kernel

theorem meets_collective_bad : got (.collective 5) (stColl [] []) (fun s => finOf s 5) = some (some (some 0x0101))
    ∧ collRanks 0 0 0 (byt 8 []) = none := by decide +kernel

/-- The descriptor and the peers are read, and no request is held back. -/
theorem meets_collective_reads : ((cmdOf (stColl []) 5).map (fun c =>
    let r := devRead (stColl []) (ctxSlot (stColl []) c.space) c.queue 5 (c.num 0x20 8) 128
    let b := devRead r.2 (ctxSlot (stColl []) c.space) c.queue 5 (collPeers dG) (4 * collN dG)
    (match r.1, b.1 with
      | .ok d 0, .ok _ 0 => decide (d = dG)
      | _, _ => false) && b.2.reqs.isEmpty && decide (c.inst < 32))) = some true := by decide +kernel

/-- The collective, open at step 0. -/
def c0 : Coll := ⟨7, 0, some 5, dG, [(0, 0), (2, 0)], 0, 0, 0, [1], [], [], 0, 1, none, [], []⟩

theorem meets_collective_again : got (.collective 5) (stColl [(9, { c0 with cmd := none })]) (fun s =>
      (mfind s.colls 9).map Coll.cmd) = some (some (some 5))
    ∧ got (.collective 5) (stColl [(9, { c0 with cmd := none, fate := some 3 })]) (fun s => finOf s 5) =
      some (some (some 3)) := by decide +kernel

theorem meets_collRuns : CollRuns (stColl [(9, c0)]) 5 9 c0 := ⟨by decide +kernel, by decide +kernel⟩

/-- A channel is free for the action, and the chunk is read. -/
theorem meets_collChans : ((cmdOf (stColl [(9, c0)]) 5).map (fun c =>
    let r := collLines (stColl [(9, c0)]) (ctxSlot (stColl []) c.space) c.queue 5 (collBuf dG) 256
    (match r.1 with
      | .ok _ => true
      | _ => false) && r.2.reqs.isEmpty && !(collChans (stColl [(9, c0)]) c c0).isEmpty)) = some true
    ∧ ((cmdOf (stColl [(9, c0)]) 5).map (fun c => collChans (stColl [(9, c0)]) c { c0 with desc := dG.set 0x2A 0 })) =
      some [] := by decide +kernel

theorem meets_collSend : collSend dG 0 = some ⟨1, 0, 256, 0⟩ ∧ got (.collSendAction 5) (stColl [(9, c0)])
      (fun s => ((mfind s.colls 9).map Coll.sendSt, sentOf s)) = some (some 1, [(7, 0, 2)])
    ∧ got (.collSendAction 5) (stColl [(9, { c0 with opens := [] })]) (fun s => decide (s = stColl [(9, { c0 with opens := [] })])) =
      some true := by decide +kernel

theorem meets_collReceive : collRecv dG 0 = some ⟨1, 256, 256, 0⟩
    ∧ got (.collReceiveAction 5) (setR (stColl [(9, c0)]) r_SILK_CTR 0 1) (fun s => (mfind s.colls 9).map Coll.recvSt) =
      some (some 1)
    ∧ got (.collReceiveAction 5) (stColl [(9, c0)]) (fun s => (mfind s.colls 9).map Coll.recvSt) = some (some 0) := by
  decide +kernel

theorem meets_collActionComplete : got (.collActionComplete 5 true) (stColl [(9, { c0 with recvSt := 1, sendSt := 1 })])
      (fun s => ((mfind s.colls 9).map Coll.recvSt, sentOf s)) = some (some 2, [(0x16, 0, 2)])
    ∧ got (.collActionComplete 5 false) (stColl [(9, { c0 with recvSt := 2, sendSt := 1 })])
      (fun s => ((mfind s.colls 9).map Coll.step, finOf s 5)) = some (some 1, some (some 0)) := by decide +kernel

theorem meets_collTimeout : got (.collTimeout 5) { stColl [(9, c0)] with now := 0xFFFFFFFFFF } (fun s => finOf s 5) =
    some (some (some 0x0503)) := by decide +kernel

/-- A tree all-reduce of two leaders and their leaves: rank 0 receives from its leaf at step 0, on chip. -/
def dT : List Byte := byt 128 [(0, 1), (1, 1), (2, 4), (6, 2), (8, 9), (0xD, 1), (0x12, 1), (0x21, 4), (0x2A, 1)]

theorem meets_collPut : collRecv dT 0 = some ⟨1, 0, 1024, 2⟩
    ∧ got (.collPut 0) (inp (lm 7 0 9 (List.replicate 256 1)) (stColl [(9, { c0 with desc := dT })])) (fun s =>
      (mfind s.colls 9).map (fun v => mget 0 v.got 0)) = some (some 256)
    ∧ got (.collPut 0) (inp (lm 7 0xFFFF 9) (stColl [(9, c0)])) (fun s => (finOf s 5, s.colls.length)) =
      some (some (some 0x0803), 0)
    ∧ got (.collPut 0) (inp (lm 7 0 8) (stColl [(9, c0)])) (fun s => sentOf s) = some [(6, 1, 2)] := by decide +kernel

theorem meets_collToken : got (.collToken 0) (inp (lm 0x16 65536 9) (stColl [(9, { c0 with opens := [] })])) (fun s =>
      (mfind s.colls 9).map Coll.opens) = some (some [1])
    ∧ got (.collToken 0) (inp (lm 0x16 0 9) (stColl [(9, c0)])) (fun s => getR s r_SILK_CTR 1) = some 1 := by decide +kernel

/-! ### Ports -/

/-- Port 31 may train. -/
def stTrain : State := setF (setF (setF State.reset f_CMP_LINK_STATE 31 1) f_LNK_PORT_CTRL_ENABLE 31 1) f_RST_STATE_PHASE 0 9

theorem meets_lnkPortCtrlWrite : got (.lnkPortCtrlWrite 31 1) stTrain (fun s => (portState s 31, getR s r_LNK_PORT_CTRL 31)) =
      some (1, 1)
    ∧ got (.lnkPortCtrlWrite 31 0) (upTo State.reset) (fun s => portState s 31) = some 0 := by decide +kernel

theorem meets_portTrained : got (.portTrained 31 151) (setF State.reset f_LNK_PORT_STAT_STATE 31 1)
    (fun s => (portState s 31, getF s f_LNK_PORT_STAT_DELAY_NS 31, flagF s f_LNK_PORT_STAT_LONG 31)) = some (2, 151, true) := by
  decide +kernel

theorem meets_trainingTimeout : got (.trainingTimeout 31) (setF { State.reset with now := 0xFFFFFFFF } f_LNK_PORT_STAT_STATE 31 1)
    (fun s => (portCause s 31, (port s 31).failedTraining)) = some (5, true) := by decide +kernel

theorem meets_delayProbe : got (.delayProbe 31 150) { upTo State.reset with now := 250000 }
    (fun s => (getF s f_LNK_PORT_STAT_DELAY_NS 31, flagF s f_LNK_PORT_STAT_LONG 31)) = some (150, false) := by decide +kernel

/-- A port with a READ of this chip that waits. -/
def stHeld : State :=
  { upTo State.reset with ports := [(31, { Port.empty with waiting := [{ lm 1 8 0 with src := 0, dest := 2 }] })] }

theorem meets_lockLoss : got (.lockLoss 31) stHeld (fun s => (portState s 31, portCause s 31,
      getF s f_LNK_PORT_LOST_COUNT 31, s.linkIn.map (fun x => (x.2.type, x.2.aux)))) = some (0, 1, 1, [(6, 6)]) := by
  decide +kernel

theorem meets_laser : got (.laserLow 31) (upTo State.reset) (fun s => (portState s 31, portCause s 31)) = some (0, 3)
    ∧ got (.laserRestored 31) (setF stTrain f_LNK_PORT_STAT_LASER_LOW 31 1) (fun s => portState s 31) = some 1 := by decide +kernel

theorem meets_linkctlAckSend : got (.linkctlAckSend 31) { upTo State.reset with now := 64 } (fun s =>
    ((port s 31).unacked.map SentFlit.vl, (port s 31).txSeq, getR s r_LNK_PORT_TX 31)) = some ([6], 2, 1) := by decide +kernel

/-- Key slot 3 names the port's encryption. -/
def stEnc : State := setF (setF { upTo State.reset with
  ports := [(31, { Port.empty with encAsked := some 0, encFlits := 2 ^ 40 })], now := 250000 } f_LNK_PORT_CTRL_ENC_EN 31 1)
    f_LNK_PORT_CTRL_KEY_SLOT 31 3

theorem meets_encReqTimeout : linkSlot stEnc 31 = some (3, false) ∧ got (.encReqTimeout 31) stEnc (fun s => (port s 31).encAsked) =
      some none
    ∧ got (.encReqTimeout 31) (setF { stEnc with imagos := [(0, { Imago.empty with linkKeys := [(31, 3)] })] } f_CMP_LINK_INSTANCE 31 0)
      (fun s => (portState s 31, portCause s 31)) = some (4, 4) := by decide +kernel

/-- A good flit without messages. -/
def fl0 : Flit := ⟨true, 1, 0, 1, 0, false, 2, false, 0, 0, 0, 0, 0, []⟩
def w0 : WireMsg := ⟨1, 4, 0, 2, 0, 0, 0, 0, 0, 19, 5, 8, 0, [], 0⟩

theorem meets_flitReceive : got (.flitReceive 31 { fl0 with msgs := [w0] }) (upTo State.reset) (fun s => ((port s 31).rxSeq,
      getR s r_LNK_PORT_FEC 31, s.linkIn.map (fun x => x.2.type))) = some (1, 1, [1])
    ∧ got (.flitReceive 31 { fl0 with msgs := [{ w0 with ageMs := 20 }] }) (upTo State.reset) (fun s => (s.linkIn.length,
      getR s r_RST_DISCARDS)) = some (0, 1)
    ∧ got (.flitReceive 31 { fl0 with seq := 2 }) (upTo State.reset) (fun s => ((port s 31).rxSeq, (port s 31).nakSent)) =
      some (0, true) := by decide +kernel

theorem meets_flitReceive_bad : got (.flitReceive 31 { fl0 with good := false, uncorrectable := 2 }) (upTo State.reset) (fun s =>
      ((port s 31).nakSent, getR s r_LNK_PORT_UNCORR 31)) = some (true, 2)
    ∧ got (.flitReceive 31 { fl0 with good := false, enc := true }) { upTo State.reset with
      ports := [(31, { Port.empty with encFails := 15 })] } (fun s => (portState s 31, portCause s 31)) = some (4, 4)
    ∧ got (.flitReceive 31 { fl0 with nak := true }) { upTo State.reset with
      ports := [(31, { Port.empty with resends := 15, unacked := [⟨9, 0, 0, none⟩] })] } (fun s => (portState s 31, portCause s 31)) =
      some (0, 2) := by decide +kernel

/-- R7, R413: each field of a header is little-endian, at its offset. -/
theorem test_wireBytes : wireBytes ⟨2, 5, 2, 0x0102, 0x0304, 0x0506, 7, 31, 0x0A0B0C, 9, 0x11121314, 0x21222324,
      0x3132333435363738, [0xAA], 0⟩ =
    [0x02, 0x15, 0x02, 0x01, 0x04, 0x03, 0x06, 0x05, 0x07, 0x1F, 0x01, 0x00, 0x0C, 0x0B, 0x0A, 0x09,
      0x14, 0x13, 0x12, 0x11, 0x24, 0x23, 0x22, 0x21, 0x38, 0x37, 0x36, 0x35, 0x34, 0x33, 0x32, 0x31, 0xAA] := by decide +kernel

/-! ### Messages -/

theorem meets_transit : got (.messageTransit 0) (inp { lm 1 8 0 with dest := 2, src := 3, hops := 1, label := 0 } (upTo State.reset))
      (fun s => (heldMsgs (port s 31)).map (fun m => (m.hops, m.label))) = some [(2, 4)]
    ∧ got (.messageTransit 0) (inp { lm 1 8 0 with dest := 9 } (upTo State.reset)) (fun s => (sentOf s, getR s r_LNK_DISCARDS)) =
      some ([(6, 3, 2)], 1)
    ∧ got (.messageTransit 0) (inp { lm 1 8 0 with dest := 2, hops := 3 } (upTo State.reset)) (fun s => sentOf s) =
      some [(6, 4, 2)] := by decide +kernel

/-- Slice 1 is lent to instance 0 of chip 2 under lease 4, through port 31. -/
def stLent (taken : Nat) : State :=
  setF (setF (setF (setF { upTo State.reset with leaseTerms := [(63, ⟨0, 2 ^ 31, 0, false⟩)] } f_CMP_LEASE_LEASE 63 4)
    f_CMP_LEASE_PEER_CHIP 63 2) f_CMP_LEASE_UNIT 63 1) f_CMP_LEASE_TAKEN 63 taken

theorem meets_linkRead : (admitPeer (stLent 1) 31 (lm 1 8 sliceBytes) 8).toOption = some 63
    ∧ got (.linkRead 0) (inp (lm 1 8 sliceBytes) (stLent 1)) (fun s => (s.reqs.map (fun kv => (kv.2.gpa, kv.2.len)),
      s.linkReqs.map (fun kv => kv.2.left))) = some ([(sliceBytes, 8)], [1])
    ∧ got (.linkRead 0) (inp (lm 1 8 0) (stLent 1)) (fun s => (s.reqs.length, sentOf s)) = some (0, [(6, 1, 2)]) := by decide +kernel

theorem meets_linkWrite : got (.linkWrite 0) (inp (lm 2 1 sliceBytes [1]) (stLent 1)) (fun s => s.reqs.map (fun kv => kv.2.data)) =
    some [[1]] := by decide +kernel

theorem meets_linkAtomic : got (.linkAtomic 0) (inp (lm 3 4 sliceBytes [1, 2, 3, 4, 5]) (stLent 1)) (fun s =>
      s.reqs.map (fun kv => (kv.2.data, kv.2.data2))) = some [([1, 2, 3, 4], [5])]
    ∧ got (.linkAtomic 0) (inp (lm 3 5 sliceBytes) (stLent 1)) (fun s => sentOf s) = some [(6, 1, 2)] := by decide +kernel

/-- Request 5 is out at chip 2 for a command. -/
def stOut (op : ReqOp) : State :=
  { upTo State.reset with reqs := [(5, { MemReq.make op (.command 0 9) (2 * 2 ^ 48) 2 [] 4 0 0 0 0 0 false with stage := .remote })] }

theorem meets_resp : got (.resp 0) (inp (lm 4 0 0 [7, 8, 9]) (stOut .read)) (fun s => (mfind s.reqs 5).map (fun r => (r.stage, r.data))) =
      some (some (.done, [7, 8]))
    ∧ got (.resp 0) (inp (lm 4 0 0) (upTo State.reset)) (fun s => getR s r_RST_LATE) = some 1 := by decide +kernel

/-- The link that the response comes back on reaches the requester, and no lease is over. -/
theorem meets_resp_route : failedOn (stOut .read) (portRouter 31) (originOf (stOut .read)
      { MemReq.make .read (.command 0 9) (2 * 2 ^ 48) 2 [] 4 0 0 0 0 0 false with stage := .remote }) = none
    ∧ leaseOver (stOut .write) (MemReq.make .write (.command 0 9) (2 * 2 ^ 48) 2 [] 4 0 0 0 0 0 false) = false := by
  decide +kernel

/-- Slice 0 of chip 2 is borrowed, and its lease is lost. -/
def stGone : State :=
  setF (setF (setF { stOut .read with leaseTerms := [(63, ⟨0, 0, 0, true⟩)] } f_CMP_LEASE_LEASE 63 4) f_CMP_LEASE_PEER_CHIP 63 2)
    f_CMP_LEASE_DIR 63 1

theorem meets_err_gone : leaseGone stGone (2 * 2 ^ 48) = true ∧ got (.err 0) (inp (lm 6 1 0) stGone)
    (fun s => (mfind s.reqs 5).map (fun r => (r.stage, r.poison, r.err))) = some (some (.done, 255, 0)) := by decide +kernel

theorem meets_linkAck : got (.linkAck 0) (inp (lm 5 0 0) (stOut .write)) (fun s => s.reqs.length) = some 0 := by decide +kernel

theorem meets_err : got (.err 0) (inp (lm 6 5 0) (stOut .write)) (fun s => (mfind s.reqs 5).map MemReq.err) = some (some 0x0801)
    ∧ got (.err 0) (inp (lm 6 1 0) { stCmd [] with fenceOuts := [(5, ⟨2, 2, 5, true, 0, 7, 0, 0⟩)] }) (fun s => (finOf s 5, s.fenceOuts)) =
      some (some (some 0x0803), []) := by decide +kernel

theorem meets_linkAbort : got (.linkAbort 0) { stLent 1 with
    linkIn := [(31, lm 8 0 0), (31, lm 1 8 0), (31, { lm 1 8 0 with inst := 1 })], linkReqs := [(3, ⟨lm 2 0 0, 31, [], 1⟩)] }
    (fun s => (s.linkIn.length, s.linkReqs.length)) = some (1, 0) ∧ (stLent 1).reqs = [] := by decide +kernel

/-- Import entry 255 admits instance 0 of chip 2 to the counters of instance 0 from 16,383 on. -/
def stImp (v : Nat) : State :=
  setR (setF (setF (setF (setF (upTo State.reset) f_SILK_IMPORT_VALID 255 1) f_SILK_IMPORT_PEER_CHIP 255 2) f_SILK_IMPORT_SIZE 255 1)
    f_SILK_IMPORT_BASE 255 16383) r_SILK_CTR 16383 v

theorem meets_import : importOf (stImp 0) (lm 0x10 0 3) = some 255 ∧ importOf (upTo State.reset) (lm 0x10 0 3) = none
    ∧ getF (stImp 0) f_SILK_IMPORT_BASE 255 = 16383 := by decide +kernel

theorem meets_silkAddMsg : got (.silkAddMsg 0 false) (inp (lm 0x10 0 3) (stImp 4)) (fun s => (getR s r_SILK_CTR 16383, sentOf s)) =
      some (7, [(0x15, 0, 2)])
    ∧ got (.silkAddMsg 0 false) (inp (lm 0x10 1 3) (stImp 4)) (fun s => sentOf s) = some [(6, 1, 2)]
    ∧ got (.silkAddMsg 0 false) (inp { lm 0x10 0 3 with instar := 1 } (stImp 4)) (fun s => (getR s r_SILK_CTR 16383, sentOf s)) =
      some (4, [(6, 2, 2)]) := by decide +kernel

theorem meets_silkReadMsg : got (.silkReadMsg 0 false) (inp (lm 0x11 0 3) (stImp 4)) (fun s => sentOf s) = some [(0x14, 0, 2)] := by
  decide +kernel

theorem meets_silkWaitgeMsg : got (.silkWaitgeMsg 0 false) (inp (lm 0x12 0 4) (stImp 4)) (fun s => sentOf s) = some [(0x14, 0, 2)]
    ∧ got (.silkWaitgeMsg 0 false) (inp (lm 0x12 0 5) (stImp 4)) (fun s => s.silkWaiters.map SilkWaiter.value) = some [5] := by
  decide +kernel

theorem meets_silkTakeMsg : got (.silkTakeMsg 0 false) (inp (lm 0x13 0 0) (stImp 4)) (fun s => (getR s r_SILK_CTR 16383, sentOf s)) =
      some (3, [(0x14, 0, 2)])
    ∧ got (.silkTakeMsg 0 false) (inp (lm 0x13 0 0) (stImp 0)) (fun s => s.silkWaiters.map SilkWaiter.take) = some [true] := by
  decide +kernel

/-- Operation 5 of group 0 of core 0 went to chip 2. -/
def stSilk (k : ThreadKind) : State :=
  upTo { stG { grp0 with wait := .silk 5 } with ops := [(5, ⟨k, 0, 0, 1, 0, 0, 0, false, 3, 0, [], [], false, false, 0, 0⟩)] }

theorem meets_silkRelease : got (.silkRelease 0 false) (inp (lm 0x14 0 4) (stSilk .silkRead)) (fun s =>
      s.silkReplies.map (fun kv => kv.2.value)) = some [4]
    ∧ got (.silkRelease 0 false) (inp (lm 0x14 0 4) (stSilk .silkWait)) (fun s => ((groupOf s 0 0).map Group.wait, sentOf s)) =
      some (some .ready, [(0x15, 0, 2)])
    ∧ got (.silkRelease 0 false) (inp (lm 0x14 0 4) (upTo State.reset)) (fun s => sentOf s) = some [(6, 2, 2)] := by decide +kernel

theorem meets_silkAck : got (.silkAck 0) (inp (lm 0x15 0 0) (stSilk .silkAdd)) (fun s => s.ops.length) = some 0
    ∧ got (.silkAck 0) (inp (lm 0x15 0 0) { upTo State.reset with silkSent := [⟨false, 0, 0, .peer 2 0 5, 0, 0⟩] })
      (fun s => s.silkSent.length) = some 0 := by decide +kernel

theorem meets_peerFence : PeerFence (stLent 1) 31 (lm 0x22 0 sliceBytes) := by
  have h1 : ∀ n, bufOf (stLent 1) n = none := fun _ => rfl
  have h2 : (stLent 1).imagos = [] := rfl
  have h3 : (stLent 1).fenceWaiters = [] := rfl
  refine ⟨by decide, ⟨63, by decide +kernel⟩, by decide +kernel, ⟨by decide +kernel, by decide +kernel, by decide +kernel, .inr ⟨?_, ?_⟩⟩,
    by decide +kernel, (by rw [h3]; intro w hw; cases hw)⟩
  · intro b hb
    rw [h1] at hb
    cases hb
  · rw [h2]
    intro w hw
    cases hw

theorem meets_fenceOp : got (.fenceOp 0) (inp (lm 0x22 0 sliceBytes [5, 0, 0, 0, 0, 0, 0, 0]) (stLent 1)) (fun s =>
      (fenceWords s sliceBytes, sentOf s)) = some ((5, 0), [(0x23, 0, 2)])
    ∧ got (.fenceOp 0) (inp (lm 0x22 3 sliceBytes [5]) (stLent 1)) (fun s => s.fenceWaiters.map FenceWaiter.value) = some [5]
    ∧ got (.fenceOp 0) (inp (lm 0x22 0x0303 sliceBytes) (stLent 1)) (fun s => sentOf s) = some [(0x23, 0x30000, 2)]
    ∧ got (.fenceOp 0) (inp (lm 0x22 0 0) (stLent 1)) (fun s => sentOf s) = some [(6, 1, 2)] := by decide +kernel

theorem meets_fenceRelease : got (.fenceRelease 0) (inp (lm 0x23 7 0) { stCmd [] with fenceOuts := [(5, ⟨2, 2, 5, true, 0, 7, 0, 0⟩)] })
    (fun s => (finOf s 5, s.fenceOuts)) = some (some (some 7), []) := by decide +kernel

theorem meets_lease : got (.lease 0) (inp (lm 0x24 0 (4 + 2 ^ 32)) (stLent 0)) (fun s => (flagF s f_CMP_LEASE_TAKEN 63, sentOf s)) =
      some (true, [(0x24, 1, 2)])
    ∧ got (.lease 0) (inp (lm 0x24 0 (4 + 2 ^ 32)) (stLent 1)) (fun s => sentOf s) = some [(0x24, 2, 2)]
    ∧ got (.lease 0) (inp (lm 0x24 0 4) (stLent 1)) (fun s => sentOf s) = some [(0x24, 2, 2)]
    ∧ got (.lease 0) (inp (lm 0x24 3 (4 + 2 ^ 32)) (stLent 1)) (fun s => flagF s f_CMP_LEASE_TAKEN 63) = some false
    ∧ got (.lease 0) (inp (lm 0x24 5 (4 + 2 ^ 32)) (stLent 0)) (fun s => flagF s f_CMP_LEASE_TAKEN 63) = some false := by
  decide +kernel

theorem meets_lease_lost : got (.lease 0) (inp (lm 0x24 4 (4 + 2 ^ 32)) (setF (stLent 1) f_CMP_LEASE_DIR 63 1)) (fun s =>
    ((mget LeaseTerms.empty s.leaseTerms 63).lost, (mget [] s.evHeld 0).length)) = some (true, 1) := by decide +kernel

/-! ### Peers -/

theorem meets_hello : freePeer (upTo State.reset) = some 0 ∧ got (.hello 0) (inp { lm 0x20 3 9 with tag := 6 } (upTo State.reset))
      (fun s => (getR s r_LNK_PEER 0, getR s r_LNK_PORT_PEER 31)) = some (2 + 0x90000 + 6 * 2 ^ 32, 2 + 0x30000 + 2 ^ 31)
    ∧ got (.hello 0) (inp { lm 0x20 3 9 with src := 0 } (upTo State.reset)) (fun s => (portState s 31, portCause s 31)) =
      some (4, 6) := by decide +kernel

/-- Entry 4,095 is chip 2's, in a state. -/
def stPeer (st : Nat) : State :=
  setR { upTo State.reset with peers := [(4095, ⟨9, 0, []⟩)] } r_LNK_PEER 4095 (2 + st * 2 ^ 16 + 0x80000)

theorem meets_hello_again : got (.hello 0) (inp { lm 0x20 3 9 with tag := 0 } (stPeer 1)) (fun s => peerState s 4095) = some 2 := by decide +kernel

theorem meets_advert : got (.advert 0) (inp (lm 0x21 0 0 [7, 0, 3, 0, 5, 0, 0, 0]) (upTo State.reset)) (fun s => getR s r_LNK_PEER 0) =
      some (7 + 0x10000 + 4 * 0x80000 + 5 * 2 ^ 32)
    ∧ got (.advert 0) (inp (lm 0x21 0 0 [7, 0, 4, 0, 5, 0, 0, 0]) (upTo State.reset)) (fun s => (s.peers, getR s r_LNK_DISCARDS)) =
      some ([], 1) := by decide +kernel

theorem meets_peerAgeExpiry : got (.peerAgeExpiry 4095) { stPeer 2 with now := 0xFFFFFFFFFF } (fun s => peerState s 4095) = some 3
    ∧ got (.peerAgeExpiry 4095) { stPeer 3 with now := 0xFFFFFFFFFF, cmds := [(5, cq [])], fenceOuts := [(8, ⟨2, 2, 5, true, 0, 7, 0, 0⟩)] }
      (fun s => (peerState s 4095, finOf s 5)) = some (6, some (some 0x0802)) := by decide +kernel

theorem meets_linkIdle : got (.linkIdle 0) (inp (lm 0x25 0 0) (stPeer 2)) (fun s => peerState s 4095) = some 5 := by decide +kernel

theorem meets_peerNotice : got (.peerNotice 0) (inp (lm 0x18 1 0) (stPeer 2)) (fun s => peerState s 4095) = some 4
    ∧ got (.peerNotice 0) (inp (lm 0x18 0 0) (stPeer 4)) (fun s => peerState s 4095) = some 2 := by decide +kernel

/-- Chip 2 is the neighbour on port 31, and time has passed. -/
def stNear : State := { setR (setF (stPeer 2) f_LNK_STATUS_TIME_SYNC 0 1) r_LNK_PORT_PEER 31 (2 + 2 ^ 31) with now := 0xFFFFFFFFFF }

theorem meets_sends : got .helloSend stNear (fun s => (sentOf s, s.lastHello)) = some ([(0x20, 31, 2)], 0xFFFFFFFFFF)
    ∧ got .advertSend stNear (fun s => sentOf s) = some [(0x21, 0, 2)]
    ∧ got .timeSend stNear (fun s => sentOf s) = some [(0x26, 0, 2)] := by decide +kernel

/-- Key slot 3 may derive link keys. -/
def stKeyed : State := setR stEnc r_SEC_KEY_ATTR 3 (3 + 2 ^ 8 + 2 ^ 17)

theorem meets_encReq : linkSlot stKeyed 31 = some (3, false) ∧ keyDerives stKeyed 3 keyLinkBit = true
    ∧ got (.encReq 0 false) (inp (lm 0x27 1 7) stKeyed) (fun s => (flagF s f_LNK_PORT_STAT_ENC 31, (port s 31).kepoch,
      (port s 31).encAsked)) = some (true, 7, none)
    ∧ got (.encReq 0 false) (inp (lm 0x27 0 7) stKeyed) (fun s => (flagF s f_LNK_PORT_STAT_ENC 31, (port s 31).kepoch, sentOf s)) =
      some (true, 7, [(0x27, 1, 0)]) := by decide +kernel

/-- Chip 2 is the time master. -/
def stSlave : State := setF (setF stNear f_LNK_TIME_CFG_MASTER_SET 0 1) f_LNK_TIME_CFG_MASTER 0 2

theorem meets_time_step : timeMaster stSlave = 2 ∧ got (.time 0) { stSlave with linkIn := [(31, { lm 0x26 0 0x10000000000 with
      sent := stSlave.now })] } (fun s => (s.now, s.synced, flagF s f_LNK_STATUS_TIME_SYNC)) = some (0x10000000000, true, true)
    ∧ got (.time 0) { stSlave with synced := true, linkIn := [(31, { lm 0x26 0 0x10000000000 with sent := stSlave.now })] }
      (fun s => (s.now, s.timeSlew)) = some (0xFFFFFFFFFF, 1) := by decide +kernel

/-- The operands of custody: counter 5 of this chip, epoch 1, and the offeree, chip 2. -/
def stCust (home : Nat) : State := setR (setR (upTo State.reset) r_SILK_CUST_ARG 0 (5 + home * 2 ^ 16 + 2 ^ 32)) r_SILK_CUST_PEER 0 2

theorem meets_custody_commands : got .init (stCust 2) (fun s => getR s r_SILK_CUST_RESULT) = some 3
    ∧ got .offer (stCust 0) (fun s => s.linkIn.map (fun x => (x.1, x.2.aux, x.2.addr))) = some [(32, 2, 5 + 2 ^ 32 + 2 * 2 ^ 46)]
    ∧ got .accept (stCust 2) (fun s => (sentOf s, flagF s f_SILK_CUST_RESULT_BUSY)) = some ([(0x17, 3, 2)], true)
    ∧ got .release (stCust 2) (fun s => sentOf s) = some [(0x17, 4, 2)]
    ∧ got .reclaim (stCust 2) (fun s => getR s r_SILK_CUST_RESULT) = some 3
    ∧ got .custodyRead (stCust 2) (fun s => sentOf s) = some [(0x17, 6, 2)] := by decide +kernel

/-- Counter 5 is a custody word. -/
def stWord (w : Nat) : State := setR { upTo State.reset with custody := [5] } r_SILK_CTR 5 w

/-- A custody request for counter 5 in epoch 1 that names chip 2. -/
def cm (op src : Nat) : LinkMsg := { lm 0x17 op (5 + 2 ^ 32 + 2 * 2 ^ 46) with src := src }

theorem meets_custody : got (.custody 0) (inp (cm 1 0) (upTo State.reset)) (fun s => (getR s r_SILK_CTR 5, s.custody)) =
      some (2 ^ 48 + 2 ^ 62, [5])
    ∧ got (.custody 0) (inp (cm 1 2) (upTo State.reset)) (fun s => sentOf s) = some [(0x17, 1 + 32 + 256, 2)]
    ∧ got (.custody 0) (inp (cm 2 2) (upTo State.reset)) (fun s => sentOf s) = some [(0x17, 2 + 64 + 256, 2)]
    ∧ got (.custody 0) (inp (cm 2 0) (stWord (2 ^ 48 + 2 ^ 62))) (fun s => getR s r_SILK_CTR 5) =
      some (2 * 2 ^ 32 + 2 ^ 48 + 2 * 2 ^ 62)
    ∧ got (.custody 0) (inp (cm 3 2) (stWord (2 * 2 ^ 32 + 2 ^ 48 + 2 * 2 ^ 62))) (fun s => getR s r_SILK_CTR 5) =
      some (2 * 2 ^ 16 + 2 * 2 ^ 48 + 3 * 2 ^ 62) := by decide +kernel

theorem meets_custody_more : got (.custody 0) (inp (cm 6 2) (stWord 7)) (fun s => sentOf s) = some [(0x17, 6 + 256, 2)]
    ∧ got (.custody 0) (inp (cm 4 2) (stWord 7)) (fun s => sentOf s) = some [(0x17, 4 + 16 + 256, 2)]
    ∧ got (.custody 0) (inp (cm 2 2) (stWord (2 ^ 48 + 2 ^ 62))) (fun s => sentOf s) = some [(0x17, 2 + 32 + 256, 2)]
    ∧ got (.custody 0) (inp (cm 4 0) (stWord (2 ^ 48 + 3 * 2 ^ 62))) (fun s => getR s r_SILK_CTR 5) = some (2 ^ 48 + 2 ^ 62) := by
  decide +kernel

/-- The custodian, chip 2, is LOST. -/
theorem meets_custody_reclaim : got (.custody 0) (inp (cm 5 0) (setR { stPeer 6 with custody := [5] } r_SILK_CTR 5
    (2 * 2 ^ 16 + 2 ^ 48 + 2 ^ 62))) (fun s => getR s r_SILK_CTR 5) = some (2 * 2 ^ 48 + 2 ^ 62) := by decide +kernel

theorem meets_custody_answer : got (.custody 0) (inp (lm 0x17 (256 + 32) 9) { upTo State.reset with custOp := some ⟨2, 2, 5, 0⟩ })
      (fun s => (getR s r_SILK_CUST_RESULT, getR s r_SILK_CUST_WORD, s.custOp.isSome)) = some (2, 9, false)
    ∧ got .custodyUnreachable { State.reset with custOp := some ⟨2, 2, 5, 0⟩, now := 5000000 } (fun s => getR s r_SILK_CUST_RESULT) =
      some 6 := by decide +kernel

/-! ## Firmware, instances and keys -/

/-- Instance i exists. -/
def exist (i : Nat) (s : State) : State := setF s f_SEC_INST_EXISTS i 1

/-- Firmware has one request. -/
def ask (win : Nat) (ws : List Nat) (s : State) : State := { s with fwq := [⟨win, ws⟩] }

/-- The result of the last reply, with its window. -/
def resultIs (s : State) : Option (Nat × Nat) := s.mail.getLast?.map (fun m => (m.dest, m.words.getD 1 99))

/-- Word 0 of a window's OUT buffer. -/
def out (win w : Nat) (s : State) : State := setR s r_MBX_OUT_DATA 0 w win

theorem meets_mbxSend : winOpen (exist 31 (out 32 5 State.reset)) 32 = true
    ∧ got (.mbxSend 32) (exist 31 (out 32 0x71F05 State.reset)) (fun s => s.mail.map (fun m => (m.dest, m.src, m.words.headD 0))) =
      some [(0, 32, 0x71F05)]
    ∧ got (.mbxSend 0) (exist 31 (out 0 0x71F05 State.reset)) (fun s => s.mail.map (fun m => (m.dest, m.src, m.words.headD 0))) =
      some [(32, 0, 0x74005)]
    ∧ got (.mbxSend 0) (out 0 0x2005 State.reset) (fun s => s.mail.map (fun m => (m.dest, m.src, m.words.headD 0))) =
      some [(33, 0, 0x2005)] := by decide +kernel

theorem meets_mbxSend_refused : ([0x8005, 0x4005, 0x2000, 0x2080, 0x71F05].map fun w => got (.mbxSend 0) (out 0 w State.reset)
      (fun s => (getR s r_MBX_CTRL, s.mail.length))) = List.replicate 5 (some (8, 0))
    ∧ got (.mbxSend 32) (out 32 5 State.reset) (fun s => getR s r_MBX_CTRL 0 32) = some 8 := by decide +kernel

/-- A message waits. -/
def post (m : Mail) (s : State) : State := { setR s r_MBX_CTRL 0 5 m.src with mail := [m] }

theorem meets_mbxDeliver : got (.mbxDeliver 33) (post ⟨33, 0, 0, [0x2007, 0]⟩ State.reset)
      (fun s => (s.fwq.map FwReq.words, s.mail.length, getR s r_MBX_CTRL)) = some ([[0x2007, 0]], 0, 4)
    ∧ got (.mbxDeliver 33) (post ⟨33, 0, 0, [0x2011, 0]⟩ State.reset) (fun s => (s.fwq.length, resultIs s)) = some (0, some (0, 1))
    ∧ got (.mbxDeliver 0) (post ⟨0, 32, 0, [9, 8]⟩ (setR State.reset r_MBX_CTRL 0 0x304))
      (fun s => (getR s r_MBX_IN_DATA 1, getR s r_MBX_CTRL, getR s r_MBX_CTRL 0 32, s.msix)) = some (8, 0x306, 4, [(0, 3)])
    ∧ got (.mbxDeliver 32) (post ⟨32, 0, 1, [9, 8]⟩ (exist 31 State.reset)) (fun s => (s.mail.length, getR s r_CMP_STALE)) =
      some (0, 1)
    ∧ got (.mbxDeliver 32) (post ⟨32, 0, 0, [9, 8]⟩ (setR (exist 31 State.reset) r_MBX_CTRL 0 2 32))
      (fun s => s.mail.length) = some 1 := by decide +kernel

theorem meets_mbxInRelease : winOpen State.reset 0 = true ∧ got (.mbxInRelease 0) (setR State.reset r_MBX_CTRL 0 6)
    (fun s => getR s r_MBX_CTRL) = some 4 := by decide +kernel

/-- INST_CREATE of instance 31 in the secure world: queues, slots, counters, keys. -/
def mkInst (q slots silk keys : Nat) : State :=
  ask 0 [0x2001, 0x11F, q, slots, silk, keys] { State.reset with numVfs := 32 }

theorem meets_instCreate : got (.instCreate 4 8 250) (mkInst 65532 64 16376 6)
      (fun s => ((getR s r_SCH_INST 31, getR s r_SILK_RANGE 31, getR s r_SEC_INST 31), (getR s r_CMP_EPOCH 31, resultIs s), instarOf s (.inst 31))) =
      some ((4 + 65532 * 2 ^ 32 + 64 * 2 ^ 49, 8 + 16376 * 2 ^ 16 + 2 ^ 31, 250 + 6 * 2 ^ 8 + 3 * 2 ^ 24), (2 ^ 16, some (0, 0)), 1)
    ∧ got (.instCreate 0 0 0) (mkInst 65536 1 0 0) (fun s => resultIs s) = some (some (0, 0)) := by decide +kernel

theorem meets_instCreate_fails : got (.instCreate 0 0 0) (mkInst 0 1 0 0) (fun s => resultIs s) = some (some (0, 1))
    ∧ got (.instCreate 0 0 0) (exist 31 (mkInst 1 1 0 0)) (fun s => resultIs s) = some (some (0, 3))
    ∧ got (.instCreate 0 0 0) { mkInst 1 1 0 0 with numVfs := 31 } (fun s => resultIs s) = some (some (0, 4))
    ∧ got (.instCreate 0 0 0) (setF (mkInst 1 64 0 0) f_SCH_INST_SLOTS 0 1) (fun s => resultIs s) = some (some (0, 5)) := by
  decide +kernel

/-- A context of instance 31. -/
def ctxI : State := exist 31 { State.reset with ctxs := [(7, ⟨31, 32, 0x100, 1, 0, 1, 0, 0, 8, some 63, [], 0, none, 0, none, false, 0, 0, 0⟩)] }

theorem meets_slotsOk : SlotsOk ctxI := by
  intro kv h k hk
  simp only [ctxI, exist, setF, setR, State.reset, List.mem_singleton] at h
  subst h
  simp at hk
  omega

theorem meets_instReset : got .instReset (ask 0 [0x2002, 31] ctxI) (fun s => ((mfind s.instResets 31).map InstReset.reply,
      flagF s f_SEC_INST_RESETTING 31, (ctxOf s 7).bind Ctx.down)) = some (some 1, true, some (0x0602, 0))
    ∧ got .instReset (ask 0 [0x2002, 30] ctxI) (fun s => resultIs s) = some (some (0, 2))
    ∧ got .instReset (ask 0 [0x2002, 31] { ctxI with instResets := [(31, ⟨0, 2, false, 0⟩)] }) (fun s => resultIs s) =
      some (some (0, 6)) := by decide +kernel

theorem meets_instRemove : got .instRemove (ask 0 [0x2003, 31] ctxI) (fun s => (mfind s.instResets 31).map InstReset.remove) =
      some (some true)
    ∧ got .instRemove (ask 0 [0x2003, 30] ctxI) (fun s => resultIs s) = some (some (0, 2))
    ∧ got .instRemove (ask 0 [0x2003, 31] { ctxI with instResets := [(31, ⟨0, 2, false, 0⟩)] }) (fun s => s.mail.length) =
      some 0 := by decide +kernel

/-- Instance 31 is being reset, and its teardown is over. -/
def endInst (reply : Nat) (remove : Bool) (phase : Nat) : State :=
  ask 0 [0x2002, 31] { setR (setR (exist 31 State.reset) r_SILK_RANGE 31 (16383 + 2 ^ 16 + 2 ^ 31)) r_SILK_CTR 16383 5 with
    instResets := [(31, ⟨0, reply, remove, phase⟩)] }

theorem meets_instResetDone_none : NoneWaits (endInst 1 false 0) := ⟨rfl, fun _ h => nomatch h⟩

theorem meets_instResetDone : got (.instResetDone 31) (endInst 1 false 0) (fun s => (s.instResets.length, resultIs s,
      getR s r_SILK_CTR 16383)) = some (0, some (0, 0), 0)
    ∧ got (.instResetDone 31) (endInst 2 false 0) (fun s => s.mail.map (fun m => m.words.take 3)) = some [[0x2040, 31, 0]]
    ∧ got (.instResetDone 31) (endInst 1 true 1) (fun s => (instExists s 31, resultIs s)) = some (false, some (0, 0)) := by
  decide +kernel

set_option maxRecDepth 20000 in
theorem meets_instResetDone_remove : got (.instResetDone 31) (endInst 1 true 0) (fun s => ((mfind s.instResets 31).map InstReset.phase,
    getR s r_SILK_RANGE 31)) = some (some 1, 0) := by decide +kernel

theorem meets_functionResets : got (.vfFlr 31) ctxI (fun s => (mfind s.instResets 31).map InstReset.reply) = some (some 2)
    ∧ got (.vfFlr 30) ctxI (fun s => s.instResets.length) = some 0
    ∧ got (.numvfsLower 31) ctxI (fun s => ((mfind s.instResets 31).map InstReset.remove, s.numVfs)) = some (some true, 31)
    ∧ got .pfFlr (setR ctxI r_MBX_CTRL 0 4) (fun s => ((mfind s.instResets 31).map InstReset.remove, getR s r_MBX_CTRL)) =
      some (some true, 0) := by decide +kernel

/-! ### Requests -/

theorem meets_handles : Handles (ask 0 [0x2008, 255, 0x10] State.reset) ⟨0, [0x2008, 255, 0x10]⟩ 8 [0xFF, allBits] [] := by
  refine ⟨rfl, by decide, by decide, by decide, ?_⟩
  intro q h; cases h

theorem meets_imagoInfo : got .imagoInfo (ask 32 [0x2005] (exist 31 State.reset)) (fun s => resultIs s) = some (some (32, 0))
    ∧ got .imagoInfo (ask 0 [0x2005, 30] (exist 31 State.reset)) (fun s => resultIs s) = some (some (0, 2)) := by decide +kernel

theorem meets_attest : certUsable State.reset = true ∧ Handles (ask 0 [0x2006, 64, 0, 0xFF] State.reset) ⟨0, [0x2006, 64, 0, 0xFF]⟩ 6
    ([allBits, allBits, 0xFF] ++ List.replicate 12 allBits) [] :=
  ⟨by decide +kernel, rfl, by decide, by decide, by decide, by intro q h; cases h⟩

theorem meets_attest_old : got .attest (ask 0 [0x2006, 64, 0, 0xFF] (setF { State.reset with rtc := { Rtc.empty with secs := 9 } }
    f_RTC_STATUS_VALID 0 1)) (fun s => resultIs s) = some (some (0, 13)) := by decide +kernel

theorem meets_certRead : got .certRead (ask 0 [0x2007, 64, 0, 2] { State.reset with flash := { Flash.empty with certs := [1, 2] } })
      (fun s => (memBytes s.host 64 3, resultIs s)) = some ([1, 2, 0], some (0, 0))
    ∧ got .certRead (ask 0 [0x2007, 64, 0, 1] { State.reset with flash := { Flash.empty with certs := [1, 2] } })
      (fun s => resultIs s) = some (some (0, 7)) := by decide +kernel

/-- Key slot k holds material under an attribute word. -/
def key (k w : Nat) (s : State) : State := { setR s r_SEC_KEY_ATTR k w with keyMat := mput s.keyMat k (List.replicate 32 5) }

theorem meets_keyGen : got (.keyGen []) (ask 0 [0x2008, 255, 0x13] State.reset)
      (fun s => (getR s r_SEC_KEY_ATTR 255, (mfind s.keyMat 255).map List.length, resultIs s)) =
      some (0x13 + 0x900 + 2 ^ 29, some 32, some (0, 0))
    ∧ got (.keyGen []) (ask 0 [0x2008, 255, 0x14] State.reset) (fun s => resultIs s) = some (some (0, 1))
    ∧ got (.keyGen []) (ask 0 [0x2008, 255, 0x13] (key 255 0x113 State.reset)) (fun s => resultIs s) = some (some (0, 9))
    ∧ got (.keyGen [255]) (ask 0 [0x2008, 255, 0x13] (key 255 0x113 State.reset))
      (fun s => (getR s r_SEC_KEY_ATTR 255, s.keyMat.length, s.mail.length, resultIs s)) =
      some (0x313, 0, 2, some (0, 0x901))
    ∧ got (.keyGen []) (ask 32 [0x2008, 255, 0x13] (exist 31 State.reset)) (fun s => resultIs s) = some (some (32, 8)) := by
  decide +kernel

/-- A blob at address 64: MAGIC and an attribute word. -/
def blobM : Mem := [(64, 0x42), (65, 0x4B), (66, 0x45), (67, 0x59), (68, 0x10)]
def stWrap : State := { key 1 0x112 State.reset with host := blobM }
def rWrap (t : Nat) : FwReq := ⟨0, [0x2000 + t, 2 + 256, 64, 0]⟩

theorem meets_keyImport : sourceErr stWrap (rWrap 9) 1 (fun a => bitsOf a 0 2 = useWrap) = none ∧ targetErr stWrap (rWrap 9) 2 = none
    ∧ (fwRead stWrap 64 112).map (fun b => (leNat (b.take 4), attrOk (Nat.land (leNat ((b.drop 4).take 4)) 0xC0FFF4FF), b.drop 5)) =
      some (0x59454B42, true, List.replicate 107 0) := by decide +kernel

theorem meets_keyImport_fails : got (.keyImport []) (ask 0 (rWrap 9).words { State.reset with host := blobM }) (fun s => resultIs s) =
    some (some (0, 9)) := by decide +kernel

theorem meets_keyExport : sourceErr stWrap (rWrap 10) 1 (fun a => bitsOf a 0 2 = useWrap) = none
    ∧ sourceErr (key 2 0x510 stWrap) (rWrap 10) 2 (fun a => bitAt a 10) = none
    ∧ got (.keyExport []) (ask 0 (rWrap 10).words (key 2 0x110 stWrap)) (fun s => resultIs s) = some (some (0, 10)) := by
  decide +kernel

theorem meets_keyDerive : got (.keyDerive []) (ask 0 [0x200B, 2 + 256, 0x10, 2, 0x0201] (key 1 0x40113 State.reset))
      (fun s => (getR s r_SEC_KEY_ATTR 2, (mfind s.keyMat 2).isSome, resultIs s)) = some (0x10 + 0x900 + 2 ^ 29, true, some (0, 0))
    ∧ got (.keyDerive []) (ask 0 [0x200B, 2 + 256, 0x10, 40, 0x0201] (key 1 0x113 State.reset)) (fun s => resultIs s) =
      some (some (0, 10)) := by decide +kernel

theorem meets_keyErase : got .keyErase (ask 0 [0x200C, 1] (key 1 0x313 State.reset)) (fun s => (getR s r_SEC_KEY_ATTR 1,
      s.keyMat.length, resultIs s)) = some (0, 0, some (0, 0))
    ∧ got .keyErase (ask 32 [0x200C, 1] (exist 31 State.reset)) (fun s => resultIs s) = some (some (32, 8)) := by decide +kernel

/-- A request of KEY_CRYPT for 4,096 bytes. -/
def rCrypt : FwReq := ⟨0, [0x200D, 1, 64, 0, 8192, 0, 4096, 1, 2, 3]⟩

theorem meets_keyCrypt : sourceErr (key 1 0x110 State.reset) rCrypt 1 (fun a => bitsOf a 0 2 = useEncrypt || bitsOf a 0 2 = useDecrypt) =
      none ∧ sourceErr (key 1 0x111 State.reset) rCrypt 1 (fun a => bitsOf a 0 2 = useEncrypt || bitsOf a 0 2 = useDecrypt) = none
    ∧ (fwRead State.reset 64 4096).isSome = true ∧ (fwRead State.reset 64 4112).isSome = true := by
  decide +kernel

/-- A signed blob of entry 0 at address 64, but for its signature. -/
def signedM (magic : List (Nat × Byte)) (op idx : Byte) (seq : Byte) (extra : List (Nat × Byte)) : Mem :=
  magic ++ [(68, op), (69, idx), (80, seq)].filter (fun kv => kv.2 ≠ 0) ++ extra
def stCvk (m : Mem) : State := { setR State.reset r_SEC_CVK 0 1 with host := m }
def magicK : List (Nat × Byte) := [(64, 0x42), (65, 0x43), (66, 0x56), (67, 0x4B)]
def magicT : List (Nat × Byte) := [(64, 0x42), (65, 0x54), (66, 0x49), (67, 0x4D)]

theorem meets_cvkUpdate :
    let s := stCvk (signedM magicK 1 15 1 [(88, 4)])
    let bytes := memBytes s.host 64 224
    let b := blobOf s bytes
    fwRead s 64 224 = some bytes ∧ b.magic = 0x4B564342 ∧ b.op = 1 ∧ b.index = 15 ∧ b.zero = 0 ∧ b.rsvd = 0 ∧ b.body.headD 0 = 4
    ∧ b.signer = 0 ∧ cvkValid s b.signer = true ∧ b.serial = getR s r_CHIP_SERIAL ∧ s.flash.seq < b.seq := by decide +kernel

theorem meets_cvkUpdate_signed : ∀ b, b = blobOf (stCvk (signedM magicK 2 15 1 [])) (memBytes (signedM magicK 2 15 1 []) 64 224) →
    b.op = 2 ∧ b.body.all (fun x => x = 0) = true ∧ b.sigOk = Config.ecdsaOk [] (Config.sha384 (memBytes (signedM magicK 2 15 1 []) 64 128))
      (List.replicate 96 0) := by
  intro b h
  subst h
  exact ⟨by decide +kernel, by decide +kernel, rfl⟩

theorem meets_cvkUpdate_old : got .cvkUpdate (ask 0 [0x200E, 64] (stCvk (signedM magicK 2 15 0 []))) (fun s => resultIs s) =
    some (some (0, 12)) := by decide +kernel

theorem meets_timeSet :
    let s := stCvk (signedM magicT 0 0 1 [(88, 9)])
    let b := blobOf s (memBytes s.host 64 224)
    b.magic = 0x4D495442 ∧ b.op = 0 ∧ b.index = 0 ∧ b.zero = 0 ∧ b.rsvd = 0 ∧ (b.body.drop 8).all (fun x => x = 0) = true
    ∧ cvkValid s b.signer = true ∧ b.serial = getR s r_CHIP_SERIAL ∧ s.flash.seq < b.seq := by decide +kernel

theorem meets_timeSet_unsigned : got .timeSet (ask 0 [0x200F, 64] { State.reset with host := signedM magicT 0 0 1 [] })
    (fun s => resultIs s) = some (some (0, 12)) := by decide +kernel

theorem meets_regionSet : got .regionSet (ask 0 [0x2010, 63 + 0x300, 0x1000, 0, 0x2000, 0] State.reset)
      (fun s => (getR s r_SEC_REGION_BASE 63, getR s r_SEC_REGION_LIMIT 63, resultIs s)) = some (0x1003, 0x2000, some (0, 0))
    ∧ got .regionSet (ask 0 [0x2010, 15] State.reset) (fun s => resultIs s) = some (some (0, 1))
    ∧ got .regionSet (ask 0 [0x2010, 16] (setF (exist 31 State.reset) f_SEC_INST_WORLD 31 1)) (fun s => resultIs s) =
      some (some (0, 6)) := by decide +kernel

/-! ## Clock, power and temperature -/

theorem meets_rtcSet : got (.rtcSet (2 ^ 48 + 7)) State.reset (fun s => (s.rtc.secs, flagF s f_RTC_STATUS_VALID)) = some (7, true)
    ∧ got (.rtcSet 7) (setF State.reset f_RTC_STATUS_VALID 0 1) (fun s => s.rtc.secs) = some 0 := by decide +kernel

/-- A valid clock with adjustments. -/
def stRtc (l : List (Nat × Nat)) : State :=
  setF { State.reset with rtc := { Rtc.empty with secs := 90000, adjs := l } } f_RTC_STATUS_VALID 0 1

theorem meets_rtcAdj : got (.rtcAdj (65536 - 2000)) (stRtc [(3600, 2000)]) (fun s => (s.rtc.slew, flagF s f_RTC_STATUS_SLEWING)) =
      some (-2000000000000, true)
    ∧ got (.rtcAdj 2001) (stRtc []) (fun s => flagF s f_RTC_STATUS_ADJ_REFUSED) = some true
    ∧ got (.rtcAdj 1) (stRtc [(3601, 2000)]) (fun s => (s.rtc.slew, flagF s f_RTC_STATUS_ADJ_REFUSED)) = some (0, true) := by
  decide +kernel

theorem meets_rtc_times : got .slewComplete (setF State.reset f_RTC_STATUS_SLEWING 0 1) (fun s => flagF s f_RTC_STATUS_SLEWING) =
      some false
    ∧ got .hoursTick (setR { State.reset with rtc := { Rtc.empty with secs := 9, service := 3601 } } r_RTC_HOURS 0 (2 ^ 32 - 1))
      (fun s => (getR s r_RTC_HOURS, s.rtc.mirror, s.rtc.service)) = some (2 ^ 32 - 1, 9, 1)
    ∧ got (.vbatSample 2499) { State.reset with now := 15000000000 } (fun s => flagF s f_RTC_STATUS_BATT_LOW) = some true
    ∧ got (.vbatSample 2500) { State.reset with now := 15000000000 } (fun s => flagF s f_RTC_STATUS_BATT_LOW) = some false
    ∧ got .oscStop { stRtc [] with rtc := { Rtc.empty with secs := 9, mirror := 4, mirrorHours := 3 } } (fun s => (s.rtc.secs,
      getR s r_RTC_HOURS, getR s r_RTC_STATUS)) = some (4, 3, 4) := by decide +kernel

/-- A part at READY with two cores in wing 7, and time passed. -/
def stPool : State :=
  setR (setR (setF { State.reset with now := 250000 } f_RST_STATE_READY 0 1) r_CHIP_CAP_CORE 0 2) r_CHIP_CAP_WING 7 2

theorem meets_poolOk : PoolOk stPool := by
  refine ⟨by decide +kernel, ?_⟩
  have h : ∀ w : Fin 8, getF stPool f_CHIP_CAP_WING_FIRST_ID w.val + getF stPool f_CHIP_CAP_WING_ENABLED w.val ≤ 144 := by
    decide +kernel
  exact fun w hw => h ⟨w, hw⟩

theorem meets_arbitrate : flagF stPool f_RST_STATE_READY = true ∧ due stPool stPool.power.arbAt (10 * usTicks) = true
    ∧ stPool.power.preCap = [] := by decide +kernel

/-- Wing 7 has begun a raise, and lowered. -/
def stRaise (p : Power) : State := 
  { setF (setF (setR stPool r_PWR_CORE_FREQ 1 (64 + 70 * 256)) f_THM_CORE_FMAX_FMAX 1 90) f_THM_WING_CEIL 7 80 with power := p }

theorem meets_raises : mfind (stRaise { Power.empty with slew := [(7, 0)] }).power.slew 7 = some 0
    ∧ got (.voltageReached 6) (stRaise { Power.empty with slew := [(6, 0)] }) (fun s => s.power.slew) = some []
    ∧ got (.voltageLowering 6) (setF (stRaise { Power.empty with lowAt := [(6, 0)] }) f_THM_WING_VCORE_MV 6 900)
      (fun s => (s.power.lowAt, getF s f_THM_WING_VCORE_MV 6)) = some ([], 0)
    ∧ due (stRaise Power.empty) 0 (50 * usTicks) = true
    ∧ got (.raiseHoldExpiry 7) (setF (stRaise Power.empty) f_PWR_DOM_STAT_RAISE_HOLD 7 1)
      (fun s => (stepHeld s 7, s.power.slew)) = some (false, [(7, 250000)])
    ∧ got (.raiseHoldExpiry 7) (setF (stRaise { Power.empty with holdFrom := [(7, 240000)] }) f_PWR_DOM_STAT_RAISE_HOLD 7 1)
      (fun s => stepHeld s 7) = some true := by decide +kernel

theorem meets_droop : wingOf stPool 1 = 7 ∧ got (.droopEvent 1) stPool (fun s => (s.power.droops, getR s r_PWR_DOM_DROOP 7,
      stepHeld s 7)) = some ([1], 1, true)
    ∧ got (.droopEnd 1) { stPool with power := { Power.empty with droops := [0, 1] } } (fun s => s.power.droops) = some [0] := by
  decide +kernel

theorem meets_limits : getF State.reset f_PWR_DOM_ILIM_AMPS 35 = 0
    ∧ got (.ilimExceed 35 1) State.reset (fun s => (flagF s f_PWR_DOM_STAT_LIMITING 35, flagF s f_PWR_STATUS_ILIM_ACTIVE)) =
      some (true, true)
    ∧ got (.limitingEnd 35 0) (setF (setF State.reset f_PWR_DOM_STAT_LIMITING 35 1) f_PWR_STATUS_ILIM_ACTIVE 0 1)
      (fun s => flagF s f_PWR_STATUS_ILIM_ACTIVE) = some false := by decide +kernel

theorem meets_calibrate : got (.calibrate ((List.replicate 7 (0, 0, 0)) ++ [(11, 10, 56)])) stPool (fun s => s.power.hist) =
      some [(7, [11000])]
    ∧ got (.calibrate ((List.replicate 7 (0, 0, 0)) ++ [(11, 10, 55)])) stPool (fun s => (s.power.hist, s.power.calAt)) =
      some ([], 250000)
    ∧ got .calRestart (setF { stPool with power := { Power.empty with hist := [(7, [1])] } } f_PWR_CAL_CAL_DONE 0 1)
      (fun s => (s.power.hist, flagF s f_PWR_CAL_CAL_DONE, flagF s f_PWR_CAL_FACTORY)) = some ([], false, true) := by
  decide +kernel

/-- Core 1 is instance 31's, whose brood runs a collective action of command 5. -/
def stAct : State :=
  setF (setF { stPool with colls := [(9, ⟨7, 31, some 5, [], [], 0, 0, 1, [], [], [], 0, 1, none, [], []⟩)], cmds := [(5, cmd0)] }
    f_CMP_CORE_STATE 1 1) f_CMP_CORE_INSTANCE 1 31

theorem meets_caps : capHeld stAct 1 = true ∧ capHeld stAct 0 = false
    ∧ got (.pwrPkgCapWrite 1000) stAct (fun s => (getF s f_PWR_PKG_CAP_WATTS, flagF s f_PWR_STATUS_CAP_PENDING, s.power.preCap)) =
      some (1000, true, [(1, 64)])
    ∧ got (.pwrPkgCapWrite 3200) stAct (fun s => (getF s f_PWR_PKG_CAP_WATTS, flagF s f_PWR_STATUS_CAP_PENDING)) = some (3200, false)
    ∧ got (.pwrPkgCapWrite 3201) stAct (fun s => getF s f_PWR_PKG_CAP_WATTS) = some 3200
    ∧ got (.pwrCoreFcapWrite 1 64) stAct (fun s => (getF s f_PWR_CORE_FCAP_STEPS 1, flagF s f_PWR_CORE_FREQ_DEFERRED 1)) =
      some (64, true)
    ∧ got (.pwrCoreFcapWrite 1 185) stAct (fun s => getF s f_PWR_CORE_FCAP_STEPS 1) = some 184
    ∧ got .capDeferExpiry { stAct with now := 600000, power := { Power.empty with preCap := [(1, 64)] } } (fun s => (s.power.preCap,
      (cmdOf s 5).map Cmd.capped)) = some ([], some true) := by decide +kernel

/-- The supply monitor's state. -/
def stSup (n : Nat) : State := setF stPool f_PWR_STATUS_SUPPLY 0 n

theorem meets_supply : got (.vinDip 1709) (stSup 0) (fun s => ((getF s f_PWR_STATUS_SUPPLY, getR s r_PWR_DIP_COUNT), getF s f_PWR_DIP_LOG_MIN_MV,
      stepsOf s 1, stepHeld s 0)) = some ((1, 1), 1709, 64, true)
    ∧ got (.vinRecover 5 1650) (setF (stSup 1) f_PWR_DIP_LOG_MIN_MV 0 1700) (fun s => (getF s f_PWR_STATUS_SUPPLY,
      getF s f_PWR_DIP_LOG_MIN_MV, getF s f_PWR_DIP_LOG_DURATION_US)) = some (2, 1650, 5)
    ∧ got (.vinDip 1709) (stSup 2) (fun s => getF s f_PWR_STATUS_SUPPLY) = some 1
    ∧ got .holdSupplyDrop (stSup 2) (fun s => getF s f_PWR_STATUS_SUPPLY) = some 1
    ∧ got .dipHoldExpiry { stSup 2 with stopSince := some 1 } (fun s => (getF s f_PWR_STATUS_SUPPLY, s.stopSince)) = some (3, none)
    ∧ got .dipHoldExpiry (setF { stSup 2 with stopSince := some 1 } f_PWR_STATUS_COOLANT_STOP 0 1) (fun s => s.stopSince) =
      some (some 1)
    ∧ got .rampEnd (stSup 3) (fun s => getF s f_PWR_STATUS_SUPPLY) = some 0 := by decide +kernel

theorem meets_replan : got (.replan true) stPool (fun s => flagF s f_THM_REPLAN_STAT_BUSY) = some true
    ∧ got (.replan false) (setR stPool r_RTC_HOURS 0 168) (fun s => flagF s f_THM_REPLAN_STAT_BUSY) = some true
    ∧ got (.replan true) (stSup 1) (fun s => (flagF s f_THM_REPLAN_STAT_BUSY, s.power.replanDue)) = some (false, true)
    ∧ got (.replanComplete []) (setF (setR State.reset r_RTC_HOURS 0 200) f_THM_REPLAN_STAT_BUSY 0 1)
      (fun s => (flagF s f_THM_REPLAN_STAT_BUSY, getF s f_THM_REPLAN_HOURS_HOURS, flagF s f_PWR_EVT_REPLAN)) =
      some (false, 200, true) := by decide +kernel

theorem meets_evtWrites : got (.pwrEvtWrite 5) (setR State.reset r_PWR_EVT 0 0xFF) (fun s => (getR s r_PWR_EVT, s.armed)) =
      some (0xFA, [100])
    ∧ got (.rstEvtWrite 5) (setR State.reset r_RST_EVT 0 0x7F) (fun s => (getR s r_RST_EVT, s.armed)) = some (0x7A, [101]) := by
  decide +kernel

/-! ### Temperature -/

/-- The hottest sensor of wing 7's base die, and a stack, with ceilings of 100 and maxima of 184. -/
def stHot : State := setF (setF stPool f_THM_WING_CEIL 7 100) f_THM_CORE_FMAX_FMAX 1 184

theorem meets_thermalSample : wingSensors stHot 7 = [0, 1, 151, 164, 165, 166, 167]
    ∧ got (.thermalSample [(167, 100), (175, 93)]) stHot (fun s => (getF s f_THM_WING_CEIL 7, flagF s f_THM_WING_EMERGENCY 7,
      mget 100 s.power.pace 7, flagF s f_MEM_STACK_STAT_REFRESH_X2 7)) = some (64, false, 25, true)
    ∧ got (.thermalSample [(167, 95), (175, 87)]) stHot (fun s => (getF s f_THM_WING_CEIL 7, mget 100 s.power.pace 7)) = some (96, 100)
    ∧ got (.thermalSample [(167, 105), (175, 90)]) stHot (fun s => (flagF s f_THM_WING_EMERGENCY 7, mget 100 s.power.pace 7)) =
      some (true, 50)
    ∧ got (.thermalSample [(167, 92)]) stHot (fun s => (getF s f_THM_WING_CEIL 7, flagF s f_THM_WING_THROTTLE 7)) = some (101, true) := by
  decide +kernel

/-- A coolant stop is in force. -/
def stCool (s : State) : State := setF s f_PWR_STATUS_COOLANT_STOP 0 1

theorem meets_coolantStopComplete : got .coolantStopComplete (stCool (setF (setF State.reset f_MEM_STACK_STAT_TRAINED 7 1)
      f_LNK_PORT_STAT_STATE 31 2)) (fun s => (flagF s f_MEM_STACK_STAT_SELF_REFRESH 7, portState s 31)) = some (true, 3)
    ∧ requestsOut (stCool State.reset) = false := by decide +kernel

theorem meets_flowRestored : got .flowRestored (stCool State.reset) (fun s => (s.aon.flowAt, flagF s f_PWR_EVT_FLOW_RESTORED)) =
    some (some 0, true) := by decide +kernel

/-- Flow has been back for 100 ms. -/
def stFlow (s : State) : State := { s with aon := { s.aon with flowAt := some 0 }, now := 25000000 }

theorem meets_resume : resumeReady (stFlow (stCool stPool)) = true
    ∧ got (.resume []) (stFlow (stCool (setF stPool f_LNK_PORT_STAT_STATE 31 3))) (fun s => (getR s r_PWR_STATUS, portState s 31, s.stopSince)) =
      some (3, 1, none)
    ∧ got (.resume []) (stCool stPool) (fun s => flagF s f_PWR_STATUS_COOLANT_STOP) = some true := by decide +kernel

theorem meets_diapause : coreIdle stPool 1 = true
    ∧ got (.coreDiapauseEntry 1) stPool (fun s => (dstate s 1, (core s 1).clkSteps)) = some (1, 0)
    ∧ got (.diapauseEntered 1) (setF stPool f_THM_CORE_AGE_DSTATE 1 1) (fun s => dstate s 1) = some 2
    ∧ got (.wakeComplete 1) (setF stPool f_THM_CORE_AGE_DSTATE 1 3) (fun s => (dstate s 1, getR s r_THM_WAKES, stepHeld s 7)) =
      some (0, 1, true)
    ∧ got (.wakeComplete 1) (setF (setF stPool f_THM_CORE_AGE_DSTATE 1 3) f_THM_WING_STATE 7 3) (fun s => dstate s 1) = some 3 := by
  decide +kernel

/-- Core 1 is awake by its binding, in a wing in diapause. -/
def stWake (d : Nat) : State :=
  setF (setF (setF (setF stPool f_CMP_CORE_STATE 1 1) f_CMP_CORE_AWAKE 1 1) f_THM_CORE_AGE_DSTATE 1 d) f_THM_WING_STATE 7 2

theorem meets_wake : got (.wake 1) (stWake 1) (fun s => dstate s 1) = some 0
    ∧ got (.wake 1) (stWake 2) (fun s => (dstate s 1, getF s f_THM_WING_STATE 7)) = some (3, 3)
    ∧ got .wakeAll (stWake 2) (fun s => (dstate s 1, getF s f_THM_WING_STATE 7)) = some (3, 3) := by decide +kernel

/-- The cores of wing 7 are in diapause. -/
def stWing : State := setF (setF stPool f_THM_CORE_AGE_DSTATE 0 2) f_THM_CORE_AGE_DSTATE 1 2

theorem meets_wing : wingIdleNow stWing 7 = true ∧ got (.wingDiapauseEntry 7) stWing (fun s => getF s f_THM_WING_STATE 7) = some 1
    ∧ got (.diapauseEntered 263) (setF stWing f_THM_WING_STATE 7 1) (fun s => (getF s f_THM_WING_STATE 7, getF s f_THM_WING_VCORE_MV 7)) =
      some (2, 550)
    ∧ got (.wakeComplete 262) (setF stWing f_THM_WING_STATE 6 3) (fun s => (getF s f_THM_WING_STATE 6, getF s f_THM_WING_VCORE_MV 6)) = some (0, 550) := by decide +kernel

/-! ## Bring-up, resets and accesses -/

/-- The always-on domain, changed. -/
def onAon (f : Aon → Aon) (s : State) : State := { s with aon := f s.aon }

theorem meets_supplies : got .vinAuxApply (onAon (fun a => { a with aux := false }) State.reset) (fun s => (s.aon.aux, getF s f_RST_STATE_PHASE)) =
      some (true, 0)
    ∧ got .vinMainApply (onAon (fun a => { a with main := 1, tripped := true }) State.reset) (fun s => (lastReset s, flagF s f_THM_STATUS_TRIP_PREV)) =
      some ((5, 4, false), true)
    ∧ got .vinMainApply (onAon (fun a => { a with main := 0, path := 2 }) (setR State.reset r_RST_STATE 0 0x402)) (fun s => (getF s f_RST_STATE_PHASE,
      computeHeld s, s.aon.path)) = some (1, true, 2)
    ∧ got .vinMainApply (onAon (fun a => { a with main := 0, trip := true }) State.reset) (fun s => s.aon.main) = some 0
    ∧ got .vinMainRemoved State.reset (fun s => (s.aon.off, s.aon.main, s.aon.path)) = some (true, 0, 0)
    ∧ got .vinAuxLoss (setR State.reset r_RST_STATE 0 0x402) (fun s => (s.aon.aux, computeHeld s, getR s r_RST_LAST)) = some (false, false, 0) := by
  decide +kernel

/-- Fifteen counted resets within the window, of a threshold of sixteen. -/
def stEsc (n : Nat) : State :=
  onAon (fun a => { a with escs := List.replicate n 0 }) (setR (setR State.reset r_RST_STATE 0 0x109) r_RST_ESC_CFG 0 (16 + 3600 * 65536))

theorem meets_threshold : AtThreshold (stEsc 15) ∧ ¬ AtThreshold (stEsc 14) := by
  unfold AtThreshold
  decide +kernel

theorem meets_supplyReset : got .supplyReset (stEsc 15) (fun s => ((s.aon.off, s.aon.oosDue), computeHeld s, lastReset s, s.aon.escs.length)) =
      some ((true, true), true, (4, 3, true), 16)
    ∧ got .refclkLoss State.reset (fun s => (s.aon.main, lastReset s)) = some (1, (4, 3, true))
    ∧ got (.thermalTrip 167 110) State.reset (fun s => (s.aon.trip, getR s r_THM_TRIP_LOG)) = some (true, 110 * 2 ^ 32 + 167 * 2 ^ 40 + 2 ^ 48)
    ∧ got (.thermalTrip 168 100) State.reset (fun s => s.aon.trip) = some true
    ∧ got (.thermalTrip 167 109) State.reset (fun s => s.aon.trip) = some false := by decide +kernel

theorem meets_pins : got .perstAssert State.reset (fun s => (lastReset s, s.aon.path, s.aon.perst)) = some ((4, 2, false), 1, true)
    ∧ got .perstAssert (setR State.reset r_RST_STATE 0 0) (fun s => (s.aon.path, s.aon.perst)) = some (0, true)
    ∧ got .perstDeassert (setR State.reset r_RST_STATE 0 4) (fun s => s.aon.hostLink) = some true
    ∧ got .flowOkHeld (onAon (fun a => { a with waiting := 1 }) (setR State.reset r_RST_STATE 0 2)) (fun s => getF s f_RST_STATE_PHASE) = some 3
    ∧ got .flowOkHeld (onAon (fun a => { a with waiting := 2 }) (setR State.reset r_RST_STATE 0 0)) (fun s => (getF s f_RST_STATE_PHASE, s.aon.path)) =
      some (1, 2) := by decide +kernel

theorem meets_coolantStop : got .coolantStop stPool (fun s => (flagF s f_PWR_STATUS_COOLANT_STOP, s.stopSince, (core s 1).clkSteps)) =
      some (true, some 250000, 0)
    ∧ got .coolantStop (setR State.reset r_RST_STATE 0 3) (fun s => (s.aon.off, s.aon.waiting)) = some (true, 2) := by decide +kernel

/-- The bring-up is in a phase. -/
def stPh (n : Nat) : State := setR State.reset r_RST_STATE 0 n

theorem meets_inPhase : ∀ n : Fin 10, InPhase (stPh n.val) n.val := by
  unfold InPhase
  decide +kernel

theorem meets_phases : got (.phaseComplete .alwaysOn) (onAon (fun a => { a with e0 := false }) (stPh 0)) (fun s => getF s f_RST_STATE_PHASE) = some 1
    ∧ got (.phaseComplete (.fuses false)) (stPh 2) (fun s => getR s r_RST_STATE) = some 0x1002
    ∧ got (.phaseComplete (.fuses true)) (stPh 2) (fun s => (getF s f_RST_STATE_PHASE, s.aon.waiting)) = some (2, 1)
    ∧ got (.phaseComplete (.fuses true)) (stFlow (stPh 2)) (fun s => (getF s f_RST_STATE_PHASE, s.aon.waiting)) = some (3, 0)
    ∧ got (.phaseComplete .rails) (stPh 3) (fun s => (getF s f_RST_STATE_PHASE, s.aon.hostLink, getF s f_PWR_DOM_ILIM_AMPS 35)) = some (4, true, 45)
    ∧ got (.phaseComplete (.bridges [(3, 7)])) (stPh 4) (fun s => (getF s f_RST_STATE_PHASE, getF s f_MEM_BRIDGE_STAT_FAILED 3)) = some (5, 128) := by
  decide +kernel

set_option maxRecDepth 20000 in
theorem meets_phases_more : got (.phaseComplete (.bridges ((List.range 8).map fun k => (3, k)))) (stPh 4) (fun s => (getR s r_RST_STATE,
      getF s f_MEM_BRIDGE_STAT_FAILED 3)) = some (0x1004, 255)
    ∧ got (.phaseComplete (.memory [7] [] [])) (stPh 5) (fun s => (getF s f_RST_STATE_PHASE, flagF s f_MEM_STACK_STAT_TRAINED 6,
      flagF s f_MEM_STACK_STAT_TRAINED 7)) = some (6, true, false)
    ∧ got (.phaseComplete (.memory [] [] [])) (onAon (fun a => { a with path := 2 }) (stPh 5)) (fun s => getF s f_RST_STATE_PHASE) = some 7
    ∧ got (.phaseComplete (.selfTest [])) (stPh 6) (fun s => getF s f_RST_STATE_PHASE) = some 7
    ∧ got (.phaseComplete (.links [])) (stPh 9) (fun s => (flagF s f_RST_STATE_READY, getF s f_CMP_LINK_STATE 31)) = some (true, 1) := by
  decide +kernel

theorem meets_numbering : (chosenCores (stPh 7) 7).length = 18 := by decide +kernel

/-- A board descriptor without any needs. -/
def brd : List Byte :=
  let b := byt 124 [(0, 0x42), (1, 0x42), (2, 0x52), (3, 0x44), (4, 1), (6, 7), (8, 3)]
  b ++ leBytes 4 (crc32 b)

theorem meets_topology : boardOk brd = true
    ∧ got (.phaseComplete (.topology 5 0 0 0)) { stPh 8 with flash := { Flash.empty with board := brd } } (fun s => (getF s f_RST_STATE_PHASE, chipId s)) =
      some (9, 8)
    ∧ got (.phaseComplete (.topology 5 2 0 0)) (stPh 8) (fun s => (getF s f_RST_STATE_PHASE, flagF s f_RST_STATE_TOPO_HOLD,
      getF s f_RST_TOPO_SUM_DIES)) = some (8, true, 2)
    ∧ got .topoContinue (setF (setF (setF (stPh 8) f_RST_STATE_TOPO_HOLD 0 1) f_RST_TOPO_SUM_DESC_BAD 0 1) f_RST_STRAPS_TRAY_ID 0 255)
      (fun s => (getF s f_RST_STATE_PHASE, chipId s)) = some (9, 255) := by decide +kernel

theorem meets_phaseTimeout : got .phaseTimeout { stPh 9 with now := 375000000 } (fun s => (getF s f_RST_STATE_PHASE, s.aon.retried, lastReset s)) =
      some (1, [9], (4, 7, false))
    ∧ got .phaseTimeout (onAon (fun a => { a with retried := [9] }) { stPh 9 with now := 375000000 }) (fun s => getR s r_RST_STATE) =
      some 0x1009 := by decide +kernel

/-! ### Resets and watchdogs -/

/-- Core 1 is instance 31's, and runs a batch of kernel 1. -/
def stBat : State :=
  setF (setF { stPool with
    cores := [(1, { Core.empty with batch := some (bat0 grp0), scr := [(5, 5)] })]
    kernels := [(1, { Kernel.empty with inst := 31 })] } f_CMP_CORE_STATE 1 1) f_CMP_CORE_INSTANCE 1 31

theorem meets_imagoReset : hasSlices stBat 31 = true ∧ got (.imagoReset 31 false) stBat (fun s => (getR s r_RST_IMG_RESET, lastReset s,
      (batchOf s 1).map Batch.why)) = some (2 ^ 31, (1, 1, false), some .reset)
    ∧ got (.imagoReset 30 false) stBat (fun s => getR s r_RST_IMG_RESET) = some 0
    ∧ got (.chipReset true) stBat (fun s => (flagF s f_RST_STATUS_CHIP_RESET, lastReset s, (batchOf s 1).map Batch.why)) =
      some (true, (2, 1, true), some .reset) := by decide +kernel

/-- The fifteenth counted reset took place. -/
theorem meets_escalation : got (.imagoReset 31 true) (setF (setF (stEsc 15) f_CMP_CORE_STATE 1 1) f_CMP_CORE_INSTANCE 1 31)
    (fun s => (computeHeld s, lastReset s, flagF s f_RST_EVT_OOS)) = some (true, (2, 8, true), true) := by decide +kernel

theorem meets_fullReset : got (.fullReset true true false) (stEsc 15) (fun s => (computeHeld s, s.aon.selftest, lastReset s)) =
      some (true, true, (4, 1, true))
    ∧ got (.fullReset false false true) (stPh 4) (fun s => (computeHeld s, s.aon.retrain, getF s f_RST_STATE_PHASE)) = some (false, true, 1) := by
  decide +kernel

/-- An override blob at address 64. -/
def stOvr : State :=
  { setR (setR (stCvk [(64, 0x42), (65, 0x4F), (66, 0x53), (67, 0x52), (68, 1), (80, 1)]) r_RST_STATE 0 0x400) r_RST_OVR_ADDR 0 64 with
    aon := { Aon.empty with escs := [1] } }

theorem meets_override : got .override State.reset (fun s => getF s f_RST_OVR_STATUS_CODE) = some 1
    ∧ got .override (setR stOvr r_SEC_CVK 0 0) (fun s => (getF s f_RST_OVR_STATUS_CODE, computeHeld s)) = some (12, true)
    ∧ (let b := blobOf stOvr (memBytes stOvr.host 64 224)
      b.magic = 0x52534F42 ∧ b.op = 1 ∧ b.index = 0 ∧ b.zero = 0 ∧ b.rsvd = 0 ∧ b.body.all (fun x => x = 0) = true
      ∧ cvkValid stOvr b.signer = true ∧ b.serial = getR stOvr r_CHIP_SERIAL ∧ stOvr.flash.seq < b.seq) := by decide +kernel

/-- A reset of unit u is in progress. -/
def stRst (u : Nat) (d : Bool) (s : State) : State := { s with resets := [(u, ⟨0, 1, d⟩)], now := 50000000 }

theorem meets_resetDrainEnd : Quiet (stRst 31 false { stPool with cmds := [(5, { cmd0 with inst := 31, start := some 0 })] })
    ∧ got (.resetDrainEnd 31) (stRst 31 false { stPool with cmds := [(5, { cq [(0, 2)] with inst := 31, start := some 0 })] })
      (fun s => (finOf s 5, (mfind s.resets 31).map CompReset.drained)) = some (some (some errResetAbort), some true) :=
  ⟨⟨rfl, rfl, rfl, rfl, rfl, rfl, rfl⟩, by decide +kernel⟩

theorem meets_resetDone : resetReady (stRst 31 true stBat) 31 ⟨0, 1, true⟩ = true
    ∧ got (.resetDone 31 []) (stRst 31 true (setR stBat r_RST_IMG_RESET 0 (2 ^ 31))) (fun s => (getR s r_RST_IMG_RESET, s.resets.length,
      (batchOf s 1).isSome, (core s 1).scr)) = some (0, 0, false, [])
    ∧ got (.resetDone 32 []) (stRst 32 true (setR stBat r_RST_STATUS 0 1)) (fun s => (getR s r_RST_STATUS, (batchOf s 1).isSome)) =
      some (0, false)
    ∧ got (.resetDone 32 [1]) (stRst 32 true (setR stBat r_RST_STATUS 0 1)) (fun s => (getF s f_RST_STATE_PHASE, s.aon.path)) = some (1, 1) := by
  decide +kernel

theorem meets_resetBoundMiss : got (.resetBoundMiss 32) (stRst 32 true stBat) (fun s => (getF s f_RST_STATE_PHASE, lastReset s)) =
      some (1, (4, 6, true))
    ∧ got (.resetBoundMiss 31) (stRst 31 true stBat) (fun s => (flagF s f_RST_STATUS_CHIP_RESET, lastReset s)) = some (true, (2, 6, true)) := by
  decide +kernel

/-- Context 7 holds Imago 0, whose kernel 1 runs on core 1; a watchdog's limit has passed. -/
def stHang (cs : SMap Cmd) (q : Queue) : State :=
  setF (setF (setF { stQ q cs with
    cores := [(1, { Core.empty with batch := some (bat0 grp0) })]
    kernels := [(1, { Kernel.empty with space := 7 })]
    now := 0xFFFFFFFFFF } f_RST_STATE_READY 0 1) f_CMP_CORE_STATE 1 1) f_CMP_CORE_INSTANCE 1 0

theorem meets_kernelWatchdog : wdDue (setF (stHang [] q0) f_RST_WD_KERNEL_MS 0 1) f_RST_WD_KERNEL_MS 0 = true
    ∧ got (.kernelWatchdog 1) (setF (stHang [] q0) f_RST_WD_KERNEL_MS 0 1) (fun s => ((kernel s 1).fault.map FaultInfo.code, getR s r_RST_WD_FIRED 0)) =
      some (some errHangTimeout, 1) := by decide +kernel

theorem meets_npWatchdog : nonPreemptible (cq [(0, 8)]) = true
    ∧ got (.npWatchdog 5) (setF (stHang [(5, { cq [(0, 8)] with start := some 0 })] q0) f_RST_WD_NP_MS 0 1) (fun s => (finOf s 5,
      getR s r_RST_WD_FIRED 1, getR s r_RST_IMG_RESET)) = some (some (some errHangTimeout), 1, 1)
    ∧ got (.npWatchdog 5) (setF (stHang [(5, { cq [(0, 8)] with start := some 0, inst := 255 })] q0) f_RST_WD_NP_MS 0 1) (fun s => (finOf s 5,
      flagF s f_RST_STATUS_CHIP_RESET)) = some (some (some errHangTimeout), true) := by decide +kernel

theorem meets_queueWatchdog :
    let s := setF { stHang [(5, { cq [(0, 4)] with start := some 0 })] { q0 with cmds := [5] } with cores := [], kernels := [] } f_RST_WD_QUEUE_MS 0 1
    runningCmds s { q0 with cmds := [5] } = [5]
    ∧ got (.queueWatchdog 2) s (fun s => (finOf s 5, getR s r_RST_WD_FIRED 2)) = some (some (some errHangTimeout), 1) := by decide +kernel

theorem meets_fabricWatchdog : got (.fabricWatchdog 8) { State.reset with now := 0xFFFFFFFFFF, cmds := [(5, cmd0)], fenceOuts := [(8, ⟨2, 2, 5, false, 0, 7, 0, 0⟩)] }
      (fun s => (finOf s 5, getR s r_RST_WD_FIRED 3, s.fenceOuts.length)) = some (some (some errRemoteError), 1, 0)
    ∧ got (.fabricWatchdog 8) { State.reset with cmds := [(5, cmd0)], fenceOuts := [(8, ⟨2, 2, 5, false, 0, 7, 0, 0⟩)] } (fun s => s.fenceOuts.length) =
      some 1 := by decide +kernel

/-! ### Accesses -/

def host0 : Requester := ⟨1, false⟩

/-- BAR0 can be reached, and instance 31 exists. -/
def stBar : State := onAon (fun a => { a with hostLink := true }) (exist 31 { stPh 9 with numVfs := 32 })

theorem meets_registers : barOpen State.reset 0 = false ∧ barOpen stBar 32 = true
    ∧ got (.registerWrite host0 0 0xC00004 4 0x00050006) stBar (fun s => (getR s r_THM_DIAP_CFG, s.reply.ok)) = some (0x50006, true)
    ∧ got (.registerWrite host0 0 0xC00000 4 0x0000085F) stBar (fun s => getR s r_THM_CFG) = some 0x85F
    ∧ got (.registerWrite host0 0 0xC00000 4 0x00000960) stBar (fun s => getR s r_THM_CFG) = some 0x25F
    ∧ got (.registerWrite host0 0 0xC00004 2 7) stBar (fun s => getR s r_THM_DIAP_CFG) = some 0x1F40032
    ∧ got (.registerWrite host0 32 0x100000 4 7) stBar (fun s => getR s r_MBX_OUT_DATA 0 32) = some 7
    ∧ got (.registerWrite host0 0 0xC00004 4 7) State.reset (fun s => (getR s r_THM_DIAP_CFG, s.reply.ok)) = some (0x1F40032, false) := by
  decide +kernel

theorem meets_reads : got (.registerSplitRead host0 0 0xC00004 4) stBar (fun s => s.reply.data) = some [0x32, 0, 0xF4, 1]
    ∧ got (.registerSplitRead host0 0 0xB00010 4) (setR stBar r_PWR_DIP_COUNT 0 (5 + 9 * 2 ^ 32)) (fun s => (s.reply.data, s.latches.map Latch.upper)) =
      some ([5, 0, 0, 0], [9])
    ∧ got (.registerSplitRead host0 0 0xB00014 4) { stBar with latches := [⟨1, 0xB00010, 9⟩] } (fun s => (s.reply.data, s.latches.length)) =
      some ([9, 0, 0, 0], 0) := by decide +kernel

/-- Core 143 is in diapause: an access to its mover register wakes it. -/
theorem meets_moverWake :
    let s := setF stBar f_THM_CORE_AGE_DSTATE 143 2
    dstate s 143 = 2
    ∧ got (.registerSplitRead host0 0 (r_TMV_CORE_STAT.base + 4 * 143) 4) s (fun s => (dstate s 143, s.reply.ok)) = some (3, true)
    ∧ got (.registerWrite host0 0 (r_TMV_CORE_STAT.base + 4 * 143) 4 0) s (fun s => dstate s 143) = some 3 := by decide +kernel

theorem meets_reserved : findReg 0 0x1100000 = none
    ∧ got (.registerWrite host0 0 0x1100000 4 7) stBar (fun s => (decide (s.regs = stBar.regs), s.reply.ok)) = some (true, true)
    ∧ got (.registerSplitRead host0 0 0x1100000 4) stBar (fun s => s.reply.data) = some [0, 0, 0, 0] := by decide +kernel

/-- The proxy names an offset of instance 31's window. -/
def stPx (i off : Nat) : State := setR stBar r_MBX_PROXY_ADDR 0 (off + i * 2 ^ 26)

theorem meets_proxy : findReg 32 0x100000 = some (r_MBX_OUT_DATA, 0, 0)
    ∧ got (.mbxProxyAccess host0 true 7) (stPx 31 0x100000) (fun s => getR s r_MBX_OUT_DATA 0 32) = some 7
    ∧ got (.mbxProxyAccess host0 false 0) (setR (stPx 31 0x100000) r_MBX_OUT_DATA 0 7 32) (fun s => s.reply.data) = some [7, 0, 0, 0, 0, 0, 0, 0]
    ∧ got (.mbxProxyAccess host0 false 0) (stPx 30 0x100000) (fun s => (getR s r_MBX_CTRL, s.reply.data)) = some (8, List.replicate 8 0)
    ∧ got (.mbxProxyAccess host0 true 0) (stPx 31 0x400000) (fun s => getR s r_MBX_CTRL) = some 8 := by decide +kernel

theorem meets_messageAge : got (.messageAgeDiscard (.arrived 0)) { inp (lm 1 0 0) State.reset with now := 5000000 } (fun s => (s.linkIn.length,
      getR s r_RST_DISCARDS)) = some (0, 1)
    ∧ got (.messageAgeDiscard (.arrived 0)) { inp (lm 1 0 0) State.reset with now := 4999999 } (fun s => s.linkIn.length) = some 1
    ∧ got (.messageAgeDiscard (.atPort 31 0)) { State.reset with now := 5000000, ports := [(31, { Port.empty with waiting := [lm 1 0 0] })] }
      (fun s => ((port s 31).waiting.length, getR s r_RST_DISCARDS)) = some (0, 1)
    ∧ got (.messageAgeDiscard (.silk 4)) { State.reset with now := 5000000, silkMsgs := [(4, ⟨0, 5, 1, .device, 0, 0, 0, 0⟩)] }
      (fun s => (s.silkMsgs.length, getR s r_RST_DISCARDS)) = some (0, 1)
    ∧ got (.messageAgeDiscard (.release 4)) { State.reset with now := 5000000, silkReplies := [(4, ⟨1, 0, 4, 0, 0, 0⟩)] }
      (fun s => (s.silkReplies.length, getR s r_RST_DISCARDS)) = some (0, 1) := by decide +kernel

theorem meets_i3c : got .status (stPh 4) (fun s => s.reply.data.take 4) = some [4, 0, 0, 0]
    ∧ got .status (onAon (fun a => { a with aux := false }) State.reset) (fun s => s.reply.ok) = some false
    ∧ got .descRead { stPh 4 with flash := { Flash.empty with board := brd } } (fun s => s.reply.data) = some brd
    ∧ got (.descWrite brd) (stPh 4) (fun s => (s.reply.ok, s.flash.board)) = some (true, brd)
    ∧ got (.descWrite (brd.set 0 1)) (stPh 4) (fun s => (s.reply.ok, s.flash.board)) = some (false, [])
    ∧ got (.recovery 5 [7, 8]) (stPh 0x1001) (fun s => (s.reply.ok, memBytes s.aon.image 4 4)) = some (true, [0, 7, 8, 0])
    ∧ got (.recovery 5 (List.replicate 4097 0)) (stPh 0x1001) (fun s => s.reply.ok) = some false
    ∧ recoveryHold (stPh 0x1001) = true := by decide +kernel

theorem meets_tap : got (.tapInstruction .bypass true) State.reset (fun s => s.reply.data) = some [0]
    ∧ got (.tapInstruction (.other 3) false) State.reset (fun s => s.reply.data) = some [] := by decide +kernel

/-! ## Work of a core that reaches memory, counters and contexts -/

/-- A tile of operation 9 or of line 0x1000, whose page is Imago 0's first. -/
def stTl (k : ThreadKind) (o : TileOwner) : State :=
  setF (setR (setF (setF { stG { grp0 with wait := .tile 4 } with
    nextId := 10
    ops := [(9, op0 k 1 [5])]
    tiles := [(4, ⟨o, 3, 0, 0, 0, 256, 1, 0, 0, [0x1000], [⟨0x1000, 4096, 0, 0, 0⟩], [], [], false, false⟩)] }
    f_CMP_IMG_RB_RB 0 1) f_CMP_SLIST_VALID 0 1) r_CMP_ILV 0 (2 ^ 31)) f_MEM_SLICE_STAT_PRESENT 0 1

theorem meets_tileTranslated :
    (mfind (stTl .load (.thread 9)).tiles 4).map tileReady = some true
    ∧ (mfind (stTl .load (.thread 9)).tiles 4).map (fun x => resolve (stTl .load (.thread 9)) x.inst (worldOf (stTl .load (.thread 9)) x.slot)
        (tileXlat x 0x1000) 0x1000) = some (.at 0 1 0)
    ∧ gpaChip 0 = chipId (stTl .load (.thread 9)) ∧ batchRuns (stTl .load (.thread 9)) 0 = true ∧ issueStopped (stTl .load (.thread 9)) 0 = false
    ∧ got (.tileTranslated 4) (stTl .load (.thread 9)) (fun s => (s.reqs.map (fun kv => (kv.1, kv.2.gpa, kv.2.op)), (groupOf s 0 0).map Group.pend)) =
      some ([(10, 0, .read)], some [(9, 1)])
    ∧ got (.tileTranslated 4) (stTl .store (.thread 9)) (fun s => (s.reqs.map (fun kv => kv.2.op), (groupOf s 0 0).map Group.pend)) =
      some ([.write], some [])
    ∧ got (.tileTranslated 4) (stTl .load (.fetch 0 0x1000)) (fun s => (s.reqs.map (fun kv => (kv.2.gpa, kv.2.len)), s.tiles.length)) =
      some ([(0, 256)], 0) := by decide +kernel

/-- The data of lane 5 of operation 9 has arrived. -/
def stDt (p : Nat) : State :=
  { stG { grp0 with pend := [(9, 1)] } with
    ops := [(9, op0 .load 1 [])]
    reqs := [(11, ⟨.read, .thread 9 5, 0, 4, [1, 2, 3, 4], [], p, 0, none, 0, 0, 0, 0, false, 0, 0, false, .done, 0, 0, 0, 0, false⟩)] }

theorem meets_loadReturn : asleep (stDt 0) 0 = false ∧ (reqsOfOp (stDt 0) 9).map Prod.fst = [11]
    ∧ got (.loadDataReturn 9) (stDt 0) (fun s => ((groupOf s 0 0).map (fun g => (mget 0 g.sregs 37, g.pend)), s.ops.length)) =
      some (some (0x04030201, []), 0)
    ∧ got (.loadDataReturn 9) (stDt 1) (fun s => (kernel s 1).fault.map FaultInfo.code) = some (some errDataPoison) := by decide +kernel

/-- A READ's value has come back for u2. -/
theorem meets_silkReturn :
    let s := { stG { grp0 with pend := [(9, 0x42)] } with
      ops := [(9, op0 .silkRead 0x42 [])], silkReplies := [(9, ⟨0, 0, 9, 0x100000007, 0, 0⟩)] }
    instarOf s (.core 0) = 0 ∧ got (.loadDataReturn 9) s (fun s => (groupOf s 0 0).map (fun g => (uReg g 2, g.pend))) = some (some (7, [])) := by
  decide +kernel

/-- No line is cached. -/
def stF : State := { stG grp0 with cores := [(0, { Core.empty with batch := some (bat0 grp0) })] }
def stFr (p : Nat) : State :=
  { stF with reqs := [(11, ⟨.read, .fetch 0 0, 0, 256, [], [], p, 0, none, 0, 0, 0, 0, false, 0, 0, false, .done, 0, 0, 0, 0, false⟩)] }

theorem meets_fetch : (readyGroup stF 0 0).map Group.pc = some 0 ∧ inCode (kernelOn stF 0).lb 0 = true
    ∧ got (.ifetchLine 0 0) stF (fun s => s.tiles.map (fun kv => (kv.2.owner, kv.2.pages))) = some [(.fetch 0 0, [0])]
    ∧ got (.ifetchLineReturn 0 0) (stFr 0) (fun s => ((core s 0).icache, s.reqs.length)) = some ([0], 0)
    ∧ got (.ifetchLineReturn 0 0) (stFr 1) (fun s => (kernel s 1).fault.map FaultInfo.code) = some (some errDataPoison) := by decide +kernel

/-- A CSILK of a0 with u1; Imago 0 has one counter, 16383. -/
def cS : Th := th (0x41 * 2 ^ 43 + 0x60 * 2 ^ 36)
def gS (a : DWord) : Group := { grp0 with uregs := [(1, 3)], aregs := [(0, a)] }
def stS4 (a : DWord) : State := setF (setF (stG (gS a)) f_SILK_RANGE_SIZE 0 1) f_SILK_RANGE_BASE 0 16383

theorem meets_silk : Issues (stS4 0) cS [usesPred cS, fD cS, fA cS] (gS 0) ∧ (silkLegal cS = true ∧ fA cS = 0x60 + 0
    ∧ got (.csilkAdd cS) (stS4 0) (fun s => s.silkMsgs.map (fun kv => (kv.2.op, kv.2.ctr, kv.2.value))) = some [(silkAdd, 16383, 3)]
    ∧ got (.csilkRead cS) (stS4 0) (fun s => (groupOf s 0 0).map Group.pend) = some (some [(1, 0x41)])
    ∧ got (.csilkWaitge cS) (stS4 0) (fun s => (groupOf s 0 0).map Group.wait) = some (some (.silk 1))
    ∧ got (.csilkTake cS) (stS4 0) (fun s => (groupOf s 0 0).map Group.wait) = some (some (.silk 1))
    ∧ got (.csilkAdd cS) (stS4 1) (fun s => (kernel s 1).fault.map (fun f => (f.code, f.addr))) = some (some (errSilkRange, 1))) :=
  ⟨issues_of (by decide), by decide +kernel⟩

/-- A message to counter 16383, which holds `v`. -/
def stHm (op : Nat) (value : DWord) (v : Nat) (w : List SilkWaiter := []) : State :=
  setR { stG { grp0 with wait := .silk 8 } with
    silkMsgs := [(4, ⟨op, 16383, value, .group 0 0 9, 0, 0, 0, 0⟩)], silkWaiters := w } r_SILK_CTR 16383 v

theorem meets_silkHome :
    got (.silkHomeOp 4) (stHm silkAdd 2 (2 ^ 64 - 1)) (fun s => (getR s r_SILK_CTR 16383, s.silkMsgs.length)) = some (1, 0)
    ∧ got (.silkHomeOp 4) (stHm silkAdd 2 3 [⟨false, 16383, 5, .group 0 0 8, 0, 0⟩]) (fun s => (s.silkWaiters.length, (groupOf s 0 0).map Group.wait)) =
      some (0, some .ready)
    ∧ got (.silkHomeOp 4) (stHm silkRead 0 7) (fun s => s.silkReplies.map (fun kv => kv.2.value)) = some [7]
    ∧ got (.silkHomeOp 4) (stHm silkTake 0 7) (fun s => (getR s r_SILK_CTR 16383, s.silkWaiters.length)) = some (6, 0)
    ∧ got (.silkHomeOp 4) (stHm silkTake 0 0) (fun s => (getR s r_SILK_CTR 16383, s.silkWaiters.length)) = some (0, 1)
    ∧ got (.silkHomeOp 4) (stHm silkWaitge 8 7) (fun s => s.silkWaiters.map SilkWaiter.value) = some [8]
    ∧ got (.silkCtrWrite 16383 9) { State.reset with custody := [16383, 1] } (fun s => (getR s r_SILK_CTR 16383, s.custody)) = some (9, [1]) := by
  decide +kernel

/-- Context 7 has a live kernel of one batch of one group, and core 0 is free. -/
def k7 : Kernel :=
  { Kernel.empty with slot := 3, space := 7, live := true, nbatch := 1, cmd := 5, lb := { Launch.empty with gridX := 1, gridY := 1, gridZ := 1, batchGroups := 1 } }
def stDl : State := bindCore { stQ q0 [(5, cq [(0, 1)])] with kernels := [(1, k7)] } 0 0

theorem meets_batchDeal : holderOf stDl 0 = some 7 ∧ (nextKernel stDl 7).map Prod.fst = some 1 ∧ computeHeld stDl = false
    ∧ framesUsed stDl 7 < 8 ∧ chooseCore stDl 0 7 k7.lb 0 = some 0
    ∧ got (.batchDeal 0) stDl (fun s => ((batchOf s 0).map Batch.ngroups, (kernel s 1).nextBatch)) = some (some 1, 1) := by decide +kernel

/-- Core 0 holds batch 0 of kernel 1 of context 7. -/
def stRun (f : Batch → Batch) (g : Kernel → Kernel := id) : State :=
  bindCore { stQ q0 [(5, cq [(0, 1)])] with
    kernels := [(1, g { k7 with nextBatch := 1 })]
    cores := [(0, { Core.empty with batch := some (f (bat0 grp0)), scr := [(9, 9)], tacc := [(1, 1)] })] } 0 0

theorem meets_batchStart :
    let s := stRun (fun b => { b with groups := [], started := false })
    asleep s 0 = false ∧ pinned s 0 = false ∧ got (.batchStart 0) s (fun s => ((batchOf s 0).map (fun b => (b.started, b.groups.length)),
      (core s 0).lastCtx, (core s 0).tacc, mem8 (core s 0).scr 9)) = some (some (true, 1), some 7, [], 0) := by decide +kernel

theorem meets_batchEnd :
    let s := stRun (fun b => { b with groups := [(0, { grp0 with ended := true })] })
    batchOver s 0 { bat0 grp0 with groups := [(0, { grp0 with ended := true })] } = true
    ∧ got (.batchEnd 0) s (fun s => ((batchOf s 0).isSome, s.kernels.length, (cmdOf s 5).map Cmd.fin)) = some (false, 0, some (some 0))
    ∧ got (.batchEnd 0) (stRun (fun b => { b with groups := [(0, { grp0 with ended := true })] }) (fun k => { k with nbatch := 2 }))
      (fun s => ((batchOf s 0).isSome, (kernel s 1).ended)) = some (false, 1) := by decide +kernel

theorem meets_kernelStops :
    let s := stRun (fun b => { b with why := .fault }) (fun k => { k with stopAt := some 0, fault := some ⟨0x0208, 0, 0, 0, 0, 0, 0, 1, 0, 0, none⟩ })
    (coresRunning s 1 = [0] ∧ batchDrained s 0 false = true ∧ pinned s 0 = false ∧ evRoom s 0 = true
      ∧ (reservedCores s 1).all (fun c => !pinned s c && !slotsHeld s c) = true)
    ∧ got (.kernelStopDrainEnd 1) s (fun s => (s.kernels.length, (batchOf s 0).isSome, (cmdOf s 5).map Cmd.fin)) = some (0, false, some (some 0x0208))
    ∧ due { s with now := 0xFFFFFF } 0 (100 * usTicks) = true
    ∧ got (.kernelStopAbort 1) { s with now := 0xFFFFFF, ops := [(9, op0 .load 1 [5])] } (fun s => s.ops.length) = some 0
    ∧ got (.batchPreempt 0) (setF (stRun id) f_SCH_SLOT_STATE 3 3) (fun s => (batchOf s 0).map Batch.why) = some (some .preempt) := by
  decide +kernel

/-- A die's spill channel is there; core 0's batch has stopped to be saved. -/
def stSv : State := setF (stRun (fun b => { b with why := .preempt })) f_TMV_BCH_CFG_USE 127 1

theorem meets_save : (savesAtOnce stSv 0 = 144 ∧ spillChannel stSv (dieOfCore stSv 0) = true ∧ batchDrained stSv 0 true = true
      ∧ mastersStopped stSv = false ∧ pinned stSv 0 = false ∧ (slotOf stSv 7).map Prod.fst = some 3)
    ∧ slotsHeld stSv 0 = false ∧ stSv.reqs = []
    ∧ (frameLook stSv ⟨7, 0, 0, 1, 0x1000⟩ 0 0 (framePages (frameVa ctx7 (freeFrame ctx7)) k7.lb 1)).1 = some true := by decide +kernel

def sv7 : SavedBatch := ⟨1, 0, { bat0 grp0 with why := .preempt }, Matrix.empty, Mover.empty, [(1, 1)], [], [], []⟩
def stRe : State :=
  setF { stDl with ctxs := [(7, { ctx7 with saved := [sv7] })], kernels := [(1, { k7 with nextBatch := 1 })] } f_TMV_BCH_CFG_USE 127 1

theorem meets_restore : (chooseCore stRe 0 7 k7.lb 0 = some 0 ∧ (coresOf stRe 7).length < 8 ∧ asleep stRe 0 = false
      ∧ spillChannel stRe (dieOfCore stRe 0) = true ∧ mastersStopped stRe = false)
    ∧ (slotsHeld stRe 0 = false ∧ pinned stRe 0 = false ∧ stRe.reqs = [])
    ∧ (frameLook stRe ⟨7, 0, 0, 1, 0x1000⟩ 0 0 (framePages (frameVa ctx7 0) k7.lb 1)).1 = some true
    ∧ got (.batchRestore 0 false) stRe (fun s => ((ctxOf s 7).map (fun c => c.saved.length), (core s 0).tacc,
      (batchOf s 0).map (fun b => (b.why, b.groups.map Prod.fst)))) = some (some 0, [(1, 1)], some (.running, [0])) := by decide +kernel

end Sys2Proof.Machine.Tests
end

section
/-! Proofs of the scope family: the idle step and the values after reset. -/

namespace Sys2Proof.Machine

/-! ## The idle step (R9, R424) -/

theorem core_modCore (s : State) (i c : Nat) (f : Core → Core) :
    core (modCore s i f) c = if i = c then f (core s i) else core s c :=
  mget_mput _ _ _ _ _

/-- Marking cores as just seen busy leaves the registers, the time base, and every core but its mark. -/
theorem markBusy_foldl (l : List Nat) (s : State) :
    let s' := l.foldl (fun s i => modCore s i (fun k => { k with idleSince := s.now })) s
    s'.regs = s.regs ∧ s'.now = s.now ∧ ∀ c, core s' c = { core s c with idleSince := (core s' c).idleSince } := by
  induction l generalizing s with
  | nil => exact ⟨rfl, rfl, fun _ => rfl⟩
  | cons i l ih =>
    obtain ⟨hregs, hnow, hcore⟩ := ih (modCore s i (fun k => { k with idleSince := s.now }))
    refine ⟨hregs, hnow, fun c => (hcore c).trans ?_⟩
    rw [core_modCore]
    split
    · next h => subst h; rfl
    · rfl

theorem noteIdle_regs (s : State) : (noteIdle s).regs = s.regs := (markBusy_foldl _ s).1

theorem noteIdle_now (s : State) : (noteIdle s).now = s.now := (markBusy_foldl _ s).2.1

theorem core_noteIdle (s : State) (c : Nat) :
    core (noteIdle s) c = { core s c with idleSince := (core (noteIdle s) c).idleSince } := (markBusy_foldl _ s).2.2 c

/-- A tick before what idles is noted: a step of the slew, the time base and the calendar clock. -/
def clocksTicked (s : State) : State :=
  let t := if tickStep s = 1 then s
    else { s with timeSlew := if tickStep s = 2 then s.timeSlew - 1 else s.timeSlew + 1, slewAt := s.now }
  { t with now := t.now + BitVec.ofNat 64 (tickStep s), rtc := rtcTick t.rtc (t.aon.main = 2) }

theorem tick_eq_noteIdle (s : State) : tick s = noteIdle (clocksTicked s) := rfl

theorem clocksTicked_regs (s : State) : (clocksTicked s).regs = s.regs := by
  unfold clocksTicked; by_cases h : tickStep s = 1 <;> simp [h]

theorem clocksTicked_now (s : State) : (clocksTicked s).now = s.now + BitVec.ofNat 64 (tickStep s) := by
  unfold clocksTicked; by_cases h : tickStep s = 1 <;> simp [h]

theorem core_clocksTicked (s : State) (c : Nat) : core (clocksTicked s) c = core s c := by
  unfold clocksTicked; by_cases h : tickStep s = 1 <;> simp [h, core]

theorem tick_regs (s : State) : (tick s).regs = s.regs := (noteIdle_regs _).trans (clocksTicked_regs s)

theorem tick_now (s : State) : (tick s).now = s.now + BitVec.ofNat 64 (tickStep s) :=
  (noteIdle_now _).trans (clocksTicked_now s)

theorem core_tick (s : State) (c : Nat) :
    core (tick s) c = { core s c with idleSince := (core (tick s) c).idleSince } := by
  rw [tick_eq_noteIdle, ← core_clocksTicked s c]
  exact core_noteIdle _ c

theorem tickStep_le (s : State) : tickStep s ≤ 2 := by
  unfold tickStep; split
  · decide
  · split <;> decide

theorem tickStep_of_no_slew {s : State} (h : s.timeSlew = 0) : tickStep s = 1 := by simp [tickStep, h]

theorem step_of_idle {s : State} (h : s.pending = []) : step s = .next (tick s) := by simp [step, h]

/-- A tick changes the time base, the clock, its slew and what idles. -/
theorem tick_kept (s : State) : Kept [.cores, .now, .power, .rtc, .slewAt, .timeSlew] [] s (tick s) :=
  (tick_frame s).kept _ _ (bitsIn_rfl rfl) (fun _ h => absurd h List.not_mem_nil)

/-- Settles O54: the step is `tick`, whose frame leaves all but the clocks and the marks of what idles. -/
theorem idleStepIsTick : Obligations.IdleStepIsTick := by
  intro s hs
  have hkept := tick_kept s
  exact ⟨tick s, step_of_idle hs, (hkept.parts .pending (by decide)).trans hs, tick_regs s, tick_now s, tickStep_le s,
    tickStep_of_no_slew, hkept, core_tick s⟩

/-! ## The values after reset (R21, R498, R499) -/

theorem resetOf_uniform {r : Reg} (h : r.rsts = []) (k : Nat) : resetOf r k = r.rst := if_pos h

/-- Reset lists RST_STATE and RST_LAST alone: a register elsewhere holds its reset value. -/
theorem getR_reset {r : Reg} {k win : Nat} (h : regKey r k win ≠ 0xD00000) (h' : regKey r k win ≠ 0xD00010) :
    getR State.reset r k win = resetOf r k := by
  simp only [getR, State.reset, mfind, h.symm, h'.symm, if_false]
  rfl

theorem getF_reset_fcapSteps {c : Nat} (hc : c < 144) : getF State.reset f_PWR_CORE_FCAP_STEPS c = 184 := by
  have hkey : regKey r_PWR_CORE_FCAP c 0 = 0xB01000 + c * 4 := by simp [regKey, r_PWR_CORE_FCAP]
  have hval : getR State.reset r_PWR_CORE_FCAP c = 0xB8 :=
    (getR_reset (by omega) (by omega)).trans (resetOf_uniform rfl c)
  exact congrArg (bitsOf · 0 8) hval

theorem getR_reset_silkCtr {n : Nat} (hn : n < 16384) : getR State.reset r_SILK_CTR n = 0 := by
  have hkey : regKey r_SILK_CTR n 0 = 0xA80000 + n * 8 := by simp [regKey, r_SILK_CTR]
  exact (getR_reset (by omega) (by omega)).trans (resetOf_uniform rfl n)

/-- Settles O55: two registers are listed at reset, and every other one holds its Reset column. -/
theorem resetValues : Obligations.ResetValues :=
  ⟨⟨rfl, rfl, fun _ => rfl, fun _ => rfl⟩, by decide, fun _ => getF_reset_fcapSteps, fun _ => getR_reset_silkCtr⟩

end Sys2Proof.Machine
end

section
/-! Registers, the proxy, message age and the pins (R13 to R20, R437, R444, R521, R539, R540). -/

namespace Sys2Proof.Machine

/-! ## The register tables (R11, R16) -/

/-- The fields of a register lie apart, in rising order, within its bytes. -/
def FieldsApart (r : Reg) : Prop :=
  r.flds.Pairwise (fun f g => f.lo + f.width ≤ g.lo) ∧ ∀ f ∈ r.flds, f.lo + f.width ≤ 8 * r.bytes

theorem allRegs_fieldsApart : ∀ r ∈ allRegs, FieldsApart r := by
  unfold FieldsApart
  decide +kernel

/-- Only the two families of registers of a core's mover have their bases. -/
theorem allRegs_base_mover : ∀ r ∈ allRegs, (r.base = r_TMV_CORE_STAT.base → r = r_TMV_CORE_STAT)
    ∧ (r.base = r_TMV_CORE_CL.base → r = r_TMV_CORE_CL) := by
  decide +kernel

theorem mem_allRegs_of_mem_blockRegs {r : Reg} {b : Nat} (h : r ∈ blockRegs b) : r ∈ allRegs := by
  unfold blockRegs at h
  simp only [allRegs, List.mem_append]
  split at h <;> simp_all

theorem Reg.bytes_le (r : Reg) : r.bytes ≤ 8 := by unfold Reg.bytes; split <;> decide

theorem Reg.bytes_of_w64 {r : Reg} (h : r.w64 = true) : r.bytes = 8 := if_pos h

/-- What finding a register says of it: it is in the table, in that window, and the member and the byte are its own. -/
theorem findReg_some {win off k sub : Nat} {r : Reg} (h : findReg win off = some (r, k, sub)) :
    r ∈ allRegs ∧ (win = 0 ∨ r.vf = true) ∧ k < r.count ∧ sub < r.bytes := by
  simp only [findReg, Option.map_eq_some_iff, Prod.mk.injEq] at h
  obtain ⟨r', hfind, rfl, rfl, rfl⟩ := h
  have hp := List.find?_some hfind
  simp only [Bool.and_eq_true, Bool.or_eq_true, decide_eq_true_eq] at hp
  obtain ⟨⟨⟨hwin, -⟩, hk⟩, hsub⟩ := hp
  exact ⟨mem_allRegs_of_mem_blockRegs (List.mem_of_find?_eq_some hfind), hwin, hk, hsub⟩

/-! ## Fields after a write (R16 to R20) -/

theorem bitsOf_lt (v lo w : Nat) : bitsOf v lo w < 2 ^ w := Nat.mod_lt _ (Nat.two_pow_pos w)

/-- Setting fields that lie above one leaves it. -/
theorem bitsOf_foldl_setBits_above {lo w : Nat} (val : FieldDef → Nat) (l : List FieldDef) (x : Nat)
    (h : ∀ f ∈ l, lo + w ≤ f.lo) :
    bitsOf (l.foldl (fun x f => setBits x f.lo f.width (val f)) x) lo w = bitsOf x lo w := by
  induction l generalizing x with
  | nil => rfl
  | cons g l ih =>
    rw [List.foldl_cons, ih _ fun f hf => h f (List.mem_cons_of_mem _ hf)]
    exact bitsOf_setBits_off (.inl (h g List.mem_cons_self))

/-- Setting fields that lie apart sets each. -/
theorem bitsOf_foldl_setBits (val : FieldDef → Nat) {l : List FieldDef} (x : Nat)
    (hl : l.Pairwise (fun f g => f.lo + f.width ≤ g.lo)) {f : FieldDef} (hf : f ∈ l) :
    bitsOf (l.foldl (fun x f => setBits x f.lo f.width (val f)) x) f.lo f.width = val f % 2 ^ f.width := by
  induction l generalizing x with
  | nil => exact absurd hf List.not_mem_nil
  | cons g l ih =>
    obtain ⟨habove, hrest⟩ := List.pairwise_cons.1 hl
    rw [List.foldl_cons]
    rcases List.mem_cons.1 hf with rfl | hf
    · rw [bitsOf_foldl_setBits_above val l _ habove, bitsOf_setBits]
    · exact ih _ hrest hf

theorem fieldWrite_eq_fieldAfter (r : Reg) (k win : Nat) (secure : Bool) (old v : Nat) (f : FieldDef) :
    fieldWrite r k win secure old v f =
      fieldAfter f.acc (fieldTakes r k win f (bitsOf v f.lo f.width)) secure (bitsOf old f.lo f.width)
        (bitsOf v f.lo f.width) := by
  unfold fieldWrite fieldAfter
  cases f.acc <;> rfl

theorem fieldAfter_lt {acc : Access} {takes secure : Bool} {o n w : Nat} (ho : o < 2 ^ w) (hn : n < 2 ^ w) :
    fieldAfter acc takes secure o n < 2 ^ w := by
  unfold fieldAfter
  cases acc with
  | ro | wo => exact ho
  | rw | rws => dsimp only; split <;> assumption
  | w1c => exact (Nat.sub_le _ _).trans_lt ho
  | w1s => exact Nat.or_lt_two_pow ho hn

/-- A field of a register after a write by the access codes. -/
theorem bitsOf_getR_putFields {r : Reg} (hr : FieldsApart r) (s : State) (k win : Nat) (secure : Bool) (v : Nat)
    {f : FieldDef} (hf : f ∈ r.flds) :
    bitsOf (getR (putFields s r k win secure (v % 2 ^ (8 * r.bytes))) r k win) f.lo f.width =
      fieldAfter f.acc (fieldTakes r k win f (bitsOf v f.lo f.width)) secure (bitsOf (getR s r k win) f.lo f.width)
        (bitsOf v f.lo f.width) := by
  obtain ⟨hapart, hin⟩ := hr
  have hb := r.bytes_le
  have hf64 : f.lo + f.width ≤ 64 := (hin f hf).trans (by omega)
  unfold putFields
  rw [getR_setR_same, bitsOf_mod hf64, regAfter, bitsOf_foldl_setBits _ _ hapart hf, fieldWrite_eq_fieldAfter,
    bitsOf_mod (hin f hf), Nat.mod_eq_of_lt (fieldAfter_lt (bitsOf_lt ..) (bitsOf_lt ..))]

/-- A write of a register that no command describes sets its fields. -/
theorem regWrite_plain {s : State} {r : Reg} {win : Nat} (hp : plainWrite r = true) (hw : win = 0 ∨ winOpen s win = true)
    (k : Nat) (secure : Bool) (v : Nat) : regWrite s r k win secure v = .next (putFields s r k win secure v) := by
  have hbase : ∀ x ∈ writeActs, r.base ≠ x.base := fun x hx e => by
    have := List.all_eq_true.1 hp x hx
    simp [e] at this
  simp only [writeActs, List.forall_mem_cons] at hbase
  unfold regWrite writeLocked
  rcases hw with h | h <;> simp [hbase, h]

/-! ## What an access leaves of the state -/

theorem getR_of_regs_eq {s t : State} (h : t.regs = s.regs) (r : Reg) (k win : Nat) : getR t r k win = getR s r k win := by
  unfold getR; rw [h]

theorem flagF_setF_one (s : State) {f : RF} (k : Nat) (hw : f.width = 1) (h : f.lo + f.width ≤ 64) :
    flagF (setF s f k 1) f k = true := by
  rw [flagF, getF_setF s f k 1 0 h, hw]
  rfl

theorem flagF_setF_zero (s : State) {f : RF} (k : Nat) (h : f.lo + f.width ≤ 64) : flagF (setF s f k 0) f k = false := by
  rw [flagF, getF_setF s f k 0 0 h, Nat.zero_mod]
  rfl

theorem dstate_of_regs_eq {s t : State} (h : t.regs = s.regs) (c : Nat) : dstate t c = dstate s c := by
  unfold dstate getF; rw [getR_of_regs_eq h]

/-- What a read holds does not depend on latches. -/
theorem regRead_dropLatch (s : State) (req key : Nat) (r : Reg) (k win : Nat) (secure : Bool) :
    regRead (dropLatch s req key) r k win secure = regRead s r k win secure := rfl

theorem latchOf_dropLatch (s : State) (req key : Nat) : latchOf (dropLatch s req key) req key = none := by
  simp only [latchOf, dropLatch, Option.map_eq_none_iff, List.find?_eq_none, List.mem_filter]
  rintro l ⟨-, hl⟩ hl'
  simp [hl'] at hl

/-- A latch that is set where none stands is the one that is found. -/
theorem latchOf_append {s : State} {req key : Nat} (h : latchOf s req key = none) (u : Nat) :
    latchOf { s with latches := s.latches ++ [⟨req, key, u⟩] } req key = some u := by
  simp only [latchOf, Option.map_eq_none_iff] at h ⊢
  simp [List.find?_append, h]

/-! ## The wake of a core by an access to its mover (R257; log entry 60) -/

/-- The registers that a wake can change: of cores' frequencies, of wings and of cores' states. -/
theorem wakeFor_kept (s : State) (r : Reg) (k : Nat) :
    Kept [.cores] [r_PWR_CORE_FREQ, r_THM_WING, r_THM_CORE_AGE] s (wakeFor s r k) :=
  (wakeFor_frame s r k).kept _ _ (by decide +kernel) fun x hx => by
    simp only [List.mem_cons, List.not_mem_nil, or_false] at hx
    rcases hx with rfl | rfl | rfl <;> rfl

theorem wakeFor_latches (s : State) (r : Reg) (k : Nat) : (wakeFor s r k).latches = s.latches :=
  (wakeFor_kept s r k).parts .latches (by decide)

theorem wakeFor_reply (s : State) (r : Reg) (k : Nat) : (wakeFor s r k).reply = s.reply :=
  (wakeFor_kept s r k).parts .reply (by decide)

/-- Registers below those of cores' frequencies are not changed by a wake. -/
theorem getR_wakeFor_low (s : State) (r r' : Reg) (k k' win : Nat) (h : regKey r' k' win < 0xB01400) :
    getR (wakeFor s r k) r' k' win = getR s r' k' win := by
  unfold getR
  rw [(wakeFor_kept s r k).regs]
  intro x hx i w
  have hx' : 0xB01400 ≤ x.base := by
    simp only [List.mem_cons, List.not_mem_nil, or_false] at hx
    rcases hx with rfl | rfl | rfl <;> decide
  simp only [regKey] at h ⊢
  omega

/-- An access wakes no core, or is to a register of a core's mover in the physical function's window. -/
theorem wakeFor_cases {win off k sub : Nat} {r : Reg} (h : findReg win off = some (r, k, sub)) (s : State) :
    wakeFor s r k = s ∨ (win = 0 ∧ regKey r k win < 0xB01400) := by
  obtain ⟨hmem, hwin, hk, -⟩ := findReg_some h
  obtain ⟨hstat, hcl⟩ := allRegs_base_mover r hmem
  unfold wakeFor
  split
  · next hb =>
    obtain rfl := hstat hb
    have : k < 144 := hk
    obtain rfl : win = 0 := hwin.resolve_right (by decide)
    exact .inr ⟨rfl, by simp only [regKey, r_TMV_CORE_STAT]; omega⟩
  · split
    · next hb =>
      obtain rfl := hcl hb
      have : k < 576 := hk
      obtain rfl : win = 0 := hwin.resolve_right (by decide)
      exact .inr ⟨rfl, by simp only [regKey, r_TMV_CORE_CL]; omega⟩
    · exact .inl rfl

/-- The register that an access is to reads the same after its wake. -/
theorem getR_wakeFor_self {win off k sub : Nat} {r : Reg} (h : findReg win off = some (r, k, sub)) (s : State) :
    getR (wakeFor s r k) r k win = getR s r k win := by
  rcases wakeFor_cases h s with e | ⟨-, hlow⟩
  · rw [e]
  · exact getR_wakeFor_low s r r k k win hlow

theorem winOpen_wakeFor {win off k sub : Nat} {r : Reg} (h : findReg win off = some (r, k, sub)) {s : State}
    (hw : win = 0 ∨ winOpen s win = true) : win = 0 ∨ winOpen (wakeFor s r k) win = true := by
  rcases wakeFor_cases h s with e | ⟨hwin, -⟩
  · rw [e]; exact hw
  · exact .inl hwin

theorem wakeWing_answerAccess (s : State) (d : List Byte) (w : Nat) :
    wakeWing (answerAccess s d) w = answerAccess (wakeWing s w) d := by
  have hget : ∀ f k, getF (answerAccess s d) f k = getF s f k := fun _ _ => rfl
  unfold wakeWing
  simp only [hget]
  split
  · rfl
  · split <;> rfl

theorem wakeCore_answerAccess (s : State) (d : List Byte) (c : Nat) :
    wakeCore (answerAccess s d) c = answerAccess (wakeCore s c) d := by
  have hget : ∀ f k, getF (answerAccess s d) f k = getF s f k := fun _ _ => rfl
  have hwing : wingOf (answerAccess s d) c = wingOf s c := rfl
  unfold wakeCore
  simp only [hget, hwing, wakeWing_answerAccess]
  split
  · rfl
  · split <;> rfl

/-- A wake does not depend on what the last access returned, and leaves it. -/
theorem wakeFor_answerAccess (s : State) (d : List Byte) (r : Reg) (k : Nat) :
    wakeFor (answerAccess s d) r k = answerAccess (wakeFor s r k) d := by
  unfold wakeFor
  split
  · exact wakeCore_answerAccess s d k
  · split
    · exact wakeCore_answerAccess s d (k / 4)
    · rfl

/-- A core in diapause begins to wake. -/
theorem dstate_wakeCore {s : State} {c : Nat} (h : dstate s c = 2) : dstate (wakeCore s c) c = 3 := by
  have h' : getF s f_THM_CORE_AGE_DSTATE c = 2 := h
  simp only [wakeCore, h']
  exact getF_setF _ f_THM_CORE_AGE_DSTATE c 3 0 (by decide)

/-! ## Writes of registers -/

section
variable {req : Requester} {win off size v k sub : Nat} {r : Reg} {s : State}

theorem isProxy_eq_false (h : r.base ≠ r_MBX_PROXY_DATA.base) : isProxy r = false := decide_eq_false h

theorem registerWrite_closed (h : barOpen s win = false) :
    exec (.registerWrite req win off size v) s = .next (refuseAccess s) := by
  show execRegisterWrite req win off size v s = _
  simp [execRegisterWrite, h]

theorem registerWrite_reserved (h : barOpen s win = true) (hf : findReg win off = none) :
    exec (.registerWrite req win off size v) s = .next (answerAccess s []) := by
  show execRegisterWrite req win off size v s = _
  simp [execRegisterWrite, h, hf]

theorem registerWrite_whole (h : barOpen s win = true) (hf : findReg win off = some (r, k, 0))
    (hp : r.base ≠ r_MBX_PROXY_DATA.base) :
    exec (.registerWrite req win off r.bytes v) s =
      regWrite (dropLatches (wakeFor (answerAccess s []) r k) (regKey r k win)) r k win req.secure (v % 2 ^ (8 * r.bytes)) := by
  show execRegisterWrite req win off r.bytes v s = _
  simp [execRegisterWrite, h, hf, isProxy_eq_false hp]

/-- A write of a part of a register changes no register but what the wake of its core does. -/
theorem registerWrite_part (h : barOpen s win = true) (hf : findReg win off = some (r, k, sub)) (hs : sub ≠ 0 ∨ size ≠ r.bytes) :
    ∃ s', exec (.registerWrite req win off size v) s = .next s' ∧ s'.regs = (wakeFor s r k).regs := by
  have hpart : (sub = 0 && size = r.bytes : Bool) = false := by
    rcases hs with hs | hs <;> simp [hs]
  show ∃ s', execRegisterWrite req win off size v s = .next s' ∧ _
  simp only [execRegisterWrite, h, hf, hpart, wakeFor_answerAccess, Bool.not_true, Bool.false_eq_true, if_false]
  split <;> exact ⟨_, rfl, rfl⟩

/-- A write of a whole register that no command describes, in a window that takes it, sets its fields. -/
theorem registerWrite_plain (h : barOpen s win = true) (hf : findReg win off = some (r, k, 0)) (hp : plainWrite r = true)
    (hw : win = 0 ∨ winOpen s win = true) :
    exec (.registerWrite req win off r.bytes v) s =
      .next (putFields (dropLatches (wakeFor (answerAccess s []) r k) (regKey r k win)) r k win req.secure
        (v % 2 ^ (8 * r.bytes))) := by
  have hproxy : r.base ≠ r_MBX_PROXY_DATA.base := fun e => by
    simp only [plainWrite, e] at hp
    revert hp; decide
  rw [registerWrite_whole h hf hproxy]
  have hwake : win = 0 ∨ winOpen (wakeFor (answerAccess s []) r k) win = true := winOpen_wakeFor hf hw
  exact regWrite_plain (s := dropLatches _ _) hp hwake ..

/-! ## Reads of registers -/

theorem readReg_of_ne_proxy (h : r.base ≠ r_MBX_PROXY_DATA.base) :
    readReg s req r k win = (regRead s r k win req.secure, s) := by
  simp [readReg, isProxy_eq_false h]

theorem registerSplitRead_closed (h : barOpen s win = false) :
    exec (.registerSplitRead req win off size) s = .next (refuseAccess s) := by
  show execRegisterSplitRead req win off size s = _
  simp [execRegisterSplitRead, h]

theorem registerSplitRead_reserved (h : barOpen s win = true) (hf : findReg win off = none) :
    exec (.registerSplitRead req win off size) s = .next (answerAccess s (List.replicate size 0)) := by
  show execRegisterSplitRead req win off size s = _
  simp [execRegisterSplitRead, h, hf]

theorem registerSplitRead_whole (h : barOpen s win = true) (hf : findReg win off = some (r, k, 0))
    (hp : r.base ≠ r_MBX_PROXY_DATA.base) :
    exec (.registerSplitRead req win off r.bytes) s =
      .next (answerAccess (dropLatch (wakeFor s r k) req.id (regKey r k win))
        (leBytes r.bytes (regRead (wakeFor s r k) r k win req.secure))) := by
  show execRegisterSplitRead req win off r.bytes s = _
  simp [execRegisterSplitRead, h, hf, readReg_of_ne_proxy hp]

/-- A read of the lower half of a register latches its upper half (R14). -/
theorem registerSplitRead_lower (h : barOpen s win = true) (hf : findReg win off = some (r, k, 0)) (h64 : r.w64 = true)
    (hp : r.base ≠ r_MBX_PROXY_DATA.base) :
    exec (.registerSplitRead req win off 4) s =
      let t := dropLatch (wakeFor s r k) req.id (regKey r k win)
      let x := regRead (wakeFor s r k) r k win req.secure
      .next (answerAccess { t with latches := t.latches ++ [⟨req.id, regKey r k win, x / 2 ^ 32⟩] } (leBytes 4 x)) := by
  show execRegisterSplitRead req win off 4 s = _
  simp [execRegisterSplitRead, h, hf, readReg_of_ne_proxy hp, h64, Reg.bytes_of_w64 h64]

/-- A read of the upper half takes its requester's latch (R14). -/
theorem registerSplitRead_upper {u : Nat} (h : barOpen s win = true) (hf : findReg win off = some (r, k, 4)) (h64 : r.w64 = true)
    (hu : latchOf s req.id (regKey r k win) = some u) :
    exec (.registerSplitRead req win off 4) s =
      .next (answerAccess (dropLatch (wakeFor s r k) req.id (regKey r k win)) (leBytes 4 u)) := by
  have hu' : latchOf (wakeFor s r k) req.id (regKey r k win) = some u := by
    rw [latchOf, wakeFor_latches]; exact hu
  show execRegisterSplitRead req win off 4 s = _
  simp [execRegisterSplitRead, h, hf, h64, hu']

/-- A read changes no register but what the wake of its core does. -/
theorem registerSplitRead_regs (h : barOpen s win = true) (hf : findReg win off = some (r, k, sub))
    (hp : r.base ≠ r_MBX_PROXY_DATA.base) :
    ∃ s', exec (.registerSplitRead req win off size) s = .next s' ∧ s'.regs = (wakeFor s r k).regs := by
  show ∃ s', execRegisterSplitRead req win off size s = .next s' ∧ _
  simp only [execRegisterSplitRead, h, hf, readReg_of_ne_proxy hp, Bool.not_true, Bool.false_eq_true, if_false]
  split
  · split
    · exact ⟨_, rfl, rfl⟩
    · split
      · exact ⟨_, rfl, rfl⟩
      · split <;> exact ⟨_, rfl, rfl⟩
  · exact ⟨_, rfl, rfl⟩

end

/-! ## The clauses on register accesses -/

section
variable {req : Requester} {win off size v k sub : Nat} {r : Reg} {s : State}

/-- TMV_CORE_STAT is found in the physical function's window alone. -/
theorem findReg_coreStat (hf : findReg win off = some (r, k, sub)) (hb : r.base = r_TMV_CORE_STAT.base) :
    r = r_TMV_CORE_STAT ∧ win = 0 := by
  obtain ⟨hmem, hwin, -, -⟩ := findReg_some hf
  obtain rfl := (allRegs_base_mover r hmem).1 hb
  exact ⟨rfl, hwin.resolve_right (by decide)⟩

/-- A register whose base is TMV_CORE_STAT's is one whose writes only set fields. -/
theorem plainWrite_of_base_coreStat (hb : r.base = r_TMV_CORE_STAT.base) : plainWrite r = true := by
  unfold plainWrite
  rw [hb]
  decide

theorem ne_proxy_of_base_coreStat (hb : r.base = r_TMV_CORE_STAT.base) : r.base ≠ r_MBX_PROXY_DATA.base := by
  rw [hb]; decide

/-- A core in diapause begins to wake by an access to TMV_CORE_STAT (R257). -/
theorem dstate_wakeFor_coreStat (hb : r.base = r_TMV_CORE_STAT.base) (hd : dstate s k = 2) : dstate (wakeFor s r k) k = 3 := by
  rw [wakeFor, if_pos hb]
  exact dstate_wakeCore hd

/-- Setting the fields of TMV_CORE_STAT leaves the states of cores. -/
theorem dstate_putFields_coreStat (hf : findReg win off = some (r, k, sub)) (hb : r.base = r_TMV_CORE_STAT.base) (s : State)
    (secure : Bool) (v : Nat) : dstate (putFields s r k win secure v) k = dstate s k := by
  obtain ⟨rfl, rfl⟩ := findReg_coreStat hf hb
  refine getF_setR_key _ _ f_THM_CORE_AGE_DSTATE _ _ _ _ _ ?_
  simp [regKey, r_TMV_CORE_STAT, f_THM_CORE_AGE_DSTATE, r_THM_CORE_AGE]

theorem registerWrite_sets_fields (h : barOpen s win = true) (hf : findReg win off = some (r, k, 0)) (hp : plainWrite r = true)
    (hw : win = 0 ∨ winOpen s win = true) :
    Gives (.registerWrite req win off r.bytes v) s (fun s' => s'.reply.ok = true
      ∧ ∀ f ∈ r.flds, bitsOf (getR s' r k win) f.lo f.width =
        fieldAfter f.acc (fieldTakes r k win f (bitsOf v f.lo f.width)) req.secure (bitsOf (getR s r k win) f.lo f.width)
          (bitsOf v f.lo f.width)) := by
  have hfields := allRegs_fieldsApart r (findReg_some hf).1
  have hold : getR (dropLatches (wakeFor (answerAccess s []) r k) (regKey r k win)) r k win = getR s r k win :=
    getR_wakeFor_self hf (answerAccess s [])
  refine ⟨_, registerWrite_plain h hf hp hw, ?_, fun f hm => ?_⟩
  · exact congrArg Reply.ok (wakeFor_reply (answerAccess s []) r k)
  · rw [bitsOf_getR_putFields hfields _ k win _ v hm, hold]

theorem registerWrite_wakes (h : barOpen s win = true) (hf : findReg win off = some (r, k, sub))
    (hb : r.base = r_TMV_CORE_STAT.base) (hd : dstate s k = 2) :
    Gives (.registerWrite req win off size v) s (fun s' => dstate s' k = 3) := by
  by_cases hs : sub = 0 ∧ size = r.bytes
  · obtain ⟨rfl, rfl⟩ := hs
    have hplain := registerWrite_plain (req := req) (v := v) h hf (plainWrite_of_base_coreStat hb) (.inl (findReg_coreStat hf hb).2)
    exact ⟨_, hplain, (dstate_putFields_coreStat hf hb ..).trans (dstate_wakeFor_coreStat (s := answerAccess s []) hb hd)⟩
  · obtain ⟨s', hs', hregs⟩ := registerWrite_part (req := req) (v := v) h hf (Decidable.not_and_iff_not_or_not.1 hs)
    exact ⟨s', hs', (dstate_of_regs_eq hregs k).trans (dstate_wakeFor_coreStat hb hd)⟩

theorem registerSplitRead_wakes (h : barOpen s win = true) (hf : findReg win off = some (r, k, sub))
    (hb : r.base = r_TMV_CORE_STAT.base) (hd : dstate s k = 2) :
    Gives (.registerSplitRead req win off size) s (fun s' => dstate s' k = 3) := by
  obtain ⟨s', hs', hregs⟩ := registerSplitRead_regs (req := req) (size := size) h hf (ne_proxy_of_base_coreStat hb)
  exact ⟨s', hs', (dstate_of_regs_eq hregs k).trans (dstate_wakeFor_coreStat hb hd)⟩

theorem registerSplitRead_latches (h : barOpen s win = true) (hf : findReg win off = some (r, k, 0)) (h64 : r.w64 = true)
    (hp : r.base ≠ r_MBX_PROXY_DATA.base) :
    Gives (.registerSplitRead req win off 4) s (fun s' =>
      s'.reply = ⟨true, false, leBytes 4 (regRead (wakeFor s r k) r k win req.secure)⟩
      ∧ latchOf s' req.id (regKey r k win) = some (regRead (wakeFor s r k) r k win req.secure / 2 ^ 32)) :=
  ⟨_, registerSplitRead_lower h hf h64 hp, rfl, latchOf_append (latchOf_dropLatch ..) _⟩

end

/-! ## The manager's proxy (R444) -/

section
variable {req : Requester} {v : Nat} {s : State}

/-- The number of the window's owner that MBX_PROXY_ADDR names. -/
def proxyInst (s : State) : Nat := getF s f_MBX_PROXY_ADDR_INSTANCE

/-- The offset that MBX_PROXY_ADDR names. -/
def proxyOff (s : State) : Nat := getF s f_MBX_PROXY_ADDR_OFFSET

theorem proxyRefuses_eq (s : State) : proxyRefuses s = (!instExists s (proxyInst s) || !proxyBlock (proxyOff s)) := rfl

theorem proxyReg_of_findReg {r : Reg} {k : Nat} (hf : findReg (proxyInst s + 1) (proxyOff s) = some (r, k, 0)) :
    proxyReg s = some (r, k) := by
  unfold proxyInst proxyOff at hf
  simp [proxyReg, hf]

theorem mbxProxyAccess_write {t : State} (h : barOpen s 0 = true)
    (hx : proxyWrite (dropLatches s (regKey r_MBX_PROXY_DATA 0 0)) v = .next t) :
    exec (.mbxProxyAccess req true v) s = .next (answerAccess t []) := by
  show execMbxProxyAccess req true v s = _
  simp [execMbxProxyAccess, h, hx, andThen]

theorem mbxProxyAccess_read {t : State} {x : Nat} (h : barOpen s 0 = true)
    (hx : proxyRead (dropLatch s req.id (regKey r_MBX_PROXY_DATA 0 0)) req = (x, t)) :
    exec (.mbxProxyAccess req false v) s = .next (answerAccess t (leBytes 8 x)) := by
  show execMbxProxyAccess req false v s = _
  simp [execMbxProxyAccess, h, hx]

theorem mbxProxyAccess_refused (h : barOpen s 0 = true) (hr : proxyRefuses s = true) (write : Bool) :
    Gives (.mbxProxyAccess req write v) s (fun s' => flagF s' f_MBX_CTRL_REFUSED = true
      ∧ (write = false → s'.reply = ⟨true, false, List.replicate 8 0⟩)) := by
  cases write with
  | true =>
    have hw : proxyWrite (dropLatches s (regKey r_MBX_PROXY_DATA 0 0)) v = .next (setF _ f_MBX_CTRL_REFUSED 0 1) := if_pos hr
    refine ⟨_, mbxProxyAccess_write h hw, flagF_setF_one _ _ rfl (by decide), fun e => nomatch e⟩
  | false =>
    have hx : proxyRead (dropLatch s req.id (regKey r_MBX_PROXY_DATA 0 0)) req = (0, setF _ f_MBX_CTRL_REFUSED 0 1) := if_pos hr
    refine ⟨_, mbxProxyAccess_read h hx, flagF_setF_one _ _ rfl (by decide), fun _ => rfl⟩

theorem mbxProxyAccess_reads {r : Reg} {k : Nat} (h : barOpen s 0 = true) (hr : proxyRefuses s = false)
    (hf : findReg (proxyInst s + 1) (proxyOff s) = some (r, k, 0)) :
    Gives (.mbxProxyAccess req false v) s (fun s' =>
      s'.reply = ⟨true, false, leBytes 8 (regRead s r k (proxyInst s + 1) false)⟩ ∧ s'.regs = s.regs) := by
  let t := dropLatch s req.id (regKey r_MBX_PROXY_DATA 0 0)
  have hr' : proxyRefuses t = false := hr
  have hreg : proxyReg t = some (r, k) := proxyReg_of_findReg (s := t) hf
  have hx : proxyRead t req = (regRead t r k (proxyInst s + 1) false, dropLatch t req.id (regKey r k (proxyInst s + 1))) := by
    simp only [proxyRead, hr', hreg]; rfl
  exact ⟨_, mbxProxyAccess_read h hx, congrArg (fun x => Reply.mk true false (leBytes 8 x)) (regRead_dropLatch ..), rfl⟩

theorem mbxProxyAccess_sets_fields {r : Reg} {k : Nat} (h : barOpen s 0 = true) (hr : proxyRefuses s = false)
    (hf : findReg (proxyInst s + 1) (proxyOff s) = some (r, k, 0)) (hp : plainWrite r = true)
    (hw : winOpen s (proxyInst s + 1) = true) :
    Gives (.mbxProxyAccess req true v) s (fun s' => ∀ f ∈ r.flds, bitsOf (getR s' r k (proxyInst s + 1)) f.lo f.width =
      fieldAfter f.acc (fieldTakes r k (proxyInst s + 1) f (bitsOf v f.lo f.width)) false
        (bitsOf (getR s r k (proxyInst s + 1)) f.lo f.width) (bitsOf v f.lo f.width)) := by
  let win := proxyInst s + 1
  let t := dropLatches s (regKey r_MBX_PROXY_DATA 0 0)
  let t' := dropLatches t (regKey r k win)
  have hr' : proxyRefuses t = false := hr
  have hreg : proxyReg t = some (r, k) := proxyReg_of_findReg (s := t) hf
  have hx : proxyWrite t v = .next (putFields t' r k win false (v % 2 ^ (8 * r.bytes))) := by
    simp only [proxyWrite, hr', hreg]
    exact regWrite_plain (s := t') hp (.inr hw) ..
  refine ⟨_, mbxProxyAccess_write h hx, fun f hm => ?_⟩
  exact bitsOf_getR_putFields (allRegs_fieldsApart r (findReg_some hf).1) t' k win false v hm

end

/-! ## Messages that reach 20 ms (R521) -/

section
variable {s t : State} {m : HeldMsg} {sent : DWord}

theorem messageAgeDiscard_eq (hm : heldMsg s m = some (sent, t)) :
    exec (.messageAgeDiscard m) s = .next (if aged s sent then countR t r_RST_DISCARDS 0 1 else s) := by
  show execMessageAgeDiscard m s = _
  simp [execMessageAgeDiscard, hm]

/-- A held message of 20 ms is discarded and counted. -/
theorem messageAgeDiscard_old (hm : heldMsg s m = some (sent, t)) (hold : due s sent (20 * msTicks) = true)
    (hregs : t.regs = s.regs) {P : State → Prop} (hP : P (countR t r_RST_DISCARDS 0 1)) :
    Gives (.messageAgeDiscard m) s (fun s' => P s' ∧ getR s' r_RST_DISCARDS = (getR s r_RST_DISCARDS + 1) % 2 ^ 64) := by
  refine ⟨_, (messageAgeDiscard_eq hm).trans (by rw [aged, if_pos hold]), hP, ?_⟩
  rw [getR_countR_same, getR_of_regs_eq hregs]

theorem messageAgeDiscard_young (hm : heldMsg s m = some (sent, t)) (hold : ¬ due s sent (20 * msTicks) = true) :
    Gives (.messageAgeDiscard m) s (fun s' => s' = s) :=
  ⟨_, (messageAgeDiscard_eq hm).trans (by rw [aged, if_neg hold]), rfl⟩

theorem heldMsg_arrived {k : Nat} {x : Nat × LinkMsg} (h : s.linkIn[k]? = some x) :
    heldMsg s (.arrived k) = some (x.2.sent, { s with linkIn := s.linkIn.eraseIdx k }) := by
  simp [heldMsg, h]

theorem heldMsg_atPort {p k : Nat} {x : LinkMsg} (h : (port s p).waiting[k]? = some x) :
    heldMsg s (.atPort p k) = some (x.sent, modPort s p (fun q => { q with waiting := q.waiting.eraseIdx k })) := by
  simp [heldMsg, h]

theorem heldMsg_silk {id : Nat} {x : SilkMsg} (h : mfind s.silkMsgs id = some x) :
    heldMsg s (.silk id) = some (x.sent, { s with silkMsgs := mdel s.silkMsgs id }) := by
  simp [heldMsg, h]

theorem heldMsg_release {op : Nat} {x : SilkReply} (h : mfind s.silkReplies op = some x) :
    heldMsg s (.release op) = some (x.sent, { s with silkReplies := mdel s.silkReplies op }) := by
  simp [heldMsg, h]

theorem heldMsg_request {id : Nat} {x : MemReq} (h : mfind s.reqs id = some x) (hstage : x.stage = .sent ∨ x.stage = .hbm)
    (hown : ∀ j, x.owner ≠ .link j) :
    heldMsg s (.request id) = some (x.issued, { s with reqs := mput s.reqs id { x with stage := .lost } }) := by
  have hheld : (x.stage ≠ .sent && x.stage ≠ .hbm : Bool) = false := by
    rcases hstage with e | e <;> simp [e]
  simp only [heldMsg, h, hheld]
  cases ho : x.owner with
  | link j => exact absurd ho (hown j)
  | _ => rfl

theorem port_modPort (s : State) (p : Nat) (f : Port → Port) : port (modPort s p f) p = f (port s p) :=
  (mget_mput ..).trans (if_pos rfl)

theorem waiting_eraseWaiting (s : State) (p k : Nat) :
    (port (modPort s p (fun q => { q with waiting := q.waiting.eraseIdx k })) p).waiting = (port s p).waiting.eraseIdx k :=
  congrArg Port.waiting (port_modPort s p _)

end

/-! ## The I3C port (R503, R509, R539) -/

section
variable {s : State} {data : List Byte} {offset : Nat}

theorem onI3c_accepted {ok : Bool} {f : State → State} {P : State → Prop} (haux : s.aon.aux = true) (hok : ok = true)
    (hP : P (f s)) : ∃ s', onI3c s ok f = .next s' ∧ P s' :=
  ⟨f s, by simp [onI3c, haux, hok], hP⟩

theorem onI3c_refused {ok : Bool} {f : State → State} {P : State → Prop} (h : s.aon.aux = false ∨ ok = false)
    (hP : P (refuseAccess s)) : ∃ s', onI3c s ok f = .next s' ∧ P s' :=
  ⟨refuseAccess s, by rcases h with h | h <;> simp [onI3c, h], hP⟩

/-- Without VIN_AUX the port accepts no command. -/
theorem i3c_refused_of_no_aux (haux : s.aon.aux = false) {c : Instr}
    (hc : c ∈ [Instr.status, .descRead, .descWrite data, .recovery offset data, .recoveryDone]) :
    Gives c s (fun s' => s'.reply.ok = false ∧ s'.flash = s.flash) := by
  have hno : ∀ {ok : Bool} {f : State → State}, ∃ s', onI3c s ok f = .next s' ∧ s'.reply.ok = false ∧ s'.flash = s.flash :=
    onI3c_refused (.inl haux) ⟨rfl, rfl⟩
  simp only [List.mem_cons, List.not_mem_nil, or_false] at hc
  rcases hc with rfl | rfl | rfl | rfl | rfl
  · show ∃ s', execStatus s = .next s' ∧ _
    exact hno
  · show ∃ s', execDescRead s = .next s' ∧ _
    exact hno
  · show ∃ s', execDescWrite data s = .next s' ∧ _
    exact hno
  · show ∃ s', execRecovery offset data s = .next s' ∧ _
    exact hno
  · show ∃ s', execRecoveryDone s = .next s' ∧ _
    exact hno

/-- STATUS returns the four registers (R539). -/
theorem status_answers (haux : s.aon.aux = true) :
    Gives .status s (fun s' => s'.reply = ⟨true, false, leBytes 4 (regRead s r_CHIP_STATE 0 0 false)
      ++ leBytes 4 (regRead s r_THM_STATUS 0 0 false) ++ leBytes 4 (regRead s r_PWR_PKG_POWER 0 0 false)
      ++ leBytes 4 (regRead s r_PWR_STATUS 0 0 false)⟩) := by
  show ∃ s', execStatus s = .next s' ∧ _
  exact onI3c_accepted haux rfl (by simp [answerAccess])

theorem range_map_getD {α : Type} {l : List α} {n : Nat} (h : l.length = n) (d : α) :
    (List.range n).map (fun k => l.getD k d) = l := by
  subst h
  exact List.ext_getElem (by simp) fun i _ h => by simp [h]

theorem descRead_answers (haux : s.aon.aux = true) (he2 : e2Over s = true) (hlen : s.flash.board.length = 128) :
    Gives .descRead s (fun s' => s'.reply = ⟨true, false, s.flash.board⟩) := by
  show ∃ s', execDescRead s = .next s' ∧ _
  exact onI3c_accepted haux he2 (congrArg (Reply.mk true false) (range_map_getD hlen 0))

/-- The last four of 128 bytes, as a number. -/
theorem bytesNum_crc (hlen : data.length = 128) : bytesNum data 124 4 = leNat (data.drop 124) := by
  unfold bytesNum
  rw [List.take_of_length_le (by simp [hlen])]

theorem descWrite_accepted (haux : s.aon.aux = true) (he2 : e2Over s = true) (hheld : computeHeld s = false)
    (hlen : data.length = 128) (hcrc : crc32 (data.take 124) = leNat (data.drop 124)) :
    Gives (.descWrite data) s (fun s' => s'.reply.ok = true ∧ s'.flash.board = data) := by
  show ∃ s', execDescWrite data s = .next s' ∧ _
  exact onI3c_accepted haux (by simp [he2, hheld, hlen, bytesNum_crc hlen, hcrc]) ⟨rfl, rfl⟩

theorem descWrite_refused (hlen : data.length = 128) (hcrc : crc32 (data.take 124) ≠ leNat (data.drop 124)) :
    Gives (.descWrite data) s (fun s' => s'.reply.ok = false ∧ s'.flash = s.flash) := by
  show ∃ s', execDescWrite data s = .next s' ∧ _
  exact onI3c_refused (.inr (by simp [bytesNum_crc hlen, hcrc])) ⟨rfl, rfl⟩

/-- Bytes put one by one read back, and every other byte as before. -/
theorem mem8_foldl_mput (val : Nat → Byte) (base : Nat) (m : Mem) (n a : Nat) :
    mem8 ((List.range n).foldl (fun (m : Mem) k => mput m (base + k) (val k)) m) a =
      if base ≤ a ∧ a < base + n then val (a - base) else mem8 m a := by
  induction n with
  | zero => rw [if_neg (by omega)]; rfl
  | succ n ih =>
    rw [List.range_succ, List.foldl_append]
    refine (mget_mput ..).trans ?_
    by_cases e : base + n = a
    · subst e
      rw [if_pos rfl, if_pos (by omega), Nat.add_sub_cancel_left]
    · rw [if_neg e]
      refine ih.trans ?_
      by_cases h : base ≤ a ∧ a < base + n
      · rw [if_pos h, if_pos (by omega)]
      · rw [if_neg h, if_neg (by omega)]

theorem recovery_accepted (haux : s.aon.aux = true) (hhold : recoveryHold s = true) (hlen : data.length ≤ 4096) :
    Gives (.recovery offset data) s (fun s' => s'.reply.ok = true
      ∧ ∀ k, k < data.length → mem8 s'.aon.image (offset % 2 ^ 32 + k) = data.getD k 0) := by
  show ∃ s', execRecovery offset data s = .next s' ∧ _
  refine onI3c_accepted haux (by simp [hhold, hlen]) ⟨rfl, fun k hk => ?_⟩
  refine (mem8_foldl_mput (fun k => data.getD k 0) _ _ _ _).trans ?_
  rw [if_pos (by omega), Nat.add_sub_cancel_left]

theorem recovery_refused (hlen : 4096 < data.length) :
    Gives (.recovery offset data) s (fun s' => s'.reply.ok = false ∧ s'.aon = s.aon) := by
  show ∃ s', execRecovery offset data s = .next s' ∧ _
  exact onI3c_refused (.inr (by simp [hlen])) ⟨rfl, rfl⟩

theorem getF_phase_of_recoveryHold (h : recoveryHold s = true) : getF s f_RST_STATE_PHASE = 1 := by
  simp only [recoveryHold, Bool.and_eq_true, decide_eq_true_eq] at h
  exact h.1.1.2

/-- An image that checks becomes the primary copy, and E1 starts again (R503). -/
theorem recoveryDone_good (haux : s.aon.aux = true) (hhold : recoveryHold s = true)
    (himage : Config.imageOk (recoveryImage s) = true) :
    Gives .recoveryDone s (fun s' => s'.flash.primary = recoveryImage s
      ∧ flagF s' f_RST_STATE_FAILED = false ∧ getF s' f_RST_STATE_PHASE = 1) := by
  show ∃ s', execRecoveryDone s = .next s' ∧ _
  refine onI3c_accepted haux hhold ?_
  simp only [himage, Bool.not_true, Bool.false_eq_true, if_false]
  exact ⟨rfl, flagF_setF_zero _ 0 (by decide),
    (getF_setF_off _ f_RST_STATE_FAILED f_RST_STATE_PHASE 0 0 0 rfl (by decide) (by decide)).trans
      (getF_phase_of_recoveryHold hhold)⟩

theorem recoveryDone_bad (haux : s.aon.aux = true) (hhold : recoveryHold s = true)
    (himage : Config.imageOk (recoveryImage s) = false) :
    Gives .recoveryDone s (fun s' => s'.flash = s.flash ∧ s'.regs = s.regs) := by
  show ∃ s', execRecoveryDone s = .next s' ∧ _
  refine onI3c_accepted haux hhold ?_
  simp only [himage, Bool.not_false, if_true]
  exact ⟨rfl, rfl⟩

end

/-! ## The statement -/

/-- Settles O51: each access is one equation of its command, and the fields of every register in the tables lie apart, so that
what a write leaves in each is its access code's. -/
theorem registersAndPins : Obligations.RegistersAndPins := by
  refine ⟨fun req win off size v s => ⟨fun h => ?_, fun h hf => ?_, fun r k sub h hf => ⟨?_, ?_, ?_, ?_, ?_, ?_⟩⟩,
    fun req write v s h => ?_, fun s => ?_, fun data offset s => ?_, fun i n s => ?_⟩
  · exact ⟨⟨_, registerWrite_closed h, rfl, rfl⟩, ⟨_, registerSplitRead_closed h, rfl, rfl⟩⟩
  · exact ⟨⟨_, registerWrite_reserved h hf, rfl⟩, ⟨_, registerSplitRead_reserved h hf, rfl⟩⟩
  · rintro rfl rfl hp hw
    exact registerWrite_sets_fields h hf hp hw
  · exact registerWrite_part h hf
  · rintro rfl rfl hp
    exact ⟨_, registerSplitRead_whole h hf hp, rfl, rfl⟩
  · rintro rfl rfl h64 hp
    exact registerSplitRead_latches h hf h64 hp
  · rintro u rfl rfl h64 hu
    exact ⟨_, registerSplitRead_upper h hf h64 hu, rfl, latchOf_dropLatch ..⟩
  · exact fun hb hd => ⟨registerSplitRead_wakes h hf hb hd, registerWrite_wakes h hf hb hd⟩
  · refine ⟨fun hno => ?_, fun r k hinst hblock hf => ?_⟩
    · exact mbxProxyAccess_refused h (by rw [proxyRefuses_eq]; rcases hno with e | e <;> simp [proxyInst, proxyOff, e]) write
    · have hr : proxyRefuses s = false := by rw [proxyRefuses_eq]; simp [proxyInst, proxyOff, hinst, hblock]
      exact ⟨mbxProxyAccess_reads h hr hf, fun hp hw => mbxProxyAccess_sets_fields h hr hf hp hw⟩
  · refine ⟨fun k x hx => ⟨fun ho => ?_, fun ho => ?_⟩, fun p k m hm ho => ?_, fun id m hm ho => ?_, fun op m hm ho => ?_,
      fun id r hm hst hown ho => ?_⟩
    · exact messageAgeDiscard_old (heldMsg_arrived hx) ho rfl rfl
    · exact messageAgeDiscard_young (heldMsg_arrived hx) ho
    · exact messageAgeDiscard_old (heldMsg_atPort hm) ho rfl (waiting_eraseWaiting s p k)
    · exact messageAgeDiscard_old (heldMsg_silk hm) ho rfl ((mfind_mdel ..).trans (if_pos rfl))
    · exact messageAgeDiscard_old (heldMsg_release hm) ho rfl ((mfind_mdel ..).trans (if_pos rfl))
    · exact messageAgeDiscard_old (heldMsg_request hm hst hown) ho rfl
        (congrArg (Option.map MemReq.stage) ((mfind_mput ..).trans (if_pos rfl)))
  · refine ⟨status_answers, fun haux c hc => i3c_refused_of_no_aux haux hc, descRead_answers, fun haux he2 hheld hlen => ⟨?_, ?_⟩,
      fun haux hhold => ⟨?_, ?_, ?_, ?_⟩⟩
    · exact descWrite_accepted haux he2 hheld hlen
    · exact descWrite_refused hlen
    · exact recovery_accepted haux hhold
    · exact recovery_refused
    · exact recoveryDone_good haux hhold
    · exact recoveryDone_bad haux hhold
  · exact ⟨⟨_, rfl, rfl⟩, ⟨_, rfl, rfl⟩, ⟨_, rfl, rfl⟩, rfl⟩

end Sys2Proof.Machine
end

section
/-! What an instruction that issues leads to (R75, R82), and the S instructions (R81, R84). -/

namespace Sys2Proof.Machine

/-! ## Groups after an instruction -/

/-- Nothing of a group but its registers differs, and its flags gain `f`. -/
structure RegsOnly (g g' : Group) (f : Flags) : Prop where
  flags : g'.flags = g.flags ||| f
  kept : g'.lin = g.lin ∧ g'.exited = g.exited ∧ g'.pend = g.pend
  seq : g'.active = g.active ∧ g'.stack = g.stack ∧ g'.rpc = g.rpc ∧ g'.ended = g.ended

theorem RegsOnly.refl (g : Group) : RegsOnly g g 0 := ⟨by simp, ⟨rfl, rfl, rfl⟩, ⟨rfl, rfl, rfl, rfl⟩⟩

theorem wr_regsOnly (g : Group) (d : Nat) (m : Word) (v : Nat → Word) : RegsOnly g (wr g d m v) 0 := by
  rw [wr_kept]
  exact ⟨by simp, ⟨rfl, rfl, rfl⟩, ⟨rfl, rfl, rfl, rfl⟩⟩

theorem wrP_regsOnly (g : Group) (n : Nat) (m b : Word) : RegsOnly g (wrP g n m b) 0 := by
  unfold wrP
  split
  · exact RegsOnly.refl g
  · exact ⟨by simp, ⟨rfl, rfl, rfl⟩, ⟨rfl, rfl, rfl, rfl⟩⟩

theorem wrA_regsOnly (g : Group) (n : Nat) (v : DWord) : RegsOnly g (wrA g n v) 0 :=
  ⟨by simp [wrA], ⟨rfl, rfl, rfl⟩, ⟨rfl, rfl, rfl, rfl⟩⟩

theorem raiseFlags_regsOnly {g g' : Group} (h : RegsOnly g g' 0) (f : Flags) : RegsOnly g (raiseFlags g' f) f :=
  ⟨by simp [raiseFlags, h.flags], h.kept, h.seq⟩

theorem RegsOnly.advanced {g g' : Group} {f : Flags} (h : RegsOnly g g' f) (pc : DWord) :
    Advanced g (settle { g' with pc := pc }) f pc :=
  advanced_settle pc h.flags h.kept h.seq

theorem wrA_wroteA (g : Group) (n : Nat) (v : DWord) : WroteA g (wrA g n v) n v :=
  ⟨fun k => by simp [aReg, wrA, eq_comm], rfl, rfl, rfl⟩

theorem WroteA.settle {g g' : Group} {n : Nat} {v : DWord} (h : WroteA g g' n v) (pc : DWord) :
    WroteA g (Machine.settle { g' with pc := pc }) n v := by
  obtain ⟨hs, hu, hp, ha, -⟩ := settle_kept { g' with pc := pc }
  exact ⟨fun k => by rw [aReg, ha]; exact h.areg k, hs.trans h.rest.1, hu.trans h.rest.2.1, hp.trans h.rest.2.2⟩

theorem Wrote.congr {g g' : Group} {d : Nat} {m : Word} {v w : Nat → Word} (h : Wrote g g' d m v) (e : v = w) :
    Wrote g g' d m w := e ▸ h

/-- What raising flags leaves of a write. -/
theorem Wrote.raiseFlags {g g' : Group} {d : Nat} {m : Word} {v : Nat → Word} (h : Wrote g g' d m v) (f : Flags) :
    Wrote g (raiseFlags g' f) d m v := ⟨h.sreg, h.ureg, h.areg, h.preg⟩

/-! ## Commands that issue -/

section
variable {s : State} {t : Th} {uses : List Nat} {g g' : Group} {c : Instr}

/-- A command that ends by storing its group. -/
theorem runs_of_retire {P : State → Group → Prop} (h : Issues s t uses g)
    (he : exec c s = .next (retire s t.core t.grp g')) (hP : P (retire s t.core t.grp g') (settle g')) : Runs c s t P := by
  obtain ⟨b, hb, -⟩ := readyGroup_some h.ready
  exact ⟨_, settle g', he, (groupOf_retire hb g' t.grp).trans (if_pos rfl), retire_only hb g', hP⟩

theorem issueLocal_eq_retire (h : Issues s t uses g) (f : Group → Group) :
    issueLocal s t true uses f = retire s t.core t.grp { f g with pc := nextPc g } := issue_acts h _

theorem runs_of_issueLocal {P : Group → Prop} {f : Group → Group} (h : Issues s t uses g)
    (he : exec c s = .next (issueLocal s t true uses f)) (hP : P (settle { f g with pc := nextPc g })) :
    Runs c s t (fun _ g' => P g') :=
  runs_of_retire h (by rw [he, issueLocal_eq_retire h]) hP

theorem yields_of_issueLocal {f : Group → Group} {d : Nat} {m : Word} {v : Nat → Word} {fl : Flags} (h : Issues s t uses g)
    (he : exec c s = .next (issueLocal s t true uses f)) (hw : Wrote g (f g) d m v) (hr : RegsOnly g (f g) fl) :
    Yields c s t g d m v fl :=
  runs_of_issueLocal h he ⟨hw.settle _, hr.advanced _⟩

/-- A command that writes one register from a value per lane. -/
theorem yields_of_wr {f : Group → Nat → Word} {d : Nat} {m : Word} {v : Nat → Word} {legal : Bool} {mask : Group → Word}
    (h : Issues s t uses g)
    (he : exec c s = .next (issueLocal s t legal uses (fun g => wr g d (mask g) (f g)))) (hl : legal = true)
    (hm : mask g = m) (hv : f g = v) : Yields c s t g d m v 0 := by
  subst hl hm hv
  exact yields_of_issueLocal h he (wr_wrote ..) (wr_regsOnly ..)

end

/-! ## Integer arithmetic (R84) -/

theorem mulhi_eq (a b : Word) : BitVec.ofInt 32 (a.toInt * b.toInt / 4294967296) =
    BitVec.extractLsb' 32 32 (BitVec.signExtend 64 a * BitVec.signExtend 64 b) := by
  have hm : (BitVec.signExtend 64 a * BitVec.signExtend 64 b) = BitVec.ofInt 64 (a.toInt * b.toInt) := by
    apply BitVec.eq_of_toInt_eq
    rw [BitVec.toInt_mul, BitVec.toInt_signExtend_of_le (by decide), BitVec.toInt_signExtend_of_le (by decide), BitVec.toInt_ofInt]
  rw [hm]
  apply BitVec.eq_of_toNat_eq
  rw [BitVec.extractLsb'_toNat, BitVec.toNat_ofInt, BitVec.toNat_ofInt, Nat.shiftRight_eq_div_pow]
  generalize a.toInt * b.toInt = x
  norm_num
  omega

theorem mulhiu_eq (a b : Word) : BitVec.ofNat 32 (a.toNat * b.toNat / 4294967296) =
    BitVec.extractLsb' 32 32 (BitVec.setWidth 64 a * BitVec.setWidth 64 b) := by
  apply BitVec.eq_of_toNat_eq
  have ha := a.isLt
  have hb := b.isLt
  have h : a.toNat * b.toNat < 2 ^ 64 := by nlinarith
  rw [BitVec.extractLsb'_toNat, BitVec.toNat_mul, BitVec.toNat_setWidth, BitVec.toNat_setWidth, BitVec.toNat_ofNat,
    Nat.mod_eq_of_lt (a := a.toNat) (by omega), Nat.mod_eq_of_lt (a := b.toNat) (by omega), Nat.mod_eq_of_lt h, Nat.shiftRight_eq_div_pow]

/-- The powers of two below 2^n that do not exceed a number are as many as its bits. -/
theorem length_filter_two_pow_le (v n : Nat) (h : v < 2 ^ n) :
    ((List.range n).filter (fun i => 2 ^ i ≤ v)).length = bitLen v := by
  have hle : ∀ i, 2 ^ i ≤ v ↔ i < bitLen v := by
    intro i
    unfold bitLen
    split
    · next h0 => subst h0; simp
    · next h0 => rw [Nat.lt_succ_iff, Nat.le_log2 h0]
  have hlt : bitLen v ≤ n := by
    by_contra hc
    have := (hle n).2 (by omega)
    omega
  simp only [hle]
  obtain ⟨k, rfl⟩ : ∃ k, n = bitLen v + k := ⟨n - bitLen v, by omega⟩
  rw [List.range_add, List.filter_append, List.filter_eq_self.2, List.filter_eq_nil_iff.2]
  · simp
  · simp
  · simp
theorem popcount_eq (a : Word) (n : Nat) :
    popcount a n = BitVec.ofNat 32 ((List.range n).filter (fun i => a.getLsbD i)).length := by
  induction n with
  | zero => rfl
  | succ n ih =>
    rw [popcount, ih, List.range_succ, List.filter_append, List.length_append, BitVec.ofNat_add]
    cases h : a.getLsbD n <;> simp [h]

theorem brev_eq (a : Word) : maskOf (fun i => a.getLsbD (31 - i)) 32 = a.reverse := by
  refine BitVec.eq_of_getLsbD_eq fun i hi => ?_
  rw [maskOf_bit _ _ _ (le_refl _) hi]
  rw [BitVec.getLsbD_reverse, BitVec.getMsbD]

theorem toNat_and_31 (b : Word) : (b &&& 31).toNat = b.toNat % 32 := by
  rw [BitVec.toNat_and]
  exact Nat.and_two_pow_sub_one_eq_mod b.toNat 5

/-- Each integer instruction is `sAlu` of what the statement says it computes. -/
theorem exec_integerOp : ∀ op ∈ integerOps, ∀ (t : Th) (s : State), exec (op.1 t) s = .next (sAlu s t op.2) := by
  have alu : ∀ {f f' : Word → Word → Word} (t : Th) (s : State), (∀ a b, f a b = f' a b) →
      (Host.Outcome.next (sAlu s t f) : Out) = .next (sAlu s t f') := fun t s h => by rw [funext₂ h]
  simp only [integerOps, List.forall_mem_cons, List.not_mem_nil, false_implies, implies_true, and_true]
  refine ⟨fun _ _ => rfl, fun _ _ => rfl, fun _ _ => rfl, fun _ _ => rfl, fun t s => alu t s mulhi_eq, fun t s => alu t s mulhiu_eq,
    fun _ _ => rfl, fun _ _ => rfl, fun _ _ => rfl, fun _ _ => rfl, fun t s => alu t s fun a b => ?_, fun t s => alu t s fun a b => ?_,
    fun t s => alu t s fun a b => ?_, fun t s => alu t s fun a b => ?_, fun t s => alu t s fun a b => ?_,
    fun t s => alu t s fun a b => ?_, fun t s => alu t s fun a b => ?_, fun t s => alu t s fun a _ => ?_,
    fun t s => alu t s fun a _ => popcount_eq a 32, fun t s => alu t s fun a _ => brev_eq a⟩
  · rw [← toNat_and_31]; rfl
  · rw [← toNat_and_31]; rfl
  · rw [← toNat_and_31]; rfl
  · simp only [BitVec.sle, decide_eq_true_eq]
  · simp only [BitVec.sle, decide_eq_true_eq]
  · simp only [BitVec.ule, decide_eq_true_eq]
  · simp only [BitVec.ule, decide_eq_true_eq]
  · rw [length_filter_two_pow_le _ _ a.isLt]

/-! ## Predicates (R84) -/

theorem rkind_p {n : Nat} (hn : n < 8) : rkind (0x70 + n) = .p := by
  unfold rkind
  rw [if_neg (by omega), if_neg (by omega), if_neg (by omega), if_pos (by omega)]

theorem rkind_a {n : Nat} (hn : n < 16) : rkind (0x60 + n) = .a := by
  unfold rkind
  rw [if_neg (by omega), if_neg (by omega), if_pos (by omega)]

theorem getLsbD_andn (a b : Word) (l : Nat) : (a &&& ~~~ b).getLsbD l = (a.getLsbD l && !b.getLsbD l) := by
  rw [BitVec.getLsbD_and, BitVec.getLsbD_not]
  by_cases hl : l < 32
  · simp [hl]
  · simp [BitVec.getLsbD_of_ge a l (by omega)]

section
variable {s : State} {t : Th} {g : Group} {n : Nat}

/-- SETP writes its comparison. -/
theorem setp_yields (cond : BitVec 3) (hc : cond.toNat < 6) (h : Issues s t (sUses t) g) (hw : sWell t = true) (hn : n < 8)
    (hd : fD t = 0x70 + n) {v : Nat → Word} (hv : ∀ l, (if setpCond cond.toNat (rd g l (fA t)) (opB g t l) then 1 else 0) = v l) :
    Yields (.setp cond t) s t g (fD t) (execMask g t) v 0 :=
  yields_of_wr h rfl (by simp [hw, hd, rkind_p hn, hc]) rfl (funext hv)

/-- A combination of two p registers is written to the p register D. -/
theorem predicateLogic_yields (op : BitVec 2) (h : Issues s t (sUses t) g) (hw : sWell t = true) (hn : n < 8)
    (hd : fD t = 0x70 + n) {a b : Nat} (ha : a < 8) (hb : b < 8) (hA : fA t = 0x70 + a) (hI : fI t = false) (hB : fB t = 0x70 + b)
    {v : Nat → Word} (hv : ∀ l, (if (plogic op (pMask g a) (pMask g b)).getLsbD l then 1 else 0) = v l) :
    Yields (.predicateLogic op t) s t g (fD t) (execMask g t) v 0 := by
  have hlegal : (sWell t && rkind (fD t) = .p && rkind (fA t) = .p && !fI t && rkind (fB t) = .p : Bool) = true := by
    simp [hw, hd, hA, hI, hB, rkind_p, hn, ha, hb]
  have he : exec (.predicateLogic op t) s = .next (issueLocal s t true (sUses t) fun g =>
      wrP g n (execMask g t) (plogic op (pMask g a) (pMask g b))) := by
    rw [← hlegal]
    simp only [exec, execPredicateLogic, hd, hA, hB, Nat.add_sub_cancel_left]
  rw [hd]
  exact yields_of_issueLocal h he ((wrP_wrote g n hn _ _).congr (funext hv)) (wrP_regsOnly ..)

end

/-- Settles O1: each instruction is a write of one register by `wr` or `wrP`, and goes on. -/
theorem integerCrossLaneAndPredicates : Obligations.IntegerCrossLaneAndPredicates := by
  refine ⟨fun op hop t s g h hl => ?_, fun t s g h hl => ⟨?_, ?_, fun n hn hA => ?_⟩,
    fun t s g n h hw hn hd => ⟨?_, ?_, ?_, ?_, ?_, ?_, fun a b ha hb hA hI hB => ⟨?_, ?_, ?_, ?_⟩⟩⟩
  · exact yields_of_wr h (exec_integerOp op hop t s) hl rfl rfl
  · exact yields_of_wr h rfl hl rfl rfl
  · exact yields_of_wr h rfl hl rfl rfl
  · exact yields_of_wr h rfl (by simp [hl, hA, rkind_p hn]) rfl (by simp [hA])
  · exact setp_yields 0 (by decide) h hw hn hd fun l => by simp [setpCond]
  · exact setp_yields 1 (by decide) h hw hn hd fun l => by simp [setpCond]
  · exact setp_yields 2 (by decide) h hw hn hd fun l => by simp [setpCond, BitVec.slt]
  · exact setp_yields 3 (by decide) h hw hn hd fun l => by simp [setpCond, BitVec.sle]
  · exact setp_yields 4 (by decide) h hw hn hd fun l => by simp [setpCond, BitVec.ult]
  · exact setp_yields 5 (by decide) h hw hn hd fun l => by simp [setpCond, BitVec.ule]
  · exact predicateLogic_yields 0 h hw hn hd ha hb hA hI hB fun l => by simp [plogic]
  · exact predicateLogic_yields 1 h hw hn hd ha hb hA hI hB fun l => by simp [plogic]
  · exact predicateLogic_yields 2 h hw hn hd ha hb hA hI hB fun l => by simp [plogic]
  · exact predicateLogic_yields 3 h hw hn hd ha hb hA hI hB fun l => by rw [← getLsbD_andn]; rfl

end Sys2Proof.Machine
end

section
/-! The V instructions on lanes (R85, R86). -/

namespace Sys2Proof.Machine

section
variable {s : State} {t : Th} {uses : List Nat} {g : Group} {c : Instr} {legal : Bool}

/-- A floating-point instruction writes D and raises the flags of the lanes in which it executes. -/
theorem yields_of_vResult {f : Group → Nat → Word × Flags} {r : Nat → Word × Flags} (h : Issues s t uses g)
    (he : exec c s = .next (issueLocal s t legal uses (fun g => vResult g t (f g)))) (hl : legal = true) (hr : f g = r) :
    Yields c s t g (vD t) (execMask g t) (fun l => (r l).1) (laneFlags (execMask g t) (fun l => (r l).2) 32) := by
  subst hl hr
  exact yields_of_issueLocal h he ((wr_wrote ..).raiseFlags _) (raiseFlags_regsOnly (wr_regsOnly ..) _)

end

/-- A lane of a floating-point instruction of `n` sources: its exact result, rounded once. -/
def floatLane (flush : Bool) (n : Nat) (f : FVal → FVal → FVal → FVal) (t : Th) (g : Group) (l : Nat) : Word × Flags :=
  let a := f32 (rd g l (vA t))
  let b := f32 (rd g l (vBreg t))
  let c := f32 (rd g l (vC t))
  toF32 flush (a.isNan || (decide (2 ≤ n) && b.isNan) || (decide (3 ≤ n) && c.isNan)) (f a b c)

theorem vAlu_eq_floatLane {nan : Group → Nat → Bool} (n : Nat) (f : FVal → FVal → FVal → FVal) (t : Th) (s : State)
    (h : ∀ g l, nan g l = ((vValA g t l).isNan || (decide (2 ≤ n) && (vValB g t l).isNan)
      || (decide (3 ≤ n) && (vValC g t l).isNan))) :
    vAlu s t n (fun g l => f (vValA g t l) (vValB g t l) (vValC g t l)) nan =
      issueLocal s t (vWell t) (vUses t n) (fun g => vResult g t (floatLane (flushOf s t.core) n f t g)) := by
  rw [show nan = _ from funext₂ h]
  rfl

theorem nanAB_eq (t : Th) (g : Group) (l : Nat) : nanAB t g l = ((vValA g t l).isNan
    || (decide (2 ≤ 2) && (vValB g t l).isNan) || (decide (3 ≤ 2) && (vValC g t l).isNan)) := by
  simp [nanAB]

theorem nanA_eq (t : Th) (g : Group) (l : Nat) : (vValA g t l).isNan = ((vValA g t l).isNan
    || (decide (2 ≤ 1) && (vValB g t l).isNan) || (decide (3 ≤ 1) && (vValC g t l).isNan)) := by
  simp

theorem nanABC_eq (t : Th) (g : Group) (l : Nat) : (nanAB t g l || (vValC g t l).isNan) = ((vValA g t l).isNan
    || (decide (2 ≤ 3) && (vValB g t l).isNan) || (decide (3 ≤ 3) && (vValC g t l).isNan)) := by
  simp [nanAB]

/-- Each instruction with one rounding computes `floatLane` of its exact result. -/
theorem exec_floatOp : ∀ op ∈ floatOps, ∀ (t : Th) (s : State), exec (op.1 t) s =
    .next (issueLocal s t (vWell t) (vUses t op.2.1) (fun g => vResult g t (floatLane (flushOf s t.core) op.2.1 op.2.2 t g))) := by
  simp only [floatOps, List.forall_mem_cons, List.not_mem_nil, false_implies, implies_true, and_true]
  refine ⟨fun t s => ?_, fun t s => ?_, fun t s => ?_, fun t s => ?_, fun t s => ?_, fun t s => ?_, fun t s => ?_, fun t s => ?_,
    fun t s => ?_⟩
  · exact congrArg Host.Outcome.next (vAlu_eq_floatLane 2 (fun a b _ => faddX a b) t s (nanAB_eq t))
  · exact congrArg Host.Outcome.next (vAlu_eq_floatLane 2 (fun a b _ => faddX a b.negate) t s (nanAB_eq t))
  · exact congrArg Host.Outcome.next (vAlu_eq_floatLane 2 (fun a b _ => fmulX a b) t s (nanAB_eq t))
  · exact congrArg Host.Outcome.next (vAlu_eq_floatLane 3 (fun a b c => faddX (fmulX a b) c) t s (nanABC_eq t))
  · exact congrArg Host.Outcome.next (vAlu_eq_floatLane 2 (fun a b _ => fminX a b) t s (nanAB_eq t))
  · exact congrArg Host.Outcome.next (vAlu_eq_floatLane 2 (fun a b _ => fmaxX a b) t s (nanAB_eq t))
  · exact congrArg Host.Outcome.next (vAlu_eq_floatLane 1 (fun a _ _ => a.abs) t s (nanA_eq t))
  · exact congrArg Host.Outcome.next (vAlu_eq_floatLane 1 (fun a _ _ => a.negate) t s (nanA_eq t))
  · exact congrArg Host.Outcome.next (vAlu_eq_floatLane 1 (fun a _ _ => fsqrtX a) t s (nanA_eq t))

/-- Settles O3: each instruction writes `floatLane` of its exact result by `vResult`. -/
theorem floatResults : Obligations.FloatResults := by
  intro op hop t s g h hw
  exact yields_of_vResult h (exec_floatOp op hop t s) hw rfl

/-- Each approximation is `vApprox` of its opcode. -/
theorem exec_approxOp : ∀ op ∈ approxOps, ∀ (t : Th) (s : State), exec (op.1 t) s = .next (vApprox s t op.2) := by
  simp only [approxOps, List.forall_mem_cons, List.not_mem_nil, false_implies, implies_true, and_true]
  exact ⟨fun _ _ => rfl, fun _ _ => rfl, fun _ _ => rfl, fun _ _ => rfl, fun _ _ => rfl, fun _ _ => rfl⟩

/-- Settles O4: FSETP writes a p register by `wr`, the approximations and CVT a result by `vResult`. -/
theorem floatCompareApproximateConvert : Obligations.FloatCompareApproximateConvert := by
  refine ⟨fun cond t s g hc hw hd h => ?_, fun op hop t s g h hw => ?_, fun t s g h hw hs hd hse hde => ?_⟩
  · exact yields_of_wr h rfl (by simp [hw, hd, hc]) rfl rfl
  · exact yields_of_vResult h (exec_approxOp op hop t s) hw rfl
  · exact yields_of_vResult h rfl (by simp [hw, hs, hd, hse, hde]) rfl

end Sys2Proof.Machine
end

section
/-! The branches (R82, R84, R94). -/

namespace Sys2Proof.Machine

/-- A group whose last lanes have left and whose stack is empty ends (R68, R82). -/
theorem settle_ended {g : Group} (ha : g.active = 0) (hs : g.stack = []) : (settle g).ended = true := by
  simp [settle, hs, settleFrom, ha]

/-- Going on elsewhere changes no register and no flag. -/
theorem advanced_at (g : Group) (pc : DWord) : Advanced g (settle { g with pc := pc }) 0 pc := (RegsOnly.refl g).advanced pc

section
variable {s : State} {t : Th} {uses : List Nat} {g g' : Group} {c : Instr} {legal : Bool} {act : Group → State}

/-- A legal instruction that issues acts on its group. -/
theorem exec_of_issue {act : Group → State} (h : Issues s t uses g) (he : exec c s = .next (issue s t legal uses act))
    (hl : legal = true) : exec c s = .next (act g) := by
  subst hl
  rw [he, issue_acts h]

/-- An instruction that stores its group and nothing else. -/
theorem runs_of_issue {P : Group → Prop} {act : Group → State} (h : Issues s t uses g)
    (he : exec c s = .next (issue s t legal uses act)) (hl : legal = true) (ha : act g = retire s t.core t.grp g')
    (hP : P (settle g')) : Runs c s t (fun _ g' => P g') :=
  runs_of_retire h ((exec_of_issue h he hl).trans (by rw [ha])) hP

end

section
variable {s : State} {t : Th} {g : Group}

theorem cexit_runs (h : Issues s t [usesPred t] g) (hw : cWell t false false 0 0 = true) :
    Runs (.cexit t) s t (fun _ g' => g'.exited = g.exited ||| execMask g t ∧ g'.flags = g.flags
      ∧ (g.active &&& ~~~ execMask g t ≠ 0 → nextPc g ≠ g.rpc → g'.active = g.active &&& ~~~ execMask g t ∧ g'.pc = nextPc g)
      ∧ (g.active &&& ~~~ execMask g t = 0 → g.stack = [] → g'.ended = true)) := by
  refine runs_of_issue h rfl hw rfl ?_
  obtain ⟨-, -, -, -, hflags, -, hexited, -⟩ := settle_kept
    { g with active := g.active &&& ~~~ execMask g t, exited := g.exited ||| execMask g t, pc := nextPc g }
  refine ⟨hexited, hflags, fun hact hpc => ?_, fun hact hstack => settle_ended hact hstack⟩
  rw [settle_id _ hpc hact]
  exact ⟨rfl, rfl⟩

theorem ccall_runs {n : Nat} (h : Issues s t [usesPred t, fD t] g) (hw : cWell t true false 0 0xFFFFFFFF = true) (hn : n < 16)
    (hd : fD t = 0x60 + n) (hm : execMask g t ≠ 0) :
    Runs (.ccall t) s t (fun _ g' => WroteA g g' n (nextPc g) ∧ Advanced g g' 0 (cTarget g (cImm t) 32)) := by
  refine runs_of_issue h rfl (by simp [hw, hd, rkind_a hn])
    (g' := { wrA g n (nextPc g) with pc := cTarget g (cImm t) 32 }) (by rw [if_neg hm, hd, Nat.add_sub_cancel_left]) ?_
  exact ⟨(wrA_wroteA ..).settle _, (wrA_regsOnly ..).advanced _⟩

theorem cjmpr_runs {n : Nat} (h : Issues s t [usesPred t, fA t] g) (hw : cWell t false true 0 0 = true) (hn : n < 16)
    (hA : fA t = 0x60 + n) (hm : execMask g t ≠ 0) (h8 : (aReg g n).toNat % 8 = 0) :
    Runs (.cjmpr t) s t (fun _ g' => Advanced g g' 0 (aReg g n)) := by
  refine runs_of_issue h rfl (by simp [hw, hA, rkind_a hn]) (g' := { g with pc := aReg g n }) ?_ (advanced_at ..)
  simp only [hA, Nat.add_sub_cancel_left]
  rw [if_neg hm, if_neg (not_not.2 h8)]

/-- CBR, by what the procedure of R82 makes of its group. -/
theorem cbr_runs {P : Group → Prop} {g' : Group} (h : Issues s t [usesPred t] g) (hw : cWell t false false 0 0xFFFFFFFF = true)
    (hg : cbr g (cTarget g (fld t 16 16) 16) (cTarget g (fld t 0 16) 16) (execMask g t) = some g') (hP : P (settle g')) :
    Runs (.cbr t) s t (fun _ g' => P g') :=
  runs_of_issue h rfl hw (by rw [hg]) hP

end

/-- Settles O6: each is a group stored with another PC, active mask or stack. -/
theorem branches : Obligations.Branches := by
  refine fun t s g => ⟨fun h hl => ?_, fun h hw => ⟨?_, cexit_runs h hw⟩, fun h hw hp hn => ?_,
    fun n h hw hn hd hm => ccall_runs h hw hn hd hm, fun n h hw hn hA hm h8 => cjmpr_runs h hw hn hA hm h8, fun h hw => ?_⟩
  · exact runs_of_issue h rfl hl rfl (advanced_at ..)
  · exact runs_of_issue h rfl hw rfl (advanced_at ..)
  · exact runs_of_issue h rfl (by simp [hw, hp, hn]) rfl (advanced_at ..)
  · refine ⟨fun hall => ?_, fun hfall hnone => ?_, fun hfall htaken hroom htarget => ?_⟩
    · exact cbr_runs h hw (if_pos hall) (advanced_at ..)
    · exact cbr_runs h hw (by rw [cbr, if_neg hfall, if_pos hnone]) (advanced_at ..)
    · refine cbr_runs h hw (by rw [cbr, if_neg hfall, if_neg htaken, if_neg (by omega)]) ?_
      rw [settle_id _ htarget htaken]
      exact ⟨rfl, rfl, rfl, rfl⟩

end Sys2Proof.Machine
end

section
/-! What replacing a group leaves, and the stop of a kernel at a fault (R100 to R103). -/

namespace Sys2Proof.Machine

/-! ## Lists of entries by key -/

theorem mem_of_mfind {α : Type} {m : SMap α} {x : Nat} {v : α} (h : mfind m x = some v) : (x, v) ∈ m := by
  induction m with
  | nil => exact absurd h (by simp [mfind])
  | cons e m ih =>
    obtain ⟨k, w⟩ := e
    unfold mfind at h
    split at h
    · next hk =>
      obtain rfl := Option.some.inj h
      exact hk ▸ List.mem_cons_self
    · exact List.mem_cons_of_mem _ (ih h)

theorem mfind_map_val {α β : Type} (f : α → β) (m : SMap α) (x : Nat) :
    mfind (m.map (fun kv => (kv.1, f kv.2))) x = (mfind m x).map f := by
  induction m with
  | nil => rfl
  | cons e m ih =>
    simp only [List.map_cons, mfind]
    split
    · rfl
    · exact ih

theorem mget_map_val {α : Type} {d : α} {f : α → α} (hd : f d = d) (m : SMap α) (x : Nat) :
    mget d (m.map (fun kv => (kv.1, f kv.2))) x = f (mget d m x) := by
  unfold mget
  rw [mfind_map_val]
  cases mfind m x with
  | none => exact hd.symm
  | some v => rfl

/-! ## Groups and batches -/

section
variable {s : State} {c g : Nat} {b : Batch}

theorem setGroup_eq (h : batchOf s c = some b) (v : Group) :
    setGroup s c g v = setBatch s c (some { b with groups := mput b.groups g v }) := by
  simp only [setGroup, h]

theorem groupOf_setBatch_some (s : State) (c x : Nat) (b : Batch) (g : Nat) :
    groupOf (setBatch s c (some b)) x g = if c = x then mfind b.groups g else groupOf s x g := by
  unfold groupOf
  rw [batchOf_setBatch]
  split <;> rfl

theorem groupOf_setGroup {gr : Group} (h : groupOf s c g = some gr) (v : Group) (x : Nat) :
    groupOf (setGroup s c g v) c x = if g = x then some v else groupOf s c x := by
  unfold groupOf at h
  obtain ⟨b, hb, hg⟩ := Option.bind_eq_some_iff.1 h
  rw [setGroup_eq hb, groupOf_setBatch_some, if_pos rfl, mfind_mput, groupOf_eq hb]

theorem core_setBatch_batch (s : State) (c : Nat) (b : Option Batch) :
    core (setBatch s c b) c = { core s c with batch := (core (setBatch s c b) c).batch } := by
  simp

theorem setBatch_state (s : State) (c : Nat) (b : Option Batch) :
    setBatch s c b = { s with cores := (setBatch s c b).cores } := rfl

/-- Replacing a group changes nothing else. -/
theorem setGroup_only {gr : Group} (h : groupOf s c g = some gr) (v : Group) : OnlyGroup s (setGroup s c g v) c g := by
  obtain ⟨b, hb, -⟩ := Option.bind_eq_some_iff.1 (show (batchOf s c).bind _ = some gr from h)
  refine ⟨?_, fun x hx => ?_, ?_, fun x hx => ?_, fun k => ?_⟩
  · rw [setGroup_eq hb]; rfl
  · rw [setGroup_eq hb, core_setBatch, if_neg (Ne.symm hx)]
  · rw [setGroup_eq hb]; exact core_setBatch_batch ..
  · rw [groupOf_setGroup h, if_neg (Ne.symm hx)]
  · rw [setGroup_eq hb]; rfl

end

/-! ## The first fault of a kernel (R101, R102) -/

/-- A batch after a fault of a kernel stops its batches (R101, R546). -/
def Batch.faultStop (b : Batch) (kid : Nat) (now : DWord) : Batch :=
  if b.kernel = kid && b.why = .running then { b with why := .fault, stopAt := now }
  else if b.kernel = kid && b.why = .preempt then { b with why := .fault, deferred := [] }
  else b

theorem core_stopBatches (s : State) (kid c : Nat) :
    core (stopBatches s kid) c = { core s c with batch := (batchOf s c).map (fun b => b.faultStop kid s.now) } := by
  have e : stopBatches s kid = { s with cores := s.cores.map (fun kv =>
      (kv.1, { kv.2 with batch := kv.2.batch.map (fun b => b.faultStop kid s.now) })) } := by
    unfold stopBatches
    congr 1
    refine List.map_congr_left fun kv _ => ?_
    obtain ⟨x, k⟩ := kv
    cases k with
    | mk batch =>
      cases batch with
      | none => rfl
      | some b =>
        simp only [Option.map_some, Batch.faultStop]
        split
        · rfl
        · split <;> rfl
  rw [e]
  exact mget_map_val (f := fun k : Core => { k with batch := k.batch.map (fun b => b.faultStop kid s.now) }) rfl s.cores c

theorem batchOf_stopBatches (s : State) (kid c : Nat) :
    batchOf (stopBatches s kid) c = (batchOf s c).map (fun b => b.faultStop kid s.now) :=
  congrArg Core.batch (core_stopBatches s kid c)

theorem kernel_stopBatches (s : State) (kid k : Nat) : kernel (stopBatches s kid) k = kernel s k := rfl

theorem kernel_modKernel (s : State) (k x : Nat) (f : Kernel → Kernel) :
    kernel (modKernel s k f) x = if k = x then f (kernel s k) else kernel s x := mget_mput ..

theorem noteFault_first {s : State} {kid : Nat} (h : (kernel s kid).fault = none) (fi : FaultInfo) :
    noteFault s kid fi = stopBatches (modKernel s kid (fun k => { k with
      fault := some fi, stopAt := some s.now, others := satAdd 16 k.others (deferredFaults s kid) })) kid := by
  simp only [noteFault, h]

/-- The first fault of a kernel is recorded, and stops its batches. -/
theorem noteFault_first_spec {s : State} {kid : Nat} (h : (kernel s kid).fault = none) (fi : FaultInfo) :
    (kernel (noteFault s kid fi) kid).fault = some fi ∧ (kernel (noteFault s kid fi) kid).stopAt = some s.now
    ∧ (∀ c, core (noteFault s kid fi) c = { core s c with batch := (batchOf s c).map (fun b => b.faultStop kid s.now) })
    ∧ noteFault s kid fi = { s with cores := (noteFault s kid fi).cores, kernels := (noteFault s kid fi).kernels } := by
  rw [noteFault_first h]
  refine ⟨?_, ?_, fun c => core_stopBatches .., rfl⟩
  · rw [kernel_stopBatches, kernel_modKernel, if_pos rfl]
  · rw [kernel_stopBatches, kernel_modKernel, if_pos rfl]

section
variable {s : State} {c : Nat} {b : Batch}

theorem coreFault_running (hb : batchOf s c = some b) (hw : b.why = .running) (fi : FaultInfo) :
    coreFault s c fi = noteFault s b.kernel fi := by
  simp only [coreFault, hb, hw]

theorem Batch.faultStop_running (hw : b.why = .running) (now : DWord) :
    b.faultStop b.kernel now = { b with why := .fault, stopAt := now } := by
  simp [Batch.faultStop, hw]

/-- A first fault on a core whose batch runs: the kernel's record, its stop, and the batch. -/
theorem coreFault_first (hb : batchOf s c = some b) (hw : b.why = .running) (hk : (kernel s b.kernel).fault = none)
    (fi : FaultInfo) :
    (kernel (coreFault s c fi) b.kernel).fault = some fi ∧ (kernel (coreFault s c fi) b.kernel).stopAt = some s.now
    ∧ batchOf (coreFault s c fi) c = some { b with why := .fault, stopAt := s.now }
    ∧ coreFault s c fi = { s with cores := (coreFault s c fi).cores, kernels := (coreFault s c fi).kernels } := by
  rw [coreFault_running hb hw]
  obtain ⟨hf, hs, hc, he⟩ := noteFault_first_spec hk fi
  refine ⟨hf, hs, ?_, he⟩
  rw [batchOf, hc c, hb, Option.map_some, Batch.faultStop_running hw]

theorem groupFault_eq {g : Nat} {gr : Group} (hb : batchOf s c = some b) (hg : groupOf s c g = some gr) (code : Nat)
    (lanes : Word) (lane : Nat) (addr : DWord) :
    groupFault s c g code lanes lane addr = ⟨code, s.now, c, g, gr.lin, b.index, lane, lanes, gr.pc, addr, none⟩ := by
  simp only [groupFault, hb, hg, Option.map_some, Option.getD_some]

end

section
variable {s : State} {t : Th} {g : Group} {c : Instr} {code : Nat} {lanes : Word} {addr : DWord}

/-- A command that raises a fault of its group. -/
theorem faults_of_threadFault (hg : groupOf s t.core t.grp = some g)
    (he : exec c s = .next (threadFault s t.core t.grp code lanes addr)) : Faults c s t g code lanes addr := by
  intro b hb hw hk
  obtain ⟨hf, hs, hbatch, -⟩ := coreFault_first hb hw hk (groupFault s t.core t.grp code lanes (lowLane lanes) addr)
  exact ⟨_, he, hf.trans (by rw [groupFault_eq hb hg]), hs, (congrArg _ hbatch).trans rfl⟩

theorem Issues.groupOf {uses : List Nat} (h : Issues s t uses g) : groupOf s t.core t.grp = some g := by
  obtain ⟨b, hb, hg, -⟩ := readyGroup_some h.ready
  exact (groupOf_eq hb _).trans hg

end

end Sys2Proof.Machine
end

section
/-! Waits, special registers and CABORT (R94 to R99, R101). -/

namespace Sys2Proof.Machine

section
variable {s : State} {t : Th} {g : Group} {c : Instr} {legal : Bool}

/-- A uniform instruction that executes makes its group wait. -/
theorem cWaitFor_runs {w : Group → Wait} {x : Wait} (h : Issues s t [usesPred t] g) (hm : execMask g t ≠ 0)
    (he : exec c s = .next (cWaitFor s t legal w)) (hl : legal = true) (hx : w g = x) : Runs c s t (fun _ g' => g'.wait = x) := by
  subst hl hx
  refine runs_of_issueLocal h he ?_
  obtain ⟨-, -, -, -, -, -, -, -, hwait⟩ := settle_kept { { g with wait := w g } with pc := nextPc g }
  rw [if_neg hm]
  exact hwait

/-- A group that waits becomes ready. -/
theorem readies {c g : Nat} {gr : Group} {i : Instr} (hg : groupOf s c g = some gr)
    (he : exec i s = .next (setGroup s c g { gr with wait := .ready })) :
    ∃ s', exec i s = .next s' ∧ groupOf s' c g = some { gr with wait := .ready } ∧ OnlyGroup s s' c g :=
  ⟨_, he, (groupOf_setGroup hg _ g).trans (if_pos rfl), setGroup_only hg _⟩

end

/-- A group when barrier `n` is released. -/
def Group.pastBarrier (n : Nat) (g : Group) : Group := if g.wait = .barrier n then { g with wait := .ready } else g

theorem Group.pastBarrier_eq (n : Nat) (g : Group) : g.pastBarrier n = { g with wait := (g.pastBarrier n).wait } := by
  unfold Group.pastBarrier
  split <;> rfl

theorem mfind_releaseBarrier (b : Batch) (n g : Nat) :
    mfind (releaseBarrier b n).groups g = (mfind b.groups g).map (Group.pastBarrier n) := by
  have e : (releaseBarrier b n).groups = b.groups.map (fun kv => (kv.1, kv.2.pastBarrier n)) := by
    refine List.map_congr_left fun kv _ => ?_
    unfold Group.pastBarrier
    split <;> rfl
  rw [e, mfind_map_val]

/-- At a barrier that is met every group that has not ended waits there. -/
theorem wait_of_barrierMet {b : Batch} {n g : Nat} {gr : Group} (h : barrierMet b n = true) (hg : mfind b.groups g = some gr)
    (he : gr.ended = false) : gr.wait = .barrier n := by
  simp only [barrierMet, Bool.and_eq_true, List.all_eq_true, List.mem_filter, decide_eq_true_eq] at h
  exact h.2 (g, gr) ⟨mem_of_mfind hg, by simp [he]⟩

theorem barrierRelease_gives {s : State} {c n : Nat} {b : Batch} (hb : batchOf s c = some b) (hm : barrierMet b n = true) :
    ∃ s', exec (.barrierRelease c n) s = .next s' ∧ s' = { s with cores := s'.cores }
      ∧ (∀ x, x ≠ c → core s' x = core s x)
      ∧ ∀ g gr, groupOf s c g = some gr → ∃ gr', groupOf s' c g = some gr'
          ∧ gr' = { gr with wait := gr'.wait } ∧ (gr.ended = false → gr'.wait = .ready) := by
  have he : exec (.barrierRelease c n) s = .next (setBatch s c (some (releaseBarrier b n))) := by
    simp only [exec, execBarrierRelease, hb, hm, if_true]
  refine ⟨_, he, rfl, fun x hx => (core_setBatch ..).trans (if_neg (Ne.symm hx)), fun g gr hg => ?_⟩
  rw [groupOf_eq hb] at hg
  refine ⟨gr.pastBarrier n, ?_, gr.pastBarrier_eq n, fun hlive => ?_⟩
  · rw [groupOf_setBatch_some, if_pos rfl, mfind_releaseBarrier, hg]
    rfl
  · rw [Group.pastBarrier, if_pos (wait_of_barrierMet hm hg hlive)]

section
variable {s : State} {t : Th} {g : Group} {b : Batch}

/-- CSRD writes D from a special register, lane by lane, or the whole of an a register. -/
theorem csrd_exec (hb : batchOf s t.core = some b) (hw : cWell t true false 0 0xFF = true) (hp : rkind (fD t) ≠ .p)
    (hn : fld t 0 8 ≤ 0x12) : exec (.csrd t) s = .next (issueLocal s t true [usesPred t, fD t] (fun g =>
      let v (lane : Nat) : DWord := ((special s t.core b g lane (fld t 0 8)).map Prod.fst).getD 0
      if rkind (fD t) = .a then if execMask g t = 0 then g else wrA g (fD t - 0x60) (v (lowLane (execMask g t)))
      else wr g (fD t) (execMask g t) (fun lane => BitVec.setWidth 32 (v lane)))) := by
  simp only [exec, execCsrd, hb, hw, hp, hn, Bool.true_and, ne_eq, not_false_eq_true, decide_true]

theorem cswr_runs (h : Issues s t [usesPred t, fA t] g) (hw : cWell t false true 0 0xFF = true) (hf : fld t 0 8 = 0x0A)
    (hm : execMask g t ≠ 0) : Runs (.cswr t) s t (fun _ g' =>
      g'.flags = g.flags &&& ~~~ BitVec.setWidth 5 (rd g (lowLane (execMask g t)) (fA t))) := by
  refine runs_of_issue h rfl (by simp [hw, hf])
    (g' := { clearFlags g (rd g (lowLane (execMask g t)) (fA t)) with pc := nextPc g }) (by simp only [if_neg hm]) ?_
  obtain ⟨-, -, -, -, hflags, -⟩ := settle_kept
    { clearFlags g (rd g (lowLane (execMask g t)) (fA t)) with pc := nextPc g }
  exact hflags

theorem cabort_exec (h : Issues s t [usesPred t] g) (hw : cWell t false false 0 0xFFFF = true) (hm : execMask g t ≠ 0) :
    exec (.cabort t) s =
      .next (threadFault s t.core t.grp errKernelAbort (execMask g t) (BitVec.ofNat 64 (fld t 0 16))) :=
  (exec_of_issue h rfl hw).trans (by rw [if_neg hm])

end

/-- Settles O7: a wait is a field of the stored group, CSRD and CSWR write a register and the flags, and CABORT is a thread
fault. -/
theorem waitsAndSpecialRegisters : Obligations.WaitsAndSpecialRegisters := by
  refine ⟨⟨fun t s g h hm => ⟨?_, ?_, ?_⟩, fun c n s b hb hm => barrierRelease_gives hb hm, fun c g s gr hg => ⟨?_, ?_⟩⟩,
    fun t s g b hb h hw hp hn => ⟨fun ha => ?_, fun n hn16 hd hm => ?_⟩, fun t s g h hw hf hm => cswr_runs h hw hf hm,
    fun t s g b hb h hw hm hk => ?_⟩
  · exact fun hw => cWaitFor_runs h hm rfl hw rfl
  · exact fun hw => cWaitFor_runs h hm rfl hw rfl
  · exact fun hw => cWaitFor_runs h hm rfl hw rfl
  · exact fun sub chans count hwait hmet => readies hg (by simp only [exec, execCwaitSatisfied, hg, hwait, hmet, if_true])
  · exact fun u hwait hu => readies hg (by simp only [exec, execCsleepExpiry, hg, hwait, hu, if_true])
  · refine yields_of_issueLocal h (csrd_exec hb hw hp hn) ?_ ?_
    · simp only [if_neg ha]; exact wr_wrote ..
    · simp only [if_neg ha]; exact wr_regsOnly ..
  · refine runs_of_issueLocal h (csrd_exec hb hw hp hn) ?_
    simp only [hd, rkind_a hn16, if_true, if_neg hm, Nat.add_sub_cancel_left]
    exact ⟨(wrA_wroteA ..).settle _, (wrA_regsOnly ..).advanced _⟩
  · obtain ⟨b', hb', -, -, -, -, hwhy, -⟩ := readyGroup_some h.ready
    obtain rfl : b' = b := Option.some.inj (hb'.symm.trans hb)
    obtain ⟨hfault, hstop, hbatch, hrest⟩ := coreFault_first hb hwhy hk
      (groupFault s t.core t.grp errKernelAbort (execMask g t) (lowLane (execMask g t)) (BitVec.ofNat 64 (fld t 0 16)))
    refine ⟨_, _, cabort_exec h hw hm, hfault, rfl, rfl, ?_, hstop, ?_, hrest⟩
    · rw [groupFault_eq hb h.groupOf]
    · exact (congrArg _ hbatch).trans rfl

end Sys2Proof.Machine
end

section
/-! Memories as functions of their addresses, and scratchpad words without errors (R72, R191 to R194). -/

namespace Sys2Proof.Machine

/-! ## Canonical memories -/

theorem mfind_of_keysFrom {α : Type} {m : SMap α} {n x : Nat} (h : keysFrom n m = true) (hx : x < n) : mfind m x = none := by
  induction m with
  | nil => rfl
  | cons e m ih =>
    obtain ⟨k, v⟩ := e
    simp only [keysFrom, List.all_cons, Bool.and_eq_true, decide_eq_true_eq] at h
    rw [mfind, if_neg (by omega)]
    exact ih h.2

/-- What a canonical memory lists first: a byte that is not zero, and none lower. -/
theorem wf_cons {k : Nat} {v : Byte} {m : Mem} (h : Memory.wf ((k, v) :: m) = true) :
    v ≠ 0 ∧ Memory.wf m = true ∧ ∀ x, x ≤ k → mem8 m x = 0 := by
  simp only [Memory.wf, canonical, Bool.and_eq_true, List.all_cons, decide_eq_true_eq, sortedKeys_cons] at h ⊢
  obtain ⟨⟨hkeys, hsorted⟩, hv, hall⟩ := h
  exact ⟨hv, ⟨hsorted, hall⟩, fun x hx => by simp [mem8, mget, mfind_of_keysFrom hkeys (Nat.lt_succ_of_le hx)]⟩

theorem mem8_cons_same (k : Nat) (v : Byte) (m : Mem) : mem8 ((k, v) :: m) k = v := by simp [mem8, mget, mfind]

theorem mem8_cons_of_ne {k x : Nat} (h : k ≠ x) (v : Byte) (m : Mem) : mem8 ((k, v) :: m) x = mem8 m x := by
  simp [mem8, mget, mfind, h]

/-- Canonical memories that read the same are the same (log entry 9). -/
theorem mem_ext {m m' : Mem} (h : Memory.wf m = true) (h' : Memory.wf m' = true) (he : ∀ a, mem8 m a = mem8 m' a) : m = m' := by
  induction m generalizing m' with
  | nil =>
    cases m' with
    | nil => rfl
    | cons e m' =>
      obtain ⟨k, v⟩ := e
      exact absurd ((mem8_cons_same k v m').symm.trans (he k).symm) (wf_cons h').1
  | cons e m ih =>
    obtain ⟨k, v⟩ := e
    obtain ⟨hv, hm, hlow⟩ := wf_cons h
    cases m' with
    | nil => exact absurd ((mem8_cons_same k v m).symm.trans (he k)) hv
    | cons e' m' =>
      obtain ⟨k', v'⟩ := e'
      obtain ⟨hv', hm', hlow'⟩ := wf_cons h'
      have hk : k = k' := by
        rcases Nat.lt_trichotomy k k' with hlt | heq | hgt
        · have := he k
          rw [mem8_cons_same, mem8_cons_of_ne (by omega), hlow' k (by omega)] at this
          exact absurd this hv
        · exact heq
        · have := he k'
          rw [mem8_cons_same, mem8_cons_of_ne (by omega), hlow k' (by omega)] at this
          exact absurd this.symm hv'
      subst hk
      obtain rfl : v = v' := by simpa [mem8_cons_same] using he k
      rw [ih hm hm' fun a => ?_]
      by_cases ha : k = a
      · rw [← ha, hlow k le_rfl, hlow' k le_rfl]
      · simpa [mem8_cons_of_ne ha] using he a

/-! ## Pieces written in order -/

/-- Writes pieces in order. -/
def memPutAll (m : Mem) (ws : List (Nat × List Byte)) : Mem := ws.foldl (fun m w => memPut m w.1 w.2) m

/-- A piece lies in one 512-byte chunk (R191). -/
def InChunk (w : Nat × List Byte) : Prop := w.1 % 512 + w.2.length ≤ 512

theorem memPutAll_wf {m : Mem} (ws : List (Nat × List Byte)) (h : Memory.wf m = true) : Memory.wf (memPutAll m ws) = true := by
  induction ws generalizing m with
  | nil => exact h
  | cons w ws ih => exact ih (memPut_wf w.1 w.2 h)

/-- Of what was there before, a byte depends on its own place alone. -/
theorem mem8_memPutAll_congr {m m' : Mem} {a : Nat} (ws : List (Nat × List Byte)) (h : mem8 m a = mem8 m' a) :
    mem8 (memPutAll m ws) a = mem8 (memPutAll m' ws) a := by
  induction ws generalizing m m' with
  | nil => exact h
  | cons w ws ih =>
    refine ih ?_
    rw [mem8_memPut, mem8_memPut]
    split
    · rfl
    · exact h

/-- Pieces that do not reach a byte leave it. -/
theorem mem8_memPutAll_filter {a : Nat} (p : Nat × List Byte → Bool) (m : Mem) (ws : List (Nat × List Byte))
    (h : ∀ w ∈ ws, w.1 ≤ a ∧ a < w.1 + w.2.length → p w = true) :
    mem8 (memPutAll m (ws.filter p)) a = mem8 (memPutAll m ws) a := by
  induction ws generalizing m with
  | nil => rfl
  | cons w ws ih =>
    obtain ⟨hw, hws⟩ := List.forall_mem_cons.1 h
    by_cases hp : p w = true
    · rw [List.filter_cons_of_pos hp]
      exact ih (memPut m w.1 w.2) hws
    · rw [List.filter_cons_of_neg hp, ih m hws]
      refine mem8_memPutAll_congr ws ?_
      rw [mem8_memPut, if_neg (mt hw hp)]

theorem mem8_memPutAll_off {a : Nat} (m : Mem) {ws : List (Nat × List Byte)}
    (h : ∀ w ∈ ws, ¬ (w.1 ≤ a ∧ a < w.1 + w.2.length)) : mem8 (memPutAll m ws) a = mem8 m a := by
  rw [← mem8_memPutAll_filter (fun _ => false) m ws fun w hw hc => absurd hc (h w hw), List.filter_false]
  rfl

theorem nodup_eraseDups : (l : List Nat) → l.eraseDups.Nodup
  | [] => by simp
  | a :: l => by
    rw [List.eraseDups_cons, List.nodup_cons]
    exact ⟨by simp [List.mem_eraseDups], nodup_eraseDups _⟩
  termination_by l => l.length
  decreasing_by exact Nat.lt_succ_of_le (List.length_filter_le ..)

theorem chunk_of_covers {w : Nat × List Byte} {a : Nat} (hw : InChunk w) (hc : w.1 ≤ a ∧ a < w.1 + w.2.length) :
    w.1 / 512 = a / 512 := by
  unfold InChunk at hw
  omega

/-- A byte after the pieces of some chunks, chunk by chunk. -/
theorem mem8_foldl_chunks {a : Nat} {ws : List (Nat × List Byte)} (hws : ∀ w ∈ ws, InChunk w) (m : Mem) {l : List Nat}
    (hl : l.Nodup) : mem8 (l.foldl (fun m n => memPutAll m (ws.filter (fun w => w.1 / 512 = n))) m) a =
      if a / 512 ∈ l then mem8 (memPutAll m ws) a else mem8 m a := by
  induction l generalizing m with
  | nil => rfl
  | cons n l ih =>
    obtain ⟨hn, hl⟩ := List.nodup_cons.1 hl
    rw [List.foldl_cons, ih _ hl]
    by_cases hna : n = a / 512
    · rw [if_neg (hna ▸ hn), if_pos (by simp [hna])]
      exact mem8_memPutAll_filter _ m ws fun w hw hc => by simp [hna, chunk_of_covers (hws w hw) hc]
    · have hoff : mem8 (memPutAll m (ws.filter (fun w => w.1 / 512 = n))) a = mem8 m a := by
        refine mem8_memPutAll_off m fun w hw hc => hna ?_
        obtain ⟨hw, hwn⟩ := List.mem_filter.1 hw
        exact (of_decide_eq_true hwn).symm.trans (chunk_of_covers (hws w hw) hc)
      simp only [List.mem_cons, Ne.symm hna, false_or, hoff, mem8_memPutAll_congr ws hoff]

/-- Writing chunk by chunk comes to the same as writing in order (R191, R207). -/
theorem foldl_byChunk {m : Mem} (hm : Memory.wf m = true) {ws : List (Nat × List Byte)} (hws : ∀ w ∈ ws, InChunk w) :
    (byChunk ws).foldl memPutAll m = memPutAll m ws := by
  have hwf : ∀ (L : List (List (Nat × List Byte))) (m : Mem), Memory.wf m = true → Memory.wf (L.foldl memPutAll m) = true := by
    intro L
    induction L with
    | nil => exact fun _ h => h
    | cons x L ih => exact fun m h => ih _ (memPutAll_wf x h)
  refine mem_ext (hwf _ m hm) (memPutAll_wf ws hm) fun a => ?_
  rw [byChunk, List.foldl_map, mem8_foldl_chunks hws m (nodup_eraseDups _)]
  split
  · rfl
  · next ha =>
    refine (mem8_memPutAll_off m fun w hw hc => ha ?_).symm
    rw [List.mem_eraseDups, ← chunk_of_covers (hws w hw) hc]
    exact List.mem_map_of_mem hw

/-! ## Words in order (R193, R194) -/

theorem heldBy_none {s : State} (h : s.landing = []) (c a : Nat) : heldBy s c a = none := by simp [heldBy, h]

/-- Good words are read with nothing found. -/
theorem scanWords_good {s : State} {c : Nat} {words : List Nat} (src : Nat)
    (h : ∀ w ∈ words, heldBy s c (8 * w) = none ∧ markOf s c w = .good) : scanWords s c src words = (⟨[], []⟩, s) := by
  unfold scanWords
  induction words with
  | nil => rfl
  | cons w words ih =>
    obtain ⟨⟨hheld, hmark⟩, hws⟩ := List.forall_mem_cons.1 h
    rw [List.foldl_cons]
    simp only [hheld, hmark, Option.isSome_none, Bool.false_eq_true, if_false]
    exact ih hws

/-- A list that collects each new element of another holds nothing beyond both. -/
theorem mem_of_mem_collect {l acc : List Nat} {x : Nat}
    (h : x ∈ l.foldl (fun acc w => if acc.contains w then acc else acc ++ [w]) acc) : x ∈ acc ∨ x ∈ l := by
  induction l generalizing acc with
  | nil => exact .inl h
  | cons w l ih =>
    rw [List.foldl_cons] at h
    rcases ih h with hx | hx
    · split at hx
      · exact .inl hx
      · rcases List.mem_append.1 hx with hx | hx
        · exact .inl hx
        · exact .inr (List.mem_cons.2 (.inl (List.mem_singleton.1 hx)))
    · exact .inr (List.mem_cons_of_mem _ hx)

theorem mem_wordsOfAll {l : List (Nat × Nat)} {w : Nat} (h : w ∈ wordsOfAll l) : ∃ r ∈ l, w ∈ wordsOf r.1 r.2 := by
  have key : ∀ (l : List (Nat × Nat)) (acc : List Nat), w ∈ l.foldl (fun acc r =>
      (wordsOf r.1 r.2).foldl (fun acc w => if acc.contains w then acc else acc ++ [w]) acc) acc →
      w ∈ acc ∨ ∃ r ∈ l, w ∈ wordsOf r.1 r.2 := by
    intro l
    induction l with
    | nil => exact fun _ h => .inl h
    | cons r l ih =>
      intro acc h
      rcases ih _ h with hw | ⟨r', hr', hw⟩
      · rcases mem_of_mem_collect hw with hw | hw
        · exact .inl hw
        · exact .inr ⟨r, List.mem_cons_self, hw⟩
      · exact .inr ⟨r', List.mem_cons_of_mem _ hr', hw⟩
  exact (key l [] h).resolve_left List.not_mem_nil

theorem scrBytes_of_no_landing {s : State} (h : s.landing = []) (c a n : Nat) : scrBytes s c a n = memBytes (core s c).scr a n := by
  simp [scrBytes, h]

/-- A step on a core's scratchpad changes its bytes to `m` and its marks, and no other core or landing slot. -/
structure ScrStep (s s' : State) (c : Nat) (m : Mem) : Prop where
  landing : s'.landing = s.landing
  others : ∀ x, x ≠ c → core s' x = core s x
  core : core s' c = { core s c with scr := m, marks := (core s' c).marks }

theorem ScrStep.refl (s : State) (c : Nat) : ScrStep s s c (Machine.core s c).scr := ⟨rfl, fun _ _ => rfl, rfl⟩

theorem ScrStep.scr {s s' : State} {c : Nat} {m : Mem} (h : ScrStep s s' c m) : (Machine.core s' c).scr = m := by rw [h.core]

theorem ScrStep.batch {s s' : State} {c : Nat} {m : Mem} (h : ScrStep s s' c m) : batchOf s' c = batchOf s c := by
  rw [batchOf, h.core]; rfl

theorem ScrStep.trans {s s' s'' : State} {c : Nat} {m m' : Mem} (h : ScrStep s s' c m) (h' : ScrStep s' s'' c m') :
    ScrStep s s'' c m' :=
  ⟨h'.landing.trans h.landing, fun x hx => (h'.others x hx).trans (h.others x hx), by rw [h'.core, h.core]⟩

theorem setMark_step' (s : State) (c w : Nat) (m : WordMark) : ScrStep s (setMark s c w m) c (Machine.core s c).scr := by
  refine ⟨rfl, fun x hx => ?_, ?_⟩
  · exact (core_modCore ..).trans (if_neg (Ne.symm hx))
  · rw [setMark, core_modCore, if_pos rfl]

theorem writeMark_scr (s : State) (c w src : Nat) (whole bad : Bool) :
    ScrStep s (writeMark s c w src whole bad) c (Machine.core s c).scr := by
  unfold writeMark
  split
  · split
    · exact ScrStep.trans (s' := logScrUe s c w src) ⟨rfl, fun _ _ => rfl, rfl⟩ (setMark_step' ..)
    · exact setMark_step' ..
  · split
    · exact setMark_step' ..
    · split
      · exact ScrStep.refl ..
      · exact ScrStep.trans (s' := countR s r_TMV_SCR_CE 0 1) ⟨rfl, fun _ _ => rfl, rfl⟩ (setMark_step' ..)
      · exact ScrStep.trans (s' := logScrUe s c w src) ⟨rfl, fun _ _ => rfl, rfl⟩ (setMark_step' ..)
      · exact ScrStep.refl ..

theorem writeMarks_scr {f : State → Nat → State} {c : Nat} (hf : ∀ s w, ScrStep s (f s w) c (Machine.core s c).scr)
    (words : List Nat) (s : State) : ScrStep s (words.foldl f s) c (Machine.core s c).scr := by
  induction words generalizing s with
  | nil => exact ScrStep.refl ..
  | cons w words ih =>
    have h := (hf s w).trans (ih (f s w))
    rwa [(hf s w).scr] at h

theorem scrPut_step (s : State) (c : Nat) (m : Mem) :
    ScrStep s (modCore s c (fun k => { k with scr := m })) c m := by
  refine ⟨rfl, fun x hx => (core_modCore ..).trans (if_neg (Ne.symm hx)), ?_⟩
  rw [core_modCore, if_pos rfl]

/-- Pieces are written to a scratchpad in order. -/
theorem scrWriteAll_step' {s : State} (h : s.landing = []) (c : Nat) (ws : List (Nat × List Byte)) (bad : List Nat) (src : Nat) :
    ScrStep s (scrWriteAll s c ws bad src) c (memPutAll (Machine.core s c).scr ws) := by
  have hput : ∀ (ws : List (Nat × List Byte)) (s : State), ScrStep s
      (ws.foldl (fun s w => modCore s c (fun k => { k with scr := memPut k.scr w.1 w.2 })) s) c
      (memPutAll (Machine.core s c).scr ws) := by
    intro ws
    induction ws with
    | nil => exact fun s => ScrStep.refl ..
    | cons w ws ih =>
      intro s
      have h1 := scrPut_step s c (memPut (Machine.core s c).scr w.1 w.2)
      have h2 := h1.trans (ih _)
      rwa [h1.scr] at h2
  unfold scrWriteAll
  dsimp only
  rw [List.foldl_fixed' (a := s) fun w => by rw [heldBy_none h]]
  have h1 := writeMarks_scr (c := c) (fun s w => writeMark_scr s c w src
    ((List.range 8).all (fun i => ws.any (fun x => decide (x.1 ≤ 8 * w + i) && decide (8 * w + i < x.1 + x.2.length))))
    (bad.contains w)) (wordsOfAll (ws.map (fun w => (w.1, w.2.length)))) s
  have h2 := h1.trans (hput ws _)
  rwa [h1.scr] at h2

/-- A store of pieces, chunk by chunk. -/
theorem scrWriteChunks_step {s : State} (h : s.landing = []) (c : Nat) (L : List (List (Nat × List Byte))) (src : Nat) :
    ScrStep s (L.foldl (fun s l => scrWriteAll s c l [] src) s) c (L.foldl memPutAll (Machine.core s c).scr) := by
  induction L generalizing s with
  | nil => exact ScrStep.refl ..
  | cons l L ih =>
    have h1 := scrWriteAll_step' h c l [] src
    have h2 := h1.trans (ih (h1.landing.trans h))
    rwa [h1.scr] at h2

/-- A write of at most some bytes of good words leaves their marks: only its bytes change. -/
theorem scrWrite_good {s : State} {c a : Nat} {data : List Byte} {src : Nat} (h : s.landing = []) (hlen : data.length < 8)
    (hgood : ∀ w ∈ wordsOf a data.length, markOf s c w = .good) :
    scrWrite s c a data [] src = modCore s c (fun k => { k with scr := memPut k.scr a data }) := by
  have hmark : ∀ words : List Nat, (∀ w ∈ words, markOf s c w = .good) → words.foldl (fun s w =>
      writeMark s c w src (decide (a ≤ 8 * w) && decide (8 * w + 8 ≤ a + data.length)) (([] : List Nat).contains w)) s = s := by
    intro words
    induction words with
    | nil => exact fun _ => rfl
    | cons w words ih =>
      intro hw
      obtain ⟨hw, hws⟩ := List.forall_mem_cons.1 hw
      have hpart : (decide (a ≤ 8 * w) && decide (8 * w + 8 ≤ a + data.length)) = false := by
        simp only [Bool.and_eq_false_iff, decide_eq_false_iff_not]
        omega
      rw [List.foldl_cons, hpart]
      have : writeMark s c w src false (([] : List Nat).contains w) = s := by simp [writeMark, hw]
      rw [this]
      exact ih hws
  unfold scrWrite
  dsimp only
  rw [List.foldl_fixed' (a := s) fun w => by rw [heldBy_none h], hmark _ hgood]

end Sys2Proof.Machine
end

section
/-! Scratchpad accesses and their faults (R72, R88 to R93, R100, R102). -/

namespace Sys2Proof.Machine

/-! ## Registers after an access -/

theorem SameRegs.refl (g : Group) : SameRegs g g := ⟨rfl, rfl, rfl, rfl⟩

/-- The sequencer changes no register. -/
theorem sameRegs_settle (g : Group) (pc : DWord) : SameRegs g (settle { g with pc := pc }) := by
  obtain ⟨hs, hu, hp, ha, -⟩ := settle_kept { g with pc := pc }
  exact ⟨hs, hu, ha, hp⟩

theorem RegsOnly.trans {g g' g'' : Group} (h : RegsOnly g g' 0) (h' : RegsOnly g' g'' 0) : RegsOnly g g'' 0 := by
  obtain ⟨hf, ⟨hl, he, hp⟩, ha, hs, hr, hn⟩ := h
  obtain ⟨hf', ⟨hl', he', hp'⟩, ha', hs', hr', hn'⟩ := h'
  exact ⟨by rw [hf', hf]; simp, ⟨hl'.trans hl, he'.trans he, hp'.trans hp⟩, ha'.trans ha, hs'.trans hs, hr'.trans hr, hn'.trans hn⟩

theorem foldl_regsOnly {α : Type} {f : Group → α → Group} (hf : ∀ g x, RegsOnly g (f g x) 0) (l : List α) (g : Group) :
    RegsOnly g (l.foldl f g) 0 := by
  induction l generalizing g with
  | nil => exact RegsOnly.refl g
  | cons x l ih => exact (hf g x).trans (ih _)

theorem writeData_regsOnly (g : Group) (r sz : Nat) (sx : Bool) (lane : Nat) (bytes : List Byte) :
    RegsOnly g (writeData g r sz sx lane bytes) 0 := by
  unfold writeData
  dsimp only
  split
  · exact wr_regsOnly ..
  · split
    · exact wrA_regsOnly ..
    · split
      · exact RegsOnly.refl g
      · exact foldl_regsOnly (fun g i => wr_regsOnly ..) _ g

theorem dataBytes_length_le (g : Group) (lane r k n : Nat) : (dataBytes g lane r k n).length ≤ n := by
  unfold dataBytes
  split
  · exact (leBytes_length ..).le
  · split
    · exact (List.length_replicate ..).le
    · exact List.length_take_le ..

/-! ## Addresses (R100, R102) -/

section
variable {s : State} {t : Th} {g : Group} {c : Instr} {P : State → Group → Prop} {legal : Bool} {n size : Nat}
  {act : Group → List (Nat × Nat) → State}

theorem addrFault_none {far : Nat → Bool} {code : Nat} {l : List (Nat × Nat)}
    (h : ∀ x ∈ l, x.2 % size = 0 ∧ far x.2 = false) : addrFault size far code l = none := by
  have : l.filter (fun x => x.2 % size ≠ 0 || far x.2) = [] := by
    rw [List.filter_eq_nil_iff]
    intro x hx
    obtain ⟨h0, hfar⟩ := h x hx
    simp [h0, hfar]
  rw [addrFault, this]

theorem mem_xAddrs {lanes : List Nat} {x : Nat × Nat} (h : x ∈ xAddrs g t lanes) : x.1 ∈ lanes ∧ x.2 = (xAddr g t x.1).toNat := by
  obtain ⟨l, hl, rfl⟩ := List.mem_map.1 h
  exact ⟨hl, rfl⟩

/-- An access at good addresses acts. -/
theorem scratchAccess_ok (h : Issues s t (xUses t n) g) (hl : legal = true) (hok : ScrOk s t g size) :
    scratchAccess s t legal n size act = act g (xAddrs g t (xLanes t (execMask g t))) := by
  subst hl
  have hnone : addrFault size (fun a => decide (scrLimit (kernelOn s t.core).lb ≤ a)) errScratchRange
      (xAddrs g t (xLanes t (execMask g t))) = none := by
    refine addrFault_none fun x hx => ?_
    obtain ⟨hlane, ha⟩ := mem_xAddrs hx
    obtain ⟨hmod, hlim, -⟩ := hok.fits x.1 hlane
    rw [ha]
    exact ⟨hmod, decide_eq_false (by omega)⟩
  unfold scratchAccess
  rw [issue_acts h]
  simp only [if_neg hok.lanes, hnone]

/-- The words of an access at good addresses are good. -/
theorem ScrOk.words (hok : ScrOk s t g size) {x : Nat × Nat} (hx : x ∈ xAddrs g t (xLanes t (execMask g t))) :
    ScrGood s t.core x.2 size := by
  obtain ⟨hlane, ha⟩ := mem_xAddrs hx
  rw [ha]
  exact (hok.fits x.1 hlane).2.2

/-- A command that stores its group in a state whose batch is the old one. -/
theorem leads_of_retire {s' : State} {g' : Group} {b : Batch} (hb : batchOf s' t.core = some b)
    (he : exec c s = .next (retire s' t.core t.grp g')) (hP : P (retire s' t.core t.grp g') (settle g')) : Leads c s t P :=
  ⟨_, settle g', he, (groupOf_retire hb g' t.grp).trans (if_pos rfl), hP⟩

end

/-! ## Loads and stores (R89) -/

theorem hits_nil (a n : Nat) : hits [] a n = false := by simp [hits]

section
variable {s : State} {t : Th} {g : Group}

theorem xlds_runs (h0 : s.landing = []) (h : Issues s t (xUses t (sizeRegs (xSize t))) g) (hl : xLegal t true = true)
    (hok : ScrOk s t g (2 ^ xSize t)) :
    Runs (.xlds t []) s t (fun _ g' => Advanced g g' 0 (nextPc g) ∧
      SameRegs ((xLanes t (execMask g t)).foldl (fun r l => writeData r (xData t) (xSize t) (xSx t) l
        (memBytes (core s t.core).scr (xAddr g t l).toNat (2 ^ xSize t))) g) g') := by
  have hscan : ∀ addrs, addrs = xAddrs g t (xLanes t (execMask g t)) →
      scanWords s t.core srcThread (wordsOfAll (addrs.map (fun x => (x.2, 2 ^ xSize t)))) = (⟨[], []⟩, s) := by
    rintro addrs rfl
    refine scanWords_good _ fun w hw => ?_
    obtain ⟨r, hr, hw⟩ := mem_wordsOfAll hw
    obtain ⟨x, hx, rfl⟩ := List.mem_map.1 hr
    exact hok.words hx w hw
  have he : exec (.xlds t []) s = .next (retire s t.core t.grp
      { (xAddrs g t (xLanes t (execMask g t))).foldl (fun g x => writeData g (xData t) (xSize t) (xSx t) x.1
        (scrBytes s t.core x.2 (2 ^ xSize t))) g with pc := nextPc g }) := by
    refine congrArg Host.Outcome.next ((scratchAccess_ok h hl hok).trans ?_)
    simp only [applyUpsets, List.foldl_nil, sizeBytes, hscan _ rfl, hits_nil, List.filter_false, Bool.not_false, Bool.and_false,
      Bool.and_self, List.filter_true, List.isEmpty_nil, if_true]
  refine runs_of_retire h he ⟨(foldl_regsOnly (fun g x => writeData_regsOnly ..) _ g).advanced _, ?_⟩
  rw [xAddrs, List.foldl_map]
  simp only [scrBytes_of_no_landing h0]
  exact sameRegs_settle ..

/-- The pieces of a store. -/
def storePieces (g : Group) (t : Th) : List (Nat × List Byte) :=
  (xLanes t (execMask g t)).map (fun l => ((xAddr g t l).toNat, dataBytes g l (xData t) 0 (2 ^ xSize t)))

theorem storePieces_inChunk (hl : xLegal t false = true) (hok : ScrOk s t g (2 ^ xSize t)) :
    ∀ w ∈ storePieces g t, InChunk w := by
  intro w hw
  obtain ⟨l, hlane, rfl⟩ := List.mem_map.1 hw
  have hmod := (hok.fits l hlane).1
  have hlen := dataBytes_length_le g l (xData t) 0 (2 ^ xSize t)
  have hsize : xSize t ≤ 4 := by
    simp only [xLegal, Bool.and_eq_true, decide_eq_true_eq] at hl
    exact hl.1.1.1.2
  obtain ⟨k, hk⟩ : 2 ^ xSize t ∣ 512 := pow_dvd_pow 2 (n := 9) (by omega)
  have hchunk : (xAddr g t l).toNat % 512 + 2 ^ xSize t ≤ 512 := by
    have h2 : 2 ^ xSize t ∣ (xAddr g t l).toNat % 512 :=
      (Nat.dvd_mod_iff ⟨k, hk⟩).2 (Nat.dvd_of_mod_eq_zero hmod)
    obtain ⟨q, hq⟩ := h2
    have hlt : (xAddr g t l).toNat % 512 < 512 := Nat.mod_lt _ (by decide)
    rw [hq, hk] at hlt
    have : q + 1 ≤ k := Nat.lt_of_mul_lt_mul_left hlt
    calc (xAddr g t l).toNat % 512 + 2 ^ xSize t = 2 ^ xSize t * (q + 1) := by rw [hq]; ring
      _ ≤ 2 ^ xSize t * k := Nat.mul_le_mul_left _ this
      _ = 512 := hk.symm
  exact (Nat.add_le_add_left hlen _).trans hchunk

theorem xsts_exec (h : Issues s t (xUses t (sizeRegs (xSize t))) g) (hl : xLegal t false = true)
    (hok : ScrOk s t g (2 ^ xSize t)) (hred : redSpans s t.core = []) :
    exec (.xsts t []) s = .next (retire ((byChunk (storePieces g t)).foldl (fun s l => scrWriteAll s t.core l [] srcThread) s)
      t.core t.grp { g with pc := nextPc g }) := by
  have hws : (xAddrs g t (xLanes t (execMask g t))).map (fun x => (x.2, dataBytes g x.1 (xData t) 0 (2 ^ xSize t))) =
      storePieces g t := by
    rw [xAddrs, List.map_map]; rfl
  refine congrArg Host.Outcome.next ((scratchAccess_ok h hl hok).trans ?_)
  simp only [applyUpsets, List.foldl_nil, sizeBytes, hws, hred, freeWithin, List.isEmpty_nil, if_true]

theorem xsts_leads (h0 : s.landing = []) (h : Issues s t (xUses t (sizeRegs (xSize t))) g) (hl : xLegal t false = true)
    (hok : ScrOk s t g (2 ^ xSize t)) (hred : redSpans s t.core = []) (hwf : Memory.wf (core s t.core).scr = true) :
    Leads (.xsts t []) s t (fun s' g' => Advanced g g' 0 (nextPc g) ∧ SameRegs g g'
      ∧ (core s' t.core).scr = (xLanes t (execMask g t)).foldl (fun m l => memPut m (xAddr g t l).toNat
          (dataBytes g l (xData t) 0 (2 ^ xSize t))) (core s t.core).scr
      ∧ ∀ c, c ≠ t.core → core s' c = core s c) := by
  obtain ⟨b, hb, -⟩ := readyGroup_some h.ready
  have hstep := scrWriteChunks_step h0 t.core (byChunk (storePieces g t)) srcThread
  rw [foldl_byChunk hwf (storePieces_inChunk hl hok)] at hstep
  have hb' := hstep.batch.trans hb
  have honly := retire_only (g := t.grp) hb' { g with pc := nextPc g }
  refine leads_of_retire hb' (xsts_exec h hl hok hred) ⟨advanced_at .., sameRegs_settle .., ?_, fun c hc => ?_⟩
  · rw [honly.core]
    refine hstep.scr.trans ?_
    rw [memPutAll, storePieces, List.foldl_map]
  · exact (honly.cores c hc).trans (hstep.others c hc)

/-! ## Atomics (R91) -/

/-- A core's marks after a step that leaves them. -/
structure ScrOnly (s s' : State) (c : Nat) (m : Mem) : Prop extends ScrStep s s' c m where
  marks : (Machine.core s' c).marks = (Machine.core s c).marks

theorem ScrOnly.markOf {s s' : State} {c : Nat} {m : Mem} (h : ScrOnly s s' c m) (w : Nat) : markOf s' c w = markOf s c w := by
  rw [Machine.markOf, h.marks]; rfl

theorem scrPut_only (s : State) (c a : Nat) (data : List Byte) :
    ScrOnly s (modCore s c (fun k => { k with scr := memPut k.scr a data })) c (memPut (Machine.core s c).scr a data) :=
  ⟨scrPut_step s c _, by rw [core_modCore, if_pos rfl]⟩

theorem ScrOnly.trans {s s' s'' : State} {c : Nat} {m m' : Mem} (h : ScrOnly s s' c m) (h' : ScrOnly s' s'' c m') :
    ScrOnly s s'' c m' :=
  ⟨h.toScrStep.trans h'.toScrStep, h'.marks.trans h.marks⟩

/-- An atomic at good words: its old value, and its result in memory. -/
theorem scratchAtomic_good {lane a : Nat} (h0 : s.landing = []) (hgood : ∀ w ∈ wordsOf a 4, markOf s t.core w = .good) :
    scratchAtomic s t g lane a = (some (memBytes (core s t.core).scr a 4), false,
      modCore s t.core (fun k => { k with scr := memPut k.scr a (leBytes 4 (atomicResult (xSub t) 32 (xSx t)
        (leNat (memBytes (core s t.core).scr a 4)) (leNat (dataBytes g lane (xData t) 0 4))
        (leNat (dataBytes g lane (xData t) 1 4)))) })) := by
  have hscan : scanWords s t.core srcThread (wordsOf a 4) = (⟨[], []⟩, s) :=
    scanWords_good _ fun w hw => ⟨heldBy_none h0 .., hgood w hw⟩
  have hlen : ∀ x, (leBytes 4 x).length = 4 := leBytes_length 4
  unfold scratchAtomic
  simp only [hscan, List.isEmpty_nil, Bool.not_true, Bool.false_eq_true, if_false, scrBytes_of_no_landing h0]
  rw [scrWrite_good h0 (by rw [hlen]; decide) (by rw [hlen]; exact hgood)]

/-- The fold over lanes of XATOMS. -/
def atomLanes (t : Th) (g : Group) (r : Group × List (Nat × Nat) × List (Nat × Nat) × State) (x : Nat × Nat) :
    Group × List (Nat × Nat) × List (Nat × Nat) × State :=
  let o := scratchAtomic r.2.2.2 t g x.1 x.2
  match o.1 with
  | some old => (writeData r.1 (xData t) 2 false x.1 old, r.2.1, r.2.2.1, o.2.2)
  | none =>
    if o.2.1 then (r.1, r.2.1 ++ [x], r.2.2.1, o.2.2)
    else (r.1, r.2.1, if xData t = 0x7F then r.2.2.1 else r.2.2.1 ++ [x], o.2.2)

/-- How XATOMS ends, when its lanes have acted. -/
def atomsEnd (t : Th) (g : Group) (r : Group × List (Nat × Nat) × List (Nat × Nat) × State) : State :=
  if r.2.1.isEmpty && r.2.2.1.isEmpty then retire r.2.2.2 t.core t.grp { r.1 with pc := nextPc g }
  else scratchFault (setGroup r.2.2.2 t.core t.grp r.1) t g r.2.1 r.2.2.1

theorem xatoms_eq (t : Th) (s : State) : exec (.xatoms t []) s = .next (scratchAccess s t (atomLegal t false)
    (if xSub t = 4 then 2 else 1) 4 (fun g addrs => atomsEnd t g (addrs.foldl (atomLanes t g) (g, [], [], s)))) := rfl

/-- At good words, the lanes of XATOMS act as `atomStep` on the registers and the bytes. -/
theorem atomLanes_good {s0 : State} (h0 : s0.landing = []) {r : Group × Mem} (hs : ScrOnly s0 s t.core r.2) {lanes : List Nat}
    (hgood : ∀ l ∈ lanes, ∀ w ∈ wordsOf (xAddr g t l).toNat 4, markOf s0 t.core w = .good) :
    ∃ s', (xAddrs g t lanes).foldl (atomLanes t g) (r.1, [], [], s) = ((lanes.foldl (atomStep g t) r).1, [], [], s')
      ∧ ScrOnly s0 s' t.core (lanes.foldl (atomStep g t) r).2 := by
  induction lanes generalizing r s with
  | nil => exact ⟨s, rfl, hs⟩
  | cons l lanes ih =>
    obtain ⟨hl, hlanes⟩ := List.forall_mem_cons.1 hgood
    have ha := scratchAtomic_good (g := g) (lane := l) (hs.landing.trans h0) fun w hw => (hs.markOf w).trans (hl w hw)
    rw [hs.scr] at ha
    have hput := hs.trans (scrPut_only s t.core (xAddr g t l).toNat (leBytes 4 (atomicResult (xSub t) 32 (xSx t)
      (leNat (memBytes r.2 (xAddr g t l).toNat 4)) (leNat (dataBytes g l (xData t) 0 4)) (leNat (dataBytes g l (xData t) 1 4)))))
    rw [hs.scr] at hput
    obtain ⟨s', he, hs'⟩ := ih (r := atomStep g t r l) hput hlanes
    refine ⟨s', ?_, hs'⟩
    rw [List.foldl_cons, ← he]
    simp only [xAddrs, List.map_cons, List.foldl_cons, atomLanes, ha, atomStep]

theorem foldl_atomStep_regsOnly (lanes : List Nat) (g0 : Group) (r : Group × Mem) :
    RegsOnly r.1 (lanes.foldl (atomStep g0 t) r).1 0 := by
  induction lanes generalizing r with
  | nil => exact RegsOnly.refl _
  | cons l lanes ih =>
    have hl : RegsOnly r.1 (atomStep g0 t r l).1 0 := writeData_regsOnly r.1 (xData t) 2 false l _
    exact hl.trans (ih (atomStep g0 t r l))

theorem xatoms_leads (h0 : s.landing = []) (h : Issues s t (xUses t (if xSub t = 4 then 2 else 1)) g)
    (hl : atomLegal t false = true) (hok : ScrOk s t g 4) :
    Leads (.xatoms t []) s t (fun s' g' => Advanced g g' 0 (nextPc g)
      ∧ SameRegs ((xLanes t (execMask g t)).foldl (atomStep g t) (g, (core s t.core).scr)).1 g'
      ∧ (core s' t.core).scr = ((xLanes t (execMask g t)).foldl (atomStep g t) (g, (core s t.core).scr)).2
      ∧ ∀ c, c ≠ t.core → core s' c = core s c) := by
  obtain ⟨b, hb, -⟩ := readyGroup_some h.ready
  obtain ⟨s', hfold, hs'⟩ := atomLanes_good (g := g) (lanes := xLanes t (execMask g t)) h0 (r := (g, (core s t.core).scr))
    ⟨ScrStep.refl s t.core, rfl⟩ fun l hlane w hw => ((hok.fits l hlane).2.2 w hw).2
  have he : exec (.xatoms t []) s = .next (retire s' t.core t.grp
      { ((xLanes t (execMask g t)).foldl (atomStep g t) (g, (core s t.core).scr)).1 with pc := nextPc g }) := by
    rw [xatoms_eq, scratchAccess_ok h hl hok, hfold]
    rfl
  have honly := retire_only (g := t.grp) (hs'.batch.trans hb)
    { ((xLanes t (execMask g t)).foldl (atomStep g t) (g, (core s t.core).scr)).1 with pc := nextPc g }
  refine leads_of_retire (hs'.batch.trans hb) he
    ⟨(foldl_atomStep_regsOnly _ g (g, (core s t.core).scr)).advanced _, sameRegs_settle .., ?_, fun c hc => ?_⟩
  · rw [honly.core]; exact hs'.scr
  · exact (honly.cores c hc).trans (hs'.others c hc)

/-! ## XMOV (R93) -/

theorem chan_queueDesc (s : State) (u k : Nat) (d : Desc) :
    chan (queueDesc s u k d) u k = { chan s u k with queue := (chan s u k).queue ++ [d] } := by
  simp only [queueDesc, setChan, chan, mover, mget_mput, if_true]

theorem bitAt_three_of_lt {n : Nat} (h : n < 16) (hb : bitAt n 3 = false) : n % 8 = n := by
  simp only [bitAt, decide_eq_false_iff_not] at hb
  omega

theorem fld_lt (t : Th) (lo w : Nat) : fld t lo w < 2 ^ w := Nat.mod_lt _ (Nat.two_pow_pos w)

theorem kernelOn_eq {b : Batch} {c : Nat} (hb : batchOf s c = some b) : kernelOn s c = kernel s b.kernel := by
  simp only [kernelOn, hb]

/-- The descriptor that XMOV queues from an address. -/
def xmovDesc (s : State) (t : Th) (a : Nat) : Desc :=
  let bytes := memBytes (core s t.core).scr a 64
  let kn := kernelOn s t.core
  ⟨bytes, .xmov (((batchOf s t.core).map Batch.kernel).getD 0) t.grp, max ((bytes.getD 1 0).toNat % 8) (kn.lb.mode % 8), kn.space,
    kn.inst, none⟩

section
variable (h0 : s.landing = []) (h : Issues s t [usesPred t, 0x60 + xAbase t, xIdx t] g) (h3 : bitAt (xSub t) 3 = false)
  (hd : rkind (xData t) ≠ .reserved) (hi : rkind (xIdx t) ≠ .reserved) (hroom : (chan s t.core (xSub t)).queue.length < 16)
  (hm : execMask g t ≠ 0) (h64 : (xAddr g t (lowLane (execMask g t))).toNat % 64 = 0)
  (hlim : (xAddr g t (lowLane (execMask g t))).toNat < scrLimit (kernelOn s t.core).lb)
  (hgood : ScrGood s t.core (xAddr g t (lowLane (execMask g t))).toNat 64)
include h0 h h3 hd hi hroom hm h64 hlim hgood

theorem xmov_exec : exec (.xmov t []) s = .next (retire
    (queueDesc s t.core (xSub t) (xmovDesc s t (xAddr g t (lowLane (execMask g t))).toNat)) t.core t.grp
    { g with pc := nextPc g }) := by
  have hsub : xSub t % 8 = xSub t := bitAt_three_of_lt (fld_lt t 24 4) h3
  have hlegal : (!bitAt (xSub t) 3 && rkind (xData t) ≠ .reserved && rkind (xIdx t) ≠ .reserved : Bool) = true := by
    simp [h3, hd, hi]
  refine congrArg Host.Outcome.next ?_
  simp only [hlegal, hsub, Bool.true_and, decide_eq_true_eq, if_neg (Nat.not_le.2 hroom)]
  rw [issue_acts h]
  simp only [if_neg hm, h64, ne_eq, not_true_eq_false, if_false, if_neg (Nat.not_le.2 hlim), applyUpsets, List.foldl_nil,
    scanWords_good _ hgood, List.isEmpty_nil, Bool.not_true, Bool.false_eq_true, scrBytes_of_no_landing h0, xmovDesc]

theorem xmov_leads {b : Batch} (hb : batchOf s t.core = some b) :
    Leads (.xmov t []) s t (fun s' g' => Advanced g g' 0 (nextPc g) ∧ SameRegs g g'
      ∧ ∃ d, (chan s' t.core (xSub t)).queue = (chan s t.core (xSub t)).queue ++ [d]
        ∧ d.bytes = memBytes (core s t.core).scr (xAddr g t (lowLane (execMask g t))).toNat 64
        ∧ d.owner = .xmov b.kernel t.grp ∧ d.space = (kernel s b.kernel).space) := by
  have hchan : ∀ s' g', chan (retire s' t.core t.grp g') t.core (xSub t) = chan s' t.core (xSub t) := fun s' g' => by
    simp only [chan, mover, (retire_frame s' t.core t.grp g').movers (by decide)]
  refine leads_of_retire (b := b) (s' := queueDesc s t.core (xSub t) (xmovDesc s t _)) hb (xmov_exec h0 h h3 hd hi hroom hm h64 hlim hgood)
    ⟨advanced_at .., sameRegs_settle .., xmovDesc s t (xAddr g t (lowLane (execMask g t))).toNat, ?_, rfl, ?_, ?_⟩
  · rw [hchan, chan_queueDesc]
  · simp only [xmovDesc, hb, Option.map_some, Option.getD_some]
  · simp only [xmovDesc, kernelOn_eq hb]

end

end

/-! ## Faults (R80, R100, R102) -/

section
variable {s : State} {t : Th} {g : Group} {c : Instr} {uses : List Nat} {act : Group → State}

/-- An instruction that its form does not allow faults before it acts (R80). -/
theorem issue_illegal (h : Issues s t uses g) :
    issue s t false uses act = threadFault s t.core t.grp errIllegalInstr g.active g.pc := by
  unfold issue
  simp only [h.ready, h.code, h.line, Bool.not_true, Bool.false_eq_true, if_false, Bool.not_false, if_true]

theorem scratchAccess_bad {n size : Nat} {act : Group → List (Nat × Nat) → State} {l : Nat} {rest : List Nat}
    (h : Issues s t (xUses t n) g) (hm : execMask g t ≠ 0)
    (hbad : (xLanes t (execMask g t)).filter (fun l => decide ((xAddr g t l).toNat % size ≠ 0)
      || decide (scrLimit (kernelOn s t.core).lb ≤ (xAddr g t l).toNat)) = l :: rest) :
    scratchAccess s t true n size act = threadFault s t.core t.grp
      (if (xAddr g t l).toNat % size ≠ 0 then errMisaligned else errScratchRange)
      (if xUniform t then execMask g t else laneMask (l :: rest)) (xAddr g t l) := by
  let p : Nat → Bool := fun l => decide ((xAddr g t l).toNat % size ≠ 0)
    || decide (scrLimit (kernelOn s t.core).lb ≤ (xAddr g t l).toNat)
  let addr : Nat → Nat × Nat := fun l => (l, (xAddr g t l).toNat)
  have hfilter : ((xLanes t (execMask g t)).map addr).filter (fun x => decide (x.2 % size ≠ 0)
      || decide (scrLimit (kernelOn s t.core).lb ≤ x.2)) = (l :: rest).map addr := by
    rw [List.filter_map, ← hbad]; rfl
  have hfault : addrFault size (fun a => decide (scrLimit (kernelOn s t.core).lb ≤ a)) errScratchRange
      (xAddrs g t (xLanes t (execMask g t))) =
      some (if (xAddr g t l).toNat % size ≠ 0 then errMisaligned else errScratchRange, l :: rest) := by
    unfold addrFault xAddrs
    simp only [addr] at hfilter
    simp only [hfilter, List.map_cons, List.map_map, Function.comp_def, List.map_id']
  have hhead : ((xAddrs g t (xLanes t (execMask g t))).filter (fun x => (l :: rest).contains x.1)).head?.map Prod.snd =
      some (xAddr g t l).toNat := by
    have : (xLanes t (execMask g t)).filter (fun x => (l :: rest).contains x) = l :: rest := by
      rw [← hbad]
      refine List.filter_congr fun x hx => ?_
      simp [List.mem_filter, hx]
    rw [xAddrs, List.filter_map, Function.comp_def, this]
    rfl
  unfold scratchAccess
  rw [issue_acts h]
  simp only [if_neg hm, hfault, hhead, Option.getD_some, BitVec.ofNat_toNat, BitVec.setWidth_eq]

end

/-- Settles O8: good addresses make the access act on good words, a bad one is a thread fault before it acts. -/
theorem scratchpadAccessesAndFaults : Obligations.ScratchpadAccessesAndFaults := by
  refine ⟨fun t s g h0 => ⟨xlds_runs h0, xsts_leads h0, xatoms_leads h0, fun b h hb h3 hd hi hroom hm h64 hlim hgood =>
    xmov_leads h0 h h3 hd hi hroom hm h64 hlim hgood hb⟩, fun t s g load h => ?_⟩
  cases load with
  | true =>
    refine ⟨fun hl => faults_of_threadFault h.groupOf ?_, fun l rest hl hm hbad => faults_of_threadFault h.groupOf ?_⟩
    · exact congrArg Host.Outcome.next ((congrArg (scratchAccess s t · _ _ _) hl).trans (issue_illegal h))
    · exact congrArg Host.Outcome.next ((congrArg (scratchAccess s t · _ _ _) hl).trans ((scratchAccess_bad h hm hbad).trans (by simp)))
  | false =>
    refine ⟨fun hl => faults_of_threadFault h.groupOf ?_, fun l rest hl hm hbad => faults_of_threadFault h.groupOf ?_⟩
    · exact congrArg Host.Outcome.next ((congrArg (scratchAccess s t · _ _ _) hl).trans (issue_illegal h))
    · exact congrArg Host.Outcome.next ((congrArg (scratchAccess s t · _ _ _) hl).trans ((scratchAccess_bad h hm hbad).trans (by simp)))

end Sys2Proof.Machine
end

section
/-! The log of an uncorrectable scratchpad word holds its core's number unmasked (R193), which refutes O9. -/

namespace Sys2Proof.Machine

/-- A machine at reset whose core entry 256 has an uncorrectable word to write back: its number does not fit the eight bits that
TMV_SCR_UE_LOG has for a core. -/
def wideCoreState : State :=
  { State.reset with cores := [(256, { Core.empty with backs := [0], marks := [(0, .double)] })] }

theorem exec_wideCore : exec (.scratchEccWriteback 256) wideCoreState =
    .next (logScrUe (modCore wideCoreState 256 (fun k => { k with backs := [] })) 256 0 srcWriteBack) := rfl

/-- The core's number runs into the log's SOURCE: it reads 6, a code that no source has. -/
theorem source_wideCore :
    getF (logScrUe (modCore wideCoreState 256 (fun k => { k with backs := [] })) 256 0 srcWriteBack) f_TMV_SCR_UE_LOG_SOURCE = 6 := by
  unfold getF logScrUe
  rw [show f_TMV_SCR_UE_LOG_SOURCE.1 = r_TMV_SCR_UE_LOG from rfl, getR_setR]
  decide

/-- Refutes O9: the clause for an uncorrectable corrected word asks that TMV_SCR_UE_LOG.SOURCE read 5 for every core number, and
with the number 256 the model logs SOURCE 6. -/
theorem not_fencesWritebacksAndGlobalAccesses : ¬ Obligations.FencesWritebacksAndGlobalAccesses := by
  intro h
  obtain ⟨⟨-, hback⟩, -⟩ := h
  obtain ⟨s', hexec, -, hsource, -⟩ := (hback 256 0 [] wideCoreState (by decide)).2 (by decide)
  obtain rfl := Host.Outcome.next.inj (exec_wideCore.symm.trans hexec)
  exact absurd (source_wideCore.symm.trans hsource) (by decide)

end Sys2Proof.Machine
end

section
/-! The sending of requests, the tiles and the end of requests, as the instructions of threads use them (R231, R264, R292). -/

namespace Sys2Proof.Machine

/-! ## Parts that an update leaves -/

theorem core_of_cores_eq {s t : State} (h : t.cores = s.cores) (c : Nat) : core t c = core s c := by unfold core; rw [h]

theorem batchOf_of_cores_eq {s t : State} (h : t.cores = s.cores) (c : Nat) : batchOf t c = batchOf s c := by
  unfold batchOf; rw [core_of_cores_eq h]

theorem groupOf_of_cores_eq {s t : State} (h : t.cores = s.cores) (c g : Nat) : groupOf t c g = groupOf s c g := by
  unfold groupOf; rw [batchOf_of_cores_eq h]

theorem kernel_of_kernels_eq {s t : State} (h : t.kernels = s.kernels) (k : Nat) : kernel t k = kernel s k := by
  unfold kernel; rw [h]

/-- Every group stands as it stood. -/
def SameGroups (s t : State) : Prop := ∀ c g, groupOf t c g = groupOf s c g

theorem SameGroups.trans {s t u : State} (h : SameGroups s t) (h' : SameGroups t u) : SameGroups s u :=
  fun c g => (h' c g).trans (h c g)

theorem SameGroups.of_cores_eq {s t : State} (h : t.cores = s.cores) : SameGroups s t := groupOf_of_cores_eq h

/-! ## Sending (R231, R264) -/

theorem chipId_of_regs_eq {s t : State} (h : t.regs = s.regs) : chipId t = chipId s := by
  unfold chipId getF; rw [getR_of_regs_eq h]

theorem chipId_countR (s : State) (r : Reg) (k n w : Nat) (h : regKey r k w ≠ 0x18) : chipId (countR s r k n w) = chipId s :=
  getF_countR_key s r f_CHIP_FAB_ID_CHIP_ID k 0 n w 0 h

section
variable (s : State) (r : MemReq) (dst : Nat)

theorem chipId_demote : chipId (demote s r).2 = chipId s := by
  have h1 : chipId (countR s r_QOS_DEMOTED 0 r.len) = chipId s := chipId_countR s _ _ _ _ (by decide)
  unfold demote
  dsimp only
  split
  · refine (chipId_countR _ _ _ _ _ ?_).trans h1
    simp only [regKey, r_QOS_IMG_DEMOTE]
    omega
  · exact h1

/-- A request that leaves its master takes a label and a deadline there, and nothing else of it changes. -/
theorem regulate_request : ∃ l d, (regulate s r dst).1 = { r with label := l, deadline := d } := by
  unfold regulate
  split
  · exact ⟨_, _, rfl⟩
  · dsimp only
    split
    · exact ⟨_, _, rfl⟩
    · exact ⟨_, _, rfl⟩

theorem chipId_regulate : chipId (regulate s r dst).2 = chipId s := by
  unfold regulate
  split
  · rfl
  · dsimp only
    split
    · exact chipId_demote s r
    · rfl

end

theorem launch_here {s : State} {r : MemReq} (id : Nat) (hc : gpaChip r.gpa = chipId s) (hl : gpaLocal r.gpa < hostWindow) :
    launch s id r = setReq s id r := by
  unfold launch
  rw [if_pos hc, if_neg (Nat.not_le.mpr hl)]

theorem mustHold_of_no_other {s : State} {r : MemReq} (id : Nat) (h : ∀ kv ∈ s.reqs, kv.2.master ≠ r.master) :
    mustHold s id r = false := by
  refine List.any_eq_false.2 fun kv hkv => ?_
  simp [h kv hkv]

/-- A master's request under its number, in the state that gave the number, before its label. -/
def numbered (s : State) (r : MemReq) (dst : Nat) : MemReq := { r with issued := s.now, dst := dst }

theorem sendReq_eq (s : State) (r : MemReq) (dst : Nat) : sendReq s r dst =
    (s.nextId, if mustHold (fresh s).2 s.nextId (regulate (fresh s).2 (numbered s r dst) dst).1 then
        setReq (fresh s).2 s.nextId { numbered s r dst with stage := .held }
      else launch (regulate (fresh s).2 (numbered s r dst) dst).2 s.nextId (regulate (fresh s).2 (numbered s r dst) dst).1) := rfl

/-- What a request to this chip's memory is once its master has sent it: under its number, sent or held back. -/
theorem sendReq_here {s : State} {r : MemReq} (dst : Nat) (hc : gpaChip r.gpa = chipId s) (hl : gpaLocal r.gpa < hostWindow) :
    ∃ l d st, mfind (sendReq s r dst).2.reqs s.nextId = some { numbered s r dst with label := l, deadline := d, stage := st }
      ∧ (st = r.stage ∨ st = .held) ∧ ((∀ kv ∈ s.reqs, kv.2.master ≠ r.master) → st = r.stage) := by
  obtain ⟨l, d, hq⟩ := regulate_request (fresh s).2 (numbered s r dst) dst
  have hchip := chipId_regulate (fresh s).2 (numbered s r dst) dst
  have hout : launch (regulate (fresh s).2 (numbered s r dst) dst).2 s.nextId (regulate (fresh s).2 (numbered s r dst) dst).1 =
      setReq (regulate (fresh s).2 (numbered s r dst) dst).2 s.nextId (regulate (fresh s).2 (numbered s r dst) dst).1 :=
    launch_here _ (by rw [hq]; exact hc.trans hchip.symm) (by rw [hq]; exact hl)
  rw [sendReq_eq, hout, hq]
  dsimp only
  split
  · next hheld =>
    refine ⟨r.label, r.deadline, .held, by simp [setReq, mfind_mput, numbered], .inr rfl, fun hno => ?_⟩
    exact absurd hheld (by rw [mustHold_of_no_other _ (by exact hno)]; decide)
  · exact ⟨l, d, r.stage, by simp [setReq, mfind_mput, numbered], .inl rfl, fun _ => rfl⟩

/-! ## Ending requests -/

theorem forgetReqs_of_noHeld {s : State} (h : NoHeld s) (p : Nat → MemReq → Bool) :
    forgetReqs s p = { s with reqs := s.reqs.filter (fun kv => !p kv.1 kv.2) } := by
  have hnone : s.reqs.filter (fun kv => kv.2.stage = .held) = [] :=
    List.filter_eq_nil_iff.2 fun kv hkv => by simpa using h kv hkv
  unfold forgetReqs
  dsimp only
  rw [hnone]
  rfl

theorem dropReq_of_noHeld {s : State} (h : NoHeld s) (id : Nat) :
    dropReq s id = { s with reqs := s.reqs.filter (fun kv => !decide (kv.1 = id)) } := forgetReqs_of_noHeld h _

theorem mfind_dropReq_of_noHeld {s : State} (h : NoHeld s) (id : Nat) : mfind (dropReq s id).reqs id = none := by
  rw [dropReq_of_noHeld h]
  refine Option.eq_none_iff_forall_ne_some.2 fun r hr => ?_
  have := List.of_mem_filter (mem_of_mfind hr)
  simp at this

theorem readMiss_of_no_deadline {r : MemReq} (h : r.deadline = none) (s : State) : readMiss s r = s := by
  unfold readMiss missCheck
  rw [h]
  split <;> rfl

theorem countPoison_zero (s : State) : countPoison s 0 = s := rfl

theorem countPoison_cores (s : State) (bad : Nat) : (countPoison s bad).cores = s.cores := (countPoison_frame s bad).cores (by decide)

theorem reqEnd_done {r : MemReq} (hs : r.stage = .done) (he : r.err = 0) (s : State) : reqEnd s r = some (r.data, r.poison, 0) := by
  simp [reqEnd, readBack, hs, he]

/-! ## Tiles (R292) -/

theorem sameGroups_setBatch {s : State} {c : Nat} {b b' : Batch} (hb : batchOf s c = some b) (h : b'.groups = b.groups) :
    SameGroups s (setBatch s c (some b')) := by
  intro x g
  rw [groupOf_setBatch_some]
  split
  · next hx => rw [← hx, groupOf_eq hb, h]
  · rfl

theorem stallTime_groups (s : State) (t : Tile) (n : Nat) : SameGroups s (stallTime s t n) := by
  unfold stallTime
  dsimp only
  split
  · split
    · next hb => exact sameGroups_setBatch hb rfl
    · exact fun _ _ => rfl
  · split
    · exact fun _ _ => rfl
    · refine .of_cores_eq ?_
      split <;> split <;> rfl

theorem unstall_groups (s : State) (id : Nat) : SameGroups s (unstall s id) := by
  unfold unstall
  split
  · split
    · exact (stallTime_groups _ _ _).trans (.of_cores_eq rfl)
    · exact .of_cores_eq rfl
  · exact .of_cores_eq rfl

theorem dropTile_groups (s : State) (id : Nat) : SameGroups s (dropTile s id) :=
  (unstall_groups s id).trans (.of_cores_eq ((noteWaiting_frame _).cores (by decide)))

theorem dropTile_tiles (s : State) (id : Nat) : (dropTile s id).tiles = mdel s.tiles id := by
  unfold dropTile
  dsimp only
  rw [(noteWaiting_frame _).tiles (by decide)]
  simp only
  rw [(unstall_frame s id).tiles (by decide)]

end Sys2Proof.Machine
end

section
/-! O10: a translated tile issues (R75, R292, R414). -/

namespace Sys2Proof.Machine

section
variable {s : State} {x : Tile} {tid : Nat}

/-- The operation that a thread's lane asks of memory. -/
def ThreadOp.reqOp (o : ThreadOp) : ReqOp :=
  match o.kind with
  | .load => .read
  | .store => .write
  | _ => .atomic o.sub (2 ^ o.size) o.sx (opReturns o)

/-- The request of one lane of a thread's operation. -/
def laneReq (s : State) (x : Tile) (op : Nat) (o : ThreadOp) (a : LaneAcc) (ga hint : Nat) : MemReq :=
  { MemReq.make o.reqOp (.thread op a.lane) ga (2 ^ o.size) a.data x.label hint x.inst x.space x.master x.die
      (worldOf s x.slot = 1) with epoch := epochOf s x.inst, data2 := a.data2 }

/-- The request of an instruction line. -/
def fetchReq (s : State) (x : Tile) (c line ga hint : Nat) : MemReq :=
  { MemReq.make .read (.fetch c line) ga 256 [] x.label hint x.inst x.space x.master x.die (worldOf s x.slot = 1) with
    epoch := epochOf s x.inst }

/-- A group whose access has issued: its loaded registers await the data, and it goes on. -/
def Group.issued (g : Group) (op : Nat) (o : ThreadOp) : Group :=
  { g with
    wait := .ready, pc := nextPc g
    pend := if opReturns o then g.pend ++ (dataRegs o.data (sizeRegs o.size)).map (fun r => (op, r)) else g.pend }

/-- The state after a lane's request has left, before its group goes on. -/
def laneSent (s : State) (tid : Nat) (x : Tile) (op : Nat) (o : ThreadOp) (a : LaneAcc) (ga hint : Nat) : State :=
  dropTile (sendReq { s with ops := mput s.ops op { o with left := [] } } (laneReq s x op o a ga hint) 1).2 tid

/-- What a lane of an issued access does: its request leaves for the place of its address. -/
def sendLane (s0 : State) (x : Tile) (op : Nat) (o : ThreadOp) (ps : List (Nat × Place)) (s : State) (a : LaneAcc) : State :=
  match (ps.find? (fun p => p.1 = a.va)).map Prod.snd with
  | some (.at g dst hint) =>
    (sendReq s { MemReq.make o.reqOp (.thread op a.lane) g (2 ^ o.size) a.data x.label hint x.inst x.space x.master x.die
      (worldOf s0 x.slot = 1) with epoch := epochOf s x.inst, data2 := a.data2 } dst).2
  | _ => s

/-- The group of an issued access goes on. -/
def goOn (s : State) (op : Nat) (o : ThreadOp) : State :=
  match groupOf s o.core o.grp with
  | none => s
  | some g => retire s o.core o.grp (g.issued op o)

theorem issueOp_eq (s : State) (tid op : Nat) (x : Tile) (o : ThreadOp) (ps : List (Nat × Place)) : issueOp s tid op x o ps =
    settleOp (goOn (dropTile (o.lanes.foldl (sendLane s x op o ps) { s with ops := mput s.ops op { o with left := [] } }) tid) op o)
      op := rfl

theorem sendLane_one (s s' : State) (x : Tile) (op : Nat) (o : ThreadOp) (a : LaneAcc) (ga hint : Nat) :
    sendLane s x op o [(a.va, .at ga 1 hint)] s' a = (sendReq s' { laneReq s x op o a ga hint with epoch := epochOf s' x.inst } 1).2 := by
  unfold sendLane
  rw [List.find?_cons_of_pos (by simp)]
  rfl

theorem goOn_some {op : Nat} {o : ThreadOp} {g : Group} (hg : groupOf s o.core o.grp = some g) :
    goOn s op o = retire s o.core o.grp (g.issued op o) := by simp only [goOn, hg]

theorem issueOp_one {op ga hint : Nat} {o : ThreadOp} {a : LaneAcc} {g : Group} (hl : o.lanes = [a])
    (hg : groupOf (laneSent s tid x op o a ga hint) o.core o.grp = some g) :
    issueOp s tid op x o [(a.va, .at ga 1 hint)] =
      settleOp (retire (laneSent s tid x op o a ga hint) o.core o.grp (g.issued op o)) op := by
  have hsent : o.lanes.foldl (sendLane s x op o [(a.va, .at ga 1 hint)]) { s with ops := mput s.ops op { o with left := [] } } =
      (sendReq { s with ops := mput s.ops op { o with left := [] } } (laneReq s x op o a ga hint) 1).2 := by
    rw [hl]
    exact sendLane_one ..
  rw [issueOp_eq, hsent, goOn_some (by exact hg)]
  rfl

theorem tilePlaces_one {va ga hint : Nat} (h : resolve s x.inst (worldOf s x.slot) (tileXlat x va) va = .at ga 1 hint) :
    tilePlaces s x [va] = [(va, .at ga 1 hint)] := by
  simp only [tilePlaces, List.map_cons, List.map_nil, h]

theorem tileTranslated_thread {op ga hint : Nat} {o : ThreadOp} {a : LaneAcc} (hx : mfind s.tiles tid = some x)
    (hr : tileReady x = true) (hown : x.owner = .thread op) (ho : mfind s.ops op = some o) (hb : batchRuns s o.core = true)
    (hs : issueStopped s o.core = false) (hl : o.lanes = [a])
    (h : resolve s x.inst (worldOf s x.slot) (tileXlat x a.va) a.va = .at ga 1 hint) :
    exec (.tileTranslated tid) s = .next (issueOp s tid op x o [(a.va, .at ga 1 hint)]) := by
  change execTileTranslated tid s = _
  unfold execTileTranslated
  simp only [hx, hr, hown, ho, hb, hs, hl, List.map_cons, List.map_nil, tilePlaces_one h]
  simp [anyRefused, anyKeyBad, anyHost]

theorem tileTranslated_fetch {c line ga hint : Nat} (hx : mfind s.tiles tid = some x)
    (hr : tileReady x = true) (hown : x.owner = .fetch c line) (hb : batchRuns s c = true)
    (h : resolve s x.inst (worldOf s x.slot) (tileXlat x line) line = .at ga 1 hint) :
    exec (.tileTranslated tid) s = .next (dropTile (sendReq s (fetchReq s x c line ga hint) 1).2 tid) := by
  change execTileTranslated tid s = _
  unfold execTileTranslated
  simp only [hx, hr, hown, hb, tilePlaces_one h]
  rfl

theorem sendReq_cores (s : State) (r : MemReq) (dst : Nat) : (sendReq s r dst).2.cores = s.cores :=
  (sendReq_frame s r dst).cores (by decide)

theorem laneSent_groups (op : Nat) (o : ThreadOp) (a : LaneAcc) (ga hint : Nat) :
    SameGroups s (laneSent s tid x op o a ga hint) := by
  have hsend : (sendReq { s with ops := mput s.ops op { o with left := [] } } (laneReq s x op o a ga hint) 1).2.cores = s.cores :=
    sendReq_cores _ _ _
  exact (SameGroups.of_cores_eq hsend).trans (dropTile_groups _ _)

theorem laneSent_tiles (op : Nat) (o : ThreadOp) (a : LaneAcc) (ga hint : Nat) :
    (laneSent s tid x op o a ga hint).tiles = mdel s.tiles tid := by
  rw [laneSent, dropTile_tiles, (sendReq_frame _ _ _).tiles (by decide)]

theorem dropTile_reqs (s : State) (tid : Nat) : (dropTile s tid).reqs = s.reqs := (dropTile_frame s tid).reqs (by decide)

theorem mfind_mdel_same {α : Type} (m : SMap α) (k : Nat) : mfind (mdel m k) k = none := by rw [mfind_mdel, if_pos rfl]

/-- Settles O10: the request goes out under the next number, the tile goes, and the group goes on. -/
theorem tileIssue : Obligations.TileIssue := by
  unfold Obligations.TileIssue
  intro tid s x hx hr
  refine ⟨?_, ?_⟩
  · intro op o g a ga hint hown ho hb hs hg hl hres hchip hloc
    obtain ⟨l, d, st, hfind, hst, hfree⟩ := sendReq_here (s := { s with ops := mput s.ops op { o with left := [] } })
      (r := laneReq s x op o a ga hint) 1 hchip hloc
    have hg' := (laneSent_groups (s := s) (tid := tid) (x := x) op o a ga hint o.core o.grp).trans hg
    obtain ⟨b, hb', -⟩ := Option.bind_eq_some_iff.1 (show (batchOf _ o.core).bind _ = some g from hg')
    obtain ⟨hsr, hur, hpr, har, -, -, -, hpend, hwait⟩ := settle_kept (g.issued op o)
    rw [Gives, tileTranslated_thread hx hr hown ho hb hs hl hres, issueOp_one hl hg']
    refine ⟨_, rfl, ?_, ⟨{ numbered s (laneReq s x op o a ga hint) 1 with label := l, deadline := d, stage := st }, ?_, rfl, rfl,
      rfl, hst, hfree, rfl⟩, settle (g.issued op o), ?_, hwait, ⟨hsr, hur, har, hpr⟩, hpend⟩
    · rw [(settleOp_frame _ _).tiles (by decide), (retire_frame _ _ _ _).tiles (by decide), laneSent_tiles, mfind_mdel_same]
    · rw [(settleOp_frame _ _).reqs (by decide), (retire_frame _ _ _ _).reqs (by decide), laneSent, dropTile_reqs]
      exact hfind
    · rw [groupOf_of_cores_eq ((settleOp_frame _ _).cores (by decide)), groupOf_retire hb', if_pos rfl]
  · intro c line ga hint hown hb hres hchip hloc
    obtain ⟨l, d, st, hfind, -, -⟩ := sendReq_here (s := s) (r := fetchReq s x c line ga hint) 1 hchip hloc
    rw [Gives, tileTranslated_fetch hx hr hown hb hres]
    refine ⟨_, rfl, ?_, { numbered s (fetchReq s x c line ga hint) 1 with label := l, deadline := d, stage := st }, ?_, rfl, rfl,
      rfl, rfl⟩
    · rw [dropTile_tiles, (sendReq_frame _ _ _).tiles (by decide), mfind_mdel_same]
    · rw [dropTile_reqs]
      exact hfind

end

end Sys2Proof.Machine
end

section
/-! O11: what comes back to the registers of a thread (R76, R100, R254). -/

namespace Sys2Proof.Machine

section
variable {s : State} {op : Nat} {o : ThreadOp} {g : Group} {b : Batch}

/-! ## The data of a load -/

/-- A group without the registers that await an operation. -/
def Group.free (g : Group) (op : Nat) : Group := { g with pend := g.pend.filter (fun p => p.1 ≠ op) }

/-- The state once the one request of a load is over. -/
def loadEnded (s : State) (id op bad : Nat) : State :=
  { countPoison (dropReq s id) bad with ops := mdel (countPoison (dropReq s id) bad).ops op }

theorem dropReq_cores_of_noHeld (h : NoHeld s) (id : Nat) : (dropReq s id).cores = s.cores := by rw [dropReq_of_noHeld h]

theorem loadEnded_cores (h : NoHeld s) (id op bad : Nat) : (loadEnded s id op bad).cores = s.cores := by
  show (countPoison (dropReq s id) bad).cores = s.cores
  rw [countPoison_cores, dropReq_of_noHeld h]

theorem loadEnded_kernels (h : NoHeld s) (id op bad : Nat) : (loadEnded s id op bad).kernels = s.kernels := by
  show (countPoison (dropReq s id) bad).kernels = s.kernels
  rw [(countPoison_frame _ _).kernels (by decide), dropReq_of_noHeld h]

theorem setGroup_kernels (s : State) (c g : Nat) (gr : Group) : (setGroup s c g gr).kernels = s.kernels := by
  unfold setGroup
  split <;> rfl

theorem setGroup_reqs (s : State) (c g : Nat) (gr : Group) : (setGroup s c g gr).reqs = s.reqs := by
  unfold setGroup
  split <;> rfl

theorem setGroup_silkReplies (s : State) (c g : Nat) (gr : Group) : (setGroup s c g gr).silkReplies = s.silkReplies := by
  unfold setGroup
  split <;> rfl

theorem setGroup_ops (s : State) (c g : Nat) (gr : Group) : (setGroup s c g gr).ops = s.ops := by
  unfold setGroup
  split <;> rfl

theorem loadDataReturn_one {id : Nat} {r : MemReq} (ho : mfind s.ops op = some o) (hawake : asleep s o.core = false)
    (hk : o.kind = .load) (hleft : o.left = []) (hreq : reqsOfOp s op = [(id, r)]) (hdone : r.stage = .done) (herr : r.err = 0)
    (hdl : r.deadline = none) :
    exec (.loadDataReturn op) s = .next (returnLanes (countPoison (dropReq s id) r.poison) op o
      [(laneOfReq r, r.data, r.poison, 0)]) := by
  have hret : opReturns o = true := by simp [opReturns, hk]
  have hwait : isSilkWait o = false := by simp [isSilkWait, hk]
  change execLoadDataReturn op s = _
  unfold execLoadDataReturn
  simp [ho, hk, hwait, hret, hleft, hawake, hreq, reqEnd_done hdone herr, readMiss_of_no_deadline hdl]

/-- The clean lane of a load: its registers get the data, and await nothing more. -/
theorem returnLanes_clean {lane : Nat} {data : List Byte} (hg : groupOf s o.core o.grp = some g) (hb : batchOf s o.core = some b)
    (hw : b.why = .running) (hk : o.kind = .load) :
    returnLanes s op o [(lane, data, 0, 0)] = setGroup { s with ops := mdel s.ops op } o.core o.grp
      ((writeData g o.data o.size o.sx lane data).free op) := by
  unfold returnLanes
  simp only [show groupOf { s with ops := mdel s.ops op } o.core o.grp = some g from hg,
    show batchOf { s with ops := mdel s.ops op } o.core = some b from hb]
  simp [hw, hk, Group.free]

/-- A poisoned lane: the registers await nothing more, and the group's kernel stops at the load. -/
theorem returnLanes_poisoned {lane bad : Nat} {data : List Byte} (hg : groupOf s o.core o.grp = some g) (hbad : bad ≠ 0) :
    ∃ lanes addr, returnLanes s op o [(lane, data, bad, 0)] =
        coreFault (setGroup { s with ops := mdel s.ops op } o.core o.grp (g.free op)) o.core
          { groupFault (setGroup { s with ops := mdel s.ops op } o.core o.grp (g.free op)) o.core o.grp errDataPoison lanes lane
              (BitVec.ofNat 64 addr) with pc := o.pc }
      ∧ addr = ((o.lanes.find? (fun a => a.lane = lane)).map LaneAcc.va).getD 0 := by
  refine ⟨laneMask [lane], _, ?_, rfl⟩
  unfold returnLanes
  simp only [show groupOf { s with ops := mdel s.ops op } o.core o.grp = some g from hg]
  simp [hbad, Group.free]

theorem groupOf_coreFault_first {c n : Nat} (hb : batchOf s c = some b) (hw : b.why = .running)
    (hk : (kernel s b.kernel).fault = none) (fi : FaultInfo) : groupOf (coreFault s c fi) c n = groupOf s c n := by
  obtain ⟨-, -, hbatch, -⟩ := coreFault_first hb hw hk fi
  rw [groupOf_eq hbatch, groupOf_eq hb]

/-- A first fault raised with the change of a group: the group's new state, and the kernel's record. -/
theorem coreFault_setGroup {c n : Nat} (hg : groupOf s c n = some g) (hb : batchOf s c = some b) (hw : b.why = .running)
    (hk : (kernel s b.kernel).fault = none) (g' : Group) (fi : FaultInfo) :
    groupOf (coreFault (setGroup s c n g') c fi) c n = some g' ∧
      (kernel (coreFault (setGroup s c n g') c fi) b.kernel).fault = some fi := by
  have hb' : batchOf (setGroup s c n g') c = some { b with groups := mput b.groups n g' } := by
    rw [setGroup_eq hb, batchOf_setBatch, if_pos rfl]
  have hk' : (kernel (setGroup s c n g') b.kernel).fault = none := by rw [kernel_of_kernels_eq (setGroup_kernels ..)]; exact hk
  refine ⟨?_, (coreFault_first hb' hw hk' fi).1⟩
  rw [groupOf_coreFault_first hb' hw hk', groupOf_setGroup hg, if_pos rfl]

/-! ## The value of a Silk READ -/

/-- A group that has its value in a u register. -/
def Group.gotValue (g : Group) (op k : Nat) (v : Word) : Group := { g with uregs := mset 0 g.uregs k v }.free op

theorem silkLate_cores (s : State) (sent : DWord) (bound master inst : Nat) : (silkLate s sent bound master inst).cores = s.cores :=
  (silkLate_frame ..).cores (by decide)

/-- The state once a Silk READ is over. -/
def silkReadEnded (s : State) (op : Nat) (o : ThreadOp) (r : SilkReply) : State :=
  silkLate { s with silkReplies := mdel s.silkReplies op, ops := mdel s.ops op } r.sent silkReadBound (masterCore o.core)
    (kernel s o.kernel).inst

theorem silkReadEnded_groups (s : State) (op : Nat) (o : ThreadOp) (r : SilkReply) : SameGroups s (silkReadEnded s op o r) :=
  .of_cores_eq (silkLate_cores _ _ _ _ _)

theorem loadDataReturn_silkRead {r : SilkReply} {k : Nat} (ho : mfind s.ops op = some o) (hg : groupOf s o.core o.grp = some g)
    (hawake : asleep s o.core = false) (hkind : o.kind = .silkRead) (hr : mfind s.silkReplies op = some r)
    (hi : r.instar = instarOf s (.core o.core)) (hk : k < 32) (hd : o.data = 0x40 + k) :
    exec (.loadDataReturn op) s = .next (setGroup (silkReadEnded s op o r) o.core o.grp
      (g.gotValue op k (BitVec.setWidth 32 r.value))) := by
  have hkind' : rkind (0x40 + k) ≠ .a := by
    unfold rkind
    rw [if_neg (by omega), if_pos (by omega)]
    decide
  have hg' := (silkReadEnded_groups s op o r o.core o.grp).trans hg
  change execLoadDataReturn op s = _
  unfold execLoadDataReturn
  simp only [ho, hkind, hr, hawake, if_true]
  rw [if_neg (by decide), if_neg (by exact fun h => h hi)]
  change Host.Outcome.next (match groupOf (silkReadEnded s op o r) o.core o.grp with | none => _ | some g => _) = _
  rw [hg']
  simp only [hd, if_neg hkind', Nat.add_sub_cancel_left]
  rfl

/-- Settles O11: the operation ends, and its group gets the data, the fault or the value. -/
theorem dataReturns : Obligations.DataReturns := by
  unfold Obligations.DataReturns
  intro op s o g b ho hg hb hw hawake
  refine ⟨?_, ?_⟩
  · intro id r a hk hleft hlanes hreq hdone herr howner hdl hheld
    have hlane : laneOfReq r = a.lane := by simp [laneOfReq, howner]
    have hcores : (countPoison (dropReq s id) r.poison).cores = s.cores := loadEnded_cores hheld id op r.poison
    have hg' := (groupOf_of_cores_eq hcores o.core o.grp).trans hg
    have hb' := (batchOf_of_cores_eq hcores o.core).trans hb
    have hexec := loadDataReturn_one ho hawake hk hleft hreq hdone herr hdl
    rw [hlane] at hexec
    refine ⟨fun hclean => ?_, fun hbad hfault => ?_⟩
    · rw [hclean] at hexec hg' hb'
      rw [returnLanes_clean hg' hb' hw hk] at hexec
      obtain ⟨-, ⟨-, -, hpend⟩, -⟩ := writeData_regsOnly g o.data o.size o.sx a.lane r.data
      refine ⟨_, hexec, ?_, ?_, (writeData g o.data o.size o.sx a.lane r.data).free op, ?_, ?_, rfl, rfl, rfl, rfl⟩
      · rw [setGroup_reqs]
        exact mfind_dropReq_of_noHeld hheld id
      · rw [setGroup_ops]
        exact mfind_mdel_same ..
      · rw [groupOf_setGroup (by exact hg'), if_pos rfl]
      · simp only [Group.free, hpend]
    · obtain ⟨lanes, addr, hret, haddr⟩ := returnLanes_poisoned (op := op) (lane := a.lane) (data := r.data) hg' hbad
      rw [hlanes, List.find?_cons_of_pos (by simp), Option.map_some, Option.getD_some] at haddr
      have hkern : kernel (loadEnded s id op r.poison) b.kernel = kernel s b.kernel :=
        kernel_of_kernels_eq (loadEnded_kernels hheld id op r.poison) _
      obtain ⟨hgroup, hf⟩ := coreFault_setGroup (s := loadEnded s id op r.poison) (g := g) (b := b) (by exact hg') (by exact hb') hw
        (by rw [hkern]; exact hfault) (g.free op)
        { groupFault (setGroup (loadEnded s id op r.poison) o.core o.grp (g.free op)) o.core o.grp errDataPoison lanes a.lane
            (BitVec.ofNat 64 addr) with pc := o.pc }
      refine ⟨_, hexec.trans (congrArg _ hret), ⟨_, hgroup, rfl, rfl, rfl, rfl⟩, _, hf, rfl, rfl, ?_⟩
      rw [← haddr]
      rfl
  · intro r k hkind hr hi hk hd
    refine ⟨_, loadDataReturn_silkRead ho hg hawake hkind hr hi hk hd, ?_, ?_, g.gotValue op k (BitVec.setWidth 32 r.value), ?_, ?_,
      rfl, rfl⟩
    · rw [setGroup_silkReplies, silkReadEnded, (silkLate_frame ..).silkReplies (by decide)]
      exact mfind_mdel_same ..
    · rw [setGroup_ops, silkReadEnded, (silkLate_frame ..).ops (by decide)]
      exact mfind_mdel_same ..
    · rw [groupOf_setGroup ((silkReadEnded_groups s op o r o.core o.grp).trans hg), if_pos rfl]
    · exact (mget_mset ..).trans (if_pos rfl)

end

end Sys2Proof.Machine
end

section
/-! O12: the fetch of an instruction line (R545), with what the start of a tile leaves (R292). -/

namespace Sys2Proof.Machine

/-! ## What the tables of tiles keep -/

/-- What of a tile its translation never changes. -/
def Tile.what (x : Tile) : TileOwner × List Nat × Nat := (x.owner, x.pages, x.rights)

/-- Every tile is there as before, but for the progress of its translation. -/
def SameTiles (s t : State) : Prop := ∀ i, (mfind t.tiles i).map Tile.what = (mfind s.tiles i).map Tile.what

section
variable {s t u : State}

theorem SameTiles.refl (s : State) : SameTiles s s := fun _ => rfl

theorem SameTiles.trans (h : SameTiles s t) (h' : SameTiles t u) : SameTiles s u := fun i => (h' i).trans (h i)

theorem SameTiles.of_tiles_eq (h : t.tiles = s.tiles) : SameTiles s t := fun i => by rw [h]

theorem SameTiles.of_mput {id : Nat} {x x' : Tile} (h : mfind s.tiles id = some x) (hx : x'.what = x.what)
    (ht : t.tiles = mput s.tiles id x') : SameTiles s t := by
  intro i
  rw [ht, mfind_mput]
  split
  · next hi => rw [← hi, h, Option.map_some, Option.map_some, hx]
  · rfl

theorem SameTiles.setTile {id : Nat} {x x' : Tile} (h : mfind s.tiles id = some x) (hx : x'.what = x.what) :
    SameTiles s (setTile s id x') := .of_mput h hx rfl

theorem SameTiles.setTile_in {id : Nat} {x x' : Tile} (hu : u.tiles = s.tiles) (h : mfind s.tiles id = some x)
    (hx : x'.what = x.what) : SameTiles s (Machine.setTile u id x') :=
  .of_mput h hx (congrArg (fun m => mput m id x') hu)

theorem SameTiles.foldl {α : Type} {f : State → α → State} (hf : ∀ s a, SameTiles s (f s a)) (l : List α) (s : State) :
    SameTiles s (l.foldl f s) := by
  induction l generalizing s with
  | nil => exact .refl s
  | cons a l ih => exact (hf s a).trans (ih _)

end

section
variable (s : State) (id : Nat)

theorem stallTile_sameTiles {s : State} {id : Nat} {x x' : Tile} (h : mfind s.tiles id = some x) (hx : x'.what = x.what) :
    SameTiles s (stallTile s id x') := by
  unfold stallTile
  dsimp only
  split
  · exact .of_mput h (x' := { x' with stalled := true, held := [] }) hx rfl
  · split
    · exact .of_mput h (x' := { x' with
        stalled := true, wantsEntry := true, held := [], faults := walkOrder x'.pages (mergeFaults x'.faults) }) hx rfl
    · refine .setTile_in ?_ h ?_
      · exact (trackAll_frame _ _ _ _ _ _).tiles (by decide)
      · exact hx

theorem checkTile_sameTiles : SameTiles s (checkTile s id) := by
  unfold checkTile
  split
  · exact .refl s
  · next h =>
    split
    · exact stallTile_sameTiles h rfl
    · exact .refl s

theorem faultTile_sameTiles (level reason va size : Nat) : SameTiles s (faultTile s id level reason va size) := by
  unfold faultTile
  split
  · exact .refl s
  · next x h =>
    dsimp only
    refine .trans ?_ (checkTile_sameTiles _ _)
    exact .setTile h rfl

theorem failWalk_sameTiles (w : Walk) (reason leaf : Nat) : SameTiles s (failWalk s id w reason leaf) :=
  SameTiles.trans (.of_tiles_eq rfl) (SameTiles.foldl (fun _ _ => faultTile_sameTiles _ _ _ _ _ _) _ (dropWalk s id))

theorem walkRead_sameTiles (w : Walk) (size : Nat) : SameTiles s (walkRead s id w size) := by
  unfold walkRead
  dsimp only
  split
  · exact failWalk_sameTiles _ _ _ _ _
  · split
    · refine .of_tiles_eq ?_
      exact (sendReq_frame ..).tiles (by decide)
    · exact SameTiles.trans (.of_tiles_eq ((countRefusal_frame ..).tiles (by decide))) (failWalk_sameTiles _ _ _ _ _)
    · exact failWalk_sameTiles _ _ _ _ _

theorem startWalk_sameTiles (x : Tile) (va : Nat) : SameTiles s (startWalk s id x va) := by
  unfold startWalk
  dsimp only
  split
  · exact .of_tiles_eq rfl
  · split
    · exact .of_tiles_eq rfl
    · exact SameTiles.trans (.of_tiles_eq rfl) (walkRead_sameTiles _ _ _ _)

theorem lookPage_sameTiles (va : Nat) : SameTiles s (lookPage s id va) := by
  unfold lookPage
  split
  · exact .refl s
  · next h =>
    split
    · exact .refl s
    · split
      · exact .setTile h rfl
      · split
        · have hfill (p : Bool) (x : Xlat) (c n : Nat) : (if p then s else tlbFill s c n x).tiles = s.tiles := by
            split
            · rfl
            · exact (tlbFill_frame ..).tiles (by decide)
          refine .setTile_in ?_ h ?_
          · exact hfill _ _ _ _
          · rfl
        · exact SameTiles.trans (.of_tiles_eq rfl) (startWalk_sameTiles _ _ _ _)

theorem unstall_tiles : (unstall s id).tiles = s.tiles := (unstall_frame s id).tiles (by decide)

theorem lookTile_sameTiles : SameTiles s (lookTile s id) := by
  unfold lookTile
  dsimp only
  split
  · exact .of_tiles_eq (unstall_tiles s id)
  · next h =>
    refine .trans (.of_tiles_eq (unstall_tiles s id)) (.trans ?_ (checkTile_sameTiles _ _))
    refine .trans ?_ (SameTiles.foldl (fun s p => lookPage_sameTiles s id p) _ _)
    refine .trans ?_ (.of_tiles_eq ((noteWaiting_frame _).tiles (by decide)))
    exact .setTile h rfl

theorem foldl_lookPage_cores (l : List Nat) : (l.foldl (fun s p => lookPage s id p) s).cores = s.cores := by
  induction l generalizing s with
  | nil => rfl
  | cons p l ih => exact (ih _).trans ((lookPage_frame ..).cores (by decide))

theorem lookTile_groups : SameGroups s (lookTile s id) := by
  unfold lookTile
  dsimp only
  split
  · exact unstall_groups s id
  · refine (unstall_groups s id).trans (.of_cores_eq ?_)
    rw [(checkTile_frame ..).cores (by decide), foldl_lookPage_cores, (noteWaiting_frame _).cores (by decide)]
    rfl

/-- A new tile stands under the next number, whatever of its translation is known at once. -/
theorem newTile_stands (x : Tile) : ∃ y, mfind (newTile s x).2.tiles s.nextId = some y ∧ y.what = x.what := by
  have h := lookTile_sameTiles (setTile (fresh s).2 s.nextId x) s.nextId s.nextId
  rw [show (setTile (fresh s).2 s.nextId x).tiles = mput s.tiles s.nextId x from rfl, mfind_mput, if_pos rfl] at h
  exact Option.map_eq_some_iff.1 h

theorem newTile_groups (x : Tile) : SameGroups s (newTile s x).2 :=
  SameGroups.trans (.of_cores_eq rfl) (lookTile_groups (setTile (fresh s).2 s.nextId x) s.nextId)

end

/-! ## Instruction lines -/

section
variable {s : State} {c line id : Nat} {r : MemReq}

theorem ifetchLineReturn_done (hawake : asleep s c = false) (hfind : s.reqs.find? (fun kv => kv.2.owner = .fetch c line) = some (id, r))
    (hdone : r.stage = .done) (herr : r.err = 0) (hdl : r.deadline = none) :
    exec (.ifetchLineReturn c line) s = .next (if r.poison ≠ 0 then lineFault (countPoison (dropReq s id) r.poison) c line errDataPoison
      else modCore (dropReq s id) c (fun k => { k with icache := if k.icache.contains line then k.icache else k.icache ++ [line] })) := by
  change execIfetchLineReturn c line s = _
  unfold execIfetchLineReturn
  simp only [hawake, hfind, reqEnd_done hdone herr, readMiss_of_no_deadline hdl]
  by_cases hp : r.poison = 0
  · simp [hp, countPoison_zero]
  · simp [hp]

theorem lineFault_eq {b : Batch} {g : Nat} {gr : Group} (code : Nat) (hb : batchOf s c = some b)
    (hfirst : b.groups.find? (fun kv => !kv.2.ended && lineOf kv.2.pc = line) = some (g, gr)) (hg : groupOf s c g = some gr) :
    lineFault s c line code =
      coreFault s c ⟨code, s.now, c, g, gr.lin, b.index, lowLane gr.active, gr.active, gr.pc, gr.pc, none⟩ := by
  simp only [lineFault, hb, hfirst, threadFault, groupFault_eq hb hg]

/-- Settles O12: the fetch is a new tile, and its request's end enters the line or stops the kernel. -/
theorem instructionFetch : Obligations.InstructionFetch := by
  unfold Obligations.InstructionFetch
  refine ⟨?_, ?_⟩
  · intro c g s gr hready hcode hline htile hreq
    obtain ⟨b, hb, hg, -⟩ := readyGroup_some hready
    refine ⟨(newTile s ⟨.fetch c (lineOf gr.pc), (kernelOn s c).space, (kernelOn s c).inst, (kernelOn s c).slot, dieOfCore s c, c, 1,
      (kernelOn s c).lb.mode % 8, c, [lineOf gr.pc], [], [], [], false, false⟩).2, ?_, ?_, ?_⟩
    · change execIfetchLine c g s = _
      simp only [execIfetchLine, hready, hcode, hline, htile, hreq]
      rfl
    · exact (newTile_groups s _ c g).trans ((groupOf_eq hb g).trans hg)
    · obtain ⟨x, hx, hwhat⟩ := newTile_stands s ⟨.fetch c (lineOf gr.pc), (kernelOn s c).space, (kernelOn s c).inst,
        (kernelOn s c).slot, dieOfCore s c, c, 1, (kernelOn s c).lb.mode % 8, c, [lineOf gr.pc], [], [], [], false, false⟩
      simp only [Tile.what, Prod.mk.injEq] at hwhat
      exact ⟨x, hx, hwhat⟩
  · intro c line id s r hawake hfind hdone herr hdl hheld
    refine ⟨fun hclean => ?_, fun b g gr hbad hb hw hfault hfirst hg => ?_⟩
    · refine ⟨_, ifetchLineReturn_done hawake hfind hdone herr hdl, ?_, ?_, fun l hl => ?_⟩
      all_goals rw [if_neg (by simp [hclean])]
      · rw [core_modCore, if_pos rfl]
        dsimp only
        split
        · next hin => exact hin
        · simp
      · exact mfind_dropReq_of_noHeld hheld id
      · rw [core_modCore, if_pos rfl, core_of_cores_eq (dropReq_cores_of_noHeld hheld id)]
        dsimp only
        split
        · exact hl
        · simp_all
    · have hcores := (countPoison_cores _ r.poison).trans (dropReq_cores_of_noHeld hheld id)
      have hb' := (batchOf_of_cores_eq hcores c).trans hb
      have hk' : (kernel (countPoison (dropReq s id) r.poison) b.kernel).fault = none := by
        change (kernel (loadEnded s id 0 r.poison) b.kernel).fault = none
        rw [kernel_of_kernels_eq (s := s) (loadEnded_kernels hheld id 0 r.poison)]
        exact hfault
      obtain ⟨hf, -, -, -⟩ := coreFault_first hb' hw hk' ⟨errDataPoison, (countPoison (dropReq s id) r.poison).now, c, g, gr.lin,
        b.index, lowLane gr.active, gr.active, gr.pc, gr.pc, none⟩
      refine ⟨_, ifetchLineReturn_done hawake hfind hdone herr hdl, ?_⟩
      rw [if_pos hbad, lineFault_eq _ hb' hfirst ((groupOf_of_cores_eq hcores c g).trans hg)]
      refine ⟨?_, _, hf, rfl, rfl, rfl⟩
      rw [coreFault_running hb' hw, (noteFault_first_spec hk' _).2.2.1, core_of_cores_eq hcores]

end

end Sys2Proof.Machine
end

section
/-! O13: the Silk instructions of the kernel's own range (R97). -/

namespace Sys2Proof.Machine

/-- The Silk instructions: each is its operation, under a kind of its own. -/
theorem exec_csilk : ∀ row ∈ [(Instr.csilkAdd, silkAdd), (.csilkRead, silkRead), (.csilkWaitge, silkWaitge), (.csilkTake, silkTake)],
    row.2 ≤ silkTake ∧ ∃ k, ∀ (t : Th) (s : State), exec (row.1 t) s = .next (csilk s t row.2 k) := by
  intro row hrow
  simp only [List.mem_cons, List.not_mem_nil, or_false] at hrow
  obtain rfl | rfl | rfl | rfl := hrow
  · exact ⟨by decide, .silkAdd, fun _ _ => rfl⟩
  · exact ⟨by decide, .silkRead, fun _ _ => rfl⟩
  · exact ⟨by decide, .silkWait, fun _ _ => rfl⟩
  · exact ⟨by decide, .silkTake, fun _ _ => rfl⟩

theorem bitsOf_of_lt {a n : Nat} (lo w : Nat) (h : a < 2 ^ n) (hn : n ≤ lo) : bitsOf a lo w = 0 := by
  rw [bitsOf, Nat.div_eq_of_lt (h.trans_le (Nat.pow_le_pow_right (by decide) hn)), Nat.zero_mod]

theorem bitsOf_zero_of_lt {a n : Nat} (h : a < 2 ^ n) : bitsOf a 0 n = a := by
  rw [bitsOf, pow_zero, Nat.div_one, Nat.mod_eq_of_lt h]

theorem bitAt_of_lt {a n : Nat} (h : a < 2 ^ n) : bitAt a n = false := by
  rw [bitAt, Nat.div_eq_of_lt h]
  rfl

section
variable {s : State} {t : Th} {g : Group} {b : Batch} {n op : Nat} {k : ThreadKind}

/-- The group of a Silk instruction: READ's register awaits the value, WAITGE and TAKE wait. -/
def Group.silkSent (g : Group) (op id d : Nat) : Group :=
  if op = silkRead then { g with pc := nextPc g, pend := g.pend ++ [(id, d)] }
  else if op = silkAdd then { g with pc := nextPc g } else { g with pc := nextPc g, wait := .silk id }

/-- The state once the group of a Silk instruction has gone on, before its message is sent. -/
def silkGone (s : State) (t : Th) (g : Group) (b : Batch) (op : Nat) (k : ThreadKind) : State :=
  retire { (fresh s).2 with ops := mput s.ops s.nextId (silkOp k t b g 0 (epochOf s (kernel s b.kernel).inst) s.now) }
    t.core t.grp (g.silkSent op s.nextId (fD t))

/-- The message of Silk operation `id` to counter `a` of its kernel's range. -/
def silkAsk (s : State) (t : Th) (g : Group) (i op a id : Nat) : SilkMsg :=
  ⟨op, getF s f_SILK_RANGE_BASE i + a, silkValue g (fD t), .group t.core t.grp id, i, instarOf s (.inst i), epochOf s i, s.now⟩

theorem silkAsk_congr {u : State} (hr : u.regs = s.regs) (hi : u.instars = s.instars) (hn : u.now = s.now) (i a id : Nat) :
    silkAsk u t g i op a id = silkAsk s t g i op a id := by
  unfold silkAsk epochOf instarOf getF
  simp only [getR_of_regs_eq hr, hi, hn]

theorem silkGone_kept (hb : batchOf s t.core = some b) (op : Nat) (k : ThreadKind) : (silkGone s t g b op k).regs = s.regs
    ∧ (silkGone s t g b op k).instars = s.instars ∧ (silkGone s t g b op k).now = s.now
    ∧ (silkGone s t g b op k).nextId = s.nextId + 1 := by
  obtain ⟨kernels, he, -⟩ := retire_eq (g := t.grp) (s := { (fresh s).2 with
    ops := mput s.ops s.nextId (silkOp k t b g 0 (epochOf s (kernel s b.kernel).inst) s.now) }) (c := t.core) (b := b) hb
    (g.silkSent op s.nextId (fD t))
  rw [silkGone, he]
  exact ⟨rfl, rfl, rfl, rfl⟩

theorem groupOf_silkGone (hb : batchOf s t.core = some b) (op : Nat) (k : ThreadKind) :
    groupOf (silkGone s t g b op k) t.core t.grp = some (settle (g.silkSent op s.nextId (fD t))) := by
  rw [silkGone, groupOf_retire (b := b) (by exact hb), if_pos rfl]

theorem silkSent_eq (g : Group) (hop : op ≤ silkTake) (id d : Nat) : g.silkSent op id d = { g with
    pc := nextPc g
    pend := if op = silkRead then g.pend ++ [(id, d)] else g.pend
    wait := if op = silkWaitge ∨ op = silkTake then .silk id else g.wait } := by
  have hcases : op = silkAdd ∨ op = silkRead ∨ op = silkWaitge ∨ op = silkTake := by
    simp only [silkAdd, silkRead, silkWaitge, silkTake] at hop ⊢
    omega
  obtain rfl | rfl | rfl | rfl := hcases <;> rfl

/-- A Silk operation of a checked address (R97). -/
theorem csilk_own (h : Issues s t [usesPred t, fD t, fA t] g) (hl : silkLegal t = true) (hm : execMask g t ≠ 0)
    (hb : batchOf s t.core = some b) (hn : fA t = 0x60 + n) (ha : (aReg g n).toNat < 2 ^ 14)
    (hin : (aReg g n).toNat < getF s f_SILK_RANGE_SIZE (kernel s b.kernel).inst) :
    csilk s t op k = { (fresh (silkGone s t g b op k)).2 with
      silkMsgs := mput (silkGone s t g b op k).silkMsgs (silkGone s t g b op k).nextId
        (silkAsk (silkGone s t g b op k) t g (kernel s b.kernel).inst op (aReg g n).toNat s.nextId) } := by
  have hreg : fA t - 0x60 = n := by omega
  have hremote : bitAt (aReg g n).toNat 63 = false := bitAt_of_lt (ha.trans (by decide))
  unfold csilk
  rw [hl, issue_acts h]
  simp only [if_neg hm, hb, hreg, hremote, bitsOf_of_lt 14 18 ha (by decide), bitsOf_of_lt 48 15 ha (by decide),
    bitsOf_zero_of_lt ha, Nat.not_le.mpr hin]
  rfl

theorem csilk_beyond (h : Issues s t [usesPred t, fD t, fA t] g) (hl : silkLegal t = true) (hm : execMask g t ≠ 0)
    (hb : batchOf s t.core = some b) (hn : fA t = 0x60 + n) (ha : (aReg g n).toNat < 2 ^ 14)
    (hout : getF s f_SILK_RANGE_SIZE (kernel s b.kernel).inst ≤ (aReg g n).toNat) :
    csilk s t op k = threadFault s t.core t.grp errSilkRange (execMask g t) (aReg g n) := by
  have hreg : fA t - 0x60 = n := by omega
  have hremote : bitAt (aReg g n).toNat 63 = false := bitAt_of_lt (ha.trans (by decide))
  unfold csilk
  rw [hl, issue_acts h]
  simp only [if_neg hm, hb, hreg, hremote, bitsOf_of_lt 14 18 ha (by decide), bitsOf_of_lt 48 15 ha (by decide),
    bitsOf_zero_of_lt ha, hout, BitVec.ofNat_toNat, BitVec.setWidth_eq]
  rfl

/-- Settles O13: the operation goes to its counter's home under the next number but one, and its group goes on or waits. -/
theorem silkInstructions : Obligations.SilkInstructions := by
  unfold Obligations.SilkInstructions
  intro row hrow t s g b n h hl hm hb hn a i ha
  obtain ⟨hop, k, hexec⟩ := exec_csilk row hrow
  refine ⟨fun hin => ?_, fun hout => ?_⟩
  · obtain ⟨hregs, hinstars, hnow, hid⟩ := silkGone_kept (t := t) (g := g) hb row.2 k
    obtain ⟨b', -, -, hwait, -⟩ := readyGroup_some h.ready
    obtain ⟨hsr, hur, hpr, har, hflags, -, -, hpend, hwait'⟩ := settle_kept (g.silkSent row.2 s.nextId (fD t))
    rw [silkSent_eq g hop] at hsr hur hpr har hflags hpend hwait'
    refine ⟨_, (hexec t s).trans (congrArg _ (csilk_own h hl hm hb hn ha hin)), ?_, settle (g.silkSent row.2 s.nextId (fD t)), ?_, ?_⟩
    · rw [mfind_mput, if_pos hid, silkAsk_congr hregs hinstars hnow]
      rfl
    · exact (groupOf_of_cores_eq (s := silkGone s t g b row.2 k) rfl _ _).trans (groupOf_silkGone hb row.2 k)
    · rw [silkSent_eq g hop]
      refine ⟨⟨hsr, hur, har, hpr⟩, hflags, hpend, ?_, fun hpc ha => ?_⟩
      · rw [hwait', hwait]
      · rw [settle_id _ (by exact hpc) (by exact ha)]
  · exact faults_of_threadFault h.groupOf ((hexec t s).trans (congrArg _ (csilk_beyond h hl hm hb hn ha hout)))

end

end Sys2Proof.Machine
end

section
/-! What the end, the stop and the abort of a batch leave of cores, commands and operations (R68, R101, R395). -/

namespace Sys2Proof.Machine

/-! ## Cores whose batches' progress ticks alone may change -/

/-- Every core is as before, but for the progress tick of its batch. -/
def SteadyCores (s t : State) : Prop := ∀ c, core t c = { core s c with batch := (core t c).batch }
  ∧ (batchOf t c).map (fun b => { b with progress := 0 }) = (batchOf s c).map (fun b => { b with progress := 0 })

section
variable {s t u : State}

theorem SteadyCores.refl (s : State) : SteadyCores s s := fun _ => ⟨rfl, rfl⟩

theorem SteadyCores.trans (h : SteadyCores s t) (h' : SteadyCores t u) : SteadyCores s u := by
  intro c
  obtain ⟨h1, h2⟩ := h c
  obtain ⟨h1', h2'⟩ := h' c
  exact ⟨by rw [h1', h1], h2'.trans h2⟩

theorem SteadyCores.of_cores_eq (h : t.cores = s.cores) : SteadyCores s t := by
  intro c
  rw [batchOf_of_cores_eq h, core_of_cores_eq h]
  exact ⟨rfl, rfl⟩

theorem SteadyCores.batch_none {c : Nat} (h : SteadyCores s t) : batchOf t c = none ↔ batchOf s c = none := by
  obtain ⟨-, hb⟩ := h c
  rw [← Option.map_eq_none_iff, hb, Option.map_eq_none_iff]

theorem SteadyCores.batch_some {c : Nat} {b : Batch} (h : SteadyCores s t) (hb : batchOf s c = some b) :
    ∃ n, batchOf t c = some { b with progress := n } := by
  obtain ⟨-, hmap⟩ := h c
  rw [hb, Option.map_some, Option.map_eq_some_iff] at hmap
  obtain ⟨b', hb', he⟩ := hmap
  simp only [Batch.mk.injEq] at he
  obtain ⟨e1, e2, e3, e4, e5, e6, e7, e8, -, e10⟩ := he
  refine ⟨b'.progress, hb'.trans (congrArg some ?_)⟩
  cases b'
  simp_all

theorem SteadyCores.m_eq (h : SteadyCores s t) (c : Nat) : (core t c).m = (core s c).m := by
  rw [(h c).1]

theorem SteadyCores.setBatch_progress {c : Nat} {b : Batch} (hb : batchOf s c = some b) (n : DWord) :
    SteadyCores s (setBatch s c (some { b with progress := n })) := by
  intro x
  rw [batchOf_setBatch, core_setBatch]
  split
  · next hx => subst hx; exact ⟨rfl, by rw [hb]; rfl⟩
  · exact ⟨rfl, rfl⟩

theorem SteadyCores.foldl {α : Type} {f : State → α → State} (hf : ∀ s a, SteadyCores s (f s a)) (l : List α) (s : State) :
    SteadyCores s (l.foldl f s) := by
  induction l generalizing s with
  | nil => exact .refl s
  | cons a l ih => exact (hf s a).trans (ih _)

end

/-! ## Commands whose actions have not ended -/

/-- No command's action has ended or begun anew. -/
def SameFins (s t : State) : Prop := ∀ id, (mfind t.cmds id).map Cmd.fin = (mfind s.cmds id).map Cmd.fin

section
variable {s t u : State}

theorem SameFins.refl (s : State) : SameFins s s := fun _ => rfl

theorem SameFins.trans (h : SameFins s t) (h' : SameFins t u) : SameFins s u := fun id => (h' id).trans (h id)

theorem SameFins.of_cmds_eq (h : t.cmds = s.cmds) : SameFins s t := fun id => by rw [h]

theorem SameFins.of_mput {id : Nat} {v v' : Cmd} (h : mfind s.cmds id = some v) (hf : v'.fin = v.fin)
    (ht : t.cmds = mput s.cmds id v') : SameFins s t := by
  intro i
  rw [ht, mfind_mput]
  split
  · next hi => rw [← hi, h, Option.map_some, Option.map_some, hf]
  · rfl

theorem SameFins.foldl {α : Type} {f : State → α → State} (hf : ∀ s a, SameFins s (f s a)) (l : List α) (s : State) :
    SameFins s (l.foldl f s) := by
  induction l generalizing s with
  | nil => exact .refl s
  | cons a l ih => exact (hf s a).trans (ih _)

theorem mfind_modCmd {id : Nat} {v : Cmd} (h : mfind s.cmds id = some v) (f : Cmd → Cmd) :
    mfind (modCmd s id f).cmds id = some (f v) := by
  simp only [modCmd, h, mfind_mput, if_true]

/-- A command's action ends with a code, when it has not ended before. -/
theorem mfind_endCmd {id : Nat} {v : Cmd} (h : mfind s.cmds id = some v) (hf : v.fin = none) (code : Nat) :
    mfind (endCmd s id code).cmds id = some { v with fin := some code } := by
  rw [endCmd, mfind_modCmd h, hf]

end

/-! ## Tiles that go -/

section
variable (s : State)

theorem stallTime_steady (t : Tile) (n : Nat) : SteadyCores s (stallTime s t n) := by
  unfold stallTime
  dsimp only
  split
  · split
    · next hb => exact .setBatch_progress hb _
    · exact .refl s
  · split
    · exact .refl s
    · refine .of_cores_eq ?_
      split <;> split <;> rfl

theorem stallTime_fins (t : Tile) (n : Nat) : SameFins s (stallTime s t n) := by
  unfold stallTime
  dsimp only
  split
  · split <;> exact .of_cmds_eq rfl
  · split
    · exact .refl s
    · rename_i q c _
      cases hv : mfind s.cmds c with
      | none =>
        dsimp only
        split <;> exact .of_cmds_eq rfl
      | some v =>
        dsimp only
        split <;> exact .of_mput (v' := { v with stalled := v.stalled + n }) hv rfl rfl

theorem unstall_steady (id : Nat) : SteadyCores s (unstall s id) := by
  unfold unstall
  split
  · split
    · exact (stallTime_steady s _ _).trans (.of_cores_eq rfl)
    · exact .of_cores_eq rfl
  · exact .refl s

theorem unstall_fins (id : Nat) : SameFins s (unstall s id) := by
  unfold unstall
  split
  · split
    · exact (stallTime_fins s _ _).trans (.of_cmds_eq rfl)
    · exact .of_cmds_eq rfl
  · exact .refl s

theorem dropTile_steady (id : Nat) : SteadyCores s (dropTile s id) := by
  unfold dropTile
  dsimp only
  refine (unstall_steady s id).trans (.of_cores_eq ?_)
  rw [(noteWaiting_frame _).cores (by decide)]

theorem dropTile_fins (id : Nat) : SameFins s (dropTile s id) := by
  unfold dropTile
  dsimp only
  refine (unstall_fins s id).trans (.of_cmds_eq ?_)
  rw [(noteWaiting_frame _).cmds (by decide)]

theorem dropTiles_steady (p : Tile → Bool) : SteadyCores s (dropTiles s p) := by
  unfold dropTiles
  exact .foldl (f := fun s (kv : Nat × Tile) => dropTile s kv.1) (fun s kv => dropTile_steady s kv.1) _ s

theorem dropTiles_fins (p : Tile → Bool) : SameFins s (dropTiles s p) := by
  unfold dropTiles
  exact .foldl (f := fun s (kv : Nat × Tile) => dropTile s kv.1) (fun s kv => dropTile_fins s kv.1) _ s

end

/-! ## A core freed of its batch -/

section
variable (s : State) (c : Nat)

/-- The state in which all that a core's batch had is gone but the batch itself. -/
def coreDrained : State :=
  let mine := (opsOn s c).map Prod.fst
  let s' := forgetReqs (dropTiles s (tileOn s c)) (fun _ r => reqOn (dropTiles s (tileOn s c)) c r)
  dropXmov { s' with
    ops := s'.ops.filter (fun kv => kv.2.core ≠ c)
    silkWaiters := s'.silkWaiters.filter (fun w => match w.src with
      | .group _ _ op => !mine.contains op
      | _ => true)
    silkReplies := s'.silkReplies.filter (fun kv => !mine.contains kv.1) } c

theorem clearCore_eq : clearCore s c = modCore (coreDrained s c) c
    (fun k => { k with batch := none, m := Matrix.empty, idleSince := (coreDrained s c).now }) := rfl

theorem coreDrained_steady : SteadyCores s (coreDrained s c) :=
  (dropTiles_steady s _).trans (.of_cores_eq ((forgetReqs_frame (dropTiles s (tileOn s c)) _).cores (by decide)))

theorem coreDrained_fins : SameFins s (coreDrained s c) :=
  (dropTiles_fins s _).trans (.of_cmds_eq ((forgetReqs_frame (dropTiles s (tileOn s c)) _).cmds (by decide)))

theorem clearCore_kernels : (clearCore s c).kernels = s.kernels := (clearCore_frame s c).kernels (by decide)

theorem clearCore_ctxs : (clearCore s c).ctxs = s.ctxs := (clearCore_frame s c).ctxs (by decide)

theorem clearCore_fins : SameFins s (clearCore s c) := by
  rw [clearCore_eq]
  exact (coreDrained_fins s c).trans (.of_cmds_eq rfl)

theorem batchOf_modCore (i x : Nat) (f : Core → Core) :
    batchOf (modCore s i f) x = if i = x then (f (core s i)).batch else batchOf s x := by
  unfold batchOf
  rw [core_modCore]
  split <;> rfl

theorem batchOf_clearCore_self : batchOf (clearCore s c) c = none := by
  rw [clearCore_eq, batchOf_modCore, if_pos rfl]

theorem batchOf_clearCore_none {x : Nat} (h : batchOf s x = none) : batchOf (clearCore s c) x = none := by
  rw [clearCore_eq, batchOf_modCore]
  split
  · rfl
  · exact (coreDrained_steady s c).batch_none.2 h

/-- Freeing cores leaves none of them a batch, and kernels, contexts and the commands' ends as they are. -/
theorem foldl_clearCore (l : List Nat) : (∀ c, (c ∈ l ∨ batchOf s c = none) → batchOf (l.foldl clearCore s) c = none)
    ∧ (l.foldl clearCore s).kernels = s.kernels ∧ (l.foldl clearCore s).ctxs = s.ctxs ∧ SameFins s (l.foldl clearCore s) := by
  induction l generalizing s with
  | nil => exact ⟨by simp, rfl, rfl, .refl s⟩
  | cons a l ih =>
    obtain ⟨hb, hk, hx, hf⟩ := ih (clearCore s a)
    refine ⟨fun c hc => hb c ?_, hk.trans (clearCore_kernels s a), hx.trans (clearCore_ctxs s a), (clearCore_fins s a).trans hf⟩
    rcases hc with hmem | hnone
    · rcases List.mem_cons.1 hmem with rfl | htail
      · exact .inr (batchOf_clearCore_self s c)
      · exact .inl htail
    · exact .inr (batchOf_clearCore_none s a hnone)

end

/-! ## Operations that no end of a request starts -/

/-- Every operation was outstanding before. -/
def FewerOps (s t : State) : Prop := ∀ kv ∈ t.ops, kv ∈ s.ops

theorem FewerOps.of_ops_eq {s t : State} (h : t.ops = s.ops) : FewerOps s t := fun _ hkv => h ▸ hkv

theorem FewerOps.trans {s t u : State} (h : FewerOps s t) (h' : FewerOps t u) : FewerOps s u := fun kv hkv => h kv (h' kv hkv)

theorem mem_of_mem_mdel {α : Type} {m : SMap α} {k : Nat} {kv : Nat × α} (h : kv ∈ mdel m k) : kv ∈ m := by
  induction m with
  | nil => exact h
  | cons e m ih =>
    obtain ⟨n, w⟩ := e
    unfold mdel at h
    split at h
    · exact List.mem_cons_of_mem _ (ih h)
    · rcases List.mem_cons.1 h with rfl | htail
      · exact List.mem_cons_self
      · exact List.mem_cons_of_mem _ (ih htail)

section
variable (s : State)

theorem settleOp_fewer (op : Nat) : FewerOps s (settleOp s op) := by
  unfold settleOp
  split
  · exact .of_ops_eq rfl
  · split
    · exact .of_ops_eq rfl
    · exact fun _ => mem_of_mem_mdel

theorem ownerWritten_fewer (id : Nat) (r : MemReq) : FewerOps s (ownerWritten s id r) := by
  unfold ownerWritten
  split
  · exact settleOp_fewer s _
  · exact .of_ops_eq ((answerPeer_frame ..).ops (by decide))
  · exact .of_ops_eq ((burstWritten_frame ..).ops (by decide))
  · exact .of_ops_eq rfl

theorem nextHeld_ops {id : Nat} {r : MemReq} {t : State} (h : nextHeld s = some (id, r, t)) : t.ops = s.ops :=
  (nextHeld_of h (bitsIn_rfl rfl) (Agree.refl 0x4080000000000000000000000000000000000000404000 s)).ops (by decide)

theorem releaseHeld_fewer (n : Nat) : FewerOps s (releaseHeld s n) := by
  induction n generalizing s with
  | zero => exact .of_ops_eq rfl
  | succ n ih =>
    unfold releaseHeld
    split
    · exact .of_ops_eq rfl
    · next id r t h =>
      have hsent : (launch t id r).ops = s.ops := ((launch_frame t id r).ops (by decide)).trans (nextHeld_ops s h)
      dsimp only
      split
      · exact .trans (.of_ops_eq hsent) (ih _)
      · exact .trans (.of_ops_eq hsent) (.trans (ownerWritten_fewer _ id r) (ih _))

theorem forgetReqs_fewer (p : Nat → MemReq → Bool) : FewerOps s (forgetReqs s p) :=
  releaseHeld_fewer { s with reqs := s.reqs.filter (fun kv => !p kv.1 kv.2) } _

theorem abortReq_fewer (id : Nat) : FewerOps s (abortReq s id) := by
  unfold abortReq
  split
  · exact .of_ops_eq rfl
  · dsimp only
    split
    · exact .trans (forgetReqs_fewer s _) (.of_ops_eq ((abortWrite_frame _ _).ops (by decide)))
    · exact forgetReqs_fewer s _

theorem abortReqs_fewer (p : MemReq → Bool) : FewerOps s (abortReqs s p).2 := by
  unfold abortReqs
  dsimp only
  generalize s.reqs.filter (fun kv => p kv.2) = l
  induction l generalizing s with
  | nil => exact .of_ops_eq rfl
  | cons kv l ih => exact .trans (abortReq_fewer s kv.1) (ih _)

end

/-! ## A core's batch aborted -/

section
variable (s : State) (c : Nat)

/-- The state in which all that a core's batch had outstanding has been aborted but its M instructions. -/
def coreAborted : State :=
  let s' := dropTiles (abortReqs s (reqOn s c)).2 (tileOn (abortReqs s (reqOn s c)).2 c)
  dropXmov { s' with ops := s'.ops.filter (fun kv => kv.2.core ≠ c) } c

theorem abortCore_eq : (abortCore s c).2 = modCore (coreAborted s c) c (fun k => { k with m := Matrix.empty }) := rfl

theorem coreAborted_steady : SteadyCores s (coreAborted s c) :=
  SteadyCores.trans (.of_cores_eq ((abortReqs_frame s _).cores (by decide)))
    (dropTiles_steady (abortReqs s (reqOn s c)).2 (tileOn (abortReqs s (reqOn s c)).2 c))

theorem coreAborted_ops : (coreAborted s c).ops = (abortReqs s (reqOn s c)).2.ops.filter (fun kv => kv.2.core ≠ c) := by
  unfold coreAborted dropXmov
  dsimp only
  rw [(dropTiles_frame ..).ops (by decide)]

theorem abortCore_opsOn_self : opsOn (abortCore s c).2 c = [] := by
  rw [abortCore_eq]
  unfold opsOn
  simp only [modCore_ops, coreAborted_ops, List.filter_filter]
  exact List.filter_eq_nil_iff.2 (by simp)

theorem abortCore_m_self : (core (abortCore s c).2 c).m = Matrix.empty := by
  rw [abortCore_eq, core_modCore, if_pos rfl]

theorem abortCore_keeps {x : Nat} (h : opsOn s x = [] ∧ (core s x).m = Matrix.empty) :
    opsOn (abortCore s c).2 x = [] ∧ (core (abortCore s c).2 x).m = Matrix.empty := by
  obtain ⟨hops, hm⟩ := h
  refine ⟨?_, ?_⟩
  · refine List.filter_eq_nil_iff.2 fun kv hkv => ?_
    rw [abortCore_eq, modCore_ops, coreAborted_ops] at hkv
    exact List.filter_eq_nil_iff.1 hops kv (abortReqs_fewer s _ kv (List.mem_of_mem_filter hkv))
  · rw [abortCore_eq, core_modCore]
    split
    · rfl
    · rw [(coreAborted_steady s c).m_eq, hm]

theorem foldl_abortCore (l : List Nat) (s : State) {x : Nat} (h : x ∈ l ∨ (opsOn s x = [] ∧ (core s x).m = Matrix.empty)) :
    opsOn (l.foldl (fun s c => (abortCore s c).2) s) x = [] ∧ (core (l.foldl (fun s c => (abortCore s c).2) s) x).m = Matrix.empty := by
  induction l generalizing s with
  | nil => simpa using h
  | cons a l ih =>
    refine ih _ ?_
    rcases h with hmem | hdone
    · rcases List.mem_cons.1 hmem with rfl | htail
      · exact .inr ⟨abortCore_opsOn_self s x, abortCore_m_self s x⟩
      · exact .inl htail
    · exact .inr (abortCore_keeps s a hdone)

end

end Sys2Proof.Machine
end

section
/-! O15: batches are dealt, started and ended, and a stopped kernel ends (R66 to R74, R101 to R104, R390). -/

namespace Sys2Proof.Machine

/-! ## Dealing and starting -/

section
variable {s : State} {c : Nat} {b : Batch}

theorem batchOf_retimeCore (s : State) (c steps x : Nat) : batchOf (retimeCore s c steps) x = batchOf s x := by
  rw [retimeCore, batchOf_modCore]
  split
  · next h => rw [← h]; rfl
  · rfl

theorem batchOf_wakeCore (s : State) (c x : Nat) : batchOf (wakeCore s c) x = batchOf s x := by
  unfold wakeCore
  dsimp only
  split
  · exact (batchOf_retimeCore ..).trans (batchOf_of_cores_eq rfl x)
  · split
    · refine (batchOf_retimeCore ..).trans (batchOf_of_cores_eq ?_ x)
      exact (wakeWing_frame s (wingOf s c)).cores (by decide)
    · rfl

/-- A batch as it is placed on a core. -/
def dealtBatch (s : State) (kid : Nat) (k : Kernel) : Batch :=
  ⟨kid, k.nextBatch, k.lb.batchSize k.nextBatch, [], false, false, .running, 0, s.now, []⟩

theorem batchDeal_exec {i space n kid : Nat} {x : Ctx} {k : Kernel} (hh : holderOf s i = some space) (hx : ctxOf s space = some x)
    (hk : nextKernel s space = some (kid, k)) (hheld : computeHeld s = false) (hsaved : x.saved = []) (hdown : x.down = none)
    (hframes : framesUsed s space < x.frames) (hn : chooseCore s i space k.lb k.nextBatch = some n) :
    exec (.batchDeal i) s = .next (wakeCore (setBatch (modKernel s kid (fun k => { k with nextBatch := k.nextBatch + 1 })) n
      (some (dealtBatch s kid k))) n) := by
  change execBatchDeal i s = _
  unfold execBatchDeal
  simp only [hh, hx, hk, hheld, hsaved, hdown, hn, Nat.not_le.mpr hframes]
  rfl

/-- Does a batch that starts find its reservation? -/
def resident (s : State) (c : Nat) (b : Batch) : Bool :=
  regionMatch (core s c) (kernel s b.kernel).space (kernel s b.kernel).lb b.index
    && !decide ((core s c).lastCtx ≠ some (kernel s b.kernel).space)

/-- The state after the zeroing of R74. -/
def startZeroed (s : State) (c : Nat) (b : Batch) : State :=
  let l := (kernel s b.kernel).lb
  let s' := if bitAt l.mode 4 || decide ((core s c).lastCtx ≠ some (kernel s b.kernel).space) then zeroAcc s c else s
  if (core s c).lastCtx ≠ some (kernel s b.kernel).space then zeroScr s' c 0 0xA00000
  else if bitAt l.mode 5 && !resident s c b then zeroScr s' c 0 (scrLimit l) else s'

/-- A batch that has started. -/
def Batch.begun (b : Batch) (l : Launch) (res : Bool) (now : DWord) : Batch :=
  { b with
    started := true, resident := res, progress := now
    groups := (List.range b.ngroups).map (fun g => (g, Group.initial l b.index g)) }

/-- The core of a batch that has started. -/
def Core.begun (v : Core) (b : Batch) (k : Kernel) (res : Bool) (now : DWord) : Core :=
  { v with
    batch := some (b.begun k.lb res now)
    m := Matrix.empty
    icache := if v.icacheKernel = some b.kernel then v.icache else []
    icacheKernel := some b.kernel
    lastCtx := some k.space
    region := if k.lb.regionId = 0 then none else some ⟨k.slot, k.space, k.lb.regionId, b.index, k.lb.scrPages, b.kernel⟩
    resvPages := k.lb.specPages, resvScr := k.lb.scrPages, resvRegion := k.lb.regionId }

theorem batchStart_exec (hb : batchOf s c = some b) (hs : b.started = false) (hw : b.why = .running) (ha : asleep s c = false)
    (hfree : resident s c b = false → pinned s c = false ∧ slotsHeld s c = false) :
    exec (.batchStart c) s = .next (modCore { startZeroed s c b with
        movers := mput (startZeroed s c b).movers c { mover (startZeroed s c b) c with credits := [] } } c
      (fun v => v.begun b (kernel s b.kernel) (resident s c b) (startZeroed s c b).now)) := by
  change execBatchStart c s = _
  have hpin : (!resident s c b && pinned s c) = false := by
    cases hr : resident s c b with
    | true => rfl
    | false => simp [(hfree hr).1]
  have hslots : (!resident s c b && slotsHeld s c) = false := by
    cases hr : resident s c b with
    | true => rfl
    | false => simp [(hfree hr).2]
  have hgo : (b.started || decide (b.why ≠ .running) || asleep s c) = false := by simp [hs, hw, ha]
  unfold execBatchStart
  simp only [hb]
  change Host.Outcome.next (if (b.started || decide (b.why ≠ .running) || asleep s c) = true then s
    else if (!resident s c b && pinned s c) = true then s
    else if (!resident s c b && slotsHeld s c) = true then doomIf s (fun v => v.core = c) else _) = _
  rw [hgo, hpin, hslots]
  rfl

theorem mfind_filter_none {α : Type} {m : SMap α} {p : Nat × α → Bool} {x : Nat} (h : ∀ v, p (x, v) = false) :
    mfind (m.filter p) x = none := by
  refine Option.eq_none_iff_forall_ne_some.2 fun v hv => ?_
  have hp := List.of_mem_filter (mem_of_mfind hv)
  rw [h v] at hp
  exact absurd hp (by decide)

theorem mem8_zeroScr (s : State) (c lo len a : Nat) (h : lo ≤ a ∧ a < lo + len) : mem8 (core (zeroScr s c lo len) c).scr a = 0 := by
  rw [zeroScr, core_modCore, if_pos rfl, mem8, mget, mfind_filter_none (fun v => by simp [h])]
  rfl

/-- What a started batch finds: its scratchpad and accumulators hold nothing of another context. -/
theorem startZeroed_other (h : (core s c).lastCtx ≠ some (kernel s b.kernel).space) :
    (core (startZeroed s c b) c).tacc = [] ∧ ∀ a, a < 0xA00000 → mem8 (core (startZeroed s c b) c).scr a = 0 := by
  have e : startZeroed s c b = zeroScr (zeroAcc s c) c 0 0xA00000 := by
    unfold startZeroed
    simp only [h, ne_eq, not_false_eq_true, decide_true, Bool.or_true, if_true]
  rw [e]
  refine ⟨?_, fun a ha => mem8_zeroScr _ _ _ _ _ ⟨Nat.zero_le a, by omega⟩⟩
  rw [zeroScr, core_modCore, if_pos rfl, zeroAcc, core_modCore, if_pos rfl]

theorem startZeroed_now (s : State) (c : Nat) (b : Batch) : (startZeroed s c b).now = s.now := by
  unfold startZeroed
  dsimp only
  split
  · split <;> rfl
  · split <;> split <;> rfl

theorem batchStart_gives (hb : batchOf s c = some b) (hs : b.started = false) (hw : b.why = .running) (ha : asleep s c = false)
    (hfree : resident s c b = false → pinned s c = false ∧ slotsHeld s c = false) :
    Gives (.batchStart c) s (fun s' => batchOf s' c = some (b.begun (kernel s b.kernel).lb (resident s c b) s.now)
      ∧ (core s' c).m = Matrix.empty ∧ (core s' c).lastCtx = some (kernel s b.kernel).space ∧ (∀ l, credit s' c l = 0)
      ∧ ((core s c).lastCtx ≠ some (kernel s b.kernel).space →
        (core s' c).tacc = [] ∧ ∀ a, a < 0xA00000 → mem8 (core s' c).scr a = 0)) := by
  refine ⟨_, batchStart_exec hb hs hw ha hfree, ?_, ?_, ?_, fun l => ?_, fun h => ?_⟩
  · rw [batchOf_modCore, if_pos rfl, startZeroed_now]
    rfl
  · rw [core_modCore, if_pos rfl]
    rfl
  · rw [core_modCore, if_pos rfl]
    rfl
  · simp only [credit, mover, modCore_movers, mget_mput, if_true]
    rfl
  · rw [core_modCore, if_pos rfl]
    exact startZeroed_other h

end

/-! ## The end of a batch and of a kernel -/

section
variable {s : State} {c kid : Nat} {b : Batch}

/-- A kernel that ends takes its command with it. -/
theorem endKernel_ends {v : Cmd} (hv : mfind s.cmds (kernel s kid).cmd = some v) (hf : v.fin = none) (code : Nat) :
    mfind (endKernel s kid code).kernels kid = none
      ∧ (mfind (endKernel s kid code).cmds (kernel s kid).cmd).map Cmd.fin = some (some code) := by
  refine ⟨mfind_mdel_same _ _, ?_⟩
  have hmod := mfind_modCmd hv (fun x => { x with flags := x.flags ||| (kernel s kid).flagSum, count := (kernel s kid).ended })
  exact congrArg (Option.map Cmd.fin) (mfind_endCmd hmod hf code)

theorem endKernel_cores (s : State) (kid code : Nat) : (endKernel s kid code).cores = s.cores := (endKernel_frame ..).cores (by decide)

/-- The state in which a batch has ended, before its kernel's end is considered. -/
def batchGone (s : State) (c : Nat) (b : Batch) : State :=
  modKernel (clearCore s c) b.kernel (fun k => { k with ended := k.ended + 1 })

theorem kernel_batchGone (s : State) (c : Nat) (b : Batch) :
    kernel (batchGone s c b) b.kernel = { kernel s b.kernel with ended := (kernel s b.kernel).ended + 1 } := by
  rw [batchGone, kernel_modKernel, if_pos rfl, kernel_of_kernels_eq (clearCore_kernels s c)]

theorem batchOf_batchGone (s : State) (c : Nat) (b : Batch) : batchOf (batchGone s c b) c = none := batchOf_clearCore_self s c

theorem batchEnd_exec (hb : batchOf s c = some b) (ho : batchOver s c b = true) (hw : b.why = .running) (hd : b.deferred = []) :
    exec (.batchEnd c) s = .next (if (kernel s b.kernel).ended + 1 = (kernel s b.kernel).nbatch && (kernel s b.kernel).stopAt.isNone
      then endKernel (batchGone s c b) b.kernel 0 else batchGone s c b) := by
  change execBatchEnd c s = _
  unfold execBatchEnd
  simp only [hb, ho, hw, hd]
  change Host.Outcome.next (if (kernel (batchGone s c b) b.kernel).ended = (kernel (batchGone s c b) b.kernel).nbatch
    && (kernel (batchGone s c b) b.kernel).stopAt.isNone then _ else _) = _
  rw [kernel_batchGone]
  rfl

theorem batchEnd_last {v : Cmd} (hv : mfind s.cmds (kernel s b.kernel).cmd = some v) (hf : v.fin = none) :
    batchOf (endKernel (batchGone s c b) b.kernel 0) c = none ∧ mfind (endKernel (batchGone s c b) b.kernel 0).kernels b.kernel = none
      ∧ (mfind (endKernel (batchGone s c b) b.kernel 0).cmds (kernel s b.kernel).cmd).map Cmd.fin = some (some 0) := by
  have hfin := clearCore_fins s c (kernel s b.kernel).cmd
  rw [hv, Option.map_some, hf, Option.map_eq_some_iff] at hfin
  obtain ⟨v', hv', hf'⟩ := hfin
  have hcmd : (kernel (batchGone s c b) b.kernel).cmd = (kernel s b.kernel).cmd := by rw [kernel_batchGone]
  obtain ⟨hkernel, hend⟩ := endKernel_ends (s := batchGone s c b) (kid := b.kernel) (by rw [hcmd]; exact hv') hf' 0
  rw [hcmd] at hend
  exact ⟨(batchOf_of_cores_eq (endKernel_cores ..) c).trans (batchOf_batchGone s c b), hkernel, hend⟩

/-! ## The end of a stopped kernel -/

theorem core_foldl_region (l : List Nat) (s : State) (x : Nat) :
    batchOf (l.foldl (fun s c => modCore s c (fun v => { v with region := none, resvPages := 0 })) s) x = batchOf s x := by
  induction l generalizing s with
  | nil => rfl
  | cons a l ih =>
    refine (ih _).trans ?_
    rw [batchOf_modCore]
    split
    · next h => rw [← h]; rfl
    · rfl

theorem foldl_region_kept (l : List Nat) (s : State) :
    (l.foldl (fun s c => modCore s c (fun v => { v with region := none, resvPages := 0 })) s).kernels = s.kernels
    ∧ (l.foldl (fun s c => modCore s c (fun v => { v with region := none, resvPages := 0 })) s).cmds = s.cmds := by
  induction l generalizing s with
  | nil => exact ⟨rfl, rfl⟩
  | cons a l ih => exact ih _

/-- The state in which a stopped kernel's cores are free and its reservations gone. -/
def coresFreed (s : State) (kid : Nat) : State :=
  (reservedCores s kid).foldl (fun s c => modCore s c (fun v => { v with region := none, resvPages := 0 }))
    ((coresRunning s kid).foldl clearCore s)

/-- The state in which its saved batches are dropped too, and its record is posted. -/
def faultPosted (s : State) (kid : Nat) (f : FaultInfo) : State :=
  let s := coresFreed s kid
  let mine := (((ctxOf s (kernel s kid).space).map Ctx.saved).getD []).filter (fun v => v.kernel = kid)
  let s := modKernel s kid (fun k => { k with
    others := satAdd 16 k.others (mine.foldl (fun n v => n + v.batch.deferred.length) 0) })
  postEvent (modCtx s (kernel s kid).space (fun c => { c with saved := c.saved.filter (fun v => v.kernel ≠ kid) }))
    (kernel s kid).window (kernelFaultRecord (kernel s kid) f)

theorem finishStop_eq (s : State) (kid : Nat) (f : FaultInfo) : finishStop s kid f = endKernel (faultPosted s kid f) kid f.code := rfl

theorem coresFreed_kept (s : State) (kid : Nat) : (∀ c ∈ coresRunning s kid, batchOf (coresFreed s kid) c = none)
    ∧ (coresFreed s kid).kernels = s.kernels ∧ SameFins s (coresFreed s kid) := by
  obtain ⟨hb, hk, -, hf⟩ := foldl_clearCore s (coresRunning s kid)
  obtain ⟨hk', hc'⟩ := foldl_region_kept (reservedCores s kid) ((coresRunning s kid).foldl clearCore s)
  exact ⟨fun c hc => (core_foldl_region _ _ c).trans (hb c (.inl hc)), hk'.trans hk, hf.trans (.of_cmds_eq hc')⟩

theorem modCtx_kept (s : State) (space : Nat) (f : Ctx → Ctx) : (modCtx s space f).cores = s.cores
    ∧ (modCtx s space f).kernels = s.kernels ∧ (modCtx s space f).cmds = s.cmds := by
  unfold modCtx
  split <;> exact ⟨rfl, rfl, rfl⟩

theorem faultPosted_kept (s : State) (kid : Nat) (f : FaultInfo) : (faultPosted s kid f).cores = (coresFreed s kid).cores
    ∧ (faultPosted s kid f).cmds = (coresFreed s kid).cmds ∧ (kernel (faultPosted s kid f) kid).cmd = (kernel s kid).cmd := by
  have hkern : kernel (coresFreed s kid) kid = kernel s kid := kernel_of_kernels_eq (coresFreed_kept s kid).2.1 kid
  unfold faultPosted
  dsimp only
  rw [kernel_of_kernels_eq ((postEvent_frame ..).kernels (by decide)), (postEvent_frame ..).cores (by decide),
    (postEvent_frame ..).cmds (by decide), kernel_of_kernels_eq (modCtx_kept ..).2.1, (modCtx_kept ..).1, (modCtx_kept ..).2.2,
    kernel_modKernel, if_pos rfl, hkern]
  exact ⟨rfl, rfl, rfl⟩

theorem finishStop_ends {k : Kernel} {v : Cmd} (f : FaultInfo) (hk : mfind s.kernels kid = some k) (hv : mfind s.cmds k.cmd = some v)
    (hf : v.fin = none) : mfind (finishStop s kid f).kernels kid = none
      ∧ (∀ c ∈ coresRunning s kid, batchOf (finishStop s kid f) c = none)
      ∧ (mfind (finishStop s kid f).cmds k.cmd).map Cmd.fin = some (some f.code) := by
  have hkernel : kernel s kid = k := by rw [kernel, mget, hk, Option.getD_some]
  obtain ⟨hbatch, -, hfins⟩ := coresFreed_kept s kid
  obtain ⟨hcores, hcmds, hcmd⟩ := faultPosted_kept s kid f
  rw [hkernel] at hcmd
  have hfin := hfins k.cmd
  rw [hv, Option.map_some, hf, Option.map_eq_some_iff] at hfin
  obtain ⟨v', hv', hf'⟩ := hfin
  obtain ⟨hgone, hend⟩ := endKernel_ends (s := faultPosted s kid f) (kid := kid) (by rw [hcmd, hcmds]; exact hv') hf' f.code
  rw [hcmd] at hend
  rw [finishStop_eq]
  exact ⟨hgone, fun c hc => (batchOf_of_cores_eq ((endKernel_cores ..).trans hcores) c).trans (hbatch c hc), hend⟩

theorem kernelStopDrainEnd_exec {k : Kernel} {f : FaultInfo} (hk : mfind s.kernels kid = some k) (hf : k.fault = some f)
    (hd : ((coresRunning s kid).all fun c => batchDrained s c false) = true)
    (hfree : ∀ c ∈ reservedCores s kid, pinned s c = false ∧ slotsHeld s c = false) (hr : evRoom s k.window = true) :
    exec (.kernelStopDrainEnd kid) s = .next (finishStop s kid f) := by
  have hpin : (reservedCores s kid).any (pinned s) = false := List.any_eq_false.2 fun c hc => by simp [(hfree c hc).1]
  have hslots : (reservedCores s kid).any (slotsHeld s) = false := List.any_eq_false.2 fun c hc => by simp [(hfree c hc).2]
  change execKernelStopDrainEnd kid s = _
  unfold execKernelStopDrainEnd
  simp only [hk, hf, hd, hpin, hslots, hr]
  rfl

end

/-! ## Preemption -/

theorem doomIf_cores (s : State) (p : LandSlot → Bool) : (doomIf s p).cores = s.cores := (doomIf_frame s p).cores (by decide)

/-- Settles O15: each effect is the one of the shared operation that carries it out. -/
theorem batchesAndKernelStops : Obligations.BatchesAndKernelStops := by
  unfold Obligations.BatchesAndKernelStops
  refine ⟨⟨?_, ?_, ?_⟩, ?_, ?_, ?_⟩
  · intro i space n kid s x k hh hx hk hheld hsaved hdown hframes hn
    refine ⟨_, batchDeal_exec hh hx hk hheld hsaved hdown hframes hn, ?_, ?_⟩
    · rw [batchOf_wakeCore, batchOf_setBatch, if_pos rfl]
      rfl
    · rw [kernel_of_kernels_eq ((wakeCore_frame ..).kernels (by decide))]
      change kernel (modKernel s kid (fun k => { k with nextBatch := k.nextBatch + 1 })) kid = _
      rw [kernel_modKernel, if_pos rfl]
  · intro c s b hb hs hw ha k res hfree
    have hres : resident s c b = res := by
      simp only [resident, ne_eq, decide_not, Bool.not_not]
      rfl
    have h := batchStart_gives hb hs hw ha (by rw [hres]; exact hfree)
    rw [hres] at h
    exact h
  · intro c s b hb ho hw hd k
    refine ⟨fun hmore => ?_, fun v hlast hstop hv hf => ?_⟩
    · refine ⟨_, batchEnd_exec hb ho hw hd, ?_⟩
      rw [if_neg (by simp [hmore, k])]
      exact ⟨batchOf_batchGone s c b, kernel_batchGone s c b⟩
    · refine ⟨_, batchEnd_exec hb ho hw hd, ?_⟩
      rw [if_pos (by simp [hlast, hstop, k])]
      exact batchEnd_last hv hf
  · intro kid s k f v hk hf hd hfree hr hv hfin
    exact ⟨_, kernelStopDrainEnd_exec hk hf hd hfree hr, finishStop_ends f hk hv hfin⟩
  · intro kid s t hstop hdue
    refine ⟨(coresRunning s kid).foldl (fun s c => (abortCore s c).2) s, ?_, fun c hc => foldl_abortCore _ s (.inl hc)⟩
    change execKernelStopAbort kid s = _
    simp only [execKernelStopAbort, hstop, hdue]
    rfl
  · intro c s b hb hw hy
    refine ⟨doomIf (setBatch s c (some { b with why := .preempt, stopAt := s.now })) (fun v => v.core = c), ?_, ?_⟩
    · change execBatchPreempt c s = _
      have hgo : (decide (b.why ≠ .running) || !mustYield s c (kernel s b.kernel)) = false := by simp [hw, hy]
      simp only [execBatchPreempt, hb]
      rw [hgo]
      rfl
    · refine (batchOf_of_cores_eq (doomIf_cores _ _) c).trans ?_
      rw [batchOf_setBatch, if_pos rfl]

end Sys2Proof.Machine
end

section
/-! A saved batch carries its kernel's number twice, and BATCH_RESTORE brings back the inner one (R104, R393), which refutes O16. -/

namespace Sys2Proof.Machine

/-- A batch saved under kernel 1 whose own kernel number is 2. -/
def strangerSaved : SavedBatch :=
  ⟨1, 0, ⟨2, 0, 0, [], false, false, .preempt, 0, 0, []⟩, Matrix.empty, Mover.empty, [], [], [], []⟩

/-- The context that has it saved: of Imago 0, in slot 3, with one frame. -/
def strangerCtx : Ctx := ⟨0, 0, 0, 0, 0, 1, 0, 0, 0, some 3, [strangerSaved], 0, none, 0, none, false, 0, 0, 0⟩

/-- The slot of that context. -/
def strangerSlot : SlotInfo := ⟨7, 0, 0, 1, 0⟩

/-- Context 7 holds Imago 0, core 0 is free, and the frame's pages lie in host memory. -/
def strangerState : State :=
  [(f_SCH_IMG_VALID, 0, 1), (f_SCH_IMG_HOLDER, 0, 3), (f_SCH_SLOT_STATE, 3, 2), (f_CMP_CORE_STATE, 0, 1),
    (f_CMP_CORE_INSTANCE, 0, 0), (f_TMV_BCH_CFG_USE, 0, 1)].foldl (fun s w => setF s w.1 w.2.1 w.2.2)
    { State.reset with
      ctxs := [(7, strangerCtx)], slots := [(3, strangerSlot)], tlb := [⟨sharedTlb 0, 7, ⟨0, 2 ^ 46, 1, 0, 0⟩⟩] }

/-- The kernel of the batch on core 0 after a command. -/
def kernelAfter (i : Instr) (s : State) : Option Nat :=
  match exec i s with
  | .next s' => (batchOf s' 0).map Batch.kernel
  | _ => none

theorem kernelAfter_restore : kernelAfter (.batchRestore 0 false) strangerState = some 2 := by decide +kernel

theorem kernelAfter_of_exec {i : Instr} {s s' : State} (h : exec i s = .next s') :
    kernelAfter i s = (batchOf s' 0).map Batch.kernel := by
  unfold kernelAfter
  rw [h]

/-- Refutes O16: the restored batch is said to be of the kernel under which it was saved, and the model restores the kernel number
inside the saved batch, here 2 and not 1. -/
theorem not_saveAndRestore : ¬ Obligations.SaveAndRestore := by
  intro h
  obtain ⟨-, hrestore⟩ := h
  obtain ⟨s', hexec, -, -, b, hb, hkernel, -⟩ := hrestore 0 7 3 0 strangerState strangerCtx strangerSlot strangerSaved []
    (by decide +kernel) (by decide +kernel) (by decide +kernel) rfl (by decide +kernel) rfl (by decide +kernel) (by decide +kernel)
    (by decide +kernel) (by decide +kernel) (by decide +kernel) rfl (fun _ hkv => absurd hkv List.not_mem_nil) (by decide +kernel)
    (fun hs => absurd hs (by decide)) (by decide +kernel)
  have hafter := (kernelAfter_of_exec hexec).symm.trans kernelAfter_restore
  rw [hb, Option.map_some, hkernel] at hafter
  exact absurd hafter (by decide)

end Sys2Proof.Machine
end

section
/-! A queue that a bad doorbell has stopped still reacts to a failure (R376, R386; log entry 63), which refutes O38. -/

namespace Sys2Proof.Machine

/-- A context of Imago 0, resident in slot 3. -/
def badBellCtx : Ctx := ⟨0, 0, 0, 0, 0, 0, 0, 0, 0, some 3, [], 0, none, 0, none, false, 0, 0, 0⟩

/-- Its queue, with error mode 0 (propagate): a bad doorbell has stopped it with the code of an invalid command, while command 1
is still on chip. -/
def badBellQueue : Queue := ⟨7, 0, 0, 0, 6, 0, 2 ^ 49, qStopped, errCommandInvalid, 0, 0, 0, 0, 0, [1], true, 0, none, 0⟩

/-- Command 1: it has no fence and no completion record, and has failed with DATA_POISON. -/
def badBellCmd : Cmd :=
  ⟨5, 0, [], 7, 0, 0, 0, true, [], some 0, false, 0, 0, 0, some errDataPoison, 0, 0, 0, 0, false, false, false, false, 0, [],
    false, false, none⟩

/-- Command 1 of queue 5 in context 7. -/
def badBellState : State :=
  { State.reset with ctxs := [(7, badBellCtx)], queues := [(5, badBellQueue)], cmds := [(1, badBellCmd)] }

/-- The state of queue 5 after a command of the model. -/
def queueStateAfter (i : Instr) (s : State) : Option Nat :=
  match exec i s with
  | .next s' => (queueOf s' 5).map Queue.state
  | _ => none

theorem queueStateAfter_commandComplete :
    queueStateAfter (.commandComplete 1) badBellState = some qPropagating := by decide +kernel

theorem queueStateAfter_of_exec {i : Instr} {s s' : State} (h : exec i s = .next s') :
    queueStateAfter i s = (queueOf s' 5).map Queue.state := by
  unfold queueStateAfter
  rw [h]

theorem Retired.queueState {s' : State} {id st code : Nat} {c : Cmd} {v : Queue} (h : Retired s' id c v st code) :
    (queueOf s' c.queue).map Queue.state = some st := by
  obtain ⟨-, hq⟩ := h
  obtain ⟨w, hw, hfields⟩ := Option.map_eq_some_iff.mp hq
  rw [hw]
  exact congrArg (fun p => some p.2.2.1) hfields

/-- Refutes O38: the queue of a command that fails is said to keep its state unless it was RUNNING, and a STOPPED queue of mode 0
whose stop came from a bad doorbell becomes PROPAGATING. -/
theorem not_commandActions : ¬ Obligations.CommandActions := by
  intro h
  obtain ⟨-, -, -, -, -, -, -, -, hcomplete⟩ := h
  obtain ⟨hplain, -⟩ := hcomplete 1 errDataPoison badBellState badBellCmd badBellQueue badBellCtx rfl rfl rfl rfl rfl rfl
    (by decide +kernel) (by decide +kernel) (fun _ hkv => absurd hkv List.not_mem_nil)
  obtain ⟨hkeeps, -⟩ := hplain (by decide +kernel) (by decide +kernel) rfl
  obtain ⟨s', hexec, hretired⟩ := hkeeps (.inr (.inr (.inr (by decide))))
  have hafter := (queueStateAfter_of_exec hexec).symm.trans queueStateAfter_commandComplete
  rw [show (5 : Nat) = badBellCmd.queue from rfl, hretired.queueState] at hafter
  exact absurd hafter (by decide)

end Sys2Proof.Machine
end

section
/-! What the shared operations of the matrix unit do (R108, R121, R131), and the fault of an M instruction (R101, R130). -/

namespace Sys2Proof.Machine

/-! ## Queues and weight slots -/

section
variable (m : Matrix) (e : Nat) (l : List MInstr)

@[simp] theorem Matrix.queue_setQueue : (m.setQueue e l).queue e = l := by
  unfold Matrix.setQueue Matrix.queue
  split
  · rfl
  · split <;> rfl

theorem Matrix.setQueue_eq : m.setQueue e l =
    { m with load := (m.setQueue e l).load, stream := (m.setQueue e l).stream, drain := (m.setQueue e l).drain } := by
  unfold Matrix.setQueue
  split
  · rfl
  · split <;> rfl

@[simp] theorem Matrix.setQueue_slot (k : Nat) : (m.setQueue e l).slot k = m.slot k := by
  rw [Matrix.setQueue_eq]; rfl
@[simp] theorem Matrix.setQueue_ascale : (m.setQueue e l).ascale = m.ascale := by rw [Matrix.setQueue_eq]
@[simp] theorem Matrix.setQueue_abuf : (m.setQueue e l).abuf = m.abuf := by rw [Matrix.setQueue_eq]
@[simp] theorem Matrix.setQueue_zeros : (m.setQueue e l).zeros = m.zeros := by rw [Matrix.setQueue_eq]
@[simp] theorem Matrix.setQueue_array : (m.setQueue e l).array = m.array := by rw [Matrix.setQueue_eq]
@[simp] theorem Matrix.setQueue_out : (m.setQueue e l).out = m.out := by rw [Matrix.setQueue_eq]

@[simp] theorem Matrix.queue_one : m.queue 1 = m.stream := rfl
@[simp] theorem Matrix.setQueue_load : (m.setQueue 0 l).load = l := rfl
@[simp] theorem Matrix.setQueue_stream : (m.setQueue 1 l).stream = l := rfl

@[simp] theorem Matrix.slot_setSlot (k : Nat) (w : WSlot) : (m.setSlot k w).slot k = w := by
  unfold Matrix.setSlot Matrix.slot
  split <;> rfl

@[simp] theorem Matrix.queue_setSlot (k : Nat) (w : WSlot) : (m.setSlot k w).queue e = m.queue e := by
  unfold Matrix.setSlot
  split <;> rfl

end

theorem MOp.streams_iff {op : MOp} : op.streams = true ↔ op = .stream ∨ op = .sparse := by
  cases op <;> simp [MOp.streams]

theorem MOp.engine_of_streams {op : MOp} (h : op.streams = true) : op.engine = 1 := by
  rcases MOp.streams_iff.1 h with rfl | rfl <;> rfl

/-! ## An instruction put back in its queue, and the start of those before it -/

/-- A queue in which an instruction replaces that of its number. -/
def MInstr.placedIn (i : MInstr) (l : List MInstr) : List MInstr := mapIf (fun x => decide (x.seq = i.seq)) (fun _ => i) l

/-- A queue in which an instruction and every earlier one has begun (R131). -/
def MInstr.begunIn (i : MInstr) (l : List MInstr) : List MInstr :=
  mapIf (fun x => decide (x.seq ≤ i.seq)) (fun x => { x with begun := true }) l

section
variable {i y : MInstr} {l : List MInstr}

theorem MInstr.find?_placedIn (h : l.find? (fun x => x.seq = i.seq) = some y) :
    (i.placedIn l).find? (fun x => x.seq = i.seq) = some i := by
  induction l with
  | nil => exact absurd h (by simp)
  | cons x l ih =>
    by_cases hx : x.seq = i.seq
    · simp [MInstr.placedIn, mapIf, hx]
    · have hl : l.find? (fun x => x.seq = i.seq) = some y := by simpa [hx] using h
      have := ih hl
      simpa [MInstr.placedIn, mapIf, hx] using this

theorem MInstr.head?_placedIn (h : l.head? = some y) (hy : y.seq = i.seq) : (i.placedIn l).head? = some i := by
  simp [MInstr.placedIn, mapIf, h, hy]

theorem MInstr.head?_begunIn (h : l.head? = some i) : (i.begunIn l).head? = some { i with begun := true } := by
  simp [MInstr.begunIn, mapIf, h]

theorem MInstr.find?_begunIn (h : l.find? (fun x => x.seq = i.seq) = some y) :
    (i.begunIn l).find? (fun x => x.seq = i.seq) = some { y with begun := true } := by
  induction l with
  | nil => exact absurd h (by simp)
  | cons x l ih =>
    by_cases hx : x.seq = i.seq
    · obtain rfl : x = y := by simpa [hx] using h
      simp [MInstr.begunIn, mapIf, hx]
    · have hl : l.find? (fun x => x.seq = i.seq) = some y := by simpa [hx] using h
      have := ih hl
      by_cases hle : x.seq ≤ i.seq <;> simpa [MInstr.begunIn, mapIf, hx, hle] using this

/-- The start of the only instruction of its number changes it no further. -/
theorem MInstr.placedIn_begunIn (h : ∀ x ∈ l, x.seq = i.seq → x = i) :
    MInstr.placedIn { i with begun := true } (i.begunIn l) = i.begunIn l := by
  unfold MInstr.placedIn MInstr.begunIn mapIf
  rw [List.map_map]
  refine List.map_congr_left fun x hx => ?_
  by_cases hseq : x.seq = i.seq
  · obtain rfl := h x hx hseq
    simp
  · by_cases hle : x.seq ≤ i.seq <;> simp [hseq, hle]

end

section
variable (s : State) (c : Nat) (i : MInstr)

@[simp] theorem core_modCore_self (f : Core → Core) : core (modCore s c f) c = f (core s c) :=
  (core_modCore ..).trans (if_pos rfl)

@[simp] theorem core_setM : core (setM s c i) c = { core s c with
    m := (core s c).m.setQueue i.op.engine (i.placedIn ((core s c).m.queue i.op.engine)) } := core_modCore_self ..

@[simp] theorem core_markBegun : core (markBegun s c i) c = { core s c with
    m := (core s c).m.setQueue i.op.engine (i.begunIn ((core s c).m.queue i.op.engine)) } := core_modCore_self ..

end

section
variable {s : State} {c : Nat}

theorem onClock_awake (h : asleep s c = false) (s' : State) : onClock s c s' = .next s' := by
  simp [onClock, h]

theorem seq_of_mInstr {m : Matrix} {e seq : Nat} {i : MInstr} (h : mInstr m e seq = some i) : i.seq = seq := by
  unfold mInstr at h
  simpa using List.find?_some h

/-- What is found of a stream that is put back in its engine. -/
theorem mInstr_setM {i y : MInstr} (hi : i.op.engine = 1)
    (h : mInstr (core s c).m 1 i.seq = some y) : mInstr (core (setM s c i) c).m 1 i.seq = some i := by
  unfold mInstr at h ⊢
  rw [core_setM, hi, Matrix.queue_setQueue]
  exact MInstr.find?_placedIn h

/-- Good words come to the matrix unit as they are (R193, R194). -/
theorem matrixRead_good {a n : Nat} (h : ScrGood s c a n) :
    matrixRead s c a n = (none, scrBytes s c a n, s) := by
  unfold matrixRead
  rw [scanWords_good srcMatrix h]
  rfl

end

/-! ## Faults (R101, R130) -/

/-- The time, the kernels and the batch of a core are as before. -/
structure SameRun (s t : State) (c : Nat) : Prop where
  now : t.now = s.now
  kernels : t.kernels = s.kernels
  batch : batchOf t c = batchOf s c

section
variable {s t u : State} {c : Nat}

theorem SameRun.refl (s : State) (c : Nat) : SameRun s s c := ⟨rfl, rfl, rfl⟩

theorem SameRun.trans (h : SameRun s t c) (h' : SameRun t u c) : SameRun s u c :=
  ⟨h'.now.trans h.now, h'.kernels.trans h.kernels, h'.batch.trans h.batch⟩

theorem SameRun.foldl {α : Type} {f : State → α → State} (hf : ∀ s a, SameRun s (f s a) c) (l : List α) (s : State) :
    SameRun s (l.foldl f s) c := by
  induction l generalizing s with
  | nil => exact .refl s c
  | cons a l ih => exact (hf s a).trans (ih _)

/-- A change of a core that leaves its batch. -/
theorem SameRun.modCore {f : Core → Core} (x : Nat) (hf : ∀ k, (f k).batch = k.batch) : SameRun s (modCore s x f) c := by
  refine ⟨rfl, rfl, ?_⟩
  rw [batchOf_modCore]
  split
  · next h => subst h; exact hf _
  · rfl

theorem SameRun.ite {p : Prop} [Decidable p] (h : SameRun s t c) (h' : SameRun s u c) : SameRun s (if p then t else u) c := by
  split
  · exact h
  · exact h'

theorem squashDone_sameRun (id : Nat) : SameRun s (squashDone s id) c := by
  unfold squashDone
  split
  · exact .refl s c
  · next k _ => exact .trans (t := { s with landing := mdel s.landing id }) ⟨rfl, rfl, rfl⟩ (.modCore k.core (by intro; rfl))

theorem writeMark_sameRun (w src : Nat) (whole bad : Bool) : SameRun s (writeMark s c w src whole bad) c :=
  ⟨(writeMark_frame ..).now (by decide), (writeMark_frame ..).kernels (by decide), (writeMark_scr ..).batch⟩

theorem scrWrite_sameRun (a : Nat) (data : List Byte) (bad : List Nat) (src : Nat) :
    SameRun s (scrWrite s c a data bad src) c := by
  unfold scrWrite
  refine .trans (.foldl (fun s w => ?_) ..) (.trans (.foldl (fun s w => writeMark_sameRun ..) ..) (.modCore c (by intro; rfl)))
  split
  · exact squashDone_sameRun _
  · exact .refl s c

theorem freeAccRows_sameRun (tile row n : Nat) : SameRun s (freeAccRows s c tile row n) c :=
  .foldl (fun s _ => .trans (t := (freeVal s 32).2) ⟨rfl, rfl, rfl⟩ (.modCore c (by intro; rfl))) _ s

theorem freeScratch_sameRun (a n : Nat) : SameRun s (freeScratch s c a n) c :=
  .trans (t := (freeBytes s n).2) ⟨rfl, rfl, rfl⟩ (scrWrite_sameRun ..)

theorem accUpset_sameRun (row : Nat) (bad : Bool) : SameRun s (accUpset s c row bad) c := by
  unfold accUpset
  exact .ite (.modCore c (by intro; rfl)) (.refl s c)

/-- The fault of an M instruction is a fault of its group, after its destinations are freed (R130). -/
theorem mFault_eq (s : State) (c : Nat) (i : MInstr) (code addr : Nat) :
    ∃ t fi, SameRun s t c ∧ fi.code = code ∧ mFault s c i code addr = coreFault t c fi := by
  refine ⟨_, _, ?_, ?_, rfl⟩
  · refine .trans ?_ (.ite (.foldl (fun s k => freeAccRows_sameRun ..) ..) (.ite ?_ (.refl ..)))
    · exact .modCore c (by intro; rfl)
    · refine .trans (.foldl (fun s r => ?_) ..) (freeAccRows_sameRun ..)
      exact .trans (.ite (freeScratch_sameRun ..) (.refl ..)) (.ite (freeScratch_sameRun ..) (.refl ..))
  · rfl

/-- A command that ends in the fault of an M instruction stops the kernel. -/
theorem stops_of_mFault {cmd : Instr} {code addr : Nat} {i : MInstr} (ht : SameRun s t c)
    (he : exec cmd s = .next (mFault t c i code addr)) : Stops cmd s c code := by
  intro b hb hw hk
  obtain ⟨u, fi, hu, hcode, hf⟩ := mFault_eq t c i code addr
  have hrun := ht.trans hu
  obtain ⟨hfault, hstop, -⟩ := coreFault_first (hrun.batch.trans hb) hw (by rw [kernel_of_kernels_eq hrun.kernels, hk]) fi
  refine ⟨_, he, ?_, ?_⟩
  · rw [hf, hfault, Option.map_some, hcode]
  · rw [hf, hstop, hrun.now]

end

end Sys2Proof.Machine
end

section
/-! O17: the issue of an M instruction (R108 to R113, R121). -/

namespace Sys2Proof.Machine

theorem exec_matrixOp : ∀ row ∈ matrixOps, ∀ (t : Th) (s : State), exec (row.1 t) s =
    .next (issueM s t row.2.1 (row.2.2.1 t (row.2.2.2 s t)) (fld t 45 5) (row.2.2.2 s t)) := by
  intro row hrow t s
  simp only [matrixOps, List.mem_cons, List.not_mem_nil, or_false] at hrow
  rcases hrow with rfl | rfl | rfl | rfl | rfl | rfl | rfl <;> rfl

section
variable {s : State} {t : Th} {g : Group} {op : MOp} {first n : Nat}

/-- The instructions of an operation's engine that have not begun. -/
def mWaiting (s : State) (t : Th) (op : MOp) : List MInstr := ((core s t.core).m.queue op.engine).filter (fun i => !i.begun)

/-- The instruction as it enters its queue. -/
def mIssued (s : State) (t : Th) (g : Group) (op : MOp) (u : List Nat) : MInstr :=
  ⟨op, t.grp, (core s t.core).m.nextSeq, t.bits.toNat, u.map (uReg g), g.pc, execMask g t, false, false, WSlot.empty, [],
    0, 0, 0, 0, 0, 0, false, 0⟩

/-- The state in which an instruction stands at the end of its queue, and its group has gone on. -/
def mQueued (s : State) (t : Th) (g : Group) (op : MOp) (u : List Nat) : State :=
  modCore (retire s t.core t.grp { g with pc := nextPc g }) t.core (fun k => { k with
    m := { k.m.setQueue op.engine (k.m.queue op.engine ++ [mIssued s t g op u]) with nextSeq := k.m.nextSeq + 1 } })

theorem issueM_illegal (h : Issues s t (usesPred t :: (List.range n).map (fun k => 0x40 + first + k)) g) :
    issueM s t op false first n = threadFault s t.core t.grp errIllegalInstr g.active g.pc :=
  issue_illegal h

theorem issueM_full (hfull : 8 ≤ (mWaiting s t op).length) : issueM s t op true first n = s :=
  if_pos (by simpa [mWaiting] using hfull)

theorem issueM_room (hroom : (mWaiting s t op).length < 8)
    (h : Issues s t (usesPred t :: (List.range n).map (fun k => 0x40 + first + k)) g) :
    issueM s t op true first n = if execMask g t = 0 then retire s t.core t.grp { g with pc := nextPc g }
      else mQueued s t g op ((List.range n).map (fun k => first + k)) := by
  have hgo : ¬ (true && decide (8 ≤ (mWaiting s t op).length)) = true := by simpa using hroom
  refine (if_neg hgo).trans ((issue_acts h _).trans ?_)
  simp only [mQueued, mIssued, List.map_map]
  rfl

theorem core_retire_m {b : Batch} (hb : batchOf s t.core = some b) (g' : Group) :
    (core (retire s t.core t.grp g') t.core).m = (core s t.core).m := by
  rw [(retire_only hb g').core]

theorem groupOf_mQueued (s : State) (t : Th) (g : Group) (op : MOp) (u : List Nat) (x : Nat) :
    groupOf (mQueued s t g op u) t.core x = groupOf (retire s t.core t.grp { g with pc := nextPc g }) t.core x := by
  unfold groupOf mQueued
  rw [batchOf_modCore, if_pos rfl]
  rfl

theorem core_mQueued_m {b : Batch} (hb : batchOf s t.core = some b) (u : List Nat) :
    (core (mQueued s t g op u) t.core).m = { (core s t.core).m.setQueue op.engine
      ((core s t.core).m.queue op.engine ++ [mIssued s t g op u]) with nextSeq := (core s t.core).m.nextSeq + 1 } := by
  unfold mQueued
  rw [core_modCore_self, core_retire_m hb]

end

/-- Settles O17: an M instruction that issues stands last in its engine's queue, waits for a place there, or faults. -/
theorem matrixIssue : Obligations.MatrixIssue := by
  intro row hrow t s g m u waiting h
  have hlen : u.length = row.2.2.2 s t := by simp [u]
  have hexec := exec_matrixOp row hrow t s
  obtain ⟨b, hb, -⟩ := readyGroup_some h.ready
  have hissues : Issues s t (usesPred t :: (List.range (row.2.2.2 s t)).map (fun k => 0x40 + fld t 45 5 + k)) g := by
    simpa only [u, List.map_map, Function.comp_def, Nat.add_assoc] using h
  have hgroup : groupOf (retire s t.core t.grp { g with pc := nextPc g }) t.core t.grp = some (settle { g with pc := nextPc g }) :=
    (groupOf_retire hb _ t.grp).trans (if_pos rfl)
  rw [hlen]
  refine ⟨fun hlegal hroom hmask => ?_, fun hlegal hroom hmask => ?_, fun hlegal hfull => ?_, fun hlegal => ?_⟩
  · rw [hlegal, issueM_room hroom hissues, if_neg hmask] at hexec
    refine ⟨_, _, hexec, (groupOf_mQueued ..).trans hgroup, advanced_at .., sameRegs_settle .., ?_, mIssued s t g row.2.1 u, ?_,
      rfl, rfl, rfl, rfl, rfl, rfl, rfl⟩
    · rw [core_mQueued_m hb]
    · rw [core_mQueued_m hb]
      exact Matrix.queue_setQueue ..
  · rw [hlegal, issueM_room hroom hissues, if_pos hmask] at hexec
    exact ⟨_, _, hexec, hgroup, advanced_at .., sameRegs_settle .., core_retire_m hb _⟩
  · rw [hlegal, issueM_full hfull] at hexec
    exact hexec
  · rw [hlegal, issueM_illegal hissues] at hexec
    exact faults_of_threadFault hissues.groupOf hexec

end Sys2Proof.Machine
end

section
/-! O18: M instructions begin (R121, R122, R130, R131), loads and fetched rows arrive, and instructions complete (R107, R126, R138). -/

namespace Sys2Proof.Machine

/-! ## The start of an instruction -/

section
variable {s : State} {c : Nat} {i : MInstr}

theorem MInstr.begunIn_eq (i : MInstr) (l : List MInstr) :
    i.begunIn l = l.map (fun x => if x.seq ≤ i.seq then { x with begun := true } else x) := by
  simp [MInstr.begunIn, mapIf]

theorem SameRun.kernelOn {t : State} (h : SameRun s t c) : kernelOn t c = kernelOn s c := by
  unfold Machine.kernelOn
  rw [h.batch]
  split
  · rfl
  · exact kernel_of_kernels_eq h.kernels _

theorem setM_sameRun (s : State) (c : Nat) (i : MInstr) : SameRun s (setM s c i) c := .modCore c (by intro; rfl)

theorem markBegun_sameRun (s : State) (c : Nat) (i : MInstr) : SameRun s (markBegun s c i) c := .modCore c (by intro; rfl)

/-- An instruction whose turn it is, in a batch that runs on, is checked and begins. -/
theorem mEngineBegin_turn {seq : Nat}
    (hfind : ((core s c).m.load ++ (core s c).m.stream ++ (core s c).m.drain).find? (fun x => x.seq = seq && !x.finished) = some i)
    (hbegun : i.begun = false) (hdrain : i.op = .drain → i.slotOk = false) (hruns : mRuns s c = true)
    (hturn : mTurn (core s c).m i = true) : exec (.mEngineBegin c seq []) s = .next (beginM s c i) := by
  have hacted : (if i.op = .drain then i.slotOk else i.begun) = false := by
    split
    · next h => exact hdrain h
    · exact hbegun
  have hmay : mMayBegin s c i = true := by simp [mMayBegin, hruns]
  change execMEngineBegin c seq [] s = _
  simp only [execMEngineBegin, hfind, hacted, hmay, hturn, Bool.false_and, Bool.not_true, Bool.and_false, Bool.or_self,
    Bool.false_eq_true, if_false]
  rfl

theorem beginM_load (hop : i.op = .loadw) (hc : loadCheck i (scrLimit (kernelOn s c).lb) = none) :
    beginM s c i = markBegun s c i := by
  simp only [beginM, hop, hc]

theorem beginM_load_bad {e a : Nat} (hop : i.op = .loadw) (hc : loadCheck i (scrLimit (kernelOn s c).lb) = some (e, a)) :
    beginM s c i = mFault s c i e a := by
  simp only [beginM, hop, hc]

theorem beginM_stream (hop : i.op.streams = true) (hc : streamCheck (core s c).m i (scrLimit (kernelOn s c).lb) = none) :
    beginM s c i = setM (markBegun s c i) c (fetchedTo (core s c).m { i with begun := true }) := by
  rcases MOp.streams_iff.1 hop with h | h <;> simp only [beginM, h, hc]

theorem beginM_stream_bad {e a : Nat} (hop : i.op.streams = true)
    (hc : streamCheck (core s c).m i (scrLimit (kernelOn s c).lb) = some (e, a)) : beginM s c i = mFault s c i e a := by
  rcases MOp.streams_iff.1 hop with h | h <;> simp only [beginM, h, hc]

theorem beginM_drain (hop : i.op = .drain) (hc : drainCheck i (scrLimit (kernelOn s c).lb) = none) :
    beginM s c i = startDrain s c i := by
  simp only [beginM, hop, hc]

theorem beginM_drain_bad {e a : Nat} (hop : i.op = .drain) (hc : drainCheck i (scrLimit (kernelOn s c).lb) = some (e, a)) :
    beginM s c i = mFault s c i e a := by
  simp only [beginM, hop, hc]

theorem beginM_atile (hop : i.op = .atile) : beginM s c i =
    setM (modCore (markBegun s c i) c (fun k => { k with m := { k.m with ascale := i.u } })) c
      { i with begun := true, finished := true } := by
  simp only [beginM, hop]

/-- WTILE and WBLOCK end with their slot replaced. -/
def slotSet (s : State) (c : Nat) (i : MInstr) (w : WSlot) : State :=
  setM (modCore (markBegun s c i) c (fun k => { k with m := k.m.setSlot i.slotNo w })) c { i with begun := true, finished := true }

theorem slot_slotSet (w : WSlot) : (core (slotSet s c i w) c).m.slot i.slotNo = w := by
  simp [slotSet]

theorem beginM_wtile (hop : i.op = .wtile) (hw : ((core s c).m.slot i.slotNo).loaded = true) :
    let w := (core s c).m.slot i.slotNo
    let n := (kwOf w.cls w.spn + 127) / 128
    beginM s c i = slotSet s c i { w with scales := i.u.take n ++ w.scales.drop n } := by
  simp only [beginM, slotSet, scalesOf, hop, hw, Bool.not_true, Bool.false_eq_true, if_false]

theorem beginM_wblock (hop : i.op = .wblock) (hw : ((core s c).m.slot i.slotNo).loaded = true) :
    let w := (core s c).m.slot i.slotNo
    let n := 128 * kwOf w.cls w.spn / 32
    i.reg 0 + n ≤ scrLimit (kernelOn s c).lb → ScrGood s c (i.reg 0) n →
    beginM s c i = slotSet s c i { w with blk := some (scrBytes s c (i.reg 0) n) } := by
  intro w n hlim hgood
  simp only [beginM, hop, doWblock, slotSet, hw, w, Bool.not_true, Bool.false_eq_true, if_false]
  rw [if_neg (Nat.not_lt.2 hlim), matrixRead_good hgood]

theorem beginM_unloaded (hop : i.op = .wblock ∨ i.op = .wtile) (hw : ((core s c).m.slot i.slotNo).loaded = false) :
    beginM s c i = mFault s c i errMatrixOperand 0 := by
  rcases hop with h | h
  · simp only [beginM, h, doWblock, hw, Bool.not_false, if_true]
  · simp only [beginM, h, hw, Bool.not_false, if_true]

/-! ## The first fetch of a stream (R112, R140) -/

theorem fetchedTo_fetches {m : Matrix} (he : i.entered = 0) (hf : i.nextFetch ≠ none) : fetchedTo m i = i := by
  have hsome : i.nextFetch.isNone = false := Option.isNone_eq_false_iff.2 (Option.isSome_iff_ne_none.2 hf)
  simp [fetchedTo, hsome, he]

theorem fetchedTo_skips {m : Matrix} (he : i.entered = 0) (hf : i.nextFetch = none) :
    fetchedTo m i = { i with fetched := i.rowsM } := by
  simp [fetchedTo, hf, he]

/-- What is noted of a stream whose rows have arrived: the rows to come, at most. -/
theorem fetchedTo_eq (m : Matrix) (i : MInstr) :
    fetchedTo m i = { i with fetched := (fetchedTo m i).fetched, rows := (fetchedTo m i).rows } := by
  unfold fetchedTo
  dsimp only
  split <;> split <;> rfl

theorem fetchedTo_fetched (m : Matrix) (i : MInstr) :
    (fetchedTo m i).fetched = if i.nextFetch.isNone then i.rowsM else i.fetched := by
  unfold fetchedTo
  dsimp only
  split <;> split <;> rfl

theorem beginM_stream_fetches (hop : i.op.streams = true) (hc : streamCheck (core s c).m i (scrLimit (kernelOn s c).lb) = none)
    (he : i.entered = 0) (hf : i.nextFetch ≠ none) : beginM s c i = setM (markBegun s c i) c { i with begun := true } :=
  (beginM_stream hop hc).trans (congrArg _ (fetchedTo_fetches he hf))

theorem beginM_stream_skips (hop : i.op.streams = true) (hc : streamCheck (core s c).m i (scrLimit (kernelOn s c).lb) = none)
    (he : i.entered = 0) (hf : i.nextFetch = none) :
    beginM s c i = setM (markBegun s c i) c { i with begun := true, fetched := i.rowsM } :=
  (beginM_stream hop hc).trans (congrArg _ (fetchedTo_skips he hf))

theorem load_begins (hop : i.op = .loadw) : (core (markBegun s c i) c).m.load = i.begunIn (core s c).m.load := by
  rw [core_markBegun, hop]
  rfl

theorem stream_begins (hop : i.op.streams = true) (huniq : ∀ x ∈ (core s c).m.stream, x.seq = i.seq → x = i) :
    (core (setM (markBegun s c i) c { i with begun := true }) c).m.stream = i.begunIn (core s c).m.stream := by
  simp only [core_setM, core_markBegun, MOp.engine_of_streams hop, Matrix.setQueue_stream, Matrix.queue_one]
  exact MInstr.placedIn_begunIn huniq

theorem mInstr_markBegun {y : MInstr} (hop : i.op.streams = true) (h : mInstr (core s c).m 1 i.seq = some y) :
    mInstr (core (markBegun s c i) c).m 1 i.seq = some { y with begun := true } := by
  unfold mInstr at h ⊢
  rw [core_markBegun, MOp.engine_of_streams hop, Matrix.queue_setQueue]
  exact MInstr.find?_begunIn h

/-! ## The start of a drain (R119, R125) -/

/-- Does a drain act before it reads its first row: does it read scales or biases, or load the generator? -/
def MInstr.actsFirst (i : MInstr) : Bool := i.smode = 2 || i.bias || i.rnd = 1

/-- A drain's state when its checks have passed. -/
def drainMarked (s : State) (c : Nat) (i : MInstr) : State := if i.actsFirst then markBegun s c i else s

/-- A drain whose checks have passed, with its scale and bias vectors. -/
def MInstr.checked (i : MInstr) (vec : List Word) : MInstr := { i with begun := i.begun || i.actsFirst, slotOk := true, vec := vec }

/-- Loads the generator for a drain that rounds stochastically (R61). -/
def drainSeeded (s : State) (c : Nat) (i : MInstr) : State :=
  if i.rnd = 1 then modCore s c (fun k => { k with m := { k.m with
    lfsr := lfsrLoad (kernelOn s c).lb.seed (BitVec.ofNat 32 (i.reg 6)) } })
  else s

theorem scrGood_drainMarked {a n : Nat} (h : ScrGood s c a n) : ScrGood (drainMarked s c i) c a n := by
  unfold drainMarked
  split
  · intro w hw
    obtain ⟨hheld, hmark⟩ := h w hw
    exact ⟨hheld, by rwa [markOf, core_markBegun]⟩
  · exact h

theorem MInstr.started_fields (i : MInstr) (b : Bool) : let x : MInstr := { i with begun := b, slotOk := true }
    x.smode = i.smode ∧ x.bias = i.bias ∧ x.rnd = i.rnd ∧ ∀ k, x.reg k = i.reg k := ⟨rfl, rfl, rfl, fun _ => rfl⟩

theorem startDrain_good (hscale : i.smode = 2 → ScrGood s c (i.reg 4) 512) (hbias : i.bias = true → ScrGood s c (i.reg 5) 512) :
    ∃ vec, startDrain s c i = drainSeeded (setM (drainMarked s c i) c (i.checked vec)) c i := by
  have hread : ∀ (p : Prop) [Decidable p] (a : Nat), (p → ScrGood s c a 512) →
      (if p then matrixRead (drainMarked s c i) c a 512 else (none, [], drainMarked s c i)) =
        (none, if p then scrBytes (drainMarked s c i) c a 512 else [], drainMarked s c i) := by
    intro p _ a hp
    split
    · next h => exact matrixRead_good (scrGood_drainMarked (hp h))
    · rfl
  have hmarked : (if (decide (i.smode = 2) || i.bias || decide (i.rnd = 1)) = true then markBegun s c i else s) =
    drainMarked s c i := rfl
  obtain ⟨hsmode, hbiased, hrnd, hreg⟩ := MInstr.started_fields i (i.begun || (decide (i.smode = 2) || i.bias || decide (i.rnd = 1)))
  apply Exists.intro
  simp only [startDrain, hmarked, hsmode, hbiased, hrnd, hreg, hread _ _ hscale, hread _ _ hbias]
  rfl

theorem core_drainSeeded (s : State) (c : Nat) (i : MInstr) : (core (drainSeeded s c i) c).m = { (core s c).m with
    lfsr := if i.rnd = 1 then lfsrLoad (kernelOn s c).lb.seed (BitVec.ofNat 32 (i.reg 6)) else (core s c).m.lfsr } := by
  unfold drainSeeded
  split
  · rw [core_modCore_self]
  · rfl

theorem head?_drainMarked (hop : i.op = .drain) (h : (core s c).m.drain.head? = some i) :
    ∃ y, (core (drainMarked s c i) c).m.drain.head? = some y ∧ y.seq = i.seq := by
  unfold drainMarked
  split
  · rw [core_markBegun, hop]
    exact ⟨_, MInstr.head?_begunIn h, rfl⟩
  · exact ⟨i, h, rfl⟩

theorem drainMarked_sameRun (s : State) (c : Nat) (i : MInstr) : SameRun s (drainMarked s c i) c :=
  .ite (markBegun_sameRun ..) (.refl ..)

/-- A drain that has started is the one of its number, checked, and its generator is loaded. -/
theorem drainStarted_spec (hop : i.op = .drain) (hhead : (core s c).m.drain.head? = some i) (vec : List Word) :
    let t := drainSeeded (setM (drainMarked s c i) c (i.checked vec)) c i
    (core t c).m.drain.head? = some (i.checked vec)
      ∧ (i.rnd = 1 → (core t c).m.lfsr = lfsrLoad (kernelOn s c).lb.seed (BitVec.ofNat 32 (i.reg 6))) := by
  intro t
  obtain ⟨y, hy, hseq⟩ := head?_drainMarked hop hhead
  have hengine : (i.checked vec).op.engine = 2 := by rw [show (i.checked vec).op = i.op from rfl, hop]; rfl
  refine ⟨?_, fun hrnd => ?_⟩
  · rw [core_drainSeeded, core_setM, hengine]
    exact MInstr.head?_placedIn hy hseq
  · rw [core_drainSeeded, if_pos hrnd, ((drainMarked_sameRun s c i).trans (setM_sameRun ..)).kernelOn]

end

/-! ## Slot loads (R107, R138) -/

section
variable {s : State} {c : Nat} {i : MInstr}

/-- The index plane that a slot load reads. -/
def loadIdx (s : State) (c : Nat) (i : MInstr) : List Byte :=
  if i.spn = 0 then [] else scrBytes s c (i.reg 1) (loadBytes i.wfmt i.cls i.spn).2

/-- The slot that a load fills. -/
def loadedSlot (s : State) (c : Nat) (i : MInstr) : WSlot :=
  ⟨true, i.wfmt, i.cls, i.spn, scrBytes s c (i.reg 0) (loadBytes i.wfmt i.cls i.spn).1, loadIdx s c i, none,
    List.replicate 4 0x3F800000⟩

/-- The state after the last byte of a load. -/
def slotLoaded (s : State) (c : Nat) (i : MInstr) : State :=
  setM (modCore s c (fun k => { k with m := k.m.setSlot i.slotNo (loadedSlot s c i) })) c { i with finished := true }

theorem slotLoadComplete_exec (hawake : asleep s c = false) (hhead : (core s c).m.load.head? = some i) (hop : i.op = .loadw)
    (hbegun : i.begun = true) (hfin : i.finished = false) (hval : ScrGood s c (i.reg 0) (loadBytes i.wfmt i.cls i.spn).1)
    (hidx : i.spn ≠ 0 → ScrGood s c (i.reg 1) (loadBytes i.wfmt i.cls i.spn).2) : exec (.slotLoadComplete c []) s = .next
      (if i.spn ≠ 0 && !sparseOk (loadIdx s c i) (kwOf i.cls i.spn) i.spn then mFault s c i errSparseIndex (i.reg 1)
        else slotLoaded s c i) := by
  have hread : (if i.spn = 0 then (none, [], s) else matrixRead s c (i.reg 1) (loadBytes i.wfmt i.cls i.spn).2) =
      (none, loadIdx s c i, s) := by
    unfold loadIdx
    split
    · rfl
    · next h => exact matrixRead_good (hidx h)
  have hgo : (!(decide (i.op = .loadw) && i.begun && !i.finished)) = false := by simp [hop, hbegun, hfin]
  change onClock s c _ = _
  rw [onClock_awake hawake]
  simp only [hhead, hgo, Bool.false_eq_true, if_false, applyUpsets, List.foldl_nil, matrixRead_good hval, hread]
  rfl

theorem slotLoaded_spec (hop : i.op = .loadw) (hhead : (core s c).m.load.head? = some i) :
    (core (slotLoaded s c i) c).m.slot i.slotNo = loadedSlot s c i
      ∧ (core (slotLoaded s c i) c).m.load.head?.map MInstr.finished = some true := by
  have hload : ((core s c).m.setSlot i.slotNo (loadedSlot s c i)).queue 0 = (core s c).m.load := Matrix.queue_setSlot ..
  unfold slotLoaded
  rw [core_setM, core_modCore_self]
  have hengine : ({ i with finished := true } : MInstr).op.engine = 0 := congrArg MOp.engine hop
  refine ⟨by simp, ?_⟩
  rw [hengine, Matrix.setQueue_load, hload]
  exact congrArg (Option.map MInstr.finished) (MInstr.head?_placedIn (i := { i with finished := true }) hhead rfl)

end

/-! ## Rows that arrive (R128, R141, R142) -/

section
variable {s : State} {c : Nat} {i : MInstr}

/-- A fetched row takes a place in the A buffer, or, a zero row under ZSKIP, leaves at once. -/
def rowArrived (s : State) (c : Nat) (row : ARow) : State :=
  if row.zero then modCore s c (fun k => { k with m := { k.m with zeros := k.m.zeros ++ [row] } })
  else modCore s c (fun k => { k with m := { k.m with abuf := k.m.abuf ++ [row] } })

theorem core_rowArrived (s : State) (c : Nat) (row : ARow) : (core (rowArrived s c row) c).m = { (core s c).m with
    abuf := if row.zero then (core s c).m.abuf else (core s c).m.abuf ++ [row]
    zeros := if row.zero then (core s c).m.zeros ++ [row] else (core s c).m.zeros } := by
  unfold rowArrived
  cases row.zero <;> simp

theorem arriveRow_fetched {kw r : Nat} {row : ARow} (hi : mInstr (core s c).m 1 i.seq = some i)
    (hf : fetchRow s c i kw r = (none, row, s)) :
    arriveRow s c i.seq kw r = rowArrived (setM s c { i with fetched := r + 1 }) c row := by
  unfold mInstr at hi
  rw [Matrix.queue_one] at hi
  simp only [arriveRow, hi, hf]
  rfl

/-- The state after the chunk that ends row `r`. -/
def chunkArrived (s : State) (c : Nat) (i : MInstr) (row : ARow) (r : Nat) : State :=
  let t := rowArrived (setM s c { i with fetched := r + 1 }) c row
  setM t c (fetchedTo (core t c).m { i with fetched := r + 1 })

theorem streams_of_fetching {l : List MInstr}
    (h : l.find? (fun x => x.op.streams && x.begun && decide (x.fetched < x.rowsM)) = some i) : i.op.streams = true := by
  have hi := List.find?_some h
  simp only [Bool.and_eq_true] at hi
  exact hi.1.1

theorem aChunkArrival_exec {r : Nat} {row : ARow} (hawake : asleep s c = false)
    (hfind : (core s c).m.stream.find? (fun x => x.op.streams && x.begun && decide (x.fetched < x.rowsM)) = some i)
    (hi : mInstr (core s c).m 1 i.seq = some i) (hnext : i.nextFetch = some r)
    (hrows : chunkRows i (streamKw (core s c).m i) r (16 - (core s c).m.abuf.length) = [r])
    (hf : fetchRow s c i (streamKw (core s c).m i) r = (none, row, s)) :
    exec (.aChunkArrival c []) s = .next (chunkArrived s c i row r) := by
  have hstreams := streams_of_fetching hfind
  have hfound : (core (rowArrived (setM s c { i with fetched := r + 1 }) c row) c).m.stream.find? (fun x => x.seq = i.seq) =
      some { i with fetched := r + 1 } := by
    rw [core_rowArrived]
    exact mInstr_setM (i := { i with fetched := r + 1 }) (MOp.engine_of_streams hstreams) hi
  change onClock s c _ = _
  rw [onClock_awake hawake]
  simp only [hfind, hnext, hrows, List.isEmpty_cons, Bool.false_eq_true, if_false, List.foldl_cons, List.foldl_nil,
    applyUpsets, arriveRow_fetched hi hf, hfound]
  rfl

theorem lt_rowsM_of_nextFetch {r : Nat} (h : i.nextFetch = some r) : r < i.rowsM :=
  List.mem_range.1 (List.mem_of_mem_drop (List.mem_of_find?_eq_some h))

theorem chunkArrived_spec {r : Nat} {row : ARow} (hop : i.op.streams = true) (hi : mInstr (core s c).m 1 i.seq = some i)
    (hnext : i.nextFetch = some r) :
    (core (chunkArrived s c i row r) c).m.abuf = (if row.zero then (core s c).m.abuf else (core s c).m.abuf ++ [row])
      ∧ (core (chunkArrived s c i row r) c).m.zeros = (if row.zero then (core s c).m.zeros ++ [row] else (core s c).m.zeros)
      ∧ ∃ x, mInstr (core (chunkArrived s c i row r) c).m 1 i.seq = some x ∧ r + 1 ≤ x.fetched := by
  have hengine := MOp.engine_of_streams hop
  unfold chunkArrived
  dsimp only
  generalize ht : rowArrived (setM s c { i with fetched := r + 1 }) c row = t
  have hm := core_rowArrived (setM s c { i with fetched := r + 1 }) c row
  rw [ht] at hm
  have hit : mInstr (core t c).m 1 i.seq = some { i with fetched := r + 1 } := by
    rw [hm]
    exact mInstr_setM (i := { i with fetched := r + 1 }) hengine hi
  have heq := fetchedTo_eq (core t c).m { i with fetched := r + 1 }
  have hfetched := fetchedTo_fetched (core t c).m { i with fetched := r + 1 }
  generalize hx : fetchedTo (core t c).m { i with fetched := r + 1 } = x at heq hfetched
  refine ⟨by simp [hm], by simp [hm], x, ?_, ?_⟩
  · have hxe : x.op.engine = 1 ∧ x.seq = i.seq := by rw [heq]; exact ⟨hengine, rfl⟩
    rw [← hxe.2] at hit ⊢
    exact mInstr_setM hxe.1 hit
  · rw [hfetched]
    split
    · exact lt_rowsM_of_nextFetch (i := i) hnext
    · exact le_rfl

end

/-! ## Completion (R126, R214) -/

section
variable {s : State} {c e : Nat} {i : MInstr} {rest : List MInstr} {g : Group}

/-- An engine without its oldest instruction, whose zero rows are gone. -/
def dequeued (s : State) (c e : Nat) (i : MInstr) (rest : List MInstr) : State :=
  modCore s c (fun k => { k with m := { k.m.setQueue e rest with zeros := k.m.zeros.filter (fun r => r.seq ≠ i.seq) } })

/-- Raises the credit line of an operation, if it has one. -/
def creditRaised (s : State) (c : Nat) (op : MOp) : State := (op.credit.map (raiseCredit s c · 1)).getD s

theorem raiseM_live (hg : groupOf s c i.grp = some g) (hend : g.ended = false) :
    raiseM s c i = setGroup s c i.grp (raiseFlags g i.flags) := by
  simp only [raiseM, hg, hend, Bool.false_eq_true, if_false]

theorem groupOf_dequeued (x : Nat) : groupOf (dequeued s c e i rest) c x = groupOf s c x := by
  unfold groupOf dequeued
  rw [batchOf_modCore, if_pos rfl]
  rfl

theorem mInstrComplete_exec (hawake : asleep s c = false) (hq : (core s c).m.queue e = i :: rest) (hfin : i.finished = true)
    (hg : groupOf s c i.grp = some g) (hend : g.ended = false) : exec (.mInstrComplete c e) s = .next
      (creditRaised (setGroup (dequeued s c e i rest) c i.grp (raiseFlags g i.flags)) c i.op) := by
  have hraise : raiseM (dequeued s c e i rest) c i = _ := raiseM_live ((groupOf_dequeued _).trans hg) hend
  change onClock s c _ = _
  rw [onClock_awake hawake, ← hraise]
  simp only [hq, hfin, Bool.not_true, Bool.false_eq_true, if_false]
  unfold creditRaised
  cases i.op.credit <;> rfl

theorem creditRaised_cores (op : MOp) : (creditRaised s c op).cores = s.cores := by
  unfold creditRaised
  cases op.credit with
  | none => rfl
  | some l => exact (raiseCredit_frame ..).cores (by decide)

theorem credit_creditRaised {op : MOp} {l : Nat} (hl : op.credit = some l) (hroom : credit s c l < 65535) :
    credit (creditRaised s c op) c l = credit s c l + 1 := by
  simp only [creditRaised, hl, Option.map_some, Option.getD_some, raiseCredit]
  rw [if_pos (by omega)]
  simp [credit, setCredit, mover]

theorem credit_of_movers_eq {t : State} (h : t.movers = s.movers) (u l : Nat) : credit t u l = credit s u l := by
  unfold credit mover
  rw [h]

end

/-- Settles O18: a turn begins an instruction or is a fault of it, and each arrival and completion is one update of the core. -/
theorem matrixBeginAndLoads : Obligations.MatrixBeginAndLoads := by
  refine ⟨?_, ?_, ?_, ?_⟩
  · intro c seq s i m lim w begins hfind hbegun hruns hturn
    have hbegin (hdrain : i.op = .drain → i.slotOk = false) := mEngineBegin_turn hfind hbegun hdrain hruns hturn
    have hnot {op : MOp} (hop : i.op = op) (hne : op ≠ .drain) : i.op = .drain → i.slotOk = false :=
      fun h => absurd (hop.symm.trans h) hne
    have hnotStream (hop : i.op.streams = true) : i.op = .drain → i.slotOk = false := fun h => by rw [h] at hop; cases hop
    refine ⟨fun hop hc => ?_, fun hop hc huniq hent => ⟨fun hf => ?_, fun hf hmem => ?_⟩, fun hop => ?_, fun hop hw => ?_,
      fun hop hw hlim hgood => ?_, fun hop hslot hc hscale hbias hhead => ?_, fun e a hop hc => ?_, fun e a hop hc => ?_,
      fun e a hop hslot hc => ?_, fun hop hw => ?_⟩
    · exact ⟨_, (hbegin (hnot hop (by decide))).trans (by rw [beginM_load hop hc]), (load_begins hop).trans (i.begunIn_eq _)⟩
    · exact ⟨_, (hbegin (hnotStream hop)).trans (by rw [beginM_stream_fetches hop hc hent hf]),
        (stream_begins hop huniq).trans (i.begunIn_eq _)⟩
    · refine ⟨_, (hbegin (hnotStream hop)).trans (by rw [beginM_stream_skips hop hc hent hf]), ?_⟩
      obtain ⟨y, hy⟩ : ∃ y, mInstr m 1 i.seq = some y := Option.isSome_iff_exists.1 (List.find?_isSome.2 ⟨i, hmem, by simp⟩)
      exact mInstr_setM (i := { i with begun := true, fetched := i.rowsM }) (MOp.engine_of_streams hop) (mInstr_markBegun hop hy)
    · refine ⟨_, (hbegin (hnot hop (by decide))).trans (by rw [beginM_atile hop]), ?_⟩
      simp
    · exact ⟨_, (hbegin (hnot hop (by decide))).trans (by rw [beginM_wtile hop hw]), slot_slotSet _⟩
    · exact ⟨_, (hbegin (hnot hop (by decide))).trans (by rw [beginM_wblock hop hw hlim hgood]), slot_slotSet _⟩
    · obtain ⟨vec, hvec⟩ := startDrain_good hscale hbias
      obtain ⟨hdrain, hlfsr⟩ := drainStarted_spec hop hhead vec
      refine ⟨_, (hbegin fun _ => hslot).trans (by rw [beginM_drain hop hc, hvec]), ⟨_, hdrain, rfl, rfl, fun hacts => ?_⟩, hlfsr⟩
      have : i.actsFirst = true := by simpa [MInstr.actsFirst, or_assoc] using hacts
      simp [MInstr.checked, this]
    · exact stops_of_mFault (.refl s c) ((hbegin (hnot hop (by decide))).trans (by rw [beginM_load_bad hop hc]))
    · exact stops_of_mFault (.refl s c) ((hbegin (hnotStream hop)).trans (by rw [beginM_stream_bad hop hc]))
    · exact stops_of_mFault (.refl s c) ((hbegin fun _ => hslot).trans (by rw [beginM_drain_bad hop hc]))
    · refine stops_of_mFault (.refl s c) ((hbegin fun h => ?_).trans (by rw [beginM_unloaded hop hw]))
      rcases hop with hop | hop <;> exact hnot hop (by decide) h
  · intro c s i hawake hhead hop hbegun hfin size hval hidx idx
    have hexec := slotLoadComplete_exec hawake hhead hop hbegun hfin hval hidx
    rw [show loadIdx s c i = idx from rfl] at hexec
    refine ⟨fun hok => ?_, fun hsp hbad => ?_⟩
    · rw [if_neg (by simpa [or_iff_not_imp_left] using hok)] at hexec
      exact ⟨_, hexec, slotLoaded_spec hop hhead⟩
    · rw [if_pos (by simp [hsp, hbad])] at hexec
      exact stops_of_mFault (.refl s c) hexec
  · intro c r s i row hawake m hfind hi hnext hrows hf
    have hop := streams_of_fetching hfind
    exact ⟨_, aChunkArrival_exec hawake hfind hi hnext hrows hf, chunkArrived_spec hop hi hnext⟩
  · intro c e s i rest g hawake hq hfin hg hend
    have hg' : groupOf (dequeued s c e i rest) c i.grp = some g := (groupOf_dequeued _).trans hg
    refine ⟨_, mInstrComplete_exec hawake hq hfin hg hend, ?_, ?_, fun l hl hroom => ?_⟩
    · rw [core_of_cores_eq (creditRaised_cores _), (setGroup_only hg' _).core, dequeued, core_modCore_self]
      exact Matrix.queue_setQueue ..
    · rw [groupOf_of_cores_eq (creditRaised_cores _), groupOf_setGroup hg', if_pos rfl]
      rfl
    · have hcredit := credit_of_movers_eq (s := s) (t := setGroup (dequeued s c e i rest) c i.grp (raiseFlags g i.flags))
        ((setGroup_frame ..).movers (by decide)) c l
      rw [credit_creditRaised hl (by rw [hcredit]; exact hroom), hcredit]

end Sys2Proof.Machine
end

section
/-! O19: rows enter the array and are accumulated (R114 to R116, R122, R124, R142), and drains read and write rows (R118 to R120). -/

namespace Sys2Proof.Machine

/-! ## Accumulator rows -/

/-- Words set one by one from a base on. -/
theorem mget_foldl_mset_from (f : Nat → Word) (base : Nat) (l : List Nat) (t : SMap Word) (x : Nat) :
    mget 0 (l.foldl (fun t n => mset 0 t (base + n) (f n)) t) x =
      if base ≤ x ∧ x - base ∈ l then f (x - base) else mget 0 t x := by
  induction l generalizing t with
  | nil => simp
  | cons n l ih =>
    rw [List.foldl_cons, ih]
    by_cases hl : base ≤ x ∧ x - base ∈ l
    · rw [if_pos hl, if_pos ⟨hl.1, List.mem_cons_of_mem _ hl.2⟩]
    · rw [if_neg hl, mget_mset]
      by_cases hn : base + n = x
      · rw [if_pos hn, if_pos ⟨by omega, List.mem_cons.2 (.inl (by omega))⟩]
        exact congrArg f (by omega)
      · have hx : ¬ (base ≤ x ∧ x - base ∈ n :: l) := fun h => by
          rcases List.mem_cons.1 h.2 with h' | h'
          · omega
          · exact hl ⟨h.1, h'⟩
        rw [if_neg hn, if_neg hx]

/-- An accumulator row of 128 words set: its words, and those of every other row. -/
theorem mget_setRow (f : Nat → Word) (row : Nat) (t : SMap Word) (a n : Nat) (hn : n < 128) :
    mget 0 ((List.range 128).foldl (fun t n => mset 0 t (row * 128 + n) (f n)) t) (a * 128 + n) =
      if a = row then f n else mget 0 t (a * 128 + n) := by
  rw [mget_foldl_mset_from]
  by_cases ha : a = row
  · subst ha
    rw [if_pos ⟨by omega, List.mem_range.2 (by omega)⟩, if_pos rfl, Nat.add_sub_cancel_left]
  · rw [if_neg ha, if_neg fun h => ?_]
    have := List.mem_range.1 h.2
    omega

/-- An accumulator row dropped reads zero, and no other word changes. -/
theorem mget_dropRow (t : SMap Word) (row a n : Nat) (hn : n < 128) :
    mget 0 (t.filter (fun kv => !(row * 128 ≤ kv.1 && kv.1 < row * 128 + 128))) (a * 128 + n) =
      if a = row then 0 else mget 0 t (a * 128 + n) := by
  unfold mget
  by_cases ha : a = row
  · subst ha
    rw [if_pos rfl, mfind_filter_none fun v => by simp [hn]]
    rfl
  · rw [if_neg ha, mfind_filter_key fun v => by simp; omega]

/-! ## The update of a row (R114) -/

section
variable {s : State} {c : Nat} {i : MInstr}

/-- Is the accumulator row of row `m` of a stream taken afresh? -/
def MInstr.fresh (i : MInstr) (m : Nat) : Bool := i.init && decide (m < 128 * (i.tn + 1))

/-- What element `n` of the accumulator row of row `m` of a stream becomes. -/
def rowUpdated (s : State) (c : Nat) (i : MInstr) (m : Nat) (r : Option ARow) (n : Nat) : Word :=
  (reduceRow i r n (if i.fresh m then 0 else mget 0 (core s c).tacc (accRow i m * 128 + n))).1

theorem updateRow_m (m : Nat) (r : Option ARow) : (core (updateRow s c i m r).2 c).m = (core s c).m := by
  simp [updateRow]

theorem updateRow_tacc (m : Nat) (r : Option ARow) : (core (updateRow s c i m r).2 c).tacc =
    (List.range 128).foldl (fun t n => mset 0 t (accRow i m * 128 + n) (rowUpdated s c i m r n)) (core s c).tacc := by
  have hzip : ∀ f : Nat → Word × Flags, ((List.range 128).map f).zip (List.range 128) =
      (List.range 128).map (fun n => (f n, n)) := fun f => by
    simpa using List.zip_map' (f := f) (g := id) (l := List.range 128)
  simp only [updateRow, core_setCore, if_true, hzip, List.foldl_map]
  rfl

theorem mget_updateRow (m : Nat) (r : Option ARow) (a : Nat) {n : Nat} (hn : n < 128) :
    mget 0 (core (updateRow s c i m r).2 c).tacc (a * 128 + n) =
      if a = accRow i m then rowUpdated s c i m r n else mget 0 (core s c).tacc (a * 128 + n) := by
  rw [updateRow_tacc, mget_setRow _ _ _ _ _ hn]

theorem applyZero_m (l : List Nat) : (core (applyZero s c i l).2 c).m = (core s c).m := by
  have key : ∀ (l : List Nat) (p : Flags × State), (core (l.foldl (fun (p : Flags × State) m =>
      let v := updateRow p.2 c i m ((core p.2 c).m.zeros.find? (fun r => r.seq = i.seq && r.row = m))
      (p.1 ||| v.1, v.2)) p).2 c).m = (core p.2 c).m := by
    intro l
    induction l with
    | nil => exact fun _ => rfl
    | cons m l ih => exact fun p => (ih _).trans (updateRow_m ..)
  exact key l (0, s)

theorem applyZero_one (m : Nat) : (applyZero s c i [m]).2 =
    (updateRow s c i m ((core s c).m.zeros.find? (fun r => r.seq = i.seq && r.row = m))).2 := rfl

/-! ## Errors of accumulator rows (R124) -/

theorem accUpsets_none (l : List Nat) : accUpsets s c i l [] = s := by simp [accUpsets]

theorem accRead_eq (i : MInstr) (m : Nat) : accRead i m = !i.fresh m := rfl

theorem accBad_one (m : Nat) : accBad s c i [m] = (mget false (core s c).taccBad (accRow i m) && !i.fresh m) := by
  simp [accBad, accRead_eq]

theorem accUpset_bad (row : Nat) : mget false (core (accUpset s c row true) c).taccBad row = true := by
  simp [accUpset]

/-- An upset of a row that its update reads is found by that update. -/
theorem accUpsets_one {m : Nat} (h : i.fresh m = false) : accUpsets s c i [m] [m] = accUpset s c (accRow i m) true := by
  simp [accUpsets, accRead_eq, h]

/-! ## Rows that enter (R116, R122, R128) -/

/-- A stream whose slot has been checked, at its first row. -/
def MInstr.against (i : MInstr) (m : Matrix) : MInstr :=
  if i.slotOk then i else { i with slotOk := true, slot := m.slot i.slotNo, vec := m.ascale }

/-- A stream one row further. -/
def MInstr.entering (i : MInstr) (m : Matrix) (r : ARow) : MInstr :=
  { i.against m with rows := r.row + 1, entered := (i.against m).entered + 1 }

theorem MInstr.entering_kept (i : MInstr) (m : Matrix) (r : ARow) : (i.entering m r).op = i.op ∧ (i.entering m r).seq = i.seq
    ∧ (i.entering m r).slotOk = true ∧ (i.entering m r).entered = i.entered + 1
    ∧ (i.slotOk = false → (i.entering m r).slot = m.slot i.slotNo ∧ (i.entering m r).vec = m.ascale) := by
  unfold MInstr.entering MInstr.against
  split
  · next h => exact ⟨rfl, rfl, h, rfl, fun h' => absurd (h.symm.trans h') (by decide)⟩
  · exact ⟨rfl, rfl, rfl, rfl, fun _ => ⟨rfl, rfl⟩⟩

theorem fetchedTo_kept (m : Matrix) (i : MInstr) : (fetchedTo m i).op = i.op ∧ (fetchedTo m i).seq = i.seq
    ∧ (fetchedTo m i).slotOk = i.slotOk ∧ (fetchedTo m i).entered = i.entered ∧ (fetchedTo m i).slot = i.slot
    ∧ (fetchedTo m i).vec = i.vec := by
  rw [fetchedTo_eq]
  exact ⟨rfl, rfl, rfl, rfl, rfl, rfl⟩

/-- The first row of the A buffer stands in the array. -/
def rowEntered (s : State) (c : Nat) (r : ARow) (rest : List ARow) : State :=
  modCore s c (fun k => { k with m := { k.m with abuf := rest, array := k.m.array ++ [r] } })

theorem matrixRowEntry_exec {r : ARow} {rest : List ARow} (hawake : asleep s c = false) (habuf : (core s c).m.abuf = r :: rest)
    (hi : mInstr (core s c).m 1 r.seq = some i) (hissue : issueStopped s c = false) (hturn : streamTurn (core s c).m i = true)
    (hloads : loadsDone (core s c).m i = true)
    (hdrains : ((List.range (r.row + 1)).drop i.rows).any (drainBlocks (core s c).m i) = false) :
    exec (.matrixRowEntry c) s = .next
      (if !i.slotOk && !slotCheck i ((core s c).m.slot i.slotNo) then mFault s c i errMatrixOperand 0
        else setM (rowEntered s c r rest) c
          (fetchedTo (core (rowEntered s c r rest) c).m (i.entering (core s c).m r))) := by
  unfold mInstr at hi
  rw [Matrix.queue_one] at hi
  change onClock s c _ = _
  rw [onClock_awake hawake]
  simp only [habuf, hi, hissue, hturn, hloads, hdrains, Bool.not_true, Bool.or_self, Bool.false_eq_true, if_false]
  rfl

theorem rowEntry_spec {r : ARow} {rest : List ARow} (hi : mInstr (core s c).m 1 r.seq = some i) (hop : i.op.streams = true) :
    let t := setM (rowEntered s c r rest) c (fetchedTo (core (rowEntered s c r rest) c).m (i.entering (core s c).m r))
    (core t c).m.abuf = rest ∧ (core t c).m.array = (core s c).m.array ++ [r]
      ∧ ∃ x, mInstr (core t c).m 1 r.seq = some x ∧ x.slotOk = true ∧ x.entered = i.entered + 1
        ∧ (i.slotOk = false → x.slot = (core s c).m.slot i.slotNo ∧ x.vec = (core s c).m.ascale) := by
  obtain ⟨hop', hseq', hok', hent', hslot', hvec'⟩ :=
    fetchedTo_kept (core (rowEntered s c r rest) c).m (i.entering (core s c).m r)
  obtain ⟨hop'', hseq'', hok'', hent'', hfirst⟩ := i.entering_kept (core s c).m r
  generalize fetchedTo (core (rowEntered s c r rest) c).m (i.entering (core s c).m r) = x at *
  have hseq : x.seq = r.seq := hseq'.trans (hseq''.trans (seq_of_mInstr hi))
  have hengine : x.op.engine = 1 := by rw [hop', hop'']; exact MOp.engine_of_streams hop
  have hbefore : mInstr (core (rowEntered s c r rest) c).m 1 x.seq = some i := by
    rw [hseq, rowEntered, core_modCore_self]
    exact hi
  refine ⟨by simp [rowEntered], by simp [rowEntered], x, ?_, hok'.trans hok'', hent'.trans hent'', fun hslot => ?_⟩
  · rw [← hseq]
    exact mInstr_setM hengine hbefore
  · rw [hslot', hvec']
    exact hfirst hslot

/-! ## Updates (R116, R125, R142, R144) -/

theorem firstRow_eq {m : Matrix} {r : ARow} {rest : List ARow} (h : m.array = r :: rest) (hr : r.seq = i.seq) :
    firstRow m i = some r := by
  simp [firstRow, h, hr]

theorem accUpdate_exec {bad : List Nat} {r : ARow} {rest : List ARow} (hawake : asleep s c = false)
    (harray : (core s c).m.array = r :: rest)
    (hfind : (core s c).m.stream.find? (fun x => x.op.streams && !x.finished) = some i) (hr : r.seq = i.seq) :
    exec (.accUpdate c bad) s = .next (updateEntered s c bad i r) := by
  change onClock s c _ = _
  rw [onClock_awake hawake]
  simp only [hfind, firstRow_eq harray hr]

theorem MInstr.none_before {m : Nat} (h : i.upd = m) : (List.range m).drop i.upd = [] :=
  List.drop_eq_nil_of_le (by simp [h])

/-- The row that stands first in the array leaves it. -/
def rowLeft (s : State) (c : Nat) : State := modCore s c (fun k => { k with m := { k.m with array := k.m.array.drop 1 } })

theorem updateEntered_good {r : ARow} (hupd : i.upd = r.row)
    (hgood : i.fresh r.row = true ∨ mget false (core s c).taccBad (accRow i r.row) = false) :
    ∃ x, updateEntered s c [] i r = setM (rowLeft (updateRow s c i r.row (some r)).2 c) c x := by
  have hok : accBad s c i [r.row] = false := by
    rw [accBad_one]
    rcases hgood with h | h <;> simp [h]
  simp only [updateEntered, MInstr.none_before hupd, List.nil_append, accUpsets_none, hok, Bool.false_eq_true, if_false]
  exact ⟨_, rfl⟩

theorem updateEntered_upset {r : ARow} (hupd : i.upd = r.row) (hread : i.fresh r.row = false) :
    updateEntered s c [r.row] i r = mFault (accUpset s c (accRow i r.row) true) c i errAccEcc 0 := by
  have hbad : accBad (accUpset s c (accRow i r.row) true) c i [r.row] = true := by
    rw [accBad_one, accUpset_bad, hread]
    rfl
  simp only [updateEntered, MInstr.none_before hupd, List.nil_append, accUpsets_one hread, hbad, if_true]

theorem rowLeft_spec {t : State} (x : MInstr) : (core (setM (rowLeft t c) c x) c).m.array = (core t c).m.array.drop 1
    ∧ (core (setM (rowLeft t c) c x) c).tacc = (core t c).tacc := by
  simp [rowLeft]

/-- A stream of which no row enters, with its slot (R144). -/
def MInstr.rowless (i : MInstr) (m : Matrix) : MInstr :=
  { i with slotOk := true, slot := m.slot i.slotNo, vec := m.ascale, rows := i.rowsM }

theorem noRowStreamUpdate_exec {bad : List Nat} (hawake : asleep s c = false)
    (hfind : (core s c).m.stream.find? (fun x => x.op.streams && !x.finished) = some i) (hbegun : i.begun = true)
    (hent : i.entered = 0) (hfetched : i.fetched = i.rowsM) (habuf : ((core s c).m.abuf.any fun r => r.seq = i.seq) = false)
    (hturn : streamTurn (core s c).m i = true) (hloads : loadsDone (core s c).m i = true)
    (hdrains : (List.range i.rowsM).any (drainBlocks (core s c).m i) = false) :
    exec (.noRowStreamUpdate ⟨c, bad⟩) s = .next
      (if !slotCheck i ((core s c).m.slot i.slotNo) then mFault s c i errMatrixOperand 0
        else updateTrailing s c bad (i.rowless (core s c).m)) := by
  have hgo : (!i.begun || decide (i.entered ≠ 0) || decide (i.fetched ≠ i.rowsM) || (core s c).m.abuf.any (fun r => r.seq = i.seq)
      || !streamTurn (core s c).m i || !loadsDone (core s c).m i || (List.range i.rowsM).any (drainBlocks (core s c).m i)) = false := by
    rw [habuf, hturn, hloads, hdrains]
    simp [hbegun, hent, hfetched]
  change onClock s c _ = _
  rw [onClock_awake hawake]
  simp only [hfind, hgo, Bool.false_eq_true, if_false]
  rfl

/-- A stream whose updates are all applied. -/
def MInstr.done (i : MInstr) (f : Flags) : MInstr := { i with upd := i.rowsM, flags := f, finished := true }

theorem reduceRow_done (i : MInstr) (f : Flags) : reduceRow (i.done f) = reduceRow i := rfl

theorem updateTrailing_good (hgood : accBad s c i (List.range i.rowsM) = false) :
    ∃ f, updateTrailing s c [] i = setM (applyZero s c i ((List.range i.rowsM).drop i.upd)).2 c (i.done f) := by
  have hok : accBad s c i ((List.range i.rowsM).drop i.upd) = false := by
    rw [accBad, List.any_eq_false] at hgood ⊢
    exact fun m hm => hgood m (List.mem_of_mem_drop hm)
  simp only [updateTrailing, accUpsets_none, hok, Bool.false_eq_true, if_false]
  exact ⟨_, rfl⟩

theorem trailing_spec (hop : i.op.streams = true) (hi : mInstr (core s c).m 1 i.seq = some i) (f : Flags) :
    let x := (i.rowless (core s c).m).done f
    let t := setM (applyZero s c (i.rowless (core s c).m) ((List.range i.rowsM).drop i.upd)).2 c x
    (core t c).m.array = (core s c).m.array ∧ mInstr (core t c).m 1 i.seq = some x
      ∧ (i.rowsM = 1 → i.upd = 0 → ∀ n, n < 128 → mget 0 (core t c).tacc (accRow i 0 * 128 + n) =
        (reduceRow x ((core s c).m.zeros.find? (fun r => r.seq = i.seq && r.row = 0)) n
          (if i.init then 0 else mget 0 (core s c).tacc (accRow i 0 * 128 + n))).1) := by
  intro x t
  refine ⟨?_, ?_, fun hrows hupd n hn => ?_⟩
  · rw [core_setM]
    exact (Matrix.setQueue_array ..).trans (congrArg Matrix.array (applyZero_m _))
  · refine mInstr_setM (i := x) (MOp.engine_of_streams hop) (y := i) ?_
    rw [applyZero_m]
    exact hi
  · have hfresh : (i.rowless (core s c).m).fresh 0 = i.init := by
      change (i.init && decide (0 < 128 * (i.tn + 1))) = i.init
      simp
    have hrow : accRow (i.rowless (core s c).m) 0 = accRow i 0 := rfl
    have hone : (List.range i.rowsM).drop i.upd = [0] := by rw [hrows, hupd]; rfl
    rw [core_setM, hone, applyZero_one, ← hrow, mget_updateRow _ _ _ hn, if_pos rfl, rowUpdated, hfresh, reduceRow_done]
    rfl

end

/-! ## Drains (R118 to R120, R125) -/

section
variable {s : State} {c : Nat} {i : MInstr}

/-- The accumulator row that a drain reads next. -/
def MInstr.nextRead (i : MInstr) : Nat := i.ts * 128 + i.row0 + i.reads

/-- The row a drain reads next, scaled, biased and activated (R119). -/
def drainElems (s : State) (c : Nat) (i : MInstr) : List (Word × Flags) :=
  (List.range 128).map (fun n => drainElem i (mget 0 (core s c).tacc (i.nextRead * 128 + n)) n)

/-- That row, converted (R57 to R59, R63). -/
def drainConverted (s : State) (c : Nat) (i : MInstr) : List Byte × List Byte × Flags :=
  drainRow i (flushOf s c) (rndsFrom (i.rnd = 1) (core s c).m.lfsr 128).1 ((drainElems s c i).map Prod.fst)

/-- The row stands converted in the output buffer, and CLR has cleared it (R125). -/
def drainRowTaken (s : State) (c : Nat) (i : MInstr) : State := setCore s c { core s c with
  tacc := if i.clr then
      (core s c).tacc.filter (fun kv => !(i.nextRead * 128 ≤ kv.1 && kv.1 < i.nextRead * 128 + 128))
    else (core s c).tacc
  m := { (core s c).m with
    lfsr := (rndsFrom (i.rnd = 1) (core s c).m.lfsr 128).2
    out := (core s c).m.out ++ [⟨i.seq, i.reads, (drainConverted s c i).1, (drainConverted s c i).2.1⟩] } }

/-- The flags that the row raises. -/
def drainFlags (s : State) (c : Nat) (i : MInstr) : Flags :=
  (drainElems s c i).foldl (fun f x => f ||| x.2) (drainConverted s c i).2.2

/-- A drain one row read further. -/
def MInstr.rowRead (i : MInstr) (f : Flags) : MInstr := { i with begun := true, reads := i.reads + 1, flags := i.flags ||| f }

/-- A drain one row written further. -/
def MInstr.rowWritten (i : MInstr) : MInstr := { i with writes := i.writes + 1, finished := i.writes + 1 = i.nrows }

section
variable (hslot : i.slotOk = true) (hruns : i.begun = true ∨ mRuns s c = true) (hreads : i.reads < i.nrows)
  (hout : (core s c).m.out.length < 16) (hready : drainReady (core s c).m i i.nextRead = true)
include hslot hruns hreads hout hready

theorem drainReads : (!i.slotOk || !i.begun && !mRuns s c || decide (i.nrows ≤ i.reads) || decide (16 ≤ (core s c).m.out.length)
    || !drainReady (core s c).m i i.nextRead) = false := by
  have hbegin : (!i.begun && !mRuns s c) = false := by rcases hruns with h | h <;> simp [h]
  rw [hbegin, hslot, hready, decide_eq_false (Nat.not_le.2 hreads), decide_eq_false (Nat.not_le.2 hout)]
  rfl

variable (hawake : asleep s c = false) (hhead : (core s c).m.drain.head? = some i)
include hawake hhead

theorem drainRowRead_good (hgood : mget false (core s c).taccBad i.nextRead = false) : exec (.drainRowRead c false) s = .next
    (setM (markBegun (drainRowTaken s c i) c i) c (i.rowRead (drainFlags s c i))) := by
  have hgo := drainReads hslot hruns hreads hout hready
  unfold MInstr.nextRead at hgo hgood
  change onClock s c _ = _
  rw [onClock_awake hawake]
  simp only [hhead, hgo, accUpset, hgood, Bool.false_eq_true, if_false]
  rfl

theorem drainRowRead_upset :
    exec (.drainRowRead c true) s = .next (mFault (accUpset s c i.nextRead true) c i errAccEcc 0) := by
  have hgo := drainReads hslot hruns hreads hout hready
  have hbad := accUpset_bad (s := s) (c := c) i.nextRead
  unfold MInstr.nextRead at hgo hbad
  change onClock s c _ = _
  rw [onClock_awake hawake]
  simp only [hhead, hgo, hbad, Bool.false_eq_true, if_false, if_true]
  rfl

end

theorem drainRowTaken_spec (x : MInstr) :
    (core (setM (markBegun (drainRowTaken s c i) c i) c x) c).m.out =
        (core s c).m.out ++ [⟨i.seq, i.reads, (drainConverted s c i).1, (drainConverted s c i).2.1⟩]
      ∧ ∀ a n, n < 128 → mget 0 (core (setM (markBegun (drainRowTaken s c i) c i) c x) c).tacc (a * 128 + n) =
        if i.clr ∧ a = i.nextRead then 0 else mget 0 (core s c).tacc (a * 128 + n) := by
  refine ⟨by simp [drainRowTaken], fun a n hn => ?_⟩
  simp only [core_setM, core_markBegun, drainRowTaken, core_setCore, if_true]
  split
  · next h => rw [mget_dropRow _ _ _ _ hn]; simp [h]
  · next h => simp [h]

/-- A write to scratchpad with no page held: its bytes, and marks of words (R193, R194). -/
theorem scrWrite_scrStep {s : State} (h : s.landing = []) (c a : Nat) (data : List Byte) (bad : List Nat) (src : Nat) :
    ScrStep s (scrWrite s c a data bad src) c (memPut (core s c).scr a data) := by
  unfold scrWrite
  dsimp only
  rw [List.foldl_fixed' (a := s) fun w => by rw [heldBy_none h]]
  have hmarks := writeMarks_scr (c := c) (fun s w => writeMark_scr s c w src
    (decide (a ≤ 8 * w) && decide (8 * w + 8 ≤ a + data.length)) (bad.contains w)) (wordsOf a data.length) s
  refine hmarks.trans ?_
  rw [← hmarks.scr]
  exact scrPut_step _ c (memPut (core _ c).scr a data)

/-- A converted row, with its scale bytes, in scratchpad. -/
def drainRowStored (s : State) (c : Nat) (i : MInstr) (r : DrainRow) : State :=
  let t := scrWrite s c (i.reg 0 + r.row * (drainPitch i).2) r.bytes [] srcMatrix
  if r.scales.isEmpty then t else scrWrite t c (i.reg 2 + r.row * drainScalePitch i) r.scales [] srcMatrix

theorem drainRowStored_step (h : s.landing = []) (r : DrainRow) : ScrStep s (drainRowStored s c i r) c
    (memPut (memPut (core s c).scr (i.reg 0 + r.row * (drainPitch i).2) r.bytes)
      (i.reg 2 + r.row * drainScalePitch i) r.scales) := by
  have hbytes := scrWrite_scrStep h c (i.reg 0 + r.row * (drainPitch i).2) r.bytes [] srcMatrix
  unfold drainRowStored
  dsimp only
  split
  · next hnone =>
    rw [List.isEmpty_iff.1 hnone]
    exact hbytes
  · have hscales := hbytes.trans (scrWrite_scrStep (hbytes.landing.trans h) c (i.reg 2 + r.row * drainScalePitch i) r.scales [] srcMatrix)
    rwa [hbytes.scr] at hscales

theorem drainRowWrite_exec {r : DrainRow} {rest : List DrainRow} (hawake : asleep s c = false) (hout : (core s c).m.out = r :: rest)
    (hhead : (core s c).m.drain.head? = some i) : exec (.drainRowWrite c) s = .next
      (setM (modCore (drainRowStored s c i r) c (fun k => { k with m := { k.m with out := rest } })) c i.rowWritten) := by
  change onClock s c _ = _
  rw [onClock_awake hawake]
  simp only [hout, hhead]
  rfl

end

/-- Settles O19: each step of a row is one update of the core, and each error found is a fault of its instruction. -/
theorem matrixRowsAndDrains : Obligations.MatrixRowsAndDrains := by
  refine ⟨⟨?_, ?_, ?_⟩, ?_, ?_⟩
  · intro c s r rest i hawake m habuf hi hop hissue hturn hloads hdrains
    have hexec := matrixRowEntry_exec hawake habuf hi hissue hturn hloads hdrains
    refine ⟨fun hok => ?_, fun hslot hbad => ?_⟩
    · rw [if_neg (by simpa [or_iff_not_imp_left] using hok)] at hexec
      exact ⟨_, hexec, rowEntry_spec hi hop⟩
    · rw [if_pos (by rw [hslot, hbad]; rfl)] at hexec
      exact stops_of_mFault (.refl s c) hexec
  · intro c s r rest i hawake m harray hfind hr hupd first
    refine ⟨fun hgood => ?_, fun hread => ?_⟩
    · obtain ⟨x, hx⟩ := updateEntered_good hupd hgood
      obtain ⟨harr, htacc⟩ := rowLeft_spec (c := c) (t := (updateRow s c i r.row (some r)).2) x
      refine ⟨_, (accUpdate_exec hawake harray hfind hr).trans (by rw [hx]), ?_, fun a n hn => ?_⟩
      · rw [harr, updateRow_m, harray]
        rfl
      · rw [htacc, mget_updateRow _ _ _ hn]
        by_cases ha : a = accRow i r.row
        · subst ha; rfl
        · rw [if_neg ha, if_neg ha]
    · exact stops_of_mFault (accUpset_sameRun ..)
        ((accUpdate_exec hawake harray hfind hr).trans (by rw [updateEntered_upset hupd hread]))
  · intro c s i hawake m hfind hi hbegun hent hfetched habuf hturn hloads hdrains
    have hexec := noRowStreamUpdate_exec (bad := []) hawake hfind hbegun hent hfetched habuf hturn hloads hdrains
    refine ⟨fun hslot hgood => ?_, fun hslot => ?_⟩
    · obtain ⟨f, hf⟩ := updateTrailing_good (i := i.rowless m) hgood
      rw [if_neg (by rw [hslot]; decide), hf] at hexec
      have hop : i.op.streams = true := by
        have hp := List.find?_some hfind
        simp only [Bool.and_eq_true] at hp
        exact hp.1
      obtain ⟨harray, hx, htacc⟩ := trailing_spec hop hi f
      exact ⟨_, hexec, harray, _, hx, rfl, rfl, rfl, htacc⟩
    · rw [if_pos (by rw [hslot]; rfl)] at hexec
      exact stops_of_mFault (.refl s c) hexec
  · intro c s i hawake m r hhead hslot hruns hreads hout hready
    refine ⟨fun hgood => ?_, ?_⟩
    · exact ⟨_, drainRowRead_good hslot hruns hreads hout hready hawake hhead hgood, drainRowTaken_spec _⟩
    · exact stops_of_mFault (accUpset_sameRun ..) (drainRowRead_upset hslot hruns hreads hout hready hawake hhead)
  · intro c s r rest i hawake hout hhead hland
    refine ⟨_, drainRowWrite_exec hawake hout hhead, by simp, ?_⟩
    rw [core_setM, core_modCore_self]
    exact (drainRowStored_step hland r).scr

end Sys2Proof.Machine
end

section
/-! What the shared operations of the tile movers leave, and their failure (R199, R219, R220, R292). -/

namespace Sys2Proof.Machine

/-! ## Channels -/

theorem chan_of_movers_eq {s t : State} (h : t.movers = s.movers) (u k : Nat) : chan t u k = chan s u k := by
  unfold chan mover; rw [h]

@[simp] theorem chan_setChan_self (s : State) (u k : Nat) (v : Chan) : chan (setChan s u k v) u k = v := by
  simp only [chan, mover, setChan, mget_mput, if_true]

/-! ## What keeps the batch of a core -/

theorem Agree.sameRun {M : Nat} {s t : State} (h : Agree M s t) (c : Nat) (hn : M.testBit 3 = false) (hc : M.testBit 9 = false)
    (hk : M.testBit 11 = false) : SameRun s t c := ⟨h.now hn, h.kernels hk, batchOf_of_cores_eq (h.cores hc) c⟩

section
variable {s t u : State} {c : Nat}

/-- The same of operations that answer a value with their state. -/
theorem SameRun.foldl_snd {α β : Type} {f : β × State → α → β × State} (hf : ∀ r a, SameRun r.2 (f r a).2 c) (l : List α)
    (r : β × State) : SameRun r.2 (l.foldl f r).2 c := by
  induction l generalizing r with
  | nil => exact .refl r.2 c
  | cons a l ih => exact (hf r a).trans (ih _)

/-- A step on a scratchpad leaves the batch of every core. -/
theorem ScrStep.batchOf_eq {x : Nat} {m : Mem} (h : ScrStep s t x m) (c : Nat) : batchOf t c = batchOf s c := by
  by_cases hx : c = x
  · rw [hx, h.batch]
  · rw [batchOf, h.others c hx, batchOf]

/-- `writeMark_sameRun`, with the word on any core. -/
theorem writeMark_sameRun_at (x w src : Nat) (whole bad : Bool) : SameRun s (writeMark s x w src whole bad) c :=
  ⟨(writeMark_frame ..).now (by decide), (writeMark_frame ..).kernels (by decide), (writeMark_scr ..).batchOf_eq c⟩

theorem scrWriteAll_sameRun (x : Nat) (ws : List (Nat × List Byte)) (bad : List Nat) (src : Nat) :
    SameRun s (scrWriteAll s x ws bad src) c := by
  unfold scrWriteAll
  refine .trans (.foldl (fun s w => ?_) ..) (.trans (.foldl (fun s w => writeMark_sameRun_at ..) ..)
    (.foldl (fun s w => .modCore x (by intro; rfl)) ..))
  split
  · exact squashDone_sameRun _
  · exact .refl s c

theorem setF_sameRun (s : State) (f : RF) (k v w : Nat) : SameRun s (setF s f k v w) c := ⟨rfl, rfl, rfl⟩

theorem scanWords_sameRun (x src : Nat) (words : List Nat) : SameRun s (scanWords s x src words).2 c := by
  unfold scanWords
  refine SameRun.foldl_snd (r := ((⟨[], []⟩ : ScrFind), s)) (fun r w => ?_) words
  dsimp only
  split
  · exact .refl r.2 c
  · split
    · exact .refl r.2 c
    · refine .trans (t := countR r.2 r_TMV_SCR_CE 0 1) ⟨rfl, rfl, rfl⟩ ?_
      dsimp only
      exact .modCore x (by intro; rfl)
    · exact ⟨rfl, rfl, rfl⟩
    · exact .refl r.2 c

theorem scrReader_sameRun (n sp : Nat) (l : List (Nat × Nat)) : SameRun s (scrReader s n sp l).2.2 c := by
  unfold scrReader
  exact SameRun.foldl_snd (β := List (Nat × ScrFind)) (r := ([], s)) (fun r x => scanWords_sameRun ..) _

/-- Bytes of a destination that become undefined leave what runs. -/
theorem freeRange_sameRun (n k : Nat) (d : Desc) (held : List Xlat) (r : Nat × Nat) : SameRun s (freeRange s n k d held r) c := by
  unfold freeRange
  refine .ite (.refl s c) ?_
  dsimp only
  refine .trans (t := (freeBytes s r.2).2) ⟨rfl, rfl, rfl⟩ (.ite (.foldl (fun s w => ?_) ..) (.foldl (fun s w => ?_) ..))
  · split
    · exact (putReq_frame ..).sameRun c (by decide) (by decide) (by decide)
    · exact .refl s c
  · exact scrWriteAll_sameRun ..

theorem freeRanges_sameRun (n k : Nat) (d : Desc) (held : List Xlat) (l : List (Nat × Nat)) :
    SameRun s (freeRanges s n k d held l) c := .foldl (fun _ _ => freeRange_sameRun ..) l s

end

/-- The time and every kernel's fault are as before, and the batch on a core is of the same kernel and runs or stops as before. -/
structure StillRuns (s t : State) (c : Nat) : Prop where
  now : t.now = s.now
  fault : ∀ k, (kernel t k).fault = (kernel s k).fault
  batch : ∀ b, batchOf s c = some b → ∃ b', batchOf t c = some b' ∧ b'.kernel = b.kernel ∧ b'.why = b.why

section
variable {s t u : State} {c : Nat}

theorem StillRuns.trans (h : StillRuns s t c) (h' : StillRuns t u c) : StillRuns s u c := by
  refine ⟨h'.now.trans h.now, fun k => (h'.fault k).trans (h.fault k), fun b hb => ?_⟩
  obtain ⟨b1, hb1, hk1, hw1⟩ := h.batch b hb
  obtain ⟨b2, hb2, hk2, hw2⟩ := h'.batch b1 hb1
  exact ⟨b2, hb2, hk2.trans hk1, hw2.trans hw1⟩

theorem SameRun.stillRuns (h : SameRun s t c) : StillRuns s t c :=
  ⟨h.now, fun k => by rw [kernel_of_kernels_eq h.kernels], fun b hb => ⟨b, h.batch.trans hb, rfl, rfl⟩⟩

theorem SteadyCores.stillRuns (h : SteadyCores s t) (hn : t.now = s.now) (hk : t.kernels = s.kernels) : StillRuns s t c := by
  refine ⟨hn, fun k => by rw [kernel_of_kernels_eq hk], fun b hb => ?_⟩
  obtain ⟨n, hb'⟩ := h.batch_some hb
  exact ⟨_, hb', rfl, rfl⟩

theorem dropTile_stillRuns (id : Nat) : StillRuns s (dropTile s id) c :=
  (dropTile_steady s id).stillRuns ((dropTile_frame ..).now (by decide)) ((dropTile_frame ..).kernels (by decide))

theorem endDesc_stillRuns (n k : Nat) : StillRuns s (endDesc s n k) c := by
  have hrest : ∀ t : State, StillRuns t (popChan (forgetReqs t (fun _ r => r.owner = .moverRead n k)) n k) c := fun t =>
    .trans ((forgetReqs_frame ..).sameRun c (by decide) (by decide) (by decide)).stillRuns
      ((popChan_frame ..).sameRun c (by decide) (by decide) (by decide)).stillRuns
  unfold endDesc
  dsimp only
  split
  · exact (dropTile_stillRuns _).trans (hrest _)
  · exact hrest s

theorem modKernel_stillRuns (k : Nat) {f : Kernel → Kernel} (hf : ∀ x, (f x).fault = x.fault) : StillRuns s (modKernel s k f) c := by
  refine ⟨rfl, fun x => ?_, fun b hb => ⟨b, hb, rfl, rfl⟩⟩
  rw [kernel_modKernel]
  split
  · next hx => rw [hf, hx]
  · rfl

/-- The state once a failing descriptor has gone: what it leaves undefined of its destination is free (R220). -/
def descFailed (s : State) (n k : Nat) (d : Desc) (code : Nat) : State :=
  let t := endDesc (freeRanges s n k d ((chan s n k).bursts.flatMap Burst.held) (failRanges d (chan s n k))) n k
  if isBulk n then setF t f_TMV_BCH_STAT_LAST_ERR (bulkNum n k) code else t

theorem moverFail_eq (s : State) (n k : Nat) (d : Desc) (code addr : Nat) :
    moverFail s n k d code addr = descOwner (descFailed s n k d code) n k d code addr 0 := rfl

theorem descFailed_stillRuns (n k : Nat) (d : Desc) (code : Nat) : StillRuns s (descFailed s n k d code) c := by
  unfold descFailed
  refine .trans (.trans (freeRanges_sameRun n k d ((chan s n k).bursts.flatMap Burst.held) (failRanges d (chan s n k))).stillRuns
    (endDesc_stillRuns n k)) (SameRun.stillRuns ?_)
  exact .ite (setF_sameRun ..) (.refl ..)

theorem descOwner_xmov {d : Desc} {kid grp code : Nat} (hd : d.owner = .xmov kid grp) (hcode : code ≠ 0) (n k addr : Nat) (f : Flags) :
    descOwner s n k d code addr f =
      let t := modKernel s kid (fun x => { x with flagSum := x.flagSum ||| f })
      coreFault t n { groupFault t n grp code 0 0 (BitVec.ofNat 64 addr) with chan := some k } := by
  unfold descOwner
  simp only [hd, if_neg hcode]

/-- The failure of an XMOV descriptor is a fault of its core, once the descriptor has gone (R220). -/
theorem moverFail_xmov {d : Desc} (hd : isXmov d = true) (s : State) (n k : Nat) {code : Nat} (hcode : code ≠ 0) (addr : Nat) :
    ∃ t fi, StillRuns s t n ∧ fi.code = code ∧ moverFail s n k d code addr = coreFault t n fi := by
  obtain ⟨kid, grp, hown⟩ : ∃ kid grp, d.owner = .xmov kid grp := by
    unfold isXmov at hd
    split at hd
    · next kid grp h => exact ⟨kid, grp, h⟩
    · cases hd
  refine ⟨_, _, ?_, ?_, (moverFail_eq ..).trans (descOwner_xmov hown hcode n k addr 0)⟩
  · exact (descFailed_stillRuns n k d code).trans (modKernel_stillRuns kid (by intro; rfl))
  · rfl

/-- A command that ends in the failure of an XMOV descriptor stops the kernel. -/
theorem stops_of_moverFail {cmd : Instr} {d : Desc} {k code addr : Nat} (hd : isXmov d = true) (hcode : code ≠ 0)
    (ht : SameRun s t c) (he : exec cmd s = .next (moverFail t c k d code addr)) : Stops cmd s c code := by
  intro b hb hw hk
  obtain ⟨u, fi, hu, hfi, hfail⟩ := moverFail_xmov hd t c k hcode addr
  have hrun := ht.stillRuns.trans hu
  obtain ⟨b', hb', hkernel, hwhy⟩ := hrun.batch b hb
  obtain ⟨hfault, hstop, -⟩ := coreFault_first hb' (hwhy.trans hw) (by rw [hkernel, hrun.fault, hk]) fi
  rw [hkernel] at hfault hstop
  refine ⟨_, he, ?_, ?_⟩
  · rw [hfail, hfault, Option.map_some, hfi]
  · rw [hfail, hstop, hrun.now]

end

/-! ## The checks of ranges (R199, R295) -/

theorem stallTime_regs (s : State) (t : Tile) (n : Nat) : (stallTime s t n).regs = s.regs := by
  unfold stallTime
  dsimp only
  split
  · split <;> rfl
  · split
    · rfl
    · split <;> split <;> rfl

theorem unstall_regs (s : State) (id : Nat) : (unstall s id).regs = s.regs := by
  unfold unstall
  split
  · split
    · exact stallTime_regs ..
    · rfl
  · rfl

/-- Removing a tile changes no register but XLT_STATUS. -/
theorem getF_dropTile (s : State) (id : Nat) (f : RF) (k w : Nat) (h : regKey f_XLT_STATUS_TRACKER_FULL.reg 0 0 ≠ regKey f.reg k w) :
    getF (dropTile s id) f k w = getF s f k w := by
  have hold : ∀ t : State, t.regs = s.regs → getF (noteWaiting t) f k w = getF s f k w := by
    intro t ht
    have hr : getF t f k w = getF s f k w := by unfold getF; rw [getR_of_regs_eq ht]
    unfold noteWaiting
    split
    · rw [getF_setF_key _ _ _ _ _ _ _ _ h, hr]
    · exact hr
  exact hold _ (unstall_regs s id)

/-- The check of ranges rests on the kernel of the mover's core, the enabling of peer accesses, and the cores bound and their
regions. -/
theorem spaceCheck_congr {s t : State} {n : Nat} (hk : kernelOn t n = kernelOn s n)
    (hpeer : flagF t f_TMV_CFG_PEER_EN = flagF s f_TMV_CFG_PEER_EN) (hbound : ∀ i c, c < 144 → coreBound t i c = coreBound s i c)
    (hregion : ∀ c, (core t c).region = (core s c).region) (d : Desc) (sp : Nat) (l : List (Nat × Nat)) :
    spaceCheck t n d sp l = spaceCheck s n d sp l := by
  have hok : ∀ c a m, peerOk t n d c a m = peerOk s n d c a m := by
    intro c a m
    unfold peerOk
    by_cases hc : c < 144
    · rw [hk, hpeer, hbound _ _ hc, hregion]
    · simp [hc]
  unfold spaceCheck
  simp only [hk, hok]

theorem cmpCore_key {c : Nat} (hc : c < 144) : regKey f_XLT_STATUS_TRACKER_FULL.reg 0 0 ≠ regKey r_CMP_CORE c 0 := by
  simp only [regKey, f_XLT_STATUS_TRACKER_FULL, r_XLT_STATUS, r_CMP_CORE]
  omega

theorem spaceCheck_dropTile (s : State) (id n : Nat) (d : Desc) (sp : Nat) (l : List (Nat × Nat)) :
    spaceCheck (dropTile s id) n d sp l = spaceCheck s n d sp l := by
  refine spaceCheck_congr ?_ ?_ (fun i c hc => ?_) (fun c => ?_) d sp l
  · have hkernel : ∀ k, kernel (dropTile s id) k = kernel s k := kernel_of_kernels_eq ((dropTile_frame ..).kernels (by decide))
    unfold kernelOn
    cases hb : batchOf s n with
    | none => rw [(dropTile_steady s id).batch_none.2 hb]
    | some b =>
      obtain ⟨m, hb'⟩ := (dropTile_steady s id).batch_some hb
      simp only [hb', hkernel]
  · unfold flagF
    rw [getF_dropTile _ _ _ _ _ (by decide)]
  · unfold coreBound
    rw [getF_dropTile _ _ _ _ _ (cmpCore_key hc), getF_dropTile _ _ _ _ _ (cmpCore_key hc)]
  · rw [((dropTile_steady s id) c).1]

/-! ## The entry of a tile (R219, R292) -/

theorem chanTile_pages {pages : List Nat} (h : pages ≠ []) (s : State) (u k : Nat) (d : Desc) (rights : Nat) :
    chanTile s u k d pages rights =
      let r := newTile s (moverTile s u k d pages rights)
      setChan r.2 u k { chan r.2 u k with state := .translating, tile := some r.1 } := by
  unfold chanTile
  rw [if_neg (by simpa using h)]

theorem chan_chanTile (s : State) (u k : Nat) (d : Desc) (pages : List Nat) (rights : Nat) :
    ∃ t, chan (chanTile s u k d pages rights) u k = { chan s u k with state := .translating, tile := t } := by
  by_cases h : pages = []
  · exact ⟨none, by rw [chanTile, if_pos (by rw [h]; rfl), chan_setChan_self]⟩
  · refine ⟨some (newTile s (moverTile s u k d pages rights)).1, ?_⟩
    rw [chanTile_pages h]
    dsimp only
    rw [chan_setChan_self, chan_of_movers_eq ((newTile_frame ..).movers (by decide))]

end Sys2Proof.Machine
end

section
/-! O22: the header and the tile rows of a block-sparse transfer (R149, R150, R154). -/

namespace Sys2Proof.Machine

/-! ## The bytes of a stage (R154, R220) -/

section
variable {s : State}

/-- Dropping the reads of a burst leaves the movers, when no request is held back behind them. -/
theorem dropReads_movers (h : NoHeld s) (b : Burst) : (dropReads s b).movers = s.movers := by
  unfold dropReads
  generalize b.reads = l
  induction l generalizing s with
  | nil => rfl
  | cons r l ih =>
    rw [List.foldl_cons]
    split
    · next q _ =>
      have hdrop := dropReq_of_noHeld h r.1
      have hreqs : (countPoison (readMiss (dropReq s r.1) q) (((reqEnd s q).map (fun e => e.2.1)).getD 0)).reqs =
          (dropReq s r.1).reqs :=
        ((countPoison_frame ..).reqs (by decide)).trans ((readMiss_frame ..).reqs (by decide))
      refine (ih fun kv hkv => ?_).trans (((countPoison_frame ..).movers (by decide)).trans
        (((readMiss_frame ..).movers (by decide)).trans (by rw [hdrop])))
      rw [hreqs, hdrop] at hkv
      exact h kv (List.mem_of_mem_filter hkv)
    · exact ih h

variable {s1 : State} {u k : Nat} {d : Desc} {e : Nat} {bytes : List PByte}

/-- The state in which a stage's bytes have been read: a scan of scratchpad words, and the reads of its burst dropped. -/
theorem stageBytes_state (h : stageBytes s u k d = some (e, bytes, s1)) :
    ∃ t b, (t = s ∨ ∃ sp l, t = (scrReader s u sp l).2.2) ∧ s1 = dropReads t b := by
  unfold stageBytes at h
  dsimp only at h
  split at h
  · cases h
  · next b _ _ =>
    split at h
    · cases h
    · simp only [Option.some.injEq, Prod.mk.injEq] at h
      obtain ⟨-, -, rfl⟩ := h
      refine ⟨_, b, ?_, rfl⟩
      split
      · exact .inl rfl
      · exact .inr ⟨_, _, rfl⟩

theorem stageBytes_sameRun (h : stageBytes s u k d = some (e, bytes, s1)) (c : Nat) : SameRun s s1 c := by
  obtain ⟨t, b, ht, rfl⟩ := stageBytes_state h
  refine .trans (t := t) ?_ ((dropReads_frame ..).sameRun c (by decide) (by decide) (by decide))
  obtain rfl | ⟨sp, l, rfl⟩ := ht
  · exact .refl ..
  · exact scrReader_sameRun ..

theorem stageBytes_movers (hn : NoHeld s) (h : stageBytes s u k d = some (e, bytes, s1)) : s1.movers = s.movers := by
  obtain ⟨t, b, ht, rfl⟩ := stageBytes_state h
  obtain rfl | ⟨sp, l, rfl⟩ := ht
  · exact dropReads_movers hn b
  · have hreqs : (scrReader s u sp l).2.2.reqs = s.reqs := (scrReader_frame ..).reqs (by decide)
    refine (dropReads_movers (fun kv hkv => hn kv ?_) b).trans ((scrReader_frame ..).movers (by decide))
    rwa [hreqs] at hkv

/-- A stage whose bytes have come without error or poison goes on with them. -/
theorem withStage_reads {n : Nat} {ok : List PByte → State → State} (hstage : (chan s u k).stage = n)
    (hstate : (chan s u k).state = .translating) (hawake : sleepers s u (stageSpace d) (stageRanges d (chan s u k)) = [])
    (hread : stageBytes s u k d = some (0, bytes, s1)) (hclean : bytes.any Prod.snd = false) :
    withStage s u k n d ok = ok bytes s1 := by
  unfold withStage
  simp [hstage, hstate, hawake, hread, hclean]

end

/-! ## The next stage -/

/-- A channel that begins a stage of reads; index records are read as far as one tile goes. -/
def Chan.staged (c : Chan) (s : State) (d : Desc) (n : Nat) : Chan :=
  { c with stage := n, lim := if n = 2 then (0, idxPart s d (idxRest d c)) else c.lim }

section
variable {s : State} {u k n : Nat} {d : Desc}

/-- A stage whose ranges pass their check enters their pages into translation. -/
theorem beginStage_good
    (hspace : spaceCheck s u d (stageSpace d) (stageRanges d ((chan s u k).staged s d n)) = none) :
    let c := chan s u k
    let l := stageRanges d (c.staged s d n)
    beginStage s u k d n = chanTile (setChan s u k { c.staged s d n with
      spans := if d.listed then c.spans else addSpans c.spans (spansOf u d.sspace 0 l) }) u k d
      (if stageSpace d = 1 then rangePages l else []) 1 := by
  unfold beginStage
  dsimp only
  split
  · next h => cases hspace.symm.trans h
  · rfl

theorem chan_beginStage
    (hspace : spaceCheck s u d (stageSpace d) (stageRanges d ((chan s u k).staged s d n)) = none) :
    ∃ sp t, chan (beginStage s u k d n) u k =
      { (chan s u k).staged s d n with spans := sp, state := .translating, tile := t } := by
  rw [beginStage_good hspace]
  obtain ⟨t, ht⟩ := chan_chanTile (setChan s u k { (chan s u k).staged s d n with
    spans := if d.listed then (chan s u k).spans else addSpans (chan s u k).spans
      (spansOf u d.sspace 0 (stageRanges d ((chan s u k).staged s d n))) }) u k d
    (if stageSpace d = 1 then rangePages (stageRanges d ((chan s u k).staged s d n)) else []) 1
  rw [chan_setChan_self] at ht
  exact ⟨_, t, ht⟩

/-- The state in which a channel's tile is gone. -/
def untiled (s : State) (u k : Nat) : State :=
  match (chan s u k).tile with
  | some t => dropTile s t
  | none => s

theorem chan_untiled (s : State) (u k : Nat) : chan (untiled s u k) u k = chan s u k := by
  unfold untiled
  split
  · exact chan_of_movers_eq ((dropTile_frame ..).movers (by decide)) u k
  · rfl

theorem spaceCheck_untiled (s : State) (u k : Nat) (d : Desc) (sp : Nat) (l : List (Nat × Nat)) :
    spaceCheck (untiled s u k) u d sp l = spaceCheck s u d sp l := by
  unfold untiled
  split
  · exact spaceCheck_dropTile ..
  · rfl

/-- A block-sparse transfer with a tile row to read begins the stage that it needs. -/
theorem nextTile_bst (hop : d.op = dBst) (hmore : (chan s u k).row < d.rows) (hneed : needsStage d (chan s u k) = some n) :
    nextTile s u k d = beginStage (untiled s u k) u k d n := by
  have hrow : ¬ d.rows ≤ (chan s u k).row := Nat.not_le.2 hmore
  unfold nextTile
  simp only [hop, hneed, hrow, ne_eq, not_true_eq_false, decide_false, decide_true, Bool.false_and, Bool.and_false, Bool.or_false,
    Bool.false_eq_true, if_false]
  rfl

/-- A block-sparse transfer that has read a stage goes on with the stage that it needs then. -/
theorem chan_stageDone_bst {f : Chan → Chan} {c : Chan} (hc : f { chan s u k with bursts := [], stage := 0, peerSince := none } = c)
    (hop : d.op = dBst) (hmore : c.row < d.rows) (hneed : needsStage d c = some n)
    (hspace : ∀ t, spaceCheck s u d (stageSpace d) (stageRanges d (c.staged t d n)) = none) :
    ∃ t sp tile, chan (stageDone s u k d f) u k = { c.staged t d n with spans := sp, state := .translating, tile := tile } := by
  have hchan : chan (setChan s u k c) u k = c := chan_setChan_self ..
  have hbegin := chan_beginStage (s := untiled (setChan s u k c) u k) (u := u) (k := k) (d := d) (n := n)
  rw [chan_untiled, hchan, spaceCheck_untiled] at hbegin
  obtain ⟨sp, tile, h⟩ := hbegin (hspace _)
  refine ⟨_, sp, tile, Eq.trans (congrArg (chan · u k) ?_) h⟩
  unfold stageDone
  rw [hc, nextTile_bst (n := n) hop (by rwa [hchan]) (by rwa [hchan])]

end

/-! ## Index records (R147, R292) -/

theorem length_foldl_le {α β : Type} {f : List β → α → List β} (hf : ∀ acc a, (f acc a).length ≤ acc.length + 1) (l : List α)
    (acc : List β) : (l.foldl f acc).length ≤ acc.length + l.length := by
  induction l generalizing acc with
  | nil => exact Nat.le_refl _
  | cons a l ih =>
    rw [List.foldl_cons, List.length_cons]
    have hstep := hf acc a
    have hrest := ih (f acc a)
    omega

theorem length_pagesOf_le (l : List Nat) : (pagesOf l).length ≤ l.length := by
  refine (length_foldl_le (fun acc a => ?_) l []).trans_eq (Nat.zero_add _)
  split
  · rw [List.length_map]; omega
  · rw [List.length_append, List.length_singleton]

/-- A tile reads no more index records than remain. -/
theorem idxPart_le (s : State) (d : Desc) (r : Nat × Nat) : idxPart s d r ≤ r.2 := by
  unfold idxPart
  split
  · exact Nat.le_refl _
  · next h =>
    have hpages : 128 < (rangePages [r]).length := by
      simp only [fitsTile, Bool.or_eq_true, decide_eq_true_eq, not_or] at h
      exact Nat.lt_of_not_le h.2.1
    have hlen : (rangePages [r]).length ≤ (r.1 % 4096 + r.2 + 4095) / 4096 := by
      refine (length_pagesOf_le _).trans ?_
      simp
    omega

/-- A tile row with a tile present has index records to read, in an object that has any (R145, R147). -/
theorem idxBytes_pos {c : Chan} (hspn : (bstOf c.hdr).spn ≠ 0) (hlist : 1 ∈ c.list) : 0 < idxBytes c := by
  have hsum : 1 ≤ c.list.foldl (· + ·) 0 := by
    rw [← List.sum_eq_foldl]
    exact List.le_sum_of_mem hlist
  exact Nat.mul_pos hsum (by unfold Bst.it; omega)

/-! ## The stages a block-sparse transfer needs (R150) -/

section
variable {d : Desc} {c : Chan}

theorem listed_of_bst (hop : d.op = dBst) : d.listed = false := by simp [Desc.listed, hop, dBst, dGather, dScatter]

theorem needsStage_tileRow (hop : d.op = dBst) (hhdr : c.hdr ≠ []) (hlist : c.list = []) : needsStage d c = some 1 := by
  simp [needsStage, hop, hhdr, hlist]

theorem needsStage_index (hop : d.op = dBst) (hhdr : c.hdr ≠ []) (hspn : (bstOf c.hdr).spn ≠ 0) (hlist : 1 ∈ c.list)
    (hidx : c.idx = []) : needsStage d c = some 2 := by
  have hpos : 0 < idxBytes c := idxBytes_pos hspn hlist
  simp [needsStage, hop, hhdr, List.ne_nil_of_mem hlist, hidx, hpos]

theorem stageRanges_index (hop : d.op = dBst) (s : State) : stageRanges d (c.staged s d 2) =
    [((idxRest d c).1, idxPart s d (idxRest d c))] := by
  simp only [stageRanges, listed_of_bst hop, Chan.staged]
  rfl

/-- A header without bytes is not valid: it lacks MAGIC (R145, R149). -/
theorem ne_nil_of_bstValid {h : List Byte} (hv : bstValid h = true) : h ≠ [] := by
  rintro rfl
  exact absurd hv (by decide)

end

/-! ## The commands -/

/-- The reads of stage `n` of a block-sparse transfer of the batch on core `u` have come, without error or poison, and are taken in
in state `s1`. -/
structure StageRead (s s1 : State) (u k : Nat) (d : Desc) (n : Nat) (bytes : List PByte) : Prop where
  front : XmovFront s u k d
  op : d.op = dBst
  noHeld : NoHeld s
  stage : (chan s u k).stage = n
  translating : (chan s u k).state = .translating
  awake : sleepers s u (stageSpace d) (stageRanges d (chan s u k)) = []
  read : stageBytes s u k d = some (0, bytes, s1)
  clean : bytes.any Prod.snd = false

section
variable {s s1 : State} {u k n : Nat} {d : Desc} {bytes : List PByte}

theorem StageRead.withStage (h : StageRead s s1 u k d n bytes) (ok : List PByte → State → State) :
    withStage s u k n d ok = ok bytes s1 := withStage_reads h.stage h.translating h.awake h.read h.clean

theorem StageRead.chan_eq (h : StageRead s s1 u k d n bytes) : chan s1 u k = chan s u k :=
  chan_of_movers_eq (stageBytes_movers h.noHeld h.read) u k

/-- A stage that ends in the transfer's failure stops the kernel. -/
theorem StageRead.stops {cmd : Instr} (h : StageRead s s1 u k d n bytes)
    (he : exec cmd s = .next (moverFail s1 u k d errBstFormat d.src)) : Stops cmd s u errBstFormat :=
  stops_of_moverFail h.front.2 (by decide) (stageBytes_sameRun h.read u) he

theorem bstHeaderReturn_invalid (h : StageRead s s1 u k d 3 bytes) (hbad : bstValid (bytes.map Prod.fst) = false) :
    exec (.bstHeaderReturn u k) s = .next (moverFail s1 u k d errBstFormat d.src) := by
  change execBstHeaderReturn u k s = _
  unfold execBstHeaderReturn
  simp only [h.front.1, h.op, ne_eq, not_true_eq_false, if_false, h.withStage, hbad, Bool.not_false, if_true]

theorem bstHeaderReturn_fits (h : StageRead s s1 u k d 3 bytes) (hv : bstValid (bytes.map Prod.fst) = true)
    (hfit : bstFits d (bstOf (bytes.map Prod.fst)) = none) :
    exec (.bstHeaderReturn u k) s = .next (stageDone s1 u k d (fun c => { c with hdr := bytes.map Prod.fst })) := by
  change execBstHeaderReturn u k s = _
  unfold execBstHeaderReturn
  simp only [h.front.1, h.op, ne_eq, not_true_eq_false, if_false, h.withStage, hv, hfit, Bool.not_true, Bool.false_eq_true]

/-- The present bit of tile `j` of tile row `i`, in the bytes of its metadata (R146). -/
def rowHas (b : Bst) (i : Nat) (bytes : List PByte) (j : Nat) : Nat := b2n (bitAt (leNat (bytes.map Prod.fst)) (i * b.cols % 8 + j))

/-- How many of its first `j` tiles are present. -/
def rowOnes (b : Bst) (i : Nat) (bytes : List PByte) (j : Nat) : Nat := (List.range j).foldl (fun a j => a + rowHas b i bytes j) 0

/-- Row-base entry `i + j` (R146). -/
def rowBase (b : Bst) (i : Nat) (bytes : List PByte) (j : Nat) : Nat :=
  leNat ((((bytes.drop ((i * b.cols + b.cols + 7) / 8 - i * b.cols / 8)).drop (4 * j)).take 4).map Prod.fst)

/-- The present bits of a tile row's tiles that lie in the extent. -/
def rowHere (d : Desc) (b : Bst) (i : Nat) (bytes : List PByte) : List Nat := (List.range d.cj).map (fun j => rowHas b i bytes (d.j0 + j))

/-- The SKIPMAP word once a tile row has been taken in whose bits in the extent are `here` (R153). -/
def rowSkip (c : Chan) (d : Desc) (here : List Nat) : Nat :=
  if c.row / d.cj < 32 && here.all (fun x => x = 0) then c.skip + 2 ^ (c.row / d.cj) else c.skip

/-- A channel that takes in tile row `i`, with the SKIPMAP word that it leaves (R150). -/
def Chan.withRow (c : Chan) (d : Desc) (b : Bst) (i skip : Nat) (bytes : List PByte) : Chan :=
  { c with list := rowHere d b i bytes, rank := rowBase b i bytes 0 + rowOnes b i bytes d.j0, skip := skip, idx := [] }

theorem bstTileRow_exec (h : StageRead s s1 u k d 1 bytes) :
    let b := bstOf (chan s u k).hdr
    let i := d.i0 + (chan s u k).row / d.cj
    exec (.bstTileRow u k) s = .next
      (if rowBase b i bytes 0 + rowOnes b i bytes b.cols ≠ rowBase b i bytes 1 || b.present < rowBase b i bytes 1 then
        moverFail s1 u k d errBstFormat d.src
      else stageDone s1 u k d (fun c => c.withRow d b i (rowSkip (chan s u k) d (rowHere d b i bytes)) bytes)) := by
  intro b i
  change execBstTileRow u k s = _
  unfold execBstTileRow
  simp only [h.front.1, h.op, ne_eq, not_true_eq_false, if_false, h.withStage, h.chan_eq]
  rfl

/-- A valid header that the transfer fits is kept, and the first tile row's metadata is read. -/
theorem bstHeaderReturn_good (h : StageRead s s1 u k d 3 bytes) (hv : bstValid (bytes.map Prod.fst) = true)
    (hfit : bstFits d (bstOf (bytes.map Prod.fst)) = none) (hrow : (chan s u k).row < d.rows) (hlist : (chan s u k).list = [])
    (hspace : spaceCheck s1 u d (stageSpace d)
      (stageRanges d { chan s u k with hdr := bytes.map Prod.fst, stage := 1 }) = none) :
    Gives (.bstHeaderReturn u k) s (fun s' => (chan s' u k).hdr = bytes.map Prod.fst ∧ (chan s' u k).stage = 1
      ∧ (chan s' u k).state = .translating) := by
  obtain ⟨t, sp, tile, hc⟩ := chan_stageDone_bst (s := s1) (u := u) (k := k) (n := 1)
    (f := fun c => { c with hdr := bytes.map Prod.fst }) rfl h.op (by rwa [h.chan_eq])
    (needsStage_tileRow h.op (ne_nil_of_bstValid hv) (by rwa [h.chan_eq])) (fun _ => by rw [h.chan_eq]; exact hspace)
  exact ⟨_, bstHeaderReturn_fits h hv hfit, congrArg Chan.hdr hc, congrArg Chan.stage hc, congrArg Chan.state hc⟩

/-- A tile row in order is kept, and its index records are read. -/
theorem bstTileRow_good (h : StageRead s s1 u k d 1 bytes) :
    let c := chan s u k
    let b := bstOf c.hdr
    let i := d.i0 + c.row / d.cj
    let rest := idxRest d { c with
      list := rowHere d b i bytes, rank := rowBase b i bytes 0 + rowOnes b i bytes d.j0, idx := [] }
    rowBase b i bytes 0 + rowOnes b i bytes b.cols = rowBase b i bytes 1 → rowBase b i bytes 1 ≤ b.present →
    b.spn ≠ 0 → 1 ∈ rowHere d b i bytes → c.hdr ≠ [] → c.row < d.rows →
    (∀ n, n ≤ rest.2 → spaceCheck s1 u d (stageSpace d) [(rest.1, n)] = none) →
    Gives (.bstTileRow u k) s (fun s' => (chan s' u k).list = rowHere d b i bytes
      ∧ (chan s' u k).rank = rowBase b i bytes 0 + rowOnes b i bytes d.j0 ∧ (chan s' u k).stage = 2
      ∧ (chan s' u k).state = .translating) := by
  intro c b i rest hbase hpresent hspn hhere hhdr hrow hspace
  let take : Chan → Chan := fun c => c.withRow d b i (rowSkip (chan s u k) d (rowHere d b i bytes)) bytes
  have hexec : exec (.bstTileRow u k) s = .next (stageDone s1 u k d take) := by
    refine (bstTileRow_exec h).trans (congrArg Host.Outcome.next (if_neg ?_))
    simp only [ne_eq, Bool.or_eq_true, decide_eq_true_eq, not_or, not_not, Nat.not_lt]
    exact ⟨hbase, hpresent⟩
  obtain ⟨t, sp, tile, hc⟩ := chan_stageDone_bst (s := s1) (u := u) (k := k) (n := 2) (f := take)
    (c := take { c with bursts := [], stage := 0, peerSince := none }) (by rw [h.chan_eq]) h.op hrow
    (needsStage_index h.op hhdr hspn hhere rfl)
    (fun t => by rw [stageRanges_index h.op]; exact hspace _ (idxPart_le t d rest))
  exact ⟨_, hexec, congrArg Chan.list hc, congrArg Chan.rank hc, congrArg Chan.stage hc, congrArg Chan.state hc⟩

end

/-- Settles O22: each stage's bytes come in as they were read, and the transfer fails or goes on with the stage that it needs. -/
theorem moverBst : Obligations.MoverBst := by
  refine ⟨?_, ?_⟩
  · intro u k s s1 d bytes hfront hop c h hheld hstage hstate hawake hread hclean
    have hs : StageRead s s1 u k d 3 bytes := ⟨hfront, hop, hheld, hstage, hstate, hawake, hread, hclean⟩
    refine ⟨fun hbad => hs.stops (bstHeaderReturn_invalid hs hbad), fun hv hfit hrow hlist hrows hspace => ?_⟩
    exact bstHeaderReturn_good hs hv hfit (by rw [hrow]; exact Nat.pos_of_ne_zero hrows) hlist hspace
  · intro u k s s1 d bytes hfront hop c b i bits has n base present hheld hstage hstate hawake hread hclean
    have hs : StageRead s s1 u k d 1 bytes := ⟨hfront, hop, hheld, hstage, hstate, hawake, hread, hclean⟩
    refine ⟨fun hbad => ?_, ?_⟩
    · refine hs.stops ((bstTileRow_exec hs).trans (congrArg Host.Outcome.next (if_pos ?_)))
      simp only [Bool.or_eq_true, decide_eq_true_eq]
      exact hbad
    · rintro hbase hpresent hspn ⟨j, hj, hone⟩ hhdr hrow rest hspace
      exact bstTileRow_good hs hbase hpresent hspn (List.mem_map.2 ⟨j, List.mem_range.2 hj, hone⟩) hhdr hrow hspace

end Sys2Proof.Machine
end

section
/-! What updates of a Gate unit and the drop of answered requests leave of its running dispatch (R157, R173). -/

namespace Sys2Proof.Machine

/-! ## Gate units and their running dispatches -/

section
variable {s t : State}

theorem gateOf_of_gates_eq (h : t.gates = s.gates) (x : Nat) : gateOf t x = gateOf s x := by
  unfold gateOf
  rw [h]

theorem gateRun_of_gates_eq (h : t.gates = s.gates) (x : Nat) : gateRun t x = gateRun s x :=
  congrArg Gate.run (gateOf_of_gates_eq h x)

@[simp] theorem gateOf_modGate_self (w : Nat) (f : Gate → Gate) : gateOf (modGate s w f) w = f (gateOf s w) :=
  (mget_mput ..).trans (if_pos rfl)

@[simp] theorem gateRun_modRun_self (w : Nat) (f : GateRun → GateRun) : gateRun (modRun s w f) w = (gateRun s w).map f :=
  congrArg Gate.run (gateOf_modGate_self w _)

theorem gateRun_devDone (q c w : Nat) : gateRun (devDone s q c) w = gateRun s w :=
  gateRun_of_gates_eq ((devDone_frame s q c).gates (by decide)) w

theorem devDone_hbm (q c : Nat) : (devDone s q c).hbm = s.hbm := (devDone_frame s q c).hbm (by decide)

end

end Sys2Proof.Machine
end

section
/-! O25: the events of a landing slot (R180 to R187) and the GATE registers that squash and forget (R177, R186, R188). -/

namespace Sys2Proof.Machine

/-! ## The squash of a slot (R184, R186) -/

section
variable {s : State} {id : Nat} {l : LandSlot}

theorem doomSlot_eq (h : mfind s.landing id = some l) (hl : Squashable l) :
    doomSlot s id = { s with landing := mput s.landing id { l with state := .doomed } } := by
  simp only [doomSlot, h]
  rw [if_neg (by simpa [Squashable] using hl)]

theorem landOf_mput (m : LandSlot) (x : Nat) :
    landOf { s with landing := mput s.landing id m } x = if id = x then some m.state else landOf s x := by
  simp only [landOf, mfind_mput]
  split <;> rfl

theorem landOf_doomSlot_self (h : mfind s.landing id = some l) (hl : Squashable l) : landOf (doomSlot s id) id = some .doomed := by
  rw [doomSlot_eq h hl, landOf_mput, if_pos rfl]

/-- A slot that can be squashed stands as it was, or is doomed, after any slot is. -/
theorem mfind_doomSlot (x : Nat) (h : mfind s.landing id = some l) :
    mfind (doomSlot s x).landing id = some l ∨ landOf (doomSlot s x) id = some .doomed := by
  unfold doomSlot
  split
  · exact .inl h
  · next k hk =>
    split
    · exact .inl h
    · by_cases hx : x = id
      · exact .inr (by rw [landOf_mput, if_pos hx])
      · exact .inl (by rw [mfind_mput, if_neg hx]; exact h)

theorem landOf_doomSlot_doomed (x : Nat) (h : landOf s id = some .doomed) : landOf (doomSlot s x) id = some .doomed := by
  obtain ⟨l, hl, hst⟩ := Option.map_eq_some_iff.1 h
  rcases mfind_doomSlot x hl with hkept | hdoomed
  · rw [landOf, hkept, Option.map_some, hst]
  · exact hdoomed

theorem landOf_foldl_doomSlot (L : List (Nat × LandSlot)) (h : mfind s.landing id = some l) (hl : Squashable l)
    (hmem : id ∈ L.map Prod.fst ∨ landOf s id = some .doomed) :
    landOf (L.foldl (fun s kv => doomSlot s kv.1) s) id = some .doomed := by
  induction L generalizing s l with
  | nil => simpa using hmem
  | cons kv L ih =>
    rw [List.foldl_cons]
    rcases mfind_doomSlot kv.1 h with hkept | hdoomed
    · refine ih hkept hl ?_
      rcases hmem with hin | hd
      · rcases List.mem_cons.1 (List.map_cons ▸ hin) with rfl | hin
        · exact .inr (landOf_doomSlot_self h hl)
        · exact .inl hin
      · exact .inr (landOf_doomSlot_doomed kv.1 hd)
    · obtain ⟨m, hm, hst⟩ := Option.map_eq_some_iff.1 hdoomed
      exact ih hm ⟨by simp [hst], by simp [hst]⟩ (.inr hdoomed)

/-- Every held slot that meets a test is doomed. -/
theorem landOf_doomIf {p : LandSlot → Bool} (h : mfind s.landing id = some l) (hl : Squashable l) (hp : p l = true) :
    landOf (doomIf s p) id = some .doomed :=
  landOf_foldl_doomSlot _ h hl (.inl (List.mem_map.2 ⟨(id, l), List.mem_filter.2 ⟨mem_of_mfind h, hp⟩, rfl⟩))

theorem landOf_squashWing (h : mfind s.landing id = some l) (hl : Squashable l) : landOf (squashWing s l.wing) id = some .doomed :=
  landOf_doomIf h hl (decide_eq_true rfl)

theorem squashWing_regs (s : State) (w : Nat) : (squashWing s w).regs = s.regs := by
  unfold squashWing doomIf
  refine List.foldlRecOn _ (motive := fun t : State => t.regs = s.regs) _ rfl fun t ht kv _ => ?_
  rw [← ht]
  unfold doomSlot
  split
  · rfl
  · split <;> rfl

theorem squashWing_gates (s : State) (w : Nat) : (squashWing s w).gates = s.gates := (squashWing_frame s w).gates (by decide)

end

/-! ## The events of a landing slot -/

section
variable {s : State} {id : Nat} {l : LandSlot}

/-- A fetch that lands: the slot's state, the scratchpad of its core, and the registers. -/
theorem landSlot_spec (hi : instarOf s (.core l.core) = l.instar) :
    (∃ n, mfind (landSlot s id l []).landing id = some { l with state := .landed, errs := [], poisoned := n })
      ∧ (core (landSlot s id l []) l.core).scr = memPut (core s l.core).scr l.base ((landBytes s l []).map Prod.fst)
      ∧ (landSlot s id l []).regs = s.regs := by
  rw [landSlot, if_neg (not_not_intro hi)]
  refine ⟨⟨_, (mfind_mput ..).trans (if_pos rfl)⟩, ?_, rfl⟩
  simp only [core, modCore, setCore, mget_mput, if_true]

/-- The promotion of a slot whose reads met no error. -/
theorem promoteSlot_eq (h : mfind s.landing id = some l) (he : l.errs = []) :
    promoteSlot s id = countR (countR { s with landing := mput s.landing id { l with state := .promoted } } r_GATE_PROMOTED l.wing l.len)
      r_MEM_POISON_RD 0 l.poisoned := by
  simp only [promoteSlot, h, he, List.foldl_nil]

theorem getR_promoteSlot (h : mfind s.landing id = some l) (he : l.errs = []) :
    getR (promoteSlot s id) r_GATE_PROMOTED l.wing = (getR s r_GATE_PROMOTED l.wing + l.len) % 2 ^ 64 := by
  rw [promoteSlot_eq h he, getR_countR_key, getR_countR_same]
  · rfl
  · simp only [regKey, r_MEM_POISON_RD, r_GATE_PROMOTED]
    omega

theorem slotFetchLanded_gives (h : mfind s.landing id = some l) (hst : l.state = .fetching) (hm : landMapped s l = true)
    (hi : instarOf s (.core l.core) = l.instar) :
    Gives (.slotFetchLanded id []) s (fun s' => landOf s' id = some .landed
      ∧ (core s' l.core).scr = memPut (core s l.core).scr l.base ((landBytes s l []).map Prod.fst)) := by
  have hexec : exec (.slotFetchLanded id []) s = .next (landSlot s id l []) := by
    change execSlotFetchLanded id [] s = _
    simp only [execSlotFetchLanded, h, hst, hm, decide_true, Bool.and_true, if_true]
  obtain ⟨⟨n, hfind⟩, hscr, -⟩ := landSlot_spec (id := id) hi
  exact ⟨_, hexec, by rw [landOf, hfind]; rfl, hscr⟩

theorem slotFetchVoid_exec (h : mfind s.landing id = some l) (hm : landMapped s l = false) :
    exec (.slotFetchVoid id) s = .next (if l.state = .fetching then { s with landing := mput s.landing id { l with state := .void } }
      else if l.state = .promoting then doomSlot s id else s) := by
  change execSlotFetchVoid id s = _
  simp only [execSlotFetchVoid, h, hm, Bool.false_eq_true, if_false]

theorem slotPromoted_gives (h : mfind s.landing id = some l) (hst : l.state = .promoting) (hm : landMapped s l = true)
    (hi : instarOf s (.core l.core) = l.instar) :
    Gives (.slotPromoted id []) s (fun s' => landOf s' id = some .promoted
      ∧ (core s' l.core).scr = memPut (core s l.core).scr l.base ((landBytes s l []).map Prod.fst)
      ∧ getR s' r_GATE_PROMOTED l.wing = (getR s r_GATE_PROMOTED l.wing + l.len) % 2 ^ 64) := by
  obtain ⟨⟨n, hfind⟩, hscr, hregs⟩ := landSlot_spec (id := id) hi
  have hexec : exec (.slotPromoted id []) s = .next (promoteSlot (landSlot s id l []) id) := by
    change execSlotPromoted id [] s = _
    simp only [execSlotPromoted, h, hst, hm, decide_true, Bool.and_true, if_true, hfind, Option.map_some]
  refine ⟨_, hexec, ?_, ?_, ?_⟩
  · rw [promoteSlot_eq hfind rfl]
    exact (landOf_mput _ _).trans (if_pos rfl)
  · rw [promoteSlot_eq hfind rfl]
    exact hscr
  · rw [← getR_of_regs_eq hregs]
    exact (getR_promoteSlot hfind rfl :)

theorem squash_exec (h : mfind s.landing id = some l) (hst : l.state = .doomed) :
    exec (.squash id) s = .next { s with landing := mput s.landing id { l with state := .squashing } } := by
  change execSquash id s = _
  simp only [execSquash, h, hst, if_true]

theorem squashComplete_exec (h : mfind s.landing id = some l) (hst : l.state = .squashing) :
    exec (.squashComplete id) s = .next (zeroScr { s with landing := mdel s.landing id } l.core l.base l.len) := by
  change execSquashComplete id s = _
  simp only [execSquashComplete, h, hst, if_true, squashDone]

theorem mem8_zeroScr_off (c lo len a : Nat) (ha : a < lo ∨ lo + len ≤ a) :
    mem8 (core (zeroScr s c lo len) c).scr a = mem8 (core s c).scr a := by
  have hout : (decide (lo ≤ a) && decide (a < lo + len)) = false := by
    rw [Bool.and_eq_false_iff, decide_eq_false_iff_not, decide_eq_false_iff_not]
    omega
  rw [zeroScr, core_modCore_self, mem8, mget, mfind_filter_key (fun _ => by simp only [hout, Bool.not_false])]
  rfl

theorem slotTtlExpiry_exec (h : mfind s.landing id = some l) (hd : dueRun s l.since (getF s f_GATE_SPEC_TTL_US * usTicks) = true) :
    exec (.slotTtlExpiry id) s = .next (doomSlot s id) := by
  change execSlotTtlExpiry id s = _
  simp only [execSlotTtlExpiry, h, hd, if_true]

end

/-! ## The GATE registers -/

section
variable {s : State} {w : Nat}

theorem gateCtrlWrite_exec (hw : w < 8) (v : Nat) : exec (.gateCtrlWrite w v) s = .next (if v % 4 = 3 then setR s r_GATE_CTRL w (v % 4)
    else squashWing (setR s r_GATE_CTRL w (v % 4)) w) := by
  change execGateCtrlWrite w v s = _
  rw [execGateCtrlWrite, if_neg (Nat.not_le.2 hw)]

theorem gateCtrlWrite_gives (hw : w < 8) (v : Nat) : Gives (.gateCtrlWrite w v) s (fun s' => getR s' r_GATE_CTRL w = v % 4
    ∧ (v % 4 = 3 → s'.landing = s.landing)
    ∧ (v % 4 ≠ 3 → ∀ id l, mfind s.landing id = some l → l.wing = w → Squashable l → landOf s' id = some .doomed)) := by
  have hset : getR (setR s r_GATE_CTRL w (v % 4)) r_GATE_CTRL w = v % 4 := by
    rw [getR_setR_same]
    omega
  refine ⟨_, gateCtrlWrite_exec hw v, ?_⟩
  split
  · next hv => exact ⟨hset, fun _ => rfl, fun h => absurd hv h⟩
  · next hv =>
    refine ⟨(getR_of_regs_eq (squashWing_regs ..) ..).trans hset, fun h => absurd h hv, fun _ id l hfind hwing hl => ?_⟩
    subst hwing
    exact landOf_squashWing (s := setR s r_GATE_CTRL l.wing (v % 4)) hfind hl

theorem squashAll_exec (hw : w < 8) : exec (.squashAll w) s = .next (squashWing s w) := by
  change execSquashAll w s = _
  rw [execSquashAll, if_neg (Nat.not_le.2 hw)]

theorem forget_exec (hw : w < 8) :
    exec (.forget w) s = .next (modGate (stepWgen (squashWing s w) w) w (fun g => { g with last := [] })) := by
  change execForget w s = _
  rw [execForget, if_neg (Nat.not_le.2 hw)]

theorem getF_stepWgen (s : State) (w : Nat) : getF (stepWgen s w) f_GATE_WGEN_WGEN w = (getF s f_GATE_WGEN_WGEN w + 1) % 2 ^ 32 :=
  (getF_setF _ _ _ _ _ (by decide)).trans (Nat.mod_mod _ _)

end

/-- Settles O25: each event of a slot is one update of the landing table, of its core's scratchpad or of a count, and the GATE
registers squash by `squashWing`, which dooms every slot of the wing that can still be squashed. -/
theorem gateSlotsAndControl : Obligations.GateSlotsAndControl := by
  unfold Obligations.GateSlotsAndControl
  refine ⟨fun id s l h => ⟨slotFetchLanded_gives h, fun hst hm => ?_, fun hst hm => ?_,
    fun hst hm hi _ => slotPromoted_gives h hst hm hi, fun hst => ?_, fun hst => ?_, fun hl hd => ?_⟩,
    fun w v s hw => ⟨gateCtrlWrite_gives hw v, ?_, ?_⟩⟩
  · refine ⟨_, slotFetchVoid_exec h hm, ?_⟩
    rw [if_pos hst]
    exact ⟨(landOf_mput _ _).trans (if_pos rfl), rfl⟩
  · refine ⟨_, slotFetchVoid_exec h hm, ?_⟩
    rw [if_neg (by simp [hst]), if_pos hst]
    exact landOf_doomSlot_self h (by simp [Squashable, hst])
  · exact ⟨_, squash_exec h hst, (landOf_mput _ _).trans (if_pos rfl), rfl⟩
  · exact ⟨_, squashComplete_exec h hst, congrArg (Option.map LandSlot.state) (mfind_mdel_same s.landing id),
      fun a hlo hhi => mem8_zeroScr _ _ _ _ _ ⟨hlo, hhi⟩, fun a ha => mem8_zeroScr_off _ _ _ _ ha⟩
  · exact ⟨_, slotTtlExpiry_exec h hd, landOf_doomSlot_self h hl⟩
  · refine ⟨_, squashAll_exec hw, fun id l hfind hwing hl => ?_⟩
    subst hwing
    exact landOf_squashWing hfind hl
  · refine ⟨_, forget_exec hw, fun id l hfind hwing hl => ?_, ?_, ?_, ?_⟩
    · subst hwing
      exact landOf_squashWing hfind hl
    · rw [gateOf_modGate_self]
    · rw [gateOf_modGate_self, gateOf_of_gates_eq (t := stepWgen (squashWing s w) w) (squashWing_gates s w)]
    · refine (getF_stepWgen _ _).trans ?_
      rw [getF, getR_of_regs_eq (squashWing_regs s w)]
      rfl

end Sys2Proof.Machine
end

section
/-! O24: ROUTE, COMBINE and EXIT (R162 to R172). -/

namespace Sys2Proof.Machine

/-! ## The reads of a dispatch -/

/-- A read that is left out when a condition holds, and answers `b` in `t` when it does not, goes on with `b` in `t`. -/
theorem optionalRead {c : Prop} [Decidable c] {β : Type} {b b0 : β} {s t : State} {read : (β → State → State) → State}
    (h : if c then b = b0 ∧ t = s else ∀ k, read k = k b t) (k : β → State → State) : (if c then k b0 s else read k) = k b t := by
  by_cases hc : c
  · rw [if_pos hc] at h
    rw [if_pos hc, h.1, h.2]
  · rw [if_neg hc] at h
    rw [if_neg hc, h]

/-- The live tokens of a dispatch (R162). -/
def GateJob.alive (j : GateJob) (live : List Byte) : List Nat := (List.range j.tokens).filter (isLive live)

/-! ## ROUTE (R162 to R169, R172) -/

/-- The rows of the tokens that are routed: those without a NaN. -/
def routedRows (rows : List (Nat × List Word)) : List (Nat × List Word) := rows.filter (fun t => !hasNan t.2)

/-- The selection of the routed tokens, with the biases that were read. -/
def GateJob.select (j : GateJob) (bias : List Byte) (s : State) (rows : List (Nat × List Word)) : List TokSel × State :=
  selectAll j ((List.range j.experts).map (fun e => BitVec.ofNat 32 (leNat ((bias.drop (4 * e)).take 4)))) s (routedRows rows)

/-- The experts to which choices were assigned, with their counts. -/
def GateJob.usedBy (j : GateJob) (cap : CapState) : List (Nat × Nat) :=
  ((List.range j.experts).map (fun e => (e, mget 0 cap.count e))).filter (fun x => decide (0 < x.2))

section
variable {w : Nat} {s s1 s2 s3 s4 s5 : State} {r : GateRun} {live bias : List Byte} {pb : List PByte} {rows : List (Nat × List Word)}

/-- The resolution of the armed plan, or its absence for a bad record, writes no memory and changes no Gate unit (R177, R183). -/
theorem planResolved_kept {c : Prop} [Decidable c] {k : Nat} {own : Bool} {used : List Nat} :
    (if c then ([], s) else resolvePlan s w k own used).2.hbm = s.hbm
      ∧ (if c then ([], s) else resolvePlan s w k own used).2.gates = s.gates := by
  split
  · exact ⟨rfl, rfl⟩
  · exact ⟨(resolvePlan_frame ..).hbm (by decide), (resolvePlan_frame ..).gates (by decide)⟩

/-- Steps 1 to 5 of a ROUTE whose reads and writes are all answered end with an update of the running dispatch. -/
theorem routeStart_spec {j : GateJob} (hlive : LiveIs s s1 w j live)
    (hbias : if j.selBias = 0 then bias = [] ∧ s2 = s1 else ∀ k, gateClean s1 w j j.selBias (4 * j.experts) k = k bias s2)
    (hpred : if j.pred = 0 then pb = [] ∧ s3 = s2 else ∀ k, gateRead s2 w j j.pred 4096 k = k pb s3)
    (hrows : tokenRows j s3 (j.alive live) = (0, rows, s4)) {sel : List TokSel} {t4 : State}
    (hsel : j.select bias s4 rows = (sel, t4))
    (hwrites : ∀ k, gateWrites w j (modRun t4 w (fun r => { r with used := j.usedBy (gateAssign j sel) }))
      (routeWrites j live sel (gateAssign j sel)) k = k s5) :
    ∃ t f, routeStart s w j = modRun t w f ∧ t.hbm = s5.hbm ∧ t.gates = s5.gates
      ∧ ∀ x, (f x).phase = .promoting ∧ (f x).job = x.job ∧ (f x).used = x.used
        ∧ (f x).sum.getD 4 0 = j.tokens - (j.alive live).length
        ∧ (f x).sum.getD 5 0 = (j.alive live).length - (routedRows rows).length := by
  obtain ⟨y, hy⟩ : ∃ y, y = routeStart s w j := ⟨_, rfl⟩
  rw [← hy]
  unfold routeStart at hy
  rw [hlive] at hy
  extract_lets readBias alive at hy
  have hB : ∀ k, readBias k = k bias s2 := optionalRead hbias
  clear_value readBias
  rw [hB] at hy
  extract_lets readPred biasW at hy
  have hP : ∀ k, readPred k = k pb s3 := optionalRead hpred
  clear_value readPred
  rw [hP] at hy
  extract_lets read routed bad at hy
  have hread : read = (0, rows, s4) := hrows
  have hrouted : routed = routedRows rows := by simp only [routed, hread]; rfl
  clear_value routed read
  subst hrouted
  rw [hread, if_neg (not_not_intro rfl), show selectAll j biasW s4 (routedRows rows) = (sel, t4) from hsel] at hy
  replace hy := hy.trans (hwrites _)
  extract_lets all placed k own at hy
  split at hy
  next res t hres =>
  have hkept : t.hbm = s5.hbm ∧ t.gates = s5.gates := by
    rw [show t = _ from (congrArg Prod.snd hres).symm]
    exact planResolved_kept
  exact ⟨_, _, hy, (devDone_hbm _ _).trans hkept.1, ((devDone_frame ..).gates (by decide)).trans hkept.2,
    fun x => ⟨rfl, rfl, rfl, rfl, rfl⟩⟩

theorem route_exec (hrun : gateRuns s w 0 .selected = some r) : exec (.route w []) s = .next (routeStart s w r.job) := by
  change execRoute w [] s = _
  rw [execRoute, hrun]
  rfl

end

/-! ## COMBINE (R170) -/

section
variable {w : Nat} {s s1 s2 s3 : State} {r : GateRun} {live recs : List Byte}

/-- The end of a COMBINE that has combined its `n` live tokens. -/
def combineEnded (w : Nat) (j : GateJob) (n : Nat) (s : State) : State :=
  modRun (devDone s (gateQ w) 1) w (fun r => { r with
    phase := .finishing, sum := [n, 0, 0, 0, j.tokens - n, 0, 0, 0, 0, 0] })

theorem combine_exec (hrun : gateRuns s w 1 .selected = some r) (hlive : LiveIs s s1 w r.job live)
    (hrecs : ∀ k, gateClean s1 w r.job r.job.tokrec (64 * r.job.tokens) k = k recs s2) :
    exec (.combine w) s = .next (combineTokens w r.job recs s2 ((r.job.alive live).filter (fun t => decide (r.token ≤ t)))
      (combineEnded w r.job (r.job.alive live).length)) := by
  change execCombine w s = _
  unfold execCombine
  rw [hrun]
  dsimp only
  rw [hlive, hrecs]
  rfl

/-- A COMBINE that has written the row of token `t`. -/
def rowCombined (w t : Nat) (s : State) : State := modRun (devDone s (gateQ w) 1) w (fun r => { r with token := t + 1 })

theorem rowCombined_runs {t : Nat} (h : (gateRun s w).isSome = true) : (gateRun (rowCombined w t s) w).isSome = true := by
  rw [rowCombined, gateRun_modRun_self, gateRun_devDone, Option.isSome_map, h]

theorem combineEnded_spec {j : GateJob} {n : Nat} (h : (gateRun s w).isSome = true) : (combineEnded w j n s).hbm = s.hbm
    ∧ (gateRun (combineEnded w j n s) w).map (fun r => (r.phase, r.sum)) =
      some (.finishing, [n, 0, 0, 0, j.tokens - n, 0, 0, 0, 0, 0]) := by
  obtain ⟨x, hx⟩ := Option.isSome_iff_exists.1 h
  refine ⟨devDone_hbm _ _, ?_⟩
  rw [combineEnded, gateRun_modRun_self, gateRun_devDone, hx]
  rfl

/-- A token with its residual, whose mover channel is free: its row is combined and written, and the next token follows. -/
theorem combineTokens_cons {j : GateJob} {t : Nat} {ts : List Nat} {got : List (List PByte)} {s4 : State} (hresid : j.resid = true)
    (hfree : combineFree s2 j (tokenHome j.srcs t).1 = true) {es : List (Nat × Nat × Word)} {n : Nat}
    (hes : placedEntries j ((recs.drop (64 * t)).take 64) = es) (hn : j.rowElems * elemBits j.efmt / 8 = n)
    (hreads : ∀ k, gateReads w j s2 ((j.token + t * j.pitch, j.rowElems * elemBits j.tfmt / 8)
      :: es.map (fun e => (j.expbuf + e.1 * j.expStride + e.2.1 * n, n))) [] k = k got s3)
    (hput : ∀ k, gatePut w j (2 + (tokenHome j.srcs t).1) s3
      [(j.outVa + t * j.pitch, combineRow j (es.map (fun e => e.2.2)) (got.headD []) (got.drop 1))] k = k s4) (k : State → State) :
    combineTokens w j recs s2 (t :: ts) k = combineTokens w j recs (rowCombined w t s4) ts k := by
  subst hes hn
  rw [combineTokens, hfree, hresid]
  exact (hreads _).trans (hput _)

/-- The last token of a COMBINE: with its row written, the operation ends. -/
theorem combine_one_gives {t : Nat} {s4 : State} (hrun : gateRuns s w 1 .selected = some r) (hlive : LiveIs s s1 w r.job live)
    (hrecs : ∀ k, gateClean s1 w r.job r.job.tokrec (64 * r.job.tokens) k = k recs s2) (halive : r.job.alive live = [t])
    (hle : r.token ≤ t) (hs4 : (gateRun s4 w).isSome = true)
    (hrow : ∀ k, combineTokens w r.job recs s2 [t] k = combineTokens w r.job recs (rowCombined w t s4) [] k) :
    Gives (.combine w) s (fun s' => s'.hbm = s4.hbm ∧ (gateRun s' w).map GateRun.phase = some .finishing) := by
  have hexec := combine_exec hrun hlive hrecs
  rw [halive, List.filter_cons_of_pos (by simpa using hle), List.filter_nil, hrow, combineTokens] at hexec
  obtain ⟨hhbm, hrun'⟩ := combineEnded_spec (j := r.job) (n := [t].length) (rowCombined_runs (t := t) hs4)
  exact ⟨_, hexec, hhbm.trans (devDone_hbm _ _), (Option.map_map Prod.fst ..).symm.trans (congrArg _ hrun')⟩

end

/-! ## EXIT (R171) -/

section
variable {w : Nat} {s s1 s2 s3 : State} {r : GateRun} {live : List Byte} {rows : List (Nat × List Word)}

/-- A number whose bits below `n` that a test names are cleared. -/
def bitsCleared (p : Nat → Bool) (n old : Nat) : Nat := (List.range n).foldl (fun a b => if p b then setBits a b 1 0 else a) old

theorem bitsCleared_succ (p : Nat → Bool) (n old : Nat) : bitsCleared p (n + 1) old =
    if p n then setBits (bitsCleared p n old) n 1 0 else bitsCleared p n old := by
  rw [bitsCleared, List.range_succ, List.foldl_append]
  rfl

theorem bitAt_setBits_zero (v b i : Nat) : bitAt (setBits v b 1 0) i = (bitAt v i && decide (i ≠ b)) := by
  have hbit : ∀ x, bitAt x i = decide (bitsOf x i 1 = 1) := fun _ => rfl
  by_cases hi : i = b
  · subst hi
    rw [hbit, bitsOf_setBits]
    simp
  · rw [hbit, hbit, bitsOf_setBits_off (by omega)]
    simp [hi]

theorem bitAt_bitsCleared (p : Nat → Bool) (n old i : Nat) :
    bitAt (bitsCleared p n old) i = (bitAt old i && !(decide (i < n) && p i)) := by
  induction n with
  | zero => simp [bitsCleared]
  | succ n ih =>
    rw [bitsCleared_succ]
    by_cases hp : p n = true
    · rw [if_pos hp, bitAt_setBits_zero, ih]
      by_cases hi : i = n
      · simp [hi, hp]
      · have hlt : i < n + 1 ↔ i < n := by omega
        simp [hi, hlt]
    · rw [if_neg hp, ih]
      by_cases hi : i = n
      · simp [hi, hp]
      · have hlt : i < n + 1 ↔ i < n := by omega
        simp [hlt]

theorem bitsCleared_le (p : Nat → Bool) (n old : Nat) : bitsCleared p n old ≤ old := by
  induction n with
  | zero => exact le_rfl
  | succ n ih =>
    rw [bitsCleared_succ]
    split
    · refine le_trans ?_ ih
      rw [setBits, Nat.zero_mod, Nat.zero_mul]
      exact Nat.sub_le _ _
    · exact ih

/-- A live bitmap in which the tokens of a list have exited. -/
def liveAfter (live : List Byte) (out : List Nat) : List Byte :=
  (List.range live.length).map (fun i => BitVec.ofNat 8 (bitsCleared (fun b => out.contains (8 * i + b)) 8 (live.getD i 0).toNat))

theorem liveAfter_length (live : List Byte) (out : List Nat) : (liveAfter live out).length = live.length := by
  rw [liveAfter, List.length_map, List.length_range]

theorem isLive_liveAfter {t : Nat} (out : List Nat) (ht : t < 8 * live.length) :
    isLive (liveAfter live out) t = (isLive live t && !out.contains t) := by
  have hi : t / 8 < live.length := by omega
  have hb : t % 8 < 8 := Nat.mod_lt _ (by decide)
  have hget : (liveAfter live out).getD (t / 8) 0 =
      BitVec.ofNat 8 (bitsCleared (fun b => out.contains (8 * (t / 8) + b)) 8 (live.getD (t / 8) 0).toNat) := by
    simp [liveAfter, List.getD_eq_getElem?_getD, hi]
  have hlt : bitsCleared (fun b => out.contains (8 * (t / 8) + b)) 8 (live.getD (t / 8) 0).toNat < 2 ^ 8 :=
    (bitsCleared_le _ _ _).trans_lt (BitVec.isLt _)
  rw [isLive, hget, BitVec.toNat_ofNat, Nat.mod_eq_of_lt hlt, bitAt_bitsCleared, Nat.div_add_mod, decide_eq_true hb, Bool.true_and]
  rfl

/-- The end of an EXIT of which the tokens `out` exit. -/
def exitEnded (w : Nat) (alive out : List Nat) (rows : List (Nat × List Word)) (s : State) : State :=
  modRun (devDone s (gateQ w) 1) w (fun r => { r with
    phase := .finishing
    sum := [alive.length - out.length, 0, 0, 0, out.length, (rows.filter (fun t => hasNan t.2)).length, 0, 0, 0, 0] })

theorem exit_exec (hrun : gateRuns s w 2 .selected = some r) (hlive : LiveIs s s1 w r.job live)
    (hrows : tokenRows r.job s1 (r.job.alive live) = (0, rows, s2)) {out : List Nat}
    (hout : (rows.filter (fun t => exitHolds r.job t.2)).map Prod.fst = out) :
    exec (.exit w []) s = .next (gateWrite s2 w r.job r.job.live (clean (liveAfter live out))
      (exitEnded w (r.job.alive live) out rows)) := by
  change execExit w [] s = _
  unfold execExit
  rw [hrun]
  dsimp only [gateUpsets, List.foldl_nil]
  rw [hlive, show (List.range r.job.tokens).filter (isLive live) = r.job.alive live from rfl, hrows, if_neg (not_not_intro rfl)]
  subst hout
  rfl

end

/-- Settles O24: with every read and write answered, a ROUTE up to its resolution, a COMBINE and an EXIT each end in one update of the
running dispatch, and the bitmap that an EXIT writes is the one it read with the bits of `out` cleared. -/
theorem gateOperations : Obligations.GateOperations := by
  unfold Obligations.GateOperations
  refine ⟨?_, ?_, ?_⟩
  · intro w s s1 s2 s3 s4 s5 r live bias pb rows j alive routed sel cap used hrun hlive hbias hpred hrows hwrites hs5
    obtain ⟨t, f, heq, hhbm, hgates, hf⟩ := routeStart_spec hlive hbias hpred hrows (sel := sel.1) (t4 := sel.2) rfl hwrites
    obtain ⟨hphase, hjob, hused, hexited, hnan⟩ := hf { r with used := used }
    refine ⟨_, route_exec hrun, ?_, f { r with used := used }, ?_, hphase, hjob, hused, hexited, hnan⟩
    · rw [heq]
      exact hhbm
    · rw [heq, gateRun_modRun_self, gateRun_of_gates_eq hgates, hs5]
      rfl
  · intro w s s1 s2 r live recs hrun j alive hlive hrecs
    refine ⟨fun s3 hall hs3 => ⟨_, (combine_exec hrun hlive hrecs).trans (congrArg _ (hall _)), combineEnded_spec hs3⟩, ?_⟩
    · intro t got s3 s4 halive hle hresid hfree es n hreads hput hs4
      exact combine_one_gives hrun hlive hrecs halive hle hs4 (combineTokens_cons hresid hfree rfl rfl hreads hput)
  · intro w s s1 s2 s3 r live rows hrun j alive out hlive hrows hs3 hwrite
    refine ⟨_, (exit_exec hrun hlive hrows rfl).trans (congrArg _ (hwrite _ _ (liveAfter_length live out)
      (fun t ht => isLive_liveAfter out ht))), devDone_hbm _ _, ?_⟩
    obtain ⟨x, hx⟩ := Option.isSome_iff_exists.1 hs3
    rw [exitEnded, gateRun_modRun_self, gateRun_devDone, hx]
    rfl

end Sys2Proof.Machine
end

section
/-! A landing table that lists a number twice (R180, R184), which refutes O23. -/

namespace Sys2Proof.Machine

/-! ## What a dispatch reads, line by line (R173) -/

/-- The bytes of the lines that a dispatch reads, and the state after, when every line answers at once. -/
def linesRead (w : Nat) (j : GateJob) : State → List (Nat × Nat) → Option (List PByte × State)
  | s, [] => some ([], s)
  | s, p :: ps => match devRead s (jobSlot s j).2 (gateQ w) 1 p.1 p.2 with
    | (.ok d bad, s) => (linesRead w j s ps).map (fun r => (pBytes p.1 d bad ++ r.1, r.2))
    | _ => none

theorem gateParts_of_linesRead {w : Nat} {j : GateJob} {s t : State} {l : List (Nat × Nat)} {bs : List PByte}
    (h : linesRead w j s l = some (bs, t)) (acc : List PByte) (k : List PByte → State → State) :
    gateParts w j s l acc k = k (acc ++ bs) t := by
  induction l generalizing s acc bs with
  | nil =>
    obtain ⟨rfl, rfl⟩ := Prod.mk.inj (Option.some.inj h)
    rw [List.append_nil, gateParts]
  | cons p ps ih =>
    rw [linesRead] at h
    rw [gateParts]
    split at h
    · next d bad s' hread =>
      obtain ⟨⟨bs', t'⟩, hrest, heq⟩ := Option.map_eq_some_iff.1 h
      obtain ⟨rfl, rfl⟩ := Prod.mk.inj heq
      rw [hread, ← List.append_assoc]
      exact ih hrest _
    · cases h

theorem gateRead_of_linesRead {w va n : Nat} {j : GateJob} {s t : State} {bs : List PByte}
    (h : linesRead w j s (linePieces va n) = some (bs, t)) (k : List PByte → State → State) : gateRead s w j va n k = k bs t :=
  gateParts_of_linesRead h [] k

/-! ## The counterexample -/

/-- A ROUTE with RUNAHEAD and no sources, whose next predictor record is at address 0. -/
def armingJob : GateJob := ⟨0, 0, 0, 0, 0, 0, [0, 0, 0, 0, 0, 0, 1]⟩

/-- It runs, and its gathers are over. -/
def armingRun : GateRun := ⟨armingJob, .gathering, 0, [], 0, [], [], [], none, 0⟩

/-- A landing slot of a wing that has landed. -/
def landedOf (w : Nat) : LandSlot := ⟨w, 0, 0, 0, 0, 0, 0, 0, 0, .landed, [], 0, 0⟩

/-- Wing 0 arms a plan, and the landing table lists number 5 twice: for a slot of wing 1, which a look-up finds, and behind it for one
of wing 0. The record, a live one of no experts, lies in host memory. -/
def listedTwice : State :=
  setF { State.reset with
    gates := [(0, { Gate.empty with run := some armingRun })]
    landing := [(5, landedOf 1), (5, landedOf 0)]
    tlb := [⟨sharedTlb 0, 0, ⟨0, 4096, 1, 0, 0⟩⟩]
    host := [(0, 0x50), (1, 0x52), (2, 0x44), (3, 0x31), (8, 1)] } f_GATE_CTRL_RUNAHEAD_EN 0 1

/-- The record is read in order, and the table still finds the slot of wing 1 as it was. -/
def recordGood (r : List PByte × State) : Bool :=
  decide (gateRun r.2 0 = some armingRun ∧ mfind r.2.landing 5 = some (landedOf 1)) && !r.1.any Prod.snd
    && !predBad (r.1.map Prod.fst) none && !predStale (r.1.map Prod.fst) (getF r.2 f_GATE_WGEN_WGEN 0)

theorem record_listedTwice : (linesRead 0 armingJob listedTwice (linePieces 0 4096)).map recordGood = some true := by decide +kernel

/-- The slot that number 5 finds after a command of the model. -/
def slotAfter (i : Instr) (s : State) : Option LandSlot :=
  match exec i s with
  | .next s' => mfind s'.landing 5
  | _ => none

theorem slotAfter_listedTwice : slotAfter (.gateGatherComplete 0) listedTwice = some { landedOf 1 with state := .doomed } := by
  decide +kernel

theorem slotAfter_of_exec {i : Instr} {s s' : State} (h : exec i s = .next s') : slotAfter i s = mfind s'.landing 5 := by
  unfold slotAfter
  rw [h]

/-- Refutes O23: a plan that is armed is said to change landing slots of its own wing only, and in a state whose landing table lists a
number twice, the squash of the slot behind reaches the first one listed, here of wing 1. -/
theorem not_gateDispatches : ¬ Obligations.GateDispatches := by
  intro h
  obtain ⟨-, hgather, -⟩ := h
  obtain ⟨⟨bs, s1⟩, hread, hgood⟩ := Option.map_eq_some_iff.1 record_listedTwice
  simp only [recordGood, Bool.and_eq_true, decide_eq_true_eq, Bool.not_eq_true'] at hgood
  obtain ⟨⟨⟨⟨hrun, hslot⟩, hclean⟩, hok⟩, hfresh⟩ := hgood
  obtain ⟨-, harm⟩ := hgather 0 listedTwice armingRun (by decide +kernel) rfl rfl
  obtain ⟨s', hexec, -, -, hchanged⟩ := harm bs s1 (by decide +kernel) (by decide +kernel) (.inl rfl)
    (gateRead_of_linesRead hread) hrun hclean hok hfresh
  have hafter := (slotAfter_of_exec hexec).symm.trans slotAfter_listedTwice
  obtain ⟨hwing, -⟩ := hchanged 5 _ hafter (by rw [hslot]; decide)
  exact absurd hwing (by decide)

end Sys2Proof.Machine
end

section
/-! Channels, credit lines and the beginning and end of descriptors (R201, R214 to R221). -/

namespace Sys2Proof.Machine

/-! ## Channels and credit lines after an update -/

section
variable (s : State) (u k : Nat)

@[simp] theorem credit_setChan (v : Chan) (x l : Nat) : credit (setChan s u k v) x l = credit s x l := by
  simp only [credit, mover, setChan, mget_mput]
  split
  · next h => rw [h]
  · rfl

@[simp] theorem chan_setCredit (l v x y : Nat) : chan (setCredit s u l v) x y = chan s x y := by
  simp only [chan, mover, setCredit, mget_mput]
  split
  · next h => rw [h]
  · rfl

@[simp] theorem credit_setCredit_self (l v : Nat) : credit (setCredit s u l v) u l = v := by
  simp [credit, mover, setCredit]

@[simp] theorem chan_raiseCredit (l n x y : Nat) : chan (raiseCredit s u l n) x y = chan s x y := by
  unfold raiseCredit
  dsimp only
  split
  · exact chan_setCredit ..
  · split
    · exact chan_setCredit ..
    · exact chan_setCredit ..

end

section
variable {s : State} {u k : Nat}

/-- A raise that finds room (R214). -/
theorem credit_raiseCredit {l n : Nat} (h : credit s u l + n ≤ 65535) : credit (raiseCredit s u l n) u l = credit s u l + n := by
  rw [raiseCredit, if_pos h, credit_setCredit_self]

/-- What a channel is once its front descriptor has gone (R216, R224). -/
def Chan.popped (c : Chan) : Chan :=
  { Chan.empty with
    queue := c.queue.drop 1, before := if (c.queue.drop 1).isEmpty then [] else c.spans
    newUse := if (c.queue.drop 1).isEmpty then none else c.newUse }

theorem Chan.popped_last {c : Chan} (h : c.queue.drop 1 = []) : c.popped = Chan.empty := by simp [Chan.popped, h, Chan.empty]

theorem popChan_eq : popChan s u k =
    (if (chan s u k).queue.drop 1 = [] then ((chan s u k).newUse.map fun v =>
      setF (setChan s u k (chan s u k).popped) f_TMV_BCH_CFG_USE (bulkNum u k) v).getD (setChan s u k (chan s u k).popped)
    else setChan s u k (chan s u k).popped) := by
  unfold popChan
  dsimp only
  by_cases h : (chan s u k).queue.drop 1 = []
  · rw [if_pos h, Chan.popped_last h, h]
    cases (chan s u k).newUse <;> rfl
  · have hne : ((chan s u k).queue.drop 1).isEmpty = false := by simpa using h
    simp only [hne, h, Chan.popped, Bool.false_eq_true, if_false]

theorem popChan_movers : (popChan s u k).movers = (setChan s u k (chan s u k).popped).movers := by
  rw [popChan_eq]
  split
  · cases (chan s u k).newUse <;> rfl
  · rfl

@[simp] theorem chan_popChan : chan (popChan s u k) u k = (chan s u k).popped :=
  (chan_of_movers_eq popChan_movers u k).trans (chan_setChan_self ..)

@[simp] theorem credit_popChan (x l : Nat) : credit (popChan s u k) x l = credit s x l :=
  (credit_of_movers_eq popChan_movers x l).trans (credit_setChan ..)

/-- No change of USE waits for the channel. -/
theorem popChan_steady (h : (chan s u k).newUse = none) : popChan s u k = setChan s u k (chan s u k).popped := by
  rw [popChan_eq, h]
  exact ite_self _

theorem Chan.popped_steady {c : Chan} (h : c.newUse = none) : c.popped =
    { Chan.empty with queue := c.queue.drop 1, before := if (c.queue.drop 1).isEmpty then [] else c.spans } := by
  simp [Chan.popped, h, Chan.empty]

end

/-! ## The owner of a descriptor that has completed (R221) -/

section
variable {s : State} {d : Desc}

theorem descOwner_xmov_done {kid grp : Nat} (hd : d.owner = .xmov kid grp) (u k addr : Nat) (f : Flags) :
    descOwner s u k d 0 addr f = modKernel s kid (fun x => { x with flagSum := x.flagSum ||| f }) := by
  unfold descOwner
  simp only [hd, if_true]

/-- A command that has descriptors left goes on. -/
theorem bulkEnd_running {c : Nat} {v : Cmd} (h : mfind s.cmds c = some v) (hrun : v.running ≠ 0) : bulkEnd s c = s := by
  unfold bulkEnd cmdOf
  simp [h, hrun]

theorem modQueue_kept (q : Nat) (f : Queue → Queue) : (modQueue s q f).regs = s.regs ∧ (modQueue s q f).movers = s.movers
    ∧ (modQueue s q f).cmds = s.cmds := by
  unfold modQueue
  split <;> exact ⟨rfl, rfl, rfl⟩

theorem modCmd_kept (c : Nat) (f : Cmd → Cmd) : (modCmd s c f).regs = s.regs ∧ (modCmd s c f).movers = s.movers
    ∧ (modCmd s c f).now = s.now := by
  unfold modCmd
  split <;> exact ⟨rfl, rfl, rfl⟩

/-- A command one of whose descriptors has completed with flags. -/
def Cmd.oneDone (f : Flags) (v : Cmd) : Cmd :=
  { v with running := v.running - 1, flags := v.flags ||| f, err := if v.err = 0 then 0 else v.err, count := v.count + 1 }

/-- A command that has other descriptors outstanding counts one that completes, and goes on. -/
theorem descOwner_command_done {q n : Nat} {v : Cmd} (hd : d.owner = .command q n) (hv : mfind s.cmds n = some v)
    (hrun : 2 ≤ v.running) (u k addr : Nat) (f : Flags) :
    descOwner s u k d 0 addr f = modQueue (modCmd s n (Cmd.oneDone f)) q (fun v => { v with progress := s.now }) := by
  obtain ⟨-, -, hnow⟩ := modCmd_kept (s := s) n (Cmd.oneDone f)
  obtain ⟨-, -, hcmds⟩ := modQueue_kept (s := modCmd s n (Cmd.oneDone f)) q (fun v => { v with progress := s.now })
  have hcmd : mfind (modQueue (modCmd s n (Cmd.oneDone f)) q (fun v => { v with progress := s.now })).cmds n = some (v.oneDone f) := by
    rw [hcmds, mfind_modCmd hv]
  have hleft : (v.oneDone f).running ≠ 0 := by simp only [Cmd.oneDone]; omega
  refine Eq.trans ?_ (bulkEnd_running hcmd hleft)
  unfold descOwner
  simp only [hd]
  rw [← hnow]
  rfl

end

end Sys2Proof.Machine
end

section
/-! O20: the beginning, translation and completion of mover descriptors (R199, R201, R203, R214 to R221). -/

namespace Sys2Proof.Machine

/-! ## Tiles of data -/

section
variable {s : State} {u k : Nat} {d : Desc}

/-- A channel waits for a tile just when its segment touches a page (R219). -/
theorem chanTile_tile (pages : List Nat) (rights : Nat) : (chan (chanTile s u k d pages rights) u k).tile = none ↔ pages = [] := by
  by_cases h : pages = []
  · rw [chanTile, if_pos (by rw [h]; rfl), chan_setChan_self]
    exact iff_of_true rfl h
  · rw [chanTile_pages h]
    dsimp only
    rw [chan_setChan_self]
    exact iff_of_false (by simp) h

/-- What a channel's next tile of data takes: its deliveries, and the pages they touch (R219, R292). -/
def dataTile (s : State) (d : Desc) (c : Chan) : List Piece × List Nat := tileTake s d c (segPieces d c (tileEnd s d c)).1 []

/-- A tile of data whose ranges pass their checks enters its pages into translation. -/
theorem chan_beginData (hlist : d.listed = false) (hop : d.op ≠ dBst) (hstage : (chan s u k).stage = 0)
    (hreads : spaceCheck s u d d.sspace ((dataTile s d (chan s u k)).1.flatMap (pieceReads d (chan s u k))) = none)
    (hwrites : spaceCheck s u d d.dspace ((dataTile s d (chan s u k)).1.flatMap (pieceWrites d (chan s u k))) = none) :
    let c := chan (beginData s u k d) u k
    c.state = .translating ∧ c.queue = (chan s u k).queue ∧ (c.tile = none ↔ (dataTile s d (chan s u k)).2 = []) := by
  have hc : { chan s u k with stage := 0 } = chan s u k := by rw [← hstage]
  obtain ⟨c, rights, hqueue, hbegin⟩ : ∃ c rights, c.queue = (chan s u k).queue
      ∧ beginData s u k d = chanTile (setChan s u k c) u k d (dataTile s d (chan s u k)).2 rights := by
    unfold beginData
    simp only [hc, hlist, hop, decide_false, Bool.or_false, Bool.false_eq_true, if_false, freeRanges, List.foldl_nil]
    have hspace (c : Chan) (sp : Nat) (l : List (Nat × Nat)) : spaceCheck (setChan s u k c) u d sp l = spaceCheck s u d sp l := rfl
    unfold dataTile at hreads hwrites ⊢
    simp only [hspace, hreads, hwrites]
    refine ⟨_, _, ?_, rfl⟩
    split <;> rfl
  obtain ⟨t, ht⟩ := chan_chanTile (setChan s u k c) u k d (dataTile s d (chan s u k)).2 rights
  rw [hbegin]
  refine ⟨by rw [ht], ?_, chanTile_tile ..⟩
  rw [ht, chan_setChan_self]
  exact hqueue

theorem plain_of_no_stage (h : needsStage d (chan s u k) = none) (hhdr : (chan s u k).hdr = []) (hlist : (chan s u k).list = []) :
    d.op ≠ dBst ∧ d.listed = false := by
  have hop : d.op ≠ dBst := fun hop => by simp [needsStage, hop, hhdr] at h
  exact ⟨hop, by simpa [needsStage, hop, hlist] using h⟩

/-- A plain descriptor with rows left goes on with a tile of data. -/
theorem nextTile_plain (hop : d.op ≠ dBst) (hlist : d.listed = false) (htile : (chan s u k).tile = none)
    (hmore : pastEnd (chan s u k).row (chan s u k).ofs (d.rows, 0) = false) : nextTile s u k d = beginData s u k d := by
  unfold nextTile
  simp [htile, hmore, hop, needsStage, hlist]

end

/-! ## DESC_FRONT -/

/-- The descriptor at the front of an idle channel may begin, and its mover runs. -/
structure DescBegins (s : State) (u k : Nat) (d : Desc) : Prop where
  front : frontDesc s u k = some d
  idle : (chan s u k).state = .idle
  may : mayBegin s u k d = true
  runs : moverStopped s u = false
  own : (isBulk u && collOn s (bulkNum u k)) = false

section
variable {s : State} {u k : Nat} {d : Desc}

theorem descFront_bad (h : DescBegins s u k d) {e : Nat} (hcheck : descCheck (isBulk u) d = some e) :
    exec (.descFront u k) s = .next (moverFail s u k d e 0) := by
  change execDescFront u k s = _
  unfold execDescFront
  simp [h.front, h.idle, h.may, h.runs, h.own, hcheck]

theorem descFront_credit (h : DescBegins s u k d) (hcheck : descCheck (isBulk u) d = none) (hop : d.op = dCredit) :
    exec (.descFront u k) s = .next (descOwner (popChan (raiseCredit s u d.line (d.aux % 65536)) u k) u k d 0 0 0) := by
  change execDescFront u k s = _
  unfold execDescFront
  simp [h.front, h.idle, h.may, h.runs, h.own, hcheck, hop]

theorem descFront_data (h : DescBegins s u k d) (hcheck : descCheck (isBulk u) d = none) (hop : d.op ≠ dCredit)
    (hprog : d.prog = none) : exec (.descFront u k) s = .next (nextTile s u k d) := by
  change execDescFront u k s = _
  unfold execDescFront
  simp [h.front, h.idle, h.may, h.runs, h.own, hcheck, hop, hprog]

theorem xmov_owner (h : isXmov d = true) : ∃ kid grp, d.owner = .xmov kid grp := by
  unfold isXmov at h
  split at h
  · next kid grp howner => exact ⟨kid, grp, howner⟩
  · cases h

/-- The codes of the checks are codes of errors (R201). -/
theorem descCheck_ne_zero {bulk : Bool} {e : Nat} (h : descCheck bulk d = some e) : e ≠ 0 := by
  have hcode : e = errMoverParam ∨ e = errMisaligned := by
    unfold descCheck at h
    grind
  rcases hcode with rfl | rfl <;> decide

/-- A CREDIT descriptor of XMOV adds to its line and leaves its queue (R203). -/
theorem descFront_credit_gives (h : DescBegins s u k d) (hxmov : isXmov d = true) (hcheck : descCheck (isBulk u) d = none)
    (hop : d.op = dCredit) (hroom : credit s u d.line + d.aux % 65536 ≤ 65535) :
    Gives (.descFront u k) s (fun s' => credit s' u d.line = credit s u d.line + d.aux % 65536
      ∧ (chan s' u k).queue = (chan s u k).queue.drop 1 ∧ (chan s' u k).state = .idle) := by
  obtain ⟨kid, grp, howner⟩ := xmov_owner hxmov
  have hexec := descFront_credit h hcheck hop
  rw [descOwner_xmov_done howner] at hexec
  refine ⟨_, hexec, ?_⟩
  dsimp only
  rw [chan_of_movers_eq (modKernel_movers ..), credit_of_movers_eq (modKernel_movers ..), credit_popChan, chan_popChan,
    chan_raiseCredit, credit_raiseCredit hroom]
  exact ⟨rfl, rfl, rfl⟩

/-- A new plain descriptor whose first tile passes its checks has it entered into translation (R215). -/
theorem descFront_data_gives (h : DescBegins s u k d) (hcheck : descCheck (isBulk u) d = none) (hop : d.op ≠ dCredit)
    (hprog : d.prog = none) (hnew : chan s u k = { Chan.empty with queue := (chan s u k).queue })
    (hstage : needsStage d (chan s u k) = none) (hrows : d.rows ≠ 0)
    (hreads : spaceCheck s u d d.sspace ((dataTile s d (chan s u k)).1.flatMap (pieceReads d (chan s u k))) = none)
    (hwrites : spaceCheck s u d d.dspace ((dataTile s d (chan s u k)).1.flatMap (pieceWrites d (chan s u k))) = none) :
    Gives (.descFront u k) s (fun s' => (chan s' u k).state = .translating ∧ (chan s' u k).queue = (chan s u k).queue
      ∧ ((chan s' u k).tile = none ↔ (dataTile s d (chan s u k)).2 = [])) := by
  obtain ⟨hplain, hlist⟩ := plain_of_no_stage hstage (by rw [hnew]; rfl) (by rw [hnew]; rfl)
  have hmore : pastEnd (chan s u k).row (chan s u k).ofs (d.rows, 0) = false := by
    rw [hnew]
    simp [pastEnd, Chan.empty, hrows.symm]
  refine ⟨nextTile s u k d, descFront_data h hcheck hop hprog, ?_⟩
  rw [nextTile_plain hplain hlist (by rw [hnew]; rfl) hmore]
  exact chan_beginData hlist hplain (by rw [hnew]; rfl) hreads hwrites

/-! ## DESC_TRANSLATED -/

/-- A channel whose tile is mapped, with the translations that its bursts hold from now on. -/
def Chan.mapped (c : Chan) (held : List Xlat) : Chan :=
  { c with
    state := .ready
    bursts := c.bursts.map (fun b => if b.delivered || !b.held.isEmpty then b else { b with held := held }) }

theorem descTranslated_exec (hfront : frontDesc s u k = some d) (hstate : (chan s u k).state = .translating)
    (hstage : (chan s u k).stage = 0)
    (hready : ∀ t tile, (chan s u k).tile = some t → mfind s.tiles t = some tile → tileReady tile = true)
    (hruns : moverStopped s u = false) (hmore : pastEnd (chan s u k).row (chan s u k).ofs (chan s u k).lim = false) :
    exec (.descTranslated u k) s = .next (setChan s u k ((chan s u k).mapped (chanHeld s u k))) := by
  change execDescTranslated u k s = _
  unfold execDescTranslated
  cases htile : (chan s u k).tile with
  | none => simp [hfront, hstate, hstage, htile, hruns, hmore, Chan.mapped]
  | some t =>
    have hmapped : ((mfind s.tiles t).map tileReady).getD true = true := by
      cases hx : mfind s.tiles t with
      | none => rfl
      | some tile => exact hready t tile htile hx
    simp [hfront, hstate, hstage, htile, hmapped, hruns, hmore, Chan.mapped]

/-! ## DESC_COMPLETE -/

/-- The state in which the reads of a channel's descriptor and its tile are gone. -/
def cleared (s : State) (u k : Nat) : State := forgetReqs (untiled s u k) (fun _ r => r.owner = .moverRead u k)

theorem endDesc_eq : endDesc s u k = popChan (cleared s u k) u k := rfl

theorem cleared_eq (h : NoHeld s) : cleared s u k = { untiled s u k with
    reqs := (untiled s u k).reqs.filter (fun kv => !decide (kv.2.owner = .moverRead u k)) } := by
  refine forgetReqs_of_noHeld (fun kv hkv => h kv ?_) _
  unfold untiled at hkv
  split at hkv
  · rwa [dropTile_reqs] at hkv
  · exact hkv

theorem cleared_kept (h : NoHeld s) : (cleared s u k).movers = s.movers ∧ (cleared s u k).kernels = s.kernels := by
  rw [cleared_eq h]
  unfold untiled
  split
  · exact ⟨(dropTile_frame ..).movers (by decide), (dropTile_frame ..).kernels (by decide)⟩
  · exact ⟨rfl, rfl⟩

theorem getR_dropTile (id : Nat) {r : Reg} {n : Nat} (h : regKey f_XLT_STATUS_TRACKER_FULL.reg 0 0 ≠ regKey r n 0) :
    getR (dropTile s id) r n = getR s r n := by
  have hold : getR (unstall s id) r n = getR s r n := getR_of_regs_eq (unstall_regs s id) ..
  unfold dropTile noteWaiting
  dsimp only
  split
  · exact (getR_setF_key _ _ _ _ _ _ _ _ h).trans hold
  · exact hold

theorem getR_cleared (h : NoHeld s) {r : Reg} {n : Nat} (hr : regKey f_XLT_STATUS_TRACKER_FULL.reg 0 0 ≠ regKey r n 0) :
    getR (cleared s u k) r n = getR s r n := by
  rw [cleared_eq h]
  change getR (untiled s u k) r n = _
  unfold untiled
  split
  · exact getR_dropTile _ hr
  · rfl

/-- The stall of a tile may be counted for its command, and nothing else of a command changes (R392). -/
theorem mfind_cmds_stallTime (t : Tile) (m : Nat) {n : Nat} {v : Cmd} (hv : mfind s.cmds n = some v) :
    ∃ x, mfind (stallTime s t m).cmds n = some { v with stalled := x } := by
  unfold stallTime
  dsimp only
  split
  · split <;> exact ⟨_, hv⟩
  · split
    · exact ⟨_, hv⟩
    · next q c _ =>
      have hput : ∃ x, mfind (match mfind s.cmds c with
          | some v => { s with cmds := mput s.cmds c { v with stalled := v.stalled + m } }
          | none => s).cmds n = some { v with stalled := x } := by
        split
        · next w hw =>
          rw [mfind_mput]
          split
          · next hc =>
            obtain rfl : w = v := Option.some.inj (hw.symm.trans (hc ▸ hv))
            exact ⟨_, rfl⟩
          · exact ⟨_, hv⟩
        · exact ⟨_, hv⟩
      split <;> exact hput

theorem mfind_cmds_dropTile (id : Nat) {n : Nat} {v : Cmd} (hv : mfind s.cmds n = some v) :
    ∃ x, mfind (dropTile s id).cmds n = some { v with stalled := x } := by
  have hcmds : (dropTile s id).cmds = (unstall s id).cmds := (noteWaiting_frame _).cmds (by decide)
  rw [hcmds]
  unfold unstall
  split
  · split
    · exact mfind_cmds_stallTime _ _ hv
    · exact ⟨_, hv⟩
  · exact ⟨_, hv⟩

theorem mfind_cmds_cleared (h : NoHeld s) {n : Nat} {v : Cmd} (hv : mfind s.cmds n = some v) :
    ∃ x, mfind (cleared s u k).cmds n = some { v with stalled := x } := by
  rw [cleared_eq h]
  change ∃ x, mfind (untiled s u k).cmds n = _
  unfold untiled
  split
  · exact mfind_cmds_dropTile _ hv
  · exact ⟨_, hv⟩

/-- The state in which a drained descriptor has left its channel and its line is raised (R214, R218). -/
def descRaised (s : State) (u k : Nat) (d : Desc) : State :=
  if d.bits 7 4 2 = 1 || (d.bits 7 4 2 = 3 && (chan s u k).cnt ≠ 0) then raiseCredit (endDesc s u k) u (d.bits 7 0 4) 1
  else endDesc s u k

/-- The state in which it is counted too, if its channel is a bulk one (R224). -/
def descGone (s : State) (u k : Nat) (d : Desc) : State :=
  if isBulk u then countR (descRaised s u k d) r_TMV_BCH_DONE (bulkNum u k) 1 else descRaised s u k d

/-- A channel whose front descriptor has moved everything, its SKIPMAP word included, with no change of USE to follow. -/
structure DescDrained (s : State) (u k : Nat) (d : Desc) : Prop where
  front : frontDesc s u k = some d
  draining : (chan s u k).state = .draining
  bursts : (chan s u k).bursts = []
  skip : d.op = dBst → d.skipw = true → (chan s u k).skipSent = true
  use : (chan s u k).newUse = none
  noHeld : NoHeld s

theorem descComplete_exec (h : DescDrained s u k d) :
    exec (.descComplete u k) s = .next (descOwner (descGone s u k d) u k d 0 0 (chan s u k).flags) := by
  have hskip := h.skip
  have hword : (d.op = dBst && d.skipw && !(chan s u k).skipSent) = false := by grind
  change execDescComplete u k s = _
  unfold execDescComplete
  simp [h.front, h.draining, h.bursts, hword, descGone, descRaised]

theorem endDesc_steady (h : NoHeld s) (huse : (chan s u k).newUse = none) :
    endDesc s u k = setChan (cleared s u k) u k (chan s u k).popped := by
  have hchan : chan (cleared s u k) u k = chan s u k := chan_of_movers_eq (cleared_kept h).1 u k
  rw [endDesc_eq, popChan_steady (by rw [hchan, huse]), hchan]

theorem credit_endDesc (h : NoHeld s) (l : Nat) : credit (endDesc s u k) u l = credit s u l := by
  rw [endDesc_eq, credit_popChan, credit_of_movers_eq (cleared_kept h).1]

theorem descRaised_kernels (h : NoHeld s) : (descRaised s u k d).kernels = s.kernels := by
  have hend : (endDesc s u k).kernels = s.kernels := by
    rw [endDesc_eq]
    exact ((popChan_frame ..).kernels (by decide)).trans (cleared_kept h).2
  unfold descRaised
  split
  · exact ((raiseCredit_frame ..).kernels (by decide)).trans hend
  · exact hend

theorem chan_descRaised (h : NoHeld s) (huse : (chan s u k).newUse = none) :
    chan (descRaised s u k d) u k = (chan s u k).popped := by
  have hend : chan (endDesc s u k) u k = (chan s u k).popped := by rw [endDesc_steady h huse, chan_setChan_self]
  unfold descRaised
  split
  · rw [chan_raiseCredit, hend]
  · exact hend

theorem descGone_kept : (descGone s u k d).movers = (descRaised s u k d).movers
    ∧ (descGone s u k d).kernels = (descRaised s u k d).kernels ∧ (descGone s u k d).cmds = (descRaised s u k d).cmds := by
  unfold descGone
  split <;> exact ⟨rfl, rfl, rfl⟩

theorem chan_descGone (h : NoHeld s) (huse : (chan s u k).newUse = none) : chan (descGone s u k d) u k = (chan s u k).popped :=
  (chan_of_movers_eq descGone_kept.1 u k).trans (chan_descRaised h huse)

/-- A raise at the end of the descriptor adds one to its line, if the line has room (R214). -/
theorem credit_descGone_raise (h : NoHeld s) (hroom : credit s u (d.bits 7 0 4) < 65535) (hraise : d.bits 7 4 2 = 1) :
    credit (descGone s u k d) u (d.bits 7 0 4) = credit s u (d.bits 7 0 4) + 1 := by
  have hend := credit_endDesc (u := u) (k := k) h (d.bits 7 0 4)
  rw [credit_of_movers_eq descGone_kept.1, descRaised, if_pos (by simp [hraise]), credit_raiseCredit (by omega), hend]

theorem descRaised_none (hraise : d.bits 7 4 2 = 0) : descRaised s u k d = endDesc s u k := if_neg (by simp [hraise])

theorem credit_descGone_none (h : NoHeld s) (hraise : d.bits 7 4 2 = 0) (l : Nat) : credit (descGone s u k d) u l = credit s u l := by
  rw [credit_of_movers_eq descGone_kept.1, descRaised_none hraise, credit_endDesc h]

/-- A bulk channel's count of descriptors (R224). -/
theorem getR_descGone (h : NoHeld s) (huse : (chan s u k).newUse = none) (hraise : d.bits 7 4 2 = 0) (hbulk : isBulk u = true)
    (hkey : regKey f_XLT_STATUS_TRACKER_FULL.reg 0 0 ≠ regKey r_TMV_BCH_DONE (bulkNum u k) 0) :
    getR (descGone s u k d) r_TMV_BCH_DONE (bulkNum u k) = (getR s r_TMV_BCH_DONE (bulkNum u k) + 1) % 2 ^ 64 := by
  rw [descGone, if_pos hbulk, getR_countR_same, descRaised_none hraise, endDesc_steady h huse]
  exact congrArg (fun n => (n + 1) % 2 ^ 64) (getR_cleared h hkey)

theorem mfind_cmds_descGone (h : NoHeld s) (huse : (chan s u k).newUse = none) (hraise : d.bits 7 4 2 = 0) {n : Nat} {v : Cmd}
    (hv : mfind s.cmds n = some v) : ∃ x, mfind (descGone s u k d).cmds n = some { v with stalled := x } := by
  rw [descGone_kept.2.2, descRaised_none hraise, endDesc_steady h huse]
  exact mfind_cmds_cleared h hv

/-- A drained descriptor that XMOV queued has gone, and its kernel has its flags (R221). -/
theorem descComplete_xmov {kid grp : Nat} (h : DescDrained s u k d) (hd : d.owner = .xmov kid grp)
    (hroom : credit s u (d.bits 7 0 4) < 65535) :
    Gives (.descComplete u k) s (fun s' => chan s' u k = (chan s u k).popped
      ∧ (kernel s' kid).flagSum = (kernel s kid).flagSum ||| (chan s u k).flags
      ∧ (d.bits 7 4 2 = 1 → credit s' u (d.bits 7 0 4) = credit s u (d.bits 7 0 4) + 1)
      ∧ (d.bits 7 4 2 = 0 → ∀ l, credit s' u l = credit s u l)) := by
  have hexec := descComplete_exec h
  rw [descOwner_xmov_done hd] at hexec
  refine ⟨_, hexec, chan_descGone h.noHeld h.use, ?_, credit_descGone_raise h.noHeld hroom, credit_descGone_none h.noHeld⟩
  rw [kernel_modKernel, if_pos rfl, kernel_of_kernels_eq (descGone_kept.2.1.trans (descRaised_kernels h.noHeld))]

/-- A drained descriptor of a command has gone, and the command and its channel count it (R221). -/
theorem descComplete_command {q n : Nat} {v : Cmd} (h : DescDrained s u k d) (hd : d.owner = .command q n)
    (hv : mfind s.cmds n = some v) (hrun : 2 ≤ v.running) (hlow : 256 ≤ u) (hraise : d.bits 7 4 2 = 0) :
    Gives (.descComplete u k) s (fun s' => chan s' u k = (chan s u k).popped
      ∧ (mfind s'.cmds n).map (fun v => (v.running, v.count)) = some (v.running - 1, v.count + 1)
      ∧ getR s' r_TMV_BCH_DONE (bulkNum u k) = (getR s r_TMV_BCH_DONE (bulkNum u k) + 1) % 2 ^ 64) := by
  obtain ⟨x, hx⟩ := mfind_cmds_descGone (u := u) (k := k) h.noHeld h.use hraise hv
  have hexec := descComplete_exec h
  rw [descOwner_command_done hd hx hrun] at hexec
  obtain ⟨hqregs, hqmovers, hqcmds⟩ := modQueue_kept (s := modCmd (descGone s u k d) n (Cmd.oneDone (chan s u k).flags)) q
    (fun v => { v with progress := (descGone s u k d).now })
  obtain ⟨hregs, hmovers, -⟩ := modCmd_kept (s := descGone s u k d) n (Cmd.oneDone (chan s u k).flags)
  have hkey : regKey f_XLT_STATUS_TRACKER_FULL.reg 0 0 ≠ regKey r_TMV_BCH_DONE (bulkNum u k) 0 := by
    simp only [regKey, f_XLT_STATUS_TRACKER_FULL, r_XLT_STATUS, r_TMV_BCH_DONE, bulkNum]
    omega
  refine ⟨_, hexec, ?_, ?_, ?_⟩
  · rw [chan_of_movers_eq (hqmovers.trans hmovers), chan_descGone h.noHeld h.use]
  · rw [hqcmds, mfind_modCmd hx]
    rfl
  · rw [getR_of_regs_eq (hqregs.trans hregs), getR_descGone h.noHeld h.use hraise (decide_eq_true hlow) hkey]

/-! ## PEER_ACCESS_TIMEOUT -/

theorem peerAccessTimeout_exec {t : DWord} (hfront : frontDesc s u k = some d) (hsince : (chan s u k).peerSince = some t)
    (hdue : dueRun s t (getF s f_TMV_PEER_TIMEOUT_US * usTicks) = true) :
    exec (.peerAccessTimeout u k) s = .next (moverFail s u k d errScratchPeer 0) := by
  change execPeerAccessTimeout u k s = _
  unfold execPeerAccessTimeout
  simp [hfront, hsince, hdue]

end

/-- Settles O20: each command is one update of the channel, with the effects on its line, its owner and its kernel. -/
theorem moverDescriptors : Obligations.MoverDescriptors := by
  refine ⟨?_, ?_, ?_, ?_⟩
  · rintro u k s d ⟨hfront, hxmov⟩ hidle hmay hruns hcoll
    have hown : (isBulk u && collOn s (bulkNum u k)) = false := by
      cases hb : isBulk u with
      | false => rfl
      | true => exact hcoll hb
    have hbegins : DescBegins s u k d := ⟨hfront, hidle, hmay, hruns, hown⟩
    refine ⟨fun e he => ?_, fun hgood hop hroom => ?_, fun hgood hop hprog hnew hstage hrows => ?_⟩
    · exact stops_of_moverFail hxmov (descCheck_ne_zero he) (.refl s u) (descFront_bad hbegins he)
    · exact descFront_credit_gives hbegins hxmov hgood hop hroom
    · exact descFront_data_gives hbegins hgood hop hprog hnew hstage hrows
  · intro u k s d hfront c hstate hstage hready hruns hmore
    refine ⟨_, descTranslated_exec hfront hstate hstage hready hruns hmore, ?_⟩
    dsimp only
    rw [chan_setChan_self]
    exact ⟨rfl, rfl⟩
  · intro u k s d hfront c hstate hbursts hskip huse hheld
    have hdrained : DescDrained s u k d := ⟨hfront, hstate, hbursts, hskip, huse, hheld⟩
    rw [← Chan.popped_steady huse]
    refine ⟨fun kid grp howner hroom => ?_, fun q n v howner hv hrun hlow hhigh hk hraise => ?_⟩
    · exact descComplete_xmov hdrained howner hroom
    · exact descComplete_command hdrained howner hv hrun hlow hraise
  · rintro u k s d t ⟨hfront, hxmov⟩ hsince hdue
    exact stops_of_moverFail hxmov (by decide) (.refl s u) (peerAccessTimeout_exec hfront hsince hdue)

end Sys2Proof.Machine
end

section
/-! Bytes of a buffered line: which sectors an access touches, and what a write leaves (R239, R240). -/

namespace Sys2Proof.Machine

/-! ## Masks of sectors -/

theorem bitAt_eq_testBit (v i : Nat) : bitAt v i = v.testBit i := (Nat.testBit_eq_decide_div_mod_eq ..).symm

/-- The number whose bits below `n` are those that a test meets. -/
def maskUpTo (p : Nat → Bool) (n : Nat) : Nat := ((List.range n).filter p).foldl (fun a k => a + 2 ^ k) 0

theorem maskUpTo_succ (p : Nat → Bool) (n : Nat) : maskUpTo p (n + 1) = maskUpTo p n + if p n then 2 ^ n else 0 := by
  unfold maskUpTo
  rw [List.range_succ, List.filter_append, List.foldl_append]
  cases h : p n <;> simp [h]

theorem maskUpTo_lt (p : Nat → Bool) (n : Nat) : maskUpTo p n < 2 ^ n := by
  induction n with
  | zero => exact Nat.one_pos
  | succ n ih =>
    rw [maskUpTo_succ, Nat.pow_succ]
    split <;> omega

theorem bitAt_maskUpTo (p : Nat → Bool) (n i : Nat) : bitAt (maskUpTo p n) i = (decide (i < n) && p i) := by
  rw [bitAt_eq_testBit]
  induction n with
  | zero => simp [maskUpTo]
  | succ n ih =>
    have hlt := maskUpTo_lt p n
    rw [maskUpTo_succ]
    rcases Nat.lt_trichotomy i n with hi | rfl | hi
    · have hstep : (maskUpTo p n + if p n then 2 ^ n else 0).testBit i = (maskUpTo p n).testBit i := by
        split
        · rw [Nat.add_comm, Nat.testBit_two_pow_add_gt hi]
        · rfl
      rw [hstep, ih]
      simp [hi, Nat.lt_succ_of_lt hi]
    · have hold : (maskUpTo p i).testBit i = false := Nat.testBit_lt_two_pow hlt
      cases h : p i
      · simp [hold]
      · simp [Nat.add_comm, Nat.testBit_two_pow_add_eq, hold]
    · have hbound : (maskUpTo p n + if p n then 2 ^ n else 0) < 2 ^ i := by
        have hpow : 2 ^ (n + 1) ≤ 2 ^ i := Nat.pow_le_pow_right (by omega) hi
        rw [Nat.pow_succ] at hpow
        split <;> omega
      rw [Nat.testBit_lt_two_pow hbound]
      simp only [Bool.false_eq, Bool.and_eq_false_iff, decide_eq_false_iff_not]
      omega

theorem bitAt_touchedMask (o n k : Nat) :
    bitAt (touchedMask o n) k = (decide (k < 8) && (decide (0 < n) && decide (o < 32 * k + 32) && decide (32 * k < o + n))) :=
  bitAt_maskUpTo _ 8 k

/-- A mask of which another leaves nothing over lies in the other. -/
theorem land_of_minus_eq_zero {a b : Nat} (h : minus a b = 0) : a &&& b = a :=
  Nat.le_antisymm Nat.and_le_left (Nat.le_of_sub_eq_zero h)

theorem bitAt_of_minus_eq_zero {a b i : Nat} (h : minus a b = 0) (ha : bitAt a i = true) : bitAt b i = true := by
  rw [bitAt_eq_testBit] at ha ⊢
  rw [← land_of_minus_eq_zero h, Nat.testBit_and, Bool.and_eq_true] at ha
  exact ha.2

theorem lor_of_minus_eq_zero {a b : Nat} (h : minus a b = 0) : Nat.lor b a = b := by
  refine Nat.eq_of_testBit_eq fun i => (Nat.testBit_or ..).trans ?_
  have hbit := bitAt_of_minus_eq_zero (i := i) h
  rw [bitAt_eq_testBit, bitAt_eq_testBit] at hbit
  cases ha : a.testBit i
  · rw [Bool.or_false]
  · rw [hbit ha, Bool.true_or]

/-! ## Bytes of sectors -/

section
variable {l : List Byte}

theorem getElem?_sectorOf (k : Nat) {j : Nat} (hj : j < 32) : (sectorOf l k)[j]? = l[32 * k + j]? := by
  simp [sectorOf, hj]

theorem length_sectorOf {k : Nat} (hl : l.length = 256) (hk : k < 8) : (sectorOf l k).length = 32 := by
  simp only [sectorOf, List.length_take, List.length_drop, hl]
  omega

theorem length_flatten_sectors {f : Nat → List Byte} {n : Nat} (hf : ∀ k, k < n → (f k).length = 32) :
    ((List.range n).map f).flatten.length = 32 * n := by
  induction n with
  | zero => rfl
  | succ n ih =>
    rw [List.range_succ, List.map_append, List.flatten_append, List.length_append, ih fun k hk => hf k (by omega)]
    simp [hf n (Nat.lt_succ_self n), Nat.mul_succ]

/-- A byte of sectors one after another is a byte of its sector. -/
theorem getElem?_flatten_sectors {f : Nat → List Byte} {n : Nat} (hf : ∀ k, k < n → (f k).length = 32) {i : Nat} (hi : i < 32 * n) :
    ((List.range n).map f).flatten[i]? = (f (i / 32))[i % 32]? := by
  induction n with
  | zero => omega
  | succ n ih =>
    have hlow : ∀ k, k < n → (f k).length = 32 := fun k hk => hf k (by omega)
    have hlen := length_flatten_sectors hlow
    rw [List.range_succ, List.map_append, List.flatten_append, List.getElem?_append, hlen]
    split
    · next h => exact ih hlow h
    · have hdiv : i / 32 = n := by omega
      have hmod : i - 32 * n = i % 32 := by omega
      simp [hdiv, hmod]

theorem getElem?_patch {o : Nat} {bs : List Byte} (h : o + bs.length ≤ l.length) (i : Nat) :
    (patch l o bs)[i]? = if o ≤ i ∧ i < o + bs.length then bs[i - o]? else l[i]? := by
  have htake : (l.take o).length = o := by rw [List.length_take]; omega
  rw [patch, List.getElem?_append, List.length_append, htake]
  split
  · rw [List.getElem?_append, htake]
    split
    · rw [if_neg (by omega), List.getElem?_take_of_lt (by assumption)]
    · rw [if_pos (by omega)]
  · rw [if_neg (by omega), List.getElem?_drop]
    congr 1
    omega

theorem length_patch {o : Nat} {bs : List Byte} (h : o + bs.length ≤ l.length) : (patch l o bs).length = l.length := by
  simp only [patch, List.length_append, List.length_take, List.length_drop]
  omega

end

/-! ## Lines as every agent sees them (R239, R240) -/

section
variable {s t : State} {n o len : Nat} {b : BufLine}

theorem length_memBytes (m : Mem) (a n : Nat) : (memBytes m a n).length = n := by
  induction n generalizing a with
  | zero => rfl
  | succ n ih => rw [memBytes, List.length_cons, ih]

theorem lineBytes_congr (hb : t.bufs = s.bufs) (hh : t.hbm = s.hbm) (n : Nat) : lineBytes t n = lineBytes s n := by
  unfold lineBytes bufOf hbmLine
  rw [hb, hh]

/-- Sector `k` of a line that is buffered. -/
def seenSector (s : State) (n : Nat) (b : BufLine) (k : Nat) : List Byte :=
  if bitAt b.valid k then sectorOf b.data k else sectorOf (hbmLine s n) k

theorem lineBytes_eq (hb : bufOf s n = some b) : lineBytes s n = ((List.range 8).map (seenSector s n b)).flatten := by
  unfold lineBytes
  rw [hb]
  rfl

theorem length_seenSector (hlen : b.data.length = 256) (k : Nat) (hk : k < 8) : (seenSector s n b k).length = 32 := by
  unfold seenSector
  split
  · exact length_sectorOf hlen hk
  · exact length_sectorOf (length_memBytes ..) hk

theorem length_lineBytes (hb : bufOf s n = some b) (hlen : b.data.length = 256) : (lineBytes s n).length = 256 := by
  rw [lineBytes_eq hb, length_flatten_sectors (length_seenSector hlen)]

/-- A byte of a line is that of its buffered sector, or else HBM's. -/
theorem getElem?_lineBytes (hb : bufOf s n = some b) (hlen : b.data.length = 256) {i : Nat} (hi : i < 256) :
    (lineBytes s n)[i]? = if bitAt b.valid (i / 32) then b.data[i]? else (hbmLine s n)[i]? := by
  have hplace : 32 * (i / 32) + i % 32 = i := Nat.div_add_mod ..
  have hj : i % 32 < 32 := Nat.mod_lt _ (by decide)
  rw [lineBytes_eq hb, getElem?_flatten_sectors (length_seenSector hlen) hi, seenSector]
  split
  · rw [getElem?_sectorOf _ hj, hplace]
  · rw [getElem?_sectorOf _ hj, hplace]

theorem bufHit_read (h : bufHit s n o len false = true) : ∃ b, bufOf s n = some b ∧ minus (touchedMask o len) b.valid = 0 := by
  unfold bufHit at h
  dsimp only [Bool.false_and] at h
  split at h
  · cases h
  · next b hb => exact ⟨b, hb, of_decide_eq_true h⟩

/-- A buffered line after a write of bytes whose sectors it holds. -/
def BufLine.written (b : BufLine) (o bad : Nat) (data : List Byte) (now : DWord) : BufLine :=
  let t := touchedMask o data.length
  { b with
    data := patch b.data o data
    poison := poisonAfter b.poison bad o data.length
    valid := Nat.lor b.valid t
    dirty := Nat.lor b.dirty t
    used := now }

theorem bufWrite_eq (hb : bufOf s n = some b) (o bad : Nat) (data : List Byte) :
    bufWrite s n o bad data = setBuf s n (b.written o bad data s.now) := by
  unfold bufWrite
  rw [hb]
  rfl

theorem bufWrite_kept (s : State) (n o bad : Nat) (data : List Byte) :
    (bufWrite s n o bad data).reqs = s.reqs ∧ (bufWrite s n o bad data).movers = s.movers := by
  unfold bufWrite
  split <;> exact ⟨rfl, rfl⟩

/-- A write to valid sectors of a buffered line changes its bytes in the line and no others. -/
theorem lineBytes_bufWrite {data : List Byte} (hb : bufOf s n = some b) (hlen : b.data.length = 256) (hfit : o + data.length ≤ 256)
    (hvalid : minus (touchedMask o data.length) b.valid = 0) (bad : Nat) :
    lineBytes (bufWrite s n o bad data) n = patch (lineBytes s n) o data := by
  have hnew : bufOf (setBuf s n (b.written o bad data s.now)) n = some (b.written o bad data s.now) := by
    simp only [bufOf, setBuf, mfind_mput, if_true]
  have hdata : (b.written o bad data s.now).data.length = 256 :=
    (length_patch (by omega)).trans hlen
  have hline := length_lineBytes hb hlen
  rw [bufWrite_eq hb]
  refine List.ext_getElem? fun i => ?_
  by_cases hi : i < 256
  · rw [getElem?_lineBytes hnew hdata hi, getElem?_patch (by omega), getElem?_lineBytes hb hlen hi]
    change (if bitAt (Nat.lor b.valid (touchedMask o data.length)) (i / 32) then (patch b.data o data)[i]? else (hbmLine s n)[i]?) = _
    rw [lor_of_minus_eq_zero hvalid, getElem?_patch (by omega)]
    split
    · rfl
    · next hoff =>
      rw [if_neg fun hin => hoff (bitAt_of_minus_eq_zero hvalid ?_)]
      rw [bitAt_touchedMask]
      simp only [Bool.and_eq_true, decide_eq_true_eq]
      omega
  · rw [List.getElem?_eq_none (by rw [length_lineBytes hnew hdata]; omega),
      List.getElem?_eq_none (by rw [length_patch (by omega)]; omega)]

end

end Sys2Proof.Machine
end

section
/-! O27: integer atomics and the reductions of movers at a buffer slice (R205, R246 to R248). -/

namespace Sys2Proof.Machine

/-! ## The end of a request (R274, R275) -/

section
variable {s : State} {id : Nat} {r : MemReq}

/-- An atomic of this chip leaves its value in its request. -/
theorem endRead_atomic (hown : OwnReq r) (hop : r.op ≠ .read) (data : List Byte) (bad : Nat) :
    endRead s id r data bad = setReq (missCheck s r true) id { r with stage := .done, data := data, poison := bad } := by
  unfold endRead
  simp only [hop, if_false]
  split
  · next m hm => exact absurd hm (hown m)
  · rfl

theorem mfind_setReq_self (q : MemReq) : mfind (setReq s id q).reqs id = some q := by
  simp only [setReq, mfind_mput, if_true]

theorem lineBytes_endRead (hown : OwnReq r) (hop : r.op ≠ .read) (data : List Byte) (bad n : Nat) :
    lineBytes (endRead s id r data bad) n = lineBytes s n := by
  rw [endRead_atomic hown hop]
  exact lineBytes_congr ((missCheck_frame ..).bufs (by decide)) ((missCheck_frame ..).hbm (by decide)) n

theorem mfind_endRead (hown : OwnReq r) (hop : r.op ≠ .read) (data : List Byte) (bad : Nat) :
    mfind (endRead s id r data bad).reqs id = some { r with stage := .done, data := data, poison := bad } := by
  rw [endRead_atomic hown hop, mfind_setReq_self]

/-- A request that is over has left, and its deadline has been checked. -/
def reqOver (s : State) (id : Nat) (r : MemReq) : State :=
  if gpaChip r.gpa = chipId (dropReq s id) then missCheck (dropReq s id) r true else dropReq s id

theorem reqOver_kept (h : NoHeld s) : (reqOver s id r).movers = s.movers ∧ (reqOver s id r).bufs = s.bufs
    ∧ (reqOver s id r).hbm = s.hbm ∧ mfind (reqOver s id r).reqs id = none := by
  have hdrop := dropReq_of_noHeld h id
  have hnone := mfind_dropReq_of_noHeld h id
  unfold reqOver
  split
  · rw [(missCheck_frame ..).movers (by decide), (missCheck_frame ..).bufs (by decide), (missCheck_frame ..).hbm (by decide),
      (missCheck_frame ..).reqs (by decide)]
    exact ⟨by rw [hdrop], by rw [hdrop], by rw [hdrop], hnone⟩
  · exact ⟨by rw [hdrop], by rw [hdrop], by rw [hdrop], hnone⟩

theorem endWrite_eq (s : State) (id : Nat) (r : MemReq) : endWrite s id r = ownerWritten (reqOver s id r) id r := rfl

theorem flags_burstWritten (s : State) (u k x : Nat) : (chan (burstWritten s u k x) u k).flags = (chan s u k).flags := by
  unfold burstWritten
  dsimp only
  split
  · rw [chan_raiseCredit, chan_setChan_self]
  · rw [chan_setChan_self]

/-- A mover's write that is over leaves memory, and its channel's flags, as they were when it was performed. -/
theorem endWrite_mover {u k : Nat} (h : NoHeld s) (howner : r.owner = .moverWrite u k) :
    mfind (endWrite s id r).reqs id = none ∧ (∀ n, lineBytes (endWrite s id r) n = lineBytes s n)
      ∧ (chan (endWrite s id r) u k).flags = (chan s u k).flags := by
  obtain ⟨hmovers, hbufs, hhbm, hnone⟩ := reqOver_kept (id := id) (r := r) h
  have hend : endWrite s id r = burstWritten (reqOver s id r) u k id := by
    rw [endWrite_eq, ownerWritten, howner]
  rw [hend]
  refine ⟨?_, fun n => ?_, ?_⟩
  · rw [(burstWritten_frame ..).reqs (by decide), hnone]
  · exact lineBytes_congr (((burstWritten_frame ..).bufs (by decide)).trans hbufs) (((burstWritten_frame ..).hbm (by decide)).trans hhbm) n
  · rw [flags_burstWritten, chan_of_movers_eq hmovers]

end

/-! ## The commands -/

/-- A line's slice has counted an access that reads and writes `n` bytes. -/
def sliceCounted (s : State) (line n : Nat) : State :=
  countR (countR s r_MEM_RD_BYTES (sliceOf (256 * line)) n) r_MEM_WR_BYTES (sliceOf (256 * line)) n

section
variable {s : State} {id : Nat} {r : MemReq}

theorem lineBytes_sliceCounted (line m n : Nat) : lineBytes (sliceCounted s line m) n = lineBytes s n := lineBytes_congr rfl rfl n

/-- The bytes that an operation at a request's place finds. -/
def foundBytes (s : State) (r : MemReq) (len : Nat) : List Byte := ((lineBytes s (reqLine s r).1).drop (reqLine s r).2).take len

/-- The poisoned sectors among those it touches. -/
def foundBad (s : State) (r : MemReq) (len : Nat) : Nat :=
  lineBad s (reqLine s r).1 &&& touchedMask (reqLine s r).2 len

theorem bufferAtomic_poisoned {sub size : Nat} {sg : Bool} (hslice : atSlice s id .sent = some r) (hroute : RouteOk s r (reqLine s r).1)
    (hop : r.op = .atomic sub size sg true) (hhit : bufHit s (reqLine s r).1 (reqLine s r).2 size false = true)
    (hbad : foundBad s r size ≠ 0) :
    exec (.bufferAtomic id []) s = .next (endRead s id r (foundBytes s r size) (foundBad s r size)) := by
  unfold foundBad at hbad ⊢
  change execBufferAtomic id [] s = _
  unfold execBufferAtomic
  simp [hslice, hop, hhit, hroute.1, hbad, sramFind, foundBytes]

theorem bufferAtomic_clean {sub size : Nat} {sg : Bool} (hslice : atSlice s id .sent = some r) (hroute : RouteOk s r (reqLine s r).1)
    (hop : r.op = .atomic sub size sg true) (hhit : bufHit s (reqLine s r).1 (reqLine s r).2 size false = true)
    (hbad : foundBad s r size = 0) :
    exec (.bufferAtomic id []) s = .next (endRead (sliceCounted (bufWrite s (reqLine s r).1 (reqLine s r).2 r.poison
      (leBytes size (atomicResult sub (8 * size) sg (leNat (foundBytes s r size)) (leNat r.data) (leNat r.data2))))
      (reqLine s r).1 size) id r (foundBytes s r size) 0) := by
  unfold foundBad at hbad
  change execBufferAtomic id [] s = _
  unfold execBufferAtomic
  simp [hslice, hop, hhit, hroute.1, hroute.2, hbad, sramFind, foundBytes, sliceCounted]

/-- The state in which a mover's reduction has added its elements into the line, and its channel has their flags (R205, R221). -/
def lineReduced (s : State) (r : MemReq) (isF32 : Bool) (u k : Nat) : State :=
  let sum := reduceElems isF32 (foundBytes s r r.len) r.data
  let t := sliceCounted (bufWrite s (reqLine s r).1 (reqLine s r).2 (Nat.lor (foundBad s r r.len) r.poison) sum.1) (reqLine s r).1 r.len
  setChan t u k { chan t u k with flags := (chan t u k).flags ||| sum.2 }

theorem bufferReduction_exec {isF32 : Bool} {u k : Nat} (hslice : atSlice s id .sent = some r)
    (hroute : RouteOk s r (reqLine s r).1) (hop : r.op = .reduce isF32) (howner : r.owner = .moverWrite u k)
    (hhit : bufHit s (reqLine s r).1 (reqLine s r).2 r.len false = true) :
    exec (.bufferReduction id []) s = .next (endWrite (lineReduced s r isF32 u k) id r) := by
  change execBufferReduction id [] s = _
  unfold execBufferReduction
  simp [hslice, hop, howner, hhit, hroute.1, sramFind, lineReduced, foundBytes, foundBad, sliceCounted]

theorem exists_four_cons {α : Type} {n : Nat} : {l : List α} → l.length = n + 4 →
    ∃ a b c d t, l = a :: b :: c :: d :: t ∧ t.length = n
  | a :: b :: c :: d :: t, h => ⟨a, b, c, d, t, rfl, by simpa using h⟩

/-- A sum has the bytes of its elements, four at a time. -/
theorem length_reduceElems (isF32 : Bool) (m : Nat) {ds es : List Byte} (hd : ds.length = 4 * m) (he : es.length = 4 * m) :
    (reduceElems isF32 ds es).1.length = 4 * m := by
  induction m generalizing ds es with
  | zero =>
    rw [List.eq_nil_of_length_eq_zero hd, List.eq_nil_of_length_eq_zero he]
    rfl
  | succ m ih =>
    obtain ⟨d0, d1, d2, d3, ds, rfl, hds⟩ := exists_four_cons hd
    obtain ⟨e0, e1, e2, e3, es, rfl, hes⟩ := exists_four_cons he
    have hrest := ih hds hes
    cases isF32 <;> simp only [reduceElems, Bool.false_eq_true, if_true, if_false, List.length_append, leBytes_length] <;> omega

/-- A mover's reduction adds into its line, and its channel has the flags (R205, R221, R247). -/
theorem lineReduced_spec {isF32 : Bool} {u k : Nat} {b : BufLine} (hb : bufOf s (reqLine s r).1 = some b) (hlen : b.data.length = 256)
    (hvalid : minus (touchedMask (reqLine s r).2 r.len) b.valid = 0) (hfit : (reqLine s r).2 + r.len ≤ 256)
    (hdata : r.data.length = r.len) (hwhole : r.len % 4 = 0) :
    (lineReduced s r isF32 u k).reqs = s.reqs
    ∧ lineBytes (lineReduced s r isF32 u k) (reqLine s r).1 =
      patch (lineBytes s (reqLine s r).1) (reqLine s r).2 (reduceElems isF32 (foundBytes s r r.len) r.data).1
    ∧ (chan (lineReduced s r isF32 u k) u k).flags = (chan s u k).flags ||| (reduceElems isF32 (foundBytes s r r.len) r.data).2 := by
  obtain ⟨m, hm⟩ : ∃ m, r.len = 4 * m := ⟨r.len / 4, by omega⟩
  have hfound : (foundBytes s r r.len).length = 4 * m := by
    rw [foundBytes, List.length_take, List.length_drop, length_lineBytes hb hlen]
    omega
  have hsum : (reduceElems isF32 (foundBytes s r r.len) r.data).1.length = r.len :=
    (length_reduceElems isF32 m hfound (hdata.trans hm)).trans hm.symm
  refine ⟨?_, ?_, ?_⟩
  · exact (bufWrite_kept ..).1
  · refine Eq.trans ?_ (lineBytes_bufWrite hb hlen (by rw [hsum]; exact hfit) (by rw [hsum]; exact hvalid)
      (Nat.lor (foundBad s r r.len) r.poison))
    exact lineBytes_congr rfl rfl _
  · unfold lineReduced
    dsimp only
    rw [chan_setChan_self]
    exact congrArg (fun c => Chan.flags c ||| _) (chan_of_movers_eq (bufWrite_kept ..).2 u k)

end

/-- Settles O27: the slice reads the old bytes, writes the result over them, and the request ends with its value or its flags. -/
theorem memoryAtomics : Obligations.MemoryAtomics := by
  intro id s r n o hslice hcoherent hroute hown hheld
  refine ⟨fun sub size sg hop hfit hhit => ?_, fun isF32 u k hop howner hfit hdata hwhole hhit => ?_⟩
  · intro old bad
    have hread : r.op ≠ .read := by rw [hop]; exact ReqOp.noConfusion
    refine ⟨fun hbad => ?_, fun hbad => ?_⟩
    · obtain ⟨b, hb, hvalid⟩ := bufHit_read hhit
      refine ⟨_, bufferAtomic_clean hslice hroute hop hhit hbad, mfind_endRead hown hread .., ?_⟩
      rw [lineBytes_endRead hown hread, lineBytes_sliceCounted]
      exact lineBytes_bufWrite hb (hcoherent b hb).1 (by rwa [leBytes_length]) (by rwa [leBytes_length]) _
    · exact ⟨_, bufferAtomic_poisoned hslice hroute hop hhit hbad, mfind_endRead hown hread .., lineBytes_endRead hown hread ..⟩
  · intro sum
    obtain ⟨b, hb, hvalid⟩ := bufHit_read hhit
    obtain ⟨hreqs, hline, hflags⟩ := lineReduced_spec (isF32 := isF32) (u := u) (k := k) hb (hcoherent b hb).1 hvalid hfit hdata hwhole
    have hheld' : NoHeld (lineReduced s r isF32 u k) := fun kv hkv => hheld kv (hreqs ▸ hkv)
    obtain ⟨hgone, hkept, hchan⟩ := endWrite_mover (id := id) hheld' howner
    exact ⟨_, bufferReduction_exec hslice hroute hop howner hhit, hgone, (hkept n).trans hline, hchan.trans hflags⟩

end Sys2Proof.Machine
end

section
/-! O21: the start of bursts and their delivery (R202, R203, R207, R208, R212 to R214). -/

namespace Sys2Proof.Machine

/-! ## The start of a burst -/

section
variable {s : State} {u k p : Nat} {d : Desc}

/-- The line of a PACED burst that begins is paid (R203, R214). -/
def burstPaid (s : State) (u k : Nat) (d : Desc) : State :=
  if d.paced && (chan s u k).cnt = 0 && !(chan s u k).paid then
    setChan (setCredit s u d.line (credit s u d.line - 1)) u k { chan s u k with paid := true }
  else s

/-- The mover notes the channel that it starts a burst of (R213). -/
def burstPicked (s : State) (u p k : Nat) : State :=
  { s with movers := mput s.movers u { mover s u with rr := mput (mover s u).rr p k } }

/-- The state from which a burst's reads go out. -/
def burstReadied (s : State) (u p k : Nat) (d : Desc) : State := burstPicked (burstPaid s u k d) u p k

theorem burstReadied_movers (s : State) (u p k : Nat) (d : Desc) : ∃ m, burstReadied s u p k d = { s with movers := m } := by
  unfold burstReadied burstPicked burstPaid
  split <;> exact ⟨_, rfl⟩

theorem chan_burstPicked (s : State) (u p k : Nat) : chan (burstPicked s u p k) u k = chan s u k := by
  simp [chan, burstPicked, mover]

theorem credit_burstPicked (s : State) (u p k l : Nat) : credit (burstPicked s u p k) u l = credit s u l := by
  simp [credit, burstPicked, mover]

theorem rr_setChan (s : State) (u k : Nat) (v : Chan) : (mover (setChan s u k v) u).rr = (mover s u).rr := by
  simp [setChan, mover]

theorem mover_rr_burstPicked (s : State) (u p k : Nat) : mget 0 (mover (burstPicked s u p k) u).rr p = k := by
  simp [burstPicked, mover]

theorem chan_burstReadied : ∃ paid, chan (burstReadied s u p k d) u k = { chan s u k with paid := paid } := by
  rw [burstReadied, chan_burstPicked, burstPaid]
  split
  · exact ⟨true, chan_setChan_self ..⟩
  · exact ⟨_, rfl⟩

theorem credit_burstReadied : credit (burstReadied s u p k d) u d.line =
    if d.paced ∧ (chan s u k).cnt = 0 ∧ (chan s u k).paid = false then credit s u d.line - 1 else credit s u d.line := by
  have hcond : (d.paced && (chan s u k).cnt = 0 && !(chan s u k).paid) = true ↔
      d.paced ∧ (chan s u k).cnt = 0 ∧ (chan s u k).paid = false := by simp [and_assoc]
  rw [burstReadied, credit_burstPicked, burstPaid]
  by_cases h : d.paced ∧ (chan s u k).cnt = 0 ∧ (chan s u k).paid = false
  · rw [if_pos (hcond.2 h), if_pos h, credit_setChan, credit_setCredit_self]
  · rw [if_neg (hcond.not.2 h), if_neg h]

theorem heldPlaces_burstReadied (l : List (Nat × Nat)) :
    heldPlaces (burstReadied s u p k d) d (chanHeld (burstReadied s u p k d) u k) l = heldPlaces s d (chanHeld s u k) l := by
  obtain ⟨paid, hchan⟩ := chan_burstReadied (s := s) (u := u) (p := p) (k := k) (d := d)
  obtain ⟨m, hm⟩ := burstReadied_movers s u p k d
  have hheld : chanHeld (burstReadied s u p k d) u k = chanHeld s u k := by
    unfold chanHeld
    rw [hchan, hm]
  rw [hheld, hm]
  rfl

/-- The line parts that the reads of ranges ask for: those of device memory. -/
def askedParts (sp : Nat) (l : List (Nat × Nat)) : List (Nat × Nat) := if sp = 1 then lineParts l else []

/-- The reads of ranges, once they have gone out. -/
def readsSent (s : State) (u k : Nat) (d : Desc) (sp : Nat) (l : List (Nat × Nat)) : List (Nat × Nat × Nat) × State :=
  sendReads s u k d (heldPlaces s d (chanHeld s u k) (askedParts sp l)) (askedParts sp l)

/-- The burst that they are (R212). -/
def burstSent (s : State) (u k : Nat) (d : Desc) (sp : Nat) (last : Bool) (pieces : List Piece) (l : List (Nat × Nat)) : Burst :=
  let r := readsSent s u k d sp l
  let t := fresh r.2
  let dst := pieces.flatMap (pieceWrites d (chan s u k))
  ⟨t.1, last, pieces, r.1, chanHeld s u k, false, [], peersOf t.2 u sp l ++ peersOf t.2 u d.dspace dst, dst⟩

theorem readsSent_movers (sp : Nat) (l : List (Nat × Nat)) : (fresh (readsSent s u k d sp l).2).2.movers = s.movers :=
  (sendReads_frame ..).movers (by decide)

/-- Reads none of whose places is refused go out, as a burst behind those of the channel. -/
theorem issueReads_clean {sp : Nat} {l : List (Nat × Nat)} (hreach : Reachable s u k d (askedParts sp l)) (last : Bool)
    (pieces : List Piece) (go : Chan → Chan) :
    issueReads s u k d sp last pieces l go = setChan (fresh (readsSent s u k d sp l).2).2 u k { go (chan s u k) with
      bursts := (go (chan s u k)).bursts ++ [burstSent s u k d sp last pieces l] } := by
  obtain ⟨hrefused, hkey⟩ := hreach
  have hchan := chan_of_movers_eq (readsSent_movers (s := s) (u := u) (k := k) (d := d) sp l) u k
  unfold burstSent
  dsimp only
  rw [← hchan]
  unfold issueReads readsSent askedParts at *
  simp only [hrefused, hkey, Bool.false_eq_true, if_false]

theorem reachable_of_reads {sp : Nat} {l : List (Nat × Nat)} (h : sp = 1 → Reachable s u k d (lineParts l)) :
    Reachable s u k d (askedParts sp l) := by
  unfold askedParts
  split
  · next hsp => exact h hsp
  · exact ⟨rfl, rfl⟩

theorem reachable_burstReadied {l : List (Nat × Nat)} (h : Reachable s u k d l) : Reachable (burstReadied s u p k d) u k d l := by
  unfold Reachable
  rwa [heldPlaces_burstReadied]

/-- A channel that has started a burst (R212, R214). -/
def Chan.started (n : List Piece × Bool × (Nat × Nat)) (c : Chan) : Chan :=
  { c with
    begun := true, paid := false, nextBurst := c.nextBurst + (if c.cnt = 0 then 1 else 0)
    row := n.2.2.1, ofs := n.2.2.2, cnt := if n.2.1 then 0 else c.cnt + n.1.foldl (fun a p => a + p.len) 0 }

theorem burstStart_exec (hruns : moverStopped s u = false) (hpick : pickChan s u = some (p, k)) (hfront : frontDesc s u k = some d)
    (hreads : (nextBurst d (chan s u k)).1.flatMap (pieceReads d (chan s u k)) ≠ []) :
    exec (.burstStart u) s = .next (issueReads (burstReadied s u p k d) u k d d.sspace (nextBurst d (chan s u k)).2.1
      (nextBurst d (chan s u k)).1 ((nextBurst d (chan s u k)).1.flatMap (pieceReads d (chan s u k)))
      (Chan.started (nextBurst d (chan s u k)))) := by
  change execBurstStart u s = _
  unfold execBurstStart
  have hempty : (List.flatMap (pieceReads d (chan s u k)) (nextBurst d (chan s u k)).1).isEmpty = false := by simpa using hreads
  simp only [hruns, hpick, hfront, hempty, Bool.false_eq_true, if_false, Bool.false_and]
  rfl

/-- A burst of the channel picked starts: its line is paid, its reads go out, and the channel goes on behind it. -/
theorem burstStart_gives (hruns : moverStopped s u = false) (hpick : pickChan s u = some (p, k)) (hfront : frontDesc s u k = some d)
    (hreads : (nextBurst d (chan s u k)).1.flatMap (pieceReads d (chan s u k)) ≠ [])
    (hreach : d.sspace = 1 → Reachable s u k d (lineParts ((nextBurst d (chan s u k)).1.flatMap (pieceReads d (chan s u k))))) :
    let c := chan s u k
    let n := nextBurst d c
    Gives (.burstStart u) s (fun s' => mget 0 (mover s' u).rr p = k
      ∧ credit s' u d.line = (if d.paced ∧ c.cnt = 0 ∧ c.paid = false then credit s u d.line - 1 else credit s u d.line)
      ∧ (chan s' u k).row = n.2.2.1 ∧ (chan s' u k).ofs = n.2.2.2 ∧ (chan s' u k).begun = true
      ∧ (chan s' u k).nextBurst = c.nextBurst + (if c.cnt = 0 then 1 else 0)
      ∧ ∃ b, (chan s' u k).bursts = c.bursts ++ [b] ∧ b.pieces = n.1 ∧ b.last = n.2.1 ∧ b.delivered = false) := by
  intro c n
  obtain ⟨paid, hchan⟩ := chan_burstReadied (s := s) (u := u) (p := p) (k := k) (d := d)
  have hexec := burstStart_exec hruns hpick hfront hreads
  rw [issueReads_clean (reachable_of_reads fun hsp => reachable_burstReadied (hreach hsp)), hchan] at hexec
  refine ⟨_, hexec, ?_, ?_, ?_⟩
  · rw [rr_setChan, mover, readsSent_movers]
    exact mover_rr_burstPicked ..
  · rw [credit_setChan, credit_of_movers_eq (readsSent_movers ..), credit_burstReadied]
  · rw [chan_setChan_self]
    exact ⟨rfl, rfl, rfl, rfl, _, rfl, rfl, rfl, rfl⟩

end

/-! ## Writes to scratchpad, chunk by chunk (R207) -/

theorem memPut_append (m : Mem) (a : Nat) (l l' : List Byte) : memPut m a (l ++ l') = memPut (memPut m a l) (a + l.length) l' := by
  induction l generalizing m a with
  | nil => rfl
  | cons b l ih =>
    rw [List.cons_append, memPut, memPut, ih, List.length_cons]
    congr 1
    omega

/-- Writes without their poison. -/
def plainWrites (ws : List (Nat × List PByte)) : List (Nat × List Byte) := ws.map (fun w => (w.1, w.2.map Prod.fst))

theorem memPutAll_append (m : Mem) (l l' : List (Nat × List Byte)) : memPutAll m (l ++ l') = memPutAll (memPutAll m l) l' :=
  List.foldl_append

/-- Empty writes change no byte. -/
theorem memPutAll_filter_nonempty (m : Mem) (ws : List (Nat × List PByte)) :
    memPutAll m (plainWrites (ws.filter (fun x => !x.2.isEmpty))) = memPutAll m (plainWrites ws) := by
  induction ws generalizing m with
  | nil => rfl
  | cons w ws ih =>
    obtain ⟨a, l⟩ := w
    cases l with
    | nil => exact ih m
    | cons b l => exact ih _

/-- The piece of a write that lies in its `i`-th chunk of 512 bytes. -/
def chunkPiece (w : Nat × List PByte) (i : Nat) : Nat × List PByte :=
  let lo := max w.1 ((w.1 / 512 + i) * 512)
  (lo, (w.2.drop (lo - w.1)).take (min (w.1 + w.2.length) ((w.1 / 512 + i + 1) * 512) - lo))

theorem cutAt_chunks (w : Nat × List PByte) : cutAt 512 w =
    ((List.range ((w.1 % 512 + w.2.length + 512 - 1) / 512)).map (chunkPiece w)).filter (fun x => !x.2.isEmpty) := rfl

/-- The pieces of the first chunks, written in order, are the write as far as these chunks reach. -/
theorem memPutAll_chunkPieces (m : Mem) (w : Nat × List PByte) (n : Nat) :
    memPutAll m (plainWrites ((List.range n).map (chunkPiece w))) =
      memPut m w.1 ((w.2.take ((w.1 / 512 + n) * 512 - w.1)).map Prod.fst) := by
  induction n with
  | zero =>
    have hnone : (w.1 / 512 + 0) * 512 - w.1 = 0 := by omega
    rw [hnone]
    rfl
  | succ n ih =>
    obtain ⟨a, l⟩ := w
    rw [List.range_succ, List.map_append, plainWrites, List.map_append, memPutAll_append]
    refine (congrArg (memPutAll · _) ih).trans ?_
    change memPut (memPut m a _) (max a ((a / 512 + n) * 512)) (List.map Prod.fst ((l.drop (max a ((a / 512 + n) * 512) - a)).take
      (min (a + l.length) ((a / 512 + n + 1) * 512) - max a ((a / 512 + n) * 512)))) = _
    have hdrop : max a ((a / 512 + n) * 512) - a = (a / 512 + n) * 512 - a := by omega
    have hend : (a / 512 + (n + 1)) * 512 - a = ((a / 512 + n) * 512 - a) +
        ((a / 512 + (n + 1)) * 512 - max a ((a / 512 + n) * 512)) := by omega
    have hlast : (l.drop ((a / 512 + n) * 512 - a)).take (min (a + l.length) ((a / 512 + n + 1) * 512) - max a ((a / 512 + n) * 512)) =
        (l.drop ((a / 512 + n) * 512 - a)).take ((a / 512 + (n + 1)) * 512 - max a ((a / 512 + n) * 512)) := by
      rw [List.take_eq_take_iff, List.length_drop]
      omega
    rw [hdrop, hlast, hend, List.take_add, List.map_append, memPut_append]
    by_cases hin : (a / 512 + n) * 512 - a ≤ l.length
    · rw [List.length_map, List.length_take_of_le hin]
      congr 1
      omega
    · rw [List.drop_eq_nil_of_le (by omega), List.take_nil]
      rfl

theorem memPutAll_cutAt (m : Mem) (w : Nat × List PByte) : memPutAll m (plainWrites (cutAt 512 w)) = memPut m w.1 (w.2.map Prod.fst) := by
  rw [cutAt_chunks, memPutAll_filter_nonempty, memPutAll_chunkPieces, List.take_of_length_le (by omega)]

theorem memPutAll_cutAll (m : Mem) (ws : List (Nat × List PByte)) :
    memPutAll m (plainWrites (ws.flatMap (cutAt 512))) = memPutAll m (plainWrites ws) := by
  induction ws generalizing m with
  | nil => rfl
  | cons w ws ih =>
    rw [List.flatMap_cons, plainWrites, List.map_append, memPutAll_append]
    refine (ih _).trans ?_
    exact congrArg (memPutAll · (plainWrites ws)) (memPutAll_cutAt m w)

theorem flatten_runsAt (n : Nat) (ws : List (Nat × List PByte)) : (runsAt n ws).flatten = ws := by
  induction ws with
  | nil => rfl
  | cons w ws ih =>
    rw [runsAt]
    split
    · next x g gs hruns =>
      rw [hruns] at ih
      split <;> simp [← ih]
    · rw [List.flatten_cons, ih]
      rfl

end Sys2Proof.Machine
end

section
/-! O21: bursts whose data has come (R199, R202, R207, R208, R214). -/

namespace Sys2Proof.Machine

/-! ## Delivery to the mover's own scratchpad -/

section
variable {s : State} {u k : Nat} {d : Desc}

/-- One access to a chunk of the mover's own scratchpad writes its pieces in order. -/
theorem scrPutAll_own (hland : s.landing = []) (hown : d.dspace = 0) (ws : List (Nat × List PByte)) :
    ScrStep s (scrPutAll s u d ws) u (memPutAll (core s u).scr (plainWrites ws)) := by
  have hput : scrPutAll s u d ws = scrWriteAll s u (plainWrites ws) (ws.flatMap (fun w => badWords w.1 w.2)) (putSource d) := by
    have hplace (a : Nat) : scrPlace u d.dspace a = (u, a) := by rw [hown]; rfl
    have hcore : ((ws.map (fun w => ((u, w.1), w.2))).headD ((u, 0), [])).1.1 = u := by cases ws <;> rfl
    unfold scrPutAll
    simp only [hplace, hcore, List.map_map, List.flatMap_map]
    rfl
  rw [hput]
  exact scrWriteAll_step' hland ..

/-- Accesses one after another write all their pieces in order. -/
theorem scrPuts_own (hland : s.landing = []) (hown : d.dspace = 0) (L : List (List (Nat × List PByte))) :
    ScrStep s (L.foldl (fun s l => scrPutAll s u d l) s) u (memPutAll (core s u).scr (plainWrites L.flatten)) := by
  induction L generalizing s with
  | nil => exact ScrStep.refl ..
  | cons l L ih =>
    have h1 := scrPutAll_own (u := u) hland hown l
    have h2 := h1.trans (ih (h1.landing.trans hland))
    rw [h1.scr] at h2
    rwa [List.flatten_cons, plainWrites, List.map_append, memPutAll_append]

/-- What a burst leaves in the mover's own scratchpad: its writes, chunk by chunk (R207, step 4). -/
def burstPut (s : State) (u : Nat) (d : Desc) (ws : List (Nat × List PByte)) : State :=
  (runsAt 512 (ws.flatMap (cutAt 512))).foldl (fun s l => scrPutAll s u d l) s

theorem putAll_own (hown : d.dspace = 0) (hred : d.red = 0) (held : List Xlat) (ws : List (Nat × List PByte)) :
    putAll s u k d held ws = .ok [] 0 (burstPut s u d ws) := by
  unfold putAll
  simp [hown, hred, burstPut]

theorem burstPut_scr (hland : s.landing = []) (hown : d.dspace = 0) (ws : List (Nat × List PByte)) :
    (core (burstPut s u d ws) u).scr = memPutAll (core s u).scr (plainWrites ws) := by
  rw [burstPut, (scrPuts_own hland hown _).scr, flatten_runsAt, memPutAll_cutAll]

theorem burstPut_frame (ws : List (Nat × List PByte)) :
    Agree 0x1c00000000000000000000000000000000000002000000200 s (burstPut s u d ws) :=
  Agree.foldl (fun _ _ h => scrPutAll_step (bitsIn_rfl rfl) h) (Agree.refl ..)

theorem foldl_snoc {α β : Type} (l acc : List α) (b : β) :
    l.foldl (fun (r : List α × β) a => (r.1 ++ [a], r.2)) (acc, b) = (acc ++ l, b) := by
  induction l generalizing acc with
  | nil => rw [List.foldl_nil, List.append_nil]
  | cons a l ih => rw [List.foldl_cons, ih, List.append_assoc, List.singleton_append]

/-- Where no byte clashes, a burst's writes are as they were made. -/
theorem writeOver_clean {hit : Nat → Bool} (h : ∀ a, hit a = false) (ws : List (Nat × List PByte)) : writeOver s hit ws = (ws, s) := by
  unfold writeOver
  simp only [h, Bool.not_false, List.all_eq_true, implies_true, if_true]
  exact foldl_snoc ws [] s

/-- A channel one of whose bursts has been delivered at once (R207, R214). -/
def Chan.arrived (c : Chan) (b : Burst) (f : Flags) : Chan :=
  { c with
    flags := c.flags ||| f ||| 0
    peerSince := none
    part := if b.last then [] else c.part ++ b.dst
    bursts := (c.bursts.map (fun x => if x.id = b.id then { x with delivered := true, writes := [] } else x)).filter (fun x =>
      !(x.delivered && x.writes.isEmpty)) }

theorem not_mem_arrived (c : Chan) {b : Burst} (hb : b.delivered = false) (f : Flags) : b ∉ (c.arrived b f).bursts := by
  intro hmem
  obtain ⟨x, -, hx⟩ := List.mem_map.1 (List.mem_of_mem_filter hmem)
  split at hx
  · rw [← hx] at hb
    cases hb
  · next hne => exact hne (congrArg Burst.id hx)

/-- The queue of a command's descriptor makes progress (R392). -/
def queueNoted (s : State) (d : Desc) : State :=
  match d.owner with
  | .command q _ => modQueue s q (fun v => { v with progress := s.now })
  | _ => s

theorem queueNoted_kept : (queueNoted s d).movers = s.movers ∧ (queueNoted s d).cores = s.cores := by
  unfold queueNoted
  split
  · exact ⟨(modQueue_frame ..).movers (by decide), (modQueue_frame ..).cores (by decide)⟩
  · exact ⟨rfl, rfl⟩

variable {b : Burst}

/-- The state in which a burst's writes stand in the mover's own scratchpad and its reads are gone. -/
def burstStored (s : State) (u : Nat) (d : Desc) (b : Burst) (ws : List (Nat × List PByte)) : State :=
  queueNoted (dropReads (burstPut s u d ws) b) d

theorem burstStored_movers (h : NoHeld s) (ws : List (Nat × List PByte)) : (burstStored s u d b ws).movers = s.movers := by
  have hheld : NoHeld (burstPut s u d ws) := fun kv hkv => h kv (by rwa [(burstPut_frame ws).reqs (by decide)] at hkv)
  rw [burstStored, queueNoted_kept.1, dropReads_movers hheld, (burstPut_frame ws).movers (by decide)]

theorem burstStored_scr (hland : s.landing = []) (hown : d.dspace = 0) (ws : List (Nat × List PByte)) :
    (core (burstStored s u d b ws) u).scr = memPutAll (core s u).scr (plainWrites ws) := by
  have hcores : (burstStored s u d b ws).cores = (burstPut s u d ws).cores :=
    queueNoted_kept.2.trans ((dropReads_frame ..).cores (by decide))
  rw [core_of_cores_eq hcores, burstPut_scr hland hown]

/-- The state in which the channel has delivered the burst, and its line is raised under RAISE (R214). -/
def burstDone (s : State) (u k : Nat) (d : Desc) (b : Burst) (ws : List (Nat × List PByte)) (f : Flags) : State :=
  let t := burstStored s u d b ws
  let t := setChan t u k ((chan t u k).arrived b f)
  if b.last && d.bits 7 4 2 = 3 then raiseCredit t u (d.bits 7 0 4) 1 else t

/-- The writes of a burst of a plain or a block-sparse transfer, from the parts that were read (R207, R208). -/
def burstWrites (d : Desc) (c : Chan) (b : Burst) (parts : Parts) : List (Nat × List PByte) :=
  (b.pieces.map (pieceOut d c (partByte parts))).flatMap Prod.fst

/-- The flags of their conversion (R208). -/
def burstFlags (d : Desc) (c : Chan) (b : Burst) (parts : Parts) : Flags :=
  (b.pieces.map (pieceOut d c (partByte parts))).foldl (fun f o => f ||| o.2) 0

/-- A burst from device memory to the mover's own scratchpad, none of whose bytes clash, is written as it was read. -/
theorem deliver_own (hheld : NoHeld s) (hsrc : d.sspace = 1) (hown : d.dspace = 0) (hred : d.red = 0)
    (hbefore : (chan s u k).before = []) (hclash : ∀ a, clashes d (chan s u k) u a = false)
    (hmore : pastEnd (chan s u k).row (chan s u k).ofs (chan s u k).lim = false) (parts : Parts) :
    deliver s u k d b parts =
      burstDone s u k d b (burstWrites d (chan s u k) b parts) (burstFlags d (chan s u k) b parts) := by
  have hout : deliver s u k d b parts =
      let c := (chan (burstStored s u d b (burstWrites d (chan s u k) b parts)) u k).arrived b (burstFlags d (chan s u k) b parts)
      let t := burstDone s u k d b (burstWrites d (chan s u k) b parts) (burstFlags d (chan s u k) b parts)
      if pastEnd c.row c.ofs c.lim && c.bursts.all Burst.delivered then nextSeg t u k d else t := by
    unfold deliver
    simp only [hsrc, if_true, readOver, hbefore, List.isEmpty_nil, Bool.true_or, hred, writeOver_clean hclash, putAll_own hown hred,
      Bool.and_true]
    rfl
  rw [hout, chan_of_movers_eq (burstStored_movers hheld _)]
  exact if_neg (by simp [Chan.arrived, hmore])

/-- What the delivery of a burst leaves: its bytes in order, a channel without it, and its line raised under RAISE. -/
theorem burstDone_spec (hheld : NoHeld s) (hland : s.landing = []) (hown : d.dspace = 0) (hnew : b.delivered = false)
    (hroom : credit s u (d.bits 7 0 4) < 65535) (ws : List (Nat × List PByte)) (f : Flags) :
    (core (burstDone s u k d b ws f) u).scr = memPutAll (core s u).scr (plainWrites ws)
    ∧ b ∉ (chan (burstDone s u k d b ws f) u k).bursts
    ∧ (b.last = true → d.bits 7 4 2 = 3 →
      credit (burstDone s u k d b ws f) u (d.bits 7 0 4) = credit s u (d.bits 7 0 4) + 1) := by
  have hstored := burstStored_scr (b := b) (u := u) hland hown ws
  have hcredit : credit (burstStored s u d b ws) u (d.bits 7 0 4) = credit s u (d.bits 7 0 4) :=
    credit_of_movers_eq (burstStored_movers hheld ws) ..
  have hgone := not_mem_arrived (chan (burstStored s u d b ws) u k) hnew f
  unfold burstDone
  dsimp only
  refine ⟨?_, ?_, fun hlast hraise => ?_⟩
  · split
    · exact (congrArg Core.scr (core_of_cores_eq ((raiseCredit_frame ..).cores (by decide)) u)).trans hstored
    · exact hstored
  · split
    · rwa [chan_raiseCredit, chan_setChan_self]
    · rwa [chan_setChan_self]
  · rw [if_pos (by simp [hlast, hraise]), credit_raiseCredit (by rw [credit_setChan]; omega), credit_setChan, hcredit]

end

/-! ## MOVER_READ_RETURN -/

/-- The oldest burst that a core's mover has not delivered may be: its cores are awake, of the instars it started under, and within
their ranges (R199, R305, R358). -/
structure BurstReturns (s : State) (u k : Nat) (d : Desc) (b : Burst) : Prop where
  front : frontDesc s u k = some d
  stage : (chan s u k).stage = 0
  core : isBulk u = false
  awake : asleep s u = false
  held : d.dspace = 1 → b.held ≠ []
  instars : ∀ x ∈ b.cores, instarOf s (.core x.1) = x.2
  oldest : (chan s u k).bursts.find? (fun b => !b.delivered) = some b
  readAwake : sleepers s u d.sspace (b.pieces.flatMap (pieceReads d (chan s u k))) = []
  writeAwake : sleepers s u d.dspace (b.pieces.flatMap (pieceWrites d (chan s u k))) = []
  reads : spaceCheck s u d d.sspace (b.pieces.flatMap (pieceReads d (chan s u k))) = none
  writes : spaceCheck s u d d.dspace (b.pieces.flatMap (pieceWrites d (chan s u k))) = none

section
variable {s : State} {u k : Nat} {d : Desc} {b : Burst} {parts : Parts}

theorem BurstReturns.fresh (h : BurstReturns s u k d b) : b.delivered = false := by
  simpa using List.find?_some h.oldest

theorem moverReadReturn_exec {e : Nat} (h : BurstReturns s u k d b) (hparts : burstParts s b = some (e, parts)) :
    exec (.moverReadReturn u k []) s = .next (if e ≠ 0 then moverFail (dropReads s b) u k d e (b.reads.headD (0, 0, 0)).2.1
      else deliver s u k d b parts) := by
  have hheld : (decide (d.dspace = 1) && b.held.isEmpty) = false := by
    simpa using h.held
  have hcores : b.cores.find? (fun x => decide (instarOf s (.core x.1) ≠ x.2)) = none :=
    List.find?_eq_none.2 fun x hx => by simpa using h.instars x hx
  change execMoverReadReturn u k [] s = _
  unfold execMoverReadReturn
  have hups : applyUpsets s u [] = s := rfl
  simp only [h.front, h.core, hups, h.stage, h.awake, h.oldest, hheld, h.readAwake, h.writeAwake, hcores, h.reads, h.writes, hparts,
    Bool.false_eq_true, if_false, OfNat.zero_ne_ofNat, Nat.zero_ne_one, decide_false, Bool.false_and, ne_eq, not_true_eq_false,
    Bool.not_false, Bool.true_and, Bool.or_self, List.append_nil, List.isEmpty_nil, Bool.not_true, Option.or_none]

end

/-- Settles O21: a burst of the channel picked goes out behind those before it; the oldest burst whose data has come is written as it
was read, or is a failure of its descriptor. -/
theorem moverBursts : Obligations.MoverBursts := by
  refine ⟨?_, ?_⟩
  · intro u p k s d hruns hpick hfront c n reads hreads hreach
    exact burstStart_gives hruns hpick hfront hreads hreach
  · intro u k s d b hfront c hstage hcore hawake hheld hxlat hinstars holdest hread hwrite hreads hwrites
    have hreturns : BurstReturns s u k d b :=
      ⟨hfront, hstage, hcore, hawake, hxlat, hinstars, holdest, hread, hwrite, hreads, hwrites⟩
    refine ⟨fun parts hparts hsrc hown hred hland hbefore hclash hmore hroom => ?_, fun e parts hparts he hxmov => ?_⟩
    · have hexec := moverReadReturn_exec hreturns hparts
      rw [if_neg (by decide), deliver_own hheld hsrc hown hred hbefore hclash hmore] at hexec
      obtain ⟨hscr, hgone, hraise⟩ := burstDone_spec (k := k) hheld hland hown hreturns.fresh hroom (burstWrites d c b parts)
        (burstFlags d c b parts)
      refine ⟨_, hexec, ?_, hgone, hraise⟩
      rw [hscr, memPutAll, plainWrites, List.foldl_map]
      rfl
    · have hexec := moverReadReturn_exec hreturns hparts
      rw [if_pos he] at hexec
      exact stops_of_moverFail hxmov he ((dropReads_frame ..).sameRun u (by decide) (by decide) (by decide)) hexec

end Sys2Proof.Machine
end

section
/-! O57, O56: every memory keeps its canonical form (log entry 9; R189, R231), since every command has a frame. -/

namespace Sys2Proof.Machine

/-- An outcome has a frame: some mask covers what its next state may change, and leaves out the queue. -/
def Framed (s : State) (o : Out) : Prop := ∃ M, M.testBit Part.pending.bit = false ∧ AgreeO M s o

theorem AgreeO.framed {M : Nat} {s : State} {o : Out} (h : AgreeO M s o) (hM : M.testBit Part.pending.bit = false) : Framed s o :=
  ⟨M, hM, h⟩

/-- Every command has a frame: that of its meaning. -/
theorem exec_framed (i : Instr) (s : State) : Framed s (exec i s) := by
  cases i with
  | registerWrite => exact (execRegisterWrite_frame _ _ _ _ _ _).framed rfl
  | registerSplitRead => exact (execRegisterSplitRead_frame _ _ _ _ _).framed rfl
  | nop => exact (execNop_frame _ _).framed rfl
  | mov => exact (execMov_frame _ _).framed rfl
  | add => exact (execAdd_frame _ _).framed rfl
  | sub => exact (execSub_frame _ _).framed rfl
  | mul => exact (execMul_frame _ _).framed rfl
  | mulhi => exact (execMulhi_frame _ _).framed rfl
  | mulhiu => exact (execMulhiu_frame _ _).framed rfl
  | and => exact (execAnd_frame _ _).framed rfl
  | or => exact (execOr_frame _ _).framed rfl
  | xor => exact (execXor_frame _ _).framed rfl
  | andn => exact (execAndn_frame _ _).framed rfl
  | shl => exact (execShl_frame _ _).framed rfl
  | shr => exact (execShr_frame _ _).framed rfl
  | sra => exact (execSra_frame _ _).framed rfl
  | min => exact (execMin_frame _ _).framed rfl
  | max => exact (execMax_frame _ _).framed rfl
  | minu => exact (execMinu_frame _ _).framed rfl
  | maxu => exact (execMaxu_frame _ _).framed rfl
  | clz => exact (execClz_frame _ _).framed rfl
  | popc => exact (execPopc_frame _ _).framed rfl
  | brev => exact (execBrev_frame _ _).framed rfl
  | sel => exact (execSel_frame _ _).framed rfl
  | shfl => exact (execShfl_frame _ _).framed rfl
  | ballot => exact (execBallot_frame _ _).framed rfl
  | setp => exact (execSetp_frame _ _ _).framed rfl
  | predicateLogic => exact (execPredicateLogic_frame _ _ _).framed rfl
  | aadd => exact (execAadd_frame _ _).framed rfl
  | alo => exact (execAlo_frame _ _).framed rfl
  | ahi => exact (execAhi_frame _ _).framed rfl
  | agetl => exact (execAgetl_frame _ _).framed rfl
  | ageth => exact (execAgeth_frame _ _).framed rfl
  | fadd => exact (execFadd_frame _ _).framed rfl
  | fsub => exact (execFsub_frame _ _).framed rfl
  | fmul => exact (execFmul_frame _ _).framed rfl
  | ffma => exact (execFfma_frame _ _).framed rfl
  | fmin => exact (execFmin_frame _ _).framed rfl
  | fmax => exact (execFmax_frame _ _).framed rfl
  | fabs => exact (execFabs_frame _ _).framed rfl
  | fneg => exact (execFneg_frame _ _).framed rfl
  | fsetp => exact (execFsetp_frame _ _ _).framed rfl
  | frcp => exact (execFrcp_frame _ _).framed rfl
  | frsq => exact (execFrsq_frame _ _).framed rfl
  | fsqrt => exact (execFsqrt_frame _ _).framed rfl
  | fexp2 => exact (execFexp2_frame _ _).framed rfl
  | flog2 => exact (execFlog2_frame _ _).framed rfl
  | ftanh => exact (execFtanh_frame _ _).framed rfl
  | fsigm => exact (execFsigm_frame _ _).framed rfl
  | cvt => exact (execCvt_frame _ _).framed rfl
  | fredadd => exact (execFredadd_frame _ _).framed rfl
  | fredmax => exact (execFredmax_frame _ _).framed rfl
  | xlds => exact (execXlds_frame _ _ _).framed rfl
  | xsts => exact (execXsts_frame _ _ _).framed rfl
  | xldg => exact (execXldg_frame _ _).framed rfl
  | xstg => exact (execXstg_frame _ _).framed rfl
  | xatoms => exact (execXatoms_frame _ _ _).framed rfl
  | xatomg => exact (execXatomg_frame _ _).framed rfl
  | xmov => exact (execXmov_frame _ _ _).framed rfl
  | xfence => exact (execXfence_frame _ _).framed rfl
  | cnop => exact (execCnop_frame _ _).framed rfl
  | cbr => exact (execCbr_frame _ _).framed rfl
  | cjmp => exact (execCjmp_frame _ _).framed rfl
  | ccall => exact (execCcall_frame _ _).framed rfl
  | cjmpr => exact (execCjmpr_frame _ _).framed rfl
  | cexit => exact (execCexit_frame _ _).framed rfl
  | cbar => exact (execCbar_frame _ _).framed rfl
  | barrierRelease => exact (execBarrierRelease_frame _ _ _).framed rfl
  | cwait => exact (execCwait_frame _ _).framed rfl
  | cwaitSatisfied => exact (execCwaitSatisfied_frame _ _ _).framed rfl
  | csleep => exact (execCsleep_frame _ _).framed rfl
  | csleepExpiry => exact (execCsleepExpiry_frame _ _ _).framed rfl
  | csilkAdd => exact (execCsilkAdd_frame _ _).framed rfl
  | csilkRead => exact (execCsilkRead_frame _ _).framed rfl
  | csilkWaitge => exact (execCsilkWaitge_frame _ _).framed rfl
  | csilkTake => exact (execCsilkTake_frame _ _).framed rfl
  | csrd => exact (execCsrd_frame _ _).framed rfl
  | cswr => exact (execCswr_frame _ _).framed rfl
  | cabort => exact (execCabort_frame _ _).framed rfl
  | loadDataReturn => exact (execLoadDataReturn_frame _ _).framed rfl
  | tileTranslated => exact (execTileTranslated_frame _ _).framed rfl
  | ifetchLine => exact (execIfetchLine_frame _ _ _).framed rfl
  | ifetchLineReturn => exact (execIfetchLineReturn_frame _ _ _).framed rfl
  | kernelStopDrainEnd => exact (execKernelStopDrainEnd_frame _ _).framed rfl
  | kernelStopAbort => exact (execKernelStopAbort_frame _ _).framed rfl
  | batchDeal => exact (execBatchDeal_frame _ _).framed rfl
  | batchStart => exact (execBatchStart_frame _ _).framed rfl
  | batchEnd => exact (execBatchEnd_frame _ _).framed rfl
  | batchPreempt => exact (execBatchPreempt_frame _ _).framed rfl
  | batchSaveComplete => exact (execBatchSaveComplete_frame _ _).framed rfl
  | batchRestore => exact (execBatchRestore_frame _ _ _).framed rfl
  | mloadw => exact (execMloadw_frame _ _).framed rfl
  | wblock => exact (execWblock_frame _ _).framed rfl
  | wtile => exact (execWtile_frame _ _).framed rfl
  | atile => exact (execAtile_frame _ _).framed rfl
  | mstream => exact (execMstream_frame _ _).framed rfl
  | msparse => exact (execMsparse_frame _ _).framed rfl
  | mdrain => exact (execMdrain_frame _ _).framed rfl
  | mEngineBegin => exact (execMEngineBegin_frame _ _ _ _).framed rfl
  | aChunkArrival => exact (execAChunkArrival_frame _ _ _).framed rfl
  | matrixRowEntry => exact (execMatrixRowEntry_frame _ _).framed rfl
  | accUpdate => exact (execAccUpdate_frame _ _ _).framed rfl
  | noRowStreamUpdate => exact (execNoRowStreamUpdate_frame _ _).framed rfl
  | slotLoadComplete => exact (execSlotLoadComplete_frame _ _ _).framed rfl
  | drainRowRead => exact (execDrainRowRead_frame _ _ _).framed rfl
  | drainRowWrite => exact (execDrainRowWrite_frame _ _).framed rfl
  | mInstrComplete => exact (execMInstrComplete_frame _ _ _).framed rfl
  | scratchEccWriteback => exact (execScratchEccWriteback_frame _ _).framed rfl
  | descFront => exact (execDescFront_frame _ _ _).framed rfl
  | descTranslated => exact (execDescTranslated_frame _ _ _).framed rfl
  | burstStart => exact (execBurstStart_frame _ _).framed rfl
  | moverReadReturn => exact (execMoverReadReturn_frame _ _ _ _).framed rfl
  | descComplete => exact (execDescComplete_frame _ _ _).framed rfl
  | peerAccessTimeout => exact (execPeerAccessTimeout_frame _ _ _).framed rfl
  | bstHeaderReturn => exact (execBstHeaderReturn_frame _ _ _).framed rfl
  | bstTileRow => exact (execBstTileRow_frame _ _ _).framed rfl
  | gateDispatchSelect => exact (execGateDispatchSelect_frame _ _).framed rfl
  | route => exact (execRoute_frame _ _ _).framed rfl
  | combine => exact (execCombine_frame _ _).framed rfl
  | exit => exact (execExit_frame _ _ _).framed rfl
  | gateGatherComplete => exact (execGateGatherComplete_frame _ _).framed rfl
  | gateDispatchComplete => exact (execGateDispatchComplete_frame _ _).framed rfl
  | slotFetchLanded => exact (execSlotFetchLanded_frame _ _ _).framed rfl
  | slotFetchVoid => exact (execSlotFetchVoid_frame _ _).framed rfl
  | slotPromoted => exact (execSlotPromoted_frame _ _ _).framed rfl
  | squash => exact (execSquash_frame _ _).framed rfl
  | squashComplete => exact (execSquashComplete_frame _ _).framed rfl
  | slotTtlExpiry => exact (execSlotTtlExpiry_frame _ _).framed rfl
  | gateCtrlWrite => exact (execGateCtrlWrite_frame _ _ _).framed rfl
  | squashAll => exact (execSquashAll_frame _ _).framed rfl
  | forget => exact (execForget_frame _ _).framed rfl
  | bufferRequest => exact (execBufferRequest_frame _ _ _).framed rfl
  | hbmAccessComplete => exact (execHbmAccessComplete_frame _ _ _).framed rfl
  | bufferAtomic => exact (execBufferAtomic_frame _ _ _).framed rfl
  | bufferReduction => exact (execBufferReduction_frame _ _ _).framed rfl
  | scrubLine => exact (execScrubLine_frame _ _ _).framed rfl
  | bridgeResend => exact (execBridgeResend_frame _ _ _ _).framed rfl
  | apertureRequest => exact (execApertureRequest_frame _ _ _ _ _ _ _ _).framed rfl
  | wb => exact (execWb_frame _ _).framed rfl
  | wbinv => exact (execWbinv_frame _ _).framed rfl
  | sliceCmdDone => exact (execSliceCmdDone_frame _ _).framed rfl
  | silkHomeOp => exact (execSilkHomeOp_frame _ _).framed rfl
  | silkCtrWrite => exact (execSilkCtrWrite_frame _ _ _).framed rfl
  | messageAgeDiscard => exact (execMessageAgeDiscard_frame _ _).framed rfl
  | regulatorWindow => exact (execRegulatorWindow_frame _).framed rfl
  | qosWinLenWrite => exact (execQosWinLenWrite_frame _ _).framed rfl
  | walkReadReturn => exact (execWalkReadReturn_frame _ _ _).framed rfl
  | faultRecordPost => exact (execFaultRecordPost_frame _ _).framed rfl
  | replay => exact (execReplay_frame _ _ _).framed rfl
  | abort => exact (execAbort_frame _ _ _).framed rfl
  | faultTimeout => exact (execFaultTimeout_frame _ _).framed rfl
  | iqTailWrite => exact (execIqTailWrite_frame _ _ _).framed rfl
  | range => exact (execRange_frame _ _).framed rfl
  | space => exact (execSpace_frame _ _).framed rfl
  | all => exact (execAll_frame _ _).framed rfl
  | sync => exact (execSync_frame _ _).framed rfl
  | invalidationComplete => exact (execInvalidationComplete_frame _ _).framed rfl
  | invalidationSlow => exact (execInvalidationSlow_frame _ _).framed rfl
  | wsFlush => exact (execWsFlush_frame _ _ _).framed rfl
  | wsFlushComplete => exact (execWsFlushComplete_frame _ _).framed rfl
  | compose => exact (execCompose_frame _).framed rfl
  | commitTick => exact (execCommitTick_frame _ _).framed rfl
  | chrysalisEnd => exact (execChrysalisEnd_frame _ _).framed rfl
  | chrysalisSlow => exact (execChrysalisSlow_frame _ _).framed rfl
  | coreLeft => exact (execCoreLeft_frame _ _).framed rfl
  | linkSliceLeft => exact (execLinkSliceLeft_frame _ _).framed rfl
  | scrubComplete => exact (execScrubComplete_frame _ _).framed rfl
  | evacuateLine => exact (execEvacuateLine_frame _ _ _ _).framed rfl
  | leaseHandshakeTimeout => exact (execLeaseHandshakeTimeout_frame _).framed rfl
  | instarAdvance => exact (execInstarAdvance_frame _ _).framed rfl
  | ctxCreate => exact (execCtxCreate_frame _ _).framed rfl
  | ctxDestroy => exact (execCtxDestroy_frame _ _).framed rfl
  | ctxKill => exact (execCtxKill_frame _ _).framed rfl
  | qCreate => exact (execQCreate_frame _ _).framed rfl
  | qDestroy => exact (execQDestroy_frame _ _).framed rfl
  | qResume => exact (execQResume_frame _ _).framed rfl
  | objFree => exact (execObjFree_frame _ _).framed rfl
  | fenceSignal => exact (execFenceSignal_frame _ _).framed rfl
  | fenceError => exact (execFenceError_frame _ _).framed rfl
  | fenceReset => exact (execFenceReset_frame _ _).framed rfl
  | doorbell => exact (execDoorbell_frame _ _ _ _).framed rfl
  | commandTake => exact (execCommandTake_frame _ _).framed rfl
  | contextResident => exact (execContextResident_frame _ _).framed rfl
  | commandStart => exact (execCommandStart_frame _ _).framed rfl
  | kernel => exact (execKernel_frame _ _).framed rfl
  | copy => exact (execCopy_frame _ _).framed rfl
  | fill => exact (execFill_frame _ _).framed rfl
  | signal => exact (execSignal_frame _ _).framed rfl
  | wait => exact (execWait_frame _ _).framed rfl
  | waitTimeout => exact (execWaitTimeout_frame _ _).framed rfl
  | collective => exact (execCollective_frame _ _).framed rfl
  | gateDispatch => exact (execGateDispatch_frame _ _).framed rfl
  | atomicSeq => exact (execAtomicSeq_frame _ _).framed rfl
  | migrate => exact (execMigrate_frame _ _).framed rfl
  | marker => exact (execMarker_frame _ _).framed rfl
  | commandComplete => exact (execCommandComplete_frame _ _).framed rfl
  | sliceEnd => exact (execSliceEnd_frame _ _).framed rfl
  | handoverComplete => exact (execHandoverComplete_frame _ _).framed rfl
  | npOverrun => exact (execNpOverrun_frame _ _).framed rfl
  | teardownAbort => exact (execTeardownAbort_frame _ _).framed rfl
  | quiesce => exact (execQuiesce_frame _ _).framed rfl
  | eventRecordPost => exact (execEventRecordPost_frame _ _).framed rfl
  | evtFqHeadWrite => exact (execEvtFqHeadWrite_frame _ _ _).framed rfl
  | evtEqHeadWrite => exact (execEvtEqHeadWrite_frame _ _ _).framed rfl
  | msixSend => exact (execMsixSend_frame _ _ _).framed rfl
  | lnkPortCtrlWrite => exact (execLnkPortCtrlWrite_frame _ _ _).framed rfl
  | portTrained => exact (execPortTrained_frame _ _ _).framed rfl
  | trainingTimeout => exact (execTrainingTimeout_frame _ _).framed rfl
  | delayProbe => exact (execDelayProbe_frame _ _ _).framed rfl
  | lockLoss => exact (execLockLoss_frame _ _).framed rfl
  | laserLow => exact (execLaserLow_frame _ _).framed rfl
  | flitReceive => exact (execFlitReceive_frame _ _ _).framed rfl
  | messageTransit => exact (execMessageTransit_frame _ _).framed rfl
  | linkRead => exact (execLinkRead_frame _ _).framed rfl
  | linkWrite => exact (execLinkWrite_frame _ _).framed rfl
  | linkAtomic => exact (execLinkAtomic_frame _ _).framed rfl
  | resp => exact (execResp_frame _ _).framed rfl
  | linkAck => exact (execLinkAck_frame _ _).framed rfl
  | err => exact (execErr_frame _ _).framed rfl
  | collPut => exact (execCollPut_frame _ _).framed rfl
  | linkAbort => exact (execLinkAbort_frame _ _).framed rfl
  | silkAddMsg => exact (execSilkAddMsg_frame _ _ _).framed rfl
  | silkReadMsg => exact (execSilkReadMsg_frame _ _ _).framed rfl
  | silkWaitgeMsg => exact (execSilkWaitgeMsg_frame _ _ _).framed rfl
  | silkTakeMsg => exact (execSilkTakeMsg_frame _ _ _).framed rfl
  | silkRelease => exact (execSilkRelease_frame _ _ _).framed rfl
  | silkAck => exact (execSilkAck_frame _ _).framed rfl
  | collToken => exact (execCollToken_frame _ _).framed rfl
  | custody => exact (execCustody_frame _ _).framed rfl
  | peerNotice => exact (execPeerNotice_frame _ _).framed rfl
  | hello => exact (execHello_frame _ _).framed rfl
  | advert => exact (execAdvert_frame _ _).framed rfl
  | fenceOp => exact (execFenceOp_frame _ _).framed rfl
  | fenceRelease => exact (execFenceRelease_frame _ _).framed rfl
  | lease => exact (execLease_frame _ _).framed rfl
  | linkIdle => exact (execLinkIdle_frame _ _).framed rfl
  | time => exact (execTime_frame _ _).framed rfl
  | encReq => exact (execEncReq_frame _ _ _).framed rfl
  | encReqTimeout => exact (execEncReqTimeout_frame _ _).framed rfl
  | keyEpochAdvance => exact (execKeyEpochAdvance_frame _ _).framed rfl
  | helloSend => exact (execHelloSend_frame _).framed rfl
  | advertSend => exact (execAdvertSend_frame _).framed rfl
  | peerAgeExpiry => exact (execPeerAgeExpiry_frame _ _).framed rfl
  | collSendAction => exact (execCollSendAction_frame _ _).framed rfl
  | collReceiveAction => exact (execCollReceiveAction_frame _ _).framed rfl
  | collActionComplete => exact (execCollActionComplete_frame _ _ _).framed rfl
  | collTimeout => exact (execCollTimeout_frame _ _).framed rfl
  | init => exact (execInit_frame _).framed rfl
  | offer => exact (execOffer_frame _).framed rfl
  | accept => exact (execAccept_frame _).framed rfl
  | release => exact (execRelease_frame _).framed rfl
  | reclaim => exact (execReclaim_frame _).framed rfl
  | custodyRead => exact (execCustodyRead_frame _).framed rfl
  | custodyUnreachable => exact (execCustodyUnreachable_frame _).framed rfl
  | mbxSend => exact (execMbxSend_frame _ _).framed rfl
  | mbxDeliver => exact (execMbxDeliver_frame _ _).framed rfl
  | mbxInRelease => exact (execMbxInRelease_frame _ _).framed rfl
  | mbxProxyAccess => exact (execMbxProxyAccess_frame _ _ _ _).framed rfl
  | instCreate => exact (execInstCreate_frame _ _ _ _).framed rfl
  | instReset => exact (execInstReset_frame _).framed rfl
  | instResetDone => exact (execInstResetDone_frame _ _).framed rfl
  | instRemove => exact (execInstRemove_frame _).framed rfl
  | imagoInfo => exact (execImagoInfo_frame _).framed rfl
  | attest => exact (execAttest_frame _).framed rfl
  | certRead => exact (execCertRead_frame _).framed rfl
  | keyGen => exact (execKeyGen_frame _ _).framed rfl
  | keyImport => exact (execKeyImport_frame _ _).framed rfl
  | keyExport => exact (execKeyExport_frame _ _).framed rfl
  | keyDerive => exact (execKeyDerive_frame _ _).framed rfl
  | keyErase => exact (execKeyErase_frame _).framed rfl
  | keyCrypt => exact (execKeyCrypt_frame _ _).framed rfl
  | cvkUpdate => exact (execCvkUpdate_frame _).framed rfl
  | timeSet => exact (execTimeSet_frame _).framed rfl
  | regionSet => exact (execRegionSet_frame _).framed rfl
  | vfFlr => exact (execVfFlr_frame _ _).framed rfl
  | numvfsLower => exact (execNumvfsLower_frame _ _).framed rfl
  | pfFlr => exact (execPfFlr_frame _).framed rfl
  | rtcSet => exact (execRtcSet_frame _ _).framed rfl
  | rtcAdj => exact (execRtcAdj_frame _ _).framed rfl
  | slewComplete => exact (execSlewComplete_frame _).framed rfl
  | hoursTick => exact (execHoursTick_frame _).framed rfl
  | vbatSample => exact (execVbatSample_frame _ _).framed rfl
  | oscStop => exact (execOscStop_frame _).framed rfl
  | arbitrate => exact (execArbitrate_frame _ _ _ _).framed rfl
  | voltageReached => exact (execVoltageReached_frame _ _).framed rfl
  | calibrate => exact (execCalibrate_frame _ _).framed rfl
  | ilimExceed => exact (execIlimExceed_frame _ _ _).framed rfl
  | droopEvent => exact (execDroopEvent_frame _ _).framed rfl
  | raiseHoldExpiry => exact (execRaiseHoldExpiry_frame _ _).framed rfl
  | pwrPkgCapWrite => exact (execPwrPkgCapWrite_frame _ _).framed rfl
  | pwrCoreFcapWrite => exact (execPwrCoreFcapWrite_frame _ _ _).framed rfl
  | capDeferExpiry => exact (execCapDeferExpiry_frame _).framed rfl
  | vinDip => exact (execVinDip_frame _ _).framed rfl
  | vinRecover => exact (execVinRecover_frame _ _ _).framed rfl
  | dipHoldExpiry => exact (execDipHoldExpiry_frame _).framed rfl
  | rampEnd => exact (execRampEnd_frame _).framed rfl
  | supplyReset => exact (execSupplyReset_frame _).framed rfl
  | thermalSample => exact (execThermalSample_frame _ _).framed rfl
  | thermalTrip => exact (execThermalTrip_frame _ _ _).framed rfl
  | coolantStop => exact (execCoolantStop_frame _).framed rfl
  | coolantStopComplete => exact (execCoolantStopComplete_frame _).framed rfl
  | flowRestored => exact (execFlowRestored_frame _).framed rfl
  | resume => exact (execResume_frame _ _).framed rfl
  | calRestart => exact (execCalRestart_frame _).framed rfl
  | pwrEvtWrite => exact (execPwrEvtWrite_frame _ _).framed rfl
  | coreDiapauseEntry => exact (execCoreDiapauseEntry_frame _ _).framed rfl
  | wingDiapauseEntry => exact (execWingDiapauseEntry_frame _ _).framed rfl
  | diapauseEntered => exact (execDiapauseEntered_frame _ _).framed rfl
  | wake => exact (execWake_frame _ _).framed rfl
  | wakeComplete => exact (execWakeComplete_frame _ _).framed rfl
  | replan => exact (execReplan_frame _ _).framed rfl
  | replanComplete => exact (execReplanComplete_frame _ _).framed rfl
  | wakeAll => exact (execWakeAll_frame _).framed rfl
  | vinAuxApply => exact (execVinAuxApply_frame _).framed rfl
  | vinMainApply => exact (execVinMainApply_frame _).framed rfl
  | phaseComplete => exact (execPhaseComplete_frame _ _).framed rfl
  | phaseTimeout => exact (execPhaseTimeout_frame _).framed rfl
  | perstAssert => exact (execPerstAssert_frame _).framed rfl
  | perstDeassert => exact (execPerstDeassert_frame _).framed rfl
  | imagoReset => exact (execImagoReset_frame _ _ _).framed rfl
  | chipReset => exact (execChipReset_frame _ _).framed rfl
  | fullReset => exact (execFullReset_frame _ _ _ _).framed rfl
  | topoContinue => exact (execTopoContinue_frame _).framed rfl
  | override => exact (execOverride_frame _).framed rfl
  | resetDrainEnd => exact (execResetDrainEnd_frame _ _).framed rfl
  | resetDone => exact (execResetDone_frame _ _ _).framed rfl
  | resetBoundMiss => exact (execResetBoundMiss_frame _ _).framed rfl
  | rstEvtWrite => exact (execRstEvtWrite_frame _ _).framed rfl
  | kernelWatchdog => exact (execKernelWatchdog_frame _ _).framed rfl
  | npWatchdog => exact (execNpWatchdog_frame _ _).framed rfl
  | queueWatchdog => exact (execQueueWatchdog_frame _ _).framed rfl
  | fabricWatchdog => exact (execFabricWatchdog_frame _ _).framed rfl
  | vinAuxLoss => exact (execVinAuxLoss_frame _).framed rfl
  | refclkLoss => exact (execRefclkLoss_frame _).framed rfl
  | vinMainRemoved => exact (execVinMainRemoved_frame _).framed rfl
  | status => exact (execStatus_frame _).framed rfl
  | descRead => exact (execDescRead_frame _).framed rfl
  | descWrite => exact (execDescWrite_frame _ _).framed rfl
  | recovery => exact (execRecovery_frame _ _ _).framed rfl
  | recoveryDone => exact (execRecoveryDone_frame _).framed rfl
  | tapInstruction => exact (execTapInstruction_frame _ _ _).framed rfl
  | flowOkHeld => exact (execFlowOkHeld_frame _).framed rfl
  | laserRestored => exact (execLaserRestored_frame _ _).framed rfl
  | timeSend => exact (execTimeSend_frame _).framed rfl
  | linkctlAckSend => exact (execLinkctlAckSend_frame _ _).framed rfl
  | limitingEnd => exact (execLimitingEnd_frame _ _ _).framed rfl
  | droopEnd => exact (execDroopEnd_frame _ _).framed rfl
  | holdSupplyDrop => exact (execHoldSupplyDrop_frame _).framed rfl
  | voltageLowering => exact (execVoltageLowering_frame _ _).framed rfl

/-- A command keeps the canonical form of every memory. -/
theorem exec_memories {i : Instr} {s s' : State} (w : MemoriesWf s) (h : exec i s = .next s') : MemoriesWf s' := by
  obtain ⟨_, _, hframe⟩ := exec_framed i s
  exact (hframe s' h).mems w

/-- Settles O57: a step is a tick or a command, and both keep the form. -/
theorem stepKeepsMemories : Obligations.StepKeepsMemories := by
  intro s s' w h
  unfold step at h
  split at h
  · obtain rfl := Host.Outcome.next.inj h
    exact tick_memories w
  · next c rest _ => exact exec_memories (s := { s with pending := rest }) w h

/-- Settles O56: reset lists no byte of any memory. -/
theorem resetMemories : Obligations.ResetMemories := ⟨reset_hbm_wf.1, reset_hbm_wf.2, fun _ => rfl⟩

end Sys2Proof.Machine
end

section
/-! Lines of HBM and their buffered copies: what eviction, filling and writing leave of them (R231, R239, R240). -/

namespace Sys2Proof.Machine

/-! ## Masks of sectors -/

theorem bitAt_minus (a b i : Nat) : bitAt (minus a b) i = (bitAt a i && !bitAt b i) := by
  rw [bitAt_eq_testBit, bitAt_eq_testBit, bitAt_eq_testBit]
  change (a - (a &&& b)).testBit i = _
  induction i generalizing a b with
  | zero =>
    have hle : a &&& b ≤ a := Nat.and_le_left
    have hlow := Nat.testBit_and a b 0
    rw [Bool.eq_iff_iff] at hlow ⊢
    simp only [Nat.testBit_zero, Bool.and_eq_true, Bool.not_eq_true', decide_eq_true_eq, decide_eq_false_iff_not] at hlow ⊢
    omega
  | succ i ih =>
    have hle : a &&& b ≤ a := Nat.and_le_left
    have hlow := Nat.testBit_and a b 0
    rw [Bool.eq_iff_iff] at hlow
    simp only [Nat.testBit_zero, Bool.and_eq_true, decide_eq_true_eq] at hlow
    have hdiv : (a &&& b) / 2 = a / 2 &&& b / 2 := Nat.and_div_two_pow (n := 1)
    have hhalf : (a - (a &&& b)) / 2 = a / 2 - (a / 2 &&& b / 2) := by omega
    rw [Nat.testBit_succ, hhalf, ih, ← Nat.testBit_succ, ← Nat.testBit_succ]

theorem bitAt_lor (a b i : Nat) : bitAt (Nat.lor a b) i = (bitAt a i || bitAt b i) := by
  rw [bitAt_eq_testBit, bitAt_eq_testBit, bitAt_eq_testBit]
  exact Nat.testBit_or ..

theorem bitAt_coveredMask (o n k : Nat) :
    bitAt (coveredMask o n) k = (decide (k < 8) && (decide (o ≤ 32 * k) && decide (32 * k + 32 ≤ o + n))) :=
  bitAt_maskUpTo _ 8 k

theorem not_bitAt_zero (k : Nat) : ¬ bitAt 0 k = true := by rw [bitAt_eq_testBit, Nat.zero_testBit]; decide

theorem bitAt_all {k : Nat} (hk : k < 8) : bitAt 255 k = true := by
  rw [bitAt_eq_testBit]
  exact (Nat.testBit_two_pow_sub_one 8 k).trans (decide_eq_true hk)

/-- A byte that an access names lies in a sector that it touches. -/
theorem bitAt_touchedMask_of_mem {o n i : Nat} (hi : i < 256) (hlo : o ≤ i) (hhi : i < o + n) : bitAt (touchedMask o n) (i / 32) = true := by
  rw [bitAt_touchedMask]
  simp only [Bool.and_eq_true, decide_eq_true_eq]
  omega

/-- A touched sector is covered whole, or is one of the sectors that the write needs. -/
theorem covered_or_needed {o n k : Nat} (ht : bitAt (touchedMask o n) k = true) :
    bitAt (coveredMask o n) k = true ∨ bitAt (writeNeed o n) k = true := by
  unfold writeNeed
  split
  · next h => exact .inl (bitAt_of_minus_eq_zero h ht)
  · have hk : k < 8 := by
      rw [bitAt_touchedMask] at ht
      simp only [Bool.and_eq_true, decide_eq_true_eq] at ht
      exact ht.1
    exact .inr (bitAt_all hk)

theorem bytes_ext {l l' : List Byte} (hl : l.length = 256) (hl' : l'.length = 256) (h : ∀ i, i < 256 → l[i]? = l'[i]?) : l = l' := by
  refine List.ext_getElem? fun i => ?_
  by_cases hi : i < 256
  · exact h i hi
  · rw [List.getElem?_eq_none (by omega), List.getElem?_eq_none (by omega)]

/-! ## Bytes of HBM -/

theorem getElem?_memBytes (m : Mem) (a : Nat) {n i : Nat} (hi : i < n) : (memBytes m a n)[i]? = some (mem8 m (a + i)) := by
  induction n generalizing a i with
  | zero => omega
  | succ n ih =>
    cases i with
    | zero => rfl
    | succ i =>
      rw [memBytes, List.getElem?_cons_succ, ih (a + 1) (by omega)]
      congr 2
      omega

theorem memBytes_congr {m m' : Mem} {a n : Nat} (h : ∀ b, a ≤ b → b < a + n → mem8 m' b = mem8 m b) : memBytes m' a n = memBytes m a n := by
  refine List.ext_getElem? fun i => ?_
  by_cases hi : i < n
  · rw [getElem?_memBytes _ _ hi, getElem?_memBytes _ _ hi, h (a + i) (by omega) (by omega)]
  · rw [List.getElem?_eq_none (by rw [length_memBytes]; omega), List.getElem?_eq_none (by rw [length_memBytes]; omega)]

section
variable {s t u : State} {n x o : Nat} {b : BufLine} {data : List Byte}

theorem length_hbmLine (s : State) (n : Nat) : (hbmLine s n).length = 256 := length_memBytes ..

theorem getD_sectorOf (l : List Byte) (k : Nat) {j : Nat} (hj : j < 32) : (sectorOf l k).getD j 0 = l.getD (32 * k + j) 0 := by
  rw [List.getD_eq_getElem?_getD, List.getD_eq_getElem?_getD, getElem?_sectorOf k hj]

/-- The bytes of HBM after the first sectors of a line are written under a mask. -/
theorem mem8_hbmPutFrom (s : State) (n mask bad : Nat) (data : List Byte) (k a : Nat) :
    mem8 (hbmPutFrom s n mask bad data k).hbm a =
      if 256 * n ≤ a ∧ a < 256 * n + 32 * k ∧ a - 256 * n < data.length ∧ bitAt mask ((a - 256 * n) / 32) = true
      then data.getD (a - 256 * n) 0 else mem8 s.hbm a := by
  induction k with
  | zero => exact (if_neg (by omega)).symm
  | succ k ih =>
    have hsector : (sectorOf data k).length = min 32 (data.length - 32 * k) := by simp only [sectorOf, List.length_take, List.length_drop]
    unfold hbmPutFrom
    dsimp only
    by_cases hin : 256 * n + 32 * k ≤ a ∧ a < 256 * n + 32 * k + 32
    · have hdiv : (a - 256 * n) / 32 = k := by omega
      have hplace : 32 * k + (a - (256 * n + 32 * k)) = a - 256 * n := by omega
      rw [hdiv]
      rw [if_neg (by omega)] at ih
      by_cases hm : bitAt mask k = true
      · rw [if_pos hm]
        change mem8 (memPut _ _ _) a = _
        rw [mem8_memPut, ih, hsector, getD_sectorOf _ _ (by omega), hplace]
        split
        · rw [if_pos ⟨by omega, by omega, by omega, hm⟩]
        · rw [if_neg (by omega)]
      · rw [if_neg hm, ih, if_neg fun h => hm h.2.2.2]
    · have hkept : mem8 (if bitAt mask k = true then setHbmBad { hbmPutFrom s n mask bad data k with
          hbm := memPut (hbmPutFrom s n mask bad data k).hbm (256 * n + 32 * k) (sectorOf data k) } (8 * n + k) (bitAt bad k)
          else hbmPutFrom s n mask bad data k).hbm a = mem8 (hbmPutFrom s n mask bad data k).hbm a := by
        split
        · change mem8 (memPut _ _ _) a = _
          rw [mem8_memPut, if_neg (by omega)]
        · rfl
      rw [hkept, ih]
      have hiff : (256 * n ≤ a ∧ a < 256 * n + 32 * k) ↔ (256 * n ≤ a ∧ a < 256 * n + 32 * (k + 1)) := by omega
      simp only [← and_assoc, hiff]

/-- A byte of a line after sectors of it are written to HBM. -/
theorem getElem?_hbmLine_hbmPut (hlen : data.length = 256) (mask bad : Nat) {i : Nat} (hi : i < 256) :
    (hbmLine (hbmPut s n mask bad data) n)[i]? = if bitAt mask (i / 32) = true then data[i]? else (hbmLine s n)[i]? := by
  have hplace : 256 * n + i - 256 * n = i := by omega
  unfold hbmLine hbmPut
  rw [getElem?_memBytes _ _ hi, getElem?_memBytes _ _ hi, mem8_hbmPutFrom, hplace]
  split
  · next h => rw [if_pos h.2.2.2, List.getD_eq_getElem?_getD, List.getElem?_eq_getElem (by omega)]; rfl
  · next h => rw [if_neg fun hm => h ⟨by omega, by omega, by omega, hm⟩]

/-- No byte of another line is written. -/
theorem hbmLine_hbmPut_ne (hx : x ≠ n) (mask bad : Nat) (data : List Byte) : hbmLine (hbmPut s n mask bad data) x = hbmLine s x := by
  refine memBytes_congr fun a hlo hhi => ?_
  rw [hbmPut, mem8_hbmPutFrom, if_neg]
  omega

/-! ## What changes in memory alone -/

/-- Two states differ in HBM and buffered lines alone. -/
def MemOnly (s t : State) : Prop := ∃ h p b, t = { s with hbm := h, hbmPoison := p, bufs := b }

theorem MemOnly.refl (s : State) : MemOnly s s := ⟨_, _, _, rfl⟩

theorem MemOnly.trans (h : MemOnly s t) (h' : MemOnly t u) : MemOnly s u := by
  obtain ⟨_, _, _, rfl⟩ := h
  obtain ⟨_, _, _, rfl⟩ := h'
  exact ⟨_, _, _, rfl⟩

theorem memOnly_setBuf (s : State) (n : Nat) (b : BufLine) : MemOnly s (setBuf s n b) := ⟨_, _, _, rfl⟩

theorem memOnly_hbmPut (s : State) (n mask bad : Nat) (data : List Byte) : MemOnly s (hbmPut s n mask bad data) := by
  suffices h : ∀ k, MemOnly s (hbmPutFrom s n mask bad data k) from h 8
  intro k
  induction k with
  | zero => exact .refl s
  | succ k ih =>
    unfold hbmPutFrom
    dsimp only
    split
    · exact ih.trans ⟨_, _, _, rfl⟩
    · exact ih

theorem MemOnly.reqLine (h : MemOnly s t) (r : MemReq) : reqLine t r = Machine.reqLine s r := by
  obtain ⟨_, _, _, rfl⟩ := h
  rfl

theorem MemOnly.failedOn (h : MemOnly s t) (a c : Nat × Nat) : failedOn t a c = Machine.failedOn s a c := by
  obtain ⟨_, _, _, rfl⟩ := h
  rfl

theorem MemOnly.originOf (h : MemOnly s t) (r : MemReq) : originOf t r = Machine.originOf s r := by
  obtain ⟨_, _, _, rfl⟩ := h
  rfl

theorem MemOnly.reqs (h : MemOnly s t) : t.reqs = s.reqs := by
  obtain ⟨_, _, _, rfl⟩ := h
  rfl

/-! ## Lines in order -/

/-- A buffered line is in order, byte by byte: 256 bytes, dirty sectors are valid, and clean valid ones agree with HBM. -/
structure LineOk (s : State) (n : Nat) (b : BufLine) : Prop where
  length : b.data.length = 256
  dirty : ∀ k, k < 8 → bitAt b.dirty k = true → bitAt b.valid k = true
  clean : ∀ i, i < 256 → bitAt b.valid (i / 32) = true → bitAt b.dirty (i / 32) = false → b.data[i]? = (hbmLine s n)[i]?

theorem sectorOf_eq_iff {l l' : List Byte} {k : Nat} : sectorOf l k = sectorOf l' k ↔ ∀ j, j < 32 → l[32 * k + j]? = l'[32 * k + j]? := by
  refine ⟨fun h j hj => ?_, fun h => List.ext_getElem? fun j => ?_⟩
  · rw [← getElem?_sectorOf k hj, h, getElem?_sectorOf k hj]
  · by_cases hj : j < 32
    · rw [getElem?_sectorOf k hj, getElem?_sectorOf k hj, h j hj]
    · rw [List.getElem?_eq_none, List.getElem?_eq_none] <;> (simp only [sectorOf, List.length_take]; omega)

theorem coherent_iff : Coherent s n ↔ ∀ b, bufOf s n = some b → LineOk s n b := by
  refine ⟨fun h b hb => ?_, fun h b hb => ?_⟩
  · obtain ⟨hlen, hsector⟩ := h b hb
    refine ⟨hlen, fun k hk => (hsector k hk).1, fun i hi hvalid hclean => ?_⟩
    have hbytes := sectorOf_eq_iff.1 ((hsector (i / 32) (by omega)).2 hvalid hclean) (i % 32) (by omega)
    rwa [Nat.div_add_mod] at hbytes
  · obtain ⟨hlen, hdirty, hclean⟩ := h b hb
    refine ⟨hlen, fun k hk => ⟨hdirty k hk, fun hv hd => sectorOf_eq_iff.2 fun j hj => ?_⟩⟩
    have hk' : (32 * k + j) / 32 = k := by omega
    exact hclean _ (by omega) (by rwa [hk']) (by rwa [hk'])

theorem lineBytes_of_none (h : bufOf s n = none) : lineBytes s n = hbmLine s n := by
  unfold lineBytes
  rw [h]

theorem Coherent.length_lineBytes (h : Coherent s n) : (lineBytes s n).length = 256 := by
  cases hb : bufOf s n with
  | none => rw [lineBytes_of_none hb, length_hbmLine]
  | some b => exact Machine.length_lineBytes hb (h b hb).1

@[simp] theorem bufOf_setBuf (s : State) (n x : Nat) (b : BufLine) : bufOf (setBuf s n b) x = if n = x then some b else bufOf s x :=
  mfind_mput ..

@[simp] theorem hbmLine_setBuf (s : State) (n x : Nat) (b : BufLine) : hbmLine (setBuf s n b) x = hbmLine s x := rfl

theorem bufOf_hbmPut (s : State) (n mask bad : Nat) (data : List Byte) (x : Nat) : bufOf (hbmPut s n mask bad data) x = bufOf s x := by
  unfold bufOf
  rw [(hbmPut_frame s n mask bad data).bufs (by decide)]

/-- A line whose copy and HBM bytes are as before is as before. -/
theorem line_congr (hb : bufOf t x = bufOf s x) (hh : hbmLine t x = hbmLine s x) (h : Coherent s x) :
    lineBytes t x = lineBytes s x ∧ Coherent t x := by
  refine ⟨?_, ?_⟩
  · unfold lineBytes
    rw [hb, hh]
  · unfold Coherent
    rw [hb, hh]
    exact h

/-! ## Changes that no agent sees -/

/-- From `s` to `t` memory alone changes, and every line that was in order is in order and has its bytes. -/
structure SameLines (s t : State) : Prop where
  only : MemOnly s t
  line : ∀ x, Coherent s x → lineBytes t x = lineBytes s x ∧ Coherent t x

theorem SameLines.refl (s : State) : SameLines s s := ⟨.refl s, fun _ h => ⟨rfl, h⟩⟩

theorem SameLines.trans (h : SameLines s t) (h' : SameLines t u) : SameLines s u :=
  ⟨h.only.trans h'.only, fun x hx =>
    have ⟨hbytes, hok⟩ := h.line x hx
    have ⟨hbytes', hok'⟩ := h'.line x hok
    ⟨hbytes'.trans hbytes, hok'⟩⟩

theorem SameLines.foldl {α : Type} {f : State → α → State} (hf : ∀ s a, SameLines s (f s a)) (l : List α) (s : State) :
    SameLines s (l.foldl f s) := by
  induction l generalizing s with
  | nil => exact .refl s
  | cons a l ih => exact (hf s a).trans (ih _)

/-- Other lines keep their copies and their bytes in HBM. -/
structure SameElse (s t : State) (n : Nat) : Prop where
  copy : ∀ x, x ≠ n → bufOf t x = bufOf s x
  hbm : ∀ x, x ≠ n → hbmLine t x = hbmLine s x

theorem SameLines.of_line (hm : MemOnly s t) (helse : SameElse s t n)
    (hn : Coherent s n → lineBytes t n = lineBytes s n ∧ Coherent t n) : SameLines s t := by
  refine ⟨hm, fun x hx => ?_⟩
  by_cases h : x = n
  · subst h; exact hn hx
  · exact line_congr (helse.copy x h) (helse.hbm x h) hx

theorem sameElse_setBuf (s : State) (n : Nat) (b : BufLine) : SameElse s (setBuf s n b) n :=
  ⟨fun x hx => by rw [bufOf_setBuf, if_neg (Ne.symm hx)], fun _ _ => rfl⟩

theorem sameElse_hbmPut (s : State) (n mask bad : Nat) (data : List Byte) : SameElse s (hbmPut s n mask bad data) n :=
  ⟨fun _ _ => bufOf_hbmPut .., fun _ hx => hbmLine_hbmPut_ne hx ..⟩

theorem SameElse.trans (h : SameElse s t n) (h' : SameElse t u n) : SameElse s u n :=
  ⟨fun x hx => (h'.copy x hx).trans (h.copy x hx), fun x hx => (h'.hbm x hx).trans (h.hbm x hx)⟩

/-- The bytes of a line that a copy in order shows, and the order of the line. -/
theorem line_of_copy {l : List Byte} (hb : bufOf t n = some b) (hok : LineOk t n b) (hl : l.length = 256)
    (h : ∀ i, i < 256 → (if bitAt b.valid (i / 32) = true then b.data[i]? else (hbmLine t n)[i]?) = l[i]?) :
    lineBytes t n = l ∧ Coherent t n := by
  refine ⟨bytes_ext (length_lineBytes hb hok.length) hl fun i hi => ?_, coherent_iff.2 fun b' hb' => ?_⟩
  · rw [getElem?_lineBytes hb hok.length hi, h i hi]
  · rw [hb] at hb'
    exact Option.some.inj hb' ▸ hok

/-- A copy that shows the same bytes may take the place of a line's copy, or be its first. -/
theorem sameLines_setBuf {b' : BufLine} (h : Coherent s n → LineOk s n b'
    ∧ ∀ i, i < 256 → (if bitAt b'.valid (i / 32) = true then b'.data[i]? else (hbmLine s n)[i]?) = (lineBytes s n)[i]?) :
    SameLines s (setBuf s n b') :=
  .of_line (memOnly_setBuf ..) (sameElse_setBuf ..) fun hn =>
    have ⟨⟨hlen, hdirty, hclean⟩, hbytes⟩ := h hn
    line_of_copy (by rw [bufOf_setBuf, if_pos rfl]) ⟨hlen, hdirty, hclean⟩ hn.length_lineBytes hbytes

/-- Marks of use and of hints do not change what a copy shows. -/
theorem sameLines_remark {b' : BufLine} (hb : bufOf s n = some b) (hd : b'.data = b.data) (hv : b'.valid = b.valid)
    (hdirty : b'.dirty = b.dirty) : SameLines s (setBuf s n b') := by
  refine sameLines_setBuf fun h => ?_
  obtain ⟨hlen, hvalid, hclean⟩ := coherent_iff.1 h b hb
  refine ⟨⟨by rwa [hd], by rwa [hv, hdirty], by rwa [hv, hd, hdirty]⟩, fun i hi => ?_⟩
  rw [hd, hv, getElem?_lineBytes hb hlen hi]

theorem sameLines_touchLine (s : State) (n : Nat) : SameLines s (touchLine s n) := by
  unfold touchLine
  split
  · exact .refl s
  · next hb => exact sameLines_remark hb rfl rfl rfl

/-! ## Writing back and evicting (R240, R258) -/

theorem writeBack_eq (hb : bufOf s n = some b) :
    writeBack s n = setBuf (hbmPut s n b.dirty b.poison b.data) n { b with dirty := 0 } := by
  unfold writeBack
  rw [hb]

theorem writeBack_of_none (hb : bufOf s n = none) : writeBack s n = s := by
  unfold writeBack
  rw [hb]

/-- With its dirty sectors written to HBM, a line in order has in HBM the bytes that every agent sees. -/
theorem LineOk.hbmLine_hbmPut (hok : LineOk s n b) (bad : Nat) {i : Nat} (hi : i < 256) (hv : bitAt b.valid (i / 32) = true) :
    (hbmLine (hbmPut s n b.dirty bad b.data) n)[i]? = b.data[i]? := by
  rw [getElem?_hbmLine_hbmPut hok.length _ _ hi]
  split
  · rfl
  · next hd => exact (hok.clean i hi hv (Bool.eq_false_iff.2 hd)).symm

/-- Sectors that are not valid are as they were in HBM. -/
theorem LineOk.hbmLine_hbmPut_invalid (hok : LineOk s n b) (bad : Nat) {i : Nat} (hi : i < 256) (hv : ¬ bitAt b.valid (i / 32) = true) :
    (hbmLine (hbmPut s n b.dirty bad b.data) n)[i]? = (hbmLine s n)[i]? := by
  rw [getElem?_hbmLine_hbmPut hok.length _ _ hi, if_neg fun hd => hv (hok.dirty _ (by omega) hd)]

theorem sameLines_writeBack (s : State) (n : Nat) : SameLines s (writeBack s n) := by
  cases hb : bufOf s n with
  | none => rw [writeBack_of_none hb]; exact .refl s
  | some b =>
    rw [writeBack_eq hb]
    refine .of_line ((memOnly_hbmPut ..).trans (memOnly_setBuf ..)) ((sameElse_hbmPut ..).trans (sameElse_setBuf ..)) fun hn => ?_
    have hok := coherent_iff.1 hn b hb
    refine line_of_copy (b := { b with dirty := 0 }) (by rw [bufOf_setBuf, if_pos rfl])
      ⟨hok.length, fun k _ hd => absurd hd (not_bitAt_zero k), fun i hi hv _ => ?_⟩ hn.length_lineBytes fun i hi => ?_
    · exact (hok.hbmLine_hbmPut _ hi hv).symm
    · rw [getElem?_lineBytes hb hok.length hi]
      dsimp only [hbmLine_setBuf]
      split
      · rfl
      · next hv => exact hok.hbmLine_hbmPut_invalid _ hi hv

theorem bufOf_evict (s : State) (n x : Nat) : bufOf (evict s n) x = if n = x then none else bufOf s x := mfind_mdel ..

theorem hbmLine_evict (s : State) (n x : Nat) : hbmLine (evict s n) x = hbmLine (writeBack s n) x := rfl

theorem memOnly_writeBack (s : State) (n : Nat) : MemOnly s (writeBack s n) := (sameLines_writeBack s n).only

theorem sameLines_evict (s : State) (n : Nat) : SameLines s (evict s n) := by
  refine .of_line (n := n) ((memOnly_writeBack s n).trans ⟨_, _, _, rfl⟩) ⟨fun x hx => ?_, fun x hx => ?_⟩ fun hn => ?_
  · rw [bufOf_evict, if_neg (Ne.symm hx)]
  · rw [hbmLine_evict]
    cases hb : bufOf s n with
    | none => rw [writeBack_of_none hb]
    | some b => rw [writeBack_eq hb, hbmLine_setBuf, hbmLine_hbmPut_ne hx]
  · have hnone : bufOf (evict s n) n = none := by rw [bufOf_evict, if_pos rfl]
    refine ⟨?_, fun b hb => absurd (hnone.symm.trans hb) (by simp)⟩
    rw [lineBytes_of_none hnone, hbmLine_evict]
    cases hb : bufOf s n with
    | none => rw [writeBack_of_none hb, lineBytes_of_none hb]
    | some b =>
      have hok := coherent_iff.1 hn b hb
      refine bytes_ext (length_hbmLine ..) hn.length_lineBytes fun i hi => ?_
      rw [writeBack_eq hb, hbmLine_setBuf, getElem?_lineBytes hb hok.length hi]
      split
      · next hv => exact hok.hbmLine_hbmPut _ hi hv
      · next hv => exact hok.hbmLine_hbmPut_invalid _ hi hv

/-! ## Allocating and filling (R240) -/

/-- A line newly present: no sector is valid. -/
def BufLine.fresh (hint : Nat) (now : DWord) : BufLine := ⟨0, 0, 0, List.replicate 256 0, hint = 2, hint = 1, now⟩

theorem allocate_of_some (hb : bufOf s n = some b) (hint : Nat) : allocate s n hint =
    setBuf s n { b with used := s.now, keep := b.keep || hint = 2, stream := b.stream && hint = 1 } := by
  unfold allocate
  rw [hb]

/-- The state in which the line that a new line of a set displaces has gone. -/
def roomMade (s : State) (k : Nat) : State :=
  match victimOf s k with
  | some v => evict s v
  | none => s

theorem allocate_of_none (hb : bufOf s n = none) (hint : Nat) : allocate s n hint =
    setBuf (roomMade s (setOf n)) n (.fresh hint (roomMade s (setOf n)).now) := by
  unfold allocate
  rw [hb]
  rfl

theorem sameLines_roomMade (s : State) (k : Nat) : SameLines s (roomMade s k) := by
  unfold roomMade
  split
  · exact sameLines_evict ..
  · exact .refl s

theorem bufOf_roomMade (hb : bufOf s n = none) (k : Nat) : bufOf (roomMade s k) n = none := by
  unfold roomMade
  split
  · rw [bufOf_evict, hb, ite_self]
  · exact hb

theorem sameLines_fresh (hb : bufOf s n = none) (hint : Nat) (now : DWord) : SameLines s (setBuf s n (.fresh hint now)) := by
  refine sameLines_setBuf fun _ => ⟨⟨List.length_replicate, fun k _ hd => ?_, fun i _ hv => ?_⟩, fun i _ => ?_⟩
  · exact absurd hd (not_bitAt_zero k)
  · exact absurd hv (not_bitAt_zero _)
  · rw [lineBytes_of_none hb]
    exact if_neg (not_bitAt_zero _)

theorem sameLines_allocate (s : State) (n hint : Nat) : SameLines s (allocate s n hint) := by
  cases hb : bufOf s n with
  | some b => rw [allocate_of_some hb]; exact sameLines_remark hb rfl rfl rfl
  | none =>
    rw [allocate_of_none hb]
    exact (sameLines_roomMade ..).trans (sameLines_fresh (bufOf_roomMade hb _) ..)

theorem bufOf_allocate (s : State) (n hint : Nat) : ∃ b, bufOf (allocate s n hint) n = some b := by
  cases hb : bufOf s n with
  | some b => exact ⟨_, by rw [allocate_of_some hb, bufOf_setBuf, if_pos rfl]⟩
  | none => exact ⟨_, by rw [allocate_of_none hb, bufOf_setBuf, if_pos rfl]⟩

/-- A copy whose sectors of a mask have been filled from HBM. -/
def BufLine.filled (b : BufLine) (s : State) (n mask : Nat) : BufLine :=
  let need := minus mask b.valid
  { b with
    data := ((List.range 8).map (fun k => if bitAt need k then sectorOf (hbmLine s n) k else sectorOf b.data k)).flatten
    poison := Nat.lor (minus b.poison need) (Nat.land (hbmBad s n) need)
    valid := Nat.lor b.valid need }

theorem fillLine_of_some (hb : bufOf s n = some b) (mask : Nat) : fillLine s n mask = setBuf s n (b.filled s n mask) := by
  unfold fillLine
  rw [hb]
  rfl

theorem bitAt_valid_filled (b : BufLine) (s : State) (n mask k : Nat) : bitAt (b.filled s n mask).valid k = (bitAt b.valid k || bitAt mask k) := by
  change bitAt (Nat.lor _ _) k = _
  rw [bitAt_lor, bitAt_minus]
  cases bitAt b.valid k <;> simp

theorem length_filledSector (hlen : b.data.length = 256) (s : State) (n mask k : Nat) (hk : k < 8) :
    (if bitAt (minus mask b.valid) k = true then sectorOf (hbmLine s n) k else sectorOf b.data k).length = 32 := by
  split
  · exact length_sectorOf (length_hbmLine ..) hk
  · exact length_sectorOf hlen hk

theorem getElem?_data_filled (hlen : b.data.length = 256) (s : State) (n mask : Nat) {i : Nat} (hi : i < 256) :
    (b.filled s n mask).data[i]? =
      if bitAt mask (i / 32) = true ∧ bitAt b.valid (i / 32) = false then (hbmLine s n)[i]? else b.data[i]? := by
  have hplace : 32 * (i / 32) + i % 32 = i := Nat.div_add_mod ..
  have hneed : bitAt (minus mask b.valid) (i / 32) = true ↔ bitAt mask (i / 32) = true ∧ bitAt b.valid (i / 32) = false := by
    rw [bitAt_minus, Bool.and_eq_true, Bool.not_eq_true']
  refine (getElem?_flatten_sectors (length_filledSector hlen s n mask) hi).trans ?_
  simp only [hneed]
  split <;> rw [getElem?_sectorOf _ (Nat.mod_lt _ (by decide)), hplace]

theorem sameLines_fillLine (s : State) (n mask : Nat) : SameLines s (fillLine s n mask) := by
  cases hb : bufOf s n with
  | none => unfold fillLine; rw [hb]; exact .refl s
  | some b =>
    rw [fillLine_of_some hb]
    refine sameLines_setBuf fun hn => ?_
    obtain ⟨hlen, hdirty, hclean⟩ := coherent_iff.1 hn b hb
    refine ⟨⟨length_flatten_sectors (length_filledSector hlen s n mask), fun k hk hd => ?_, fun i hi hv hd => ?_⟩, fun i hi => ?_⟩
    · rw [bitAt_valid_filled, hdirty k hk hd, Bool.true_or]
    · rw [getElem?_data_filled hlen _ _ _ hi]
      split
      · rfl
      · next hold =>
        refine hclean i hi ?_ hd
        rw [bitAt_valid_filled] at hv
        cases hvalid : bitAt b.valid (i / 32) with
        | true => rfl
        | false => exact absurd ⟨by simpa [hvalid] using hv, hvalid⟩ hold
    · rw [bitAt_valid_filled, getElem?_data_filled hlen _ _ _ hi, getElem?_lineBytes hb hlen hi]
      cases bitAt b.valid (i / 32) <;> cases bitAt mask (i / 32) <;> rfl

theorem sameLines_readAllocate (s : State) (n hint : Nat) (spec : Bool) (o len : Nat) : SameLines s (readAllocate s n hint spec o len) := by
  unfold readAllocate
  split
  · exact .refl s
  · exact (sameLines_allocate ..).trans (sameLines_fillLine ..)

/-! ## Writes (R239, R240) -/

/-- From `s` to `t` memory alone changes: a line in order has data written at an offset, and other lines in order are as before. -/
structure LineWritten (s t : State) (n o : Nat) (data : List Byte) : Prop where
  only : MemOnly s t
  line : Coherent s n → lineBytes t n = patch (lineBytes s n) o data ∧ Coherent t n
  other : ∀ x, x ≠ n → Coherent s x → lineBytes t x = lineBytes s x ∧ Coherent t x

theorem LineWritten.before (h : SameLines s t) (h' : LineWritten t u n o data) : LineWritten s u n o data := by
  refine ⟨h.only.trans h'.only, fun hn => ?_, fun x hx hn => ?_⟩
  · obtain ⟨hbytes, hok⟩ := h.line n hn
    rw [← hbytes]
    exact h'.line hok
  · obtain ⟨hbytes, hok⟩ := h.line x hn
    rw [← hbytes]
    exact h'.other x hx hok

theorem LineWritten.after (h : LineWritten s t n o data) (h' : SameLines t u) : LineWritten s u n o data := by
  refine ⟨h.only.trans h'.only, fun hn => ?_, fun x hx hn => ?_⟩
  · obtain ⟨hbytes, hok⟩ := h.line hn
    rw [← hbytes]
    exact h'.line n hok
  · obtain ⟨hbytes, hok⟩ := h.other x hx hn
    rw [← hbytes]
    exact h'.line x hok

theorem LineWritten.of_line (hm : MemOnly s t) (helse : SameElse s t n)
    (hn : Coherent s n → lineBytes t n = patch (lineBytes s n) o data ∧ Coherent t n) : LineWritten s t n o data :=
  ⟨hm, hn, fun x hx h => line_congr (helse.copy x hx) (helse.hbm x hx) h⟩

/-- A write to sectors of a present line that are valid or that it covers whole. -/
theorem lineWritten_bufWrite (hb : bufOf s n = some b) (hfit : o + data.length ≤ 256)
    (hsectors : ∀ k, bitAt (touchedMask o data.length) k = true → bitAt (coveredMask o data.length) k = true ∨ bitAt b.valid k = true)
    (bad : Nat) : LineWritten s (bufWrite s n o bad data) n o data := by
  rw [bufWrite_eq hb]
  refine .of_line (memOnly_setBuf ..) (sameElse_setBuf ..) fun hn => ?_
  obtain ⟨hlen, hdirty, hclean⟩ := coherent_iff.1 hn b hb
  have hline := hn.length_lineBytes
  have hroom : o + data.length ≤ b.data.length := by rwa [hlen]
  have hvalid : ∀ k, bitAt (b.written o bad data s.now).valid k = (bitAt b.valid k || bitAt (touchedMask o data.length) k) :=
    fun k => bitAt_lor ..
  have hdirt : ∀ k, bitAt (b.written o bad data s.now).dirty k = (bitAt b.dirty k || bitAt (touchedMask o data.length) k) :=
    fun k => bitAt_lor ..
  have hdata : ∀ i, (b.written o bad data s.now).data[i]? = if o ≤ i ∧ i < o + data.length then data[i - o]? else b.data[i]? :=
    getElem?_patch hroom
  refine line_of_copy (by rw [bufOf_setBuf, if_pos rfl]) ⟨(length_patch hroom).trans hlen, fun k hk hd => ?_, fun i hi hv hd => ?_⟩
    ((length_patch (by rwa [hline])).trans hline) fun i hi => ?_
  · rw [hdirt, Bool.or_eq_true] at hd
    rw [hvalid, Bool.or_eq_true]
    exact hd.imp (hdirty k hk) id
  · rw [hdirt, Bool.or_eq_false_iff] at hd
    rw [hvalid, hd.2, Bool.or_false] at hv
    rw [hdata, if_neg fun hin => ?_]
    · exact hclean i hi hv hd.1
    · rw [bitAt_touchedMask_of_mem hi hin.1 hin.2] at hd
      exact absurd hd.2 (by decide)
  · rw [hvalid, hdata, getElem?_patch (by omega), getElem?_lineBytes hb hlen hi]
    by_cases hin : o ≤ i ∧ i < o + data.length
    · rw [if_pos hin, if_pos hin, bitAt_touchedMask_of_mem hi hin.1 hin.2, Bool.or_true, if_pos rfl]
    · rw [if_neg hin, if_neg hin]
      cases ht : bitAt (touchedMask o data.length) (i / 32) with
      | false => rw [Bool.or_false]; rfl
      | true =>
        have hv : bitAt b.valid (i / 32) = true := by
          refine (hsectors _ ht).resolve_left fun hc => hin ?_
          rw [bitAt_coveredMask] at hc
          simp only [Bool.and_eq_true, decide_eq_true_eq] at hc
          omega
        rw [hv]
        rfl

/-- A BYPASS write of a line that no slice holds (R240). -/
theorem lineWritten_bypass_absent (hb : bufOf s n = none) (hfit : o + data.length ≤ 256) (bad : Nat) :
    LineWritten s (hbmPut s n (touchedMask o data.length) bad (patch (hbmLine s n) o data)) n o data := by
  have hlen := length_hbmLine s n
  refine .of_line (memOnly_hbmPut ..) (sameElse_hbmPut ..) fun _ => ?_
  have hnone := (bufOf_hbmPut s n (touchedMask o data.length) bad (patch (hbmLine s n) o data) n).trans hb
  refine ⟨?_, fun b h => absurd (hnone.symm.trans h) (by simp)⟩
  rw [lineBytes_of_none hnone, lineBytes_of_none hb]
  have hwhole : (patch (hbmLine s n) o data).length = 256 := (length_patch (by omega)).trans hlen
  refine bytes_ext (length_hbmLine ..) hwhole fun i hi => ?_
  rw [getElem?_hbmLine_hbmPut hwhole _ _ hi]
  split
  · rfl
  · next ht =>
    rw [getElem?_patch (by omega), if_neg]
    exact fun hin => ht (bitAt_touchedMask_of_mem hi hin.1 hin.2)

/-- A BYPASS write of a line that its slice holds: HBM gets the line's bytes, and the copy is updated (R240). -/
theorem lineWritten_bypass_present {b' : BufLine} (hb : bufOf s n = some b) (hd : b'.data = patch b.data o data) (hv : b'.valid = b.valid)
    (hdirt : b'.dirty = b.dirty) (hfit : o + data.length ≤ 256) (bad : Nat) :
    LineWritten s (setBuf (hbmPut s n (touchedMask o data.length) bad (patch (lineBytes s n) o data)) n b') n o data := by
  refine .of_line ((memOnly_hbmPut ..).trans (memOnly_setBuf ..)) ((sameElse_hbmPut ..).trans (sameElse_setBuf ..)) fun hn => ?_
  obtain ⟨hlen, hdirty, hclean⟩ := coherent_iff.1 hn b hb
  have hline := hn.length_lineBytes
  have hwhole : (patch (lineBytes s n) o data).length = 256 := (length_patch (by omega)).trans hline
  refine line_of_copy (by rw [bufOf_setBuf, if_pos rfl]) ⟨?_, by rwa [hv, hdirt], fun i hi hvi hdi => ?_⟩ hwhole fun i hi => ?_
  · rw [hd, length_patch (by omega), hlen]
  · rw [hv] at hvi
    rw [hdirt] at hdi
    rw [hd, hbmLine_setBuf, getElem?_hbmLine_hbmPut hwhole _ _ hi, getElem?_patch (by omega), getElem?_patch (by omega),
      getElem?_lineBytes hb hlen hi, if_pos hvi]
    split
    · next hin => rw [if_pos (bitAt_touchedMask_of_mem hi hin.1 hin.2)]
    · rw [← hclean i hi hvi hdi, ite_self]
  · rw [hd, hv, hbmLine_setBuf, getElem?_hbmLine_hbmPut hwhole _ _ hi, getElem?_patch (by omega), getElem?_patch (by omega),
      getElem?_lineBytes hb hlen hi]
    by_cases hin : o ≤ i ∧ i < o + data.length
    · rw [if_pos hin, if_pos hin, if_pos (bitAt_touchedMask_of_mem hi hin.1 hin.2), ite_self]
    · rw [if_neg hin, if_neg hin]
      split
      · rfl
      · rw [ite_self]

/-- A write at its buffer slice replaces its bytes of the line, under every hint (R239, R240). -/
theorem lineWritten_lineWrite (s : State) (hfit : o + data.length ≤ 256) (n bad hint : Nat) :
    LineWritten s (lineWrite s n o bad hint data) n o data := by
  unfold lineWrite
  split
  · dsimp only
    cases hb : bufOf s n with
    | none => exact lineWritten_bypass_absent hb hfit _
    | some b => exact lineWritten_bypass_present (b' := { b with data := patch b.data o data, poison := _, used := s.now }) hb rfl rfl rfl hfit _
  · obtain ⟨b, hb⟩ := bufOf_allocate s n hint
    have hready := (sameLines_allocate s n hint).trans (sameLines_fillLine (allocate s n hint) n (writeNeed o data.length))
    have hfilled : bufOf (fillLine (allocate s n hint) n (writeNeed o data.length)) n =
        some (b.filled (allocate s n hint) n (writeNeed o data.length)) := by
      rw [fillLine_of_some hb, bufOf_setBuf, if_pos rfl]
    have hwritten := (lineWritten_bufWrite hfilled hfit (fun k hk => ?_) bad).before hready
    · dsimp only
      split
      · exact hwritten.after (sameLines_writeBack ..)
      · exact hwritten
    · rw [bitAt_valid_filled, Bool.or_eq_true]
      exact (covered_or_needed hk).imp id .inr

end

end Sys2Proof.Machine
end

section
/-! O26: reads and writes of a line, at its buffer slice or after HBM (R239 to R241). -/

namespace Sys2Proof.Machine

section
variable {s t : State} {id : Nat} {r : MemReq}

/-! ## Reads -/

theorem bufOf_touchLine (s : State) (n x : Nat) :
    bufOf (touchLine s n) x = (bufOf s x).map (fun b => { b with used := if n = x then s.now else b.used }) := by
  unfold touchLine
  split
  · next hb =>
    cases hx : bufOf s x with
    | none => rfl
    | some b => rw [Option.map_some, if_neg fun h => by simp [h, hx] at hb]
  · next b hb =>
    rw [bufOf_setBuf]
    by_cases h : n = x
    · subst h; simp [hb]
    · simp [h]

theorem hbm_touchLine (s : State) (n : Nat) : (touchLine s n).hbm = s.hbm ∧ (touchLine s n).hbmPoison = s.hbmPoison := by
  unfold touchLine
  split <;> exact ⟨rfl, rfl⟩

/-- A mark of use changes no byte of any line, and no poison. -/
theorem line_touchLine (s : State) (n x : Nat) : lineBytes (touchLine s n) x = lineBytes s x ∧ lineBad (touchLine s n) x = lineBad s x := by
  obtain ⟨hhbm, hpoison⟩ := hbm_touchLine s n
  unfold lineBytes lineBad hbmLine hbmBad
  rw [bufOf_touchLine, hhbm, hpoison]
  cases bufOf s x <;> exact ⟨rfl, rfl⟩

/-- A read of this chip leaves its bytes and their poison in its request. -/
theorem endRead_read (hown : OwnReq r) (hop : r.op = .read) (data : List Byte) (bad : Nat) :
    endRead s id r data bad = setReq s id { r with stage := .done, data := data, poison := bad } := by
  unfold endRead
  simp only [hop, if_true]
  split
  · next m hm => exact absurd hm (hown m)
  · rfl

/-- The request `r` with what a read of its place finds. -/
def readRequest (s : State) (r : MemReq) : MemReq :=
  { r with stage := .done, data := foundBytes s r r.len, poison := foundBad s r r.len }

theorem performRead_eq (hown : OwnReq r) (hop : r.op = .read) (hroute : RouteOk s r (reqLine s r).1) :
    performRead s id r = setReq (countR s r_MEM_RD_BYTES (sliceOf (256 * (reqLine s r).1)) r.len) id (readRequest s r) := by
  unfold performRead
  simp [hroute.1, hroute.2, endRead_read hown hop, readRequest, foundBytes, foundBad]

theorem mfind_performRead (hown : OwnReq r) (hop : r.op = .read) (hroute : RouteOk s r (reqLine s r).1) :
    mfind (performRead s id r).reqs id = some (readRequest s r) := by
  rw [performRead_eq hown hop hroute, mfind_setReq_self]

theorem lineBytes_performRead (hown : OwnReq r) (hop : r.op = .read) (hroute : RouteOk s r (reqLine s r).1) (x : Nat) :
    lineBytes (performRead s id r) x = lineBytes s x := by
  rw [performRead_eq hown hop hroute]
  exact lineBytes_congr rfl rfl x

theorem MemOnly.routeOk (h : MemOnly s t) (hroute : RouteOk s r (Machine.reqLine s r).1) : RouteOk t r (Machine.reqLine t r).1 := by
  unfold RouteOk
  rw [h.reqLine, h.failedOn, h.failedOn, h.originOf]
  exact hroute

/-! ## Writes -/

/-- A write that is over has left, and memory is as it was when it was performed. -/
theorem endWrite_kept (h : NoHeld s) :
    mfind (endWrite s id r).reqs id = none ∧ ∀ n, lineBytes (endWrite s id r) n = lineBytes s n := by
  obtain ⟨-, hbufs, hhbm, hnone⟩ := reqOver_kept (id := id) (r := r) h
  have hframe := ownerWritten_frame (reqOver s id r) id r
  rw [endWrite_eq]
  exact ⟨by rw [hframe.reqs (by decide), hnone],
    lineBytes_congr ((hframe.bufs (by decide)).trans hbufs) ((hframe.hbm (by decide)).trans hhbm)⟩

theorem performWrite_eq (hroute : RouteOk s r (reqLine s r).1) : performWrite s id r =
    endWrite (countR (lineWrite s (reqLine s r).1 (reqLine s r).2 r.poison r.hint r.data) r_MEM_WR_BYTES
      (sliceOf (256 * (reqLine s r).1)) r.data.length) id r := by
  unfold performWrite
  simp [hroute.1]

/-- A write performed at its slice is over, and every agent sees its bytes. -/
theorem written_of_performWrite {c : Instr} (hexec : exec c s = .next (performWrite s id r)) (hheld : NoHeld s)
    (hroute : RouteOk s r (reqLine s r).1) (hcoherent : Coherent s (reqLine s r).1)
    (hfit : (reqLine s r).2 + r.data.length ≤ 256) : Written c s id (reqLine s r).1 (reqLine s r).2 r.data := by
  have hwritten := lineWritten_lineWrite s hfit (reqLine s r).1 r.poison r.hint
  rw [performWrite_eq hroute] at hexec
  obtain ⟨hgone, hkept⟩ := endWrite_kept (id := id) (r := r)
    (s := countR (lineWrite s (reqLine s r).1 (reqLine s r).2 r.poison r.hint r.data) r_MEM_WR_BYTES
      (sliceOf (256 * (reqLine s r).1)) r.data.length) fun kv hkv => hheld kv (hwritten.only.reqs ▸ hkv)
  exact ⟨_, hexec, hgone, (hkept _).trans (hwritten.line hcoherent).1, fun x hx hall => (hkept x).trans (hwritten.other x hx (hall x)).1⟩

/-! ## The commands -/

theorem bufferRequest_read (hslice : atSlice s id .sent = some r) (hop : r.op = .read)
    (hhit : bufHit s (reqLine s r).1 (reqLine s r).2 r.len false = true) :
    exec (.bufferRequest id []) s = .next (performRead (touchLine s (reqLine s r).1) id r) := by
  change execBufferRequest id [] s = _
  unfold execBufferRequest
  simp [hslice, isRead, hop, hhit, sramFind]

theorem bufferRequest_miss (hslice : atSlice s id .sent = some r) (hop : r.op = .read)
    (hhit : bufHit s (reqLine s r).1 (reqLine s r).2 r.len false = false) :
    exec (.bufferRequest id []) s = .next (setReq s id { r with stage := .hbm }) := by
  change execBufferRequest id [] s = _
  unfold execBufferRequest
  simp [hslice, isRead, hop, hhit, sramFind]

theorem bufferRequest_write (hslice : atSlice s id .sent = some r) (hop : r.op = .write)
    (hhit : r.hint = 3 ∨ bufHit s (reqLine s r).1 (reqLine s r).2 r.len true = true) :
    exec (.bufferRequest id []) s = .next (performWrite s id r) := by
  change execBufferRequest id [] s = _
  unfold execBufferRequest
  simp [hslice, isRead, isWrite, hop, hhit, sramFind]

theorem hbmAccessComplete_read (hslice : atSlice s id .hbm = some r) (hop : r.op = .read) :
    exec (.hbmAccessComplete id []) s =
      .next (performRead (readAllocate s (reqLine s r).1 r.hint r.spec (reqLine s r).2 r.len) id r) := by
  change execHbmAccessComplete id [] s = _
  unfold execHbmAccessComplete
  simp [hslice, isRead, hop, hbmFind]

theorem hbmAccessComplete_write (hslice : atSlice s id .hbm = some r) (hop : r.op = .write) :
    exec (.hbmAccessComplete id []) s = .next (performWrite s id r) := by
  change execHbmAccessComplete id [] s = _
  unfold execHbmAccessComplete
  simp [hslice, isRead, isWrite, hop, hbmFind]

end

/-- Settles O26: a read finds the bytes that every agent sees, which neither marks of use nor allocation change; a write replaces
its own. -/
theorem memoryRequests : Obligations.MemoryRequests := by
  intro id s r n o hcoherent hroute hown hheld got
  refine ⟨fun hslice hop hhit => ?_, fun hslice hop hmiss => ?_, fun hslice hop hfit _ hhit => ?_, fun hslice hop => ?_,
    fun hslice hop hfit => ?_⟩
  · have hmem := (sameLines_touchLine s n).only
    have hroute' := hmem.routeOk hroute
    obtain ⟨hbytes, hbad⟩ := line_touchLine s n n
    refine ⟨_, bufferRequest_read hslice hop hhit, ?_, fun x => (lineBytes_performRead hown hop hroute' x).trans (line_touchLine s n x).1⟩
    rw [mfind_performRead hown hop hroute']
    simp only [readRequest, foundBytes, foundBad, hmem.reqLine]
    rw [hbytes, hbad]
    rfl
  · exact ⟨_, bufferRequest_miss hslice hop hmiss, mfind_setReq_self _, rfl⟩
  · exact written_of_performWrite (bufferRequest_write hslice hop hhit) hheld hroute hcoherent hfit
  · have hsame := sameLines_readAllocate s n r.hint r.spec o r.len
    have hroute' := hsame.only.routeOk hroute
    have hline := (hsame.line n hcoherent).1
    refine ⟨_, hbmAccessComplete_read hslice hop, ?_, (lineBytes_performRead hown hop hroute' n).trans hline⟩
    rw [mfind_performRead hown hop hroute']
    simp only [readRequest, foundBytes, hsame.only.reqLine, Option.map_some]
    rw [hline]
  · exact written_of_performWrite (hbmAccessComplete_write hslice hop) hheld hroute hcoherent hfit

end Sys2Proof.Machine
end

section
/-! O28: scrubbing, bridge resends and the buffer commands (R230, R249, R250, R258). -/

namespace Sys2Proof.Machine

/-! ## SCRUB_LINE -/

section
variable {s : State} {m k n i : Nat}

/-- The scrubber has gone on past line `k` of a slice. -/
def scrubAdvanced (s : State) (m k : Nat) : State :=
  let t := { s with scrubPos := mset 0 s.scrubPos m ((k + 1) % (sliceBytes / 256)) }
  setF t f_MEM_STATUS_SCRUB_ACTIVE 0 (b2n (!t.scrubPos.isEmpty))

theorem mget_scrubAdvanced (s : State) (m k : Nat) : mget 0 (scrubAdvanced s m k).scrubPos m = (k + 1) % (sliceBytes / 256) :=
  (mget_mset ..).trans (if_pos rfl)

theorem scrubLine_clean (hen : flagF s f_MEM_CFG_SCRUB_EN = true) (hpresent : slicePresent s m = true) :
    exec (.scrubLine m []) s = .next (scrubAdvanced s m (mget 0 s.scrubPos m)) := by
  change execScrubLine m [] s = _
  unfold execScrubLine
  simp only [hen, hpresent, Bool.not_true, Bool.or_self, Bool.false_eq_true, if_false]
  rfl

/-- An uncorrectable sector of HBM is poisoned and logged (R249). -/
theorem hbmFind_uncorrectable (wher : Nat) (hi : i < 8) :
    hbmFind s wher n 255 [⟨8 * n + i, true⟩] = logUe (setHbmBad s (8 * n + i) true) wher (8 * n + i) := by
  have hmod : (8 * n + i) % 8 = i := by omega
  simp [hbmFind, hmod, bitAt_all hi]

theorem scrubLine_uncorrectable (hen : flagF s f_MEM_CFG_SCRUB_EN = true) (hpresent : slicePresent s m = true)
    (hn : n = m * (sliceBytes / 256) + mget 0 s.scrubPos m) (hi : i < 8) (hnone : bufOf s n = none) :
    exec (.scrubLine m [⟨8 * n + i, true⟩]) s =
      .next (scrubAdvanced (logUe (setHbmBad s (8 * n + i) true) 1 (8 * n + i)) m (mget 0 s.scrubPos m)) := by
  have hheld : bitAt 0 ((8 * n + i) % 8) = false := Bool.eq_false_iff.2 (not_bitAt_zero _)
  change execScrubLine m _ s = _
  unfold execScrubLine
  dsimp only
  rw [← hn]
  simp only [hen, hpresent, Bool.not_true, Bool.or_self, Bool.false_eq_true, if_false, hnone, Option.map_none, Option.getD_none,
    List.filter_cons, hheld, List.filter_nil]
  change Host.Outcome.next (scrubAdvanced (hbmFind s 1 n 255 _) m _) = _
  rw [hbmFind_uncorrectable 1 hi]

theorem poison_scrubAdvanced (s : State) (sector wher m k : Nat) :
    mget false (scrubAdvanced (logUe (setHbmBad s sector true) wher sector) m k).hbmPoison sector = true := by
  change mget false (mset false s.hbmPoison sector true) sector = true
  rw [mget_mset, if_pos rfl]

/-- The sectors of a slice's lines are numbered from the slice on. -/
theorem slice_of_sector (hn : n = m * (sliceBytes / 256) + k) (hk : k < sliceBytes / 256) (hi : i < 8) :
    (8 * n + i) / (sliceBytes / 32) = m := by
  simp only [sliceBytes] at *
  omega

theorem ue_logged {sector : Nat} (hm : m < 256) (hsector : sector / (sliceBytes / 32) = m) :
    getR (scrubAdvanced (logUe s 1 sector) m k) r_MEM_UE m = (getR s r_MEM_UE m + 1) % 2 ^ 64
    ∧ getF (scrubAdvanced (logUe s 1 sector) m k) f_MEM_UE_LOG_SLICE = m := by
  have hkey : regKey r_MEM_UE m 0 = 0x802800 + m * 8 := by simp [regKey, r_MEM_UE]
  unfold scrubAdvanced logUe
  dsimp only
  rw [hsector]
  refine ⟨?_, ?_⟩
  · rw [getR_setF_key _ _ _ _ _ _ _ _ (by rw [hkey]; change 0x800004 ≠ _; omega)]
    refine (getR_setR ..).trans ?_
    rw [if_neg (by rw [hkey]; change ¬ 0x800010 = _; omega), getR_countR_same]
  · rw [getF_setF_key _ _ _ _ _ _ _ _ (by decide)]
    refine (congrArg (bitsOf · 0 8) (getR_setR_same ..)).trans ?_
    dsimp only [bitsOf]
    omega

end

/-! ## BRIDGE_RESEND -/

section
variable {s : State} {b k : Nat}

/-- An event that is posted changes no register but the count of lost events. -/
theorem getF_fabricFault {f : RF} {j : Nat} (h : regKey r_EVT_EQ_LOST 0 0 ≠ regKey f.reg j 0)
    (s : State) (type info master inst epoch addr deadline : Nat) :
    getF (fabricFault s type info master inst epoch addr deadline) f j = getF s f j := by
  unfold fabricFault postEvent
  dsimp only
  split
  · split
    · exact getF_countR_key _ _ _ _ _ _ _ _ h
    · rfl
  · rfl

/-- Bridge `b`'s link `k` is marked FAILED. -/
def bridgeMarked (s : State) (b k : Nat) : State :=
  setF s f_MEM_BRIDGE_STAT_FAILED b (setBits (getF s f_MEM_BRIDGE_STAT_FAILED b) k 1 1)

/-- The failure of a link marks it, and what it posts beside that leaves the bridges' states. -/
theorem getF_bridgeFail (hb : b < 4) {f : RF} (hf : f.reg = r_MEM_BRIDGE_STAT) :
    getF (bridgeFail s b k) f b = getF (bridgeMarked s b k) f b := by
  have hkey : regKey f.reg b 0 = 0x800040 + b * 4 := by rw [hf]; simp [regKey, r_MEM_BRIDGE_STAT]
  have hlost : regKey r_EVT_EQ_LOST 0 0 ≠ regKey f.reg b 0 := by
    rw [hkey]; change 0x1000038 ≠ _; omega
  have hover : regKey f_QOS_STATUS_OVERCOMMIT.reg 0 0 ≠ regKey f.reg b 0 := by
    rw [hkey]; change 0x500008 ≠ _; omega
  unfold bridgeFail
  dsimp only
  split
  · rw [getF_fabricFault hlost, getF_setF_key _ _ _ _ _ _ _ _ hover, getF_fabricFault hlost]
    rfl
  · rw [getF_fabricFault hlost]
    rfl

theorem bridgeRun_bridgeFail (s : State) (b k : Nat) : (bridgeFail s b k).bridgeRun = s.bridgeRun :=
  (bridgeFail_frame s b k).bridgeRun (by decide)

/-- The resends in a row of a link's flit, with this one. -/
def resendRun (s : State) (b k : Nat) (again : Bool) : Nat := (if again then mget 0 s.bridgeRun (8 * b + k) else 0) + 1

/-- A resend has been counted, by bridge and in a row. -/
def resendCounted (s : State) (b k : Nat) (again : Bool) : State :=
  { satF s f_MEM_BRIDGE_STAT_RETRIES b 1 with bridgeRun := mset 0 s.bridgeRun (8 * b + k) (resendRun s b k again) }

theorem bridgeResend_exec (hb : b < 4) (hk : k < 8) (hup : bitAt (getF s f_MEM_BRIDGE_STAT_FAILED b) k = false) (again : Bool) :
    exec (.bridgeResend b k again) s = .next (if resendRun s b k again < 16 then resendCounted s b k again
      else bridgeFail (resendCounted s b k again) b k) := by
  change execBridgeResend b k again s = _
  unfold execBridgeResend
  rw [if_neg (by simp [hup]; omega)]
  rfl

theorem satAdd_lt (w a n : Nat) : satAdd w a n < 2 ^ w := by
  have := Nat.two_pow_pos w
  unfold satAdd
  omega

theorem retries_resendCounted (s : State) (b k : Nat) (again : Bool) : getF (resendCounted s b k again) f_MEM_BRIDGE_STAT_RETRIES b =
    satAdd f_MEM_BRIDGE_STAT_RETRIES.width (getF s f_MEM_BRIDGE_STAT_RETRIES b) 1 :=
  (getF_setF _ _ _ _ _ (by decide)).trans (Nat.mod_eq_of_lt (satAdd_lt ..))

theorem failed_resendCounted (s : State) (b k : Nat) (again : Bool) :
    getF (resendCounted s b k again) f_MEM_BRIDGE_STAT_FAILED b = getF s f_MEM_BRIDGE_STAT_FAILED b :=
  getF_setF_off _ _ _ _ _ _ rfl (by decide) (by decide)

theorem retries_bridgeMarked (s : State) (b k : Nat) :
    getF (bridgeMarked s b k) f_MEM_BRIDGE_STAT_RETRIES b = getF s f_MEM_BRIDGE_STAT_RETRIES b :=
  getF_setF_off _ _ _ _ _ _ rfl (by decide) (by decide)

theorem failed_bridgeMarked (hk : k < 8) : bitAt (getF (bridgeMarked s b k) f_MEM_BRIDGE_STAT_FAILED b) k = true := by
  have hbit : bitsOf (getF (bridgeMarked s b k) f_MEM_BRIDGE_STAT_FAILED b) k 1 = 1 := by
    unfold bridgeMarked
    rw [getF_setF _ _ _ _ _ (by decide), bitsOf_mod (show k + 1 ≤ f_MEM_BRIDGE_STAT_FAILED.width from hk), bitsOf_setBits]
    rfl
  exact decide_eq_true hbit

/-- The sixteenth resend in a row fails its link, and no resend before it (R230). -/
theorem bridgeResend_gives (hb : b < 4) (hk : k < 8) (hup : bitAt (getF s f_MEM_BRIDGE_STAT_FAILED b) k = false) (again : Bool) :
    Gives (.bridgeResend b k again) s (fun s' =>
      getF s' f_MEM_BRIDGE_STAT_RETRIES b = satAdd f_MEM_BRIDGE_STAT_RETRIES.width (getF s f_MEM_BRIDGE_STAT_RETRIES b) 1
      ∧ mget 0 s'.bridgeRun (8 * b + k) = resendRun s b k again
      ∧ bitAt (getF s' f_MEM_BRIDGE_STAT_FAILED b) k = decide (16 ≤ resendRun s b k again)) := by
  have hrun : mget 0 (resendCounted s b k again).bridgeRun (8 * b + k) = resendRun s b k again := by simp [resendCounted]
  refine ⟨_, bridgeResend_exec hb hk hup again, ?_⟩
  split
  · next hlow =>
    refine ⟨retries_resendCounted .., hrun, ?_⟩
    rw [failed_resendCounted, hup, decide_eq_false (by omega)]
  · next hhigh =>
    refine ⟨?_, by rw [bridgeRun_bridgeFail, hrun], ?_⟩
    · rw [getF_bridgeFail hb rfl, retries_bridgeMarked, retries_resendCounted]
    · rw [getF_bridgeFail hb rfl, failed_bridgeMarked hk, decide_eq_true (by omega)]

end

/-! ## WB, WBINV and SLICE_CMD_DONE -/

section
variable {s : State} {m n : Nat} {b : BufLine}

theorem bufOf_writeBack (s : State) (n x : Nat) :
    bufOf (writeBack s n) x = (bufOf s x).map (fun b => { b with dirty := if n = x then 0 else b.dirty }) := by
  cases hb : bufOf s n with
  | none =>
    rw [writeBack_of_none hb]
    cases hx : bufOf s x with
    | none => rfl
    | some b => rw [Option.map_some, if_neg fun h => by simp [h, hx] at hb]
  | some b =>
    rw [writeBack_eq hb, bufOf_setBuf, bufOf_hbmPut]
    by_cases h : n = x
    · subst h; simp [hb]
    · simp [h]

theorem bufOf_foldl_writeBack (l : List Nat) (s : State) (x : Nat) :
    bufOf (l.foldl writeBack s) x = (bufOf s x).map (fun b => { b with dirty := if x ∈ l then 0 else b.dirty }) := by
  induction l generalizing s with
  | nil => simp
  | cons n l ih =>
    rw [List.foldl_cons, ih, bufOf_writeBack, Option.map_map]
    congr 1
    funext b
    by_cases hx : x ∈ l <;> simp [hx, eq_comm (a := x)]

theorem bufOf_foldl_evict (l : List Nat) (s : State) (x : Nat) : bufOf (l.foldl evict s) x = if x ∈ l then none else bufOf s x := by
  induction l generalizing s with
  | nil => simp
  | cons n l ih =>
    rw [List.foldl_cons, ih, bufOf_evict]
    by_cases hx : x ∈ l <;> simp [hx, eq_comm (a := x)]

theorem mem_linesOf (hb : bufOf s n = some b) (hm : sliceOf (256 * n) = m) : n ∈ linesOf s m :=
  List.mem_map.2 ⟨(n, b), List.mem_filter.2 ⟨mem_of_mfind hb, decide_eq_true hm⟩, rfl⟩

theorem wb_exec (hm : m < 256) (hidle : flagF s f_MEM_SLICE_STAT_WB_BUSY m = false) :
    exec (.wb m) s = .next (setF ((linesOf s m).foldl writeBack s) f_MEM_SLICE_STAT_WB_BUSY m 1) := by
  change execWb m s = _
  unfold execWb
  rw [if_neg (by simp [hidle]; omega)]

theorem wbinv_exec (hm : m < 256) (hidle : flagF s f_MEM_SLICE_STAT_WB_BUSY m = false) :
    exec (.wbinv m) s = .next (setF ((linesOf s m).foldl evict s) f_MEM_SLICE_STAT_WB_BUSY m 1) := by
  change execWbinv m s = _
  unfold execWbinv
  rw [if_neg (by simp [hidle]; omega)]

theorem sliceCmdDone_exec (hbusy : flagF s f_MEM_SLICE_STAT_WB_BUSY m = true) :
    exec (.sliceCmdDone m) s = .next (setF s f_MEM_SLICE_STAT_WB_BUSY m 0) := by
  change execSliceCmdDone m s = _
  unfold execSliceCmdDone
  rw [if_pos hbusy]

/-- WB leaves a slice's lines clean, and every line's bytes as they were (R258). -/
theorem wb_gives (hm : m < 256) (hidle : flagF s f_MEM_SLICE_STAT_WB_BUSY m = false) (hall : ∀ n, Coherent s n) :
    Gives (.wb m) s (fun s' => flagF s' f_MEM_SLICE_STAT_WB_BUSY m = true ∧ (∀ n, lineBytes s' n = lineBytes s n)
      ∧ ∀ n b, bufOf s' n = some b → sliceOf (256 * n) = m → b.dirty = 0) := by
  have hsame := SameLines.foldl sameLines_writeBack (linesOf s m) s
  refine ⟨_, wb_exec hm hidle, flagF_setF_one _ _ rfl (by decide), fun n => (hsame.line n (hall n)).1, fun n b hb hslice => ?_⟩
  obtain ⟨b0, hb0, rfl⟩ := Option.map_eq_some_iff.1 ((bufOf_foldl_writeBack (linesOf s m) s n).symm.trans hb)
  exact if_pos (mem_linesOf hb0 hslice)

/-- WBINV leaves none of a slice's lines in its buffer, and every line's bytes as they were (R258). -/
theorem wbinv_gives (hm : m < 256) (hidle : flagF s f_MEM_SLICE_STAT_WB_BUSY m = false) (hall : ∀ n, Coherent s n) :
    Gives (.wbinv m) s (fun s' => flagF s' f_MEM_SLICE_STAT_WB_BUSY m = true ∧ (∀ n, lineBytes s' n = lineBytes s n)
      ∧ ∀ n, sliceOf (256 * n) = m → bufOf s' n = none) := by
  have hsame := SameLines.foldl sameLines_evict (linesOf s m) s
  refine ⟨_, wbinv_exec hm hidle, flagF_setF_one _ _ rfl (by decide), fun n => (hsame.line n (hall n)).1, fun n hslice => ?_⟩
  refine (bufOf_foldl_evict (linesOf s m) s n).trans ?_
  cases hb : bufOf s n with
  | none => exact ite_self _
  | some b => exact if_pos (mem_linesOf hb hslice)

end

/-- Settles O28: the scrubber counts and poisons, the sixteenth resend fails its link, and writing back or dropping lines in order
changes no byte that an agent sees. -/
theorem memoryUpkeep : Obligations.MemoryUpkeep := by
  refine ⟨fun m s hen hpresent => ?_, fun b k again s hb hk hup => ?_, fun m s hm hidle hall => ?_, fun m s _ hbusy => ?_⟩
  · intro k n
    refine ⟨⟨_, scrubLine_clean hen hpresent, mget_scrubAdvanced .., rfl, rfl⟩, fun i hi hnone hk => ?_⟩
    have hm : m < 256 := by
      simp only [slicePresent, Bool.and_eq_true, decide_eq_true_eq] at hpresent
      exact hpresent.1
    obtain ⟨hcount, hlog⟩ := ue_logged (s := setHbmBad s (8 * n + i) true) (k := k) hm (slice_of_sector rfl hk hi)
    exact ⟨_, scrubLine_uncorrectable hen hpresent rfl hi hnone, poison_scrubAdvanced .., hcount, hlog⟩
  · exact bridgeResend_gives hb hk hup again
  · exact ⟨wb_gives hm hidle hall, wbinv_gives hm hidle hall⟩
  · exact ⟨_, sliceCmdDone_exec hbusy, flagF_setF_zero _ _ (by decide), rfl⟩

end Sys2Proof.Machine
end

section
/-! O29: the regulators' window and its length (R264, R266), and accesses through an aperture (R245, R251). -/

namespace Sys2Proof.Machine

/-! ## REGULATOR_WINDOW and QOS_WIN_LEN -/

/-- The window that holds the present tick has begun (R266). -/
def windowBegun (s : State) : State :=
  let w := getF s f_QOS_WIN_LEN_TICKS
  let first := s.winStart + BitVec.ofNat 64 s.winLen
  { s with
    winStart := first + BitVec.ofNat 64 ((s.now - first).toNat / w * w)
    winLen := w
    regCounts := []
    qosOld := []
    missPosted := []
    ports := s.ports.map (fun kv : Nat × Port => (kv.1, { kv.2 with lane0 := 0, lane1 := 0 })) }

theorem regulatorWindow_exec {s : State} (hover : s.winLen ≤ since s s.winStart) :
    exec .regulatorWindow s = .next (((windowBegun s).ports.map Prod.fst).foldl pump (windowBegun s)) := by
  change execRegulatorWindow s = _
  unfold execRegulatorWindow
  rw [if_neg (Nat.not_lt.2 hover)]
  rfl

theorem qosWinLenWrite_exec (v : Nat) (s : State) : exec (.qosWinLenWrite v) s =
    .next (if 64 ≤ v % 2 ^ 14 ∧ v % 2 ^ 14 ≤ 16000 then setF s f_QOS_WIN_LEN_TICKS 0 (v % 2 ^ 14) else s) := by
  change execQosWinLenWrite v s = _
  unfold execQosWinLenWrite
  have hbits : bitsOf v 0 14 = v % 2 ^ 14 := by simp [bitsOf]
  simp only [hbits, Bool.and_eq_true, decide_eq_true_eq]

theorem getF_winLen_written (v : Nat) (s : State) :
    getF (setF s f_QOS_WIN_LEN_TICKS 0 (v % 2 ^ 14)) f_QOS_WIN_LEN_TICKS = v % 2 ^ 14 :=
  (getF_setF _ _ _ _ _ (by decide)).trans (Nat.mod_mod ..)

/-! ## Apertures -/

/-- A range that ends in its first line is one piece. -/
theorem cutLines_one {a len : Nat} (hpos : 0 < len) (hfit : a % 256 + len ≤ 256) (fuel : Nat) : cutLines a len (fuel + 2) = [(a, len)] := by
  have hmin : min len (256 - a % 256) = len := by omega
  simp [cutLines, Nat.ne_of_gt hpos, hmin]

theorem gpaLocal_here {a : Nat} (c : Nat) (ha : a < hbmTop) : gpaLocal (c * 2 ^ 48 + a) = a := by
  unfold gpaLocal hbmTop at *
  omega

theorem not_hostWindow_le {a : Nat} (h : a < hbmTop) : ¬ hostWindow ≤ a := by
  unfold hbmTop at h
  unfold hostWindow
  omega

/-! ## Accesses to HBM made at once (log entry 22) -/

section
variable {s : State} {here : Nat × Nat} {g : Nat}

theorem homeRouter_low (h : ¬ hostWindow ≤ gpaLocal g) : homeRouter s g = sliceRouter (sliceOf (forwarded s (gpaLocal g))) := if_neg h

/-- A write to HBM, over bridge links none of which has failed, is performed at its slice. -/
theorem writeNow_low (h : ¬ hostWindow ≤ gpaLocal g) (hroute : failedOn s here (homeRouter s g) = none) (bad : Nat) (data : List Byte) :
    writeNow s here g bad data = countR (lineWrite s (forwarded s (gpaLocal g) / 256) (forwarded s (gpaLocal g) % 256) bad 0 data)
      r_MEM_WR_BYTES (sliceOf (forwarded s (gpaLocal g))) data.length := by
  unfold writeNow
  rw [hroute]
  exact if_neg h

/-- A read of HBM, over bridge links none of which has failed, finds the bytes that every agent sees, and allocates. -/
theorem readLine_low (h : ¬ hostWindow ≤ gpaLocal g) (hthere : failedOn s here (homeRouter s g) = none)
    (hback : failedOn s (homeRouter s g) here = none) (len : Nat) :
    readLine s here g len =
      ((((lineBytes s (forwarded s (gpaLocal g) / 256)).drop (forwarded s (gpaLocal g) % 256)).take len,
        Nat.land (lineBad s (forwarded s (gpaLocal g) / 256)) (touchedMask (forwarded s (gpaLocal g) % 256) len)),
        countR (readAllocate s (forwarded s (gpaLocal g) / 256) 0 false (forwarded s (gpaLocal g) % 256) len) r_MEM_RD_BYTES
          (sliceOf (forwarded s (gpaLocal g))) len) := by
  unfold readLine readAt
  simp only [hthere, hback, if_neg h, Option.isSome_none, Bool.or_self, Bool.false_eq_true, if_false]

end

section
variable {n o a len : Nat} {s : State} {data : List Byte}

/-- An aperture's place of this chip's HBM, and the line to which requests for it go, over bridge links none of which has failed. -/
structure ApertureHere (s : State) (n o a : Nat) : Prop where
  inService : apertureOpen s = true
  leads : apertureLine s n o = some a
  inHbm : a < hbmTop
  there : failedOn s hostRouter (sliceRouter (sliceOf (forwarded s a))) = none
  back : failedOn s (sliceRouter (sliceOf (forwarded s a))) hostRouter = none

theorem ApertureHere.low (h : ApertureHere s n o a) : ¬ hostWindow ≤ gpaLocal (chipId s * 2 ^ 48 + a) := by
  rw [gpaLocal_here _ h.inHbm]
  exact not_hostWindow_le h.inHbm

theorem ApertureHere.home (h : ApertureHere s n o a) :
    homeRouter s (chipId s * 2 ^ 48 + a) = sliceRouter (sliceOf (forwarded s a)) := by
  rw [homeRouter_low h.low, gpaLocal_here _ h.inHbm]

theorem ApertureHere.writeNow (h : ApertureHere s n o a) (bad : Nat) (data : List Byte) :
    writeNow s hostRouter (chipId s * 2 ^ 48 + a) bad data =
      countR (lineWrite s (forwarded s a / 256) (forwarded s a % 256) bad 0 data) r_MEM_WR_BYTES (sliceOf (forwarded s a)) data.length := by
  rw [writeNow_low h.low (by rw [h.home, h.there]), gpaLocal_here _ h.inHbm]

theorem ApertureHere.readLine (h : ApertureHere s n o a) (len : Nat) :
    readLine s hostRouter (chipId s * 2 ^ 48 + a) len =
      ((((lineBytes s (forwarded s a / 256)).drop (forwarded s a % 256)).take len,
        Nat.land (lineBad s (forwarded s a / 256)) (touchedMask (forwarded s a % 256) len)),
        countR (readAllocate s (forwarded s a / 256) 0 false (forwarded s a % 256) len) r_MEM_RD_BYTES (sliceOf (forwarded s a)) len) := by
  rw [readLine_low h.low (by rw [h.home, h.there]) (by rw [h.home, h.back]), gpaLocal_here _ h.inHbm]

/-- An access of `len` bytes that stays in one line and in the aperture. -/
structure ApertureFits (n o len : Nat) : Prop where
  aperture : n < 16
  positive : 0 < len
  line : o % 256 + len ≤ 256
  inside : o + len ≤ 0x40000000

/-- The lines that a request for `len` bytes touches. -/
def apertureCuts (o len : Nat) : List (Nat × Nat) := cutLines o len (len / 256 + 2)

theorem apertureCuts_one (hfit : ApertureFits n o len) : apertureCuts o len = [(o, len)] := cutLines_one hfit.positive hfit.line _

/-- Is a request for `len` bytes refused (R245)? -/
def apertureRefuses (s : State) (n o len : Nat) : Bool :=
  decide (16 ≤ n) || decide (0x40000000 < o + len) || !apertureOpen s || (apertureCuts o len).any (fun c => (apertureLine s n c.1).isNone)

theorem apertureRefuses_here (h : ApertureHere s n o a) (hfit : ApertureFits n o len) : apertureRefuses s n o len = false := by
  have hn : ¬ 16 ≤ n := Nat.not_le.2 hfit.aperture
  have hin : ¬ 0x40000000 < o + len := Nat.not_lt.2 hfit.inside
  simp only [apertureRefuses, apertureCuts_one hfit, h.inService, h.leads, hn, hin, decide_false, Bool.not_true, Bool.or_self,
    List.any_cons, List.any_nil, Option.isNone_some]

theorem apertureRefuses_nowhere (hfit : ApertureFits n o len) (h : apertureOpen s = false ∨ apertureLine s n o = none) :
    apertureRefuses s n o len = true := by
  rcases h with h | h <;> simp [apertureRefuses, apertureCuts_one hfit, h]

/-- A request that is not refused has written the part of its data that goes to one line. -/
def aperturePut (s : State) (n o : Nat) (data : List Byte) (t : State) (c : Nat × Nat) : State :=
  Machine.writeNow t hostRouter (chipId s * 2 ^ 48 + (apertureLine s n c.1).getD 0) 0 ((data.drop (c.1 - o)).take c.2)

/-- A request that is not refused has read its bytes of one line, after those before it. -/
def apertureGet (s : State) (n : Nat) (acc : (List Byte × Bool) × State) (c : Nat × Nat) : (List Byte × Bool) × State :=
  let d := Machine.readLine acc.2 hostRouter (chipId s * 2 ^ 48 + (apertureLine s n c.1).getD 0) c.2
  ((acc.1.1 ++ d.1.1, acc.1.2 || d.1.2 ≠ 0), d.2)

theorem aperturePut_one (h : apertureLine s n o = some a) (data : List Byte) (t : State) :
    aperturePut s n o data t (o, data.length) = Machine.writeNow t hostRouter (chipId s * 2 ^ 48 + a) 0 data := by
  unfold aperturePut
  rw [h, Nat.sub_self, List.drop_zero, List.take_length]
  rfl

theorem apertureGet_one {d : (List Byte × Nat) × State} (h : apertureLine s n o = some a)
    (hd : Machine.readLine s hostRouter (chipId s * 2 ^ 48 + a) len = d) :
    apertureGet s n (([], false), s) (o, len) = ((d.1.1, decide (d.1.2 ≠ 0)), d.2) := by
  unfold apertureGet
  rw [h, Option.getD_some, hd]
  rfl

theorem apertureRequest_write (h : ApertureHere s n o a) (hfit : ApertureFits n o data.length) :
    exec (.apertureRequest n o 0 true false data false) s =
      .next { Machine.writeNow s hostRouter (chipId s * 2 ^ 48 + a) 0 data with reply := ⟨true, false, []⟩ } := by
  have hgo : ¬ apertureRefuses s n o data.length = true := Bool.eq_false_iff.1 (apertureRefuses_here h hfit)
  have hexec : exec (.apertureRequest n o 0 true false data false) s =
      .next { (apertureCuts o data.length).foldl (aperturePut s n o data) s with reply := ⟨true, false, []⟩ } :=
    congrArg Host.Outcome.next ((if_neg hgo).trans (if_pos rfl))
  rw [hexec, apertureCuts_one hfit, List.foldl_cons, List.foldl_nil, aperturePut_one h.leads]

/-- What the read finds is a variable `d` here: left as `readLine`, the kernel would run its test of the address to compare the two
sides. -/
theorem apertureRequest_read {d : (List Byte × Nat) × State} (h : ApertureHere s n o a) (hfit : ApertureFits n o len)
    (hd : Machine.readLine s hostRouter (chipId s * 2 ^ 48 + a) len = d) :
    exec (.apertureRequest n o len false false [] false) s =
      .next { countPoison d.2 (b2n (decide (d.1.2 ≠ 0))) with reply := ⟨true, decide (d.1.2 ≠ 0), d.1.1⟩ } := by
  have hgo : ¬ apertureRefuses s n o len = true := Bool.eq_false_iff.1 (apertureRefuses_here h hfit)
  have hexec : exec (.apertureRequest n o len false false [] false) s =
      .next (let r := (apertureCuts o len).foldl (apertureGet s n) (([], false), s)
        { countPoison r.2 (b2n r.1.2) with reply := ⟨true, r.1.2, r.1.1⟩ }) :=
    congrArg Host.Outcome.next ((if_neg hgo).trans (if_neg Bool.false_ne_true))
  rw [hexec, apertureCuts_one hfit, List.foldl_cons, List.foldl_nil, apertureGet_one h.leads hd]

/-- A write to an aperture that is not in service, or that leads nowhere or to a secure address, changes no memory. -/
theorem apertureRequest_refused (h : apertureRefuses s n o data.length = true) :
    Gives (.apertureRequest n o 0 true false data false) s (fun s' => s'.reply = ⟨false, false, []⟩ ∧ s'.hbm = s.hbm ∧ s'.bufs = s.bufs) := by
  refine ⟨_, congrArg Host.Outcome.next (if_pos h), rfl, ?_, ?_⟩
  · simp only [if_true]
    split <;> rfl
  · simp only [if_true]
    split <;> rfl

end

/-- Settles O29: what a window's start sets is left by the ports that send, and an aperture's access is that of the line it leads to. -/
theorem windowsAndApertures : Obligations.WindowsAndApertures := by
  refine ⟨fun s hover => ?_, fun v s => ?_, fun n o a s data hn => ?_⟩
  · have hframe := Agree.foldl (f := pump) (fun _ _ h => pump_step (bitsIn_rfl rfl) h) (l := (windowBegun s).ports.map Prod.fst)
      (Agree.refl 0x40000000000000000000000000000000000000000000008000000000000 (windowBegun s))
    exact ⟨_, regulatorWindow_exec hover, hframe.winLen (by decide), hframe.regCounts (by decide), hframe.missPosted (by decide),
      hframe.winStart (by decide)⟩
  · refine ⟨_, qosWinLenWrite_exec v s, ?_⟩
    split
    · exact getF_winLen_written v s
    · rfl
  · intro p len here hpos hline hplace hinside
    have hfit : ApertureFits n o data.length := ⟨hn, hpos, hline, hinside⟩
    refine ⟨fun ⟨hopen, hleads, hhbm, _, hcoherent, hthere, hback⟩ => ?_, fun ⟨hopen, hleads, hhbm, _, hcoherent, hthere, hback⟩ => ?_,
      fun hrefuse => ?_⟩
    · have h : ApertureHere s n o a := ⟨hopen, hleads, hhbm, hthere, hback⟩
      refine ⟨_, apertureRequest_write h hfit, rfl, ?_⟩
      rw [h.writeNow]
      exact ((lineWritten_lineWrite s hplace (p / 256) 0 0).line hcoherent).1
    · have h : ApertureHere s n o a := ⟨hopen, hleads, hhbm, hthere, hback⟩
      refine ⟨_, apertureRequest_read h hfit (h.readLine len), rfl, ?_⟩
      · exact (lineBytes_congr ((countPoison_frame ..).bufs (by decide)) ((countPoison_frame ..).hbm (by decide)) _).trans
          ((sameLines_readAllocate s (p / 256) 0 false (p % 256) len).line _ hcoherent).1
    · exact apertureRequest_refused (apertureRefuses_nowhere hfit hrefuse)

end Sys2Proof.Machine
end

section
/-! O30: what a walk goes on with when its read returns (R284, R288, R292, R293). -/

namespace Sys2Proof.Machine

/-! ## The read that returns (R284) -/

section
variable {s : State} {wid e tid : Nat} {w : Walk} {t : Tile}

/-- What a walk's slot keeps of the space table. -/
def walkSlot (s : State) (w : Walk) : SlotInfo := mget SlotInfo.empty s.slots w.slot

/-- The state once the answer of a walk's read has been taken. -/
def readTaken (s : State) (w : Walk) : State := { s with reqs := s.reqs.filter (fun kv => !decide (kv.1 = w.req)) }

/-- The walk a level lower. -/
def Walk.below (w : Walk) (loc a : Nat) : Walk := { w with level := w.level - 1, loc := loc, table := a }

/-- The state once the walk cache has a table pointer that a walk found; a speculative walk leaves it. -/
def pointerCached (s : State) (w : Walk) (loc a : Nat) : State :=
  if w.spec then s else wcFill s ⟨w.die, w.space, w.level, w.va / levelRange w.level * levelRange w.level, loc, a⟩

theorem pointerCached_eq (s : State) (w : Walk) (loc a : Nat) :
    pointerCached s w loc a = { s with wcache := (pointerCached s w loc a).wcache } := by
  unfold pointerCached
  split <;> rfl

/-- How a walk goes on with what an entry `e` that it has read means. -/
def walkOn (s : State) (wid : Nat) (w : Walk) (e : Nat) : WalkOut → State
  | .fault reason => failWalk s wid w reason (if isLeaf e w.level then leafSize w.level e else 0)
  | .leaf x => leafWalk s wid w x
  | .table loc a => walkRead (pointerCached s w loc a) wid (w.below loc a) 4096

theorem walkReadReturn_exec (h : WalkReads s wid w e) (hheld : NoHeld s) : exec (.walkReadReturn wid false) s =
    .next (walkOn (readTaken s w) wid w e (readEntry s (walkSlot s w) w.va w.level e)) := by
  obtain ⟨hwalk, hvoid, r, data, hreq, herr, hdl, hback, rfl⟩ := h
  have hdrop : dropReq s w.req = readTaken s w := dropReq_of_noHeld hheld w.req
  have hentry : readEntry (readTaken s w) (mget SlotInfo.empty s.slots w.slot) w.va w.level (leNat data) =
      readEntry s (walkSlot s w) w.va w.level (leNat data) := rfl
  change execWalkReadReturn wid false s = _
  unfold execWalkReadReturn
  simp only [hwalk, hreq, herr, hback, readMiss_of_no_deadline hdl, hdrop, ne_eq, not_true_eq_false, decide_false,
    Bool.false_and, Bool.or_self, Bool.false_eq_true, if_false, hentry]
  rw [if_neg (by simp [hvoid])]
  cases readEntry s (walkSlot s w) w.va w.level (leNat data) with
  | fault reason => rfl
  | leaf x => rfl
  | table loc a => simp [walkOn, pointerCached, Walk.below, hvoid]

end

/-! ## A leaf (R284, R288) -/

section
variable {s : State} {wid tid : Nat} {w : Walk} {t : Tile}

theorem checkTile_of_no_faults (ht : mfind s.tiles tid = some t) (hf : t.faults = []) : checkTile s tid = s := by
  simp [checkTile, ht, hf]

/-- The TLBs once they hold the translation that a walk found for a tile. -/
def tlbsFilled (s : State) (w : Walk) (t : Tile) (x : Xlat) : State :=
  if w.spec then s else
    if t.cache < 256 then tlbFill (tlbFill s (sharedTlb w.die) w.space x) t.cache w.space x
    else tlbFill s (sharedTlb w.die) w.space x

theorem tlbsFilled_kept (w : Walk) (t : Tile) (x : Xlat) :
    (tlbsFilled s w t x).tiles = s.tiles ∧ (tlbsFilled s w t x).walks = s.walks := by
  unfold tlbsFilled
  split
  · exact ⟨rfl, rfl⟩
  · split <;> exact ⟨rfl, rfl⟩

theorem mem_tlb_tlbsFilled (hspec : w.spec = false) (hc : 256 ≤ t.cache) (x : Xlat) :
    ⟨sharedTlb w.die, w.space, x⟩ ∈ (tlbsFilled s w t x).tlb := by
  simp [tlbsFilled, hspec, Nat.not_lt.mpr hc, tlbFill]

theorem leafWalk_one {x : Xlat} (htiles : w.tiles = [tid]) (ht : mfind s.tiles tid = some t) (hf : t.faults = []) :
    leafWalk s wid w x = setTile (tlbsFilled (dropWalk s wid) w t x) tid { t with held := t.held ++ [x] } := by
  have ht' : mfind (dropWalk s wid).tiles tid = some t := ht
  have hnow : leafWalk s wid w x =
      checkTile (setTile (tlbsFilled (dropWalk s wid) w t x) tid { t with held := t.held ++ [x] }) tid := by
    simp [leafWalk, htiles, ht', tlbsFilled]
  rw [hnow]
  exact checkTile_of_no_faults (t := { t with held := t.held ++ [x] }) (by rw [setTile, mfind_mput, if_pos rfl]) hf

end

/-! ## A table pointer (R284) -/

section
variable {s : State} {wid e : Nat} {w : Walk}

theorem inRange_of_table {slot : SlotInfo} {va level loc a : Nat} (h : readEntry s slot va level e = .table loc a) :
    inRange s slot.inst loc a 4096 = true := by
  unfold readEntry at h
  dsimp only at h
  split at h
  · cases h
  · split at h
    · cases h
    · split at h
      · split at h
        · cases h
        · split at h <;> cases h
      · split at h
        · cases h
        · next hr =>
          cases h
          simpa using hr

theorem walkRead_place {size g dst hint : Nat} (hr : inRange s w.inst w.loc w.table size = true)
    (hp : resolve s w.inst (walkSlot s w).world ⟨0, 2 ^ 64, w.loc, 0, 0⟩ (w.table + 8 * tableIndex w.va w.level) = .at g dst hint) :
    ∃ q, mfind (walkRead s wid w size).walks wid = some { w with req := q } := by
  unfold walkSlot at hp
  simp only [walkRead, hr, hp, Bool.not_true, Bool.false_eq_true, if_false]
  exact ⟨_, by rw [mfind_mput, if_pos rfl]⟩

end

/-! ## A fault (R292, R293) -/

section
variable {s : State}

/-- The entries used below `m` are all among the tracker's used ones. -/
theorem le_trackUsed {m : Nat} (h : ∀ j, j < m → (track s j).used = true) : m ≤ trackUsed s := by
  have hsub : List.range m ⊆ (s.tracker.filter (fun kv => kv.2.used)).map Prod.fst := by
    intro j hj
    have hu := h j (List.mem_range.mp hj)
    unfold track mget at hu
    cases hf : mfind s.tracker j with
    | none => simp [hf, TrackEntry.empty] at hu
    | some v =>
      rw [hf, Option.getD_some] at hu
      exact List.mem_map.mpr ⟨(j, v), List.mem_filter.mpr ⟨mem_of_mfind hf, hu⟩, rfl⟩
  simpa [trackUsed] using (List.nodup_range.subperm hsub).length_le

/-- A tracker that is not full has a free entry. -/
theorem trackFree_of_room (h : trackUsed s < 4096) : ∃ k, trackFree s = some k ∧ (track s k).used = false ∧ k < 4096 := by
  have hall : trackUsed s ≤ s.tracker.length := List.length_filter_le _ _
  unfold trackFree
  cases hf : (List.range (s.tracker.length + 1)).find? (fun k => !(track s k).used) with
  | none =>
    have hle : s.tracker.length + 1 ≤ trackUsed s :=
      le_trackUsed (fun j hj => by simpa using List.find?_eq_none.mp hf j (List.mem_range.mpr hj))
    omega
  | some k =>
    obtain ⟨hfree, -, hbelow⟩ := List.find?_range_eq_some.mp hf
    have hle : k ≤ trackUsed s := le_trackUsed (fun j hj => by simpa using hbelow j hj)
    refine ⟨k, ?_, by simpa using hfree, by omega⟩
    simp only [Option.filter_some]
    rw [if_pos (by simp; omega)]

theorem missingRange_covers (va level reason leaf : Nat) :
    (missingRange va level reason leaf).1 ≤ va
    ∧ va < (missingRange va level reason leaf).1 + (missingRange va level reason leaf).2 := by
  have hpos : 0 < (missingRange va level reason leaf).2 := by
    unfold missingRange levelRange
    dsimp only
    split
    · next hl => exact Nat.pos_of_ne_zero (by simp at hl; exact hl.1)
    · positivity
  exact ⟨Nat.div_mul_le_self _ _, Nat.lt_div_mul_add hpos⟩

variable {tid : Nat} {t : Tile} {f : TileFault} {p : Nat}

/-- A tile of one page, whose one missing range covers it, stalls with the tracker entry that it takes. -/
theorem checkTile_one_fault (ht : mfind s.tiles tid = some t) (hf : t.faults = [f]) (hp : t.pages = [p]) (hst : t.stalled = false)
    (hspec : specTile t = false) (hlo : f.va ≤ p) (hhi : p < f.va + f.size) (hnew : trackFind s t.space f = none)
    (hroom : trackUsed s < 4096) : ∃ k, (track s k).used = false ∧ k < 4096 ∧ checkTile s tid =
      setTile (trackNew { s with stallAt := mput s.stallAt tid s.now } t 1 f 0 k) tid
        { t with stalled := true, wantsEntry := false, held := [], faults := [], entries := [k] } := by
  have hknown : pageKnown t p = true := by simp [pageKnown, hf, hlo, hhi]
  have horder : walkOrder [p] (mergeFaults [f]) = [f] := by simp [walkOrder, mergeFaults, addFault, hlo, hhi]
  obtain ⟨k, hfree, hunused, hk⟩ := trackFree_of_room hroom
  refine ⟨k, hunused, hk, ?_⟩
  have hfree' : trackFree { s with stallAt := mput s.stallAt tid s.now } = some k := hfree
  have hnew' : trackFind { s with stallAt := mput s.stallAt tid s.now } t.space f = none := hnew
  have hused' : trackUsed { s with stallAt := mput s.stallAt tid s.now } = trackUsed s := rfl
  have hcheck : checkTile s tid = stallTile s tid t := by simp [checkTile, ht, hf, hp, hst, hknown]
  rw [hcheck]
  simp [stallTile, hspec, hp, hf, horder, hnew', hused', trackAll, hfree', Nat.not_lt.mpr (Nat.succ_le_of_lt hroom)]

end

section
variable {s : State} {wid e tid : Nat} {w : Walk} {t : Tile}

/-- The missing range that a walk's fault gives a tile of the walk's one page. -/
def walkFault (w : Walk) (reason leaf : Nat) : TileFault :=
  let r := missingRange w.va w.level reason leaf
  ⟨w.level, reason, r.1, r.2, min (r.1 + r.2) w.va⟩

/-- A tile with the missing range that a walk's fault gives it. -/
def walkFaulted (w : Walk) (reason leaf : Nat) (t : Tile) : Tile := { t with faults := [walkFault w reason leaf] }

/-- A walk's fault stalls its one tile with a tracker entry. -/
theorem failWalk_one {reason leaf : Nat} (htiles : w.tiles = [tid]) (ht : mfind s.tiles tid = some t) (hf : t.faults = [])
    (hp : t.pages = [w.va]) (hst : t.stalled = false) (hspec : specTile t = false)
    (hnew : trackFind s t.space (walkFault w reason leaf) = none) (hroom : trackUsed s < 4096) :
    ∃ k u rcd, (track s k).used = false ∧ k < 4096 ∧ mfind (failWalk s wid w reason leaf).tiles tid = some u
      ∧ u.stalled = true ∧ u.entries = [k] ∧ (failWalk s wid w reason leaf).walks = mdel s.walks wid
      ∧ (track (failWalk s wid w reason leaf) k).used = true
      ∧ (failWalk s wid w reason leaf).fqHeld = mput s.fqHeld (faultWindow t.inst) (mget [] s.fqHeld (faultWindow t.inst) ++ [rcd])
      ∧ (failWalk s wid w reason leaf).regs = (countR s r_XLT_FAULTS 0 1).regs := by
  obtain ⟨hlo, hhi⟩ := missingRange_covers w.va w.level reason leaf
  have hfail : failWalk s wid w reason leaf = checkTile (setTile (dropWalk s wid) tid (walkFaulted w reason leaf t)) tid := by
    have ht' : mfind (dropWalk s wid).tiles tid = some t := ht
    simp [failWalk, htiles, faultTile, ht', hf, hp, hlo, hhi, walkFaulted, walkFault]
  obtain ⟨k, hunused, hk, hcheck⟩ := checkTile_one_fault (s := setTile (dropWalk s wid) tid (walkFaulted w reason leaf t))
    (tid := tid) (t := walkFaulted w reason leaf t) (f := walkFault w reason leaf) (p := w.va)
    (by rw [setTile, mfind_mput, if_pos rfl]) rfl hp hst hspec hlo hhi hnew hroom
  rw [hfail, hcheck]
  exact ⟨k, _, _, hunused, hk, by rw [setTile, mfind_mput, if_pos rfl], rfl, rfl, rfl,
    by simp [track, setTile, trackNew, countR, setR], rfl, rfl⟩

end

/-- Settles O30: `walkReadReturn_exec` says how the walk goes on with the entry, and a lemma for each of the three kinds of entry
what that leaves. -/
theorem walks : Obligations.Walks := by
  unfold Obligations.Walks
  intro wid e s w h hheld
  have hexec := walkReadReturn_exec h hheld
  refine ⟨?_, ?_, ?_⟩
  · intro x tid t hout htiles ht hf
    replace hout : readEntry s (walkSlot s w) w.va w.level e = .leaf x := hout
    rw [hout] at hexec
    have hleaf := leafWalk_one (s := readTaken s w) (wid := wid) (x := x) htiles ht hf
    obtain ⟨htl, hwl⟩ := tlbsFilled_kept (s := dropWalk (readTaken s w) wid) w t x
    refine ⟨_, hexec, ?_, ?_, ?_⟩ <;> simp only [walkOn, hleaf]
    · change mfind (tlbsFilled _ w t x).walks wid = none
      rw [hwl]
      exact mfind_mdel_same _ _
    · simp only [setTile, mfind_mput, if_true, Option.map_some]
    · exact fun hspec hc => mem_tlb_tlbsFilled hspec hc x
  · intro loc a g dst hint hout hinst hplace
    replace hout : readEntry s (walkSlot s w) w.va w.level e = .table loc a := hout
    rw [hout] at hexec
    have hrange : inRange s w.inst loc a 4096 = true := hinst ▸ inRange_of_table hout
    refine ⟨_, hexec, ?_⟩
    rw [walkOn, pointerCached_eq]
    exact walkRead_place (w := w.below loc a) hrange hplace
  · intro reason tid t hout htiles ht hf hh hp hst hspec hnew hroom
    replace hout : readEntry s (walkSlot s w) w.va w.level e = .fault reason := hout
    rw [hout] at hexec
    obtain ⟨k, u, rcd, hunused, hk, hu, hust, huent, hwalks, hused, hfq, hregs⟩ := failWalk_one (s := readTaken s w) (wid := wid)
      (reason := reason) (leaf := if isLeaf e w.level then leafSize w.level e else 0) htiles ht hf hp hst hspec hnew hroom
    refine ⟨_, hexec, ?_, ⟨k, ?_, hused, hunused, hk⟩, ?_, ?_⟩
    · rw [walkOn, hwalks]
      exact mfind_mdel_same _ _
    · rw [walkOn, hu, Option.map_some, hust, huent]
    · rw [walkOn, hfq, mget_mput, if_pos rfl]
      simp [readTaken]
    · rw [walkOn, getR_of_regs_eq hregs, getR_countR_same]
      rfl

end Sys2Proof.Machine
end

section
/-! O31: fault records are posted, and tracker entries are freed (R297 to R300). -/

namespace Sys2Proof.Machine

/-! ## Maps, memory and registers -/

/-- A list of key-ordered entries finds each of its entries. -/
theorem mfind_of_mem {α : Type} {m : SMap α} (hm : sortedKeys m = true) {kv : Nat × α} (h : kv ∈ m) :
    mfind m kv.1 = some kv.2 := by
  induction m with
  | nil => cases h
  | cons e m ih =>
    obtain ⟨k, v⟩ := e
    obtain ⟨hfrom, hm⟩ := (sortedKeys_cons k v m).mp hm
    rcases List.mem_cons.mp h with rfl | h
    · simp [mfind]
    · have hk : k + 1 ≤ kv.1 := by simpa using List.all_eq_true.mp hfrom kv h
      rw [mfind, if_neg (by omega), ih hm h]

/-- Reading back the bytes that have been written. -/
theorem memBytes_memPut_same (m : Mem) (a : Nat) (bs : List Byte) : memBytes (memPut m a bs) a bs.length = bs := by
  refine List.ext_getElem? (fun i => ?_)
  by_cases hi : i < bs.length
  · rw [getElem?_memBytes _ _ hi, mem8_memPut, if_pos (by omega), Nat.add_sub_cancel_left, List.getD_eq_getElem?_getD,
      List.getElem?_eq_getElem hi, Option.getD_some]
  · rw [List.getElem?_eq_none (by rw [length_memBytes]; omega), List.getElem?_eq_none (by omega)]

/-- A change that names no register leaves each as it was. -/
theorem Agree.getR_same {M : Nat} {s t : State} (h : Agree M s t) (h0 : M.testBit 0 = false) (hM : M < 2 ^ 88) (r : Reg) (k win : Nat) :
    getR t r k win = getR s r k win := by
  have hnone : ∀ i, M.testBit (88 + i) = false := fun i =>
    Nat.testBit_lt_two_pow (Nat.lt_of_lt_of_le hM (Nat.pow_le_pow_right (by decide) (Nat.le_add_right _ _)))
  unfold getR
  rw [h.regs h0 _ (fun r' _ _ _ hbit => absurd hbit (by rw [hnone]; decide))]

theorem Agree.getF_same {M : Nat} {s t : State} (h : Agree M s t) (h0 : M.testBit 0 = false) (hM : M < 2 ^ 88) (f : RF) (k win : Nat) :
    getF t f k win = getF s f k win := by
  unfold getF
  rw [h.getR_same h0 hM]

/-! ## Posting a fault record (R297) -/

section
variable {s : State} {win : Nat} {r : List Byte} {rest : List (List Byte)}

/-- The entry of a fault ring that holds a record: the record with the ring's PHASE. -/
def fqEntry (s : State) (win : Nat) (r : List Byte) : List Byte :=
  r.take 4 ++ leBytes 4 (leNat ((r.drop 4).take 4) + ringPhase (mget Ring.empty s.rings (2 * win)) * 2 ^ 31) ++ r.drop 8

theorem fqEntry_length (h : r.length = 32) : (fqEntry s win r).length = 32 := by
  simp [fqEntry, leBytes_length, h]

/-- The state once the entry stands at the tail of the ring, before the queue notifies. -/
def fqPosted (s : State) (win : Nat) (r : List Byte) (rest : List (List Byte)) : State :=
  let tail := getF s f_EVT_FQ_TAIL_INDEX 0 win
  setF { s with
    host := memPut s.host (getF s f_EVT_FQ_BASE_ADDR 0 win * 4096 + 32 * tail) (fqEntry s win r)
    fqHeld := mput s.fqHeld win rest
    rings := mput s.rings (2 * win) (ringNext (mget Ring.empty s.rings (2 * win)) tail (fqSize s win)) }
    f_EVT_FQ_TAIL_INDEX 0 ((tail + 1) % fqSize s win) win

theorem faultRecordPost_exec (h : mget [] s.fqHeld win = r :: rest) (hroom : fqRoom s win = true) :
    exec (.faultRecordPost win) s = .next (notifyQueue (fqPosted s win r rest) win 0) := by
  change execFaultRecordPost win s = _
  simp only [execFaultRecordPost, h, hroom, Bool.not_true, Bool.false_eq_true, if_false]
  rfl

end

/-! ## Entries that are freed (R298 to R300) -/

section
variable {s : State} {k tid : Nat}

theorem freeEntry_freed (s : State) (k : Nat) : Freed s (freeEntry s k) k := by
  simp [Freed, freeEntry, track]

theorem Freed.of_tracker_eq {s s' s'' : State} (h : Freed s s' k) (heq : s''.tracker = s'.tracker) : Freed s s'' k := by
  unfold Freed track at *
  rw [heq]
  exact h

theorem retryTiles_of_none_waits (h : ∀ kv ∈ s.tiles, kv.2.wantsEntry = false) : retryTiles s = s := by
  have hnone : s.tiles.filter (fun kv => kv.2.wantsEntry) = [] := List.filter_eq_nil_iff.mpr (fun kv hkv => by simp [h kv hkv])
  simp [retryTiles, hnone]

/-! ### Replay -/

/-- A tile of device work. -/
def Tile.IsDevice (t : Tile) : Prop := ∃ m q c, t.owner = .device m q c

/-- What is left of a tile of device work once an entry is released. -/
def Tile.released (k : Nat) (t : Tile) : Option Tile :=
  if (t.entries.filter (fun e => e ≠ k)).isEmpty then none else some { t with entries := t.entries.filter (fun e => e ≠ k) }

/-- Takes entry `k` off a tile, which becomes ready when it was its last. -/
def releaseTile (k : Nat) (s : State) (kv : Nat × Tile) : State :=
  match mfind s.tiles kv.1 with
  | none => s
  | some t =>
    let left := t.entries.filter (fun e => e ≠ k)
    let s := setTile s kv.1 { t with entries := left }
    if left.isEmpty then readyTile s kv.1 else s

/-- The tiles that hold an entry. -/
def holders (s : State) (k : Nat) : List (Nat × Tile) := s.tiles.filter (fun kv => kv.2.entries.contains k)

theorem releaseEntry_eq (s : State) (k : Nat) :
    releaseEntry s k = retryTiles ((holders s k).foldl (releaseTile k) (freeEntry s k)) := rfl

theorem Tile.released_owner {k : Nat} {t u : Tile} (h : t.released k = some u) : u.owner = t.owner ∧ u.wantsEntry = t.wantsEntry := by
  unfold Tile.released at h
  split at h
  · cases h
  · cases h
    exact ⟨rfl, rfl⟩

theorem Tile.released_bind_released (k : Nat) (t : Tile) : (t.released k).bind (Tile.released k) = t.released k := by
  unfold Tile.released
  split
  · rfl
  · next h => simpa using h

theorem readyTile_device {t : Tile} (ht : mfind s.tiles tid = some t) (hd : t.IsDevice) : readyTile s tid = dropTile s tid := by
  obtain ⟨m, q, c, hown⟩ := hd
  simp [readyTile, ht, hown]

/-- Releasing an entry of a tile of device work: the tracker stays, and so does every other tile. -/
theorem releaseTile_spec {kv : Nat × Tile} (hd : ∀ t, mfind s.tiles kv.1 = some t → t.IsDevice) :
    (releaseTile k s kv).tracker = s.tracker
    ∧ (sortedKeys s.tiles = true → sortedKeys (releaseTile k s kv).tiles = true)
    ∧ ∀ tid, mfind (releaseTile k s kv).tiles tid =
      if tid = kv.1 then (mfind s.tiles tid).bind (Tile.released k) else mfind s.tiles tid := by
  unfold releaseTile
  cases ht : mfind s.tiles kv.1 with
  | none =>
    refine ⟨rfl, id, fun tid => ?_⟩
    by_cases h : tid = kv.1
    · rw [h, if_pos rfl, ht]
      rfl
    · exact (if_neg h).symm
  | some t =>
    have hput : mfind (setTile s kv.1 { t with entries := t.entries.filter (fun e => e ≠ k) }).tiles kv.1 =
        some { t with entries := t.entries.filter (fun e => e ≠ k) } := by rw [setTile, mfind_mput, if_pos rfl]
    dsimp only
    split
    · next hleft =>
      rw [readyTile_device hput (hd t ht)]
      refine ⟨(dropTile_frame ..).tracker (by decide), fun hs => ?_, fun tid => ?_⟩
      · rw [dropTile_tiles]
        exact sortedKeys_mdel _ (sortedKeys_mput _ _ hs)
      · rw [dropTile_tiles, mfind_mdel, setTile, mfind_mput]
        by_cases h : kv.1 = tid
        · subst h
          simp only [if_true, ht, Option.bind_some, Tile.released, hleft]
        · simp [h, Ne.symm h]
    · next hleft =>
      refine ⟨rfl, fun hs => sortedKeys_mput _ _ hs, fun tid => ?_⟩
      rw [setTile, mfind_mput]
      by_cases h : kv.1 = tid
      · subst h
        simp only [if_true, ht, Option.bind_some, Tile.released, hleft, Bool.false_eq_true, if_false]
      · simp [h, Ne.symm h]

/-- Releasing an entry of tiles of device work. -/
theorem releaseTiles_spec (l : List (Nat × Tile)) (hd : ∀ kv ∈ l, ∀ t, mfind s.tiles kv.1 = some t → t.IsDevice) :
    (l.foldl (releaseTile k) s).tracker = s.tracker
    ∧ (sortedKeys s.tiles = true → sortedKeys (l.foldl (releaseTile k) s).tiles = true)
    ∧ ∀ tid, mfind (l.foldl (releaseTile k) s).tiles tid =
      if tid ∈ l.map Prod.fst then (mfind s.tiles tid).bind (Tile.released k) else mfind s.tiles tid := by
  induction l generalizing s with
  | nil => exact ⟨rfl, id, fun tid => by simp⟩
  | cons kv l ih =>
    obtain ⟨htr, hso, hti⟩ := releaseTile_spec (k := k) (hd kv List.mem_cons_self)
    have hd' : ∀ x ∈ l, ∀ t, mfind (releaseTile k s kv).tiles x.1 = some t → t.IsDevice := by
      intro x hx t ht
      rw [hti] at ht
      split at ht
      · obtain ⟨u, hu, hr⟩ := Option.bind_eq_some_iff.mp ht
        obtain ⟨m, q, c, hown⟩ := hd x (List.mem_cons_of_mem _ hx) u hu
        exact ⟨m, q, c, (Tile.released_owner hr).1.trans hown⟩
      · exact hd x (List.mem_cons_of_mem _ hx) t ht
    obtain ⟨htr', hso', hti'⟩ := ih hd'
    refine ⟨htr'.trans htr, hso' ∘ hso, fun tid => ?_⟩
    rw [List.foldl_cons, hti', hti]
    by_cases h : tid = kv.1
    · subst h
      by_cases hm : kv.1 ∈ l.map Prod.fst
      · simp only [hm, if_true, List.map_cons, List.mem_cons, true_or]
        cases mfind s.tiles kv.1 with
        | none => rfl
        | some t => exact Tile.released_bind_released k t
      · simp [hm]
    · simp only [h, if_false, List.map_cons, List.mem_cons, false_or]

/-- Replaying an entry that only device work waits for. -/
theorem releaseEntry_devices (hw : NoneWaits s) (hd : ∀ kv ∈ s.tiles, kv.2.entries.contains k = true → kv.2.IsDevice) :
    Freed s (releaseEntry s k) k
    ∧ ∀ tid t, mfind s.tiles tid = some t → t.entries = [k] → mfind (releaseEntry s k).tiles tid = none := by
  obtain ⟨hsorted, hnone⟩ := hw
  have hl : ∀ kv ∈ holders s k, ∀ t, mfind (freeEntry s k).tiles kv.1 = some t → t.IsDevice := by
    intro kv hkv t ht
    obtain ⟨hmem, hk⟩ := List.mem_filter.mp hkv
    have heq : some kv.2 = some t := (mfind_of_mem hsorted hmem).symm.trans ht
    cases heq
    exact hd kv hmem hk
  obtain ⟨htr, hso, hti⟩ := releaseTiles_spec (s := freeEntry s k) (k := k) (holders s k) hl
  have hstill : ∀ kv ∈ ((holders s k).foldl (releaseTile k) (freeEntry s k)).tiles, kv.2.wantsEntry = false := by
    intro kv hkv
    have hfind := mfind_of_mem (hso hsorted) hkv
    rw [hti] at hfind
    split at hfind
    · obtain ⟨u, hu, hr⟩ := Option.bind_eq_some_iff.mp hfind
      exact (Tile.released_owner hr).2.trans (hnone _ (mem_of_mfind hu))
    · exact hnone _ (mem_of_mfind hfind)
  rw [releaseEntry_eq, retryTiles_of_none_waits hstill]
  refine ⟨(freeEntry_freed s k).of_tracker_eq htr, fun tid t ht hk => ?_⟩
  have hin : tid ∈ (holders s k).map Prod.fst :=
    List.mem_map.mpr ⟨(tid, t), List.mem_filter.mpr ⟨mem_of_mfind ht, by simp [hk]⟩, rfl⟩
  rw [hti, if_pos hin]
  change (mfind s.tiles tid).bind _ = none
  simp [ht, Tile.released, hk]

/-! ### Abort -/

/-- Aborting an entry that no tile holds frees it. -/
theorem abortEntry_unheld (hw : NoneWaits s) (h : ∀ kv ∈ s.tiles, kv.2.entries.contains k = false) :
    abortEntry s k = freeEntry s k := by
  have hnone : s.tiles.filter (fun kv => kv.2.entries.contains k) = [] :=
    List.filter_eq_nil_iff.mpr (fun kv hkv => by rw [h kv hkv]; simp)
  unfold abortEntry
  dsimp only
  rw [hnone]
  exact retryTiles_of_none_waits hw.2

/-- Aborting the entry of the one tile, of a command that acts. -/
theorem abortEntry_device {t : Tile} {m q c : Nat} {v : Cmd} (htiles : s.tiles = [(tid, t)]) (hk : t.entries = [k])
    (hown : t.owner = .device m q c) (hc : c ≠ 0) (hv : cmdOf s c = some v) (hfin : v.fin = none) (hstart : v.start.isSome = true) :
    Freed s (abortEntry s k) k ∧ mfind (abortEntry s k).tiles tid = none
    ∧ (cmdOf (abortEntry s k) c).map Cmd.fin = some (some errXltAborted) := by
  have hv' : mfind (freeEntry s k).cmds c = some v := hv
  obtain ⟨x, hx⟩ := mfind_cmds_dropTile tid hv'
  have hx' : cmdOf (dropTile (freeEntry s k) tid) c = some { v with stalled := x } := hx
  have htl : (dropTile (freeEntry s k) tid).tiles = [] := by
    rw [dropTile_tiles]
    change mdel s.tiles tid = []
    simp [htiles, mdel]
  have hnow : v.start.isNone = false := by rw [← Option.not_isSome, hstart]; rfl
  have htile : abortTile (freeEntry s k) tid t (track s k) = endCmd (dropTile (freeEntry s k) tid) c errXltAborted := by
    simp only [abortTile, hown, if_neg hc, hx', hfin, hnow, Option.isSome_none, Bool.false_eq_true, if_false]
  have hend : (endCmd (dropTile (freeEntry s k) tid) c errXltAborted).tiles = [] := by
    rw [(endCmd_frame ..).tiles (by decide), htl]
  have hone : mfind (freeEntry s k).tiles tid = some t := by
    change mfind s.tiles tid = some t
    simp [htiles, mfind]
  have habort : abortEntry s k = endCmd (dropTile (freeEntry s k) tid) c errXltAborted := by
    unfold abortEntry
    simp only [htiles, List.filter_cons, hk, List.contains_cons, BEq.rfl, Bool.true_or, if_true, List.filter_nil, List.foldl_cons,
      List.foldl_nil, hone, htile]
    exact retryTiles_of_none_waits (by rw [hend]; simp)
  rw [habort, hend]
  refine ⟨(freeEntry_freed s k).of_tracker_eq ?_, rfl, ?_⟩
  · rw [(endCmd_frame ..).tracker (by decide), (dropTile_frame ..).tracker (by decide)]
  · unfold cmdOf
    rw [mfind_endCmd hx hfin]
    rfl

end

/-! ### What the commands do -/

section
variable {s : State} {win id k : Nat}

theorem replay_answered (hopen : winOpen s win = true) (h : answered s win id = some k) :
    exec (.replay win id) s = .next (releaseEntry s k) := by
  change execReplay win id s = _
  simp [execReplay, hopen, h]

theorem abort_answered (hopen : winOpen s win = true) (h : answered s win id = some k) :
    exec (.abort win id) s = .next (abortEntry s k) := by
  change execAbort win id s = _
  simp [execAbort, hopen, h]

theorem replay_stale (hopen : winOpen s win = true) (h : answered s win id = none) :
    exec (.replay win id) s = .next (staleReplay s win) := by
  change execReplay win id s = _
  simp [execReplay, hopen, h]

theorem abort_stale (hopen : winOpen s win = true) (h : answered s win id = none) :
    exec (.abort win id) s = .next (staleReplay s win) := by
  change execAbort win id s = _
  simp [execAbort, hopen, h]

theorem staleReplay_counts (s : State) (win : Nat) : getF (staleReplay s win) f_XLT_REPLAY_STALE_COUNT 0 win =
      satAdd f_XLT_REPLAY_STALE_COUNT.width (getF s f_XLT_REPLAY_STALE_COUNT 0 win) 1
    ∧ (staleReplay s win).tracker = s.tracker := by
  refine ⟨?_, rfl⟩
  rw [staleReplay, satF, getF_setF _ _ _ _ _ (by decide), Nat.mod_eq_of_lt (satAdd_lt _ _ _)]

theorem faultTimeout_exec (hused : (track s k).used = true)
    (hdue : dueRun s (track s k).tick (getF s f_XLT_CFG_FAULT_TMO * msTicks) = true) :
    exec (.faultTimeout k) s = .next (countR (abortEntry s k) r_XLT_FAULTS_TMO 0 1) := by
  change execFaultTimeout k s = _
  simp [execFaultTimeout, hused, hdue]

end

/-- Settles O31: each command's effect is the lemma of its part above. -/
theorem translationFaults : Obligations.TranslationFaults := by
  unfold Obligations.TranslationFaults
  refine ⟨?_, ?_, ?_, ?_⟩
  · intro win s r rest _ h hlen hroom
    refine ⟨_, faultRecordPost_exec h hroom, ?_, ?_, ?_⟩
    · rw [(notifyQueue_frame ..).fqHeld (by decide)]
      exact (mget_mput ..).trans (if_pos rfl)
    · rw [(notifyQueue_frame ..).host (by decide)]
      have hback := memBytes_memPut_same s.host
        (getF s f_EVT_FQ_BASE_ADDR 0 win * 4096 + 32 * getF s f_EVT_FQ_TAIL_INDEX 0 win) (fqEntry s win r)
      rw [fqEntry_length hlen] at hback
      exact hback
    · rw [(notifyQueue_frame ..).getF_same (by decide) (by decide), fqPosted, getF_setF _ _ _ _ _ (by decide)]
  · intro win id k s hopen hans hw
    refine ⟨fun hd => ⟨_, replay_answered hopen hans, releaseEntry_devices hw hd⟩, ?_⟩
    intro tid t m q c v htiles hk hown hc hv hfin hstart
    exact ⟨_, abort_answered hopen hans, abortEntry_device htiles hk hown hc hv hfin hstart⟩
  · intro win id s hopen hans
    exact ⟨⟨_, replay_stale hopen hans, staleReplay_counts s win⟩, ⟨_, abort_stale hopen hans, staleReplay_counts s win⟩⟩
  · intro k s hused hdue hw hnone
    refine ⟨_, faultTimeout_exec hused hdue, ?_, ?_⟩
    · rw [abortEntry_unheld hw hnone]
      exact (freeEntry_freed s k).of_tracker_eq rfl
    · rw [getR_countR_same, abortEntry_unheld hw hnone]
      rfl

end Sys2Proof.Machine
end

section
/-! O32: the invalidation queue and the whole-space flush (R302 to R308). -/

namespace Sys2Proof.Machine

/-! ## Registers of a window -/

section
variable {s : State}

/-- Registers at different places of a window are different ones. -/
theorem regKey_ne_of_base {r r' : Reg} (h : r.base ≠ r'.base) (win : Nat) : regKey r 0 win ≠ regKey r' 0 win := by
  unfold regKey
  omega

theorem flagF_setF_same (s : State) {f : RF} (k v win : Nat) (h : f.lo + f.width ≤ 64) :
    flagF (setF s f k v win) f k win = decide (v % 2 ^ f.width ≠ 0) := by
  rw [flagF, getF_setF _ _ _ _ _ h]

theorem flagF_setF_key (s : State) {f f' : RF} {k k' v w w' : Nat} (h : regKey f.reg k w ≠ regKey f'.reg k' w') :
    flagF (setF s f k v w) f' k' w' = flagF s f' k' w' := by
  rw [flagF, getF_setF_key _ _ _ _ _ _ _ _ h, flagF]

end

theorem gives_of_eq {c : Instr} {s t u : State} {P : State → Prop} (hc : exec c s = .next t) (h : t = u) (hP : P u) : Gives c s P :=
  ⟨u, hc.trans (congrArg _ h), hP⟩

/-! ## Carrying an invalidation out (R304, R305) -/

section
variable {s s' t : State} {win space : Nat} {idx : Option Nat} {kind : InvKind}

theorem doomSlot_landing (s : State) (id : Nat) : doomSlot s id = { s with landing := (doomSlot s id).landing } := by
  unfold doomSlot
  split
  · rfl
  · split <;> rfl

theorem doomIf_landing (s : State) (p : LandSlot → Bool) : doomIf s p = { s with landing := (doomIf s p).landing } := by
  unfold doomIf
  generalize s.landing.filter (fun kv => p kv.2) = l
  induction l generalizing s with
  | nil => rfl
  | cons kv l ih =>
    rw [List.foldl_cons, ih, doomSlot_landing]

/-- The caches and walks once they have dropped what an invalidation covers. -/
def cachesDropped (s : State) (v : Inval) : State := { s with
  tlb := s.tlb.filter (fun e => !covers v.kind v.space e.space e.x.va e.x.size)
  wcache := s.wcache.filter (fun e => !covers v.kind v.space e.space e.va (levelRange e.level))
  walks := s.walks.map (fun kv => if concerns v.kind v.space kv.2.space then (kv.1, { kv.2 with void := true }) else kv) }

/-- The walks that an invalidation waits for. -/
def walksWaited (s : State) (v : Inval) : List Nat := (s.walks.filter (fun kv => concerns v.kind v.space kv.2.space)).map Prod.fst

/-- An invalidation that no tile holds up. -/
theorem startInval_noneHeld (s : State) (v : Inval) (h : NoneHeld s v.kind v.space) : ∃ land reqs slots outs, startInval s v =
    { cachesDropped s v with
      landing := land
      nextId := s.nextId + 1
      invals := mput s.invals s.nextId
        { v with walks := walksWaited s v, reqs := reqs, slots := slots, outs := outs, began := s.now } } := by
  have hnone : s.tiles.filter (fun kv =>
      !kv.2.stalled && kv.2.held.any (fun x => covers v.kind v.space kv.2.space x.va x.size)) = [] := by
    refine List.filter_eq_nil_iff.mpr (fun kv hkv => ?_)
    cases hst : kv.2.stalled with
    | true => simp
    | false => simp only [h kv hkv hst, Bool.and_false]; decide
  unfold startInval
  dsimp only
  rw [doomIf_landing]
  dsimp only
  rw [hnone]
  exact ⟨_, _, _, _, rfl⟩

/-- It begins, with no register changed. -/
theorem startInval_begun (s : State) (v : Inval) (h : NoneHeld s v.kind v.space) :
    Begun s (startInval s v) v.win v.idx v.kind v.space ∧ (startInval s v).regs = s.regs := by
  obtain ⟨land, reqs, slots, outs, heq⟩ := startInval_noneHeld s v h
  rw [heq]
  exact ⟨⟨rfl, rfl, rfl, _, (mfind_mput ..).trans (if_pos rfl), rfl, rfl, rfl, rfl, rfl, rfl⟩, rfl⟩

theorem Begun.of_eq (h : Begun t s' win idx kind space) (htlb : t.tlb = s.tlb) (hwc : t.wcache = s.wcache) (hw : t.walks = s.walks)
    (hid : t.nextId = s.nextId) (hnow : t.now = s.now) : Begun s s' win idx kind space := by
  unfold Begun at *
  rw [htlb, hwc, hw, hid, hnow] at h
  exact h

end

/-! ## Descriptors (R302, R303) -/

section
variable {s : State} {win op : Nat} {d : List Byte}

/-- What a well-formed descriptor of an OP drops. -/
def descKind (d : List Byte) (op : Nat) : InvKind :=
  if op = 0 then .range (dnum d 8 8) (dnum d 0x10 4 * pageBytes (dnum d 1 1))
  else if op = 1 then .space else if op = 2 then .all else .sync

/-- The spaces that a descriptor of an OP names are its window's, and ALL comes from the physical function. -/
def DescMay (s : State) (win op : Nat) (d : List Byte) : Prop :=
  ¬ (op = 2 ∧ win ≠ 0) ∧ (op ≤ 1 → winOwns s win (dnum d 4 4) = true)
  ∧ (dnum d 2 1 = 1 → winOwns s win (dnum d 0x14 4) = true)

/-- The operands of a RANGE are well formed. -/
def RangeWell (d : List Byte) : Prop :=
  dnum d 8 8 % pageBytes (dnum d 1 1) = 0 ∧ dnum d 0x10 4 ≠ 0 ∧ dnum d 8 8 + dnum d 0x10 4 * pageBytes (dnum d 1 1) ≤ 2 ^ 49

/-- The invalidation that a well-formed descriptor begins. -/
def descInval (s : State) (win op : Nat) (d : List Byte) : Inval :=
  ⟨win, some (getF s f_XLT_IQ_HEAD_INDEX 0 win), descKind d op, dnum d 4 4,
    if bitAt (dnum d 2 1) 0 then some (dnum d 0x14 4, dnum d 0x18 8, dnum d 0x20 8) else none, [], [], [], [], s.now, false, none⟩

/-- HEAD moves past a descriptor that is rejected. -/
def iqReject (s : State) (win : Nat) : State := iqAdvance (setF s f_XLT_IQ_STATUS_REJECTED 0 1 win) win

theorem bitAt_zero_of_le_one {n : Nat} (h : n ≤ 1) : bitAt n 0 = decide (n = 1) := by
  unfold bitAt
  rw [Nat.pow_zero, Nat.div_one, Nat.mod_eq_of_lt (by omega)]

/-- A well-formed descriptor at HEAD is rejected or carried out. -/
theorem beginInval_well (hhead : iqHead s win = some d) (hwell : IqWell d op) (hop : op < 4) (hrange : op = 0 → RangeWell d) :
    (DescMay s win op d → beginInval s win op = startInval s (descInval s win op d))
    ∧ (¬ DescMay s win op d → beginInval s win op = iqReject s win) := by
  obtain ⟨hcode, hpage, hfence, hzero, hspace, hfspace, htail⟩ := hwell
  have hnum : ∀ o n, leNat ((d.drop o).take n) = dnum d o n := fun _ _ => rfl
  have hb : bitAt (dnum d 2 1) 0 = decide (dnum d 2 1 = 1) := bitAt_zero_of_le_one hfence
  have hbad : (decide (op = 0) && (decide (dnum d 8 8 % pageBytes (dnum d 1 1) ≠ 0) || decide (dnum d 0x10 4 = 0)
      || decide (2 ^ 49 < dnum d 8 8 + dnum d 0x10 4 * pageBytes (dnum d 1 1)))) = false := by
    by_cases h0 : op = 0
    · obtain ⟨halign, hne, hfit⟩ := hrange h0
      simpa [h0, halign, hne] using hfit
    · simp [h0]
  have hmay : ((decide (op = 2) && decide (win ≠ 0)) || (decide (op ≤ 1) && !winOwns s win (dnum d 4 4))
      || (bitAt (dnum d 2 1) 0 && !winOwns s win (dnum d 0x14 4))) = true ↔ ¬ DescMay s win op d := by
    rw [hb]
    simp only [DescMay, Bool.or_eq_true, Bool.and_eq_true, decide_eq_true_eq, Bool.not_eq_true', not_and_or, Classical.not_imp,
      Bool.not_eq_true]
    tauto
  unfold beginInval
  simp only [hhead, hnum, hcode, Nat.mod_eq_of_lt hop, Nat.mod_eq_of_lt hpage, Nat.mod_eq_of_lt hspace, Nat.mod_eq_of_lt hfspace,
    Nat.div_eq_of_lt hop, Nat.div_eq_of_lt hpage, Nat.div_eq_of_lt (Nat.lt_succ_of_le hfence : dnum d 2 1 < 2), hzero,
    Nat.div_eq_of_lt hspace, Nat.div_eq_of_lt hfspace, htail, ne_eq, not_true_eq_false, decide_false, Bool.false_or, if_false]
  simp only [ne_eq] at hbad hmay
  rw [hbad]
  refine ⟨fun h => ?_, fun h => ?_⟩
  · rw [if_neg (fun hc => (hmay.mp hc) h)]
    simp only [Bool.false_eq_true, if_false]
    rfl
  · rw [if_pos (hmay.mpr h)]
    rfl

theorem iqReject_spec (s : State) (win : Nat) : HeadMoved s (iqReject s win) win
    ∧ flagF (iqReject s win) f_XLT_IQ_STATUS_REJECTED 0 win = true
    ∧ (iqReject s win).tlb = s.tlb ∧ (iqReject s win).invals = s.invals := by
  have hsize : iqSize (setF s f_XLT_IQ_STATUS_REJECTED 0 1 win) win = iqSize s win := by
    unfold iqSize
    rw [getF_setF_key _ _ _ _ _ _ _ _ (regKey_ne_of_base (by decide) win)]
  refine ⟨?_, ?_, rfl, rfl⟩
  · unfold HeadMoved iqReject iqAdvance
    rw [getF_setF _ _ _ _ _ (by decide), hsize, getF_setF_key _ _ _ _ _ _ _ _ (regKey_ne_of_base (by decide) win)]
  · rw [iqReject, iqAdvance, flagF_setF_key _ (regKey_ne_of_base (by decide) win), flagF_setF_same _ _ _ _ (by decide)]
    decide

theorem noneHeld_sync (s : State) (space : Nat) : NoneHeld s .sync space := fun _ _ _ => by
  simp [covers]

end

/-! ## Ends (R304, R306, R307) -/

section
variable {s : State} {id : Nat} {v : Inval}

theorem invalidationComplete_exec (hv : mfind s.invals id = some v) (hidx : v.idx.isSome = true) (hdone : invalDone s v = true)
    (hf : v.fence = none) : exec (.invalidationComplete id) s =
    .next (iqAdvance { devEnd s (adminQ v.win) id with invals := mdel (devEnd s (adminQ v.win) id).invals id } v.win) := by
  have hnone : v.idx.isNone = false := by rw [← Option.not_isSome, hidx]; rfl
  change execInvalidationComplete id s = _
  simp only [execInvalidationComplete, hv, hnone, hdone, hf, Bool.not_true, Bool.or_self, Bool.false_eq_true, if_false, if_true]

theorem iqAdvance_headMoved {t : State} (h : t.regs = s.regs) (win : Nat) : HeadMoved s (iqAdvance t win) win := by
  have hreg : ∀ f : RF, getF t f 0 win = getF s f 0 win := fun f => by unfold getF; rw [getR_of_regs_eq h]
  unfold HeadMoved iqAdvance iqSize
  rw [getF_setF _ _ _ _ _ (by decide), hreg, hreg]

theorem invalidationSlow_exec (hv : mfind s.invals id = some v) (hslow : v.slow = false) (hdone : invalDone s v = false)
    (hdue : due s v.began (getF s f_XLT_INV_TIMEOUT_US * usTicks) = true) : exec (.invalidationSlow id) s =
    .next (countR { s with invals := mput s.invals id { v with slow := true } } r_XLT_INV_SLOW 0 1) := by
  change execInvalidationSlow id s = _
  simp only [execInvalidationSlow, hv, hslow, hdone, hdue, Bool.not_true, Bool.or_self, Bool.false_eq_true, if_false]

theorem wsFlushComplete_exec (hv : mfind s.invals id = some v) (hidx : v.idx = none) (htd : v.teardown = none)
    (hdone : invalDone s v = true) : exec (.wsFlushComplete id) s =
    .next (countR (setF { s with invals := mdel s.invals id } f_XLT_WS_FLUSH_BUSY 0 0 v.win) r_XLT_WS_FLUSH_DONE 0 1 v.win) := by
  change execWsFlushComplete id s = _
  simp only [execWsFlushComplete, hv, hidx, htd, hdone, Option.isSome_none, Bool.not_true, Bool.or_self, Bool.false_eq_true, if_false]

end

/-! ## The whole-space flush (R307) -/

section
variable {s : State} {win v space : Nat}

theorem rereadSlot_eq (s : State) (space : Nat) : rereadSlot s space = { s with slots := (rereadSlot s space).slots } := by
  unfold rereadSlot
  split
  · split <;> rfl
  · rfl

/-- What a window owns does not depend on its flush register. -/
theorem winOwns_setFlush (s : State) {f : RF} (hf : f.reg = r_XLT_WS_FLUSH) (u w : Nat) :
    winOwns (setF s f 0 u w) win space = winOwns s win space := by
  have hkey : regKey f.reg 0 w ≠ regKey r_XLT_SPACE_BASE 0 0 := by
    rw [hf]
    unfold regKey r_XLT_WS_FLUSH r_XLT_SPACE_BASE windowSpan
    dsimp only
    omega
  have hentry : spaceEntry (setF s f 0 u w) space = spaceEntry s space := by
    unfold spaceEntry flagF
    rw [getF_setF_key s f f_XLT_SPACE_BASE_ENABLE 0 0 u w 0 hkey, getF_setF_key s f f_XLT_SPACE_BASE_ADDR 0 0 u w 0 hkey]
    rfl
  unfold winOwns spaceOwner
  rw [hentry]
  rfl

/-- The state once a write of the flush register has given it its space. -/
def flushNamed (s : State) (win v : Nat) : State := setF s f_XLT_WS_FLUSH_SPACE 0 (v % 2 ^ 20) win

theorem wsFlush_exec (hopen : winOpen s win = true) (hbusy : flagF s f_XLT_WS_FLUSH_BUSY 0 win = false) :
    exec (.wsFlush win v) s = .next (
      if bitAt v 31 = false then flushNamed s win v
      else if winOwns s win (v % 2 ^ 20) = true then
        startFlush (setF (flushNamed s win v) f_XLT_WS_FLUSH_BUSY 0 1 win) win (v % 2 ^ 20) none
      else countR (setF (flushNamed s win v) f_XLT_IQ_STATUS_REJECTED 0 1 win) r_XLT_WS_FLUSH_DONE 0 1 win) := by
  have howns := winOwns_setFlush (win := win) (space := v % 2 ^ 20) s (f := f_XLT_WS_FLUSH_SPACE) rfl (v % 2 ^ 20) win
  change execWsFlush win v s = _
  simp only [execWsFlush, hopen, hbusy, howns, flushNamed, Bool.not_true, Bool.or_self, Bool.false_eq_true, if_false,
    Bool.not_eq_true']

theorem flushNamed_busy (s : State) (win v : Nat) :
    flagF (flushNamed s win v) f_XLT_WS_FLUSH_BUSY 0 win = flagF s f_XLT_WS_FLUSH_BUSY 0 win := by
  rw [flushNamed, flagF, getF_setF_off _ f_XLT_WS_FLUSH_SPACE f_XLT_WS_FLUSH_BUSY _ _ _ rfl (by decide) (by decide), flagF]

theorem startFlush_begun (h : NoneHeld s .space space) :
    Begun s (startFlush s win space none) win none .space space ∧ (startFlush s win space none).regs = s.regs := by
  unfold startFlush
  rw [Option.isSome_none, if_neg Bool.false_ne_true, rereadSlot_eq]
  obtain ⟨hbegun, hregs⟩ := startInval_begun { s with slots := (rereadSlot s space).slots }
    ⟨win, none, .space, space, none, [], [], [], [], s.now, false, none⟩ h
  exact ⟨hbegun.of_eq rfl rfl rfl rfl rfl, hregs⟩

end

/-- Settles O32: `beginInval_well` says what a well-formed descriptor does, `startInval_begun` what carrying it out leaves, and
`wsFlush_exec` what a write of the flush register does. -/
theorem invalidationQueue : Obligations.InvalidationQueue := by
  unfold Obligations.InvalidationQueue
  refine ⟨⟨?_, ?_⟩, ?_, ?_⟩
  · intro win v s hopen
    refine ⟨setF s f_XLT_IQ_TAIL_INDEX 0 v win, ?_, getF_setF _ _ _ _ _ (by decide)⟩
    change execIqTailWrite win v s = _
    simp [execIqTailWrite, hopen]
  · intro win s d hhead
    refine ⟨?_, ?_, ?_, ?_, ?_, ?_⟩
    · intro hwell hmay halign hne hfit hheld
      have hb := (beginInval_well hhead hwell (by decide) (fun _ => ⟨halign, hne, hfit⟩)).1 ⟨by omega, fun _ => hmay.1, hmay.2⟩
      exact gives_of_eq rfl hb (startInval_begun s (descInval s win 0 d) hheld).1
    · intro hwell hmay hheld
      have hb := (beginInval_well hhead hwell (by decide) (by omega)).1 ⟨by omega, fun _ => hmay.1, hmay.2⟩
      exact gives_of_eq rfl hb (startInval_begun s (descInval s win 1 d) hheld).1
    · intro hwell hwin hany hheld
      have hb := (beginInval_well hhead hwell (by decide) (by omega)).1 ⟨fun h => h.2 hwin, by omega, hany⟩
      exact gives_of_eq rfl hb (startInval_begun s (descInval s win 2 d) hheld).1
    · intro hwell hany
      have hb := (beginInval_well hhead hwell (by decide) (by omega)).1 ⟨by omega, by omega, hany⟩
      exact gives_of_eq rfl hb (startInval_begun s (descInval s win 3 d) (noneHeld_sync s _)).1
    · intro hwell howns
      have hb := (beginInval_well hhead hwell (by decide) (by omega)).2 (fun h => by simp [h.2.1 (by omega)] at howns)
      exact gives_of_eq rfl hb (iqReject_spec s win)
    · intro hwell hwin
      have hb := (beginInval_well hhead hwell (by decide) (by omega)).2 (fun h => h.1 ⟨rfl, hwin⟩)
      exact gives_of_eq rfl hb (iqReject_spec s win)
  · intro id s v hv _
    refine ⟨?_, ?_, ?_⟩
    · intro hidx hdone hf hheld
      refine ⟨_, invalidationComplete_exec hv hidx hdone hf, ?_, ?_⟩
      · exact mfind_mdel_same _ _
      · refine iqAdvance_headMoved ?_ _
        rw [devEnd, forgetReqs_of_noHeld hheld]
    · intro hslow hdone hdue
      refine ⟨_, invalidationSlow_exec hv hslow hdone hdue, (mfind_mput ..).trans (if_pos rfl), ?_⟩
      rw [getR_countR_same]
      rfl
    · intro hidx htd hdone
      refine ⟨_, wsFlushComplete_exec hv hidx htd hdone, mfind_mdel_same _ _, ?_, ?_⟩
      · rw [flagF, getF_countR_key _ _ _ _ _ _ _ _ (regKey_ne_of_base (by decide) _), getF_setF _ _ _ _ _ (by decide)]
        rfl
      · rw [getR_countR_same, getR_setF_key _ _ _ _ _ _ _ _ (regKey_ne_of_base (by decide) _)]
        rfl
  · intro win v s hopen hbusy
    refine ⟨?_, ?_, ?_⟩
    · intro hbit
      refine ⟨_, (wsFlush_exec hopen hbusy).trans (congrArg _ (if_pos hbit)), ?_, ?_, rfl⟩
      · rw [flushNamed, getF_setF _ _ _ _ _ (by decide)]
        exact Nat.mod_mod _ _
      · rw [flushNamed_busy, hbusy]
    · intro hbit howns hheld
      refine ⟨_, (wsFlush_exec hopen hbusy).trans (congrArg _ ((if_neg (by simp [hbit])).trans (if_pos howns))), ?_⟩
      obtain ⟨hbegun, hregs⟩ := startFlush_begun (win := win) (s := setF (flushNamed s win v) f_XLT_WS_FLUSH_BUSY 0 1 win) hheld
      refine ⟨hbegun.of_eq rfl rfl rfl rfl rfl, ?_⟩
      rw [flagF, getF, getR_of_regs_eq hregs, ← getF, getF_setF _ _ _ _ _ (by decide)]
      rfl
    · intro hbit howns
      refine ⟨_, (wsFlush_exec hopen hbusy).trans (congrArg _ ((if_neg (by simp [hbit])).trans
        (if_neg (ne_true_of_eq_false howns)))), ?_, ?_, rfl, ?_⟩
      · rw [flagF, getF_countR_key _ _ _ _ _ _ _ _ (regKey_ne_of_base (by decide) _), getF_setF _ _ _ _ _ (by decide)]
        rfl
      · rw [flagF, getF_countR_key _ _ _ _ _ _ _ _ (regKey_ne_of_base (by decide) _),
          getF_setF_key _ _ _ _ _ _ _ _ (regKey_ne_of_base (by decide) _), ← flagF, flushNamed_busy, hbusy]
      · rw [getR_countR_same, getR_setF_key _ _ _ _ _ _ _ _ (regKey_ne_of_base (by decide) _), flushNamed,
          getR_setF_key _ _ _ _ _ _ _ _ (regKey_ne_of_base (by decide) _)]

end Sys2Proof.Machine
end

section
/-! O39, the posting of events: event records, MSI-X messages and heads (R398, R400 to R402). -/

namespace Sys2Proof.Machine

section
variable {s : State} {win q : Nat} {r : List Byte} {rest : List (List Byte)}

/-! ## Event records -/

/-- The entry of an event ring that holds a record: the record with the ring's SEQ and PHASE. -/
def eqEntry (s : State) (win : Nat) (r : List Byte) : List Byte :=
  r ++ leBytes 4 ((mget Ring.empty s.rings (2 * win + 1)).posted + 1)
    ++ leBytes 4 (ringPhase (mget Ring.empty s.rings (2 * win + 1)) * 2 ^ 31)

theorem eqEntry_length (h : r.length = 56) : (eqEntry s win r).length = 64 := by
  simp [eqEntry, leBytes_length, h]

/-- The state once the entry stands at the tail of the ring, before the queue notifies. -/
def eqPosted (s : State) (win : Nat) (r : List Byte) (rest : List (List Byte)) : State :=
  let tail := getF s f_EVT_EQ_TAIL_INDEX 0 win
  setF { s with
    host := memPut s.host (getF s f_EVT_EQ_BASE_ADDR 0 win * 4096 + 64 * tail) (eqEntry s win r)
    evHeld := mput s.evHeld win rest
    rings := mput s.rings (2 * win + 1) (ringNext (mget Ring.empty s.rings (2 * win + 1)) tail (eqSize s win)) }
    f_EVT_EQ_TAIL_INDEX 0 ((tail + 1) % eqSize s win) win

theorem eventRecordPost_exec (h : mget [] s.evHeld win = r :: rest) (hroom : eqRoom s win = true) :
    exec (.eventRecordPost win) s = .next (notifyQueue (eqPosted s win r rest) win 1) := by
  change execEventRecordPost win s = _
  simp only [execEventRecordPost, h, hroom, Bool.not_true, Bool.false_eq_true, if_false]
  rfl

/-- An armed event queue that is enabled owes a message, and is no longer armed. -/
theorem notifyQueue_armed (harmed : s.armed.contains (2 * win + 1) = true) (hen : flagF s f_EVT_IRQ_CFG_EQ_EN 0 win = true) :
    (notifyQueue s win 1).msixDue = s.msixDue ++ [2 * win + 1] ∧ (notifyQueue s win 1).armed.contains (2 * win + 1) = false := by
  have hnow : notifyQueue s win 1 = { s with
      armed := s.armed.filter (fun x => x ≠ 2 * win + 1), msixDue := s.msixDue ++ [2 * win + 1] } := by
    unfold notifyQueue
    rw [if_pos harmed]
    exact if_pos hen
  rw [hnow]
  exact ⟨rfl, by simp⟩

theorem eqPosted_armed (harmed : s.armed.contains (2 * win + 1) = true) (hen : flagF s f_EVT_IRQ_CFG_EQ_EN 0 win = true) :
    (notifyQueue (eqPosted s win r rest) win 1).msixDue = s.msixDue ++ [2 * win + 1]
    ∧ (notifyQueue (eqPosted s win r rest) win 1).armed.contains (2 * win + 1) = false :=
  notifyQueue_armed (s := eqPosted s win r rest) harmed
    ((flagF_setF_key _ (regKey_ne_of_base (by decide) win)).trans hen)

/-! ## Messages -/

/-- A queue's previous message is long enough ago. -/
def MsixWaited (s : State) (win q : Nat) : Prop :=
  ∀ t, mfind s.msixLast (2 * win + q) = some t → due s t (getF s f_EVT_IRQ_MOD_US 0 win * usTicks) = true

/-- The state once a queue's message has been sent. -/
def msixSent (s : State) (win q : Nat) : State :=
  sendMsi { s with msixDue := s.msixDue.erase (2 * win + q), msixLast := mput s.msixLast (2 * win + q) s.now } win
    (if q = 0 then getF s f_EVT_IRQ_CFG_FQ_VEC 0 win else getF s f_EVT_IRQ_CFG_EQ_VEC 0 win)

theorem msixSend_exec (s : State) (win q : Nat) :
    (2 * win + q ∈ s.msixDue → MsixWaited s win q → exec (.msixSend win q) s = .next (msixSent s win q))
    ∧ (2 * win + q ∉ s.msixDue ∨ ¬ MsixWaited s win q → exec (.msixSend win q) s = .next s) := by
  have hexec : exec (.msixSend win q) s = .next (if s.msixDue.contains (2 * win + q) && (match mfind s.msixLast (2 * win + q) with
      | none => true
      | some t => due s t (getF s f_EVT_IRQ_MOD_US 0 win * usTicks)) then msixSent s win q else s) := rfl
  have hwaited : (match mfind s.msixLast (2 * win + q) with
      | none => true
      | some t => due s t (getF s f_EVT_IRQ_MOD_US 0 win * usTicks)) = true ↔ MsixWaited s win q := by
    unfold MsixWaited
    cases mfind s.msixLast (2 * win + q) <;> simp
  rw [hexec]
  refine ⟨fun hdue hw => ?_, fun h => ?_⟩
  · rw [if_pos (by rw [Bool.and_eq_true, hwaited, List.contains_iff_mem]; exact ⟨hdue, hw⟩)]
  · rw [if_neg (by rw [Bool.and_eq_true, hwaited, List.contains_iff_mem]; tauto)]

/-! ## Heads -/

theorem armQueue_spec (s : State) (win q : Nat) : (armQueue s win q).armed.contains (2 * win + q) = true
    ∧ (armQueue s win q).regs = s.regs := by
  unfold armQueue
  split
  · next h => exact ⟨h, rfl⟩
  · exact ⟨by simp, rfl⟩

theorem getF_armQueue_setF (s : State) {f : RF} (v win q : Nat) (h : f.lo + f.width ≤ 64) :
    getF (armQueue (setF s f 0 v win) win q) f 0 win = v % 2 ^ f.width := by
  rw [getF, getR_of_regs_eq (armQueue_spec _ win q).2, ← getF, getF_setF _ _ _ _ _ h]

end

end Sys2Proof.Machine
end

section
/-! O39, slices and handovers of an Imago (R388, R389, R391, R392). -/

namespace Sys2Proof.Machine

/-! ## Registers and contexts -/

/-- Do the registers that a mask holds all stand at `b` or above? -/
def regsFrom (M b : Nat) : Bool := allRegs.all (fun r => !M.testBit (88 + r.ix) || decide (b ≤ r.base))

/-- A change of registers from `b` on leaves those below as they were. -/
theorem Agree.getR_below {M b : Nat} {s t : State} (h : Agree M s t) (h0 : M.testBit 0 = false) (hM : regsFrom M b = true) {r : Reg}
    {k win : Nat} (hlow : regKey r k win < b) : getR t r k win = getR s r k win := by
  have hkeys : ∀ r' k' w, Known r' → M.testBit (88 + r'.ix) = true → regKey r k win ≠ regKey r' k' w := by
    intro r' k' w hknown hbit
    have hb : b ≤ r'.base := by
      have := List.all_eq_true.mp hM r' (List.mem_of_getElem? hknown)
      simpa [hbit] using this
    unfold regKey at hlow ⊢
    omega
  unfold getR
  rw [h.regs h0 _ hkeys]

/-- The registers of the scheduler's holders and slots stand apart. -/
theorem slotKey_ne_imgKey {k : Nat} (hk : k < 64) (i : Nat) : regKey r_SCH_SLOT k 0 ≠ regKey r_SCH_IMG i 0 := by
  unfold regKey r_SCH_SLOT r_SCH_IMG
  dsimp only
  omega

theorem slotKey_ne_slotKey {k k' : Nat} (h : k ≠ k') : regKey r_SCH_SLOT k 0 ≠ regKey r_SCH_SLOT k' 0 := by
  unfold regKey r_SCH_SLOT
  dsimp only
  omega

theorem slotState_setF (s : State) (k st : Nat) : slotState (setF s f_SCH_SLOT_STATE k st) k = st % 8 :=
  getF_setF _ _ _ _ _ (by decide)

theorem slotState_setF_ne (s : State) {k k' : Nat} (h : k ≠ k') (st : Nat) :
    slotState (setF s f_SCH_SLOT_STATE k st) k' = slotState s k' := getF_setF_key _ _ _ _ _ _ _ _ (slotKey_ne_slotKey h)

theorem slotState_setImg (s : State) {f : RF} (hf : f.reg = r_SCH_IMG) {k : Nat} (hk : k < 64) (i v : Nat) :
    slotState (setF s f i v) k = slotState s k := getF_setF_key _ _ _ _ _ _ _ _ (by rw [hf]; exact (slotKey_ne_imgKey hk i).symm)

theorem slotState_of_regs_eq {s t : State} (h : t.regs = s.regs) (k : Nat) : slotState t k = slotState s k := by
  unfold slotState getF
  rw [getR_of_regs_eq h]

theorem ctxOf_modCtx (s : State) (c : Nat) (f : Ctx → Ctx) (d : Nat) :
    ctxOf (modCtx s c f) d = if c = d then (ctxOf s d).map f else ctxOf s d := by
  unfold ctxOf modCtx
  by_cases h : c = d
  · subst h
    cases hx : mfind s.ctxs c with
    | none => simp [hx]
    | some x => simp [mfind_mput]
  · cases mfind s.ctxs c with
    | none => simp [h]
    | some x => simp [mfind_mput, h]

theorem slotOf_eq (s : State) (c : Nat) :
    slotOf s c = (ctxOf s c).bind (fun x => x.slot.map (fun k => (k, mget SlotInfo.empty s.slots k))) := by
  unfold slotOf ctxOf
  cases mfind s.ctxs c <;> rfl

theorem modCtx_slots (s : State) (c : Nat) (f : Ctx → Ctx) : (modCtx s c f).slots = s.slots := (modCtx_frame ..).slots (by decide)

theorem modCtx_scheds (s : State) (c : Nat) (f : Ctx → Ctx) : (modCtx s c f).scheds = s.scheds := (modCtx_frame ..).scheds (by decide)

theorem modCtx_now (s : State) (c : Nat) (f : Ctx → Ctx) : (modCtx s c f).now = s.now := (modCtx_frame ..).now (by decide)

theorem modCtx_regs (s : State) (c : Nat) (f : Ctx → Ctx) : (modCtx s c f).regs = s.regs := by
  unfold modCtx
  split <;> rfl

/-- A change of a context that keeps its slot and its priority. -/
theorem slotOf_modCtx (s : State) (c : Nat) {f : Ctx → Ctx} (hf : ∀ x, (f x).slot = x.slot) (d : Nat) :
    slotOf (modCtx s c f) d = slotOf s d := by
  rw [slotOf_eq, slotOf_eq, ctxOf_modCtx, modCtx_slots]
  split
  · cases ctxOf s d with
    | none => rfl
    | some x => simp [hf]
  · rfl

theorem prioOf_modCtx (s : State) (c : Nat) {f : Ctx → Ctx} (hf : ∀ x, (f x).prio = x.prio) (d : Nat) :
    prioOf (modCtx s c f) d = prioOf s d := by
  unfold prioOf
  rw [ctxOf_modCtx]
  split
  · cases ctxOf s d with
    | none => rfl
    | some x => simp [hf]
  · rfl

theorem ctxOf_setF (s : State) (f : RF) (i v w c : Nat) : ctxOf (setF s f i v w) c = ctxOf s c := rfl

theorem ctxOf_modSched (s : State) (i : Nat) (f : Sched → Sched) (c : Nat) : ctxOf (modSched s i f) c = ctxOf s c := rfl

theorem slotOf_setF (s : State) (f : RF) (i v w c : Nat) : slotOf (setF s f i v w) c = slotOf s c := rfl

theorem prioOf_setF (s : State) (f : RF) (i v w c : Nat) : prioOf (setF s f i v w) c = prioOf s c := rfl

theorem sched_setF (s : State) (f : RF) (k v w i : Nat) : sched (setF s f k v w) i = sched s i := rfl

theorem modSched_regs (s : State) (i : Nat) (f : Sched → Sched) : (modSched s i f).regs = s.regs := rfl

theorem modSched_slots (s : State) (i : Nat) (f : Sched → Sched) : (modSched s i f).slots = s.slots := rfl

theorem modSched_now (s : State) (i : Nat) (f : Sched → Sched) : (modSched s i f).now = s.now := rfl

theorem slotOf_modSched (s : State) (i : Nat) (f : Sched → Sched) (c : Nat) : slotOf (modSched s i f) c = slotOf s c := rfl

theorem prioOf_modSched (s : State) (i : Nat) (f : Sched → Sched) (c : Nat) : prioOf (modSched s i f) c = prioOf s c := rfl

@[simp] theorem sched_modSched (s : State) (i : Nat) (f : Sched → Sched) : sched (modSched s i f) i = f (sched s i) := by
  simp [sched, modSched]

/-! ## The choice of a holder -/

section
variable {s : State} {i h c k : Nat} {e : SlotInfo}

/-- One context is chosen where no displaced one has its priority. -/
theorem chooseHolder_one (hd : ∀ x ∈ (sched s i).displaced, x.1 ≠ prioOf s c) : chooseHolder s i [c] = (some c, s) := by
  have hnone : ((sched s i).displaced.filter (fun x => (slotOf s x.2).isSome)).find?
      (fun x => x.1 = [].foldl (fun a x => min a (prioOf s x)) (prioOf s c)) = none :=
    List.find?_eq_none.mpr (fun x hx => ne_true_of_eq_false (decide_eq_false (hd x (List.mem_of_mem_filter hx))))
  have hnext : ∀ last, nextAfter s [c] last = some c := by
    intro last
    unfold nextAfter
    by_cases hlast : last < slotNum s c <;> simp [hlast]
  unfold chooseHolder
  dsimp only
  rw [hnone]
  simp [hnext]

/-- A context's slice has started: its scheduler's start and length, with no register changed. -/
theorem startSlice_spec {x : Ctx} (hx : ctxOf s c = some x) :
    (startSlice s i c).regs = s.regs ∧ (sched (startSlice s i c) i).start = some s.now
    ∧ (sched (startSlice s i c) i).old = (sched s i).old
    ∧ (x.left = none → (sched (startSlice s i c) i).len =
      max ((if x.sliceUs = 0 then getF s f_SCH_CFG_SLICE_DEF_US else x.sliceUs) * usTicks - x.debt) (100 * usTicks))
    ∧ ∀ d, d ≠ c → ctxOf (startSlice s i c) d = ctxOf s d := by
  unfold startSlice
  rw [hx]
  dsimp only
  refine ⟨modCtx_regs .., ?_, ?_, fun hleft => ?_, fun d hd => ?_⟩
  · simp [modCtx_now]
  · simp [sched, modSched, modCtx_scheds]
  · simp [hleft]
  · exact (ctxOf_modCtx ..).trans (if_neg hd.symm)

theorem setSlotState_eq (hslot : slotOf s c = some (k, e)) (st : Nat) : setSlotState s c st = setF s f_SCH_SLOT_STATE k st := by
  simp [setSlotState, hslot]

/-- The state once the registers name the context of slot `k` the holder. -/
def holderNamed (s : State) (i k : Nat) : State :=
  setF (setF (setF s f_SCH_IMG_HOLDER i k) f_SCH_IMG_VALID i 1) f_SCH_SLOT_STATE k slotHolder

theorem setHolder_eq (hslot : slotOf s c = some (k, e)) : setHolder s i (some c) =
    modSched (holderNamed s i k) i (fun v => { v with last := mput v.last (prioOf s c) k }) := by
  have hnum : slotNum s c = k := by simp [slotNum, hslot]
  have hset : setSlotState (setF (setF s f_SCH_IMG_HOLDER i k) f_SCH_IMG_VALID i 1) c slotHolder = holderNamed s i k :=
    setSlotState_eq (by rw [slotOf_setF, slotOf_setF, hslot]) slotHolder
  have hnum' : slotNum (setF (setF s f_SCH_IMG_HOLDER i k) f_SCH_IMG_VALID i 1) c = k := by
    rw [slotNum, slotOf_setF, slotOf_setF, hslot, Option.map_some, Option.getD_some]
  unfold setHolder
  simp only [hnum, hset, hnum', prioOf_setF]

theorem holderNamed_spec (hk : k < 64) : getF (holderNamed s i k) f_SCH_IMG_HOLDER i = k
    ∧ flagF (holderNamed s i k) f_SCH_IMG_VALID i = true ∧ slotState (holderNamed s i k) k = slotHolder
    ∧ ∀ k', k' < 64 → k ≠ k' → slotState (holderNamed s i k) k' = slotState s k' := by
  refine ⟨?_, ?_, slotState_setF .., fun k' hk' hne => ?_⟩
  · rw [holderNamed, getF_setF_key _ _ _ _ _ _ _ _ (slotKey_ne_imgKey hk i),
      getF_setF_off _ f_SCH_IMG_VALID f_SCH_IMG_HOLDER _ _ _ rfl (by decide) (by decide), getF_setF _ _ _ _ _ (by decide)]
    exact Nat.mod_eq_of_lt hk
  · rw [holderNamed, flagF_setF_key _ (slotKey_ne_imgKey hk i)]
    exact flagF_setF_one _ _ rfl (by decide)
  · rw [holderNamed, slotState_setF_ne _ hne, slotState_setImg _ rfl hk', slotState_setImg _ rfl hk']

/-- How much of the slice of an Imago's holder is gone. -/
def sliceGone (s : State) (i : Nat) : Nat :=
  match (sched s i).start with
  | some t => sinceRun s t
  | none => 0

/-- The state once the holder has been displaced by a context of higher priority. -/
def displacedBy (s : State) (i h : Nat) : State :=
  modSched (modCtx s h (fun x => { x with left := some ((sched s i).len - sliceGone s i) })) i
    (fun v => { v with displaced := v.displaced ++ [(prioOf s h, h)] })

theorem displacedBy_spec (s : State) (i h : Nat) : (displacedBy s i h).regs = s.regs
    ∧ (∀ d, slotOf (displacedBy s i h) d = slotOf s d) ∧ (∀ d, prioOf (displacedBy s i h) d = prioOf s d)
    ∧ (sched (displacedBy s i h) i).displaced = (sched s i).displaced ++ [(prioOf s h, h)] := by
  unfold displacedBy
  refine ⟨modCtx_regs .., fun d => ?_, fun d => ?_, ?_⟩
  · rw [slotOf_modSched]
    exact slotOf_modCtx s h (by exact fun _ => rfl) d
  · rw [prioOf_modSched]
    exact prioOf_modCtx s h (by exact fun _ => rfl) d
  · simp [sched, modSched, modCtx_scheds]

/-! ## The scheduler's decision -/

theorem sliceEnd_exec (i : Nat) (s : State) : exec (.sliceEnd i) s = .next (schedule s i) := rfl

variable (hi : i < 32) (hold : (sched s i).old = none) (hfence : fenced s i = false)
include hi hold hfence

/-- The scheduler decides: it is neither fenced nor in a handover. -/
theorem schedule_decides : ¬ ((decide (32 ≤ i) || (sched s i).old.isSome || fenced s i) = true) := by
  simp [hold, hfence, hi]

theorem schedule_idle (hno : holderOf s i = none) (hready : readyCtxs s i = []) : schedule s i = s := by
  unfold schedule
  rw [if_neg (schedule_decides hi hold hfence)]
  simp [hno, hready, chooseHolder]

theorem schedule_first (hno : holderOf s i = none) (hready : readyCtxs s i = [c]) (hd : (sched s i).displaced = []) :
    schedule s i = startSlice (setHolder s i (some c)) i c := by
  have hc : chooseHolder s i [c] = (some c, s) := chooseHolder_one (by simp [hd])
  unfold schedule
  rw [if_neg (schedule_decides hi hold hfence)]
  simp [hno, hready, hc]

theorem schedule_displace (hh : holderOf s i = some h)
    (hhigher : (readyCtxs s i).filter (fun c => decide (prioOf s c < prioOf s h)) = [c]) (hd : (sched s i).displaced = []) :
    schedule s i = handOver (displacedBy s i h) i h (some c) := by
  obtain ⟨-, -, hprio, hdisp⟩ := displacedBy_spec s i h
  have hlt : prioOf s c < prioOf s h := by
    have hmem : c ∈ (readyCtxs s i).filter (fun c => decide (prioOf s c < prioOf s h)) := hhigher ▸ List.mem_cons_self
    simpa using (List.mem_filter.mp hmem).2
  have hc : chooseHolder (displacedBy s i h) i [c] = (some c, displacedBy s i h) := by
    refine chooseHolder_one (fun x hx => ?_)
    rw [hdisp, hd, List.nil_append, List.mem_singleton] at hx
    rw [hx, hprio]
    exact Nat.ne_of_gt hlt
  unfold schedule
  rw [if_neg (schedule_decides hi hold hfence)]
  simp only [hh, hhigher, List.isEmpty_cons, Bool.not_false, if_true]
  change (handOver (chooseHolder (displacedBy s i h) i [c]).2 i h (chooseHolder (displacedBy s i h) i [c]).1) = _
  rw [hc]

theorem schedule_renew (hh : holderOf s i = some h)
    (hhigher : (readyCtxs s i).filter (fun c => decide (prioOf s c < prioOf s h)) = [])
    (hrivals : (readyCtxs s i).filter (fun c => c ≠ h && decide (prioOf s c ≤ prioOf s h)) = [])
    (hwork : readyWork s h = true ∨ runningWork s h = true) (hover : sliceOver s i = true) : schedule s i = startSlice s i h := by
  have hor : (readyWork s h || runningWork s h) = true := by simpa using hwork
  unfold schedule
  rw [if_neg (schedule_decides hi hold hfence)]
  simp only [hh, hhigher, hrivals, hover, hor, List.isEmpty_nil, Bool.not_true, Bool.false_eq_true, if_false, Bool.and_self, if_true]

theorem schedule_yield (hh : holderOf s i = some h) (hready : readyCtxs s i = []) (hnoready : readyWork s h = false)
    (hnorun : runningWork s h = false) (hover : sliceOver s i = false) : schedule s i = handOver s i h none := by
  unfold schedule
  rw [if_neg (schedule_decides hi hold hfence)]
  simp [hh, hready, hnoready, hnorun, hover, chooseHolder]

end

section
variable {s : State} {i h c k kh : Nat} {e eh : SlotInfo}

/-- The state in which the old holder yields. -/
def yielded (s : State) (i h kh : Nat) : State :=
  modSched (setF s f_SCH_SLOT_STATE kh slotYielding) i (fun v => { v with old := some h, yieldAt := s.now, start := none, late := 0 })

theorem handOver_eq (hslot : slotOf s h = some (kh, eh)) (new : Option Nat) :
    handOver s i h new = setHolder (yielded s i h kh) i new := by
  unfold handOver
  rw [setSlotState_eq hslot]
  rfl

theorem yielded_spec (s : State) (i h kh : Nat) : slotState (yielded s i h kh) kh = slotYielding
    ∧ (sched (yielded s i h kh) i).old = some h ∧ (sched (yielded s i h kh) i).start = none
    ∧ (sched (yielded s i h kh) i).displaced = (sched s i).displaced := by
  refine ⟨slotState_setF s kh slotYielding, ?_, ?_, ?_⟩ <;> unfold yielded <;> rw [sched_modSched]
  rfl

/-- A context of slot `k` is named the holder: registers as `holderNamed` has them, and of its scheduler only `last` changes. -/
theorem setHolder_spec (hslot : slotOf s c = some (k, e)) : (setHolder s i (some c)).regs = (holderNamed s i k).regs
    ∧ (sched (setHolder s i (some c)) i).old = (sched s i).old ∧ (sched (setHolder s i (some c)) i).start = (sched s i).start
    ∧ (sched (setHolder s i (some c)) i).displaced = (sched s i).displaced ∧ (setHolder s i (some c)).now = s.now
    ∧ ∀ d, ctxOf (setHolder s i (some c)) d = ctxOf s d := by
  rw [setHolder_eq hslot]
  refine ⟨rfl, ?_, ?_, ?_, rfl, fun _ => rfl⟩ <;> rw [sched_modSched] <;> rfl

/-- What the registers say once a context of slot `k` is the holder. -/
theorem holder_of_regs {t : State} (hk : k < 64) (h : t.regs = (holderNamed s i k).regs) : getF t f_SCH_IMG_HOLDER i = k
    ∧ flagF t f_SCH_IMG_VALID i = true ∧ slotState t k = slotHolder
    ∧ ∀ k', k' < 64 → k ≠ k' → slotState t k' = slotState s k' := by
  have hread : ∀ f, getF t f i = getF (holderNamed s i k) f i := fun f => by unfold getF; rw [getR_of_regs_eq h]
  obtain ⟨hholder, hvalid, hstate, hothers⟩ := holderNamed_spec (s := s) (i := i) hk
  refine ⟨(hread _).trans hholder, ?_, (slotState_of_regs_eq h k).trans hstate,
    fun k' hk' hne => (slotState_of_regs_eq h k').trans (hothers k' hk' hne)⟩
  rw [flagF, hread]
  exact hvalid

theorem getF_sliceDef_holderNamed (s : State) (i k : Nat) :
    getF (holderNamed s i k) f_SCH_CFG_SLICE_DEF_US = getF s f_SCH_CFG_SLICE_DEF_US := by
  have hkey : ∀ r : Reg, r_SCH_CFG.base < r.base → ∀ j, regKey r j 0 ≠ regKey f_SCH_CFG_SLICE_DEF_US.reg 0 0 := by
    intro r hr j
    change _ ≠ regKey r_SCH_CFG 0 0
    unfold regKey
    omega
  rw [holderNamed, getF_setF_key _ _ _ _ _ _ _ _ (hkey _ (by decide) k), getF_setF_key _ _ _ _ _ _ _ _ (hkey _ (by decide) i),
    getF_setF_key _ _ _ _ _ _ _ _ (hkey _ (by decide) i)]

/-! ## What SLICE_END leaves -/

/-- The only ready context becomes the holder, and its slice starts. -/
theorem startHolder_spec {x : Ctx} (hslot : slotOf s c = some (k, e)) (hk : k < 64) (hx : ctxOf s c = some x) (hleft : x.left = none) :
    let s' := startSlice (setHolder s i (some c)) i c
    getF s' f_SCH_IMG_HOLDER i = k ∧ flagF s' f_SCH_IMG_VALID i = true ∧ slotState s' k = slotHolder
    ∧ (sched s' i).start = some s.now
    ∧ (sched s' i).len =
      max ((if x.sliceUs = 0 then getF s f_SCH_CFG_SLICE_DEF_US else x.sliceUs) * usTicks - x.debt) (100 * usTicks) := by
  intro s'
  obtain ⟨hregs, -, -, -, hnow, hctx⟩ := setHolder_spec (i := i) hslot
  obtain ⟨hregs', hstart, -, hlen, -⟩ := startSlice_spec (i := i) ((hctx c).trans hx)
  obtain ⟨hholder, hvalid, hstate, -⟩ := holder_of_regs hk (hregs'.trans hregs)
  have hdef : getF (setHolder s i (some c)) f_SCH_CFG_SLICE_DEF_US = getF s f_SCH_CFG_SLICE_DEF_US := by
    rw [getF, getR_of_regs_eq hregs, ← getF, getF_sliceDef_holderNamed]
  exact ⟨hholder, hvalid, hstate, hstart.trans (congrArg _ hnow), hdef ▸ hlen hleft⟩

/-- The holder yields to another context. -/
theorem handOver_some_spec (hslot : slotOf s c = some (k, e)) (hslot' : slotOf s h = some (kh, eh)) (hne : k ≠ kh) (hk : k < 64)
    (hkh : kh < 64) :
    let s' := handOver s i h (some c)
    getF s' f_SCH_IMG_HOLDER i = k ∧ slotState s' k = slotHolder ∧ slotState s' kh = slotYielding
    ∧ (sched s' i).old = some h ∧ (sched s' i).start = none ∧ (sched s' i).displaced = (sched s i).displaced := by
  intro s'
  obtain ⟨hyield, hold, hstart, hdisp⟩ := yielded_spec s i h kh
  have hslot2 : slotOf (yielded s i h kh) c = some (k, e) := by rw [yielded, slotOf_modSched, slotOf_setF, hslot]
  obtain ⟨hregs, hold', hstart', hdisp', -, -⟩ := setHolder_spec (i := i) hslot2
  have hs' : s' = setHolder (yielded s i h kh) i (some c) := handOver_eq hslot' _
  rw [hs']
  obtain ⟨hholder, -, hstate, hothers⟩ := holder_of_regs hk hregs
  exact ⟨hholder, hstate, (hothers kh hkh hne).trans hyield, hold'.trans hold, hstart'.trans hstart, hdisp'.trans hdisp⟩

/-- The holder yields to none. -/
theorem handOver_none_spec (hslot : slotOf s h = some (kh, eh)) (hkh : kh < 64) :
    let s' := handOver s i h none
    flagF s' f_SCH_IMG_VALID i = false ∧ slotState s' kh = slotYielding ∧ (sched s' i).old = some h := by
  intro s'
  obtain ⟨hyield, hold, -, -⟩ := yielded_spec s i h kh
  have hs' : s' = setF (yielded s i h kh) f_SCH_IMG_VALID i 0 := handOver_eq hslot _
  rw [hs', sched_setF, slotState_setImg _ rfl hkh]
  exact ⟨flagF_setF_zero _ _ (by decide), hyield, hold⟩

/-! ## The end of a handover -/

/-- Taking a context's bulk work off the channels changes no register of the scheduler. -/
theorem getR_liftBulk_below (s : State) (space : Nat) {r : Reg} {j : Nat} (hlow : regKey r j 0 < 0x400004) :
    getR (liftBulk s space) r j = getR s r j :=
  (liftBulk_frame s space).getR_below (by decide) (by decide +kernel) hlow

theorem liftBulk_kept (s : State) (space : Nat) : (liftBulk s space).ctxs = s.ctxs ∧ (liftBulk s space).scheds = s.scheds
    ∧ (liftBulk s space).slots = s.slots ∧ (liftBulk s space).now = s.now :=
  ⟨(liftBulk_frame ..).ctxs (by decide), (liftBulk_frame ..).scheds (by decide), (liftBulk_frame ..).slots (by decide),
    (liftBulk_frame ..).now (by decide)⟩

/-- The state once the old holder is RESIDENT with its overrun as debt. -/
def handedBack (s : State) (i o : Nat) : State :=
  let s' := setSlotState (liftBulk s o) o slotResident
  modSched (modCtx s' o (fun x => { x with debt := x.debt + (sched s' i).late })) i (fun v => { v with old := none, late := 0 })

theorem handedBack_spec {o : Nat} {x : Ctx} (hslot : slotOf s o = some (k, e)) (hx : ctxOf s o = some x) :
    (handedBack s i o).regs = (setF (liftBulk s o) f_SCH_SLOT_STATE k slotResident).regs ∧ (handedBack s i o).slots = s.slots
    ∧ (handedBack s i o).now = s.now ∧ (sched (handedBack s i o) i).old = none
    ∧ (ctxOf (handedBack s i o) o).map Ctx.debt = some (x.debt + (sched s i).late)
    ∧ ∀ d, d ≠ o → ctxOf (handedBack s i o) d = ctxOf s d := by
  obtain ⟨hctxs, hscheds, hslots, hnow⟩ := liftBulk_kept s o
  have hctx : ∀ d, ctxOf (liftBulk s o) d = ctxOf s d := fun d => by unfold ctxOf; rw [hctxs]
  have hslot' : slotOf (liftBulk s o) o = some (k, e) := by rw [slotOf_eq, hctx, hslots, ← slotOf_eq, hslot]
  have hlate : sched (liftBulk s o) i = sched s i := by unfold sched; rw [hscheds]
  have heq : handedBack s i o = modSched (modCtx (setF (liftBulk s o) f_SCH_SLOT_STATE k slotResident) o
      (fun x => { x with debt := x.debt + (sched s i).late })) i (fun v => { v with old := none, late := 0 }) := by
    unfold handedBack
    dsimp only
    rw [setSlotState_eq hslot', sched_setF, hlate]
  rw [heq]
  refine ⟨?_, ?_, ?_, by rw [sched_modSched], ?_, fun d hd => ?_⟩
  · rw [modSched_regs, modCtx_regs]
  · rw [modSched_slots, modCtx_slots, setF_slots, hslots]
  · rw [modSched_now, modCtx_now, setF_now, hnow]
  · rw [ctxOf_modSched, ctxOf_modCtx, if_pos rfl, ctxOf_setF, hctx, hx]
    rfl
  · rw [ctxOf_modSched, ctxOf_modCtx, if_neg hd.symm, ctxOf_setF, hctx]

/-- Another holder stays the holder. -/
theorem holderOf_handedBack {o : Nat} {x : Ctx} (hi : i < 32) (hh : holderOf s i = some h) (hslot : slotOf s o = some (k, e))
    (hk : k < 64) (hne : getF s f_SCH_IMG_HOLDER i ≠ k) (hx : ctxOf s o = some x) : holderOf (handedBack s i o) i = some h := by
  obtain ⟨hregs, hslots, -⟩ := handedBack_spec (i := i) hslot hx
  have himg : ∀ f : RF, f.reg = r_SCH_IMG → getF (handedBack s i o) f i = getF s f i := by
    intro f hf
    have hkey : regKey f_SCH_SLOT_STATE.reg k 0 ≠ regKey f.reg i 0 := by rw [hf]; exact slotKey_ne_imgKey hk i
    have hlow : regKey f.reg i 0 < 0x400004 := by
      rw [hf]
      unfold regKey r_SCH_IMG
      dsimp only
      omega
    rw [getF, getR_of_regs_eq hregs, ← getF, getF_setF_key _ _ _ _ _ _ _ _ hkey, getF, getR_liftBulk_below s o hlow, ← getF]
  have hstate : slotState (handedBack s i o) (getF s f_SCH_IMG_HOLDER i) = slotState s (getF s f_SCH_IMG_HOLDER i) := by
    have hlt : getF s f_SCH_IMG_HOLDER i < 64 := Nat.mod_lt _ (by decide)
    have hlow : regKey f_SCH_SLOT_STATE.reg (getF s f_SCH_IMG_HOLDER i) 0 < 0x400004 := by
      change regKey r_SCH_SLOT _ 0 < _
      unfold regKey r_SCH_SLOT
      dsimp only
      omega
    rw [slotState_of_regs_eq hregs, slotState_setF_ne _ hne.symm, slotState, getF, getR_liftBulk_below s o hlow, ← getF, ← slotState]
  unfold holderOf flagF at hh ⊢
  rw [himg _ rfl, himg _ rfl]
  dsimp only
  rw [hstate, hslots]
  exact hh

theorem handoverComplete_exec {o : Nat} (ho : (sched s i).old = some o) (hcores : coresOf s o = []) (hnp : npRunning s o = false)
    (hstop : bulkStopped s o = true) (hh : holderOf (handedBack s i o) i = some h) :
    exec (.handoverComplete i) s = .next (startSlice (handedBack s i o) i h) := by
  change execHandoverComplete i s = _
  unfold execHandoverComplete
  simp only [ho, hcores, hnp, hstop, List.isEmpty_nil, Bool.not_true, Bool.or_self, Bool.false_eq_true, if_false]
  change Host.Outcome.next (match holderOf (handedBack s i o) i with
    | some h => startSlice (handedBack s i o) i h
    | none => schedule (handedBack s i o) i) = _
  rw [hh]

/-! ## A command that runs too long -/

/-- The record of a non-preemptible command that runs too long. -/
def overrunRecord (s : State) (id : Nat) (c : Cmd) : List Byte :=
  eventRecord 0x13 0 c.space (c.num 4 4 + c.op * 2 ^ 32) (ranFor s id c / usTicks) (((queueOf s c.queue).map Queue.num).getD 0) s.now

theorem postEvent_room {win : Nat} (h : (mget [] s.evHeld win).length < 1024) (rcd : List Byte) :
    postEvent s win rcd = { s with evHeld := mput s.evHeld win (mget [] s.evHeld win ++ [rcd]) } := by
  unfold postEvent
  dsimp only
  rw [if_neg (by simp [Nat.not_le.mpr h])]

/-- The state once a command is marked as having run too long, and counted. -/
def overrunCounted (s : State) (id : Nat) : State :=
  countR (modCmd s id (fun v => { v with overPosted := true })) r_SCH_NP_OVERRUNS 0 1

theorem modCmd_eq {id : Nat} {c : Cmd} (hc : cmdOf s id = some c) (f : Cmd → Cmd) :
    modCmd s id f = { s with cmds := mput s.cmds id (f c) } := by
  have hc' : mfind s.cmds id = some c := hc
  simp only [modCmd, hc']

/-- How long a command has run does not depend on what is kept of it. -/
theorem ranFor_modCmd {id : Nat} {c : Cmd} (hc : cmdOf s id = some c) (f : Cmd → Cmd) :
    ranFor (modCmd s id f) id c = ranFor s id c := by
  rw [modCmd_eq hc]
  rfl

theorem npOverrun_exec {id : Nat} {c : Cmd} (hc : cmdOf s id = some c) (hnp : nonPreemptible c = true) (hstart : c.start.isSome = true)
    (hfin : c.fin = none) (hpost : c.overPosted = false) (hlong : getF s f_SCH_NP_MAX_US * usTicks < ranFor s id c) :
    exec (.npOverrun id) s = .next (postEvent (overrunCounted s id) c.win (overrunRecord s id c)) := by
  have hnot : c.start.isNone = false := by rw [← Option.not_isSome, hstart]; rfl
  have hqueue : queueOf (modCmd s id (fun v => { v with overPosted := true })) c.queue = queueOf s c.queue := by
    rw [modCmd_eq hc]
    rfl
  have hnow : (modCmd s id (fun v => { v with overPosted := true })).now = s.now := by rw [modCmd_eq hc]
  change execNpOverrun id s = _
  simp only [execNpOverrun, hc, hnp, hnot, hfin, hpost, Option.isSome_none, Nat.not_le.mpr hlong, decide_false, Bool.not_true,
    Bool.or_self, Bool.false_eq_true, if_false, hqueue, hnow,
    ranFor_modCmd hc]
  rfl

theorem overrunCounted_spec {id : Nat} {c : Cmd} (hc : cmdOf s id = some c) :
    (cmdOf (overrunCounted s id) id).map Cmd.overPosted = some true
    ∧ getR (overrunCounted s id) r_SCH_NP_OVERRUNS = (getR s r_SCH_NP_OVERRUNS + 1) % 2 ^ 64
    ∧ (overrunCounted s id).evHeld = s.evHeld := by
  unfold overrunCounted
  rw [modCmd_eq hc]
  refine ⟨?_, getR_countR_same .., rfl⟩
  change (mfind (mput s.cmds id { c with overPosted := true }) id).map Cmd.overPosted = some true
  rw [mfind_mput, if_pos rfl]
  rfl

end

end Sys2Proof.Machine
end

section
/-! O39, the teardown of a context (R301, R308, R394, R395). -/

namespace Sys2Proof.Machine

/-! ## The parts of a teardown in a quiet chip -/

section
variable {s : State} {space code : Nat}

/-- Removing the dispatches of Gate units that run none changes only what waits in them. -/
theorem dropDispatches_idle (h : ∀ w, (gateOf s w).run = none) (p : GateJob → Bool) :
    ∃ g, dropDispatches s p = { s with gates := g } := by
  unfold dropDispatches
  refine (List.foldlRecOn (motive := fun t : State => (∀ w, (gateOf t w).run = none) ∧ ∃ g, t = { s with gates := g }) _ _
    ⟨h, s.gates, rfl⟩ ?_).2
  rintro t ⟨hidle, g, ht⟩ w -
  have hrun : (gateOf (modGate t w (fun g => { g with waiting := g.waiting.filter (fun j => !p j) })) w).run = none := by
    rw [gateOf_modGate_self]
    exact hidle w
  dsimp only
  rw [hrun]
  refine ⟨fun w' => ?_, _, by rw [ht]; rfl⟩
  unfold gateOf modGate
  rw [mget_mput]
  split
  · exact hidle w
  · exact hidle w'

/-- Freed entries are unused, and stay so while others are freed. -/
theorem freeEntries_unused (l : List (Nat × TrackEntry)) {k : Nat} (h : (track s k).used = false ∨ k ∈ l.map Prod.fst) :
    (track (l.foldl (fun s kv => freeEntry s kv.1) s) k).used = false := by
  induction l generalizing s with
  | nil => simpa using h
  | cons kv l ih =>
    refine ih ?_
    have hfree : track (freeEntry s kv.1) k =
        if kv.1 = k then { TrackEntry.empty with instar := ((track s kv.1).instar + 1) % 256 } else track s k := mget_mput ..
    rw [hfree]
    by_cases hk : kv.1 = k
    · exact .inl (by rw [if_pos hk]; rfl)
    · rw [if_neg hk]
      rcases h with h | h
      · exact .inl h
      · exact .inr ((List.mem_cons.mp h).resolve_left (Ne.symm hk))

/-- Retiring entries while no tile waits changes only the tracker. -/
theorem retireEntries_idle (h : s.tiles = []) (p : TrackEntry → Bool) :
    ∃ m, retireEntries s p = { s with tracker := m }
      ∧ ∀ k, (track s k).used = true → p (track s k) = true → (track (retireEntries s p) k).used = false := by
  have hfold : ∀ l : List (Nat × TrackEntry), ∃ m, l.foldl (fun s kv => freeEntry s kv.1) s = { s with tracker := m } := fun l =>
    List.foldlRecOn (motive := fun t : State => ∃ m, t = { s with tracker := m }) _ _ ⟨s.tracker, rfl⟩
      (by rintro t ⟨m, rfl⟩ kv -; exact ⟨_, rfl⟩)
  have hretire : retireEntries s p = (s.tracker.filter (fun kv => kv.2.used && p kv.2)).foldl (fun s kv => freeEntry s kv.1) s := by
    obtain ⟨m, hm⟩ := hfold (s.tracker.filter (fun kv => kv.2.used && p kv.2))
    unfold retireEntries
    rw [hm]
    exact retryTiles_of_none_waits (by simp [h])
  obtain ⟨m, hm⟩ := hfold (s.tracker.filter (fun kv => kv.2.used && p kv.2))
  refine ⟨m, hretire.trans hm, fun k hu hp => ?_⟩
  rw [hretire]
  refine freeEntries_unused _ (.inr ?_)
  unfold track mget at hu hp
  cases hf : mfind s.tracker k with
  | none => rw [hf] at hu; exact absurd hu (by decide)
  | some e =>
    rw [hf] at hu hp
    exact List.mem_map.mpr ⟨(k, e), List.mem_filter.mpr ⟨mem_of_mfind hf, by rw [Bool.and_eq_true]; exact ⟨hu, hp⟩⟩, rfl⟩

/-! ## Commands that fail -/

theorem cmdOf_modCmd (s : State) (c : Nat) (f : Cmd → Cmd) (d : Nat) :
    cmdOf (modCmd s c f) d = if c = d then (cmdOf s d).map f else cmdOf s d := by
  unfold cmdOf modCmd
  by_cases h : c = d
  · subst h
    cases hx : mfind s.cmds c with
    | none => simp [hx]
    | some x => simp [mfind_mput]
  · cases mfind s.cmds c with
    | none => simp [h]
    | some x => simp [mfind_mput, h]

theorem finOf_modCmd (c : Nat) {f : Cmd → Cmd} (hf : ∀ v, (f v).fin = v.fin) (id : Nat) : finOf (modCmd s c f) id = finOf s id := by
  unfold finOf
  rw [cmdOf_modCmd]
  split
  · cases cmdOf s id with
    | none => rfl
    | some v => exact congrArg some (hf v)
  · rfl

/-- A command's end takes a code when it has none. -/
theorem finOf_endCmd (c code id : Nat) :
    finOf (endCmd s c code) id = if c = id then (finOf s id).map (fun f => some (f.getD code)) else finOf s id := by
  unfold finOf endCmd
  rw [cmdOf_modCmd]
  split
  · cases cmdOf s id with
    | none => rfl
    | some v => cases hf : v.fin <;> simp [hf]
  · rfl

/-- Fails a command that a teardown finds not complete, and counts it. -/
def failCmd (space code : Nat) (s : State) (kv : Nat × Cmd) : State :=
  let s := if kv.2.fin.isSome then s else endCmd s kv.1 code
  let s := modCmd s kv.1 (fun c => { c with start := some (c.start.getD s.now), quiet := true })
  if kv.2.fin = some 0 then s else modCtx s space (fun x => { x with failed := x.failed + 1 })

/-- It changes commands and the context. -/
theorem failCmd_frame (s : State) (space code : Nat) (kv : Nat × Cmd) : Agree 0x480000000000000000 s (failCmd space code s kv) := by
  have hend : Agree 0x480000000000000000 s (if kv.2.fin.isSome then s else endCmd s kv.1 code) := by
    split
    · exact Agree.refl _ _
    · exact (Agree.refl _ s).step (by decide) (endCmd_frame ..)
  have hmark := hend.step (by decide) (modCmd_frame (if kv.2.fin.isSome then s else endCmd s kv.1 code) kv.1
    (fun c => { c with start := some (c.start.getD (if kv.2.fin.isSome then s else endCmd s kv.1 code).now), quiet := true }))
  unfold failCmd
  dsimp only
  split
  · exact hmark
  · exact hmark.step (by decide) (modCtx_frame ..)

theorem finOf_modCtx (c : Nat) (f : Ctx → Ctx) (id : Nat) : finOf (modCtx s c f) id = finOf s id := by
  unfold finOf cmdOf
  rw [(modCtx_frame ..).cmds (by decide)]

theorem finOf_failCmd (s : State) (space code : Nat) (kv : Nat × Cmd) (id : Nat) : finOf (failCmd space code s kv) id =
    if kv.2.fin = none ∧ kv.1 = id then (finOf s id).map (fun f => some (f.getD code)) else finOf s id := by
  unfold failCmd
  dsimp only
  cases hfin : kv.2.fin with
  | none =>
    simp only [Option.isSome_none, Bool.false_eq_true, if_false, reduceCtorEq, true_and]
    rw [finOf_modCtx, finOf_modCmd _ (by exact fun _ => rfl), finOf_endCmd]
  | some n =>
    simp only [Option.isSome_some, if_true, reduceCtorEq, false_and, if_false]
    split
    · rw [finOf_modCmd _ (by exact fun _ => rfl)]
    · rw [finOf_modCtx, finOf_modCmd _ (by exact fun _ => rfl)]

theorem ctxOf_failCmd_isSome (s : State) (space code : Nat) (kv : Nat × Cmd) (d : Nat) :
    (ctxOf (failCmd space code s kv) d).isSome = (ctxOf s d).isSome := by
  have hmod : ∀ (c : Nat) (f : Cmd → Cmd) (s : State), ctxOf (modCmd s c f) d = ctxOf s d := fun c f s => by
    unfold ctxOf
    rw [(modCmd_frame ..).ctxs (by decide)]
  have hend : ∀ s : State, ctxOf (endCmd s kv.1 code) d = ctxOf s d := fun s => hmod _ _ s
  unfold failCmd
  dsimp only
  split <;> split <;> simp only [ctxOf_modCtx, hmod, hend] <;> split <;> simp only [Option.isSome_map]

/-- The state once the commands of a context have failed. -/
def cmdsFailed (s : State) (space code : Nat) : State := (cmdsOf s space).foldl (failCmd space code) s

theorem cmdsFailed_frame (s : State) (space code : Nat) : Agree 0x480000000000000000 s (cmdsFailed s space code) :=
  List.foldlRecOn (motive := fun t => Agree 0x480000000000000000 s t) _ _ (Agree.refl _ _)
    (fun _ ht kv _ => ht.step (by decide) (failCmd_frame _ space code kv))

theorem ctxOf_cmdsFailed_isSome (s : State) (space code d : Nat) :
    (ctxOf (cmdsFailed s space code) d).isSome = (ctxOf s d).isSome :=
  List.foldlRecOn (motive := fun t => (ctxOf t d).isSome = (ctxOf s d).isSome) _ _ rfl
    (fun _ ht kv _ => (ctxOf_failCmd_isSome _ space code kv d).trans ht)

/-- A command that has failed stays so, and one that has not ended fails. -/
theorem finOf_failCmds (l : List (Nat × Cmd)) {id : Nat} (hfin : finOf s id = some none ∨ finOf s id = some (some code))
    (h : finOf s id = some (some code) ∨ ∃ kv ∈ l, kv.1 = id ∧ kv.2.fin = none) :
    finOf (l.foldl (failCmd space code) s) id = some (some code) := by
  induction l generalizing s with
  | nil => simpa using h
  | cons kv l ih =>
    have hstep := finOf_failCmd s space code kv id
    by_cases hkv : kv.2.fin = none ∧ kv.1 = id
    · rw [if_pos hkv] at hstep
      have hnow : finOf (failCmd space code s kv) id = some (some code) := by rcases hfin with h | h <;> rw [hstep, h] <;> rfl
      exact ih (.inr hnow) (.inl hnow)
    · rw [if_neg hkv] at hstep
      refine ih (hstep ▸ hfin) ?_
      rw [hstep]
      refine h.imp (fun h => h) (fun ⟨x, hx, hid, hnone⟩ => ?_)
      rcases List.mem_cons.mp hx with rfl | hx
      · exact absurd ⟨hnone, hid⟩ hkv
      · exact ⟨x, hx, hid, hnone⟩

theorem finOf_cmdsFailed {id : Nat} {c : Cmd} (hc : cmdOf s id = some c) (hspace : c.space = space) (hfin : c.fin = none) :
    finOf (cmdsFailed s space code) id = some (some code) := by
  have hnone : finOf s id = some none := by rw [finOf, hc, Option.map_some, hfin]
  exact finOf_failCmds _ (.inl hnone)
    (.inr ⟨(id, c), List.mem_filter.mpr ⟨mem_of_mfind hc, by simpa using hspace⟩, rfl, hfin⟩)

end

/-! ## TEARDOWN_ABORT -/

section
variable {s : State} {space code : Nat} {t : DWord} {x : Ctx}

/-- The state once the context's dispatches are gone and its tracker entries retired. -/
def workDropped (s : State) (space : Nat) : State :=
  retireEntries (dropDispatches s (fun j => j.space = space)) (fun e => e.space = space)

/-- The state once the context's commands have failed and it has nothing saved. -/
def ctxAborted (s : State) (space code : Nat) : State :=
  modCtx (cmdsFailed (workDropped s space) space code) space (fun x => { x with
    downAborted := true, saved := [], cut := 0, drained := x.drained })

/-- The state once the instar of the context's slot has advanced. -/
def slotAborted (s : State) (slot : Option (Nat × SlotInfo)) : State :=
  match slot with
  | some (n, _) => advanceInstar (doomIf s (fun l => l.ctx = n)) (.slot n)
  | none => s

theorem gates_idle (h : Quiet s) (w : Nat) : (gateOf s w).run = none := by
  obtain ⟨-, -, hgates, -⟩ := h
  unfold gateOf
  rw [hgates]
  rfl

theorem dropDevice_idle (htiles : s.tiles = []) (hreqs : s.reqs = []) (space : Nat) : dropDevice s space = (0, s) := by
  have hdrop : ∀ p, dropTiles s p = s := fun p => by simp [dropTiles, htiles]
  simp [dropDevice, hdrop, abortReqs, hreqs]

theorem workDropped_spec (h : Quiet s) : ∃ g m, workDropped s space = { s with gates := g, tracker := m }
    ∧ ∀ k, (track s k).used = true → (track s k).space = space → (track (workDropped s space) k).used = false := by
  have hidle := gates_idle h
  obtain ⟨-, -, -, htiles, -⟩ := h
  obtain ⟨g, hg⟩ := dropDispatches_idle hidle (fun j => j.space = space)
  unfold workDropped
  rw [hg]
  obtain ⟨m, hm, hused⟩ := retireEntries_idle (s := { s with gates := g }) htiles (fun e => e.space = space)
  exact ⟨g, m, hm, fun k hu hsp => hused k hu (decide_eq_true hsp)⟩

theorem teardownAbort_exec (hx : ctxOf s space = some x) (hdown : x.down = some (code, t)) (hab : x.downAborted = false)
    (hdue : due s t (100 * usTicks) = true) (h : Quiet s) : exec (.teardownAbort space) s =
    .next (startFlush (slotAborted (ctxAborted s space code) (slotOf s space)) x.win space (some space)) := by
  have hidle := gates_idle h
  obtain ⟨hkernels, hmovers, -, htiles, -, hreqs, -⟩ := h
  have hlinks : ∀ n, abortLinks s space n = s := fun n => by simp [abortLinks, spaceReqs, hreqs, List.eraseDups]
  have hdescs : ∀ p, dropAllDescs s p = (0, [], s) := fun p => by simp [dropAllDescs, hmovers]
  have hdevice : dropDevice (dropDispatches s (fun j => j.space = space)) space = (0, dropDispatches s (fun j => j.space = space)) := by
    obtain ⟨g, hg⟩ := dropDispatches_idle hidle (fun j => j.space = space)
    rw [hg]
    exact dropDevice_idle (s := { s with gates := g }) htiles hreqs space
  change execTeardownAbort space s = _
  simp only [execTeardownAbort, hx, hdown, hab, hdue, Bool.not_true, Bool.or_self, Bool.false_eq_true, if_false, hlinks, hkernels,
    List.filter_nil, List.map_nil, List.foldl_nil, hdescs, hdevice, Nat.add_zero, Nat.sub_zero]
  rfl

/-! ### What it leaves -/

theorem ctxAborted_frame (s : State) (space code : Nat) : Agree 0x480000000000000000 (workDropped s space) (ctxAborted s space code) :=
  (cmdsFailed_frame ..).step (by decide) (modCtx_frame ..)

theorem slotAborted_frame (s : State) (slot : Option (Nat × SlotInfo)) :
    Agree 0x10004000000000000000000702000000000 s (slotAborted s slot) := by
  unfold slotAborted
  split
  · exact ((Agree.refl _ s).step (by decide) (doomIf_frame ..)).step (by decide) (advanceInstar_frame ..)
  · exact Agree.refl _ _

/-- An instar that may advance does, modulo 256. -/
theorem instarOf_advanceInstar_slot {k : Nat} (hready : instarReady s (.slot k) = true)
    (hdue : mget 0 s.instarDue (Unit8.slot k).key = 0) :
    instarOf (advanceInstar s (.slot k)) (.slot k) = (instarOf s (.slot k) + 1) % 256 := by
  have hnow : advanceInstar s (.slot k) = stepInstar s (.slot k) := by
    unfold advanceInstar
    rw [if_pos (by rw [hready, hdue]; rfl)]
  rw [hnow]
  change getF (setF s f_SCH_SLOT_INSTAR k ((instarOf s (.slot k) + 1) % 256)) f_SCH_SLOT_INSTAR k = _
  rw [getF_setF _ _ _ _ _ (by decide)]
  exact Nat.mod_mod _ _

/-- The squash of landing slots changes no slot's instar. -/
theorem instar_doomIf (s : State) (p : LandSlot → Bool) (k : Nat) : instarOf (doomIf s p) (.slot k) = instarOf s (.slot k)
    ∧ instarReady (doomIf s p) (.slot k) = instarReady s (.slot k) ∧ (doomIf s p).instarDue = s.instarDue := by
  rw [doomIf_landing]
  exact ⟨rfl, rfl, rfl⟩

/-- A teardown's flush begins: it keeps contexts, commands, the tracker and registers. -/
theorem startFlush_teardown (htiles : s.tiles = []) (win : Nat) :
    let s' := startFlush s win space (some space)
    s'.ctxs = s.ctxs ∧ s'.cmds = s.cmds ∧ s'.tracker = s.tracker ∧ s'.regs = s.regs
    ∧ ∃ kv ∈ s'.invals, kv.2.teardown = some space := by
  intro s'
  have hheld : NoneHeld s .space space := by
    intro kv hkv
    rw [htiles] at hkv
    cases hkv
  obtain ⟨land, reqs, slots, outs, heq⟩ := startInval_noneHeld s
    ⟨win, none, .space, space, none, [], [], [], [], s.now, false, some space⟩ hheld
  have hs' : s' = _ := heq
  rw [hs']
  exact ⟨rfl, rfl, rfl, rfl, _, mem_of_mfind ((mfind_mput ..).trans (if_pos rfl)), rfl⟩

/-- What TEARDOWN_ABORT leaves of a context, its commands and its tracker entries, before its slot and the flush. -/
theorem ctxAborted_spec (h : Quiet s) (hx : ctxOf s space = some x) :
    (ctxOf (ctxAborted s space code) space).map (fun y => (y.downAborted, y.saved.length)) = some (true, 0)
    ∧ (∀ id c, cmdOf s id = some c → c.space = space → c.fin = none → finOf (ctxAborted s space code) id = some (some code))
    ∧ (∀ k, (track s k).used = true → (track s k).space = space → (track (ctxAborted s space code) k).used = false)
    ∧ (ctxAborted s space code).tiles = s.tiles
    ∧ ∀ k, instarOf (ctxAborted s space code) (.slot k) = instarOf s (.slot k)
      ∧ instarReady (ctxAborted s space code) (.slot k) = instarReady s (.slot k)
      ∧ (ctxAborted s space code).instarDue = s.instarDue := by
  obtain ⟨g, m, hwork, hused⟩ := workDropped_spec (space := space) h
  have hframe := ctxAborted_frame s space code
  have hsome : (ctxOf (workDropped s space) space).isSome = true := by rw [hwork]; exact Option.isSome_of_eq_some hx
  refine ⟨?_, fun id c hc hsp hfin => ?_, fun k hu hsp => ?_, ?_, fun k => ⟨?_, ?_, ?_⟩⟩
  · rw [← ctxOf_cmdsFailed_isSome _ space code] at hsome
    obtain ⟨y, hy⟩ := Option.isSome_iff_exists.mp hsome
    rw [ctxAborted, ctxOf_modCtx, if_pos rfl, hy]
    rfl
  · rw [ctxAborted, finOf_modCtx]
    exact finOf_cmdsFailed (by rw [hwork]; exact hc) hsp hfin
  · unfold track
    rw [hframe.tracker (by decide)]
    exact hused k hu hsp
  · rw [hframe.tiles (by decide), hwork]
  · change getF _ _ _ = getF _ _ _
    rw [hframe.getF_same (by decide) (by decide), hwork]
    rfl
  · unfold instarReady
    rw [hframe.instarAt (by decide), hwork]
    cases mfind s.instarAt (Unit8.slot k).key with
    | none => rfl
    | some t =>
      unfold due since
      rw [hframe.now (by decide), hwork]
  · rw [hframe.instarDue (by decide), hwork]

/-- What TEARDOWN_ABORT leaves: a teardown's flush has begun, and the instar of the context's slot has advanced. -/
theorem teardownAbort_spec (h : Quiet s) (hx : ctxOf s space = some x) :
    let s' := startFlush (slotAborted (ctxAborted s space code) (slotOf s space)) x.win space (some space)
    (ctxOf s' space).map (fun y => (y.downAborted, y.saved.length)) = some (true, 0)
    ∧ (∀ id c, cmdOf s id = some c → c.space = space → c.fin = none → finOf s' id = some (some code))
    ∧ (∀ k, (track s k).used = true → (track s k).space = space → (track s' k).used = false)
    ∧ (∀ k e, slotOf s space = some (k, e) → k < 64 → instarReady s (.slot k) = true →
      mget 0 s.instarDue (Unit8.slot k).key = 0 →
      instarOf s' (.slot k) = (instarOf s (.slot k) + 1) % 256)
    ∧ ∃ kv ∈ s'.invals, kv.2.teardown = some space := by
  intro s'
  obtain ⟨hctx, hfin, htrack, htiles, hinstar⟩ := ctxAborted_spec (code := code) h hx
  obtain ⟨-, -, -, hnone, -⟩ := h
  have hframe := slotAborted_frame (ctxAborted s space code) (slotOf s space)
  obtain ⟨hctxs, hcmds, htr, hregs, hinval⟩ := startFlush_teardown (space := space)
    ((hframe.tiles (by decide)).trans (htiles.trans hnone)) x.win
  replace hctxs := hctxs.trans (hframe.ctxs (by decide))
  replace hcmds := hcmds.trans (hframe.cmds (by decide))
  replace htr := htr.trans (hframe.tracker (by decide))
  refine ⟨?_, fun id c hc hsp hf => ?_, fun k hu hsp => ?_, fun k e hslot _ hready hdue => ?_, hinval⟩
  · unfold ctxOf at hctx ⊢
    rw [hctxs]
    exact hctx
  · have := hfin id c hc hsp hf
    unfold finOf cmdOf at this ⊢
    rw [hcmds]
    exact this
  · unfold track at htrack ⊢
    rw [htr]
    exact htrack k hu hsp
  · obtain ⟨hin, hre, hdu⟩ := hinstar k
    have hslotted : slotAborted (ctxAborted s space code) (slotOf s space) =
        advanceInstar (doomIf (ctxAborted s space code) (fun l => l.ctx = k)) (.slot k) := by rw [hslot]; rfl
    obtain ⟨hin', hre', hdu'⟩ := instar_doomIf (ctxAborted s space code) (fun l => l.ctx = k) k
    have hread : instarOf s' (.slot k) = instarOf (slotAborted (ctxAborted s space code) (slotOf s space)) (.slot k) := by
      change getF _ _ _ = getF _ _ _
      unfold getF
      rw [getR_of_regs_eq hregs]
    rw [hread, hslotted, instarOf_advanceInstar_slot (hre'.trans (hre.trans hready)) (by rw [hdu', hdu, hdue]), hin', hin]

end

end Sys2Proof.Machine
end

section
/-! O39, the end of a teardown (R394, R400). -/

namespace Sys2Proof.Machine

section
variable {s t : State} {space code k : Nat} {x : Ctx} {e : SlotInfo}

/-! ## The scheduler adds no context -/

theorem ctxOf_modCtx_none (c : Nat) (f : Ctx → Ctx) {d : Nat} (h : ctxOf s d = none) : ctxOf (modCtx s c f) d = none := by
  rw [ctxOf_modCtx, h]
  exact ite_self _

theorem ctxOf_chooseHolder (i : Nat) (l : List Nat) (d : Nat) : ctxOf (chooseHolder s i l).2 d = ctxOf s d := by
  unfold chooseHolder
  split
  · rfl
  · dsimp only
    split <;> rfl

theorem ctxOf_setSlotState (c st d : Nat) : ctxOf (setSlotState s c st) d = ctxOf s d := by
  unfold setSlotState
  split <;> rfl

theorem ctxOf_setHolder (i : Nat) (c : Option Nat) (d : Nat) : ctxOf (setHolder s i c) d = ctxOf s d := by
  unfold setHolder
  split
  · rfl
  · exact ctxOf_setSlotState ..

theorem ctxOf_handOver (i old : Nat) (new : Option Nat) (d : Nat) : ctxOf (handOver s i old new) d = ctxOf s d :=
  (ctxOf_setHolder ..).trans (ctxOf_setSlotState ..)

theorem ctxOf_startSlice_none (i c : Nat) {d : Nat} (h : ctxOf s d = none) : ctxOf (startSlice s i c) d = none := by
  unfold startSlice
  split
  · exact h
  · exact ctxOf_modCtx_none _ _ h

theorem ctxOf_schedule_none (i : Nat) {d : Nat} (h : ctxOf s d = none) : ctxOf (schedule s i) d = none := by
  unfold schedule
  dsimp only
  split
  · exact h
  · split
    · split
      · exact (ctxOf_chooseHolder ..).trans h
      · exact ctxOf_startSlice_none _ _ ((ctxOf_setHolder ..).trans ((ctxOf_chooseHolder ..).trans h))
    · split
      · exact (ctxOf_handOver ..).trans ((ctxOf_chooseHolder ..).trans (ctxOf_modCtx_none _ _ h))
      · split
        · exact ctxOf_startSlice_none _ _ h
        · split
          · split
            · split
              · exact ctxOf_startSlice_none _ _ ((ctxOf_chooseHolder ..).trans h)
              · exact (ctxOf_handOver ..).trans ((ctxOf_chooseHolder ..).trans h)
            · exact (ctxOf_chooseHolder ..).trans h
          · split
            · exact (ctxOf_handOver ..).trans ((ctxOf_chooseHolder ..).trans h)
            · exact h

/-! ## Queues that are destroyed -/

theorem queueOf_destroyQueue (q d : Nat) : queueOf (destroyQueue s q) d = if q = d then none else queueOf s d := by
  unfold destroyQueue queueOf
  dsimp only
  rw [(advanceInstar_frame ..).queues (by decide)]
  dsimp only
  rw [(writeStatus_frame ..).queues (by decide), mfind_mdel]
  by_cases h : q = d
  · rw [if_pos h, if_pos h]
  · rw [if_neg h, if_neg h, modQueue]
    split
    · rfl
    · exact (mfind_mput ..).trans (if_neg h)

theorem queueOf_destroyQueues (l : List Nat) {d : Nat} (h : d ∈ l ∨ queueOf s d = none) :
    queueOf (l.foldl destroyQueue s) d = none := by
  induction l generalizing s with
  | nil => simpa using h
  | cons q l ih =>
    refine ih ?_
    rw [queueOf_destroyQueue]
    by_cases hq : q = d
    · exact .inr (if_pos hq)
    · rw [if_neg hq]
      exact h.imp (fun h => (List.mem_cons.mp h).resolve_left (Ne.symm hq)) (fun h => h)

/-! ## QUIESCE -/

/-- The state once the context's queues and collectives are gone, and cores keep nothing of it. -/
def queuesGone (s : State) (space : Nat) : State :=
  forgetSpace (dropColls ((queuesOf s space).foldl destroyQueue s) space) space

/-- The state once the context's directory entry is clear. -/
def dirCleared (s : State) (space : Nat) : State :=
  { s with host := memPut s.host (getF s f_SCH_CTX_DIR_ADDR * 4096 + 8 * space) (List.replicate 8 0) }

/-- The state once slot `k` is free: it keeps its instar. -/
def slotFreed (s : State) (k : Nat) : State :=
  setR { s with slots := mdel s.slots k } r_SCH_SLOT k (instarOf s (.slot k) * 2 ^ 24)

/-- The state once a context is none. -/
def ctxForgotten (s : State) (space : Nat) : State :=
  { s with ctxs := mdel s.ctxs space, objs := s.objs.filter (fun kv => kv.1 / 2 ^ 24 ≠ space) }

/-- The QUIESCE record of a context of slot `k`. -/
def quiesceRecord (s : State) (space code k : Nat) (x : Ctx) : List Byte :=
  eventRecord 0x12 code space (k + 256 * instarOf s (.slot k)) x.failed (x.drained + x.cut * 2 ^ 32) s.now

/-- The state once the context of slot `k` is gone, and the record posted. -/
def ctxGone (s : State) (space code k : Nat) (x : Ctx) : State :=
  postEvent (ctxForgotten (slotFreed (dirCleared s space) k) space) x.win (quiesceRecord (dirCleared s space) space code k x)

theorem queuesGone_frame (s : State) (space : Nat) : (queuesGone s space).ctxs = s.ctxs ∧ (queuesGone s space).slots = s.slots := by
  have hfold : ((queuesOf s space).foldl destroyQueue s).ctxs = s.ctxs ∧ ((queuesOf s space).foldl destroyQueue s).slots = s.slots :=
    List.foldlRecOn (motive := fun t : State => t.ctxs = s.ctxs ∧ t.slots = s.slots) _ _ ⟨rfl, rfl⟩ (fun t ht q _ =>
      ⟨((destroyQueue_frame t q).ctxs (by decide)).trans ht.1, ((destroyQueue_frame t q).slots (by decide)).trans ht.2⟩)
  exact ⟨((dropColls_frame ..).ctxs (by decide)).trans hfold.1, ((dropColls_frame ..).slots (by decide)).trans hfold.2⟩

theorem queueOf_queuesGone {q : Nat} (h : q ∈ queuesOf s space) : queueOf (queuesGone s space) q = none := by
  have hq : (queuesGone s space).queues = ((queuesOf s space).foldl destroyQueue s).queues := (dropColls_frame ..).queues (by decide)
  unfold queueOf
  rw [hq]
  exact queueOf_destroyQueues _ (.inl h)

theorem slotOf_queuesGone (s : State) (space d : Nat) : slotOf (queuesGone s space) d = slotOf s d := by
  obtain ⟨hctxs, hslots⟩ := queuesGone_frame s space
  unfold slotOf
  rw [hctxs, hslots]

/-- Nothing holds a context's destruction up. -/
def MayQuiesce (s : State) (space k : Nat) (x : Ctx) : Prop :=
  (∀ kv ∈ s.invals, kv.2.teardown ≠ some space) ∧ cmdsOf s space = [] ∧ NoneFreeing s
  ∧ (∀ q ∈ queuesOf s space, ∀ v, queueOf s q = some v → v.head = v.tail)
  ∧ (∀ kv ∈ s.landing, kv.2.ctx ≠ k) ∧ mget 0 s.instarDue (Unit8.slot k).key = 0 ∧ evRoom s x.win = true
  ∧ ∀ q ∈ queuesOf s space, instarReady s (.queue q) = true ∧ mget 0 s.instarDue (Unit8.queue q).key = 0

theorem quiesce_exec (hx : ctxOf s space = some x) {c : Nat} {d : DWord} (hdown : x.down = some (c, d)) (hab : x.downAborted = true)
    (hslot : slotOf s space = some (k, e)) (h : MayQuiesce s space k x) :
    exec (.quiesce space) s = .next (schedule (ctxGone (queuesGone s space) space c k x) x.inst) := by
  obtain ⟨hinval, hcmds, hfree, hqueues, hland, hdue, hroom, hinstars⟩ := h
  have hflush : s.invals.any (fun kv => kv.2.teardown = some space) = false := by simpa using fun a b hm => hinval (a, b) hm
  have hheads : (queuesOf s space).any (fun q => ((queueOf s q).map (fun v => decide (v.head ≠ v.tail))).getD false) = false := by
    refine List.any_eq_false.mpr (fun q hq => ?_)
    cases hv : queueOf s q with
    | none => simp
    | some v => simp [hqueues q hq v hv]
  have hobjs : s.objs.any (fun kv => decide (kv.1 / 2 ^ 24 = space) && kv.2.freeing) = false :=
    List.any_eq_false.mpr (fun kv hkv => by simp [hfree kv hkv])
  have hlanding : s.landing.any (fun kv => decide ((slotOf s space).map Prod.fst = some kv.2.ctx)) = false :=
    List.any_eq_false.mpr (fun kv hkv => by simpa [hslot] using (hland kv hkv).symm)
  have hadvance : (queuesOf s space).any
      (fun q => !instarReady s (.queue q) || decide (mget 0 s.instarDue (Unit8.queue q).key ≠ 0)) = false :=
    List.any_eq_false.mpr (fun q hq => by simp [hinstars q hq])
  change execQuiesce space s = _
  unfold execQuiesce
  simp only [hx, hdown]
  rw [hflush, hheads, hcmds, hobjs, hlanding, hadvance]
  simp only [hab, hslot, hdue, hroom, ne_eq, not_true_eq_false, decide_false, List.isEmpty_nil, Bool.not_true, Bool.and_false,
    Bool.or_self, Bool.true_or, Bool.false_eq_true, if_false]
  have hslot' : ∀ host, slotOf { forgetSpace (dropColls ((queuesOf s space).foldl destroyQueue s) space) space with
      host := host } space = some (k, e) := fun host => (slotOf_queuesGone s space space).trans hslot
  rw [hslot']
  unfold ctxGone quiesceRecord ctxForgotten slotFreed dirCleared queuesGone
  rfl

/-! ### What it leaves -/

theorem ctxGone_spec (s : State) (space code k : Nat) (x : Ctx) : ctxOf (ctxGone s space code k x) space = none
    ∧ mfind (ctxGone s space code k x).slots k = none ∧ (ctxGone s space code k x).queues = s.queues
    ∧ (ctxGone s space code k x).host = (dirCleared s space).host
    ∧ Posts s (ctxGone s space code k x) x.win [quiesceRecord (dirCleared s space) space code k x] := by
  have hrecord : keptRecord (quiesceRecord (dirCleared s space) space code k x) = true := rfl
  unfold ctxGone
  refine ⟨?_, ?_, (postEvent_frame ..).queues (by decide), (postEvent_frame ..).host (by decide), ?_⟩
  · unfold ctxOf
    rw [(postEvent_frame ..).ctxs (by decide)]
    exact mfind_mdel_same _ _
  · rw [(postEvent_frame ..).slots (by decide)]
    exact mfind_mdel_same _ _
  · unfold Posts postEvent
    dsimp only
    rw [if_neg (by simp [hrecord])]
    exact (mget_mput ..).trans (if_pos rfl)

theorem dirCleared_entry (s : State) (space : Nat) :
    memBytes (dirCleared s space).host (getF s f_SCH_CTX_DIR_ADDR * 4096 + 8 * space) 8 = List.replicate 8 0 :=
  memBytes_memPut_same s.host (getF s f_SCH_CTX_DIR_ADDR * 4096 + 8 * space) (List.replicate 8 0)

/-- A context without queues and collectives has none to give up. -/
theorem queuesGone_idle (hqueues : queuesOf s space = []) (hcolls : s.colls = []) : queuesGone s space = forgetSpace s space := by
  unfold queuesGone dropColls
  rw [hqueues, List.foldl_nil, hcolls]
  rfl

theorem quiesce_spec (s : State) (space code k i : Nat) (x : Ctx) :
    let s' := schedule (ctxGone (queuesGone s space) space code k x) i
    ctxOf s' space = none ∧ mfind s'.slots k = none ∧ (∀ q, q ∈ queuesOf s space → queueOf s' q = none)
    ∧ (queuesOf s space = [] → s.colls = [] →
      memBytes s'.host (getF s f_SCH_CTX_DIR_ADDR * 4096 + 8 * space) 8 = List.replicate 8 0
      ∧ Posts s s' x.win [quiesceRecord s space code k x]) := by
  intro s'
  obtain ⟨hctx, hslots, hqueues, hhost, hpost⟩ := ctxGone_spec (queuesGone s space) space code k x
  have hframe := schedule_frame (ctxGone (queuesGone s space) space code k x) i
  refine ⟨ctxOf_schedule_none i hctx, ?_, fun q hq => ?_, fun hnoq hnoc => ⟨?_, ?_⟩⟩
  · rw [hframe.slots (by decide)]
    exact hslots
  · have hgone := queueOf_queuesGone hq
    unfold queueOf at hgone ⊢
    rw [hframe.queues (by decide), hqueues, hgone]
  · rw [hframe.host (by decide), hhost, queuesGone_idle hnoq hnoc]
    exact dirCleared_entry (forgetSpace s space) space
  · rw [queuesGone_idle hnoq hnoc] at hpost hframe
    unfold Posts at hpost ⊢
    have hheld : s'.evHeld = (ctxGone (forgetSpace s space) space code k x).evHeld := by
      rw [← queuesGone_idle hnoq hnoc]
      exact (schedule_frame ..).evHeld (by decide)
    rw [hheld, hpost]
    rfl

end

end Sys2Proof.Machine
end

section
/-! O39, its parts together. -/

namespace Sys2Proof.Machine

/-- Settles O39: a lemma for each decision of the scheduler, for the end of a handover, for a command that runs too long, for
TEARDOWN_ABORT and QUIESCE, and for each event of the queues of records. -/
theorem schedulingTeardownAndEvents : Obligations.SchedulingTeardownAndEvents := by
  unfold Obligations.SchedulingTeardownAndEvents
  refine ⟨⟨?_, ?_, ?_⟩, ?_, ?_, ?_, ?_, ?_⟩
  · intro i s hi hold hfence
    refine ⟨?_, ?_, ?_, ?_, ?_⟩
    · intro hno hready
      exact gives_of_eq (sliceEnd_exec i s) (schedule_idle hi hold hfence hno hready) rfl
    · intro c k e x hno hready hd hslot hk hx hleft
      exact gives_of_eq (sliceEnd_exec i s) (schedule_first hi hold hfence hno hready hd) (startHolder_spec hslot hk hx hleft)
    · intro h c k e kh eh hh hhigher hd hslot hslot' hne hk hkh
      obtain ⟨-, hslots, -, hdisp⟩ := displacedBy_spec s i h
      obtain ⟨hholder, hstate, hyield, hold', hstart, hdisp'⟩ := handOver_some_spec (i := i) (s := displacedBy s i h)
        ((hslots c).trans hslot) ((hslots h).trans hslot') hne hk hkh
      exact gives_of_eq (sliceEnd_exec i s) (schedule_displace hi hold hfence hh hhigher hd)
        ⟨hholder, hstate, hyield, hold', hstart, by rw [hdisp', hdisp, hd, List.nil_append]⟩
    · intro h hh hhigher hrivals hsome hwork hover
      obtain ⟨x, hx⟩ := Option.isSome_iff_exists.mp hsome
      obtain ⟨hregs, hstart, hold', -⟩ := startSlice_spec (i := i) hx
      exact gives_of_eq (sliceEnd_exec i s) (schedule_renew hi hold hfence hh hhigher hrivals hwork hover)
        ⟨hstart, hold'.trans hold, hregs⟩
    · intro h kh eh hh hready hnoready hnorun hover hslot hkh
      exact gives_of_eq (sliceEnd_exec i s) (schedule_yield hi hold hfence hh hready hnoready hnorun hover)
        (handOver_none_spec hslot hkh)
  · intro i o h k s e x y hi ho hcores hnp hstop hh hslot hk hne hx hy hoh
    obtain ⟨hregs, -, hnow, hold, hdebt, hothers⟩ := handedBack_spec (i := i) hslot hx
    obtain ⟨hregs', hstart, hold', -, hothers'⟩ := startSlice_spec (i := i) ((hothers h hoh.symm).trans hy)
    refine ⟨_, handoverComplete_exec ho hcores hnp hstop (holderOf_handedBack hi hh hslot hk hne hx), hold'.trans hold,
      hstart.trans (congrArg _ hnow), ?_, (congrArg _ (hothers' o hoh)).trans hdebt⟩
    rw [slotState_of_regs_eq (hregs'.trans hregs), slotState_setF]
    rfl
  · intro id s c hc hnp hstart hfin hpost hlong hroom
    obtain ⟨hover, hcount, hheld⟩ := overrunCounted_spec hc
    refine ⟨_, npOverrun_exec hc hnp hstart hfin hpost hlong, ?_⟩
    rw [postEvent_room (by rw [hheld]; exact hroom), hheld]
    exact ⟨hover, hcount, (mget_mput ..).trans (if_pos rfl)⟩
  · intro space code t s x hx hdown hab hdue hquiet
    exact ⟨_, teardownAbort_exec hx hdown hab hdue hquiet, teardownAbort_spec hquiet hx⟩
  · intro space code k t s x e hx hdown hab hinval hcmds hfree hqueues hslot _ hland hdue hroom hinstars
    exact ⟨_, quiesce_exec hx hdown hab hslot ⟨hinval, hcmds, hfree, hqueues, hland, hdue, hroom, hinstars⟩,
      quiesce_spec s space code k x.inst x⟩
  · intro win s r rest _ h hlen hroom
    refine ⟨_, eventRecordPost_exec h hroom, ?_, ?_, ?_, eqPosted_armed⟩
    · rw [(notifyQueue_frame ..).evHeld (by decide)]
      exact (mget_mput ..).trans (if_pos rfl)
    · rw [(notifyQueue_frame ..).host (by decide)]
      have hback := memBytes_memPut_same s.host
        (getF s f_EVT_EQ_BASE_ADDR 0 win * 4096 + 64 * getF s f_EVT_EQ_TAIL_INDEX 0 win) (eqEntry s win r)
      rw [eqEntry_length hlen] at hback
      exact hback
    · rw [(notifyQueue_frame ..).getF_same (by decide) (by decide), eqPosted, getF_setF _ _ _ _ _ (by decide)]
  · intro win q s _ _
    exact ⟨fun hdue hw => ⟨_, (msixSend_exec s win q).1 hdue hw, rfl, (mfind_mput ..).trans (if_pos rfl), rfl⟩,
      fun h => ⟨_, (msixSend_exec s win q).2 h, rfl⟩⟩
  · intro win v s _
    exact ⟨⟨_, rfl, (armQueue_spec _ win 1).1, getF_armQueue_setF s v win 1 (by decide)⟩,
      ⟨_, rfl, (armQueue_spec _ win 0).1, getF_armQueue_setF s v win 0 (by decide)⟩⟩

end Sys2Proof.Machine
end

section
/-! O33: the verification of a composition and its end (R317, R318, R335, R339, R353). -/

namespace Sys2Proof.Machine

/-! ## The end of a verification (R318, R339) -/

theorem fwReply_fwq (s : State) (r : FwReq) (result : Nat) (rest : List Nat) : (fwReply s r result rest).fwq = s.fwq :=
  (fwMail_frame ..).fwq (by decide)

theorem length_fwSettleN_le (n : Nat) (s : State) : (fwSettleN s n).fwq.length ≤ s.fwq.length := by
  induction n generalizing s with
  | zero => exact le_rfl
  | succ n ih =>
    rw [fwSettleN]
    cases hq : s.fwq with
    | nil => simp [hq]
    | cons r rest =>
      dsimp only
      split
      · simp [hq]
      · refine (ih _).trans ?_
        rw [fwReply_fwq, List.length_cons]
        exact Nat.le_succ _

/-- A request that has ended has left firmware's queue. -/
theorem length_fwEnd_lt {s : State} (r : FwReq) (result : Nat) (rest : List Nat) (h : s.fwq ≠ []) :
    (fwEnd s r result rest).fwq.length < s.fwq.length := by
  refine (length_fwSettleN_le _ _).trans_lt ?_
  rw [fwReply_fwq, List.length_drop]
  exact Nat.sub_lt (List.length_pos_iff.mpr h) Nat.one_pos

theorem fwq_ne_nil_of_fwFront {s : State} {type : Nat} {r : FwReq} (h : fwFront s type = some r) : s.fwq ≠ [] := by
  intro hq
  simp [fwFront, hq] at h

/-- The word that CMP_LAST takes at the end of a verification (R318). -/
def lastWord (code rec' epoch imago : Nat) : Nat :=
  code + rec' % 2 ^ 16 * 2 ^ 16 + epoch % 2 ^ 16 * 2 ^ 32 + (if decide (imago = 0xFF) then 0 else imago % 32) * 2 ^ 48
    + b2n (decide (imago = 0xFF)) * 2 ^ 53 + 2 ^ 63

theorem lastWord_fields {code : Nat} (rec' epoch imago : Nat) (hcode : code < 2 ^ 16) : let w := lastWord code rec' epoch imago
    w < 2 ^ 64 ∧ bitsOf w 0 16 = code ∧ bitsOf w 16 16 = rec' % 2 ^ 16 ∧ bitsOf w 32 16 = epoch % 2 ^ 16
      ∧ bitsOf w 53 1 = b2n (decide (imago = 0xFF)) ∧ bitsOf w 63 1 = 1 := by
  have hi : (if decide (imago = 0xFF) then 0 else imago % 32) < 32 := by split <;> omega
  have hb : b2n (decide (imago = 0xFF)) < 2 := by unfold b2n; split <;> decide
  unfold lastWord bitsOf
  generalize (if decide (imago = 0xFF) then 0 else imago % 32) = a at hi
  generalize b2n (decide (imago = 0xFF)) = b at hb
  dsimp only
  omega

/-- What a verification ends with, whatever the state it ends in has kept of the first one but for firmware's queue. -/
theorem composed_composeEnd {s t : State} (r : FwReq) {code : Nat} (rec' epoch imago : Nat) (hq : t.fwq = s.fwq) (hne : s.fwq ≠ [])
    (hcode : code < 2 ^ 16) : Composed s (composeEnd t r code rec' epoch imago) code rec' epoch imago := by
  have heq : composeEnd t r code rec' epoch imago = fwEnd
      { setR (setR t r_CMP_LAST 0 (lastWord code rec' epoch imago)) r_CMP_STATUS 0 0 with verif := none } r code [rec', epoch] := rfl
  generalize hu : { setR (setR t r_CMP_LAST 0 (lastWord code rec' epoch imago)) r_CMP_STATUS 0 0 with verif := none } = u at heq
  have hreg (q : Reg) : getR (fwEnd u r code [rec', epoch]) q = getR u q := (fwEnd_frame ..).getR_same (by decide) (by decide) q 0 0
  obtain ⟨hlt, hresult, hrecord, hepoch, hpool, hvalid⟩ := lastWord_fields rec' epoch imago hcode
  have hlast : getR (fwEnd u r code [rec', epoch]) r_CMP_LAST = lastWord code rec' epoch imago := by
    rw [hreg, ← hu]
    refine (getR_setR ..).trans ?_
    rw [if_neg (by decide), getR_setR_same, Nat.mod_eq_of_lt hlt]
  have hstatus : getR (fwEnd u r code [rec', epoch]) r_CMP_STATUS = 0 := by
    rw [hreg, ← hu]
    exact getR_setR_same ..
  have hfwq : u.fwq = s.fwq := by rw [← hu, ← hq]; rfl
  rw [heq]
  refine ⟨(congrArg (bitsOf · 0 16) hlast).trans hresult, (congrArg (bitsOf · 16 16) hlast).trans hrecord,
    (congrArg (bitsOf · 32 16) hlast).trans hepoch, (congrArg (bitsOf · 53 1) hlast).trans hpool, ?_, hstatus, ?_, ?_⟩
  · exact decide_eq_true (ne_of_eq_of_ne ((congrArg (bitsOf · 63 1) hlast).trans hvalid) Nat.one_ne_zero)
  · rw [(fwEnd_frame ..).verif (by decide), ← hu]
  · rw [← hfwq]
    exact length_fwEnd_lt r code _ (hfwq.trans_ne hne)

/-! ## A verification that fails, or passes (R335, R353) -/

/-- What each step of a fold keeps, the fold keeps. -/
theorem foldl_keeps {α β γ : Type} (p : β → γ) {f : β → α → β} (hf : ∀ b x, p (f b x) = p b) (l : List α) (b : β) :
    p (l.foldl f b) = p b := by
  induction l generalizing b with
  | nil => rfl
  | cons x l ih => exact (ih _).trans (hf b x)

theorem sendLease_fwq (s : State) (l : Lease) (op epoch : Nat) : (sendLease s l op epoch).fwq = s.fwq :=
  (sendLease_frame ..).fwq (by decide)

theorem foldl_sendLease_fwq (l : List (Nat × Lease)) (op epoch : Nat) (s : State) :
    (l.foldl (fun u x => sendLease u x.2 op epoch) s).fwq = s.fwq :=
  foldl_keeps State.fwq (fun _ _ => sendLease_fwq ..) l s

theorem composed_verifEnd {s t : State} (r : FwReq) (v : Verif) {code : Nat} (rec' : Nat) (hq : t.fwq = s.fwq) (hne : s.fwq ≠ [])
    (hcode : code < 2 ^ 16) : Composed s (verifEnd t r v code rec') code rec' v.epoch v.imago := by
  unfold verifEnd
  refine composed_composeEnd r rec' v.epoch v.imago ?_ hne hcode
  have hfold := (foldl_sendLease_fwq v.won leaseRelease v.epoch t).trans hq
  cases v.inst with
  | none => exact hfold
  | some i =>
    dsimp only
    split
    · rw [setF_fwq, hfold]
    · exact hfold

/-- A verification that is admitted and asks for nothing. -/
theorem admitVerif_passes {s : State} (r : FwReq) {v : Verif} (hbreach : firstBreach s (otherLoad s v.inst) v.both = none)
    (hadm : admissible s v.comp = true) (hasked : v.asked = []) :
    admitVerif s r v = verifPassed (showVerifying { s with verif := some v } v) r v := by
  simp [admitVerif, hbreach, hadm, hasked]

theorem showVerifying_fwq (s : State) (v : Verif) : (showVerifying s v).fwq = s.fwq := (showVerifying_frame ..).fwq (by decide)

theorem showVerifying_now (s : State) (v : Verif) : (showVerifying s v).now = s.now := (showVerifying_frame ..).now (by decide)

theorem showVerifying_state (s : State) {v : Verif} {i : Nat} (h : v.inst = some i) :
    getF (showVerifying s v) f_CMP_EPOCH_STATE i = 3 := by
  simp only [showVerifying, h]
  exact getF_setF _ _ _ _ _ (by decide)

/-! ## The order of the checks (R335) -/

section
variable {s : State} {r : FwReq}

/-- Does a stream's request keep to its fields, with a buffer that a stream can have? -/
abbrev StreamFits (r : FwReq) : Prop :=
  r.wide 1 % 8 = 0 ∧ r.word 3 ≠ 0 ∧ r.word 3 ≤ 1048576 ∧ r.zeroFrom 4 = true ∧ hostRange (r.wide 1) (r.word 3) = true

/-- Does firmware take streams? -/
abbrev TakesStreams (s : State) : Prop := flagF s f_RST_STATE_READY = true ∧ flagF s f_RST_STATE_OUT_OF_SERVICE = false

/-- What verifying the stream in a buffer leads to. -/
def judgeStream (s : State) (r : FwReq) (bytes : List Byte) : State :=
  match readStream bytes with
  | .error k => composeEnd s r cmpBadFormat k (numAt bytes 0x10 2) (numAt bytes 0xE 1)
  | .ok o => match headerCheck s o with
    | some code => composeEnd s r code wholeStream (numAt bytes 0x10 2) (numAt bytes 0xE 1)
    | none => match (match o.target with
        | some i => verifyImago s o i
        | none => verifyPool s o) with
      | .error (code, k) => composeEnd s r code k (numAt bytes 0x10 2) (numAt bytes 0xE 1)
      | .ok v => admitVerif s r v

theorem judgeStream_passes {bytes : List Byte} {o : Oatas} {i : Nat} {v : Verif} (hread : readStream bytes = .ok o)
    (hhead : headerCheck s o = none) (htarget : o.target = some i) (hverify : verifyImago s o i = .ok v) :
    judgeStream s r bytes = admitVerif s r v := by
  simp only [judgeStream, hread, hhead, htarget, hverify]

theorem compose_exec (hfront : fwFront s 0x04 = some r) (hverif : s.verif = none) : exec .compose s = .next (
      if ¬ TakesStreams s then composeEnd s r cmpNotReady wholeStream 0 0
      else if ¬ StreamFits r then composeEnd s r cmpBadFormat wholeStream 0 0
      else judgeStream s r (memBytes s.host (r.wide 1) (r.word 3))) := by
  have hready : (!flagF s f_RST_STATE_READY || flagF s f_RST_STATE_OUT_OF_SERVICE) = decide (¬ TakesStreams s) := by
    rw [Bool.eq_iff_iff, decide_eq_true_iff, not_and_or, Bool.or_eq_true, Bool.not_eq_true', Bool.not_eq_true, Bool.not_eq_false]
  have hfits : (decide (r.wide 1 % 8 ≠ 0) || decide (r.word 3 = 0) || decide (1048576 < r.word 3) || !r.zeroFrom 4
      || !hostRange (r.wide 1) (r.word 3)) = decide (¬ StreamFits r) := by
    rw [Bool.eq_iff_iff, decide_eq_true_iff]
    simp only [Bool.or_eq_true, decide_eq_true_eq, Bool.not_eq_true', ← Nat.not_le, ← Bool.not_eq_true]
    tauto
  change execCompose s = _
  simp only [execCompose, hfront, hverif, Option.isSome_none, Bool.false_eq_true, if_false, hready, hfits, decide_eq_true_eq]
  rfl

theorem leaseHandshakeTimeout_exec {v : Verif} {k : Nat} {l : Lease} {rest : List (Nat × Lease)} (hv : s.verif = some v)
    (hfront : fwFront s 0x04 = some r) (hasked : v.asked = (k, l) :: rest) (hcommit : v.commitAt = none)
    (hdue : due s v.askedAt msTicks = true) : exec .leaseHandshakeTimeout s =
    .next (verifEnd (v.asked.foldl (fun s x => sendLease s x.2 leaseRelease v.epoch) s) r v cmpRemoteRefused k) := by
  change execLeaseHandshakeTimeout s = _
  simp only [execLeaseHandshakeTimeout, hv, hfront, hcommit, hdue, Option.isNone_none, Bool.and_self, if_true]
  rw [hasked]

end

/-- Settles O33: a request runs into the first of the checks that fails, and every way a verification ends shows it in CMP_LAST. -/
theorem composing : Obligations.Composing := by
  refine ⟨fun s r hfront hverif => ?_, fun s r v k l rest hv hfront hasked hcommit hdue => ?_⟩
  · have hne := fwq_ne_nil_of_fwFront hfront
    have hexec := compose_exec hfront hverif
    have hjudge (hready : TakesStreams s) (hfits : StreamFits r) :
        exec .compose s = .next (judgeStream s r (memBytes s.host (r.wide 1) (r.word 3))) := by
      rw [hexec, if_neg (not_not_intro hready), if_neg (not_not_intro hfits)]
    refine ⟨fun hready => ?_, fun hready hfits => ?_, fun k hready hfits hread => ?_,
      fun o code hready hfits hread hhead hcode => ?_, fun o i code k hready hfits hread hhead htarget hverify hcode => ?_,
      fun o i v hready hfits hread hhead htarget hi hverify hbreach hadm hasked hdry hinst => ?_,
      fun o i v hready hfits hread hhead htarget hi hverify hbreach hadm hasked hwon hdry hinst => ?_⟩
    · exact gives_of_eq hexec (if_pos hready) (composed_composeEnd r _ _ _ rfl hne (by decide))
    · exact gives_of_eq hexec ((if_neg (not_not_intro hready)).trans (if_pos hfits)) (composed_composeEnd r _ _ _ rfl hne (by decide))
    · exact gives_of_eq (hjudge hready hfits) (by simp only [judgeStream, hread])
        (composed_composeEnd r k _ _ rfl hne (by decide))
    · exact gives_of_eq (hjudge hready hfits) (by simp only [judgeStream, hread, hhead])
        (composed_composeEnd r _ _ _ rfl hne hcode)
    · exact gives_of_eq (hjudge hready hfits) (by simp only [judgeStream, hread, hhead, htarget, hverify])
        (composed_composeEnd r k _ _ rfl hne hcode)
    · refine gives_of_eq (hjudge hready hfits) (u := verifPassed (showVerifying { s with verif := some v } v) r v) ?_ ?_
      · rw [judgeStream_passes hread hhead htarget hverify, admitVerif_passes r (hinst ▸ hbreach) hadm hasked]
      · rw [verifPassed, if_neg (by simp [hdry])]
        exact ⟨by rw [hasked, showVerifying_now], showVerifying_state _ hinst, showVerifying_fwq _ v⟩
    · refine gives_of_eq (hjudge hready hfits) (u := verifPassed (showVerifying { s with verif := some v } v) r v) ?_ ?_
      · rw [judgeStream_passes hread hhead htarget hverify, admitVerif_passes r (hinst ▸ hbreach) hadm hasked]
      · rw [verifPassed, if_pos hdry]
        have := composed_verifEnd (s := s) r v (code := cmpDryOk) wholeStream (showVerifying_fwq { s with verif := some v } v) hne (by decide)
        rwa [show v.imago = i by rw [Verif.imago, hinst]; rfl] at this
  · exact ⟨_, leaseHandshakeTimeout_exec hv hfront hasked hcommit hdue,
      composed_verifEnd r v k (foldl_sendLease_fwq ..) (fwq_ne_nil_of_fwFront hfront) (by decide)⟩

end Sys2Proof.Machine
end

section
/-! Registers that a change leaves as they were, by the range of their keys. -/

namespace Sys2Proof.Machine

section
variable {s t u : State} {lo hi : Nat}

/-- The registers whose keys lie in a range are as they were. -/
def SameRange (lo hi : Nat) (s t : State) : Prop := ∀ key, lo ≤ key → key < hi → mfind t.regs key = mfind s.regs key

theorem SameRange.refl (s : State) : SameRange lo hi s s := fun _ _ _ => rfl

theorem SameRange.trans (h : SameRange lo hi s t) (h' : SameRange lo hi t u) : SameRange lo hi s u :=
  fun key hlo hhi => (h' key hlo hhi).trans (h key hlo hhi)

theorem SameRange.mono {lo' hi' : Nat} (h : SameRange lo hi s t) (hl : lo ≤ lo') (hh : hi' ≤ hi) : SameRange lo' hi' s t :=
  fun key hlo hhi => h key (hl.trans hlo) (hhi.trans_le hh)

theorem SameRange.of_regs_eq (h : t.regs = s.regs) : SameRange lo hi s t := fun _ _ _ => by rw [h]

theorem SameRange.foldl {α : Type} {f : State → α → State} {l : List α} (hf : ∀ s, ∀ x ∈ l, SameRange lo hi s (f s x)) (s : State) :
    SameRange lo hi s (l.foldl f s) := by
  induction l generalizing s with
  | nil => exact .refl s
  | cons x l ih =>
    exact (hf s x List.mem_cons_self).trans (ih (fun s y hy => hf s y (List.mem_cons_of_mem _ hy)) _)

theorem SameRange.getR (h : SameRange lo hi s t) {r : Reg} {k win : Nat} (hl : lo ≤ regKey r k win) (hh : regKey r k win < hi) :
    getR t r k win = getR s r k win := by
  unfold Machine.getR
  rw [h _ hl hh]

theorem SameRange.getF (h : SameRange lo hi s t) {f : RF} {k win : Nat} (hl : lo ≤ regKey f.reg k win)
    (hh : regKey f.reg k win < hi) : getF t f k win = getF s f k win := by
  unfold Machine.getF
  rw [h.getR hl hh]

theorem sameRange_setR (s : State) {r : Reg} {k win : Nat} (v : Nat) (h : regKey r k win < lo ∨ hi ≤ regKey r k win) :
    SameRange lo hi s (setR s r k v win) := fun key hl hh => by
  unfold setR
  exact (mfind_mput ..).trans (if_neg (by omega))

theorem sameRange_setF (s : State) {f : RF} {k win : Nat} (v : Nat) (h : regKey f.reg k win < lo ∨ hi ≤ regKey f.reg k win) :
    SameRange lo hi s (setF s f k v win) := sameRange_setR s _ h

/-- A change of registers that all stand at `hi` or above. -/
theorem Agree.sameRange {M : Nat} (h : Agree M s t) (h0 : M.testBit 0 = false) (hM : regsFrom M hi = true) : SameRange lo hi s t := by
  intro key _ hhi
  refine h.regs h0 key fun r k w hknown hbit => ?_
  have hb : hi ≤ r.base := by
    have := List.all_eq_true.mp hM r (List.mem_of_getElem? hknown)
    simpa [hbit] using this
  unfold regKey
  omega

end

/-- The key of a member of a register in the physical function's window. -/
theorem regKey_zero (r : Reg) (k : Nat) : regKey r k 0 = r.base + k * r.stride := by
  unfold regKey
  omega

end Sys2Proof.Machine
end

section
/-! O35: cores and slices that leave, scrubbing, and evacuations (R315, R342, R344, R347 to R350). -/

namespace Sys2Proof.Machine

/-! ## Instars that advance at once (R357) -/

theorem advanceInstar_ready {s : State} {u : Unit8} (h : instarReady s u = true) (hdue : mget 0 s.instarDue u.key = 0) :
    advanceInstar s u = stepInstar s u := by
  rw [advanceInstar, if_pos (by rw [h, hdue]; rfl)]

theorem instarReady_congr {s t : State} (hat : t.instarAt = s.instarAt) (hnow : t.now = s.now) (u : Unit8) :
    instarReady t u = instarReady s u := by
  unfold instarReady due since
  rw [hat, hnow]

theorem getF_stepInstar_core (s : State) (c : Nat) {f : RF} (hr : f.reg = r_CMP_CORE) (h : f.lo + f.width ≤ 64)
    (ho : f.lo + f.width ≤ 8 ∨ 16 ≤ f.lo) : getF (stepInstar s (.core c)) f c = getF s f c :=
  getF_setF_off s f_CMP_CORE_INSTAR f c _ 0 hr h ho

theorem instarOf_stepInstar_core (s : State) (c : Nat) : instarOf (stepInstar s (.core c)) (.core c) = (instarOf s (.core c) + 1) % 256 :=
  (getF_setF s f_CMP_CORE_INSTAR c _ 0 (by decide)).trans (Nat.mod_mod _ _)

/-! ## Slices that leave (R342, R344) -/

/-- The state of a core that has left: FREE, with no owner, and not awake. -/
def coreFreed (s : State) (c : Nat) : State :=
  setF (setF (setF s f_CMP_CORE_STATE c 0) f_CMP_CORE_INSTANCE c 0xFF) f_CMP_CORE_AWAKE c 0

theorem getF_coreFreed (s : State) (c : Nat) : getF (coreFreed s c) f_CMP_CORE_STATE c = 0 ∧ getF (coreFreed s c) f_CMP_CORE_INSTANCE c = 0xFF
    ∧ getF (coreFreed s c) f_CMP_CORE_AWAKE c = 0 ∧ getF (coreFreed s c) f_CMP_CORE_INSTAR c = getF s f_CMP_CORE_INSTAR c := by
  have hstate (s : State) (v : Nat) := getF_setF_off s f_CMP_CORE_STATE f_CMP_CORE_INSTAR c v 0 rfl (by decide) (by decide)
  have hinst (s : State) (v : Nat) := getF_setF_off s f_CMP_CORE_INSTANCE f_CMP_CORE_INSTAR c v 0 rfl (by decide) (by decide)
  have hinst' (s : State) (v : Nat) := getF_setF_off s f_CMP_CORE_INSTANCE f_CMP_CORE_STATE c v 0 rfl (by decide) (by decide)
  have hawake (s : State) (v : Nat) := getF_setF_off s f_CMP_CORE_AWAKE f_CMP_CORE_INSTAR c v 0 rfl (by decide) (by decide)
  have hawake' (s : State) (v : Nat) := getF_setF_off s f_CMP_CORE_AWAKE f_CMP_CORE_STATE c v 0 rfl (by decide) (by decide)
  have hawake'' (s : State) (v : Nat) := getF_setF_off s f_CMP_CORE_AWAKE f_CMP_CORE_INSTANCE c v 0 rfl (by decide) (by decide)
  unfold coreFreed
  refine ⟨?_, ?_, getF_setF _ _ _ _ _ (by decide), by rw [hawake, hinst, hstate]⟩
  · rw [hawake', hinst', getF_setF _ _ _ _ _ (by decide), Nat.zero_mod]
  · rw [hawake'', getF_setF _ _ _ _ _ (by decide)]
    rfl

/-- The Imago of a leaving core waits for it no longer. -/
def coreAwaited (s : State) (c : Nat) : State :=
  if getF s f_CMP_CORE_INSTANCE c < 32 then
    modImago s (getF s f_CMP_CORE_INSTANCE c) (fun m => { m with leaveCores := m.leaveCores.filter (fun x => x ≠ c) })
  else s

theorem coreAwaited_frame (s : State) (c : Nat) : Agree 0x8000000000000000 s (coreAwaited s c) := by
  unfold coreAwaited
  split
  · exact modImago_frame ..
  · exact .refl _ s

theorem coreLeft_exec {c : Nat} {s : State} (hc : c < 144) (hstate : getF s f_CMP_CORE_STATE c = 2) (hdone : coreDone s c = true)
    (hready : instarReady s (.core c) = true) :
    exec (.coreLeft c) s = .next (advanceInstar (coreFreed (coreAwaited s c) c) (.core c)) := by
  change execCoreLeft c s = _
  rw [execCoreLeft, if_neg (by simp [hstate, hdone, hready, hc])]
  rfl

theorem freeLink_link (s : State) (p : Nat) :
    getF (freeLink s p) f_CMP_LINK_STATE p = 1 ∧ getF (freeLink s p) f_CMP_LINK_INSTANCE p = 0xFF := by
  have hregs : (freeLink s p).regs = (setR s r_CMP_LINK p (1 + 0xFF * 2 ^ 8)).regs := by
    unfold freeLink
    dsimp only
    split <;> rfl
  have hlink : getR (freeLink s p) r_CMP_LINK p = 1 + 0xFF * 2 ^ 8 := (getR_of_regs_eq hregs ..).trans (getR_setR_same ..)
  exact ⟨congrArg (bitsOf · 0 3) hlink, congrArg (bitsOf · 8 8) hlink⟩

/-! ## Scrubbing (R315) -/

/-- What a map filtered by its keys holds. -/
theorem mfind_filter_keys {α : Type} (m : SMap α) (p : Nat → Bool) (x : Nat) :
    mfind (m.filter (fun kv => p kv.1)) x = if p x then mfind m x else none := by
  split
  · next h => exact mfind_filter_key fun _ => h
  · next h => exact mfind_filter_none fun _ => Bool.eq_false_iff.mpr h

/-- The slice holds zeros, without poison, and is not secure. -/
def scrubbed (s : State) (m : Nat) : State :=
  let s := { s with
    hbm := s.hbm.filter (fun kv => sliceOf kv.1 ≠ m)
    hbmPoison := s.hbmPoison.filter (fun kv => kv.1 / (sliceBytes / 32) ≠ m) }
  setR s r_SEC_SLICE_WORLD (m / 32) (setBits (getR s r_SEC_SLICE_WORLD (m / 32)) (m % 32) 1 0)

theorem scrubComplete_exec {m : Nat} {s : State} (hm : m < 256) (hstate : getF s f_CMP_MEM_STATE m = 4) :
    exec (.scrubComplete m) s = .next (setR (scrubbed s m) r_CMP_MEM m (1 + 0xFF * 2 ^ 8)) := by
  change execScrubComplete m s = _
  rw [execScrubComplete, if_neg (by simp [hstate, hm])]
  rfl

theorem mem8_scrubbed (s : State) (m a : Nat) : mem8 (scrubbed s m).hbm a = if sliceOf a = m then 0 else mem8 s.hbm a := by
  have h := mfind_filter_keys s.hbm (fun k => decide (sliceOf k ≠ m)) a
  unfold mem8 mget
  refine (congrArg (Option.getD · 0) h).trans ?_
  by_cases hs : sliceOf a = m <;> simp [hs]

theorem poison_scrubbed (s : State) (m k : Nat) (hk : k / (sliceBytes / 32) = m) : mget false (scrubbed s m).hbmPoison k = false := by
  have h := mfind_filter_keys s.hbmPoison (fun k => decide (k / (sliceBytes / 32) ≠ m)) k
  unfold mget
  refine (congrArg (Option.getD · false) h).trans ?_
  simp [hk]

/-- A slice's bit of its world register is clear once it has been cleared. -/
theorem bitAt_worldCleared (v m : Nat) : bitAt (setBits v (m % 32) 1 0 % 2 ^ 64) (m % 32) = false := by
  have h : bitsOf (setBits v (m % 32) 1 0 % 2 ^ 64) (m % 32) 1 = 0 := by
    rw [bitsOf_mod (by omega), bitsOf_setBits, Nat.zero_mod]
  exact decide_eq_false (ne_of_eq_of_ne h Nat.zero_ne_one)

/-! ## Evacuations (R347 to R350) -/

section
variable {s : State} {i src n a b : Nat} {e : EvacEntry}

/-- The state in which a line's buffered copy has gone without being written back. -/
def copyDropped (s : State) (a : Nat) : State := { s with bufs := mdel s.bufs a }

theorem moveLine_eq (s : State) (a b : Nat) :
    moveLine s a b [] = bufWrite (allocate (copyDropped s a) b 0) b 0 (lineBad s a) (lineBytes s a) := rfl

theorem bufOf_copyDropped (s : State) (a x : Nat) : bufOf (copyDropped s a) x = if a = x then none else bufOf s x := mfind_mdel ..

theorem bufOf_allocate_none {x : Nat} (h : bufOf s x = none) (hx : b ≠ x) (hint : Nat) : bufOf (allocate s b hint) x = none := by
  cases hb : bufOf s b with
  | some l => rw [allocate_of_some hb, bufOf_setBuf, if_neg hx, h]
  | none => rw [allocate_of_none hb, bufOf_setBuf, if_neg hx, bufOf_roomMade h]

/-- The patch of a whole line. -/
theorem patch_whole {l bs : List Byte} (h : bs.length = l.length) : patch l 0 bs = bs := by
  simp [patch, h]

/-- A moved line stands at its destination, and its source has no copy. -/
theorem moveLine_line (hne : a ≠ b) (ha : Coherent s a) (hb : Coherent s b) :
    lineBytes (moveLine s a b []) b = lineBytes s a ∧ bufOf (moveLine s a b []) a = none := by
  rw [moveLine_eq]
  have hdrop : Coherent (copyDropped s a) b :=
    (line_congr (s := s) (t := copyDropped s a) (by rw [bufOf_copyDropped, if_neg hne]) rfl hb).2
  obtain ⟨hbytes, hok⟩ := (sameLines_allocate (copyDropped s a) b 0).line b hdrop
  obtain ⟨l, hl⟩ := bufOf_allocate (copyDropped s a) b 0
  have hwhole : ∀ k, bitAt (touchedMask 0 256) k = true → bitAt (coveredMask 0 256) k = true := by
    intro k hk
    rw [bitAt_touchedMask] at hk
    rw [bitAt_coveredMask]
    simp only [Bool.and_eq_true, decide_eq_true_eq] at hk ⊢
    omega
  have hlen := ha.length_lineBytes
  refine ⟨?_, ?_⟩
  · obtain ⟨hline, -⟩ := (lineWritten_bufWrite hl (by rw [hlen]) (fun k hk => .inl (by rw [hlen] at hk ⊢; exact hwhole k hk))
      (lineBad s a)).line hok
    rw [hline, patch_whole (hlen.trans hok.length_lineBytes.symm)]
  · rw [bufWrite_eq hl, bufOf_setBuf, if_neg hne.symm,
      bufOf_allocate_none (by rw [bufOf_copyDropped, if_pos rfl]) hne.symm]

theorem sameRange_moveLine (s : State) (a b : Nat) (errs : List SectorErr) : SameRange 0 0x800000 s (moveLine s a b errs) :=
  (moveLine_frame ..).sameRange (by decide) (by decide +kernel)

/-- An evacuation's entries after a line of entry `e` has moved on channel `n`. -/
def entriesMoved (es : List EvacEntry) (e : EvacEntry) (src n : Nat) : List EvacEntry :=
  es.map (fun x => if x.entry = e.entry then { e with cursor := e.cursor + 1, chan := some n }
    else if x.srcSlice = src then { x with chan := some n } else x)

/-- The bytes of a moved line counted for channel `n`. -/
def lineCounted (s : State) (i n : Nat) : State :=
  satF (countR (countR s r_TMV_CLU_RD (n / 32) 256) r_TMV_CLU_WR (n / 32) 256) f_CMP_EVAC_BYTES i 256

/-- The state after a line has moved: the cursor has passed it, and its bytes are counted. -/
def lineMoved (s : State) (i src n a b : Nat) (e : EvacEntry) : State :=
  lineCounted (modImago (moveLine s a b []) i (fun m => { m with evac := entriesMoved m.evac e src n })) i n

theorem imago_modImago (s : State) (i : Nat) (f : Imago → Imago) : imago (modImago s i f) i = f (imago s i) :=
  (mget_mput ..).trans (if_pos rfl)

theorem imago_of_imagos_eq {t : State} (h : t.imagos = s.imagos) (j : Nat) : imago t j = imago s j := by
  unfold imago
  rw [h]

theorem evac_lineMoved (s : State) (i src n a b : Nat) (e : EvacEntry) :
    (imago (lineMoved s i src n a b e) i).evac = entriesMoved (imago s i).evac e src n := by
  have h : imago (moveLine s a b []) i = imago s i := imago_of_imagos_eq ((moveLine_frame ..).imagos (by decide)) i
  rw [← h]
  exact congrArg Imago.evac (imago_modImago (moveLine s a b []) i (fun m => { m with evac := entriesMoved m.evac e src n }))

theorem sameRange_counted (s : State) (n : Nat) :
    SameRange 0 0x600000 s (countR (countR s r_TMV_CLU_RD (n / 32) 256) r_TMV_CLU_WR (n / 32) 256) := by
  refine (sameRange_setR s _ ?_).trans (sameRange_setR _ _ ?_)
  · have : regKey r_TMV_CLU_RD (n / 32) 0 = 0x606000 + n / 32 * 16 := regKey_zero ..
    omega
  · have : regKey r_TMV_CLU_WR (n / 32) 0 = 0x606008 + n / 32 * 16 := regKey_zero ..
    omega

theorem sameRange_moved (s : State) (i src n a b : Nat) (e : EvacEntry) :
    SameRange 0 0x600000 s (modImago (moveLine s a b []) i (fun m => { m with evac := entriesMoved m.evac e src n })) :=
  ((sameRange_moveLine s a b []).mono le_rfl (by decide)).trans (.of_regs_eq rfl)

/-- A moved line changes no register below the movers' but the count of its bytes. -/
theorem sameRange_lineMoved (s : State) (hi : i < 32) (src n a b : Nat) (e : EvacEntry) :
    SameRange 0 0x200200 s (lineMoved s i src n a b e) ∧ SameRange 0x200300 0x600000 s (lineMoved s i src n a b e) := by
  have hcounts := (sameRange_moved s i src n a b e).trans (sameRange_counted _ n)
  have hkey : regKey f_CMP_EVAC_BYTES.reg i 0 = 0x200200 + i * 8 := regKey_zero ..
  exact ⟨(hcounts.mono le_rfl (by decide)).trans (sameRange_setF _ _ (by omega)),
    (hcounts.mono (by decide) le_rfl).trans (sameRange_setF _ _ (by omega))⟩

theorem getF_lineMoved_bytes (s : State) (hi : i < 32) (src n a b : Nat) (e : EvacEntry) :
    getF (lineMoved s i src n a b e) f_CMP_EVAC_BYTES i = satAdd f_CMP_EVAC_BYTES.width (getF s f_CMP_EVAC_BYTES i) 256 := by
  have hcounts := (sameRange_moved s i src n a b e).trans (sameRange_counted _ n)
  have hkey : regKey f_CMP_EVAC_BYTES.reg i 0 = 0x200200 + i * 8 := regKey_zero ..
  refine (getF_setF _ _ _ _ _ (by decide)).trans ?_
  rw [hcounts.getF (Nat.zero_le _) (by omega)]
  exact Nat.mod_eq_of_lt (Nat.lt_of_le_of_lt (Nat.min_le_right _ _) (by decide))

/-- The line that an evacuation moves next stands at its destination once it has moved, and its source has no copy. -/
theorem lineMoved_line (i src n : Nat) (e : EvacEntry) (hne : a ≠ b) (ha : Coherent s a) (hb : Coherent s b) :
    lineBytes (lineMoved s i src n a b e) b = lineBytes s a ∧ bufOf (lineMoved s i src n a b e) a = none :=
  moveLine_line hne ha hb

theorem movingEntry_cons (x : EvacEntry) (es : List EvacEntry) (src : Nat) :
    movingEntry (x :: es) src = if x.srcSlice = src ∧ x.flipped = false then some x else movingEntry es src := by
  unfold movingEntry
  rw [List.find?_cons]
  split
  · next h => rw [if_pos (by simpa using h)]
  · next h => rw [if_neg (by simpa using h)]

/-- The entry that an EVACUATE moves is still the one that it moves after a line of it. -/
theorem movingEntry_entriesMoved {es : List EvacEntry} (h : movingEntry es src = some e) (n : Nat) :
    movingEntry (entriesMoved es e src n) src = some { e with cursor := e.cursor + 1, chan := some n } := by
  obtain ⟨hmoves, hflip⟩ : e.srcSlice = src ∧ e.flipped = false := by simpa using List.find?_some h
  induction es with
  | nil => cases h
  | cons x es ih =>
    rw [movingEntry_cons] at h
    rw [entriesMoved, List.map_cons, movingEntry_cons]
    by_cases hx : x.entry = e.entry
    · rw [if_pos hx, if_pos ⟨hmoves, hflip⟩]
    · have hskip : ¬ (x.srcSlice = src ∧ x.flipped = false) := fun hp => by
        rw [if_pos hp] at h
        exact hx (congrArg EvacEntry.entry (Option.some.inj h))
      rw [if_neg hskip] at h
      rw [if_neg hx, if_neg (by split <;> exact hskip)]
      exact ih h

/-! ## The flip of an entry (R349, R350) -/

/-- An evacuation's entries once entry number `k` has flipped. -/
def entriesFlipped (es : List EvacEntry) (k : Nat) : List EvacEntry :=
  es.map (fun x => if x.entry = k then { x with flipped := true } else x)

/-- The state in which an entry's word and its flip are written. -/
def wordFlipped (s : State) (i : Nat) (e : EvacEntry) : State :=
  modImago (setR s r_CMP_ILV (1024 * i + e.entry) (2 ^ 31 + e.dstRegion * 2 ^ 8 + e.dstList)) i
    (fun m => { m with evac := entriesFlipped (imago s i).evac e.entry })

/-- A descriptor of an evacuation's channel done. -/
def chanCounted (s : State) (c : Option Nat) : State :=
  match c with
  | some n => countR s r_TMV_BCH_DONE n 1
  | none => s

/-- The end of a source's evacuation, when none of its entries is left. -/
def sourceEnded (s : State) (es : List EvacEntry) (e : EvacEntry) : State :=
  if es.any (fun x => x.srcSlice = e.srcSlice && !x.flipped) then s
  else setF (leaveEvac s e.chan) f_CMP_MEM_SOURCE e.srcSlice 0

/-- The drain snapshot, when no entry of an evacuation is left. -/
def drainNoted (s : State) (i left : Nat) : State :=
  if left ≠ 0 then s
  else setF (modImago s i (fun m => { m with snapshot := some (imagoReqs s i (fun _ => true)) })) f_CMP_EPOCH_EVAC i 0

theorem flipEntry_eq (s : State) (i : Nat) (e : EvacEntry) :
    let es := entriesFlipped (imago s i).evac e.entry
    let left := (es.filter (fun x => !x.flipped)).length
    flipEntry s i e =
      drainNoted (sourceEnded (chanCounted (setF (wordFlipped s i e) f_CMP_EVAC_ENTRIES_LEFT i left) e.chan) es e) i left := rfl

theorem chanCounted_spec (s : State) (c : Option Nat) :
    SameRange 0x240000 0x280000 s (chanCounted s c) ∧ (chanCounted s c).imagos = s.imagos := by
  cases c with
  | none => exact ⟨.refl s, rfl⟩
  | some n =>
    have hkey : regKey r_TMV_BCH_DONE n 0 = 0x604008 + n * 16 := regKey_zero ..
    exact ⟨sameRange_setR s _ (by omega), rfl⟩

theorem sourceEnded_spec (s : State) (es : List EvacEntry) (hsrc : e.srcSlice < 256) :
    SameRange 0x240000 0x280000 s (sourceEnded s es e) ∧ (sourceEnded s es e).imagos = s.imagos := by
  unfold sourceEnded
  split
  · exact ⟨.refl s, rfl⟩
  · have hkey : regKey f_CMP_MEM_SOURCE.reg e.srcSlice 0 = 0x201400 + e.srcSlice * 4 := regKey_zero ..
    exact ⟨((leaveEvac_frame ..).sameRange (by decide) (by decide +kernel)).trans (sameRange_setF _ _ (by omega)),
      (leaveEvac_frame ..).imagos (by decide)⟩

theorem drainNoted_spec (s : State) (hi : i < 32) (left : Nat) :
    SameRange 0x240000 0x280000 s (drainNoted s i left) ∧ (imago (drainNoted s i left) i).evac = (imago s i).evac := by
  unfold drainNoted
  split
  · exact ⟨.refl s, rfl⟩
  · have hkey : regKey f_CMP_EPOCH_EVAC.reg i 0 = 0x200100 + i * 4 := regKey_zero ..
    refine ⟨(SameRange.of_regs_eq rfl).trans (sameRange_setF _ _ (by omega)), ?_⟩
    rw [imago_of_imagos_eq (setF_imagos ..), imago_modImago]

/-- What a flip does besides touches neither the interleave table nor the entries. -/
theorem flipEntry_spec (s : State) (hi : i < 32) (hsrc : e.srcSlice < 256) :
    SameRange 0x240000 0x280000 (wordFlipped s i e) (flipEntry s i e)
      ∧ (imago (flipEntry s i e) i).evac = entriesFlipped (imago s i).evac e.entry := by
  rw [flipEntry_eq]
  have hleft (t : State) (v : Nat) : SameRange 0x240000 0x280000 t (setF t f_CMP_EVAC_ENTRIES_LEFT i v) := by
    have hkey : regKey f_CMP_EVAC_ENTRIES_LEFT.reg i 0 = 0x200200 + i * 8 := regKey_zero ..
    exact sameRange_setF _ _ (by omega)
  obtain ⟨hchan, hchan'⟩ := chanCounted_spec (setF (wordFlipped s i e) f_CMP_EVAC_ENTRIES_LEFT i
    ((entriesFlipped (imago s i).evac e.entry).filter (fun x => !x.flipped)).length) e.chan
  obtain ⟨hsource, hsource'⟩ := sourceEnded_spec (chanCounted (setF (wordFlipped s i e) f_CMP_EVAC_ENTRIES_LEFT i
    ((entriesFlipped (imago s i).evac e.entry).filter (fun x => !x.flipped)).length) e.chan)
    (entriesFlipped (imago s i).evac e.entry) hsrc
  obtain ⟨hdrain, hdrain'⟩ := drainNoted_spec (i := i) (sourceEnded (chanCounted (setF (wordFlipped s i e) f_CMP_EVAC_ENTRIES_LEFT i
    ((entriesFlipped (imago s i).evac e.entry).filter (fun x => !x.flipped)).length) e.chan)
    (entriesFlipped (imago s i).evac e.entry) e) hi ((entriesFlipped (imago s i).evac e.entry).filter (fun x => !x.flipped)).length
  refine ⟨(hleft _ _).trans (hchan.trans (hsource.trans hdrain)), hdrain'.trans ?_⟩
  rw [imago_of_imagos_eq (hsource'.trans hchan')]
  exact congrArg Imago.evac (imago_modImago (setR s r_CMP_ILV (1024 * i + e.entry) (2 ^ 31 + e.dstRegion * 2 ^ 8 + e.dstList)) i
    (fun m => { m with evac := entriesFlipped (imago s i).evac e.entry }))

theorem getR_flipEntry_ilv (s : State) (hi : i < 32) (hsrc : e.srcSlice < 256) (hentry : e.entry < 1024) (hregion : e.dstRegion < 1024)
    (hlist : e.dstList < 256) : getR (flipEntry s i e) r_CMP_ILV (1024 * i + e.entry) = 2 ^ 31 + e.dstRegion * 2 ^ 8 + e.dstList := by
  have hkey : regKey r_CMP_ILV (1024 * i + e.entry) 0 = 0x240000 + (1024 * i + e.entry) * 4 := regKey_zero ..
  rw [(flipEntry_spec s hi hsrc).1.getR (by omega) (by omega)]
  refine (getR_setR_same s r_CMP_ILV (1024 * i + e.entry) _ 0).trans (Nat.mod_eq_of_lt ?_)
  omega

theorem find_flipped {es : List EvacEntry} {k : Nat} (h : ∃ x ∈ es, x.entry = k) :
    ((entriesFlipped es k).find? (fun x => x.entry = k)).map EvacEntry.flipped = some true := by
  induction es with
  | nil => simp at h
  | cons x es ih =>
    rw [entriesFlipped, List.map_cons]
    by_cases hx : x.entry = k
    · rw [if_pos hx, List.find?_cons_of_pos (by simpa using hx)]
      rfl
    · rw [if_neg hx, List.find?_cons_of_neg (by simpa using hx)]
      exact ih (by simpa [hx] using h)

/-! ## The next line (R347 to R350) -/

theorem evacuateLine_exec (hi : i < 32) (h : movingEntry (imago s i).evac src = some e) (hreqs : ∀ kv ∈ s.reqs, kv.2.stage ≠ .hbm)
    (hrun : mastersStopped s = false) (hreset : flagF s f_RST_STATUS_CHIP_RESET = false)
    (hchan : evacChan s (imago s i).evac e = some n) (ha : a = (e.srcSlice * sliceBytes + e.srcRegion * imagoRb s i) / 256 + e.cursor)
    (hb : b = (e.dstSlice * sliceBytes + e.dstRegion * imagoRb s i) / 256 + e.cursor) :
    exec (.evacuateLine i src []) s = .next (if e.cursor + 1 < regionLines s i then lineMoved s i src n a b e
      else flipEntry (lineMoved s i src n a b e) i { e with cursor := e.cursor + 1, chan := some n }) := by
  have hnone : s.reqs.any (fun kv => kv.2.stage = .hbm && (reqLine s kv.2).1 = a) = false := by
    rw [List.any_eq_false]
    intro kv hkv
    simp [hreqs kv hkv]
  have hkey : regKey f_CMP_IMG_RB_RB.reg i 0 = 0x200180 + i * 4 := regKey_zero ..
  have hlines : regionLines (lineMoved s i src n a b e) i = regionLines s i := by
    unfold regionLines imagoRb
    rw [(sameRange_lineMoved s hi src n a b e).1.getF (Nat.zero_le _) (by omega)]
  change execEvacuateLine i src [] s = _
  subst ha hb
  unfold execEvacuateLine
  rw [← hlines]
  simp only [h, hnone, hrun, hreset, hchan, Bool.or_self, Bool.false_eq_true, if_false]
  rfl

end

/-- Settles O35: each command's effect is that of its few register writes; a line moves through the buffer of its destination. -/
theorem leavingAndEvacuation : Obligations.LeavingAndEvacuation := by
  refine ⟨fun c s hc hstate hdone hready hdue => ?_, fun p s hp hstate hholds => ?_, fun m s hm hstate => ?_,
    fun i src n s e hi hmove => ?_⟩
  · have hkept := coreAwaited_frame s c
    obtain ⟨hstate', hinst, hawake, hinstar⟩ := getF_coreFreed (coreAwaited s c) c
    have hnow : instarReady (coreFreed (coreAwaited s c) c) (.core c) = true := by
      rwa [instarReady_congr (s := s) (t := coreFreed (coreAwaited s c) c) (hkept.instarAt (by decide)) (hkept.now (by decide))]
    refine ⟨_, coreLeft_exec hc hstate hdone hready, ?_⟩
    rw [advanceInstar_ready hnow ((congrArg (mget 0 · _) (hkept.instarDue (by decide))).trans hdue)]
    refine ⟨?_, ?_, ?_, ?_⟩
    · rw [getF_stepInstar_core _ c rfl (by decide) (by decide), hstate']
    · rw [getF_stepInstar_core _ c rfl (by decide) (by decide), hinst]
    · rw [flagF, getF_stepInstar_core _ c rfl (by decide) (by decide), hawake]
      rfl
    · rw [instarOf_stepInstar_core]
      change (getF _ f_CMP_CORE_INSTAR c + 1) % 256 = (getF s f_CMP_CORE_INSTAR c + 1) % 256
      rw [hinstar, hkept.getF_same (by decide) (by decide)]
  · refine ⟨freeLink s p, ?_, freeLink_link s p⟩
    change execLinkSliceLeft p s = _
    rw [execLinkSliceLeft, if_neg (by simp [hp, hstate, hholds])]
  · refine ⟨_, scrubComplete_exec hm hstate, ?_, mem8_scrubbed s m, poison_scrubbed s m, ?_⟩
    · exact congrArg (bitsOf · 0 3) (getR_setR_same (scrubbed s m) r_CMP_MEM m _ 0)
    · have hkey : regKey r_CMP_MEM m 0 = 0x201400 + m * 4 := regKey_zero ..
      have hkey' : regKey r_SEC_SLICE_WORLD (m / 32) 0 = 0xE00500 + m / 32 * 4 := regKey_zero ..
      rw [getR_setR, if_neg (by omega)]
      unfold scrubbed
      rw [getR_setR_same]
      exact bitAt_worldCleared ..
  · intro a b hreqs hrun hreset hchan hne ha hb
    have hexec := evacuateLine_exec hi hmove hreqs hrun hreset hchan (rfl : a = _) (rfl : b = _)
    obtain ⟨hline, hgone⟩ := lineMoved_line i src n e hne ha hb
    refine ⟨fun hmore => ⟨_, hexec.trans (congrArg _ (if_pos hmore)), hline, hgone, ?_, getF_lineMoved_bytes s hi src n a b e⟩,
      fun hlast hentry hsrc hregion hlist => ⟨_, hexec.trans (congrArg _ (if_neg (by omega))), ?_, ?_, ?_⟩⟩
    · rw [evac_lineMoved]
      exact movingEntry_entriesMoved hmove n
    · rw [← hline]
      exact lineBytes_congr ((flipEntry_frame ..).bufs (by decide)) ((flipEntry_frame ..).hbm (by decide)) b
    · rw [evacAt, (flipEntry_spec (e := { e with cursor := e.cursor + 1, chan := some n }) _ hi hsrc).2, evac_lineMoved]
      exact find_flipped ⟨_, List.mem_map.mpr ⟨e, List.mem_of_find?_eq_some hmove, rfl⟩, by rw [if_pos rfl]⟩
    · exact getR_flipEntry_ilv (e := { e with cursor := e.cursor + 1, chan := some n }) _ hi hsrc hentry hregion hlist

end Sys2Proof.Machine
end

section
/-! O34: commits and the end of chrysalis (R337 to R347). -/

namespace Sys2Proof.Machine

/-! ## Registers that the parts of a commit leave -/

section
variable {s t : State} {i lo hi : Nat}

/-- A change that names no register keeps them all. -/
theorem Agree.sameRange_of_lt {M : Nat} (h : Agree M s t) (h0 : M.testBit 0 = false) (hM : M < 2 ^ 88) : SameRange lo hi s t :=
  fun key _ _ => h.regs h0 key fun r _ _ _ hbit => absurd hbit (by
    rw [Nat.testBit_lt_two_pow (Nat.lt_of_lt_of_le hM (Nat.pow_le_pow_right (by decide) (Nat.le_add_right 88 r.ix)))]
    decide)

theorem sameRange_setRateReg (s : State) {r : Reg} {k : Nat} (v : Nat) (atOnce : Bool)
    (h : regKey r k 0 < lo ∨ hi ≤ regKey r k 0) : SameRange lo hi s (setRateReg s r k v atOnce) := by
  unfold setRateReg
  dsimp only
  split
  · exact sameRange_setR s v h
  · split
    · exact .refl s
    · exact sameRange_setR s v h

/-- The end of a verification writes CMP_LAST and CMP_STATUS only. -/
theorem sameRange_composeEnd (s : State) (r : FwReq) (code rec' epoch imago : Nat)
    (h : 0x200010 < lo ∨ 0x200004 < lo ∧ hi ≤ 0x200010) : SameRange lo hi s (composeEnd s r code rec' epoch imago) := by
  have hlast : regKey r_CMP_LAST 0 0 = 0x200010 := by decide
  have hstatus : regKey r_CMP_STATUS 0 0 = 0x200004 := by decide
  have hend : SameRange lo hi { setR (setR s r_CMP_LAST 0 (lastWord code rec' epoch imago)) r_CMP_STATUS 0 0 with verif := none }
      (composeEnd s r code rec' epoch imago) := (fwEnd_frame ..).sameRange_of_lt (by decide) (by decide)
  exact ((sameRange_setR s _ (by omega)).trans (sameRange_setR _ _ (by omega))).trans hend

end

/-! ## Cores that leave and that are bound (R323, R342) -/

section
variable {s t : State} {i c : Nat}

/-- The register of a core is as it was. -/
def SameCore (c : Nat) (s t : State) : Prop := SameRange (0x201000 + c * 4) (0x201000 + c * 4 + 1) s t

theorem SameCore.getF (h : SameCore c s t) {f : RF} (hf : f.reg = r_CMP_CORE) : getF t f c = Machine.getF s f c := by
  have hkey : regKey f.reg c 0 = 0x201000 + c * 4 := by rw [hf]; exact regKey_zero ..
  exact SameRange.getF h (by omega) (by omega)

theorem sameCore_setF (s : State) {f : RF} (hf : f.reg = r_CMP_CORE) {c' : Nat} (h : c' ≠ c) (v : Nat) : SameCore c s (setF s f c' v) := by
  have hkey : regKey f.reg c' 0 = 0x201000 + c' * 4 := by rw [hf]; exact regKey_zero ..
  exact sameRange_setF s v (by omega)

theorem sameCore_leaveCore (s : State) (hc : c < 144) {c' : Nat} (h : c' ≠ c) : SameCore c s (leaveCore s c') := by
  have hkey : regKey r_QOS_CORE_RATE c' 0 = r_QOS_CORE_RATE.base + c' * r_QOS_CORE_RATE.stride := regKey_zero ..
  exact ((sameCore_setF s rfl h 2).trans (sameCore_setF _ rfl h 0)).trans
    (sameRange_setRateReg _ _ _ (.inr (by rw [hkey]; simp only [r_QOS_CORE_RATE]; omega)))

theorem sameCore_advanceInstar (s : State) {c' : Nat} (h : c' ≠ c) : SameCore c s (advanceInstar s (.core c')) := by
  unfold advanceInstar
  split
  · exact sameCore_setF s (f := f_CMP_CORE_INSTAR) rfl h _
  · exact .of_regs_eq rfl

theorem sameCore_bindCore (s : State) (i : Nat) {c' : Nat} (h : c' ≠ c) (awake : Bool) : SameCore c s (bindCore s i c' awake) := by
  unfold bindCore
  split
  · exact sameCore_setF s rfl h _
  · exact (((sameCore_setF s rfl h _).trans (sameCore_setF _ rfl h _)).trans (sameCore_setF _ rfl h _)).trans
      (sameCore_advanceInstar _ h)

theorem state_leaveCore (s : State) (hc : c < 144) : getF (leaveCore s c) f_CMP_CORE_STATE c = 2 := by
  have hkey : regKey r_QOS_CORE_RATE c 0 = r_QOS_CORE_RATE.base + c * r_QOS_CORE_RATE.stride := regKey_zero ..
  have hrate : SameCore c (setF (setF s f_CMP_CORE_STATE c 2) f_CMP_CORE_AWAKE c 0) (leaveCore s c) :=
    sameRange_setRateReg _ _ _ (.inr (by rw [hkey]; simp only [r_QOS_CORE_RATE]; omega))
  rw [hrate.getF rfl, getF_setF_off _ f_CMP_CORE_AWAKE f_CMP_CORE_STATE c _ _ rfl (by decide) (by decide),
    getF_setF _ _ _ _ _ (by decide)]
  rfl

/-- An advance of a core's instar leaves its other fields. -/
theorem getF_advanceInstar_core (s : State) (c : Nat) {f : RF} (hr : f.reg = r_CMP_CORE) (h : f.lo + f.width ≤ 64)
    (ho : f.lo + f.width ≤ 8 ∨ 16 ≤ f.lo) : getF (advanceInstar s (.core c)) f c = getF s f c := by
  unfold advanceInstar
  split
  · exact getF_stepInstar_core s c hr h ho
  · rfl

theorem coreBound_iff (s : State) (i c : Nat) :
    coreBound s i c = true ↔ getF s f_CMP_CORE_STATE c = 1 ∧ getF s f_CMP_CORE_INSTANCE c = i := by
  simp [coreBound]

theorem bindCore_bound (s : State) (hi : i < 32) (c : Nat) (awake : Bool) :
    coreBound (bindCore s i c awake) i c = true ∧ flagF (bindCore s i c awake) f_CMP_CORE_AWAKE c = awake := by
  have hflag (t : State) : flagF (setF t f_CMP_CORE_AWAKE c (b2n awake)) f_CMP_CORE_AWAKE c = awake := by
    rw [flagF_setF_same _ _ _ _ (by decide)]
    cases awake <;> rfl
  have hawake (t : State) (v : Nat) := getF_setF_off t f_CMP_CORE_AWAKE f_CMP_CORE_STATE c v 0 rfl (by decide) (by decide)
  have hawake' (t : State) (v : Nat) := getF_setF_off t f_CMP_CORE_AWAKE f_CMP_CORE_INSTANCE c v 0 rfl (by decide) (by decide)
  have hstate (t : State) (v : Nat) := getF_setF_off t f_CMP_CORE_STATE f_CMP_CORE_INSTANCE c v 0 rfl (by decide) (by decide)
  unfold bindCore
  split
  · next h =>
    refine ⟨?_, hflag s⟩
    rw [coreBound_iff] at h ⊢
    rw [hawake, hawake']
    exact h
  · refine ⟨?_, ?_⟩
    · rw [coreBound_iff, getF_advanceInstar_core _ c rfl (by decide) (by decide), getF_advanceInstar_core _ c rfl (by decide) (by decide),
        hawake, hawake', hstate, getF_setF _ _ _ _ _ (by decide), getF_setF _ _ _ _ _ (by decide)]
      exact ⟨rfl, Nat.mod_eq_of_lt (hi.trans (by decide))⟩
    · unfold flagF
      rw [getF_advanceInstar_core _ c rfl (by decide) (by decide)]
      exact hflag _

theorem ne_of_mfind_none {α : Type} {m : SMap α} {x : Nat} (h : mfind m x = none) {kv : Nat × α} (hkv : kv ∈ m) : kv.1 ≠ x := by
  induction m with
  | nil => cases hkv
  | cons e m ih =>
    rw [mfind] at h
    split at h
    · cases h
    · next hne =>
      rcases List.mem_cons.mp hkv with rfl | hkv
      · exact hne
      · exact ih h hkv

/-- Once the cores of a list have been bound, a core that is not listed is as it was. -/
theorem sameCore_foldl_bindCore (i : Nat) {l : SMap Bool} (h : mfind l c = none) (s : State) :
    SameCore c s (l.foldl (fun s c => bindCore s i c.1 c.2) s) :=
  SameRange.foldl (fun t x hx => sameCore_bindCore t i (ne_of_mfind_none h hx) x.2) s

theorem foldl_bindCore_bound (hi : i < 32) {l : SMap Bool} (hl : sortedKeys l = true) {awake : Bool} (h : mfind l c = some awake)
    (s : State) : coreBound (l.foldl (fun s c => bindCore s i c.1 c.2) s) i c = true
      ∧ flagF (l.foldl (fun s c => bindCore s i c.1 c.2) s) f_CMP_CORE_AWAKE c = awake := by
  induction l generalizing s with
  | nil => cases h
  | cons x l ih =>
    obtain ⟨k, w⟩ := x
    obtain ⟨hfrom, hl⟩ := (sortedKeys_cons k w l).mp hl
    rw [mfind] at h
    split at h
    · next hk =>
      obtain rfl := Option.some.inj h
      subst hk
      have hkept := sameCore_foldl_bindCore i (mfind_of_keysFrom hfrom (Nat.lt_succ_self k)) (bindCore s i k w)
      obtain ⟨hbound, hawake⟩ := bindCore_bound s hi k w
      refine ⟨?_, ?_⟩
      · rw [coreBound_iff] at hbound ⊢
        rwa [List.foldl_cons, hkept.getF rfl, hkept.getF rfl]
      · rwa [List.foldl_cons, flagF, hkept.getF rfl, ← flagF]
    · exact ih hl h _

end

/-! ## The parts of an Imago's commit (R337) -/

section
variable {s : State} {i c : Nat} {v : Verif} {old new : Comp}

/-- Do these bound cores leave with a composition? -/
def leavers (old new : Comp) : SMap Bool := old.cores.filter (fun c => (mfind new.cores c.1).isNone)

/-- The rates of a composition in force. -/
def ratesWritten (s : State) (i : Nat) (new : Comp) : State :=
  setRateReg (setRateReg (setRateReg (new.cores.foldl (fun s c => setRateReg s r_QOS_CORE_RATE c.1 (mget 0 new.coreRate c.1) false) s)
    r_QOS_IMG_BULK_RATE i new.bulk false) r_QOS_IMG_SPILL_RATE i new.spill false) r_QOS_IMG_TARGET i new.target false

theorem writeRates_eq (s : State) (i : Nat) (old new : Comp) :
    writeRates s i old new = (leavers old new).foldl (fun s c => leaveCore s c.1) (ratesWritten s i new) := rfl

theorem sameRange_ratesWritten (s : State) (i : Nat) (new : Comp) {lo : Nat} : SameRange lo 0x500000 s (ratesWritten s i new) := by
  have hrate (t : State) {r : Reg} (h : 0x500000 ≤ r.base) (k v : Nat) : SameRange lo 0x500000 t (setRateReg t r k v false) :=
    sameRange_setRateReg t v false (.inr (by rw [regKey_zero]; omega))
  exact ((((SameRange.foldl (fun t x _ => hrate t (r := r_QOS_CORE_RATE) (by decide) _ _) s).trans
    (hrate _ (r := r_QOS_IMG_BULK_RATE) (by decide) _ _)).trans (hrate _ (r := r_QOS_IMG_SPILL_RATE) (by decide) _ _))).trans
    (hrate _ (r := r_QOS_IMG_TARGET) (by decide) _ _)

/-- A core that does not leave has its register kept, and one that leaves is LEAVING. -/
theorem writeRates_core (s : State) (i : Nat) (old new : Comp) (hc : c < 144) :
    (mfind (leavers old new) c = none → SameCore c s (writeRates s i old new))
      ∧ ((mfind (leavers old new) c).isSome = true → getF (writeRates s i old new) f_CMP_CORE_STATE c = 2) := by
  rw [writeRates_eq]
  have hrates : SameCore c s (ratesWritten s i new) := (sameRange_ratesWritten s i new (lo := 0)).mono (Nat.zero_le _) (by omega)
  generalize ratesWritten s i new = t at hrates ⊢
  generalize leavers old new = l
  refine ⟨fun h => hrates.trans (.foldl (fun u x hx => sameCore_leaveCore u hc (ne_of_mfind_none h hx)) t), fun h => ?_⟩
  clear hrates
  induction l generalizing t with
  | nil => simp [mfind] at h
  | cons x l ih =>
    rw [List.foldl_cons]
    by_cases hl : (mfind l c).isSome = true
    · exact ih _ hl
    · have hx : x.1 = c := by
        by_contra hne
        exact hl (by simpa [mfind, hne] using h)
      have hkept : SameCore c (leaveCore t x.1) (l.foldl (fun s c => leaveCore s c.1) (leaveCore t x.1)) :=
        .foldl (fun u y hy => sameCore_leaveCore u hc (ne_of_mfind_none (by simpa using hl) hy)) _
      rw [hkept.getF rfl, hx, state_leaveCore t hc]

/-- The local slices of a composition, with their list entries. -/
def localSlices (c : Comp) : List (Nat × Nat) := (c.slist.filter (fun kv => !bitAt kv.2 25)).map (fun kv => (kv.1, bitsOf kv.2 16 8))

/-- The units of the cores and maps changed over. -/
def coresChanged (s : State) (i : Nat) (v : Verif) : State :=
  writeRates (writeMaps (changeWings s (currentComp s i) v.comp) i (currentComp s i) v.comp v.evac) i (currentComp s i) v.comp

/-- The links that a commit unbinds. -/
def linksLeft (s : State) (i : Nat) (v : Verif) : List Nat := (currentComp s i).links.filter (fun p => !v.comp.links.contains p)

/-- The slices, ports and leases changed over. -/
def slicesChanged (s u : State) (i : Nat) (v : Verif) : State :=
  let u := (localSlices v.comp).foldl (fun s x => bindSlice s i x.1 x.2) u
  let u := v.comp.links.foldl (fun s p => setR s r_CMP_LINK p (2 + i * 2 ^ 8)) u
  let u := (linksLeft s i v).foldl (fun s p => setF s f_CMP_LINK_STATE p 4) u
  let u := (v.evac.map EvacEntry.srcSlice).eraseDups.foldl (fun s m => setF s f_CMP_MEM_SOURCE m 1) u
  (v.comp.leases.filter (fun l => !(currentComp s i).leases.contains l)).foldl (fun s l => addLease s l true true LeaseTerms.empty) u

/-- The state of a commit in which every unit has changed over. -/
def unitsChanged (s : State) (i : Nat) (v : Verif) : State :=
  slicesChanged s (v.comp.cores.foldl (fun s c => bindCore s i c.1 c.2) (coresChanged s i v)) i v

/-- What a commit notes of an Imago. -/
def commitNote (s : State) (i : Nat) (v : Verif) (now : DWord) (m : Imago) : Imago :=
  { m with
    old := some ⟨getF s f_CMP_EPOCH_EPOCH i, (List.range 1024).map (fun e => getR s r_CMP_ILV (1024 * i + e)),
      (List.range 256).map (fun k => getR s r_CMP_SLIST (256 * i + k)), (currentComp s i).routes⟩
    routes := v.comp.routes
    evac := v.evac
    snapshot := none
    committed := now
    leaveCores := (leavers (currentComp s i) v.comp).map Prod.fst
    leaveLinks := linksLeft s i v
    freed := ((localSlices (currentComp s i)).filter (fun x => !(localSlices v.comp).any (fun y => y.2 = x.2))).map Prod.snd
    returned := (currentComp s i).leases.filter (fun l => !v.comp.leases.contains l)
    linkKeys := (linksLeft s i v).foldl (fun m p => match mfind (currentComp s i).linkKeys p with
      | some k => mput m p k
      | none => m) v.comp.linkKeys
    load := v.both
    after := v.charge
    digest := v.digest }

/-- The state of a commit but for its epoch and the loads. -/
def commitNoted (s : State) (i : Nat) (v : Verif) (badKeys : List Nat) : State :=
  setR (takeMemKey (modImago (unitsChanged s i v) i (commitNote s i v (unitsChanged s i v).now)) i v.comp
    (v.comp.memKey.isSome && v.comp.memKey ≠ (currentComp s i).memKey) v.epoch badKeys) r_CMP_EVAC i v.evac.length

theorem commitImago_eq (s : State) (i : Nat) (v : Verif) (badKeys : List Nat) : commitImago s i v badKeys =
    refreshLoads (setR (commitNoted s i v badKeys) r_CMP_EPOCH i (v.epoch + 4 * 2 ^ 16 + b2n (!v.evac.isEmpty) * 2 ^ 19)) := rfl

/-! ## What a commit leaves (R337 to R342) -/

/-- The registers below the slices are as they were once the cores have been bound. -/
theorem sameRange_slicesChanged (s u : State) (i : Nat) (v : Verif) : SameRange 0 0x201400 u (slicesChanged s u i v) := by
  unfold slicesChanged
  refine (SameRange.foldl (fun t x _ => (bindSlice_frame ..).sameRange (by decide) (by decide +kernel)) u).trans
    (.trans (.foldl (fun t p _ => sameRange_setR t _ ?_) _) (.trans (.foldl (fun t p _ => sameRange_setF t _ ?_) _)
      (.trans (.foldl (fun t m _ => sameRange_setF t _ ?_) _)
        (.foldl (fun t l _ => (addLease_frame ..).sameRange (by decide) (by decide +kernel)) _))))
  · exact .inr (by rw [regKey_zero]; simp only [r_CMP_LINK]; omega)
  · exact .inr (by rw [regKey_zero]; simp only [f_CMP_LINK_STATE, r_CMP_LINK]; omega)
  · exact .inr (by rw [regKey_zero]; simp only [f_CMP_MEM_SOURCE, r_CMP_MEM]; omega)

theorem sameRange_refreshLoads (s : State) : SameRange 0 0x500000 s (refreshLoads s) :=
  (refreshLoads_frame s).sameRange (by decide) (by decide +kernel)

theorem sameRange_takeMemKey (s : State) (i : Nat) (new : Comp) (fresh' : Bool) (epoch : Nat) (badKeys : List Nat) :
    SameRange 0 0xE00000 s (takeMemKey s i new fresh' epoch badKeys) :=
  (takeMemKey_frame ..).sameRange (by decide) (by decide +kernel)

theorem sameRange_modImago (s : State) (i : Nat) (f : Imago → Imago) {lo hi : Nat} : SameRange lo hi s (modImago s i f) := .of_regs_eq rfl

theorem sameRange_commitNoted (s : State) (hi : i < 32) (v : Verif) (badKeys : List Nat) :
    SameRange 0x200300 0xE00000 (unitsChanged s i v) (commitNoted s i v badKeys) := by
  have hevac : regKey r_CMP_EVAC i 0 = 0x200200 + i * 8 := regKey_zero ..
  unfold commitNoted
  exact (sameRange_modImago _ _ _).trans ((SameRange.mono (sameRange_takeMemKey _ _ _ _ _ _) (Nat.zero_le _) le_rfl).trans
    (sameRange_setR _ _ (by omega)))

/-- The core's register is as it was when the epoch is set and the loads are brought up to date. -/
theorem sameCore_commitImago (s : State) (hi : i < 32) (v : Verif) (badKeys : List Nat) (hc : c < 144) :
    SameCore c (unitsChanged s i v) (commitImago s i v badKeys) := by
  have hepoch : regKey r_CMP_EPOCH i 0 = 0x200100 + i * 4 := regKey_zero ..
  rw [commitImago_eq]
  exact ((sameRange_commitNoted s hi v badKeys).mono (by omega) (by omega)).trans ((sameRange_setR _ _ (by omega)).trans
    ((sameRange_refreshLoads _).mono (Nat.zero_le _) (by omega)))

theorem bound_commitImago (s : State) (hi : i < 32) (badKeys : List Nat) (hsorted : sortedKeys v.comp.cores = true) {awake : Bool}
    (hc : c < 144) (h : mfind v.comp.cores c = some awake) : coreBound (commitImago s i v badKeys) i c = true
      ∧ flagF (commitImago s i v badKeys) f_CMP_CORE_AWAKE c = awake := by
  obtain ⟨hbound, hawake⟩ := foldl_bindCore_bound hi hsorted h (coresChanged s i v)
  have hkept : SameCore c _ (commitImago s i v badKeys) :=
    ((sameRange_slicesChanged s _ i v).mono (Nat.zero_le _) (by omega)).trans (sameCore_commitImago s hi v badKeys hc)
  refine ⟨?_, ?_⟩
  · rw [coreBound_iff] at hbound ⊢
    rwa [hkept.getF rfl, hkept.getF rfl]
  · rwa [flagF, hkept.getF rfl, ← flagF]

theorem leaves_commitImago (s : State) (hi : i < 32) (badKeys : List Nat) (hc : c < 144) (hbound : coreBound s i c = true)
    (h : mfind v.comp.cores c = none) : getF (commitImago s i v badKeys) f_CMP_CORE_STATE c = 2 := by
  have hleaves : (mfind (leavers (currentComp s i) v.comp) c).isSome = true := by
    have hmem : (c, flagF s f_CMP_CORE_AWAKE c) ∈ leavers (currentComp s i) v.comp :=
      List.mem_filter.mpr ⟨List.mem_map.mpr ⟨c, List.mem_filter.mpr ⟨List.mem_range.mpr hc, hbound⟩, rfl⟩, by rw [h]; rfl⟩
    cases hfind : mfind (leavers (currentComp s i) v.comp) c with
    | none => exact absurd rfl (ne_of_mfind_none hfind hmem)
    | some _ => rfl
  have hkept : SameCore c (coresChanged s i v) (commitImago s i v badKeys) :=
    ((sameCore_foldl_bindCore i h _).trans ((sameRange_slicesChanged s _ i v).mono (Nat.zero_le _) (by omega))).trans
      (sameCore_commitImago s hi v badKeys hc)
  rw [hkept.getF rfl]
  exact (writeRates_core _ i _ _ hc).2 hleaves

theorem epoch_commitImago (s : State) (hi : i < 32) (v : Verif) (badKeys : List Nat) :
    getR (commitImago s i v badKeys) r_CMP_EPOCH i = (v.epoch + 4 * 2 ^ 16 + b2n (!v.evac.isEmpty) * 2 ^ 19) % 2 ^ 64 := by
  have hepoch : regKey r_CMP_EPOCH i 0 = 0x200100 + i * 4 := regKey_zero ..
  rw [commitImago_eq, (sameRange_refreshLoads _).getR (Nat.zero_le _) (by omega), getR_setR_same]

/-- A key taken into use changes nothing else of its Imago. -/
theorem imago_takeMemKey (s : State) (i : Nat) (new : Comp) (fresh' : Bool) (epoch : Nat) (badKeys : List Nat) :
    ∃ k e b, imago (takeMemKey s i new fresh' epoch badKeys) i = { imago s i with memKey := k, memKeyEpoch := e, keyBad := b } := by
  unfold takeMemKey
  split
  · exact ⟨_, _, _, rfl⟩
  · next k _ =>
    split
    · exact ⟨_, _, _, rfl⟩
    · have h : imago (if badKeys.contains k then failKey s k else s) i = imago s i := by
        split
        · exact imago_of_imagos_eq ((failKey_frame ..).imagos (by decide)) i
        · rfl
      refine ⟨some k, epoch, badKeys.contains k || keyIsBad (if badKeys.contains k then failKey s k else s) k,
        (imago_of_imagos_eq (setF_imagos ..) i).trans ((imago_modImago ..).trans ?_)⟩
      rw [h]

/-- The clock and the Imagos, which the units of a commit leave as they are. -/
def imagoTime (s : State) : DWord × SMap Imago := (s.now, s.imagos)

theorem Agree.imagoTime {M : Nat} {t : State} (h : Agree M s t) (hnow : M.testBit 3 = false) (himagos : M.testBit 63 = false) :
    imagoTime t = imagoTime s := Prod.ext (h.now hnow) (h.imagos himagos)

theorem coresChanged_kept (s : State) (i : Nat) (v : Verif) : imagoTime (coresChanged s i v) = imagoTime s :=
  (((writeRates_frame _ i _ _).imagoTime (by decide) (by decide)).trans
    ((writeMaps_frame _ i _ _ _).imagoTime (by decide) (by decide))).trans ((changeWings_frame ..).imagoTime (by decide) (by decide))

theorem slicesChanged_kept (s u : State) (i : Nat) (v : Verif) : imagoTime (slicesChanged s u i v) = imagoTime u := by
  have hslice (t : State) (x : Nat × Nat) : imagoTime (bindSlice t i x.1 x.2) = imagoTime t :=
    (bindSlice_frame ..).imagoTime (by decide) (by decide)
  have hlease (t : State) (l : Lease) : imagoTime (addLease t l true true LeaseTerms.empty) = imagoTime t :=
    (addLease_frame ..).imagoTime (by decide) (by decide)
  have hset (f : RF) (v : Nat) (t : State) (k : Nat) : imagoTime (setF t f k v) = imagoTime t := rfl
  have hlink (t : State) (p : Nat) : imagoTime (setR t r_CMP_LINK p (2 + i * 2 ^ 8)) = imagoTime t := rfl
  unfold slicesChanged
  rw [foldl_keeps imagoTime hlease, foldl_keeps imagoTime (hset f_CMP_MEM_SOURCE 1), foldl_keeps imagoTime (hset f_CMP_LINK_STATE 4),
    foldl_keeps imagoTime hlink, foldl_keeps imagoTime hslice]

theorem unitsChanged_kept (s : State) (i : Nat) (v : Verif) : imagoTime (unitsChanged s i v) = imagoTime s := by
  have hcore (t : State) (x : Nat × Bool) : imagoTime (bindCore t i x.1 x.2) = imagoTime t :=
    (bindCore_frame ..).imagoTime (by decide) (by decide)
  unfold unitsChanged
  rw [slicesChanged_kept, foldl_keeps imagoTime hcore, coresChanged_kept]

/-- What a commit has noted of its Imago, whatever key it takes into use. -/
theorem imago_commitImago (s : State) (i : Nat) (v : Verif) (badKeys : List Nat) : ∃ k e b, imago (commitImago s i v badKeys) i =
    { commitNote s i v s.now (imago s i) with memKey := k, memKeyEpoch := e, keyBad := b } := by
  obtain ⟨hnow, himagos⟩ := Prod.mk.inj (unitsChanged_kept s i v)
  have hkept : imago (commitImago s i v badKeys) i =
      imago (takeMemKey (modImago (unitsChanged s i v) i (commitNote s i v (unitsChanged s i v).now)) i v.comp
        (v.comp.memKey.isSome && v.comp.memKey ≠ (currentComp s i).memKey) v.epoch badKeys) i := by
    rw [commitImago_eq, imago_of_imagos_eq ((refreshLoads_frame _).imagos (by decide))]
    rfl
  obtain ⟨k, e, b, hkey⟩ := imago_takeMemKey (modImago (unitsChanged s i v) i (commitNote s i v (unitsChanged s i v).now)) i v.comp
    (v.comp.memKey.isSome && v.comp.memKey ≠ (currentComp s i).memKey) v.epoch badKeys
  refine ⟨k, e, b, hkept.trans (hkey.trans ?_)⟩
  rw [imago_modImago, hnow, imago_of_imagos_eq himagos]

end

/-! ## The pool's commit, and chrysalis (R340, R345, R352) -/

section
variable {s : State} {i : Nat} {v : Verif}

/-- The state of a pool stream's commit but for its epoch and the loads. -/
def poolChanged (s : State) (v : Verif) : State :=
  let s := v.pool.recalls.foldl (fun s k =>
    let l := leaseAt s k
    let s := if flagF s f_CMP_LEASE_TAKEN k then sendLease s l leaseLost v.epoch else s
    let s := if l.kind = 0 then { s with poolFreed := s.poolFreed ++ [l.unit] } else s
    endLent s k) s
  let s := v.pool.lends.foldl (fun s x =>
    let s := addLease s x.1 false false x.2
    if x.1.kind = 0 then setF (setR s r_CMP_MEM x.1.unit (3 + 0xFF * 2 ^ 8)) f_MEM_SLICE_STAT_BOUND x.1.unit 1
    else setR s r_CMP_LINK x.1.unit (3 + 0xFF * 2 ^ 8)) s
  v.pool.rates.foldl (fun s kv => setRateReg s r_QOS_LINK_RATE kv.1 kv.2 false) s

theorem commitPool_eq (s : State) (v : Verif) :
    commitPool s v = refreshLoads (setR (poolChanged s v) r_CMP_POOL_EPOCH 0 (v.epoch + 2 ^ 16)) := rfl

theorem epoch_commitPool (s : State) (v : Verif) : getR (commitPool s v) r_CMP_POOL_EPOCH = (v.epoch + 2 ^ 16) % 2 ^ 64 := by
  rw [commitPool_eq, (sameRange_refreshLoads _).getR (Nat.zero_le _) (by decide), getR_setR_same]

/-- A tick at which an Imago's commit may come. -/
theorem commitTick_imago {r : FwReq} (hv : s.verif = some v) (hfront : fwFront s 0x04 = some r) (hready : commitReady s v = true)
    (hinst : v.inst = some i) :
    exec (.commitTick []) s = .next (composeEnd (commitImago s i v []) r cmpOk wholeStream v.epoch v.imago) := by
  change execCommitTick [] s = _
  simp only [execCommitTick, hv, hfront, hready, hinst, Bool.not_true, Bool.false_eq_true, if_false]

/-- A tick at which a pool stream's commit may come. -/
theorem commitTick_pool {r : FwReq} (hv : s.verif = some v) (hfront : fwFront s 0x04 = some r) (hready : commitReady s v = true)
    (hinst : v.inst = none) :
    exec (.commitTick []) s = .next (composeEnd (commitPool s v) r cmpOk wholeStream v.epoch v.imago) := by
  change execCommitTick [] s = _
  simp only [execCommitTick, hv, hfront, hready, hinst, Bool.not_true, Bool.false_eq_true, if_false]

/-- The register of a slice is as it was. -/
def SameSlice (m : Nat) (s t : State) : Prop := SameRange (0x201400 + m * 4) (0x201400 + m * 4 + 1) s t

theorem SameSlice.state {m : Nat} {t : State} (h : SameSlice m s t) : getF t f_CMP_MEM_STATE m = getF s f_CMP_MEM_STATE m := by
  have hkey : regKey f_CMP_MEM_STATE.reg m 0 = 0x201400 + m * 4 := regKey_zero ..
  exact SameRange.getF h (by omega) (by omega)

/-- What a scrub writes besides the slice's register. -/
theorem sameRange_scrubSlice (s : State) (m : Nat) :
    SameRange 0 0x800000 (setR s r_CMP_MEM m (4 + 0xFF * 2 ^ 8)) (scrubSlice s m) := by
  have hkey : regKey f_MEM_SLICE_STAT_BOUND.reg m 0 = 0x801000 + m * 4 := regKey_zero ..
  have hkey' : regKey f_MEM_SLICE_STAT_INSTANCE.reg m 0 = 0x801000 + m * 4 := regKey_zero ..
  unfold scrubSlice
  exact SameRange.trans (.of_regs_eq rfl)
    ((sameRange_setF (setR { s with bufs := _ } r_CMP_MEM m (4 + 0xFF * 2 ^ 8)) (f := f_MEM_SLICE_STAT_BOUND) 0 (by omega)).trans
      (sameRange_setF _ _ (by omega)))

/-- A scrubbed slice is SCRUBBING. -/
theorem state_scrubSlice (s : State) {m : Nat} (hm : m < 256) : getF (scrubSlice s m) f_CMP_MEM_STATE m = 4 := by
  have hkey : regKey f_CMP_MEM_STATE.reg m 0 = 0x201400 + m * 4 := regKey_zero ..
  rw [(sameRange_scrubSlice s m).getF (Nat.zero_le _) (by omega)]
  exact congrArg (bitsOf · 0 3) (getR_setR_same s r_CMP_MEM m (4 + 0xFF * 2 ^ 8) 0)

theorem sameSlice_scrubSlice (s : State) {m m' : Nat} (hm : m < 256) (h : m' ≠ m) : SameSlice m s (scrubSlice s m') := by
  have hkey : regKey r_CMP_MEM m' 0 = 0x201400 + m' * 4 := regKey_zero ..
  exact (sameRange_setR s _ (by omega)).trans ((sameRange_scrubSlice s m').mono (Nat.zero_le _) (by omega))

/-- The freed slices are SCRUBBING once all have been scrubbed. -/
theorem state_foldl_scrubSlice {l : List Nat} (hl : ∀ m ∈ l, m < 256) {m : Nat} (hm : m ∈ l) (s : State) :
    getF (l.foldl scrubSlice s) f_CMP_MEM_STATE m = 4 := by
  induction l generalizing s with
  | nil => cases hm
  | cons x l ih =>
    rw [List.foldl_cons]
    by_cases hin : m ∈ l
    · exact ih (fun k hk => hl k (List.mem_cons_of_mem _ hk)) hin _
    · obtain rfl : m = x := (List.mem_cons.mp hm).resolve_right hin
      have hkept : SameSlice m (scrubSlice s m) (l.foldl scrubSlice (scrubSlice s m)) :=
        SameRange.foldl (fun t k hk => sameSlice_scrubSlice t (hl m List.mem_cons_self) (fun h => hin (h ▸ hk))) _
      rw [hkept.state, state_scrubSlice s (hl m List.mem_cons_self)]

/-- The state in which what a chrysalis held has been given back, but for the Imago's record of it. -/
def chrysalisFreed (s : State) (i : Nat) : State :=
  (imago s i).returned.foldl (fun t l => giveBack t l (getF s f_CMP_EPOCH_EPOCH i)) ((imago s i).freed.foldl scrubSlice s)

/-- The Imago once its chrysalis is over. -/
def Imago.settled (m : Imago) : Imago :=
  { m with old := none, evac := [], snapshot := none, freed := [], returned := [], load := m.after }

/-- The state at the end of a chrysalis but for its event and the loads. -/
def chrysalisSettled (s : State) (i : Nat) : State :=
  setR (modImago (chrysalisFreed s i) i Imago.settled) r_CMP_EPOCH i
    (getF s f_CMP_EPOCH_EPOCH i + restState (modImago (chrysalisFreed s i) i Imago.settled) i * 2 ^ 16)

theorem endChrysalis_eq (s : State) (i : Nat) : endChrysalis s i = postEvent (refreshLoads (chrysalisSettled s i)) 0
    (eventRecord 0x20 0 i (getF s f_CMP_EPOCH_EPOCH i) 0 0 (refreshLoads (chrysalisSettled s i)).now) := rfl

theorem restState_cases (s : State) (i : Nat) : restState s i = 1 ∨ restState s i = 2 := by
  unfold restState
  split
  · exact .inr rfl
  · exact .inl rfl

theorem sameRange_giveBack (s : State) (l : Lease) (epoch : Nat) : SameRange 0x200200 0x201900 s (giveBack s l epoch) := by
  unfold giveBack
  have hsend : SameRange 0x200200 0x201900 s (sendLease s l leaseReturn epoch) := (sendLease_frame ..).sameRange (by decide) (by decide +kernel)
  dsimp only
  split
  · next k _ =>
    have hkey : regKey r_CMP_LEASE k 0 = 0x201900 + k * 8 := regKey_zero ..
    exact hsend.trans (sameRange_setR (sendLease s l leaseReturn epoch) (r := r_CMP_LEASE) (k := k) 0 (.inr (by omega)))
  · exact hsend

/-- The freed slices are SCRUBBING at the end of a chrysalis. -/
theorem state_endChrysalis (s : State) (hi : i < 32) (hfreed : ∀ m ∈ (imago s i).freed, m < 256) {m : Nat} (hm : m ∈ (imago s i).freed) :
    getF (endChrysalis s i) f_CMP_MEM_STATE m = 4 := by
  have hlt := hfreed m hm
  have hepoch : regKey r_CMP_EPOCH i 0 = 0x200100 + i * 4 := regKey_zero ..
  have hback : SameSlice m ((imago s i).freed.foldl scrubSlice s) (chrysalisFreed s i) :=
    SameRange.foldl (fun t l _ => (sameRange_giveBack t l _).mono (by omega) (by omega)) _
  have hsettled : SameSlice m (chrysalisFreed s i) (chrysalisSettled s i) :=
    (sameRange_modImago _ _ _).trans (sameRange_setR _ _ (by omega))
  have hend : SameSlice m (chrysalisSettled s i) (endChrysalis s i) := by
    rw [endChrysalis_eq]
    exact ((sameRange_refreshLoads _).mono (Nat.zero_le _) (by omega)).trans
      ((postEvent_frame ..).sameRange (by decide) (hi := 0x500000) (by decide +kernel) |>.mono le_rfl (by omega))
  rw [hend.state, hsettled.state, hback.state, state_foldl_scrubSlice hfreed hm]

theorem epoch_endChrysalis (s : State) (hi : i < 32) :
    getR (endChrysalis s i) r_CMP_EPOCH i = (getF s f_CMP_EPOCH_EPOCH i
      + restState (modImago (chrysalisFreed s i) i Imago.settled) i * 2 ^ 16) % 2 ^ 64 := by
  have hepoch : regKey r_CMP_EPOCH i 0 = 0x200100 + i * 4 := regKey_zero ..
  have hpost (t : State) (rec : List Byte) : SameRange 0 0x500000 t (postEvent t 0 rec) :=
    (postEvent_frame ..).sameRange (by decide) (by decide +kernel)
  rw [endChrysalis_eq, (hpost _ _).getR (Nat.zero_le _) (by omega), (sameRange_refreshLoads _).getR (Nat.zero_le _) (by omega)]
  exact getR_setR_same ..

theorem imago_endChrysalis (s : State) (i : Nat) : imago (endChrysalis s i) i = (imago s i).settled := by
  have hscrub (t : State) (m : Nat) : (scrubSlice t m).imagos = t.imagos := (scrubSlice_frame ..).imagos (by decide)
  have hback (t : State) (l : Lease) : (giveBack t l (getF s f_CMP_EPOCH_EPOCH i)).imagos = t.imagos :=
    (giveBack_frame ..).imagos (by decide)
  have hfreed : (chrysalisFreed s i).imagos = s.imagos := (foldl_keeps State.imagos hback _ _).trans (foldl_keeps State.imagos hscrub _ _)
  rw [endChrysalis_eq, imago_of_imagos_eq ((postEvent_frame ..).imagos (by decide)),
    imago_of_imagos_eq ((refreshLoads_frame _).imagos (by decide))]
  unfold chrysalisSettled
  rw [imago_of_imagos_eq (setR_imagos ..), imago_modImago, imago_of_imagos_eq hfreed]

theorem chrysalisEnd_exec (hi : i < 32) (hstate : getF s f_CMP_EPOCH_STATE i = 4) (hover : chrysalisOver s i = true) :
    exec (.chrysalisEnd i) s = .next (endChrysalis s i) := by
  change execChrysalisEnd i s = _
  rw [execChrysalisEnd, if_neg (by omega), if_neg (by simp [hstate, hover, hi])]

theorem chrysalisEnd_pool (hpool : flagF s f_CMP_POOL_EPOCH_CHRYSALIS = true) (hreqs : s.reqs = []) :
    exec (.chrysalisEnd 0xFF) s = .next (setF { s with poolFreed := [] } f_CMP_POOL_EPOCH_CHRYSALIS 0 0) := by
  change execChrysalisEnd 0xFF s = _
  simp only [execChrysalisEnd, if_true, hreqs, List.any_nil, Bool.not_false, Bool.and_true, hpool]

theorem chrysalisSlow_exec (hi : i < 32) (hstate : getF s f_CMP_EPOCH_STATE i = 4) (hslow : flagF s f_CMP_EPOCH_SLOW i = false)
    (hdue : dueRun s (imago s i).committed (getF s f_CMP_CFG_WARN_MS * msTicks) = true) :
    exec (.chrysalisSlow i) s = .next (postEvent (setF s f_CMP_EPOCH_SLOW i 1) 0
      (eventRecord 0x21 0 i (getF s f_CMP_EPOCH_EPOCH i) 0 0 s.now)) := by
  change execChrysalisSlow i s = _
  rw [execChrysalisSlow, if_neg (by simp [hi, hstate, hslow, hdue])]

end

/-! ## The fields of an epoch's word (R339) -/

theorem epochWord_fields {e st evac : Nat} (he : e < 2 ^ 16) (hst : st < 8) :
    let w := (e + st * 2 ^ 16 + evac * 2 ^ 19) % 2 ^ 64
    bitsOf w 0 16 = e ∧ bitsOf w 16 3 = st := by
  unfold bitsOf
  omega

theorem poolWord_fields {e : Nat} (he : e < 2 ^ 16) : let w := (e + 2 ^ 16) % 2 ^ 64
    bitsOf w 0 16 = e ∧ bitsOf w 16 1 = 1 := by
  unfold bitsOf
  omega

/-- Settles O34: the units change over part by part, and each part leaves the registers of those before it. -/
theorem commits : Obligations.Commits := by
  refine ⟨fun s r v hv hfront hready hepoch => ⟨fun i hinst hi hsorted hcores _ _ _ => ?_, fun hinst => ?_⟩,
    fun i s hi hstate hover hfreed => ?_, fun s hpool hreqs => ?_, fun i s hi hstate hslow hdue hroom => ?_⟩
  · obtain ⟨k, e, b, himago⟩ := imago_commitImago s i v []
    have hkey : regKey r_CMP_EPOCH i 0 = 0x200100 + i * 4 := regKey_zero ..
    have hend (lo hi : Nat) (hlo : 0x200010 < lo) :=
      sameRange_composeEnd (commitImago s i v []) (lo := lo) (hi := hi) r cmpOk wholeStream v.epoch v.imago (.inl hlo)
    have hword := ((hend 0x200100 0x200200 (by decide)).getR (by omega) (by omega)).trans (epoch_commitImago s hi v [])
    have hcore (c : Nat) : SameCore c (commitImago s i v []) (composeEnd (commitImago s i v []) r cmpOk wholeStream v.epoch v.imago) :=
      hend _ _ (by omega)
    obtain ⟨hfield, hfield'⟩ := epochWord_fields (evac := b2n (!v.evac.isEmpty)) hepoch (by decide : 4 < 8)
    have hcomposed := composed_composeEnd (s := s) (t := commitImago s i v []) r (code := cmpOk) wholeStream v.epoch v.imago
      ((commitImago_frame ..).fwq (by decide)) (fwq_ne_nil_of_fwFront hfront) (by decide)
    have himago' := (imago_of_imagos_eq ((composeEnd_frame (commitImago s i v []) r cmpOk wholeStream v.epoch v.imago).imagos
      (by decide)) i).trans himago
    have hi' : v.imago = i := by rw [Verif.imago, hinst]; rfl
    refine ⟨_, commitTick_imago hv hfront hready hinst, by rwa [hi'] at hcomposed ⊢, (congrArg (bitsOf · 0 16) hword).trans hfield, (congrArg (bitsOf · 16 3) hword).trans hfield', ?_, ?_, ?_, ?_,
      fun c awake hfind => ?_, fun c hc hbound hfind => ?_⟩
    · rw [himago']; rfl
    · rw [himago']; rfl
    · rw [himago']; rfl
    · rw [himago']; rfl
    · have hc := hcores _ (mem_of_mfind hfind)
      obtain ⟨hbound, hawake⟩ := bound_commitImago s hi [] hsorted hc hfind
      rw [coreBound_iff, (hcore c).getF rfl, (hcore c).getF rfl, ← coreBound_iff, flagF, (hcore c).getF rfl, ← flagF]
      exact ⟨hbound, hawake⟩
    · rw [(hcore c).getF rfl]
      exact leaves_commitImago s hi [] hc hbound hfind
  · have hword := ((sameRange_composeEnd (lo := 0x20000C) (hi := 0x200010) (commitPool s v) r cmpOk wholeStream v.epoch v.imago
      (.inr (by decide))).getR (r := r_CMP_POOL_EPOCH) (k := 0) (win := 0) (by decide) (by decide)).trans (epoch_commitPool s v)
    obtain ⟨hfield, hfield'⟩ := poolWord_fields hepoch
    have hcomposed := composed_composeEnd (s := s) (t := commitPool s v) r (code := cmpOk) wholeStream v.epoch v.imago
      ((commitPool_frame ..).fwq (by decide)) (fwq_ne_nil_of_fwFront hfront) (by decide)
    refine ⟨_, commitTick_pool hv hfront hready hinst, ?_, (congrArg (bitsOf · 0 16) hword).trans hfield, ?_⟩
    · rwa [show v.imago = 0xFF by rw [Verif.imago, hinst]; rfl] at hcomposed ⊢
    · exact decide_eq_true (ne_of_eq_of_ne ((congrArg (bitsOf · 16 1) hword).trans hfield') Nat.one_ne_zero)
  · have hword := epoch_endChrysalis s hi
    have hlt : getF s f_CMP_EPOCH_EPOCH i < 2 ^ 16 := Nat.mod_lt _ (by decide)
    have hrest := restState_cases (modImago (chrysalisFreed s i) i Imago.settled) i
    obtain ⟨hfield, hfield'⟩ := epochWord_fields hlt (st := restState (modImago (chrysalisFreed s i) i Imago.settled) i) (evac := 0)
      (by omega)
    rw [Nat.zero_mul, Nat.add_zero] at hfield hfield'
    have himago := imago_endChrysalis s i
    refine ⟨_, chrysalisEnd_exec hi hstate hover, ?_, ?_, ?_, (congrArg (bitsOf · 0 16) hword).trans hfield, ?_,
      fun m hm => state_endChrysalis s hi hfreed hm⟩
    · rw [himago]; rfl
    · rw [himago]; rfl
    · rw [himago]; rfl
    · rw [show getF (endChrysalis s i) f_CMP_EPOCH_STATE i = _ from (congrArg (bitsOf · 16 3) hword).trans hfield']
      exact hrest
  · exact ⟨_, chrysalisEnd_pool hpool hreqs, flagF_setF_zero _ 0 (by decide), rfl⟩
  · refine ⟨_, chrysalisSlow_exec hi hstate hslow hdue, ?_⟩
    rw [postEvent_room (by simpa using hroom)]
    refine ⟨flagF_setF_one s i rfl (by decide), ?_, ?_⟩
    · exact (getF_setF_off s f_CMP_EPOCH_SLOW f_CMP_EPOCH_STATE i 1 0 rfl (by decide) (by decide)).trans hstate
    · exact (mget_mput ..).trans (if_pos rfl)

end Sys2Proof.Machine
end

section
/-! O37: doorbells, entries taken, contexts that become resident, and instars that advance (R357, R364, R365, R374 to R377). -/

namespace Sys2Proof.Machine

/-! ## Queues (R374, R386) -/

section
variable {s t : State} {q d : Nat} {v : Queue}

theorem queueOf_modQueue (s : State) (q : Nat) (f : Queue → Queue) (d : Nat) :
    queueOf (modQueue s q f) d = if q = d then (queueOf s d).map f else queueOf s d := by
  unfold queueOf modQueue
  by_cases h : q = d
  · subst h
    cases hq : mfind s.queues q with
    | none => simp [hq]
    | some v => simp [mfind_mput]
  · cases mfind s.queues q with
    | none => simp [h]
    | some v => simp [mfind_mput, h]

theorem queueOf_congr (h : t.queues = s.queues) (q : Nat) : queueOf t q = queueOf s q := by
  unfold queueOf
  rw [h]

theorem ctxOf_congr (h : t.ctxs = s.ctxs) (c : Nat) : ctxOf t c = ctxOf s c := by
  unfold ctxOf
  rw [h]

/-- A queue in the state in which it is put when it is halted. -/
def Queue.halted (v : Queue) (st code idx : Nat) : Queue := { v with state := st, code := code, failedAt := idx, badBell := false }

theorem haltQueue_eq (h : queueOf s q = some v) (st code idx tag : Nat) : haltQueue s q st code idx tag =
    postEvent (writeStatus (modQueue s q (fun v => v.halted st code idx)) q) v.win (eventRecord 0x17 code v.space v.num idx tag
      (writeStatus (modQueue s q (fun v => v.halted st code idx)) q).now) := by
  unfold haltQueue
  rw [h]
  rfl

theorem writeStatus_queues (s : State) (q : Nat) : (writeStatus s q).queues = s.queues := (writeStatus_frame ..).queues (by decide)

theorem queueOf_haltQueue (s : State) (q st code idx tag d : Nat) :
    queueOf (haltQueue s q st code idx tag) d = if q = d then (queueOf s d).map (fun v => v.halted st code idx) else queueOf s d := by
  cases hq : queueOf s q with
  | none =>
    have hsame : haltQueue s q st code idx tag = s := by
      unfold haltQueue
      rw [hq]
    rw [hsame]
    split
    · next h => rw [← h, hq]; rfl
    · rfl
  | some v =>
    rw [haltQueue_eq hq, queueOf_congr ((postEvent_frame ..).queues (by decide)), queueOf_congr (writeStatus_queues ..), queueOf_modQueue]

theorem queueOf_stopQueue (s : State) (q code idx tag d : Nat) : queueOf (stopQueue s q code idx tag) d =
    if q = d then (queueOf s d).map (fun v => v.halted qStopped code idx) else queueOf s d := queueOf_haltQueue ..

/-- The record of a stopped queue is posted when its window's queue has room. -/
theorem evHeld_stopQueue (h : queueOf s q = some v) (hroom : (mget [] s.evHeld v.win).length < 1024) (code idx tag : Nat) :
    mget [] (stopQueue s q code idx tag).evHeld v.win =
      mget [] s.evHeld v.win ++ [eventRecord 0x17 code v.space v.num idx tag s.now] := by
  have hstop : stopQueue s q code idx tag = _ := haltQueue_eq h qStopped code idx tag
  have hmod : (modQueue s q (fun v => v.halted qStopped code idx)).evHeld = s.evHeld
      ∧ (modQueue s q (fun v => v.halted qStopped code idx)).now = s.now :=
    ⟨(modQueue_frame ..).evHeld (by decide), (modQueue_frame ..).now (by decide)⟩
  have hheld : (writeStatus (modQueue s q (fun v => v.halted qStopped code idx)) q).evHeld = s.evHeld :=
    ((writeStatus_frame ..).evHeld (by decide)).trans hmod.1
  have hnow : (writeStatus (modQueue s q (fun v => v.halted qStopped code idx)) q).now = s.now :=
    ((writeStatus_frame ..).now (by decide)).trans hmod.2
  rw [hstop, postEvent_room (by rw [hheld]; exact hroom), hnow, hheld]
  exact (mget_mput ..).trans (if_pos rfl)

theorem schedule_queues (s : State) (i : Nat) : (schedule s i).queues = s.queues := (schedule_frame ..).queues (by decide)

end

/-! ## Doorbells (R375, R376) -/

section
variable {s : State} {win n v q : Nat} {w : Queue}

theorem winQueue_spec (h : winQueue s win n = some (q, w)) : queueOf s q = some w ∧ w.win = win := by
  unfold winQueue at h
  dsimp only at h
  split at h
  · cases h
  · split at h
    · cases h
    · next hq =>
      split at h
      · cases h
      · next hw =>
        obtain ⟨rfl, rfl⟩ := Prod.mk.inj (Option.some.inj h)
        exact ⟨hq, by_contra fun hne => hw (by simp [hne])⟩

theorem doorbell_exec (hopen : winOpen s win = true) (hq : winQueue s win n = some (q, w))
    (hdown : (ctxOf s w.space).bind Ctx.down = none) (hnew : v % 65536 ≠ w.tail) : exec (.doorbell win n v) s = .next (
      if doorbellOk w (v % 65536) then
        schedule (modQueue s q (fun w => { w with tail := v % 65536, progress := s.now })) (instOfWin win)
      else modQueue (stopQueue s q errCommandInvalid (v % 65536) 0) q (fun w => { w with badBell := true })) := by
  change execDoorbell win n v s = _
  simp only [execDoorbell, hopen, hq, hdown, Bool.not_true, Bool.false_eq_true, if_false, Option.isSome_none, Bool.or_false,
    decide_eq_true_eq, if_neg hnew]

end

/-! ## Entries taken (R375, R377) -/

section
variable {s s1 : State} {q bad e : Nat} {v : Queue} {x : Ctx} {d : List Byte} {refs : List Nat} {c : Cmd}

/-- A queue whose next visible entry can be taken, and its entry as it is read. -/
structure EntryRead (s s1 : State) (q bad : Nat) (v : Queue) (x : Ctx) (d : List Byte) : Prop where
  queue : queueOf s q = some v
  ctx : ctxOf s v.space = some x
  stands : x.down = none
  resident : x.slot.isSome = true
  runs : v.state = qRunning
  visible : v.head ≠ v.tail
  room : v.cmds.length < 64
  roomAll : s.cmds.length < 32768
  free : devStalled s q 0 = false
  read : devRead s (ctxSlot s v.space) q 0 (v.ring + 64 * v.head) 64 = (.ok d bad, s1)

/-- What reading the entry keeps. -/
theorem EntryRead.kept (h : EntryRead s s1 q bad v x d) : s1.queues = s.queues ∧ s1.cmds = s.cmds ∧ s1.objs = s.objs := by
  have hs1 : (devRead s (ctxSlot s v.space) q 0 (v.ring + 64 * v.head) 64).2 = s1 := by rw [h.read]
  have hframe := devRead_frame s (ctxSlot s v.space) q 0 (v.ring + 64 * v.head) 64
  rw [hs1] at hframe
  exact ⟨hframe.queues (by decide), hframe.cmds (by decide), hframe.objs (by decide)⟩

theorem commandTake_poisoned (h : EntryRead s s1 q bad v x d) (hbad : bad ≠ 0) :
    exec (.commandTake q) s = .next (stopQueue (devDone s1 q 0) q errDataPoison v.head 0) := by
  obtain ⟨slot, hslot⟩ := Option.isSome_iff_exists.mp h.resident
  change execCommandTake q s = _
  unfold execCommandTake
  simp only [h.queue, h.ctx]
  rw [if_neg (by simp [h.stands, hslot, h.runs, h.visible, h.room, h.roomAll, h.free])]
  simp only [h.read, h.stands, ne_eq, hbad, not_false_eq_true, if_true, Option.isSome_none, Bool.false_eq_true, if_false]

/-- The new references of a command. -/
def newRefs (s : State) (refs : List Nat) : List Nat := (refs.filter (fun k => ((mfind s.objs k).map ObjRec.refs).getD 0 = 0)).eraseDups

theorem length_eraseDups_le (l : List Nat) : l.eraseDups.length ≤ l.length := by
  match l with
  | [] => exact le_rfl
  | x :: l =>
    rw [List.eraseDups_cons, List.length_cons, List.length_cons]
    exact Nat.succ_le_succ ((length_eraseDups_le _).trans (List.length_filter_le ..))
termination_by l.length
decreasing_by exact Nat.lt_succ_of_le (List.length_filter_le ..)

theorem length_newRefs_le (s : State) (refs : List Nat) : (newRefs s refs).length ≤ refs.length :=
  (length_eraseDups_le _).trans (List.length_filter_le ..)

theorem commandTake_entered (h : EntryRead s s1 q 0 v x d) (hflush : v.flush = 0)
    (hvalid : (validate s1 (ctxSlot s v.space) q x (Cmd.ofEntry q v.head d v.space x)).1 = .ok e refs)
    (hrefs : objsReferenced s + refs.length ≤ 65536) :
    let s2 := (validate s1 (ctxSlot s v.space) q x (Cmd.ofEntry q v.head d v.space x)).2
    exec (.commandTake q) s = .next (schedule (retireObjects (enterCmd (setF s2 f_SCH_STATUS_OBJREF_FULL 0 0) q v
      { Cmd.ofEntry q v.head d v.space x with bad := e, fenceOk := fenceVaOk (Cmd.ofEntry q v.head d v.space x), refs := refs })) x.inst) := by
  obtain ⟨slot, hslot⟩ := Option.isSome_iff_exists.mp h.resident
  rcases hv : validate s1 (ctxSlot s v.space) q x (Cmd.ofEntry q v.head d v.space x) with ⟨r, s2⟩
  rw [hv] at hvalid
  obtain rfl : r = .ok e refs := hvalid
  have hobjs : s2.objs = s.objs := by
    have hframe := validate_frame s1 (ctxSlot s v.space) q x (Cmd.ofEntry q v.head d v.space x)
    rw [hv] at hframe
    exact (hframe.objs (by decide)).trans h.kept.2.2
  have hroom : ¬ 65536 < objsReferenced s2 + (newRefs s2 refs).length := by
    have := length_newRefs_le s2 refs
    have hcount : objsReferenced s2 = objsReferenced s := by unfold objsReferenced; rw [hobjs]
    omega
  change execCommandTake q s = _
  unfold execCommandTake
  simp only [h.queue, h.ctx]
  rw [if_neg (by simp [h.stands, hslot, h.runs, h.visible, h.room, h.roomAll, h.free])]
  simp only [h.read, h.stands, ne_eq, not_true_eq_false, if_false, Option.isSome_none, Bool.false_eq_true, hflush, hv]
  exact congrArg _ (if_neg hroom)

/-- The state of a command that has been put on chip, but for its queue. -/
def cmdEntered (s : State) (q : Nat) (c : Cmd) : State :=
  takeRefs { (fresh (devDone s q 0)).2 with cmds := mput (fresh (devDone s q 0)).2.cmds (fresh (devDone s q 0)).1 c } c.refs

/-- A queue whose HEAD has passed the entry of command `id`. -/
def Queue.entered (w v : Queue) (id : Nat) (now : DWord) : Queue :=
  { w with head := (v.head + 1) % 2 ^ v.log2, cmds := w.cmds ++ [id], taken := (w.taken + 1) % 16, flush := w.flush - 1
           progress := now }

theorem enterCmd_eq (s : State) (q : Nat) (v : Queue) (c : Cmd) : enterCmd s q v c =
    if v.taken = 15 then writeStatus (modQueue (cmdEntered s q c) q (fun w => w.entered v (fresh (devDone s q 0)).1 (cmdEntered s q c).now)) q
    else modQueue (cmdEntered s q c) q (fun w => w.entered v (fresh (devDone s q 0)).1 (cmdEntered s q c).now) := rfl

theorem cmdOf_enterCmd (s : State) (q : Nat) (v : Queue) (c : Cmd) : cmdOf (enterCmd s q v c) (fresh (devDone s q 0)).1 = some c := by
  have hcmds : (cmdEntered s q c).cmds = mput (fresh (devDone s q 0)).2.cmds (fresh (devDone s q 0)).1 c :=
    (takeRefs_frame ..).cmds (by decide)
  have hmod : (enterCmd s q v c).cmds = (cmdEntered s q c).cmds := by
    rw [enterCmd_eq]
    split
    · rw [(writeStatus_frame ..).cmds (by decide), (modQueue_frame ..).cmds (by decide)]
    · rw [(modQueue_frame ..).cmds (by decide)]
  unfold cmdOf
  rw [hmod, hcmds, mfind_mput, if_pos rfl]

theorem queueOf_enterCmd (s : State) (q : Nat) (v : Queue) (c : Cmd) : queueOf (enterCmd s q v c) q =
    (queueOf s q).map (fun w => w.entered v (fresh (devDone s q 0)).1 (cmdEntered s q c).now) := by
  have hqueues : (cmdEntered s q c).queues = s.queues :=
    ((takeRefs_frame ..).queues (by decide)).trans ((devDone_frame s q 0).queues (by decide))
  rw [enterCmd_eq, ← queueOf_congr hqueues]
  split
  · rw [queueOf_congr (writeStatus_queues ..), queueOf_modQueue, if_pos rfl]
  · rw [queueOf_modQueue, if_pos rfl]

theorem validate_malformed (slot : SlotInfo) (h : entryOk c = false) : (validate s slot q x c).1 = .ok errCommandInvalid [] := by
  unfold validate
  rw [h]
  rfl

end

/-! ## What the scheduler leaves of slots (R388, R403) -/

section
variable {s t u : State} {i k c : Nat}

/-- Contexts keep their slots, and slot `k` its fields but its state. -/
structure SlotStays (k : Nat) (s t : State) : Prop where
  slots : ∀ c, (ctxOf t c).map Ctx.slot = (ctxOf s c).map Ctx.slot
  field : ∀ f : RF, f.reg = r_SCH_SLOT → f.lo + f.width ≤ 64 → f.lo + f.width ≤ 20 ∨ 23 ≤ f.lo → getF t f k = getF s f k

theorem SlotStays.refl (k : Nat) (s : State) : SlotStays k s s := ⟨fun _ => rfl, fun _ _ _ _ => rfl⟩

theorem SlotStays.trans (h : SlotStays k s t) (h' : SlotStays k t u) : SlotStays k s u :=
  ⟨fun c => (h'.slots c).trans (h.slots c), fun f hr hw ho => (h'.field f hr hw ho).trans (h.field f hr hw ho)⟩

theorem SlotStays.of_eq (hc : t.ctxs = s.ctxs) (hr : t.regs = s.regs) : SlotStays k s t :=
  ⟨fun c => by rw [ctxOf_congr hc], fun f _ _ _ => by unfold getF; rw [getR_of_regs_eq hr]⟩

theorem SlotStays.modSched (h : SlotStays k s t) (i : Nat) (f : Sched → Sched) : SlotStays k s (modSched t i f) := h.trans (.of_eq rfl rfl)

theorem SlotStays.modCtx (h : SlotStays k s t) (c : Nat) {f : Ctx → Ctx} (hf : ∀ x, (f x).slot = x.slot) :
    SlotStays k s (modCtx t c f) := by
  refine h.trans ⟨fun d => ?_, fun g _ _ _ => by unfold getF; rw [getR_of_regs_eq (modCtx_regs ..)]⟩
  rw [ctxOf_modCtx]
  split
  · cases ctxOf t d with
    | none => rfl
    | some x => exact congrArg some (hf x)
  · rfl

theorem SlotStays.setSlotState (h : SlotStays k s t) (c st : Nat) : SlotStays k s (setSlotState t c st) := by
  refine h.trans ⟨fun d => by rw [ctxOf_setSlotState], fun f hr hw ho => ?_⟩
  unfold Machine.setSlotState
  split
  · next j _ _ =>
    by_cases hj : j = k
    · rw [hj]
      exact getF_setF_off t f_SCH_SLOT_STATE f k st 0 hr hw ho
    · exact getF_setF_key _ _ _ _ _ _ _ _ (by rw [hr]; exact slotKey_ne_slotKey hj)
  · rfl

theorem SlotStays.setImg (h : SlotStays k s t) (hk : k < 64) {f : RF} (hf : f.reg = r_SCH_IMG) (i v : Nat) : SlotStays k s (setF t f i v) :=
  h.trans ⟨fun _ => rfl, fun g hr _ _ => getF_setF_key _ _ _ _ _ _ _ _ (by rw [hf, hr]; exact (slotKey_ne_imgKey hk i).symm)⟩

theorem SlotStays.startSlice (h : SlotStays k s t) (i c : Nat) : SlotStays k s (startSlice t i c) := by
  unfold Machine.startSlice
  split
  · exact h
  · exact (h.modCtx c (by exact fun _ => rfl)).modSched i _

theorem SlotStays.setHolder (h : SlotStays k s t) (hk : k < 64) (i : Nat) (c : Option Nat) : SlotStays k s (setHolder t i c) := by
  unfold Machine.setHolder
  cases c with
  | none => exact h.setImg hk rfl i 0
  | some c => exact (((h.setImg hk (f := f_SCH_IMG_HOLDER) rfl i _).setImg hk (f := f_SCH_IMG_VALID) rfl i 1).setSlotState c _).modSched i _

theorem SlotStays.handOver (h : SlotStays k s t) (hk : k < 64) (i old : Nat) (new : Option Nat) : SlotStays k s (handOver t i old new) :=
  ((h.setSlotState old _).modSched i _).setHolder hk i new

theorem SlotStays.chooseHolder (h : SlotStays k s t) (i : Nat) (l : List Nat) : SlotStays k s (chooseHolder t i l).2 := by
  unfold Machine.chooseHolder
  split
  · exact h
  · dsimp only
    split
    · dsimp only
      exact h.modSched i _
    · exact h

/-- The scheduler's decision moves no context to another slot. -/
theorem slotStays_schedule (s : State) (hk : k < 64) (i : Nat) : SlotStays k s (schedule s i) := by
  have hs := SlotStays.refl k s
  unfold schedule
  split
  · exact hs
  · dsimp only
    split
    · split
      · exact hs.chooseHolder ..
      · exact ((hs.chooseHolder ..).setHolder hk ..).startSlice ..
    · split
      · exact (((hs.modCtx _ (by exact fun _ => rfl)).modSched _ _).chooseHolder _ _).handOver hk ..
      · split
        · exact hs.startSlice ..
        · split
          · split
            · split
              · exact (hs.chooseHolder ..).startSlice ..
              · exact (hs.chooseHolder ..).handOver hk ..
            · exact hs.chooseHolder ..
          · split
            · exact (hs.chooseHolder ..).handOver hk ..
            · exact hs

end

/-! ## Contexts that become resident (R364, R365, R367) -/

section
variable {s s1 : State} {space k old : Nat} {x y : Ctx} {e : SlotInfo}

/-- A context that is not resident, stands, and has work. -/
structure WantsIn (s : State) (space : Nat) (x : Ctx) : Prop where
  ctx : ctxOf s space = some x
  away : x.slot = none
  stands : x.down = none
  wants : wantsSlot s space = true

/-- The first free slot whose instar may advance. -/
def freeSlot (s : State) : Option Nat :=
  (List.range 64).find? (fun k => slotState s k = slotFree && instarReady s (.slot k) && mget 0 s.instarDue (Unit8.slot k).key = 0)

theorem freeSlot_spec (h : freeSlot s = some k) :
    k < 64 ∧ instarReady s (.slot k) = true ∧ mget 0 s.instarDue (Unit8.slot k).key = 0 := by
  have hmem := List.mem_of_find?_eq_some h
  have hp := List.find?_some h
  simp only [Bool.and_eq_true, decide_eq_true_eq] at hp
  exact ⟨List.mem_range.mp hmem, hp.1.2, hp.2⟩

/-- The state in which a context has its slot, but for the slot's instar and the scheduler's decision. -/
def slotTaken (s : State) (space k : Nat) (x : Ctx) (e : SlotInfo) : State :=
  let s := { s with slots := mput s.slots k e }
  let s := modCtx s space (fun x => { x with slot := some k, ran := s.now })
  setF (setF (setF (setF s f_SCH_SLOT_SPACE k space) f_SCH_SLOT_STATE k slotResident) f_SCH_SLOT_INSTANCE k x.inst) f_SCH_SLOT_PRIO k x.prio

theorem contextResident_taken (h : WantsIn s space x) (hroom : (residents s x.inst).length < winSlots s x.win)
    (hfree : freeSlot s = some k) (hentry : slotEntry s space x = (some (some e), s1)) : exec (.contextResident space) s =
      .next (schedule (advanceInstar (slotTaken (devEnd s1 (adminQ x.win) 0) space k x e) (.slot k)) x.inst) := by
  unfold freeSlot at hfree
  change execContextResident space s = _
  unfold execContextResident
  simp only [h.ctx]
  rw [if_neg (by simp [h.away, h.stands, h.wants]), if_neg (Nat.not_le.mpr hroom)]
  simp only [hfree, hentry]
  rfl

/-- The queues of a context, stopped because its save area or its space-table entry does not admit it. -/
def queuesRefused (s : State) (l : List Nat) : State :=
  l.foldl (fun s q => match queueOf s q with
    | some v => stopQueue s q errSaveFault v.head 0
    | none => s) s

theorem contextResident_refused (h : WantsIn s space x) (hroom : (residents s x.inst).length < winSlots s x.win)
    (hfree : freeSlot s = some k) (hentry : slotEntry s space x = (some none, s1)) : exec (.contextResident space) s =
      .next (queuesRefused (devEnd s1 (adminQ x.win) 0) (queuesOf s1 space)) := by
  unfold freeSlot at hfree
  change execContextResident space s = _
  unfold execContextResident
  simp only [h.ctx]
  rw [if_neg (by simp [h.away, h.stands, h.wants]), if_neg (Nat.not_le.mpr hroom)]
  simp only [hfree, hentry]
  rfl

theorem contextResident_evicts (h : WantsIn s space x) (hroom : winSlots s x.win ≤ (residents s x.inst).length)
    (hone : (residents s x.inst).filter (fun kv => evictable s kv.1 kv.2) = [(old, y)]) (hy : y.slot = some k)
    (hready : instarReady s (.slot k) = true) (hdue : mget 0 s.instarDue (Unit8.slot k).key = 0) :
    exec (.contextResident space) s = .next (leaveSlot s old) := by
  change execContextResident space s = _
  unfold execContextResident
  simp only [h.ctx]
  rw [if_neg (by simp [h.away, h.stands, h.wants]), if_pos hroom]
  simp [hone, hy, hready, hdue]

/-! ### What a context's entry in the space table admits -/

theorem slotEntry_admits {i : Nat} (hspace : spaceEntry s space = some (i, e)) (hi : i = x.inst)
    (hworld : x.inst < 32 → getF s f_SEC_INST_WORLD x.inst = e.world)
    (harea : (saveAreaOk e (adminQ x.win) s (x.frames * 3328 + 1) x.saveVa (x.saveVa + x.frames * 0xD00000)).1 = some true) :
    (slotEntry s space x).1 = some (some e) := by
  have hfits : entryFits s x i e = true := by
    unfold entryFits
    by_cases h : x.inst < 32
    · simp [hi, hworld h]
    · simp [hi, Nat.not_lt.mp h]
  unfold slotEntry
  rw [hspace]
  dsimp only
  rw [if_pos hfits]
  unfold saveEntry
  dsimp only
  rw [harea]
  rfl

theorem slotEntry_refuses (hno : spaceEntry s space = none ∨ ∃ i e, spaceEntry s space = some (i, e) ∧ (i ≠ x.inst
    ∨ (saveAreaOk e (adminQ x.win) s (x.frames * 3328 + 1) x.saveVa (x.saveVa + x.frames * 0xD00000)).1 = some false)) :
    (slotEntry s space x).1 = some none := by
  unfold slotEntry
  rcases hno with hnone | ⟨i, e, hsome, hno⟩
  · rw [hnone]
  · rw [hsome]
    dsimp only
    split
    · next hfits =>
      have hi : i = x.inst := by
        unfold entryFits at hfits
        simp only [Bool.and_eq_true, decide_eq_true_eq] at hfits
        exact hfits.1
      unfold saveEntry
      dsimp only
      rw [hno.resolve_left (not_not_intro hi)]
      rfl
    · rfl

/-! ### The slot that a context takes -/

theorem ctxOf_slotTaken (h : ctxOf s space = some y) : (ctxOf (slotTaken s space k x e) space).map Ctx.slot = some (some k) := by
  have hmod := ctxOf_modCtx { s with slots := mput s.slots k e } space (fun x => { x with slot := some k, ran := s.now }) space
  rw [if_pos rfl] at hmod
  have hy : ctxOf { s with slots := mput s.slots k e } space = some y := h
  rw [hy] at hmod
  exact congrArg (Option.map Ctx.slot) hmod

theorem slots_slotTaken : mfind (slotTaken s space k x e).slots k = some e := by
  have hmod : (slotTaken s space k x e).slots = mput s.slots k e := modCtx_slots ..
  rw [hmod, mfind_mput, if_pos rfl]

theorem getF_slotTaken (s : State) (space k : Nat) (x : Ctx) (e : SlotInfo) :
    getF (slotTaken s space k x e) f_SCH_SLOT_SPACE k = space % 2 ^ 20 ∧ slotState (slotTaken s space k x e) k = slotResident
      ∧ getF (slotTaken s space k x e) f_SCH_SLOT_INSTAR k = getF s f_SCH_SLOT_INSTAR k := by
  have hoff (f f' : RF) (t : State) (v : Nat) (hr : f'.reg = f.reg) (h : f'.lo + f'.width ≤ 64)
      (ho : f'.lo + f'.width ≤ f.lo ∨ f.lo + f.width ≤ f'.lo) : getF (setF t f k v) f' k = getF t f' k := getF_setF_off t f f' k v 0 hr h ho
  have hbase : getF (modCtx { s with slots := mput s.slots k e } space (fun x => { x with slot := some k, ran := s.now }))
      f_SCH_SLOT_INSTAR k = getF s f_SCH_SLOT_INSTAR k := by
    unfold getF
    exact congrArg (bitsOf · _ _) (getR_of_regs_eq (modCtx_regs ..) ..)
  unfold slotTaken slotState
  refine ⟨?_, ?_, ?_⟩
  · rw [hoff f_SCH_SLOT_PRIO f_SCH_SLOT_SPACE _ _ rfl (by decide) (by decide),
      hoff f_SCH_SLOT_INSTANCE f_SCH_SLOT_SPACE _ _ rfl (by decide) (by decide),
      hoff f_SCH_SLOT_STATE f_SCH_SLOT_SPACE _ _ rfl (by decide) (by decide)]
    exact getF_setF _ _ _ _ _ (by decide)
  · rw [hoff f_SCH_SLOT_PRIO f_SCH_SLOT_STATE _ _ rfl (by decide) (by decide),
      hoff f_SCH_SLOT_INSTANCE f_SCH_SLOT_STATE _ _ rfl (by decide) (by decide)]
    exact getF_setF _ _ _ _ _ (by decide)
  · rw [hoff f_SCH_SLOT_PRIO f_SCH_SLOT_INSTAR _ _ rfl (by decide) (by decide),
      hoff f_SCH_SLOT_INSTANCE f_SCH_SLOT_INSTAR _ _ rfl (by decide) (by decide),
      hoff f_SCH_SLOT_STATE f_SCH_SLOT_INSTAR _ _ rfl (by decide) (by decide),
      hoff f_SCH_SLOT_SPACE f_SCH_SLOT_INSTAR _ _ rfl (by decide) (by decide)]
    exact hbase

theorem slotTaken_frame (s : State) (space k : Nat) (x : Ctx) (e : SlotInfo) :
    (slotTaken s space k x e).instarAt = s.instarAt ∧ (slotTaken s space k x e).now = s.now
      ∧ (slotTaken s space k x e).instarDue = s.instarDue :=
  ⟨(modCtx_frame ..).instarAt (by decide), (modCtx_frame ..).now (by decide), (modCtx_frame ..).instarDue (by decide)⟩

/-- An advance of a slot's instar leaves its other fields. -/
theorem getF_advanceInstar_slot (s : State) (k : Nat) {f : RF} (hr : f.reg = r_SCH_SLOT) (h : f.lo + f.width ≤ 64)
    (ho : f.lo + f.width ≤ 24 ∨ 32 ≤ f.lo) : getF (advanceInstar s (.slot k)) f k = getF s f k := by
  unfold advanceInstar
  split
  · exact getF_setF_off s f_SCH_SLOT_INSTAR f k _ 0 hr h ho
  · rfl

/-! ### The slot that a context leaves -/

/-- The state in which a context has no slot, but for the slot's instar. -/
def slotLeft (s : State) (space k : Nat) : State :=
  setR (modCtx { doomIf s (fun l => l.ctx = k) with slots := mdel (doomIf s (fun l => l.ctx = k)).slots k } space
    (fun x => { x with slot := none })) r_SCH_SLOT k (instarOf s (.slot k) * 2 ^ 24)

theorem leaveSlot_eq (hctx : ctxOf s old = some y) (hy : y.slot = some k) :
    leaveSlot s old = advanceInstar (slotLeft s old k) (.slot k) := by
  unfold leaveSlot
  rw [slotOf_eq, hctx]
  simp only [Option.bind_some, hy, Option.map_some]
  rfl

theorem slotLeft_ctx (hctx : ctxOf s old = some y) : (ctxOf (slotLeft s old k) old).map Ctx.slot = some none := by
  have hmod := ctxOf_modCtx { doomIf s (fun l => l.ctx = k) with slots := mdel (doomIf s (fun l => l.ctx = k)).slots k } old
    (fun x => { x with slot := none }) old
  have hy : ctxOf { doomIf s (fun l => l.ctx = k) with slots := mdel (doomIf s (fun l => l.ctx = k)).slots k } old = some y := by
    rw [← hctx]
    exact ctxOf_congr ((doomIf_frame ..).ctxs (by decide)) old
  rw [if_pos rfl, hy] at hmod
  exact congrArg (Option.map Ctx.slot) hmod

theorem slotLeft_word {i : Nat} (hi : i < 256) : bitsOf (i * 2 ^ 24 % 2 ^ 64) 20 3 = 0 ∧ bitsOf (i * 2 ^ 24 % 2 ^ 64) 24 8 = i := by
  unfold bitsOf
  omega

theorem slotLeft_time (s : State) (space k : Nat) : (slotLeft s space k).instarAt = s.instarAt ∧ (slotLeft s space k).now = s.now
    ∧ (slotLeft s space k).instarDue = s.instarDue := by
  have hdoom := doomIf_frame s (fun l => l.ctx = k)
  exact ⟨((modCtx_frame ..).instarAt (by decide)).trans (hdoom.instarAt (by decide)),
    ((modCtx_frame ..).now (by decide)).trans (hdoom.now (by decide)),
    ((modCtx_frame ..).instarDue (by decide)).trans (hdoom.instarDue (by decide))⟩

theorem instarOf_slot_lt (s : State) (k : Nat) : instarOf s (.slot k) < 256 := Nat.mod_lt _ (by decide)

theorem leaveSlot_spec (hctx : ctxOf s old = some y) (hy : y.slot = some k) (hready : instarReady s (.slot k) = true)
    (hdue : mget 0 s.instarDue (Unit8.slot k).key = 0) : (ctxOf (leaveSlot s old) old).map Ctx.slot = some none
      ∧ slotState (leaveSlot s old) k = slotFree ∧ instarOf (leaveSlot s old) (.slot k) = (instarOf s (.slot k) + 1) % 256 := by
  obtain ⟨hat, hnow, hdue'⟩ := slotLeft_time s old k
  obtain ⟨hstate, hinstar⟩ := slotLeft_word (instarOf_slot_lt s k)
  have hword : getR (slotLeft s old k) r_SCH_SLOT k = instarOf s (.slot k) * 2 ^ 24 % 2 ^ 64 := getR_setR_same ..
  rw [leaveSlot_eq hctx hy]
  refine ⟨?_, ?_, ?_⟩
  · rw [ctxOf_congr ((advanceInstar_frame ..).ctxs (by decide)), slotLeft_ctx hctx]
  · unfold slotState
    rw [getF_advanceInstar_slot _ k rfl (by decide) (by decide)]
    exact (congrArg (bitsOf · 20 3) hword).trans hstate
  · rw [instarOf_advanceInstar_slot (by rwa [instarReady_congr hat hnow]) (by rwa [hdue'])]
    exact congrArg (fun n => (n + 1) % 256) ((congrArg (bitsOf · 24 8) hword).trans hinstar)

/-! ### Queues that stop -/

theorem queuesRefused_kept (l : List Nat) (s : State) : (queuesRefused s l).ctxs = s.ctxs := by
  refine foldl_keeps State.ctxs (fun t q => ?_) l s
  split
  · exact (stopQueue_frame ..).ctxs (by decide)
  · rfl

/-- The state after one queue of a refused context. -/
def queueRefused (s : State) (q : Nat) : State :=
  match queueOf s q with
  | some v => stopQueue s q errSaveFault v.head 0
  | none => s

theorem queuesRefused_cons (s : State) (q : Nat) (l : List Nat) : queuesRefused s (q :: l) = queuesRefused (queueRefused s q) l := rfl

theorem queueOf_queueRefused_ne {q d : Nat} (h : q ≠ d) (s : State) : queueOf (queueRefused s q) d = queueOf s d := by
  unfold queueRefused
  split
  · rw [queueOf_stopQueue, if_neg h]
  · rfl

theorem queueOf_queueRefused_same {q : Nat} {v : Queue} (h : queueOf s q = some v) :
    queueOf (queueRefused s q) q = some (v.halted qStopped errSaveFault v.head) := by
  unfold queueRefused
  rw [h]
  dsimp only
  rw [queueOf_stopQueue, if_pos rfl, h]
  rfl

theorem queueOf_queuesRefused_other {l : List Nat} {q : Nat} (hq : q ∉ l) (s : State) : queueOf (queuesRefused s l) q = queueOf s q := by
  induction l generalizing s with
  | nil => rfl
  | cons d l ih =>
    obtain ⟨hne, hl⟩ := not_or.mp (fun h => hq (List.mem_cons.mpr h))
    rw [queuesRefused_cons, ih hl, queueOf_queueRefused_ne (Ne.symm hne)]

theorem queueOf_queuesRefused {l : List Nat} {q : Nat} (hq : q ∈ l) (s : State) (hin : (queueOf s q).isSome = true) :
    (queueOf (queuesRefused s l) q).map (fun w => (w.state, w.code)) = some (qStopped, errSaveFault) := by
  induction l generalizing s with
  | nil => cases hq
  | cons d l ih =>
    rw [queuesRefused_cons]
    obtain ⟨v, hv⟩ := Option.isSome_iff_exists.mp hin
    by_cases hl : q ∈ l
    · refine ih hl _ ?_
      by_cases hd : d = q
      · rw [hd, queueOf_queueRefused_same hv]
        rfl
      · rwa [queueOf_queueRefused_ne hd]
    · obtain rfl : q = d := (List.mem_cons.mp hq).resolve_right hl
      rw [queueOf_queuesRefused_other hl, queueOf_queueRefused_same hv]
      rfl

end


/-! ## What a write of device work keeps of result registers -/

section
variable {s t u : State}

/-- Do the registers that a mask holds stand at multiples of 8? -/
def regsOnEights (M : Nat) : Bool := allRegs.all (fun r => !M.testBit (88 + r.ix) || (r.base % 8 = 0 && r.stride % 8 = 0))

/-- Registers at odd multiples of 4 are kept, but those of the bridges. -/
structure KeepsHalf (s t : State) : Prop where
  reg : ∀ key, key % 8 = 4 → ¬ (0x800040 ≤ key ∧ key < 0x800050) → mfind t.regs key = mfind s.regs key

theorem KeepsHalf.refl (s : State) : KeepsHalf s s := ⟨fun _ _ _ => rfl⟩

theorem KeepsHalf.trans (h : KeepsHalf s t) (h' : KeepsHalf t u) : KeepsHalf s u :=
  ⟨fun key h8 hb => (h'.reg key h8 hb).trans (h.reg key h8 hb)⟩

theorem Agree.keepsHalf {M : Nat} (h : Agree M s t) (h0 : M.testBit 0 = false) (hM : regsOnEights M = true) : KeepsHalf s t := by
  refine ⟨fun key h8 _ => h.regs h0 key (fun r k w hknown hbit hkey => ?_)⟩
  have hr : r.base % 8 = 0 ∧ r.stride % 8 = 0 := by
    have := List.all_eq_true.mp hM r (List.mem_of_getElem? hknown)
    simpa [hbit] using this
  have hk : k * r.stride % 8 = 0 := by rw [Nat.mul_mod, hr.2]; simp
  have hw : w * windowSpan % 8 = 0 := by rw [Nat.mul_mod]; simp [windowSpan]
  unfold regKey at hkey
  omega

theorem KeepsHalf.foldl {α : Type} {f : State → α → State} (hf : ∀ u x, KeepsHalf u (f u x)) (l : List α) (h : KeepsHalf s t) :
    KeepsHalf s (l.foldl f t) := by
  induction l generalizing t with
  | nil => exact h
  | cons x l ih => exact ih (h.trans (hf t x))

/-- A window's result register stands apart from the bridges' registers. -/
theorem KeepsHalf.getF_result (h : KeepsHalf s t) {f : RF} (hr : f.reg = r_SCH_RESULT) (win : Nat) : getF t f 0 win = getF s f 0 win := by
  unfold getF getR
  rw [h.reg (regKey f.reg 0 win)] <;> rw [hr] <;> unfold regKey windowSpan r_SCH_RESULT <;> dsimp only <;> omega

theorem bridgesOf_lt {x y b : Nat × Nat} (h : b ∈ bridgesOf x y) : b.1 < 4 := by
  unfold bridgesOf at h
  rcases List.mem_append.mp h with h | h
  all_goals
    split at h
    · cases h
    · obtain rfl := List.mem_singleton.mp h
      dsimp only
      split <;> decide

theorem failedOn_lt {a b : Nat × Nat} {k : Nat} (h : failedOn s a b = some k) : k < 4 := by
  unfold failedOn at h
  obtain ⟨p, hp, rfl⟩ := Option.map_eq_some_iff.mp h
  exact bridgesOf_lt (List.mem_of_find?_eq_some hp)

theorem keepsHalf_bridge {b : Nat} (hb : b < 4) (n : Nat) : KeepsHalf s (satF s f_MEM_BRIDGE_STAT_LOST b n) := by
  refine ⟨fun key _ hkey => (mfind_mput ..).trans (if_neg ?_)⟩
  unfold regKey f_MEM_BRIDGE_STAT_LOST r_MEM_BRIDGE_STAT
  dsimp only
  omega

theorem KeepsHalf.countR (h : KeepsHalf s t) {r : Reg} (hb : r.base % 8 = 0) (hs : r.stride % 8 = 0) (k n : Nat) :
    KeepsHalf s (countR t r k n) := by
  refine h.trans ⟨fun key hkey _ => (mfind_mput ..).trans (if_neg fun heq => ?_)⟩
  have hk : k * r.stride % 8 = 0 := by rw [Nat.mul_mod, hs]; simp
  unfold regKey at heq
  omega

theorem keepsHalf_writeNow (s : State) (here : Nat × Nat) (g bad : Nat) (data : List Byte) : KeepsHalf s (writeNow s here g bad data) := by
  unfold writeNow
  split
  · next hfail => exact keepsHalf_bridge (failedOn_lt hfail) 1
  · split
    · exact (hostWrite_frame ..).keepsHalf (by decide) (by decide +kernel)
    · have hline := (lineWrite_frame s (forwarded s (gpaLocal g) / 256) (forwarded s (gpaLocal g) % 256) bad 0 data).keepsHalf
        (by decide) (by decide +kernel)
      exact hline.countR (r := r_MEM_WR_BYTES) rfl rfl _ _

theorem keepsHalf_launch (s : State) (id : Nat) (r : MemReq) : KeepsHalf s (launch s id r) := by
  have hset (t : State) (r : MemReq) : KeepsHalf t (setReq t id r) := (setReq_frame ..).keepsHalf (by decide) (by decide +kernel)
  have hpoisoned : KeepsHalf s (poisonedBack s id r) := (poisonedBack_frame ..).keepsHalf (by decide) (by decide +kernel)
  unfold launch
  dsimp only
  split
  · split
    · split
      · next hfail => exact keepsHalf_bridge (failedOn_lt hfail) 1
      · have hfix : KeepsHalf s (fixHostReads s r) := (fixHostReads_frame ..).keepsHalf (by decide) (by decide +kernel)
        exact hfix.trans ((hostWrite_frame ..).keepsHalf (by decide) (by decide +kernel))
      · exact hset s r
    · exact hset s r
  · split
    · split
      · exact hpoisoned
      · exact (KeepsHalf.refl s).countR (r := r_LNK_DISCARDS) rfl rfl _ _
    · split
      · exact (hset s _).trans ((selfErr_frame ..).keepsHalf (by decide) (by decide +kernel))
      · next hsent =>
        split
        · exact ((sendMsg_frame s _ _ hsent).keepsHalf (by decide) (by decide +kernel)).trans (hset _ _)
        · next hfail =>
          split
          · exact hpoisoned
          · exact keepsHalf_bridge (failedOn_lt hfail) 1

theorem keepsHalf_sendReq (s : State) (r : MemReq) (dst : Nat) : KeepsHalf s (sendReq s r dst).2 := by
  have hfresh : KeepsHalf s (fresh s).2 := (fresh_frame ..).keepsHalf (by decide) (by decide +kernel)
  unfold sendReq
  dsimp only
  split
  · exact hfresh.trans ((setReq_frame ..).keepsHalf (by decide) (by decide +kernel))
  · exact (hfresh.trans ((regulate_frame ..).keepsHalf (by decide) (by decide +kernel))).trans (keepsHalf_launch ..)

theorem keepsHalf_devTouch (s : State) (slot : SlotInfo) (q c va : Nat) : KeepsHalf s (devTouch s slot q c va) := by
  unfold devTouch
  split
  · exact .refl s
  · have hwalk : KeepsHalf s (walkDone s (devDie s q) slot (devWalk s slot q c va)) :=
      (walkDone_frame ..).keepsHalf (by decide) (by decide +kernel)
    dsimp only
    split
    · refine hwalk.trans ?_
      unfold devAsk
      split
      · exact .refl _
      · exact keepsHalf_sendReq ..
    · exact hwalk

theorem keepsHalf_devLook (slot : SlotInfo) (q c : Nat) (ps : List (Nat × Nat)) (s : State) : KeepsHalf s (devLook slot q c s ps).2 := by
  induction ps generalizing s with
  | nil => exact .refl s
  | cons p ps ih => exact (keepsHalf_devTouch s slot q c p.1).trans (ih _)

theorem keepsHalf_devPut (s : State) (slot : SlotInfo) (q c g dst : Nat) (data : List Byte) (bad : Nat) :
    KeepsHalf s (devPut s slot q c g dst data bad) := by
  unfold devPut
  dsimp only
  split
  · exact ((regulate_frame ..).keepsHalf (by decide) (by decide +kernel)).trans (keepsHalf_writeNow ..)
  · exact keepsHalf_sendReq ..

theorem keepsHalf_devWrite (s : State) (slot : SlotInfo) (q c va : Nat) (data : List Byte) (bad : Nat) :
    KeepsHalf s (devWrite s slot q c va data bad).2 := by
  have hlook := keepsHalf_devLook slot q c (linePieces va data.length) s
  unfold devWrite devAccess
  dsimp only
  split
  · exact .foldl (fun u x => keepsHalf_devPut ..) _ hlook
  · exact hlook.trans (.foldl (fun u x => (countRefusal_frame ..).keepsHalf (by decide) (by decide +kernel)) _ (.refl _))
  · exact hlook

theorem keepsHalf_writeStatus (s : State) (q : Nat) : KeepsHalf s (writeStatus s q) := by
  unfold writeStatus
  split
  · exact .refl s
  · exact keepsHalf_devWrite ..

end

/-! ## Instars that advance (R357, R404) -/

section
variable {s : State} {u : Unit8} {q n : Nat} {v : Queue}

/-- The state in which a unit has taken the advance that waited. -/
def instarTaken (s : State) (u : Unit8) : State :=
  stepInstar { s with instarDue := mset 0 s.instarDue u.key (mget 0 s.instarDue u.key - 1) } u

/-- A queue whose instar's advance is taken, the creation or destruction that waited for it done. -/
def queueSettled (s : State) (q : Nat) (v : Queue) : State :=
  let s := setF s f_SCH_RESULT_BUSY 0 0 v.win
  if v.state = qDestroyed then { writeStatus s q with queues := mdel (writeStatus s q).queues q }
  else writeStatus (modQueue s q (fun v => { v with state := qRunning, progress := s.now })) q

/-- What a queue does with an advance of its instar, `n` being those that waited. -/
def queueAdvanced (s : State) (q n : Nat) : State :=
  match queueOf s q with
  | none => s
  | some v => if n ≠ 1 || (v.state ≠ 4 && v.state ≠ qDestroyed) then s else queueSettled s q v

/-- The state after an advance that waited. -/
def advanceTaken (s : State) (u : Unit8) : State :=
  match u with
  | .queue q => queueAdvanced (instarTaken s u) q (mget 0 s.instarDue u.key)
  | _ => instarTaken s u

theorem instarAdvance_exec (hdue : 0 < mget 0 s.instarDue u.key) (hready : instarReady s u = true) :
    exec (.instarAdvance u) s = .next (advanceTaken s u) := by
  change execInstarAdvance u s = _
  unfold execInstarAdvance
  dsimp only
  rw [if_neg (by simp [hready, hdue.ne'])]
  cases u <;> rfl

theorem instarTaken_kept (s : State) (u : Unit8) : (instarTaken s u).queues = s.queues
    ∧ mget 0 (instarTaken s u).instarDue u.key = mget 0 s.instarDue u.key - 1 := by
  have hframe := stepInstar_frame { s with instarDue := mset 0 s.instarDue u.key (mget 0 s.instarDue u.key - 1) } u
  refine ⟨hframe.queues (by decide), ?_⟩
  have hdue : (instarTaken s u).instarDue = mset 0 s.instarDue u.key (mget 0 s.instarDue u.key - 1) := hframe.instarDue (by decide)
  rw [hdue, mget_mset, if_pos rfl]

theorem instarOf_instarTaken (s : State) (u : Unit8) : instarOf (instarTaken s u) u = (instarOf s u + 1) % 256 := by
  cases u with
  | core c => exact instarOf_stepInstar_core ..
  | slot k => exact (getF_setF _ f_SCH_SLOT_INSTAR k _ 0 (by decide)).trans (Nat.mod_mod _ _)
  | queue q => exact (mget_mset ..).trans ((if_pos rfl).trans (Nat.mod_mod _ _))
  | inst i => exact (mget_mset ..).trans ((if_pos rfl).trans (Nat.mod_mod _ _))

theorem queueSettled_kept (s : State) (q : Nat) (v : Queue) :
    (queueSettled s q v).instars = s.instars ∧ (queueSettled s q v).instarDue = s.instarDue := by
  unfold queueSettled
  dsimp only
  split
  · exact ⟨(writeStatus_frame ..).instars (by decide), (writeStatus_frame ..).instarDue (by decide)⟩
  · exact ⟨((writeStatus_frame ..).instars (by decide)).trans ((modQueue_frame ..).instars (by decide)),
      ((writeStatus_frame ..).instarDue (by decide)).trans ((modQueue_frame ..).instarDue (by decide))⟩

theorem queueAdvanced_kept (s : State) (q n : Nat) :
    (queueAdvanced s q n).instars = s.instars ∧ (queueAdvanced s q n).instarDue = s.instarDue := by
  unfold queueAdvanced
  split
  · exact ⟨rfl, rfl⟩
  · split
    · exact ⟨rfl, rfl⟩
    · exact queueSettled_kept ..

theorem advanceTaken_instar (s : State) (u : Unit8) : instarOf (advanceTaken s u) u = (instarOf s u + 1) % 256
    ∧ mget 0 (advanceTaken s u).instarDue u.key = mget 0 s.instarDue u.key - 1 := by
  obtain ⟨-, hdue⟩ := instarTaken_kept s u
  cases u with
  | queue q =>
    obtain ⟨hin, hd⟩ := queueAdvanced_kept (instarTaken s (.queue q)) q (mget 0 s.instarDue (Unit8.queue q).key)
    refine ⟨?_, (congrArg (fun l => mget 0 l (Unit8.queue q).key) hd).trans hdue⟩
    exact (congrArg (fun l => mget 0 l (Unit8.queue q).key) hin).trans (instarOf_instarTaken s (.queue q))
  | core c => exact ⟨instarOf_instarTaken .., hdue⟩
  | slot k => exact ⟨instarOf_instarTaken .., hdue⟩
  | inst i => exact ⟨instarOf_instarTaken .., hdue⟩

/-- A queue's creation that waited for the advance makes it RUNNING. -/
theorem queueSettled_created (hq : queueOf s q = some v) (hv : v.state = 4) :
    (queueOf (queueSettled s q v) q).map Queue.state = some qRunning := by
  have hset : queueOf (setF s f_SCH_RESULT_BUSY 0 0 v.win) q = some v := hq
  unfold queueSettled
  dsimp only
  rw [if_neg (by rw [hv]; decide), queueOf_congr (writeStatus_queues ..), queueOf_modQueue, if_pos rfl, hset]
  rfl

/-- A queue's destruction that waited for the advance removes it and ends the command of its window. -/
theorem queueSettled_destroyed (hv : v.state = qDestroyed) (s : State) (q : Nat) :
    queueOf (queueSettled s q v) q = none ∧ flagF (queueSettled s q v) f_SCH_RESULT_BUSY 0 v.win = false := by
  unfold queueSettled
  dsimp only
  rw [if_pos hv]
  refine ⟨(mfind_mdel ..).trans (if_pos rfl), ?_⟩
  have hbusy := (keepsHalf_writeStatus (setF s f_SCH_RESULT_BUSY 0 0 v.win) q).getF_result (f := f_SCH_RESULT_BUSY) rfl v.win
  have hzero : getF (setF s f_SCH_RESULT_BUSY 0 0 v.win) f_SCH_RESULT_BUSY 0 v.win = 0 := getF_setF _ _ _ _ _ (by decide)
  exact decide_eq_false (not_not_intro (hbusy.trans hzero))

theorem advanceTaken_queue (hq : queueOf s q = some v) (hone : mget 0 s.instarDue (Unit8.queue q).key = 1)
    (hv : v.state = 4 ∨ v.state = qDestroyed) : advanceTaken s (.queue q) = queueSettled (instarTaken s (.queue q)) q v := by
  have hq' : queueOf (instarTaken s (.queue q)) q = some v := by rwa [queueOf_congr (instarTaken_kept ..).1]
  unfold advanceTaken
  dsimp only
  unfold queueAdvanced
  rw [hq', hone]
  dsimp only
  rw [if_neg (by rcases hv with hv | hv <;> simp [hv])]

end

/-! ## What the checks of residency keep (R364, R366) -/

section
variable {s s1 : State} {space k : Nat} {x : Ctx} {e : SlotInfo}

theorem slotsKept_countRefusal (s : State) (inst : Nat) (x : Xlat) (va reason : Nat) :
    SameRange 0x300000 0x400000 s (countRefusal s inst x va reason) := by
  have hplace (h : inst < 32) : regKey r_CMP_PLACE_MISS inst 0 < 0x300000 := by
    rw [regKey_zero, r_CMP_PLACE_MISS]
    dsimp only
    omega
  have hworld : 0x400000 ≤ regKey r_SEC_WORLD_REFUSED 0 0 := by decide
  unfold countRefusal
  split
  · exact sameRange_setR s _ (.inr hworld)
  · split
    · next h =>
      simp only [Bool.and_eq_true, decide_eq_true_eq] at h
      exact sameRange_setR s _ (.inl (hplace h.1.2))
    · exact .refl s

theorem slotsKept_walkDone (s : State) (die : Nat) (slot : SlotInfo) (w : WalkRun) :
    SameRange 0x300000 0x400000 s (walkDone s die slot w) := by
  have hcount (t : State) : SameRange 0x300000 0x400000 t (countR (countR t r_XLT_STLB_MISS die 1) r_XLT_WALKS die 1) :=
    (sameRange_setR t _ (.inr (by rw [regKey_zero, r_XLT_STLB_MISS]; exact Nat.le_add_right_of_le (by decide)))).trans
      (sameRange_setR _ _ (.inr (by rw [regKey_zero, r_XLT_WALKS]; exact Nat.le_add_right_of_le (by decide))))
  have hread (t : State) (r : MemReq) (here : Nat × Nat) (g : Nat) :
      SameRange 0x300000 0x400000 t (readNow (regulate t r 1).2 here g 8).2 :=
    ((regulate_frame ..).sameRange (by decide) (by decide +kernel)).trans ((readNow_frame ..).sameRange (by decide) (by decide +kernel))
  have hfill (t : State) (l : List _) : SameRange 0x300000 0x400000 t (l.foldl wcFill t) :=
    .foldl (fun t x _ => (wcFill_frame ..).sameRange (by decide) (by decide +kernel)) t
  have hdone (t : State) (y : Xlat) : SameRange 0x300000 0x400000 t
      (tlbFill (countR (countR t r_XLT_STLB_MISS die 1) r_XLT_WALKS die 1) (sharedTlb die) slot.space y) :=
    (hcount t).trans ((tlbFill_frame ..).sameRange (by decide) (by decide +kernel))
  have hnoted := (SameRange.foldl (l := w.reads) (fun t g _ => hread t (MemReq.make .read (.walk 0) g 8 [] 0 0 0xFF slot.space (masterDevice die) die
    (slot.world = 1)) (walkerRouter die 0) g) s).trans (hfill _ w.fills)
  rcases w with ⟨res, reads, fills, refusal⟩
  unfold walkDone
  cases refusal with
  | none => cases res with
    | ok y => exact hnoted.trans (hdone _ y)
    | fault f => exact hnoted.trans (hcount _)
    | wait g => exact hnoted
  | some r =>
    have hrefused := hnoted.trans (slotsKept_countRefusal _ slot.inst r.1 r.2.1 r.2.2)
    cases res with
    | ok y => exact hrefused.trans (hdone _ y)
    | fault f => exact hrefused.trans (hcount _)
    | wait g => exact hrefused

theorem slotsKept_devTouch (s : State) (slot : SlotInfo) (q c va : Nat) : SameRange 0x300000 0x400000 s (devTouch s slot q c va) := by
  unfold devTouch
  split
  · exact .refl s
  · dsimp only
    split
    · exact (slotsKept_walkDone _ _ _ _).trans ((devAsk_frame ..).sameRange (by decide) (by decide +kernel))
    · exact slotsKept_walkDone _ _ _ _

theorem slotsKept_saveAreaOk (slot : SlotInfo) (q n : Nat) (s : State) (va top : Nat) :
    SameRange 0x300000 0x400000 s (saveAreaOk slot q s n va top).2 := by
  induction n generalizing s va with
  | zero => exact .refl s
  | succ n ih =>
    unfold saveAreaOk
    split
    · exact .refl s
    · split
      · split
        · exact (slotsKept_devTouch s slot q 0 va).trans (ih _ _)
        · exact .refl s
      · exact .refl s
      · exact slotsKept_devTouch _ _ _ _ _

theorem slotsKept_saveEntry (s : State) (x : Ctx) (e : SlotInfo) (n top : Nat) :
    SameRange 0x300000 0x400000 s (saveEntry s x e n top).2 := slotsKept_saveAreaOk e (adminQ x.win) n s x.saveVa top

theorem slotsKept_slotEntry (s : State) (space : Nat) (x : Ctx) : SameRange 0x300000 0x400000 s (slotEntry s space x).2 := by
  unfold slotEntry
  split
  · split
    · exact slotsKept_saveEntry _ _ _ _ _
    · exact .refl s
  · exact .refl s

/-- What checking a context's entry keeps. -/
theorem slotEntry_kept (s : State) (space : Nat) (x : Ctx) (q c : Nat) :
    let t := devEnd (slotEntry s space x).2 q c
    t.ctxs = s.ctxs ∧ t.queues = s.queues ∧ t.instarAt = s.instarAt ∧ t.now = s.now ∧ t.instarDue = s.instarDue
      ∧ SameRange 0x300000 0x400000 s t := by
  have hentry := slotEntry_frame s space x
  have hend := devEnd_frame (slotEntry s space x).2 q c
  exact ⟨(hend.ctxs (by decide)).trans (hentry.ctxs (by decide)), (hend.queues (by decide)).trans (hentry.queues (by decide)),
    (hend.instarAt (by decide)).trans (hentry.instarAt (by decide)), (hend.now (by decide)).trans (hentry.now (by decide)),
    (hend.instarDue (by decide)).trans (hentry.instarDue (by decide)),
    (slotsKept_slotEntry s space x).trans (hend.sameRange (by decide) (by decide +kernel))⟩

/-- The state in which a context has a slot, but for the scheduler's decision. -/
def residentAt (s : State) (space k : Nat) (x : Ctx) (e : SlotInfo) : State :=
  advanceInstar (slotTaken (devEnd (slotEntry s space x).2 (adminQ x.win) 0) space k x e) (.slot k)

theorem residentAt_spec (h : WantsIn s space x) (hk : k < 64) (hready : instarReady s (.slot k) = true)
    (hdue : mget 0 s.instarDue (Unit8.slot k).key = 0) (hspace : space < 2 ^ 20) :
    (ctxOf (residentAt s space k x e) space).map Ctx.slot = some (some k) ∧ mfind (residentAt s space k x e).slots k = some e
      ∧ getF (residentAt s space k x e) f_SCH_SLOT_SPACE k = space
      ∧ instarOf (residentAt s space k x e) (.slot k) = (instarOf s (.slot k) + 1) % 256
      ∧ slotState (residentAt s space k x e) k = slotResident := by
  obtain ⟨hctxs, -, hat, hnow, hin, hregs⟩ := slotEntry_kept s space x (adminQ x.win) 0
  have hfield (f : RF) (hf : f.reg = r_SCH_SLOT) : getF (devEnd (slotEntry s space x).2 (adminQ x.win) 0) f k = getF s f k := by
    have hkey : regKey f.reg k 0 = 0x300100 + k * 8 := by rw [hf]; exact regKey_zero ..
    exact hregs.getF (by omega) (by omega)
  unfold residentAt
  obtain ⟨hat', hnow', hin'⟩ := slotTaken_frame (devEnd (slotEntry s space x).2 (adminQ x.win) 0) space k x e
  obtain ⟨hwhere, hstate, hinstar⟩ := getF_slotTaken (devEnd (slotEntry s space x).2 (adminQ x.win) 0) space k x e
  refine ⟨?_, ?_, ?_, ?_, ?_⟩
  · rw [ctxOf_congr ((advanceInstar_frame ..).ctxs (by decide))]
    exact ctxOf_slotTaken ((ctxOf_congr hctxs space).trans h.ctx)
  · rw [(advanceInstar_frame ..).slots (by decide)]
    exact slots_slotTaken
  · rw [getF_advanceInstar_slot _ k rfl (by decide) (by decide), hwhere, Nat.mod_eq_of_lt hspace]
  · rw [instarOf_advanceInstar_slot (by rwa [instarReady_congr (hat'.trans hat) (hnow'.trans hnow)]) (by rwa [hin', hin])]
    exact congrArg (fun n => (n + 1) % 256) (hinstar.trans (hfield f_SCH_SLOT_INSTAR rfl))
  · unfold slotState at hstate ⊢
    rw [getF_advanceInstar_slot _ k rfl (by decide) (by decide), hstate]

theorem contextResident_next (h : WantsIn s space x) (hroom : (residents s x.inst).length < winSlots s x.win)
    (hfree : freeSlot s = some k) (hentry : (slotEntry s space x).1 = some (some e)) :
    exec (.contextResident space) s = .next (schedule (residentAt s space k x e) x.inst) :=
  contextResident_taken h hroom hfree (Prod.ext hentry rfl)

theorem contextResident_stops (h : WantsIn s space x) (hroom : (residents s x.inst).length < winSlots s x.win)
    (hfree : freeSlot s = some k) (hentry : (slotEntry s space x).1 = some none) : exec (.contextResident space) s =
      .next (queuesRefused (devEnd (slotEntry s space x).2 (adminQ x.win) 0) (queuesOf (slotEntry s space x).2 space)) :=
  contextResident_refused h hroom hfree (Prod.ext hentry rfl)

theorem queuesOf_isSome {q : Nat} (h : q ∈ queuesOf s space) : (queueOf s q).isSome = true := by
  obtain ⟨kv, hkv, rfl⟩ := List.mem_map.mp h
  rw [Option.isSome_iff_ne_none]
  exact fun hnone => ne_of_mfind_none hnone (List.mem_filter.mp hkv).1 rfl

/-- What stands of a command and its queue when the objects that it references and the scheduler have been seen to. -/
theorem commandEntered_spec {s s1 s2 : State} {q : Nat} {v : Queue} {x : Ctx} {d : List Byte} {c : Cmd}
    (h : EntryRead s s1 q 0 v x d) (hs2 : (validate s1 (ctxSlot s v.space) q x (Cmd.ofEntry q v.head d v.space x)).2 = s2) (i : Nat) :
    let t := setF s2 f_SCH_STATUS_OBJREF_FULL 0 0
    let u := schedule (retireObjects (enterCmd t q v c)) i
    cmdOf u (fresh (devDone t q 0)).1 = some c
      ∧ (queueOf u q).map (fun w => (w.head, w.cmds, w.state)) =
        some ((v.head + 1) % 2 ^ v.log2, v.cmds ++ [(fresh (devDone t q 0)).1], qRunning) := by
  intro t u
  have hqueue : queueOf t q = some v := by
    have hvalid := (validate_frame s1 (ctxSlot s v.space) q x (Cmd.ofEntry q v.head d v.space x)).queues (by decide)
    rw [hs2] at hvalid
    exact (queueOf_congr (hvalid.trans h.kept.1) q).trans h.queue
  have hcmds : u.cmds = (enterCmd t q v c).cmds := ((schedule_frame ..).cmds (by decide)).trans ((retireObjects_frame ..).cmds (by decide))
  have hqueues : u.queues = (enterCmd t q v c).queues := (schedule_queues ..).trans ((retireObjects_frame ..).queues (by decide))
  refine ⟨(congrArg (mfind · _) hcmds).trans (cmdOf_enterCmd t q v c), ?_⟩
  rw [queueOf_congr hqueues, queueOf_enterCmd, hqueue, ← h.runs]
  rfl

end

/-- Settles O37, by one equation per action and what its pieces keep: a written status block leaves queues, contexts and result
registers, and the scheduler's decision leaves slots their contexts. -/
theorem queueService : Obligations.QueueService := by
  unfold Obligations.QueueService
  refine ⟨?_, ?_, ?_, ?_⟩
  · intro win n v q s w hopen hq hdown hnew
    obtain ⟨hqueue, rfl⟩ := winQueue_spec hq
    have hexec := doorbell_exec hopen hq hdown hnew
    refine ⟨fun hok => ⟨_, hexec, ?_⟩, fun hbad hroom => ⟨_, hexec, ?_⟩⟩
    · dsimp only
      rw [if_pos hok, queueOf_congr (schedule_queues ..), queueOf_modQueue, if_pos rfl, hqueue]
      rfl
    · dsimp only
      rw [if_neg (by rw [hbad]; decide)]
      refine ⟨?_, ?_⟩
      · rw [queueOf_modQueue, if_pos rfl, queueOf_stopQueue, if_pos rfl, hqueue]
        rfl
      · rw [(modQueue_frame ..).evHeld (by decide)]
        exact evHeld_stopQueue hqueue hroom _ _ _
  · intro q bad s s1 v x d hqueue hctx hdown hslot hrun hvis hroom hall hfree hread
    have hentry : EntryRead s s1 q bad v x d := ⟨hqueue, hctx, hdown, hslot, hrun, hvis, hroom, hall, hfree, hread⟩
    obtain ⟨hqueues, hcmds, -⟩ := hentry.kept
    refine ⟨fun hbad => ⟨_, commandTake_poisoned hentry hbad, ?_, ?_⟩, ?_⟩
    · rw [queueOf_stopQueue, if_pos rfl, queueOf_congr (((devDone_frame ..).queues (by decide)).trans hqueues), hqueue]
      rfl
    · rw [(stopQueue_frame ..).cmds (by decide), (devDone_frame ..).cmds (by decide), hcmds]
    · rintro e refs rfl hflush hvalid hrefs
      obtain ⟨hcmd, hqueue'⟩ := commandEntered_spec hentry rfl x.inst
      refine ⟨_, commandTake_entered hentry hflush hvalid hrefs, _, hcmd, hqueue', fun hbad => ?_⟩
      rw [hcmd]
      rw [validate_malformed _ hbad] at hvalid
      injection hvalid with he
      exact congrArg some he.symm
  · intro space s x hctx haway hdown hwants
    have hwant : WantsIn s space x := ⟨hctx, haway, hdown, hwants⟩
    refine ⟨fun k e hroom hfree hspace hworld harea hlt => ?_, fun k hroom hfree hno => ?_, fun old y k hroom hone hold hy _ hready hdue => ?_⟩
    · obtain ⟨hk, hready, hdue⟩ := freeSlot_spec hfree
      have hentry := slotEntry_admits hspace rfl hworld harea
      obtain ⟨hat, hslots, hwhere, hinstar, hstate⟩ := residentAt_spec (e := e) hwant hk hready hdue hlt
      have hstays := slotStays_schedule (residentAt s space k x e) hk x.inst
      refine ⟨_, contextResident_next hwant hroom hfree hentry, ?_, ?_, ?_, ?_, ?_⟩
      · rw [hstays.slots, hat]
      · rw [(schedule_frame ..).slots (by decide), hslots]
      · rw [hstays.field f_SCH_SLOT_SPACE rfl (by decide) (by decide), hwhere]
      · exact (hstays.field f_SCH_SLOT_INSTAR rfl (by decide) (by decide)).trans hinstar
      · intro hpf
        rw [schedule, if_pos (by simp [hpf]), hstate]
    · have hentry := slotEntry_refuses hno
      obtain ⟨hctxs, hqueues, -⟩ := slotEntry_kept s space x (adminQ x.win) 0
      refine ⟨_, contextResident_stops hwant hroom hfree hentry, ?_, fun q hq => ?_⟩
      · rw [queuesRefused_kept, hctxs]
      · have hin : (queueOf (devEnd (slotEntry s space x).2 (adminQ x.win) 0) q).isSome = true := by
          rw [queueOf_congr hqueues]
          exact queuesOf_isSome hq
        refine queueOf_queuesRefused ?_ _ hin
        have hsame : queuesOf (slotEntry s space x).2 space = queuesOf s space := by
          unfold queuesOf
          rw [(slotEntry_frame ..).queues (by decide)]
        rwa [hsame]
    · exact ⟨_, contextResident_evicts hwant hroom hone hy hready hdue, leaveSlot_spec hold hy hready hdue⟩
  · intro u s hdue hready _ _
    refine ⟨_, instarAdvance_exec hdue hready, (advanceTaken_instar s u).1, (advanceTaken_instar s u).2, ?_⟩
    rintro q v rfl hq hone
    refine ⟨fun hv => ?_, fun hv => ?_⟩
    · rw [advanceTaken_queue hq hone (.inl hv)]
      exact queueSettled_created ((queueOf_congr (instarTaken_kept ..).1 q).trans hq) hv
    · rw [advanceTaken_queue hq hone (.inr hv)]
      exact queueSettled_destroyed hv _ q

end Sys2Proof.Machine
end

section
/-! The end of INST_RESET retries tiles before it zeroes the Silk range of the unit reset (R293, R448), which refutes O44. -/

namespace Sys2Proof.Machine

/-- A tile that waits for a tracker entry, of base die 0xC0014: its misses of the shared TLB are counted by die, and the count of
that die has the key of SILK_RANGE entry 0. -/
def strayTile : Tile := ⟨.thread 0, 0, 0, 0, 0xC0014, 0, 1, 0, 0, [0], [], [], [], true, true⟩

/-- Instance 0 holds the Silk counter 0, whose value is 5, and its reset has only to end. -/
def strayTileState : State :=
  { State.reset with
    instResets := [(0, ⟨0, 0, false, 0⟩)]
    regs := [(regKey r_SILK_RANGE 0 0, BitVec.ofNat 64 (2 ^ 16)), (regKey r_SILK_CTR 0 0, BitVec.ofNat 64 5)]
    tiles := [(1, strayTile)] }

theorem silkRange_strayTileState :
    getF strayTileState f_SILK_RANGE_BASE 0 = 0 ∧ getF strayTileState f_SILK_RANGE_SIZE 0 = 1 := by decide +kernel

/-- Silk counter 0 after a command of the model. -/
def counterAfter (i : Instr) (s : State) : Option Nat :=
  match exec i s with
  | .next s' => some (getR s' r_SILK_CTR 0)
  | _ => none

theorem counterAfter_of_exec {i : Instr} {s s' : State} (h : exec i s = .next s') : counterAfter i s = some (getR s' r_SILK_CTR 0) := by
  unfold counterAfter
  rw [h]

/-- The tile that is retried moves the range's base to 1, and counter 0 is not zeroed. -/
theorem counterAfter_strayTile : counterAfter (.instResetDone 0) strayTileState = some 5 := by decide +kernel

/-- Refutes O44: the end of a reset is said to zero the Silk range that was held, and where a tile of a die that the chip does
not have is retried first, the count of its miss moves the range and a counter of it keeps its value. -/
theorem not_mailboxesAndInstances : ¬ Obligations.MailboxesAndInstances := by
  intro h
  obtain ⟨-, -, -, -, -, hdone, -⟩ := h
  obtain ⟨hphase, -⟩ := hdone 0 strayTileState ⟨0, 0, false, 0⟩ (by decide) (by decide)
  obtain ⟨hplain, -⟩ := hphase rfl (fun _ hkv => absurd hkv List.not_mem_nil) (by decide +kernel) (by decide +kernel)
  obtain ⟨s', hexec, -, -, -, hzero, -⟩ := hplain rfl
  obtain ⟨hbase, hsize⟩ := silkRange_strayTileState
  have hctr : getR s' r_SILK_CTR 0 = 0 := hzero 0 (by rw [hbase]) (by rw [hbase, hsize]; decide)
  have hafter := (counterAfter_of_exec hexec).symm.trans counterAfter_strayTile
  rw [hctr] at hafter
  exact absurd hafter (by decide)

end Sys2Proof.Machine
end

section
/-! O42: messages that ports hold and the ways to a chip; then what each type of message does (R353 to R356, R371, R372, R410 to R426). -/

namespace Sys2Proof.Machine

/-! ## Messages held (R410, R411) -/

section
variable {s t u : State} {p d : Nat} {q : Port} {m x : LinkMsg}

theorem heldMsgs_waiting (h : x ∈ q.waiting) : x ∈ heldMsgs q := List.mem_append_right _ h

theorem heldMsgs_iff : x ∈ heldMsgs q ↔ x ∈ q.unacked.filterMap SentFlit.msg ∨ x ∈ q.waiting := List.mem_append

theorem giveCredits_waiting (q : Port) : (giveCredits q).waiting = q.waiting := by
  unfold giveCredits
  split <;> rfl

/-- A port that has put one flit of a message, its last or not, on the wire. -/
def Port.flitSent (q : Port) (m : LinkMsg) (last : Bool) : Port :=
  { giveCredits q with
    nakSent := false
    unacked := q.unacked ++ [⟨q.txSeq, laneOf m, partOf m, if last then some m else none⟩]
    txSeq := (q.txSeq + 1) % 4096
    credits := mput q.credits (4 * laneOf m + partOf m) (mget 0 q.credits (4 * laneOf m + partOf m) - 1) }

theorem emitFlits_succ (q : Port) (m : LinkMsg) (n : Nat) : emitFlits q m (n + 1) = emitFlits (q.flitSent m (decide (n = 0))) m n := by
  unfold Port.flitSent
  rw [emitFlits]
  simp only [decide_eq_true_eq]

theorem heldMsgs_flitSent (q : Port) (m : LinkMsg) (last : Bool) (h : x ∈ heldMsgs q ∨ last = true ∧ x = m) :
    x ∈ heldMsgs (q.flitSent m last) := by
  have hnew : (q.flitSent m last).unacked = q.unacked ++ [⟨q.txSeq, laneOf m, partOf m, if last then some m else none⟩] := rfl
  have hsame : (q.flitSent m last).waiting = q.waiting := giveCredits_waiting q
  rw [heldMsgs_iff, hnew, hsame, List.filterMap_append, List.mem_append]
  rcases h with h | ⟨rfl, rfl⟩
  · rcases heldMsgs_iff.mp h with h | h
    · exact .inl (.inl h)
    · exact .inr h
  · exact .inl (.inr (by simp))

theorem heldMsgs_emitFlits (n : Nat) (q : Port) (m : LinkMsg) (h : x ∈ heldMsgs q ∨ n ≠ 0 ∧ x = m) : x ∈ heldMsgs (emitFlits q m n) := by
  induction n generalizing q with
  | zero => exact h.resolve_right fun hn => hn.1 rfl
  | succ n ih =>
    rw [emitFlits_succ]
    refine ih _ ?_
    by_cases hn : n = 0
    · exact .inl (heldMsgs_flitSent q m _ (h.imp id fun hx => ⟨decide_eq_true hn, hx.2⟩))
    · exact h.imp (fun hx => heldMsgs_flitSent q m _ (.inl hx)) fun hx => ⟨hn, hx.2⟩

/-- What a port sends next stands where it says among the messages that wait. -/
theorem nextSend_spec (ms : List LinkMsg) (i : Nat) (best : Option (Nat × LinkMsg)) {j : Nat} (h : nextSend s q ms i best = some (j, x)) :
    best = some (j, x) ∨ ∃ k, j = i + k ∧ ms[k]? = some x := by
  induction ms generalizing i best with
  | nil => exact .inl h
  | cons m ms ih =>
    unfold nextSend at h
    rcases ih _ _ h with hbest | ⟨k, hk, hx⟩
    · split at hbest
      · exact .inl hbest
      · split at hbest
        · cases hbest
          exact .inr ⟨0, rfl, rfl⟩
        · split at hbest
          · cases hbest
            exact .inr ⟨0, rfl, rfl⟩
          · exact .inl hbest
    · exact .inr ⟨k + 1, by omega, hx⟩

theorem mem_eraseIdx_or {l : List LinkMsg} {i : Nat} (hi : l[i]? = some m) (h : x ∈ l) : x ∈ l.eraseIdx i ∨ x = m := by
  obtain ⟨j, hj⟩ := List.mem_iff_getElem?.mp h
  by_cases hij : j = i
  · rw [hij, hi] at hj
    exact .inr (Option.some.inj hj).symm
  · exact .inl (List.mem_eraseIdx_iff_getElem?.mpr ⟨j, hij, hj⟩)

theorem flitsOf_ne_zero (m : LinkMsg) : flitsOf m ≠ 0 := by
  unfold flitsOf
  omega

/-- Every port holds what it held. -/
def HoldsOn (s t : State) : Prop := ∀ p x, x ∈ heldMsgs (port s p) → x ∈ heldMsgs (port t p)

theorem HoldsOn.trans (h : HoldsOn s t) (h' : HoldsOn t u) : HoldsOn s u := fun p x hx => h' p x (h p x hx)

theorem HoldsOn.of_ports_eq (h : t.ports = s.ports) : HoldsOn s t := fun p x hx => by
  unfold port at hx ⊢
  rwa [h]

theorem holdsOn_pumpN (n : Nat) (s : State) (p : Nat) : HoldsOn s (pumpN s p n) := by
  induction n generalizing s with
  | zero => exact fun _ _ h => h
  | succ n ih =>
    unfold pumpN
    dsimp only
    split
    · exact fun _ _ h => h
    · split
      · exact fun _ _ h => h
      · next i m hnext =>
        split
        · exact fun _ _ h => h
        · refine HoldsOn.trans (fun d x hx => ?_) (ih _)
          have hi : (port s p).waiting[i]? = some m := by
            rcases nextSend_spec _ _ _ hnext with h | ⟨k, rfl, hk⟩
            · cases h
            · rwa [Nat.zero_add]
          refine (?_ : x ∈ heldMsgs (mget Port.empty (mput s.ports p _) d))
          rw [mget_mput]
          split
          · next hd =>
            subst hd
            refine heldMsgs_emitFlits _ _ _ ?_
            rcases heldMsgs_iff.mp hx with h | h
            · exact .inl (heldMsgs_iff.mpr (.inl h))
            · exact (mem_eraseIdx_or hi h).imp heldMsgs_waiting fun hm => ⟨flitsOf_ne_zero m, hm⟩
          · exact hx

theorem holdsOn_sendOn (s : State) (p : Nat) (m : LinkMsg) : HoldsOn s (sendOn s p m) ∧ m ∈ heldMsgs (port (sendOn s p m) p) := by
  have hport (d : Nat) : port (modPort s p (fun q => { q with waiting := q.waiting ++ [m] })) d =
      if p = d then { port s p with waiting := (port s p).waiting ++ [m] } else port s d := mget_mput ..
  refine ⟨HoldsOn.trans (fun d x hx => ?_) (holdsOn_pumpN _ _ _), holdsOn_pumpN _ _ _ _ _ ?_⟩
  · rw [hport]
    split
    · next hd =>
      subst hd
      exact heldMsgs_iff.mpr ((heldMsgs_iff.mp hx).imp id (List.mem_append_left _))
    · exact hx
  · rw [hport, if_pos rfl]
    exact heldMsgs_waiting (List.mem_append_right _ (List.mem_singleton.mpr rfl))

end


/-! ## Ways (R415, R417) -/

section
variable {s t u : State} {d p code : Nat} {m : LinkMsg}

/-- The keys of the registers by which a message finds its way: the chip's number, the link slices' states, and the links' registers
but the count of discards. -/
abbrev wayKey (key : Nat) : Prop :=
  key = 0x18 ∨ (0x201800 ≤ key ∧ key < 0x201900) ∨ (0x900000 ≤ key ∧ key < 0xA00000 ∧ key ≠ 0x900010)

/-- The ways of messages are as they were. -/
structure SameWays (s t : State) : Prop where
  ports : t.ports = s.ports
  peers : t.peers = s.peers
  regs : ∀ key, wayKey key → mfind t.regs key = mfind s.regs key

theorem SameWays.refl (s : State) : SameWays s s := ⟨rfl, rfl, fun _ _ => rfl⟩

theorem SameWays.of_eq (hp : t.ports = s.ports) (hn : t.peers = s.peers) (hr : t.regs = s.regs) : SameWays s t :=
  ⟨hp, hn, fun _ _ => by rw [hr]⟩

theorem SameWays.trans (h : SameWays s t) (h' : SameWays t u) : SameWays s u :=
  ⟨h'.ports.trans h.ports, h'.peers.trans h.peers, fun key hk => (h'.regs key hk).trans (h.regs key hk)⟩

theorem SameWays.setR (h : SameWays s t) {r : Reg} {k : Nat} (hk : ¬ wayKey (regKey r k 0)) (v : Nat) : SameWays s (setR t r k v) :=
  h.trans ⟨rfl, rfl, fun key hkey => (mfind_mput ..).trans (if_neg fun hsame => hk (by rw [hsame]; exact hkey))⟩

theorem SameWays.setF (h : SameWays s t) {f : RF} {k : Nat} (hk : ¬ wayKey (regKey f.reg k 0)) (v : Nat) : SameWays s (setF t f k v) :=
  h.setR hk _

theorem SameWays.countR (h : SameWays s t) {r : Reg} {k : Nat} (hk : ¬ wayKey (regKey r k 0)) (n : Nat) : SameWays s (countR t r k n) :=
  h.setR hk _

theorem SameWays.getF (h : SameWays s t) {f : RF} {k : Nat} (hk : wayKey (regKey f.reg k 0)) : getF t f k = getF s f k := by
  unfold Machine.getF getR
  rw [h.regs _ hk]

theorem SameWays.chipId (h : SameWays s t) : chipId t = chipId s := h.getF (.inl (by decide))

theorem SameWays.isUp (h : SameWays s t) (hp : p < 32) : isUp t p = isUp s p := by
  have hkey : regKey f_LNK_PORT_STAT_STATE.reg p 0 = 0x901004 + p * 64 := regKey_zero ..
  unfold Machine.isUp
  rw [h.getF (.inr (.inr (by omega)))]

theorem SameWays.linkState (h : SameWays s t) (hp : p < 32) :
    Machine.getF t f_CMP_LINK_STATE p = Machine.getF s f_CMP_LINK_STATE p := by
  have hkey : regKey f_CMP_LINK_STATE.reg p 0 = 0x201800 + p * 4 := regKey_zero ..
  exact h.getF (.inr (.inl (by omega)))

theorem routePorts_lt (s : State) (d : Nat) (hp : p ∈ routePorts s d) : p < 32 := by
  unfold routePorts at hp
  split at hp
  · cases hp
  · have hmem := List.mem_of_mem_take hp
    simp only [List.mem_cons, List.not_mem_nil, or_false] at hmem
    rcases hmem with rfl | rfl | rfl | rfl <;> exact Nat.mod_lt _ (by decide)

theorem mem_of_foldl_choice {f : Option Nat → Nat → Option Nat} (hf : ∀ best x b, f best x = some b → b = x ∨ best = some b)
    {l : List Nat} (best : Option Nat) {b : Nat} (h : l.foldl f best = some b) : best = some b ∨ b ∈ l := by
  induction l generalizing best with
  | nil => exact .inl h
  | cons x l ih =>
    rcases ih _ h with hbest | hmem
    · exact (hf best x b hbest).symm.imp id fun hx => List.mem_cons.mpr (.inl hx)
    · exact .inr (List.mem_cons_of_mem _ hmem)

theorem mem_of_choosePort {l : List Nat} (h : choosePort s l = some p) : p ∈ l := by
  have hup : ∀ x ∈ l.filter (isUp s), x ∈ l := fun x hx => (List.mem_filter.mp hx).1
  unfold choosePort at h
  dsimp only at h
  split at h
  · refine hup p (mem_of_foldl_choice (fun best x b hb => ?_) none h |>.resolve_left (by simp))
    split at hb
    · exact .inl (Option.some.inj hb).symm
    · split at hb
      · exact .inl (Option.some.inj hb).symm
      · exact .inr hb
  · exact hup p (List.mem_of_mem_head? h)

theorem SameWays.routePorts (h : SameWays s t) (hd : d < 65536) : routePorts t d = routePorts s d := by
  have hkey : regKey r_LNK_RT d 0 = 0x940000 + d * 4 := regKey_zero ..
  have hfield (f : RF) (hf : f.reg = r_LNK_RT) : Machine.getF t f d = Machine.getF s f d :=
    h.getF (.inr (.inr (by rw [hf]; omega)))
  unfold Machine.routePorts flagF
  rw [h.chipId, hfield f_LNK_RT_VALID rfl, hfield f_LNK_RT_PORT0 rfl, hfield f_LNK_RT_PORT1 rfl, hfield f_LNK_RT_PORT2 rfl,
    hfield f_LNK_RT_PORT3 rfl, hfield f_LNK_RT_COUNT rfl]

theorem SameWays.queuedFlits (h : SameWays s t) (p : Nat) : queuedFlits t p = queuedFlits s p := by
  unfold Machine.queuedFlits port
  rw [h.ports]

theorem SameWays.choosePort (h : SameWays s t) {l : List Nat} (hl : ∀ p ∈ l, p < 32) : choosePort t l = choosePort s l := by
  have hup : l.filter (Machine.isUp t) = l.filter (Machine.isUp s) := List.filter_congr fun p hp => h.isUp (hl p hp)
  have hcfg : flagF t f_LNK_CFG_ADAPT_EN = flagF s f_LNK_CFG_ADAPT_EN := by
    unfold flagF
    rw [h.getF (f := f_LNK_CFG_ADAPT_EN) (k := 0) (.inr (.inr (by decide)))]
  unfold Machine.choosePort
  simp only [hup, hcfg, h.queuedFlits]

theorem SameWays.noWay (h : SameWays s t) (hpeers : ∀ kv ∈ s.peers, kv.1 < 4096) (d : Nat) : noWay t d = noWay s d := by
  have hentry (k : Nat) (hk : k < 4096) (f : RF) (hf : f.reg = r_LNK_PEER) : Machine.getF t f k = Machine.getF s f k := by
    have hkey : regKey r_LNK_PEER k 0 = 0x980000 + k * 8 := regKey_zero ..
    exact h.getF (.inr (.inr (by rw [hf]; omega)))
  have hany : (t.peers.map Prod.fst).any (fun k => Machine.getF t f_LNK_PEER_CHIP k = d && Machine.getF t f_LNK_PEER_STATE k = 5)
      = (s.peers.map Prod.fst).any (fun k => Machine.getF s f_LNK_PEER_CHIP k = d && Machine.getF s f_LNK_PEER_STATE k = 5) := by
    rw [h.peers, Bool.eq_iff_iff, List.any_eq_true, List.any_eq_true]
    refine exists_congr fun k => and_congr_right fun hk => ?_
    obtain ⟨kv, hkv, rfl⟩ := List.mem_map.mp hk
    rw [hentry _ (hpeers kv hkv) f_LNK_PEER_CHIP rfl, hentry _ (hpeers kv hkv) f_LNK_PEER_STATE rfl]
  unfold Machine.noWay
  rw [hany]

theorem Reach.of_same (hr : Reach s d) (h : SameWays s t) : Reach t d := by
  obtain ⟨hd, hway, hport, hpeers, hstays⟩ := hr
  have hroutes := h.routePorts hd
  refine ⟨hd, (h.noWay hpeers d).trans hway, ?_, by rw [h.peers]; exact hpeers, fun p hp => ?_⟩
  · rw [hroutes, h.choosePort fun p hp => routePorts_lt s d hp]
    exact hport
  · rw [hroutes] at hp
    rw [h.linkState (routePorts_lt s d hp)]
    exact hstays p hp

/-! ## Messages sent (R415, R417) -/

/-- A message that goes by the route table: no guaranteed request. -/
def byTable (m : LinkMsg) : Prop := (m.label ≤ 3 && (m.type < 0x04 || m.type = msgCollPut)) = false

theorem sendMsg_reach (h : Reach s m.dest) (hm : byTable m) : ∃ p, p < 32 ∧ sendMsg s m = some (p, sendOn s p m) := by
  obtain ⟨-, hway, hport, -, hstays⟩ := h
  have hall : (routePorts s m.dest).filter (fun p => !portLeaving s m.inst p) = routePorts s m.dest :=
    List.filter_eq_self.mpr fun p hp => by simp [portLeaving, hstays p hp]
  obtain ⟨p, hp⟩ := Option.isSome_iff_exists.mp hport
  refine ⟨p, routePorts_lt s m.dest (mem_of_choosePort hp), ?_⟩
  unfold sendMsg
  dsimp only
  rw [if_neg (by rw [hway]; decide), if_neg (by rw [hm]; decide), hall, hp]
  rfl

/-- From `s` to `t` a message is sent, and beside that only the counts of what ports send change. -/
structure Sent (s t : State) (type aux dest : Nat) : Prop where
  sends : Sends t type aux dest
  held : HoldsOn s t
  regs : ∀ key, ¬ (0x901000 ≤ key ∧ key < 0x902000) → mfind t.regs key = mfind s.regs key

theorem Sent.before (h : Sent t u m.type m.aux m.dest) (hp : t.ports = s.ports)
    (hr : ∀ key, ¬ (0x901000 ≤ key ∧ key < 0x902000) → mfind t.regs key = mfind s.regs key) : Sent s u m.type m.aux m.dest :=
  ⟨h.sends, .trans (.of_ports_eq hp) h.held, fun key hk => (h.regs key hk).trans (hr key hk)⟩

theorem Sent.sameRange {type aux dest : Nat} (h : Sent s t type aux dest) (hi : Nat) : SameRange 0xA00000 hi s t :=
  fun key hlo _ => h.regs key (by omega)

theorem regs_pumpN (n : Nat) (s : State) (hp : p < 32) {key : Nat} (hk : ¬ (0x901000 ≤ key ∧ key < 0x902000)) :
    mfind (pumpN s p n).regs key = mfind s.regs key := by
  induction n generalizing s with
  | zero => rfl
  | succ n ih =>
    unfold pumpN
    dsimp only
    split
    · rfl
    · split
      · rfl
      · split
        · rfl
        · rw [ih]
          have htx : regKey r_LNK_PORT_TX p 0 = 0x901028 + p * 64 := regKey_zero ..
          exact (mfind_mput ..).trans (if_neg (by omega))

theorem sent_sendOn (s : State) (hp : p < 32) (m : LinkMsg) : Sent s (sendOn s p m) m.type m.aux m.dest := by
  obtain ⟨hheld, hnew⟩ := holdsOn_sendOn s p m
  exact ⟨⟨p, m, hnew, rfl, rfl, rfl⟩, hheld, fun key hk => regs_pumpN _ _ hp hk⟩

theorem sent_sendOrDrop (h : Reach s m.dest) (hm : byTable m) : Sent s (sendOrDrop s m) m.type m.aux m.dest := by
  obtain ⟨p, hp, hsent⟩ := sendMsg_reach h hm
  unfold sendOrDrop
  rw [hsent]
  exact sent_sendOn s hp m

theorem byTable_of_type (h : 0x04 ≤ m.type) (h' : m.type ≠ msgCollPut) : byTable m := by
  unfold byTable
  simp [Nat.not_lt.mpr h, h']

/-- An answer to a message is sent to its source. -/
theorem sent_answerTo (h : Reach t m.src) {type : Nat} (ht : 0x04 ≤ type) (ht' : type ≠ msgCollPut) (aux addr : Nat)
    (data : List Byte) (poison : Nat) : Sent t (sendOrDrop t (answerTo s m type aux addr data poison)) type aux m.src :=
  sent_sendOrDrop (m := answerTo s m type aux addr data poison) h (byTable_of_type ht ht')

theorem sameWays_discards (s : State) : SameWays s (countR s r_LNK_DISCARDS 0 1) :=
  (SameWays.refl s).countR (by decide) 1

theorem sent_answerErr (h : Reach s m.src) (code : Nat) :
    Sent (countR s r_LNK_DISCARDS 0 1) (answerErr s m code) msgErr code m.src :=
  sent_answerTo (m := m) (type := msgErr) (h.of_same (sameWays_discards s)) (by decide) (by decide) code 0 [] 0

theorem sameWays_countStale (s : State) (u : Unit8) : SameWays s (countStale s u) := by
  refine ((SameWays.refl s).countR (by decide) 1).countR ?_ 1
  cases u <;> simp [Unit8.kind, regKey_zero, r_CMP_STALE_KIND, wayKey]

/-- A refusal of a peer's request is sent to it, and no register of the later blocks changes. -/
theorem refusePeer_spec (h : Reach s m.src) (code : Nat) :
    Sends (refusePeer s m code) msgErr code m.src ∧ ∀ hi, SameRange 0xA00000 hi s (refusePeer s m code) := by
  have hdiscard (t : State) (hi : Nat) : SameRange 0xA00000 hi t (countR t r_LNK_DISCARDS 0 1) :=
    sameRange_setR t _ (.inl (by decide))
  have hsent (t : State) (ht : Reach t m.src) (hsame : ∀ hi, SameRange 0xA00000 hi s t) : Sends (answerErr t m code) msgErr code m.src
      ∧ ∀ hi, SameRange 0xA00000 hi s (answerErr t m code) :=
    ⟨(sent_answerErr ht code).sends, fun hi => (hsame hi).trans ((hdiscard t hi).trans ((sent_answerErr ht code).sameRange hi))⟩
  unfold refusePeer
  split
  · refine hsent _ (h.of_same (sameWays_countStale s (.inst m.inst))) fun hi => ?_
    exact (sameRange_setR s _ (.inl (by decide))).trans (sameRange_setR _ _ (.inl (show regKey r_CMP_STALE_KIND 3 0 < 0xA00000 by decide)))
  · exact hsent s h fun hi => .refl s

end


/-! ## Messages taken and sent on (R414 to R417) -/

section
variable {s t : State} {k p p' type code : Nat} {m : LinkMsg}

/-- The state without the message at a place of the input. -/
def taken (s : State) (k : Nat) : State := { s with linkIn := s.linkIn.eraseIdx k }

theorem sameWays_taken (s : State) (k : Nat) : SameWays s (taken s k) := .of_eq rfl rfl rfl

theorem onMsg_comes (h : Comes s k type p m) (f : Nat → LinkMsg → State → State) : onMsg s k type f = .next (f p m (taken s k)) := by
  unfold onMsg
  rw [h]
  rfl

/-- The message as it goes on from this chip: one more hop, and best effort. -/
def LinkMsg.onward (m : LinkMsg) : LinkMsg :=
  { m with
    hops := m.hops + 1
    label := if m.label ≤ 3 then 4 else m.label
    deadline := if m.label ≤ 3 then none else m.deadline }

/-- A message for another chip is next of its port and lane. -/
def Passes (s : State) (k p : Nat) (m : LinkMsg) : Prop :=
  takeIn s k (fun p m => p < 32 && m.dest ≠ chipId s && !linkLocal m) = some (p, m, taken s k)

/-- Is the destination of a message the neighbour on a port? -/
def nearBy (s : State) (p : Nat) (m : LinkMsg) : Prop := flagF s f_LNK_PORT_PEER_VALID p = true ∧ getF s f_LNK_PORT_PEER_CHIP p = m.dest

theorem messageTransit_goes (h : Passes s k p m) (hport : choosePort s (routePorts s m.dest) = some p')
    (hhops : m.hops < 2 ∨ m.hops = 2 ∧ nearBy s p' m) : exec (.messageTransit k) s = .next (sendOn (taken s k) p' m.onward) := by
  have hport' : choosePort (taken s k) (routePorts (taken s k) m.dest) = some p' := hport
  have hgoes : ¬ (decide (3 < m.hops + 1) || (decide (m.hops + 1 = 3)
      && !(flagF (taken s k) f_LNK_PORT_PEER_VALID p' && decide (getF (taken s k) f_LNK_PORT_PEER_CHIP p' = m.dest)))) = true := by
    rcases hhops with hlow | ⟨htwo, hvalid, hchip⟩
    · simp; omega
    · have hvalid' : flagF (taken s k) f_LNK_PORT_PEER_VALID p' = true := hvalid
      have hchip' : getF (taken s k) f_LNK_PORT_PEER_CHIP p' = m.dest := hchip
      simp [htwo, hvalid', hchip']
  change execMessageTransit k s = _
  unfold execMessageTransit
  rw [h]
  dsimp only
  rw [hport']
  exact congrArg _ (if_neg hgoes)

theorem messageTransit_stops (h : Passes s k p m)
    (hstop : choosePort s (routePorts s m.dest) = none ∧ code = linkNoRoute ∨ (∃ p', choosePort s (routePorts s m.dest) = some p'
      ∧ (3 ≤ m.hops ∨ m.hops = 2 ∧ ¬ nearBy s p' m)) ∧ code = linkHopLimit) :
    exec (.messageTransit k) s = .next (refuseMsg (countR (taken s k) r_LNK_DISCARDS 0 1) m.onward code) := by
  change execMessageTransit k s = _
  unfold execMessageTransit
  rw [h]
  dsimp only
  rcases hstop with ⟨hport, rfl⟩ | ⟨⟨p', hport, hhops⟩, rfl⟩
  · have hport' : choosePort (taken s k) (routePorts (taken s k) m.dest) = none := hport
    rw [hport']
    rfl
  · have hport' : choosePort (taken s k) (routePorts (taken s k) m.dest) = some p' := hport
    have hstops : (decide (3 < m.hops + 1) || (decide (m.hops + 1 = 3)
        && !(flagF (taken s k) f_LNK_PORT_PEER_VALID p' && decide (getF (taken s k) f_LNK_PORT_PEER_CHIP p' = m.dest)))) = true := by
      rcases hhops with hhigh | ⟨htwo, hfar⟩
      · simp; omega
      · have hfar' : ¬ (flagF (taken s k) f_LNK_PORT_PEER_VALID p' = true ∧ getF (taken s k) f_LNK_PORT_PEER_CHIP p' = m.dest) := hfar
        simpa [htwo, imp_iff_not_or] using hfar'
    rw [hport']
    exact congrArg _ (if_pos hstops)

/-- A message that goes no further is answered, and counted as discarded once. -/
theorem refuseMsg_onward (h : Reach s m.src) (hwants : wantsAnswer m = true) (hsrc : m.src ≠ chipId s) (code : Nat) :
    let t := refuseMsg (countR s r_LNK_DISCARDS 0 1) m.onward code
    Sends t msgErr code m.src ∧ getR t r_LNK_DISCARDS = (getR s r_LNK_DISCARDS + 1) % 2 ^ 64 := by
  have hways := sameWays_discards s
  have hsent := sent_answerTo (s := countR s r_LNK_DISCARDS 0 1) (m := m.onward) (type := msgErr) (h.of_same hways) (by decide) (by decide) code 0 [] 0
  have hrefuse : refuseMsg (countR s r_LNK_DISCARDS 0 1) m.onward code =
      sendOrDrop (countR s r_LNK_DISCARDS 0 1) (answerTo (countR s r_LNK_DISCARDS 0 1) m.onward msgErr code 0 [] 0) := by
    have hsrc' : m.onward.src ≠ chipId (countR s r_LNK_DISCARDS 0 1) := by rwa [hways.chipId]
    unfold refuseMsg
    rw [show wantsAnswer m.onward = true from hwants, if_neg (by decide), if_neg hsrc']
  intro t
  have ht : t = _ := hrefuse
  rw [ht]
  refine ⟨hsent.sends, ?_⟩
  have hkey := hsent.regs (regKey r_LNK_DISCARDS 0 0) (by decide)
  have hcount : getR (countR s r_LNK_DISCARDS 0 1) r_LNK_DISCARDS = (getR s r_LNK_DISCARDS + 1) % 2 ^ 64 % 2 ^ 64 := getR_setR_same ..
  unfold getR at hcount ⊢
  rw [hkey, hcount, Nat.mod_mod]

end


/-! ## Requests of peers (R354, R421) -/

section
variable {s t : State} {k p n l code : Nat} {m : LinkMsg} {f : State → State}

theorem forPeer_error (h : admitPeer s p m n = .error code) : forPeer s p m n f = refusePeer s m code := by
  unfold forPeer
  rw [h]

theorem forPeer_ok (h : admitPeer s p m n = .ok l) (hsec : (linePieces m.addr n).any (fun x => secureAddr s x.1) = false) :
    forPeer s p m n f = f s := by
  unfold forPeer
  rw [h]
  dsimp only
  rw [hsec]
  rfl

theorem admitPeer_ok (h : admitPeer s p m n = .ok l) : m.addr < hbmTop := by
  unfold admitPeer at h
  dsimp only at h
  split at h
  · cases h
  · next hfits =>
    have hfit := List.find?_some hfits
    simp only [Bool.and_eq_true, decide_eq_true_eq] at hfit
    tauto

/-- Bytes of one line are one piece. -/
theorem linePieces_one {a n : Nat} (hpos : 0 < n) (hfit : a % 256 + n ≤ 256) : linePieces a n = [(a, n)] := by
  have hone : (a % 256 + n + 255) / 256 = 1 := by omega
  have hlow : max a ((a / 256 + 0) * 256) = a := by omega
  have hlen : min (a + n) ((a / 256 + 0 + 1) * 256) - a = n := by omega
  unfold linePieces
  rw [hone]
  simp only [List.range_one, List.map_cons, List.map_nil, hlow, hlen]

/-- The state that keeps a peer's request of one part, under the next number. -/
def peerKept (s : State) (p : Nat) (m : LinkMsg) : State := { (fresh s).2 with linkReqs := mput s.linkReqs s.nextId ⟨m, p, [], 1⟩ }

/-- The request that its part makes. -/
def peerReq (s : State) (p : Nat) (m : LinkMsg) (n : Nat) (op : ReqOp) (d2 : List Byte) : MemReq :=
  { MemReq.make op (.link s.nextId) (chipId s * 2 ^ 48 + m.addr) n ((m.data.drop (m.addr - m.addr)).take n) m.label 0 0xFF 0
      (masterLink p) (p / 8) false with
    deadline := m.deadline
    data2 := d2
    poison := if op = .read then 0
      else Nat.land (m.poison / 2 ^ ((m.addr - m.addr) / 32) * 2 ^ (m.addr % 256 / 32)) (touchedMask (m.addr % 256) n) }

theorem peerParts_one (s : State) (p : Nat) (m : LinkMsg) (n : Nat) (op : ReqOp) (d2 : List Byte) :
    peerParts s p m [(m.addr, n)] op d2 = (sendReq (peerKept s p m) (peerReq s p m n op d2) 1).2 := rfl

/-- A peer's request `m'` that came on a port is kept, and its one part is a request for bytes at the address of `m`. -/
def Asked (s s' : State) (p : Nat) (m m' : LinkMsg) (op : ReqOp) (n : Nat) : Prop :=
  ∃ j id r, mfind s'.linkReqs j = some ⟨m', p, [], 1⟩ ∧ mfind s'.reqs id = some r ∧ r.op = op ∧ r.owner = .link j ∧ r.len = n
    ∧ r.gpa = chipId s * 2 ^ 48 + m.addr

theorem asked_peerParts (s : State) (p : Nat) (m : LinkMsg) (n : Nat) (op : ReqOp) (d2 : List Byte) (ha : m.addr < hbmTop) :
    Asked s (peerParts s p m [(m.addr, n)] op d2) p m m op n := by
  have hchip : gpaChip (peerReq s p m n op d2).gpa = chipId (peerKept s p m) := by
    change (chipId s * 2 ^ 48 + m.addr) / 2 ^ 48 = chipId s
    unfold hbmTop at ha
    omega
  have hlow : gpaLocal (peerReq s p m n op d2).gpa < hostWindow := by
    change gpaLocal (chipId s * 2 ^ 48 + m.addr) < hostWindow
    rw [gpaLocal_here _ ha]
    exact Nat.lt_of_not_le (not_hostWindow_le ha)
  obtain ⟨lab, d, st, hreq, -, -⟩ := sendReq_here 1 hchip hlow
  rw [peerParts_one]
  refine ⟨s.nextId, _, _, ?_, hreq, rfl, rfl, rfl, rfl⟩
  rw [(sendReq_frame ..).linkReqs (by decide)]
  exact (mfind_mput ..).trans (if_pos rfl)

theorem linkRead_exec (h : Comes s k msgRead p m) : exec (.linkRead k) s = .next (forPeer (taken s k) p m (m.aux % 2 ^ 16) (fun s =>
    if m.aux % 2 ^ 16 = 0 then sendOrDrop s (answerTo s m msgResp 0 0 [] 0)
    else peerParts s p m (linePieces m.addr (m.aux % 2 ^ 16)) .read [])) := onMsg_comes h _

theorem linkWrite_exec (h : Comes s k msgWrite p m) : exec (.linkWrite k) s = .next (forPeer (taken s k) p m m.data.length (fun s =>
    if m.data.length = 0 then sendOrDrop s (answerTo s m msgAck 0 0 [] 0)
    else peerParts s p m (linePieces m.addr m.data.length) .write [])) := onMsg_comes h _

theorem linkAtomic_exec (h : Comes s k msgAtomic p m) (hred : bitsOf m.aux 6 2 = 0) : exec (.linkAtomic k) s = .next (
    if 4 < m.aux % 16 || m.addr % (if bitAt m.aux 4 then 8 else 4) ≠ 0 || m.data.length < (if bitAt m.aux 4 then 8 else 4) then
      refusePeer (taken s k) m linkRefused
    else forPeer (taken s k) p m (if bitAt m.aux 4 then 8 else 4) (fun s =>
      peerParts s p { m with data := m.data.take (if bitAt m.aux 4 then 8 else 4) } [(m.addr, if bitAt m.aux 4 then 8 else 4)]
        (.atomic (m.aux % 16) (if bitAt m.aux 4 then 8 else 4) (bitAt m.aux 5) true) (m.data.drop (if bitAt m.aux 4 then 8 else 4)))) := by
  refine (onMsg_comes h _).trans ?_
  dsimp only
  rw [if_pos hred]

/-- A peer's request that is refused makes no request. -/
theorem refusePeer_taken (hr : Reach s m.src) (k code : Nat) :
    Sends (refusePeer (taken s k) m code) msgErr code m.src ∧ (refusePeer (taken s k) m code).reqs = s.reqs :=
  ⟨(refusePeer_spec (hr.of_same (sameWays_taken s k)) code).1, (refusePeer_frame ..).reqs (by decide)⟩

end


/-! ## Answers (R359, R414, R521) -/

section
variable {s t : State} {k p n id code q c : Nat} {m : LinkMsg} {r : MemReq}

theorem getR_countR (s : State) (r : Reg) (k n : Nat) : getR (countR s r k n) r k = (getR s r k + n) % 2 ^ 64 :=
  (getR_setR_same ..).trans (Nat.mod_mod ..)

theorem answeredReq_taken (s : State) (k : Nat) (m : LinkMsg) : answeredReq (taken s k) m = answeredReq s m := rfl

/-- The poison of an answer's data, by sector of its line. -/
def answerPoison (m : LinkMsg) (r : MemReq) : Nat := Nat.land (m.poison * 2 ^ (r.gpa % 256 / 32)) (touchedMask (r.gpa % 256) r.len)

/-- The request as its answer leaves it. -/
def answeredBy (m : LinkMsg) (r : MemReq) : MemReq := { r with stage := .done, data := m.data.take r.len, poison := answerPoison m r }

/-- The counts that an answer to device work makes. -/
def answerCounted (s : State) (m : LinkMsg) (r : MemReq) : State :=
  if isDeviceReq r then countPoison (readMiss s r) (answerPoison m r) else s

theorem resp_exec (h : Comes s k msgResp p m) (hr : answeredReq s m = some r) (ha : opAnswers r.op = true)
    (hroute : p < 32 → failedOn s (portRouter p) (originOf s r) = none) :
    exec (.resp k) s = .next (setReq (answerCounted (taken s k) m r) m.tag (answeredBy m r)) := by
  have hlost : (decide (p < 32) && (failedOn (taken s k) (portRouter p) (originOf (taken s k) r)).isSome) = false := by
    by_cases hp : p < 32
    · have hfail : failedOn (taken s k) (portRouter p) (originOf (taken s k) r) = none := hroute hp
      rw [hfail]
      simp
    · simp [hp]
  refine (onMsg_comes h _).trans ?_
  dsimp only
  rw [answeredReq_taken, hr]
  dsimp only
  rw [if_pos ha, hlost]
  rfl

theorem resp_late (h : Comes s k msgResp p m) (hr : answeredReq s m = none) : exec (.resp k) s = .next (lateAnswer (taken s k)) := by
  refine (onMsg_comes h _).trans ?_
  rw [answeredReq_taken, hr]

theorem linkAck_late (h : Comes s k msgAck p m) (hr : answeredReq s m = none) : exec (.linkAck k) s = .next (lateAnswer (taken s k)) := by
  refine (onMsg_comes h _).trans ?_
  rw [answeredReq_taken, hr]

theorem linkAck_exec (h : Comes s k msgAck p m) (hr : answeredReq s m = some r) (ha : opAnswers r.op = false) :
    exec (.linkAck k) s = .next (endWrite (taken s k) m.tag r) := by
  refine (onMsg_comes h _).trans ?_
  rw [answeredReq_taken, hr]
  exact congrArg _ (if_neg (by rw [ha]; decide))

/-! ### Requests that are gone -/

theorem nextHeld_spec {u : State} (h : nextHeld s = some (n, r, u)) : u.reqs = mdel s.reqs n ∧ ∃ r', (n, r') ∈ s.reqs := by
  unfold nextHeld at h
  have hmem := List.mem_of_mem_head? h
  obtain ⟨kv, hkv, hsome⟩ := List.mem_filterMap.mp hmem
  split at hsome
  · cases hsome
  · dsimp only at hsome
    split at hsome
    · cases hsome
    · obtain ⟨rfl, rfl, rfl⟩ : kv.1 = n ∧ _ ∧ _ := by simpa using hsome
      refine ⟨?_, kv.2, hkv⟩
      exact congrArg (mdel · kv.1) ((regulate_frame ..).reqs (by decide))

theorem fixHostReads_none (s : State) (r : MemReq) (h : mfind s.reqs id = none) : mfind (fixHostReads s r).reqs id = none := by
  refine Option.eq_none_iff_forall_ne_some.2 fun q hq => ?_
  obtain ⟨kv, hkv, hsame⟩ := List.mem_map.mp (mem_of_mfind hq)
  refine ne_of_mfind_none h hkv ?_
  have hkey := congrArg Prod.fst hsame
  dsimp only at hkey
  split at hkey <;> exact hkey

/-- A request that is gone does not come back as another leaves. -/
theorem launch_none (r : MemReq) (hn : n ≠ id) (h : mfind s.reqs id = none) : mfind (launch s n r).reqs id = none := by
  have hset (t : State) (q : MemReq) (ht : mfind t.reqs id = none) : mfind (setReq t n q).reqs id = none :=
    (mfind_mput ..).trans ((if_neg hn).trans ht)
  have hpoisoned : mfind (poisonedBack s n r).reqs id = none := hset _ _ h
  unfold launch
  dsimp only
  split
  · split
    · split
      · exact h
      · rw [(hostWrite_frame ..).reqs (by decide)]
        exact fixHostReads_none s r h
      · exact hset s r h
    · exact hset s r h
  · split
    · split
      · exact hpoisoned
      · exact h
    · split
      · exact hset s _ h
      · next hsent =>
        split
        · exact hset _ _ (by rw [(sendMsg_frame s _ _ hsent).reqs (by decide), h])
        · split
          · exact hpoisoned
          · exact h

/-- A request that is gone does not come back as held ones leave. -/
theorem releaseHeld_none (n : Nat) (s : State) (h : mfind s.reqs id = none) : mfind (releaseHeld s n).reqs id = none := by
  induction n generalizing s with
  | zero => exact h
  | succ n ih =>
    unfold releaseHeld
    split
    · exact h
    · next k r t hnext =>
      obtain ⟨hreqs, r', hmem⟩ := nextHeld_spec hnext
      have hne : k ≠ id := ne_of_mfind_none h hmem
      have hgone : mfind t.reqs id = none := by
        rw [hreqs, mfind_mdel, if_neg hne, h]
      have hlaunched := launch_none r hne hgone
      refine ih _ ?_
      split
      · exact hlaunched
      · rw [(ownerWritten_frame ..).reqs (by decide), hlaunched]

theorem dropReq_none (s : State) (id : Nat) : mfind (dropReq s id).reqs id = none := by
  refine releaseHeld_none _ _ (Option.eq_none_iff_forall_ne_some.2 fun r hr => ?_)
  have := List.of_mem_filter (mem_of_mfind hr)
  simp at this

theorem endWrite_none (s : State) (id : Nat) (r : MemReq) : mfind (endWrite s id r).reqs id = none := by
  unfold endWrite
  dsimp only
  rw [(ownerWritten_frame ..).reqs (by decide)]
  split
  · rw [(missCheck_frame ..).reqs (by decide)]
    exact dropReq_none s id
  · exact dropReq_none s id

/-! ### Errors -/

theorem err_request (h : Comes s k msgErr p m) (hr : answeredReq s m = some r) (ho : r.owner = .command q c)
    (hover : leaseOver s r = false) :
    exec (.err k) s = .next (setReq (taken s k) m.tag { r with err := errOfLink (m.aux % 256) }) := by
  have hover' : leaseOver (taken s k) r = false := by
    unfold leaseOver at hover ⊢
    rw [Bool.or_eq_false_iff] at hover ⊢
    refine ⟨hover.1, List.any_eq_false.mpr fun x hx => List.any_eq_false.mp hover.2 x (List.mem_of_mem_eraseIdx hx)⟩
  refine (onMsg_comes h _).trans ?_
  rw [answeredReq_taken, hr]
  dsimp only
  rw [if_neg (by rw [hover', Bool.and_false]; decide)]
  unfold errReq
  rw [ho]

theorem err_lost (h : Comes s k msgErr p m) (hr : answeredReq s m = some r) (hgone : leaseGone s r.gpa = true)
    (hcode : m.aux % 256 = linkRefused) (ha : opAnswers r.op = true) :
    exec (.err k) s = .next (poisonedBack (if isDeviceReq r then countPoison (readMiss (taken s k) r) 1 else taken s k) m.tag r) := by
  have hover : leaseOver (taken s k) r = true := by
    have hgone' : leaseGone (taken s k) r.gpa = true := hgone
    unfold leaseOver
    rw [hgone', Bool.true_or]
  refine (onMsg_comes h _).trans ?_
  rw [answeredReq_taken, hr]
  dsimp only
  rw [if_pos (by simp [hcode, hover])]
  unfold lostReq
  rw [if_pos ha]

theorem err_fence {f : FenceOut} (h : Comes s k msgErr p m) (hr : answeredReq s m = none) (hop : mfind s.ops m.tag = none)
    (hf : mfind s.fenceOuts m.tag = some f) : exec (.err k) s =
      .next (endCmd { taken s k with fenceOuts := mdel s.fenceOuts m.tag } f.cmd (errOfLink (m.aux % 256))) := by
  have hop' : mfind (taken s k).ops m.tag = none := hop
  have hf' : mfind (taken s k).fenceOuts m.tag = some f := hf
  refine (onMsg_comes h _).trans ?_
  rw [answeredReq_taken, hr, hop', hf']
  rfl

/-- The end of a command by the answer to its fence operation. -/
theorem finOf_endCmd_out {c : Cmd} {id : Nat} (hc : cmdOf s id = some c) (hfin : c.fin = none) (hcmds : t.cmds = s.cmds) (code : Nat) :
    finOf (endCmd t id code) id = some (some code) := by
  have hc' : mfind t.cmds id = some c := by rw [hcmds]; exact hc
  unfold finOf cmdOf
  rw [mfind_endCmd hc' hfin]
  rfl

/-! ### Aborts (R394, R421) -/

/-- Does an abort message name a message? -/
def aborts (m x : LinkMsg) : Bool := x.src = m.src && x.inst = m.inst && x.instar = m.instar && wantsAnswer x && laneOf x ≠ 0

/-- The numbers of the peers' requests that an abort message names. -/
def abortedReqs (s : State) (m : LinkMsg) : List Nat := (s.linkReqs.filter (fun kv => aborts m kv.2.msg)).map Prod.fst

/-- The state without what an abort message names. -/
def abortDone (s : State) (m : LinkMsg) : State :=
  { s with
    linkIn := s.linkIn.filter (fun x => !aborts m x.2)
    linkReqs := s.linkReqs.filter (fun kv => !(abortedReqs s m).contains kv.1) }

theorem linkAbort_exec (h : Comes s k msgAbort p m) : ∃ f, exec (.linkAbort k) s = .next (forgetReqs (abortDone (taken s k) m) f) :=
  ⟨_, onMsg_comes h _⟩

theorem linkAbort_spec (h : Comes s k msgAbort p m) (hno : NoHeld s) : Gives (.linkAbort k) s (fun s' =>
    (∀ x ∈ s'.linkIn, x ∈ s.linkIn ∧ aborts m x.2 = false)
      ∧ (∀ kv ∈ s.linkReqs, kv ∈ s'.linkReqs ∨ aborts m kv.2.msg = true ∨ ∃ j ∈ s.linkReqs, j.1 = kv.1 ∧ aborts m j.2.msg = true)
      ∧ ∀ kv ∈ s'.linkReqs, kv ∈ s.linkReqs ∧ aborts m kv.2.msg = false) := by
  obtain ⟨f, hexec⟩ := linkAbort_exec h
  have hno' : NoHeld (abortDone (taken s k) m) := hno
  have hsame : abortedReqs (taken s k) m = abortedReqs s m := rfl
  refine ⟨_, hexec, ?_⟩
  rw [forgetReqs_of_noHeld hno']
  refine ⟨fun x hx => ?_, fun kv hkv => ?_, fun kv hkv => ?_⟩
  · obtain ⟨hx, hkept⟩ := List.mem_filter.mp hx
    exact ⟨List.mem_of_mem_eraseIdx hx, by simpa using hkept⟩
  · by_cases hgone : kv.1 ∈ abortedReqs s m
    · obtain ⟨j, hj, hkey⟩ := List.mem_map.mp hgone
      obtain ⟨hj, hhit⟩ := List.mem_filter.mp hj
      exact .inr (.inr ⟨j, hj, hkey, hhit⟩)
    · exact .inl (List.mem_filter.mpr ⟨hkv, by rw [hsame]; simpa using hgone⟩)
  · obtain ⟨hkv, hkept⟩ := List.mem_filter.mp hkv
    refine ⟨hkv, Bool.eq_false_iff.mpr fun hhit => ?_⟩
    have hmem : kv.1 ∈ abortedReqs s m := List.mem_map.mpr ⟨kv, List.mem_filter.mpr ⟨hkv, hhit⟩, rfl⟩
    have hnot : kv.1 ∉ abortedReqs s m := by rw [hsame] at hkept; simpa using hkept
    exact hnot hmem

end


/-! ## Silk operations of peers (R253, R358, R425, R426) -/

section
variable {s t : State} {k p n v e op chip inst tag epoch type value : Nat} {m : LinkMsg}

/-- The counter that a peer's Silk message names under an import entry. -/
def silkCtr (s : State) (e : Nat) (m : LinkMsg) : Nat :=
  getF s f_SILK_RANGE_BASE (getF s f_SILK_IMPORT_LOCAL_INST e) + getF s f_SILK_IMPORT_BASE e + m.aux % 2 ^ 14

/-- A peer's Silk message as its operation on this chip. -/
def peerSilk (s : State) (e op : Nat) (m : LinkMsg) : SilkMsg :=
  ⟨op, silkCtr s e m, BitVec.ofNat 64 m.addr, .peer m.src m.inst m.tag, getF s f_SILK_IMPORT_LOCAL_INST e,
    instarOf s (.inst (getF s f_SILK_IMPORT_LOCAL_INST e)), m.epoch, m.sent⟩

theorem peerSilk_op (s : State) (e op : Nat) (m : LinkMsg) : (peerSilk s e op m).op = op := rfl

theorem silkFromPeer_refused (h : Comes s k (msgSilk + op) p m) (himp : importOf s m = none) :
    silkFromPeer k op false s = .next (refusePeer (taken s k) m linkRefused) := by
  have himp' : importOf (taken s k) m = none := himp
  refine (onMsg_comes h _).trans ?_
  rw [himp']

theorem silkFromPeer_stale (h : Comes s k (msgSilk + op) p m) (himp : importOf s m = some e)
    (hstale : m.instar ≠ instarOf s (.inst (getF s f_SILK_IMPORT_LOCAL_INST e))) :
    silkFromPeer k op false s = .next (refusePeer (taken s k) m linkStale) := by
  have himp' : importOf (taken s k) m = some e := himp
  refine (onMsg_comes h _).trans ?_
  rw [himp']
  exact congrArg _ (if_pos hstale)

theorem silkFromPeer_performed (h : Comes s k (msgSilk + op) p m) (himp : importOf s m = some e)
    (hinstar : m.instar = instarOf s (.inst (getF s f_SILK_IMPORT_LOCAL_INST e)))
    (hin : m.aux % 2 ^ 14 < getF s f_SILK_IMPORT_SIZE e) :
    silkFromPeer k op false s = .next (silkPerform (taken s k) (peerSilk s e op m)) := by
  have himp' : importOf (taken s k) m = some e := himp
  refine (onMsg_comes h _).trans ?_
  rw [himp']
  exact congrArg _ ((if_neg (not_not_intro hinstar)).trans (if_neg (Nat.not_le.mpr hin)))

/-! ### Counters that nobody waits on -/

theorem releaseGe_idle (h : NoWaiter s n) : releaseGe s n = s := by
  have hnone : s.silkWaiters.filter (fun w => w.ctr = n && !w.take && decide (w.value.toNat ≤ getR s r_SILK_CTR n)) = [] :=
    List.filter_eq_nil_iff.mpr fun w hw => by simp [h w hw]
  have hall : s.silkWaiters.filter (fun w => !(w.ctr = n && !w.take && decide (w.value.toNat ≤ getR s r_SILK_CTR n))) = s.silkWaiters :=
    List.filter_eq_self.mpr fun w hw => by simp [h w hw]
  unfold releaseGe
  dsimp only
  rw [hnone, hall]
  rfl

theorem releaseTake_idle (h : NoWaiter s n) (j : Nat) : releaseTake s n j = s := by
  cases j with
  | zero => rfl
  | succ j =>
    have hnone : s.silkWaiters.find? (fun w => w.ctr = n && w.take) = none :=
      List.find?_eq_none.mpr fun w hw => by simp [h w hw]
    unfold releaseTake
    rw [hnone]
    exact ite_self _

theorem setCounter_idle (h : NoWaiter s n) (v : Nat) : setCounter s n v = setR s r_SILK_CTR n v := by
  have h' : NoWaiter (setR s r_SILK_CTR n v) n := h
  unfold setCounter releaseWaiters
  dsimp only
  rw [releaseGe_idle h', releaseTake_idle h']

/-! ### Answers to Silk operations -/

theorem sent_silkTo (h : Reach s chip) : Sent s (silkTo s chip inst tag epoch type value) type 0 chip := by
  have hreach : Reach (freeVal s 8).2 chip := h.of_same (.of_eq rfl rfl rfl)
  have hsent := sent_sendOrDrop (s := (freeVal s 8).2) (m := { LinkMsg.blank (freeVal s 8).2 type chip with
    tag := tag, inst := inst, instar := (freeVal s 8).1, epoch := epoch, addr := value }) hreach rfl
  exact ⟨hsent.sends, .trans (.of_ports_eq rfl) hsent.held, hsent.regs⟩

theorem silkKey (n : Nat) : regKey r_SILK_CTR n 0 = 0xA80000 + n * 8 := regKey_zero ..

/-- What is sent last leaves the counters. -/
theorem getR_ctr_of_sameRange (h : ∀ hi, SameRange 0xA00000 hi s t) (n : Nat) : getR t r_SILK_CTR n = getR s r_SILK_CTR n :=
  (h (regKey r_SILK_CTR n 0 + 1)).getR (by rw [silkKey]; omega) (Nat.lt_succ_self _)

theorem sameWays_xOps (s : State) : SameWays s (countR s r_SILK_X_OPS 0 1) := (SameWays.refl s).countR (by decide) 1

theorem sameWays_setCtr (s : State) (hn : n < 16384) (v : Nat) : SameWays s (setR s r_SILK_CTR n v) :=
  (SameWays.refl s).setR (by rw [silkKey]; unfold wayKey; omega) v

/-- The state in which a peer's operation has been counted. -/
def silkCounted (s : State) : State := countR s r_SILK_X_OPS 0 1

theorem getR_silkCounted (s : State) (n : Nat) : getR (silkCounted s) r_SILK_CTR n = getR s r_SILK_CTR n := by
  have hx : regKey r_SILK_X_OPS 0 0 = 0xA40008 := by decide
  have hkey := silkKey n
  unfold silkCounted countR getR
  exact congrArg (fun o => (Option.map BitVec.toNat o).getD _) ((mfind_mput ..).trans (if_neg (by omega)))

/-- A peer's Silk operation at its home that has a peer to answer to. -/
structure PeerOp (s : State) (m : SilkMsg) (chip : Nat) : Prop where
  sender : ∃ inst tag, m.src = .peer chip inst tag
  reach : Reach s chip
  ctr : m.ctr < 16384
  plain : m.ctr ∉ s.custody
  idle : NoWaiter s m.ctr

theorem silkPerform_peer {m : SilkMsg} (h : PeerOp s m chip) : silkPerform s m =
    if m.op = silkAdd then
      silkAnswer (setR (silkCounted s) r_SILK_CTR m.ctr ((getR s r_SILK_CTR m.ctr + m.value.toNat) % 2 ^ 64)) m (getR s r_SILK_CTR m.ctr)
    else if m.op = silkRead then silkAnswer (silkCounted s) m (getR s r_SILK_CTR m.ctr)
    else if m.op = silkWaitge then
      if m.value.toNat ≤ getR s r_SILK_CTR m.ctr then silkAnswer (silkCounted s) m (getR s r_SILK_CTR m.ctr) else silkHold (silkCounted s) m
    else if getR s r_SILK_CTR m.ctr ≠ 0 then
      silkAnswer (setR (silkCounted s) r_SILK_CTR m.ctr (getR s r_SILK_CTR m.ctr - 1)) m (getR s r_SILK_CTR m.ctr)
    else silkHold (silkCounted s) m := by
  obtain ⟨inst, tag, hsrc⟩ := h.sender
  have hidle : NoWaiter (silkCounted s) m.ctr := h.idle
  have hcust : s.custody.contains m.ctr = false := by simpa using h.plain
  unfold silkPerform
  dsimp only
  rw [hsrc, hcust]
  simp only [Bool.false_eq_true, if_false]
  rw [← silkCounted, setCounter_idle hidle, setCounter_idle hidle]

theorem sent_silkAnswer {m : SilkMsg} (hsrc : m.src = .peer chip inst tag) (h : Reach s chip) :
    Sent s (silkAnswer s m v) (if m.op = silkAdd then msgSilkAck else msgSilkRelease) 0 chip := by
  unfold silkAnswer
  rw [hsrc]
  dsimp only
  split
  · exact sent_silkTo h
  · split
    · exact sent_silkTo h
    · have hreach : Reach { s with silkSent := s.silkSent ++ [⟨m.op = silkTake, m.ctr, m.value, .peer chip inst tag, 0, m.epoch⟩] } chip :=
        h.of_same (.of_eq rfl rfl rfl)
      have hsent := sent_silkTo (inst := inst) (tag := tag) (epoch := m.epoch) (type := msgSilkRelease) (value := v) hreach
      exact ⟨hsent.sends, .trans (.of_ports_eq rfl) hsent.held, hsent.regs⟩

/-! ### Operations performed -/

/-- A peer's Silk message that its home performs at once or holds. -/
structure SilkComes (s : State) (k p e op : Nat) (m : LinkMsg) : Prop where
  comes : Comes s k (msgSilk + op) p m
  admitted : importOf s m = some e
  current : m.instar = instarOf s (.inst (getF s f_SILK_IMPORT_LOCAL_INST e))
  inside : m.aux % 2 ^ 14 < getF s f_SILK_IMPORT_SIZE e
  ctr : silkCtr s e m < 16384
  addr : m.addr < 2 ^ 64
  reach : Reach s m.src
  plain : silkCtr s e m ∉ s.custody
  idle : NoWaiter s (silkCtr s e m)

theorem SilkComes.peerOp (h : SilkComes s k p e op m) : PeerOp (taken s k) (peerSilk s e op m) m.src :=
  ⟨⟨_, _, rfl⟩, h.reach.of_same (sameWays_taken s k), h.ctr, h.plain, h.idle⟩

theorem SilkComes.performed (h : SilkComes s k p e op m) :
    silkFromPeer k op false s = .next (silkPerform (taken s k) (peerSilk s e op m)) :=
  silkFromPeer_performed h.comes h.admitted h.current h.inside

theorem SilkComes.operand (h : SilkComes s k p e op m) : (peerSilk s e op m).value.toNat = m.addr :=
  (BitVec.toNat_ofNat ..).trans (Nat.mod_eq_of_lt h.addr)

theorem silkAnswer_spec (h : SilkComes s k p e op m) (hways : SameWays (taken s k) t) (v : Nat) :
    getR (silkAnswer t (peerSilk s e op m) v) r_SILK_CTR (silkCtr s e m) = getR t r_SILK_CTR (silkCtr s e m)
      ∧ Sends (silkAnswer t (peerSilk s e op m) v) (if op = silkAdd then msgSilkAck else msgSilkRelease) 0 m.src :=
  have hsent := sent_silkAnswer (s := t) (v := v) (m := peerSilk s e op m) rfl (h.peerOp.reach.of_same hways)
  ⟨getR_ctr_of_sameRange hsent.sameRange _, hsent.sends⟩

theorem silkAdd_performed (h : SilkComes s k p e silkAdd m) : Gives (.silkAddMsg k false) s (fun s' =>
    getR s' r_SILK_CTR (silkCtr s e m) = (getR s r_SILK_CTR (silkCtr s e m) + m.addr) % 2 ^ 64 ∧ Sends s' msgSilkAck 0 m.src) := by
  refine ⟨_, h.performed, ?_⟩
  rw [silkPerform_peer h.peerOp, peerSilk_op, if_pos rfl, h.operand]
  obtain ⟨hctr, hsends⟩ := silkAnswer_spec h ((sameWays_xOps (taken s k)).trans
    (sameWays_setCtr (silkCounted (taken s k)) h.ctr ((getR s r_SILK_CTR (silkCtr s e m) + m.addr) % 2 ^ 64)))
    (getR s r_SILK_CTR (silkCtr s e m))
  exact ⟨hctr.trans ((getR_setR_same ..).trans (Nat.mod_mod ..)), hsends⟩

theorem silkRead_performed (h : SilkComes s k p e silkRead m) : Gives (.silkReadMsg k false) s (fun s' =>
    getR s' r_SILK_CTR (silkCtr s e m) = getR s r_SILK_CTR (silkCtr s e m) ∧ Sends s' msgSilkRelease 0 m.src) := by
  refine ⟨_, h.performed, ?_⟩
  rw [silkPerform_peer h.peerOp, peerSilk_op, if_neg (by decide),
    if_pos rfl]
  obtain ⟨hctr, hsends⟩ := silkAnswer_spec h (sameWays_xOps (taken s k)) (getR s r_SILK_CTR (silkCtr s e m))
  exact ⟨hctr.trans (getR_silkCounted _ _), hsends⟩

theorem silkWaitge_eq (h : SilkComes s k p e silkWaitge m) : silkPerform (taken s k) (peerSilk s e silkWaitge m) =
    if m.addr ≤ getR s r_SILK_CTR (silkCtr s e m) then
      silkAnswer (silkCounted (taken s k)) (peerSilk s e silkWaitge m) (getR s r_SILK_CTR (silkCtr s e m))
    else silkHold (silkCounted (taken s k)) (peerSilk s e silkWaitge m) := by
  rw [silkPerform_peer h.peerOp, peerSilk_op, if_neg (by decide),
    if_neg (by decide),
    if_pos rfl, h.operand]
  rfl

theorem silkTake_eq (h : SilkComes s k p e silkTake m) : silkPerform (taken s k) (peerSilk s e silkTake m) =
    if getR s r_SILK_CTR (silkCtr s e m) ≠ 0 then
      silkAnswer (setR (silkCounted (taken s k)) r_SILK_CTR (silkCtr s e m) (getR s r_SILK_CTR (silkCtr s e m) - 1))
        (peerSilk s e silkTake m) (getR s r_SILK_CTR (silkCtr s e m))
    else silkHold (silkCounted (taken s k)) (peerSilk s e silkTake m) := by
  rw [silkPerform_peer h.peerOp, peerSilk_op, if_neg (by decide),
    if_neg (by decide), if_neg (by decide)]
  rfl

theorem silkHold_peer (hroom : remoteWaiters s < 16384) (op : Nat) : (silkHold (silkCounted (taken s k)) (peerSilk s e op m)).silkWaiters =
    s.silkWaiters ++ [⟨op = silkTake, silkCtr s e m, BitVec.ofNat 64 m.addr, .peer m.src m.inst m.tag, 0, m.epoch⟩] := by
  have hroom' : ¬ 16384 ≤ remoteWaiters (silkCounted (taken s k)) := Nat.not_le.mpr hroom
  unfold silkHold peerSilk
  dsimp only
  rw [if_neg hroom']
  rfl

theorem silkWaitge_performed (h : SilkComes s k p e silkWaitge m) (hv : m.addr ≤ getR s r_SILK_CTR (silkCtr s e m)) :
    Gives (.silkWaitgeMsg k false) s (fun s' =>
      getR s' r_SILK_CTR (silkCtr s e m) = getR s r_SILK_CTR (silkCtr s e m) ∧ Sends s' msgSilkRelease 0 m.src) := by
  refine ⟨_, h.performed, ?_⟩
  rw [silkWaitge_eq h, if_pos hv]
  obtain ⟨hctr, hsends⟩ := silkAnswer_spec h (sameWays_xOps (taken s k)) (getR s r_SILK_CTR (silkCtr s e m))
  exact ⟨hctr.trans (getR_silkCounted _ _), hsends⟩

theorem silkWaitge_held (h : SilkComes s k p e silkWaitge m) (hv : getR s r_SILK_CTR (silkCtr s e m) < m.addr)
    (hroom : remoteWaiters s < 16384) : Gives (.silkWaitgeMsg k false) s (fun s' => s'.silkWaiters =
      s.silkWaiters ++ [⟨false, silkCtr s e m, BitVec.ofNat 64 m.addr, .peer m.src m.inst m.tag, 0, m.epoch⟩]) := by
  refine ⟨_, h.performed, ?_⟩
  rw [silkWaitge_eq h, if_neg (Nat.not_le.mpr hv)]
  exact silkHold_peer hroom silkWaitge

theorem silkTake_performed (h : SilkComes s k p e silkTake m) (hv : getR s r_SILK_CTR (silkCtr s e m) ≠ 0)
    (hlt : getR s r_SILK_CTR (silkCtr s e m) < 2 ^ 64) : Gives (.silkTakeMsg k false) s (fun s' =>
      getR s' r_SILK_CTR (silkCtr s e m) = getR s r_SILK_CTR (silkCtr s e m) - 1 ∧ Sends s' msgSilkRelease 0 m.src) := by
  refine ⟨_, h.performed, ?_⟩
  rw [silkTake_eq h, if_pos hv]
  obtain ⟨hctr, hsends⟩ := silkAnswer_spec h ((sameWays_xOps (taken s k)).trans
    (sameWays_setCtr (silkCounted (taken s k)) h.ctr (getR s r_SILK_CTR (silkCtr s e m) - 1))) (getR s r_SILK_CTR (silkCtr s e m))
  exact ⟨hctr.trans ((getR_setR_same ..).trans (Nat.mod_eq_of_lt (by omega))), hsends⟩

theorem silkTake_held (h : SilkComes s k p e silkTake m) (hv : getR s r_SILK_CTR (silkCtr s e m) = 0)
    (hroom : remoteWaiters s < 16384) : Gives (.silkTakeMsg k false) s (fun s' => s'.silkWaiters =
      s.silkWaiters ++ [⟨true, silkCtr s e m, BitVec.ofNat 64 m.addr, .peer m.src m.inst m.tag, 0, m.epoch⟩]) := by
  refine ⟨_, h.performed, ?_⟩
  rw [silkTake_eq h, if_neg (not_not_intro hv)]
  exact silkHold_peer hroom silkTake

end


/-! ## Fences at their home (R371, R372) -/

section
variable {s t u : State} {k p n a g v st w code : Nat} {m : LinkMsg}

theorem leNat_lt (l : List Byte) : leNat l < 2 ^ (8 * l.length) := by
  induction l with
  | nil => exact Nat.one_pos
  | cons b l ih =>
    have hb := b.isLt
    rw [leNat, List.length_cons, show 8 * (l.length + 1) = 8 * l.length + 8 by omega, Nat.pow_add]
    omega

theorem leNat_leBytes (n v : Nat) : leNat (leBytes n v) = v % 2 ^ (8 * n) := by
  induction n generalizing v with
  | zero => rw [Nat.mul_zero, pow_zero, Nat.mod_one]; rfl
  | succ n ih =>
    rw [leBytes, leNat, ih, BitVec.toNat_ofNat, show 8 * (n + 1) = 8 + 8 * n by omega, Nat.pow_add]
    exact (Nat.mod_mul ..).symm

theorem fenceNext_error (h : bitAt st 16 = false) (c : Nat) :
    setBits (setBits st 16 1 1) 0 16 (c % 2 ^ 16) = st / 2 ^ 16 * 2 ^ 16 + 2 ^ 16 + c % 2 ^ 16 := by
  unfold bitAt at h
  unfold setBits bitsOf
  simp only [decide_eq_false_iff_not] at h
  omega

theorem fenceNext_reset (st : Nat) : setBits st 0 17 0 = st / 2 ^ 17 * 2 ^ 17 := by
  unfold setBits bitsOf
  omega

/-! ### The home's line -/

theorem forwarded_still (h : ∀ kv ∈ s.imagos, kv.2.evac = []) (a : Nat) : forwarded s a = a := by
  unfold forwarded
  generalize hl : s.imagos = l at h
  clear hl
  induction l with
  | nil => rfl
  | cons kv l ih =>
    have hkv := h kv List.mem_cons_self
    rw [List.foldl_cons, hkv]
    exact ih fun kv' hkv' => h kv' (List.mem_cons_of_mem _ hkv')

/-- A fence's place in this chip's HBM, to which no bridge link of the fence cache has failed, in a line in order. -/
structure FencePlace (s : State) (a : Nat) : Prop where
  low : a < hbmTop
  aligned : a % 16 = 0
  still : ∀ kv ∈ s.imagos, kv.2.evac = []
  there : failedOn s managerRouter (sliceRouter (sliceOf a)) = none
  back : failedOn s (sliceRouter (sliceOf a)) managerRouter = none
  line : Coherent s (a / 256)

/-- Bridges, evacuations and a line are as they were. -/
structure SameLine (s t : State) (n : Nat) : Prop where
  imagos : t.imagos = s.imagos
  bridges : SameRange 0x800040 0x800050 s t
  bytes : Coherent s n → lineBytes t n = lineBytes s n ∧ Coherent t n

theorem SameLine.refl (s : State) (n : Nat) : SameLine s s n := ⟨rfl, .refl s, fun h => ⟨rfl, h⟩⟩

theorem SameLine.trans (h : SameLine s t n) (h' : SameLine t u n) : SameLine s u n :=
  ⟨h'.imagos.trans h.imagos, h.bridges.trans h'.bridges, fun hn =>
    have ⟨hb, hc⟩ := h.bytes hn
    have ⟨hb', hc'⟩ := h'.bytes hc
    ⟨hb'.trans hb, hc'⟩⟩

theorem SameLine.of_eq (hi : t.imagos = s.imagos) (hb : t.bufs = s.bufs) (hh : t.hbm = s.hbm) (hr : SameRange 0x800040 0x800050 s t) :
    SameLine s t n := by
  have hbuf : bufOf t n = bufOf s n := by unfold bufOf; rw [hb]
  have hline : hbmLine t n = hbmLine s n := by unfold hbmLine; rw [hh]
  exact ⟨hi, hr, line_congr hbuf hline⟩

theorem MemOnly.imagos (h : MemOnly s t) : t.imagos = s.imagos := by
  obtain ⟨_, _, _, rfl⟩ := h
  rfl

theorem MemOnly.regs (h : MemOnly s t) : t.regs = s.regs := by
  obtain ⟨_, _, _, rfl⟩ := h
  rfl

theorem SameLines.sameLine (h : SameLines s t) (n : Nat) : SameLine s t n :=
  ⟨h.only.imagos, .of_regs_eq h.only.regs, h.line n⟩

theorem sameLine_regulate (s : State) (r : MemReq) (dst n : Nat) : SameLine s (regulate s r dst).2 n := by
  have hframe := regulate_frame s r dst
  refine .of_eq (hframe.imagos (by decide)) (hframe.bufs (by decide)) (hframe.hbm (by decide)) ?_
  unfold regulate
  split
  · exact .refl s
  · dsimp only
    split
    · unfold demote
      dsimp only
      refine SameRange.trans (t := countR s r_QOS_DEMOTED 0 r.len) (sameRange_setR _ _ (.inl (by decide))) ?_
      split
      · next hi =>
        have hkey : regKey r_QOS_IMG_DEMOTE r.inst 0 = 0x501C08 + r.inst * r_QOS_IMG_DEMOTE.stride := regKey_zero ..
        refine sameRange_setR _ _ (.inl ?_)
        rw [regKey_zero, r_QOS_IMG_DEMOTE]
        dsimp only
        omega
      · exact .refl _
    · exact .of_regs_eq rfl

theorem bridgeKey (b : Nat) (h : b < 4) : 0x800040 ≤ regKey f_MEM_BRIDGE_STAT_FAILED.reg b 0
    ∧ regKey f_MEM_BRIDGE_STAT_FAILED.reg b 0 < 0x800050 := by
  have hkey : regKey f_MEM_BRIDGE_STAT_FAILED.reg b 0 = 0x800040 + b * 4 := regKey_zero ..
  omega

theorem failedOn_congr (h : SameRange 0x800040 0x800050 s t) (x y : Nat × Nat) : failedOn t x y = failedOn s x y := by
  unfold failedOn
  refine congrArg (Option.map Prod.fst) (List.find?_congr fun b hb => ?_)
  obtain ⟨hlo, hhi⟩ := bridgeKey b.1 (bridgesOf_lt hb)
  rw [h.getF hlo hhi]

/-! ### The fence's words -/

theorem readAt_low (hlow : a < hbmTop) (hstill : ∀ kv ∈ s.imagos, kv.2.evac = []) (c len : Nat) :
    (readAt s (c * 2 ^ 48 + a) len).1 = ((lineBytes s (a / 256)).drop (a % 256)).take len := by
  have hlocal := gpaLocal_here c hlow
  unfold readAt
  rw [hlocal, if_neg (not_hostWindow_le hlow), forwarded_still hstill]

/-- The two words that sixteen bytes hold. -/
def fencePair (d : List Byte) : Nat × Nat := (leNat (d.take 8), leNat ((d.drop 8).take 8))

theorem fenceWords_low (h : FencePlace s a) (c : Nat) :
    fenceWords s (c * 2 ^ 48 + a) = fencePair (((lineBytes s (a / 256)).drop (a % 256)).take 16) := by
  unfold fenceWords
  rw [readAt_low h.low h.still]
  rfl

theorem fenceWords_lt (s : State) (g : Nat) : (fenceWords s g).1 < 2 ^ 64 ∧ (fenceWords s g).2 < 2 ^ 64 := by
  have hshort (l : List Byte) (h : l.length ≤ 8) : leNat l < 2 ^ 64 :=
    (leNat_lt l).trans_le (Nat.pow_le_pow_right (by decide) (by omega))
  exact ⟨hshort _ (List.length_take_le ..), hshort _ (List.length_take_le ..)⟩

theorem fencePair_leBytes (v st : Nat) (hv : v < 2 ^ 64) (hst : st < 2 ^ 64) : fencePair (leBytes 8 v ++ leBytes 8 st) = (v, st) := by
  have hlen := leBytes_length 8 v
  have hlen' := leBytes_length 8 st
  unfold fencePair
  rw [List.take_left' hlen, List.drop_left' hlen, List.take_of_length_le hlen'.le, leNat_leBytes, leNat_leBytes,
    Nat.mod_eq_of_lt hv, Nat.mod_eq_of_lt hst]

theorem patched {l data : List Byte} {o : Nat} (h : o + data.length ≤ l.length) : ((patch l o data).drop o).take data.length = data := by
  have htake : (l.take o).length = o := by rw [List.length_take]; omega
  unfold patch
  rw [List.append_assoc, List.drop_left' htake, List.take_left' rfl]

theorem FencePlace.of_same (h : FencePlace s a) (h' : SameLine s t (a / 256)) : FencePlace t a :=
  ⟨h.low, h.aligned, by rw [h'.imagos]; exact h.still, by rw [failedOn_congr h'.bridges]; exact h.there,
    by rw [failedOn_congr h'.bridges]; exact h.back, (h'.bytes h.line).2⟩

theorem FencePlace.home (h : FencePlace s a) (c : Nat) : homeRouter s (c * 2 ^ 48 + a) = sliceRouter (sliceOf a) := by
  have hlocal := gpaLocal_here c h.low
  rw [homeRouter_low (by rw [hlocal]; exact not_hostWindow_le h.low), hlocal, forwarded_still h.still]

theorem sameLine_countR (s : State) {r : Reg} {k : Nat} (c : Nat) (hk : regKey r k 0 < 0x800040 ∨ 0x800050 ≤ regKey r k 0) :
    SameLine s (countR s r k c) n :=
  .of_eq rfl rfl rfl (sameRange_setR _ _ hk)

theorem sameLine_countPoison (s : State) (bad : Nat) : SameLine s (countPoison s bad) n := by
  unfold countPoison
  split
  · exact .refl s n
  · exact sameLine_countR _ _ (.inl (by decide))

theorem rdBytesKey (x : Nat) : 0x800050 ≤ regKey r_MEM_RD_BYTES x 0 := by
  rw [regKey_zero, r_MEM_RD_BYTES]
  dsimp only
  omega

theorem wrBytesKey (x : Nat) : 0x800050 ≤ regKey r_MEM_WR_BYTES x 0 := by
  rw [regKey_zero, r_MEM_WR_BYTES]
  dsimp only
  omega

theorem sameLine_readNow (h : FencePlace s a) (c : Nat) : SameLine s (readNow s managerRouter (c * 2 ^ 48 + a) 16).2 (a / 256) := by
  have hlocal := gpaLocal_here c h.low
  have hread := readLine_low (s := s) (here := managerRouter) (g := c * 2 ^ 48 + a) (by rw [hlocal]; exact not_hostWindow_le h.low)
    (by rw [h.home]; exact h.there) (by rw [h.home]; exact h.back) 16
  unfold readNow
  rw [hread, hlocal, forwarded_still h.still]
  exact (((sameLines_readAllocate ..).sameLine _).trans (sameLine_countR _ _ (.inr (rdBytesKey _)))).trans (sameLine_countPoison ..)

/-- A fence's place is written through in one access of sixteen bytes, and reads as they say. -/
theorem fenceWords_writeNow (h : FencePlace s a) (c : Nat) {d : List Byte} (hd : d.length = 16) :
    fenceWords (writeNow s managerRouter (c * 2 ^ 48 + a) 0 d) (c * 2 ^ 48 + a) = fencePair d
      ∧ FencePlace (writeNow s managerRouter (c * 2 ^ 48 + a) 0 d) a := by
  have hlocal := gpaLocal_here c h.low
  have hfit : a % 256 + d.length ≤ 256 := by have := h.aligned; omega
  rw [writeNow_low (by rw [hlocal]; exact not_hostWindow_le h.low) (by rw [h.home]; exact h.there), hlocal, forwarded_still h.still]
  have hwritten := lineWritten_lineWrite s hfit (a / 256) 0 0
  have hcount : SameLine (lineWrite s (a / 256) (a % 256) 0 0 d) _ (a / 256) :=
    sameLine_countR _ d.length (.inr (wrBytesKey (sliceOf a)))
  obtain ⟨hbytes, hok⟩ := hwritten.line h.line
  obtain ⟨hbytes', hok'⟩ := hcount.bytes hok
  have hregs : SameRange 0x800040 0x800050 s (lineWrite s (a / 256) (a % 256) 0 0 d) := .of_regs_eq hwritten.only.regs
  have hbridge := hregs.trans hcount.bridges
  have hplace : FencePlace (countR (lineWrite s (a / 256) (a % 256) 0 0 d) r_MEM_WR_BYTES (sliceOf a) d.length) a :=
    ⟨h.low, h.aligned, by rw [hcount.imagos, hwritten.only.imagos]; exact h.still, by rw [failedOn_congr hbridge]; exact h.there,
      by rw [failedOn_congr hbridge]; exact h.back, hok'⟩
  refine ⟨?_, hplace⟩
  rw [fenceWords_low hplace, hbytes', hbytes, ← hd, patched (by rw [h.line.length_lineBytes]; exact hfit)]

theorem fenceWords_fenceWrite (h : FencePlace s a) (c space : Nat) {d : List Byte} (hd : d.length = 16) :
    fenceWords (fenceWrite s space (c * 2 ^ 48 + a) d) (c * 2 ^ 48 + a) = fencePair d
      ∧ FencePlace (fenceWrite s space (c * 2 ^ 48 + a) d) a := by
  have hread := h.of_same (sameLine_regulate s (fenceReq .read (c * 2 ^ 48 + a) space []) (fenceDst (c * 2 ^ 48 + a)) (a / 256))
  have hwrite := hread.of_same (sameLine_readNow hread c)
  exact fenceWords_writeNow (hwrite.of_same (sameLine_regulate ..)) c hd

/-- With no waiter, the release of waiters changes nothing. -/
theorem releaseFences_idle (h : ∀ w ∈ s.fenceWaiters, w.gpa ≠ g) : releaseFences s g = s := by
  have hmine : s.fenceWaiters.filter (fun w => w.gpa = g) = [] := List.filter_eq_nil_iff.2 fun w hw => by simpa using h w hw
  have hkept (f : FenceWaiter → Bool) : s.fenceWaiters.filter (fun w => !(decide (w.gpa = g) && f w)) = s.fenceWaiters :=
    List.filter_eq_self.2 fun w hw => by simp [h w hw]
  unfold releaseFences
  dsimp only
  rw [hmine, hkept]
  rfl

/-- With no evacuation, a fence's words are bytes of this chip's memory or the host's. -/
theorem fenceWords_congr (hstill : ∀ kv ∈ s.imagos, kv.2.evac = []) (hi : t.imagos = s.imagos) (hb : t.bufs = s.bufs) (hh : t.hbm = s.hbm) (ho : t.host = s.host) (g : Nat) :
    fenceWords t g = fenceWords s g := by
  have hforward (a : Nat) : forwarded t a = forwarded s a := by
    rw [forwarded_still hstill, forwarded_still (by rw [hi]; exact hstill)]
  have hline (n : Nat) : lineBytes t n = lineBytes s n := by unfold lineBytes bufOf hbmLine; rw [hb, hh]
  have hread : (readAt t g 16).1 = (readAt s g 16).1 := by
    unfold readAt
    rw [ho, hforward]
    split
    · rfl
    · dsimp only
      rw [hline]
  unfold fenceWords
  rw [hread]

theorem fenceWords_postEvent (hstill : ∀ kv ∈ s.imagos, kv.2.evac = []) (win : Nat) (rcd : List Byte) (g : Nat) :
    fenceWords (postEvent s win rcd) g = fenceWords s g :=
  have hframe := postEvent_frame s win rcd
  fenceWords_congr hstill (hframe.imagos (by decide)) (hframe.bufs (by decide)) (hframe.hbm (by decide)) (hframe.host (by decide)) g

theorem fenceWords_fenceMsg (hstill : ∀ kv ∈ s.imagos, kv.2.evac = []) (chip inst tag instar code g : Nat) :
    fenceWords (fenceMsg s chip inst tag instar code) g = fenceWords s g :=
  have hframe := fenceMsg_frame s chip inst tag instar code
  fenceWords_congr hstill (hframe.imagos (by decide)) (hframe.bufs (by decide)) (hframe.hbm (by decide)) (hframe.host (by decide)) g

theorem fenceNext_lt {act : FenceAct} {x : Nat × Nat} (h : fenceNext v st act = some x) (hv : v < 2 ^ 64) (hst : st < 2 ^ 64) :
    x.1 < 2 ^ 64 ∧ x.2 < 2 ^ 64 := by
  cases act with
  | signal w =>
    rw [fenceNext] at h
    split at h
    · cases h
    · cases h
      exact ⟨max_lt hv (Nat.mod_lt _ (by decide)), hst⟩
  | error c =>
    rw [fenceNext] at h
    split at h
    · cases h
    · next hbit =>
      cases h
      refine ⟨hv, ?_⟩
      unfold bitAt at hbit
      unfold setBits bitsOf
      simp only [decide_eq_true_eq] at hbit
      omega
  | reset w =>
    cases h
    refine ⟨Nat.mod_lt _ (by decide), ?_⟩
    rw [fenceNext_reset]
    omega

/-- An update for which nobody waits leaves the words that R371 gives. -/
theorem fenceWords_fenceUpdate (h : FencePlace s a) (c win space va : Nat) (act : FenceAct)
    (hno : ∀ w ∈ s.fenceWaiters, w.gpa ≠ c * 2 ^ 48 + a) :
    fenceWords (fenceUpdate s win space va (c * 2 ^ 48 + a) act) (c * 2 ^ 48 + a) =
      (fenceNext (fenceWords s (c * 2 ^ 48 + a)).1 (fenceWords s (c * 2 ^ 48 + a)).2 act).getD (fenceWords s (c * 2 ^ 48 + a)) := by
  unfold fenceUpdate
  dsimp only
  cases hnext : fenceNext (fenceWords s (c * 2 ^ 48 + a)).1 (fenceWords s (c * 2 ^ 48 + a)).2 act with
  | none => rfl
  | some x =>
    obtain ⟨w, st⟩ := x
    obtain ⟨hw, hst⟩ := fenceNext_lt hnext (fenceWords_lt ..).1 (fenceWords_lt ..).2
    have hlen : (leBytes 8 w ++ leBytes 8 st).length = 16 := by rw [List.length_append, leBytes_length, leBytes_length]
    obtain ⟨hwrite, hplace⟩ := fenceWords_fenceWrite h c space hlen
    have hkept := (fenceWrite_frame s space (c * 2 ^ 48 + a) (leBytes 8 w ++ leBytes 8 st)).fenceWaiters (by decide)
    rw [fencePair_leBytes w st hw hst] at hwrite
    dsimp only
    rw [releaseFences_idle (by rw [hkept]; exact hno)]
    split
    · rw [fenceWords_postEvent hplace.still, hwrite]; rfl
    · rw [hwrite]; rfl

/-- An operation of a message, whose error code has sixteen bits. -/
def FenceAct.stored : FenceAct → FenceAct
  | .signal v => .signal v
  | .error c => .error (c % 2 ^ 16)
  | .reset v => .reset v

theorem fenceIs_of_next {act : FenceAct}
    (h : fenceWords t g = (fenceNext (fenceWords s g).1 (fenceWords s g).2 act.stored).getD (fenceWords s g)) : FenceIs s t g act := by
  cases act with
  | signal v =>
    refine h.trans ?_
    rw [FenceAct.stored, fenceNext]
    split <;> rfl
  | error c =>
    refine h.trans ?_
    rw [FenceAct.stored, fenceNext]
    split
    · rfl
    · next hbit => rw [fenceNext_error (by simpa using hbit)]; rfl
  | reset v =>
    refine h.trans ?_
    rw [FenceAct.stored, fenceNext, fenceNext_reset]
    rfl

/-! ### FENCE_OP (R372) -/

theorem PeerFence.place (h : PeerFence s p m) : FencePlace s m.addr := by
  obtain ⟨halign, ⟨l, hl⟩, -, ⟨-, hthere, hback, hmem⟩, -, -⟩ := h
  have hlow := admitPeer_ok hl
  have hlocal := gpaLocal_here (chipId s) hlow
  rw [hlocal] at hmem
  obtain ⟨hline, hstill⟩ := hmem.resolve_left (not_hostWindow_le hlow)
  have hhome : homeRouter s (chipId s * 2 ^ 48 + m.addr) = sliceRouter (sliceOf m.addr) := by
    rw [homeRouter_low (by rw [hlocal]; exact not_hostWindow_le hlow), hlocal, forwarded_still hstill]
  exact ⟨hlow, halign, hstill, hhome ▸ hthere, hhome ▸ hback, hline⟩

/-- The operation that a FENCE_OP message asks for. -/
def fenceActOf (op v : Nat) : FenceAct := if op = 0 then .signal v else if op = 1 then .error v else .reset v

theorem fenceOp_misaligned (h : Comes s k msgFenceOp p m) (ha : m.addr % 16 ≠ 0) :
    exec (.fenceOp k) s = .next (refusePeer (taken s k) m linkRefused) := by
  change execFenceOp k s = _
  unfold execFenceOp
  rw [h]
  exact congrArg _ (if_pos ha)

theorem fenceOp_unlent (h : Comes s k msgFenceOp p m) (ha : m.addr % 16 = 0) (hadmit : admitPeer s p m 16 = .error code) :
    exec (.fenceOp k) s = .next (refusePeer (taken s k) m code) := by
  change execFenceOp k s = _
  unfold execFenceOp
  rw [h]
  refine congrArg _ ((if_neg (not_not_intro ha)).trans ?_)
  rw [hadmit]
  rfl

/-- A refused fence operation is answered ERR, and nobody waits for it. -/
theorem refuseFence (hr : Reach s m.src) (k code : Nat) :
    Sends (refusePeer (taken s k) m code) msgErr code m.src ∧ (refusePeer (taken s k) m code).fenceWaiters = s.fenceWaiters :=
  ⟨(refusePeer_taken hr k code).1, (refusePeer_frame ..).fenceWaiters (by decide)⟩

theorem fenceOp_update (h : Comes s k msgFenceOp p m) (hf : PeerFence s p m) (hop : m.aux % 4 ≠ 3) :
    exec (.fenceOp k) s = .next (fenceMsg (fenceUpdate (taken s k) 0 0 m.addr (chipId s * 2 ^ 48 + m.addr)
      (fenceActOf (m.aux % 4) (leNat (m.data.take 8))).stored) m.src m.inst m.tag (bitsOf m.aux 8 8) 0) := by
  obtain ⟨halign, ⟨l, hl⟩, hsecure, -, hroom, -⟩ := hf
  change execFenceOp k s = _
  unfold execFenceOp
  rw [h]
  refine congrArg _ ((if_neg (not_not_intro halign)).trans ?_)
  rw [hl]
  refine (if_neg (by rw [hsecure]; decide)).trans ((if_neg hop).trans ((if_neg (by rw [hroom]; decide)).trans ?_))
  unfold fenceActOf
  split
  · rfl
  · split <;> rfl

theorem fenceOp_updates (h : Comes s k msgFenceOp p m) (hf : PeerFence s p m) (hop : m.aux % 4 ≠ 3) :
    Gives (.fenceOp k) s (fun s' => FenceIs s s' (chipId s * 2 ^ 48 + m.addr) (fenceActOf (m.aux % 4) (leNat (m.data.take 8)))) := by
  refine ⟨_, fenceOp_update h hf hop, fenceIs_of_next ?_⟩
  have hplace : FencePlace (taken s k) m.addr := hf.place.of_same (.of_eq rfl rfl rfl (.refl s))
  obtain ⟨-, -, -, -, -, hno⟩ := hf
  have hwords : fenceWords (taken s k) (chipId s * 2 ^ 48 + m.addr) = fenceWords s (chipId s * 2 ^ 48 + m.addr) :=
    fenceWords_congr hplace.still rfl rfl rfl rfl _
  have hstill : ∀ kv ∈ (fenceUpdate (taken s k) 0 0 m.addr (chipId s * 2 ^ 48 + m.addr)
      (fenceActOf (m.aux % 4) (leNat (m.data.take 8))).stored).imagos, kv.2.evac = [] := by
    rw [(fenceUpdate_frame ..).imagos (by decide)]
    exact hplace.still
  rw [fenceWords_fenceMsg hstill, fenceWords_fenceUpdate hplace _ _ _ _ _ hno, hwords]

theorem fenceOp_wait (h : Comes s k msgFenceOp p m) (hf : PeerFence s p m) (hop : m.aux % 4 = 3) :
    exec (.fenceOp k) s = .next (match fenceWaitEnd (fenceWords s (chipId s * 2 ^ 48 + m.addr)).1
        (fenceWords s (chipId s * 2 ^ 48 + m.addr)).2 (leNat (m.data.take 8)) with
      | some code => fenceMsg (taken s k) m.src m.inst m.tag (bitsOf m.aux 8 8) code
      | none => { taken s k with fenceWaiters := s.fenceWaiters ++
          [⟨chipId s * 2 ^ 48 + m.addr, BitVec.ofNat 64 (leNat (m.data.take 8)), .peer m.src m.inst m.tag (bitsOf m.aux 8 8)⟩] }) := by
  obtain ⟨halign, ⟨l, hl⟩, hsecure, -, hroom, -⟩ := hf
  change execFenceOp k s = _
  unfold execFenceOp
  rw [h]
  refine congrArg _ ((if_neg (not_not_intro halign)).trans ?_)
  rw [hl]
  refine (if_neg (by rw [hsecure]; decide)).trans ((if_pos hop).trans ?_)
  dsimp only
  cases fenceWaitEnd (fenceWords s (chipId s * 2 ^ 48 + m.addr)).1 (fenceWords s (chipId s * 2 ^ 48 + m.addr)).2
      (leNat (m.data.take 8)) with
  | some code => rfl
  | none => exact if_neg (by rw [hroom]; decide)

theorem fenceOp_satisfied (h : Comes s k msgFenceOp p m) (hf : PeerFence s p m) (hop : m.aux % 4 = 3)
    (hv : leNat (m.data.take 8) ≤ (fenceWords s (chipId s * 2 ^ 48 + m.addr)).1) (hr : Reach s m.src) :
    Gives (.fenceOp k) s (fun s' => Sends s' msgFenceRelease (65536 * bitsOf m.aux 8 8) m.src) := by
  refine ⟨_, fenceOp_wait h hf hop, ?_⟩
  rw [fenceWaitEnd, if_pos hv]
  have hsent := sent_sendOrDrop (s := taken s k)
    (m := { LinkMsg.blank (taken s k) msgFenceRelease m.src with inst := m.inst, tag := m.tag, aux := 0 + 65536 * bitsOf m.aux 8 8 })
    (hr.of_same (sameWays_taken s k)) (byTable_of_type (show 0x04 ≤ msgFenceRelease by decide) (show msgFenceRelease ≠ msgCollPut by decide))
  rw [← Nat.zero_add (65536 * bitsOf m.aux 8 8)]
  exact hsent.sends

theorem fenceOp_held (h : Comes s k msgFenceOp p m) (hf : PeerFence s p m) (hop : m.aux % 4 = 3)
    (hv : (fenceWords s (chipId s * 2 ^ 48 + m.addr)).1 < leNat (m.data.take 8))
    (hst : bitAt (fenceWords s (chipId s * 2 ^ 48 + m.addr)).2 16 = false) :
    Gives (.fenceOp k) s (fun s' => s'.fenceWaiters = s.fenceWaiters ++
      [⟨chipId s * 2 ^ 48 + m.addr, BitVec.ofNat 64 (leNat (m.data.take 8)), .peer m.src m.inst m.tag (bitsOf m.aux 8 8)⟩]) := by
  refine ⟨_, fenceOp_wait h hf hop, ?_⟩
  rw [fenceWaitEnd, if_neg (Nat.not_le.2 hv), hst]
  rfl

end


/-! ## Answers to this chip's Silk and fence operations (R353, R356, R372) -/

section
variable {s t : State} {k p type aux dest : Nat} {m : LinkMsg} {o : ThreadOp}

theorem Sent.getF (h : Sent s t type aux dest) {f : RF} {j : Nat} (hk : ¬ (0x901000 ≤ regKey f.reg j 0 ∧ regKey f.reg j 0 < 0x902000)) :
    getF t f j = getF s f j := by
  unfold Machine.getF getR
  rw [h.regs _ hk]

theorem Sent.asleep (h : Sent s t type aux dest) {c : Nat} (hc : c < 144) : asleep t c = asleep s c := by
  have hkey : regKey f_THM_CORE_AGE_DSTATE.reg c 0 = 0xC00600 + c * 4 := regKey_zero ..
  have hage : Machine.getF t f_THM_CORE_AGE_DSTATE c = Machine.getF s f_THM_CORE_AGE_DSTATE c := h.getF (by rw [hkey]; omega)
  have hstop : Machine.getF t f_PWR_STATUS_COOLANT_STOP 0 = Machine.getF s f_PWR_STATUS_COOLANT_STOP 0 := h.getF (by decide)
  unfold Machine.asleep flagF
  rw [hage, hstop]

/-- An operation of this chip that waits at the source of a message. -/
structure OpAt (s : State) (m : LinkMsg) (o : ThreadOp) : Prop where
  found : mfind s.ops m.tag = some o
  home : o.sub = m.src + 1

theorem OpAt.kept (h : OpAt s m o) : (mfind s.ops m.tag).filter (fun o => o.sub = m.src + 1) = some o := by
  rw [h.found]
  exact Option.filter_eq_some_iff.2 ⟨rfl, decide_eq_true h.home⟩

theorem silkRelease_read (h : Comes s k msgSilkRelease p m) (ho : OpAt s m o) (hread : o.kind = .silkRead) :
    Gives (.silkRelease k false) s (fun s' => mfind s'.silkReplies m.tag =
      some ⟨o.core, o.grp, m.tag, BitVec.ofNat 64 m.addr, instarOf s (.core o.core), s.now⟩) := by
  have hkept : (mfind (taken s k).ops m.tag).filter (fun o => o.sub = m.src + 1) = some o := ho.kept
  refine ⟨{ taken s k with
    silkReplies := mput s.silkReplies m.tag ⟨o.core, o.grp, m.tag, BitVec.ofNat 64 m.addr, instarOf s (.core o.core), s.now⟩ },
    (onMsg_comes h _).trans ?_, (mfind_mput ..).trans (if_pos rfl)⟩
  rw [hkept]
  exact congrArg _ (if_pos hread)

theorem silkRelease_exec (h : Comes s k msgSilkRelease p m) (ho : OpAt s m o) (hread : o.kind ≠ .silkRead) :
    exec (.silkRelease k false) s = .next (silkRelease (sendOrDrop (taken s k) (answerTo (taken s k) m msgSilkAck 0 0 [] 0))
      ⟨false, 0, 0, .group o.core o.grp m.tag,
        instarOf (sendOrDrop (taken s k) (answerTo (taken s k) m msgSilkAck 0 0 [] 0)) (.core o.core), m.epoch⟩ m.addr) := by
  have hkept : (mfind (taken s k).ops m.tag).filter (fun o => o.sub = m.src + 1) = some o := ho.kept
  refine (onMsg_comes h _).trans ?_
  rw [hkept]
  exact congrArg _ (if_neg hread)

/-- A released wait of a group that runs, on a core of this chip that is not asleep. -/
theorem silkRelease_wakes {c g op v : Nat} {gr : Group} {w : SilkWaiter} (hsrc : w.src = .group c g op) (hc : c < 144)
    (hcur : w.instar = instarOf t (.core c)) (hup : asleep t c = false) (hg : groupOf t c g = some gr) (hw : gr.wait = .silk op) :
    silkRelease t w v = setGroup { t with ops := mdel t.ops op } c g { gr with wait := .ready } := by
  have hcore : c ≠ noCore := by unfold noCore; omega
  unfold silkRelease
  rw [hsrc]
  refine (if_neg hcore).trans ((if_neg (not_not_intro hcur)).trans ((if_neg (by rw [hup]; decide)).trans ?_))
  unfold silkWake
  rw [hg]
  exact if_pos hw

theorem silkRelease_woken {gr : Group} (h : Comes s k msgSilkRelease p m) (ho : OpAt s m o) (hread : o.kind ≠ .silkRead)
    (hc : o.core < 144) (hup : asleep s o.core = false) (hg : groupOf s o.core o.grp = some gr) (hw : gr.wait = .silk m.tag)
    (hr : Reach s m.src) : Gives (.silkRelease k false) s (fun s' => mfind s'.ops m.tag = none
      ∧ (groupOf s' o.core o.grp).map Group.wait = some .ready ∧ Sends s' msgSilkAck 0 m.src) := by
  have hsent : Sent (taken s k) (sendOrDrop (taken s k) (answerTo (taken s k) m msgSilkAck 0 0 [] 0)) msgSilkAck 0 m.src :=
    sent_answerTo (hr.of_same (sameWays_taken s k)) (by decide) (by decide) 0 0 [] 0
  have hframe := sendOrDrop_frame (taken s k) (answerTo (taken s k) m msgSilkAck 0 0 [] 0)
  have hgroup : groupOf (sendOrDrop (taken s k) (answerTo (taken s k) m msgSilkAck 0 0 [] 0)) o.core o.grp = some gr := by
    unfold groupOf batchOf core
    rw [hframe.cores (by decide)]
    exact hg
  have hgroup' : groupOf { sendOrDrop (taken s k) (answerTo (taken s k) m msgSilkAck 0 0 [] 0) with
    ops := mdel (sendOrDrop (taken s k) (answerTo (taken s k) m msgSilkAck 0 0 [] 0)).ops m.tag } o.core o.grp = some gr := hgroup
  refine ⟨_, (silkRelease_exec h ho hread).trans (congrArg _ (silkRelease_wakes rfl hc rfl ?_ hgroup hw)), ?_, ?_, ?_⟩
  · rw [hsent.asleep hc]
    exact hup
  · rw [(setGroup_frame ..).ops (by decide)]
    exact mfind_mdel_same ..
  · rw [groupOf_setGroup hgroup', if_pos rfl]
    rfl
  · obtain ⟨q, x, hx, hkind⟩ := hsent.sends
    refine ⟨q, x, ?_, hkind⟩
    unfold port
    rw [(setGroup_frame ..).ports (by decide)]
    exact hx

theorem silkRelease_unknown (h : Comes s k msgSilkRelease p m) (ho : mfind s.ops m.tag = none) (hr : Reach s m.src) :
    Gives (.silkRelease k false) s (fun s' => Sends s' msgErr linkStale m.src) := by
  have hnone : mfind (taken s k).ops m.tag = none := ho
  refine ⟨answerErr (countR (countR (taken s k) r_CMP_STALE 0 1) r_CMP_STALE_KIND 0 1) m linkStale, (onMsg_comes h _).trans ?_, ?_⟩
  · rw [hnone]
    rfl
  · exact (sent_answerErr (hr.of_same (((sameWays_taken s k).countR (by decide) 1).countR (by decide) 1)) linkStale).sends

theorem silkAck_add (h : Comes s k msgSilkAck p m) (ho : OpAt s m o) (hadd : o.kind = .silkAdd) :
    Gives (.silkAck k) s (fun s' => mfind s'.ops m.tag = none) := by
  have hfound : mfind (taken s k).ops m.tag = some o := ho.found
  refine ⟨{ taken s k with ops := mdel s.ops m.tag }, (onMsg_comes h _).trans ?_, mfind_mdel_same ..⟩
  rw [hfound]
  exact congrArg _ (if_pos (by simp [hadd, ho.home]))

theorem silkAck_unknown (h : Comes s k msgSilkAck p m) (ho : mfind s.ops m.tag = none) :
    Gives (.silkAck k) s (fun s' => ∀ w ∈ s'.silkSent, w ∈ s.silkSent ∧ releasedTo m.src m.tag w = false) := by
  have hnone : mfind (taken s k).ops m.tag = none := ho
  refine ⟨{ taken s k with silkSent := s.silkSent.filter (fun w => !releasedTo m.src m.tag w) }, (onMsg_comes h _).trans ?_, fun w hw => ?_⟩
  · rw [hnone]
    rfl
  · obtain ⟨hmem, hkeep⟩ := List.mem_filter.1 hw
    exact ⟨hmem, by simpa using hkeep⟩

theorem fenceRelease_ends {f : FenceOut} {c : Cmd} (h : Comes s k msgFenceRelease p m) (hf : mfind s.fenceOuts m.tag = some f)
    (hdest : f.dest = m.src) (hcur : f.wait = false ∨ bitsOf m.aux 16 8 = instarOf s (.queue f.queue)) (hc : cmdOf s f.cmd = some c)
    (hfin : c.fin = none) : Gives (.fenceRelease k) s (fun s' =>
      finOf s' f.cmd = some (some (m.aux % 2 ^ 16)) ∧ mfind s'.fenceOuts m.tag = none) := by
  have hfound : mfind (taken s k).fenceOuts m.tag = some f := hf
  have hcur' : (f.wait && decide (bitsOf m.aux 16 8 ≠ instarOf s (.queue f.queue))) = false := by
    rcases hcur with h | h
    · rw [h, Bool.false_and]
    · rw [decide_eq_false (not_not_intro h), Bool.and_false]
  refine ⟨endCmd { taken s k with fenceOuts := mdel s.fenceOuts m.tag } f.cmd (m.aux % 2 ^ 16), (onMsg_comes h _).trans ?_,
    finOf_endCmd_out (t := { taken s k with fenceOuts := mdel s.fenceOuts m.tag }) hc hfin rfl _, ?_⟩
  · rw [hfound]
    exact congrArg _ ((if_neg (not_not_intro hdest)).trans (if_neg (Bool.eq_false_iff.1 hcur')))
  · rw [(endCmd_frame ..).fenceOuts (by decide)]
    exact mfind_mdel_same ..

end


/-! ## Leases (R354) -/

section
variable {s t : State} {k p j op : Nat} {m : LinkMsg}

/-- The lease that a LEASE message names. -/
def leaseOf (m : LinkMsg) : Lease := ⟨m.addr % 2 ^ 32, m.src, bitsOf m.addr 32 8, bitsOf m.addr 40 1, m.inst⟩

theorem leaseNamed_lt {l : List Nat} (hl : ∀ x ∈ l, x < 64) (h : leaseNamed s m l = some j) : j < 64 :=
  hl j (List.mem_of_find?_eq_some h)

theorem lentLeases_lt (s : State) : ∀ x ∈ lentLeases s, x < 64 := fun _ hx => List.mem_range.1 (List.mem_filter.1 hx).1

theorem sent_sendLease (hr : Reach s m.src) (op : Nat) : Sent s (sendLease s (leaseOf m) op m.epoch) msgLease op m.src :=
  sent_sendOrDrop (m := leaseMsg s (leaseOf m) op m.epoch) hr
    (byTable_of_type (show 0x04 ≤ msgLease by decide) (show msgLease ≠ msgCollPut by decide))

theorem leaseKey (j : Nat) : regKey f_CMP_LEASE_TAKEN.reg j 0 = 0x201900 + j * 8 := regKey_zero ..

/-- A lease is granted to its borrower, whose instar is kept. -/
def leaseGranted (s : State) (m : LinkMsg) (j : Nat) : State :=
  setF { s with leaseTerms := mput s.leaseTerms j { mget LeaseTerms.empty s.leaseTerms j with instar := m.instar } } f_CMP_LEASE_TAKEN j 1

theorem lease_ask_exec (h : Comes s k msgLease p m) (hop : m.aux = leaseAsk) : exec (.lease k) s = .next (
    match leaseNamed s m (lentLeases s) with
    | some j =>
      if (leaseAt s j).inst = m.inst && !flagF s f_CMP_LEASE_TAKEN j then
        sendLease (leaseGranted (taken s k) m j) (leaseOf m) leaseGrant m.epoch
      else sendLease (taken s k) (leaseOf m) leaseRefuse m.epoch
    | none => sendLease (taken s k) (leaseOf m) leaseRefuse m.epoch) :=
  (onMsg_comes h _).trans (congrArg _ (if_pos hop))

theorem lease_granted (h : Comes s k msgLease p m) (hj : leaseNamed s m (lentLeases s) = some j) (hinst : (leaseAt s j).inst = m.inst)
    (hop : m.aux = leaseAsk) (htaken : flagF s f_CMP_LEASE_TAKEN j = false) (hr : Reach s m.src) :
    Gives (.lease k) s (fun s' => flagF s' f_CMP_LEASE_TAKEN j = true ∧ Sends s' msgLease leaseGrant m.src
      ∧ (mget LeaseTerms.empty s'.leaseTerms j).instar = m.instar) := by
  have hkey := leaseKey j
  have hlt := leaseNamed_lt (lentLeases_lt s) hj
  have hway : ¬ wayKey (regKey f_CMP_LEASE_TAKEN.reg j 0) := by rw [hkey]; omega
  have hkept : SameWays (taken s k) { taken s k with
    leaseTerms := mput s.leaseTerms j { mget LeaseTerms.empty s.leaseTerms j with instar := m.instar } } := .of_eq rfl rfl rfl
  have hways : SameWays s (leaseGranted (taken s k) m j) := (sameWays_taken s k).trans (hkept.setF hway 1)
  have hsent := sent_sendLease (hr.of_same hways) leaseGrant
  refine ⟨sendLease (leaseGranted (taken s k) m j) (leaseOf m) leaseGrant m.epoch, (lease_ask_exec h hop).trans ?_, ?_, hsent.sends, ?_⟩
  · rw [hj]
    exact congrArg _ (if_pos (by simp [hinst, htaken]))
  · have hflag : flagF (leaseGranted (taken s k) m j) f_CMP_LEASE_TAKEN j = true := flagF_setF_one _ _ rfl (by decide)
    unfold flagF at hflag ⊢
    rw [hsent.getF (by omega)]
    exact hflag
  · rw [(sendLease_frame ..).leaseTerms (by decide)]
    exact congrArg LeaseTerms.instar ((mget_mput ..).trans (if_pos rfl))

theorem lease_refused (h : Comes s k msgLease p m) (hj : leaseNamed s m (lentLeases s) = some j) (hop : m.aux = leaseAsk)
    (htaken : flagF s f_CMP_LEASE_TAKEN j = true) (hr : Reach s m.src) :
    Gives (.lease k) s (fun s' => Sends s' msgLease leaseRefuse m.src ∧ s'.leaseTerms = s.leaseTerms) := by
  refine ⟨sendLease (taken s k) (leaseOf m) leaseRefuse m.epoch, (lease_ask_exec h hop).trans ?_,
    (sent_sendLease (hr.of_same (sameWays_taken s k)) leaseRefuse).sends, (sendLease_frame ..).leaseTerms (by decide)⟩
  rw [hj]
  exact congrArg _ (if_neg (by simp [htaken]))

theorem lease_unknown (h : Comes s k msgLease p m) (hj : leaseNamed s m (lentLeases s) = none) (hop : m.aux = leaseAsk)
    (hr : Reach s m.src) : Gives (.lease k) s (fun s' => Sends s' msgLease leaseRefuse m.src) := by
  refine ⟨sendLease (taken s k) (leaseOf m) leaseRefuse m.epoch, (lease_ask_exec h hop).trans ?_,
    (sent_sendLease (hr.of_same (sameWays_taken s k)) leaseRefuse).sends⟩
  rw [hj]

/-- RELEASE ends that a lease is held, and RETURN the lease; either by its borrower, while it is held. -/
theorem lease_back_exec (h : Comes s k msgLease p m) (hj : leaseNamed s m (lentLeases s) = some j)
    (hop : m.aux = leaseRelease ∨ m.aux = leaseReturn) : exec (.lease k) s = .next (
      if !flagF s f_CMP_LEASE_TAKEN j || (leaseAt s j).inst ≠ m.inst then taken s k
      else if m.aux = leaseRelease then setF (taken s k) f_CMP_LEASE_TAKEN j 0
      else refreshLoads (endLent (taken s k) j)) := by
  have hj' : leaseNamed (taken s k) m (lentLeases (taken s k)) = some j := hj
  have hask : m.aux ≠ leaseAsk := by rcases hop with h | h <;> rw [h] <;> decide
  have hgrant : m.aux ≠ leaseGrant := by rcases hop with h | h <;> rw [h] <;> decide
  have hrefuse : m.aux ≠ leaseRefuse := by rcases hop with h | h <;> rw [h] <;> decide
  refine (onMsg_comes h _).trans (congrArg _ ((if_neg hask).trans ((if_neg hgrant).trans ((if_neg hrefuse).trans
    ((if_pos (by simpa using hop)).trans ?_)))))
  rw [hj']
  rfl

theorem lease_released (h : Comes s k msgLease p m) (hj : leaseNamed s m (lentLeases s) = some j) (hinst : (leaseAt s j).inst = m.inst)
    (hop : m.aux = leaseRelease) (htaken : flagF s f_CMP_LEASE_TAKEN j = true) :
    Gives (.lease k) s (fun s' => flagF s' f_CMP_LEASE_TAKEN j = false) := by
  refine ⟨setF (taken s k) f_CMP_LEASE_TAKEN j 0, (lease_back_exec h hj (.inl hop)).trans (congrArg _ ?_),
    flagF_setF_zero _ _ (by decide)⟩
  exact (if_neg (by simp [htaken, hinst])).trans (if_pos hop)

theorem lease_return_untaken (h : Comes s k msgLease p m) (hj : leaseNamed s m (lentLeases s) = some j) (hop : m.aux = leaseReturn)
    (htaken : flagF s f_CMP_LEASE_TAKEN j = false) : Gives (.lease k) s (fun s' => s'.regs = s.regs) :=
  ⟨taken s k, (lease_back_exec h hj (.inr hop)).trans (congrArg _ (if_pos (by simp [htaken]))), rfl⟩

theorem loseLease_posts (hlost : (mget LeaseTerms.empty s.leaseTerms j).lost = false) (hroom : evRoom s 0 = true) :
    (mget LeaseTerms.empty (loseLease s j).leaseTerms j).lost = true ∧ Posts s (loseLease s j) 0
      [eventRecord 0x22 0 (leaseAt s j).inst (leaseAt s j).num ((leaseAt s j).chip + (leaseAt s j).unit * 2 ^ 16) 0 s.now] := by
  have hshort : (mget [] s.evHeld 0).length < 1024 := of_decide_eq_true hroom
  rw [show loseLease s j = _ from if_neg (by rw [hlost]; decide), postEvent_room (by exact hshort)]
  exact ⟨congrArg LeaseTerms.lost ((mget_mput ..).trans (if_pos rfl)), (mget_mput ..).trans (if_pos rfl)⟩

theorem lease_lost (h : Comes s k msgLease p m) (hj : leaseNamed s m (borrowedLeases s) = some j) (hop : m.aux = leaseLost)
    (hlost : (mget LeaseTerms.empty s.leaseTerms j).lost = false) (hroom : evRoom s 0 = true) :
    Gives (.lease k) s (fun s' => (mget LeaseTerms.empty s'.leaseTerms j).lost = true ∧ Posts s s' 0
      [eventRecord 0x22 0 (leaseAt s j).inst (leaseAt s j).num ((leaseAt s j).chip + (leaseAt s j).unit * 2 ^ 16) 0 s.now]) := by
  have hj' : leaseNamed (taken s k) m (borrowedLeases (taken s k)) = some j := hj
  refine ⟨loseLease (taken s k) j, (onMsg_comes h _).trans ?_, loseLease_posts (s := taken s k) hlost hroom⟩
  rw [hop, hj']
  rfl

end


/-! ## O42 -/

section
variable {s : State} {k p p' e i n v q c code : Nat} {m : LinkMsg} {r : MemReq}

theorem transit_onward (h : Passes s k p m) (hport : choosePort s (routePorts s m.dest) = some p')
    (hhops : m.hops < 2 ∨ m.hops = 2 ∧ nearBy s p' m) :
    Gives (.messageTransit k) s (fun s' => m.onward ∈ heldMsgs (port s' p')) :=
  ⟨_, messageTransit_goes h hport hhops, (holdsOn_sendOn ..).2⟩

theorem transit_stopped (h : Passes s k p m)
    (hstop : choosePort s (routePorts s m.dest) = none ∧ code = linkNoRoute ∨ (∃ p', choosePort s (routePorts s m.dest) = some p'
      ∧ (3 ≤ m.hops ∨ m.hops = 2 ∧ ¬ nearBy s p' m)) ∧ code = linkHopLimit)
    (hwants : wantsAnswer m = true) (hsrc : m.src ≠ chipId s) (hr : Reach s m.src) :
    Gives (.messageTransit k) s (fun s' => Sends s' msgErr code m.src
      ∧ getR s' r_LNK_DISCARDS = (getR s r_LNK_DISCARDS + 1) % 2 ^ 64) :=
  ⟨_, messageTransit_stops h hstop, refuseMsg_onward (hr.of_same (sameWays_taken s k)) hwants hsrc code⟩

theorem linkRead_refused (h : Comes s k msgRead p m) (hadmit : admitPeer s p m (m.aux % 2 ^ 16) = .error code) (hr : Reach s m.src) :
    Gives (.linkRead k) s (fun s' => Sends s' msgErr code m.src ∧ s'.reqs = s.reqs) := by
  have hadmit' : admitPeer (taken s k) p m (m.aux % 2 ^ 16) = .error code := hadmit
  exact ⟨_, (linkRead_exec h).trans (congrArg _ (forPeer_error hadmit')), refusePeer_taken hr k code⟩

theorem linkWrite_refused (h : Comes s k msgWrite p m) (hadmit : admitPeer s p m m.data.length = .error code) (hr : Reach s m.src) :
    Gives (.linkWrite k) s (fun s' => Sends s' msgErr code m.src ∧ s'.reqs = s.reqs) := by
  have hadmit' : admitPeer (taken s k) p m m.data.length = .error code := hadmit
  exact ⟨_, (linkWrite_exec h).trans (congrArg _ (forPeer_error hadmit')), refusePeer_taken hr k code⟩

theorem linkRead_asks {l : Nat} (h : Comes s k msgRead p m) (hadmit : admitPeer s p m (m.aux % 2 ^ 16) = .ok l)
    (hsec : (linePieces m.addr (m.aux % 2 ^ 16)).any (fun x => secureAddr s x.1) = false) (hpos : 0 < m.aux % 2 ^ 16)
    (hfit : m.addr % 256 + m.aux % 2 ^ 16 ≤ 256) : Gives (.linkRead k) s (fun s' => Asked s s' p m m .read (m.aux % 2 ^ 16)) := by
  have hadmit' : admitPeer (taken s k) p m (m.aux % 2 ^ 16) = .ok l := hadmit
  refine ⟨peerParts (taken s k) p m [(m.addr, m.aux % 2 ^ 16)] .read [],
    (linkRead_exec h).trans (congrArg _ ((forPeer_ok hadmit' hsec).trans ((if_neg hpos.ne').trans ?_))), ?_⟩
  · rw [linePieces_one hpos hfit]
  · exact asked_peerParts (taken s k) p m _ .read [] (admitPeer_ok hadmit)

theorem linkWrite_asks {l : Nat} (h : Comes s k msgWrite p m) (hadmit : admitPeer s p m m.data.length = .ok l)
    (hsec : (linePieces m.addr m.data.length).any (fun x => secureAddr s x.1) = false) (hdata : m.data ≠ [])
    (hfit : m.addr % 256 + m.data.length ≤ 256) : Gives (.linkWrite k) s (fun s' => Asked s s' p m m .write m.data.length) := by
  have hadmit' : admitPeer (taken s k) p m m.data.length = .ok l := hadmit
  have hpos : 0 < m.data.length := List.length_pos_iff.2 hdata
  refine ⟨peerParts (taken s k) p m [(m.addr, m.data.length)] .write [],
    (linkWrite_exec h).trans (congrArg _ ((forPeer_ok hadmit' hsec).trans ((if_neg hpos.ne').trans ?_))), ?_⟩
  · rw [linePieces_one hpos hfit]
  · exact asked_peerParts (taken s k) p m _ .write [] (admitPeer_ok hadmit)

theorem linkAtomic_asks {l size : Nat} (h : Comes s k msgAtomic p m) (hsize : size = if bitAt m.aux 4 then 8 else 4)
    (hred : bitsOf m.aux 6 2 = 0) (hop : m.aux % 16 ≤ 4) (halign : m.addr % size = 0) (hdata : size ≤ m.data.length)
    (hadmit : admitPeer s p m size = .ok l) (hsec : (linePieces m.addr size).any (fun x => secureAddr s x.1) = false) :
    Gives (.linkAtomic k) s (fun s' => Asked s s' p m { m with data := m.data.take size }
      (.atomic (m.aux % 16) size (bitAt m.aux 5) true) size) := by
  subst hsize
  have hadmit' : admitPeer (taken s k) p m (if bitAt m.aux 4 then 8 else 4) = .ok l := hadmit
  refine ⟨_, (linkAtomic_exec h hred).trans (congrArg _ ((if_neg ?_).trans (forPeer_ok hadmit' hsec))), ?_⟩
  · simp only [Bool.or_eq_true, decide_eq_true_eq, not_or]
    omega
  · exact asked_peerParts (taken s k) p { m with data := m.data.take (if bitAt m.aux 4 then 8 else 4) } _ _ _ (admitPeer_ok hadmit)

theorem linkAtomic_refused (h : Comes s k msgAtomic p m) (hred : bitsOf m.aux 6 2 = 0) (hop : 4 < m.aux % 16) (hr : Reach s m.src) :
    Gives (.linkAtomic k) s (fun s' => Sends s' msgErr linkRefused m.src ∧ s'.reqs = s.reqs) :=
  ⟨_, (linkAtomic_exec h hred).trans (congrArg _ (if_pos (by simp [hop]))), refusePeer_taken hr k linkRefused⟩

theorem err_ends_fence {f : FenceOut} {c : Cmd} (h : Comes s k msgErr p m) (hr : answeredReq s m = none) (hop : mfind s.ops m.tag = none)
    (hf : mfind s.fenceOuts m.tag = some f) (hc : cmdOf s f.cmd = some c) (hfin : c.fin = none) :
    Gives (.err k) s (fun s' => finOf s' f.cmd = some (some (errOfLink (m.aux % 256))) ∧ mfind s'.fenceOuts m.tag = none) := by
  refine ⟨_, err_fence h hr hop hf, finOf_endCmd_out hc hfin (t := { taken s k with fenceOuts := mdel s.fenceOuts m.tag }) rfl _, ?_⟩
  rw [(endCmd_frame ..).fenceOuts (by decide)]
  exact mfind_mdel_same ..

/-- A read that cannot be answered is done, all of it poisoned (R354). -/
theorem mfind_poisonedBack (s : State) (id : Nat) (r : MemReq) :
    (mfind (poisonedBack s id r).reqs id).map (fun r => (r.stage, r.poison, r.err)) = some (.done, 255, r.err) := by
  unfold poisonedBack setReq
  dsimp only
  rw [mfind_mput, if_pos rfl]
  rfl

theorem silk_refused (h : Comes s k (msgSilk + i) p m) (himp : importOf s m = none) (hr : Reach s m.src) :
    ∃ t, silkFromPeer k i false s = .next t ∧ Sends t msgErr linkRefused m.src ∧ t.silkWaiters = s.silkWaiters :=
  ⟨_, silkFromPeer_refused h himp, (refusePeer_taken hr k _).1, (refusePeer_frame ..).silkWaiters (by decide)⟩

theorem silk_stale (h : Comes s k (msgSilk + i) p m) (himp : importOf s m = some e)
    (hstale : m.instar ≠ instarOf s (.inst (getF s f_SILK_IMPORT_LOCAL_INST e))) (hr : Reach s m.src) :
    ∃ t, silkFromPeer k i false s = .next t ∧ Sends t msgErr linkStale m.src ∧ t.silkWaiters = s.silkWaiters
      ∧ ∀ n, getR t r_SILK_CTR n = getR s r_SILK_CTR n :=
  ⟨_, silkFromPeer_stale h himp hstale, (refusePeer_taken hr k _).1, (refusePeer_frame ..).silkWaiters (by decide),
    getR_ctr_of_sameRange fun hi => (refusePeer_spec (s := taken s k) (hr.of_same (sameWays_taken s k)) linkStale).2 hi⟩

end

/-- Settles O42: each type of message, taken with what it answers, asks for or ends. -/
theorem linkMessages : Obligations.LinkMessages := by
  unfold Obligations.LinkMessages
  refine ⟨⟨?_, ?_, ?_, ?_⟩, ?_, ?_, ?_, ?_, ?_, ?_⟩
  · intro k p p' s m hpass
    refine ⟨fun hport hhops => transit_onward hpass hport hhops, fun hport hwants hsrc hr => ?_, fun hport hhops hwants hsrc hr => ?_⟩
    · exact transit_stopped hpass (.inl ⟨hport, rfl⟩) hwants hsrc hr
    · obtain ⟨t, ht, hsends, -⟩ := transit_stopped hpass (.inr ⟨⟨p', hport, hhops⟩, rfl⟩) hwants hsrc hr
      exact ⟨t, ht, hsends⟩
  · intro k p s m secure asked
    refine ⟨fun c hadmit h hr => linkRead_refused h hadmit hr, ?_, fun c hadmit h hr => linkWrite_refused h hadmit hr,
      fun l hadmit hsec hdata hfit h => linkWrite_asks h hadmit hsec hdata hfit,
      fun l hred hop halign hdata hadmit hsec h => linkAtomic_asks h rfl hred hop halign hdata hadmit hsec,
      fun hred hop h hr => linkAtomic_refused h hred hop hr⟩
    rintro l n rfl hadmit hsec hpos hfit h
    exact linkRead_asks h hadmit hsec hpos hfit
  · intro k p s m r
    refine ⟨fun hr ha hroute h => ⟨_, resp_exec h hr ha hroute, (mfind_mput ..).trans (if_pos rfl)⟩,
      fun q c hr ha ho h => ⟨_, linkAck_exec h hr ha, endWrite_none ..⟩,
      fun q c hr ho h => ⟨fun hover => ⟨_, err_request h hr ho hover, (mfind_mput ..).trans (if_pos rfl)⟩,
        fun hgone hcode ha => ⟨_, err_lost h hr hgone hcode ha, mfind_poisonedBack ..⟩⟩,
      fun hr => ⟨fun h => ⟨_, resp_late h hr, getR_countR ..⟩, fun h => ⟨_, linkAck_late h hr, getR_countR ..⟩,
        fun f c h hop hf hc hfin => err_ends_fence h hr hop hf hc hfin⟩⟩
  · exact fun k p s m h hno => linkAbort_spec h hno
  · intro k p e s m inst i n v
    refine ⟨fun himp hr => ⟨fun h => silk_refused h himp hr, fun h => ?_, fun h => ?_, fun h => ?_⟩,
      fun himp hstale hr => ⟨fun h => ?_, fun h => ?_, fun h => ?_, fun h => ?_⟩, ?_⟩
    · obtain ⟨t, ht, hsends, -⟩ := silk_refused h himp hr
      exact ⟨t, ht, hsends⟩
    · obtain ⟨t, ht, hsends, -⟩ := silk_refused h himp hr
      exact ⟨t, ht, hsends⟩
    · obtain ⟨t, ht, hsends, -⟩ := silk_refused h himp hr
      exact ⟨t, ht, hsends⟩
    · obtain ⟨t, ht, hsends, -, hctr⟩ := silk_stale (i := silkAdd) h himp hstale hr
      exact ⟨t, ht, hsends, hctr n⟩
    · obtain ⟨t, ht, hsends, -⟩ := silk_stale h himp hstale hr
      exact ⟨t, ht, hsends⟩
    · obtain ⟨t, ht, hsends, hwaiters, -⟩ := silk_stale h himp hstale hr
      exact ⟨t, ht, hsends, hwaiters⟩
    · obtain ⟨t, ht, hsends, hwaiters, hctr⟩ := silk_stale h himp hstale hr
      exact ⟨t, ht, hsends, hwaiters, hctr n⟩
    · intro himp hinstar hin hctr haddr hr hplain hidle
      have hcomes (op : Nat) (h : Comes s k (msgSilk + op) p m) : SilkComes s k p e op m :=
        ⟨h, himp, hinstar, hin, hctr, haddr, hr, hplain, hidle⟩
      exact ⟨fun h => silkAdd_performed (hcomes silkAdd h), fun h => silkRead_performed (hcomes silkRead h),
        fun h hv => silkWaitge_performed (hcomes silkWaitge h) hv, fun h hv hlt => silkTake_performed (hcomes silkTake h) hv hlt,
        fun hroom => ⟨fun h hv => silkWaitge_held (hcomes silkWaitge h) hv hroom,
          fun h hv => silkTake_held (hcomes silkTake h) hv hroom⟩⟩
  · intro k p s m o hfound hhome
    have ho : OpAt s m o := ⟨hfound, hhome⟩
    refine ⟨fun hread h => silkRelease_read h ho hread, fun g hwait hc hup hg hw hr h => ?_, fun hadd h => silkAck_add h ho hadd⟩
    refine silkRelease_woken h ho (fun hread => ?_) hc hup hg hw hr
    unfold isSilkWait at hwait
    rw [hread] at hwait
    exact absurd hwait (by decide)
  · exact fun k p s m hnone => ⟨fun h => silkAck_unknown h hnone, fun hr h => silkRelease_unknown h hnone hr⟩
  · intro k p s m h g v
    refine ⟨fun c halign hadmit hr => ⟨_, fenceOp_unlent h halign hadmit, refuseFence hr k c⟩,
      fun halign hr => ⟨_, fenceOp_misaligned h halign, refuseFence hr k linkRefused⟩,
      fun hf => ⟨fun hop => fenceOp_updates h hf hop, fun hop hv hr => fenceOp_satisfied h hf hop hv hr,
        fun hop hv hst => fenceOp_held h hf hop hv hst⟩⟩
  · exact fun k p s m f c h hf hdest hcur hc hfin => fenceRelease_ends h hf hdest hcur hc hfin
  · intro k p j s m h
    exact ⟨fun hj hinst => ⟨fun hop htaken hr => lease_granted h hj hinst hop htaken hr,
        fun hop htaken hr => lease_refused h hj hop htaken hr, fun hop htaken => lease_released h hj hinst hop htaken,
        fun hop htaken => lease_return_untaken h hj hop htaken⟩,
      fun hj hop hr => lease_unknown h hj hop hr, fun hj hop hlost hroom => lease_lost h hj hop hlost hroom⟩

end Sys2Proof.Machine
end
